-- ==== Sys2Proof/Word.lean ====
section
/-!
DEFINITION. Word.lean: the machine's word types and their plainest arithmetic.
-/
namespace Sys2Proof

/-- A 32-bit word: a BAR0 register (R9), a lane register (R139), a word of an image. -/
abbrev Word := BitVec 32

/-- A byte of a memory, a message or an entry. -/
abbrev Byte := BitVec 8

/-- A map from natural-number keys to values, held as a sorted list of the entries that differ from a default. -/
abbrev KV (α : Type) := List (Nat × α)

/-- Samples per second: one sample is 500 ns (R8). -/
def samplesPerSecond : Nat := 2000000

/-- Samples per base cycle (R28). -/
def baseCycle : Nat := 100

/-- Samples per hyperperiod (R28): hyperboundaries fall at every SIX divisible by it. -/
def hyperPeriod : Nat := 200000

/-- The signed value of the low `w` bits of `v`. -/
def signed (w v : Nat) : Int :=
  let m := v % 2 ^ w
  if m < 2 ^ (w - 1) then (m : Int) else (m : Int) - (2 ^ w : Nat)

/-- The low `w` bits of the two's complement of an integer. -/
def unsigned (w : Nat) (v : Int) : Nat := (v % ((2 ^ w : Nat) : Int)).toNat

/-- `n` bytes of `v`, least significant first (R9). -/
def leBytes : Nat → Nat → List Byte
  | 0, _ => []
  | n + 1, v => BitVec.ofNat 8 v :: leBytes n (v / 256)

/-- The number that a little-endian byte list spells. -/
def leNat : List Byte → Nat
  | [] => 0
  | b :: bs => b.toNat + 256 * leNat bs

/-- The next boundary of `n` strictly after `k`. -/
def nextAfter (n k : Nat) : Nat := (k / n + 1) * n

/-- The first boundary of `n` at or after `k`. -/
def boundaryAt (n k : Nat) : Nat := (k + n - 1) / n * n

/-- Bit `i` of a natural number. -/
def bit (v i : Nat) : Bool := v / 2 ^ i % 2 == 1

/-- 1 for true and 0 for false. -/
def b2n (b : Bool) : Nat := if b then 1 else 0

/-- The division of a natural number rounded up. -/
def ceilDiv (a b : Nat) : Nat := (a + b - 1) / b

/-- The number of one bits among the low `n` bits of `v`. -/
def popCount : Nat → Nat → Nat
  | 0, _ => 0
  | n + 1, v => v % 2 + popCount n (v / 2)

/-- Signed clamping of an integer into `lo` to `hi`. -/
def clampInt (lo hi v : Int) : Int := if v < lo then lo else if hi < v then hi else v

/-- Division of an integer by a positive divisor, rounding half away from zero. -/
def roundDivAway (a : Int) (d : Nat) : Int :=
  if 0 ≤ a then (2 * a + d) / (2 * d) else -((2 * (-a) + d) / (2 * d))

/-- Integer square root by bisection on `fuel` bits. -/
def isqrtGo : Nat → Nat → Nat → Nat
  | 0, _, r => r
  | f + 1, n, r =>
    let c := r + 2 ^ f
    isqrtGo f n (if c * c ≤ n then c else r)

/-- The greatest `r` below `2 ^ bits` with `r * r ≤ n`. -/
def isqrt (bits n : Nat) : Nat := isqrtGo bits n 0

end Sys2Proof
end

