-- ==== Sys2Proof/Config.lean ====
section
/-!
DEFINITION. Config.lean: what an implementation fixes and the free values: constants without a body, so that no proof can see
what they are and a claim holds whatever they are. Each is named in a row of notes/assumptions.
-/
namespace Sys2Proof.Config

/-- The Cellar code of an engine entry that the spec names without numbering it (R292 gives only its range). -/
opaque codeOf : String → BitVec 16

/-- The default severity of an engine entry for which the spec states none (R292: the firmware's catalogue gives it). -/
opaque sevOf : String → BitVec 2

/-- The lane data address of the copy of an old noun that a migration call reads (R241). -/
opaque migrCopy : Word

/-- Beats of 64 bytes that an engine transfer has written when it is stopped or fails (R219, R284). -/
opaque beats : Nat → Nat

/-- A value that the spec leaves open, by the number of its use. -/
opaque freeWord : Nat → BitVec 64

/-- The 2 820 bytes of an XMSS signature by the identity key (R393): index and signed bytes. RFC 8391 and the key lie outside the spec. -/
opaque xmssSign : Nat → List Byte → List Byte

/-- The extents of a partition's image in DRAM and flash: space, first byte, the byte after (R215 names them and lays none out). -/
opaque imageExtents : Nat → List (Nat × Nat × Nat)

/-- The bytes that a companion store of the Loft's ring takes, by the number of the write and the place in it: R254, R255 and R258 say what an
entry of the journal, the slow ring and the replay ring holds, and lay none out. -/
opaque companionByte : Nat → Nat → BitVec 8

/-- The identity public key of 68 bytes (R394). -/
opaque identityKey : List Byte

/-- The vendor's signature in the identity certificate over its first 104 bytes (R394). -/
opaque vendorSign : List Byte → List Byte

end Sys2Proof.Config
end

