-- ==== Sys2Proof/Data.lean ====
section
/-!
DEFINITION. Data.lean: the plain data that commands carry and that the state holds: Cellar entries, images and their parts,
messages and frames.
-/
namespace Sys2Proof

/-- A Cellar event code (R292): a number the spec gives, or the name of an entry the spec describes without a number. -/
inductive EvCode where
  | num (n : Nat)
  | named (s : String)
deriving DecidableEq, Repr

/-- The range of codes in which an unnumbered entry lies (R292): first code and how many. -/
def codeRange (s : String) : Nat × Nat :=
  if ["DECISION", "CONJ_DEGRADED", "TDO_FAIL"].contains s then (0x200, 0x100)
  else if ["HJL_DEAD", "HJL_HELLO_UNANSWERED", "HJL_QUARANTINE", "TRIP_UNACK"].contains s then (0x100, 0x80)
  else if ["DMA_FAULT", "LANE_EXC", "PAN_FAIL", "PAN_MISMATCH", "TAKEOVER", "CE_STORM"].contains s then (0x300, 0x100)
  else if ["CHG_ABORTED", "MIGR_FAIL", "REPLAY_ABORTED", "VC_WITHDRAWN", "VC_APPLIED", "SWITCHED"].contains s then (0x400, 0x100)
  else if ["ETH_LAN_LOSS", "GOOSE_TAL"].contains s then (0x600, 0x40)
  else if s = "TE_FIRE" then (0x580, 0xC)
  else (0x180, 0x80)

/-- The 16-bit code of an entry; that of an unnumbered entry is the implementation's, within its range. -/
def EvCode.toNat : EvCode → Nat
  | .num n => n
  | .named s => (codeRange s).1 + (Config.codeOf s).toNat % (codeRange s).2

/-- The code of an entry, that of an unnumbered one as the first of its range. -/
def EvCode.base : EvCode → Nat
  | .num n => n
  | .named s => (codeRange s).1

/-- The place of a code's source among those that present entries in one clock (R294): interjection unit, Hjelig links, binary inputs and fabric,
time unit, lanes and tasks, all others. -/
def EvCode.rank (c : EvCode) : Nat :=
  let n := c.base
  if 0x200 ≤ n ∧ n < 0x300 then 0
  else if 0x100 ≤ n ∧ n < 0x180 then 1
  else if 0x180 ≤ n ∧ n < 0x200 then 2
  else if 0x580 ≤ n ∧ n < 0x600 then 3
  else if (0x300 ≤ n ∧ n < 0x400) ∨ 0x800 ≤ n then 4
  else 5

/-- How the Cellar carries out slot writes (R299, R304): the empty slots that it prefers, in order; and for each write of a drain, in order, how it
ends in bank A and in bank B: 0 verified, 1 not verified after two retries, 2 device fault. Writes beyond the list verify. -/
structure CelPuts where
  slots : List Nat
  ends : List (Fin 3 × Fin 3)
deriving DecidableEq, Repr

/-- An event presented to the Cellar (R288, R294): code, severity, the SIX tag (none before SIX starts, R289), event data,
the PROGRAM and TEST marks, the real-time counter for an entry without SIX, and the KIND 2 snapshot words as they stood at the
entry's SIX (R298), by word offset, once they have been read. -/
structure Raised where
  code : EvCode
  sev : Nat
  six : Option Nat
  data : List Byte
  program : Bool
  test : Bool
  rtcNs : Nat
  snap2 : Option (KV Word)
deriving DecidableEq, Repr

/-- A stored Cellar entry with the fields of R288; `flags` holds the FLAGS bits, `crc` follows from the rest. -/
structure Entry where
  seq : Nat
  opsec : Nat
  pcc : Nat
  six : Nat
  todSec : Nat
  epoch : Nat
  todNs : Nat
  sev : Nat
  code : Nat
  supp : Nat
  flags : Nat
  data : List Byte
  snap : List Word
deriving DecidableEq, Repr

/-- A Hjelig word (R47, R50): type code, addressing, content; slot 0 carries type 32, which stands for K28.5. -/
structure LinkWord where
  typ : Nat
  addr : Nat
  content : Nat
  crc : Nat
deriving DecidableEq, Repr

/-- The payload of a HELLO (R54). -/
structure Hello where
  uid : BitVec 64
  utype : BitVec 8
  version : BitVec 8
  caps : BitVec 16
  digest : BitVec 256
deriving DecidableEq, Repr

/-- What the fast-path configuration pins for a port: unit ID, up to four digests, and the safe state of a command station (R62,
R54 SAFE). -/
structure PortPin where
  uid : Nat
  digests : List (BitVec 256)
  safe : List (Nat × Nat)
deriving DecidableEq, Repr

/-! ## Ethernet (R333 to R349) -/

/-- The type of a dataset member (R341). -/
inductive MemType where
  | boolean
  | dbpos
  | int32
  | int32u
  | float32
  | bits (n : Nat)
  | quality
  | timestamp
deriving DecidableEq, Repr

/-- The value of a dataset member: `quality` holds the 13 bits in the order of R341, `timestamp` its second, fraction and TimeQuality. -/
inductive MemVal where
  | boolean (b : Bool)
  | dbpos (v : Nat)
  | int32 (w : Word)
  | int32u (w : Word)
  | float32 (w : Word)
  | bits (bs : List Bool)
  | quality (q : BitVec 13)
  | timestamp (sec : Word) (frac : BitVec 24) (tq : Byte)
deriving DecidableEq, Repr

/-- What names a GOOSE dataset on the wire (R339). -/
structure GooseId where
  mac : Nat
  appid : Nat
  gocbRef : String
  datSet : String
  goID : String
  confRev : Nat
deriving DecidableEq, Repr

/-- A GOOSE message; `tal` is its timeAllowedtoLive in ms. -/
structure GooseMsg where
  id : GooseId
  ndsCom : Bool
  sim : Bool
  test : Bool
  stNum : Nat
  sqNum : Nat
  tal : Nat
  vals : List MemVal
deriving DecidableEq, Repr

/-- The match set of a kind-4 context (R339). -/
structure GooseSub where
  id : GooseId
  members : List MemType
deriving DecidableEq, Repr

/-- A kind-5 context (R342): the identity published, each member's type and first output-image word, TMIN and TMAX in ms, and PCP. -/
structure GoosePub where
  id : GooseId
  members : List (MemType × Nat)
  tmin : Nat
  tmax : Nat
  pcp : Nat
deriving DecidableEq, Repr

/-- One ASDU of a sampled-value frame: smpCnt, smpSynch, and per channel the value with its 14-bit IEC 61850 quality. -/
structure Asdu where
  smpCnt : Nat
  smpSynch : Nat
  vals : List (Int × BitVec 14)
deriving DecidableEq, Repr

/-- A sampled-value frame. -/
structure SvFrame where
  mac : Nat
  appid : Nat
  svId : String
  confRev : Nat
  asdus : List Asdu
deriving DecidableEq, Repr

/-- The stream of a kind-2 context (R344): what names it, samples per second, ASDUs per frame. -/
structure SvSub where
  mac : Nat
  appid : Nat
  svId : String
  confRev : Nat
  rate : Nat
  asdus : Nat
deriving DecidableEq, Repr

/-- The source of a published channel (R345): a fabric item, or an output-image word with the word of its quality. -/
inductive SvSource where
  | item (ctx ch item : Nat)
  | out (word qword : Nat)
deriving DecidableEq, Repr

/-- A kind-3 context (R345). -/
structure SvPub where
  mac : Nat
  appid : Nat
  svId : String
  confRev : Nat
  rate : Nat
  asdus : Nat
  pcp : Nat
  sources : List SvSource
deriving DecidableEq, Repr

/-- What an Announce says of its grandmaster (R312, R313, R324): priority1, clockClass, clockAccuracy, offsetScaledLogVariance,
priority2, identity, stepsRemoved, currentUtcOffset with its valid flag, the PTP timescale flag, the two leap flags, and the
total time inaccuracy of an IEEE_C37_238 TLV. -/
structure AnnData where
  prio1 : Nat
  cls : Nat
  acc : Nat
  var : Nat
  prio2 : Nat
  gm : Nat
  steps : Nat
  utc : Int
  utcValid : Bool
  ptpScale : Bool
  leap61 : Bool
  leap59 : Bool
  inacc : Option Word
deriving DecidableEq, Repr

/-- A PTP message (R312) as received: IEEE 1588 messageType, domain, two-step flag, correctionField in 2^-16 ns, sourcePortIdentity,
sequenceId, logMessageInterval, the timestamp it carries (seconds and ns), what an Announce says, the nanoseconds of its time stamp within the
sample period (R314), and the residence time in 2^-16 ns that forwarding it would take (R315). -/
structure PtpMsg where
  kind : Nat
  domain : Nat
  twoStep : Bool
  corr : Int
  clockId : Nat
  portNo : Nat
  seq : Nat
  logInt : Int
  sec : Nat
  ns : Nat
  ann : Option AnnData
  stamp : Nat
  residence : Nat
deriving DecidableEq, Repr

/-- What a received frame holds. -/
inductive FrameBody where
  | goose (m : GooseMsg)
  | sv (f : SvFrame)
  | ptp (m : PtpMsg)
  | other
deriving DecidableEq, Repr

/-- A received Ethernet frame: addresses, EtherType after tags, length on the wire, whether FCS agrees and an IEEE 802.1Q tag stood,
the sequence number of its redundancy trailer or tag, its bytes without FCS, trailer and redundancy tag, and its content. -/
structure EthFrame where
  dst : Nat
  src : Nat
  etherType : Nat
  len : Nat
  fcsOk : Bool
  tagged : Bool
  seq : Option Nat
  bytes : List Byte
  body : FrameBody
deriving DecidableEq, Repr

/-- What the engine sends in an Ethernet frame; `n` is the context. -/
inductive EthOut where
  | goose (n stNum sqNum tal sec ns : Nat) (words : List Word)
  | sv (n : Nat) (asdus : List Asdu)
  | host (bytes : List Byte)
  | supervision
  | forward (src seq : Nat)
  | forwardPtp (src seq : Nat) (corr : Int)
  | pdelayReq (seq : Nat)
  | pdelayResp (clockId portNo seq : Nat)
deriving DecidableEq, Repr

/-- Scale, unit and name of a recorded channel (R260). -/
structure ChanInfo where
  a : Word
  b : Word
  unit : String
  name : String
deriving DecidableEq, Repr

/-- An analog channel of a COMTRADE configuration file (R285): name, unit, a and b; skew, min, max, primary, secondary and P. -/
structure ComtradeChan where
  info : ChanInfo
  skew : Nat
  min : Int
  max : Int
  primary : Nat
  secondary : Nat
  ps : String
deriving DecidableEq, Repr

/-- An analog channel as R285 fixes what the recorded channel does not give. -/
def comtradeChan (x : ChanInfo) : ComtradeChan := ⟨x, 0, -2147483647, 2147483647, 1, 1, "P"⟩

/-- What a COMTRADE configuration file says (R285): station name, unit ID, year of the standard, the analog channels, names of the status
channels, line frequency, the one rate with its last sample number, first sample and trigger time as UTC seconds and nanoseconds, file
type, timemult in tenths. -/
structure ComtradeCfg where
  station : String
  uid : Nat
  year : Nat
  analog : List ComtradeChan
  status : List String
  hz60 : Bool
  rate : Nat
  samples : Nat
  first : Int × Nat
  trigger : Int × Nat
  fileType : String
  timemult10 : Nat
deriving DecidableEq, Repr

/-- The text of a COMTRADE configuration file by IEEE C37.111-2013, which is outside the spec (R285). -/
opaque Config.comtradeText : ComtradeCfg → List Byte

/-- A fast-path configuration as data: its version number; the value of every setting register it gives, by BAR0 offset; the port
pins; the GOOSE and sampled-value subscriptions and publications, by context; the multicast addresses of the host filter (R334);
port and shelf ID of the peer streams, by context; what the configuration holds of recorded channels, by 1024 * type + number
(R260, R277), of the station name and the line frequency (R285). The format of its body is not in the spec. -/
structure FpConfig where
  version : Nat
  regs : KV Word
  pins : KV PortPin
  gooseSub : KV GooseSub
  goosePub : KV GoosePub
  svSub : KV SvSub
  svPub : KV SvPub
  filter : List Nat
  peers : KV (Nat × Nat)
  chans : KV ChanInfo
  station : String
  hz60 : Bool
  digest : BitVec 256
deriving DecidableEq, Repr

/-- What a word of common SRAM holds whose place the spec leaves to the firmware (R209): an output-image word, an item of a task's input
image by its key, a word of a task's region, a word of the front or back copy of a shelf, or nothing. -/
inductive ImgWord where
  | out (w : Nat)
  | item (t key : Nat)
  | region (t off : Nat)
  | front (id off : Nat)
  | back (id off : Nat)
  | other
deriving DecidableEq, Repr, Inhabited

/-- Where the images lie within 0x00E0_0000 to 0x015F_FFFF of common SRAM, by word offset: the spec does not say. -/
opaque Config.imageWord : Nat → ImgWord

/-- Where the shelves lie within 0x0000_0000 to 0x003F_FFFF of common SRAM, by word offset: the spec does not say. -/
opaque Config.shelfWord : Nat → ImgWord

/-- What the firmware's catalogue says of a code (R292): whether it defines it, default severity, data length, name (up to 16
characters). -/
structure CatEntry where
  defined : Bool
  sev : Nat
  dlen : Nat
  name : String
deriving DecidableEq, Repr, Inhabited

/-- The catalogue's entries for codes to which the spec gives no name or length. -/
opaque Config.catalogue : Nat → CatEntry

/-! ## Program images (R174 to R180, R188, R189, R193, R207, R241, R243)

The format of a program image's body is not in the spec: its content stands as data. -/

/-- A verb-table entry (R175). -/
structure Verb where
  entry : Nat
  nsize : Nat
  psize : Nat
  maxstg : Nat
  vflags : Nat
deriving DecidableEq, Repr

/-- A noun with its header fields and initial value (R176, R177): `base` is the byte address to which NB points, `verb` and `task`
stand in the noun table, `headVerb` in the header; `init` holds the words of the sections. -/
structure Noun where
  id : Nat
  base : Nat
  verb : Nat
  task : Nat
  layout : Nat
  headVerb : Nat
  retentive : Bool
  init : List Word
deriving DecidableEq, Repr

/-- An MPU region (R207); base and limit in units of 64 bytes, the limit's block included. -/
structure Region where
  en : Bool
  base : Nat
  limit : Nat
  space : Nat
  r : Bool
  w : Bool
  x : Bool
  task : Nat
deriving DecidableEq, Repr

/-- What a declared item beyond the fabric's holds (R187, R188, R192): a GOOSE dataset of a context, the result of a universal
channel, a peer shelf of a context with its lag and length in words. -/
inductive DeclKind where
  | goose (ctx : Nat)
  | uch (ch : Nat)
  | peer (ctx lag words : Nat)
deriving DecidableEq, Repr

/-- What releases an event task (R186): whether EVR does, and the rules, inputs, timed-event units and GOOSE contexts that do. -/
structure Sources where
  evr : Bool
  intj : List Nat
  bin : List Nat
  timed : List Nat
  goose : List Nat
deriving DecidableEq, Repr

/-- A task-table entry (R180). `declCtx` are the declared fabric contexts, `declItems` the declared items with the offset of each
in the region of R187, `declShelves` the shelves read, `region` the length of the region in bytes. -/
structure Task where
  tid : Nat
  event : Bool
  prio : Nat
  m : Nat
  minint : Nat
  sources : Sources
  entryVerb : Nat
  entryNoun : Nat
  fmask : Nat
  declCtx : List Nat
  declItems : List (Nat × DeclKind)
  declShelves : List Nat
  region : Nat
deriving DecidableEq, Repr

/-- A shelf (R189, R191): its words, layout hash, writing task, and the peer ports (bit i for PLi) that receive it. -/
structure Shelf where
  id : Nat
  words : Nat
  layout : Nat
  writer : Nat
  peers : Nat
deriving DecidableEq, Repr

/-- Words `first` to `first + count - 1` of the output image, owned by one task (R159). -/
structure OutRegion where
  task : Nat
  first : Nat
  count : Nat
deriving DecidableEq, Repr

/-- A point of a command station and the output-image word that it takes (R193). -/
structure CmdPoint where
  station : Nat
  point : Nat
  word : Nat
deriving DecidableEq, Repr

/-- Where a symbol lies (R243): an item of a task's input image, a word of its region, a word of a noun, an output-image word, a
shelf word, a gate. -/
inductive SymTarget where
  | item (tid key : Nat)
  | region (tid off : Nat)
  | noun (id off : Nat)
  | out (word : Nat)
  | shelf (id word : Nat)
  | gate (g : Nat)
deriving DecidableEq, Repr

/-- The output-image words that a universal channel takes as CTRL and CMD (R361). -/
structure UchMap where
  ch : Nat
  ctrl : Option Nat
  cmd : Option Nat
deriving DecidableEq, Repr

/-- A symbol of the symbol table (R243, R247): its type code, whether it can be forced, the digest of the code that writes it. -/
structure Symbol where
  id : Nat
  typ : Nat
  target : SymTarget
  forceable : Bool
  digest : BitVec 256
deriving DecidableEq, Repr

/-- A partition image (R174) with the part of the image-wide tables that names its tasks. `scratch` gives base and length of the
tasks' scratch frames, `migr` old layout, new layout and verb (R241), `slots` value slot and output-image word and `flags` the first
word of the program flags (R256), `against` the digest of the program image it was prepared
for (R232), `settings` that of the fast-path configuration it declares (R248). -/
structure Partition where
  part : Nat
  code : List Word
  verbs : List Verb
  nouns : List Noun
  consts : List (Nat × Word)
  scratch : List (Nat × Nat)
  regions : List Region
  tasks : List Task
  outputs : List OutRegion
  gates : List (Nat × Nat)
  shelves : List Shelf
  cmdMap : List CmdPoint
  uchMap : List UchMap
  symbols : List Symbol
  migr : List (Nat × Nat × Nat)
  slots : List (Nat × Nat)
  flags : Option Nat
  against : BitVec 256
  settings : BitVec 256
  digest : BitVec 256
deriving DecidableEq, Repr

/-- A program image: its partitions, in rising order, and its digest. -/
structure ProgImage where
  parts : List Partition
  digest : BitVec 256
deriving DecidableEq, Repr

/-- What has left the engine in the current sample period. -/
inductive Out where
  | msix (pf v : Nat)
  | readData (pf off : Nat) (w : Word)
  | word (port slot : Nat) (w : LinkWord)
  | msg (port kind crc : Nat) (payload : List Byte) (words : List LinkWord)
  | uart (bytes : List Byte)
  | hart (g : Nat) (bytes : List Byte)
  | eth (port : Nat) (seq : Option Nat) (pcp : Nat) (body : EthOut)
deriving DecidableEq, Repr

/-- How a HART transaction ended on the wire (R369): a verified reply from its delimiter to its last data byte, none, or a bad one. -/
inductive HartEnd where
  | reply (bytes : List Byte)
  | none
  | bad
deriving DecidableEq, Repr

/-- What a memory error strikes (R223): a copy of the fast-path configuration (with the other copy bad as well or not), a sample of
the STEM capture buffer (slot and position), a Pantry slot, a slot of the Cellar's banks (which copies are bad, whether its SEQ can be read,
how the rewriting ends as in CelPuts, a device fault of those banks' controllers among them), or nothing of these. -/
inductive ErrPlace where
  | other
  | config (both : Bool)
  | scap (slot pos : Nat)
  | pantry (slot : Nat)
  | cellar (slot : Nat) (badA badB seqOk : Bool) (wr : Fin 3)
deriving DecidableEq, Repr

/-- What a start finds (R24, R306, R365, R411): VMAIN in 10 mV; the real-time counter of P0 in ns at the instant SIX starts, which also stands for the
moments at which the start raises entries before; which Cellar banks
pass their test, whether P0 has kept its content, torn slots; how a forced thaw writes; the levels of ALMSEL0 to
ALMSEL3; whether both P2 copies of the fast-path configuration fail; `age` is the time in samples from the reference event of R411 to
the start of SIX. -/
structure Boot where
  age : Nat
  vmain : Nat
  rtc : Nat
  okA : Bool
  okB : Bool
  p0 : Bool
  torn : List Nat
  slots : CelPuts
  almsel : BitVec 4
  p2Bad : Bool
deriving DecidableEq, Repr

/-- One descriptor of a DMA chain (R214), with the address it stood at. -/
structure Desc where
  at_ : Nat
  ctrl : Nat
  len : Nat
  src : Nat
  dst : Nat
  next : Int
  tagseq : Nat
deriving DecidableEq, Repr

/-- How a lane fails (R196, R223): cause 0 LOCKSTEP, 1 to 3 an uncorrectable error in code memory, data memory, staging at a byte
address. -/
structure LaneErr where
  cause : Fin 4
  addr : Word
deriving DecidableEq, Repr

/-- The head of a SHELF message (R82): its publish SIX and shelf ID. -/
structure ShelfHead where
  pub : BitVec 64
  shelf : BitVec 16
deriving DecidableEq, Repr

/-- The end of a descriptor (R213, R214): whether host memory delivers the next one of a host channel's chain, and the descriptor that
an engine channel has carried out. -/
structure DescEnd where
  fetchOk : Bool
  eng : Desc
deriving DecidableEq, Repr

/-- A beat that fails (R217, R218): whether it is a tag beat, and the descriptor of an engine channel. -/
structure BadBeat where
  tag : Bool
  eng : Desc
deriving DecidableEq, Repr

/-- What an image holds. -/
inductive ImageBody where
  | firmware (version : Word)
  | fastPath (cfg : FpConfig)
  | program (img : ProgImage)
  | partition (img : Partition)
deriving DecidableEq, Repr

/-- An image with its header fields (R389) and the facts that the island establishes about its bytes: the header is well formed,
the body digest holds, the signature verifies under the named key. -/
structure Image where
  kind : Nat
  issue : Nat
  svn : Nat
  keyslot : Nat
  unitId : Nat
  baseDigest : BitVec 256
  digest : BitVec 256
  headerOk : Bool
  digestOk : Bool
  sigOk : Bool
  body : ImageBody
deriving DecidableEq, Repr

end Sys2Proof
end

