-- ==== Sys2Proof/Syntax.lean ====
section
/-!
DEFINITION. Syntax.lean: the commands of the block, one constructor per row of spec/opcode_table.json, in the table's order.
The table gives its rows no bits; the operands are what a command brings from outside: the port, channel, lane or unit it
concerns, the word the host writes, the fields of the instruction format (R142), and the facts of the surroundings on which the
rule of the row depends (a signature that verifies, a level at a pin).
-/
namespace Sys2Proof

/-- The commands of the block. -/
inductive Instr where
  /-- SIX_ADVANCE (R23). The next sample period begins. -/
  | sixAdvance
  /-- CYCLE_RELEASE (R181). The release SIX of cyclic task `t` is reached. -/
  | cycleRelease (t : Fin 32)
  /-- EVENT_TASK_RELEASE (R186). Event task TID 32 + `n` meets the conditions of R186. -/
  | eventTaskRelease (n : Fin 16)
  /-- OUTPUT_RELEASE (R158). Release plus period of one or more cycles is reached. -/
  | outputRelease
  /-- COMMAND_GROUP_SEND (R194). The group that waits on port `p` leaves. -/
  | commandGroupSend (p : Fin 44)
  /-- DEADLINE (R184). Release plus period minus 2 of the task's cycle, live or of the shadow, is reached. -/
  | deadline (t : Fin 48) (shadow : Bool)
  /-- PANTRY_SNAPSHOT (R200). A hyperboundary is reached. -/
  | pantrySnapshot
  /-- LANE_FAIL (R196). Lane `ln` fails as `err` says: LOCKSTEP, or an uncorrectable error in code memory, data memory, staging, with its address. -/
  | laneFail (ln : Fin 4) (err : LaneErr)
  /-- TAKEOVER (R197). The first base-cycle boundary at least 200 samples after the detection is reached. -/
  | takeover
  /-- WORD_DISCARDED (R49). The upstream word of `slot` on port `p` fails: by its CRC, else by a code violation, a disparity error or a reserved type. -/
  | wordDiscarded (p : Fin 44) (slot : Fin 25) (crc : Bool)
  /-- FRAME_ALIGNMENT_ACQUIRED (R46). K28.5 stood at three consecutive positions on port `p`. -/
  | frameAlignmentAcquired (p : Fin 44)
  /-- FRAME_ALIGNMENT_LOST (R46). Three consecutive frames of port `p` had no K28.5 at the expected position. -/
  | frameAlignmentLost (p : Fin 44)
  /-- FRAME_RECEIVED (R61). A FRAME word arrives on port `p`, its first bit `arr` / 65 536 of a sample into this period; `opened` is the kind of a message whose MSG_START stands in the frame, `head` the publish SIX and the shelf ID at the head of a SHELF. -/
  | frameReceived (p : Fin 44) (six24 : BitVec 24) (arr : Fin 65536) (opened : Option (Fin 256)) (head : ShelfHead)
  /-- SAMPLE_RECEIVED (R110). The SAMPLE word of channel `c` arrives in the current frame of port `p`. -/
  | sampleReceived (p : Fin 32) (c : Fin 8) (code : BitVec 24)
  /-- DIRECTIONAL_EVALUATE (R115). Both channels of pair `p` are known for its next SIX. -/
  | directionalEvaluate (p : Fin 64)
  /-- STEP_HOLD_EXPIRY (R114). The HOLD of channel `n`'s step element has run out. -/
  | stepHoldExpiry (n : Fin 256)
  /-- DIRECTIONAL_HOLD_EXPIRY (R115). A hold of pair `p` has run out. -/
  | directionalHoldExpiry (p : Fin 64)
  /-- CHSTAT_RECEIVED (R103). The CHSTAT word of the current frame arrives. -/
  | chstatReceived (p : Fin 32) (ovr settle : BitVec 8)
  /-- UNITSTAT_RECEIVED (R66). The UNITSTAT word of the current frame arrives. -/
  | unitstatReceived (p : Fin 44) (inc : BitVec 16) (ustate flags : BitVec 4)
  /-- ECHO_RECEIVED (R57). An ECHO for the PING `tag` arrives `span` after that PING left, with turnaround `turn`, both in 0.125 ns. -/
  | echoReceived (p : Fin 44) (tag : BitVec 8) (span : BitVec 20) (turn : BitVec 16)
  /-- COMP_RESEND (R59). The second STROBE with SIX[7:0] zero since an unconfirmed COMP of port `p` has passed. -/
  | compResend (p : Fin 44)
  /-- PING_SEND (R59). Slot 24 of the current frame of port `p` is due a PING. -/
  | pingSend (p : Fin 44)
  /-- CALIBRATION_FAILED (R62). Calibration of port `p` has failed. -/
  | calibrationFailed (p : Fin 44)
  /-- HELLO_RECEIVED (R62). A complete HELLO message arrives on port `p`. -/
  | helloReceived (p : Fin 44) (h : Hello)
  /-- PEER_TIME_RECEIVED (R80). A complete PEER_TIME arrives on peer link `p`; the frame that carried its MSG_START began `arr` / 65 536 of a sample into this period. -/
  | peerTimeReceived (p : Fin 4) (peerSix : BitVec 64) (arr : Fin 65536)
  /-- SHELF_RECEIVED (R82). A complete SHELF message arrives on peer port `p`: shelf ID, the sender's publish SIX, content. -/
  | shelfReceived (p : Fin 4) (id : BitVec 16) (pub : BitVec 64) (words : List Word)
  /-- MESSAGE_TIMEOUT (R53). 64 frames have passed between two words of a message on port `p`. -/
  | messageTimeout (p : Fin 44)
  /-- PORT_LOST (R65). Three upstream frames of port `p` had no valid FRAME word. -/
  | portLost (p : Fin 44)
  /-- PORT_RECOVERED (R66). The sixteenth consecutive valid frame with its incarnation reaches a LOST port. -/
  | portRecovered (p : Fin 44)
  /-- PORT_DEAD (R67). The dead timer of port `p` expires. -/
  | portDead (p : Fin 44)
  /-- HJL_READMIT (R70). Function `pf` writes `w` to HJL_READMIT. -/
  | hjlReadmit (pf : Fin 2) (w : Word)
  /-- HJL_REBIND (R70). Function `pf` writes `w` to HJL_REBIND. -/
  | hjlRebind (pf : Fin 2) (w : Word)
  /-- STATION_REBIND (R70). The hyperboundary of a pending rebind is reached. -/
  | stationRebind
  /-- PEER_TIME_SEND (R80). PEER_TIME is due on peer link `p`. -/
  | peerTimeSend (p : Fin 4)
  /-- PEER_SHELF_SEND (R191). Shelf `id` is published to peer port `p`. -/
  | peerShelfSend (p : Fin 4) (id : Fin 1024)
  /-- RULE_EVALUATE (R117). Every input of rule `r` is known for its next SIX. -/
  | ruleEvaluate (r : Fin 128)
  /-- RULE_REARM (R117). The next SIX of rule `r` completes its DROPOUT run of false SIX. -/
  | ruleRearm (r : Fin 128)
  /-- TRIP_REPEAT_SLOT1 (R75). A frame from n0 + 5 on of an unacknowledged decision on port `p`. -/
  | tripRepeatSlot1 (p : Fin 44)
  /-- ACK_RECEIVED (R77). An ACK arrives on port `p` with this codeword and sequence number, valid under incarnation `inc`. -/
  | ackReceived (p : Fin 44) (cw : BitVec 16) (seq : BitVec 4) (inc : BitVec 16)
  /-- TRIP_UNACK (R77). A decision on port `p` stays unacknowledged 200 samples after its first word. -/
  | tripUnack (p : Fin 44)
  /-- VOTE_RECEIVED (R126). A VOTE word arrives on peer link `p`. -/
  | voteReceived (p : Fin 4) (wire : BitVec 6) (state : BitVec 2) (six : BitVec 16) (vseq : BitVec 3)
  /-- PICKUP_EXPIRED (R126). VWAIT has run out on group `g`'s pickup. -/
  | pickupExpired (g : Fin 16)
  /-- TDO_RELEASE (R123). TMIN has run since TDOn's latest decision and no driving rule is true. -/
  | tdoRelease (n : Fin 8)
  /-- INJ_TDO_RST (R123). Function `pf` writes `w` to INJ_TDO_RST. -/
  | injTdoRst (pf : Fin 2) (w : Word)
  /-- TDO_FAIL (R124). TDOn's readback has mismatched for RB_T samples. -/
  | tdoFail (n : Fin 8)
  /-- TDO_FAIL_CLEAR (R124). TDOn's readback has matched for RB_T samples. -/
  | tdoFailClear (n : Fin 8)
  /-- SCAP_FROZEN (R133). POST samples have been written after the first decision in STEM. -/
  | scapFrozen
  /-- SCAP_REARM (R133). Function `pf` writes `w` with REARM to INJ_SCAP_CTL. -/
  | scapRearm (pf : Fin 2) (w : Word)
  /-- FASTPATH_CONFIG_EFFECT (R132). The hyperboundary of an installed fast-path configuration has come. -/
  | fastpathConfigEffect
  /-- DERIVED_VALUES_COMPUTE (R89). The fabric completes the base-cycle values of context `n`. -/
  | derivedValuesCompute (n : Fin 256)
  /-- GRID_VALUE_COMPUTE (R100). The resampler computes the grid value of context `n` for the grid point just passed. -/
  | gridValueCompute (n : Fin 256)
  /-- BINARY_INPUT_SAMPLE (R104). The pins BIN0-BIN31 and TDR0-TDR7 stand at these levels at the start of the sample period. -/
  | binaryInputSample (pins : BitVec 32) (tdr : BitVec 8)
  /-- BIN_CONFIRM (R105). Input `n` has held its level for DEB samples. -/
  | binConfirm (n : Fin 32)
  /-- CHATTER_HOLD_END (R106). The hold of input `n`'s chatter block has run out. -/
  | chatterHoldEnd (n : Fin 32)
  /-- PERSISTENT_SET (R107). Input `n` has been active for PERS_S. -/
  | persistentSet (n : Fin 32)
  /-- ILLEGAL_OPCODE (R143). Lane `ln` meets the word `w`, whose op or fn is reserved. -/
  | illegalOpcode (ln : Fin 4) (w : Word)
  /-- ADD (R146). Lane `ln` executes it with these fields; d := a + b, wrapping. -/
  | add (ln : Fin 4) (d a b : Fin 32) (sb : Bool)
  /-- SUB (R146). Lane `ln` executes it with these fields; d := a - b, wrapping. -/
  | sub (ln : Fin 4) (d a b : Fin 32) (sb : Bool)
  /-- ADDS (R146). Lane `ln` executes it with these fields; d := sat_s32(a + b). -/
  | adds (ln : Fin 4) (d a b : Fin 32) (sb : Bool)
  /-- SUBS (R146). Lane `ln` executes it with these fields; d := sat_s32(a - b). -/
  | subs (ln : Fin 4) (d a b : Fin 32) (sb : Bool)
  /-- ADDUS (R146). Lane `ln` executes it with these fields; d := sat_u32(u(a) + u(b)). -/
  | addus (ln : Fin 4) (d a b : Fin 32) (sb : Bool)
  /-- SUBUS (R146). Lane `ln` executes it with these fields; d := sat_u32(u(a) - u(b)). -/
  | subus (ln : Fin 4) (d a b : Fin 32) (sb : Bool)
  /-- MUL (R146). Lane `ln` executes it with these fields; d := low word of a × b. -/
  | mul (ln : Fin 4) (d a b : Fin 32) (sb : Bool)
  /-- MULH (R146). Lane `ln` executes it with these fields; d := high word of the signed product. -/
  | mulh (ln : Fin 4) (d a b : Fin 32) (sb : Bool)
  /-- MULHU (R146). Lane `ln` executes it with these fields; d := high word of the unsigned product. -/
  | mulhu (ln : Fin 4) (d a b : Fin 32) (sb : Bool)
  /-- MULS (R146). Lane `ln` executes it with these fields; d := sat_s32(a × b). -/
  | muls (ln : Fin 4) (d a b : Fin 32) (sb : Bool)
  /-- DIV (R147). Lane `ln` executes it with these fields; signed quotient (R147). -/
  | div (ln : Fin 4) (d a b : Fin 32) (sb : Bool)
  /-- DIVU (R147). Lane `ln` executes it with these fields; unsigned quotient (R147). -/
  | divu (ln : Fin 4) (d a b : Fin 32) (sb : Bool)
  /-- REM (R147). Lane `ln` executes it with these fields; signed remainder (R147). -/
  | rem (ln : Fin 4) (d a b : Fin 32) (sb : Bool)
  /-- REMU (R147). Lane `ln` executes it with these fields; unsigned remainder (R147). -/
  | remu (ln : Fin 4) (d a b : Fin 32) (sb : Bool)
  /-- AND (R146). Lane `ln` executes it with these fields; d := a and b. -/
  | andReg (ln : Fin 4) (d a b : Fin 32) (sb : Bool)
  /-- OR (R146). Lane `ln` executes it with these fields; d := a or b. -/
  | orReg (ln : Fin 4) (d a b : Fin 32) (sb : Bool)
  /-- XOR (R146). Lane `ln` executes it with these fields; d := a xor b. -/
  | xorReg (ln : Fin 4) (d a b : Fin 32) (sb : Bool)
  /-- ANDN (R146). Lane `ln` executes it with these fields; d := a and not b. -/
  | andnReg (ln : Fin 4) (d a b : Fin 32) (sb : Bool)
  /-- SLL (R146). Lane `ln` executes it with these fields; d := a << b[4:0]. -/
  | sll (ln : Fin 4) (d a b : Fin 32) (sb : Bool)
  /-- SRL (R146). Lane `ln` executes it with these fields; d := u(a) >> b[4:0]. -/
  | srl (ln : Fin 4) (d a b : Fin 32) (sb : Bool)
  /-- SRA (R146). Lane `ln` executes it with these fields; d := s(a) >> b[4:0]. -/
  | sra (ln : Fin 4) (d a b : Fin 32) (sb : Bool)
  /-- ROR (R146). Lane `ln` executes it with these fields; d := a rotated right by b[4:0]. -/
  | ror (ln : Fin 4) (d a b : Fin 32) (sb : Bool)
  /-- SLT (R146). Lane `ln` executes it with these fields; d := 1 if s(a) < s(b), else 0. -/
  | slt (ln : Fin 4) (d a b : Fin 32) (sb : Bool)
  /-- SLTU (R146). Lane `ln` executes it with these fields; d := 1 if u(a) < u(b), else 0. -/
  | sltu (ln : Fin 4) (d a b : Fin 32) (sb : Bool)
  /-- MIN (R146). Lane `ln` executes it with these fields; d := smaller of s(a), s(b). -/
  | minS (ln : Fin 4) (d a b : Fin 32) (sb : Bool)
  /-- MAX (R146). Lane `ln` executes it with these fields; d := larger of s(a), s(b). -/
  | maxS (ln : Fin 4) (d a b : Fin 32) (sb : Bool)
  /-- MINU (R146). Lane `ln` executes it with these fields; d := smaller of u(a), u(b). -/
  | minu (ln : Fin 4) (d a b : Fin 32) (sb : Bool)
  /-- MAXU (R146). Lane `ln` executes it with these fields; d := larger of u(a), u(b). -/
  | maxu (ln : Fin 4) (d a b : Fin 32) (sb : Bool)
  /-- ABS (R146). Lane `ln` executes it with these fields; d := sat_s32(abs(s(a))). -/
  | abs (ln : Fin 4) (d a b : Fin 32) (sb : Bool)
  /-- CLZ (R146). Lane `ln` executes it with these fields; d := leading zeros of a. -/
  | clz (ln : Fin 4) (d a b : Fin 32) (sb : Bool)
  /-- ADDI (R148). Lane `ln` executes it with these fields; d := a + sext(imm16), wrapping. -/
  | addi (ln : Fin 4) (d a : Fin 32) (imm : BitVec 16)
  /-- ADDIS (R148). Lane `ln` executes it with these fields; d := sat_s32(a + sext(imm16)). -/
  | addis (ln : Fin 4) (d a : Fin 32) (imm : BitVec 16)
  /-- ANDI (R148). Lane `ln` executes it with these fields; d := a and zext(imm16). -/
  | andi (ln : Fin 4) (d a : Fin 32) (imm : BitVec 16)
  /-- ORI (R148). Lane `ln` executes it with these fields; d := a or zext(imm16). -/
  | ori (ln : Fin 4) (d a : Fin 32) (imm : BitVec 16)
  /-- XORI (R148). Lane `ln` executes it with these fields; d := a xor zext(imm16). -/
  | xori (ln : Fin 4) (d a : Fin 32) (imm : BitVec 16)
  /-- LUI (R148). Lane `ln` executes it with these fields; d := imm16 << 16; a must be 0. -/
  | lui (ln : Fin 4) (d a : Fin 32) (imm : BitVec 16)
  /-- SLTI (R148). Lane `ln` executes it with these fields; d := 1 if s(a) < sext(imm16), else 0. -/
  | slti (ln : Fin 4) (d a : Fin 32) (imm : BitVec 16)
  /-- SLTIU (R148). Lane `ln` executes it with these fields; d := 1 if u(a) < u(sext(imm16)), else 0. -/
  | sltiu (ln : Fin 4) (d a : Fin 32) (imm : BitVec 16)
  /-- ADD64 (R149). Lane `ln` executes it with these fields; d := a + b, wrapping. -/
  | add64 (ln : Fin 4) (d a b : Fin 32) (sb : Bool)
  /-- SUB64 (R149). Lane `ln` executes it with these fields; d := a - b, wrapping. -/
  | sub64 (ln : Fin 4) (d a b : Fin 32) (sb : Bool)
  /-- ADDS64 (R149). Lane `ln` executes it with these fields; d := sat_s64(a + b). -/
  | adds64 (ln : Fin 4) (d a b : Fin 32) (sb : Bool)
  /-- SUBS64 (R149). Lane `ln` executes it with these fields; d := sat_s64(a - b). -/
  | subs64 (ln : Fin 4) (d a b : Fin 32) (sb : Bool)
  /-- MULL (R149). Lane `ln` executes it with these fields; d := s64(a) × s64(b). -/
  | mull (ln : Fin 4) (d a b : Fin 32) (sb : Bool)
  /-- MULLU (R149). Lane `ln` executes it with these fields; d := u64(a) × u64(b). -/
  | mullu (ln : Fin 4) (d a b : Fin 32) (sb : Bool)
  /-- AND64 (R149). Lane `ln` executes it with these fields; d := a and b. -/
  | and64 (ln : Fin 4) (d a b : Fin 32) (sb : Bool)
  /-- OR64 (R149). Lane `ln` executes it with these fields; d := a or b. -/
  | or64 (ln : Fin 4) (d a b : Fin 32) (sb : Bool)
  /-- XOR64 (R149). Lane `ln` executes it with these fields; d := a xor b. -/
  | xor64 (ln : Fin 4) (d a b : Fin 32) (sb : Bool)
  /-- SLL64 (R149). Lane `ln` executes it with these fields; d := a << b[5:0]. -/
  | sll64 (ln : Fin 4) (d a b : Fin 32) (sb : Bool)
  /-- SRL64 (R149). Lane `ln` executes it with these fields; d := u(a) >> b[5:0]. -/
  | srl64 (ln : Fin 4) (d a b : Fin 32) (sb : Bool)
  /-- SRA64 (R149). Lane `ln` executes it with these fields; d := s(a) >> b[5:0]. -/
  | sra64 (ln : Fin 4) (d a b : Fin 32) (sb : Bool)
  /-- SLT64 (R149). Lane `ln` executes it with these fields; d := 1 if s(a) < s(b), else 0. -/
  | slt64 (ln : Fin 4) (d a b : Fin 32) (sb : Bool)
  /-- SLTU64 (R149). Lane `ln` executes it with these fields; d := 1 if u(a) < u(b), else 0. -/
  | sltu64 (ln : Fin 4) (d a b : Fin 32) (sb : Bool)
  /-- SEXT (R149). Lane `ln` executes it with these fields; d := s64(a). -/
  | sext (ln : Fin 4) (d a b : Fin 32) (sb : Bool)
  /-- ZEXT (R149). Lane `ln` executes it with these fields; d := u64(a). -/
  | zext (ln : Fin 4) (d a b : Fin 32) (sb : Bool)
  /-- QMUL31 (R150). Lane `ln` executes it with these fields; d := sat_s32(floor(a × b / 2^31)). -/
  | qmul31 (ln : Fin 4) (d a b : Fin 32) (sb : Bool)
  /-- QMULR31 (R150). Lane `ln` executes it with these fields; d := sat_s32(rnd(a × b, 2^31)). -/
  | qmulr31 (ln : Fin 4) (d a b : Fin 32) (sb : Bool)
  /-- QADD15 (R150). Lane `ln` executes it with these fields; each half: sat_s16(x + y). -/
  | qadd15 (ln : Fin 4) (d a b : Fin 32) (sb : Bool)
  /-- QSUB15 (R150). Lane `ln` executes it with these fields; each half: sat_s16(x - y). -/
  | qsub15 (ln : Fin 4) (d a b : Fin 32) (sb : Bool)
  /-- QMUL15 (R150). Lane `ln` executes it with these fields; each half: sat_s16(rnd(x × y, 2^15)). -/
  | qmul15 (ln : Fin 4) (d a b : Fin 32) (sb : Bool)
  /-- QSHL31 (R150). Lane `ln` executes it with these fields; d := sat_s32(a × 2^b[4:0]). -/
  | qshl31 (ln : Fin 4) (d a b : Fin 32) (sb : Bool)
  /-- QRSH31 (R150). Lane `ln` executes it with these fields; d := rnd(a, 2^b[4:0]). -/
  | qrsh31 (ln : Fin 4) (d a b : Fin 32) (sb : Bool)
  /-- QNEG31 (R150). Lane `ln` executes it with these fields; d := sat_s32(-a). -/
  | qneg31 (ln : Fin 4) (d a b : Fin 32) (sb : Bool)
  /-- QPACK15 (R150). Lane `ln` executes it with these fields; packs the rounded high halves of a and b. -/
  | qpack15 (ln : Fin 4) (d a b : Fin 32) (sb : Bool)
  /-- FADD (R152). Lane `ln` executes it with these fields; d := a + b. -/
  | fadd (ln : Fin 4) (d a b : Fin 32) (sb : Bool)
  /-- FSUB (R152). Lane `ln` executes it with these fields; d := a - b. -/
  | fsub (ln : Fin 4) (d a b : Fin 32) (sb : Bool)
  /-- FMUL (R152). Lane `ln` executes it with these fields; d := a × b. -/
  | fmul (ln : Fin 4) (d a b : Fin 32) (sb : Bool)
  /-- FDIV (R152). Lane `ln` executes it with these fields; d := a / b. -/
  | fdiv (ln : Fin 4) (d a b : Fin 32) (sb : Bool)
  /-- FSQRT (R152). Lane `ln` executes it with these fields; d := square root of a. -/
  | fsqrt (ln : Fin 4) (d a b : Fin 32) (sb : Bool)
  /-- FMIN (R152). Lane `ln` executes it with these fields; the smaller. -/
  | fmin (ln : Fin 4) (d a b : Fin 32) (sb : Bool)
  /-- FMAX (R152). Lane `ln` executes it with these fields; the larger. -/
  | fmax (ln : Fin 4) (d a b : Fin 32) (sb : Bool)
  /-- FABS (R152). Lane `ln` executes it with these fields; clears the sign bit. -/
  | fabs (ln : Fin 4) (d a b : Fin 32) (sb : Bool)
  /-- FNEG (R152). Lane `ln` executes it with these fields; inverts the sign bit. -/
  | fneg (ln : Fin 4) (d a b : Fin 32) (sb : Bool)
  /-- FCMP (R153). Lane `ln` executes it with these fields; sets the flags by R153. -/
  | fcmp (ln : Fin 4) (d a b : Fin 32) (sb : Bool)
  /-- FCVTSW (R152). Lane `ln` executes it with these fields; d := float(s(a)), rounded. -/
  | fcvtsw (ln : Fin 4) (d a b : Fin 32) (sb : Bool)
  /-- FCVTWS (R152). Lane `ln` executes it with these fields; d := s32 nearest to a, ties to even. -/
  | fcvtws (ln : Fin 4) (d a b : Fin 32) (sb : Bool)
  /-- FCVTWSZ (R152). Lane `ln` executes it with these fields; d := s32 of a, truncated. -/
  | fcvtwsz (ln : Fin 4) (d a b : Fin 32) (sb : Bool)
  /-- FSCALB (R152). Lane `ln` executes it with these fields; d := a × 2^s(b). -/
  | fscalb (ln : Fin 4) (d a b : Fin 32) (sb : Bool)
  /-- MFS (R139). Lane `ln` executes it with these fields; special register to g[d]. -/
  | mfs (ln : Fin 4) (d a b : Fin 32) (fn10 : Bool)
  /-- MTF (R140). Lane `ln` executes it with these fields; g[a] to FLG. -/
  | mtf (ln : Fin 4) (d a b : Fin 32) (fn10 : Bool)
  /-- LDW (R154). Lane `ln` executes it with these fields; d := mem32. -/
  | ldw (ln : Fin 4) (d a : Fin 32) (imm : BitVec 16)
  /-- LDH (R154). Lane `ln` executes it with these fields; d := sext(mem16). -/
  | ldh (ln : Fin 4) (d a : Fin 32) (imm : BitVec 16)
  /-- LDHU (R154). Lane `ln` executes it with these fields; d := zext(mem16). -/
  | ldhu (ln : Fin 4) (d a : Fin 32) (imm : BitVec 16)
  /-- LDB (R154). Lane `ln` executes it with these fields; d := sext(mem8). -/
  | ldb (ln : Fin 4) (d a : Fin 32) (imm : BitVec 16)
  /-- LDBU (R154). Lane `ln` executes it with these fields; d := zext(mem8). -/
  | ldbu (ln : Fin 4) (d a : Fin 32) (imm : BitVec 16)
  /-- LDD (R154). Lane `ln` executes it with these fields; pair d := mem64. -/
  | ldd (ln : Fin 4) (d a : Fin 32) (imm : BitVec 16)
  /-- STW (R154). Lane `ln` executes it with these fields; mem32 := g[d]. -/
  | stw (ln : Fin 4) (d a : Fin 32) (imm : BitVec 16)
  /-- STH (R154). Lane `ln` executes it with these fields; mem16 := low half of g[d]. -/
  | sth (ln : Fin 4) (d a : Fin 32) (imm : BitVec 16)
  /-- STB (R154). Lane `ln` executes it with these fields; mem8 := low byte of g[d]. -/
  | stb (ln : Fin 4) (d a : Fin 32) (imm : BitVec 16)
  /-- STD (R154). Lane `ln` executes it with these fields; mem64 := pair d. -/
  | std (ln : Fin 4) (d a : Fin 32) (imm : BitVec 16)
  /-- CLDW (R154). Lane `ln` executes it with these fields; d := mem32 of common SRAM. -/
  | cldw (ln : Fin 4) (d a : Fin 32) (imm : BitVec 16)
  /-- CLDD (R154). Lane `ln` executes it with these fields; pair d := mem64 of common SRAM. -/
  | cldd (ln : Fin 4) (d a : Fin 32) (imm : BitVec 16)
  /-- CSTW (R154). Lane `ln` executes it with these fields; mem32 of common SRAM := g[d]. -/
  | cstw (ln : Fin 4) (d a : Fin 32) (imm : BitVec 16)
  /-- CSTD (R154). Lane `ln` executes it with these fields; mem64 of common SRAM := pair d. -/
  | cstd (ln : Fin 4) (d a : Fin 32) (imm : BitVec 16)
  /-- NLD (R155). Lane `ln` executes it with these fields; d := word of the current noun. -/
  | nld (ln : Fin 4) (d a : Fin 32) (imm : BitVec 16)
  /-- NST (R155). Lane `ln` executes it with these fields; stages g[d] for the current noun. -/
  | nst (ln : Fin 4) (d a : Fin 32) (imm : BitVec 16)
  /-- SLD (R156). Lane `ln` executes it with these fields; reads the frozen image. -/
  | sld (ln : Fin 4) (d : Fin 32) (ctx : BitVec 8) (ch : BitVec 5) (item : BitVec 8)
  /-- SLDP (R156). Lane `ln` executes it with these fields; reads the frozen image. -/
  | sldp (ln : Fin 4) (d : Fin 32) (ctx : BitVec 8) (ch : BitVec 5) (item : BitVec 8)
  /-- ILD (R157). Lane `ln` executes it with these fields; d := word of the input image. -/
  | ild (ln : Fin 4) (d a : Fin 32) (imm : BitVec 16)
  /-- OST (R158). Lane `ln` executes it with these fields; output-image word := g[d]. -/
  | ost (ln : Fin 4) (d a : Fin 32) (imm : BitVec 16)
  /-- SHLD (R158). Lane `ln` executes it with these fields; d := word of a shelf. -/
  | shld (ln : Fin 4) (d a b : Fin 32) (fn : BitVec 11)
  /-- SHST (R158). Lane `ln` executes it with these fields; word of a shelf := g[d]. -/
  | shst (ln : Fin 4) (d a b : Fin 32) (fn : BitVec 11)
  /-- GSET (R160). Lane `ln` executes it with these fields; writes a gate. -/
  | gset (ln : Fin 4) (d a : Fin 32) (imm : BitVec 16)
  /-- EVR (R158). Lane `ln` executes it with these fields; raises an event task. -/
  | evr (ln : Fin 4) (d a : Fin 32) (imm : BitVec 16)
  /-- CNOTE (R161). Lane `ln` executes it with these fields; issues a note. -/
  | cnote (ln : Fin 4) (d a b : Fin 32) (fn : BitVec 11)
  /-- LIM (R163). Lane `ln` executes it with these fields; bounds the LOOP that follows. -/
  | lim (ln : Fin 4) (d a : Fin 32) (imm : BitVec 16)
  /-- LOOP (R163). Lane `ln` executes it with these fields; opens a counted loop. -/
  | loop (ln : Fin 4) (d a b : Fin 32) (fn : BitVec 11)
  /-- BEQ (R162). Lane `ln` executes it with these fields; branches if equal. -/
  | beq (ln : Fin 4) (d a : Fin 32) (imm : BitVec 16)
  /-- BNE (R162). Lane `ln` executes it with these fields; branches if not equal. -/
  | bne (ln : Fin 4) (d a : Fin 32) (imm : BitVec 16)
  /-- BLT (R162). Lane `ln` executes it with these fields; branches if less, signed. -/
  | blt (ln : Fin 4) (d a : Fin 32) (imm : BitVec 16)
  /-- BGE (R162). Lane `ln` executes it with these fields; branches if not less, signed. -/
  | bge (ln : Fin 4) (d a : Fin 32) (imm : BitVec 16)
  /-- BLTU (R162). Lane `ln` executes it with these fields; branches if less, unsigned. -/
  | bltu (ln : Fin 4) (d a : Fin 32) (imm : BitVec 16)
  /-- BGEU (R162). Lane `ln` executes it with these fields; branches if not less, unsigned. -/
  | bgeu (ln : Fin 4) (d a : Fin 32) (imm : BitVec 16)
  /-- BF (R162). Lane `ln` executes it with these fields; branches on a condition code. -/
  | bf (ln : Fin 4) (d a : Fin 32) (imm : BitVec 16)
  /-- J (R162). Lane `ln` executes it with these fields; jumps. -/
  | j (ln : Fin 4) (off : BitVec 26)
  /-- JL (R162). Lane `ln` executes it with these fields; jumps. -/
  | jl (ln : Fin 4) (off : BitVec 26)
  /-- JR (R162). Lane `ln` executes it with these fields; jumps to g[a]. -/
  | jr (ln : Fin 4) (d a b : Fin 32) (fn : BitVec 11)
  /-- SEL (R162). Lane `ln` executes it with these fields; selects by a condition code. -/
  | sel (ln : Fin 4) (d a b : Fin 32) (fn : BitVec 11)
  /-- CALLV (R165). Lane `ln` executes it with these fields; calls a verb on a noun. -/
  | callv (ln : Fin 4) (verb : BitVec 10) (noun : BitVec 16)
  /-- CALLVR (R165). Lane `ln` executes it with these fields; calls a verb on the noun in g[a]. -/
  | callvr (ln : Fin 4) (d a b : Fin 32) (fn : BitVec 11)
  /-- RETV (R166). Lane `ln` executes it with these fields; returns from the call. -/
  | retv (ln : Fin 4) (rest : BitVec 26)
  /-- DMA_GO (R216). Function `pf` writes `w` with the GO kick to DMA_Cc_CTL of host channel 8 + `c`; `fetchOk` says whether host memory delivers the first descriptor. -/
  | dmaGo (pf : Fin 2) (c : Fin 8) (w : Word) (fetchOk : Bool)
  /-- DMA_STOP (R219). Function `pf` writes `w` with the STOP kick to DMA_Cc_CTL of host channel 8 + `c`. -/
  | dmaStop (pf : Fin 2) (c : Fin 8) (w : Word)
  /-- DMA_DESCRIPTOR_DONE (R217). The last beat of channel `c`'s descriptor completes; `fin` says whether host memory delivers the next descriptor of a host channel's chain, and which one an engine channel has carried out (R214). -/
  | dmaDescriptorDone (c : Fin 16) (fin : DescEnd)
  /-- DMA_BEAT_FAULT (R216 to R218). A beat of channel `c` fails with `code` after `beats` data beats; `bad` says whether it is a tag beat, and of which descriptor on an engine channel (R214). -/
  | dmaBeatFault (c : Fin 16) (code : Fin 16) (beats : Nat) (bad : BadBeat)
  /-- SCRUB_ERROR (R223). An error of memory `m` at byte address `addr`; `uncorr` says that it cannot be corrected, `place` what it strikes. -/
  | scrubError (m : Fin 16) (addr : BitVec 34) (uncorr : Bool) (place : ErrPlace)
  /-- VC_APPLY (R226). Function `pf` writes `w` with the APPLY kick to OLC_VC_CTL. -/
  | vcApply (pf : Fin 2) (w : Word)
  /-- VC_CANCEL (R228). Function `pf` writes `w` with the CANCEL kick to OLC_VC_CTL. -/
  | vcCancel (pf : Fin 2) (w : Word)
  /-- VC_APPLIED (R227). The release of the pending batch's task is reached. -/
  | vcApplied
  /-- CHG_LOAD (R233). Function `pf` writes `w` with the LOAD kick to OLC_CHG_CTL; `img` stands at OLC_CHG_ADDR. -/
  | chgLoad (pf : Fin 2) (w : Word) (img : Option Image)
  /-- CHG_LOAD_DONE (R233). Verification and load of the partition image end. -/
  | chgLoadDone
  /-- SHADOW_START (R234). h0 is reached. -/
  | shadowStart
  /-- SHADOW_DONE (R238). SHADOW_HP hyperperiods from h0 have passed. -/
  | shadowDone
  /-- CHG_SWITCH (R239). Function `pf` writes `w` with the SWITCH kick to OLC_CHG_CTL. -/
  | chgSwitch (pf : Fin 2) (w : Word)
  /-- CODE_SWITCH (R240). H is reached. -/
  | codeSwitch
  /-- CHG_CANCEL (R238). Function `pf` writes `w` with the CANCEL kick to OLC_CHG_CTL. -/
  | chgCancel (pf : Fin 2) (w : Word)
  /-- FORCE_ARM (R244). Function `pf` writes `w` with the ARM kick to FRC_En_CTL. -/
  | forceArm (pf : Fin 2) (n : Fin 256) (w : Word)
  /-- FORCE_DISARM (R244). Function `pf` writes `w` with the DISARM kick to FRC_En_CTL. -/
  | forceDisarm (pf : Fin 2) (n : Fin 256) (w : Word)
  /-- FORCE_VALUE_WRITE (R244). Function `pf` writes the high word of FRC_En_VAL. -/
  | forceValueWrite (pf : Fin 2) (n : Fin 256) (hi : Word)
  /-- FORCE_ACTIVATE (R244). The first SIX of its kind is reached for the armed entry `n`. -/
  | forceActivate (n : Fin 256)
  /-- FORCE_END (R244). The first SIX of its kind is reached for the ending entry `n`. -/
  | forceEnd (n : Fin 256)
  /-- FRC_CLEAR_ALL (R246). Function `pf` writes `w` with the GO kick to FRC_CLEAR_ALL. -/
  | frcClearAll (pf : Fin 2) (w : Word)
  /-- RPL_START (R248). Function `pf` writes `w` with the START kick to OLC_RPL_CTL; `img` stands at OLC_RPL_ADDR. -/
  | rplStart (pf : Fin 2) (w : Word) (img : Option Image)
  /-- REPLAY_CYCLE (R249). The replay comes to the next recorded release. -/
  | replayCycle
  /-- REPLAY_DONE (R250). The replay has reached its end. -/
  | replayDone
  /-- RPL_CANCEL (R251). Function `pf` writes `w` with the CANCEL kick to OLC_RPL_CTL. -/
  | rplCancel (pf : Fin 2) (w : Word)
  /-- RING_LINE_WRITE (R253). Every link has delivered or marked the next SIX of the ring. -/
  | ringLineWrite
  /-- SLOW_RING_LINE (R255). The slow-ring line of the latest base-cycle boundary can be written. -/
  | slowRingLine
  /-- SENTENCE_STEP (R265). The sources of recipe `r`'s sentence are known for its next SIX. -/
  | sentenceStep (r : Fin 8)
  /-- CLAUSE_TIMEOUT (R265). The timer of recipe `r`'s active clause reaches TIMEOUT. -/
  | clauseTimeout (r : Fin 8)
  /-- LFT_TRIG (R270). Function `pf` writes `w` to LFT_TRIG. -/
  | lftTrig (pf : Fin 2) (w : Word)
  /-- RECORD_CLOSE (R268). END of recipe `r`'s record has been extracted. -/
  | recordClose (r : Fin 8)
  /-- GAP_SKIP (R271). Capture overtakes the extraction of recipe `r`. -/
  | gapSkip (r : Fin 8)
  /-- SCAP_ARCHIVED (R283). The frozen STEM capture buffer has been archived. -/
  | scapArchived
  /-- HIST_CLEAR (R274). Function `pf` writes `w` with the CLEAR kick to LFT_Hu_CTL. -/
  | histClear (pf : Fin 2) (u : Fin 16) (w : Word)
  /-- REC_LOAD (R275). Function `pf` writes `w` with the LOAD kick to LFT_REC_CTL. -/
  | recLoad (pf : Fin 2) (w : Word)
  /-- REC_PROTECT (R280). Function `pf` writes `w` with the PROTECT kick to LFT_REC_CTL. -/
  | recProtect (pf : Fin 2) (w : Word)
  /-- REC_UNPROTECT (R280). Function `pf` writes `w` with the UNPROTECT kick to LFT_REC_CTL. -/
  | recUnprotect (pf : Fin 2) (w : Word)
  /-- REC_DELETE (R280). Function `pf` writes `w` with the DELETE kick to LFT_REC_CTL. -/
  | recDelete (pf : Fin 2) (w : Word)
  /-- EXPORT_GO (R284). Function `pf` writes `w` with the GO kick to LFT_EXP_CTL. -/
  | exportGo (pf : Fin 2) (w : Word)
  /-- EXPORT_STOP (R284). Function `pf` writes `w` with the STOP kick to LFT_EXP_CTL. -/
  | exportStop (pf : Fin 2) (w : Word)
  /-- EXP_DONE (R285). The running export completes. -/
  | expDone
  /-- CELLAR_ENQUEUE (R295). A subsystem presents entry `e` to the Cellar's queue. -/
  | cellarEnqueue (e : Raised)
  /-- CELLAR_ADMIT (R294). The front entry leaves the queue; `slots` are the empty slots the Cellar prefers, in order, and the ends of the writes that follow the entry's own (R299, R304); `wa` and `wb` say how the slot write to bank A and bank B ended: 0 verified, 1 not verified after two retries, 2 device fault (R304). -/
  | cellarAdmit (slots : CelPuts) (wa wb : Fin 3)
  /-- SUPPRESSED (R297). The 10 s instant of R297 is reached. -/
  | suppressed
  /-- CEL_CURSOR_WRITE (R300). Function `pf` writes the high word of CEL_CURSOR. -/
  | celCursorWrite (pf : Fin 2) (hi : Word)
  /-- CEL_STEP (R300). Function `pf` writes `w` with the STEP kick to CEL_CTL. -/
  | celStep (pf : Fin 2) (w : Word)
  /-- FREEZE (R301). Function `pf` writes `w` with the FREEZE kick to CEL_CTL. -/
  | freeze (pf : Fin 2) (w : Word)
  /-- THAW (R301). Function `pf` writes `w` with the THAW kick to CEL_CTL; `slots` as in CELLAR_ADMIT. -/
  | thaw (pf : Fin 2) (w : Word) (slots : CelPuts)
  /-- FREEZE_TIMEOUT (R301). 120 000 000 samples have passed since the FREEZE kick. -/
  | freezeTimeout (slots : CelPuts)
  /-- REJOIN (R306). The background resynchronisation of the recovered bank completes. -/
  | rejoin
  /-- PTP_SYNC_RECEIVED (R317). The oldest Sync routed to the time unit from port E`p`; `moved` is what the servo's frequency has moved the measurement by since the last accepted one, `freq` the correction that the servo would set. -/
  | ptpSyncReceived (p : Fin 4) (moved freq : Int)
  /-- PTP_FOLLOW_UP_RECEIVED (R312). The oldest Follow_Up routed from port E`p`. -/
  | ptpFollowUpReceived (p : Fin 4) (moved freq : Int)
  /-- PTP_ANNOUNCE_RECEIVED (R313). The oldest Announce routed from port E`p`. -/
  | ptpAnnounceReceived (p : Fin 4)
  /-- PDELAY_REQ_SEND (R312). Port E`p` sends a Pdelay_Req, `stamp` ns into the sample period. -/
  | pdelayReqSend (p : Fin 4) (stamp : Fin 500)
  /-- PDELAY_RESP_RECEIVED (R313). The oldest peer-delay response (or its follow-up) routed from port E`p`. -/
  | pdelayRespReceived (p : Fin 4)
  /-- PPS_EDGE (R311). PPS_IN rises `stamp` ns into the sample period; `moved` and `freq` as in PTP_SYNC_RECEIVED. -/
  | ppsEdge (stamp : Fin 500) (moved freq : Int)
  /-- SOURCE_LOST (R311). The PTP source (or, with `pps`, the PPS source) times out. -/
  | sourceLost (pps : Bool)
  /-- TIME_STEP (R318). The oldest waiting step applies at the start of this SIX. -/
  | timeStep
  /-- REF_FAIL (R311). The 10 MHz reference fails. -/
  | refFail
  /-- HOLDOVER_EXPIRED (R321). HOLD_MAX has passed in holdover. -/
  | holdoverExpired
  /-- ACCEPT (R319). Function `pf` writes `w` with the ACCEPT kick to TIM_CTL. -/
  | accept (pf : Fin 2) (w : Word)
  /-- ACK_ASYM (R320). Function `pf` writes `w` with the ACK_ASYM kick to TIM_CTL. -/
  | ackAsym (pf : Fin 2) (w : Word)
  /-- HSTEP (R322). Function `pf` writes `w` with the HSTEP kick to TIM_CTL. -/
  | hstep (pf : Fin 2) (w : Word)
  /-- RTC_UPDATE (R310). A second has passed since the P0 real-time counter was written. -/
  | rtcUpdate
  /-- PPS_OUT_PULSE (R325). Time of day reaches a whole second within this sample period. -/
  | ppsOutPulse
  /-- TE_ARM (R326). Function `pf` writes `w` with the ARM kick to TIM_TE`u`_CTL. -/
  | teArm (pf : Fin 2) (u : Fin 16) (w : Word)
  /-- TE_DISARM (R326). Function `pf` writes `w` with the DISARM kick to TIM_TE`u`_CTL. -/
  | teDisarm (pf : Fin 2) (u : Fin 16) (w : Word)
  /-- TIMED_EVENT_FIRE (R327). The target of unit `u` is reached within this sample period. -/
  | timedEventFire (u : Fin 16)
  /-- TPO_PULSE_END (R327). A pulse of unit `u` ends. -/
  | tpoPulseEnd (u : Fin 16)
  /-- TCI_CAPTURE (R330). An edge of TCI`pin` has stood for 40 ns; it came `stamp` ns into the sample period. -/
  | tciCapture (pin : Fin 2) (rise : Bool) (stamp : Fin 500)
  /-- TCI_POP (R330). Function `pf` writes `w` with the POP kick to TIM_TCI`pin`_CTL. -/
  | tciPop (pf : Fin 2) (pin : Fin 2) (w : Word)
  /-- ETH_FRAME_RECEIVED (R334). Frame `f`'s last bit reaches the pins of port E`p`. -/
  | ethFrameReceived (p : Fin 4) (f : EthFrame)
  /-- GOOSE_RECEIVED (R340). The oldest GOOSE message routed to context `n` is matched and supervised. -/
  | gooseReceived (n : Fin 256)
  /-- GOOSE_TAL_EXPIRED (R340). The deadline of context `n` has passed. -/
  | gooseTalExpired (n : Fin 256)
  /-- SV_FRAME_RECEIVED (R344). The oldest sampled-value frame routed to context `n` is matched. -/
  | svFrameReceived (n : Fin 256)
  /-- HOST_RX_FRAME (R348). The oldest frame routed to the host is written into the receive ring or dropped. -/
  | hostRxFrame
  /-- GOOSE_RETRANSMIT (R342). The gap of publication `n` expires. -/
  | gooseRetransmit (n : Fin 256)
  /-- SV_PUBLISH (R345). Publication `n` sends its frame. -/
  | svPublish (n : Fin 256)
  /-- PRP_SUPERVISION_SEND (R335). 2 s have passed on the pair. -/
  | prpSupervisionSend (pair : Fin 2)
  /-- LAN_LOSS (R337). Port E`p` has lost its link, or no frame came for 2 s. -/
  | lanLoss (p : Fin 4)
  /-- LINK_CHG (R337). The link of port E`p` goes up or down. -/
  | linkChg (p : Fin 4) (up : Bool)
  /-- HOST_TX_SEND (R349). The frame at HEAD of the transmit ring is sent or denied. -/
  | hostTxSend
  /-- CONVERSION_START (R356). A scheduled start of channel `n`'s converter falls due. -/
  | conversionStart (n : Fin 16)
  /-- CONVERSION_DONE (R357). The running conversion of channel `n` has given `raw`: the input in the code unit of its MODE after the reference functions (mode 8: mV; mode 6: the terminal voltage in 0.1 V); `opened` says that the sensor or a lead was found open. -/
  | conversionDone (n : Fin 16) (raw : Int) (opened : Bool)
  /-- READBACK_SLOT (R363). The slot of group `g` that ends now has read `raw`: the output in the code unit of its MODE, or the cold junction in m°C. -/
  | readbackSlot (g : Fin 4) (raw : Int)
  /-- THERMAL (R364). At a base-cycle boundary channel `n`'s driver junction stands at `tj` °C. -/
  | thermal (n : Fin 16) (tj : Int)
  /-- CMD_APPLY (R361). The driver of channel `n` takes its released CMD. -/
  | cmdApply (n : Fin 16)
  /-- UCH_HCTL_CLR (R362). Function `pf` writes `w` with CLR to UCH_Cn_HCTL. -/
  | uchHctlClr (pf : Fin 2) (n : Fin 16) (w : Word)
  /-- UCH_HCTL_REQ (R362). Function `pf` writes `w` with REQ to UCH_Cn_HCTL. -/
  | uchHctlReq (pf : Fin 2) (n : Fin 16) (w : Word)
  /-- GRP_FAULT (R368). The third consecutive poll of group `g` stays without an answer. -/
  | grpFault (g : Fin 4)
  /-- GRP_RECOVER (R368). Group `g` answers again at a base-cycle boundary. -/
  | grpRecover (g : Fin 4)
  /-- CONTROLLER_ALARM_DRIVE (R368). The controller of group `g` has heard nothing from the engine for 10 ms. -/
  | controllerAlarmDrive (g : Fin 4)
  /-- STRAP_CHG (R365). The pin ALMSELg stands at `level`. -/
  | strapChg (g : Fin 4) (level : Bool)
  /-- HART_SEND (R369). Function `pf` writes `w` with SEND to UCH_Gg_HCTL. -/
  | hartSend (pf : Fin 2) (g : Fin 4) (w : Word)
  /-- HART_ABORT (R369). Function `pf` writes `w` with ABORT to UCH_Gg_HCTL. -/
  | hartAbort (pf : Fin 2) (g : Fin 4) (w : Word)
  /-- HART_DONE (R369). The transaction of group `g` ends after its last try. -/
  | hartDone (g : Fin 4) (r : HartEnd)
  /-- REGISTER_WRITE (R10). Function `pf` writes `w` at BAR0 offset `off`; `full` says that it is one aligned 32-bit access. -/
  | registerWrite (pf : Fin 2) (off : BitVec 24) (w : Word) (full : Bool)
  /-- TAKE_READ (R10). Function `pf` reads a register with take fields at `off`. -/
  | takeRead (pf : Fin 2) (off : BitVec 24)
  /-- READ64_LOW (R378). Function `pf` reads the low word of a 64-bit register at `off`. -/
  | read64Low (pf : Fin 2) (off : BitVec 24)
  /-- READ64_HIGH (R378). Function `pf` reads the high word of a 64-bit register at `off`. -/
  | read64High (pf : Fin 2) (off : BitVec 24)
  /-- WRITE64_LOW (R379). Function `pf` writes `w` to the low word of a 64-bit register at `off`. -/
  | write64Low (pf : Fin 2) (off : BitVec 24) (w : Word)
  /-- WRITE64_HIGH (R379). Function `pf` writes `w` to the high word of a 64-bit register at `off`. -/
  | write64High (pf : Fin 2) (off : BitVec 24) (w : Word)
  /-- MSIX_UNMASK (R381). The host sets MSI-X Enable of function `pf` and the mask bit of its entry `v`. -/
  | msixUnmask (pf : Fin 2) (v : Fin 32) (enable masked : Bool)
  /-- HOST_FUNCTION_RESET (R374). An FLR, a hot reset, PERST or link loss reaches the functions named. -/
  | hostFunctionReset (pf0 pf1 : Bool)
  /-- CHALLENGE (R384). Function `pf` gives GO with the CHALLENGE command in `w`; the island draws `nonce`. -/
  | challenge (pf : Fin 2) (w : Word) (nonce : BitVec 256)
  /-- GRANT (R386). Function `pf` gives GO with the GRANT command; `sigOk` says that the token's signature verifies. -/
  | grant (pf : Fin 2) (w : Word) (sigOk : Bool)
  /-- ATTEST (R393). Function `pf` gives GO with the ATTEST command. -/
  | attest (pf : Fin 2) (w : Word)
  /-- IDENTITY (R394). Function `pf` gives GO with the IDENTITY command. -/
  | identity (pf : Fin 2) (w : Word)
  /-- INSTALL (R392). Function `pf` gives GO with the INSTALL command; `img` is the image at the request's address, `flashOk` says that flash takes it. -/
  | install (pf : Fin 2) (w : Word) (img : Option Image) (flashOk : Bool)
  /-- SVN_COMMIT (R391). Function `pf` gives GO with the SVN_COMMIT command. -/
  | svnCommit (pf : Fin 2) (w : Word)
  /-- KEY_PROGRAM (R388). Function `pf` gives GO with the KEY_PROGRAM command; `storeOk` says that the fuses take the key. -/
  | keyProgram (pf : Fin 2) (w : Word) (storeOk : Bool)
  /-- KEY_REVOKE (R388). Function `pf` gives GO with the KEY_REVOKE command. -/
  | keyRevoke (pf : Fin 2) (w : Word)
  /-- LIFECYCLE (R395). Function `pf` gives GO with the LIFECYCLE command; `tokSigOk` says that a return token verifies, `bad` which wiped stores read back a byte that is not zero. -/
  | lifecycle (pf : Fin 2) (w : Word) (tokSigOk : Bool) (bad : BitVec 9)
  /-- TAMPER_CLEAR (R399). Function `pf` gives GO with the TAMPER_CLEAR command; `pinHigh` is the level of TAMP_N. -/
  | tamperClear (pf : Fin 2) (w : Word) (pinHigh : Bool)
  /-- WIPE_REPORT (R398). Function `pf` gives GO with the WIPE_REPORT command. -/
  | wipeReport (pf : Fin 2) (w : Word)
  /-- MAILBOX_UNKNOWN_COMMAND (R383). Function `pf` gives GO with a reserved command. -/
  | mailboxUnknownCommand (pf : Fin 2) (w : Word)
  /-- MAILBOX_DONE (R382). The mailbox command completes. -/
  | mailboxDone
  /-- MAILBOX_RESPONSE_EXPIRED (R382). 10 s have passed since the command completed. -/
  | mailboxResponseExpired
  /-- CHALLENGE_LAPSED (R384). 300 s have passed since the challenge was issued. -/
  | challengeLapsed
  /-- LOCKOUT_END (R384). 60 s of lockout have passed. -/
  | lockoutEnd
  /-- SESSION_LIFETIME_EXPIRED (R386). The session's LIFETIME has passed. -/
  | sessionLifetimeExpired
  /-- SESSION_IDLE_EXPIRED (R386). 900 s have passed without a PF1 access. -/
  | sessionIdleExpired
  /-- SESSION_CLOSE (R386). Function `pf` writes `w` with the CLOSE kick to ENG_SESS_CTL. -/
  | sessionClose (pf : Fin 2) (w : Word)
  /-- SERVICE_UART_FRAME (R439). A frame arrives on the service UART; `nonce` is what the island would draw, `storeOk` says that the fuses take a key. -/
  | serviceUartFrame (fr : List Byte) (nonce : BitVec 256) (storeOk : Bool)
  /-- TAMPER_SET (R399). TAMP_N has been low for 10 ms (0), or supply, temperature or clock made an excursion (1 to 3). -/
  | tamperSet (cause : Fin 4)
  /-- COLD_START (R411). VMAIN becomes good; `b` is what the start finds. -/
  | coldStart (b : Boot)
  /-- BROWNOUT (R407). VMAIN, in 10 mV, has stood below 16.5 V for 20 µs. -/
  | brownout (vmain : BitVec 12)
  /-- SUPPLY_BACK (R407). VMAIN, in 10 mV, has become good again. -/
  | supplyBack (vmain : BitVec 12)
  /-- RIDE_THROUGH_EXPIRED (R407). RIDE_MS have passed since the brownout. -/
  | rideThroughExpired
  /-- POWER_DOWN (R409). The hold-up rail stands at `hu`, in 0.1 V. -/
  | powerDown (hu : BitVec 9)
  /-- HOLDUP_EXHAUSTED (R409). The hold-up rail stands at `hu`, in 0.1 V. -/
  | holdupExhausted (hu : BitVec 9)
  /-- OVERVOLTAGE_DISCONNECT (R444). VMAIN, in 10 mV, has stood above 34.0 V for 10 µs. -/
  | overvoltageDisconnect (vmain : BitVec 12)
  /-- OT_WARN (R410). The hottest die and the base plate read `die` and `base`, in 0.1 °C. -/
  | otWarn (die base : BitVec 16)
  /-- OT (R410). Two consecutive readings of the hottest die, and the base plate. -/
  | ot (before die base : BitVec 16)
  /-- OT_CLEAR (R410). The die has stood below 105.0 °C from SIX `since` on. -/
  | otClear (die base : BitVec 16) (since : Nat)
  /-- CLOCK_FAULT (R404). Instance `inst` of clock domain `d` is lost; `ocxo` says that the OCXO has failed with it. -/
  | clockFault (d : Fin 12) (inst : Fin 44) (ocxo : Bool)
  /-- STEM_ENTER (R419). The cause that has been detected takes the engine into STEM; `slots` as in CELLAR_ADMIT. -/
  | stemEnter (slots : CelPuts)
  /-- STEM_CAUSE_CLEARED (R418). STEM cause `b` has met its condition. -/
  | stemCauseCleared (b : Fin 7)
  /-- STEM_RETURN (R420). The preparation completes; `bad` marks lanes that fail their self-test, `wipeBad` says that zeroing met an uncorrectable error. -/
  | stemReturn (bad : BitVec 4) (wipeBad : Bool)
  /-- STEM (R418). Function `pf` writes `w` with the STEM kick to PWR_CMD. -/
  | stem (pf : Fin 2) (w : Word)
  /-- HALT (R421). Function `pf` writes `w` with the HALT kick to PWR_CMD. -/
  | halt (pf : Fin 2) (w : Word)
  /-- MAINT (R423). Function `pf` writes `w` with the MAINT kick to PWR_CMD. -/
  | maint (pf : Fin 2) (w : Word)
  /-- MAINT_ENTER (R423). The hyperboundary of a MAINT kick has come. -/
  | maintEnter
  /-- RESUME (R423). Function `pf` writes `w` with the RESUME kick to PWR_CMD. -/
  | resume (pf : Fin 2) (w : Word)
  /-- WARM (R413). Function `pf` writes `w` with the WARM kick to PWR_CMD. -/
  | warm (pf : Fin 2) (w : Word)
  /-- WARM_RESET (R413). A requested warm reset runs; `b` is what the start finds. -/
  | warmReset (b : Boot)
  /-- RST_N_LOW (R436). RST_N has been low for 1 ms. -/
  | rstNLow
  /-- WATCHDOG_EXPIRED (R413). The firmware watchdog expires. -/
  | watchdogExpired
  /-- LANE_RST (R414). Function `pf` writes `w` with the LANE_RST kick to PWR_CMD. -/
  | laneRst (pf : Fin 2) (w : Word)
  /-- LANE_RESET_DONE (R414). The self-test of the lane under reset ends. -/
  | laneResetDone (pass : Bool)
  /-- REF_OK (R311). A 10 MHz reference within 5 ppm stands at the input. -/
  | refOk
  /-- VMAIN_GOOD (R406). VMAIN, in 10 mV, has become good. -/
  | vmainGood (vmain : BitVec 12)
  /-- SUPPLY_WARN (R406). VMAIN, in 10 mV, or the hold-up rail, in 0.1 V, has crossed a threshold. -/
  | supplyWarn (vmain : BitVec 12) (hu : BitVec 9)
  /-- DOMAIN_FAULT (R425). The rail of power domain `d` leaves tolerance. -/
  | domainFault (d : Fin 12)
  /-- RST_N_HIGH (R436). RST_N rises; `b` is what a start that it held finds. -/
  | rstNHigh (b : Boot)
  /-- HART_FRAME_RECEIVED (R369). The modem of group `g` receives a frame that is not the awaited reply. -/
  | hartFrameReceived (g : Fin 4)
  /-- SCRUB_PASS_DONE (R223). The scrubber has been over memory `m`. -/
  | scrubPassDone (m : Fin 16)
deriving DecidableEq, Repr

end Sys2Proof
end

