-- ==== Sys2Proof/Decode.lean ====
section
/-!
DEFINITION. Decode.lean: commands spelled by a table word. spec/opcode_table.json gives none of its rows bits, so no word spells a
command; the block's commands reach it as register accesses and events. The instruction words of the lanes have a format of their own
(R142), read in Machine/SogDecode.lean.
-/
namespace Sys2Proof

/-- The command that the bits of a table row spell: no row of the table gives bits. -/
def decodeTableWord (_nbits _w : Nat) : Option Instr := none

end Sys2Proof
end

