-- ==== Sys2Proof/Machine/RegMap.lean ====
section
/-!
DEFINITION. Machine/RegMap.lean: the BAR0 register map, as the register tables of the spec's chapters 02 to 15 give it
(R9, R10, R13, R15): one address function A.<REGISTER> per register kind, one field constant F.<REGISTER>.<FIELD> per
named field, and one descriptor per register kind with its access masks and its Reset value. The index letters of the
spec's names (p, n, r, ...) are the arguments, in the order of the name.
-/
namespace Sys2Proof.Machine

/-- A field of a 32-bit register word: BAR0 offset of the word, lowest bit, width. -/
structure Field where
  addr : Nat
  lo : Nat
  width : Nat
deriving DecidableEq, Repr

/-- One register kind (R9, R10): name, BAR0 base, its index dimensions as (stride, first, last), whether it is a 64-bit
register (low word at base, high word at base + 4), whether it appears in the privileged view only, its Reset value, and the
bit masks of its fields by access type. A bit in no mask is reserved. -/
structure RegDesc where
  name : String
  base : Nat
  dims : List (Nat × Nat × Nat)
  is64 : Bool
  priv : Bool
  reset : Nat
  set : Nat
  knock : Nat
  take : Nat
  kick : Nat
  look : Nat
deriving DecidableEq, Repr

/-- 02: HJL_STATUS. -/
def A.HJL_STATUS : Nat := 0x30000
/-- 02: HJL_INC_LAST. -/
def A.HJL_INC_LAST : Nat := 0x30008
/-- 02: HJL_READMIT. -/
def A.HJL_READMIT : Nat := 0x3000c
/-- 02: HJL_REBIND. -/
def A.HJL_REBIND : Nat := 0x30010
/-- 02: HJL_SPARE. -/
def A.HJL_SPARE (i : Nat) : Nat := 0x30100 + 4 * i
/-- 02: HJL_P_CFG. -/
def A.HJL_P_CFG (i : Nat) : Nat := 0x31000 + 64 * i
/-- 02: HJL_P_STATE. -/
def A.HJL_P_STATE (i : Nat) : Nat := 0x31004 + 64 * i
/-- 02: HJL_P_DELAY. -/
def A.HJL_P_DELAY (i : Nat) : Nat := 0x31008 + 64 * i
/-- 02: HJL_P_COMP. -/
def A.HJL_P_COMP (i : Nat) : Nat := 0x3100c + 64 * i
/-- 02: HJL_P_UID. -/
def A.HJL_P_UID (i : Nat) : Nat := 0x31010 + 64 * i
/-- 02: HJL_P_ERR. -/
def A.HJL_P_ERR (i : Nat) : Nat := 0x31018 + 64 * i
/-- 02: HJL_P_EVT. -/
def A.HJL_P_EVT (i : Nat) : Nat := 0x3101c + 64 * i
/-- 02: HJL_P_IEN. -/
def A.HJL_P_IEN (i : Nat) : Nat := 0x31020 + 64 * i
/-- 02: HJL_P_CNT. -/
def A.HJL_P_CNT (i : Nat) : Nat := 0x31024 + 64 * i
/-- 02: HJL_P_TRIP. -/
def A.HJL_P_TRIP (i : Nat) : Nat := 0x31028 + 64 * i
/-- 02: HJL_P_REFUSE. -/
def A.HJL_P_REFUSE (i : Nat) : Nat := 0x3102c + 64 * i
/-- 02: HJL_P_PEER_OFS. -/
def A.HJL_P_PEER_OFS (i : Nat) : Nat := 0x31030 + 64 * i
/-- 03: SFB_STATUS. -/
def A.SFB_STATUS : Nat := 0x40000
/-- 03: SFB_ALIGN. -/
def A.SFB_ALIGN : Nat := 0x40004
/-- 03: SFB_LATE_CNT. -/
def A.SFB_LATE_CNT : Nat := 0x40008
/-- 03: SFB_EVT. -/
def A.SFB_EVT : Nat := 0x4000c
/-- 03: SFB_IEN. -/
def A.SFB_IEN : Nat := 0x40010
/-- 03: SFB_C_CFG. -/
def A.SFB_C_CFG (i : Nat) : Nat := 0x41000 + 32 * i
/-- 03: SFB_C_ACMASK. -/
def A.SFB_C_ACMASK (i : Nat) : Nat := 0x41004 + 32 * i
/-- 03: SFB_C_STATE. -/
def A.SFB_C_STATE (i : Nat) : Nat := 0x41008 + 32 * i
/-- 03: SFB_C_SVDLY. -/
def A.SFB_C_SVDLY (i : Nat) : Nat := 0x4100c + 32 * i
/-- 03: SFB_C_CNT. -/
def A.SFB_C_CNT (i : Nat) : Nat := 0x41010 + 32 * i
/-- 03: SFB_C_SIX. -/
def A.SFB_C_SIX (i : Nat) : Nat := 0x41014 + 32 * i
/-- 03: BIN_STATE. -/
def A.BIN_STATE : Nat := 0x50000
/-- 03: BIN_RAW. -/
def A.BIN_RAW : Nat := 0x50004
/-- 03: BIN_VALID. -/
def A.BIN_VALID : Nat := 0x50008
/-- 03: BIN_PERSIST. -/
def A.BIN_PERSIST : Nat := 0x5000c
/-- 03: BIN_CHAT_EVT. -/
def A.BIN_CHAT_EVT : Nat := 0x50010
/-- 03: BIN_CHAT_IEN. -/
def A.BIN_CHAT_IEN : Nat := 0x50018
/-- 03: BIN_PERS_EVT. -/
def A.BIN_PERS_EVT : Nat := 0x50014
/-- 03: BIN_PERS_IEN. -/
def A.BIN_PERS_IEN : Nat := 0x5001c
/-- 03: BIN_I_CFG. -/
def A.BIN_I_CFG (i : Nat) : Nat := 0x50100 + 16 * i
/-- 03: BIN_I_CHAT. -/
def A.BIN_I_CHAT (i : Nat) : Nat := 0x50104 + 16 * i
/-- 03: BIN_I_TIME. -/
def A.BIN_I_TIME (i : Nat) : Nat := 0x50108 + 16 * i
/-- 03: BIN_I_CNT. -/
def A.BIN_I_CNT (i : Nat) : Nat := 0x5010c + 16 * i
/-- 04: INJ_STATUS. -/
def A.INJ_STATUS : Nat := 0x60000
/-- 04: INJ_CFG_SEQ. -/
def A.INJ_CFG_SEQ : Nat := 0x60004
/-- 04: INJ_GATE. -/
def A.INJ_GATE : Nat := 0x60008
/-- 04: INJ_TDO. -/
def A.INJ_TDO : Nat := 0x60010
/-- 04: INJ_TDO_RST. -/
def A.INJ_TDO_RST : Nat := 0x60014
/-- 04: INJ_EVT. -/
def A.INJ_EVT : Nat := 0x60018
/-- 04: INJ_IEN. -/
def A.INJ_IEN : Nat := 0x6001c
/-- 04: INJ_DEC_CNT. -/
def A.INJ_DEC_CNT : Nat := 0x60020
/-- 04: INJ_LAST. -/
def A.INJ_LAST : Nat := 0x60024
/-- 04: INJ_LAST_SIX. -/
def A.INJ_LAST_SIX : Nat := 0x60028
/-- 04: INJ_LAT_MAX. -/
def A.INJ_LAT_MAX : Nat := 0x60030
/-- 04: INJ_SCAP_CTL. -/
def A.INJ_SCAP_CTL : Nat := 0x60034
/-- 04: INJ_SCAP_SIX. -/
def A.INJ_SCAP_SIX : Nat := 0x60038
/-- 04: INJ_R_TERM. -/
def A.INJ_R_TERM (i : Nat) (j : Nat) : Nat := 0x61000 + 64 * i + 4 * j
/-- 04: INJ_R_CTRL. -/
def A.INJ_R_CTRL (i : Nat) : Nat := 0x61020 + 64 * i
/-- 04: INJ_R_ACT. -/
def A.INJ_R_ACT (i : Nat) : Nat := 0x61024 + 64 * i
/-- 04: INJ_R_STAT. -/
def A.INJ_R_STAT (i : Nat) : Nat := 0x61028 + 64 * i
/-- 04: INJ_C_LA_TH. -/
def A.INJ_C_LA_TH (i : Nat) : Nat := 0x64000 + 64 * i
/-- 04: INJ_C_LB_TH. -/
def A.INJ_C_LB_TH (i : Nat) : Nat := 0x64008 + 64 * i
/-- 04: INJ_C_LA_CTL. -/
def A.INJ_C_LA_CTL (i : Nat) : Nat := 0x64004 + 64 * i
/-- 04: INJ_C_LB_CTL. -/
def A.INJ_C_LB_CTL (i : Nat) : Nat := 0x6400c + 64 * i
/-- 04: INJ_C_ROC_TH. -/
def A.INJ_C_ROC_TH (i : Nat) : Nat := 0x64010 + 64 * i
/-- 04: INJ_C_ROC_CTL. -/
def A.INJ_C_ROC_CTL (i : Nat) : Nat := 0x64014 + 64 * i
/-- 04: INJ_C_STEP_TH. -/
def A.INJ_C_STEP_TH (i : Nat) : Nat := 0x64018 + 64 * i
/-- 04: INJ_C_STEP_CTL. -/
def A.INJ_C_STEP_CTL (i : Nat) : Nat := 0x6401c + 64 * i
/-- 04: INJ_C_STAT. -/
def A.INJ_C_STAT (i : Nat) : Nat := 0x64020 + 64 * i
/-- 04: INJ_D_CH. -/
def A.INJ_D_CH (i : Nat) : Nat := 0x68000 + 16 * i
/-- 04: INJ_D_KZ. -/
def A.INJ_D_KZ (i : Nat) : Nat := 0x68004 + 16 * i
/-- 04: INJ_D_CTL. -/
def A.INJ_D_CTL (i : Nat) : Nat := 0x68008 + 16 * i
/-- 04: INJ_D_BMIN. -/
def A.INJ_D_BMIN (i : Nat) : Nat := 0x6800c + 16 * i
/-- 04: INJ_G_CFG. -/
def A.INJ_G_CFG (i : Nat) : Nat := 0x69000 + 16 * i
/-- 04: INJ_G_WIN. -/
def A.INJ_G_WIN (i : Nat) : Nat := 0x69004 + 16 * i
/-- 04: INJ_G_STAT. -/
def A.INJ_G_STAT (i : Nat) : Nat := 0x69008 + 16 * i
/-- 04: INJ_PEER. -/
def A.INJ_PEER (i : Nat) : Nat := 0x69800 + 4 * i
/-- 04: INJ_SCAP. -/
def A.INJ_SCAP (i : Nat) : Nat := 0x6a000 + 4 * i
/-- 04: INJ_SCAP_POST. -/
def A.INJ_SCAP_POST : Nat := 0x6a080
/-- 04: INJ_GATE_STEM. -/
def A.INJ_GATE_STEM (i : Nat) : Nat := 0x6a100 + 4 * i
/-- 04: INJ_GATE_INIT. -/
def A.INJ_GATE_INIT : Nat := 0x6a110
/-- 04: INJ_T_CFG. -/
def A.INJ_T_CFG (i : Nat) : Nat := 0x6b000 + 16 * i
/-- 04: INJ_T_STAT. -/
def A.INJ_T_STAT (i : Nat) : Nat := 0x6b004 + 16 * i
/-- 06: LNE_STATUS. -/
def A.LNE_STATUS : Nat := 0x70000
/-- 06: LNE_EVT. -/
def A.LNE_EVT : Nat := 0x70004
/-- 06: LNE_IEN. -/
def A.LNE_IEN : Nat := 0x70008
/-- 06: LNE_TKO. -/
def A.LNE_TKO : Nat := 0x7000c
/-- 06: LNE_TKO_SIX. -/
def A.LNE_TKO_SIX : Nat := 0x70010
/-- 06: LNE_DET_SIX. -/
def A.LNE_DET_SIX : Nat := 0x70018
/-- 06: LNE_L_STATE. -/
def A.LNE_L_STATE (i : Nat) : Nat := 0x70100 + 64 * i
/-- 06: LNE_L_EXC. -/
def A.LNE_L_EXC (i : Nat) : Nat := 0x70104 + 64 * i
/-- 06: LNE_L_EXC_PC. -/
def A.LNE_L_EXC_PC (i : Nat) : Nat := 0x70108 + 64 * i
/-- 06: LNE_L_EXC_SIX. -/
def A.LNE_L_EXC_SIX (i : Nat) : Nat := 0x7010c + 64 * i
/-- 06: LNE_L_EXC_CNT. -/
def A.LNE_L_EXC_CNT (i : Nat) : Nat := 0x70114 + 64 * i
/-- 06: TSK_EVT. -/
def A.TSK_EVT : Nat := 0x70800
/-- 06: TSK_IEN. -/
def A.TSK_IEN : Nat := 0x70804
/-- 06: TSK_APPLY. -/
def A.TSK_APPLY : Nat := 0x70808
/-- 06: TSK_PAN. -/
def A.TSK_PAN : Nat := 0x7080c
/-- 06: TSK_PAN_SEQ. -/
def A.TSK_PAN_SEQ : Nat := 0x70810
/-- 06: TSK_PAN_SIX. -/
def A.TSK_PAN_SIX : Nat := 0x70818
/-- 06: TSK_T_CFG. -/
def A.TSK_T_CFG (i : Nat) : Nat := 0x71000 + 32 * i
/-- 06: TSK_T_EVCFG. -/
def A.TSK_T_EVCFG (i : Nat) : Nat := 0x71004 + 32 * i
/-- 06: TSK_T_STAT. -/
def A.TSK_T_STAT (i : Nat) : Nat := 0x71008 + 32 * i
/-- 06: TSK_T_CNT. -/
def A.TSK_T_CNT (i : Nat) : Nat := 0x7100c + 32 * i
/-- 06: TSK_T_UNCLEAN. -/
def A.TSK_T_UNCLEAN (i : Nat) : Nat := 0x71010 + 32 * i
/-- 06: TSK_T_EXEC. -/
def A.TSK_T_EXEC (i : Nat) : Nat := 0x71014 + 32 * i
/-- 06: TSK_T_REL. -/
def A.TSK_T_REL (i : Nat) : Nat := 0x71018 + 32 * i
/-- 07: MPU_EVT. -/
def A.MPU_EVT : Nat := 0x80000
/-- 07: MPU_IEN. -/
def A.MPU_IEN : Nat := 0x80004
/-- 07: MPU_HWIN. -/
def A.MPU_HWIN : Nat := 0x80008
/-- 07: MPU_GEN. -/
def A.MPU_GEN (i : Nat) : Nat := 0x80010 + 4 * i
/-- 07: MPU_ECC_CNT. -/
def A.MPU_ECC_CNT (i : Nat) : Nat := 0x80100 + 16 * i
/-- 07: MPU_ECC_ADDR. -/
def A.MPU_ECC_ADDR (i : Nat) : Nat := 0x80104 + 16 * i
/-- 07: MPU_ECC_PASS. -/
def A.MPU_ECC_PASS (i : Nat) : Nat := 0x80108 + 16 * i
/-- 07: MPU_P_R_BASE. -/
def A.MPU_P_R_BASE (i : Nat) (j : Nat) : Nat := 0x81000 + 256 * i + 16 * j
/-- 07: MPU_P_R_LIMIT. -/
def A.MPU_P_R_LIMIT (i : Nat) (j : Nat) : Nat := 0x81004 + 256 * i + 16 * j
/-- 07: MPU_P_R_CTL. -/
def A.MPU_P_R_CTL (i : Nat) (j : Nat) : Nat := 0x81008 + 256 * i + 16 * j
/-- 07: DMA_EVT. -/
def A.DMA_EVT : Nat := 0x88000
/-- 07: DMA_IEN. -/
def A.DMA_IEN : Nat := 0x88004
/-- 07: DMA_C_CTL. -/
def A.DMA_C_CTL (i : Nat) : Nat := 0x89000 + 64 * i
/-- 07: DMA_C_DESC. -/
def A.DMA_C_DESC (i : Nat) : Nat := 0x89004 + 64 * i
/-- 07: DMA_C_STAT. -/
def A.DMA_C_STAT (i : Nat) : Nat := 0x8900c + 64 * i
/-- 07: DMA_C_RESID. -/
def A.DMA_C_RESID (i : Nat) : Nat := 0x89010 + 64 * i
/-- 07: DMA_C_FADDR. -/
def A.DMA_C_FADDR (i : Nat) : Nat := 0x89014 + 64 * i
/-- 07: DMA_C_CUR. -/
def A.DMA_C_CUR (i : Nat) : Nat := 0x8901c + 64 * i
/-- 08: OLC_STATUS. -/
def A.OLC_STATUS : Nat := 0x90000
/-- 08: OLC_EVT. -/
def A.OLC_EVT : Nat := 0x90004
/-- 08: OLC_IEN. -/
def A.OLC_IEN : Nat := 0x90008
/-- 08: OLC_VC_CTL. -/
def A.OLC_VC_CTL : Nat := 0x90010
/-- 08: OLC_VC_INFO. -/
def A.OLC_VC_INFO : Nat := 0x90014
/-- 08: OLC_VC_SIX. -/
def A.OLC_VC_SIX : Nat := 0x90018
/-- 08: OLC_VC_E_ID_LO. -/
def A.OLC_VC_E_ID_LO (i : Nat) : Nat := 0x90100 + 16 * i
/-- 08: OLC_VC_E_ID_HI. -/
def A.OLC_VC_E_ID_HI (i : Nat) : Nat := 0x90104 + 16 * i
/-- 08: OLC_VC_E_OFS. -/
def A.OLC_VC_E_OFS (i : Nat) : Nat := 0x90108 + 16 * i
/-- 08: OLC_VC_E_VAL. -/
def A.OLC_VC_E_VAL (i : Nat) : Nat := 0x9010c + 16 * i
/-- 08: OLC_CHG_CTL. -/
def A.OLC_CHG_CTL : Nat := 0x90020
/-- 08: OLC_CHG_ADDR. -/
def A.OLC_CHG_ADDR : Nat := 0x90024
/-- 08: OLC_CHG_REASON. -/
def A.OLC_CHG_REASON : Nat := 0x9002c
/-- 08: OLC_SHD_HP. -/
def A.OLC_SHD_HP : Nat := 0x90030
/-- 08: OLC_SHD_CMP. -/
def A.OLC_SHD_CMP : Nat := 0x90034
/-- 08: OLC_SHD_NOCMP. -/
def A.OLC_SHD_NOCMP : Nat := 0x90038
/-- 08: OLC_SHD_DIFF. -/
def A.OLC_SHD_DIFF : Nat := 0x9003c
/-- 08: OLC_SHD_FIRST. -/
def A.OLC_SHD_FIRST : Nat := 0x90040
/-- 08: OLC_RPL_CTL. -/
def A.OLC_RPL_CTL : Nat := 0x90050
/-- 08: OLC_RPL_ADDR. -/
def A.OLC_RPL_ADDR : Nat := 0x90054
/-- 08: OLC_RPL_REC. -/
def A.OLC_RPL_REC : Nat := 0x9005c
/-- 08: OLC_RPL_REASON. -/
def A.OLC_RPL_REASON : Nat := 0x90060
/-- 08: OLC_RPL_CNT. -/
def A.OLC_RPL_CNT : Nat := 0x90064
/-- 08: OLC_RPL_FIRST. -/
def A.OLC_RPL_FIRST : Nat := 0x90068
/-- 08: OLC_RPL_POS. -/
def A.OLC_RPL_POS : Nat := 0x90070
/-- 08: OLC_DIFF_HEAD. -/
def A.OLC_DIFF_HEAD (i : Nat) : Nat := 0x90600 + 32 * i
/-- 08: OLC_DIFF_OFS. -/
def A.OLC_DIFF_OFS (i : Nat) : Nat := 0x90604 + 32 * i
/-- 08: OLC_DIFF_SIX. -/
def A.OLC_DIFF_SIX (i : Nat) : Nat := 0x90608 + 32 * i
/-- 08: OLC_DIFF_REF. -/
def A.OLC_DIFF_REF (i : Nat) : Nat := 0x90610 + 32 * i
/-- 08: OLC_DIFF_NEW. -/
def A.OLC_DIFF_NEW (i : Nat) : Nat := 0x90614 + 32 * i
/-- 08: FRC_STATUS. -/
def A.FRC_STATUS : Nat := 0x98000
/-- 08: FRC_EVT. -/
def A.FRC_EVT : Nat := 0x98004
/-- 08: FRC_IEN. -/
def A.FRC_IEN : Nat := 0x98008
/-- 08: FRC_CLEAR_ALL. -/
def A.FRC_CLEAR_ALL : Nat := 0x9800c
/-- 08: FRC_E_SYM. -/
def A.FRC_E_SYM (i : Nat) : Nat := 0x99000 + 32 * i
/-- 08: FRC_E_CTL. -/
def A.FRC_E_CTL (i : Nat) : Nat := 0x99008 + 32 * i
/-- 08: FRC_E_VAL. -/
def A.FRC_E_VAL (i : Nat) : Nat := 0x9900c + 32 * i
/-- 08: FRC_E_SIX. -/
def A.FRC_E_SIX (i : Nat) : Nat := 0x99014 + 32 * i
/-- 09: LFT_STATUS. -/
def A.LFT_STATUS : Nat := 0xa0000
/-- 09: LFT_EVT. -/
def A.LFT_EVT : Nat := 0xa0004
/-- 09: LFT_IEN. -/
def A.LFT_IEN : Nat := 0xa0008
/-- 09: LFT_RING_OLD. -/
def A.LFT_RING_OLD : Nat := 0xa0010
/-- 09: LFT_ARC. -/
def A.LFT_ARC : Nat := 0xa0018
/-- 09: LFT_ARC_PROT. -/
def A.LFT_ARC_PROT : Nat := 0xa001c
/-- 09: LFT_ARC_WR. -/
def A.LFT_ARC_WR : Nat := 0xa0020
/-- 09: LFT_REC_FIRST. -/
def A.LFT_REC_FIRST : Nat := 0xa0028
/-- 09: LFT_REC_LAST. -/
def A.LFT_REC_LAST : Nat := 0xa002c
/-- 09: LFT_TRIG. -/
def A.LFT_TRIG : Nat := 0xa0030
/-- 09: LFT_NSNAP. -/
def A.LFT_NSNAP : Nat := 0xa0034
/-- 09: LFT_REC_SEL. -/
def A.LFT_REC_SEL : Nat := 0xa0038
/-- 09: LFT_REC_CTL. -/
def A.LFT_REC_CTL : Nat := 0xa003c
/-- 09: LFT_RWIN. -/
def A.LFT_RWIN (i : Nat) : Nat := 0xa0100 + 4 * i
/-- 09: LFT_EXP_REC. -/
def A.LFT_EXP_REC : Nat := 0xa0040
/-- 09: LFT_EXP_CTL. -/
def A.LFT_EXP_CTL : Nat := 0xa0044
/-- 09: LFT_EXP_FROM. -/
def A.LFT_EXP_FROM : Nat := 0xa0048
/-- 09: LFT_EXP_N. -/
def A.LFT_EXP_N : Nat := 0xa0050
/-- 09: LFT_EXP_LEN0. -/
def A.LFT_EXP_LEN0 : Nat := 0xa0054
/-- 09: LFT_EXP_LEN1. -/
def A.LFT_EXP_LEN1 : Nat := 0xa0058
/-- 09: LFT_SLOW. -/
def A.LFT_SLOW (i : Nat) : Nat := 0xa0400 + 4 * i
/-- 09: LFT_BSIG. -/
def A.LFT_BSIG (i : Nat) : Nat := 0xa0800 + 4 * i
/-- 09: LFT_R_CTL. -/
def A.LFT_R_CTL (i : Nat) : Nat := 0xa1000 + 256 * i
/-- 09: LFT_R_PRE. -/
def A.LFT_R_PRE (i : Nat) : Nat := 0xa1004 + 256 * i
/-- 09: LFT_R_POST. -/
def A.LFT_R_POST (i : Nat) : Nat := 0xa1008 + 256 * i
/-- 09: LFT_R_STAT. -/
def A.LFT_R_STAT (i : Nat) : Nat := 0xa100c + 256 * i
/-- 09: LFT_R_FASTMASK. -/
def A.LFT_R_FASTMASK (i : Nat) (j : Nat) : Nat := 0xa1010 + 256 * i + 4 * j
/-- 09: LFT_R_SLOWMASK. -/
def A.LFT_R_SLOWMASK (i : Nat) (j : Nat) : Nat := 0xa1030 + 256 * i + 4 * j
/-- 09: LFT_R_PVMASK. -/
def A.LFT_R_PVMASK (i : Nat) (j : Nat) : Nat := 0xa1050 + 256 * i + 4 * j
/-- 09: LFT_R_BINMASK. -/
def A.LFT_R_BINMASK (i : Nat) : Nat := 0xa1070 + 256 * i
/-- 09: LFT_R_TRIG_SIX. -/
def A.LFT_R_TRIG_SIX (i : Nat) : Nat := 0xa1078 + 256 * i
/-- 09: LFT_R_DEAD_MAX. -/
def A.LFT_R_DEAD_MAX (i : Nat) : Nat := 0xa1080 + 256 * i
/-- 09: LFT_R_LAST_REC. -/
def A.LFT_R_LAST_REC (i : Nat) : Nat := 0xa1088 + 256 * i
/-- 09: LFT_R_GAPS. -/
def A.LFT_R_GAPS (i : Nat) : Nat := 0xa108c + 256 * i
/-- 09: LFT_R_C_TERM. -/
def A.LFT_R_C_TERM (i : Nat) (j : Nat) (k : Nat) : Nat := 0xa2000 + 512 * i + 32 * j + 4 * k
/-- 09: LFT_R_C_COUNT. -/
def A.LFT_R_C_COUNT (i : Nat) (j : Nat) : Nat := 0xa2010 + 512 * i + 32 * j
/-- 09: LFT_R_C_TIMEOUT. -/
def A.LFT_R_C_TIMEOUT (i : Nat) (j : Nat) : Nat := 0xa2014 + 512 * i + 32 * j
/-- 09: LFT_CMP_CTL. -/
def A.LFT_CMP_CTL (i : Nat) : Nat := 0xa3000 + 16 * i
/-- 09: LFT_CMP_TH. -/
def A.LFT_CMP_TH (i : Nat) : Nat := 0xa3004 + 16 * i
/-- 09: LFT_CMP_HYST. -/
def A.LFT_CMP_HYST (i : Nat) : Nat := 0xa3008 + 16 * i
/-- 09: LFT_H_CFG. -/
def A.LFT_H_CFG (i : Nat) : Nat := 0xa3800 + 16 * i
/-- 09: LFT_H_OFFSET. -/
def A.LFT_H_OFFSET (i : Nat) : Nat := 0xa3804 + 16 * i
/-- 09: LFT_H_CTL. -/
def A.LFT_H_CTL (i : Nat) : Nat := 0xa3808 + 16 * i
/-- 09: LFT_H_COUNT. -/
def A.LFT_H_COUNT (i : Nat) : Nat := 0xa380c + 16 * i
/-- 09: LFT_HSEL. -/
def A.LFT_HSEL : Nat := 0xa3c00
/-- 09: LFT_HWIN. -/
def A.LFT_HWIN (i : Nat) : Nat := 0xa4000 + 4 * i
/-- 10: CEL_STATUS. -/
def A.CEL_STATUS : Nat := 0xb0000
/-- 10: CEL_EVT. -/
def A.CEL_EVT : Nat := 0xb0004
/-- 10: CEL_IEN. -/
def A.CEL_IEN : Nat := 0xb0008
/-- 10: CEL_COUNT. -/
def A.CEL_COUNT : Nat := 0xb000c
/-- 10: CEL_SEQ_OLDEST. -/
def A.CEL_SEQ_OLDEST : Nat := 0xb0010
/-- 10: CEL_SEQ_NEWEST. -/
def A.CEL_SEQ_NEWEST : Nat := 0xb0018
/-- 10: CEL_DROP. -/
def A.CEL_DROP : Nat := 0xb0020
/-- 10: CEL_MEM. -/
def A.CEL_MEM : Nat := 0xb0024
/-- 10: CEL_MUTED. -/
def A.CEL_MUTED : Nat := 0xb0028
/-- 10: CEL_CTL. -/
def A.CEL_CTL : Nat := 0xb002c
/-- 10: CEL_CURSOR. -/
def A.CEL_CURSOR : Nat := 0xb0030
/-- 10: CEL_SHOWN. -/
def A.CEL_SHOWN : Nat := 0xb0038
/-- 10: CEL_CAT_SEL. -/
def A.CEL_CAT_SEL : Nat := 0xb0040
/-- 10: CEL_CAT_INFO. -/
def A.CEL_CAT_INFO : Nat := 0xb0044
/-- 10: CEL_CAT_NAME. -/
def A.CEL_CAT_NAME (i : Nat) : Nat := 0xb0048 + 4 * i
/-- 10: CEL_WIN. -/
def A.CEL_WIN (i : Nat) : Nat := 0xb0100 + 4 * i
/-- 10: CEL_LASTW. -/
def A.CEL_LASTW (i : Nat) : Nat := 0xb0180 + 4 * i
/-- 10: CEL_PF_CFG. -/
def A.CEL_PF_CFG (i : Nat) : Nat := 0xb0400 + 64 * i
/-- 10: CEL_PF_SNAP. -/
def A.CEL_PF_SNAP (i : Nat) (j : Nat) : Nat := 0xb0404 + 64 * i + 4 * j
/-- 10: CEL_PF_PER. -/
def A.CEL_PF_PER (i : Nat) : Nat := 0xb0424 + 64 * i
/-- 10: CEL_PMAP. -/
def A.CEL_PMAP (i : Nat) : Nat := 0xb1000 + 4 * i
/-- 11: TIM_STATUS. -/
def A.TIM_STATUS : Nat := 0x20000
/-- 11: TIM_EVT. -/
def A.TIM_EVT : Nat := 0x20004
/-- 11: TIM_IEN. -/
def A.TIM_IEN : Nat := 0x20008
/-- 11: TIM_CFG. -/
def A.TIM_CFG : Nat := 0x2000c
/-- 11: TIM_THR. -/
def A.TIM_THR : Nat := 0x20010
/-- 11: TIM_BAND. -/
def A.TIM_BAND : Nat := 0x20014
/-- 11: TIM_HOLD. -/
def A.TIM_HOLD : Nat := 0x20018
/-- 11: TIM_PTP. -/
def A.TIM_PTP : Nat := 0x2001c
/-- 11: TIM_OFFSET. -/
def A.TIM_OFFSET : Nat := 0x20020
/-- 11: TIM_SIX. -/
def A.TIM_SIX : Nat := 0x20028
/-- 11: TIM_TOD_SEC. -/
def A.TIM_TOD_SEC : Nat := 0x20030
/-- 11: TIM_TOD_NS. -/
def A.TIM_TOD_NS : Nat := 0x20038
/-- 11: TIM_ERR. -/
def A.TIM_ERR : Nat := 0x2003c
/-- 11: TIM_FREQ. -/
def A.TIM_FREQ : Nat := 0x20040
/-- 11: TIM_PEND. -/
def A.TIM_PEND : Nat := 0x20044
/-- 11: TIM_CTL. -/
def A.TIM_CTL : Nat := 0x2004c
/-- 11: TIM_HSTEP. -/
def A.TIM_HSTEP : Nat := 0x20050
/-- 11: TIM_GM. -/
def A.TIM_GM : Nat := 0x20058
/-- 11: TIM_GMQ. -/
def A.TIM_GMQ : Nat := 0x20060
/-- 11: TIM_GMINACC. -/
def A.TIM_GMINACC : Nat := 0x20064
/-- 11: TIM_UTC. -/
def A.TIM_UTC : Nat := 0x20068
/-- 11: TIM_HOLD_S. -/
def A.TIM_HOLD_S : Nat := 0x2006c
/-- 11: TIM_CNT. -/
def A.TIM_CNT : Nat := 0x20070
/-- 11: TIM_E_LAT. -/
def A.TIM_E_LAT (i : Nat) : Nat := 0x20400 + 32 * i
/-- 11: TIM_E_ASYM. -/
def A.TIM_E_ASYM (i : Nat) : Nat := 0x20404 + 32 * i
/-- 11: TIM_E_STAT. -/
def A.TIM_E_STAT (i : Nat) : Nat := 0x20408 + 32 * i
/-- 11: TIM_E_PDLY. -/
def A.TIM_E_PDLY (i : Nat) : Nat := 0x2040c + 32 * i
/-- 11: TIM_E_CNT. -/
def A.TIM_E_CNT (i : Nat) : Nat := 0x20410 + 32 * i
/-- 11: TIM_TE_CTL. -/
def A.TIM_TE_CTL (i : Nat) : Nat := 0x21000 + 64 * i
/-- 11: TIM_TE_TGT. -/
def A.TIM_TE_TGT (i : Nat) : Nat := 0x21004 + 64 * i
/-- 11: TIM_TE_PER. -/
def A.TIM_TE_PER (i : Nat) : Nat := 0x21010 + 64 * i
/-- 11: TIM_TE_TGT_NS. -/
def A.TIM_TE_TGT_NS (i : Nat) : Nat := 0x2100c + 64 * i
/-- 11: TIM_TE_WID. -/
def A.TIM_TE_WID (i : Nat) : Nat := 0x21018 + 64 * i
/-- 11: TIM_TE_STAT. -/
def A.TIM_TE_STAT (i : Nat) : Nat := 0x2101c + 64 * i
/-- 11: TIM_TE_DUE. -/
def A.TIM_TE_DUE (i : Nat) : Nat := 0x21020 + 64 * i
/-- 11: TIM_TPO. -/
def A.TIM_TPO (i : Nat) : Nat := 0x21800 + 4 * i
/-- 11: TIM_TCI_CTL. -/
def A.TIM_TCI_CTL (i : Nat) : Nat := 0x21c00 + 32 * i
/-- 11: TIM_TCI_SIX. -/
def A.TIM_TCI_SIX (i : Nat) : Nat := 0x21c04 + 32 * i
/-- 11: TIM_TCI_SEC. -/
def A.TIM_TCI_SEC (i : Nat) : Nat := 0x21c0c + 32 * i
/-- 11: TIM_TCI_NS. -/
def A.TIM_TCI_NS (i : Nat) : Nat := 0x21c14 + 32 * i
/-- 12: ETH_STATUS. -/
def A.ETH_STATUS : Nat := 0xc0000
/-- 12: ETH_EVT. -/
def A.ETH_EVT : Nat := 0xc0004
/-- 12: ETH_IEN. -/
def A.ETH_IEN : Nat := 0xc0008
/-- 12: ETH_PAIR_CFG. -/
def A.ETH_PAIR_CFG (i : Nat) : Nat := 0xc0010 + 4 * i
/-- 12: ETH_PAIR_MAC. -/
def A.ETH_PAIR_MAC (i : Nat) : Nat := 0xc0018 + 8 * i
/-- 12: ETH_PAIR_NOMATCH. -/
def A.ETH_PAIR_NOMATCH (i : Nat) : Nat := 0xc0028 + 4 * i
/-- 12: ETH_HRX_BASE. -/
def A.ETH_HRX_BASE : Nat := 0xc0040
/-- 12: ETH_HTX_BASE. -/
def A.ETH_HTX_BASE : Nat := 0xc0050
/-- 12: ETH_HRX_CTL. -/
def A.ETH_HRX_CTL : Nat := 0xc0048
/-- 12: ETH_HTX_CTL. -/
def A.ETH_HTX_CTL : Nat := 0xc0058
/-- 12: ETH_HRX_IDX. -/
def A.ETH_HRX_IDX : Nat := 0xc004c
/-- 12: ETH_HTX_IDX. -/
def A.ETH_HTX_IDX : Nat := 0xc005c
/-- 12: ETH_HQ_CNT. -/
def A.ETH_HQ_CNT : Nat := 0xc0060
/-- 12: ETH_E_STAT. -/
def A.ETH_E_STAT (i : Nat) : Nat := 0xc0100 + 16 * i
/-- 12: ETH_E_RX. -/
def A.ETH_E_RX (i : Nat) : Nat := 0xc0104 + 16 * i
/-- 12: ETH_E_ERR. -/
def A.ETH_E_ERR (i : Nat) : Nat := 0xc0108 + 16 * i
/-- 12: ETH_E_DUP. -/
def A.ETH_E_DUP (i : Nat) : Nat := 0xc010c + 16 * i
/-- 12: ETH_C_STAT. -/
def A.ETH_C_STAT (i : Nat) : Nat := 0xc1000 + 32 * i
/-- 12: ETH_C_STNUM. -/
def A.ETH_C_STNUM (i : Nat) : Nat := 0xc1004 + 32 * i
/-- 12: ETH_C_SQNUM. -/
def A.ETH_C_SQNUM (i : Nat) : Nat := 0xc1008 + 32 * i
/-- 12: ETH_C_CNT. -/
def A.ETH_C_CNT (i : Nat) : Nat := 0xc100c + 32 * i
/-- 12: ETH_C_LAST. -/
def A.ETH_C_LAST (i : Nat) : Nat := 0xc1010 + 32 * i
/-- 13: UCH_STATUS. -/
def A.UCH_STATUS : Nat := 0xd0000
/-- 13: UCH_EVT. -/
def A.UCH_EVT : Nat := 0xd0004
/-- 13: UCH_IEN. -/
def A.UCH_IEN : Nat := 0xd0008
/-- 13: UCH_DROP_CNT. -/
def A.UCH_DROP_CNT : Nat := 0xd000c
/-- 13: UCH_C_CFG. -/
def A.UCH_C_CFG (i : Nat) : Nat := 0xd1000 + 64 * i
/-- 13: UCH_C_CJ. -/
def A.UCH_C_CJ (i : Nat) : Nat := 0xd1004 + 64 * i
/-- 13: UCH_C_STAT. -/
def A.UCH_C_STAT (i : Nat) : Nat := 0xd1008 + 64 * i
/-- 13: UCH_C_SUM. -/
def A.UCH_C_SUM (i : Nat) : Nat := 0xd100c + 64 * i
/-- 13: UCH_C_MIN. -/
def A.UCH_C_MIN (i : Nat) : Nat := 0xd1014 + 64 * i
/-- 13: UCH_C_MAX. -/
def A.UCH_C_MAX (i : Nat) : Nat := 0xd1018 + 64 * i
/-- 13: UCH_C_COUNT. -/
def A.UCH_C_COUNT (i : Nat) : Nat := 0xd101c + 64 * i
/-- 13: UCH_C_TAG. -/
def A.UCH_C_TAG (i : Nat) : Nat := 0xd1020 + 64 * i
/-- 13: UCH_C_CLR. -/
def A.UCH_C_CLR (i : Nat) : Nat := 0xd1028 + 64 * i
/-- 13: UCH_C_CNT. -/
def A.UCH_C_CNT (i : Nat) : Nat := 0xd1030 + 64 * i
/-- 13: UCH_C_HCTL. -/
def A.UCH_C_HCTL (i : Nat) : Nat := 0xd1034 + 64 * i
/-- 13: UCH_G_HCTL. -/
def A.UCH_G_HCTL (i : Nat) : Nat := 0xd2000 + 64 * i
/-- 13: UCH_G_HLEN. -/
def A.UCH_G_HLEN (i : Nat) : Nat := 0xd2004 + 64 * i
/-- 13: UCH_G_HCNT. -/
def A.UCH_G_HCNT (i : Nat) : Nat := 0xd2008 + 64 * i
/-- 13: UCH_G_HBUF. -/
def A.UCH_G_HBUF (i : Nat) (j : Nat) : Nat := 0xd3000 + 512 * i + 4 * j
/-- 14: ENG_ID. -/
def A.ENG_ID : Nat := 0x0
/-- 14: ENG_UID. -/
def A.ENG_UID : Nat := 0x4
/-- 14: ENG_STATE. -/
def A.ENG_STATE : Nat := 0xc
/-- 14: ENG_DENY_CNT. -/
def A.ENG_DENY_CNT : Nat := 0x10
/-- 14: ENG_DENY_LAST. -/
def A.ENG_DENY_LAST : Nat := 0x14
/-- 14: ENG_EVT. -/
def A.ENG_EVT : Nat := 0x18
/-- 14: ENG_IEN. -/
def A.ENG_IEN : Nat := 0x1c
/-- 14: ENG_SESS. -/
def A.ENG_SESS : Nat := 0x20
/-- 14: ENG_SESS_LEFT. -/
def A.ENG_SESS_LEFT : Nat := 0x24
/-- 14: ENG_SESS_CTL. -/
def A.ENG_SESS_CTL : Nat := 0x28
/-- 14: ENG_FWVER. -/
def A.ENG_FWVER : Nat := 0x2c
/-- 14: SEC_CMD. -/
def A.SEC_CMD : Nat := 0xe0000
/-- 14: SEC_LEN. -/
def A.SEC_LEN : Nat := 0xe0004
/-- 14: SEC_STATUS. -/
def A.SEC_STATUS : Nat := 0xe0008
/-- 14: SEC_EVT. -/
def A.SEC_EVT : Nat := 0xe000c
/-- 14: SEC_IEN. -/
def A.SEC_IEN : Nat := 0xe0010
/-- 14: SEC_KEY. -/
def A.SEC_KEY (i : Nat) : Nat := 0xe0020 + 4 * i
/-- 14: SEC_SVN. -/
def A.SEC_SVN (i : Nat) : Nat := 0xe0030 + 4 * i
/-- 14: SEC_XMSS_LEFT. -/
def A.SEC_XMSS_LEFT : Nat := 0xe0040
/-- 14: SEC_XMSS_DAY. -/
def A.SEC_XMSS_DAY : Nat := 0xe0044
/-- 14: SEC_TAMPER. -/
def A.SEC_TAMPER : Nat := 0xe0048
/-- 14: SEC_BUF. -/
def A.SEC_BUF (i : Nat) : Nat := 0xe1000 + 4 * i
/-- 15: PWR_STATE. -/
def A.PWR_STATE : Nat := 0x10000
/-- 15: PWR_EVT. -/
def A.PWR_EVT : Nat := 0x10004
/-- 15: PWR_IEN. -/
def A.PWR_IEN : Nat := 0x10008
/-- 15: PWR_CMD. -/
def A.PWR_CMD : Nat := 0x1000c
/-- 15: PWR_CFG. -/
def A.PWR_CFG : Nat := 0x10010
/-- 15: PWR_DOM. -/
def A.PWR_DOM : Nat := 0x10014
/-- 15: PWR_SUPPLY. -/
def A.PWR_SUPPLY : Nat := 0x10018
/-- 15: PWR_TEMP. -/
def A.PWR_TEMP : Nat := 0x1001c
/-- 15: PWR_RST. -/
def A.PWR_RST : Nat := 0x10020
/-- 15: PWR_STEM_SIX. -/
def A.PWR_STEM_SIX : Nat := 0x10024
/-- 15: PWR_SVC_SIX. -/
def A.PWR_SVC_SIX : Nat := 0x1002c
/-- 15: CLK_STATUS. -/
def A.CLK_STATUS : Nat := 0x10800
/-- 15: CLK_EVT. -/
def A.CLK_EVT : Nat := 0x10804
/-- 15: CLK_IEN. -/
def A.CLK_IEN : Nat := 0x10808
/-- 15: CLK_RXLOCK. -/
def A.CLK_RXLOCK : Nat := 0x1080c

def F.HJL_STATUS.RUN_N : Field := ⟨A.HJL_STATUS, 0, 6⟩
def F.HJL_STATUS.LOST_N : Field := ⟨A.HJL_STATUS, 8, 6⟩
def F.HJL_STATUS.DEAD_N : Field := ⟨A.HJL_STATUS, 16, 6⟩
def F.HJL_STATUS.QUAR_N : Field := ⟨A.HJL_STATUS, 24, 6⟩
def F.HJL_INC_LAST.INC : Field := ⟨A.HJL_INC_LAST, 0, 16⟩
def F.HJL_READMIT.PORT : Field := ⟨A.HJL_READMIT, 0, 6⟩
def F.HJL_READMIT.GO : Field := ⟨A.HJL_READMIT, 8, 1⟩
def F.HJL_READMIT.BUSY : Field := ⟨A.HJL_READMIT, 16, 1⟩
def F.HJL_READMIT.REJECT : Field := ⟨A.HJL_READMIT, 17, 1⟩
def F.HJL_REBIND.STATION : Field := ⟨A.HJL_REBIND, 0, 6⟩
def F.HJL_REBIND.GO : Field := ⟨A.HJL_REBIND, 16, 1⟩
def F.HJL_REBIND.PENDING : Field := ⟨A.HJL_REBIND, 17, 1⟩
def F.HJL_REBIND.REJECT : Field := ⟨A.HJL_REBIND, 18, 1⟩
def F.HJL_SPARE.SPARE_PORT (i : Nat) : Field := ⟨A.HJL_SPARE i, 0, 6⟩
def F.HJL_SPARE.STATION (i : Nat) : Field := ⟨A.HJL_SPARE i, 8, 6⟩
def F.HJL_SPARE.EN (i : Nat) : Field := ⟨A.HJL_SPARE i, 16, 1⟩
def F.HJL_SPARE.BOUND (i : Nat) : Field := ⟨A.HJL_SPARE i, 17, 1⟩
def F.HJL_P_CFG.ROLE (i : Nat) : Field := ⟨A.HJL_P_CFG i, 0, 2⟩
def F.HJL_P_CFG.TYPE (i : Nat) : Field := ⟨A.HJL_P_CFG i, 2, 2⟩
def F.HJL_P_CFG.READMIT_AUTO (i : Nat) : Field := ⟨A.HJL_P_CFG i, 4, 1⟩
def F.HJL_P_CFG.PIN_UID (i : Nat) : Field := ⟨A.HJL_P_CFG i, 5, 1⟩
def F.HJL_P_CFG.PIN_DIGEST (i : Nat) : Field := ⟨A.HJL_P_CFG i, 6, 1⟩
def F.HJL_P_CFG.DEAD_MS (i : Nat) : Field := ⟨A.HJL_P_CFG i, 16, 10⟩
def F.HJL_P_STATE.STATE (i : Nat) : Field := ⟨A.HJL_P_STATE i, 0, 4⟩
def F.HJL_P_STATE.STATION (i : Nat) : Field := ⟨A.HJL_P_STATE i, 8, 6⟩
def F.HJL_P_STATE.INC (i : Nat) : Field := ⟨A.HJL_P_STATE i, 16, 16⟩
def F.HJL_P_DELAY.D (i : Nat) : Field := ⟨A.HJL_P_DELAY i, 0, 24⟩
def F.HJL_P_DELAY.VALID (i : Nat) : Field := ⟨A.HJL_P_DELAY i, 31, 1⟩
def F.HJL_P_COMP.COMP (i : Nat) : Field := ⟨A.HJL_P_COMP i, 0, 24⟩
def F.HJL_P_ERR.CRC_ERR (i : Nat) : Field := ⟨A.HJL_P_ERR i, 0, 16⟩
def F.HJL_P_ERR.CODE_ERR (i : Nat) : Field := ⟨A.HJL_P_ERR i, 16, 16⟩
def F.HJL_P_EVT.LOST (i : Nat) : Field := ⟨A.HJL_P_EVT i, 0, 1⟩
def F.HJL_P_EVT.DEAD (i : Nat) : Field := ⟨A.HJL_P_EVT i, 1, 1⟩
def F.HJL_P_EVT.QUAR (i : Nat) : Field := ⟨A.HJL_P_EVT i, 2, 1⟩
def F.HJL_P_EVT.DELAY_JUMP (i : Nat) : Field := ⟨A.HJL_P_EVT i, 3, 1⟩
def F.HJL_P_EVT.SLIP (i : Nat) : Field := ⟨A.HJL_P_EVT i, 4, 1⟩
def F.HJL_P_EVT.ADMIT (i : Nat) : Field := ⟨A.HJL_P_EVT i, 5, 1⟩
def F.HJL_P_EVT.REFUSE (i : Nat) : Field := ⟨A.HJL_P_EVT i, 6, 1⟩
def F.HJL_P_EVT.TRIP_UNACK (i : Nat) : Field := ⟨A.HJL_P_EVT i, 7, 1⟩
def F.HJL_P_EVT.CMD_LATE (i : Nat) : Field := ⟨A.HJL_P_EVT i, 8, 1⟩
def F.HJL_P_IEN.LOST (i : Nat) : Field := ⟨A.HJL_P_IEN i, 0, 1⟩
def F.HJL_P_IEN.DEAD (i : Nat) : Field := ⟨A.HJL_P_IEN i, 1, 1⟩
def F.HJL_P_IEN.QUAR (i : Nat) : Field := ⟨A.HJL_P_IEN i, 2, 1⟩
def F.HJL_P_IEN.DELAY_JUMP (i : Nat) : Field := ⟨A.HJL_P_IEN i, 3, 1⟩
def F.HJL_P_IEN.SLIP (i : Nat) : Field := ⟨A.HJL_P_IEN i, 4, 1⟩
def F.HJL_P_IEN.ADMIT (i : Nat) : Field := ⟨A.HJL_P_IEN i, 5, 1⟩
def F.HJL_P_IEN.REFUSE (i : Nat) : Field := ⟨A.HJL_P_IEN i, 6, 1⟩
def F.HJL_P_IEN.TRIP_UNACK (i : Nat) : Field := ⟨A.HJL_P_IEN i, 7, 1⟩
def F.HJL_P_IEN.CMD_LATE (i : Nat) : Field := ⟨A.HJL_P_IEN i, 8, 1⟩
def F.HJL_P_CNT.CMD_DISC (i : Nat) : Field := ⟨A.HJL_P_CNT i, 0, 8⟩
def F.HJL_P_CNT.CMD_LATE (i : Nat) : Field := ⟨A.HJL_P_CNT i, 8, 8⟩
def F.HJL_P_CNT.QUAR_CNT (i : Nat) : Field := ⟨A.HJL_P_CNT i, 16, 16⟩
def F.HJL_P_TRIP.ACTIVE (i : Nat) : Field := ⟨A.HJL_P_TRIP i, 0, 1⟩
def F.HJL_P_TRIP.SLOT1 (i : Nat) : Field := ⟨A.HJL_P_TRIP i, 1, 1⟩
def F.HJL_P_TRIP.SEQ (i : Nat) : Field := ⟨A.HJL_P_TRIP i, 4, 4⟩
def F.HJL_P_TRIP.INDEX (i : Nat) : Field := ⟨A.HJL_P_TRIP i, 8, 5⟩
def F.HJL_P_TRIP.AGE_US (i : Nat) : Field := ⟨A.HJL_P_TRIP i, 16, 16⟩
def F.HJL_P_REFUSE.REASON (i : Nat) : Field := ⟨A.HJL_P_REFUSE i, 0, 8⟩
def F.SFB_STATUS.RUN_N : Field := ⟨A.SFB_STATUS, 0, 9⟩
def F.SFB_STATUS.MISS_N : Field := ⟨A.SFB_STATUS, 16, 9⟩
def F.SFB_ALIGN.A : Field := ⟨A.SFB_ALIGN, 0, 7⟩
def F.SFB_LATE_CNT.LATE : Field := ⟨A.SFB_LATE_CNT, 0, 32⟩
def F.SFB_EVT.LATE : Field := ⟨A.SFB_EVT, 0, 1⟩
def F.SFB_EVT.CTX_MISSING : Field := ⟨A.SFB_EVT, 1, 1⟩
def F.SFB_EVT.CTX_RUN : Field := ⟨A.SFB_EVT, 2, 1⟩
def F.SFB_EVT.CTX_SUBST : Field := ⟨A.SFB_EVT, 3, 1⟩
def F.SFB_EVT.SV_NOLOCK : Field := ⟨A.SFB_EVT, 4, 1⟩
def F.SFB_EVT.SAT : Field := ⟨A.SFB_EVT, 5, 1⟩
def F.SFB_IEN.LATE : Field := ⟨A.SFB_IEN, 0, 1⟩
def F.SFB_IEN.CTX_MISSING : Field := ⟨A.SFB_IEN, 1, 1⟩
def F.SFB_IEN.CTX_RUN : Field := ⟨A.SFB_IEN, 2, 1⟩
def F.SFB_IEN.CTX_SUBST : Field := ⟨A.SFB_IEN, 3, 1⟩
def F.SFB_IEN.SV_NOLOCK : Field := ⟨A.SFB_IEN, 4, 1⟩
def F.SFB_IEN.SAT : Field := ⟨A.SFB_IEN, 5, 1⟩
def F.SFB_C_CFG.KIND (i : Nat) : Field := ⟨A.SFB_C_CFG i, 0, 3⟩
def F.SFB_C_CFG.F0SEL (i : Nat) : Field := ⟨A.SFB_C_CFG i, 4, 2⟩
def F.SFB_C_CFG.NCH (i : Nat) : Field := ⟨A.SFB_C_CFG i, 8, 6⟩
def F.SFB_C_CFG.DCW (i : Nat) : Field := ⟨A.SFB_C_CFG i, 16, 9⟩
def F.SFB_C_ACMASK.AC (i : Nat) : Field := ⟨A.SFB_C_ACMASK i, 0, 32⟩
def F.SFB_C_STATE.STATE (i : Nat) : Field := ⟨A.SFB_C_STATE i, 0, 3⟩
def F.SFB_C_STATE.SOURCE (i : Nat) : Field := ⟨A.SFB_C_STATE i, 8, 6⟩
def F.SFB_C_STATE.SETTLE_BC (i : Nat) : Field := ⟨A.SFB_C_STATE i, 16, 16⟩
def F.SFB_C_SVDLY.D (i : Nat) : Field := ⟨A.SFB_C_SVDLY i, 0, 16⟩
def F.SFB_C_CNT.MISS (i : Nat) : Field := ⟨A.SFB_C_CNT i, 0, 16⟩
def F.SFB_C_CNT.LATE (i : Nat) : Field := ⟨A.SFB_C_CNT i, 16, 16⟩
def F.BIN_STATE.STATE : Field := ⟨A.BIN_STATE, 0, 32⟩
def F.BIN_RAW.RAW : Field := ⟨A.BIN_RAW, 0, 32⟩
def F.BIN_VALID.VALID : Field := ⟨A.BIN_VALID, 0, 32⟩
def F.BIN_PERSIST.PERSIST : Field := ⟨A.BIN_PERSIST, 0, 32⟩
def F.BIN_CHAT_EVT.CHAT : Field := ⟨A.BIN_CHAT_EVT, 0, 32⟩
def F.BIN_CHAT_IEN.CHAT : Field := ⟨A.BIN_CHAT_IEN, 0, 32⟩
def F.BIN_PERS_EVT.PERS : Field := ⟨A.BIN_PERS_EVT, 0, 32⟩
def F.BIN_PERS_IEN.PERS : Field := ⟨A.BIN_PERS_IEN, 0, 32⟩
def F.BIN_I_CFG.ACTIVE_LOW (i : Nat) : Field := ⟨A.BIN_I_CFG i, 0, 1⟩
def F.BIN_I_CFG.EVT_EN (i : Nat) : Field := ⟨A.BIN_I_CFG i, 1, 1⟩
def F.BIN_I_CFG.CHAT_EN (i : Nat) : Field := ⟨A.BIN_I_CFG i, 2, 1⟩
def F.BIN_I_CFG.PERS_EN (i : Nat) : Field := ⟨A.BIN_I_CFG i, 3, 1⟩
def F.BIN_I_CFG.PERS_BLOCK (i : Nat) : Field := ⟨A.BIN_I_CFG i, 4, 1⟩
def F.BIN_I_CFG.DEB (i : Nat) : Field := ⟨A.BIN_I_CFG i, 16, 16⟩
def F.BIN_I_CHAT.N (i : Nat) : Field := ⟨A.BIN_I_CHAT i, 0, 8⟩
def F.BIN_I_CHAT.T_MS (i : Nat) : Field := ⟨A.BIN_I_CHAT i, 8, 16⟩
def F.BIN_I_TIME.HOLD_S (i : Nat) : Field := ⟨A.BIN_I_TIME i, 0, 16⟩
def F.BIN_I_TIME.PERS_S (i : Nat) : Field := ⟨A.BIN_I_TIME i, 16, 16⟩
def F.BIN_I_CNT.TRANS (i : Nat) : Field := ⟨A.BIN_I_CNT i, 0, 16⟩
def F.BIN_I_CNT.BLOCKS (i : Nat) : Field := ⟨A.BIN_I_CNT i, 16, 16⟩
def F.INJ_STATUS.ARMED : Field := ⟨A.INJ_STATUS, 0, 1⟩
def F.INJ_STATUS.STEM_RUN : Field := ⟨A.INJ_STATUS, 1, 1⟩
def F.INJ_STATUS.CFG_VALID : Field := ⟨A.INJ_STATUS, 2, 1⟩
def F.INJ_STATUS.PENDING : Field := ⟨A.INJ_STATUS, 8, 8⟩
def F.INJ_CFG_SEQ.SEQ : Field := ⟨A.INJ_CFG_SEQ, 0, 32⟩
def F.INJ_TDO.CMD : Field := ⟨A.INJ_TDO, 0, 8⟩
def F.INJ_TDO.RB : Field := ⟨A.INJ_TDO, 8, 8⟩
def F.INJ_TDO.LATCHED : Field := ⟨A.INJ_TDO, 16, 8⟩
def F.INJ_TDO_RST.RST : Field := ⟨A.INJ_TDO_RST, 0, 8⟩
def F.INJ_EVT.DECISION : Field := ⟨A.INJ_EVT, 0, 1⟩
def F.INJ_EVT.TDO_FAIL : Field := ⟨A.INJ_EVT, 1, 1⟩
def F.INJ_EVT.VOTE_LATE : Field := ⟨A.INJ_EVT, 2, 1⟩
def F.INJ_EVT.CONJ_DEGRADED : Field := ⟨A.INJ_EVT, 3, 1⟩
def F.INJ_EVT.SCAP_FROZEN : Field := ⟨A.INJ_EVT, 4, 1⟩
def F.INJ_EVT.MERGED : Field := ⟨A.INJ_EVT, 5, 1⟩
def F.INJ_EVT.STEM_RUN : Field := ⟨A.INJ_EVT, 6, 1⟩
def F.INJ_IEN.DECISION : Field := ⟨A.INJ_IEN, 0, 1⟩
def F.INJ_IEN.TDO_FAIL : Field := ⟨A.INJ_IEN, 1, 1⟩
def F.INJ_IEN.VOTE_LATE : Field := ⟨A.INJ_IEN, 2, 1⟩
def F.INJ_IEN.CONJ_DEGRADED : Field := ⟨A.INJ_IEN, 3, 1⟩
def F.INJ_IEN.SCAP_FROZEN : Field := ⟨A.INJ_IEN, 4, 1⟩
def F.INJ_IEN.MERGED : Field := ⟨A.INJ_IEN, 5, 1⟩
def F.INJ_IEN.STEM_RUN : Field := ⟨A.INJ_IEN, 6, 1⟩
def F.INJ_DEC_CNT.DEC : Field := ⟨A.INJ_DEC_CNT, 0, 32⟩
def F.INJ_LAST.RULE : Field := ⟨A.INJ_LAST, 0, 7⟩
def F.INJ_LAST.TEST : Field := ⟨A.INJ_LAST, 7, 1⟩
def F.INJ_LAST.CLMASK : Field := ⟨A.INJ_LAST, 8, 8⟩
def F.INJ_LAST.TDOMASK : Field := ⟨A.INJ_LAST, 16, 8⟩
def F.INJ_LAT_MAX.LAT : Field := ⟨A.INJ_LAT_MAX, 0, 16⟩
def F.INJ_SCAP_CTL.STATE : Field := ⟨A.INJ_SCAP_CTL, 0, 2⟩
def F.INJ_SCAP_CTL.REARM : Field := ⟨A.INJ_SCAP_CTL, 2, 1⟩
def F.INJ_R_TERM.SRC (i : Nat) (j : Nat) : Field := ⟨A.INJ_R_TERM i j, 0, 4⟩
def F.INJ_R_TERM.NEG (i : Nat) (j : Nat) : Field := ⟨A.INJ_R_TERM i j, 4, 1⟩
def F.INJ_R_TERM.SEL (i : Nat) (j : Nat) : Field := ⟨A.INJ_R_TERM i j, 6, 2⟩
def F.INJ_R_TERM.INDEX (i : Nat) (j : Nat) : Field := ⟨A.INJ_R_TERM i j, 8, 8⟩
def F.INJ_R_TERM.WIN (i : Nat) (j : Nat) : Field := ⟨A.INJ_R_TERM i j, 16, 8⟩
def F.INJ_R_CTRL.EN (i : Nat) : Field := ⟨A.INJ_R_CTRL i, 0, 1⟩
def F.INJ_R_CTRL.GATE_EN (i : Nat) : Field := ⟨A.INJ_R_CTRL i, 1, 1⟩
def F.INJ_R_CTRL.SUBST_OK (i : Nat) : Field := ⟨A.INJ_R_CTRL i, 2, 1⟩
def F.INJ_R_CTRL.TEST (i : Nat) : Field := ⟨A.INJ_R_CTRL i, 3, 1⟩
def F.INJ_R_CTRL.GATE (i : Nat) : Field := ⟨A.INJ_R_CTRL i, 8, 6⟩
def F.INJ_R_CTRL.DROPOUT (i : Nat) : Field := ⟨A.INJ_R_CTRL i, 16, 16⟩
def F.INJ_R_ACT.CLMASK (i : Nat) : Field := ⟨A.INJ_R_ACT i, 0, 8⟩
def F.INJ_R_ACT.TDOMASK (i : Nat) : Field := ⟨A.INJ_R_ACT i, 8, 8⟩
def F.INJ_R_ACT.TARGET (i : Nat) : Field := ⟨A.INJ_R_ACT i, 16, 4⟩
def F.INJ_R_ACT.INTJ (i : Nat) : Field := ⟨A.INJ_R_ACT i, 20, 1⟩
def F.INJ_R_ACT.CONJ (i : Nat) : Field := ⟨A.INJ_R_ACT i, 21, 1⟩
def F.INJ_R_ACT.CGRP (i : Nat) : Field := ⟨A.INJ_R_ACT i, 22, 4⟩
def F.INJ_R_STAT.TRUE (i : Nat) : Field := ⟨A.INJ_R_STAT i, 0, 1⟩
def F.INJ_R_STAT.ARMED (i : Nat) : Field := ⟨A.INJ_R_STAT i, 1, 1⟩
def F.INJ_R_STAT.PICKUP (i : Nat) : Field := ⟨A.INJ_R_STAT i, 2, 1⟩
def F.INJ_R_STAT.DEC (i : Nat) : Field := ⟨A.INJ_R_STAT i, 16, 16⟩
def F.INJ_C_LA_TH.TH (i : Nat) : Field := ⟨A.INJ_C_LA_TH i, 0, 24⟩
def F.INJ_C_LB_TH.TH (i : Nat) : Field := ⟨A.INJ_C_LB_TH i, 0, 24⟩
def F.INJ_C_LA_CTL.MODE (i : Nat) : Field := ⟨A.INJ_C_LA_CTL i, 0, 2⟩
def F.INJ_C_LA_CTL.PC (i : Nat) : Field := ⟨A.INJ_C_LA_CTL i, 8, 8⟩
def F.INJ_C_LA_CTL.HYST (i : Nat) : Field := ⟨A.INJ_C_LA_CTL i, 16, 16⟩
def F.INJ_C_LB_CTL.MODE (i : Nat) : Field := ⟨A.INJ_C_LB_CTL i, 0, 2⟩
def F.INJ_C_LB_CTL.PC (i : Nat) : Field := ⟨A.INJ_C_LB_CTL i, 8, 8⟩
def F.INJ_C_LB_CTL.HYST (i : Nat) : Field := ⟨A.INJ_C_LB_CTL i, 16, 16⟩
def F.INJ_C_ROC_TH.TH (i : Nat) : Field := ⟨A.INJ_C_ROC_TH i, 0, 23⟩
def F.INJ_C_ROC_CTL.MODE (i : Nat) : Field := ⟨A.INJ_C_ROC_CTL i, 0, 2⟩
def F.INJ_C_ROC_CTL.M (i : Nat) : Field := ⟨A.INJ_C_ROC_CTL i, 8, 7⟩
def F.INJ_C_ROC_CTL.PC (i : Nat) : Field := ⟨A.INJ_C_ROC_CTL i, 16, 8⟩
def F.INJ_C_STEP_TH.TH (i : Nat) : Field := ⟨A.INJ_C_STEP_TH i, 0, 28⟩
def F.INJ_C_STEP_CTL.EN (i : Nat) : Field := ⟨A.INJ_C_STEP_CTL i, 0, 1⟩
def F.INJ_C_STEP_CTL.QM1 (i : Nat) : Field := ⟨A.INJ_C_STEP_CTL i, 4, 4⟩
def F.INJ_C_STEP_CTL.HOLD (i : Nat) : Field := ⟨A.INJ_C_STEP_CTL i, 8, 12⟩
def F.INJ_C_STAT.LA (i : Nat) : Field := ⟨A.INJ_C_STAT i, 0, 1⟩
def F.INJ_C_STAT.LB (i : Nat) : Field := ⟨A.INJ_C_STAT i, 1, 1⟩
def F.INJ_C_STAT.ROC (i : Nat) : Field := ⟨A.INJ_C_STAT i, 2, 1⟩
def F.INJ_C_STAT.STEP (i : Nat) : Field := ⟨A.INJ_C_STAT i, 3, 1⟩
def F.INJ_C_STAT.SIGN (i : Nat) : Field := ⟨A.INJ_C_STAT i, 4, 1⟩
def F.INJ_C_STAT.USABLE (i : Nat) : Field := ⟨A.INJ_C_STAT i, 5, 1⟩
def F.INJ_D_CH.VCH (i : Nat) : Field := ⟨A.INJ_D_CH i, 0, 8⟩
def F.INJ_D_CH.ICH (i : Nat) : Field := ⟨A.INJ_D_CH i, 8, 8⟩
def F.INJ_D_CH.QM1 (i : Nat) : Field := ⟨A.INJ_D_CH i, 16, 4⟩
def F.INJ_D_CH.EN (i : Nat) : Field := ⟨A.INJ_D_CH i, 20, 1⟩
def F.INJ_D_KZ.KZ (i : Nat) : Field := ⟨A.INJ_D_KZ i, 0, 24⟩
def F.INJ_D_CTL.RATIO (i : Nat) : Field := ⟨A.INJ_D_CTL i, 0, 8⟩
def F.INJ_D_CTL.HOLD (i : Nat) : Field := ⟨A.INJ_D_CTL i, 8, 12⟩
def F.INJ_D_CTL.FWD (i : Nat) : Field := ⟨A.INJ_D_CTL i, 30, 1⟩
def F.INJ_D_CTL.REV (i : Nat) : Field := ⟨A.INJ_D_CTL i, 31, 1⟩
def F.INJ_D_BMIN.BMIN (i : Nat) : Field := ⟨A.INJ_D_BMIN i, 0, 28⟩
def F.INJ_G_CFG.K (i : Nat) : Field := ⟨A.INJ_G_CFG i, 0, 4⟩
def F.INJ_G_CFG.PEERMASK (i : Nat) : Field := ⟨A.INJ_G_CFG i, 4, 4⟩
def F.INJ_G_CFG.WIRE (i : Nat) : Field := ⟨A.INJ_G_CFG i, 8, 6⟩
def F.INJ_G_CFG.DEGRADE (i : Nat) : Field := ⟨A.INJ_G_CFG i, 14, 1⟩
def F.INJ_G_CFG.EN (i : Nat) : Field := ⟨A.INJ_G_CFG i, 15, 1⟩
def F.INJ_G_CFG.KMIN (i : Nat) : Field := ⟨A.INJ_G_CFG i, 16, 3⟩
def F.INJ_G_WIN.VWIN (i : Nat) : Field := ⟨A.INJ_G_WIN i, 0, 8⟩
def F.INJ_G_WIN.VWAIT (i : Nat) : Field := ⟨A.INJ_G_WIN i, 16, 12⟩
def F.INJ_G_STAT.STATE (i : Nat) : Field := ⟨A.INJ_G_STAT i, 0, 2⟩
def F.INJ_G_STAT.VOTES (i : Nat) : Field := ⟨A.INJ_G_STAT i, 4, 4⟩
def F.INJ_G_STAT.MISSING (i : Nat) : Field := ⟨A.INJ_G_STAT i, 8, 4⟩
def F.INJ_G_STAT.K_EFF (i : Nat) : Field := ⟨A.INJ_G_STAT i, 12, 3⟩
def F.INJ_PEER.L_NS (i : Nat) : Field := ⟨A.INJ_PEER i, 0, 16⟩
def F.INJ_SCAP.CH (i : Nat) : Field := ⟨A.INJ_SCAP i, 0, 8⟩
def F.INJ_SCAP.EN (i : Nat) : Field := ⟨A.INJ_SCAP i, 8, 1⟩
def F.INJ_SCAP_POST.POST : Field := ⟨A.INJ_SCAP_POST, 0, 18⟩
def F.INJ_GATE_STEM.POL (i : Nat) (b : Nat) : Field := ⟨A.INJ_GATE_STEM i, 2 * b, 2⟩
def F.INJ_T_CFG.LATCH (i : Nat) : Field := ⟨A.INJ_T_CFG i, 0, 1⟩
def F.INJ_T_CFG.RB_EN (i : Nat) : Field := ⟨A.INJ_T_CFG i, 1, 1⟩
def F.INJ_T_CFG.RB_T (i : Nat) : Field := ⟨A.INJ_T_CFG i, 4, 12⟩
def F.INJ_T_CFG.TMIN (i : Nat) : Field := ⟨A.INJ_T_CFG i, 16, 16⟩
def F.INJ_T_STAT.CMD (i : Nat) : Field := ⟨A.INJ_T_STAT i, 0, 1⟩
def F.INJ_T_STAT.RB (i : Nat) : Field := ⟨A.INJ_T_STAT i, 1, 1⟩
def F.INJ_T_STAT.LATCHED (i : Nat) : Field := ⟨A.INJ_T_STAT i, 2, 1⟩
def F.INJ_T_STAT.FAIL_ON (i : Nat) : Field := ⟨A.INJ_T_STAT i, 3, 1⟩
def F.INJ_T_STAT.FAIL_OFF (i : Nat) : Field := ⟨A.INJ_T_STAT i, 4, 1⟩
def F.LNE_STATUS.SPARE_OK : Field := ⟨A.LNE_STATUS, 0, 1⟩
def F.LNE_STATUS.FAILED : Field := ⟨A.LNE_STATUS, 4, 4⟩
def F.LNE_STATUS.SERVICE : Field := ⟨A.LNE_STATUS, 8, 4⟩
def F.LNE_STATUS.SPARE_ACT : Field := ⟨A.LNE_STATUS, 16, 3⟩
def F.LNE_EVT.LANE_FAIL : Field := ⟨A.LNE_EVT, 0, 1⟩
def F.LNE_EVT.TAKEOVER : Field := ⟨A.LNE_EVT, 1, 1⟩
def F.LNE_EVT.NO_SPARE : Field := ⟨A.LNE_EVT, 2, 1⟩
def F.LNE_EVT.EXC : Field := ⟨A.LNE_EVT, 3, 1⟩
def F.LNE_EVT.LOAD_FAIL : Field := ⟨A.LNE_EVT, 4, 1⟩
def F.LNE_IEN.LANE_FAIL : Field := ⟨A.LNE_IEN, 0, 1⟩
def F.LNE_IEN.TAKEOVER : Field := ⟨A.LNE_IEN, 1, 1⟩
def F.LNE_IEN.NO_SPARE : Field := ⟨A.LNE_IEN, 2, 1⟩
def F.LNE_IEN.EXC : Field := ⟨A.LNE_IEN, 3, 1⟩
def F.LNE_IEN.LOAD_FAIL : Field := ⟨A.LNE_IEN, 4, 1⟩
def F.LNE_TKO.FROM : Field := ⟨A.LNE_TKO, 0, 2⟩
def F.LNE_TKO.TO : Field := ⟨A.LNE_TKO, 2, 2⟩
def F.LNE_TKO.PART : Field := ⟨A.LNE_TKO, 4, 2⟩
def F.LNE_TKO.LOST_CYC : Field := ⟨A.LNE_TKO, 8, 8⟩
def F.LNE_L_STATE.ROLE (i : Nat) : Field := ⟨A.LNE_L_STATE i, 0, 3⟩
def F.LNE_L_STATE.PART (i : Nat) : Field := ⟨A.LNE_L_STATE i, 4, 2⟩
def F.LNE_L_STATE.CAUSE (i : Nat) : Field := ⟨A.LNE_L_STATE i, 8, 4⟩
def F.LNE_L_EXC.CODE (i : Nat) : Field := ⟨A.LNE_L_EXC i, 0, 8⟩
def F.LNE_L_EXC.TID (i : Nat) : Field := ⟨A.LNE_L_EXC i, 8, 6⟩
def F.LNE_L_EXC.DETAIL (i : Nat) : Field := ⟨A.LNE_L_EXC i, 16, 16⟩
def F.LNE_L_EXC_PC.PC (i : Nat) : Field := ⟨A.LNE_L_EXC_PC i, 0, 32⟩
def F.LNE_L_EXC_CNT.EXC (i : Nat) : Field := ⟨A.LNE_L_EXC_CNT i, 0, 16⟩
def F.TSK_EVT.OVERRUN : Field := ⟨A.TSK_EVT, 0, 1⟩
def F.TSK_EVT.ABORT : Field := ⟨A.TSK_EVT, 1, 1⟩
def F.TSK_EVT.NOTE_DROP : Field := ⟨A.TSK_EVT, 2, 1⟩
def F.TSK_EVT.COAL : Field := ⟨A.TSK_EVT, 3, 1⟩
def F.TSK_EVT.PAN_FAIL : Field := ⟨A.TSK_EVT, 4, 1⟩
def F.TSK_EVT.PAN_MISMATCH : Field := ⟨A.TSK_EVT, 5, 1⟩
def F.TSK_IEN.OVERRUN : Field := ⟨A.TSK_IEN, 0, 1⟩
def F.TSK_IEN.ABORT : Field := ⟨A.TSK_IEN, 1, 1⟩
def F.TSK_IEN.NOTE_DROP : Field := ⟨A.TSK_IEN, 2, 1⟩
def F.TSK_IEN.COAL : Field := ⟨A.TSK_IEN, 3, 1⟩
def F.TSK_IEN.PAN_FAIL : Field := ⟨A.TSK_IEN, 4, 1⟩
def F.TSK_IEN.PAN_MISMATCH : Field := ⟨A.TSK_IEN, 5, 1⟩
def F.TSK_APPLY.APPLY_OFS : Field := ⟨A.TSK_APPLY, 0, 12⟩
def F.TSK_PAN.NEWEST : Field := ⟨A.TSK_PAN, 0, 1⟩
def F.TSK_PAN.FINAL : Field := ⟨A.TSK_PAN, 1, 1⟩
def F.TSK_PAN.VALID0 : Field := ⟨A.TSK_PAN, 2, 1⟩
def F.TSK_PAN.VALID1 : Field := ⟨A.TSK_PAN, 3, 1⟩
def F.TSK_PAN.RESTORE : Field := ⟨A.TSK_PAN, 4, 2⟩
def F.TSK_PAN.MISMATCH : Field := ⟨A.TSK_PAN, 16, 16⟩
def F.TSK_T_CFG.EN (i : Nat) : Field := ⟨A.TSK_T_CFG i, 0, 1⟩
def F.TSK_T_CFG.KIND (i : Nat) : Field := ⟨A.TSK_T_CFG i, 1, 1⟩
def F.TSK_T_CFG.PART (i : Nat) : Field := ⟨A.TSK_T_CFG i, 2, 2⟩
def F.TSK_T_CFG.PRIO (i : Nat) : Field := ⟨A.TSK_T_CFG i, 4, 5⟩
def F.TSK_T_CFG.FMASK (i : Nat) : Field := ⟨A.TSK_T_CFG i, 9, 3⟩
def F.TSK_T_CFG.M (i : Nat) : Field := ⟨A.TSK_T_CFG i, 16, 11⟩
def F.TSK_T_EVCFG.MININT (i : Nat) : Field := ⟨A.TSK_T_EVCFG i, 0, 11⟩
def F.TSK_T_EVCFG.SRC (i : Nat) : Field := ⟨A.TSK_T_EVCFG i, 16, 5⟩
def F.TSK_T_STAT.RUNNING (i : Nat) : Field := ⟨A.TSK_T_STAT i, 0, 1⟩
def F.TSK_T_STAT.PREEMPTED (i : Nat) : Field := ⟨A.TSK_T_STAT i, 1, 1⟩
def F.TSK_T_STAT.PENDING (i : Nat) : Field := ⟨A.TSK_T_STAT i, 2, 1⟩
def F.TSK_T_STAT.LAST_CLEAN (i : Nat) : Field := ⟨A.TSK_T_STAT i, 3, 1⟩
def F.TSK_T_STAT.LAST_ABORT (i : Nat) : Field := ⟨A.TSK_T_STAT i, 4, 1⟩
def F.TSK_T_STAT.LAST_LOST (i : Nat) : Field := ⟨A.TSK_T_STAT i, 5, 1⟩
def F.TSK_T_STAT.HELD (i : Nat) : Field := ⟨A.TSK_T_STAT i, 6, 1⟩
def F.TSK_T_STAT.LAST_EXC (i : Nat) : Field := ⟨A.TSK_T_STAT i, 8, 8⟩
def F.TSK_T_CNT.OVR (i : Nat) : Field := ⟨A.TSK_T_CNT i, 0, 8⟩
def F.TSK_T_CNT.LOST (i : Nat) : Field := ⟨A.TSK_T_CNT i, 8, 8⟩
def F.TSK_T_CNT.NOTE_DROP (i : Nat) : Field := ⟨A.TSK_T_CNT i, 16, 8⟩
def F.TSK_T_CNT.COAL (i : Nat) : Field := ⟨A.TSK_T_CNT i, 24, 8⟩
def F.TSK_T_UNCLEAN.UNCLEAN (i : Nat) : Field := ⟨A.TSK_T_UNCLEAN i, 0, 32⟩
def F.TSK_T_EXEC.EXEC_MAX (i : Nat) : Field := ⟨A.TSK_T_EXEC i, 0, 28⟩
def F.MPU_EVT.CE_STORM : Field := ⟨A.MPU_EVT, 0, 1⟩
def F.MPU_EVT.UE : Field := ⟨A.MPU_EVT, 1, 1⟩
def F.MPU_IEN.CE_STORM : Field := ⟨A.MPU_IEN, 0, 1⟩
def F.MPU_IEN.UE : Field := ⟨A.MPU_IEN, 1, 1⟩
def F.MPU_HWIN.BASE : Field := ⟨A.MPU_HWIN, 0, 5⟩
def F.MPU_GEN.GEN (i : Nat) : Field := ⟨A.MPU_GEN i, 0, 32⟩
def F.MPU_ECC_CNT.CE (i : Nat) : Field := ⟨A.MPU_ECC_CNT i, 0, 16⟩
def F.MPU_ECC_CNT.UE (i : Nat) : Field := ⟨A.MPU_ECC_CNT i, 16, 8⟩
def F.MPU_ECC_ADDR.ADDR (i : Nat) : Field := ⟨A.MPU_ECC_ADDR i, 0, 32⟩
def F.MPU_ECC_PASS.PASS (i : Nat) : Field := ⟨A.MPU_ECC_PASS i, 0, 32⟩
def F.MPU_P_R_BASE.ADDR (i : Nat) (j : Nat) : Field := ⟨A.MPU_P_R_BASE i j, 6, 19⟩
def F.MPU_P_R_LIMIT.ADDR (i : Nat) (j : Nat) : Field := ⟨A.MPU_P_R_LIMIT i j, 6, 19⟩
def F.MPU_P_R_CTL.EN (i : Nat) (j : Nat) : Field := ⟨A.MPU_P_R_CTL i j, 0, 1⟩
def F.MPU_P_R_CTL.SPACE (i : Nat) (j : Nat) : Field := ⟨A.MPU_P_R_CTL i j, 1, 2⟩
def F.MPU_P_R_CTL.R (i : Nat) (j : Nat) : Field := ⟨A.MPU_P_R_CTL i j, 3, 1⟩
def F.MPU_P_R_CTL.W (i : Nat) (j : Nat) : Field := ⟨A.MPU_P_R_CTL i j, 4, 1⟩
def F.MPU_P_R_CTL.X (i : Nat) (j : Nat) : Field := ⟨A.MPU_P_R_CTL i j, 5, 1⟩
def F.MPU_P_R_CTL.TASK (i : Nat) (j : Nat) : Field := ⟨A.MPU_P_R_CTL i j, 8, 6⟩
def F.DMA_EVT.DONE : Field := ⟨A.DMA_EVT, 0, 16⟩
def F.DMA_EVT.FAULT : Field := ⟨A.DMA_EVT, 16, 16⟩
def F.DMA_IEN.DONE : Field := ⟨A.DMA_IEN, 0, 16⟩
def F.DMA_IEN.FAULT : Field := ⟨A.DMA_IEN, 16, 16⟩
def F.DMA_C_CTL.OWNER (i : Nat) : Field := ⟨A.DMA_C_CTL i, 0, 3⟩
def F.DMA_C_CTL.GO (i : Nat) : Field := ⟨A.DMA_C_CTL i, 8, 1⟩
def F.DMA_C_CTL.STOP (i : Nat) : Field := ⟨A.DMA_C_CTL i, 9, 1⟩
def F.DMA_C_STAT.STATE (i : Nat) : Field := ⟨A.DMA_C_STAT i, 0, 3⟩
def F.DMA_C_STAT.CODE (i : Nat) : Field := ⟨A.DMA_C_STAT i, 4, 4⟩
def F.DMA_C_STAT.DONE_CNT (i : Nat) : Field := ⟨A.DMA_C_STAT i, 16, 16⟩
def F.DMA_C_RESID.RESID (i : Nat) : Field := ⟨A.DMA_C_RESID i, 0, 27⟩
def F.DMA_C_CUR.INDEX (i : Nat) : Field := ⟨A.DMA_C_CUR i, 0, 32⟩
def F.OLC_STATUS.CHG_STATE : Field := ⟨A.OLC_STATUS, 0, 4⟩
def F.OLC_STATUS.CHG_PART : Field := ⟨A.OLC_STATUS, 4, 2⟩
def F.OLC_STATUS.RPL_STATE : Field := ⟨A.OLC_STATUS, 8, 3⟩
def F.OLC_STATUS.VC_BUSY : Field := ⟨A.OLC_STATUS, 12, 1⟩
def F.OLC_EVT.VC_APPLIED : Field := ⟨A.OLC_EVT, 0, 1⟩
def F.OLC_EVT.VC_REFUSED : Field := ⟨A.OLC_EVT, 1, 1⟩
def F.OLC_EVT.LOAD_REFUSED : Field := ⟨A.OLC_EVT, 2, 1⟩
def F.OLC_EVT.SHADOW_DONE : Field := ⟨A.OLC_EVT, 3, 1⟩
def F.OLC_EVT.DIFF : Field := ⟨A.OLC_EVT, 4, 1⟩
def F.OLC_EVT.SWITCHED : Field := ⟨A.OLC_EVT, 5, 1⟩
def F.OLC_EVT.SWITCH_REFUSED : Field := ⟨A.OLC_EVT, 6, 1⟩
def F.OLC_EVT.ABORTED : Field := ⟨A.OLC_EVT, 7, 1⟩
def F.OLC_EVT.REPLAY_DONE : Field := ⟨A.OLC_EVT, 8, 1⟩
def F.OLC_EVT.REPLAY_DIFF : Field := ⟨A.OLC_EVT, 9, 1⟩
def F.OLC_EVT.MIGR_FAIL : Field := ⟨A.OLC_EVT, 10, 1⟩
def F.OLC_IEN.VC_APPLIED : Field := ⟨A.OLC_IEN, 0, 1⟩
def F.OLC_IEN.VC_REFUSED : Field := ⟨A.OLC_IEN, 1, 1⟩
def F.OLC_IEN.LOAD_REFUSED : Field := ⟨A.OLC_IEN, 2, 1⟩
def F.OLC_IEN.SHADOW_DONE : Field := ⟨A.OLC_IEN, 3, 1⟩
def F.OLC_IEN.DIFF : Field := ⟨A.OLC_IEN, 4, 1⟩
def F.OLC_IEN.SWITCHED : Field := ⟨A.OLC_IEN, 5, 1⟩
def F.OLC_IEN.SWITCH_REFUSED : Field := ⟨A.OLC_IEN, 6, 1⟩
def F.OLC_IEN.ABORTED : Field := ⟨A.OLC_IEN, 7, 1⟩
def F.OLC_IEN.REPLAY_DONE : Field := ⟨A.OLC_IEN, 8, 1⟩
def F.OLC_IEN.REPLAY_DIFF : Field := ⟨A.OLC_IEN, 9, 1⟩
def F.OLC_IEN.MIGR_FAIL : Field := ⟨A.OLC_IEN, 10, 1⟩
def F.OLC_VC_CTL.COUNT : Field := ⟨A.OLC_VC_CTL, 0, 7⟩
def F.OLC_VC_CTL.APPLY : Field := ⟨A.OLC_VC_CTL, 8, 1⟩
def F.OLC_VC_CTL.CANCEL : Field := ⟨A.OLC_VC_CTL, 9, 1⟩
def F.OLC_VC_CTL.BUSY : Field := ⟨A.OLC_VC_CTL, 16, 1⟩
def F.OLC_VC_CTL.REASON : Field := ⟨A.OLC_VC_CTL, 24, 4⟩
def F.OLC_VC_INFO.TID : Field := ⟨A.OLC_VC_INFO, 0, 6⟩
def F.OLC_VC_INFO.SEQ : Field := ⟨A.OLC_VC_INFO, 16, 16⟩
def F.OLC_VC_E_ID_LO.ID (i : Nat) : Field := ⟨A.OLC_VC_E_ID_LO i, 0, 32⟩
def F.OLC_VC_E_ID_HI.ID (i : Nat) : Field := ⟨A.OLC_VC_E_ID_HI i, 0, 32⟩
def F.OLC_VC_E_OFS.OFFSET (i : Nat) : Field := ⟨A.OLC_VC_E_OFS i, 0, 18⟩
def F.OLC_VC_E_VAL.VALUE (i : Nat) : Field := ⟨A.OLC_VC_E_VAL i, 0, 32⟩
def F.OLC_CHG_CTL.PART : Field := ⟨A.OLC_CHG_CTL, 0, 2⟩
def F.OLC_CHG_CTL.FORCE_POLICY : Field := ⟨A.OLC_CHG_CTL, 2, 2⟩
def F.OLC_CHG_CTL.ACCEPT_DIFF : Field := ⟨A.OLC_CHG_CTL, 4, 1⟩
def F.OLC_CHG_CTL.LOAD : Field := ⟨A.OLC_CHG_CTL, 8, 1⟩
def F.OLC_CHG_CTL.SWITCH : Field := ⟨A.OLC_CHG_CTL, 9, 1⟩
def F.OLC_CHG_CTL.CANCEL : Field := ⟨A.OLC_CHG_CTL, 10, 1⟩
def F.OLC_CHG_CTL.SHADOW_HP : Field := ⟨A.OLC_CHG_CTL, 16, 16⟩
def F.OLC_CHG_REASON.REASON : Field := ⟨A.OLC_CHG_REASON, 0, 8⟩
def F.OLC_CHG_REASON.OLC_CHG_DROP : Field := ⟨A.OLC_CHG_REASON, 16, 16⟩
def F.OLC_SHD_HP.DONE_HP : Field := ⟨A.OLC_SHD_HP, 0, 16⟩
def F.OLC_SHD_HP.MIGR_FAIL : Field := ⟨A.OLC_SHD_HP, 16, 16⟩
def F.OLC_SHD_CMP.COUNT : Field := ⟨A.OLC_SHD_CMP, 0, 32⟩
def F.OLC_SHD_NOCMP.COUNT : Field := ⟨A.OLC_SHD_NOCMP, 0, 32⟩
def F.OLC_SHD_DIFF.COUNT : Field := ⟨A.OLC_SHD_DIFF, 0, 32⟩
def F.OLC_RPL_CTL.PART : Field := ⟨A.OLC_RPL_CTL, 0, 2⟩
def F.OLC_RPL_CTL.USE_RUNNING : Field := ⟨A.OLC_RPL_CTL, 2, 1⟩
def F.OLC_RPL_CTL.STOP_FIRST : Field := ⟨A.OLC_RPL_CTL, 3, 1⟩
def F.OLC_RPL_CTL.START : Field := ⟨A.OLC_RPL_CTL, 8, 1⟩
def F.OLC_RPL_CTL.CANCEL : Field := ⟨A.OLC_RPL_CTL, 9, 1⟩
def F.OLC_RPL_REC.RECORD : Field := ⟨A.OLC_RPL_REC, 0, 32⟩
def F.OLC_RPL_REASON.REASON : Field := ⟨A.OLC_RPL_REASON, 0, 8⟩
def F.OLC_RPL_CNT.COMPARED : Field := ⟨A.OLC_RPL_CNT, 0, 16⟩
def F.OLC_RPL_CNT.NOCOMP : Field := ⟨A.OLC_RPL_CNT, 16, 16⟩
def F.OLC_DIFF_HEAD.TID (i : Nat) : Field := ⟨A.OLC_DIFF_HEAD i, 0, 6⟩
def F.OLC_DIFF_HEAD.KIND (i : Nat) : Field := ⟨A.OLC_DIFF_HEAD i, 8, 3⟩
def F.OLC_DIFF_HEAD.SRC (i : Nat) : Field := ⟨A.OLC_DIFF_HEAD i, 11, 1⟩
def F.OLC_DIFF_HEAD.INDEX (i : Nat) : Field := ⟨A.OLC_DIFF_HEAD i, 16, 16⟩
def F.OLC_DIFF_OFS.OFFSET (i : Nat) : Field := ⟨A.OLC_DIFF_OFS i, 0, 32⟩
def F.OLC_DIFF_REF.REF (i : Nat) : Field := ⟨A.OLC_DIFF_REF i, 0, 32⟩
def F.OLC_DIFF_NEW.NEW (i : Nat) : Field := ⟨A.OLC_DIFF_NEW i, 0, 32⟩
def F.FRC_STATUS.ACTIVE_N : Field := ⟨A.FRC_STATUS, 0, 9⟩
def F.FRC_STATUS.PARTMASK : Field := ⟨A.FRC_STATUS, 16, 3⟩
def F.FRC_EVT.SET : Field := ⟨A.FRC_EVT, 0, 1⟩
def F.FRC_EVT.CLEARED : Field := ⟨A.FRC_EVT, 1, 1⟩
def F.FRC_EVT.REFUSED : Field := ⟨A.FRC_EVT, 2, 1⟩
def F.FRC_EVT.DROPPED : Field := ⟨A.FRC_EVT, 3, 1⟩
def F.FRC_EVT.REBOUND : Field := ⟨A.FRC_EVT, 4, 1⟩
def F.FRC_IEN.SET : Field := ⟨A.FRC_IEN, 0, 1⟩
def F.FRC_IEN.CLEARED : Field := ⟨A.FRC_IEN, 1, 1⟩
def F.FRC_IEN.REFUSED : Field := ⟨A.FRC_IEN, 2, 1⟩
def F.FRC_IEN.DROPPED : Field := ⟨A.FRC_IEN, 3, 1⟩
def F.FRC_IEN.REBOUND : Field := ⟨A.FRC_IEN, 4, 1⟩
def F.FRC_CLEAR_ALL.GO : Field := ⟨A.FRC_CLEAR_ALL, 0, 1⟩
def F.FRC_E_CTL.TYPE (i : Nat) : Field := ⟨A.FRC_E_CTL i, 0, 4⟩
def F.FRC_E_CTL.ARM (i : Nat) : Field := ⟨A.FRC_E_CTL i, 8, 1⟩
def F.FRC_E_CTL.DISARM (i : Nat) : Field := ⟨A.FRC_E_CTL i, 9, 1⟩
def F.FRC_E_CTL.ACTIVE (i : Nat) : Field := ⟨A.FRC_E_CTL i, 16, 1⟩
def F.FRC_E_CTL.PENDING (i : Nat) : Field := ⟨A.FRC_E_CTL i, 17, 1⟩
def F.FRC_E_CTL.PART (i : Nat) : Field := ⟨A.FRC_E_CTL i, 18, 2⟩
def F.FRC_E_CTL.KIND (i : Nat) : Field := ⟨A.FRC_E_CTL i, 20, 4⟩
def F.FRC_E_CTL.REASON (i : Nat) : Field := ⟨A.FRC_E_CTL i, 24, 4⟩
def F.LFT_STATUS.RUN : Field := ⟨A.LFT_STATUS, 0, 1⟩
def F.LFT_STATUS.EXTRACTING : Field := ⟨A.LFT_STATUS, 4, 8⟩
def F.LFT_STATUS.EXP_BUSY : Field := ⟨A.LFT_STATUS, 16, 1⟩
def F.LFT_EVT.TRIGGER : Field := ⟨A.LFT_EVT, 0, 1⟩
def F.LFT_EVT.RECORD : Field := ⟨A.LFT_EVT, 1, 1⟩
def F.LFT_EVT.GAP : Field := ⟨A.LFT_EVT, 2, 1⟩
def F.LFT_EVT.CUT : Field := ⟨A.LFT_EVT, 3, 1⟩
def F.LFT_EVT.ARC_FULL : Field := ⟨A.LFT_EVT, 4, 1⟩
def F.LFT_EVT.WEAR : Field := ⟨A.LFT_EVT, 5, 1⟩
def F.LFT_EVT.SCAP_ARCHIVED : Field := ⟨A.LFT_EVT, 6, 1⟩
def F.LFT_EVT.CLIP : Field := ⟨A.LFT_EVT, 7, 1⟩
def F.LFT_EVT.EXP_DONE : Field := ⟨A.LFT_EVT, 8, 1⟩
def F.LFT_EVT.EXP_FAIL : Field := ⟨A.LFT_EVT, 9, 1⟩
def F.LFT_IEN.TRIGGER : Field := ⟨A.LFT_IEN, 0, 1⟩
def F.LFT_IEN.RECORD : Field := ⟨A.LFT_IEN, 1, 1⟩
def F.LFT_IEN.GAP : Field := ⟨A.LFT_IEN, 2, 1⟩
def F.LFT_IEN.CUT : Field := ⟨A.LFT_IEN, 3, 1⟩
def F.LFT_IEN.ARC_FULL : Field := ⟨A.LFT_IEN, 4, 1⟩
def F.LFT_IEN.WEAR : Field := ⟨A.LFT_IEN, 5, 1⟩
def F.LFT_IEN.SCAP_ARCHIVED : Field := ⟨A.LFT_IEN, 6, 1⟩
def F.LFT_IEN.CLIP : Field := ⟨A.LFT_IEN, 7, 1⟩
def F.LFT_IEN.EXP_DONE : Field := ⟨A.LFT_IEN, 8, 1⟩
def F.LFT_IEN.EXP_FAIL : Field := ⟨A.LFT_IEN, 9, 1⟩
def F.LFT_ARC.MIB : Field := ⟨A.LFT_ARC, 0, 18⟩
def F.LFT_ARC.WEAR_RATE : Field := ⟨A.LFT_ARC, 30, 1⟩
def F.LFT_ARC.WEAR_END : Field := ⟨A.LFT_ARC, 31, 1⟩
def F.LFT_ARC_PROT.MIB : Field := ⟨A.LFT_ARC_PROT, 0, 18⟩
def F.LFT_REC_FIRST.RECNO : Field := ⟨A.LFT_REC_FIRST, 0, 32⟩
def F.LFT_REC_LAST.RECNO : Field := ⟨A.LFT_REC_LAST, 0, 32⟩
def F.LFT_TRIG.GO : Field := ⟨A.LFT_TRIG, 0, 8⟩
def F.LFT_NSNAP.NSNAP : Field := ⟨A.LFT_NSNAP, 0, 6⟩
def F.LFT_REC_SEL.RECNO : Field := ⟨A.LFT_REC_SEL, 0, 32⟩
def F.LFT_REC_CTL.LOAD : Field := ⟨A.LFT_REC_CTL, 0, 1⟩
def F.LFT_REC_CTL.PROTECT : Field := ⟨A.LFT_REC_CTL, 1, 1⟩
def F.LFT_REC_CTL.UNPROTECT : Field := ⟨A.LFT_REC_CTL, 2, 1⟩
def F.LFT_REC_CTL.DELETE : Field := ⟨A.LFT_REC_CTL, 3, 1⟩
def F.LFT_REC_CTL.RESULT : Field := ⟨A.LFT_REC_CTL, 8, 2⟩
def F.LFT_REC_CTL.BUSY : Field := ⟨A.LFT_REC_CTL, 16, 1⟩
def F.LFT_RWIN.WORD (i : Nat) : Field := ⟨A.LFT_RWIN i, 0, 32⟩
def F.LFT_EXP_REC.RECNO : Field := ⟨A.LFT_EXP_REC, 0, 32⟩
def F.LFT_EXP_CTL.MODE : Field := ⟨A.LFT_EXP_CTL, 0, 2⟩
def F.LFT_EXP_CTL.QBITS : Field := ⟨A.LFT_EXP_CTL, 2, 1⟩
def F.LFT_EXP_CTL.GO : Field := ⟨A.LFT_EXP_CTL, 8, 1⟩
def F.LFT_EXP_CTL.STOP : Field := ⟨A.LFT_EXP_CTL, 9, 1⟩
def F.LFT_EXP_CTL.STATE : Field := ⟨A.LFT_EXP_CTL, 16, 2⟩
def F.LFT_EXP_CTL.REASON : Field := ⟨A.LFT_EXP_CTL, 24, 4⟩
def F.LFT_EXP_N.VALUE : Field := ⟨A.LFT_EXP_N, 0, 32⟩
def F.LFT_EXP_LEN0.VALUE : Field := ⟨A.LFT_EXP_LEN0, 0, 32⟩
def F.LFT_EXP_LEN1.VALUE : Field := ⟨A.LFT_EXP_LEN1, 0, 32⟩
def F.LFT_SLOW.CTX (i : Nat) : Field := ⟨A.LFT_SLOW i, 0, 8⟩
def F.LFT_SLOW.CH (i : Nat) : Field := ⟨A.LFT_SLOW i, 8, 5⟩
def F.LFT_SLOW.ITEM (i : Nat) : Field := ⟨A.LFT_SLOW i, 13, 2⟩
def F.LFT_SLOW.EN (i : Nat) : Field := ⟨A.LFT_SLOW i, 16, 1⟩
def F.LFT_BSIG.INDEX (i : Nat) : Field := ⟨A.LFT_BSIG i, 0, 11⟩
def F.LFT_BSIG.SRC (i : Nat) : Field := ⟨A.LFT_BSIG i, 11, 4⟩
def F.LFT_BSIG.EN (i : Nat) : Field := ⟨A.LFT_BSIG i, 16, 1⟩
def F.LFT_R_CTL.EN (i : Nat) : Field := ⟨A.LFT_R_CTL i, 0, 1⟩
def F.LFT_R_CTL.EXTEND (i : Nat) : Field := ⟨A.LFT_R_CTL i, 1, 1⟩
def F.LFT_R_CTL.REPLAY (i : Nat) : Field := ⟨A.LFT_R_CTL i, 2, 1⟩
def F.LFT_R_CTL.PART (i : Nat) : Field := ⟨A.LFT_R_CTL i, 3, 2⟩
def F.LFT_R_CTL.LAST (i : Nat) : Field := ⟨A.LFT_R_CTL i, 8, 4⟩
def F.LFT_R_CTL.HISTMASK (i : Nat) : Field := ⟨A.LFT_R_CTL i, 16, 16⟩
def F.LFT_R_PRE.LEN (i : Nat) : Field := ⟨A.LFT_R_PRE i, 0, 31⟩
def F.LFT_R_POST.LEN (i : Nat) : Field := ⟨A.LFT_R_POST i, 0, 31⟩
def F.LFT_R_STAT.STATE (i : Nat) : Field := ⟨A.LFT_R_STAT i, 0, 3⟩
def F.LFT_R_STAT.CLAUSE (i : Nat) : Field := ⟨A.LFT_R_STAT i, 4, 4⟩
def F.LFT_R_STAT.RECS (i : Nat) : Field := ⟨A.LFT_R_STAT i, 16, 16⟩
def F.LFT_R_FASTMASK.MASK (i : Nat) (j : Nat) : Field := ⟨A.LFT_R_FASTMASK i j, 0, 32⟩
def F.LFT_R_SLOWMASK.MASK (i : Nat) (j : Nat) : Field := ⟨A.LFT_R_SLOWMASK i j, 0, 32⟩
def F.LFT_R_PVMASK.MASK (i : Nat) (j : Nat) : Field := ⟨A.LFT_R_PVMASK i j, 0, 32⟩
def F.LFT_R_LAST_REC.VALUE (i : Nat) : Field := ⟨A.LFT_R_LAST_REC i, 0, 32⟩
def F.LFT_R_GAPS.VALUE (i : Nat) : Field := ⟨A.LFT_R_GAPS i, 0, 32⟩
def F.LFT_R_C_TERM.INDEX (i : Nat) (j : Nat) (k : Nat) : Field := ⟨A.LFT_R_C_TERM i j k, 0, 11⟩
def F.LFT_R_C_TERM.SRC (i : Nat) (j : Nat) (k : Nat) : Field := ⟨A.LFT_R_C_TERM i j k, 11, 4⟩
def F.LFT_R_C_TERM.NEG (i : Nat) (j : Nat) (k : Nat) : Field := ⟨A.LFT_R_C_TERM i j k, 15, 1⟩
def F.LFT_R_C_TERM.TARGET (i : Nat) (j : Nat) (k : Nat) : Field := ⟨A.LFT_R_C_TERM i j k, 16, 4⟩
def F.LFT_R_C_COUNT.COUNT (i : Nat) (j : Nat) : Field := ⟨A.LFT_R_C_COUNT i j, 0, 24⟩
def F.LFT_R_C_COUNT.TO_TARGET (i : Nat) (j : Nat) : Field := ⟨A.LFT_R_C_COUNT i j, 28, 4⟩
def F.LFT_R_C_TIMEOUT.TIMEOUT (i : Nat) (j : Nat) : Field := ⟨A.LFT_R_C_TIMEOUT i j, 0, 32⟩
def F.LFT_CMP_CTL.KIND (i : Nat) : Field := ⟨A.LFT_CMP_CTL i, 0, 2⟩
def F.LFT_CMP_CTL.MODE (i : Nat) : Field := ⟨A.LFT_CMP_CTL i, 2, 2⟩
def F.LFT_CMP_CTL.INDEX (i : Nat) : Field := ⟨A.LFT_CMP_CTL i, 8, 8⟩
def F.LFT_CMP_CTL.OUT (i : Nat) : Field := ⟨A.LFT_CMP_CTL i, 16, 1⟩
def F.LFT_CMP_TH.VALUE (i : Nat) : Field := ⟨A.LFT_CMP_TH i, 0, 32⟩
def F.LFT_CMP_HYST.VALUE (i : Nat) : Field := ⟨A.LFT_CMP_HYST i, 0, 24⟩
def F.LFT_H_CFG.KIND (i : Nat) : Field := ⟨A.LFT_H_CFG i, 0, 2⟩
def F.LFT_H_CFG.INDEX (i : Nat) : Field := ⟨A.LFT_H_CFG i, 8, 8⟩
def F.LFT_H_CFG.RECIPE (i : Nat) : Field := ⟨A.LFT_H_CFG i, 16, 3⟩
def F.LFT_H_CFG.CLAUSE (i : Nat) : Field := ⟨A.LFT_H_CFG i, 20, 4⟩
def F.LFT_H_CFG.SHIFT (i : Nat) : Field := ⟨A.LFT_H_CFG i, 24, 5⟩
def F.LFT_H_OFFSET.OFFSET (i : Nat) : Field := ⟨A.LFT_H_OFFSET i, 0, 32⟩
def F.LFT_H_CTL.CLEAR (i : Nat) : Field := ⟨A.LFT_H_CTL i, 0, 1⟩
def F.LFT_H_CTL.SATBINS (i : Nat) : Field := ⟨A.LFT_H_CTL i, 16, 13⟩
def F.LFT_H_COUNT.COUNT (i : Nat) : Field := ⟨A.LFT_H_COUNT i, 0, 32⟩
def F.LFT_HSEL.UNIT : Field := ⟨A.LFT_HSEL, 0, 4⟩
def F.LFT_HSEL.PAGE : Field := ⟨A.LFT_HSEL, 4, 4⟩
def F.LFT_HWIN.BIN (i : Nat) : Field := ⟨A.LFT_HWIN i, 0, 32⟩
def F.CEL_STATUS.A_OK : Field := ⟨A.CEL_STATUS, 0, 1⟩
def F.CEL_STATUS.B_OK : Field := ⟨A.CEL_STATUS, 1, 1⟩
def F.CEL_STATUS.MIRRORED : Field := ⟨A.CEL_STATUS, 2, 1⟩
def F.CEL_STATUS.RESYNC : Field := ⟨A.CEL_STATUS, 3, 1⟩
def F.CEL_STATUS.MUTE : Field := ⟨A.CEL_STATUS, 4, 1⟩
def F.CEL_STATUS.FROZEN : Field := ⟨A.CEL_STATUS, 5, 1⟩
def F.CEL_STATUS.READY : Field := ⟨A.CEL_STATUS, 6, 1⟩
def F.CEL_STATUS.CUBBY_N : Field := ⟨A.CEL_STATUS, 8, 9⟩
def F.CEL_EVT.BANK_FAIL : Field := ⟨A.CEL_EVT, 0, 1⟩
def F.CEL_EVT.MUTE : Field := ⟨A.CEL_EVT, 1, 1⟩
def F.CEL_EVT.LOST : Field := ⟨A.CEL_EVT, 2, 1⟩
def F.CEL_EVT.REPAIRED : Field := ⟨A.CEL_EVT, 3, 1⟩
def F.CEL_EVT.FORCED_THAW : Field := ⟨A.CEL_EVT, 4, 1⟩
def F.CEL_EVT.DROP : Field := ⟨A.CEL_EVT, 5, 1⟩
def F.CEL_IEN.BANK_FAIL : Field := ⟨A.CEL_IEN, 0, 1⟩
def F.CEL_IEN.MUTE : Field := ⟨A.CEL_IEN, 1, 1⟩
def F.CEL_IEN.LOST : Field := ⟨A.CEL_IEN, 2, 1⟩
def F.CEL_IEN.REPAIRED : Field := ⟨A.CEL_IEN, 3, 1⟩
def F.CEL_IEN.FORCED_THAW : Field := ⟨A.CEL_IEN, 4, 1⟩
def F.CEL_IEN.DROP : Field := ⟨A.CEL_IEN, 5, 1⟩
def F.CEL_COUNT.N : Field := ⟨A.CEL_COUNT, 0, 20⟩
def F.CEL_DROP.FULL : Field := ⟨A.CEL_DROP, 0, 16⟩
def F.CEL_DROP.QUEUE : Field := ⟨A.CEL_DROP, 16, 16⟩
def F.CEL_MEM.REPAIRED : Field := ⟨A.CEL_MEM, 0, 16⟩
def F.CEL_MEM.LOST : Field := ⟨A.CEL_MEM, 16, 16⟩
def F.CEL_MUTED.N : Field := ⟨A.CEL_MUTED, 0, 32⟩
def F.CEL_CTL.FREEZE : Field := ⟨A.CEL_CTL, 0, 1⟩
def F.CEL_CTL.THAW : Field := ⟨A.CEL_CTL, 1, 1⟩
def F.CEL_CTL.STEP : Field := ⟨A.CEL_CTL, 2, 1⟩
def F.CEL_CTL.BUSY : Field := ⟨A.CEL_CTL, 8, 1⟩
def F.CEL_CTL.FOUND : Field := ⟨A.CEL_CTL, 9, 1⟩
def F.CEL_CAT_SEL.CODE : Field := ⟨A.CEL_CAT_SEL, 0, 12⟩
def F.CEL_CAT_INFO.SEV : Field := ⟨A.CEL_CAT_INFO, 0, 2⟩
def F.CEL_CAT_INFO.FIXED : Field := ⟨A.CEL_CAT_INFO, 2, 1⟩
def F.CEL_CAT_INFO.PROGRAM : Field := ⟨A.CEL_CAT_INFO, 3, 1⟩
def F.CEL_CAT_INFO.DLEN : Field := ⟨A.CEL_CAT_INFO, 4, 7⟩
def F.CEL_CAT_INFO.PROFILE : Field := ⟨A.CEL_CAT_INFO, 16, 4⟩
def F.CEL_CAT_INFO.DEFINED : Field := ⟨A.CEL_CAT_INFO, 31, 1⟩
def F.CEL_CAT_NAME.CHARS (i : Nat) : Field := ⟨A.CEL_CAT_NAME i, 0, 32⟩
def F.CEL_WIN.WORD (i : Nat) : Field := ⟨A.CEL_WIN i, 0, 32⟩
def F.CEL_LASTW.WORD (i : Nat) : Field := ⟨A.CEL_LASTW i, 0, 32⟩
def F.CEL_PF_CFG.BURST (i : Nat) : Field := ⟨A.CEL_PF_CFG i, 0, 8⟩
def F.CEL_PF_CFG.SNAPN (i : Nat) : Field := ⟨A.CEL_PF_CFG i, 8, 4⟩
def F.CEL_PF_SNAP.KIND (i : Nat) (j : Nat) : Field := ⟨A.CEL_PF_SNAP i j, 0, 2⟩
def F.CEL_PF_SNAP.WORD (i : Nat) (j : Nat) : Field := ⟨A.CEL_PF_SNAP i j, 2, 22⟩
def F.CEL_PF_PER.PERIOD (i : Nat) : Field := ⟨A.CEL_PF_PER i, 0, 32⟩
def F.CEL_PMAP.PROF (i : Nat) (b : Nat) : Field := ⟨A.CEL_PMAP i, 4 * b, 4⟩
def F.TIM_STATUS.STATE : Field := ⟨A.TIM_STATUS, 0, 3⟩
def F.TIM_STATUS.VALID : Field := ⟨A.TIM_STATUS, 3, 1⟩
def F.TIM_STATUS.EVER_LOCKED : Field := ⟨A.TIM_STATUS, 4, 1⟩
def F.TIM_STATUS.REF_OK : Field := ⟨A.TIM_STATUS, 5, 1⟩
def F.TIM_STATUS.SRC_ACT : Field := ⟨A.TIM_STATUS, 6, 2⟩
def F.TIM_STATUS.SLAVE : Field := ⟨A.TIM_STATUS, 8, 2⟩
def F.TIM_STATUS.EPOCH : Field := ⟨A.TIM_STATUS, 16, 16⟩
def F.TIM_EVT.LOCK : Field := ⟨A.TIM_EVT, 0, 1⟩
def F.TIM_EVT.HOLDOVER : Field := ⟨A.TIM_EVT, 1, 1⟩
def F.TIM_EVT.INVALID : Field := ⟨A.TIM_EVT, 2, 1⟩
def F.TIM_EVT.STEP : Field := ⟨A.TIM_EVT, 3, 1⟩
def F.TIM_EVT.STEP_REFUSED : Field := ⟨A.TIM_EVT, 4, 1⟩
def F.TIM_EVT.ASYM : Field := ⟨A.TIM_EVT, 5, 1⟩
def F.TIM_EVT.GM_CHANGE : Field := ⟨A.TIM_EVT, 6, 1⟩
def F.TIM_EVT.TE : Field := ⟨A.TIM_EVT, 7, 1⟩
def F.TIM_EVT.TCI : Field := ⟨A.TIM_EVT, 8, 1⟩
def F.TIM_EVT.TCI_OVF : Field := ⟨A.TIM_EVT, 9, 1⟩
def F.TIM_IEN.LOCK : Field := ⟨A.TIM_IEN, 0, 1⟩
def F.TIM_IEN.HOLDOVER : Field := ⟨A.TIM_IEN, 1, 1⟩
def F.TIM_IEN.INVALID : Field := ⟨A.TIM_IEN, 2, 1⟩
def F.TIM_IEN.STEP : Field := ⟨A.TIM_IEN, 3, 1⟩
def F.TIM_IEN.STEP_REFUSED : Field := ⟨A.TIM_IEN, 4, 1⟩
def F.TIM_IEN.ASYM : Field := ⟨A.TIM_IEN, 5, 1⟩
def F.TIM_IEN.GM_CHANGE : Field := ⟨A.TIM_IEN, 6, 1⟩
def F.TIM_IEN.TE : Field := ⟨A.TIM_IEN, 7, 1⟩
def F.TIM_IEN.TCI : Field := ⟨A.TIM_IEN, 8, 1⟩
def F.TIM_IEN.TCI_OVF : Field := ⟨A.TIM_IEN, 9, 1⟩
def F.TIM_CFG.SRC : Field := ⟨A.TIM_CFG, 0, 2⟩
def F.TIM_CFG.BACKUP : Field := ⟨A.TIM_CFG, 2, 2⟩
def F.TIM_CFG.REF_EN : Field := ⟨A.TIM_CFG, 4, 1⟩
def F.TIM_CFG.FIRST_FREE : Field := ⟨A.TIM_CFG, 5, 1⟩
def F.TIM_CFG.PPS_MODE : Field := ⟨A.TIM_CFG, 6, 2⟩
def F.TIM_CFG.PAIR : Field := ⟨A.TIM_CFG, 8, 1⟩
def F.TIM_CFG.TC_EN : Field := ⟨A.TIM_CFG, 9, 2⟩
def F.TIM_THR.STEP_THR : Field := ⟨A.TIM_THR, 0, 30⟩
def F.TIM_BAND.SLEW_BAND : Field := ⟨A.TIM_BAND, 0, 16⟩
def F.TIM_BAND.ASYM_LIM : Field := ⟨A.TIM_BAND, 16, 16⟩
def F.TIM_HOLD.HOLD_MAX : Field := ⟨A.TIM_HOLD, 0, 13⟩
def F.TIM_HOLD.TAU : Field := ⟨A.TIM_HOLD, 16, 8⟩
def F.TIM_HOLD.UTC_DEF : Field := ⟨A.TIM_HOLD, 24, 8⟩
def F.TIM_PTP.DOMAIN : Field := ⟨A.TIM_PTP, 0, 8⟩
def F.TIM_PTP.ANN_TO : Field := ⟨A.TIM_PTP, 8, 4⟩
def F.TIM_PTP.LOG_PD : Field := ⟨A.TIM_PTP, 12, 4⟩
def F.TIM_TOD_SEC.EPOCH : Field := ⟨A.TIM_TOD_SEC + 4, 16, 16⟩
def F.TIM_TOD_NS.NS : Field := ⟨A.TIM_TOD_NS, 0, 30⟩
def F.TIM_ERR.VALUE : Field := ⟨A.TIM_ERR, 0, 32⟩
def F.TIM_FREQ.VALUE : Field := ⟨A.TIM_FREQ, 0, 32⟩
def F.TIM_CTL.ACCEPT : Field := ⟨A.TIM_CTL, 0, 1⟩
def F.TIM_CTL.ACK_ASYM : Field := ⟨A.TIM_CTL, 1, 1⟩
def F.TIM_CTL.HSTEP : Field := ⟨A.TIM_CTL, 2, 1⟩
def F.TIM_CTL.RESULT : Field := ⟨A.TIM_CTL, 4, 2⟩
def F.TIM_GMQ.CLASS : Field := ⟨A.TIM_GMQ, 0, 8⟩
def F.TIM_GMQ.ACCURACY : Field := ⟨A.TIM_GMQ, 8, 8⟩
def F.TIM_GMQ.STEPS : Field := ⟨A.TIM_GMQ, 16, 16⟩
def F.TIM_GMINACC.NS : Field := ⟨A.TIM_GMINACC, 0, 32⟩
def F.TIM_UTC.OFFSET : Field := ⟨A.TIM_UTC, 0, 16⟩
def F.TIM_UTC.VALID : Field := ⟨A.TIM_UTC, 16, 1⟩
def F.TIM_UTC.LEAP61 : Field := ⟨A.TIM_UTC, 17, 1⟩
def F.TIM_UTC.LEAP59 : Field := ⟨A.TIM_UTC, 18, 1⟩
def F.TIM_HOLD_S.S : Field := ⟨A.TIM_HOLD_S, 0, 32⟩
def F.TIM_CNT.OUTLIER : Field := ⟨A.TIM_CNT, 0, 16⟩
def F.TIM_CNT.REFUSED : Field := ⟨A.TIM_CNT, 16, 8⟩
def F.TIM_CNT.STEPS : Field := ⟨A.TIM_CNT, 24, 8⟩
def F.TIM_E_LAT.TX_LAT (i : Nat) : Field := ⟨A.TIM_E_LAT i, 0, 16⟩
def F.TIM_E_LAT.RX_LAT (i : Nat) : Field := ⟨A.TIM_E_LAT i, 16, 16⟩
def F.TIM_E_ASYM.ASYM (i : Nat) : Field := ⟨A.TIM_E_ASYM i, 0, 16⟩
def F.TIM_E_STAT.STATE (i : Nat) : Field := ⟨A.TIM_E_STAT i, 0, 3⟩
def F.TIM_E_STAT.TC (i : Nat) : Field := ⟨A.TIM_E_STAT i, 3, 1⟩
def F.TIM_E_PDLY.NS (i : Nat) : Field := ⟨A.TIM_E_PDLY i, 0, 24⟩
def F.TIM_E_PDLY.VALID (i : Nat) : Field := ⟨A.TIM_E_PDLY i, 31, 1⟩
def F.TIM_E_CNT.USED (i : Nat) : Field := ⟨A.TIM_E_CNT i, 0, 16⟩
def F.TIM_E_CNT.IGNORED (i : Nat) : Field := ⟨A.TIM_E_CNT i, 16, 16⟩
def F.TIM_TE_CTL.MODE (i : Nat) : Field := ⟨A.TIM_TE_CTL i, 0, 2⟩
def F.TIM_TE_CTL.TPO (i : Nat) : Field := ⟨A.TIM_TE_CTL i, 4, 4⟩
def F.TIM_TE_CTL.CEL (i : Nat) : Field := ⟨A.TIM_TE_CTL i, 8, 1⟩
def F.TIM_TE_CTL.ARM (i : Nat) : Field := ⟨A.TIM_TE_CTL i, 12, 1⟩
def F.TIM_TE_CTL.DISARM (i : Nat) : Field := ⟨A.TIM_TE_CTL i, 13, 1⟩
def F.TIM_TE_CTL.ARMED (i : Nat) : Field := ⟨A.TIM_TE_CTL i, 16, 1⟩
def F.TIM_TE_CTL.RESULT (i : Nat) : Field := ⟨A.TIM_TE_CTL i, 17, 3⟩
def F.TIM_TE_TGT_NS.NS (i : Nat) : Field := ⟨A.TIM_TE_TGT_NS i, 0, 30⟩
def F.TIM_TE_WID.NS (i : Nat) : Field := ⟨A.TIM_TE_WID i, 0, 30⟩
def F.TIM_TE_STAT.FIRES (i : Nat) : Field := ⟨A.TIM_TE_STAT i, 0, 16⟩
def F.TIM_TE_STAT.SKIP (i : Nat) : Field := ⟨A.TIM_TE_STAT i, 16, 8⟩
def F.TIM_TE_STAT.LATE (i : Nat) : Field := ⟨A.TIM_TE_STAT i, 24, 1⟩
def F.TIM_TPO.POL (i : Nat) : Field := ⟨A.TIM_TPO i, 0, 1⟩
def F.TIM_TPO.LEVEL (i : Nat) : Field := ⟨A.TIM_TPO i, 1, 1⟩
def F.TIM_TCI_CTL.EDGE (i : Nat) : Field := ⟨A.TIM_TCI_CTL i, 0, 2⟩
def F.TIM_TCI_CTL.POP (i : Nat) : Field := ⟨A.TIM_TCI_CTL i, 8, 1⟩
def F.TIM_TCI_CTL.N (i : Nat) : Field := ⟨A.TIM_TCI_CTL i, 16, 5⟩
def F.TIM_TCI_CTL.OVF (i : Nat) : Field := ⟨A.TIM_TCI_CTL i, 24, 1⟩
def F.TIM_TCI_SEC.EPOCH (i : Nat) : Field := ⟨A.TIM_TCI_SEC i + 4, 16, 16⟩
def F.TIM_TCI_NS.NS (i : Nat) : Field := ⟨A.TIM_TCI_NS i, 0, 30⟩
def F.TIM_TCI_NS.RISE (i : Nat) : Field := ⟨A.TIM_TCI_NS i, 30, 1⟩
def F.TIM_TCI_NS.VALID (i : Nat) : Field := ⟨A.TIM_TCI_NS i, 31, 1⟩
def F.ETH_STATUS.LINK : Field := ⟨A.ETH_STATUS, 0, 4⟩
def F.ETH_STATUS.LAN_OK : Field := ⟨A.ETH_STATUS, 4, 4⟩
def F.ETH_STATUS.POWERED : Field := ⟨A.ETH_STATUS, 8, 1⟩
def F.ETH_EVT.LINK_CHG : Field := ⟨A.ETH_EVT, 0, 1⟩
def F.ETH_EVT.LAN_LOSS : Field := ⟨A.ETH_EVT, 1, 1⟩
def F.ETH_EVT.GOOSE_CHG : Field := ⟨A.ETH_EVT, 2, 1⟩
def F.ETH_EVT.TAL : Field := ⟨A.ETH_EVT, 3, 1⟩
def F.ETH_EVT.CONF_ERR : Field := ⟨A.ETH_EVT, 4, 1⟩
def F.ETH_EVT.HRX : Field := ⟨A.ETH_EVT, 5, 1⟩
def F.ETH_EVT.HTX_DONE : Field := ⟨A.ETH_EVT, 6, 1⟩
def F.ETH_EVT.HQ_ERR : Field := ⟨A.ETH_EVT, 7, 1⟩
def F.ETH_IEN.LINK_CHG : Field := ⟨A.ETH_IEN, 0, 1⟩
def F.ETH_IEN.LAN_LOSS : Field := ⟨A.ETH_IEN, 1, 1⟩
def F.ETH_IEN.GOOSE_CHG : Field := ⟨A.ETH_IEN, 2, 1⟩
def F.ETH_IEN.TAL : Field := ⟨A.ETH_IEN, 3, 1⟩
def F.ETH_IEN.CONF_ERR : Field := ⟨A.ETH_IEN, 4, 1⟩
def F.ETH_IEN.HRX : Field := ⟨A.ETH_IEN, 5, 1⟩
def F.ETH_IEN.HTX_DONE : Field := ⟨A.ETH_IEN, 6, 1⟩
def F.ETH_IEN.HQ_ERR : Field := ⟨A.ETH_IEN, 7, 1⟩
def F.ETH_PAIR_CFG.MODE (i : Nat) : Field := ⟨A.ETH_PAIR_CFG i, 0, 2⟩
def F.ETH_PAIR_CFG.SPEED (i : Nat) : Field := ⟨A.ETH_PAIR_CFG i, 2, 2⟩
def F.ETH_PAIR_CFG.VID (i : Nat) : Field := ⟨A.ETH_PAIR_CFG i, 4, 12⟩
def F.ETH_PAIR_NOMATCH.NOMATCH (i : Nat) : Field := ⟨A.ETH_PAIR_NOMATCH i, 0, 32⟩
def F.ETH_HRX_CTL.LOG2N : Field := ⟨A.ETH_HRX_CTL, 0, 4⟩
def F.ETH_HRX_CTL.EN : Field := ⟨A.ETH_HRX_CTL, 8, 1⟩
def F.ETH_HTX_CTL.LOG2N : Field := ⟨A.ETH_HTX_CTL, 0, 4⟩
def F.ETH_HTX_CTL.EN : Field := ⟨A.ETH_HTX_CTL, 8, 1⟩
def F.ETH_HRX_IDX.HEAD : Field := ⟨A.ETH_HRX_IDX, 0, 16⟩
def F.ETH_HRX_IDX.TAIL : Field := ⟨A.ETH_HRX_IDX, 16, 16⟩
def F.ETH_HTX_IDX.HEAD : Field := ⟨A.ETH_HTX_IDX, 0, 16⟩
def F.ETH_HTX_IDX.TAIL : Field := ⟨A.ETH_HTX_IDX, 16, 16⟩
def F.ETH_HQ_CNT.HRX_DROP : Field := ⟨A.ETH_HQ_CNT, 0, 16⟩
def F.ETH_HQ_CNT.HTX_DENY : Field := ⟨A.ETH_HQ_CNT, 16, 16⟩
def F.ETH_E_STAT.LINK (i : Nat) : Field := ⟨A.ETH_E_STAT i, 0, 1⟩
def F.ETH_E_STAT.LAN_OK (i : Nat) : Field := ⟨A.ETH_E_STAT i, 1, 1⟩
def F.ETH_E_RX.COUNT (i : Nat) : Field := ⟨A.ETH_E_RX i, 0, 32⟩
def F.ETH_E_ERR.COUNT (i : Nat) : Field := ⟨A.ETH_E_ERR i, 0, 32⟩
def F.ETH_E_DUP.COUNT (i : Nat) : Field := ⟨A.ETH_E_DUP i, 0, 32⟩
def F.ETH_C_STAT.APPID (i : Nat) : Field := ⟨A.ETH_C_STAT i, 0, 16⟩
def F.ETH_C_STAT.PAIR (i : Nat) : Field := ⟨A.ETH_C_STAT i, 16, 1⟩
def F.ETH_C_STAT.SIM_OK (i : Nat) : Field := ⟨A.ETH_C_STAT i, 17, 1⟩
def F.ETH_C_STAT.STATUS (i : Nat) : Field := ⟨A.ETH_C_STAT i, 18, 1⟩
def F.ETH_C_STNUM.NUM (i : Nat) : Field := ⟨A.ETH_C_STNUM i, 0, 32⟩
def F.ETH_C_SQNUM.NUM (i : Nat) : Field := ⟨A.ETH_C_SQNUM i, 0, 32⟩
def F.ETH_C_CNT.OOS (i : Nat) : Field := ⟨A.ETH_C_CNT i, 0, 8⟩
def F.ETH_C_CNT.STJUMP (i : Nat) : Field := ⟨A.ETH_C_CNT i, 8, 8⟩
def F.ETH_C_CNT.CONF_ERR (i : Nat) : Field := ⟨A.ETH_C_CNT i, 16, 8⟩
def F.ETH_C_CNT.TAL (i : Nat) : Field := ⟨A.ETH_C_CNT i, 24, 8⟩
def F.UCH_STATUS.GRP_OK : Field := ⟨A.UCH_STATUS, 0, 4⟩
def F.UCH_STATUS.ALMSEL : Field := ⟨A.UCH_STATUS, 4, 4⟩
def F.UCH_STATUS.POWERED : Field := ⟨A.UCH_STATUS, 8, 1⟩
def F.UCH_STATUS.CJ_FAULT : Field := ⟨A.UCH_STATUS, 12, 4⟩
def F.UCH_EVT.COMPLIANCE : Field := ⟨A.UCH_EVT, 0, 1⟩
def F.UCH_EVT.THERMAL : Field := ⟨A.UCH_EVT, 1, 1⟩
def F.UCH_EVT.OPEN : Field := ⟨A.UCH_EVT, 2, 1⟩
def F.UCH_EVT.GRP_FAULT : Field := ⟨A.UCH_EVT, 3, 1⟩
def F.UCH_EVT.CJ_FAULT : Field := ⟨A.UCH_EVT, 4, 1⟩
def F.UCH_EVT.STRAP_CHG : Field := ⟨A.UCH_EVT, 5, 1⟩
def F.UCH_EVT.DROP : Field := ⟨A.UCH_EVT, 6, 1⟩
def F.UCH_EVT.HART_DONE : Field := ⟨A.UCH_EVT, 7, 1⟩
def F.UCH_IEN.COMPLIANCE : Field := ⟨A.UCH_IEN, 0, 1⟩
def F.UCH_IEN.THERMAL : Field := ⟨A.UCH_IEN, 1, 1⟩
def F.UCH_IEN.OPEN : Field := ⟨A.UCH_IEN, 2, 1⟩
def F.UCH_IEN.GRP_FAULT : Field := ⟨A.UCH_IEN, 3, 1⟩
def F.UCH_IEN.CJ_FAULT : Field := ⟨A.UCH_IEN, 4, 1⟩
def F.UCH_IEN.STRAP_CHG : Field := ⟨A.UCH_IEN, 5, 1⟩
def F.UCH_IEN.DROP : Field := ⟨A.UCH_IEN, 6, 1⟩
def F.UCH_IEN.HART_DONE : Field := ⟨A.UCH_IEN, 7, 1⟩
def F.UCH_DROP_CNT.DROP : Field := ⟨A.UCH_DROP_CNT, 0, 32⟩
def F.UCH_C_CFG.MODE (i : Nat) : Field := ⟨A.UCH_C_CFG i, 0, 4⟩
def F.UCH_C_CFG.RANGE (i : Nat) : Field := ⟨A.UCH_C_CFG i, 4, 4⟩
def F.UCH_C_CFG.NINT (i : Nat) : Field := ⟨A.UCH_C_CFG i, 8, 2⟩
def F.UCH_C_CFG.WIRES (i : Nat) : Field := ⟨A.UCH_C_CFG i, 10, 2⟩
def F.UCH_C_CFG.HART_EN (i : Nat) : Field := ⟨A.UCH_C_CFG i, 12, 1⟩
def F.UCH_C_CFG.ALMSRC (i : Nat) : Field := ⟨A.UCH_C_CFG i, 13, 2⟩
def F.UCH_C_CFG.CPER (i : Nat) : Field := ⟨A.UCH_C_CFG i, 16, 16⟩
def F.UCH_C_CJ.CJFIX (i : Nat) : Field := ⟨A.UCH_C_CJ i, 0, 24⟩
def F.UCH_C_CJ.CJFIX_EN (i : Nat) : Field := ⟨A.UCH_C_CJ i, 24, 1⟩
def F.UCH_C_STAT.SETTLING (i : Nat) : Field := ⟨A.UCH_C_STAT i, 0, 1⟩
def F.UCH_C_STAT.RUN (i : Nat) : Field := ⟨A.UCH_C_STAT i, 1, 1⟩
def F.UCH_C_STAT.OVR (i : Nat) : Field := ⟨A.UCH_C_STAT i, 2, 1⟩
def F.UCH_C_STAT.OPEN (i : Nat) : Field := ⟨A.UCH_C_STAT i, 3, 1⟩
def F.UCH_C_STAT.CNT_SAT (i : Nat) : Field := ⟨A.UCH_C_STAT i, 4, 1⟩
def F.UCH_C_STAT.COMPLIANCE (i : Nat) : Field := ⟨A.UCH_C_STAT i, 5, 1⟩
def F.UCH_C_STAT.ALARM_NOT_REACHED (i : Nat) : Field := ⟨A.UCH_C_STAT i, 6, 1⟩
def F.UCH_C_STAT.THERMAL (i : Nat) : Field := ⟨A.UCH_C_STAT i, 7, 1⟩
def F.UCH_C_STAT.ALARM_OUT (i : Nat) : Field := ⟨A.UCH_C_STAT i, 8, 1⟩
def F.UCH_C_STAT.CMD_CLAMP (i : Nat) : Field := ⟨A.UCH_C_STAT i, 9, 1⟩
def F.UCH_C_STAT.SUPPLY (i : Nat) : Field := ⟨A.UCH_C_STAT i, 10, 2⟩
def F.UCH_C_STAT.VDRV (i : Nat) : Field := ⟨A.UCH_C_STAT i, 16, 9⟩
def F.UCH_C_MIN.VALUE (i : Nat) : Field := ⟨A.UCH_C_MIN i, 0, 32⟩
def F.UCH_C_MAX.VALUE (i : Nat) : Field := ⟨A.UCH_C_MAX i, 0, 32⟩
def F.UCH_C_COUNT.COUNT (i : Nat) : Field := ⟨A.UCH_C_COUNT i, 0, 16⟩
def F.UCH_C_CNT.DROP (i : Nat) : Field := ⟨A.UCH_C_CNT i, 0, 8⟩
def F.UCH_C_CNT.SKIP (i : Nat) : Field := ⟨A.UCH_C_CNT i, 8, 8⟩
def F.UCH_C_CNT.DISCARD (i : Nat) : Field := ⟨A.UCH_C_CNT i, 16, 8⟩
def F.UCH_C_HCTL.CLR (i : Nat) : Field := ⟨A.UCH_C_HCTL i, 0, 1⟩
def F.UCH_C_HCTL.REQ (i : Nat) : Field := ⟨A.UCH_C_HCTL i, 1, 1⟩
def F.UCH_G_HCTL.CH (i : Nat) : Field := ⟨A.UCH_G_HCTL i, 0, 2⟩
def F.UCH_G_HCTL.SEND (i : Nat) : Field := ⟨A.UCH_G_HCTL i, 2, 1⟩
def F.UCH_G_HCTL.ABORT (i : Nat) : Field := ⟨A.UCH_G_HCTL i, 3, 1⟩
def F.UCH_G_HCTL.STATUS (i : Nat) : Field := ⟨A.UCH_G_HCTL i, 4, 3⟩
def F.UCH_G_HCTL.RETRY (i : Nat) : Field := ⟨A.UCH_G_HCTL i, 8, 2⟩
def F.UCH_G_HCTL.PREAMBLE (i : Nat) : Field := ⟨A.UCH_G_HCTL i, 16, 5⟩
def F.UCH_G_HLEN.LEN (i : Nat) : Field := ⟨A.UCH_G_HLEN i, 0, 9⟩
def F.UCH_G_HLEN.RLEN (i : Nat) : Field := ⟨A.UCH_G_HLEN i, 16, 9⟩
def F.UCH_G_HCNT.TRANS (i : Nat) : Field := ⟨A.UCH_G_HCNT i, 0, 16⟩
def F.UCH_G_HCNT.NOREPLY (i : Nat) : Field := ⟨A.UCH_G_HCNT i, 16, 8⟩
def F.UCH_G_HCNT.OTHER (i : Nat) : Field := ⟨A.UCH_G_HCNT i, 24, 8⟩
def F.UCH_G_HBUF.BYTES (i : Nat) (j : Nat) : Field := ⟨A.UCH_G_HBUF i j, 0, 32⟩
def F.ENG_ID.ISSUE : Field := ⟨A.ENG_ID, 0, 8⟩
def F.ENG_ID.ORDER : Field := ⟨A.ENG_ID, 8, 2⟩
def F.ENG_ID.DEVICE : Field := ⟨A.ENG_ID, 16, 16⟩
def F.ENG_STATE.OPSTATE : Field := ⟨A.ENG_STATE, 0, 2⟩
def F.ENG_STATE.LC : Field := ⟨A.ENG_STATE, 4, 3⟩
def F.ENG_STATE.VIEW : Field := ⟨A.ENG_STATE, 8, 1⟩
def F.ENG_STATE.SESSION : Field := ⟨A.ENG_STATE, 9, 1⟩
def F.ENG_STATE.TAMPER : Field := ⟨A.ENG_STATE, 10, 1⟩
def F.ENG_STATE.HEALTHY : Field := ⟨A.ENG_STATE, 11, 1⟩
def F.ENG_STATE.STEM : Field := ⟨A.ENG_STATE, 12, 1⟩
def F.ENG_STATE.CELLAR_MUTE : Field := ⟨A.ENG_STATE, 13, 1⟩
def F.ENG_DENY_CNT.N : Field := ⟨A.ENG_DENY_CNT, 0, 32⟩
def F.ENG_DENY_LAST.OFFSET : Field := ⟨A.ENG_DENY_LAST, 0, 24⟩
def F.ENG_DENY_LAST.CAUSE : Field := ⟨A.ENG_DENY_LAST, 24, 3⟩
def F.ENG_EVT.DENY : Field := ⟨A.ENG_EVT, 0, 1⟩
def F.ENG_EVT.SPLIT64 : Field := ⟨A.ENG_EVT, 1, 1⟩
def F.ENG_EVT.SESSION_OPEN : Field := ⟨A.ENG_EVT, 2, 1⟩
def F.ENG_EVT.SESSION_CLOSED : Field := ⟨A.ENG_EVT, 3, 1⟩
def F.ENG_IEN.DENY : Field := ⟨A.ENG_IEN, 0, 1⟩
def F.ENG_IEN.SPLIT64 : Field := ⟨A.ENG_IEN, 1, 1⟩
def F.ENG_IEN.SESSION_OPEN : Field := ⟨A.ENG_IEN, 2, 1⟩
def F.ENG_IEN.SESSION_CLOSED : Field := ⟨A.ENG_IEN, 3, 1⟩
def F.ENG_SESS.RIGHTS : Field := ⟨A.ENG_SESS, 0, 3⟩
def F.ENG_SESS.KEYSLOT : Field := ⟨A.ENG_SESS, 4, 2⟩
def F.ENG_SESS.CAUSE : Field := ⟨A.ENG_SESS, 8, 3⟩
def F.ENG_SESS_LEFT.EXP_S : Field := ⟨A.ENG_SESS_LEFT, 0, 16⟩
def F.ENG_SESS_LEFT.IDLE_S : Field := ⟨A.ENG_SESS_LEFT, 16, 16⟩
def F.ENG_SESS_CTL.CLOSE : Field := ⟨A.ENG_SESS_CTL, 0, 1⟩
def F.ENG_FWVER.MINOR : Field := ⟨A.ENG_FWVER, 0, 8⟩
def F.ENG_FWVER.MAJOR : Field := ⟨A.ENG_FWVER, 8, 8⟩
def F.ENG_FWVER.BUILD : Field := ⟨A.ENG_FWVER, 16, 16⟩
def F.SEC_CMD.CMD : Field := ⟨A.SEC_CMD, 0, 8⟩
def F.SEC_CMD.GO : Field := ⟨A.SEC_CMD, 8, 1⟩
def F.SEC_CMD.BUSY : Field := ⟨A.SEC_CMD, 16, 1⟩
def F.SEC_CMD.OWNER : Field := ⟨A.SEC_CMD, 17, 1⟩
def F.SEC_CMD.RESULT : Field := ⟨A.SEC_CMD, 24, 4⟩
def F.SEC_LEN.REQ : Field := ⟨A.SEC_LEN, 0, 13⟩
def F.SEC_LEN.RSP : Field := ⟨A.SEC_LEN, 16, 13⟩
def F.SEC_STATUS.LC : Field := ⟨A.SEC_STATUS, 0, 3⟩
def F.SEC_STATUS.WIPING : Field := ⟨A.SEC_STATUS, 3, 1⟩
def F.SEC_STATUS.TAMPER : Field := ⟨A.SEC_STATUS, 4, 1⟩
def F.SEC_STATUS.TAMP_PIN : Field := ⟨A.SEC_STATUS, 5, 1⟩
def F.SEC_STATUS.TCAUSE : Field := ⟨A.SEC_STATUS, 8, 4⟩
def F.SEC_STATUS.LOCKOUT : Field := ⟨A.SEC_STATUS, 12, 1⟩
def F.SEC_EVT.DONE : Field := ⟨A.SEC_EVT, 0, 1⟩
def F.SEC_EVT.TAMPER : Field := ⟨A.SEC_EVT, 1, 1⟩
def F.SEC_EVT.LC_CHANGE : Field := ⟨A.SEC_EVT, 2, 1⟩
def F.SEC_EVT.KEY_CHANGE : Field := ⟨A.SEC_EVT, 3, 1⟩
def F.SEC_EVT.XMSS_LOW : Field := ⟨A.SEC_EVT, 4, 1⟩
def F.SEC_IEN.DONE : Field := ⟨A.SEC_IEN, 0, 1⟩
def F.SEC_IEN.TAMPER : Field := ⟨A.SEC_IEN, 1, 1⟩
def F.SEC_IEN.LC_CHANGE : Field := ⟨A.SEC_IEN, 2, 1⟩
def F.SEC_IEN.KEY_CHANGE : Field := ⟨A.SEC_IEN, 3, 1⟩
def F.SEC_IEN.XMSS_LOW : Field := ⟨A.SEC_IEN, 4, 1⟩
def F.SEC_KEY.STATE (i : Nat) : Field := ⟨A.SEC_KEY i, 0, 2⟩
def F.SEC_KEY.USAGE (i : Nat) : Field := ⟨A.SEC_KEY i, 2, 3⟩
def F.SEC_KEY.PARAM (i : Nat) : Field := ⟨A.SEC_KEY i, 8, 2⟩
def F.SEC_SVN.COUNTER (i : Nat) : Field := ⟨A.SEC_SVN i, 0, 16⟩
def F.SEC_SVN.RUNNING (i : Nat) : Field := ⟨A.SEC_SVN i, 16, 16⟩
def F.SEC_XMSS_LEFT.LEFT : Field := ⟨A.SEC_XMSS_LEFT, 0, 21⟩
def F.SEC_XMSS_DAY.USED : Field := ⟨A.SEC_XMSS_DAY, 0, 7⟩
def F.SEC_XMSS_DAY.FREE_S : Field := ⟨A.SEC_XMSS_DAY, 15, 17⟩
def F.SEC_TAMPER.EVENTS : Field := ⟨A.SEC_TAMPER, 0, 16⟩
def F.SEC_BUF.BYTES (i : Nat) : Field := ⟨A.SEC_BUF i, 0, 32⟩
def F.PWR_STATE.OPSTATE : Field := ⟨A.PWR_STATE, 0, 2⟩
def F.PWR_STATE.PHASE : Field := ⟨A.PWR_STATE, 4, 3⟩
def F.PWR_STATE.STEM_CAUSE : Field := ⟨A.PWR_STATE, 8, 7⟩
def F.PWR_STATE.HALT_CAUSE : Field := ⟨A.PWR_STATE, 16, 5⟩
def F.PWR_STATE.HOLDUP : Field := ⟨A.PWR_STATE, 24, 1⟩
def F.PWR_EVT.STATE_CHG : Field := ⟨A.PWR_EVT, 0, 1⟩
def F.PWR_EVT.BROWNOUT : Field := ⟨A.PWR_EVT, 1, 1⟩
def F.PWR_EVT.SUPPLY_BACK : Field := ⟨A.PWR_EVT, 2, 1⟩
def F.PWR_EVT.OT_WARN : Field := ⟨A.PWR_EVT, 3, 1⟩
def F.PWR_EVT.OT : Field := ⟨A.PWR_EVT, 4, 1⟩
def F.PWR_EVT.OT_CLEAR : Field := ⟨A.PWR_EVT, 5, 1⟩
def F.PWR_EVT.LANE_RESET_DONE : Field := ⟨A.PWR_EVT, 6, 1⟩
def F.PWR_EVT.DOMAIN_FAULT : Field := ⟨A.PWR_EVT, 7, 1⟩
def F.PWR_IEN.STATE_CHG : Field := ⟨A.PWR_IEN, 0, 1⟩
def F.PWR_IEN.BROWNOUT : Field := ⟨A.PWR_IEN, 1, 1⟩
def F.PWR_IEN.SUPPLY_BACK : Field := ⟨A.PWR_IEN, 2, 1⟩
def F.PWR_IEN.OT_WARN : Field := ⟨A.PWR_IEN, 3, 1⟩
def F.PWR_IEN.OT : Field := ⟨A.PWR_IEN, 4, 1⟩
def F.PWR_IEN.OT_CLEAR : Field := ⟨A.PWR_IEN, 5, 1⟩
def F.PWR_IEN.LANE_RESET_DONE : Field := ⟨A.PWR_IEN, 6, 1⟩
def F.PWR_IEN.DOMAIN_FAULT : Field := ⟨A.PWR_IEN, 7, 1⟩
def F.PWR_CMD.STEM : Field := ⟨A.PWR_CMD, 0, 1⟩
def F.PWR_CMD.HALT : Field := ⟨A.PWR_CMD, 1, 1⟩
def F.PWR_CMD.MAINT : Field := ⟨A.PWR_CMD, 2, 1⟩
def F.PWR_CMD.RESUME : Field := ⟨A.PWR_CMD, 3, 1⟩
def F.PWR_CMD.WARM : Field := ⟨A.PWR_CMD, 4, 1⟩
def F.PWR_CMD.LANE_RST : Field := ⟨A.PWR_CMD, 5, 1⟩
def F.PWR_CMD.LANE : Field := ⟨A.PWR_CMD, 8, 2⟩
def F.PWR_CMD.BUSY : Field := ⟨A.PWR_CMD, 16, 1⟩
def F.PWR_CMD.RESULT : Field := ⟨A.PWR_CMD, 17, 3⟩
def F.PWR_CFG.RIDE_MS : Field := ⟨A.PWR_CFG, 0, 6⟩
def F.PWR_CFG.AUTO_SUPPLY : Field := ⟨A.PWR_CFG, 8, 1⟩
def F.PWR_CFG.AUTO_TEMP : Field := ⟨A.PWR_CFG, 9, 1⟩
def F.PWR_CFG.AUTO_MEM : Field := ⟨A.PWR_CFG, 10, 1⟩
def F.PWR_CFG.MAINT_FP : Field := ⟨A.PWR_CFG, 12, 1⟩
def F.PWR_CFG.MAINT_PROG : Field := ⟨A.PWR_CFG, 13, 1⟩
def F.PWR_DOM.ON : Field := ⟨A.PWR_DOM, 0, 12⟩
def F.PWR_DOM.FAULT : Field := ⟨A.PWR_DOM, 16, 12⟩
def F.PWR_SUPPLY.VMAIN : Field := ⟨A.PWR_SUPPLY, 0, 12⟩
def F.PWR_SUPPLY.HU : Field := ⟨A.PWR_SUPPLY, 16, 9⟩
def F.PWR_TEMP.DIE_MAX : Field := ⟨A.PWR_TEMP, 0, 16⟩
def F.PWR_TEMP.BASE : Field := ⟨A.PWR_TEMP, 16, 16⟩
def F.PWR_RST.LAST : Field := ⟨A.PWR_RST, 0, 3⟩
def F.PWR_RST.WARM_N : Field := ⟨A.PWR_RST, 8, 8⟩
def F.CLK_STATUS.OK : Field := ⟨A.CLK_STATUS, 0, 12⟩
def F.CLK_STATUS.OCXO_OK : Field := ⟨A.CLK_STATUS, 12, 1⟩
def F.CLK_STATUS.ON_REF : Field := ⟨A.CLK_STATUS, 13, 1⟩
def F.CLK_EVT.LOSS : Field := ⟨A.CLK_EVT, 0, 12⟩
def F.CLK_EVT.OCXO_FAIL : Field := ⟨A.CLK_EVT, 12, 1⟩
def F.CLK_IEN.LOSS : Field := ⟨A.CLK_IEN, 0, 12⟩
def F.CLK_IEN.OCXO_FAIL : Field := ⟨A.CLK_IEN, 12, 1⟩

/-- The register kinds at 0x00000 to 0x0ffff (the spec's register tables). -/
def regBlock0 : List RegDesc := [
  ⟨"ENG_ID", 0x0, [], false, false, 0x480002, 0x0, 0x0, 0x0, 0x0, 0xffff03ff⟩,
  ⟨"ENG_UID", 0x4, [], true, false, 0x0, 0x0, 0x0, 0x0, 0x0, 0xffffffffffffffff⟩,
  ⟨"ENG_STATE", 0xc, [], false, false, 0x2, 0x0, 0x0, 0x0, 0x0, 0x3f73⟩,
  ⟨"ENG_DENY_CNT", 0x10, [], false, false, 0x0, 0x0, 0x0, 0xffffffff, 0x0, 0x0⟩,
  ⟨"ENG_DENY_LAST", 0x14, [], false, false, 0x0, 0x0, 0x0, 0x0, 0x0, 0x7ffffff⟩,
  ⟨"ENG_EVT", 0x18, [], false, false, 0x0, 0x0, 0xf, 0x0, 0x0, 0x0⟩,
  ⟨"ENG_IEN", 0x1c, [], false, true, 0x0, 0xf, 0x0, 0x0, 0x0, 0x0⟩,
  ⟨"ENG_SESS", 0x20, [], false, false, 0x0, 0x0, 0x0, 0x0, 0x0, 0x737⟩,
  ⟨"ENG_SESS_LEFT", 0x24, [], false, false, 0x0, 0x0, 0x0, 0x0, 0x0, 0xffffffff⟩,
  ⟨"ENG_SESS_CTL", 0x28, [], false, true, 0x0, 0x0, 0x0, 0x0, 0x1, 0x0⟩,
  ⟨"ENG_FWVER", 0x2c, [], false, false, 0x0, 0x0, 0x0, 0x0, 0x0, 0xffffffff⟩]

/-- The register kinds at 0x10000 to 0x1ffff (the spec's register tables). -/
def regBlock1 : List RegDesc := [
  ⟨"PWR_STATE", 0x10000, [], false, false, 0x2, 0x0, 0x0, 0x0, 0x0, 0x11f7f73⟩,
  ⟨"PWR_EVT", 0x10004, [], false, false, 0x0, 0x0, 0xff, 0x0, 0x0, 0x0⟩,
  ⟨"PWR_IEN", 0x10008, [], false, false, 0x0, 0xff, 0x0, 0x0, 0x0, 0x0⟩,
  ⟨"PWR_CMD", 0x1000c, [], false, true, 0x0, 0x300, 0x0, 0x0, 0x3f, 0xf0000⟩,
  ⟨"PWR_CFG", 0x10010, [], false, false, 0x30a, 0x0, 0x0, 0x0, 0x0, 0x373f⟩,
  ⟨"PWR_DOM", 0x10014, [], false, false, 0x0, 0x0, 0x0, 0x0, 0x0, 0xfff0fff⟩,
  ⟨"PWR_SUPPLY", 0x10018, [], false, false, 0x0, 0x0, 0x0, 0x0, 0x0, 0x1ff0fff⟩,
  ⟨"PWR_TEMP", 0x1001c, [], false, false, 0x0, 0x0, 0x0, 0x0, 0x0, 0xffffffff⟩,
  ⟨"PWR_RST", 0x10020, [], false, false, 0x0, 0x0, 0x0, 0xff00, 0x0, 0x7⟩,
  ⟨"PWR_STEM_SIX", 0x10024, [], true, false, 0x0, 0x0, 0x0, 0x0, 0x0, 0xffffffffffffffff⟩,
  ⟨"PWR_SVC_SIX", 0x1002c, [], true, false, 0x0, 0x0, 0x0, 0x0, 0x0, 0xffffffffffffffff⟩,
  ⟨"CLK_STATUS", 0x10800, [], false, false, 0x0, 0x0, 0x0, 0x0, 0x0, 0x3fff⟩,
  ⟨"CLK_EVT", 0x10804, [], false, false, 0x0, 0x0, 0x1fff, 0x0, 0x0, 0x0⟩,
  ⟨"CLK_IEN", 0x10808, [], false, false, 0x0, 0x1fff, 0x0, 0x0, 0x0, 0x0⟩,
  ⟨"CLK_RXLOCK", 0x1080c, [], true, false, 0x0, 0x0, 0x0, 0x0, 0x0, 0xfffffffffff⟩]

/-- The register kinds at 0x20000 to 0x2ffff (the spec's register tables). -/
def regBlock2 : List RegDesc := [
  ⟨"TIM_STATUS", 0x20000, [], false, false, 0x0, 0x0, 0x0, 0x0, 0x0, 0xffff03ff⟩,
  ⟨"TIM_EVT", 0x20004, [], false, false, 0x0, 0x0, 0x3ff, 0x0, 0x0, 0x0⟩,
  ⟨"TIM_IEN", 0x20008, [], false, false, 0x0, 0x3ff, 0x0, 0x0, 0x0, 0x0⟩,
  ⟨"TIM_CFG", 0x2000c, [], false, false, 0x80, 0x0, 0x0, 0x0, 0x0, 0x7ff⟩,
  ⟨"TIM_THR", 0x20010, [], false, false, 0x2710, 0x0, 0x0, 0x0, 0x0, 0x3fffffff⟩,
  ⟨"TIM_BAND", 0x20014, [], false, false, 0x1f403e8, 0x0, 0x0, 0x0, 0x0, 0xffffffff⟩,
  ⟨"TIM_HOLD", 0x20018, [], false, false, 0x252004b0, 0x0, 0x0, 0x0, 0x0, 0xffff1fff⟩,
  ⟨"TIM_PTP", 0x2001c, [], false, false, 0x300, 0x0, 0x0, 0x0, 0x0, 0xffff⟩,
  ⟨"TIM_OFFSET", 0x20020, [], true, false, 0x0, 0x0, 0x0, 0x0, 0x0, 0xffffffffffffffff⟩,
  ⟨"TIM_SIX", 0x20028, [], true, false, 0x0, 0x0, 0x0, 0x0, 0x0, 0xffffffffffffffff⟩,
  ⟨"TIM_TOD_SEC", 0x20030, [], true, false, 0x0, 0x0, 0x0, 0x0, 0x0, 0xffffffffffffffff⟩,
  ⟨"TIM_TOD_NS", 0x20038, [], false, false, 0x0, 0x0, 0x0, 0x0, 0x0, 0x3fffffff⟩,
  ⟨"TIM_ERR", 0x2003c, [], false, false, 0x0, 0x0, 0x0, 0x0, 0x0, 0xffffffff⟩,
  ⟨"TIM_FREQ", 0x20040, [], false, false, 0x0, 0x0, 0x0, 0x0, 0x0, 0xffffffff⟩,
  ⟨"TIM_PEND", 0x20044, [], true, false, 0x0, 0x0, 0x0, 0x0, 0x0, 0xffffffffffffffff⟩,
  ⟨"TIM_CTL", 0x2004c, [], false, true, 0x0, 0x0, 0x0, 0x0, 0x7, 0x30⟩,
  ⟨"TIM_HSTEP", 0x20050, [], true, true, 0x0, 0xffffffffffffffff, 0x0, 0x0, 0x0, 0x0⟩,
  ⟨"TIM_GM", 0x20058, [], true, false, 0x0, 0x0, 0x0, 0x0, 0x0, 0xffffffffffffffff⟩,
  ⟨"TIM_GMQ", 0x20060, [], false, false, 0x0, 0x0, 0x0, 0x0, 0x0, 0xffffffff⟩,
  ⟨"TIM_GMINACC", 0x20064, [], false, false, 0xffffffff, 0x0, 0x0, 0x0, 0x0, 0xffffffff⟩,
  ⟨"TIM_UTC", 0x20068, [], false, false, 0x25, 0x0, 0x0, 0x0, 0x0, 0x7ffff⟩,
  ⟨"TIM_HOLD_S", 0x2006c, [], false, false, 0x0, 0x0, 0x0, 0x0, 0x0, 0xffffffff⟩,
  ⟨"TIM_CNT", 0x20070, [], false, false, 0x0, 0x0, 0x0, 0xffffffff, 0x0, 0x0⟩,
  ⟨"TIM_E_LAT", 0x20400, [(32, 0, 3)], false, false, 0x0, 0x0, 0x0, 0x0, 0x0, 0xffffffff⟩,
  ⟨"TIM_E_ASYM", 0x20404, [(32, 0, 3)], false, false, 0x0, 0x0, 0x0, 0x0, 0x0, 0xffff⟩,
  ⟨"TIM_E_STAT", 0x20408, [(32, 0, 3)], false, false, 0x0, 0x0, 0x0, 0x0, 0x0, 0xf⟩,
  ⟨"TIM_E_PDLY", 0x2040c, [(32, 0, 3)], false, false, 0x0, 0x0, 0x0, 0x0, 0x0, 0x80ffffff⟩,
  ⟨"TIM_E_CNT", 0x20410, [(32, 0, 3)], false, false, 0x0, 0x0, 0x0, 0xffffffff, 0x0, 0x0⟩,
  ⟨"TIM_TE_CTL", 0x21000, [(64, 0, 15)], false, false, 0x0, 0x1f3, 0x0, 0x0, 0x3000, 0xf0000⟩,
  ⟨"TIM_TE_TGT", 0x21004, [(64, 0, 15)], true, false, 0x0, 0xffffffffffff, 0x0, 0x0, 0x0, 0x0⟩,
  ⟨"TIM_TE_TGT_NS", 0x2100c, [(64, 0, 15)], false, false, 0x0, 0x3fffffff, 0x0, 0x0, 0x0, 0x0⟩,
  ⟨"TIM_TE_PER", 0x21010, [(64, 0, 15)], true, false, 0x0, 0xffffffffff, 0x0, 0x0, 0x0, 0x0⟩,
  ⟨"TIM_TE_WID", 0x21018, [(64, 0, 15)], false, false, 0x0, 0x3fffffff, 0x0, 0x0, 0x0, 0x0⟩,
  ⟨"TIM_TE_STAT", 0x2101c, [(64, 0, 15)], false, false, 0x0, 0x0, 0x1000000, 0xffffff, 0x0, 0x0⟩,
  ⟨"TIM_TE_DUE", 0x21020, [(64, 0, 15)], true, false, 0x0, 0x0, 0x0, 0x0, 0x0, 0xffffffffffffffff⟩,
  ⟨"TIM_TPO", 0x21800, [(4, 0, 3)], false, false, 0x0, 0x1, 0x0, 0x0, 0x0, 0x2⟩,
  ⟨"TIM_TCI_CTL", 0x21c00, [(32, 0, 1)], false, false, 0x0, 0x3, 0x1000000, 0x0, 0x100, 0x1f0000⟩,
  ⟨"TIM_TCI_SIX", 0x21c04, [(32, 0, 1)], true, false, 0x0, 0x0, 0x0, 0x0, 0x0, 0xffffffffffffffff⟩,
  ⟨"TIM_TCI_SEC", 0x21c0c, [(32, 0, 1)], true, false, 0x0, 0x0, 0x0, 0x0, 0x0, 0xffffffffffffffff⟩,
  ⟨"TIM_TCI_NS", 0x21c14, [(32, 0, 1)], false, false, 0x0, 0x0, 0x0, 0x0, 0x0, 0xffffffff⟩]

/-- The register kinds at 0x30000 to 0x3ffff (the spec's register tables). -/
def regBlock3 : List RegDesc := [
  ⟨"HJL_STATUS", 0x30000, [], false, false, 0x0, 0x0, 0x0, 0x0, 0x0, 0x3f3f3f3f⟩,
  ⟨"HJL_INC_LAST", 0x30008, [], false, false, 0x0, 0x0, 0x0, 0x0, 0x0, 0xffff⟩,
  ⟨"HJL_READMIT", 0x3000c, [], false, true, 0x0, 0x3f, 0x20000, 0x0, 0x100, 0x10000⟩,
  ⟨"HJL_REBIND", 0x30010, [], false, true, 0x0, 0x3f, 0x40000, 0x0, 0x10000, 0x20000⟩,
  ⟨"HJL_SPARE", 0x30100, [(4, 0, 7)], false, false, 0x0, 0x0, 0x0, 0x0, 0x0, 0x33f3f⟩,
  ⟨"HJL_P_CFG", 0x31000, [(64, 0, 43)], false, false, 0x0, 0x0, 0x0, 0x0, 0x0, 0x3ff007f⟩,
  ⟨"HJL_P_STATE", 0x31004, [(64, 0, 43)], false, false, 0x0, 0x0, 0x0, 0x0, 0x0, 0xffff3f0f⟩,
  ⟨"HJL_P_DELAY", 0x31008, [(64, 0, 43)], false, false, 0x0, 0x0, 0x0, 0x0, 0x0, 0x80ffffff⟩,
  ⟨"HJL_P_COMP", 0x3100c, [(64, 0, 43)], false, false, 0x0, 0x0, 0x0, 0x0, 0x0, 0xffffff⟩,
  ⟨"HJL_P_UID", 0x31010, [(64, 0, 43)], true, false, 0x0, 0x0, 0x0, 0x0, 0x0, 0xffffffffffffffff⟩,
  ⟨"HJL_P_ERR", 0x31018, [(64, 0, 43)], false, false, 0x0, 0x0, 0x0, 0xffffffff, 0x0, 0x0⟩,
  ⟨"HJL_P_EVT", 0x3101c, [(64, 0, 43)], false, false, 0x0, 0x0, 0x1ff, 0x0, 0x0, 0x0⟩,
  ⟨"HJL_P_IEN", 0x31020, [(64, 0, 43)], false, false, 0x0, 0x1ff, 0x0, 0x0, 0x0, 0x0⟩,
  ⟨"HJL_P_CNT", 0x31024, [(64, 0, 43)], false, false, 0x0, 0x0, 0x0, 0xffffffff, 0x0, 0x0⟩,
  ⟨"HJL_P_TRIP", 0x31028, [(64, 0, 43)], false, false, 0x0, 0x0, 0x0, 0x0, 0x0, 0xffff1ff3⟩,
  ⟨"HJL_P_REFUSE", 0x3102c, [(64, 0, 43)], false, false, 0x0, 0x0, 0x0, 0x0, 0x0, 0xff⟩,
  ⟨"HJL_P_PEER_OFS", 0x31030, [(64, 0, 43)], true, false, 0x0, 0x0, 0x0, 0x0, 0x0, 0xffffffffffffffff⟩]

/-- The register kinds at 0x40000 to 0x4ffff (the spec's register tables). -/
def regBlock4 : List RegDesc := [
  ⟨"SFB_STATUS", 0x40000, [], false, false, 0x0, 0x0, 0x0, 0x0, 0x0, 0x1ff01ff⟩,
  ⟨"SFB_ALIGN", 0x40004, [], false, false, 0x8, 0x0, 0x0, 0x0, 0x0, 0x7f⟩,
  ⟨"SFB_LATE_CNT", 0x40008, [], false, false, 0x0, 0x0, 0x0, 0xffffffff, 0x0, 0x0⟩,
  ⟨"SFB_EVT", 0x4000c, [], false, false, 0x0, 0x0, 0x3f, 0x0, 0x0, 0x0⟩,
  ⟨"SFB_IEN", 0x40010, [], false, false, 0x0, 0x3f, 0x0, 0x0, 0x0, 0x0⟩,
  ⟨"SFB_C_CFG", 0x41000, [(32, 0, 255)], false, false, 0x0, 0x0, 0x0, 0x0, 0x0, 0x1ff3f37⟩,
  ⟨"SFB_C_ACMASK", 0x41004, [(32, 0, 255)], false, false, 0x0, 0x0, 0x0, 0x0, 0x0, 0xffffffff⟩,
  ⟨"SFB_C_STATE", 0x41008, [(32, 0, 255)], false, false, 0x0, 0x0, 0x0, 0x0, 0x0, 0xffff3f07⟩,
  ⟨"SFB_C_SVDLY", 0x4100c, [(32, 0, 255)], false, false, 0x0, 0x0, 0x0, 0x0, 0x0, 0xffff⟩,
  ⟨"SFB_C_CNT", 0x41010, [(32, 0, 255)], false, false, 0x0, 0x0, 0x0, 0xffffffff, 0x0, 0x0⟩,
  ⟨"SFB_C_SIX", 0x41014, [(32, 0, 255)], true, false, 0x0, 0x0, 0x0, 0x0, 0x0, 0xffffffffffffffff⟩]

/-- The register kinds at 0x50000 to 0x5ffff (the spec's register tables). -/
def regBlock5 : List RegDesc := [
  ⟨"BIN_STATE", 0x50000, [], false, false, 0x0, 0x0, 0x0, 0x0, 0x0, 0xffffffff⟩,
  ⟨"BIN_RAW", 0x50004, [], false, false, 0x0, 0x0, 0x0, 0x0, 0x0, 0xffffffff⟩,
  ⟨"BIN_VALID", 0x50008, [], false, false, 0x0, 0x0, 0x0, 0x0, 0x0, 0xffffffff⟩,
  ⟨"BIN_PERSIST", 0x5000c, [], false, false, 0x0, 0x0, 0x0, 0x0, 0x0, 0xffffffff⟩,
  ⟨"BIN_CHAT_EVT", 0x50010, [], false, false, 0x0, 0x0, 0xffffffff, 0x0, 0x0, 0x0⟩,
  ⟨"BIN_PERS_EVT", 0x50014, [], false, false, 0x0, 0x0, 0xffffffff, 0x0, 0x0, 0x0⟩,
  ⟨"BIN_CHAT_IEN", 0x50018, [], false, false, 0x0, 0xffffffff, 0x0, 0x0, 0x0, 0x0⟩,
  ⟨"BIN_PERS_IEN", 0x5001c, [], false, false, 0x0, 0xffffffff, 0x0, 0x0, 0x0, 0x0⟩,
  ⟨"BIN_I_CFG", 0x50100, [(16, 0, 31)], false, false, 0x0, 0x0, 0x0, 0x0, 0x0, 0xffff001f⟩,
  ⟨"BIN_I_CHAT", 0x50104, [(16, 0, 31)], false, false, 0x0, 0x0, 0x0, 0x0, 0x0, 0xffffff⟩,
  ⟨"BIN_I_TIME", 0x50108, [(16, 0, 31)], false, false, 0x0, 0x0, 0x0, 0x0, 0x0, 0xffffffff⟩,
  ⟨"BIN_I_CNT", 0x5010c, [(16, 0, 31)], false, false, 0x0, 0x0, 0x0, 0xffffffff, 0x0, 0x0⟩]

/-- The register kinds at 0x60000 to 0x6ffff (the spec's register tables). -/
def regBlock6 : List RegDesc := [
  ⟨"INJ_STATUS", 0x60000, [], false, false, 0x0, 0x0, 0x0, 0x0, 0x0, 0xff07⟩,
  ⟨"INJ_CFG_SEQ", 0x60004, [], false, false, 0x0, 0x0, 0x0, 0x0, 0x0, 0xffffffff⟩,
  ⟨"INJ_GATE", 0x60008, [], true, false, 0x0, 0x0, 0x0, 0x0, 0x0, 0xffffffffffffffff⟩,
  ⟨"INJ_TDO", 0x60010, [], false, false, 0x0, 0x0, 0x0, 0x0, 0x0, 0xffffff⟩,
  ⟨"INJ_TDO_RST", 0x60014, [], false, true, 0x0, 0x0, 0x0, 0x0, 0xff, 0x0⟩,
  ⟨"INJ_EVT", 0x60018, [], false, false, 0x0, 0x0, 0x7f, 0x0, 0x0, 0x0⟩,
  ⟨"INJ_IEN", 0x6001c, [], false, false, 0x0, 0x7f, 0x0, 0x0, 0x0, 0x0⟩,
  ⟨"INJ_DEC_CNT", 0x60020, [], false, false, 0x0, 0x0, 0x0, 0xffffffff, 0x0, 0x0⟩,
  ⟨"INJ_LAST", 0x60024, [], false, false, 0x0, 0x0, 0x0, 0x0, 0x0, 0xffffff⟩,
  ⟨"INJ_LAST_SIX", 0x60028, [], true, false, 0x0, 0x0, 0x0, 0x0, 0x0, 0xffffffffffffffff⟩,
  ⟨"INJ_LAT_MAX", 0x60030, [], false, false, 0x0, 0x0, 0x0, 0xffff, 0x0, 0x0⟩,
  ⟨"INJ_SCAP_CTL", 0x60034, [], false, false, 0x0, 0x0, 0x0, 0x0, 0x4, 0x3⟩,
  ⟨"INJ_SCAP_SIX", 0x60038, [], true, false, 0x0, 0x0, 0x0, 0x0, 0x0, 0xffffffffffffffff⟩,
  ⟨"INJ_R_TERM", 0x61000, [(64, 0, 127), (4, 0, 7)], false, false, 0x0, 0x0, 0x0, 0x0, 0x0, 0xffffdf⟩,
  ⟨"INJ_R_CTRL", 0x61020, [(64, 0, 127)], false, false, 0x0, 0x0, 0x0, 0x0, 0x0, 0xffff3f0f⟩,
  ⟨"INJ_R_ACT", 0x61024, [(64, 0, 127)], false, false, 0x0, 0x0, 0x0, 0x0, 0x0, 0x3ffffff⟩,
  ⟨"INJ_R_STAT", 0x61028, [(64, 0, 127)], false, false, 0x0, 0x0, 0x0, 0xffff0000, 0x0, 0x7⟩,
  ⟨"INJ_C_LA_TH", 0x64000, [(64, 0, 255)], false, false, 0x0, 0x0, 0x0, 0x0, 0x0, 0xffffff⟩,
  ⟨"INJ_C_LA_CTL", 0x64004, [(64, 0, 255)], false, false, 0x0, 0x0, 0x0, 0x0, 0x0, 0xffffff03⟩,
  ⟨"INJ_C_LB_TH", 0x64008, [(64, 0, 255)], false, false, 0x0, 0x0, 0x0, 0x0, 0x0, 0xffffff⟩,
  ⟨"INJ_C_LB_CTL", 0x6400c, [(64, 0, 255)], false, false, 0x0, 0x0, 0x0, 0x0, 0x0, 0xffffff03⟩,
  ⟨"INJ_C_ROC_TH", 0x64010, [(64, 0, 255)], false, false, 0x0, 0x0, 0x0, 0x0, 0x0, 0x7fffff⟩,
  ⟨"INJ_C_ROC_CTL", 0x64014, [(64, 0, 255)], false, false, 0x0, 0x0, 0x0, 0x0, 0x0, 0xff7f03⟩,
  ⟨"INJ_C_STEP_TH", 0x64018, [(64, 0, 255)], false, false, 0x0, 0x0, 0x0, 0x0, 0x0, 0xfffffff⟩,
  ⟨"INJ_C_STEP_CTL", 0x6401c, [(64, 0, 255)], false, false, 0x0, 0x0, 0x0, 0x0, 0x0, 0xffff1⟩,
  ⟨"INJ_C_STAT", 0x64020, [(64, 0, 255)], false, false, 0x0, 0x0, 0x0, 0x0, 0x0, 0x3f⟩,
  ⟨"INJ_D_CH", 0x68000, [(16, 0, 63)], false, false, 0x0, 0x0, 0x0, 0x0, 0x0, 0x1fffff⟩,
  ⟨"INJ_D_KZ", 0x68004, [(16, 0, 63)], false, false, 0x0, 0x0, 0x0, 0x0, 0x0, 0xffffff⟩,
  ⟨"INJ_D_CTL", 0x68008, [(16, 0, 63)], false, false, 0x0, 0x0, 0x0, 0x0, 0x0, 0xc00fffff⟩,
  ⟨"INJ_D_BMIN", 0x6800c, [(16, 0, 63)], false, false, 0x0, 0x0, 0x0, 0x0, 0x0, 0xfffffff⟩,
  ⟨"INJ_G_CFG", 0x69000, [(16, 0, 15)], false, false, 0x0, 0x0, 0x0, 0x0, 0x0, 0x7ffff⟩,
  ⟨"INJ_G_WIN", 0x69004, [(16, 0, 15)], false, false, 0x0, 0x0, 0x0, 0x0, 0x0, 0xfff00ff⟩,
  ⟨"INJ_G_STAT", 0x69008, [(16, 0, 15)], false, false, 0x0, 0x0, 0x0, 0x0, 0x0, 0x7ff3⟩,
  ⟨"INJ_PEER", 0x69800, [(4, 0, 3)], false, false, 0x0, 0x0, 0x0, 0x0, 0x0, 0xffff⟩,
  ⟨"INJ_SCAP", 0x6a000, [(4, 0, 31)], false, false, 0x0, 0x0, 0x0, 0x0, 0x0, 0x1ff⟩,
  ⟨"INJ_SCAP_POST", 0x6a080, [], false, false, 0x10000, 0x0, 0x0, 0x0, 0x0, 0x3ffff⟩,
  ⟨"INJ_GATE_STEM", 0x6a100, [(4, 0, 3)], false, false, 0x0, 0x0, 0x0, 0x0, 0x0, 0xffffffff⟩,
  ⟨"INJ_GATE_INIT", 0x6a110, [], true, false, 0x0, 0x0, 0x0, 0x0, 0x0, 0xffffffffffffffff⟩,
  ⟨"INJ_T_CFG", 0x6b000, [(16, 0, 7)], false, false, 0x0, 0x0, 0x0, 0x0, 0x0, 0xfffffff3⟩,
  ⟨"INJ_T_STAT", 0x6b004, [(16, 0, 7)], false, false, 0x0, 0x0, 0x0, 0x0, 0x0, 0x1f⟩]

/-- The register kinds at 0x70000 to 0x7ffff (the spec's register tables). -/
def regBlock7 : List RegDesc := [
  ⟨"LNE_STATUS", 0x70000, [], false, false, 0x0, 0x0, 0x0, 0x0, 0x0, 0x70ff1⟩,
  ⟨"LNE_EVT", 0x70004, [], false, false, 0x0, 0x0, 0x1f, 0x0, 0x0, 0x0⟩,
  ⟨"LNE_IEN", 0x70008, [], false, false, 0x0, 0x1f, 0x0, 0x0, 0x0, 0x0⟩,
  ⟨"LNE_TKO", 0x7000c, [], false, false, 0x0, 0x0, 0x0, 0x0, 0x0, 0xff3f⟩,
  ⟨"LNE_TKO_SIX", 0x70010, [], true, false, 0x0, 0x0, 0x0, 0x0, 0x0, 0xffffffffffffffff⟩,
  ⟨"LNE_DET_SIX", 0x70018, [], true, false, 0x0, 0x0, 0x0, 0x0, 0x0, 0xffffffffffffffff⟩,
  ⟨"LNE_L_STATE", 0x70100, [(64, 0, 3)], false, false, 0x0, 0x0, 0x0, 0x0, 0x0, 0xf37⟩,
  ⟨"LNE_L_EXC", 0x70104, [(64, 0, 3)], false, false, 0x0, 0x0, 0x0, 0x0, 0x0, 0xffff3fff⟩,
  ⟨"LNE_L_EXC_PC", 0x70108, [(64, 0, 3)], false, false, 0x0, 0x0, 0x0, 0x0, 0x0, 0xffffffff⟩,
  ⟨"LNE_L_EXC_SIX", 0x7010c, [(64, 0, 3)], true, false, 0x0, 0x0, 0x0, 0x0, 0x0, 0xffffffffffffffff⟩,
  ⟨"LNE_L_EXC_CNT", 0x70114, [(64, 0, 3)], false, false, 0x0, 0x0, 0x0, 0xffff, 0x0, 0x0⟩,
  ⟨"TSK_EVT", 0x70800, [], false, false, 0x0, 0x0, 0x3f, 0x0, 0x0, 0x0⟩,
  ⟨"TSK_IEN", 0x70804, [], false, false, 0x0, 0x3f, 0x0, 0x0, 0x0, 0x0⟩,
  ⟨"TSK_APPLY", 0x70808, [], false, false, 0x8, 0x0, 0x0, 0x0, 0x0, 0xfff⟩,
  ⟨"TSK_PAN", 0x7080c, [], false, false, 0x0, 0x0, 0x0, 0x0, 0x0, 0xffff003f⟩,
  ⟨"TSK_PAN_SEQ", 0x70810, [], true, false, 0x0, 0x0, 0x0, 0x0, 0x0, 0xffffffffffffffff⟩,
  ⟨"TSK_PAN_SIX", 0x70818, [], true, false, 0x0, 0x0, 0x0, 0x0, 0x0, 0xffffffffffffffff⟩,
  ⟨"TSK_T_CFG", 0x71000, [(32, 0, 47)], false, false, 0x0, 0x0, 0x0, 0x0, 0x0, 0x7ff0fff⟩,
  ⟨"TSK_T_EVCFG", 0x71004, [(32, 0, 47)], false, false, 0x0, 0x0, 0x0, 0x0, 0x0, 0x1f07ff⟩,
  ⟨"TSK_T_STAT", 0x71008, [(32, 0, 47)], false, false, 0x0, 0x0, 0x0, 0x0, 0x0, 0xff7f⟩,
  ⟨"TSK_T_CNT", 0x7100c, [(32, 0, 47)], false, false, 0x0, 0x0, 0x0, 0xffffffff, 0x0, 0x0⟩,
  ⟨"TSK_T_UNCLEAN", 0x71010, [(32, 0, 47)], false, false, 0x0, 0x0, 0x0, 0xffffffff, 0x0, 0x0⟩,
  ⟨"TSK_T_EXEC", 0x71014, [(32, 0, 47)], false, false, 0x0, 0x0, 0x0, 0xfffffff, 0x0, 0x0⟩,
  ⟨"TSK_T_REL", 0x71018, [(32, 0, 47)], true, false, 0x0, 0x0, 0x0, 0x0, 0x0, 0xffffffffffffffff⟩]

/-- The register kinds at 0x80000 to 0x8ffff (the spec's register tables). -/
def regBlock8 : List RegDesc := [
  ⟨"MPU_EVT", 0x80000, [], false, false, 0x0, 0x0, 0x3, 0x0, 0x0, 0x0⟩,
  ⟨"MPU_IEN", 0x80004, [], false, false, 0x0, 0x3, 0x0, 0x0, 0x0, 0x0⟩,
  ⟨"MPU_HWIN", 0x80008, [], false, true, 0xe, 0x1f, 0x0, 0x0, 0x0, 0x0⟩,
  ⟨"MPU_GEN", 0x80010, [(4, 0, 2)], false, false, 0x0, 0x0, 0x0, 0x0, 0x0, 0xffffffff⟩,
  ⟨"MPU_ECC_CNT", 0x80100, [(16, 0, 15)], false, false, 0x0, 0x0, 0x0, 0xffffff, 0x0, 0x0⟩,
  ⟨"MPU_ECC_ADDR", 0x80104, [(16, 0, 15)], false, false, 0x0, 0x0, 0x0, 0x0, 0x0, 0xffffffff⟩,
  ⟨"MPU_ECC_PASS", 0x80108, [(16, 0, 15)], false, false, 0x0, 0x0, 0x0, 0x0, 0x0, 0xffffffff⟩,
  ⟨"MPU_P_R_BASE", 0x81000, [(256, 0, 2), (16, 0, 15)], false, false, 0x0, 0x0, 0x0, 0x0, 0x0, 0x1ffffc0⟩,
  ⟨"MPU_P_R_LIMIT", 0x81004, [(256, 0, 2), (16, 0, 15)], false, false, 0x0, 0x0, 0x0, 0x0, 0x0, 0x1ffffc0⟩,
  ⟨"MPU_P_R_CTL", 0x81008, [(256, 0, 2), (16, 0, 15)], false, false, 0x0, 0x0, 0x0, 0x0, 0x0, 0x3f3f⟩,
  ⟨"DMA_EVT", 0x88000, [], false, false, 0x0, 0x0, 0xffffffff, 0x0, 0x0, 0x0⟩,
  ⟨"DMA_IEN", 0x88004, [], false, false, 0x0, 0xffffffff, 0x0, 0x0, 0x0, 0x0⟩,
  ⟨"DMA_C_CTL", 0x89000, [(64, 0, 15)], false, false, 0x7, 0x7, 0x0, 0x0, 0x300, 0x0⟩,
  ⟨"DMA_C_DESC", 0x89004, [(64, 0, 15)], true, false, 0x0, 0xffffffffffffffff, 0x0, 0x0, 0x0, 0x0⟩,
  ⟨"DMA_C_STAT", 0x8900c, [(64, 0, 15)], false, false, 0x0, 0x0, 0x0, 0xffff0000, 0x0, 0xf7⟩,
  ⟨"DMA_C_RESID", 0x89010, [(64, 0, 15)], false, false, 0x0, 0x0, 0x0, 0x0, 0x0, 0x7ffffff⟩,
  ⟨"DMA_C_FADDR", 0x89014, [(64, 0, 15)], true, false, 0x0, 0x0, 0x0, 0x0, 0x0, 0xffffffffffffffff⟩,
  ⟨"DMA_C_CUR", 0x8901c, [(64, 0, 15)], false, false, 0x0, 0x0, 0x0, 0x0, 0x0, 0xffffffff⟩]

/-- The register kinds at 0x90000 to 0x9ffff (the spec's register tables). -/
def regBlock9 : List RegDesc := [
  ⟨"OLC_STATUS", 0x90000, [], false, false, 0x0, 0x0, 0x0, 0x0, 0x0, 0x173f⟩,
  ⟨"OLC_EVT", 0x90004, [], false, false, 0x0, 0x0, 0x7ff, 0x0, 0x0, 0x0⟩,
  ⟨"OLC_IEN", 0x90008, [], false, false, 0x0, 0x7ff, 0x0, 0x0, 0x0, 0x0⟩,
  ⟨"OLC_VC_CTL", 0x90010, [], false, false, 0x0, 0x7f, 0x0, 0x0, 0x300, 0xf010000⟩,
  ⟨"OLC_VC_INFO", 0x90014, [], false, false, 0x0, 0x0, 0x0, 0x0, 0x0, 0xffff003f⟩,
  ⟨"OLC_VC_SIX", 0x90018, [], true, false, 0x0, 0x0, 0x0, 0x0, 0x0, 0xffffffffffffffff⟩,
  ⟨"OLC_CHG_CTL", 0x90020, [], false, false, 0x10000, 0xffff001f, 0x0, 0x0, 0x700, 0x0⟩,
  ⟨"OLC_CHG_ADDR", 0x90024, [], true, false, 0x0, 0xffffffffffffffff, 0x0, 0x0, 0x0, 0x0⟩,
  ⟨"OLC_CHG_REASON", 0x9002c, [], false, false, 0x0, 0x0, 0x0, 0x0, 0x0, 0xffff00ff⟩,
  ⟨"OLC_SHD_HP", 0x90030, [], false, false, 0x0, 0x0, 0x0, 0x0, 0x0, 0xffffffff⟩,
  ⟨"OLC_SHD_CMP", 0x90034, [], false, false, 0x0, 0x0, 0x0, 0x0, 0x0, 0xffffffff⟩,
  ⟨"OLC_SHD_NOCMP", 0x90038, [], false, false, 0x0, 0x0, 0x0, 0x0, 0x0, 0xffffffff⟩,
  ⟨"OLC_SHD_DIFF", 0x9003c, [], false, false, 0x0, 0x0, 0x0, 0x0, 0x0, 0xffffffff⟩,
  ⟨"OLC_SHD_FIRST", 0x90040, [], true, false, 0xffffffffffffffff, 0x0, 0x0, 0x0, 0x0, 0xffffffffffffffff⟩,
  ⟨"OLC_RPL_CTL", 0x90050, [], false, false, 0x0, 0xf, 0x0, 0x0, 0x300, 0x0⟩,
  ⟨"OLC_RPL_ADDR", 0x90054, [], true, false, 0x0, 0xffffffffffffffff, 0x0, 0x0, 0x0, 0x0⟩,
  ⟨"OLC_RPL_REC", 0x9005c, [], false, false, 0x0, 0xffffffff, 0x0, 0x0, 0x0, 0x0⟩,
  ⟨"OLC_RPL_REASON", 0x90060, [], false, false, 0x0, 0x0, 0x0, 0x0, 0x0, 0xff⟩,
  ⟨"OLC_RPL_CNT", 0x90064, [], false, false, 0x0, 0x0, 0x0, 0x0, 0x0, 0xffffffff⟩,
  ⟨"OLC_RPL_FIRST", 0x90068, [], true, false, 0xffffffffffffffff, 0x0, 0x0, 0x0, 0x0, 0xffffffffffffffff⟩,
  ⟨"OLC_RPL_POS", 0x90070, [], true, false, 0x0, 0x0, 0x0, 0x0, 0x0, 0xffffffffffffffff⟩,
  ⟨"OLC_VC_E_ID_LO", 0x90100, [(16, 0, 63)], false, false, 0x0, 0xffffffff, 0x0, 0x0, 0x0, 0x0⟩,
  ⟨"OLC_VC_E_ID_HI", 0x90104, [(16, 0, 63)], false, false, 0x0, 0xffffffff, 0x0, 0x0, 0x0, 0x0⟩,
  ⟨"OLC_VC_E_OFS", 0x90108, [(16, 0, 63)], false, false, 0x0, 0x3ffff, 0x0, 0x0, 0x0, 0x0⟩,
  ⟨"OLC_VC_E_VAL", 0x9010c, [(16, 0, 63)], false, false, 0x0, 0xffffffff, 0x0, 0x0, 0x0, 0x0⟩,
  ⟨"OLC_DIFF_HEAD", 0x90600, [(32, 0, 15)], false, false, 0x0, 0x0, 0x0, 0x0, 0x0, 0xffff0f3f⟩,
  ⟨"OLC_DIFF_OFS", 0x90604, [(32, 0, 15)], false, false, 0x0, 0x0, 0x0, 0x0, 0x0, 0xffffffff⟩,
  ⟨"OLC_DIFF_SIX", 0x90608, [(32, 0, 15)], true, false, 0x0, 0x0, 0x0, 0x0, 0x0, 0xffffffffffffffff⟩,
  ⟨"OLC_DIFF_REF", 0x90610, [(32, 0, 15)], false, false, 0x0, 0x0, 0x0, 0x0, 0x0, 0xffffffff⟩,
  ⟨"OLC_DIFF_NEW", 0x90614, [(32, 0, 15)], false, false, 0x0, 0x0, 0x0, 0x0, 0x0, 0xffffffff⟩,
  ⟨"FRC_STATUS", 0x98000, [], false, false, 0x0, 0x0, 0x0, 0x0, 0x0, 0x701ff⟩,
  ⟨"FRC_EVT", 0x98004, [], false, false, 0x0, 0x0, 0x1f, 0x0, 0x0, 0x0⟩,
  ⟨"FRC_IEN", 0x98008, [], false, false, 0x0, 0x1f, 0x0, 0x0, 0x0, 0x0⟩,
  ⟨"FRC_CLEAR_ALL", 0x9800c, [], false, false, 0x0, 0x0, 0x0, 0x0, 0x1, 0x0⟩,
  ⟨"FRC_E_SYM", 0x99000, [(32, 0, 255)], true, false, 0x0, 0xffffffffffffffff, 0x0, 0x0, 0x0, 0x0⟩,
  ⟨"FRC_E_CTL", 0x99008, [(32, 0, 255)], false, false, 0x0, 0xf, 0x0, 0x0, 0x300, 0xfff0000⟩,
  ⟨"FRC_E_VAL", 0x9900c, [(32, 0, 255)], true, false, 0x0, 0xffffffffffffffff, 0x0, 0x0, 0x0, 0x0⟩,
  ⟨"FRC_E_SIX", 0x99014, [(32, 0, 255)], true, false, 0x0, 0x0, 0x0, 0x0, 0x0, 0xffffffffffffffff⟩]

/-- The register kinds at 0xa0000 to 0xaffff (the spec's register tables). -/
def regBlockA : List RegDesc := [
  ⟨"LFT_STATUS", 0xa0000, [], false, false, 0x0, 0x0, 0x0, 0x0, 0x0, 0x10ff1⟩,
  ⟨"LFT_EVT", 0xa0004, [], false, false, 0x0, 0x0, 0x3ff, 0x0, 0x0, 0x0⟩,
  ⟨"LFT_IEN", 0xa0008, [], false, false, 0x0, 0x3ff, 0x0, 0x0, 0x0, 0x0⟩,
  ⟨"LFT_RING_OLD", 0xa0010, [], true, false, 0x0, 0x0, 0x0, 0x0, 0x0, 0xffffffffffffffff⟩,
  ⟨"LFT_ARC", 0xa0018, [], false, false, 0x0, 0x0, 0x0, 0x0, 0x0, 0xc003ffff⟩,
  ⟨"LFT_ARC_PROT", 0xa001c, [], false, false, 0x0, 0x0, 0x0, 0x0, 0x0, 0x3ffff⟩,
  ⟨"LFT_ARC_WR", 0xa0020, [], true, false, 0x0, 0x0, 0x0, 0x0, 0x0, 0xffffffffffffffff⟩,
  ⟨"LFT_REC_FIRST", 0xa0028, [], false, false, 0x0, 0x0, 0x0, 0x0, 0x0, 0xffffffff⟩,
  ⟨"LFT_REC_LAST", 0xa002c, [], false, false, 0x0, 0x0, 0x0, 0x0, 0x0, 0xffffffff⟩,
  ⟨"LFT_TRIG", 0xa0030, [], false, false, 0x0, 0x0, 0x0, 0x0, 0xff, 0x0⟩,
  ⟨"LFT_NSNAP", 0xa0034, [], false, false, 0xa, 0x0, 0x0, 0x0, 0x0, 0x3f⟩,
  ⟨"LFT_REC_SEL", 0xa0038, [], false, false, 0x0, 0xffffffff, 0x0, 0x0, 0x0, 0x0⟩,
  ⟨"LFT_REC_CTL", 0xa003c, [], false, false, 0x0, 0x0, 0x0, 0x0, 0xf, 0x10300⟩,
  ⟨"LFT_EXP_REC", 0xa0040, [], false, false, 0x0, 0xffffffff, 0x0, 0x0, 0x0, 0x0⟩,
  ⟨"LFT_EXP_CTL", 0xa0044, [], false, false, 0x0, 0x7, 0x0, 0x0, 0x300, 0xf030000⟩,
  ⟨"LFT_EXP_FROM", 0xa0048, [], true, false, 0x0, 0xffffffffffffffff, 0x0, 0x0, 0x0, 0x0⟩,
  ⟨"LFT_EXP_N", 0xa0050, [], false, false, 0x0, 0xffffffff, 0x0, 0x0, 0x0, 0x0⟩,
  ⟨"LFT_EXP_LEN0", 0xa0054, [], false, false, 0x0, 0x0, 0x0, 0x0, 0x0, 0xffffffff⟩,
  ⟨"LFT_EXP_LEN1", 0xa0058, [], false, false, 0x0, 0x0, 0x0, 0x0, 0x0, 0xffffffff⟩,
  ⟨"LFT_RWIN", 0xa0100, [(4, 0, 63)], false, false, 0x0, 0x0, 0x0, 0x0, 0x0, 0xffffffff⟩,
  ⟨"LFT_SLOW", 0xa0400, [(4, 0, 255)], false, false, 0x0, 0x0, 0x0, 0x0, 0x0, 0x17fff⟩,
  ⟨"LFT_BSIG", 0xa0800, [(4, 0, 63)], false, false, 0x0, 0x0, 0x0, 0x0, 0x0, 0x17fff⟩,
  ⟨"LFT_R_CTL", 0xa1000, [(256, 0, 7)], false, false, 0x0, 0x0, 0x0, 0x0, 0x0, 0xffff0f1f⟩,
  ⟨"LFT_R_PRE", 0xa1004, [(256, 0, 7)], false, false, 0x0, 0x0, 0x0, 0x0, 0x0, 0x7fffffff⟩,
  ⟨"LFT_R_POST", 0xa1008, [(256, 0, 7)], false, false, 0x0, 0x0, 0x0, 0x0, 0x0, 0x7fffffff⟩,
  ⟨"LFT_R_STAT", 0xa100c, [(256, 0, 7)], false, false, 0x0, 0x0, 0x0, 0xffff0000, 0x0, 0xf7⟩,
  ⟨"LFT_R_FASTMASK", 0xa1010, [(256, 0, 7), (4, 0, 7)], false, false, 0x0, 0x0, 0x0, 0x0, 0x0, 0xffffffff⟩,
  ⟨"LFT_R_SLOWMASK", 0xa1030, [(256, 0, 7), (4, 0, 7)], false, false, 0x0, 0x0, 0x0, 0x0, 0x0, 0xffffffff⟩,
  ⟨"LFT_R_PVMASK", 0xa1050, [(256, 0, 7), (4, 0, 7)], false, false, 0x0, 0x0, 0x0, 0x0, 0x0, 0xffffffff⟩,
  ⟨"LFT_R_BINMASK", 0xa1070, [(256, 0, 7)], true, false, 0x0, 0x0, 0x0, 0x0, 0x0, 0xffffffffffffffff⟩,
  ⟨"LFT_R_TRIG_SIX", 0xa1078, [(256, 0, 7)], true, false, 0x0, 0x0, 0x0, 0x0, 0x0, 0xffffffffffffffff⟩,
  ⟨"LFT_R_DEAD_MAX", 0xa1080, [(256, 0, 7)], true, false, 0x0, 0x0, 0x0, 0x0, 0x0, 0xffffffffffffffff⟩,
  ⟨"LFT_R_LAST_REC", 0xa1088, [(256, 0, 7)], false, false, 0x0, 0x0, 0x0, 0x0, 0x0, 0xffffffff⟩,
  ⟨"LFT_R_GAPS", 0xa108c, [(256, 0, 7)], false, false, 0x0, 0x0, 0x0, 0xffffffff, 0x0, 0x0⟩,
  ⟨"LFT_R_C_TERM", 0xa2000, [(512, 0, 7), (32, 0, 15), (4, 0, 3)], false, false, 0x0, 0x0, 0x0, 0x0, 0x0, 0xfffff⟩,
  ⟨"LFT_R_C_COUNT", 0xa2010, [(512, 0, 7), (32, 0, 15)], false, false, 0x0, 0x0, 0x0, 0x0, 0x0, 0xf0ffffff⟩,
  ⟨"LFT_R_C_TIMEOUT", 0xa2014, [(512, 0, 7), (32, 0, 15)], false, false, 0x0, 0x0, 0x0, 0x0, 0x0, 0xffffffff⟩,
  ⟨"LFT_CMP_CTL", 0xa3000, [(16, 0, 63)], false, false, 0x0, 0x0, 0x0, 0x0, 0x0, 0x1ff0f⟩,
  ⟨"LFT_CMP_TH", 0xa3004, [(16, 0, 63)], false, false, 0x0, 0x0, 0x0, 0x0, 0x0, 0xffffffff⟩,
  ⟨"LFT_CMP_HYST", 0xa3008, [(16, 0, 63)], false, false, 0x0, 0x0, 0x0, 0x0, 0x0, 0xffffff⟩,
  ⟨"LFT_H_CFG", 0xa3800, [(16, 0, 15)], false, false, 0x0, 0x0, 0x0, 0x0, 0x0, 0x1ff7ff03⟩,
  ⟨"LFT_H_OFFSET", 0xa3804, [(16, 0, 15)], false, false, 0x0, 0x0, 0x0, 0x0, 0x0, 0xffffffff⟩,
  ⟨"LFT_H_CTL", 0xa3808, [(16, 0, 15)], false, false, 0x0, 0x0, 0x0, 0x0, 0x1, 0x1fff0000⟩,
  ⟨"LFT_H_COUNT", 0xa380c, [(16, 0, 15)], false, false, 0x0, 0x0, 0x0, 0x0, 0x0, 0xffffffff⟩,
  ⟨"LFT_HSEL", 0xa3c00, [], false, false, 0x0, 0xff, 0x0, 0x0, 0x0, 0x0⟩,
  ⟨"LFT_HWIN", 0xa4000, [(4, 0, 255)], false, false, 0x0, 0x0, 0x0, 0x0, 0x0, 0xffffffff⟩]

/-- The register kinds at 0xb0000 to 0xbffff (the spec's register tables). -/
def regBlockB : List RegDesc := [
  ⟨"CEL_STATUS", 0xb0000, [], false, false, 0x0, 0x0, 0x0, 0x0, 0x0, 0x1ff7f⟩,
  ⟨"CEL_EVT", 0xb0004, [], false, false, 0x0, 0x0, 0x3f, 0x0, 0x0, 0x0⟩,
  ⟨"CEL_IEN", 0xb0008, [], false, false, 0x0, 0x3f, 0x0, 0x0, 0x0, 0x0⟩,
  ⟨"CEL_COUNT", 0xb000c, [], false, false, 0x0, 0x0, 0x0, 0x0, 0x0, 0xfffff⟩,
  ⟨"CEL_SEQ_OLDEST", 0xb0010, [], true, false, 0x0, 0x0, 0x0, 0x0, 0x0, 0xffffffffffffffff⟩,
  ⟨"CEL_SEQ_NEWEST", 0xb0018, [], true, false, 0x0, 0x0, 0x0, 0x0, 0x0, 0xffffffffffffffff⟩,
  ⟨"CEL_DROP", 0xb0020, [], false, false, 0x0, 0x0, 0x0, 0xffffffff, 0x0, 0x0⟩,
  ⟨"CEL_MEM", 0xb0024, [], false, false, 0x0, 0x0, 0x0, 0xffffffff, 0x0, 0x0⟩,
  ⟨"CEL_MUTED", 0xb0028, [], false, false, 0x0, 0x0, 0x0, 0xffffffff, 0x0, 0x0⟩,
  ⟨"CEL_CTL", 0xb002c, [], false, false, 0x0, 0x0, 0x0, 0x0, 0x7, 0x300⟩,
  ⟨"CEL_CURSOR", 0xb0030, [], true, false, 0x0, 0xffffffffffffffff, 0x0, 0x0, 0x0, 0x0⟩,
  ⟨"CEL_SHOWN", 0xb0038, [], true, false, 0x0, 0x0, 0x0, 0x0, 0x0, 0xffffffffffffffff⟩,
  ⟨"CEL_CAT_SEL", 0xb0040, [], false, false, 0x0, 0xfff, 0x0, 0x0, 0x0, 0x0⟩,
  ⟨"CEL_CAT_INFO", 0xb0044, [], false, false, 0x0, 0x0, 0x0, 0x0, 0x0, 0x800f07ff⟩,
  ⟨"CEL_CAT_NAME", 0xb0048, [(4, 0, 3)], false, false, 0x0, 0x0, 0x0, 0x0, 0x0, 0xffffffff⟩,
  ⟨"CEL_WIN", 0xb0100, [(4, 0, 31)], false, false, 0x0, 0x0, 0x0, 0x0, 0x0, 0xffffffff⟩,
  ⟨"CEL_LASTW", 0xb0180, [(4, 0, 15)], false, false, 0x0, 0x0, 0x0, 0x0, 0x0, 0xffffffff⟩,
  ⟨"CEL_PF_CFG", 0xb0400, [(64, 0, 15)], false, false, 0x0, 0x0, 0x0, 0x0, 0x0, 0xfff⟩,
  ⟨"CEL_PF_SNAP", 0xb0404, [(64, 0, 15), (4, 0, 7)], false, false, 0x0, 0x0, 0x0, 0x0, 0x0, 0xffffff⟩,
  ⟨"CEL_PF_PER", 0xb0424, [(64, 0, 15)], false, false, 0x0, 0x0, 0x0, 0x0, 0x0, 0xffffffff⟩,
  ⟨"CEL_PMAP", 0xb1000, [(4, 0, 511)], false, false, 0x0, 0x0, 0x0, 0x0, 0x0, 0xffffffff⟩]

/-- The register kinds at 0xc0000 to 0xcffff (the spec's register tables). -/
def regBlockC : List RegDesc := [
  ⟨"ETH_STATUS", 0xc0000, [], false, false, 0x0, 0x0, 0x0, 0x0, 0x0, 0x1ff⟩,
  ⟨"ETH_EVT", 0xc0004, [], false, false, 0x0, 0x0, 0xff, 0x0, 0x0, 0x0⟩,
  ⟨"ETH_IEN", 0xc0008, [], false, false, 0x0, 0xff, 0x0, 0x0, 0x0, 0x0⟩,
  ⟨"ETH_PAIR_CFG", 0xc0010, [(4, 0, 1)], false, false, 0x0, 0x0, 0x0, 0x0, 0x0, 0xffff⟩,
  ⟨"ETH_PAIR_MAC", 0xc0018, [(8, 0, 1)], true, false, 0x0, 0x0, 0x0, 0x0, 0x0, 0xffffffffffff⟩,
  ⟨"ETH_PAIR_NOMATCH", 0xc0028, [(4, 0, 1)], false, false, 0x0, 0x0, 0x0, 0xffffffff, 0x0, 0x0⟩,
  ⟨"ETH_HRX_BASE", 0xc0040, [], true, false, 0x0, 0xffffffffffffffff, 0x0, 0x0, 0x0, 0x0⟩,
  ⟨"ETH_HRX_CTL", 0xc0048, [], false, false, 0x0, 0x10f, 0x0, 0x0, 0x0, 0x0⟩,
  ⟨"ETH_HRX_IDX", 0xc004c, [], false, false, 0x0, 0xffff0000, 0x0, 0x0, 0x0, 0xffff⟩,
  ⟨"ETH_HTX_BASE", 0xc0050, [], true, false, 0x0, 0xffffffffffffffff, 0x0, 0x0, 0x0, 0x0⟩,
  ⟨"ETH_HTX_CTL", 0xc0058, [], false, false, 0x0, 0x10f, 0x0, 0x0, 0x0, 0x0⟩,
  ⟨"ETH_HTX_IDX", 0xc005c, [], false, false, 0x0, 0xffff0000, 0x0, 0x0, 0x0, 0xffff⟩,
  ⟨"ETH_HQ_CNT", 0xc0060, [], false, false, 0x0, 0x0, 0x0, 0xffffffff, 0x0, 0x0⟩,
  ⟨"ETH_E_STAT", 0xc0100, [(16, 0, 3)], false, false, 0x0, 0x0, 0x0, 0x0, 0x0, 0x3⟩,
  ⟨"ETH_E_RX", 0xc0104, [(16, 0, 3)], false, false, 0x0, 0x0, 0x0, 0xffffffff, 0x0, 0x0⟩,
  ⟨"ETH_E_ERR", 0xc0108, [(16, 0, 3)], false, false, 0x0, 0x0, 0x0, 0xffffffff, 0x0, 0x0⟩,
  ⟨"ETH_E_DUP", 0xc010c, [(16, 0, 3)], false, false, 0x0, 0x0, 0x0, 0xffffffff, 0x0, 0x0⟩,
  ⟨"ETH_C_STAT", 0xc1000, [(32, 32, 255)], false, false, 0x0, 0x0, 0x0, 0x0, 0x0, 0x7ffff⟩,
  ⟨"ETH_C_STNUM", 0xc1004, [(32, 32, 255)], false, false, 0x0, 0x0, 0x0, 0x0, 0x0, 0xffffffff⟩,
  ⟨"ETH_C_SQNUM", 0xc1008, [(32, 32, 255)], false, false, 0x0, 0x0, 0x0, 0x0, 0x0, 0xffffffff⟩,
  ⟨"ETH_C_CNT", 0xc100c, [(32, 32, 255)], false, false, 0x0, 0x0, 0x0, 0xffffffff, 0x0, 0x0⟩,
  ⟨"ETH_C_LAST", 0xc1010, [(32, 32, 255)], true, false, 0x0, 0x0, 0x0, 0x0, 0x0, 0xffffffffffffffff⟩]

/-- The register kinds at 0xd0000 to 0xdffff (the spec's register tables). -/
def regBlockD : List RegDesc := [
  ⟨"UCH_STATUS", 0xd0000, [], false, false, 0x0, 0x0, 0x0, 0x0, 0x0, 0xf1ff⟩,
  ⟨"UCH_EVT", 0xd0004, [], false, false, 0x0, 0x0, 0xff, 0x0, 0x0, 0x0⟩,
  ⟨"UCH_IEN", 0xd0008, [], false, false, 0x0, 0xff, 0x0, 0x0, 0x0, 0x0⟩,
  ⟨"UCH_DROP_CNT", 0xd000c, [], false, false, 0x0, 0x0, 0x0, 0xffffffff, 0x0, 0x0⟩,
  ⟨"UCH_C_CFG", 0xd1000, [(64, 0, 15)], false, false, 0x0, 0x0, 0x0, 0x0, 0x0, 0xffff7fff⟩,
  ⟨"UCH_C_CJ", 0xd1004, [(64, 0, 15)], false, false, 0x0, 0x0, 0x0, 0x0, 0x0, 0x1ffffff⟩,
  ⟨"UCH_C_STAT", 0xd1008, [(64, 0, 15)], false, false, 0x0, 0x0, 0x0, 0x0, 0x0, 0x1ff0fff⟩,
  ⟨"UCH_C_SUM", 0xd100c, [(64, 0, 15)], true, false, 0x0, 0x0, 0x0, 0x0, 0x0, 0xffffffffffff⟩,
  ⟨"UCH_C_MIN", 0xd1014, [(64, 0, 15)], false, false, 0x0, 0x0, 0x0, 0x0, 0x0, 0xffffffff⟩,
  ⟨"UCH_C_MAX", 0xd1018, [(64, 0, 15)], false, false, 0x0, 0x0, 0x0, 0x0, 0x0, 0xffffffff⟩,
  ⟨"UCH_C_COUNT", 0xd101c, [(64, 0, 15)], false, false, 0x0, 0x0, 0x0, 0x0, 0x0, 0xffff⟩,
  ⟨"UCH_C_TAG", 0xd1020, [(64, 0, 15)], true, false, 0x0, 0x0, 0x0, 0x0, 0x0, 0xffffffffffffffff⟩,
  ⟨"UCH_C_CLR", 0xd1028, [(64, 0, 15)], true, false, 0x0, 0x0, 0x0, 0x0, 0x0, 0xffffffffffffffff⟩,
  ⟨"UCH_C_CNT", 0xd1030, [(64, 0, 15)], false, false, 0x0, 0x0, 0x0, 0xffffff, 0x0, 0x0⟩,
  ⟨"UCH_C_HCTL", 0xd1034, [(64, 0, 15)], false, true, 0x0, 0x0, 0x0, 0x0, 0x3, 0x0⟩,
  ⟨"UCH_G_HCTL", 0xd2000, [(64, 0, 3)], false, false, 0x50000, 0x1f0303, 0x0, 0x0, 0xc, 0x70⟩,
  ⟨"UCH_G_HLEN", 0xd2004, [(64, 0, 3)], false, false, 0x0, 0x1ff, 0x0, 0x0, 0x0, 0x1ff0000⟩,
  ⟨"UCH_G_HCNT", 0xd2008, [(64, 0, 3)], false, false, 0x0, 0x0, 0x0, 0xffffffff, 0x0, 0x0⟩,
  ⟨"UCH_G_HBUF", 0xd3000, [(512, 0, 3), (4, 0, 67)], false, false, 0x0, 0xffffffff, 0x0, 0x0, 0x0, 0x0⟩]

/-- The register kinds at 0xe0000 to 0xeffff (the spec's register tables). -/
def regBlockE : List RegDesc := [
  ⟨"SEC_CMD", 0xe0000, [], false, false, 0x0, 0xff, 0x0, 0x0, 0x100, 0xf030000⟩,
  ⟨"SEC_LEN", 0xe0004, [], false, false, 0x0, 0x1fff, 0x0, 0x0, 0x0, 0x1fff0000⟩,
  ⟨"SEC_STATUS", 0xe0008, [], false, false, 0x0, 0x0, 0x0, 0x0, 0x0, 0x1f3f⟩,
  ⟨"SEC_EVT", 0xe000c, [], false, false, 0x0, 0x0, 0x1f, 0x0, 0x0, 0x0⟩,
  ⟨"SEC_IEN", 0xe0010, [], false, true, 0x0, 0x1f, 0x0, 0x0, 0x0, 0x0⟩,
  ⟨"SEC_KEY", 0xe0020, [(4, 0, 3)], false, false, 0x0, 0x0, 0x0, 0x0, 0x0, 0x31f⟩,
  ⟨"SEC_SVN", 0xe0030, [(4, 0, 2)], false, false, 0x0, 0x0, 0x0, 0x0, 0x0, 0xffffffff⟩,
  ⟨"SEC_XMSS_LEFT", 0xe0040, [], false, false, 0x100000, 0x0, 0x0, 0x0, 0x0, 0x1fffff⟩,
  ⟨"SEC_XMSS_DAY", 0xe0044, [], false, false, 0x0, 0x0, 0x0, 0x0, 0x0, 0xffff807f⟩,
  ⟨"SEC_TAMPER", 0xe0048, [], false, false, 0x0, 0x0, 0x0, 0xffff, 0x0, 0x0⟩,
  ⟨"SEC_BUF", 0xe1000, [(4, 0, 1023)], false, false, 0x0, 0xffffffff, 0x0, 0x0, 0x0, 0x0⟩]

/-- The register kinds of each block of 64 KiB of the BAR0 map; none crosses a block. -/
def regBlock : Nat → List RegDesc
  | 0 => regBlock0
  | 1 => regBlock1
  | 2 => regBlock2
  | 3 => regBlock3
  | 4 => regBlock4
  | 5 => regBlock5
  | 6 => regBlock6
  | 7 => regBlock7
  | 8 => regBlock8
  | 9 => regBlock9
  | 10 => regBlockA
  | 11 => regBlockB
  | 12 => regBlockC
  | 13 => regBlockD
  | 14 => regBlockE
  | _ => []

end Sys2Proof.Machine
end

