-- ==== Sys2Proof/Machine/Kv.lean ====
section
/-!
DEFINITION. Machine/Kv.lean: the one representation of indexed data: a list of (key, value) pairs with strictly rising keys and
no entry equal to the default, so that equal contents are equal lists.
-/
namespace Sys2Proof.Machine

variable {α : Type}

/-- The value at key `k`: the listed one, else the default of that key. -/
def kvGet (d : Nat → α) : KV α → Nat → α
  | [], k => d k
  | (j, v) :: m, k => if j = k then v else kvGet d m k

/-- `m` without any entry for `k`. -/
def kvErase : KV α → Nat → KV α
  | [], _ => []
  | (j, v) :: m, k => if j = k then kvErase m k else (j, v) :: kvErase m k

/-- `m` with the entry `(k, v)` put before the first greater key. -/
def kvInsert : KV α → Nat → α → KV α
  | [], k, v => [(k, v)]
  | (j, w) :: m, k, v => if k < j then (k, v) :: (j, w) :: m else (j, w) :: kvInsert m k v

/-- `m` with the value at `k` replaced by `v`; a value equal to the default is not listed. -/
def kvPut [DecidableEq α] (d : Nat → α) (m : KV α) (k : Nat) (v : α) : KV α :=
  if v = d k then kvErase m k else kvInsert (kvErase m k) k v

/-- `m` with the value at `k` changed by `f`. -/
def kvMod [DecidableEq α] (d : Nat → α) (m : KV α) (k : Nat) (f : α → α) : KV α :=
  kvPut d m k (f (kvGet d m k))

/-- The canonical form: strictly rising keys, every key above `lo` when one is given, and no value equal to its default. -/
def kvWfFrom [DecidableEq α] (d : Nat → α) : Nat → KV α → Bool
  | _, [] => true
  | lo, (k, v) :: m => decide (lo ≤ k) && decide (v ≠ d k) && kvWfFrom d (k + 1) m

/-- The canonical form of a map. -/
def kvWf [DecidableEq α] (d : Nat → α) (m : KV α) : Bool := kvWfFrom d 0 m

end Sys2Proof.Machine
end

