-- ==== Sys2Proof/Machine/State.lean ====
section
/-!
DEFINITION. Machine/State.lean: the state of the block as plain data, every piece the spec names: the BAR0 registers, and for each
unit what its rules need beside its registers; the faults and refusals; the state at reset.
-/
namespace Sys2Proof.Machine

/-- One segment of the mapping from SIX to time of day (R25, R26, R27): from `six` on, `tod` uses `offset` (nanoseconds) and
`epoch`; `traced` says that EVER_LOCKED and VALID of R323 both stood (R289). -/
structure TimeMap where
  six : Nat
  offset : Int
  epoch : Nat
  traced : Bool
deriving DecidableEq, Repr

/-- The sample index and its mapping to time of day (R23 to R27). `maps` holds the segments, newest first. `running` is false
before SIX starts at cold start. `free` is the model's own counter that picks free values. -/
structure Clk where
  six : Nat
  running : Bool
  maps : List TimeMap
  free : Nat
deriving DecidableEq, Repr

/-- A token bucket of one code (R296). -/
structure Bucket where
  tokens : Nat
  last : Nat
  supp : Nat
deriving DecidableEq, Repr

/-- A full bucket whose LAST is 0 (R296): 255 stands for 'at least BURST'. -/
def Bucket.full : Bucket := ⟨255, 0, 0⟩

/-- The Cellar (R287 to R307, R460). Slots of the two banks hold an entry or are empty; `bad` copies do not verify. -/
structure CelSt where
  bankA : KV (Option Entry)
  bankB : KV (Option Entry)
  failA : Nat              -- cause of BANK_FAIL for A (R293), 0 none
  failB : Nat
  queue : List Raised      -- front first
  seqP0 : Nat              -- last SEQ issued, kept in P0
  seqBlock : Nat           -- last SEQ of the island's latest reserved block
  opsec : Nat              -- whole seconds with VMAIN good, P0
  opfrac : Nat             -- fraction of a second already counted, in samples, P0
  pcc : Nat                -- power-cycle count, P0
  rtcNs : Nat              -- P0 real-time counter in ns, as it stands now
  buckets : KV Bucket      -- by code
  freezeReq : Bool         -- a FREEZE entry stands in the queue
  freezeView : Nat
  freezeSix : Nat
  cubby : List Entry       -- oldest first
  lastWord : List Byte     -- the 64-byte last-word register, empty when cleared
  fullSince : Nat          -- drops by full banks since the previous DROPPED entry
  queueSince : Nat         -- discards from the queue since then
  suppSix : Option Nat     -- SIX of the latest SUPPRESSED and DROPPED instant
deriving DecidableEq, Repr

/-- One entry of a function's MSI-X table with its Pending Bit (R380, R381) and the SIX of its latest message. -/
structure MsixVec where
  masked : Bool
  pending : Bool
  lastSix : Option Nat
deriving DecidableEq, Repr

/-- A masked entry with nothing pending, as a PCIe function's reset leaves it. -/
def MsixVec.reset : MsixVec := ⟨true, false, none⟩

/-- The host side of one PCIe function (R374, R378 to R381): MSI-X Enable and table, the 64-bit read shadow (offset and word of
the group's other words) with its tag, and the write shadow with its tag. -/
structure FnSt where
  msixEn : Bool
  vecs : KV MsixVec
  rdTag : Option Nat
  rdShadow : List (Nat × Word)
  wrTag : Option Nat
  wrLow : Word
deriving DecidableEq, Repr

/-- A function with its host side cleared (R374). -/
def FnSt.reset : FnSt := ⟨false, [], none, [], none, 0⟩

/-- The open session (R386): rights, key slot, operator field, the end of its LIFETIME and the latest PF1 access, in SIX. -/
structure Session where
  rights : Nat
  slot : Nat
  operator : List Byte
  endSix : Nat
  lastAcc : Nat
deriving DecidableEq, Repr

/-- The outstanding challenge (R384). -/
structure Challenge where
  nonce : BitVec 256
  seq : Nat
  issued : Nat
deriving DecidableEq, Repr

/-- A mailbox command that runs (R382): the function that issued it, its RESULT and its response. -/
structure MboxRun where
  pf : Nat
  result : Nat
  response : List Byte
deriving DecidableEq, Repr

/-- The security island (R382 to R399, R439, R460): fuses, counters, flash image slots and the mailbox. `lc` of the life cycle stands in SEC_STATUS. Image slots are numbered
2 * (kind - 1) and 2 * (kind - 1) + 1 for kinds 1 firmware, 2 fast-path and 3 program; `running` names the slot that runs. -/
structure SecSt where
  vendor0Revoked : Bool
  keyBytes : KV (List Byte)
  slots : KV (Option Image)
  running : KV (Option Nat)
  newer : KV Nat                 -- by kind - 1, which of its two slots was written last
  upload : Option Image          -- verified image awaiting its effect (R132)
  session : Option Session
  challenge : Option Challenge
  chalSeq : Nat
  grantFails : List Nat          -- SIX of the failed GRANTs within 600 s
  lockoutEnd : Option Nat
  mbox : Option MboxRun
  respPf : Option Nat            -- the function that may read the response, 2 once it has expired for both
  respSix : Nat                  -- SIX of the completion
  xmssIndex : Nat                -- next index of the identity key
  attests : List Nat             -- operating seconds of the attestation signatures in the window
  wipeProof : List Byte
  wiping : Bool
  wipeBad : Nat                  -- stores whose read-back found a byte that is not zero, as WIPE bits
  uploadSix : Option Nat         -- SIX at which INSTALL of that image completed
  uartWait : Option (List Byte × BitVec 256 × Bool)  -- a service UART frame that waits, with its nonce and whether storing succeeds
  incarnation : Nat              -- the island's incarnation counter (R64)
  uart : List Byte               -- bytes of the latest answer on the service UART
  opCopy : Nat × Nat             -- OPSEC and power-cycle count as last copied into the island's store (R459)
deriving DecidableEq, Repr

/-- A trip decision on a port that awaits its ACK (R73 to R77): codeword index, sequence number, the frame n0 of its first word,
its decision SIX, whether TRIP_UNACK has been raised for it, and whether its ACK has come (its four full frames still run). -/
structure Trip where
  index : Nat
  seq : Nat
  n0 : Nat
  decSix : Nat
  unack : Bool
  acked : Bool
deriving DecidableEq, Repr

/-- A command group waiting on a port (R78, R194): release SIX, apply-SIX, group sequence and the CMD words not yet sent. -/
structure CmdGroup where
  release : Nat
  apply : Nat
  seq : Nat
  words : List (Nat × Nat)
deriving DecidableEq, Repr

/-- What a port keeps beside its registers (R45 to R82). -/
structure Port where
  aligned : Bool           -- upstream frame alignment (R46)
  lastFrame : Nat          -- SIX in which the latest valid FRAME word was received
  frameAt : Nat            -- SIX in which the current frame began, its FRAME word valid or discarded (R49)
  frameSix : Nat           -- SIX of the current frame's samples, as its FRAME word carried it, extended (R61, R85)
  frameValid : Bool        -- no FRAME word of that frame disagreed with the expected SIX
  mismatches : Nat         -- consecutive mismatches (R61)
  goodRun : Nat            -- consecutive valid frames with the port's incarnation while LOST (R66)
  statOk : Bool            -- the current frame's UNITSTAT was received with that incarnation (R66)
  lostFrom : Nat           -- state before LOST: 4 RUN, 8 STANDBY, 9 BOUND
  deadEnd : Nat            -- SIX at which the dead timer expires (R67)
  retired : Nat            -- retired incarnation, 0 none
  oldUid : Nat             -- unit ID served when the port died
  rx : Option (Nat × Nat)  -- message being received: its kind and the SIX of its latest word (R53)
  rxDead : Bool            -- the message begun last has been discarded (R53, R54)
  rxAt : Nat               -- arrival of the frame of its MSG_START, in 1/65 536 of a sample (R80)
  ignoreTill : Nat         -- HELLO is ignored before this SIX (R62)
  pingTag : Nat            -- tag of the latest PING
  pingOut : Bool           -- that PING awaits its ECHO
  pingMiss : Nat           -- consecutive PINGs of calibration without a valid ECHO
  calPhase : Nat           -- 0 none, 4 first 64 PINGs, 5 COMP not yet confirmed, 6 second 64 PINGs (steps of R62)
  calCount : Nat
  calSum : Nat             -- sum of the measurements of the running calibration, units of 0.125 ns
  calFail : Bool           -- step 6 failed
  recal : Bool             -- recalibration of R59
  validFrom : Nat          -- first SIX sampled under the compensation that the latest recalibration loaded (R59)
  recent : List Nat        -- latest one-way measurements, newest first, at most 64
  compPend : Option (Nat × Nat)  -- COMP not yet confirmed: content, SIX of sending (R59)
  toggle : Bool            -- latest COMP_TOGGLE
  useFrom : Nat            -- samples are used from this SIX on (R62 step 8, R66)
  feed : List (Nat × Option Nat)  -- the context that the port's samples feed from each SIX on, newest first (R68, R70)
  chstat : Bool            -- a CHSTAT arrived since the port entered RUN (R110)
  ovr : Nat               -- OVERRANGE mask of the latest CHSTAT, bit c for channel c
  settle : Nat             -- SETTLE mask of the latest CHSTAT
  test : Bool              -- TEST flag of the latest UNITSTAT
  trips : List Trip        -- oldest first
  tripSeq : KV Nat         -- sequence number of the latest decision, by target (R74)
  group : Option CmdGroup
  groupSeq : Nat           -- group sequence modulo 8
  quarFresh : Bool         -- the next frame in QUARANTINE is the first of its run (R69)
  peerSamples : List Int   -- latest offset samples of a peer port, newest first, at most 64 (R80)
  timeSent : Bool          -- PEER_TIME sent since the port entered RUN
  lateSix : List Nat       -- SIX of the late applies reported (R79), newest first
  byteHist : List (Nat × Nat)  -- the station's byte of the input image (R187) with the SIX of each change, newest first
  servHist : List (Nat × Option Nat)  -- the port that serves the station for decisions (R461), by SIX of each change, newest first
  shelfIn : Nat            -- translated publish SIX of the SHELF message being received
  shelfId : Nat            -- its shelf ID
  msgSeq : Nat             -- message sequence of the latest message sent, modulo 8
deriving DecidableEq, Repr

/-- A port as cold start leaves it. -/
def Port.reset : Port :=
  { aligned := false, lastFrame := 0, frameAt := 0, frameSix := 0, frameValid := false, mismatches := 0, goodRun := 0, statOk := false,
    lostFrom := 4, deadEnd := 0, retired := 0, oldUid := 0, rx := none, rxDead := false, rxAt := 0, ignoreTill := 0, pingTag := 0,
    pingOut := false, pingMiss := 0, calPhase := 0, calCount := 0, calSum := 0, calFail := false, recal := false, validFrom := 0,
    recent := [], compPend := none, toggle := false, useFrom := 0, feed := [], chstat := false, ovr := 0, settle := 0, test := false,
    trips := [], tripSeq := [], group := none, groupSeq := 0, quarFresh := false, peerSamples := [], timeSent := false, lateSix := [],
    byteHist := [], servHist := [], shelfIn := 0, shelfId := 0, msgSeq := 0 }

/-- One sample or grid value of a channel as filed under its SIX (R85, R102): code, quality byte, the unit's judgement (R110) and
the SIX in which it was complete. -/
structure Samp where
  six : Nat
  code : Int
  q : Nat
  usable : Bool
  test : Bool
  subst : Bool
  done : Nat
deriving DecidableEq, Repr

/-- The derived values of one channel for one base cycle (R92 to R96), tagged `tag`. -/
structure Deriv where
  tag : Nat
  dec : Int
  decQ : Nat
  mean : Int
  rms : Int
  der : Int
  dcQ : Nat
  ph : List (Int × Int)
  phQ : Nat
  done : Nat
deriving DecidableEq, Repr

/-- A sampled-value sample received for a kind-2 context (R99): second, smpCnt, channel, value, mapped quality. -/
structure SvSamp where
  sec : Nat
  cnt : Nat
  ch : Nat
  value : Int
  q : Nat
  arr : Nat                  -- SIX of its arrival
deriving DecidableEq, Repr

/-- A received dataset (kind 4) or peer shelf (kind 6) with its tag (R84) and its quality. -/
structure DataTag where
  at_ : Nat                  -- SIX from which it counts: the tag, or the deadline at which MISSING began
  tag : Nat
  done : Nat
  q : Nat
  words : List Word
deriving DecidableEq, Repr

/-- The settings of a context before the latest changed configuration (R85): the SIX from which the new ones count, the words of
SFB_Cn_CFG, SFB_Cn_ACMASK and SFB_Cn_SVDLY, the stream subscribed and the samples received of it. -/
structure CtxOld where
  since : Nat
  cfg : Word
  ac : Word
  dly : Word
  sub : Option SvSub
  sv : List SvSamp
deriving DecidableEq, Repr

/-- What the fabric keeps for one stream context beside its registers. -/
structure Ctx where
  runFrom : Nat              -- samples count as received from this SIX on (R86)
  missFrom : Option (Nat × Nat)  -- the context is MISSING from this SIX on, and the SIX in which that became known
  gaps : List (Nat × Nat × Nat × List Int)  -- past MISSING spans: first SIX, SIX in which it became known, first SIX after, values held
  settles : List (Nat × Nat) -- settling starts (R97): SIX c and the quantities, bit 0 decimated, 1 DC, 2 phasors, 3 grid values
  sv : List SvSamp           -- newest first
  svSync : Bool              -- smpSynch of the stream is 2
  data : List DataTag        -- newest first
  old : Option CtxOld        -- the settings before the latest changed configuration (R85)
deriving DecidableEq, Repr

/-- A context as cold start leaves it. -/
def Ctx.reset : Ctx := ⟨0, none, [], [], [], false, [], none⟩

/-- The sample fabric (R84 to R103). Samples and derived values stand by channel (32 × context + channel) and then by SIX modulo
the depth of the ring. -/
structure FabSt where
  ctx : KV Ctx
  samp : KV (KV (Option Samp))
  drv : KV (KV (Option Deriv))
  last : KV Int              -- last value received with MISSING clear since the context left ARMED (R95)
deriving DecidableEq, Repr

/-- One binary input (R104 to R108). `hist` holds the presented state and its VALID with the SIX of each change, newest first. -/
structure BinIn where
  runLevel : Bool
  runStart : Nat
  q : Bool
  confirmed : Nat            -- SIX of the latest confirmed transition or restart
  trans : List Nat           -- confirmation SIX of transitions that count for chatter, newest first
  blocked : Bool
  persSince : Option Nat     -- SIX since which the debounced state is active
  hist : List (Nat × Bool × Bool)
  confs : List Nat          -- SIX of confirmed transitions, newest first
  persHist : List (Nat × Bool)  -- PERSISTENT with the SIX of each change, newest first
deriving DecidableEq, Repr

/-- An input before its first sample. -/
def BinIn.reset : BinIn := ⟨false, 0, false, 0, [], false, none, [], [], []⟩

/-- Binary inputs: the inputs and the latest SIX at which the pins were sampled (none before the first). -/
structure BinSt where
  ins : KV BinIn
  last : Option Nat
deriving DecidableEq, Repr

/-- Output of an element, a directional pair or a rule for one SIX (R111). -/
structure ElOut where
  six : Nat
  out : Bool
  usable : Bool
  test : Bool
  subst : Bool
deriving DecidableEq, Repr

/-- The state of one element: consecutive count, output, marks of the samples that made it true, and for held outputs the last
SIX of the hold. -/
structure ElSt where
  cnt : Nat
  out : Bool
  test : Bool
  subst : Bool
  holdEnd : Nat
deriving DecidableEq, Repr

/-- An element at restart: counters and holds cleared (R132). -/
def ElSt.reset : ElSt := ⟨0, false, false, false, 0⟩

/-- The elements of one fast channel, with the next SIX to evaluate, and their latest outputs by SIX modulo the depth. -/
structure ChanEl where
  next : Nat
  la : ElSt
  lb : ElSt
  roc : ElSt
  step : ElSt
  sign : Bool
  outs : KV (List ElOut)     -- by SIX modulo histDepth: LA, LB, ROC, STEP
deriving DecidableEq, Repr

def ChanEl.reset : ChanEl := ⟨0, ElSt.reset, ElSt.reset, ElSt.reset, ElSt.reset, false, []⟩

/-- A directional pair (R115). -/
structure PairSt where
  next : Nat
  fwd : ElSt
  rev : ElSt
  outs : KV (List ElOut)     -- FWD, REV
deriving DecidableEq, Repr

def PairSt.reset : PairSt := ⟨0, ElSt.reset, ElSt.reset, []⟩

/-- A rule (R117): next SIX to evaluate, truth at the latest SIX, whether armed, and the run of false SIX. -/
structure RuleSt where
  next : Nat
  tru : Bool
  armed : Bool
  lowRun : Nat
  outs : KV (List ElOut)     -- truth of the rule by SIX, a Loft term
deriving DecidableEq, Repr

def RuleSt.reset : RuleSt := ⟨0, false, false, 0, []⟩

/-- A peer's latest vote for a group (R126): port index 0-3, state, translated SIX, SIX of its complete reception. -/
structure Vote where
  peer : Nat
  state : Nat
  six : Nat
  done : Nat
  vseq : Nat
deriving DecidableEq, Repr

/-- A pickup that awaits its votes (R125): its SIX, its rule, and whether the decision is a test decision. -/
structure Pickup where
  six : Nat
  rule : Nat
  test : Bool
deriving DecidableEq, Repr

/-- A conjunction group (R125 to R127): the standing pickups, oldest first; the rules that have picked it up since RESET; the SIX of the
latest pickups, newest first; the peers' latest votes, the history of K_EFF (SIX, value; newest first), and the sending of its own
VOTE: sequence, SIX it carries, frame in which it began. -/
structure GroupSt where
  pickups : List Pickup
  owners : List Nat
  picks : List Nat
  votes : List Vote
  kHist : List (Nat × Nat)
  voteSeq : Nat
  voteSix : Nat
  voteStart : Nat
deriving DecidableEq, Repr

def GroupSt.reset : GroupSt := ⟨[], [], [], [], [], 0, 0, 0⟩

/-- A trip driver output (R123, R124). -/
structure TdoSt where
  latest : Option Nat        -- SIX of the latest decision
  rules : List Nat           -- rules that drive it
  rstReq : Bool              -- INJ_TDO_RST accepted
  misRun : Nat
  matchRun : Nat
deriving DecidableEq, Repr

def TdoSt.reset : TdoSt := ⟨none, [], false, 0, 0⟩

/-- The interjection unit beside its registers (R110 to R134). -/
structure InjSt where
  chans : KV ChanEl
  pairs : KV PairSt
  rules : KV RuleSt
  groups : KV GroupSt
  tdos : KV TdoSt
  gates : List (Nat × Nat)   -- SIX and gate mask of each change, newest first (R120)
  intj : KV (List (Nat × Nat × Bool))  -- interjections by rule: decision SIX, SIX raised, TEST; newest first
  scap : KV (KV Nat)         -- STEM capture buffer by slot and SIX modulo 131 072: code and quality as 32 bits
  scapLeft : Nat             -- POST samples still to write
  scapDec : Nat              -- SIX of the decision that will freeze the buffer
  scapFirst : Option Nat     -- first and latest SIX that the buffer has taken since it was empty
  scapLast : Nat
  decs : List (Bool × Nat × Nat)   -- decisions of rules (false) and groups (true): number and decision SIX, newest first
  tdoHist : KV (List (Nat × Bool)) -- state of each TDO with the SIX of each change, newest first
  since : Nat                -- the hyperboundary at which the latest configuration took effect (R132)
  oldRegs : KV Word          -- the registers before it, whose settings count for earlier SIX
deriving DecidableEq, Repr

/-- An open loop of a call (R163): byte addresses of its body's first and last word, count, index, mirror register, and the depth
of the call that opened it. -/
structure LoopFr where
  start : Nat
  last : Nat
  count : Nat
  idx : Nat
  mirror : Nat
  frame : Nat
deriving DecidableEq, Repr

/-- A call frame (R165): return address, the caller's NB, verb and noun, and the staged words by byte offset. -/
structure CallFr where
  ret : Nat
  nb : Nat
  verb : Nat
  noun : Nat
  staged : KV (Option Word)
deriving DecidableEq, Repr

/-- A note that a cycle has issued (R161). -/
structure Note where
  code : Nat
  sev : Nat
  data : List Byte
deriving DecidableEq, Repr

/-- The frozen input image of a cycle (R33, R87, R187): the items by context, channel and item, the words of the region by byte
offset with its length, the shelves as published at the release, and whether any value in it is LATE. -/
structure InImage where
  items : KV Word
  region : KV Word
  size : Nat
  shelves : KV (KV Word)
  late : Bool
deriving DecidableEq, Repr

/-- A task cycle from its release to its output release. `kind`: 0 live, 1 shadow, 2 replay, 3 migration call. `status`: 0 ready,
1 running, 2 pre-empted, 3 done, 4 aborted, 5 lost. The buffers of R158 keep the last store of each word. -/
structure Cycle where
  tid : Nat
  part : Nat
  lane : Nat
  kind : Nat
  status : Nat
  rel : Nat
  period : Nat
  prio : Nat
  fmask : Nat
  event : Bool
  overrun : Bool
  unclean : Bool           -- a force was active, or STEM, since the freeze (R43)
  regs : KV Word
  flg : Nat
  nb : Nat
  pc : Nat
  lim : Option Nat
  frames : List CallFr     -- innermost first
  loops : List LoopFr      -- innermost first
  img : InImage
  ost : KV (Option Word)
  shst : KV (KV (Option Word))
  gset : KV (Option Nat)
  evr : List Nat           -- in program order
  notes : List Note        -- in program order
  drops : Nat
  journal : List (Nat × Word)  -- mirror addresses and words, in commit order
  exec : Nat
  ended : Nat              -- SIX at which it completed or was aborted
deriving DecidableEq, Repr

/-- What a lane holds beside its memories and registers: the partition image loaded, the key of the running cycle, the staging
words reserved (R165), whether its load for a takeover or a change has completed. -/
structure LaneSt where
  img : Option Partition
  run : Option Nat
  resv : Nat
deriving DecidableEq, Repr

def LaneSt.reset : LaneSt := ⟨none, none, 0⟩

/-- What the engine keeps for a task between cycles: release and output release of its latest cycle, the freeze SIX of its latest
release, how the previous cycle ended (R187), the tags of pending events (R186), and the latest clean-cycle bit. -/
structure TaskRt where
  prevRel : Option Nat
  prevEnd : Nat
  prevFreeze : Option Nat
  clean : Bool
  aborted : Bool
  lost : Bool
  pend : List (Nat × Bool)  -- tags of pending events, oldest first, and whether an EVR raised them
deriving DecidableEq, Repr

def TaskRt.reset : TaskRt := ⟨none, 0, none, false, false, false, []⟩

/-- A snapshot of the Pantry (R199): SEQ, SNAP_SIX, FINAL, the image's ID, and per retentive noun its ID, layout and words. -/
structure PanSlot where
  seq : Nat
  snapSix : Nat
  final : Bool
  imageId : Nat
  body : List (Nat × Nat × List Word)
deriving DecidableEq, Repr

/-- A takeover in progress (R196, R197). -/
structure Takeover where
  failed : Nat
  spare : Nat
  part : Nat
  x : Nat
  lost : Nat
deriving DecidableEq, Repr

/-- Tasks and cycles (R174 to R204): the running program image, whether the lanes run and the hyperboundary at which they started,
the cycles (key: TID for live ones, TID + 64 for those of the spare), the released output image by word and its words of the latest 64 samples (SIX
of the release, newest first), the latest three frozen input images by task (SIX of the release, newest first), the copies of the
shelves, the snapshot being written to the Pantry (whose slots stand in its MRAM), the SIX of the latest snapshot, the takeover in progress. -/
structure TskSt where
  prog : Option ProgImage
  up : Bool
  start : Nat
  cyc : KV (Option Cycle)
  rt : KV TaskRt
  out : KV Word
  outHist : KV (List (Nat × Word))
  outForced : KV (List (Nat × Option Word))  -- force on each output word with the SIX of each change, newest first
  imgs : KV (List (Nat × InImage))
  back : KV (KV Word)
  front : KV (KV Word)
  panWriting : Option (Nat × PanSlot)
  panSix : Option Nat
  tko : Option Takeover
deriving DecidableEq, Repr

/-- A force entry's hidden state (R243, R244): the symbol bound, the SIX of the ARM and of the DISARM or clearing kick, the value in
force and newer values with the SIX of their writes, newest first. -/
structure FrcSt where
  bound : Option Symbol
  armSix : Nat
  endSix : Option Nat
  cleared : Bool
  val : Nat
  newVal : List (Nat × Nat)
deriving DecidableEq, Repr

def FrcSt.reset : FrcSt := ⟨none, 0, none, false, 0, []⟩

/-- The accumulators of a universal channel (R357) at one instant. -/
structure UchAcc where
  sum : Int
  count : Nat
  mn : Int
  mx : Int
  tag : Nat
deriving DecidableEq, Repr

/-- A conversion of a channel's own converter (R356): its start, whether it was requested, whether it will be discarded. -/
structure UchConv where
  s0 : Nat
  onDemand : Bool
  discard : Bool
deriving DecidableEq, Repr

/-- A universal channel beside its registers (R351 to R367): the running conversion; the accumulators before the latest counted
conversion; flags with the SIX of each change, newest first; start of the latest settling and conversions still to discard; the
previous digital code; the released CTRL bits; the CMD in force and the one to be taken with its SIX; target and the SIX of its
latest change; counts of consecutive tested readbacks; state of the supply (0 ADAPT, 1 BOOST, 2 FAIL); latest terminal voltage; SIX of
the latest scheduled start met. -/
structure UchSt where
  conv : Option UchConv
  prev : UchAcc
  flagHist : List (Nat × Nat)
  setFrom : Nat
  disc : Nat
  dig : Nat
  ctrl : Nat
  cmd : Option Int
  cmdPend : Option (Int × Nat)
  target : Int
  tgtSix : Nat
  short : Nat
  good : Nat
  supply : Nat
  vt : Option Nat
  sched : Option Nat
deriving DecidableEq, Repr

def UchSt.reset : UchSt := ⟨none, ⟨0, 0, 0, 0, 0⟩, [], 0, 0, 0, 0, none, none, 0, 0, 0, 0, 0, none, none⟩

/-- A group of universal channels (R368, R369): its fault and the SIX of it, the channel of the running HART transaction,
whether its controller has driven the alarm levels, and the SIX of the latest readback slot that ended. -/
structure UchGrp where
  fault : Bool
  faultSix : Nat
  hart : Option Nat
  driven : Bool
  slotSix : Option Nat
deriving DecidableEq, Repr

def UchGrp.reset : UchGrp := ⟨false, 0, none, false, none⟩

/-- What the Ethernet block keeps for a context (R340, R342, R345): whether a message was accepted since the context entered RUN or
MISSING, whether one was ever accepted, the supervision deadline; for a publication whether it runs, the words last published,
their time, the number of gaps passed since the change and the SIX of the next transmission; for a stream the second and count
of the last instant taken and the ASDUs of the frame being filled. -/
structure EthCtx where
  seen : Bool
  ever : Bool
  deadline : Option Nat
  pubOn : Bool
  pubWords : List Word
  pubTod : Nat × Nat
  gaps : Nat
  next : Nat
  svLast : Option Nat
  asdus : List Asdu
deriving DecidableEq, Repr

def EthCtx.reset : EthCtx := ⟨false, false, none, false, [], (0, 0), 0, 0, none, []⟩

/-- A frame that the redundancy layer has passed on and R334 has routed: where it waits (a context for GOOSE and sampled values, none
for the host queue), the port of its first copy, the SIX of its last bit. -/
structure Routed where
  ctx : Option Nat
  port : Nat
  six : Nat
  frame : EthFrame
deriving DecidableEq, Repr

/-- The Ethernet block (R333 to R349): contexts; by pair the frames seen (source, sequence number, SIX; newest first) and by sending
port those forwarded; the next sequence number by pair; SIX of the latest frame by port; the next supervision frame by pair;
routed frames, oldest first. -/
structure EthSt where
  ctx : KV EthCtx
  seen : KV (List (Nat × Nat × Nat))
  sent : KV (List (Nat × Nat × Nat))
  seq : KV Nat
  lastRx : KV Nat
  supNext : KV Nat
  waiting : List Routed
deriving DecidableEq, Repr
/-- A pending value-change batch (R226): SIX of the kick, owning task, entries (noun ID, offset, value) and the layout of each entry's
noun at the kick. -/
structure Batch where
  kick : Nat
  tid : Nat
  entries : List (Nat × Nat × Word)
  layouts : List Nat
deriving DecidableEq, Repr

/-- One compared effect of a cycle (R236, R277 section 12): kind 0 output word, 1 shelf word, 2 gate, 3 event, 4 note, 5 program value. -/
structure EffItem where
  kind : Nat
  index : Nat
  off : Nat
  val : Word
deriving DecidableEq, Repr

/-- A DMA channel (R213 to R219): the descriptor in progress, its position in the chain, and the 64 bytes at DST before its tag beat. -/
structure DmaChan where
  desc : Option Desc
  idx : Nat
  under : List Byte
deriving DecidableEq, Repr

def DmaChan.reset : DmaChan := ⟨none, 0, []⟩

/-- A change-journal entry (R254): the SIX, whether it gives the full state, qualities by fast channel and the binary signals. -/
structure JEntry where
  six : Nat
  full : Bool
  quals : List (Nat × Nat)
  bins : List (Nat × Bool)
deriving DecidableEq, Repr

/-- A line of the slow ring (R255), with the entries whose decimated value R100 made MISSING (R272). -/
structure SlowLine where
  b : Nat
  vals : List (Int × Nat)
  slots : List Word
  rel : Nat
  clean : Nat
  holes : List Nat
deriving DecidableEq, Repr

/-- A replay capture (R258): a partition's nouns (ID, layout, words), a frozen region with its task, the grid values of a block that
a partition declares, by channel key with quality, the effects of an output release. -/
inductive RplCap where
  | nouns (six part : Nat) (body : List (Nat × Nat × List Word))
  | image (rel tid part : Nat) (region : KV Word) (size : Nat)
  | grid (g part : Nat) (vals : List (Nat × Int × Nat))
  | effects (six tid part : Nat) (clean : Bool) (items : List EffItem)
deriving DecidableEq, Repr

/-- A gap entry (R272, R277). -/
structure Gap where
  start : Nat
  len : Nat
  ch : Nat
  cause : Nat
deriving DecidableEq, Repr

/-- An entry of the EVENTS section (R277): type 1 value change, 2 time step, 3 retrigger. -/
structure LftEvent where
  six : Nat
  typ : Nat
  tid : Nat
  cmask : Nat
  off : Nat
  noun : Nat
  old : Word
  new : Word
  epoch : Nat
  step : Int
deriving DecidableEq, Repr

/-- A record (R275 to R277): header fields, recorded channels, and its sections; lists of lines and entries newest first. `size` is
what it holds in bytes, `room` what is reserved for it (R280), `cutAt` the SIX of a cut that awaits its closing (R282), `stop` the SIX at
which a configuration closes it. EXTEND, POST and HISTMASK are those of its trigger (R282); `decls` are the declared items and region
lengths of the captured tasks (R258). -/
structure LftRec where
  recno : Nat
  recipe : Nat
  state : Nat
  replay : Bool
  extended : Bool
  host : Bool
  clipped : Bool
  prot : Bool
  outside : Bool
  cmask : Nat
  trig : Nat
  start : Nat
  fin : Nat
  rearm : Nat
  dead : Nat
  pcc : Nat
  epoch : Nat
  todSec : Nat
  todNs : Nat
  part : Nat
  offset : Int
  fpSeq : Nat
  fpDigest : BitVec 256
  progDigest : BitVec 256
  fasts : List Nat
  slows : List Nat
  pvs : List Nat
  bins : List Nat
  infos : List (Nat × Nat × ChanInfo)
  fast : List (Nat × List Int)
  qual0 : List Nat
  quals : List (Nat × Nat × Nat)
  slow : List SlowLine
  bin0 : Nat
  binCh : List (Nat × Nat × Bool)
  gaps : List Gap
  events : List LftEvent
  hists : List (Nat × Word × Word × KV Nat)
  caps : List RplCap
  capFrom : Option Nat
  size : Nat
  room : Nat
  cutAt : Option Nat
  stop : Option Nat
  extend : Bool
  post : Nat
  histMask : Nat
  decls : List (Nat × List (Nat × DeclKind) × Nat)
deriving DecidableEq, Repr

/-- A recipe (R265, R268 to R271): clause, run counter, timer, next SIX to evaluate; the HOST trigger waiting; the record being
extracted with the next line, the credit in 1/840 byte, the qualities and signals last written; and the active
clause (none while the sentence stands) with the SIX of each change, newest first. -/
structure Recipe where
  clause : Nat
  run : Nat
  timer : Nat
  next : Nat
  host : Bool
  recno : Option Nat
  pos : Nat
  credit : Nat
  lastQ : List Nat
  lastB : List Bool
  past : List (Nat × Option Nat)
deriving DecidableEq, Repr

def Recipe.reset : Recipe := ⟨0, 0, 0, 0, false, none, 0, 0, [], [], []⟩

/-- A comparator (R264): next SIX, output, and outputs (SIX, output, usable), newest first. -/
structure CmpSt where
  next : Nat
  out : Bool
  outs : List (Nat × Bool × Bool)
deriving DecidableEq, Repr

def CmpSt.reset : CmpSt := ⟨0, false, []⟩

/-- A histogram unit: its bins, and whether CLEAR waits. -/
structure HistSt where
  bins : KV Nat
  next : Nat
  clear : Option Nat
deriving DecidableEq, Repr

def HistSt.reset : HistSt := ⟨[], 0, none⟩

/-- An export (R284) with the window that its GO has checked. -/
structure ExpJob where
  recno : Nat
  mode : Nat
  qbits : Bool
  first : Nat
  n : Nat
deriving DecidableEq, Repr

/-- The configuration and the program image in force from a SIX on (R275): INJ_CFG_SEQ and digests. -/
structure LftIdent where
  fpSeq : Nat
  fpDigest : BitVec 256
  progDigest : BitVec 256
deriving DecidableEq, Repr

/-- The Loft (R253 to R285): next ring line and the SIX at which capture started; the journal, newest first, with the qualities and
signals of the latest line; the slow ring and the replay ring, newest first, with the bytes the latter holds; value slots and
program flags with the SIX of each change, newest first; comparators, recipes, histograms; tasks that released at the latest
boundary with their clean bits; the next record number; the record being exported;
the archive, oldest record first; bytes written to the archive with their SIX; the SIX of the
decision whose STEM buffer is being archived; value changes and time steps within the ring's depth, newest first; timed events that
fell due (unit, SIX), newest first; the first SIX whose replay capture still stands whole (R272). Next SIX of the journal and next boundary of
the slow ring; entries written to the journal and bytes written to the replay ring, which give the place of the next; configuration and
program in force, with the SIX of each change, newest first. -/
structure LftSt where
  next : Nat
  start : Nat
  jrn : List JEntry
  jq : KV Nat
  jb : Nat
  slow : List SlowLine
  rpl : List RplCap
  rplBytes : Nat
  slots : KV (List (Nat × Word))
  flags : List (Nat × Nat)
  cmps : KV CmpSt
  recs : KV Recipe
  hists : KV HistSt
  rels : List (Nat × Nat × Bool)
  nextNo : Nat
  exp : Option ExpJob
  arc : List LftRec
  wr : List (Nat × Nat)
  scap : Option Nat
  evts : List LftEvent
  fires : List (Nat × Nat)
  rplFrom : Nat
  jnext : Nat
  slowNext : Nat
  jpos : Nat
  rplPos : Nat
  ident : List (Nat × LftIdent)
deriving DecidableEq, Repr
/-- A replay (R248 to R250): the image, the record as read, its captures and value changes still to come (oldest first); what the
recorded run and the replay have last released; whether results are comparable, tasks that are not any more; by task what its
latest replayed cycle released and whether it completed, none before it has run; the SIX up to which shelves have been exchanged;
ID and layout of the recorded nouns. -/
structure Replay where
  img : Partition
  record : LftRec
  todo : List RplCap
  chg : List LftEvent
  refOut : KV Word
  refBack : KV (KV Word)
  refGates : Nat
  whole : Bool
  tasks : List Nat
  runs : KV (Option (Bool × List EffItem))
  exPos : Nat
  lays : List (Nat × Nat)
deriving DecidableEq, Repr

/-- Online change (R226 to R251): phase of the code replacement as CHG_STATE counts it, without refused and aborted; the pending
batch; the image at the LOAD kick, and once verified the partition image replaced in; the SIX of the LOAD kick, h0 and H; whether the shadow runs, on which
lane; the shadow's released outputs, shelves (front and back) and gates; its tasks; tasks not comparable; entries of the
difference log used; the replay; the length of the copy of an old noun that a migration call reads (R241). -/
structure OlcSt where
  phase : Nat
  vc : Option Batch
  cand : Option Image
  img : Option Partition
  switchAt : Option Nat
  loadSix : Nat
  h0 : Nat
  lane : Nat
  shadow : Bool
  out : KV Word
  front : KV (KV Word)
  back : KV (KV Word)
  gates : Nat
  rt : KV TaskRt
  nocmp : List Nat
  diffs : Nat
  rpl : Option Replay
  copyLen : Nat
deriving DecidableEq, Repr


/-- A Sync that awaits its Follow_Up (R312), or a peer-delay response that awaits its own: port, sourcePortIdentity, sequenceId, local time
of its arrival, and what it carried (correctionField; request receipt time, in ns); `resp` tells the second from the first. -/
structure PtpHalf where
  resp : Bool
  port : Nat
  clockId : Nat
  portNo : Nat
  seq : Nat
  local_ : Int
  corr : Int
  origin : Int
deriving DecidableEq, Repr

/-- An Announce in force (R313): port, sender, SIX of its arrival, the samples for which it counts, and what it says. -/
structure Announce where
  port : Nat
  clockId : Nat
  portNo : Nat
  six : Nat
  span : Nat
  data : AnnData
deriving DecidableEq, Repr

/-- A step that waits for the next SIX (R318, R319, R322): the SIX of its request, its size, its cause. -/
structure StepReq where
  at_ : Nat
  size : Int
  cause : Nat
deriving DecidableEq, Repr

/-- An outstanding peer-delay request of a port (R312): sequenceId, time of sending; and the SIX of the next request. -/
structure PdReq where
  next : Nat
  seq : Nat
  sent : Option Int
deriving DecidableEq, Repr

def PdReq.reset : PdReq := ⟨0, 0, none⟩

/-- A capture (R330): SIX, seconds, nanoseconds, epoch, rising edge, VALID. -/
structure Capture where
  six : Nat
  sec : Nat
  ns : Nat
  epoch : Nat
  rise : Bool
  valid : Bool
deriving DecidableEq, Repr

/-- A pulse of a timed-event unit (R327): its pins and the end in ns of the time base counted from SIX 0. -/
structure Pulse where
  unit : Nat
  mask : Nat
  fin : Nat
deriving DecidableEq, Repr

/-- The time unit (R308 to R332) beside its registers. The servo: the last accepted measurement, consecutive outliers (newest first;
without an accepted measurement the measurements), whether the next measurement counts as accepted, the run of accepted ones within 200 ns and beyond, grandmaster, port and
link delay at the last accepted one, the latest measurement, the frequency correction that the servo asks for, the frequency last held in LOCKED. Holdover: its start, whether entered from
LOCKED, the run of agreeing measurements. Then: steps that wait and the SIX and size of the latest one; sources that deliver; SIX and interval of
the latest Sync, SIX of the latest PPS edge; PTP messages routed here with port and SIX, oldest first; halves of two-step exchanges; announces in
force; peer-delay requests by port; amounts of the transparent clock (source, sequence, amount, SIX); the leap instant in ns with the offset
after it; SIX of the latest write of the real-time counter; the level of PPS_OUT and the SIX at which it falls. Timed events: working target by unit, pulses; capture queues. -/
structure TimSt where
  base : Option Int
  outs : List Int
  takeNext : Bool
  near : Nat
  far : Nat
  gmLast : Nat
  portLast : Nat
  dLast : Nat
  latest : Int
  freqGoal : Int
  freqLock : Int
  holdSix : Nat
  fromLock : Bool
  agree : Nat
  steps : List StepReq
  stepSix : Option Nat
  stepSize : Int
  ptp : Bool
  pps : Bool
  syncSix : Nat
  syncSpan : Nat
  ppsSix : Nat
  inbox : List (Nat × Nat × PtpMsg)
  halves : List PtpHalf
  anns : List Announce
  pd : KV PdReq
  held : List (Nat × Nat × Nat × Int × Nat)
  leap : Option (Nat × Int)
  rtcSix : Nat
  ppsOut : Bool
  ppsEnd : Nat
  targets : KV Nat
  pulses : List Pulse
  caps : KV (List Capture)
deriving DecidableEq, Repr

/-- Operating states, supply and clocks (R402 to R425, R436, R444) beside the registers. MAINT: the hyperboundary of a pending entry, that of a
pending end with the program kept. STEM: the detection SIX of the first cause that has not been entered; the causes that have stood since the entry. The
SIX at which the latest entry into STEM or HALT is complete, and whether a final Pantry snapshot is due then. Start-up (R403): from VMAIN good or the
request of a warm reset to the first release; the latest SIX at which the fast path arms; the SIX from which the restart of the lanes is
prepared; whether it follows a warm reset. The cause of a requested warm reset; RST_N held low; the start that RST_N holds (0 none, 1 cold, 2 warm).
Supply: the SIX from which the engine runs on hold-up, whether that brownout has entered the hold-up window, whether overvoltage
disconnected the input, the SIX from which VMAIN has been good again; whether over-temperature has cleared; whether a brownout ended a warm
reset; whether the Cellar has stopped; the level of SUPPLY_WARN; the lane under reset. -/
structure PwrSt where
  maintAt : Option Nat
  resumeAt : Option Nat
  stemSix : Option Nat
  seen : Nat
  settleAt : Option Nat
  finalDue : Bool
  startup : Bool
  armBy : Option Nat
  prep : Option Nat
  kept : Bool
  warm : Option Nat
  rstLow : Bool
  held : Nat
  hold : Nat
  inWindow : Bool
  ovr : Bool
  goodSix : Option Nat
  cool : Bool
  coldNext : Bool
  celStop : Bool
  warnPin : Bool
  lane : Option Nat
deriving DecidableEq, Repr

def PwrSt.reset : PwrSt :=
  ⟨none, none, none, 0, none, false, false, none, none, false, none, false, 0, 0, false, false, none, false, false, false, false, none⟩

/-- The state of the block. -/
structure State where
  /-- Sample index and time mapping (R23 to R27). -/
  clk : Clk
  /-- Every BAR0 register whose word differs from its Reset value, by offset; per-function registers of PF1 and per-view registers of the privileged view stand 0x1000000 above (R9, R15). -/
  regs : KV Word
  /-- The Cellar. -/
  cel : CelSt
  /-- Host side of PF0 and PF1. -/
  fns : KV FnSt
  /-- Security island. -/
  sec : SecSt
  /-- Hjelig ports 0 to 43. -/
  ports : KV Port
  /-- Station whose rebind waits for the hyperboundary (R70). -/
  rebind : Option Nat
  /-- Sample fabric. -/
  fab : FabSt
  /-- Binary inputs. -/
  bin : BinSt
  /-- Interjection unit. -/
  inj : InjSt
  /-- The fast-path configuration in force (R132), with what it gives beside the registers. -/
  fp : FpConfig
  /-- The addressed memories by the space codes of R214: 1 common SRAM, 2 DRAM, 3 flash, 4 host memory, 5 to 8 lane code memories, 9 to 12 lane data memories, 13 P2 SRAM; an unlisted byte reads 0. -/
  mem : KV (KV Byte)
  /-- Lanes LN0 to LN3 beside their registers. -/
  lanes : KV LaneSt
  /-- Tasks and cycles. -/
  tsk : TskSt
  /-- The force table beside its registers. -/
  frc : KV FrcSt
  /-- Universal channels UCH0 to UCH15 beside their registers. -/
  uch : KV UchSt
  /-- The four groups of universal channels. -/
  uchGrp : KV UchGrp
  /-- The Ethernet block beside its registers. -/
  eth : EthSt
  /-- Value changes, code replacement, shadow run and replay. -/
  olc : OlcSt
  /-- The Loft. -/
  lft : LftSt
  /-- DMA channels 0 to 15 beside their registers. -/
  dma : KV DmaChan
  /-- Corrections of each memory within the running scrub pass. -/
  ecc : KV Nat
  /-- Operating states, supply and clocks. -/
  pwr : PwrSt
  /-- The time unit beside its registers. -/
  tim : TimSt
  /-- What has left the engine in the current sample period, newest first: the model's own field, emptied by SIX_ADVANCE. -/
  outbox : List Out
  /-- The queue of commands that wait, first in first out. -/
  pending : List Instr
deriving DecidableEq, Repr

/-- Why a step faults: for no reason. Every command the surroundings can give has an effect the spec states (a refusal the engine
answers is a next state with its cause recorded), so the type has no constructor and no step ends in a fault. -/
inductive Fault where
deriving DecidableEq, Repr

/-- Why a step refuses. -/
inductive Refusal where
  /-- Answered by exec alone, for a command that has no meaning yet. Safe: no next state is claimed. -/
  | notModelled (mnemonic : String)
deriving DecidableEq, Repr

/-- The block right after reset: every register at its Reset value, every memory empty, nothing running; the log names the
values the spec does not give. -/
def State.reset : State where
  clk := ⟨0, false, [⟨0, 0, 0, false⟩], 0⟩
  regs := []
  cel := ⟨[], [], 0, 0, [], 0, 0, 0, 0, 0, 0, [], false, 0, 0, [], [], 0, 0, none⟩
  fns := []
  sec := ⟨false, [], [], [], [], none, none, none, 0, [], none, none, none, 0, 0, [], [], false, 0, none, none, 0, [], (0, 0)⟩
  ports := []
  rebind := none
  fab := ⟨[], [], [], []⟩
  bin := ⟨[], none⟩
  inj := ⟨[], [], [], [], [], [(0, 0)], [], [], 0, 0, none, 0, [], [], 0, []⟩
  fp := ⟨0, [], [], [], [], [], [], [], [], [], "", false, 0⟩
  mem := []
  lanes := []
  tsk := ⟨none, false, 0, [], [], [], [], [], [], [], [], none, none, none⟩
  frc := []
  uch := []
  uchGrp := []
  eth := ⟨[], [], [], [], [], [], []⟩
  olc := ⟨0, none, none, none, none, 0, 0, 0, false, [], [], [], 0, [], [], 0, none, 0⟩
  lft := ⟨0, 0, [], [], 0, [], [], 0, [], [], [], [], [], [], 1, none, [], [], none, [], [], 0, 0, 0, 0, 0, []⟩
  dma := []
  ecc := []
  pwr := PwrSt.reset
  tim := ⟨none, [], false, 0, 0, 0, 0, 0, 0, 0, 0, 0, false, 0, [], none, 0, false, false, 0, 0, 0, [], [], [], [], [], none, 0, false, 0, [], [], []⟩
  outbox := []
  pending := []

end Sys2Proof.Machine
end

