-- ==== Sys2Proof/Machine/Ops.lean ====
section
/-!
DEFINITION. Machine/Ops.lean: the named operations every family uses: registers and fields, event bits and interrupts, time of day,
presenting an entry to the Cellar, free values, and the shared access check of host writes (R10 to R14, R376, R377).
-/
namespace Sys2Proof.Machine
open Sys2Proof

/-! ## Registers -/

/-- BAR0 offset of what exists a second time for PF1 or for the privileged view. -/
def fnShift (pf : Nat) : Nat := 0x1000000 * pf

/-- Does offset `o` from the base of a register kind name one of its instances? Answers the offset inside that instance. -/
def dimsOffset : List (Nat × Nat × Nat) → Nat → Option Nat
  | [], o => some o
  | (stride, lo, hi) :: ds, o =>
    let i := o / stride
    if i < lo then none
    else if i ≤ hi then dimsOffset ds (o % stride)
    else none

/-- The register kind at BAR0 offset `a`, with 0 for its (low) word and 1 for its high word. -/
def findReg : List RegDesc → Nat → Option (RegDesc × Nat)
  | [], _ => none
  | d :: ds, a =>
    if a < d.base then findReg ds a
    else match dimsOffset d.dims (a - d.base) with
      | some 0 => some (d, 0)
      | some 4 => if d.is64 then some (d, 1) else findReg ds a
      | _ => findReg ds a

/-- The register kind at BAR0 offset `a`. -/
def regAt (a : Nat) : Option (RegDesc × Nat) :=
  let o := a % 0x1000000
  findReg (regBlock (o / 0x10000)) o

/-- Is `a` the word at `base + stride * i` for some `i < n`? -/
def isInst (base stride n a : Nat) : Bool := base ≤ a && (a - base) % stride == 0 && (a - base) / stride < n

/-- The Reset value of the word at offset `a` (R15); a reserved offset reads as zero (R375). DMA_Cc_CTL of channels 8 to 15 resets
to OWNER 4. -/
def resetWord (a : Nat) : Word :=
  match regAt a with
  | some (d, h) =>
    if isInst (A.DMA_C_CTL 8) (A.DMA_C_CTL 1 - A.DMA_C_CTL 0) 8 a then 4
    else BitVec.ofNat 32 (d.reset / 2 ^ (32 * h))
  | none => 0

/-- The word of the register at offset `a`. -/
def State.rd (s : State) (a : Nat) : Word := kvGet resetWord s.regs a

/-- The register at offset `a` takes the word `w`. -/
def State.wr (s : State) (a : Nat) (w : Word) : State := { s with regs := kvPut resetWord s.regs a w }

/-- The value of bits `lo` to `lo + width - 1` of a word. -/
def fieldOf (w : Word) (lo width : Nat) : Nat := w.toNat / 2 ^ lo % 2 ^ width

/-- The word with bits `lo` to `lo + width - 1` replaced by the low bits of `v`. -/
def withField (w : Word) (lo width v : Nat) : Word :=
  BitVec.ofNat 32 (w.toNat % 2 ^ lo + v % 2 ^ width * 2 ^ lo + w.toNat / 2 ^ (lo + width) * 2 ^ (lo + width))

/-- The value of a field. -/
def State.get (s : State) (f : Field) : Nat := fieldOf (s.rd f.addr) f.lo f.width

/-- A field takes the low bits of `v`; the other fields of its register stay. -/
def State.set (s : State) (f : Field) (v : Nat) : State := s.wr f.addr (withField (s.rd f.addr) f.lo f.width v)

/-- Is a one-bit field set? -/
def State.flag (s : State) (f : Field) : Bool := s.get f != 0

/-- A counter field counts up by `n`, saturating. -/
def State.bumpBy (s : State) (f : Field) (n : Nat) : State := s.set f (min (s.get f + n) (2 ^ f.width - 1))

/-- A counter field counts up by one, saturating. -/
def State.bump (s : State) (f : Field) : State := s.bumpBy f 1

/-- A 64-bit register as a number. -/
def State.get64 (s : State) (a : Nat) : Nat := (s.rd a).toNat + 2 ^ 32 * (s.rd (a + 4)).toNat

/-- A 64-bit register takes the low 64 bits of `v`. -/
def State.set64 (s : State) (a v : Nat) : State :=
  (s.wr a (BitVec.ofNat 32 v)).wr (a + 4) (BitVec.ofNat 32 (v / 2 ^ 32))

/-- The same field in the second copy of a register that exists per function or per view. -/
def Field.at (f : Field) (pf : Nat) : Field := { f with addr := f.addr + fnShift pf }

/-- A field one bit wide at bit `i` of a register. -/
def bitField (a i : Nat) : Field := ⟨a, i, 1⟩

/-- The sample index. -/
def State.six (s : State) : Nat := s.clk.six

/-- The operating state (R38): 0 SERVICE, 1 STEM, 2 HALT, 3 MAINT. -/
def State.opstate (s : State) : Nat := s.get F.PWR_STATE.OPSTATE

/-! ## Interrupts -/

def State.fn (s : State) (pf : Nat) : FnSt := kvGet (fun _ => FnSt.reset) s.fns pf

def State.setFn (s : State) (pf : Nat) (x : FnSt) : State := { s with fns := kvPut (fun _ => FnSt.reset) s.fns pf x }

/-- Something leaves the engine. -/
def State.emit (s : State) (o : Out) : State := { s with outbox := o :: s.outbox }

/-- One cause of vector `v` on function `pf` (R381): nothing with MSI-X Enable clear, the Pending Bit on a masked entry, else one
message unless one went within the last 1 µs. -/
def State.msix (s : State) (pf v : Nat) : State :=
  let f := s.fn pf
  let e := kvGet (fun _ => MsixVec.reset) f.vecs v
  if f.msixEn = false then s
  else if e.masked then
    s.setFn pf { f with vecs := kvPut (fun _ => MsixVec.reset) f.vecs v { e with pending := true } }
  else if e.lastSix.any (fun l => s.six < l + 2) then s
  else (s.setFn pf { f with vecs := kvPut (fun _ => MsixVec.reset) f.vecs v { e with lastSix := some s.six } }).emit (.msix pf v)

/-- The enable register of an event register: the next word, but for the two BIN_ pairs. -/
def ienOf (a : Nat) : Nat :=
  if a = A.BIN_CHAT_EVT ∨ a = A.BIN_PERS_EVT then a + 8 else a + 4

/-- The MSI-X vector that bit `b` of the event register at `a` raises (R380, and the vector rules of each chapter). -/
def vectorOf (a b : Nat) : Nat :=
  if a = A.ENG_EVT then 0
  else if a = A.PWR_EVT then (if b = 0 ∨ b = 6 then 1 else 2)
  else if a = A.CLK_EVT then 3
  else if a = A.SEC_EVT then (if b = 0 then 4 else 5)
  else if A.HJL_P_EVT 0 ≤ a ∧ a ≤ A.HJL_P_EVT 43 then (if b = 2 ∨ b = 7 then 7 else 6)
  else if a = A.SFB_EVT then 8
  else if a = A.BIN_CHAT_EVT ∨ a = A.BIN_PERS_EVT then 9
  else if a = A.INJ_EVT then (if b = 1 ∨ b = 6 then 11 else 10)
  else if a = A.TSK_EVT then 12
  else if a = A.LNE_EVT then 13
  else if a = A.DMA_EVT then (if b < 16 then 14 else 15)
  else if a = A.MPU_EVT then 15
  else if a = A.OLC_EVT then 16
  else if a = A.FRC_EVT then 17
  else if a = A.LFT_EVT then (if b < 8 then 18 else 19)
  else if a = A.CEL_EVT then (if b < 3 then 20 else 21)
  else if a = A.TIM_EVT then (if b < 7 then 22 else 23)
  else if a = A.ETH_EVT then (if b < 5 then 24 else 25)
  else (if b < 6 then 26 else 27)

/-- The event bit `f` is set; when it was 0 and its enable is set, its vector goes to both functions (R381). -/
def State.raise (s : State) (f : Field) : State :=
  let t := s.set f 1
  if s.flag f then t
  else if s.flag { f with addr := ienOf f.addr } then
    (t.msix 0 (vectorOf f.addr f.lo)).msix 1 (vectorOf f.addr f.lo)
  else t

/-! ## Time of day (R25 to R27) -/

/-- The mapping segment in force at SIX `k`: the newest that does not start after it, else the oldest. -/
def mapAt : List TimeMap → Nat → TimeMap
  | [], _ => ⟨0, 0, 0, false⟩
  | [m], _ => m
  | m :: ms, k => if m.six ≤ k then m else mapAt ms k

/-- Time of day at the start of sample period `k` under an offset, in nanoseconds since the epoch of time of day (the fragment of
"Time of day and the epoch"; 96-bit arithmetic wraps). -/
def todNs (k : Nat) (offset : Int) : Nat := unsigned 96 ((k : Int) * 500 + offset)

/-- Seconds (48 bits) and nanoseconds of the time of day at SIX `k`. -/
def State.tod (s : State) (k : Nat) : Nat × Nat :=
  let t := todNs k (mapAt s.clk.maps k).offset
  (t / 1000000000 % 2 ^ 48, t % 1000000000)

/-- The offset in force now. -/
def State.offset (s : State) : Int := (mapAt s.clk.maps s.six).offset

/-- The epoch in force now. -/
def State.epoch (s : State) : Nat := (mapAt s.clk.maps s.six).epoch

/-! ## Presenting entries to the Cellar (R288, R289, R294, R295) -/

/-- Capacity of the Cellar's queue (R294). -/
def celQueueMax : Nat := 1024

/-- The least severity in a list of raised entries. -/
def minSev : List Raised → Nat → Nat
  | [], m => m
  | e :: es, m => minSev es (min m e.sev)

/-- The list, given newest first, without its newest entry of severity `m`. -/
def dropNewest (m : Nat) : List Raised → List Raised
  | [] => []
  | e :: es => if e.sev = m then es else e :: dropNewest m es

/-- An entry enters the queue; a full queue discards the newest entry of the lowest severity, the new one included (R295). A Cellar stopped
at the end of hold-up takes none (R409). -/
def State.enqueue (s : State) (e : Raised) : State :=
  if s.pwr.celStop then s
  else if s.cel.queue.length < celQueueMax then
    { s with cel := { s.cel with queue := s.cel.queue ++ [e] } }
  else
    let rev := (s.cel.queue ++ [e]).reverse
    let s := { s with cel := { s.cel with queue := (dropNewest (minSev rev e.sev) rev).reverse, queueSince := s.cel.queueSince + 1 } }
    (s.bump F.CEL_DROP.QUEUE).raise F.CEL_EVT.DROP

/-- An engine entry tagged with SIX `k`, TEST mark `test`. Before SIX starts the entry has no SIX (R289). -/
def State.logFull (s : State) (code : EvCode) (sev k : Nat) (data : List Byte) (test : Bool) : State :=
  s.enqueue ⟨code, sev, if s.clk.running then some k else none, data, false, test, s.cel.rtcNs, none⟩

/-- An engine entry tagged with SIX `k`. -/
def State.logAt (s : State) (code : EvCode) (sev k : Nat) (data : List Byte) : State := s.logFull code sev k data false

/-- An engine entry tagged with the SIX of detection, now (R289). -/
def State.log (s : State) (code sev : Nat) (data : List Byte) : State := s.logAt (.num code) sev s.six data

/-- An engine entry whose code and severity the spec does not number. -/
def State.logNamed (s : State) (name : String) (data : List Byte) : State :=
  s.logAt (.named name) (Config.sevOf name).toNat s.six data

/-- An engine entry whose code the spec does not number and whose severity it states. -/
def State.logNamedSev (s : State) (name : String) (sev : Nat) (data : List Byte) : State :=
  s.logAt (.named name) sev s.six data

/-! ## Free values -/

/-- The next number that picks a free value, and the state with the counter advanced. -/
def State.fresh (s : State) : Nat × State := (s.clk.free, { s with clk := { s.clk with free := s.clk.free + 1 } })

/-! ## Access of the host (R10 to R14, R376, R377) -/

/-- Is function `pf` the privileged view now (R376)? -/
def State.privView (s : State) (pf : Nat) : Bool := pf == 1 && s.sec.session.isSome

/-- The view of function `pf`: 1 privileged, 0 public. -/
def State.view (s : State) (pf : Nat) : Nat := b2n (s.privView pf)

/-- A denied write through function `pf` (R377). -/
def State.deny (s : State) (pf cause off : Nat) : State :=
  let s := s.bump (F.ENG_DENY_CNT.N.at pf)
  let s := (s.set (F.ENG_DENY_LAST.OFFSET.at pf) off).set (F.ENG_DENY_LAST.CAUSE.at pf) cause
  (s.raise F.ENG_EVT.DENY).log 0x008B 0 (leBytes 1 pf ++ leBytes 1 cause ++ leBytes 2 0 ++ leBytes 4 off)

/-- A PF1 BAR0 access restarts the session's idle time (R386). -/
def State.touch (s : State) (pf : Nat) : State :=
  if pf = 1 then { s with sec := { s.sec with session := s.sec.session.map (fun x => { x with lastAcc := s.six }) } } else s

/-- Registers that write in the privileged view only, under OPERATE (R376): every *_IEN register and those that the classes of
R376 name without a row of their own rule. -/
def operateReg (a : Nat) : Bool :=
  isInst (A.HJL_P_IEN 0) 64 44 a || a == A.SFB_IEN || a == A.BIN_CHAT_IEN || a == A.BIN_PERS_IEN || a == A.INJ_IEN ||
  a == A.LNE_IEN || a == A.TSK_IEN || a == A.MPU_IEN || a == A.DMA_IEN || a == A.OLC_IEN || a == A.FRC_IEN || a == A.LFT_IEN ||
  a == A.CEL_IEN || a == A.TIM_IEN || a == A.ETH_IEN || a == A.UCH_IEN || a == A.ENG_IEN || a == A.SEC_IEN || a == A.PWR_IEN ||
  a == A.CLK_IEN || a == A.MPU_HWIN || a == A.HJL_READMIT || a == A.HJL_REBIND || a == A.INJ_TDO_RST || a == A.INJ_SCAP_CTL ||
  a == A.LFT_TRIG || isInst (A.LFT_H_CTL 0) 16 64 a || a == A.TIM_CTL || a == A.TIM_HSTEP || a == A.TIM_HSTEP + 4 ||
  (0x21000 ≤ a && a < 0x22000) || isInst (A.UCH_C_HCTL 0) (A.UCH_C_HCTL 1 - A.UCH_C_HCTL 0) 64 a ||
  (0xD2000 ≤ a && a < 0xD4000) || a == A.ENG_SESS_CTL || a == A.PWR_CMD

/-- The number of the right that a write at `a` needs in the privileged view (R376): 0 OPERATE, 1 CHANGE; none for a register that
writes in either view. -/
def writeRight (a : Nat) : Option Nat :=
  if operateReg a then some 0
  else if 0x90000 ≤ a ∧ a < 0xA0000 then some 1
  else none

/-- The rights of the open session. -/
def State.rights (s : State) : Nat := (s.sec.session.map (·.rights)).getD 0

/-- The cause for which a write through `pf` that needs right `r` in the privileged view is denied, if any (R376). -/
def State.rightCause (s : State) (pf : Nat) : Option Nat → Option Nat
  | none => none
  | some r => if !s.privView pf then some 1 else if !bit s.rights r then some 2 else none

/-- Every bit that a field of the register owns; the others are reserved (R13). -/
def RegDesc.defined (d : RegDesc) : Nat := d.set ||| d.knock ||| d.take ||| d.kick ||| d.look

/-- The access check of a write of `w` at offset `a` through `pf`: `ignored` says that `w` holds a reserved code or a value that a
table says is ignored (R14), `right` is the right that the write needs. The answer says whether the write acts; the state has
the denial counted: cause 4 for a reserved offset or an ignored value, 1 or 2 for view and right, and cause 4 for a reserved
field written other than zero, where the write still acts (R13). -/
def State.gate (s : State) (pf a : Nat) (w : Word) (right : Option Nat) (ignored : Bool) : Bool × State :=
  let s := s.touch pf
  match regAt a with
  | none => (false, s.deny pf 4 a)
  | some (d, h) =>
    match s.rightCause pf right with
    | some c => (false, s.deny pf c a)
    | none =>
      if ignored then (false, s.deny pf 4 a)
      else if w &&& ~~~(BitVec.ofNat 32 (d.defined / 2 ^ (32 * h))) != 0 then (true, s.deny pf 4 a)
      else (true, s)

/-- Does a word that is written at `a` set a reserved field there (R13)? -/
def setsReserved (a : Nat) (w : Word) : Bool :=
  match regAt a with
  | some (d, h) => w &&& ~~~(BitVec.ofNat 32 (d.defined / 2 ^ (32 * h))) != 0
  | none => false

/-- The right CHANGE, and the right OPERATE, as the gate asks for them. -/
def needsChange : Option Nat := some 1
def needsOperate : Option Nat := some 0

/-- A write of `hi` to the high word of the 64-bit register at `a` through `pf` (R379): the value that it commits, with the low word
of the write shadow when the tag names the register, else with the current low word and SPLIT64. -/
def State.commit64 (s : State) (pf a : Nat) (hi : Word) : Nat × State :=
  let f := s.fn pf
  if f.wrTag = some a then (f.wrLow.toNat + 2 ^ 32 * hi.toNat, s.setFn pf { f with wrTag := none })
  else ((s.rd a).toNat + 2 ^ 32 * hi.toNat, s.raise F.ENG_EVT.SPLIT64)

/-- Did the write act? Then `act` on the checked state, else only the denial stands. -/
def whenAllowed (g : Bool × State) (act : State → State) : State := if g.1 then act g.2 else g.2

end Sys2Proof.Machine
end

