-- ==== Sys2Proof/Machine/Fab.lean ====
section
/-!
DEFINITION. Machine/Fab.lean: stream contexts and the sample fabric (R84 to R103): filing samples, context states, the filters, the
grid of sampled values.
-/
namespace Sys2Proof.Machine
open Sys2Proof

/-! ## Contexts and samples -/

/-- Depth of the rings in which samples and derived values stand, that of the Loft ring (R253). -/
def ringDepth : Nat := 16777216

/-- Channel key of channel `c` of context `n`. -/
def chKey (n c : Nat) : Nat := 32 * n + c

/-- Channel key of fast channel FCn (R36). -/
def fcKey (n : Nat) : Nat := chKey (n / 8) (n % 8)

/-- Quality bits of R102. -/
def qVALID : Nat := 1
def qLATE : Nat := 2
def qMISSING : Nat := 4
def qSETTLE : Nat := 8
def qOVER : Nat := 16
def qFORCED : Nat := 32
def qTEST : Nat := 64
def qSUBST : Nat := 128

def State.ctx (s : State) (n : Nat) : Ctx := kvGet (fun _ => Ctx.reset) s.fab.ctx n

def State.setCtx (s : State) (n : Nat) (c : Ctx) : State :=
  { s with fab := { s.fab with ctx := kvPut (fun _ => Ctx.reset) s.fab.ctx n c } }

/-- State of context `n` (R86). -/
def State.ctxState (s : State) (n : Nat) : Nat := s.get (F.SFB_C_STATE.STATE n)

/-- Kind of context `n` (R84). -/
def State.kind (s : State) (n : Nat) : Nat := s.get (F.SFB_C_CFG.KIND n)

/-- Channels of context `n`. -/
def State.nch (s : State) (n : Nat) : Nat := s.get (F.SFB_C_CFG.NCH n)

/-- Last value of a channel received with MISSING clear since its context left ARMED (R95). -/
def State.lastVal (s : State) (key : Nat) : Int := kvGet (fun _ => 0) s.fab.last key

/-- The listed sample of a channel at SIX `k`. -/
def State.listed (s : State) (key k : Nat) : Option Samp :=
  match kvGet (fun _ => none) (kvGet (fun _ => []) s.fab.samp key) (k % ringDepth) with
  | some x => if x.six = k then some x else none
  | none => none

/-- A MISSING value of SIX `k` that holds `v`, known since SIX `done`. -/
def missingSamp (k : Nat) (v : Int) (done : Nat) : Samp := ⟨k, v, qMISSING, false, false, false, done⟩

/-- The value held in the MISSING span that covers SIX `k` and the SIX in which that span became known, if one does: a past span, the
standing one, or the time before the context received anything. -/
def Ctx.heldAt (x : Ctx) (ch k : Nat) (now : Int) : Option (Int × Nat) :=
  match x.gaps.find? (fun g => g.1 ≤ k && k < g.2.2.1) with
  | some g => some (g.2.2.2.getD ch 0, g.2.1)
  | none =>
    match x.missFrom with
    | some m => if m.1 ≤ k then some (now, m.2) else if k < x.runFrom then some (0, 0) else none
    | none => if k < x.runFrom then some (0, 0) else none

/-- Does the sample fabric run (R38)? -/
def State.fabricOn (s : State) : Bool := s.opstate != 1 && s.opstate != 2

/-- The sample of channel `c` of context `n` for SIX `k`: the listed one, a MISSING one, or none while it is unknown (R111). -/
def State.sampAt (s : State) (n c k : Nat) : Option Samp :=
  match s.listed (chKey n c) k with
  | some x => some x
  | none =>
    if s.ctxState n < 2 then some (missingSamp k 0 0)
    else ((s.ctx n).heldAt c k (s.lastVal (chKey n c))).map (fun h => missingSamp k h.1 h.2)

/-- A sample is filed under its SIX; a received value becomes the value that later MISSING ones hold. -/
def State.fileSamp (s : State) (n c : Nat) (x : Samp) : State :=
  let key := chKey n c
  let ring := kvPut (fun _ => none) (kvGet (fun _ => []) s.fab.samp key) (x.six % ringDepth) (some x)
  let last := if bit x.q 2 then s.fab.last else kvPut (fun _ => 0) s.fab.last key x.code
  { s with fab := { s.fab with samp := kvPut (fun _ => []) s.fab.samp key ring, last := last } }

/-- Number of contexts 0 to 255 whose state satisfies `p`. -/
def State.countCtx (s : State) (p : Nat → Bool) : Nat := ((List.range 256).filter (fun n => p (s.ctxState n))).length

/-- SFB_STATUS counts the contexts by state. -/
def State.sfbCounts (s : State) : State :=
  (s.set F.SFB_STATUS.RUN_N (s.countCtx (fun x => x == 2 || x == 3))).set F.SFB_STATUS.MISS_N (s.countCtx (fun x => x == 4))

/-- Samples or grid values of context `n` are marked MISSING (SFB_Cn_CNT), while the fabric runs. -/
def State.countMiss (s : State) (n k : Nat) : State := if s.fabricOn then s.bumpBy (F.SFB_C_CNT.MISS n) k else s

/-- Context `n` enters state `x`, with the events of SFB_EVT while the fabric runs. -/
def State.setCtxState (s : State) (n x : Nat) : State :=
  let old := s.ctxState n
  let t := (s.set (F.SFB_C_STATE.STATE n) x).sfbCounts
  if !s.fabricOn then t
  else if x = 4 ∧ old ≠ 4 then t.raise F.SFB_EVT.CTX_MISSING
  else if x = 2 ∧ (old = 3 ∨ old = 4) then t.raise F.SFB_EVT.CTX_RUN
  else if x = 3 ∧ old ≠ 3 then t.raise F.SFB_EVT.CTX_SUBST
  else t

/-- Context `n` is MISSING from SIX `k` on (R86). -/
def State.ctxMissing (s : State) (n k : Nat) : State :=
  let x := s.ctx n
  let s := if x.missFrom.isSome then s else s.setCtx n { x with missFrom := some (k, s.six) }
  if s.ctxState n < 2 then s else s.setCtxState n 4

/-- A standing MISSING span of context `n` ends: values count from SIX `k` on. -/
def State.ctxReceiving (s : State) (n k : Nat) : State :=
  let x := s.ctx n
  match x.missFrom with
  | none => s
  | some m =>
    let held := (List.range 32).map (fun c => s.lastVal (chKey n c))
    s.setCtx n { x with
      missFrom := none, gaps := (m.1, m.2, k, held) :: x.gaps.filter (fun g => s.six < g.2.2.1 + ringDepth) }

/-- Settling starts at SIX `c` for the quantities in `mask` (R97). -/
def State.settle (s : State) (n c mask : Nat) : State :=
  let x := s.ctx n
  s.setCtx n { x with settles := (c, mask) :: x.settles.filter (fun y => s.six < y.1 + ringDepth) }

/-! ## Exact arithmetic -/

/-- Nearest integer to `num / den`, ties to even (R90). -/
def rnd (num : Int) (den : Nat) : Int :=
  let q := Int.tdiv num den
  let r := num - q * den
  if 2 * r.natAbs > den ∨ (2 * r.natAbs = den ∧ q % 2 ≠ 0) then q + num.sign else q

/-- Saturation to s32 with its flag (R90). -/
def sat32 (v : Int) : Int × Bool :=
  let c := clampInt (-2147483648) 2147483647 v
  (c, c != v)

/-- The next row of Pascal's triangle. -/
def pascalNext (r : List Nat) : List Nat := List.zipWith (· + ·) (0 :: r) (r ++ [0])

/-- Row `n` of Pascal's triangle. -/
def pascal : Nat → List Nat
  | 0 => [1]
  | n + 1 => pascalNext (pascal n)

/-- pi with 100 binary places, rounded down. -/
def piFix : Nat := 3982441812995697363688351113952

/-- The Taylor sum of the sine (`k` odd) or cosine (`k` even): `fuel` terms of angle `x` with 100 binary places, from the term
`t` of degree `k`. -/
def taylor : Nat → Int → Int → Nat → Int
  | 0, _, _, _ => 0
  | f + 1, x, t, k => t + taylor f x (-(t * x / 2 ^ 100 * x / 2 ^ 100) / (((k + 1) * (k + 2) : Nat) : Int)) (k + 2)

/-- 2^30 times the cosine of 2 pi m / n, rounded to the nearest integer (R94). -/
def cos30 (m n : Nat) : Int :=
  let x : Int := ((2 * piFix * (m % n) / n : Nat) : Int)
  (taylor 40 x (2 ^ 100) 0 + 2 ^ 69) / 2 ^ 70

/-- 2^30 times the sine of 2 pi m / n, rounded to the nearest integer (R94). -/
def sin30 (m n : Nat) : Int :=
  let x : Int := ((2 * piFix * (m % n) / n : Nat) : Int)
  (taylor 40 x x 1 + 2 ^ 69) / 2 ^ 70

/-! ## Windows -/

/-- The per-SIX input of the filters (R91): the sample of kind 1, the block's grid value of kind 2. -/
def State.perSix (s : State) (n c k : Nat) : Option Samp :=
  if s.kind n = 2 then s.sampAt n c (k / 25 * 25 + 24) else s.sampAt n c k

/-- Values and qualities of the `len` inputs that end at SIX `t`, oldest first; an unknown input counts as MISSING and holds the
value before it (R95). -/
def State.window (s : State) (n c t len : Nat) : List (Int × Nat) :=
  ((List.range len).foldl (fun (acc : List (Int × Nat) × Int) i =>
    match s.perSix n c (t + 1 + i - len) with
    | some x => ((x.code, x.q) :: acc.1, x.code)
    | none => ((acc.2, qMISSING) :: acc.1, acc.2)) ([], 0)).1.reverse

/-- The quality that a window gives (R95): VALID when all are, the OR of MISSING, SETTLE, OVERRANGE, TEST and SUBST. -/
def windowQ (w : List (Int × Nat)) : Nat :=
  w.foldl (fun q x => ((q &&& 1) &&& (x.2 &&& 1)) ||| ((q ||| x.2) &&& 0xDC)) 1

/-- VALID falls with MISSING, SETTLE or OVERRANGE (R95). -/
def clearValid (q : Nat) : Nat := if q &&& 0x1C != 0 then q / 2 * 2 else q

/-- Does a settling start mark a value of window length `len` tagged `t` (R96)? `b` is the quantity's bit. -/
def Ctx.settling (x : Ctx) (b t len : Nat) : Bool :=
  x.settles.any (fun y => bit y.2 b && t + 1 < y.1 + len && y.1 ≤ t)

/-- The quality of a derived value: that of its window, SETTLE of R96 and OVERRANGE of a saturated result. -/
def derivQ (x : Ctx) (w : List (Int × Nat)) (b t len : Nat) (ovr : Bool) : Nat :=
  clearValid (windowQ w ||| (if x.settling b t len then qSETTLE else 0) ||| (if ovr then qOVER else 0))

/-- Sums of consecutive blocks of 25 values (R91). -/
def blockSums : Nat → List (Int × Nat) → List Int
  | 0, _ => []
  | n + 1, w => ((w.take 25).map Prod.fst).sum :: blockSums n (w.drop 25)

/-- The decimated value (R92) from the 1 600 inputs that end at the tag; `f` is the number of fractional bits. -/
def decimated (f : Nat) (w : List (Int × Nat)) : Int :=
  rnd (((List.zipWith (fun (c : Nat) (a : Int) => (c : Int) * a) (pascal 63) (blockSums 64 w)).sum) * 2 ^ f) (25 * 2 ^ 63)

/-- Mean, rms and derivative (R93). -/
def dcMean (f : Nat) (w : List (Int × Nat)) : Int := rnd ((w.map Prod.fst).sum * 2 ^ f) w.length

def dcRms (f : Nat) (w : List (Int × Nat)) : Int :=
  (isqrt 48 ((((w.map (fun (x : Int × Nat) => x.1 * x.1)).sum).toNat * 2 ^ (2 * f)) / w.length) : Int)

def dcDer (f : Nat) (w : List (Int × Nat)) : Int :=
  let n := w.length
  rnd (600 * 2 ^ f * (List.zipWith (fun (i : Nat) (x : Int × Nat) => (2 * (i : Int) - n + 1) * x.1) (List.range n) w).sum)
    (n * (n * n - 1))

/-- The phasor of harmonic `h` over `n` blocks (R94). -/
def phasor (f n h : Nat) (a : List Int) : Int × Int :=
  (rnd (2 * 2 ^ f * (List.zipWith (fun i v => v * cos30 (h * i) n) (List.range n) a).sum) (25 * n * 2 ^ 30),
   rnd (-2 * 2 ^ f * (List.zipWith (fun i v => v * sin30 (h * i) n) (List.range n) a).sum) (25 * n * 2 ^ 30))

/-- Blocks of the DFT window (R94): 1 600 at 50 Hz, 1 333 at 60 Hz. -/
def dftBlocks (f0sel : Nat) : Nat := if f0sel = 2 then 1333 else 1600

/-- The derived values of channel `c` of context `n` tagged `t`, and whether one saturated. -/
def State.derive (s : State) (n c t : Nat) : Deriv × Bool :=
  let x := s.ctx n
  let f := if s.kind n = 2 then 0 else 8
  let w := s.window n c t 1600
  let dec := sat32 (decimated f w)
  let dl := 100 * s.get (F.SFB_C_CFG.DCW n)
  let dw := s.window n c t dl
  let mean := sat32 (dcMean f dw)
  let rms := sat32 (dcRms f dw)
  let der := sat32 (dcDer f dw)
  let sel := s.get (F.SFB_C_CFG.F0SEL n)
  let ac := sel != 0 && bit (s.rd (A.SFB_C_ACMASK n)).toNat c
  let nb := dftBlocks sel
  let pw := if ac then s.window n c t (25 * nb) else []
  let a := blockSums nb pw
  let ph := if ac then (List.range 15).map (fun h =>
      let z := phasor f nb (h + 1) a
      (sat32 z.1, sat32 z.2)) else []
  let phSat := ph.any (fun z => z.1.2 || z.2.2)
  (⟨t, dec.1, derivQ x w 0 t 1600 dec.2, mean.1, rms.1, der.1, derivQ x dw 1 t dl (mean.2 || rms.2 || der.2),
    ph.map (fun z => (z.1.1, z.2.1)), if ac then derivQ x pw 2 t (25 * nb) phSat else qMISSING, s.six⟩,
   dec.2 || mean.2 || rms.2 || der.2 || phSat)

/-- The listed derived value of a channel tagged `t`. -/
def State.derivAt (s : State) (n c t : Nat) : Option Deriv :=
  match kvGet (fun _ => none) (kvGet (fun _ => []) s.fab.drv (chKey n c)) (t % ringDepth) with
  | some x => if x.tag = t then some x else none
  | none => none

def State.fileDeriv (s : State) (n c : Nat) (d : Deriv) : State :=
  let key := chKey n c
  let ring := kvPut (fun _ => none) (kvGet (fun _ => []) s.fab.drv key) (d.tag % ringDepth) (some d)
  { s with fab := { s.fab with drv := kvPut (fun _ => []) s.fab.drv key ring } }

/-- The state with the settings of context `n` that count for SIX `t` (R85). -/
def State.asOf (s : State) (n t : Nat) : State :=
  match (s.ctx n).old with
  | some o =>
    if t < o.since then
      (((s.wr (A.SFB_C_CFG n) o.cfg).wr (A.SFB_C_ACMASK n) o.ac).wr (A.SFB_C_SVDLY n) o.dly).setCtx n { s.ctx n with sv := o.sv }
    else s
  | none => s

/-- The stream that context `n` subscribes to for SIX `t` (R85). -/
def State.subAt (s : State) (n t : Nat) : Option SvSub :=
  match (s.ctx n).old with
  | some o => if t < o.since then o.sub else s.fp.svSub.lookup n
  | none => s.fp.svSub.lookup n

/-- DERIVED_VALUES_COMPUTE (R38, R89 to R96): while the fabric runs, the base cycle that ended at the latest boundary; due once the last
input of every channel is known and the values are not yet there. -/
def execDerivedValuesCompute (n : Fin 256) (s : State) : Host.Outcome State Fault Refusal :=
  let b := s.six / baseCycle * baseCycle
  let o := s.asOf n (b - 1)
  let chans := List.range (o.nch n)
  let due := s.fabricOn && (o.kind n = 1 || o.kind n = 2) && 100 ≤ b &&
    chans.all (fun c => (s.perSix n c (b - 1)).isSome && (s.derivAt n c (b - 1)).isNone)
  if due then
    .next (chans.foldl (fun t c =>
      let d := o.derive n c (b - 1)
      let t := t.fileDeriv n c d.1
      if d.2 then t.raise F.SFB_EVT.SAT else t) s)
  else .next s

/-! ## Sampled values on the grid (R98 to R101) -/

/-- The received sampled value of a second, count and channel. -/
def Ctx.svAt (x : Ctx) (sec cnt ch : Nat) : Option SvSamp :=
  x.sv.find? (fun v => v.sec == sec && v.cnt == cnt && v.ch == ch)

/-- The sample after `cnt` of second `sec`: the next count, or 0 of the next second. -/
def Ctx.svNext (x : Ctx) (sec cnt rate ch : Nat) : Option SvSamp :=
  if cnt + 1 < rate then x.svAt sec (cnt + 1) ch else x.svAt (sec + 1) 0 ch

/-- Bracketing position at grid point `g` (R99): second, count, and the fraction phi of 65 536. -/
def State.gridPos (s : State) (g d rate : Nat) : Nat × Nat × Int :=
  let (secs, nsec) := s.tod (g - d)
  let u := nsec * rate
  let na := u / 1000000000
  (secs, na, rnd (((u - na * 1000000000) * 65536 : Nat) : Int) 1000000000)

/-- The interpolated value (R99). -/
def gridValue (a b phi : Int) : Int := a + rnd ((b - a) * phi) 65536

/-- Is R101 against VALID: never locked, time invalid, or the stream not globally synchronised? -/
def State.svNoLock (s : State) (n : Nat) : Bool :=
  !s.flag F.TIM_STATUS.EVER_LOCKED || !s.flag F.TIM_STATUS.VALID || !(s.ctx n).svSync

/-- One channel's grid value for `g` at sampling rate `rate`. -/
def State.gridSamp (s : State) (n c g rate : Nat) : Samp :=
  let x := s.ctx n
  let (secs, na, phi) := s.gridPos g (s.get (F.SFB_C_SVDLY.D n)) rate
  match x.svAt secs na c, x.svNext secs na rate c with
  | some a, some b =>
    let q := windowQ [(a.value, a.q), (b.value, b.q)]
    let q := q ||| (if x.settles.any (fun y => bit y.2 3 && y.1 ≤ g && g ≤ y.1 + s.get (F.SFB_C_SVDLY.D n)) then qSETTLE else 0)
    let q := clearValid q
    let q := if s.svNoLock n then q / 2 * 2 else q
    ⟨g, gridValue a.value b.value phi, q, false, bit q 6, bit q 7, g⟩
  | _, _ => missingSamp g (s.lastVal (chKey n c)) g

end Sys2Proof.Machine
end

