-- ==== Sys2Proof/Machine/Evt.lean ====
section
/-!
DEFINITION. Machine/Evt.lean: the events that release event tasks (R186): every event carries a tag and waits for its task's release.
-/
namespace Sys2Proof.Machine
open Sys2Proof

/-- The tasks of the running program image. -/
def State.tasks (s : State) : List Task :=
  match s.tsk.prog with
  | some g => (g.parts.map Partition.tasks).flatten
  | none => []

def State.taskRt (s : State) (t : Nat) : TaskRt := kvGet (fun _ => TaskRt.reset) s.tsk.rt t

def State.setTaskRt (s : State) (t : Nat) (x : TaskRt) : State :=
  { s with tsk := { s.tsk with rt := kvPut (fun _ => TaskRt.reset) s.tsk.rt t x } }

/-- An event with a tag, raised by an EVR or not, waits for the release of task `t`. -/
def State.pendTask (s : State) (t tag : Nat) (evr : Bool) : State :=
  let x := s.taskRt t
  (s.setTaskRt t { x with pend := x.pend ++ [(tag, evr)] }).set (F.TSK_T_STAT.PENDING t) 1

/-- The partition image, of those that run, that holds task `t`. -/
def State.partOf (s : State) (t : Nat) : Option Partition :=
  match s.tsk.prog with
  | some g => g.parts.find? (fun p => p.tasks.any (fun k => k.tid == t))
  | none => none

/-- The partition of a code replacement (CHG_PART). -/
def State.chgPart (s : State) : Nat := s.get F.OLC_STATUS.CHG_PART

/-- Does the shadow run and hold task `t`? -/
def State.shadowHas (s : State) (t : Nat) : Bool := s.olc.shadow && (s.partOf t).any (fun p => p.part == s.chgPart)

def State.shadowRt (s : State) (t : Nat) : TaskRt := kvGet (fun _ => TaskRt.reset) s.olc.rt t

def State.setShadowRt (s : State) (t : Nat) (x : TaskRt) : State :=
  { s with olc := { s.olc with rt := kvPut (fun _ => TaskRt.reset) s.olc.rt t x } }

/-- An event waits for the shadow's task `t` as well (R234). -/
def State.pendShadow (s : State) (t tag : Nat) (evr : Bool) : State :=
  let x := s.shadowRt t
  if s.shadowHas t then s.setShadowRt t { x with pend := x.pend ++ [(tag, evr)] } else s

/-- An event with a tag waits for every event task that has it among its sources, while the lanes run. -/
def State.pendEvent (s : State) (hit : Sources → Bool) (tag : Nat) : State :=
  if s.tsk.up then
    (s.tasks.filter (fun t => t.event && hit t.sources)).foldl (fun u t => (u.pendTask t.tid tag false).pendShadow t.tid tag false) s
  else s

end Sys2Proof.Machine
end

