-- ==== Sys2Proof/Machine/Bin.lean ====
section
/-!
DEFINITION. Machine/Bin.lean: binary inputs (R104 to R108): sampling, debounce, chatter blocking, persistence; and the comparison of
the trip driver outputs with their readback inputs that is made at the same SIX (R124).
-/
namespace Sys2Proof.Machine
open Sys2Proof

/-- A history (SIX of each change, newest first) with the value `v` from SIX `k` on; of what lies `depth` or more behind only the
newest entry stays. -/
def noteHist {α : Type} (depth k : Nat) (v : α) (h : List (Nat × α)) : List (Nat × α) :=
  (k, v) :: (h.takeWhile (fun e => k < e.1 + depth) ++ (h.dropWhile (fun e => k < e.1 + depth)).take 1)

/-- The value of a history (SIX of each change, newest first) at SIX `k`. -/
def histAt {α : Type} (h : List (Nat × α)) (k : Nat) : Option α := (h.find? (fun e => e.1 ≤ k)).map Prod.snd

def State.binIn (s : State) (n : Nat) : BinIn := kvGet (fun _ => BinIn.reset) s.bin.ins n

def State.setBinIn (s : State) (n : Nat) (x : BinIn) : State :=
  { s with bin := { s.bin with ins := kvPut (fun _ => BinIn.reset) s.bin.ins n x } }

def State.tdo (s : State) (n : Nat) : TdoSt := kvGet (fun _ => TdoSt.reset) s.inj.tdos n

def State.setTdo (s : State) (n : Nat) (x : TdoSt) : State :=
  { s with inj := { s.inj with tdos := kvPut (fun _ => TdoSt.reset) s.inj.tdos n x } }



/-- Samples of history kept of presented states, outputs and gates: more than the widest window and the latest sample need. -/
def histDepth : Nat := 1024

/-- The level of input `n` after polarity (R104). -/
def State.binLevel (s : State) (pins : BitVec 32) (n : Nat) : Bool := xor (bit pins.toNat n) (s.flag (F.BIN_I_CFG.ACTIVE_LOW n))

/-- The presented state of input `n` becomes `v` with VALID `ok` (R105 to R108). -/
def State.present (s : State) (n : Nat) (v ok : Bool) : State :=
  let x := s.binIn n
  let s := (s.set (bitField A.BIN_STATE n) (b2n v)).set (bitField A.BIN_VALID n) (b2n ok)
  s.setBinIn n { x with hist := noteHist histDepth s.six (v, ok) x.hist }

/-- Presented state and VALID of input `n` at SIX `k`, once the pins have been sampled for it. -/
def State.presentedAt (s : State) (n k : Nat) : Option (Bool × Bool) :=
  if s.bin.last.any (fun l => k ≤ l) then
    match (s.binIn n).hist.find? (fun h => h.1 ≤ k) with
    | some h => some h.2
    | none => some (false, false)
  else none

/-- One input takes the sampled level (the run of R105). -/
def State.binRun (s : State) (pins : BitVec 32) (n : Nat) : State :=
  let x := s.binIn n
  let lvl := s.binLevel pins n
  if lvl = x.runLevel then s else s.setBinIn n { x with runLevel := lvl, runStart := s.six }

/-- TDOn is compared with its readback (R124): runs of mismatching and matching samples. -/
def State.readback (s : State) (tdr : BitVec 8) (n : Nat) : State :=
  let x := s.tdo n
  let level := bit tdr.toNat n
  let s := (s.set (bitField A.INJ_TDO (8 + n)) (b2n level)).set (F.INJ_T_STAT.RB n) (b2n level)
  if s.flag (F.INJ_T_CFG.RB_EN n) ∧ s.opstate ≠ 2 then
    if level = s.flag (F.INJ_T_STAT.CMD n) then s.setTdo n { x with misRun := 0, matchRun := min (x.matchRun + 1) 65535 }
    else s.setTdo n { x with misRun := min (x.misRun + 1) 65535, matchRun := 0 }
  else s

/-- The word of the 32 input levels after polarity. -/
def State.rawWord (s : State) (pins : BitVec 32) : Nat :=
  (List.range 32).foldl (fun w n => w + b2n (s.binLevel pins n) * 2 ^ n) 0

/-- PERSISTENT of input `n` takes a value. -/
def State.setPersist (s : State) (n : Nat) (on : Bool) : State :=
  let x := s.binIn n
  let s := s.setBinIn n { x with persHist := noteHist 262144 s.six on x.persHist }
  s.set (bitField A.BIN_PERSIST n) (b2n on)

/-- A changed setting of input `n` restarts it from the level sampled now (R108): no transition. -/
def State.binRestart (s : State) (n : Nat) : State :=
  let lvl := (s.binIn n).runLevel
  let s := if s.flag (bitField A.BIN_PERSIST n) then s.setPersist n false else s
  let s := s.setBinIn n { s.binIn n with
    runStart := s.six, q := lvl, confirmed := s.six, trans := [], blocked := false, persSince := if lvl then some s.six else none }
  s.present n lvl true

/-- BINARY_INPUT_SAMPLE (R104, R108, R434): once per sample period, from the start of SIX on; the first sample after a start is the level from
which the inputs begin under the configuration then loaded. In HALT the readback is read but not compared. -/
def execBinaryInputSample (pins : BitVec 32) (tdr : BitVec 8) (s : State) : Host.Outcome State Fault Refusal :=
  if s.clk.running = false ∨ s.bin.last = some s.six then .next s
  else
    let first := s.bin.last.isNone
    let s := (List.range 32).foldl (fun t n => if first then (t.binRun pins n).binRestart n else t.binRun pins n) s
    let s := s.wr A.BIN_RAW (BitVec.ofNat 32 (s.rawWord pins))
    let s := (List.range 8).foldl (fun t n => t.readback tdr n) s
    .next { s with bin := { s.bin with last := some s.six } }

/-- Is VALID withheld from input `n` by persistence (R107)? -/
def State.persBlocks (s : State) (n : Nat) : Bool :=
  s.flag (bitField A.BIN_PERSIST n) && s.flag (F.BIN_I_CFG.PERS_BLOCK n)

/-- Was input `n` PERSISTENT with PERS_BLOCK at SIX `k`, so that R107 inhibits rules with a term on it? -/
def State.persAt (s : State) (n k : Nat) : Bool :=
  (histAt (s.binIn n).persHist k).getD false && s.flag (F.BIN_I_CFG.PERS_BLOCK n)

/-- Does the transition confirmed now make N + 1 within the window (R106)? `trans` are the earlier ones, newest first. -/
def State.chatters (s : State) (n : Nat) (trans : List Nat) : Bool :=
  let need := s.get (F.BIN_I_CHAT.N n)
  match (s.six :: trans)[need]? with
  | some k => s.six - k < s.get (F.BIN_I_CHAT.T_MS n) * 2000
  | none => false

/-- PERSISTENT of input `n` clears, with its Cellar entry (R107). -/
def State.persClear (s : State) (n : Nat) : State :=
  if s.flag (bitField A.BIN_PERSIST n) then
    (s.setPersist n false).logNamed "BIN_PERSISTENT" (leBytes 1 n ++ leBytes 1 0)
  else s

/-- The code of the transition entry of input `n` (R108): the spec gives that of BIN7 alone, in the worked example of chapter 10. -/
def transitionCode (n : Nat) : EvCode := if n = 7 then .num 0x190 else .named ("BIN_TRANSITION" ++ toString n)

/-- BIN_CONFIRM (R105 to R108); conditioning stands still in HALT (R104). -/
def execBinConfirm (n : Fin 32) (s : State) : Host.Outcome State Fault Refusal :=
  let x := s.binIn n
  if s.bin.last = some s.six ∧ s.opstate ≠ 2 ∧ x.runLevel ≠ x.q ∧ s.get (F.BIN_I_CFG.DEB n) ≤ s.six - x.runStart then
    let q := x.runLevel
    let chat := s.flag (F.BIN_I_CFG.CHAT_EN n)
    let enters := chat && !x.blocked && s.chatters n x.trans
    let s := s.setBinIn n { x with
      q := q, confirmed := s.six, persSince := if q then some s.six else none, blocked := x.blocked || enters,
      trans := if chat then (s.six :: x.trans).take 256 else [],
      confs := s.six :: x.confs.takeWhile (fun c => s.six < c + 262144) }
    let s := (s.bump (F.BIN_I_CNT.TRANS n)).pendEvent (fun e => e.bin.contains n.val) s.six
    let s := if s.flag (F.BIN_I_CFG.EVT_EN n) then
        s.logAt (transitionCode n) (Config.sevOf "BIN_TRANSITION").toNat s.six
          (leBytes 1 n ++ leBytes 1 (b2n q) ++ leBytes 8 x.runStart ++ leBytes 8 s.six) else s
    let s := if q then s else s.persClear n
    if enters then
      let s := (s.bump (F.BIN_I_CNT.BLOCKS n)).raise (bitField A.BIN_CHAT_EVT n)
      let s := s.present n (s.flag (bitField A.BIN_STATE n)) false
      .next (s.logNamed "BIN_CHATTER" (leBytes 1 n ++ leBytes 1 1))
    else if x.blocked then .next s
    else .next (s.present n q (!s.persBlocks n))
  else .next s

/-- CHATTER_HOLD_END (R106). -/
def execChatterHoldEnd (n : Fin 32) (s : State) : Host.Outcome State Fault Refusal :=
  let x := s.binIn n
  if x.blocked ∧ x.confirmed + s.get (F.BIN_I_TIME.HOLD_S n) * samplesPerSecond ≤ s.six then
    let s := s.setBinIn n { x with blocked := false, trans := [] }
    let s := s.present n x.q (!s.persBlocks n)
    .next (s.logNamed "BIN_CHATTER" (leBytes 1 n ++ leBytes 1 0))
  else .next s

/-- PERSISTENT_SET (R107). -/
def execPersistentSet (n : Fin 32) (s : State) : Host.Outcome State Fault Refusal :=
  let x := s.binIn n
  if s.flag (F.BIN_I_CFG.PERS_EN n) ∧ !s.flag (bitField A.BIN_PERSIST n) ∧
      x.persSince.any (fun k => k + s.get (F.BIN_I_TIME.PERS_S n) * samplesPerSecond ≤ s.six) then
    let s := (s.setPersist n true).raise (bitField A.BIN_PERS_EVT n)
    let s := s.logNamed "BIN_PERSISTENT" (leBytes 1 n ++ leBytes 1 1)
    .next (if s.flag (F.BIN_I_CFG.PERS_BLOCK n) then s.present n (s.flag (bitField A.BIN_STATE n)) false else s)
  else .next s

end Sys2Proof.Machine
end

