-- ==== Sys2Proof/Machine/Link.lean ====
section
/-!
DEFINITION. Machine/Link.lean: the operations of the Hjelig links that several families use (R44 to R83): words and their CRC,
messages, port states, the port that serves a station, trip words, command and safe-state groups.
-/
namespace Sys2Proof.Machine
open Sys2Proof

/-! ## Words and messages (R47 to R54) -/

/-- One bit of the word CRC (R48). -/
def crc8Bit (crc : Nat) : Nat := if 128 ≤ crc then (crc * 2) % 256 ^^^ 0x2F else crc * 2

/-- One byte of the word CRC. -/
def crc8Byte (crc b : Nat) : Nat := crc8Bit (crc8Bit (crc8Bit (crc8Bit (crc8Bit (crc8Bit (crc8Bit (crc8Bit (crc ^^^ b))))))))

/-- The word CRC over four bytes (R48). -/
def crc8 (init b0 b1 b2 b3 : Nat) : Nat := crc8Byte (crc8Byte (crc8Byte (crc8Byte init b0) b1) b2) b3

/-- Type code of the slot-0 word, K28.5. -/
def tK28 : Nat := 32

/-- Byte 0 of a word (R47); K28.5 counts as 0xBC in the CRC (R48). -/
def headerByte (typ addr : Nat) : Nat := if typ = tK28 then 0xBC else typ * 8 + addr

/-- A word with its CRC under the initial value `init`. -/
def mkWord (typ addr content init : Nat) : LinkWord :=
  ⟨typ, addr, content, crc8 init (headerByte typ addr) (content / 65536 % 256) (content / 256 % 256) (content % 256)⟩

/-- One bit of the CRC-16 (R53). -/
def crc16Bit (crc : Nat) : Nat := if 32768 ≤ crc then (crc * 2) % 65536 ^^^ 0x1021 else crc * 2

/-- The CRC-16 of a byte list (R53). -/
def crc16 (bs : List Byte) : Nat :=
  bs.foldl (fun c b => crc16Bit (crc16Bit (crc16Bit (crc16Bit (crc16Bit (crc16Bit (crc16Bit (crc16Bit (c ^^^ (b.toNat * 256))))))))))
    0xFFFF

/-- `n` bytes of `v`, most significant first (R47). -/
def beBytes (n v : Nat) : List Byte := (leBytes n v).reverse

/-- A word leaves on a port in a slot; slot 25 stands for the first slot that admits it (R52, R75), slot 26 for every slot that the
repetition holds in the rest of the frame (R75). -/
def State.sendWord (s : State) (p slot : Nat) (w : LinkWord) : State := s.emit (.word p slot w)

/-! ## Ports -/

def State.port (s : State) (p : Nat) : Port := kvGet (fun _ => Port.reset) s.ports p

def State.setPort (s : State) (p : Nat) (x : Port) : State := { s with ports := kvPut (fun _ => Port.reset) s.ports p x }

/-- The MSG_DATA words of a payload from data index `i` on, three bytes each, the last padded with zeros (R50, R53). -/
def msgData : Nat → Nat → List Byte → List LinkWord
  | 0, _, _ => []
  | n + 1, i, bs =>
    mkWord 0x11 (i % 8) (leNat (([2, 1, 0].map (fun j => (bs.drop j).headD 0)))) 0xFF :: msgData n (i + 1) (bs.drop 3)

/-- The words of a message (R50, R53): MSG_START with its kind and count of data words, the data words, MSG_END with the CRC-16. -/
def msgWords (seq kind : Nat) (payload : List Byte) : List LinkWord :=
  let n := ceilDiv payload.length 3
  mkWord 0x10 (seq % 8) (kind * 65536 + n) 0xFF :: msgData n 0 payload ++ [mkWord 0x12 (seq % 8) (kind * 65536 + crc16 payload) 0xFF]

/-- A message leaves on a port under the port's next message sequence (R53, R54). -/
def State.sendMsg (s : State) (p kind : Nat) (payload : List Byte) : State :=
  let n := ((s.port p).msgSeq + 1) % 8
  (s.setPort p { s.port p with msgSeq := n }).emit (.msg p kind (crc16 payload) payload (msgWords n kind payload))

/-- STATE codes of HJL_Pp_STATE. -/
def pDOWN : Nat := 0
def pSYNC : Nat := 1
def pHELLO : Nat := 2
def pCALIB : Nat := 3
def pRUN : Nat := 4
def pLOST : Nat := 5
def pDEAD : Nat := 6
def pQUAR : Nat := 7
def pSTANDBY : Nat := 8
def pBOUND : Nat := 9

def State.portState (s : State) (p : Nat) : Nat := s.get (F.HJL_P_STATE.STATE p)

/-- The port's current incarnation. -/
def State.portInc (s : State) (p : Nat) : Nat := s.get (F.HJL_P_STATE.INC p)

/-- The station the port serves. -/
def State.station (s : State) (p : Nat) : Nat := s.get (F.HJL_P_STATE.STATION p)

/-- Number of ports whose state satisfies `q`. -/
def State.countPorts (s : State) (q : Nat → Bool) : Nat := ((List.range 44).filter (fun p => q (s.portState p))).length

/-- HJL_STATUS counts the ports by state. -/
def State.hjlCounts (s : State) : State :=
  (((s.set F.HJL_STATUS.RUN_N (s.countPorts (fun x => x == pRUN || x == pSTANDBY || x == pBOUND))).set F.HJL_STATUS.LOST_N
    (s.countPorts (· == pLOST))).set F.HJL_STATUS.DEAD_N (s.countPorts (· == pDEAD))).set F.HJL_STATUS.QUAR_N
    (s.countPorts (· == pQUAR))

/-- Is the port in RUN, STANDBY or BOUND (R102)? -/
def State.portServes (s : State) (p : Nat) : Bool :=
  s.portState p == pRUN || s.portState p == pSTANDBY || s.portState p == pBOUND

/-- The index of the spare plan entry that binds a spare to station `st` now (R68). -/
def State.boundEntry (s : State) (st : Nat) : Option Nat :=
  (List.range 8).find? (fun n => s.flag (F.HJL_SPARE.BOUND n) && s.get (F.HJL_SPARE.STATION n) == st)

/-- The spare port bound to station `st`. -/
def State.boundSpare (s : State) (st : Nat) : Option Nat := (s.boundEntry st).map (fun n => s.get (F.HJL_SPARE.SPARE_PORT n))

/-- The byte of a command station or peer in an input image (R187): state of the port that serves it, and whether that is a spare. -/
def State.stationByte (s : State) (st : Nat) : Nat :=
  let q := (s.boundSpare st).getD st
  let x := s.portState q
  b2n (x == pRUN || x == pBOUND) + 2 * b2n (x == pLOST) + 4 * b2n (x == pDEAD) + 8 * b2n (s.boundSpare st).isSome

/-- The port that serves station `st` for a decision now (R461): the bound spare, else the home port in RUN or LOST. -/
def State.servingPort (s : State) (st : Nat) : Option Nat :=
  match s.boundSpare st with
  | some q => some q
  | none =>
    if (s.portState st == pRUN || s.portState st == pLOST) && s.station st == st then some st else none



/-- The histories of the bytes of stations 32 to 43, and of the ports that serve them, follow the ports. -/
def State.noteStations (s : State) : State :=
  ((List.range 12).map (· + 32)).foldl (fun t st =>
    let x := t.port st
    let v := t.stationByte st
    let q := t.servingPort st
    let bytes := if (x.byteHist.head?.map Prod.snd).getD 0 = v then x.byteHist else noteHist 128 t.six v x.byteHist
    let serv := if (x.servHist.head?.map Prod.snd).getD none = q then x.servHist else noteHist 262144 t.six q x.servHist
    t.setPort st { x with byteHist := bytes, servHist := serv }) s

/-- Port `p` enters state `x`. -/
def State.setPortState (s : State) (p x : Nat) : State := (s.set (F.HJL_P_STATE.STATE p) x).hjlCounts.noteStations

/-- May trip and vote words leave on port `p` (R62, R69): admitted, and neither DEAD nor in QUARANTINE? -/
def State.portSends (s : State) (p : Nat) : Bool := s.portServes p || s.portState p == pLOST

/-- The port that takes a decision of SIX `k` for station `st` (R461): the port that served the station at `k`. Where that port has died
since, its decisions are sent again on the spare that serves now (R68). -/
def State.servingAt (s : State) (st k : Nat) : Option Nat :=
  match (histAt (s.port st).servHist k).getD none with
  | some q => if s.portSends q then some q else s.servingPort st
  | none => none

/-- The port that feeds station `st` with command groups: in RUN, or a spare in BOUND (R78, R195). -/
def State.commandPort (s : State) (st : Nat) : Option Nat :=
  match s.boundSpare st with
  | some q => if s.portState q == pBOUND then some q else none
  | none => if s.portState st == pRUN && s.station st == st then some st else none

/-- REFUSE with a reason (R63): the message, the register, the event. -/
def State.refuse (s : State) (p reason : Nat) : State :=
  ((s.sendMsg p 0x03 (beBytes 1 reason ++ beBytes 2 0)).set (F.HJL_P_REFUSE.REASON p) reason).raise (F.HJL_P_EVT.REFUSE p)

/-! ## Trip words (R73 to R77) -/

/-- Parity of the low four bits. -/
def parity4 (v : Nat) : Bool := popCount 4 v % 2 == 1

/-- Codeword `i` (R73): bit x is a XOR parity(b AND x), for i = 16 a + b. -/
def codeword (i : Nat) : Nat :=
  (List.range 16).foldl (fun w x => w + b2n (xor (bit i 4) (parity4 ((i % 16) &&& x))) * 2 ^ x) 0

/-- A TRIP word (R50, R74): the incarnation enters by type, addressing, content and the seed of the CRC. -/
def tripWord (inc index seq : Nat) : LinkWord :=
  mkWord (if bit inc 7 then 0x0D else 0x07) (inc / 16 % 8) (codeword index * 256 + seq % 16 * 16 + inc % 16) (inc / 256 % 256)

/-- The decisions of port `p` that await their ACK, oldest first. -/
def Port.pending (x : Port) : List Trip := x.trips.filter (fun t => !t.acked)

/-- HJL_Pp_TRIP and INJ_STATUS.PENDING follow the decisions that await their ACK. -/
def State.tripRegs (s : State) (p : Nat) : State :=
  let l := (s.port p).pending
  let s := match l with
    | [] => s.set (F.HJL_P_TRIP.ACTIVE p) 0
    | t :: _ => ((s.set (F.HJL_P_TRIP.ACTIVE p) 1).set (F.HJL_P_TRIP.SEQ p) t.seq).set (F.HJL_P_TRIP.INDEX p) t.index
  let s := s.set (F.HJL_P_TRIP.SLOT1 p) (b2n (l.any (fun t => decide (t.n0 + 5 ≤ s.six))))
  s.set F.INJ_STATUS.PENDING (((List.range 44).map (fun q => (s.port q).pending.length)).sum)

/-- The target of a codeword index, which a trip and its test trip share (R73, R74). -/
def tripTarget (index : Nat) : Nat := index % 16

/-- A new decision on port `p` for codeword `index` at decision SIX `k` (R74, R75): the sequence number of port and target advances, the
first TRIP word takes the next downstream slot and the repetition the rest of the frame. -/
def State.newTrip (s : State) (p index k : Nat) : State :=
  let x := s.port p
  let seq := (kvGet (fun _ => 0) x.tripSeq (tripTarget index) + 1) % 16
  let s := s.setPort p { x with
    trips := x.trips ++ [⟨index, seq, s.six, k, false, false⟩], tripSeq := kvPut (fun _ => 0) x.tripSeq (tripTarget index) seq }
  let w := tripWord (s.portInc p) index seq
  ((s.sendWord p 25 w).sendWord p 26 w).tripRegs p

/-- Does the port and target of a decision of SIX `k` for command link `m` have a decision that awaits its ACK (R118)? -/
def State.tripStands (s : State) (m index k : Nat) : Bool :=
  (s.servingAt (32 + m) k).any (fun p => (s.port p).pending.any (fun t => tripTarget t.index == tripTarget index))

/-- A decision of SIX `k` for command link `m` (R461, R118): to the port that served station 32 + m at `k`; a port and target whose
earlier decision awaits its ACK gets no new decision, and the firing counts as MERGED unless it belongs to the same decision SIX. -/
def State.tripLink (s : State) (m index k : Nat) : State :=
  match s.servingAt (32 + m) k with
  | none => s
  | some p =>
    match (s.port p).pending.find? (fun t => tripTarget t.index == tripTarget index) with
    | some t => if t.decSix = k then s else s.raise F.INJ_EVT.MERGED
    | none => s.newTrip p index k

/-- The decisions of port `p` in frame n0 or the four full frames after it (R75), where trip words may leave on the port; a stopped unit
sends none (R38). -/
def State.repeating (s : State) (p : Nat) : List Trip :=
  (s.port p).trips.filter (fun t => s.flag F.INJ_STATUS.ARMED && s.portSends p && decide (s.six ≤ t.n0 + 4))

/-- The slots that the repetition holds in a frame: 1 to 24, or 1 to 12 and 24 while a group waits (R75). -/
def repeatSlots (waits : Bool) : List Nat :=
  if waits then (List.range 12).map (· + 1) ++ [24] else (List.range 24).map (· + 1)

/-- Decisions of port `p` with an ACK whose four full frames are over have ended (R75, R77). -/
def State.tripsEnd (s : State) (p : Nat) : State :=
  let x := s.port p
  if x.trips.any (fun t => t.acked && decide (t.n0 + 4 < s.six)) then
    s.setPort p { x with trips := x.trips.filter (fun t => !(t.acked && decide (t.n0 + 4 < s.six))) }
  else s

/-- The repeated TRIP words of one frame on port `p`, rotating among the decisions. -/
def State.sendRepeats (s : State) (p : Nat) : State :=
  match s.repeating p with
  | [] => s
  | ts =>
    (repeatSlots (s.port p).group.isSome).zipIdx.foldl (fun t (x : Nat × Nat) =>
      match ts[x.2 % ts.length]? with
      | some d => t.sendWord p x.1 (tripWord (t.portInc p) d.index d.seq)
      | none => t) s

/-! ## Groups (R78) -/

/-- The APPLY word that orders the safe state, in frame `k`. -/
def safeApply (seq k : Nat) : LinkWord := mkWord 0x09 (seq % 8) (k % 65536 * 256 + 0xFF) 0xFF

/-- Does the command station served by port `p` get the safe-state group in every frame (R78): STEM or HALT, no program running, or
a program that maps no point of the station? -/
def State.safeFrame (s : State) (p : Nat) (mapped : Bool) : Bool :=
  (s.portState p == pRUN || s.portState p == pBOUND) && (s.opstate == 1 || s.opstate == 2 || !mapped)

/-- The SAFE message of a command station (R54, R62 step 7). -/
def State.sendSafe (s : State) (p st : Nat) : State :=
  s.sendMsg p 0x05 (((kvGet (fun _ => ⟨0, [], []⟩) s.fp.pins st).safe.map (fun e => beBytes 1 e.1 ++ beBytes 2 e.2)).flatten)

end Sys2Proof.Machine
end

