-- ==== Sys2Proof/Machine/Inj.lean ====
section
/-!
DEFINITION. Machine/Inj.lean: the interjection unit (R110 to R134, R462): elements, directional pairs, rules, gates, actions,
conjunction groups, trip driver outputs and the STEM capture buffer.
-/
namespace Sys2Proof.Machine
open Sys2Proof

/-- The state with the settings that count for SIX `t` (R132): those before the latest configuration for a SIX before it took effect. -/
def State.injAt (s : State) (t : Nat) : State := if t < s.inj.since then { s with regs := s.inj.oldRegs } else s

/-- Does a word among `as` differ between the settings that count for SIX `t` and those for the SIX before? -/
def State.injChanged (s : State) (t : Nat) (as : List Nat) : Bool :=
  t == s.inj.since && as.any (fun a => kvGet resetWord s.inj.oldRegs a != s.rd a)

/-! ## Elements (R111 to R114) -/

def State.chan (s : State) (n : Nat) : ChanEl := kvGet (fun _ => ChanEl.reset) s.inj.chans n

def State.setChan (s : State) (n : Nat) (x : ChanEl) : State :=
  { s with inj := { s.inj with chans := kvPut (fun _ => ChanEl.reset) s.inj.chans n x } }

/-- The sample of fast channel FCn for SIX `k` (R36), as the unit judges it. -/
def State.fast (s : State) (n k : Nat) : Option Samp := s.sampAt (n / 8) (n % 8) k

/-- Codes of a level comparator's MODE. -/
def levelMeets (mode : Nat) (x th w : Int) : Bool :=
  if mode = 1 then th - w ≤ x
  else if mode = 2 then x ≤ th + w
  else if mode = 3 then th - w ≤ (x.natAbs : Int)
  else false

/-- One level comparator for one sample (the fragment of R112). -/
def levelStep (mode pc : Nat) (th hyst : Int) (e : ElSt) (x : Samp) : ElSt :=
  if mode = 0 ∨ !x.usable then ElSt.reset
  else if e.out then
    if levelMeets mode x.code th hyst then { e with test := e.test || x.test, subst := e.subst || x.subst }
    else ElSt.reset
  else if levelMeets mode x.code th 0 then
    let c := min (e.cnt + 1) 255
    ⟨c, pc ≤ c, e.test || x.test, e.subst || x.subst, 0⟩
  else ElSt.reset

/-- An element's output for SIX `t`: a true one carries its own marks, a false one those of its window (R111). -/
def elOut (t : Nat) (e : ElSt) (usable test subst : Bool) : ElOut :=
  if e.out then ⟨t, true, true, e.test, e.subst⟩ else ⟨t, false, usable, test, subst⟩

/-- The test of the rate-of-change element on D (R113). -/
def rocMeets (mode : Nat) (d th : Int) : Bool :=
  if mode = 1 then th ≤ d else if mode = 2 then d ≤ -th else if mode = 3 then th ≤ (d.natAbs : Int) else false

/-- The rate-of-change element for one pair of samples (R113). -/
def rocStep (mode pc : Nat) (th : Int) (e : ElSt) (x y : Samp) : ElSt :=
  if mode = 0 ∨ !(x.usable && y.usable) then ElSt.reset
  else if rocMeets mode (x.code - y.code) th then
    let c := min (e.cnt + 1) 255
    ⟨c, pc ≤ c, e.test || x.test || y.test, e.subst || x.subst || y.subst, 0⟩
  else ElSt.reset

/-- The `2 q` samples of the window that ends at `t`, newest first, when all are known and usable. -/
def State.usableWindow (s : State) (n t q : Nat) : Option (List Samp) :=
  let w := (List.range (2 * q)).map (fun i => if i ≤ t then s.fast n (t - i) else none)
  if w.all (fun x => x.any (·.usable)) then some (w.filterMap id) else none

/-- S(t) of a window, newest first (R114). -/
def windowStep (q : Nat) (w : List Samp) : Int :=
  ((w.take q).map (·.code)).sum - ((w.drop q).map (·.code)).sum

/-- The step element at SIX `t` (R114): the element and SIGN. `cnt` 1 says that a detection has been made. -/
def stepStep (en : Bool) (q hold : Nat) (th : Int) (t : Nat) (e : ElSt) (sign : Bool) (w : Option (List Samp)) : ElSt × Bool :=
  if !en then (ElSt.reset, sign)
  else
    match w with
    | some l =>
      if th ≤ ((windowStep q l).natAbs : Int) then
        (⟨1, true, l.any (·.test), l.any (·.subst), t + hold - 1⟩, windowStep q l < 0)
      else ({ e with out := e.cnt == 1 && t ≤ e.holdEnd }, sign)
    | none => ({ e with out := e.cnt == 1 && t ≤ e.holdEnd }, sign)

/-- The registers of the elements of FCn: LA, LB, ROC, STEP. -/
def laWords (n : Nat) : List Nat := [A.INJ_C_LA_TH n, A.INJ_C_LA_CTL n]
def lbWords (n : Nat) : List Nat := [A.INJ_C_LB_TH n, A.INJ_C_LB_CTL n]
def rocWords (n : Nat) : List Nat := [A.INJ_C_ROC_TH n, A.INJ_C_ROC_CTL n]
def stepWords (n : Nat) : List Nat := [A.INJ_C_STEP_TH n, A.INJ_C_STEP_CTL n]

/-- The elements of FCn before they evaluate SIX `t`: at the SIX from which a configuration counts, an element whose settings it changed
has restarted (R132). -/
def State.chanFrom (s : State) (n t : Nat) : ChanEl :=
  let c := s.chan n
  let ch := s.injChanged t
  { c with
    la := if ch (laWords n) then ElSt.reset else c.la
    lb := if ch (lbWords n) then ElSt.reset else c.lb
    roc := if ch (rocWords n) then ElSt.reset else c.roc
    step := if ch (stepWords n) then ElSt.reset else c.step
    sign := if ch (stepWords n) then false else c.sign }

/-- The four elements of FCn evaluate the sample of SIX `t` (R112 to R114). -/
def State.evalChan (s : State) (n : Nat) (x : Samp) : State :=
  let t := x.six
  let c := s.chanFrom n t
  let o := s.injAt t
  let th (a : Nat) := signed 24 (fieldOf (o.rd a) 0 24)
  let la := levelStep (o.get (F.INJ_C_LA_CTL.MODE n)) (o.get (F.INJ_C_LA_CTL.PC n)) (th (A.INJ_C_LA_TH n)) (o.get (F.INJ_C_LA_CTL.HYST n)) c.la x
  let lb := levelStep (o.get (F.INJ_C_LB_CTL.MODE n)) (o.get (F.INJ_C_LB_CTL.PC n)) (th (A.INJ_C_LB_TH n)) (o.get (F.INJ_C_LB_CTL.HYST n)) c.lb x
  let m := o.get (F.INJ_C_ROC_CTL.M n)
  let y := ((if m ≤ t then s.fast n (t - m) else none).getD (missingSamp t 0 0))
  let roc := rocStep (o.get (F.INJ_C_ROC_CTL.MODE n)) (o.get (F.INJ_C_ROC_CTL.PC n)) (o.get (F.INJ_C_ROC_TH.TH n)) c.roc x y
  let q := o.get (F.INJ_C_STEP_CTL.QM1 n) + 1
  let w := s.usableWindow n t q
  let st := stepStep (o.flag (F.INJ_C_STEP_CTL.EN n)) q (o.get (F.INJ_C_STEP_CTL.HOLD n)) (o.get (F.INJ_C_STEP_TH.TH n)) t c.step c.sign w
  let wq := w.getD []
  let outs := [elOut t la x.usable x.test x.subst, elOut t lb x.usable x.test x.subst,
    elOut t roc (x.usable && y.usable) (x.test || y.test) (x.subst || y.subst),
    elOut t st.1 w.isSome (wq.any (·.test)) (wq.any (·.subst))]
  let s := s.setChan n ⟨t + 1, la, lb, roc, st.1, st.2, kvPut (fun _ => []) c.outs (t % histDepth) outs⟩
  ((((((s.set (F.INJ_C_STAT.LA n) (b2n la.out)).set (F.INJ_C_STAT.LB n) (b2n lb.out)).set (F.INJ_C_STAT.ROC n) (b2n roc.out)).set
    (F.INJ_C_STAT.STEP n) (b2n st.1.out)).set (F.INJ_C_STAT.SIGN n) (b2n st.2)).set (F.INJ_C_STAT.USABLE n) (b2n x.usable))

/-- The elements of FCn evaluate every SIX that is known, in rising order (R111), `fuel` SIX at most. -/
def catchUp : Nat → Nat → State → State
  | 0, _, s => s
  | f + 1, n, s =>
    match s.fast n (s.chan n).next with
    | some x => catchUp f n (s.evalChan n x)
    | none => s

/-- The elements of FCn evaluate up to SIX `t` as far as samples are known; only while the unit runs. -/
def State.elementsTo (s : State) (n t : Nat) : State :=
  if s.flag F.INJ_STATUS.ARMED then catchUp (t + 1 - (s.chan n).next) n s else s

/-- An element output of FCn for SIX `k`: none while not evaluated; before the elements started, false and unusable. -/
def State.elementAt (s : State) (n sel k : Nat) : Option ElOut :=
  let c := s.chan n
  if c.next ≤ k then none
  else match (kvGet (fun _ => []) c.outs (k % histDepth))[sel]? with
    | some o => if o.six = k then some o else some ⟨k, false, false, false, false⟩
    | none => some ⟨k, false, false, false, false⟩

/-- STEP_HOLD_EXPIRY (R114): the SIX after the hold is evaluated, and the output drops there without a new detection. -/
def execStepHoldExpiry (n : Fin 256) (s : State) : Host.Outcome State Fault Refusal :=
  let c := s.chan n
  if s.flag (F.INJ_C_STAT.STEP n) ∧ c.step.holdEnd < s.six then
    .next (s.elementsTo n (c.step.holdEnd + 1))
  else .next s

/-! ## Directional pairs (R115) -/

def State.pair (s : State) (p : Nat) : PairSt := kvGet (fun _ => PairSt.reset) s.inj.pairs p

def State.setPair (s : State) (p : Nat) (x : PairSt) : State :=
  { s with inj := { s.inj with pairs := kvPut (fun _ => PairSt.reset) s.inj.pairs p x } }

/-- B and F of a pair (R115): Z is the surge impedance times dI. -/
def pairBF (kz : Nat) (dv di : Int) : Int × Int :=
  let z := rnd ((kz : Int) * di) 65536
  (dv - z, dv + z)

/-- FWD is met by B against F, REV by F against B (R115). -/
def pairMeets (bmin ratio : Nat) (a b : Int) : Bool := bmin ≤ a.natAbs && ratio * b.natAbs ≤ 16 * a.natAbs

/-- A held output at SIX `t` when its own test is not met: it drops when the other output's test is met (R115). -/
def heldOut (e : ElSt) (t : Nat) (other : Bool) : ElSt :=
  if other then ElSt.reset else { e with out := e.cnt == 1 && t ≤ e.holdEnd }

/-- The registers of pair `p`, FWD and REV of INJ_Dp_CTL apart. -/
def pairWords (p : Nat) : List Nat := [A.INJ_D_CH p, A.INJ_D_KZ p, A.INJ_D_BMIN p]

/-- The pair before it evaluates SIX `t` (R132). -/
def State.pairFrom (s : State) (p t : Nat) : PairSt :=
  let x := s.pair p
  let ctl := fun (u : State) => (u.get (F.INJ_D_CTL.HOLD p), u.get (F.INJ_D_CTL.RATIO p))
  if s.injChanged t (pairWords p) || (t == s.inj.since && ctl { s with regs := s.inj.oldRegs } != ctl s) then
    { x with fwd := ElSt.reset, rev := ElSt.reset }
  else x

/-- The pair evaluates its next SIX, one that has begun, once both channels are known for it. -/
def State.evalPair (s : State) (p : Nat) : Option State :=
  let t := (s.pair p).next
  let x := s.pairFrom p t
  let o := s.injAt t
  let v := o.get (F.INJ_D_CH.VCH p)
  let i := o.get (F.INJ_D_CH.ICH p)
  if decide (t ≤ s.six) && o.flag (F.INJ_D_CH.EN p) && (s.fast v t).isSome && (s.fast i t).isSome then
    let q := o.get (F.INJ_D_CH.QM1 p) + 1
    let hold := o.get (F.INJ_D_CTL.HOLD p)
    let w := match s.usableWindow v t q, s.usableWindow i t q with
      | some a, some b => some (a, b)
      | _, _ => none
    let bf := match w with
      | some (a, b) => pairBF (o.get (F.INJ_D_KZ.KZ p)) (windowStep q a) (windowStep q b)
      | none => (0, 0)
    let bmin := o.get (F.INJ_D_BMIN.BMIN p)
    let ratio := o.get (F.INJ_D_CTL.RATIO p)
    let isF := w.isSome && pairMeets bmin ratio bf.1 bf.2
    let isR := w.isSome && pairMeets bmin ratio bf.2 bf.1
    let test := w.any (fun y => y.1.any (·.test) || y.2.any (·.test))
    let subst := w.any (fun y => y.1.any (·.subst) || y.2.any (·.subst))
    let hit : ElSt := ⟨1, true, test, subst, t + hold - 1⟩
    let fwd := if isF then hit else heldOut x.fwd t isR
    let rev := if isR then hit else heldOut x.rev t isF
    let outs := [elOut t fwd w.isSome test subst, elOut t rev w.isSome test subst]
    let s := s.setPair p ⟨t + 1, fwd, rev, kvPut (fun _ => []) x.outs (t % histDepth) outs⟩
    some ((s.set (F.INJ_D_CTL.FWD p) (b2n fwd.out)).set (F.INJ_D_CTL.REV p) (b2n rev.out))
  else none

/-- The pair evaluates every SIX that is known, `fuel` SIX at most. -/
def catchUpPair : Nat → Nat → State → State
  | 0, _, s => s
  | f + 1, p, s =>
    match s.evalPair p with
    | some t => catchUpPair f p t
    | none => s

/-- The pair evaluates up to SIX `t` as far as both channels are known; only while the unit runs. -/
def State.pairTo (s : State) (p t : Nat) : State :=
  if s.flag F.INJ_STATUS.ARMED then catchUpPair (t + 1 - (s.pair p).next) p s else s

/-- A directional output for SIX `k`. -/
def State.pairAt (s : State) (p sel k : Nat) : Option ElOut :=
  let c := s.pair p
  if c.next ≤ k then none
  else match (kvGet (fun _ => []) c.outs (k % histDepth))[sel]? with
    | some o => if o.six = k then some o else some ⟨k, false, false, false, false⟩
    | none => some ⟨k, false, false, false, false⟩

/-- DIRECTIONAL_EVALUATE (R115). -/
def execDirectionalEvaluate (p : Fin 64) (s : State) : Host.Outcome State Fault Refusal :=
  .next (s.pairTo p (s.pair p).next)

/-- DIRECTIONAL_HOLD_EXPIRY (R115): the SIX after the hold that ends first is evaluated. -/
def execDirectionalHoldExpiry (p : Fin 64) (s : State) : Host.Outcome State Fault Refusal :=
  let x := s.pair p
  if s.flag (F.INJ_D_CTL.FWD p) ∧ x.fwd.holdEnd < s.six then .next (s.pairTo p (x.fwd.holdEnd + 1))
  else if s.flag (F.INJ_D_CTL.REV p) ∧ x.rev.holdEnd < s.six then .next (s.pairTo p (x.rev.holdEnd + 1))
  else .next s

/-! ## Gates (R120, R121) -/

/-- The gate mask in force at SIX `k` (R21). -/
def gatesAt : List (Nat × Nat) → Nat → Nat
  | [], _ => 0
  | g :: gs, k => if g.1 ≤ k then g.2 else gatesAt gs k

/-- The gates take the mask `m` from SIX `k` on; the history keeps the last 64 SIX (R120). -/
def State.setGates (s : State) (k m : Nat) : State :=
  let old := s.inj.gates
  let keep := old.takeWhile (fun g => s.six < g.1 + 64) ++ (old.dropWhile (fun g => s.six < g.1 + 64)).take 1
  ({ s with inj := { s.inj with gates := (k, m) :: keep } }).set64 A.INJ_GATE m

/-- Gates at INIT (R121). -/
def State.gatesInit (s : State) : State := s.setGates s.six (s.get64 A.INJ_GATE_INIT)

/-- Gates at their STEM policies from SIX `k` on (R121): 0 hold, 1 open, 2 closed. -/
def State.gatesStem (s : State) (k : Nat) : State :=
  let now := gatesAt s.inj.gates k
  s.setGates k ((List.range 64).foldl (fun m g =>
    let pol := fieldOf (s.rd (A.INJ_GATE_STEM (g / 16))) (2 * (g % 16)) 2
    m + (if pol = 1 then 1 else if pol = 2 then 0 else b2n (bit now g)) * 2 ^ g) 0)

/-! ## Rules (R116, R117) -/

def State.rule (s : State) (r : Nat) : RuleSt := kvGet (fun _ => RuleSt.reset) s.inj.rules r

def State.setRule (s : State) (r : Nat) (x : RuleSt) : State :=
  { s with inj := { s.inj with rules := kvPut (fun _ => RuleSt.reset) s.inj.rules r x } }

/-- A term of a rule (INJ_Rr_TERMk). -/
structure Term where
  src : Nat
  neg : Bool
  sel : Nat
  index : Nat
  win : Nat
deriving DecidableEq, Repr

/-- The term that a register word spells. -/
def termOf (w : Word) : Term := ⟨fieldOf w 0 4, bit w.toNat 4, fieldOf w 6 2, fieldOf w 8 8, fieldOf w 16 8⟩

/-- The used terms of rule `r`. -/
def State.terms (s : State) (r : Nat) : List Term :=
  ((List.range 8).map (fun k => termOf (s.rd (A.INJ_R_TERM r k)))).filter (fun m => m.src != 0)

/-- The source of a term at SIX `k`, or none while it is unknown (R111). -/
def State.sourceAt (s : State) (m : Term) (k : Nat) : Option ElOut :=
  if m.src = 1 then s.elementAt m.index m.sel k
  else if m.src = 2 then s.pairAt m.index m.sel k
  else (s.presentedAt m.index k).map (fun x => ⟨k, x.1, x.2, false, false⟩)

/-- Evaluates a term's source up to SIX `t` as far as known. -/
def State.sourceTo (s : State) (m : Term) (t : Nat) : State :=
  if m.src = 1 then s.elementsTo m.index t else if m.src = 2 then s.pairTo m.index t else s

/-- The sources of a term over its coincidence window that ends at `t`. -/
def State.termWindow (s : State) (m : Term) (t : Nat) : List ElOut :=
  (List.range (m.win + 1)).filterMap (fun i => if i ≤ t then s.sourceAt m (t - i) else none)

/-- Is a source output usable for a rule (R116)? One that carries SUBST is not unless SUBST_OK. -/
def ElOut.okFor (o : ElOut) (substOk : Bool) : Bool := o.usable && (!o.subst || substOk)

/-- Term truth (the fragment of R117). -/
def termTrue (m : Term) (substOk : Bool) (w : List ElOut) : Bool :=
  if m.neg then w.length == m.win + 1 && w.all (fun o => o.okFor substOk && !o.out)
  else w.any (fun o => o.okFor substOk && o.out)

/-- Does the true term take a TEST mark from its source (R119)? -/
def termTest (m : Term) (substOk : Bool) (w : List ElOut) : Bool :=
  w.any (fun o => o.okFor substOk && o.test && o.out != m.neg)

/-- Does R107 inhibit rule `r` at SIX `t`: does a term name an input that was PERSISTENT with PERS_BLOCK then? -/
def State.persistInhibit (s : State) (r t : Nat) : Bool :=
  (s.terms r).any (fun m => m.src == 3 && s.persAt m.index t)

/-- Truth of rule `r` at SIX `t` (R117). -/
def State.ruleTrue (s : State) (r t : Nat) : Bool :=
  let ok := s.flag (F.INJ_R_CTRL.SUBST_OK r)
  s.flag (F.INJ_R_CTRL.EN r) && (s.terms r).all (fun m => termTrue m ok (s.termWindow m t)) &&
    (!s.flag (F.INJ_R_CTRL.GATE_EN r) || bit (gatesAt s.inj.gates t) (s.get (F.INJ_R_CTRL.GATE r))) && !s.persistInhibit r t

/-- Is the decision of rule `r` at `t` a test decision (R119)? -/
def State.ruleTest (s : State) (r t : Nat) : Bool :=
  s.flag (F.INJ_R_CTRL.TEST r) ||
    (s.terms r).any (fun m => termTest m (s.flag (F.INJ_R_CTRL.SUBST_OK r)) (s.termWindow m t))

/-! ## Actions (R118, R119, R122, R123) -/

/-- TDOn is on, or off, from SIX `k` on (R123; a source of Loft terms, R262): what the history says of later SIX falls. -/
def State.noteTdo (s : State) (n k : Nat) (on : Bool) : State :=
  let h := (kvGet (fun _ => []) s.inj.tdoHist n).dropWhile (fun e => decide (k ≤ e.1))
  let h := if (h.head?.map Prod.snd).getD false = on then h else (k, on) :: h.take 255
  { s with inj := { s.inj with tdoHist := kvPut (fun _ => []) s.inj.tdoHist n h } }

/-- A decision enters the history that Loft terms read (R262): of a rule, or of a group. -/
def State.noteDecision (s : State) (group : Bool) (n k : Nat) : State :=
  { s with inj := { s.inj with decs := (group, n, k) :: s.inj.decs.take 4095 } }

/-- TDOn turns on by a decision of rule `r` at SIX `k` (R123): it is on from the first of its decisions' SIX, and TMIN counts from the
last. -/
def State.driveTdo (s : State) (n r k : Nat) : State :=
  let x := s.tdo n
  let on := s.flag (F.INJ_T_STAT.CMD n)
  let s := s.setTdo n { x with
    latest := some (if on then max k (x.latest.getD 0) else k), rules := r :: x.rules.filter (· != r), rstReq := false }
  let s := if on ∧ (histAt (kvGet (fun _ => []) s.inj.tdoHist n) k).getD false then s else s.noteTdo n k true
  (((s.set (bitField A.INJ_TDO n) 1).set (bitField A.INJ_TDO (16 + n)) 0).set (F.INJ_T_STAT.CMD n) 1).set (F.INJ_T_STAT.LATCHED n) 0

/-- The bits of a mask, lowest first. -/
def maskBits (n m : Nat) : List Nat := (List.range n).filter (bit m)

/-- Interjection `r` is raised to the program, tagged `k` (R122). -/
def State.interject (s : State) (r k : Nat) (test : Bool) : State :=
  let l := (k, s.six, test) :: (kvGet (fun _ => []) s.inj.intj r).take 255
  ({ s with inj := { s.inj with intj := kvPut (fun _ => []) s.inj.intj r l } } : State).pendEvent (fun e => e.intj.contains r) k

/-- The registers show a new decision of rule `r` at SIX `k` (R134), and the first one in STEM lets the capture buffer count POST (R133). -/
def State.showDecision (s : State) (r k cl td : Nat) (test : Bool) : State :=
  let s := (s.bump F.INJ_DEC_CNT.DEC).bump (F.INJ_R_STAT.DEC r)
  let s := (((s.set F.INJ_LAST.RULE r).set F.INJ_LAST.TEST (b2n test)).set F.INJ_LAST.CLMASK cl).set F.INJ_LAST.TDOMASK td
  let s := (s.set64 A.INJ_LAST_SIX k).raise F.INJ_EVT.DECISION
  if s.opstate = 1 ∧ s.get F.INJ_SCAP_CTL.STATE = 1 then
    ({ s with inj := { s.inj with scapLeft := s.get F.INJ_SCAP_POST.POST, scapDec := k } }).set F.INJ_SCAP_CTL.STATE 2
  else s

/-- A firing of rule `r` at SIX `k` performs the actions of its ACT register (R118, R122). Where every link of CLMASK already has a
decision for the target, it is no new decision (R118). -/
def State.makeDecision (s : State) (r k : Nat) (test : Bool) : State :=
  let o := s.injAt k
  let cl := o.get (F.INJ_R_ACT.CLMASK r)
  let td := o.get (F.INJ_R_ACT.TDOMASK r)
  let target := o.get (F.INJ_R_ACT.TARGET r)
  let index := if test then target + 16 else target
  let links := maskBits 8 cl
  let fresh := links.isEmpty || links.any (fun m => !s.tripStands m index k)
  let s := links.foldl (fun t m => t.tripLink m index k) s
  let s := if test then s else (maskBits 8 td).foldl (fun t n => t.driveTdo n r k) s
  let s := if o.flag (F.INJ_R_ACT.INTJ r) && s.opstate != 1 then s.interject r k test else s
  let s := s.noteDecision false r k
  let s := if fresh then s.showDecision r k cl (if test then 0 else td) test else s
  s.logFull (.named "DECISION") 3 k
    (leBytes 1 r ++ leBytes 1 cl ++ leBytes 1 td ++ leBytes 1 target ++ leBytes 1 (b2n test) ++ leBytes 8 k) test

/-! ## Conjunction (R125 to R127) -/

def State.group (s : State) (g : Nat) : GroupSt := kvGet (fun _ => GroupSt.reset) s.inj.groups g

def State.setGroup (s : State) (g : Nat) (x : GroupSt) : State :=
  { s with inj := { s.inj with groups := kvPut (fun _ => GroupSt.reset) s.inj.groups g x } }

/-- The VOTE word of group `g` (R50): wire number, state, SIX, vote sequence. -/
def State.voteWord (s : State) (g : Nat) : LinkWord :=
  let x := s.group g
  mkWord 0x0B (x.voteSeq % 8)
    (s.get (F.INJ_G_CFG.WIRE g) * 2 ^ 18 + s.get (F.INJ_G_STAT.STATE g) * 2 ^ 16 + x.voteSix % 65536) 0xFF

/-- The group's state changes to `st` with SIX `k`, and a VOTE goes to every admitted peer of PEERMASK (R62, R69, R81, R125). -/
def State.sendVote (s : State) (g st k : Nat) : State :=
  let x := s.group g
  let s := (s.setGroup g { x with voteSeq := (x.voteSeq + 1) % 8, voteSix := k, voteStart := s.six }).set (F.INJ_G_STAT.STATE g) st
  (maskBits 4 (s.get (F.INJ_G_CFG.PEERMASK g))).foldl (fun t p =>
    if t.portSends (40 + p) then t.sendWord (40 + p) 25 (t.voteWord g) else t) s

/-- Peers of group `g` that count as missing (R127): port in any state other than RUN. -/
def State.missingPeers (s : State) (g : Nat) : Nat :=
  ((maskBits 4 (s.get (F.INJ_G_CFG.PEERMASK g))).filter (fun p => s.portState (40 + p) != pRUN)).length

/-- K_EFF of group `g` as the ports stand (R127). -/
def State.kEff (s : State) (g : Nat) : Nat :=
  let k := s.get (F.INJ_G_CFG.K g)
  if s.flag (F.INJ_G_CFG.DEGRADE g) then max (s.get (F.INJ_G_CFG.KMIN g)) (k - s.missingPeers g) else k



/-- K_EFF for a pickup at SIX `k`. -/
def State.kAt (s : State) (g k : Nat) : Nat := ((s.group g).kHist.find? (fun h => h.1 ≤ k)).elim (s.kEff g) (·.2)

/-- Does a vote count for a pickup at SIX `k` (R126, R71)? -/
def State.voteCounts (s : State) (g k : Nat) (v : Vote) : Bool :=
  let w := s.get (F.INJ_G_WIN.VWIN g)
  bit (s.get (F.INJ_G_CFG.PEERMASK g)) v.peer && s.portState (40 + v.peer) == pRUN && (v.state == 1 || v.state == 2) &&
    k ≤ v.six + w && v.six ≤ k + w && v.done < k + s.get (F.INJ_G_WIN.VWAIT g)

/-- Votes counted for a pickup at SIX `k`. -/
def State.voteCount (s : State) (g k : Nat) : Nat := ((s.group g).votes.filter (s.voteCounts g k)).length

/-- Group `g` returns to RESET when the rules that picked it up have re-armed and it holds no pickup (R125). -/
def State.groupReset (s : State) (g : Nat) : State :=
  let x := s.group g
  if x.owners ≠ [] ∧ x.owners.all (fun r => (s.rule r).armed) ∧ x.pickups = [] ∧ s.get (F.INJ_G_STAT.STATE g) ≠ 0 then
    ((s.setGroup g { x with owners := [] }).sendVote g 0 s.six).set (F.INJ_G_STAT.VOTES g) 0
  else s

/-- A re-armed rule lets its group return to RESET. -/
def State.groupRelease (s : State) (r : Nat) : State :=
  if s.flag (F.INJ_R_ACT.CONJ r) then s.groupReset (s.get (F.INJ_R_ACT.CGRP r)) else s

/-- A pickup of group `g` stands no longer. -/
def State.dropPickup (s : State) (g : Nat) (u : Pickup) : State :=
  let x := s.group g
  let l := x.pickups.filter (fun v => v != u)
  let s := s.setGroup g { x with pickups := l }
  if l.any (fun v => v.rule == u.rule) then s else s.set (F.INJ_R_STAT.PICKUP u.rule) 0

/-- One standing pickup of group `g`: with it and at least K_EFF - 1 counted votes together, the group decides (R125). -/
def State.pickupTry (s : State) (g : Nat) (u : Pickup) : State :=
  let n := s.voteCount g u.six
  let s := s.set (F.INJ_G_STAT.VOTES g) n
  if s.kAt g u.six ≤ n + 1 then
    ((((s.dropPickup g u).makeDecision u.rule u.six u.test).noteDecision true g u.six).sendVote g 2 u.six).groupReset g
  else s

/-- Every standing pickup of group `g` that has its votes decides. -/
def State.groupTry (s : State) (g : Nat) : State := (s.group g).pickups.foldl (fun t u => t.pickupTry g u) s

/-- Would a vote count for a pickup of group `g` at SIX `k` had it not come at `s + VWAIT` or later (R126)? -/
def State.voteTooLate (s : State) (g k : Nat) (v : Vote) : Bool :=
  let w := s.get (F.INJ_G_WIN.VWIN g)
  (v.state == 1 || v.state == 2) && k ≤ v.six + w && v.six ≤ k + w && k + s.get (F.INJ_G_WIN.VWAIT g) ≤ v.done

/-- Rule `r` with CONJ picks up its group at SIX `k` (R125). -/
def State.pickUp (s : State) (g r k : Nat) (test : Bool) : State :=
  let x := s.group g
  let s := s.setGroup g { x with
    pickups := x.pickups ++ [⟨k, r, test⟩], owners := r :: x.owners.filter (· != r), picks := k :: x.picks.take 63 }
  let s := if x.votes.any (s.voteTooLate g k) then s.raise F.INJ_EVT.VOTE_LATE else s
  ((s.set (F.INJ_R_STAT.PICKUP r) 1).sendVote g 1 k).groupTry g

/-- MISSING and K_EFF of group `g` follow the peers; a change of K_EFF raises CONJ_DEGRADED, and standing pickups are judged anew (R127). -/
def State.conjUpdate (s : State) (g : Nat) : State :=
  if s.flag (F.INJ_G_CFG.EN g) then
    let k := s.kEff g
    let old := s.get (F.INJ_G_STAT.K_EFF g)
    let s := s.set (F.INJ_G_STAT.MISSING g) (s.missingPeers g)
    if k = old then s
    else
      let x := s.group g
      let s := (s.setGroup g { x with kHist := (s.six, k) :: x.kHist.take 63 }).set (F.INJ_G_STAT.K_EFF g) k
      ((s.raise F.INJ_EVT.CONJ_DEGRADED).logNamed "CONJ_DEGRADED" (leBytes 1 g ++ leBytes 1 k)).groupTry g
  else s

/-- Every group follows the peers. -/
def State.conjUpdateAll (s : State) : State := (List.range 16).foldl (fun t g => t.conjUpdate g) s

/-! ## Evaluation of rules -/

/-- Rule `r` fires at SIX `t`, its decision a test decision or not (R117, R122, R125). -/
def State.fire (s : State) (r t : Nat) (test : Bool) : State :=
  let o := s.injAt t
  if o.flag (F.INJ_R_ACT.CONJ r) then s.pickUp (o.get (F.INJ_R_ACT.CGRP r)) r t test else s.makeDecision r t test

/-- Every source of rule `r` evaluated up to SIX `t` as far as known. -/
def State.sourcesTo (s : State) (r t : Nat) : State := ((s.injAt t).terms r).foldl (fun u m => u.sourceTo m t) s

/-- Output releases at this SIX that have not been performed (order 1 of R32). -/
def State.outputsOpen (s : State) : Bool := s.tsk.cyc.any (fun e => e.2.any (fun c => c.kind ≤ 1 && c.rel + c.period == s.six))

/-- Are all inputs of rule `r` known for SIX `t` (R111), the gate writes of that SIX among them (R21)? -/
def State.ruleKnown (s : State) (r t : Nat) : Bool :=
  t ≤ s.six && (s.terms r).all (fun m => (s.sourceAt m t).isSome) &&
    (!s.flag (F.INJ_R_CTRL.GATE_EN r) || decide (t < s.six) || !s.outputsOpen)

/-- The rule's registers and history for SIX `t`. -/
def State.ruleStat (s : State) (r : Nat) (x : RuleSt) (t : Nat) (test : Bool) : State :=
  let s := s.setRule r { x with outs := kvPut (fun _ => []) x.outs (t % histDepth) [⟨t, x.tru, true, test, false⟩] }
  (s.set (F.INJ_R_STAT.TRUE r) (b2n x.tru)).set (F.INJ_R_STAT.ARMED r) (b2n x.armed)

/-- The registers of rule `r`. -/
def ruleWords (r : Nat) : List Nat := (List.range 8).map (A.INJ_R_TERM r) ++ [A.INJ_R_CTRL r, A.INJ_R_ACT r]

/-- The rule before it evaluates SIX `t`: at the SIX from which a configuration counts that changes it, it has restarted disarmed (R132). -/
def State.ruleFrom (s : State) (r t : Nat) : RuleSt :=
  let x := s.rule r
  if s.injChanged t (ruleWords r) then { x with tru := false, armed := false, lowRun := 0 } else x

/-- One rule's evaluation of its next SIX (the fragment of R117). -/
def State.evalRule (s : State) (r : Nat) : State :=
  let t := (s.rule r).next
  let x := s.ruleFrom r t
  let o := s.injAt t
  if o.ruleTrue r t then
    let test := o.ruleTest r t
    let u := s.ruleStat r { x with next := t + 1, tru := true, armed := false, lowRun := 0 } t test
    if x.armed then u.fire r t test else u
  else
    let low := min (x.lowRun + 1) 65535
    let rearm := !x.armed && o.get (F.INJ_R_CTRL.DROPOUT r) ≤ low
    let u := s.ruleStat r { x with next := t + 1, tru := false, armed := x.armed || rearm, lowRun := low } t false
    if rearm then u.groupRelease r else u

/-- May rule `r` evaluate: the unit is armed, the rule enabled, every input of its next SIX known? The state has its sources
evaluated. -/
def State.ruleReady (s : State) (r : Nat) : Bool × State :=
  let t := (s.rule r).next
  let u := s.sourcesTo r t
  let o := u.injAt t
  (s.flag F.INJ_STATUS.ARMED && o.flag (F.INJ_R_CTRL.EN r) && o.ruleKnown r t, u)

/-- RULE_EVALUATE (R111, R117). -/
def execRuleEvaluate (r : Fin 128) (s : State) : Host.Outcome State Fault Refusal :=
  let p := s.ruleReady r
  .next (if p.1 then p.2.evalRule r else s)

/-- RULE_REARM (R117): the evaluation that completes the DROPOUT run of a disarmed rule. -/
def execRuleRearm (r : Fin 128) (s : State) : Host.Outcome State Fault Refusal :=
  let p := s.ruleReady r
  let t := (s.rule r).next
  let x := s.ruleFrom r t
  let o := p.2.injAt t
  .next (if p.1 && !x.armed && !o.ruleTrue r t && o.get (F.INJ_R_CTRL.DROPOUT r) ≤ x.lowRun + 1 then p.2.evalRule r else s)

/-- The full SIX whose low 16 bits are `v` within 32 768 of the current peer SIX, translated by the peer's offset (R80). -/
def State.translate16 (s : State) (p v : Nat) : Nat :=
  let ofs := signed 64 (s.get64 (A.HJL_P_PEER_OFS p))
  let peerNow := (s.six : Int) + Int.fdiv (ofs + 32768) 65536
  let d := signed 16 (unsigned 16 ((v : Int) - peerNow))
  (peerNow + d - Int.fdiv (ofs + 32768) 65536).toNat

/-- VOTE_RECEIVED (R81, R126, R71): the peer's latest vote for the group with that wire number, the first of its vote sequence; state 3
is discarded; a vote that would have counted but comes late raises VOTE_LATE. -/
def execVoteReceived (p : Fin 4) (wire : BitVec 6) (state : BitVec 2) (six : BitVec 16) (vseq : BitVec 3) (s : State) :
    Host.Outcome State Fault Refusal :=
  let g? := (List.range 16).find? (fun g => s.flag (F.INJ_G_CFG.EN g) && s.get (F.INJ_G_CFG.WIRE g) == wire.toNat)
  match g? with
  | none => .next s
  | some g =>
    if state = 3 ∨ s.portState (40 + p) ≠ pRUN ∨ !bit (s.get (F.INJ_G_CFG.PEERMASK g)) p then .next s
    else
      let x := s.group g
      let v : Vote := ⟨p, state.toNat, s.translate16 (40 + p) six.toNat, s.six, vseq.toNat⟩
      if x.votes.any (fun u => u.peer == p.val && u.vseq == vseq.toNat) then .next s
      else
        let s := s.setGroup g { x with votes := v :: x.votes.filter (fun u => u.peer != p.val) }
        let late := x.picks.any (fun k => s.voteTooLate g k v)
        .next ((if late then s.raise F.INJ_EVT.VOTE_LATE else s).groupTry g)

/-- PICKUP_EXPIRED (R126): every standing pickup short of votes at s + VWAIT. -/
def execPickupExpired (g : Fin 16) (s : State) : Host.Outcome State Fault Refusal :=
  let due := (s.group g).pickups.filter (fun u => decide (u.six + s.get (F.INJ_G_WIN.VWAIT g) ≤ s.six))
  if due = [] then .next s else .next ((due.foldl (fun t u => t.dropPickup g u) s).groupReset g)

/-! ## Trip driver outputs (R123, R124) -/

/-- Is a rule that drives TDOn true? -/
def State.tdoDriven (s : State) (n : Nat) : Bool := (s.tdo n).rules.any (fun r => (s.rule r).tru)

/-- Was rule `r` true at SIX `k`? -/
def State.ruleAt (s : State) (r k : Nat) : Bool :=
  ((kvGet (fun _ => []) (s.rule r).outs (k % histDepth)).head?).any (fun o => o.six == k && o.out)

/-- The latest SIX for which every rule that drives TDOn has been evaluated, or the rule is off. -/
def State.tdoKnown (s : State) (n : Nat) : Nat :=
  (s.tdo n).rules.foldl (fun k r =>
    if s.flag F.INJ_STATUS.ARMED && s.flag (F.INJ_R_CTRL.EN r) then min k ((s.rule r).next - 1) else k) s.six

/-- The first SIX from `k` on, `fuel` SIX at most, at which no rule that drives TDOn is true. -/
def State.tdoQuiet (s : State) (n : Nat) : Nat → Nat → Option Nat
  | 0, _ => none
  | f + 1, k => if (s.tdo n).rules.any (fun r => s.ruleAt r k) then s.tdoQuiet n f (k + 1) else some k

/-- The SIX at which TDOn falls by R123: the first past TMIN after its latest decision at which no driving rule is true, among those for
which the rules have been evaluated. -/
def State.tdoFalls (s : State) (n : Nat) : Option Nat :=
  match (s.tdo n).latest with
  | some k =>
    let e := s.tdoKnown n
    let b := max (k + s.get (F.INJ_T_CFG.TMIN n) * baseCycle) (e + 1 - histDepth)
    s.tdoQuiet n (e + 1 - b) b
  | none => none

/-- TDOn turns off from SIX `k` on. -/
def State.tdoOff (s : State) (n k : Nat) : State :=
  let s := (s.setTdo n { s.tdo n with latest := none, rules := [], rstReq := false }).noteTdo n k false
  (((s.set (bitField A.INJ_TDO n) 0).set (bitField A.INJ_TDO (16 + n)) 0).set (F.INJ_T_STAT.CMD n) 0).set (F.INJ_T_STAT.LATCHED n) 0

/-- TDO_RELEASE (R123): off, or held by LATCH until the reset kick. -/
def execTdoRelease (n : Fin 8) (s : State) : Host.Outcome State Fault Refusal :=
  match s.tdoFalls n with
  | some k =>
    if s.flag (F.INJ_T_STAT.CMD n) then
      if s.flag (F.INJ_T_CFG.LATCH n) ∧ !(s.tdo n).rstReq then
        .next ((s.set (bitField A.INJ_TDO (16 + n)) 1).set (F.INJ_T_STAT.LATCHED n) 1)
      else .next (s.tdoOff n (if (s.tdo n).rstReq then s.six else k))
    else .next s
  | none => .next s

/-- One bit of the INJ_TDO_RST kick (R123): a latched TDO is released; a kick for another is ignored. -/
def State.tdoReset (s : State) (n : Nat) : State :=
  let s := s.setTdo n { s.tdo n with rstReq := true }
  if s.tdoDriven n then s else s.tdoOff n s.six

/-- INJ_TDO_RST (R123): a kick for a TDO that is not LATCHED is ignored and counted with cause 6. -/
def execInjTdoRst (pf : Fin 2) (w : Word) (s : State) : Host.Outcome State Fault Refusal :=
  .next (whenAllowed (s.gate pf A.INJ_TDO_RST w (some 0) false) (fun t =>
    let mask := fieldOf w 0 8
    let bad := (maskBits 8 mask).any (fun n => !t.flag (F.INJ_T_STAT.LATCHED n))
    let u := (maskBits 8 mask).foldl (fun u n => if u.flag (F.INJ_T_STAT.LATCHED n) then u.tdoReset n else u) t
    if bad then u.deny pf 6 A.INJ_TDO_RST else u))

/-- TDO_FAIL (R124). -/
def execTdoFail (n : Fin 8) (s : State) : Host.Outcome State Fault Refusal :=
  let on := s.flag (F.INJ_T_STAT.CMD n)
  let f := if on then F.INJ_T_STAT.FAIL_ON n else F.INJ_T_STAT.FAIL_OFF n
  if s.flag (F.INJ_T_CFG.RB_EN n) ∧ s.get (F.INJ_T_CFG.RB_T n) ≤ (s.tdo n).misRun ∧ !s.flag f then
    .next (((s.set f 1).raise F.INJ_EVT.TDO_FAIL).logNamedSev "TDO_FAIL" 3 (leBytes 1 n ++ leBytes 1 (b2n on)))
  else .next s

/-- TDO_FAIL_CLEAR (R124). -/
def execTdoFailClear (n : Fin 8) (s : State) : Host.Outcome State Fault Refusal :=
  if s.get (F.INJ_T_CFG.RB_T n) ≤ (s.tdo n).matchRun then
    .next ((s.set (F.INJ_T_STAT.FAIL_ON n) 0).set (F.INJ_T_STAT.FAIL_OFF n) 0)
  else .next s

/-! ## STEM capture buffer (R133) -/

/-- Depth of the STEM capture buffer. -/
def scapDepth : Nat := 131072

/-- The line of SIX `k` enters the buffer: for each used slot the 24-bit code and the quality byte; a sample that has not arrived by then
is MISSING (R120). -/
def State.scapLine (s : State) (k : Nat) : State :=
  (List.range 32).foldl (fun t i =>
    if t.flag (F.INJ_SCAP.EN i) then
      let ch := t.get (F.INJ_SCAP.CH i)
      let x := (t.fast ch k).getD (missingSamp k (t.lastVal (fcKey ch)) t.six)
      let w := unsigned 24 x.code + x.q * 2 ^ 24
      let line := kvPut (fun _ => 0) (kvGet (fun _ => []) t.inj.scap i) (k % scapDepth) w
      { t with inj := { t.inj with scap := kvPut (fun _ => []) t.inj.scap i line } }
    else t) s

/-- What the buffer does in one sample period: it writes while the unit runs and is not frozen; POST counts down. -/
def State.scapStep (s : State) : State :=
  let st := s.get F.INJ_SCAP_CTL.STATE
  if s.flag F.INJ_STATUS.ARMED ∧ (st = 1 ∨ (st = 2 ∧ 0 < s.inj.scapLeft)) then
    let s := s.scapLine (s.six - 45)
    let first := some (s.inj.scapFirst.getD (s.six - 45))
    let s := { s with inj := { s.inj with scapFirst := first, scapLast := s.six - 45 } }
    if st = 2 then { s with inj := { s.inj with scapLeft := s.inj.scapLeft - 1 } } else s
  else s

/-- SCAP_FROZEN (R133). -/
def execScapFrozen (s : State) : Host.Outcome State Fault Refusal :=
  if s.get F.INJ_SCAP_CTL.STATE = 2 ∧ s.inj.scapLeft = 0 then
    .next (((s.set F.INJ_SCAP_CTL.STATE 3).set64 A.INJ_SCAP_SIX s.inj.scapDec).raise F.INJ_EVT.SCAP_FROZEN)
  else .next s

/-- The buffer is empty and writes again while the unit runs (R133). -/
def State.scapRearm (s : State) : State :=
  ({ s with inj := { s.inj with scap := [], scapLeft := 0, scapFirst := none } }).set F.INJ_SCAP_CTL.STATE (b2n (s.flag F.INJ_STATUS.ARMED))

/-- SCAP_REARM (R133): privileged, under OPERATE. -/
def execScapRearm (pf : Fin 2) (w : Word) (s : State) : Host.Outcome State Fault Refusal :=
  .next (whenAllowed (s.gate pf A.INJ_SCAP_CTL w (some 0) false) (fun t => if bit w.toNat 2 then t.scapRearm else t))

/-! ## Restart (R117, R121, R132) -/

/-- A rule restarts at the current SIX, armed or disarmed, its counters cleared. -/
def State.restartRule (s : State) (r : Nat) (armed : Bool) : State :=
  let s := s.setRule r { RuleSt.reset with next := s.six, armed := armed }
  ((s.set (F.INJ_R_STAT.TRUE r) 0).set (F.INJ_R_STAT.ARMED r) (b2n armed)).set (F.INJ_R_STAT.PICKUP r) 0

def State.restartChan (s : State) (n : Nat) : State :=
  (s.setChan n { ChanEl.reset with next := s.six }).wr (A.INJ_C_STAT n) 0

def State.restartPair (s : State) (p : Nat) : State :=
  ((s.setPair p { PairSt.reset with next := s.six }).set (F.INJ_D_CTL.FWD p) 0).set (F.INJ_D_CTL.REV p) 0

def State.restartGroup (s : State) (g : Nat) : State :=
  let k := s.kEff g
  let s := (s.group g).pickups.foldl (fun t u => t.dropPickup g u) s
  let s := s.setGroup g { GroupSt.reset with kHist := [(s.six, k)], voteSeq := (s.group g).voteSeq }
  (((s.set (F.INJ_G_STAT.STATE g) 0).set (F.INJ_G_STAT.VOTES g) 0).set (F.INJ_G_STAT.MISSING g) (s.missingPeers g)).set
    (F.INJ_G_STAT.K_EFF g) k

/-- The fast path arms (R132, R411): every enabled rule armed, counters and holds cleared. -/
def State.armFastPath (s : State) : State :=
  let s := (List.range 256).foldl State.restartChan s
  let s := (List.range 64).foldl State.restartPair s
  let s := (List.range 16).foldl State.restartGroup s
  let s := (List.range 128).foldl (fun t r => t.restartRule r (t.flag (F.INJ_R_CTRL.EN r))) s
  let s := s.set F.INJ_STATUS.ARMED 1
  if s.get F.INJ_SCAP_CTL.STATE = 0 then s.set F.INJ_SCAP_CTL.STATE 1 else s

/-- The unit stops: HALT, or MAINT without the fast path (R38); trip driver outputs de-energise (R123). -/
def State.stopFastPath (s : State) : State :=
  let s := (List.range 8).foldl (fun t n => t.tdoOff n t.six) s
  let s := s.set F.INJ_STATUS.ARMED 0
  if s.get F.INJ_SCAP_CTL.STATE = 1 then s.set F.INJ_SCAP_CTL.STATE 0 else s

end Sys2Proof.Machine
end

