-- ==== Sys2Proof/Machine/Hjl.lean ====
section
/-!
DEFINITION. Machine/Hjl.lean: what happens on the Hjelig links (R44 to R83, R461, R463): frames and words received, delay
calibration, admission, loss, death, substitution, quarantine, peer time, the repetition of trip words.
-/
namespace Sys2Proof.Machine
open Sys2Proof

/-! ## Sample ports and their contexts -/

/-- Is the port a sample link? -/
def isSL (p : Nat) : Bool := p < 32

/-- Is the port a command link? -/
def isCL (p : Nat) : Bool := 32 ≤ p && p < 40

/-- Is the port a peer link? -/
def isPL (p : Nat) : Bool := 40 ≤ p && p < 44

/-- The context that the sample of SIX `k` of port `p` feeds (R68, R70): its own, that of the station it serves as a bound spare, or none
while a spare serves the port's own station. -/
def State.feeds (s : State) (p k : Nat) : Option Nat :=
  match histAt (s.port p).feed k with
  | some n => n
  | none => some p

/-- From SIX `k` on the samples of port `p` feed context `n`. -/
def State.setFeed (s : State) (p k : Nat) (n : Option Nat) : State :=
  s.setPort p { s.port p with feed := ((k, n) :: (s.port p).feed.filter (fun e => decide (e.1 < k))).take 8 }

/-- A sample of channel `c` of context `n` is MISSING at SIX `k`. -/
def State.missSamp (s : State) (n c k : Nat) : State :=
  let s := s.fileSamp n c (missingSamp k (s.lastVal (chKey n c)) s.six)
  (s.countMiss n 1).elementsTo (8 * n + c) k

/-- A sample of channel `c` that port `p` delivers is MISSING at SIX `k` (R49, R61). -/
def State.markMissing (s : State) (p c k : Nat) : State :=
  match s.feeds p k with
  | some n => s.missSamp n c k
  | none => s

/-- All samples of the frame of SIX `k` are MISSING. -/
def State.markFrame (s : State) (p k : Nat) : State := (List.range 8).foldl (fun t c => t.markMissing p c k) s

/-- The samples of context `n` from SIX `k` on that have been filed are MISSING after all (R65). -/
def State.unfile (s : State) (n k : Nat) : State :=
  (List.range (s.six + 1 - k)).foldl (fun t i =>
    (List.range 8).foldl (fun u c =>
      match u.listed (chKey n c) (k + i) with
      | some y => if bit y.q 2 then u else u.fileSamp n c (missingSamp (k + i) (u.lastVal (chKey n c)) u.six)
      | none => u) t) s

/-- Contexts of kind 6 that receive a shelf on peer port `p`. -/
def State.peerCtxs (s : State) (p : Nat) : List Nat :=
  (s.fp.peers.filter (fun e => e.2.1 == p && s.kind e.1 == 6 && decide (2 ≤ s.ctxState e.1))).map Prod.fst

/-- The port stops delivering from SIX `k` on: its context, or its peer contexts, are MISSING (R65, R68, R71, R86). The samples of the
frames passed since count (SFB_Cn_CNT). -/
def State.dropPort (s : State) (p k : Nat) : State :=
  if isSL p then
    match s.feeds p k with
    | some n => (((s.unfile n k).ctxMissing n k).countMiss n (8 * (s.six - 1 - (s.port p).lastFrame)))
    | none => s
  else if isPL p then (s.peerCtxs p).foldl (fun t n => t.ctxMissing n k) s
  else s

/-- A peer port is in service again: its contexts that were MISSING are in RUN (R66, R71, R86). -/
def State.peerBack (s : State) (p : Nat) : State :=
  (s.peerCtxs p).foldl (fun t n => if t.ctxState n = 4 then (t.ctxReceiving n t.six).setCtxState n 2 else t) s

/-- Is the port's delay VALID and not under recalibration for a sample of SIX `k` (R59, R102, R110)? -/
def State.delayOk (s : State) (p k : Nat) : Bool :=
  s.flag (F.HJL_P_DELAY.VALID p) && !(s.port p).recal && decide ((s.port p).validFrom ≤ k)

/-- L of R131 for a peer port: twice the one-way delay, at least 200 ns; 0 while the delay is not VALID. -/
def State.peerLoop (s : State) (p : Nat) : State :=
  if isPL p then
    s.set (F.INJ_PEER.L_NS (p - 40)) (if s.flag (F.HJL_P_DELAY.VALID p) then max (s.get (F.HJL_P_DELAY.D p) / 4) 200 else 0)
  else s

/-! ## Spares (R68) -/

/-- The first enabled spare plan entry for station `st` whose spare port is in STANDBY. -/
def State.spareFor (s : State) (st : Nat) : Option Nat :=
  (List.range 8).find? (fun n => s.flag (F.HJL_SPARE.EN n) && s.get (F.HJL_SPARE.STATION n) == st &&
    s.portState (s.get (F.HJL_SPARE.SPARE_PORT n)) == pSTANDBY)

/-- Entry `n` binds its spare to station `st`; `trips` are the station's unacknowledged decisions. -/
def State.bindSpare (s : State) (n st : Nat) (trips : List Trip) : State :=
  let q := s.get (F.HJL_SPARE.SPARE_PORT n)
  let k := s.six + 1
  let s := if isSL q then (s.ctxMissing q k).setFeed q k (some st) else s
  let s := ((s.set (F.HJL_SPARE.BOUND n) 1).setPortState q pBOUND).set (F.HJL_P_STATE.STATION q) st
  let s := if isSL q then
      let s := (s.setCtxState st 3).set (F.SFB_C_STATE.SOURCE st) q
      (s.ctxReceiving st k).settle st k 7
    else s
  let s := if isCL q then s.sendSafe q st else s
  trips.foldl (fun t d => t.newTrip q d.index d.decSix) s

/-- Station `st` has died: the first spare that waits is bound to it; without one nothing serves it. A station that a spare serves stays
with it. -/
def State.stationDied (s : State) (st : Nat) (trips : List Trip) : State :=
  if (s.boundEntry st).isSome then s
  else match s.spareFor st with
  | some n => s.bindSpare n st trips
  | none => s

/-- Port `p` serves no station other than its own any longer: a spare plan entry that bound it is released, and its samples from now on
are its own again. -/
def State.unbind (s : State) (p : Nat) : State :=
  match s.boundEntry (s.station p) with
  | some n =>
    if s.get (F.HJL_SPARE.SPARE_PORT n) = p then
      ((s.set (F.HJL_SPARE.BOUND n) 0).set (F.HJL_P_STATE.STATION p) p).setFeed p (s.six + 1) (some p)
    else s
  | none => s

/-- The port is DEAD (R67, R68): incarnation retired, its group discarded and counted, its unacknowledged trips handed on. -/
def State.killPort (s : State) (p : Nat) : State :=
  let x := s.port p
  let st := s.station p
  let trips := x.pending
  let s := if x.group.isSome then s.bump (F.HJL_P_CNT.CMD_DISC p) else s
  let s := s.setPort p { x with
    retired := s.portInc p, oldUid := s.get64 (A.HJL_P_UID p), trips := [], group := none, calPhase := 0,
    compPend := none, recal := false }
  let s := ((s.set (F.HJL_P_STATE.INC p) 0).setPortState p pDEAD).tripRegs p
  let s := ((s.unbind p).raise (F.HJL_P_EVT.DEAD p)).logNamed "HJL_DEAD" (leBytes 1 p)
  let s := (s.stationDied st trips).noteStations
  if isPL p then s.conjUpdateAll else s

/-! ## Admission (R62 to R64, R67, R69, R463) -/

/-- The next incarnation: one past the last, skipping 0 (R64). -/
def nextInc (n : Nat) : Nat := if (n + 1) % 65536 = 0 then 1 else (n + 1) % 65536

/-- Is the station whose home is port `p` served by a spare? -/
def State.spared (s : State) (p : Nat) : Bool := (s.boundSpare p).any (· != p)

/-- Role 1, standby spare: a spare port, or a home port whose station a spare serves (R68, R70). -/
def State.role (s : State) (p : Nat) : Nat := b2n (s.get (F.HJL_P_CFG.ROLE p) == 2 || s.spared p)

/-- ADMIT (R64): a new incarnation, written to the island before the message; calibration begins. -/
def State.admitPartner (s : State) (p : Nat) (h : Hello) : State :=
  let inc := nextInc s.sec.incarnation
  let s := { s with sec := { s.sec with incarnation := inc } }
  let s := (s.set F.HJL_INC_LAST.INC inc).logAt (.num 0x0101) (Config.sevOf "ADMIT").toNat s.six (leBytes 2 inc)
  let s := s.sendMsg p 0x02 (beBytes 8 h.uid.toNat ++ beBytes 2 inc ++ beBytes 1 p ++ beBytes 1 (s.role p))
  let s := ((s.set (F.HJL_P_STATE.INC p) inc).set (F.HJL_P_STATE.STATION p) p).set64 (A.HJL_P_UID p) h.uid.toNat
  let s := ((s.set (F.HJL_P_DELAY.VALID p) 0).setPortState p pCALIB).raise (F.HJL_P_EVT.ADMIT p)
  let s := s.setPort p { s.port p with
    calPhase := 4, calCount := 0, calSum := 0, calFail := false, pingMiss := 0, pingOut := false, recent := [], compPend := none,
    recal := false, validFrom := 0, mismatches := 0, timeSent := false, peerSamples := [] }
  s.peerLoop p

/-- The reason of the first failing check of a HELLO (R63). -/
def State.helloReason (s : State) (p : Nat) (h : Hello) : Option Nat :=
  let pin := kvGet (fun _ => ⟨0, [], []⟩) s.fp.pins p
  if s.get (F.HJL_P_CFG.ROLE p) = 0 then some 0x07
  else if h.utype.toNat ≠ s.get (F.HJL_P_CFG.TYPE p) then some 0x01
  else if h.version ≠ 1 then some 0x04
  else if s.flag (F.HJL_P_CFG.PIN_UID p) ∧ h.uid.toNat ≠ pin.uid then some 0x02
  else if s.flag (F.HJL_P_CFG.PIN_DIGEST p) ∧ h.digest ∉ pin.digests then some 0x03
  else none

/-- Step 3 of R62: ADMIT or REFUSE. -/
def State.checkHello (s : State) (p : Nat) (h : Hello) : State :=
  let s := s.setPortState p pHELLO
  (s.helloReason p h).elim (s.admitPartner p h) (s.refuse p)

/-- QUARANTINE (R69): the event, one Cellar entry; the port sends only IDLE from now on. -/
def State.quarantine (s : State) (p : Nat) : State :=
  let s := (s.setPortState p pQUAR).raise (F.HJL_P_EVT.QUAR p)
  (s.setPort p { s.port p with quarFresh := false }).logNamed "HJL_QUARANTINE" (leBytes 1 p)

/-- Does the exception of R67 hold: READMIT_AUTO on a port whose station is not bound to a spare? -/
def State.autoReadmit (s : State) (p : Nat) : Bool := s.flag (F.HJL_P_CFG.READMIT_AUTO p) && !s.spared p

/-- A HELLO on a DEAD port (R67, R69). -/
def State.helloDead (s : State) (p : Nat) (h : Hello) : State :=
  if s.autoReadmit p then s.checkHello p h
  else if h.uid.toNat = (s.port p).oldUid then s.quarantine p
  else s.logNamed "HJL_HELLO_UNANSWERED" (leBytes 1 p ++ leBytes 8 h.uid.toNat)

/-- Does a message of `kind` come whole (R53): the message begun last has not been discarded and is of that kind? -/
def Port.whole (x : Port) (kind : Nat) : Bool := !x.rxDead && x.rx.all (fun r => r.1 == kind)

/-- No message is being received on port `p` any longer. -/
def State.msgDone (s : State) (p : Nat) : State := s.setPort p { s.port p with rx := none }

/-- HELLO_RECEIVED (R53, R62, R63, R67, R69, R463). -/
def execHelloReceived (p : Fin 44) (h : Hello) (s : State) : Host.Outcome State Fault Refusal :=
  let st := s.portState p
  let whole := (s.port p).whole 1
  let s := s.msgDone p
  if !whole ∨ s.six < (s.port p).ignoreTill then .next s
  else if st = pSYNC ∨ st = pHELLO then .next (s.checkHello p h)
  else if st = pLOST then .next ((s.killPort p).helloDead p h)
  else if st = pDEAD then .next (s.helloDead p h)
  else .next s

/-- The votes of peer `q` before its latest admission count no longer. -/
def State.forgetVotes (s : State) (q : Nat) : State :=
  (List.range 16).foldl (fun t g =>
    t.setGroup g { t.group g with votes := (t.group g).votes.filter (fun v => v.peer != q) }) s

/-- Steps 7 and 8 of R62: SAFE for a command unit, RUN, and the port in RUN or STANDBY. -/
def State.runPort (s : State) (p : Nat) : State :=
  let s := if isCL p then s.sendSafe p p else s
  let s := s.sendMsg p 0x04 (beBytes 2 (s.portInc p) ++ beBytes 1 0)
  let s := s.setPort p { s.port p with calPhase := 0, useFrom := s.six + 1, chstat := false, timeSent := false }
  let s := s.setFeed p (s.six + 1) (if s.spared p then none else some p)
  let s := s.setPortState p (if s.role p = 1 then pSTANDBY else pRUN)
  if isPL p then ((s.forgetVotes (p - 40)).peerBack p).conjUpdateAll else s

/-! ## Delay calibration (R56 to R59) -/

/-- The mean of measurements. -/
def meanOf (l : List Nat) : Nat := if l = [] then 0 else l.sum / l.length

/-- A COMP word leaves and awaits its confirmation (R58, R59). -/
def State.sendComp (s : State) (p c : Nat) : State :=
  (s.setPort p { s.port p with compPend := some (c, s.six) }).sendWord p 25 (mkWord 0x06 0 c 0xFF)

/-- The end of 64 calibration measurements with sum `sum` of (loop - turnaround): steps 5 and 6 of R62, and R59. On a peer link, whose
layout carries no COMP (R50, R51), step 5 passes at once and step 6 compares with the first mean (entry 121 of the log). -/
def State.calDone (s : State) (p sum : Nat) : State :=
  let x := s.port p
  let d := sum / 128
  if x.calPhase = 4 then
    if 164000 < d ∧ !x.recal then
      (((s.setPort p { x with calPhase := 0 }).refuse p 0x05).setPortState p pSYNC)
    else
      let s := (s.set (F.HJL_P_DELAY.D p) d).peerLoop p
      if !isPL p then (s.setPort p { x with calPhase := 5, calCount := 0, calSum := 0 }).sendComp p d
      else if x.recal then s.setPort p { x with calPhase := 0, recal := false, recent := [d] }
      else ((s.set (F.HJL_P_DELAY.VALID p) 1).setPort p { x with calPhase := 6, calCount := 0, calSum := 0, pingMiss := 0 }).peerLoop p
  else
    let c := if isPL p then s.get (F.HJL_P_DELAY.D p) else s.get (F.HJL_P_COMP.COMP p)
    if d ≤ c + 32 ∧ c ≤ d + 32 then (s.setPort p { x with calCount := 0, calSum := 0, recent := [d] }).runPort p
    else s.setPort p { x with calFail := true, calCount := 0, calSum := 0 }

/-- One step of at most 2 ns from the loaded compensation toward the mean (R58, R59). -/
def compStep (c mean : Nat) : Nat := if c < mean then c + min 16 (mean - c) else c - min 16 (c - mean)

/-- A measurement `d` in RUN (R59). -/
def State.runMeasure (s : State) (p d : Nat) : State :=
  let x := s.port p
  let mean := meanOf x.recent
  if x.recent ≠ [] ∧ (mean + 800 < d ∨ d + 800 < mean) then
    (s.setPort p { x with recal := true, calPhase := 4, calCount := 0, calSum := 0 }).raise (F.HJL_P_EVT.DELAY_JUMP p)
  else
    let l := (d :: x.recent).take 64
    let m := meanOf l
    let c := s.get (F.HJL_P_COMP.COMP p)
    let s := (s.setPort p { x with recent := l }).set (F.HJL_P_DELAY.D p) m
    let s := s.peerLoop p
    if !isPL p ∧ x.compPend = none ∧ (c + 8 < m ∨ m + 8 < c) then s.sendComp p (compStep c m) else s

/-- ECHO_RECEIVED (R56, R57): an ECHO of another tag, or with a turnaround above 2 000 ns, is discarded. -/
def execEchoReceived (p : Fin 44) (tag : BitVec 8) (span : BitVec 20) (turn : BitVec 16) (s : State) :
    Host.Outcome State Fault Refusal :=
  let x := s.port p
  if x.pingOut ∧ tag.toNat = x.pingTag ∧ turn.toNat ≤ 16000 ∧ turn.toNat ≤ span.toNat ∧ s.portState p ≠ pQUAR then
    let m := span.toNat - turn.toNat
    let s := s.setPort p { x with pingOut := false, pingMiss := 0 }
    if x.calPhase = 4 ∨ x.calPhase = 6 then
      let s := s.setPort p { s.port p with calCount := x.calCount + 1, calSum := x.calSum + m }
      .next (if x.calCount + 1 = 64 then s.calDone p (x.calSum + m) else s)
    else if s.portServes p ∧ x.calPhase = 0 then .next (s.runMeasure p (m / 2))
    else .next s
  else .next s

/-- A compensation is confirmed by COMP_TOGGLE (R58, R59): in admission the delay is VALID and the second 64 PINGs begin; after a
recalibration VALID returns and the fed contexts settle from the first SIX sampled under it (R97). -/
def State.compConfirmed (s : State) (p c : Nat) : State :=
  let x := s.port p
  let s := (s.setPort p { x with compPend := none }).set (F.HJL_P_COMP.COMP p) c
  if x.calPhase = 5 then
    if x.recal then
      let k := s.six / 256 * 256
      let s := s.setPort p { s.port p with calPhase := 0, recal := false, validFrom := k, recent := [c] }
      let s := if isSL p then s.settle p k 7 else s
      match (if isSL p then s.feeds p k else none) with
      | some n => if n = p then s else s.settle n k 7
      | none => s
    else
      ((s.set (F.HJL_P_DELAY.VALID p) 1).setPort p { s.port p with calPhase := 6, calCount := 0, calSum := 0, pingMiss := 0 }).peerLoop p
  else s

/-- COMP_RESEND (R59). -/
def execCompResend (p : Fin 44) (s : State) : Host.Outcome State Fault Refusal :=
  match (s.port p).compPend with
  | some (c, t) => if nextAfter 256 t + 256 ≤ s.six then .next (s.sendComp p c) else .next s
  | none => .next s

/-- Is a PING due in this frame of port `p` (R59, R62)? -/
def State.pingDue (s : State) (p : Nat) : Bool :=
  let x := s.port p
  (x.calPhase == 4 || x.calPhase == 6 || (s.portServes p && s.six % 16 == 0)) && s.portState p != pQUAR &&
    (s.repeating p).isEmpty

/-- PING_SEND (R56, R59, R62): in slot 24, unless a TRIP word displaces it. -/
def execPingSend (p : Fin 44) (s : State) : Host.Outcome State Fault Refusal :=
  if s.pingDue p then
    let x := s.port p
    let tag := (x.pingTag + 1) % 256
    let s := s.setPort p { x with pingTag := tag, pingOut := true, pingMiss := if x.pingOut then x.pingMiss + 1 else x.pingMiss }
    .next (s.sendWord p 24 (mkWord 0x04 0 (tag * 65536) 0xFF))
  else .next s

/-- CALIBRATION_FAILED (R62): REFUSE 0x06, SYNC, and HELLO ignored for 100 ms. -/
def execCalibrationFailed (p : Fin 44) (s : State) : Host.Outcome State Fault Refusal :=
  let x := s.port p
  if s.portState p = pCALIB ∧ (16 ≤ x.pingMiss ∨ x.calFail) then
    let s := s.setPort p { x with calPhase := 0, calFail := false, pingMiss := 0, compPend := none, ignoreTill := s.six + 200000 }
    .next ((s.refuse p 0x06).setPortState p pSYNC)
  else .next s

/-! ## Frames and words received -/

/-- A delay in units of 0.125 ns as 1/65 536 of a sample. -/
def delayUnits (d : Nat) : Nat := (d * 65536 + 2000) / 4000

/-- Time of an arrival `arr` into this period, in 1/65 536 of a sample. -/
def State.arrival (s : State) (arr : Nat) : Nat := s.six * 65536 + arr

/-- The SIX that a FRAME arriving now must carry (R51, R61): its frame is the one that began the one-way delay ago; a sample link's
frame n carries n - 2. -/
def State.expectedSix (s : State) (p arr : Nat) : Nat :=
  (s.arrival arr - delayUnits (s.get (F.HJL_P_DELAY.D p)) + 32768) / 65536 - (if isSL p then 2 else 0)

/-- One offset sample of a peer port from a frame that arrived at `arr` (1/65 536 of a sample): peer SIX minus own SIX at the frame's
begin (R80); the register shows the mean of 64. -/
def State.peerSample (s : State) (p peerSix arr : Nat) : State :=
  let own : Int := (arr : Int) - (delayUnits (s.get (F.HJL_P_DELAY.D p)) : Int)
  let l := ((peerSix : Int) * 65536 - own) :: (s.port p).peerSamples.take 63
  (s.setPort p { s.port p with peerSamples := l }).set64 (A.HJL_P_PEER_OFS p) (unsigned 64 (Int.fdiv l.sum l.length))

/-- The full peer SIX whose low 24 bits a FRAME carries, by the offset known so far. -/
def State.peerSix24 (s : State) (p v : Nat) : Nat :=
  let near : Int := (s.six : Int) + Int.fdiv (signed 64 (s.get64 (A.HJL_P_PEER_OFS p))) 65536
  (near + signed 24 (unsigned 24 ((v : Int) - near))).toNat

/-- A peer's SIX as this engine counts (R80). -/
def State.ownSix (s : State) (p v : Nat) : Nat :=
  ((v : Int) - Int.fdiv (signed 64 (s.get64 (A.HJL_P_PEER_OFS p)) + 32768) 65536).toNat

/-- RUN of a link ends by three mismatches (R61): admission starts again from SYNC; a bound spare serves its station no longer, and no other
spare takes it (entry 124 of the log). -/
def State.endRun (s : State) (p k : Nat) : State :=
  let s := (s.dropPort p k).unbind p
  let s := s.setPort p { s.port p with calPhase := 0, compPend := none, recal := false, mismatches := 0 }
  let s := ((s.set (F.HJL_P_STATE.INC p) 0).set (F.HJL_P_DELAY.VALID p) 0).setPortState p pSYNC
  if isPL p then s.conjUpdateAll else s.peerLoop p

/-- A FRAME word on a port in service or LOST (R61). -/
def State.frameInService (s : State) (p six24 arr : Nat) : State :=
  let x := s.port p
  let run := if x.lastFrame + 1 < s.six ∨ !x.statOk then 0 else x.goodRun
  if isPL p then
    let s := s.setPort p { x with frameSix := s.peerSix24 p six24, frameValid := true, goodRun := run, statOk := false }
    if (s.port p).peerSamples = [] then s else s.peerSample p (s.peerSix24 p six24) (s.arrival arr)
  else
    let e := s.expectedSix p arr
    if six24 = e % 2 ^ 24 then
      s.setPort p { x with frameSix := e, frameValid := true, mismatches := 0, goodRun := run, statOk := false }
    else
      let s := s.setPort p { x with frameSix := e, frameValid := false, mismatches := x.mismatches + 1, goodRun := 0, statOk := false }
      let s := s.raise (F.HJL_P_EVT.SLIP p)
      let s := if isSL p && s.portServes p then s.markFrame p e else s
      if 3 ≤ x.mismatches + 1 ∧ s.portServes p then s.endRun p (e + 1) else s

/-- A message of `kind` begins in the frame that arrives at `arr` (R53, R54): one of a reserved kind is discarded and counted. -/
def State.msgOpens (s : State) (p kind arr pub shelf : Nat) : State :=
  let x := s.port p
  if 1 ≤ kind ∧ kind ≤ 7 then
    s.setPort p { x with
      rx := some (kind, s.six), rxDead := false, rxAt := s.arrival arr
      shelfIn := if kind = 7 then s.ownSix p pub else x.shelfIn
      shelfId := if kind = 7 then shelf else x.shelfId }
  else (s.setPort p { x with rx := none, rxDead := true }).bump (F.HJL_P_ERR.CODE_ERR p)

/-- FRAME_RECEIVED (R45, R53, R54, R61, R69, R80): `opened` is the kind of a message whose MSG_START stands in the frame, `head`
its publish SIX and shelf ID for a SHELF. -/
def execFrameReceived (p : Fin 44) (six24 : BitVec 24) (arr : Fin 65536) (opened : Option (Fin 256)) (head : ShelfHead)
    (s : State) : Host.Outcome State Fault Refusal :=
  if s.portState p = pQUAR then
    let x := s.port p
    let s := s.bump (F.HJL_P_CNT.QUAR_CNT p)
    let s := if x.quarFresh then s.logNamed "HJL_QUARANTINE" (leBytes 1 p) else s
    .next (s.setPort p { x with quarFresh := false, lastFrame := s.six })
  else
    let t := if s.portServes p ∨ s.portState p = pLOST then s.frameInService p six24.toNat arr
      else s.setPort p { s.port p with frameValid := true }
    let t := t.setPort p { t.port p with lastFrame := s.six, frameAt := s.six }
    .next (match opened with
      | some k => t.msgOpens p k arr head.pub.toNat head.shelf.toNat
      | none => t)

/-- The quality of a fabric sample (R102) from its marks. -/
def sampleQ (valid settle ovr test subst : Bool) : Nat :=
  b2n valid + qSETTLE * b2n settle + qOVER * b2n ovr + qTEST * b2n test + qSUBST * b2n subst

/-- The fabric finishes the quality of the current frame's samples: SETTLE and OVERRANGE of its CHSTAT (R102, R103). -/
def State.frameQuality (s : State) (p : Nat) (ovr settle : Nat) : State :=
  let k := (s.port p).frameSix
  match s.feeds p k with
  | some n =>
    (List.range 8).foldl (fun t c =>
      match t.listed (chKey n c) k with
      | some y =>
        if bit y.q 2 then t
        else
          let valid := !bit settle c && !bit ovr c && t.delayOk p k && (t.ctxState n == 2 || t.ctxState n == 3)
          t.fileSamp n c { y with q := sampleQ valid (bit settle c) (bit ovr c) (bit y.q 6) (bit y.q 7) }
      | none => t) s
  | none => s

/-- Does a word that arrives now belong to the port's current frame: one that began in this sample period or the one before (a frame may
straddle their boundary)? -/
def State.inFrame (s : State) (p : Nat) : Bool := decide (s.six ≤ (s.port p).frameAt + 1) && (s.port p).frameValid

/-- A used sample of context `n` arrives from port `p` (R86, R102, R110). -/
def State.takeSample (s : State) (p n c k : Nat) (code : Int) : State :=
  let x := s.port p
  let bound := n != p
  let usable := !(!x.chstat || bit x.settle c) && s.delayOk p k
  let s := if s.ctxState n = 1 then s.setCtx n { s.ctx n with runFrom := k } else s
  let s := s.ctxReceiving n k
  let s := if s.ctxState n = 1 ∨ s.ctxState n = 4 then s.setCtxState n (if bound then 3 else 2) else s
  let s := (s.set (F.SFB_C_STATE.SOURCE n) p).set64 (A.SFB_C_SIX n) k
  let s := s.fileSamp n c ⟨k, code, sampleQ false false false x.test bound, usable, x.test, bound, s.six⟩
  s.elementsTo (8 * n + c) k

/-- SAMPLE_RECEIVED (R85, R102, R110): the unit's judgement, the elements, and the fabric's filing under the frame's SIX. -/
def execSampleReceived (p : Fin 32) (c : Fin 8) (code : BitVec 24) (s : State) : Host.Outcome State Fault Refusal :=
  let k := (s.port p).frameSix
  if s.portServes p ∧ s.inFrame p ∧ (s.port p).useFrom ≤ k then
    match s.feeds p k with
    | some n => .next (s.takeSample p n c k code.toInt)
    | none => .next s
  else .next s

/-- CHSTAT_RECEIVED (R102, R103, R110). -/
def execChstatReceived (p : Fin 32) (ovr settle : BitVec 8) (s : State) : Host.Outcome State Fault Refusal :=
  if s.portState p = pQUAR then .next s
  else
    let s := s.setPort p { s.port p with
      ovr := ovr.toNat, settle := settle.toNat, chstat := (s.port p).chstat || s.portServes p }
    .next (if s.inFrame p then s.frameQuality p ovr.toNat settle.toNat else s)

/-- The TEST flag of the frame's UNITSTAT enters the fabric's samples of that frame (R102). -/
def State.frameTest (s : State) (p : Nat) (test : Bool) : State :=
  let k := (s.port p).frameSix
  match s.feeds p k with
  | some n =>
    (List.range 8).foldl (fun t c =>
      match t.listed (chKey n c) k with
      | some y => if bit y.q 2 then t else t.fileSamp n c { y with q := y.q - y.q / 64 % 2 * 64 + qTEST * b2n test }
      | none => t) s
  | none => s

/-- UNITSTAT on a DEAD port with the retired incarnation (R67, R69). -/
def State.retiredHeard (s : State) (p : Nat) : State := if s.autoReadmit p then s.refuse p 0x08 else s.quarantine p

/-- UNITSTAT_RECEIVED (R58, R66, R67, R69, R79, R102, R110). -/
def execUnitstatReceived (p : Fin 44) (inc : BitVec 16) (ustate flags : BitVec 4) (s : State) : Host.Outcome State Fault Refusal :=
  let st := s.portState p
  let x := s.port p
  if st = pQUAR then .next s
  else if st = pDEAD then .next (if inc.toNat = x.retired ∧ x.retired ≠ 0 then s.retiredHeard p else s)
  else
    let test := bit flags.toNat 1
    let own := inc.toNat == s.portInc p && ustate.toNat ≤ 4
    let good := if st = pLOST then (if own && x.frameValid then x.goodRun + 1 else 0) else x.goodRun
    let s := s.setPort p { x with test := test, toggle := bit flags.toNat 3, goodRun := good, statOk := own }
    let s := if isSL p && s.inFrame p && s.portServes p then s.frameTest p test else s
    let s := if bit flags.toNat 2 && isCL p && s.portServes p then
        let y := s.port (s.station p)
        let s := s.setPort (s.station p) { y with lateSix := s.six :: y.lateSix.takeWhile (fun k => s.six < k + 262144) }
        (s.bump (F.HJL_P_CNT.CMD_LATE p)).raise (F.HJL_P_EVT.CMD_LATE p) else s
    match x.compPend with
    | some (c, _) => .next (if bit flags.toNat 3 != x.toggle then s.compConfirmed p c else s)
    | none => .next s

/-- The message being received on port `p` is discarded whole (R53). -/
def State.dropMessage (s : State) (p : Nat) : State :=
  let x := s.port p
  s.setPort p { x with rx := none, rxDead := x.rxDead || x.rx.isSome }

/-- WORD_DISCARDED (R46, R48, R49, R53, R103): a discarded sample word is MISSING; the words around it stand, and where the frame's FRAME
word was discarded they count under the SIX that R61 expects of it. -/
def execWordDiscarded (p : Fin 44) (slot : Fin 25) (crc : Bool) (s : State) : Host.Outcome State Fault Refusal :=
  if s.portState p = pQUAR then .next s
  else
    let x := s.port p
    let s := s.bump (if crc then F.HJL_P_ERR.CRC_ERR p else F.HJL_P_ERR.CODE_ERR p)
    let inSamples := isSL p && 1 ≤ slot.val && slot.val ≤ 8
    let s := if slot.val = 0 ∨ inSamples then s else s.dropMessage p
    if isSL p then
      if slot.val = 0 then
        .next (s.setPort p { s.port p with
          frameAt := s.six, frameSix := x.frameSix + (s.six - x.frameAt), frameValid := true, statOk := false })
      else if inSamples ∧ s.portServes p ∧ s.inFrame p ∧ x.useFrom ≤ x.frameSix then .next (s.markMissing p (slot.val - 1) x.frameSix)
      else .next s
    else .next s

/-- FRAME_ALIGNMENT_ACQUIRED (R46, R62 step 1, R69). -/
def execFrameAlignmentAcquired (p : Fin 44) (s : State) : Host.Outcome State Fault Refusal :=
  let s := s.setPort p { s.port p with aligned := true, quarFresh := s.portState p == pQUAR }
  .next (if s.portState p = pDOWN then s.setPortState p pSYNC else s)

/-- Port `p` loses frame alignment (R46): a port that is not yet admitted falls back to DOWN. -/
def State.alignLost (s : State) (p : Nat) : State :=
  let s := (s.dropMessage p).setPort p { (s.dropMessage p).port p with aligned := false }
  let st := s.portState p
  if st = pSYNC ∨ st = pHELLO ∨ st = pCALIB then
    (s.setPort p { s.port p with calPhase := 0, compPend := none }).setPortState p pDOWN
  else s

/-- FRAME_ALIGNMENT_LOST (R46). -/
def execFrameAlignmentLost (p : Fin 44) (s : State) : Host.Outcome State Fault Refusal := .next (s.alignLost p)

/-- MESSAGE_TIMEOUT (R53). -/
def execMessageTimeout (p : Fin 44) (s : State) : Host.Outcome State Fault Refusal :=
  .next (if (s.port p).rx.any (fun r => r.2 + 64 ≤ s.six) then s.dropMessage p else s)

/-! ## Loss, recovery, death (R65 to R67) -/

/-- PORT_LOST (R65): from the first frame without a valid FRAME word the samples are MISSING; the dead timer starts. -/
def execPortLost (p : Fin 44) (s : State) : Host.Outcome State Fault Refusal :=
  let x := s.port p
  if s.portServes p ∧ x.lastFrame + 3 < s.six then
    let s := s.dropPort p (x.frameSix + 1 - (x.frameAt - x.lastFrame))
    let s := s.setPort p { x with
      lostFrom := s.portState p, goodRun := 0, statOk := false, deadEnd := s.six + s.get (F.HJL_P_CFG.DEAD_MS p) * 2000 }
    let s := (s.setPortState p pLOST).raise (F.HJL_P_EVT.LOST p)
    .next (if isPL p then s.conjUpdateAll else s)
  else .next s

/-- PORT_RECOVERED (R66): samples from the 17th frame on. -/
def execPortRecovered (p : Fin 44) (s : State) : Host.Outcome State Fault Refusal :=
  let x := s.port p
  if s.portState p = pLOST ∧ 16 ≤ x.goodRun ∧ s.six < x.deadEnd then
    let s := (s.setPort p { x with
      useFrom := x.frameSix + 1, goodRun := 0, mismatches := 0, chstat := false }).setPortState p x.lostFrom
    .next (if isPL p then (s.peerBack p).conjUpdateAll else s)
  else .next s

/-- PORT_DEAD (R67, R68). -/
def execPortDead (p : Fin 44) (s : State) : Host.Outcome State Fault Refusal :=
  .next (if s.portState p = pLOST ∧ (s.port p).deadEnd ≤ s.six then s.killPort p else s)

/-! ## Host actions and rebind (R70) -/

/-- HJL_READMIT (R70, R14): PORT 44 to 63 is ignored; a port not in QUARANTINE sets REJECT. -/
def execHjlReadmit (pf : Fin 2) (w : Word) (s : State) : Host.Outcome State Fault Refusal :=
  let port := fieldOf w 0 6
  .next (whenAllowed (s.gate pf A.HJL_READMIT w (some 0) (44 ≤ port)) (fun t =>
    let t := t.set F.HJL_READMIT.PORT port
    let t := if bit w.toNat 17 then t.set F.HJL_READMIT.REJECT 0 else t
    if bit w.toNat 8 then
      if t.portState port = pQUAR then
        (t.setPort port { t.port port with aligned := false }).setPortState port pDOWN
      else t.set F.HJL_READMIT.REJECT 1
    else t))

/-- HJL_REBIND (R70, R14): the move waits for the hyperboundary; a home port not in STANDBY sets REJECT. -/
def execHjlRebind (pf : Fin 2) (w : Word) (s : State) : Host.Outcome State Fault Refusal :=
  let st := fieldOf w 0 6
  .next (whenAllowed (s.gate pf A.HJL_REBIND w (some 0) (44 ≤ st)) (fun t =>
    let t := t.set F.HJL_REBIND.STATION st
    let t := if bit w.toNat 18 then t.set F.HJL_REBIND.REJECT 0 else t
    if bit w.toNat 16 ∧ t.rebind = none then
      if t.portState st = pSTANDBY ∧ t.get (F.HJL_P_CFG.ROLE st) ≠ 2 then
        ({ t with rebind := some st }).set F.HJL_REBIND.PENDING 1
      else t.set F.HJL_REBIND.REJECT 1
    else t))

/-- The spare of entry `n` waits again (R70): its samples from now on are its own. -/
def State.spareWaits (s : State) (n : Nat) : State :=
  let q := s.get (F.HJL_SPARE.SPARE_PORT n)
  let s := s.set (F.HJL_SPARE.BOUND n) 0
  let s := if s.portState q = pBOUND then s.setPortState q pSTANDBY
    else s.setPort q { s.port q with lostFrom := pSTANDBY }
  (s.set (F.HJL_P_STATE.STATION q) q).setFeed q s.six (some q)

/-- The station moves back to its home port and its spare, where one serves it, waits again (R70, R86, R97). -/
def State.moveHome (s : State) (st : Nat) : State :=
  let s := match s.boundEntry st with
    | some n => s.spareWaits n
    | none => s
  let s := (s.setFeed st s.six (some st)).setPort st { (s.setFeed st s.six (some st)).port st with chstat := false }
  let s := (s.setPortState st pRUN).set (F.HJL_P_STATE.STATION st) st
  let s := if isSL st then
      let s := (s.setCtxState st 2).set (F.SFB_C_STATE.SOURCE st) st
      (s.ctxReceiving st s.six).settle st s.six 7
    else s
  if isPL st then s.conjUpdateAll else s

/-- STATION_REBIND (R70, R31). -/
def execStationRebind (s : State) : Host.Outcome State Fault Refusal :=
  match s.rebind with
  | some st =>
    if s.six % hyperPeriod = 0 then
      let s := ({ s with rebind := none }).set F.HJL_REBIND.PENDING 0
      .next (if s.portState st = pSTANDBY then s.moveHome st else s.set F.HJL_REBIND.REJECT 1)
    else .next s
  | none => .next s

/-! ## Peer time (R80) -/

/-- Did a message of this kind and content leave on port `p` in this period? -/
def State.sentMsg (s : State) (p kind : Nat) (pl : List Byte) : Bool :=
  s.outbox.any (fun o => match o with
    | .msg q k _ b _ => q == p && k == kind && b == pl
    | _ => false)

/-- PEER_TIME_SEND (R80): after RUN and at every hyperboundary, once. -/
def execPeerTimeSend (p : Fin 4) (s : State) : Host.Outcome State Fault Refusal :=
  let q := 40 + p.val
  let pl := beBytes 8 s.six ++ beBytes 1 0
  if s.portState q = pRUN ∧ (!(s.port q).timeSent ∨ (s.six % hyperPeriod = 0 ∧ s.sentMsg q 6 pl = false)) then
    .next ((s.setPort q { s.port q with timeSent := true }).sendMsg q 0x06 pl)
  else .next s

/-- Does a peer's full SIX lie off the offset known so far by more than FRAME words can tell (R80)? -/
def State.peerOff (s : State) (p v : Nat) : Bool :=
  let near : Int := (s.six : Int) + Int.fdiv (signed 64 (s.get64 (A.HJL_P_PEER_OFS p))) 65536
  decide (2 ^ 23 ≤ ((v : Int) - near).natAbs)

/-- PEER_TIME_RECEIVED (R53, R80): the sender's SIX is that of the frame that carried MSG_START, which arrived when that message began, or at
`arr` in this period. The offset restarts from the full SIX when it disagrees with what FRAME words gave. -/
def execPeerTimeReceived (p : Fin 4) (peerSix : BitVec 64) (arr : Fin 65536) (s : State) : Host.Outcome State Fault Refusal :=
  let q := 40 + p.val
  let x := s.port q
  let at_ := if x.rx.isSome then x.rxAt else s.arrival arr
  let s := s.msgDone q
  if s.portState q = pRUN ∧ x.whole 6 then
    let s := if s.peerOff q peerSix.toNat then s.setPort q { s.port q with peerSamples := [] } else s
    .next (s.peerSample q peerSix.toNat at_)
  else .next s

/-! ## Repetition and acknowledgement of trips (R75, R77) -/

/-- TRIP_REPEAT_SLOT1 (R75): from frame n0 + 5 on, one word in slot 1 of the frame, while the interjection unit runs (R38). -/
def execTripRepeatSlot1 (p : Fin 44) (s : State) : Host.Outcome State Fault Refusal :=
  match (s.port p).pending.filter (fun t => s.flag F.INJ_STATUS.ARMED && s.portSends p && decide (t.n0 + 5 ≤ s.six)) with
  | [] => .next s
  | t :: ts =>
    let d := (t :: ts).getD (s.six % (ts.length + 1)) t
    .next (((s.set (F.HJL_P_TRIP.SLOT1 p) 1)).sendWord p 1 (tripWord (s.portInc p) d.index d.seq))

/-- ACK_RECEIVED (R74, R75, R77): a valid matching ACK ends the decision's slot-1 repetition; its four full frames still run. -/
def execAckReceived (p : Fin 44) (cw : BitVec 16) (seq : BitVec 4) (inc : BitVec 16) (s : State) :
    Host.Outcome State Fault Refusal :=
  let x := s.port p
  if inc.toNat = s.portInc p ∧ s.portState p ≠ pQUAR then
    .next ((s.setPort p { x with
      trips := x.trips.map (fun t => if codeword t.index = cw.toNat ∧ t.seq = seq.toNat then { t with acked := true } else t) }).tripRegs p)
  else .next s

/-- TRIP_UNACK (R77): the event and a severity-3 entry, once for each decision; the repetition continues. -/
def execTripUnack (p : Fin 44) (s : State) : Host.Outcome State Fault Refusal :=
  let x := s.port p
  match x.pending.find? (fun t => !t.unack && t.n0 + 200 ≤ s.six) with
  | some t =>
    let s := s.setPort p { x with
      trips := x.trips.map (fun u => if u.index = t.index ∧ u.seq = t.seq then { u with unack := true } else u) }
    .next ((s.raise (F.HJL_P_EVT.TRIP_UNACK p)).logNamedSev "TRIP_UNACK" 3
      (leBytes 1 p ++ leBytes 1 t.index ++ leBytes 1 t.seq ++ leBytes 8 t.decSix))
  | none => .next s

end Sys2Proof.Machine
end

