-- ==== Sys2Proof/Machine/Flags.lean ====
section
/-!
DEFINITION. Machine/Flags.lean: the flags of FLG and the results that set them (R138, R144 to R153): the integer, 64-bit and
fixed-point operations of the Sogen instruction set with their flag rules, and the condition codes.
-/
namespace Sys2Proof.Machine
open Sys2Proof

/-- Sticky bits of FLG (R138). -/
def sSAT : Nat := 256
def sDZ : Nat := 512
def sNV : Nat := 1024

/-- The flags Z, N, C and V in their places (R138). -/
def zncv (z n c v : Bool) : Nat := b2n z + 2 * b2n n + 4 * b2n c + 8 * b2n v

/-- A result of width `w` with the flags that an S bit writes and the sticky bits that it sets. -/
structure Alu (w : Nat) where
  val : BitVec w
  flags : Nat
  sticky : Nat
deriving DecidableEq, Repr

/-- A result that sets Z and N and writes C and V as 0 (R144, last item). -/
def plainAlu {w : Nat} (r : BitVec w) : Alu w := ⟨r, zncv (r == 0) r.msb false false, 0⟩

/-- A wrapping sum: C is the unsigned carry out, V the signed overflow (R144). -/
def addAlu {w : Nat} (a b : BitVec w) : Alu w :=
  ⟨a + b, zncv (a + b == 0) (a + b).msb (2 ^ w ≤ a.toNat + b.toNat) ((a + b).toInt != a.toInt + b.toInt), 0⟩

/-- A wrapping difference: C is 1 when u(a) ≥ u(b), V the signed overflow (R144). -/
def subAlu {w : Nat} (a b : BitVec w) : Alu w :=
  ⟨a - b, zncv (a - b == 0) (a - b).msb (b.toNat ≤ a.toNat) ((a - b).toInt != a.toInt - b.toInt), 0⟩

/-- A saturating result from the exact one `v` and its range: C is 0, V and SAT say that it was clamped (R138, R144). -/
def satAlu (w : Nat) (lo hi v : Int) : Alu w :=
  let r := BitVec.ofInt w (clampInt lo hi v)
  let sat := clampInt lo hi v != v
  ⟨r, zncv (r == 0) r.msb false sat, if sat then sSAT else 0⟩

/-- sat_s32 and its 64-bit sibling. -/
def satS (w : Nat) (v : Int) : Alu w := satAlu w (-(2 ^ (w - 1) : Nat)) ((2 ^ (w - 1) : Nat) - 1) v

/-- sat_u32. -/
def satU (v : Int) : Alu 32 := satAlu 32 0 4294967295 v

/-! ## Integer group (R146, R147) -/

def divAlu (a b : Word) : Alu 32 :=
  if b = 0 then { plainAlu (if 0 ≤ a.toInt then 0x7fffffff#32 else 0x80000000#32) with sticky := sDZ }
  else if a = 0x80000000#32 ∧ b = 0xffffffff#32 then ⟨0x7fffffff, zncv false false false true, sSAT⟩
  else plainAlu (BitVec.ofInt 32 (Int.tdiv a.toInt b.toInt))

def divuAlu (a b : Word) : Alu 32 :=
  if b = 0 then { plainAlu (0xffffffff#32) with sticky := sDZ } else plainAlu (BitVec.ofNat 32 (a.toNat / b.toNat))

def remAlu (a b : Word) : Alu 32 :=
  if b = 0 then { plainAlu a with sticky := sDZ }
  else if a = 0x80000000#32 ∧ b = 0xffffffff#32 then plainAlu 0#32
  else plainAlu (BitVec.ofInt 32 (Int.tmod a.toInt b.toInt))

def remuAlu (a b : Word) : Alu 32 :=
  if b = 0 then { plainAlu a with sticky := sDZ } else plainAlu (BitVec.ofNat 32 (a.toNat % b.toNat))

/-- 1 for true and 0 for false, as a result. -/
def boolAlu (p : Bool) : Alu 32 := plainAlu (if p then 1#32 else 0#32)

/-- Leading zeros of a word, 32 for 0. -/
def clz (a : Word) : Nat := if a = 0 then 32 else 31 - Nat.log2 a.toNat

/-! ## Fixed point (R150) -/

/-- The halves of a packed pair of Q15 values. -/
def q15hi (a : Word) : Int := (a.extractLsb' 16 16).toInt
def q15lo (a : Word) : Int := (a.extractLsb' 0 16).toInt

/-- A packed result of two exact values: each half saturates on its own; Z when both halves are zero, N is bit 31, V says that one
was clamped (R150). -/
def packAlu (hi lo : Int) : Alu 32 :=
  let h := clampInt (-32768) 32767 hi
  let l := clampInt (-32768) 32767 lo
  let r : Word := BitVec.ofInt 16 h ++ BitVec.ofInt 16 l
  let sat := h != hi || l != lo
  ⟨r, zncv (r == 0) r.msb false sat, if sat then sSAT else 0⟩

/-- The low five bits of a shift count. -/
def sh5 (b : Word) : Nat := b.toNat % 32

/-- QRSH31: rounds to nearest, ties to even. -/
def qrsh (a b : Word) : Alu 32 := satS 32 (rnd a.toInt (2 ^ sh5 b))

/-! ## Conditions (R145) -/

/-- Bit `i` of FLG. -/
def flgBit (flg i : Nat) : Bool := bit flg i

/-- Is condition code `k` true? Code 15 is reserved and is refused before. -/
def condTrue (k flg : Nat) : Bool :=
  let z := flgBit flg 0
  let n := flgBit flg 1
  let c := flgBit flg 2
  let v := flgBit flg 3
  match k with
  | 0 => z
  | 1 => !z
  | 2 => n != v
  | 3 => n == v
  | 4 => !c
  | 5 => c
  | 6 => !z && n == v
  | 7 => z || n != v
  | 8 => c && !z
  | 9 => !c || z
  | 10 => n
  | 11 => !n
  | 12 => v
  | 13 => !v
  | _ => true

/-- FLG with Z, N, C and V replaced. -/
def withZncv (flg f : Nat) : Nat := flg / 16 * 16 + f % 16

end Sys2Proof.Machine
end

