-- ==== Sys2Proof/Machine/Float.lean ====
section
/-!
DEFINITION. Machine/Float.lean: the float group (R151 to R153): exact values, one rounding to nearest even, flush to zero, canonical
NaN.
-/
namespace Sys2Proof.Machine
open Sys2Proof

/-- A binary32 value as the group takes it: a subnormal is zero of its sign. A finite value is `m` times 2 to the `e`. -/
inductive Fp where
  | nan
  | inf (neg : Bool)
  | zero (neg : Bool)
  | fin (neg : Bool) (m : Nat) (e : Int)
deriving DecidableEq, Repr

/-- The canonical NaN (R151). -/
def fNan : Word := 0x7FC00000

/-- The word of an infinity and of a zero. -/
def fInf (neg : Bool) : Word := if neg then 0xFF800000 else 0x7F800000
def fZero (neg : Bool) : Word := if neg then 0x80000000 else 0

/-- The value of a word. -/
def fpOf (w : Word) : Fp :=
  let neg := w.msb
  let ex : Nat := w.toNat / 2 ^ 23 % 256
  let fr : Nat := w.toNat % 2 ^ 23
  if ex = 255 then (if fr = 0 then .inf neg else .nan)
  else if ex = 0 then .zero neg
  else .fin neg (2 ^ 23 + fr) ((ex : Int) - 150)

/-- The word of a value rounded to nearest even: `m` times 2 to the `e`, and a little more when `more` (then `m` has at least 26
bits). Below the smallest normal it is zero of its sign; above the greatest it is an infinity and sets SAT. -/
def fRound (neg : Bool) (m : Nat) (e : Int) (more : Bool) : Word × Nat :=
  let n := Nat.log2 m + 1
  let sh := n - 24
  let r : Nat := m % 2 ^ sh
  let up := 24 < n && (2 ^ (sh - 1) < r || (r == 2 ^ (sh - 1) && (more || m / 2 ^ sh % 2 == 1)))
  let q := m * 2 ^ (24 - n) / 2 ^ sh + b2n up
  let carry := q == 2 ^ 24
  let sig := if carry then 2 ^ 23 else q
  let ex := e + n + b2n carry + 126
  if ex < 1 then (fZero neg, 0)
  else if 255 ≤ ex then (fInf neg, sSAT)
  else (BitVec.ofNat 32 (b2n neg * 2 ^ 31 + ex.toNat * 2 ^ 23 + (sig - 2 ^ 23)), 0)

/-- A result with the float flags (R152): Z for a zero, N the sign bit, V for a NaN. -/
def fAlu (r : Word × Nat) : Alu 32 :=
  ⟨r.1, zncv (r.1 &&& 0x7FFFFFFF == 0) r.1.msb false (r.1 == fNan), r.2⟩

/-- The result of an invalid operation. -/
def fInvalid : Word × Nat := (fNan, sNV)

/-- The word of a value, nothing rounded away. -/
def fpWord : Fp → Word
  | .nan => fNan
  | .inf n => fInf n
  | .zero n => fZero n
  | .fin n m e => (fRound n m e false).1

/-- Negation of a value. -/
def Fp.neg : Fp → Fp
  | .nan => .nan
  | .inf n => .inf (!n)
  | .zero n => .zero (!n)
  | .fin n m e => .fin (!n) m e

/-- The signed significand. -/
def signedNat (neg : Bool) (m : Nat) : Int := if neg then -(m : Int) else m

def fpAdd : Fp → Fp → Word × Nat
  | .nan, _ => (fNan, 0)
  | _, .nan => (fNan, 0)
  | .inf x, .inf y => if x = y then (fInf x, 0) else fInvalid
  | .inf x, _ => (fInf x, 0)
  | _, .inf y => (fInf y, 0)
  | .zero x, .zero y => (fZero (x && y), 0)
  | .zero _, .fin n m e => (fpWord (.fin n m e), 0)
  | .fin n m e, .zero _ => (fpWord (.fin n m e), 0)
  | .fin n m e, .fin n2 m2 e2 =>
    let lo := min e e2
    let v := signedNat n (m * 2 ^ (e - lo).toNat) + signedNat n2 (m2 * 2 ^ (e2 - lo).toNat)
    if v = 0 then (fZero false, 0) else fRound (decide (v < 0)) v.natAbs lo false

def fpMul : Fp → Fp → Word × Nat
  | .nan, _ => (fNan, 0)
  | _, .nan => (fNan, 0)
  | .inf _, .zero _ => fInvalid
  | .zero _, .inf _ => fInvalid
  | .inf x, .inf y => (fInf (xor x y), 0)
  | .inf x, .fin n _ _ => (fInf (xor x n), 0)
  | .fin n _ _, .inf y => (fInf (xor n y), 0)
  | .zero x, .zero y => (fZero (xor x y), 0)
  | .zero x, .fin n _ _ => (fZero (xor x n), 0)
  | .fin n _ _, .zero y => (fZero (xor n y), 0)
  | .fin n m e, .fin n2 m2 e2 => fRound (xor n n2) (m * m2) (e + e2) false

def fpDiv : Fp → Fp → Word × Nat
  | .nan, _ => (fNan, 0)
  | _, .nan => (fNan, 0)
  | .inf _, .inf _ => fInvalid
  | .zero _, .zero _ => fInvalid
  | .inf x, .zero y => (fInf (xor x y), 0)
  | .inf x, .fin n _ _ => (fInf (xor x n), 0)
  | .zero x, .inf y => (fZero (xor x y), 0)
  | .zero x, .fin n _ _ => (fZero (xor x n), 0)
  | .fin n _ _, .inf y => (fZero (xor n y), 0)
  | .fin n _ _, .zero y => (fInf (xor n y), sDZ)
  | .fin n m e, .fin n2 m2 e2 => fRound (xor n n2) (m * 2 ^ 40 / m2) (e - e2 - 40) (m * 2 ^ 40 % m2 != 0)

def fpSqrt : Fp → Word × Nat
  | .nan => (fNan, 0)
  | .zero n => (fZero n, 0)
  | .inf n => if n then fInvalid else (fInf false, 0)
  | .fin n m e =>
    if n then fInvalid
    else
      let k := if e % 2 = 0 then 40 else 41
      let v := m * 2 ^ k
      let r := isqrt 34 v
      fRound false r ((e - (k : Nat)) / 2) (r * r != v)

/-- An order on the words that are no NaN: the two zeros are equal. -/
def fKey (w : Word) : Int := signedNat w.msb (w.toNat % 2 ^ 31)

/-- The word of `a` as the group takes it: a subnormal as zero of its sign, a NaN canonical. -/
def fTake (a : Word) : Word := fpWord (fpOf a)

/-- The smaller (`lo`) or larger of two words; −0 is below +0; a NaN gives the other (R152). -/
def fPick (lo : Bool) (a b : Word) : Word :=
  let x := fTake a
  let y := fTake b
  if x = fNan then y
  else if y = fNan then x
  else if fKey x = fKey y then (if x.msb = lo then x else y)
  else if (decide (fKey x < fKey y)) = lo then x else y

/-- The flags of FCMP (R153). -/
def fCmp (a b : Word) : Nat :=
  let x := fTake a
  let y := fTake b
  if x = fNan ∨ y = fNan then zncv false false false true
  else if fKey x < fKey y then zncv false true false false
  else if fKey x = fKey y then zncv true false true false
  else zncv false false true false

/-- A float converted to s32 by `conv` on numerator and denominator (R152). -/
def fToInt (conv : Int → Nat → Int) (a : Word) : Alu 32 :=
  let out (v : Int) : Alu 32 := satS 32 v
  match fpOf a with
  | .nan => ⟨0, zncv true false false true, sNV⟩
  | .inf n => out (if n then -2 ^ 32 else 2 ^ 32)
  | .zero _ => out 0
  | .fin n m e => if 0 ≤ e then out (signedNat n (m * 2 ^ e.toNat)) else out (conv (signedNat n m) (2 ^ (-e).toNat))

/-- a times 2 to the s(b). -/
def fpScale (a : Fp) (b : Int) : Word × Nat :=
  match a with
  | .fin n m e => fRound n m (e + b) false
  | x => (fpWord x, 0)

/-- A signed word as a float. -/
def fOfInt (a : Word) : Word × Nat :=
  if a = 0 then (0, 0) else fRound a.msb a.toInt.natAbs 0 false

end Sys2Proof.Machine
end

