-- ==== Sys2Proof/Machine/Operands.lean ====
section
/-!
DEFINITION. Machine/Operands.lean: operand forms of the Sogen instructions: registers and pairs (R136), immediates (R142, R143),
the addressed memories (R205, R209, R214) and the MPU regions that grant access (R207).
-/
namespace Sys2Proof.Machine
open Sys2Proof

/-! ## Registers of a cycle (R135, R136) -/

/-- g[i]; g0 reads as zero. -/
def Cycle.reg (c : Cycle) (i : Nat) : Word := if i = 0 then 0 else kvGet (fun _ => 0) c.regs i

/-- g[i] := v; a write to g0 is discarded. -/
def Cycle.setReg (c : Cycle) (i : Nat) (v : Word) : Cycle :=
  if i = 0 then c else { c with regs := kvPut (fun _ => 0) c.regs i v }

/-- The pair that an even field names: g2n+1:g2n, zero for field 0. -/
def Cycle.pair (c : Cycle) (i : Nat) : BitVec 64 := if i = 0 then 0 else c.reg (i + 1) ++ c.reg i

/-- A pair takes 64 bits; field 0 discards both words. -/
def Cycle.setPair (c : Cycle) (i : Nat) (v : BitVec 64) : Cycle :=
  if i = 0 then c else (c.setReg i (v.extractLsb' 0 32)).setReg (i + 1) (v.extractLsb' 32 32)

/-- The current call's frame, the innermost. -/
def Cycle.top (c : Cycle) : CallFr := c.frames.headD ⟨0, 0, 0, 0, []⟩

/-- Open calls (DEPTH of R139). -/
def Cycle.depth (c : Cycle) : Nat := c.frames.length

/-- imm16 sign-extended and zero-extended (R143). -/
def immS (imm : BitVec 16) : Word := imm.signExtend 32
def immU (imm : BitVec 16) : Word := imm.setWidth 32

/-! ## Addressed memories -/

/-- Space codes of R214. -/
def spSRAM : Nat := 1
def spDRAM : Nat := 2
def spFlash : Nat := 3
def spHost : Nat := 4
def spCode (ln : Nat) : Nat := 5 + ln
def spData (ln : Nat) : Nat := 9 + ln
def spP2 : Nat := 13
def spMRAM : Nat := 14

/-- The bytes of a memory that differ from 0. -/
def State.bytes (s : State) (sp : Nat) : KV Byte := kvGet (fun _ => []) s.mem sp

/-- One byte of a memory; a byte that nothing has written reads 0. -/
def State.byteAt (s : State) (sp a : Nat) : Byte := kvGet (fun _ => 0) (s.bytes sp) a

/-- `n` consecutive bytes put into a sparse memory. -/
def putBytes : KV Byte → Nat → List Byte → KV Byte
  | m, _, [] => m
  | m, a, b :: bs => putBytes (kvPut (fun _ => 0) m a b) (a + 1) bs

/-- A byte list is stored from address `a` on. -/
def State.storeBytes (s : State) (sp a : Nat) (bs : List Byte) : State :=
  { s with mem := kvPut (fun _ => []) s.mem sp (putBytes (s.bytes sp) a bs) }

/-- `n` bytes of a memory from address `a` on. -/
def State.loadBytes (s : State) (sp a n : Nat) : List Byte := (List.range n).map (fun i => s.byteAt sp (a + i))

/-- The little-endian number of `n` bytes (R9, R135). -/
def State.loadNat (s : State) (sp a n : Nat) : Nat := leNat (s.loadBytes sp a n)

/-- A word of a memory. -/
def State.loadWord (s : State) (sp a : Nat) : Word := BitVec.ofNat 32 (s.loadNat sp a 4)

/-- The low `n` bytes of `v` are stored, least significant first. -/
def State.storeNat (s : State) (sp a n v : Nat) : State := s.storeBytes sp a (leBytes n v)

/-- Words stored one after the other. -/
def State.storeWords (s : State) (sp a : Nat) (ws : List Word) : State :=
  s.storeBytes sp a (ws.map (fun w => leBytes 4 w.toNat)).flatten

/-! ## MPU regions (R207) -/

/-- What an access asks of a region. -/
inductive Grant where
  | read
  | write
  | fetch
deriving DecidableEq, Repr

/-- Does a region grant the access to task `tid`: enabled, of the space (0 lane code, 1 lane data, 2 common SRAM), covering all of
its bytes, of its kind, naming the task or every task (63)? -/
def regionGrants (g : Region) (space : Nat) (k : Grant) (tid a n : Nat) : Bool :=
  g.en && g.space == space && decide (64 * g.base ≤ a) && decide (a + n ≤ 64 * g.limit + 64) && (g.task == tid || g.task == 63) &&
  (match k with
   | .read => g.r
   | .write => g.w
   | .fetch => g.x)

/-- Bytes of a lane's data memory (R205). -/
def dataBytes : Nat := 2097152

/-- Does some region of the partition grant the access, within the memory's range (R205, R207)? -/
def partGrants (p : Partition) (space : Nat) (k : Grant) (tid a n : Nat) : Bool :=
  (space != 1 || decide (a + n ≤ dataBytes)) && p.regions.any (fun g => regionGrants g space k tid a n)

end Sys2Proof.Machine
end

