-- ==== Sys2Proof/Machine/Lane.lean ====
section
/-!
DEFINITION. Machine/Lane.lean: how a lane runs task cycles (R163 to R172, R181 to R184, R220): choosing the cycle to run, the entry
call, loops, exceptions and aborts, and the frame in which every instruction executes.
-/
namespace Sys2Proof.Machine
open Sys2Proof

/-! ## Cycles and lanes -/

/-- Key of a cycle: its TID, and 64 above it for the cycles of a shadow run, a replay or a migration. -/
def Cycle.key (c : Cycle) : Nat := if c.kind = 0 then c.tid else c.tid + 64

def State.cycle (s : State) (key : Nat) : Option Cycle := kvGet (fun _ => none) s.tsk.cyc key

def State.setCycle (s : State) (key : Nat) (c : Option Cycle) : State :=
  { s with tsk := { s.tsk with cyc := kvPut (fun _ => none) s.tsk.cyc key c } }

/-- The cycle takes its new content. -/
def State.putCyc (s : State) (c : Cycle) : State := s.setCycle c.key (some c)

def State.lane (s : State) (ln : Nat) : LaneSt := kvGet (fun _ => LaneSt.reset) s.lanes ln

def State.setLane (s : State) (ln : Nat) (x : LaneSt) : State :=
  { s with lanes := kvPut (fun _ => LaneSt.reset) s.lanes ln x }

/-- The cycle that lane `ln` runs now. -/
def State.running (s : State) (ln : Nat) : Option Cycle :=
  match (s.lane ln).run with
  | some k => s.cycle k
  | none => none

/-- The verb table entry `v` of the partition on lane `ln`. -/
def State.verb (s : State) (ln v : Nat) : Option Verb :=
  match (s.lane ln).img with
  | some p => p.verbs[v]?
  | none => none

/-- Noun `n` of the partition on lane `ln`. -/
def State.noun (s : State) (ln n : Nat) : Option Noun :=
  match (s.lane ln).img with
  | some p => p.nouns[n]?
  | none => none

/-- Maximum staged writes W of verb `v` on lane `ln`. -/
def State.maxStaged (s : State) (ln v : Nat) : Nat := ((s.verb ln v).map Verb.maxstg).getD 0

/-- The cycle enters a status; a live task's register shows it. -/
def State.setStatus (s : State) (c : Cycle) (st : Nat) : State :=
  let s := s.putCyc { c with status := st }
  if c.kind = 0 then
    (s.set (F.TSK_T_STAT.RUNNING c.tid) (b2n (st == 1))).set (F.TSK_T_STAT.PREEMPTED c.tid) (b2n (st == 2))
  else s

/-- Does cycle `a` go before cycle `b` (R182): priority, a pre-empted one before a ready one, TID? -/
def Cycle.before (a b : Cycle) : Bool :=
  a.prio < b.prio || (a.prio == b.prio && ((a.status == 2 && b.status != 2) ||
    ((a.status == 2) == (b.status == 2) && a.tid < b.tid)))

/-- The cycle of lane `ln` to run next, ready or pre-empted. -/
def State.nextCycle (s : State) (ln : Nat) : Option Cycle :=
  s.tsk.cyc.foldl (fun best e =>
    match e.2 with
    | some c =>
      if c.lane = ln ∧ (c.status = 0 ∨ c.status = 2) then
        match best with
        | some b => if c.before b then some c else best
        | none => some c
      else best
    | none => best) none

/-! ## Exceptions and aborts (R169, R170, R184, R185, R220, R235) -/

/-- Staging words that the open calls of a cycle have reserved. -/
def State.reservedBy (s : State) (c : Cycle) : Nat := (c.frames.map (fun f => s.maxStaged c.lane f.verb)).sum

/-- A cycle that has ended early: its open calls, loops and buffers of R158 are gone; its journal stays (R220). -/
def Cycle.dropped (c : Cycle) : Cycle :=
  { c with frames := [], loops := [], lim := none, ost := [], shst := [], gset := [], evr := [], notes := [] }

/-- The most lane cycles that a cycle of the task has executed. -/
def State.execMax (s : State) (c : Cycle) : State :=
  if c.kind = 0 then
    s.set (F.TSK_T_EXEC.EXEC_MAX c.tid) (max (s.get (F.TSK_T_EXEC.EXEC_MAX c.tid)) (min c.exec (2 ^ 28 - 1)))
  else s

/-- The cycle ends now with a status (3 keeps its buffers); a lane that ran it runs nothing for now. -/
def State.endCycle (s : State) (c : Cycle) (st : Nat) : State :=
  let x := s.lane c.lane
  let s := s.setLane c.lane { x with run := if x.run = some c.key then none else x.run, resv := x.resv - s.reservedBy c }
  (s.execMax c).setStatus { (if st = 3 then c else c.dropped) with ended := s.six } st

/-- The lane's exception record (R185), with its event and, for a live cycle, the Cellar entry of R169. -/
def State.recordExc (s : State) (c : Cycle) (code detail pc : Nat) : State :=
  let n := c.lane
  let s := ((s.set (F.LNE_L_EXC.CODE n) code).set (F.LNE_L_EXC.TID n) c.tid).set (F.LNE_L_EXC.DETAIL n) detail
  let s := (s.set (F.LNE_L_EXC_PC.PC n) pc).set64 (A.LNE_L_EXC_SIX n) c.rel
  let s := (s.bump (F.LNE_L_EXC_CNT.EXC n)).raise F.LNE_EVT.EXC
  if c.kind = 0 then
    let s := s.set (F.TSK_T_STAT.LAST_EXC c.tid) code
    s.logNamed "LANE_EXC" (leBytes 1 n ++ leBytes 1 c.tid ++ leBytes 1 code ++ leBytes 2 detail ++ leBytes 4 pc ++ leBytes 8 c.rel)
  else s

/-- A cycle-class exception other than DEADLINE aborts the cycle (R184). -/
def State.abortExc (s : State) (c : Cycle) (code detail pc : Nat) : State :=
  let s := s.recordExc c code detail pc
  let s := if c.kind = 0 then s.raise F.TSK_EVT.ABORT else s
  s.endCycle c 4

/-- The entry call of a cycle (R165, R167): the frame, the reservation, NB and the pc. -/
def State.enter (s : State) (c : Cycle) (v n : Nat) : State :=
  let x := s.lane c.lane
  let nb := ((s.noun c.lane n).map Noun.base).getD 0
  let pc := ((s.verb c.lane v).map Verb.entry).getD 0
  let s := s.setLane c.lane { x with run := some c.key, resv := x.resv + s.maxStaged c.lane v }
  s.setStatus { c with frames := [⟨0, 0, v, n, []⟩], nb := nb, pc := pc } 1

/-- The table entry of a cycle's task in the partition on its lane. -/
def State.taskOf (s : State) (c : Cycle) : Option Task :=
  match (s.lane c.lane).img with
  | some p => p.tasks.find? (fun t => t.tid == c.tid)
  | none => none

/-- A lane that runs nothing takes its next cycle: a pre-empted one is restored, a ready one starts its entry call, and is aborted
where the lane's 512 staging words do not suffice (R165, R221). -/
def State.dispatch : Nat → Nat → State → State
  | 0, _, s => s
  | f + 1, ln, s =>
    match s.nextCycle ln with
    | none => s
    | some c =>
      if c.status = 2 then (s.setLane ln { s.lane ln with run := some c.key }).setStatus c 1
      else
        match s.taskOf c with
        | none => s
        | some t =>
          if 512 < (s.lane ln).resv + s.maxStaged ln t.entryVerb then
            State.dispatch f ln (s.abortExc c 4 1 (((s.verb ln t.entryVerb).map Verb.entry).getD 0))
          else s.enter c t.entryVerb t.entryNoun

/-- The lane takes its next cycle, if it runs none. -/
def State.schedule (s : State) (ln : Nat) : State :=
  if (s.lane ln).run.isSome then s else State.dispatch 97 ln s

/-- A cycle-class exception at `pc`: the record, the abort, and the lane goes on with another cycle. -/
def State.exception (s : State) (c : Cycle) (code detail pc : Nat) : State := (s.abortExc c code detail pc).schedule c.lane

/-! ## Control within a cycle (R163, R164) -/

/-- Control falls through from the instruction at `at_`: every open loop of the call that ends there turns or ends. -/
def fallGo (at_ depth : Nat) : List LoopFr → Cycle → Cycle
  | [], c => { c with loops := [], pc := at_ + 4 }
  | l :: ls, c =>
    if l.frame = depth ∧ l.last = at_ then
      if l.idx + 1 < l.count then
        { c.setReg l.mirror (BitVec.ofNat 32 (l.idx + 1)) with loops := { l with idx := l.idx + 1 } :: ls, pc := l.start, exec := c.exec + 1 }
      else fallGo at_ depth ls (c.setReg l.mirror (BitVec.ofNat 32 l.count))
    else { c with loops := l :: ls, pc := at_ + 4 }

/-- Control falls through from `at_`. -/
def Cycle.fall (c : Cycle) (at_ : Nat) : Cycle := fallGo at_ c.depth c.loops c

/-- The loops that stay open when control moves to `target`: those of the call whose body it leaves end (R164). -/
def leaveLoops (depth target : Nat) : List LoopFr → List LoopFr
  | [] => []
  | l :: ls => if l.frame = depth ∧ ¬(l.start ≤ target ∧ target ≤ l.last) then leaveLoops depth target ls else l :: ls

/-- Control moves to `target`; the step from a LIM to its LOOP leaves no loop. -/
def Cycle.goto (c : Cycle) (target : Nat) : Cycle :=
  { c with
    pc := target, loops := if c.lim.isSome then c.loops else leaveLoops c.depth target c.loops }

/-! ## The frame of an instruction -/

/-- What an instruction does: raise an exception, complete and fall through with sticky bits set, move control, let control fall
through from another address (a return), or end its cycle. -/
inductive Effect where
  | trap (code detail : Nat)
  | next (s : State) (c : Cycle) (sticky : Nat)
  | jump (s : State) (c : Cycle) (target : Nat)
  | back (s : State) (c : Cycle) (from_ : Nat)
  | stop (s : State) (c : Cycle)

/-- An instruction's body: its effect on the state and on the cycle that runs it. -/
abbrev Body := State → Cycle → Effect

/-- The masked sticky bits, as the detail of ARITH (R170, R172). -/
def arithDetail (fmask sticky : Nat) : Nat :=
  (b2n (bit sticky 9) + 2 * b2n (bit sticky 10) + 4 * b2n (bit sticky 8)) &&& fmask

/-- May the cycle fetch the instruction at its pc (R162): word-aligned, inside the partition's code, in a region that grants X? -/
def State.mayFetch (s : State) (c : Cycle) : Bool :=
  match (s.lane c.lane).img with
  | some p => c.pc % 4 == 0 && decide (c.pc < 4 * p.code.length) && partGrants p 0 .fetch c.tid c.pc 4
  | none => false

/-- Address of the instruction at which the cycle stands: a LIM and its LOOP are indivisible (R164). -/
def Cycle.at_ (c : Cycle) : Nat := if c.lim.isSome then c.pc - 4 else c.pc

/-- The effect of an instruction of `cost` lane cycles takes place. -/
def State.applyEffect (s : State) (c : Cycle) (cost : Nat) : Effect → State
  | .trap code detail => s.exception c code detail c.at_
  | .next s1 c1 sticky =>
    if arithDetail c.fmask sticky = 0 then
      s1.putCyc ({ c1 with flg := c1.flg ||| sticky, exec := c1.exec + cost }.fall c.pc)
    else s.exception c 8 (arithDetail c.fmask sticky) c.pc
  | .jump s1 c1 target => s1.putCyc ({ c1 with exec := c1.exec + cost }.goto target)
  | .back s1 c1 from_ => s1.putCyc ({ c1 with exec := c1.exec + cost }.fall from_)
  | .stop s1 c1 => (s1.endCycle { c1 with exec := c1.exec + cost } 3).schedule c.lane

/-- One instruction of the cycle that lane `ln` runs (R169 to R172): a LIM that stands alone raises ILLEGAL at the LIM (R163), an
address without an X region raises MPU, then the body acts. -/
def State.insnGo (s : State) (c : Cycle) (cost : Nat) (isLoop : Bool) (body : Body) : State :=
  if c.lim.isSome && !isLoop then s.exception c 1 5 c.at_
  else if s.mayFetch c then s.applyEffect c cost (body s c)
  else s.exception c 2 0 c.at_

/-- An instruction command for lane `ln`; with no cycle running on the lane there is no instruction to execute. -/
def State.insn (s : State) (ln cost : Nat) (isLoop : Bool) (body : Body) : Host.Outcome State Fault Refusal :=
  match s.running ln with
  | some c => .next (s.insnGo c cost isLoop body)
  | none => .next s

end Sys2Proof.Machine
end

