-- ==== Sys2Proof/Machine/Alu.lean ====
section
/-!
DEFINITION. Machine/Alu.lean: the bodies that the arithmetic instructions of the Sogen set share (R142, R144, R146 to R152): reading
operands, refusing unused fields and odd pairs, writing the result, and the flags where the S bit is set.
-/
namespace Sys2Proof.Machine
open Sys2Proof

/-- The flags that an instruction with its S bit set writes. -/
def Cycle.flags (c : Cycle) (sb : Bool) (f : Nat) : Cycle := if sb then { c with flg := withZncv c.flg f } else c

/-- A register-format instruction on words; `bz` says that b must be 0. -/
def aluBody (d a b : Nat) (sb bz : Bool) (f : Word → Word → Alu 32) : Body := fun s c =>
  if bz ∧ b ≠ 0 then .trap 1 3
  else
    let r := f (c.reg a) (c.reg b)
    .next s ((c.setReg d r.val).flags sb r.flags) r.sticky

/-- An immediate arithmetic instruction (R148): no flag is written; `az` says that a must be 0. -/
def immBody (d a : Nat) (imm : BitVec 16) (az : Bool) (f : Word → BitVec 16 → Word × Nat) : Body := fun s c =>
  if az ∧ a ≠ 0 then .trap 1 3
  else
    let r := f (c.reg a) imm
    .next s (c.setReg d r.1) r.2

/-- Which of d, a and b are pairs, and whether b must be 0 (R149). -/
structure WideForm where
  dp : Bool
  ap : Bool
  bp : Bool
  bz : Bool
deriving DecidableEq, Repr

def formPPP : WideForm := ⟨true, true, true, false⟩
def formPSS : WideForm := ⟨true, false, false, false⟩
def formPPS : WideForm := ⟨true, true, false, false⟩
def formSPP : WideForm := ⟨false, true, true, false⟩
def formPS0 : WideForm := ⟨true, false, false, true⟩

/-- An odd register in a pair field. -/
def oddPair (p : Bool) (i : Nat) : Bool := p && i % 2 == 1

/-- The low word of an operand. -/
def low32 (x : BitVec 64) : Word := x.setWidth 32

/-- The low six bits of a shift count. -/
def sh6 (y : BitVec 64) : Nat := y.toNat % 64

/-- 1 for true and 0 for false, as a 64-bit result. -/
def bool64 (p : Bool) : Alu 64 := plainAlu (if p then 1#64 else 0#64)

/-- An instruction of the 64-bit group. -/
def wideBody (d a b : Nat) (sb : Bool) (fm : WideForm) (f : BitVec 64 → BitVec 64 → Alu 64) : Body := fun s c =>
  if oddPair fm.dp d ∨ oddPair fm.ap a ∨ oddPair fm.bp b then .trap 1 2
  else if fm.bz ∧ b ≠ 0 then .trap 1 3
  else
    let x := if fm.ap then c.pair a else (c.reg a).setWidth 64
    let y := if fm.bp then c.pair b else (c.reg b).setWidth 64
    let r := f x y
    let c1 := if fm.dp then c.setPair d r.val else c.setReg d (low32 r.val)
    .next s (c1.flags sb r.flags) r.sticky

end Sys2Proof.Machine
end

