-- ==== Sys2Proof/Machine/Reg.lean ====
section
/-!
DEFINITION. Machine/Reg.lean: what a write that acts does to a register word (R10, R11): `set` fields take the written value, `knock`
bits written 1 fall, `kick`, `take` and `look` fields stay.
-/
namespace Sys2Proof.Machine
open Sys2Proof

/-- The word of a register of kind `d` (its low word for `h` = 0) that held `old` after a write of `w`. -/
def RegDesc.written (d : RegDesc) (h : Nat) (old w : Word) : Word :=
  let st := BitVec.ofNat 32 (d.set / 2 ^ (32 * h))
  let kn := BitVec.ofNat 32 (d.knock / 2 ^ (32 * h))
  ((old &&& ~~~st) ||| (w &&& st)) &&& ~~~(kn &&& w)

/-- The register at `a` takes a write of `w`. -/
def State.wrFields (s : State) (a : Nat) (w : Word) : State :=
  match regAt a with
  | some (d, h) => s.wr a (d.written h (s.rd a) w)
  | none => s

end Sys2Proof.Machine
end

