-- ==== Sys2Proof/Machine/Ptp.lean ====
section
/-!
DEFINITION. Machine/Ptp.lean: PTP on the Ethernet ports: which ports take part (R312, R313), what a received frame gives to the time
unit, and the transparent clock of the HSR pairs (R315).
-/
namespace Sys2Proof.Machine
open Sys2Proof

/-- IEEE 1588 message types. -/
def ptpSync : Nat := 0
def ptpPdReq : Nat := 2
def ptpPdResp : Nat := 3
def ptpFollowUp : Nat := 8
def ptpPdRespFu : Nat := 10
def ptpAnnounce : Nat := 11

/-- Is PTP the primary or the backup source (R311)? -/
def State.ptpSource (s : State) : Bool := s.get F.TIM_CFG.SRC == 1 || s.get F.TIM_CFG.BACKUP == 1

/-- Is `port` one of the pair that carries the slave (R313)? -/
def State.slavePort (s : State) (port : Nat) : Bool := s.ptpSource && port / 2 == s.get F.TIM_CFG.PAIR

/-- Does the transparent clock act on the pair of `port`: TC_EN set and HSR run (R315)? -/
def State.tcPort (s : State) (port : Nat) : Bool :=
  bit (s.get F.TIM_CFG.TC_EN) (port / 2) && s.get (F.ETH_PAIR_CFG.MODE (port / 2)) == 2

/-- Does `port` serve PTP before the first release of a start-up, while the other Ethernet ports are off (R403)? -/
def State.startPort (s : State) (port : Nat) : Bool := s.pwr.startup && bit (s.get F.PWR_DOM.ON) 10 && s.slavePort port

/-- Is `port` a PTP port? -/
def State.ptpPort (s : State) (port : Nat) : Bool :=
  (s.flag F.ETH_STATUS.POWERED && (s.slavePort port || s.tcPort port)) || s.startPort port

/-- Samples in 2 to the power of `l` seconds. -/
def logSamples (l : Int) : Nat := if 0 ≤ l then samplesPerSecond * 2 ^ l.toNat else samplesPerSecond / 2 ^ (-l).toNat

/-- LOG_PD (R312). -/
def State.logPd (s : State) : Int := signed 4 (s.get F.TIM_PTP.LOG_PD)

/-- A PTP frame ignored under R312. -/
def State.ptpIgnore (s : State) (port : Nat) : State := s.bump (F.TIM_E_CNT.IGNORED port)

/-- A PTP frame used. -/
def State.ptpUse (s : State) (port : Nat) : State := s.bump (F.TIM_E_CNT.USED port)

/-- Time stamps of one peer-delay request leave with its answer. -/
def State.pdRespond (s : State) (port : Nat) (m : PtpMsg) : State :=
  (s.ptpUse port).emit (.eth port none 0 (.pdelayResp m.clockId m.portNo m.seq))

/-- A PTP frame reaches the time unit (R312, R313): another domain, Delay_Req, Delay_Resp, management and signalling messages are
ignored and counted, a Pdelay_Req is answered, and the rest waits for its own step. -/
def State.ptpIn (s : State) (port : Nat) (m : PtpMsg) : State :=
  if !s.ptpPort port then s
  else if m.domain ≠ s.get F.TIM_PTP.DOMAIN then s.ptpIgnore port
  else if m.kind = ptpPdReq then s.pdRespond port m
  else if m.kind = ptpPdResp ∨ m.kind = ptpPdRespFu ∨ ((m.kind = ptpSync ∨ m.kind = ptpFollowUp ∨ m.kind = ptpAnnounce) ∧ s.slavePort port) then
    { s with tim := { s.tim with inbox := s.tim.inbox ++ [(port, s.six, m)] } }
  else if m.kind = ptpSync ∨ m.kind = ptpFollowUp ∨ m.kind = ptpAnnounce then s
  else s.ptpIgnore port

/-- The amounts held by the transparent clock that are not older than 1 s. -/
def State.tcLive (s : State) : List (Nat × Nat × Nat × Int × Nat) :=
  s.tim.held.filter (fun h => s.six ≤ h.2.2.2.2 + samplesPerSecond)

/-- What the transparent clock does with a PTP frame that comes in at `port` for the other port of its pair (R315): the correctionField with
which it leaves (none: terminated here), and the state. -/
def State.tcForward (s : State) (port : Nat) (m : PtpMsg) : Option Int × State :=
  if m.kind = ptpPdReq ∨ m.kind = ptpPdResp ∨ m.kind = ptpPdRespFu then (none, s)
  else
    let amount : Int := (m.residence : Int) + 65536 * s.get (F.TIM_E_PDLY.NS port)
    if m.kind = ptpSync then
      if m.twoStep then
        let h := (m.clockId, m.portNo, m.seq, amount, s.six) :: s.tcLive
        (some m.corr, { s with tim := { s.tim with held := h.take 16 } })
      else (some (m.corr + amount), s)
    else if m.kind = ptpFollowUp then
      match s.tcLive.find? (fun h => h.1 == m.clockId && h.2.1 == m.portNo && h.2.2.1 == m.seq) with
      | some h => (some (m.corr + h.2.2.2.1), { s with tim := { s.tim with held := s.tcLive.filter (· != h) } })
      | none => (some m.corr, s.ptpIgnore port)
    else (some m.corr, s)

end Sys2Proof.Machine
end

