-- ==== Sys2Proof/Machine/SogMem.lean ====
section
/-!
DEFINITION. Machine/SogMem.lean: the special registers, memory, noun, image, output, shelf, gate, event and note instructions of the
Sogen set (R139, R140, R154 to R161).
-/
namespace Sys2Proof.Machine
open Sys2Proof

/-! ## Special registers (R139, R140) -/

/-- Size of the parameter section of the current call's noun. -/
def State.curPsize (s : State) (c : Cycle) : Nat := ((s.verb c.lane c.top.verb).map Verb.psize).getD 0

/-- Size of the current call's noun. -/
def State.curNsize (s : State) (c : Cycle) : Nat := ((s.verb c.lane c.top.verb).map Verb.nsize).getD 0

/-- NB as MFS shows it: 0 at the entry call of a noun without a parameter section. -/
def State.nbShown (s : State) (c : Cycle) : Nat := if c.depth = 1 ∧ s.curPsize c = 0 then 0 else c.nb

/-- The special register of code `k` below 11. -/
def State.special (s : State) (c : Cycle) : Nat → Nat
  | 0 => c.flg
  | 1 => s.nbShown c
  | 2 => c.rel
  | 3 => c.rel / 2 ^ 32
  | 4 => c.tid
  | 5 => if c.event then 0 else c.period
  | 6 => c.fmask
  | 7 => c.depth
  | 8 => c.loops.length
  | 9 => c.top.staged.length
  | _ => c.part

/-- MFS; `b` and `fn10` are the fields that must be 0. -/
def mfsBody (d a b : Nat) (fn10 : Bool) : Body := fun s c =>
  if a = 11 ∧ d % 2 = 1 then .trap 1 2
  else if b ≠ 0 ∨ fn10 then .trap 1 3
  else if 11 < a then .trap 1 4
  else if a = 11 then .next s (c.setPair d (BitVec.ofNat 64 c.rel)) 0
  else .next s (c.setReg d (BitVec.ofNat 32 (s.special c a))) 0

/-- MFS takes 2 lane cycles for code 11, else 1. -/
def mfsCost (a : Nat) : Nat := if a = 11 then 2 else 1

def execMfs (ln : Fin 4) (d a b : Fin 32) (fn10 : Bool) (s : State) : Host.Outcome State Fault Refusal :=
  s.insn ln (mfsCost a) false (mfsBody d a b fn10)

/-- MTF: Z, N, C and V from g[a]; a sticky bit clears where its bit of g[a] is 0. -/
def mtfBody (d a b : Nat) (fn10 : Bool) : Body := fun s c =>
  if d ≠ 0 ∨ b ≠ 0 ∨ fn10 then .trap 1 3
  else .next s { c with flg := (c.reg a).toNat % 16 ||| (c.flg &&& (c.reg a).toNat &&& 0x700) } 0

def execMtf (ln : Fin 4) (d a b : Fin 32) (fn10 : Bool) (s : State) : Host.Outcome State Fault Refusal :=
  s.insn ln 1 false (mtfBody d a b fn10)

/-! ## Loads and stores (R154, R205, R210) -/

/-- Engine-private store that stands in for the partition's common area under the cycles of a shadow run, a replay or a migration. -/
def spPrivate : Nat := 32

/-- The memory in which a cycle's access to region space 1 (lane data) or 2 (common SRAM) acts. -/
def Cycle.space (c : Cycle) (sp : Nat) : Nat :=
  if sp = 1 then spData c.lane else if c.kind = 0 then spSRAM else spPrivate

/-- The address of a load or store. -/
def Cycle.addr (c : Cycle) (a : Nat) (imm : BitVec 16) : Nat := (c.reg a + immS imm).toNat

/-- The copy of an old noun that a migration call reads (R241), by the offset from its address. -/
def spCopy : Nat := 33

/-- The offset in that copy of a read of `n` bytes at `ad` of lane data memory by a migration call. -/
def State.copyOff (s : State) (c : Cycle) (sp n ad : Nat) : Option Nat :=
  let base := Config.migrCopy.toNat
  if c.kind = 3 ∧ sp = 1 ∧ base ≤ ad ∧ ad + n ≤ base + s.olc.copyLen then some (ad - base) else none

/-- The checks of an access of `n` bytes, then `act` on the memory and the address (R154, R207). -/
def access (sp n a : Nat) (k : Grant) (imm : BitVec 16) (act : Nat → Nat → State → Cycle → Effect) : Body := fun s c =>
  let ad := c.addr a imm
  if ad % n ≠ 0 then .trap 2 1
  else if k = .read ∧ (s.copyOff c sp n ad).isSome then act spCopy ((s.copyOff c sp n ad).getD 0) s c
  else if ((s.lane c.lane).img.any (fun p => partGrants p sp k c.tid ad n)) then act (c.space sp) ad s c
  else .trap 2 0

/-- A load of `n` bytes into g[d]; `ext` extends the value. -/
def loadBody (sp n d a : Nat) (imm : BitVec 16) (ext : Nat → Word) : Body :=
  access sp n a .read imm (fun m ad s c => .next s (c.setReg d (ext (s.loadNat m ad n))) 0)

/-- A load of a pair. -/
def loadPairBody (sp d a : Nat) (imm : BitVec 16) : Body := fun s c =>
  if d % 2 = 1 then .trap 1 2
  else access sp 8 a .read imm (fun m ad s c => .next s (c.setPair d (BitVec.ofNat 64 (s.loadNat m ad 8))) 0) s c

/-- A store of the low `n` bytes of g[d]. -/
def storeBody (sp n d a : Nat) (imm : BitVec 16) : Body :=
  access sp n a .write imm (fun m ad s c => .next (s.storeNat m ad n (c.reg d).toNat) c 0)

/-- A store of a pair. -/
def storePairBody (sp d a : Nat) (imm : BitVec 16) : Body := fun s c =>
  if d % 2 = 1 then .trap 1 2
  else access sp 8 a .write imm (fun m ad s c => .next (s.storeNat m ad 8 (c.pair d).toNat) c 0) s c

/-- Zero extension, and sign extension from `w` bits. -/
def zextTo (v : Nat) : Word := BitVec.ofNat 32 v
def sextFrom (w v : Nat) : Word := BitVec.ofInt 32 (signed w v)

def execLdw (ln : Fin 4) (d a : Fin 32) (imm : BitVec 16) (s : State) : Host.Outcome State Fault Refusal :=
  s.insn ln 2 false (loadBody 1 4 d a imm zextTo)

def execLdh (ln : Fin 4) (d a : Fin 32) (imm : BitVec 16) (s : State) : Host.Outcome State Fault Refusal :=
  s.insn ln 2 false (loadBody 1 2 d a imm (sextFrom 16))

def execLdhu (ln : Fin 4) (d a : Fin 32) (imm : BitVec 16) (s : State) : Host.Outcome State Fault Refusal :=
  s.insn ln 2 false (loadBody 1 2 d a imm zextTo)

def execLdb (ln : Fin 4) (d a : Fin 32) (imm : BitVec 16) (s : State) : Host.Outcome State Fault Refusal :=
  s.insn ln 2 false (loadBody 1 1 d a imm (sextFrom 8))

def execLdbu (ln : Fin 4) (d a : Fin 32) (imm : BitVec 16) (s : State) : Host.Outcome State Fault Refusal :=
  s.insn ln 2 false (loadBody 1 1 d a imm zextTo)

def execLdd (ln : Fin 4) (d a : Fin 32) (imm : BitVec 16) (s : State) : Host.Outcome State Fault Refusal :=
  s.insn ln 3 false (loadPairBody 1 d a imm)

def execStw (ln : Fin 4) (d a : Fin 32) (imm : BitVec 16) (s : State) : Host.Outcome State Fault Refusal :=
  s.insn ln 1 false (storeBody 1 4 d a imm)

def execSth (ln : Fin 4) (d a : Fin 32) (imm : BitVec 16) (s : State) : Host.Outcome State Fault Refusal :=
  s.insn ln 1 false (storeBody 1 2 d a imm)

def execStb (ln : Fin 4) (d a : Fin 32) (imm : BitVec 16) (s : State) : Host.Outcome State Fault Refusal :=
  s.insn ln 1 false (storeBody 1 1 d a imm)

def execStd (ln : Fin 4) (d a : Fin 32) (imm : BitVec 16) (s : State) : Host.Outcome State Fault Refusal :=
  s.insn ln 2 false (storePairBody 1 d a imm)

def execCldw (ln : Fin 4) (d a : Fin 32) (imm : BitVec 16) (s : State) : Host.Outcome State Fault Refusal :=
  s.insn ln 12 false (loadBody 2 4 d a imm zextTo)

def execCldd (ln : Fin 4) (d a : Fin 32) (imm : BitVec 16) (s : State) : Host.Outcome State Fault Refusal :=
  s.insn ln 12 false (loadPairBody 2 d a imm)

def execCstw (ln : Fin 4) (d a : Fin 32) (imm : BitVec 16) (s : State) : Host.Outcome State Fault Refusal :=
  s.insn ln 12 false (storeBody 2 4 d a imm)

def execCstd (ln : Fin 4) (d a : Fin 32) (imm : BitVec 16) (s : State) : Host.Outcome State Fault Refusal :=
  s.insn ln 12 false (storePairBody 2 d a imm)

/-! ## Nouns (R155, R243) -/

/-- The word of a 64-bit force value at word `i` of its target, by the force's type: a bool counts its bit 0. -/
def forceWord (typ val i : Nat) : Word :=
  if typ = 5 then BitVec.ofNat 32 (val / 2 ^ (32 * i))
  else if typ = 4 then BitVec.ofNat 32 (val % 2)
  else BitVec.ofNat 32 val

/-- The force in effect on a target: the entry that is active, bound to a symbol that `hit` places at a word of its target. -/
def State.forced (s : State) (hit : Symbol → Option Nat) : Option Word :=
  s.frc.findSome? (fun e =>
    if s.flag (F.FRC_E_CTL.ACTIVE e.1) then
      match e.2.bound with
      | some y => (hit y).map (forceWord y.typ e.2.val)
      | none => none
    else none)

/-- Word of a pair target that starts at `lo` in steps of `step`, for the place `x`. -/
def hitWord (typ lo step x : Nat) : Option Nat :=
  if x = lo then some 0 else if typ = 5 ∧ x = lo + step then some 1 else none

/-- The force on an output-image word (KIND 2 of R243). -/
def State.forcedOut (s : State) (w : Nat) : Option Word :=
  s.forced (fun y => match y.target with
    | .out x => hitWord y.typ x 1 w
    | _ => none)

/-- The force on the word at offset `o` of a noun (KIND 1 of R243). -/
def State.forcedNoun (s : State) (id o : Nat) : Option Word :=
  s.forced (fun y => match y.target with
    | .noun i off => if i = id then hitWord y.typ off 4 o else none
    | _ => none)

/-- Offset in the noun that NLD and NST name. -/
def Cycle.nounOff (c : Cycle) (a : Nat) (imm : BitVec 16) : Nat := (c.reg a + immU imm).toNat

/-- Is the offset no word of the current noun? -/
def State.offBad (s : State) (c : Cycle) (o : Nat) : Bool := o % 4 != 0 || decide (s.curNsize c ≤ o)

/-- The staged value of the current call at offset `o`. -/
def Cycle.stagedAt (c : Cycle) (o : Nat) : Option Word := kvGet (fun _ => none) c.top.staged o

/-- The word that NLD reads: a force's value, the call's staged write, else the committed value. -/
def State.nounWord (s : State) (c : Cycle) (o : Nat) : Word :=
  match (if c.kind = 0 then ((s.noun c.lane c.top.noun).map Noun.id).bind (fun id => s.forcedNoun id o) else none) with
  | some w => w
  | none => (c.stagedAt o).getD (s.loadWord (spData c.lane) (c.nb + o))

def nldBody (d a : Nat) (imm : BitVec 16) : Body := fun s c =>
  let o := c.nounOff a imm
  if s.offBad c o then .trap 2 4 else .next s (c.setReg d (s.nounWord c o)) 0

def execNld (ln : Fin 4) (d a : Fin 32) (imm : BitVec 16) (s : State) : Host.Outcome State Fault Refusal :=
  s.insn ln 2 false (nldBody d a imm)

/-- The current call stages a word at offset `o`. -/
def Cycle.stage (c : Cycle) (o : Nat) (v : Word) : Cycle :=
  match c.frames with
  | [] => c
  | f :: fs => { c with frames := { f with staged := kvPut (fun _ => none) f.staged o (some v) } :: fs }

/-- NST: the parameter section is refused but in a migration call (R241). -/
def nstBody (d a : Nat) (imm : BitVec 16) : Body := fun s c =>
  let o := c.nounOff a imm
  if s.offBad c o || (decide (o < s.curPsize c) && c.kind != 3) then .trap 2 4
  else if (c.stagedAt o).isNone ∧ c.top.staged.length = s.maxStaged c.lane c.top.verb then .trap 4 0
  else .next s (c.stage o (c.reg d)) 0

def execNst (ln : Fin 4) (d a : Fin 32) (imm : BitVec 16) (s : State) : Host.Outcome State Fault Refusal :=
  s.insn ln 2 false (nstBody d a imm)

/-! ## The frozen image (R156, R157) -/

/-- Key of an item of the image. -/
def itemKey (ctx ch item : Nat) : Nat := ctx * 8192 + ch * 256 + item

/-- The task's table entry lets it read the context. -/
def State.declares (s : State) (c : Cycle) (ctx : Nat) : Bool := (s.taskOf c).any (fun t => t.declCtx.contains ctx)

def sldBody (d ctx ch item : Nat) : Body := fun s c =>
  if s.declares c ctx then .next s (c.setReg d (kvGet (fun _ => 0) c.img.items (itemKey ctx ch item))) 0 else .trap 2 2

def execSld (ln : Fin 4) (d : Fin 32) (ctx : BitVec 8) (ch : BitVec 5) (item : BitVec 8) (s : State) :
    Host.Outcome State Fault Refusal :=
  s.insn ln 12 false (sldBody d ctx.toNat ch.toNat item.toNat)

def sldpBody (d ctx ch item : Nat) : Body := fun s c =>
  if d % 2 = 1 then .trap 1 2
  else if item < 0x10 ∨ 0x2C < item ∨ item % 2 = 1 then .trap 1 4
  else if s.declares c ctx then
    .next s (c.setPair d (kvGet (fun _ => 0) c.img.items (itemKey ctx ch (item + 1)) ++
      kvGet (fun _ => 0) c.img.items (itemKey ctx ch item))) 0
  else .trap 2 2

def execSldp (ln : Fin 4) (d : Fin 32) (ctx : BitVec 8) (ch : BitVec 5) (item : BitVec 8) (s : State) :
    Host.Outcome State Fault Refusal :=
  s.insn ln 13 false (sldpBody d ctx.toNat ch.toNat item.toNat)

def ildBody (d a : Nat) (imm : BitVec 16) : Body := fun s c =>
  let o := c.nounOff a imm
  if o % 4 ≠ 0 then .trap 2 1
  else if c.img.size < o + 4 then .trap 2 0
  else .next s (c.setReg d (kvGet (fun _ => 0) c.img.region o)) 0

def execIld (ln : Fin 4) (d a : Fin 32) (imm : BitVec 16) (s : State) : Host.Outcome State Fault Refusal :=
  s.insn ln 12 false (ildBody d a imm)

/-! ## Outputs, shelves, gates, events, notes (R158 to R161) -/

/-- Does the task of the cycle own word `w` of the output image (R159)? -/
def State.ownsOut (s : State) (c : Cycle) (w : Nat) : Bool :=
  (s.lane c.lane).img.any (fun p => p.outputs.any (fun r => r.task == c.tid && decide (r.first ≤ w) && decide (w < r.first + r.count)))

def ostBody (d a : Nat) (imm : BitVec 16) : Body := fun s c =>
  let o := c.nounOff a imm
  if o % 4 ≠ 0 then .trap 2 1
  else if s.ownsOut c (o / 4) then .next s { c with ost := kvPut (fun _ => none) c.ost (o / 4) (some (c.reg d)) } 0
  else .trap 2 3

def execOst (ln : Fin 4) (d a : Fin 32) (imm : BitVec 16) (s : State) : Host.Outcome State Fault Refusal :=
  s.insn ln 12 false (ostBody d a imm)

/-- Shelf `id` of the image as lane `ln` sees it: its own partition's table, else those of the other partitions that run. -/
def State.shelf (s : State) (ln id : Nat) : Option Shelf :=
  let own := match (s.lane ln).img with
    | some p => p.shelves
    | none => []
  let others := match s.tsk.prog with
    | some g => (g.parts.map Partition.shelves).flatten
    | none => []
  (own ++ others).find? (fun h => h.id == id)

/-- May the cycle read the shelf (R158, R189, R190): a cyclic task that writes it or lists it? -/
def State.readsShelf (s : State) (c : Cycle) (h : Shelf) : Bool :=
  !c.event && (h.writer == c.tid || (s.taskOf c).any (fun t => t.declShelves.contains h.id))

/-- SHLD; `fn` is the whole field: shelf in [9:0], bit 10 must be 0. -/
def shldBody (d a b fn : Nat) : Body := fun s c =>
  if b ≠ 0 ∨ 1024 ≤ fn then .trap 1 3
  else
    match s.shelf c.lane fn with
    | none => .trap 2 3
    | some h =>
      if s.readsShelf c h then
        if h.words ≤ (c.reg a).toNat then .trap 2 0
        else .next s (c.setReg d (kvGet (fun _ => 0) (kvGet (fun _ => []) c.img.shelves fn) (c.reg a).toNat)) 0
      else .trap 2 3

def execShld (ln : Fin 4) (d a b : Fin 32) (fn : BitVec 11) (s : State) : Host.Outcome State Fault Refusal :=
  s.insn ln 12 false (shldBody d a b fn.toNat)

/-- SHST, into the cycle's write buffer. -/
def shstBody (d a b fn : Nat) : Body := fun s c =>
  if b ≠ 0 ∨ 1024 ≤ fn then .trap 1 3
  else
    match s.shelf c.lane fn with
    | none => .trap 2 3
    | some h =>
      if h.writer = c.tid then
        if h.words ≤ (c.reg a).toNat then .trap 2 0
        else
          let m := kvPut (fun _ => none) (kvGet (fun _ => []) c.shst fn) (c.reg a).toNat (some (c.reg d))
          .next s { c with shst := kvPut (fun _ => []) c.shst fn m } 0
      else .trap 2 3

def execShst (ln : Fin 4) (d a b : Fin 32) (fn : BitVec 11) (s : State) : Host.Outcome State Fault Refusal :=
  s.insn ln 12 false (shstBody d a b fn.toNat)

/-- Does the task of the cycle own gate `g` (R159)? -/
def State.ownsGate (s : State) (c : Cycle) (g : Nat) : Bool :=
  (s.lane c.lane).img.any (fun p => p.gates.any (fun e => e.1 == g && e.2 == c.tid))

/-- GSET: gate imm16[5:0] takes g[a][0] or imm16[6]. -/
def gsetBody (d a : Nat) (imm : BitVec 16) : Body := fun s c =>
  let v := imm.toNat
  if d ≠ 0 ∨ (bit v 7 = false ∧ a ≠ 0) then .trap 1 3
  else if 256 ≤ v then .trap 1 7
  else if s.ownsGate c (v % 64) then
    let x := if bit v 7 then (c.reg a).toNat % 2 else b2n (bit v 6)
    .next s { c with gset := kvPut (fun _ => none) c.gset (v % 64) (some x) } 0
  else .trap 2 3

def execGset (ln : Fin 4) (d a : Fin 32) (imm : BitVec 16) (s : State) : Host.Outcome State Fault Refusal :=
  s.insn ln 2 false (gsetBody d a imm)

/-- EVR raises event task imm16[3:0]. -/
def evrBody (d a : Nat) (imm : BitVec 16) : Body := fun s c =>
  if d ≠ 0 ∨ a ≠ 0 then .trap 1 3
  else if 16 ≤ imm.toNat then .trap 1 7
  else .next s { c with evr := c.evr ++ [imm.toNat] } 0

def execEvr (ln : Fin 4) (d a : Fin 32) (imm : BitVec 16) (s : State) : Host.Outcome State Fault Refusal :=
  s.insn ln 2 false (evrBody d a imm)

/-- Notes that a cycle can issue (R161). -/
def maxNotes : Nat := 16

/-- A note that a live cycle drops is counted (R161, R203). -/
def State.noteDropped (s : State) (c : Cycle) : State :=
  if c.kind = 0 then (s.bump (F.TSK_T_CNT.NOTE_DROP c.tid)).raise F.TSK_EVT.NOTE_DROP else s

/-- CNOTE copies its bytes when it executes; the seventeenth note of a cycle and every later one is dropped and counted. -/
def cnoteBody (d a b fn : Nat) : Body := fun s c =>
  let v := (c.reg d).toNat
  let n := (c.reg b).toNat
  let ad := (c.reg a).toNat
  if fn ≠ 0 then .trap 1 3
  else if 2 ^ 14 ≤ v ∨ bit v 11 ∨ 64 < n then .trap 1 6
  else if ad % 4 ≠ 0 then .trap 2 1
  else if n ≠ 0 ∧ !((s.lane c.lane).img.any (fun p => partGrants p 1 .read c.tid ad n)) then .trap 2 0
  else if c.notes.length < maxNotes then
    .next s { c with notes := c.notes ++ [⟨0x800 + v % 2048, v / 4096 % 4, s.loadBytes (spData c.lane) ad n⟩] } 0
  else .next (s.noteDropped c) { c with drops := c.drops + 1 } 0

def execCnote (ln : Fin 4) (d a b : Fin 32) (fn : BitVec 11) (s : State) : Host.Outcome State Fault Refusal :=
  s.insn ln 20 false (cnoteBody d a b fn.toNat)

end Sys2Proof.Machine
end

