-- ==== Sys2Proof/Machine/SogCtl.lean ====
section
/-!
DEFINITION. Machine/SogCtl.lean: branches, jumps, SEL, counted loops and calls of the Sogen set (R145, R162 to R167, R178).
-/
namespace Sys2Proof.Machine
open Sys2Proof

/-! ## Branches and jumps (R162) -/

/-- A target that lies `off` words after the instruction. -/
def Cycle.rel4 (c : Cycle) (off : Int) : Nat := (BitVec.ofNat 32 c.pc + BitVec.ofInt 32 (4 * off)).toNat

/-- A compare and branch of g[d] and g[a]. -/
def branchBody (d a : Nat) (imm : BitVec 16) (p : Word → Word → Bool) : Body := fun s c =>
  if p (c.reg d) (c.reg a) then .jump s c (c.rel4 imm.toInt) else .next s c 0

def execBeq (ln : Fin 4) (d a : Fin 32) (imm : BitVec 16) (s : State) : Host.Outcome State Fault Refusal :=
  s.insn ln 2 false (branchBody d a imm (fun x y => x == y))

def execBne (ln : Fin 4) (d a : Fin 32) (imm : BitVec 16) (s : State) : Host.Outcome State Fault Refusal :=
  s.insn ln 2 false (branchBody d a imm (fun x y => x != y))

def execBlt (ln : Fin 4) (d a : Fin 32) (imm : BitVec 16) (s : State) : Host.Outcome State Fault Refusal :=
  s.insn ln 2 false (branchBody d a imm (fun x y => x.slt y))

def execBge (ln : Fin 4) (d a : Fin 32) (imm : BitVec 16) (s : State) : Host.Outcome State Fault Refusal :=
  s.insn ln 2 false (branchBody d a imm (fun x y => y.sle x))

def execBltu (ln : Fin 4) (d a : Fin 32) (imm : BitVec 16) (s : State) : Host.Outcome State Fault Refusal :=
  s.insn ln 2 false (branchBody d a imm (fun x y => x.ult y))

def execBgeu (ln : Fin 4) (d a : Fin 32) (imm : BitVec 16) (s : State) : Host.Outcome State Fault Refusal :=
  s.insn ln 2 false (branchBody d a imm (fun x y => y.ule x))

/-- BF: the condition stands in d[3:0]; d[4] and a must be 0, code 15 is reserved (R145). -/
def bfBody (d a : Nat) (imm : BitVec 16) : Body := fun s c =>
  if 16 ≤ d ∨ a ≠ 0 then .trap 1 3
  else if d = 15 then .trap 1 4
  else if condTrue d c.flg then .jump s c (c.rel4 imm.toInt)
  else .next s c 0

def execBf (ln : Fin 4) (d a : Fin 32) (imm : BitVec 16) (s : State) : Host.Outcome State Fault Refusal :=
  s.insn ln 2 false (bfBody d a imm)

def jBody (off : BitVec 26) : Body := fun s c => .jump s c (c.rel4 off.toInt)

def execJ (ln : Fin 4) (off : BitVec 26) (s : State) : Host.Outcome State Fault Refusal := s.insn ln 2 false (jBody off)

/-- The address of the next instruction, as a link. -/
def Cycle.link (c : Cycle) : Word := BitVec.ofNat 32 (c.pc + 4)

def jlBody (off : BitVec 26) : Body := fun s c => .jump s (c.setReg 31 c.link) (c.rel4 off.toInt)

def execJl (ln : Fin 4) (off : BitVec 26) (s : State) : Host.Outcome State Fault Refusal := s.insn ln 2 false (jlBody off)

/-- JR: fn[0] writes the link to g[d]; b and fn[10:1] must be 0. -/
def jrBody (d a b fn : Nat) : Body := fun s c =>
  if b ≠ 0 ∨ 2 ≤ fn then .trap 1 3
  else .jump s (if fn = 1 then c.setReg d c.link else c) (c.reg a).toNat

def execJr (ln : Fin 4) (d a b : Fin 32) (fn : BitVec 11) (s : State) : Host.Outcome State Fault Refusal :=
  s.insn ln 2 false (jrBody d a b fn.toNat)

/-- SEL: the condition stands in fn[3:0]; fn[10:4] must be 0, code 15 is reserved. -/
def selBody (d a b fn : Nat) : Body := fun s c =>
  if 16 ≤ fn then .trap 1 3
  else if fn = 15 then .trap 1 4
  else .next s (c.setReg d (if condTrue fn c.flg then c.reg a else c.reg b)) 0

def execSel (ln : Fin 4) (d a b : Fin 32) (fn : BitVec 11) (s : State) : Host.Outcome State Fault Refusal :=
  s.insn ln 1 false (selBody d a b fn.toNat)

/-! ## Loops (R163) -/

def limBody (d a : Nat) (imm : BitVec 16) : Body := fun s c =>
  if d ≠ 0 ∨ a ≠ 0 then .trap 1 3
  else if imm = 0 then .trap 1 5
  else .jump s { c with lim := some imm.toNat } (c.pc + 4)

/-- LIM: sets the bound; the LOOP must follow at once. -/
def execLim (ln : Fin 4) (d a : Fin 32) (imm : BitVec 16) (s : State) : Host.Outcome State Fault Refusal :=
  s.insn ln 1 false (limBody d a imm)

/-- Does a body whose last word stands at `last` extend past the end of the enclosing loop of the call? -/
def Cycle.pastEnd (c : Cycle) (last : Nat) : Bool :=
  match c.loops with
  | l :: _ => l.frame == c.depth && decide (l.last < last)
  | [] => false

/-- LOOP at p: opens the loop, or skips the body at count 0, which counts as falling through from the body's last word. -/
def loopBody (d a b fn : Nat) : Body := fun s c =>
  match c.lim with
  | none => .trap 1 5
  | some bound =>
    let n := (c.reg a).toNat
    let last := c.pc + 4 * fn
    if b ≠ 0 then .trap 1 3
    else if fn = 0 ∨ c.pastEnd last then .trap 1 5
    else if bound < n then .trap 5 0
    else if 8 ≤ c.loops.length then .trap 5 1
    else
      let c1 := { c.setReg d 0 with lim := none }
      if n = 0 then .back s c1 last
      else .jump s { c1 with loops := ⟨c.pc + 4, last, n, 0, d, c.depth⟩ :: c.loops } (c.pc + 4)

def execLoop (ln : Fin 4) (d a b : Fin 32) (fn : BitVec 11) (s : State) : Host.Outcome State Fault Refusal :=
  s.insn ln 2 true (loopBody d a b fn.toNat)

/-! ## Calls (R165, R166) -/

/-- Staging words of a lane. -/
def stagingWords : Nat := 512

/-- A call of verb `v` on noun `n`, checked before any state changes. -/
def callTo (v n : Nat) : Body := fun s c =>
  let x := s.lane c.lane
  match s.verb c.lane v, s.noun c.lane n with
  | none, _ => .trap 9 0
  | _, none => .trap 9 1
  | some vb, some nn =>
    if nn.task ≠ c.tid then .trap 9 1
    else if nn.verb ≠ v then .trap 9 2
    else if 8 ≤ c.depth then .trap 9 3
    else if stagingWords < x.resv + vb.maxstg then .trap 4 1
    else
      .jump (s.setLane c.lane { x with resv := x.resv + vb.maxstg })
        { c with
          frames := ⟨c.pc + 4, c.nb, v, n, []⟩ :: c.frames, nb := nn.base } vb.entry

def execCallv (ln : Fin 4) (verb : BitVec 10) (noun : BitVec 16) (s : State) : Host.Outcome State Fault Refusal :=
  s.insn ln 6 false (callTo verb.toNat noun.toNat)

/-- CALLVR: the verb in fn[9:0], the noun in g[a]; d, b and fn[10] must be 0. -/
def callvrBody (d a b fn : Nat) : Body := fun s c =>
  if d ≠ 0 ∨ b ≠ 0 ∨ 1024 ≤ fn then .trap 1 3
  else if 65536 ≤ (c.reg a).toNat then .trap 9 4
  else callTo fn (c.reg a).toNat s c

def execCallvr (ln : Fin 4) (d a b : Fin 32) (fn : BitVec 11) (s : State) : Host.Outcome State Fault Refusal :=
  s.insn ln 6 false (callvrBody d a b fn.toNat)

/-- Address in the mirror of a byte of partition `p`'s lane data memory (R209). -/
def mirrorAddr (p a : Nat) : Nat := 0x400000 + 0x200000 * p + a

/-- The staged words of a call, in offset order. -/
def CallFr.words (f : CallFr) : List (Nat × Word) := f.staged.filterMap (fun e => e.2.map (fun w => (e.1, w)))

/-- The commit of a call's staged words into its noun (R166, R178). -/
def State.commit (s : State) (c : Cycle) (ws : List (Nat × Word)) : State :=
  ws.foldl (fun t e => t.storeNat (spData c.lane) (c.nb + e.1) 4 e.2.toNat) s

/-- RETV: commits, releases the reservation, closes the call's loops and returns; the return of the entry call ends the cycle. -/
def retvBody (rest : Nat) : Body := fun s c =>
  if rest ≠ 0 then .trap 1 3
  else
    match c.frames with
    | [] => .stop s c
    | f :: fs =>
      let x := s.lane c.lane
      let ws := f.words
      let s1 := (s.commit c ws).setLane c.lane { x with resv := x.resv - s.maxStaged c.lane f.verb }
      let c1 := { c with
        frames := fs, loops := c.loops.filter (fun l => l.frame != c.depth), nb := f.nb,
        journal := c.journal ++ ws.map (fun e => (mirrorAddr c.part (c.nb + e.1), e.2)) }
      if fs = [] then .stop s1 { c1 with pc := c.pc } else .back s1 c1 (f.ret - 4)

/-- RETV takes 4 + W lane cycles (R166). -/
def State.retvCost (s : State) (ln : Nat) : Nat :=
  match s.running ln with
  | some c => 4 + s.maxStaged c.lane c.top.verb
  | none => 4

def execRetv (ln : Fin 4) (rest : BitVec 26) (s : State) : Host.Outcome State Fault Refusal :=
  s.insn ln (s.retvCost ln) false (retvBody rest.toNat)

end Sys2Proof.Machine
end

