-- ==== Sys2Proof/Machine/SogFix.lean ====
section
/-!
DEFINITION. Machine/SogFix.lean: the fixed-point group of the Sogen instruction set (R150).
-/
namespace Sys2Proof.Machine
open Sys2Proof

/-- QMUL31 (R150): d := sat_s32(floor(a × b / 2^31)). -/
def opQmul31 : Word → Word → Alu 32 := fun a b => satS 32 (a.toInt * b.toInt / 2 ^ 31)

def execQmul31 (ln : Fin 4) (d a b : Fin 32) (sb : Bool) (s : State) : Host.Outcome State Fault Refusal :=
  s.insn ln 2 false (aluBody d a b sb false opQmul31)

/-- QMULR31 (R150): d := sat_s32(rnd(a × b, 2^31)). -/
def opQmulr31 : Word → Word → Alu 32 := fun a b => satS 32 (rnd (a.toInt * b.toInt) (2 ^ 31))

def execQmulr31 (ln : Fin 4) (d a b : Fin 32) (sb : Bool) (s : State) : Host.Outcome State Fault Refusal :=
  s.insn ln 2 false (aluBody d a b sb false opQmulr31)

/-- QADD15 (R150): each half: sat_s16(x + y). -/
def opQadd15 : Word → Word → Alu 32 := fun a b => packAlu (q15hi a + q15hi b) (q15lo a + q15lo b)

def execQadd15 (ln : Fin 4) (d a b : Fin 32) (sb : Bool) (s : State) : Host.Outcome State Fault Refusal :=
  s.insn ln 1 false (aluBody d a b sb false opQadd15)

/-- QSUB15 (R150): each half: sat_s16(x - y). -/
def opQsub15 : Word → Word → Alu 32 := fun a b => packAlu (q15hi a - q15hi b) (q15lo a - q15lo b)

def execQsub15 (ln : Fin 4) (d a b : Fin 32) (sb : Bool) (s : State) : Host.Outcome State Fault Refusal :=
  s.insn ln 1 false (aluBody d a b sb false opQsub15)

/-- QMUL15 (R150): each half: sat_s16(rnd(x × y, 2^15)). -/
def opQmul15 : Word → Word → Alu 32 := fun a b => packAlu (rnd (q15hi a * q15hi b) (2 ^ 15)) (rnd (q15lo a * q15lo b) (2 ^ 15))

def execQmul15 (ln : Fin 4) (d a b : Fin 32) (sb : Bool) (s : State) : Host.Outcome State Fault Refusal :=
  s.insn ln 2 false (aluBody d a b sb false opQmul15)

/-- QSHL31 (R150): d := sat_s32(a × 2^b[4:0]). -/
def opQshl31 : Word → Word → Alu 32 := fun a b => satS 32 (a.toInt * 2 ^ sh5 b)

def execQshl31 (ln : Fin 4) (d a b : Fin 32) (sb : Bool) (s : State) : Host.Outcome State Fault Refusal :=
  s.insn ln 1 false (aluBody d a b sb false opQshl31)

/-- QRSH31 (R150): d := rnd(a, 2^b[4:0]). -/
def opQrsh31 : Word → Word → Alu 32 := fun a b => qrsh a b

def execQrsh31 (ln : Fin 4) (d a b : Fin 32) (sb : Bool) (s : State) : Host.Outcome State Fault Refusal :=
  s.insn ln 1 false (aluBody d a b sb false opQrsh31)

/-- QNEG31 (R150): d := sat_s32(-a). -/
def opQneg31 : Word → Word → Alu 32 := fun a _ => satS 32 (-a.toInt)

def execQneg31 (ln : Fin 4) (d a b : Fin 32) (sb : Bool) (s : State) : Host.Outcome State Fault Refusal :=
  s.insn ln 1 false (aluBody d a b sb true opQneg31)

/-- QPACK15 (R150): packs the rounded high halves of a and b. -/
def opQpack15 : Word → Word → Alu 32 := fun a b => packAlu (rnd a.toInt (2 ^ 16)) (rnd b.toInt (2 ^ 16))

def execQpack15 (ln : Fin 4) (d a b : Fin 32) (sb : Bool) (s : State) : Host.Outcome State Fault Refusal :=
  s.insn ln 2 false (aluBody d a b sb false opQpack15)

end Sys2Proof.Machine
end

