-- ==== Sys2Proof/Machine/SogFlt.lean ====
section
/-!
DEFINITION. Machine/SogFlt.lean: the float group of the Sogen instruction set (R151 to R153).
-/
namespace Sys2Proof.Machine
open Sys2Proof

/-- FADD (R152): d := a + b. -/
def opFadd : Word → Word → Alu 32 := fun a b => fAlu (fpAdd (fpOf a) (fpOf b))

def execFadd (ln : Fin 4) (d a b : Fin 32) (sb : Bool) (s : State) : Host.Outcome State Fault Refusal :=
  s.insn ln 3 false (aluBody d a b sb false opFadd)

/-- FSUB (R152): d := a - b. -/
def opFsub : Word → Word → Alu 32 := fun a b => fAlu (fpAdd (fpOf a) (fpOf b).neg)

def execFsub (ln : Fin 4) (d a b : Fin 32) (sb : Bool) (s : State) : Host.Outcome State Fault Refusal :=
  s.insn ln 3 false (aluBody d a b sb false opFsub)

/-- FMUL (R152): d := a × b. -/
def opFmul : Word → Word → Alu 32 := fun a b => fAlu (fpMul (fpOf a) (fpOf b))

def execFmul (ln : Fin 4) (d a b : Fin 32) (sb : Bool) (s : State) : Host.Outcome State Fault Refusal :=
  s.insn ln 3 false (aluBody d a b sb false opFmul)

/-- FDIV (R152): d := a / b. -/
def opFdiv : Word → Word → Alu 32 := fun a b => fAlu (fpDiv (fpOf a) (fpOf b))

def execFdiv (ln : Fin 4) (d a b : Fin 32) (sb : Bool) (s : State) : Host.Outcome State Fault Refusal :=
  s.insn ln 14 false (aluBody d a b sb false opFdiv)

/-- FSQRT (R152): d := square root of a. -/
def opFsqrt : Word → Word → Alu 32 := fun a _ => fAlu (fpSqrt (fpOf a))

def execFsqrt (ln : Fin 4) (d a b : Fin 32) (sb : Bool) (s : State) : Host.Outcome State Fault Refusal :=
  s.insn ln 16 false (aluBody d a b sb true opFsqrt)

/-- FMIN (R152): the smaller. -/
def opFmin : Word → Word → Alu 32 := fun a b => fAlu (fPick true a b, 0)

def execFmin (ln : Fin 4) (d a b : Fin 32) (sb : Bool) (s : State) : Host.Outcome State Fault Refusal :=
  s.insn ln 1 false (aluBody d a b sb false opFmin)

/-- FMAX (R152): the larger. -/
def opFmax : Word → Word → Alu 32 := fun a b => fAlu (fPick false a b, 0)

def execFmax (ln : Fin 4) (d a b : Fin 32) (sb : Bool) (s : State) : Host.Outcome State Fault Refusal :=
  s.insn ln 1 false (aluBody d a b sb false opFmax)

/-- FABS (R152): clears the sign bit. -/
def opFabs : Word → Word → Alu 32 := fun a _ => fAlu (fTake a &&& 0x7FFFFFFF, 0)

def execFabs (ln : Fin 4) (d a b : Fin 32) (sb : Bool) (s : State) : Host.Outcome State Fault Refusal :=
  s.insn ln 1 false (aluBody d a b sb true opFabs)

/-- FNEG (R152): inverts the sign bit. -/
def opFneg : Word → Word → Alu 32 := fun a _ => fAlu (fpWord (fpOf a).neg, 0)

def execFneg (ln : Fin 4) (d a b : Fin 32) (sb : Bool) (s : State) : Host.Outcome State Fault Refusal :=
  s.insn ln 1 false (aluBody d a b sb true opFneg)

/-- FCVTSW (R152): d := float(s(a)), rounded. -/
def opFcvtsw : Word → Word → Alu 32 := fun a _ => fAlu (fOfInt a)

def execFcvtsw (ln : Fin 4) (d a b : Fin 32) (sb : Bool) (s : State) : Host.Outcome State Fault Refusal :=
  s.insn ln 2 false (aluBody d a b sb true opFcvtsw)

/-- FCVTWS (R152): d := s32 nearest to a, ties to even. -/
def opFcvtws : Word → Word → Alu 32 := fun a _ => fToInt rnd a

def execFcvtws (ln : Fin 4) (d a b : Fin 32) (sb : Bool) (s : State) : Host.Outcome State Fault Refusal :=
  s.insn ln 2 false (aluBody d a b sb true opFcvtws)

/-- FCVTWSZ (R152): d := s32 of a, truncated. -/
def opFcvtwsz : Word → Word → Alu 32 := fun a _ => fToInt (fun x n => Int.tdiv x n) a

def execFcvtwsz (ln : Fin 4) (d a b : Fin 32) (sb : Bool) (s : State) : Host.Outcome State Fault Refusal :=
  s.insn ln 2 false (aluBody d a b sb true opFcvtwsz)

/-- FSCALB (R152): d := a × 2^s(b). -/
def opFscalb : Word → Word → Alu 32 := fun a b => fAlu (fpScale (fpOf a) b.toInt)

def execFscalb (ln : Fin 4) (d a b : Fin 32) (sb : Bool) (s : State) : Host.Outcome State Fault Refusal :=
  s.insn ln 2 false (aluBody d a b sb false opFscalb)

/-- FCMP (R153): writes Z, N, C and V whatever its S bit; d must be 0. -/
def fcmpBody (d a b : Nat) : Body := fun s c =>
  if d ≠ 0 then .trap 1 3 else .next s { c with flg := withZncv c.flg (fCmp (c.reg a) (c.reg b)) } 0

def execFcmp (ln : Fin 4) (d a b : Fin 32) (_sb : Bool) (s : State) : Host.Outcome State Fault Refusal :=
  s.insn ln 1 false (fcmpBody d a b)

end Sys2Proof.Machine
end

