-- ==== Sys2Proof/Machine/SogInt.lean ====
section
/-!
DEFINITION. Machine/SogInt.lean: the integer group and the immediate arithmetic of the Sogen instruction set (R146 to R148).
-/
namespace Sys2Proof.Machine
open Sys2Proof

/-- ADD (R146): d := a + b, wrapping. -/
def opAdd : Word → Word → Alu 32 := fun a b => addAlu a b

def execAdd (ln : Fin 4) (d a b : Fin 32) (sb : Bool) (s : State) : Host.Outcome State Fault Refusal :=
  s.insn ln 1 false (aluBody d a b sb false opAdd)

/-- SUB (R146): d := a - b, wrapping. -/
def opSub : Word → Word → Alu 32 := fun a b => subAlu a b

def execSub (ln : Fin 4) (d a b : Fin 32) (sb : Bool) (s : State) : Host.Outcome State Fault Refusal :=
  s.insn ln 1 false (aluBody d a b sb false opSub)

/-- ADDS (R146): d := sat_s32(a + b). -/
def opAdds : Word → Word → Alu 32 := fun a b => satS 32 (a.toInt + b.toInt)

def execAdds (ln : Fin 4) (d a b : Fin 32) (sb : Bool) (s : State) : Host.Outcome State Fault Refusal :=
  s.insn ln 1 false (aluBody d a b sb false opAdds)

/-- SUBS (R146): d := sat_s32(a - b). -/
def opSubs : Word → Word → Alu 32 := fun a b => satS 32 (a.toInt - b.toInt)

def execSubs (ln : Fin 4) (d a b : Fin 32) (sb : Bool) (s : State) : Host.Outcome State Fault Refusal :=
  s.insn ln 1 false (aluBody d a b sb false opSubs)

/-- ADDUS (R146): d := sat_u32(u(a) + u(b)). -/
def opAddus : Word → Word → Alu 32 := fun a b => satU ((a.toNat : Int) + b.toNat)

def execAddus (ln : Fin 4) (d a b : Fin 32) (sb : Bool) (s : State) : Host.Outcome State Fault Refusal :=
  s.insn ln 1 false (aluBody d a b sb false opAddus)

/-- SUBUS (R146): d := sat_u32(u(a) - u(b)). -/
def opSubus : Word → Word → Alu 32 := fun a b => satU ((a.toNat : Int) - b.toNat)

def execSubus (ln : Fin 4) (d a b : Fin 32) (sb : Bool) (s : State) : Host.Outcome State Fault Refusal :=
  s.insn ln 1 false (aluBody d a b sb false opSubus)

/-- MUL (R146): d := low word of a × b. -/
def opMul : Word → Word → Alu 32 := fun a b => plainAlu (a * b)

def execMul (ln : Fin 4) (d a b : Fin 32) (sb : Bool) (s : State) : Host.Outcome State Fault Refusal :=
  s.insn ln 2 false (aluBody d a b sb false opMul)

/-- MULH (R146): d := high word of the signed product. -/
def opMulh : Word → Word → Alu 32 := fun a b => plainAlu (BitVec.ofInt 32 (a.toInt * b.toInt / 2 ^ 32))

def execMulh (ln : Fin 4) (d a b : Fin 32) (sb : Bool) (s : State) : Host.Outcome State Fault Refusal :=
  s.insn ln 2 false (aluBody d a b sb false opMulh)

/-- MULHU (R146): d := high word of the unsigned product. -/
def opMulhu : Word → Word → Alu 32 := fun a b => plainAlu (BitVec.ofNat 32 (a.toNat * b.toNat / 2 ^ 32))

def execMulhu (ln : Fin 4) (d a b : Fin 32) (sb : Bool) (s : State) : Host.Outcome State Fault Refusal :=
  s.insn ln 2 false (aluBody d a b sb false opMulhu)

/-- MULS (R146): d := sat_s32(a × b). -/
def opMuls : Word → Word → Alu 32 := fun a b => satS 32 (a.toInt * b.toInt)

def execMuls (ln : Fin 4) (d a b : Fin 32) (sb : Bool) (s : State) : Host.Outcome State Fault Refusal :=
  s.insn ln 2 false (aluBody d a b sb false opMuls)

/-- DIV (R146): signed quotient (R147). -/
def opDiv : Word → Word → Alu 32 := fun a b => divAlu a b

def execDiv (ln : Fin 4) (d a b : Fin 32) (sb : Bool) (s : State) : Host.Outcome State Fault Refusal :=
  s.insn ln 18 false (aluBody d a b sb false opDiv)

/-- DIVU (R146): unsigned quotient (R147). -/
def opDivu : Word → Word → Alu 32 := fun a b => divuAlu a b

def execDivu (ln : Fin 4) (d a b : Fin 32) (sb : Bool) (s : State) : Host.Outcome State Fault Refusal :=
  s.insn ln 18 false (aluBody d a b sb false opDivu)

/-- REM (R146): signed remainder (R147). -/
def opRem : Word → Word → Alu 32 := fun a b => remAlu a b

def execRem (ln : Fin 4) (d a b : Fin 32) (sb : Bool) (s : State) : Host.Outcome State Fault Refusal :=
  s.insn ln 18 false (aluBody d a b sb false opRem)

/-- REMU (R146): unsigned remainder (R147). -/
def opRemu : Word → Word → Alu 32 := fun a b => remuAlu a b

def execRemu (ln : Fin 4) (d a b : Fin 32) (sb : Bool) (s : State) : Host.Outcome State Fault Refusal :=
  s.insn ln 18 false (aluBody d a b sb false opRemu)

/-- AND (R146): d := a and b. -/
def opAndReg : Word → Word → Alu 32 := fun a b => plainAlu (a &&& b)

def execAndReg (ln : Fin 4) (d a b : Fin 32) (sb : Bool) (s : State) : Host.Outcome State Fault Refusal :=
  s.insn ln 1 false (aluBody d a b sb false opAndReg)

/-- OR (R146): d := a or b. -/
def opOrReg : Word → Word → Alu 32 := fun a b => plainAlu (a ||| b)

def execOrReg (ln : Fin 4) (d a b : Fin 32) (sb : Bool) (s : State) : Host.Outcome State Fault Refusal :=
  s.insn ln 1 false (aluBody d a b sb false opOrReg)

/-- XOR (R146): d := a xor b. -/
def opXorReg : Word → Word → Alu 32 := fun a b => plainAlu (a ^^^ b)

def execXorReg (ln : Fin 4) (d a b : Fin 32) (sb : Bool) (s : State) : Host.Outcome State Fault Refusal :=
  s.insn ln 1 false (aluBody d a b sb false opXorReg)

/-- ANDN (R146): d := a and not b. -/
def opAndnReg : Word → Word → Alu 32 := fun a b => plainAlu (a &&& ~~~b)

def execAndnReg (ln : Fin 4) (d a b : Fin 32) (sb : Bool) (s : State) : Host.Outcome State Fault Refusal :=
  s.insn ln 1 false (aluBody d a b sb false opAndnReg)

/-- SLL (R146): d := a << b[4:0]. -/
def opSll : Word → Word → Alu 32 := fun a b => plainAlu (a <<< sh5 b)

def execSll (ln : Fin 4) (d a b : Fin 32) (sb : Bool) (s : State) : Host.Outcome State Fault Refusal :=
  s.insn ln 1 false (aluBody d a b sb false opSll)

/-- SRL (R146): d := u(a) >> b[4:0]. -/
def opSrl : Word → Word → Alu 32 := fun a b => plainAlu (a >>> sh5 b)

def execSrl (ln : Fin 4) (d a b : Fin 32) (sb : Bool) (s : State) : Host.Outcome State Fault Refusal :=
  s.insn ln 1 false (aluBody d a b sb false opSrl)

/-- SRA (R146): d := s(a) >> b[4:0]. -/
def opSra : Word → Word → Alu 32 := fun a b => plainAlu (a.sshiftRight (sh5 b))

def execSra (ln : Fin 4) (d a b : Fin 32) (sb : Bool) (s : State) : Host.Outcome State Fault Refusal :=
  s.insn ln 1 false (aluBody d a b sb false opSra)

/-- ROR (R146): d := a rotated right by b[4:0]. -/
def opRor : Word → Word → Alu 32 := fun a b => plainAlu (a.rotateRight (sh5 b))

def execRor (ln : Fin 4) (d a b : Fin 32) (sb : Bool) (s : State) : Host.Outcome State Fault Refusal :=
  s.insn ln 1 false (aluBody d a b sb false opRor)

/-- SLT (R146): d := 1 if s(a) < s(b), else 0. -/
def opSlt : Word → Word → Alu 32 := fun a b => boolAlu (decide (a.toInt < b.toInt))

def execSlt (ln : Fin 4) (d a b : Fin 32) (sb : Bool) (s : State) : Host.Outcome State Fault Refusal :=
  s.insn ln 1 false (aluBody d a b sb false opSlt)

/-- SLTU (R146): d := 1 if u(a) < u(b), else 0. -/
def opSltu : Word → Word → Alu 32 := fun a b => boolAlu (decide (a.toNat < b.toNat))

def execSltu (ln : Fin 4) (d a b : Fin 32) (sb : Bool) (s : State) : Host.Outcome State Fault Refusal :=
  s.insn ln 1 false (aluBody d a b sb false opSltu)

/-- MIN (R146): d := smaller of s(a), s(b). -/
def opMinS : Word → Word → Alu 32 := fun a b => plainAlu (if a.toInt < b.toInt then a else b)

def execMinS (ln : Fin 4) (d a b : Fin 32) (sb : Bool) (s : State) : Host.Outcome State Fault Refusal :=
  s.insn ln 1 false (aluBody d a b sb false opMinS)

/-- MAX (R146): d := larger of s(a), s(b). -/
def opMaxS : Word → Word → Alu 32 := fun a b => plainAlu (if a.toInt < b.toInt then b else a)

def execMaxS (ln : Fin 4) (d a b : Fin 32) (sb : Bool) (s : State) : Host.Outcome State Fault Refusal :=
  s.insn ln 1 false (aluBody d a b sb false opMaxS)

/-- MINU (R146): d := smaller of u(a), u(b). -/
def opMinu : Word → Word → Alu 32 := fun a b => plainAlu (if a.toNat < b.toNat then a else b)

def execMinu (ln : Fin 4) (d a b : Fin 32) (sb : Bool) (s : State) : Host.Outcome State Fault Refusal :=
  s.insn ln 1 false (aluBody d a b sb false opMinu)

/-- MAXU (R146): d := larger of u(a), u(b). -/
def opMaxu : Word → Word → Alu 32 := fun a b => plainAlu (if a.toNat < b.toNat then b else a)

def execMaxu (ln : Fin 4) (d a b : Fin 32) (sb : Bool) (s : State) : Host.Outcome State Fault Refusal :=
  s.insn ln 1 false (aluBody d a b sb false opMaxu)

/-- ABS (R146): d := sat_s32(abs(s(a))). -/
def opAbs : Word → Word → Alu 32 := fun a _ => satS 32 (a.toInt.natAbs : Int)

def execAbs (ln : Fin 4) (d a b : Fin 32) (sb : Bool) (s : State) : Host.Outcome State Fault Refusal :=
  s.insn ln 1 false (aluBody d a b sb true opAbs)

/-- CLZ (R146): d := leading zeros of a. -/
def opClz : Word → Word → Alu 32 := fun a _ => plainAlu (BitVec.ofNat 32 (clz a))

def execClz (ln : Fin 4) (d a b : Fin 32) (sb : Bool) (s : State) : Host.Outcome State Fault Refusal :=
  s.insn ln 1 false (aluBody d a b sb true opClz)

/-- ADDI (R148): d := a + sext(imm16), wrapping. -/
def opAddi : Word → BitVec 16 → Word × Nat := fun a imm => (a + immS imm, 0)

def execAddi (ln : Fin 4) (d a : Fin 32) (imm : BitVec 16) (s : State) : Host.Outcome State Fault Refusal :=
  s.insn ln 1 false (immBody d a imm false opAddi)

/-- ADDIS (R148): d := sat_s32(a + sext(imm16)). -/
def opAddis : Word → BitVec 16 → Word × Nat := fun a imm => let r := satS 32 (a.toInt + imm.toInt); (r.val, r.sticky)

def execAddis (ln : Fin 4) (d a : Fin 32) (imm : BitVec 16) (s : State) : Host.Outcome State Fault Refusal :=
  s.insn ln 1 false (immBody d a imm false opAddis)

/-- ANDI (R148): d := a and zext(imm16). -/
def opAndi : Word → BitVec 16 → Word × Nat := fun a imm => (a &&& immU imm, 0)

def execAndi (ln : Fin 4) (d a : Fin 32) (imm : BitVec 16) (s : State) : Host.Outcome State Fault Refusal :=
  s.insn ln 1 false (immBody d a imm false opAndi)

/-- ORI (R148): d := a or zext(imm16). -/
def opOri : Word → BitVec 16 → Word × Nat := fun a imm => (a ||| immU imm, 0)

def execOri (ln : Fin 4) (d a : Fin 32) (imm : BitVec 16) (s : State) : Host.Outcome State Fault Refusal :=
  s.insn ln 1 false (immBody d a imm false opOri)

/-- XORI (R148): d := a xor zext(imm16). -/
def opXori : Word → BitVec 16 → Word × Nat := fun a imm => (a ^^^ immU imm, 0)

def execXori (ln : Fin 4) (d a : Fin 32) (imm : BitVec 16) (s : State) : Host.Outcome State Fault Refusal :=
  s.insn ln 1 false (immBody d a imm false opXori)

/-- LUI (R148): d := imm16 << 16; a must be 0. -/
def opLui : Word → BitVec 16 → Word × Nat := fun _ imm => (immU imm <<< 16, 0)

def execLui (ln : Fin 4) (d a : Fin 32) (imm : BitVec 16) (s : State) : Host.Outcome State Fault Refusal :=
  s.insn ln 1 false (immBody d a imm true opLui)

/-- SLTI (R148): d := 1 if s(a) < sext(imm16), else 0. -/
def opSlti : Word → BitVec 16 → Word × Nat := fun a imm => (if a.toInt < imm.toInt then 1 else 0, 0)

def execSlti (ln : Fin 4) (d a : Fin 32) (imm : BitVec 16) (s : State) : Host.Outcome State Fault Refusal :=
  s.insn ln 1 false (immBody d a imm false opSlti)

/-- SLTIU (R148): d := 1 if u(a) < u(sext(imm16)), else 0. -/
def opSltiu : Word → BitVec 16 → Word × Nat := fun a imm => (if a.toNat < (immS imm).toNat then 1 else 0, 0)

def execSltiu (ln : Fin 4) (d a : Fin 32) (imm : BitVec 16) (s : State) : Host.Outcome State Fault Refusal :=
  s.insn ln 1 false (immBody d a imm false opSltiu)

end Sys2Proof.Machine
end

