-- ==== Sys2Proof/Machine/SogWide.lean ====
section
/-!
DEFINITION. Machine/SogWide.lean: the 64-bit group of the Sogen instruction set (R149).
-/
namespace Sys2Proof.Machine
open Sys2Proof

/-- ADD64 (R149): d := a + b, wrapping. -/
def opAdd64 : BitVec 64 → BitVec 64 → Alu 64 := fun x y => addAlu x y

def execAdd64 (ln : Fin 4) (d a b : Fin 32) (sb : Bool) (s : State) : Host.Outcome State Fault Refusal :=
  s.insn ln 2 false (wideBody d a b sb formPPP opAdd64)

/-- SUB64 (R149): d := a - b, wrapping. -/
def opSub64 : BitVec 64 → BitVec 64 → Alu 64 := fun x y => subAlu x y

def execSub64 (ln : Fin 4) (d a b : Fin 32) (sb : Bool) (s : State) : Host.Outcome State Fault Refusal :=
  s.insn ln 2 false (wideBody d a b sb formPPP opSub64)

/-- ADDS64 (R149): d := sat_s64(a + b). -/
def opAdds64 : BitVec 64 → BitVec 64 → Alu 64 := fun x y => satS 64 (x.toInt + y.toInt)

def execAdds64 (ln : Fin 4) (d a b : Fin 32) (sb : Bool) (s : State) : Host.Outcome State Fault Refusal :=
  s.insn ln 2 false (wideBody d a b sb formPPP opAdds64)

/-- SUBS64 (R149): d := sat_s64(a - b). -/
def opSubs64 : BitVec 64 → BitVec 64 → Alu 64 := fun x y => satS 64 (x.toInt - y.toInt)

def execSubs64 (ln : Fin 4) (d a b : Fin 32) (sb : Bool) (s : State) : Host.Outcome State Fault Refusal :=
  s.insn ln 2 false (wideBody d a b sb formPPP opSubs64)

/-- MULL (R149): d := s64(a) × s64(b). -/
def opMull : BitVec 64 → BitVec 64 → Alu 64 := fun x y => plainAlu (BitVec.ofInt 64 ((low32 x).toInt * (low32 y).toInt))

def execMull (ln : Fin 4) (d a b : Fin 32) (sb : Bool) (s : State) : Host.Outcome State Fault Refusal :=
  s.insn ln 3 false (wideBody d a b sb formPSS opMull)

/-- MULLU (R149): d := u64(a) × u64(b). -/
def opMullu : BitVec 64 → BitVec 64 → Alu 64 := fun x y => plainAlu (BitVec.ofNat 64 ((low32 x).toNat * (low32 y).toNat))

def execMullu (ln : Fin 4) (d a b : Fin 32) (sb : Bool) (s : State) : Host.Outcome State Fault Refusal :=
  s.insn ln 3 false (wideBody d a b sb formPSS opMullu)

/-- AND64 (R149): d := a and b. -/
def opAnd64 : BitVec 64 → BitVec 64 → Alu 64 := fun x y => plainAlu (x &&& y)

def execAnd64 (ln : Fin 4) (d a b : Fin 32) (sb : Bool) (s : State) : Host.Outcome State Fault Refusal :=
  s.insn ln 2 false (wideBody d a b sb formPPP opAnd64)

/-- OR64 (R149): d := a or b. -/
def opOr64 : BitVec 64 → BitVec 64 → Alu 64 := fun x y => plainAlu (x ||| y)

def execOr64 (ln : Fin 4) (d a b : Fin 32) (sb : Bool) (s : State) : Host.Outcome State Fault Refusal :=
  s.insn ln 2 false (wideBody d a b sb formPPP opOr64)

/-- XOR64 (R149): d := a xor b. -/
def opXor64 : BitVec 64 → BitVec 64 → Alu 64 := fun x y => plainAlu (x ^^^ y)

def execXor64 (ln : Fin 4) (d a b : Fin 32) (sb : Bool) (s : State) : Host.Outcome State Fault Refusal :=
  s.insn ln 2 false (wideBody d a b sb formPPP opXor64)

/-- SLL64 (R149): d := a << b[5:0]. -/
def opSll64 : BitVec 64 → BitVec 64 → Alu 64 := fun x y => plainAlu (x <<< sh6 y)

def execSll64 (ln : Fin 4) (d a b : Fin 32) (sb : Bool) (s : State) : Host.Outcome State Fault Refusal :=
  s.insn ln 2 false (wideBody d a b sb formPPS opSll64)

/-- SRL64 (R149): d := u(a) >> b[5:0]. -/
def opSrl64 : BitVec 64 → BitVec 64 → Alu 64 := fun x y => plainAlu (x >>> sh6 y)

def execSrl64 (ln : Fin 4) (d a b : Fin 32) (sb : Bool) (s : State) : Host.Outcome State Fault Refusal :=
  s.insn ln 2 false (wideBody d a b sb formPPS opSrl64)

/-- SRA64 (R149): d := s(a) >> b[5:0]. -/
def opSra64 : BitVec 64 → BitVec 64 → Alu 64 := fun x y => plainAlu (x.sshiftRight (sh6 y))

def execSra64 (ln : Fin 4) (d a b : Fin 32) (sb : Bool) (s : State) : Host.Outcome State Fault Refusal :=
  s.insn ln 2 false (wideBody d a b sb formPPS opSra64)

/-- SLT64 (R149): d := 1 if s(a) < s(b), else 0. -/
def opSlt64 : BitVec 64 → BitVec 64 → Alu 64 := fun x y => bool64 (decide (x.toInt < y.toInt))

def execSlt64 (ln : Fin 4) (d a b : Fin 32) (sb : Bool) (s : State) : Host.Outcome State Fault Refusal :=
  s.insn ln 2 false (wideBody d a b sb formSPP opSlt64)

/-- SLTU64 (R149): d := 1 if u(a) < u(b), else 0. -/
def opSltu64 : BitVec 64 → BitVec 64 → Alu 64 := fun x y => bool64 (decide (x.toNat < y.toNat))

def execSltu64 (ln : Fin 4) (d a b : Fin 32) (sb : Bool) (s : State) : Host.Outcome State Fault Refusal :=
  s.insn ln 2 false (wideBody d a b sb formSPP opSltu64)

/-- SEXT (R149): d := s64(a). -/
def opSext : BitVec 64 → BitVec 64 → Alu 64 := fun x _ => plainAlu ((low32 x).signExtend 64)

def execSext (ln : Fin 4) (d a b : Fin 32) (sb : Bool) (s : State) : Host.Outcome State Fault Refusal :=
  s.insn ln 1 false (wideBody d a b sb formPS0 opSext)

/-- ZEXT (R149): d := u64(a). -/
def opZext : BitVec 64 → BitVec 64 → Alu 64 := fun x _ => plainAlu ((low32 x).setWidth 64)

def execZext (ln : Fin 4) (d a b : Fin 32) (sb : Bool) (s : State) : Host.Outcome State Fault Refusal :=
  s.insn ln 1 false (wideBody d a b sb formPS0 opZext)

end Sys2Proof.Machine
end

