-- ==== Sys2Proof/Machine/SogDecode.lean ====
section
/-!
DEFINITION. Machine/SogDecode.lean: the formats and the opcode map of the Sogen set (R142, R143, R146 to R152): what a word of lane
code memory makes the lane do, and the run of a whole call from memory, as a replay (R249) and a migration (R241) need it.
-/
namespace Sys2Proof.Machine
open Sys2Proof

/-! ## Formats (R142) -/

/-- op of a word. -/
def wOp (w : Word) : Nat := fieldOf w 26 6
def wD (w : Word) : Nat := fieldOf w 21 5
def wA (w : Word) : Nat := fieldOf w 16 5
def wB (w : Word) : Nat := fieldOf w 11 5
def wFn (w : Word) : Nat := fieldOf w 0 11
def wImm (w : Word) : BitVec 16 := w.extractLsb' 0 16
def wOff (w : Word) : BitVec 26 := w.extractLsb' 0 26

/-! ## Groups -/

/-- The operations of the group by fn[9:0]: cost, whether b must be 0, and the operation. -/
def intOp : Nat → Option (Nat × Bool × (Word → Word → Alu 32))
  | 0x000 => some (1, false, opAdd)
  | 0x001 => some (1, false, opSub)
  | 0x002 => some (1, false, opAdds)
  | 0x003 => some (1, false, opSubs)
  | 0x004 => some (1, false, opAddus)
  | 0x005 => some (1, false, opSubus)
  | 0x006 => some (2, false, opMul)
  | 0x007 => some (2, false, opMulh)
  | 0x008 => some (2, false, opMulhu)
  | 0x009 => some (2, false, opMuls)
  | 0x00A => some (18, false, opDiv)
  | 0x00B => some (18, false, opDivu)
  | 0x00C => some (18, false, opRem)
  | 0x00D => some (18, false, opRemu)
  | 0x010 => some (1, false, opAndReg)
  | 0x011 => some (1, false, opOrReg)
  | 0x012 => some (1, false, opXorReg)
  | 0x013 => some (1, false, opAndnReg)
  | 0x014 => some (1, false, opSll)
  | 0x015 => some (1, false, opSrl)
  | 0x016 => some (1, false, opSra)
  | 0x017 => some (1, false, opRor)
  | 0x018 => some (1, false, opSlt)
  | 0x019 => some (1, false, opSltu)
  | 0x01A => some (1, false, opMinS)
  | 0x01B => some (1, false, opMaxS)
  | 0x01C => some (1, false, opMinu)
  | 0x01D => some (1, false, opMaxu)
  | 0x01E => some (1, true, opAbs)
  | 0x01F => some (1, true, opClz)
  | _ => none

/-- The operations of the group by fn[9:0]: cost, whether b must be 0, and the operation. -/
def fixOp : Nat → Option (Nat × Bool × (Word → Word → Alu 32))
  | 0x000 => some (2, false, opQmul31)
  | 0x001 => some (2, false, opQmulr31)
  | 0x002 => some (1, false, opQadd15)
  | 0x003 => some (1, false, opQsub15)
  | 0x004 => some (2, false, opQmul15)
  | 0x005 => some (1, false, opQshl31)
  | 0x006 => some (1, false, opQrsh31)
  | 0x007 => some (1, true, opQneg31)
  | 0x008 => some (2, false, opQpack15)
  | _ => none

/-- The operations of the group by fn[9:0]: cost, whether b must be 0, and the operation. -/
def fltOp : Nat → Option (Nat × Bool × (Word → Word → Alu 32))
  | 0x000 => some (3, false, opFadd)
  | 0x001 => some (3, false, opFsub)
  | 0x002 => some (3, false, opFmul)
  | 0x003 => some (14, false, opFdiv)
  | 0x004 => some (16, true, opFsqrt)
  | 0x005 => some (1, false, opFmin)
  | 0x006 => some (1, false, opFmax)
  | 0x007 => some (1, true, opFabs)
  | 0x008 => some (1, true, opFneg)
  | 0x00A => some (2, true, opFcvtsw)
  | 0x00B => some (2, true, opFcvtws)
  | 0x00C => some (2, true, opFcvtwsz)
  | 0x00D => some (2, false, opFscalb)
  | _ => none

/-- The operations of the 64-bit group by fn[9:0] (R149). -/
def wideOp : Nat → Option (Nat × WideForm × (BitVec 64 → BitVec 64 → Alu 64))
  | 0x000 => some (2, formPPP, opAdd64)
  | 0x001 => some (2, formPPP, opSub64)
  | 0x002 => some (2, formPPP, opAdds64)
  | 0x003 => some (2, formPPP, opSubs64)
  | 0x006 => some (3, formPSS, opMull)
  | 0x007 => some (3, formPSS, opMullu)
  | 0x010 => some (2, formPPP, opAnd64)
  | 0x011 => some (2, formPPP, opOr64)
  | 0x012 => some (2, formPPP, opXor64)
  | 0x014 => some (2, formPPS, opSll64)
  | 0x015 => some (2, formPPS, opSrl64)
  | 0x016 => some (2, formPPS, opSra64)
  | 0x018 => some (2, formSPP, opSlt64)
  | 0x019 => some (2, formSPP, opSltu64)
  | 0x01A => some (1, formPS0, opSext)
  | 0x01B => some (1, formPS0, opZext)
  | _ => none

/-- The immediate arithmetic by op (R148). -/
def immOp : Nat → Option (Word → BitVec 16 → Word × Nat)
  | 0x08 => some opAddi
  | 0x09 => some opAddis
  | 0x0A => some opAndi
  | 0x0B => some opOri
  | 0x0C => some opXori
  | 0x0D => some opLui
  | 0x0E => some opSlti
  | 0x0F => some opSltiu
  | _ => none

/-- Is the word one whose op is reserved (detail 0), or whose fn is reserved in its group (detail 1) (R140, R143)? -/
def illegalDetail (w : Word) : Option Nat :=
  let op := wOp w
  let f := wFn w % 1024
  if op = 0 then (if (intOp f).isNone then some 1 else none)
  else if op = 1 then (if (wideOp f).isNone then some 1 else none)
  else if op = 2 then (if (fixOp f).isNone then some 1 else none)
  else if op = 3 then (if (fltOp f).isNone ∧ f ≠ 0x009 then some 1 else none)
  else if op = 4 then (if 2 ≤ f then some 1 else none)
  else if 0x36 ≤ op then some 0
  else none

/-- ILLEGAL_OPCODE (R143): the lane meets a word with a reserved op or fn. -/
def execIllegalOpcode (ln : Fin 4) (w : Word) (s : State) : Host.Outcome State Fault Refusal :=
  match illegalDetail w with
  | some d => s.insn ln 1 false (fun _ _ => .trap 1 d)
  | none => .next s

/-- A group instruction on words, or ILLEGAL for a reserved fn. -/
def groupBody (t : Nat → Option (Nat × Bool × (Word → Word → Alu 32))) (w : Word) : Nat × Body :=
  match t (wFn w % 1024) with
  | some (cost, bz, f) => (cost, aluBody (wD w) (wA w) (wB w) (bit (wFn w) 10) bz f)
  | none => (1, fun _ _ => .trap 1 1)

/-- Cost and body of the immediate-format memory and control instructions by op. -/
def opBody (w : Word) : Nat → Nat × Body
  | 0x05 => (1, selBody (wD w) (wA w) (wB w) (wFn w))
  | 0x06 => (2, jrBody (wD w) (wA w) (wB w) (wFn w))
  | 0x07 => (6, callvrBody (wD w) (wA w) (wB w) (wFn w))
  | 0x10 => (2, loadBody 1 4 (wD w) (wA w) (wImm w) zextTo)
  | 0x11 => (2, loadBody 1 2 (wD w) (wA w) (wImm w) (sextFrom 16))
  | 0x12 => (2, loadBody 1 2 (wD w) (wA w) (wImm w) zextTo)
  | 0x13 => (2, loadBody 1 1 (wD w) (wA w) (wImm w) (sextFrom 8))
  | 0x14 => (2, loadBody 1 1 (wD w) (wA w) (wImm w) zextTo)
  | 0x15 => (3, loadPairBody 1 (wD w) (wA w) (wImm w))
  | 0x16 => (1, storeBody 1 4 (wD w) (wA w) (wImm w))
  | 0x17 => (1, storeBody 1 2 (wD w) (wA w) (wImm w))
  | 0x18 => (1, storeBody 1 1 (wD w) (wA w) (wImm w))
  | 0x19 => (2, storePairBody 1 (wD w) (wA w) (wImm w))
  | 0x1A => (12, loadBody 2 4 (wD w) (wA w) (wImm w) zextTo)
  | 0x1B => (12, loadPairBody 2 (wD w) (wA w) (wImm w))
  | 0x1C => (12, storeBody 2 4 (wD w) (wA w) (wImm w))
  | 0x1D => (12, storePairBody 2 (wD w) (wA w) (wImm w))
  | 0x1E => (2, nldBody (wD w) (wA w) (wImm w))
  | 0x1F => (2, nstBody (wD w) (wA w) (wImm w))
  | 0x20 => (12, ildBody (wD w) (wA w) (wImm w))
  | 0x21 => (12, ostBody (wD w) (wA w) (wImm w))
  | 0x22 => (12, shldBody (wD w) (wA w) (wB w) (wFn w))
  | 0x23 => (12, shstBody (wD w) (wA w) (wB w) (wFn w))
  | 0x24 => (2, gsetBody (wD w) (wA w) (wImm w))
  | 0x25 => (2, evrBody (wD w) (wA w) (wImm w))
  | 0x26 => (20, cnoteBody (wD w) (wA w) (wB w) (wFn w))
  | 0x27 => (2, loopBody (wD w) (wA w) (wB w) (wFn w))
  | 0x28 => (1, limBody (wD w) (wA w) (wImm w))
  | 0x29 => (2, branchBody (wD w) (wA w) (wImm w) (fun x y => x == y))
  | 0x2A => (2, branchBody (wD w) (wA w) (wImm w) (fun x y => x != y))
  | 0x2B => (2, branchBody (wD w) (wA w) (wImm w) (fun x y => x.slt y))
  | 0x2C => (2, branchBody (wD w) (wA w) (wImm w) (fun x y => y.sle x))
  | 0x2D => (2, branchBody (wD w) (wA w) (wImm w) (fun x y => x.ult y))
  | 0x2E => (2, branchBody (wD w) (wA w) (wImm w) (fun x y => y.ule x))
  | 0x2F => (2, bfBody (wD w) (wA w) (wImm w))
  | 0x30 => (2, jBody (wOff w))
  | 0x31 => (2, jlBody (wOff w))
  | 0x32 => (6, callTo (fieldOf w 16 10) (fieldOf w 0 16))
  | 0x33 => (4, retvBody (wOff w).toNat)
  | 0x34 => (12, sldBody (wD w) (fieldOf w 13 8) (fieldOf w 8 5) (fieldOf w 0 8))
  | 0x35 => (13, sldpBody (wD w) (fieldOf w 13 8) (fieldOf w 8 5) (fieldOf w 0 8))
  | _ => (1, fun _ _ => .trap 1 0)

/-- Cost and body of the instruction that a word spells (R143). -/
def wordBody (w : Word) : Nat × Body :=
  match wOp w with
  | 0x00 => groupBody intOp w
  | 0x01 =>
    match wideOp (wFn w % 1024) with
    | some (cost, fm, f) => (cost, wideBody (wD w) (wA w) (wB w) (bit (wFn w) 10) fm f)
    | none => (1, fun _ _ => .trap 1 1)
  | 0x02 => groupBody fixOp w
  | 0x03 => if wFn w % 1024 = 0x009 then (1, fcmpBody (wD w) (wA w) (wB w)) else groupBody fltOp w
  | 0x04 =>
    if wFn w % 1024 = 0 then (mfsCost (wA w), mfsBody (wD w) (wA w) (wB w) (bit (wFn w) 10))
    else if wFn w % 1024 = 1 then (1, mtfBody (wD w) (wA w) (wB w) (bit (wFn w) 10))
    else (1, fun _ _ => .trap 1 1)
  | op =>
    match immOp op with
    | some f => (1, immBody (wD w) (wA w) (wImm w) (op == 0x0D) f)
    | none => opBody w op

/-! ## Running a call from memory -/

/-- The lane executes the instruction at the pc of its running cycle. -/
def State.runOne (s : State) (c : Cycle) : State :=
  let w := s.loadWord (spCode c.lane) c.pc
  let cb := wordBody w
  let cost := if wOp w = 0x33 then 4 + s.maxStaged c.lane c.top.verb else cb.1
  s.insnGo c cost (wOp w == 0x27) cb.2

/-- At most `fuel` instructions of the cycle `key` on lane `ln`, until it no longer runs or has executed more than `limit` lane
cycles (then it is aborted as DEADLINE). -/
def State.runCycle : Nat → Nat → Nat → Nat → State → State
  | 0, _, _, _, s => s
  | f + 1, ln, key, limit, s =>
    match s.running ln with
    | none => s
    | some c =>
      if c.key ≠ key then s
      else if limit < c.exec then ((s.recordExc c 6 0 c.at_).endCycle { c with overrun := true } 4)
      else State.runCycle f ln key limit (s.runOne c)

end Sys2Proof.Machine
end

