-- ==== Sys2Proof/Machine/Uch.lean ====
section
/-!
DEFINITION. Machine/Uch.lean: universal channels (R351 to R371): conversions, accumulators, outputs, readback, compliance, group faults
and HART.
-/
namespace Sys2Proof.Machine
open Sys2Proof

def State.uchAt (s : State) (n : Nat) : UchSt := kvGet (fun _ => UchSt.reset) s.uch n

def State.setUch (s : State) (n : Nat) (x : UchSt) : State := { s with uch := kvPut (fun _ => UchSt.reset) s.uch n x }

def State.uchGroup (s : State) (g : Nat) : UchGrp := kvGet (fun _ => UchGrp.reset) s.uchGrp g

def State.setUchGroup (s : State) (g : Nat) (x : UchGrp) : State := { s with uchGrp := kvPut (fun _ => UchGrp.reset) s.uchGrp g x }

def State.uchMode (s : State) (n : Nat) : Nat := s.get (F.UCH_C_CFG.MODE n)

/-- Is the channel an output (modes 6 and 7)? -/
def State.uchOutput (s : State) (n : Nat) : Bool := s.uchMode n == 6 || s.uchMode n == 7

/-- Does P11 run (R368)? -/
def State.uchOn (s : State) : Bool := s.flag F.UCH_STATUS.POWERED

/-! ## Flags and accumulators (R353, R357, R360) -/

/-- The flags of content word 2 (R360), in their places. -/
def State.uchFlags (s : State) (n : Nat) : Nat :=
  let st := (s.rd (A.UCH_C_STAT n)).toNat
  65536 * (b2n (bit st 2) + 2 * b2n (bit st 3) + 4 * b2n (bit st 4) + 8 * b2n (bit st 0) + 16 * b2n (bit st 5) +
    32 * b2n (bit st 6) + 64 * b2n (bit st 7) + 128 * b2n (bit st 8) + 256 * b2n (s.uchGroup (n / 4)).fault)

/-- The flags of the channel as at SIX `k`. -/
def UchSt.flagsAt (x : UchSt) (k : Nat) : Nat := ((x.flagHist.find? (fun h => h.1 ≤ k)).map Prod.snd).getD 0

/-- The history of the channel's flags follows them. -/
def State.uchNote (s : State) (n : Nat) : State :=
  let x := s.uchAt n
  let recent := x.flagHist.takeWhile (fun h => s.six < h.1 + 200)
  let older := (x.flagHist.dropWhile (fun h => s.six < h.1 + 200)).take 1
  s.setUch n { x with flagHist := (s.six, s.uchFlags n) :: (recent.filter (fun h => h.1 != s.six) ++ older) }

/-- The accumulators as the registers show them. -/
def State.uchAcc (s : State) (n : Nat) : UchAcc :=
  ⟨signed 64 (s.get64 (A.UCH_C_SUM n)), s.get (F.UCH_C_COUNT.COUNT n), signed 32 (s.get (F.UCH_C_MIN.VALUE n)),
    signed 32 (s.get (F.UCH_C_MAX.VALUE n)), s.get64 (A.UCH_C_TAG n)⟩

/-- The registers show the accumulators. -/
def State.putAcc (s : State) (n : Nat) (a : UchAcc) : State :=
  let s := (s.set64 (A.UCH_C_SUM n) (unsigned 64 a.sum)).set (F.UCH_C_COUNT.COUNT n) a.count
  let s := (s.set (F.UCH_C_MIN.VALUE n) (unsigned 32 a.mn)).set (F.UCH_C_MAX.VALUE n) (unsigned 32 a.mx)
  s.set64 (A.UCH_C_TAG n) a.tag

/-- A clear at SIX `c` (R357). -/
def State.uchClear (s : State) (n c : Nat) : State :=
  let x := s.uchAt n
  let z : UchAcc := ⟨0, 0, 0, 0, s.get64 (A.UCH_C_TAG n)⟩
  let s := (s.putAcc n z).set64 (A.UCH_C_CLR n) c
  let s := ((s.set (F.UCH_C_STAT.OVR n) 0).set (F.UCH_C_STAT.OPEN n) 0).set (F.UCH_C_STAT.CNT_SAT n) 0
  (s.setUch n { x with prev := z, dig := 0 }).uchNote n

/-- A result with tag `t` enters the accumulators (R357); at 65 535 only the extremes follow. -/
def UchAcc.add (a : UchAcc) (code : Int) (t : Nat) : UchAcc :=
  let mn := if a.count = 0 then code else min a.mn code
  let mx := if a.count = 0 then code else max a.mx code
  if a.count < 65535 then ⟨a.sum + code, a.count + 1, mn, mx, t⟩ else { a with mn := mn, mx := mx }

/-- A code with tag `t` is accumulated, unless its tag lies before the latest clear. -/
def State.uchCount (s : State) (n : Nat) (code : Int) (ovr : Bool) (t : Nat) : State :=
  if t < s.get64 (A.UCH_C_CLR n) then s
  else
    let a := s.uchAcc n
    let b := a.add code t
    let s := s.setUch n { s.uchAt n with prev := a }
    let s := s.putAcc n b
    let s := if ovr then s.set (F.UCH_C_STAT.OVR n) 1 else s
    let s := if b.count = 65535 then s.set (F.UCH_C_STAT.CNT_SAT n) 1 else s
    s.uchNote n

/-- Measuring range of the channel in codes (R352). -/
def uchRange (mode range : Nat) : Int × Int :=
  match mode, range with
  | 1, _ => (-5250000, 5250000)
  | 2, _ => (-100000, 2500000)
  | 3, 0 => (0, 450000)
  | 3, _ => (0, 4500000)
  | 4, _ => (-200000, 850000)
  | 5, 0 => (-200000, 1200000)
  | 5, 1 => (-200000, 1372000)
  | 5, 2 => (-200000, 1300000)
  | 5, 3 => (-200000, 400000)
  | 5, 4 => (-200000, 1000000)
  | 5, 5 => (0, 1768000)
  | 5, _ => (250000, 1820000)
  | 6, _ => (-100000, 2500000)
  | 7, _ => (-5250000, 5250000)
  | _, _ => (0, 1)

/-- Clamped code and OVR of a measured value (R352, R353); mode 8 compares millivolts with its two thresholds. -/
def State.uchCode (s : State) (n : Nat) (raw : Int) : Int × Bool :=
  let m := s.uchMode n
  if m = 8 then
    let code : Nat := if 15000 ≤ raw then 1 else if raw ≤ 8000 then 0 else (s.uchAt n).dig
    (code, decide (30000 < raw) || decide (raw < -1000))
  else
    let r := uchRange m (s.get (F.UCH_C_CFG.RANGE n))
    let c := clampInt r.1 r.2 raw
    (c, c != raw)

/-! ## Conversions (R354 to R359) -/

/-- Integration length by NINT. -/
def nintSamples (code : Nat) : Nat := if code = 0 then 40000 else if code = 1 then 33334 else 200000

/-- The channel restarts at SIX `h` (R359): the conversion is abandoned, the channel cleared, two conversions will be discarded. -/
def State.uchSettle (s : State) (n h : Nat) : State :=
  let s := s.setUch n { s.uchAt n with conv := none, setFrom := h, disc := 2 }
  let s := (s.set (F.UCH_C_STAT.RUN n) 0).set (F.UCH_C_STAT.SETTLING n) 1
  s.uchClear n h

/-- The converter of the channel starts now; the first conversions after a restart are to be discarded. -/
def State.uchStart (s : State) (n : Nat) (onDemand : Bool) : State :=
  let x := s.uchAt n
  let dis := decide (0 < x.disc) && !s.uchOutput n
  let s := s.setUch n { x with conv := some ⟨s.six, onDemand, dis⟩, disc := if dis then x.disc - 1 else x.disc }
  s.set (F.UCH_C_STAT.RUN n) 1

/-- Has the channel a converter that its own schedule or a request can start: an input mode, or mode 6? -/
def State.uchConverts (s : State) (n : Nat) : Bool := s.uchMode n != 0 && s.uchMode n != 7

/-- An on-demand request now (R358). -/
def State.uchRequest (s : State) (n : Nat) : State :=
  if s.uchConverts n then
    if (s.uchAt n).conv.isSome then ((s.bump (F.UCH_C_CNT.DROP n)).bump F.UCH_DROP_CNT.DROP).raise F.UCH_EVT.DROP
    else s.uchStart n true
  else s

/-- CONVERSION_START (R356, R358): the scheduled start of this SIX, once; while an on-demand conversion runs it is skipped. -/
def execConversionStart (n : Fin 16) (s : State) : Host.Outcome State Fault Refusal :=
  let per := s.get (F.UCH_C_CFG.CPER n)
  if s.uchOn ∧ s.uchConverts n ∧ per ≠ 0 ∧ s.six % (100 * per) = 0 ∧ (s.uchAt n).sched ≠ some s.six then
    let s := s.setUch n { s.uchAt n with sched := some s.six }
    .next (if (s.uchAt n).conv.isSome then s.bump (F.UCH_C_CNT.SKIP n) else s.uchStart n false)
  else .next s

/-- A discarded conversion ends; SETTLING clears with the second (R359). -/
def State.uchDiscard (s : State) (n : Nat) : State :=
  let s := s.bump (F.UCH_C_CNT.DISCARD n)
  let s := if (s.uchAt n).disc = 0 then s.set (F.UCH_C_STAT.SETTLING n) 0 else s
  s.uchNote n

/-- OPEN is set, with its event and Cellar entry where it was clear (R354, R370). -/
def State.uchOpen (s : State) (n : Nat) : State :=
  if s.flag (F.UCH_C_STAT.OPEN n) then s
  else (((s.set (F.UCH_C_STAT.OPEN n) 1).raise F.UCH_EVT.OPEN).log 0x0642 2 (leBytes 1 n)).uchNote n

/-- Driver supply in 0.1 V (R366): terminal voltage plus 2 V within 6 to 26 V; 26 V before the first conversion and in BOOST. -/
def UchSt.vdrv (x : UchSt) : Nat :=
  if x.supply ≠ 0 then 260
  else match x.vt with
    | some v => max 60 (min 260 (v + 20))
    | none => 260

/-- The registers show the supply state and VDRV. -/
def State.uchSupply (s : State) (n : Nat) : State :=
  if s.uchMode n = 6 then (s.set (F.UCH_C_STAT.SUPPLY n) (s.uchAt n).supply).set (F.UCH_C_STAT.VDRV n) (s.uchAt n).vdrv
  else (s.set (F.UCH_C_STAT.SUPPLY n) 3).set (F.UCH_C_STAT.VDRV n) 0

/-- Is bit `g` of CJ_FAULT set? -/
def State.cjFault (s : State) (g : Nat) : Bool := bit (s.get F.UCH_STATUS.CJ_FAULT) g

/-- Does the end of this conversion count as open (R354, R355)? -/
def State.uchIsOpen (s : State) (n : Nat) (opened : Bool) : Bool :=
  let m := s.uchMode n
  ((m == 3 || m == 4 || m == 5) && opened) ||
    (m == 5 && s.cjFault (n / 4) && !s.flag (F.UCH_C_CJ.CJFIX_EN n))

/-- The result of a conversion with tag `t`. -/
def State.uchResult (s : State) (n : Nat) (raw : Int) (opened : Bool) (t : Nat) : State :=
  if s.uchMode n = 6 then (s.setUch n { s.uchAt n with vt := some raw.toNat }).uchSupply n
  else if s.uchIsOpen n opened then s.uchOpen n
  else
    let r := s.uchCode n raw
    let s := if s.uchMode n = 8 then s.setUch n { s.uchAt n with dig := r.1.toNat } else s
    s.uchCount n r.1 r.2 t

/-- CONVERSION_DONE (R356, R357, R359): due once the last integrated SIX has passed. -/
def execConversionDone (n : Fin 16) (raw : Int) (opened : Bool) (s : State) : Host.Outcome State Fault Refusal :=
  match (s.uchAt n).conv with
  | none => .next s
  | some v =>
    let t := v.s0 + 799 + nintSamples (s.get (F.UCH_C_CFG.NINT n))
    if t < s.six ∧ s.uchOn then
      let s := (s.setUch n { s.uchAt n with conv := none }).set (F.UCH_C_STAT.RUN n) 0
      .next (if v.discard then s.uchDiscard n else s.uchResult n raw opened t)
    else .next s

/-! ## Outputs (R361, R364, R365) -/

/-- The selected alarm level of the channel. -/
def State.alarmLevel (s : State) (n : Nat) : Int :=
  if s.uchMode n = 7 then 0
  else
    let src := s.get (F.UCH_C_CFG.ALMSRC n)
    if src = 2 ∨ (src = 0 ∧ bit (s.get F.UCH_STATUS.ALMSEL) (n / 4)) then 2150000 else 350000

/-- Does condition 2 of R364 hold? -/
def State.alarmHolds (s : State) (n : Nat) : Bool :=
  (s.uchAt n).cmd.isNone || bit (s.uchAt n).ctrl 2 || (s.opstate == 3 && !s.tsk.up)

/-- The target of R364. -/
def State.uchTarget (s : State) (n : Nat) : Int :=
  if s.flag (F.UCH_C_STAT.THERMAL n) then (if s.uchMode n = 7 then 0 else 350000)
  else if s.alarmHolds n then s.alarmLevel n
  else (s.uchAt n).cmd.getD 0

/-- The driver follows its target (R364); a change of target restarts the shortfall count (R367). -/
def State.uchDrive (s : State) (n : Nat) : State :=
  if s.uchOutput n then
    let s := s.set (F.UCH_C_STAT.ALARM_OUT n) (b2n (!s.flag (F.UCH_C_STAT.THERMAL n) && s.alarmHolds n))
    let t := s.uchTarget n
    let x := s.uchAt n
    let s := if t = x.target then s else s.setUch n { x with target := t, tgtSix := s.six, short := 0 }
    s.uchNote n
  else s

/-- Command range of the channel (R352). -/
def cmdRange (mode : Nat) : Int × Int := if mode = 6 then (0, 2400000) else (-5000000, 5000000)

/-- The released CMD word: u32 in mode 6, s32 in mode 7; clamped with CMD_CLAMP; the driver takes it 20 samples later (R361). -/
def State.uchCmd (s : State) (n : Nat) (w : Word) : State :=
  let m := s.uchMode n
  if m = 6 ∨ m = 7 then
    let v : Int := if m = 6 then w.toNat else w.toInt
    let r := cmdRange m
    let c := clampInt r.1 r.2 v
    (s.set (F.UCH_C_STAT.CMD_CLAMP n) (b2n (c != v))).setUch n { s.uchAt n with cmdPend := some (c, s.six + 20) }
  else s

/-- The released CTRL word: CLR and REQ act on a change, ALARM is a level (R361). -/
def State.uchCtrl (s : State) (n : Nat) (w : Word) : State :=
  let v := w.toNat % 8
  let old := (s.uchAt n).ctrl
  let s := s.setUch n { s.uchAt n with ctrl := v }
  let s := if bit v 0 != bit old 0 then s.uchClear n s.six else s
  let s := if bit v 1 != bit old 1 then s.uchRequest n else s
  s.uchDrive n

/-- CMD_APPLY (R361, R364). -/
def execCmdApply (n : Fin 16) (s : State) : Host.Outcome State Fault Refusal :=
  match (s.uchAt n).cmdPend with
  | some (v, due) =>
    if due ≤ s.six ∧ s.uchOn then .next ((s.setUch n { s.uchAt n with cmd := some v, cmdPend := none }).uchDrive n) else .next s
  | none => .next s

/-- THERMAL (R364): entry at 135 °C, exit at 120 °C, checked at base-cycle boundaries. -/
def execThermal (n : Fin 16) (tj : Int) (s : State) : Host.Outcome State Fault Refusal :=
  let on := s.flag (F.UCH_C_STAT.THERMAL n)
  if s.uchOn ∧ s.uchOutput n ∧ s.six % baseCycle = 0 then
    if 135 ≤ tj ∧ on = false then
      let anr := s.alarmHolds n && s.alarmLevel n == 2150000
      let s := ((s.set (F.UCH_C_STAT.THERMAL n) 1).raise F.UCH_EVT.THERMAL).log 0x0641 2 (leBytes 1 n ++ leBytes 1 1)
      let s := if anr then s.set (F.UCH_C_STAT.ALARM_NOT_REACHED n) 1 else s
      .next (s.uchDrive n)
    else if tj ≤ 120 ∧ on then
      let s := ((s.set (F.UCH_C_STAT.THERMAL n) 0).raise F.UCH_EVT.THERMAL).log 0x0641 2 (leBytes 1 n ++ leBytes 1 0)
      .next ((s.set (F.UCH_C_STAT.ALARM_NOT_REACHED n) 0).uchDrive n)
    else .next s
  else .next s

/-- Does no program run (R362)? -/
def State.noProgram (s : State) : Bool := !s.tsk.up

/-- UCH_HCTL_CLR (R362). -/
def execUchHctlClr (pf : Fin 2) (n : Fin 16) (w : Word) (s : State) : Host.Outcome State Fault Refusal :=
  let a := A.UCH_C_HCTL n
  let g := s.gate pf a w (some 0) (!s.noProgram)
  .next (whenAllowed g (fun t => if bit w.toNat 0 then t.uchClear n t.six else t))

/-- UCH_HCTL_REQ (R358, R362). -/
def execUchHctlReq (pf : Fin 2) (n : Fin 16) (w : Word) (s : State) : Host.Outcome State Fault Refusal :=
  let a := A.UCH_C_HCTL n
  let g := s.gate pf a w (some 0) (!s.noProgram)
  .next (whenAllowed g (fun t => if bit w.toNat 1 && t.uchOn then t.uchRequest n else t))

/-! ## Readback and compliance (R355, R363, R367) -/

/-- The list of a group's readback converter: its output channels in rising order, then 16 for the cold junction. -/
def State.readList (s : State) (g : Nat) : List Nat :=
  let chans := (List.range 4).map (fun i => 4 * g + i)
  chans.filter s.uchOutput ++
    (if chans.any (fun n => s.uchMode n == 5 && !s.flag (F.UCH_C_CJ.CJFIX_EN n)) then [16] else [])

/-- COMPLIANCE changes, with its event and Cellar entry (R367, R370). -/
def State.uchCompliance (s : State) (n : Nat) (on : Bool) (code : Int) : State :=
  let s := (s.set (F.UCH_C_STAT.COMPLIANCE n) (b2n on)).raise F.UCH_EVT.COMPLIANCE
  s.log 0x0640 2 (leBytes 1 n ++ leBytes 1 (b2n on) ++ leBytes 1 (s.get (F.UCH_C_STAT.ALARM_NOT_REACHED n)) ++ leBytes 1 0 ++
    leBytes 4 (unsigned 32 (s.uchAt n).target) ++ leBytes 4 (unsigned 32 code))

/-- Does a readback show a shortfall against the target? -/
def shortfall (mode : Nat) (target code : Int) : Bool :=
  if mode = 6 then decide (12000 < target - code) else decide (code.natAbs + 50000 < target.natAbs)

/-- One tested readback (the table of R367). -/
def State.uchTested (s : State) (n : Nat) (code : Int) : State :=
  let x := s.uchAt n
  let m := s.uchMode n
  if shortfall m x.target code then
    let k := x.short + 1
    if 2 ≤ k then
      if x.supply = 2 then s.setUch n { x with short := 2, good := 0 }
      else if x.supply = 0 ∧ m = 6 then (s.setUch n { x with supply := 1, short := 0, good := 0 }).uchSupply n
      else
        let s := s.setUch n { x with supply := 2, short := 2, good := 0 }
        let s := if m = 6 ∧ x.target = 2150000 then s.set (F.UCH_C_STAT.ALARM_NOT_REACHED n) 1 else s
        ((s.uchCompliance n true code).uchSupply n).uchNote n
    else s.setUch n { x with short := k, good := 0 }
  else
    let k := x.good + 1
    if 2 ≤ k ∧ x.supply ≠ 0 then
      let t := s.setUch n { x with supply := 0, short := 0, good := 0 }
      let t := t.set (F.UCH_C_STAT.ALARM_NOT_REACHED n) 0
      let t := if x.supply = 2 then t.uchCompliance n false code else t
      (t.uchSupply n).uchNote n
    else s.setUch n { x with short := 0, good := min k 2 }

/-- A readback conversion of output channel `n` in the slot that started at `b`. -/
def State.uchReadback (s : State) (n b : Nat) (raw : Int) : State :=
  let x := s.uchAt n
  let r := s.uchCode n raw
  let s :=
    if 0 < x.disc then
      if x.setFrom ≤ b then (s.setUch n { x with disc := x.disc - 1 }).uchDiscard n else s
    else s.uchCount n r.1 r.2 (b + 12499)
  if (s.uchAt n).tgtSix + 2000 ≤ b + 2500 then s.uchTested n r.1 else s

/-- The cold junction of group `g` reads `raw` m°C (R355). -/
def State.coldJunction (s : State) (g : Nat) (raw : Int) : State :=
  let bad := decide (raw < -40000) || decide (105000 < raw)
  let old := s.get F.UCH_STATUS.CJ_FAULT
  if bit old g = bad then s
  else ((s.set F.UCH_STATUS.CJ_FAULT (if bad then old + 2 ^ g else old - 2 ^ g)).raise F.UCH_EVT.CJ_FAULT).log 0x0644 2
    (leBytes 1 g ++ leBytes 1 (b2n bad))

/-- READBACK_SLOT (R363): due at the end of a slot, once. -/
def execReadbackSlot (g : Fin 4) (raw : Int) (s : State) : Host.Outcome State Fault Refusal :=
  let l := s.readList g
  if s.uchOn ∧ s.six % 12500 = 0 ∧ 0 < s.six ∧ (s.uchGroup g).fault = false ∧ (s.uchGroup g).slotSix ≠ some s.six then
    let s := s.setUchGroup g { s.uchGroup g with slotSix := some s.six }
    let j := s.six / 12500 - 1
    match l[j % l.length]? with
    | some n => .next (if n = 16 then s.coldJunction g raw else s.uchReadback n (12500 * j) raw)
    | none => .next s
  else .next s

/-! ## HART (R369) -/

/-- A transaction of group `g` on channel `ch` ends with a status. -/
def State.hartEnd (s : State) (g ch st : Nat) : State :=
  let s := (s.set (F.UCH_G_HCTL.STATUS g) st).setUchGroup g { s.uchGroup g with hart := none }
  let s := s.bump (F.UCH_G_HCNT.TRANS g)
  let s := if st = 3 ∨ st = 4 then s.bump (F.UCH_G_HCNT.NOREPLY g) else s
  let s := s.raise F.UCH_EVT.HART_DONE
  if st = 2 then s else s.log 0x0646 0 (leBytes 1 g ++ leBytes 1 ch ++ leBytes 1 st)

/-- The running transaction of group `g`, if one runs, is aborted (code 6). -/
def State.hartCut (s : State) (g : Nat) : State :=
  match (s.uchGroup g).hart with
  | some ch => s.hartEnd g ch 6
  | none => s

/-- The first `n` bytes of a group's buffer. -/
def State.hartBytes (s : State) (g n : Nat) : List Byte :=
  (((List.range 68).map (fun i => leBytes 4 (s.rd (A.UCH_G_HBUF g i)).toNat)).flatten).take n

/-- Longitudinal parity of a frame. -/
def parityByte (bs : List Byte) : Byte := bs.foldl (fun a b => a ^^^ b) 0

/-- HART_SEND (R369): the set fields of the write, then the kick. -/
def execHartSend (pf : Fin 2) (g : Fin 4) (w : Word) (s : State) : Host.Outcome State Fault Refusal :=
  let r := s.gate pf (A.UCH_G_HCTL g) w (some 0) false
  .next (whenAllowed r (fun t =>
    let busy := t.get (F.UCH_G_HCTL.STATUS g) == 1
    let t := ((t.set (F.UCH_G_HCTL.CH g) (fieldOf w 0 2)).set (F.UCH_G_HCTL.RETRY g) (fieldOf w 8 2)).set (F.UCH_G_HCTL.PREAMBLE g)
      (fieldOf w 16 5)
    if bit w.toNat 2 && !busy then
      let n := 4 * g.val + fieldOf w 0 2
      let pre := fieldOf w 16 5
      let len := t.get (F.UCH_G_HLEN.LEN g)
      let ok := t.uchOn && t.flag (F.UCH_C_CFG.HART_EN n) && (t.uchMode n == 2 || t.uchMode n == 6) && !(t.uchGroup g).fault &&
        5 ≤ pre && pre ≤ 20 && 1 ≤ len && len ≤ 271
      if ok then
        let req := t.hartBytes g len
        let t := (t.set (F.UCH_G_HCTL.STATUS g) 1).setUchGroup g { t.uchGroup g with hart := some n }
        t.emit (.hart g (List.replicate pre 0xFF ++ req ++ [parityByte req]))
      else t.hartEnd g n 5
    else t))

/-- HART_ABORT (R369). -/
def execHartAbort (pf : Fin 2) (g : Fin 4) (w : Word) (s : State) : Host.Outcome State Fault Refusal :=
  let r := s.gate pf (A.UCH_G_HCTL g) w (some 0) false
  .next (whenAllowed r (fun t =>
    let t := ((t.set (F.UCH_G_HCTL.CH g) (fieldOf w 0 2)).set (F.UCH_G_HCTL.RETRY g) (fieldOf w 8 2)).set (F.UCH_G_HCTL.PREAMBLE g)
      (fieldOf w 16 5)
    if bit w.toNat 3 then t.hartCut g else t))

/-- The buffer takes reply bytes, four to a word. -/
def State.hartStore (s : State) (g : Nat) (bs : List Byte) : State :=
  (List.range 68).foldl (fun t i =>
    if 4 * i < bs.length then t.wr (A.UCH_G_HBUF g i) (BitVec.ofNat 32 (leNat ((bs.drop (4 * i)).take 4))) else t) s

/-- HART_DONE (R369). -/
def execHartDone (g : Fin 4) (r : HartEnd) (s : State) : Host.Outcome State Fault Refusal :=
  match (s.uchGroup g).hart with
  | none => .next s
  | some ch =>
    match r with
    | .reply bs => .next (((s.hartStore g bs).set (F.UCH_G_HLEN.RLEN g) bs.length).hartEnd g ch 2)
    | .none => .next (s.hartEnd g ch 3)
    | .bad => .next (s.hartEnd g ch 4)

/-- HART_FRAME_RECEIVED (R369): discarded and counted. -/
def execHartFrameReceived (g : Fin 4) (s : State) : Host.Outcome State Fault Refusal :=
  if s.uchOn then .next (s.bump (F.UCH_G_HCNT.OTHER g)) else .next s

/-! ## Group faults, straps and power (R359, R365, R368) -/

/-- GRP_OK and the fault flag of group `g`. -/
def State.setGroupFault (s : State) (g : Nat) (on : Bool) : State :=
  let old := s.get F.UCH_STATUS.GRP_OK
  let cleared := if bit old g then old - 2 ^ g else old
  let s := s.set F.UCH_STATUS.GRP_OK (if on then cleared else cleared + 2 ^ g)
  let x := s.uchGroup g
  let s := s.setUchGroup g { x with fault := on, faultSix := if on then s.six else x.faultSix, driven := false }
  (List.range 4).foldl (fun t i => t.uchNote (4 * g + i)) s

/-- GRP_FAULT (R368). -/
def execGrpFault (g : Fin 4) (s : State) : Host.Outcome State Fault Refusal :=
  if s.uchOn ∧ (s.uchGroup g).fault = false then
    let s := ((s.setGroupFault g true).raise F.UCH_EVT.GRP_FAULT).log 0x0643 2 (leBytes 1 g ++ leBytes 1 1)
    .next (s.hartCut g)
  else .next s

/-- GRP_RECOVER (R368): the group restarts under R359. -/
def execGrpRecover (g : Fin 4) (s : State) : Host.Outcome State Fault Refusal :=
  if s.uchOn ∧ (s.uchGroup g).fault ∧ s.six % baseCycle = 0 then
    let s := ((s.setGroupFault g false).raise F.UCH_EVT.GRP_FAULT).log 0x0643 2 (leBytes 1 g ++ leBytes 1 0)
    .next ((List.range 4).foldl (fun t i =>
      if t.uchMode (4 * g.val + i) = 0 then t else (t.uchSettle (4 * g.val + i) t.six).uchDrive (4 * g.val + i)) s)
  else .next s

/-- CONTROLLER_ALARM_DRIVE (R368): the controller drives its mode-6 channels to their alarm levels and its mode-7 channels to 0 V. -/
def execControllerAlarmDrive (g : Fin 4) (s : State) : Host.Outcome State Fault Refusal :=
  if s.uchOn ∧ (s.uchGroup g).fault ∧ (s.uchGroup g).driven = false then
    let s := s.setUchGroup g { s.uchGroup g with driven := true }
    .next ((List.range 4).foldl (fun t i =>
      let n := 4 * g.val + i
      if t.uchOutput n then
        let x := t.uchAt n
        let lvl := t.alarmLevel n
        if x.target = lvl then t else t.setUch n { x with target := lvl, tgtSix := t.six, short := 0 }
      else t) s)
  else .next s

/-- STRAP_CHG (R365): the selection stays; the change is written. -/
def execStrapChg (g : Fin 4) (level : Bool) (s : State) : Host.Outcome State Fault Refusal :=
  let latched := bit (s.get F.UCH_STATUS.ALMSEL) g
  if latched = level then .next s
  else .next ((s.raise F.UCH_EVT.STRAP_CHG).log 0x0645 1 (leBytes 1 g ++ leBytes 1 (b2n latched) ++ leBytes 1 (b2n level)))

/-- The levels of ALMSEL0 to ALMSEL3 are latched at cold start and warm reset (R365). -/
def State.latchStraps (s : State) (almsel : Nat) : State := s.set F.UCH_STATUS.ALMSEL almsel

/-- P11 powers up (R359, R364, R366): every channel that has a mode settles, no CMD has been released. -/
def State.uchPowerUp (s : State) : State :=
  let s := (s.set F.UCH_STATUS.POWERED 1).set F.UCH_STATUS.GRP_OK 15
  (List.range 16).foldl (fun t n =>
    let t := t.setUch n { UchSt.reset with tgtSix := t.six }
    if t.uchMode n = 0 then t else ((t.uchSettle n t.six).uchSupply n).uchDrive n) s

/-- P11 goes off (R368): outputs at 0, accumulators and HART transactions lost. -/
def State.uchPowerDown (s : State) : State :=
  let s := (List.range 4).foldl (fun t g => (t.hartCut g).setUchGroup g UchGrp.reset) s
  let s := ((s.set F.UCH_STATUS.POWERED 0).set F.UCH_STATUS.GRP_OK 0).set F.UCH_STATUS.CJ_FAULT 0
  (List.range 16).foldl (fun t n =>
    let t := t.setUch n UchSt.reset
    let t := t.putAcc n ⟨0, 0, 0, 0, 0⟩
    t.wr (A.UCH_C_STAT n) 0) s

/-- A changed configuration of channel `n` takes effect at `h` (R351, R359, R369); `restart` says that MODE, RANGE, NINT or WIRES
changed, `mode` that MODE did. -/
def State.uchReconfigure (s : State) (n h : Nat) (restart mode : Bool) : State :=
  let s := if (s.uchGroup (n / 4)).hart = some n then s.hartEnd (n / 4) n 6 else s
  let s := if mode then s.setUch n { s.uchAt n with cmd := none, cmdPend := none, supply := 0, vt := none, short := 0, good := 0 } else s
  let s := if restart then s.uchSettle n h else s
  (s.uchSupply n).uchDrive n

/-! ## What the program sees (R360) -/

/-- Accumulators of channel `n` in an image at `k`: without a conversion whose tag lies after k − 101. -/
def State.uchAccAt (s : State) (n k : Nat) : UchAcc :=
  let a := s.uchAcc n
  if a.count = 0 ∨ a.tag + 101 ≤ k then a else (s.uchAt n).prev

/-- The eight words of channel `n`'s item in an image at `k`. -/
def State.uchItem (s : State) (n k : Nat) : List Word :=
  let a := s.uchAccAt n k
  let fl := (s.uchAt n).flagsAt (k - 101)
  let c := s.get64 (A.UCH_C_CLR n)
  let f := fun i => bit fl (16 + i)
  let q := b2n (decide (1 ≤ a.count) && !f 3 && !f 1 && !f 0 && !f 8) * qVALID + b2n (f 3) * qSETTLE + b2n (f 0) * qOVER +
    b2n (f 8) * qMISSING
  let w := fun (v : Nat) => BitVec.ofNat 32 v
  [w q, w (if a.count = 0 then c else a.tag), w (unsigned 32 a.sum), w (unsigned 64 a.sum / 2 ^ 32),
    w (a.count + fl), w (unsigned 32 a.mn), w (unsigned 32 a.mx), w c]

end Sys2Proof.Machine
end

