-- ==== Sys2Proof/Machine/Eth.lean ====
section
/-!
DEFINITION. Machine/Eth.lean: the process bus and the station bus (R333 to R349): the redundancy layer, routing, GOOSE and sampled
values in both directions, the host frame queues, and the resampler's grid values (R98 to R101).
-/
namespace Sys2Proof.Machine
open Sys2Proof

/-! ## Pairs, ports and contexts -/

def State.ethCtx (s : State) (n : Nat) : EthCtx := kvGet (fun _ => EthCtx.reset) s.eth.ctx n

def State.setEthCtx (s : State) (n : Nat) (x : EthCtx) : State :=
  { s with eth := { s.eth with ctx := kvPut (fun _ => EthCtx.reset) s.eth.ctx n x } }

/-- Pair of a port: E0 and E1 form pair 0. -/
def pairOf (port : Nat) : Nat := port / 2

/-- The other port of the pair. -/
def otherPort (port : Nat) : Nat := port / 2 * 2 + (1 - port % 2)

/-- MODE of a pair: 0 off, 1 PRP, 2 HSR (R333). -/
def State.ethMode (s : State) (pair : Nat) : Nat := s.get (F.ETH_PAIR_CFG.MODE pair)

/-- Does P10 run? -/
def State.ethOn (s : State) : Bool := s.flag F.ETH_STATUS.POWERED

/-- The MAC address of a pair. -/
def State.pairMac (s : State) (pair : Nat) : Nat := s.get64 (A.ETH_PAIR_MAC pair) % 2 ^ 48

/-- Does a port have link? -/
def State.hasLink (s : State) (port : Nat) : Bool := s.flag (F.ETH_E_STAT.LINK port)

/-- LINK of a port, in its own register and in ETH_STATUS. -/
def State.setLink (s : State) (port : Nat) (up : Bool) : State :=
  (s.set (F.ETH_E_STAT.LINK port) (b2n up)).set (bitField A.ETH_STATUS port) (b2n up)

/-- LAN_OK of a port. -/
def State.setLan (s : State) (port : Nat) (ok : Bool) : State :=
  (s.set (F.ETH_E_STAT.LAN_OK port) (b2n ok)).set (bitField A.ETH_STATUS (4 + port)) (b2n ok)

/-- Samples in 400 ms and in 2 s (R335). -/
def dupWindow : Nat := 800000
def lanTimeout : Nat := 4000000

/-- Entries of a duplicate table. -/
def dupEntries : Nat := 4096

/-! ## Sending (R335, R336, R338) -/

/-- A frame leaves on the ports of a pair that have link, with the pair's next redundancy sequence number. -/
def State.ethSend (s : State) (pair pcp : Nat) (body : EthOut) : State :=
  if s.ethOn && s.ethMode pair != 0 then
    let q := kvGet (fun _ => 0) s.eth.seq pair
    let s := { s with eth := { s.eth with seq := kvPut (fun _ => 0) s.eth.seq pair ((q + 1) % 65536) } }
    [2 * pair, 2 * pair + 1].foldl (fun t p => if t.hasLink p then t.emit (.eth p (some q) pcp body) else t) s
  else s

/-! ## Receiving (R334 to R336) -/

/-- Is (source, sequence number) in a table within the window? -/
def dupHit (t : List (Nat × Nat × Nat)) (src seq now : Nat) : Bool :=
  t.any (fun e => e.1 == src && e.2.1 == seq && decide (now ≤ e.2.2 + dupWindow))

/-- A table takes a new first copy; when it is full the oldest entry gives way. -/
def dupAdd (t : List (Nat × Nat × Nat)) (src seq now : Nat) : List (Nat × Nat × Nat) :=
  (((src, seq, now) :: t.filter (fun e => !(e.1 == src && e.2.1 == seq) && decide (now ≤ e.2.2 + dupWindow))).take dupEntries)

/-- The broadcast address, and whether an address is a group address (first octet in [7:0]). -/
def macBroadcast : Nat := 0xFFFFFFFFFFFF
def isGroupMac (m : Nat) : Bool := m % 2 == 1

/-- The kind-4 contexts of a pair whose destination and APPID a message carries. -/
def State.gooseTargets (s : State) (pair : Nat) (m : GooseMsg) : List Nat :=
  (s.fp.gooseSub.filter (fun e => s.kind e.1 == 4 && s.get (F.ETH_C_STAT.PAIR (e.1)) == pair && e.2.id.mac == m.id.mac &&
    e.2.id.appid == m.id.appid)).map Prod.fst

/-- The kind-2 contexts of a pair whose destination and APPID a frame carries. -/
def State.svTargets (s : State) (pair : Nat) (f : SvFrame) : List Nat :=
  (s.fp.svSub.filter (fun e => s.kind e.1 == 2 && s.get (F.ETH_C_STAT.PAIR (e.1)) == pair && e.2.mac == f.mac &&
    e.2.appid == f.appid)).map Prod.fst

/-- A routed frame waits for the step that takes it. -/
def State.route (s : State) (ctx : Option Nat) (port : Nat) (f : EthFrame) : State :=
  { s with eth := { s.eth with waiting := s.eth.waiting ++ [⟨ctx, port, s.six, f⟩] } }

/-- A frame that R334 drops as unmatched. -/
def State.noMatch (s : State) (pair : Nat) : State := s.bump (F.ETH_PAIR_NOMATCH.NOMATCH pair)

/-- The routing table of R334. -/
def State.ethRoute (s : State) (port : Nat) (f : EthFrame) : State :=
  let pair := pairOf port
  if f.etherType = 0x88F7 ∨ f.etherType = 0x88FB then s
  else if f.etherType = 0x88B8 ∨ f.etherType = 0x88BA then
    let dests := match f.body with
      | .goose m => if f.etherType = 0x88B8 then s.gooseTargets pair m else []
      | .sv v => if f.etherType = 0x88BA then s.svTargets pair v else []
      | _ => []
    if dests.isEmpty then s.noMatch pair else dests.foldl (fun t n => t.route (some n) port f) s
  else if pair = 1 ∧ (f.dst = s.pairMac 1 ∨ f.dst = macBroadcast ∨ (isGroupMac f.dst ∧ s.fp.filter.contains f.dst)) then
    s.route none port f
  else s.noMatch pair

/-- The frame as the redundancy layer sees it: whether its first copy is passed on, and the state with tables and DUP kept. -/
def State.redundancy (s : State) (port : Nat) (f : EthFrame) : Bool × State :=
  match f.seq with
  | none => (true, s)
  | some q =>
    let pair := pairOf port
    let t := kvGet (fun _ => []) s.eth.seen pair
    if dupHit t f.src q s.six then (false, s.bump (F.ETH_E_DUP.COUNT port))
    else (true, { s with eth := { s.eth with seen := kvPut (fun _ => []) s.eth.seen pair (dupAdd t f.src q s.six) } })

/-- HSR forwarding out of the other port, once for each frame and direction (R336). -/
def State.hsrForward (s : State) (port : Nat) (f : EthFrame) : State :=
  let out := otherPort port
  match f.seq with
  | none => s
  | some q =>
    let t := kvGet (fun _ => []) s.eth.sent out
    if dupHit t f.src q s.six then s
    else
      let s := { s with eth := { s.eth with sent := kvPut (fun _ => []) s.eth.sent out (dupAdd t f.src q s.six) } }
      match f.body with
      | .ptp m =>
        if f.etherType = 0x88F7 ∧ s.tcPort port then
          let r := s.tcForward port m
          match r.1 with
          | some c => if r.2.hasLink out then r.2.emit (.eth out (some q) 0 (.forwardPtp f.src q c)) else r.2
          | none => r.2
        else if s.hasLink out then s.emit (.eth out (some q) 0 (.forward f.src q)) else s
      | _ => if s.hasLink out then s.emit (.eth out (some q) 0 (.forward f.src q)) else s

/-- A PTP frame goes to the time unit from the port it came in at: each port of a pair is its own PTP port (R313). -/
def State.ptpRoute (s : State) (port : Nat) (f : EthFrame) : State :=
  match f.body with
  | .ptp m => s.ptpIn port m
  | _ => s

/-- ETH_FRAME_RECEIVED (R334 to R336). -/
def execEthFrameReceived (p : Fin 4) (f : EthFrame) (s : State) : Host.Outcome State Fault Refusal :=
  let pair := pairOf p
  if s.ethOn && s.ethMode pair != 0 && s.hasLink p then
    let s := { s with eth := { s.eth with lastRx := kvPut (fun _ => 0) s.eth.lastRx p s.six } }
    let s := (s.setLan p true).bump (F.ETH_E_RX.COUNT p)
    if f.len < 64 ∨ 1522 < f.len ∨ f.fcsOk = false then .next (s.bump (F.ETH_E_ERR.COUNT p))
    else if s.ethMode pair = 1 then
      if f.etherType = 0x88F7 then .next (s.ptpRoute p f)
      else
        let r := s.redundancy p f
        .next (if r.1 then r.2.ethRoute p f else r.2)
    else if f.src = s.pairMac pair then .next s
    else
      let s := if f.dst = s.pairMac pair then s else s.hsrForward p f
      if f.etherType = 0x88F7 then .next (s.ptpRoute p f)
      else
        let r := s.redundancy p f
        .next (if r.1 then r.2.ethRoute p f else r.2)
  else if s.startPort p && s.ethMode pair != 0 && s.hasLink p && f.etherType == 0x88F7 && f.fcsOk then .next (s.ptpRoute p f)
  else .next s

/-- LINK_CHG (R337): the port's link goes up or down. -/
def execLinkChg (p : Fin 4) (up : Bool) (s : State) : Host.Outcome State Fault Refusal :=
  if (s.ethOn || s.startPort p) && s.hasLink p != up then
    let s := (s.setLink p up).raise F.ETH_EVT.LINK_CHG
    .next { s with eth := { s.eth with lastRx := if up then kvPut (fun _ => 0) s.eth.lastRx p s.six else s.eth.lastRx } }
  else .next s

/-- LAN_LOSS (R335, R337): a port whose LAN stood live has lost its link, or has received no frame for 2 s. -/
def execLanLoss (p : Fin 4) (s : State) : Host.Outcome State Fault Refusal :=
  let quiet := kvGet (fun _ => 0) s.eth.lastRx p + lanTimeout ≤ s.six
  if s.ethOn && s.flag (F.ETH_E_STAT.LAN_OK p) && (!s.hasLink p || decide quiet) then
    .next (((s.setLan p false).raise F.ETH_EVT.LAN_LOSS).logNamed "ETH_LAN_LOSS" (leBytes 1 p))
  else .next s

/-- PRP_SUPERVISION_SEND (R335): every 2 s on both ports. -/
def execPrpSupervisionSend (pair : Fin 2) (s : State) : Host.Outcome State Fault Refusal :=
  if s.ethOn && s.ethMode pair == 1 && decide (kvGet (fun _ => 0) s.eth.supNext pair ≤ s.six) then
    let s := s.ethSend pair 0 .supervision
    .next { s with eth := { s.eth with supNext := kvPut (fun _ => 0) s.eth.supNext pair (s.six + lanTimeout) } }
  else .next s

/-! ## GOOSE subscription (R339 to R341) -/

/-- The type of a member value. -/
def memTyp : MemVal → MemType
  | .boolean _ => .boolean
  | .dbpos _ => .dbpos
  | .int32 _ => .int32
  | .int32u _ => .int32u
  | .float32 _ => .float32
  | .bits bs => .bits bs.length
  | .quality _ => .quality
  | .timestamp _ _ _ => .timestamp

/-- The number whose bit i is the i-th of a list. -/
def bitsNat : List Bool → Nat
  | [] => 0
  | b :: bs => b2n b + 2 * bitsNat bs

/-- The words of a member value in the content of a dataset (R341). -/
def memWords : MemVal → List Word
  | .boolean b => [BitVec.ofNat 32 (b2n b)]
  | .dbpos v => [BitVec.ofNat 32 (v % 4)]
  | .int32 w => [w]
  | .int32u w => [w]
  | .float32 w => [w]
  | .bits bs => [BitVec.ofNat 32 (bitsNat bs)]
  | .quality q => [q.setWidth 32]
  | .timestamp sec frac tq => [sec, frac ++ tq]

/-- Words of a member of a type. -/
def memSize : MemType → Nat
  | .timestamp => 2
  | _ => 1

/-- A GOOSE status change of context `n` with a tag (R340): the event, and the event tasks that have it as a source. -/
def State.gooseChange (s : State) (n tag : Nat) : State :=
  (s.raise F.ETH_EVT.GOOSE_CHG).pendEvent (fun x => x.goose.contains n) tag

/-- Datasets and shelves are kept for as long as an image can need them: LAG reaches back 20 000 samples (R192). -/
def dataKept : Nat := 65536

/-- Context `n` takes a dataset or shelf; of those older than an image can need the newest stays. -/
def State.pushData (s : State) (n : Nat) (d : DataTag) : State :=
  let x := s.ctx n
  let recent := fun (e : DataTag) => decide (s.six < e.at_ + dataKept)
  s.setCtx n { x with data := d :: (x.data.takeWhile recent ++ (x.data.dropWhile recent).take 1) }

/-- A subscription's message does not come by its deadline (R340). -/
def State.talExpire (s : State) (n d : Nat) : State :=
  let e := s.ethCtx n
  let s := s.setEthCtx n { e with deadline := none, seen := false }
  let s := match (s.ctx n).data with
    | x :: _ => s.pushData n { x with at_ := d, done := s.six, q := (x.q ||| qMISSING) / 2 * 2 }
    | [] => s
  let s := ((s.ctxMissing n d).bump (F.ETH_C_CNT.TAL n)).raise F.ETH_EVT.TAL
  (s.gooseChange n d).logNamed "GOOSE_TAL" (leBytes 1 n ++ leBytes 8 d)

/-- Signed 32-bit difference of two state numbers. -/
def stDiff (a b : Nat) : Int := signed 32 ((a + 2 ^ 32 - b % 2 ^ 32) % 2 ^ 32)

/-- A message's content is taken and supervision restarts (R340). -/
def State.gooseAccept (s : State) (n tag : Nat) (m : GooseMsg) : State :=
  let e := s.ethCtx n
  let s := s.setEthCtx n { e with seen := true, ever := true, deadline := some (tag + m.tal * 2000) }
  let q := qVALID ||| (if m.test || m.sim then qTEST else 0)
  let s := s.pushData n ⟨tag, tag, s.six, q, BitVec.ofNat 32 m.stNum :: (m.vals.map memWords).flatten⟩
  let s := ((s.set (F.ETH_C_STNUM.NUM n) m.stNum).set (F.ETH_C_SQNUM.NUM n) m.sqNum).set64 (A.ETH_C_LAST n) tag
  let s := (s.ctxReceiving n tag).set64 (A.SFB_C_SIX n) tag
  if s.ctxState n = 2 then s else s.setCtxState n 2

/-- A new state (R340): counts in STJUMP unless stNum follows the last. -/
def State.gooseNew (s : State) (n tag : Nat) (m : GooseMsg) : State :=
  let e := s.ethCtx n
  let last := s.get (F.ETH_C_STNUM.NUM n)
  let follows := m.stNum = (if last = 4294967295 then 1 else last + 1)
  let s := if e.ever ∧ ¬follows then s.bump (F.ETH_C_CNT.STJUMP n) else s
  (s.gooseAccept n tag m).gooseChange n tag

/-- The supervision table of R340. -/
def State.gooseSupervise (s : State) (n tag : Nat) (m : GooseMsg) : State :=
  let last := s.get (F.ETH_C_STNUM.NUM n)
  let lastSq := s.get (F.ETH_C_SQNUM.NUM n)
  if !(s.ethCtx n).seen then s.gooseNew n tag m
  else if m.stNum = last then
    if lastSq < m.sqNum ∨ (lastSq = 4294967295 ∧ m.sqNum = 1) then s.gooseAccept n tag m else s.bump (F.ETH_C_CNT.OOS n)
  else if m.stNum = 1 ∨ 0 < stDiff m.stNum last then s.gooseNew n tag m
  else s.bump (F.ETH_C_CNT.OOS n)

/-- A message passes the checks of R339. -/
def State.gooseMatches (s : State) (n : Nat) (g : GooseSub) (m : GooseMsg) : Bool :=
  m.id == g.id && !m.ndsCom && m.vals.map memTyp == g.members && (!m.sim || s.flag (F.ETH_C_STAT.SIM_OK n))

/-- CONF_ERR of a context (R339, R344). -/
def State.confErr (s : State) (n : Nat) : State := (s.bump (F.ETH_C_CNT.CONF_ERR n)).raise F.ETH_EVT.CONF_ERR

/-- The first waiting frame that satisfies `q`, and the state without it. -/
def State.takeWaiting (s : State) (q : Routed → Bool) : Option (Routed × State) :=
  match s.eth.waiting.find? q with
  | none => none
  | some r => some (r, { s with eth := { s.eth with waiting := s.eth.waiting.eraseP q } })

/-- GOOSE_RECEIVED (R339, R340): the oldest message routed to context `n`. -/
def execGooseReceived (n : Fin 256) (s : State) : Host.Outcome State Fault Refusal :=
  match s.takeWaiting (fun r => r.ctx == some n.val && s.kind n == 4), s.fp.gooseSub.lookup n.val with
  | some (r, t), some g =>
    match r.frame.body with
    | .goose m =>
      if s.gooseMatches n g m then
        let late := (t.ethCtx n).deadline.filter (fun d => d < r.six)
        let t := match late with
          | some d => t.talExpire n d
          | none => t
        .next (t.gooseSupervise n r.six m)
      else .next (t.confErr n)
    | _ => .next t
  | _, _ => .next s

/-- GOOSE_TAL_EXPIRED (R340): due once the deadline's SIX has passed and no message that arrived by it waits. -/
def execGooseTalExpired (n : Fin 256) (s : State) : Host.Outcome State Fault Refusal :=
  match (s.ethCtx n).deadline with
  | some d =>
    if s.kind n = 4 ∧ d < s.six ∧ !(s.eth.waiting.any (fun r => r.ctx == some n.val && decide (r.six ≤ d))) then .next (s.talExpire n d)
    else .next s
  | none => .next s

/-! ## GOOSE publication (R342, R343) -/

/-- Milliseconds from the transmission after `i` gaps to the next: TMIN, TMIN, 2 TMIN, 4 TMIN …, at most TMAX. -/
def gooseGap (p : GoosePub) (i : Nat) : Nat := min p.tmax (if i = 0 then p.tmin else p.tmin * 2 ^ (min (i - 1) 32))

/-- Context `n` sends its current state and sets the next transmission. -/
def State.gooseSend (s : State) (n : Nat) (p : GoosePub) : State :=
  let e := s.ethCtx n
  let gap := gooseGap p e.gaps
  let s := s.setEthCtx n { e with next := s.six + 2000 * gap }
  let s := s.ethSend (s.get (F.ETH_C_STAT.PAIR n)) p.pcp
    (.goose n (s.get (F.ETH_C_STNUM.NUM n)) (s.get (F.ETH_C_SQNUM.NUM n)) (2 * gap) e.pubTod.1 e.pubTod.2 e.pubWords)
  s.set64 (A.ETH_C_LAST n) s.six

/-- A new state of context `n` with content `ws` (R342). -/
def State.gooseState (s : State) (n : Nat) (p : GoosePub) (ws : List Word) (stNum : Nat) : State :=
  let e := s.ethCtx n
  let s := s.setEthCtx n { e with pubOn := true, pubWords := ws, pubTod := s.tod s.six, gaps := 0 }
  ((s.set (F.ETH_C_STNUM.NUM n) stNum).set (F.ETH_C_SQNUM.NUM n) 0).gooseSend n p

/-- The engine's status dataset (R343). -/
def State.statusWords (s : State) : List Word :=
  [s.get F.ENG_STATE.HEALTHY, s.get F.ENG_STATE.STEM, s.get F.CEL_STATUS.MUTE, s.get F.TIM_STATUS.VALID, s.get F.LNE_STATUS.SPARE_OK,
   s.get F.PWR_STATE.OPSTATE].map (BitVec.ofNat 32)

/-- An output-image word as its consumers see it: the force on it (KIND 2 of R243), else the released value. -/
def State.outWord (s : State) (w : Nat) : Word := (s.forcedOut w).getD (kvGet (fun _ => 0) s.tsk.out w)

/-- The output-image words of a dataset. -/
def State.memberWords (s : State) (p : GoosePub) : List Word :=
  (p.members.map (fun m => (List.range (memSize m.1)).map (fun i => s.outWord (m.2 + i)))).flatten

/-- The content that context `n` publishes now. -/
def State.pubContent (s : State) (n : Nat) (p : GoosePub) : List Word :=
  if s.flag (F.ETH_C_STAT.STATUS n) then s.statusWords else s.memberWords p

/-- The stNum after `st`, with wrap to 1. -/
def nextSt (st : Nat) : Nat := if st = 4294967295 then 1 else st + 1

/-- A context whose content has changed publishes one new state. -/
def State.gooseCheck (s : State) (n : Nat) (p : GoosePub) : State :=
  let e := s.ethCtx n
  let ws := s.pubContent n p
  if s.kind n = 5 ∧ e.pubOn ∧ e.pubWords ≠ ws then s.gooseState n p ws (nextSt (s.get (F.ETH_C_STNUM.NUM n))) else s

/-- Every publication of the status dataset follows the status (R343). -/
def State.gooseStatus (s : State) : State :=
  s.fp.goosePub.foldl (fun t e => if t.flag (F.ETH_C_STAT.STATUS e.1) then t.gooseCheck e.1 e.2 else t) s

/-- The publications that hold a word released now (R342). -/
def State.goosePublish (s : State) (released : Nat → Bool) : State :=
  s.fp.goosePub.foldl (fun t e =>
    if !t.flag (F.ETH_C_STAT.STATUS e.1) &&
      e.2.members.any (fun m => released m.2 || (memSize m.1 == 2 && released (m.2 + 1))) then t.gooseCheck e.1 e.2 else t) s

/-- Publication restarts with stNum 1 and sqNum 0 (R342). -/
def State.gooseRestart (s : State) : State :=
  s.fp.goosePub.foldl (fun t e => if t.kind e.1 = 5 then t.gooseState e.1 e.2 (t.pubContent e.1 e.2) 1 else t) s

/-- GOOSE_RETRANSMIT (R342): the gap of context `n` has expired. -/
def execGooseRetransmit (n : Fin 256) (s : State) : Host.Outcome State Fault Refusal :=
  let e := s.ethCtx n
  match s.fp.goosePub.lookup n.val with
  | some p =>
    if s.ethOn && s.kind n == 5 && e.pubOn && decide (e.next ≤ s.six) then
      let sq := s.get (F.ETH_C_SQNUM.NUM n)
      .next (((s.setEthCtx n { e with gaps := e.gaps + 1 }).set (F.ETH_C_SQNUM.NUM n) (nextSt sq)).gooseSend n p)
    else .next s
  | none => .next s

/-! ## Sampled values received (R344, R346) -/

/-- The engine's quality byte of an IEC 61850 quality (R346). -/
def svQuality (q : BitVec 14) : Nat :=
  let v := q.toNat
  let good := v % 4 = 0 ∧ !bit v 6 ∧ !bit v 7 ∧ !bit v 12
  let ovr := bit v 2 || bit v 3
  (if good ∧ !ovr then qVALID else 0) ||| (if ovr then qOVER else 0) ||| (if bit v 10 then qSUBST else 0) |||
  (if bit v 11 then qTEST else 0)

/-- The second of a sample with count `cnt` that arrives now: the one that puts its instant nearest. -/
def State.svSecond (s : State) (cnt rate : Nat) : Nat :=
  let (sec, ns) := s.tod s.six
  let a := cnt * 1000000000
  let b := ns * rate
  let half := rate * 500000000
  if b + half < a then sec - 1 else if a + half < b then sec + 1 else sec

/-- The latest grid point at or before SIX `k`. -/
def gridAt (k : Nat) : Nat := (k + 1) / 25 * 25 - 1

/-- Was the sample needed by a grid value that has been computed (R100)? -/
def State.svLate (s : State) (n sec cnt rate : Nat) : Bool :=
  let g := gridAt (s.six - 1)
  let (gs, na, _) := s.gridPos g (s.get (F.SFB_C_SVDLY.D n)) rate
  decide (25 ≤ s.six ∧ s.get (F.SFB_C_SVDLY.D n) ≤ g ∧ sec * rate + cnt ≤ gs * rate + na + 1)

/-- Samples of a context are kept for the resampler for as long as a grid value can need them: D reaches 20 000 samples (R98). -/
def svKept : Nat := 65536

/-- One ASDU reaches the resampler; samples that come too late are discarded and counted. -/
def State.svAsdu (s : State) (n rate : Nat) (a : Asdu) : State :=
  let sec := s.svSecond a.smpCnt rate
  let s := s.setCtx n { s.ctx n with svSync := a.smpSynch == 2 }
  if s.svLate n sec a.smpCnt rate then s.countMiss n a.vals.length
  else
    let x := s.ctx n
    let new := (List.range a.vals.length).zipWith (fun c v => (⟨sec, a.smpCnt, c, v.1, svQuality v.2, s.six⟩ : SvSamp)) a.vals
    s.setCtx n { x with sv := new.reverse ++ x.sv.takeWhile (fun e => decide (s.six < e.arr + svKept)) }

/-- SV_FRAME_RECEIVED (R344): the oldest frame routed to context `n`. -/
def execSvFrameReceived (n : Fin 256) (s : State) : Host.Outcome State Fault Refusal :=
  match s.takeWaiting (fun r => r.ctx == some n.val && s.kind n == 2), s.fp.svSub.lookup n.val with
  | some (r, t), some g =>
    match r.frame.body with
    | .sv f =>
      if f.svId = g.svId ∧ f.confRev = g.confRev ∧ f.asdus.length = g.asdus ∧
          f.asdus.all (fun a => a.vals.length == s.nch n && decide (a.smpCnt < g.rate)) then
        let t := f.asdus.foldl (fun u a => (u.svAsdu n g.rate a).set (F.ETH_C_SQNUM.NUM n) a.smpCnt) t
        .next (t.set64 (A.ETH_C_LAST n) r.six)
      else .next (t.confErr n)
    | _ => .next t
  | _, _ => .next s

/-- The grid values of context `n` for g, the latest SIX but one, from the samples received by now, under the settings that count for
g (R85, R99 to R101); none when they are
not due. -/
def State.gridCompute (s : State) (n : Nat) : Option State :=
  let g := s.six - 1
  match s.subAt n g with
  | some sub =>
    let o := s.asOf n g
    if s.fabricOn ∧ s.kind n = 2 ∧ o.kind n = 2 ∧ 25 ≤ s.six ∧ s.six % 25 = 0 ∧ o.get (F.SFB_C_SVDLY.D n) ≤ g ∧
        (s.listed (chKey n 0) g).isNone then
      let x := o.ctx n
      let v := o.setCtx n { x with sv := x.sv.filter (fun e => e.arr < s.six) }
      let xs := (List.range (o.nch n)).map (fun c => (c, v.gridSamp n c g sub.rate))
      let whole := xs.all (fun e => !bit e.2.q 2)
      let s := if s.svNoLock n then s.raise F.SFB_EVT.SV_NOLOCK else s
      if whole then
        let s := (s.ctxReceiving n g).set64 (A.SFB_C_SIX n) g
        let s := if s.ctxState n = 2 then s else s.setCtxState n 2
        some (xs.foldl (fun t e => t.fileSamp n e.1 e.2) s)
      else if s.ctxState n < 2 then some s
      else
        let s := xs.foldl (fun t e => (t.fileSamp n e.1 (missingSamp g (t.lastVal (chKey n e.1)) g)).countMiss n 1) s
        some (s.ctxMissing n g)
    else none
  | none => none

/-! ## Items of the fabric in an image (R87, R88) -/

/-- The latest complete sample of a channel at or before SIX `t` by the start of SIX `k`, going back step by step. -/
def State.latestSamp (s : State) (n c k step : Nat) : Nat → Nat → Option Samp
  | 0, _ => none
  | f + 1, t =>
    match s.sampAt n c t with
    | some x => if x.done < k then some x else if t < step then none else s.latestSamp n c k step f (t - step)
    | none => if t < step then none else s.latestSamp n c k step f (t - step)

/-- The latest complete derived values of a channel tagged at or before `t`. -/
def State.latestDeriv (s : State) (n c k : Nat) : Nat → Nat → Option Deriv
  | 0, _ => none
  | f + 1, t =>
    match s.derivAt n c t with
    | some x => if x.done < k then some x else if t < 100 then none else s.latestDeriv n c k f (t - 100)
    | none => if t < 100 then none else s.latestDeriv n c k f (t - 100)

/-- Tag of the latest base-cycle value at or before `f`. -/
def derivTag (f : Nat) : Nat := (f + 1) / 100 * 100 - 1

/-- Quality with the LATE mark. -/
def lateQ (q : Nat) : Nat := (q ||| qLATE) / 2 * 2

/-- The items of one channel with tag at or before `f`, complete by the start of SIX `k`, as (item code, word), and the number of
values that are not the latest. -/
def State.chanItems (s : State) (n c f k : Nat) : List (Nat × Word) × Nat :=
  let wi : Int → Word := BitVec.ofInt 32
  let wn : Nat → Word := BitVec.ofNat 32
  let grid := s.kind n = 2
  let t0 := if grid then gridAt f else f
  let step := if grid then 25 else 1
  let inst := s.latestSamp n c k step 512 t0
  let dtag := derivTag f
  let d := if 100 ≤ f + 1 then s.latestDeriv n c k 64 dtag else none
  let lateI := inst.all (fun x => x.six != t0)
  let lateD := d.all (fun x => x.tag != dtag)
  let ac := bit (s.rd (A.SFB_C_ACMASK n)).toNat c && s.get (F.SFB_C_CFG.F0SEL n) != 0
  let qi := match inst with
    | some x => if lateI then lateQ x.q else x.q
    | none => lateQ qMISSING
  let qd := fun (q : Nat) => if lateD then lateQ q else q
  let a := [(0, wi ((inst.map Samp.code).getD 0)), (1, wn qi)]
  let b := match d with
    | some x => [(2, wi x.dec), (3, wn (qd x.decQ)), (4, wi x.mean), (5, wi x.rms), (6, wi x.der), (7, wn (qd x.dcQ))]
    | none => [(3, wn (lateQ qMISSING)), (7, wn (lateQ qMISSING))]
  let p := if ac then
      match d with
      | some x => ((List.range x.ph.length).zipWith (fun h z => [(0x10 + 2 * h, wi z.1), (0x11 + 2 * h, wi z.2)]) x.ph).flatten ++
          [(0x2E, wn (qd x.phQ))]
      | none => [(0x2E, wn (lateQ qMISSING))]
    else [(0x2E, wn qMISSING)]
  (a ++ b ++ p, b2n lateI + b2n lateD * (2 + b2n ac))

/-- Items of a channel that holds nothing: value 0, quality 0x04. -/
def emptyItems : List (Nat × Word) := [(1, 4), (3, 4), (7, 4), (0x2E, 4)]

/-- Every item of context `n` in an image, by channel, and the number of LATE marks. -/
def State.ctxItems (s : State) (n f k : Nat) : List (Nat × List (Nat × Word)) × Nat :=
  (List.range 32).foldl (fun acc c =>
    if (s.kind n = 1 ∨ s.kind n = 2) ∧ 2 ≤ s.ctxState n ∧ c < s.nch n then
      let r := s.chanItems n c f k
      ((c, r.1) :: acc.1, acc.2 + r.2)
    else ((c, emptyItems) :: acc.1, acc.2)) ([], 0)

/-! ## Sampled values published (R345, R347) -/

/-- The IEC 61850 quality of a quality byte (R347). -/
def iecQuality (q : Nat) : BitVec 14 :=
  let validity := if bit q 0 then 0 else if !bit q 2 && !bit q 1 && (bit q 3 || bit q 4) then 3 else 1
  BitVec.ofNat 14 (validity + 4 * b2n (bit q 4) + 128 * b2n (bit q 1 || bit q 2) + 512 * b2n (bit q 3) +
    1024 * b2n (bit q 7 || bit q 5) + 2048 * b2n (bit q 6))

/-- Value of an output-image word as released at the latest release at or before SIX `k`. -/
def State.outAt (s : State) (w k : Nat) : Word :=
  match (kvGet (fun _ => []) s.tsk.outHist w).find? (fun e => e.1 ≤ k) with
  | some e => e.2
  | none => 0

/-- A word of the released output image in force at SIX `k` as its consumers take it, under the force then on it (KIND 2). -/
def State.outSeen (s : State) (w k : Nat) : Word := ((histAt (kvGet (fun _ => []) s.tsk.outForced w) k).getD none).getD (s.outAt w k)

/-- The code of the quality item that goes with an item. -/
def qualityItem (item : Nat) : Nat := if item < 2 then 1 else if item < 4 then 3 else if item < 8 then 7 else 0x2E

/-- The value and quality of a source in force at SIX `k`. -/
def State.svValue (s : State) (k : Nat) : SvSource → Int × BitVec 14
  | .item n c it =>
    let r := if (s.kind n = 1 ∨ s.kind n = 2) ∧ 2 ≤ s.ctxState n ∧ c < s.nch n then (s.chanItems n c k (s.six + 1)).1 else emptyItems
    (signed 32 ((r.lookup it).getD 0).toNat, iecQuality ((r.lookup (qualityItem it)).getD 4).toNat)
  | .out w qw => (signed 32 (s.outSeen w k).toNat, iecQuality ((s.outSeen qw k).toNat % 256))

/-- The first sample instant at or after the start of this sample period, by its number since the epoch. -/
def State.svInstant (s : State) (rate : Nat) : Nat := ceilDiv (todNs s.six s.offset * rate) 1000000000

/-- Does that instant lie in this sample period? -/
def State.svNow (s : State) (rate : Nat) : Bool := s.svInstant rate * 1000000000 < (todNs s.six s.offset + 500) * rate

/-- Context `n` takes the ASDU of the instant that lies in this period, unless it lies at or before the last one taken. -/
def State.svCollect (s : State) (n : Nat) (p : SvPub) : State :=
  let e := s.ethCtx n
  let i := s.svInstant p.rate
  if s.svNow p.rate = true ∧ s.kind n = 3 ∧ e.svLast.all (fun l => l < i) then
    let a : Asdu := ⟨i % p.rate, if s.flag F.TIM_STATUS.VALID then 2 else 0, p.sources.map (s.svValue (s.six - 20))⟩
    s.setEthCtx n { e with svLast := some i, asdus := e.asdus ++ [a] }
  else s

/-- Every publication takes its ASDU at the start of the period, while P10 runs. -/
def State.svCollectAll (s : State) : State :=
  if s.ethOn then s.fp.svPub.foldl (fun t e => t.svCollect e.1 e.2) s else s

/-- SV_PUBLISH (R345): a frame leaves once it holds its last ASDU. -/
def execSvPublish (n : Fin 256) (s : State) : Host.Outcome State Fault Refusal :=
  let e := s.ethCtx n
  match s.fp.svPub.lookup n.val with
  | some p =>
    if s.ethOn && s.kind n == 3 && decide (0 < p.asdus ∧ p.asdus ≤ e.asdus.length) then
      let as := e.asdus.take p.asdus
      let s := s.setEthCtx n { e with asdus := e.asdus.drop p.asdus }
      let s := s.ethSend (s.get (F.ETH_C_STAT.PAIR n)) p.pcp (.sv n as)
      .next ((s.set (F.ETH_C_SQNUM.NUM n) ((as.map Asdu.smpCnt).getLastD 0)).set64 (A.ETH_C_LAST n) s.six)
    else .next s
  | none => .next s

/-! ## Host frame queues (R348, R349) -/

/-- HRX_DROP and HTX_DENY count, with HQ_ERR. -/
def State.hqErr (s : State) (f : Field) : State := (s.bump f).raise F.ETH_EVT.HQ_ERR

/-- Address of the descriptor with an index in the ring at `base`. -/
def ringDesc (base idx : Nat) : Nat := base + 16 * idx

/-- The index after `i` in a ring of 2^LOG2N descriptors. -/
def ringNext (log2n i : Nat) : Nat := (i + 1) % 2 ^ log2n

/-- HOST_RX_FRAME (R348): the oldest frame routed to the host. -/
def execHostRxFrame (s : State) : Host.Outcome State Fault Refusal :=
  match s.takeWaiting (fun r => r.ctx.isNone) with
  | none => .next s
  | some (r, t) =>
    let lg := t.get F.ETH_HRX_CTL.LOG2N
    let head := t.get F.ETH_HRX_IDX.HEAD
    if !t.flag F.ETH_HRX_CTL.EN || ringNext lg head == t.get F.ETH_HRX_IDX.TAIL % 2 ^ lg then .next (t.hqErr F.ETH_HQ_CNT.HRX_DROP)
    else
      let d := ringDesc (t.get64 A.ETH_HRX_BASE) head
      let buf := t.loadNat spHost d 8
      let room := t.loadNat spHost (d + 8) 2
      let bs := r.frame.bytes
      let t := t.storeBytes spHost buf (bs.take room)
      let st := 1 + 2 * b2n (decide (room < bs.length)) + 4 * b2n r.frame.tagged
      let t := t.storeBytes spHost (d + 8) (leBytes 2 bs.length ++ leBytes 1 st ++ leBytes 1 r.port ++ leBytes 4 r.six)
      .next ((t.set F.ETH_HRX_IDX.HEAD (ringNext lg head)).raise F.ETH_EVT.HRX)

/-- EtherType of a host frame after its tag, if one stands. -/
def hostEtherType (bs : List Byte) : Nat :=
  let at_ := fun i => (bs.getD i 0).toNat * 256 + (bs.getD (i + 1) 0).toNat
  if at_ 12 = 0x8100 then at_ 16 else at_ 12

/-- EtherTypes that the host cannot send (R349). -/
def deniedTypes : List Nat := [0x88B8, 0x88BA, 0x88F7, 0x88FB, 0x892F]

/-- HOST_TX_SEND (R349): the frame at HEAD is sent on pair 1 or denied. -/
def execHostTxSend (s : State) : Host.Outcome State Fault Refusal :=
  let lg := s.get F.ETH_HTX_CTL.LOG2N
  let head := s.get F.ETH_HTX_IDX.HEAD
  if s.ethOn && s.flag F.ETH_HTX_CTL.EN && head != s.get F.ETH_HTX_IDX.TAIL % 2 ^ lg then
    let d := ringDesc (s.get64 A.ETH_HTX_BASE) head
    let len := s.loadNat spHost (d + 8) 2
    let bs := s.loadBytes spHost (s.loadNat spHost d 8) len
    let src := leNat ((bs.drop 6).take 6)
    let deny := len < 60 ∨ 1518 < len ∨ deniedTypes.contains (hostEtherType bs) ∨ src ≠ s.pairMac 1
    let s := if deny then s.hqErr F.ETH_HQ_CNT.HTX_DENY else s.ethSend 1 0 (.host bs)
    let s := s.storeBytes spHost (d + 10) (leBytes 1 (if deny then 2 else 1))
    .next ((s.set F.ETH_HTX_IDX.HEAD (ringNext lg head)).raise F.ETH_EVT.HTX_DONE)
  else .next s

/-! ## Power of P10 (R337, R342, R349) -/

/-- A context that is given a kind, or another subscription of the same kind, starts anew: IDLE, ARMED, or RUN for what the engine
publishes (R86). -/
def State.ctxAnew (s : State) (n : Nat) : State :=
  let k := s.kind n
  let s := (s.setCtx n Ctx.reset).setEthCtx n EthCtx.reset
  let last := s.fab.last.filter (fun e => e.1 / 32 != n)
  ({ s with fab := { s.fab with last := last } } : State).setCtxState n (if k = 0 then 0 else if k = 3 ∨ k = 5 then 2 else 1)

/-- The contexts that receive from the Ethernet ports (kinds 2 and 4) start anew. -/
def State.subsAnew (s : State) : State :=
  (List.range 256).foldl (fun t n => if t.kind n = 2 ∨ t.kind n = 4 then t.ctxAnew n else t) s

/-- P10 goes off: links, subscriptions and publications stop. -/
def State.ethPowerDown (s : State) : State :=
  let s := [0, 1, 2, 3].foldl (fun t p => (if t.startPort p then t else t.setLink p false).setLan p false) (s.set F.ETH_STATUS.POWERED 0)
  let off := s.eth.ctx.map (fun e => (e.1, { e.2 with pubOn := false, asdus := [] }))
  ({ s with eth := { s.eth with waiting := [], ctx := off.filter (fun e => e.2 ≠ EthCtx.reset) } } : State).subsAnew

/-- P10 runs again at a return to SERVICE: both rings are emptied and disabled, publications restart. -/
def State.ethPowerUp (s : State) : State :=
  let s := (s.set F.ETH_STATUS.POWERED 1).set F.ETH_HRX_CTL.EN 0
  let s := (s.set F.ETH_HTX_CTL.EN 0).set F.ETH_HRX_IDX.HEAD (s.get F.ETH_HRX_IDX.TAIL)
  (s.set F.ETH_HTX_IDX.HEAD (s.get F.ETH_HTX_IDX.TAIL)).gooseRestart

end Sys2Proof.Machine
end

