-- ==== Sys2Proof/Machine/Img.lean ====
section
/-!
DEFINITION. Machine/Img.lean: when cycles are released and end (R30, R181, R186), the forces in effect (R243), and the frozen input
image of a cycle (R33, R87, R88, R187, R188, R192).
-/
namespace Sys2Proof.Machine
open Sys2Proof

/-! ## Tasks, lanes and instants -/

/-- The table entry of task `t` in the running program image. -/
def State.task (s : State) (t : Nat) : Option Task := s.tasks.find? (fun k => k.tid == t)

/-- The number of the partition that holds task `t`. -/
def State.partNo (s : State) (t : Nat) : Nat := ((s.partOf t).map Partition.part).getD 0

/-- Period of a cyclic task, or 100 times DE of an event task, in samples (R180, R181). -/
def taskPeriod (t : Task) : Nat := 100 * t.m

/-- The input alignment allowance A (R33). -/
def State.align (s : State) : Nat := s.get F.SFB_ALIGN.A

/-- The lane that serves partition `p`. -/
def State.serviceLane (s : State) (p : Nat) : Option Nat :=
  [0, 1, 2, 3].find? (fun n => s.get (F.LNE_L_STATE.ROLE n) == 1 && s.get (F.LNE_L_STATE.PART n) == p)

/-- The spare lane. -/
def State.spareLane (s : State) : Option Nat := [0, 1, 2, 3].find? (fun n => s.get (F.LNE_L_STATE.ROLE n) == 2)

/-- Is a takeover of partition `p` in progress? -/
def State.inTakeover (s : State) (p : Nat) : Bool := s.tsk.tko.any (fun k => k.part == p)

/-- Is cyclic task `t` to be released at this SIX, and has not been? -/
def State.cycleDue (s : State) (t : Task) : Bool :=
  s.tsk.up && !t.event && decide (s.tsk.start ≤ s.six) && s.six % taskPeriod t == 0 && (s.taskRt t.tid).prevRel != some s.six &&
  (s.cycle t.tid).isNone

/-- The conditions of R186 for an event task with this record and these pending tags. -/
def State.eventReady (s : State) (t : Task) (x : TaskRt) : Bool :=
  s.six % baseCycle == 0 && x.pend.any (fun g => g.1 + s.align ≤ s.six) && decide (x.prevEnd ≤ s.six) &&
  x.prevRel.all (fun r => r + baseCycle * t.minint ≤ s.six)

/-- Is event task `t` to be released at this SIX? -/
def State.eventDue (s : State) (t : Task) : Bool :=
  s.tsk.up && t.event && s.eventReady t (s.taskRt t.tid) && (s.cycle t.tid).isNone && !s.inTakeover (s.partNo t.tid)

/-- Is task `t` to be released at this SIX? -/
def State.releaseDue (s : State) (t : Task) : Bool := s.cycleDue t || s.eventDue t

/-- Is a live cycle of task `t` at its output release? -/
def State.outputDue (s : State) (t : Nat) : Bool := (s.cycle t).any (fun c => c.rel + c.period == s.six)

/-! ## Forces (R243 to R245) -/

def State.frcAt (s : State) (n : Nat) : FrcSt := kvGet (fun _ => FrcSt.reset) s.frc n

def State.setFrc (s : State) (n : Nat) (x : FrcSt) : State := { s with frc := kvPut (fun _ => FrcSt.reset) s.frc n x }

/-- The history of the forces on these output words follows them. -/
def State.noteForced (s : State) (ws : List Nat) : State :=
  ws.foldl (fun t w =>
    let h := kvGet (fun _ => []) t.tsk.outForced w
    let v := t.forcedOut w
    if (h.head?.map Prod.snd).getD none = v then t
    else { t with tsk := { t.tsk with outForced := kvPut (fun _ => []) t.tsk.outForced w (noteHist 64 t.six v h) } }) s

/-- The output words that force entry `n` names. -/
def State.forceOuts (s : State) (n : Nat) : List Nat :=
  match (s.frcAt n).bound with
  | some y =>
    (match y.target with
     | .out w => [w, w + 1]
     | _ => [])
  | none => []

/-- Samples from a kick to the first SIX at which it can act (R244). -/
def forceDelay : Nat := 20

/-- The task at whose release (true) or output release (false) a force on this target takes effect (R244). -/
def State.forceTask (s : State) : SymTarget → Option (Bool × Nat)
  | .item t _ => some (true, t)
  | .region t _ => some (true, t)
  | .noun id _ => ((s.tasks.find? (fun t => (s.partOf t.tid).any (fun p =>
      p.nouns.any (fun n => n.id == id && n.task == t.tid)))).map Task.tid).map (fun t => (true, t))
  | .out w => ((s.tasks.find? (fun t => (s.partOf t.tid).any (fun p => p.outputs.any (fun r =>
      r.task == t.tid && decide (r.first ≤ w) && decide (w < r.first + r.count))))).map Task.tid).map (fun t => (false, t))
  | .shelf id _ => ((s.tasks.find? (fun t => (s.partOf t.tid).any (fun p =>
      p.shelves.any (fun h => h.id == id && h.writer == t.tid)))).map Task.tid).map (fun t => (false, t))
  | .gate _ => none

/-- KIND of a target (R243). -/
def forceKind : SymTarget → Nat
  | .item _ _ => 0
  | .region _ _ => 0
  | .noun _ _ => 1
  | .out _ => 2
  | .shelf _ _ => 3
  | .gate _ => 4

/-- FRC_STATUS counts the active forces and marks their partitions. -/
def State.forceCounts (s : State) : State :=
  let act := (List.range 256).filter (fun n => s.flag (F.FRC_E_CTL.ACTIVE n))
  let mask := [0, 1, 2].foldl (fun m p => m + b2n (act.any (fun n => s.get (F.FRC_E_CTL.PART n) == p)) * 2 ^ p) 0
  (s.set F.FRC_STATUS.ACTIVE_N act.length).set F.FRC_STATUS.PARTMASK mask

/-- Has partition `p` an active force? -/
def State.partForced (s : State) (p : Nat) : Bool := bit (s.get F.FRC_STATUS.PARTMASK) p

/-- Every open live cycle of partition `p` becomes unclean. -/
def State.uncleanAll (s : State) (p : Nat) : State :=
  { s with tsk := { s.tsk with cyc := s.tsk.cyc.map (fun e =>
    (e.1, e.2.map (fun c => if c.part = p ∧ c.kind = 0 then { c with unclean := true } else c))) } }

/-- The Cellar entry of a force's activation, value change or end (R244). -/
def State.forceEntry (s : State) (name : String) (n : Nat) : State :=
  s.logNamed name (leBytes 2 n ++ leBytes 8 (s.get64 (A.FRC_E_SYM n)) ++ leBytes 8 (s.get64 (A.FRC_E_VAL n)) ++ leBytes 8 s.six)

/-- The force of entry `n` takes effect. -/
def State.forceOn (s : State) (n : Nat) : State :=
  let x := s.frcAt n
  let s := s.setFrc n { x with val := s.get64 (A.FRC_E_VAL n), newVal := [] }
  let s := ((s.set (F.FRC_E_CTL.ACTIVE n) 1).set (F.FRC_E_CTL.PENDING n) 0).set64 (A.FRC_E_SIX n) s.six
  (((s.noteForced (s.forceOuts n)).forceCounts.uncleanAll (s.get (F.FRC_E_CTL.PART n))).raise F.FRC_EVT.SET).forceEntry "FRC_SET" n

/-- The registers of a cleared entry: SYM, VAL, TYPE, SIX and what it was bound to are gone; REASON stays (R246). -/
def State.forceBlank (s : State) (n : Nat) : State :=
  let s := ((s.set64 (A.FRC_E_SYM n) 0).set64 (A.FRC_E_VAL n) 0).set64 (A.FRC_E_SIX n) 0
  ((s.set (F.FRC_E_CTL.TYPE n) 0).set (F.FRC_E_CTL.PART n) 0).set (F.FRC_E_CTL.KIND n) 0

/-- The force of entry `n` ends, with a REASON (0 leaves it, 6 clears the entry); one that never became active ends without event or Cellar
entry. -/
def State.forceOff (s : State) (n reason : Nat) : State :=
  let was := s.flag (F.FRC_E_CTL.ACTIVE n)
  let ws := s.forceOuts n
  let s := s.setFrc n FrcSt.reset
  let s := ((s.set (F.FRC_E_CTL.ACTIVE n) 0).set (F.FRC_E_CTL.PENDING n) 0).noteForced ws
  let s := if reason = 0 then s else s.set (F.FRC_E_CTL.REASON n) reason
  let s := if was then (s.forceCounts.raise F.FRC_EVT.CLEARED).forceEntry "FRC_CLEARED" n else s
  if reason = 6 then s.forceBlank n else s

/-- A newer value of an active force takes effect. -/
def State.forceNew (s : State) (n : Nat) : State :=
  let x := s.frcAt n
  match x.newVal.find? (fun v => v.2 + forceDelay ≤ s.six) with
  | some v =>
    let t := s.setFrc n { x with val := v.1, newVal := x.newVal.takeWhile (fun u => s.six < u.2 + forceDelay) }
    ((t.noteForced (t.forceOuts n)).set64 (A.FRC_E_SIX n) s.six).forceEntry "FRC_VALUE" n
  | none => s

/-- Entry `n` at a SIX of its kind (R244): it ends, becomes active or takes a newer value. -/
def State.forceTurn (s : State) (n : Nat) : State :=
  let x := s.frcAt n
  if x.endSix.any (fun d => d + forceDelay ≤ s.six) then s.forceOff n (if x.cleared then 6 else 0)
  else if s.flag (F.FRC_E_CTL.PENDING n) then (if x.armSix + forceDelay ≤ s.six then s.forceOn n else s)
  else if s.flag (F.FRC_E_CTL.ACTIVE n) then s.forceNew n
  else s

/-- The entries bound to targets that take effect at the release (or output release) of task `t`. -/
def State.forcesOf (s : State) (rel : Bool) (t : Nat) : List Nat :=
  (s.frc.filter (fun e => e.2.bound.any (fun y => s.forceTask y.target == some (rel, t)))).map Prod.fst

/-- Every force entry that can act at the release (or output release) of task `t` does so. -/
def State.forceTurns (s : State) (rel : Bool) (t : Nat) : State := (s.forcesOf rel t).foldl State.forceTurn s

/-- The force on an item of a task's image, and on a word of its region (KIND 0). -/
def State.forcedItem (s : State) (t key : Nat) : Option Word :=
  s.forced (fun y => match y.target with
    | .item u k => if u = t then hitWord y.typ k 1 key else none
    | _ => none)

def State.forcedRegion (s : State) (t off : Nat) : Option Word :=
  s.forced (fun y => match y.target with
    | .region u o => if u = t then hitWord y.typ o 4 off else none
    | _ => none)

/-- The force on a shelf word (KIND 3). -/
def State.forcedShelf (s : State) (id w : Nat) : Option Word :=
  s.forced (fun y => match y.target with
    | .shelf i x => if i = id then hitWord y.typ x 1 w else none
    | _ => none)

/-! ## The region of R187 -/

/-- A mask of `n` bits. -/
def maskOf (n : Nat) (p : Nat → Bool) : Nat := (List.range n).foldl (fun m i => m + b2n (p i) * 2 ^ i) 0

/-- Words `i = 0, 1, …` of a mask, at byte offset `off` on. -/
def maskWords (off n m : Nat) : List (Nat × Word) :=
  (List.range n).map (fun i => (off + 4 * i, BitVec.ofNat 32 (m / 2 ^ (32 * i))))

/-- The byte of a station at SIX `f`, with LATE_APPLY since `fp`. -/
def State.stationAt (s : State) (p f fp : Nat) : Nat :=
  let x := s.port p
  (histAt x.byteHist f).getD 0 ||| (16 * b2n (x.lateSix.any (fun k => fp < k && k ≤ f)))

/-- TASK of R187. -/
def State.taskWord (x : TaskRt) (coal : Nat) : Nat :=
  b2n x.clean + 2 * b2n x.aborted + 4 * b2n x.lost + 8 * b2n x.prevRel.isNone + 256 * min coal 255

/-- Offsets 0x000 to 0x03F of the region: freeze SIX `f`, previous freeze `fp`, release `k`. -/
def State.regionHead (s : State) (x : TaskRt) (f fp k coal : Nat) : List (Nat × Word) :=
  let intj := maskOf 128 (fun r => (kvGet (fun _ => []) s.inj.intj r).any (fun e => fp < e.1 && e.1 ≤ f && e.2.1 < k))
  let state := maskOf 32 (fun n => (s.presentedAt n f).any Prod.fst)
  let valid := maskOf 32 (fun n => (s.presentedAt n f).any Prod.snd)
  let trans := maskOf 32 (fun n => (s.binIn n).confs.any (fun c => fp < c && c ≤ f))
  let pers := maskOf 32 (fun n => (histAt (s.binIn n).persHist f).getD false)
  let stations := (List.range 12).foldl (fun m i => m + s.stationAt (32 + i) f fp * 256 ^ i) 0
  maskWords 0 4 intj ++ maskWords 0x10 1 state ++ maskWords 0x14 1 valid ++ maskWords 0x18 1 trans ++ maskWords 0x1C 1 pers ++
    maskWords 0x20 2 (gatesAt s.inj.gates k) ++ maskWords 0x28 1 (State.taskWord x coal) ++ maskWords 0x30 3 stations

/-! ## Declared items (R188, R192, R341, R360) -/

/-- Quality, tag and content of an item as words. -/
def itemWords (q tag : Nat) (ws : List Word) : List Word := BitVec.ofNat 32 q :: BitVec.ofNat 32 tag :: ws

/-- A received dataset with latest tag at or before `f`, complete by the start of SIX `k`; LATE when a later one is on its way. -/
def State.datasetItem (s : State) (n f k : Nat) (late missing : Bool) : List Word × Bool :=
  match (s.ctx n).data.find? (fun d => d.at_ ≤ f && d.done < k) with
  | none => (itemWords (if late then lateQ qMISSING else qMISSING) 0 [], late)
  | some d =>
    let newer := (s.ctx n).data.any (fun e => e.at_ ≤ f && d.at_ < e.at_)
    let late := late || newer
    let q := if missing then (d.q ||| qMISSING) / 2 * 2 else d.q
    (itemWords (if late then lateQ q else q) d.tag d.words, late)

/-- The words of a declared item and whether it is LATE. -/
def State.declItem (s : State) (f k : Nat) : DeclKind → List Word × Bool
  | .goose n => s.datasetItem n f k (s.eth.waiting.any (fun r => r.ctx == some n && decide (r.six ≤ f))) false
  | .uch c => (s.uchItem c k, false)
  | .peer n lag words =>
    let p := (kvGet (fun _ => (40, 0)) s.fp.peers n).1
    let x := s.port p
    let id := (kvGet (fun _ => (40, 0)) s.fp.peers n).2
    let coming := x.rx.any (fun r => r.1 == 7) && !x.rxDead && x.shelfId == id && decide (x.shelfIn + lag ≤ f)
    let r := s.datasetItem n (f - lag) k coming (s.portState p != pRUN)
    (r.1.take (words + 2), r.2)

/-- Words placed one after the other from byte offset `off` on. -/
def placeWords (off : Nat) (ws : List Word) : List (Nat × Word) :=
  (List.range ws.length).zipWith (fun i w => (off + 4 * i, w)) ws

/-! ## The image -/

/-- A sparse map of words from a list of entries; a later entry for a key stands. -/
def wordMap (l : List (Nat × Word)) : KV Word := l.foldl (fun m e => kvPut (fun _ => 0) m e.1 e.2) []

/-- LATE marks given to the items of context `n` (R88). -/
def State.countLate (s : State) (n marks : Nat) : State :=
  if marks = 0 then s
  else ((s.bumpBy (F.SFB_C_CNT.LATE n) marks).bumpBy F.SFB_LATE_CNT.LATE marks).raise F.SFB_EVT.LATE

/-- The context of a declared item that has one. -/
def declCtxOf : DeclKind → Option Nat
  | .goose n => some n
  | .peer n _ _ => some n
  | .uch _ => none

/-- The image of task `t` at release `k`, with the LATE marks counted. `front` holds the shelves as published. -/
def State.freeze (s : State) (t : Task) (x : TaskRt) (k coal : Nat) (front : KV (KV Word)) : InImage × State :=
  let f := k - s.align
  let fp := if t.event then x.prevFreeze.getD (s.tsk.start - s.align) else k - taskPeriod t - s.align
  let ctxs := t.declCtx.map (fun n => (n, s.ctxItems n f k))
  let items := (ctxs.map (fun e => (e.2.1.map (fun ch => ch.2.map (fun i => (itemKey e.1 ch.1 i.1, i.2)))).flatten)).flatten
  let decl := t.declItems.map (fun d => (d.1, declCtxOf d.2, s.declItem f k d.2))
  let region := s.regionHead x f fp k coal ++ (decl.map (fun d => placeWords d.1 d.2.2.1)).flatten
  let late := ctxs.any (fun e => e.2.2 != 0) || decl.any (fun d => d.2.2.2)
  let s := ctxs.foldl (fun u e => u.countLate e.1 e.2.2) s
  let s := decl.foldl (fun u d => match d.2.1 with
    | some n => u.countLate n (b2n d.2.2.2)
    | none => u) s
  (⟨wordMap items, wordMap region, max t.region 0x40, front, late⟩, s)

/-- The key of the quality item that goes with an item. -/
def qualityKey (key : Nat) : Nat := key / 256 * 256 + qualityItem (key % 256)

/-- The quality of a forced item (R243): VALID and FORCED, with TEST and SUBST as computed. -/
def forcedQ (q : Word) : Word := BitVec.ofNat 32 ((q.toNat &&& 0xC0) ||| qVALID ||| qFORCED)

/-- One item of the image takes a force's word. -/
def forceItem (m : KV Word) (key : Nat) (w : Word) : KV Word :=
  kvMod (fun _ => 0) (kvPut (fun _ => 0) m key w) (qualityKey key) forcedQ

/-- Keys of image words that the forces of a task name. -/
def State.forcedKeys (s : State) (t : Nat) : List (Bool × Nat) :=
  (s.frc.map (fun e => match e.2.bound with
    | some y =>
      (match y.target with
        | .item u k => if u = t then (if y.typ = 5 then [(true, k), (true, k + 1)] else [(true, k)]) else []
        | .region u o => if u = t then (if y.typ = 5 then [(false, o), (false, o + 4)] else [(false, o)]) else []
        | _ => [])
    | none => [])).flatten

/-- The image under the KIND 0 forces of task `t`. -/
def State.forceImage (s : State) (t : Nat) (img : InImage) : InImage :=
  (s.forcedKeys t).foldl (fun m e =>
    if e.1 then
      match s.forcedItem t e.2 with
      | some w => { m with items := forceItem m.items e.2 w }
      | none => m
    else
      match s.forcedRegion t e.2 with
      | some w => { m with region := kvPut (fun _ => 0) m.region e.2 w }
      | none => m) img

end Sys2Proof.Machine
end

