-- ==== Sys2Proof/Machine/LftCap.lean ====
section
/-!
DEFINITION. Machine/LftCap.lean: what the other units hand to the Loft as it happens: value slots and flags (R256), releases (R255), the
replay capture (R258), value changes and time steps (R277), and the effects of a cycle in the form of R236.
-/
namespace Sys2Proof.Machine
open Sys2Proof

/-! ## CRC-32C (R199) -/

/-- One bit of the reflected CRC-32C. -/
def crc32Bit (c : Nat) : Nat := if c % 2 = 1 then c / 2 ^^^ 0x82F63B78 else c / 2

/-- One byte. -/
def crc32Byte (c : Nat) (b : Byte) : Nat :=
  crc32Bit (crc32Bit (crc32Bit (crc32Bit (crc32Bit (crc32Bit (crc32Bit (crc32Bit (c ^^^ b.toNat))))))))

/-- CRC-32C of a byte list; "123456789" gives 0xE306_9283. -/
def crc32c (bs : List Byte) : Nat := bs.foldl crc32Byte 0xFFFFFFFF ^^^ 0xFFFFFFFF

/-! ## Effects of a cycle (R236) -/

/-- The value of a note in a comparison: the CRC of its code, severity and data. -/
def noteCrc (n : Note) : Word := BitVec.ofNat 32 (crc32c (leBytes 2 n.code ++ leBytes 1 n.sev ++ n.data))

/-- The effects that a completed cycle releases. -/
def Cycle.effects (c : Cycle) : List EffItem :=
  c.ost.filterMap (fun e => e.2.map (fun w => ⟨0, 0, e.1, w⟩)) ++
  (c.shst.map (fun h => h.2.filterMap (fun e => e.2.map (fun w => (⟨1, h.1, e.1, w⟩ : EffItem))))).flatten ++
  c.gset.filterMap (fun e => e.2.map (fun v => ⟨2, e.1, 0, BitVec.ofNat 32 v⟩)) ++
  c.evr.map (fun n => ⟨3, n, 0, 1⟩) ++ c.notes.map (fun n => ⟨4, n.code, 0, noteCrc n⟩)

/-! ## Replay capture (R258) -/

/-- Does the Loft capture? -/
def State.lftRuns (s : State) : Bool := s.flag F.LFT_STATUS.RUN

/-- Does a recipe keep a replay capture of partition `p`? -/
def State.captures (s : State) (p : Nat) : Bool :=
  s.lftRuns && (List.range 8).any (fun r => s.flag (F.LFT_R_CTL.EN r) && s.flag (F.LFT_R_CTL.REPLAY r) && s.get (F.LFT_R_CTL.PART r) == p)

/-- Bytes of the replay ring (R258). -/
def rplRing : Nat := 805306368

/-- Bytes that a capture takes in the layout of R277. -/
def capBytes : RplCap → Nat
  | .nouns _ _ body => 20 + (body.map (fun n => 16 + 4 * n.2.2.length)).sum
  | .image _ _ _ _ size => 16 + size
  | .grid _ _ vals => 8 + 4 * vals.length + (vals.length + 3) / 4 * 4
  | .effects _ _ _ _ items => 16 + 12 * items.length

/-- The SIX of a capture. -/
def capSix : RplCap → Nat
  | .nouns k _ _ => k
  | .image k _ _ _ _ => k
  | .grid k _ _ => k
  | .effects k _ _ _ _ => k

/-- The oldest captures give way until the rest, given oldest first, fits; the SIX after the latest one dropped. -/
def dropCaps : List RplCap → Nat → Nat → List RplCap × Nat × Nat
  | [], n, k => ([], n, k)
  | c :: cs, n, k => if n ≤ rplRing then (c :: cs, n, k) else dropCaps cs (n - capBytes c) (capSix c + 1)

/-- A companion store of `size` bytes at DRAM address `base` takes `n` bytes from byte `pos` on, around its end. -/
def State.companion (s : State) (base size pos n : Nat) : State :=
  let p := s.fresh
  let bs := (List.range n).map (Config.companionByte p.1)
  let k := size - pos % size
  (p.2.storeBytes spDRAM (base + pos % size) (bs.take k)).storeBytes spDRAM base (bs.drop k)

/-- A capture enters the replay ring, at DRAM 0x3_C800_0000. -/
def State.pushCap (s : State) (c : RplCap) : State :=
  let n := s.lft.rplBytes + capBytes c
  let s := s.companion 0x3C8000000 rplRing s.lft.rplPos (capBytes c)
  let s := { s with lft := { s.lft with rplPos := s.lft.rplPos + capBytes c } }
  if n ≤ rplRing then { s with lft := { s.lft with rpl := c :: s.lft.rpl, rplBytes := n } }
  else
    let r := dropCaps (c :: s.lft.rpl).reverse n s.lft.rplFrom
    { s with lft := { s.lft with rpl := r.1.reverse, rplBytes := r.2.1, rplFrom := r.2.2 } }

/-- The words of a noun in the mirror of partition `p`. -/
def State.mirrorNoun (s : State) (p : Nat) (n : Noun) (size : Nat) : List Word :=
  (List.range (size / 4)).map (fun i => s.loadWord spSRAM (mirrorAddr p (n.base + 4 * i)))

/-- NSIZE of a noun by its verb. -/
def nounSize (p : Partition) (n : Noun) : Nat := ((p.verbs[n.verb]?).map Verb.nsize).getD 0

/-- The mirror of a partition, whole. -/
def State.mirrorBody (s : State) (p : Partition) : List (Nat × Nat × List Word) :=
  p.nouns.map (fun n => (n.id, n.layout, s.mirrorNoun p.part n (nounSize p n)))

/-- The capture of the noun states at a hyperboundary (R258). -/
def State.captureNouns (s : State) : State :=
  if s.six % hyperPeriod = 0 ∧ s.get F.LFT_NSNAP.NSNAP ≠ 0 ∧ (s.six / hyperPeriod) % s.get F.LFT_NSNAP.NSNAP = 0 then
    match s.tsk.prog with
    | some g => g.parts.foldl (fun u p => if u.captures p.part then u.pushCap (.nouns u.six p.part (u.mirrorBody p)) else u) s
    | none => s
  else s

/-- The capture of a frozen region. -/
def State.captureImage (s : State) (c : Cycle) : State :=
  if s.captures c.part then s.pushCap (.image c.rel c.tid c.part c.img.region c.img.size) else s

/-- The capture of an output release. -/
def State.captureEffects (s : State) (c : Cycle) (clean : Bool) : State :=
  if s.captures c.part then s.pushCap (.effects s.six c.tid c.part clean (if c.status = 3 then c.effects else [])) else s

/-- Does a task of partition `p` declare context `n`? -/
def State.declaresCtx (s : State) (p n : Nat) : Bool := s.tasks.any (fun t => s.partNo t.tid == p && t.declCtx.contains n)

/-- The kind-2 channels that a task of partition `p` declares, rising. -/
def State.gridKeys (s : State) (p : Nat) : List Nat :=
  (((List.range 256).filter (fun n => s.kind n == 2 && s.declaresCtx p n)).map (fun n => (List.range (s.nch n)).map (chKey n))).flatten

/-- A grid value as a capture holds it: a MISSING one is stored as 0 (R272), and so is one not computed. -/
def State.gridVal (s : State) (g key : Nat) : Nat × Int × Nat :=
  match s.listed key g with
  | some x => (key, if bit x.q 2 then 0 else x.code, x.q)
  | none => (key, 0, qMISSING)

/-- Is this the capture of block `g` for partition `p`? -/
def RplCap.isBlock (c : RplCap) (g p : Nat) : Bool :=
  match c with
  | .grid k q _ => k == g && q == p
  | _ => false

/-- The capture of a block's grid values (R258), one entry per partition with every kind-2 channel it declares; context `n` has just been
computed. -/
def State.captureGrid (s : State) (n g : Nat) : State :=
  (List.range 3).foldl (fun u p =>
    if u.captures p && u.declaresCtx p n then
      let c := RplCap.grid g p ((u.gridKeys p).map (u.gridVal g))
      if u.lft.rpl.any (fun e => e.isBlock g p) then
        { u with lft := { u.lft with rpl := u.lft.rpl.map (fun e => if e.isBlock g p then c else e) } }
      else u.pushCap c
    else u) s

/-! ## Value slots, flags and releases (R255, R256) -/

/-- A history takes a value at this SIX when it differs from the latest. -/
def pushHist {α : Type} [DecidableEq α] (h : List (Nat × α)) (k : Nat) (v : α) (zero : α) : List (Nat × α) :=
  if (h.head?.map Prod.snd).getD zero = v then h else (k, v) :: h.take 4095

/-- Words of the output image that task `t` owns. -/
def taskOwns (p : Partition) (t w : Nat) : Bool :=
  p.outputs.any (fun r => r.task == t && decide (r.first ≤ w) && decide (w < r.first + r.count))

/-- Slots and flags follow an output release of task `t`. -/
def State.lftSlots (s : State) (p : Partition) (t : Nat) : State :=
  let s := p.slots.foldl (fun u e =>
    if taskOwns p t e.2 then
      { u with lft := { u.lft with
        slots := kvMod (fun _ => []) u.lft.slots e.1 (fun h => pushHist h u.six (u.outWord e.2) 0) } }
    else u) s
  match p.flags with
  | some w =>
    if taskOwns p t w then
      { s with lft := { s.lft with
        flags := pushHist s.lft.flags s.six ((s.outWord w).toNat + 2 ^ 32 * (s.outWord (w + 1)).toNat) 0 } }
    else s
  | none => s

/-- REL and CLEAN of the slow-ring line of this boundary take an output release. -/
def State.lftRelease (s : State) (t : Nat) (clean : Bool) : State :=
  if s.lftRuns then
    { s with lft := { s.lft with rels := (s.six, t, clean) :: s.lft.rels.filter (fun e => s.lft.slowNext ≤ e.1) } }
  else s

/-- An event for the EVENTS sections: kept within the ring's depth, and entered into every open record whose range holds it. -/
def State.lftEvent (s : State) (e : LftEvent) : State :=
  let evts := e :: s.lft.evts.filter (fun x => s.six < x.six + ringDepth)
  let arc := s.lft.arc.map (fun r =>
    if r.state = 1 ∧ r.start ≤ e.six ∧ e.six ≤ r.fin then { r with events := e :: r.events } else r)
  if s.lftRuns then { s with lft := { s.lft with evts := evts, arc := arc } } else s

end Sys2Proof.Machine
end

