-- ==== Sys2Proof/Machine/Shd.lean ====
section
/-!
DEFINITION. Machine/Shd.lean: the shadow run's side of a release (R234 to R237): its cycles, what they release into the engine-private
store, and the comparison with the live cycles.
-/
namespace Sys2Proof.Machine
open Sys2Proof

/-! ## The difference log -/

/-- An entry of the difference log (OLC_DIFFj), until the log is full. -/
def State.logDiff (s : State) (src tid six : Nat) (e : EffItem) (ref new : Word) : State :=
  let j := s.olc.diffs
  if j < 16 then
    let s := { s with olc := { s.olc with diffs := j + 1 } }
    let s := (s.set (F.OLC_DIFF_HEAD.TID j) tid).set (F.OLC_DIFF_HEAD.KIND j) e.kind
    let s := (s.set (F.OLC_DIFF_HEAD.SRC j) src).set (F.OLC_DIFF_HEAD.INDEX j) e.index
    let s := (s.wr (A.OLC_DIFF_OFS j) (BitVec.ofNat 32 e.off)).set64 (A.OLC_DIFF_SIX j) six
    (s.wr (A.OLC_DIFF_REF j) ref).wr (A.OLC_DIFF_NEW j) new
  else s

/-- LOAD and START clear the difference log. -/
def State.clearDiffs (s : State) : State :=
  let s := { s with olc := { s.olc with diffs := 0 } }
  (List.range 16).foldl (fun t j =>
    (((t.wr (A.OLC_DIFF_HEAD j) 0).wr (A.OLC_DIFF_OFS j) 0).set64 (A.OLC_DIFF_SIX j) 0).wr (A.OLC_DIFF_REF j) 0 |>.wr (A.OLC_DIFF_NEW j) 0) s

/-! ## Comparison (R236) -/

/-- Do two effects name the same place? -/
def EffItem.same (a b : EffItem) : Bool := a.kind == b.kind && a.index == b.index && a.off == b.off

/-- How often an event is raised, or how notes stand, in a list of effects. -/
def evCount (l : List EffItem) (n : Nat) : Nat := (l.filter (fun e => e.kind == 3 && e.index == n)).length

/-- Differences of stored words and gates: a place that only one side stored is compared with the other side's last released value. -/
def placeDiffs (a b : List EffItem) (lastA lastB : EffItem → Word) : List (EffItem × Word × Word) :=
  let st := fun (l : List EffItem) => l.filter (fun e => e.kind < 3)
  (st a).filterMap (fun e =>
    let v := ((b.find? e.same).map EffItem.val).getD (lastB e)
    if v = e.val then none else some (e, e.val, v)) ++
  (st b).filterMap (fun e =>
    if a.any e.same then none else if lastA e = e.val then none else some (e, lastA e, e.val))

/-- Differences of events: how often each event task is raised. -/
def eventDiffs (a b : List EffItem) : List (EffItem × Word × Word) :=
  (List.range 16).filterMap (fun n =>
    if evCount a n = evCount b n then none
    else some (⟨3, n, 0, 0⟩, BitVec.ofNat 32 (evCount a n), BitVec.ofNat 32 (evCount b n)))

/-- Differences of notes, position by position; a missing note counts as 0. -/
def noteDiffs : List EffItem → List EffItem → List (EffItem × Word × Word)
  | [], [] => []
  | a :: as, [] => (a, a.val, 0) :: noteDiffs as []
  | [], b :: bs => (b, 0, b.val) :: noteDiffs [] bs
  | a :: as, b :: bs =>
    if a.index = b.index ∧ a.val = b.val then noteDiffs as bs else (a, a.val, b.val) :: noteDiffs as bs

/-- Every differing effect of a pair of cycles: item, reference value, new value. -/
def effectDiffs (a b : List EffItem) (lastA lastB : EffItem → Word) : List (EffItem × Word × Word) :=
  let notes := fun (l : List EffItem) => l.filter (fun e => e.kind == 4)
  placeDiffs a b lastA lastB ++ eventDiffs a b ++ noteDiffs (notes a) (notes b)

/-- The last released value of a place in the live partition and in the shadow. -/
def State.liveLast (s : State) (e : EffItem) : Word :=
  if e.kind = 0 then kvGet (fun _ => 0) s.tsk.out e.off
  else if e.kind = 1 then kvGet (fun _ => 0) (kvGet (fun _ => []) s.tsk.back e.index) e.off
  else BitVec.ofNat 32 (b2n (bit (gatesAt s.inj.gates s.six) e.index))

def State.shadowLast (s : State) (e : EffItem) : Word :=
  if e.kind = 0 then kvGet (fun _ => 0) s.olc.out e.off
  else if e.kind = 1 then kvGet (fun _ => 0) (kvGet (fun _ => []) s.olc.back e.index) e.off
  else BitVec.ofNat 32 (b2n (bit s.olc.gates e.index))

/-- A pair that is not comparable, and one that is compared (R237). -/
def State.pairSkipped (s : State) : State := s.bump F.OLC_SHD_NOCMP.COUNT

def State.pairCompared (s : State) (t : Nat) (ds : List (EffItem × Word × Word)) : State :=
  let s := s.bump F.OLC_SHD_CMP.COUNT
  if ds.isEmpty then s
  else
    let first := s.get F.OLC_SHD_DIFF.COUNT = 0
    let s := s.bump F.OLC_SHD_DIFF.COUNT
    let s := if first then (s.set64 A.OLC_SHD_FIRST s.six).raise F.OLC_EVT.DIFF else s
    ds.foldl (fun u d => u.logDiff 0 t u.six d.1 d.2.1 d.2.2) s

/-! ## Shadow cycles (R234, R235) -/

/-- Key of the shadow's cycle of task `t`. -/
def shadowKey (t : Nat) : Nat := t + 64

/-- The table entry of task `t` in the new image. -/
def State.shadowTask (s : State) (t : Nat) : Option Task :=
  match s.olc.img with
  | some p => p.tasks.find? (fun k => k.tid == t)
  | none => none

/-- Shelves as the shadow sees them: its own partition's from its copies, the others as published. -/
def State.shadowFront (s : State) : KV (KV Word) :=
  match s.olc.img with
  | some p => p.shelves.foldl (fun m h => kvPut (fun _ => []) m h.id (kvGet (fun _ => []) s.olc.front h.id)) s.tsk.front
  | none => s.tsk.front

/-- A fresh cycle of a task. -/
def freshCycle (t : Task) (part lane kind rel : Nat) (img : InImage) (unclean : Bool) : Cycle :=
  { tid := t.tid, part := part, lane := lane, kind := kind, status := 0, rel := rel, period := taskPeriod t, prio := t.prio,
    fmask := t.fmask, event := t.event, overrun := false, unclean := unclean, regs := [], flg := 0, nb := 0, pc := 0, lim := none,
    frames := [], loops := [], img := img, ost := [], shst := [], gset := [], evr := [], notes := [], drops := 0, journal := [],
    exec := 0, ended := rel }

/-- The cycle as a pre-emption leaves it: a LIM that waits for its LOOP has not been executed, for the two are indivisible (R164). -/
def Cycle.beforeLim (c : Cycle) : Cycle := if c.lim.isSome then { c with lim := none, pc := c.pc - 4, exec := c.exec - 1 } else c

/-- A lane runs the most urgent of its cycles: one of higher priority pre-empts (R182, R183). -/
def State.preempt (s : State) (ln : Nat) : State :=
  match s.running ln, s.nextCycle ln with
  | some c, some d =>
    if d.prio < c.prio then ((s.setStatus c.beforeLim 2).setLane ln { s.lane ln with run := none }).schedule ln else s
  | _, _ => s.schedule ln

/-- The shadow's cycle of task `t` starts with the image given. -/
def State.shadowRelease (s : State) (t : Nat) (img : InImage) : State :=
  match s.shadowTask t with
  | some k =>
    if (s.cycle (shadowKey t)).isSome then s
    else
      let c := freshCycle k s.chgPart s.olc.lane 1 s.six { img with shelves := s.shadowFront } false
      let x := s.shadowRt t
      let s := s.setShadowRt t { x with prevRel := some s.six, prevFreeze := some (s.six - s.align), pend := [] }
      (s.putCyc c).preempt s.olc.lane
  | none => s

/-- The shadow's completed effects go into its own store; events wait for its own tasks. -/
def State.shadowApply (s : State) (c : Cycle) : State :=
  if c.status = 3 then
    let out := c.ost.foldl (fun m e => kvPut (fun _ => 0) m e.1 (e.2.getD 0)) s.olc.out
    let back := c.shst.foldl (fun m h =>
      kvPut (fun _ => []) m h.1 (h.2.foldl (fun k e => kvPut (fun _ => 0) k e.1 (e.2.getD 0)) (kvGet (fun _ => []) m h.1))) s.olc.back
    let gates := c.gset.foldl (fun m e => m - b2n (bit m e.1) * 2 ^ e.1 + (e.2.getD 0) % 2 * 2 ^ e.1) s.olc.gates
    let s := { s with olc := { s.olc with out := out, back := back, gates := gates } }
    c.evr.foldl (fun u n => u.pendShadow (32 + n) (u.six - u.align) true) s
  else s

/-- The pair of the live cycle `c` and the shadow's cycle of the same release is counted (R236, R237); `clean` is the live cycle's bit. -/
def State.shadowCompare (s : State) (c : Cycle) (clean : Bool) : State :=
  match s.cycle (shadowKey c.tid) with
  | some d =>
    if d.kind ≠ 1 ∨ d.rel ≠ c.rel then s
    else if clean = false ∨ d.status ≠ 3 ∨ s.olc.nocmp.contains c.tid then s.pairSkipped
    else s.pairCompared c.tid (effectDiffs (if c.status = 3 then c.effects else []) d.effects s.liveLast s.shadowLast)
  | none => s

/-- The shadow's cycle of task `t` whose output release falls at this SIX is over. -/
def State.shadowEnd (s : State) (t : Nat) : State :=
  match s.cycle (shadowKey t) with
  | some d =>
    if d.kind = 1 ∧ d.rel + d.period = s.six then
      let s := if d.status < 3 then s.endCycle { d with overrun := true } 4 else s
      let d := (s.cycle (shadowKey t)).getD d
      let x := s.shadowRt t
      let s := s.setShadowRt t { x with prevEnd := s.six }
      (s.shadowApply d).setCycle (shadowKey t) none
    else s
  | none => s

end Sys2Proof.Machine
end

