-- ==== Sys2Proof/Machine/Load.lean ====
section
/-!
DEFINITION. Machine/Load.lean: the checks of a program image (R174 to R180, R188, R189, R191, R199, R206 to R208), loading lanes and
nouns, the Pantry's registers and restore (R199, R202), and how changes, replays, forces and value-change batches end early.
-/
namespace Sys2Proof.Machine
open Sys2Proof

/-! ## Checks of an image -/

/-- Do two byte ranges share a byte? -/
def rangesMeet (a n b m : Nat) : Bool := decide (a < b + m) && decide (b < a + n)

/-- Does `p` hold of every two elements of a list, in order? -/
def everyPair {α : Type} (p : α → α → Bool) : List α → Bool
  | [] => true
  | x :: xs => xs.all (p x) && everyPair p xs

/-- R175. -/
def verbOk (p : Partition) (v : Verb) : Bool :=
  v.entry % 4 == 0 && decide (v.entry < 4 * p.code.length) && decide (4 ≤ v.nsize) && decide (v.nsize ≤ 262144) && v.nsize % 4 == 0 &&
  decide (v.psize ≤ v.nsize) && v.psize % 4 == 0 && decide (v.maxstg ≤ 512) && decide (v.vflags ≤ 1)



/-- Is the lag of a peer item within its range (R192)? -/
def lagOk : DeclKind → Bool
  | .peer _ lag _ => decide (lag ≤ 20000)
  | _ => true

/-- R176, R177 and R205 for one noun: it lies within lane data memory. -/
def nounOk (p : Partition) (n : Noun) : Bool :=
  decide (n.verb < p.verbs.length) && decide (16 ≤ n.base) && n.base % 8 == 0 && decide (n.base + nounSize p n ≤ dataBytes) &&
  n.headVerb == n.verb && p.tasks.any (fun t => t.tid == n.task)

/-- R180, R188 and R192 for one task; its entry noun has the entry verb and belongs to it. -/
def taskOk (p : Partition) (t : Task) : Bool :=
  (if t.event then decide (32 ≤ t.tid) && decide (t.tid < 48) && decide (1 ≤ t.minint) && decide (t.minint ≤ 2000)
   else decide (t.tid < 32) && t.m != 0 && 2000 % t.m == 0) &&
  decide (1 ≤ t.m) && decide (t.m ≤ 2000) && decide (t.prio < 32) && decide (t.fmask < 8) && decide (t.region ≤ 65536) &&
  t.declItems.all (fun d => lagOk d.2) &&
  (match p.nouns[t.entryNoun]? with
   | some n => n.task == t.tid && n.verb == t.entryVerb
   | none => false)

/-- The tasks of the partition to which a region applies. -/
def regionTasks (p : Partition) (g : Region) : List Nat :=
  (p.tasks.map Task.tid).filter (fun t => g.task == 63 || g.task == t)

/-- Do two regions cover a common byte of one space? -/
def regionsMeet (g h : Region) : Bool :=
  g.en && h.en && g.space == h.space && decide (g.base ≤ h.limit) && decide (h.base ≤ g.limit)

/-- R206 to R208 for one region: no grant on a noun, no shared write, common SRAM only in the partition's area, code execute only. -/
def regionOk (p : Partition) (g : Region) : Bool :=
  decide (g.space < 3) && (decide (g.task < 48) || g.task == 63) &&
  (!g.en ||
    ((g.space != 1 || !(g.r || g.w) ||
      p.nouns.all (fun n => !rangesMeet (64 * g.base) (64 * (g.limit + 1 - g.base)) (n.base - 16) (16 + nounSize p n))) &&
     (!g.w || decide ((regionTasks p g).length ≤ 1)) &&

     (g.space != 2 || (decide (0xB00000 + 0x100000 * p.part ≤ 64 * g.base) && decide (64 * g.limit + 64 ≤ 0xC00000 + 0x100000 * p.part))) &&
     (g.space != 0 || !(g.r || g.w))))

/-- R208: regions of different tasks that share a byte grant no write. -/
def regionsApart (p : Partition) (g h : Region) : Bool :=
  !regionsMeet g h || !(g.w || h.w) ||
  (regionTasks p g).all (fun t => (regionTasks p h).all (fun u => t == u))

/-- Bytes of a partition's nouns with headers, of its constants, and of its scratch frames. -/
def nounBytes (p : Partition) : Nat := (p.nouns.map (fun n => 16 + nounSize p n)).sum
def constBytes (p : Partition) : Nat := 4 * p.consts.length
def scratchBytes (p : Partition) : Nat := (p.scratch.map Prod.snd).sum

/-- What R174 to R177, R180, R188, R206 and R207 ask of one partition image. -/
def partOk (p : Partition) : Bool :=
  decide (p.part < 3) && decide (4 * p.code.length ≤ 1048576) && decide (nounBytes p + constBytes p ≤ 2097152) &&
  decide (nounBytes p + constBytes p + scratchBytes p ≤ 2097152) && p.verbs.all (verbOk p) && p.nouns.all (nounOk p) &&
  everyPair (fun a b => a.id != b.id && !rangesMeet (a.base - 16) (16 + nounSize p a) (b.base - 16) (16 + nounSize p b)) p.nouns &&
  p.tasks.all (taskOk p) && decide (p.regions.length ≤ 16) && p.regions.all (regionOk p) && everyPair (regionsApart p) p.regions

/-- Period of the exchange of a shelf (R189, R190): of its cyclic writer and readers, 100 where there is none. -/
def shelfPeriod (ts : List Task) (h : Shelf) : Nat :=
  (ts.filter (fun t => !t.event && (t.tid == h.writer || t.declShelves.contains h.id))).foldl
    (fun q t => Nat.lcm q (taskPeriod t)) 100

/-- R189 and R191 for one shelf. -/
def shelfOk (ts : List Task) (h : Shelf) : Bool :=
  decide (1 ≤ h.words) && decide (h.words ≤ 4096) && decide (h.id < 1024) && ts.any (fun t => t.tid == h.writer) &&
  (h.peers == 0 || (decide (4 * h.words ≤ 12276) && decide (4 * h.words ≤ 60 * shelfPeriod ts h)))

/-- Bytes of the retentive nouns with their record headers (R199). -/
def retentiveBytes (p : Partition) : Nat := ((p.nouns.filter Noun.retentive).map (fun n => 16 + nounSize p n)).sum

/-- What a program image must meet (R174 to R180, R188, R189, R191, R193, R199, R206 to R208). -/
def progOk (g : ProgImage) : Bool :=
  let ts := (g.parts.map Partition.tasks).flatten
  let ns := (g.parts.map Partition.nouns).flatten
  let hs := (g.parts.map Partition.shelves).flatten
  let cs := (g.parts.map Partition.cmdMap).flatten
  decide (g.parts.length ≤ 3) && g.parts.all partOk && everyPair (fun a b => a.part != b.part) g.parts &&
  decide ((g.parts.map (fun p => p.verbs.length)).sum ≤ 1024) && decide (ns.length ≤ 65536) &&
  everyPair (fun a b => a.tid != b.tid) ts && everyPair (fun (a b : Noun) => a.id != b.id) ns &&
  decide (hs.length ≤ 1024) && decide ((hs.map (fun h => 8 * h.words)).sum ≤ 4194304) && everyPair (fun (a b : Shelf) => a.id != b.id) hs &&
  hs.all (shelfOk ts) && cs.all (fun c => decide (c.station < 8) && decide (c.point < 64)) &&
  everyPair (fun (a b : CmdPoint) => !(a.station == b.station && a.point == b.point)) cs &&
  decide ((g.parts.map retentiveBytes).sum ≤ 1048576 - 64)

/-! ## Verification by the island (R387, R390) -/

/-- Index of the anti-rollback counter of an image kind: firmware, fast-path, program; partition images share the program's. -/
def counterOf (kind : Nat) : Nat := if kind = 1 then 0 else if kind = 2 then 1 else 2

/-- The key slot of an image serves its kind: a vendor key not revoked for firmware, else an active slot with the usage. -/
def State.keyServes (s : State) (x : Image) : Bool :=
  if x.kind = 1 then x.keyslot == 0xFE || (x.keyslot == 0xFF && !s.sec.vendor0Revoked)
  else decide (x.keyslot < 4) && s.get (F.SEC_KEY.STATE x.keyslot) == 1 &&
    bit (s.get (F.SEC_KEY.USAGE x.keyslot)) (if x.kind = 2 then 1 else 2)

/-- RESULT of R383 for the verification of an image, 0 when it verifies. -/
def State.verifyResult (s : State) (x : Image) : Nat :=
  if !x.headerOk || x.issue != 2 || !(x.unitId == 0 || x.unitId == s.get64 A.ENG_UID) then 7
  else if !s.keyServes x then 10
  else if !x.digestOk || !x.sigOk then 5
  else if x.svn < s.get (F.SEC_SVN.COUNTER (counterOf x.kind)) then 6
  else 0

/-! ## Memories -/

/-- A memory is zeroed. -/
def State.zeroSpace (s : State) (sp : Nat) : State := { s with mem := kvPut (fun _ => []) s.mem sp [] }

/-- The 16 header bytes of a noun (R176). -/
def nounHeader (n : Noun) : List Byte :=
  leBytes 8 n.id ++ leBytes 4 n.layout ++ leBytes 2 n.headVerb ++ leBytes 1 (b2n n.retentive) ++ leBytes 1 0

/-- A noun with its sections `ws` at NB = `nb` of a memory. -/
def State.placeNoun (s : State) (sp nb : Nat) (n : Noun) (ws : List Word) : State :=
  (s.storeBytes sp (nb - 16) (nounHeader n)).storeWords sp nb ws

/-- The words of a noun's initial value, S bytes long. -/
def initWords (p : Partition) (n : Noun) : List Word := (n.init ++ List.replicate (nounSize p n / 4) 0).take (nounSize p n / 4)

/-- A noun takes words in lane data memory and in the mirror. -/
def State.setNoun (s : State) (ln : Nat) (p : Partition) (n : Noun) (ws : List Word) : State :=
  (s.placeNoun (spData ln) n.base n ws).placeNoun spSRAM (mirrorAddr p.part n.base) n ws

/-- Code and constants of a partition image enter a lane. -/
def State.loadCode (s : State) (ln : Nat) (p : Partition) : State :=
  let s := (s.zeroSpace (spCode ln)).storeWords (spCode ln) 0 p.code
  let s := p.consts.foldl (fun u e => u.storeNat (spData ln) e.1 4 e.2.toNat) s
  s.setLane ln ⟨some p, none, 0⟩

/-- The nouns of a partition enter a lane from the mirror (R197). -/
def State.loadMirror (s : State) (ln : Nat) (p : Partition) : State :=
  p.nouns.foldl (fun u n => u.placeNoun (spData ln) n.base n (u.mirrorNoun p.part n (nounSize p n))) s

/-- The MPU registers of a partition (R207). -/
def State.showRegions (s : State) (p : Partition) : State :=
  (List.range 16).foldl (fun u r =>
    let g := (p.regions[r]?).getD ⟨false, 0, 0, 0, false, false, false, 0⟩
    let u := (u.set (F.MPU_P_R_BASE.ADDR p.part r) g.base).set (F.MPU_P_R_LIMIT.ADDR p.part r) g.limit
    u.wr (A.MPU_P_R_CTL p.part r) (BitVec.ofNat 32
      (b2n g.en + 2 * g.space + 8 * b2n g.r + 16 * b2n g.w + 32 * b2n g.x + 256 * g.task))) s

/-- The table fields of a task (R204). -/
def State.showTask (s : State) (p : Nat) (t : Task) : State :=
  let src := b2n t.sources.evr + 2 * b2n (!t.sources.intj.isEmpty) + 4 * b2n (!t.sources.bin.isEmpty) +
    8 * b2n (!t.sources.timed.isEmpty) + 16 * b2n (!t.sources.goose.isEmpty)
  let s := s.wr (A.TSK_T_CFG t.tid) (BitVec.ofNat 32
    (1 + 2 * b2n t.event + 4 * p + 16 * t.prio + 512 * t.fmask + 65536 * t.m))
  s.wr (A.TSK_T_EVCFG t.tid) (BitVec.ofNat 32 (if t.event then t.minint + 65536 * src else 0))

/-! ## The Pantry (R199, R202) -/

/-- Address of slot `n` in the Pantry's MRAM, and its MAGIC and VERSION (R199). -/
def panBase (n : Nat) : Nat := 0x100000 * n
def panMagic : Nat := 0x59504E50
def panVersion : Nat := 1

/-- The body of a snapshot: per noun its ID, layout, length and bytes. -/
def PanSlot.bodyBytes (x : PanSlot) : List Byte :=
  (x.body.map (fun r => leBytes 8 r.1 ++ leBytes 4 r.2.1 ++ leBytes 4 (4 * r.2.2.length) ++
    (r.2.2.map (fun w => leBytes 4 w.toNat)).flatten)).flatten

/-- Bytes 0x00 to 0x33 of a slot. -/
def PanSlot.head (x : PanSlot) : List Byte :=
  leBytes 4 panMagic ++ leBytes 4 panVersion ++ leBytes 8 x.seq ++ leBytes 8 x.snapSix ++ leBytes 4 (b2n x.final) ++
    leBytes 4 x.bodyBytes.length ++ (leBytes 16 x.imageId).reverse ++ leBytes 4 (crc32c x.bodyBytes)

/-- A slot as it stands in MRAM (R199). -/
def PanSlot.bytes (x : PanSlot) : List Byte := x.head ++ leBytes 4 (crc32c x.head) ++ List.replicate 8 0 ++ x.bodyBytes

/-- Little-endian words of a byte list. -/
def leWords : List Byte → List Word
  | a :: b :: c :: d :: l => BitVec.ofNat 32 (leNat [a, b, c, d]) :: leWords l
  | _ => []

/-- The noun records of a body, `fuel` at most. -/
def panRecords : Nat → List Byte → List (Nat × Nat × List Word)
  | 0, _ => []
  | f + 1, l =>
    if l.length < 16 then []
    else
      let n := leNat ((l.drop 12).take 4)
      (leNat (l.take 8), leNat ((l.drop 8).take 4), leWords ((l.drop 16).take n)) :: panRecords f (l.drop (16 + n))

/-- The snapshot in slot `n`, where the slot is complete: MAGIC, VERSION and both CRCs hold. -/
def State.panAt (s : State) (n : Nat) : Option PanSlot :=
  let b := panBase n
  let field := fun o k => s.loadNat spMRAM (b + o) k
  if field 0 4 = panMagic ∧ field 4 4 = panVersion ∧ field 0x34 4 = crc32c (s.loadBytes spMRAM b 0x34) then
    let body := s.loadBytes spMRAM (b + 0x40) (field 0x1C 4)
    if field 0x30 4 = crc32c body then
      some ⟨field 8 8, field 0x10 8, bit (field 0x18 4) 0, leNat (s.loadBytes spMRAM (b + 0x20) 16).reverse, panRecords body.length body⟩
    else none
  else none

/-- The slot that holds the newest complete snapshot. -/
def State.panNewest (s : State) : Option Nat :=
  match s.panAt 0, s.panAt 1 with
  | some a, some b => some (if a.seq < b.seq then 1 else 0)
  | some _, none => some 0
  | none, some _ => some 1
  | none, none => none

/-- The registers of the Pantry follow its slots. -/
def State.panRegs (s : State) : State :=
  let s := (s.set F.TSK_PAN.VALID0 (b2n (s.panAt 0).isSome)).set F.TSK_PAN.VALID1 (b2n (s.panAt 1).isSome)
  match s.panNewest with
  | some n =>
    let x := (s.panAt n).getD ⟨0, 0, false, 0, []⟩
    (((s.set F.TSK_PAN.NEWEST n).set F.TSK_PAN.FINAL (b2n x.final)).set64 A.TSK_PAN_SEQ x.seq).set64 A.TSK_PAN_SIX x.snapSix
  | none => ((s.set F.TSK_PAN.FINAL 0).set64 A.TSK_PAN_SEQ 0).set64 A.TSK_PAN_SIX 0

/-- A slot takes a content, or without one loses its header and is incomplete. -/
def State.setPan (s : State) (n : Nat) (x : Option PanSlot) : State :=
  (s.storeBytes spMRAM (panBase n) (match x with
    | some y => y.bytes
    | none => List.replicate 64 0)).panRegs

/-- The record of a noun in a snapshot: same ID and layout. -/
def PanSlot.find (x : PanSlot) (n : Noun) : Option (List Word) :=
  (x.body.find? (fun r => r.1 == n.id && r.2.1 == n.layout)).map (fun r => r.2.2)

/-- The nouns of a partition at a restart on lane `ln`: a retentive noun from its record, every other one at its initial value; the
answer counts the retentive nouns left unmatched. -/
def State.restoreNouns (s : State) (ln : Nat) (p : Partition) : Nat × State :=
  let snap := s.panNewest.bind s.panAt
  p.nouns.foldl (fun (a : Nat × State) n =>
    match (if n.retentive then snap.bind (fun x => x.find n) else none) with
    | some ws => (a.1, a.2.setNoun ln p n ws)
    | none => (a.1 + b2n (n.retentive && snap.isSome), a.2.setNoun ln p n (initWords p n))) (0, s)

/-- RESTORE and MISMATCH after a restore with `k` unmatched nouns. -/
def State.restoreShown (s : State) (k : Nat) : State :=
  if s.panNewest = none then (s.set F.TSK_PAN.RESTORE 2).set F.TSK_PAN.MISMATCH 0
  else if k = 0 then (s.set F.TSK_PAN.RESTORE 1).set F.TSK_PAN.MISMATCH 0
  else
    (((s.set F.TSK_PAN.RESTORE 3).set F.TSK_PAN.MISMATCH (min k 65535)).raise F.TSK_EVT.PAN_MISMATCH).logNamed "PAN_MISMATCH" (leBytes 2 k)

/-! ## Lanes and partitions -/

/-- A lane enters a role; LNE_STATUS follows. -/
def State.laneCounts (s : State) : State :=
  let m := fun (r : Nat) => maskOf 4 (fun n => s.get (F.LNE_L_STATE.ROLE n) == r)
  let s' := (s.set F.LNE_STATUS.FAILED (m 3)).set F.LNE_STATUS.SERVICE (m 1)
  s'.set F.LNE_STATUS.SPARE_OK (b2n (m 2 != 0))

def State.setRole (s : State) (n role : Nat) : State := (s.set (F.LNE_L_STATE.ROLE n) role).laneCounts

/-- What the spare lane does (LNE_STATUS.SPARE_ACT); with no spare it reads 4. -/
def State.spareAct (s : State) (v : Nat) : State :=
  s.set F.LNE_STATUS.SPARE_ACT (if v = 0 ∧ !s.flag F.LNE_STATUS.SPARE_OK then 4 else v)

/-- The lane that takes partition `p` at a start: the lane of its number, else LN3, else the lowest lane that no partition of the
image calls its own; `bad` marks the lanes that cannot serve. -/
def pickLane (bad : Nat) (homes used : List Nat) (p : Nat) : Option Nat :=
  [p, 3, 0, 1, 2].find? (fun n => !bit bad n && !used.contains n && (n == p || !homes.contains n))

/-- Partitions of an image with the lanes that take them. -/
def placeParts (bad : Nat) (homes : List Nat) : List Partition → List Nat → List (Partition × Option Nat)
  | [], _ => []
  | p :: ps, used =>
    let l := pickLane bad homes used p.part
    (p, l) :: placeParts bad homes ps (used ++ l.toList)

/-- The lanes and memories take a program image, with nouns restored (R202, R411 step 9): `bad` marks the lanes that fail their
self-test. The highest free lane becomes the spare. Without a lane for every partition the answer is false. -/
def State.loadProgram (s : State) (g : ProgImage) (bad : Nat) : Bool × State :=
  let homes := g.parts.map Partition.part
  let places := placeParts bad homes g.parts []
  let used := (places.map (fun e => e.2.toList)).flatten
  let spare := [3, 2, 1, 0].find? (fun n => !bit bad n && !used.contains n)
  let s := (List.range 4).foldl (fun u n =>
    let u := (u.setLane n LaneSt.reset).set (F.LNE_L_STATE.PART n) 0
    if bit bad n then (u.set (F.LNE_L_STATE.ROLE n) 3).set (F.LNE_L_STATE.CAUSE n) 5
    else (u.set (F.LNE_L_STATE.ROLE n) (if spare = some n then 2 else 0)).set (F.LNE_L_STATE.CAUSE n) 0) s
  let s := (List.range 48).foldl (fun u t => (u.wr (A.TSK_T_CFG t) 0).wr (A.TSK_T_EVCFG t) 0) s
  let r := places.foldl (fun (a : Nat × State) e =>
    match e.2 with
    | some n =>
      let u := (a.2.loadCode n e.1).showRegions e.1
      let u := (u.set (F.LNE_L_STATE.ROLE n) 1).set (F.LNE_L_STATE.PART n) e.1.part
      let u := e.1.tasks.foldl (fun v t => v.showTask e.1.part t) u
      let x := u.restoreNouns n e.1
      (a.1 + x.1, x.2)
    | none => a) (0, s)
  let s := ((r.2.restoreShown r.1).laneCounts).spareAct 0
  let s := if spare = none then s.raise F.LNE_EVT.NO_SPARE else s
  (places.all (fun e => e.2.isSome), { s with tsk := { s.tsk with prog := some g, cyc := [], rt := [], tko := none } })

/-! ## Ends before their time -/

/-- The running image of partition `p`. -/
def State.runningPart (s : State) (p : Nat) : Option Partition :=
  s.tsk.prog.bind (fun g => g.parts.find? (fun q => q.part == p))

/-- State of a DMA channel of the engine; a chain that finishes raises DONE (R225). -/
def State.dmaShow (s : State) (c st : Nat) : State :=
  let t := s.set (F.DMA_C_STAT.STATE c) st
  if st = 2 ∧ s.get (F.DMA_C_STAT.STATE c) = 1 then t.raise (bitField A.DMA_EVT c) else t

/-- The spare lane drops the cycles of a shadow run, a replay or a migration. -/
def State.spareIdle (s : State) : State :=
  let s := { s with tsk := { s.tsk with cyc := s.tsk.cyc.filter (fun e => e.2.all (fun (c : Cycle) => c.kind == 0)) } }
  let s := (s.setLane s.olc.lane { s.lane s.olc.lane with run := none, resv := 0 })
  ({ s with olc := { s.olc with shadow := false, rt := [], out := [], front := [], back := [], gates := 0 } } : State).spareAct 0

/-- A change shows a phase and keeps it. -/
def State.chgPhase (s : State) (ph : Nat) : State :=
  ({ s with olc := { s.olc with phase := ph } } : State).set F.OLC_STATUS.CHG_STATE ph

/-- A code replacement in progress ends (R242). -/
def State.chgAbort (s : State) : State :=
  if s.olc.phase = 0 then s
  else
    let s := if s.olc.phase = 1 then s else s.spareIdle
    let s := if s.olc.phase ≤ 2 then (s.dmaShow 2 0).set (F.DMA_C_CTL.OWNER 2) 7 else s
    let s := { s with olc := { s.olc with phase := 0, img := none, switchAt := none } }
    ((s.set F.OLC_STATUS.CHG_STATE 8).raise F.OLC_EVT.ABORTED).logNamed "CHG_ABORTED" (leBytes 1 s.chgPart ++ leBytes 8 s.six)

/-- A replay in progress ends (R251). -/
def State.rplAbort (s : State) : State :=
  match s.olc.rpl with
  | none => s
  | some r =>
    let s := ({ s with olc := { s.olc with rpl := none } } : State).spareIdle
    (s.set F.OLC_STATUS.RPL_STATE 5).logNamed "REPLAY_ABORTED" (leBytes 4 r.record.recno ++ leBytes 8 s.six)

/-- BUSY of value changes. -/
def State.vcBusy (s : State) (on : Bool) : State := (s.set F.OLC_VC_CTL.BUSY (b2n on)).set F.OLC_STATUS.VC_BUSY (b2n on)

/-- A pending batch is withdrawn (R230). -/
def State.vcWithdraw (s : State) : State :=
  match s.olc.vc with
  | none => s
  | some b =>
    let s := ({ s with olc := { s.olc with vc := none } } : State).vcBusy false
    ((s.set F.OLC_VC_CTL.REASON 7).raise F.OLC_EVT.VC_REFUSED).logNamed "VC_WITHDRAWN" (leBytes 1 b.tid ++ leBytes 1 b.entries.length)

/-- The force table is cleared (R246). -/
def State.forcesClear (s : State) : State :=
  (List.range 256).foldl (fun u n =>
    if u.flag (F.FRC_E_CTL.ACTIVE n) || u.flag (F.FRC_E_CTL.PENDING n) then u.forceOff n 6 else u.forceBlank n) s

/-- A cycle is lost (R196, R419): it will release nothing, and its journal is discarded. -/
def State.loseCycle (s : State) (c : Cycle) : State :=
  let s := (s.bump (F.TSK_T_CNT.LOST c.tid)).bump (F.TSK_T_UNCLEAN.UNCLEAN c.tid)
  let s := ((s.set (F.TSK_T_STAT.RUNNING c.tid) 0).set (F.TSK_T_STAT.PREEMPTED c.tid) 0).set (F.TSK_T_STAT.LAST_LOST c.tid) 1
  let s := ((s.set (F.TSK_T_STAT.LAST_CLEAN c.tid) 0).set (F.TSK_T_STAT.LAST_ABORT c.tid) 0).set (F.TSK_T_STAT.HELD c.tid) 1
  s.putCyc { c.dropped with status := 5, journal := [] }

/-- The live cycles, in TID order. -/
def State.liveCycles (s : State) : List Cycle := (s.tsk.cyc.filterMap Prod.snd).filter (fun c => c.kind == 0)

/-- The lanes stop, and their open cycles are lost (R201, R419, R421, R423). -/
def State.stopLanes (s : State) : State :=
  let s := s.liveCycles.foldl (fun u c => if c.status = 5 then u else u.loseCycle c) s
  let s := { s with tsk := { s.tsk with cyc := [], up := false, tko := none } }
  (List.range 4).foldl (fun u n => u.setLane n { u.lane n with run := none, resv := 0 }) s

end Sys2Proof.Machine
end

