-- ==== Sys2Proof/Machine/Tsk.lean ====
section
/-!
DEFINITION. Machine/Tsk.lean: the release, deadline and output release of task cycles (R32, R43, R181 to R195), command groups and peer
shelves.
-/
namespace Sys2Proof.Machine
open Sys2Proof

/-! ## What falls due at one SIX, in order (R32) -/



/-- A Pantry snapshot is due at this hyperboundary (order 2). -/
def State.snapDue (s : State) : Bool :=
  s.tsk.up && s.six % hyperPeriod == 0 && s.tsk.panSix != some s.six && decide (s.tsk.start ≤ s.six)

/-- SIX at which a takeover's partition resumes (R197). -/
def Takeover.resumes (k : Takeover) : Nat := boundaryAt baseCycle (k.x + 200)

/-- A handover, a code switch, the start of a shadow run or the stop of the lanes is due at this SIX (order 3). -/
def State.handoverDue (s : State) : Bool :=
  s.tsk.tko.any (fun k => k.resumes == s.six) || s.olc.switchAt == some s.six || (s.olc.phase == 3 && s.olc.h0 == s.six) ||
  s.pwr.maintAt == some s.six

/-- The value-change batch is due at the release of task `t` now (order 4). -/
def State.batchDue (s : State) (t : Nat) : Bool := s.olc.vc.any (fun b => b.tid == t && decide (b.kick + forceDelay ≤ s.six)) && !s.inTakeover (s.partNo t)

/-- Does the shadow alone release event task `t` now (R234): its own events ask for it? -/
def State.shadowEventDue (s : State) (t : Task) : Bool :=
  s.tsk.up && t.event && s.shadowHas t.tid && (s.cycle (shadowKey t.tid)).isNone && s.eventReady t (s.shadowRt t.tid)

/-- Does another task's release at this SIX come first (order 5; R186: event tasks after cyclic ones of equal priority)? -/
def State.releaseBefore (s : State) (t : Task) : Bool :=
  s.tasks.any (fun u => s.releaseDue u && (u.prio < t.prio || (u.prio == t.prio && u.tid < t.tid)))

/-- May task `t` be released now? -/
def State.mayRelease (s : State) (t : Task) : Bool :=
  !s.outputsOpen && !s.snapDue && !s.handoverDue && !s.batchDue t.tid && !s.releaseBefore t

/-! ## Release (R181 to R183, R186, R197) -/

/-- The cycle of task `t` is released on lane `ln` with `coal` events coalesced; the shadow's with the same image, where for an event task the
shadow's own events ask for it (R234). -/
def State.releaseOn (s : State) (t : Task) (ln coal : Nat) : State :=
  let k := s.six
  let p := s.partNo t.tid
  let s := s.forceTurns true t.tid
  let x := s.taskRt t.tid
  let r := s.freeze t x k coal s.tsk.front
  let c := freshCycle t p ln 0 k (r.2.forceImage t.tid r.1) (r.2.partForced p)
  let s := r.2.setTaskRt t.tid { x with prevRel := some k, prevFreeze := some (k - r.2.align), pend := [] }
  let s := (s.set (F.TSK_T_STAT.PENDING t.tid) 0).set64 (A.TSK_T_REL t.tid) k
  let s := ((s.putCyc c).captureImage c).preempt ln
  let s := { s with tsk := { s.tsk with imgs := kvMod (fun _ => []) s.tsk.imgs t.tid (fun h => (k, c.img) :: h.take 2) } }
  if s.shadowHas t.tid && (!t.event || s.eventReady t (s.shadowRt t.tid)) then s.shadowRelease t.tid r.1 else s

/-- A release of a partition under takeover is skipped and counted as lost (R197). -/
def State.skipRelease (s : State) (t : Task) : State :=
  let s := s.setTaskRt t.tid { s.taskRt t.tid with prevRel := some s.six, clean := false, aborted := false, lost := true }
  let s := (s.bump (F.TSK_T_CNT.LOST t.tid)).bump (F.TSK_T_UNCLEAN.UNCLEAN t.tid)
  let s := ((s.set (F.TSK_T_STAT.LAST_CLEAN t.tid) 0).set (F.TSK_T_STAT.LAST_LOST t.tid) 1).set (F.TSK_T_STAT.HELD t.tid) 1
  let s := s.set (F.TSK_T_STAT.LAST_ABORT t.tid) 0
  { s with tsk := { s.tsk with tko := s.tsk.tko.map (fun k => { k with lost := k.lost + 1 }) } }

/-- CYCLE_RELEASE (R30, R181, R33): the cyclic task's release at this SIX. -/
def execCycleRelease (t : Fin 32) (s : State) : Host.Outcome State Fault Refusal :=
  match s.task t with
  | some k =>
    if s.cycleDue k && s.mayRelease k then
      if s.inTakeover (s.partNo k.tid) then .next (s.skipRelease k)
      else
        match s.serviceLane (s.partNo k.tid) with
        | some ln => .next (s.releaseOn k ln 0)
        | none => .next s
    else .next s
  | none => .next s

/-- EVENT_TASK_RELEASE (R186): task TID 32 + n. Events beyond the first coalesce. -/
def execEventTaskRelease (n : Fin 16) (s : State) : Host.Outcome State Fault Refusal :=
  match s.task (32 + n) with
  | some k =>
    if s.eventDue k && s.mayRelease k then
      match s.serviceLane (s.partNo k.tid) with
      | some ln =>
        let coal := (s.taskRt k.tid).pend.length - 1
        let s := if coal = 0 then s else (s.bumpBy (F.TSK_T_CNT.COAL k.tid) coal).raise F.TSK_EVT.COAL
        .next (s.releaseOn k ln coal)
      | none => .next s
    else if s.shadowEventDue k && !s.outputsOpen && !s.snapDue && !s.handoverDue then
      let x := s.shadowRt k.tid
      .next (s.shadowRelease k.tid (s.freeze k x s.six (x.pend.length - 1) s.tsk.front).1)
    else .next s
  | none => .next s

/-! ## Deadline (R184, R221) -/

/-- The address that an overrun reports: where the cycle stands, or its entry verb's before it has started. -/
def State.overrunPc (s : State) (c : Cycle) : Nat :=
  if c.status = 0 then
    match s.taskOf c with
    | some t => ((s.verb c.lane t.entryVerb).map Verb.entry).getD 0
    | none => 0
  else c.at_

/-- DEADLINE is recorded for a cycle, as an overrun (R184). -/
def State.recordOverrun (s : State) (c : Cycle) : State :=
  let s := s.recordExc c 6 0 (s.overrunPc c)
  if c.kind = 0 then (s.bump (F.TSK_T_CNT.OVR c.tid)).raise F.TSK_EVT.OVERRUN else s

/-- A cycle is aborted as an overrun; its lane goes on with another. -/
def State.overrun (s : State) (c : Cycle) : State :=
  ((s.recordOverrun c).endCycle { c with overrun := true } 4).schedule c.lane

/-- DEADLINE (R171, R184): the cycle, or the shadow's cycle, of the task is still running at release plus period minus 2. Where an exception has
ended the cycle in this very sample period, that stands as recorded first and DEADLINE is recorded as well. -/
def execDeadline (t : Fin 48) (shadow : Bool) (s : State) : Host.Outcome State Fault Refusal :=
  match s.cycle (if shadow then shadowKey t else t) with
  | some c =>
    if c.kind ≤ 1 ∧ c.rel + c.period ≤ s.six + 2 then
      if c.status < 3 then .next (s.overrun c)
      else if c.status = 4 ∧ !c.overrun ∧ c.ended = s.six then .next ((s.recordOverrun c).putCyc { c with overrun := true })
      else .next s
    else .next s
  | none => .next s

/-! ## Output release (R32 order 1, R43, R158, R178, R179, R184, R189, R193 to R195, R203) -/

/-- The clean-cycle bit (R43). -/
def State.cleanBit (s : State) (c : Cycle) : Bool :=
  !c.img.late && !c.overrun && !c.unclean && c.status != 5 && s.opstate != 1

/-- One released word of the output image. -/
def State.putOut (s : State) (w : Nat) (v : Word) : State :=
  { s with tsk := { s.tsk with
    out := kvPut (fun _ => 0) s.tsk.out w v, outHist := kvMod (fun _ => []) s.tsk.outHist w (fun h => (s.six, v) :: h.take 63) } }

/-- A word that the cycle stored enters the back copy of its shelf. -/
def State.putBack (s : State) (id w : Nat) (v : Word) : State :=
  { s with tsk := { s.tsk with
    back := kvMod (fun _ => []) s.tsk.back id (fun m => kvPut (fun _ => 0) m w v) } }

/-- An EVR released now makes event task `n` pending (R186). -/
def State.raiseEvr (s : State) (n : Nat) : State :=
  match s.task (32 + n) with
  | some t => if t.sources.evr then s.pendTask t.tid (s.six - s.align) true else s
  | none => s

/-- A note becomes a Cellar entry whose SIX is the cycle's (R161). -/
def State.noteEntry (s : State) (rel : Nat) (n : Note) : State :=
  s.enqueue ⟨.num n.code, n.sev, some rel, n.data, true, false, s.cel.rtcNs, none⟩

/-- Everything that a completed cycle releases takes effect (R158). -/
def State.takeEffect (s : State) (c : Cycle) : State :=
  let s := c.ost.foldl (fun u e => match e.2 with
    | some v => u.putOut e.1 v
    | none => u) s
  let s := c.shst.foldl (fun u h => h.2.foldl (fun v e => match e.2 with
    | some w => v.putBack h.1 e.1 w
    | none => v) u) s
  let gates := c.gset.foldl (fun m e => m - b2n (bit m e.1) * 2 ^ e.1 + (e.2.getD 0) % 2 * 2 ^ e.1) (gatesAt s.inj.gates s.six)
  let s := if c.gset.isEmpty then s else s.setGates s.six gates
  let s := c.evr.foldl State.raiseEvr s
  c.notes.foldl (fun u n => u.noteEntry c.rel n) s

/-- MPU_GEN of a partition counts up, wrapping (R212). -/
def State.genStep (s : State) (p : Nat) : State := s.set (F.MPU_GEN.GEN p) (s.get (F.MPU_GEN.GEN p) + 1)

/-- The journal of a cycle folds into the mirror, between two counts of MPU_GEN (R179, R212). -/
def State.fold (s : State) (c : Cycle) : State :=
  (c.journal.foldl (fun u e => u.storeNat spSRAM e.1 4 e.2.toNat) (s.genStep c.part)).genStep c.part

/-- The task's status after the output release of its cycle (R187, R203). -/
def State.showEnd (s : State) (c : Cycle) (clean : Bool) : State :=
  let t := c.tid
  let s := s.setTaskRt t { s.taskRt t with
    prevEnd := s.six, clean := clean, aborted := c.status == 4, lost := c.status == 5 }
  let s := (s.set (F.TSK_T_STAT.LAST_CLEAN t) (b2n clean)).set (F.TSK_T_STAT.LAST_ABORT t) (b2n (c.status == 4))
  let s := (s.set (F.TSK_T_STAT.LAST_LOST t) (b2n (c.status == 5))).set (F.TSK_T_STAT.HELD t) (b2n (c.status != 3))
  if clean ∨ c.status = 5 then s else s.bump (F.TSK_T_UNCLEAN.UNCLEAN t)

/-- The output release of one live cycle. -/
def State.releaseCycle (s : State) (c : Cycle) : State :=
  let s := if c.status < 3 then s.overrun c else s
  let c := (s.cycle c.key).getD c
  let s := s.forceTurns false c.tid
  let c := (s.cycle c.key).getD c
  let clean := s.cleanBit c
  let s := s.shadowCompare c clean
  let s := if c.status = 3 then s.takeEffect c else s
  let s := if c.status = 5 then s else s.fold c
  let s := s.showEnd c clean
  let s := match s.partOf c.tid with
    | some p => s.lftSlots p c.tid
    | none => s
  ((s.lftRelease c.tid clean).captureEffects c clean).setCycle c.key none

/-- A shelf's front copy takes the back copy under the forces on its words (R189, R243). -/
def State.exchange (s : State) (h : Shelf) : State :=
  let back := kvGet (fun _ => []) s.tsk.back h.id
  let ws := (s.frc.map (fun e => match e.2.bound with
    | some y =>
      (match y.target with
        | .shelf i w => if i = h.id then [w, w + 1] else []
        | _ => [])
    | none => [])).flatten
  let m := ws.foldl (fun m w => match s.forcedShelf h.id w with
    | some v => kvPut (fun _ => 0) m w v
    | none => m) back
  { s with tsk := { s.tsk with front := kvPut (fun _ => []) s.tsk.front h.id m } }

/-- Every shelf of the running program image. -/
def State.shelves (s : State) : List Shelf :=
  match s.tsk.prog with
  | some g => (g.parts.map Partition.shelves).flatten
  | none => []

/-- Tasks as the shadow's shelves see them: those of the new image, and those of the other partitions. -/
def State.tasksWith (s : State) (p : Partition) : List Task := p.tasks ++ s.tasks.filter (fun t => s.partNo t.tid != p.part)

/-- The shelf exchanges of this SIX, live and in the shadow. -/
def State.exchanges (s : State) : State :=
  let s := s.shelves.foldl (fun u h => if u.six % shelfPeriod u.tasks h = 0 then u.exchange h else u) s
  match s.olc.img with
  | some p =>
    if s.olc.shadow then
      p.shelves.foldl (fun u h =>
        if u.six % shelfPeriod (u.tasksWith p) h = 0 then
          { u with olc := { u.olc with front := kvPut (fun _ => []) u.olc.front h.id (kvGet (fun _ => []) u.olc.back h.id) } }
        else u) s
    else s
  | none => s

/-- Every point of the program's command-point map. -/
def State.cmdPoints (s : State) : List CmdPoint :=
  match s.tsk.prog with
  | some g => (g.parts.map Partition.cmdMap).flatten
  | none => []

/-- The words that the given tasks own. -/
def State.ownedBy (s : State) (ts : List Nat) (w : Nat) : Bool :=
  ts.any (fun t => (s.partOf t).any (fun p => taskOwns p t w))

/-- A group for command station `st` at this release, or its discard (R193 to R195). -/
def State.groupFor (s : State) (st : Nat) : State :=
  let ws := (s.cmdPoints.filter (fun c => c.station + 32 == st)).map (fun c => (c.point, (s.outWord c.word).toNat % 65536))
  match s.commandPort st with
  | some q =>
    let x := s.port q
    let g : CmdGroup := ⟨s.six, s.six + s.get F.TSK_APPLY.APPLY_OFS, (x.groupSeq + 1) % 8, ws⟩
    s.setPort q { x with group := some g, groupSeq := (x.groupSeq + 1) % 8 }
  | none => s.bump (F.HJL_P_CNT.CMD_DISC st)

/-- What takes released output words: command stations, universal channels, publications. -/
def State.consumers (s : State) (ts : List Nat) : State :=
  let own := s.ownedBy ts
  let s := (List.range 8).foldl (fun u i =>
    if u.cmdPoints.any (fun c => c.station == i && own c.word) then u.groupFor (32 + i) else u) s
  let maps := match s.tsk.prog with
    | some g => (g.parts.map Partition.uchMap).flatten
    | none => []
  let s := maps.foldl (fun u m =>
    let u := match m.ctrl with
      | some w => if own w then u.uchCtrl m.ch (u.outWord w) else u
      | none => u
    match m.cmd with
    | some w => if own w then u.uchCmd m.ch (u.outWord w) else u
    | none => u) s
  s.goosePublish own

/-- OUTPUT_RELEASE (R158, R181): every cycle whose release plus period is this SIX, then the shelf exchanges. -/
def execOutputRelease (s : State) : Host.Outcome State Fault Refusal :=
  if s.tsk.up ∧ s.six % baseCycle = 0 then
    let due := s.liveCycles.filter (fun c => c.rel + c.period == s.six)
    let s := due.foldl (fun u c => u.releaseCycle ((u.cycle c.key).getD c)) s
    let done := (due.filter (fun c => s.get (F.TSK_T_STAT.HELD c.tid) == 0)).map Cycle.tid
    let s := (List.range 48).foldl State.shadowEnd s
    .next (s.exchanges.consumers done)
  else .next s

/-! ## Command groups on the links (R78, R194) -/

/-- COMMAND_GROUP_SEND: the APPLY word and the CMD words of the group that waits on port `p`, in order, each in the first slot that
admits it. -/
def execCommandGroupSend (p : Fin 44) (s : State) : Host.Outcome State Fault Refusal :=
  match (s.port p).group with
  | some g =>
    let s := s.setPort p { s.port p with group := none }
    if s.opstate == 1 || s.opstate == 2 then .next s
    else if s.portState p == pRUN || s.portState p == pBOUND then
      let s := s.sendWord p 25 (mkWord 0x09 g.seq (g.apply % 65536 * 256 + g.words.length) 0xFF)
      .next (g.words.foldl (fun u e => u.sendWord p 25 (mkWord 0x0A g.seq (e.1 * 65536 + e.2) 0xFF)) s)
    else .next (s.bump (F.HJL_P_CNT.CMD_DISC p))
  | none => .next s

/-! ## Peer shelves (R82, R191, R192) -/

/-- The SHELF message of a shelf published at SIX `k` (R54): shelf ID, publish SIX, length, content. -/
def shelfPayload (id k : Nat) (ws : List Word) : List Byte :=
  beBytes 2 id ++ beBytes 8 k ++ beBytes 2 (4 * ws.length) ++ (ws.map (fun w => beBytes 4 w.toNat)).flatten

/-- PEER_SHELF_SEND (R191): at an exchange, on a peer port in RUN. -/
def execPeerShelfSend (p : Fin 4) (id : Fin 1024) (s : State) : Host.Outcome State Fault Refusal :=
  match s.shelves.find? (fun h => h.id == id.val) with
  | some h =>
    let q := 40 + p.val
    let ws := (List.range h.words).map (fun i => kvGet (fun _ => 0) (kvGet (fun _ => []) s.tsk.front h.id) i)
    let pl := shelfPayload h.id s.six ws
    if s.tsk.up && bit h.peers p && s.six % shelfPeriod s.tasks h == 0 && !s.outputsOpen && s.portState q == pRUN &&
        !s.sentMsg q 7 pl then .next (s.sendMsg q 7 pl)
    else .next s
  | none => .next s

/-- SHELF_RECEIVED (R82, R192): a SHELF message that is complete and none of whose words was discarded (R53), for every kind-6 context
that the configuration assigns to it; the port's reception of it is over. -/
def execShelfReceived (p : Fin 4) (id : BitVec 16) (pub : BitVec 64) (words : List Word) (s : State) :
    Host.Outcome State Fault Refusal :=
  let q := 40 + p.val
  if s.portState q = pRUN ∧ (s.port q).whole 7 then
    let s := s.msgDone q
    let tag := s.ownSix q pub.toNat
    .next (s.fp.peers.foldl (fun u e =>
      if e.2 = (q, id.toNat) ∧ u.kind e.1 = 6 ∧ u.ctxState e.1 ≠ 0 then
        let u := u.pushData e.1 ⟨tag, tag, u.six, qVALID, words⟩
        let u := (u.ctxReceiving e.1 tag).set64 (A.SFB_C_SIX e.1) tag
        if u.ctxState e.1 = 2 then u else u.setCtxState e.1 2
      else u) s)
  else .next s

end Sys2Proof.Machine
end

