-- ==== Sys2Proof/Machine/Lnf.lean ====
section
/-!
DEFINITION. Machine/Lnf.lean: lane failure and takeover (R196 to R198, R222, R242), and the Pantry's snapshots (R199 to R201).
-/
namespace Sys2Proof.Machine
open Sys2Proof

/-! ## STEM causes -/

/-- STEM cause `b` joins the mask (R418, R422): in SERVICE and MAINT STEM_ENTER acts on it; in STEM it ends a return that is being prepared (R420);
in HALT it is recorded, and a start that has not armed stays in HALT (R412). -/
def State.stemCause (s : State) (b : Nat) : State :=
  let op := s.opstate
  let s := s.set (bitField F.PWR_STATE.STEM_CAUSE.addr (F.PWR_STATE.STEM_CAUSE.lo + b)) 1
  let x := { s.pwr with seen := if bit s.pwr.seen b then s.pwr.seen else s.pwr.seen + 2 ^ b }
  if op = 1 then
    if x.prep.isSome then
      let s := if x.startup then s else (s.set F.PWR_STATE.PHASE 4).raise F.PWR_EVT.STATE_CHG
      { s with pwr := { x with prep := none, settleAt := some (s.six + 200) } }
    else { s with pwr := x }
  else if op = 2 then { s with pwr := { x with armBy := none } }
  else { s with pwr := { x with stemSix := some (x.stemSix.getD s.six) } }

/-- Bits of the STEM cause mask (R418). -/
def stemLANE : Nat := 0
def stemMEM : Nat := 1
def stemSUPPLY : Nat := 2
def stemIMAGE : Nat := 3
def stemTEMP : Nat := 4
def stemHOST : Nat := 5
def stemSTART : Nat := 6

/-! ## Lane failure -/

/-- Exception code and detail of a lane failure (R170): 1 LOCKSTEP, 2 to 4 ECC_UNCORR in code memory, data memory, staging. -/
def laneExc (cause : Nat) : Nat × Nat := if cause = 1 then (7, 0) else (3, cause - 2)

/-- The lane's exception record of a lane-class exception, with its Cellar entry (R169, R185). -/
def State.laneRecord (s : State) (n cause : Nat) : State :=
  let e := laneExc cause
  let c := s.running n
  let tid := (c.map Cycle.tid).getD 0
  let pc := (c.map Cycle.at_).getD 0
  let rel := (c.map Cycle.rel).getD 0
  let s := ((s.set (F.LNE_L_EXC.CODE n) e.1).set (F.LNE_L_EXC.TID n) tid).set (F.LNE_L_EXC.DETAIL n) e.2
  let s := ((s.set (F.LNE_L_EXC_PC.PC n) pc).set64 (A.LNE_L_EXC_SIX n) rel).bump (F.LNE_L_EXC_CNT.EXC n)
  let s := if c.any (fun x => x.kind == 0) then s.set (F.TSK_T_STAT.LAST_EXC tid) e.1 else s
  s.logNamed "LANE_EXC" (leBytes 1 n ++ leBytes 1 tid ++ leBytes 1 e.1 ++ leBytes 2 e.2 ++ leBytes 4 pc ++ leBytes 8 rel)

/-- Lane `n` is held in reset as failed. -/
def State.laneDown (s : State) (n cause : Nat) : State :=
  let s := ((s.setLane n LaneSt.reset).set (F.LNE_L_STATE.CAUSE n) cause).setRole n 3
  (s.raise F.LNE_EVT.LANE_FAIL).set64 A.LNE_DET_SIX s.six

/-- The open cycles of partition `p` are lost, and HELD is set on its tasks (R196); the answer counts the cycles. -/
def State.losePart (s : State) (p : Nat) : Nat × State :=
  let cs := s.liveCycles.filter (fun c => c.part == p && c.status != 5)
  let s := cs.foldl State.loseCycle s
  (cs.length, (s.tasks.filter (fun t => s.partNo t.tid == p)).foldl (fun u t => u.set (F.TSK_T_STAT.HELD t.tid) 1) s)

/-- An uncorrectable error of memory `m` at a byte address is recorded (R223): the address, divided by 8 for DRAM, the count, the event. -/
def State.ueCount (s : State) (m addr : Nat) : State :=
  ((s.wr (A.MPU_ECC_ADDR m) (BitVec.ofNat 32 (if m = 13 then addr / 8 else addr))).bump (F.MPU_ECC_CNT.UE m)).raise F.MPU_EVT.UE

/-- A service lane of partition `p` has failed: the spare starts to load it (R197), or the engine goes to STEM (R198). -/
def State.startTakeover (s : State) (n p : Nat) : State :=
  let r := s.losePart p
  let s := r.2.rplAbort.chgAbort
  match s.runningPart p, s.spareLane, s.tsk.tko with
  | some _, some sp, none =>
    let s := s.setRole sp 4
    let s := ((s.spareAct 3).set (F.DMA_C_CTL.OWNER 3) p).dmaShow 3 1
    { s with tsk := { s.tsk with tko := some ⟨n, sp, p, s.six, r.1⟩ } }
  | _, sp, _ => ((if sp.isNone then s.raise F.LNE_EVT.NO_SPARE else s).spareAct 0).stemCause stemLANE

/-- The load of the spare for a takeover has failed (R198). -/
def State.loadFail (s : State) : State :=
  match s.tsk.tko with
  | some k =>
    let s := { s with tsk := { s.tsk with tko := none } }
    let s := (s.set (F.LNE_L_STATE.CAUSE k.spare) 5).setRole k.spare 3
    ((s.spareAct 0).raise F.LNE_EVT.LOAD_FAIL).stemCause stemLANE
  | none => s

/-- Lane `n` fails for a cause (R196, R198). -/
def State.laneFail (s : State) (n cause : Nat) : State :=
  let role := s.get (F.LNE_L_STATE.ROLE n)
  if role = 1 then
    let p := s.get (F.LNE_L_STATE.PART n)
    (((s.laneRecord n cause).laneDown n cause).startTakeover n p).gooseStatus
  else if role = 2 then
    let s := (s.laneRecord n cause).rplAbort.chgAbort
    (((s.laneDown n cause).raise F.LNE_EVT.NO_SPARE).spareAct 0).gooseStatus
  else if role = 4 then
    let taking := s.tsk.tko.any (fun k => k.spare == n)
    let s := (s.laneRecord n cause).laneDown n cause
    if taking then ({ s with tsk := { s.tsk with tko := none } } : State).spareAct 0 |>.stemCause stemLANE else s
  else s

/-- LANE_FAIL (R196, R223): cause 0 LOCKSTEP, 1 to 3 ECC_UNCORR in code memory, data memory, staging at an address, which is recorded. -/
def execLaneFail (ln : Fin 4) (err : LaneErr) (s : State) : Host.Outcome State Fault Refusal :=
  let t := if err.cause.val = 0 then s else s.ueCount (ln + 4 * (err.cause.val - 1)) err.addr.toNat
  .next (t.laneFail ln (err.cause + 1))

/-- The spare of a takeover has been loaded by b (R197): code and constants from the image, nouns from the mirror. -/
def State.loadSpare (s : State) (k : Takeover) : State :=
  match s.runningPart k.part with
  | some q => (s.loadCode k.spare q).loadMirror k.spare q
  | none => s

/-- TAKEOVER (R197): the spare, loaded by now, resumes the partition at b. -/
def execTakeover (s : State) : Host.Outcome State Fault Refusal :=
  match s.tsk.tko with
  | some k =>
    if s.tsk.up && decide (k.resumes ≤ s.six) && s.six % baseCycle == 0 && !s.outputsOpen && !s.snapDue then
      let s := s.loadSpare k
      let s := ((s.set (F.LNE_L_STATE.PART k.spare) k.part).set (F.LNE_L_STATE.CAUSE k.spare) 0).setRole k.spare 1
      let s := { s with tsk := { s.tsk with tko := none } }
      let s := ((s.set F.LNE_TKO.FROM k.failed).set F.LNE_TKO.TO k.spare).set F.LNE_TKO.PART k.part
      let s := ((s.set F.LNE_TKO.LOST_CYC (min k.lost 255)).set64 A.LNE_TKO_SIX s.six).dmaShow 3 2
      let s := (s.raise F.LNE_EVT.TAKEOVER).logNamedSev "TAKEOVER" 3
        (leBytes 1 k.failed ++ leBytes 1 k.spare ++ leBytes 1 k.part ++ leBytes 8 s.six)
      let s := if s.spareLane.isNone then s.raise F.LNE_EVT.NO_SPARE else s
      .next (s.spareAct 0).gooseStatus
    else .next s
  | none => .next s

/-! ## Pantry snapshots -/

/-- The retentive part of the mirror: ID, layout and words of every retentive noun. -/
def State.panBody (s : State) : List (Nat × Nat × List Word) :=
  match s.tsk.prog with
  | some g => (g.parts.map (fun p =>
      (p.nouns.filter Noun.retentive).map (fun n => (n.id, n.layout, s.mirrorNoun p.part n (nounSize p n))))).flatten
  | none => []

/-- The first 16 bytes of the running program image's digest. -/
def State.imageId (s : State) : Nat := (s.tsk.prog.map (fun g => g.digest.toNat / 2 ^ 128)).getD 0

/-- The slot that the next snapshot takes, and the snapshot of SIX `k`. -/
def State.nextSnap (s : State) (k : Nat) (final : Bool) : Nat × PanSlot :=
  let n := s.panNewest
  (match n with
   | some i => 1 - i
   | none => 0,
   ⟨((n.bind s.panAt).map PanSlot.seq).getD 0 + 1, k, final, s.imageId, s.panBody⟩)

/-- PANTRY_SNAPSHOT (R200, R32 order 2): the snapshot is taken and its writing starts; its slot is incomplete until the header. -/
def execPantrySnapshot (s : State) : Host.Outcome State Fault Refusal :=
  if s.snapDue && !s.outputsOpen then
    let x := s.nextSnap s.six false
    let s := { s with tsk := { s.tsk with panWriting := some x, panSix := some s.six } }
    .next ((s.setPan x.1 none).dmaShow 4 1).captureNouns
  else .next s

/-- The header has been written: the slot is complete (R200 step 3). -/
def State.panDone (s : State) : State :=
  match s.tsk.panWriting with
  | some (n, x) => ({ s with tsk := { s.tsk with panWriting := none } } : State).setPan n (some x)
  | none => s

/-- A write to the Pantry failed: the slot stays incomplete (R200). -/
def State.panFail (s : State) : State :=
  match s.tsk.panWriting with
  | some (n, x) =>
    let s := { s with tsk := { s.tsk with panWriting := none } }
    ((s.setPan n none).raise F.TSK_EVT.PAN_FAIL).logNamed "PAN_FAIL" (leBytes 1 n ++ leBytes 8 x.seq)
  | none => s

/-- The final snapshot (R201): the mirror as at the latest output release. -/
def State.finalSnap (s : State) : State :=
  let k := (s.tsk.rt.map (fun e => e.2.prevEnd)).foldl max 0
  let x := s.nextSnap k true
  ({ s with tsk := { s.tsk with panWriting := none } } : State).setPan x.1 (some x.2)

end Sys2Proof.Machine
end

