-- ==== Sys2Proof/Machine/LftSen.lean ====
section
/-!
DEFINITION. Machine/LftSen.lean: the sources of Loft terms and binary signals (R257, R262, R263), the comparators (R264), histograms
(R274) and the ring, its journal and the slow ring (R253 to R255).
-/
namespace Sys2Proof.Machine
open Sys2Proof

/-! ## Sources (R262, R263) -/

/-- Does rule `r` count as evaluated for SIX `t`, its decision included: it is off, or evaluated with no pickup of `t` standing? -/
def State.ruleDone (s : State) (r t : Nat) : Bool :=
  !s.flag F.INJ_STATUS.ARMED || !s.flag (F.INJ_R_CTRL.EN r) ||
    (decide (t < (s.rule r).next) && !(List.range 16).any (fun g => (s.group g).pickups.any (fun u => u.six == t && u.rule == r)))

/-- Rules with CONJ of group `g`. -/
def State.groupRules (s : State) (g : Nat) : List Nat :=
  (List.range 128).filter (fun r => s.flag (F.INJ_R_ACT.CONJ r) && s.get (F.INJ_R_ACT.CGRP r) == g)

/-- Truth of rule `r` for SIX `t`; a rule that is off is false and unusable. -/
def State.ruleOut (s : State) (r t : Nat) : Option (Bool × Bool) :=
  if !s.flag F.INJ_STATUS.ARMED || !s.flag (F.INJ_R_CTRL.EN r) then some (false, false)
  else if t < (s.rule r).next then
    match kvGet (fun _ => []) (s.rule r).outs (t % histDepth) with
    | o :: _ => if o.six = t then some (true, o.out) else some (false, false)
    | [] => some (false, false)
  else none

/-- A value that holds from its change on is known for SIX `t` once that period is over. -/
def State.past (s : State) (t : Nat) (v : Bool) : Option (Bool × Bool) := if t < s.six then some (true, v) else none

/-- The state of a source for SIX `t`, usable and true, or none while it is unknown. -/
def State.lftSource (s : State) (src idx t : Nat) : Option (Bool × Bool) :=
  let off := !s.flag F.INJ_STATUS.ARMED
  if src = 1 then
    if off then some (false, false) else (s.elementAt (idx / 4) (idx % 4) t).map (fun o => (o.usable, o.out))
  else if src = 2 then
    if off then some (false, false) else (s.pairAt (idx / 2) (idx % 2) t).map (fun o => (o.usable, o.out))
  else if src = 3 then s.ruleOut idx t
  else if src = 4 then if s.ruleDone idx t then some (true, s.inj.decs.contains (false, idx, t)) else none
  else if src = 5 then
    if (s.groupRules idx).all (fun r => s.ruleDone r t) then some (true, s.inj.decs.contains (true, idx, t)) else none
  else if src = 6 then (s.presentedAt idx t).map (fun x => (x.2, x.1))
  else if src = 7 then
    if t < (kvGet (fun _ => CmpSt.reset) s.lft.cmps idx).next then
      some ((((kvGet (fun _ => CmpSt.reset) s.lft.cmps idx).outs.find? (fun o => o.1 == t)).map (fun o => (o.2.2, o.2.1))).getD
        (false, false))
    else if s.get (F.LFT_CMP_CTL.KIND idx) = 0 then some (false, false) else none
  else if src = 8 then s.past t (bit ((histAt s.lft.flags t).getD 0) idx)
  else if src = 9 then s.past t (s.lft.fires.contains (idx, t))
  else if src = 10 then s.past t ((histAt (kvGet (fun _ => []) s.inj.tdoHist idx) t).getD false)
  else if src = 11 then
    if (List.range 128).all (fun r => s.ruleDone r t) then some (true, s.inj.decs.any (fun d => d.2.2 == t)) else none
  else if src = 12 then s.past t (bit (gatesAt s.inj.gates t) idx)
  else some (false, false)

/-- Elements and pairs evaluate up to SIX `t` as far as known. -/
def State.lftSourceTo (s : State) (src idx t : Nat) : State :=
  if src = 1 then s.elementsTo (idx / 4) t else if src = 2 then s.pairTo (idx / 2) t else s

/-! ## Slow set (R255) -/

/-- Value and quality of slow-set entry `j` tagged `tag`; none while it may still come. -/
def State.slowAt (s : State) (j tag : Nat) : Option (Int × Nat) :=
  let n := s.get (F.LFT_SLOW.CTX j)
  let c := s.get (F.LFT_SLOW.CH j)
  let item := s.get (F.LFT_SLOW.ITEM j)
  if !s.flag (F.LFT_SLOW.EN j) then some (0, qMISSING)
  else match s.derivAt n c tag with
    | some d => some (if item = 0 then (d.dec, d.decQ) else if item = 1 then (d.mean, d.dcQ) else if item = 2 then (d.rms, d.dcQ)
        else (d.der, d.dcQ))
    | none => if s.ctxState n < 2 ∨ tag + 200 < s.six then some (0, qMISSING) else none

/-! ## Comparators (R264) -/

def State.cmp (s : State) (i : Nat) : CmpSt := kvGet (fun _ => CmpSt.reset) s.lft.cmps i

def State.setCmp (s : State) (i : Nat) (x : CmpSt) : State :=
  { s with lft := { s.lft with cmps := kvPut (fun _ => CmpSt.reset) s.lft.cmps i x } }

/-- The input of comparator `i` at SIX `t` with its usability, or none while it is unknown. -/
def State.cmpInput (s : State) (i t : Nat) : Option (Int × Bool) :=
  let k := s.get (F.LFT_CMP_CTL.KIND i)
  let x := s.get (F.LFT_CMP_CTL.INDEX i)
  if k = 1 then (s.fast x t).map (fun v => (v.code, v.usable))
  else if k = 2 then (s.slowAt x (derivTag t)).map (fun v => (v.1, bit v.2 0))
  else if t < s.six then some (signed 32 ((histAt (kvGet (fun _ => []) s.lft.slots x) t).getD 0).toNat, true)
  else none

/-- The test of R264 with the threshold widened by `w`. -/
def cmpMeets (mode : Nat) (x th w : Int) : Bool :=
  if mode = 0 then th - w ≤ x else if mode = 1 then x ≤ th + w else th - w ≤ (x.natAbs : Int)

/-- One comparator evaluates its next SIX. -/
def State.cmpStep (s : State) (i : Nat) (v : Int × Bool) : State :=
  let x := s.cmp i
  let w : Int := if x.out then s.get (F.LFT_CMP_HYST.VALUE i) % 2 ^ 24 else 0
  let o := v.2 && cmpMeets (s.get (F.LFT_CMP_CTL.MODE i)) v.1 (signed 32 (s.get (F.LFT_CMP_TH.VALUE i))) w
  (s.setCmp i ⟨x.next + 1, o, (x.next, o, v.2) :: x.outs.take 1023⟩).set (F.LFT_CMP_CTL.OUT i) (b2n o)

def cmpGo : Nat → Nat → State → State
  | 0, _, s => s
  | f + 1, i, s =>
    match s.cmpInput i (s.cmp i).next with
    | some v => cmpGo f i (s.cmpStep i v)
    | none => s

/-- Comparator `i` evaluates up to SIX `t` as far as known, in rising order. -/
def State.cmpTo (s : State) (i t : Nat) : State :=
  if s.get (F.LFT_CMP_CTL.KIND i) = 0 ∨ !s.lftRuns then s else cmpGo (t + 1 - (s.cmp i).next) i s

/-! ## Recipes as they stand -/

def State.recipe (s : State) (r : Nat) : Recipe := kvGet (fun _ => Recipe.reset) s.lft.recs r

def State.setRecipe (s : State) (r : Nat) (x : Recipe) : State :=
  { s with lft := { s.lft with recs := kvPut (fun _ => Recipe.reset) s.lft.recs r x } }

def State.rec? (s : State) (n : Nat) : Option LftRec := s.lft.arc.find? (fun d => d.recno == n)

/-- The open record of recipe `r`. -/
def State.openRec (s : State) (r : Nat) : Option LftRec := (s.recipe r).recno.bind s.rec?

/-- Last SIX that a record extracts: END, or the SIX before a configuration closes it (R282). -/
def LftRec.upTo (d : LftRec) : Nat := min d.fin (d.stop.getD (d.fin + 1) - 1)

def State.modRec (s : State) (n : Nat) (f : LftRec → LftRec) : State :=
  { s with lft := { s.lft with arc := s.lft.arc.map (fun d => if d.recno = n then f d else d) } }

/-- Does the sentence of recipe `r` run (R268, R269)? It stands while a record is extracted without EXTEND, or up to the SIX at which a
configuration closes it. -/
def State.sentenceRuns (s : State) (r : Nat) : Bool :=
  s.lftRuns && s.flag (F.LFT_R_CTL.EN r) && ((s.recipe r).recno.isNone || (s.openRec r).any (fun d => d.extend && d.stop.isNone))

/-- STATE and CLAUSE of recipe `r`, and EXTRACTING. -/
def State.showRecipe (s : State) (r : Nat) : State :=
  let st := match s.openRec r with
    | some d => if d.upTo < (s.recipe r).pos then 4 else if d.extend then 3 else 2
    | none => b2n (s.sentenceRuns r)
  ((s.set (F.LFT_R_STAT.STATE r) st).set (F.LFT_R_STAT.CLAUSE r) (s.recipe r).clause).set F.LFT_STATUS.EXTRACTING
    (maskOf 8 (fun i => (s.recipe i).recno.isSome))

/-! ## Histograms (R274) -/

def State.hist (s : State) (u : Nat) : HistSt := kvGet (fun _ => HistSt.reset) s.lft.hists u

def State.setHist (s : State) (u : Nat) (x : HistSt) : State :=
  { s with lft := { s.lft with hists := kvPut (fun _ => HistSt.reset) s.lft.hists u x } }

/-- Unit `u` zeroed. -/
def State.histZero (s : State) (u : Nat) : State :=
  ((s.setHist u { s.hist u with bins := [], clear := none }).set (F.LFT_H_CTL.SATBINS u) 0).set (F.LFT_H_COUNT.COUNT u) 0

/-- The bin of a value: less OFFSET, shifted right arithmetically, clamped. -/
def histBin (off : Int) (shift : Nat) (v : Int) : Nat := (clampInt 0 4095 ((v - off) / ((2 ^ shift : Nat) : Int))).toNat

/-- Unit `u` counts a value. -/
def State.histAdd (s : State) (u : Nat) (v : Int) : State :=
  let x := s.hist u
  let b := histBin (signed 32 (s.get (F.LFT_H_OFFSET.OFFSET u))) (s.get (F.LFT_H_CFG.SHIFT u)) v
  let n := kvGet (fun _ => 0) x.bins b
  let s := (s.setHist u { x with bins := kvPut (fun _ => 0) x.bins b (min (n + 1) 0xFFFFFFFF) }).bump (F.LFT_H_COUNT.COUNT u)
  if n = 0xFFFFFFFE then s.bump (F.LFT_H_CTL.SATBINS u) else s

/-- The clause of recipe `r` that was active at SIX `t`, none where its sentence did not run. -/
def State.clauseAt (s : State) (r t : Nat) : Option Nat := ((s.recipe r).past.find? (fun h => h.1 ≤ t)).bind Prod.snd

/-- The source of unit `u` at SIX `t`: none while unknown, else the value if the unit reads one there that is usable. -/
def State.histInput (s : State) (u t : Nat) : Option (Option Int) :=
  let x := s.get (F.LFT_H_CFG.INDEX u)
  if s.get (F.LFT_H_CFG.KIND u) = 0 then some none
  else if s.get (F.LFT_H_CFG.KIND u) = 1 then (s.fast x t).map (fun v => if v.usable then some v.code else none)
  else if t % 100 = 99 then (s.slowAt x t).map (fun v => if bit v.2 0 then some v.1 else none)
  else some none

/-- The unit joins the open records that take it as it stands after SIX `t`, in rising order of units. -/
def State.histAttach (s : State) (u t : Nat) : State :=
  let e := (u, s.rd (A.LFT_H_CFG u), s.rd (A.LFT_H_OFFSET u), (s.hist u).bins)
  { s with lft := { s.lft with arc := s.lft.arc.map (fun d =>
    if d.state = 1 ∧ d.cutAt.isNone ∧ d.trig = t ∧ bit d.histMask u then
      { d with hists := d.hists.filter (fun h => h.1 < u) ++ [e] ++ d.hists.filter (fun h => u < h.1) }
    else d) } }

/-- Does record `d` still wait for a unit of its HISTMASK to take its trigger's SIX? -/
def State.histWaits (s : State) (d : LftRec) : Bool := (List.range 16).any (fun u => bit d.histMask u && decide ((s.hist u).next ≤ d.trig))

/-- Unit `u` takes SIX `t`. -/
def State.histStep (s : State) (u t : Nat) (v : Option Int) : State :=
  let s := if (s.hist u).clear.any (fun k => k ≤ t) then s.histZero u else s
  let active := s.clauseAt (s.get (F.LFT_H_CFG.RECIPE u)) t == some (s.get (F.LFT_H_CFG.CLAUSE u))
  let s := match v with
    | some x => if active then s.histAdd u x else s
    | none => s
  (s.setHist u { s.hist u with next := t + 1 }).histAttach u t

def histGo : Nat → Nat → State → State
  | 0, _, s => s
  | f + 1, u, s =>
    match s.histInput u (s.hist u).next with
    | some v => histGo f u (s.histStep u (s.hist u).next v)
    | none => s

/-- First SIX that no ring line or running sentence has settled. -/
def State.histHorizon (s : State) : Nat :=
  (List.range 8).foldl (fun h r => if s.sentenceRuns r then min h (s.recipe r).next else h) s.lft.next

/-- Every histogram unit takes the SIX that are settled. -/
def State.histsTo (s : State) : State :=
  let h := s.histHorizon
  (List.range 16).foldl (fun t u => histGo (h - (t.hist u).next) u t) s

/-! ## Ring and journal (R253, R254) -/

/-- Entries of the change journal. -/
def journalMax : Nat := 4194304

/-- Binary signal `k` at SIX `t` (R257), or none while unknown. -/
def State.bsigAt (s : State) (k t : Nat) : Option Bool :=
  if s.flag (F.LFT_BSIG.EN k) then
    (s.lftSource (s.get (F.LFT_BSIG.SRC k)) (s.get (F.LFT_BSIG.INDEX k)) t).map (fun x => x.1 && x.2)
  else some false

/-- Has every link delivered its sample of SIX `k`, or had it marked MISSING? -/
def State.lineKnown (s : State) (k : Nat) : Bool := (List.range 256).all (fun n => (s.fast n k).isSome)

/-- Are all binary signals known for SIX `k`? -/
def State.binsKnown (s : State) (k : Nat) : Bool := (List.range 64).all (fun i => (s.bsigAt i k).isSome)

/-- Sources of binary signals and the comparators evaluate up to SIX `k`. -/
def State.lineSources (s : State) (k : Nat) : State :=
  let s := (List.range 64).foldl (fun t i => t.cmpTo i k) s
  (List.range 64).foldl (fun t i =>
    if t.flag (F.LFT_BSIG.EN i) then t.lftSourceTo (t.get (F.LFT_BSIG.SRC i)) (t.get (F.LFT_BSIG.INDEX i)) k else t) s

/-- The 768 bytes of a ring line. -/
def State.lineBytes (s : State) (k : Nat) : List Byte :=
  ((List.range 256).map (fun n =>
    match s.fast n k with
    | some x => leBytes 3 (if bit x.q 2 then 0 else unsigned 24 x.code)
    | none => leBytes 3 0)).flatten

/-- Oldest SIX for which the journal reaches back to a full state. -/
def State.journalOld (s : State) : Nat := (((s.lft.jrn.filter JEntry.full).getLast?).map JEntry.six).getD s.lft.next

/-- Oldest SIX whose ring line stands. -/
def State.lineOld (s : State) : Nat := max s.lft.start (s.lft.next - ringDepth)

/-- Oldest reachable SIX (R254). -/
def State.ringOld (s : State) : Nat := max s.lineOld s.journalOld

/-- A journal entry of 32 bytes is written, at DRAM 0x3_C000_0000; a full journal loses its oldest. -/
def State.pushJournal (s : State) (e : JEntry) : State :=
  let s := s.companion 0x3C0000000 (32 * journalMax) (32 * s.lft.jpos) 32
  let s := { s with lft := { s.lft with jrn := (e :: s.lft.jrn).take journalMax, jpos := s.lft.jpos + 1 } }
  if s.lft.jrn.length = journalMax ∧ s.lineOld < s.journalOld then s.raise F.LFT_EVT.CLIP else s

/-- The journal takes SIX `k`. -/
def State.journal (s : State) (k : Nat) : State :=
  let q (n : Nat) := ((s.fast n k).map Samp.q).getD qMISSING
  let b := maskOf 64 (fun i => (s.bsigAt i k).getD false)
  let full := k % 65536 = 0 ∨ k = s.lft.start
  let qs := ((List.range 256).map (fun n => (n, q n))).filter (fun e => full || kvGet (fun _ => 0) s.lft.jq e.1 != e.2)
  let bs := ((List.range 64).map (fun i => (i, bit b i))).filter (fun e => full || bit s.lft.jb e.1 != e.2)
  let jq := qs.foldl (fun m e => kvPut (fun _ => 0) m e.1 e.2) s.lft.jq
  let s := { s with lft := { s.lft with jq := jq, jb := b } }
  if full ∨ qs ≠ [] ∨ bs ≠ [] then s.pushJournal ⟨k, full, qs, bs⟩ else s

def journalGo : Nat → State → State
  | 0, s => s
  | f + 1, s =>
    let k := s.lft.jnext
    let s := s.lineSources k
    if s.binsKnown k then
      let s := s.journal k
      journalGo f { s with lft := { s.lft with jnext := k + 1 } }
    else s

/-- The journal takes every SIX whose line is written, in rising order, as far as its binary signals are known. -/
def State.journalTo (s : State) : State := journalGo (s.lft.next - s.lft.jnext) s

/-- Quality of fast channel `n`, and value of binary signal `i`, at SIX `k` as the journal gives them. -/
def State.jrnQual (s : State) (n k : Nat) : Nat :=
  ((s.lft.jrn.findSome? (fun e => if e.six ≤ k then e.quals.lookup n else none))).getD 0

def State.jrnBin (s : State) (i k : Nat) : Bool :=
  ((s.lft.jrn.findSome? (fun e => if e.six ≤ k then e.bins.lookup i else none))).getD false

/-- RING_LINE_WRITE (R253, R254): the next line, once every sample in it is known, and the journal as far as it reaches. -/
def execRingLineWrite (s : State) : Host.Outcome State Fault Refusal :=
  let k := s.lft.next
  if s.lftRuns ∧ k ≤ s.six ∧ s.lineKnown k then
    let t := s.storeBytes spDRAM (768 * (k % ringDepth)) (s.lineBytes k)
    let t := ({ t with lft := { t.lft with next := k + 1 } } : State).journalTo
    .next ((t.set64 A.LFT_RING_OLD t.ringOld).histsTo)
  else .next s

/-! ## Slow ring (R255) -/

/-- Lines of the slow ring. -/
def slowMax : Nat := 196608

/-- Is the line of boundary `b` due: the SIX has come, its output releases have happened, and its values are known? -/
def State.slowDue (s : State) (b : Nat) : Bool :=
  s.lftRuns && decide (b ≤ s.six) && !(b == s.six && s.outputsOpen) && (List.range 256).all (fun j => (s.slowAt j (b - 1)).isSome)

/-- Does entry `j` show a decimated value of a kind-2 channel (R272)? -/
def State.slowDecim (s : State) (j : Nat) : Bool := s.kind (s.get (F.LFT_SLOW.CTX j)) == 2 && s.get (F.LFT_SLOW.ITEM j) == 0

/-- SLOW_RING_LINE (R255): the line of the next base-cycle boundary not yet written, once it is due. The line's place in DRAM is
0x3_9000_0000 on. -/
def execSlowRingLine (s : State) : Host.Outcome State Fault Refusal :=
  let b := s.lft.slowNext
  if s.slowDue b then
    let vals := (List.range 256).map (fun j => (s.slowAt j (b - 1)).getD (0, qMISSING))
    let slots := (List.range 256).map (fun i => (histAt (kvGet (fun _ => []) s.lft.slots i) b).getD 0)
    let rels := s.lft.rels.filter (fun e => e.1 == b)
    let rel := maskOf 64 (fun t => rels.any (fun e => e.2.1 == t))
    let clean := maskOf 64 (fun t => rels.any (fun e => e.2.1 == t && e.2.2))
    let holes := (List.range 256).filter (fun j => s.slowDecim j && bit (vals.getD j (0, 0)).2 2)
    let line : SlowLine := ⟨b, vals, slots, rel, clean, holes⟩
    let t := s.companion 0x390000000 (4096 * slowMax) (4096 * (b / baseCycle)) 4096
    .next { t with lft := { t.lft with slow := line :: t.lft.slow.take (slowMax - 1), slowNext := b + baseCycle } }
  else .next s

/-! ## Grid values (R99 to R101) with their replay capture (R258) -/

/-- GRID_VALUE_COMPUTE (R99 to R101): at the start of period g + 1 from the samples received by then. -/
def execGridValueCompute (n : Fin 256) (s : State) : Host.Outcome State Fault Refusal :=
  match s.gridCompute n with
  | some t => .next (t.captureGrid n (s.six - 1))
  | none => .next s

end Sys2Proof.Machine
end

