-- ==== Sys2Proof/Machine/LftRec.lean ====
section
/-!
DEFINITION. Machine/LftRec.lean: records of the Loft: their bytes (R275 to R277), the archive (R280, R281), opening, extraction, gaps, cuts
and closing (R261, R268 to R272, R282, R283).
-/
namespace Sys2Proof.Machine
open Sys2Proof

/-! ## Bytes of a record (R275 to R277) -/

/-- Zero bytes up to a multiple of `n`. -/
def padTo (n : Nat) (bs : List Byte) : List Byte := bs ++ List.replicate ((n - bs.length % n) % n) 0

/-- `n` zero bytes. -/
def zeros (n : Nat) : List Byte := List.replicate n 0

/-- A text of `n` ASCII bytes, zero-padded. -/
def textBytes (n : Nat) (t : String) : List Byte := (t.toList.map (fun c => BitVec.ofNat 8 c.toNat) ++ zeros n).take n

/-- A signed number of 32 bits. -/
def s32 (v : Int) : List Byte := leBytes 4 (unsigned 32 v)

def chanEntry (e : Nat × Nat × ChanInfo) : List Byte :=
  leBytes 1 e.1 ++ zeros 1 ++ leBytes 2 e.2.1 ++ leBytes 4 e.2.2.a.toNat ++ leBytes 4 e.2.2.b.toNat ++ textBytes 4 e.2.2.unit ++
    textBytes 16 e.2.2.name

def fastLine (l : Nat × List Int) : List Byte := padTo 4 (l.2.map (fun v => leBytes 3 (unsigned 24 v))).flatten

def slowEntry (l : SlowLine) : List Byte :=
  leBytes 8 l.b ++ leBytes 8 l.rel ++ leBytes 8 l.clean ++ (l.vals.map (fun v => s32 v.1)).flatten ++
    padTo 4 (l.vals.map (fun v => leBytes 1 v.2)).flatten ++ (l.slots.map (fun w => leBytes 4 w.toNat)).flatten

def eventEntry (e : LftEvent) : List Byte :=
  let head := leBytes 8 e.six ++ leBytes 1 e.typ ++ leBytes 1 e.tid ++ leBytes 2 e.cmask
  if e.typ = 1 then head ++ leBytes 4 e.off ++ leBytes 8 e.noun ++ leBytes 4 e.old.toNat ++ leBytes 4 e.new.toNat
  else if e.typ = 2 then head ++ leBytes 2 e.epoch ++ zeros 2 ++ leBytes 8 (unsigned 64 e.step) ++ zeros 8
  else head ++ zeros 20

/-- A histogram unit: CFG gives its source kind, index, SHIFT and CLAUSE. -/
def histEntry (h : Nat × Word × Word × KV Nat) : List Byte :=
  leBytes 1 h.1 ++ leBytes 1 (fieldOf h.2.1 0 2) ++ leBytes 2 (fieldOf h.2.1 8 8) ++ leBytes 4 h.2.2.1.toNat ++
    leBytes 1 (fieldOf h.2.1 24 5) ++ leBytes 1 (fieldOf h.2.1 20 4) ++ zeros 6 ++
    ((List.range 4096).map (fun b => leBytes 4 (kvGet (fun _ => 0) h.2.2.2 b))).flatten

def nounEntry (n : Nat × Nat × List Word) : List Byte :=
  leBytes 8 n.1 ++ leBytes 4 n.2.1 ++ leBytes 4 (4 * n.2.2.length) ++ (n.2.2.map (fun w => leBytes 4 w.toNat)).flatten

/-- The section and bytes of a capture. -/
def capEntry : RplCap → Nat × List Byte
  | .nouns k p body =>
    let b := (body.map nounEntry).flatten
    (9, leBytes 8 k ++ leBytes 1 p ++ zeros 3 ++ leBytes 4 b.length ++ b)
  | .image k t _ region size =>
    (10, leBytes 8 k ++ leBytes 1 t ++ zeros 3 ++ leBytes 4 size ++
      ((List.range (size / 4)).map (fun i => leBytes 4 (kvGet (fun _ => 0) region (4 * i)).toNat)).flatten)
  | .grid k _ vals =>
    (11, leBytes 8 k ++ (vals.map (fun v => s32 v.2.1)).flatten ++ padTo 4 (vals.map (fun v => leBytes 1 v.2.2)).flatten)
  | .effects k t _ clean items =>
    (12, leBytes 8 k ++ leBytes 1 t ++ leBytes 1 (b2n clean) ++ leBytes 2 items.length ++ zeros 4 ++
      (items.map (fun e => leBytes 1 e.kind ++ zeros 1 ++ leBytes 2 e.index ++ leBytes 4 e.off ++ leBytes 4 e.val.toNat)).flatten)

/-- The captures of a section. -/
def LftRec.capsOf (d : LftRec) (kind : Nat) : List (List Byte) :=
  (d.caps.reverse.map capEntry).filterMap (fun e => if e.1 = kind then some e.2 else none)

/-- The sections a record holds: KIND, COUNT, bytes. -/
def LftRec.sections (d : LftRec) : List (Nat × Nat × List Byte) :=
  let sec (kind : Nat) (l : List (List Byte)) : Nat × Nat × List Byte := (kind, l.length, l.flatten)
  let qual := d.quals.reverse.map (fun e => leBytes 8 e.1 ++ leBytes 2 e.2.1 ++ leBytes 1 e.2.2 ++ zeros 5)
  let bin := d.binCh.reverse.map (fun e => leBytes 8 e.1 ++ leBytes 1 e.2.1 ++ leBytes 1 (b2n e.2.2) ++ zeros 6)
  let gap := d.gaps.reverse.map (fun g => leBytes 8 g.start ++ leBytes 4 g.len ++ leBytes 2 g.ch ++ leBytes 1 g.cause ++ zeros 1)
  ([sec 1 (d.infos.map chanEntry), sec 2 (d.fast.reverse.map fastLine),
    (3, qual.length, if d.fasts = [] then [] else padTo 8 (d.qual0.map (leBytes 1)).flatten ++ qual.flatten),
    sec 4 (d.slow.reverse.map slowEntry),
    (5, bin.length, if d.bins = [] then [] else leBytes 4 d.bin0 ++ zeros 4 ++ bin.flatten),
    sec 6 gap, sec 7 (d.events.reverse.map eventEntry), sec 8 (d.hists.map histEntry),
    sec 9 (d.capsOf 9), sec 10 (d.capsOf 10), sec 11 (d.capsOf 11), sec 12 (d.capsOf 12)]).filter (fun e => e.2.2 != [])

/-- Directory and body: each section starts 64-byte aligned, the first at `off`. -/
def layOut : Nat → List (Nat × Nat × List Byte) → List Byte × List Byte
  | _, [] => ([], [])
  | off, (k, n, bs) :: l =>
    let body := padTo 64 bs
    let r := layOut (off + body.length) l
    (leBytes 2 k ++ zeros 2 ++ leBytes 4 n ++ leBytes 8 off ++ leBytes 8 bs.length ++ leBytes 4 (crc32c bs) ++ zeros 4 ++ r.1, body ++ r.2)

/-- FLAGS of R275. -/
def LftRec.flags (d : LftRec) : Nat :=
  b2n d.replay + 2 * b2n d.extended + 4 * b2n (d.gaps != []) + 8 * b2n d.host + 16 * b2n d.clipped + 32 * b2n d.prot + 64 * b2n d.outside

/-- The header (R275) of a record of `n` sections and `bytes` bytes. -/
def LftRec.header (d : LftRec) (n bytes : Nat) : List Byte :=
  let h := leBytes 4 0x5254464C ++ leBytes 2 1 ++ leBytes 1 d.state ++ leBytes 1 d.recipe ++ leBytes 4 d.recno ++ leBytes 2 d.flags ++
    leBytes 2 d.cmask ++ leBytes 8 d.trig ++ leBytes 8 d.start ++ leBytes 8 d.fin ++ leBytes 8 d.rearm ++ leBytes 8 d.dead ++
    leBytes 4 (d.pcc % 2 ^ 24) ++ leBytes 2 d.epoch ++ leBytes 2 n ++ leBytes 8 (d.todSec % 2 ^ 48) ++ leBytes 4 d.todNs ++
    leBytes 1 d.part ++ zeros 3 ++ leBytes 8 (unsigned 64 d.offset) ++ leBytes 4 d.fpSeq ++ zeros 4 ++ beBytes 32 d.fpDigest.toNat ++
    beBytes 32 d.progDigest.toNat ++ leBytes 2 d.fasts.length ++ leBytes 2 d.slows.length ++ leBytes 2 d.pvs.length ++
    leBytes 2 d.bins.length ++ leBytes 4 d.gaps.length ++ leBytes 2 (d.events.filter (fun e => e.typ == 3)).length ++
    leBytes 2 d.hists.length ++ leBytes 8 bytes ++ zeros 64
  h ++ leBytes 4 (crc32c h) ++ zeros 4

/-- The record, whole. -/
def LftRec.bytes (d : LftRec) : List Byte :=
  let secs := d.sections
  let first := (256 + 32 * secs.length + 63) / 64 * 64
  let r := layOut first secs
  d.header secs.length (first + r.2.length) ++ padTo 64 r.1 ++ r.2

/-- The header of the record as it stands whole. -/
def LftRec.head (d : LftRec) : List Byte := d.bytes.take 256

/-! ## The archive (R280, R281) -/

/-- Bytes of the archive, and of protected records at most. -/
def arcMax : Nat := 240 * 2 ^ 30
def protMax : Nat := 120 * 2 ^ 30

/-- Bytes that a record takes, reserved ones included. -/
def LftRec.space (d : LftRec) : Nat := if d.state = 1 then max d.room d.size else d.size

/-- Bytes in use, and those of protected records. -/
def State.arcUsed (s : State) : Nat := (s.lft.arc.map LftRec.space).sum
def State.arcProt (s : State) : Nat := ((s.lft.arc.filter LftRec.prot).map LftRec.space).sum

/-- LFT_ARC, LFT_ARC_PROT, LFT_REC_FIRST and LFT_REC_LAST. -/
def State.arcRegs (s : State) : State :=
  let s := (s.set F.LFT_ARC.MIB (ceilDiv s.arcUsed (2 ^ 20))).set F.LFT_ARC_PROT.MIB (ceilDiv s.arcProt (2 ^ 20))
  (s.set F.LFT_REC_FIRST.RECNO ((s.lft.arc.head?.map LftRec.recno).getD 0)).set F.LFT_REC_LAST.RECNO
    ((s.lft.arc.getLast?.map LftRec.recno).getD 0)

/-- May a record be deleted: closed and unprotected? -/
def LftRec.deletable (d : LftRec) : Bool := d.state != 1 && !d.prot

/-- The archive without its oldest record that may be deleted. -/
def dropOldest : List LftRec → List LftRec
  | [] => []
  | d :: l => if d.deletable then l else d :: dropOldest l

def freeGo : Nat → Nat → State → State
  | 0, _, s => s
  | f + 1, need, s =>
    if arcMax < s.arcUsed + need ∧ s.lft.arc.any LftRec.deletable then
      freeGo f need { s with lft := { s.lft with arc := dropOldest s.lft.arc } }
    else s

/-- `need` bytes more are reserved for record `n` as far as they can be freed. -/
def State.reserve (s : State) (n need : Nat) : State :=
  let s := freeGo s.lft.arc.length need s
  let got := min need (arcMax - s.arcUsed)
  (s.modRec n (fun d => { d with room := d.room + got })).arcRegs

/-- Window of WEAR_RATE: 30 days in samples. -/
def wearWindow : Nat := 30 * 86400 * samplesPerSecond

/-- `n` bytes are written to the archive (R281). -/
def State.arcWrite (s : State) (n : Nat) : State :=
  let total := s.get64 A.LFT_ARC_WR + n
  let s := s.set64 A.LFT_ARC_WR total
  let old := s.lft.wr.filter (fun e => s.six < e.1 + wearWindow)
  let wr : List (Nat × Nat) := match old with
    | (k, m) :: l => if k / samplesPerSecond = s.six / samplesPerSecond then (k, m + n) :: l else (s.six, n) :: old
    | [] => [(s.six, n)]
  let s := { s with lft := { s.lft with wr := wr } }
  let rate := decide (10950000000000 < (wr.map Prod.snd).sum)
  let fin := decide (4000000000000000 ≤ total)
  let new := (rate && !s.flag F.LFT_ARC.WEAR_RATE) || (fin && !s.flag F.LFT_ARC.WEAR_END)
  let s := (s.set F.LFT_ARC.WEAR_RATE (b2n rate)).set F.LFT_ARC.WEAR_END (b2n fin)
  if new then s.raise F.LFT_EVT.WEAR else s

/-! ## Opening (R261, R266 to R270) -/

/-- The set bits of the eight words of a mask, rising. -/
def State.mask256 (s : State) (a : Nat → Nat) : List Nat := (List.range 256).filter (fun i => bit (s.rd (a (i / 32))).toNat (i % 32))

/-- The fast channels of every kind-1 context that a task of partition `p` declares (R258). -/
def State.declFast (s : State) (p n : Nat) : Bool :=
  s.tasks.any (fun t => s.partNo t.tid == p && t.declCtx.contains (n / 8)) && s.kind (n / 8) == 1 && decide (n % 8 < s.nch (n / 8))

def State.chanInfo (s : State) (typ i : Nat) : ChanInfo := (s.fp.chans.lookup (1024 * typ + i)).getD ⟨0x3F800000, 0, "", ""⟩

/-- First noun-state hyperboundary of a record's replay part (R261). -/
def State.capStart (s : State) (start fin : Nat) : Option Nat :=
  let k := boundaryAt (hyperPeriod * max 1 (s.get F.LFT_NSNAP.NSNAP)) (start + 40000 + s.align)
  if k ≤ fin then some k else none

/-- Releases of task `t` that a span of `n` SIX holds at most. -/
def taskReleases (t : Task) (n : Nat) : Nat := n / (if t.event then baseCycle * max 1 t.minint else max 1 (taskPeriod t)) + 1

/-- Effects that a cycle of task `t` releases at most (R236): words and shelf words it owns, gates, event tasks, notes. -/
def taskEffects (p : Partition) (t : Task) : Nat :=
  ((p.outputs.filter (fun r => r.task == t.tid)).map OutRegion.count).sum +
  ((p.shelves.filter (fun h => h.writer == t.tid)).map Shelf.words).sum + (p.gates.filter (fun g => g.2 == t.tid)).length + 16 + 16

/-- Greatest size of the replay sections over `n` SIX (R277, sections 9 to 12). -/
def State.replaySize (s : State) (p n : Nat) : Nat :=
  match s.runningPart p with
  | some q =>
    let keys := (s.gridKeys p).length
    (n / (hyperPeriod * max 1 (s.get F.LFT_NSNAP.NSNAP)) + 1) * (16 + (q.nouns.map (fun m => 16 + nounSize q m)).sum) +
    (q.tasks.map (fun t => taskReleases t n * (16 + max t.region 0x40 + 16 + 12 * taskEffects q t))).sum +
    (n / 25 + 1) * (8 + 4 * keys + (keys + 3) / 4 * 4)
  | none => 0

/-- Bytes of a FAST line and of a SLOW line. -/
def LftRec.lineCost (d : LftRec) : Nat := (3 * d.fasts.length + 3) / 4 * 4
def LftRec.slowCost (d : LftRec) : Nat := 24 + 4 * d.slows.length + (d.slows.length + 3) / 4 * 4 + 4 * d.pvs.length

/-- The record's greatest size without gaps (R268, R280): header, directory, alignment; channels and lines; a quality and a signal change of
every channel at every SIX; a batch of 64 value changes at every boundary and a retrigger; histograms; replay sections. -/
def State.fullSize (s : State) (d : LftRec) : Nat :=
  let n := d.fin + 1 - d.start
  let bounds := d.fin / 100 + 1 - ceilDiv d.start 100
  640 + 12 * 64 + 32 * d.infos.length + n * d.lineCost + (d.fasts.length + 7) / 8 * 8 + 16 * d.fasts.length * n + bounds * d.slowCost +
    8 + 16 * d.bins.length * n + 32 * (64 * bounds + 1) + 16400 * (maskBits 16 d.histMask).length +
    (match d.capFrom with
     | some k => s.replaySize d.part (d.fin + 1 - k)
     | none => 0)

/-- Does the sentence of recipe `r` use a timed event (R279)? -/
def State.usesTimed (s : State) (r : Nat) : Bool :=
  (List.range (s.get (F.LFT_R_CTL.LAST r))).any (fun c => (List.range 4).any (fun k => s.get (F.LFT_R_C_TERM.SRC r c k) == 9))

/-- Configuration and program in force at this SIX, and at SIX `t` (R275). -/
def State.identNow (s : State) : LftIdent :=
  ⟨(s.rd A.INJ_CFG_SEQ).toNat, s.fp.digest, ((s.tsk.prog).map ProgImage.digest).getD 0⟩
def State.identAt (s : State) (t : Nat) : LftIdent := if s.six ≤ t then s.identNow else (histAt s.lft.ident t).getD s.identNow

/-- What has been in force in the period that ends is noted where it has changed. -/
def State.lftIdent (s : State) : State :=
  if (s.lft.ident.head?.map Prod.snd) = some s.identNow then s
  else { s with lft := { s.lft with ident := (s.six, s.identNow) :: s.lft.ident } }

/-- A new record of SIX `t` with the header fields that every record takes from the machine. -/
def State.newRec (s : State) (recipe t start fin : Nat) : LftRec :=
  let m := mapAt s.clk.maps t
  let tod := s.tod t
  let id := s.identAt t
  { recno := s.lft.nextNo, recipe := recipe, state := 1, replay := false, extended := false, host := false, clipped := false, prot := false,
    outside := false, cmask := 0, trig := t, start := start, fin := fin, rearm := 0, dead := 0, pcc := s.cel.pcc, epoch := m.epoch,
    todSec := tod.1, todNs := tod.2, part := 255, offset := m.offset, fpSeq := id.fpSeq, fpDigest := id.fpDigest,
    progDigest := id.progDigest, fasts := [], slows := [], pvs := [], bins := [], infos := [], fast := [],
    qual0 := [], quals := [], slow := [], bin0 := 0, binCh := [], gaps := [], events := [], hists := [], caps := [], capFrom := none,
    size := 0, room := 0, cutAt := none, stop := none, extend := false, post := 0, histMask := 0, decls := [] }

/-- The record of a trigger of recipe `r` at SIX `t`. -/
def State.sentenceRec (s : State) (r t cmask : Nat) (host : Bool) : LftRec :=
  let start := max (t - s.get (F.LFT_R_PRE.LEN r)) s.ringOld
  let fin := t + s.get (F.LFT_R_POST.LEN r) - 1
  let rpl := s.flag (F.LFT_R_CTL.REPLAY r)
  let p := s.get (F.LFT_R_CTL.PART r)
  let mask := s.mask256 (A.LFT_R_FASTMASK r)
  let fasts := (List.range 256).filter (fun n => mask.contains n || (rpl && s.declFast p n))
  let slows := s.mask256 (A.LFT_R_SLOWMASK r)
  let pvs := s.mask256 (A.LFT_R_PVMASK r)
  let bins := maskBits 64 (s.get64 (A.LFT_R_BINMASK r))
  let infos := fasts.map (fun n => (1, n, s.chanInfo 1 n)) ++
    slows.map (fun j => (2, fieldOf (s.rd (A.LFT_SLOW j)) 0 15, s.chanInfo 2 j)) ++
    pvs.map (fun i => (3, i, s.chanInfo 3 i)) ++ bins.map (fun k => (4, fieldOf (s.rd (A.LFT_BSIG k)) 0 16, s.chanInfo 4 k))
  let cap := if rpl then s.capStart start fin else none
  let evts := s.lft.evts.filter (fun e => decide (start ≤ e.six) && decide (e.six ≤ fin))
  { s.newRec r t start fin with
    cmask := cmask, host := host, outside := host || s.usesTimed r, clipped := decide (t < s.get (F.LFT_R_PRE.LEN r) + s.ringOld),
    replay := cap.isSome, part := if rpl then p else 255, fasts := fasts, slows := slows, pvs := pvs, bins := bins, infos := infos,
    events := evts, capFrom := cap, extend := s.flag (F.LFT_R_CTL.EXTEND r), post := s.get (F.LFT_R_POST.LEN r),
    histMask := s.get (F.LFT_R_CTL.HISTMASK r),
    decls := if rpl then (((s.runningPart p).map Partition.tasks).getD []).map (fun k => (k.tid, k.declItems, k.region)) else [] }

/-- Recipe `r` triggers at `t` with no record open (R266, R268). -/
def State.openRecord (s : State) (r t cmask : Nat) (host : Bool) : State :=
  let d := s.sentenceRec r t cmask host
  let s := { s with lft := { s.lft with arc := s.lft.arc ++ [d], nextNo := s.lft.nextNo + 1 } }
  let s := s.setRecipe r { s.recipe r with recno := some d.recno, pos := d.start, credit := 0, lastQ := [], lastB := [] }
  let s := (s.reserve d.recno (s.fullSize d)).dmaShow 0 1
  (s.bump (F.LFT_R_STAT.RECS r)).set (F.LFT_R_LAST_REC.VALUE r) d.recno

/-- A further trigger at `t` while the recipe's record is open (R269, R270). -/
def State.retrigger (s : State) (t cmask : Nat) (host : Bool) (d : LftRec) : State :=
  let fin := t + d.post - 1
  let fin := if fin ≤ d.trig + 1200000000 - 1 then max fin d.fin else d.fin
  let cap := if d.capFrom.isSome ∨ d.part = 255 then d.capFrom else s.capStart d.start fin
  let e : LftEvent := ⟨t, 3, 0, cmask, 0, 0, 0, 0, 0, 0⟩
  let more := s.lft.evts.filter (fun x => decide (d.fin < x.six) && decide (x.six ≤ fin))
  let d' := { d with
    fin := fin, extended := true, outside := d.outside || host, events := e :: (more ++ d.events), capFrom := cap, replay := cap.isSome }
  (s.modRec d.recno (fun _ => d')).reserve d.recno (s.fullSize d' + 32 - s.fullSize d)

/-- Recipe `r` reaches LAST at `t`, or a HOST trigger takes effect (R266 to R270). -/
def State.recipeTrigger (s : State) (r t cmask : Nat) (host : Bool) : State :=
  let s := match s.openRec r with
    | some d => s.retrigger t cmask host d
    | none => s.openRecord r t cmask host
  let ext := (s.openRec r).any LftRec.extend
  let x := s.recipe r
  let now : Option Nat := if ext then some 0 else none
  let s := s.setRecipe r { x with clause := 0, run := 0, timer := 0, host := false, past := (t + 1, now) :: x.past.take 1023 }
  ((s.set64 (A.LFT_R_TRIG_SIX r) t).raise F.LFT_EVT.TRIGGER).showRecipe r

/-! ## Gaps (R271, R272) -/

/-- A gap entry of record `n`, which recipe `r` extracts. -/
def State.addGap (s : State) (r n : Nat) (g : Gap) : State :=
  let s := ((s.modRec n (fun d => { d with gaps := g :: d.gaps, size := d.size + 16 })).arcWrite 16).raise F.LFT_EVT.GAP
  if r < 8 then s.bump (F.LFT_R_GAPS.VALUE r) else s

/-- Every channel of a record. -/
def allChans : Nat := 0xFFFF

/-- Extraction of recipe `r` goes on at SIX `e`, and the lines before it are a gap of `cause`. -/
def State.skipTo (s : State) (r e cause : Nat) (d : LftRec) : State :=
  let x := s.recipe r
  (s.addGap r d.recno ⟨x.pos, e - x.pos, allChans, cause⟩).setRecipe r { x with pos := e, lastQ := [], lastB := [] }

/-- GAP_SKIP (R271). -/
def execGapSkip (r : Fin 8) (s : State) : Host.Outcome State Fault Refusal :=
  match s.openRec r with
  | some d =>
    let e := (s.recipe r).pos
    if s.lftRuns ∧ e ≤ d.upTo ∧ e + 16711680 ≤ s.six then .next ((s.skipTo r (s.six - 16646144) 0 d).showRecipe r) else .next s
  | none => .next s

/-! ## Extraction (R268, R272) -/

/-- Does recipe `r` have a line waiting: written to the ring and the journal, not after END, with its slow-ring line if it has one, and with its
period over, by which its block's grid values are captured? -/
def State.lineWaits (s : State) (r : Nat) : Bool :=
  match s.openRec r with
  | some d =>
    let e := (s.recipe r).pos
    s.lftRuns && decide (e ≤ d.upTo) && decide (e < s.lft.jnext) && (e % 100 != 0 || s.lft.slow.any (fun l => l.b == e)) &&
      (!d.replay || decide (e + 1 < s.six))
  | none => false

/-- Indices at which two lists differ; every index when the first is empty. -/
def changesOf {α : Type} [DecidableEq α] (old new : List α) : List (Nat × α) :=
  ((List.range new.length).zip new).filter (fun e => old[e.1]? != some e.2)

/-- The codes of fast channels as the ring line of SIX `e` holds them. -/
def State.ringCodes (s : State) (e : Nat) (ns : List Nat) : List Int :=
  ns.map (fun n => signed 24 (s.loadNat spDRAM (768 * (e % ringDepth) + 3 * n) 3))

/-- The slow-ring line of a boundary as record `d` takes it, decimated values that R100 made MISSING stored as 0, with the channels of
those. -/
def LftRec.slowFor (d : LftRec) (l : SlowLine) : SlowLine × List Nat :=
  let hole (j : Nat) : Bool := l.holes.contains j
  let vals := d.slows.map (fun j => if hole j then (0, (l.vals.getD j (0, 0)).2) else l.vals.getD j (0, 0))
  let holes := (((List.range d.slows.length).zip d.slows).filter (fun e => hole e.2)).map (fun e => d.fasts.length + e.1)
  ({ l with vals := vals, slots := d.pvs.map (fun i => l.slots.getD i 0) }, holes)

/-- Does record `d` take a capture of SIX `e`? -/
def LftRec.takes (d : LftRec) (e : Nat) (c : RplCap) : Bool :=
  d.capFrom.any (fun k => decide (k ≤ e)) && capSix c == e &&
  (match c with
   | .nouns _ p _ => p == d.part
   | .image _ _ p _ _ => p == d.part
   | .grid _ p _ => p == d.part
   | .effects _ _ p _ _ => p == d.part)

/-- Channel of the first kind-2 channel of a GRID entry in the gap entries of record `d`: after every recorded channel. DESIGN CHOICE. -/
def LftRec.gridChan (d : LftRec) : Nat := d.fasts.length + d.slows.length + d.pvs.length + d.bins.length

/-- The gap entries of a capture: one for each MISSING grid value (R272). -/
def LftRec.gridGaps (d : LftRec) (c : RplCap) : List Gap :=
  match c with
  | .grid g _ vals => vals.zipIdx.filterMap (fun v => if bit v.1.2.2 2 then some ⟨g, 25, d.gridChan + v.2, 1⟩ else none)
  | _ => []

/-- One line of recipe `r`'s record, at the position reached. -/
def State.extractLine (s : State) (r : Nat) (d : LftRec) : State :=
  let x := s.recipe r
  let e := x.pos
  let qs := d.fasts.map (fun n => s.jrnQual n e)
  let bs := d.bins.map (fun k => s.jrnBin k e)
  let first := e == d.start
  let dq := if first then [] else changesOf x.lastQ qs
  let db := if first then [] else changesOf x.lastB bs
  let slow := if e % 100 = 0 then (s.lft.slow.find? (fun l => l.b == e)).map d.slowFor else none
  let caps := s.lft.rpl.filter (d.takes e)
  let n := (if d.fasts = [] then 0 else d.lineCost) + 16 * (dq.length + db.length) + (if slow.isSome then d.slowCost else 0) +
    (caps.map capBytes).sum
  let s := s.setRecipe r { x with pos := e + 1, lastQ := qs, lastB := bs }
  let codes := s.ringCodes e d.fasts
  let s := s.modRec d.recno (fun y =>
    { y with
      fast := if d.fasts = [] then y.fast else (e, codes) :: y.fast, qual0 := if first then qs else y.qual0,
      quals := (dq.map (fun c => (e, c.1, c.2))).reverse ++ y.quals,
      bin0 := if first then maskOf bs.length (fun i => bs.getD i false) else y.bin0,
      binCh := (db.map (fun c => (e, c.1, c.2))).reverse ++ y.binCh,
      slow := (slow.map Prod.fst).toList ++ y.slow, caps := caps ++ y.caps, size := y.size + n })
  let s := ((slow.map Prod.snd).getD []).foldl (fun t c => t.addGap r d.recno ⟨e, 100, c, 1⟩) s
  let s := ((caps.map d.gridGaps).flatten).foldl (fun t g => t.addGap r d.recno g) s
  let lost := d.capFrom.any (fun k => decide (k ≤ e)) && decide (e < s.lft.rplFrom) &&
    !d.gaps.any (fun g => g.cause == 3 && decide (e < g.start + g.len))
  let s := if lost then s.addGap r d.recno ⟨e, min s.lft.rplFrom (d.fin + 1) - e, allChans, 3⟩ else s
  s.arcWrite n

/-- The archive has no room for the rest of recipe `r`'s record: extraction ends there (R280). -/
def State.outOfRoom (s : State) (r : Nat) (d : LftRec) : State :=
  let x := s.recipe r
  ((s.addGap r d.recno ⟨x.pos, d.upTo + 1 - x.pos, allChans, 5⟩).setRecipe r { x with pos := d.upTo + 1 }).raise F.LFT_EVT.ARC_FULL

/-- One line more, unless the journal or the archive stands against it (R272 causes 2 and 5). -/
def State.extractNext (s : State) (r : Nat) (d : LftRec) : State :=
  let x := s.recipe r
  if x.pos < s.journalOld ∧ s.lineOld ≤ x.pos then s.skipTo r (min s.journalOld (d.upTo + 1)) 2 d
  else
    let s := if d.room < d.size + d.lineCost + d.slowCost then s.reserve d.recno 65536 else s
    if ((s.rec? d.recno).map LftRec.room).getD 0 < d.size + d.lineCost + d.slowCost then s.outOfRoom r d else s.extractLine r d

/-- Cost of the next line in 1/840 byte. -/
def LftRec.cost (d : LftRec) (e : Nat) : Nat := 840 * (d.lineCost + if e % 100 = 0 then d.slowCost else 0)

def extractGo : Nat → Nat → State → State
  | 0, _, s => s
  | f + 1, r, s =>
    match s.openRec r with
    | some d =>
      let x := s.recipe r
      if s.lineWaits r ∧ d.cost x.pos ≤ x.credit then
        extractGo f r ((s.setRecipe r { x with credit := x.credit - d.cost x.pos }).extractNext r d)
      else s
    | none => s

/-- Recipe `r` extracts with `share` more; what it has left once it has caught up goes back. -/
def State.extractShare (s : State) (r share : Nat) : Nat × State :=
  let x := s.recipe r
  let t := extractGo 100000 r (s.setRecipe r { x with credit := x.credit + share })
  let y := t.recipe r
  if t.lineWaits r then (0, t.showRecipe r) else (y.credit, (t.setRecipe r { y with credit := 0 }).showRecipe r)

/-- The recipes with lines waiting share `pool` equally, and what those that catch up leave goes to the others. -/
def extractRounds : Nat → Nat → State → State
  | 0, _, s => s
  | f + 1, pool, s =>
    let w := (List.range 8).filter s.lineWaits
    if pool < w.length ∨ w = [] then s
    else
      let p := w.foldl (fun a r => let e := a.2.extractShare r (pool / w.length); (a.1 + e.1, e.2)) (0, s)
      extractRounds f p.1 p.2

/-- What the Loft extracts in one sample period: 400 bytes (800 MB/s), shared among the recipes with lines waiting (R268). -/
def State.lftExtract (s : State) : State := extractRounds 9 336000 s

/-! ## Closing (R268, R282) -/

/-- Record `n` of recipe `r` closes in state `st` at SIX `k`. -/
def State.finishRec (s : State) (n st rearm dead : Nat) : State :=
  let before := ((s.rec? n).map LftRec.size).getD 0
  let s := s.modRec n (fun d => { d with state := st, rearm := rearm, dead := dead, cutAt := none })
  let s := s.modRec n (fun d => { d with size := d.bytes.length, room := 0 })
  (s.arcWrite (((s.rec? n).map LftRec.size).getD 0 - before)).arcRegs

/-- Channel 0 stands idle once nothing is extracted. -/
def State.dmaZero (s : State) : State := if (List.range 8).any (fun r => (s.recipe r).recno.isSome) then s else s.dmaShow 0 2

/-- Recipe `r` restarts its sentence in clause 0 at SIX `k`. -/
def State.restartSentence (s : State) (r k : Nat) : State :=
  let x := s.recipe r
  (s.setRecipe r { x with clause := 0, run := 0, timer := 0, next := k, past := (k, some 0) :: x.past.take 1023 }).showRecipe r

/-- RECORD_CLOSE (R268, R269, R275 to R277): END has been extracted. -/
def execRecordClose (r : Fin 8) (s : State) : Host.Outcome State Fault Refusal :=
  match s.openRec r with
  | some d =>
    if s.lftRuns ∧ d.upTo < (s.recipe r).pos ∧ !s.histWaits d then
      let dead := s.six - d.trig
      let s := (s.finishRec d.recno 2 s.six dead).setRecipe r { s.recipe r with recno := none }
      let s := s.set64 (A.LFT_R_DEAD_MAX r) (max dead (s.get64 (A.LFT_R_DEAD_MAX r)))
      let s := if d.extend && d.stop.isNone then s.showRecipe r else s.restartSentence r s.six
      .next (s.dmaZero.raise F.LFT_EVT.RECORD)
    else .next s
  | none => .next s

/-- Every open record is cut where its extraction stands (R282): it is closed once the ring runs again. -/
def State.cutOpen (s : State) : State :=
  (List.range 8).foldl (fun t r =>
    match t.openRec r with
    | some d => (t.modRec d.recno (fun y => { y with cutAt := some (t.recipe r).pos })).setRecipe r { t.recipe r with recno := none }
    | none => t) s

/-- A cut record closes in STATE 3 with its gap entry of cause 4 (R282). -/
def State.closeCut (s : State) (d : LftRec) : State :=
  let cut := d.cutAt.getD d.start
  let s := if cut ≤ d.fin then s.addGap d.recipe d.recno ⟨cut, d.fin + 1 - cut, allChans, 4⟩ else s
  (s.finishRec d.recno 3 0 0).raise F.LFT_EVT.CUT

/-- Cut records close (R282). -/
def State.closeCuts (s : State) : State :=
  (s.lft.arc.filter (fun d => d.state == 1 && d.cutAt.isSome)).foldl State.closeCut s

/-- The Loft stops, and the ring, the journal and the companion stores are lost (R259). -/
def State.lftStop (s : State) : State :=
  let s := s.cutOpen
  let s := { s with lft := { s.lft with
    jrn := [], jq := [], jb := 0, slow := [], rpl := [], rplBytes := 0, rels := [], evts := [], fires := [], cmps := [],
    recs := [], slots := [], flags := [], ident := [] } }
  (List.range 8).foldl State.showRecipe ((s.set F.LFT_STATUS.RUN 0).dmaShow 0 0)

/-- Capture starts at this SIX (R259): reachable history starts here and every sentence stands in clause 0. -/
def State.lftStart (s : State) : State :=
  let k := s.six
  let s := { s with lft := { s.lft with start := k, next := k, rplFrom := k, jnext := k, slowNext := k, jpos := 0, rplPos := 0 } }
  let s := ((s.set F.LFT_STATUS.RUN 1).set64 A.LFT_RING_OLD k).closeCuts
  let s := (List.range 64).foldl (fun t i => t.setCmp i ⟨k, false, []⟩) s
  let s := (List.range 16).foldl (fun t u => t.setHist u { t.hist u with next := k }) s
  (List.range 8).foldl (fun t r => t.restartSentence r k) s

/-- Everything that the ring holds for open records is extracted at once (the kept pages of R417). -/
def State.extractKept (s : State) : State :=
  (List.range 8).foldl (fun t r => extractGo ringDepth r (t.setRecipe r { t.recipe r with credit := 2 ^ 64 })) s

/-! ## The STEM capture buffer as a record (R283) -/

/-- Code and quality of slot `i` of the buffer at SIX `k`. -/
def State.scapAt (s : State) (i k : Nat) : Int × Nat :=
  let w := kvGet (fun _ => 0) (kvGet (fun _ => []) s.inj.scap i) (k % scapDepth)
  (signed 24 w, w / 2 ^ 24 % 256)

/-- The record of a frozen buffer. -/
def State.scapRec (s : State) : LftRec :=
  let fin := s.inj.scapLast
  let start := max (s.inj.scapFirst.getD fin) (fin + 1 - scapDepth)
  let used := (List.range 32).filter (fun i => s.flag (F.INJ_SCAP.EN i))
  let fasts := used.map (fun i => s.get (F.INJ_SCAP.CH i))
  let ks := (List.range (fin + 1 - start)).map (fun i => start + i)
  let q (k : Nat) : List Nat := used.map (fun i => (s.scapAt i k).2)
  let quals := (ks.drop 1).map (fun k => (changesOf (q (k - 1)) (q k)).map (fun c => (k, c.1, c.2)))
  { s.newRec 8 s.inj.scapDec start fin with
    fasts := fasts, infos := fasts.map (fun n => (1, n, s.chanInfo 1 n)), qual0 := q start, quals := quals.flatten.reverse,
    fast := (ks.map (fun k => (k, used.map (fun i => (s.scapAt i k).1)))).reverse }

/-- SCAP_ARCHIVED (R283): through DMA channel 5, after the return to SERVICE. -/
def execScapArchived (s : State) : Host.Outcome State Fault Refusal :=
  if s.opstate = 0 ∧ s.lftRuns ∧ s.get F.INJ_SCAP_CTL.STATE = 3 then
    let d := s.scapRec
    let s := { s with lft := { s.lft with arc := s.lft.arc ++ [d], nextNo := s.lft.nextNo + 1, scap := none } }
    let s := ((s.reserve d.recno d.bytes.length).finishRec d.recno 2 s.six (s.six - d.trig)).dmaShow 5 2
    .next ((s.raise F.LFT_EVT.SCAP_ARCHIVED).scapRearm)
  else .next s

end Sys2Proof.Machine
end

