-- ==== Sys2Proof/Machine/Tim.lean ====
section
/-!
DEFINITION. Machine/Tim.lean: the time unit (R308 to R325, R331): sources, the servo and its states, steps, holdover, UTC, PPS_OUT.
What the servo's own arithmetic gives (the spec names a PI servo without its gains) comes in as operands of a measurement.
-/
namespace Sys2Proof.Machine
open Sys2Proof

/-! ## Time of day in T64 form (R309) -/

/-- The signed-difference test of R17: does `target` lie at or before `now`? -/
def reached (target now : Nat) : Bool := decide (signed 64 (target + 2 ^ 64 - now % 2 ^ 64) ≤ 0)

/-- T64 at the start of sample period `k`. -/
def State.t64 (s : State) (k : Nat) : Nat := todNs k (mapAt s.clk.maps k).offset % 2 ^ 64

/-- Nanoseconds in a second. -/
def nsPerSecond : Nat := 1000000000

/-- A signed number of `n` bytes. -/
def sBytes (n : Nat) (v : Int) : List Byte := leBytes n (unsigned (8 * n) v)

/-! ## States and VALID (R316, R323) -/

def stFree : Nat := 0
def stAcq : Nat := 1
def stLocked : Nat := 2
def stHold : Nat := 3
def stAsym : Nat := 4
def stSlew : Nat := 5

/-- The state of the time unit. -/
def State.timState (s : State) : Nat := s.get F.TIM_STATUS.STATE

/-- From this SIX on labels carry the present trace mark (R289). -/
def State.timMark (s : State) : State :=
  let m := mapAt s.clk.maps s.six
  let tr := s.flag F.TIM_STATUS.EVER_LOCKED && s.flag F.TIM_STATUS.VALID
  if m.traced = tr then s
  else { s with clk := { s.clk with maps := { m with six := s.six, traced := tr } :: s.clk.maps } }

/-- VALID becomes 1; the status dataset shows it (R343). -/
def State.timValid (s : State) : State := (s.set F.TIM_STATUS.VALID 1).timMark.gooseStatus

/-- VALID becomes 0: when it falls, INVALID and an entry with its cause; in mode 2 PPS_OUT stays low from then on (R325); the status
dataset shows it (R343). -/
def State.timInvalid (s : State) (cause : Nat) : State :=
  if s.flag F.TIM_STATUS.VALID then
    let s := (((s.set F.TIM_STATUS.VALID 0).raise F.TIM_EVT.INVALID).log 0x0582 2 (leBytes 1 cause)).timMark.gooseStatus
    if s.get F.TIM_CFG.PPS_MODE = 2 then { s with tim := { s.tim with ppsOut := false } } else s
  else s

/-- TIM_PEND: the latest measurement in SLEWING and ASYM_HOLD, else 0. -/
def State.timPend (s : State) : State :=
  s.set64 A.TIM_PEND (if s.timState = stSlew ∨ s.timState = stAsym then unsigned 64 s.tim.latest else 0)

/-- TIM_FREQ as it stands, in units of 1e-12. -/
def State.freqNow (s : State) : Int := signed 32 (s.rd A.TIM_FREQ).toNat

/-- The unit enters a state; the frequency that it leaves LOCKED with is remembered for holdover. -/
def State.timEnter (s : State) (st : Nat) : State :=
  let s := if s.timState = stLocked then { s with tim := { s.tim with freqLock := s.freqNow } } else s
  (s.set F.TIM_STATUS.STATE st).timPend

/-- The unit enters ACQUIRING, with no accepted measurement. -/
def State.enterAcq (s : State) : State :=
  let s := (s.timEnter stAcq).timInvalid 3
  { s with tim := { s.tim with base := none, outs := [], near := 0, far := 0 } }

/-- The unit enters LOCKED. -/
def State.enterLocked (s : State) : State :=
  let s := ((s.timEnter stLocked).set F.TIM_STATUS.EVER_LOCKED 1).timValid
  let s := (s.raise F.TIM_EVT.LOCK).log 0x0580 1 (leBytes 8 (s.get64 A.TIM_GM) ++ sBytes 4 s.tim.latest)
  { s with tim := { s.tim with outs := [], near := 0, far := 0 } }

/-- The frequency correction is to move to `f`, within 10 ppm (R308). -/
def State.setFreq (s : State) (f : Int) : State := { s with tim := { s.tim with freqGoal := clampInt (-10000000) 10000000 f } }

/-- The time base's frequency moves towards what the servo asks for, in steps of 1e-12 and by at most 1 ppm a second: one step in two SIX
(R308). -/
def State.freqTick (s : State) : State :=
  let f := s.freqNow
  if s.six % 2 = 0 ∧ f ≠ s.tim.freqGoal then s.wr A.TIM_FREQ (BitVec.ofInt 32 (if f < s.tim.freqGoal then f + 1 else f - 1)) else s

/-- Holding over begins (R316, R320): the frequency goes to the one last held in LOCKED, where it has been in LOCKED; the start of the hold. -/
def State.holdBegin (s : State) (cause : Nat) : State :=
  let was := s.timState = stLocked
  let s := s.setFreq (if was ∨ !s.flag F.TIM_STATUS.EVER_LOCKED then s.freqNow else s.tim.freqLock)
  let s := { s with tim := { s.tim with holdSix := s.six, fromLock := was, agree := 0 } }
  s.log 0x0581 2 (leBytes 1 cause)

/-- Every source is lost: HOLDOVER, with VALID kept only when entered from LOCKED. -/
def State.enterHold (s : State) (cause : Nat) : State :=
  let was := s.timState = stLocked
  let s := ((s.holdBegin cause).timEnter stHold).raise F.TIM_EVT.HOLDOVER
  if was then s else s.timInvalid 3

/-! ## Sources (R311, R313) -/

/-- Does source `x` (1 PTP, 2 PPS_IN) deliver measurements? -/
def State.srcAlive (s : State) (x : Nat) : Bool := (x == 1 && s.tim.ptp) || (x == 2 && s.tim.pps)

/-- The source that serves: the primary while it delivers, else the backup. -/
def State.srcActive (s : State) : Nat :=
  if s.srcAlive (s.get F.TIM_CFG.SRC) then s.get F.TIM_CFG.SRC
  else if s.srcAlive (s.get F.TIM_CFG.BACKUP) then s.get F.TIM_CFG.BACKUP
  else 0

/-- Source, slave port and REF_OK as SOURCE gives them. -/
def State.srcData (s : State) : List Byte :=
  leBytes 1 (s.get F.TIM_STATUS.SRC_ACT) ++ leBytes 1 (s.get F.TIM_STATUS.SLAVE) ++ leBytes 1 (s.get F.TIM_STATUS.REF_OK)

/-- SRC_ACT follows the source that serves; SOURCE is written when source, slave port or REF_OK differ from `old`. -/
def State.srcShow (s : State) (old : List Byte) : State :=
  let s := s.set F.TIM_STATUS.SRC_ACT s.srcActive
  if s.srcData = old then s else s.log 0x0589 1 s.srcData

/-- Is an Announce still in force (R312: the announce receipt timeout), on a port of the slave pair with link? -/
def State.annLive (s : State) (a : Announce) : Bool :=
  decide (s.six < a.six + a.span) && s.slavePort a.port && s.ptpPort a.port && s.flag (F.ETH_E_STAT.LINK a.port)

/-- The numbers by which data sets compare, the most significant first. -/
def Announce.rank (a : Announce) : List Nat :=
  [a.data.prio1, a.data.cls, a.data.acc, a.data.var, a.data.prio2, a.data.gm, a.data.steps, a.clockId, a.portNo, a.port]

/-- Lexicographic order. -/
def lexLt : List Nat → List Nat → Bool
  | x :: xs, y :: ys => decide (x < y) || (x == y && lexLt xs ys)
  | _, _ => false

/-- The better of two. -/
def betterAnn (a b : Announce) : Announce := if lexLt b.rank a.rank then b else a

/-- The Announce that the BMCA picks over both ports. -/
def State.bestAnn (s : State) : Option Announce :=
  match s.tim.anns.filter s.annLive with
  | [] => none
  | a :: l => some (l.foldl betterAnn a)

/-- UTC without a usable currentUtcOffset (R324). -/
def State.utcDefault (s : State) : State :=
  ((s.set F.TIM_UTC.OFFSET (s.get F.TIM_HOLD.UTC_DEF)).set F.TIM_UTC.VALID 0)

/-- The leap instant announced by a data set: the next midnight UTC, one second later with leap61 and earlier with leap59, and the offset
after it. -/
def State.leapOf (s : State) (d : AnnData) : Option (Nat × Int) :=
  let off := signed 16 (s.get F.TIM_UTC.OFFSET)
  let step : Int := if d.leap61 then 1 else if d.leap59 then -1 else 0
  let sec : Int := ((s.tod s.six).1 : Nat)
  let mid := ((sec - off) / 86400 + 1) * 86400 + off
  if step = 0 then none else some ((mid + step).toNat * nsPerSecond, off + step)

/-- TIM_UTC follows the grandmaster (R324); while an announced leap lies ahead the offset stays. -/
def State.utcFollow (s : State) (d : AnnData) : State :=
  let s := (s.set F.TIM_UTC.LEAP61 (b2n d.leap61)).set F.TIM_UTC.LEAP59 (b2n d.leap59)
  if d.ptpScale && d.utcValid then
    let s := s.set F.TIM_UTC.VALID 1
    let s := if s.tim.leap.isSome then s else s.set F.TIM_UTC.OFFSET (unsigned 16 d.utc)
    { s with tim := { s.tim with leap := s.leapOf d } }
  else
    let s := s.utcDefault
    { s with tim := { s.tim with leap := none } }

/-- The grandmaster registers take an identity and what it says. -/
def State.gmShow (s : State) (gm : Nat) (d : Option AnnData) : State :=
  let old := s.get64 A.TIM_GM
  let s := s.set64 A.TIM_GM gm
  let s := match d with
    | some x =>
      let s := ((s.set F.TIM_GMQ.CLASS x.cls).set F.TIM_GMQ.ACCURACY x.acc).set F.TIM_GMQ.STEPS x.steps
      (s.wr A.TIM_GMINACC (x.inacc.getD 0xFFFFFFFF)).utcFollow x
    | none => (((s.wr A.TIM_GMQ 0).wr A.TIM_GMINACC 0xFFFFFFFF).set F.TIM_UTC.LEAP61 0).set F.TIM_UTC.LEAP59 0 |>.utcDefault
  if gm ≠ 0 ∧ gm ≠ old then (s.raise F.TIM_EVT.GM_CHANGE).log 0x0588 1 (leBytes 8 old ++ leBytes 8 gm) else s

/-- The BMCA's choice shows: slave port and grandmaster. -/
def State.ptpPick (s : State) : State :=
  match s.bestAnn with
  | some a => (s.set F.TIM_STATUS.SLAVE a.port).gmShow a.data.gm (some a.data)
  | none => if s.get64 A.TIM_GM = 0 then s else (s.set F.TIM_STATUS.SLAVE 0).gmShow 0 none

/-! ## The servo (R317 to R320) -/

/-- A step waits for the next SIX. -/
def State.stepAsk (s : State) (size : Int) (cause : Nat) : State :=
  { s with tim := { s.tim with steps := s.tim.steps ++ [⟨s.six, size, cause⟩], outs := [] } }

/-- The measurement from which the servo predicts, with grandmaster, port and link delay as they stand. -/
def State.rebase (s : State) (e : Int) : State :=
  let s := { s with tim := { s.tim with base := some e, outs := [], takeNext := false } }
  let s := { s with tim := { s.tim with gmLast := s.get64 A.TIM_GM, portLast := s.get F.TIM_STATUS.SLAVE } }
  { s with tim := { s.tim with dLast := s.get (F.TIM_E_PDLY.NS (s.get F.TIM_STATUS.SLAVE)) } }

/-- An accepted measurement (R316, R317). -/
def State.acceptMeas (s : State) (e freq : Int) : State :=
  let s := (s.rebase e).setFreq freq
  let close := e.natAbs ≤ 200
  let s := { s with tim := { s.tim with near := if close then s.tim.near + 1 else 0, far := if close then 0 else s.tim.far + 1 } }
  if s.timState = stAcq ∧ 16 ≤ s.tim.near then s.enterLocked
  else if s.timState = stLocked ∧ 16 ≤ s.tim.far then s.enterAcq
  else s

/-- Suspected asymmetry (R320). -/
def State.enterAsym (s : State) (j dDelay : Int) : State :=
  let s := (s.raise F.TIM_EVT.ASYM).log 0x0586 2 (sBytes 8 j ++ sBytes 4 dDelay)
  let s := (s.holdBegin 2).timEnter stAsym
  { s with tim := { s.tim with outs := [] } }

/-- A refused jump (R319). -/
def State.refuseJump (s : State) (j : Int) : State :=
  let s := (s.bump F.TIM_CNT.REFUSED).raise F.TIM_EVT.STEP_REFUSED
  let s := s.log 0x0584 2 (sBytes 8 (-j) ++ leBytes 1 (s.get F.TIM_STATUS.SRC_ACT))
  let s := (s.timEnter stSlew).timInvalid 2
  { s with tim := { s.tim with outs := [] } }

/-- The change of the slave port's mean link delay since the last accepted measurement. -/
def State.delayMove (s : State) : Int := (s.get (F.TIM_E_PDLY.NS (s.get F.TIM_STATUS.SLAVE)) : Int) - s.tim.dLast

/-- Is a jump found now taken as asymmetry: LOCKED, with grandmaster, port and link delay unchanged? -/
def State.asymSuspect (s : State) : Bool :=
  s.timState == stLocked && s.get64 A.TIM_GM == s.tim.gmLast && s.get F.TIM_STATUS.SLAVE == s.tim.portLast &&
  decide (s.delayMove.natAbs < s.get F.TIM_BAND.ASYM_LIM / 4)

/-- ASYM_HOLD ends with an acknowledged jump that is slewed or stepped. -/
def State.leaveAsym (s : State) : State := if s.timState = stAsym then s.enterAcq else s

/-- The decision on a confirmed jump (R318); `skip` leaves the asymmetry test out. -/
def State.onJump (s : State) (j : Int) (skip : Bool) : State :=
  if !skip && s.asymSuspect then s.enterAsym j s.delayMove
  else if j.natAbs ≤ s.get F.TIM_BAND.SLEW_BAND then s.leaveAsym.rebase j
  else if !s.flag F.TIM_STATUS.EVER_LOCKED && s.flag F.TIM_CFG.FIRST_FREE then s.leaveAsym.stepAsk (-j) 0
  else if j < 0 ∧ (-j).toNat ≤ s.get F.TIM_THR.STEP_THR then s.leaveAsym.stepAsk (-j) 1
  else s.refuseJump j

/-- Do three numbers lie within `lim` of each other? -/
def agree3 (lim : Nat) : List Int → Bool
  | a :: b :: c :: _ => decide ((a - b).natAbs ≤ lim) && decide ((b - c).natAbs ≤ lim) && decide ((a - c).natAbs ≤ lim)
  | _ => false

/-- A measurement without an accepted one before it: three that agree confirm a jump. -/
def State.firstMeas (s : State) (e : Int) : State :=
  let o := (e :: s.tim.outs).take 3
  if agree3 (s.get F.TIM_BAND.ASYM_LIM) o then s.onJump e false else { s with tim := { s.tim with outs := o } }

/-- An outlier, with the prediction `p`: three in a row on one side of their predictions that agree confirm a jump. -/
def State.outlier (s : State) (e p : Int) : State :=
  let s := s.bump F.TIM_CNT.OUTLIER
  let same := s.tim.outs.all (fun x => decide (p < x) == decide (p < e))
  let o := if same then (e :: s.tim.outs).take 3 else [e]
  if agree3 (s.get F.TIM_BAND.ASYM_LIM) o then s.onJump e false else { s with tim := { s.tim with outs := o } }

/-- A measurement in ACQUIRING or LOCKED. -/
def State.trackMeas (s : State) (e moved freq : Int) : State :=
  if s.tim.takeNext then s.acceptMeas e freq
  else match s.tim.base with
    | none => s.firstMeas e
    | some b => if (e - (b + moved)).natAbs ≤ s.get F.TIM_BAND.ASYM_LIM then s.acceptMeas e freq else s.outlier e (b + moved)

/-- A measurement in SLEWING (R319): within SLEW_BAND it clears the pending step. -/
def State.slewMeas (s : State) (e freq : Int) : State :=
  let s := s.setFreq freq
  if e.natAbs ≤ s.get F.TIM_BAND.SLEW_BAND then (s.log 0x0585 1 (sBytes 8 e)).enterAcq else s

/-- A measurement in ASYM_HOLD (R320): 16 in a row within ASYM_LIM of the holdover prediction return to LOCKED. -/
def State.asymMeas (s : State) (e moved : Int) : State :=
  let close := (e - (s.tim.base.getD 0 + moved)).natAbs ≤ s.get F.TIM_BAND.ASYM_LIM
  let n := if close then s.tim.agree + 1 else 0
  let s := { s with tim := { s.tim with agree := n } }
  if 16 ≤ n then ((s.log 0x0587 1 (leBytes 1 0)).rebase e).enterLocked else s

/-- A measurement `e` from the source that serves (R316, R317). -/
def State.measure (s : State) (e moved freq : Int) : State :=
  let s := { s with tim := { s.tim with latest := e } }
  let s := (s.wr A.TIM_ERR (BitVec.ofInt 32 (clampInt (-2147483648) 2147483647 e))).timPend
  let s := if s.timState = stFree ∨ s.timState = stHold then s.enterAcq else s
  if s.timState = stSlew then s.slewMeas e freq
  else if s.timState = stAsym then s.asymMeas e moved
  else s.trackMeas e moved freq

/-- A measurement from source `x`, which delivers from now on; the servo uses it when `x` serves. -/
def State.measureFrom (s : State) (x : Nat) (e moved freq : Int) : State :=
  let old := s.srcData
  let s := { s with tim := { s.tim with ptp := s.tim.ptp || x == 1, pps := s.tim.pps || x == 2 } }
  let s := s.srcShow old
  if s.srcActive = x then s.measure e moved freq else s

/-! ## PTP messages (R312 to R314) -/

/-- The oldest message of one of some kinds from a port, with its SIX, and the rest. -/
def State.ptpTake (s : State) (port : Nat) (kinds : List Nat) : Option ((Nat × PtpMsg) × State) :=
  let hit := fun (x : Nat × Nat × PtpMsg) => x.1 == port && kinds.contains x.2.2.kind
  match s.tim.inbox.find? hit with
  | some x => some ((x.2.1, x.2.2), { s with tim := { s.tim with inbox := s.tim.inbox.eraseP hit } })
  | none => none

/-- Local time of day at which a frame arrived, corrected by the carrier's receive latency (R314), in ns. -/
def State.rxTime (s : State) (port six stamp : Nat) : Int :=
  (todNs six (mapAt s.clk.maps six).offset : Int) + stamp - s.get (F.TIM_E_LAT.RX_LAT port)

/-- A correctionField in whole ns. -/
def corrNs (c : Int) : Int := c / 65536

/-- Local time minus the master's (R317): the timestamp, the corrections, the mean link delay and the port's asymmetry. -/
def State.syncError (s : State) (port : Nat) (local_ origin corr : Int) : Int :=
  local_ - (origin + corrNs corr + s.get (F.TIM_E_PDLY.NS port) + signed 16 (s.get (F.TIM_E_ASYM.ASYM port)))

/-- The timestamp in a message, in ns. -/
def ptpOrigin (m : PtpMsg) : Int := (m.sec * nsPerSecond + m.ns : Nat)

/-- Does a message come from the master that the BMCA picked, on the slave port? -/
def State.fromMaster (s : State) (port : Nat) (m : PtpMsg) : Bool :=
  s.bestAnn.any (fun a => a.port == port && a.clockId == m.clockId && a.portNo == m.portNo)

/-- PTP_SYNC_RECEIVED (R312, R317, R318): a one-step Sync gives a measurement, a two-step Sync awaits its Follow_Up. -/
def execPtpSyncReceived (p : Fin 4) (moved freq : Int) (s : State) : Host.Outcome State Fault Refusal :=
  match s.ptpTake p [ptpSync] with
  | none => .next s
  | some ((six, m), s) =>
    if m.logInt < -4 ∨ 1 < m.logInt then .next (s.ptpIgnore p)
    else if !s.fromMaster p m then .next s
    else
      let s := { s.ptpUse p with tim := { s.tim with syncSix := six, syncSpan := logSamples m.logInt } }
      let t := s.rxTime p six m.stamp
      if m.twoStep then
        let h : PtpHalf := ⟨false, p, m.clockId, m.portNo, m.seq, t, m.corr, 0⟩
        .next { s with tim := { s.tim with halves := h :: s.tim.halves.filter (fun x => x.port != p.val || x.resp) } }
      else .next (s.measureFrom 1 (s.syncError p t (ptpOrigin m) m.corr) moved freq)

/-- PTP_FOLLOW_UP_RECEIVED (R312): completes the Sync of the same sourcePortIdentity and sequenceId. -/
def execPtpFollowUpReceived (p : Fin 4) (moved freq : Int) (s : State) : Host.Outcome State Fault Refusal :=
  match s.ptpTake p [ptpFollowUp] with
  | none => .next s
  | some ((_, m), s) =>
    let hit := fun (x : PtpHalf) => x.port == p.val && x.clockId == m.clockId && x.portNo == m.portNo && x.seq == m.seq && !x.resp
    match s.tim.halves.find? hit with
    | none => .next s
    | some h =>
      let s := { s.ptpUse p with tim := { s.tim with halves := s.tim.halves.filter (fun x => !hit x) } }
      .next (s.measureFrom 1 (s.syncError p h.local_ (ptpOrigin m) (h.corr + m.corr)) moved freq)

/-- PTP_ANNOUNCE_RECEIVED (R312, R313, R324). -/
def execPtpAnnounceReceived (p : Fin 4) (s : State) : Host.Outcome State Fault Refusal :=
  match s.ptpTake p [ptpAnnounce] with
  | none => .next s
  | some ((six, m), s) =>
    match m.ann with
    | none => .next s
    | some d =>
      let old := s.srcData
      let a : Announce := ⟨p, m.clockId, m.portNo, six, s.get F.TIM_PTP.ANN_TO * logSamples m.logInt, d⟩
      let keep := s.tim.anns.filter (fun x => s.annLive x && !(x.port == p.val && x.clockId == m.clockId && x.portNo == m.portNo))
      let s := { s.ptpUse p with tim := { s.tim with anns := a :: keep } }
      .next ((s.ptpPick).srcShow old)

/-- PDELAY_REQ_SEND (R312, R314): every 2 to the LOG_PD seconds on each PTP port. -/
def execPdelayReqSend (p : Fin 4) (stamp : Fin 500) (s : State) : Host.Outcome State Fault Refusal :=
  let q := kvGet (fun _ => PdReq.reset) s.tim.pd p
  if s.ptpPort p && decide (q.next ≤ s.six) then
    let t : Int := (s.six * 500 + stamp + s.get (F.TIM_E_LAT.TX_LAT p) : Nat)
    let n : PdReq := ⟨s.six + logSamples s.logPd, (q.seq + 1) % 65536, some t⟩
    .next ({ s with tim := { s.tim with pd := kvPut (fun _ => PdReq.reset) s.tim.pd p n } }.emit (.eth p none 0 (.pdelayReq n.seq)))
  else .next s

/-- A peer-delay exchange completes: the request went at `t1`, its answer came at `t4` and stood `turn` ns at the peer. -/
def State.pdDone (s : State) (port : Nat) (q : PdReq) (t1 t4 turn : Int) : State :=
  let d := (t4 - t1 - turn) / 2
  let s := { s with tim := { s.tim with pd := kvPut (fun _ => PdReq.reset) s.tim.pd port { q with sent := none } } }
  (s.set (F.TIM_E_PDLY.NS port) (clampInt 0 16777215 d).toNat).set (F.TIM_E_PDLY.VALID port) 1

/-- PDELAY_RESP_RECEIVED (R313, R314): the answer to the outstanding request updates the port's mean link delay. -/
def execPdelayRespReceived (p : Fin 4) (s : State) : Host.Outcome State Fault Refusal :=
  match s.ptpTake p [ptpPdResp, ptpPdRespFu] with
  | none => .next s
  | some ((six, m), s) =>
    let q := kvGet (fun _ => PdReq.reset) s.tim.pd p
    match q.sent with
    | none => .next s
    | some t1 =>
      let s := if m.seq = q.seq then s.ptpUse p else s
      if m.seq ≠ q.seq then .next s
      else if m.kind = ptpPdResp then
        let t4 : Int := (six * 500 + m.stamp : Nat) - (s.get (F.TIM_E_LAT.RX_LAT p) : Int)
        if m.twoStep then
          let h : PtpHalf := ⟨true, p, m.clockId, m.portNo, m.seq, t4, m.corr, ptpOrigin m⟩
          .next { s with tim := { s.tim with halves := h :: s.tim.halves.filter (fun x => x.port != p.val || !x.resp) } }
        else .next (s.pdDone p q t1 t4 (corrNs m.corr))
      else
        match s.tim.halves.find? (fun x => x.port == p.val && x.resp && x.seq == m.seq && x.clockId == m.clockId) with
        | none => .next s
        | some h =>
          let s := { s with tim := { s.tim with halves := s.tim.halves.filter (fun x => x.port != p.val || !x.resp) } }
          .next (s.pdDone p q t1 h.local_ (ptpOrigin m - h.origin + corrNs (h.corr + m.corr)))

/-! ## Other sources and their loss (R311, R321) -/

/-- PPS_EDGE (R311, R317): time of day of the edge minus the nearest whole second. -/
def execPpsEdge (stamp : Fin 500) (moved freq : Int) (s : State) : Host.Outcome State Fault Refusal :=
  if s.get F.TIM_CFG.SRC = 2 ∨ s.get F.TIM_CFG.BACKUP = 2 then
    let f := (todNs s.six s.offset + stamp) % nsPerSecond
    let e : Int := if f ≤ 500000000 then f else (f : Int) - nsPerSecond
    .next ({ s with tim := { s.tim with ppsSix := s.six } }.measureFrom 2 e moved freq)
  else .next s

/-- The sources that still deliver show; with none left the unit holds over. -/
def State.srcFall (s : State) (old : List Byte) (cause : Nat) : State :=
  let s := s.srcShow old
  if s.srcActive = 0 ∧ s.timState ≠ stFree ∧ s.timState ≠ stHold then s.enterHold cause else s

/-- A configuration takes effect: a source that it does not name delivers no more; with SRC and BACKUP both 0 the unit is in FREE, else it holds
over where no source is left (R316); `old` is what SOURCE would have given before. -/
def State.timConfig (s : State) (old : List Byte) : State :=
  let named (x : Nat) : Bool := s.get F.TIM_CFG.SRC == x || s.get F.TIM_CFG.BACKUP == x
  let s := { s with tim := { s.tim with ptp := s.tim.ptp && named 1, pps := s.tim.pps && named 2 } }
  if s.get F.TIM_CFG.SRC = 0 ∧ s.get F.TIM_CFG.BACKUP = 0 then
    let s := s.srcShow old
    if s.timState = stFree then s else (s.timEnter stFree).timInvalid 3
  else s.srcFall old 1

/-- Has PTP timed out: no Sync for three intervals, or no Announce in force? -/
def State.ptpLost (s : State) : Bool :=
  (s.tim.ptp && (decide (s.tim.syncSix + 3 * s.tim.syncSpan ≤ s.six) || s.bestAnn.isNone)) ||
  (s.get64 A.TIM_GM != 0 && s.bestAnn.isNone)

/-- SOURCE_LOST (R311, R316): the backup serves, or the unit holds over. With a master left on the other port that port serves. -/
def execSourceLost (pps : Bool) (s : State) : Host.Outcome State Fault Refusal :=
  let old := s.srcData
  if pps then
    if s.tim.pps && decide (s.tim.ppsSix + 3 * samplesPerSecond ≤ s.six) then
      .next ({ s with tim := { s.tim with pps := false } }.srcFall old 1)
    else .next s
  else if s.ptpLost then .next ({ s with tim := { s.tim with ptp := false } }.ptpPick.srcFall old 1)
  else if s.bestAnn.any (fun a => a.port != s.get F.TIM_STATUS.SLAVE) then .next (s.ptpPick.srcShow old)
  else .next s

/-- P10 loses power: every PTP exchange ends; cause 3 in STEM (R321). -/
def State.ptpOff (s : State) (cause : Nat) : State :=
  let old := s.srcData
  let had := s.tim.ptp
  let s := { s with tim := { s.tim with ptp := false, anns := [], inbox := [], halves := [], held := [], pd := [] } }
  let s := s.ptpPick
  if had then s.srcFall old cause else s.srcShow old

/-- REF_OK (R311): with REF_EN the PLL locks to the reference. -/
def execRefOk (s : State) : Host.Outcome State Fault Refusal :=
  let old := s.srcData
  if s.flag F.TIM_CFG.REF_EN then .next ((s.set F.TIM_STATUS.REF_OK 1).srcShow old) else .next s

/-- REF_FAIL (R311): the time base returns to the OCXO without a phase step. -/
def execRefFail (s : State) : Host.Outcome State Fault Refusal :=
  let old := s.srcData
  .next ((s.set F.TIM_STATUS.REF_OK 0).srcShow old)

/-- HOLDOVER_EXPIRED (R321): at HOLD_MAX the unit clears VALID and keeps holding over. -/
def execHoldoverExpired (s : State) : Host.Outcome State Fault Refusal :=
  if (s.timState = stHold ∨ s.timState = stAsym) ∧ s.tim.holdSix + s.get F.TIM_HOLD.HOLD_MAX * samplesPerSecond ≤ s.six then
    .next (s.timInvalid 1)
  else .next s

/-! ## Steps (R310, R318, R319, R322, R326) -/

/-- The P0 real-time counter takes the time of day. -/
def State.rtcWrite (s : State) : State :=
  { s with cel := { s.cel with rtcNs := todNs s.six s.offset }, tim := { s.tim with rtcSix := s.six } }

/-- A time step settles every derived value of the sampled-value contexts, and their grid values from now to D on (R97). -/
def State.stepSettles (s : State) : State :=
  (List.range 224).foldl (fun t i => if t.kind (32 + i) = 2 then t.settle (32 + i) t.six 15 else t) s

/-- A step of `size` applies at this SIX: offset, epoch, state; the real-time counter takes it where VALID stood (R310). -/
def State.applyStep (s : State) (size : Int) (cause : Nat) : State :=
  let valid := s.flag F.TIM_STATUS.VALID
  let m := mapAt s.clk.maps s.six
  let off := signed 64 (unsigned 64 (m.offset + size))
  let ep := (m.epoch + 1) % 65536
  let free := cause = 3 ∧ s.get F.TIM_CFG.SRC = 0 ∧ s.get F.TIM_CFG.BACKUP = 0
  let s := if free then s else s.enterAcq
  let s := { s with tim := { s.tim with takeNext := if free then s.tim.takeNext else true, stepSix := some s.six, stepSize := size } }
  let seg : TimeMap := ⟨s.six, off, ep, s.flag F.TIM_STATUS.EVER_LOCKED && s.flag F.TIM_STATUS.VALID⟩
  let s := { s with clk := { s.clk with maps := seg :: s.clk.maps } }
  let s := (s.set F.TIM_STATUS.EPOCH ep).set64 A.TIM_OFFSET (unsigned 64 off)
  let s := ((s.bump F.TIM_CNT.STEPS).raise F.TIM_EVT.STEP).log 0x0583 2 (sBytes 8 size ++ leBytes 2 ep ++ leBytes 1 cause)
  let s := s.stepSettles.lftEvent ⟨s.six, 2, 0, 0, 0, 0, 0, 0, ep, size⟩
  if valid then s.rtcWrite else s

/-- RESULT of TIM_CTL for a step that waited. -/
def State.timResult (s : State) (r : Nat) : State := s.set F.TIM_CTL.RESULT r

/-- TIME_STEP (R26, R318, R319, R328): at most one step per SIX, from the SIX after its request on; an ACCEPT whose pending step has cleared does
nothing. -/
def execTimeStep (s : State) : Host.Outcome State Fault Refusal :=
  match s.tim.steps with
  | [] => .next s
  | r :: rest =>
    if r.at_ < s.six ∧ s.tim.stepSix ≠ some s.six then
      let s := { s with tim := { s.tim with steps := rest } }
      if r.cause = 2 then
        if s.timState = stSlew then .next ((s.applyStep (-s.tim.latest) 2).timResult 1) else .next (s.timResult 2)
      else if r.cause = 3 then .next ((s.applyStep r.size 3).timResult 1)
      else .next (s.applyStep r.size r.cause)
    else .next s

/-- Does a step of this cause wait for the next SIX (R12)? -/
def State.stepWaits (s : State) (cause : Nat) : Bool := s.tim.steps.any (fun r => r.cause == cause)

/-- ACCEPT (R319); ignored while an ACCEPT waits (R12). -/
def execAccept (pf : Fin 2) (w : Word) (s : State) : Host.Outcome State Fault Refusal :=
  .next (whenAllowed (s.gate pf A.TIM_CTL w needsOperate false) (fun t =>
    if !bit w.toNat 0 || t.stepWaits 2 then t
    else if t.timState = stSlew then (t.stepAsk 0 2).timResult 3
    else t.timResult 2))

/-- ACK_ASYM (R320): the latest measurement is a confirmed jump, with the asymmetry test skipped. -/
def execAckAsym (pf : Fin 2) (w : Word) (s : State) : Host.Outcome State Fault Refusal :=
  .next (whenAllowed (s.gate pf A.TIM_CTL w needsOperate false) (fun t =>
    if !bit w.toNat 1 then t
    else if t.timState = stAsym then ((t.log 0x0587 1 (leBytes 1 1)).onJump t.tim.latest true).timResult 1
    else t.timResult 2))

/-- HSTEP (R322): refused under PTP, and before SIX has started; ignored while an HSTEP waits (R12). -/
def execHstep (pf : Fin 2) (w : Word) (s : State) : Host.Outcome State Fault Refusal :=
  .next (whenAllowed (s.gate pf A.TIM_CTL w needsOperate false) (fun t =>
    if !bit w.toNat 2 || t.stepWaits 3 then t
    else if t.get F.TIM_STATUS.SRC_ACT = 1 ∨ t.clk.running = false then t.timResult 2
    else (t.stepAsk (signed 64 (t.get64 A.TIM_HSTEP)) 3).timResult 3))

/-- RTC_UPDATE (R310): once a second while VALID is 1. -/
def execRtcUpdate (s : State) : Host.Outcome State Fault Refusal :=
  if s.flag F.TIM_STATUS.VALID && decide (s.tim.rtcSix + samplesPerSecond ≤ s.six) then .next s.rtcWrite else .next s

/-! ## PPS_OUT (R325) -/

/-- Does time of day reach a whole second within this sample period? -/
def State.wholeSecond (s : State) : Bool :=
  let f := todNs s.six s.offset % nsPerSecond
  f == 0 || decide (nsPerSecond - 500 < f)

/-- PPS_OUT_PULSE (R325): under PPS_MODE the pin rises, to fall 100 ms later. -/
def execPpsOutPulse (s : State) : Host.Outcome State Fault Refusal :=
  let mode := s.get F.TIM_CFG.PPS_MODE
  if s.wholeSecond && (mode == 1 || (mode == 2 && s.flag F.TIM_STATUS.VALID)) then
    .next { s with tim := { s.tim with ppsOut := true, ppsEnd := s.six + 200000 } }
  else .next s

/-- What the time unit does at each SIX: the frequency moves, PPS_OUT falls, an announced leap takes effect (R324, R325). -/
def State.timTick (s : State) : State :=
  let s := s.freqTick
  let s := if s.tim.ppsOut && decide (s.tim.ppsEnd ≤ s.six) then { s with tim := { s.tim with ppsOut := false } } else s
  match s.tim.leap with
  | some (t, off) =>
    if t ≤ todNs s.six s.offset then
      let s := if s.flag F.TIM_UTC.VALID then s.set F.TIM_UTC.OFFSET (unsigned 16 off) else s
      { s with tim := { s.tim with leap := none } }
    else s
  | none => s

end Sys2Proof.Machine
end

