-- ==== Sys2Proof/Machine/TimEv.lean ====
section
/-!
DEFINITION. Machine/TimEv.lean: timed-event units, their pins and the capture inputs (R326 to R330).
-/
namespace Sys2Proof.Machine
open Sys2Proof

/-! ## Timed-event units (R326 to R329) -/

/-- The target of unit `u` as its registers hold it, in T64 form. -/
def State.teTarget (s : State) (u : Nat) : Nat :=
  (s.get64 (A.TIM_TE_TGT u) % 2 ^ 48 * nsPerSecond + s.get (F.TIM_TE_TGT_NS.NS u)) % 2 ^ 64

def State.tePer (s : State) (u : Nat) : Nat := s.get64 (A.TIM_TE_PER u) % 2 ^ 40
def State.teWid (s : State) (u : Nat) : Nat := s.get (F.TIM_TE_WID.NS u)

/-- How many whole periods move a reached target `tgt` to the first one not reached at `now`. -/
def periodsPast (tgt per now : Nat) : Nat :=
  if reached tgt now then (signed 64 (now + 2 ^ 64 - tgt % 2 ^ 64)).toNat / per + 1 else 0

/-- RESULT of an ARM kick (R326). -/
def State.armResult (s : State) (u : Nat) : Nat :=
  let mode := s.get (F.TIM_TE_CTL.MODE u)
  let per := s.tePer u
  let wid := s.teWid u
  if mode = 0 ∨ mode = 3 then 4
  else if wid < 8 ∨ 999999999 < wid then 3
  else if mode = 2 ∧ (per < 1000 ∨ 1000000000000 < per) then 5
  else if mode = 2 ∧ per ≤ wid then 6
  else if mode = 1 ∧ reached (s.teTarget u) (s.t64 s.six) then 2
  else 1

/-- The unit arms: in periodic mode a reached target moves by whole periods, without firing. -/
def State.armUnit (s : State) (u : Nat) : State :=
  let r := s.armResult u
  let s := s.set (F.TIM_TE_CTL.RESULT u) r
  if r = 1 then
    let t := s.teTarget u
    let t := if s.get (F.TIM_TE_CTL.MODE u) = 2 then (t + periodsPast t (s.tePer u) (s.t64 s.six) * s.tePer u) % 2 ^ 64 else t
    { s.set (F.TIM_TE_CTL.ARMED u) 1 with tim := { s.tim with targets := kvPut (fun _ => 0) s.tim.targets u t } }
  else s

/-- Settings of a unit take a write while it is disarmed; while it is armed a write that would change them is denied. -/
def State.teWrite (s : State) (pf u : Nat) (w : Word) : State :=
  let a := A.TIM_TE_CTL u
  if s.flag (F.TIM_TE_CTL.ARMED u) then
    if fieldOf w 0 2 = s.get (F.TIM_TE_CTL.MODE u) ∧ fieldOf w 4 4 = s.get (F.TIM_TE_CTL.TPO u) ∧ fieldOf w 8 1 = s.get (F.TIM_TE_CTL.CEL u)
    then s
    else s.deny pf 5 a
  else s.wrFields a w

/-- TE_ARM (R326): the word's settings, then the kick; an armed unit stays as it is. -/
def execTeArm (pf : Fin 2) (u : Fin 16) (w : Word) (s : State) : Host.Outcome State Fault Refusal :=
  .next (whenAllowed (s.gate pf (A.TIM_TE_CTL u) w needsOperate false) (fun t =>
    let was := t.flag (F.TIM_TE_CTL.ARMED u)
    let t := t.teWrite pf u w
    if bit w.toNat 12 && !was then t.armUnit u else t))

/-- TE_DISARM (R326): a pulse in progress completes. -/
def execTeDisarm (pf : Fin 2) (u : Fin 16) (w : Word) (s : State) : Host.Outcome State Fault Refusal :=
  .next (whenAllowed (s.gate pf (A.TIM_TE_CTL u) w needsOperate false) (fun t =>
    let t := t.teWrite pf u w
    if bit w.toNat 13 then t.set (F.TIM_TE_CTL.ARMED u) 0 else t))

/-- The level of each TPO pin: the pulses that name it, inverted under POL (R329). -/
def State.tpoLevels (s : State) : State :=
  let m := s.tim.pulses.foldl (fun a p => a ||| p.mask) 0
  [0, 1, 2, 3].foldl (fun t n => t.set (F.TIM_TPO.LEVEL n) (b2n (bit m n != t.flag (F.TIM_TPO.POL n)))) s

/-- The events and entry of a firing at this SIX (R327). -/
def State.teEvents (s : State) (u : Nat) : State :=
  let s := ((s.bump (F.TIM_TE_STAT.FIRES u)).set64 (A.TIM_TE_DUE u) s.six).raise F.TIM_EVT.TE
  let s := s.pendEvent (fun x => x.timed.contains u) s.six
  let s := { s with lft := { s.lft with fires := (u, s.six) :: s.lft.fires } }
  if s.flag (F.TIM_TE_CTL.CEL u) then s.logNamed "TE_FIRE" (leBytes 1 u) else s

/-- The pulse of a firing, `sub` ns into the sample period. -/
def State.tePulse (s : State) (u sub : Nat) : State :=
  let p : Pulse := ⟨u, s.get (F.TIM_TE_CTL.TPO u), s.six * 500 + sub + s.teWid u⟩
  ({ s with tim := { s.tim with pulses := s.tim.pulses ++ [p] } } : State).tpoLevels

/-- Has a forward step at this SIX carried time past the target (R328)? -/
def State.teLate (s : State) (tgt : Nat) : Bool :=
  s.tim.stepSix == some s.six && decide (0 < s.tim.stepSize) && reached (tgt + 1) (s.t64 s.six)

/-- The last cycle of C2 TIME within a sample period starts 496 ns into it. -/
def lastCycle : Nat := 496

/-- TIMED_EVENT_FIRE (R327, R328): the unit fires at the first cycle of C2 at which its target is reached. -/
def execTimedEventFire (u : Fin 16) (s : State) : Host.Outcome State Fault Refusal :=
  let tgt := kvGet (fun _ => 0) s.tim.targets u
  let t := s.t64 s.six
  if s.flag (F.TIM_TE_CTL.ARMED u) && reached tgt (t + lastCycle) then
    let sub := if reached tgt t then 0 else ceilDiv (signed 64 (tgt + 2 ^ 64 - t)).toNat 4 * 4
    let late := s.teLate tgt
    let periodic := s.get (F.TIM_TE_CTL.MODE u) = 2
    let per := s.tePer u
    let s := (s.teEvents u).tePulse u sub
    let s := if late then s.set (F.TIM_TE_STAT.LATE u) 1 else s
    if periodic then
      let n := periodsPast (tgt + per) per (t + sub)
      let s := s.bumpBy (F.TIM_TE_STAT.SKIP u) n
      let next := (tgt + per + n * per) % 2 ^ 64
      let s := { s with tim := { s.tim with targets := kvPut (fun _ => 0) s.tim.targets u next } }
      .next (if late then s.log 0x058A 1 (leBytes 1 u ++ leBytes 1 0 ++ leBytes 2 (min n 65535)) else s)
    else .next (s.set (F.TIM_TE_CTL.ARMED u) 0)
  else .next s

/-- TPO_PULSE_END (R327, R329): pulses of the unit that end within this sample period. -/
def execTpoPulseEnd (u : Fin 16) (s : State) : Host.Outcome State Fault Refusal :=
  let keep := s.tim.pulses.filter (fun p => p.unit != u.val || decide ((s.six + 1) * 500 ≤ p.fin))
  .next ({ s with tim := { s.tim with pulses := keep } } : State).tpoLevels

/-! ## Capture inputs (R330) -/

/-- The capture registers show the oldest capture and how many are queued. -/
def State.tciShow (s : State) (i : Nat) : State :=
  let q := kvGet (fun _ => []) s.tim.caps i
  let c := q.head?.getD ⟨0, 0, 0, 0, false, false⟩
  let s := ((s.set (F.TIM_TCI_CTL.N i) q.length).set64 (A.TIM_TCI_SIX i) c.six).set64 (A.TIM_TCI_SEC i) (c.sec + 2 ^ 48 * c.epoch)
  s.wr (A.TIM_TCI_NS i) (BitVec.ofNat 32 (c.ns + 2 ^ 30 * b2n c.rise + 2 ^ 31 * b2n c.valid))

/-- TCI_CAPTURE (R330): an edge that EDGE selects is captured; a full queue discards it. -/
def execTciCapture (i : Fin 2) (rise : Bool) (stamp : Fin 500) (s : State) : Host.Outcome State Fault Refusal :=
  if bit (s.get (F.TIM_TCI_CTL.EDGE i)) (if rise then 0 else 1) then
    let q := kvGet (fun _ => []) s.tim.caps i
    if 16 ≤ q.length then
      .next (((s.set (F.TIM_TCI_CTL.OVF i) 1).raise F.TIM_EVT.TCI_OVF).log 0x058B 0 (leBytes 1 i))
    else
      let t := todNs s.six s.offset + stamp
      let c : Capture := ⟨s.six, t / nsPerSecond % 2 ^ 48, t % nsPerSecond, s.epoch, rise, s.flag F.TIM_STATUS.VALID⟩
      let s := { s with tim := { s.tim with caps := kvPut (fun _ => []) s.tim.caps i (q ++ [c]) } }
      .next ((s.tciShow i).raise F.TIM_EVT.TCI)
  else .next s

/-- TCI_POP (R330): the word's settings, then the oldest capture goes. -/
def execTciPop (pf : Fin 2) (i : Fin 2) (w : Word) (s : State) : Host.Outcome State Fault Refusal :=
  .next (whenAllowed (s.gate pf (A.TIM_TCI_CTL i) w needsOperate false) (fun t =>
    let t := t.wrFields (A.TIM_TCI_CTL i) w
    if bit w.toNat 8 then
      ({ t with tim := { t.tim with caps := kvMod (fun _ => []) t.tim.caps i (fun q => q.drop 1) } } : State).tciShow i
    else t))

end Sys2Proof.Machine
end

