-- ==== Sys2Proof/Machine/Read.lean ====
section
/-!
DEFINITION. Machine/Read.lean: what a read of BAR0 returns (R373, R375, R376): registers that exist once per function or per view, words that
are computed when they are read, the common SRAM window (R211), and the Cellar's catalogue (R292).
-/
namespace Sys2Proof.Machine
open Sys2Proof

/-! ## The Cellar's catalogue (R292, R296) -/

/-- The codes that the spec numbers: code, default severity, data bytes, name (R293, R331, R370, R400, R424). -/
def catalogueLow : List (Nat × Nat × Nat × String) :=
  [(0x01, 1, 6, "COLD_START"), (0x02, 2, 1, "WARM_RESET"), (0x03, 3, 9, "STEM_ENTER"), (0x04, 2, 8, "SERVICE"), (0x05, 3, 2, "HALT_ENTER"),
   (0x06, 2, 2, "MAINT_ENTER"), (0x07, 2, 1, "MAINT_EXIT"), (0x08, 2, 2, "BROWNOUT"), (0x09, 1, 6, "SUPPLY_BACK"),
   (0x0A, 3, 2, "POWER_DOWN"), (0x0B, 2, 2, "OT_WARN"), (0x0C, 3, 4, "OT"), (0x0D, 1, 2, "OT_CLEAR"), (0x0E, 2, 2, "LANE_RESET"),
   (0x0F, 3, 2, "CLOCK_FAULT"), (0x10, 3, 2, "BOOT_FAIL"),
   (0x80, 2, 22, "SESSION_OPEN"), (0x81, 1, 20, "SESSION_CLOSED"), (0x82, 2, 2, "GRANT_REFUSED"), (0x83, 2, 36, "IMAGE_REFUSED"),
   (0x84, 2, 36, "IMAGE_INSTALLED"), (0x85, 2, 4, "SVN_COMMIT"), (0x86, 3, 3, "KEY_CHANGE"), (0x87, 3, 2, "LIFECYCLE"),
   (0x88, 3, 2, "TAMPER"), (0x89, 1, 5, "ATTEST"), (0x8A, 2, 4, "XMSS_LOW"), (0x8B, 0, 8, "DENY")]

def catalogueHigh : List (Nat × Nat × Nat × String) :=
  [(0x580, 1, 12, "LOCKED"), (0x581, 2, 1, "HOLDOVER"), (0x582, 2, 1, "INVALID"), (0x583, 2, 11, "STEP"), (0x584, 2, 9, "STEP_REFUSED"),
   (0x585, 1, 8, "STEP_CLEARED"), (0x586, 2, 12, "ASYM"), (0x587, 1, 1, "ASYM_CLEAR"), (0x588, 1, 16, "GM_CHANGE"), (0x589, 1, 3, "SOURCE"),
   (0x58A, 1, 4, "TE_LATE"), (0x58B, 0, 1, "TCI_OVF"),
   (0x640, 2, 12, "COMPLIANCE"), (0x641, 2, 2, "THERMAL"), (0x642, 2, 1, "OPEN"), (0x643, 2, 2, "GRP_FAULT"), (0x644, 2, 2, "CJ_FAULT"),
   (0x645, 1, 3, "STRAP_CHG"), (0x646, 0, 3, "HART_FAIL"),
   (0x680, 1, 27, "START"), (0x681, 3, 6, "BANK_FAIL"), (0x682, 0, 16, "REPAIRED"), (0x683, 2, 16, "LOST"), (0x684, 1, 64, "SUPPRESSED"),
   (0x685, 0, 1, "FREEZE"), (0x686, 1, 4, "THAW"), (0x687, 1, 1, "REJOIN"), (0x688, 3, 16, "CELLAR_DEAD"), (0x689, 2, 8, "DROPPED"),
   (0x68A, 3, 64, "LASTWORD")]

/-- Codes that are never raised (R292, R293, R331, R370, R400, R424): the catalogue does not define them. -/
def neverRaised (c : Nat) : Bool :=
  c == 0 || (0x11 ≤ c && c ≤ 0x7F) || (0x8C ≤ c && c ≤ 0xFF) || (0x58C ≤ c && c ≤ 0x5FF) || (0x647 ≤ c && c ≤ 0x67F) ||
  (0x68B ≤ c && c ≤ 0x7FF) || decide (0x1000 ≤ c)

/-- Entries that the spec describes without numbering them, with the severity that it states, if it does (R39, R77, R122, R124, R227). -/
def namedSevs : List (String × Option Nat) :=
  [("DECISION", some 3), ("TDO_FAIL", some 3), ("TRIP_UNACK", some 3), ("TAKEOVER", some 3), ("SWITCHED", some 3), ("VC_APPLIED", some 1)] ++
  ["BIN_PERSISTENT", "BIN_CHATTER", "DMA_FAULT", "ETH_LAN_LOSS", "GOOSE_TAL", "HJL_DEAD", "HJL_QUARANTINE", "HJL_HELLO_UNANSWERED",
    "CONJ_DEGRADED", "LANE_EXC", "PAN_FAIL", "PAN_MISMATCH", "CHG_ABORTED", "REPLAY_ABORTED", "VC_WITHDRAWN", "MIGR_FAIL", "CE_STORM",
    "TE_FIRE"].map (fun n => (n, none))

/-- Unnumbered entries that are bound to profile 0: those of stated severity 3, and value changes (R296). -/
def namedFixed : List String := ["DECISION", "TDO_FAIL", "TRIP_UNACK", "TAKEOVER", "SWITCHED", "VC_APPLIED"]

/-- What the catalogue says of a code: the numbered ones by their tables, ADMIT and the transition code of BIN7 by R292 and the worked example
of chapter 10, an unnumbered one with the severity that its entry carries. -/
def catalogueOf (c : Nat) : CatEntry :=
  match (catalogueLow ++ catalogueHigh).find? (fun e => e.1 == c) with
  | some (_, sev, dlen, name) => ⟨true, sev, dlen, name⟩
  | none =>
    if neverRaised c then ⟨false, 0, 0, ""⟩
    else if c = 0x101 then ⟨true, (Config.sevOf "ADMIT").toNat, 2, "ADMIT"⟩
    else if c = 0x190 then { Config.catalogue c with defined := true, sev := (Config.sevOf "BIN_TRANSITION").toNat }
    else match namedSevs.find? (fun e => (EvCode.named e.1).toNat == c) with
      | some (n, v) => { Config.catalogue c with defined := true, sev := v.getD (Config.sevOf n).toNat }
      | none => Config.catalogue c

/-- Is a code bound to profile 0 (R296, R331, R400, R424): engine codes of severity 3, ADMIT, value changes, and the codes of chapters whose
own table says so? -/
def fixedCode (c : Nat) : Bool :=
  decide (c < 0x800) && (c == 0x101 || (0x680 ≤ c && c ≤ 0x68A) || (0x580 ≤ c && c ≤ 0x58A) || (0x80 ≤ c && c ≤ 0x8A) ||
    (1 ≤ c && c ≤ 0x10) || decide ((catalogueOf c).sev = 3) || namedFixed.any (fun n => c == (EvCode.named n).toNat))

/-- The profile of a code (R296): that of CEL_PMAP, and 0 for a bound one. -/
def State.profileOf (s : State) (c : Nat) : Nat := if fixedCode c then 0 else s.get (F.CEL_PMAP.PROF (c / 8) (c % 8))

/-- CEL_PMAPi: the profiles of eight codes, 0 for a bound one whatever the configuration held (R307). -/
def State.pmapWord (s : State) (i : Nat) : Nat := ((List.range 8).map (fun j => s.profileOf (8 * i + j) % 16 * 16 ^ j)).sum

/-- CEL_CAT_INFO of a code. -/
def State.catInfo (s : State) (c : Nat) : Nat :=
  let e := catalogueOf c
  e.sev % 4 + 4 * b2n (fixedCode c) + 8 * b2n (decide (0x800 ≤ c)) + 16 * (e.dlen % 128) + 65536 * s.profileOf c + 2 ^ 31 * b2n e.defined

/-- Four characters of a code's name from character `4 * i` on, zero-padded. -/
def catName (c i : Nat) : Nat := leNat ((textBytes 16 (catalogueOf c).name).drop (4 * i) |>.take 4)

/-! ## Common SRAM as the window shows it (R209, R211) -/

/-- The frozen image of a task released latest before SIX `k`. -/
def State.imgBefore (s : State) (t k : Nat) : Option InImage :=
  ((kvGet (fun _ => []) s.tsk.imgs t).find? (fun e => decide (e.1 < k))).map Prod.snd

/-- A word of common SRAM as it stands after step 1 of SIX `k` (R32, R298), when `k` is one of the latest SIX. -/
def State.imgAt (s : State) (k : Nat) : ImgWord → Word
  | .out w => s.outAt w k
  | .item t key => ((s.imgBefore t k).map (fun g => kvGet (fun _ => 0) g.items key)).getD 0
  | .region t off => ((s.imgBefore t k).map (fun g => kvGet (fun _ => 0) g.region off)).getD 0
  | .front id off => kvGet (fun _ => 0) (kvGet (fun _ => []) s.tsk.front id) off
  | .back id off => (s.forcedShelf id off).getD (kvGet (fun _ => 0) (kvGet (fun _ => []) s.tsk.back id) off)
  | .other => 0

/-- A word of common SRAM as it stands now. -/
def State.imgNow (s : State) (x : ImgWord) : Word := s.imgAt (s.six + 1) x

/-- A read of common SRAM address `a` through the window. -/
def State.winWord (s : State) (a : Nat) : Word :=
  if a < 0x400000 then s.imgNow (Config.shelfWord (a / 4))
  else if a < 0xA00000 then s.loadWord spSRAM (a / 4 * 4)
  else if a < 0xB00000 then 0
  else if a < 0xE00000 then s.loadWord spSRAM (a / 4 * 4)
  else if a < 0x1600000 then s.imgNow (Config.imageWord ((a - 0xE00000) / 4))
  else 0

/-! ## Words computed at the read -/

/-- STATE and TC of TIM_En_STAT. -/
def State.timPortStat (s : State) (p : Nat) : Nat :=
  let on := s.flag F.ETH_STATUS.POWERED
  let tc := on && s.tcPort p
  let st :=
    if !s.ptpPort p then 0
    else if !s.flag (F.ETH_E_STAT.LINK p) then 4
    else if !s.slavePort p then 5
    else match s.bestAnn with
      | some a => if a.port = p then 2 else 3
      | none => 1
  st + 8 * b2n tc

/-- Whole seconds from now to SIX `k`. -/
def State.secondsTo (s : State) (k : Nat) : Nat := (k - s.six) / samplesPerSecond

/-- ENG_SESS_LEFT (R386). -/
def State.sessLeft (s : State) : Nat :=
  match s.sec.session with
  | some x => min 65535 (s.secondsTo x.endSix) + 65536 * s.secondsTo (x.lastAcc + 900 * samplesPerSecond)
  | none => 0

/-- Attestation signatures in the window of 86 400 operating seconds (R394), oldest last. -/
def State.attestsLive (s : State) : List Nat := s.sec.attests.filter (fun t => s.cel.opsec < t + 86400)

/-- SEC_XMSS_DAY. -/
def State.xmssDay (s : State) : Nat :=
  let l := s.attestsLive
  let free := if 64 ≤ l.length then l.getLastD 0 + 86400 - s.cel.opsec else 0
  min 64 l.length + 32768 * free

/-- HJL_Pp_TRIP with AGE_US: whole microseconds since the first word of the oldest decision that awaits its ACK. -/
def State.tripWordNow (s : State) (p : Nat) : Nat :=
  let w := (s.rd (A.HJL_P_TRIP p)).toNat
  match (s.port p).pending with
  | t :: _ => w % 65536 + 65536 * min 65535 ((s.six - t.n0) / 2)
  | [] => w

/-- Window lengths of the derived values of context `n` that a settling start with this mask marks (R96, R97). -/
def State.settleLens (s : State) (n mask : Nat) : List Nat :=
  (if bit mask 0 then [1600] else []) ++ (if bit mask 1 then [100 * s.get (F.SFB_C_CFG.DCW n)] else []) ++
    (if bit mask 2 && s.get (F.SFB_C_CFG.F0SEL n) != 0 then [25 * dftBlocks (s.get (F.SFB_C_CFG.F0SEL n))] else [])

/-- SETTLE_BC of context `n`: the base cycles from now on whose derived values carry SETTLE under R96. -/
def State.settleBc (s : State) (n : Nat) : Nat :=
  min 65535 ((s.ctx n).settles.foldl (fun m y => (s.settleLens n y.2).foldl (fun m l =>
    max m ((y.1 + l - 1) / baseCycle - s.six / baseCycle)) m) 0)

/-- CLK_RXLOCK: the C5 instance of a port is locked while the port holds upstream frame alignment (R46). -/
def State.rxLock (s : State) : Nat := (List.range 44).foldl (fun m p => if (s.port p).aligned then m + 2 ^ p else m) 0

/-- CLK_STATUS: C5's bit of OK says that every instance of a port in RUN is locked. -/
def State.clkWord (s : State) : Nat :=
  let w := (s.rd A.CLK_STATUS).toNat
  let lost := (List.range 44).any (fun p => s.portState p == pRUN && !(s.port p).aligned)
  if bit w 5 && lost then w - 32 else w

/-- The word at `a` when it is one that follows other state rather than a store of its own. -/
def State.liveWord (s : State) (view a : Nat) : Option Nat :=
  if a = A.ENG_STATE then some ((s.rd a).toNat + 256 * view)
  else if a = A.ENG_SESS_LEFT then some s.sessLeft
  else if a = A.TIM_SIX then some (s.six % 2 ^ 32)
  else if a = A.TIM_SIX + 4 then some (s.six / 2 ^ 32)
  else if a = A.TIM_TOD_SEC then some ((s.tod s.six).1 % 2 ^ 32)
  else if a = A.TIM_TOD_SEC + 4 then some ((s.tod s.six).1 / 2 ^ 32 + 65536 * s.epoch)
  else if a = A.TIM_TOD_NS then some (s.tod s.six).2
  else if a = A.TIM_HOLD_S then
    some (if s.timState = stHold ∨ s.timState = stAsym then min 0xFFFFFFFF ((s.six - s.tim.holdSix) / samplesPerSecond) else 0)
  else if a = A.CLK_STATUS then some s.clkWord
  else if a = A.CLK_RXLOCK then some (s.rxLock % 2 ^ 32)
  else if a = A.CLK_RXLOCK + 4 then some (s.rxLock / 2 ^ 32)
  else if isInst (A.TIM_E_STAT 0) 32 4 a then some (s.timPortStat ((a - A.TIM_E_STAT 0) / 32))
  else if isInst (A.HJL_P_TRIP 0) 64 44 a then some (s.tripWordNow ((a - A.HJL_P_TRIP 0) / 64))
  else if isInst (A.SFB_C_STATE 0) 32 256 a then
    some ((s.rd a).toNat % 65536 + 65536 * s.settleBc ((a - A.SFB_C_STATE 0) / 32))
  else if A.LFT_HWIN 0 ≤ a ∧ a < A.LFT_HWIN 256 then
    some (kvGet (fun _ => 0) (s.hist (s.get F.LFT_HSEL.UNIT)).bins (256 * s.get F.LFT_HSEL.PAGE + (a - A.LFT_HWIN 0) / 4))
  else if a = A.CEL_CAT_INFO then some (s.catInfo (s.get (F.CEL_CAT_SEL.CODE.at view)))
  else if A.CEL_CAT_NAME 0 ≤ a ∧ a < A.CEL_CAT_NAME 4 then
    some (catName (s.get (F.CEL_CAT_SEL.CODE.at view)) ((a - A.CEL_CAT_NAME 0) / 4))
  else if isInst (A.CEL_PMAP 0) 4 512 a then some (s.pmapWord ((a - A.CEL_PMAP 0) / 4))
  else if A.CEL_PF_CFG 0 ≤ a ∧ a < A.CEL_PF_CFG 1 then some 0
  else if a = A.SEC_XMSS_DAY then some s.xmssDay
  else none

/-! ## Copies per function and per view (R307, R377) -/

/-- Registers that exist once per view: the Cellar's cursor, window and catalogue selection, and CEL_CTL's BUSY and FOUND. -/
def perView (a : Nat) : Bool :=
  a == A.CEL_CTL || (A.CEL_CURSOR ≤ a && a ≤ A.CEL_CAT_SEL) || (A.CEL_WIN 0 ≤ a && a ≤ A.CEL_WIN 31)

/-- Registers that exist once per function. -/
def perFunction (a : Nat) : Bool := a == A.ENG_DENY_CNT || a == A.ENG_DENY_LAST

/-- Where the copy of the register at `a` that function `pf` meets in a view stands. -/
def bankOf (pf view a : Nat) : Nat := if perFunction a then a + fnShift pf else if perView a then a + fnShift view else a

/-- May the response in SEC_BUF be read through `pf` (R382)? While a command runs, nobody reads; before the first GO the buffer is the request. -/
def State.bufReadable (s : State) (pf : Nat) : Bool :=
  match s.sec.respPf with
  | some f => f == pf && decide (s.six < s.sec.respSix + 10 * samplesPerSecond)
  | none => true

/-- The word that a read of BAR0 offset `a` through `pf` in a view (1 privileged) returns now, without the effects of the read (R373, R375,
R376). -/
def State.readAs (s : State) (pf view a : Nat) : Word :=
  if 0x800000 ≤ a then if view = 1 then s.winWord (s.get F.MPU_HWIN.BASE * 0x100000 + (a - 0x800000)) else 0
  else match regAt a with
    | none => 0
    | some (d, _) =>
      if d.priv ∧ view ≠ 1 then 0
      else match s.liveWord view a with
        | some v => BitVec.ofNat 32 v
        | none => if A.SEC_BUF 0 ≤ a ∧ a < A.SEC_BUF 1024 ∧ !s.bufReadable pf then 0 else s.rd (bankOf pf view a)

/-- The word that a read through `pf` returns now. -/
def State.readWord (s : State) (pf a : Nat) : Word := s.readAs pf (s.view pf) a

end Sys2Proof.Machine
end

