-- ==== Sys2Proof/Machine/Cel.lean ====
section
/-!
DEFINITION. Machine/Cel.lean: the Cellar (R287 to R307, R460): admission, rate limiting, snapshots, storing in two banks, freezing, the
windows, its own faults, and the cold-start scan.
-/
namespace Sys2Proof.Machine
open Sys2Proof

/-! ## Entries as bytes (R288) -/

/-- Bytes 0x00 to 0x2B of an entry. -/
def entryHead (e : Entry) : List Byte :=
  leBytes 8 e.seq ++ leBytes 5 e.opsec ++ leBytes 3 e.pcc ++ leBytes 8 e.six ++ leBytes 6 e.todSec ++ leBytes 2 e.epoch ++
  leBytes 4 (e.todNs + 2 ^ 30 * e.sev) ++ leBytes 2 e.code ++ leBytes 2 e.supp ++ leBytes 2 e.flags ++ leBytes 1 e.data.length ++
  leBytes 1 e.snap.length

/-- The 80 bytes of payload. -/
def entryPayload (e : Entry) : List Byte := padTo 80 (e.data ++ (e.snap.map (fun w => leBytes 4 w.toNat)).flatten)

/-- The 128 bytes of an entry. -/
def entryBytes (e : Entry) : List Byte := entryHead e ++ leBytes 4 (crc32c (entryHead e ++ entryPayload e)) ++ entryPayload e

/-- FLAGS bits. -/
def flProgram : Nat := 0
def flTrunc : Nat := 1
def flUnmirrored : Nat := 2
def flCubby : Nat := 3
def flUntraced : Nat := 4
def flTest : Nat := 5
def flNoSix : Nat := 6

/-- An entry with one more FLAGS bit. -/
def markFlag (e : Entry) (b : Nat) : Entry := { e with flags := e.flags ||| 2 ^ b }

/-! ## What is stored -/

/-- Is bank A (0) or B (1) in use? -/
def State.bankOk (s : State) (b : Nat) : Bool := s.flag (if b = 0 then F.CEL_STATUS.A_OK else F.CEL_STATUS.B_OK)

/-- A bank's slots. -/
def State.bank (s : State) (b : Nat) : KV (Option Entry) := if b = 0 then s.cel.bankA else s.cel.bankB

def State.setBank (s : State) (b : Nat) (m : KV (Option Entry)) : State :=
  if b = 0 then { s with cel := { s.cel with bankA := m } } else { s with cel := { s.cel with bankB := m } }

/-- The entry in a slot of a bank. -/
def State.copyAt (s : State) (b i : Nat) : Option Entry := kvGet (fun _ => none) (s.bank b) i

/-- The entry in a slot, from a bank in use. -/
def State.slotEntry (s : State) (i : Nat) : Option Entry :=
  match if s.bankOk 0 then s.copyAt 0 i else none with
  | some e => some e
  | none => if s.bankOk 1 then s.copyAt 1 i else none

/-- The occupied slots of the banks in use, in rising order. -/
def State.celSlots (s : State) : List (Nat × Entry) :=
  let keys := ((if s.bankOk 0 then s.cel.bankA.map Prod.fst else []) ++ (if s.bankOk 1 then s.cel.bankB.map Prod.fst else []))
  let m : KV Bool := keys.foldl (fun m i => kvPut (fun _ => false) m i true) []
  m.filterMap (fun e => (s.slotEntry e.1).map (fun x => (e.1, x)))

/-- Slots of a bank (R287). -/
def celSlotMax : Nat := 524288

/-- The stored entry of lowest SEQ among those that satisfy `p`, with its slot. -/
def lowestSeq (p : Entry → Bool) : List (Nat × Entry) → Option (Nat × Entry)
  | [] => none
  | (i, e) :: l =>
    match lowestSeq p l with
    | some (j, f) => if p e && decide (e.seq < f.seq) then some (i, e) else some (j, f)
    | none => if p e then some (i, e) else none

/-- The lowest slot from `i` on that a rising list of occupied ones does not hold. -/
def firstFree : List (Nat × Entry) → Nat → Nat
  | [], i => i
  | (j, _) :: l, i => if j = i then firstFree l (i + 1) else firstFree l i

/-- CEL_COUNT, CEL_SEQ_OLDEST and CEL_SEQ_NEWEST follow what is stored. -/
def State.celCount (s : State) : State :=
  let l := s.celSlots
  let old := ((lowestSeq (fun _ => true) l).map (fun e => e.2.seq)).getD 0
  let new := l.foldl (fun m e => max m e.2.seq) 0
  ((s.set F.CEL_COUNT.N l.length).set64 A.CEL_SEQ_OLDEST old).set64 A.CEL_SEQ_NEWEST new

/-! ## The last-word register and muteness (R305) -/

/-- The last-word register takes 64 bytes (none: cleared), and shows them. -/
def State.setLastWord (s : State) (b : List Byte) : State :=
  let s := { s with cel := { s.cel with lastWord := b } }
  (List.range 16).foldl (fun t i => t.wr (A.CEL_LASTW i) (BitVec.ofNat 32 (leNat ((b.drop (4 * i)).take 4)))) s

/-- The CELLAR_MUTE pin, with the bits that follow it. -/
def State.mutePin (s : State) (on : Bool) : State :=
  ((s.set F.CEL_STATUS.MUTE (b2n on)).set F.ENG_STATE.CELLAR_MUTE (b2n on)).gooseStatus

/-- The next SEQ (R294, R460): the island reserves the block that it opens. -/
def State.nextSeq (s : State) : Nat × State :=
  let n := s.cel.seqP0 + 1
  let b := if s.cel.seqBlock < n then n + 65535 else s.cel.seqBlock
  (n, { s with cel := { s.cel with seqP0 := n, seqBlock := b } })

/-- Fields of an entry that follow from an event's SIX and the state (R289), without SEQ, SUPP and snapshot. -/
def State.celFields (s : State) (e : Raised) : Entry :=
  let m := mapAt s.clk.maps (e.six.getD 0)
  let tod := match e.six with
    | some k => s.tod k
    | none => (e.rtcNs / nsPerSecond % 2 ^ 48, e.rtcNs % nsPerSecond)
  let tr := match e.six with
    | some _ => m.traced
    | none => s.flag F.TIM_STATUS.EVER_LOCKED && s.flag F.TIM_STATUS.VALID
  let fl := b2n e.program + 2 ^ flUntraced * b2n (!tr) + 2 ^ flTest * b2n e.test + 2 ^ flNoSix * b2n e.six.isNone
  ⟨0, s.cel.opsec, s.cel.pcc, e.six.getD 0, tod.1, if e.six.isSome then m.epoch else 0, tod.2, e.sev, e.code.toNat, 0, fl, e.data, []⟩

/-- CELLAR_DEAD (R305): into the last-word register; then CELLAR_MUTE, MUTE and the GOOSE status publication. -/
def State.cellarDead (s : State) (ca cb code slot seq : Nat) : State :=
  let d := leBytes 1 ca ++ leBytes 1 cb ++ leBytes 2 code ++ leBytes 4 slot ++ leBytes 8 seq
  let q := s.nextSeq
  let e := { q.2.celFields ⟨.num 0x688, 3, if s.clk.running then some s.six else none, d, false, false, s.cel.rtcNs, none⟩ with seq := q.1 }
  let b := entryHead e ++ (entryPayload e).take 16
  (((q.2.setLastWord (b ++ leBytes 4 (crc32c b))).mutePin true).raise F.CEL_EVT.MUTE).celCount

/-! ## Storing an entry (R287, R299, R304) -/

/-- Bank `b` fails with a cause. -/
def State.failBank (s : State) (b cause : Nat) : State :=
  let s := (s.set (if b = 0 then F.CEL_STATUS.A_OK else F.CEL_STATUS.B_OK) 0).set F.CEL_STATUS.MIRRORED 0
  let s := s.set F.CEL_STATUS.RESYNC 0
  if b = 0 then { s with cel := { s.cel with failA := cause } } else { s with cel := { s.cel with failB := cause } }

/-- A failed bank is reported while the other is in use. -/
def State.reportBank (s : State) (b slot : Nat) : State :=
  let cause := if b = 0 then s.cel.failA else s.cel.failB
  (s.raise F.CEL_EVT.BANK_FAIL).log 0x681 3 (leBytes 1 b ++ leBytes 1 cause ++ leBytes 4 slot)

/-- One slot write: into both banks in use, `wa` and `wb` saying how each ended (R304). -/
def State.writeSlot (s : State) (e : Entry) (i wa wb : Nat) : State :=
  let okA := s.bankOk 0 && wa == 0
  let okB := s.bankOk 1 && wb == 0
  let badA := s.bankOk 0 && wa != 0
  let badB := s.bankOk 1 && wb != 0
  let e := if okA && okB then e else markFlag e flUnmirrored
  let s := if badA then s.failBank 0 wa else s
  let s := if badB then s.failBank 1 wb else s
  if !okA && !okB then s.cellarDead s.cel.failA s.cel.failB e.code i e.seq
  else
    let s := if okA then s.setBank 0 (kvPut (fun _ => none) s.cel.bankA i (some e)) else s
    let s := if okB then s.setBank 1 (kvPut (fun _ => none) s.cel.bankB i (some e)) else s
    let s := if badA then s.reportBank 0 i else s
    (if badB then s.reportBank 1 i else s).celCount

/-- The slot of an entry (R299): an empty one, the preferred first; else that of the lowest SEQ among entries no more severe. -/
def State.pickSlot (s : State) (sev : Nat) (slots : List Nat) : Option Nat :=
  let l := s.celSlots
  if l.length < celSlotMax then
    match slots.find? (fun i => decide (i < celSlotMax) && (s.slotEntry i).isNone) with
    | some i => some i
    | none => some (firstFree l 0)
  else (lowestSeq (fun e => decide (e.sev ≤ sev)) l).map Prod.fst

/-- An entry goes to the banks, or is dropped because they are full. -/
def State.toBanks (s : State) (e : Entry) (slots : List Nat) (wa wb : Nat) : State :=
  match s.pickSlot e.sev slots with
  | some i => s.writeSlot e i wa wb
  | none =>
    let s := { s with cel := { s.cel with fullSince := s.cel.fullSince + 1 } }
    (s.bump F.CEL_DROP.FULL).raise F.CEL_EVT.DROP

/-- Where an entry with SEQ goes: nowhere while mute (R305), else to the banks. -/
def State.celPut (s : State) (e : Entry) (slots : List Nat) (wa wb : Nat) : State :=
  if s.flag F.CEL_STATUS.MUTE then s.bump F.CEL_MUTED.N else s.toBanks e slots wa wb

/-! ## Freezing and thawing (R301, R302) -/

/-- CUBBY_N follows the Cubby. -/
def State.setCubby (s : State) (l : List Entry) : State :=
  ({ s with cel := { s.cel with cubby := l } } : State).set F.CEL_STATUS.CUBBY_N l.length

/-- A thaw (R301, R302): the Cubby drains in SEQ order, then comes the THAW entry, with the next SEQ. -/
def State.thaw (s : State) (reason view : Nat) (puts : CelPuts) : State :=
  let c := s.cel.cubby
  let fin (i : Nat) : Fin 3 × Fin 3 := puts.ends.getD i (0, 0)
  let s := (s.set F.CEL_STATUS.FROZEN 0).setCubby []
  let s := c.zipIdx.foldl (fun t e => t.celPut e.1 puts.slots (fin e.2).1 (fin e.2).2) s
  let q := s.nextSeq
  let d := leBytes 1 reason ++ leBytes 1 view ++ leBytes 2 c.length
  let e := { q.2.celFields ⟨.num 0x686, 1, if s.clk.running then some s.six else none, d, false, false, s.cel.rtcNs, none⟩ with seq := q.1 }
  let s := q.2.celPut e puts.slots (fin c.length).1 (fin c.length).2
  if reason = 0 then s else s.raise F.CEL_EVT.FORCED_THAW

/-- A thaw without a kick, if the Cellar is frozen. -/
def State.forceThaw (s : State) (reason : Nat) (puts : CelPuts) : State :=
  if s.flag F.CEL_STATUS.FROZEN then s.thaw reason s.cel.freezeView puts else s

/-- Once the FREEZE entry has left the queue the banks stand still. -/
def State.freezeSettle (s : State) : State :=
  if s.cel.freezeReq && !s.cel.queue.any (fun e => e.code == .num 0x685) then
    ({ s with cel := { s.cel with freezeReq := false } } : State).set F.CEL_STATUS.FROZEN 1
  else s

/-! ## Rate limiting (R296, R297) -/

def State.bucket (s : State) (c : Nat) : Bucket := kvGet (fun _ => Bucket.full) s.cel.buckets c

def State.setBucket (s : State) (c : Nat) (b : Bucket) : State :=
  { s with cel := { s.cel with buckets := kvPut (fun _ => Bucket.full) s.cel.buckets c b } }

/-- The fragment of R296 for a code under profile `p`, at SIX `now`. -/
def State.celPass (s : State) (c now : Nat) : Bool × State :=
  let p := s.profileOf c
  if p = 0 then (true, s)
  else
    let burst := s.get (F.CEL_PF_CFG.BURST p)
    let per := (s.rd (A.CEL_PF_PER p)).toNat
    let b := s.bucket c
    let add := (now - b.last) / per
    let b := if burst ≤ b.tokens + add then { b with tokens := burst, last := now }
      else { b with tokens := b.tokens + add, last := b.last + add * per }
    if b.tokens = 0 then (false, s.setBucket c { b with supp := min (b.supp + 1) 65535 })
    else (true, s.setBucket c { b with tokens := b.tokens - 1 })

/-- An admitted entry takes the suppressed count of its code, which restarts. -/
def State.takeSupp (s : State) (c : Nat) : Nat × State :=
  let b := s.bucket c
  (b.supp, if b.supp = 0 then s else s.setBucket c { b with supp := 0 })

/-! ## Snapshots (R298) -/

/-- The snapshot slots of a profile: KIND and WORD. -/
def State.snapSlots (s : State) (p : Nat) : List (Nat × Nat) :=
  if p = 0 then []
  else (List.range (min 8 (s.get (F.CEL_PF_CFG.SNAPN p)))).map (fun k => (s.get (F.CEL_PF_SNAP.KIND p k), s.get (F.CEL_PF_SNAP.WORD p k)))

/-- The KIND 2 words of an event, as they stand after step 1 of its SIX; for a note as they stand at its output release, now. -/
def State.snapWords (s : State) (e : Raised) : KV Word :=
  let k := if e.program then s.six else e.six.getD s.six
  (s.snapSlots (s.profileOf e.code.toNat)).foldl
    (fun m x => if x.1 = 2 then kvPut (fun _ => 0) m x.2 (s.imgAt k (Config.imageWord x.2)) else m) []

/-- An event with its KIND 2 words read. -/
def State.snapRead (s : State) (e : Raised) : Raised := if e.snap2.isSome then e else { e with snap2 := some (s.snapWords e) }

/-- Every waiting event has its KIND 2 words read: done when a SIX ends, with its outputs all released. -/
def State.snapFill (s : State) : State := { s with cel := { s.cel with queue := s.cel.queue.map s.snapRead } }

/-- The snapshot set of an entry. -/
def State.snapSet (s : State) (e : Raised) : List Word :=
  (s.snapSlots (s.profileOf e.code.toNat)).map (fun x =>
    if x.1 = 1 then s.readAs 1 1 (4 * x.2) else kvGet (fun _ => 0) ((s.snapRead e).snap2.getD []) x.2)

/-! ## Admission (R290, R294, R301) -/

/-- CELLAR_ENQUEUE (R294, R295). -/
def execCellarEnqueue (e : Raised) (s : State) : Host.Outcome State Fault Refusal :=
  .next (s.enqueue e)

/-- The event that leaves the queue and passes the rate limit, as an entry without SEQ. -/
def State.celBuild (s : State) (e : Raised) (supp : Nat) : Entry :=
  let snap := s.snapSet e
  let room := 80 - 4 * snap.length
  let x := { s.celFields e with supp := supp, snap := snap, data := e.data.take room }
  if room < e.data.length then markFlag x flTrunc else x

/-- An entry is admitted: SEQ, then the Cubby while frozen (a full one forces a thaw first), else the banks. -/
def State.celAdmit (s : State) (x : Entry) (puts : CelPuts) (wa wb : Nat) : State :=
  if s.flag F.CEL_STATUS.FROZEN && !s.flag F.CEL_STATUS.MUTE then
    if 256 ≤ s.cel.cubby.length then
      let s := s.thaw 1 s.cel.freezeView puts
      let q := s.nextSeq
      q.2.celPut { x with seq := q.1 } puts.slots wa wb
    else
      let q := s.nextSeq
      q.2.setCubby (q.2.cel.cubby ++ [markFlag { x with seq := q.1 } flCubby])
  else
    let q := s.nextSeq
    q.2.celPut { x with seq := q.1 } puts.slots wa wb

/-- Must the front entry wait for this SIX's output releases, because its snapshot reads the images? -/
def State.celWaits (s : State) (e : Raised) : Bool :=
  s.outputsOpen && e.snap2.isNone && (s.snapSlots (s.profileOf e.code.toNat)).any (fun x => x.1 == 2)

/-- CELLAR_ADMIT (R294 to R299, R301, R304). -/
def execCellarAdmit (puts : CelPuts) (wa wb : Fin 3) (s : State) : Host.Outcome State Fault Refusal :=
  if !s.flag F.CEL_STATUS.READY then .next s
  else
    let s := s.freezeSettle
    match s.cel.queue with
    | [] => .next s
    | e :: rest =>
      if s.celWaits e then .next s
      else
        let c := e.code.toNat
        let r := ({ s with cel := { s.cel with queue := rest } } : State).celPass c s.six
        if r.1 then
          let u := r.2.takeSupp c
          .next ((u.2.celAdmit (u.2.celBuild e u.1) puts wa wb).freezeSettle)
        else .next r.2

/-- Codes with suppressed occurrences, lowest first. -/
def State.suppCodes (s : State) : List (Nat × Nat) := s.cel.buckets.filterMap (fun b => if 0 < b.2.supp then some (b.1, b.2.supp) else none)

/-- SUPPRESSED (R297): once at every SIX divisible by 20 000 000. -/
def execSuppressed (s : State) : Host.Outcome State Fault Refusal :=
  if s.clk.running ∧ s.six % 20000000 = 0 ∧ s.cel.suppSix ≠ some s.six then
    let s := { s with cel := { s.cel with suppSix := some s.six } }
    let l := s.suppCodes.take 16
    let s := l.foldl (fun t c => t.setBucket c.1 { t.bucket c.1 with supp := 0 }) s
    let s := if l.isEmpty then s else s.log 0x684 1 ((l.map (fun c => leBytes 2 c.1 ++ leBytes 2 c.2)).flatten)
    if s.cel.fullSince = 0 ∧ s.cel.queueSince = 0 then .next s
    else
      let d := leBytes 4 s.cel.fullSince ++ leBytes 4 s.cel.queueSince
      .next (({ s with cel := { s.cel with fullSince := 0, queueSince := 0 } } : State).log 0x689 2 d)
  else .next s

/-! ## Windows (R300) -/

/-- The window of a view takes an entry, or nothing. -/
def State.showWindow (s : State) (view : Nat) (e : Option Entry) : State :=
  let b := match e with
    | some x => entryBytes x
    | none => []
  let s := (List.range 32).foldl
    (fun t i => t.wr (A.CEL_WIN i + fnShift view) (BitVec.ofNat 32 (leNat ((b.drop (4 * i)).take 4)))) s
  match e with
  | some x => (s.set64 (A.CEL_SHOWN + fnShift view) x.seq).set (F.CEL_CTL.FOUND.at view) 1
  | none => (s.set64 (A.CEL_CURSOR + fnShift view) (s.get64 (A.CEL_SHOWN + fnShift view) + 1)).set (F.CEL_CTL.FOUND.at view) 0

/-- The stored entry of lowest SEQ at or above `n` goes to the window of a view; `move` sets the cursor to it. -/
def State.celShow (s : State) (view n : Nat) (move : Bool) : State :=
  let e := (lowestSeq (fun x => decide (n ≤ x.seq)) s.celSlots).map Prod.snd
  let s := s.showWindow view e
  match e with
  | some x => if move then s.set64 (A.CEL_CURSOR + fnShift view) x.seq else s
  | none => s

/-- CEL_CURSOR_WRITE (R300, R379): the high word commits the cursor of the view. -/
def execCelCursorWrite (pf : Fin 2) (hi : Word) (s : State) : Host.Outcome State Fault Refusal :=
  .next (whenAllowed (s.gate pf (A.CEL_CURSOR + 4) hi none false) (fun t =>
    let view := t.view pf
    let a := A.CEL_CURSOR + fnShift view
    let low := if (t.fn pf).wrTag = some A.CEL_CURSOR then (t.fn pf).wrLow else t.rd a
    let t := (t.commit64 pf A.CEL_CURSOR hi).2
    let n := low.toNat + 2 ^ 32 * hi.toNat
    (t.set64 a n).celShow view n false))

/-- CEL_STEP (R300). -/
def execCelStep (pf : Fin 2) (w : Word) (s : State) : Host.Outcome State Fault Refusal :=
  .next (whenAllowed (s.gate pf A.CEL_CTL w none false) (fun t =>
    let view := t.view pf
    if bit w.toNat 2 then t.celShow view (t.get64 (A.CEL_SHOWN + fnShift view) + 1) true else t))

/-- FREEZE (R301): ignored while frozen. -/
def execFreeze (pf : Fin 2) (w : Word) (s : State) : Host.Outcome State Fault Refusal :=
  .next (whenAllowed (s.gate pf A.CEL_CTL w none false) (fun t =>
    if bit w.toNat 0 && !t.flag F.CEL_STATUS.FROZEN && !t.cel.freezeReq then
      let view := t.view pf
      let t := { t with cel := { t.cel with freezeReq := true, freezeView := view, freezeSix := t.six } }
      t.log 0x685 0 (leBytes 1 view)
    else t))

/-- THAW (R301): ignored when not frozen. -/
def execThaw (pf : Fin 2) (w : Word) (puts : CelPuts) (s : State) : Host.Outcome State Fault Refusal :=
  .next (whenAllowed (s.gate pf A.CEL_CTL w none false) (fun t =>
    if bit w.toNat 1 && t.flag F.CEL_STATUS.FROZEN then t.thaw 0 (t.view pf) puts else t))

/-- FREEZE_TIMEOUT (R301): 60 s after the kick. -/
def execFreezeTimeout (puts : CelPuts) (s : State) : Host.Outcome State Fault Refusal :=
  .next (if s.cel.freezeSix + 120000000 ≤ s.six then s.freezeSettle.forceThaw 2 puts else s)

/-! ## Faults of the Cellar's own memory (R304, R306) -/

/-- A bad copy of a slot is rewritten from the other bank; `wr` says how the write ends, and a bank whose write fails, fails (R304). -/
def State.repairSlot (s : State) (i bad wr : Nat) (e : Entry) : State :=
  if wr ≠ 0 then (s.failBank bad wr).reportBank bad i
  else
  let s := s.setBank bad (kvPut (fun _ => none) (s.bank bad) i (some e))
  ((s.bump F.CEL_MEM.REPAIRED).raise F.CEL_EVT.REPAIRED).log 0x682 0 (leBytes 1 bad ++ zeros 3 ++ leBytes 4 i ++ leBytes 8 e.seq)

/-- A slot with no good copy becomes empty; `seq` is the SEQ that could be read, else 0. -/
def State.loseSlot (s : State) (i seq : Nat) : State :=
  let s := (s.setBank 0 (kvPut (fun _ => none) s.cel.bankA i none)).setBank 1 (kvPut (fun _ => none) s.cel.bankB i none)
  (((s.bump F.CEL_MEM.LOST).raise F.CEL_EVT.LOST).log 0x683 2 (leBytes 4 i ++ zeros 4 ++ leBytes 8 seq)).celCount

/-- A device fault that the controller of bank `b` reports (R304). -/
def State.bankFault (s : State) (b slot : Nat) : State := if s.bankOk b then (s.failBank b 2).reportBank b slot else s

/-- An uncorrectable error in the copies of slot `i` that `badA` and `badB` name (R304); an empty slot stays empty. `seqOk` says that the word of
SEQ can be read, `wr` how the rewriting ends. With no copy to repair, `wr` 2 is a device fault of the banks named. -/
def State.celBad (s : State) (i : Nat) (badA badB seqOk : Bool) (wr : Nat) : State :=
  let a := if s.bankOk 0 then s.copyAt 0 i else none
  let b := if s.bankOk 1 then s.copyAt 1 i else none
  let goodA := if badA then none else a
  let goodB := if badB then none else b
  match goodA, goodB with
  | some x, _ => if badB && s.bankOk 1 then s.repairSlot i 1 wr x else s
  | none, some x => if badA && s.bankOk 0 then s.repairSlot i 0 wr x else s
  | none, none =>
    if wr = 2 then
      let s := if badA then s.bankFault 0 i else s
      if badB then s.bankFault 1 i else s
    else match a, b with
      | some x, _ => s.loseSlot i (if seqOk then x.seq else 0)
      | none, some x => s.loseSlot i (if seqOk then x.seq else 0)
      | none, none => s

/-- The later of two copies of a slot. -/
def laterCopy (a b : Option Entry) : Option Entry :=
  match a, b with
  | some x, some y => if x.seq < y.seq then b else a
  | some _, none => a
  | none, _ => b

/-- What two banks that had both failed hold together: the later copy of every slot. -/
def mergeBanks (a b : KV (Option Entry)) : KV (Option Entry) :=
  b.foldl (fun m e => kvPut (fun _ => none) m e.1 (laterCopy (kvGet (fun _ => none) a e.1) e.2)) a

/-- REJOIN (R306): the recovered bank holds what the other holds, and mirroring resumes; two recovered banks have held the same since the scan. -/
def execRejoin (s : State) : Host.Outcome State Fault Refusal :=
  if s.flag F.CEL_STATUS.RESYNC then
    let bs := if s.cel.failA = 0 then [1] else if s.cel.failB = 0 then [0] else [0, 1]
    let s := match bs with
      | [b] => s.setBank b (s.bank (1 - b))
      | _ => s
    let s := { s with cel := { s.cel with failA := 0, failB := 0 } }
    .next (bs.foldl (fun t b => t.log 0x687 1 (leBytes 1 b)) ((s.set F.CEL_STATUS.RESYNC 0).set F.CEL_STATUS.MIRRORED 1))
  else .next s

/-- Torn slots of the banks count as empty (R291). -/
def State.tearSlots (s : State) (torn : List Nat) : State :=
  torn.foldl (fun t i =>
    (t.setBank 0 (kvPut (fun _ => none) t.cel.bankA i none)).setBank 1 (kvPut (fun _ => none) t.cel.bankB i none)) s

/-- Highest incarnation over ADMIT and START entries. -/
def celIncarnation (l : List (Nat × Entry)) : Nat :=
  l.foldl (fun m e =>
    if e.2.code = 0x101 then max m (leNat (e.2.data.take 2))
    else if e.2.code = 0x680 then max m (leNat ((e.2.data.drop 16).take 2)) else m) 0

/-- SIX in a last-word register. -/
def lastWordSix (b : List Byte) : Nat := leNat ((b.drop 16).take 8)

/-- Does the last-word register hold a word whose CRC holds? -/
def lastWordOk (b : List Byte) : Bool := b.length == 64 && leBytes 4 (crc32c (b.take 60)) == b.drop 60

/-- Highest SIX in the banks in use and the last-word register, for R24. -/
def State.celLastSix (s : State) : Option Nat :=
  let l := s.celSlots
  let m := l.foldl (fun m e => max m e.2.six) 0
  let m := if lastWordOk s.cel.lastWord then max m (lastWordSix s.cel.lastWord) else m
  if l.isEmpty && !lastWordOk s.cel.lastWord then none else some m

/-- The start test and scan (R306, R460): banks that pass are in use, torn slots are empty, the next SEQ follows from the banks, the P0 counter
(`p0` says that it kept its content) or the island's block. -/
def State.celScan (s : State) (okA okB p0 : Bool) (torn : List Nat) : State :=
  let hadA := s.cel.failA
  let hadB := s.cel.failB
  let s := (s.set F.CEL_STATUS.A_OK (b2n okA)).set F.CEL_STATUS.B_OK (b2n okB)
  let both := okA && okB
  let resync := both && (hadA != 0 || hadB != 0)
  let s := (s.set F.CEL_STATUS.MIRRORED (b2n (both && !resync))).set F.CEL_STATUS.RESYNC (b2n resync)
  let fa := if !okA then 3 else if resync then hadA else 0
  let fb := if !okB then 3 else if resync then hadB else 0
  let s := { s with cel := { s.cel with failA := fa, failB := fb } }
  let s :=
    if !resync then s
    else if hadA = 0 then s.setBank 1 []
    else if hadB = 0 then s.setBank 0 []
    else
      let m := mergeBanks s.cel.bankA s.cel.bankB
      (s.setBank 0 m).setBank 1 m
  let s := s.tearSlots torn
  let s := torn.foldl (fun t _ => t.bump F.CEL_MEM.LOST) s
  let top := s.celSlots.foldl (fun m e => max m e.2.seq) 0
  let seq := max top (if p0 then s.cel.seqP0 else s.cel.seqBlock)
  ({ s with cel := { s.cel with seqP0 := seq, buckets := [] } } : State).celCount

/-- What follows the scan: START, the entries on failed banks and on a last word. With no bank the Cellar stays mute where it was; else the
START entry, as the first that cannot be stored, makes it mute on its admission (R305). -/
def State.celStart (s : State) : State :=
  let l := s.celSlots
  let st := s.get F.CEL_STATUS.A_OK + 2 * s.get F.CEL_STATUS.B_OK
  let d := leBytes 8 (l.foldl (fun m e => max m e.2.seq) 0) ++ leBytes 8 (s.celLastSix.getD 0) ++ leBytes 2 (celIncarnation l) ++
    leBytes 4 l.length ++ leBytes 4 (celSlotMax - l.length) ++ leBytes 1 st
  let s := (s.set F.CEL_STATUS.READY 1).log 0x680 1 d
  if st = 0 then (if s.flag F.CEL_STATUS.MUTE then s.raise F.CEL_EVT.MUTE else s)
  else
    let s := if s.cel.failA = 3 then s.reportBank 0 0 else s
    let s := if s.cel.failB = 3 then s.reportBank 1 0 else s
    let s := if lastWordOk s.cel.lastWord then (s.log 0x68A 3 s.cel.lastWord).setLastWord [] else s
    if s.flag F.CEL_STATUS.MUTE then s.mutePin false else s

end Sys2Proof.Machine
end

