-- ==== Sys2Proof/Machine/LftCtl.lean ====
section
/-!
DEFINITION. Machine/LftCtl.lean: sentences (R263, R265, R266, R270), the host's actions on records and histograms (R274, R275, R280), and
exports (R284, R285).
-/
namespace Sys2Proof.Machine
open Sys2Proof

/-! ## Sentences -/

/-- A term of a clause (R262). -/
structure LTerm where
  index : Nat
  src : Nat
  neg : Bool
  target : Nat
deriving DecidableEq, Repr

def lTermOf (w : Word) : LTerm := ⟨fieldOf w 0 11, fieldOf w 11 4, bit w.toNat 15, fieldOf w 16 4⟩

/-- The used terms of clause `c` of recipe `r`. -/
def State.lTerms (s : State) (r c : Nat) : List LTerm :=
  ((List.range 4).map (fun k => lTermOf (s.rd (A.LFT_R_C_TERM r c k)))).filter (fun m => m.src != 0)

/-- Every source that the sentence of recipe `r` uses. -/
def State.sentenceTerms (s : State) (r : Nat) : List LTerm :=
  ((List.range (s.get (F.LFT_R_CTL.LAST r))).map (s.lTerms r)).flatten

/-- Truth of a term at SIX `t` (R263). -/
def State.lTermTrue (s : State) (t : Nat) (m : LTerm) : Bool :=
  match s.lftSource m.src m.index t with
  | some (usable, v) => usable && (v != m.neg)
  | none => false

/-- Is clause `c` true at `t`? -/
def State.clauseTrue (s : State) (r t c : Nat) : Bool := (s.lTerms r c).any (s.lTermTrue t)

/-- Bit k is 1 when clause k below LAST was true at `t` (R266). -/
def State.coincidence (s : State) (r t : Nat) : Nat := maskOf (s.get (F.LFT_R_CTL.LAST r)) (s.clauseTrue r t)

/-- The clause that a sentence moves to at `t`, if it moves (the fragment of R265, R266): active clause `c`, run and timer as they stand
after `t`. -/
def State.sentenceMove (s : State) (r t c run timer : Nat) : Option Nat :=
  let last := s.get (F.LFT_R_CTL.LAST r)
  let count := s.get (F.LFT_R_C_COUNT.COUNT r c)
  let limit := s.get (F.LFT_R_C_TIMEOUT.TIMEOUT r c)
  let toTarget := s.get (F.LFT_R_C_COUNT.TO_TARGET r c)
  let cands := if count ≠ 0 ∧ count ≤ run then ((s.lTerms r c).filter (s.lTermTrue t)).map LTerm.target else []
  let due := limit != 0 && decide (limit ≤ timer)
  if cands.contains last || (due && toTarget == last) then some last
  else if due then some toTarget
  else cands.min?

/-- Run counter and timer of recipe `r` after SIX `t`. -/
def State.sentenceRun (s : State) (r t : Nat) : Nat :=
  if s.clauseTrue r t (s.recipe r).clause then min ((s.recipe r).run + 1) 16777215 else 0
def State.sentenceTimer (s : State) (r : Nat) : Nat := ((s.recipe r).timer + 1) % 2 ^ 32

/-- The sentence of recipe `r` takes its next SIX (R265, R266, R270). -/
def State.sentenceStep (s : State) (r : Nat) : State :=
  let x := s.recipe r
  let t := x.next
  let s := s.setRecipe r { x with next := t + 1 }
  if x.host then s.recipeTrigger r t 0 true
  else
    let run := s.sentenceRun r t
    let timer := s.sentenceTimer r
    match s.sentenceMove r t x.clause run timer with
    | some c =>
      if c = s.get (F.LFT_R_CTL.LAST r) then s.recipeTrigger r t (s.coincidence r t) false
      else (s.setRecipe r { x with clause := c, run := 0, timer := 0, next := t + 1, past := (t + 1, some c) :: x.past.take 1023 }).showRecipe r
    | none => s.setRecipe r { x with run := run, timer := timer, next := t + 1 }

/-- Is SIX `t` recipe `r`'s turn: no running sentence has an earlier SIX to evaluate, nor a lower recipe this one? Records are so numbered in
trigger order, and in rising recipe order at one SIX (R267, R280). -/
def State.sentenceTurn (s : State) (r t : Nat) : Bool :=
  (List.range 8).all (fun q => !s.sentenceRuns q || decide (t < (s.recipe q).next) || ((s.recipe q).next == t && decide (r ≤ q)))

/-- May the sentence of recipe `r` evaluate its next SIX: it runs, it is its turn, and every source it uses is known? The state has elements
and comparators evaluated. -/
def State.sentenceReady (s : State) (r : Nat) : Bool × State :=
  let t := (s.recipe r).next
  let ms := s.sentenceTerms r
  let u := ms.foldl (fun v m => if m.src = 7 then v.cmpTo m.index t else v.lftSourceTo m.src m.index t) s
  (s.sentenceRuns r && s.sentenceTurn r t && decide (t ≤ s.six) && ms.all (fun m => (u.lftSource m.src m.index t).isSome), u)

/-- SENTENCE_STEP (R263, R265). -/
def execSentenceStep (r : Fin 8) (s : State) : Host.Outcome State Fault Refusal :=
  let p := s.sentenceReady r
  .next (if p.1 then (p.2.sentenceStep r).histsTo else s)

/-- CLAUSE_TIMEOUT (R265): the step at which the timer of the active clause reaches TIMEOUT. -/
def execClauseTimeout (r : Fin 8) (s : State) : Host.Outcome State Fault Refusal :=
  let p := s.sentenceReady r
  let limit := s.get (F.LFT_R_C_TIMEOUT.TIMEOUT r (s.recipe r).clause)
  .next (if p.1 ∧ limit ≠ 0 ∧ limit ≤ s.sentenceTimer r then (p.2.sentenceStep r).histsTo else s)

/-- LFT_TRIG (R270): privileged, under OPERATE; a recipe that extracts without EXTEND ignores it. -/
def execLftTrig (pf : Fin 2) (w : Word) (s : State) : Host.Outcome State Fault Refusal :=
  .next (whenAllowed (s.gate pf A.LFT_TRIG w needsOperate false) (fun t =>
    (maskBits 8 w.toNat).foldl (fun u r => if u.sentenceRuns r then u.setRecipe r { u.recipe r with host := true } else u) t))

/-- HIST_CLEAR (R274): privileged, under OPERATE; the unit is zero from the next SIX on. -/
def execHistClear (pf : Fin 2) (u : Fin 16) (w : Word) (s : State) : Host.Outcome State Fault Refusal :=
  .next (whenAllowed (s.gate pf (A.LFT_H_CTL u) w needsOperate false) (fun t =>
    if bit w.toNat 0 then
      if t.lftRuns ∧ t.get (F.LFT_H_CFG.KIND u) ≠ 0 then t.setHist u { t.hist u with clear := some (t.six + 1) } else t.histZero u
    else t))

/-! ## Records (R275, R280, R286) -/

/-- RESULT of an action on the record that LFT_REC_SEL names. -/
def State.recResult (s : State) (v : Nat) : State := s.set F.LFT_REC_CTL.RESULT v

/-- An action on the selected record: RESULT 2 when there is none, else what `act` answers. -/
def State.onRecord (s : State) (act : State → LftRec → State) : State :=
  match s.rec? (s.get F.LFT_REC_SEL.RECNO) with
  | some d => act s d
  | none => s.recResult 2

/-- REC_LOAD (R275, R286): in either view; an open record has no header yet. -/
def execRecLoad (pf : Fin 2) (w : Word) (s : State) : Host.Outcome State Fault Refusal :=
  .next (whenAllowed (s.gate pf A.LFT_REC_CTL w none false) (fun t =>
    if bit w.toNat 0 then
      t.onRecord (fun u d =>
        if d.state = 1 then u.recResult 3
        else
          let h := d.head
          ((List.range 64).foldl (fun v i => v.wr (A.LFT_RWIN i) (BitVec.ofNat 32 (leNat ((h.drop (4 * i)).take 4)))) u).recResult 1)
    else t))

/-- A privileged action on the selected record under OPERATE, by the kick bit `b`. -/
def State.recKick (s : State) (pf b : Nat) (w : Word) (act : State → LftRec → State) : State :=
  whenAllowed (s.gate pf A.LFT_REC_CTL w needsOperate false) (fun t => if bit w.toNat b then t.onRecord act else t)

/-- REC_PROTECT (R280): refused beyond 120 GiB of protected records. -/
def execRecProtect (pf : Fin 2) (w : Word) (s : State) : Host.Outcome State Fault Refusal :=
  .next (s.recKick pf 1 w (fun t d =>
    if d.prot then t.recResult 1
    else if protMax < t.arcProt + d.space then t.recResult 3
    else ((t.modRec d.recno (fun y => { y with prot := true })).arcRegs).recResult 1))

/-- REC_UNPROTECT (R280). -/
def execRecUnprotect (pf : Fin 2) (w : Word) (s : State) : Host.Outcome State Fault Refusal :=
  .next (s.recKick pf 2 w (fun t d => ((t.modRec d.recno (fun y => { y with prot := false })).arcRegs).recResult 1))

/-- REC_DELETE (R280): a closed, unprotected record goes at once. -/
def execRecDelete (pf : Fin 2) (w : Word) (s : State) : Host.Outcome State Fault Refusal :=
  .next (s.recKick pf 3 w (fun t d =>
    if d.deletable then
      (({ t with lft := { t.lft with arc := t.lft.arc.filter (fun y => y.recno != d.recno) } } : State).arcRegs).recResult 1
    else t.recResult 3))

/-! ## Exports (R284, R285) -/

/-- Addresses of the export area: the result, or the configuration file, and the data file. -/
def expArea : Nat := 0x340000000
def expData : Nat := 0x340100000

/-- Greatest output. -/
def expMax : Nat := 2 ^ 30 - 2 ^ 20

/-- UTC offset in force, in seconds (R324). -/
def State.utcOffset (s : State) : Int :=
  if s.flag F.TIM_UTC.VALID then signed 16 (s.get F.TIM_UTC.OFFSET) else s.get F.TIM_HOLD.UTC_DEF

/-- UTC of SIX `k` under the offset of record `d`. -/
def State.utcOf (s : State) (d : LftRec) (k : Nat) : Int × Nat :=
  let t := todNs k d.offset
  ((t / 1000000000 % 2 ^ 48 : Nat) - s.utcOffset, t % 1000000000)

/-- The latest change at or before `k` of the entry with index `i` in a list of changes, newest first. -/
def changeAt {α : Type} (l : List (Nat × Nat × α)) (i k : Nat) (first : α) : α :=
  ((l.find? (fun e => e.2.1 == i && decide (e.1 ≤ k))).map (fun e => e.2.2)).getD first

/-- Does SIX `k` of channel `i` lie in a gap of record `d`, of any cause but the replay's? -/
def LftRec.inGap (d : LftRec) (i k : Nat) : Bool :=
  d.gaps.any (fun g => g.cause != 3 && (g.ch == allChans || g.ch == i) && decide (g.start ≤ k) && decide (k < g.start + g.len))

/-- Analog codes of a record at SIX `k` in a COMTRADE mode, none in a gap; with each its quality. -/
def LftRec.analogAt (d : LftRec) (mode k : Nat) : List (Option Int × Nat) :=
  let hole (i : Nat) (v : Int) : Option Int := if d.inGap i k then none else some v
  if mode = 1 then
    let l := d.fast.lookup k
    (List.range d.fasts.length).map (fun i => (l.bind (fun x => hole i (x.getD i 0)), changeAt d.quals i k (d.qual0.getD i 0)))
  else
    let a := d.fasts.length
    match d.slow.find? (fun x => x.b == k) with
    | some x => x.vals.zipIdx.map (fun v => (hole (a + v.2) v.1.1, v.1.2)) ++
        x.slots.zipIdx.map (fun w => (hole (a + d.slows.length + w.2) (signed 32 w.1.toNat), qVALID))
    | none => (d.slows.map (fun _ => (none, 0))) ++ d.pvs.map (fun _ => (none, qVALID))

/-- Status words of 16 bits. -/
def statusBytes (bs : List Bool) : List Byte :=
  ((List.range (ceilDiv bs.length 16)).map (fun i => leBytes 2 (maskOf 16 (fun b => bs.getD (16 * i + b) false)))).flatten

/-- Sample `i` of the data file, at SIX `k`. -/
def LftRec.sample (d : LftRec) (mode : Nat) (qbits : Bool) (i k : Nat) : List Byte :=
  let xs := d.analogAt mode k
  let st := (List.range d.bins.length).map (fun b => changeAt d.binCh b k (bit d.bin0 b))
  let st := if qbits then st ++ xs.map (fun x => !bit x.2 0) else st
  leBytes 4 (i + 1) ++ leBytes 4 i ++ (xs.map (fun x => match x.1 with
    | some v => s32 v
    | none => leBytes 4 0x80000000)).flatten ++ statusBytes st

/-- Samples per step of a COMTRADE mode. -/
def expStep (mode : Nat) : Nat := if mode = 1 then 1 else 100

/-- The channels that a COMTRADE mode exports as analog ones, and the status channels. -/
def LftRec.analogInfo (d : LftRec) (mode : Nat) : List ChanInfo :=
  (d.infos.filter (fun e => if mode = 1 then e.1 == 1 else e.1 == 2 || e.1 == 3)).map (fun e => e.2.2)

/-- What the configuration file says. -/
def State.comtrade (s : State) (d : LftRec) (mode : Nat) (qbits : Bool) (from_ n : Nat) : ComtradeCfg :=
  let an := d.analogInfo mode
  let st := (d.infos.filter (fun e => e.1 == 4)).map (fun e => e.2.2.name)
  ⟨s.fp.station, s.get64 A.ENG_UID, 2013, an.map comtradeChan, st ++ (if qbits then an.map (fun x => x.name ++ ".Q") else []), s.fp.hz60,
    samplesPerSecond / expStep mode, n, s.utcOf d from_, s.utcOf d d.trig, "BINARY32", if mode = 1 then 5 else 500⟩

/-- The two files of an export: the result or the configuration file, and the data file. -/
def State.exportFiles (s : State) (d : LftRec) (mode : Nat) (qbits : Bool) (from_ n : Nat) : List Byte × List Byte :=
  if mode = 0 then ((d.bytes.drop from_).take n, [])
  else (Config.comtradeText (s.comtrade d mode qbits from_ n),
    ((List.range n).map (fun i => d.sample mode qbits i (from_ + expStep mode * i))).flatten)

/-- Bytes of the output. -/
def LftRec.exportSize (d : LftRec) (mode : Nat) (qbits : Bool) (n : Nat) : Nat :=
  let a := (d.analogInfo mode).length
  if mode = 0 then n else n * (8 + 4 * a + 2 * ceilDiv (d.bins.length + if qbits then a else 0) 16)

/-- Does the window lie in the record and on its grid? -/
def LftRec.windowOk (d : LftRec) (mode from_ n : Nat) : Bool :=
  if mode = 0 then from_ % 64 == 0 && n % 64 == 0 && decide (from_ + n ≤ d.size)
  else from_ % expStep mode == 0 && decide (d.start ≤ from_) && decide (from_ + expStep mode * n ≤ d.fin + expStep mode)

/-- REASON of an export's refusal, 0 for none. -/
def State.exportReason (s : State) (j : ExpJob) : Nat :=
  if j.mode = 3 then 7
  else match s.rec? j.recno with
    | none => 1
    | some d =>
      if d.state = 1 then 2
      else if !d.windowOk j.mode j.first j.n then 4
      else if expMax < d.exportSize j.mode j.qbits j.n then 3
      else 0

/-- An export ends in STATE `st` with REASON `why`. -/
def State.exportEnd (s : State) (st why : Nat) : State :=
  let s := ((s.set F.LFT_EXP_CTL.STATE st).set F.LFT_EXP_CTL.REASON why).set F.LFT_STATUS.EXP_BUSY 0
  let s := { s with lft := { s.lft with exp := none } }
  if st = 2 then s.raise F.LFT_EVT.EXP_DONE else s.raise F.LFT_EVT.EXP_FAIL

/-- EXPORT_GO (R284): in either view; a GO while an export runs has no effect. -/
def execExportGo (pf : Fin 2) (w : Word) (s : State) : Host.Outcome State Fault Refusal :=
  .next (whenAllowed (s.gate pf A.LFT_EXP_CTL w none false) (fun t =>
    if t.flag F.LFT_STATUS.EXP_BUSY then t
    else
      let t := (t.set F.LFT_EXP_CTL.MODE w.toNat).set F.LFT_EXP_CTL.QBITS (w.toNat / 4)
      if bit w.toNat 8 then
        let j : ExpJob := ⟨t.get F.LFT_EXP_REC.RECNO, t.get F.LFT_EXP_CTL.MODE, t.flag F.LFT_EXP_CTL.QBITS, t.get64 A.LFT_EXP_FROM,
          t.get F.LFT_EXP_N.VALUE⟩
        let why := t.exportReason j
        let t := (t.set F.LFT_EXP_LEN0.VALUE 0).set F.LFT_EXP_LEN1.VALUE 0
        if why ≠ 0 then t.exportEnd 3 why
        else
          let t := ((t.set F.LFT_EXP_CTL.STATE 1).set F.LFT_EXP_CTL.REASON 0).set F.LFT_STATUS.EXP_BUSY 1
          ({ t with lft := { t.lft with exp := some j } } : State).dmaShow 1 1
      else t))

/-- The running export and its record. -/
def State.expJob (s : State) : Option (ExpJob × LftRec) := s.lft.exp.bind (fun j => (s.rec? j.recno).map (fun d => (j, d)))

/-- The first `k` bytes of the export's output reach the export area. -/
def State.exportWrite (s : State) (k : Option Nat) : State :=
  match s.expJob with
  | some (j, d) =>
    let f := s.exportFiles d j.mode j.qbits j.first j.n
    let a := f.1.take (k.getD f.1.length)
    let b := f.2.take ((k.map (fun n => n - f.1.length)).getD f.2.length)
    let s := (s.storeBytes spDRAM expArea a).storeBytes spDRAM expData b
    (s.set F.LFT_EXP_LEN0.VALUE a.length).set F.LFT_EXP_LEN1.VALUE b.length
  | none => s

/-- The export breaks off at a beat: what the area holds then is free. -/
def State.exportBreak (s : State) (why : Nat) : State :=
  let p := s.fresh
  ((p.2.exportWrite (some (64 * Config.beats p.1))).exportEnd 3 why).dmaShow 1 0

/-- EXPORT_STOP (R284): the export ends at the next beat with REASON 6. -/
def execExportStop (pf : Fin 2) (w : Word) (s : State) : Host.Outcome State Fault Refusal :=
  .next (whenAllowed (s.gate pf A.LFT_EXP_CTL w none false) (fun t =>
    if bit w.toNat 9 ∧ t.flag F.LFT_STATUS.EXP_BUSY then t.exportBreak 6 else t))

/-- EXP_DONE (R285): the export completes. -/
def execExpDone (s : State) : Host.Outcome State Fault Refusal :=
  if s.flag F.LFT_STATUS.EXP_BUSY then
    if s.expJob.isSome then .next (((s.exportWrite none).exportEnd 2 0).dmaShow 1 2)
    else .next (s.exportEnd 3 1)
  else .next s

end Sys2Proof.Machine
end

