-- ==== Sys2Proof/Machine/Olc.lean ====
section
/-!
DEFINITION. Machine/Olc.lean: value changes (R226 to R231), code replacement, the shadow run and the switch (R232 to R242, R247).
-/
namespace Sys2Proof.Machine
open Sys2Proof

/-! ## Access -/

/-- A kick with the right CHANGE that is refused with cause 5 while something is busy (R228, R377). -/
def State.gateBusy (s : State) (pf a : Nat) (w : Word) (right : Option Nat) (busy : Bool) : Bool × State :=
  if busy then
    let g := s.gate pf a 0 right false
    (false, if g.1 then g.2.deny pf 5 a else g.2)
  else s.gate pf a w right false

/-! ## Value changes (R226 to R230) -/

/-- A noun by its ID in the running program image, with its partition. -/
def State.nounById (s : State) (id : Nat) : Option (Partition × Noun) :=
  match s.tsk.prog with
  | some g => g.parts.findSome? (fun p => (p.nouns.find? (fun n => n.id == id)).map (fun n => (p, n)))
  | none => none

/-- Entries of a batch as the registers hold them. -/
def State.vcEntries (s : State) (count : Nat) : List (Nat × Nat × Word) :=
  (List.range count).map (fun i =>
    ((s.rd (A.OLC_VC_E_ID_LO i)).toNat + 2 ^ 32 * (s.rd (A.OLC_VC_E_ID_HI i)).toNat, s.get (F.OLC_VC_E_OFS.OFFSET i),
     s.rd (A.OLC_VC_E_VAL i)))

/-- Is `o` a word of the noun's parameter section? -/
def paramOff (p : Partition) (n : Noun) (o : Nat) : Bool :=
  o % 4 == 0 && decide (o < ((p.verbs[n.verb]?).map Verb.psize).getD 0)

/-- The REASON of a refusal of the batch, 0 for none (R226). -/
def State.vcReason (s : State) (count : Nat) : Nat :=
  let es := s.vcEntries count
  let ns := es.map (fun e => s.nounById e.1)
  if count = 0 ∨ 64 < count then 1
  else if !s.tsk.up || ns.any Option.isNone then 2
  else if es.any (fun e => (s.nounById e.1).any (fun x => !paramOff x.1 x.2 e.2.1)) then 3
  else
    let ts := ns.filterMap (fun x => x.map (fun y => y.2.task))
    if ts.any (fun t => t != ts.headD 0) then 4 else 0

/-- VC_APPLY (R226). -/
def execVcApply (pf : Fin 2) (w : Word) (s : State) : Host.Outcome State Fault Refusal :=
  .next (whenAllowed (s.gateBusy pf A.OLC_VC_CTL w needsChange s.olc.vc.isSome) (fun t =>
    let count := fieldOf w 0 7
    let t := t.set F.OLC_VC_CTL.COUNT count
    if bit w.toNat 8 then
      let r := t.vcReason count
      let t := t.set F.OLC_VC_CTL.REASON r
      if r ≠ 0 then t.raise F.OLC_EVT.VC_REFUSED
      else
        let es := t.vcEntries count
        let ns := es.filterMap (fun e => t.nounById e.1)
        let tid := (ns.head?.map (fun x => x.2.task)).getD 0
        let b : Batch := ⟨t.six, tid, es, ns.map (fun x => x.2.layout)⟩
        (({ t with olc := { t.olc with vc := some b } } : State).vcBusy true).set F.OLC_VC_INFO.TID tid
    else t))

/-- VC_CANCEL (R228). While a batch is pending, COUNT stays. -/
def execVcCancel (pf : Fin 2) (w : Word) (s : State) : Host.Outcome State Fault Refusal :=
  .next (whenAllowed (s.gate pf A.OLC_VC_CTL w needsChange false) (fun t =>
    let t := if t.olc.vc.isSome then t else t.set F.OLC_VC_CTL.COUNT (fieldOf w 0 7)
    if bit w.toNat 9 ∧ t.olc.vc.isSome then
      (({ t with olc := { t.olc with vc := none } } : State).vcBusy false).set F.OLC_VC_CTL.REASON 6
    else t))

/-- The shadow takes an entry where ID and layout match; else its task is not comparable any more (R234, R237). -/
def State.vcShadow (s : State) (tid id layout off : Nat) (v : Word) : State :=
  if s.shadowHas tid then
    match (s.olc.img.bind (fun p => p.nouns.find? (fun n => n.id == id && n.layout == layout))) with
    | some n => s.storeNat (spData s.olc.lane) (n.base + off) 4 v.toNat
    | none => { s with olc := { s.olc with nocmp := if s.olc.nocmp.contains tid then s.olc.nocmp else tid :: s.olc.nocmp } }
  else s

/-- One entry of a batch takes effect at SIX k (R227): lane memory, mirror, Cellar, Loft. -/
def State.vcEntry (s : State) (ln tid : Nat) (e : Nat × Nat × Word) : State :=
  match s.nounById e.1 with
  | some (p, n) =>
    let a := n.base + e.2.1
    let old := s.loadWord (spData ln) a
    let s := (s.storeNat (spData ln) a 4 e.2.2.toNat).storeNat spSRAM (mirrorAddr p.part a) 4 e.2.2.toNat
    let s := s.logNamedSev "VC_APPLIED" 1 (leBytes 8 s.six ++ leBytes 8 e.1 ++ leBytes 4 e.2.1 ++ leBytes 4 old.toNat ++ leBytes 4 e.2.2.toNat)
    let s := s.lftEvent ⟨s.six, 1, tid, 0, e.2.1, e.1, old, e.2.2, 0, 0⟩
    s.vcShadow tid e.1 n.layout e.2.1 e.2.2
  | none => s

/-- A batch takes effect on lane `ln` (R227). -/
def State.vcTake (s : State) (b : Batch) (ln : Nat) : State :=
  let s := b.entries.foldl (fun u e => u.vcEntry ln b.tid e) s
  let s := ({ s with olc := { s.olc with vc := none } } : State).vcBusy false
  let s := (s.set64 A.OLC_VC_SIX s.six).set F.OLC_VC_INFO.SEQ (s.get F.OLC_VC_INFO.SEQ + 1)
  (s.set F.OLC_VC_CTL.REASON 0).raise F.OLC_EVT.VC_APPLIED

/-- The batch that is due at a release of this SIX, with the lane of its task. -/
def State.vcNow (s : State) : Option (Batch × Nat) :=
  match s.olc.vc with
  | some b =>
    match s.task b.tid, s.serviceLane (s.partNo b.tid) with
    | some t, some ln => if s.batchDue b.tid && s.releaseDue t then some (b, ln) else none
    | _, _ => none
  | none => none

/-- A batch whose release falls at the SIX at which the lanes stop is applied, not withdrawn (R230). -/
def State.vcAtStop (s : State) : State :=
  match s.vcNow with
  | some (b, ln) => s.vcTake b ln
  | none => s

/-- VC_APPLIED (R227, R32 order 4): the batch at the release of its task. -/
def execVcApplied (s : State) : Host.Outcome State Fault Refusal :=
  match s.vcNow with
  | some (b, ln) => if !s.outputsOpen && !s.snapDue && !s.handoverDue then .next (s.vcTake b ln) else .next s
  | none => .next s

/-- The pending batch meets the new image of its partition (R229): refused where a layout is another than at the kick. -/
def State.vcRecheck (s : State) (old new : Partition) : State :=
  match s.olc.vc with
  | some b =>
    let bad := (b.entries.zip b.layouts).any (fun e =>
      old.nouns.any (fun n => n.id == e.1.1) && !new.nouns.any (fun n => n.id == e.1.1 && n.layout == e.2))
    if bad then
      ((({ s with olc := { s.olc with vc := none } } : State).vcBusy false).set F.OLC_VC_CTL.REASON 5).raise F.OLC_EVT.VC_REFUSED
    else s
  | none => s

/-! ## LOAD (R232, R233) -/

/-- Are two lists equal as sets? -/
def sameSet {α : Type} [BEq α] (a b : List α) : Bool := a.all b.contains && b.all a.contains

/-- What code 0x05 compares of a task. -/
def taskKey (t : Task) : Nat × Bool × Nat × Nat × Sources := (t.tid, t.event, t.m, t.minint, t.sources)

/-- Shelves of a partition that another partition's tasks read or a peer receives (code 0x06). -/
def State.sharedShelves (s : State) (p : Partition) : List Shelf :=
  p.shelves.filter (fun h => h.peers != 0 || s.tasks.any (fun t => s.partNo t.tid != p.part && t.declShelves.contains h.id))

/-- R232 code 0x06: shelves shared with others, gates, output regions and the command-point map stay. -/
def State.bordersSame (s : State) (old new : Partition) : Bool :=
  let own := s.sharedShelves old
  own.all (fun h => new.shelves.contains h) && sameSet (old.shelves.filter (fun h => h.peers != 0)) (new.shelves.filter (fun h => h.peers != 0)) &&
  sameSet old.gates new.gates && sameSet old.outputs new.outputs && sameSet old.cmdMap new.cmdMap

/-- Every noun in both images with another layout has a migration verb (code 0x07). -/
def migrCovered (old new : Partition) : Bool :=
  new.nouns.all (fun n => match old.nouns.find? (fun o => o.id == n.id) with
    | some o => o.layout == n.layout || new.migr.any (fun m => m.1 == o.layout && m.2.1 == n.layout &&
        ((new.verbs[m.2.2]?).any (fun v => v.vflags == 1)))
    | none => true)

/-- The program image with a partition replaced. -/
def progWith (g : ProgImage) (p : Partition) : ProgImage :=
  { g with parts := g.parts.map (fun q => if q.part = p.part then p else q) }

/-- The refusal code of a verified load, 0 for none (R232). -/
def State.chgReason (s : State) (x : Image) : Nat :=
  match x.body with
  | .partition p =>
    if x.kind ≠ 4 ∨ s.verifyResult x ≠ 0 ∨ s.flag F.SEC_STATUS.TAMPER then 1
    else
      match s.runningPart p.part, s.tsk.prog with
      | some old, some g =>
        if p.part ≠ s.chgPart ∨ (s.serviceLane p.part).isNone then 2
        else if s.spareLane.isNone then 3
        else if !sameSet (old.tasks.map taskKey) (p.tasks.map taskKey) then 5
        else if !s.bordersSame old p then 6
        else if !migrCovered old p then 7
        else if !progOk (progWith g p) || decide (1048576 < (p.shelves.map (fun h => 8 * h.words)).sum) then 8
        else if x.baseDigest ≠ g.digest then 0xE
        else 0
      | _, _ => 2
  | _ => 1

/-- A LOAD or its image is refused: the code shows; a change in progress goes on. -/
def State.loadRefuse (s : State) (code : Nat) : State :=
  ((s.set F.OLC_STATUS.CHG_STATE 7).set F.OLC_CHG_REASON.REASON code).raise F.OLC_EVT.LOAD_REFUSED

/-- LOAD clears the counters of the shadow run and the difference log. -/
def State.shadowCleared (s : State) : State :=
  let s := (((s.wr A.OLC_SHD_HP 0).wr A.OLC_SHD_CMP 0).wr A.OLC_SHD_NOCMP 0).wr A.OLC_SHD_DIFF 0
  (s.set64 A.OLC_SHD_FIRST (2 ^ 64 - 1)).clearDiffs

/-- The fields that a write to OLC_CHG_CTL sets. -/
def State.chgFields (s : State) (w : Word) : State :=
  let s := (s.set F.OLC_CHG_CTL.PART (fieldOf w 0 2)).set F.OLC_CHG_CTL.FORCE_POLICY (fieldOf w 2 2)
  (s.set F.OLC_CHG_CTL.ACCEPT_DIFF (fieldOf w 4 1)).set F.OLC_CHG_CTL.SHADOW_HP (fieldOf w 16 16)

/-- CHG_LOAD (R233): `img` is the image that stands at OLC_CHG_ADDR, none where the area holds none. A replay ends (R251). -/
def execChgLoad (pf : Fin 2) (w : Word) (img : Option Image) (s : State) : Host.Outcome State Fault Refusal :=
  .next (whenAllowed (s.gate pf A.OLC_CHG_CTL w needsChange false) (fun t =>
    let t := t.chgFields w
    if bit w.toNat 8 then
      let busy := t.olc.phase ≠ 0 ∨ t.olc.rpl.isSome
      let t := t.rplAbort
      if busy then t.loadRefuse 4
      else if fieldOf w 16 16 = 0 then t.loadRefuse 0xF
      else if fieldOf w 2 2 = 3 then t.loadRefuse 0xD
      else if fieldOf w 0 2 = 3 ∨ (t.serviceLane (fieldOf w 0 2)).isNone then t.loadRefuse 2
      else if t.spareLane.isNone then t.loadRefuse 3
      else
        let t := t.shadowCleared.set F.OLC_STATUS.CHG_PART (fieldOf w 0 2)
        let t := { t with olc := { t.olc with cand := img, img := none, loadSix := t.six, nocmp := [] } }
        (((t.chgPhase 1).set F.OLC_CHG_REASON.REASON 0).set (F.DMA_C_CTL.OWNER 2) (fieldOf w 0 2)).dmaShow 2 1
    else t))

/-- Verification has succeeded and the load onto the spare runs (R233): CHG_STATE 2. -/
def State.chgLoading (s : State) : State :=
  if s.olc.phase = 1 ∧ s.olc.cand.any (fun x => s.chgReason x == 0) then s.chgPhase 2 else s

/-- CHG_LOAD_DONE (R233): the image has verified and stands in the spare lane, or is refused. -/
def execChgLoadDone (s : State) : Host.Outcome State Fault Refusal :=
  if s.olc.phase = 1 ∨ s.olc.phase = 2 then
    let s := (s.dmaShow 2 2).set (F.DMA_C_CTL.OWNER 2) 7
    let refuse := fun (c : Nat) =>
      ({ s with olc := { s.olc with phase := 0, cand := none } } : State).loadRefuse c
    match s.olc.cand with
    | some x =>
      match s.chgReason x, x.body, s.spareLane with
      | 0, .partition p, some ln =>
        let s := s.loadCode ln p
        let s := { s with olc := { s.olc with
          img := some p, cand := none, lane := ln, h0 := boundaryAt hyperPeriod (s.six + 200) } }
        .next (s.chgPhase 3)
      | 0, _, _ => .next (refuse 3)
      | c, _, _ => .next (refuse c)
    | none => .next (refuse 1)
  else .next s

/-! ## Carrying nouns over, and migration calls (R240, R241) -/

/-- The words and the old noun that a noun of the new image starts from: kept content, or its initial value with the old noun to
migrate. -/
def State.carried (s : State) (old new : Partition) (n : Noun) : List Word × Option Noun :=
  match old.nouns.find? (fun o => o.id == n.id) with
  | some o =>
    if o.layout = n.layout then (s.mirrorNoun old.part o (nounSize new n), none) else (initWords new n, some o)
  | none => (initWords new n, none)

/-- The cycle of a migration call on lane `ln`. -/
def migrCycle (n : Noun) (part ln rel old len : Nat) : Cycle :=
  { tid := n.task, part := part, lane := ln, kind := 3, status := 0, rel := rel, period := 0, prio := 0, fmask := 0, event := false,
    overrun := false, unclean := false,
    regs := [(1, BitVec.ofNat 32 old), (2, Config.migrCopy), (3, BitVec.ofNat 32 len)].filter (fun e => e.2 != 0),
    flg := 0, nb := 0, pc := 0, lim := none, frames := [], loops := [], img := ⟨[], [], 0, [], false⟩, ost := [], shst := [],
    gset := [], evr := [], notes := [], drops := 0, journal := [], exec := 0, ended := rel }

/-- More instructions than any call executes. -/
def runFuel : Nat := 2 ^ 64

/-- One migration call (R241) of verb `v` on noun `n` (index `i`) from the old noun's bytes; a failure leaves lane memory as before. -/
def State.migrate (s : State) (ln : Nat) (new : Partition) (i v : Nat) (n : Noun) (oldLayout : Nat) (copy : List Byte) : State :=
  let before := s.bytes (spData ln)
  let s := (s.zeroSpace spCopy).storeBytes spCopy 0 copy
  let s := { s with olc := { s.olc with copyLen := copy.length } }
  let c := migrCycle n new.part ln s.six oldLayout copy.length
  let s := (s.setLane ln { s.lane ln with run := none, resv := 0 }).enter c v i
  let s := State.runCycle runFuel ln c.key (2 ^ 70) s
  let ok := (s.cycle c.key).any (fun d => d.status == 3)
  let s := (s.setCycle c.key none).setLane ln { s.lane ln with run := none, resv := 0 }
  let s := { s.zeroSpace spCopy with olc := { s.olc with copyLen := 0 } }
  if ok then s
  else
    let s := { s with mem := kvPut (fun _ => []) s.mem (spData ln) before }
    ((s.bump F.OLC_SHD_HP.MIGR_FAIL).raise F.OLC_EVT.MIGR_FAIL).logNamed "MIGR_FAIL" (leBytes 8 n.id ++ leBytes 4 oldLayout ++ leBytes 4 n.layout)

/-- The nouns of the new image in lane `ln` from the live mirror: carried over, migrated in noun-table order, or initial. -/
def State.buildNouns (s : State) (ln : Nat) (old new : Partition) : State :=
  let plan := new.nouns.zipIdx.map (fun e =>
    let c := s.carried old new e.1
    (e, c.1, c.2.map (fun o => (o.layout, s.loadBytes spSRAM (mirrorAddr old.part (o.base - 16)) (16 + nounSize old o)))))
  let s := plan.foldl (fun u e => u.placeNoun (spData ln) e.1.1.base e.1.1 e.2.1) s
  plan.foldl (fun u e =>
    match e.2.2 with
    | some (lay, bytes) =>
      match new.migr.find? (fun m => m.1 == lay && m.2.1 == e.1.1.layout) with
      | some m => u.migrate ln new e.1.2 m.2.2 e.1.1 lay bytes
      | none => u
    | none => u) s

/-! ## The shadow run (R234, R238) -/

/-- What the shadow takes over of the tasks' records: events that wait, but those that live EVRs raised (R234). -/
def State.shadowRts (s : State) : KV TaskRt := s.tsk.rt.map (fun e => (e.1, { e.2 with pend := e.2.pend.filter (fun g => !g.2) }))

/-- SHADOW_START (R234): at h0. -/
def execShadowStart (s : State) : Host.Outcome State Fault Refusal :=
  match s.olc.img with
  | some p =>
    match s.runningPart p.part with
    | some old =>
      if s.olc.phase == 3 && decide (s.olc.h0 ≤ s.six) && s.six % hyperPeriod == 0 && s.tsk.up && !s.outputsOpen && !s.snapDue then
        let s := s.buildNouns s.olc.lane old p
        let s := { s with olc := { s.olc with
          shadow := true, h0 := s.six, out := s.tsk.out, front := s.tsk.front, back := s.tsk.back,
          gates := gatesAt s.inj.gates s.six, rt := s.shadowRts } }
        .next ((s.chgPhase 4).spareAct 1)
      else .next s
    | none => .next s
  | none => .next s

/-- SHADOW_DONE (R238). -/
def execShadowDone (s : State) : Host.Outcome State Fault Refusal :=
  if s.olc.phase = 4 ∧ s.olc.h0 + hyperPeriod * s.get F.OLC_CHG_CTL.SHADOW_HP ≤ s.six then
    .next ((s.chgPhase 5).raise F.OLC_EVT.SHADOW_DONE)
  else .next s

/-- Hyperperiods completed since h0, counted at a hyperboundary. -/
def State.shadowHp (s : State) : State :=
  if s.olc.shadow then s.set F.OLC_SHD_HP.DONE_HP (min ((s.six - s.olc.h0) / hyperPeriod) 65535) else s

/-- CHG_CANCEL (R238). -/
def execChgCancel (pf : Fin 2) (w : Word) (s : State) : Host.Outcome State Fault Refusal :=
  .next (whenAllowed (s.gate pf A.OLC_CHG_CTL w needsChange false) (fun t =>
    let t := t.chgFields w
    if bit w.toNat 10 then
      let t := if t.olc.phase ≤ 2 then t else t.spareIdle
      let t := { t with olc := { t.olc with cand := none, img := none, switchAt := none } }
      t.chgPhase 0
    else t))

/-! ## The switch (R239, R240, R247) -/

/-- Is the force of entry `n`, bound to `y`, affected by a switch to `new` (R247)? -/
def affected (new : Partition) (y : Symbol) : Bool :=
  forceKind y.target != 0 &&
  (match new.symbols.find? (fun z => z.id == y.id) with
   | some z => z.typ != y.typ || z.digest != y.digest
   | none => true)

/-- Force entries of partition `p`, active or pending, with their symbols. -/
def State.partForces (s : State) (p : Nat) : List (Nat × Symbol) :=
  s.frc.filterMap (fun e =>
    if (s.flag (F.FRC_E_CTL.ACTIVE e.1) || s.flag (F.FRC_E_CTL.PENDING e.1)) && s.get (F.FRC_E_CTL.PART e.1) == p then
      e.2.bound.map (fun y => (e.1, y))
    else none)

/-- The refusal code of a SWITCH, 0 for none (R239). -/
def State.switchReason (s : State) (new : Partition) : Nat :=
  if s.olc.phase < 5 then 9
  else if s.get F.OLC_SHD_DIFF.COUNT ≠ 0 ∧ !s.flag F.OLC_CHG_CTL.ACCEPT_DIFF then 0xA
  else if s.get F.OLC_CHG_CTL.FORCE_POLICY ≠ 1 ∧ s.get F.OLC_CHG_CTL.FORCE_POLICY ≠ 2 ∧
      (s.partForces new.part).any (fun e => affected new e.2) then 0xB
  else if s.opstate ≠ 0 ∨ s.olc.shadow = false then 0xC
  else 0

def State.switchRefuse (s : State) (code : Nat) : State :=
  ((s.set F.OLC_STATUS.CHG_STATE 7).set F.OLC_CHG_REASON.REASON code).raise F.OLC_EVT.SWITCH_REFUSED

/-- CHG_SWITCH (R239); a kick while a switch is pending changes nothing. -/
def execChgSwitch (pf : Fin 2) (w : Word) (s : State) : Host.Outcome State Fault Refusal :=
  .next (whenAllowed (s.gate pf A.OLC_CHG_CTL w needsChange false) (fun t =>
    let t := t.chgFields w
    if bit w.toNat 9 ∧ t.olc.phase ≠ 6 then
      match t.olc.img with
      | some p =>
        let r := t.switchReason p
        if r ≠ 0 then t.switchRefuse r
        else
          ({ t with olc := { t.olc with switchAt := some (boundaryAt hyperPeriod (t.six + 200)) } } : State).chgPhase 6
      | none => t.switchRefuse 9
    else t))

/-- A force is dropped at a switch (R247). -/
def State.forceDrop (s : State) (n : Nat) : State :=
  let ws := s.forceOuts n
  let s := s.setFrc n FrcSt.reset
  let s := ((s.set (F.FRC_E_CTL.ACTIVE n) 0).set (F.FRC_E_CTL.PENDING n) 0).noteForced ws
  ((s.set (F.FRC_E_CTL.REASON n) 5).forceCounts.raise F.FRC_EVT.DROPPED).forceEntry "FRC_DROPPED" n

/-- A force is bound to its symbol's new location. -/
def State.forceBind (s : State) (n : Nat) (z : Symbol) : State :=
  let t := s.setFrc n { s.frcAt n with bound := some z }
  (t.noteForced (s.forceOuts n ++ t.forceOuts n)).set (F.FRC_E_CTL.KIND n) (forceKind z.target)

/-- The forces of the partition meet the new image. -/
def State.forcesSwitch (s : State) (new : Partition) : State :=
  let pol := s.get F.OLC_CHG_CTL.FORCE_POLICY
  (s.partForces new.part).foldl (fun u e =>
    let z := new.symbols.find? (fun z => z.id == e.2.id)
    if affected new e.2 then
      match z with
      | some y => if pol = 1 ∧ y.typ = e.2.typ then (u.forceBind e.1 y).raise F.FRC_EVT.REBOUND else u.forceDrop e.1
      | none => u.forceDrop e.1
    else
      match z with
      | some y => u.forceBind e.1 y
      | none => u) s

/-- The nouns of a partition in the mirror take those of lane `ln`. -/
def State.mirrorFrom (s : State) (ln : Nat) (p : Partition) : State :=
  p.nouns.foldl (fun u n =>
    u.storeBytes spSRAM (mirrorAddr p.part (n.base - 16)) (u.loadBytes (spData ln) (n.base - 16) (16 + nounSize p n))) s

/-- The switch itself (R240). Live cycles of the partition still open at H are lost. -/
def State.switchTo (s : State) (g : ProgImage) (old new : Partition) : State :=
  let ln := s.olc.lane
  let was := s.serviceLane new.part
  let s := (s.liveCycles.filter (fun c => c.part == new.part && c.status != 5)).foldl State.loseCycle s
  let s := ((s.vcRecheck old new).spareIdle.set (F.LNE_L_STATE.PART ln) new.part).setRole ln 1
  let s := s.buildNouns ln old new
  let dropped := (old.nouns.filter (fun o => !new.nouns.any (fun n => n.id == o.id))).length
  let s := (s.set F.OLC_CHG_REASON.OLC_CHG_DROP (min dropped 65535)).mirrorFrom ln new
  let s := s.forcesSwitch new
  let s := match was with
    | some o => (((s.zeroSpace (spCode o)).zeroSpace (spData o)).setLane o LaneSt.reset).set (F.LNE_L_STATE.PART o) 0 |>.setRole o 2
    | none => s
  let s := { s with tsk := { s.tsk with prog := some (progWith g new) }, olc := { s.olc with img := none, switchAt := none } }
  let s := new.tasks.foldl (fun u t => u.showTask new.part t) (s.showRegions new)
  let s := (s.raise F.OLC_EVT.SWITCHED).logNamedSev "SWITCHED" 3
    (leBytes 8 s.six ++ leBytes 32 old.digest.toNat ++ leBytes 32 new.digest.toNat)
  (s.chgPhase 0).spareAct 0

/-- CODE_SWITCH (R239, R240): at H, after the output releases and the snapshot. -/
def execCodeSwitch (s : State) : Host.Outcome State Fault Refusal :=
  match s.olc.switchAt, s.olc.img, s.tsk.prog with
  | some h, some p, some g =>
    if decide (h ≤ s.six) && s.six % hyperPeriod == 0 && s.tsk.up && !s.outputsOpen && !s.snapDue then
      match s.switchReason p, s.runningPart p.part with
      | 0, some old => .next (s.switchTo g old p)
      | r, _ =>
        let s := { s with olc := { s.olc with phase := 5, switchAt := none } }
        .next (s.switchRefuse r)
    else .next s
  | _, _, _ => .next s

end Sys2Proof.Machine
end

