-- ==== Sys2Proof/Machine/Dma.lean ====
section
/-!
DEFINITION. Machine/Dma.lean: DMA channels and their descriptors (R213 to R219).
-/
namespace Sys2Proof
open Sys2Proof.Machine

def Desc.srcSp (d : Desc) : Nat := d.ctrl % 16
def Desc.dstSp (d : Desc) : Nat := d.ctrl / 16 % 16
def Desc.chain (d : Desc) : Bool := bit d.ctrl 8
def Desc.tag (d : Desc) : Bool := bit d.ctrl 9
def Desc.irq (d : Desc) : Bool := bit d.ctrl 10

/-- Where the data beats land: after the tag beat when TAG is 1 (R217). -/
def Desc.dataDst (d : Desc) : Nat := d.dst + if d.tag then 64 else 0

/-- Are CTRL, LEN and alignment valid, with no reserved code or bit set (R216)? -/
def Desc.wellFormed (d : Desc) : Bool :=
  let code (c : Nat) : Bool := c != 0 && decide (c ≤ 13)
  d.at_ % 32 == 0 && decide (d.ctrl < 2 ^ 11) && code d.srcSp && code d.dstSp && d.len % 64 == 0 && decide (64 ≤ d.len) &&
  decide (d.len ≤ 0x4000000) && d.src % 64 == 0 && d.dst % 64 == 0 && (d.tag || d.tagseq == 0)

/-- FADDR of a failing data beat: the source, the destination, or the host address (R218). -/
def Desc.faultAddr (d : Desc) (code k : Nat) : Nat :=
  if code = 2 ∨ (code = 4 ∧ d.srcSp = spHost) then d.src + 64 * k else d.dataDst + 64 * k

/-- Data beats written and FADDR when a beat of descriptor `d` fails after `beats` data beats (R217, R218): with `tag` the tag beat at DST, the
first one where no data beat has been written, else the closing one. -/
def Desc.failAt (d : Desc) (code beats : Nat) (tag : Bool) : Nat × Nat :=
  if tag && d.tag then (if beats = 0 then 0 else d.len / 64, d.dst)
  else
    let k := min beats (d.len / 64 - 1)
    (k, d.faultAddr code k)

end Sys2Proof

namespace Sys2Proof.Machine
open Sys2Proof

def State.dmaAt (s : State) (c : Nat) : DmaChan := kvGet (fun _ => DmaChan.reset) s.dma c

def State.setDma (s : State) (c : Nat) (x : DmaChan) : State := { s with dma := kvPut (fun _ => DmaChan.reset) s.dma c x }

def State.dmaRuns (s : State) (c : Nat) : Bool := s.get (F.DMA_C_STAT.STATE c) == 1

/-- The descriptor at address `a` of host memory (R214). -/
def State.hostDesc (s : State) (a : Nat) : Desc :=
  ⟨a, s.loadNat spHost a 4, s.loadNat spHost (a + 4) 4, s.loadNat spHost (a + 8) 8, s.loadNat spHost (a + 16) 8,
    signed 32 (s.loadNat spHost (a + 24) 4), s.loadNat spHost (a + 28) 4⟩

/-- The image upload area, and the export area with its length (R214). -/
def uploadArea : Nat := 0x380000000

/-- Every space with its width (R214), as space, first byte and the byte after. -/
def allSpaces : List (Nat × Nat × Nat) :=
  [(spSRAM, 0, 2 ^ 25), (spDRAM, 0, 2 ^ 34), (spFlash, 0, 2 ^ 38), (spHost, 0, 2 ^ 64), (spP2, 0, 2 ^ 25)] ++
  (List.range 4).map (fun n => (spCode n, 0, 2 ^ 20)) ++ (List.range 4).map (fun n => (spData n, 0, 2 ^ 21))

/-- Lanes that owner `p`, a partition, loads: the one that serves it, and the spare while it is loaded for it. -/
def State.loadLanes (s : State) (p : Nat) : List Nat :=
  (s.serviceLane p).toList ++ (match s.tsk.tko with
    | some k => if k.part = p then [k.spare] else []
    | none => []) ++
  (if (s.olc.phase = 1 ∨ s.olc.phase = 2) ∧ s.chgPart = p then s.spareLane.toList else [])

/-- Ranges that an owner reads (R215). -/
def dmaReads (owner : Nat) : List (Nat × Nat × Nat) :=
  if owner < 3 then Config.imageExtents owner ++ [(spSRAM, mirrorAddr owner 0, mirrorAddr (owner + 1) 0)]
  else if owner = 4 then [(spDRAM, expArea, uploadArea)]
  else if owner = 5 then [(spDRAM, expArea, uploadArea), (spDRAM, uploadArea, 0x390000000)]
  else if owner = 7 then allSpaces
  else []

/-- Ranges that an owner writes. -/
def State.dmaWrites (s : State) (owner : Nat) : List (Nat × Nat × Nat) :=
  if owner < 3 then ((s.loadLanes owner).map (fun n => [(spCode n, 0, 2 ^ 20), (spData n, 0, 2 ^ 21)])).flatten
  else if owner = 4 then [(spHost, 0, 2 ^ 64)]
  else if owner = 5 then [(spHost, 0, 2 ^ 64), (spDRAM, uploadArea, 0x390000000)]
  else if owner = 7 then allSpaces.filter (fun r => !(List.range 4).any (fun n => r.1 == spCode n && s.get (F.LNE_L_STATE.ROLE n) == 1))
  else []

/-- First byte of a range outside the rights, if any; adjoining ranges count as one. -/
def outsideGo (sp : Nat) : List (Nat × Nat × Nat) → Nat → Nat → Option Nat
  | [], a, last => if a < last then some a else none
  | (p, lo, hi) :: l, a, last => if p = sp ∧ lo ≤ a ∧ a < hi then outsideGo sp l hi last else outsideGo sp l a last

/-- Fault code and FADDR of the checks of R216, if one fails. -/
def State.dmaCheck (s : State) (owner : Nat) (d : Desc) : Option (Nat × Nat) :=
  if !d.wellFormed then some (6, d.at_)
  else match outsideGo d.srcSp (dmaReads owner) d.src (d.src + d.len) with
    | some a => some (1, a)
    | none => (outsideGo d.dstSp (s.dmaWrites owner) d.dst (d.dataDst + d.len)).map (fun a => (1, a))

/-- A tag beat (R217). -/
def tagBeat (seq st len crc : Nat) : List Byte := leBytes 4 seq ++ leBytes 4 st ++ leBytes 4 len ++ leBytes 4 crc ++ zeros 48

/-- Channel `c` stops with a fault (R218): STATE, CODE, RESID and FADDR, the event, and the Cellar entry. -/
def State.dmaFault (s : State) (c code resid faddr : Nat) : State :=
  let s := ((s.set (F.DMA_C_STAT.STATE c) 3).set (F.DMA_C_STAT.CODE c) code).set (F.DMA_C_RESID.RESID c) resid
  let s := (s.set64 (A.DMA_C_FADDR c) faddr).setDma c { s.dmaAt c with desc := none }
  (s.raise (bitField A.DMA_EVT (16 + c))).logNamed "DMA_FAULT" (leBytes 1 c ++ leBytes 1 code ++ leBytes 4 resid ++ leBytes 8 faddr)

/-- Channel `c` comes to the descriptor at `a` of host memory, the `i`th of its chain: fetched, checked, and its tag beat opened. -/
def State.dmaBegin (s : State) (c a i : Nat) (fetchOk : Bool) : State :=
  let s := s.set (F.DMA_C_CUR.INDEX c) i
  if !fetchOk then
    let p := s.fresh
    p.2.dmaFault c 6 (Config.freeWord p.1).toNat a
  else
    let d := s.hostDesc a
    match s.dmaCheck (s.get (F.DMA_C_CTL.OWNER c)) d with
    | some (code, faddr) => s.dmaFault c code d.len faddr
    | none =>
      let s := (s.setDma c ⟨some d, i, if d.tag then s.loadBytes d.dstSp d.dst 64 else []⟩).set (F.DMA_C_RESID.RESID c) d.len
      if d.tag then s.storeBytes d.dstSp d.dst (tagBeat d.tagseq 1 d.len 0) else s

/-- The access check of a write to DMA_Cc_CTL of a host channel (R213, R219, R376): OWNER 5 needs the privileged view and OPERATE; a code
other than 4 or 5, or a change while running, is ignored. -/
def State.dmaGate (s : State) (pf c : Nat) (w : Word) : Bool × State :=
  let own := s.get (F.DMA_C_CTL.OWNER c)
  let new := fieldOf w 0 3
  s.gate pf (A.DMA_C_CTL c) w (if own = 5 ∨ new = 5 then needsOperate else none)
    (new != own && (s.dmaRuns c || (new != 4 && new != 5)))

/-- DMA_GO (R216, R217, R219): a channel that runs ignores it. -/
def execDmaGo (pf : Fin 2) (c : Fin 8) (w : Word) (fetchOk : Bool) (s : State) : Host.Outcome State Fault Refusal :=
  let n := 8 + c.val
  .next (whenAllowed (s.dmaGate pf n w) (fun t =>
    let t := t.set (F.DMA_C_CTL.OWNER n) w.toNat
    if bit w.toNat 8 ∧ !t.dmaRuns n then
      (((t.set (F.DMA_C_STAT.STATE n) 1).set (F.DMA_C_STAT.CODE n) 0).set64 (A.DMA_C_FADDR n) 0).dmaBegin n
        (t.get64 (A.DMA_C_DESC n)) 0 fetchOk
    else t))

/-- `k` beats of the descriptor's data have landed, one after the other (R213). -/
def State.dmaCopy (s : State) (d : Desc) (k : Nat) : State :=
  (List.range k).foldl (fun t i => t.storeBytes d.dstSp (d.dataDst + 64 * i) (t.loadBytes d.srcSp (d.src + 64 * i) 64)) s

/-- Channel `c` ends at a beat boundary before its descriptor is through (R219): what has landed by then is free. -/
def State.dmaHalt (s : State) (c st code : Nat) : State :=
  match (s.dmaAt c).desc with
  | some d =>
    let p := s.fresh
    let k := min (Config.beats p.1) (d.len / 64)
    let s := p.2.dmaCopy d k
    if st = 3 then s.dmaFault c code (d.len - 64 * k) (d.src + 64 * k)
    else
      let s := ((s.set (F.DMA_C_STAT.STATE c) st).set (F.DMA_C_STAT.CODE c) code).set (F.DMA_C_RESID.RESID c) (d.len - 64 * k)
      (s.set64 (A.DMA_C_FADDR c) (d.src + 64 * k)).setDma c { s.dmaAt c with desc := none }
  | none => s

/-- DMA_STOP (R219): STATE 4 with code 7. -/
def execDmaStop (pf : Fin 2) (c : Fin 8) (w : Word) (s : State) : Host.Outcome State Fault Refusal :=
  let n := 8 + c.val
  .next (whenAllowed (s.dmaGate pf n w) (fun t =>
    let t := t.set (F.DMA_C_CTL.OWNER n) w.toNat
    if bit w.toNat 9 ∧ t.dmaRuns n then t.dmaHalt n 4 7 else t))

/-- Channels of owner 5 stop as the privileged session closes (R219). -/
def State.dmaSession (s : State) : State :=
  (List.range 8).foldl (fun t i =>
    if t.dmaRuns (8 + i) && t.get (F.DMA_C_CTL.OWNER (8 + i)) == 5 then t.dmaHalt (8 + i) 3 5 else t) s

/-- A descriptor of host channel `c` is through: data, closed tag beat, count; then the chain goes on or ends. -/
def State.dmaDone (s : State) (c : Nat) (d : Desc) (fetchOk : Bool) : State :=
  let s := s.dmaCopy d (d.len / 64)
  let s := if d.tag then s.storeBytes d.dstSp d.dst (tagBeat d.tagseq 2 d.len (crc32c (s.loadBytes d.dstSp d.dataDst d.len))) else s
  let i := (s.dmaAt c).idx
  let s := ((s.bump (F.DMA_C_STAT.DONE_CNT c)).set (F.DMA_C_RESID.RESID c) 0).setDma c ⟨none, i, []⟩
  let s := if d.irq || !d.chain then s.raise (bitField A.DMA_EVT c) else s
  if d.chain then s.dmaBegin c (unsigned 64 (d.at_ + 32 * d.next)) (i + 1) fetchOk
  else s.set (F.DMA_C_STAT.STATE c) 2

/-- An engine channel comes to descriptor `d` of its chain in the descriptor area: the head shows in DESC (R213, R225). -/
def State.engineAt (s : State) (c : Nat) (d : Desc) : State :=
  if s.get (F.DMA_C_CUR.INDEX c) = 0 then s.set64 (A.DMA_C_DESC c) d.at_ else s

/-- A descriptor of an engine channel is through; with the last of the chain the transfer has ended (R200, R233). What channels 0, 1, 3 and 5
carry ends with the commands of their functions. -/
def State.engineDone (s : State) (c : Nat) (d : Desc) : State :=
  let t := ((s.engineAt c d).bump (F.DMA_C_STAT.DONE_CNT c)).set (F.DMA_C_RESID.RESID c) 0
  let t := if d.irq then t.raise (bitField A.DMA_EVT c) else t
  if d.chain then t.bump (F.DMA_C_CUR.INDEX c)
  else
    let t := t.set (F.DMA_C_CUR.INDEX c) 0
    if c = 2 then (t.dmaShow 2 2).chgLoading
    else if c = 4 then t.panDone.dmaShow 4 2
    else if 5 < c then t.dmaShow c 2
    else t

/-- DMA_DESCRIPTOR_DONE (R213, R217); `fin` names the descriptor of an engine channel. -/
def execDmaDescriptorDone (c : Fin 16) (fin : DescEnd) (s : State) : Host.Outcome State Fault Refusal :=
  if !s.dmaRuns c then .next s
  else match (s.dmaAt c).desc with
    | some d => .next (s.dmaDone c d fin.fetchOk)
    | none => .next (s.engineDone c fin.eng)

/-- What the failure of a transfer on an engine channel leads to (R198, R200, R218, R242, R282, R284). -/
def State.engineFault (s : State) (c code : Nat) : State :=
  if c = 0 then
    if code = 2 ∨ code = 3 then
      let rs := (List.range 8).filter (fun r => (s.recipe r).recno.isSome)
      rs.foldl (fun t r => t.restartSentence r t.six) s.cutOpen.closeCuts
    else s
  else if c = 1 then if s.flag F.LFT_STATUS.EXP_BUSY then (s.exportBreak 5).dmaShow 1 3 else s
  else if c = 2 then if s.olc.phase = 1 ∨ s.olc.phase = 2 then s.chgAbort else s.rplAbort
  else if c = 3 then s.loadFail
  else if c = 4 then s.panFail
  else s

/-- Transfers of engine channel `c` fail with a code because their clock is lost; which beat fails is free, and so are RESID and FADDR. -/
def State.engineBeat (s : State) (c code : Nat) : State :=
  let p := s.fresh
  let v := (Config.freeWord p.1).toNat
  (p.2.engineFault c code).dmaFault c code v (v / 2 ^ 27)

/-- What an uncorrectable source read leads to in DRAM or common SRAM (R218, R223): the error is recorded, and STEM. -/
def State.sourceLost (s : State) (d : Desc) (code addr : Nat) : State :=
  if code = 2 ∧ d.srcSp = spDRAM then (s.ueCount 13 addr).stemCause stemMEM
  else if code = 2 ∧ d.srcSp = spSRAM then (s.ueCount 12 addr).stemCause stemMEM
  else s

/-- A beat of host channel `c` fails; where the first tag beat fails the block is as before. -/
def State.hostBeat (s : State) (c : Nat) (d : Desc) (code beats : Nat) (tag : Bool) : State :=
  let f := d.failAt code beats tag
  let s := if tag && d.tag && beats == 0 then s.storeBytes d.dstSp d.dst (s.dmaAt c).under else s.dmaCopy d f.1
  (s.dmaFault c code (d.len - 64 * f.1) f.2).sourceLost d code f.2

/-- Descriptor `d` of engine channel `c` fails: by a check of R216, by its fetch, or at a beat. -/
def State.engineFail (s : State) (c : Nat) (d : Desc) (code beats : Nat) (tag : Bool) : State :=
  let s := s.engineAt c d
  match s.dmaCheck (s.get (F.DMA_C_CTL.OWNER c)) d with
  | some (why, faddr) => (s.engineFault c why).dmaFault c why d.len faddr
  | none =>
    if code = 6 then
      let p := s.fresh
      (p.2.engineFault c 6).dmaFault c 6 (Config.freeWord p.1).toNat d.at_
    else if [2, 3, 4, 8].contains code then
      let f := d.failAt code beats tag
      ((s.engineFault c code).dmaFault c code (d.len - 64 * f.1) f.2).sourceLost d code f.2
    else s

/-- DMA_BEAT_FAULT (R216 to R218): a beat of channel `c` fails with a code of 2, 3, 4 or 8 after `beats` data beats; `bad` names the descriptor of
an engine channel, whose checks and whose fetch (code 6) can fail too. -/
def execDmaBeatFault (c : Fin 16) (code : Fin 16) (beats : Nat) (bad : BadBeat) (s : State) : Host.Outcome State Fault Refusal :=
  if !s.dmaRuns c then .next s
  else match (s.dmaAt c).desc with
    | some d => .next (if [2, 3, 4, 8].contains code.val then s.hostBeat c d code beats bad.tag else s)
    | none => .next (s.engineFail c bad.eng code beats bad.tag)

end Sys2Proof.Machine
end

