-- ==== Sys2Proof/Machine/Rpl.lean ====
section
/-!
DEFINITION. Machine/Rpl.lean: replays of Loft records on the spare lane (R248 to R251).
-/
namespace Sys2Proof.Machine
open Sys2Proof

/-! ## Start (R248) -/

/-- The partition image that a START names: the running one, or the verified image of the upload area, which the engine refuses where R206 and
R208 do. -/
def State.rplImage (s : State) (p : Nat) (running : Bool) (img : Option Image) : Option Partition :=
  if running then s.runningPart p
  else match img with
    | some x =>
      match x.body with
      | .partition q =>
        if x.kind = 4 ∧ s.verifyResult x = 0 ∧ !s.flag F.SEC_STATUS.TAMPER ∧ q.part = p ∧ partOk q then some q else none
      | _ => none
    | none => none

/-- Does the record hold what task `t` of the image declares: the fast channels of its kind-1 contexts, the grid values of its kind-2
ones, the region as the record lays it out, and shelves of its own partition only (R258)? -/
def State.rplCovers (s : State) (d : LftRec) (img : Partition) (t : Task) : Bool :=
  t.declCtx.all (fun n =>
    if s.kind n = 1 then (List.range (s.nch n)).all (fun c => d.fasts.contains (8 * n + c))
    else if s.kind n = 2 then
      (List.range (s.nch n)).all (fun c => d.caps.any (fun e => match e with
        | .grid _ _ vals => vals.any (fun v => v.1 == chKey n c)
        | _ => false))
    else true) &&
  d.decls.any (fun k => k.1 == t.tid && k.2.1 == t.declItems && k.2.2 == t.region) &&
  t.declShelves.all (fun h => img.shelves.any (fun y => y.id == h))

/-- The refusal code of a START, 0 for none (R248). -/
def State.rplReason (s : State) (p : Nat) (running : Bool) (img : Option Image) : Nat :=
  match s.rplImage p running img with
  | none => if p = 3 then 0x11 else 1
  | some q =>
    if s.spareLane.isNone then 3
    else if s.olc.phase ≠ 0 ∨ s.olc.rpl.isSome then 4
    else match s.rec? (s.rd A.OLC_RPL_REC).toNat with
      | none => 0x10
      | some d =>
        if d.state = 1 then 0x10
        else if !d.replay ∨ d.part ≠ p then 0x11
        else if q.settings ≠ d.fpDigest then 0x12
        else if !q.tasks.all (s.rplCovers d q) then 0x13
        else 0

/-- A replay of record `d` by image `q` starts on the spare `ln`, which channel 2 has loaded with it. -/
def State.rplBegin (s : State) (q : Partition) (d : LftRec) (ln : Nat) : State :=
  let s := ((s.loadCode ln q).setLane ln { LaneSt.reset with img := some q }).clearDiffs
  let chg := (d.events.filter (fun e => e.typ == 1)).reverse
  let s := { s with olc := { s.olc with
    lane := ln, out := [], front := [], back := [], gates := 0, rt := [],
    rpl := some ⟨q, d, d.caps.reverse, chg, [], [], 0, false, [], [], 0, []⟩ } }
  let s := (((s.set F.OLC_RPL_CNT.COMPARED 0).set F.OLC_RPL_CNT.NOCOMP 0).set64 A.OLC_RPL_FIRST (2 ^ 64 - 1)).set64 A.OLC_RPL_POS 0
  let s := (((s.set (F.DMA_C_CTL.OWNER 2) q.part).dmaShow 2 1).dmaShow 2 2).set (F.DMA_C_CTL.OWNER 2) 7
  ((s.set F.OLC_RPL_REASON.REASON 0).set F.OLC_STATUS.RPL_STATE 2).spareAct 2

/-- RPL_START (R248): privileged, under CHANGE. -/
def execRplStart (pf : Fin 2) (w : Word) (img : Option Image) (s : State) : Host.Outcome State Fault Refusal :=
  .next (whenAllowed (s.gate pf A.OLC_RPL_CTL w needsChange false) (fun t =>
    let t := ((t.set F.OLC_RPL_CTL.PART w.toNat).set F.OLC_RPL_CTL.USE_RUNNING (w.toNat / 4)).set F.OLC_RPL_CTL.STOP_FIRST (w.toNat / 8)
    if bit w.toNat 8 then
      let p := fieldOf w 0 2
      let why := t.rplReason p (bit w.toNat 2) img
      match why, t.rplImage p (bit w.toNat 2) img, t.rec? (t.rd A.OLC_RPL_REC).toNat, t.spareLane with
      | 0, some q, some d, some ln => t.rplBegin q d ln
      | _, _, _, _ => (if t.olc.rpl.isSome then t else t.set F.OLC_STATUS.RPL_STATE 4).set F.OLC_RPL_REASON.REASON why
    else t))

/-- RPL_CANCEL (R251). -/
def execRplCancel (pf : Fin 2) (w : Word) (s : State) : Host.Outcome State Fault Refusal :=
  .next (whenAllowed (s.gate pf A.OLC_RPL_CTL w needsChange false) (fun t => if bit w.toNat 9 then t.rplAbort else t))

/-! ## Input images from the record (R249) -/

/-- A recorded sample. -/
def recSamp (k : Nat) (v : Int) (q : Nat) : Samp := ⟨k, v, q, bit q 0, bit q 6, bit q 7, 0⟩

/-- Recorded samples (SIX, code, quality), oldest first, in a ring by SIX: a MISSING one takes the value held before it, first `h` (R100). -/
def recRing (h : Int) (l : List (Nat × Int × Nat)) : KV (Option Samp) :=
  (l.foldl (fun a e =>
    let v := if bit e.2.2 2 then a.1 else e.2.1
    (v, kvPut (fun _ => none) a.2 (e.1 % ringDepth) (some (recSamp e.1 v e.2.2)))) (h, [])).2

/-- The grid values of a channel that record `d` holds, oldest first. -/
def LftRec.gridSamps (d : LftRec) (key : Nat) : List (Nat × Int × Nat) :=
  d.caps.reverse.filterMap (fun c => match c with
    | .grid g _ vals => (vals.find? (fun v => v.1 == key)).map (fun v => (g, v.2))
    | _ => none)

/-- The fabric as the record holds it at freeze SIX `f`: fast samples with their qualities, and grid values, those of the ring's depth up to `f`;
nothing is missing beyond them. -/
def State.recFab (s : State) (d : LftRec) (f : Nat) : FabSt :=
  let near (k : Nat) : Bool := decide (k ≤ f) && decide (f < k + ringDepth)
  let lines := (d.fast.filter (fun l => near l.1)).reverse
  let fast := d.fasts.zipIdx.foldl (fun m e =>
    kvPut (fun _ => []) m (fcKey e.1)
      (recRing 0 (lines.map (fun l => (l.1, l.2.getD e.2 0, changeAt d.quals e.2 l.1 (d.qual0.getD e.2 0)))))) []
  let keys := (List.range 256).filter (fun n => s.kind n == 2)
  let samp := ((keys.map (fun n => (List.range (s.nch n)).map (chKey n))).flatten).foldl (fun m key =>
    kvPut (fun _ => []) m key (recRing 0 ((d.gridSamps key).filter (fun e => near e.1)))) fast
  ⟨s.fab.ctx.map (fun e => (e.1, { e.2 with runFrom := 0, missFrom := none, gaps := [] })), samp, [], []⟩

/-- The frozen image of task `t` at release `k`: fabric items from the record, the recorded region, the replay's shelves. -/
def State.rplImageAt (s : State) (d : LftRec) (t : Task) (k : Nat) (region : KV Word) (size : Nat) : InImage :=
  let f := k - s.align
  let u := { s with fab := s.recFab d f }
  let u := t.declCtx.foldl (fun v n =>
    (List.range (v.nch n)).foldl (fun y c =>
      let z := (y.derive n c (derivTag f)).1
      y.fileDeriv n c { z with done := 0 }) v) u
  let ctxs := t.declCtx.map (fun n => (n, u.ctxItems n f k))
  let items := (ctxs.map (fun e => (e.2.1.map (fun ch => ch.2.map (fun i => (itemKey e.1 ch.1 i.1, i.2)))).flatten)).flatten
  ⟨wordMap items, region, size, s.olc.front, ctxs.any (fun e => e.2.2 != 0)⟩

/-! ## Running and comparing (R249, R250) -/

def State.setRpl (s : State) (r : Replay) : State := { s with olc := { s.olc with rpl := some r } }

/-- Places that a list of effects stores, taken over into an output image, shelves and gates. -/
def keepEffects (es : List EffItem) (out : KV Word) (back : KV (KV Word)) (gates : Nat) : KV Word × KV (KV Word) × Nat :=
  es.foldl (fun m e =>
    if e.kind = 0 then (kvPut (fun _ => 0) m.1 e.off e.val, m.2)
    else if e.kind = 1 then (m.1, kvMod (fun _ => []) m.2.1 e.index (fun h => kvPut (fun _ => 0) h e.off e.val), m.2.2)
    else if e.kind = 2 then
      let g := m.2.2
      (m.1, m.2.1, g - b2n (bit g e.index) * 2 ^ e.index + b2n (e.val != 0) * 2 ^ e.index)
    else m) (out, back, gates)

/-- The last released value of a place. -/
def lastOf (out : KV Word) (back : KV (KV Word)) (gates : Nat) (e : EffItem) : Word :=
  if e.kind = 0 then kvGet (fun _ => 0) out e.off
  else if e.kind = 1 then kvGet (fun _ => 0) (kvGet (fun _ => []) back e.index) e.off
  else BitVec.ofNat 32 (b2n (bit gates e.index))

/-- Shelves of the replayed partition are exchanged at every multiple of their period after `exPos` up to `k` (R189). -/
def State.rplExchange (s : State) (r : Replay) (k : Nat) : State :=
  let front := r.img.shelves.foldl (fun m h =>
    let q := max 1 (shelfPeriod r.img.tasks h)
    if r.exPos / q < k / q then kvPut (fun _ => []) m h.id (kvGet (fun _ => []) s.olc.back h.id) else m) s.olc.front
  { s with olc := { s.olc with front := front, rpl := some { r with exPos := k } } }

/-- The noun states of the record enter the spare's data memory; a noun of the image that the record does not hold by ID and layout
takes its initial value. -/
def State.rplNouns (s : State) (r : Replay) (k : Nat) (body : List (Nat × Nat × List Word)) : State :=
  let s := r.img.nouns.foldl (fun u n =>
    let ws := ((body.find? (fun e => e.1 == n.id && e.2.1 == n.layout)).map (fun e => e.2.2)).getD (initWords r.img n)
    u.placeNoun (spData s.olc.lane) n.base n ws) s
  s.setRpl { r with whole := true, chg := r.chg.filter (fun e => k ≤ e.six), lays := body.map (fun e => (e.1, e.2.1)) }

/-- A recorded value change at its SIX; one that the image cannot take makes the task not comparable. -/
def State.rplChange (s : State) (e : LftEvent) : State :=
  match s.olc.rpl with
  | some r =>
    match r.img.nouns.find? (fun n => n.id == e.noun && r.lays.contains (n.id, n.layout)) with
    | some n => s.storeNat (spData s.olc.lane) (n.base + e.off) 4 e.new.toNat
    | none => s.setRpl { r with tasks := e.tid :: r.tasks.filter (· != e.tid) }
  | none => s

/-- A recorded release of task `t` at `k` runs to completion on the spare (R249). -/
def State.rplRun (s : State) (r : Replay) (t : Task) (k : Nat) (region : KV Word) (size : Nat) : State :=
  let ln := s.olc.lane
  let s := (r.chg.filter (fun e => decide (e.six ≤ k))).foldl State.rplChange s
  let img := s.rplImageAt r.record t k region size
  let c := freshCycle t r.img.part ln 2 k img false
  let s := ((s.putCyc c).setLane ln { s.lane ln with run := none, resv := 0 }).schedule ln
  let s := State.runCycle runFuel ln c.key (400 * (c.period - 2)) s
  let done := match s.cycle c.key with
    | some d => (d.status == 3, if d.status = 3 then d.effects else [])
    | none => (false, [])
  let s := ((s.setCycle c.key none).setLane ln { s.lane ln with run := none, resv := 0 }).set64 A.OLC_RPL_POS k
  match s.olc.rpl with
  | some q => s.setRpl { q with chg := q.chg.filter (fun e => decide (k < e.six)), runs := kvPut (fun _ => none) q.runs t.tid (some done) }
  | none => s

/-- Program values that the record holds for boundary `k` against the replay's output image (KIND 5). -/
def Replay.slotDiffs (r : Replay) (k t : Nat) (out : KV Word) : List (EffItem × Word × Word) :=
  match r.record.slow.find? (fun l => l.b == k) with
  | some l =>
    (r.record.pvs.zip l.slots).filterMap (fun e =>
      match r.img.slots.find? (fun x => x.1 == e.1) with
      | some x =>
        let v := kvGet (fun _ => 0) out x.2
        if taskOwns r.img t x.2 && v != e.2 then some (⟨5, e.1, 0, e.2⟩, e.2, v) else none
      | none => none)
  | none => []

/-- A recorded output release against the replay's (R250). -/
def State.rplCompare (s : State) (r : Replay) (k t : Nat) (clean : Bool) (items : List EffItem) : State :=
  let run := kvGet (fun _ => none) r.runs t
  let ok := r.whole && clean && run.any Prod.fst && !r.tasks.contains t
  let mine := match run with
    | some (true, es) => if r.whole then es else items
    | _ => items
  let ref := keepEffects items r.refOut r.refBack r.refGates
  let own := keepEffects mine s.olc.out s.olc.back s.olc.gates
  let ds := if ok then effectDiffs items mine (lastOf r.refOut r.refBack r.refGates) (lastOf s.olc.out s.olc.back s.olc.gates) ++
      r.slotDiffs k t own.1 else []
  let first := !ds.isEmpty && s.get64 A.OLC_RPL_FIRST == 2 ^ 64 - 1
  let s := s.setRpl { r with
    refOut := ref.1, refBack := ref.2.1, refGates := ref.2.2, whole := r.whole && clean, runs := kvPut (fun _ => none) r.runs t none,
    todo := if first && s.flag F.OLC_RPL_CTL.STOP_FIRST then [] else r.todo }
  let s := { s with olc := { s.olc with out := own.1, back := own.2.1, gates := own.2.2 } }
  let s := if ok then s.bump F.OLC_RPL_CNT.COMPARED else s.bump F.OLC_RPL_CNT.NOCOMP
  let s := if first then (s.set64 A.OLC_RPL_FIRST k).raise F.OLC_EVT.REPLAY_DIFF else s
  ds.foldl (fun u e => u.logDiff 1 t k e.1 e.2.1 e.2.2) s

/-- The next capture of the record is taken. -/
def State.rplTake (s : State) (r : Replay) (c : RplCap) : State :=
  match c with
  | .nouns k p body => if p = r.img.part ∧ !r.whole then s.rplNouns r k body else s
  | .image k t p region size =>
    match r.img.tasks.find? (fun x => x.tid == t) with
    | some x =>
      if p = r.img.part ∧ r.whole then
        let s := s.rplExchange r k
        match s.olc.rpl with
        | some q => s.rplRun q x k region size
        | none => s
      else s
    | none => s
  | .grid _ _ _ => s
  | .effects k t p clean items =>
    if p = r.img.part then
      let s := s.rplExchange r (k - 1)
      match s.olc.rpl with
      | some q => s.rplCompare q k t clean items
      | none => s
    else s

/-- Is a capture an image of a release? -/
def isImage : RplCap → Bool
  | .image _ _ _ _ _ => true
  | _ => false

/-- Captures are taken up to and with the next recorded release, `fuel` at most; `ran` says that one has run. -/
def rplGo : Nat → Bool → State → State
  | 0, _, s => s
  | f + 1, ran, s =>
    match s.olc.rpl with
    | some r =>
      match r.todo with
      | c :: cs =>
        if ran && isImage c then s
        else rplGo f (ran || isImage c) ((s.setRpl { r with todo := cs }).rplTake { r with todo := cs } c)
      | [] => s
    | none => s

/-- REPLAY_CYCLE (R249, R250). -/
def execReplayCycle (s : State) : Host.Outcome State Fault Refusal :=
  match s.olc.rpl with
  | some r => .next (rplGo r.todo.length false s)
  | none => .next s

/-- REPLAY_DONE (R250): the record's end, or with STOP_FIRST the first difference, is reached. -/
def execReplayDone (s : State) : Host.Outcome State Fault Refusal :=
  match s.olc.rpl with
  | some r =>
    if r.todo = [] then
      let s := ({ s with olc := { s.olc with rpl := none } } : State).spareIdle
      .next ((s.set F.OLC_STATUS.RPL_STATE 3).raise F.OLC_EVT.REPLAY_DONE)
    else .next s
  | none => .next s

end Sys2Proof.Machine
end

