-- ==== Sys2Proof/Machine/Frc.lean ====
section
/-!
DEFINITION. Machine/Frc.lean: the commands on the force table (R243 to R246).
-/
namespace Sys2Proof.Machine
open Sys2Proof

/-- A symbol of the running program image, with its partition. -/
def State.symbol (s : State) (id : Nat) : Option (Partition × Symbol) :=
  match s.tsk.prog with
  | some g => if s.tsk.up then g.parts.findSome? (fun p => (p.symbols.find? (fun y => y.id == id)).map (fun y => (p, y))) else none
  | none => none

/-- Is the entry active or pending? -/
def State.forceBusy (s : State) (n : Nat) : Bool := s.flag (F.FRC_E_CTL.ACTIVE n) || s.flag (F.FRC_E_CTL.PENDING n)

/-- A write to SYM or TYPE of a busy entry is ignored (R244). -/
def State.forceIgnored (s : State) (pf n a : Nat) : State := (s.deny pf 5 a).set (F.FRC_E_CTL.REASON n) 4

/-- TYPE as a write to FRC_En_CTL sets it. -/
def State.forceType (s : State) (pf n : Nat) (w : Word) : State :=
  let typ := fieldOf w 0 4
  if s.forceBusy n then (if typ = s.get (F.FRC_E_CTL.TYPE n) then s else s.forceIgnored pf n (A.FRC_E_CTL n))
  else s.set (F.FRC_E_CTL.TYPE n) typ

/-- The REASON for which an entry with this type and symbol cannot be armed, 0 for none (R244). -/
def armReason (typ : Nat) : Option (Partition × Symbol) → Nat
  | none => 1
  | some (_, y) => if 5 < typ ∨ y.typ ≠ typ then 2 else if forceKind y.target = 4 ∨ !y.forceable then 3 else 0

/-- The ARM kick on an idle entry. -/
def State.forceArm (s : State) (n : Nat) : State :=
  let y := s.symbol (s.get64 (A.FRC_E_SYM n))
  let r := armReason (s.get (F.FRC_E_CTL.TYPE n)) y
  match r, y with
  | 0, some (p, y) =>
    let s := s.setFrc n { FrcSt.reset with bound := some y, armSix := s.six }
    let s := ((s.set (F.FRC_E_CTL.PENDING n) 1).set (F.FRC_E_CTL.REASON n) 0).set (F.FRC_E_CTL.PART n) p.part
    s.set (F.FRC_E_CTL.KIND n) (forceKind y.target)
  | r, _ => (s.set (F.FRC_E_CTL.REASON n) r).raise F.FRC_EVT.REFUSED

/-- FORCE_ARM (R244). -/
def execForceArm (pf : Fin 2) (n : Fin 256) (w : Word) (s : State) : Host.Outcome State Fault Refusal :=
  .next (whenAllowed (s.gate pf (A.FRC_E_CTL n) w needsChange false) (fun t =>
    let busy := t.forceBusy n
    let t := t.forceType pf n w
    if bit w.toNat 8 && !busy then t.forceArm n else t))

/-- FORCE_DISARM (R244). -/
def execForceDisarm (pf : Fin 2) (n : Fin 256) (w : Word) (s : State) : Host.Outcome State Fault Refusal :=
  .next (whenAllowed (s.gate pf (A.FRC_E_CTL n) w needsChange false) (fun t =>
    let busy := t.forceBusy n
    let t := t.forceType pf n w
    if bit w.toNat 9 && busy && (t.frcAt n).endSix.isNone then t.setFrc n { t.frcAt n with endSix := some t.six } else t))

/-- VAL of an entry takes a value; an active force takes it at its next SIX. -/
def State.forceVal (s : State) (n v : Nat) : State :=
  let t := s.set64 (A.FRC_E_VAL n) v
  if t.flag (F.FRC_E_CTL.ACTIVE n) then t.setFrc n { t.frcAt n with newVal := (v, t.six) :: (t.frcAt n).newVal } else t

/-- FORCE_VALUE_WRITE (R244): the high word of VAL commits the value; an active force takes it at its next SIX. -/
def execForceValueWrite (pf : Fin 2) (n : Fin 256) (hi : Word) (s : State) : Host.Outcome State Fault Refusal :=
  .next (whenAllowed (s.gate pf (A.FRC_E_VAL n + 4) hi needsChange false) (fun t =>
    let r := t.commit64 pf (A.FRC_E_VAL n) hi
    r.2.forceVal n r.1))

/-- Is this SIX one of the entry's kind (R244): the release, or the output release, of the task of its target? -/
def State.forceSix (s : State) (n : Nat) : Bool :=
  match (s.frcAt n).bound with
  | some y =>
    (match s.forceTask y.target with
     | some (true, t) => (s.task t).any s.releaseDue
     | some (false, t) => s.outputDue t
     | none => false)
  | none => false

/-- FORCE_ACTIVATE (R244). -/
def execForceActivate (n : Fin 256) (s : State) : Host.Outcome State Fault Refusal :=
  if s.forceSix n && s.flag (F.FRC_E_CTL.PENDING n) && (s.frcAt n).endSix.all (fun d => s.six < d + forceDelay) then .next (s.forceTurn n)
  else .next s

/-- FORCE_END (R244, R246). -/
def execForceEnd (n : Fin 256) (s : State) : Host.Outcome State Fault Refusal :=
  if s.forceSix n && (s.frcAt n).endSix.any (fun d => d + forceDelay ≤ s.six) then .next (s.forceTurn n) else .next s

/-- FRC_CLEAR_ALL (R246): every entry ends and is cleared at its next SIX, one that DISARM ends already at the SIX of that, and one that holds no
force, which has no such SIX, at once. -/
def execFrcClearAll (pf : Fin 2) (w : Word) (s : State) : Host.Outcome State Fault Refusal :=
  .next (whenAllowed (s.gate pf A.FRC_CLEAR_ALL w needsChange false) (fun t =>
    if bit w.toNat 0 then
      (List.range 256).foldl (fun u n =>
        if u.forceBusy n then u.setFrc n { u.frcAt n with endSix := some ((u.frcAt n).endSix.getD u.six), cleared := true }
        else u.forceBlank n) t
    else t))

end Sys2Proof.Machine
end

