-- ==== Sys2Proof/Machine/HostIf.lean ====
section
/-!
DEFINITION. Machine/HostIf.lean: the host's access to BAR0 (R9 to R15, R373 to R381): writes of registers without a row of their own,
reads with effects, split 64-bit accesses, MSI-X, resets of a function, and the closing of a session (R386).
-/
namespace Sys2Proof.Machine
open Sys2Proof

/-! ## Sessions (R386) -/

/-- The session closes with a cause: channels of owner 5 stop, the privileged view ends. -/
def State.sessionClose (s : State) (cause : Nat) : State :=
  match s.sec.session with
  | none => s
  | some x =>
    let s := s.dmaSession
    let s := { s with sec := { s.sec with session := none } }
    let s := ((s.set F.ENG_SESS.RIGHTS 0).set F.ENG_SESS.CAUSE cause).set F.ENG_STATE.SESSION 0
    (s.raise F.ENG_EVT.SESSION_CLOSED).log 0x81 1
      (leBytes 1 cause ++ leBytes 1 x.rights ++ leBytes 1 x.slot ++ leBytes 1 0 ++ x.operator)

/-! ## Writes (R10 to R14, R376, R377, R381) -/

/-- The event register whose enables stand at `a`, if `a` is an enable register. -/
def evtOf (a : Nat) : Option Nat :=
  if [A.ENG_IEN, A.PWR_IEN, A.CLK_IEN, A.SEC_IEN, A.SFB_IEN, A.INJ_IEN, A.TSK_IEN, A.LNE_IEN, A.DMA_IEN, A.MPU_IEN, A.OLC_IEN, A.FRC_IEN,
      A.LFT_IEN, A.CEL_IEN, A.TIM_IEN, A.ETH_IEN, A.UCH_IEN].contains a || isInst (A.HJL_P_IEN 0) 64 44 a then some (a - 4)
  else if a = A.BIN_CHAT_IEN ∨ a = A.BIN_PERS_IEN then some (a - 8)
  else none

/-- Enables written 1 over an event that stands send its vector (R381). -/
def State.ienSend (s : State) (evt : Nat) (w : Word) : State :=
  (List.range 32).foldl (fun t i =>
    if bit w.toNat i && bit (t.rd evt).toNat i then (t.msix 0 (vectorOf evt i)).msix 1 (vectorOf evt i) else t) s

/-- The pairs of words that commit as one 64-bit value: the 64-bit registers, and the noun ID of a value-change entry (R226). -/
def wideLow (a : Nat) : Option Nat :=
  if isInst (A.OLC_VC_E_ID_LO 0) 16 64 a then some a
  else if isInst (A.OLC_VC_E_ID_HI 0) 16 64 a then some (a - 4)
  else match regAt a with
    | some (d, h) => if d.is64 then some (a - 4 * h) else none
    | none => none

/-- Does a table say that this word is ignored at this register (R14)? -/
def valueIgnored (a : Nat) (w : Word) : Bool :=
  ((a == A.HJL_READMIT || a == A.HJL_REBIND) && decide (43 < fieldOf w 0 6)) ||
  (a == A.MPU_HWIN && decide (14 < fieldOf w 0 5)) ||
  ((a == A.ETH_HRX_CTL || a == A.ETH_HTX_CTL) && bit w.toNat 8 && (decide (fieldOf w 0 4 < 4) || decide (12 < fieldOf w 0 4)))

/-- Is the register at `a` held by something in progress, so that a write is ignored and counted with cause 5? -/
def State.writeBusy (s : State) (a : Nat) : Bool :=
  (s.olc.vc.isSome && (a == A.OLC_VC_CTL || (A.OLC_VC_E_ID_LO 0 ≤ a && a ≤ A.OLC_VC_E_VAL 63))) ||
  (s.flag F.SEC_CMD.BUSY && A.SEC_BUF 0 ≤ a && a ≤ A.SEC_BUF 1023) ||
  (isInst (A.UCH_G_HBUF 0 0) 4 512 a && (s.get (F.UCH_G_HCTL.STATUS ((a - A.UCH_G_HBUF 0 0) / 512)) == 1)) ||
  (A.TIM_TE_CTL 0 ≤ a && a < A.TIM_TE_CTL 16 && (a - A.TIM_TE_CTL 0) % 64 != 0 && (a - A.TIM_TE_CTL 0) % 64 ≤ 0x18 &&
    s.flag (F.TIM_TE_CTL.ARMED ((a - A.TIM_TE_CTL 0) / 64))) ||
  ((a == A.ETH_HRX_BASE || a == A.ETH_HRX_BASE + 4) && s.flag F.ETH_HRX_CTL.EN) ||
  ((a == A.ETH_HTX_BASE || a == A.ETH_HTX_BASE + 4) && s.flag F.ETH_HTX_CTL.EN)

/-- Are the set fields at `a` look fields here: the engine's own DMA channels (R213)? -/
def lookHere (a : Nat) : Bool := A.DMA_C_CTL 0 ≤ a && a < A.DMA_C_CTL 8

/-- The access check of a write through `pf` at `a`, by the register's class (R376). -/
def State.hostGate (s : State) (pf a : Nat) (w : Word) : Bool × State :=
  if 0x800000 ≤ a then (false, (s.touch pf).deny pf (if s.privView pf then 6 else 1) a)
  else if A.DMA_C_CTL 8 ≤ a ∧ a < A.DMA_C_CTL 16 ∧ (a - A.DMA_C_CTL 8) % 64 = 0 then s.dmaGate pf (8 + (a - A.DMA_C_CTL 8) / 64) w
  else if s.writeBusy a then
    let g := s.gate pf a 0 (writeRight a) false
    (false, if g.1 then g.2.deny pf 5 a else g.2)
  else s.gate pf a w (writeRight a) (valueIgnored a w)

/-- What a write that acts does at a 32-bit register: its set and knock fields, and what follows from them. -/
def State.hostSet (s : State) (pf a : Nat) (w : Word) : State :=
  if lookHere a then s
  else if isInst (A.FRC_E_CTL 0) 32 256 a then s.forceType pf ((a - A.FRC_E_CTL 0) / 32) w
  else if isInst (A.TIM_TE_CTL 0) 64 16 a then s.teWrite pf ((a - A.TIM_TE_CTL 0) / 64) w
  else if perView a then
    let b := a + fnShift (s.view pf)
    match regAt a with
    | some (d, h) => s.wr b (d.written h (s.rd b) w)
    | none => s
  else
    let t := s.wrFields a w
    let t := if isInst (A.TIM_TPO 0) 4 4 a then t.tpoLevels else t
    match evtOf a with
    | some e => t.ienSend e w
    | none => t

/-- A low word fills the function's write shadow (R379). -/
def State.fillLow (s : State) (pf a : Nat) (w : Word) : State := s.setFn pf { s.fn pf with wrTag := some a, wrLow := w }

/-- A high word commits the 64-bit value at `a` (R379). -/
def State.commitHigh (s : State) (pf a : Nat) (hi : Word) : State :=
  if a = A.CEL_CURSOR then
    let view := s.view pf
    let b := a + fnShift view
    let low := if (s.fn pf).wrTag = some a then (s.fn pf).wrLow else s.rd b
    let t := (s.commit64 pf a hi).2
    let n := low.toNat + 2 ^ 32 * hi.toNat
    (t.set64 b n).celShow view n false
  else
    let r := s.commit64 pf a hi
    if isInst (A.FRC_E_SYM 0) 32 256 a && s.forceBusy ((a - A.FRC_E_SYM 0) / 32) then r.2.forceIgnored pf ((a - A.FRC_E_SYM 0) / 32) a
    else if isInst (A.FRC_E_VAL 0) 32 256 a then r.2.forceVal ((a - A.FRC_E_VAL 0) / 32) r.1
    else if lookHere (a - 4) then r.2
    else
      let d := match regAt a with
        | some (d, _) => if d.is64 then d.set else 2 ^ 64 - 1
        | none => 0
      r.2.set64 a ((r.2.get64 a &&& (2 ^ 64 - 1 - d)) ||| (r.1 &&& d))

/-- A knock never loses the event of the same write (R11): a write of ENG_EVT that is itself counted leaves DENY set. -/
def State.keepDeny (s : State) (a : Nat) (w : Word) : State :=
  if a = A.ENG_EVT ∧ setsReserved a w then s.set F.ENG_EVT.DENY 1 else s

/-- A write of one word through `pf` (R11, R373, R379): to a 64-bit register it is a low or a high word. -/
def State.hostWrite (s : State) (pf a : Nat) (w : Word) : State :=
  whenAllowed (s.hostGate pf a w) (fun t =>
    match wideLow a with
    | some b => if a = b then t.fillLow pf b w else t.commitHigh pf b w
    | none => (t.hostSet pf a w).keepDeny a w)

/-- REGISTER_WRITE (R10 to R14, R373, R375 to R377): a write with partial byte enables is ignored and counted with cause 6. -/
def execRegisterWrite (pf : Fin 2) (off : BitVec 24) (w : Word) (full : Bool) (s : State) : Host.Outcome State Fault Refusal :=
  let a := off.toNat / 4 * 4
  if full then .next (s.hostWrite pf a w) else .next ((s.touch pf).deny pf 6 a)

/-- WRITE64_LOW (R379): the low word of a 64-bit register. -/
def execWrite64Low (pf : Fin 2) (off : BitVec 24) (w : Word) (s : State) : Host.Outcome State Fault Refusal :=
  let a := off.toNat
  if wideLow a = some a then .next (s.hostWrite pf a w) else .next s

/-- WRITE64_HIGH (R379): the high word of a 64-bit register. -/
def execWrite64High (pf : Fin 2) (off : BitVec 24) (w : Word) (s : State) : Host.Outcome State Fault Refusal :=
  let a := off.toNat
  if 4 ≤ a ∧ wideLow a = some (a - 4) then .next (s.hostWrite pf a w) else .next s

/-! ## Reads (R10, R373, R378) -/

/-- The words of the latch group of the 64-bit register or member at `a`: the leader's low word first. -/
def latchGroup (a : Nat) : Option (List Nat) :=
  if [A.TIM_SIX, A.TIM_SIX + 4, A.TIM_TOD_SEC, A.TIM_TOD_SEC + 4, A.TIM_TOD_NS].contains a then
    some [A.TIM_SIX, A.TIM_SIX + 4, A.TIM_TOD_SEC, A.TIM_TOD_SEC + 4, A.TIM_TOD_NS]
  else
    let n := (a - A.UCH_C_SUM 0) / 64
    let g := [A.UCH_C_SUM n, A.UCH_C_SUM n + 4, A.UCH_C_MIN n, A.UCH_C_MAX n, A.UCH_C_COUNT n, A.UCH_C_TAG n, A.UCH_C_TAG n + 4]
    if A.UCH_C_SUM 0 ≤ a ∧ n < 16 ∧ g.contains a then some g
    else match regAt a with
      | some (d, h) => if d.is64 then some [a - 4 * h, a - 4 * h + 4] else none
      | none => none

/-- Is `a` the low (0) or the high (1) word of a 64-bit register? -/
def half64 (a : Nat) : Option Nat :=
  match regAt a with
  | some (d, h) => if d.is64 then some h else none
  | none => none

/-- The read of R378 through `pf`: the word returned, whether it came from the shadow, and the state. -/
def State.hostRead (s : State) (pf a : Nat) : Word × Bool × State :=
  let f := s.fn pf
  match latchGroup a with
  | none => (s.readWord pf a, false, s)
  | some g =>
    let lead := g.headD a
    if f.rdTag = some lead ∧ a ≠ lead then ((f.rdShadow.lookup a).getD 0, true, s)
    else if half64 a = some 0 then
      let snap := g.map (fun b => (b, s.readWord pf b))
      (s.readWord pf a, false, s.setFn pf { f with rdTag := some lead, rdShadow := snap })
    else if half64 a = some 1 then (s.readWord pf a, false, s.raise F.ENG_EVT.SPLIT64)
    else (s.readWord pf a, false, s)

/-- A word goes to the host. -/
def State.answer (s : State) (pf a : Nat) (w : Word) : State := s.emit (.readData pf a w)

/-- The take fields of the register at `a` as `pf` meets it are cleared; where the view shows nothing of it nothing is taken. -/
def State.takeFields (s : State) (pf a : Nat) : State :=
  match regAt a with
  | some (d, h) =>
    if d.priv && !s.privView pf then s
    else
      let b := bankOf pf (s.view pf) a
      s.wr b (s.rd b &&& ~~~(BitVec.ofNat 32 (d.take / 2 ^ (32 * h))))
  | none => s

/-- TAKE_READ (R10, R373): the value goes to the host, and take fields are cleared. -/
def execTakeRead (pf : Fin 2) (off : BitVec 24) (s : State) : Host.Outcome State Fault Refusal :=
  let a := off.toNat / 4 * 4
  let r := (s.touch pf).hostRead pf a
  .next ((if r.2.1 then r.2.2 else r.2.2.takeFields pf a).answer pf a r.1)

/-- READ64_LOW (R378). -/
def execRead64Low (pf : Fin 2) (off : BitVec 24) (s : State) : Host.Outcome State Fault Refusal :=
  if half64 off.toNat = some 0 then
    let r := (s.touch pf).hostRead pf off.toNat
    .next (r.2.2.answer pf off.toNat r.1)
  else .next s

/-- READ64_HIGH (R378): the high word of a 64-bit register, or another word of the tagged group. -/
def execRead64High (pf : Fin 2) (off : BitVec 24) (s : State) : Host.Outcome State Fault Refusal :=
  if (latchGroup off.toNat).isSome then
    let r := (s.touch pf).hostRead pf off.toNat
    .next (r.2.2.answer pf off.toNat r.1)
  else .next s

/-! ## MSI-X and resets of a function (R374, R381) -/

/-- MSIX_UNMASK (R381): the function's enable and the mask of an entry are written; a pending entry that is unmasked sends once. -/
def execMsixUnmask (pf : Fin 2) (v : Fin 32) (enable masked : Bool) (s : State) : Host.Outcome State Fault Refusal :=
  let f := s.fn pf
  let e := kvGet (fun _ => MsixVec.reset) f.vecs v
  let send := enable && !masked && e.pending
  let e := { e with masked := masked, pending := e.pending && !send, lastSix := if send then some s.six else e.lastSix }
  let t := s.setFn pf { f with msixEn := enable, vecs := kvPut (fun _ => MsixVec.reset) f.vecs v e }
  .next (if send then t.emit (.msix pf v) else t)

/-- Channels of a host owner stop at the next beat with code 7. -/
def State.dmaOwnerStop (s : State) (owner : Nat) : State :=
  (List.range 8).foldl (fun t i =>
    if t.dmaRuns (8 + i) && t.get (F.DMA_C_CTL.OWNER (8 + i)) == owner then t.dmaHalt (8 + i) 4 7 else t) s

/-- The host side of one function is reset (R374): tables, shadows, the cursor of its view, its DMA channels; for PF1 the session. -/
def State.fnReset (s : State) (pf : Nat) : State :=
  let s := (s.setFn pf FnSt.reset).dmaOwnerStop (4 + pf)
  let s := s.set64 (A.CEL_CURSOR + fnShift pf) 0
  if pf = 1 then s.sessionClose 5 else s

/-- HOST_FUNCTION_RESET (R374, R429): nothing of the engine changes beyond the host side of the functions reached. -/
def execHostFunctionReset (pf0 pf1 : Bool) (s : State) : Host.Outcome State Fault Refusal :=
  let s := if pf0 then s.fnReset 0 else s
  .next (if pf1 then s.fnReset 1 else s)

end Sys2Proof.Machine
end

