-- ==== Sys2Proof/Machine/Pwr.lean ====
section
/-!
DEFINITION. Machine/Pwr.lean: operating states (R38, R418 to R423), supply and hold-up (R406 to R409, R444), over-temperature (R410), clock
loss (R404), lane reset (R414), the kicks of PWR_CMD; and the tamper latch (R399), which a clock loss sets. What a cold start and a
warm reset do stands in Machine/Start.lean.
-/
namespace Sys2Proof.Machine
open Sys2Proof

/-! ## The tamper latch (R399) -/

/-- An entry of severity 3 into the Cellar, or into the last-word register when the Cellar does not run (R399, R305). -/
def State.lastResort (s : State) (code : Nat) (d : List Byte) : State :=
  if s.flag F.CEL_STATUS.READY && !s.pwr.celStop then s.log code 3 d
  else
    let q := s.nextSeq
    let x := q.2.celFields ⟨.num code, 3, if s.clk.running then some s.six else none, d, false, false, s.cel.rtcNs, none⟩
    let e := { x with seq := q.1 }
    let b := entryHead e ++ (entryPayload e).take 16
    q.2.setLastWord (b ++ leBytes 4 (crc32c b))

/-- The latch sets with causes (bits of TCAUSE): the session closes, the setting is counted and written. -/
def State.tamperSet (s : State) (causes : Nat) : State :=
  let had := s.flag F.SEC_STATUS.TAMPER
  let s := (s.set F.SEC_STATUS.TCAUSE (s.get F.SEC_STATUS.TCAUSE ||| causes)).set F.SEC_STATUS.TAMPER 1
  let s := (s.set F.ENG_STATE.TAMPER 1).sessionClose 6
  if had then s
  else ((s.bump F.SEC_TAMPER.EVENTS).raise F.SEC_EVT.TAMPER).lastResort 0x88 (leBytes 1 1 ++ leBytes 1 (s.get F.SEC_STATUS.TCAUSE))

/-! ## Moves between the operating states (R38, R39) -/

/-- Codes of the operating states. -/
def opSERVICE : Nat := 0
def opSTEM : Nat := 1
def opHALT : Nat := 2
def opMAINT : Nat := 3

/-- The engine shows an operating state and a phase: both registers, STATE_CHG, the HEALTHY and STEM pins, the GOOSE status
publication. -/
def State.setOp (s : State) (op ph : Nat) : State :=
  let same := s.get F.PWR_STATE.OPSTATE == op && s.get F.PWR_STATE.PHASE == ph
  let s := ((s.set F.PWR_STATE.OPSTATE op).set F.ENG_STATE.OPSTATE op).set F.PWR_STATE.PHASE ph
  let s := (s.set F.ENG_STATE.HEALTHY (b2n (op == opSERVICE))).set F.ENG_STATE.STEM (b2n (op == opSTEM))
  (if same then s else s.raise F.PWR_EVT.STATE_CHG).gooseStatus

/-- The engine shows another phase of the same operating state. -/
def State.setPhase (s : State) (ph : Nat) : State := s.setOp s.opstate ph

/-- RESULT and BUSY of PWR_CMD. -/
def State.pwrResult (s : State) (r : Nat) : State := s.set F.PWR_CMD.RESULT r

/-- BUSY follows the kicks that still act: a MAINT or RESUME that waits for its hyperboundary, a warm reset, a lane reset. -/
def State.pwrBusy (s : State) : State :=
  s.set F.PWR_CMD.BUSY (b2n (s.pwr.maintAt.isSome || s.pwr.resumeAt.isSome || s.pwr.warm.isSome || s.pwr.lane.isSome))

/-- Every group that waits on a command port goes (R78). -/
def State.groupsDrop (s : State) : State :=
  (List.range 44).foldl (fun t p => if (t.port p).group.isSome then t.setPort p { t.port p with group := none } else t) s

/-- The program stops: open cycles are lost, a change, a replay and a pending batch end (R230, R242, R251, R419). -/
def State.stopProgram (s : State) : State :=
  if s.tsk.up then s.stopLanes.rplAbort.chgAbort.vcWithdraw.groupsDrop else s.vcWithdraw.groupsDrop

/-- The final snapshot of R201 is due when SUPPLY stops a running program. -/
def State.wantsFinal (s : State) : Bool := s.tsk.up && bit (s.get F.PWR_STATE.STEM_CAUSE) stemSUPPLY

/-- Entry into STEM on the causes that stand, the first detected in SIX `x` (R419 steps 1 and 2). -/
def State.stemEnter (s : State) (x : Nat) (puts : CelPuts) : State :=
  let fin := s.wantsFinal
  let supply := bit (s.get F.PWR_STATE.STEM_CAUSE) stemSUPPLY
  let mask := s.get F.PWR_STATE.STEM_CAUSE
  let s := s.stopProgram.lftStop
  let s := if s.flag F.INJ_STATUS.ARMED then s else s.armFastPath
  let s := (s.setOp opSTEM 4).gatesStem (x + 2)
  let s := s.set64 A.PWR_STEM_SIX x
  let s := (s.set F.INJ_STATUS.STEM_RUN 1).raise F.INJ_EVT.STEM_RUN
  let s := s.log 3 3 (leBytes 1 mask ++ leBytes 8 x)
  let s := if supply then s.forceThaw 3 puts else s
  let p := { s.pwr with
    stemSix := none, seen := mask, settleAt := some (x + 200), finalDue := fin, prep := none, maintAt := none, resumeAt := none, lane := none }
  ({ s with pwr := p } : State).pwrBusy

/-- HALT with cause `c` of PWR_STATE.HALT_CAUSE (R421, R422). -/
def State.haltEnter (s : State) (c : Nat) : State :=
  let s := s.set (bitField F.PWR_STATE.HALT_CAUSE.addr (F.PWR_STATE.HALT_CAUSE.lo + c)) 1
  if s.opstate = opHALT then { s with pwr := { s.pwr with armBy := none } }
  else
    let s := s.stopProgram.stopFastPath.lftStop
    let s := (s.set F.INJ_STATUS.STEM_RUN 0).setOp opHALT (s.get F.PWR_STATE.PHASE)
    let s := s.log 5 3 (leBytes 1 (s.get F.PWR_STATE.HALT_CAUSE) ++ leBytes 1 (s.get F.PWR_STATE.STEM_CAUSE))
    let p := { s.pwr with
      stemSix := none, settleAt := some (s.six + 200), prep := none, armBy := none, maintAt := none, resumeAt := none, lane := none }
    ({ s with pwr := p } : State).pwrBusy

/-- Bits of the HALT cause mask. -/
def haltLC : Nat := 0
def haltFW : Nat := 1
def haltFP : Nat := 2
def haltHOST : Nat := 3
def haltCLOCK : Nat := 4

/-- Domains that stay on in settled STEM and HALT (R402), and during start-up (R403): with P9 and the PCIe endpoint of P10. -/
def domCore : Nat := 0x3F
def domStart : Nat := 0x63F
def domAll : Nat := 0xFFF

/-- The latest entry into STEM or HALT is complete (R402, R419 steps 3 and 4): the final snapshot, then the domains go off; during start-up P9
and the endpoint stay (R403). -/
def State.domainsOff (s : State) : State :=
  let s := if s.pwr.finalDue then s.finalSnap else s
  let s := s.uchPowerDown.ethPowerDown
  let s := if s.pwr.startup then s else s.ptpOff (if s.opstate = opSTEM then 3 else 1)
  let s := s.lftStop
  let s := if s.pwr.startup then s else (s.fnReset 0).fnReset 1
  let s := s.set F.PWR_DOM.ON (if s.pwr.startup then domStart else domCore)
  { s with pwr := { s.pwr with settleAt := none, finalDue := false } }

/-! ## Return to SERVICE (R418, R420, R423) -/

/-- The restart of the lanes is being prepared from now on: P6 to P11 are powered (R403). -/
def State.prepare (s : State) : State :=
  let s := (s.set F.PWR_DOM.ON domAll).setPhase (if s.pwr.startup then 2 else 5)
  { s with pwr := { s.pwr with prep := some s.six, settleAt := none } }

/-- The STEM causes other than START that still stand. -/
def State.stemStands (s : State) : Nat := s.get F.PWR_STATE.STEM_CAUSE % 64

/-- Does every cause that has stood since the entry allow the automatic return (R418)? -/
def State.autoReturns (s : State) : Bool :=
  let seen := s.pwr.seen % 64
  (seen &&& 0x29) == 0 && (!bit seen stemMEM || s.flag F.PWR_CFG.AUTO_MEM) &&
  (!bit seen stemSUPPLY || s.flag F.PWR_CFG.AUTO_SUPPLY) && (!bit seen stemTEMP || s.flag F.PWR_CFG.AUTO_TEMP)

/-- Has cause `b` met its condition of R418? -/
def State.stemClears (s : State) (b : Nat) : Bool :=
  if b = stemMEM then s.flag F.PWR_CFG.AUTO_MEM && decide (s.get64 A.PWR_STEM_SIX + samplesPerSecond ≤ s.six)
  else if b = stemSUPPLY then
    s.pwr.goodSix.any (fun g => decide (g + samplesPerSecond ≤ s.six)) && decide (420 ≤ s.get F.PWR_SUPPLY.HU)
  else if b = stemTEMP then s.pwr.cool
  else false

/-- STEM_CAUSE_CLEARED (R418): with no cause left but START, the automatic return begins. -/
def execStemCauseCleared (b : Fin 7) (s : State) : Host.Outcome State Fault Refusal :=
  let f := bitField F.PWR_STATE.STEM_CAUSE.addr (F.PWR_STATE.STEM_CAUSE.lo + b)
  if s.flag f && s.stemClears b && s.opstate == opSTEM then
    let s := s.set f 0
    .next (if s.stemStands = 0 && s.autoReturns then s.prepare else s)
  else .next s

/-- STEM_ENTER (R419). -/
def execStemEnter (puts : CelPuts) (s : State) : Host.Outcome State Fault Refusal :=
  match s.pwr.stemSix with
  | some x => if s.opstate = opSERVICE ∨ s.opstate = opMAINT then .next (s.stemEnter x puts) else .next s
  | none => .next s

/-! ## MAINT (R423) -/

/-- MAINT ends (R423): SERVICE at the next hyperboundary with the program kept, else the restart of the lanes. -/
def State.maintLeave (s : State) (how : Nat) : State :=
  let s := s.log 7 2 (leBytes 1 how)
  if s.tsk.up then { s with pwr := { s.pwr with resumeAt := some (boundaryAt hyperPeriod (s.six + 1)) } } else s.prepare

/-- MAINT_ENTER (R423): at H, after the output releases of H; a value change due at H is applied first (R230). -/
def execMaintEnter (s : State) : Host.Outcome State Fault Refusal :=
  if s.pwr.maintAt = some s.six && s.opstate == opSERVICE && !s.outputsOpen then
    let keep := s.flag F.PWR_CFG.MAINT_PROG
    let s := { s with pwr := { s.pwr with maintAt := none } }
    let s := if keep then s else s.vcAtStop.stopProgram.gatesStem s.six
    let s := if s.flag F.PWR_CFG.MAINT_FP then s else s.stopFastPath
    let s := (s.setOp opMAINT (s.get F.PWR_STATE.PHASE)).pwrBusy
    let s := if keep then s else (List.range 16).foldl State.uchDrive s
    .next (s.log 6 2 (leBytes 1 (s.get F.PWR_CFG.MAINT_FP) ++ leBytes 1 (s.get F.PWR_CFG.MAINT_PROG)))
  else .next s

/-- SERVICE resumes from MAINT at its hyperboundary with the program kept (R423): the force table is cleared, a stopped fast path arms again. -/
def State.maintResume (s : State) : State :=
  if s.pwr.resumeAt = some s.six && s.opstate == opMAINT then
    let s := { s with pwr := { s.pwr with resumeAt := none } }
    let s := if s.flag F.INJ_STATUS.ARMED then s else s.armFastPath
    let s := ((s.forcesClear).setOp opSERVICE 3).set64 A.PWR_SVC_SIX s.six
    (s.log 4 2 (leBytes 8 s.six)).pwrBusy
  else s

/-! ## The kicks of PWR_CMD (R413, R414, R418, R421 to R423) -/

/-- A write of PWR_CMD whose kick bit `b` is set: privileged, under OPERATE; of several kick bits the lowest acts alone, and the write is counted with cause 6
(R422). -/
def State.pwrKick (s : State) (pf b : Nat) (w : Word) (act : State → State) : State :=
  whenAllowed (s.gate pf A.PWR_CMD w needsOperate false) (fun t =>
    let t := t.set F.PWR_CMD.LANE (fieldOf w 8 2)
    let t := if popCount 6 w.toNat ≤ 1 then t else t.deny pf 6 A.PWR_CMD
    if bit w.toNat b && w.toNat % 2 ^ b == 0 then act t else t)

/-- STEM: STEM with cause HOST. -/
def execStem (pf : Fin 2) (w : Word) (s : State) : Host.Outcome State Fault Refusal :=
  .next (s.pwrKick pf 0 w (fun t => (t.pwrResult 1).stemCause stemHOST))

/-- HALT: HALT with cause HOST. -/
def execHalt (pf : Fin 2) (w : Word) (s : State) : Host.Outcome State Fault Refusal :=
  .next (s.pwrKick pf 1 w (fun t => (t.pwrResult 1).haltEnter haltHOST))

/-- MAINT: accepted only in SERVICE with life-cycle state MAINTENANCE and no STEM cause that stands. -/
def execMaint (pf : Fin 2) (w : Word) (s : State) : Host.Outcome State Fault Refusal :=
  .next (s.pwrKick pf 2 w (fun t =>
    if t.pwr.maintAt.isSome then t
    else if t.opstate ≠ opSERVICE then t.pwrResult 2
    else if t.get F.SEC_STATUS.LC ≠ 3 then t.pwrResult 4
    else if t.pwr.stemSix.isSome then t.pwrResult 3
    else
      let u := { t with pwr := { t.pwr with maintAt := some (boundaryAt hyperPeriod (t.six + 200)) } }
      (u.pwrResult 1).pwrBusy))

/-- RESUME: ends MAINT. -/
def execResume (pf : Fin 2) (w : Word) (s : State) : Host.Outcome State Fault Refusal :=
  .next (s.pwrKick pf 3 w (fun t =>
    if t.opstate ≠ opMAINT then t.pwrResult 2
    else if t.pwr.resumeAt.isSome ∨ t.pwr.prep.isSome then t
    else if t.pwr.stemSix.isSome then t.pwrResult 3
    else ((t.pwrResult 1).maintLeave 1).pwrBusy))

/-- A warm reset is requested for a cause (R413): the batch that waits is withdrawn (R230), and start-up in the sense of R403 begins. -/
def State.warmRequest (s : State) (cause : Nat) : State :=
  if s.pwr.warm.isSome then s
  else
    let s := s.vcWithdraw
    ({ s with pwr := { s.pwr with warm := some cause, startup := true } } : State).pwrBusy

/-- WARM. -/
def execWarm (pf : Fin 2) (w : Word) (s : State) : Host.Outcome State Fault Refusal :=
  .next (s.pwrKick pf 4 w (fun t => if t.pwr.warm.isSome then t else (t.pwrResult 1).warmRequest 1))

/-- WATCHDOG_EXPIRED (R413). -/
def execWatchdogExpired (s : State) : Host.Outcome State Fault Refusal := .next (s.warmRequest 3)

/-- Is P1 powered? -/
def State.powered (s : State) : Bool := bit (s.get F.PWR_DOM.ON) 1

/-- RST_N_LOW (R436): a low of 1 ms requests a warm reset; before VMAIN is good it holds the cold start to come. -/
def execRstNLow (s : State) : Host.Outcome State Fault Refusal :=
  let s := { s with pwr := { s.pwr with rstLow := true } }
  .next (if s.powered then s.warmRequest 2 else s)

/-- LANE_RST (R414): refused with RESULT 5 unless the lane has failed, in SERVICE or MAINT, with no takeover loading. -/
def execLaneRst (pf : Fin 2) (w : Word) (s : State) : Host.Outcome State Fault Refusal :=
  .next (s.pwrKick pf 5 w (fun t =>
    let n := t.get F.PWR_CMD.LANE
    if t.pwr.lane.isSome then t
    else if (t.opstate = opSERVICE ∨ t.opstate = opMAINT) ∧ t.get (F.LNE_L_STATE.ROLE n) = 3 ∧ t.tsk.tko.isNone then
      let t := ((t.zeroSpace (5 + n)).zeroSpace (9 + n)).setLane n LaneSt.reset
      let t := (t.setRole n 4).pwrResult 1
      ({ t with pwr := { t.pwr with lane := some n } } : State).pwrBusy
    else t.pwrResult 5))

/-- LANE_RESET_DONE (R414): the lane becomes the spare (R198), or stays failed with CAUSE 5. -/
def execLaneResetDone (pass : Bool) (s : State) : Host.Outcome State Fault Refusal :=
  match s.pwr.lane with
  | some n =>
    let s := ({ s with pwr := { s.pwr with lane := none } } : State).pwrBusy
    let s := (s.set (F.LNE_L_STATE.CAUSE n) (if pass then 0 else 5)).setRole n (if pass then 2 else 3)
    let s := if pass then (s.spareAct 0).raise F.PWR_EVT.LANE_RESET_DONE else s
    .next (s.log 0xE 2 (leBytes 1 n ++ leBytes 1 (b2n pass))).gooseStatus
  | none => .next s

/-! ## Supply and hold-up (R406 to R409, R444) -/

/-- What the engine measures of its supply: VMAIN in 10 mV and the hold-up rail in 0.1 V; SUPPLY_WARN follows (R406). -/
def State.supplyIs (s : State) (vmain hu : Nat) : State :=
  let s := (s.set F.PWR_SUPPLY.VMAIN (min vmain 4095)).set F.PWR_SUPPLY.HU (min hu 511)
  let warn := decide (vmain < 1800) || decide (3300 < vmain) || decide (hu < 420) || s.flag F.PWR_STATE.HOLDUP
  { s with pwr := { s.pwr with warnPin := warn } }

/-- SUPPLY_WARN (R406). -/
def execSupplyWarn (vmain : BitVec 12) (hu : BitVec 9) (s : State) : Host.Outcome State Fault Refusal :=
  .next (s.supplyIs vmain.toNat hu.toNat)

/-- The brownout enters the hold-up window (R407): STEM with cause SUPPLY; one during a warm reset ends that (R413). -/
def State.windowEnter (s : State) : State :=
  let warm := s.pwr.startup && s.pwr.kept
  let s := { s with pwr := { s.pwr with inWindow := true, coldNext := s.pwr.coldNext || warm } }
  s.stemCause stemSUPPLY

/-- The engine goes over to the hold-up rail (R407): in settled STEM and HALT the window begins at once. -/
def State.holdUp (s : State) (vmain : Nat) (ovr : Bool) : State :=
  if s.flag F.PWR_STATE.HOLDUP then s
  else
    let s := { s with pwr := { s.pwr with hold := s.six, inWindow := false, ovr := ovr, goodSix := none } }
    let s := (s.set F.PWR_STATE.HOLDUP 1).supplyIs vmain (s.get F.PWR_SUPPLY.HU)
    let s := (s.raise F.PWR_EVT.BROWNOUT).log 8 2 (leBytes 2 vmain)
    if (s.opstate = opSTEM ∨ s.opstate = opHALT) ∧ !s.pwr.startup then s.windowEnter else s

/-- BROWNOUT (R407). -/
def execBrownout (vmain : BitVec 12) (s : State) : Host.Outcome State Fault Refusal :=
  if vmain.toNat < 1650 then .next (s.holdUp vmain.toNat false) else .next s

/-- OVERVOLTAGE_DISCONNECT (R444): as on a brownout. -/
def execOvervoltageDisconnect (vmain : BitVec 12) (s : State) : Host.Outcome State Fault Refusal :=
  if 3400 < vmain.toNat then .next (s.holdUp vmain.toNat true) else .next s

/-- May the engine return to VMAIN: it stands at or above 17.5 V, and after an overvoltage not above 33.0 V (R406, R444)? -/
def State.vmainOk (s : State) (v : Nat) : Bool := decide (1750 ≤ v) && (!s.pwr.ovr || decide (v ≤ 3300))

/-- The engine runs from VMAIN again. -/
def State.onMain (s : State) (v : Nat) : State := (s.set F.PWR_STATE.HOLDUP 0).supplyIs v (s.get F.PWR_SUPPLY.HU)

/-- SUPPLY_BACK, the event and its entry (R407). -/
def State.supplyBack (s : State) (v : Nat) : State :=
  (s.raise F.PWR_EVT.SUPPLY_BACK).log 9 1 (leBytes 2 v ++ leBytes 4 (min ((s.six - s.pwr.hold) / 2) (2 ^ 32 - 1)))

/-- SUPPLY_BACK (R407): within RIDE_MS nothing else changes. -/
def execSupplyBack (vmain : BitVec 12) (s : State) : Host.Outcome State Fault Refusal :=
  if s.flag F.PWR_STATE.HOLDUP ∧ !s.pwr.inWindow ∧ s.vmainOk vmain.toNat then .next ((s.onMain vmain.toNat).supplyBack vmain.toNat)
  else .next s

/-- RIDE_THROUGH_EXPIRED (R407). -/
def execRideThroughExpired (s : State) : Host.Outcome State Fault Refusal :=
  if s.flag F.PWR_STATE.HOLDUP ∧ !s.pwr.inWindow ∧ s.pwr.hold + 2000 * s.get F.PWR_CFG.RIDE_MS ≤ s.six then .next s.windowEnter
  else .next s

/-- VMAIN_GOOD (R406): back on VMAIN after the ride-through expired; the rail recharges; after an overvoltage SUPPLY_BACK is written (R444). -/
def execVmainGood (vmain : BitVec 12) (s : State) : Host.Outcome State Fault Refusal :=
  if s.flag F.PWR_STATE.HOLDUP ∧ s.pwr.inWindow ∧ s.vmainOk vmain.toNat then
    let t := s.onMain vmain.toNat
    let t := { t with pwr := { t.pwr with goodSix := some s.six } }
    .next (if s.pwr.ovr then t.supplyBack vmain.toNat else t)
  else .next s

/-- POWER_DOWN (R409): the Cellar stops after this entry. -/
def execPowerDown (hu : BitVec 9) (s : State) : Host.Outcome State Fault Refusal :=
  if s.flag F.PWR_STATE.HOLDUP ∧ hu.toNat ≤ 200 ∧ !s.pwr.celStop then
    let s := s.supplyIs (s.get F.PWR_SUPPLY.VMAIN) hu.toNat
    let s := s.log 0xA 3 (leBytes 2 hu.toNat)
    .next { s with pwr := { s.pwr with celStop := true } }
  else .next s

/-- HOLDUP_EXHAUSTED (R409): P1 to P5 go off, the trip driver outputs fall, SIX stops, every pin takes its unpowered state. -/
def execHoldupExhausted (hu : BitVec 9) (s : State) : Host.Outcome State Fault Refusal :=
  if s.flag F.PWR_STATE.HOLDUP ∧ hu.toNat ≤ 180 then
    let s := if s.tsk.up then s.stopLanes else s
    let s := (s.stopFastPath).set F.PWR_DOM.ON 1
    let s := (s.set F.ENG_STATE.HEALTHY 0).set F.ENG_STATE.STEM 0
    let s := s.set F.ENG_STATE.CELLAR_MUTE 0
    .next { s with clk := { s.clk with running := false }, pwr := { s.pwr with warnPin := false, celStop := true } }
  else .next s

/-! ## Over-temperature (R410) -/

/-- What the engine reads of its temperatures, in 0.1 °C. -/
def State.tempIs (s : State) (die base : Int) : State := (s.set F.PWR_TEMP.DIE_MAX (unsigned 16 die)).set F.PWR_TEMP.BASE (unsigned 16 base)

/-- OT_WARN (R410). -/
def execOtWarn (die base : BitVec 16) (s : State) : Host.Outcome State Fault Refusal :=
  if 1150 ≤ die.toInt then .next (((s.tempIs die.toInt base.toInt).raise F.PWR_EVT.OT_WARN).log 0xB 2 (leBytes 2 die.toNat)) else .next s

/-- OT (R410): two consecutive readings at or above 120.0 °C. -/
def execOt (before die base : BitVec 16) (s : State) : Host.Outcome State Fault Refusal :=
  if 1200 ≤ before.toInt ∧ 1200 ≤ die.toInt then
    let s := (s.tempIs die.toInt base.toInt).raise F.PWR_EVT.OT
    let s := s.log 0xC 3 (leBytes 2 die.toNat ++ leBytes 2 base.toNat)
    .next (({ s with pwr := { s.pwr with cool := false } } : State).stemCause stemTEMP)
  else .next s

/-- OT_CLEAR (R410): the die has stayed below 105.0 °C since SIX `since`, for 60 s. -/
def execOtClear (die base : BitVec 16) (since : Nat) (s : State) : Host.Outcome State Fault Refusal :=
  if die.toInt < 1050 ∧ since + 60 * samplesPerSecond ≤ s.six ∧ bit (s.get F.PWR_STATE.STEM_CAUSE) stemTEMP then
    let s := (s.tempIs die.toInt base.toInt).raise F.PWR_EVT.OT_CLEAR
    .next { s.log 0xD 1 (leBytes 2 die.toNat) with pwr := { s.pwr with cool := true } }
  else .next s

/-! ## Clocks and rails (R404, R425) -/

/-- CLK_STATUS.OK bit `d` falls; C5's bit follows its instances (`State.clkWord`). -/
def State.clockLost (s : State) (d inst : Nat) : State :=
  let s := if d = 5 then s else s.set (bitField F.CLK_STATUS.OK.addr (F.CLK_STATUS.OK.lo + d)) 0
  let s := s.raise (bitField F.CLK_EVT.LOSS.addr (F.CLK_EVT.LOSS.lo + d))
  s.log 0xF 3 (leBytes 1 d ++ leBytes 1 inst)

/-- What follows from the loss of domain `d`, instance `inst` (the last column of R404). -/
def State.clockAct (s : State) (d inst : Nat) : State :=
  if d = 1 then s.tamperSet 8
  else if d = 2 ∨ d = 3 ∨ d = 6 then s.haltEnter haltCLOCK
  else if d = 4 then s.stemCause stemLANE
  else if d = 5 then if inst < 44 then s.alignLost inst else s
  else if d = 7 then
    [2 * (inst % 2), 2 * (inst % 2) + 1].foldl (fun t p => if t.hasLink p then (t.setLink p false).raise F.ETH_EVT.LINK_CHG else t) s
  else if d = 8 then s.stemCause stemMEM
  else if d = 9 then
    [0, 5].foldl (fun t c => if t.dmaRuns c then t.engineBeat c 3 else t) s
  else if d = 10 then (s.fnReset 0).fnReset 1
  else if d = 11 then
    if s.uchOn && !(s.uchGroup (inst % 4)).fault then
      (((s.setGroupFault (inst % 4) true).raise F.UCH_EVT.GRP_FAULT).log 0x643 2 (leBytes 1 (inst % 4) ++ leBytes 1 1)).hartCut (inst % 4)
    else s
  else s

/-- CLOCK_FAULT (R404): `ocxo` says that the loss comes with the failure of the OCXO, on which C2 goes over to the 10 MHz reference when REF_OK is 1. -/
def execClockFault (d : Fin 12) (inst : Fin 44) (ocxo : Bool) (s : State) : Host.Outcome State Fault Refusal :=
  let s := if ocxo then (s.set F.CLK_STATUS.OCXO_OK 0).raise F.CLK_EVT.OCXO_FAIL else s
  if d.val = 2 ∧ ocxo ∧ s.flag F.TIM_STATUS.REF_OK then .next (s.set F.CLK_STATUS.ON_REF 1)
  else .next ((s.clockLost d inst).clockAct d inst)

/-- DOMAIN_FAULT (R425). -/
def execDomainFault (d : Fin 12) (s : State) : Host.Outcome State Fault Refusal :=
  .next ((s.set (bitField F.PWR_DOM.FAULT.addr (F.PWR_DOM.FAULT.lo + d)) 1).raise F.PWR_EVT.DOMAIN_FAULT)

end Sys2Proof.Machine
end

