-- ==== Sys2Proof/Machine/Sec.lean ====
section
/-!
DEFINITION. Machine/Sec.lean: the security island (R382 to R399, R439): the mailbox and the service UART, sessions, keys, images and
counters, attestation, life cycle and wipe, tamper. A command has its effect at its GO; MAILBOX_DONE shows its response.
-/
namespace Sys2Proof.Machine
open Sys2Proof

/-! ## The mailbox (R382, R383) -/

/-- RESULT codes (R383). -/
def resUnknown : Nat := 1
def resLength : Nat := 2
def resRight : Nat := 3
def resState : Nat := 4
def resSignature : Nat := 5
def resCounter : Nat := 6
def resUnit : Nat := 7
def resChallenge : Nat := 8
def resRate : Nat := 9
def resKey : Nat := 10
def resStorage : Nat := 11
def resTamper : Nat := 12
def resExhausted : Nat := 13
def resStem : Nat := 14

/-- RESULT and response of a command, and the state that it leaves. -/
structure Answer where
  res : Nat
  rsp : List Byte
  st : State

/-- A command that leaves the state with a RESULT and no response. -/
def State.say (s : State) (r : Nat) : Answer := ⟨r, [], s⟩

/-- The words of SEC_BUF are zero. -/
def State.bufClear (s : State) : State :=
  { s with regs := s.regs.filter (fun e => !(decide (A.SEC_BUF 0 ≤ e.1) && decide (e.1 < A.SEC_BUF 1024))) }

/-- The first `n` bytes of SEC_BUF. -/
def State.bufBytes (s : State) (n : Nat) : List Byte :=
  ((List.range ((n + 3) / 4)).map (fun i => leBytes 4 (s.rd (A.SEC_BUF i)).toNat)).flatten.take n

/-- SEC_BUF holds a response. -/
def State.bufFill (s : State) (bs : List Byte) : State :=
  (List.range ((bs.length + 3) / 4)).foldl (fun t i => t.wr (A.SEC_BUF i) (BitVec.ofNat 32 (leNat ((bs.drop (4 * i)).take 4)))) s

/-- The life-cycle state (R395). -/
def State.lc (s : State) : Nat := s.get F.SEC_STATUS.LC

/-- Does C1 run (R404)? Without it the mailbox stops. -/
def State.islandRuns (s : State) : Bool := bit (s.get F.CLK_STATUS.OK) 1

/-- The commands that DECOMMISSIONED and RETURNED answer (R396). -/
def lateCommands : List Nat := [0x01, 0x04, 0x09, 0x0B]

/-- The island takes the command of a GO (R382): `body` says what the command does with its request. -/
def State.secRun (s : State) (pf code : Nat) (body : State → List Byte → Answer) : State :=
  let n := s.get F.SEC_LEN.REQ
  let req := s.bufBytes n
  let s := (((s.set F.SEC_CMD.OWNER pf).set F.SEC_CMD.BUSY 1).set F.SEC_LEN.RSP 0).bufClear
  let s := { s with sec := { s.sec with respPf := none } }
  let a :=
    if 4096 < n then s.say resLength
    else if 4 ≤ s.lc ∧ code ∉ lateCommands then s.say resState
    else body s req
  { a.st with sec := { a.st.sec with mbox := some ⟨pf, a.res, a.rsp⟩ } }

/-- A write of `w` with GO to SEC_CMD whose CMD is `code`, in either view: ignored while a command runs (R12). -/
def State.secGo (s : State) (pf : Nat) (w : Word) (code : Nat) (body : State → List Byte → Answer) : State :=
  if fieldOf w 0 8 = code ∧ bit w.toNat 8 then
    whenAllowed (s.gate pf A.SEC_CMD w none false) (fun t =>
      let t := t.set F.SEC_CMD.CMD code
      if t.flag F.SEC_CMD.BUSY ∨ !t.islandRuns then t else t.secRun pf code body)
  else s

/-- `body` for a command that needs right `r` (R376, R383) and a request of `n` bytes. -/
def State.withRight (s : State) (pf r n : Nat) (req : List Byte) (body : State → Answer) : Answer :=
  if (s.rightCause pf (some r)).isSome then s.say resRight
  else if req.length ≠ n then s.say resLength
  else body s

/-- Bits of R376. -/
def rightCHANGE : Nat := 1
def rightSECURITY : Nat := 2

/-- MAILBOX_UNKNOWN_COMMAND (R383). -/
def execMailboxUnknownCommand (pf : Fin 2) (w : Word) (s : State) : Host.Outcome State Fault Refusal :=
  let c := fieldOf w 0 8
  if 1 ≤ c ∧ c ≤ 0x0B then .next s
  else if bit w.toNat 8 then
    .next (whenAllowed (s.gate pf A.SEC_CMD w none false) (fun t =>
      let t := t.set F.SEC_CMD.CMD c
      if t.flag F.SEC_CMD.BUSY ∨ !t.islandRuns then t
      else
        let t := (((t.set F.SEC_CMD.OWNER pf).set F.SEC_CMD.BUSY 1).set F.SEC_LEN.RSP 0).bufClear
        { t with sec := { t.sec with respPf := none, mbox := some ⟨pf, resUnknown, []⟩ } }))
  else .next s

/-! ## Challenges and sessions (R384 to R386) -/

/-- CHALLENGE with the nonce of the island's random source. -/
def State.challenge (s : State) (nonce : BitVec 256) : Answer :=
  if s.flag F.SEC_STATUS.LOCKOUT then s.say resRate
  else
    let seq := (s.sec.chalSeq + 1) % 2 ^ 32
    ⟨0, leBytes 8 (s.get64 A.ENG_UID) ++ leBytes 4 seq ++ beBytes 32 nonce.toNat,
      { s with sec := { s.sec with chalSeq := seq, challenge := some ⟨nonce, seq, s.six⟩ } }⟩

/-- CHALLENGE. -/
def execChallenge (pf : Fin 2) (w : Word) (nonce : BitVec 256) (s : State) : Host.Outcome State Fault Refusal :=
  .next (s.secGo pf w 0x01 (fun t _ => t.challenge nonce))

/-- CHALLENGE_LAPSED (R384): 300 s after its issue. -/
def execChallengeLapsed (s : State) : Host.Outcome State Fault Refusal :=
  .next (if s.sec.challenge.any (fun c => decide (c.issued + 300 * samplesPerSecond ≤ s.six)) then
    { s with sec := { s.sec with challenge := none } } else s)

/-- A field of a token: `n` bytes at offset `o` as a number. -/
def tokNat (t : List Byte) (o n : Nat) : Nat := leNat ((t.drop o).take n)

/-- Are the bytes from `a` to `b` zero? -/
def tokZero (t : List Byte) (a b : Nat) : Bool := ((t.drop a).take (b + 1 - a)).all (· == 0)

/-- Signature bytes of a parameter set (R387). -/
def sigBytes (param : Nat) : Nat := if param = 0 then 2500 else if param = 1 then 2692 else 2820

/-- Does a token answer the outstanding challenge? -/
def State.answersChallenge (s : State) (t : List Byte) : Bool :=
  s.sec.challenge.any (fun c =>
    decide (s.six < c.issued + 300 * samplesPerSecond) && (t.drop 0x10).take 32 == beBytes 32 c.nonce.toNat && tokNat t 0x30 4 == c.seq)

/-- The layout of a token with its MAGIC (R385): 0x80 bytes and the zero fields. -/
def tokLayout (magic : Nat) (t : List Byte) : Bool :=
  decide (0x80 ≤ t.length) && tokNat t 0 4 == magic && tokNat t 4 2 == 1 && tokZero t 0x39 0x3F && tokZero t 0x50 0x7F

/-- RESULT of the checks of R386, in their order. -/
def State.grantResult (s : State) (t : List Byte) (sigOk : Bool) : Nat :=
  let slot := tokNat t 0x38 1
  let life := tokNat t 0x34 4
  if s.lc ≠ 1 ∧ s.lc ≠ 2 ∧ s.lc ≠ 3 then resState
  else if !tokLayout 0x53455357 t || decide (8 ≤ tokNat t 6 2) || decide (life < 60) || decide (28800 < life) || decide (3 < slot) then resLength
  else if tokNat t 8 8 ≠ s.get64 A.ENG_UID then resUnit
  else if !s.answersChallenge t then resChallenge
  else if s.get (F.SEC_KEY.STATE slot) ≠ 1 ∨ !bit (s.get (F.SEC_KEY.USAGE slot)) 0 then resKey
  else if t.length ≠ 0x80 + sigBytes (s.get (F.SEC_KEY.PARAM slot)) then resLength
  else if !sigOk then resSignature
  else if s.flag F.SEC_STATUS.TAMPER ∧ !bit (tokNat t 6 2) 2 then resTamper
  else 0

/-- A failed GRANT counts toward the lockout (R384). -/
def State.grantFailed (s : State) (r slot : Nat) : State :=
  let l := s.six :: s.sec.grantFails.filter (fun k => decide (s.six < k + 600 * samplesPerSecond))
  let s := { s with sec := { s.sec with grantFails := l.take 5 } }
  let s := s.log 0x82 2 (leBytes 1 r ++ leBytes 1 slot)
  if 5 ≤ l.length then
    ({ s with sec := { s.sec with lockoutEnd := some (s.six + 60 * samplesPerSecond) } } : State).set F.SEC_STATUS.LOCKOUT 1
  else s

/-- A session opens (R386); an open one closes first with cause 4. -/
def State.sessionOpen (s : State) (t : List Byte) : State :=
  let s := s.sessionClose 4
  let rights := tokNat t 6 2
  let slot := tokNat t 0x38 1
  let op := (t.drop 0x40).take 16
  let x : Session := ⟨rights, slot, op, s.six + tokNat t 0x34 4 * samplesPerSecond, s.six⟩
  let s := { s with sec := { s.sec with session := some x } }
  let s := ((s.set F.ENG_SESS.RIGHTS rights).set F.ENG_SESS.KEYSLOT slot).set F.ENG_STATE.SESSION 1
  (s.raise F.ENG_EVT.SESSION_OPEN).log 0x80 2 (leBytes 1 slot ++ leBytes 1 rights ++ leBytes 4 (tokNat t 0x34 4) ++ op)

/-- GRANT: the challenge is consumed either way (R384). -/
def State.grant (s : State) (t : List Byte) (sigOk : Bool) : Answer :=
  let r := s.grantResult t sigOk
  let s := { s with sec := { s.sec with challenge := none } }
  if r = 0 then (s.sessionOpen t).say 0 else (s.grantFailed r (tokNat t 0x38 1)).say r

/-- GRANT: `sigOk` says that the token's signature verifies under its slot's key. -/
def execGrant (pf : Fin 2) (w : Word) (sigOk : Bool) (s : State) : Host.Outcome State Fault Refusal :=
  .next (s.secGo pf w 0x02 (fun t req => t.grant req sigOk))

/-- LOCKOUT_END (R384). -/
def execLockoutEnd (s : State) : Host.Outcome State Fault Refusal :=
  .next (if s.sec.lockoutEnd.any (fun k => decide (k ≤ s.six)) then
    ({ s with sec := { s.sec with lockoutEnd := none } } : State).set F.SEC_STATUS.LOCKOUT 0 else s)

/-- SESSION_LIFETIME_EXPIRED (R386). -/
def execSessionLifetimeExpired (s : State) : Host.Outcome State Fault Refusal :=
  .next (if s.sec.session.any (fun x => decide (x.endSix ≤ s.six)) then s.sessionClose 1 else s)

/-- SESSION_IDLE_EXPIRED (R386): 900 s without a PF1 access. -/
def execSessionIdleExpired (s : State) : Host.Outcome State Fault Refusal :=
  .next (if s.sec.session.any (fun x => decide (x.lastAcc + 900 * samplesPerSecond ≤ s.six)) then s.sessionClose 2 else s)

/-- SESSION_CLOSE (R386): the CLOSE kick, privileged, under OPERATE. -/
def execSessionClose (pf : Fin 2) (w : Word) (s : State) : Host.Outcome State Fault Refusal :=
  .next (whenAllowed (s.gate pf A.ENG_SESS_CTL w needsOperate false) (fun t => if bit w.toNat 0 then t.sessionClose 3 else t))

/-! ## Reports and the identity key (R393, R394) -/

/-- The digest of the running image of kind `k`. -/
def State.runDigest (s : State) (k : Nat) : Nat :=
  match kvGet (fun _ => none) s.sec.running (k - 1) with
  | some i => ((kvGet (fun _ => none) s.sec.slots i).map (fun x => x.digest.toNat)).getD 0
  | none => 0

/-- The 256 bytes of a report (R393): `wipe` and `checked` are zero in an attestation. -/
def State.report (s : State) (kind index : Nat) (nonce : List Byte) (wipe checked : Nat) : List Byte :=
  let tod := s.tod s.six
  let m := mapAt s.clk.maps s.six
  let flags := b2n (s.flag F.SEC_STATUS.TAMPER) + 2 * b2n (s.flag F.TIM_STATUS.VALID) + 4 * b2n s.sec.session.isSome +
    8 * b2n (s.flag F.ENG_STATE.HEALTHY)
  let keys := ((List.range 4).map (fun k => leBytes 1 (s.get (F.SEC_KEY.STATE k) + 4 * s.get (F.SEC_KEY.USAGE k)))).flatten
  leBytes 4 0x54544157 ++ leBytes 2 1 ++ leBytes 1 kind ++ leBytes 1 s.lc ++ leBytes 8 (s.get64 A.ENG_UID) ++
  leBytes 4 (s.rd A.ENG_ID).toNat ++ leBytes 4 index ++ leBytes 5 s.cel.opsec ++ leBytes 3 s.cel.pcc ++ leBytes 8 s.six ++
  leBytes 6 tod.1 ++ leBytes 2 m.epoch ++ leBytes 4 tod.2 ++ leBytes 4 flags ++
  ((List.range 3).map (fun i => leBytes 2 (s.get (F.SEC_SVN.RUNNING i)))).flatten ++ zeros 2 ++
  ((List.range 3).map (fun i => leBytes 2 (s.get (F.SEC_SVN.COUNTER i)))).flatten ++ keys ++ zeros 6 ++
  leBytes 8 s.cel.seqP0 ++ zeros 8 ++ nonce ++ ([1, 2, 3].map (fun k => beBytes 32 (s.runDigest k))).flatten ++
  leBytes 4 wipe ++ zeros 4 ++ leBytes 8 checked ++ zeros 16

/-- The identity key signs a report of `kind` (R393, R394): the index advances first; at 65 536 remaining indices XMSS_LOW is raised. -/
def State.signReport (s : State) (kind : Nat) (nonce : List Byte) (wipe checked : Nat) : List Byte × State :=
  let i := s.sec.xmssIndex
  let left := s.get F.SEC_XMSS_LEFT.LEFT - 1
  let s := { s with sec := { s.sec with xmssIndex := i + 1 } }
  let r := s.report kind i nonce wipe checked
  let s := (s.set F.SEC_XMSS_LEFT.LEFT left).log 0x89 1 (leBytes 4 i ++ leBytes 1 kind)
  (r ++ Config.xmssSign i r, if left = 65536 then (s.raise F.SEC_EVT.XMSS_LOW).log 0x8A 2 (leBytes 4 left) else s)

/-- ATTEST: 64 signatures in 86 400 operating seconds at most. -/
def State.attest (s : State) (nonce : List Byte) : Answer :=
  if nonce.length ≠ 32 then s.say resLength
  else if s.get F.SEC_XMSS_LEFT.LEFT = 0 then s.say resExhausted
  else if 64 ≤ s.attestsLive.length then s.say resRate
  else
    let s := { s with sec := { s.sec with attests := s.cel.opsec :: s.attestsLive } }
    let r := s.signReport 1 nonce 0 0
    ⟨0, r.1, r.2⟩

/-- ATTEST. -/
def execAttest (pf : Fin 2) (w : Word) (s : State) : Host.Outcome State Fault Refusal :=
  .next (s.secGo pf w 0x03 (fun t req => t.attest req))

/-- IDENTITY (R394): the public key and the certificate. -/
def State.identity (s : State) : Answer :=
  let body := leBytes 8 (s.get64 A.ENG_UID) ++ leBytes 4 (s.rd A.ENG_ID).toNat ++ Config.identityKey ++ zeros 24
  ⟨0, Config.identityKey ++ body ++ Config.vendorSign body, s⟩

/-- IDENTITY. -/
def execIdentity (pf : Fin 2) (w : Word) (s : State) : Host.Outcome State Fault Refusal :=
  .next (s.secGo pf w 0x04 (fun t _ => t.identity))

/-! ## Images and counters (R389 to R392) -/

/-- The image slot number `i` of a kind, and what it holds. -/
def slotOf (kind i : Nat) : Nat := 2 * (kind - 1) + i

def State.slotImage (s : State) (n : Nat) : Option Image := kvGet (fun _ => none) s.sec.slots n

/-- The slot of its kind that does not hold the running image; with none running the one not written last (R392). -/
def State.freeSlot (s : State) (kind : Nat) : Nat :=
  match kvGet (fun _ => none) s.sec.running (kind - 1) with
  | some n => if n = slotOf kind 0 then slotOf kind 1 else slotOf kind 0
  | none => if (s.slotImage (slotOf kind 0)).isNone then slotOf kind 0 else slotOf kind (1 - kvGet (fun _ => 0) s.sec.newer (kind - 1))

/-- The images of a kind that verify, the newer slot first (R392). -/
def State.verified (s : State) (kind : Nat) : List (Nat × Image) :=
  let n := kvGet (fun _ => 0) s.sec.newer (kind - 1)
  [slotOf kind n, slotOf kind (1 - n)].filterMap (fun i =>
    (s.slotImage i).bind (fun x => if s.verifyResult x = 0 then some (i, x) else none))

/-- The image of slot `i` runs: RUNNING of its counter shows its SVN. -/
def State.runImage (s : State) (i : Nat) (x : Image) : State :=
  let s := { s with sec := { s.sec with running := kvPut (fun _ => none) s.sec.running (x.kind - 1) (some i) } }
  s.set (F.SEC_SVN.RUNNING (counterOf x.kind)) x.svn

/-- An INSTALL is refused: IMAGE_REFUSED. -/
def State.imageRefused (s : State) (kind : Nat) (img : Option Image) (r : Nat) : Answer :=
  let svn := (img.map Image.svn).getD 0
  let dig := (img.map (fun x => x.digest.toNat)).getD 0
  (s.log 0x83 2 (leBytes 1 kind ++ leBytes 1 r ++ leBytes 2 svn ++ beBytes 32 dig)).say r

/-- INSTALL: `img` is the image at the request's address, none without a header there; `flashOk` says that flash takes it. -/
def State.install (s : State) (req : List Byte) (img : Option Image) (flashOk : Bool) : Answer :=
  let kind := tokNat req 0 1
  let a := tokNat req 4 8
  if s.flag F.SEC_STATUS.TAMPER then s.imageRefused kind img resTamper
  else if kind < 1 ∨ 3 < kind ∨ !tokZero req 1 3 ∨ a < uploadArea then s.imageRefused kind img resUnit
  else match img with
    | none => s.imageRefused kind img resUnit
    | some x =>
      if x.kind ≠ kind then s.imageRefused kind img resUnit
      else if s.verifyResult x ≠ 0 then s.imageRefused kind img (s.verifyResult x)
      else if kind = 2 ∧ s.opstate = opSTEM then s.imageRefused kind img resStem
      else if !flashOk then s.imageRefused kind img resStorage
      else
        let n := s.freeSlot kind
        let s := { s with sec := { s.sec with
          slots := kvPut (fun _ => none) s.sec.slots n (some x), newer := kvPut (fun _ => 0) s.sec.newer (kind - 1) (n % 2),
          upload := if kind = 2 then some x else s.sec.upload, uploadSix := if kind = 2 then none else s.sec.uploadSix } }
        (s.log 0x84 2 (leBytes 1 kind ++ leBytes 1 0 ++ leBytes 2 x.svn ++ beBytes 32 x.digest.toNat)).say 0

/-- INSTALL. -/
def execInstall (pf : Fin 2) (w : Word) (img : Option Image) (flashOk : Bool) (s : State) : Host.Outcome State Fault Refusal :=
  .next (s.secGo pf w 0x05 (fun t req => t.withRight pf rightCHANGE 12 req (fun u => u.install req img flashOk)))

/-- SVN_COMMIT (R391): to the SVN of the running image, never down. -/
def State.svnCommit (s : State) (kind : Nat) : Answer :=
  if kind < 1 ∨ 3 < kind then s.say resUnit
  else
    let i := counterOf kind
    let run := s.get (F.SEC_SVN.RUNNING i)
    if run ≤ s.get (F.SEC_SVN.COUNTER i) then s.say resCounter
    else ⟨0, leBytes 2 run, (s.set (F.SEC_SVN.COUNTER i) run).log 0x85 2 (leBytes 1 kind ++ leBytes 1 0 ++ leBytes 2 run)⟩

/-- SVN_COMMIT. -/
def execSvnCommit (pf : Fin 2) (w : Word) (s : State) : Host.Outcome State Fault Refusal :=
  .next (s.secGo pf w 0x06 (fun t req => t.withRight pf rightCHANGE 1 req (fun u => u.svnCommit (tokNat req 0 1))))

/-! ## Keys (R387, R388) -/

/-- KEY_CHANGE of slot `k`. -/
def State.keyChange (s : State) (k what : Nat) : State :=
  (s.raise F.SEC_EVT.KEY_CHANGE).log 0x86 3 (leBytes 1 k ++ leBytes 1 what ++ leBytes 1 (s.get (F.SEC_KEY.USAGE k)))

/-- KEY_PROGRAM with the 72 bytes of its request; `storeOk` says that the fuses take it. -/
def State.keyProgram (s : State) (req : List Byte) (storeOk : Bool) : Answer :=
  let k := tokNat req 0 1
  let oid := leNat ((req.drop 4).take 4).reverse
  if s.flag F.SEC_STATUS.TAMPER then s.say resTamper
  else if req.length ≠ 72 ∨ 3 < k ∨ 8 ≤ tokNat req 1 1 ∨ !tokZero req 2 3 ∨ oid < 0x10 ∨ 0x12 < oid then s.say resLength
  else if s.get (F.SEC_KEY.STATE k) ≠ 0 then s.say resKey
  else if !storeOk then s.say resStorage
  else
    let s := { s with sec := { s.sec with keyBytes := kvPut (fun _ => []) s.sec.keyBytes k (req.drop 4) } }
    let s := ((s.set (F.SEC_KEY.STATE k) 1).set (F.SEC_KEY.USAGE k) (tokNat req 1 1)).set (F.SEC_KEY.PARAM k) (oid - 0x10)
    (s.keyChange k 1).say 0

/-- KEY_PROGRAM. -/
def execKeyProgram (pf : Fin 2) (w : Word) (storeOk : Bool) (s : State) : Host.Outcome State Fault Refusal :=
  .next (s.secGo pf w 0x07 (fun t req => t.withRight pf rightSECURITY 72 req (fun u => u.keyProgram req storeOk)))

/-- Is slot `k` active with session usage? -/
def State.sessionKey (s : State) (k : Nat) : Bool := s.get (F.SEC_KEY.STATE k) == 1 && bit (s.get (F.SEC_KEY.USAGE k)) 0

/-- KEY_REVOKE (R388): not the last active slot with session usage; the session of that key closes with cause 6. -/
def State.keyRevoke (s : State) (k : Nat) : Answer :=
  if 3 < k then s.say resKey
  else if s.get (F.SEC_KEY.STATE k) ≠ 1 then s.say resKey
  else if s.sessionKey k && !(List.range 4).any (fun j => j != k && s.sessionKey j) then s.say resKey
  else
    let s := (s.set (F.SEC_KEY.STATE k) 2).keyChange k 2
    (if s.sec.session.any (fun x => x.slot == k) then s.sessionClose 6 else s).say 0

/-- KEY_REVOKE. -/
def execKeyRevoke (pf : Fin 2) (w : Word) (s : State) : Host.Outcome State Fault Refusal :=
  .next (s.secGo pf w 0x08 (fun t req => t.withRight pf rightSECURITY 1 req (fun u => u.keyRevoke (tokNat req 0 1))))

/-! ## Life cycle and wipe (R395 to R398) -/

/-- The life cycle enters state `n`: the session closes, both registers, the entry. -/
def State.lcEnter (s : State) (n : Nat) : State :=
  let old := s.lc
  let s := ((s.sessionClose 6).set F.SEC_STATUS.LC n).set F.ENG_STATE.LC n
  s.log 0x87 3 (leBytes 1 old ++ leBytes 1 n)

/-- LC_CHANGE is raised. -/
def State.lcChange (s : State) (n : Nat) : State := (s.lcEnter n).raise F.SEC_EVT.LC_CHANGE

/-- Do firmware, a fast-path configuration and a program image verify? -/
def State.allVerify (s : State) : Bool := [1, 2, 3].all (fun k => !(s.verified k).isEmpty)

/-- The stores that the wipe of R397 empties: operator keys revoked, operator images erased, memories, Pantry, both Cellar banks, the Loft
archive zeroed. Counters, firmware slots, LFT_ARC_WR and the record counter stay. -/
def State.wipeStores (s : State) : State :=
  let s := (List.range 4).foldl (fun t k => (t.set (F.SEC_KEY.STATE k) 2)) s
  let s := s.raise F.SEC_EVT.KEY_CHANGE
  let keep := s.sec.slots.filter (fun e => decide (e.1 < 2))
  let run := s.sec.running.filter (fun e => e.1 == 0)
  let s := { s with sec := { s.sec with slots := keep, running := run, upload := none, uploadSix := none } }
  let s := [1, 2, 5, 6, 7, 8, 9, 10, 11, 12, 13, 14].foldl State.zeroSpace s
  let s := { s with tsk := { s.tsk with panWriting := none }, inj := { s.inj with scap := [], scapLeft := 0, scapFirst := none } }
  let s := { s with cel := { s.cel with bankA := [], bankB := [], cubby := [] }, lft := { s.lft with arc := [], exp := none } }
  (s.set F.CEL_STATUS.CUBBY_N 0).celCount.arcRegs

/-- Entry into DECOMMISSIONED (R397): `bad` are the stores, by WIPE bit, whose read-back will find a byte that is not zero. -/
def State.decommission (s : State) (bad : Nat) : State :=
  let s := { s with sec := { s.sec with wiping := true, wipeBad := bad } }
  let s := ((s.set F.SEC_STATUS.WIPING 1).haltEnter haltLC).lcEnter 4
  s.wipeStores

/-- The wipe ends (R397 step 7, R398): the proof is signed and stored; how many bytes were read back the spec does not state. -/
def State.wipeDone (s : State) : State :=
  if s.sec.wiping then
    let p := s.fresh
    let s := p.2
    let s := { s with sec := { s.sec with wiping := false } }
    let s := if s.get F.SEC_XMSS_LEFT.LEFT = 0 then s
      else
        let r := s.signReport 2 (zeros 32) (511 - s.sec.wipeBad % 512) (Config.freeWord p.1).toNat
        { r.2 with sec := { r.2.sec with wipeProof := r.1 } }
    (s.set F.SEC_STATUS.WIPING 0).raise F.SEC_EVT.LC_CHANGE
  else s

/-- Does a return token release the step to RETURNED (R396)? -/
def State.returnOk (s : State) (t : List Byte) (sigOk : Bool) : Nat :=
  if !tokLayout 0x54455257 t || tokNat t 6 2 != 0 || tokNat t 0x38 1 != 0xFF || t.length != 0x80 + 2820 then resLength
  else if tokNat t 8 8 ≠ s.get64 A.ENG_UID then resUnit
  else if !s.answersChallenge t then resChallenge
  else if !sigOk then resSignature
  else 0

/-- LIFECYCLE (R395): the transitions of the table, every other with RESULT 4. -/
def State.lifecycle (s : State) (pf : Nat) (req : List Byte) (tokSigOk : Bool) (bad : Nat) : Answer :=
  let target := tokNat req 0 1
  let lc := s.lc
  if target = 5 ∧ lc = 4 then
    let r := if req.length < 4 ∨ !tokZero req 1 3 then resLength else s.returnOk (req.drop 4) tokSigOk
    let s := { s with sec := { s.sec with challenge := none } }
    if r = 0 then (s.lcChange 5).say 0 else s.say r
  else if 4 ≤ lc then s.say resState
  else if (s.rightCause pf (some rightSECURITY)).isSome then s.say resRight
  else if req.length ≠ 4 ∨ !tokZero req 1 3 then s.say resLength
  else if target = 2 ∧ (lc = 1 ∨ lc = 3) ∧ s.allVerify then
    let s := s.lcChange 2
    let s := { s with pwr := { s.pwr with maintAt := none } }
    (if s.opstate = opMAINT ∧ s.pwr.resumeAt.isNone ∧ s.pwr.prep.isNone then s.maintLeave 2 else s).pwrBusy.say 0
  else if target = 3 ∧ lc = 2 then (s.lcChange 3).say 0
  else if target = 4 ∧ (lc = 1 ∨ lc = 2 ∨ lc = 3) then (s.decommission bad).say 0
  else s.say resState

/-- LIFECYCLE. -/
def execLifecycle (pf : Fin 2) (w : Word) (tokSigOk : Bool) (bad : BitVec 9) (s : State) : Host.Outcome State Fault Refusal :=
  .next (s.secGo pf w 0x09 (fun t req => t.lifecycle pf req tokSigOk bad.toNat))

/-- WIPE_REPORT: the stored proof; without one RESULT 4. -/
def State.wipeReport (s : State) : Answer := if s.sec.wipeProof = [] then s.say resState else ⟨0, s.sec.wipeProof, s⟩

/-- WIPE_REPORT. -/
def execWipeReport (pf : Fin 2) (w : Word) (s : State) : Host.Outcome State Fault Refusal :=
  .next (s.secGo pf w 0x0B (fun t _ => t.wipeReport))

/-! ## Tamper (R399) -/

/-- TAMPER_SET: TAMP_N low for 10 ms (cause 0), or an excursion of supply, temperature or clock. -/
def execTamperSet (cause : Fin 4) (s : State) : Host.Outcome State Fault Refusal :=
  let s := if cause.val = 0 then s.set F.SEC_STATUS.TAMP_PIN 1 else s
  .next (s.tamperSet (2 ^ cause.val))

/-- TAMPER_CLEAR: refused with RESULT 12 while the pin is low; `pinHigh` says that TAMP_N has stood high for 10 ms. -/
def State.tamperClear (s : State) (pinHigh : Bool) : Answer :=
  if !pinHigh then (s.set F.SEC_STATUS.TAMP_PIN 1).say resTamper
  else
    let s := s.set F.SEC_STATUS.TAMP_PIN 0
    if s.flag F.SEC_STATUS.TAMPER then
      let mask := s.get F.SEC_STATUS.TCAUSE
      let s := ((s.set F.SEC_STATUS.TAMPER 0).set F.SEC_STATUS.TCAUSE 0).set F.ENG_STATE.TAMPER 0
      (s.lastResort 0x88 (leBytes 1 0 ++ leBytes 1 mask)).say 0
    else s.say 0

/-- TAMPER_CLEAR. -/
def execTamperClear (pf : Fin 2) (w : Word) (pinHigh : Bool) (s : State) : Host.Outcome State Fault Refusal :=
  .next (s.secGo pf w 0x0A (fun t _ =>
    if (t.rightCause pf (some rightSECURITY)).isSome then t.say resRight else t.tamperClear pinHigh))

/-! ## The service UART (R388, R439) -/

/-- A frame of the service UART around its payload: 0x7E, the length, the payload, the CRC-16 over all after 0x7E. -/
def uartFrame (payload : List Byte) : List Byte :=
  let b := leBytes 2 payload.length ++ payload
  0x7E :: b ++ leBytes 2 (crc16 b)

/-- The payload of a received frame that is well formed. -/
def uartPayload (fr : List Byte) : Option (List Byte) :=
  let p := (fr.drop 3).take (tokNat fr 1 2)
  if fr = uartFrame p ∧ p ≠ [] then some p else none

/-- What the island does with a command of the service UART. -/
def State.uartCommand (s : State) (cmd : Nat) (req : List Byte) (nonce : BitVec 256) (storeOk : Bool) : Answer :=
  if cmd = 0x01 then s.challenge nonce
  else if cmd = 0x04 then s.identity
  else if cmd = 0x0B then s.wipeReport
  else if cmd = 0x07 ∧ s.lc = 0 ∧ (List.range 4).all (fun k => s.get (F.SEC_KEY.STATE k) == 0) then
    let a := s.keyProgram req storeOk
    if a.res = 0 then ⟨0, [], a.st.lcChange 1⟩ else a
  else s.say resState

/-- A frame of the service UART is answered. -/
def State.uartRun (s : State) (fr : List Byte) (nonce : BitVec 256) (storeOk : Bool) : State :=
  match uartPayload fr with
  | some (c :: req) =>
    let a := s.uartCommand c.toNat req nonce storeOk
    let out := uartFrame (leBytes 1 a.res ++ a.rsp)
    ({ a.st with sec := { a.st.sec with uart := out } } : State).emit (.uart out)
  | _ => s

/-- SERVICE_UART_FRAME: a frame waits while a command runs. -/
def execServiceUartFrame (fr : List Byte) (nonce : BitVec 256) (storeOk : Bool) (s : State) : Host.Outcome State Fault Refusal :=
  if !s.islandRuns then .next s
  else if s.sec.mbox.isSome then .next { s with sec := { s.sec with uartWait := some (fr, nonce, storeOk) } }
  else .next (s.uartRun fr nonce storeOk)

/-! ## Completion (R382) -/

/-- MAILBOX_DONE: a wipe ends with its proof; the response and RESULT stand, BUSY clears, DONE is raised; then a waiting UART frame runs. -/
def execMailboxDone (s : State) : Host.Outcome State Fault Refusal :=
  match s.sec.mbox with
  | some m =>
    if !s.islandRuns then .next s
    else
      let s := s.wipeDone
      let s := (s.bufFill m.response).set F.SEC_LEN.RSP m.response.length
      let s := ((s.set F.SEC_CMD.RESULT m.result).set F.SEC_CMD.BUSY 0).raise F.SEC_EVT.DONE
      let up := if s.sec.upload.isSome && s.sec.uploadSix.isNone then some s.six else s.sec.uploadSix
      let w := s.sec.uartWait
      let s := { s with sec := { s.sec with mbox := none, respPf := some m.pf, respSix := s.six, uploadSix := up, uartWait := none } }
      .next (match w with
        | some (fr, nonce, ok) => s.uartRun fr nonce ok
        | none => s)
  | none => .next s

/-- MAILBOX_RESPONSE_EXPIRED (R382): after 10 s both functions read SEC_BUF as zero, until the next GO. -/
def execMailboxResponseExpired (s : State) : Host.Outcome State Fault Refusal :=
  .next (if s.sec.respPf.any (fun f => decide (f < 2)) && decide (s.sec.respSix + 10 * samplesPerSecond ≤ s.six) then
    { s with sec := { s.sec with respPf := some 2 } } else s)

end Sys2Proof.Machine
end

