-- ==== Sys2Proof/Machine/FpCheck.lean ====
section
/-!
DEFINITION. Machine/FpCheck.lean: the fast-path configuration: which fields it loads (R83, R109, R134, R204, R286, R307, R332, R350, R425),
what the engine refuses, and how one takes effect while the engine runs (R85, R97, R108, R132, R282, R342, R392).
-/
namespace Sys2Proof.Machine
open Sys2Proof

/-! ## Loading -/

/-- The bits of each register that a fast-path configuration sets. -/
def cfgMask : List (String × Nat) :=
  [("HJL_SPARE", 0x13F3F), ("HJL_P_CFG", 0x3FF007F), ("SFB_ALIGN", 0x7F), ("SFB_C_CFG", 0x1FF3F37), ("SFB_C_ACMASK", 0xFFFFFFFF),
   ("SFB_C_SVDLY", 0xFFFF), ("BIN_I_CFG", 0xFFFF001F), ("BIN_I_CHAT", 0xFFFFFF), ("BIN_I_TIME", 0xFFFFFFFF),
   ("INJ_R_TERM", 0xFFFFDF), ("INJ_R_CTRL", 0xFFFF3F0F), ("INJ_R_ACT", 0x3FFFFFF)] ++
  [("INJ_C_LA_TH", 0xFFFFFF), ("INJ_C_LB_TH", 0xFFFFFF), ("INJ_C_LA_CTL", 0xFFFFFF03), ("INJ_C_LB_CTL", 0xFFFFFF03),
   ("INJ_C_ROC_TH", 0x7FFFFF), ("INJ_C_ROC_CTL", 0xFF7F03), ("INJ_C_STEP_TH", 0xFFFFFFF), ("INJ_C_STEP_CTL", 0xFFFF1),
   ("INJ_D_CH", 0x1FFFFF), ("INJ_D_KZ", 0xFFFFFF), ("INJ_D_CTL", 0xFFFFF), ("INJ_D_BMIN", 0xFFFFFFF), ("INJ_G_CFG", 0x7FFFF),
   ("INJ_G_WIN", 0xFFF00FF), ("INJ_SCAP", 0x1FF), ("INJ_SCAP_POST", 0x3FFFF), ("INJ_GATE_STEM", 0xFFFFFFFF),
   ("INJ_GATE_INIT", 0xFFFFFFFFFFFFFFFF), ("INJ_T_CFG", 0xFFFFFFF3)] ++
  [("LFT_NSNAP", 0x3F), ("LFT_SLOW", 0x17FFF), ("LFT_BSIG", 0x17FFF), ("LFT_R_CTL", 0xFFFF0F1F), ("LFT_R_PRE", 0x7FFFFFFF),
   ("LFT_R_POST", 0x7FFFFFFF), ("LFT_R_FASTMASK", 0xFFFFFFFF), ("LFT_R_SLOWMASK", 0xFFFFFFFF), ("LFT_R_PVMASK", 0xFFFFFFFF),
   ("LFT_R_BINMASK", 0xFFFFFFFFFFFFFFFF), ("LFT_R_C_TERM", 0xFFFFF), ("LFT_R_C_COUNT", 0xF0FFFFFF),
   ("LFT_R_C_TIMEOUT", 0xFFFFFFFF), ("LFT_CMP_CTL", 0xFF0F), ("LFT_CMP_TH", 0xFFFFFFFF), ("LFT_CMP_HYST", 0xFFFFFF),
   ("LFT_H_CFG", 0x1FF7FF03), ("LFT_H_OFFSET", 0xFFFFFFFF)] ++
  [("CEL_PF_CFG", 0xFFF), ("CEL_PF_SNAP", 0xFFFFFF), ("CEL_PF_PER", 0xFFFFFFFF), ("CEL_PMAP", 0xFFFFFFFF), ("TIM_CFG", 0x7FF),
   ("TIM_THR", 0x3FFFFFFF), ("TIM_BAND", 0xFFFFFFFF), ("TIM_HOLD", 0xFFFF1FFF), ("TIM_PTP", 0xFFFF), ("TIM_E_LAT", 0xFFFFFFFF),
   ("TIM_E_ASYM", 0xFFFF), ("ETH_PAIR_CFG", 0xFFFF), ("ETH_PAIR_MAC", 0xFFFFFFFFFFFF), ("ETH_C_STAT", 0x7FFFF),
   ("UCH_C_CFG", 0xFFFF7FFF), ("UCH_C_CJ", 0x1FFFFFF), ("TSK_APPLY", 0xFFF), ("PWR_CFG", 0x373F)]

/-- The setting bits of the word at offset `a`. -/
def cfgBits (a : Nat) : Word :=
  match regAt a with
  | some (d, h) => BitVec.ofNat 32 (((cfgMask.lookup d.name).getD 0) / 2 ^ (32 * h))
  | none => 0

/-- Every setting field takes the configuration's value, or its Reset value where the configuration gives none. -/
def State.takeSettings (s : State) (c : FpConfig) : State :=
  (s.regs.map Prod.fst ++ c.regs.map Prod.fst).foldl
    (fun t a => t.wr a ((t.rd a &&& ~~~cfgBits a) ||| (kvGet resetWord c.regs a &&& cfgBits a))) s

/-- What SC0 to SC31 take whatever the configuration holds (R84). -/
def State.linkContexts (s : State) : State :=
  (List.range 32).foldl (fun t n =>
    let t := (t.set (F.SFB_C_CFG.KIND n) 1).set (F.SFB_C_CFG.NCH n) 8
    if t.get (F.HJL_P_CFG.ROLE n) = 0 then
      ((t.set (F.SFB_C_CFG.DCW n) 1).set (F.SFB_C_CFG.F0SEL n) 0).wr (A.SFB_C_ACMASK n) 0
    else t) s

/-- The settings of a configuration stand in the registers; it is the one in force. -/
def State.loadSettings (s : State) (c : FpConfig) : State :=
  let t := (s.takeSettings c).linkContexts
  ({ t with fp := c } : State).wr A.INJ_CFG_SEQ (BitVec.ofNat 32 c.version)

/-! ## What the engine refuses -/

/-- Is `x` within `lo` to `hi`? -/
def within (lo hi x : Nat) : Bool := decide (lo ≤ x) && decide (x ≤ hi)

/-- `p` holds of every number below `n`. -/
def upTo (n : Nat) (p : Nat → Bool) : Bool := (List.range n).all p

/-- An implication between checks. -/
def needs (a b : Bool) : Bool := !a || b

/-- Are ports `p` and `q` of one link kind? -/
def sameLinkKind (p q : Nat) : Bool := isSL p == isSL q && isCL p == isCL q

/-- Ports, the spare plan and the apply offset (R68, R79, R194, and the tables of HJL_Pp_CFG and HJL_SPAREn); `delay` is a port's one-way
delay in 0.125 ns where it is known. -/
def State.fpPorts (t : State) (delay : Nat → Option Nat) : Bool :=
  let ofs := t.get F.TSK_APPLY.APPLY_OFS
  upTo 44 (fun p =>
    let role := t.get (F.HJL_P_CFG.ROLE p)
    role != 3 && needs (role != 0) (t.get (F.HJL_P_CFG.TYPE p) != 0 && within 1 1000 (t.get (F.HJL_P_CFG.DEAD_MS p))) &&
    needs (role != 0 && t.get (F.HJL_P_CFG.TYPE p) == 2) ((delay p).all (fun d => decide (2 + (d + 3999) / 4000 + 3 ≤ ofs)))) &&
  upTo 8 (fun n =>
    let q := t.get (F.HJL_SPARE.SPARE_PORT n)
    let st := t.get (F.HJL_SPARE.STATION n)
    needs (t.flag (F.HJL_SPARE.EN n))
      (decide (q < 44) && decide (st < 44) && q != st && sameLinkKind q st && t.get (F.HJL_P_CFG.ROLE q) == 2 &&
       t.get (F.HJL_P_CFG.ROLE st) != 0)) &&
  within 5 4095 ofs

/-- The filter settings of a context. -/
def State.fpFilters (t : State) (n nch : Nat) : Bool :=
  let ac := (t.rd (A.SFB_C_ACMASK n)).toNat
  let f0 := t.get (F.SFB_C_CFG.F0SEL n)
  f0 != 3 && decide (ac < 2 ^ nch) && needs (f0 == 0) (ac == 0)

/-- Stream contexts and inputs (R37, R84, R104 to R108). -/
def State.fpFabric (t : State) (c : FpConfig) : Bool :=
  within 2 64 (t.get F.SFB_ALIGN.A) &&
  upTo 32 (fun n =>
    decide (t.kind n < 2) && (t.nch n == 0 || t.nch n == 8) &&
    needs (t.get (F.HJL_P_CFG.ROLE n) != 0) (within 1 400 (t.get (F.SFB_C_CFG.DCW n)) && t.fpFilters n 8)) &&
  upTo 224 (fun i =>
    let n := i + 32
    let k := t.kind n
    k != 7 && t.fpFilters n (t.nch n) && needs (k == 1) (t.nch n == 8) && needs (k == 2 || k == 3) (within 1 32 (t.nch n)) &&
    needs (k == 1 || k == 2) (within 1 400 (t.get (F.SFB_C_CFG.DCW n))) && needs (k == 2) (within 20 20000 (t.get (F.SFB_C_SVDLY.D n)))) &&
  decide (c.svSub.length + c.svPub.length + c.gooseSub.length + c.goosePub.length + c.peers.length ≤ 224) &&
  upTo 32 (fun i =>
    let pers := t.flag (F.BIN_I_CFG.PERS_EN i)
    needs (t.flag (F.BIN_I_CFG.PERS_BLOCK i)) pers && decide (t.get (F.BIN_I_CFG.DEB i) ≤ 40000) &&
    needs (t.flag (F.BIN_I_CFG.CHAT_EN i))
      (decide (2 ≤ t.get (F.BIN_I_CHAT.N i)) && within 1 60000 (t.get (F.BIN_I_CHAT.T_MS i)) &&
       within 1 3600 (t.get (F.BIN_I_TIME.HOLD_S i))) &&
    needs pers (t.get (F.BIN_I_TIME.PERS_S i) != 0))

/-- Is the element on that a fast-channel source names: 0 LA, 1 LB, 2 ROC, 3 STEP of channel `n` (R116)? -/
def State.elementOn (t : State) (n sel : Nat) : Bool :=
  if sel = 0 then t.get (F.INJ_C_LA_CTL.MODE n) != 0
  else if sel = 1 then t.get (F.INJ_C_LB_CTL.MODE n) != 0
  else if sel = 2 then t.get (F.INJ_C_ROC_CTL.MODE n) != 0
  else t.flag (F.INJ_C_STEP_CTL.EN n)

/-- A term of a rule: code, selection and index, and for a used term of an enabled rule an element that is on. -/
def State.fpTerm (t : State) (en : Bool) (m : Term) : Bool :=
  decide (m.src < 4) && needs (m.src == 2) (decide (m.sel < 2) && decide (m.index < 64)) && needs (m.src == 3) (m.sel == 0 && decide (m.index < 32)) &&
  needs (en && m.src == 1) (t.elementOn m.index m.sel) && needs (en && m.src == 2) (t.flag (F.INJ_D_CH.EN m.index))

/-- One rule (R116, R117, R122, R128). -/
def State.fpRule (t : State) (r : Nat) : Bool :=
  let en := t.flag (F.INJ_R_CTRL.EN r)
  upTo 8 (fun k => t.fpTerm en (termOf (t.rd (A.INJ_R_TERM r k)))) &&
  needs en (!(t.terms r).isEmpty && t.get (F.INJ_R_CTRL.DROPOUT r) != 0 &&
    (maskBits 8 (t.get (F.INJ_R_ACT.TDOMASK r))).all (fun n => t.get (F.INJ_T_CFG.TMIN n) != 0)) &&
  needs (t.get (F.INJ_R_ACT.CLMASK r) != 0) (within 1 9 (t.get (F.INJ_R_ACT.TARGET r))) &&
  needs (t.flag (F.INJ_R_ACT.CONJ r)) (t.flag (F.INJ_G_CFG.EN (t.get (F.INJ_R_ACT.CGRP r))))

/-- A level comparator's words. -/
def levelOk (mode pc th : Nat) : Bool := needs (mode != 0) (pc != 0) && needs (mode == 3) (within 1 0x7FFFFF th)

/-- The elements of one fast channel (R112 to R114). -/
def State.fpChan (t : State) (n : Nat) : Bool :=
  levelOk (t.get (F.INJ_C_LA_CTL.MODE n)) (t.get (F.INJ_C_LA_CTL.PC n)) (t.get (F.INJ_C_LA_TH.TH n)) &&
  levelOk (t.get (F.INJ_C_LB_CTL.MODE n)) (t.get (F.INJ_C_LB_CTL.PC n)) (t.get (F.INJ_C_LB_TH.TH n)) &&
  needs (t.get (F.INJ_C_ROC_CTL.MODE n) != 0)
    (within 1 64 (t.get (F.INJ_C_ROC_CTL.M n)) && t.get (F.INJ_C_ROC_CTL.PC n) != 0 && t.get (F.INJ_C_ROC_TH.TH n) != 0) &&
  needs (t.flag (F.INJ_C_STEP_CTL.EN n)) (t.get (F.INJ_C_STEP_CTL.HOLD n) != 0 && t.get (F.INJ_C_STEP_TH.TH n) != 0)

/-- One directional pair (R115). -/
def State.fpPair (t : State) (p : Nat) : Bool :=
  needs (t.flag (F.INJ_D_CH.EN p))
    (t.get (F.INJ_D_KZ.KZ p) != 0 && decide (0x11 ≤ t.get (F.INJ_D_CTL.RATIO p)) && t.get (F.INJ_D_CTL.HOLD p) != 0 &&
     t.get (F.INJ_D_BMIN.BMIN p) != 0)

/-- One conjunction group (R128). -/
def State.fpGroup (t : State) (g : Nat) : Bool :=
  let k := t.get (F.INJ_G_CFG.K g)
  needs (t.flag (F.INJ_G_CFG.EN g))
    (within 1 (1 + popCount 4 (t.get (F.INJ_G_CFG.PEERMASK g))) k && within 1 k (t.get (F.INJ_G_CFG.KMIN g)) &&
     t.get (F.INJ_G_WIN.VWAIT g) != 0 &&
     upTo g (fun h => !(t.flag (F.INJ_G_CFG.EN h) && t.get (F.INJ_G_CFG.WIRE h) == t.get (F.INJ_G_CFG.WIRE g))))

/-- The interjection unit (R112 to R134). -/
def State.fpInj (t : State) : Bool :=
  upTo 128 t.fpRule && upTo 256 t.fpChan && upTo 64 t.fpPair && upTo 16 t.fpGroup && decide (t.get F.INJ_SCAP_POST.POST ≤ 131072) &&
  upTo 64 (fun g => fieldOf (t.rd (A.INJ_GATE_STEM (g / 16))) (2 * (g % 16)) 2 != 3) &&
  upTo 8 (fun n => needs (t.flag (F.INJ_T_CFG.RB_EN n)) (decide (2 ≤ t.get (F.INJ_T_CFG.RB_T n))))

/-- A Loft source: code and index of R262; the element or pair that a used one names is on (R116). -/
def State.fpSource (t : State) (used : Bool) (src idx : Nat) : Bool :=
  decide (src < 13) && needs used (decide (idx < [2048, 1024, 128, 128, 128, 16, 32, 64, 64, 16, 8, 1, 64].getD src 0)) &&
  needs (used && src == 1) (t.elementOn (idx / 4) (idx % 4)) && needs (used && src == 2) (t.flag (F.INJ_D_CH.EN (idx / 2)))

/-- Bits set in a mask of `n` words. -/
def State.maskCount (t : State) (a : Nat → Nat) (n : Nat) : Nat := ((List.range n).map (fun i => popCount 32 (t.rd (a i)).toNat)).sum

/-- One recipe with its clauses (R260, R262). -/
def State.fpRecipe (t : State) (r : Nat) : Bool :=
  let en := t.flag (F.LFT_R_CTL.EN r)
  let last := t.get (F.LFT_R_CTL.LAST r)
  needs (t.flag (F.LFT_R_CTL.REPLAY r)) (t.get (F.LFT_R_CTL.PART r) != 3) && needs en (last != 0) &&
  decide (t.get (F.LFT_R_PRE.LEN r) ≤ 16646144) && decide (t.get (F.LFT_R_POST.LEN r) ≤ 1200000000) &&
  needs en (t.get (F.LFT_R_POST.LEN r) != 0) && decide (t.maskCount (A.LFT_R_PVMASK r) 8 ≤ 64) &&
  decide (popCount 64 (t.get64 (A.LFT_R_BINMASK r)) ≤ 32) &&
  upTo 16 (fun c =>
    let ms := t.lTerms r c
    ms.all (fun m => t.fpSource (en && decide (c < last) && m.src != 0) m.src m.index && decide (m.target ≤ last)) &&
    needs (ms.any (fun m => m.src != 0)) (t.get (F.LFT_R_C_COUNT.COUNT r c) != 0) && decide (t.get (F.LFT_R_C_COUNT.TO_TARGET r c) ≤ last))

/-- The Loft (R257, R260 to R264, R274). -/
def State.fpLoft (t : State) : Bool :=
  within 1 50 (t.get F.LFT_NSNAP.NSNAP) &&
  upTo 256 (fun j =>
    let n := t.get (F.LFT_SLOW.CTX j)
    needs (t.flag (F.LFT_SLOW.EN j)) ((t.kind n == 1 || t.kind n == 2) && decide (t.get (F.LFT_SLOW.CH j) < t.nch n))) &&
  upTo 64 (fun k =>
    let src := t.get (F.LFT_BSIG.SRC k)
    let en := t.flag (F.LFT_BSIG.EN k)
    t.fpSource en src (t.get (F.LFT_BSIG.INDEX k)) && needs en (src != 0)) &&
  upTo 8 t.fpRecipe &&
  upTo 64 (fun i =>
    let mode := t.get (F.LFT_CMP_CTL.MODE i)
    mode != 3 && needs (t.get (F.LFT_CMP_CTL.KIND i) != 0 && mode == 2) (within 1 0x7FFFFFFF (t.get (F.LFT_CMP_TH.VALUE i)))) &&
  upTo 16 (fun u => t.get (F.LFT_H_CFG.KIND u) != 3)

/-- Profiles of the Cellar and the map of codes (R296, R298). -/
def State.fpCellar (t : State) : Bool :=
  let slots := fun p => List.range (t.get (F.CEL_PF_CFG.SNAPN p))
  upTo 16 (fun p =>
    needs (p != 0) (t.get (F.CEL_PF_CFG.BURST p) != 0 && t.get (F.CEL_PF_PER.PERIOD p) != 0) && decide (t.get (F.CEL_PF_CFG.SNAPN p) ≤ 8) &&
    upTo 8 (fun k => t.get (F.CEL_PF_SNAP.KIND p k) != 3) && (slots p).all (fun k => t.get (F.CEL_PF_SNAP.KIND p k) != 0 &&
      needs (t.get (F.CEL_PF_SNAP.KIND p k) == 2) (decide (t.get (F.CEL_PF_SNAP.WORD p k) < 0x200000)))) &&
  upTo 2048 (fun i =>
    let p := t.get (F.CEL_PMAP.PROF ((i + 2048) / 8) ((i + 2048) % 8))
    p != 0 && (slots p).all (fun k => t.get (F.CEL_PF_SNAP.KIND p k) != 1))

/-- The time unit (R311, R315, R318, R325, R332). -/
def State.fpTime (t : State) : Bool :=
  let src := t.get F.TIM_CFG.SRC
  let back := t.get F.TIM_CFG.BACKUP
  src != 3 && back != 3 && needs (src != 0) (back != src) && t.get F.TIM_CFG.PPS_MODE != 3 &&
  upTo 2 (fun p => needs (bit (t.get F.TIM_CFG.TC_EN) p) (t.ethMode p == 2)) && within 100 1000000000 (t.get F.TIM_THR.STEP_THR) &&
  within 20 (t.get F.TIM_THR.STEP_THR) (t.get F.TIM_BAND.SLEW_BAND) && decide (50 ≤ t.get F.TIM_BAND.ASYM_LIM) &&
  within 1 7200 (t.get F.TIM_HOLD.HOLD_MAX) && decide (8 ≤ t.get F.TIM_HOLD.TAU) && within 2 10 (t.get F.TIM_PTP.ANN_TO) &&
  decide ((signed 4 (t.get F.TIM_PTP.LOG_PD)).natAbs ≤ 4)

/-- A dataset member's type is one of R341. -/
def memberOk : MemType → Bool
  | .bits n => within 1 32 n
  | _ => true

/-- A rate, ASDU count and channel count of R344 and R345. -/
def streamOk (rate asdus channels : Nat) : Bool :=
  [4000, 4800, 12800, 14400, 96000].contains rate && within 1 8 asdus && within 1 32 channels

/-- Subscribed frames per 840 seconds on a pair (R344). -/
def State.frameRate (t : State) (c : FpConfig) (pair : Nat) : Nat :=
  ((c.svSub.filter (fun e => t.kind e.1 == 2 && t.get (F.ETH_C_STAT.PAIR e.1) == pair)).map (fun e => e.2.rate * 840 / e.2.asdus)).sum

/-- The Ethernet block (R333, R341, R342, R344, R345): every context of a kind that the block serves has its stream. -/
def State.fpEth (t : State) (c : FpConfig) : Bool :=
  upTo 2 (fun p =>
    let speed := t.get (F.ETH_PAIR_CFG.SPEED p)
    t.ethMode p != 3 && needs (t.ethMode p != 0) (within 1 2 speed) && t.get (F.ETH_PAIR_CFG.VID p) != 4095 && !isGroupMac (t.pairMac p) &&
    needs (t.ethMode p != 0) (decide (t.frameRate c p ≤ 840 * (if speed = 2 then 2000000 else 400000)))) &&
  upTo 224 (fun i =>
    let n := i + 32
    let k := t.kind n
    needs (k == 2) ((c.svSub.lookup n).any (fun x => streamOk x.rate x.asdus (t.nch n))) &&
    needs (k == 3) ((c.svPub.lookup n).any (fun x => streamOk x.rate x.asdus x.sources.length && x.sources.length == t.nch n)) &&
    needs (k == 4) ((c.gooseSub.lookup n).any (fun x => decide (x.members.length ≤ 64) && x.members.all memberOk)) &&
    needs (k == 5) ((c.goosePub.lookup n).any (fun x =>
      decide (x.members.length ≤ 64) && x.members.all (fun m => memberOk m.1) && within 1 1000 x.tmin && within 1000 60000 x.tmax &&
      decide (2 * x.tmin ≤ x.tmax))) &&
    needs (k == 6) (c.peers.lookup n).isSome)

/-- One universal channel (R352 to R356, R365, R369). -/
def State.fpUch (t : State) (n : Nat) : Bool :=
  let mode := t.uchMode n
  let nint := t.get (F.UCH_C_CFG.NINT n)
  let cper := t.get (F.UCH_C_CFG.CPER n)
  let cj := signed 24 (t.get (F.UCH_C_CJ.CJFIX n))
  decide (mode ≤ 8) && decide (t.get (F.UCH_C_CFG.RANGE n) ≤ [0, 0, 1, 1, 1, 6, 0, 0, 0].getD mode 0) && nint != 3 &&
  t.get (F.UCH_C_CFG.WIRES n) != 3 && needs (t.flag (F.UCH_C_CFG.HART_EN n)) (mode == 2 || mode == 6) && t.get (F.UCH_C_CFG.ALMSRC n) != 3 &&
  (cper == 0 || decide ((900 + nintSamples nint + 99) / 100 ≤ cper)) && needs (mode == 6) (cper != 0) && needs (mode == 7) (cper == 0) &&
  decide (-40000 ≤ cj) && decide (cj ≤ 105000)

/-- The engine accepts a configuration: every rule that makes it refuse one, on the registers as they would stand. -/
def fpAccepts (delay : Nat → Option Nat) (c : FpConfig) : Bool :=
  let raw := State.reset.takeSettings c
  let t := raw.linkContexts
  raw.fpFabric c && t.fpPorts delay && t.fpInj && t.fpLoft && t.fpCellar && t.fpTime && t.fpEth c && upTo 16 t.fpUch &&
  decide (t.get F.PWR_CFG.RIDE_MS ≤ 50)

/-- The engine accepts configuration `c` now, with the delays of its ports. -/
def State.fpOk (s : State) (c : FpConfig) : Bool :=
  fpAccepts (fun p => if s.delayOk p s.six then some (s.get (F.HJL_P_DELAY.D p)) else none) c

/-! ## Taking effect (R392) -/

/-- Does the word at one of these offsets differ between two states? -/
def State.differs (s t : State) (l : List Nat) : Bool := l.any (fun a => s.rd a != t.rd a)

/-- Setting words of an element, a pair, a group, a rule. -/
def groupWords (g : Nat) : List Nat := [A.INJ_G_CFG g, A.INJ_G_WIN g]

/-- The settings of the unit count from now, h, on; those of `o` count for earlier SIX that are still to be evaluated (R132). Elements, pairs
and rules whose settings change restart where their evaluation reaches h: at once for those that have passed it, or that were off before.
Groups whose settings change restart. -/
def State.injRestart (s o : State) : State :=
  let h := s.six
  let s := { s with inj := { s.inj with since := h, oldRegs := o.regs } }
  let s := (List.range 256).foldl (fun t n => if h < (t.chan n).next then t.setChan n (t.chanFrom n h) else t) s
  let s := (List.range 64).foldl (fun t p =>
    if !o.flag (F.INJ_D_CH.EN p) then t.setPair p { PairSt.reset with next := h, outs := (t.pair p).outs }
    else if h < (t.pair p).next then t.setPair p (t.pairFrom p h) else t) s
  let s := (List.range 16).foldl (fun t g => if o.differs t (groupWords g) then t.restartGroup g else t) s
  (List.range 128).foldl (fun t r =>
    if !o.flag (F.INJ_R_CTRL.EN r) then (t.restartRule r false).setRule r { RuleSt.reset with next := h, outs := (t.rule r).outs }
    else if h < (t.rule r).next then t.setRule r (t.ruleFrom r h) else t) s

/-- What settles in context `n` between the settings of `o` and now (R97): bit 0 decimated, 1 DC, 2 phasors. -/
def State.settleMask (s o : State) (n : Nat) : Nat :=
  if s.kind n != o.kind n || s.nch n != o.nch n || o.differs s [A.SFB_C_SVDLY n] || s.fp.svSub.lookup n != o.fp.svSub.lookup n then 7
  else
    (if s.get (F.SFB_C_CFG.DCW n) != o.get (F.SFB_C_CFG.DCW n) then 2 else 0) +
    (if s.get (F.SFB_C_CFG.F0SEL n) != o.get (F.SFB_C_CFG.F0SEL n) || o.differs s [A.SFB_C_ACMASK n] then 4 else 0)

/-- Stream contexts after a change from the settings of `o` (R85, R86, R97). -/
def State.ctxRestart (s o : State) : State :=
  (List.range 256).foldl (fun t n =>
    let t := if t.kind n != o.kind n || t.fp.gooseSub.lookup n != o.fp.gooseSub.lookup n || t.fp.peers.lookup n != o.fp.peers.lookup n
      then t.ctxAnew n else t
    let m := t.settleMask o n
    if m = 0 then t
    else
      let x := t.ctx n
      let old : CtxOld := ⟨t.six, o.rd (A.SFB_C_CFG n), o.rd (A.SFB_C_ACMASK n), o.rd (A.SFB_C_SVDLY n), o.fp.svSub.lookup n, (o.ctx n).sv⟩
      let sv := if t.fp.svSub.lookup n == o.fp.svSub.lookup n then x.sv else []
      (t.setCtx n { x with old := some old, sv := sv }).settle n t.six m) s

/-- Inputs whose settings changed restart (R108), from the level after the new polarity. -/
def State.inputsRestart (s o : State) : State :=
  (List.range 32).foldl (fun t n =>
    if o.differs t [A.BIN_I_CFG n, A.BIN_I_CHAT n, A.BIN_I_TIME n] then
      let flip := o.flag (F.BIN_I_CFG.ACTIVE_LOW n) != t.flag (F.BIN_I_CFG.ACTIVE_LOW n)
      (t.setBinIn n { t.binIn n with runLevel := xor (t.binIn n).runLevel flip }).binRestart n
    else t) s

/-- Universal channels whose settings changed (R351, R359). -/
def State.channelsRestart (s o : State) : State :=
  (List.range 16).foldl (fun t n =>
    if t.uchOn && o.differs t [A.UCH_C_CFG n, A.UCH_C_CJ n] then
      let mode := t.uchMode n != o.uchMode n
      let same := t.get (F.UCH_C_CFG.RANGE n) == o.get (F.UCH_C_CFG.RANGE n) && t.get (F.UCH_C_CFG.NINT n) == o.get (F.UCH_C_CFG.NINT n) &&
        t.get (F.UCH_C_CFG.WIRES n) == o.get (F.UCH_C_CFG.WIRES n)
      t.uchReconfigure n t.six (mode || !same) mode
    else t) s

/-- Setting words of a recipe and its clauses. -/
def recipeWords (r : Nat) : List Nat :=
  [A.LFT_R_CTL r, A.LFT_R_PRE r, A.LFT_R_POST r, A.LFT_R_BINMASK r, A.LFT_R_BINMASK r + 4] ++
  ((List.range 8).map (fun w => [A.LFT_R_FASTMASK r w, A.LFT_R_SLOWMASK r w, A.LFT_R_PVMASK r w])).flatten ++
  ((List.range 16).map (fun c => (List.range 4).map (A.LFT_R_C_TERM r c) ++ [A.LFT_R_C_COUNT r c, A.LFT_R_C_TIMEOUT r c])).flatten

/-- Does the open record use a slow-set or binary-set entry that changed (R282)? -/
def State.recordDiffers (s o : State) (d : LftRec) : Bool :=
  d.slows.any (fun j => o.differs s [A.LFT_SLOW j]) || d.bins.any (fun k => o.differs s [A.LFT_BSIG k])

/-- A record that uses a changed entry takes a gap of cause 6 from this SIX to END, and closes once its lines before are extracted (R282). -/
def State.recordClose (s : State) (r : Nat) (d : LftRec) : State :=
  if s.six ≤ d.fin then (s.addGap r d.recno ⟨s.six, d.fin + 1 - s.six, allChans, 6⟩).modRec d.recno (fun y => { y with stop := some s.six }) else s

/-- The Loft after a change from the settings of `o` (R282). -/
def State.loftRestart (s o : State) : State :=
  let s := (List.range 64).foldl (fun t i => if o.get (F.LFT_CMP_CTL.KIND i) != t.get (F.LFT_CMP_CTL.KIND i) ||
      o.get (F.LFT_CMP_CTL.MODE i) != t.get (F.LFT_CMP_CTL.MODE i) || o.get (F.LFT_CMP_CTL.INDEX i) != t.get (F.LFT_CMP_CTL.INDEX i) ||
      o.differs t [A.LFT_CMP_TH i, A.LFT_CMP_HYST i] then t.setCmp i { CmpSt.reset with next := t.six, outs := (t.cmp i).outs } else t) s
  (List.range 8).foldl (fun t r =>
    let closing := (t.openRec r).any (fun d => d.stop.isNone && t.recordDiffers o d)
    let t := match t.openRec r with
      | some d => if closing then t.recordClose r d else t
      | none => t
    if closing || o.differs t (recipeWords r) then t.restartSentence r t.six else t) s

/-- The verified configuration takes effect now (R132, R392). -/
def State.fpApply (s : State) (c : FpConfig) : State :=
  let old := s.srcData
  let t := s.loadSettings c
  let t := ((t.injRestart s).ctxRestart s).inputsRestart s
  let t := (t.channelsRestart s).loftRestart s
  let t := if t.ethOn then t.gooseRestart else t
  t.timConfig old

/-- The slot of the fast-path kind that holds image `x`, the newer first. -/
def State.slotWith (s : State) (x : Image) : Nat :=
  let n := slotOf 2 (kvGet (fun _ => 0) s.sec.newer 1)
  if s.slotImage n = some x then n else slotOf 2 (1 - kvGet (fun _ => 0) s.sec.newer 1)

/-- The hyperboundary at which an installed configuration takes effect, once it has been installed. -/
def State.fpDue (s : State) : Bool :=
  s.sec.uploadSix.any (fun k => decide (boundaryAt hyperPeriod (k + 200) ≤ s.six)) && s.six % hyperPeriod == 0 &&
  (s.opstate == opSERVICE || s.opstate == opMAINT)

/-- FASTPATH_CONFIG_EFFECT (R132, R392): one that the engine refuses leaves everything as it is. -/
def execFastpathConfigEffect (s : State) : Host.Outcome State Fault Refusal :=
  match s.sec.upload with
  | some x =>
    if s.fpDue then
      let t := { s with sec := { s.sec with upload := none, uploadSix := none } }
      .next (match x.body with
        | .fastPath c => if s.fpOk c then (t.fpApply c).runImage (s.slotWith x) x else t
        | _ => t)
    else .next s
  | none => .next s

end Sys2Proof.Machine
end

