-- ==== Sys2Proof/Machine/Scrub.lean ====
section
/-!
DEFINITION. Machine/Scrub.lean: memory errors and the scrubber (R223, R224).
-/
namespace Sys2Proof.Machine
open Sys2Proof

/-- Corrections of memory `m` within the running pass. -/
def State.eccIn (s : State) (m : Nat) : Nat := kvGet (fun _ => 0) s.ecc m

def State.setEcc (s : State) (m n : Nat) : State := { s with ecc := kvPut (fun _ => 0) s.ecc m n }

/-- A corrected error of memory `m`: it is counted, and the sixteenth of a pass raises CE_STORM (R224); staging, memories 8 to 11, has no pass. -/
def State.eccCorrected (s : State) (m : Nat) : State :=
  let n := s.eccIn m + 1
  let s := (s.bump (F.MPU_ECC_CNT.CE m)).setEcc m n
  if n = 16 ∧ ¬(8 ≤ m ∧ m < 12) then (s.raise F.MPU_EVT.CE_STORM).logNamed "CE_STORM" (leBytes 1 m) else s

/-- An uncorrectable error of the STEM capture buffer: the sample reads code 0 with quality 0x04. -/
def State.scapLose (s : State) (slot pos : Nat) : State :=
  let line := kvPut (fun _ => 0) (kvGet (fun _ => []) s.inj.scap slot) pos (qMISSING * 2 ^ 24)
  { s with inj := { s.inj with scap := kvPut (fun _ => []) s.inj.scap slot line } }

/-- What an uncorrectable error does (the last column of R223): memories 0 to 11 belong to the lanes, 12 is common SRAM, 13 DRAM. -/
def State.eccUncorr (s : State) (m : Nat) (place : ErrPlace) : State :=
  if m < 12 then s.laneFail (m % 4) (2 + m / 4)
  else if m < 14 then s.stemCause stemMEM
  else match place with
    | .config true => s.haltEnter haltFP
    | .scap slot pos => if slot < 32 ∧ pos < scapDepth then s.scapLose slot pos else s
    | .pantry n => if n < 2 then s.setPan n none else s
    | _ => s

/-- An error of memory `m` at a byte address (R223): counted, its address kept, corrected or acted on. -/
def State.eccError (s : State) (m addr : Nat) (uncorr : Bool) (place : ErrPlace) : State :=
  if uncorr then (s.ueCount m addr).eccUncorr m place
  else (s.wr (A.MPU_ECC_ADDR m) (BitVec.ofNat 32 (if m = 13 then addr / 8 else addr))).eccCorrected m

/-- SCRUB_ERROR (R223); in the Cellar's banks the Cellar repairs or loses the slot. -/
def execScrubError (m : Fin 16) (addr : BitVec 34) (uncorr : Bool) (place : ErrPlace) (s : State) : Host.Outcome State Fault Refusal :=
  match place with
  | .cellar i a b q w => .next (s.celBad i a b q w)
  | p => .next (s.eccError m addr.toNat uncorr p)

/-- SCRUB_PASS_DONE (R223, R224): staging has no scrub pass. -/
def execScrubPassDone (m : Fin 16) (s : State) : Host.Outcome State Fault Refusal :=
  if 8 ≤ m.val ∧ m.val < 12 then .next s
  else .next ((s.bump ⟨A.MPU_ECC_PASS m, 0, 32⟩).setEcc m 0)

end Sys2Proof.Machine
end

