-- ==== Sys2Proof/Machine/Start.lean ====
section
/-!
DEFINITION. Machine/Start.lean: cold start and warm reset (R403, R411 to R417, R436), the arming of the fast path, the first SIX (R24, R25), and
the restart of the lanes at a hyperboundary (R420).
-/
namespace Sys2Proof.Machine
open Sys2Proof

/-! ## What a start keeps (R415) -/

/-- Registers of which a cold start keeps the whole word. -/
def coldWords : List Nat :=
  [A.ENG_UID, A.ENG_UID + 4, A.SEC_KEY 0, A.SEC_KEY 1, A.SEC_KEY 2, A.SEC_KEY 3, A.SEC_XMSS_LEFT, A.SEC_TAMPER, A.LFT_ARC_WR, A.LFT_ARC_WR + 4] ++
  (List.range 16).map A.CEL_LASTW

/-- Fields that a cold start keeps of other registers. -/
def coldFields : List Field :=
  [F.SEC_STATUS.LC, F.SEC_STATUS.TAMPER, F.SEC_STATUS.TAMP_PIN, F.SEC_STATUS.TCAUSE, F.SEC_STATUS.WIPING, F.ENG_STATE.LC, F.ENG_STATE.TAMPER,
   F.SEC_SVN.COUNTER 0, F.SEC_SVN.COUNTER 1, F.SEC_SVN.COUNTER 2]

/-- Does a warm reset keep the register at `a`: the time unit, the Cellar, the island, and what counts since cold start? -/
def warmKeeps (a : Nat) : Bool :=
  let o := a % 0x1000000
  (decide (0x20000 ≤ o) && decide (o < 0x30000)) || (decide (0xB0000 ≤ o) && decide (o < 0xC0000)) ||
  (decide (0xE0000 ≤ o) && decide (o < 0xF0000)) || coldWords.contains o || isInst (A.MPU_ECC_PASS 0) 16 16 o ||
  isInst (A.LFT_R_DEAD_MAX 0) 256 8 o || isInst (A.LFT_R_DEAD_MAX 0 + 4) 256 8 o ||
  [A.PWR_RST, A.PWR_TEMP, A.PWR_SUPPLY, A.PWR_DOM, A.CLK_STATUS, A.OLC_VC_INFO].contains o

/-- Fields that a warm reset keeps of other registers. -/
def warmFields : List Field := [F.ENG_STATE.LC, F.ENG_STATE.TAMPER, F.ENG_STATE.CELLAR_MUTE, F.PWR_STATE.HOLDUP]

/-- `t` with words and fields as they stand in `s`. -/
def State.keeping (t s : State) (words : List Nat) (fields : List Field) : State :=
  fields.foldl (fun u f => u.set f (s.get f)) (words.foldl (fun u a => u.wr a (s.rd a)) t)

/-- The Loft's archive, its record counter and the marks of its wear; records still open are cut (R282). -/
def State.keptLoft (s : State) : LftSt :=
  let u := s.cutOpen
  { State.reset.lft with arc := u.lft.arc, nextNo := u.lft.nextNo, wr := u.lft.wr }

/-- Flash, the Pantry's MRAM and the host's own memory stand. -/
def State.keptMem (s : State) : KV (KV Byte) := s.mem.filter (fun e => e.1 == spFlash || e.1 == spHost || e.1 == spMRAM)

/-- What the island keeps at a cold start: fuses, keys, counters, images, the proof of a wipe, incarnations (R64, R415); commands, challenges
and the session end. -/
def SecSt.afterPower (x : SecSt) : SecSt :=
  { State.reset.sec with
    vendor0Revoked := x.vendor0Revoked, keyBytes := x.keyBytes, slots := x.slots, newer := x.newer, chalSeq := x.chalSeq,
    xmssIndex := x.xmssIndex, attests := x.attests, wipeProof := x.wipeProof, wiping := x.wiping, wipeBad := x.wipeBad,
    incarnation := x.incarnation, opCopy := x.opCopy }

/-- What the Cellar keeps at a cold start: the banks and, while the cell has served P0, its counters and the last word; without them the island's
copies (R459). The power-cycle count advances. -/
def State.keptCel (s : State) (p0 : Bool) : CelSt :=
  let x := s.cel
  let c := if p0 then (x.opsec, x.pcc) else s.sec.opCopy
  { State.reset.cel with
    bankA := x.bankA, bankB := x.bankB, failA := x.failA, failB := x.failB, seqP0 := if p0 then x.seqP0 else x.seqBlock, seqBlock := x.seqBlock,
    opsec := c.1, opfrac := if p0 then x.opfrac else 0, pcc := min (c.2 + 1) 16777215, lastWord := if p0 then x.lastWord else [] }

/-- The island copies OPSEC and the power-cycle count (R459). -/
def State.copyOps (s : State) : State := { s with sec := { s.sec with opCopy := (s.cel.opsec, s.cel.pcc) } }

/-- SUPPLY_WARN, VMAIN and the rail as the hold-up store starts to charge. -/
def State.freshSupply (s : State) (vmain : Nat) : State := (s.set F.PWR_STATE.HOLDUP 0).supplyIs vmain 0

/-- Step 1 of a cold start (R411): everything at reset but what R415 keeps; P0, P1 and P2 are on. -/
def State.coldBase (s : State) (b : Boot) : State :=
  let t := { State.reset with
    clk := { State.reset.clk with free := s.clk.free }, cel := s.keptCel b.p0, sec := s.sec.afterPower, mem := s.keptMem, lft := s.keptLoft,
    outbox := s.outbox, pending := s.pending, pwr := { PwrSt.reset with startup := true, rstLow := s.pwr.rstLow } }
  let t := ((t.keeping s coldWords coldFields).set F.PWR_DOM.ON 7).freshSupply b.vmain
  let t := { t with cel := { t.cel with rtcNs := b.rtc } }
  let t := if b.p0 then t else (t.setLastWord []).tamperSet 2
  let t := if lastWordOk t.cel.lastWord then t.mutePin true else t
  t.arcRegs.panRegs.copyOps

/-- Every clock runs (R404). -/
def State.clocksRun (s : State) : State := (s.set F.CLK_STATUS.OK 0xFFF).set F.CLK_STATUS.OCXO_OK 1

/-! ## Steps 3 to 5 (R411, R412) -/

/-- A start stands in HALT with cause `c`: P9 and the PCIe endpoint stay on (R403). -/
def State.startHalt (s : State) (c : Nat) : State :=
  let s := s.set (bitField F.PWR_STATE.HALT_CAUSE.addr (F.PWR_STATE.HALT_CAUSE.lo + c)) 1
  let s := s.log 5 3 (leBytes 1 (s.get F.PWR_STATE.HALT_CAUSE) ++ leBytes 1 (s.get F.PWR_STATE.STEM_CAUSE))
  (s.setOp opHALT (s.get F.PWR_STATE.PHASE)).set F.PWR_DOM.ON domStart

/-- RESULT for the newer slot of a kind, 7 where it holds no image. -/
def State.newerResult (s : State) (kind : Nat) : Nat :=
  ((s.slotImage (slotOf kind (kvGet (fun _ => 0) s.sec.newer (kind - 1)))).map s.verifyResult).getD resUnit

/-- The fast-path configurations that verify and that the engine accepts, the newer slot first. -/
def State.startConfigs (s : State) : List (Nat × Image × FpConfig) :=
  (s.verified 2).filterMap (fun e => match e.2.body with
    | .fastPath c => if s.fpOk c then some (e.1, e.2, c) else none
    | _ => none)

/-- The first SIX (R24). -/
def sixStart (rtc : Nat) (last : Option Nat) : Nat :=
  match last with
  | some l => if rtc / 500 < l + samplesPerSecond then l + samplesPerSecond else rtc / 500
  | none => rtc / 500

/-- OPSEC counts `n` samples of time with VMAIN good (R289); the island copies it every hour (R459). -/
def State.opsecAdd (s : State) (n : Nat) : State :=
  let m := s.cel.opfrac + n
  let secs := min (s.cel.opsec + m / samplesPerSecond) (2 ^ 40 - 1)
  let t := { s with cel := { s.cel with opfrac := m % samplesPerSecond, opsec := secs } }
  if s.cel.opsec / 3600 < secs / 3600 then t.copyOps else t

/-- SIX starts at cold start, with the offset of R25 and epoch 0; the time since VMAIN became good counts in OPSEC. -/
def State.startSix (s : State) (b : Boot) : State :=
  if s.clk.running then s
  else
    let k := sixStart b.rtc s.celLastSix
    let off : Int := (b.rtc : Int) - k * 500
    let c := { s.clk with six := k, running := true, maps := [⟨k, off, 0, false⟩] }
    let s := ({ s with clk := c, cel := { s.cel with rtcNs := b.rtc }, tim := { s.tim with rtcSix := k } } : State).opsecAdd b.age
    (s.set64 A.TIM_OFFSET (unsigned 64 off)).set F.TIM_STATUS.EPOCH 0

/-- Step 5: SIX and the time unit run, the ports send STROBE, the Cellar is ready; a cold start writes COLD_START. -/
def State.startStep5 (s : State) (b : Boot) (deadline : Nat) : State :=
  let s := s.startSix b
  let s := if s.pwr.kept then s
    else s.celStart.log 1 1 (leBytes 4 s.cel.pcc ++ leBytes 2 b.vmain)
  ({ s with pwr := { s.pwr with armBy := some (s.six + deadline) } } : State).setPhase 1

/-- Steps 3 to 5: firmware, life cycle, fast-path configuration, first SIX. `deadline` is the number of samples until the fast path arms at the
latest. -/
def State.startSteps (s : State) (b : Boot) (deadline : Nat) : State :=
  let s := (s.latchStraps b.almsel.toNat).set F.PWR_DOM.ON domAll
  match s.verified 1 with
  | [] =>
    let s := if s.pwr.kept then s else s.celStart
    (s.log 0x10 3 (leBytes 1 3 ++ leBytes 1 (s.newerResult 1))).startHalt haltFW
  | (i, x) :: _ =>
    let s := s.runImage i x
    let s := match x.body with
      | .firmware v => s.wr A.ENG_FWVER v
      | _ => s
    if s.lc ≠ 2 ∧ s.lc ≠ 3 then (if s.pwr.kept then s else s.celStart).startHalt haltLC
    else match s.startConfigs with
      | (j, y, c) :: _ =>
        if b.p2Bad then (s.startStep5 b deadline).startHalt haltFP
        else (((s.loadSettings c).runImage j y).set F.INJ_STATUS.CFG_VALID 1).startStep5 b deadline
      | [] => (s.startStep5 b deadline).startHalt haltFP

/-- A wipe that a loss of power interrupted is carried out again first (R397). -/
def State.resumeWipe (s : State) : State := if s.sec.wiping then s.wipeStores.wipeDone else s

/-- Contexts stand as the configuration gives their kinds (R86). -/
def State.armContexts (s : State) : State :=
  (List.range 256).foldl (fun t n => if t.kind n = 0 then t else t.ctxAnew n) s

/-- Inputs of a start that stands in HALT do not arm. -/
def State.startSettled (s : State) : State :=
  let s := s.armContexts
  if s.get F.PWR_STATE.HALT_CAUSE = 0 then s else { s with pwr := { s.pwr with armBy := none } }

/-- Steps 2 to 5 of a cold start. -/
def State.coldRun (s : State) (b : Boot) : State :=
  let s := (s.clocksRun.celScan b.okA b.okB b.p0 b.torn).resumeWipe
  (s.startSteps b (150 * 2000 - min b.age (80 * 2000))).startSettled

/-- COLD_START (R411): VMAIN has become good; with RST_N low the start holds at step 1. -/
def execColdStart (b : Boot) (s : State) : Host.Outcome State Fault Refusal :=
  if 1750 ≤ b.vmain ∧ (!s.powered ∨ s.pwr.coldNext) then
    let t := s.coldBase b
    .next (if s.pwr.rstLow then { t with pwr := { t.pwr with held := 1 } } else t.coldRun b)
  else .next s

/-! ## Warm reset (R413, R417) -/

/-- Step 1: the Cellar thaws, the entry, the session closes, HALT. -/
def State.warmStep1 (s : State) (b : Boot) (cause : Nat) : State :=
  let s := ((s.forceThaw 4 b.slots).log 2 2 (leBytes 1 cause)).sessionClose 6
  ((s.forcesClear.stopProgram.stopFastPath).set F.INJ_STATUS.STEM_RUN 0).setOp opHALT 6

/-- Step 2: every block but P0, P1, the time unit and the Cellar is reset; kept pages of the ring go to their records (R417). -/
def State.warmBase (s : State) (cause : Nat) : State :=
  let s := s.extractKept
  let regs := s.regs.filter (fun e => warmKeeps e.1)
  let sec := { s.sec with running := State.reset.sec.running, upload := none, uploadSix := none }
  let t := { State.reset with
    clk := s.clk, regs := regs, cel := s.cel, sec := sec, tim := s.tim, mem := s.keptMem, lft := s.keptLoft,
    outbox := s.outbox, pending := s.pending, ecc := s.ecc,
    pwr := { PwrSt.reset with
      startup := true, kept := true, rstLow := s.pwr.rstLow, hold := s.pwr.hold, inWindow := s.pwr.inWindow, ovr := s.pwr.ovr,
      goodSix := s.pwr.goodSix, celStop := s.pwr.celStop, warnPin := s.pwr.warnPin } }
  let t := (t.keeping s [] warmFields).setOp opHALT 6
  ((t.set F.PWR_RST.LAST cause).bump F.PWR_RST.WARM_N).arcRegs.panRegs

/-- Steps 3 onward of a warm reset. -/
def State.warmRun (s : State) (b : Boot) : State := (s.startSteps b (150 * 2000)).startSettled

/-- WARM_RESET (R413): a requested warm reset runs, after a STEM entry in progress (R422); with RST_N low it holds at step 2. -/
def execWarmReset (b : Boot) (s : State) : Host.Outcome State Fault Refusal :=
  match s.pwr.warm with
  | some c =>
    if s.opstate = opSTEM ∧ s.pwr.settleAt.isSome ∧ !s.pwr.startup then .next s
    else
      let t := (s.warmStep1 b c).warmBase c
      .next (if s.pwr.rstLow then { t with pwr := { t.pwr with held := 2 } } else t.warmRun b)
  | none => .next s

/-- RST_N_HIGH (R436): a start that RST_N holds goes on, and its times count from now. -/
def execRstNHigh (b : Boot) (s : State) : Host.Outcome State Fault Refusal :=
  let held := s.pwr.held
  let s := { s with pwr := { s.pwr with rstLow := false, held := 0 } }
  .next (if held = 1 then s.coldRun b else if held = 2 then s.warmRun b else s)

/-! ## Arming (R411 step 6) -/

/-- Is every service port in RUN? -/
def State.portsRun (s : State) : Bool :=
  (List.range 44).all (fun p => s.get (F.HJL_P_CFG.ROLE p) != 1 || s.portState p == pRUN)

/-- The fast path arms: STEM with cause START, gates at INIT and then at their STEM policies; the restart of the lanes is prepared. -/
def State.startArm (s : State) : State :=
  let k := s.six
  let s := ((s.armFastPath.gatesInit).gatesStem k).set (bitField F.PWR_STATE.STEM_CAUSE.addr (F.PWR_STATE.STEM_CAUSE.lo + stemSTART)) 1
  let s := { s with pwr := { s.pwr with armBy := none, prep := some k, seen := 2 ^ stemSTART } }
  let s := ((s.setOp opSTEM 2).set64 A.PWR_STEM_SIX k).log 3 3 (leBytes 1 (s.get F.PWR_STATE.STEM_CAUSE) ++ leBytes 8 k)
  (s.set F.INJ_STATUS.STEM_RUN 1).raise F.INJ_EVT.STEM_RUN

/-- Arming, at the first base-cycle boundary at which every service port is in RUN, or at the deadline. -/
def State.armTick (s : State) : State :=
  match s.pwr.armBy with
  | some d => if decide (d ≤ s.six) || (s.six % baseCycle == 0 && s.portsRun) then s.startArm else s
  | none => s

/-! ## The restart of the lanes (R420, R423, R411 steps 8 to 10) -/

/-- The program image that runs: the newer slot that verifies and whose content the engine accepts. -/
def State.startProgram (s : State) : Option (Nat × Image × ProgImage) :=
  ((s.verified 3).filterMap (fun e => match e.2.body with
    | .program g => if progOk g then some (e.1, e.2, g) else none
    | _ => none)).head?

/-- Memories are zero before a restart, but not from MAINT (R423). -/
def State.restartZero (s : State) : State :=
  if s.opstate = opMAINT then s else [1, 2, 5, 6, 7, 8, 9, 10, 11, 12].foldl State.zeroSpace s

/-- The preparation fails: the cause joins, or in MAINT enters, STEM. -/
def State.returnFails (s : State) (cause : Nat) : State := s.stemCause cause

/-- The program has been loaded, and the lanes run from this hyperboundary. -/
def State.serviceStart (s : State) (i : Nat) (x : Image) : State :=
  let k := s.six
  let s := (List.range 7).foldl (fun t b => t.set (bitField F.PWR_STATE.STEM_CAUSE.addr (F.PWR_STATE.STEM_CAUSE.lo + b)) 0) s
  let s := (s.forcesClear.gatesInit).runImage i x
  let s := { s with
    tsk := { s.tsk with up := true, start := k, out := [], outHist := [], imgs := [], front := [], back := [], panWriting := none, panSix := none },
    pwr := { s.pwr with startup := false, kept := false, prep := none, seen := 0, settleAt := none } }
  let s := if s.flag F.INJ_STATUS.ARMED then s else s.armFastPath
  let s := (s.set F.PWR_DOM.ON domAll).set F.INJ_STATUS.STEM_RUN 0
  let s := ((s.setOp opSERVICE 3).set64 A.PWR_SVC_SIX k).log 4 2 (leBytes 8 k)
  let s := if s.lftRuns then s else s.lftStart
  let s := if s.ethOn then s else s.ethPowerUp
  (if s.uchOn then s else s.uchPowerUp).pwrBusy

/-- STEM_RETURN (R420, R411 step 10): at the first hyperboundary at least 200 samples after the preparation. `bad` marks the lanes that fail their
self-test, `wipeBad` says that zeroing found an uncorrectable error (R412). -/
def execStemReturn (bad : BitVec 4) (wipeBad : Bool) (s : State) : Host.Outcome State Fault Refusal :=
  match s.pwr.prep with
  | some k =>
    if s.six % hyperPeriod = 0 ∧ k + 200 ≤ s.six ∧ (s.opstate = opSTEM ∨ s.opstate = opMAINT) then
      let t := s.restartZero
      if wipeBad ∧ s.opstate = opSTEM then .next (t.returnFails stemMEM)
      else match t.startProgram with
        | none => .next (t.returnFails stemIMAGE)
        | some (i, x, g) =>
          let r := t.loadProgram g bad.toNat
          .next (if r.1 then r.2.serviceStart i x else r.2.returnFails stemLANE)
    else .next s
  | none => .next s

end Sys2Proof.Machine
end

