-- ==== Sys2Proof/Machine/Tick.lean ====
section
/-!
DEFINITION. Machine/Tick.lean: the start of a sample period (R23): what happens at every SIX whatever is commanded.
-/
namespace Sys2Proof.Machine
open Sys2Proof

/-- SIX advances by one, and what left the engine in the period before is gone; the real-time counter follows. -/
def State.nextSix (s : State) : State :=
  { s with
    clk := { s.clk with six := s.clk.six + 1 }
    outbox := []
    cel := { s.cel with rtcNs := s.cel.rtcNs + 500 } }

/-- The STROBE of this SIX on every pair that is neither in quarantine nor held idle by a warm reset (R51, R55). -/
def State.strobes (s : State) : State :=
  if s.pwr.held = 2 then s
  else (List.range 44).foldl (fun t p =>
    if t.portState p = pQUAR then t else t.sendWord p 0 (mkWord tK28 0 (t.six % 2 ^ 24) 0xFF)) s

/-- The safe-state group to every command station that the program does not drive (R78). -/
def State.safeGroups (s : State) : State :=
  (List.range 8).foldl (fun t i =>
    let p := 32 + i
    let mapped := t.tsk.up && t.cmdPoints.any (fun c => c.station + 32 == t.station p)
    if t.safeFrame p mapped then t.sendWord p 25 (safeApply (t.port p).groupSeq t.six) else t) s

/-- Did a frame in use feed context `n` in the period before? -/
def State.fedBefore (s : State) (n : Nat) : Bool :=
  (List.range 32).any (fun p => s.portServes p && (s.port p).frameAt + 1 == s.six && decide ((s.port p).useFrom ≤ (s.port p).frameSix) &&
    s.feeds p (s.port p).frameSix == some n)

/-- A MISSING link context that nothing fed in the period before has eight more samples marked MISSING (R65, R68; SFB_Cn_CNT). -/
def State.missTick (s : State) : State :=
  (List.range 32).foldl (fun t n => if t.ctxState n = 4 ∧ !t.fedBefore n then t.countMiss n 8 else t) s

/-- Groups that vote on peer port `q`. -/
def State.votesOn (s : State) (q : Nat) : List Nat :=
  (List.range 16).filter (fun g => s.flag (F.INJ_G_CFG.EN g) && bit (s.get (F.INJ_G_CFG.PEERMASK g)) q)

/-- The repeated VOTE words of one frame on peer port `q` (R81): slots 1 to 21 for four frames, then slot 1 while the state is not RESET; several
groups take turns. -/
def State.sendVotes (s : State) (q : Nat) : State :=
  let gs := s.votesOn q
  let fresh := gs.filter (fun g => decide ((s.group g).voteStart < s.six) && decide (s.six ≤ (s.group g).voteStart + 4))
  let standing := gs.filter (fun g => s.get (F.INJ_G_STAT.STATE g) != 0)
  if fresh ≠ [] then
    (List.range 21).foldl (fun t i =>
      match fresh[i % fresh.length]? with
      | some g => t.sendWord (40 + q) (i + 1) (t.voteWord g)
      | none => t) s
  else match standing[s.six % standing.length]? with
    | some g => s.sendWord (40 + q) 1 (s.voteWord g)
    | none => s

/-- Everything that leaves on the links at the start of a period or is repeated in its frame. -/
def State.linkTick (s : State) : State :=
  let s := s.strobes
  let s := (List.range 8).foldl (fun t i => t.sendRepeats (32 + i)) s
  let s := s.safeGroups
  let s := (List.range 8).foldl (fun t i => t.tripsEnd (32 + i)) s
  if s.flag F.INJ_STATUS.ARMED then
    (List.range 4).foldl (fun t q => if t.portSends (40 + q) then t.sendVotes q else t) s
  else s

/-- OPSEC counts the seconds with VMAIN good (R290); the island copies it every hour (R459). -/
def State.opsecTick (s : State) : State :=
  if s.flag F.PWR_STATE.HOLDUP then s else s.opsecAdd 1

/-- Entries that the start of a period has presented enter the queue in the order of R294; the first `n` waited before. -/
def State.celOrder (s : State) (n : Nat) : State :=
  let new := s.cel.queue.drop n
  { s with cel := { s.cel with
    queue := s.cel.queue.take n ++ ((List.range 6).map (fun r => new.filter (fun e => e.code.rank == r))).flatten } }

/-- What moves between operating states at this SIX: a finished entry, arming, the end of MAINT. -/
def State.stateTick (s : State) : State :=
  let s := if s.pwr.settleAt.any (fun k => decide (k ≤ s.six)) then s.domainsOff else s
  s.armTick.maintResume

/-- The sample period that has begun. -/
def State.tick (s : State) : State :=
  let s := s.missTick.linkTick.scapStep.lftExtract
  let s := s.timTick.opsecTick.svCollectAll
  let s := if s.six % hyperPeriod = 0 then s.shadowHp else s
  s.stateTick

/-- SIX_ADVANCE (R23): once SIX has started. Words of the images that waiting entries snapshot are read first (R298). -/
def execSixAdvance (s : State) : Host.Outcome State Fault Refusal :=
  if s.clk.running then .next (s.lftIdent.snapFill.nextSix.tick.celOrder s.cel.queue.length) else .next s

end Sys2Proof.Machine
end

