-- ==== Sys2Proof/Machine/Families.lean ====
section
/-!
DEFINITION. Machine/Families.lean: the families of meanings that exec dispatches to, gathered; it declares nothing itself.
-/
end

