-- ==== Sys2Proof/Machine/Dispatch.lean ====
section
/-!
DEFINITION. Machine/Dispatch.lean: exec, one arm per command, each a direct call of the command's meaning.
-/
namespace Sys2Proof.Machine
open Sys2Proof

def exec (i : Instr) (s : State) : Host.Outcome State Fault Refusal :=
  match i with
  | .sixAdvance => Sys2Proof.Machine.execSixAdvance s
  | .cycleRelease t => Sys2Proof.Machine.execCycleRelease t s
  | .eventTaskRelease n => Sys2Proof.Machine.execEventTaskRelease n s
  | .outputRelease => Sys2Proof.Machine.execOutputRelease s
  | .commandGroupSend p => Sys2Proof.Machine.execCommandGroupSend p s
  | .deadline t shadow => Sys2Proof.Machine.execDeadline t shadow s
  | .pantrySnapshot => Sys2Proof.Machine.execPantrySnapshot s
  | .laneFail ln err => Sys2Proof.Machine.execLaneFail ln err s
  | .takeover => Sys2Proof.Machine.execTakeover s
  | .wordDiscarded p slot crc => Sys2Proof.Machine.execWordDiscarded p slot crc s
  | .frameAlignmentAcquired p => Sys2Proof.Machine.execFrameAlignmentAcquired p s
  | .frameAlignmentLost p => Sys2Proof.Machine.execFrameAlignmentLost p s
  | .frameReceived p six24 arr opened head => Sys2Proof.Machine.execFrameReceived p six24 arr opened head s
  | .sampleReceived p c code => Sys2Proof.Machine.execSampleReceived p c code s
  | .directionalEvaluate p => Sys2Proof.Machine.execDirectionalEvaluate p s
  | .stepHoldExpiry n => Sys2Proof.Machine.execStepHoldExpiry n s
  | .directionalHoldExpiry p => Sys2Proof.Machine.execDirectionalHoldExpiry p s
  | .chstatReceived p ovr settle => Sys2Proof.Machine.execChstatReceived p ovr settle s
  | .unitstatReceived p inc ustate flags => Sys2Proof.Machine.execUnitstatReceived p inc ustate flags s
  | .echoReceived p tag span turn => Sys2Proof.Machine.execEchoReceived p tag span turn s
  | .compResend p => Sys2Proof.Machine.execCompResend p s
  | .pingSend p => Sys2Proof.Machine.execPingSend p s
  | .calibrationFailed p => Sys2Proof.Machine.execCalibrationFailed p s
  | .helloReceived p h => Sys2Proof.Machine.execHelloReceived p h s
  | .peerTimeReceived p peerSix arr => Sys2Proof.Machine.execPeerTimeReceived p peerSix arr s
  | .shelfReceived p id pub words => Sys2Proof.Machine.execShelfReceived p id pub words s
  | .messageTimeout p => Sys2Proof.Machine.execMessageTimeout p s
  | .portLost p => Sys2Proof.Machine.execPortLost p s
  | .portRecovered p => Sys2Proof.Machine.execPortRecovered p s
  | .portDead p => Sys2Proof.Machine.execPortDead p s
  | .hjlReadmit pf w => Sys2Proof.Machine.execHjlReadmit pf w s
  | .hjlRebind pf w => Sys2Proof.Machine.execHjlRebind pf w s
  | .stationRebind => Sys2Proof.Machine.execStationRebind s
  | .peerTimeSend p => Sys2Proof.Machine.execPeerTimeSend p s
  | .peerShelfSend p id => Sys2Proof.Machine.execPeerShelfSend p id s
  | .ruleEvaluate r => Sys2Proof.Machine.execRuleEvaluate r s
  | .ruleRearm r => Sys2Proof.Machine.execRuleRearm r s
  | .tripRepeatSlot1 p => Sys2Proof.Machine.execTripRepeatSlot1 p s
  | .ackReceived p cw seq inc => Sys2Proof.Machine.execAckReceived p cw seq inc s
  | .tripUnack p => Sys2Proof.Machine.execTripUnack p s
  | .voteReceived p wire state six vseq => Sys2Proof.Machine.execVoteReceived p wire state six vseq s
  | .pickupExpired g => Sys2Proof.Machine.execPickupExpired g s
  | .tdoRelease n => Sys2Proof.Machine.execTdoRelease n s
  | .injTdoRst pf w => Sys2Proof.Machine.execInjTdoRst pf w s
  | .tdoFail n => Sys2Proof.Machine.execTdoFail n s
  | .tdoFailClear n => Sys2Proof.Machine.execTdoFailClear n s
  | .scapFrozen => Sys2Proof.Machine.execScapFrozen s
  | .scapRearm pf w => Sys2Proof.Machine.execScapRearm pf w s
  | .fastpathConfigEffect => Sys2Proof.Machine.execFastpathConfigEffect s
  | .derivedValuesCompute n => Sys2Proof.Machine.execDerivedValuesCompute n s
  | .gridValueCompute n => Sys2Proof.Machine.execGridValueCompute n s
  | .binaryInputSample pins tdr => Sys2Proof.Machine.execBinaryInputSample pins tdr s
  | .binConfirm n => Sys2Proof.Machine.execBinConfirm n s
  | .chatterHoldEnd n => Sys2Proof.Machine.execChatterHoldEnd n s
  | .persistentSet n => Sys2Proof.Machine.execPersistentSet n s
  | .illegalOpcode ln w => Sys2Proof.Machine.execIllegalOpcode ln w s
  | .add ln d a b sb => Sys2Proof.Machine.execAdd ln d a b sb s
  | .sub ln d a b sb => Sys2Proof.Machine.execSub ln d a b sb s
  | .adds ln d a b sb => Sys2Proof.Machine.execAdds ln d a b sb s
  | .subs ln d a b sb => Sys2Proof.Machine.execSubs ln d a b sb s
  | .addus ln d a b sb => Sys2Proof.Machine.execAddus ln d a b sb s
  | .subus ln d a b sb => Sys2Proof.Machine.execSubus ln d a b sb s
  | .mul ln d a b sb => Sys2Proof.Machine.execMul ln d a b sb s
  | .mulh ln d a b sb => Sys2Proof.Machine.execMulh ln d a b sb s
  | .mulhu ln d a b sb => Sys2Proof.Machine.execMulhu ln d a b sb s
  | .muls ln d a b sb => Sys2Proof.Machine.execMuls ln d a b sb s
  | .div ln d a b sb => Sys2Proof.Machine.execDiv ln d a b sb s
  | .divu ln d a b sb => Sys2Proof.Machine.execDivu ln d a b sb s
  | .rem ln d a b sb => Sys2Proof.Machine.execRem ln d a b sb s
  | .remu ln d a b sb => Sys2Proof.Machine.execRemu ln d a b sb s
  | .andReg ln d a b sb => Sys2Proof.Machine.execAndReg ln d a b sb s
  | .orReg ln d a b sb => Sys2Proof.Machine.execOrReg ln d a b sb s
  | .xorReg ln d a b sb => Sys2Proof.Machine.execXorReg ln d a b sb s
  | .andnReg ln d a b sb => Sys2Proof.Machine.execAndnReg ln d a b sb s
  | .sll ln d a b sb => Sys2Proof.Machine.execSll ln d a b sb s
  | .srl ln d a b sb => Sys2Proof.Machine.execSrl ln d a b sb s
  | .sra ln d a b sb => Sys2Proof.Machine.execSra ln d a b sb s
  | .ror ln d a b sb => Sys2Proof.Machine.execRor ln d a b sb s
  | .slt ln d a b sb => Sys2Proof.Machine.execSlt ln d a b sb s
  | .sltu ln d a b sb => Sys2Proof.Machine.execSltu ln d a b sb s
  | .minS ln d a b sb => Sys2Proof.Machine.execMinS ln d a b sb s
  | .maxS ln d a b sb => Sys2Proof.Machine.execMaxS ln d a b sb s
  | .minu ln d a b sb => Sys2Proof.Machine.execMinu ln d a b sb s
  | .maxu ln d a b sb => Sys2Proof.Machine.execMaxu ln d a b sb s
  | .abs ln d a b sb => Sys2Proof.Machine.execAbs ln d a b sb s
  | .clz ln d a b sb => Sys2Proof.Machine.execClz ln d a b sb s
  | .addi ln d a imm => Sys2Proof.Machine.execAddi ln d a imm s
  | .addis ln d a imm => Sys2Proof.Machine.execAddis ln d a imm s
  | .andi ln d a imm => Sys2Proof.Machine.execAndi ln d a imm s
  | .ori ln d a imm => Sys2Proof.Machine.execOri ln d a imm s
  | .xori ln d a imm => Sys2Proof.Machine.execXori ln d a imm s
  | .lui ln d a imm => Sys2Proof.Machine.execLui ln d a imm s
  | .slti ln d a imm => Sys2Proof.Machine.execSlti ln d a imm s
  | .sltiu ln d a imm => Sys2Proof.Machine.execSltiu ln d a imm s
  | .add64 ln d a b sb => Sys2Proof.Machine.execAdd64 ln d a b sb s
  | .sub64 ln d a b sb => Sys2Proof.Machine.execSub64 ln d a b sb s
  | .adds64 ln d a b sb => Sys2Proof.Machine.execAdds64 ln d a b sb s
  | .subs64 ln d a b sb => Sys2Proof.Machine.execSubs64 ln d a b sb s
  | .mull ln d a b sb => Sys2Proof.Machine.execMull ln d a b sb s
  | .mullu ln d a b sb => Sys2Proof.Machine.execMullu ln d a b sb s
  | .and64 ln d a b sb => Sys2Proof.Machine.execAnd64 ln d a b sb s
  | .or64 ln d a b sb => Sys2Proof.Machine.execOr64 ln d a b sb s
  | .xor64 ln d a b sb => Sys2Proof.Machine.execXor64 ln d a b sb s
  | .sll64 ln d a b sb => Sys2Proof.Machine.execSll64 ln d a b sb s
  | .srl64 ln d a b sb => Sys2Proof.Machine.execSrl64 ln d a b sb s
  | .sra64 ln d a b sb => Sys2Proof.Machine.execSra64 ln d a b sb s
  | .slt64 ln d a b sb => Sys2Proof.Machine.execSlt64 ln d a b sb s
  | .sltu64 ln d a b sb => Sys2Proof.Machine.execSltu64 ln d a b sb s
  | .sext ln d a b sb => Sys2Proof.Machine.execSext ln d a b sb s
  | .zext ln d a b sb => Sys2Proof.Machine.execZext ln d a b sb s
  | .qmul31 ln d a b sb => Sys2Proof.Machine.execQmul31 ln d a b sb s
  | .qmulr31 ln d a b sb => Sys2Proof.Machine.execQmulr31 ln d a b sb s
  | .qadd15 ln d a b sb => Sys2Proof.Machine.execQadd15 ln d a b sb s
  | .qsub15 ln d a b sb => Sys2Proof.Machine.execQsub15 ln d a b sb s
  | .qmul15 ln d a b sb => Sys2Proof.Machine.execQmul15 ln d a b sb s
  | .qshl31 ln d a b sb => Sys2Proof.Machine.execQshl31 ln d a b sb s
  | .qrsh31 ln d a b sb => Sys2Proof.Machine.execQrsh31 ln d a b sb s
  | .qneg31 ln d a b sb => Sys2Proof.Machine.execQneg31 ln d a b sb s
  | .qpack15 ln d a b sb => Sys2Proof.Machine.execQpack15 ln d a b sb s
  | .fadd ln d a b sb => Sys2Proof.Machine.execFadd ln d a b sb s
  | .fsub ln d a b sb => Sys2Proof.Machine.execFsub ln d a b sb s
  | .fmul ln d a b sb => Sys2Proof.Machine.execFmul ln d a b sb s
  | .fdiv ln d a b sb => Sys2Proof.Machine.execFdiv ln d a b sb s
  | .fsqrt ln d a b sb => Sys2Proof.Machine.execFsqrt ln d a b sb s
  | .fmin ln d a b sb => Sys2Proof.Machine.execFmin ln d a b sb s
  | .fmax ln d a b sb => Sys2Proof.Machine.execFmax ln d a b sb s
  | .fabs ln d a b sb => Sys2Proof.Machine.execFabs ln d a b sb s
  | .fneg ln d a b sb => Sys2Proof.Machine.execFneg ln d a b sb s
  | .fcmp ln d a b sb => Sys2Proof.Machine.execFcmp ln d a b sb s
  | .fcvtsw ln d a b sb => Sys2Proof.Machine.execFcvtsw ln d a b sb s
  | .fcvtws ln d a b sb => Sys2Proof.Machine.execFcvtws ln d a b sb s
  | .fcvtwsz ln d a b sb => Sys2Proof.Machine.execFcvtwsz ln d a b sb s
  | .fscalb ln d a b sb => Sys2Proof.Machine.execFscalb ln d a b sb s
  | .mfs ln d a b fn10 => Sys2Proof.Machine.execMfs ln d a b fn10 s
  | .mtf ln d a b fn10 => Sys2Proof.Machine.execMtf ln d a b fn10 s
  | .ldw ln d a imm => Sys2Proof.Machine.execLdw ln d a imm s
  | .ldh ln d a imm => Sys2Proof.Machine.execLdh ln d a imm s
  | .ldhu ln d a imm => Sys2Proof.Machine.execLdhu ln d a imm s
  | .ldb ln d a imm => Sys2Proof.Machine.execLdb ln d a imm s
  | .ldbu ln d a imm => Sys2Proof.Machine.execLdbu ln d a imm s
  | .ldd ln d a imm => Sys2Proof.Machine.execLdd ln d a imm s
  | .stw ln d a imm => Sys2Proof.Machine.execStw ln d a imm s
  | .sth ln d a imm => Sys2Proof.Machine.execSth ln d a imm s
  | .stb ln d a imm => Sys2Proof.Machine.execStb ln d a imm s
  | .std ln d a imm => Sys2Proof.Machine.execStd ln d a imm s
  | .cldw ln d a imm => Sys2Proof.Machine.execCldw ln d a imm s
  | .cldd ln d a imm => Sys2Proof.Machine.execCldd ln d a imm s
  | .cstw ln d a imm => Sys2Proof.Machine.execCstw ln d a imm s
  | .cstd ln d a imm => Sys2Proof.Machine.execCstd ln d a imm s
  | .nld ln d a imm => Sys2Proof.Machine.execNld ln d a imm s
  | .nst ln d a imm => Sys2Proof.Machine.execNst ln d a imm s
  | .sld ln d ctx ch item => Sys2Proof.Machine.execSld ln d ctx ch item s
  | .sldp ln d ctx ch item => Sys2Proof.Machine.execSldp ln d ctx ch item s
  | .ild ln d a imm => Sys2Proof.Machine.execIld ln d a imm s
  | .ost ln d a imm => Sys2Proof.Machine.execOst ln d a imm s
  | .shld ln d a b fn => Sys2Proof.Machine.execShld ln d a b fn s
  | .shst ln d a b fn => Sys2Proof.Machine.execShst ln d a b fn s
  | .gset ln d a imm => Sys2Proof.Machine.execGset ln d a imm s
  | .evr ln d a imm => Sys2Proof.Machine.execEvr ln d a imm s
  | .cnote ln d a b fn => Sys2Proof.Machine.execCnote ln d a b fn s
  | .lim ln d a imm => Sys2Proof.Machine.execLim ln d a imm s
  | .loop ln d a b fn => Sys2Proof.Machine.execLoop ln d a b fn s
  | .beq ln d a imm => Sys2Proof.Machine.execBeq ln d a imm s
  | .bne ln d a imm => Sys2Proof.Machine.execBne ln d a imm s
  | .blt ln d a imm => Sys2Proof.Machine.execBlt ln d a imm s
  | .bge ln d a imm => Sys2Proof.Machine.execBge ln d a imm s
  | .bltu ln d a imm => Sys2Proof.Machine.execBltu ln d a imm s
  | .bgeu ln d a imm => Sys2Proof.Machine.execBgeu ln d a imm s
  | .bf ln d a imm => Sys2Proof.Machine.execBf ln d a imm s
  | .j ln off => Sys2Proof.Machine.execJ ln off s
  | .jl ln off => Sys2Proof.Machine.execJl ln off s
  | .jr ln d a b fn => Sys2Proof.Machine.execJr ln d a b fn s
  | .sel ln d a b fn => Sys2Proof.Machine.execSel ln d a b fn s
  | .callv ln verb noun => Sys2Proof.Machine.execCallv ln verb noun s
  | .callvr ln d a b fn => Sys2Proof.Machine.execCallvr ln d a b fn s
  | .retv ln rest => Sys2Proof.Machine.execRetv ln rest s
  | .dmaGo pf c w fetchOk => Sys2Proof.Machine.execDmaGo pf c w fetchOk s
  | .dmaStop pf c w => Sys2Proof.Machine.execDmaStop pf c w s
  | .dmaDescriptorDone c fin => Sys2Proof.Machine.execDmaDescriptorDone c fin s
  | .dmaBeatFault c code beats bad => Sys2Proof.Machine.execDmaBeatFault c code beats bad s
  | .scrubError m addr uncorr place => Sys2Proof.Machine.execScrubError m addr uncorr place s
  | .vcApply pf w => Sys2Proof.Machine.execVcApply pf w s
  | .vcCancel pf w => Sys2Proof.Machine.execVcCancel pf w s
  | .vcApplied => Sys2Proof.Machine.execVcApplied s
  | .chgLoad pf w img => Sys2Proof.Machine.execChgLoad pf w img s
  | .chgLoadDone => Sys2Proof.Machine.execChgLoadDone s
  | .shadowStart => Sys2Proof.Machine.execShadowStart s
  | .shadowDone => Sys2Proof.Machine.execShadowDone s
  | .chgSwitch pf w => Sys2Proof.Machine.execChgSwitch pf w s
  | .codeSwitch => Sys2Proof.Machine.execCodeSwitch s
  | .chgCancel pf w => Sys2Proof.Machine.execChgCancel pf w s
  | .forceArm pf n w => Sys2Proof.Machine.execForceArm pf n w s
  | .forceDisarm pf n w => Sys2Proof.Machine.execForceDisarm pf n w s
  | .forceValueWrite pf n hi => Sys2Proof.Machine.execForceValueWrite pf n hi s
  | .forceActivate n => Sys2Proof.Machine.execForceActivate n s
  | .forceEnd n => Sys2Proof.Machine.execForceEnd n s
  | .frcClearAll pf w => Sys2Proof.Machine.execFrcClearAll pf w s
  | .rplStart pf w img => Sys2Proof.Machine.execRplStart pf w img s
  | .replayCycle => Sys2Proof.Machine.execReplayCycle s
  | .replayDone => Sys2Proof.Machine.execReplayDone s
  | .rplCancel pf w => Sys2Proof.Machine.execRplCancel pf w s
  | .ringLineWrite => Sys2Proof.Machine.execRingLineWrite s
  | .slowRingLine => Sys2Proof.Machine.execSlowRingLine s
  | .sentenceStep r => Sys2Proof.Machine.execSentenceStep r s
  | .clauseTimeout r => Sys2Proof.Machine.execClauseTimeout r s
  | .lftTrig pf w => Sys2Proof.Machine.execLftTrig pf w s
  | .recordClose r => Sys2Proof.Machine.execRecordClose r s
  | .gapSkip r => Sys2Proof.Machine.execGapSkip r s
  | .scapArchived => Sys2Proof.Machine.execScapArchived s
  | .histClear pf u w => Sys2Proof.Machine.execHistClear pf u w s
  | .recLoad pf w => Sys2Proof.Machine.execRecLoad pf w s
  | .recProtect pf w => Sys2Proof.Machine.execRecProtect pf w s
  | .recUnprotect pf w => Sys2Proof.Machine.execRecUnprotect pf w s
  | .recDelete pf w => Sys2Proof.Machine.execRecDelete pf w s
  | .exportGo pf w => Sys2Proof.Machine.execExportGo pf w s
  | .exportStop pf w => Sys2Proof.Machine.execExportStop pf w s
  | .expDone => Sys2Proof.Machine.execExpDone s
  | .cellarEnqueue e => Sys2Proof.Machine.execCellarEnqueue e s
  | .cellarAdmit slots wa wb => Sys2Proof.Machine.execCellarAdmit slots wa wb s
  | .suppressed => Sys2Proof.Machine.execSuppressed s
  | .celCursorWrite pf hi => Sys2Proof.Machine.execCelCursorWrite pf hi s
  | .celStep pf w => Sys2Proof.Machine.execCelStep pf w s
  | .freeze pf w => Sys2Proof.Machine.execFreeze pf w s
  | .thaw pf w slots => Sys2Proof.Machine.execThaw pf w slots s
  | .freezeTimeout slots => Sys2Proof.Machine.execFreezeTimeout slots s
  | .rejoin => Sys2Proof.Machine.execRejoin s
  | .ptpSyncReceived p moved freq => Sys2Proof.Machine.execPtpSyncReceived p moved freq s
  | .ptpFollowUpReceived p moved freq => Sys2Proof.Machine.execPtpFollowUpReceived p moved freq s
  | .ptpAnnounceReceived p => Sys2Proof.Machine.execPtpAnnounceReceived p s
  | .pdelayReqSend p stamp => Sys2Proof.Machine.execPdelayReqSend p stamp s
  | .pdelayRespReceived p => Sys2Proof.Machine.execPdelayRespReceived p s
  | .ppsEdge stamp moved freq => Sys2Proof.Machine.execPpsEdge stamp moved freq s
  | .sourceLost pps => Sys2Proof.Machine.execSourceLost pps s
  | .timeStep => Sys2Proof.Machine.execTimeStep s
  | .refFail => Sys2Proof.Machine.execRefFail s
  | .holdoverExpired => Sys2Proof.Machine.execHoldoverExpired s
  | .accept pf w => Sys2Proof.Machine.execAccept pf w s
  | .ackAsym pf w => Sys2Proof.Machine.execAckAsym pf w s
  | .hstep pf w => Sys2Proof.Machine.execHstep pf w s
  | .rtcUpdate => Sys2Proof.Machine.execRtcUpdate s
  | .ppsOutPulse => Sys2Proof.Machine.execPpsOutPulse s
  | .teArm pf u w => Sys2Proof.Machine.execTeArm pf u w s
  | .teDisarm pf u w => Sys2Proof.Machine.execTeDisarm pf u w s
  | .timedEventFire u => Sys2Proof.Machine.execTimedEventFire u s
  | .tpoPulseEnd u => Sys2Proof.Machine.execTpoPulseEnd u s
  | .tciCapture pin rise stamp => Sys2Proof.Machine.execTciCapture pin rise stamp s
  | .tciPop pf pin w => Sys2Proof.Machine.execTciPop pf pin w s
  | .ethFrameReceived p f => Sys2Proof.Machine.execEthFrameReceived p f s
  | .gooseReceived n => Sys2Proof.Machine.execGooseReceived n s
  | .gooseTalExpired n => Sys2Proof.Machine.execGooseTalExpired n s
  | .svFrameReceived n => Sys2Proof.Machine.execSvFrameReceived n s
  | .hostRxFrame => Sys2Proof.Machine.execHostRxFrame s
  | .gooseRetransmit n => Sys2Proof.Machine.execGooseRetransmit n s
  | .svPublish n => Sys2Proof.Machine.execSvPublish n s
  | .prpSupervisionSend pair => Sys2Proof.Machine.execPrpSupervisionSend pair s
  | .lanLoss p => Sys2Proof.Machine.execLanLoss p s
  | .linkChg p up => Sys2Proof.Machine.execLinkChg p up s
  | .hostTxSend => Sys2Proof.Machine.execHostTxSend s
  | .conversionStart n => Sys2Proof.Machine.execConversionStart n s
  | .conversionDone n raw opened => Sys2Proof.Machine.execConversionDone n raw opened s
  | .readbackSlot g raw => Sys2Proof.Machine.execReadbackSlot g raw s
  | .thermal n tj => Sys2Proof.Machine.execThermal n tj s
  | .cmdApply n => Sys2Proof.Machine.execCmdApply n s
  | .uchHctlClr pf n w => Sys2Proof.Machine.execUchHctlClr pf n w s
  | .uchHctlReq pf n w => Sys2Proof.Machine.execUchHctlReq pf n w s
  | .grpFault g => Sys2Proof.Machine.execGrpFault g s
  | .grpRecover g => Sys2Proof.Machine.execGrpRecover g s
  | .controllerAlarmDrive g => Sys2Proof.Machine.execControllerAlarmDrive g s
  | .strapChg g level => Sys2Proof.Machine.execStrapChg g level s
  | .hartSend pf g w => Sys2Proof.Machine.execHartSend pf g w s
  | .hartAbort pf g w => Sys2Proof.Machine.execHartAbort pf g w s
  | .hartDone g r => Sys2Proof.Machine.execHartDone g r s
  | .registerWrite pf off w full => Sys2Proof.Machine.execRegisterWrite pf off w full s
  | .takeRead pf off => Sys2Proof.Machine.execTakeRead pf off s
  | .read64Low pf off => Sys2Proof.Machine.execRead64Low pf off s
  | .read64High pf off => Sys2Proof.Machine.execRead64High pf off s
  | .write64Low pf off w => Sys2Proof.Machine.execWrite64Low pf off w s
  | .write64High pf off w => Sys2Proof.Machine.execWrite64High pf off w s
  | .msixUnmask pf v enable masked => Sys2Proof.Machine.execMsixUnmask pf v enable masked s
  | .hostFunctionReset pf0 pf1 => Sys2Proof.Machine.execHostFunctionReset pf0 pf1 s
  | .challenge pf w nonce => Sys2Proof.Machine.execChallenge pf w nonce s
  | .grant pf w sigOk => Sys2Proof.Machine.execGrant pf w sigOk s
  | .attest pf w => Sys2Proof.Machine.execAttest pf w s
  | .identity pf w => Sys2Proof.Machine.execIdentity pf w s
  | .install pf w img flashOk => Sys2Proof.Machine.execInstall pf w img flashOk s
  | .svnCommit pf w => Sys2Proof.Machine.execSvnCommit pf w s
  | .keyProgram pf w storeOk => Sys2Proof.Machine.execKeyProgram pf w storeOk s
  | .keyRevoke pf w => Sys2Proof.Machine.execKeyRevoke pf w s
  | .lifecycle pf w tokSigOk bad => Sys2Proof.Machine.execLifecycle pf w tokSigOk bad s
  | .tamperClear pf w pinHigh => Sys2Proof.Machine.execTamperClear pf w pinHigh s
  | .wipeReport pf w => Sys2Proof.Machine.execWipeReport pf w s
  | .mailboxUnknownCommand pf w => Sys2Proof.Machine.execMailboxUnknownCommand pf w s
  | .mailboxDone => Sys2Proof.Machine.execMailboxDone s
  | .mailboxResponseExpired => Sys2Proof.Machine.execMailboxResponseExpired s
  | .challengeLapsed => Sys2Proof.Machine.execChallengeLapsed s
  | .lockoutEnd => Sys2Proof.Machine.execLockoutEnd s
  | .sessionLifetimeExpired => Sys2Proof.Machine.execSessionLifetimeExpired s
  | .sessionIdleExpired => Sys2Proof.Machine.execSessionIdleExpired s
  | .sessionClose pf w => Sys2Proof.Machine.execSessionClose pf w s
  | .serviceUartFrame fr nonce storeOk => Sys2Proof.Machine.execServiceUartFrame fr nonce storeOk s
  | .tamperSet cause => Sys2Proof.Machine.execTamperSet cause s
  | .coldStart b => Sys2Proof.Machine.execColdStart b s
  | .brownout vmain => Sys2Proof.Machine.execBrownout vmain s
  | .supplyBack vmain => Sys2Proof.Machine.execSupplyBack vmain s
  | .rideThroughExpired => Sys2Proof.Machine.execRideThroughExpired s
  | .powerDown hu => Sys2Proof.Machine.execPowerDown hu s
  | .holdupExhausted hu => Sys2Proof.Machine.execHoldupExhausted hu s
  | .overvoltageDisconnect vmain => Sys2Proof.Machine.execOvervoltageDisconnect vmain s
  | .otWarn die base => Sys2Proof.Machine.execOtWarn die base s
  | .ot before die base => Sys2Proof.Machine.execOt before die base s
  | .otClear die base since => Sys2Proof.Machine.execOtClear die base since s
  | .clockFault d inst ocxo => Sys2Proof.Machine.execClockFault d inst ocxo s
  | .stemEnter slots => Sys2Proof.Machine.execStemEnter slots s
  | .stemCauseCleared b => Sys2Proof.Machine.execStemCauseCleared b s
  | .stemReturn bad wipeBad => Sys2Proof.Machine.execStemReturn bad wipeBad s
  | .stem pf w => Sys2Proof.Machine.execStem pf w s
  | .halt pf w => Sys2Proof.Machine.execHalt pf w s
  | .maint pf w => Sys2Proof.Machine.execMaint pf w s
  | .maintEnter => Sys2Proof.Machine.execMaintEnter s
  | .resume pf w => Sys2Proof.Machine.execResume pf w s
  | .warm pf w => Sys2Proof.Machine.execWarm pf w s
  | .warmReset b => Sys2Proof.Machine.execWarmReset b s
  | .rstNLow => Sys2Proof.Machine.execRstNLow s
  | .watchdogExpired => Sys2Proof.Machine.execWatchdogExpired s
  | .laneRst pf w => Sys2Proof.Machine.execLaneRst pf w s
  | .laneResetDone pass => Sys2Proof.Machine.execLaneResetDone pass s
  | .refOk => Sys2Proof.Machine.execRefOk s
  | .vmainGood vmain => Sys2Proof.Machine.execVmainGood vmain s
  | .supplyWarn vmain hu => Sys2Proof.Machine.execSupplyWarn vmain hu s
  | .domainFault d => Sys2Proof.Machine.execDomainFault d s
  | .rstNHigh b => Sys2Proof.Machine.execRstNHigh b s
  | .hartFrameReceived g => Sys2Proof.Machine.execHartFrameReceived g s
  | .scrubPassDone m => Sys2Proof.Machine.execScrubPassDone m s

end Sys2Proof.Machine
end

