-- ==== Sys2Proof/WellFormed.lean ====
section
/-!
DEFINITION. WellFormed.lean: the commands that the surroundings can give: operands within the ranges that the spec's fields have.
Most operands carry their range in their type; what their types cannot say is checked here.
-/
namespace Sys2Proof

/-- No number occurs twice. -/
def distinct : List Nat → Bool
  | [] => true
  | x :: xs => !xs.contains x && distinct xs

/-- A list of preferred Cellar slots (R293): slots of a bank, none twice. -/
def slotListOk (l : List Nat) : Bool := distinct l && l.all (· < 524288)

/-- An event that a subsystem presents (R288, R292): a 16-bit code, one of four severities, at most 64 bytes of event data, a 64-bit SIX. -/
def Raised.ok (e : Raised) : Bool :=
  (match e.code with | .num n => decide (n < 65536) | .named _ => true) && decide (e.sev < 4) && decide (e.data.length ≤ 64) &&
  (match e.six with | some k => decide (k < 2 ^ 64) | none => true)

/-- A member value that its type can carry (R341). -/
def MemVal.ok : MemVal → Bool
  | .dbpos v => decide (v < 4)
  | .bits bs => decide (bs.length ≤ 64)
  | _ => true

/-- A GOOSE message with header fields of their widths (R339). -/
def GooseMsg.ok (m : GooseMsg) : Bool :=
  decide (m.id.mac < 2 ^ 48) && decide (m.id.appid < 65536) && decide (m.stNum < 2 ^ 32) && decide (m.sqNum < 2 ^ 32) &&
  decide (m.tal < 2 ^ 32) && m.vals.all MemVal.ok

/-- A sampled-value frame with fields of their widths (R344). -/
def SvFrame.ok (f : SvFrame) : Bool :=
  decide (f.mac < 2 ^ 48) && decide (f.appid < 65536) &&
  f.asdus.all (fun a => decide (a.smpCnt < 65536) && decide (a.smpSynch < 256) &&
    a.vals.all (fun v => decide (-2147483648 ≤ v.1) && decide (v.1 ≤ 2147483647)))

/-- A PTP message with fields of their widths (R312) and a time stamp within the sample period (R314). -/
def PtpMsg.ok (m : PtpMsg) : Bool :=
  decide (m.kind < 16) && decide (m.domain < 256) && decide (m.clockId < 2 ^ 64) && decide (m.portNo < 65536) && decide (m.seq < 65536) &&
  decide (m.sec < 2 ^ 48) && decide (m.ns < 1000000000) && decide (m.stamp < 500)

/-- A received frame: addresses of 48 bits, an EtherType of 16, and a content of its widths (R333). -/
def EthFrame.ok (f : EthFrame) : Bool :=
  decide (f.dst < 2 ^ 48) && decide (f.src < 2 ^ 48) && decide (f.etherType < 65536) && (f.seq.all (· < 65536)) &&
  (match f.body with
   | .goose m => GooseMsg.ok m
   | .sv v => SvFrame.ok v
   | .ptp m => PtpMsg.ok m
   | .other => true)

/-- A descriptor with fields of their widths (R214). -/
def Desc.ok (d : Desc) : Bool :=
  decide (d.at_ < 2 ^ 64) && decide (d.ctrl < 2 ^ 32) && decide (d.len < 2 ^ 32) && decide (d.src < 2 ^ 64) && decide (d.dst < 2 ^ 64) &&
  decide (-(2 ^ 31) ≤ d.next) && decide (d.next < 2 ^ 31) && decide (d.tagseq < 2 ^ 32)

/-- What a start can find (R24, R411): VMAIN of 12 bits, a 64-bit counter, slots of the Cellar. -/
def Boot.ok (b : Boot) : Bool :=
  decide (b.vmain < 4096) && decide (b.rtc < 2 ^ 64) && slotListOk b.torn && slotListOk b.slots.slots

/-- An image header with fields of their widths (R389). -/
def Image.ok (i : Image) : Bool :=
  decide (i.kind < 65536) && decide (i.issue < 2 ^ 32) && decide (i.svn < 65536) && decide (i.keyslot < 256) && decide (i.unitId < 2 ^ 64)

/-- An offset of a register word (R9). -/
def offOk (off : BitVec 24) : Bool := off.toNat % 4 == 0

/-- A command with operands within the ranges of the spec's fields. -/
def Instr.wf : Instr → Bool
  | .cellarEnqueue e => e.ok
  | .cellarAdmit puts _ _ => slotListOk puts.slots
  | .thaw _ _ puts => slotListOk puts.slots
  | .freezeTimeout puts => slotListOk puts.slots
  | .stemEnter puts => slotListOk puts.slots
  | .dmaDescriptorDone _ e => e.eng.ok
  | .dmaBeatFault _ _ _ b => b.eng.ok
  | .coldStart b => b.ok
  | .warmReset b => b.ok
  | .rstNHigh b => b.ok
  | .ethFrameReceived _ f => f.ok
  | .chgLoad _ _ img => img.all Image.ok
  | .rplStart _ _ img => img.all Image.ok
  | .install _ _ img _ => img.all Image.ok
  | .registerWrite _ off _ _ => offOk off
  | .takeRead _ off => offOk off
  | .read64Low _ off => offOk off
  | .read64High _ off => offOk off
  | .write64Low _ off _ => offOk off
  | .write64High _ off _ => offOk off
  | .hartDone _ (.reply bs) => decide (bs.length ≤ 271)
  | .shelfReceived _ _ _ words => decide (words.length ≤ 3069)
  | _ => true

end Sys2Proof
end

