-- ==== Sys2Proof/Safety.lean ====
section
/-!
DEFINITION. Safety.lean: the terms in which statements speak of a run: the canonical form of registers and memories, a step that goes on,
a lane that stands ready for an instruction, a host write that the access check lets act.
-/
namespace Sys2Proof.Machine
open Sys2Proof

/-- The addressed memories are in their canonical form: spaces rising, no empty space listed, in each space addresses rising and no
byte listed that equals what an unlisted byte reads. -/
def Memory.wf (m : KV (KV Byte)) : Bool := kvWf (fun _ => []) m && m.all (fun e => kvWf (fun _ => (0 : Byte)) e.2)

/-- The registers are in their canonical form: offsets rising, no register listed that holds its Reset value (R15). -/
def State.regsWf (s : State) : Bool := kvWf resetWord s.regs

/-- The outcome is a next state. -/
def goesOn (o : Host.Outcome State Fault Refusal) : Prop := ∃ t, o = .next t

/-- A safe run: `n` steps none of which stops. -/
def safeFor : Nat → State → Prop
  | 0, _ => True
  | n + 1, s => ∃ t, step s = .next t ∧ safeFor n t

/-- Lane `ln` stands before an instruction of cycle `c`: the lane runs it, no LIM awaits its LOOP, and the pc may be fetched (R162, R163). -/
def Ready (s : State) (ln : Fin 4) (c : Cycle) : Prop :=
  s.running ln = some c ∧ c.lim = none ∧ s.mayFetch c = true

/-- The state after an instruction that completes: the cycle's new content with the sticky bits added and its lane cycles counted, control
falling through from the pc. -/
def retired (s : State) (c c1 : Cycle) (cost sticky : Nat) : State :=
  s.putCyc ({ c1 with flg := c1.flg ||| sticky, exec := c1.exec + cost }.fall c.pc)

/-- The state after an instruction that moves control to `target`. -/
def jumped (s : State) (c1 : Cycle) (cost target : Nat) : State :=
  s.putCyc ({ c1 with exec := c1.exec + cost }.goto target)

/-- The access check lets a write of `w` at `a` through function `pf` act (R10 to R14, R376). -/
def State.permits (s : State) (pf a : Nat) (w : Word) (right : Option Nat) : Prop := (s.gate pf a w right false).1 = true

/-- The parts of the state: every field but the queue. -/
inductive Part where
  | clk
  | regs
  | cel
  | fns
  | sec
  | ports
  | rebind
  | fab
  | bin
  | inj
  | fp
  | mem
  | lanes
  | tsk
  | frc
  | uch
  | uchGrp
  | eth
  | olc
  | lft
  | dma
  | ecc
  | pwr
  | tim
  | outbox
deriving DecidableEq, Repr

/-- All parts. -/
def Part.all : List Part :=
  [.clk, .regs, .cel, .fns, .sec, .ports, .rebind, .fab, .bin, .inj, .fp, .mem, .lanes, .tsk, .frc, .uch, .uchGrp, .eth, .olc,
    .lft, .dma, .ecc, .pwr, .tim, .outbox]

/-- All parts but the listed. -/
def Part.allBut (l : List Part) : List Part := Part.all.filter (fun p => !l.contains p)

/-- The part is the same in both states. -/
def Part.same (s t : State) : Part → Prop
  | .clk => t.clk = s.clk
  | .regs => t.regs = s.regs
  | .cel => t.cel = s.cel
  | .fns => t.fns = s.fns
  | .sec => t.sec = s.sec
  | .ports => t.ports = s.ports
  | .rebind => t.rebind = s.rebind
  | .fab => t.fab = s.fab
  | .bin => t.bin = s.bin
  | .inj => t.inj = s.inj
  | .fp => t.fp = s.fp
  | .mem => t.mem = s.mem
  | .lanes => t.lanes = s.lanes
  | .tsk => t.tsk = s.tsk
  | .frc => t.frc = s.frc
  | .uch => t.uch = s.uch
  | .uchGrp => t.uchGrp = s.uchGrp
  | .eth => t.eth = s.eth
  | .olc => t.olc = s.olc
  | .lft => t.lft = s.lft
  | .dma => t.dma = s.dma
  | .ecc => t.ecc = s.ecc
  | .pwr => t.pwr = s.pwr
  | .tim => t.tim = s.tim
  | .outbox => t.outbox = s.outbox

/-- What an event entered in the Cellar's queue changes (R292, R374): registers, the Cellar, vectors of the host's functions and what leaves. -/
def logs : List Part := [.regs, .cel, .fns, .outbox]

/-- The parts of the state that a command may change; it leaves every other part as it is. -/
def touches : Instr → List Part
  | .deadline _ _ | .illegalOpcode _ _ | .add _ _ _ _ _ | .sub _ _ _ _ _ | .adds _ _ _ _ _ | .subs _ _ _ _ _ | .addus _ _ _ _ _
  | .subus _ _ _ _ _ | .mul _ _ _ _ _ | .mulh _ _ _ _ _ | .mulhu _ _ _ _ _ | .muls _ _ _ _ _ | .div _ _ _ _ _ | .divu _ _ _ _ _
  | .rem _ _ _ _ _ | .remu _ _ _ _ _ | .andReg _ _ _ _ _ | .orReg _ _ _ _ _ | .xorReg _ _ _ _ _ | .andnReg _ _ _ _ _ | .sll _ _ _ _ _
  | .srl _ _ _ _ _ | .sra _ _ _ _ _ | .ror _ _ _ _ _ | .slt _ _ _ _ _ | .sltu _ _ _ _ _ | .minS _ _ _ _ _ | .maxS _ _ _ _ _
  | .minu _ _ _ _ _ | .maxu _ _ _ _ _ | .abs _ _ _ _ _ | .clz _ _ _ _ _ | .addi _ _ _ _ | .addis _ _ _ _ | .andi _ _ _ _ | .ori _ _ _ _
  | .xori _ _ _ _ | .lui _ _ _ _ | .slti _ _ _ _ | .sltiu _ _ _ _ | .add64 _ _ _ _ _ | .sub64 _ _ _ _ _ | .adds64 _ _ _ _ _
  | .subs64 _ _ _ _ _ | .mull _ _ _ _ _ | .mullu _ _ _ _ _ | .and64 _ _ _ _ _ | .or64 _ _ _ _ _ | .xor64 _ _ _ _ _ | .sll64 _ _ _ _ _
  | .srl64 _ _ _ _ _ | .sra64 _ _ _ _ _ | .slt64 _ _ _ _ _ | .sltu64 _ _ _ _ _ | .sext _ _ _ _ _ | .zext _ _ _ _ _ | .qmul31 _ _ _ _ _
  | .qmulr31 _ _ _ _ _ | .qadd15 _ _ _ _ _ | .qsub15 _ _ _ _ _ | .qmul15 _ _ _ _ _ | .qshl31 _ _ _ _ _ | .qrsh31 _ _ _ _ _
  | .qneg31 _ _ _ _ _ | .qpack15 _ _ _ _ _ | .fadd _ _ _ _ _ | .fsub _ _ _ _ _ | .fmul _ _ _ _ _ | .fdiv _ _ _ _ _ | .fsqrt _ _ _ _ _
  | .fmin _ _ _ _ _ | .fmax _ _ _ _ _ | .fabs _ _ _ _ _ | .fneg _ _ _ _ _ | .fcmp _ _ _ _ _ | .fcvtsw _ _ _ _ _ | .fcvtws _ _ _ _ _
  | .fcvtwsz _ _ _ _ _ | .fscalb _ _ _ _ _ | .mfs _ _ _ _ _ | .mtf _ _ _ _ _ | .ldw _ _ _ _ | .ldh _ _ _ _ | .ldhu _ _ _ _ | .ldb _ _ _ _
  | .ldbu _ _ _ _ | .ldd _ _ _ _ | .cldw _ _ _ _ | .cldd _ _ _ _ | .nld _ _ _ _ | .nst _ _ _ _ | .sld _ _ _ _ _ | .sldp _ _ _ _ _
  | .ild _ _ _ _ | .ost _ _ _ _ | .shld _ _ _ _ _ | .shst _ _ _ _ _ | .gset _ _ _ _ | .evr _ _ _ _ | .cnote _ _ _ _ _ | .lim _ _ _ _
  | .loop _ _ _ _ _ | .beq _ _ _ _ | .bne _ _ _ _ | .blt _ _ _ _ | .bge _ _ _ _ | .bltu _ _ _ _ | .bgeu _ _ _ _ | .bf _ _ _ _ | .j _ _
  | .jl _ _ | .jr _ _ _ _ _ | .sel _ _ _ _ _ | .callv _ _ _ | .callvr _ _ _ _ _ => .lanes :: .tsk :: logs
  | .recLoad _ _ | .celCursorWrite _ _ | .celStep _ _ | .freeze _ _ | .teDisarm _ _ _ | .challenge _ _ _ | .attest _ _ | .identity _ _
  | .install _ _ _ _ | .svnCommit _ _ | .keyProgram _ _ _ | .tamperClear _ _ _ | .wipeReport _ _ | .mailboxUnknownCommand _ _ => .sec :: logs
  | .dmaGo _ _ _ _ | .dmaStop _ _ _ | .hostFunctionReset _ _ | .grant _ _ _ | .keyRevoke _ _ | .mailboxDone | .sessionLifetimeExpired
  | .sessionIdleExpired | .sessionClose _ _ | .serviceUartFrame _ _ _ | .tamperSet _ => .clk :: .sec :: .mem :: .dma :: logs
  | .tdoFail _ | .cellarEnqueue _ | .suppressed | .rejoin | .refFail | .lanLoss _ | .strapChg _ _ | .otWarn _ _ | .refOk => logs
  | .stw _ _ _ _ | .sth _ _ _ _ | .stb _ _ _ _ | .std _ _ _ _ | .cstw _ _ _ _ | .cstd _ _ _ _ | .retv _ _ => .mem :: .lanes :: .tsk :: logs
  | .forceArm _ _ _ | .forceDisarm _ _ _ | .forceValueWrite _ _ _ | .frcClearAll _ _ | .registerWrite _ _ _ _ | .write64Low _ _ _
  | .write64High _ _ _ => .sec :: .frc :: logs
  | .brownout _ | .supplyBack _ | .powerDown _ | .overvoltageDisconnect _ | .ot _ _ _ | .otClear _ _ _ | .vmainGood _ => .pwr :: logs
  | .lftTrig _ _ | .histClear _ _ _ | .recProtect _ _ | .recUnprotect _ _ | .recDelete _ _ | .exportGo _ _ => .sec :: .lft :: logs
  | .frameReceived _ _ _ _ _ | .echoReceived _ _ _ _ | .portLost _ | .portRecovered _ | .portDead _ => .ports :: .fab :: .inj :: .tsk :: .olc :: logs
  | .ptpSyncReceived _ _ _ | .ptpFollowUpReceived _ _ _ | .ppsEdge _ _ _ | .sourceLost _ | .holdoverExpired => .clk :: .eth :: .tim :: logs
  | .frameAlignmentAcquired _ | .frameAlignmentLost _ | .peerTimeReceived _ _ _ | .ackReceived _ _ _ _ => [.regs, .ports]
  | .directionalEvaluate _ | .stepHoldExpiry _ | .directionalHoldExpiry _ | .tdoRelease _ => [.regs, .inj]
  | .compResend _ | .pingSend _ | .peerTimeSend _ | .peerShelfSend _ _ => [.ports, .outbox]
  | .accept _ _ | .hstep _ _ | .teArm _ _ _ | .tciPop _ _ _ => .sec :: .tim :: logs
  | .ruleEvaluate _ | .ruleRearm _ | .voteReceived _ _ _ _ _ => .ports :: .inj :: .tsk :: .olc :: logs
  | .vcApply _ _ | .vcCancel _ _ | .chgSwitch _ _ => .sec :: .olc :: logs
  | .chgLoad _ _ _ | .chgCancel _ _ | .rplCancel _ _ => .sec :: .lanes :: .tsk :: .olc :: logs
  | .sentenceStep _ | .clauseTimeout _ | .scapArchived => [.regs, .fns, .inj, .lft, .outbox]
  | .readbackSlot _ _ | .grpFault _ | .grpRecover _ => .uch :: .uchGrp :: logs
  | .takeRead _ _ | .read64Low _ _ | .read64High _ _ => [.regs, .fns, .sec, .outbox]
  | .cycleRelease _ | .eventTaskRelease _ => .clk :: .mem :: .lanes :: .tsk :: .frc :: .olc :: .lft :: logs
  | .injTdoRst _ _ | .scapRearm _ _ => .sec :: .inj :: logs
  | .tdoFailClear _ | .hartFrameReceived _ => [.regs]
  | .scapFrozen | .domainFault _ => [.regs, .fns, .outbox]
  | .chatterHoldEnd _ | .persistentSet _ => .bin :: logs
  | .forceActivate _ | .forceEnd _ => .tsk :: .frc :: logs
  | .recordClose _ | .gapSkip _ => [.regs, .fns, .lft, .outbox]
  | .cellarAdmit _ _ _ | .freezeTimeout _ => .eth :: logs
  | .ptpAnnounceReceived _ | .tciCapture _ _ _ => .tim :: logs
  | .pdelayRespReceived _ | .tpoPulseEnd _ => [.regs, .tim]
  | .gooseReceived _ | .gooseTalExpired _ => .fab :: .tsk :: .eth :: .olc :: logs
  | .hostRxFrame | .hostTxSend => [.regs, .fns, .mem, .eth, .outbox]
  | .gooseRetransmit _ | .svPublish _ => [.regs, .eth, .outbox]
  | .conversionStart _ | .cmdApply _ => [.regs, .uch]
  | .conversionDone _ _ _ | .thermal _ _ => .uch :: logs
  | .uchHctlClr _ _ _ | .uchHctlReq _ _ _ => .sec :: .uch :: logs
  | .hartSend _ _ _ | .hartAbort _ _ _ => .sec :: .uchGrp :: logs
  | .mailboxResponseExpired | .challengeLapsed => [.sec]
  | .stem _ _ | .maint _ _ => .sec :: .pwr :: logs
  | .rstNLow | .watchdogExpired => .olc :: .pwr :: logs
  | .sixAdvance => Part.allBut [.rebind, .bin, .fp, .lanes, .olc, .ecc]
  | .outputRelease => Part.allBut [.sec, .rebind, .fab, .bin, .fp, .uchGrp, .dma, .ecc, .pwr, .tim]
  | .commandGroupSend _ => [.regs, .ports, .outbox]
  | .pantrySnapshot => [.clk, .regs, .fns, .mem, .tsk, .lft, .outbox]
  | .laneFail _ _ => .lanes :: .tsk :: .eth :: .olc :: .pwr :: logs
  | .takeover => .mem :: .lanes :: .tsk :: .eth :: logs
  | .wordDiscarded _ _ _ => [.regs, .ports, .fab, .inj]
  | .sampleReceived _ _ _ => [.regs, .fns, .fab, .inj, .outbox]
  | .chstatReceived _ _ _ => [.ports, .fab]
  | .unitstatReceived _ _ _ _ => .ports :: .fab :: logs
  | .calibrationFailed _ => [.regs, .fns, .ports, .outbox]
  | .helloReceived _ _ => .sec :: .ports :: .fab :: .inj :: .tsk :: .olc :: logs
  | .shelfReceived _ _ _ _ => [.regs, .fns, .ports, .fab, .outbox]
  | .messageTimeout _ => [.ports]
  | .hjlReadmit _ _ => .sec :: .ports :: logs
  | .hjlRebind _ _ => .sec :: .rebind :: logs
  | .stationRebind => .ports :: .rebind :: .fab :: .inj :: .tsk :: .olc :: logs
  | .tripRepeatSlot1 _ => [.regs, .outbox]
  | .tripUnack _ => .ports :: logs
  | .pickupExpired _ => [.regs, .inj, .outbox]
  | .fastpathConfigEffect => Part.allBut [.ports, .rebind, .mem, .lanes, .tsk, .frc, .olc, .dma, .ecc, .pwr]
  | .derivedValuesCompute _ => [.regs, .fns, .fab, .outbox]
  | .gridValueCompute _ => [.clk, .regs, .fns, .fab, .mem, .lft, .outbox]
  | .binaryInputSample _ _ => [.regs, .bin, .inj]
  | .binConfirm _ => .bin :: .tsk :: .olc :: logs
  | .dmaDescriptorDone _ _ => .clk :: .mem :: .tsk :: .olc :: .dma :: logs
  | .dmaBeatFault _ _ _ _ => .clk :: .mem :: .lanes :: .tsk :: .olc :: .lft :: .dma :: .pwr :: logs
  | .scrubError _ _ _ _ => Part.allBut [.clk, .sec, .rebind, .fab, .bin, .fp, .frc, .uch, .uchGrp, .dma, .tim]
  | .vcApplied => .mem :: .olc :: .lft :: logs
  | .chgLoadDone => [.regs, .fns, .mem, .lanes, .olc, .outbox]
  | .shadowStart => .mem :: .lanes :: .tsk :: .olc :: logs
  | .shadowDone => [.regs, .fns, .olc, .outbox]
  | .codeSwitch => .mem :: .lanes :: .tsk :: .frc :: .olc :: logs
  | .rplStart _ _ _ => .sec :: .mem :: .lanes :: .olc :: logs
  | .replayCycle => .fab :: .mem :: .lanes :: .tsk :: .olc :: logs
  | .replayDone => [.regs, .fns, .lanes, .tsk, .olc, .outbox]
  | .ringLineWrite => [.clk, .regs, .fns, .inj, .mem, .lft, .outbox]
  | .slowRingLine => [.clk, .mem, .lft]
  | .exportStop _ _ => .clk :: .sec :: .mem :: .lft :: logs
  | .expDone => [.regs, .fns, .mem, .lft, .outbox]
  | .thaw _ _ _ => .sec :: .eth :: logs
  | .pdelayReqSend _ _ => [.tim, .outbox]
  | .timeStep => .clk :: .fab :: .eth :: .lft :: .tim :: logs
  | .ackAsym _ _ => .clk :: .sec :: .eth :: .tim :: logs
  | .rtcUpdate => [.cel, .tim]
  | .ppsOutPulse => [.tim]
  | .timedEventFire _ => .tsk :: .olc :: .lft :: .tim :: logs
  | .ethFrameReceived _ _ => [.regs, .eth, .tim, .outbox]
  | .svFrameReceived _ => [.regs, .fns, .fab, .eth, .outbox]
  | .prpSupervisionSend _ => [.eth, .outbox]
  | .linkChg _ _ => [.regs, .fns, .eth, .outbox]
  | .controllerAlarmDrive _ => [.uch, .uchGrp]
  | .hartDone _ _ => .uchGrp :: logs
  | .msixUnmask _ _ _ _ => [.fns, .outbox]
  | .lifecycle _ _ _ _ => Part.allBut [.rebind, .fab, .bin, .fp, .frc, .uch, .uchGrp, .ecc, .tim]
  | .lockoutEnd => [.regs, .sec]
  | .coldStart _ => Part.all
  | .rideThroughExpired => [.regs, .fns, .pwr, .outbox]
  | .holdupExhausted _ => [.clk, .regs, .inj, .lanes, .tsk, .pwr]
  | .clockFault _ _ _ => Part.allBut [.rebind, .fab, .bin, .fp, .frc, .ecc, .tim]
  | .stemEnter _ => .ports :: .inj :: .lanes :: .tsk :: .eth :: .olc :: .lft :: .pwr :: logs
  | .stemCauseCleared _ => [.regs, .fns, .eth, .pwr, .outbox]
  | .stemReturn _ _ => Part.allBut [.clk, .ports, .rebind, .fab, .bin, .fp, .uchGrp, .olc, .dma, .ecc, .tim]
  | .halt _ _ => .sec :: .ports :: .inj :: .lanes :: .tsk :: .eth :: .olc :: .lft :: .pwr :: logs
  | .maintEnter => Part.allBut [.clk, .sec, .rebind, .fab, .bin, .fp, .frc, .uchGrp, .dma, .ecc, .tim]
  | .resume _ _ => .sec :: .eth :: .pwr :: logs
  | .warm _ _ => .sec :: .olc :: .pwr :: logs
  | .warmReset _ => Part.allBut [.ecc]
  | .laneRst _ _ => .sec :: .mem :: .lanes :: .pwr :: logs
  | .laneResetDone _ => .eth :: .pwr :: logs
  | .supplyWarn _ _ => [.regs, .pwr]
  | .rstNHigh _ => Part.allBut [.ports, .rebind, .bin, .lanes, .frc, .uch, .uchGrp, .olc, .dma, .ecc]
  | .scrubPassDone _ => [.regs, .ecc]

/-- The state behind the access check: the PF1 access noted, a denial of a reserved field counted (R13, R377, R386). -/
def State.checked (s : State) (pf a : Nat) (w : Word) (right : Option Nat) : State := (s.gate pf a w right false).2

end Sys2Proof.Machine
end

