-- ==== Sys2Proof/Certificates/Slice0/Obligations.lean ====
section
/-!
DEFINITION. Certificates/Slice0/Obligations.lean: the statements for the provers, by chapter of the spec.
-/
open Sys2Proof Sys2Proof.Machine

/-! ## The machine -/

/-- For every command and state, a step with the command at the front of the queue is the command's effect on the state with the queue's rest. With an empty queue a step leaves the state as it is: that clause is the model's own choice (notes/assumptions/1.md). -/
def Obligations.StepRunsFront : Prop :=
  (∀ (s : State) (c : Instr), step (s.pushFront c) = exec c s) ∧ ∀ s : State, s.pending = [] → step s = .next s

/-- At reset every register word reads the Reset column's value (R15); no memory holds a byte, no port has frame alignment, no cycle exists, no session is open, no command waits. Its registers and memories are in canonical form. -/
def Obligations.ResetState : Prop :=
  (∀ a, State.reset.rd a = resetWord a) ∧ (∀ sp a, State.reset.byteAt sp a = 0) ∧ (∀ p, (State.reset.port p).aligned = false) ∧
  (∀ k, State.reset.cycle k = none) ∧ State.reset.sec.session = none ∧ State.reset.clk.running = false ∧
  State.reset.pending = [] ∧ State.reset.outbox = [] ∧ State.reset.regsWf = true ∧ Memory.wf State.reset.mem = true

/-- Every step that goes on keeps the register memory canonical: offsets rise and no word equal to its Reset value is listed, so that equal registers are equal data. -/
def Obligations.RegistersStayCanonical : Prop :=
  ∀ s t : State, s.regsWf = true → step s = .next t → t.regsWf = true

/-- Every step that goes on keeps every addressed memory canonical: addresses rise and no byte is listed that equals what an unlisted byte reads. -/
def Obligations.MemoriesStayCanonical : Prop :=
  ∀ s t : State, Memory.wf s.mem = true → step s = .next t → Memory.wf t.mem = true

/-- A command's effect is on everything but the queue: whatever the command and the state, the queue afterwards is the queue before. -/
def Obligations.QueueIsLeftAlone : Prop :=
  ∀ (c : Instr) (s t : State), exec c s = .next t → t.pending = s.pending

/-- While SIX runs, SIX_ADVANCE, which is the start of a sample period, completes and advances it by exactly one; every other command (a warm reset, a lane reset, entry into and exit from STEM, HALT and MAINT, holdover, a time step, a change of time source among them) leaves it counting where it is. Excepted are the commands that bound the rule's 'between one cold start and the next': a cold start and the end of the hold-up supply, at which power is lost. -/
def Obligations.SampleIndexOnlyAdvances : Prop :=
  (∀ (c : Instr) (s t : State), s.clk.running = true → exec c s = .next t →
    (∀ b, c ≠ .coldStart b) → (∀ h, c ≠ .holdupExhausted h) →
    t.clk.running = true ∧ t.six = if c = .sixAdvance then s.six + 1 else s.six) ∧
  ∀ s : State, s.clk.running = true → ∃ t, exec .sixAdvance s = .next t ∧ t.six = s.six + 1 ∧ t.clk.running = true

/-- No command stops the block: whatever the command, its operands and the state, the outcome is a next state. -/
def Obligations.NoCommandStops : Prop := ∀ (c : Instr) (s : State), ∃ t, exec c s = .next t

/-- The frame of every command, for the 25 parts into which the state falls beside its queue (the registers, the Cellar, each memory space, the links, the fabric, the lanes, the tasks and so on): whatever the state, a part that touches does not list for the command is the same after it as before; where memory is not listed, every byte of every addressed memory reads as before. So no instruction of the Sogen set acts on a link, a trip element or an Ethernet context, no frame received acts on a lane's memory, and only starts and FASTPATH_CONFIG_EFFECT change the fast-path configuration in force. -/
def Obligations.OtherPartsAreLeftAlone : Prop :=
  ∀ (c : Instr) (s t : State), exec c s = .next t →
    (∀ p, p ∉ touches c → p.same s t) ∧ (Part.mem ∉ touches c → ∀ sp a, t.byteAt sp a = s.byteAt sp a)

/-! ## The Sogen instruction set -/

/-- On a lane that stands ready, each wrapping or logical integer instruction completes: g[d] takes the result, with the S bit Z, N, C and V as R144 says (C and V written as 0 but by ADD and SUB), and nothing else of the cycle changes but its lane cycles and its pc. g0 discards the result. -/
def Obligations.IntegerResults : Prop :=
  ∀ (s : State) (ln : Fin 4) (c : Cycle) (d a b : Fin 32) (sb : Bool), Ready s ln c →
    let x := c.reg a
    let y := c.reg b
    let out := fun (v : Word) (cf vf : Bool) (cost : Nat) =>
      (Host.Outcome.next (retired s c ((c.setReg d v).flags sb (zncv (v == 0) v.msb cf vf)) cost 0) : Host.Outcome State Fault Refusal)
    let sh := y.toNat % 32
    exec (.add ln d a b sb) s = out (x + y) (decide (2 ^ 32 ≤ x.toNat + y.toNat)) ((x + y).toInt != x.toInt + y.toInt) 1 ∧
    exec (.sub ln d a b sb) s = out (x - y) (decide (y.toNat ≤ x.toNat)) ((x - y).toInt != x.toInt - y.toInt) 1 ∧
    exec (.mul ln d a b sb) s = out (x * y) false false 2 ∧
    exec (.mulh ln d a b sb) s = out (BitVec.ofInt 32 (x.toInt * y.toInt / 2 ^ 32)) false false 2 ∧
    exec (.mulhu ln d a b sb) s = out (BitVec.ofNat 32 (x.toNat * y.toNat / 2 ^ 32)) false false 2 ∧
    exec (.andReg ln d a b sb) s = out (x &&& y) false false 1 ∧
    exec (.orReg ln d a b sb) s = out (x ||| y) false false 1 ∧
    exec (.xorReg ln d a b sb) s = out (x ^^^ y) false false 1 ∧
    exec (.andnReg ln d a b sb) s = out (x &&& ~~~y) false false 1 ∧
    exec (.sll ln d a b sb) s = out (x <<< sh) false false 1 ∧
    exec (.srl ln d a b sb) s = out (x >>> sh) false false 1 ∧
    exec (.sra ln d a b sb) s = out (x.sshiftRight sh) false false 1 ∧
    exec (.ror ln d a b sb) s = out (x.rotateRight sh) false false 1 ∧
    exec (.slt ln d a b sb) s = out (if x.toInt < y.toInt then 1 else 0) false false 1 ∧
    exec (.sltu ln d a b sb) s = out (if x.toNat < y.toNat then 1 else 0) false false 1 ∧
    exec (.minS ln d a b sb) s = out (if x.toInt < y.toInt then x else y) false false 1 ∧
    exec (.maxS ln d a b sb) s = out (if x.toInt < y.toInt then y else x) false false 1 ∧
    exec (.minu ln d a b sb) s = out (if x.toNat < y.toNat then x else y) false false 1 ∧
    exec (.maxu ln d a b sb) s = out (if x.toNat < y.toNat then y else x) false false 1 ∧
    (b.val = 0 → exec (.clz ln d a b sb) s = out (if x = 0 then 32 else BitVec.ofNat 32 (31 - Nat.log2 x.toNat)) false false 1)

/-- On a ready lane whose task does not trap SAT (FMASK bit 2 clear), every saturating instruction on words completes: g[d] takes the exact result clamped to its range, SAT is set exactly when it was clamped, and with the S bit V says so and C is 0. The packed instructions clamp each half on its own to s16, with V and SAT where one half was clamped. -/
def Obligations.SaturatingResults : Prop :=
  ∀ (s : State) (ln : Fin 4) (c : Cycle) (d a b : Fin 32) (sb : Bool), Ready s ln c → c.fmask &&& 4 = 0 →
    let x := c.reg a
    let y := c.reg b
    let clip := fun (lo hi v : Int) (cost : Nat) =>
      let r := BitVec.ofInt 32 (clampInt lo hi v)
      let sat := clampInt lo hi v != v
      (Host.Outcome.next (retired s c ((c.setReg d r).flags sb (zncv (r == 0) r.msb false sat)) cost (if sat then 256 else 0)) :
        Host.Outcome State Fault Refusal)
    let s32 := clip (-2147483648) 2147483647
    let hi := fun (w : Word) => (w.extractLsb' 16 16).toInt
    let lo := fun (w : Word) => (w.extractLsb' 0 16).toInt
    let half := fun (v : Int) => clampInt (-32768) 32767 v
    let pack := fun (h l : Int) (cost : Nat) =>
      let r : Word := BitVec.ofInt 16 (half h) ++ BitVec.ofInt 16 (half l)
      let sat := half h != h || half l != l
      (Host.Outcome.next (retired s c ((c.setReg d r).flags sb (zncv (r == 0) r.msb false sat)) cost (if sat then 256 else 0)) :
        Host.Outcome State Fault Refusal)
    exec (.adds ln d a b sb) s = s32 (x.toInt + y.toInt) 1 ∧
    exec (.subs ln d a b sb) s = s32 (x.toInt - y.toInt) 1 ∧
    exec (.addus ln d a b sb) s = clip 0 4294967295 ((x.toNat : Int) + y.toNat) 1 ∧
    exec (.subus ln d a b sb) s = clip 0 4294967295 ((x.toNat : Int) - y.toNat) 1 ∧
    exec (.muls ln d a b sb) s = s32 (x.toInt * y.toInt) 2 ∧
    (b.val = 0 → exec (.abs ln d a b sb) s = s32 x.toInt.natAbs 1) ∧
    exec (.qmul31 ln d a b sb) s = s32 (x.toInt * y.toInt / 2 ^ 31) 2 ∧
    exec (.qmulr31 ln d a b sb) s = s32 (rnd (x.toInt * y.toInt) (2 ^ 31)) 2 ∧
    exec (.qshl31 ln d a b sb) s = s32 (x.toInt * 2 ^ (y.toNat % 32)) 1 ∧
    (b.val = 0 → exec (.qneg31 ln d a b sb) s = s32 (-x.toInt) 1) ∧
    exec (.qadd15 ln d a b sb) s = pack (hi x + hi y) (lo x + lo y) 1 ∧
    exec (.qsub15 ln d a b sb) s = pack (hi x - hi y) (lo x - lo y) 1 ∧
    exec (.qmul15 ln d a b sb) s = pack (rnd (hi x * hi y) (2 ^ 15)) (rnd (lo x * lo y) (2 ^ 15)) 2 ∧
    exec (.qpack15 ln d a b sb) s = pack (rnd x.toInt (2 ^ 16)) (rnd y.toInt (2 ^ 16)) 2

/-- On a ready lane, whatever FMASK, QRSH31 completes with g[d] = rnd(a, 2^b[4:0]), and sets no sticky bit: no shift count and operand leave the range of a word. -/
def Obligations.RoundedShiftNeverClamps : Prop :=
  ∀ (s : State) (ln : Fin 4) (c : Cycle) (d a b : Fin 32) (sb : Bool), Ready s ln c →
    let v := rnd (c.reg a).toInt (2 ^ ((c.reg b).toNat % 32))
    let r := BitVec.ofInt 32 v
    r.toInt = v ∧
    exec (.qrsh31 ln d a b sb) s = .next (retired s c ((c.setReg d r).flags sb (zncv (r == 0) r.msb false false)) 1 0)

/-- On a ready lane, whatever the operands, division completes in 18 lane cycles or traps through FMASK alone. A divisor that is not 0 gives the quotient truncated toward zero, or the remainder x - (x / y) y, which takes the sign of x; -2^31 / -1 gives 0x7FFF_FFFF with SAT, and V with the S bit, and remainder 0; a divisor of 0 gives the extreme value of the sign of x (DIV), all ones (DIVU) or the dividend (REM, REMU) and sets DZ. Where FMASK traps the sticky bit that would be set, the instruction has no effect and ARITH names it. -/
def Obligations.DivisionResults : Prop :=
  ∀ (s : State) (ln : Fin 4) (c : Cycle) (d a b : Fin 32) (sb : Bool), Ready s ln c →
    let x := c.reg a
    let y := c.reg b
    let out := fun (v : Word) (vf : Bool) (sticky mask : Nat) =>
      (Host.Outcome.next (if c.fmask &&& mask = 0 then retired s c ((c.setReg d v).flags sb (zncv (v == 0) v.msb false vf)) 18 sticky
        else s.exception c 8 mask c.pc) : Host.Outcome State Fault Refusal)
    let ovr := x = 0x80000000#32 ∧ y = 0xffffffff#32
    (y ≠ 0 → ¬ovr → exec (.div ln d a b sb) s = out (BitVec.ofInt 32 (Int.tdiv x.toInt y.toInt)) false 0 0 ∧
      exec (.rem ln d a b sb) s = out (BitVec.ofInt 32 (x.toInt - Int.tdiv x.toInt y.toInt * y.toInt)) false 0 0) ∧
    (y ≠ 0 → exec (.divu ln d a b sb) s = out (BitVec.ofNat 32 (x.toNat / y.toNat)) false 0 0 ∧
      exec (.remu ln d a b sb) s = out (BitVec.ofNat 32 (x.toNat - x.toNat / y.toNat * y.toNat)) false 0 0) ∧
    (ovr → exec (.div ln d a b sb) s = out 0x7fffffff true 256 4 ∧ exec (.rem ln d a b sb) s = out 0 false 0 0) ∧
    (y = 0 → exec (.div ln d a b sb) s = out (if 0 ≤ x.toInt then 0x7fffffff#32 else 0x80000000#32) false 512 1 ∧
      exec (.divu ln d a b sb) s = out 0xffffffff false 512 1 ∧
      exec (.rem ln d a b sb) s = out x false 512 1 ∧ exec (.remu ln d a b sb) s = out x false 512 1)

/-- On a ready lane, immediate arithmetic takes one lane cycle and writes neither Z, N, C nor V: ADDI wraps, ADDIS clamps and sets SAT exactly when it clamps (with FMASK bit 2 it then raises ARITH instead), ANDI, ORI and XORI zero-extend, LUI shifts by 16 and needs a = 0 (else ILLEGAL, detail 3), SLTI compares signed, SLTIU compares with the sign-extended immediate unsigned. -/
def Obligations.ImmediateResults : Prop :=
  ∀ (s : State) (ln : Fin 4) (c : Cycle) (d a : Fin 32) (imm : BitVec 16), Ready s ln c →
    let x := c.reg a
    let se := imm.signExtend 32
    let ze := imm.setWidth 32
    let out := fun (v : Word) (sticky : Nat) =>
      (Host.Outcome.next (retired s c (c.setReg d v) 1 sticky) : Host.Outcome State Fault Refusal)
    let v := x.toInt + imm.toInt
    let k := clampInt (-2147483648) 2147483647 v
    exec (.addi ln d a imm) s = out (x + se) 0 ∧
    exec (.addis ln d a imm) s = (if k ≠ v ∧ c.fmask &&& 4 ≠ 0 then (.next (s.exception c 8 4 c.pc) : Host.Outcome State Fault Refusal)
      else out (BitVec.ofInt 32 k) (if k ≠ v then 256 else 0)) ∧
    exec (.andi ln d a imm) s = out (x &&& ze) 0 ∧
    exec (.ori ln d a imm) s = out (x ||| ze) 0 ∧
    exec (.xori ln d a imm) s = out (x ^^^ ze) 0 ∧
    exec (.lui ln d a imm) s = (if a.val = 0 then out (ze <<< 16) 0 else .next (s.exception c 1 3 c.pc)) ∧
    exec (.slti ln d a imm) s = out (if x.toInt < imm.toInt then 1 else 0) 0 ∧
    exec (.sltiu ln d a imm) s = out (if x.toNat < se.toNat then 1 else 0) 0

/-- On a ready lane whose task does not trap SAT, with even registers in every pair field, the 64-bit group completes: the pair or register d takes the result, with N from bit 63, and ADDS64 and SUBS64 clamp to s64. -/
def Obligations.PairResults : Prop :=
  ∀ (s : State) (ln : Fin 4) (c : Cycle) (d a b : Fin 32) (sb : Bool), Ready s ln c → c.fmask &&& 4 = 0 →
    let x := c.pair a
    let y := c.pair b
    let u := c.reg a
    let v := c.reg b
    let put := fun (r : BitVec 64) (cf vf : Bool) (cost sticky : Nat) =>
      (Host.Outcome.next (retired s c ((c.setPair d r).flags sb (zncv (r == 0) r.msb cf vf)) cost sticky) : Host.Outcome State Fault Refusal)
    let one := fun (p : Bool) =>
      (Host.Outcome.next (retired s c ((c.setReg d (if p then 1 else 0)).flags sb (zncv (!p) false false false)) 2 0) :
        Host.Outcome State Fault Refusal)
    let clip := fun (e : Int) =>
      let k := clampInt (-9223372036854775808) 9223372036854775807 e
      put (BitVec.ofInt 64 k) false (k != e) 2 (if k != e then 256 else 0)
    (d.val % 2 = 0 → a.val % 2 = 0 → b.val % 2 = 0 →
      exec (.add64 ln d a b sb) s = put (x + y) (decide (2 ^ 64 ≤ x.toNat + y.toNat)) ((x + y).toInt != x.toInt + y.toInt) 2 0 ∧
      exec (.sub64 ln d a b sb) s = put (x - y) (decide (y.toNat ≤ x.toNat)) ((x - y).toInt != x.toInt - y.toInt) 2 0 ∧
      exec (.adds64 ln d a b sb) s = clip (x.toInt + y.toInt) ∧ exec (.subs64 ln d a b sb) s = clip (x.toInt - y.toInt) ∧
      exec (.and64 ln d a b sb) s = put (x &&& y) false false 2 0 ∧ exec (.or64 ln d a b sb) s = put (x ||| y) false false 2 0 ∧
      exec (.xor64 ln d a b sb) s = put (x ^^^ y) false false 2 0) ∧
    (d.val % 2 = 0 →
      exec (.mull ln d a b sb) s = put (BitVec.ofInt 64 (u.toInt * v.toInt)) false false 3 0 ∧
      exec (.mullu ln d a b sb) s = put (BitVec.ofNat 64 (u.toNat * v.toNat)) false false 3 0) ∧
    (d.val % 2 = 0 → a.val % 2 = 0 →
      exec (.sll64 ln d a b sb) s = put (x <<< (v.toNat % 64)) false false 2 0 ∧
      exec (.srl64 ln d a b sb) s = put (x >>> (v.toNat % 64)) false false 2 0 ∧
      exec (.sra64 ln d a b sb) s = put (x.sshiftRight (v.toNat % 64)) false false 2 0) ∧
    (a.val % 2 = 0 → b.val % 2 = 0 →
      exec (.slt64 ln d a b sb) s = one (decide (x.toInt < y.toInt)) ∧ exec (.sltu64 ln d a b sb) s = one (decide (x.toNat < y.toNat))) ∧
    (d.val % 2 = 0 → b.val = 0 →
      exec (.sext ln d a b sb) s = put (u.signExtend 64) false false 1 0 ∧ exec (.zext ln d a b sb) s = put (u.setWidth 64) false false 1 0)

/-- On a ready lane that traps no sticky bit, every float instruction completes for all operands, in its lane cycles: the value comes from the operands' values (a subnormal a zero of its sign) by the rounding of R151, the sticky bits that R151 names are set, and with the S bit Z, N and V are those of R152. In particular, for every normal binary32 x and with no sticky bit set: x + 0, x - 0, x times 1, x / 1 and x scaled by 2^0 are x, the smaller and the larger of x and x are x, FABS clears and FNEG inverts the sign bit; with the S bit Z is 0, N the sign, C and V are 0. FCMP of x with itself writes Z and C. FSQRT of 1 is 1; FCVTSW of 1 is 1.0, and FCVTWS and FCVTWSZ of 1.0 are 1. -/
def Obligations.FloatIdentities : Prop :=
  ∀ (s : State) (ln : Fin 4) (c : Cycle) (d a b : Fin 32) (sb : Bool), Ready s ln c →
    let x := c.reg a
    let y := c.reg b
    let out := fun (v : Word) (cost : Nat) =>
      (Host.Outcome.next (retired s c ((c.setReg d v).flags sb (zncv false v.msb false false)) cost 0) : Host.Outcome State Fault Refusal)
    let did := fun (i : Instr) (cost : Nat) (r : Word × Nat) => exec i s =
      .next (retired s c ((c.setReg d r.1).flags sb (zncv (r.1 &&& 0x7FFFFFFF == 0) r.1.msb false (r.1 == 0x7FC00000))) cost r.2)
    let cvt := fun (i : Instr) (r : Alu 32) => exec i s = .next (retired s c ((c.setReg d r.val).flags sb r.flags) 2 r.sticky)
    (c.fmask = 0 → did (.fadd ln d a b sb) 3 (fpAdd (fpOf x) (fpOf y)) ∧ did (.fsub ln d a b sb) 3 (fpAdd (fpOf x) (fpOf y).neg) ∧
      did (.fmul ln d a b sb) 3 (fpMul (fpOf x) (fpOf y)) ∧ did (.fdiv ln d a b sb) 14 (fpDiv (fpOf x) (fpOf y)) ∧
      did (.fmin ln d a b sb) 1 (fPick true x y, 0) ∧ did (.fmax ln d a b sb) 1 (fPick false x y, 0) ∧
      did (.fscalb ln d a b sb) 2 (fpScale (fpOf x) y.toInt) ∧
      (b.val = 0 → did (.fsqrt ln d a b sb) 16 (fpSqrt (fpOf x)) ∧ did (.fabs ln d a b sb) 1 (fTake x &&& 0x7FFFFFFF, 0) ∧
        did (.fneg ln d a b sb) 1 (fpWord (fpOf x).neg, 0) ∧ did (.fcvtsw ln d a b sb) 2 (fOfInt x) ∧
        cvt (.fcvtws ln d a b sb) (fToInt rnd x) ∧ cvt (.fcvtwsz ln d a b sb) (fToInt (fun v n => Int.tdiv v n) x))) ∧
    (d.val = 0 → exec (.fcmp ln d a b sb) s = .next (retired s c { c with flg := withZncv c.flg (fCmp x y) } 1 0)) ∧
    (1 ≤ fieldOf x 23 8 → fieldOf x 23 8 ≤ 254 →
      (y = 0 → exec (.fadd ln d a b sb) s = out x 3 ∧ exec (.fsub ln d a b sb) s = out x 3 ∧ exec (.fscalb ln d a b sb) s = out x 2) ∧
      (y = 0x3F800000 → exec (.fmul ln d a b sb) s = out x 3 ∧ exec (.fdiv ln d a b sb) s = out x 14) ∧
      (y = x → exec (.fmin ln d a b sb) s = out x 1 ∧ exec (.fmax ln d a b sb) s = out x 1) ∧
      (b.val = 0 → exec (.fabs ln d a b sb) s = out (x &&& 0x7FFFFFFF) 1 ∧ exec (.fneg ln d a b sb) s = out (x ^^^ 0x80000000) 1) ∧
      (d.val = 0 → y = x → exec (.fcmp ln d a b sb) s = .next (retired s c { c with flg := withZncv c.flg (zncv true false true false) } 1 0))) ∧
    (b.val = 0 → x = 0x3F800000 → exec (.fsqrt ln d a b sb) s = out x 16 ∧ exec (.fcvtws ln d a b sb) s = out 1 2 ∧
      exec (.fcvtwsz ln d a b sb) s = out 1 2) ∧
    (b.val = 0 → x = 1 → exec (.fcvtsw ln d a b sb) s = out 0x3F800000 2)

/-- On a ready lane whose task does not trap NV: a NaN operand gives the canonical NaN 0x7FC0_0000 without a sticky bit; infinity minus infinity, zero times infinity and zero by zero give it and set NV; the square root of -1 does too; FCMP with a NaN writes V alone; FCVTWS of a NaN gives 0 with NV. -/
def Obligations.FloatNaNAndInvalid : Prop :=
  ∀ (s : State) (ln : Fin 4) (c : Cycle) (d a b : Fin 32) (sb : Bool), Ready s ln c → c.fmask &&& 2 = 0 →
    let x := c.reg a
    let y := c.reg b
    let isNan := fun (w : Word) => fieldOf w 23 8 = 255 ∧ fieldOf w 0 23 ≠ 0
    let nan := fun (cost sticky : Nat) =>
      (Host.Outcome.next (retired s c ((c.setReg d 0x7FC00000).flags sb (zncv false false false true)) cost sticky) :
        Host.Outcome State Fault Refusal)
    ((isNan x ∨ isNan y) → exec (.fadd ln d a b sb) s = nan 3 0 ∧ exec (.fsub ln d a b sb) s = nan 3 0 ∧
      exec (.fmul ln d a b sb) s = nan 3 0 ∧ exec (.fdiv ln d a b sb) s = nan 14 0 ∧
      (d.val = 0 → exec (.fcmp ln d a b sb) s = .next (retired s c { c with flg := withZncv c.flg 8 } 1 0))) ∧
    (x = 0x7F800000 → y = 0x7F800000 → exec (.fsub ln d a b sb) s = nan 3 1024) ∧
    (x = 0 → y = 0x7F800000 → exec (.fmul ln d a b sb) s = nan 3 1024) ∧
    (x = 0 → y = 0 → exec (.fdiv ln d a b sb) s = nan 14 1024) ∧
    (b.val = 0 → x = 0xBF800000 → exec (.fsqrt ln d a b sb) s = nan 16 1024) ∧
    (b.val = 0 → isNan x → exec (.fcvtws ln d a b sb) s =
      .next (retired s c ((c.setReg d 0).flags sb (zncv true false false true)) 2 1024))

/-- On a ready lane, MFS completes for every special register: FLG, NB, the release SIX by words and as a pair, TID, the period (0 for an event task), FMASK, DEPTH, the open loops, the staged words and the partition. MTF writes Z, N, C and V from g[a], and clears each sticky bit whose bit of g[a] is 0. MFS of codes 12 to 31 raises ILLEGAL with detail 4. -/
def Obligations.SpecialRegisters : Prop :=
  ∀ (s : State) (ln : Fin 4) (c : Cycle) (d a b : Fin 32), Ready s ln c → b.val = 0 →
    let get := fun (v : Nat) =>
      (Host.Outcome.next (retired s c (c.setReg d (BitVec.ofNat 32 v)) 1 0) : Host.Outcome State Fault Refusal)
    (a.val = 0 → exec (.mfs ln d a b false) s = get c.flg) ∧
    (a.val = 1 → exec (.mfs ln d a b false) s = get (if c.frames.length = 1 ∧ s.curPsize c = 0 then 0 else c.nb)) ∧
    (a.val = 2 → exec (.mfs ln d a b false) s = get c.rel) ∧
    (a.val = 3 → exec (.mfs ln d a b false) s = get (c.rel / 2 ^ 32)) ∧
    (a.val = 4 → exec (.mfs ln d a b false) s = get c.tid) ∧
    (a.val = 5 → exec (.mfs ln d a b false) s = get (if c.event then 0 else c.period)) ∧
    (a.val = 6 → exec (.mfs ln d a b false) s = get c.fmask) ∧
    (a.val = 7 → exec (.mfs ln d a b false) s = get c.frames.length) ∧
    (a.val = 8 → exec (.mfs ln d a b false) s = get c.loops.length) ∧
    (a.val = 9 → exec (.mfs ln d a b false) s = get c.top.staged.length) ∧
    (a.val = 10 → exec (.mfs ln d a b false) s = get c.part) ∧
    (a.val = 11 → d.val % 2 = 0 → exec (.mfs ln d a b false) s = .next (retired s c (c.setPair d (BitVec.ofNat 64 c.rel)) 2 0)) ∧
    (12 ≤ a.val → exec (.mfs ln d a b false) s = .next (s.exception c 1 4 c.pc)) ∧
    (d.val = 0 → exec (.mtf ln d a b false) s =
      .next (retired s c { c with flg := (c.reg a).toNat % 16 ||| (c.flg &&& (c.reg a).toNat &&& 0x700) } 1 0))

/-- On a ready lane of a live cycle (kind 0), a load completes when its address is aligned to its size and a region of the partition grants the task the read: g[d] takes the bytes there, little-endian, zero- or sign-extended; LDW to LDD from lane data memory in 2 or 3 cycles, CLDW and CLDD from common SRAM in 12. A misaligned address raises MPU with detail 1, one without a region MPU with detail 0. -/
def Obligations.LoadResults : Prop :=
  ∀ (s : State) (ln : Fin 4) (c : Cycle) (d a : Fin 32) (imm : BitVec 16) (p : Partition),
    Ready s ln c → c.kind = 0 → (s.lane c.lane).img = some p →
    let ad := (c.reg a + imm.signExtend 32).toNat
    let get := fun (v : Word) (cost : Nat) =>
      (Host.Outcome.next (retired s c (c.setReg d v) cost 0) : Host.Outcome State Fault Refusal)
    let data := 9 + c.lane
    let grants := fun (sp n : Nat) => partGrants p sp .read c.tid ad n = true
    (ad % 4 = 0 → grants 1 4 → exec (.ldw ln d a imm) s = get (BitVec.ofNat 32 (s.loadNat data ad 4)) 2) ∧
    (ad % 2 = 0 → grants 1 2 → exec (.ldhu ln d a imm) s = get (BitVec.ofNat 32 (s.loadNat data ad 2)) 2 ∧
      exec (.ldh ln d a imm) s = get ((BitVec.ofNat 16 (s.loadNat data ad 2)).signExtend 32) 2) ∧
    (grants 1 1 → exec (.ldbu ln d a imm) s = get ((s.byteAt data ad).setWidth 32) 2 ∧
      exec (.ldb ln d a imm) s = get ((s.byteAt data ad).signExtend 32) 2) ∧
    (d.val % 2 = 0 → ad % 8 = 0 → grants 1 8 →
      exec (.ldd ln d a imm) s = .next (retired s c (c.setPair d (BitVec.ofNat 64 (s.loadNat data ad 8))) 3 0)) ∧
    (ad % 4 = 0 → grants 2 4 → exec (.cldw ln d a imm) s = get (BitVec.ofNat 32 (s.loadNat 1 ad 4)) 12) ∧
    (d.val % 2 = 0 → ad % 8 = 0 → grants 2 8 →
      exec (.cldd ln d a imm) s = .next (retired s c (c.setPair d (BitVec.ofNat 64 (s.loadNat 1 ad 8))) 12 0)) ∧
    (ad % 4 ≠ 0 → exec (.ldw ln d a imm) s = .next (s.exception c 2 1 c.pc)) ∧
    (ad % 4 = 0 → ¬grants 1 4 → exec (.ldw ln d a imm) s = .next (s.exception c 2 0 c.pc))

/-- On a ready lane of a live cycle, a store whose address is aligned and granted completes: the n bytes at its address hold the low n bytes of the operand, least significant first; every byte outside them, in that memory and in every other, reads as before; every BAR0 register, every other cycle and every general register of the cycle is unchanged, and the pc moves on. -/
def Obligations.StoresWriteTheirBytesOnly : Prop :=
  ∀ (s : State) (ln : Fin 4) (c : Cycle) (d a : Fin 32) (imm : BitVec 16) (p : Partition),
    Ready s ln c → c.kind = 0 → (s.lane c.lane).img = some p →
    let ad := (c.reg a + imm.signExtend 32).toNat
    let grants := fun (sp n : Nat) => partGrants p sp .write c.tid ad n = true
    let wrote := fun (i : Instr) (sp n v cost : Nat) => ∃ t, exec i s = .next t ∧
      (∀ k, k < n → t.byteAt sp (ad + k) = BitVec.ofNat 8 (v / 256 ^ k)) ∧
      (∀ q x, ¬(q = sp ∧ ad ≤ x ∧ x < ad + n) → t.byteAt q x = s.byteAt q x) ∧
      (∀ x, t.rd x = s.rd x) ∧ (∀ k, k ≠ c.key → t.cycle k = s.cycle k) ∧
      t.cycle c.key = some ({ c with exec := c.exec + cost }.fall c.pc)
    (ad % 4 = 0 → grants 1 4 → wrote (.stw ln d a imm) (9 + c.lane) 4 (c.reg d).toNat 1) ∧
    (ad % 2 = 0 → grants 1 2 → wrote (.sth ln d a imm) (9 + c.lane) 2 (c.reg d).toNat 1) ∧
    (grants 1 1 → wrote (.stb ln d a imm) (9 + c.lane) 1 (c.reg d).toNat 1) ∧
    (d.val % 2 = 0 → ad % 8 = 0 → grants 1 8 → wrote (.std ln d a imm) (9 + c.lane) 8 (c.pair d).toNat 2) ∧
    (ad % 4 = 0 → grants 2 4 → wrote (.cstw ln d a imm) 1 4 (c.reg d).toNat 12) ∧
    (d.val % 2 = 0 → ad % 8 = 0 → grants 2 8 → wrote (.cstd ln d a imm) 1 8 (c.pair d).toNat 12)

/-- On a ready lane, ILD at byte offset g[a] + zext(imm16) loads that word of the cycle's input image into g[d] in 12 cycles; an offset that is no multiple of 4 raises MPU (detail 1, the misalignment of R154), and an offset whose word lies beyond the task's image raises MPU with detail 0. -/
def Obligations.InputRegionLoad : Prop :=
  ∀ (s : State) (ln : Fin 4) (c : Cycle) (d a : Fin 32) (imm : BitVec 16), Ready s ln c →
    let o := (c.reg a + imm.setWidth 32).toNat
    (o % 4 = 0 → o + 4 ≤ c.img.size →
      exec (.ild ln d a imm) s = .next (retired s c (c.setReg d (kvGet (fun _ => 0) c.img.region o)) 12 0)) ∧
    (o % 4 ≠ 0 → exec (.ild ln d a imm) s = .next (s.exception c 2 1 c.pc)) ∧
    (o % 4 = 0 → c.img.size < o + 4 → exec (.ild ln d a imm) s = .next (s.exception c 2 0 c.pc))

/-- On a ready lane: NLD at a word offset inside the current noun gives the word of R155; NST at one outside the parameter section stages g[d] while the verb's staging allowance lasts; SLD and SLDP of a declared context give the item, and the pair of items, of the cycle's frozen image; SHLD of a shelf that the cyclic task may read gives the shelf's word as frozen. -/
def Obligations.NounAndImageAccess : Prop :=
  ∀ (s : State) (ln : Fin 4) (c : Cycle) (d a b : Fin 32) (imm : BitVec 16) (ctx : BitVec 8) (ch : BitVec 5) (item : BitVec 8)
    (fn : BitVec 11) (h : Shelf), Ready s ln c →
    let o := (c.reg a + imm.setWidth 32).toNat
    let inside := o % 4 = 0 ∧ o < s.curNsize c
    (inside → exec (.nld ln d a imm) s = .next (retired s c (c.setReg d (s.nounWord c o)) 2 0)) ∧
    (inside → s.curPsize c ≤ o → c.top.staged.length < s.maxStaged c.lane c.top.verb →
      exec (.nst ln d a imm) s = .next (retired s c (c.stage o (c.reg d)) 2 0)) ∧
    (s.declares c ctx.toNat = true →
      exec (.sld ln d ctx ch item) s =
        .next (retired s c (c.setReg d (kvGet (fun _ => 0) c.img.items (itemKey ctx.toNat ch.toNat item.toNat))) 12 0)) ∧
    (s.declares c ctx.toNat = true → d.val % 2 = 0 → 0x10 ≤ item.toNat → item.toNat ≤ 0x2C → item.toNat % 2 = 0 →
      exec (.sldp ln d ctx ch item) s = .next (retired s c (c.setPair d
        (kvGet (fun _ => 0) c.img.items (itemKey ctx.toNat ch.toNat (item.toNat + 1)) ++
          kvGet (fun _ => 0) c.img.items (itemKey ctx.toNat ch.toNat item.toNat))) 13 0)) ∧
    (b.val = 0 → fn.toNat < 1024 → s.shelf c.lane fn.toNat = some h → s.readsShelf c h = true → (c.reg a).toNat < h.words →
      exec (.shld ln d a b fn) s =
        .next (retired s c (c.setReg d (kvGet (fun _ => 0) (kvGet (fun _ => []) c.img.shelves fn.toNat) (c.reg a).toNat)) 12 0))

/-- On a ready lane: OST, SHST and GSET of a word, shelf or gate that the task owns put the value into the cycle's write buffers; EVR and CNOTE append an event and a note with its payload to them. Whatever they write shows nowhere else before the cycle's output release: the next state differs from the state before in the cycle alone. The seventeenth note of a cycle is dropped and, for a task's own cycle, counted at once. -/
def Obligations.BufferedOutputs : Prop :=
  ∀ (s : State) (ln : Fin 4) (c : Cycle) (d a b : Fin 32) (imm : BitVec 16) (fn : BitVec 11) (h : Shelf), Ready s ln c →
    let o := (c.reg a + imm.setWidth 32).toNat
    let i := imm.toNat
    let v := (c.reg d).toNat
    let payload := (c.reg b).toNat = 0 ∨ (s.lane c.lane).img.any (fun p => partGrants p 1 .read c.tid (c.reg a).toNat (c.reg b).toNat) = true
    let written := kvPut (fun _ => none) (kvGet (fun _ => []) c.shst fn.toNat) (c.reg a).toNat (some (c.reg d))
    (o % 4 = 0 → s.ownsOut c (o / 4) = true →
      exec (.ost ln d a imm) s = .next (retired s c { c with ost := kvPut (fun _ => none) c.ost (o / 4) (some (c.reg d)) } 12 0)) ∧
    (b.val = 0 → fn.toNat < 1024 → s.shelf c.lane fn.toNat = some h → h.writer = c.tid → (c.reg a).toNat < h.words →
      exec (.shst ln d a b fn) s = .next (retired s c { c with shst := kvPut (fun _ => []) c.shst fn.toNat written } 12 0)) ∧
    (d.val = 0 → a.val = 0 → i < 128 → s.ownsGate c (i % 64) = true →
      exec (.gset ln d a imm) s = .next (retired s c { c with gset := kvPut (fun _ => none) c.gset (i % 64) (some (i / 64)) } 2 0)) ∧
    (d.val = 0 → 128 ≤ i → i < 256 → s.ownsGate c (i % 64) = true →
      exec (.gset ln d a imm) s =
        .next (retired s c { c with gset := kvPut (fun _ => none) c.gset (i % 64) (some ((c.reg a).toNat % 2)) } 2 0)) ∧
    (d.val = 0 → a.val = 0 → i < 16 → exec (.evr ln d a imm) s = .next (retired s c { c with evr := c.evr ++ [i] } 2 0)) ∧
    (fn = 0 → v < 2 ^ 14 → bit v 11 = false → (c.reg b).toNat ≤ 64 → (c.reg a).toNat % 4 = 0 → payload →
      (c.notes.length < 16 → exec (.cnote ln d a b fn) s = .next (retired s c
        { c with notes := c.notes ++ [⟨0x800 + v % 2048, v / 4096 % 4, s.loadBytes (spData c.lane) (c.reg a).toNat (c.reg b).toNat⟩] } 20 0)) ∧
      (16 ≤ c.notes.length → exec (.cnote ln d a b fn) s = .next (retired (s.noteDropped c) c { c with drops := c.drops + 1 } 20 0)) ∧
      (c.kind = 0 → c.tid < 48 → (s.noteDropped c).get (F.TSK_T_CNT.NOTE_DROP c.tid) = min (s.get (F.TSK_T_CNT.NOTE_DROP c.tid) + 1) 255 ∧
        (s.noteDropped c).flag F.TSK_EVT.NOTE_DROP = true))

/-- On a ready lane: a compare and branch goes to pc + 4 imm when its comparison of g[d] and g[a] holds and falls through otherwise; BF does so on its condition, J always, JL with the link in g31, JR to g[a]; each takes 2 cycles. SEL gives g[a] when its condition holds, else g[b], in one. -/
def Obligations.BranchesAndJumps : Prop :=
  ∀ (s : State) (ln : Fin 4) (c : Cycle) (d a b : Fin 32) (imm : BitVec 16) (off : BitVec 26) (fn : BitVec 11), Ready s ln c →
    let x := c.reg d
    let y := c.reg a
    let target := (BitVec.ofNat 32 c.pc + BitVec.ofInt 32 (4 * imm.toInt)).toNat
    let far := (BitVec.ofNat 32 c.pc + BitVec.ofInt 32 (4 * off.toInt)).toNat
    let br := fun (p : Prop) [Decidable p] =>
      (Host.Outcome.next (if p then jumped s c 2 target else retired s c c 2 0) : Host.Outcome State Fault Refusal)
    exec (.beq ln d a imm) s = br (x = y) ∧ exec (.bne ln d a imm) s = br (x ≠ y) ∧
    exec (.blt ln d a imm) s = br (x.toInt < y.toInt) ∧ exec (.bge ln d a imm) s = br (y.toInt ≤ x.toInt) ∧
    exec (.bltu ln d a imm) s = br (x.toNat < y.toNat) ∧ exec (.bgeu ln d a imm) s = br (y.toNat ≤ x.toNat) ∧
    (d.val < 15 → a.val = 0 → exec (.bf ln d a imm) s = br (condTrue d.val c.flg = true)) ∧
    (d.val = 15 → a.val = 0 → exec (.bf ln d a imm) s = .next (s.exception c 1 4 c.pc)) ∧
    exec (.j ln off) s = .next (jumped s c 2 far) ∧
    exec (.jl ln off) s = .next (jumped s (c.setReg 31 (BitVec.ofNat 32 (c.pc + 4))) 2 far) ∧
    (b.val = 0 → fn = 0 → exec (.jr ln d a b fn) s = .next (jumped s c 2 y.toNat)) ∧
    (b.val = 0 → fn = 1 → exec (.jr ln d a b fn) s = .next (jumped s (c.setReg d (BitVec.ofNat 32 (c.pc + 4))) 2 y.toNat)) ∧
    (fn.toNat < 15 → exec (.sel ln d a b fn) s =
      .next (retired s c (c.setReg d (if condTrue fn.toNat c.flg then y else c.reg b)) 1 0))

/-- On a ready lane, codes 0 to 14 hold as the table says of Z, N, C and V: BF branches exactly when its code holds and SEL selects g[a] exactly then; both raise ILLEGAL on code 15. After SUB with its S bit, codes 0 to 9 are the comparisons they name. -/
def Obligations.ConditionCodes : Prop :=
  (∀ (s : State) (ln : Fin 4) (c : Cycle) (d a b : Fin 32) (imm : BitVec 16) (fn : BitVec 11), Ready s ln c →
    let z := bit c.flg 0
    let n := bit c.flg 1
    let cy := bit c.flg 2
    let v := bit c.flg 3
    let holds := fun k : Nat => [z, !z, n != v, n == v, !cy, cy, !z && n == v, z || n != v, cy && !z, !cy || z, n, !n, v, !v, true].getD k false
    let far := (BitVec.ofNat 32 c.pc + BitVec.ofInt 32 (4 * imm.toInt)).toNat
    (a.val = 0 → d.val < 16 → exec (.bf ln d a imm) s =
      .next (if d.val = 15 then s.exception c 1 4 c.pc else if holds d.val then jumped s c 2 far else retired s c c 2 0)) ∧
    (fn.toNat < 16 → exec (.sel ln d a b fn) s = .next (if fn.toNat = 15 then s.exception c 1 4 c.pc
      else retired s c (c.setReg d (if holds fn.toNat then c.reg a else c.reg b)) 1 0))) ∧
  ∀ (x y : Word) (flg : Nat),
    let f := withZncv flg (opSub x y).flags
    (condTrue 0 f = true ↔ x = y) ∧ (condTrue 1 f = true ↔ x ≠ y) ∧
    (condTrue 2 f = true ↔ x.toInt < y.toInt) ∧ (condTrue 3 f = true ↔ y.toInt ≤ x.toInt) ∧
    (condTrue 4 f = true ↔ x.toNat < y.toNat) ∧ (condTrue 5 f = true ↔ y.toNat ≤ x.toNat) ∧
    (condTrue 6 f = true ↔ y.toInt < x.toInt) ∧ (condTrue 7 f = true ↔ x.toInt ≤ y.toInt) ∧
    (condTrue 8 f = true ↔ y.toNat < x.toNat) ∧ (condTrue 9 f = true ↔ x.toNat ≤ y.toNat)

/-- LIM on a ready lane sets the bound and moves to the LOOP that must follow; LOOP under that bound opens a loop of g[a] turns whose counter g[d] starts at 0. CALLV and CALLVR of a verb and noun of the task, with depth and staging words to spare, open a frame and move to the verb's entry. LOOP of no turns goes on behind its last instruction. RETV of an inner call commits its staged words, gives back its reservation and returns behind the call, its loops closed; RETV of the entry call completes the cycle. An illegal word raises ILLEGAL and changes nothing by itself. -/
def Obligations.LoopsCallsAndReturns : Prop :=
  ∀ (s : State) (ln : Fin 4) (c : Cycle) (d a b : Fin 32) (imm : BitVec 16) (fn : BitVec 11) (w : Word) (v : BitVec 10) (n : BitVec 16)
    (vb : Verb) (nn : Noun) (f g : CallFr) (fs : List CallFr),
    let x := s.lane c.lane
    let called := c.depth < 8 ∧ x.resv + vb.maxstg ≤ 512 ∧ nn.task = c.tid ∧ nn.verb = v.toNat ∧
      s.verb c.lane v.toNat = some vb ∧ s.noun c.lane n.toNat = some nn
    let turn : LoopFr := ⟨c.pc + 4, c.pc + 4 * fn.toNat, (c.reg a).toNat, 0, d, c.depth⟩
    let opened := jumped (s.setLane c.lane { x with resv := x.resv + vb.maxstg })
      { c with frames := ⟨c.pc + 4, c.nb, v.toNat, n.toNat, []⟩ :: c.frames, nb := nn.base } 6 vb.entry
    (Ready s ln c → d.val = 0 → a.val = 0 → imm ≠ 0 → exec (.lim ln d a imm) s = .next (jumped s { c with lim := some imm.toNat } 1 (c.pc + 4))) ∧
    (∀ bound, s.running ln = some c → s.mayFetch c = true → c.lim = some bound → c.loops = [] → b.val = 0 → fn ≠ 0 → (c.reg a).toNat ≤ bound →
      c.reg a ≠ 0 → exec (.loop ln d a b fn) s = .next (jumped s { c.setReg d 0 with lim := none, loops := [turn] } 2 (c.pc + 4))) ∧
    (∀ bound, s.running ln = some c → s.mayFetch c = true → c.lim = some bound → b.val = 0 → fn ≠ 0 → c.pastEnd (c.pc + 4 * fn.toNat) = false →
      c.loops.length < 8 → c.reg a = 0 → ∃ t k, exec (.loop ln d a b fn) s = .next t ∧ t.cycle c.key = some k ∧ k.lim = none ∧
        c.exec + 2 ≤ k.exec) ∧
    (Ready s ln c → called → exec (.callv ln v n) s = .next opened) ∧
    (Ready s ln c → called → d.val = 0 → b.val = 0 → fn.toNat = v.toNat → (c.reg a).toNat = n.toNat →
      exec (.callvr ln d a b fn) s = .next opened) ∧
    (Ready s ln c → c.frames = [f] → ∃ t, exec (.retv ln 0) s = .next t ∧ (t.cycle c.key).map (fun k => (k.status, k.ended)) = some (3, s.six)) ∧
    (Ready s ln c → c.frames = f :: g :: fs → 4 ≤ f.ret → (∀ l, l ∈ c.loops → l.frame = c.depth) → ∃ t, exec (.retv ln 0) s = .next t ∧
      t.cycle c.key = some { c with
        frames := g :: fs, nb := f.nb, loops := [], pc := f.ret, exec := c.exec + (4 + s.maxStaged c.lane f.verb),
        journal := c.journal ++ f.words.map (fun e => (mirrorAddr c.part (c.nb + e.1), e.2)) } ∧
      (t.lane c.lane).resv = x.resv - s.maxStaged c.lane f.verb) ∧
    (∀ k, Ready s ln c → illegalDetail w = some k → exec (.illegalOpcode ln w) s = .next (s.exception c 1 k c.pc))

/-- On a ready lane: a saturating instruction that clamps under FMASK bit 2 and a float instruction that is invalid under FMASK bit 1 raise ARITH with that bit as detail, whether or not the sticky bit was set before; an operand field that must be 0 and is not raises ILLEGAL with detail 3, an odd register in a pair field ILLEGAL with detail 2. In each the state is the cycle's exception at its pc, nothing of the instruction's own having been written. -/
def Obligations.ArithmeticTraps : Prop :=
  ∀ (s : State) (ln : Fin 4) (c : Cycle) (d a b : Fin 32) (sb : Bool), Ready s ln c →
    let x := c.reg a
    let y := c.reg b
    let trap := fun (i : Instr) (code detail : Nat) => exec i s = .next (s.exception c code detail c.pc)
    let out := fun (v : Int) => v < -2147483648 ∨ 2147483647 < v
    (c.fmask &&& 4 ≠ 0 → (out (x.toInt + y.toInt) → trap (.adds ln d a b sb) 8 4) ∧ (out (x.toInt - y.toInt) → trap (.subs ln d a b sb) 8 4) ∧
      (out (x.toInt * y.toInt) → trap (.muls ln d a b sb) 8 4) ∧ (2 ^ 32 ≤ x.toNat + y.toNat → trap (.addus ln d a b sb) 8 4) ∧
      (x.toNat < y.toNat → trap (.subus ln d a b sb) 8 4)) ∧
    (c.fmask &&& 2 ≠ 0 → (x = 0x7F800000 → y = 0x7F800000 → trap (.fsub ln d a b sb) 8 2) ∧ (x = 0 → y = 0 → trap (.fdiv ln d a b sb) 8 2)) ∧
    (b.val ≠ 0 → trap (.clz ln d a b sb) 1 3 ∧ trap (.abs ln d a b sb) 1 3 ∧ trap (.qneg31 ln d a b sb) 1 3 ∧ trap (.fsqrt ln d a b sb) 1 3 ∧
      trap (.fabs ln d a b sb) 1 3 ∧ trap (.fneg ln d a b sb) 1 3) ∧
    (d.val % 2 = 1 → trap (.add64 ln d a b sb) 1 2 ∧ trap (.mull ln d a b sb) 1 2 ∧ trap (.sll64 ln d a b sb) 1 2 ∧ trap (.sext ln d a b sb) 1 2) ∧
    (a.val % 2 = 1 → trap (.slt64 ln d a b sb) 1 2)

/-! ## Hjelig links -/

/-- A port in DOWN that gains frame alignment is in SYNC; a port in SYNC, HELLO or CALIB that loses it is in DOWN. A HELLO that passes every check of R63 in SYNC is admitted: the next incarnation is taken and the port is in CALIB under it. In the first 64 PINGs a matching ECHO adds its loop time less turnaround to the sum. A calibration that has failed refuses with reason 0x06, puts the port in SYNC and ignores HELLO for 100 ms. -/
def Obligations.LinkAdmission : Prop :=
  ∀ (s : State) (p : Fin 44) (h : Hello) (tag : BitVec 8) (span : BitVec 20) (turn : BitVec 16),
    let x := s.port p
    (s.portState p = pDOWN → ∃ t, exec (.frameAlignmentAcquired p) s = .next t ∧ t.portState p = pSYNC ∧ (t.port p).aligned = true) ∧
    ((s.portState p = pSYNC ∨ s.portState p = pHELLO ∨ s.portState p = pCALIB) →
      ∃ t, exec (.frameAlignmentLost p) s = .next t ∧ t.portState p = pDOWN ∧ (t.port p).aligned = false) ∧
    (s.portState p = pSYNC → x.whole 1 = true → x.ignoreTill ≤ s.six → s.helloReason p h = none →
      ∃ t, exec (.helloReceived p h) s = .next t ∧ t.sec.incarnation = nextInc s.sec.incarnation ∧ t.portState p = pCALIB ∧
        t.portInc p = t.sec.incarnation % 65536 ∧ (t.port p).calPhase = 4) ∧
    (x.pingOut = true → tag.toNat = x.pingTag → turn.toNat ≤ 16000 → turn.toNat ≤ span.toNat → s.portState p = pCALIB → x.calPhase = 4 →
      x.calCount < 63 → ∃ t, exec (.echoReceived p tag span turn) s = .next t ∧ (t.port p).calCount = x.calCount + 1 ∧
        (t.port p).calSum = x.calSum + (span.toNat - turn.toNat) ∧ (t.port p).pingOut = false ∧ (t.port p).pingMiss = 0) ∧
    (s.portState p = pCALIB → 16 ≤ x.pingMiss → ∃ t, exec (.calibrationFailed p) s = .next t ∧ t.portState p = pSYNC ∧
      t.get (F.HJL_P_REFUSE.REASON p) = 6 ∧ (t.port p).ignoreTill = s.six + 200000)

/-- A PING that is due takes the next tag and leaves in slot 24; a COMP not confirmed in time is sent again; PEER_TIME carries the full SIX after RUN; a group that waits on a port in RUN leaves as its APPLY word and its CMD words in order; from the fifth frame of a decision that nothing has acknowledged, one TRIP word leaves in slot 1 of the frame while the unit is armed and the port may send. The words are the newest entries of what has left the engine. -/
def Obligations.LinkWordsSent : Prop :=
  ∀ (s : State) (p : Fin 44) (q : Fin 4) (d : Trip) (c k : Nat) (g : CmdGroup),
    let x := s.port p
    let tag := (x.pingTag + 1) % 256
    let pl := beBytes 8 s.six ++ beBytes 1 0
    (s.pingDue p = true → ∃ t, exec (.pingSend p) s = .next t ∧ t.outbox = .word p 24 (mkWord 0x04 0 (tag * 65536) 0xFF) :: s.outbox ∧
      (t.port p).pingTag = tag ∧ (t.port p).pingOut = true) ∧
    (x.compPend = some (c, k) → nextAfter 256 k + 256 ≤ s.six → ∃ t, exec (.compResend p) s = .next t ∧
      t.outbox = .word p 25 (mkWord 0x06 0 c 0xFF) :: s.outbox ∧ (t.port p).compPend = some (c, s.six)) ∧
    (s.portState (40 + q) = pRUN → (s.port (40 + q)).timeSent = false → ∃ t, exec (.peerTimeSend q) s = .next t ∧
      t.outbox = .msg (40 + q) 6 (crc16 pl) pl (msgWords (((s.port (40 + q)).msgSeq + 1) % 8) 6 pl) :: s.outbox ∧
      (t.port (40 + q)).timeSent = true) ∧
    (x.group = some g → s.portState p = pRUN → s.opstate = 0 → ∃ t, exec (.commandGroupSend p) s = .next t ∧ (t.port p).group = none ∧
      t.outbox = (g.words.map (fun e => Out.word p 25 (mkWord 0x0A g.seq (e.1 * 65536 + e.2) 0xFF))).reverse ++
        (.word p 25 (mkWord 0x09 g.seq (g.apply % 65536 * 256 + g.words.length) 0xFF) :: s.outbox)) ∧
    (x.trips = [d] → d.acked = false → s.portSends p = true → s.flag F.INJ_STATUS.ARMED = true → d.n0 + 5 ≤ s.six → ∃ t, exec (.tripRepeatSlot1 p) s = .next t ∧
      t.outbox = .word p 1 (tripWord (s.portInc p) d.index d.seq) :: s.outbox ∧ t.get (F.HJL_P_TRIP.SLOT1 p) = 1)

/-- In RUN a FRAME word of a sample link with the expected SIX makes the frame valid and clears the mismatches. In a port that does not serve, a frame is noted as received. A sample of a valid current frame is filed under the frame's SIX with its code, the context's SIX and source follow, and the elements of its channel evaluate up to it. CHSTAT and UNITSTAT leave their masks and flags. A discarded word counts in its error counter, by what it failed, in every state but QUARANTINE. A message whose words stop for 64 samples is dropped. -/
def Obligations.FramesAndSamples : Prop :=
  ∀ (s : State) (p : Fin 44) (q : Fin 32) (c : Fin 8) (code : BitVec 24) (six24 : BitVec 24) (arr : Fin 65536) (pub : BitVec 64)
    (ovr settle : BitVec 8) (inc shelf : BitVec 16) (ust flags : BitVec 4) (slot : Fin 25) (crc : Bool) (m n : Nat),
    let x := s.port p
    let y := s.port q
    (s.portState q = pRUN → six24.toNat = s.expectedSix q arr % 2 ^ 24 →
      ∃ t, exec (.frameReceived ⟨q.val, by omega⟩ six24 arr none ⟨pub, shelf⟩) s = .next t ∧ (t.port q).frameSix = s.expectedSix q arr ∧
        (t.port q).frameValid = true ∧ (t.port q).mismatches = 0 ∧ (t.port q).lastFrame = s.six) ∧
    (s.portState p = pSYNC → ∃ t, exec (.frameReceived p six24 arr none ⟨pub, shelf⟩) s = .next t ∧ (t.port p).lastFrame = s.six) ∧
    (s.portServes q = true → s.inFrame q = true → y.useFrom ≤ y.frameSix → s.feeds q y.frameSix = some n → n < 32 →
      ∃ u : State, exec (.sampleReceived q c code) s = .next (u.elementsTo (8 * n + c) y.frameSix) ∧
        (u.listed (chKey n c) y.frameSix).map (fun z => (z.six, z.code)) = some (y.frameSix, code.toInt) ∧
        u.get64 (A.SFB_C_SIX n) = y.frameSix % 2 ^ 64 ∧ u.get (F.SFB_C_STATE.SOURCE n) = q.val) ∧
    (s.portState q ≠ pQUAR → ∃ t, exec (.chstatReceived q ovr settle) s = .next t ∧
      (t.port q).ovr = ovr.toNat ∧ (t.port q).settle = settle.toNat) ∧
    (s.portState p = pCALIB → x.compPend = none → ∃ t, exec (.unitstatReceived p inc ust flags) s = .next t ∧
      (t.port p).test = bit flags.toNat 1 ∧ (t.port p).toggle = bit flags.toNat 3) ∧
    (s.portState p ≠ pQUAR → ∃ t, exec (.wordDiscarded p slot crc) s = .next t ∧
      (crc = true → t.get (F.HJL_P_ERR.CRC_ERR p) = min (s.get (F.HJL_P_ERR.CRC_ERR p) + 1) 65535) ∧
      (crc = false → t.get (F.HJL_P_ERR.CODE_ERR p) = min (s.get (F.HJL_P_ERR.CODE_ERR p) + 1) 65535)) ∧
    (∀ k, x.rx = some (m, k) → k + 64 ≤ s.six → ∃ t, exec (.messageTimeout p) s = .next t ∧ (t.port p).rx = none)

/-- A sample port in service without a valid frame for three frames is LOST with its dead timer set, and LOST is signalled; after 16 good frames before the timer ends it is back in the state it left, and its samples count from the next frame; at the timer's end it is DEAD with its incarnation retired. Under the right OPERATE, HJL_READMIT takes a quarantined port to DOWN, and HJL_REBIND of a station whose home port waits in STANDBY makes the move pend until the hyperboundary, at which the station is in RUN at home and the spare in STANDBY. -/
def Obligations.LossAndReturn : Prop :=
  ∀ (s : State) (p : Fin 44) (q : Fin 32) (pf : Fin 2) (w : Word) (n : Nat),
    let x := s.port p
    (s.portServes q = true → (s.port q).lastFrame + 3 < s.six → ∃ t, exec (.portLost ⟨q.val, by omega⟩) s = .next t ∧ t.portState q = pLOST ∧
      (t.port q).deadEnd = s.six + s.get (F.HJL_P_CFG.DEAD_MS q) * 2000 ∧ (t.port q).lostFrom = s.portState q ∧ t.flag (F.HJL_P_EVT.LOST q) = true) ∧
    (s.portState q = pLOST → 16 ≤ (s.port q).goodRun → s.six < (s.port q).deadEnd → (s.port q).lostFrom < 16 →
      ∃ t, exec (.portRecovered ⟨q.val, by omega⟩) s = .next t ∧ t.portState q = (s.port q).lostFrom ∧
        (t.port q).useFrom = (s.port q).frameSix + 1) ∧
    (s.portState q = pLOST → (s.port q).deadEnd ≤ s.six → s.spareFor (s.station q) = none →
      ∃ t, exec (.portDead ⟨q.val, by omega⟩) s = .next t ∧ t.portState q = pDEAD ∧ t.portInc q = 0 ∧ (t.port q).retired = s.portInc q ∧
        (t.port q).trips = []) ∧
    (s.permits pf A.HJL_READMIT w (some 0) → fieldOf w 0 6 = p.val → bit w.toNat 8 = true → s.portState p = pQUAR →
      ∃ t, exec (.hjlReadmit pf w) s = .next t ∧ t.portState p = pDOWN ∧ (t.port p).aligned = false ∧ t.get F.HJL_READMIT.PORT = p.val) ∧
    (s.permits pf A.HJL_REBIND w (some 0) → fieldOf w 0 6 = p.val → bit w.toNat 16 = true → s.rebind = none → s.portState p = pSTANDBY →
      s.get (F.HJL_P_CFG.ROLE p) ≠ 2 → ∃ t, exec (.hjlRebind pf w) s = .next t ∧ t.rebind = some p.val ∧ t.get F.HJL_REBIND.PENDING = 1) ∧
    (s.rebind = some q.val → s.six % hyperPeriod = 0 → s.boundEntry q = some n → n < 8 → s.portState q = pSTANDBY →
      s.get (F.HJL_SPARE.SPARE_PORT n) < 32 → s.portState (s.get (F.HJL_SPARE.SPARE_PORT n)) = pBOUND →
      ∃ t, exec .stationRebind s = .next t ∧ t.rebind = none ∧ t.portState q = pRUN ∧
        t.portState (s.get (F.HJL_SPARE.SPARE_PORT n)) = pSTANDBY ∧ t.get (F.HJL_SPARE.BOUND n) = 0)

/-- An ACK with the port's incarnation takes the decision whose codeword and sequence it carries out of the pending ones, and no other. A decision unacknowledged for 200 samples raises TRIP_UNACK once, and stays. PEER_TIME on a peer port in RUN starts the offset from the full SIX, timed by the frame in which the message began. A SHELF message whole for a context of kind 6 that takes it is the newest data of that context, under the publish SIX translated. -/
def Obligations.TripAcknowledgement : Prop :=
  ∀ (s : State) (p : Fin 44) (q : Fin 4) (cw : BitVec 16) (seq : BitVec 4) (inc : BitVec 16) (d : Trip) (v pub : BitVec 64) (arr : Fin 65536)
    (id : BitVec 16) (ws : List Word) (n : Nat),
    let x := s.port p
    let y := s.port (40 + q)
    let begun := if y.rx.isSome then y.rxAt else s.six * 65536 + arr.val
    (inc.toNat = s.portInc p → s.portState p ≠ pQUAR → ∃ t, exec (.ackReceived p cw seq inc) s = .next t ∧
      (t.port p).pending = x.pending.filter (fun e => !(codeword e.index == cw.toNat && e.seq == seq.toNat))) ∧
    (x.trips = [d] → d.acked = false → d.unack = false → d.n0 + 200 ≤ s.six → ∃ t, exec (.tripUnack p) s = .next t ∧
      (t.port p).trips = [{ d with unack := true }] ∧ t.flag (F.HJL_P_EVT.TRIP_UNACK p) = true) ∧
    (s.portState (40 + q) = pRUN → y.whole 6 = true → y.peerSamples = [] → ∃ t, exec (.peerTimeReceived q v arr) s = .next t ∧
      (t.port (40 + q)).peerSamples =
        [(v.toNat : Int) * 65536 - ((begun : Nat) - (delayUnits (s.get (F.HJL_P_DELAY.D (40 + q))) : Int))]) ∧
    (s.portState (40 + q) = pRUN → y.whole 7 = true → s.fp.peers = [(n, (40 + q.val, id.toNat))] → s.kind n = 6 → s.ctxState n = 2 → (s.ctx n).missFrom = none →
      ∃ t, exec (.shelfReceived q id pub ws) s = .next t ∧
        (t.ctx n).data.head?.map (fun e => (e.tag, e.words)) = some (s.ownSix (40 + q) pub.toNat, ws))

/-! ## Sample fabric and binary inputs -/

/-- While the sample fabric runs and the last inputs of a context of kind 1 or 2 are known at a boundary and no value is filed yet, DERIVED_VALUES_COMPUTE files the values of every channel for the base cycle that ended there, under its last SIX, as R89 to R96 derive them; a value that saturated raises SAT. A grid value of a subscribed stream whose two values are there is filed under the SIX before this one, which the context then shows; so is the MISSING value of one whose values are not. -/
def Obligations.DerivedAndGridValues : Prop :=
  ∀ (s : State) (n : Fin 256) (sub : SvSub),
    let b := s.six / 100 * 100
    let g := s.six - 1
    let v := s.setCtx n { s.ctx n with sv := (s.ctx n).sv.filter (fun e => e.arr < s.six) }
    let x := v.gridSamp n 0 g sub.rate
    (s.fabricOn = true → s.kind n = 1 ∨ s.kind n = 2 → s.nch n ≤ 32 → (s.ctx n).old = none → 100 ≤ b →
      (∀ c, c < s.nch n → (s.perSix n c (b - 1)).isSome = true ∧ s.derivAt n c (b - 1) = none) →
      ∃ u, exec (.derivedValuesCompute n) s = .next u ∧ ∀ c, c < s.nch n → u.derivAt n c (b - 1) = some (s.derive n c (b - 1)).1 ∧
        ((s.derive n c (b - 1)).2 = true → u.flag F.SFB_EVT.SAT = true)) ∧
    (s.fabricOn = true → s.kind n = 2 → s.nch n = 1 → (s.ctx n).old = none → s.fp.svSub.lookup n.val = some sub → 25 ≤ s.six → s.six % 25 = 0 →
      s.get (F.SFB_C_SVDLY.D n) ≤ g → s.listed (chKey n 0) g = none → g < 2 ^ 64 →
      (bit x.q 2 = false → ∃ t, exec (.gridValueCompute n) s = .next t ∧ t.listed (chKey n 0) g = some x ∧ t.get64 (A.SFB_C_SIX n) = g) ∧
      (bit x.q 2 = true → 2 ≤ s.ctxState n → ∃ t, exec (.gridValueCompute n) s = .next t ∧
        (t.listed (chKey n 0) g).map (fun z => bit z.q 2) = some true))

/-- Once in a sample period the pins are read: BIN_RAW shows every input's level. A level that has stood DEB samples is confirmed and counted, outside HALT: an input that is not blocked and has no chatter detection follows it, VALID unless it is PERSISTENT, and a blocked one keeps the state it shows. An input blocked for chatter is unblocked HOLD_S seconds after its last confirmed transition, and an input active for PERS_S seconds is PERSISTENT and raises its event. -/
def Obligations.BinaryInputConditioning : Prop :=
  ∀ (s : State) (n : Fin 32) (pins : BitVec 32) (tdr : BitVec 8) (k : Nat),
    let x := s.binIn n
    (s.clk.running = true → s.bin.last ≠ some s.six → ∃ t, exec (.binaryInputSample pins tdr) s = .next t ∧
      t.bin.last = some s.six ∧ t.rd A.BIN_RAW = BitVec.ofNat 32 (s.rawWord pins)) ∧
    (s.bin.last = some s.six → s.opstate ≠ 2 → x.runLevel ≠ x.q → s.get (F.BIN_I_CFG.DEB n) ≤ s.six - x.runStart →
      ∃ t, exec (.binConfirm n) s = .next t ∧ (t.binIn n).q = x.runLevel ∧ (t.binIn n).confirmed = s.six ∧
        t.get (F.BIN_I_CNT.TRANS n) = min (s.get (F.BIN_I_CNT.TRANS n) + 1) 65535 ∧
        (x.blocked = true → t.flag (bitField A.BIN_STATE n) = s.flag (bitField A.BIN_STATE n)) ∧
        (x.blocked = false → s.flag (F.BIN_I_CFG.CHAT_EN n) = false → t.flag (bitField A.BIN_STATE n) = x.runLevel ∧
          (s.flag (bitField A.BIN_PERSIST n) = false → t.flag (bitField A.BIN_VALID n) = true))) ∧
    (x.blocked = true → x.confirmed + s.get (F.BIN_I_TIME.HOLD_S n) * 2000000 ≤ s.six → ∃ t, exec (.chatterHoldEnd n) s = .next t ∧
      (t.binIn n).blocked = false ∧ t.flag (bitField A.BIN_STATE n) = x.q) ∧
    (s.flag (F.BIN_I_CFG.PERS_EN n) = true → s.flag (bitField A.BIN_PERSIST n) = false → x.persSince = some k →
      k + s.get (F.BIN_I_TIME.PERS_S n) * 2000000 ≤ s.six → ∃ t, exec (.persistentSet n) s = .next t ∧
        t.flag (bitField A.BIN_PERSIST n) = true ∧ t.flag (bitField A.BIN_PERS_EVT n) = true)

/-! ## The interjection unit -/

/-- A level comparator in mode 1 (above), 2 (below) or 3 (magnitude), at one SIX: an unusable sample resets it; while its output is true, it stays so exactly while the sample meets the test widened by HYST, the count restarting when it drops; while it is false, a sample that meets the test counts, saturating at 255, and any other restarts the count, and the output is whether the count has reached PC. From rest, PC samples in a row that meet the test make the output true after the last of them and not before. -/
def Obligations.LevelElementCounts : Prop :=
  ∀ (mode pc : Nat) (th hyst : Int) (e : ElSt) (x : Samp) (xs : List Samp), 1 ≤ mode → mode ≤ 3 → 1 ≤ pc → pc ≤ 255 →
    let meets := fun (v w : Int) => (mode = 1 ∧ th - w ≤ v) ∨ (mode = 2 ∧ v ≤ th + w) ∨ (mode = 3 ∧ th - w ≤ (v.natAbs : Int))
    let u := levelStep mode pc th hyst e x
    let run := fun (l : List Samp) => l.foldl (fun y z => levelStep mode pc th hyst y z) ElSt.reset
    (x.usable = false → u.cnt = 0 ∧ u.out = false) ∧
    (x.usable = true → e.out = true → (u.out = true ↔ meets x.code hyst) ∧ (u.out = false → u.cnt = 0)) ∧
    (x.usable = true → e.out = false → (meets x.code 0 → u.cnt = min (e.cnt + 1) 255) ∧ (¬meets x.code 0 → u.cnt = 0) ∧
      (u.out = true ↔ pc ≤ u.cnt)) ∧
    (xs.length = pc → (∀ z ∈ xs, z.usable = true ∧ meets z.code 0) →
      (run xs).out = true ∧ ∀ k, k < pc → (run (xs.take k)).out = false)

/-- In an armed unit with no change of settings in reach: a step element past its hold whose SIX after the hold meets no step drops its output there; a directional pair with 2Q usable samples of both channels evaluates its next SIX, forward and reverse by the two sums of R115, and holds what it found; after a hold with no usable window the output drops; a rule that is enabled and whose sources are known evaluates its next SIX, is true exactly where its terms are, and once true is disarmed; a disarmed rule whose dropout run completes is re-armed. -/
def Obligations.ElementsAndRulesEvaluate : Prop :=
  ∀ (s : State) (n : Fin 256) (p : Fin 64) (r : Fin 128) (a b : List Samp) (y : Samp),
    let k := (s.chan n).step.holdEnd + 1
    let d := s.pair p
    let vch := s.get (F.INJ_D_CH.VCH p)
    let ich := s.get (F.INJ_D_CH.ICH p)
    let q := s.get (F.INJ_D_CH.QM1 p) + 1
    let bf := pairBF (s.get (F.INJ_D_KZ.KZ p)) (windowStep q a) (windowStep q b)
    let met := fun (x z : Int) => pairMeets (s.get (F.INJ_D_BMIN.BMIN p)) (s.get (F.INJ_D_CTL.RATIO p)) x z
    let runs := s.flag F.INJ_STATUS.ARMED = true ∧ s.inj.since < d.next ∧ d.next ≤ s.six ∧ s.flag (F.INJ_D_CH.EN p) = true
    let idle := s.usableWindow vch d.next q = none ∧ (s.fast vch d.next).isSome = true ∧ (s.fast ich d.next).isSome = true
    let u := (s.ruleReady r).2
    let x := u.rule r
    let o := u.injAt x.next
    (s.flag F.INJ_STATUS.ARMED = true → s.flag (F.INJ_C_STAT.STEP n) = true → k ≤ s.six → (s.chan n).next = k → s.inj.since < k →
      s.fast n k = some y → y.six = k →
      (∀ l, s.usableWindow n k (s.get (F.INJ_C_STEP_CTL.QM1 n) + 1) = some l →
        (windowStep (s.get (F.INJ_C_STEP_CTL.QM1 n) + 1) l).natAbs < s.get (F.INJ_C_STEP_TH.TH n)) →
      ∃ t, exec (.stepHoldExpiry n) s = .next t ∧ (t.chan n).next = k + 1 ∧ t.flag (F.INJ_C_STAT.STEP n) = false) ∧
    (runs → s.usableWindow vch d.next q = some a → s.usableWindow ich d.next q = some b →
      ∃ t, exec (.directionalEvaluate p) s = .next t ∧ (t.pair p).next = d.next + 1 ∧
        (met bf.1 bf.2 = true → t.flag (F.INJ_D_CTL.FWD p) = true ∧ (t.pair p).fwd.holdEnd = d.next + s.get (F.INJ_D_CTL.HOLD p) - 1) ∧
        (met bf.2 bf.1 = true → t.flag (F.INJ_D_CTL.REV p) = true ∧ (t.pair p).rev.holdEnd = d.next + s.get (F.INJ_D_CTL.HOLD p) - 1) ∧
        (met bf.1 bf.2 = false → met bf.2 bf.1 = true → t.flag (F.INJ_D_CTL.FWD p) = false)) ∧
    (runs → idle →
      (s.flag (F.INJ_D_CTL.FWD p) = true → d.next = d.fwd.holdEnd + 1 → ∃ t, exec (.directionalHoldExpiry p) s = .next t ∧
        (t.pair p).next = d.next + 1 ∧ t.flag (F.INJ_D_CTL.FWD p) = false) ∧
      (s.flag (F.INJ_D_CTL.FWD p) = false → s.flag (F.INJ_D_CTL.REV p) = true → d.next = d.rev.holdEnd + 1 →
        ∃ t, exec (.directionalHoldExpiry p) s = .next t ∧ (t.pair p).next = d.next + 1 ∧ t.flag (F.INJ_D_CTL.REV p) = false)) ∧
    ((s.ruleReady r).1 = true → ∃ t, exec (.ruleEvaluate r) s = .next t ∧ (t.rule r).next = x.next + 1 ∧
      (t.rule r).tru = o.ruleTrue r x.next ∧ t.flag (F.INJ_R_STAT.TRUE r) = o.ruleTrue r x.next ∧
      (o.ruleTrue r x.next = true → (t.rule r).armed = false)) ∧
    ((s.ruleReady r).1 = true → s.rule r = x → s.ruleFrom r x.next = u.ruleFrom r x.next → (u.ruleFrom r x.next).armed = false →
      o.ruleTrue r x.next = false → o.get (F.INJ_R_CTRL.DROPOUT r) ≤ (u.ruleFrom r x.next).lowRun + 1 → o.get (F.INJ_R_CTRL.DROPOUT r) ≤ 65535 →
      ∃ t, exec (.ruleRearm r) s = .next t ∧ (t.rule r).armed = true ∧ (t.rule r).next = x.next + 1)

/-- A vote of state PICKUP from a peer in RUN that the group listens to is its newest vote. A pickup whose wait has ended is dropped. A TDO falls at a SIX at or past its minimum time at which none of its rules is true; it then goes off, or is LATCHED under LATCH; a reset kick lets a latched TDO that nothing drives go off; a readback that disagrees for RB_T samples raises TDO_FAIL, and one that agrees as long clears it. A capture buffer whose POST samples are written freezes with the decision's SIX, and SCAP_REARM empties it. -/
def Obligations.VotesAndTripOutputs : Prop :=
  ∀ (s : State) (p : Fin 4) (wire : BitVec 6) (six : BitVec 16) (vs : BitVec 3) (g : Fin 16) (n : Fin 8) (pf : Fin 2) (w : Word) (k : Nat) (e : Pickup),
    let x := s.group g
    let y := s.tdo n
    let vote : Vote := ⟨p, 1, s.translate16 (40 + p) six.toNat, s.six, vs.toNat⟩
    ((List.range 16).find? (fun i => s.flag (F.INJ_G_CFG.EN i) && s.get (F.INJ_G_CFG.WIRE i) == wire.toNat) = some g.val →
      s.portState (40 + p) = pRUN → bit (s.get (F.INJ_G_CFG.PEERMASK g)) p = true → x.votes = [] → x.pickups = [] → x.picks = [] →
      ∃ t, exec (.voteReceived p wire 1 six vs) s = .next t ∧ (t.group g).votes = [vote]) ∧
    (x.pickups = [e] → e.rule < 128 → e.six + s.get (F.INJ_G_WIN.VWAIT g) ≤ s.six →
      ∃ t, exec (.pickupExpired g) s = .next t ∧ (t.group g).pickups = [] ∧ t.flag (F.INJ_R_STAT.PICKUP e.rule) = false) ∧
    (∀ j, s.tdoFalls n = some j → ∃ d, y.latest = some d ∧ d + s.get (F.INJ_T_CFG.TMIN n) * 100 ≤ j ∧ ∀ i, i ∈ y.rules → s.ruleAt i j = false) ∧
    (s.flag (F.INJ_T_STAT.CMD n) = true → s.tdoFalls n = some k →
      (s.flag (F.INJ_T_CFG.LATCH n) = false → ∃ t, exec (.tdoRelease n) s = .next t ∧ t.flag (bitField A.INJ_TDO n) = false ∧
        t.flag (F.INJ_T_STAT.CMD n) = false) ∧
      (s.flag (F.INJ_T_CFG.LATCH n) = true → y.rstReq = false → ∃ t, exec (.tdoRelease n) s = .next t ∧
        t.flag (F.INJ_T_STAT.LATCHED n) = true ∧ t.flag (F.INJ_T_STAT.CMD n) = true)) ∧
    (s.permits pf A.INJ_TDO_RST w (some 0) → fieldOf w 0 8 = 2 ^ n.val → s.flag (F.INJ_T_STAT.LATCHED n) = true → s.tdoDriven n = false →
      ∃ t, exec (.injTdoRst pf w) s = .next t ∧ t.flag (F.INJ_T_STAT.LATCHED n) = false ∧ t.flag (F.INJ_T_STAT.CMD n) = false) ∧
    (s.flag (F.INJ_T_STAT.CMD n) = true → s.flag (F.INJ_T_CFG.RB_EN n) = true → s.get (F.INJ_T_CFG.RB_T n) ≤ y.misRun →
      s.flag (F.INJ_T_STAT.FAIL_ON n) = false → ∃ t, exec (.tdoFail n) s = .next t ∧ t.flag (F.INJ_T_STAT.FAIL_ON n) = true ∧
        t.flag F.INJ_EVT.TDO_FAIL = true) ∧
    (s.get (F.INJ_T_CFG.RB_T n) ≤ y.matchRun → ∃ t, exec (.tdoFailClear n) s = .next t ∧ t.flag (F.INJ_T_STAT.FAIL_ON n) = false ∧
      t.flag (F.INJ_T_STAT.FAIL_OFF n) = false) ∧
    (s.get F.INJ_SCAP_CTL.STATE = 2 → s.inj.scapLeft = 0 → ∃ t, exec .scapFrozen s = .next t ∧ t.get F.INJ_SCAP_CTL.STATE = 3 ∧
      t.get64 A.INJ_SCAP_SIX = s.inj.scapDec % 2 ^ 64 ∧ t.flag F.INJ_EVT.SCAP_FROZEN = true) ∧
    (s.permits pf A.INJ_SCAP_CTL w (some 0) → bit w.toNat 2 = true → ∃ t, exec (.scapRearm pf w) s = .next t ∧ t.inj.scap = [] ∧
      t.get F.INJ_SCAP_CTL.STATE = s.get F.INJ_STATUS.ARMED % 2)

/-- The 32 codewords of R73 are pairwise at least eight bits apart: bi-orthogonal, so that no three bit errors turn one trip into another. -/
def Obligations.CodewordsDiffer : Prop :=
  ∀ i j : Fin 32, i ≠ j → 8 ≤ popCount 16 (codeword i ^^^ codeword j)

/-! ## Tasks, lanes, DMA and memory protection -/

/-- A cyclic task that is due and whose turn it is, of a partition that a lane serves, is released at this SIX: TSK_T_REL shows it and a cycle of that release exists with the task's period. An event task that is due is released on its triggering events, all of them consumed. A cycle still running at release plus period less 2 is aborted with code 6, OVR counts it and OVERRUN is signalled. At release plus period a cycle that ended takes effect: its buffered output word is the value of the output, the cycle is gone, its task shows how it ended, and its task is not held. At an exchange a peer port in RUN sends the shelf. -/
def Obligations.TaskReleases : Prop :=
  ∀ (s : State) (t : Fin 32) (n : Fin 16) (v : Fin 48) (p : Fin 4) (id : Fin 1024) (k : Task) (c : Cycle) (h : Shelf) (ln w : Nat) (x : Word),
    let pl := shelfPayload h.id s.six ((List.range h.words).map (fun i => kvGet (fun _ => 0) (kvGet (fun _ => []) s.tsk.front h.id) i))
    (s.task t = some k → s.cycleDue k = true → s.mayRelease k = true → s.inTakeover (s.partNo k.tid) = false →
      s.serviceLane (s.partNo k.tid) = some ln → s.shadowHas k.tid = false →
      ∃ u : State, exec (.cycleRelease t) s = .next u ∧ u.get64 (A.TSK_T_REL t) = s.six % 2 ^ 64 ∧
        ∃ d, u.cycle t = some d ∧ d.rel = s.six ∧ d.period = taskPeriod k ∧ d.part = s.partNo t) ∧
    (s.task (32 + n) = some k → s.eventDue k = true → s.mayRelease k = true → s.serviceLane (s.partNo k.tid) = some ln →
      s.shadowHas k.tid = false →
      ∃ u : State, exec (.eventTaskRelease n) s = .next u ∧ u.get64 (A.TSK_T_REL (32 + n)) = s.six % 2 ^ 64 ∧
        u.get (F.TSK_T_STAT.PENDING (32 + n)) = 0 ∧ ∃ d, u.cycle (32 + n) = some d ∧ d.rel = s.six ∧ d.event = k.event) ∧
    (s.cycle v = some c → c.tid = v.val → c.kind = 0 → c.lane < 4 → c.status < 3 → c.rel + c.period = s.six + 2 →
      ∃ u : State, exec (.deadline v false) s = .next (u.schedule c.lane) ∧ u.get (F.LNE_L_EXC.CODE c.lane) = 6 ∧
        u.get (F.TSK_T_CNT.OVR v) = min (s.get (F.TSK_T_CNT.OVR v) + 1) 255 ∧ u.flag F.TSK_EVT.OVERRUN = true ∧
        (u.cycle v).map (·.status) = some 4) ∧
    (s.tsk.up = true → s.six % 100 = 0 → s.liveCycles = [c] → s.cycle c.key = some c → c.tid < 48 → c.status = 3 → c.rel + c.period = s.six →
      (∀ j, j < 48 → s.cycle (shadowKey j) = none) → c.ost = [(w, some x)] →
      ∃ u : State, exec .outputRelease s = .next (u.exchanges.consumers [c.tid]) ∧ u.cycle c.key = none ∧
        kvGet (fun _ => 0) u.tsk.out w = x ∧ u.get (F.TSK_T_STAT.HELD c.tid) = 0 ∧ u.get (F.TSK_T_STAT.LAST_ABORT c.tid) = 0) ∧
    (s.shelves.find? (fun e => e.id == id.val) = some h → s.tsk.up = true → bit h.peers p = true → s.six % shelfPeriod s.tasks h = 0 →
      s.outputsOpen = false → s.portState (40 + p) = pRUN → s.sentMsg (40 + p) 7 pl = false →
      ∃ u : State, exec (.peerShelfSend p id) s = .next u ∧ u.outbox = .msg (40 + p) 7 (crc16 pl) pl (msgWords (((s.port (40 + p)).msgSeq + 1) % 8) 7 pl) :: s.outbox)

/-- A lane that fails in service or as the spare is in role 3 with its cause; LANE_FAIL is signalled and LNE_DET_SIX shows the SIX. The spare's failure signals NO_SPARE. With no spare a service lane's failure is cause LANE of STEM; with one, no change and no replay under way, the spare takes the partition: it is in role 4, channel 3 loads it, and the takeover waits for its resume SIX. When that SIX has come, the spare serves the partition, LNE_TKO and LNE_TKO_SIX say which lane gave which partition to which, and TAKEOVER is signalled. At a hyperboundary the Pantry snapshot of this SIX is taken, its slot incomplete while channel 4 runs. -/
def Obligations.LaneFailureAndTakeover : Prop :=
  ∀ (s : State) (ln sp : Fin 4) (cause : Fin 4) (addr : Word) (k : Takeover) (q : Partition),
    let part := s.get (F.LNE_L_STATE.PART ln)
    (s.get (F.LNE_L_STATE.ROLE ln) = 1 ∨ s.get (F.LNE_L_STATE.ROLE ln) = 2 → ∃ u, exec (.laneFail ln ⟨cause, addr⟩) s = .next u ∧
      u.get (F.LNE_L_STATE.ROLE ln) = 3 ∧ u.get (F.LNE_L_STATE.CAUSE ln) = cause + 1 ∧ u.flag F.LNE_EVT.LANE_FAIL = true ∧
      u.get64 A.LNE_DET_SIX = s.six % 2 ^ 64 ∧ (s.get (F.LNE_L_STATE.ROLE ln) = 2 → u.flag F.LNE_EVT.NO_SPARE = true) ∧
      (s.get (F.LNE_L_STATE.ROLE ln) = 1 → s.spareLane = none → bit (u.get F.PWR_STATE.STEM_CAUSE) stemLANE = true)) ∧
    (s.get (F.LNE_L_STATE.ROLE ln) = 1 → s.spareLane = some sp.val → s.runningPart part = some q → s.tsk.tko = none → s.olc.rpl = none →
      s.olc.phase = 0 → ∃ u, exec (.laneFail ln ⟨cause, addr⟩) s = .next u ∧ u.get (F.LNE_L_STATE.ROLE sp) = 4 ∧
        u.get (F.DMA_C_STAT.STATE 3) = 1 ∧
        u.tsk.tko.map (fun t => (t.failed, t.spare, t.part, t.resumes)) = some (ln.val, sp.val, part, boundaryAt 100 (s.six + 200))) ∧
    (s.tsk.tko = some k → s.tsk.up = true → k.resumes ≤ s.six → s.six % 100 = 0 → s.outputsOpen = false → s.snapDue = false → k.spare < 4 →
      k.failed < 4 → k.part < 4 →
      ∃ u, exec .takeover s = .next u ∧ u.tsk.tko = none ∧ u.get (F.LNE_L_STATE.ROLE k.spare) = 1 ∧
        u.get (F.LNE_L_STATE.PART k.spare) = k.part ∧ u.get F.LNE_TKO.FROM = k.failed ∧ u.get F.LNE_TKO.TO = k.spare ∧
        u.get64 A.LNE_TKO_SIX = s.six % 2 ^ 64 ∧ u.flag F.LNE_EVT.TAKEOVER = true) ∧
    (s.snapDue = true → s.outputsOpen = false →
      ∃ u, exec .pantrySnapshot s = .next u ∧ u.tsk.panWriting = some (s.nextSnap s.six false) ∧
        u.tsk.panSix = some s.six ∧ u.panAt (s.nextSnap s.six false).1 = none ∧ u.get (F.DMA_C_STAT.STATE 4) = 1)

/-- Under the access check, GO on an idle channel starts the chain at DMA_C_DESC: STATE 1, INDEX 0, RESID the length of the first descriptor, which must pass the checks of R214 and R215. STOP leaves STATE 4 with code 7. The end of the last descriptor without a tag leaves STATE 2, RESID 0 and the event of the channel; where the two blocks do not overlap ahead of the copy, the destination holds what the source held, and every other byte of every memory is as before. The end of a descriptor of an engine's channel counts, and the channel shows RESID 0, the next INDEX on a chain, and at its end INDEX 0 and, for channels 4 and 6 on, STATE 2. A beat that fails leaves STATE 3 with its code, RESID the bytes not transferred and FADDR the address of the failing beat; the beats before it stand. -/
def Obligations.DmaTransfers : Prop :=
  ∀ (s : State) (pf : Fin 2) (h : Fin 8) (c : Fin 16) (w : Word) (d e : Desc) (b : Nat) (code : Fin 16) (fetchOk : Bool),
    let n := 8 + h.val
    let apart := d.srcSp = d.dstSp → d.dataDst ≤ d.src ∨ d.src + d.len ≤ d.dataDst
    let x := s.hostDesc (s.get64 (A.DMA_C_DESC n))
    ((s.dmaGate pf n w).1 = true → s.get (F.DMA_C_STAT.STATE n) ≠ 1 → bit w.toNat 8 = true → s.dmaCheck (fieldOf w 0 3) x = none →
      ∃ t, exec (.dmaGo pf h w true) s = .next t ∧ t.get (F.DMA_C_STAT.STATE n) = 1 ∧ t.get (F.DMA_C_STAT.CODE n) = 0 ∧
        t.get (F.DMA_C_CUR.INDEX n) = 0 ∧ t.get (F.DMA_C_RESID.RESID n) = x.len ∧ (t.dmaAt n).desc = some x ∧ (x.tag = false → t.mem = s.mem)) ∧
    ((s.dmaGate pf n w).1 = true → s.get (F.DMA_C_STAT.STATE n) = 1 → (s.dmaAt n).desc = some d → bit w.toNat 9 = true →
      ∃ t, exec (.dmaStop pf h w) s = .next t ∧ t.get (F.DMA_C_STAT.STATE n) = 4 ∧ t.get (F.DMA_C_STAT.CODE n) = 7 ∧
        (t.dmaAt n).desc = none) ∧
    (s.get (F.DMA_C_STAT.STATE c) = 1 → (s.dmaAt c).desc = some d → d.chain = false → d.tag = false → apart →
      ∃ t, exec (.dmaDescriptorDone c ⟨fetchOk, e⟩) s = .next t ∧ t.get (F.DMA_C_STAT.STATE c) = 2 ∧ t.get (F.DMA_C_RESID.RESID c) = 0 ∧
        t.flag (bitField A.DMA_EVT c) = true ∧ (∀ i, i < d.len → t.byteAt d.dstSp (d.dst + i) = s.byteAt d.srcSp (d.src + i)) ∧
        ∀ sp a, ¬(sp = d.dstSp ∧ d.dst ≤ a ∧ a < d.dst + d.len) → t.byteAt sp a = s.byteAt sp a) ∧
    (s.get (F.DMA_C_STAT.STATE c) = 1 → (s.dmaAt c).desc = none → ∃ t, exec (.dmaDescriptorDone c ⟨fetchOk, e⟩) s = .next t ∧
      t.get (F.DMA_C_RESID.RESID c) = 0 ∧
      t.get (F.DMA_C_STAT.DONE_CNT c) = min (s.get (F.DMA_C_STAT.DONE_CNT c) + 1) 65535 ∧
      (e.chain = true → t.get (F.DMA_C_CUR.INDEX c) = min (s.get (F.DMA_C_CUR.INDEX c) + 1) (2 ^ 32 - 1)) ∧
      (e.chain = false → t.get (F.DMA_C_CUR.INDEX c) = 0 ∧ (c.val = 4 ∨ 5 < c.val → t.get (F.DMA_C_STAT.STATE c) = 2))) ∧
    (s.get (F.DMA_C_STAT.STATE c) = 1 → (s.dmaAt c).desc = some d → apart → b < d.len / 64 → d.len ≤ 0x4000000 →
      code.val = 2 ∨ code.val = 3 ∨ code.val = 4 ∨ code.val = 8 →
      ∃ t, exec (.dmaBeatFault c code b ⟨false, e⟩) s = .next t ∧ t.get (F.DMA_C_STAT.STATE c) = 3 ∧ t.get (F.DMA_C_STAT.CODE c) = code.val ∧
        t.get (F.DMA_C_RESID.RESID c) = d.len - 64 * b ∧ t.get64 (A.DMA_C_FADDR c) = (d.faultAddr code b) % 2 ^ 64 ∧
        (code.val = 3 → d.faultAddr code b = d.dataDst + 64 * b) ∧
        (∀ i, i < 64 * b → t.byteAt d.dstSp (d.dataDst + i) = s.byteAt d.srcSp (d.src + i)) ∧
        ∀ sp a, ¬(sp = d.dstSp ∧ d.dataDst ≤ a ∧ a < d.dataDst + 64 * b) → t.byteAt sp a = s.byteAt sp a)

/-- A corrected error leaves its address in MPU_ECC_ADDR and counts once; the 16th within a pass signals CE_STORM, in a memory that has passes. An uncorrectable one counts in UE and is signalled. The end of a pass of a memory other than staging counts in MPU_ECC_PASS and restarts the count. -/
def Obligations.ScrubbingCounts : Prop :=
  ∀ (s : State) (m : Fin 16) (a : BitVec 34),
    (∃ t, exec (.scrubError m a false .other) s = .next t ∧ t.rd (A.MPU_ECC_ADDR m) = BitVec.ofNat 32 (if m.val = 13 then a.toNat / 8 else a.toNat) ∧
      t.get (F.MPU_ECC_CNT.CE m) = min (s.get (F.MPU_ECC_CNT.CE m) + 1) 65535 ∧ t.eccIn m = s.eccIn m + 1 ∧
      (s.eccIn m = 15 → m.val < 8 ∨ 12 ≤ m.val → t.flag F.MPU_EVT.CE_STORM = true)) ∧
    (∃ t, exec (.scrubError m a true .other) s = .next t ∧
      t.get (F.MPU_ECC_CNT.UE m) = min (s.get (F.MPU_ECC_CNT.UE m) + 1) 255 ∧ t.flag F.MPU_EVT.UE = true) ∧
    (m.val < 8 ∨ 12 ≤ m.val → ∃ t, exec (.scrubPassDone m) s = .next t ∧ t.eccIn m = 0 ∧
      t.get ⟨A.MPU_ECC_PASS m, 0, 32⟩ = min (s.get ⟨A.MPU_ECC_PASS m, 0, 32⟩ + 1) (2 ^ 32 - 1))

/-! ## Online change, forces and replay -/

/-- Under the right CHANGE, an APPLY kick with no batch pending and nothing to refuse makes the batch pend from this SIX. CANCEL ends a pending batch with reason 6. At the release of its task, a batch of one entry writes the parameter in the data memory of the lane that serves the task; OLC_VC_SIX says when, and VC_APPLIED is signalled. -/
def Obligations.ValueChanges : Prop :=
  ∀ (s : State) (pf : Fin 2) (w : Word) (b : Batch) (t : Task) (ln id off : Nat) (v : Word) (p : Partition) (n : Noun),
    (s.permits pf A.OLC_VC_CTL w (some 1) → s.olc.vc = none → bit w.toNat 8 = true → s.vcReason (fieldOf w 0 7) = 0 →
      ∃ u, exec (.vcApply pf w) s = .next u ∧ u.get F.OLC_VC_CTL.BUSY = 1 ∧ u.get F.OLC_VC_CTL.REASON = 0 ∧
        u.olc.vc.map (fun x => (x.kick, x.entries)) = some (s.six, s.vcEntries (fieldOf w 0 7))) ∧
    (s.permits pf A.OLC_VC_CTL w (some 1) → s.olc.vc = some b → bit w.toNat 9 = true →
      ∃ u, exec (.vcCancel pf w) s = .next u ∧ u.olc.vc = none ∧ u.get F.OLC_VC_CTL.REASON = 6 ∧ u.get F.OLC_VC_CTL.BUSY = 0) ∧
    (s.olc.vc = some b → s.task b.tid = some t → s.serviceLane (s.partNo b.tid) = some ln → s.batchDue b.tid = true → s.releaseDue t = true →
      s.outputsOpen = false → s.snapDue = false → s.handoverDue = false → b.entries = [(id, off, v)] → s.nounById id = some (p, n) →
      s.olc.shadow = false →
      ∃ u, exec .vcApplied s = .next u ∧ u.olc.vc = none ∧ u.loadWord (spData ln) (n.base + off) = v ∧
        u.get64 A.OLC_VC_SIX = s.six % 2 ^ 64 ∧ u.get F.OLC_VC_CTL.REASON = 0 ∧ u.flag F.OLC_EVT.VC_APPLIED = true)

/-- Under CHANGE, LOAD with nothing to refuse puts the change in phase 1 with the image as its candidate; a candidate that passes every check stands in the spare lane in phase 3 and its shadow is to start at the first hyperboundary 100 us or more away; there it starts in phase 4 from the live outputs. After SHADOW_HP hyperperiods it is done, in phase 5. SWITCH with nothing to refuse pends in phase 6 for the hyperboundary at which the new partition is part of the running program, SWITCHED is signalled and the phase is 0. CANCEL ends the change. -/
def Obligations.CodeChangePhases : Prop :=
  ∀ (s : State) (pf : Fin 2) (w : Word) (img : Option Image) (x : Image) (p old : Partition) (g : ProgImage) (ln h : Nat),
    (s.permits pf A.OLC_CHG_CTL w (some 1) → bit w.toNat 8 = true → s.olc.phase = 0 → s.olc.rpl = none → fieldOf w 16 16 ≠ 0 →
      fieldOf w 2 2 ≠ 3 → fieldOf w 0 2 ≠ 3 → (s.serviceLane (fieldOf w 0 2)).isSome = true → s.spareLane.isSome = true →
      ∃ u, exec (.chgLoad pf w img) s = .next u ∧ u.olc.phase = 1 ∧ u.get F.OLC_STATUS.CHG_STATE = 1 ∧ u.olc.cand = img ∧
        u.get F.OLC_CHG_REASON.REASON = 0 ∧ u.get F.OLC_STATUS.CHG_PART = fieldOf w 0 2) ∧
    (s.olc.phase = 2 → s.olc.cand = some x → s.chgReason x = 0 → x.body = .partition p → s.spareLane = some ln →
      ∃ u, exec .chgLoadDone s = .next u ∧ u.olc.phase = 3 ∧ u.get F.OLC_STATUS.CHG_STATE = 3 ∧ u.olc.img = some p ∧ u.olc.lane = ln ∧
        u.olc.h0 = boundaryAt hyperPeriod (s.six + 200) ∧ (u.lane ln).img = some p) ∧
    (s.olc.img = some p → s.runningPart p.part = some old → s.olc.phase = 3 → s.olc.h0 ≤ s.six → s.six % hyperPeriod = 0 → s.tsk.up = true →
      s.outputsOpen = false → s.snapDue = false →
      ∃ u, exec .shadowStart s = .next u ∧ u.olc.shadow = true ∧ u.olc.phase = 4 ∧ u.get F.OLC_STATUS.CHG_STATE = 4 ∧ u.olc.h0 = s.six ∧
        u.olc.out = s.tsk.out) ∧
    (s.olc.phase = 4 → s.olc.h0 + hyperPeriod * s.get F.OLC_CHG_CTL.SHADOW_HP ≤ s.six →
      ∃ u, exec .shadowDone s = .next u ∧ u.olc.phase = 5 ∧ u.flag F.OLC_EVT.SHADOW_DONE = true) ∧
    (s.permits pf A.OLC_CHG_CTL w (some 1) → bit w.toNat 10 = true →
      ∃ u, exec (.chgCancel pf w) s = .next u ∧ u.olc.phase = 0 ∧ u.olc.img = none ∧ u.get F.OLC_STATUS.CHG_STATE = 0) ∧
    (s.permits pf A.OLC_CHG_CTL w (some 1) → bit w.toNat 9 = true → s.olc.phase = 5 → s.olc.img = some p → (s.chgFields w).switchReason p = 0 →
      ∃ u, exec (.chgSwitch pf w) s = .next u ∧ u.olc.phase = 6 ∧ u.olc.switchAt = some (boundaryAt hyperPeriod (s.six + 200))) ∧
    (s.olc.switchAt = some h → s.olc.img = some p → s.tsk.prog = some g → h ≤ s.six → s.six % hyperPeriod = 0 → s.tsk.up = true →
      s.outputsOpen = false → s.snapDue = false → s.switchReason p = 0 → s.runningPart p.part = some old →
      ∃ u, exec .codeSwitch s = .next u ∧ u.olc.phase = 0 ∧ u.olc.img = none ∧ u.tsk.prog = some (progWith g p) ∧
        u.flag F.OLC_EVT.SWITCHED = true)

/-- Under CHANGE, ARM of an idle entry with a symbol of its type that may be forced makes the entry PENDING with this SIX; DISARM of a busy entry notes the SIX at which its end was asked. The high word commits VAL with the low word of the write shadow. At its SIX a pending entry is ACTIVE with the value of VAL, and an entry whose end was asked 10 us ago is idle again. FRC_CLEAR_ALL asks for the end of every busy entry, leaves the SIX of an end asked for already, and blanks an idle entry. -/
def Obligations.ForcesFollowTheirEntry : Prop :=
  ∀ (s : State) (pf : Fin 2) (w : Word) (n : Fin 256) (p : Partition) (y : Symbol) (k : Nat),
    (s.permits pf (A.FRC_E_CTL n) w (some 1) → s.forceBusy n = false → bit w.toNat 8 = true → s.symbol (s.get64 (A.FRC_E_SYM n)) = some (p, y) →
      armReason (fieldOf w 0 4) (some (p, y)) = 0 →
      ∃ u, exec (.forceArm pf n w) s = .next u ∧ u.flag (F.FRC_E_CTL.PENDING n) = true ∧ u.get (F.FRC_E_CTL.REASON n) = 0 ∧
        u.frcAt n = { FrcSt.reset with bound := some y, armSix := s.six }) ∧
    (s.permits pf (A.FRC_E_CTL n) w (some 1) → s.forceBusy n = true → bit w.toNat 9 = true → (s.frcAt n).endSix = none →
      ∃ u, exec (.forceDisarm pf n w) s = .next u ∧ u.frcAt n = { s.frcAt n with endSix := some s.six }) ∧
    (s.permits pf (A.FRC_E_VAL n + 4) w (some 1) → (s.fn pf).wrTag = some (A.FRC_E_VAL n) →
      ∃ u, exec (.forceValueWrite pf n w) s = .next u ∧ u.get64 (A.FRC_E_VAL n) = (s.fn pf).wrLow.toNat + 2 ^ 32 * w.toNat ∧
        (s.flag (F.FRC_E_CTL.ACTIVE n) = true →
          (u.frcAt n).newVal = ((s.fn pf).wrLow.toNat + 2 ^ 32 * w.toNat, s.six) :: (s.frcAt n).newVal)) ∧
    (s.forceSix n = true → s.flag (F.FRC_E_CTL.PENDING n) = true → (s.frcAt n).endSix = none → (s.frcAt n).armSix + 20 ≤ s.six →
      ∃ u, exec (.forceActivate n) s = .next u ∧ u.flag (F.FRC_E_CTL.ACTIVE n) = true ∧ u.flag (F.FRC_E_CTL.PENDING n) = false ∧
        u.get64 (A.FRC_E_SIX n) = s.six % 2 ^ 64 ∧ (u.frcAt n).val = s.get64 (A.FRC_E_VAL n) ∧ u.flag F.FRC_EVT.SET = true) ∧
    (s.forceSix n = true → (s.frcAt n).endSix = some k → k + 20 ≤ s.six →
      ∃ u, exec (.forceEnd n) s = .next u ∧ u.frcAt n = FrcSt.reset ∧ u.forceBusy n = false ∧
        (s.flag (F.FRC_E_CTL.ACTIVE n) = true → u.flag F.FRC_EVT.CLEARED = true)) ∧
    (s.permits pf A.FRC_CLEAR_ALL w (some 1) → bit w.toNat 0 = true →
      ∃ u, exec (.frcClearAll pf w) s = .next u ∧ (s.forceBusy n = true → (u.frcAt n).endSix = some ((s.frcAt n).endSix.getD s.six) ∧ (u.frcAt n).cleared = true) ∧
        (s.forceBusy n = false → u.get64 (A.FRC_E_SYM n) = 0 ∧ u.get64 (A.FRC_E_VAL n) = 0))

/-- Under CHANGE, a start with nothing to refuse puts the record's image in the spare lane in state 2. A replay cycle takes the captures up to the next cycle: one left of the noun images starts the comparison, one of a cycle runs it at its SIX, one of effects that cannot be compared counts in NOCOMP. With none left the replay is done, in state 3. CANCEL ends it in state 5. -/
def Obligations.ReplayRuns : Prop :=
  ∀ (s : State) (pf : Fin 2) (w : Word) (img : Option Image) (ln : Nat) (r : Replay) (c : RplCap),
    (s.permits pf A.OLC_RPL_CTL w (some 1) → bit w.toNat 8 = true → s.rplReason (fieldOf w 0 2) (bit w.toNat 2) img = 0 → s.spareLane = some ln →
      ∃ u, exec (.rplStart pf w img) s = .next u ∧ u.get F.OLC_STATUS.RPL_STATE = 2 ∧ u.get F.OLC_RPL_REASON.REASON = 0 ∧
        u.olc.lane = ln ∧ u.olc.rpl.map (·.record) = s.rec? (s.rd A.OLC_RPL_REC).toNat) ∧
    (s.permits pf A.OLC_RPL_CTL w (some 1) → bit w.toNat 9 = true → s.olc.rpl = some r →
      ∃ u, exec (.rplCancel pf w) s = .next u ∧ u.olc.rpl = none ∧ u.get F.OLC_STATUS.RPL_STATE = 5) ∧
    (s.olc.rpl = some r → r.todo = [c] →
      (∀ k body, c = .nouns k r.img.part body → r.whole = false →
        ∃ u, exec .replayCycle s = .next u ∧ u.olc.rpl.map (fun q => (q.todo, q.whole)) = some ([], true)) ∧
      (∀ k t region size x, c = .image k t r.img.part region size → r.img.tasks.find? (fun y => y.tid == t) = some x → r.whole = true →
        ∃ u, exec .replayCycle s = .next u ∧ u.get64 A.OLC_RPL_POS = k % 2 ^ 64) ∧
      (∀ k t clean items, c = .effects k t r.img.part clean items → r.whole = false →
        ∃ u, exec .replayCycle s = .next u ∧ u.olc.rpl.map (·.todo) = some [] ∧
          u.get F.OLC_RPL_CNT.NOCOMP = min (s.get F.OLC_RPL_CNT.NOCOMP + 1) 65535)) ∧
    (s.olc.rpl = some r → r.todo = [] →
      ∃ u, exec .replayDone s = .next u ∧ u.olc.rpl = none ∧ u.get F.OLC_STATUS.RPL_STATE = 3 ∧ u.flag F.OLC_EVT.REPLAY_DONE = true)

/-! ## The Loft -/

/-- The next line of a running Loft, once every link's sample of its SIX is known, stands at 768 times its SIX modulo the ring depth, LFT_RING_OLD follows, and no other byte of any memory changes outside the journal. The next slow line is the newest of the slow ring, under its boundary, with the values of the SIX before it, once its 256 values are known and the outputs of its boundary are released; no byte outside the slow ring changes. -/
def Obligations.RingLines : Prop :=
  ∀ s : State,
    let k := s.lft.next
    let a := 768 * (k % ringDepth)
    let b := s.lft.slowNext
    let apart := fun (base size sp x : Nat) => ¬(sp = spDRAM ∧ base ≤ x ∧ x < base + size)
    (s.lftRuns = true → k ≤ s.six → s.lineKnown k = true →
      ∃ t, exec .ringLineWrite s = .next t ∧ t.lft.next = k + 1 ∧ t.loadBytes spDRAM a 768 = s.lineBytes k ∧
        t.get64 A.LFT_RING_OLD = t.ringOld % 2 ^ 64 ∧
        ∀ sp x, apart a 768 sp x → apart 0x3C0000000 (32 * journalMax) sp x → t.byteAt sp x = s.byteAt sp x) ∧
    (s.lftRuns = true → b ≤ s.six → (b = s.six → s.outputsOpen = false) →
      (∀ j, j < 256 → (s.slowAt j (b - 1)).isSome = true) →
      ∃ t, exec .slowRingLine s = .next t ∧ t.lft.slow.head?.map (fun l => (l.b, l.vals)) =
          some (b, (List.range 256).map (fun j => (s.slowAt j (b - 1)).getD (0, 0))) ∧ t.lft.slow.tail = s.lft.slow.take (slowMax - 1) ∧
        t.lft.slowNext = b + 100 ∧ t.regs = s.regs ∧
        ∀ sp x, apart 0x390000000 (4096 * slowMax) sp x → t.byteAt sp x = s.byteAt sp x)

/-- A recipe whose terms are known and whose turn it is evaluates its sentence at the SIX that is due: with no host trigger and no move it stays in its clause, timer and run as computed; a move to a clause before LAST enters it with both at 0; a host trigger or a move to LAST triggers, LFT_R_TRIG_SIX showing the SIX. The timeout of its clause acts in that step, and always moves. Under OPERATE, LFT_TRIG of a recipe whose sentence runs is its host trigger. A recipe that has extracted past the end of its record, with every histogram it takes past the trigger, closes it: state 2, RECORD signalled. One that is further behind than the ring holds skips ahead. A frozen STEM capture is archived as a record of its own. -/
def Obligations.SentencesAndRecords : Prop :=
  ∀ (s : State) (r : Fin 8) (pf : Fin 2) (w : Word) (d : LftRec),
    let p := s.sentenceReady r
    let limit := s.get (F.LFT_R_C_TIMEOUT.TIMEOUT r (s.recipe r).clause)
    let u := p.2
    let x := u.recipe r
    let k := x.next
    let last := u.get (F.LFT_R_CTL.LAST r)
    let move := u.sentenceMove r k x.clause (u.sentenceRun r k) (u.sentenceTimer r)
    let steps := fun (o : Host.Outcome State Fault Refusal) =>
      (x.host = false → move = none → ∃ t, o = .next t ∧
        t.recipe r = { x with run := u.sentenceRun r k, timer := u.sentenceTimer r, next := k + 1 }) ∧
      (∀ c, x.host = false → move = some c → c ≠ last → ∃ t, o = .next t ∧ (t.recipe r).clause = c ∧ (t.recipe r).run = 0 ∧
        (t.recipe r).timer = 0 ∧ (t.recipe r).next = k + 1) ∧
      (x.host = true ∨ move = some last → ∃ t, o = .next t ∧ (t.recipe r).clause = 0 ∧ (t.recipe r).next = k + 1 ∧ (t.recipe r).host = false ∧
        t.get64 (A.LFT_R_TRIG_SIX r) = k % 2 ^ 64 ∧ t.flag F.LFT_EVT.TRIGGER = true)
    (p.1 = true → steps (exec (.sentenceStep r) s) ∧
      (limit ≠ 0 → limit ≤ s.sentenceTimer r → steps (exec (.clauseTimeout r) s) ∧ (s.recipe r = x → u.get (F.LFT_R_C_TIMEOUT.TIMEOUT r x.clause) = limit → move ≠ none))) ∧
    (s.permits pf A.LFT_TRIG w (some 0) → fieldOf w 0 8 = 2 ^ r.val → s.sentenceRuns r = true →
      ∃ t, exec (.lftTrig pf w) s = .next t ∧ (t.recipe r).host = true) ∧
    (s.openRec r = some d → s.lftRuns = true → d.upTo < (s.recipe r).pos → s.histWaits d = false →
      ∃ t, exec (.recordClose r) s = .next t ∧ (t.recipe r).recno = none ∧ t.flag F.LFT_EVT.RECORD = true ∧
        (t.rec? d.recno).map (fun e => (e.state, e.rearm, e.dead)) = some (2, s.six, s.six - d.trig)) ∧
    (s.openRec r = some d → s.lftRuns = true → (s.recipe r).pos ≤ d.upTo → (s.recipe r).pos + 16711680 ≤ s.six →
      ∃ t, exec (.gapSkip r) s = .next t ∧ (t.recipe r).pos = s.six - 16646144 ∧ (t.recipe r).recno = (s.recipe r).recno) ∧
    (s.opstate = 0 → s.lftRuns = true → s.get F.INJ_SCAP_CTL.STATE = 3 →
      ∃ t, exec .scapArchived s = .next t ∧ t.inj.scap = [] ∧ t.lft.nextNo = s.lft.nextNo + 1 ∧ t.flag F.LFT_EVT.SCAP_ARCHIVED = true)

/-- LOAD of a closed record puts its header in the window with RESULT 1; PROTECT within the limit, UNPROTECT and DELETE under OPERATE act on the selected record with RESULT 1. HIST_CLEAR of a unit that runs clears it at the next SIX, of one that does not at once. An export with nothing to refuse is busy in state 1 with the record, mode and window of that kick; STOP ends it in state 3 with reason 6, and its completion leaves state 2 with EXP_DONE. -/
def Obligations.ArchiveAndExport : Prop :=
  ∀ (s : State) (pf : Fin 2) (u : Fin 16) (w : Word) (d : LftRec) (j : ExpJob),
    let recno := s.get F.LFT_REC_SEL.RECNO
    let job : ExpJob := ⟨s.get F.LFT_EXP_REC.RECNO, fieldOf w 0 2, bit w.toNat 2, s.get64 A.LFT_EXP_FROM, s.get F.LFT_EXP_N.VALUE⟩
    (s.permits pf A.LFT_REC_CTL w none → bit w.toNat 0 = true → s.rec? recno = some d → d.state ≠ 1 →
      ∃ t, exec (.recLoad pf w) s = .next t ∧ t.get F.LFT_REC_CTL.RESULT = 1 ∧
        ∀ i, i < 64 → t.rd (A.LFT_RWIN i) = BitVec.ofNat 32 (leNat ((d.head.drop (4 * i)).take 4))) ∧
    (s.permits pf A.LFT_REC_CTL w (some 0) → s.rec? recno = some d →
      (bit w.toNat 1 = true → d.prot = false → s.arcProt + d.space ≤ protMax →
        ∃ t, exec (.recProtect pf w) s = .next t ∧ t.rec? recno = some { d with prot := true } ∧ t.get F.LFT_REC_CTL.RESULT = 1) ∧
      (bit w.toNat 2 = true →
        ∃ t, exec (.recUnprotect pf w) s = .next t ∧ t.rec? recno = some { d with prot := false } ∧ t.get F.LFT_REC_CTL.RESULT = 1) ∧
      (bit w.toNat 3 = true → d.state ≠ 1 → d.prot = false →
        ∃ t, exec (.recDelete pf w) s = .next t ∧ t.rec? recno = none ∧ t.get F.LFT_REC_CTL.RESULT = 1)) ∧
    (s.permits pf (A.LFT_H_CTL u) w (some 0) → bit w.toNat 0 = true →
      (s.lftRuns = true → s.get (F.LFT_H_CFG.KIND u) ≠ 0 → ∃ t, exec (.histClear pf u w) s = .next t ∧ (t.hist u).clear = some (s.six + 1)) ∧
      (s.lftRuns = false → ∃ t, exec (.histClear pf u w) s = .next t ∧ (t.hist u).bins = [] ∧ t.get (F.LFT_H_COUNT.COUNT u) = 0)) ∧
    (s.permits pf A.LFT_EXP_CTL w none → s.flag F.LFT_STATUS.EXP_BUSY = false → bit w.toNat 8 = true →
      s.exportReason job = 0 →
      ∃ t, exec (.exportGo pf w) s = .next t ∧ t.get F.LFT_EXP_CTL.STATE = 1 ∧ t.flag F.LFT_STATUS.EXP_BUSY = true ∧
        t.lft.exp = some job) ∧
    (s.permits pf A.LFT_EXP_CTL w none → s.flag F.LFT_STATUS.EXP_BUSY = true → bit w.toNat 9 = true →
      ∃ t, exec (.exportStop pf w) s = .next t ∧ t.get F.LFT_EXP_CTL.STATE = 3 ∧ t.get F.LFT_EXP_CTL.REASON = 6 ∧
        t.flag F.LFT_STATUS.EXP_BUSY = false ∧ t.lft.exp = none) ∧
    (s.flag F.LFT_STATUS.EXP_BUSY = true → s.lft.exp = some j → s.rec? j.recno = some d →
      ∃ t, exec .expDone s = .next t ∧ t.get F.LFT_EXP_CTL.STATE = 2 ∧ t.get F.LFT_EXP_CTL.REASON = 0 ∧ t.flag F.LFT_EVT.EXP_DONE = true ∧
        t.flag F.LFT_STATUS.EXP_BUSY = false)

/-! ## The Cellar -/

/-- While the Cellar takes entries: when an entry arrives at a full queue, the queue and the arrival together lose exactly one entry: it is of the lowest severity among them all, and no entry behind it is of that severity, so that it is the newest of that severity. CEL_DROP.QUEUE counts it, saturating. At a queue that is not full the arrival is last. -/
def Obligations.FullQueueDiscards : Prop :=
  ∀ (s : State) (e : Raised), s.pwr.celStop = false →
    (s.cel.queue.length < 1024 → ∃ t, exec (.cellarEnqueue e) s = .next t ∧ t.cel.queue = s.cel.queue ++ [e]) ∧
    (1024 ≤ s.cel.queue.length → ∃ t, exec (.cellarEnqueue e) s = .next t ∧
      (∃ before after x, before ++ x :: after = s.cel.queue ++ [e] ∧ t.cel.queue = before ++ after ∧
        (∀ y ∈ s.cel.queue ++ [e], x.sev ≤ y.sev) ∧ ∀ y ∈ after, y.sev ≠ x.sev) ∧
      t.get F.CEL_DROP.QUEUE = min (s.get F.CEL_DROP.QUEUE + 1) 65535)

/-- The oldest waiting entry whose rate lets it pass is admitted: it leaves the queue and, with room and both banks good, stands in one slot of both banks under the next SEQ, with what was suppressed of its code; while the Cellar is frozen it is the newest of the Cubby. One that does not pass counts as suppressed of its code. At a SIX divisible by 20 000 000 the one code with suppressed entries is listed, once, and counts from 0. A cursor write commits the cursor of its view and the window follows; STEP moves to the next entry above CEL_SHOWN. FREEZE is asked for once; THAW, and 60 s after the kick the time limit, end it with an empty cubby. A recovered bank holds what the other one holds. -/
def Obligations.CellarAdmitsAndShows : Prop :=
  ∀ (s : State) (pf : Fin 2) (w : Word) (e : Raised) (rest : List Raised) (puts : CelPuts) (wa wb : Fin 3) (c n : Nat),
    let v := s.view pf
    let code := e.code.toNat
    let noted : State := { s with cel := { s.cel with suppSix := some s.six } }
    let takes := s.flag F.CEL_STATUS.READY = true ∧ s.cel.freezeReq = false ∧ s.cel.queue = e :: rest ∧ s.celWaits e = false ∧
      s.flag F.CEL_STATUS.MUTE = false
    let built := fun (x : Entry) => x.seq = s.cel.seqP0 + 1 ∧ x.code = code ∧ x.sev = e.sev ∧ x.supp = (s.bucket code).supp
    (takes → (s.celPass code s.six).1 = true →
      (s.flag F.CEL_STATUS.FROZEN = false → s.bankOk 0 = true → s.bankOk 1 = true → s.celSlots.length < celSlotMax →
        ∃ (t : State) (x : Entry) (i : Nat), exec (.cellarAdmit puts 0 0) s = .next t ∧ built x ∧ t.cel.queue = rest ∧
          t.cel.seqP0 = s.cel.seqP0 + 1 ∧ kvGet (fun _ => none) (t.bank 0) i = some x ∧ kvGet (fun _ => none) (t.bank 1) i = some x) ∧
      (s.flag F.CEL_STATUS.FROZEN = true → s.cel.cubby.length < 256 →
        ∃ (t : State) (x : Entry), exec (.cellarAdmit puts wa wb) s = .next t ∧ built x ∧ t.cel.queue = rest ∧
          t.cel.cubby = s.cel.cubby ++ [x])) ∧
    (takes → (s.celPass code s.six).1 = false → ∃ t, exec (.cellarAdmit puts wa wb) s = .next t ∧ t.cel.queue = rest ∧
      t.cel.seqP0 = s.cel.seqP0 ∧ (t.bucket code).supp = min ((s.bucket code).supp + 1) 65535) ∧
    (s.clk.running = true → s.six % 20000000 = 0 → s.cel.suppSix ≠ some s.six → s.suppCodes = [(c, n)] → s.cel.fullSince = 0 →
      s.cel.queueSince = 0 →
      exec .suppressed s = .next ((noted.setBucket c { s.bucket c with supp := 0 }).log 0x684 1 (leBytes 2 c ++ leBytes 2 n))) ∧
    (s.permits pf (A.CEL_CURSOR + 4) w none → (s.fn pf).wrTag = some A.CEL_CURSOR →
      ∃ u : State, exec (.celCursorWrite pf w) s = .next (u.celShow v ((s.fn pf).wrLow.toNat + 2 ^ 32 * w.toNat) false) ∧
        u.get64 (A.CEL_CURSOR + fnShift v) = (s.fn pf).wrLow.toNat + 2 ^ 32 * w.toNat) ∧
    (s.permits pf A.CEL_CTL w none →
      (bit w.toNat 2 = true →
        exec (.celStep pf w) s = .next ((s.checked pf A.CEL_CTL w none).celShow v (s.get64 (A.CEL_SHOWN + fnShift v) + 1) true) ∧
        ∀ i x, lowestSeq (fun y => decide (s.get64 (A.CEL_SHOWN + fnShift v) + 1 ≤ y.seq)) s.celSlots = some (i, x) →
          ∃ t, exec (.celStep pf w) s = .next t ∧ t.get64 (A.CEL_CURSOR + fnShift v) = x.seq % 2 ^ 64) ∧
      (bit w.toNat 0 = true → s.flag F.CEL_STATUS.FROZEN = false → s.cel.freezeReq = false → ∃ t, exec (.freeze pf w) s = .next t ∧
        t.cel.freezeReq = true ∧ t.cel.freezeView = v ∧ t.cel.freezeSix = s.six) ∧
      (bit w.toNat 1 = true → s.flag F.CEL_STATUS.FROZEN = true → ∃ t, exec (.thaw pf w puts) s = .next t ∧
        t.flag F.CEL_STATUS.FROZEN = false ∧ t.cel.cubby = [])) ∧
    (s.cel.freezeSix + 120000000 ≤ s.six → s.flag F.CEL_STATUS.FROZEN = true → s.cel.freezeReq = false →
      ∃ t, exec (.freezeTimeout puts) s = .next t ∧ t.flag F.CEL_STATUS.FROZEN = false ∧ t.flag F.CEL_EVT.FORCED_THAW = true) ∧
    (s.flag F.CEL_STATUS.RESYNC = true → ∃ t, exec .rejoin s = .next t ∧ t.flag F.CEL_STATUS.RESYNC = false ∧
      t.flag F.CEL_STATUS.MIRRORED = true ∧ (s.cel.failA ≠ 0 → s.cel.failB = 0 → t.bank 0 = s.bank 1 ∧ t.bank 1 = s.bank 1) ∧
      (s.cel.failA = 0 → t.bank 0 = s.bank 0 ∧ t.bank 1 = s.bank 0))

/-! ## Time -/

/-- A two-step Sync of the master in force waits for its Follow_Up; a one-step Sync, and a Follow_Up of the Sync that waits, give the offset measurement of the port; an Announce counts as the newest of its sender. A peer-delay request leaves when it is due, and a one-step answer to it gives the port's link delay. A PPS edge in use gives the distance to the nearest second. A PPS source silent for 3 s is lost. The reference in use is lost and found. -/
def Obligations.TimeMeasurements : Prop :=
  ∀ (s : State) (p : Fin 4) (k : Nat) (m : PtpMsg) (h : PtpHalf) (d : AnnData) (t1 moved freq : Int) (stamp : Fin 500),
    let one := s.tim.inbox = [(p.val, k, m)]
    let q := kvGet (fun _ => PdReq.reset) s.tim.pd p
    let f := (todNs s.six s.offset + stamp) % 1000000000
    (one → m.kind = ptpSync → -4 ≤ m.logInt → m.logInt ≤ 1 → s.fromMaster p m = true →
      (m.twoStep = true → ∃ t, exec (.ptpSyncReceived p moved freq) s = .next t ∧ t.tim.inbox = [] ∧
        t.tim.halves.head? = some ⟨false, p, m.clockId, m.portNo, m.seq, s.rxTime p k m.stamp, m.corr, 0⟩) ∧
      (m.twoStep = false → ∃ u : State, u.tim.inbox = [] ∧ u.tim.syncSix = k ∧ exec (.ptpSyncReceived p moved freq) s =
        .next (u.measureFrom 1 (s.syncError p (s.rxTime p k m.stamp) (ptpOrigin m) m.corr) moved freq))) ∧
    (one → m.kind = ptpFollowUp → s.tim.halves = [h] → h.port = p.val → h.clockId = m.clockId → h.portNo = m.portNo → h.seq = m.seq →
      h.resp = false → ∃ u : State, u.tim.inbox = [] ∧ u.tim.halves = [] ∧ exec (.ptpFollowUpReceived p moved freq) s =
        .next (u.measureFrom 1 (s.syncError p h.local_ (ptpOrigin m) (h.corr + m.corr)) moved freq)) ∧
    (one → m.kind = ptpAnnounce → m.ann = some d → ∃ u : State, exec (.ptpAnnounceReceived p) s = .next ((u.ptpPick).srcShow s.srcData) ∧
      u.tim.anns.head? = some ⟨p, m.clockId, m.portNo, k, s.get F.TIM_PTP.ANN_TO * logSamples m.logInt, d⟩) ∧
    (s.ptpPort p = true → q.next ≤ s.six → ∃ t, exec (.pdelayReqSend p stamp) s = .next t ∧
      t.outbox = .eth p none 0 (.pdelayReq ((q.seq + 1) % 65536)) :: s.outbox ∧
      (kvGet (fun _ => PdReq.reset) t.tim.pd p).sent = some ((s.six * 500 + stamp + s.get (F.TIM_E_LAT.TX_LAT p) : Nat) : Int)) ∧
    (one → m.kind = ptpPdResp → m.twoStep = false → m.seq = q.seq → q.sent = some t1 →
      ∃ t, exec (.pdelayRespReceived p) s = .next t ∧ t.flag (F.TIM_E_PDLY.VALID p) = true ∧
        (t.get (F.TIM_E_PDLY.NS p) : Int) = clampInt 0 16777215
          ((((k * 500 + m.stamp : Nat) : Int) - s.get (F.TIM_E_LAT.RX_LAT p) - t1 - corrNs m.corr) / 2)) ∧
    (s.get F.TIM_CFG.SRC = 2 → ∃ u : State, u.tim.ppsSix = s.six ∧ exec (.ppsEdge stamp moved freq) s =
      .next (u.measureFrom 2 (if f ≤ 500000000 then (f : Int) else (f : Int) - 1000000000) moved freq)) ∧
    (s.tim.pps = true → s.tim.ppsSix + 6000000 ≤ s.six → ∃ u : State, exec (.sourceLost true) s = .next (u.srcFall s.srcData 1) ∧
      u.tim.pps = false) ∧
    (∃ t, exec .refFail s = .next t ∧ t.flag F.TIM_STATUS.REF_OK = false) ∧
    (s.flag F.TIM_CFG.REF_EN = true → ∃ t, exec .refOk s = .next t ∧ t.flag F.TIM_STATUS.REF_OK = true)

/-- Under OPERATE, ACCEPT while slewing and HSTEP outside PTP ask for a step, with RESULT 3, and a further ACCEPT while one waits asks for none; ACK_ASYM while asymmetric confirms the latest measurement. A step that waits is applied: the offset moves by its size (an accepted one's is the latest measurement), the epoch advances, and RESULT is 1 for the host's two. At HOLD_MAX the time is no longer VALID. Once a second the real-time counter takes the time of day, and at a whole second the PPS pin rises for 100 ms. -/
def Obligations.TimeStepsAndOutputs : Prop :=
  ∀ (s : State) (pf : Fin 2) (w : Word) (r : StepReq),
    (s.permits pf A.TIM_CTL w (some 0) →
      (bit w.toNat 0 = true → s.timState = stSlew →
        (s.stepWaits 2 = false → ∃ t, exec (.accept pf w) s = .next t ∧ t.tim.steps = s.tim.steps ++ [⟨s.six, 0, 2⟩] ∧ t.get F.TIM_CTL.RESULT = 3) ∧
        (s.stepWaits 2 = true → ∃ t, exec (.accept pf w) s = .next t ∧ t.tim.steps = s.tim.steps)) ∧
      (bit w.toNat 1 = true → s.timState = stAsym → exec (.ackAsym pf w) s =
        .next ((((s.checked pf A.TIM_CTL w (some 0)).log 0x0587 1 (leBytes 1 1)).onJump s.tim.latest true).timResult 1)) ∧
      (bit w.toNat 2 = true → s.stepWaits 3 = false → s.get F.TIM_STATUS.SRC_ACT ≠ 1 → s.clk.running = true → ∃ t, exec (.hstep pf w) s = .next t ∧
        t.tim.steps = s.tim.steps ++ [⟨s.six, signed 64 (s.get64 A.TIM_HSTEP), 3⟩] ∧ t.get F.TIM_CTL.RESULT = 3)) ∧
    (s.tim.steps = [r] → (r.cause = 2 → s.timState = stSlew) → r.at_ < s.six → s.tim.stepSix ≠ some s.six → ∃ t, exec .timeStep s = .next t ∧ t.tim.steps = [] ∧
      t.epoch = (s.epoch + 1) % 65536 ∧ t.get F.TIM_STATUS.EPOCH = (s.epoch + 1) % 65536 ∧
      t.offset = signed 64 (unsigned 64 (s.offset + if r.cause = 2 then -s.tim.latest else r.size)) ∧
      (r.cause = 2 ∨ r.cause = 3 → t.get F.TIM_CTL.RESULT = 1) ∧ t.tim.stepSix = some s.six ∧
      t.flag F.TIM_EVT.STEP = true) ∧
    (s.timState = stHold ∨ s.timState = stAsym → s.tim.holdSix + s.get F.TIM_HOLD.HOLD_MAX * 2000000 ≤ s.six → s.flag F.TIM_STATUS.VALID = true →
      ∃ t, exec .holdoverExpired s = .next t ∧ t.flag F.TIM_STATUS.VALID = false ∧ t.flag F.TIM_EVT.INVALID = true ∧ t.timState = s.timState) ∧
    (s.flag F.TIM_STATUS.VALID = true → s.tim.rtcSix + 2000000 ≤ s.six → ∃ t, exec .rtcUpdate s = .next t ∧
      t.cel.rtcNs = todNs s.six s.offset ∧ t.tim.rtcSix = s.six ∧ t.regs = s.regs) ∧
    (s.wholeSecond = true → s.get F.TIM_CFG.PPS_MODE = 1 ∨ s.get F.TIM_CFG.PPS_MODE = 2 ∧ s.flag F.TIM_STATUS.VALID = true → ∃ t, exec .ppsOutPulse s = .next t ∧ t.tim.ppsOut = true ∧
      t.tim.ppsEnd = s.six + 200000 ∧ t.regs = s.regs)

/-- Under OPERATE, ARM of an idle unit whose settings pass gives RESULT 1 and ARMED; DISARM disarms. An armed single-shot unit whose target is reached fires in this sample period: TE_DUE shows the SIX, FIRES counts, the event is signalled, and the unit is disarmed. When its only pulse ends the pins stand at rest. An edge that EDGE selects is the newest capture of its input, or OVF when sixteen wait; POP removes the oldest. -/
def Obligations.TimedEventsAndCaptures : Prop :=
  ∀ (s : State) (pf : Fin 2) (w : Word) (u : Fin 16) (i : Fin 2) (rise : Bool) (stamp : Fin 500) (x : Pulse),
    let a := A.TIM_TE_CTL u
    let q := kvGet (fun _ => []) s.tim.caps i
    let tod := todNs s.six s.offset + stamp
    (s.permits pf a w (some 0) →
      (bit w.toNat 12 = true → s.flag (F.TIM_TE_CTL.ARMED u) = false → ((s.checked pf a w (some 0)).wrFields a w).armResult u = 1 →
        ∃ t, exec (.teArm pf u w) s = .next t ∧ t.flag (F.TIM_TE_CTL.ARMED u) = true ∧ t.get (F.TIM_TE_CTL.RESULT u) = 1) ∧
      (bit w.toNat 13 = true → ∃ t, exec (.teDisarm pf u w) s = .next t ∧ t.flag (F.TIM_TE_CTL.ARMED u) = false)) ∧
    (s.flag (F.TIM_TE_CTL.ARMED u) = true → reached (kvGet (fun _ => 0) s.tim.targets u) (s.t64 s.six + lastCycle) = true →
      s.get (F.TIM_TE_CTL.MODE u) ≠ 2 → ∃ t, exec (.timedEventFire u) s = .next t ∧ t.flag (F.TIM_TE_CTL.ARMED u) = false ∧
        t.get64 (A.TIM_TE_DUE u) = s.six % 2 ^ 64 ∧ t.get (F.TIM_TE_STAT.FIRES u) = min (s.get (F.TIM_TE_STAT.FIRES u) + 1) 65535 ∧
        t.flag F.TIM_EVT.TE = true) ∧
    (s.tim.pulses = [x] → x.unit = u.val → x.fin < (s.six + 1) * 500 → ∃ t, exec (.tpoPulseEnd u) s = .next t ∧ t.tim.pulses = [] ∧
      ∀ n, n < 4 → t.get (F.TIM_TPO.LEVEL n) = s.get (F.TIM_TPO.POL n)) ∧
    (bit (s.get (F.TIM_TCI_CTL.EDGE i)) (if rise then 0 else 1) = true →
      (q.length < 16 → ∃ t, exec (.tciCapture i rise stamp) s = .next t ∧ t.flag F.TIM_EVT.TCI = true ∧ kvGet (fun _ => []) t.tim.caps i =
        q ++ [⟨s.six, tod / 1000000000 % 2 ^ 48, tod % 1000000000, s.epoch, rise, s.flag F.TIM_STATUS.VALID⟩]) ∧
      (16 ≤ q.length → ∃ t, exec (.tciCapture i rise stamp) s = .next t ∧ t.flag (F.TIM_TCI_CTL.OVF i) = true ∧
        kvGet (fun _ => []) t.tim.caps i = q)) ∧
    (s.permits pf (A.TIM_TCI_CTL i) w (some 0) → bit w.toNat 8 = true → ∃ t, exec (.tciPop pf i w) s = .next t ∧
      kvGet (fun _ => []) t.tim.caps i = q.drop 1 ∧ t.get (F.TIM_TCI_CTL.N i) = (q.drop 1).length % 32)

/-! ## Ethernet and universal channels -/

/-- On a powered block with link: a frame of a PRP pair with good length and FCS, no PTP and no redundancy trailer is counted, its LAN is live and it is routed; one with a bad FCS counts as an error; the second copy of a frame counts as a duplicate. Links go up and down, LANs are lost, supervision frames leave on both ports. The oldest GOOSE message or sampled-value frame of a context that matches its configuration is taken; an expired deadline raises TAL; retransmissions and full frames leave. A received frame goes to the host's memory, a host frame from it, and no byte elsewhere changes. -/
def Obligations.EthernetTraffic : Prop :=
  ∀ (s : State) (p : Fin 4) (q : Fin 2) (n : Fin 256) (f : EthFrame) (r : Routed) (g : GooseSub) (m : GooseMsg) (v : SvSub) (fr : SvFrame)
    (a : Asdu) (gp : GoosePub) (vp : SvPub) (up : Bool) (sq d : Nat),
    let lg := s.get F.ETH_HRX_CTL.LOG2N
    let head := s.get F.ETH_HRX_IDX.HEAD
    let rx := ringDesc (s.get64 A.ETH_HRX_BASE) head
    let buf := s.loadNat spHost rx 8
    let room := s.loadNat spHost (rx + 8) 2
    let tl := s.get F.ETH_HTX_CTL.LOG2N
    let th := s.get F.ETH_HTX_IDX.HEAD
    let tx := ringDesc (s.get64 A.ETH_HTX_BASE) th
    (s.ethOn = true → s.ethMode (pairOf p) = 1 → s.hasLink p = true → f.etherType ≠ 0x88F7 →
      (64 ≤ f.len → f.len ≤ 1522 → f.fcsOk = true → f.seq = none → ∃ u : State, exec (.ethFrameReceived p f) s = .next (u.ethRoute p f) ∧
        u.flag (F.ETH_E_STAT.LAN_OK p) = true ∧ u.get (F.ETH_E_RX.COUNT p) = min (s.get (F.ETH_E_RX.COUNT p) + 1) (2 ^ 32 - 1) ∧
        kvGet (fun _ => 0) u.eth.lastRx p = s.six) ∧
      (f.fcsOk = false → ∃ t, exec (.ethFrameReceived p f) s = .next t ∧
        t.get (F.ETH_E_ERR.COUNT p) = min (s.get (F.ETH_E_ERR.COUNT p) + 1) (2 ^ 32 - 1)) ∧
      (64 ≤ f.len → f.len ≤ 1522 → f.fcsOk = true → f.seq = some sq → dupHit (kvGet (fun _ => []) s.eth.seen (pairOf p)) f.src sq s.six = true →
        ∃ t, exec (.ethFrameReceived p f) s = .next t ∧ t.get (F.ETH_E_DUP.COUNT p) = min (s.get (F.ETH_E_DUP.COUNT p) + 1) (2 ^ 32 - 1))) ∧
    (s.ethOn = true → s.hasLink p ≠ up → ∃ t, exec (.linkChg p up) s = .next t ∧ t.hasLink p = up ∧ t.flag F.ETH_EVT.LINK_CHG = true) ∧
    (s.ethOn = true → s.flag (F.ETH_E_STAT.LAN_OK p) = true → s.hasLink p = false → ∃ t, exec (.lanLoss p) s = .next t ∧
      t.flag (F.ETH_E_STAT.LAN_OK p) = false ∧ t.flag F.ETH_EVT.LAN_LOSS = true) ∧
    (s.ethOn = true → s.ethMode q = 1 → kvGet (fun _ => 0) s.eth.supNext q ≤ s.six → s.hasLink (2 * q) = true → s.hasLink (2 * q + 1) = true →
      ∃ t, exec (.prpSupervisionSend q) s = .next t ∧ t.outbox = .eth (2 * q + 1) (some (kvGet (fun _ => 0) s.eth.seq q)) 0 .supervision ::
        .eth (2 * q) (some (kvGet (fun _ => 0) s.eth.seq q)) 0 .supervision :: s.outbox) ∧
    (s.eth.waiting = [r] → r.ctx = some n.val →
      (s.kind n = 4 → s.fp.gooseSub.lookup n.val = some g → r.frame.body = .goose m → s.gooseMatches n g m = true →
        (s.ethCtx n).deadline = none → ∃ u : State, u.eth.waiting = [] ∧ exec (.gooseReceived n) s = .next (u.gooseSupervise n r.six m)) ∧
      (s.kind n = 2 → s.fp.svSub.lookup n.val = some v → r.frame.body = .sv fr → fr.svId = v.svId → fr.confRev = v.confRev → v.asdus = 1 →
        fr.asdus = [a] → a.vals.length = s.nch n → a.smpCnt < v.rate → ∃ u : State, u.eth.waiting = [] ∧ exec (.svFrameReceived n) s =
          .next (((u.svAsdu n v.rate a).set (F.ETH_C_SQNUM.NUM n) a.smpCnt).set64 (A.ETH_C_LAST n) r.six))) ∧
    ((s.ethCtx n).deadline = some d → s.kind n = 4 → d < s.six → s.eth.waiting = [] → ∃ t, exec (.gooseTalExpired n) s = .next t ∧
      t.flag F.ETH_EVT.TAL = true ∧ (t.ethCtx n).deadline = none ∧ (t.ethCtx n).seen = false) ∧
    (s.fp.goosePub.lookup n.val = some gp → s.ethOn = true → s.kind n = 5 → (s.ethCtx n).pubOn = true → (s.ethCtx n).next ≤ s.six →
      ∃ t, exec (.gooseRetransmit n) s = .next t ∧ t.get (F.ETH_C_SQNUM.NUM n) = nextSt (s.get (F.ETH_C_SQNUM.NUM n)) ∧
        t.get64 (A.ETH_C_LAST n) = s.six % 2 ^ 64 ∧ (t.ethCtx n).gaps = (s.ethCtx n).gaps + 1) ∧
    (s.fp.svPub.lookup n.val = some vp → s.ethOn = true → s.kind n = 3 → 0 < vp.asdus → vp.asdus ≤ (s.ethCtx n).asdus.length →
      ∃ t, exec (.svPublish n) s = .next t ∧ (t.ethCtx n).asdus = (s.ethCtx n).asdus.drop vp.asdus ∧ t.get64 (A.ETH_C_LAST n) = s.six % 2 ^ 64) ∧
    (s.eth.waiting = [r] → r.ctx = none → s.flag F.ETH_HRX_CTL.EN = true → ringNext lg head ≠ s.get F.ETH_HRX_IDX.TAIL % 2 ^ lg →
      lg ≤ 12 → ∃ t, exec .hostRxFrame s = .next t ∧ t.get F.ETH_HRX_IDX.HEAD = ringNext lg head ∧ t.flag F.ETH_EVT.HRX = true ∧ t.eth.waiting = [] ∧
        ∀ sp x, ¬(sp = spHost ∧ (buf ≤ x ∧ x < buf + min room r.frame.bytes.length ∨ rx + 8 ≤ x ∧ x < rx + 16)) → t.byteAt sp x = s.byteAt sp x) ∧
    (s.ethOn = true → s.flag F.ETH_HTX_CTL.EN = true → th ≠ s.get F.ETH_HTX_IDX.TAIL % 2 ^ tl → tl ≤ 12 →
      ∃ t, exec .hostTxSend s = .next t ∧ t.get F.ETH_HTX_IDX.HEAD = ringNext tl th ∧ t.flag F.ETH_EVT.HTX_DONE = true ∧
        (t.byteAt spHost (tx + 10) = 1 ∨ t.byteAt spHost (tx + 10) = 2) ∧
        ∀ sp x, ¬(sp = spHost ∧ x = tx + 10) → t.byteAt sp x = s.byteAt sp x)

/-- On a powered block: a scheduled conversion of an idle channel starts at its SIX, one met while another runs counts in SKIP, and its result counts when the last integrated SIX has passed; a command takes effect at its SIX; a driver at 135 degrees is switched off until 120; the readback of the slot's channel is tested. Before a program runs the host clears and requests under OPERATE. A HART request that passes leaves with its preamble and parity, an abort ends it with status 6, a reply with status 2; a frame that nobody asked for is counted. A group fault is signalled, drives the alarm levels, and ends at a base cycle. A changed strap is only signalled. -/
def Obligations.UniversalChannels : Prop :=
  ∀ (s : State) (n : Fin 16) (g : Fin 4) (pf : Fin 2) (w : Word) (raw tj : Int) (op lvl : Bool) (v : UchConv) (c : Int) (ch due : Nat) (bs : List Byte),
    let per := s.get (F.UCH_C_CFG.CPER n)
    let a := A.UCH_G_HCTL g
    let hc := 4 * g.val + fieldOf w 0 2
    let len := s.get (F.UCH_G_HLEN.LEN g)
    let req := s.hartBytes g len
    (s.uchOn = true → s.uchConverts n = true → per ≠ 0 → s.six % (100 * per) = 0 → (s.uchAt n).sched ≠ some s.six →
      ((s.uchAt n).conv = none → ∃ t, exec (.conversionStart n) s = .next t ∧ (t.uchAt n).conv.map (·.s0) = some s.six ∧
        t.get (F.UCH_C_STAT.RUN n) = 1) ∧
      ((s.uchAt n).conv.isSome = true → ∃ t, exec (.conversionStart n) s = .next t ∧
        t.get (F.UCH_C_CNT.SKIP n) = min (s.get (F.UCH_C_CNT.SKIP n) + 1) 255)) ∧
    ((s.uchAt n).conv = some v → v.s0 + 799 + nintSamples (s.get (F.UCH_C_CFG.NINT n)) < s.six → s.uchOn = true → v.discard = false →
      (∃ u : State, exec (.conversionDone n raw op) s =
        .next (u.uchResult n raw op (v.s0 + 799 + nintSamples (s.get (F.UCH_C_CFG.NINT n))))) ∧
      ∃ t, exec (.conversionDone n raw op) s = .next t ∧ (t.uchAt n).conv = none ∧ t.get (F.UCH_C_STAT.RUN n) = 0) ∧
    ((s.uchAt n).cmdPend = some (c, due) → due ≤ s.six → s.uchOn = true → ∃ t, exec (.cmdApply n) s = .next t ∧
      (t.uchAt n).cmd = some c ∧ (t.uchAt n).cmdPend = none) ∧
    (s.uchOn = true → s.uchOutput n = true → s.six % 100 = 0 →
      (135 ≤ tj → s.flag (F.UCH_C_STAT.THERMAL n) = false → ∃ u, exec (.thermal n tj) s = .next u ∧
        u.flag (F.UCH_C_STAT.THERMAL n) = true ∧ u.flag F.UCH_EVT.THERMAL = true) ∧
      (tj ≤ 120 → s.flag (F.UCH_C_STAT.THERMAL n) = true → ∃ u, exec (.thermal n tj) s = .next u ∧
        u.flag (F.UCH_C_STAT.THERMAL n) = false ∧ u.flag F.UCH_EVT.THERMAL = true)) ∧
    (s.tsk.up = false → s.permits pf (A.UCH_C_HCTL n) w (some 0) →
      (bit w.toNat 0 = true → ∃ t, exec (.uchHctlClr pf n w) s = .next t ∧ t.get64 (A.UCH_C_CLR n) = s.six % 2 ^ 64 ∧
        t.get (F.UCH_C_STAT.OVR n) = 0 ∧ t.get (F.UCH_C_STAT.OPEN n) = 0) ∧
      (bit w.toNat 1 = true → s.uchOn = true → s.uchConverts n = true → (s.uchAt n).conv = none →
        ∃ t, exec (.uchHctlReq pf n w) s = .next t ∧ (t.uchAt n).conv.map (fun x => (x.s0, x.onDemand)) = some (s.six, true))) ∧
    (s.uchOn = true → s.six % 12500 = 0 → 0 < s.six → (s.uchGroup g).fault = false → (s.uchGroup g).slotSix ≠ some s.six →
      s.readList g = [n.val] → exec (.readbackSlot g raw) s =
        .next ((s.setUchGroup g { s.uchGroup g with slotSix := some s.six }).uchReadback n (12500 * (s.six / 12500 - 1)) raw)) ∧
    (s.permits pf a w (some 0) →
      (bit w.toNat 2 = true → s.get (F.UCH_G_HCTL.STATUS g) ≠ 1 → s.uchOn = true → s.flag (F.UCH_C_CFG.HART_EN hc) = true →
        s.uchMode hc = 6 → (s.uchGroup g).fault = false → 5 ≤ fieldOf w 16 5 → fieldOf w 16 5 ≤ 20 → 1 ≤ len → len ≤ 271 →
        ∃ t, exec (.hartSend pf g w) s = .next t ∧ t.get (F.UCH_G_HCTL.STATUS g) = 1 ∧ (t.uchGroup g).hart = some hc ∧
          t.outbox.head? = some (.hart g (List.replicate (fieldOf w 16 5) 0xFF ++ req ++ [parityByte req]))) ∧
      (bit w.toNat 3 = true → (s.uchGroup g).hart = some ch → ∃ t, exec (.hartAbort pf g w) s = .next t ∧
        t.get (F.UCH_G_HCTL.STATUS g) = 6 ∧ (t.uchGroup g).hart = none ∧ t.flag F.UCH_EVT.HART_DONE = true)) ∧
    ((s.uchGroup g).hart = some ch → bs.length ≤ 271 → ∃ t, exec (.hartDone g (.reply bs)) s = .next t ∧ t.get (F.UCH_G_HCTL.STATUS g) = 2 ∧
      t.get (F.UCH_G_HLEN.RLEN g) = bs.length ∧ (t.uchGroup g).hart = none ∧ t.flag F.UCH_EVT.HART_DONE = true) ∧
    (s.uchOn = true → ∃ t, exec (.hartFrameReceived g) s = .next t ∧
      t.get (F.UCH_G_HCNT.OTHER g) = min (s.get (F.UCH_G_HCNT.OTHER g) + 1) 255) ∧
    (s.uchOn = true → (s.uchGroup g).fault = false → ∃ u, exec (.grpFault g) s = .next u ∧ (u.uchGroup g).fault = true ∧
      u.flag F.UCH_EVT.GRP_FAULT = true ∧ bit (u.get F.UCH_STATUS.GRP_OK) g = false) ∧
    (s.uchOn = true → (s.uchGroup g).fault = true →
      (s.six % 100 = 0 → ∃ t, exec (.grpRecover g) s = .next t ∧ (t.uchGroup g).fault = false ∧ t.flag F.UCH_EVT.GRP_FAULT = true) ∧
      ((s.uchGroup g).driven = false → ∃ t, exec (.controllerAlarmDrive g) s = .next t ∧ (t.uchGroup g).driven = true)) ∧
    (bit (s.get F.UCH_STATUS.ALMSEL) g ≠ lvl → ∃ t, exec (.strapChg g lvl) s = .next t ∧ t.flag F.UCH_EVT.STRAP_CHG = true ∧
      t.get F.UCH_STATUS.ALMSEL = s.get F.UCH_STATUS.ALMSEL)

/-! ## The host and the security island -/

/-- A partial write is denied with cause 6. A write of SFB_EVT clears the events written as 1, one of SFB_IEN under OPERATE sets the enables. Reading SFB_LATE_CNT answers its value and clears it. The low word of a 64-bit register answers and holds the high word for the next read; the low word written waits for the high word, which commits both. An unmasked pending vector sends once. A reset of function 1 closes the session and forgets its shadows. -/
def Obligations.HostAccesses : Prop :=
  ∀ (s : State) (pf : Fin 2) (off : BitVec 24) (w : Word) (v : Fin 32) (x : MsixVec) (y : Session),
    let f := s.fn pf
    (∃ t, exec (.registerWrite pf off w false) s = .next t ∧ t.get (F.ENG_DENY_LAST.CAUSE.at pf) = 6 ∧
      t.get (F.ENG_DENY_LAST.OFFSET.at pf) = off.toNat / 4 * 4 ∧
      t.get (F.ENG_DENY_CNT.N.at pf) = min (s.get (F.ENG_DENY_CNT.N.at pf) + 1) (2 ^ 32 - 1)) ∧
    (∃ t, exec (.registerWrite pf (BitVec.ofNat 24 A.SFB_EVT) w true) s = .next t ∧ t.rd A.SFB_EVT = s.rd A.SFB_EVT &&& ~~~(0x3F &&& w)) ∧
    (s.permits pf A.SFB_IEN w (some 0) → ∃ t, exec (.registerWrite pf (BitVec.ofNat 24 A.SFB_IEN) w true) s = .next t ∧
      t.rd A.SFB_IEN = (s.rd A.SFB_IEN &&& ~~~0x3F) ||| (w &&& 0x3F)) ∧
    (∃ t, exec (.takeRead pf (BitVec.ofNat 24 A.SFB_LATE_CNT)) s = .next t ∧ t.rd A.SFB_LATE_CNT = 0 ∧
      t.outbox = .readData pf A.SFB_LATE_CNT (s.rd A.SFB_LATE_CNT) :: s.outbox) ∧
    (f.rdTag = none → ∃ t, exec (.read64Low pf (BitVec.ofNat 24 A.TSK_PAN_SEQ)) s = .next t ∧ (t.fn pf).rdTag = some A.TSK_PAN_SEQ ∧
      (t.fn pf).rdShadow.lookup (A.TSK_PAN_SEQ + 4) = some (s.rd (A.TSK_PAN_SEQ + 4)) ∧
      t.outbox = .readData pf A.TSK_PAN_SEQ (s.rd A.TSK_PAN_SEQ) :: s.outbox) ∧
    (f.rdTag = some A.TSK_PAN_SEQ → f.rdShadow.lookup (A.TSK_PAN_SEQ + 4) = some w →
      ∃ t, exec (.read64High pf (BitVec.ofNat 24 (A.TSK_PAN_SEQ + 4))) s = .next t ∧
        t.outbox = .readData pf (A.TSK_PAN_SEQ + 4) w :: s.outbox) ∧
    (s.permits pf A.TIM_HSTEP w (some 0) → ∃ t, exec (.write64Low pf (BitVec.ofNat 24 A.TIM_HSTEP) w) s = .next t ∧
      (t.fn pf).wrTag = some A.TIM_HSTEP ∧ (t.fn pf).wrLow = w ∧ t.get64 A.TIM_HSTEP = s.get64 A.TIM_HSTEP) ∧
    (s.permits pf (A.TIM_HSTEP + 4) w (some 0) → f.wrTag = some A.TIM_HSTEP →
      ∃ t, exec (.write64High pf (BitVec.ofNat 24 (A.TIM_HSTEP + 4)) w) s = .next t ∧ (t.fn pf).wrTag = none ∧
        t.get64 A.TIM_HSTEP = f.wrLow.toNat + 2 ^ 32 * w.toNat) ∧
    (kvGet (fun _ => MsixVec.reset) f.vecs v = x → x.pending = true → ∃ t, exec (.msixUnmask pf v true false) s = .next t ∧
      t.outbox = .msix pf v :: s.outbox ∧ (kvGet (fun _ => MsixVec.reset) (t.fn pf).vecs v).pending = false) ∧
    (s.sec.session = some y → ∃ t, exec (.hostFunctionReset false true) s = .next t ∧ t.sec.session = none ∧ (t.fn 0).wrTag = (s.fn 0).wrTag ∧ (t.fn 0).rdTag = (s.fn 0).rdTag ∧
      (t.fn 1).wrTag = none ∧ (t.fn 1).rdTag = none ∧ t.get F.ENG_SESS.CAUSE = 5)

/-- With the mailbox idle and the island clocked, a GO that the access check lets act takes the command: CHALLENGE issues its nonce; a GRANT that verifies opens its session; ATTEST uses a signature; IDENTITY answers; INSTALL under CHANGE stores an image that verifies in the free slot; SVN_COMMIT raises the counter to what runs; KEY_PROGRAM and KEY_REVOKE under SECURITY change the slot; LIFECYCLE moves to its state; WIPE_REPORT answers the proof; TAMPER_CLEAR clears a tamper; an unknown command answers 1. The end of a command gives its RESULT, DONE and the length of its response, which lapses after 10 s. -/
def Obligations.MailboxCommands : Prop :=
  ∀ (s : State) (pf : Fin 2) (w : Word) (nonce : BitVec 256) (x : Image) (bad : BitVec 9) (sig : Bool) (m : MboxRun) (f : Nat),
    let req := s.bufBytes (s.get F.SEC_LEN.REQ)
    let go := fun (c : Nat) => s.permits pf A.SEC_CMD w none ∧ fieldOf w 0 8 = c ∧ bit w.toNat 8 = true ∧ s.flag F.SEC_CMD.BUSY = false ∧
      s.islandRuns = true ∧ s.get F.SEC_LEN.REQ ≤ 4096 ∧ s.lc < 4
    let did := fun (t : State) (rsp : List Byte) => t.sec.mbox = some ⟨pf.val, 0, rsp⟩ ∧ t.get F.SEC_CMD.BUSY = 1
    let k := tokNat req 0 1
    let may := fun (r : Nat) => s.rightCause pf (some r) = none
    (go 0x01 → s.flag F.SEC_STATUS.LOCKOUT = false → ∃ t, exec (.challenge pf w nonce) s = .next t ∧ t.get F.SEC_CMD.BUSY = 1 ∧
      t.sec.challenge.map (fun c => (c.nonce, c.issued)) = some (nonce, s.six)) ∧
    (go 0x02 → s.grantResult req sig = 0 → ∃ t, exec (.grant pf w sig) s = .next t ∧ did t [] ∧ t.sec.challenge = none ∧
      t.sec.session.map (fun y => (y.rights, y.slot, y.lastAcc)) = some (tokNat req 6 2, tokNat req 0x38 1, s.six)) ∧
    (go 0x03 → req.length = 32 → s.get F.SEC_XMSS_LEFT.LEFT ≠ 0 → s.attestsLive.length < 64 → ∃ t, exec (.attest pf w) s = .next t ∧
      t.get F.SEC_XMSS_LEFT.LEFT = s.get F.SEC_XMSS_LEFT.LEFT - 1 ∧ t.sec.xmssIndex = s.sec.xmssIndex + 1 ∧ t.sec.mbox.map (·.result) = some 0) ∧
    (go 0x04 → ∃ t, exec (.identity pf w) s = .next t ∧ t.sec.mbox.map (·.result) = some 0 ∧ t.sec.session.isSome = s.sec.session.isSome) ∧
    (go 0x05 → may 1 → req.length = 12 → s.flag F.SEC_STATUS.TAMPER = false → 1 ≤ k → k ≤ 3 → tokZero req 1 3 = true →
      uploadArea ≤ tokNat req 4 8 → x.kind = k → s.verifyResult x = 0 → s.opstate ≠ 1 → ∃ t, exec (.install pf w (some x) true) s = .next t ∧
        did t [] ∧ kvGet (fun _ => none) t.sec.slots (s.freeSlot k) = some x) ∧
    (go 0x06 → may 1 → req.length = 1 → 1 ≤ k → k ≤ 3 → s.get (F.SEC_SVN.COUNTER (counterOf k)) < s.get (F.SEC_SVN.RUNNING (counterOf k)) →
      ∃ t, exec (.svnCommit pf w) s = .next t ∧ t.get (F.SEC_SVN.COUNTER (counterOf k)) = s.get (F.SEC_SVN.RUNNING (counterOf k))) ∧
    (go 0x07 → may 2 → req.length = 72 → s.flag F.SEC_STATUS.TAMPER = false → k ≤ 3 → tokNat req 1 1 < 8 → tokZero req 2 3 = true →
      0x10 ≤ leNat ((req.drop 4).take 4).reverse → leNat ((req.drop 4).take 4).reverse ≤ 0x12 → s.get (F.SEC_KEY.STATE k) = 0 →
      ∃ t, exec (.keyProgram pf w true) s = .next t ∧ did t [] ∧ t.get (F.SEC_KEY.STATE k) = 1 ∧ t.get (F.SEC_KEY.USAGE k) = tokNat req 1 1 ∧
        t.flag F.SEC_EVT.KEY_CHANGE = true) ∧
    (go 0x08 → may 2 → req.length = 1 → k ≤ 3 → s.get (F.SEC_KEY.STATE k) = 1 → s.sessionKey k = false →
      ∃ t, exec (.keyRevoke pf w) s = .next t ∧ did t [] ∧ t.get (F.SEC_KEY.STATE k) = 2 ∧ t.flag F.SEC_EVT.KEY_CHANGE = true) ∧
    (go 0x09 → may 2 → req.length = 4 → tokZero req 1 3 = true → k = 3 → s.lc = 2 → ∃ t, exec (.lifecycle pf w sig bad) s = .next t ∧
      did t [] ∧ t.lc = 3 ∧ t.flag F.SEC_EVT.LC_CHANGE = true) ∧
    (go 0x0B → s.sec.wipeProof ≠ [] → ∃ t, exec (.wipeReport pf w) s = .next t ∧ did t s.sec.wipeProof) ∧
    (go 0x0A → may 2 → s.flag F.SEC_STATUS.TAMPER = true → ∃ t, exec (.tamperClear pf w true) s = .next t ∧ did t [] ∧
      t.flag F.SEC_STATUS.TAMPER = false ∧ t.flag F.SEC_STATUS.TAMP_PIN = false) ∧
    (go 0x0C → ∃ t, exec (.mailboxUnknownCommand pf w) s = .next t ∧ t.sec.mbox = some ⟨pf, 1, []⟩ ∧ t.get F.SEC_CMD.BUSY = 1) ∧
    (s.sec.mbox = some m → s.islandRuns = true → s.sec.wiping = false → s.sec.uartWait = none → m.result < 16 → m.response.length ≤ 4096 →
      ∃ t, exec .mailboxDone s = .next t ∧ t.sec.mbox = none ∧ t.get F.SEC_CMD.RESULT = m.result ∧ t.get F.SEC_CMD.BUSY = 0 ∧
        t.get F.SEC_LEN.RSP = m.response.length ∧ t.flag F.SEC_EVT.DONE = true ∧ t.sec.respPf = some m.pf) ∧
    (s.sec.respPf = some f → f < 2 → s.sec.respSix + 20000000 ≤ s.six → ∃ t, exec .mailboxResponseExpired s = .next t ∧
      t.sec.respPf = some 2 ∧ t.regs = s.regs)

/-- A challenge lapses after 300 s and a lockout at its end. A session ends at its lifetime with cause 1, after 900 s without an access with cause 2, and on CLOSE under OPERATE with cause 3; each way SESSION_CLOSED is signalled. A tamper notes its cause and closes the session with cause 6. A well-formed service frame is answered while the mailbox is idle and waits while it is not. -/
def Obligations.SessionsAndTamper : Prop :=
  ∀ (s : State) (pf : Fin 2) (w : Word) (x : Session) (c : Challenge) (cause : Fin 4) (fr : List Byte) (nonce : BitVec 256) (ok : Bool) (b : Byte)
    (req : List Byte) (m : MboxRun) (k : Nat),
    let ends := fun (o : Host.Outcome State Fault Refusal) (n : Nat) => ∃ t, o = .next t ∧ t.sec.session = none ∧ t.get F.ENG_SESS.CAUSE = n ∧
      t.get F.ENG_SESS.RIGHTS = 0 ∧ t.flag F.ENG_EVT.SESSION_CLOSED = true
    let r := s.uartCommand b.toNat req nonce ok
    (s.sec.challenge = some c → c.issued + 600000000 ≤ s.six → ∃ t, exec .challengeLapsed s = .next t ∧ t.sec.challenge = none ∧ t.regs = s.regs) ∧
    (s.sec.lockoutEnd = some k → k ≤ s.six → ∃ t, exec .lockoutEnd s = .next t ∧ t.sec.lockoutEnd = none ∧
      t.flag F.SEC_STATUS.LOCKOUT = false) ∧
    (s.sec.session = some x → x.endSix ≤ s.six → ends (exec .sessionLifetimeExpired s) 1) ∧
    (s.sec.session = some x → x.lastAcc + 1800000000 ≤ s.six → ends (exec .sessionIdleExpired s) 2) ∧
    (s.permits pf A.ENG_SESS_CTL w (some 0) → bit w.toNat 0 = true → ends (exec (.sessionClose pf w) s) 3) ∧
    (∃ t, exec (.tamperSet cause) s = .next t ∧ t.flag F.SEC_STATUS.TAMPER = true ∧ bit (t.get F.SEC_STATUS.TCAUSE) cause = true ∧
      t.sec.session = none ∧ (s.sec.session.isSome = true → t.get F.ENG_SESS.CAUSE = 6)) ∧
    (s.islandRuns = true → s.sec.mbox = none → uartPayload fr = some (b :: req) → ∃ t, exec (.serviceUartFrame fr nonce ok) s = .next t ∧
      t.sec.uart = uartFrame (leBytes 1 r.res ++ r.rsp) ∧ t.outbox.head? = some (.uart (uartFrame (leBytes 1 r.res ++ r.rsp)))) ∧
    (s.islandRuns = true → s.sec.mbox = some m → ∃ t, exec (.serviceUartFrame fr nonce ok) s = .next t ∧ t.sec.uartWait = some (fr, nonce, ok) ∧
      t.regs = s.regs)

/-! ## Power, clocks and operating states -/

/-- Under OPERATE, one kick at a time: STEM stands as cause HOST; HALT leads to HALT; MAINT in life-cycle state MAINTENANCE pends for a hyperboundary, at which MAINT is entered; RESUME leaves it; WARM requests a warm reset; LANE_RST of a failed lane tests it, and a lane that passes is the spare, one that does not stays failed with cause 5. The decision for STEM is carried out: STEM, with the SIX of its cause. A cause that clears no longer stands. A prepared return that finds a program that verifies and fits is SERVICE from that hyperboundary. -/
def Obligations.OperatingStates : Prop :=
  ∀ (s : State) (pf : Fin 2) (w : Word) (puts : CelPuts) (b : Fin 7) (x k : Nat) (n : Fin 4) (bad : BitVec 4) (i : Nat) (im : Image) (g : ProgImage),
    let f := bitField F.PWR_STATE.STEM_CAUSE.addr (F.PWR_STATE.STEM_CAUSE.lo + b)
    let kick := fun (j : Nat) => s.permits pf A.PWR_CMD w (some 0) ∧ fieldOf w 0 6 = 2 ^ j
    (kick 0 → ∃ t, exec (.stem pf w) s = .next t ∧ bit (t.get F.PWR_STATE.STEM_CAUSE) 5 = true ∧ t.get F.PWR_CMD.RESULT = 1) ∧
    (kick 1 → ∃ t, exec (.halt pf w) s = .next t ∧ t.opstate = 2 ∧ bit (t.get F.PWR_STATE.HALT_CAUSE) 3 = true) ∧
    (kick 2 → s.pwr.maintAt = none → s.opstate = 0 → s.get F.SEC_STATUS.LC = 3 → s.pwr.stemSix = none →
      ∃ t, exec (.maint pf w) s = .next t ∧ t.pwr.maintAt = some (boundaryAt hyperPeriod (s.six + 200)) ∧ t.get F.PWR_CMD.RESULT = 1 ∧
        t.get F.PWR_CMD.BUSY = 1) ∧
    (kick 3 → s.opstate = 3 → s.pwr.resumeAt = none → s.pwr.prep = none → s.pwr.stemSix = none → s.tsk.up = true →
      ∃ t, exec (.resume pf w) s = .next t ∧ t.pwr.resumeAt = some (boundaryAt hyperPeriod (s.six + 1)) ∧ t.get F.PWR_CMD.RESULT = 1) ∧
    (kick 4 → s.pwr.warm = none → ∃ t, exec (.warm pf w) s = .next t ∧ t.pwr.warm = some 1 ∧ t.get F.PWR_CMD.BUSY = 1) ∧
    (kick 5 → fieldOf w 8 2 = n.val → s.pwr.lane = none → s.opstate = 0 → s.get (F.LNE_L_STATE.ROLE n) = 3 → s.tsk.tko = none →
      ∃ t, exec (.laneRst pf w) s = .next t ∧ t.get (F.LNE_L_STATE.ROLE n) = 4 ∧ t.pwr.lane = some n.val ∧ t.get F.PWR_CMD.RESULT = 1) ∧
    (s.pwr.lane = some n.val → (∃ u, exec (.laneResetDone true) s = .next u ∧ u.get (F.LNE_L_STATE.ROLE n) = 2 ∧
        u.get (F.LNE_L_STATE.CAUSE n) = 0 ∧ u.pwr.lane = none ∧ u.flag F.PWR_EVT.LANE_RESET_DONE = true) ∧
      ∃ u, exec (.laneResetDone false) s = .next u ∧ u.get (F.LNE_L_STATE.ROLE n) = 3 ∧ u.get (F.LNE_L_STATE.CAUSE n) = 5 ∧ u.pwr.lane = none) ∧
    (s.pwr.maintAt = some s.six → s.opstate = 0 → s.outputsOpen = false → ∃ t, exec .maintEnter s = .next t ∧ t.opstate = 3 ∧
      t.pwr.maintAt = none) ∧
    (s.pwr.stemSix = some x → s.opstate = 0 ∨ s.opstate = 3 → ∃ t, exec (.stemEnter puts) s = .next t ∧ t.opstate = 1 ∧
      t.get64 A.PWR_STEM_SIX = x % 2 ^ 64 ∧ t.pwr.stemSix = none ∧ t.pwr.settleAt = some (x + 200)) ∧
    (s.flag f = true → s.stemClears b = true → s.opstate = 1 → ∃ t, exec (.stemCauseCleared b) s = .next t ∧ t.flag f = false) ∧
    (s.pwr.prep = some k → s.six % hyperPeriod = 0 → k + 200 ≤ s.six → s.opstate = 1 → s.restartZero.startProgram = some (i, im, g) →
      (s.restartZero.loadProgram g bad.toNat).1 = true → ∃ t, exec (.stemReturn bad false) s = .next t ∧ t.opstate = 0 ∧ t.tsk.up = true ∧
        t.tsk.start = s.six ∧ t.get64 A.PWR_SVC_SIX = s.six % 2 ^ 64 ∧ t.pwr.prep = none)

/-- A brownout or an overvoltage puts the unit on its hold-up supply, from which it comes back within the ride-through or, past it, with cause SUPPLY standing; at 20.0 V the Cellar stops, at 18.0 V all but the first domain is off and SIX stops. Temperature, clock and domain events stand in their registers. The watchdog and RST_N request a warm reset; a warm reset keeps SIX and closes the session; a start that RST_N holds goes on when it rises; a cold start leaves no session and no running program. A fast-path configuration that waits takes effect at its hyperboundary if the engine accepts it, and is dropped if not. -/
def Obligations.SupplyClocksAndStarts : Prop :=
  ∀ (s : State) (v : BitVec 12) (hu : BitVec 9) (b : Boot) (before die base : BitVec 16) (since c : Nat) (d : Fin 12) (i : Fin 44) (x : Image)
    (cfg : FpConfig),
    let on := s.flag F.PWR_STATE.HOLDUP
    (∃ t, exec (.supplyWarn v hu) s = .next t ∧ t.get F.PWR_SUPPLY.VMAIN = v.toNat ∧ t.get F.PWR_SUPPLY.HU = hu.toNat ∧
      (v.toNat < 1800 → t.pwr.warnPin = true)) ∧
    (on = false → v.toNat < 1650 → ∃ t, exec (.brownout v) s = .next t ∧ t.flag F.PWR_STATE.HOLDUP = true ∧ t.pwr.hold = s.six ∧
      t.flag F.PWR_EVT.BROWNOUT = true) ∧
    (on = false → 3400 < v.toNat → ∃ t, exec (.overvoltageDisconnect v) s = .next t ∧ t.flag F.PWR_STATE.HOLDUP = true ∧ t.pwr.ovr = true) ∧
    (on = true → s.pwr.inWindow = false → s.vmainOk v.toNat = true → ∃ t, exec (.supplyBack v) s = .next t ∧
      t.flag F.PWR_STATE.HOLDUP = false ∧ t.flag F.PWR_EVT.SUPPLY_BACK = true ∧ t.opstate = s.opstate) ∧
    (on = true → s.pwr.inWindow = false → s.pwr.hold + 2000 * s.get F.PWR_CFG.RIDE_MS ≤ s.six → ∃ t, exec .rideThroughExpired s = .next t ∧
      t.pwr.inWindow = true ∧ bit (t.get F.PWR_STATE.STEM_CAUSE) 2 = true) ∧
    (on = true → s.pwr.inWindow = true → s.vmainOk v.toNat = true → ∃ t, exec (.vmainGood v) s = .next t ∧
      t.flag F.PWR_STATE.HOLDUP = false ∧ t.pwr.goodSix = some s.six) ∧
    (on = true → hu.toNat ≤ 200 → s.pwr.celStop = false → ∃ t, exec (.powerDown hu) s = .next t ∧ t.pwr.celStop = true) ∧
    (on = true → hu.toNat ≤ 180 → ∃ t, exec (.holdupExhausted hu) s = .next t ∧ t.clk.running = false ∧ t.get F.PWR_DOM.ON = 1 ∧
      t.tsk.up = false ∧ t.six = s.six) ∧
    (1150 ≤ die.toInt → ∃ t, exec (.otWarn die base) s = .next t ∧ t.flag F.PWR_EVT.OT_WARN = true) ∧
    (1200 ≤ before.toInt → 1200 ≤ die.toInt → ∃ t, exec (.ot before die base) s = .next t ∧ t.flag F.PWR_EVT.OT = true ∧
      bit (t.get F.PWR_STATE.STEM_CAUSE) 4 = true) ∧
    (die.toInt < 1050 → since + 120000000 ≤ s.six → bit (s.get F.PWR_STATE.STEM_CAUSE) 4 = true →
      ∃ t, exec (.otClear die base since) s = .next t ∧ t.pwr.cool = true ∧ t.flag F.PWR_EVT.OT_CLEAR = true) ∧
    (∃ t, exec (.clockFault 3 i false) s = .next t ∧ bit (t.get F.CLK_STATUS.OK) 3 = false ∧ t.opstate = 2 ∧
      bit (t.get F.PWR_STATE.HALT_CAUSE) 4 = true) ∧
    (∃ t, exec (.domainFault d) s = .next t ∧ bit (t.get F.PWR_DOM.FAULT) d = true ∧ t.flag F.PWR_EVT.DOMAIN_FAULT = true) ∧
    (s.pwr.warm = none → ∃ t, exec .watchdogExpired s = .next t ∧ t.pwr.warm = some 3) ∧
    (s.powered = true → s.pwr.warm = none → ∃ t, exec .rstNLow s = .next t ∧ t.pwr.warm = some 2 ∧ t.pwr.rstLow = true) ∧
    (s.pwr.warm = some c → s.pwr.settleAt = none → s.clk.running = true → ∃ t, exec (.warmReset b) s = .next t ∧ t.clk.running = true ∧
      t.six = s.six ∧ t.tsk.up = false ∧ t.sec.session = none) ∧
    (s.pwr.held = 2 → exec (.rstNHigh b) s = .next (({ s with pwr := { s.pwr with rstLow := false, held := 0 } } : State).warmRun b)) ∧
    (1750 ≤ b.vmain → s.powered = false → ∃ t, exec (.coldStart b) s = .next t ∧ t.sec.session = none ∧ t.tsk.up = false) ∧
    (s.sec.upload = some x → s.fpDue = true → x.body = .fastPath cfg →
      (s.fpOk cfg = true → ∃ t, exec .fastpathConfigEffect s = .next t ∧ t.sec.upload = none ∧ t.fp = cfg ∧
        kvGet (fun _ => none) t.sec.running (x.kind - 1) = some (s.slotWith x)) ∧
      (s.fpOk cfg = false → ∃ t, exec .fastpathConfigEffect s = .next t ∧ t.sec.upload = none ∧ t.regs = s.regs ∧ t.fp = s.fp))
end

