-- ==== Sys2Proof/Laws/Kv.lean ====
section
/-!
SUPPORT. Laws/Kv.lean: reading after writing an indexed map, and the canonical form that every operation on one keeps.
-/
set_option Elab.async false
namespace Sys2Proof.Machine

variable {α : Type}

@[simp] theorem kvGet_nil (d : Nat → α) (k : Nat) : kvGet d [] k = d k := rfl

theorem kvGet_erase_same (d : Nat → α) (m : KV α) (k : Nat) : kvGet d (kvErase m k) k = d k := by
  induction m with
  | nil => rfl
  | cons e m ih =>
    obtain ⟨j, v⟩ := e
    by_cases h : j = k
    · simpa [kvErase, h] using ih
    · simpa [kvErase, kvGet, h] using ih

theorem kvGet_erase_ne (d : Nat → α) (m : KV α) {j k : Nat} (h : j ≠ k) : kvGet d (kvErase m k) j = kvGet d m j := by
  induction m with
  | nil => rfl
  | cons e m ih =>
    obtain ⟨i, v⟩ := e
    by_cases hi : i = k
    · have : i ≠ j := fun e => h (e ▸ hi)
      simpa [kvErase, kvGet, hi, this, hi ▸ this] using ih
    · simp [kvErase, kvGet, hi, ih]

theorem kvGet_insert_same (d : Nat → α) (m : KV α) (k : Nat) (v : α) (h : ∀ w, (k, w) ∉ m) : kvGet d (kvInsert m k v) k = v := by
  induction m with
  | nil => simp [kvInsert, kvGet]
  | cons e m ih =>
    obtain ⟨j, w⟩ := e
    have hj : j ≠ k := fun e => h w (by simp [e])
    by_cases hk : k < j
    · simp [kvInsert, kvGet, hk]
    · simp only [kvInsert, hk, if_false, kvGet, hj]
      exact ih fun w hw => h w (List.mem_cons_of_mem _ hw)

theorem kvGet_insert_ne (d : Nat → α) (m : KV α) {j k : Nat} (v : α) (h : j ≠ k) : kvGet d (kvInsert m k v) j = kvGet d m j := by
  induction m with
  | nil => simp [kvInsert, kvGet, Ne.symm h]
  | cons e m ih =>
    obtain ⟨i, w⟩ := e
    by_cases hk : k < i
    · simp [kvInsert, kvGet, hk, Ne.symm h]
    · simp [kvInsert, kvGet, hk, ih]

theorem not_mem_kvErase (m : KV α) (k : Nat) (w : α) : (k, w) ∉ kvErase m k := by
  induction m with
  | nil => simp [kvErase]
  | cons e m ih =>
    obtain ⟨j, v⟩ := e
    by_cases h : j = k
    · simpa [kvErase, h] using ih
    · simp [kvErase, h, ih, Ne.symm h]

/-- A read of the key that was written gives the value written. -/
@[simp] theorem kvGet_put_same [DecidableEq α] (d : Nat → α) (m : KV α) (k : Nat) (v : α) : kvGet d (kvPut d m k v) k = v := by
  unfold kvPut
  split
  · next h => rw [kvGet_erase_same, h]
  · exact kvGet_insert_same d _ k v (not_mem_kvErase m k)

/-- A write leaves every other key alone. -/
theorem kvGet_put_ne [DecidableEq α] (d : Nat → α) (m : KV α) {j k : Nat} (v : α) (h : j ≠ k) : kvGet d (kvPut d m k v) j = kvGet d m j := by
  unfold kvPut
  split
  · exact kvGet_erase_ne d m h
  · rw [kvGet_insert_ne d _ v h, kvGet_erase_ne d m h]

theorem kvGet_put [DecidableEq α] (d : Nat → α) (m : KV α) (j k : Nat) (v : α) :
    kvGet d (kvPut d m k v) j = if j = k then v else kvGet d m j := by
  split
  · next h => rw [h, kvGet_put_same]
  · next h => exact kvGet_put_ne d m v h

/-- A value that a canonical map holds is in the list of its values. -/
theorem mem_of_kvGet_ne (d : Nat → α) {m : KV α} {k : Nat} (h : kvGet d m k ≠ d k) : (k, kvGet d m k) ∈ m := by
  induction m with
  | nil => exact absurd rfl h
  | cons e m ih =>
    obtain ⟨j, v⟩ := e
    by_cases hj : j = k
    · subst hj
      simp [kvGet]
    · simp only [kvGet, hj, if_false] at h ⊢
      exact List.mem_cons_of_mem _ (ih h)

theorem mem_kvErase {m : KV α} {k : Nat} {e : Nat × α} (h : e ∈ kvErase m k) : e ∈ m := by
  induction m with
  | nil => exact h
  | cons x m ih =>
    obtain ⟨j, v⟩ := x
    by_cases hj : j = k
    · rw [show kvErase ((j, v) :: m) k = kvErase m k by simp [kvErase, hj]] at h
      exact List.mem_cons_of_mem _ (ih h)
    · rw [show kvErase ((j, v) :: m) k = (j, v) :: kvErase m k by simp [kvErase, hj]] at h
      rcases List.mem_cons.1 h with h | h
      · simp [h]
      · exact List.mem_cons_of_mem _ (ih h)

theorem mem_kvInsert {m : KV α} {k : Nat} {v : α} {e : Nat × α} (h : e ∈ kvInsert m k v) : e = (k, v) ∨ e ∈ m := by
  induction m with
  | nil => simpa [kvInsert] using h
  | cons x m ih =>
    obtain ⟨j, w⟩ := x
    by_cases hk : k < j
    · simpa [kvInsert, hk] using h
    · simp only [kvInsert, hk, if_false, List.mem_cons] at h ⊢
      rcases h with h | h
      · exact .inr (.inl h)
      · exact (ih h).imp id .inr

/-! ## The canonical form -/

variable [DecidableEq α]

theorem kvWfFrom_le (d : Nat → α) {m : KV α} : ∀ {a b : Nat}, a ≤ b → kvWfFrom d b m = true → kvWfFrom d a m = true := by
  cases m with
  | nil => intros; rfl
  | cons e m =>
    obtain ⟨k, v⟩ := e
    intro a b hab h
    simp only [kvWfFrom, Bool.and_eq_true, decide_eq_true_eq] at h ⊢
    exact ⟨⟨Nat.le_trans hab h.1.1, h.1.2⟩, h.2⟩

theorem kvWfFrom_filter (d : Nat → α) (p : Nat × α → Bool) {m : KV α} : ∀ {a : Nat}, kvWfFrom d a m = true →
    kvWfFrom d a (m.filter p) = true := by
  induction m with
  | nil => intros; rfl
  | cons e m ih =>
    obtain ⟨k, v⟩ := e
    intro a h
    simp only [kvWfFrom, Bool.and_eq_true, decide_eq_true_eq] at h
    have ht := ih h.2
    by_cases hp : p (k, v) = true
    · simp only [List.filter_cons, hp, if_true, kvWfFrom, Bool.and_eq_true, decide_eq_true_eq]
      exact ⟨h.1, ht⟩
    · simp only [List.filter_cons, hp]
      exact kvWfFrom_le d (Nat.le_succ_of_le h.1.1) ht

theorem kvWfFrom_erase (d : Nat → α) (k : Nat) {m : KV α} : ∀ {a : Nat}, kvWfFrom d a m = true → kvWfFrom d a (kvErase m k) = true := by
  induction m with
  | nil => intros; rfl
  | cons e m ih =>
    obtain ⟨j, v⟩ := e
    intro a h
    simp only [kvWfFrom, Bool.and_eq_true, decide_eq_true_eq] at h
    by_cases hj : j = k
    · rw [show kvErase ((j, v) :: m) k = kvErase m k by simp [kvErase, hj]]
      exact kvWfFrom_le d (Nat.le_succ_of_le h.1.1) (ih h.2)
    · rw [show kvErase ((j, v) :: m) k = (j, v) :: kvErase m k by simp [kvErase, hj]]
      simp only [kvWfFrom, Bool.and_eq_true, decide_eq_true_eq]
      exact ⟨h.1, ih h.2⟩

theorem kvWfFrom_insert (d : Nat → α) (k : Nat) (v : α) (hv : v ≠ d k) {m : KV α} : ∀ {a : Nat}, a ≤ k → (∀ w, (k, w) ∉ m) →
    kvWfFrom d a m = true → kvWfFrom d a (kvInsert m k v) = true := by
  induction m with
  | nil =>
    intro a ha _ _
    simp [kvInsert, kvWfFrom, ha, hv]
  | cons e m ih =>
    obtain ⟨j, w⟩ := e
    intro a ha hm h
    simp only [kvWfFrom, Bool.and_eq_true, decide_eq_true_eq] at h
    have hj : j ≠ k := fun e => hm w (by simp [e])
    by_cases hk : k < j
    · simp only [kvInsert, hk, if_true, kvWfFrom, Bool.and_eq_true, decide_eq_true_eq]
      exact ⟨⟨ha, hv⟩, ⟨hk, h.1.2⟩, h.2⟩
    · simp only [kvInsert, hk, if_false, kvWfFrom, Bool.and_eq_true, decide_eq_true_eq]
      exact ⟨h.1, ih (by omega) (fun w hw => hm w (List.mem_cons_of_mem _ hw)) h.2⟩

/-- A write keeps the canonical form. -/
theorem kvWf_put (d : Nat → α) {m : KV α} (k : Nat) (v : α) (h : kvWf d m = true) : kvWf d (kvPut d m k v) = true := by
  unfold kvPut
  split
  · exact kvWfFrom_erase d k h
  · next hv => exact kvWfFrom_insert d k v hv (Nat.zero_le k) (not_mem_kvErase m k) (kvWfFrom_erase d k h)

theorem kvWf_filter (d : Nat → α) (p : Nat × α → Bool) {m : KV α} (h : kvWf d m = true) : kvWf d (m.filter p) = true :=
  kvWfFrom_filter d p h

/-- An entry of a map after a write is the written one or stood there before. -/
theorem mem_kvPut (d : Nat → α) {m : KV α} {k : Nat} {v : α} {e : Nat × α} (h : e ∈ kvPut d m k v) : e = (k, v) ∨ e ∈ m := by
  unfold kvPut at h
  split at h
  · exact .inr (mem_kvErase h)
  · exact (mem_kvInsert h).imp id mem_kvErase

end Sys2Proof.Machine
end

