-- ==== Sys2Proof/Laws/Kept.lean ====
section
/-!
SUPPORT. Laws/Kept.lean: what an operation of the block keeps, as one relation between the states before and after: the queue, the
canonical forms, the sample index, and every part of the state outside a set; the rules by which it is carried through an
operation's text, and the basic operations.
-/
set_option Elab.async false
namespace Sys2Proof.Machine
open Sys2Proof

/-- The bit of a part in a set of parts written as a number. -/
def Part.bit : Part → Nat
  | .clk => 0
  | .regs => 1
  | .cel => 2
  | .fns => 3
  | .sec => 4
  | .ports => 5
  | .rebind => 6
  | .fab => 7
  | .bin => 8
  | .inj => 9
  | .fp => 10
  | .mem => 11
  | .lanes => 12
  | .tsk => 13
  | .frc => 14
  | .uch => 15
  | .uchGrp => 16
  | .eth => 17
  | .olc => 18
  | .lft => 19
  | .dma => 20
  | .ecc => 21
  | .pwr => 22
  | .tim => 23
  | .outbox => 24

/-- The set of the listed parts. -/
def partsMask (l : List Part) : Nat := l.foldr (fun p m => 2 ^ p.bit ||| m) 0

theorem partsMask_bit {l : List Part} {p : Part} : (partsMask l).testBit p.bit = true ↔ p ∈ l := by
  induction l with
  | nil => simp [partsMask]
  | cons q l ih =>
    have e : partsMask (q :: l) = 2 ^ q.bit ||| partsMask l := rfl
    rw [e, Nat.testBit_or, Bool.or_eq_true, ih, Nat.testBit_two_pow, List.mem_cons, decide_eq_true_eq]
    refine or_congr ⟨fun h => ?_, fun h => by rw [h]⟩ Iff.rfl
    revert h; cases p <;> cases q <;> decide

/-- Set `a` lies within set `b`. -/
def Within (a b : Nat) : Prop := ∀ i, a.testBit i = true → b.testBit i = true

theorem Within.refl (a : Nat) : Within a a := fun _ h => h
theorem Within.of {a b c : Nat} (h : Within b c) (e : a &&& b = a) : Within a c := by
  intro i hi
  rw [← e, Nat.testBit_and, Bool.and_eq_true] at hi
  exact h i hi.2
theorem Within.bit {a b i : Nat} (h : Within a b) (e : a.testBit i = true) : b.testBit i = true := h i e

/-- What an operation keeps from `s` to `t`: the queue, the canonical form of the registers and of the memories, SIX while it runs, and
every part of the state outside the set `T`. -/
structure Kept (T : Nat) (s t : State) : Prop where
  pending : t.pending = s.pending
  regs : s.regsWf = true → t.regsWf = true
  wf : Memory.wf s.mem = true → Memory.wf t.mem = true
  six : s.clk.running = true → t.clk.running = true ∧ t.clk.six = s.clk.six
  parts : ∀ p : Part, T.testBit p.bit = false → p.same s t

theorem Part.same_refl (p : Part) (s : State) : p.same s s := by cases p <;> rfl
theorem Part.same_trans {p : Part} {r s t : State} (a : p.same r s) (b : p.same s t) : p.same r t := by
  cases p <;> exact Eq.trans b a

namespace Kept
variable {T : Nat} {r s t : State}

theorem refl (T : Nat) (s : State) : Kept T s s := ⟨rfl, id, id, fun h => ⟨h, rfl⟩, fun p _ => p.same_refl s⟩

theorem trans (a : Kept T r s) (b : Kept T s t) : Kept T r t where
  pending := b.pending.trans a.pending
  regs := fun h => b.regs (a.regs h)
  wf := fun h => b.wf (a.wf h)
  six := fun h => ⟨(b.six (a.six h).1).1, (b.six (a.six h).1).2.trans (a.six h).2⟩
  parts := fun p h => Part.same_trans (a.parts p h) (b.parts p h)

/-- With more parts let go. -/
theorem mono {U : Nat} (h : Kept T s t) (w : Within T U) : Kept U s t :=
  ⟨h.pending, h.regs, h.wf, h.six, fun p e => h.parts p (by
    cases x : T.testBit p.bit with
    | false => rfl
    | true => rw [w _ x] at e; cases e)⟩

theorem ite {c : Prop} {_ : Decidable c} (a : Kept T r s) (b : Kept T r t) : Kept T r (if c then s else t) := by split <;> assumption

theorem foldl {α : Type} {f : State → α → State} {l : List α} (h : Kept T r s) (hf : ∀ u e, Kept T r u → Kept T r (f u e)) :
    Kept T r (l.foldl f s) := by
  induction l generalizing s with
  | nil => exact h
  | cons e l ih => exact ih (hf _ _ h)

theorem foldlSnd {α β : Type} {f : β × State → α → β × State} {l : List α} {b : β} (h : Kept T r s)
    (hf : ∀ u e, Kept T r u.2 → Kept T r (f u e).2) : Kept T r (l.foldl f (b, s)).2 := by
  have : ∀ (l : List α) (x : β × State), Kept T r x.2 → Kept T r (l.foldl f x).2 := by
    intro l
    induction l with
    | nil => exact fun _ h => h
    | cons e l ih => exact fun x h => ih _ (hf _ _ h)
  exact this l (b, s) h

end Kept

/-- Every next state of an outcome is kept. -/
def KeptO (T : Nat) (s : State) (o : Host.Outcome State Fault Refusal) : Prop := ∀ t, o = .next t → Kept T s t

theorem KeptO.next {T : Nat} {s t : State} (h : Kept T s t) : KeptO T s (.next t) := by
  intro u e; cases e; exact h

/-- The state of an instruction's effect is kept. -/
def KeptE (T : Nat) (s : State) : Effect → Prop
  | .trap _ _ => True
  | .next t _ _ => Kept T s t
  | .jump t _ _ => Kept T s t
  | .back t _ _ => Kept T s t
  | .stop t _ => Kept T s t

theorem KeptE.trap {T : Nat} {s : State} {a b : Nat} : KeptE T s (.trap a b) := trivial
theorem KeptE.next {T : Nat} {s t : State} {c : Cycle} {k : Nat} (h : Kept T s t) : KeptE T s (.next t c k) := h
theorem KeptE.jump {T : Nat} {s t : State} {c : Cycle} {k : Nat} (h : Kept T s t) : KeptE T s (.jump t c k) := h
theorem KeptE.back {T : Nat} {s t : State} {c : Cycle} {k : Nat} (h : Kept T s t) : KeptE T s (.back t c k) := h
theorem KeptE.stop {T : Nat} {s t : State} {c : Cycle} (h : Kept T s t) : KeptE T s (.stop t c) := h

/-! ## The basic operations -/

theorem State.wr_kept {T : Nat} {r s : State} {a : Nat} {w : Word} (h : Kept T r s) (hT : Within 2 T) : Kept T r (s.wr a w) :=
  h.trans ⟨rfl, fun e => kvWf_put _ a w e, id, fun e => ⟨e, rfl⟩, fun p e => by
    cases p <;> first | rfl | (rw [hT.bit (i := Part.regs.bit) rfl] at e; cases e)⟩

theorem Memory.wf_put {x : KV (KV Byte)} {sp : Nat} {v : KV Byte} (h : Memory.wf x = true) (hv : kvWf (fun _ => (0 : Byte)) v = true) :
    Memory.wf (kvPut (fun _ => []) x sp v) = true := by
  simp only [Memory.wf, Bool.and_eq_true, List.all_eq_true] at h ⊢
  refine ⟨kvWf_put _ sp v h.1, fun e he => ?_⟩
  rcases mem_kvPut _ he with he | he
  · subst he; exact hv
  · exact h.2 e he

theorem Memory.wf_get {x : KV (KV Byte)} {sp : Nat} (h : Memory.wf x = true) : kvWf (fun _ => (0 : Byte)) (kvGet (fun _ => []) x sp) = true := by
  simp only [Memory.wf, Bool.and_eq_true, List.all_eq_true] at h
  by_cases e : kvGet (fun _ => []) x sp = []
  · rw [e]; rfl
  · exact h.2 _ (mem_of_kvGet_ne (fun _ => []) e)

theorem Memory.wf_filter {x : KV (KV Byte)} {p : Nat × KV Byte → Bool} (h : Memory.wf x = true) : Memory.wf (x.filter p) = true := by
  simp only [Memory.wf, Bool.and_eq_true, List.all_eq_true] at h ⊢
  exact ⟨kvWf_filter _ p h.1, fun e he => h.2 e (List.mem_filter.1 he).1⟩

theorem putBytes_wf {x : KV Byte} {a : Nat} {bs : List Byte} (h : kvWf (fun _ => (0 : Byte)) x = true) :
    kvWf (fun _ => (0 : Byte)) (putBytes x a bs) = true := by
  induction bs generalizing x a with
  | nil => exact h
  | cons b bs ih => exact ih (kvWf_put _ a b h)

/-- A store keeps the canonical form of the memories, and everything but memory. -/
theorem State.storeBytes_kept {T : Nat} {r s : State} {sp a : Nat} {bs : List Byte} (h : Kept T r s) (hT : Within 2048 T := by
    first | exact Within.refl _ | (refine Within.of (b := ?zb) ?zw ?ze; (case zw => assumption); (case ze => decide))) :
    Kept T r (s.storeBytes sp a bs) :=
  h.trans ⟨rfl, id, fun e => Memory.wf_put e (putBytes_wf (Memory.wf_get e)), fun e => ⟨e, rfl⟩, fun p e => by
    cases p <;> first | rfl | (rw [hT.bit (i := Part.mem.bit) rfl] at e; cases e)⟩

theorem State.zeroSpace_kept {T : Nat} {r s : State} {sp : Nat} (h : Kept T r s) (hT : Within 2048 T := by
    first | exact Within.refl _ | (refine Within.of (b := ?zb) ?zw ?ze; (case zw => assumption); (case ze => decide))) : Kept T r (s.zeroSpace sp) :=
  h.trans ⟨rfl, id, fun e => Memory.wf_put (v := []) e rfl, fun e => ⟨e, rfl⟩, fun p e => by
    cases p <;> first | rfl | (rw [hT.bit (i := Part.mem.bit) rfl] at e; cases e)⟩

theorem State.bufClear_kept {T : Nat} {r s : State} (h : Kept T r s) (hT : Within 2 T := by
    first | exact Within.refl _ | (refine Within.of (b := ?zb) ?zw ?ze; (case zw => assumption); (case ze => decide))) : Kept T r s.bufClear :=
  h.trans ⟨rfl, fun e => kvWf_filter _ _ e, id, fun e => ⟨e, rfl⟩, fun p e => by
    cases p <;> first | rfl | (rw [hT.bit (i := Part.regs.bit) rfl] at e; cases e)⟩

/-! ## Further rules -/

theorem Kept.cut {T : Nat} {r x : State} {P : Prop} (a : Kept T r x) (b : Kept T r x → P) : P := b a
/-- A record update: each part stays or lies in the set. -/
theorem Kept.mk' {T : Nat} {r s : State}
    {clk : Clk} {cel : CelSt} {fns : KV FnSt} {sec : SecSt} {ports : KV Port} {rebind : Option Nat} {fab : FabSt} {bin : BinSt} {inj :
    InjSt} {fp : FpConfig} {lanes : KV LaneSt} {tsk : TskSt} {frc : KV FrcSt} {uch : KV UchSt} {uchGrp : KV UchGrp} {eth : EthSt} {olc
    : OlcSt} {lft : LftSt} {dma : KV DmaChan} {ecc : KV Nat} {pwr : PwrSt} {tim : TimSt} {outbox : List Out}
    (h : Kept T r s) (k : clk.running = s.clk.running) (x : clk.six = s.clk.six)
    (h0 : clk = s.clk ∨ Within 1 T := by
      first
        | (refine Or.inr (Within.of (b := ?zb) ?zw ?ze); (case zw => assumption); (case ze => decide))
        | exact Or.inl rfl)
    (h2 : cel = s.cel ∨ Within 4 T := by
      first
        | (refine Or.inr (Within.of (b := ?zb) ?zw ?ze); (case zw => assumption); (case ze => decide))
        | exact Or.inl rfl)
    (h3 : fns = s.fns ∨ Within 8 T := by
      first
        | (refine Or.inr (Within.of (b := ?zb) ?zw ?ze); (case zw => assumption); (case ze => decide))
        | exact Or.inl rfl)
    (h4 : sec = s.sec ∨ Within 16 T := by
      first
        | (refine Or.inr (Within.of (b := ?zb) ?zw ?ze); (case zw => assumption); (case ze => decide))
        | exact Or.inl rfl)
    (h5 : ports = s.ports ∨ Within 32 T := by
      first
        | (refine Or.inr (Within.of (b := ?zb) ?zw ?ze); (case zw => assumption); (case ze => decide))
        | exact Or.inl rfl)
    (h6 : rebind = s.rebind ∨ Within 64 T := by
      first
        | (refine Or.inr (Within.of (b := ?zb) ?zw ?ze); (case zw => assumption); (case ze => decide))
        | exact Or.inl rfl)
    (h7 : fab = s.fab ∨ Within 128 T := by
      first
        | (refine Or.inr (Within.of (b := ?zb) ?zw ?ze); (case zw => assumption); (case ze => decide))
        | exact Or.inl rfl)
    (h8 : bin = s.bin ∨ Within 256 T := by
      first
        | (refine Or.inr (Within.of (b := ?zb) ?zw ?ze); (case zw => assumption); (case ze => decide))
        | exact Or.inl rfl)
    (h9 : inj = s.inj ∨ Within 512 T := by
      first
        | (refine Or.inr (Within.of (b := ?zb) ?zw ?ze); (case zw => assumption); (case ze => decide))
        | exact Or.inl rfl)
    (h10 : fp = s.fp ∨ Within 1024 T := by
      first
        | (refine Or.inr (Within.of (b := ?zb) ?zw ?ze); (case zw => assumption); (case ze => decide))
        | exact Or.inl rfl)
    (h12 : lanes = s.lanes ∨ Within 4096 T := by
      first
        | (refine Or.inr (Within.of (b := ?zb) ?zw ?ze); (case zw => assumption); (case ze => decide))
        | exact Or.inl rfl)
    (h13 : tsk = s.tsk ∨ Within 8192 T := by
      first
        | (refine Or.inr (Within.of (b := ?zb) ?zw ?ze); (case zw => assumption); (case ze => decide))
        | exact Or.inl rfl)
    (h14 : frc = s.frc ∨ Within 16384 T := by
      first
        | (refine Or.inr (Within.of (b := ?zb) ?zw ?ze); (case zw => assumption); (case ze => decide))
        | exact Or.inl rfl)
    (h15 : uch = s.uch ∨ Within 32768 T := by
      first
        | (refine Or.inr (Within.of (b := ?zb) ?zw ?ze); (case zw => assumption); (case ze => decide))
        | exact Or.inl rfl)
    (h16 : uchGrp = s.uchGrp ∨ Within 65536 T := by
      first
        | (refine Or.inr (Within.of (b := ?zb) ?zw ?ze); (case zw => assumption); (case ze => decide))
        | exact Or.inl rfl)
    (h17 : eth = s.eth ∨ Within 131072 T := by
      first
        | (refine Or.inr (Within.of (b := ?zb) ?zw ?ze); (case zw => assumption); (case ze => decide))
        | exact Or.inl rfl)
    (h18 : olc = s.olc ∨ Within 262144 T := by
      first
        | (refine Or.inr (Within.of (b := ?zb) ?zw ?ze); (case zw => assumption); (case ze => decide))
        | exact Or.inl rfl)
    (h19 : lft = s.lft ∨ Within 524288 T := by
      first
        | (refine Or.inr (Within.of (b := ?zb) ?zw ?ze); (case zw => assumption); (case ze => decide))
        | exact Or.inl rfl)
    (h20 : dma = s.dma ∨ Within 1048576 T := by
      first
        | (refine Or.inr (Within.of (b := ?zb) ?zw ?ze); (case zw => assumption); (case ze => decide))
        | exact Or.inl rfl)
    (h21 : ecc = s.ecc ∨ Within 2097152 T := by
      first
        | (refine Or.inr (Within.of (b := ?zb) ?zw ?ze); (case zw => assumption); (case ze => decide))
        | exact Or.inl rfl)
    (h22 : pwr = s.pwr ∨ Within 4194304 T := by
      first
        | (refine Or.inr (Within.of (b := ?zb) ?zw ?ze); (case zw => assumption); (case ze => decide))
        | exact Or.inl rfl)
    (h23 : tim = s.tim ∨ Within 8388608 T := by
      first
        | (refine Or.inr (Within.of (b := ?zb) ?zw ?ze); (case zw => assumption); (case ze => decide))
        | exact Or.inl rfl)
    (h24 : outbox = s.outbox ∨ Within 16777216 T := by
      first
        | (refine Or.inr (Within.of (b := ?zb) ?zw ?ze); (case zw => assumption); (case ze => decide))
        | exact Or.inl rfl) :
    Kept T r
      ⟨clk, s.regs, cel, fns, sec, ports, rebind, fab, bin, inj, fp, s.mem, lanes, tsk, frc, uch, uchGrp, eth, olc, lft, dma, ecc,
      pwr, tim, outbox, s.pending⟩ := by
  refine h.trans ⟨rfl, id, id, fun e => ⟨k.trans e, x⟩, fun p e => ?_⟩
  cases p with
    | clk => exact Or.resolve_right h0 (fun x => by
      have y : T.testBit 0 = true := x.bit (by decide)
      rw [show T.testBit 0 = false from e] at y; cases y)
    | regs => exact rfl
    | cel => exact Or.resolve_right h2 (fun x => by
      have y : T.testBit 2 = true := x.bit (by decide)
      rw [show T.testBit 2 = false from e] at y; cases y)
    | fns => exact Or.resolve_right h3 (fun x => by
      have y : T.testBit 3 = true := x.bit (by decide)
      rw [show T.testBit 3 = false from e] at y; cases y)
    | sec => exact Or.resolve_right h4 (fun x => by
      have y : T.testBit 4 = true := x.bit (by decide)
      rw [show T.testBit 4 = false from e] at y; cases y)
    | ports => exact Or.resolve_right h5 (fun x => by
      have y : T.testBit 5 = true := x.bit (by decide)
      rw [show T.testBit 5 = false from e] at y; cases y)
    | rebind => exact Or.resolve_right h6 (fun x => by
      have y : T.testBit 6 = true := x.bit (by decide)
      rw [show T.testBit 6 = false from e] at y; cases y)
    | fab => exact Or.resolve_right h7 (fun x => by
      have y : T.testBit 7 = true := x.bit (by decide)
      rw [show T.testBit 7 = false from e] at y; cases y)
    | bin => exact Or.resolve_right h8 (fun x => by
      have y : T.testBit 8 = true := x.bit (by decide)
      rw [show T.testBit 8 = false from e] at y; cases y)
    | inj => exact Or.resolve_right h9 (fun x => by
      have y : T.testBit 9 = true := x.bit (by decide)
      rw [show T.testBit 9 = false from e] at y; cases y)
    | fp => exact Or.resolve_right h10 (fun x => by
      have y : T.testBit 10 = true := x.bit (by decide)
      rw [show T.testBit 10 = false from e] at y; cases y)
    | mem => exact rfl
    | lanes => exact Or.resolve_right h12 (fun x => by
      have y : T.testBit 12 = true := x.bit (by decide)
      rw [show T.testBit 12 = false from e] at y; cases y)
    | tsk => exact Or.resolve_right h13 (fun x => by
      have y : T.testBit 13 = true := x.bit (by decide)
      rw [show T.testBit 13 = false from e] at y; cases y)
    | frc => exact Or.resolve_right h14 (fun x => by
      have y : T.testBit 14 = true := x.bit (by decide)
      rw [show T.testBit 14 = false from e] at y; cases y)
    | uch => exact Or.resolve_right h15 (fun x => by
      have y : T.testBit 15 = true := x.bit (by decide)
      rw [show T.testBit 15 = false from e] at y; cases y)
    | uchGrp => exact Or.resolve_right h16 (fun x => by
      have y : T.testBit 16 = true := x.bit (by decide)
      rw [show T.testBit 16 = false from e] at y; cases y)
    | eth => exact Or.resolve_right h17 (fun x => by
      have y : T.testBit 17 = true := x.bit (by decide)
      rw [show T.testBit 17 = false from e] at y; cases y)
    | olc => exact Or.resolve_right h18 (fun x => by
      have y : T.testBit 18 = true := x.bit (by decide)
      rw [show T.testBit 18 = false from e] at y; cases y)
    | lft => exact Or.resolve_right h19 (fun x => by
      have y : T.testBit 19 = true := x.bit (by decide)
      rw [show T.testBit 19 = false from e] at y; cases y)
    | dma => exact Or.resolve_right h20 (fun x => by
      have y : T.testBit 20 = true := x.bit (by decide)
      rw [show T.testBit 20 = false from e] at y; cases y)
    | ecc => exact Or.resolve_right h21 (fun x => by
      have y : T.testBit 21 = true := x.bit (by decide)
      rw [show T.testBit 21 = false from e] at y; cases y)
    | pwr => exact Or.resolve_right h22 (fun x => by
      have y : T.testBit 22 = true := x.bit (by decide)
      rw [show T.testBit 22 = false from e] at y; cases y)
    | tim => exact Or.resolve_right h23 (fun x => by
      have y : T.testBit 23 = true := x.bit (by decide)
      rw [show T.testBit 23 = false from e] at y; cases y)
    | outbox => exact Or.resolve_right h24 (fun x => by
      have y : T.testBit 24 = true := x.bit (by decide)
      rw [show T.testBit 24 = false from e] at y; cases y)
/-- Memory written as a whole, in canonical form. -/
theorem Kept.putMem {T : Nat} {r s : State} {x : KV (KV Byte)} (h : Kept T r s) (w : Memory.wf r.mem = true → Memory.wf x = true)
    (hT : Within 2048 T) : Kept T r { s with mem := x } :=
  ⟨h.pending, h.regs, w, h.six, fun p e => by
    refine Part.same_trans (h.parts p e) ?_
    cases p <;> first | rfl | (have y : T.testBit 11 = true := hT.bit (by decide); rw [show T.testBit 11 = false from e] at y; cases y)⟩

theorem Kept.ite2 {α : Type} {T : Nat} {r : State} {c : Prop} {_ : Decidable c} {a b : α × State} (x : Kept T r a.2) (y : Kept T r b.2) :
    Kept T r (if c then a else b).2 := by split <;> assumption
theorem Kept.iteSt {T : Nat} {r : State} {c : Prop} {_ : Decidable c} {a b : Answer} (x : Kept T r a.st) (y : Kept T r b.st) :
    Kept T r (if c then a else b).st := by split <;> assumption
theorem KeptO.ite {T : Nat} {r : State} {c : Prop} {_ : Decidable c} {a b} (x : KeptO T r a) (y : KeptO T r b) :
    KeptO T r (if c then a else b) := by split <;> assumption
theorem KeptE.ite {T : Nat} {r : State} {c : Prop} {_ : Decidable c} {a b} (x : KeptE T r a) (y : KeptE T r b) :
    KeptE T r (if c then a else b) := by split <;> assumption
theorem whenAllowed_kept {T : Nat} {r : State} {g : Bool × State} {f : State → State} (h : Kept T r g.2)
    (hf : ∀ u, Kept T r u → Kept T r (f u)) : Kept T r (whenAllowed g f) := by
  unfold whenAllowed; split
  · exact hf _ h
  · exact h
def KeptS (T : Nat) (s : State) (o : Option State) : Prop := ∀ t, o = some t → Kept T s t
theorem KeptS.some {T : Nat} {s t : State} (h : Kept T s t) : KeptS T s (some t) := by intro u e; cases e; exact h
theorem KeptS.none {T : Nat} {s : State} : KeptS T s none := by intro u e; cases e
theorem KeptS.ite {T : Nat} {r : State} {c : Prop} {_ : Decidable c} {a b} (x : KeptS T r a) (y : KeptS T r b) :
    KeptS T r (if c then a else b) := by split <;> assumption
def KeptS2 {α : Type} (T : Nat) (s : State) (o : Option (α × State)) : Prop := ∀ t, o = some t → Kept T s t.2
theorem KeptS2.some {α : Type} {T : Nat} {s : State} {x : α × State} (h : Kept T s x.2) : KeptS2 T s (some x) := by intro u e; cases e; exact h
theorem KeptS2.none {α : Type} {T : Nat} {s : State} : KeptS2 (α := α) T s none := by intro u e; cases e
theorem KeptS2.ite {α : Type} {T : Nat} {r : State} {c : Prop} {_ : Decidable c} {a b : Option (α × State)} (x : KeptS2 T r a) (y : KeptS2 T r b) :
    KeptS2 T r (if c then a else b) := by split <;> assumption

/-- What a meaning keeps gives its command's frame: a part that the list does not hold is the same. -/
theorem KeptO.same {l : List Part} {N : Nat} {s t : State} {o : Host.Outcome State Fault Refusal}
    (k : Within N (partsMask l) → KeptO (partsMask l) s o) (e : Nat.land N (partsMask l) = N) (h : o = .next t) {p : Part} (hp : p ∉ l) :
    p.same s t := by
  refine (k (.of (.refl _) e) t h).parts p ?_
  cases x : (partsMask l).testBit p.bit with
  | false => rfl
  | true => exact absurd (partsMask_bit.1 x) hp

end Sys2Proof.Machine
end

