-- ==== Sys2Proof/Laws/KeptBase.lean ====
section
/-!
SUPPORT. Laws/KeptBase.lean: what each operation of registers, the fabric, events and links keeps (the relation Kept of Laws/Kept.lean), one lemma
per operation.
-/
set_option linter.unusedTactic false
set_option linter.unreachableTactic false
set_option linter.unusedVariables false
set_option Elab.async false
namespace Sys2Proof.Machine
open Sys2Proof

/-! ## Machine/Ops.lean -/

theorem State.set_kept {T : Nat} {r s : State} {x1 : Field} {x2 : ℕ} (h : Kept T r s) (hT : Within 2 T := by
    first | exact Within.refl _ | (refine Within.of (b := ?zb) ?zw ?ze; (case zw => assumption); (case ze => decide))) : Kept T r (State.set s x1 x2) := by
  unfold State.set
  repeat' first
    | with_reducible assumption
    | exact Within.of hT rfl
    | with_reducible apply State.wr_kept

theorem State.bumpBy_kept {T : Nat} {r s : State} {x1 : Field} {x2 : ℕ} (h : Kept T r s) (hT : Within 2 T) : Kept T r (State.bumpBy s x1 x2) := by
  unfold State.bumpBy
  repeat' first
    | with_reducible assumption
    | exact Within.of hT rfl
    | with_reducible apply State.set_kept

theorem State.bump_kept {T : Nat} {r s : State} {x1 : Field} (h : Kept T r s) (hT : Within 2 T := by
    first | exact Within.refl _ | (refine Within.of (b := ?zb) ?zw ?ze; (case zw => assumption); (case ze => decide))) : Kept T r (State.bump s x1) := by
  unfold State.bump
  repeat' first
    | with_reducible assumption
    | exact Within.of hT rfl
    | with_reducible apply State.bumpBy_kept

theorem State.set64_kept {T : Nat} {r s : State} {x1 : ℕ} {x2 : ℕ} (h : Kept T r s) (hT : Within 2 T := by
    first | exact Within.refl _ | (refine Within.of (b := ?zb) ?zw ?ze; (case zw => assumption); (case ze => decide))) : Kept T r (State.set64 s x1 x2) := by
  unfold State.set64
  repeat' first
    | with_reducible assumption
    | exact Within.of hT rfl
    | with_reducible apply State.wr_kept

theorem State.setFn_kept {T : Nat} {r s : State} {x1 : ℕ} {x2 : FnSt} (h : Kept T r s) (hT : Within 8 T) : Kept T r (State.setFn s x1 x2) := by
  unfold State.setFn
  repeat' first
    | with_reducible apply Kept.ite
    | with_reducible assumption
    | exact Within.of hT rfl
    | (fail_if_no_progress with_reducible refine Kept.mk' ?_ rfl rfl)

theorem State.emit_kept {T : Nat} {r s : State} {x1 : Out} (h : Kept T r s) (hT : Within 16777216 T := by
    first | exact Within.refl _ | (refine Within.of (b := ?zb) ?zw ?ze; (case zw => assumption); (case ze => decide))) : Kept T r (State.emit s x1) := by
  unfold State.emit
  repeat' first
    | with_reducible apply Kept.ite
    | with_reducible assumption
    | exact Within.of hT rfl
    | (fail_if_no_progress with_reducible refine Kept.mk' ?_ rfl rfl)

theorem State.msix_kept {T : Nat} {r s : State} {x1 : ℕ} {x2 : ℕ} (h : Kept T r s) (hT : Within 16777224 T) : Kept T r (State.msix s x1 x2) := by
  unfold State.msix
  repeat' first
    | with_reducible apply Kept.ite
    | with_reducible assumption
    | exact Within.of hT rfl
    | with_reducible apply State.setFn_kept
    | with_reducible apply State.emit_kept

theorem State.raise_kept {T : Nat} {r s : State} {x1 : Field} (h : Kept T r s) (hT : Within 16777226 T := by
    first | exact Within.refl _ | (refine Within.of (b := ?zb) ?zw ?ze; (case zw => assumption); (case ze => decide))) : Kept T r (State.raise s x1) := by
  unfold State.raise
  repeat' first
    | with_reducible apply Kept.ite
    | with_reducible assumption
    | exact Within.of hT rfl
    | with_reducible apply State.set_kept
    | with_reducible apply State.msix_kept

theorem State.enqueue_kept {T : Nat} {r s : State} {x1 : Raised} (h : Kept T r s) (hT : Within 16777230 T) : Kept T r (State.enqueue s x1) := by
  unfold State.enqueue
  repeat' first
    | with_reducible apply Kept.ite
    | with_reducible assumption
    | exact Within.of hT rfl
    | with_reducible apply State.raise_kept
    | with_reducible apply State.bump_kept
    | (fail_if_no_progress with_reducible refine Kept.mk' ?_ rfl rfl)

theorem State.logFull_kept {T : Nat} {r s : State} {x1 : EvCode} {x2 : ℕ} {x3 : ℕ} {x4 : List Byte} {x5 : Bool} (h : Kept T r s) (hT : Within 16777230 T) : Kept T r (State.logFull s x1 x2 x3 x4 x5) := by
  unfold State.logFull
  repeat' first
    | with_reducible assumption
    | exact Within.of hT rfl
    | with_reducible apply State.enqueue_kept

theorem State.logAt_kept {T : Nat} {r s : State} {x1 : EvCode} {x2 : ℕ} {x3 : ℕ} {x4 : List Byte} (h : Kept T r s) (hT : Within 16777230 T) : Kept T r (State.logAt s x1 x2 x3 x4) := by
  unfold State.logAt
  repeat' first
    | with_reducible assumption
    | exact Within.of hT rfl
    | with_reducible apply State.logFull_kept

theorem State.log_kept {T : Nat} {r s : State} {x1 : ℕ} {x2 : ℕ} {x3 : List Byte} (h : Kept T r s) (hT : Within 16777230 T := by
    first | exact Within.refl _ | (refine Within.of (b := ?zb) ?zw ?ze; (case zw => assumption); (case ze => decide))) : Kept T r (State.log s x1 x2 x3) := by
  unfold State.log
  repeat' first
    | with_reducible assumption
    | exact Within.of hT rfl
    | with_reducible apply State.logAt_kept

theorem State.logNamed_kept {T : Nat} {r s : State} {x1 : String} {x2 : List Byte} (h : Kept T r s) (hT : Within 16777230 T := by
    first | exact Within.refl _ | (refine Within.of (b := ?zb) ?zw ?ze; (case zw => assumption); (case ze => decide))) : Kept T r (State.logNamed s x1 x2) := by
  unfold State.logNamed
  repeat' first
    | with_reducible assumption
    | exact Within.of hT rfl
    | with_reducible apply State.logAt_kept

theorem State.logNamedSev_kept {T : Nat} {r s : State} {x1 : String} {x2 : ℕ} {x3 : List Byte} (h : Kept T r s) (hT : Within 16777230 T) : Kept T r (State.logNamedSev s x1 x2 x3) := by
  unfold State.logNamedSev
  repeat' first
    | with_reducible assumption
    | exact Within.of hT rfl
    | with_reducible apply State.logAt_kept

theorem State.fresh_kept {T : Nat} {r s : State}  (h : Kept T r s) (hT : Within 1 T) : Kept T r (State.fresh s).2 := by
  unfold State.fresh
  repeat' first
    | with_reducible apply Kept.ite2
    | with_reducible apply Kept.ite
    | with_reducible assumption
    | exact Within.of hT rfl
    | (fail_if_no_progress with_reducible refine Kept.mk' ?_ rfl rfl)

theorem State.deny_kept {T : Nat} {r s : State} {x1 : ℕ} {x2 : ℕ} {x3 : ℕ} (h : Kept T r s) (hT : Within 16777230 T := by
    first | exact Within.refl _ | (refine Within.of (b := ?zb) ?zw ?ze; (case zw => assumption); (case ze => decide))) : Kept T r (State.deny s x1 x2 x3) := by
  unfold State.deny
  repeat' first
    | with_reducible assumption
    | exact Within.of hT rfl
    | with_reducible apply State.bump_kept
    | with_reducible apply State.set_kept
    | with_reducible apply State.log_kept
    | with_reducible apply State.raise_kept

theorem State.touch_kept {T : Nat} {r s : State} {x1 : ℕ} (h : Kept T r s) (hT : Within 16 T) : Kept T r (State.touch s x1) := by
  unfold State.touch
  repeat' first
    | with_reducible apply Kept.ite
    | with_reducible assumption
    | exact Within.of hT rfl
    | (fail_if_no_progress with_reducible refine Kept.mk' ?_ rfl rfl)

theorem State.gate_kept {T : Nat} {r s : State} {x1 : ℕ} {x2 : ℕ} {x3 : Word} {x4 : Option ℕ} {x5 : Bool} (h : Kept T r s) (hT : Within 16777246 T := by
    first | exact Within.refl _ | (refine Within.of (b := ?zb) ?zw ?ze; (case zw => assumption); (case ze => decide))) : Kept T r (State.gate s x1 x2 x3 x4 x5).2 := by
  unfold State.gate
  repeat' first
    | with_reducible apply Kept.ite2
    | with_reducible apply Kept.ite
    | with_reducible assumption
    | exact Within.of hT rfl
    | with_reducible apply State.touch_kept
    | with_reducible apply State.deny_kept
    | (fail_if_no_progress with_reducible refine Kept.mk' ?_ rfl rfl)
    | (extract_lets +onlyGivenNames x; first | (with_reducible apply Kept.cut (T := T) (r := r) (x := x); on_goal 2 => (intro hx; clear_value x)) | clear_value x)
    | split

theorem State.commit64_kept {T : Nat} {r s : State} {x1 : ℕ} {x2 : ℕ} {x3 : Word} (h : Kept T r s) (hT : Within 16777226 T) : Kept T r (State.commit64 s x1 x2 x3).2 := by
  unfold State.commit64
  repeat' first
    | with_reducible apply Kept.ite2
    | with_reducible apply Kept.ite
    | with_reducible assumption
    | exact Within.of hT rfl
    | with_reducible apply State.setFn_kept
    | with_reducible apply State.raise_kept

/-! ## Machine/Fab.lean -/

theorem State.setCtx_kept {T : Nat} {r s : State} {x1 : ℕ} {x2 : Ctx} (h : Kept T r s) (hT : Within 128 T) : Kept T r (State.setCtx s x1 x2) := by
  unfold State.setCtx
  repeat' first
    | with_reducible apply Kept.ite
    | with_reducible assumption
    | exact Within.of hT rfl
    | (fail_if_no_progress with_reducible refine Kept.mk' ?_ rfl rfl)

theorem State.fileSamp_kept {T : Nat} {r s : State} {x1 : ℕ} {x2 : ℕ} {x3 : Samp} (h : Kept T r s) (hT : Within 128 T) : Kept T r (State.fileSamp s x1 x2 x3) := by
  unfold State.fileSamp
  repeat' first
    | with_reducible apply Kept.ite
    | with_reducible assumption
    | exact Within.of hT rfl
    | (fail_if_no_progress with_reducible refine Kept.mk' ?_ rfl rfl)

theorem State.sfbCounts_kept {T : Nat} {r s : State}  (h : Kept T r s) (hT : Within 2 T) : Kept T r (State.sfbCounts s) := by
  unfold State.sfbCounts
  repeat' first
    | with_reducible assumption
    | exact Within.of hT rfl
    | with_reducible apply State.set_kept

theorem State.countMiss_kept {T : Nat} {r s : State} {x1 : ℕ} {x2 : ℕ} (h : Kept T r s) (hT : Within 2 T := by
    first | exact Within.refl _ | (refine Within.of (b := ?zb) ?zw ?ze; (case zw => assumption); (case ze => decide))) : Kept T r (State.countMiss s x1 x2) := by
  unfold State.countMiss
  repeat' first
    | with_reducible apply Kept.ite
    | with_reducible assumption
    | exact Within.of hT rfl
    | with_reducible apply State.bumpBy_kept
    | (fail_if_no_progress with_reducible refine Kept.mk' ?_ rfl rfl)

theorem State.setCtxState_kept {T : Nat} {r s : State} {x1 : ℕ} {x2 : ℕ} (h : Kept T r s) (hT : Within 16777226 T) : Kept T r (State.setCtxState s x1 x2) := by
  unfold State.setCtxState
  repeat' first
    | with_reducible apply Kept.ite
    | with_reducible assumption
    | exact Within.of hT rfl
    | with_reducible apply State.sfbCounts_kept
    | with_reducible apply State.set_kept
    | with_reducible apply State.raise_kept

theorem State.ctxMissing_kept {T : Nat} {r s : State} {x1 : ℕ} {x2 : ℕ} (h : Kept T r s) (hT : Within 16777354 T) : Kept T r (State.ctxMissing s x1 x2) := by
  unfold State.ctxMissing
  repeat' first
    | with_reducible apply Kept.ite
    | with_reducible assumption
    | exact Within.of hT rfl
    | with_reducible apply State.setCtx_kept
    | with_reducible apply State.setCtxState_kept

theorem State.ctxReceiving_kept {T : Nat} {r s : State} {x1 : ℕ} {x2 : ℕ} (h : Kept T r s) (hT : Within 128 T) : Kept T r (State.ctxReceiving s x1 x2) := by
  unfold State.ctxReceiving
  repeat' first
    | with_reducible apply Kept.ite
    | with_reducible assumption
    | exact Within.of hT rfl
    | with_reducible apply State.setCtx_kept
    | (fail_if_no_progress with_reducible refine Kept.mk' ?_ rfl rfl)
    | (extract_lets +onlyGivenNames x; first | (with_reducible apply Kept.cut (T := T) (r := r) (x := x); on_goal 2 => (intro hx; clear_value x)) | clear_value x)
    | split

theorem State.settle_kept {T : Nat} {r s : State} {x1 : ℕ} {x2 : ℕ} {x3 : ℕ} (h : Kept T r s) (hT : Within 128 T) : Kept T r (State.settle s x1 x2 x3) := by
  unfold State.settle
  repeat' first
    | with_reducible assumption
    | exact Within.of hT rfl
    | with_reducible apply State.setCtx_kept

theorem State.fileDeriv_kept {T : Nat} {r s : State} {x1 : ℕ} {x2 : ℕ} {x3 : Deriv} (h : Kept T r s) (hT : Within 128 T) : Kept T r (State.fileDeriv s x1 x2 x3) := by
  unfold State.fileDeriv
  repeat' first
    | with_reducible apply Kept.ite
    | with_reducible assumption
    | exact Within.of hT rfl
    | (fail_if_no_progress with_reducible refine Kept.mk' ?_ rfl rfl)

theorem State.asOf_kept {T : Nat} {r s : State} {x1 : ℕ} {x2 : ℕ} (h : Kept T r s) (hT : Within 130 T := by
    first | exact Within.refl _ | (refine Within.of (b := ?zb) ?zw ?ze; (case zw => assumption); (case ze => decide))) : Kept T r (State.asOf s x1 x2) := by
  unfold State.asOf
  repeat' first
    | with_reducible apply Kept.ite
    | with_reducible assumption
    | exact Within.of hT rfl
    | with_reducible apply State.setCtx_kept
    | with_reducible apply State.wr_kept
    | (fail_if_no_progress with_reducible refine Kept.mk' ?_ rfl rfl)
    | split

theorem execDerivedValuesCompute_kept {T : Nat} {r s : State} {x0 : Fin 256} (h : Kept T r s) (hT : Within 16777354 T) : KeptO T r (execDerivedValuesCompute x0 s) := by
  unfold execDerivedValuesCompute
  repeat' first
    | with_reducible apply KeptO.ite
    | with_reducible apply Kept.ite
    | with_reducible assumption
    | exact Within.of hT rfl
    | with_reducible apply KeptO.next
    | with_reducible apply State.asOf_kept
    | with_reducible apply State.fileDeriv_kept
    | with_reducible apply State.raise_kept
    | (fail_if_no_progress with_reducible refine Kept.mk' ?_ rfl rfl)
    | (with_reducible apply Kept.foldl; on_goal 2 => (intro _ _ _; beta_reduce))
    | (with_reducible apply Kept.foldlSnd; on_goal 2 => (intro _ _ _; beta_reduce))
    | split

/-! ## Machine/Reg.lean -/

theorem State.wrFields_kept {T : Nat} {r s : State} {x1 : ℕ} {x2 : Word} (h : Kept T r s) (hT : Within 2 T) : Kept T r (State.wrFields s x1 x2) := by
  unfold State.wrFields
  repeat' first
    | with_reducible apply Kept.ite
    | with_reducible assumption
    | exact Within.of hT rfl
    | with_reducible apply State.wr_kept
    | (fail_if_no_progress with_reducible refine Kept.mk' ?_ rfl rfl)
    | split

/-! ## Machine/Evt.lean -/

theorem State.setTaskRt_kept {T : Nat} {r s : State} {x1 : ℕ} {x2 : TaskRt} (h : Kept T r s) (hT : Within 8192 T) : Kept T r (State.setTaskRt s x1 x2) := by
  unfold State.setTaskRt
  repeat' first
    | with_reducible apply Kept.ite
    | with_reducible assumption
    | exact Within.of hT rfl
    | (fail_if_no_progress with_reducible refine Kept.mk' ?_ rfl rfl)

theorem State.pendTask_kept {T : Nat} {r s : State} {x1 : ℕ} {x2 : ℕ} {x3 : Bool} (h : Kept T r s) (hT : Within 8194 T := by
    first | exact Within.refl _ | (refine Within.of (b := ?zb) ?zw ?ze; (case zw => assumption); (case ze => decide))) : Kept T r (State.pendTask s x1 x2 x3) := by
  unfold State.pendTask
  repeat' first
    | with_reducible apply Kept.ite
    | with_reducible assumption
    | exact Within.of hT rfl
    | with_reducible apply State.set_kept
    | with_reducible apply State.setTaskRt_kept
    | (fail_if_no_progress with_reducible refine Kept.mk' ?_ rfl rfl)

theorem State.setShadowRt_kept {T : Nat} {r s : State} {x1 : ℕ} {x2 : TaskRt} (h : Kept T r s) (hT : Within 262144 T) : Kept T r (State.setShadowRt s x1 x2) := by
  unfold State.setShadowRt
  repeat' first
    | with_reducible apply Kept.ite
    | with_reducible assumption
    | exact Within.of hT rfl
    | (fail_if_no_progress with_reducible refine Kept.mk' ?_ rfl rfl)

theorem State.pendShadow_kept {T : Nat} {r s : State} {x1 : ℕ} {x2 : ℕ} {x3 : Bool} (h : Kept T r s) (hT : Within 262144 T := by
    first | exact Within.refl _ | (refine Within.of (b := ?zb) ?zw ?ze; (case zw => assumption); (case ze => decide))) : Kept T r (State.pendShadow s x1 x2 x3) := by
  unfold State.pendShadow
  repeat' first
    | with_reducible apply Kept.ite
    | with_reducible assumption
    | exact Within.of hT rfl
    | with_reducible apply State.setShadowRt_kept
    | (fail_if_no_progress with_reducible refine Kept.mk' ?_ rfl rfl)

theorem State.pendEvent_kept {T : Nat} {r s : State} {x1 : Sources → Bool} {x2 : ℕ} (h : Kept T r s) (hT : Within 270338 T := by
    first | exact Within.refl _ | (refine Within.of (b := ?zb) ?zw ?ze; (case zw => assumption); (case ze => decide))) : Kept T r (State.pendEvent s x1 x2) := by
  unfold State.pendEvent
  repeat' first
    | with_reducible apply Kept.ite
    | with_reducible assumption
    | exact Within.of hT rfl
    | with_reducible apply State.pendShadow_kept
    | with_reducible apply State.pendTask_kept
    | (fail_if_no_progress with_reducible refine Kept.mk' ?_ rfl rfl)
    | (with_reducible apply Kept.foldl; on_goal 2 => (intro _ _ _; beta_reduce))
    | (with_reducible apply Kept.foldlSnd; on_goal 2 => (intro _ _ _; beta_reduce))
    | split

/-! ## Machine/Bin.lean -/

theorem State.setBinIn_kept {T : Nat} {r s : State} {x1 : ℕ} {x2 : BinIn} (h : Kept T r s) (hT : Within 256 T) : Kept T r (State.setBinIn s x1 x2) := by
  unfold State.setBinIn
  repeat' first
    | with_reducible apply Kept.ite
    | with_reducible assumption
    | exact Within.of hT rfl
    | (fail_if_no_progress with_reducible refine Kept.mk' ?_ rfl rfl)

theorem State.setTdo_kept {T : Nat} {r s : State} {x1 : ℕ} {x2 : TdoSt} (h : Kept T r s) (hT : Within 512 T) : Kept T r (State.setTdo s x1 x2) := by
  unfold State.setTdo
  repeat' first
    | with_reducible apply Kept.ite
    | with_reducible assumption
    | exact Within.of hT rfl
    | (fail_if_no_progress with_reducible refine Kept.mk' ?_ rfl rfl)

theorem State.present_kept {T : Nat} {r s : State} {x1 : ℕ} {x2 : Bool} {x3 : Bool} (h : Kept T r s) (hT : Within 258 T) : Kept T r (State.present s x1 x2 x3) := by
  unfold State.present
  repeat' first
    | with_reducible assumption
    | exact Within.of hT rfl
    | with_reducible apply State.set_kept
    | with_reducible apply State.setBinIn_kept

theorem State.binRun_kept {T : Nat} {r s : State} {x1 : BitVec 32} {x2 : ℕ} (h : Kept T r s) (hT : Within 256 T) : Kept T r (State.binRun s x1 x2) := by
  unfold State.binRun
  repeat' first
    | with_reducible apply Kept.ite
    | with_reducible assumption
    | exact Within.of hT rfl
    | with_reducible apply State.setBinIn_kept

theorem State.readback_kept {T : Nat} {r s : State} {x1 : BitVec 8} {x2 : ℕ} (h : Kept T r s) (hT : Within 514 T) : Kept T r (State.readback s x1 x2) := by
  unfold State.readback
  repeat' first
    | with_reducible apply Kept.ite
    | with_reducible assumption
    | exact Within.of hT rfl
    | with_reducible apply State.set_kept
    | with_reducible apply State.setTdo_kept

theorem State.setPersist_kept {T : Nat} {r s : State} {x1 : ℕ} {x2 : Bool} (h : Kept T r s) (hT : Within 258 T) : Kept T r (State.setPersist s x1 x2) := by
  unfold State.setPersist
  repeat' first
    | with_reducible assumption
    | exact Within.of hT rfl
    | with_reducible apply State.setBinIn_kept
    | with_reducible apply State.set_kept

theorem State.binRestart_kept {T : Nat} {r s : State} {x1 : ℕ} (h : Kept T r s) (hT : Within 258 T) : Kept T r (State.binRestart s x1) := by
  unfold State.binRestart
  repeat' first
    | with_reducible apply Kept.ite
    | with_reducible assumption
    | exact Within.of hT rfl
    | with_reducible apply State.setPersist_kept
    | with_reducible apply State.setBinIn_kept
    | with_reducible apply State.present_kept

theorem execBinaryInputSample_kept {T : Nat} {r s : State} {x0 : BitVec 32} {x1 : BitVec 8} (h : Kept T r s) (hT : Within 770 T := by
    first | exact Within.refl _ | (refine Within.of (b := ?zb) ?zw ?ze; (case zw => assumption); (case ze => decide))) : KeptO T r (execBinaryInputSample x0 x1 s) := by
  unfold execBinaryInputSample
  repeat' first
    | with_reducible apply KeptO.ite
    | with_reducible apply Kept.ite
    | with_reducible assumption
    | exact Within.of hT rfl
    | with_reducible apply KeptO.next
    | with_reducible apply State.binRestart_kept
    | with_reducible apply State.binRun_kept
    | with_reducible apply State.wr_kept
    | with_reducible apply State.readback_kept
    | (fail_if_no_progress with_reducible refine Kept.mk' ?_ rfl rfl)
    | (with_reducible apply Kept.foldl; on_goal 2 => (intro _ _ _; beta_reduce))
    | (with_reducible apply Kept.foldlSnd; on_goal 2 => (intro _ _ _; beta_reduce))
    | split

theorem State.persClear_kept {T : Nat} {r s : State} {x1 : ℕ} (h : Kept T r s) (hT : Within 16777486 T) : Kept T r (State.persClear s x1) := by
  unfold State.persClear
  repeat' first
    | with_reducible apply Kept.ite
    | with_reducible assumption
    | exact Within.of hT rfl
    | with_reducible apply State.logNamed_kept
    | with_reducible apply State.setPersist_kept

theorem execBinConfirm_kept {T : Nat} {r s : State} {x0 : Fin 32} (h : Kept T r s) (hT : Within 17047822 T) : KeptO T r (execBinConfirm x0 s) := by
  unfold execBinConfirm
  repeat' first
    | with_reducible apply KeptO.ite
    | with_reducible apply Kept.ite
    | with_reducible assumption
    | exact Within.of hT rfl
    | with_reducible apply KeptO.next
    | with_reducible apply State.setBinIn_kept
    | with_reducible apply State.pendEvent_kept
    | with_reducible apply State.bump_kept
    | with_reducible apply State.logAt_kept
    | with_reducible apply State.persClear_kept
    | with_reducible apply State.raise_kept
    | with_reducible apply State.present_kept
    | with_reducible apply State.logNamed_kept

theorem execChatterHoldEnd_kept {T : Nat} {r s : State} {x0 : Fin 32} (h : Kept T r s) (hT : Within 16777486 T) : KeptO T r (execChatterHoldEnd x0 s) := by
  unfold execChatterHoldEnd
  repeat' first
    | with_reducible apply KeptO.ite
    | with_reducible apply Kept.ite
    | with_reducible assumption
    | exact Within.of hT rfl
    | with_reducible apply KeptO.next
    | with_reducible apply State.setBinIn_kept
    | with_reducible apply State.present_kept
    | with_reducible apply State.logNamed_kept

theorem execPersistentSet_kept {T : Nat} {r s : State} {x0 : Fin 32} (h : Kept T r s) (hT : Within 16777486 T) : KeptO T r (execPersistentSet x0 s) := by
  unfold execPersistentSet
  repeat' first
    | with_reducible apply KeptO.ite
    | with_reducible apply Kept.ite
    | with_reducible assumption
    | exact Within.of hT rfl
    | with_reducible apply KeptO.next
    | with_reducible apply State.raise_kept
    | with_reducible apply State.setPersist_kept
    | with_reducible apply State.logNamed_kept
    | with_reducible apply State.present_kept

/-! ## Machine/Link.lean -/

theorem State.sendWord_kept {T : Nat} {r s : State} {x1 : ℕ} {x2 : ℕ} {x3 : LinkWord} (h : Kept T r s) (hT : Within 16777216 T) : Kept T r (State.sendWord s x1 x2 x3) := by
  unfold State.sendWord
  repeat' first
    | with_reducible assumption
    | exact Within.of hT rfl
    | with_reducible apply State.emit_kept

theorem State.setPort_kept {T : Nat} {r s : State} {x1 : ℕ} {x2 : Port} (h : Kept T r s) (hT : Within 32 T) : Kept T r (State.setPort s x1 x2) := by
  unfold State.setPort
  repeat' first
    | with_reducible apply Kept.ite
    | with_reducible assumption
    | exact Within.of hT rfl
    | (fail_if_no_progress with_reducible refine Kept.mk' ?_ rfl rfl)

theorem State.sendMsg_kept {T : Nat} {r s : State} {x1 : ℕ} {x2 : ℕ} {x3 : List Byte} (h : Kept T r s) (hT : Within 16777248 T := by
    first | exact Within.refl _ | (refine Within.of (b := ?zb) ?zw ?ze; (case zw => assumption); (case ze => decide))) : Kept T r (State.sendMsg s x1 x2 x3) := by
  unfold State.sendMsg
  repeat' first
    | with_reducible apply Kept.ite
    | with_reducible assumption
    | exact Within.of hT rfl
    | with_reducible apply State.emit_kept
    | with_reducible apply State.setPort_kept
    | (fail_if_no_progress with_reducible refine Kept.mk' ?_ rfl rfl)

theorem State.hjlCounts_kept {T : Nat} {r s : State}  (h : Kept T r s) (hT : Within 2 T) : Kept T r (State.hjlCounts s) := by
  unfold State.hjlCounts
  repeat' first
    | with_reducible assumption
    | exact Within.of hT rfl
    | with_reducible apply State.set_kept

theorem State.noteStations_kept {T : Nat} {r s : State}  (h : Kept T r s) (hT : Within 32 T) : Kept T r (State.noteStations s) := by
  unfold State.noteStations
  repeat' first
    | with_reducible apply Kept.ite
    | with_reducible assumption
    | exact Within.of hT rfl
    | with_reducible apply State.setPort_kept
    | (fail_if_no_progress with_reducible refine Kept.mk' ?_ rfl rfl)
    | (with_reducible apply Kept.foldl; on_goal 2 => (intro _ _ _; beta_reduce))
    | (with_reducible apply Kept.foldlSnd; on_goal 2 => (intro _ _ _; beta_reduce))
    | split

theorem State.setPortState_kept {T : Nat} {r s : State} {x1 : ℕ} {x2 : ℕ} (h : Kept T r s) (hT : Within 34 T) : Kept T r (State.setPortState s x1 x2) := by
  unfold State.setPortState
  repeat' first
    | with_reducible assumption
    | exact Within.of hT rfl
    | with_reducible apply State.noteStations_kept
    | with_reducible apply State.hjlCounts_kept
    | with_reducible apply State.set_kept

theorem State.refuse_kept {T : Nat} {r s : State} {x1 : ℕ} {x2 : ℕ} (h : Kept T r s) (hT : Within 16777258 T) : Kept T r (State.refuse s x1 x2) := by
  unfold State.refuse
  repeat' first
    | with_reducible assumption
    | exact Within.of hT rfl
    | with_reducible apply State.raise_kept
    | with_reducible apply State.set_kept
    | with_reducible apply State.sendMsg_kept

theorem State.tripRegs_kept {T : Nat} {r s : State} {x1 : ℕ} (h : Kept T r s) (hT : Within 2 T) : Kept T r (State.tripRegs s x1) := by
  unfold State.tripRegs
  repeat' first
    | with_reducible apply Kept.ite
    | with_reducible assumption
    | exact Within.of hT rfl
    | with_reducible apply State.set_kept
    | (fail_if_no_progress with_reducible refine Kept.mk' ?_ rfl rfl)
    | split

theorem State.newTrip_kept {T : Nat} {r s : State} {x1 : ℕ} {x2 : ℕ} {x3 : ℕ} (h : Kept T r s) (hT : Within 16777250 T) : Kept T r (State.newTrip s x1 x2 x3) := by
  unfold State.newTrip
  repeat' first
    | with_reducible assumption
    | exact Within.of hT rfl
    | with_reducible apply State.setPort_kept
    | with_reducible apply State.tripRegs_kept
    | with_reducible apply State.sendWord_kept

theorem State.tripLink_kept {T : Nat} {r s : State} {x1 : ℕ} {x2 : ℕ} {x3 : ℕ} (h : Kept T r s) (hT : Within 16777258 T) : Kept T r (State.tripLink s x1 x2 x3) := by
  unfold State.tripLink
  repeat' first
    | with_reducible apply Kept.ite
    | with_reducible assumption
    | exact Within.of hT rfl
    | with_reducible apply State.raise_kept
    | with_reducible apply State.newTrip_kept
    | (fail_if_no_progress with_reducible refine Kept.mk' ?_ rfl rfl)
    | split

theorem State.tripsEnd_kept {T : Nat} {r s : State} {x1 : ℕ} (h : Kept T r s) (hT : Within 32 T := by
    first | exact Within.refl _ | (refine Within.of (b := ?zb) ?zw ?ze; (case zw => assumption); (case ze => decide))) : Kept T r (State.tripsEnd s x1) := by
  unfold State.tripsEnd
  repeat' first
    | with_reducible apply Kept.ite
    | with_reducible assumption
    | exact Within.of hT rfl
    | with_reducible apply State.setPort_kept
    | (fail_if_no_progress with_reducible refine Kept.mk' ?_ rfl rfl)

theorem State.sendRepeats_kept {T : Nat} {r s : State} {x1 : ℕ} (h : Kept T r s) (hT : Within 16777216 T) : Kept T r (State.sendRepeats s x1) := by
  unfold State.sendRepeats
  repeat' first
    | with_reducible apply Kept.ite
    | with_reducible assumption
    | exact Within.of hT rfl
    | with_reducible apply State.sendWord_kept
    | (fail_if_no_progress with_reducible refine Kept.mk' ?_ rfl rfl)
    | (with_reducible apply Kept.foldl; on_goal 2 => (intro _ _ _; beta_reduce))
    | (with_reducible apply Kept.foldlSnd; on_goal 2 => (intro _ _ _; beta_reduce))
    | split

theorem State.sendSafe_kept {T : Nat} {r s : State} {x1 : ℕ} {x2 : ℕ} (h : Kept T r s) (hT : Within 16777248 T) : Kept T r (State.sendSafe s x1 x2) := by
  unfold State.sendSafe
  repeat' first
    | with_reducible assumption
    | exact Within.of hT rfl
    | with_reducible apply State.sendMsg_kept

end Sys2Proof.Machine
end

