-- ==== Sys2Proof/Laws/KeptInj.lean ====
section
/-!
SUPPORT. Laws/KeptInj.lean: what each operation of the interjection unit and what the Hjelig links receive keeps (the relation Kept of Laws/Kept.lean), one lemma
per operation.
-/
set_option linter.unusedTactic false
set_option linter.unreachableTactic false
set_option linter.unusedVariables false
set_option Elab.async false
namespace Sys2Proof.Machine
open Sys2Proof

/-! ## Machine/Inj.lean -/

theorem State.setChan_kept {T : Nat} {r s : State} {x1 : ℕ} {x2 : ChanEl} (h : Kept T r s) (hT : Within 512 T) : Kept T r (State.setChan s x1 x2) := by
  unfold State.setChan
  repeat' first
    | with_reducible apply Kept.ite
    | with_reducible assumption
    | exact Within.of hT rfl
    | (fail_if_no_progress with_reducible refine Kept.mk' ?_ rfl rfl)

theorem State.evalChan_kept {T : Nat} {r s : State} {x1 : ℕ} {x2 : Samp} (h : Kept T r s) (hT : Within 514 T) : Kept T r (State.evalChan s x1 x2) := by
  unfold State.evalChan
  repeat' first
    | with_reducible assumption
    | exact Within.of hT rfl
    | with_reducible apply State.setChan_kept
    | with_reducible apply State.set_kept

theorem catchUp_kept {T : Nat} {r s : State} {x0 : ℕ} {x1 : ℕ} (h : Kept T r s) (hT : Within 514 T) : Kept T r (catchUp x0 x1 s) := by
  induction x0 generalizing s x1 with
  | zero => exact h
  | succ f ih =>
  unfold catchUp
  repeat' first
    | split
    | with_reducible assumption
    | exact Within.of hT rfl
    | with_reducible apply ih
    | with_reducible apply State.evalChan_kept

theorem State.elementsTo_kept {T : Nat} {r s : State} {x1 : ℕ} {x2 : ℕ} (h : Kept T r s) (hT : Within 514 T) : Kept T r (State.elementsTo s x1 x2) := by
  unfold State.elementsTo
  repeat' first
    | with_reducible apply Kept.ite
    | with_reducible assumption
    | exact Within.of hT rfl
    | with_reducible apply catchUp_kept

theorem execStepHoldExpiry_kept {T : Nat} {r s : State} {x0 : Fin 256} (h : Kept T r s) (hT : Within 514 T) : KeptO T r (execStepHoldExpiry x0 s) := by
  unfold execStepHoldExpiry
  repeat' first
    | with_reducible apply KeptO.ite
    | with_reducible apply Kept.ite
    | with_reducible assumption
    | exact Within.of hT rfl
    | with_reducible apply KeptO.next
    | with_reducible apply State.elementsTo_kept

theorem State.setPair_kept {T : Nat} {r s : State} {x1 : ℕ} {x2 : PairSt} (h : Kept T r s) (hT : Within 512 T) : Kept T r (State.setPair s x1 x2) := by
  unfold State.setPair
  repeat' first
    | with_reducible apply Kept.ite
    | with_reducible assumption
    | exact Within.of hT rfl
    | (fail_if_no_progress with_reducible refine Kept.mk' ?_ rfl rfl)

theorem State.evalPair_kept {T : Nat} {r s : State} {x1 : ℕ} (h : Kept T r s) (hT : Within 514 T := by
    first | exact Within.refl _ | (refine Within.of (b := ?zb) ?zw ?ze; (case zw => assumption); (case ze => decide))) : KeptS T r (State.evalPair s x1) := by
  unfold State.evalPair
  repeat' first
    | with_reducible apply KeptS.ite
    | with_reducible apply Kept.ite
    | with_reducible assumption
    | exact Within.of hT rfl
    | with_reducible apply KeptS.some
    | with_reducible apply KeptS.none
    | with_reducible apply State.setPair_kept
    | with_reducible apply State.set_kept
theorem State.evalPair_some {T : Nat} {r s : State} {t : State} {x1 : ℕ} (h : Kept T r s) (e : (State.evalPair s x1) = some t) (hT : Within 514 T) : Kept T r t := State.evalPair_kept h (hT := hT) _ e

theorem catchUpPair_kept {T : Nat} {r s : State} {x0 : ℕ} {x1 : ℕ} (h : Kept T r s) (hT : Within 514 T) : Kept T r (catchUpPair x0 x1 s) := by
  induction x0 generalizing s x1 with
  | zero => exact h
  | succ f ih =>
  unfold catchUpPair
  repeat' first
    | split
    | with_reducible assumption
    | exact Within.of hT rfl
    | with_reducible apply ih
    | (with_reducible apply State.evalPair_some; on_goal 2 => assumption)
    | with_reducible apply State.evalPair_kept

theorem State.pairTo_kept {T : Nat} {r s : State} {x1 : ℕ} {x2 : ℕ} (h : Kept T r s) (hT : Within 514 T) : Kept T r (State.pairTo s x1 x2) := by
  unfold State.pairTo
  repeat' first
    | with_reducible apply Kept.ite
    | with_reducible assumption
    | exact Within.of hT rfl
    | with_reducible apply catchUpPair_kept

theorem execDirectionalEvaluate_kept {T : Nat} {r s : State} {x0 : Fin 64} (h : Kept T r s) (hT : Within 514 T) : KeptO T r (execDirectionalEvaluate x0 s) := by
  unfold execDirectionalEvaluate
  repeat' first
    | with_reducible assumption
    | exact Within.of hT rfl
    | with_reducible apply KeptO.next
    | with_reducible apply State.pairTo_kept

theorem execDirectionalHoldExpiry_kept {T : Nat} {r s : State} {x0 : Fin 64} (h : Kept T r s) (hT : Within 514 T) : KeptO T r (execDirectionalHoldExpiry x0 s) := by
  unfold execDirectionalHoldExpiry
  repeat' first
    | with_reducible apply KeptO.ite
    | with_reducible apply Kept.ite
    | with_reducible assumption
    | exact Within.of hT rfl
    | with_reducible apply KeptO.next
    | with_reducible apply State.pairTo_kept

theorem State.setGates_kept {T : Nat} {r s : State} {x1 : ℕ} {x2 : ℕ} (h : Kept T r s) (hT : Within 514 T) : Kept T r (State.setGates s x1 x2) := by
  unfold State.setGates
  repeat' first
    | with_reducible apply Kept.ite
    | with_reducible assumption
    | exact Within.of hT rfl
    | with_reducible apply State.set64_kept
    | (fail_if_no_progress with_reducible refine Kept.mk' ?_ rfl rfl)

theorem State.gatesInit_kept {T : Nat} {r s : State}  (h : Kept T r s) (hT : Within 514 T) : Kept T r (State.gatesInit s) := by
  unfold State.gatesInit
  repeat' first
    | with_reducible assumption
    | exact Within.of hT rfl
    | with_reducible apply State.setGates_kept

theorem State.gatesStem_kept {T : Nat} {r s : State} {x1 : ℕ} (h : Kept T r s) (hT : Within 514 T := by
    first | exact Within.refl _ | (refine Within.of (b := ?zb) ?zw ?ze; (case zw => assumption); (case ze => decide))) : Kept T r (State.gatesStem s x1) := by
  unfold State.gatesStem
  repeat' first
    | with_reducible assumption
    | exact Within.of hT rfl
    | with_reducible apply State.setGates_kept

theorem State.setRule_kept {T : Nat} {r s : State} {x1 : ℕ} {x2 : RuleSt} (h : Kept T r s) (hT : Within 512 T) : Kept T r (State.setRule s x1 x2) := by
  unfold State.setRule
  repeat' first
    | with_reducible apply Kept.ite
    | with_reducible assumption
    | exact Within.of hT rfl
    | (fail_if_no_progress with_reducible refine Kept.mk' ?_ rfl rfl)

theorem State.sourceTo_kept {T : Nat} {r s : State} {x1 : Term} {x2 : ℕ} (h : Kept T r s) (hT : Within 514 T) : Kept T r (State.sourceTo s x1 x2) := by
  unfold State.sourceTo
  repeat' first
    | with_reducible apply Kept.ite
    | with_reducible assumption
    | exact Within.of hT rfl
    | with_reducible apply State.elementsTo_kept
    | with_reducible apply State.pairTo_kept

theorem State.noteTdo_kept {T : Nat} {r s : State} {x1 : ℕ} {x2 : ℕ} {x3 : Bool} (h : Kept T r s) (hT : Within 512 T := by
    first | exact Within.refl _ | (refine Within.of (b := ?zb) ?zw ?ze; (case zw => assumption); (case ze => decide))) : Kept T r (State.noteTdo s x1 x2 x3) := by
  unfold State.noteTdo
  repeat' first
    | with_reducible apply Kept.ite
    | with_reducible assumption
    | exact Within.of hT rfl
    | (fail_if_no_progress with_reducible refine Kept.mk' ?_ rfl rfl)

theorem State.noteDecision_kept {T : Nat} {r s : State} {x1 : Bool} {x2 : ℕ} {x3 : ℕ} (h : Kept T r s) (hT : Within 512 T) : Kept T r (State.noteDecision s x1 x2 x3) := by
  unfold State.noteDecision
  repeat' first
    | with_reducible apply Kept.ite
    | with_reducible assumption
    | exact Within.of hT rfl
    | (fail_if_no_progress with_reducible refine Kept.mk' ?_ rfl rfl)

theorem State.driveTdo_kept {T : Nat} {r s : State} {x1 : ℕ} {x2 : ℕ} {x3 : ℕ} (h : Kept T r s) (hT : Within 514 T := by
    first | exact Within.refl _ | (refine Within.of (b := ?zb) ?zw ?ze; (case zw => assumption); (case ze => decide))) : Kept T r (State.driveTdo s x1 x2 x3) := by
  unfold State.driveTdo
  repeat' first
    | with_reducible apply Kept.ite
    | with_reducible assumption
    | exact Within.of hT rfl
    | with_reducible apply State.setTdo_kept
    | with_reducible apply State.noteTdo_kept
    | with_reducible apply State.set_kept
    | (fail_if_no_progress with_reducible refine Kept.mk' ?_ rfl rfl)

theorem State.interject_kept {T : Nat} {r s : State} {x1 : ℕ} {x2 : ℕ} {x3 : Bool} (h : Kept T r s) (hT : Within 270850 T) : Kept T r (State.interject s x1 x2 x3) := by
  unfold State.interject
  repeat' first
    | with_reducible apply Kept.ite
    | with_reducible assumption
    | exact Within.of hT rfl
    | with_reducible apply State.pendEvent_kept
    | (fail_if_no_progress with_reducible refine Kept.mk' ?_ rfl rfl)

theorem State.showDecision_kept {T : Nat} {r s : State} {x1 : ℕ} {x2 : ℕ} {x3 : ℕ} {x4 : ℕ} {x5 : Bool} (h : Kept T r s) (hT : Within 16777738 T := by
    first | exact Within.refl _ | (refine Within.of (b := ?zb) ?zw ?ze; (case zw => assumption); (case ze => decide))) : Kept T r (State.showDecision s x1 x2 x3 x4 x5) := by
  unfold State.showDecision
  repeat' first
    | with_reducible apply Kept.ite
    | with_reducible assumption
    | exact Within.of hT rfl
    | with_reducible apply State.bump_kept
    | with_reducible apply State.set_kept
    | with_reducible apply State.raise_kept
    | with_reducible apply State.set64_kept
    | (fail_if_no_progress with_reducible refine Kept.mk' ?_ rfl rfl)

theorem State.makeDecision_kept {T : Nat} {r s : State} {x1 : ℕ} {x2 : ℕ} {x3 : Bool} (h : Kept T r s) (hT : Within 17048110 T := by
    first | exact Within.refl _ | (refine Within.of (b := ?zb) ?zw ?ze; (case zw => assumption); (case ze => decide))) : Kept T r (State.makeDecision s x1 x2 x3) := by
  unfold State.makeDecision
  repeat' first
    | with_reducible apply Kept.ite
    | with_reducible assumption
    | exact Within.of hT rfl
    | with_reducible apply State.tripLink_kept
    | with_reducible apply State.driveTdo_kept
    | with_reducible apply State.interject_kept
    | with_reducible apply State.noteDecision_kept
    | with_reducible apply State.showDecision_kept
    | with_reducible apply State.logFull_kept
    | (fail_if_no_progress with_reducible refine Kept.mk' ?_ rfl rfl)
    | (with_reducible apply Kept.foldl; on_goal 2 => (intro _ _ _; beta_reduce))
    | (with_reducible apply Kept.foldlSnd; on_goal 2 => (intro _ _ _; beta_reduce))
    | split

theorem State.setGroup_kept {T : Nat} {r s : State} {x1 : ℕ} {x2 : GroupSt} (h : Kept T r s) (hT : Within 512 T) : Kept T r (State.setGroup s x1 x2) := by
  unfold State.setGroup
  repeat' first
    | with_reducible apply Kept.ite
    | with_reducible assumption
    | exact Within.of hT rfl
    | (fail_if_no_progress with_reducible refine Kept.mk' ?_ rfl rfl)

theorem State.sendVote_kept {T : Nat} {r s : State} {x1 : ℕ} {x2 : ℕ} {x3 : ℕ} (h : Kept T r s) (hT : Within 16777730 T) : Kept T r (State.sendVote s x1 x2 x3) := by
  unfold State.sendVote
  repeat' first
    | with_reducible apply Kept.ite
    | with_reducible assumption
    | exact Within.of hT rfl
    | with_reducible apply State.set_kept
    | with_reducible apply State.setGroup_kept
    | with_reducible apply State.sendWord_kept
    | (fail_if_no_progress with_reducible refine Kept.mk' ?_ rfl rfl)
    | (with_reducible apply Kept.foldl; on_goal 2 => (intro _ _ _; beta_reduce))
    | (with_reducible apply Kept.foldlSnd; on_goal 2 => (intro _ _ _; beta_reduce))
    | split

theorem State.groupReset_kept {T : Nat} {r s : State} {x1 : ℕ} (h : Kept T r s) (hT : Within 16777730 T := by
    first | exact Within.refl _ | (refine Within.of (b := ?zb) ?zw ?ze; (case zw => assumption); (case ze => decide))) : Kept T r (State.groupReset s x1) := by
  unfold State.groupReset
  repeat' first
    | with_reducible apply Kept.ite
    | with_reducible assumption
    | exact Within.of hT rfl
    | with_reducible apply State.set_kept
    | with_reducible apply State.sendVote_kept
    | with_reducible apply State.setGroup_kept
    | (fail_if_no_progress with_reducible refine Kept.mk' ?_ rfl rfl)

theorem State.groupRelease_kept {T : Nat} {r s : State} {x1 : ℕ} (h : Kept T r s) (hT : Within 16777730 T := by
    first | exact Within.refl _ | (refine Within.of (b := ?zb) ?zw ?ze; (case zw => assumption); (case ze => decide))) : Kept T r (State.groupRelease s x1) := by
  unfold State.groupRelease
  repeat' first
    | with_reducible apply Kept.ite
    | with_reducible assumption
    | exact Within.of hT rfl
    | with_reducible apply State.groupReset_kept
    | (fail_if_no_progress with_reducible refine Kept.mk' ?_ rfl rfl)

theorem State.dropPickup_kept {T : Nat} {r s : State} {x1 : ℕ} {x2 : Pickup} (h : Kept T r s) (hT : Within 514 T := by
    first | exact Within.refl _ | (refine Within.of (b := ?zb) ?zw ?ze; (case zw => assumption); (case ze => decide))) : Kept T r (State.dropPickup s x1 x2) := by
  unfold State.dropPickup
  repeat' first
    | with_reducible apply Kept.ite
    | with_reducible assumption
    | exact Within.of hT rfl
    | with_reducible apply State.setGroup_kept
    | with_reducible apply State.set_kept
    | (fail_if_no_progress with_reducible refine Kept.mk' ?_ rfl rfl)

theorem State.pickupTry_kept {T : Nat} {r s : State} {x1 : ℕ} {x2 : Pickup} (h : Kept T r s) (hT : Within 17048110 T := by
    first | exact Within.refl _ | (refine Within.of (b := ?zb) ?zw ?ze; (case zw => assumption); (case ze => decide))) : Kept T r (State.pickupTry s x1 x2) := by
  unfold State.pickupTry
  repeat' first
    | with_reducible apply Kept.ite
    | with_reducible assumption
    | exact Within.of hT rfl
    | with_reducible apply State.set_kept
    | with_reducible apply State.groupReset_kept
    | with_reducible apply State.sendVote_kept
    | with_reducible apply State.noteDecision_kept
    | with_reducible apply State.makeDecision_kept
    | with_reducible apply State.dropPickup_kept
    | (fail_if_no_progress with_reducible refine Kept.mk' ?_ rfl rfl)

theorem State.groupTry_kept {T : Nat} {r s : State} {x1 : ℕ} (h : Kept T r s) (hT : Within 17048110 T := by
    first | exact Within.refl _ | (refine Within.of (b := ?zb) ?zw ?ze; (case zw => assumption); (case ze => decide))) : Kept T r (State.groupTry s x1) := by
  unfold State.groupTry
  repeat' first
    | with_reducible apply Kept.ite
    | with_reducible assumption
    | exact Within.of hT rfl
    | with_reducible apply State.pickupTry_kept
    | (fail_if_no_progress with_reducible refine Kept.mk' ?_ rfl rfl)
    | (with_reducible apply Kept.foldl; on_goal 2 => (intro _ _ _; beta_reduce))
    | (with_reducible apply Kept.foldlSnd; on_goal 2 => (intro _ _ _; beta_reduce))
    | split

theorem State.pickUp_kept {T : Nat} {r s : State} {x1 : ℕ} {x2 : ℕ} {x3 : ℕ} {x4 : Bool} (h : Kept T r s) (hT : Within 17048110 T := by
    first | exact Within.refl _ | (refine Within.of (b := ?zb) ?zw ?ze; (case zw => assumption); (case ze => decide))) : Kept T r (State.pickUp s x1 x2 x3 x4) := by
  unfold State.pickUp
  repeat' first
    | with_reducible apply Kept.ite
    | with_reducible assumption
    | exact Within.of hT rfl
    | with_reducible apply State.setGroup_kept
    | with_reducible apply State.raise_kept
    | with_reducible apply State.groupTry_kept
    | with_reducible apply State.sendVote_kept
    | with_reducible apply State.set_kept
    | (fail_if_no_progress with_reducible refine Kept.mk' ?_ rfl rfl)

theorem State.conjUpdate_kept {T : Nat} {r s : State} {x1 : ℕ} (h : Kept T r s) (hT : Within 17048110 T := by
    first | exact Within.refl _ | (refine Within.of (b := ?zb) ?zw ?ze; (case zw => assumption); (case ze => decide))) : Kept T r (State.conjUpdate s x1) := by
  unfold State.conjUpdate
  repeat' first
    | with_reducible apply Kept.ite
    | with_reducible assumption
    | exact Within.of hT rfl
    | with_reducible apply State.set_kept
    | with_reducible apply State.setGroup_kept
    | with_reducible apply State.groupTry_kept
    | with_reducible apply State.logNamed_kept
    | with_reducible apply State.raise_kept
    | (fail_if_no_progress with_reducible refine Kept.mk' ?_ rfl rfl)

theorem State.conjUpdateAll_kept {T : Nat} {r s : State}  (h : Kept T r s) (hT : Within 17048110 T) : Kept T r (State.conjUpdateAll s) := by
  unfold State.conjUpdateAll
  repeat' first
    | with_reducible apply Kept.ite
    | with_reducible assumption
    | exact Within.of hT rfl
    | with_reducible apply State.conjUpdate_kept
    | (fail_if_no_progress with_reducible refine Kept.mk' ?_ rfl rfl)
    | (with_reducible apply Kept.foldl; on_goal 2 => (intro _ _ _; beta_reduce))
    | (with_reducible apply Kept.foldlSnd; on_goal 2 => (intro _ _ _; beta_reduce))
    | split

theorem State.fire_kept {T : Nat} {r s : State} {x1 : ℕ} {x2 : ℕ} {x3 : Bool} (h : Kept T r s) (hT : Within 17048110 T := by
    first | exact Within.refl _ | (refine Within.of (b := ?zb) ?zw ?ze; (case zw => assumption); (case ze => decide))) : Kept T r (State.fire s x1 x2 x3) := by
  unfold State.fire
  repeat' first
    | with_reducible apply Kept.ite
    | with_reducible assumption
    | exact Within.of hT rfl
    | with_reducible apply State.pickUp_kept
    | with_reducible apply State.makeDecision_kept
    | (fail_if_no_progress with_reducible refine Kept.mk' ?_ rfl rfl)

theorem State.sourcesTo_kept {T : Nat} {r s : State} {x1 : ℕ} {x2 : ℕ} (h : Kept T r s) (hT : Within 514 T) : Kept T r (State.sourcesTo s x1 x2) := by
  unfold State.sourcesTo
  repeat' first
    | with_reducible apply Kept.ite
    | with_reducible assumption
    | exact Within.of hT rfl
    | with_reducible apply State.sourceTo_kept
    | (fail_if_no_progress with_reducible refine Kept.mk' ?_ rfl rfl)
    | (with_reducible apply Kept.foldl; on_goal 2 => (intro _ _ _; beta_reduce))
    | (with_reducible apply Kept.foldlSnd; on_goal 2 => (intro _ _ _; beta_reduce))
    | split

theorem State.ruleStat_kept {T : Nat} {r s : State} {x1 : ℕ} {x2 : RuleSt} {x3 : ℕ} {x4 : Bool} (h : Kept T r s) (hT : Within 514 T) : Kept T r (State.ruleStat s x1 x2 x3 x4) := by
  unfold State.ruleStat
  repeat' first
    | with_reducible assumption
    | exact Within.of hT rfl
    | with_reducible apply State.setRule_kept
    | with_reducible apply State.set_kept

theorem State.evalRule_kept {T : Nat} {r s : State} {x1 : ℕ} (h : Kept T r s) (hT : Within 17048110 T := by
    first | exact Within.refl _ | (refine Within.of (b := ?zb) ?zw ?ze; (case zw => assumption); (case ze => decide))) : Kept T r (State.evalRule s x1) := by
  unfold State.evalRule
  repeat' first
    | with_reducible apply Kept.ite
    | with_reducible assumption
    | exact Within.of hT rfl
    | with_reducible apply State.ruleStat_kept
    | with_reducible apply State.fire_kept
    | with_reducible apply State.groupRelease_kept
    | (fail_if_no_progress with_reducible refine Kept.mk' ?_ rfl rfl)

theorem State.ruleReady_kept {T : Nat} {r s : State} {x1 : ℕ} (h : Kept T r s) (hT : Within 514 T) : Kept T r (State.ruleReady s x1).2 := by
  unfold State.ruleReady
  repeat' first
    | with_reducible assumption
    | exact Within.of hT rfl
    | with_reducible apply State.sourcesTo_kept

theorem execRuleEvaluate_kept {T : Nat} {r s : State} {x0 : Fin 128} (h : Kept T r s) (hT : Within 17048110 T) : KeptO T r (execRuleEvaluate x0 s) := by
  unfold execRuleEvaluate
  repeat' first
    | with_reducible apply KeptO.ite
    | with_reducible apply Kept.ite
    | with_reducible assumption
    | exact Within.of hT rfl
    | with_reducible apply KeptO.next
    | with_reducible apply State.ruleReady_kept
    | with_reducible apply State.evalRule_kept

theorem execRuleRearm_kept {T : Nat} {r s : State} {x0 : Fin 128} (h : Kept T r s) (hT : Within 17048110 T) : KeptO T r (execRuleRearm x0 s) := by
  unfold execRuleRearm
  repeat' first
    | with_reducible apply KeptO.ite
    | with_reducible apply Kept.ite
    | with_reducible assumption
    | exact Within.of hT rfl
    | with_reducible apply KeptO.next
    | with_reducible apply State.ruleReady_kept
    | with_reducible apply State.evalRule_kept

theorem execVoteReceived_kept {T : Nat} {r s : State} {x0 : Fin 4} {x1 : BitVec 6} {x2 : BitVec 2} {x3 : BitVec 16} {x4 : BitVec 3} (h : Kept T r s) (hT : Within 17048110 T) : KeptO T r (execVoteReceived x0 x1 x2 x3 x4 s) := by
  unfold execVoteReceived
  repeat' first
    | with_reducible apply KeptO.ite
    | with_reducible apply Kept.ite
    | with_reducible assumption
    | exact Within.of hT rfl
    | with_reducible apply KeptO.next
    | with_reducible apply State.setGroup_kept
    | with_reducible apply State.groupTry_kept
    | with_reducible apply State.raise_kept
    | (fail_if_no_progress with_reducible refine Kept.mk' ?_ rfl rfl)
    | (extract_lets +onlyGivenNames x; first | (with_reducible apply Kept.cut (T := T) (r := r) (x := x); on_goal 2 => (intro hx; clear_value x)) | clear_value x)
    | split

theorem execPickupExpired_kept {T : Nat} {r s : State} {x0 : Fin 16} (h : Kept T r s) (hT : Within 16777730 T := by
    first | exact Within.refl _ | (refine Within.of (b := ?zb) ?zw ?ze; (case zw => assumption); (case ze => decide))) : KeptO T r (execPickupExpired x0 s) := by
  unfold execPickupExpired
  repeat' first
    | with_reducible apply KeptO.ite
    | with_reducible apply Kept.ite
    | with_reducible assumption
    | exact Within.of hT rfl
    | with_reducible apply KeptO.next
    | with_reducible apply State.groupReset_kept
    | with_reducible apply State.dropPickup_kept
    | (fail_if_no_progress with_reducible refine Kept.mk' ?_ rfl rfl)
    | (with_reducible apply Kept.foldl; on_goal 2 => (intro _ _ _; beta_reduce))
    | (with_reducible apply Kept.foldlSnd; on_goal 2 => (intro _ _ _; beta_reduce))
    | split

theorem State.tdoOff_kept {T : Nat} {r s : State} {x1 : ℕ} {x2 : ℕ} (h : Kept T r s) (hT : Within 514 T := by
    first | exact Within.refl _ | (refine Within.of (b := ?zb) ?zw ?ze; (case zw => assumption); (case ze => decide))) : Kept T r (State.tdoOff s x1 x2) := by
  unfold State.tdoOff
  repeat' first
    | with_reducible apply Kept.ite
    | with_reducible assumption
    | exact Within.of hT rfl
    | with_reducible apply State.noteTdo_kept
    | with_reducible apply State.setTdo_kept
    | with_reducible apply State.set_kept
    | (fail_if_no_progress with_reducible refine Kept.mk' ?_ rfl rfl)

theorem execTdoRelease_kept {T : Nat} {r s : State} {x0 : Fin 8} (h : Kept T r s) (hT : Within 514 T := by
    first | exact Within.refl _ | (refine Within.of (b := ?zb) ?zw ?ze; (case zw => assumption); (case ze => decide))) : KeptO T r (execTdoRelease x0 s) := by
  unfold execTdoRelease
  repeat' first
    | with_reducible apply KeptO.ite
    | with_reducible apply Kept.ite
    | with_reducible assumption
    | exact Within.of hT rfl
    | with_reducible apply KeptO.next
    | with_reducible apply State.set_kept
    | with_reducible apply State.tdoOff_kept
    | (fail_if_no_progress with_reducible refine Kept.mk' ?_ rfl rfl)
    | split

theorem State.tdoReset_kept {T : Nat} {r s : State} {x1 : ℕ} (h : Kept T r s) (hT : Within 514 T := by
    first | exact Within.refl _ | (refine Within.of (b := ?zb) ?zw ?ze; (case zw => assumption); (case ze => decide))) : Kept T r (State.tdoReset s x1) := by
  unfold State.tdoReset
  repeat' first
    | with_reducible apply Kept.ite
    | with_reducible assumption
    | exact Within.of hT rfl
    | with_reducible apply State.setTdo_kept
    | with_reducible apply State.tdoOff_kept
    | (fail_if_no_progress with_reducible refine Kept.mk' ?_ rfl rfl)

theorem execInjTdoRst_kept {T : Nat} {r s : State} {x0 : Fin 2} {x1 : Word} (h : Kept T r s) (hT : Within 16777758 T) : KeptO T r (execInjTdoRst x0 x1 s) := by
  unfold execInjTdoRst
  repeat' first
    | with_reducible apply KeptO.ite
    | with_reducible apply Kept.ite
    | with_reducible assumption
    | exact Within.of hT rfl
    | with_reducible apply KeptO.next
    | (with_reducible apply whenAllowed_kept; on_goal 2 => (intro _ _; beta_reduce))
    | with_reducible apply State.gate_kept
    | with_reducible apply State.tdoReset_kept
    | with_reducible apply State.deny_kept
    | (fail_if_no_progress with_reducible refine Kept.mk' ?_ rfl rfl)
    | (with_reducible apply Kept.foldl; on_goal 2 => (intro _ _ _; beta_reduce))
    | (with_reducible apply Kept.foldlSnd; on_goal 2 => (intro _ _ _; beta_reduce))
    | split

theorem execTdoFail_kept {T : Nat} {r s : State} {x0 : Fin 8} (h : Kept T r s) (hT : Within 16777230 T) : KeptO T r (execTdoFail x0 s) := by
  unfold execTdoFail
  repeat' first
    | with_reducible apply KeptO.ite
    | with_reducible apply Kept.ite
    | with_reducible assumption
    | exact Within.of hT rfl
    | with_reducible apply KeptO.next
    | with_reducible apply State.logNamedSev_kept
    | with_reducible apply State.raise_kept
    | with_reducible apply State.set_kept

theorem execTdoFailClear_kept {T : Nat} {r s : State} {x0 : Fin 8} (h : Kept T r s) (hT : Within 2 T) : KeptO T r (execTdoFailClear x0 s) := by
  unfold execTdoFailClear
  repeat' first
    | with_reducible apply KeptO.ite
    | with_reducible apply Kept.ite
    | with_reducible assumption
    | exact Within.of hT rfl
    | with_reducible apply KeptO.next
    | with_reducible apply State.set_kept

theorem State.scapLine_kept {T : Nat} {r s : State} {x1 : ℕ} (h : Kept T r s) (hT : Within 512 T) : Kept T r (State.scapLine s x1) := by
  unfold State.scapLine
  repeat' first
    | with_reducible apply Kept.ite
    | with_reducible assumption
    | exact Within.of hT rfl
    | (fail_if_no_progress with_reducible refine Kept.mk' ?_ rfl rfl)
    | (with_reducible apply Kept.foldl; on_goal 2 => (intro _ _ _; beta_reduce))
    | (with_reducible apply Kept.foldlSnd; on_goal 2 => (intro _ _ _; beta_reduce))
    | split

theorem State.scapStep_kept {T : Nat} {r s : State}  (h : Kept T r s) (hT : Within 512 T) : Kept T r (State.scapStep s) := by
  unfold State.scapStep
  repeat' first
    | with_reducible apply Kept.ite
    | with_reducible assumption
    | exact Within.of hT rfl
    | with_reducible apply State.scapLine_kept
    | (fail_if_no_progress with_reducible refine Kept.mk' ?_ rfl rfl)

theorem execScapFrozen_kept {T : Nat} {r s : State}  (h : Kept T r s) (hT : Within 16777226 T) : KeptO T r (execScapFrozen s) := by
  unfold execScapFrozen
  repeat' first
    | with_reducible apply KeptO.ite
    | with_reducible apply Kept.ite
    | with_reducible assumption
    | exact Within.of hT rfl
    | with_reducible apply KeptO.next
    | with_reducible apply State.raise_kept
    | with_reducible apply State.set64_kept
    | with_reducible apply State.set_kept

theorem State.scapRearm_kept {T : Nat} {r s : State}  (h : Kept T r s) (hT : Within 514 T) : Kept T r (State.scapRearm s) := by
  unfold State.scapRearm
  repeat' first
    | with_reducible apply Kept.ite
    | with_reducible assumption
    | exact Within.of hT rfl
    | with_reducible apply State.set_kept
    | (fail_if_no_progress with_reducible refine Kept.mk' ?_ rfl rfl)

theorem execScapRearm_kept {T : Nat} {r s : State} {x0 : Fin 2} {x1 : Word} (h : Kept T r s) (hT : Within 16777758 T) : KeptO T r (execScapRearm x0 x1 s) := by
  unfold execScapRearm
  repeat' first
    | with_reducible apply KeptO.ite
    | with_reducible apply Kept.ite
    | with_reducible assumption
    | exact Within.of hT rfl
    | with_reducible apply KeptO.next
    | (with_reducible apply whenAllowed_kept; on_goal 2 => (intro _ _; beta_reduce))
    | with_reducible apply State.gate_kept
    | with_reducible apply State.scapRearm_kept

theorem State.restartRule_kept {T : Nat} {r s : State} {x1 : ℕ} {x2 : Bool} (h : Kept T r s) (hT : Within 514 T) : Kept T r (State.restartRule s x1 x2) := by
  unfold State.restartRule
  repeat' first
    | with_reducible assumption
    | exact Within.of hT rfl
    | with_reducible apply State.setRule_kept
    | with_reducible apply State.set_kept

theorem State.restartChan_kept {T : Nat} {r s : State} {x1 : ℕ} (h : Kept T r s) (hT : Within 514 T) : Kept T r (State.restartChan s x1) := by
  unfold State.restartChan
  repeat' first
    | with_reducible assumption
    | exact Within.of hT rfl
    | with_reducible apply State.wr_kept
    | with_reducible apply State.setChan_kept

theorem State.restartPair_kept {T : Nat} {r s : State} {x1 : ℕ} (h : Kept T r s) (hT : Within 514 T) : Kept T r (State.restartPair s x1) := by
  unfold State.restartPair
  repeat' first
    | with_reducible assumption
    | exact Within.of hT rfl
    | with_reducible apply State.set_kept
    | with_reducible apply State.setPair_kept

theorem State.restartGroup_kept {T : Nat} {r s : State} {x1 : ℕ} (h : Kept T r s) (hT : Within 514 T := by
    first | exact Within.refl _ | (refine Within.of (b := ?zb) ?zw ?ze; (case zw => assumption); (case ze => decide))) : Kept T r (State.restartGroup s x1) := by
  unfold State.restartGroup
  repeat' first
    | with_reducible apply Kept.ite
    | with_reducible assumption
    | exact Within.of hT rfl
    | with_reducible apply State.dropPickup_kept
    | with_reducible apply State.setGroup_kept
    | with_reducible apply State.set_kept
    | (fail_if_no_progress with_reducible refine Kept.mk' ?_ rfl rfl)
    | (with_reducible apply Kept.foldl; on_goal 2 => (intro _ _ _; beta_reduce))
    | (with_reducible apply Kept.foldlSnd; on_goal 2 => (intro _ _ _; beta_reduce))
    | split

theorem State.armFastPath_kept {T : Nat} {r s : State}  (h : Kept T r s) (hT : Within 514 T) : Kept T r (State.armFastPath s) := by
  unfold State.armFastPath
  repeat' first
    | with_reducible apply Kept.ite
    | with_reducible assumption
    | exact Within.of hT rfl
    | with_reducible apply State.restartChan_kept
    | with_reducible apply State.restartPair_kept
    | with_reducible apply State.restartGroup_kept
    | with_reducible apply State.restartRule_kept
    | with_reducible apply State.set_kept
    | (fail_if_no_progress with_reducible refine Kept.mk' ?_ rfl rfl)
    | (with_reducible apply Kept.foldl; on_goal 2 => (intro _ _ _; beta_reduce))
    | (with_reducible apply Kept.foldlSnd; on_goal 2 => (intro _ _ _; beta_reduce))
    | split

theorem State.stopFastPath_kept {T : Nat} {r s : State}  (h : Kept T r s) (hT : Within 514 T := by
    first | exact Within.refl _ | (refine Within.of (b := ?zb) ?zw ?ze; (case zw => assumption); (case ze => decide))) : Kept T r (State.stopFastPath s) := by
  unfold State.stopFastPath
  repeat' first
    | with_reducible apply Kept.ite
    | with_reducible assumption
    | exact Within.of hT rfl
    | with_reducible apply State.tdoOff_kept
    | with_reducible apply State.set_kept
    | (fail_if_no_progress with_reducible refine Kept.mk' ?_ rfl rfl)
    | (with_reducible apply Kept.foldl; on_goal 2 => (intro _ _ _; beta_reduce))
    | (with_reducible apply Kept.foldlSnd; on_goal 2 => (intro _ _ _; beta_reduce))
    | split

/-! ## Machine/Hjl.lean -/

theorem State.setFeed_kept {T : Nat} {r s : State} {x1 : ℕ} {x2 : ℕ} {x3 : Option ℕ} (h : Kept T r s) (hT : Within 32 T := by
    first | exact Within.refl _ | (refine Within.of (b := ?zb) ?zw ?ze; (case zw => assumption); (case ze => decide))) : Kept T r (State.setFeed s x1 x2 x3) := by
  unfold State.setFeed
  repeat' first
    | with_reducible apply Kept.ite
    | with_reducible assumption
    | exact Within.of hT rfl
    | with_reducible apply State.setPort_kept
    | (fail_if_no_progress with_reducible refine Kept.mk' ?_ rfl rfl)

theorem State.missSamp_kept {T : Nat} {r s : State} {x1 : ℕ} {x2 : ℕ} {x3 : ℕ} (h : Kept T r s) (hT : Within 642 T := by
    first | exact Within.refl _ | (refine Within.of (b := ?zb) ?zw ?ze; (case zw => assumption); (case ze => decide))) : Kept T r (State.missSamp s x1 x2 x3) := by
  unfold State.missSamp
  repeat' first
    | with_reducible apply Kept.ite
    | with_reducible assumption
    | exact Within.of hT rfl
    | with_reducible apply State.fileSamp_kept
    | with_reducible apply State.elementsTo_kept
    | with_reducible apply State.countMiss_kept
    | (fail_if_no_progress with_reducible refine Kept.mk' ?_ rfl rfl)

theorem State.markMissing_kept {T : Nat} {r s : State} {x1 : ℕ} {x2 : ℕ} {x3 : ℕ} (h : Kept T r s) (hT : Within 642 T := by
    first | exact Within.refl _ | (refine Within.of (b := ?zb) ?zw ?ze; (case zw => assumption); (case ze => decide))) : Kept T r (State.markMissing s x1 x2 x3) := by
  unfold State.markMissing
  repeat' first
    | with_reducible apply Kept.ite
    | with_reducible assumption
    | exact Within.of hT rfl
    | with_reducible apply State.missSamp_kept
    | (fail_if_no_progress with_reducible refine Kept.mk' ?_ rfl rfl)
    | split

theorem State.markFrame_kept {T : Nat} {r s : State} {x1 : ℕ} {x2 : ℕ} (h : Kept T r s) (hT : Within 642 T) : Kept T r (State.markFrame s x1 x2) := by
  unfold State.markFrame
  repeat' first
    | with_reducible apply Kept.ite
    | with_reducible assumption
    | exact Within.of hT rfl
    | with_reducible apply State.markMissing_kept
    | (fail_if_no_progress with_reducible refine Kept.mk' ?_ rfl rfl)
    | (with_reducible apply Kept.foldl; on_goal 2 => (intro _ _ _; beta_reduce))
    | (with_reducible apply Kept.foldlSnd; on_goal 2 => (intro _ _ _; beta_reduce))
    | split

theorem State.unfile_kept {T : Nat} {r s : State} {x1 : ℕ} {x2 : ℕ} (h : Kept T r s) (hT : Within 128 T := by
    first | exact Within.refl _ | (refine Within.of (b := ?zb) ?zw ?ze; (case zw => assumption); (case ze => decide))) : Kept T r (State.unfile s x1 x2) := by
  unfold State.unfile
  repeat' first
    | with_reducible apply Kept.ite
    | with_reducible assumption
    | exact Within.of hT rfl
    | with_reducible apply State.fileSamp_kept
    | (fail_if_no_progress with_reducible refine Kept.mk' ?_ rfl rfl)
    | (with_reducible apply Kept.foldl; on_goal 2 => (intro _ _ _; beta_reduce))
    | (with_reducible apply Kept.foldlSnd; on_goal 2 => (intro _ _ _; beta_reduce))
    | split

theorem State.dropPort_kept {T : Nat} {r s : State} {x1 : ℕ} {x2 : ℕ} (h : Kept T r s) (hT : Within 16777354 T := by
    first | exact Within.refl _ | (refine Within.of (b := ?zb) ?zw ?ze; (case zw => assumption); (case ze => decide))) : Kept T r (State.dropPort s x1 x2) := by
  unfold State.dropPort
  repeat' first
    | with_reducible apply Kept.ite
    | with_reducible assumption
    | exact Within.of hT rfl
    | with_reducible apply State.countMiss_kept
    | with_reducible apply State.ctxMissing_kept
    | with_reducible apply State.unfile_kept
    | (fail_if_no_progress with_reducible refine Kept.mk' ?_ rfl rfl)
    | (with_reducible apply Kept.foldl; on_goal 2 => (intro _ _ _; beta_reduce))
    | (with_reducible apply Kept.foldlSnd; on_goal 2 => (intro _ _ _; beta_reduce))
    | split

theorem State.peerBack_kept {T : Nat} {r s : State} {x1 : ℕ} (h : Kept T r s) (hT : Within 16777354 T := by
    first | exact Within.refl _ | (refine Within.of (b := ?zb) ?zw ?ze; (case zw => assumption); (case ze => decide))) : Kept T r (State.peerBack s x1) := by
  unfold State.peerBack
  repeat' first
    | with_reducible apply Kept.ite
    | with_reducible assumption
    | exact Within.of hT rfl
    | with_reducible apply State.setCtxState_kept
    | with_reducible apply State.ctxReceiving_kept
    | (fail_if_no_progress with_reducible refine Kept.mk' ?_ rfl rfl)
    | (with_reducible apply Kept.foldl; on_goal 2 => (intro _ _ _; beta_reduce))
    | (with_reducible apply Kept.foldlSnd; on_goal 2 => (intro _ _ _; beta_reduce))
    | split

theorem State.peerLoop_kept {T : Nat} {r s : State} {x1 : ℕ} (h : Kept T r s) (hT : Within 2 T) : Kept T r (State.peerLoop s x1) := by
  unfold State.peerLoop
  repeat' first
    | with_reducible apply Kept.ite
    | with_reducible assumption
    | exact Within.of hT rfl
    | with_reducible apply State.set_kept

theorem State.bindSpare_kept {T : Nat} {r s : State} {x1 : ℕ} {x2 : ℕ} {x3 : List Trip} (h : Kept T r s) (hT : Within 16777386 T := by
    first | exact Within.refl _ | (refine Within.of (b := ?zb) ?zw ?ze; (case zw => assumption); (case ze => decide))) : Kept T r (State.bindSpare s x1 x2 x3) := by
  unfold State.bindSpare
  repeat' first
    | with_reducible apply Kept.ite
    | with_reducible assumption
    | exact Within.of hT rfl
    | with_reducible apply State.setFeed_kept
    | with_reducible apply State.ctxMissing_kept
    | with_reducible apply State.set_kept
    | with_reducible apply State.setPortState_kept
    | with_reducible apply State.setCtxState_kept
    | with_reducible apply State.settle_kept
    | with_reducible apply State.ctxReceiving_kept
    | with_reducible apply State.sendSafe_kept
    | with_reducible apply State.newTrip_kept
    | (fail_if_no_progress with_reducible refine Kept.mk' ?_ rfl rfl)
    | (with_reducible apply Kept.foldl; on_goal 2 => (intro _ _ _; beta_reduce))
    | (with_reducible apply Kept.foldlSnd; on_goal 2 => (intro _ _ _; beta_reduce))
    | split

theorem State.stationDied_kept {T : Nat} {r s : State} {x1 : ℕ} {x2 : List Trip} (h : Kept T r s) (hT : Within 16777386 T) : Kept T r (State.stationDied s x1 x2) := by
  unfold State.stationDied
  repeat' first
    | with_reducible apply Kept.ite
    | with_reducible assumption
    | exact Within.of hT rfl
    | with_reducible apply State.bindSpare_kept
    | (fail_if_no_progress with_reducible refine Kept.mk' ?_ rfl rfl)
    | split

theorem State.unbind_kept {T : Nat} {r s : State} {x1 : ℕ} (h : Kept T r s) (hT : Within 34 T := by
    first | exact Within.refl _ | (refine Within.of (b := ?zb) ?zw ?ze; (case zw => assumption); (case ze => decide))) : Kept T r (State.unbind s x1) := by
  unfold State.unbind
  repeat' first
    | with_reducible apply Kept.ite
    | with_reducible assumption
    | exact Within.of hT rfl
    | with_reducible apply State.setFeed_kept
    | with_reducible apply State.set_kept
    | (fail_if_no_progress with_reducible refine Kept.mk' ?_ rfl rfl)
    | split

theorem State.killPort_kept {T : Nat} {r s : State} {x1 : ℕ} (h : Kept T r s) (hT : Within 17048238 T := by
    first | exact Within.refl _ | (refine Within.of (b := ?zb) ?zw ?ze; (case zw => assumption); (case ze => decide))) : Kept T r (State.killPort s x1) := by
  unfold State.killPort
  repeat' first
    | with_reducible apply Kept.ite
    | with_reducible assumption
    | exact Within.of hT rfl
    | with_reducible apply State.bump_kept
    | with_reducible apply State.setPort_kept
    | with_reducible apply State.tripRegs_kept
    | with_reducible apply State.setPortState_kept
    | with_reducible apply State.set_kept
    | with_reducible apply State.logNamed_kept
    | with_reducible apply State.raise_kept
    | with_reducible apply State.unbind_kept
    | with_reducible apply State.noteStations_kept
    | with_reducible apply State.stationDied_kept
    | with_reducible apply State.conjUpdateAll_kept
    | (fail_if_no_progress with_reducible refine Kept.mk' ?_ rfl rfl)

theorem State.admitPartner_kept {T : Nat} {r s : State} {x1 : ℕ} {x2 : Hello} (h : Kept T r s) (hT : Within 16777278 T) : Kept T r (State.admitPartner s x1 x2) := by
  unfold State.admitPartner
  repeat' first
    | with_reducible apply Kept.ite
    | with_reducible assumption
    | exact Within.of hT rfl
    | with_reducible apply State.logAt_kept
    | with_reducible apply State.set_kept
    | with_reducible apply State.sendMsg_kept
    | with_reducible apply State.set64_kept
    | with_reducible apply State.raise_kept
    | with_reducible apply State.setPortState_kept
    | with_reducible apply State.setPort_kept
    | with_reducible apply State.peerLoop_kept
    | (fail_if_no_progress with_reducible refine Kept.mk' ?_ rfl rfl)

theorem State.checkHello_kept {T : Nat} {r s : State} {x1 : ℕ} {x2 : Hello} (h : Kept T r s) (hT : Within 16777278 T) : Kept T r (State.checkHello s x1 x2) := by
  unfold State.checkHello
  extract_lets u
  have hu : Kept T r u := State.setPortState_kept h (Within.of hT rfl)
  clear_value u
  generalize State.helloReason u x1 x2 = o
  cases o with
  | none => rw [Option.elim_none]; exact State.admitPartner_kept hu (Within.of hT rfl)
  | some q => rw [Option.elim_some]; exact State.refuse_kept hu (Within.of hT rfl)

theorem State.quarantine_kept {T : Nat} {r s : State} {x1 : ℕ} (h : Kept T r s) (hT : Within 16777262 T) : Kept T r (State.quarantine s x1) := by
  unfold State.quarantine
  repeat' first
    | with_reducible assumption
    | exact Within.of hT rfl
    | with_reducible apply State.raise_kept
    | with_reducible apply State.setPortState_kept
    | with_reducible apply State.logNamed_kept
    | with_reducible apply State.setPort_kept

theorem State.helloDead_kept {T : Nat} {r s : State} {x1 : ℕ} {x2 : Hello} (h : Kept T r s) (hT : Within 16777278 T) : Kept T r (State.helloDead s x1 x2) := by
  unfold State.helloDead
  repeat' first
    | with_reducible apply Kept.ite
    | with_reducible assumption
    | exact Within.of hT rfl
    | with_reducible apply State.checkHello_kept
    | with_reducible apply State.quarantine_kept
    | with_reducible apply State.logNamed_kept

theorem State.msgDone_kept {T : Nat} {r s : State} {x1 : ℕ} (h : Kept T r s) (hT : Within 32 T := by
    first | exact Within.refl _ | (refine Within.of (b := ?zb) ?zw ?ze; (case zw => assumption); (case ze => decide))) : Kept T r (State.msgDone s x1) := by
  unfold State.msgDone
  repeat' first
    | with_reducible apply Kept.ite
    | with_reducible assumption
    | exact Within.of hT rfl
    | with_reducible apply State.setPort_kept
    | (fail_if_no_progress with_reducible refine Kept.mk' ?_ rfl rfl)

theorem execHelloReceived_kept {T : Nat} {r s : State} {x0 : Fin 44} {x1 : Hello} (h : Kept T r s) (hT : Within 17048254 T := by
    first | exact Within.refl _ | (refine Within.of (b := ?zb) ?zw ?ze; (case zw => assumption); (case ze => decide))) : KeptO T r (execHelloReceived x0 x1 s) := by
  unfold execHelloReceived
  repeat' first
    | with_reducible apply KeptO.ite
    | with_reducible apply Kept.ite
    | with_reducible assumption
    | exact Within.of hT rfl
    | with_reducible apply KeptO.next
    | with_reducible apply State.msgDone_kept
    | with_reducible apply State.checkHello_kept
    | with_reducible apply State.helloDead_kept
    | with_reducible apply State.killPort_kept
    | (fail_if_no_progress with_reducible refine Kept.mk' ?_ rfl rfl)

theorem State.forgetVotes_kept {T : Nat} {r s : State} {x1 : ℕ} (h : Kept T r s) (hT : Within 512 T := by
    first | exact Within.refl _ | (refine Within.of (b := ?zb) ?zw ?ze; (case zw => assumption); (case ze => decide))) : Kept T r (State.forgetVotes s x1) := by
  unfold State.forgetVotes
  repeat' first
    | with_reducible apply Kept.ite
    | with_reducible assumption
    | exact Within.of hT rfl
    | with_reducible apply State.setGroup_kept
    | (fail_if_no_progress with_reducible refine Kept.mk' ?_ rfl rfl)
    | (with_reducible apply Kept.foldl; on_goal 2 => (intro _ _ _; beta_reduce))
    | (with_reducible apply Kept.foldlSnd; on_goal 2 => (intro _ _ _; beta_reduce))
    | split

theorem State.runPort_kept {T : Nat} {r s : State} {x1 : ℕ} (h : Kept T r s) (hT : Within 17048238 T := by
    first | exact Within.refl _ | (refine Within.of (b := ?zb) ?zw ?ze; (case zw => assumption); (case ze => decide))) : Kept T r (State.runPort s x1) := by
  unfold State.runPort
  repeat' first
    | with_reducible apply Kept.ite
    | with_reducible assumption
    | exact Within.of hT rfl
    | with_reducible apply State.sendSafe_kept
    | with_reducible apply State.sendMsg_kept
    | with_reducible apply State.setPort_kept
    | with_reducible apply State.setFeed_kept
    | with_reducible apply State.setPortState_kept
    | with_reducible apply State.conjUpdateAll_kept
    | with_reducible apply State.peerBack_kept
    | with_reducible apply State.forgetVotes_kept
    | (fail_if_no_progress with_reducible refine Kept.mk' ?_ rfl rfl)

theorem State.sendComp_kept {T : Nat} {r s : State} {x1 : ℕ} {x2 : ℕ} (h : Kept T r s) (hT : Within 16777248 T) : Kept T r (State.sendComp s x1 x2) := by
  unfold State.sendComp
  repeat' first
    | with_reducible assumption
    | exact Within.of hT rfl
    | with_reducible apply State.sendWord_kept
    | with_reducible apply State.setPort_kept

theorem State.calDone_kept {T : Nat} {r s : State} {x1 : ℕ} {x2 : ℕ} (h : Kept T r s) (hT : Within 17048238 T := by
    first | exact Within.refl _ | (refine Within.of (b := ?zb) ?zw ?ze; (case zw => assumption); (case ze => decide))) : Kept T r (State.calDone s x1 x2) := by
  unfold State.calDone
  repeat' first
    | with_reducible apply Kept.ite
    | with_reducible assumption
    | exact Within.of hT rfl
    | with_reducible apply State.setPortState_kept
    | with_reducible apply State.refuse_kept
    | with_reducible apply State.setPort_kept
    | with_reducible apply State.peerLoop_kept
    | with_reducible apply State.set_kept
    | with_reducible apply State.sendComp_kept
    | with_reducible apply State.runPort_kept
    | (fail_if_no_progress with_reducible refine Kept.mk' ?_ rfl rfl)

theorem State.runMeasure_kept {T : Nat} {r s : State} {x1 : ℕ} {x2 : ℕ} (h : Kept T r s) (hT : Within 16777258 T) : Kept T r (State.runMeasure s x1 x2) := by
  unfold State.runMeasure
  repeat' first
    | with_reducible apply Kept.ite
    | with_reducible assumption
    | exact Within.of hT rfl
    | with_reducible apply State.raise_kept
    | with_reducible apply State.setPort_kept
    | with_reducible apply State.set_kept
    | with_reducible apply State.peerLoop_kept
    | with_reducible apply State.sendComp_kept

theorem execEchoReceived_kept {T : Nat} {r s : State} {x0 : Fin 44} {x1 : BitVec 8} {x2 : BitVec 20} {x3 : BitVec 16} (h : Kept T r s) (hT : Within 17048238 T) : KeptO T r (execEchoReceived x0 x1 x2 x3 s) := by
  unfold execEchoReceived
  repeat' first
    | with_reducible apply KeptO.ite
    | with_reducible apply Kept.ite
    | with_reducible assumption
    | exact Within.of hT rfl
    | with_reducible apply KeptO.next
    | with_reducible apply State.setPort_kept
    | with_reducible apply State.calDone_kept
    | with_reducible apply State.runMeasure_kept

theorem State.compConfirmed_kept {T : Nat} {r s : State} {x1 : ℕ} {x2 : ℕ} (h : Kept T r s) (hT : Within 162 T := by
    first | exact Within.refl _ | (refine Within.of (b := ?zb) ?zw ?ze; (case zw => assumption); (case ze => decide))) : Kept T r (State.compConfirmed s x1 x2) := by
  unfold State.compConfirmed
  repeat' first
    | with_reducible apply Kept.ite
    | with_reducible assumption
    | exact Within.of hT rfl
    | with_reducible apply State.set_kept
    | with_reducible apply State.setPort_kept
    | with_reducible apply State.settle_kept
    | with_reducible apply State.peerLoop_kept
    | (fail_if_no_progress with_reducible refine Kept.mk' ?_ rfl rfl)
    | (extract_lets +onlyGivenNames x; first | (with_reducible apply Kept.cut (T := T) (r := r) (x := x); on_goal 2 => (intro hx; clear_value x)) | clear_value x)
    | split

theorem execCompResend_kept {T : Nat} {r s : State} {x0 : Fin 44} (h : Kept T r s) (hT : Within 16777248 T) : KeptO T r (execCompResend x0 s) := by
  unfold execCompResend
  repeat' first
    | with_reducible apply KeptO.ite
    | with_reducible apply Kept.ite
    | with_reducible assumption
    | exact Within.of hT rfl
    | with_reducible apply KeptO.next
    | with_reducible apply State.sendComp_kept
    | (fail_if_no_progress with_reducible refine Kept.mk' ?_ rfl rfl)
    | split

theorem execPingSend_kept {T : Nat} {r s : State} {x0 : Fin 44} (h : Kept T r s) (hT : Within 16777248 T) : KeptO T r (execPingSend x0 s) := by
  unfold execPingSend
  repeat' first
    | with_reducible apply KeptO.ite
    | with_reducible apply Kept.ite
    | with_reducible assumption
    | exact Within.of hT rfl
    | with_reducible apply KeptO.next
    | with_reducible apply State.setPort_kept
    | with_reducible apply State.sendWord_kept

theorem execCalibrationFailed_kept {T : Nat} {r s : State} {x0 : Fin 44} (h : Kept T r s) (hT : Within 16777258 T) : KeptO T r (execCalibrationFailed x0 s) := by
  unfold execCalibrationFailed
  repeat' first
    | with_reducible apply KeptO.ite
    | with_reducible apply Kept.ite
    | with_reducible assumption
    | exact Within.of hT rfl
    | with_reducible apply KeptO.next
    | with_reducible apply State.setPort_kept
    | with_reducible apply State.setPortState_kept
    | with_reducible apply State.refuse_kept

theorem State.peerSample_kept {T : Nat} {r s : State} {x1 : ℕ} {x2 : ℕ} {x3 : ℕ} (h : Kept T r s) (hT : Within 34 T) : Kept T r (State.peerSample s x1 x2 x3) := by
  unfold State.peerSample
  repeat' first
    | with_reducible assumption
    | exact Within.of hT rfl
    | with_reducible apply State.set64_kept
    | with_reducible apply State.setPort_kept

theorem State.endRun_kept {T : Nat} {r s : State} {x1 : ℕ} {x2 : ℕ} (h : Kept T r s) (hT : Within 17048238 T := by
    first | exact Within.refl _ | (refine Within.of (b := ?zb) ?zw ?ze; (case zw => assumption); (case ze => decide))) : Kept T r (State.endRun s x1 x2) := by
  unfold State.endRun
  repeat' first
    | with_reducible apply Kept.ite
    | with_reducible assumption
    | exact Within.of hT rfl
    | with_reducible apply State.unbind_kept
    | with_reducible apply State.dropPort_kept
    | with_reducible apply State.setPort_kept
    | with_reducible apply State.setPortState_kept
    | with_reducible apply State.set_kept
    | with_reducible apply State.conjUpdateAll_kept
    | with_reducible apply State.peerLoop_kept
    | (fail_if_no_progress with_reducible refine Kept.mk' ?_ rfl rfl)

theorem State.frameInService_kept {T : Nat} {r s : State} {x1 : ℕ} {x2 : ℕ} {x3 : ℕ} (h : Kept T r s) (hT : Within 17048238 T) : Kept T r (State.frameInService s x1 x2 x3) := by
  unfold State.frameInService
  repeat' first
    | with_reducible apply Kept.ite
    | with_reducible assumption
    | exact Within.of hT rfl
    | with_reducible apply State.setPort_kept
    | with_reducible apply State.peerSample_kept
    | with_reducible apply State.raise_kept
    | with_reducible apply State.markFrame_kept
    | with_reducible apply State.endRun_kept

theorem State.msgOpens_kept {T : Nat} {r s : State} {x1 : ℕ} {x2 : ℕ} {x3 : ℕ} {x4 : ℕ} {x5 : ℕ} (h : Kept T r s) (hT : Within 34 T := by
    first | exact Within.refl _ | (refine Within.of (b := ?zb) ?zw ?ze; (case zw => assumption); (case ze => decide))) : Kept T r (State.msgOpens s x1 x2 x3 x4 x5) := by
  unfold State.msgOpens
  repeat' first
    | with_reducible apply Kept.ite
    | with_reducible assumption
    | exact Within.of hT rfl
    | with_reducible apply State.setPort_kept
    | with_reducible apply State.bump_kept
    | (fail_if_no_progress with_reducible refine Kept.mk' ?_ rfl rfl)

theorem execFrameReceived_kept {T : Nat} {r s : State} {x0 : Fin 44} {x1 : BitVec 24} {x2 : Fin 65536} {x3 : Option (Fin 256)} {x4 : ShelfHead} (h : Kept T r s) (hT : Within 17048238 T := by
    first | exact Within.refl _ | (refine Within.of (b := ?zb) ?zw ?ze; (case zw => assumption); (case ze => decide))) : KeptO T r (execFrameReceived x0 x1 x2 x3 x4 s) := by
  unfold execFrameReceived
  repeat' first
    | with_reducible apply KeptO.ite
    | with_reducible apply Kept.ite
    | with_reducible assumption
    | exact Within.of hT rfl
    | with_reducible apply KeptO.next
    | with_reducible apply State.bump_kept
    | with_reducible apply State.logNamed_kept
    | with_reducible apply State.setPort_kept
    | with_reducible apply State.frameInService_kept
    | with_reducible apply State.msgOpens_kept
    | (fail_if_no_progress with_reducible refine Kept.mk' ?_ rfl rfl)
    | split

theorem State.frameQuality_kept {T : Nat} {r s : State} {x1 : ℕ} {x2 : ℕ} {x3 : ℕ} (h : Kept T r s) (hT : Within 128 T := by
    first | exact Within.refl _ | (refine Within.of (b := ?zb) ?zw ?ze; (case zw => assumption); (case ze => decide))) : Kept T r (State.frameQuality s x1 x2 x3) := by
  unfold State.frameQuality
  repeat' first
    | with_reducible apply Kept.ite
    | with_reducible assumption
    | exact Within.of hT rfl
    | with_reducible apply State.fileSamp_kept
    | (fail_if_no_progress with_reducible refine Kept.mk' ?_ rfl rfl)
    | (extract_lets +onlyGivenNames x; first | (with_reducible apply Kept.cut (T := T) (r := r) (x := x); on_goal 2 => (intro hx; clear_value x)) | clear_value x)
    | (with_reducible apply Kept.foldl; on_goal 2 => (intro _ _ _; beta_reduce))
    | (with_reducible apply Kept.foldlSnd; on_goal 2 => (intro _ _ _; beta_reduce))
    | split

theorem State.takeSample_kept {T : Nat} {r s : State} {x1 : ℕ} {x2 : ℕ} {x3 : ℕ} {x4 : ℕ} {x5 : ℤ} (h : Kept T r s) (hT : Within 16777866 T := by
    first | exact Within.refl _ | (refine Within.of (b := ?zb) ?zw ?ze; (case zw => assumption); (case ze => decide))) : Kept T r (State.takeSample s x1 x2 x3 x4 x5) := by
  unfold State.takeSample
  repeat' first
    | with_reducible apply Kept.ite
    | with_reducible assumption
    | exact Within.of hT rfl
    | with_reducible apply State.setCtx_kept
    | with_reducible apply State.ctxReceiving_kept
    | with_reducible apply State.setCtxState_kept
    | with_reducible apply State.set64_kept
    | with_reducible apply State.set_kept
    | with_reducible apply State.fileSamp_kept
    | with_reducible apply State.elementsTo_kept
    | (fail_if_no_progress with_reducible refine Kept.mk' ?_ rfl rfl)

theorem execSampleReceived_kept {T : Nat} {r s : State} {x0 : Fin 32} {x1 : Fin 8} {x2 : BitVec 24} (h : Kept T r s) (hT : Within 16777866 T := by
    first | exact Within.refl _ | (refine Within.of (b := ?zb) ?zw ?ze; (case zw => assumption); (case ze => decide))) : KeptO T r (execSampleReceived x0 x1 x2 s) := by
  unfold execSampleReceived
  repeat' first
    | with_reducible apply KeptO.ite
    | with_reducible apply Kept.ite
    | with_reducible assumption
    | exact Within.of hT rfl
    | with_reducible apply KeptO.next
    | with_reducible apply State.takeSample_kept
    | (fail_if_no_progress with_reducible refine Kept.mk' ?_ rfl rfl)
    | split

theorem execChstatReceived_kept {T : Nat} {r s : State} {x0 : Fin 32} {x1 : BitVec 8} {x2 : BitVec 8} (h : Kept T r s) (hT : Within 160 T) : KeptO T r (execChstatReceived x0 x1 x2 s) := by
  unfold execChstatReceived
  repeat' first
    | with_reducible apply KeptO.ite
    | with_reducible apply Kept.ite
    | with_reducible assumption
    | exact Within.of hT rfl
    | with_reducible apply KeptO.next
    | with_reducible apply State.setPort_kept
    | with_reducible apply State.frameQuality_kept

theorem State.frameTest_kept {T : Nat} {r s : State} {x1 : ℕ} {x2 : Bool} (h : Kept T r s) (hT : Within 128 T := by
    first | exact Within.refl _ | (refine Within.of (b := ?zb) ?zw ?ze; (case zw => assumption); (case ze => decide))) : Kept T r (State.frameTest s x1 x2) := by
  unfold State.frameTest
  repeat' first
    | with_reducible apply Kept.ite
    | with_reducible assumption
    | exact Within.of hT rfl
    | with_reducible apply State.fileSamp_kept
    | (fail_if_no_progress with_reducible refine Kept.mk' ?_ rfl rfl)
    | (extract_lets +onlyGivenNames x; first | (with_reducible apply Kept.cut (T := T) (r := r) (x := x); on_goal 2 => (intro hx; clear_value x)) | clear_value x)
    | (with_reducible apply Kept.foldl; on_goal 2 => (intro _ _ _; beta_reduce))
    | (with_reducible apply Kept.foldlSnd; on_goal 2 => (intro _ _ _; beta_reduce))
    | split

theorem State.retiredHeard_kept {T : Nat} {r s : State} {x1 : ℕ} (h : Kept T r s) (hT : Within 16777262 T) : Kept T r (State.retiredHeard s x1) := by
  unfold State.retiredHeard
  repeat' first
    | with_reducible apply Kept.ite
    | with_reducible assumption
    | exact Within.of hT rfl
    | with_reducible apply State.refuse_kept
    | with_reducible apply State.quarantine_kept

theorem execUnitstatReceived_kept {T : Nat} {r s : State} {x0 : Fin 44} {x1 : BitVec 16} {x2 : BitVec 4} {x3 : BitVec 4} (h : Kept T r s) (hT : Within 16777390 T) : KeptO T r (execUnitstatReceived x0 x1 x2 x3 s) := by
  unfold execUnitstatReceived
  repeat' first
    | with_reducible apply KeptO.ite
    | with_reducible apply Kept.ite
    | with_reducible assumption
    | exact Within.of hT rfl
    | with_reducible apply KeptO.next
    | with_reducible apply State.retiredHeard_kept
    | with_reducible apply State.setPort_kept
    | with_reducible apply State.frameTest_kept
    | with_reducible apply State.raise_kept
    | with_reducible apply State.bump_kept
    | with_reducible apply State.compConfirmed_kept
    | (fail_if_no_progress with_reducible refine Kept.mk' ?_ rfl rfl)
    | split

theorem State.dropMessage_kept {T : Nat} {r s : State} {x1 : ℕ} (h : Kept T r s) (hT : Within 32 T := by
    first | exact Within.refl _ | (refine Within.of (b := ?zb) ?zw ?ze; (case zw => assumption); (case ze => decide))) : Kept T r (State.dropMessage s x1) := by
  unfold State.dropMessage
  repeat' first
    | with_reducible apply Kept.ite
    | with_reducible assumption
    | exact Within.of hT rfl
    | with_reducible apply State.setPort_kept
    | (fail_if_no_progress with_reducible refine Kept.mk' ?_ rfl rfl)

theorem execWordDiscarded_kept {T : Nat} {r s : State} {x0 : Fin 44} {x1 : Fin 25} {x2 : Bool} (h : Kept T r s) (hT : Within 674 T := by
    first | exact Within.refl _ | (refine Within.of (b := ?zb) ?zw ?ze; (case zw => assumption); (case ze => decide))) : KeptO T r (execWordDiscarded x0 x1 x2 s) := by
  unfold execWordDiscarded
  repeat' first
    | with_reducible apply KeptO.ite
    | with_reducible apply Kept.ite
    | with_reducible assumption
    | exact Within.of hT rfl
    | with_reducible apply KeptO.next
    | with_reducible apply State.bump_kept
    | with_reducible apply State.dropMessage_kept
    | with_reducible apply State.setPort_kept
    | with_reducible apply State.markMissing_kept
    | (fail_if_no_progress with_reducible refine Kept.mk' ?_ rfl rfl)

theorem execFrameAlignmentAcquired_kept {T : Nat} {r s : State} {x0 : Fin 44} (h : Kept T r s) (hT : Within 34 T) : KeptO T r (execFrameAlignmentAcquired x0 s) := by
  unfold execFrameAlignmentAcquired
  repeat' first
    | with_reducible apply KeptO.ite
    | with_reducible apply Kept.ite
    | with_reducible assumption
    | exact Within.of hT rfl
    | with_reducible apply KeptO.next
    | with_reducible apply State.setPort_kept
    | with_reducible apply State.setPortState_kept

theorem State.alignLost_kept {T : Nat} {r s : State} {x1 : ℕ} (h : Kept T r s) (hT : Within 34 T := by
    first | exact Within.refl _ | (refine Within.of (b := ?zb) ?zw ?ze; (case zw => assumption); (case ze => decide))) : Kept T r (State.alignLost s x1) := by
  unfold State.alignLost
  repeat' first
    | with_reducible apply Kept.ite
    | with_reducible assumption
    | exact Within.of hT rfl
    | with_reducible apply State.setPort_kept
    | with_reducible apply State.dropMessage_kept
    | with_reducible apply State.setPortState_kept
    | (fail_if_no_progress with_reducible refine Kept.mk' ?_ rfl rfl)

theorem execFrameAlignmentLost_kept {T : Nat} {r s : State} {x0 : Fin 44} (h : Kept T r s) (hT : Within 34 T) : KeptO T r (execFrameAlignmentLost x0 s) := by
  unfold execFrameAlignmentLost
  repeat' first
    | with_reducible assumption
    | exact Within.of hT rfl
    | with_reducible apply KeptO.next
    | with_reducible apply State.alignLost_kept

theorem execMessageTimeout_kept {T : Nat} {r s : State} {x0 : Fin 44} (h : Kept T r s) (hT : Within 32 T := by
    first | exact Within.refl _ | (refine Within.of (b := ?zb) ?zw ?ze; (case zw => assumption); (case ze => decide))) : KeptO T r (execMessageTimeout x0 s) := by
  unfold execMessageTimeout
  repeat' first
    | with_reducible apply KeptO.ite
    | with_reducible apply Kept.ite
    | with_reducible assumption
    | exact Within.of hT rfl
    | with_reducible apply KeptO.next
    | with_reducible apply State.dropMessage_kept
    | (fail_if_no_progress with_reducible refine Kept.mk' ?_ rfl rfl)

theorem execPortLost_kept {T : Nat} {r s : State} {x0 : Fin 44} (h : Kept T r s) (hT : Within 17048238 T) : KeptO T r (execPortLost x0 s) := by
  unfold execPortLost
  repeat' first
    | with_reducible apply KeptO.ite
    | with_reducible apply Kept.ite
    | with_reducible assumption
    | exact Within.of hT rfl
    | with_reducible apply KeptO.next
    | with_reducible apply State.dropPort_kept
    | with_reducible apply State.setPort_kept
    | with_reducible apply State.raise_kept
    | with_reducible apply State.setPortState_kept
    | with_reducible apply State.conjUpdateAll_kept

theorem execPortRecovered_kept {T : Nat} {r s : State} {x0 : Fin 44} (h : Kept T r s) (hT : Within 17048238 T := by
    first | exact Within.refl _ | (refine Within.of (b := ?zb) ?zw ?ze; (case zw => assumption); (case ze => decide))) : KeptO T r (execPortRecovered x0 s) := by
  unfold execPortRecovered
  repeat' first
    | with_reducible apply KeptO.ite
    | with_reducible apply Kept.ite
    | with_reducible assumption
    | exact Within.of hT rfl
    | with_reducible apply KeptO.next
    | with_reducible apply State.setPortState_kept
    | with_reducible apply State.setPort_kept
    | with_reducible apply State.conjUpdateAll_kept
    | with_reducible apply State.peerBack_kept
    | (fail_if_no_progress with_reducible refine Kept.mk' ?_ rfl rfl)

theorem execPortDead_kept {T : Nat} {r s : State} {x0 : Fin 44} (h : Kept T r s) (hT : Within 17048238 T) : KeptO T r (execPortDead x0 s) := by
  unfold execPortDead
  repeat' first
    | with_reducible apply KeptO.ite
    | with_reducible apply Kept.ite
    | with_reducible assumption
    | exact Within.of hT rfl
    | with_reducible apply KeptO.next
    | with_reducible apply State.killPort_kept

theorem execHjlReadmit_kept {T : Nat} {r s : State} {x0 : Fin 2} {x1 : Word} (h : Kept T r s) (hT : Within 16777278 T) : KeptO T r (execHjlReadmit x0 x1 s) := by
  unfold execHjlReadmit
  repeat' first
    | with_reducible apply KeptO.ite
    | with_reducible apply Kept.ite
    | with_reducible assumption
    | exact Within.of hT rfl
    | with_reducible apply KeptO.next
    | (with_reducible apply whenAllowed_kept; on_goal 2 => (intro _ _; beta_reduce))
    | with_reducible apply State.gate_kept
    | with_reducible apply State.set_kept
    | with_reducible apply State.setPortState_kept
    | with_reducible apply State.setPort_kept

theorem execHjlRebind_kept {T : Nat} {r s : State} {x0 : Fin 2} {x1 : Word} (h : Kept T r s) (hT : Within 16777310 T) : KeptO T r (execHjlRebind x0 x1 s) := by
  unfold execHjlRebind
  repeat' first
    | with_reducible apply KeptO.ite
    | with_reducible apply Kept.ite
    | with_reducible assumption
    | exact Within.of hT rfl
    | with_reducible apply KeptO.next
    | (with_reducible apply whenAllowed_kept; on_goal 2 => (intro _ _; beta_reduce))
    | with_reducible apply State.gate_kept
    | with_reducible apply State.set_kept
    | (fail_if_no_progress with_reducible refine Kept.mk' ?_ rfl rfl)

theorem State.spareWaits_kept {T : Nat} {r s : State} {x1 : ℕ} (h : Kept T r s) (hT : Within 34 T := by
    first | exact Within.refl _ | (refine Within.of (b := ?zb) ?zw ?ze; (case zw => assumption); (case ze => decide))) : Kept T r (State.spareWaits s x1) := by
  unfold State.spareWaits
  repeat' first
    | with_reducible apply Kept.ite
    | with_reducible assumption
    | exact Within.of hT rfl
    | with_reducible apply State.set_kept
    | with_reducible apply State.setPortState_kept
    | with_reducible apply State.setPort_kept
    | with_reducible apply State.setFeed_kept
    | (fail_if_no_progress with_reducible refine Kept.mk' ?_ rfl rfl)

theorem State.moveHome_kept {T : Nat} {r s : State} {x1 : ℕ} (h : Kept T r s) (hT : Within 17048238 T := by
    first | exact Within.refl _ | (refine Within.of (b := ?zb) ?zw ?ze; (case zw => assumption); (case ze => decide))) : Kept T r (State.moveHome s x1) := by
  unfold State.moveHome
  repeat' first
    | with_reducible apply Kept.ite
    | with_reducible assumption
    | exact Within.of hT rfl
    | with_reducible apply State.spareWaits_kept
    | with_reducible apply State.setPort_kept
    | with_reducible apply State.setFeed_kept
    | with_reducible apply State.set_kept
    | with_reducible apply State.setPortState_kept
    | with_reducible apply State.setCtxState_kept
    | with_reducible apply State.settle_kept
    | with_reducible apply State.ctxReceiving_kept
    | with_reducible apply State.conjUpdateAll_kept
    | (fail_if_no_progress with_reducible refine Kept.mk' ?_ rfl rfl)
    | split

theorem execStationRebind_kept {T : Nat} {r s : State}  (h : Kept T r s) (hT : Within 17048302 T := by
    first | exact Within.refl _ | (refine Within.of (b := ?zb) ?zw ?ze; (case zw => assumption); (case ze => decide))) : KeptO T r (execStationRebind s) := by
  unfold execStationRebind
  repeat' first
    | with_reducible apply KeptO.ite
    | with_reducible apply Kept.ite
    | with_reducible assumption
    | exact Within.of hT rfl
    | with_reducible apply KeptO.next
    | with_reducible apply State.set_kept
    | with_reducible apply State.moveHome_kept
    | (fail_if_no_progress with_reducible refine Kept.mk' ?_ rfl rfl)
    | split

theorem execPeerTimeSend_kept {T : Nat} {r s : State} {x0 : Fin 4} (h : Kept T r s) (hT : Within 16777248 T) : KeptO T r (execPeerTimeSend x0 s) := by
  unfold execPeerTimeSend
  repeat' first
    | with_reducible apply KeptO.ite
    | with_reducible apply Kept.ite
    | with_reducible assumption
    | exact Within.of hT rfl
    | with_reducible apply KeptO.next
    | with_reducible apply State.sendMsg_kept
    | with_reducible apply State.setPort_kept

theorem execPeerTimeReceived_kept {T : Nat} {r s : State} {x0 : Fin 4} {x1 : BitVec 64} {x2 : Fin 65536} (h : Kept T r s) (hT : Within 34 T := by
    first | exact Within.refl _ | (refine Within.of (b := ?zb) ?zw ?ze; (case zw => assumption); (case ze => decide))) : KeptO T r (execPeerTimeReceived x0 x1 x2 s) := by
  unfold execPeerTimeReceived
  repeat' first
    | with_reducible apply KeptO.ite
    | with_reducible apply Kept.ite
    | with_reducible assumption
    | exact Within.of hT rfl
    | with_reducible apply KeptO.next
    | with_reducible apply State.msgDone_kept
    | with_reducible apply State.setPort_kept
    | with_reducible apply State.peerSample_kept
    | (fail_if_no_progress with_reducible refine Kept.mk' ?_ rfl rfl)

theorem execTripRepeatSlot1_kept {T : Nat} {r s : State} {x0 : Fin 44} (h : Kept T r s) (hT : Within 16777218 T) : KeptO T r (execTripRepeatSlot1 x0 s) := by
  unfold execTripRepeatSlot1
  repeat' first
    | with_reducible apply KeptO.ite
    | with_reducible apply Kept.ite
    | with_reducible assumption
    | exact Within.of hT rfl
    | with_reducible apply KeptO.next
    | with_reducible apply State.sendWord_kept
    | with_reducible apply State.set_kept
    | (fail_if_no_progress with_reducible refine Kept.mk' ?_ rfl rfl)
    | split

theorem execAckReceived_kept {T : Nat} {r s : State} {x0 : Fin 44} {x1 : BitVec 16} {x2 : BitVec 4} {x3 : BitVec 16} (h : Kept T r s) (hT : Within 34 T) : KeptO T r (execAckReceived x0 x1 x2 x3 s) := by
  unfold execAckReceived
  repeat' first
    | with_reducible apply KeptO.ite
    | with_reducible apply Kept.ite
    | with_reducible assumption
    | exact Within.of hT rfl
    | with_reducible apply KeptO.next
    | with_reducible apply State.tripRegs_kept
    | with_reducible apply State.setPort_kept

theorem execTripUnack_kept {T : Nat} {r s : State} {x0 : Fin 44} (h : Kept T r s) (hT : Within 16777262 T) : KeptO T r (execTripUnack x0 s) := by
  unfold execTripUnack
  repeat' first
    | with_reducible apply KeptO.ite
    | with_reducible apply Kept.ite
    | with_reducible assumption
    | exact Within.of hT rfl
    | with_reducible apply KeptO.next
    | with_reducible apply State.setPort_kept
    | with_reducible apply State.logNamedSev_kept
    | with_reducible apply State.raise_kept
    | (fail_if_no_progress with_reducible refine Kept.mk' ?_ rfl rfl)
    | (extract_lets +onlyGivenNames x; first | (with_reducible apply Kept.cut (T := T) (r := r) (x := x); on_goal 2 => (intro hx; clear_value x)) | clear_value x)
    | split

end Sys2Proof.Machine
end

