-- ==== Sys2Proof/Laws/KeptSog.lean ====
section
/-!
SUPPORT. Laws/KeptSog.lean: what each operation of lanes and the Sogen instructions keeps (the relation Kept of Laws/Kept.lean), one lemma
per operation.
-/
set_option linter.unusedTactic false
set_option linter.unreachableTactic false
set_option linter.unusedVariables false
set_option Elab.async false
namespace Sys2Proof.Machine
open Sys2Proof

/-! ## Machine/Operands.lean -/

theorem State.storeNat_kept {T : Nat} {r s : State} {x1 : ℕ} {x2 : ℕ} {x3 : ℕ} {x4 : ℕ} (h : Kept T r s) (hT : Within 2048 T) : Kept T r (State.storeNat s x1 x2 x3 x4) := by
  unfold State.storeNat
  repeat' first
    | with_reducible assumption
    | exact Within.of hT rfl
    | with_reducible apply State.storeBytes_kept

theorem State.storeWords_kept {T : Nat} {r s : State} {x1 : ℕ} {x2 : ℕ} {x3 : List Word} (h : Kept T r s) (hT : Within 2048 T) : Kept T r (State.storeWords s x1 x2 x3) := by
  unfold State.storeWords
  repeat' first
    | with_reducible assumption
    | exact Within.of hT rfl
    | with_reducible apply State.storeBytes_kept

/-! ## Machine/Lane.lean -/

theorem State.setCycle_kept {T : Nat} {r s : State} {x1 : ℕ} {x2 : Option Cycle} (h : Kept T r s) (hT : Within 8192 T := by
    first | exact Within.refl _ | (refine Within.of (b := ?zb) ?zw ?ze; (case zw => assumption); (case ze => decide))) : Kept T r (State.setCycle s x1 x2) := by
  unfold State.setCycle
  repeat' first
    | with_reducible apply Kept.ite
    | with_reducible assumption
    | exact Within.of hT rfl
    | (fail_if_no_progress with_reducible refine Kept.mk' ?_ rfl rfl)

theorem State.putCyc_kept {T : Nat} {r s : State} {x1 : Cycle} (h : Kept T r s) (hT : Within 8192 T := by
    first | exact Within.refl _ | (refine Within.of (b := ?zb) ?zw ?ze; (case zw => assumption); (case ze => decide))) : Kept T r (State.putCyc s x1) := by
  unfold State.putCyc
  repeat' first
    | with_reducible assumption
    | exact Within.of hT rfl
    | with_reducible apply State.setCycle_kept

theorem State.setLane_kept {T : Nat} {r s : State} {x1 : ℕ} {x2 : LaneSt} (h : Kept T r s) (hT : Within 4096 T := by
    first | exact Within.refl _ | (refine Within.of (b := ?zb) ?zw ?ze; (case zw => assumption); (case ze => decide))) : Kept T r (State.setLane s x1 x2) := by
  unfold State.setLane
  repeat' first
    | with_reducible apply Kept.ite
    | with_reducible assumption
    | exact Within.of hT rfl
    | (fail_if_no_progress with_reducible refine Kept.mk' ?_ rfl rfl)

theorem State.setStatus_kept {T : Nat} {r s : State} {x1 : Cycle} {x2 : ℕ} (h : Kept T r s) (hT : Within 8194 T) : Kept T r (State.setStatus s x1 x2) := by
  unfold State.setStatus
  repeat' first
    | with_reducible apply Kept.ite
    | with_reducible assumption
    | exact Within.of hT rfl
    | with_reducible apply State.putCyc_kept
    | with_reducible apply State.set_kept

theorem State.execMax_kept {T : Nat} {r s : State} {x1 : Cycle} (h : Kept T r s) (hT : Within 2 T) : Kept T r (State.execMax s x1) := by
  unfold State.execMax
  repeat' first
    | with_reducible apply Kept.ite
    | with_reducible assumption
    | exact Within.of hT rfl
    | with_reducible apply State.set_kept

theorem State.endCycle_kept {T : Nat} {r s : State} {x1 : Cycle} {x2 : ℕ} (h : Kept T r s) (hT : Within 12290 T := by
    first | exact Within.refl _ | (refine Within.of (b := ?zb) ?zw ?ze; (case zw => assumption); (case ze => decide))) : Kept T r (State.endCycle s x1 x2) := by
  unfold State.endCycle
  repeat' first
    | with_reducible assumption
    | exact Within.of hT rfl
    | with_reducible apply State.setLane_kept
    | with_reducible apply State.setStatus_kept
    | with_reducible apply State.execMax_kept

theorem State.recordExc_kept {T : Nat} {r s : State} {x1 : Cycle} {x2 : ℕ} {x3 : ℕ} {x4 : ℕ} (h : Kept T r s) (hT : Within 16777230 T) : Kept T r (State.recordExc s x1 x2 x3 x4) := by
  unfold State.recordExc
  repeat' first
    | with_reducible apply Kept.ite
    | with_reducible assumption
    | exact Within.of hT rfl
    | with_reducible apply State.set_kept
    | with_reducible apply State.set64_kept
    | with_reducible apply State.raise_kept
    | with_reducible apply State.bump_kept
    | with_reducible apply State.logNamed_kept

theorem State.abortExc_kept {T : Nat} {r s : State} {x1 : Cycle} {x2 : ℕ} {x3 : ℕ} {x4 : ℕ} (h : Kept T r s) (hT : Within 16789518 T) : Kept T r (State.abortExc s x1 x2 x3 x4) := by
  unfold State.abortExc
  repeat' first
    | with_reducible apply Kept.ite
    | with_reducible assumption
    | exact Within.of hT rfl
    | with_reducible apply State.recordExc_kept
    | with_reducible apply State.raise_kept
    | with_reducible apply State.endCycle_kept

theorem State.enter_kept {T : Nat} {r s : State} {x1 : Cycle} {x2 : ℕ} {x3 : ℕ} (h : Kept T r s) (hT : Within 12290 T := by
    first | exact Within.refl _ | (refine Within.of (b := ?zb) ?zw ?ze; (case zw => assumption); (case ze => decide))) : Kept T r (State.enter s x1 x2 x3) := by
  unfold State.enter
  repeat' first
    | with_reducible assumption
    | exact Within.of hT rfl
    | with_reducible apply State.setLane_kept
    | with_reducible apply State.setStatus_kept

theorem State.dispatch_kept {T : Nat} {r s : State} {x0 : ℕ} {x1 : ℕ} (h : Kept T r s) (hT : Within 16789518 T) : Kept T r (State.dispatch x0 x1 s) := by
  induction x0 generalizing s x1 with
  | zero => exact h
  | succ f ih =>
  unfold State.dispatch
  repeat' first
    | split
    | with_reducible assumption
    | exact Within.of hT rfl
    | with_reducible apply ih
    | with_reducible apply State.setStatus_kept
    | with_reducible apply State.setLane_kept
    | with_reducible apply State.abortExc_kept
    | with_reducible apply State.enter_kept

theorem State.schedule_kept {T : Nat} {r s : State} {x1 : ℕ} (h : Kept T r s) (hT : Within 16789518 T := by
    first | exact Within.refl _ | (refine Within.of (b := ?zb) ?zw ?ze; (case zw => assumption); (case ze => decide))) : Kept T r (State.schedule s x1) := by
  unfold State.schedule
  repeat' first
    | with_reducible apply Kept.ite
    | with_reducible assumption
    | exact Within.of hT rfl
    | with_reducible apply State.dispatch_kept

theorem State.exception_kept {T : Nat} {r s : State} {x1 : Cycle} {x2 : ℕ} {x3 : ℕ} {x4 : ℕ} (h : Kept T r s) (hT : Within 16789518 T := by
    first | exact Within.refl _ | (refine Within.of (b := ?zb) ?zw ?ze; (case zw => assumption); (case ze => decide))) : Kept T r (State.exception s x1 x2 x3 x4) := by
  unfold State.exception
  repeat' first
    | with_reducible assumption
    | exact Within.of hT rfl
    | with_reducible apply State.schedule_kept
    | with_reducible apply State.abortExc_kept

theorem State.applyEffect_kept {T : Nat} {r s : State} {c : Cycle} {cost : Nat} {e : Effect} (h : Kept T r s) (he : KeptE T r e) (hT : Within 16789518 T := by
    first | exact Within.refl _ | (refine Within.of (b := ?zb) ?zw ?ze; (case zw => assumption); (case ze => decide))) :
    Kept T r (s.applyEffect c cost e) := by
  unfold State.applyEffect
  cases e with
  | trap a b => exact State.exception_kept h
  | next s1 c1 k =>
    dsimp only
    split
    · exact State.putCyc_kept he
    · exact State.exception_kept h
  | jump s1 c1 k => exact State.putCyc_kept he
  | back s1 c1 k => exact State.putCyc_kept he
  | stop s1 c1 => exact State.schedule_kept (State.endCycle_kept he)

theorem State.insnGo_kept {T : Nat} {r s : State} {c : Cycle} {cost : Nat} {l : Bool} {b : Body} (h : Kept T r s)
    (hb : ∀ u d, Kept T r u → KeptE T r (b u d)) (hT : Within 16789518 T := by
    first | exact Within.refl _ | (refine Within.of (b := ?zb) ?zw ?ze; (case zw => assumption); (case ze => decide))) : Kept T r (s.insnGo c cost l b) := by
  unfold State.insnGo
  exact Kept.ite (State.exception_kept h) (Kept.ite (State.applyEffect_kept h (hb _ _ h)) (State.exception_kept h))

theorem State.insn_kept {T : Nat} {r s : State} {ln cost : Nat} {l : Bool} {b : Body} (h : Kept T r s)
    (hb : ∀ u d, Kept T r u → KeptE T r (b u d)) (hT : Within 16789518 T) : KeptO T r (s.insn ln cost l b) := by
  unfold State.insn
  split
  · exact .next (State.insnGo_kept h hb)
  · exact .next h

/-! ## Machine/Alu.lean -/

theorem aluBody_kept {T : Nat} {r s : State} {x0 : ℕ} {x1 : ℕ} {x2 : ℕ} {x3 : Bool} {x4 : Bool} {x5 : Word → Word → Alu 32} {x7 : Cycle} (h : Kept T r s) (hT : Within 0 T) : KeptE T r (aluBody x0 x1 x2 x3 x4 x5 s x7) := by
  unfold aluBody
  repeat' first
    | with_reducible apply KeptE.ite
    | with_reducible apply Kept.ite
    | with_reducible assumption
    | exact Within.of hT rfl
    | with_reducible apply KeptE.next
    | with_reducible apply KeptE.trap
    | with_reducible apply KeptE.jump
    | with_reducible apply KeptE.back
    | with_reducible apply KeptE.stop

theorem immBody_kept {T : Nat} {r s : State} {x0 : ℕ} {x1 : ℕ} {x2 : BitVec 16} {x3 : Bool} {x4 : Word → BitVec 16 → Word × ℕ} {x6 : Cycle} (h : Kept T r s) (hT : Within 0 T) : KeptE T r (immBody x0 x1 x2 x3 x4 s x6) := by
  unfold immBody
  repeat' first
    | with_reducible apply KeptE.ite
    | with_reducible apply Kept.ite
    | with_reducible assumption
    | exact Within.of hT rfl
    | with_reducible apply KeptE.next
    | with_reducible apply KeptE.trap
    | with_reducible apply KeptE.jump
    | with_reducible apply KeptE.back
    | with_reducible apply KeptE.stop

theorem wideBody_kept {T : Nat} {r s : State} {x0 : ℕ} {x1 : ℕ} {x2 : ℕ} {x3 : Bool} {x4 : WideForm} {x5 : BitVec 64 → BitVec 64 → Alu 64} {x7 : Cycle} (h : Kept T r s) (hT : Within 0 T) : KeptE T r (wideBody x0 x1 x2 x3 x4 x5 s x7) := by
  unfold wideBody
  repeat' first
    | with_reducible apply KeptE.ite
    | with_reducible apply Kept.ite
    | with_reducible assumption
    | exact Within.of hT rfl
    | with_reducible apply KeptE.next
    | with_reducible apply KeptE.trap
    | with_reducible apply KeptE.jump
    | with_reducible apply KeptE.back
    | with_reducible apply KeptE.stop

/-! ## Machine/SogInt.lean -/

theorem execAdd_kept {T : Nat} {r s : State} {x0 : Fin 4} {x1 : Fin 32} {x2 : Fin 32} {x3 : Fin 32} {x4 : Bool} (h : Kept T r s) (hT : Within 16789518 T) : KeptO T r (execAdd x0 x1 x2 x3 x4 s) := by
  unfold execAdd
  repeat' first
    | with_reducible assumption
    | exact Within.of hT rfl
    | with_reducible apply KeptO.next
    | with_reducible apply KeptE.next
    | with_reducible apply KeptE.trap
    | with_reducible apply KeptE.jump
    | with_reducible apply KeptE.back
    | with_reducible apply KeptE.stop
    | (with_reducible apply State.insn_kept; on_goal 2 => (intro _ _ _; beta_reduce))
    | with_reducible apply aluBody_kept

theorem execSub_kept {T : Nat} {r s : State} {x0 : Fin 4} {x1 : Fin 32} {x2 : Fin 32} {x3 : Fin 32} {x4 : Bool} (h : Kept T r s) (hT : Within 16789518 T) : KeptO T r (execSub x0 x1 x2 x3 x4 s) := by
  unfold execSub
  repeat' first
    | with_reducible assumption
    | exact Within.of hT rfl
    | with_reducible apply KeptO.next
    | with_reducible apply KeptE.next
    | with_reducible apply KeptE.trap
    | with_reducible apply KeptE.jump
    | with_reducible apply KeptE.back
    | with_reducible apply KeptE.stop
    | (with_reducible apply State.insn_kept; on_goal 2 => (intro _ _ _; beta_reduce))
    | with_reducible apply aluBody_kept

theorem execAdds_kept {T : Nat} {r s : State} {x0 : Fin 4} {x1 : Fin 32} {x2 : Fin 32} {x3 : Fin 32} {x4 : Bool} (h : Kept T r s) (hT : Within 16789518 T) : KeptO T r (execAdds x0 x1 x2 x3 x4 s) := by
  unfold execAdds
  repeat' first
    | with_reducible assumption
    | exact Within.of hT rfl
    | with_reducible apply KeptO.next
    | with_reducible apply KeptE.next
    | with_reducible apply KeptE.trap
    | with_reducible apply KeptE.jump
    | with_reducible apply KeptE.back
    | with_reducible apply KeptE.stop
    | (with_reducible apply State.insn_kept; on_goal 2 => (intro _ _ _; beta_reduce))
    | with_reducible apply aluBody_kept

theorem execSubs_kept {T : Nat} {r s : State} {x0 : Fin 4} {x1 : Fin 32} {x2 : Fin 32} {x3 : Fin 32} {x4 : Bool} (h : Kept T r s) (hT : Within 16789518 T) : KeptO T r (execSubs x0 x1 x2 x3 x4 s) := by
  unfold execSubs
  repeat' first
    | with_reducible assumption
    | exact Within.of hT rfl
    | with_reducible apply KeptO.next
    | with_reducible apply KeptE.next
    | with_reducible apply KeptE.trap
    | with_reducible apply KeptE.jump
    | with_reducible apply KeptE.back
    | with_reducible apply KeptE.stop
    | (with_reducible apply State.insn_kept; on_goal 2 => (intro _ _ _; beta_reduce))
    | with_reducible apply aluBody_kept

theorem execAddus_kept {T : Nat} {r s : State} {x0 : Fin 4} {x1 : Fin 32} {x2 : Fin 32} {x3 : Fin 32} {x4 : Bool} (h : Kept T r s) (hT : Within 16789518 T) : KeptO T r (execAddus x0 x1 x2 x3 x4 s) := by
  unfold execAddus
  repeat' first
    | with_reducible assumption
    | exact Within.of hT rfl
    | with_reducible apply KeptO.next
    | with_reducible apply KeptE.next
    | with_reducible apply KeptE.trap
    | with_reducible apply KeptE.jump
    | with_reducible apply KeptE.back
    | with_reducible apply KeptE.stop
    | (with_reducible apply State.insn_kept; on_goal 2 => (intro _ _ _; beta_reduce))
    | with_reducible apply aluBody_kept

theorem execSubus_kept {T : Nat} {r s : State} {x0 : Fin 4} {x1 : Fin 32} {x2 : Fin 32} {x3 : Fin 32} {x4 : Bool} (h : Kept T r s) (hT : Within 16789518 T) : KeptO T r (execSubus x0 x1 x2 x3 x4 s) := by
  unfold execSubus
  repeat' first
    | with_reducible assumption
    | exact Within.of hT rfl
    | with_reducible apply KeptO.next
    | with_reducible apply KeptE.next
    | with_reducible apply KeptE.trap
    | with_reducible apply KeptE.jump
    | with_reducible apply KeptE.back
    | with_reducible apply KeptE.stop
    | (with_reducible apply State.insn_kept; on_goal 2 => (intro _ _ _; beta_reduce))
    | with_reducible apply aluBody_kept

theorem execMul_kept {T : Nat} {r s : State} {x0 : Fin 4} {x1 : Fin 32} {x2 : Fin 32} {x3 : Fin 32} {x4 : Bool} (h : Kept T r s) (hT : Within 16789518 T) : KeptO T r (execMul x0 x1 x2 x3 x4 s) := by
  unfold execMul
  repeat' first
    | with_reducible assumption
    | exact Within.of hT rfl
    | with_reducible apply KeptO.next
    | with_reducible apply KeptE.next
    | with_reducible apply KeptE.trap
    | with_reducible apply KeptE.jump
    | with_reducible apply KeptE.back
    | with_reducible apply KeptE.stop
    | (with_reducible apply State.insn_kept; on_goal 2 => (intro _ _ _; beta_reduce))
    | with_reducible apply aluBody_kept

theorem execMulh_kept {T : Nat} {r s : State} {x0 : Fin 4} {x1 : Fin 32} {x2 : Fin 32} {x3 : Fin 32} {x4 : Bool} (h : Kept T r s) (hT : Within 16789518 T) : KeptO T r (execMulh x0 x1 x2 x3 x4 s) := by
  unfold execMulh
  repeat' first
    | with_reducible assumption
    | exact Within.of hT rfl
    | with_reducible apply KeptO.next
    | with_reducible apply KeptE.next
    | with_reducible apply KeptE.trap
    | with_reducible apply KeptE.jump
    | with_reducible apply KeptE.back
    | with_reducible apply KeptE.stop
    | (with_reducible apply State.insn_kept; on_goal 2 => (intro _ _ _; beta_reduce))
    | with_reducible apply aluBody_kept

theorem execMulhu_kept {T : Nat} {r s : State} {x0 : Fin 4} {x1 : Fin 32} {x2 : Fin 32} {x3 : Fin 32} {x4 : Bool} (h : Kept T r s) (hT : Within 16789518 T) : KeptO T r (execMulhu x0 x1 x2 x3 x4 s) := by
  unfold execMulhu
  repeat' first
    | with_reducible assumption
    | exact Within.of hT rfl
    | with_reducible apply KeptO.next
    | with_reducible apply KeptE.next
    | with_reducible apply KeptE.trap
    | with_reducible apply KeptE.jump
    | with_reducible apply KeptE.back
    | with_reducible apply KeptE.stop
    | (with_reducible apply State.insn_kept; on_goal 2 => (intro _ _ _; beta_reduce))
    | with_reducible apply aluBody_kept

theorem execMuls_kept {T : Nat} {r s : State} {x0 : Fin 4} {x1 : Fin 32} {x2 : Fin 32} {x3 : Fin 32} {x4 : Bool} (h : Kept T r s) (hT : Within 16789518 T) : KeptO T r (execMuls x0 x1 x2 x3 x4 s) := by
  unfold execMuls
  repeat' first
    | with_reducible assumption
    | exact Within.of hT rfl
    | with_reducible apply KeptO.next
    | with_reducible apply KeptE.next
    | with_reducible apply KeptE.trap
    | with_reducible apply KeptE.jump
    | with_reducible apply KeptE.back
    | with_reducible apply KeptE.stop
    | (with_reducible apply State.insn_kept; on_goal 2 => (intro _ _ _; beta_reduce))
    | with_reducible apply aluBody_kept

theorem execDiv_kept {T : Nat} {r s : State} {x0 : Fin 4} {x1 : Fin 32} {x2 : Fin 32} {x3 : Fin 32} {x4 : Bool} (h : Kept T r s) (hT : Within 16789518 T) : KeptO T r (execDiv x0 x1 x2 x3 x4 s) := by
  unfold execDiv
  repeat' first
    | with_reducible assumption
    | exact Within.of hT rfl
    | with_reducible apply KeptO.next
    | with_reducible apply KeptE.next
    | with_reducible apply KeptE.trap
    | with_reducible apply KeptE.jump
    | with_reducible apply KeptE.back
    | with_reducible apply KeptE.stop
    | (with_reducible apply State.insn_kept; on_goal 2 => (intro _ _ _; beta_reduce))
    | with_reducible apply aluBody_kept

theorem execDivu_kept {T : Nat} {r s : State} {x0 : Fin 4} {x1 : Fin 32} {x2 : Fin 32} {x3 : Fin 32} {x4 : Bool} (h : Kept T r s) (hT : Within 16789518 T) : KeptO T r (execDivu x0 x1 x2 x3 x4 s) := by
  unfold execDivu
  repeat' first
    | with_reducible assumption
    | exact Within.of hT rfl
    | with_reducible apply KeptO.next
    | with_reducible apply KeptE.next
    | with_reducible apply KeptE.trap
    | with_reducible apply KeptE.jump
    | with_reducible apply KeptE.back
    | with_reducible apply KeptE.stop
    | (with_reducible apply State.insn_kept; on_goal 2 => (intro _ _ _; beta_reduce))
    | with_reducible apply aluBody_kept

theorem execRem_kept {T : Nat} {r s : State} {x0 : Fin 4} {x1 : Fin 32} {x2 : Fin 32} {x3 : Fin 32} {x4 : Bool} (h : Kept T r s) (hT : Within 16789518 T) : KeptO T r (execRem x0 x1 x2 x3 x4 s) := by
  unfold execRem
  repeat' first
    | with_reducible assumption
    | exact Within.of hT rfl
    | with_reducible apply KeptO.next
    | with_reducible apply KeptE.next
    | with_reducible apply KeptE.trap
    | with_reducible apply KeptE.jump
    | with_reducible apply KeptE.back
    | with_reducible apply KeptE.stop
    | (with_reducible apply State.insn_kept; on_goal 2 => (intro _ _ _; beta_reduce))
    | with_reducible apply aluBody_kept

theorem execRemu_kept {T : Nat} {r s : State} {x0 : Fin 4} {x1 : Fin 32} {x2 : Fin 32} {x3 : Fin 32} {x4 : Bool} (h : Kept T r s) (hT : Within 16789518 T) : KeptO T r (execRemu x0 x1 x2 x3 x4 s) := by
  unfold execRemu
  repeat' first
    | with_reducible assumption
    | exact Within.of hT rfl
    | with_reducible apply KeptO.next
    | with_reducible apply KeptE.next
    | with_reducible apply KeptE.trap
    | with_reducible apply KeptE.jump
    | with_reducible apply KeptE.back
    | with_reducible apply KeptE.stop
    | (with_reducible apply State.insn_kept; on_goal 2 => (intro _ _ _; beta_reduce))
    | with_reducible apply aluBody_kept

theorem execAndReg_kept {T : Nat} {r s : State} {x0 : Fin 4} {x1 : Fin 32} {x2 : Fin 32} {x3 : Fin 32} {x4 : Bool} (h : Kept T r s) (hT : Within 16789518 T) : KeptO T r (execAndReg x0 x1 x2 x3 x4 s) := by
  unfold execAndReg
  repeat' first
    | with_reducible assumption
    | exact Within.of hT rfl
    | with_reducible apply KeptO.next
    | with_reducible apply KeptE.next
    | with_reducible apply KeptE.trap
    | with_reducible apply KeptE.jump
    | with_reducible apply KeptE.back
    | with_reducible apply KeptE.stop
    | (with_reducible apply State.insn_kept; on_goal 2 => (intro _ _ _; beta_reduce))
    | with_reducible apply aluBody_kept

theorem execOrReg_kept {T : Nat} {r s : State} {x0 : Fin 4} {x1 : Fin 32} {x2 : Fin 32} {x3 : Fin 32} {x4 : Bool} (h : Kept T r s) (hT : Within 16789518 T) : KeptO T r (execOrReg x0 x1 x2 x3 x4 s) := by
  unfold execOrReg
  repeat' first
    | with_reducible assumption
    | exact Within.of hT rfl
    | with_reducible apply KeptO.next
    | with_reducible apply KeptE.next
    | with_reducible apply KeptE.trap
    | with_reducible apply KeptE.jump
    | with_reducible apply KeptE.back
    | with_reducible apply KeptE.stop
    | (with_reducible apply State.insn_kept; on_goal 2 => (intro _ _ _; beta_reduce))
    | with_reducible apply aluBody_kept

theorem execXorReg_kept {T : Nat} {r s : State} {x0 : Fin 4} {x1 : Fin 32} {x2 : Fin 32} {x3 : Fin 32} {x4 : Bool} (h : Kept T r s) (hT : Within 16789518 T) : KeptO T r (execXorReg x0 x1 x2 x3 x4 s) := by
  unfold execXorReg
  repeat' first
    | with_reducible assumption
    | exact Within.of hT rfl
    | with_reducible apply KeptO.next
    | with_reducible apply KeptE.next
    | with_reducible apply KeptE.trap
    | with_reducible apply KeptE.jump
    | with_reducible apply KeptE.back
    | with_reducible apply KeptE.stop
    | (with_reducible apply State.insn_kept; on_goal 2 => (intro _ _ _; beta_reduce))
    | with_reducible apply aluBody_kept

theorem execAndnReg_kept {T : Nat} {r s : State} {x0 : Fin 4} {x1 : Fin 32} {x2 : Fin 32} {x3 : Fin 32} {x4 : Bool} (h : Kept T r s) (hT : Within 16789518 T) : KeptO T r (execAndnReg x0 x1 x2 x3 x4 s) := by
  unfold execAndnReg
  repeat' first
    | with_reducible assumption
    | exact Within.of hT rfl
    | with_reducible apply KeptO.next
    | with_reducible apply KeptE.next
    | with_reducible apply KeptE.trap
    | with_reducible apply KeptE.jump
    | with_reducible apply KeptE.back
    | with_reducible apply KeptE.stop
    | (with_reducible apply State.insn_kept; on_goal 2 => (intro _ _ _; beta_reduce))
    | with_reducible apply aluBody_kept

theorem execSll_kept {T : Nat} {r s : State} {x0 : Fin 4} {x1 : Fin 32} {x2 : Fin 32} {x3 : Fin 32} {x4 : Bool} (h : Kept T r s) (hT : Within 16789518 T) : KeptO T r (execSll x0 x1 x2 x3 x4 s) := by
  unfold execSll
  repeat' first
    | with_reducible assumption
    | exact Within.of hT rfl
    | with_reducible apply KeptO.next
    | with_reducible apply KeptE.next
    | with_reducible apply KeptE.trap
    | with_reducible apply KeptE.jump
    | with_reducible apply KeptE.back
    | with_reducible apply KeptE.stop
    | (with_reducible apply State.insn_kept; on_goal 2 => (intro _ _ _; beta_reduce))
    | with_reducible apply aluBody_kept

theorem execSrl_kept {T : Nat} {r s : State} {x0 : Fin 4} {x1 : Fin 32} {x2 : Fin 32} {x3 : Fin 32} {x4 : Bool} (h : Kept T r s) (hT : Within 16789518 T) : KeptO T r (execSrl x0 x1 x2 x3 x4 s) := by
  unfold execSrl
  repeat' first
    | with_reducible assumption
    | exact Within.of hT rfl
    | with_reducible apply KeptO.next
    | with_reducible apply KeptE.next
    | with_reducible apply KeptE.trap
    | with_reducible apply KeptE.jump
    | with_reducible apply KeptE.back
    | with_reducible apply KeptE.stop
    | (with_reducible apply State.insn_kept; on_goal 2 => (intro _ _ _; beta_reduce))
    | with_reducible apply aluBody_kept

theorem execSra_kept {T : Nat} {r s : State} {x0 : Fin 4} {x1 : Fin 32} {x2 : Fin 32} {x3 : Fin 32} {x4 : Bool} (h : Kept T r s) (hT : Within 16789518 T) : KeptO T r (execSra x0 x1 x2 x3 x4 s) := by
  unfold execSra
  repeat' first
    | with_reducible assumption
    | exact Within.of hT rfl
    | with_reducible apply KeptO.next
    | with_reducible apply KeptE.next
    | with_reducible apply KeptE.trap
    | with_reducible apply KeptE.jump
    | with_reducible apply KeptE.back
    | with_reducible apply KeptE.stop
    | (with_reducible apply State.insn_kept; on_goal 2 => (intro _ _ _; beta_reduce))
    | with_reducible apply aluBody_kept

theorem execRor_kept {T : Nat} {r s : State} {x0 : Fin 4} {x1 : Fin 32} {x2 : Fin 32} {x3 : Fin 32} {x4 : Bool} (h : Kept T r s) (hT : Within 16789518 T) : KeptO T r (execRor x0 x1 x2 x3 x4 s) := by
  unfold execRor
  repeat' first
    | with_reducible assumption
    | exact Within.of hT rfl
    | with_reducible apply KeptO.next
    | with_reducible apply KeptE.next
    | with_reducible apply KeptE.trap
    | with_reducible apply KeptE.jump
    | with_reducible apply KeptE.back
    | with_reducible apply KeptE.stop
    | (with_reducible apply State.insn_kept; on_goal 2 => (intro _ _ _; beta_reduce))
    | with_reducible apply aluBody_kept

theorem execSlt_kept {T : Nat} {r s : State} {x0 : Fin 4} {x1 : Fin 32} {x2 : Fin 32} {x3 : Fin 32} {x4 : Bool} (h : Kept T r s) (hT : Within 16789518 T) : KeptO T r (execSlt x0 x1 x2 x3 x4 s) := by
  unfold execSlt
  repeat' first
    | with_reducible assumption
    | exact Within.of hT rfl
    | with_reducible apply KeptO.next
    | with_reducible apply KeptE.next
    | with_reducible apply KeptE.trap
    | with_reducible apply KeptE.jump
    | with_reducible apply KeptE.back
    | with_reducible apply KeptE.stop
    | (with_reducible apply State.insn_kept; on_goal 2 => (intro _ _ _; beta_reduce))
    | with_reducible apply aluBody_kept

theorem execSltu_kept {T : Nat} {r s : State} {x0 : Fin 4} {x1 : Fin 32} {x2 : Fin 32} {x3 : Fin 32} {x4 : Bool} (h : Kept T r s) (hT : Within 16789518 T) : KeptO T r (execSltu x0 x1 x2 x3 x4 s) := by
  unfold execSltu
  repeat' first
    | with_reducible assumption
    | exact Within.of hT rfl
    | with_reducible apply KeptO.next
    | with_reducible apply KeptE.next
    | with_reducible apply KeptE.trap
    | with_reducible apply KeptE.jump
    | with_reducible apply KeptE.back
    | with_reducible apply KeptE.stop
    | (with_reducible apply State.insn_kept; on_goal 2 => (intro _ _ _; beta_reduce))
    | with_reducible apply aluBody_kept

theorem execMinS_kept {T : Nat} {r s : State} {x0 : Fin 4} {x1 : Fin 32} {x2 : Fin 32} {x3 : Fin 32} {x4 : Bool} (h : Kept T r s) (hT : Within 16789518 T) : KeptO T r (execMinS x0 x1 x2 x3 x4 s) := by
  unfold execMinS
  repeat' first
    | with_reducible assumption
    | exact Within.of hT rfl
    | with_reducible apply KeptO.next
    | with_reducible apply KeptE.next
    | with_reducible apply KeptE.trap
    | with_reducible apply KeptE.jump
    | with_reducible apply KeptE.back
    | with_reducible apply KeptE.stop
    | (with_reducible apply State.insn_kept; on_goal 2 => (intro _ _ _; beta_reduce))
    | with_reducible apply aluBody_kept

theorem execMaxS_kept {T : Nat} {r s : State} {x0 : Fin 4} {x1 : Fin 32} {x2 : Fin 32} {x3 : Fin 32} {x4 : Bool} (h : Kept T r s) (hT : Within 16789518 T) : KeptO T r (execMaxS x0 x1 x2 x3 x4 s) := by
  unfold execMaxS
  repeat' first
    | with_reducible assumption
    | exact Within.of hT rfl
    | with_reducible apply KeptO.next
    | with_reducible apply KeptE.next
    | with_reducible apply KeptE.trap
    | with_reducible apply KeptE.jump
    | with_reducible apply KeptE.back
    | with_reducible apply KeptE.stop
    | (with_reducible apply State.insn_kept; on_goal 2 => (intro _ _ _; beta_reduce))
    | with_reducible apply aluBody_kept

theorem execMinu_kept {T : Nat} {r s : State} {x0 : Fin 4} {x1 : Fin 32} {x2 : Fin 32} {x3 : Fin 32} {x4 : Bool} (h : Kept T r s) (hT : Within 16789518 T) : KeptO T r (execMinu x0 x1 x2 x3 x4 s) := by
  unfold execMinu
  repeat' first
    | with_reducible assumption
    | exact Within.of hT rfl
    | with_reducible apply KeptO.next
    | with_reducible apply KeptE.next
    | with_reducible apply KeptE.trap
    | with_reducible apply KeptE.jump
    | with_reducible apply KeptE.back
    | with_reducible apply KeptE.stop
    | (with_reducible apply State.insn_kept; on_goal 2 => (intro _ _ _; beta_reduce))
    | with_reducible apply aluBody_kept

theorem execMaxu_kept {T : Nat} {r s : State} {x0 : Fin 4} {x1 : Fin 32} {x2 : Fin 32} {x3 : Fin 32} {x4 : Bool} (h : Kept T r s) (hT : Within 16789518 T) : KeptO T r (execMaxu x0 x1 x2 x3 x4 s) := by
  unfold execMaxu
  repeat' first
    | with_reducible assumption
    | exact Within.of hT rfl
    | with_reducible apply KeptO.next
    | with_reducible apply KeptE.next
    | with_reducible apply KeptE.trap
    | with_reducible apply KeptE.jump
    | with_reducible apply KeptE.back
    | with_reducible apply KeptE.stop
    | (with_reducible apply State.insn_kept; on_goal 2 => (intro _ _ _; beta_reduce))
    | with_reducible apply aluBody_kept

theorem execAbs_kept {T : Nat} {r s : State} {x0 : Fin 4} {x1 : Fin 32} {x2 : Fin 32} {x3 : Fin 32} {x4 : Bool} (h : Kept T r s) (hT : Within 16789518 T) : KeptO T r (execAbs x0 x1 x2 x3 x4 s) := by
  unfold execAbs
  repeat' first
    | with_reducible assumption
    | exact Within.of hT rfl
    | with_reducible apply KeptO.next
    | with_reducible apply KeptE.next
    | with_reducible apply KeptE.trap
    | with_reducible apply KeptE.jump
    | with_reducible apply KeptE.back
    | with_reducible apply KeptE.stop
    | (with_reducible apply State.insn_kept; on_goal 2 => (intro _ _ _; beta_reduce))
    | with_reducible apply aluBody_kept

theorem execClz_kept {T : Nat} {r s : State} {x0 : Fin 4} {x1 : Fin 32} {x2 : Fin 32} {x3 : Fin 32} {x4 : Bool} (h : Kept T r s) (hT : Within 16789518 T) : KeptO T r (execClz x0 x1 x2 x3 x4 s) := by
  unfold execClz
  repeat' first
    | with_reducible assumption
    | exact Within.of hT rfl
    | with_reducible apply KeptO.next
    | with_reducible apply KeptE.next
    | with_reducible apply KeptE.trap
    | with_reducible apply KeptE.jump
    | with_reducible apply KeptE.back
    | with_reducible apply KeptE.stop
    | (with_reducible apply State.insn_kept; on_goal 2 => (intro _ _ _; beta_reduce))
    | with_reducible apply aluBody_kept

theorem execAddi_kept {T : Nat} {r s : State} {x0 : Fin 4} {x1 : Fin 32} {x2 : Fin 32} {x3 : BitVec 16} (h : Kept T r s) (hT : Within 16789518 T) : KeptO T r (execAddi x0 x1 x2 x3 s) := by
  unfold execAddi
  repeat' first
    | with_reducible assumption
    | exact Within.of hT rfl
    | with_reducible apply KeptO.next
    | with_reducible apply KeptE.next
    | with_reducible apply KeptE.trap
    | with_reducible apply KeptE.jump
    | with_reducible apply KeptE.back
    | with_reducible apply KeptE.stop
    | (with_reducible apply State.insn_kept; on_goal 2 => (intro _ _ _; beta_reduce))
    | with_reducible apply immBody_kept

theorem execAddis_kept {T : Nat} {r s : State} {x0 : Fin 4} {x1 : Fin 32} {x2 : Fin 32} {x3 : BitVec 16} (h : Kept T r s) (hT : Within 16789518 T) : KeptO T r (execAddis x0 x1 x2 x3 s) := by
  unfold execAddis
  repeat' first
    | with_reducible assumption
    | exact Within.of hT rfl
    | with_reducible apply KeptO.next
    | with_reducible apply KeptE.next
    | with_reducible apply KeptE.trap
    | with_reducible apply KeptE.jump
    | with_reducible apply KeptE.back
    | with_reducible apply KeptE.stop
    | (with_reducible apply State.insn_kept; on_goal 2 => (intro _ _ _; beta_reduce))
    | with_reducible apply immBody_kept

theorem execAndi_kept {T : Nat} {r s : State} {x0 : Fin 4} {x1 : Fin 32} {x2 : Fin 32} {x3 : BitVec 16} (h : Kept T r s) (hT : Within 16789518 T) : KeptO T r (execAndi x0 x1 x2 x3 s) := by
  unfold execAndi
  repeat' first
    | with_reducible assumption
    | exact Within.of hT rfl
    | with_reducible apply KeptO.next
    | with_reducible apply KeptE.next
    | with_reducible apply KeptE.trap
    | with_reducible apply KeptE.jump
    | with_reducible apply KeptE.back
    | with_reducible apply KeptE.stop
    | (with_reducible apply State.insn_kept; on_goal 2 => (intro _ _ _; beta_reduce))
    | with_reducible apply immBody_kept

theorem execOri_kept {T : Nat} {r s : State} {x0 : Fin 4} {x1 : Fin 32} {x2 : Fin 32} {x3 : BitVec 16} (h : Kept T r s) (hT : Within 16789518 T) : KeptO T r (execOri x0 x1 x2 x3 s) := by
  unfold execOri
  repeat' first
    | with_reducible assumption
    | exact Within.of hT rfl
    | with_reducible apply KeptO.next
    | with_reducible apply KeptE.next
    | with_reducible apply KeptE.trap
    | with_reducible apply KeptE.jump
    | with_reducible apply KeptE.back
    | with_reducible apply KeptE.stop
    | (with_reducible apply State.insn_kept; on_goal 2 => (intro _ _ _; beta_reduce))
    | with_reducible apply immBody_kept

theorem execXori_kept {T : Nat} {r s : State} {x0 : Fin 4} {x1 : Fin 32} {x2 : Fin 32} {x3 : BitVec 16} (h : Kept T r s) (hT : Within 16789518 T) : KeptO T r (execXori x0 x1 x2 x3 s) := by
  unfold execXori
  repeat' first
    | with_reducible assumption
    | exact Within.of hT rfl
    | with_reducible apply KeptO.next
    | with_reducible apply KeptE.next
    | with_reducible apply KeptE.trap
    | with_reducible apply KeptE.jump
    | with_reducible apply KeptE.back
    | with_reducible apply KeptE.stop
    | (with_reducible apply State.insn_kept; on_goal 2 => (intro _ _ _; beta_reduce))
    | with_reducible apply immBody_kept

theorem execLui_kept {T : Nat} {r s : State} {x0 : Fin 4} {x1 : Fin 32} {x2 : Fin 32} {x3 : BitVec 16} (h : Kept T r s) (hT : Within 16789518 T) : KeptO T r (execLui x0 x1 x2 x3 s) := by
  unfold execLui
  repeat' first
    | with_reducible assumption
    | exact Within.of hT rfl
    | with_reducible apply KeptO.next
    | with_reducible apply KeptE.next
    | with_reducible apply KeptE.trap
    | with_reducible apply KeptE.jump
    | with_reducible apply KeptE.back
    | with_reducible apply KeptE.stop
    | (with_reducible apply State.insn_kept; on_goal 2 => (intro _ _ _; beta_reduce))
    | with_reducible apply immBody_kept

theorem execSlti_kept {T : Nat} {r s : State} {x0 : Fin 4} {x1 : Fin 32} {x2 : Fin 32} {x3 : BitVec 16} (h : Kept T r s) (hT : Within 16789518 T) : KeptO T r (execSlti x0 x1 x2 x3 s) := by
  unfold execSlti
  repeat' first
    | with_reducible assumption
    | exact Within.of hT rfl
    | with_reducible apply KeptO.next
    | with_reducible apply KeptE.next
    | with_reducible apply KeptE.trap
    | with_reducible apply KeptE.jump
    | with_reducible apply KeptE.back
    | with_reducible apply KeptE.stop
    | (with_reducible apply State.insn_kept; on_goal 2 => (intro _ _ _; beta_reduce))
    | with_reducible apply immBody_kept

theorem execSltiu_kept {T : Nat} {r s : State} {x0 : Fin 4} {x1 : Fin 32} {x2 : Fin 32} {x3 : BitVec 16} (h : Kept T r s) (hT : Within 16789518 T) : KeptO T r (execSltiu x0 x1 x2 x3 s) := by
  unfold execSltiu
  repeat' first
    | with_reducible assumption
    | exact Within.of hT rfl
    | with_reducible apply KeptO.next
    | with_reducible apply KeptE.next
    | with_reducible apply KeptE.trap
    | with_reducible apply KeptE.jump
    | with_reducible apply KeptE.back
    | with_reducible apply KeptE.stop
    | (with_reducible apply State.insn_kept; on_goal 2 => (intro _ _ _; beta_reduce))
    | with_reducible apply immBody_kept

/-! ## Machine/SogFix.lean -/

theorem execQmul31_kept {T : Nat} {r s : State} {x0 : Fin 4} {x1 : Fin 32} {x2 : Fin 32} {x3 : Fin 32} {x4 : Bool} (h : Kept T r s) (hT : Within 16789518 T) : KeptO T r (execQmul31 x0 x1 x2 x3 x4 s) := by
  unfold execQmul31
  repeat' first
    | with_reducible assumption
    | exact Within.of hT rfl
    | with_reducible apply KeptO.next
    | with_reducible apply KeptE.next
    | with_reducible apply KeptE.trap
    | with_reducible apply KeptE.jump
    | with_reducible apply KeptE.back
    | with_reducible apply KeptE.stop
    | (with_reducible apply State.insn_kept; on_goal 2 => (intro _ _ _; beta_reduce))
    | with_reducible apply aluBody_kept

theorem execQmulr31_kept {T : Nat} {r s : State} {x0 : Fin 4} {x1 : Fin 32} {x2 : Fin 32} {x3 : Fin 32} {x4 : Bool} (h : Kept T r s) (hT : Within 16789518 T) : KeptO T r (execQmulr31 x0 x1 x2 x3 x4 s) := by
  unfold execQmulr31
  repeat' first
    | with_reducible assumption
    | exact Within.of hT rfl
    | with_reducible apply KeptO.next
    | with_reducible apply KeptE.next
    | with_reducible apply KeptE.trap
    | with_reducible apply KeptE.jump
    | with_reducible apply KeptE.back
    | with_reducible apply KeptE.stop
    | (with_reducible apply State.insn_kept; on_goal 2 => (intro _ _ _; beta_reduce))
    | with_reducible apply aluBody_kept

theorem execQadd15_kept {T : Nat} {r s : State} {x0 : Fin 4} {x1 : Fin 32} {x2 : Fin 32} {x3 : Fin 32} {x4 : Bool} (h : Kept T r s) (hT : Within 16789518 T) : KeptO T r (execQadd15 x0 x1 x2 x3 x4 s) := by
  unfold execQadd15
  repeat' first
    | with_reducible assumption
    | exact Within.of hT rfl
    | with_reducible apply KeptO.next
    | with_reducible apply KeptE.next
    | with_reducible apply KeptE.trap
    | with_reducible apply KeptE.jump
    | with_reducible apply KeptE.back
    | with_reducible apply KeptE.stop
    | (with_reducible apply State.insn_kept; on_goal 2 => (intro _ _ _; beta_reduce))
    | with_reducible apply aluBody_kept

theorem execQsub15_kept {T : Nat} {r s : State} {x0 : Fin 4} {x1 : Fin 32} {x2 : Fin 32} {x3 : Fin 32} {x4 : Bool} (h : Kept T r s) (hT : Within 16789518 T) : KeptO T r (execQsub15 x0 x1 x2 x3 x4 s) := by
  unfold execQsub15
  repeat' first
    | with_reducible assumption
    | exact Within.of hT rfl
    | with_reducible apply KeptO.next
    | with_reducible apply KeptE.next
    | with_reducible apply KeptE.trap
    | with_reducible apply KeptE.jump
    | with_reducible apply KeptE.back
    | with_reducible apply KeptE.stop
    | (with_reducible apply State.insn_kept; on_goal 2 => (intro _ _ _; beta_reduce))
    | with_reducible apply aluBody_kept

theorem execQmul15_kept {T : Nat} {r s : State} {x0 : Fin 4} {x1 : Fin 32} {x2 : Fin 32} {x3 : Fin 32} {x4 : Bool} (h : Kept T r s) (hT : Within 16789518 T) : KeptO T r (execQmul15 x0 x1 x2 x3 x4 s) := by
  unfold execQmul15
  repeat' first
    | with_reducible assumption
    | exact Within.of hT rfl
    | with_reducible apply KeptO.next
    | with_reducible apply KeptE.next
    | with_reducible apply KeptE.trap
    | with_reducible apply KeptE.jump
    | with_reducible apply KeptE.back
    | with_reducible apply KeptE.stop
    | (with_reducible apply State.insn_kept; on_goal 2 => (intro _ _ _; beta_reduce))
    | with_reducible apply aluBody_kept

theorem execQshl31_kept {T : Nat} {r s : State} {x0 : Fin 4} {x1 : Fin 32} {x2 : Fin 32} {x3 : Fin 32} {x4 : Bool} (h : Kept T r s) (hT : Within 16789518 T) : KeptO T r (execQshl31 x0 x1 x2 x3 x4 s) := by
  unfold execQshl31
  repeat' first
    | with_reducible assumption
    | exact Within.of hT rfl
    | with_reducible apply KeptO.next
    | with_reducible apply KeptE.next
    | with_reducible apply KeptE.trap
    | with_reducible apply KeptE.jump
    | with_reducible apply KeptE.back
    | with_reducible apply KeptE.stop
    | (with_reducible apply State.insn_kept; on_goal 2 => (intro _ _ _; beta_reduce))
    | with_reducible apply aluBody_kept

theorem execQrsh31_kept {T : Nat} {r s : State} {x0 : Fin 4} {x1 : Fin 32} {x2 : Fin 32} {x3 : Fin 32} {x4 : Bool} (h : Kept T r s) (hT : Within 16789518 T) : KeptO T r (execQrsh31 x0 x1 x2 x3 x4 s) := by
  unfold execQrsh31
  repeat' first
    | with_reducible assumption
    | exact Within.of hT rfl
    | with_reducible apply KeptO.next
    | with_reducible apply KeptE.next
    | with_reducible apply KeptE.trap
    | with_reducible apply KeptE.jump
    | with_reducible apply KeptE.back
    | with_reducible apply KeptE.stop
    | (with_reducible apply State.insn_kept; on_goal 2 => (intro _ _ _; beta_reduce))
    | with_reducible apply aluBody_kept

theorem execQneg31_kept {T : Nat} {r s : State} {x0 : Fin 4} {x1 : Fin 32} {x2 : Fin 32} {x3 : Fin 32} {x4 : Bool} (h : Kept T r s) (hT : Within 16789518 T) : KeptO T r (execQneg31 x0 x1 x2 x3 x4 s) := by
  unfold execQneg31
  repeat' first
    | with_reducible assumption
    | exact Within.of hT rfl
    | with_reducible apply KeptO.next
    | with_reducible apply KeptE.next
    | with_reducible apply KeptE.trap
    | with_reducible apply KeptE.jump
    | with_reducible apply KeptE.back
    | with_reducible apply KeptE.stop
    | (with_reducible apply State.insn_kept; on_goal 2 => (intro _ _ _; beta_reduce))
    | with_reducible apply aluBody_kept

theorem execQpack15_kept {T : Nat} {r s : State} {x0 : Fin 4} {x1 : Fin 32} {x2 : Fin 32} {x3 : Fin 32} {x4 : Bool} (h : Kept T r s) (hT : Within 16789518 T) : KeptO T r (execQpack15 x0 x1 x2 x3 x4 s) := by
  unfold execQpack15
  repeat' first
    | with_reducible assumption
    | exact Within.of hT rfl
    | with_reducible apply KeptO.next
    | with_reducible apply KeptE.next
    | with_reducible apply KeptE.trap
    | with_reducible apply KeptE.jump
    | with_reducible apply KeptE.back
    | with_reducible apply KeptE.stop
    | (with_reducible apply State.insn_kept; on_goal 2 => (intro _ _ _; beta_reduce))
    | with_reducible apply aluBody_kept

/-! ## Machine/SogFlt.lean -/

theorem execFadd_kept {T : Nat} {r s : State} {x0 : Fin 4} {x1 : Fin 32} {x2 : Fin 32} {x3 : Fin 32} {x4 : Bool} (h : Kept T r s) (hT : Within 16789518 T) : KeptO T r (execFadd x0 x1 x2 x3 x4 s) := by
  unfold execFadd
  repeat' first
    | with_reducible assumption
    | exact Within.of hT rfl
    | with_reducible apply KeptO.next
    | with_reducible apply KeptE.next
    | with_reducible apply KeptE.trap
    | with_reducible apply KeptE.jump
    | with_reducible apply KeptE.back
    | with_reducible apply KeptE.stop
    | (with_reducible apply State.insn_kept; on_goal 2 => (intro _ _ _; beta_reduce))
    | with_reducible apply aluBody_kept

theorem execFsub_kept {T : Nat} {r s : State} {x0 : Fin 4} {x1 : Fin 32} {x2 : Fin 32} {x3 : Fin 32} {x4 : Bool} (h : Kept T r s) (hT : Within 16789518 T) : KeptO T r (execFsub x0 x1 x2 x3 x4 s) := by
  unfold execFsub
  repeat' first
    | with_reducible assumption
    | exact Within.of hT rfl
    | with_reducible apply KeptO.next
    | with_reducible apply KeptE.next
    | with_reducible apply KeptE.trap
    | with_reducible apply KeptE.jump
    | with_reducible apply KeptE.back
    | with_reducible apply KeptE.stop
    | (with_reducible apply State.insn_kept; on_goal 2 => (intro _ _ _; beta_reduce))
    | with_reducible apply aluBody_kept

theorem execFmul_kept {T : Nat} {r s : State} {x0 : Fin 4} {x1 : Fin 32} {x2 : Fin 32} {x3 : Fin 32} {x4 : Bool} (h : Kept T r s) (hT : Within 16789518 T) : KeptO T r (execFmul x0 x1 x2 x3 x4 s) := by
  unfold execFmul
  repeat' first
    | with_reducible assumption
    | exact Within.of hT rfl
    | with_reducible apply KeptO.next
    | with_reducible apply KeptE.next
    | with_reducible apply KeptE.trap
    | with_reducible apply KeptE.jump
    | with_reducible apply KeptE.back
    | with_reducible apply KeptE.stop
    | (with_reducible apply State.insn_kept; on_goal 2 => (intro _ _ _; beta_reduce))
    | with_reducible apply aluBody_kept

theorem execFdiv_kept {T : Nat} {r s : State} {x0 : Fin 4} {x1 : Fin 32} {x2 : Fin 32} {x3 : Fin 32} {x4 : Bool} (h : Kept T r s) (hT : Within 16789518 T) : KeptO T r (execFdiv x0 x1 x2 x3 x4 s) := by
  unfold execFdiv
  repeat' first
    | with_reducible assumption
    | exact Within.of hT rfl
    | with_reducible apply KeptO.next
    | with_reducible apply KeptE.next
    | with_reducible apply KeptE.trap
    | with_reducible apply KeptE.jump
    | with_reducible apply KeptE.back
    | with_reducible apply KeptE.stop
    | (with_reducible apply State.insn_kept; on_goal 2 => (intro _ _ _; beta_reduce))
    | with_reducible apply aluBody_kept

theorem execFsqrt_kept {T : Nat} {r s : State} {x0 : Fin 4} {x1 : Fin 32} {x2 : Fin 32} {x3 : Fin 32} {x4 : Bool} (h : Kept T r s) (hT : Within 16789518 T) : KeptO T r (execFsqrt x0 x1 x2 x3 x4 s) := by
  unfold execFsqrt
  repeat' first
    | with_reducible assumption
    | exact Within.of hT rfl
    | with_reducible apply KeptO.next
    | with_reducible apply KeptE.next
    | with_reducible apply KeptE.trap
    | with_reducible apply KeptE.jump
    | with_reducible apply KeptE.back
    | with_reducible apply KeptE.stop
    | (with_reducible apply State.insn_kept; on_goal 2 => (intro _ _ _; beta_reduce))
    | with_reducible apply aluBody_kept

theorem execFmin_kept {T : Nat} {r s : State} {x0 : Fin 4} {x1 : Fin 32} {x2 : Fin 32} {x3 : Fin 32} {x4 : Bool} (h : Kept T r s) (hT : Within 16789518 T) : KeptO T r (execFmin x0 x1 x2 x3 x4 s) := by
  unfold execFmin
  repeat' first
    | with_reducible assumption
    | exact Within.of hT rfl
    | with_reducible apply KeptO.next
    | with_reducible apply KeptE.next
    | with_reducible apply KeptE.trap
    | with_reducible apply KeptE.jump
    | with_reducible apply KeptE.back
    | with_reducible apply KeptE.stop
    | (with_reducible apply State.insn_kept; on_goal 2 => (intro _ _ _; beta_reduce))
    | with_reducible apply aluBody_kept

theorem execFmax_kept {T : Nat} {r s : State} {x0 : Fin 4} {x1 : Fin 32} {x2 : Fin 32} {x3 : Fin 32} {x4 : Bool} (h : Kept T r s) (hT : Within 16789518 T) : KeptO T r (execFmax x0 x1 x2 x3 x4 s) := by
  unfold execFmax
  repeat' first
    | with_reducible assumption
    | exact Within.of hT rfl
    | with_reducible apply KeptO.next
    | with_reducible apply KeptE.next
    | with_reducible apply KeptE.trap
    | with_reducible apply KeptE.jump
    | with_reducible apply KeptE.back
    | with_reducible apply KeptE.stop
    | (with_reducible apply State.insn_kept; on_goal 2 => (intro _ _ _; beta_reduce))
    | with_reducible apply aluBody_kept

theorem execFabs_kept {T : Nat} {r s : State} {x0 : Fin 4} {x1 : Fin 32} {x2 : Fin 32} {x3 : Fin 32} {x4 : Bool} (h : Kept T r s) (hT : Within 16789518 T) : KeptO T r (execFabs x0 x1 x2 x3 x4 s) := by
  unfold execFabs
  repeat' first
    | with_reducible assumption
    | exact Within.of hT rfl
    | with_reducible apply KeptO.next
    | with_reducible apply KeptE.next
    | with_reducible apply KeptE.trap
    | with_reducible apply KeptE.jump
    | with_reducible apply KeptE.back
    | with_reducible apply KeptE.stop
    | (with_reducible apply State.insn_kept; on_goal 2 => (intro _ _ _; beta_reduce))
    | with_reducible apply aluBody_kept

theorem execFneg_kept {T : Nat} {r s : State} {x0 : Fin 4} {x1 : Fin 32} {x2 : Fin 32} {x3 : Fin 32} {x4 : Bool} (h : Kept T r s) (hT : Within 16789518 T) : KeptO T r (execFneg x0 x1 x2 x3 x4 s) := by
  unfold execFneg
  repeat' first
    | with_reducible assumption
    | exact Within.of hT rfl
    | with_reducible apply KeptO.next
    | with_reducible apply KeptE.next
    | with_reducible apply KeptE.trap
    | with_reducible apply KeptE.jump
    | with_reducible apply KeptE.back
    | with_reducible apply KeptE.stop
    | (with_reducible apply State.insn_kept; on_goal 2 => (intro _ _ _; beta_reduce))
    | with_reducible apply aluBody_kept

theorem execFcvtsw_kept {T : Nat} {r s : State} {x0 : Fin 4} {x1 : Fin 32} {x2 : Fin 32} {x3 : Fin 32} {x4 : Bool} (h : Kept T r s) (hT : Within 16789518 T) : KeptO T r (execFcvtsw x0 x1 x2 x3 x4 s) := by
  unfold execFcvtsw
  repeat' first
    | with_reducible assumption
    | exact Within.of hT rfl
    | with_reducible apply KeptO.next
    | with_reducible apply KeptE.next
    | with_reducible apply KeptE.trap
    | with_reducible apply KeptE.jump
    | with_reducible apply KeptE.back
    | with_reducible apply KeptE.stop
    | (with_reducible apply State.insn_kept; on_goal 2 => (intro _ _ _; beta_reduce))
    | with_reducible apply aluBody_kept

theorem execFcvtws_kept {T : Nat} {r s : State} {x0 : Fin 4} {x1 : Fin 32} {x2 : Fin 32} {x3 : Fin 32} {x4 : Bool} (h : Kept T r s) (hT : Within 16789518 T) : KeptO T r (execFcvtws x0 x1 x2 x3 x4 s) := by
  unfold execFcvtws
  repeat' first
    | with_reducible assumption
    | exact Within.of hT rfl
    | with_reducible apply KeptO.next
    | with_reducible apply KeptE.next
    | with_reducible apply KeptE.trap
    | with_reducible apply KeptE.jump
    | with_reducible apply KeptE.back
    | with_reducible apply KeptE.stop
    | (with_reducible apply State.insn_kept; on_goal 2 => (intro _ _ _; beta_reduce))
    | with_reducible apply aluBody_kept

theorem execFcvtwsz_kept {T : Nat} {r s : State} {x0 : Fin 4} {x1 : Fin 32} {x2 : Fin 32} {x3 : Fin 32} {x4 : Bool} (h : Kept T r s) (hT : Within 16789518 T) : KeptO T r (execFcvtwsz x0 x1 x2 x3 x4 s) := by
  unfold execFcvtwsz
  repeat' first
    | with_reducible assumption
    | exact Within.of hT rfl
    | with_reducible apply KeptO.next
    | with_reducible apply KeptE.next
    | with_reducible apply KeptE.trap
    | with_reducible apply KeptE.jump
    | with_reducible apply KeptE.back
    | with_reducible apply KeptE.stop
    | (with_reducible apply State.insn_kept; on_goal 2 => (intro _ _ _; beta_reduce))
    | with_reducible apply aluBody_kept

theorem execFscalb_kept {T : Nat} {r s : State} {x0 : Fin 4} {x1 : Fin 32} {x2 : Fin 32} {x3 : Fin 32} {x4 : Bool} (h : Kept T r s) (hT : Within 16789518 T) : KeptO T r (execFscalb x0 x1 x2 x3 x4 s) := by
  unfold execFscalb
  repeat' first
    | with_reducible assumption
    | exact Within.of hT rfl
    | with_reducible apply KeptO.next
    | with_reducible apply KeptE.next
    | with_reducible apply KeptE.trap
    | with_reducible apply KeptE.jump
    | with_reducible apply KeptE.back
    | with_reducible apply KeptE.stop
    | (with_reducible apply State.insn_kept; on_goal 2 => (intro _ _ _; beta_reduce))
    | with_reducible apply aluBody_kept

theorem fcmpBody_kept {T : Nat} {r s : State} {x0 : ℕ} {x1 : ℕ} {x2 : ℕ} {x4 : Cycle} (h : Kept T r s) (hT : Within 0 T) : KeptE T r (fcmpBody x0 x1 x2 s x4) := by
  unfold fcmpBody
  repeat' first
    | with_reducible apply KeptE.ite
    | with_reducible apply Kept.ite
    | with_reducible assumption
    | exact Within.of hT rfl
    | with_reducible apply KeptE.next
    | with_reducible apply KeptE.trap
    | with_reducible apply KeptE.jump
    | with_reducible apply KeptE.back
    | with_reducible apply KeptE.stop

theorem execFcmp_kept {T : Nat} {r s : State} {x0 : Fin 4} {x1 : Fin 32} {x2 : Fin 32} {x3 : Fin 32} {x4 : Bool} (h : Kept T r s) (hT : Within 16789518 T) : KeptO T r (execFcmp x0 x1 x2 x3 x4 s) := by
  unfold execFcmp
  repeat' first
    | with_reducible assumption
    | exact Within.of hT rfl
    | with_reducible apply KeptO.next
    | with_reducible apply KeptE.next
    | with_reducible apply KeptE.trap
    | with_reducible apply KeptE.jump
    | with_reducible apply KeptE.back
    | with_reducible apply KeptE.stop
    | (with_reducible apply State.insn_kept; on_goal 2 => (intro _ _ _; beta_reduce))
    | with_reducible apply fcmpBody_kept

/-! ## Machine/SogWide.lean -/

theorem execAdd64_kept {T : Nat} {r s : State} {x0 : Fin 4} {x1 : Fin 32} {x2 : Fin 32} {x3 : Fin 32} {x4 : Bool} (h : Kept T r s) (hT : Within 16789518 T) : KeptO T r (execAdd64 x0 x1 x2 x3 x4 s) := by
  unfold execAdd64
  repeat' first
    | with_reducible assumption
    | exact Within.of hT rfl
    | with_reducible apply KeptO.next
    | with_reducible apply KeptE.next
    | with_reducible apply KeptE.trap
    | with_reducible apply KeptE.jump
    | with_reducible apply KeptE.back
    | with_reducible apply KeptE.stop
    | (with_reducible apply State.insn_kept; on_goal 2 => (intro _ _ _; beta_reduce))
    | with_reducible apply wideBody_kept

theorem execSub64_kept {T : Nat} {r s : State} {x0 : Fin 4} {x1 : Fin 32} {x2 : Fin 32} {x3 : Fin 32} {x4 : Bool} (h : Kept T r s) (hT : Within 16789518 T) : KeptO T r (execSub64 x0 x1 x2 x3 x4 s) := by
  unfold execSub64
  repeat' first
    | with_reducible assumption
    | exact Within.of hT rfl
    | with_reducible apply KeptO.next
    | with_reducible apply KeptE.next
    | with_reducible apply KeptE.trap
    | with_reducible apply KeptE.jump
    | with_reducible apply KeptE.back
    | with_reducible apply KeptE.stop
    | (with_reducible apply State.insn_kept; on_goal 2 => (intro _ _ _; beta_reduce))
    | with_reducible apply wideBody_kept

theorem execAdds64_kept {T : Nat} {r s : State} {x0 : Fin 4} {x1 : Fin 32} {x2 : Fin 32} {x3 : Fin 32} {x4 : Bool} (h : Kept T r s) (hT : Within 16789518 T) : KeptO T r (execAdds64 x0 x1 x2 x3 x4 s) := by
  unfold execAdds64
  repeat' first
    | with_reducible assumption
    | exact Within.of hT rfl
    | with_reducible apply KeptO.next
    | with_reducible apply KeptE.next
    | with_reducible apply KeptE.trap
    | with_reducible apply KeptE.jump
    | with_reducible apply KeptE.back
    | with_reducible apply KeptE.stop
    | (with_reducible apply State.insn_kept; on_goal 2 => (intro _ _ _; beta_reduce))
    | with_reducible apply wideBody_kept

theorem execSubs64_kept {T : Nat} {r s : State} {x0 : Fin 4} {x1 : Fin 32} {x2 : Fin 32} {x3 : Fin 32} {x4 : Bool} (h : Kept T r s) (hT : Within 16789518 T) : KeptO T r (execSubs64 x0 x1 x2 x3 x4 s) := by
  unfold execSubs64
  repeat' first
    | with_reducible assumption
    | exact Within.of hT rfl
    | with_reducible apply KeptO.next
    | with_reducible apply KeptE.next
    | with_reducible apply KeptE.trap
    | with_reducible apply KeptE.jump
    | with_reducible apply KeptE.back
    | with_reducible apply KeptE.stop
    | (with_reducible apply State.insn_kept; on_goal 2 => (intro _ _ _; beta_reduce))
    | with_reducible apply wideBody_kept

theorem execMull_kept {T : Nat} {r s : State} {x0 : Fin 4} {x1 : Fin 32} {x2 : Fin 32} {x3 : Fin 32} {x4 : Bool} (h : Kept T r s) (hT : Within 16789518 T) : KeptO T r (execMull x0 x1 x2 x3 x4 s) := by
  unfold execMull
  repeat' first
    | with_reducible assumption
    | exact Within.of hT rfl
    | with_reducible apply KeptO.next
    | with_reducible apply KeptE.next
    | with_reducible apply KeptE.trap
    | with_reducible apply KeptE.jump
    | with_reducible apply KeptE.back
    | with_reducible apply KeptE.stop
    | (with_reducible apply State.insn_kept; on_goal 2 => (intro _ _ _; beta_reduce))
    | with_reducible apply wideBody_kept

theorem execMullu_kept {T : Nat} {r s : State} {x0 : Fin 4} {x1 : Fin 32} {x2 : Fin 32} {x3 : Fin 32} {x4 : Bool} (h : Kept T r s) (hT : Within 16789518 T) : KeptO T r (execMullu x0 x1 x2 x3 x4 s) := by
  unfold execMullu
  repeat' first
    | with_reducible assumption
    | exact Within.of hT rfl
    | with_reducible apply KeptO.next
    | with_reducible apply KeptE.next
    | with_reducible apply KeptE.trap
    | with_reducible apply KeptE.jump
    | with_reducible apply KeptE.back
    | with_reducible apply KeptE.stop
    | (with_reducible apply State.insn_kept; on_goal 2 => (intro _ _ _; beta_reduce))
    | with_reducible apply wideBody_kept

theorem execAnd64_kept {T : Nat} {r s : State} {x0 : Fin 4} {x1 : Fin 32} {x2 : Fin 32} {x3 : Fin 32} {x4 : Bool} (h : Kept T r s) (hT : Within 16789518 T) : KeptO T r (execAnd64 x0 x1 x2 x3 x4 s) := by
  unfold execAnd64
  repeat' first
    | with_reducible assumption
    | exact Within.of hT rfl
    | with_reducible apply KeptO.next
    | with_reducible apply KeptE.next
    | with_reducible apply KeptE.trap
    | with_reducible apply KeptE.jump
    | with_reducible apply KeptE.back
    | with_reducible apply KeptE.stop
    | (with_reducible apply State.insn_kept; on_goal 2 => (intro _ _ _; beta_reduce))
    | with_reducible apply wideBody_kept

theorem execOr64_kept {T : Nat} {r s : State} {x0 : Fin 4} {x1 : Fin 32} {x2 : Fin 32} {x3 : Fin 32} {x4 : Bool} (h : Kept T r s) (hT : Within 16789518 T) : KeptO T r (execOr64 x0 x1 x2 x3 x4 s) := by
  unfold execOr64
  repeat' first
    | with_reducible assumption
    | exact Within.of hT rfl
    | with_reducible apply KeptO.next
    | with_reducible apply KeptE.next
    | with_reducible apply KeptE.trap
    | with_reducible apply KeptE.jump
    | with_reducible apply KeptE.back
    | with_reducible apply KeptE.stop
    | (with_reducible apply State.insn_kept; on_goal 2 => (intro _ _ _; beta_reduce))
    | with_reducible apply wideBody_kept

theorem execXor64_kept {T : Nat} {r s : State} {x0 : Fin 4} {x1 : Fin 32} {x2 : Fin 32} {x3 : Fin 32} {x4 : Bool} (h : Kept T r s) (hT : Within 16789518 T) : KeptO T r (execXor64 x0 x1 x2 x3 x4 s) := by
  unfold execXor64
  repeat' first
    | with_reducible assumption
    | exact Within.of hT rfl
    | with_reducible apply KeptO.next
    | with_reducible apply KeptE.next
    | with_reducible apply KeptE.trap
    | with_reducible apply KeptE.jump
    | with_reducible apply KeptE.back
    | with_reducible apply KeptE.stop
    | (with_reducible apply State.insn_kept; on_goal 2 => (intro _ _ _; beta_reduce))
    | with_reducible apply wideBody_kept

theorem execSll64_kept {T : Nat} {r s : State} {x0 : Fin 4} {x1 : Fin 32} {x2 : Fin 32} {x3 : Fin 32} {x4 : Bool} (h : Kept T r s) (hT : Within 16789518 T) : KeptO T r (execSll64 x0 x1 x2 x3 x4 s) := by
  unfold execSll64
  repeat' first
    | with_reducible assumption
    | exact Within.of hT rfl
    | with_reducible apply KeptO.next
    | with_reducible apply KeptE.next
    | with_reducible apply KeptE.trap
    | with_reducible apply KeptE.jump
    | with_reducible apply KeptE.back
    | with_reducible apply KeptE.stop
    | (with_reducible apply State.insn_kept; on_goal 2 => (intro _ _ _; beta_reduce))
    | with_reducible apply wideBody_kept

theorem execSrl64_kept {T : Nat} {r s : State} {x0 : Fin 4} {x1 : Fin 32} {x2 : Fin 32} {x3 : Fin 32} {x4 : Bool} (h : Kept T r s) (hT : Within 16789518 T) : KeptO T r (execSrl64 x0 x1 x2 x3 x4 s) := by
  unfold execSrl64
  repeat' first
    | with_reducible assumption
    | exact Within.of hT rfl
    | with_reducible apply KeptO.next
    | with_reducible apply KeptE.next
    | with_reducible apply KeptE.trap
    | with_reducible apply KeptE.jump
    | with_reducible apply KeptE.back
    | with_reducible apply KeptE.stop
    | (with_reducible apply State.insn_kept; on_goal 2 => (intro _ _ _; beta_reduce))
    | with_reducible apply wideBody_kept

theorem execSra64_kept {T : Nat} {r s : State} {x0 : Fin 4} {x1 : Fin 32} {x2 : Fin 32} {x3 : Fin 32} {x4 : Bool} (h : Kept T r s) (hT : Within 16789518 T) : KeptO T r (execSra64 x0 x1 x2 x3 x4 s) := by
  unfold execSra64
  repeat' first
    | with_reducible assumption
    | exact Within.of hT rfl
    | with_reducible apply KeptO.next
    | with_reducible apply KeptE.next
    | with_reducible apply KeptE.trap
    | with_reducible apply KeptE.jump
    | with_reducible apply KeptE.back
    | with_reducible apply KeptE.stop
    | (with_reducible apply State.insn_kept; on_goal 2 => (intro _ _ _; beta_reduce))
    | with_reducible apply wideBody_kept

theorem execSlt64_kept {T : Nat} {r s : State} {x0 : Fin 4} {x1 : Fin 32} {x2 : Fin 32} {x3 : Fin 32} {x4 : Bool} (h : Kept T r s) (hT : Within 16789518 T) : KeptO T r (execSlt64 x0 x1 x2 x3 x4 s) := by
  unfold execSlt64
  repeat' first
    | with_reducible assumption
    | exact Within.of hT rfl
    | with_reducible apply KeptO.next
    | with_reducible apply KeptE.next
    | with_reducible apply KeptE.trap
    | with_reducible apply KeptE.jump
    | with_reducible apply KeptE.back
    | with_reducible apply KeptE.stop
    | (with_reducible apply State.insn_kept; on_goal 2 => (intro _ _ _; beta_reduce))
    | with_reducible apply wideBody_kept

theorem execSltu64_kept {T : Nat} {r s : State} {x0 : Fin 4} {x1 : Fin 32} {x2 : Fin 32} {x3 : Fin 32} {x4 : Bool} (h : Kept T r s) (hT : Within 16789518 T) : KeptO T r (execSltu64 x0 x1 x2 x3 x4 s) := by
  unfold execSltu64
  repeat' first
    | with_reducible assumption
    | exact Within.of hT rfl
    | with_reducible apply KeptO.next
    | with_reducible apply KeptE.next
    | with_reducible apply KeptE.trap
    | with_reducible apply KeptE.jump
    | with_reducible apply KeptE.back
    | with_reducible apply KeptE.stop
    | (with_reducible apply State.insn_kept; on_goal 2 => (intro _ _ _; beta_reduce))
    | with_reducible apply wideBody_kept

theorem execSext_kept {T : Nat} {r s : State} {x0 : Fin 4} {x1 : Fin 32} {x2 : Fin 32} {x3 : Fin 32} {x4 : Bool} (h : Kept T r s) (hT : Within 16789518 T) : KeptO T r (execSext x0 x1 x2 x3 x4 s) := by
  unfold execSext
  repeat' first
    | with_reducible assumption
    | exact Within.of hT rfl
    | with_reducible apply KeptO.next
    | with_reducible apply KeptE.next
    | with_reducible apply KeptE.trap
    | with_reducible apply KeptE.jump
    | with_reducible apply KeptE.back
    | with_reducible apply KeptE.stop
    | (with_reducible apply State.insn_kept; on_goal 2 => (intro _ _ _; beta_reduce))
    | with_reducible apply wideBody_kept

theorem execZext_kept {T : Nat} {r s : State} {x0 : Fin 4} {x1 : Fin 32} {x2 : Fin 32} {x3 : Fin 32} {x4 : Bool} (h : Kept T r s) (hT : Within 16789518 T) : KeptO T r (execZext x0 x1 x2 x3 x4 s) := by
  unfold execZext
  repeat' first
    | with_reducible assumption
    | exact Within.of hT rfl
    | with_reducible apply KeptO.next
    | with_reducible apply KeptE.next
    | with_reducible apply KeptE.trap
    | with_reducible apply KeptE.jump
    | with_reducible apply KeptE.back
    | with_reducible apply KeptE.stop
    | (with_reducible apply State.insn_kept; on_goal 2 => (intro _ _ _; beta_reduce))
    | with_reducible apply wideBody_kept

/-! ## Machine/SogMem.lean -/

theorem mfsBody_kept {T : Nat} {r s : State} {x0 : ℕ} {x1 : ℕ} {x2 : ℕ} {x3 : Bool} {x5 : Cycle} (h : Kept T r s) (hT : Within 0 T) : KeptE T r (mfsBody x0 x1 x2 x3 s x5) := by
  unfold mfsBody
  repeat' first
    | with_reducible apply KeptE.ite
    | with_reducible apply Kept.ite
    | with_reducible assumption
    | exact Within.of hT rfl
    | with_reducible apply KeptE.next
    | with_reducible apply KeptE.trap
    | with_reducible apply KeptE.jump
    | with_reducible apply KeptE.back
    | with_reducible apply KeptE.stop

theorem execMfs_kept {T : Nat} {r s : State} {x0 : Fin 4} {x1 : Fin 32} {x2 : Fin 32} {x3 : Fin 32} {x4 : Bool} (h : Kept T r s) (hT : Within 16789518 T) : KeptO T r (execMfs x0 x1 x2 x3 x4 s) := by
  unfold execMfs
  repeat' first
    | with_reducible assumption
    | exact Within.of hT rfl
    | with_reducible apply KeptO.next
    | with_reducible apply KeptE.next
    | with_reducible apply KeptE.trap
    | with_reducible apply KeptE.jump
    | with_reducible apply KeptE.back
    | with_reducible apply KeptE.stop
    | (with_reducible apply State.insn_kept; on_goal 2 => (intro _ _ _; beta_reduce))
    | with_reducible apply mfsBody_kept

theorem mtfBody_kept {T : Nat} {r s : State} {x0 : ℕ} {x1 : ℕ} {x2 : ℕ} {x3 : Bool} {x5 : Cycle} (h : Kept T r s) (hT : Within 0 T) : KeptE T r (mtfBody x0 x1 x2 x3 s x5) := by
  unfold mtfBody
  repeat' first
    | with_reducible apply KeptE.ite
    | with_reducible apply Kept.ite
    | with_reducible assumption
    | exact Within.of hT rfl
    | with_reducible apply KeptE.next
    | with_reducible apply KeptE.trap
    | with_reducible apply KeptE.jump
    | with_reducible apply KeptE.back
    | with_reducible apply KeptE.stop

theorem execMtf_kept {T : Nat} {r s : State} {x0 : Fin 4} {x1 : Fin 32} {x2 : Fin 32} {x3 : Fin 32} {x4 : Bool} (h : Kept T r s) (hT : Within 16789518 T) : KeptO T r (execMtf x0 x1 x2 x3 x4 s) := by
  unfold execMtf
  repeat' first
    | with_reducible assumption
    | exact Within.of hT rfl
    | with_reducible apply KeptO.next
    | with_reducible apply KeptE.next
    | with_reducible apply KeptE.trap
    | with_reducible apply KeptE.jump
    | with_reducible apply KeptE.back
    | with_reducible apply KeptE.stop
    | (with_reducible apply State.insn_kept; on_goal 2 => (intro _ _ _; beta_reduce))
    | with_reducible apply mtfBody_kept

theorem access_kept {T : Nat} {r s : State} {c : Cycle} {sp n a : Nat} {k : Grant} {imm : BitVec 16}
    {act : Nat → Nat → State → Cycle → Effect} (h : Kept T r s)
    (ha : ∀ x y u d, Kept T r u → KeptE T r (act x y u d)) (hT : Within 0 T) : KeptE T r (access sp n a k imm act s c) := by
  unfold access
  dsimp only
  refine .ite .trap (.ite (ha _ _ _ _ h) (.ite (ha _ _ _ _ h) .trap))

theorem loadBody_kept {T : Nat} {r s : State} {x0 : ℕ} {x1 : ℕ} {x2 : ℕ} {x3 : ℕ} {x4 : BitVec 16} {x5 : ℕ → Word} {x7 : Cycle} (h : Kept T r s) (hT : Within 0 T) : KeptE T r (loadBody x0 x1 x2 x3 x4 x5 s x7) := by
  unfold loadBody
  repeat' first
    | with_reducible assumption
    | exact Within.of hT rfl
    | with_reducible apply KeptE.next
    | with_reducible apply KeptE.trap
    | with_reducible apply KeptE.jump
    | with_reducible apply KeptE.back
    | with_reducible apply KeptE.stop
    | with_reducible apply KeptE.next
    | with_reducible apply KeptE.trap
    | with_reducible apply KeptE.jump
    | with_reducible apply KeptE.back
    | with_reducible apply KeptE.stop
    | (with_reducible apply access_kept; on_goal 2 => (intro _ _ _ _ _; beta_reduce))

theorem loadPairBody_kept {T : Nat} {r s : State} {x0 : ℕ} {x1 : ℕ} {x2 : ℕ} {x3 : BitVec 16} {x5 : Cycle} (h : Kept T r s) (hT : Within 0 T) : KeptE T r (loadPairBody x0 x1 x2 x3 s x5) := by
  unfold loadPairBody
  repeat' first
    | with_reducible apply KeptE.ite
    | with_reducible apply KeptE.ite
    | with_reducible apply Kept.ite
    | with_reducible assumption
    | exact Within.of hT rfl
    | with_reducible apply KeptE.next
    | with_reducible apply KeptE.trap
    | with_reducible apply KeptE.jump
    | with_reducible apply KeptE.back
    | with_reducible apply KeptE.stop
    | with_reducible apply KeptE.next
    | with_reducible apply KeptE.trap
    | with_reducible apply KeptE.jump
    | with_reducible apply KeptE.back
    | with_reducible apply KeptE.stop
    | (with_reducible apply access_kept; on_goal 2 => (intro _ _ _ _ _; beta_reduce))

theorem storeBody_kept {T : Nat} {r s : State} {x0 : ℕ} {x1 : ℕ} {x2 : ℕ} {x3 : ℕ} {x4 : BitVec 16} {x6 : Cycle} (h : Kept T r s) (hT : Within 2048 T) : KeptE T r (storeBody x0 x1 x2 x3 x4 s x6) := by
  unfold storeBody
  repeat' first
    | with_reducible assumption
    | exact Within.of hT rfl
    | with_reducible apply KeptE.next
    | with_reducible apply KeptE.trap
    | with_reducible apply KeptE.jump
    | with_reducible apply KeptE.back
    | with_reducible apply KeptE.stop
    | with_reducible apply KeptE.next
    | with_reducible apply KeptE.trap
    | with_reducible apply KeptE.jump
    | with_reducible apply KeptE.back
    | with_reducible apply KeptE.stop
    | (with_reducible apply access_kept; on_goal 2 => (intro _ _ _ _ _; beta_reduce))
    | with_reducible apply State.storeNat_kept

theorem storePairBody_kept {T : Nat} {r s : State} {x0 : ℕ} {x1 : ℕ} {x2 : ℕ} {x3 : BitVec 16} {x5 : Cycle} (h : Kept T r s) (hT : Within 2048 T) : KeptE T r (storePairBody x0 x1 x2 x3 s x5) := by
  unfold storePairBody
  repeat' first
    | with_reducible apply KeptE.ite
    | with_reducible apply KeptE.ite
    | with_reducible apply Kept.ite
    | with_reducible assumption
    | exact Within.of hT rfl
    | with_reducible apply KeptE.next
    | with_reducible apply KeptE.trap
    | with_reducible apply KeptE.jump
    | with_reducible apply KeptE.back
    | with_reducible apply KeptE.stop
    | with_reducible apply KeptE.next
    | with_reducible apply KeptE.trap
    | with_reducible apply KeptE.jump
    | with_reducible apply KeptE.back
    | with_reducible apply KeptE.stop
    | (with_reducible apply access_kept; on_goal 2 => (intro _ _ _ _ _; beta_reduce))
    | with_reducible apply State.storeNat_kept

theorem execLdw_kept {T : Nat} {r s : State} {x0 : Fin 4} {x1 : Fin 32} {x2 : Fin 32} {x3 : BitVec 16} (h : Kept T r s) (hT : Within 16789518 T) : KeptO T r (execLdw x0 x1 x2 x3 s) := by
  unfold execLdw
  repeat' first
    | with_reducible assumption
    | exact Within.of hT rfl
    | with_reducible apply KeptO.next
    | with_reducible apply KeptE.next
    | with_reducible apply KeptE.trap
    | with_reducible apply KeptE.jump
    | with_reducible apply KeptE.back
    | with_reducible apply KeptE.stop
    | (with_reducible apply State.insn_kept; on_goal 2 => (intro _ _ _; beta_reduce))
    | with_reducible apply loadBody_kept

theorem execLdh_kept {T : Nat} {r s : State} {x0 : Fin 4} {x1 : Fin 32} {x2 : Fin 32} {x3 : BitVec 16} (h : Kept T r s) (hT : Within 16789518 T) : KeptO T r (execLdh x0 x1 x2 x3 s) := by
  unfold execLdh
  repeat' first
    | with_reducible assumption
    | exact Within.of hT rfl
    | with_reducible apply KeptO.next
    | with_reducible apply KeptE.next
    | with_reducible apply KeptE.trap
    | with_reducible apply KeptE.jump
    | with_reducible apply KeptE.back
    | with_reducible apply KeptE.stop
    | (with_reducible apply State.insn_kept; on_goal 2 => (intro _ _ _; beta_reduce))
    | with_reducible apply loadBody_kept

theorem execLdhu_kept {T : Nat} {r s : State} {x0 : Fin 4} {x1 : Fin 32} {x2 : Fin 32} {x3 : BitVec 16} (h : Kept T r s) (hT : Within 16789518 T) : KeptO T r (execLdhu x0 x1 x2 x3 s) := by
  unfold execLdhu
  repeat' first
    | with_reducible assumption
    | exact Within.of hT rfl
    | with_reducible apply KeptO.next
    | with_reducible apply KeptE.next
    | with_reducible apply KeptE.trap
    | with_reducible apply KeptE.jump
    | with_reducible apply KeptE.back
    | with_reducible apply KeptE.stop
    | (with_reducible apply State.insn_kept; on_goal 2 => (intro _ _ _; beta_reduce))
    | with_reducible apply loadBody_kept

theorem execLdb_kept {T : Nat} {r s : State} {x0 : Fin 4} {x1 : Fin 32} {x2 : Fin 32} {x3 : BitVec 16} (h : Kept T r s) (hT : Within 16789518 T) : KeptO T r (execLdb x0 x1 x2 x3 s) := by
  unfold execLdb
  repeat' first
    | with_reducible assumption
    | exact Within.of hT rfl
    | with_reducible apply KeptO.next
    | with_reducible apply KeptE.next
    | with_reducible apply KeptE.trap
    | with_reducible apply KeptE.jump
    | with_reducible apply KeptE.back
    | with_reducible apply KeptE.stop
    | (with_reducible apply State.insn_kept; on_goal 2 => (intro _ _ _; beta_reduce))
    | with_reducible apply loadBody_kept

theorem execLdbu_kept {T : Nat} {r s : State} {x0 : Fin 4} {x1 : Fin 32} {x2 : Fin 32} {x3 : BitVec 16} (h : Kept T r s) (hT : Within 16789518 T) : KeptO T r (execLdbu x0 x1 x2 x3 s) := by
  unfold execLdbu
  repeat' first
    | with_reducible assumption
    | exact Within.of hT rfl
    | with_reducible apply KeptO.next
    | with_reducible apply KeptE.next
    | with_reducible apply KeptE.trap
    | with_reducible apply KeptE.jump
    | with_reducible apply KeptE.back
    | with_reducible apply KeptE.stop
    | (with_reducible apply State.insn_kept; on_goal 2 => (intro _ _ _; beta_reduce))
    | with_reducible apply loadBody_kept

theorem execLdd_kept {T : Nat} {r s : State} {x0 : Fin 4} {x1 : Fin 32} {x2 : Fin 32} {x3 : BitVec 16} (h : Kept T r s) (hT : Within 16789518 T) : KeptO T r (execLdd x0 x1 x2 x3 s) := by
  unfold execLdd
  repeat' first
    | with_reducible assumption
    | exact Within.of hT rfl
    | with_reducible apply KeptO.next
    | with_reducible apply KeptE.next
    | with_reducible apply KeptE.trap
    | with_reducible apply KeptE.jump
    | with_reducible apply KeptE.back
    | with_reducible apply KeptE.stop
    | (with_reducible apply State.insn_kept; on_goal 2 => (intro _ _ _; beta_reduce))
    | with_reducible apply loadPairBody_kept

theorem execStw_kept {T : Nat} {r s : State} {x0 : Fin 4} {x1 : Fin 32} {x2 : Fin 32} {x3 : BitVec 16} (h : Kept T r s) (hT : Within 16791566 T) : KeptO T r (execStw x0 x1 x2 x3 s) := by
  unfold execStw
  repeat' first
    | with_reducible assumption
    | exact Within.of hT rfl
    | with_reducible apply KeptO.next
    | with_reducible apply KeptE.next
    | with_reducible apply KeptE.trap
    | with_reducible apply KeptE.jump
    | with_reducible apply KeptE.back
    | with_reducible apply KeptE.stop
    | (with_reducible apply State.insn_kept; on_goal 2 => (intro _ _ _; beta_reduce))
    | with_reducible apply storeBody_kept

theorem execSth_kept {T : Nat} {r s : State} {x0 : Fin 4} {x1 : Fin 32} {x2 : Fin 32} {x3 : BitVec 16} (h : Kept T r s) (hT : Within 16791566 T) : KeptO T r (execSth x0 x1 x2 x3 s) := by
  unfold execSth
  repeat' first
    | with_reducible assumption
    | exact Within.of hT rfl
    | with_reducible apply KeptO.next
    | with_reducible apply KeptE.next
    | with_reducible apply KeptE.trap
    | with_reducible apply KeptE.jump
    | with_reducible apply KeptE.back
    | with_reducible apply KeptE.stop
    | (with_reducible apply State.insn_kept; on_goal 2 => (intro _ _ _; beta_reduce))
    | with_reducible apply storeBody_kept

theorem execStb_kept {T : Nat} {r s : State} {x0 : Fin 4} {x1 : Fin 32} {x2 : Fin 32} {x3 : BitVec 16} (h : Kept T r s) (hT : Within 16791566 T) : KeptO T r (execStb x0 x1 x2 x3 s) := by
  unfold execStb
  repeat' first
    | with_reducible assumption
    | exact Within.of hT rfl
    | with_reducible apply KeptO.next
    | with_reducible apply KeptE.next
    | with_reducible apply KeptE.trap
    | with_reducible apply KeptE.jump
    | with_reducible apply KeptE.back
    | with_reducible apply KeptE.stop
    | (with_reducible apply State.insn_kept; on_goal 2 => (intro _ _ _; beta_reduce))
    | with_reducible apply storeBody_kept

theorem execStd_kept {T : Nat} {r s : State} {x0 : Fin 4} {x1 : Fin 32} {x2 : Fin 32} {x3 : BitVec 16} (h : Kept T r s) (hT : Within 16791566 T) : KeptO T r (execStd x0 x1 x2 x3 s) := by
  unfold execStd
  repeat' first
    | with_reducible assumption
    | exact Within.of hT rfl
    | with_reducible apply KeptO.next
    | with_reducible apply KeptE.next
    | with_reducible apply KeptE.trap
    | with_reducible apply KeptE.jump
    | with_reducible apply KeptE.back
    | with_reducible apply KeptE.stop
    | (with_reducible apply State.insn_kept; on_goal 2 => (intro _ _ _; beta_reduce))
    | with_reducible apply storePairBody_kept

theorem execCldw_kept {T : Nat} {r s : State} {x0 : Fin 4} {x1 : Fin 32} {x2 : Fin 32} {x3 : BitVec 16} (h : Kept T r s) (hT : Within 16789518 T) : KeptO T r (execCldw x0 x1 x2 x3 s) := by
  unfold execCldw
  repeat' first
    | with_reducible assumption
    | exact Within.of hT rfl
    | with_reducible apply KeptO.next
    | with_reducible apply KeptE.next
    | with_reducible apply KeptE.trap
    | with_reducible apply KeptE.jump
    | with_reducible apply KeptE.back
    | with_reducible apply KeptE.stop
    | (with_reducible apply State.insn_kept; on_goal 2 => (intro _ _ _; beta_reduce))
    | with_reducible apply loadBody_kept

theorem execCldd_kept {T : Nat} {r s : State} {x0 : Fin 4} {x1 : Fin 32} {x2 : Fin 32} {x3 : BitVec 16} (h : Kept T r s) (hT : Within 16789518 T) : KeptO T r (execCldd x0 x1 x2 x3 s) := by
  unfold execCldd
  repeat' first
    | with_reducible assumption
    | exact Within.of hT rfl
    | with_reducible apply KeptO.next
    | with_reducible apply KeptE.next
    | with_reducible apply KeptE.trap
    | with_reducible apply KeptE.jump
    | with_reducible apply KeptE.back
    | with_reducible apply KeptE.stop
    | (with_reducible apply State.insn_kept; on_goal 2 => (intro _ _ _; beta_reduce))
    | with_reducible apply loadPairBody_kept

theorem execCstw_kept {T : Nat} {r s : State} {x0 : Fin 4} {x1 : Fin 32} {x2 : Fin 32} {x3 : BitVec 16} (h : Kept T r s) (hT : Within 16791566 T) : KeptO T r (execCstw x0 x1 x2 x3 s) := by
  unfold execCstw
  repeat' first
    | with_reducible assumption
    | exact Within.of hT rfl
    | with_reducible apply KeptO.next
    | with_reducible apply KeptE.next
    | with_reducible apply KeptE.trap
    | with_reducible apply KeptE.jump
    | with_reducible apply KeptE.back
    | with_reducible apply KeptE.stop
    | (with_reducible apply State.insn_kept; on_goal 2 => (intro _ _ _; beta_reduce))
    | with_reducible apply storeBody_kept

theorem execCstd_kept {T : Nat} {r s : State} {x0 : Fin 4} {x1 : Fin 32} {x2 : Fin 32} {x3 : BitVec 16} (h : Kept T r s) (hT : Within 16791566 T) : KeptO T r (execCstd x0 x1 x2 x3 s) := by
  unfold execCstd
  repeat' first
    | with_reducible assumption
    | exact Within.of hT rfl
    | with_reducible apply KeptO.next
    | with_reducible apply KeptE.next
    | with_reducible apply KeptE.trap
    | with_reducible apply KeptE.jump
    | with_reducible apply KeptE.back
    | with_reducible apply KeptE.stop
    | (with_reducible apply State.insn_kept; on_goal 2 => (intro _ _ _; beta_reduce))
    | with_reducible apply storePairBody_kept

theorem nldBody_kept {T : Nat} {r s : State} {x0 : ℕ} {x1 : ℕ} {x2 : BitVec 16} {x4 : Cycle} (h : Kept T r s) (hT : Within 0 T) : KeptE T r (nldBody x0 x1 x2 s x4) := by
  unfold nldBody
  repeat' first
    | with_reducible apply KeptE.ite
    | with_reducible apply Kept.ite
    | with_reducible assumption
    | exact Within.of hT rfl
    | with_reducible apply KeptE.next
    | with_reducible apply KeptE.trap
    | with_reducible apply KeptE.jump
    | with_reducible apply KeptE.back
    | with_reducible apply KeptE.stop

theorem execNld_kept {T : Nat} {r s : State} {x0 : Fin 4} {x1 : Fin 32} {x2 : Fin 32} {x3 : BitVec 16} (h : Kept T r s) (hT : Within 16789518 T) : KeptO T r (execNld x0 x1 x2 x3 s) := by
  unfold execNld
  repeat' first
    | with_reducible assumption
    | exact Within.of hT rfl
    | with_reducible apply KeptO.next
    | with_reducible apply KeptE.next
    | with_reducible apply KeptE.trap
    | with_reducible apply KeptE.jump
    | with_reducible apply KeptE.back
    | with_reducible apply KeptE.stop
    | (with_reducible apply State.insn_kept; on_goal 2 => (intro _ _ _; beta_reduce))
    | with_reducible apply nldBody_kept

theorem nstBody_kept {T : Nat} {r s : State} {x0 : ℕ} {x1 : ℕ} {x2 : BitVec 16} {x4 : Cycle} (h : Kept T r s) (hT : Within 0 T) : KeptE T r (nstBody x0 x1 x2 s x4) := by
  unfold nstBody
  repeat' first
    | with_reducible apply KeptE.ite
    | with_reducible apply Kept.ite
    | with_reducible assumption
    | exact Within.of hT rfl
    | with_reducible apply KeptE.next
    | with_reducible apply KeptE.trap
    | with_reducible apply KeptE.jump
    | with_reducible apply KeptE.back
    | with_reducible apply KeptE.stop

theorem execNst_kept {T : Nat} {r s : State} {x0 : Fin 4} {x1 : Fin 32} {x2 : Fin 32} {x3 : BitVec 16} (h : Kept T r s) (hT : Within 16789518 T) : KeptO T r (execNst x0 x1 x2 x3 s) := by
  unfold execNst
  repeat' first
    | with_reducible assumption
    | exact Within.of hT rfl
    | with_reducible apply KeptO.next
    | with_reducible apply KeptE.next
    | with_reducible apply KeptE.trap
    | with_reducible apply KeptE.jump
    | with_reducible apply KeptE.back
    | with_reducible apply KeptE.stop
    | (with_reducible apply State.insn_kept; on_goal 2 => (intro _ _ _; beta_reduce))
    | with_reducible apply nstBody_kept

theorem sldBody_kept {T : Nat} {r s : State} {x0 : ℕ} {x1 : ℕ} {x2 : ℕ} {x3 : ℕ} {x5 : Cycle} (h : Kept T r s) (hT : Within 0 T) : KeptE T r (sldBody x0 x1 x2 x3 s x5) := by
  unfold sldBody
  repeat' first
    | with_reducible apply KeptE.ite
    | with_reducible apply Kept.ite
    | with_reducible assumption
    | exact Within.of hT rfl
    | with_reducible apply KeptE.next
    | with_reducible apply KeptE.trap
    | with_reducible apply KeptE.jump
    | with_reducible apply KeptE.back
    | with_reducible apply KeptE.stop

theorem execSld_kept {T : Nat} {r s : State} {x0 : Fin 4} {x1 : Fin 32} {x2 : BitVec 8} {x3 : BitVec 5} {x4 : BitVec 8} (h : Kept T r s) (hT : Within 16789518 T) : KeptO T r (execSld x0 x1 x2 x3 x4 s) := by
  unfold execSld
  repeat' first
    | with_reducible assumption
    | exact Within.of hT rfl
    | with_reducible apply KeptO.next
    | with_reducible apply KeptE.next
    | with_reducible apply KeptE.trap
    | with_reducible apply KeptE.jump
    | with_reducible apply KeptE.back
    | with_reducible apply KeptE.stop
    | (with_reducible apply State.insn_kept; on_goal 2 => (intro _ _ _; beta_reduce))
    | with_reducible apply sldBody_kept

theorem sldpBody_kept {T : Nat} {r s : State} {x0 : ℕ} {x1 : ℕ} {x2 : ℕ} {x3 : ℕ} {x5 : Cycle} (h : Kept T r s) (hT : Within 0 T) : KeptE T r (sldpBody x0 x1 x2 x3 s x5) := by
  unfold sldpBody
  repeat' first
    | with_reducible apply KeptE.ite
    | with_reducible apply Kept.ite
    | with_reducible assumption
    | exact Within.of hT rfl
    | with_reducible apply KeptE.next
    | with_reducible apply KeptE.trap
    | with_reducible apply KeptE.jump
    | with_reducible apply KeptE.back
    | with_reducible apply KeptE.stop

theorem execSldp_kept {T : Nat} {r s : State} {x0 : Fin 4} {x1 : Fin 32} {x2 : BitVec 8} {x3 : BitVec 5} {x4 : BitVec 8} (h : Kept T r s) (hT : Within 16789518 T) : KeptO T r (execSldp x0 x1 x2 x3 x4 s) := by
  unfold execSldp
  repeat' first
    | with_reducible assumption
    | exact Within.of hT rfl
    | with_reducible apply KeptO.next
    | with_reducible apply KeptE.next
    | with_reducible apply KeptE.trap
    | with_reducible apply KeptE.jump
    | with_reducible apply KeptE.back
    | with_reducible apply KeptE.stop
    | (with_reducible apply State.insn_kept; on_goal 2 => (intro _ _ _; beta_reduce))
    | with_reducible apply sldpBody_kept

theorem ildBody_kept {T : Nat} {r s : State} {x0 : ℕ} {x1 : ℕ} {x2 : BitVec 16} {x4 : Cycle} (h : Kept T r s) (hT : Within 0 T) : KeptE T r (ildBody x0 x1 x2 s x4) := by
  unfold ildBody
  repeat' first
    | with_reducible apply KeptE.ite
    | with_reducible apply Kept.ite
    | with_reducible assumption
    | exact Within.of hT rfl
    | with_reducible apply KeptE.next
    | with_reducible apply KeptE.trap
    | with_reducible apply KeptE.jump
    | with_reducible apply KeptE.back
    | with_reducible apply KeptE.stop

theorem execIld_kept {T : Nat} {r s : State} {x0 : Fin 4} {x1 : Fin 32} {x2 : Fin 32} {x3 : BitVec 16} (h : Kept T r s) (hT : Within 16789518 T) : KeptO T r (execIld x0 x1 x2 x3 s) := by
  unfold execIld
  repeat' first
    | with_reducible assumption
    | exact Within.of hT rfl
    | with_reducible apply KeptO.next
    | with_reducible apply KeptE.next
    | with_reducible apply KeptE.trap
    | with_reducible apply KeptE.jump
    | with_reducible apply KeptE.back
    | with_reducible apply KeptE.stop
    | (with_reducible apply State.insn_kept; on_goal 2 => (intro _ _ _; beta_reduce))
    | with_reducible apply ildBody_kept

theorem ostBody_kept {T : Nat} {r s : State} {x0 : ℕ} {x1 : ℕ} {x2 : BitVec 16} {x4 : Cycle} (h : Kept T r s) (hT : Within 0 T) : KeptE T r (ostBody x0 x1 x2 s x4) := by
  unfold ostBody
  repeat' first
    | with_reducible apply KeptE.ite
    | with_reducible apply Kept.ite
    | with_reducible assumption
    | exact Within.of hT rfl
    | with_reducible apply KeptE.next
    | with_reducible apply KeptE.trap
    | with_reducible apply KeptE.jump
    | with_reducible apply KeptE.back
    | with_reducible apply KeptE.stop

theorem execOst_kept {T : Nat} {r s : State} {x0 : Fin 4} {x1 : Fin 32} {x2 : Fin 32} {x3 : BitVec 16} (h : Kept T r s) (hT : Within 16789518 T) : KeptO T r (execOst x0 x1 x2 x3 s) := by
  unfold execOst
  repeat' first
    | with_reducible assumption
    | exact Within.of hT rfl
    | with_reducible apply KeptO.next
    | with_reducible apply KeptE.next
    | with_reducible apply KeptE.trap
    | with_reducible apply KeptE.jump
    | with_reducible apply KeptE.back
    | with_reducible apply KeptE.stop
    | (with_reducible apply State.insn_kept; on_goal 2 => (intro _ _ _; beta_reduce))
    | with_reducible apply ostBody_kept

theorem shldBody_kept {T : Nat} {r s : State} {x0 : ℕ} {x1 : ℕ} {x2 : ℕ} {x3 : ℕ} {x5 : Cycle} (h : Kept T r s) (hT : Within 0 T) : KeptE T r (shldBody x0 x1 x2 x3 s x5) := by
  unfold shldBody
  repeat' first
    | with_reducible apply KeptE.ite
    | with_reducible apply Kept.ite
    | with_reducible assumption
    | exact Within.of hT rfl
    | with_reducible apply KeptE.next
    | with_reducible apply KeptE.trap
    | with_reducible apply KeptE.jump
    | with_reducible apply KeptE.back
    | with_reducible apply KeptE.stop
    | (fail_if_no_progress with_reducible refine Kept.mk' ?_ rfl rfl)
    | split

theorem execShld_kept {T : Nat} {r s : State} {x0 : Fin 4} {x1 : Fin 32} {x2 : Fin 32} {x3 : Fin 32} {x4 : BitVec 11} (h : Kept T r s) (hT : Within 16789518 T) : KeptO T r (execShld x0 x1 x2 x3 x4 s) := by
  unfold execShld
  repeat' first
    | with_reducible assumption
    | exact Within.of hT rfl
    | with_reducible apply KeptO.next
    | with_reducible apply KeptE.next
    | with_reducible apply KeptE.trap
    | with_reducible apply KeptE.jump
    | with_reducible apply KeptE.back
    | with_reducible apply KeptE.stop
    | (with_reducible apply State.insn_kept; on_goal 2 => (intro _ _ _; beta_reduce))
    | with_reducible apply shldBody_kept

theorem shstBody_kept {T : Nat} {r s : State} {x0 : ℕ} {x1 : ℕ} {x2 : ℕ} {x3 : ℕ} {x5 : Cycle} (h : Kept T r s) (hT : Within 0 T) : KeptE T r (shstBody x0 x1 x2 x3 s x5) := by
  unfold shstBody
  repeat' first
    | with_reducible apply KeptE.ite
    | with_reducible apply Kept.ite
    | with_reducible assumption
    | exact Within.of hT rfl
    | with_reducible apply KeptE.next
    | with_reducible apply KeptE.trap
    | with_reducible apply KeptE.jump
    | with_reducible apply KeptE.back
    | with_reducible apply KeptE.stop
    | (fail_if_no_progress with_reducible refine Kept.mk' ?_ rfl rfl)
    | split

theorem execShst_kept {T : Nat} {r s : State} {x0 : Fin 4} {x1 : Fin 32} {x2 : Fin 32} {x3 : Fin 32} {x4 : BitVec 11} (h : Kept T r s) (hT : Within 16789518 T) : KeptO T r (execShst x0 x1 x2 x3 x4 s) := by
  unfold execShst
  repeat' first
    | with_reducible assumption
    | exact Within.of hT rfl
    | with_reducible apply KeptO.next
    | with_reducible apply KeptE.next
    | with_reducible apply KeptE.trap
    | with_reducible apply KeptE.jump
    | with_reducible apply KeptE.back
    | with_reducible apply KeptE.stop
    | (with_reducible apply State.insn_kept; on_goal 2 => (intro _ _ _; beta_reduce))
    | with_reducible apply shstBody_kept

theorem gsetBody_kept {T : Nat} {r s : State} {x0 : ℕ} {x1 : ℕ} {x2 : BitVec 16} {x4 : Cycle} (h : Kept T r s) (hT : Within 0 T) : KeptE T r (gsetBody x0 x1 x2 s x4) := by
  unfold gsetBody
  repeat' first
    | with_reducible apply KeptE.ite
    | with_reducible apply Kept.ite
    | with_reducible assumption
    | exact Within.of hT rfl
    | with_reducible apply KeptE.next
    | with_reducible apply KeptE.trap
    | with_reducible apply KeptE.jump
    | with_reducible apply KeptE.back
    | with_reducible apply KeptE.stop

theorem execGset_kept {T : Nat} {r s : State} {x0 : Fin 4} {x1 : Fin 32} {x2 : Fin 32} {x3 : BitVec 16} (h : Kept T r s) (hT : Within 16789518 T) : KeptO T r (execGset x0 x1 x2 x3 s) := by
  unfold execGset
  repeat' first
    | with_reducible assumption
    | exact Within.of hT rfl
    | with_reducible apply KeptO.next
    | with_reducible apply KeptE.next
    | with_reducible apply KeptE.trap
    | with_reducible apply KeptE.jump
    | with_reducible apply KeptE.back
    | with_reducible apply KeptE.stop
    | (with_reducible apply State.insn_kept; on_goal 2 => (intro _ _ _; beta_reduce))
    | with_reducible apply gsetBody_kept

theorem evrBody_kept {T : Nat} {r s : State} {x0 : ℕ} {x1 : ℕ} {x2 : BitVec 16} {x4 : Cycle} (h : Kept T r s) (hT : Within 0 T) : KeptE T r (evrBody x0 x1 x2 s x4) := by
  unfold evrBody
  repeat' first
    | with_reducible apply KeptE.ite
    | with_reducible apply Kept.ite
    | with_reducible assumption
    | exact Within.of hT rfl
    | with_reducible apply KeptE.next
    | with_reducible apply KeptE.trap
    | with_reducible apply KeptE.jump
    | with_reducible apply KeptE.back
    | with_reducible apply KeptE.stop

theorem execEvr_kept {T : Nat} {r s : State} {x0 : Fin 4} {x1 : Fin 32} {x2 : Fin 32} {x3 : BitVec 16} (h : Kept T r s) (hT : Within 16789518 T) : KeptO T r (execEvr x0 x1 x2 x3 s) := by
  unfold execEvr
  repeat' first
    | with_reducible assumption
    | exact Within.of hT rfl
    | with_reducible apply KeptO.next
    | with_reducible apply KeptE.next
    | with_reducible apply KeptE.trap
    | with_reducible apply KeptE.jump
    | with_reducible apply KeptE.back
    | with_reducible apply KeptE.stop
    | (with_reducible apply State.insn_kept; on_goal 2 => (intro _ _ _; beta_reduce))
    | with_reducible apply evrBody_kept

theorem State.noteDropped_kept {T : Nat} {r s : State} {x1 : Cycle} (h : Kept T r s) (hT : Within 16777226 T := by
    first | exact Within.refl _ | (refine Within.of (b := ?zb) ?zw ?ze; (case zw => assumption); (case ze => decide))) : Kept T r (State.noteDropped s x1) := by
  unfold State.noteDropped
  repeat' first
    | with_reducible apply Kept.ite
    | with_reducible assumption
    | exact Within.of hT rfl
    | with_reducible apply State.raise_kept
    | with_reducible apply State.bump_kept
    | (fail_if_no_progress with_reducible refine Kept.mk' ?_ rfl rfl)

theorem cnoteBody_kept {T : Nat} {r s : State} {x0 : ℕ} {x1 : ℕ} {x2 : ℕ} {x3 : ℕ} {x5 : Cycle} (h : Kept T r s) (hT : Within 16777226 T := by
    first | exact Within.refl _ | (refine Within.of (b := ?zb) ?zw ?ze; (case zw => assumption); (case ze => decide))) : KeptE T r (cnoteBody x0 x1 x2 x3 s x5) := by
  unfold cnoteBody
  repeat' first
    | with_reducible apply KeptE.ite
    | with_reducible apply Kept.ite
    | with_reducible assumption
    | exact Within.of hT rfl
    | with_reducible apply KeptE.next
    | with_reducible apply KeptE.trap
    | with_reducible apply KeptE.jump
    | with_reducible apply KeptE.back
    | with_reducible apply KeptE.stop
    | with_reducible apply State.noteDropped_kept
    | (fail_if_no_progress with_reducible refine Kept.mk' ?_ rfl rfl)

theorem execCnote_kept {T : Nat} {r s : State} {x0 : Fin 4} {x1 : Fin 32} {x2 : Fin 32} {x3 : Fin 32} {x4 : BitVec 11} (h : Kept T r s) (hT : Within 16789518 T) : KeptO T r (execCnote x0 x1 x2 x3 x4 s) := by
  unfold execCnote
  repeat' first
    | with_reducible assumption
    | exact Within.of hT rfl
    | with_reducible apply KeptO.next
    | with_reducible apply KeptE.next
    | with_reducible apply KeptE.trap
    | with_reducible apply KeptE.jump
    | with_reducible apply KeptE.back
    | with_reducible apply KeptE.stop
    | (with_reducible apply State.insn_kept; on_goal 2 => (intro _ _ _; beta_reduce))
    | with_reducible apply cnoteBody_kept

/-! ## Machine/SogCtl.lean -/

theorem branchBody_kept {T : Nat} {r s : State} {x0 : ℕ} {x1 : ℕ} {x2 : BitVec 16} {x3 : Word → Word → Bool} {x5 : Cycle} (h : Kept T r s) (hT : Within 0 T) : KeptE T r (branchBody x0 x1 x2 x3 s x5) := by
  unfold branchBody
  repeat' first
    | with_reducible apply KeptE.ite
    | with_reducible apply Kept.ite
    | with_reducible assumption
    | exact Within.of hT rfl
    | with_reducible apply KeptE.next
    | with_reducible apply KeptE.trap
    | with_reducible apply KeptE.jump
    | with_reducible apply KeptE.back
    | with_reducible apply KeptE.stop

theorem execBeq_kept {T : Nat} {r s : State} {x0 : Fin 4} {x1 : Fin 32} {x2 : Fin 32} {x3 : BitVec 16} (h : Kept T r s) (hT : Within 16789518 T) : KeptO T r (execBeq x0 x1 x2 x3 s) := by
  unfold execBeq
  repeat' first
    | with_reducible assumption
    | exact Within.of hT rfl
    | with_reducible apply KeptO.next
    | with_reducible apply KeptE.next
    | with_reducible apply KeptE.trap
    | with_reducible apply KeptE.jump
    | with_reducible apply KeptE.back
    | with_reducible apply KeptE.stop
    | (with_reducible apply State.insn_kept; on_goal 2 => (intro _ _ _; beta_reduce))
    | with_reducible apply branchBody_kept

theorem execBne_kept {T : Nat} {r s : State} {x0 : Fin 4} {x1 : Fin 32} {x2 : Fin 32} {x3 : BitVec 16} (h : Kept T r s) (hT : Within 16789518 T) : KeptO T r (execBne x0 x1 x2 x3 s) := by
  unfold execBne
  repeat' first
    | with_reducible assumption
    | exact Within.of hT rfl
    | with_reducible apply KeptO.next
    | with_reducible apply KeptE.next
    | with_reducible apply KeptE.trap
    | with_reducible apply KeptE.jump
    | with_reducible apply KeptE.back
    | with_reducible apply KeptE.stop
    | (with_reducible apply State.insn_kept; on_goal 2 => (intro _ _ _; beta_reduce))
    | with_reducible apply branchBody_kept

theorem execBlt_kept {T : Nat} {r s : State} {x0 : Fin 4} {x1 : Fin 32} {x2 : Fin 32} {x3 : BitVec 16} (h : Kept T r s) (hT : Within 16789518 T) : KeptO T r (execBlt x0 x1 x2 x3 s) := by
  unfold execBlt
  repeat' first
    | with_reducible assumption
    | exact Within.of hT rfl
    | with_reducible apply KeptO.next
    | with_reducible apply KeptE.next
    | with_reducible apply KeptE.trap
    | with_reducible apply KeptE.jump
    | with_reducible apply KeptE.back
    | with_reducible apply KeptE.stop
    | (with_reducible apply State.insn_kept; on_goal 2 => (intro _ _ _; beta_reduce))
    | with_reducible apply branchBody_kept

theorem execBge_kept {T : Nat} {r s : State} {x0 : Fin 4} {x1 : Fin 32} {x2 : Fin 32} {x3 : BitVec 16} (h : Kept T r s) (hT : Within 16789518 T) : KeptO T r (execBge x0 x1 x2 x3 s) := by
  unfold execBge
  repeat' first
    | with_reducible assumption
    | exact Within.of hT rfl
    | with_reducible apply KeptO.next
    | with_reducible apply KeptE.next
    | with_reducible apply KeptE.trap
    | with_reducible apply KeptE.jump
    | with_reducible apply KeptE.back
    | with_reducible apply KeptE.stop
    | (with_reducible apply State.insn_kept; on_goal 2 => (intro _ _ _; beta_reduce))
    | with_reducible apply branchBody_kept

theorem execBltu_kept {T : Nat} {r s : State} {x0 : Fin 4} {x1 : Fin 32} {x2 : Fin 32} {x3 : BitVec 16} (h : Kept T r s) (hT : Within 16789518 T) : KeptO T r (execBltu x0 x1 x2 x3 s) := by
  unfold execBltu
  repeat' first
    | with_reducible assumption
    | exact Within.of hT rfl
    | with_reducible apply KeptO.next
    | with_reducible apply KeptE.next
    | with_reducible apply KeptE.trap
    | with_reducible apply KeptE.jump
    | with_reducible apply KeptE.back
    | with_reducible apply KeptE.stop
    | (with_reducible apply State.insn_kept; on_goal 2 => (intro _ _ _; beta_reduce))
    | with_reducible apply branchBody_kept

theorem execBgeu_kept {T : Nat} {r s : State} {x0 : Fin 4} {x1 : Fin 32} {x2 : Fin 32} {x3 : BitVec 16} (h : Kept T r s) (hT : Within 16789518 T) : KeptO T r (execBgeu x0 x1 x2 x3 s) := by
  unfold execBgeu
  repeat' first
    | with_reducible assumption
    | exact Within.of hT rfl
    | with_reducible apply KeptO.next
    | with_reducible apply KeptE.next
    | with_reducible apply KeptE.trap
    | with_reducible apply KeptE.jump
    | with_reducible apply KeptE.back
    | with_reducible apply KeptE.stop
    | (with_reducible apply State.insn_kept; on_goal 2 => (intro _ _ _; beta_reduce))
    | with_reducible apply branchBody_kept

theorem bfBody_kept {T : Nat} {r s : State} {x0 : ℕ} {x1 : ℕ} {x2 : BitVec 16} {x4 : Cycle} (h : Kept T r s) (hT : Within 0 T) : KeptE T r (bfBody x0 x1 x2 s x4) := by
  unfold bfBody
  repeat' first
    | with_reducible apply KeptE.ite
    | with_reducible apply Kept.ite
    | with_reducible assumption
    | exact Within.of hT rfl
    | with_reducible apply KeptE.next
    | with_reducible apply KeptE.trap
    | with_reducible apply KeptE.jump
    | with_reducible apply KeptE.back
    | with_reducible apply KeptE.stop

theorem execBf_kept {T : Nat} {r s : State} {x0 : Fin 4} {x1 : Fin 32} {x2 : Fin 32} {x3 : BitVec 16} (h : Kept T r s) (hT : Within 16789518 T) : KeptO T r (execBf x0 x1 x2 x3 s) := by
  unfold execBf
  repeat' first
    | with_reducible assumption
    | exact Within.of hT rfl
    | with_reducible apply KeptO.next
    | with_reducible apply KeptE.next
    | with_reducible apply KeptE.trap
    | with_reducible apply KeptE.jump
    | with_reducible apply KeptE.back
    | with_reducible apply KeptE.stop
    | (with_reducible apply State.insn_kept; on_goal 2 => (intro _ _ _; beta_reduce))
    | with_reducible apply bfBody_kept

theorem jBody_kept {T : Nat} {r s : State} {x0 : BitVec 26} {x2 : Cycle} (h : Kept T r s) (hT : Within 0 T) : KeptE T r (jBody x0 s x2) := by
  unfold jBody
  repeat' first
    | with_reducible assumption
    | exact Within.of hT rfl
    | with_reducible apply KeptE.next
    | with_reducible apply KeptE.trap
    | with_reducible apply KeptE.jump
    | with_reducible apply KeptE.back
    | with_reducible apply KeptE.stop

theorem execJ_kept {T : Nat} {r s : State} {x0 : Fin 4} {x1 : BitVec 26} (h : Kept T r s) (hT : Within 16789518 T) : KeptO T r (execJ x0 x1 s) := by
  unfold execJ
  repeat' first
    | with_reducible assumption
    | exact Within.of hT rfl
    | with_reducible apply KeptO.next
    | with_reducible apply KeptE.next
    | with_reducible apply KeptE.trap
    | with_reducible apply KeptE.jump
    | with_reducible apply KeptE.back
    | with_reducible apply KeptE.stop
    | (with_reducible apply State.insn_kept; on_goal 2 => (intro _ _ _; beta_reduce))
    | with_reducible apply jBody_kept

theorem jlBody_kept {T : Nat} {r s : State} {x0 : BitVec 26} {x2 : Cycle} (h : Kept T r s) (hT : Within 0 T) : KeptE T r (jlBody x0 s x2) := by
  unfold jlBody
  repeat' first
    | with_reducible assumption
    | exact Within.of hT rfl
    | with_reducible apply KeptE.next
    | with_reducible apply KeptE.trap
    | with_reducible apply KeptE.jump
    | with_reducible apply KeptE.back
    | with_reducible apply KeptE.stop

theorem execJl_kept {T : Nat} {r s : State} {x0 : Fin 4} {x1 : BitVec 26} (h : Kept T r s) (hT : Within 16789518 T) : KeptO T r (execJl x0 x1 s) := by
  unfold execJl
  repeat' first
    | with_reducible assumption
    | exact Within.of hT rfl
    | with_reducible apply KeptO.next
    | with_reducible apply KeptE.next
    | with_reducible apply KeptE.trap
    | with_reducible apply KeptE.jump
    | with_reducible apply KeptE.back
    | with_reducible apply KeptE.stop
    | (with_reducible apply State.insn_kept; on_goal 2 => (intro _ _ _; beta_reduce))
    | with_reducible apply jlBody_kept

theorem jrBody_kept {T : Nat} {r s : State} {x0 : ℕ} {x1 : ℕ} {x2 : ℕ} {x3 : ℕ} {x5 : Cycle} (h : Kept T r s) (hT : Within 0 T) : KeptE T r (jrBody x0 x1 x2 x3 s x5) := by
  unfold jrBody
  repeat' first
    | with_reducible apply KeptE.ite
    | with_reducible apply Kept.ite
    | with_reducible assumption
    | exact Within.of hT rfl
    | with_reducible apply KeptE.next
    | with_reducible apply KeptE.trap
    | with_reducible apply KeptE.jump
    | with_reducible apply KeptE.back
    | with_reducible apply KeptE.stop

theorem execJr_kept {T : Nat} {r s : State} {x0 : Fin 4} {x1 : Fin 32} {x2 : Fin 32} {x3 : Fin 32} {x4 : BitVec 11} (h : Kept T r s) (hT : Within 16789518 T) : KeptO T r (execJr x0 x1 x2 x3 x4 s) := by
  unfold execJr
  repeat' first
    | with_reducible assumption
    | exact Within.of hT rfl
    | with_reducible apply KeptO.next
    | with_reducible apply KeptE.next
    | with_reducible apply KeptE.trap
    | with_reducible apply KeptE.jump
    | with_reducible apply KeptE.back
    | with_reducible apply KeptE.stop
    | (with_reducible apply State.insn_kept; on_goal 2 => (intro _ _ _; beta_reduce))
    | with_reducible apply jrBody_kept

theorem selBody_kept {T : Nat} {r s : State} {x0 : ℕ} {x1 : ℕ} {x2 : ℕ} {x3 : ℕ} {x5 : Cycle} (h : Kept T r s) (hT : Within 0 T) : KeptE T r (selBody x0 x1 x2 x3 s x5) := by
  unfold selBody
  repeat' first
    | with_reducible apply KeptE.ite
    | with_reducible apply Kept.ite
    | with_reducible assumption
    | exact Within.of hT rfl
    | with_reducible apply KeptE.next
    | with_reducible apply KeptE.trap
    | with_reducible apply KeptE.jump
    | with_reducible apply KeptE.back
    | with_reducible apply KeptE.stop

theorem execSel_kept {T : Nat} {r s : State} {x0 : Fin 4} {x1 : Fin 32} {x2 : Fin 32} {x3 : Fin 32} {x4 : BitVec 11} (h : Kept T r s) (hT : Within 16789518 T) : KeptO T r (execSel x0 x1 x2 x3 x4 s) := by
  unfold execSel
  repeat' first
    | with_reducible assumption
    | exact Within.of hT rfl
    | with_reducible apply KeptO.next
    | with_reducible apply KeptE.next
    | with_reducible apply KeptE.trap
    | with_reducible apply KeptE.jump
    | with_reducible apply KeptE.back
    | with_reducible apply KeptE.stop
    | (with_reducible apply State.insn_kept; on_goal 2 => (intro _ _ _; beta_reduce))
    | with_reducible apply selBody_kept

theorem limBody_kept {T : Nat} {r s : State} {x0 : ℕ} {x1 : ℕ} {x2 : BitVec 16} {x4 : Cycle} (h : Kept T r s) (hT : Within 0 T) : KeptE T r (limBody x0 x1 x2 s x4) := by
  unfold limBody
  repeat' first
    | with_reducible apply KeptE.ite
    | with_reducible apply Kept.ite
    | with_reducible assumption
    | exact Within.of hT rfl
    | with_reducible apply KeptE.next
    | with_reducible apply KeptE.trap
    | with_reducible apply KeptE.jump
    | with_reducible apply KeptE.back
    | with_reducible apply KeptE.stop

theorem execLim_kept {T : Nat} {r s : State} {x0 : Fin 4} {x1 : Fin 32} {x2 : Fin 32} {x3 : BitVec 16} (h : Kept T r s) (hT : Within 16789518 T) : KeptO T r (execLim x0 x1 x2 x3 s) := by
  unfold execLim
  repeat' first
    | with_reducible assumption
    | exact Within.of hT rfl
    | with_reducible apply KeptO.next
    | with_reducible apply KeptE.next
    | with_reducible apply KeptE.trap
    | with_reducible apply KeptE.jump
    | with_reducible apply KeptE.back
    | with_reducible apply KeptE.stop
    | (with_reducible apply State.insn_kept; on_goal 2 => (intro _ _ _; beta_reduce))
    | with_reducible apply limBody_kept

theorem loopBody_kept {T : Nat} {r s : State} {x0 : ℕ} {x1 : ℕ} {x2 : ℕ} {x3 : ℕ} {x5 : Cycle} (h : Kept T r s) (hT : Within 0 T) : KeptE T r (loopBody x0 x1 x2 x3 s x5) := by
  unfold loopBody
  repeat' first
    | with_reducible apply KeptE.ite
    | with_reducible apply Kept.ite
    | with_reducible assumption
    | exact Within.of hT rfl
    | with_reducible apply KeptE.next
    | with_reducible apply KeptE.trap
    | with_reducible apply KeptE.jump
    | with_reducible apply KeptE.back
    | with_reducible apply KeptE.stop
    | (fail_if_no_progress with_reducible refine Kept.mk' ?_ rfl rfl)
    | split

theorem execLoop_kept {T : Nat} {r s : State} {x0 : Fin 4} {x1 : Fin 32} {x2 : Fin 32} {x3 : Fin 32} {x4 : BitVec 11} (h : Kept T r s) (hT : Within 16789518 T) : KeptO T r (execLoop x0 x1 x2 x3 x4 s) := by
  unfold execLoop
  repeat' first
    | with_reducible assumption
    | exact Within.of hT rfl
    | with_reducible apply KeptO.next
    | with_reducible apply KeptE.next
    | with_reducible apply KeptE.trap
    | with_reducible apply KeptE.jump
    | with_reducible apply KeptE.back
    | with_reducible apply KeptE.stop
    | (with_reducible apply State.insn_kept; on_goal 2 => (intro _ _ _; beta_reduce))
    | with_reducible apply loopBody_kept

theorem callTo_kept {T : Nat} {r s : State} {x0 : ℕ} {x1 : ℕ} {x3 : Cycle} (h : Kept T r s) (hT : Within 4096 T) : KeptE T r (callTo x0 x1 s x3) := by
  unfold callTo
  repeat' first
    | with_reducible apply KeptE.ite
    | with_reducible apply Kept.ite
    | with_reducible assumption
    | exact Within.of hT rfl
    | with_reducible apply KeptE.next
    | with_reducible apply KeptE.trap
    | with_reducible apply KeptE.jump
    | with_reducible apply KeptE.back
    | with_reducible apply KeptE.stop
    | with_reducible apply State.setLane_kept
    | (fail_if_no_progress with_reducible refine Kept.mk' ?_ rfl rfl)
    | split

theorem execCallv_kept {T : Nat} {r s : State} {x0 : Fin 4} {x1 : BitVec 10} {x2 : BitVec 16} (h : Kept T r s) (hT : Within 16789518 T) : KeptO T r (execCallv x0 x1 x2 s) := by
  unfold execCallv
  repeat' first
    | with_reducible assumption
    | exact Within.of hT rfl
    | with_reducible apply KeptO.next
    | with_reducible apply KeptE.next
    | with_reducible apply KeptE.trap
    | with_reducible apply KeptE.jump
    | with_reducible apply KeptE.back
    | with_reducible apply KeptE.stop
    | (with_reducible apply State.insn_kept; on_goal 2 => (intro _ _ _; beta_reduce))
    | with_reducible apply callTo_kept

theorem callvrBody_kept {T : Nat} {r s : State} {x0 : ℕ} {x1 : ℕ} {x2 : ℕ} {x3 : ℕ} {x5 : Cycle} (h : Kept T r s) (hT : Within 4096 T) : KeptE T r (callvrBody x0 x1 x2 x3 s x5) := by
  unfold callvrBody
  repeat' first
    | with_reducible apply KeptE.ite
    | with_reducible apply Kept.ite
    | with_reducible assumption
    | exact Within.of hT rfl
    | with_reducible apply KeptE.next
    | with_reducible apply KeptE.trap
    | with_reducible apply KeptE.jump
    | with_reducible apply KeptE.back
    | with_reducible apply KeptE.stop
    | with_reducible apply callTo_kept

theorem execCallvr_kept {T : Nat} {r s : State} {x0 : Fin 4} {x1 : Fin 32} {x2 : Fin 32} {x3 : Fin 32} {x4 : BitVec 11} (h : Kept T r s) (hT : Within 16789518 T) : KeptO T r (execCallvr x0 x1 x2 x3 x4 s) := by
  unfold execCallvr
  repeat' first
    | with_reducible assumption
    | exact Within.of hT rfl
    | with_reducible apply KeptO.next
    | with_reducible apply KeptE.next
    | with_reducible apply KeptE.trap
    | with_reducible apply KeptE.jump
    | with_reducible apply KeptE.back
    | with_reducible apply KeptE.stop
    | (with_reducible apply State.insn_kept; on_goal 2 => (intro _ _ _; beta_reduce))
    | with_reducible apply callvrBody_kept

theorem State.commit_kept {T : Nat} {r s : State} {x1 : Cycle} {x2 : List (ℕ × Word)} (h : Kept T r s) (hT : Within 2048 T) : Kept T r (State.commit s x1 x2) := by
  unfold State.commit
  repeat' first
    | with_reducible apply Kept.ite
    | with_reducible assumption
    | exact Within.of hT rfl
    | with_reducible apply State.storeNat_kept
    | (fail_if_no_progress with_reducible refine Kept.mk' ?_ rfl rfl)
    | (with_reducible apply Kept.foldl; on_goal 2 => (intro _ _ _; beta_reduce))
    | (with_reducible apply Kept.foldlSnd; on_goal 2 => (intro _ _ _; beta_reduce))
    | split

theorem retvBody_kept {T : Nat} {r s : State} {x0 : ℕ} {x2 : Cycle} (h : Kept T r s) (hT : Within 6144 T) : KeptE T r (retvBody x0 s x2) := by
  unfold retvBody
  repeat' first
    | with_reducible apply KeptE.ite
    | with_reducible apply Kept.ite
    | with_reducible assumption
    | exact Within.of hT rfl
    | with_reducible apply KeptE.next
    | with_reducible apply KeptE.trap
    | with_reducible apply KeptE.jump
    | with_reducible apply KeptE.back
    | with_reducible apply KeptE.stop
    | with_reducible apply State.setLane_kept
    | with_reducible apply State.commit_kept
    | (fail_if_no_progress with_reducible refine Kept.mk' ?_ rfl rfl)
    | split

theorem execRetv_kept {T : Nat} {r s : State} {x0 : Fin 4} {x1 : BitVec 26} (h : Kept T r s) (hT : Within 16791566 T) : KeptO T r (execRetv x0 x1 s) := by
  unfold execRetv
  repeat' first
    | with_reducible assumption
    | exact Within.of hT rfl
    | with_reducible apply KeptO.next
    | with_reducible apply KeptE.next
    | with_reducible apply KeptE.trap
    | with_reducible apply KeptE.jump
    | with_reducible apply KeptE.back
    | with_reducible apply KeptE.stop
    | (with_reducible apply State.insn_kept; on_goal 2 => (intro _ _ _; beta_reduce))
    | with_reducible apply retvBody_kept

/-! ## Machine/SogDecode.lean -/

theorem groupBody_kept {T : Nat} {r s : State} {c : Cycle} {t} {w : Word} (h : Kept T r s) (hT : Within 0 T) : KeptE T r ((groupBody t w).2 s c) := by
  unfold groupBody
  split
  · exact aluBody_kept h (.of hT (by decide))
  · exact .trap

theorem opBody_kept {T : Nat} {r s : State} {c : Cycle} {w : Word} {n : Nat} (h : Kept T r s) (hT : Within 16783370 T) : KeptE T r ((opBody w n).2 s c) := by
  unfold opBody
  split <;> first
    | with_reducible exact .trap
    | with_reducible exact aluBody_kept h (.of hT (by decide))
    | with_reducible exact bfBody_kept h (.of hT (by decide))
    | with_reducible exact branchBody_kept h (.of hT (by decide))
    | with_reducible exact callTo_kept h (.of hT (by decide))
    | with_reducible exact callvrBody_kept h (.of hT (by decide))
    | with_reducible exact cnoteBody_kept h (.of hT (by decide))
    | with_reducible exact evrBody_kept h (.of hT (by decide))
    | with_reducible exact fcmpBody_kept h (.of hT (by decide))
    | with_reducible exact gsetBody_kept h (.of hT (by decide))
    | with_reducible exact ildBody_kept h (.of hT (by decide))
    | with_reducible exact immBody_kept h (.of hT (by decide))
    | with_reducible exact jBody_kept h (.of hT (by decide))
    | with_reducible exact jlBody_kept h (.of hT (by decide))
    | with_reducible exact jrBody_kept h (.of hT (by decide))
    | with_reducible exact limBody_kept h (.of hT (by decide))
    | with_reducible exact loadBody_kept h (.of hT (by decide))
    | with_reducible exact loadPairBody_kept h (.of hT (by decide))
    | with_reducible exact mfsBody_kept h (.of hT (by decide))
    | with_reducible exact loopBody_kept h (.of hT (by decide))
    | with_reducible exact mtfBody_kept h (.of hT (by decide))
    | with_reducible exact nldBody_kept h (.of hT (by decide))
    | with_reducible exact nstBody_kept h (.of hT (by decide))
    | with_reducible exact ostBody_kept h (.of hT (by decide))
    | with_reducible exact retvBody_kept h (.of hT (by decide))
    | with_reducible exact selBody_kept h (.of hT (by decide))
    | with_reducible exact shldBody_kept h (.of hT (by decide))
    | with_reducible exact shstBody_kept h (.of hT (by decide))
    | with_reducible exact sldBody_kept h (.of hT (by decide))
    | with_reducible exact sldpBody_kept h (.of hT (by decide))
    | with_reducible exact storeBody_kept h (.of hT (by decide))
    | with_reducible exact storePairBody_kept h (.of hT (by decide))
    | with_reducible exact wideBody_kept h (.of hT (by decide))

theorem wordBody_kept {T : Nat} {r s : State} {c : Cycle} {w : Word} (h : Kept T r s) (hT : Within 16783370 T) : KeptE T r ((wordBody w).2 s c) := by
  unfold wordBody
  split
  · exact groupBody_kept h (.of hT (by decide))
  · split
    · exact wideBody_kept h (.of hT (by decide))
    · exact .trap
  · exact groupBody_kept h (.of hT (by decide))
  · split
    · exact fcmpBody_kept h (.of hT (by decide))
    · exact groupBody_kept h (.of hT (by decide))
  · split
    · exact mfsBody_kept h (.of hT (by decide))
    · split
      · exact mtfBody_kept h (.of hT (by decide))
      · exact .trap
  · split
    · exact immBody_kept h (.of hT (by decide))
    · exact opBody_kept h (.of hT (by decide))

theorem execIllegalOpcode_kept {T : Nat} {r s : State} {x0 : Fin 4} {x1 : Word} (h : Kept T r s) (hT : Within 16789518 T) : KeptO T r (execIllegalOpcode x0 x1 s) := by
  unfold execIllegalOpcode
  repeat' first
    | with_reducible apply KeptE.ite
    | with_reducible apply KeptO.ite
    | with_reducible apply Kept.ite
    | with_reducible assumption
    | exact Within.of hT rfl
    | with_reducible apply KeptO.next
    | with_reducible apply KeptE.next
    | with_reducible apply KeptE.trap
    | with_reducible apply KeptE.jump
    | with_reducible apply KeptE.back
    | with_reducible apply KeptE.stop
    | (with_reducible apply State.insn_kept; on_goal 2 => (intro _ _ _; beta_reduce))
    | (fail_if_no_progress with_reducible refine Kept.mk' ?_ rfl rfl)
    | split

theorem State.runOne_kept {T : Nat} {r s : State} {c : Cycle} (h : Kept T r s) (hT : Within 16791566 T) : Kept T r (s.runOne c) :=
  State.insnGo_kept h (fun _ _ k => wordBody_kept k (.of hT (by decide)))

theorem State.runCycle_kept {T : Nat} {r s : State} {x0 : ℕ} {x1 : ℕ} {x2 : ℕ} {x3 : ℕ} (h : Kept T r s) (hT : Within 16791566 T := by
    first | exact Within.refl _ | (refine Within.of (b := ?zb) ?zw ?ze; (case zw => assumption); (case ze => decide))) : Kept T r (State.runCycle x0 x1 x2 x3 s) := by
  induction x0 generalizing s x1 x2 x3 with
  | zero => exact h
  | succ f ih =>
  unfold State.runCycle
  repeat' first
    | split
    | with_reducible assumption
    | exact Within.of hT rfl
    | with_reducible apply ih
    | with_reducible apply State.endCycle_kept
    | with_reducible apply State.recordExc_kept
    | with_reducible apply State.runOne_kept

end Sys2Proof.Machine
end

