-- ==== Sys2Proof/Laws/KeptIo.lean ====
section
/-!
SUPPORT. Laws/KeptIo.lean: what each operation of universal channels and Ethernet keeps (the relation Kept of Laws/Kept.lean), one lemma
per operation.
-/
set_option linter.unusedTactic false
set_option linter.unreachableTactic false
set_option linter.unusedVariables false
set_option Elab.async false
namespace Sys2Proof.Machine
open Sys2Proof

/-! ## Machine/Uch.lean -/

theorem State.setUch_kept {T : Nat} {r s : State} {x1 : ℕ} {x2 : UchSt} (h : Kept T r s) (hT : Within 32768 T) : Kept T r (State.setUch s x1 x2) := by
  unfold State.setUch
  repeat' first
    | with_reducible apply Kept.ite
    | with_reducible assumption
    | exact Within.of hT rfl
    | (fail_if_no_progress with_reducible refine Kept.mk' ?_ rfl rfl)

theorem State.setUchGroup_kept {T : Nat} {r s : State} {x1 : ℕ} {x2 : UchGrp} (h : Kept T r s) (hT : Within 65536 T) : Kept T r (State.setUchGroup s x1 x2) := by
  unfold State.setUchGroup
  repeat' first
    | with_reducible apply Kept.ite
    | with_reducible assumption
    | exact Within.of hT rfl
    | (fail_if_no_progress with_reducible refine Kept.mk' ?_ rfl rfl)

theorem State.uchNote_kept {T : Nat} {r s : State} {x1 : ℕ} (h : Kept T r s) (hT : Within 32768 T) : Kept T r (State.uchNote s x1) := by
  unfold State.uchNote
  repeat' first
    | with_reducible assumption
    | exact Within.of hT rfl
    | with_reducible apply State.setUch_kept

theorem State.putAcc_kept {T : Nat} {r s : State} {x1 : ℕ} {x2 : UchAcc} (h : Kept T r s) (hT : Within 2 T) : Kept T r (State.putAcc s x1 x2) := by
  unfold State.putAcc
  repeat' first
    | with_reducible assumption
    | exact Within.of hT rfl
    | with_reducible apply State.set_kept
    | with_reducible apply State.set64_kept

theorem State.uchClear_kept {T : Nat} {r s : State} {x1 : ℕ} {x2 : ℕ} (h : Kept T r s) (hT : Within 32770 T) : Kept T r (State.uchClear s x1 x2) := by
  unfold State.uchClear
  repeat' first
    | with_reducible assumption
    | exact Within.of hT rfl
    | with_reducible apply State.set64_kept
    | with_reducible apply State.putAcc_kept
    | with_reducible apply State.set_kept
    | with_reducible apply State.uchNote_kept
    | with_reducible apply State.setUch_kept

theorem State.uchCount_kept {T : Nat} {r s : State} {x1 : ℕ} {x2 : ℤ} {x3 : Bool} {x4 : ℕ} (h : Kept T r s) (hT : Within 32770 T) : Kept T r (State.uchCount s x1 x2 x3 x4) := by
  unfold State.uchCount
  repeat' first
    | with_reducible apply Kept.ite
    | with_reducible assumption
    | exact Within.of hT rfl
    | with_reducible apply State.setUch_kept
    | with_reducible apply State.putAcc_kept
    | with_reducible apply State.set_kept
    | with_reducible apply State.uchNote_kept

theorem State.uchSettle_kept {T : Nat} {r s : State} {x1 : ℕ} {x2 : ℕ} (h : Kept T r s) (hT : Within 32770 T) : Kept T r (State.uchSettle s x1 x2) := by
  unfold State.uchSettle
  repeat' first
    | with_reducible assumption
    | exact Within.of hT rfl
    | with_reducible apply State.setUch_kept
    | with_reducible apply State.set_kept
    | with_reducible apply State.uchClear_kept

theorem State.uchStart_kept {T : Nat} {r s : State} {x1 : ℕ} {x2 : Bool} (h : Kept T r s) (hT : Within 32770 T) : Kept T r (State.uchStart s x1 x2) := by
  unfold State.uchStart
  repeat' first
    | with_reducible assumption
    | exact Within.of hT rfl
    | with_reducible apply State.setUch_kept
    | with_reducible apply State.set_kept

theorem State.uchRequest_kept {T : Nat} {r s : State} {x1 : ℕ} (h : Kept T r s) (hT : Within 16809994 T) : Kept T r (State.uchRequest s x1) := by
  unfold State.uchRequest
  repeat' first
    | with_reducible apply Kept.ite
    | with_reducible assumption
    | exact Within.of hT rfl
    | with_reducible apply State.raise_kept
    | with_reducible apply State.bump_kept
    | with_reducible apply State.uchStart_kept

theorem execConversionStart_kept {T : Nat} {r s : State} {x0 : Fin 16} (h : Kept T r s) (hT : Within 32770 T := by
    first | exact Within.refl _ | (refine Within.of (b := ?zb) ?zw ?ze; (case zw => assumption); (case ze => decide))) : KeptO T r (execConversionStart x0 s) := by
  unfold execConversionStart
  repeat' first
    | with_reducible apply KeptO.ite
    | with_reducible apply Kept.ite
    | with_reducible assumption
    | exact Within.of hT rfl
    | with_reducible apply KeptO.next
    | with_reducible apply State.setUch_kept
    | with_reducible apply State.bump_kept
    | with_reducible apply State.uchStart_kept
    | (fail_if_no_progress with_reducible refine Kept.mk' ?_ rfl rfl)

theorem State.uchDiscard_kept {T : Nat} {r s : State} {x1 : ℕ} (h : Kept T r s) (hT : Within 32770 T) : Kept T r (State.uchDiscard s x1) := by
  unfold State.uchDiscard
  repeat' first
    | with_reducible apply Kept.ite
    | with_reducible assumption
    | exact Within.of hT rfl
    | with_reducible apply State.bump_kept
    | with_reducible apply State.set_kept
    | with_reducible apply State.uchNote_kept

theorem State.uchOpen_kept {T : Nat} {r s : State} {x1 : ℕ} (h : Kept T r s) (hT : Within 16809998 T) : Kept T r (State.uchOpen s x1) := by
  unfold State.uchOpen
  repeat' first
    | with_reducible apply Kept.ite
    | with_reducible assumption
    | exact Within.of hT rfl
    | with_reducible apply State.uchNote_kept
    | with_reducible apply State.log_kept
    | with_reducible apply State.raise_kept
    | with_reducible apply State.set_kept

theorem State.uchSupply_kept {T : Nat} {r s : State} {x1 : ℕ} (h : Kept T r s) (hT : Within 2 T) : Kept T r (State.uchSupply s x1) := by
  unfold State.uchSupply
  repeat' first
    | with_reducible apply Kept.ite
    | with_reducible assumption
    | exact Within.of hT rfl
    | with_reducible apply State.set_kept

theorem State.uchResult_kept {T : Nat} {r s : State} {x1 : ℕ} {x2 : ℤ} {x3 : Bool} {x4 : ℕ} (h : Kept T r s) (hT : Within 16809998 T) : Kept T r (State.uchResult s x1 x2 x3 x4) := by
  unfold State.uchResult
  repeat' first
    | with_reducible apply Kept.ite
    | with_reducible assumption
    | exact Within.of hT rfl
    | with_reducible apply State.uchSupply_kept
    | with_reducible apply State.setUch_kept
    | with_reducible apply State.uchOpen_kept
    | with_reducible apply State.uchCount_kept

theorem execConversionDone_kept {T : Nat} {r s : State} {x0 : Fin 16} {x1 : ℤ} {x2 : Bool} (h : Kept T r s) (hT : Within 16809998 T) : KeptO T r (execConversionDone x0 x1 x2 s) := by
  unfold execConversionDone
  repeat' first
    | with_reducible apply KeptO.ite
    | with_reducible apply Kept.ite
    | with_reducible assumption
    | exact Within.of hT rfl
    | with_reducible apply KeptO.next
    | with_reducible apply State.set_kept
    | with_reducible apply State.setUch_kept
    | with_reducible apply State.uchDiscard_kept
    | with_reducible apply State.uchResult_kept
    | (fail_if_no_progress with_reducible refine Kept.mk' ?_ rfl rfl)
    | split

theorem State.uchDrive_kept {T : Nat} {r s : State} {x1 : ℕ} (h : Kept T r s) (hT : Within 32770 T := by
    first | exact Within.refl _ | (refine Within.of (b := ?zb) ?zw ?ze; (case zw => assumption); (case ze => decide))) : Kept T r (State.uchDrive s x1) := by
  unfold State.uchDrive
  repeat' first
    | with_reducible apply Kept.ite
    | with_reducible assumption
    | exact Within.of hT rfl
    | with_reducible apply State.set_kept
    | with_reducible apply State.setUch_kept
    | with_reducible apply State.uchNote_kept

theorem State.uchCmd_kept {T : Nat} {r s : State} {x1 : ℕ} {x2 : Word} (h : Kept T r s) (hT : Within 32770 T) : Kept T r (State.uchCmd s x1 x2) := by
  unfold State.uchCmd
  repeat' first
    | with_reducible apply Kept.ite
    | with_reducible assumption
    | exact Within.of hT rfl
    | with_reducible apply State.setUch_kept
    | with_reducible apply State.set_kept

theorem State.uchCtrl_kept {T : Nat} {r s : State} {x1 : ℕ} {x2 : Word} (h : Kept T r s) (hT : Within 16809994 T) : Kept T r (State.uchCtrl s x1 x2) := by
  unfold State.uchCtrl
  repeat' first
    | with_reducible apply Kept.ite
    | with_reducible assumption
    | exact Within.of hT rfl
    | with_reducible apply State.setUch_kept
    | with_reducible apply State.uchClear_kept
    | with_reducible apply State.uchRequest_kept
    | with_reducible apply State.uchDrive_kept

theorem execCmdApply_kept {T : Nat} {r s : State} {x0 : Fin 16} (h : Kept T r s) (hT : Within 32770 T) : KeptO T r (execCmdApply x0 s) := by
  unfold execCmdApply
  repeat' first
    | with_reducible apply KeptO.ite
    | with_reducible apply Kept.ite
    | with_reducible assumption
    | exact Within.of hT rfl
    | with_reducible apply KeptO.next
    | with_reducible apply State.uchDrive_kept
    | with_reducible apply State.setUch_kept
    | (fail_if_no_progress with_reducible refine Kept.mk' ?_ rfl rfl)
    | split

theorem execThermal_kept {T : Nat} {r s : State} {x0 : Fin 16} {x1 : ℤ} (h : Kept T r s) (hT : Within 16809998 T) : KeptO T r (execThermal x0 x1 s) := by
  unfold execThermal
  repeat' first
    | with_reducible apply KeptO.ite
    | with_reducible apply Kept.ite
    | with_reducible assumption
    | exact Within.of hT rfl
    | with_reducible apply KeptO.next
    | with_reducible apply State.log_kept
    | with_reducible apply State.raise_kept
    | with_reducible apply State.set_kept
    | with_reducible apply State.uchDrive_kept

theorem execUchHctlClr_kept {T : Nat} {r s : State} {x0 : Fin 2} {x1 : Fin 16} {x2 : Word} (h : Kept T r s) (hT : Within 16810014 T) : KeptO T r (execUchHctlClr x0 x1 x2 s) := by
  unfold execUchHctlClr
  repeat' first
    | with_reducible apply KeptO.ite
    | with_reducible apply Kept.ite
    | with_reducible assumption
    | exact Within.of hT rfl
    | with_reducible apply KeptO.next
    | with_reducible apply State.gate_kept
    | (with_reducible apply whenAllowed_kept; on_goal 2 => (intro _ _; beta_reduce))
    | with_reducible apply State.uchClear_kept

theorem execUchHctlReq_kept {T : Nat} {r s : State} {x0 : Fin 2} {x1 : Fin 16} {x2 : Word} (h : Kept T r s) (hT : Within 16810014 T) : KeptO T r (execUchHctlReq x0 x1 x2 s) := by
  unfold execUchHctlReq
  repeat' first
    | with_reducible apply KeptO.ite
    | with_reducible apply Kept.ite
    | with_reducible assumption
    | exact Within.of hT rfl
    | with_reducible apply KeptO.next
    | with_reducible apply State.gate_kept
    | (with_reducible apply whenAllowed_kept; on_goal 2 => (intro _ _; beta_reduce))
    | with_reducible apply State.uchRequest_kept

theorem State.uchCompliance_kept {T : Nat} {r s : State} {x1 : ℕ} {x2 : Bool} {x3 : ℤ} (h : Kept T r s) (hT : Within 16777230 T) : Kept T r (State.uchCompliance s x1 x2 x3) := by
  unfold State.uchCompliance
  repeat' first
    | with_reducible assumption
    | exact Within.of hT rfl
    | with_reducible apply State.raise_kept
    | with_reducible apply State.set_kept
    | with_reducible apply State.log_kept

theorem State.uchTested_kept {T : Nat} {r s : State} {x1 : ℕ} {x2 : ℤ} (h : Kept T r s) (hT : Within 16809998 T) : Kept T r (State.uchTested s x1 x2) := by
  unfold State.uchTested
  repeat' first
    | with_reducible apply Kept.ite
    | with_reducible assumption
    | exact Within.of hT rfl
    | with_reducible apply State.setUch_kept
    | with_reducible apply State.uchSupply_kept
    | with_reducible apply State.set_kept
    | with_reducible apply State.uchNote_kept
    | with_reducible apply State.uchCompliance_kept

theorem State.uchReadback_kept {T : Nat} {r s : State} {x1 : ℕ} {x2 : ℕ} {x3 : ℤ} (h : Kept T r s) (hT : Within 16809998 T) : Kept T r (State.uchReadback s x1 x2 x3) := by
  unfold State.uchReadback
  repeat' first
    | with_reducible apply Kept.ite
    | with_reducible assumption
    | exact Within.of hT rfl
    | with_reducible apply State.uchDiscard_kept
    | with_reducible apply State.setUch_kept
    | with_reducible apply State.uchCount_kept
    | with_reducible apply State.uchTested_kept

theorem State.coldJunction_kept {T : Nat} {r s : State} {x1 : ℕ} {x2 : ℤ} (h : Kept T r s) (hT : Within 16777230 T) : Kept T r (State.coldJunction s x1 x2) := by
  unfold State.coldJunction
  repeat' first
    | with_reducible apply Kept.ite
    | with_reducible assumption
    | exact Within.of hT rfl
    | with_reducible apply State.log_kept
    | with_reducible apply State.raise_kept
    | with_reducible apply State.set_kept

theorem execReadbackSlot_kept {T : Nat} {r s : State} {x0 : Fin 4} {x1 : ℤ} (h : Kept T r s) (hT : Within 16875534 T := by
    first | exact Within.refl _ | (refine Within.of (b := ?zb) ?zw ?ze; (case zw => assumption); (case ze => decide))) : KeptO T r (execReadbackSlot x0 x1 s) := by
  unfold execReadbackSlot
  repeat' first
    | with_reducible apply KeptO.ite
    | with_reducible apply Kept.ite
    | with_reducible assumption
    | exact Within.of hT rfl
    | with_reducible apply KeptO.next
    | with_reducible apply State.setUchGroup_kept
    | with_reducible apply State.coldJunction_kept
    | with_reducible apply State.uchReadback_kept
    | (fail_if_no_progress with_reducible refine Kept.mk' ?_ rfl rfl)
    | (extract_lets +onlyGivenNames x; first | (with_reducible apply Kept.cut (T := T) (r := r) (x := x); on_goal 2 => (intro hx; clear_value x)) | clear_value x)
    | split

theorem State.hartEnd_kept {T : Nat} {r s : State} {x1 : ℕ} {x2 : ℕ} {x3 : ℕ} (h : Kept T r s) (hT : Within 16842766 T) : Kept T r (State.hartEnd s x1 x2 x3) := by
  unfold State.hartEnd
  repeat' first
    | with_reducible apply Kept.ite
    | with_reducible assumption
    | exact Within.of hT rfl
    | with_reducible apply State.setUchGroup_kept
    | with_reducible apply State.set_kept
    | with_reducible apply State.bump_kept
    | with_reducible apply State.raise_kept
    | with_reducible apply State.log_kept

theorem State.hartCut_kept {T : Nat} {r s : State} {x1 : ℕ} (h : Kept T r s) (hT : Within 16842766 T) : Kept T r (State.hartCut s x1) := by
  unfold State.hartCut
  repeat' first
    | with_reducible apply Kept.ite
    | with_reducible assumption
    | exact Within.of hT rfl
    | with_reducible apply State.hartEnd_kept
    | (fail_if_no_progress with_reducible refine Kept.mk' ?_ rfl rfl)
    | split

theorem execHartSend_kept {T : Nat} {r s : State} {x0 : Fin 2} {x1 : Fin 4} {x2 : Word} (h : Kept T r s) (hT : Within 16842782 T) : KeptO T r (execHartSend x0 x1 x2 s) := by
  unfold execHartSend
  repeat' first
    | with_reducible apply KeptO.ite
    | with_reducible apply Kept.ite
    | with_reducible assumption
    | exact Within.of hT rfl
    | with_reducible apply KeptO.next
    | with_reducible apply State.gate_kept
    | (with_reducible apply whenAllowed_kept; on_goal 2 => (intro _ _; beta_reduce))
    | with_reducible apply State.set_kept
    | with_reducible apply State.setUchGroup_kept
    | with_reducible apply State.emit_kept
    | with_reducible apply State.hartEnd_kept

theorem execHartAbort_kept {T : Nat} {r s : State} {x0 : Fin 2} {x1 : Fin 4} {x2 : Word} (h : Kept T r s) (hT : Within 16842782 T) : KeptO T r (execHartAbort x0 x1 x2 s) := by
  unfold execHartAbort
  repeat' first
    | with_reducible apply KeptO.ite
    | with_reducible apply Kept.ite
    | with_reducible assumption
    | exact Within.of hT rfl
    | with_reducible apply KeptO.next
    | with_reducible apply State.gate_kept
    | (with_reducible apply whenAllowed_kept; on_goal 2 => (intro _ _; beta_reduce))
    | with_reducible apply State.set_kept
    | with_reducible apply State.hartCut_kept

theorem State.hartStore_kept {T : Nat} {r s : State} {x1 : ℕ} {x2 : List Byte} (h : Kept T r s) (hT : Within 2 T) : Kept T r (State.hartStore s x1 x2) := by
  unfold State.hartStore
  repeat' first
    | with_reducible apply Kept.ite
    | with_reducible assumption
    | exact Within.of hT rfl
    | with_reducible apply State.wr_kept
    | (fail_if_no_progress with_reducible refine Kept.mk' ?_ rfl rfl)
    | (with_reducible apply Kept.foldl; on_goal 2 => (intro _ _ _; beta_reduce))
    | (with_reducible apply Kept.foldlSnd; on_goal 2 => (intro _ _ _; beta_reduce))
    | split

theorem execHartDone_kept {T : Nat} {r s : State} {x0 : Fin 4} {x1 : HartEnd} (h : Kept T r s) (hT : Within 16842766 T) : KeptO T r (execHartDone x0 x1 s) := by
  unfold execHartDone
  repeat' first
    | with_reducible apply KeptO.ite
    | with_reducible apply Kept.ite
    | with_reducible assumption
    | exact Within.of hT rfl
    | with_reducible apply KeptO.next
    | with_reducible apply State.hartEnd_kept
    | with_reducible apply State.set_kept
    | with_reducible apply State.hartStore_kept
    | (fail_if_no_progress with_reducible refine Kept.mk' ?_ rfl rfl)
    | split

theorem execHartFrameReceived_kept {T : Nat} {r s : State} {x0 : Fin 4} (h : Kept T r s) (hT : Within 2 T) : KeptO T r (execHartFrameReceived x0 s) := by
  unfold execHartFrameReceived
  repeat' first
    | with_reducible apply KeptO.ite
    | with_reducible apply Kept.ite
    | with_reducible assumption
    | exact Within.of hT rfl
    | with_reducible apply KeptO.next
    | with_reducible apply State.bump_kept

theorem State.setGroupFault_kept {T : Nat} {r s : State} {x1 : ℕ} {x2 : Bool} (h : Kept T r s) (hT : Within 98306 T) : Kept T r (State.setGroupFault s x1 x2) := by
  unfold State.setGroupFault
  repeat' first
    | with_reducible apply Kept.ite
    | with_reducible assumption
    | exact Within.of hT rfl
    | with_reducible apply State.set_kept
    | with_reducible apply State.setUchGroup_kept
    | with_reducible apply State.uchNote_kept
    | (fail_if_no_progress with_reducible refine Kept.mk' ?_ rfl rfl)
    | (with_reducible apply Kept.foldl; on_goal 2 => (intro _ _ _; beta_reduce))
    | (with_reducible apply Kept.foldlSnd; on_goal 2 => (intro _ _ _; beta_reduce))
    | split

theorem execGrpFault_kept {T : Nat} {r s : State} {x0 : Fin 4} (h : Kept T r s) (hT : Within 16875534 T) : KeptO T r (execGrpFault x0 s) := by
  unfold execGrpFault
  repeat' first
    | with_reducible apply KeptO.ite
    | with_reducible apply Kept.ite
    | with_reducible assumption
    | exact Within.of hT rfl
    | with_reducible apply KeptO.next
    | with_reducible apply State.log_kept
    | with_reducible apply State.raise_kept
    | with_reducible apply State.setGroupFault_kept
    | with_reducible apply State.hartCut_kept

theorem execGrpRecover_kept {T : Nat} {r s : State} {x0 : Fin 4} (h : Kept T r s) (hT : Within 16875534 T) : KeptO T r (execGrpRecover x0 s) := by
  unfold execGrpRecover
  repeat' first
    | with_reducible apply KeptO.ite
    | with_reducible apply Kept.ite
    | with_reducible assumption
    | exact Within.of hT rfl
    | with_reducible apply KeptO.next
    | with_reducible apply State.log_kept
    | with_reducible apply State.raise_kept
    | with_reducible apply State.setGroupFault_kept
    | with_reducible apply State.uchDrive_kept
    | with_reducible apply State.uchSettle_kept
    | (fail_if_no_progress with_reducible refine Kept.mk' ?_ rfl rfl)
    | (with_reducible apply Kept.foldl; on_goal 2 => (intro _ _ _; beta_reduce))
    | (with_reducible apply Kept.foldlSnd; on_goal 2 => (intro _ _ _; beta_reduce))
    | split

theorem execControllerAlarmDrive_kept {T : Nat} {r s : State} {x0 : Fin 4} (h : Kept T r s) (hT : Within 98304 T) : KeptO T r (execControllerAlarmDrive x0 s) := by
  unfold execControllerAlarmDrive
  repeat' first
    | with_reducible apply KeptO.ite
    | with_reducible apply Kept.ite
    | with_reducible assumption
    | exact Within.of hT rfl
    | with_reducible apply KeptO.next
    | with_reducible apply State.setUchGroup_kept
    | with_reducible apply State.setUch_kept
    | (fail_if_no_progress with_reducible refine Kept.mk' ?_ rfl rfl)
    | (with_reducible apply Kept.foldl; on_goal 2 => (intro _ _ _; beta_reduce))
    | (with_reducible apply Kept.foldlSnd; on_goal 2 => (intro _ _ _; beta_reduce))
    | split

theorem execStrapChg_kept {T : Nat} {r s : State} {x0 : Fin 4} {x1 : Bool} (h : Kept T r s) (hT : Within 16777230 T) : KeptO T r (execStrapChg x0 x1 s) := by
  unfold execStrapChg
  repeat' first
    | with_reducible apply KeptO.ite
    | with_reducible apply Kept.ite
    | with_reducible assumption
    | exact Within.of hT rfl
    | with_reducible apply KeptO.next
    | with_reducible apply State.log_kept
    | with_reducible apply State.raise_kept

theorem State.latchStraps_kept {T : Nat} {r s : State} {x1 : ℕ} (h : Kept T r s) (hT : Within 2 T) : Kept T r (State.latchStraps s x1) := by
  unfold State.latchStraps
  repeat' first
    | with_reducible assumption
    | exact Within.of hT rfl
    | with_reducible apply State.set_kept

theorem State.uchPowerUp_kept {T : Nat} {r s : State}  (h : Kept T r s) (hT : Within 32770 T) : Kept T r (State.uchPowerUp s) := by
  unfold State.uchPowerUp
  repeat' first
    | with_reducible apply Kept.ite
    | with_reducible assumption
    | exact Within.of hT rfl
    | with_reducible apply State.set_kept
    | with_reducible apply State.setUch_kept
    | with_reducible apply State.uchDrive_kept
    | with_reducible apply State.uchSupply_kept
    | with_reducible apply State.uchSettle_kept
    | (fail_if_no_progress with_reducible refine Kept.mk' ?_ rfl rfl)
    | (with_reducible apply Kept.foldl; on_goal 2 => (intro _ _ _; beta_reduce))
    | (with_reducible apply Kept.foldlSnd; on_goal 2 => (intro _ _ _; beta_reduce))
    | split

theorem State.uchPowerDown_kept {T : Nat} {r s : State}  (h : Kept T r s) (hT : Within 16875534 T) : Kept T r (State.uchPowerDown s) := by
  unfold State.uchPowerDown
  repeat' first
    | with_reducible apply Kept.ite
    | with_reducible assumption
    | exact Within.of hT rfl
    | with_reducible apply State.setUchGroup_kept
    | with_reducible apply State.hartCut_kept
    | with_reducible apply State.set_kept
    | with_reducible apply State.setUch_kept
    | with_reducible apply State.putAcc_kept
    | with_reducible apply State.wr_kept
    | (fail_if_no_progress with_reducible refine Kept.mk' ?_ rfl rfl)
    | (with_reducible apply Kept.foldl; on_goal 2 => (intro _ _ _; beta_reduce))
    | (with_reducible apply Kept.foldlSnd; on_goal 2 => (intro _ _ _; beta_reduce))
    | split

theorem State.uchReconfigure_kept {T : Nat} {r s : State} {x1 : ℕ} {x2 : ℕ} {x3 : Bool} {x4 : Bool} (h : Kept T r s) (hT : Within 16875534 T) : Kept T r (State.uchReconfigure s x1 x2 x3 x4) := by
  unfold State.uchReconfigure
  repeat' first
    | with_reducible apply Kept.ite
    | with_reducible assumption
    | exact Within.of hT rfl
    | with_reducible apply State.hartEnd_kept
    | with_reducible apply State.setUch_kept
    | with_reducible apply State.uchSettle_kept
    | with_reducible apply State.uchDrive_kept
    | with_reducible apply State.uchSupply_kept

/-! ## Machine/Ptp.lean -/

theorem State.ptpIgnore_kept {T : Nat} {r s : State} {x1 : ℕ} (h : Kept T r s) (hT : Within 2 T) : Kept T r (State.ptpIgnore s x1) := by
  unfold State.ptpIgnore
  repeat' first
    | with_reducible assumption
    | exact Within.of hT rfl
    | with_reducible apply State.bump_kept

theorem State.ptpUse_kept {T : Nat} {r s : State} {x1 : ℕ} (h : Kept T r s) (hT : Within 2 T) : Kept T r (State.ptpUse s x1) := by
  unfold State.ptpUse
  repeat' first
    | with_reducible assumption
    | exact Within.of hT rfl
    | with_reducible apply State.bump_kept

theorem State.pdRespond_kept {T : Nat} {r s : State} {x1 : ℕ} {x2 : PtpMsg} (h : Kept T r s) (hT : Within 16777218 T) : Kept T r (State.pdRespond s x1 x2) := by
  unfold State.pdRespond
  repeat' first
    | with_reducible assumption
    | exact Within.of hT rfl
    | with_reducible apply State.emit_kept
    | with_reducible apply State.ptpUse_kept

theorem State.ptpIn_kept {T : Nat} {r s : State} {x1 : ℕ} {x2 : PtpMsg} (h : Kept T r s) (hT : Within 25165826 T) : Kept T r (State.ptpIn s x1 x2) := by
  unfold State.ptpIn
  repeat' first
    | with_reducible apply Kept.ite
    | with_reducible assumption
    | exact Within.of hT rfl
    | with_reducible apply State.ptpIgnore_kept
    | with_reducible apply State.pdRespond_kept
    | (fail_if_no_progress with_reducible refine Kept.mk' ?_ rfl rfl)

theorem State.tcForward_kept {T : Nat} {r s : State} {x1 : ℕ} {x2 : PtpMsg} (h : Kept T r s) (hT : Within 8388610 T := by
    first | exact Within.refl _ | (refine Within.of (b := ?zb) ?zw ?ze; (case zw => assumption); (case ze => decide))) : Kept T r (State.tcForward s x1 x2).2 := by
  unfold State.tcForward
  repeat' first
    | with_reducible apply Kept.ite2
    | with_reducible apply Kept.ite
    | with_reducible assumption
    | exact Within.of hT rfl
    | with_reducible apply State.ptpIgnore_kept
    | (fail_if_no_progress with_reducible refine Kept.mk' ?_ rfl rfl)
    | split

/-! ## Machine/Eth.lean -/

theorem State.setEthCtx_kept {T : Nat} {r s : State} {x1 : ℕ} {x2 : EthCtx} (h : Kept T r s) (hT : Within 131072 T) : Kept T r (State.setEthCtx s x1 x2) := by
  unfold State.setEthCtx
  repeat' first
    | with_reducible apply Kept.ite
    | with_reducible assumption
    | exact Within.of hT rfl
    | (fail_if_no_progress with_reducible refine Kept.mk' ?_ rfl rfl)

theorem State.setLink_kept {T : Nat} {r s : State} {x1 : ℕ} {x2 : Bool} (h : Kept T r s) (hT : Within 2 T) : Kept T r (State.setLink s x1 x2) := by
  unfold State.setLink
  repeat' first
    | with_reducible assumption
    | exact Within.of hT rfl
    | with_reducible apply State.set_kept

theorem State.setLan_kept {T : Nat} {r s : State} {x1 : ℕ} {x2 : Bool} (h : Kept T r s) (hT : Within 2 T) : Kept T r (State.setLan s x1 x2) := by
  unfold State.setLan
  repeat' first
    | with_reducible assumption
    | exact Within.of hT rfl
    | with_reducible apply State.set_kept

theorem State.ethSend_kept {T : Nat} {r s : State} {x1 : ℕ} {x2 : ℕ} {x3 : EthOut} (h : Kept T r s) (hT : Within 16908288 T) : Kept T r (State.ethSend s x1 x2 x3) := by
  unfold State.ethSend
  repeat' first
    | with_reducible apply Kept.ite
    | with_reducible assumption
    | exact Within.of hT rfl
    | with_reducible apply State.emit_kept
    | (fail_if_no_progress with_reducible refine Kept.mk' ?_ rfl rfl)
    | (with_reducible apply Kept.foldl; on_goal 2 => (intro _ _ _; beta_reduce))
    | (with_reducible apply Kept.foldlSnd; on_goal 2 => (intro _ _ _; beta_reduce))
    | split

theorem State.route_kept {T : Nat} {r s : State} {x1 : Option ℕ} {x2 : ℕ} {x3 : EthFrame} (h : Kept T r s) (hT : Within 131072 T) : Kept T r (State.route s x1 x2 x3) := by
  unfold State.route
  repeat' first
    | with_reducible apply Kept.ite
    | with_reducible assumption
    | exact Within.of hT rfl
    | (fail_if_no_progress with_reducible refine Kept.mk' ?_ rfl rfl)

theorem State.noMatch_kept {T : Nat} {r s : State} {x1 : ℕ} (h : Kept T r s) (hT : Within 2 T) : Kept T r (State.noMatch s x1) := by
  unfold State.noMatch
  repeat' first
    | with_reducible assumption
    | exact Within.of hT rfl
    | with_reducible apply State.bump_kept

theorem State.ethRoute_kept {T : Nat} {r s : State} {x1 : ℕ} {x2 : EthFrame} (h : Kept T r s) (hT : Within 131074 T) : Kept T r (State.ethRoute s x1 x2) := by
  unfold State.ethRoute
  repeat' first
    | with_reducible apply Kept.ite
    | with_reducible assumption
    | exact Within.of hT rfl
    | with_reducible apply State.noMatch_kept
    | with_reducible apply State.route_kept
    | (fail_if_no_progress with_reducible refine Kept.mk' ?_ rfl rfl)
    | (with_reducible apply Kept.foldl; on_goal 2 => (intro _ _ _; beta_reduce))
    | (with_reducible apply Kept.foldlSnd; on_goal 2 => (intro _ _ _; beta_reduce))
    | split

theorem State.redundancy_kept {T : Nat} {r s : State} {x1 : ℕ} {x2 : EthFrame} (h : Kept T r s) (hT : Within 131074 T) : Kept T r (State.redundancy s x1 x2).2 := by
  unfold State.redundancy
  repeat' first
    | with_reducible apply Kept.ite2
    | with_reducible apply Kept.ite
    | with_reducible assumption
    | exact Within.of hT rfl
    | with_reducible apply State.bump_kept
    | (fail_if_no_progress with_reducible refine Kept.mk' ?_ rfl rfl)
    | split

theorem State.hsrForward_kept {T : Nat} {r s : State} {x1 : ℕ} {x2 : EthFrame} (h : Kept T r s) (hT : Within 25296898 T) : Kept T r (State.hsrForward s x1 x2) := by
  unfold State.hsrForward
  have fwd : ∀ {u : State} {o : Out} {p : Nat}, Kept T r u → Kept T r (if u.hasLink p then u.emit o else u) :=
    fun a => .ite (State.emit_kept a) a
  dsimp only
  split
  · exact h
  refine .ite h ?_
  split
  · refine .ite ?_ (fwd (Kept.mk' h rfl rfl))
    split
    · exact fwd (State.tcForward_kept (Kept.mk' h rfl rfl))
    · exact State.tcForward_kept (Kept.mk' h rfl rfl)
  · exact fwd (Kept.mk' h rfl rfl)

theorem State.ptpRoute_kept {T : Nat} {r s : State} {x1 : ℕ} {x2 : EthFrame} (h : Kept T r s) (hT : Within 25165826 T) : Kept T r (State.ptpRoute s x1 x2) := by
  unfold State.ptpRoute
  repeat' first
    | with_reducible apply Kept.ite
    | with_reducible assumption
    | exact Within.of hT rfl
    | with_reducible apply State.ptpIn_kept
    | (fail_if_no_progress with_reducible refine Kept.mk' ?_ rfl rfl)
    | split

theorem execEthFrameReceived_kept {T : Nat} {r s : State} {x0 : Fin 4} {x1 : EthFrame} (h : Kept T r s) (hT : Within 25296898 T) : KeptO T r (execEthFrameReceived x0 x1 s) := by
  unfold execEthFrameReceived
  repeat' first
    | with_reducible apply KeptO.ite
    | with_reducible apply Kept.ite
    | with_reducible assumption
    | exact Within.of hT rfl
    | with_reducible apply KeptO.next
    | with_reducible apply State.bump_kept
    | with_reducible apply State.setLan_kept
    | with_reducible apply State.ptpRoute_kept
    | with_reducible apply State.redundancy_kept
    | with_reducible apply State.ethRoute_kept
    | with_reducible apply State.hsrForward_kept
    | (fail_if_no_progress with_reducible refine Kept.mk' ?_ rfl rfl)

theorem execLinkChg_kept {T : Nat} {r s : State} {x0 : Fin 4} {x1 : Bool} (h : Kept T r s) (hT : Within 16908298 T) : KeptO T r (execLinkChg x0 x1 s) := by
  unfold execLinkChg
  repeat' first
    | with_reducible apply KeptO.ite
    | with_reducible apply Kept.ite
    | with_reducible assumption
    | exact Within.of hT rfl
    | with_reducible apply KeptO.next
    | with_reducible apply State.raise_kept
    | with_reducible apply State.setLink_kept
    | (fail_if_no_progress with_reducible refine Kept.mk' ?_ rfl rfl)

theorem execLanLoss_kept {T : Nat} {r s : State} {x0 : Fin 4} (h : Kept T r s) (hT : Within 16777230 T) : KeptO T r (execLanLoss x0 s) := by
  unfold execLanLoss
  repeat' first
    | with_reducible apply KeptO.ite
    | with_reducible apply Kept.ite
    | with_reducible assumption
    | exact Within.of hT rfl
    | with_reducible apply KeptO.next
    | with_reducible apply State.logNamed_kept
    | with_reducible apply State.raise_kept
    | with_reducible apply State.setLan_kept

theorem execPrpSupervisionSend_kept {T : Nat} {r s : State} {x0 : Fin 2} (h : Kept T r s) (hT : Within 16908288 T) : KeptO T r (execPrpSupervisionSend x0 s) := by
  unfold execPrpSupervisionSend
  repeat' first
    | with_reducible apply KeptO.ite
    | with_reducible apply Kept.ite
    | with_reducible assumption
    | exact Within.of hT rfl
    | with_reducible apply KeptO.next
    | with_reducible apply State.ethSend_kept
    | (fail_if_no_progress with_reducible refine Kept.mk' ?_ rfl rfl)

theorem State.gooseChange_kept {T : Nat} {r s : State} {x1 : ℕ} {x2 : ℕ} (h : Kept T r s) (hT : Within 17047562 T) : Kept T r (State.gooseChange s x1 x2) := by
  unfold State.gooseChange
  repeat' first
    | with_reducible assumption
    | exact Within.of hT rfl
    | with_reducible apply State.pendEvent_kept
    | with_reducible apply State.raise_kept

theorem State.pushData_kept {T : Nat} {r s : State} {x1 : ℕ} {x2 : DataTag} (h : Kept T r s) (hT : Within 128 T) : Kept T r (State.pushData s x1 x2) := by
  unfold State.pushData
  repeat' first
    | with_reducible assumption
    | exact Within.of hT rfl
    | with_reducible apply State.setCtx_kept

theorem State.talExpire_kept {T : Nat} {r s : State} {x1 : ℕ} {x2 : ℕ} (h : Kept T r s) (hT : Within 17178766 T) : Kept T r (State.talExpire s x1 x2) := by
  unfold State.talExpire
  repeat' first
    | with_reducible apply Kept.ite
    | with_reducible assumption
    | exact Within.of hT rfl
    | with_reducible apply State.setEthCtx_kept
    | with_reducible apply State.pushData_kept
    | with_reducible apply State.raise_kept
    | with_reducible apply State.bump_kept
    | with_reducible apply State.ctxMissing_kept
    | with_reducible apply State.logNamed_kept
    | with_reducible apply State.gooseChange_kept
    | (fail_if_no_progress with_reducible refine Kept.mk' ?_ rfl rfl)
    | split

theorem State.gooseAccept_kept {T : Nat} {r s : State} {x1 : ℕ} {x2 : ℕ} {x3 : GooseMsg} (h : Kept T r s) (hT : Within 16908426 T) : Kept T r (State.gooseAccept s x1 x2 x3) := by
  unfold State.gooseAccept
  repeat' first
    | with_reducible apply Kept.ite
    | with_reducible assumption
    | exact Within.of hT rfl
    | with_reducible apply State.setEthCtx_kept
    | with_reducible apply State.pushData_kept
    | with_reducible apply State.set64_kept
    | with_reducible apply State.set_kept
    | with_reducible apply State.ctxReceiving_kept
    | with_reducible apply State.setCtxState_kept

theorem State.gooseNew_kept {T : Nat} {r s : State} {x1 : ℕ} {x2 : ℕ} {x3 : GooseMsg} (h : Kept T r s) (hT : Within 17178762 T) : Kept T r (State.gooseNew s x1 x2 x3) := by
  unfold State.gooseNew
  repeat' first
    | with_reducible apply Kept.ite
    | with_reducible assumption
    | exact Within.of hT rfl
    | with_reducible apply State.bump_kept
    | with_reducible apply State.gooseChange_kept
    | with_reducible apply State.gooseAccept_kept

theorem State.gooseSupervise_kept {T : Nat} {r s : State} {x1 : ℕ} {x2 : ℕ} {x3 : GooseMsg} (h : Kept T r s) (hT : Within 17178762 T) : Kept T r (State.gooseSupervise s x1 x2 x3) := by
  unfold State.gooseSupervise
  repeat' first
    | with_reducible apply Kept.ite
    | with_reducible assumption
    | exact Within.of hT rfl
    | with_reducible apply State.gooseNew_kept
    | with_reducible apply State.gooseAccept_kept
    | with_reducible apply State.bump_kept

theorem State.confErr_kept {T : Nat} {r s : State} {x1 : ℕ} (h : Kept T r s) (hT : Within 16777226 T) : Kept T r (State.confErr s x1) := by
  unfold State.confErr
  repeat' first
    | with_reducible assumption
    | exact Within.of hT rfl
    | with_reducible apply State.raise_kept
    | with_reducible apply State.bump_kept

theorem State.takeWaiting_kept {T : Nat} {r s : State} {x1 : Routed → Bool} (h : Kept T r s) (hT : Within 131072 T := by
    first | exact Within.refl _ | (refine Within.of (b := ?zb) ?zw ?ze; (case zw => assumption); (case ze => decide))) : KeptS2 T r (State.takeWaiting s x1) := by
  unfold State.takeWaiting
  repeat' first
    | with_reducible apply KeptS2.ite
    | with_reducible apply Kept.ite2
    | with_reducible apply Kept.ite
    | with_reducible assumption
    | exact Within.of hT rfl
    | with_reducible apply KeptS2.some
    | with_reducible apply KeptS2.none
    | (fail_if_no_progress with_reducible refine Kept.mk' ?_ rfl rfl)
    | split
theorem State.takeWaiting_some {T : Nat} {r s : State} {t : Routed × State} {x1 : Routed → Bool} (h : Kept T r s) (e : (State.takeWaiting s x1) = some t) (hT : Within 131072 T) : Kept T r t.2 := State.takeWaiting_kept h (hT := hT) _ e
theorem State.takeWaiting_pair {T : Nat} {r s : State} {t} {w : State} {x1 : Routed → Bool} (h : Kept T r s) (e : (State.takeWaiting s x1) = some (t, w)) (hT : Within 131072 T) : Kept T r w := State.takeWaiting_kept h (hT := hT) _ e

theorem execGooseReceived_kept {T : Nat} {r s : State} {x0 : Fin 256} (h : Kept T r s) (hT : Within 17178766 T) : KeptO T r (execGooseReceived x0 s) := by
  unfold execGooseReceived
  repeat' first
    | with_reducible apply KeptO.ite
    | with_reducible apply Kept.ite
    | with_reducible assumption
    | exact Within.of hT rfl
    | with_reducible apply KeptO.next
    | (with_reducible apply State.takeWaiting_some; on_goal 2 => assumption)
    | (with_reducible apply State.takeWaiting_pair; on_goal 2 => assumption)
    | with_reducible apply State.takeWaiting_kept
    | with_reducible apply State.talExpire_kept
    | with_reducible apply State.gooseSupervise_kept
    | with_reducible apply State.confErr_kept
    | (fail_if_no_progress with_reducible refine Kept.mk' ?_ rfl rfl)
    | split

theorem execGooseTalExpired_kept {T : Nat} {r s : State} {x0 : Fin 256} (h : Kept T r s) (hT : Within 17178766 T) : KeptO T r (execGooseTalExpired x0 s) := by
  unfold execGooseTalExpired
  repeat' first
    | with_reducible apply KeptO.ite
    | with_reducible apply Kept.ite
    | with_reducible assumption
    | exact Within.of hT rfl
    | with_reducible apply KeptO.next
    | with_reducible apply State.talExpire_kept
    | (fail_if_no_progress with_reducible refine Kept.mk' ?_ rfl rfl)
    | split

theorem State.gooseSend_kept {T : Nat} {r s : State} {x1 : ℕ} {x2 : GoosePub} (h : Kept T r s) (hT : Within 16908290 T) : Kept T r (State.gooseSend s x1 x2) := by
  unfold State.gooseSend
  repeat' first
    | with_reducible assumption
    | exact Within.of hT rfl
    | with_reducible apply State.setEthCtx_kept
    | with_reducible apply State.ethSend_kept
    | with_reducible apply State.set64_kept

theorem State.gooseState_kept {T : Nat} {r s : State} {x1 : ℕ} {x2 : GoosePub} {x3 : List Word} {x4 : ℕ} (h : Kept T r s) (hT : Within 16908290 T) : Kept T r (State.gooseState s x1 x2 x3 x4) := by
  unfold State.gooseState
  repeat' first
    | with_reducible assumption
    | exact Within.of hT rfl
    | with_reducible apply State.setEthCtx_kept
    | with_reducible apply State.gooseSend_kept
    | with_reducible apply State.set_kept

theorem State.gooseCheck_kept {T : Nat} {r s : State} {x1 : ℕ} {x2 : GoosePub} (h : Kept T r s) (hT : Within 16908290 T) : Kept T r (State.gooseCheck s x1 x2) := by
  unfold State.gooseCheck
  repeat' first
    | with_reducible apply Kept.ite
    | with_reducible assumption
    | exact Within.of hT rfl
    | with_reducible apply State.gooseState_kept

theorem State.gooseStatus_kept {T : Nat} {r s : State}  (h : Kept T r s) (hT : Within 16908290 T) : Kept T r (State.gooseStatus s) := by
  unfold State.gooseStatus
  repeat' first
    | with_reducible apply Kept.ite
    | with_reducible assumption
    | exact Within.of hT rfl
    | with_reducible apply State.gooseCheck_kept
    | (fail_if_no_progress with_reducible refine Kept.mk' ?_ rfl rfl)
    | (with_reducible apply Kept.foldl; on_goal 2 => (intro _ _ _; beta_reduce))
    | (with_reducible apply Kept.foldlSnd; on_goal 2 => (intro _ _ _; beta_reduce))
    | split

theorem State.goosePublish_kept {T : Nat} {r s : State} {x1 : ℕ → Bool} (h : Kept T r s) (hT : Within 16908290 T) : Kept T r (State.goosePublish s x1) := by
  unfold State.goosePublish
  repeat' first
    | with_reducible apply Kept.ite
    | with_reducible assumption
    | exact Within.of hT rfl
    | with_reducible apply State.gooseCheck_kept
    | (fail_if_no_progress with_reducible refine Kept.mk' ?_ rfl rfl)
    | (with_reducible apply Kept.foldl; on_goal 2 => (intro _ _ _; beta_reduce))
    | (with_reducible apply Kept.foldlSnd; on_goal 2 => (intro _ _ _; beta_reduce))
    | split

theorem State.gooseRestart_kept {T : Nat} {r s : State}  (h : Kept T r s) (hT : Within 16908290 T) : Kept T r (State.gooseRestart s) := by
  unfold State.gooseRestart
  repeat' first
    | with_reducible apply Kept.ite
    | with_reducible assumption
    | exact Within.of hT rfl
    | with_reducible apply State.gooseState_kept
    | (fail_if_no_progress with_reducible refine Kept.mk' ?_ rfl rfl)
    | (with_reducible apply Kept.foldl; on_goal 2 => (intro _ _ _; beta_reduce))
    | (with_reducible apply Kept.foldlSnd; on_goal 2 => (intro _ _ _; beta_reduce))
    | split

theorem execGooseRetransmit_kept {T : Nat} {r s : State} {x0 : Fin 256} (h : Kept T r s) (hT : Within 16908290 T) : KeptO T r (execGooseRetransmit x0 s) := by
  unfold execGooseRetransmit
  repeat' first
    | with_reducible apply KeptO.ite
    | with_reducible apply Kept.ite
    | with_reducible assumption
    | exact Within.of hT rfl
    | with_reducible apply KeptO.next
    | with_reducible apply State.gooseSend_kept
    | with_reducible apply State.set_kept
    | with_reducible apply State.setEthCtx_kept
    | (fail_if_no_progress with_reducible refine Kept.mk' ?_ rfl rfl)
    | split

theorem State.svAsdu_kept {T : Nat} {r s : State} {x1 : ℕ} {x2 : ℕ} {x3 : Asdu} (h : Kept T r s) (hT : Within 130 T := by
    first | exact Within.refl _ | (refine Within.of (b := ?zb) ?zw ?ze; (case zw => assumption); (case ze => decide))) : Kept T r (State.svAsdu s x1 x2 x3) := by
  unfold State.svAsdu
  repeat' first
    | with_reducible apply Kept.ite
    | with_reducible assumption
    | exact Within.of hT rfl
    | with_reducible apply State.setCtx_kept
    | with_reducible apply State.countMiss_kept
    | (fail_if_no_progress with_reducible refine Kept.mk' ?_ rfl rfl)

theorem execSvFrameReceived_kept {T : Nat} {r s : State} {x0 : Fin 256} (h : Kept T r s) (hT : Within 16908426 T) : KeptO T r (execSvFrameReceived x0 s) := by
  unfold execSvFrameReceived
  repeat' first
    | with_reducible apply KeptO.ite
    | with_reducible apply Kept.ite
    | with_reducible assumption
    | exact Within.of hT rfl
    | with_reducible apply KeptO.next
    | (with_reducible apply State.takeWaiting_some; on_goal 2 => assumption)
    | (with_reducible apply State.takeWaiting_pair; on_goal 2 => assumption)
    | with_reducible apply State.takeWaiting_kept
    | with_reducible apply State.set_kept
    | with_reducible apply State.svAsdu_kept
    | with_reducible apply State.set64_kept
    | with_reducible apply State.confErr_kept
    | (fail_if_no_progress with_reducible refine Kept.mk' ?_ rfl rfl)
    | (with_reducible apply Kept.foldl; on_goal 2 => (intro _ _ _; beta_reduce))
    | (with_reducible apply Kept.foldlSnd; on_goal 2 => (intro _ _ _; beta_reduce))
    | split

theorem State.gridCompute_kept {T : Nat} {r s : State} {x1 : ℕ} (h : Kept T r s) (hT : Within 16777354 T := by
    first | exact Within.refl _ | (refine Within.of (b := ?zb) ?zw ?ze; (case zw => assumption); (case ze => decide))) : KeptS T r (State.gridCompute s x1) := by
  unfold State.gridCompute
  repeat' first
    | with_reducible apply KeptS.ite
    | with_reducible apply Kept.ite
    | with_reducible assumption
    | exact Within.of hT rfl
    | with_reducible apply KeptS.some
    | with_reducible apply KeptS.none
    | with_reducible apply State.asOf_kept
    | with_reducible apply State.setCtx_kept
    | with_reducible apply State.raise_kept
    | with_reducible apply State.set64_kept
    | with_reducible apply State.ctxReceiving_kept
    | with_reducible apply State.setCtxState_kept
    | with_reducible apply State.fileSamp_kept
    | with_reducible apply State.countMiss_kept
    | with_reducible apply State.ctxMissing_kept
    | (fail_if_no_progress with_reducible refine Kept.mk' ?_ rfl rfl)
    | (extract_lets +onlyGivenNames x; first | (with_reducible apply Kept.cut (T := T) (r := r) (x := x); on_goal 2 => (intro hx; clear_value x)) | clear_value x)
    | (with_reducible apply Kept.foldl; on_goal 2 => (intro _ _ _; beta_reduce))
    | (with_reducible apply Kept.foldlSnd; on_goal 2 => (intro _ _ _; beta_reduce))
    | split
theorem State.gridCompute_some {T : Nat} {r s : State} {t : State} {x1 : ℕ} (h : Kept T r s) (e : (State.gridCompute s x1) = some t) (hT : Within 16777354 T := by
    first | exact Within.refl _ | (refine Within.of (b := ?zb) ?zw ?ze; (case zw => assumption); (case ze => decide))) : Kept T r t := State.gridCompute_kept h (hT := hT) _ e

theorem State.svCollect_kept {T : Nat} {r s : State} {x1 : ℕ} {x2 : SvPub} (h : Kept T r s) (hT : Within 131072 T) : Kept T r (State.svCollect s x1 x2) := by
  unfold State.svCollect
  repeat' first
    | with_reducible apply Kept.ite
    | with_reducible assumption
    | exact Within.of hT rfl
    | with_reducible apply State.setEthCtx_kept

theorem State.svCollectAll_kept {T : Nat} {r s : State}  (h : Kept T r s) (hT : Within 131072 T) : Kept T r (State.svCollectAll s) := by
  unfold State.svCollectAll
  repeat' first
    | with_reducible apply Kept.ite
    | with_reducible assumption
    | exact Within.of hT rfl
    | with_reducible apply State.svCollect_kept
    | (fail_if_no_progress with_reducible refine Kept.mk' ?_ rfl rfl)
    | (with_reducible apply Kept.foldl; on_goal 2 => (intro _ _ _; beta_reduce))
    | (with_reducible apply Kept.foldlSnd; on_goal 2 => (intro _ _ _; beta_reduce))
    | split

theorem execSvPublish_kept {T : Nat} {r s : State} {x0 : Fin 256} (h : Kept T r s) (hT : Within 16908290 T) : KeptO T r (execSvPublish x0 s) := by
  unfold execSvPublish
  repeat' first
    | with_reducible apply KeptO.ite
    | with_reducible apply Kept.ite
    | with_reducible assumption
    | exact Within.of hT rfl
    | with_reducible apply KeptO.next
    | with_reducible apply State.setEthCtx_kept
    | with_reducible apply State.ethSend_kept
    | with_reducible apply State.set64_kept
    | with_reducible apply State.set_kept
    | (fail_if_no_progress with_reducible refine Kept.mk' ?_ rfl rfl)
    | split

theorem State.hqErr_kept {T : Nat} {r s : State} {x1 : Field} (h : Kept T r s) (hT : Within 16777226 T) : Kept T r (State.hqErr s x1) := by
  unfold State.hqErr
  repeat' first
    | with_reducible assumption
    | exact Within.of hT rfl
    | with_reducible apply State.raise_kept
    | with_reducible apply State.bump_kept

theorem execHostRxFrame_kept {T : Nat} {r s : State}  (h : Kept T r s) (hT : Within 16910346 T) : KeptO T r (execHostRxFrame s) := by
  unfold execHostRxFrame
  repeat' first
    | with_reducible apply KeptO.ite
    | with_reducible apply Kept.ite
    | with_reducible assumption
    | exact Within.of hT rfl
    | with_reducible apply KeptO.next
    | (with_reducible apply State.takeWaiting_some; on_goal 2 => assumption)
    | (with_reducible apply State.takeWaiting_pair; on_goal 2 => assumption)
    | with_reducible apply State.takeWaiting_kept
    | with_reducible apply State.hqErr_kept
    | with_reducible apply State.storeBytes_kept
    | with_reducible apply State.raise_kept
    | with_reducible apply State.set_kept
    | (fail_if_no_progress with_reducible refine Kept.mk' ?_ rfl rfl)
    | split

theorem execHostTxSend_kept {T : Nat} {r s : State}  (h : Kept T r s) (hT : Within 16910346 T) : KeptO T r (execHostTxSend s) := by
  unfold execHostTxSend
  repeat' first
    | with_reducible apply KeptO.ite
    | with_reducible apply Kept.ite
    | with_reducible assumption
    | exact Within.of hT rfl
    | with_reducible apply KeptO.next
    | with_reducible apply State.hqErr_kept
    | with_reducible apply State.ethSend_kept
    | with_reducible apply State.storeBytes_kept
    | with_reducible apply State.raise_kept
    | with_reducible apply State.set_kept

theorem State.ctxAnew_kept {T : Nat} {r s : State} {x1 : ℕ} (h : Kept T r s) (hT : Within 16908426 T) : Kept T r (State.ctxAnew s x1) := by
  unfold State.ctxAnew
  repeat' first
    | with_reducible apply Kept.ite
    | with_reducible assumption
    | exact Within.of hT rfl
    | with_reducible apply State.setEthCtx_kept
    | with_reducible apply State.setCtx_kept
    | with_reducible apply State.setCtxState_kept
    | (fail_if_no_progress with_reducible refine Kept.mk' ?_ rfl rfl)

theorem State.subsAnew_kept {T : Nat} {r s : State}  (h : Kept T r s) (hT : Within 16908426 T := by
    first | exact Within.refl _ | (refine Within.of (b := ?zb) ?zw ?ze; (case zw => assumption); (case ze => decide))) : Kept T r (State.subsAnew s) := by
  unfold State.subsAnew
  repeat' first
    | with_reducible apply Kept.ite
    | with_reducible assumption
    | exact Within.of hT rfl
    | with_reducible apply State.ctxAnew_kept
    | (fail_if_no_progress with_reducible refine Kept.mk' ?_ rfl rfl)
    | (with_reducible apply Kept.foldl; on_goal 2 => (intro _ _ _; beta_reduce))
    | (with_reducible apply Kept.foldlSnd; on_goal 2 => (intro _ _ _; beta_reduce))
    | split

theorem State.ethPowerDown_kept {T : Nat} {r s : State}  (h : Kept T r s) (hT : Within 16908426 T := by
    first | exact Within.refl _ | (refine Within.of (b := ?zb) ?zw ?ze; (case zw => assumption); (case ze => decide))) : Kept T r (State.ethPowerDown s) := by
  unfold State.ethPowerDown
  repeat' first
    | with_reducible apply Kept.ite
    | with_reducible assumption
    | exact Within.of hT rfl
    | with_reducible apply State.setLan_kept
    | with_reducible apply State.setLink_kept
    | with_reducible apply State.set_kept
    | with_reducible apply State.subsAnew_kept
    | (fail_if_no_progress with_reducible refine Kept.mk' ?_ rfl rfl)
    | (with_reducible apply Kept.foldl; on_goal 2 => (intro _ _ _; beta_reduce))
    | (with_reducible apply Kept.foldlSnd; on_goal 2 => (intro _ _ _; beta_reduce))
    | split

theorem State.ethPowerUp_kept {T : Nat} {r s : State}  (h : Kept T r s) (hT : Within 16908290 T) : Kept T r (State.ethPowerUp s) := by
  unfold State.ethPowerUp
  repeat' first
    | with_reducible assumption
    | exact Within.of hT rfl
    | with_reducible apply State.set_kept
    | with_reducible apply State.gooseRestart_kept

end Sys2Proof.Machine
end

