-- ==== Sys2Proof/Laws/KeptTask.lean ====
section
/-!
SUPPORT. Laws/KeptTask.lean: what each operation of tasks, images, loading, takeover keeps (the relation Kept of Laws/Kept.lean), one lemma
per operation.
-/
set_option linter.unusedTactic false
set_option linter.unreachableTactic false
set_option linter.unusedVariables false
set_option Elab.async false
namespace Sys2Proof.Machine
open Sys2Proof

/-! ## Machine/Img.lean -/

theorem State.setFrc_kept {T : Nat} {r s : State} {x1 : ℕ} {x2 : FrcSt} (h : Kept T r s) (hT : Within 16384 T) : Kept T r (State.setFrc s x1 x2) := by
  unfold State.setFrc
  repeat' first
    | with_reducible apply Kept.ite
    | with_reducible assumption
    | exact Within.of hT rfl
    | (fail_if_no_progress with_reducible refine Kept.mk' ?_ rfl rfl)

theorem State.noteForced_kept {T : Nat} {r s : State} {x1 : List ℕ} (h : Kept T r s) (hT : Within 8192 T := by
    first | exact Within.refl _ | (refine Within.of (b := ?zb) ?zw ?ze; (case zw => assumption); (case ze => decide))) : Kept T r (State.noteForced s x1) := by
  unfold State.noteForced
  repeat' first
    | with_reducible apply Kept.ite
    | with_reducible assumption
    | exact Within.of hT rfl
    | (fail_if_no_progress with_reducible refine Kept.mk' ?_ rfl rfl)
    | (with_reducible apply Kept.foldl; on_goal 2 => (intro _ _ _; beta_reduce))
    | (with_reducible apply Kept.foldlSnd; on_goal 2 => (intro _ _ _; beta_reduce))
    | split

theorem State.forceCounts_kept {T : Nat} {r s : State}  (h : Kept T r s) (hT : Within 2 T) : Kept T r (State.forceCounts s) := by
  unfold State.forceCounts
  repeat' first
    | with_reducible assumption
    | exact Within.of hT rfl
    | with_reducible apply State.set_kept

theorem State.uncleanAll_kept {T : Nat} {r s : State} {x1 : ℕ} (h : Kept T r s) (hT : Within 8192 T) : Kept T r (State.uncleanAll s x1) := by
  unfold State.uncleanAll
  repeat' first
    | with_reducible apply Kept.ite
    | with_reducible assumption
    | exact Within.of hT rfl
    | (fail_if_no_progress with_reducible refine Kept.mk' ?_ rfl rfl)

theorem State.forceEntry_kept {T : Nat} {r s : State} {x1 : String} {x2 : ℕ} (h : Kept T r s) (hT : Within 16777230 T) : Kept T r (State.forceEntry s x1 x2) := by
  unfold State.forceEntry
  repeat' first
    | with_reducible assumption
    | exact Within.of hT rfl
    | with_reducible apply State.logNamed_kept

theorem State.forceOn_kept {T : Nat} {r s : State} {x1 : ℕ} (h : Kept T r s) (hT : Within 16801806 T := by
    first | exact Within.refl _ | (refine Within.of (b := ?zb) ?zw ?ze; (case zw => assumption); (case ze => decide))) : Kept T r (State.forceOn s x1) := by
  unfold State.forceOn
  repeat' first
    | with_reducible apply Kept.ite
    | with_reducible assumption
    | exact Within.of hT rfl
    | with_reducible apply State.setFrc_kept
    | with_reducible apply State.set64_kept
    | with_reducible apply State.set_kept
    | with_reducible apply State.forceEntry_kept
    | with_reducible apply State.raise_kept
    | with_reducible apply State.uncleanAll_kept
    | with_reducible apply State.forceCounts_kept
    | with_reducible apply State.noteForced_kept
    | (fail_if_no_progress with_reducible refine Kept.mk' ?_ rfl rfl)

theorem State.forceBlank_kept {T : Nat} {r s : State} {x1 : ℕ} (h : Kept T r s) (hT : Within 2 T := by
    first | exact Within.refl _ | (refine Within.of (b := ?zb) ?zw ?ze; (case zw => assumption); (case ze => decide))) : Kept T r (State.forceBlank s x1) := by
  unfold State.forceBlank
  repeat' first
    | with_reducible apply Kept.ite
    | with_reducible assumption
    | exact Within.of hT rfl
    | with_reducible apply State.set64_kept
    | with_reducible apply State.set_kept
    | (fail_if_no_progress with_reducible refine Kept.mk' ?_ rfl rfl)

theorem State.forceOff_kept {T : Nat} {r s : State} {x1 : ℕ} {x2 : ℕ} (h : Kept T r s) (hT : Within 16801806 T := by
    first | exact Within.refl _ | (refine Within.of (b := ?zb) ?zw ?ze; (case zw => assumption); (case ze => decide))) : Kept T r (State.forceOff s x1 x2) := by
  unfold State.forceOff
  repeat' first
    | with_reducible apply Kept.ite
    | with_reducible assumption
    | exact Within.of hT rfl
    | with_reducible apply State.setFrc_kept
    | with_reducible apply State.noteForced_kept
    | with_reducible apply State.set_kept
    | with_reducible apply State.forceEntry_kept
    | with_reducible apply State.raise_kept
    | with_reducible apply State.forceCounts_kept
    | with_reducible apply State.forceBlank_kept
    | (fail_if_no_progress with_reducible refine Kept.mk' ?_ rfl rfl)

theorem State.forceNew_kept {T : Nat} {r s : State} {x1 : ℕ} (h : Kept T r s) (hT : Within 16801806 T := by
    first | exact Within.refl _ | (refine Within.of (b := ?zb) ?zw ?ze; (case zw => assumption); (case ze => decide))) : Kept T r (State.forceNew s x1) := by
  unfold State.forceNew
  repeat' first
    | with_reducible apply Kept.ite
    | with_reducible assumption
    | exact Within.of hT rfl
    | with_reducible apply State.setFrc_kept
    | with_reducible apply State.forceEntry_kept
    | with_reducible apply State.set64_kept
    | with_reducible apply State.noteForced_kept
    | (fail_if_no_progress with_reducible refine Kept.mk' ?_ rfl rfl)
    | (extract_lets +onlyGivenNames x; first | (with_reducible apply Kept.cut (T := T) (r := r) (x := x); on_goal 2 => (intro hx; clear_value x)) | clear_value x)
    | split

theorem State.forceTurn_kept {T : Nat} {r s : State} {x1 : ℕ} (h : Kept T r s) (hT : Within 16801806 T) : Kept T r (State.forceTurn s x1) := by
  unfold State.forceTurn
  repeat' first
    | with_reducible apply Kept.ite
    | with_reducible assumption
    | exact Within.of hT rfl
    | with_reducible apply State.forceOff_kept
    | with_reducible apply State.forceOn_kept
    | with_reducible apply State.forceNew_kept

theorem State.forceTurns_kept {T : Nat} {r s : State} {x1 : Bool} {x2 : ℕ} (h : Kept T r s) (hT : Within 16801806 T) : Kept T r (State.forceTurns s x1 x2) := by
  unfold State.forceTurns
  repeat' first
    | with_reducible apply Kept.ite
    | with_reducible assumption
    | exact Within.of hT rfl
    | with_reducible apply State.forceTurn_kept
    | (fail_if_no_progress with_reducible refine Kept.mk' ?_ rfl rfl)
    | (with_reducible apply Kept.foldl; on_goal 2 => (intro _ _ _; beta_reduce))
    | (with_reducible apply Kept.foldlSnd; on_goal 2 => (intro _ _ _; beta_reduce))
    | split

theorem State.countLate_kept {T : Nat} {r s : State} {x1 : ℕ} {x2 : ℕ} (h : Kept T r s) (hT : Within 16777226 T) : Kept T r (State.countLate s x1 x2) := by
  unfold State.countLate
  repeat' first
    | with_reducible apply Kept.ite
    | with_reducible assumption
    | exact Within.of hT rfl
    | with_reducible apply State.raise_kept
    | with_reducible apply State.bumpBy_kept

theorem State.freeze_kept {T : Nat} {r s : State} {x1 : Task} {x2 : TaskRt} {x3 : ℕ} {x4 : ℕ} {x5 : KV (KV Word)} (h : Kept T r s) (hT : Within 16777226 T) : Kept T r (State.freeze s x1 x2 x3 x4 x5).2 := by
  unfold State.freeze
  repeat' first
    | with_reducible apply Kept.ite2
    | with_reducible apply Kept.ite
    | with_reducible assumption
    | exact Within.of hT rfl
    | with_reducible apply State.countLate_kept
    | (fail_if_no_progress with_reducible refine Kept.mk' ?_ rfl rfl)
    | (with_reducible apply Kept.foldl; on_goal 2 => (intro _ _ _; beta_reduce))
    | (with_reducible apply Kept.foldlSnd; on_goal 2 => (intro _ _ _; beta_reduce))
    | split

/-! ## Machine/LftCap.lean -/

theorem State.companion_kept {T : Nat} {r s : State} {x1 : ℕ} {x2 : ℕ} {x3 : ℕ} {x4 : ℕ} (h : Kept T r s) (hT : Within 2049 T := by
    first | exact Within.refl _ | (refine Within.of (b := ?zb) ?zw ?ze; (case zw => assumption); (case ze => decide))) : Kept T r (State.companion s x1 x2 x3 x4) := by
  unfold State.companion
  repeat' first
    | with_reducible apply Kept.ite
    | with_reducible assumption
    | exact Within.of hT rfl
    | with_reducible apply State.fresh_kept
    | with_reducible apply State.storeBytes_kept
    | (fail_if_no_progress with_reducible refine Kept.mk' ?_ rfl rfl)

theorem State.pushCap_kept {T : Nat} {r s : State} {x1 : RplCap} (h : Kept T r s) (hT : Within 526337 T := by
    first | exact Within.refl _ | (refine Within.of (b := ?zb) ?zw ?ze; (case zw => assumption); (case ze => decide))) : Kept T r (State.pushCap s x1) := by
  unfold State.pushCap
  repeat' first
    | with_reducible apply Kept.ite
    | with_reducible assumption
    | exact Within.of hT rfl
    | with_reducible apply State.companion_kept
    | (fail_if_no_progress with_reducible refine Kept.mk' ?_ rfl rfl)

theorem State.captureNouns_kept {T : Nat} {r s : State}  (h : Kept T r s) (hT : Within 526337 T) : Kept T r (State.captureNouns s) := by
  unfold State.captureNouns
  repeat' first
    | with_reducible apply Kept.ite
    | with_reducible assumption
    | exact Within.of hT rfl
    | with_reducible apply State.pushCap_kept
    | (fail_if_no_progress with_reducible refine Kept.mk' ?_ rfl rfl)
    | (with_reducible apply Kept.foldl; on_goal 2 => (intro _ _ _; beta_reduce))
    | (with_reducible apply Kept.foldlSnd; on_goal 2 => (intro _ _ _; beta_reduce))
    | split

theorem State.captureImage_kept {T : Nat} {r s : State} {x1 : Cycle} (h : Kept T r s) (hT : Within 526337 T) : Kept T r (State.captureImage s x1) := by
  unfold State.captureImage
  repeat' first
    | with_reducible apply Kept.ite
    | with_reducible assumption
    | exact Within.of hT rfl
    | with_reducible apply State.pushCap_kept

theorem State.captureEffects_kept {T : Nat} {r s : State} {x1 : Cycle} {x2 : Bool} (h : Kept T r s) (hT : Within 526337 T) : Kept T r (State.captureEffects s x1 x2) := by
  unfold State.captureEffects
  repeat' first
    | with_reducible apply Kept.ite
    | with_reducible assumption
    | exact Within.of hT rfl
    | with_reducible apply State.pushCap_kept

theorem State.captureGrid_kept {T : Nat} {r s : State} {x1 : ℕ} {x2 : ℕ} (h : Kept T r s) (hT : Within 526337 T := by
    first | exact Within.refl _ | (refine Within.of (b := ?zb) ?zw ?ze; (case zw => assumption); (case ze => decide))) : Kept T r (State.captureGrid s x1 x2) := by
  unfold State.captureGrid
  repeat' first
    | with_reducible apply Kept.ite
    | with_reducible assumption
    | exact Within.of hT rfl
    | with_reducible apply State.pushCap_kept
    | (fail_if_no_progress with_reducible refine Kept.mk' ?_ rfl rfl)
    | (with_reducible apply Kept.foldl; on_goal 2 => (intro _ _ _; beta_reduce))
    | (with_reducible apply Kept.foldlSnd; on_goal 2 => (intro _ _ _; beta_reduce))
    | split

theorem State.lftSlots_kept {T : Nat} {r s : State} {x1 : Partition} {x2 : ℕ} (h : Kept T r s) (hT : Within 524288 T) : Kept T r (State.lftSlots s x1 x2) := by
  unfold State.lftSlots
  repeat' first
    | with_reducible apply Kept.ite
    | with_reducible assumption
    | exact Within.of hT rfl
    | (fail_if_no_progress with_reducible refine Kept.mk' ?_ rfl rfl)
    | (with_reducible apply Kept.foldl; on_goal 2 => (intro _ _ _; beta_reduce))
    | (with_reducible apply Kept.foldlSnd; on_goal 2 => (intro _ _ _; beta_reduce))
    | split

theorem State.lftRelease_kept {T : Nat} {r s : State} {x1 : ℕ} {x2 : Bool} (h : Kept T r s) (hT : Within 524288 T) : Kept T r (State.lftRelease s x1 x2) := by
  unfold State.lftRelease
  repeat' first
    | with_reducible apply Kept.ite
    | with_reducible assumption
    | exact Within.of hT rfl
    | (fail_if_no_progress with_reducible refine Kept.mk' ?_ rfl rfl)

theorem State.lftEvent_kept {T : Nat} {r s : State} {x1 : LftEvent} (h : Kept T r s) (hT : Within 524288 T) : Kept T r (State.lftEvent s x1) := by
  unfold State.lftEvent
  repeat' first
    | with_reducible apply Kept.ite
    | with_reducible assumption
    | exact Within.of hT rfl
    | (fail_if_no_progress with_reducible refine Kept.mk' ?_ rfl rfl)

/-! ## Machine/Shd.lean -/

theorem State.logDiff_kept {T : Nat} {r s : State} {x1 : ℕ} {x2 : ℕ} {x3 : ℕ} {x4 : EffItem} {x5 : Word} {x6 : Word} (h : Kept T r s) (hT : Within 262146 T) : Kept T r (State.logDiff s x1 x2 x3 x4 x5 x6) := by
  unfold State.logDiff
  repeat' first
    | with_reducible apply Kept.ite
    | with_reducible assumption
    | exact Within.of hT rfl
    | with_reducible apply State.set_kept
    | with_reducible apply State.set64_kept
    | with_reducible apply State.wr_kept
    | (fail_if_no_progress with_reducible refine Kept.mk' ?_ rfl rfl)

theorem State.clearDiffs_kept {T : Nat} {r s : State}  (h : Kept T r s) (hT : Within 262146 T) : Kept T r (State.clearDiffs s) := by
  unfold State.clearDiffs
  repeat' first
    | with_reducible apply Kept.ite
    | with_reducible assumption
    | exact Within.of hT rfl
    | with_reducible apply State.wr_kept
    | with_reducible apply State.set64_kept
    | (fail_if_no_progress with_reducible refine Kept.mk' ?_ rfl rfl)
    | (with_reducible apply Kept.foldl; on_goal 2 => (intro _ _ _; beta_reduce))
    | (with_reducible apply Kept.foldlSnd; on_goal 2 => (intro _ _ _; beta_reduce))
    | split

theorem State.pairSkipped_kept {T : Nat} {r s : State}  (h : Kept T r s) (hT : Within 2 T) : Kept T r (State.pairSkipped s) := by
  unfold State.pairSkipped
  repeat' first
    | with_reducible assumption
    | exact Within.of hT rfl
    | with_reducible apply State.bump_kept

theorem State.pairCompared_kept {T : Nat} {r s : State} {x1 : ℕ} {x2 : List (EffItem × Word × Word)} (h : Kept T r s) (hT : Within 17039370 T) : Kept T r (State.pairCompared s x1 x2) := by
  unfold State.pairCompared
  repeat' first
    | with_reducible apply Kept.ite
    | with_reducible assumption
    | exact Within.of hT rfl
    | with_reducible apply State.bump_kept
    | with_reducible apply State.raise_kept
    | with_reducible apply State.set64_kept
    | with_reducible apply State.logDiff_kept
    | (fail_if_no_progress with_reducible refine Kept.mk' ?_ rfl rfl)
    | (with_reducible apply Kept.foldl; on_goal 2 => (intro _ _ _; beta_reduce))
    | (with_reducible apply Kept.foldlSnd; on_goal 2 => (intro _ _ _; beta_reduce))
    | split

theorem State.preempt_kept {T : Nat} {r s : State} {x1 : ℕ} (h : Kept T r s) (hT : Within 16789518 T) : Kept T r (State.preempt s x1) := by
  unfold State.preempt
  repeat' first
    | with_reducible apply Kept.ite
    | with_reducible assumption
    | exact Within.of hT rfl
    | with_reducible apply State.schedule_kept
    | with_reducible apply State.setLane_kept
    | with_reducible apply State.setStatus_kept
    | (fail_if_no_progress with_reducible refine Kept.mk' ?_ rfl rfl)
    | split

theorem State.shadowRelease_kept {T : Nat} {r s : State} {x1 : ℕ} {x2 : InImage} (h : Kept T r s) (hT : Within 17051662 T) : Kept T r (State.shadowRelease s x1 x2) := by
  unfold State.shadowRelease
  repeat' first
    | with_reducible apply Kept.ite
    | with_reducible assumption
    | exact Within.of hT rfl
    | with_reducible apply State.setShadowRt_kept
    | with_reducible apply State.preempt_kept
    | with_reducible apply State.putCyc_kept
    | (fail_if_no_progress with_reducible refine Kept.mk' ?_ rfl rfl)
    | split

theorem State.shadowApply_kept {T : Nat} {r s : State} {x1 : Cycle} (h : Kept T r s) (hT : Within 262144 T) : Kept T r (State.shadowApply s x1) := by
  unfold State.shadowApply
  repeat' first
    | with_reducible apply Kept.ite
    | with_reducible assumption
    | exact Within.of hT rfl
    | with_reducible apply State.pendShadow_kept
    | (fail_if_no_progress with_reducible refine Kept.mk' ?_ rfl rfl)
    | (with_reducible apply Kept.foldl; on_goal 2 => (intro _ _ _; beta_reduce))
    | (with_reducible apply Kept.foldlSnd; on_goal 2 => (intro _ _ _; beta_reduce))
    | split

theorem State.shadowCompare_kept {T : Nat} {r s : State} {x1 : Cycle} {x2 : Bool} (h : Kept T r s) (hT : Within 17039370 T) : Kept T r (State.shadowCompare s x1 x2) := by
  unfold State.shadowCompare
  repeat' first
    | with_reducible apply Kept.ite
    | with_reducible assumption
    | exact Within.of hT rfl
    | with_reducible apply State.pairSkipped_kept
    | with_reducible apply State.pairCompared_kept
    | (fail_if_no_progress with_reducible refine Kept.mk' ?_ rfl rfl)
    | split

theorem State.shadowEnd_kept {T : Nat} {r s : State} {x1 : ℕ} (h : Kept T r s) (hT : Within 274434 T) : Kept T r (State.shadowEnd s x1) := by
  unfold State.shadowEnd
  repeat' first
    | with_reducible apply Kept.ite
    | with_reducible assumption
    | exact Within.of hT rfl
    | with_reducible apply State.endCycle_kept
    | with_reducible apply State.setShadowRt_kept
    | with_reducible apply State.setCycle_kept
    | with_reducible apply State.shadowApply_kept
    | (fail_if_no_progress with_reducible refine Kept.mk' ?_ rfl rfl)
    | split

/-! ## Machine/Load.lean -/

theorem State.placeNoun_kept {T : Nat} {r s : State} {x1 : ℕ} {x2 : ℕ} {x3 : Noun} {x4 : List Word} (h : Kept T r s) (hT : Within 2048 T) : Kept T r (State.placeNoun s x1 x2 x3 x4) := by
  unfold State.placeNoun
  repeat' first
    | with_reducible assumption
    | exact Within.of hT rfl
    | with_reducible apply State.storeWords_kept
    | with_reducible apply State.storeBytes_kept

theorem State.setNoun_kept {T : Nat} {r s : State} {x1 : ℕ} {x2 : Partition} {x3 : Noun} {x4 : List Word} (h : Kept T r s) (hT : Within 2048 T) : Kept T r (State.setNoun s x1 x2 x3 x4) := by
  unfold State.setNoun
  repeat' first
    | with_reducible assumption
    | exact Within.of hT rfl
    | with_reducible apply State.placeNoun_kept

theorem State.loadCode_kept {T : Nat} {r s : State} {x1 : ℕ} {x2 : Partition} (h : Kept T r s) (hT : Within 6144 T) : Kept T r (State.loadCode s x1 x2) := by
  unfold State.loadCode
  repeat' first
    | with_reducible apply Kept.ite
    | with_reducible assumption
    | exact Within.of hT rfl
    | with_reducible apply State.storeWords_kept
    | with_reducible apply State.zeroSpace_kept
    | with_reducible apply State.storeNat_kept
    | with_reducible apply State.setLane_kept
    | (fail_if_no_progress with_reducible refine Kept.mk' ?_ rfl rfl)
    | (with_reducible apply Kept.foldl; on_goal 2 => (intro _ _ _; beta_reduce))
    | (with_reducible apply Kept.foldlSnd; on_goal 2 => (intro _ _ _; beta_reduce))
    | split

theorem State.loadMirror_kept {T : Nat} {r s : State} {x1 : ℕ} {x2 : Partition} (h : Kept T r s) (hT : Within 2048 T) : Kept T r (State.loadMirror s x1 x2) := by
  unfold State.loadMirror
  repeat' first
    | with_reducible apply Kept.ite
    | with_reducible assumption
    | exact Within.of hT rfl
    | with_reducible apply State.placeNoun_kept
    | (fail_if_no_progress with_reducible refine Kept.mk' ?_ rfl rfl)
    | (with_reducible apply Kept.foldl; on_goal 2 => (intro _ _ _; beta_reduce))
    | (with_reducible apply Kept.foldlSnd; on_goal 2 => (intro _ _ _; beta_reduce))
    | split

theorem State.showRegions_kept {T : Nat} {r s : State} {x1 : Partition} (h : Kept T r s) (hT : Within 2 T) : Kept T r (State.showRegions s x1) := by
  unfold State.showRegions
  repeat' first
    | with_reducible apply Kept.ite
    | with_reducible assumption
    | exact Within.of hT rfl
    | with_reducible apply State.set_kept
    | with_reducible apply State.wr_kept
    | (fail_if_no_progress with_reducible refine Kept.mk' ?_ rfl rfl)
    | (with_reducible apply Kept.foldl; on_goal 2 => (intro _ _ _; beta_reduce))
    | (with_reducible apply Kept.foldlSnd; on_goal 2 => (intro _ _ _; beta_reduce))
    | split

theorem State.showTask_kept {T : Nat} {r s : State} {x1 : ℕ} {x2 : Task} (h : Kept T r s) (hT : Within 2 T) : Kept T r (State.showTask s x1 x2) := by
  unfold State.showTask
  repeat' first
    | with_reducible assumption
    | exact Within.of hT rfl
    | with_reducible apply State.wr_kept

theorem State.panRegs_kept {T : Nat} {r s : State}  (h : Kept T r s) (hT : Within 2 T := by
    first | exact Within.refl _ | (refine Within.of (b := ?zb) ?zw ?ze; (case zw => assumption); (case ze => decide))) : Kept T r (State.panRegs s) := by
  unfold State.panRegs
  repeat' first
    | with_reducible apply Kept.ite
    | with_reducible assumption
    | exact Within.of hT rfl
    | with_reducible apply State.set_kept
    | with_reducible apply State.set64_kept
    | (fail_if_no_progress with_reducible refine Kept.mk' ?_ rfl rfl)
    | (extract_lets +onlyGivenNames x; first | (with_reducible apply Kept.cut (T := T) (r := r) (x := x); on_goal 2 => (intro hx; clear_value x)) | clear_value x)
    | split

theorem State.setPan_kept {T : Nat} {r s : State} {x1 : ℕ} {x2 : Option PanSlot} (h : Kept T r s) (hT : Within 2050 T := by
    first | exact Within.refl _ | (refine Within.of (b := ?zb) ?zw ?ze; (case zw => assumption); (case ze => decide))) : Kept T r (State.setPan s x1 x2) := by
  unfold State.setPan
  repeat' first
    | with_reducible apply Kept.ite
    | with_reducible assumption
    | exact Within.of hT rfl
    | with_reducible apply State.panRegs_kept
    | with_reducible apply State.storeBytes_kept
    | (fail_if_no_progress with_reducible refine Kept.mk' ?_ rfl rfl)

theorem State.restoreNouns_kept {T : Nat} {r s : State} {x1 : ℕ} {x2 : Partition} (h : Kept T r s) (hT : Within 2048 T) : Kept T r (State.restoreNouns s x1 x2).2 := by
  unfold State.restoreNouns
  repeat' first
    | with_reducible apply Kept.ite2
    | with_reducible apply Kept.ite
    | with_reducible assumption
    | exact Within.of hT rfl
    | with_reducible apply State.setNoun_kept
    | (fail_if_no_progress with_reducible refine Kept.mk' ?_ rfl rfl)
    | (with_reducible apply Kept.foldl; on_goal 2 => (intro _ _ _; beta_reduce))
    | (with_reducible apply Kept.foldlSnd; on_goal 2 => (intro _ _ _; beta_reduce))
    | split

theorem State.restoreShown_kept {T : Nat} {r s : State} {x1 : ℕ} (h : Kept T r s) (hT : Within 16777230 T) : Kept T r (State.restoreShown s x1) := by
  unfold State.restoreShown
  repeat' first
    | with_reducible apply Kept.ite
    | with_reducible assumption
    | exact Within.of hT rfl
    | with_reducible apply State.set_kept
    | with_reducible apply State.logNamed_kept
    | with_reducible apply State.raise_kept

theorem State.laneCounts_kept {T : Nat} {r s : State}  (h : Kept T r s) (hT : Within 2 T) : Kept T r (State.laneCounts s) := by
  unfold State.laneCounts
  repeat' first
    | with_reducible assumption
    | exact Within.of hT rfl
    | with_reducible apply State.set_kept

theorem State.setRole_kept {T : Nat} {r s : State} {x1 : ℕ} {x2 : ℕ} (h : Kept T r s) (hT : Within 2 T) : Kept T r (State.setRole s x1 x2) := by
  unfold State.setRole
  repeat' first
    | with_reducible assumption
    | exact Within.of hT rfl
    | with_reducible apply State.laneCounts_kept
    | with_reducible apply State.set_kept

theorem State.spareAct_kept {T : Nat} {r s : State} {x1 : ℕ} (h : Kept T r s) (hT : Within 2 T) : Kept T r (State.spareAct s x1) := by
  unfold State.spareAct
  repeat' first
    | with_reducible assumption
    | exact Within.of hT rfl
    | with_reducible apply State.set_kept

theorem State.loadProgram_kept {T : Nat} {r s : State} {x1 : ProgImage} {x2 : ℕ} (h : Kept T r s) (hT : Within 16791566 T) : Kept T r (State.loadProgram s x1 x2).2 := by
  unfold State.loadProgram
  repeat' first
    | with_reducible apply Kept.ite2
    | with_reducible apply Kept.ite
    | with_reducible assumption
    | exact Within.of hT rfl
    | with_reducible apply State.set_kept
    | with_reducible apply State.setLane_kept
    | with_reducible apply State.wr_kept
    | with_reducible apply State.showRegions_kept
    | with_reducible apply State.loadCode_kept
    | with_reducible apply State.showTask_kept
    | with_reducible apply State.restoreNouns_kept
    | with_reducible apply State.spareAct_kept
    | with_reducible apply State.laneCounts_kept
    | with_reducible apply State.restoreShown_kept
    | with_reducible apply State.raise_kept
    | (fail_if_no_progress with_reducible refine Kept.mk' ?_ rfl rfl)
    | (with_reducible apply Kept.foldl; on_goal 2 => (intro _ _ _; beta_reduce))
    | (with_reducible apply Kept.foldlSnd; on_goal 2 => (intro _ _ _; beta_reduce))
    | split

theorem State.dmaShow_kept {T : Nat} {r s : State} {x1 : ℕ} {x2 : ℕ} (h : Kept T r s) (hT : Within 16777226 T := by
    first | exact Within.refl _ | (refine Within.of (b := ?zb) ?zw ?ze; (case zw => assumption); (case ze => decide))) : Kept T r (State.dmaShow s x1 x2) := by
  unfold State.dmaShow
  repeat' first
    | with_reducible apply Kept.ite
    | with_reducible assumption
    | exact Within.of hT rfl
    | with_reducible apply State.set_kept
    | with_reducible apply State.raise_kept
    | (fail_if_no_progress with_reducible refine Kept.mk' ?_ rfl rfl)

theorem State.spareIdle_kept {T : Nat} {r s : State}  (h : Kept T r s) (hT : Within 274434 T) : Kept T r (State.spareIdle s) := by
  unfold State.spareIdle
  repeat' first
    | with_reducible apply Kept.ite
    | with_reducible assumption
    | exact Within.of hT rfl
    | with_reducible apply State.setLane_kept
    | with_reducible apply State.spareAct_kept
    | (fail_if_no_progress with_reducible refine Kept.mk' ?_ rfl rfl)

theorem State.chgPhase_kept {T : Nat} {r s : State} {x1 : ℕ} (h : Kept T r s) (hT : Within 262146 T) : Kept T r (State.chgPhase s x1) := by
  unfold State.chgPhase
  repeat' first
    | with_reducible apply Kept.ite
    | with_reducible assumption
    | exact Within.of hT rfl
    | with_reducible apply State.set_kept
    | (fail_if_no_progress with_reducible refine Kept.mk' ?_ rfl rfl)

theorem State.chgAbort_kept {T : Nat} {r s : State}  (h : Kept T r s) (hT : Within 17051662 T := by
    first | exact Within.refl _ | (refine Within.of (b := ?zb) ?zw ?ze; (case zw => assumption); (case ze => decide))) : Kept T r (State.chgAbort s) := by
  unfold State.chgAbort
  repeat' first
    | with_reducible apply Kept.ite
    | with_reducible assumption
    | exact Within.of hT rfl
    | with_reducible apply State.spareIdle_kept
    | with_reducible apply State.set_kept
    | with_reducible apply State.dmaShow_kept
    | with_reducible apply State.logNamed_kept
    | with_reducible apply State.raise_kept
    | (fail_if_no_progress with_reducible refine Kept.mk' ?_ rfl rfl)

theorem State.rplAbort_kept {T : Nat} {r s : State}  (h : Kept T r s) (hT : Within 17051662 T) : Kept T r (State.rplAbort s) := by
  unfold State.rplAbort
  repeat' first
    | with_reducible apply Kept.ite
    | with_reducible assumption
    | exact Within.of hT rfl
    | with_reducible apply State.spareIdle_kept
    | with_reducible apply State.logNamed_kept
    | with_reducible apply State.set_kept
    | (fail_if_no_progress with_reducible refine Kept.mk' ?_ rfl rfl)
    | split

theorem State.vcBusy_kept {T : Nat} {r s : State} {x1 : Bool} (h : Kept T r s) (hT : Within 2 T) : Kept T r (State.vcBusy s x1) := by
  unfold State.vcBusy
  repeat' first
    | with_reducible assumption
    | exact Within.of hT rfl
    | with_reducible apply State.set_kept

theorem State.vcWithdraw_kept {T : Nat} {r s : State}  (h : Kept T r s) (hT : Within 17039374 T) : Kept T r (State.vcWithdraw s) := by
  unfold State.vcWithdraw
  repeat' first
    | with_reducible apply Kept.ite
    | with_reducible assumption
    | exact Within.of hT rfl
    | with_reducible apply State.vcBusy_kept
    | with_reducible apply State.logNamed_kept
    | with_reducible apply State.raise_kept
    | with_reducible apply State.set_kept
    | (fail_if_no_progress with_reducible refine Kept.mk' ?_ rfl rfl)
    | split

theorem State.forcesClear_kept {T : Nat} {r s : State}  (h : Kept T r s) (hT : Within 16801806 T := by
    first | exact Within.refl _ | (refine Within.of (b := ?zb) ?zw ?ze; (case zw => assumption); (case ze => decide))) : Kept T r (State.forcesClear s) := by
  unfold State.forcesClear
  repeat' first
    | with_reducible apply Kept.ite
    | with_reducible assumption
    | exact Within.of hT rfl
    | with_reducible apply State.forceOff_kept
    | with_reducible apply State.forceBlank_kept
    | (fail_if_no_progress with_reducible refine Kept.mk' ?_ rfl rfl)
    | (with_reducible apply Kept.foldl; on_goal 2 => (intro _ _ _; beta_reduce))
    | (with_reducible apply Kept.foldlSnd; on_goal 2 => (intro _ _ _; beta_reduce))
    | split

theorem State.loseCycle_kept {T : Nat} {r s : State} {x1 : Cycle} (h : Kept T r s) (hT : Within 8194 T) : Kept T r (State.loseCycle s x1) := by
  unfold State.loseCycle
  repeat' first
    | with_reducible assumption
    | exact Within.of hT rfl
    | with_reducible apply State.bump_kept
    | with_reducible apply State.set_kept
    | with_reducible apply State.putCyc_kept

theorem State.stopLanes_kept {T : Nat} {r s : State}  (h : Kept T r s) (hT : Within 12290 T := by
    first | exact Within.refl _ | (refine Within.of (b := ?zb) ?zw ?ze; (case zw => assumption); (case ze => decide))) : Kept T r (State.stopLanes s) := by
  unfold State.stopLanes
  repeat' first
    | with_reducible apply Kept.ite
    | with_reducible assumption
    | exact Within.of hT rfl
    | with_reducible apply State.loseCycle_kept
    | with_reducible apply State.setLane_kept
    | (fail_if_no_progress with_reducible refine Kept.mk' ?_ rfl rfl)
    | (with_reducible apply Kept.foldl; on_goal 2 => (intro _ _ _; beta_reduce))
    | (with_reducible apply Kept.foldlSnd; on_goal 2 => (intro _ _ _; beta_reduce))
    | split

/-! ## Machine/Tsk.lean -/

theorem State.releaseOn_kept {T : Nat} {r s : State} {x1 : Task} {x2 : ℕ} {x3 : ℕ} (h : Kept T r s) (hT : Within 17594383 T) : Kept T r (State.releaseOn s x1 x2 x3) := by
  unfold State.releaseOn
  repeat' first
    | with_reducible apply Kept.ite
    | with_reducible assumption
    | exact Within.of hT rfl
    | with_reducible apply State.forceTurns_kept
    | with_reducible apply State.freeze_kept
    | with_reducible apply State.setTaskRt_kept
    | with_reducible apply State.set64_kept
    | with_reducible apply State.set_kept
    | with_reducible apply State.preempt_kept
    | with_reducible apply State.captureImage_kept
    | with_reducible apply State.putCyc_kept
    | with_reducible apply State.shadowRelease_kept
    | (fail_if_no_progress with_reducible refine Kept.mk' ?_ rfl rfl)

theorem State.skipRelease_kept {T : Nat} {r s : State} {x1 : Task} (h : Kept T r s) (hT : Within 8194 T) : Kept T r (State.skipRelease s x1) := by
  unfold State.skipRelease
  repeat' first
    | with_reducible apply Kept.ite
    | with_reducible assumption
    | exact Within.of hT rfl
    | with_reducible apply State.setTaskRt_kept
    | with_reducible apply State.bump_kept
    | with_reducible apply State.set_kept
    | (fail_if_no_progress with_reducible refine Kept.mk' ?_ rfl rfl)

theorem execCycleRelease_kept {T : Nat} {r s : State} {x0 : Fin 32} (h : Kept T r s) (hT : Within 17594383 T) : KeptO T r (execCycleRelease x0 s) := by
  unfold execCycleRelease
  repeat' first
    | with_reducible apply KeptO.ite
    | with_reducible apply Kept.ite
    | with_reducible assumption
    | exact Within.of hT rfl
    | with_reducible apply KeptO.next
    | with_reducible apply State.skipRelease_kept
    | with_reducible apply State.releaseOn_kept
    | (fail_if_no_progress with_reducible refine Kept.mk' ?_ rfl rfl)
    | split

theorem execEventTaskRelease_kept {T : Nat} {r s : State} {x0 : Fin 16} (h : Kept T r s) (hT : Within 17594383 T) : KeptO T r (execEventTaskRelease x0 s) := by
  unfold execEventTaskRelease
  repeat' first
    | with_reducible apply KeptO.ite
    | with_reducible apply Kept.ite
    | with_reducible assumption
    | exact Within.of hT rfl
    | with_reducible apply KeptO.next
    | with_reducible apply State.raise_kept
    | with_reducible apply State.bumpBy_kept
    | with_reducible apply State.releaseOn_kept
    | with_reducible apply State.shadowRelease_kept
    | with_reducible apply State.freeze_kept
    | (fail_if_no_progress with_reducible refine Kept.mk' ?_ rfl rfl)
    | split

theorem State.recordOverrun_kept {T : Nat} {r s : State} {x1 : Cycle} (h : Kept T r s) (hT : Within 16777230 T := by
    first | exact Within.refl _ | (refine Within.of (b := ?zb) ?zw ?ze; (case zw => assumption); (case ze => decide))) : Kept T r (State.recordOverrun s x1) := by
  unfold State.recordOverrun
  repeat' first
    | with_reducible apply Kept.ite
    | with_reducible assumption
    | exact Within.of hT rfl
    | with_reducible apply State.recordExc_kept
    | with_reducible apply State.raise_kept
    | with_reducible apply State.bump_kept
    | (fail_if_no_progress with_reducible refine Kept.mk' ?_ rfl rfl)

theorem State.overrun_kept {T : Nat} {r s : State} {x1 : Cycle} (h : Kept T r s) (hT : Within 16789518 T := by
    first | exact Within.refl _ | (refine Within.of (b := ?zb) ?zw ?ze; (case zw => assumption); (case ze => decide))) : Kept T r (State.overrun s x1) := by
  unfold State.overrun
  repeat' first
    | with_reducible apply Kept.ite
    | with_reducible assumption
    | exact Within.of hT rfl
    | with_reducible apply State.schedule_kept
    | with_reducible apply State.endCycle_kept
    | with_reducible apply State.recordOverrun_kept
    | (fail_if_no_progress with_reducible refine Kept.mk' ?_ rfl rfl)

theorem execDeadline_kept {T : Nat} {r s : State} {x0 : Fin 48} {x1 : Bool} (h : Kept T r s) (hT : Within 16789518 T := by
    first | exact Within.refl _ | (refine Within.of (b := ?zb) ?zw ?ze; (case zw => assumption); (case ze => decide))) : KeptO T r (execDeadline x0 x1 s) := by
  unfold execDeadline
  repeat' first
    | with_reducible apply KeptO.ite
    | with_reducible apply Kept.ite
    | with_reducible assumption
    | exact Within.of hT rfl
    | with_reducible apply KeptO.next
    | with_reducible apply State.overrun_kept
    | with_reducible apply State.putCyc_kept
    | with_reducible apply State.recordOverrun_kept
    | (fail_if_no_progress with_reducible refine Kept.mk' ?_ rfl rfl)
    | split

theorem State.putOut_kept {T : Nat} {r s : State} {x1 : ℕ} {x2 : Word} (h : Kept T r s) (hT : Within 8192 T) : Kept T r (State.putOut s x1 x2) := by
  unfold State.putOut
  repeat' first
    | with_reducible apply Kept.ite
    | with_reducible assumption
    | exact Within.of hT rfl
    | (fail_if_no_progress with_reducible refine Kept.mk' ?_ rfl rfl)

theorem State.putBack_kept {T : Nat} {r s : State} {x1 : ℕ} {x2 : ℕ} {x3 : Word} (h : Kept T r s) (hT : Within 8192 T) : Kept T r (State.putBack s x1 x2 x3) := by
  unfold State.putBack
  repeat' first
    | with_reducible apply Kept.ite
    | with_reducible assumption
    | exact Within.of hT rfl
    | (fail_if_no_progress with_reducible refine Kept.mk' ?_ rfl rfl)

theorem State.raiseEvr_kept {T : Nat} {r s : State} {x1 : ℕ} (h : Kept T r s) (hT : Within 8194 T) : Kept T r (State.raiseEvr s x1) := by
  unfold State.raiseEvr
  repeat' first
    | with_reducible apply Kept.ite
    | with_reducible assumption
    | exact Within.of hT rfl
    | with_reducible apply State.pendTask_kept
    | (fail_if_no_progress with_reducible refine Kept.mk' ?_ rfl rfl)
    | split

theorem State.noteEntry_kept {T : Nat} {r s : State} {x1 : ℕ} {x2 : Note} (h : Kept T r s) (hT : Within 16777230 T) : Kept T r (State.noteEntry s x1 x2) := by
  unfold State.noteEntry
  repeat' first
    | with_reducible assumption
    | exact Within.of hT rfl
    | with_reducible apply State.enqueue_kept

theorem State.takeEffect_kept {T : Nat} {r s : State} {x1 : Cycle} (h : Kept T r s) (hT : Within 16785934 T) : Kept T r (State.takeEffect s x1) := by
  unfold State.takeEffect
  repeat' first
    | with_reducible apply Kept.ite
    | with_reducible assumption
    | exact Within.of hT rfl
    | with_reducible apply State.putOut_kept
    | with_reducible apply State.putBack_kept
    | with_reducible apply State.setGates_kept
    | with_reducible apply State.raiseEvr_kept
    | with_reducible apply State.noteEntry_kept
    | with_reducible apply State.raise_kept
    | with_reducible apply State.bumpBy_kept
    | (fail_if_no_progress with_reducible refine Kept.mk' ?_ rfl rfl)
    | (with_reducible apply Kept.foldl; on_goal 2 => (intro _ _ _; beta_reduce))
    | (with_reducible apply Kept.foldlSnd; on_goal 2 => (intro _ _ _; beta_reduce))
    | split

theorem State.genStep_kept {T : Nat} {r s : State} {x1 : ℕ} (h : Kept T r s) (hT : Within 2 T) : Kept T r (State.genStep s x1) := by
  unfold State.genStep
  repeat' first
    | with_reducible assumption
    | exact Within.of hT rfl
    | with_reducible apply State.set_kept

theorem State.fold_kept {T : Nat} {r s : State} {x1 : Cycle} (h : Kept T r s) (hT : Within 2050 T) : Kept T r (State.fold s x1) := by
  unfold State.fold
  repeat' first
    | with_reducible apply Kept.ite
    | with_reducible assumption
    | exact Within.of hT rfl
    | with_reducible apply State.genStep_kept
    | with_reducible apply State.storeNat_kept
    | (fail_if_no_progress with_reducible refine Kept.mk' ?_ rfl rfl)
    | (with_reducible apply Kept.foldl; on_goal 2 => (intro _ _ _; beta_reduce))
    | (with_reducible apply Kept.foldlSnd; on_goal 2 => (intro _ _ _; beta_reduce))
    | split

theorem State.showEnd_kept {T : Nat} {r s : State} {x1 : Cycle} {x2 : Bool} (h : Kept T r s) (hT : Within 8194 T) : Kept T r (State.showEnd s x1 x2) := by
  unfold State.showEnd
  repeat' first
    | with_reducible apply Kept.ite
    | with_reducible assumption
    | exact Within.of hT rfl
    | with_reducible apply State.setTaskRt_kept
    | with_reducible apply State.set_kept
    | with_reducible apply State.bump_kept

theorem State.releaseCycle_kept {T : Nat} {r s : State} {x1 : Cycle} (h : Kept T r s) (hT : Within 17594895 T) : Kept T r (State.releaseCycle s x1) := by
  unfold State.releaseCycle
  repeat' first
    | with_reducible apply Kept.ite
    | with_reducible assumption
    | exact Within.of hT rfl
    | with_reducible apply State.overrun_kept
    | with_reducible apply State.forceTurns_kept
    | with_reducible apply State.shadowCompare_kept
    | with_reducible apply State.takeEffect_kept
    | with_reducible apply State.fold_kept
    | with_reducible apply State.showEnd_kept
    | with_reducible apply State.lftSlots_kept
    | with_reducible apply State.setCycle_kept
    | with_reducible apply State.captureEffects_kept
    | with_reducible apply State.lftRelease_kept
    | (fail_if_no_progress with_reducible refine Kept.mk' ?_ rfl rfl)
    | split

theorem State.exchange_kept {T : Nat} {r s : State} {x1 : Shelf} (h : Kept T r s) (hT : Within 8192 T) : Kept T r (State.exchange s x1) := by
  unfold State.exchange
  repeat' first
    | with_reducible apply Kept.ite
    | with_reducible assumption
    | exact Within.of hT rfl
    | (fail_if_no_progress with_reducible refine Kept.mk' ?_ rfl rfl)

theorem State.exchanges_kept {T : Nat} {r s : State}  (h : Kept T r s) (hT : Within 270336 T) : Kept T r (State.exchanges s) := by
  unfold State.exchanges
  repeat' first
    | with_reducible apply Kept.ite
    | with_reducible assumption
    | exact Within.of hT rfl
    | with_reducible apply State.exchange_kept
    | (fail_if_no_progress with_reducible refine Kept.mk' ?_ rfl rfl)
    | (extract_lets +onlyGivenNames x; first | (with_reducible apply Kept.cut (T := T) (r := r) (x := x); on_goal 2 => (intro hx; clear_value x)) | clear_value x)
    | (with_reducible apply Kept.foldl; on_goal 2 => (intro _ _ _; beta_reduce))
    | (with_reducible apply Kept.foldlSnd; on_goal 2 => (intro _ _ _; beta_reduce))
    | split

theorem State.groupFor_kept {T : Nat} {r s : State} {x1 : ℕ} (h : Kept T r s) (hT : Within 34 T) : Kept T r (State.groupFor s x1) := by
  unfold State.groupFor
  repeat' first
    | with_reducible apply Kept.ite
    | with_reducible assumption
    | exact Within.of hT rfl
    | with_reducible apply State.setPort_kept
    | with_reducible apply State.bump_kept
    | (fail_if_no_progress with_reducible refine Kept.mk' ?_ rfl rfl)
    | split

theorem State.consumers_kept {T : Nat} {r s : State} {x1 : List ℕ} (h : Kept T r s) (hT : Within 16941098 T) : Kept T r (State.consumers s x1) := by
  unfold State.consumers
  repeat' first
    | with_reducible apply Kept.ite
    | with_reducible assumption
    | exact Within.of hT rfl
    | with_reducible apply State.groupFor_kept
    | with_reducible apply State.uchCtrl_kept
    | with_reducible apply State.uchCmd_kept
    | with_reducible apply State.goosePublish_kept
    | (fail_if_no_progress with_reducible refine Kept.mk' ?_ rfl rfl)
    | (with_reducible apply Kept.foldl; on_goal 2 => (intro _ _ _; beta_reduce))
    | (with_reducible apply Kept.foldlSnd; on_goal 2 => (intro _ _ _; beta_reduce))
    | split

theorem execOutputRelease_kept {T : Nat} {r s : State}  (h : Kept T r s) (hT : Within 17758767 T) : KeptO T r (execOutputRelease s) := by
  unfold execOutputRelease
  repeat' first
    | with_reducible apply KeptO.ite
    | with_reducible apply Kept.ite
    | with_reducible assumption
    | exact Within.of hT rfl
    | with_reducible apply KeptO.next
    | with_reducible apply State.releaseCycle_kept
    | with_reducible apply State.shadowEnd_kept
    | with_reducible apply State.consumers_kept
    | with_reducible apply State.exchanges_kept
    | (fail_if_no_progress with_reducible refine Kept.mk' ?_ rfl rfl)
    | (with_reducible apply Kept.foldl; on_goal 2 => (intro _ _ _; beta_reduce))
    | (with_reducible apply Kept.foldlSnd; on_goal 2 => (intro _ _ _; beta_reduce))
    | split

theorem execCommandGroupSend_kept {T : Nat} {r s : State} {x0 : Fin 44} (h : Kept T r s) (hT : Within 16777250 T := by
    first | exact Within.refl _ | (refine Within.of (b := ?zb) ?zw ?ze; (case zw => assumption); (case ze => decide))) : KeptO T r (execCommandGroupSend x0 s) := by
  unfold execCommandGroupSend
  repeat' first
    | with_reducible apply KeptO.ite
    | with_reducible apply Kept.ite
    | with_reducible assumption
    | exact Within.of hT rfl
    | with_reducible apply KeptO.next
    | with_reducible apply State.setPort_kept
    | with_reducible apply State.sendWord_kept
    | with_reducible apply State.bump_kept
    | (fail_if_no_progress with_reducible refine Kept.mk' ?_ rfl rfl)
    | (with_reducible apply Kept.foldl; on_goal 2 => (intro _ _ _; beta_reduce))
    | (with_reducible apply Kept.foldlSnd; on_goal 2 => (intro _ _ _; beta_reduce))
    | split

theorem execPeerShelfSend_kept {T : Nat} {r s : State} {x0 : Fin 4} {x1 : Fin 1024} (h : Kept T r s) (hT : Within 16777248 T) : KeptO T r (execPeerShelfSend x0 x1 s) := by
  unfold execPeerShelfSend
  repeat' first
    | with_reducible apply KeptO.ite
    | with_reducible apply Kept.ite
    | with_reducible assumption
    | exact Within.of hT rfl
    | with_reducible apply KeptO.next
    | with_reducible apply State.sendMsg_kept
    | (fail_if_no_progress with_reducible refine Kept.mk' ?_ rfl rfl)
    | split

theorem execShelfReceived_kept {T : Nat} {r s : State} {x0 : Fin 4} {x1 : BitVec 16} {x2 : BitVec 64} {x3 : List Word} (h : Kept T r s) (hT : Within 16777386 T := by
    first | exact Within.refl _ | (refine Within.of (b := ?zb) ?zw ?ze; (case zw => assumption); (case ze => decide))) : KeptO T r (execShelfReceived x0 x1 x2 x3 s) := by
  unfold execShelfReceived
  repeat' first
    | with_reducible apply KeptO.ite
    | with_reducible apply Kept.ite
    | with_reducible assumption
    | exact Within.of hT rfl
    | with_reducible apply KeptO.next
    | with_reducible apply State.msgDone_kept
    | with_reducible apply State.pushData_kept
    | with_reducible apply State.set64_kept
    | with_reducible apply State.ctxReceiving_kept
    | with_reducible apply State.setCtxState_kept
    | (fail_if_no_progress with_reducible refine Kept.mk' ?_ rfl rfl)
    | (with_reducible apply Kept.foldl; on_goal 2 => (intro _ _ _; beta_reduce))
    | (with_reducible apply Kept.foldlSnd; on_goal 2 => (intro _ _ _; beta_reduce))
    | split

/-! ## Machine/Lnf.lean -/

theorem State.stemCause_kept {T : Nat} {r s : State} {x1 : ℕ} (h : Kept T r s) (hT : Within 20971530 T) : Kept T r (State.stemCause s x1) := by
  unfold State.stemCause
  repeat' first
    | with_reducible apply Kept.ite
    | with_reducible assumption
    | exact Within.of hT rfl
    | with_reducible apply State.set_kept
    | with_reducible apply State.raise_kept
    | (fail_if_no_progress with_reducible refine Kept.mk' ?_ rfl rfl)

theorem State.laneRecord_kept {T : Nat} {r s : State} {x1 : ℕ} {x2 : ℕ} (h : Kept T r s) (hT : Within 16777230 T) : Kept T r (State.laneRecord s x1 x2) := by
  unfold State.laneRecord
  repeat' first
    | with_reducible apply Kept.ite
    | with_reducible assumption
    | exact Within.of hT rfl
    | with_reducible apply State.set_kept
    | with_reducible apply State.bump_kept
    | with_reducible apply State.set64_kept
    | with_reducible apply State.logNamed_kept

theorem State.laneDown_kept {T : Nat} {r s : State} {x1 : ℕ} {x2 : ℕ} (h : Kept T r s) (hT : Within 16781322 T) : Kept T r (State.laneDown s x1 x2) := by
  unfold State.laneDown
  repeat' first
    | with_reducible assumption
    | exact Within.of hT rfl
    | with_reducible apply State.setRole_kept
    | with_reducible apply State.set_kept
    | with_reducible apply State.setLane_kept
    | with_reducible apply State.set64_kept
    | with_reducible apply State.raise_kept

theorem State.losePart_kept {T : Nat} {r s : State} {x1 : ℕ} (h : Kept T r s) (hT : Within 8194 T) : Kept T r (State.losePart s x1).2 := by
  unfold State.losePart
  repeat' first
    | with_reducible apply Kept.ite2
    | with_reducible apply Kept.ite
    | with_reducible assumption
    | exact Within.of hT rfl
    | with_reducible apply State.loseCycle_kept
    | with_reducible apply State.set_kept
    | (fail_if_no_progress with_reducible refine Kept.mk' ?_ rfl rfl)
    | (with_reducible apply Kept.foldl; on_goal 2 => (intro _ _ _; beta_reduce))
    | (with_reducible apply Kept.foldlSnd; on_goal 2 => (intro _ _ _; beta_reduce))
    | split

theorem State.ueCount_kept {T : Nat} {r s : State} {x1 : ℕ} {x2 : ℕ} (h : Kept T r s) (hT : Within 16777226 T := by
    first | exact Within.refl _ | (refine Within.of (b := ?zb) ?zw ?ze; (case zw => assumption); (case ze => decide))) : Kept T r (State.ueCount s x1 x2) := by
  unfold State.ueCount
  repeat' first
    | with_reducible apply Kept.ite
    | with_reducible assumption
    | exact Within.of hT rfl
    | with_reducible apply State.raise_kept
    | with_reducible apply State.bump_kept
    | with_reducible apply State.wr_kept
    | (fail_if_no_progress with_reducible refine Kept.mk' ?_ rfl rfl)

theorem State.startTakeover_kept {T : Nat} {r s : State} {x1 : ℕ} {x2 : ℕ} (h : Kept T r s) (hT : Within 21245966 T) : Kept T r (State.startTakeover s x1 x2) := by
  unfold State.startTakeover
  repeat' first
    | with_reducible apply Kept.ite
    | with_reducible assumption
    | exact Within.of hT rfl
    | with_reducible apply State.losePart_kept
    | with_reducible apply State.chgAbort_kept
    | with_reducible apply State.rplAbort_kept
    | with_reducible apply State.setRole_kept
    | with_reducible apply State.loadMirror_kept
    | with_reducible apply State.loadCode_kept
    | with_reducible apply State.dmaShow_kept
    | with_reducible apply State.set_kept
    | with_reducible apply State.spareAct_kept
    | with_reducible apply State.stemCause_kept
    | with_reducible apply State.raise_kept
    | (fail_if_no_progress with_reducible refine Kept.mk' ?_ rfl rfl)
    | (extract_lets +onlyGivenNames x; first
        | (have ht : (type_of% x) = State := by with_reducible rfl
           clear ht; with_reducible apply Kept.cut (T := T) (r := r) (x := x); (on_goal 2 => (intro hx; clear_value x)); (on_goal 1 => try unfold x))
        | (have ht : (type_of% x.2) = State := by with_reducible rfl
           clear ht; with_reducible apply Kept.cut (T := T) (r := r) (x := x.2); (on_goal 2 => (intro hx; clear_value x)); (on_goal 1 => try unfold x))
        | (have ht : (type_of% x) = Answer := by with_reducible rfl
           clear ht; with_reducible apply Kept.cut (T := T) (r := r) (x := x.st); (on_goal 2 => (intro hx; clear_value x)); (on_goal 1 => try unfold x))
        | (have ht : (type_of% x) = Clk := by with_reducible rfl
           clear ht)
        | (have ht : (type_of% x) = (ℕ → State) := by with_reducible rfl
           clear ht)
        | clear_value x | skip)
    | (with_reducible apply Kept.foldl; on_goal 2 => (intro _ _ _; beta_reduce))
    | (with_reducible apply Kept.foldlSnd; on_goal 2 => (intro _ _ _; beta_reduce))
    | split

theorem State.loadFail_kept {T : Nat} {r s : State}  (h : Kept T r s) (hT : Within 20979722 T) : Kept T r (State.loadFail s) := by
  unfold State.loadFail
  repeat' first
    | with_reducible apply Kept.ite
    | with_reducible assumption
    | exact Within.of hT rfl
    | with_reducible apply State.setRole_kept
    | with_reducible apply State.set_kept
    | with_reducible apply State.stemCause_kept
    | with_reducible apply State.raise_kept
    | with_reducible apply State.spareAct_kept
    | (fail_if_no_progress with_reducible refine Kept.mk' ?_ rfl rfl)
    | split

theorem State.laneFail_kept {T : Nat} {r s : State} {x1 : ℕ} {x2 : ℕ} (h : Kept T r s) (hT : Within 21377038 T) : Kept T r (State.laneFail s x1 x2) := by
  unfold State.laneFail
  repeat' first
    | with_reducible apply Kept.ite
    | with_reducible assumption
    | exact Within.of hT rfl
    | with_reducible apply State.gooseStatus_kept
    | with_reducible apply State.startTakeover_kept
    | with_reducible apply State.laneDown_kept
    | with_reducible apply State.laneRecord_kept
    | with_reducible apply State.chgAbort_kept
    | with_reducible apply State.rplAbort_kept
    | with_reducible apply State.spareAct_kept
    | with_reducible apply State.raise_kept
    | with_reducible apply State.stemCause_kept
    | (fail_if_no_progress with_reducible refine Kept.mk' ?_ rfl rfl)

theorem execLaneFail_kept {T : Nat} {r s : State} {x0 : Fin 4} {x1 : LaneErr} (h : Kept T r s) (hT : Within 21377038 T := by
    first | exact Within.refl _ | (refine Within.of (b := ?zb) ?zw ?ze; (case zw => assumption); (case ze => decide))) : KeptO T r (execLaneFail x0 x1 s) := by
  unfold execLaneFail
  repeat' first
    | with_reducible apply KeptO.ite
    | with_reducible apply Kept.ite
    | with_reducible assumption
    | exact Within.of hT rfl
    | with_reducible apply KeptO.next
    | with_reducible apply State.ueCount_kept
    | with_reducible apply State.laneFail_kept
    | (fail_if_no_progress with_reducible refine Kept.mk' ?_ rfl rfl)

theorem State.loadSpare_kept {T : Nat} {r s : State} {x1 : Takeover} (h : Kept T r s) (hT : Within 6144 T := by
    first | exact Within.refl _ | (refine Within.of (b := ?zb) ?zw ?ze; (case zw => assumption); (case ze => decide))) : Kept T r (State.loadSpare s x1) := by
  unfold State.loadSpare
  repeat' first
    | with_reducible apply Kept.ite
    | with_reducible assumption
    | exact Within.of hT rfl
    | with_reducible apply State.loadMirror_kept
    | with_reducible apply State.loadCode_kept
    | (fail_if_no_progress with_reducible refine Kept.mk' ?_ rfl rfl)
    | split

theorem execTakeover_kept {T : Nat} {r s : State}  (h : Kept T r s) (hT : Within 16922638 T := by
    first | exact Within.refl _ | (refine Within.of (b := ?zb) ?zw ?ze; (case zw => assumption); (case ze => decide))) : KeptO T r (execTakeover s) := by
  unfold execTakeover
  repeat' first
    | with_reducible apply KeptO.ite
    | with_reducible apply Kept.ite
    | with_reducible assumption
    | exact Within.of hT rfl
    | with_reducible apply KeptO.next
    | with_reducible apply State.loadSpare_kept
    | with_reducible apply State.setRole_kept
    | with_reducible apply State.set_kept
    | with_reducible apply State.dmaShow_kept
    | with_reducible apply State.set64_kept
    | with_reducible apply State.logNamedSev_kept
    | with_reducible apply State.raise_kept
    | with_reducible apply State.gooseStatus_kept
    | with_reducible apply State.spareAct_kept
    | (fail_if_no_progress with_reducible refine Kept.mk' ?_ rfl rfl)
    | split

theorem execPantrySnapshot_kept {T : Nat} {r s : State}  (h : Kept T r s) (hT : Within 17311755 T) : KeptO T r (execPantrySnapshot s) := by
  unfold execPantrySnapshot
  repeat' first
    | with_reducible apply KeptO.ite
    | with_reducible apply Kept.ite
    | with_reducible assumption
    | exact Within.of hT rfl
    | with_reducible apply KeptO.next
    | with_reducible apply State.captureNouns_kept
    | with_reducible apply State.dmaShow_kept
    | with_reducible apply State.setPan_kept
    | (fail_if_no_progress with_reducible refine Kept.mk' ?_ rfl rfl)

theorem State.panDone_kept {T : Nat} {r s : State}  (h : Kept T r s) (hT : Within 10242 T) : Kept T r (State.panDone s) := by
  unfold State.panDone
  repeat' first
    | with_reducible apply Kept.ite
    | with_reducible assumption
    | exact Within.of hT rfl
    | with_reducible apply State.setPan_kept
    | (fail_if_no_progress with_reducible refine Kept.mk' ?_ rfl rfl)
    | split

theorem State.panFail_kept {T : Nat} {r s : State}  (h : Kept T r s) (hT : Within 16787470 T) : Kept T r (State.panFail s) := by
  unfold State.panFail
  repeat' first
    | with_reducible apply Kept.ite
    | with_reducible assumption
    | exact Within.of hT rfl
    | with_reducible apply State.logNamed_kept
    | with_reducible apply State.raise_kept
    | with_reducible apply State.setPan_kept
    | (fail_if_no_progress with_reducible refine Kept.mk' ?_ rfl rfl)
    | split

theorem State.finalSnap_kept {T : Nat} {r s : State}  (h : Kept T r s) (hT : Within 10242 T) : Kept T r (State.finalSnap s) := by
  unfold State.finalSnap
  repeat' first
    | with_reducible apply Kept.ite
    | with_reducible assumption
    | exact Within.of hT rfl
    | with_reducible apply State.setPan_kept
    | (fail_if_no_progress with_reducible refine Kept.mk' ?_ rfl rfl)

end Sys2Proof.Machine
end

