-- ==== Sys2Proof/Laws/KeptOlc.lean ====
section
/-!
SUPPORT. Laws/KeptOlc.lean: what each operation of online change and forces keeps (the relation Kept of Laws/Kept.lean), one lemma
per operation.
-/
set_option linter.unusedTactic false
set_option linter.unreachableTactic false
set_option linter.unusedVariables false
set_option Elab.async false
namespace Sys2Proof.Machine
open Sys2Proof

/-! ## Machine/Olc.lean -/

theorem State.gateBusy_kept {T : Nat} {r s : State} {x1 : ℕ} {x2 : ℕ} {x3 : Word} {x4 : Option ℕ} {x5 : Bool} (h : Kept T r s) (hT : Within 16777246 T) : Kept T r (State.gateBusy s x1 x2 x3 x4 x5).2 := by
  unfold State.gateBusy
  repeat' first
    | with_reducible apply Kept.ite2
    | with_reducible apply Kept.ite
    | with_reducible assumption
    | exact Within.of hT rfl
    | with_reducible apply State.gate_kept
    | with_reducible apply State.deny_kept

theorem execVcApply_kept {T : Nat} {r s : State} {x0 : Fin 2} {x1 : Word} (h : Kept T r s) (hT : Within 17039390 T) : KeptO T r (execVcApply x0 x1 s) := by
  unfold execVcApply
  repeat' first
    | with_reducible apply KeptO.ite
    | with_reducible apply Kept.ite
    | with_reducible assumption
    | exact Within.of hT rfl
    | with_reducible apply KeptO.next
    | (with_reducible apply whenAllowed_kept; on_goal 2 => (intro _ _; beta_reduce))
    | with_reducible apply State.gateBusy_kept
    | with_reducible apply State.set_kept
    | with_reducible apply State.raise_kept
    | with_reducible apply State.vcBusy_kept
    | (fail_if_no_progress with_reducible refine Kept.mk' ?_ rfl rfl)

theorem execVcCancel_kept {T : Nat} {r s : State} {x0 : Fin 2} {x1 : Word} (h : Kept T r s) (hT : Within 17039390 T) : KeptO T r (execVcCancel x0 x1 s) := by
  unfold execVcCancel
  repeat' first
    | with_reducible apply KeptO.ite
    | with_reducible apply Kept.ite
    | with_reducible assumption
    | exact Within.of hT rfl
    | with_reducible apply KeptO.next
    | (with_reducible apply whenAllowed_kept; on_goal 2 => (intro _ _; beta_reduce))
    | with_reducible apply State.gate_kept
    | with_reducible apply State.set_kept
    | with_reducible apply State.vcBusy_kept
    | (fail_if_no_progress with_reducible refine Kept.mk' ?_ rfl rfl)

theorem State.vcShadow_kept {T : Nat} {r s : State} {x1 : ℕ} {x2 : ℕ} {x3 : ℕ} {x4 : ℕ} {x5 : Word} (h : Kept T r s) (hT : Within 264192 T) : Kept T r (State.vcShadow s x1 x2 x3 x4 x5) := by
  unfold State.vcShadow
  repeat' first
    | with_reducible apply Kept.ite
    | with_reducible assumption
    | exact Within.of hT rfl
    | with_reducible apply State.storeNat_kept
    | (fail_if_no_progress with_reducible refine Kept.mk' ?_ rfl rfl)
    | split

theorem State.vcEntry_kept {T : Nat} {r s : State} {x1 : ℕ} {x2 : ℕ} {x3 : ℕ × ℕ × Word} (h : Kept T r s) (hT : Within 17565710 T) : Kept T r (State.vcEntry s x1 x2 x3) := by
  unfold State.vcEntry
  repeat' first
    | with_reducible apply Kept.ite
    | with_reducible assumption
    | exact Within.of hT rfl
    | with_reducible apply State.storeNat_kept
    | with_reducible apply State.logNamedSev_kept
    | with_reducible apply State.lftEvent_kept
    | with_reducible apply State.vcShadow_kept
    | (fail_if_no_progress with_reducible refine Kept.mk' ?_ rfl rfl)
    | split

theorem State.vcTake_kept {T : Nat} {r s : State} {x1 : Batch} {x2 : ℕ} (h : Kept T r s) (hT : Within 17565710 T := by
    first | exact Within.refl _ | (refine Within.of (b := ?zb) ?zw ?ze; (case zw => assumption); (case ze => decide))) : Kept T r (State.vcTake s x1 x2) := by
  unfold State.vcTake
  repeat' first
    | with_reducible apply Kept.ite
    | with_reducible assumption
    | exact Within.of hT rfl
    | with_reducible apply State.vcEntry_kept
    | with_reducible apply State.vcBusy_kept
    | with_reducible apply State.set_kept
    | with_reducible apply State.set64_kept
    | with_reducible apply State.raise_kept
    | (fail_if_no_progress with_reducible refine Kept.mk' ?_ rfl rfl)
    | (with_reducible apply Kept.foldl; on_goal 2 => (intro _ _ _; beta_reduce))
    | (with_reducible apply Kept.foldlSnd; on_goal 2 => (intro _ _ _; beta_reduce))
    | split

theorem State.vcAtStop_kept {T : Nat} {r s : State}  (h : Kept T r s) (hT : Within 17565710 T := by
    first | exact Within.refl _ | (refine Within.of (b := ?zb) ?zw ?ze; (case zw => assumption); (case ze => decide))) : Kept T r (State.vcAtStop s) := by
  unfold State.vcAtStop
  repeat' first
    | with_reducible apply Kept.ite
    | with_reducible assumption
    | exact Within.of hT rfl
    | with_reducible apply State.vcTake_kept
    | (fail_if_no_progress with_reducible refine Kept.mk' ?_ rfl rfl)
    | split

theorem execVcApplied_kept {T : Nat} {r s : State}  (h : Kept T r s) (hT : Within 17565710 T := by
    first | exact Within.refl _ | (refine Within.of (b := ?zb) ?zw ?ze; (case zw => assumption); (case ze => decide))) : KeptO T r (execVcApplied s) := by
  unfold execVcApplied
  repeat' first
    | with_reducible apply KeptO.ite
    | with_reducible apply Kept.ite
    | with_reducible assumption
    | exact Within.of hT rfl
    | with_reducible apply KeptO.next
    | with_reducible apply State.vcTake_kept
    | (fail_if_no_progress with_reducible refine Kept.mk' ?_ rfl rfl)
    | split

theorem State.vcRecheck_kept {T : Nat} {r s : State} {x1 : Partition} {x2 : Partition} (h : Kept T r s) (hT : Within 17039370 T) : Kept T r (State.vcRecheck s x1 x2) := by
  unfold State.vcRecheck
  repeat' first
    | with_reducible apply Kept.ite
    | with_reducible assumption
    | exact Within.of hT rfl
    | with_reducible apply State.raise_kept
    | with_reducible apply State.set_kept
    | with_reducible apply State.vcBusy_kept
    | (fail_if_no_progress with_reducible refine Kept.mk' ?_ rfl rfl)
    | split

theorem State.loadRefuse_kept {T : Nat} {r s : State} {x1 : ℕ} (h : Kept T r s) (hT : Within 16777226 T) : Kept T r (State.loadRefuse s x1) := by
  unfold State.loadRefuse
  repeat' first
    | with_reducible assumption
    | exact Within.of hT rfl
    | with_reducible apply State.raise_kept
    | with_reducible apply State.set_kept

theorem State.shadowCleared_kept {T : Nat} {r s : State}  (h : Kept T r s) (hT : Within 262146 T) : Kept T r (State.shadowCleared s) := by
  unfold State.shadowCleared
  repeat' first
    | with_reducible assumption
    | exact Within.of hT rfl
    | with_reducible apply State.wr_kept
    | with_reducible apply State.clearDiffs_kept
    | with_reducible apply State.set64_kept

theorem State.chgFields_kept {T : Nat} {r s : State} {x1 : Word} (h : Kept T r s) (hT : Within 2 T) : Kept T r (State.chgFields s x1) := by
  unfold State.chgFields
  repeat' first
    | with_reducible assumption
    | exact Within.of hT rfl
    | with_reducible apply State.set_kept

theorem execChgLoad_kept {T : Nat} {r s : State} {x0 : Fin 2} {x1 : Word} {x2 : Option Image} (h : Kept T r s) (hT : Within 17051678 T) : KeptO T r (execChgLoad x0 x1 x2 s) := by
  unfold execChgLoad
  repeat' first
    | with_reducible apply KeptO.ite
    | with_reducible apply Kept.ite
    | with_reducible assumption
    | exact Within.of hT rfl
    | with_reducible apply KeptO.next
    | (with_reducible apply whenAllowed_kept; on_goal 2 => (intro _ _; beta_reduce))
    | with_reducible apply State.gate_kept
    | with_reducible apply State.chgFields_kept
    | with_reducible apply State.rplAbort_kept
    | with_reducible apply State.loadRefuse_kept
    | with_reducible apply State.set_kept
    | with_reducible apply State.shadowCleared_kept
    | with_reducible apply State.dmaShow_kept
    | with_reducible apply State.chgPhase_kept
    | (fail_if_no_progress with_reducible refine Kept.mk' ?_ rfl rfl)

theorem State.chgLoading_kept {T : Nat} {r s : State}  (h : Kept T r s) (hT : Within 262146 T) : Kept T r (State.chgLoading s) := by
  unfold State.chgLoading
  repeat' first
    | with_reducible apply Kept.ite
    | with_reducible assumption
    | exact Within.of hT rfl
    | with_reducible apply State.chgPhase_kept

theorem execChgLoadDone_kept {T : Nat} {r s : State}  (h : Kept T r s) (hT : Within 17045514 T := by
    first | exact Within.refl _ | (refine Within.of (b := ?zb) ?zw ?ze; (case zw => assumption); (case ze => decide))) : KeptO T r (execChgLoadDone s) := by
  unfold execChgLoadDone
  repeat' first
    | with_reducible apply KeptO.ite
    | with_reducible apply Kept.ite
    | with_reducible assumption
    | exact Within.of hT rfl
    | with_reducible apply KeptO.next
    | with_reducible apply State.set_kept
    | with_reducible apply State.dmaShow_kept
    | with_reducible apply State.loadRefuse_kept
    | with_reducible apply State.loadCode_kept
    | with_reducible apply State.chgPhase_kept
    | (fail_if_no_progress with_reducible refine Kept.mk' ?_ rfl rfl)
    | (extract_lets +onlyGivenNames x; first
        | (have ht : (type_of% x) = State := by with_reducible rfl
           clear ht; with_reducible apply Kept.cut (T := T) (r := r) (x := x); (on_goal 2 => (intro hx; clear_value x)); (on_goal 1 => try unfold x))
        | (have ht : (type_of% x.2) = State := by with_reducible rfl
           clear ht; with_reducible apply Kept.cut (T := T) (r := r) (x := x.2); (on_goal 2 => (intro hx; clear_value x)); (on_goal 1 => try unfold x))
        | (have ht : (type_of% x) = Answer := by with_reducible rfl
           clear ht; with_reducible apply Kept.cut (T := T) (r := r) (x := x.st); (on_goal 2 => (intro hx; clear_value x)); (on_goal 1 => try unfold x))
        | (have ht : (type_of% x) = Clk := by with_reducible rfl
           clear ht)
        | (have ht : (type_of% x) = (ℕ → State) := by with_reducible rfl
           clear ht)
        | clear_value x | skip)
    | (with_reducible apply Kept.foldl; on_goal 2 => (intro _ _ _; beta_reduce))
    | (with_reducible apply Kept.foldlSnd; on_goal 2 => (intro _ _ _; beta_reduce))
    | split

theorem State.migrate_kept {T : Nat} {r s : State} {x1 : ℕ} {x2 : Partition} {x3 x4 : ℕ} {x5 : Noun} {x6 : ℕ} {x7 : List Byte} (h : Kept T r s) (hT : Within 17053710 T) :
    Kept T r (State.migrate s x1 x2 x3 x4 x5 x6 x7) := by
  have hb : Memory.wf r.mem = true → kvWf (fun _ => (0 : Byte)) (s.bytes (spData x1)) = true := fun e => Memory.wf_get (h.wf e)
  unfold State.migrate
  extract_lets before a1 a2 a3 c ln1 a4 a5 ok ln2 a6 a7 a8 a9 a10
  have k1 : Kept T r a1 := State.storeBytes_kept (State.zeroSpace_kept h)
  have k2 : Kept T r a3 := Kept.mk' k1 rfl rfl
  have k3 : Kept T r a4 := State.enter_kept (State.setLane_kept k2)
  have k4 : Kept T r a5 := State.runCycle_kept k3
  have k5 : Kept T r a6 := State.setLane_kept (State.setCycle_kept k4)
  have k6 : Kept T r a7 := State.zeroSpace_kept k5
  have k7 : Kept T r a9 := Kept.mk' k6 rfl rfl
  have k8 : Kept T r a10 := Kept.putMem k7 (fun e => Memory.wf_put (k7.wf e) (hb e)) (.of hT (by decide))
  exact .ite k7 (State.logNamed_kept (State.raise_kept (State.bump_kept k8)))

theorem State.buildNouns_kept {T : Nat} {r s : State} {x1 : ℕ} {x2 : Partition} {x3 : Partition} (h : Kept T r s) (hT : Within 17053710 T) : Kept T r (State.buildNouns s x1 x2 x3) := by
  unfold State.buildNouns
  repeat' first
    | with_reducible apply Kept.ite
    | with_reducible assumption
    | exact Within.of hT rfl
    | with_reducible apply State.placeNoun_kept
    | with_reducible apply State.migrate_kept
    | (fail_if_no_progress with_reducible refine Kept.mk' ?_ rfl rfl)
    | (with_reducible apply Kept.foldl; on_goal 2 => (intro _ _ _; beta_reduce))
    | (with_reducible apply Kept.foldlSnd; on_goal 2 => (intro _ _ _; beta_reduce))
    | split

theorem execShadowStart_kept {T : Nat} {r s : State}  (h : Kept T r s) (hT : Within 17053710 T) : KeptO T r (execShadowStart s) := by
  unfold execShadowStart
  repeat' first
    | with_reducible apply KeptO.ite
    | with_reducible apply Kept.ite
    | with_reducible assumption
    | exact Within.of hT rfl
    | with_reducible apply KeptO.next
    | with_reducible apply State.buildNouns_kept
    | with_reducible apply State.spareAct_kept
    | with_reducible apply State.chgPhase_kept
    | (fail_if_no_progress with_reducible refine Kept.mk' ?_ rfl rfl)
    | split

theorem execShadowDone_kept {T : Nat} {r s : State}  (h : Kept T r s) (hT : Within 17039370 T) : KeptO T r (execShadowDone s) := by
  unfold execShadowDone
  repeat' first
    | with_reducible apply KeptO.ite
    | with_reducible apply Kept.ite
    | with_reducible assumption
    | exact Within.of hT rfl
    | with_reducible apply KeptO.next
    | with_reducible apply State.raise_kept
    | with_reducible apply State.chgPhase_kept

theorem State.shadowHp_kept {T : Nat} {r s : State}  (h : Kept T r s) (hT : Within 2 T) : Kept T r (State.shadowHp s) := by
  unfold State.shadowHp
  repeat' first
    | with_reducible apply Kept.ite
    | with_reducible assumption
    | exact Within.of hT rfl
    | with_reducible apply State.set_kept

theorem execChgCancel_kept {T : Nat} {r s : State} {x0 : Fin 2} {x1 : Word} (h : Kept T r s) (hT : Within 17051678 T) : KeptO T r (execChgCancel x0 x1 s) := by
  unfold execChgCancel
  repeat' first
    | with_reducible apply KeptO.ite
    | with_reducible apply Kept.ite
    | with_reducible assumption
    | exact Within.of hT rfl
    | with_reducible apply KeptO.next
    | (with_reducible apply whenAllowed_kept; on_goal 2 => (intro _ _; beta_reduce))
    | with_reducible apply State.gate_kept
    | with_reducible apply State.chgFields_kept
    | with_reducible apply State.spareIdle_kept
    | with_reducible apply State.chgPhase_kept
    | (fail_if_no_progress with_reducible refine Kept.mk' ?_ rfl rfl)

theorem State.switchRefuse_kept {T : Nat} {r s : State} {x1 : ℕ} (h : Kept T r s) (hT : Within 16777226 T) : Kept T r (State.switchRefuse s x1) := by
  unfold State.switchRefuse
  repeat' first
    | with_reducible assumption
    | exact Within.of hT rfl
    | with_reducible apply State.raise_kept
    | with_reducible apply State.set_kept

theorem execChgSwitch_kept {T : Nat} {r s : State} {x0 : Fin 2} {x1 : Word} (h : Kept T r s) (hT : Within 17039390 T) : KeptO T r (execChgSwitch x0 x1 s) := by
  unfold execChgSwitch
  repeat' first
    | with_reducible apply KeptO.ite
    | with_reducible apply Kept.ite
    | with_reducible assumption
    | exact Within.of hT rfl
    | with_reducible apply KeptO.next
    | (with_reducible apply whenAllowed_kept; on_goal 2 => (intro _ _; beta_reduce))
    | with_reducible apply State.gate_kept
    | with_reducible apply State.chgFields_kept
    | with_reducible apply State.switchRefuse_kept
    | with_reducible apply State.chgPhase_kept
    | (fail_if_no_progress with_reducible refine Kept.mk' ?_ rfl rfl)
    | split

theorem State.forceDrop_kept {T : Nat} {r s : State} {x1 : ℕ} (h : Kept T r s) (hT : Within 16801806 T := by
    first | exact Within.refl _ | (refine Within.of (b := ?zb) ?zw ?ze; (case zw => assumption); (case ze => decide))) : Kept T r (State.forceDrop s x1) := by
  unfold State.forceDrop
  repeat' first
    | with_reducible apply Kept.ite
    | with_reducible assumption
    | exact Within.of hT rfl
    | with_reducible apply State.setFrc_kept
    | with_reducible apply State.noteForced_kept
    | with_reducible apply State.set_kept
    | with_reducible apply State.forceEntry_kept
    | with_reducible apply State.raise_kept
    | with_reducible apply State.forceCounts_kept
    | (fail_if_no_progress with_reducible refine Kept.mk' ?_ rfl rfl)

theorem State.forceBind_kept {T : Nat} {r s : State} {x1 : ℕ} {x2 : Symbol} (h : Kept T r s) (hT : Within 24578 T := by
    first | exact Within.refl _ | (refine Within.of (b := ?zb) ?zw ?ze; (case zw => assumption); (case ze => decide))) : Kept T r (State.forceBind s x1 x2) := by
  unfold State.forceBind
  repeat' first
    | with_reducible apply Kept.ite
    | with_reducible assumption
    | exact Within.of hT rfl
    | with_reducible apply State.setFrc_kept
    | with_reducible apply State.set_kept
    | with_reducible apply State.noteForced_kept
    | (fail_if_no_progress with_reducible refine Kept.mk' ?_ rfl rfl)

theorem State.forcesSwitch_kept {T : Nat} {r s : State} {x1 : Partition} (h : Kept T r s) (hT : Within 16801806 T) : Kept T r (State.forcesSwitch s x1) := by
  unfold State.forcesSwitch
  repeat' first
    | with_reducible apply Kept.ite
    | with_reducible assumption
    | exact Within.of hT rfl
    | with_reducible apply State.raise_kept
    | with_reducible apply State.forceBind_kept
    | with_reducible apply State.forceDrop_kept
    | (fail_if_no_progress with_reducible refine Kept.mk' ?_ rfl rfl)
    | (with_reducible apply Kept.foldl; on_goal 2 => (intro _ _ _; beta_reduce))
    | (with_reducible apply Kept.foldlSnd; on_goal 2 => (intro _ _ _; beta_reduce))
    | split

theorem State.mirrorFrom_kept {T : Nat} {r s : State} {x1 : ℕ} {x2 : Partition} (h : Kept T r s) (hT : Within 2048 T) : Kept T r (State.mirrorFrom s x1 x2) := by
  unfold State.mirrorFrom
  repeat' first
    | with_reducible apply Kept.ite
    | with_reducible assumption
    | exact Within.of hT rfl
    | with_reducible apply State.storeBytes_kept
    | (fail_if_no_progress with_reducible refine Kept.mk' ?_ rfl rfl)
    | (with_reducible apply Kept.foldl; on_goal 2 => (intro _ _ _; beta_reduce))
    | (with_reducible apply Kept.foldlSnd; on_goal 2 => (intro _ _ _; beta_reduce))
    | split

theorem State.switchTo_kept {T : Nat} {r s : State} {x1 : ProgImage} {x2 : Partition} {x3 : Partition} (h : Kept T r s) (hT : Within 17070094 T) : Kept T r (State.switchTo s x1 x2 x3) := by
  unfold State.switchTo
  repeat' first
    | with_reducible apply Kept.ite
    | with_reducible assumption
    | exact Within.of hT rfl
    | with_reducible apply State.loseCycle_kept
    | with_reducible apply State.setRole_kept
    | with_reducible apply State.set_kept
    | with_reducible apply State.spareIdle_kept
    | with_reducible apply State.vcRecheck_kept
    | with_reducible apply State.buildNouns_kept
    | with_reducible apply State.mirrorFrom_kept
    | with_reducible apply State.forcesSwitch_kept
    | with_reducible apply State.setLane_kept
    | with_reducible apply State.zeroSpace_kept
    | with_reducible apply State.showTask_kept
    | with_reducible apply State.showRegions_kept
    | with_reducible apply State.logNamedSev_kept
    | with_reducible apply State.raise_kept
    | with_reducible apply State.spareAct_kept
    | with_reducible apply State.chgPhase_kept
    | (fail_if_no_progress with_reducible refine Kept.mk' ?_ rfl rfl)
    | (with_reducible apply Kept.foldl; on_goal 2 => (intro _ _ _; beta_reduce))
    | (with_reducible apply Kept.foldlSnd; on_goal 2 => (intro _ _ _; beta_reduce))
    | split

theorem execCodeSwitch_kept {T : Nat} {r s : State}  (h : Kept T r s) (hT : Within 17070094 T) : KeptO T r (execCodeSwitch s) := by
  unfold execCodeSwitch
  repeat' first
    | with_reducible apply KeptO.ite
    | with_reducible apply Kept.ite
    | with_reducible assumption
    | exact Within.of hT rfl
    | with_reducible apply KeptO.next
    | with_reducible apply State.switchTo_kept
    | with_reducible apply State.switchRefuse_kept
    | (fail_if_no_progress with_reducible refine Kept.mk' ?_ rfl rfl)
    | split

/-! ## Machine/Frc.lean -/

theorem State.forceIgnored_kept {T : Nat} {r s : State} {x1 : ℕ} {x2 : ℕ} {x3 : ℕ} (h : Kept T r s) (hT : Within 16777230 T) : Kept T r (State.forceIgnored s x1 x2 x3) := by
  unfold State.forceIgnored
  repeat' first
    | with_reducible assumption
    | exact Within.of hT rfl
    | with_reducible apply State.set_kept
    | with_reducible apply State.deny_kept

theorem State.forceType_kept {T : Nat} {r s : State} {x1 : ℕ} {x2 : ℕ} {x3 : Word} (h : Kept T r s) (hT : Within 16777230 T) : Kept T r (State.forceType s x1 x2 x3) := by
  unfold State.forceType
  repeat' first
    | with_reducible apply Kept.ite
    | with_reducible assumption
    | exact Within.of hT rfl
    | with_reducible apply State.forceIgnored_kept
    | with_reducible apply State.set_kept

theorem State.forceArm_kept {T : Nat} {r s : State} {x1 : ℕ} (h : Kept T r s) (hT : Within 16793610 T) : Kept T r (State.forceArm s x1) := by
  unfold State.forceArm
  repeat' first
    | with_reducible apply Kept.ite
    | with_reducible assumption
    | exact Within.of hT rfl
    | with_reducible apply State.setFrc_kept
    | with_reducible apply State.set_kept
    | with_reducible apply State.raise_kept
    | (fail_if_no_progress with_reducible refine Kept.mk' ?_ rfl rfl)
    | (extract_lets +onlyGivenNames x; first | (with_reducible apply Kept.cut (T := T) (r := r) (x := x); on_goal 2 => (intro hx; clear_value x)) | clear_value x)
    | split

theorem execForceArm_kept {T : Nat} {r s : State} {x0 : Fin 2} {x1 : Fin 256} {x2 : Word} (h : Kept T r s) (hT : Within 16793630 T) : KeptO T r (execForceArm x0 x1 x2 s) := by
  unfold execForceArm
  repeat' first
    | with_reducible apply KeptO.ite
    | with_reducible apply Kept.ite
    | with_reducible assumption
    | exact Within.of hT rfl
    | with_reducible apply KeptO.next
    | (with_reducible apply whenAllowed_kept; on_goal 2 => (intro _ _; beta_reduce))
    | with_reducible apply State.gate_kept
    | with_reducible apply State.forceType_kept
    | with_reducible apply State.forceArm_kept

theorem execForceDisarm_kept {T : Nat} {r s : State} {x0 : Fin 2} {x1 : Fin 256} {x2 : Word} (h : Kept T r s) (hT : Within 16793630 T) : KeptO T r (execForceDisarm x0 x1 x2 s) := by
  unfold execForceDisarm
  repeat' first
    | with_reducible apply KeptO.ite
    | with_reducible apply Kept.ite
    | with_reducible assumption
    | exact Within.of hT rfl
    | with_reducible apply KeptO.next
    | (with_reducible apply whenAllowed_kept; on_goal 2 => (intro _ _; beta_reduce))
    | with_reducible apply State.gate_kept
    | with_reducible apply State.forceType_kept
    | with_reducible apply State.setFrc_kept

theorem State.forceVal_kept {T : Nat} {r s : State} {x1 : ℕ} {x2 : ℕ} (h : Kept T r s) (hT : Within 16386 T) : Kept T r (State.forceVal s x1 x2) := by
  unfold State.forceVal
  repeat' first
    | with_reducible apply Kept.ite
    | with_reducible assumption
    | exact Within.of hT rfl
    | with_reducible apply State.set64_kept
    | with_reducible apply State.setFrc_kept

theorem execForceValueWrite_kept {T : Nat} {r s : State} {x0 : Fin 2} {x1 : Fin 256} {x2 : Word} (h : Kept T r s) (hT : Within 16793630 T) : KeptO T r (execForceValueWrite x0 x1 x2 s) := by
  unfold execForceValueWrite
  repeat' first
    | with_reducible assumption
    | exact Within.of hT rfl
    | with_reducible apply KeptO.next
    | (with_reducible apply whenAllowed_kept; on_goal 2 => (intro _ _; beta_reduce))
    | with_reducible apply State.gate_kept
    | with_reducible apply State.commit64_kept
    | with_reducible apply State.forceVal_kept

theorem execForceActivate_kept {T : Nat} {r s : State} {x0 : Fin 256} (h : Kept T r s) (hT : Within 16801806 T) : KeptO T r (execForceActivate x0 s) := by
  unfold execForceActivate
  repeat' first
    | with_reducible apply KeptO.ite
    | with_reducible apply Kept.ite
    | with_reducible assumption
    | exact Within.of hT rfl
    | with_reducible apply KeptO.next
    | with_reducible apply State.forceTurn_kept

theorem execForceEnd_kept {T : Nat} {r s : State} {x0 : Fin 256} (h : Kept T r s) (hT : Within 16801806 T) : KeptO T r (execForceEnd x0 s) := by
  unfold execForceEnd
  repeat' first
    | with_reducible apply KeptO.ite
    | with_reducible apply Kept.ite
    | with_reducible assumption
    | exact Within.of hT rfl
    | with_reducible apply KeptO.next
    | with_reducible apply State.forceTurn_kept

theorem execFrcClearAll_kept {T : Nat} {r s : State} {x0 : Fin 2} {x1 : Word} (h : Kept T r s) (hT : Within 16793630 T := by
    first | exact Within.refl _ | (refine Within.of (b := ?zb) ?zw ?ze; (case zw => assumption); (case ze => decide))) : KeptO T r (execFrcClearAll x0 x1 s) := by
  unfold execFrcClearAll
  repeat' first
    | with_reducible apply KeptO.ite
    | with_reducible apply Kept.ite
    | with_reducible assumption
    | exact Within.of hT rfl
    | with_reducible apply KeptO.next
    | (with_reducible apply whenAllowed_kept; on_goal 2 => (intro _ _; beta_reduce))
    | with_reducible apply State.gate_kept
    | with_reducible apply State.setFrc_kept
    | with_reducible apply State.forceBlank_kept
    | (fail_if_no_progress with_reducible refine Kept.mk' ?_ rfl rfl)
    | (with_reducible apply Kept.foldl; on_goal 2 => (intro _ _ _; beta_reduce))
    | (with_reducible apply Kept.foldlSnd; on_goal 2 => (intro _ _ _; beta_reduce))
    | split

end Sys2Proof.Machine
end

