-- ==== Sys2Proof/Laws/KeptLft.lean ====
section
/-!
SUPPORT. Laws/KeptLft.lean: what each operation of the Loft, DMA and replay keeps (the relation Kept of Laws/Kept.lean), one lemma
per operation.
-/
set_option linter.unusedTactic false
set_option linter.unreachableTactic false
set_option linter.unusedVariables false
set_option Elab.async false
namespace Sys2Proof.Machine
open Sys2Proof

/-! ## Machine/LftSen.lean -/

theorem State.lftSourceTo_kept {T : Nat} {r s : State} {x1 : ℕ} {x2 : ℕ} {x3 : ℕ} (h : Kept T r s) (hT : Within 514 T) : Kept T r (State.lftSourceTo s x1 x2 x3) := by
  unfold State.lftSourceTo
  repeat' first
    | with_reducible apply Kept.ite
    | with_reducible assumption
    | exact Within.of hT rfl
    | with_reducible apply State.elementsTo_kept
    | with_reducible apply State.pairTo_kept

theorem State.setCmp_kept {T : Nat} {r s : State} {x1 : ℕ} {x2 : CmpSt} (h : Kept T r s) (hT : Within 524288 T) : Kept T r (State.setCmp s x1 x2) := by
  unfold State.setCmp
  repeat' first
    | with_reducible apply Kept.ite
    | with_reducible assumption
    | exact Within.of hT rfl
    | (fail_if_no_progress with_reducible refine Kept.mk' ?_ rfl rfl)

theorem State.cmpStep_kept {T : Nat} {r s : State} {x1 : ℕ} {x2 : ℤ × Bool} (h : Kept T r s) (hT : Within 524290 T) : Kept T r (State.cmpStep s x1 x2) := by
  unfold State.cmpStep
  repeat' first
    | with_reducible assumption
    | exact Within.of hT rfl
    | with_reducible apply State.set_kept
    | with_reducible apply State.setCmp_kept

theorem cmpGo_kept {T : Nat} {r s : State} {x0 : ℕ} {x1 : ℕ} (h : Kept T r s) (hT : Within 524290 T) : Kept T r (cmpGo x0 x1 s) := by
  induction x0 generalizing s x1 with
  | zero => exact h
  | succ f ih =>
  unfold cmpGo
  repeat' first
    | split
    | with_reducible assumption
    | exact Within.of hT rfl
    | with_reducible apply ih
    | with_reducible apply State.cmpStep_kept

theorem State.cmpTo_kept {T : Nat} {r s : State} {x1 : ℕ} {x2 : ℕ} (h : Kept T r s) (hT : Within 524290 T) : Kept T r (State.cmpTo s x1 x2) := by
  unfold State.cmpTo
  repeat' first
    | with_reducible apply Kept.ite
    | with_reducible assumption
    | exact Within.of hT rfl
    | with_reducible apply cmpGo_kept

theorem State.setRecipe_kept {T : Nat} {r s : State} {x1 : ℕ} {x2 : Recipe} (h : Kept T r s) (hT : Within 524288 T) : Kept T r (State.setRecipe s x1 x2) := by
  unfold State.setRecipe
  repeat' first
    | with_reducible apply Kept.ite
    | with_reducible assumption
    | exact Within.of hT rfl
    | (fail_if_no_progress with_reducible refine Kept.mk' ?_ rfl rfl)

theorem State.modRec_kept {T : Nat} {r s : State} {x1 : ℕ} {x2 : LftRec → LftRec} (h : Kept T r s) (hT : Within 524288 T) : Kept T r (State.modRec s x1 x2) := by
  unfold State.modRec
  repeat' first
    | with_reducible apply Kept.ite
    | with_reducible assumption
    | exact Within.of hT rfl
    | (fail_if_no_progress with_reducible refine Kept.mk' ?_ rfl rfl)

theorem State.showRecipe_kept {T : Nat} {r s : State} {x1 : ℕ} (h : Kept T r s) (hT : Within 2 T) : Kept T r (State.showRecipe s x1) := by
  unfold State.showRecipe
  repeat' first
    | with_reducible assumption
    | exact Within.of hT rfl
    | with_reducible apply State.set_kept

theorem State.setHist_kept {T : Nat} {r s : State} {x1 : ℕ} {x2 : HistSt} (h : Kept T r s) (hT : Within 524288 T) : Kept T r (State.setHist s x1 x2) := by
  unfold State.setHist
  repeat' first
    | with_reducible apply Kept.ite
    | with_reducible assumption
    | exact Within.of hT rfl
    | (fail_if_no_progress with_reducible refine Kept.mk' ?_ rfl rfl)

theorem State.histZero_kept {T : Nat} {r s : State} {x1 : ℕ} (h : Kept T r s) (hT : Within 524290 T) : Kept T r (State.histZero s x1) := by
  unfold State.histZero
  repeat' first
    | with_reducible assumption
    | exact Within.of hT rfl
    | with_reducible apply State.set_kept
    | with_reducible apply State.setHist_kept

theorem State.histAdd_kept {T : Nat} {r s : State} {x1 : ℕ} {x2 : ℤ} (h : Kept T r s) (hT : Within 524290 T) : Kept T r (State.histAdd s x1 x2) := by
  unfold State.histAdd
  repeat' first
    | with_reducible apply Kept.ite
    | with_reducible assumption
    | exact Within.of hT rfl
    | with_reducible apply State.bump_kept
    | with_reducible apply State.setHist_kept

theorem State.histAttach_kept {T : Nat} {r s : State} {x1 : ℕ} {x2 : ℕ} (h : Kept T r s) (hT : Within 524288 T) : Kept T r (State.histAttach s x1 x2) := by
  unfold State.histAttach
  repeat' first
    | with_reducible apply Kept.ite
    | with_reducible assumption
    | exact Within.of hT rfl
    | with_reducible apply State.modRec_kept
    | (fail_if_no_progress with_reducible refine Kept.mk' ?_ rfl rfl)
    | (with_reducible apply Kept.foldl; on_goal 2 => (intro _ _ _; beta_reduce))
    | (with_reducible apply Kept.foldlSnd; on_goal 2 => (intro _ _ _; beta_reduce))
    | split

theorem State.histStep_kept {T : Nat} {r s : State} {x1 : ℕ} {x2 : ℕ} {x3 : Option ℤ} (h : Kept T r s) (hT : Within 524290 T) : Kept T r (State.histStep s x1 x2 x3) := by
  unfold State.histStep
  repeat' first
    | with_reducible apply Kept.ite
    | with_reducible assumption
    | exact Within.of hT rfl
    | with_reducible apply State.histZero_kept
    | with_reducible apply State.histAdd_kept
    | with_reducible apply State.histAttach_kept
    | with_reducible apply State.setHist_kept
    | (fail_if_no_progress with_reducible refine Kept.mk' ?_ rfl rfl)
    | split

theorem histGo_kept {T : Nat} {r s : State} {x0 : ℕ} {x1 : ℕ} (h : Kept T r s) (hT : Within 524290 T) : Kept T r (histGo x0 x1 s) := by
  induction x0 generalizing s x1 with
  | zero => exact h
  | succ f ih =>
  unfold histGo
  repeat' first
    | split
    | with_reducible assumption
    | exact Within.of hT rfl
    | with_reducible apply ih
    | with_reducible apply State.histStep_kept

theorem State.histsTo_kept {T : Nat} {r s : State}  (h : Kept T r s) (hT : Within 524290 T) : Kept T r (State.histsTo s) := by
  unfold State.histsTo
  repeat' first
    | with_reducible apply Kept.ite
    | with_reducible assumption
    | exact Within.of hT rfl
    | with_reducible apply histGo_kept
    | (fail_if_no_progress with_reducible refine Kept.mk' ?_ rfl rfl)
    | (with_reducible apply Kept.foldl; on_goal 2 => (intro _ _ _; beta_reduce))
    | (with_reducible apply Kept.foldlSnd; on_goal 2 => (intro _ _ _; beta_reduce))
    | split

theorem State.lineSources_kept {T : Nat} {r s : State} {x1 : ℕ} (h : Kept T r s) (hT : Within 524802 T) : Kept T r (State.lineSources s x1) := by
  unfold State.lineSources
  repeat' first
    | with_reducible apply Kept.ite
    | with_reducible assumption
    | exact Within.of hT rfl
    | with_reducible apply State.cmpTo_kept
    | with_reducible apply State.lftSourceTo_kept
    | (fail_if_no_progress with_reducible refine Kept.mk' ?_ rfl rfl)
    | (with_reducible apply Kept.foldl; on_goal 2 => (intro _ _ _; beta_reduce))
    | (with_reducible apply Kept.foldlSnd; on_goal 2 => (intro _ _ _; beta_reduce))
    | split

theorem State.pushJournal_kept {T : Nat} {r s : State} {x1 : JEntry} (h : Kept T r s) (hT : Within 17303563 T := by
    first | exact Within.refl _ | (refine Within.of (b := ?zb) ?zw ?ze; (case zw => assumption); (case ze => decide))) : Kept T r (State.pushJournal s x1) := by
  unfold State.pushJournal
  repeat' first
    | with_reducible apply Kept.ite
    | with_reducible assumption
    | exact Within.of hT rfl
    | with_reducible apply State.companion_kept
    | with_reducible apply State.raise_kept
    | (fail_if_no_progress with_reducible refine Kept.mk' ?_ rfl rfl)

theorem State.journal_kept {T : Nat} {r s : State} {x1 : ℕ} (h : Kept T r s) (hT : Within 17303563 T) : Kept T r (State.journal s x1) := by
  unfold State.journal
  repeat' first
    | with_reducible apply Kept.ite
    | with_reducible assumption
    | exact Within.of hT rfl
    | with_reducible apply State.pushJournal_kept
    | (fail_if_no_progress with_reducible refine Kept.mk' ?_ rfl rfl)

theorem journalGo_kept {T : Nat} {r s : State} {x0 : ℕ} (h : Kept T r s) (hT : Within 17304075 T := by
    first | exact Within.refl _ | (refine Within.of (b := ?zb) ?zw ?ze; (case zw => assumption); (case ze => decide))) : Kept T r (journalGo x0 s) := by
  induction x0 generalizing s  with
  | zero => exact h
  | succ f ih =>
  unfold journalGo
  repeat' first
    | with_reducible apply Kept.ite
    | split
    | with_reducible assumption
    | exact Within.of hT rfl
    | with_reducible apply ih
    | with_reducible apply State.lineSources_kept
    | with_reducible apply State.journal_kept
    | (fail_if_no_progress with_reducible refine Kept.mk' ?_ rfl rfl)

theorem State.journalTo_kept {T : Nat} {r s : State}  (h : Kept T r s) (hT : Within 17304075 T := by
    first | exact Within.refl _ | (refine Within.of (b := ?zb) ?zw ?ze; (case zw => assumption); (case ze => decide))) : Kept T r (State.journalTo s) := by
  unfold State.journalTo
  repeat' first
    | with_reducible apply Kept.ite
    | with_reducible assumption
    | exact Within.of hT rfl
    | with_reducible apply journalGo_kept
    | (fail_if_no_progress with_reducible refine Kept.mk' ?_ rfl rfl)

theorem execRingLineWrite_kept {T : Nat} {r s : State}  (h : Kept T r s) (hT : Within 17304075 T := by
    first | exact Within.refl _ | (refine Within.of (b := ?zb) ?zw ?ze; (case zw => assumption); (case ze => decide))) : KeptO T r (execRingLineWrite s) := by
  unfold execRingLineWrite
  repeat' first
    | with_reducible apply KeptO.ite
    | with_reducible apply Kept.ite
    | with_reducible assumption
    | exact Within.of hT rfl
    | with_reducible apply KeptO.next
    | with_reducible apply State.storeBytes_kept
    | with_reducible apply State.journalTo_kept
    | with_reducible apply State.histsTo_kept
    | with_reducible apply State.set64_kept
    | (fail_if_no_progress with_reducible refine Kept.mk' ?_ rfl rfl)

theorem execSlowRingLine_kept {T : Nat} {r s : State}  (h : Kept T r s) (hT : Within 526337 T := by
    first | exact Within.refl _ | (refine Within.of (b := ?zb) ?zw ?ze; (case zw => assumption); (case ze => decide))) : KeptO T r (execSlowRingLine s) := by
  unfold execSlowRingLine
  repeat' first
    | with_reducible apply KeptO.ite
    | with_reducible apply Kept.ite
    | with_reducible assumption
    | exact Within.of hT rfl
    | with_reducible apply KeptO.next
    | with_reducible apply State.companion_kept
    | (fail_if_no_progress with_reducible refine Kept.mk' ?_ rfl rfl)

theorem execGridValueCompute_kept {T : Nat} {r s : State} {x0 : Fin 256} (h : Kept T r s) (hT : Within 17303691 T) : KeptO T r (execGridValueCompute x0 s) := by
  unfold execGridValueCompute
  repeat' first
    | with_reducible apply KeptO.ite
    | with_reducible apply Kept.ite
    | with_reducible assumption
    | exact Within.of hT rfl
    | with_reducible apply KeptO.next
    | (with_reducible apply State.gridCompute_some; on_goal 2 => assumption)
    | with_reducible apply State.gridCompute_kept
    | with_reducible apply State.captureGrid_kept
    | (fail_if_no_progress with_reducible refine Kept.mk' ?_ rfl rfl)
    | split

/-! ## Machine/LftRec.lean -/

theorem State.arcRegs_kept {T : Nat} {r s : State}  (h : Kept T r s) (hT : Within 2 T := by
    first | exact Within.refl _ | (refine Within.of (b := ?zb) ?zw ?ze; (case zw => assumption); (case ze => decide))) : Kept T r (State.arcRegs s) := by
  unfold State.arcRegs
  repeat' first
    | with_reducible assumption
    | exact Within.of hT rfl
    | with_reducible apply State.set_kept

theorem freeGo_kept {T : Nat} {r s : State} {x0 : ℕ} {x1 : ℕ} (h : Kept T r s) (hT : Within 524288 T) : Kept T r (freeGo x0 x1 s) := by
  induction x0 generalizing s x1 with
  | zero => exact h
  | succ f ih =>
  unfold freeGo
  repeat' first
    | with_reducible apply Kept.ite
    | split
    | with_reducible assumption
    | exact Within.of hT rfl
    | with_reducible apply ih
    | (fail_if_no_progress with_reducible refine Kept.mk' ?_ rfl rfl)

theorem State.reserve_kept {T : Nat} {r s : State} {x1 : ℕ} {x2 : ℕ} (h : Kept T r s) (hT : Within 524290 T) : Kept T r (State.reserve s x1 x2) := by
  unfold State.reserve
  repeat' first
    | with_reducible assumption
    | exact Within.of hT rfl
    | with_reducible apply freeGo_kept
    | with_reducible apply State.arcRegs_kept
    | with_reducible apply State.modRec_kept

theorem State.arcWrite_kept {T : Nat} {r s : State} {x1 : ℕ} (h : Kept T r s) (hT : Within 17301514 T) : Kept T r (State.arcWrite s x1) := by
  unfold State.arcWrite
  repeat' first
    | with_reducible apply Kept.ite
    | with_reducible assumption
    | exact Within.of hT rfl
    | with_reducible apply State.set64_kept
    | with_reducible apply State.set_kept
    | with_reducible apply State.raise_kept
    | (fail_if_no_progress with_reducible refine Kept.mk' ?_ rfl rfl)

theorem State.lftIdent_kept {T : Nat} {r s : State}  (h : Kept T r s) (hT : Within 524288 T := by
    first | exact Within.refl _ | (refine Within.of (b := ?zb) ?zw ?ze; (case zw => assumption); (case ze => decide))) : Kept T r (State.lftIdent s) := by
  unfold State.lftIdent
  repeat' first
    | with_reducible apply Kept.ite
    | with_reducible assumption
    | exact Within.of hT rfl
    | (fail_if_no_progress with_reducible refine Kept.mk' ?_ rfl rfl)

theorem State.openRecord_kept {T : Nat} {r s : State} {x1 : ℕ} {x2 : ℕ} {x3 : ℕ} {x4 : Bool} (h : Kept T r s) (hT : Within 17301514 T) : Kept T r (State.openRecord s x1 x2 x3 x4) := by
  unfold State.openRecord
  repeat' first
    | with_reducible apply Kept.ite
    | with_reducible assumption
    | exact Within.of hT rfl
    | with_reducible apply State.setRecipe_kept
    | with_reducible apply State.dmaShow_kept
    | with_reducible apply State.reserve_kept
    | with_reducible apply State.set_kept
    | with_reducible apply State.bump_kept
    | (fail_if_no_progress with_reducible refine Kept.mk' ?_ rfl rfl)

theorem State.retrigger_kept {T : Nat} {r s : State} {x1 : ℕ} {x2 : ℕ} {x3 : Bool} {x4 : LftRec} (h : Kept T r s) (hT : Within 524290 T := by
    first | exact Within.refl _ | (refine Within.of (b := ?zb) ?zw ?ze; (case zw => assumption); (case ze => decide))) : Kept T r (State.retrigger s x1 x2 x3 x4) := by
  unfold State.retrigger
  repeat' first
    | with_reducible apply Kept.ite
    | with_reducible assumption
    | exact Within.of hT rfl
    | with_reducible apply State.reserve_kept
    | with_reducible apply State.modRec_kept
    | (fail_if_no_progress with_reducible refine Kept.mk' ?_ rfl rfl)

theorem State.recipeTrigger_kept {T : Nat} {r s : State} {x1 : ℕ} {x2 : ℕ} {x3 : ℕ} {x4 : Bool} (h : Kept T r s) (hT : Within 17301514 T := by
    first | exact Within.refl _ | (refine Within.of (b := ?zb) ?zw ?ze; (case zw => assumption); (case ze => decide))) : Kept T r (State.recipeTrigger s x1 x2 x3 x4) := by
  unfold State.recipeTrigger
  repeat' first
    | with_reducible apply Kept.ite
    | with_reducible assumption
    | exact Within.of hT rfl
    | with_reducible apply State.retrigger_kept
    | with_reducible apply State.openRecord_kept
    | with_reducible apply State.setRecipe_kept
    | with_reducible apply State.showRecipe_kept
    | with_reducible apply State.raise_kept
    | with_reducible apply State.set64_kept
    | (fail_if_no_progress with_reducible refine Kept.mk' ?_ rfl rfl)
    | split

theorem State.addGap_kept {T : Nat} {r s : State} {x1 : ℕ} {x2 : ℕ} {x3 : Gap} (h : Kept T r s) (hT : Within 17301514 T := by
    first | exact Within.refl _ | (refine Within.of (b := ?zb) ?zw ?ze; (case zw => assumption); (case ze => decide))) : Kept T r (State.addGap s x1 x2 x3) := by
  unfold State.addGap
  repeat' first
    | with_reducible apply Kept.ite
    | with_reducible assumption
    | exact Within.of hT rfl
    | with_reducible apply State.raise_kept
    | with_reducible apply State.arcWrite_kept
    | with_reducible apply State.modRec_kept
    | with_reducible apply State.bump_kept
    | (fail_if_no_progress with_reducible refine Kept.mk' ?_ rfl rfl)

theorem State.skipTo_kept {T : Nat} {r s : State} {x1 : ℕ} {x2 : ℕ} {x3 : ℕ} {x4 : LftRec} (h : Kept T r s) (hT : Within 17301514 T) : Kept T r (State.skipTo s x1 x2 x3 x4) := by
  unfold State.skipTo
  repeat' first
    | with_reducible assumption
    | exact Within.of hT rfl
    | with_reducible apply State.setRecipe_kept
    | with_reducible apply State.addGap_kept

theorem execGapSkip_kept {T : Nat} {r s : State} {x0 : Fin 8} (h : Kept T r s) (hT : Within 17301514 T) : KeptO T r (execGapSkip x0 s) := by
  unfold execGapSkip
  repeat' first
    | with_reducible apply KeptO.ite
    | with_reducible apply Kept.ite
    | with_reducible assumption
    | exact Within.of hT rfl
    | with_reducible apply KeptO.next
    | with_reducible apply State.showRecipe_kept
    | with_reducible apply State.skipTo_kept
    | (fail_if_no_progress with_reducible refine Kept.mk' ?_ rfl rfl)
    | split

theorem State.extractLine_kept {T : Nat} {r s : State} {x1 : ℕ} {x2 : LftRec} (h : Kept T r s) (hT : Within 17301514 T) : Kept T r (State.extractLine s x1 x2) := by
  unfold State.extractLine
  repeat' first
    | with_reducible apply Kept.ite
    | with_reducible assumption
    | exact Within.of hT rfl
    | with_reducible apply State.setRecipe_kept
    | with_reducible apply State.modRec_kept
    | with_reducible apply State.addGap_kept
    | with_reducible apply State.arcWrite_kept
    | (fail_if_no_progress with_reducible refine Kept.mk' ?_ rfl rfl)
    | (with_reducible apply Kept.foldl; on_goal 2 => (intro _ _ _; beta_reduce))
    | (with_reducible apply Kept.foldlSnd; on_goal 2 => (intro _ _ _; beta_reduce))
    | split

theorem State.outOfRoom_kept {T : Nat} {r s : State} {x1 : ℕ} {x2 : LftRec} (h : Kept T r s) (hT : Within 17301514 T) : Kept T r (State.outOfRoom s x1 x2) := by
  unfold State.outOfRoom
  repeat' first
    | with_reducible assumption
    | exact Within.of hT rfl
    | with_reducible apply State.raise_kept
    | with_reducible apply State.setRecipe_kept
    | with_reducible apply State.addGap_kept

theorem State.extractNext_kept {T : Nat} {r s : State} {x1 : ℕ} {x2 : LftRec} (h : Kept T r s) (hT : Within 17301514 T) : Kept T r (State.extractNext s x1 x2) := by
  unfold State.extractNext
  repeat' first
    | with_reducible apply Kept.ite
    | with_reducible assumption
    | exact Within.of hT rfl
    | with_reducible apply State.skipTo_kept
    | with_reducible apply State.reserve_kept
    | with_reducible apply State.outOfRoom_kept
    | with_reducible apply State.extractLine_kept

theorem extractGo_kept {T : Nat} {r s : State} {x0 : ℕ} {x1 : ℕ} (h : Kept T r s) (hT : Within 17301514 T) : Kept T r (extractGo x0 x1 s) := by
  induction x0 generalizing s x1 with
  | zero => exact h
  | succ f ih =>
  unfold extractGo
  repeat' first
    | with_reducible apply Kept.ite
    | split
    | with_reducible assumption
    | exact Within.of hT rfl
    | with_reducible apply ih
    | with_reducible apply State.extractNext_kept
    | with_reducible apply State.setRecipe_kept

theorem State.extractShare_kept {T : Nat} {r s : State} {x1 : ℕ} {x2 : ℕ} (h : Kept T r s) (hT : Within 17301514 T := by
    first | exact Within.refl _ | (refine Within.of (b := ?zb) ?zw ?ze; (case zw => assumption); (case ze => decide))) : Kept T r (State.extractShare s x1 x2).2 := by
  unfold State.extractShare
  repeat' first
    | with_reducible apply Kept.ite2
    | with_reducible apply Kept.ite
    | with_reducible assumption
    | exact Within.of hT rfl
    | with_reducible apply extractGo_kept
    | with_reducible apply State.setRecipe_kept
    | with_reducible apply State.showRecipe_kept
    | (fail_if_no_progress with_reducible refine Kept.mk' ?_ rfl rfl)

theorem extractRounds_kept {T : Nat} {r s : State} {x0 : ℕ} {x1 : ℕ} (h : Kept T r s) (hT : Within 17301514 T := by
    first | exact Within.refl _ | (refine Within.of (b := ?zb) ?zw ?ze; (case zw => assumption); (case ze => decide))) : Kept T r (extractRounds x0 x1 s) := by
  induction x0 generalizing s x1 with
  | zero => exact h
  | succ f ih =>
  unfold extractRounds
  repeat' first
    | with_reducible apply Kept.ite
    | split
    | with_reducible assumption
    | exact Within.of hT rfl
    | with_reducible apply ih
    | with_reducible apply State.extractShare_kept
    | (fail_if_no_progress with_reducible refine Kept.mk' ?_ rfl rfl)
    | (with_reducible apply Kept.foldl; on_goal 2 => (intro _ _ _; beta_reduce))
    | (with_reducible apply Kept.foldlSnd; on_goal 2 => (intro _ _ _; beta_reduce))
    | split

theorem State.lftExtract_kept {T : Nat} {r s : State}  (h : Kept T r s) (hT : Within 17301514 T := by
    first | exact Within.refl _ | (refine Within.of (b := ?zb) ?zw ?ze; (case zw => assumption); (case ze => decide))) : Kept T r (State.lftExtract s) := by
  unfold State.lftExtract
  repeat' first
    | with_reducible apply Kept.ite
    | with_reducible assumption
    | exact Within.of hT rfl
    | with_reducible apply extractRounds_kept
    | (fail_if_no_progress with_reducible refine Kept.mk' ?_ rfl rfl)

theorem State.finishRec_kept {T : Nat} {r s : State} {x1 : ℕ} {x2 : ℕ} {x3 : ℕ} {x4 : ℕ} (h : Kept T r s) (hT : Within 17301514 T) : Kept T r (State.finishRec s x1 x2 x3 x4) := by
  unfold State.finishRec
  repeat' first
    | with_reducible assumption
    | exact Within.of hT rfl
    | with_reducible apply State.modRec_kept
    | with_reducible apply State.arcRegs_kept
    | with_reducible apply State.arcWrite_kept

theorem State.dmaZero_kept {T : Nat} {r s : State}  (h : Kept T r s) (hT : Within 16777226 T) : Kept T r (State.dmaZero s) := by
  unfold State.dmaZero
  repeat' first
    | with_reducible apply Kept.ite
    | with_reducible assumption
    | exact Within.of hT rfl
    | with_reducible apply State.dmaShow_kept

theorem State.restartSentence_kept {T : Nat} {r s : State} {x1 : ℕ} {x2 : ℕ} (h : Kept T r s) (hT : Within 524290 T) : Kept T r (State.restartSentence s x1 x2) := by
  unfold State.restartSentence
  repeat' first
    | with_reducible assumption
    | exact Within.of hT rfl
    | with_reducible apply State.showRecipe_kept
    | with_reducible apply State.setRecipe_kept

theorem execRecordClose_kept {T : Nat} {r s : State} {x0 : Fin 8} (h : Kept T r s) (hT : Within 17301514 T) : KeptO T r (execRecordClose x0 s) := by
  unfold execRecordClose
  repeat' first
    | with_reducible apply KeptO.ite
    | with_reducible apply Kept.ite
    | with_reducible assumption
    | exact Within.of hT rfl
    | with_reducible apply KeptO.next
    | with_reducible apply State.setRecipe_kept
    | with_reducible apply State.finishRec_kept
    | with_reducible apply State.set64_kept
    | with_reducible apply State.showRecipe_kept
    | with_reducible apply State.restartSentence_kept
    | with_reducible apply State.raise_kept
    | with_reducible apply State.dmaZero_kept
    | (fail_if_no_progress with_reducible refine Kept.mk' ?_ rfl rfl)
    | split

theorem State.cutOpen_kept {T : Nat} {r s : State}  (h : Kept T r s) (hT : Within 524288 T := by
    first | exact Within.refl _ | (refine Within.of (b := ?zb) ?zw ?ze; (case zw => assumption); (case ze => decide))) : Kept T r (State.cutOpen s) := by
  unfold State.cutOpen
  repeat' first
    | with_reducible apply Kept.ite
    | with_reducible assumption
    | exact Within.of hT rfl
    | with_reducible apply State.setRecipe_kept
    | with_reducible apply State.modRec_kept
    | (fail_if_no_progress with_reducible refine Kept.mk' ?_ rfl rfl)
    | (with_reducible apply Kept.foldl; on_goal 2 => (intro _ _ _; beta_reduce))
    | (with_reducible apply Kept.foldlSnd; on_goal 2 => (intro _ _ _; beta_reduce))
    | split

theorem State.closeCut_kept {T : Nat} {r s : State} {x1 : LftRec} (h : Kept T r s) (hT : Within 17301514 T) : Kept T r (State.closeCut s x1) := by
  unfold State.closeCut
  repeat' first
    | with_reducible apply Kept.ite
    | with_reducible assumption
    | exact Within.of hT rfl
    | with_reducible apply State.addGap_kept
    | with_reducible apply State.raise_kept
    | with_reducible apply State.finishRec_kept

theorem State.closeCuts_kept {T : Nat} {r s : State}  (h : Kept T r s) (hT : Within 17301514 T) : Kept T r (State.closeCuts s) := by
  unfold State.closeCuts
  repeat' first
    | with_reducible apply Kept.ite
    | with_reducible assumption
    | exact Within.of hT rfl
    | with_reducible apply State.closeCut_kept
    | (fail_if_no_progress with_reducible refine Kept.mk' ?_ rfl rfl)
    | (with_reducible apply Kept.foldl; on_goal 2 => (intro _ _ _; beta_reduce))
    | (with_reducible apply Kept.foldlSnd; on_goal 2 => (intro _ _ _; beta_reduce))
    | split

theorem State.lftStop_kept {T : Nat} {r s : State}  (h : Kept T r s) (hT : Within 17301514 T) : Kept T r (State.lftStop s) := by
  unfold State.lftStop
  have h' : Kept T r s.cutOpen := State.cutOpen_kept h (.of hT (by decide))
  generalize s.cutOpen = u at h'
  repeat' first
    | with_reducible apply Kept.ite
    | with_reducible assumption
    | exact Within.of hT rfl
    | with_reducible apply State.cutOpen_kept
    | with_reducible apply State.showRecipe_kept
    | with_reducible apply State.dmaShow_kept
    | with_reducible apply State.set_kept
    | (fail_if_no_progress with_reducible refine Kept.mk' ?_ rfl rfl)
    | (with_reducible apply Kept.foldl; on_goal 2 => (intro _ _ _; beta_reduce))
    | (with_reducible apply Kept.foldlSnd; on_goal 2 => (intro _ _ _; beta_reduce))
    | split

theorem State.lftStart_kept {T : Nat} {r s : State}  (h : Kept T r s) (hT : Within 17301514 T) : Kept T r (State.lftStart s) := by
  unfold State.lftStart
  repeat' first
    | with_reducible apply Kept.ite
    | with_reducible assumption
    | exact Within.of hT rfl
    | with_reducible apply State.closeCuts_kept
    | with_reducible apply State.set64_kept
    | with_reducible apply State.set_kept
    | with_reducible apply State.setCmp_kept
    | with_reducible apply State.setHist_kept
    | with_reducible apply State.restartSentence_kept
    | (fail_if_no_progress with_reducible refine Kept.mk' ?_ rfl rfl)
    | (with_reducible apply Kept.foldl; on_goal 2 => (intro _ _ _; beta_reduce))
    | (with_reducible apply Kept.foldlSnd; on_goal 2 => (intro _ _ _; beta_reduce))
    | split

theorem State.extractKept_kept {T : Nat} {r s : State}  (h : Kept T r s) (hT : Within 17301514 T := by
    first | exact Within.refl _ | (refine Within.of (b := ?zb) ?zw ?ze; (case zw => assumption); (case ze => decide))) : Kept T r (State.extractKept s) := by
  unfold State.extractKept
  repeat' first
    | with_reducible apply Kept.ite
    | with_reducible assumption
    | exact Within.of hT rfl
    | with_reducible apply extractGo_kept
    | with_reducible apply State.setRecipe_kept
    | (fail_if_no_progress with_reducible refine Kept.mk' ?_ rfl rfl)
    | (with_reducible apply Kept.foldl; on_goal 2 => (intro _ _ _; beta_reduce))
    | (with_reducible apply Kept.foldlSnd; on_goal 2 => (intro _ _ _; beta_reduce))
    | split

theorem execScapArchived_kept {T : Nat} {r s : State}  (h : Kept T r s) (hT : Within 17302026 T) : KeptO T r (execScapArchived s) := by
  unfold execScapArchived
  repeat' first
    | with_reducible apply KeptO.ite
    | with_reducible apply Kept.ite
    | with_reducible assumption
    | exact Within.of hT rfl
    | with_reducible apply KeptO.next
    | with_reducible apply State.dmaShow_kept
    | with_reducible apply State.finishRec_kept
    | with_reducible apply State.reserve_kept
    | with_reducible apply State.scapRearm_kept
    | with_reducible apply State.raise_kept
    | (fail_if_no_progress with_reducible refine Kept.mk' ?_ rfl rfl)

/-! ## Machine/LftCtl.lean -/

theorem State.sentenceStep_kept {T : Nat} {r s : State} {x1 : ℕ} (h : Kept T r s) (hT : Within 17301514 T) : Kept T r (State.sentenceStep s x1) := by
  unfold State.sentenceStep
  repeat' first
    | with_reducible apply Kept.ite
    | with_reducible assumption
    | exact Within.of hT rfl
    | with_reducible apply State.setRecipe_kept
    | with_reducible apply State.recipeTrigger_kept
    | with_reducible apply State.showRecipe_kept
    | (fail_if_no_progress with_reducible refine Kept.mk' ?_ rfl rfl)
    | (extract_lets +onlyGivenNames x; first | (with_reducible apply Kept.cut (T := T) (r := r) (x := x); on_goal 2 => (intro hx; clear_value x)) | clear_value x)
    | split

theorem State.sentenceReady_kept {T : Nat} {r s : State} {x1 : ℕ} (h : Kept T r s) (hT : Within 524802 T) : Kept T r (State.sentenceReady s x1).2 := by
  unfold State.sentenceReady
  repeat' first
    | with_reducible apply Kept.ite2
    | with_reducible apply Kept.ite
    | with_reducible assumption
    | exact Within.of hT rfl
    | with_reducible apply State.cmpTo_kept
    | with_reducible apply State.lftSourceTo_kept
    | (fail_if_no_progress with_reducible refine Kept.mk' ?_ rfl rfl)
    | (with_reducible apply Kept.foldl; on_goal 2 => (intro _ _ _; beta_reduce))
    | (with_reducible apply Kept.foldlSnd; on_goal 2 => (intro _ _ _; beta_reduce))
    | split

theorem execSentenceStep_kept {T : Nat} {r s : State} {x0 : Fin 8} (h : Kept T r s) (hT : Within 17302026 T) : KeptO T r (execSentenceStep x0 s) := by
  unfold execSentenceStep
  repeat' first
    | with_reducible apply KeptO.ite
    | with_reducible apply Kept.ite
    | with_reducible assumption
    | exact Within.of hT rfl
    | with_reducible apply KeptO.next
    | with_reducible apply State.sentenceReady_kept
    | with_reducible apply State.histsTo_kept
    | with_reducible apply State.sentenceStep_kept

theorem execClauseTimeout_kept {T : Nat} {r s : State} {x0 : Fin 8} (h : Kept T r s) (hT : Within 17302026 T) : KeptO T r (execClauseTimeout x0 s) := by
  unfold execClauseTimeout
  repeat' first
    | with_reducible apply KeptO.ite
    | with_reducible apply Kept.ite
    | with_reducible assumption
    | exact Within.of hT rfl
    | with_reducible apply KeptO.next
    | with_reducible apply State.sentenceReady_kept
    | with_reducible apply State.histsTo_kept
    | with_reducible apply State.sentenceStep_kept

theorem execLftTrig_kept {T : Nat} {r s : State} {x0 : Fin 2} {x1 : Word} (h : Kept T r s) (hT : Within 17301534 T) : KeptO T r (execLftTrig x0 x1 s) := by
  unfold execLftTrig
  repeat' first
    | with_reducible apply KeptO.ite
    | with_reducible apply Kept.ite
    | with_reducible assumption
    | exact Within.of hT rfl
    | with_reducible apply KeptO.next
    | (with_reducible apply whenAllowed_kept; on_goal 2 => (intro _ _; beta_reduce))
    | with_reducible apply State.gate_kept
    | with_reducible apply State.setRecipe_kept
    | (fail_if_no_progress with_reducible refine Kept.mk' ?_ rfl rfl)
    | (with_reducible apply Kept.foldl; on_goal 2 => (intro _ _ _; beta_reduce))
    | (with_reducible apply Kept.foldlSnd; on_goal 2 => (intro _ _ _; beta_reduce))
    | split

theorem execHistClear_kept {T : Nat} {r s : State} {x0 : Fin 2} {x1 : Fin 16} {x2 : Word} (h : Kept T r s) (hT : Within 17301534 T) : KeptO T r (execHistClear x0 x1 x2 s) := by
  unfold execHistClear
  repeat' first
    | with_reducible apply KeptO.ite
    | with_reducible apply Kept.ite
    | with_reducible assumption
    | exact Within.of hT rfl
    | with_reducible apply KeptO.next
    | (with_reducible apply whenAllowed_kept; on_goal 2 => (intro _ _; beta_reduce))
    | with_reducible apply State.gate_kept
    | with_reducible apply State.setHist_kept
    | with_reducible apply State.histZero_kept

theorem State.recResult_kept {T : Nat} {r s : State} {x1 : ℕ} (h : Kept T r s) (hT : Within 2 T := by
    first | exact Within.refl _ | (refine Within.of (b := ?zb) ?zw ?ze; (case zw => assumption); (case ze => decide))) : Kept T r (State.recResult s x1) := by
  unfold State.recResult
  repeat' first
    | with_reducible assumption
    | exact Within.of hT rfl
    | with_reducible apply State.set_kept

theorem State.onRecord_kept {T : Nat} {r s : State} {f : State → LftRec → State} (h : Kept T r s)
    (hf : ∀ u d, Kept T r u → Kept T r (f u d)) (hT : Within 2 T := by
    first | exact Within.refl _ | (refine Within.of (b := ?zb) ?zw ?ze; (case zw => assumption); (case ze => decide))) : Kept T r (s.onRecord f) := by
  unfold State.onRecord
  split
  · exact hf _ _ h
  · exact State.recResult_kept h

theorem execRecLoad_kept {T : Nat} {r s : State} {x0 : Fin 2} {x1 : Word} (h : Kept T r s) (hT : Within 16777246 T) : KeptO T r (execRecLoad x0 x1 s) := by
  unfold execRecLoad
  repeat' first
    | with_reducible apply KeptO.ite
    | with_reducible apply Kept.ite
    | with_reducible assumption
    | exact Within.of hT rfl
    | with_reducible apply KeptO.next
    | (with_reducible apply whenAllowed_kept; on_goal 2 => (intro _ _; beta_reduce))
    | with_reducible apply State.gate_kept
    | (with_reducible apply State.onRecord_kept; on_goal 2 => (intro _ _ _; beta_reduce))
    | with_reducible apply State.recResult_kept
    | with_reducible apply State.wr_kept
    | (fail_if_no_progress with_reducible refine Kept.mk' ?_ rfl rfl)
    | (with_reducible apply Kept.foldl; on_goal 2 => (intro _ _ _; beta_reduce))
    | (with_reducible apply Kept.foldlSnd; on_goal 2 => (intro _ _ _; beta_reduce))
    | split

theorem State.recKick_kept {T : Nat} {r s : State} {p b : Nat} {w : Word} {f : State → LftRec → State} (h : Kept T r s)
    (hf : ∀ u d, Kept T r u → Kept T r (f u d)) (hT : Within 16777246 T) : Kept T r (s.recKick p b w f) := by
  unfold State.recKick
  exact whenAllowed_kept (State.gate_kept h) (fun u hu => .ite (State.onRecord_kept hu hf) hu)

theorem execRecProtect_kept {T : Nat} {r s : State} {x0 : Fin 2} {x1 : Word} (h : Kept T r s) (hT : Within 17301534 T) : KeptO T r (execRecProtect x0 x1 s) := by
  unfold execRecProtect
  repeat' first
    | with_reducible apply KeptO.ite
    | with_reducible apply Kept.ite
    | with_reducible assumption
    | exact Within.of hT rfl
    | with_reducible apply KeptO.next
    | (with_reducible apply State.recKick_kept; on_goal 2 => (intro _ _ _; beta_reduce))
    | with_reducible apply State.recResult_kept
    | with_reducible apply State.arcRegs_kept
    | with_reducible apply State.modRec_kept

theorem execRecUnprotect_kept {T : Nat} {r s : State} {x0 : Fin 2} {x1 : Word} (h : Kept T r s) (hT : Within 17301534 T) : KeptO T r (execRecUnprotect x0 x1 s) := by
  unfold execRecUnprotect
  repeat' first
    | with_reducible assumption
    | exact Within.of hT rfl
    | with_reducible apply KeptO.next
    | (with_reducible apply State.recKick_kept; on_goal 2 => (intro _ _ _; beta_reduce))
    | with_reducible apply State.recResult_kept
    | with_reducible apply State.arcRegs_kept
    | with_reducible apply State.modRec_kept

theorem execRecDelete_kept {T : Nat} {r s : State} {x0 : Fin 2} {x1 : Word} (h : Kept T r s) (hT : Within 17301534 T) : KeptO T r (execRecDelete x0 x1 s) := by
  unfold execRecDelete
  repeat' first
    | with_reducible apply KeptO.ite
    | with_reducible apply Kept.ite
    | with_reducible assumption
    | exact Within.of hT rfl
    | with_reducible apply KeptO.next
    | (with_reducible apply State.recKick_kept; on_goal 2 => (intro _ _ _; beta_reduce))
    | with_reducible apply State.recResult_kept
    | with_reducible apply State.arcRegs_kept
    | (fail_if_no_progress with_reducible refine Kept.mk' ?_ rfl rfl)

theorem State.exportEnd_kept {T : Nat} {r s : State} {x1 : ℕ} {x2 : ℕ} (h : Kept T r s) (hT : Within 17301514 T) : Kept T r (State.exportEnd s x1 x2) := by
  unfold State.exportEnd
  repeat' first
    | with_reducible apply Kept.ite
    | with_reducible assumption
    | exact Within.of hT rfl
    | with_reducible apply State.set_kept
    | with_reducible apply State.raise_kept
    | (fail_if_no_progress with_reducible refine Kept.mk' ?_ rfl rfl)

theorem execExportGo_kept {T : Nat} {r s : State} {x0 : Fin 2} {x1 : Word} (h : Kept T r s) (hT : Within 17301534 T) : KeptO T r (execExportGo x0 x1 s) := by
  unfold execExportGo
  repeat' first
    | with_reducible apply KeptO.ite
    | with_reducible apply Kept.ite
    | with_reducible assumption
    | exact Within.of hT rfl
    | with_reducible apply KeptO.next
    | (with_reducible apply whenAllowed_kept; on_goal 2 => (intro _ _; beta_reduce))
    | with_reducible apply State.gate_kept
    | with_reducible apply State.set_kept
    | with_reducible apply State.exportEnd_kept
    | with_reducible apply State.dmaShow_kept
    | (fail_if_no_progress with_reducible refine Kept.mk' ?_ rfl rfl)

theorem State.exportWrite_kept {T : Nat} {r s : State} {x1 : Option ℕ} (h : Kept T r s) (hT : Within 2050 T) : Kept T r (State.exportWrite s x1) := by
  unfold State.exportWrite
  repeat' first
    | with_reducible apply Kept.ite
    | with_reducible assumption
    | exact Within.of hT rfl
    | with_reducible apply State.storeBytes_kept
    | with_reducible apply State.set_kept
    | (fail_if_no_progress with_reducible refine Kept.mk' ?_ rfl rfl)
    | split

theorem State.exportBreak_kept {T : Nat} {r s : State} {x1 : ℕ} (h : Kept T r s) (hT : Within 17303563 T) : Kept T r (State.exportBreak s x1) := by
  unfold State.exportBreak
  repeat' first
    | with_reducible assumption
    | exact Within.of hT rfl
    | with_reducible apply State.fresh_kept
    | with_reducible apply State.dmaShow_kept
    | with_reducible apply State.exportEnd_kept
    | with_reducible apply State.exportWrite_kept

theorem execExportStop_kept {T : Nat} {r s : State} {x0 : Fin 2} {x1 : Word} (h : Kept T r s) (hT : Within 17303583 T) : KeptO T r (execExportStop x0 x1 s) := by
  unfold execExportStop
  repeat' first
    | with_reducible apply KeptO.ite
    | with_reducible apply Kept.ite
    | with_reducible assumption
    | exact Within.of hT rfl
    | with_reducible apply KeptO.next
    | (with_reducible apply whenAllowed_kept; on_goal 2 => (intro _ _; beta_reduce))
    | with_reducible apply State.gate_kept
    | with_reducible apply State.exportBreak_kept

theorem execExpDone_kept {T : Nat} {r s : State}  (h : Kept T r s) (hT : Within 17303562 T) : KeptO T r (execExpDone s) := by
  unfold execExpDone
  repeat' first
    | with_reducible apply KeptO.ite
    | with_reducible apply Kept.ite
    | with_reducible assumption
    | exact Within.of hT rfl
    | with_reducible apply KeptO.next
    | with_reducible apply State.dmaShow_kept
    | with_reducible apply State.exportEnd_kept
    | with_reducible apply State.exportWrite_kept

/-! ## Machine/Dma.lean -/

theorem State.setDma_kept {T : Nat} {r s : State} {x1 : ℕ} {x2 : DmaChan} (h : Kept T r s) (hT : Within 1048576 T) : Kept T r (State.setDma s x1 x2) := by
  unfold State.setDma
  repeat' first
    | with_reducible apply Kept.ite
    | with_reducible assumption
    | exact Within.of hT rfl
    | (fail_if_no_progress with_reducible refine Kept.mk' ?_ rfl rfl)

theorem State.dmaFault_kept {T : Nat} {r s : State} {x1 : ℕ} {x2 : ℕ} {x3 : ℕ} {x4 : ℕ} (h : Kept T r s) (hT : Within 17825806 T) : Kept T r (State.dmaFault s x1 x2 x3 x4) := by
  unfold State.dmaFault
  repeat' first
    | with_reducible assumption
    | exact Within.of hT rfl
    | with_reducible apply State.set_kept
    | with_reducible apply State.setDma_kept
    | with_reducible apply State.set64_kept
    | with_reducible apply State.logNamed_kept
    | with_reducible apply State.raise_kept

theorem State.dmaBegin_kept {T : Nat} {r s : State} {x1 : ℕ} {x2 : ℕ} {x3 : ℕ} {x4 : Bool} (h : Kept T r s) (hT : Within 17827855 T) : Kept T r (State.dmaBegin s x1 x2 x3 x4) := by
  unfold State.dmaBegin
  repeat' first
    | with_reducible apply Kept.ite
    | with_reducible assumption
    | exact Within.of hT rfl
    | with_reducible apply State.set_kept
    | with_reducible apply State.fresh_kept
    | with_reducible apply State.dmaFault_kept
    | with_reducible apply State.setDma_kept
    | with_reducible apply State.storeBytes_kept
    | (fail_if_no_progress with_reducible refine Kept.mk' ?_ rfl rfl)
    | (extract_lets +onlyGivenNames x; first | (with_reducible apply Kept.cut (T := T) (r := r) (x := x); on_goal 2 => (intro hx; clear_value x)) | clear_value x)
    | split

theorem State.dmaGate_kept {T : Nat} {r s : State} {x1 : ℕ} {x2 : ℕ} {x3 : Word} (h : Kept T r s) (hT : Within 16777246 T) : Kept T r (State.dmaGate s x1 x2 x3).2 := by
  unfold State.dmaGate
  repeat' first
    | with_reducible assumption
    | exact Within.of hT rfl
    | with_reducible apply State.gate_kept

theorem execDmaGo_kept {T : Nat} {r s : State} {x0 : Fin 2} {x1 : Fin 8} {x2 : Word} {x3 : Bool} (h : Kept T r s) (hT : Within 17827871 T := by
    first | exact Within.refl _ | (refine Within.of (b := ?zb) ?zw ?ze; (case zw => assumption); (case ze => decide))) : KeptO T r (execDmaGo x0 x1 x2 x3 s) := by
  unfold execDmaGo
  repeat' first
    | with_reducible apply KeptO.ite
    | with_reducible apply Kept.ite
    | with_reducible assumption
    | exact Within.of hT rfl
    | with_reducible apply KeptO.next
    | (with_reducible apply whenAllowed_kept; on_goal 2 => (intro _ _; beta_reduce))
    | with_reducible apply State.dmaGate_kept
    | with_reducible apply State.set_kept
    | with_reducible apply State.dmaBegin_kept
    | with_reducible apply State.set64_kept
    | (fail_if_no_progress with_reducible refine Kept.mk' ?_ rfl rfl)

theorem State.dmaCopy_kept {T : Nat} {r s : State} {x1 : Desc} {x2 : ℕ} (h : Kept T r s) (hT : Within 2048 T := by
    first | exact Within.refl _ | (refine Within.of (b := ?zb) ?zw ?ze; (case zw => assumption); (case ze => decide))) : Kept T r (State.dmaCopy s x1 x2) := by
  unfold State.dmaCopy
  repeat' first
    | with_reducible apply Kept.ite
    | with_reducible assumption
    | exact Within.of hT rfl
    | with_reducible apply State.storeBytes_kept
    | (fail_if_no_progress with_reducible refine Kept.mk' ?_ rfl rfl)
    | (with_reducible apply Kept.foldl; on_goal 2 => (intro _ _ _; beta_reduce))
    | (with_reducible apply Kept.foldlSnd; on_goal 2 => (intro _ _ _; beta_reduce))
    | split

theorem State.dmaHalt_kept {T : Nat} {r s : State} {x1 : ℕ} {x2 : ℕ} {x3 : ℕ} (h : Kept T r s) (hT : Within 17827855 T) : Kept T r (State.dmaHalt s x1 x2 x3) := by
  unfold State.dmaHalt
  repeat' first
    | with_reducible apply Kept.ite
    | with_reducible assumption
    | exact Within.of hT rfl
    | with_reducible apply State.fresh_kept
    | with_reducible apply State.dmaCopy_kept
    | with_reducible apply State.dmaFault_kept
    | with_reducible apply State.set_kept
    | with_reducible apply State.setDma_kept
    | with_reducible apply State.set64_kept
    | (fail_if_no_progress with_reducible refine Kept.mk' ?_ rfl rfl)
    | split

theorem execDmaStop_kept {T : Nat} {r s : State} {x0 : Fin 2} {x1 : Fin 8} {x2 : Word} (h : Kept T r s) (hT : Within 17827871 T) : KeptO T r (execDmaStop x0 x1 x2 s) := by
  unfold execDmaStop
  repeat' first
    | with_reducible apply KeptO.ite
    | with_reducible apply Kept.ite
    | with_reducible assumption
    | exact Within.of hT rfl
    | with_reducible apply KeptO.next
    | (with_reducible apply whenAllowed_kept; on_goal 2 => (intro _ _; beta_reduce))
    | with_reducible apply State.dmaGate_kept
    | with_reducible apply State.set_kept
    | with_reducible apply State.dmaHalt_kept

theorem State.dmaSession_kept {T : Nat} {r s : State}  (h : Kept T r s) (hT : Within 17827855 T) : Kept T r (State.dmaSession s) := by
  unfold State.dmaSession
  repeat' first
    | with_reducible apply Kept.ite
    | with_reducible assumption
    | exact Within.of hT rfl
    | with_reducible apply State.dmaHalt_kept
    | (fail_if_no_progress with_reducible refine Kept.mk' ?_ rfl rfl)
    | (with_reducible apply Kept.foldl; on_goal 2 => (intro _ _ _; beta_reduce))
    | (with_reducible apply Kept.foldlSnd; on_goal 2 => (intro _ _ _; beta_reduce))
    | split

theorem State.dmaDone_kept {T : Nat} {r s : State} {x1 : ℕ} {x2 : Desc} {x3 : Bool} (h : Kept T r s) (hT : Within 17827855 T := by
    first | exact Within.refl _ | (refine Within.of (b := ?zb) ?zw ?ze; (case zw => assumption); (case ze => decide))) : Kept T r (State.dmaDone s x1 x2 x3) := by
  unfold State.dmaDone
  repeat' first
    | with_reducible apply Kept.ite
    | with_reducible assumption
    | exact Within.of hT rfl
    | with_reducible apply State.dmaCopy_kept
    | with_reducible apply State.storeBytes_kept
    | with_reducible apply State.setDma_kept
    | with_reducible apply State.set_kept
    | with_reducible apply State.bump_kept
    | with_reducible apply State.raise_kept
    | with_reducible apply State.dmaBegin_kept
    | (fail_if_no_progress with_reducible refine Kept.mk' ?_ rfl rfl)

theorem State.engineAt_kept {T : Nat} {r s : State} {x1 : ℕ} {x2 : Desc} (h : Kept T r s) (hT : Within 2 T := by
    first | exact Within.refl _ | (refine Within.of (b := ?zb) ?zw ?ze; (case zw => assumption); (case ze => decide))) : Kept T r (State.engineAt s x1 x2) := by
  unfold State.engineAt
  repeat' first
    | with_reducible apply Kept.ite
    | with_reducible assumption
    | exact Within.of hT rfl
    | with_reducible apply State.set64_kept
    | (fail_if_no_progress with_reducible refine Kept.mk' ?_ rfl rfl)

theorem State.engineDone_kept {T : Nat} {r s : State} {x1 : ℕ} {x2 : Desc} (h : Kept T r s) (hT : Within 17049610 T := by
    first | exact Within.refl _ | (refine Within.of (b := ?zb) ?zw ?ze; (case zw => assumption); (case ze => decide))) : Kept T r (State.engineDone s x1 x2) := by
  unfold State.engineDone
  repeat' first
    | with_reducible apply Kept.ite
    | with_reducible assumption
    | exact Within.of hT rfl
    | with_reducible apply State.set_kept
    | with_reducible apply State.bump_kept
    | with_reducible apply State.engineAt_kept
    | with_reducible apply State.raise_kept
    | with_reducible apply State.chgLoading_kept
    | with_reducible apply State.dmaShow_kept
    | with_reducible apply State.panDone_kept
    | (fail_if_no_progress with_reducible refine Kept.mk' ?_ rfl rfl)

theorem execDmaDescriptorDone_kept {T : Nat} {r s : State} {x0 : Fin 16} {x1 : DescEnd} (h : Kept T r s) (hT : Within 18098191 T := by
    first | exact Within.refl _ | (refine Within.of (b := ?zb) ?zw ?ze; (case zw => assumption); (case ze => decide))) : KeptO T r (execDmaDescriptorDone x0 x1 s) := by
  unfold execDmaDescriptorDone
  repeat' first
    | with_reducible apply KeptO.ite
    | with_reducible apply Kept.ite
    | with_reducible assumption
    | exact Within.of hT rfl
    | with_reducible apply KeptO.next
    | with_reducible apply State.dmaDone_kept
    | with_reducible apply State.engineDone_kept
    | (fail_if_no_progress with_reducible refine Kept.mk' ?_ rfl rfl)
    | split

theorem State.engineFault_kept {T : Nat} {r s : State} {x1 : ℕ} {x2 : ℕ} (h : Kept T r s) (hT : Within 21772303 T) : Kept T r (State.engineFault s x1 x2) := by
  unfold State.engineFault
  repeat' first
    | with_reducible apply Kept.ite
    | with_reducible assumption
    | exact Within.of hT rfl
    | with_reducible apply State.restartSentence_kept
    | with_reducible apply State.closeCuts_kept
    | with_reducible apply State.cutOpen_kept
    | with_reducible apply State.dmaShow_kept
    | with_reducible apply State.exportBreak_kept
    | with_reducible apply State.chgAbort_kept
    | with_reducible apply State.rplAbort_kept
    | with_reducible apply State.loadFail_kept
    | with_reducible apply State.panFail_kept
    | (fail_if_no_progress with_reducible refine Kept.mk' ?_ rfl rfl)
    | (with_reducible apply Kept.foldl; on_goal 2 => (intro _ _ _; beta_reduce))
    | (with_reducible apply Kept.foldlSnd; on_goal 2 => (intro _ _ _; beta_reduce))
    | split

theorem State.engineBeat_kept {T : Nat} {r s : State} {x1 : ℕ} {x2 : ℕ} (h : Kept T r s) (hT : Within 22820879 T) : Kept T r (State.engineBeat s x1 x2) := by
  unfold State.engineBeat
  repeat' first
    | with_reducible assumption
    | exact Within.of hT rfl
    | with_reducible apply State.fresh_kept
    | with_reducible apply State.dmaFault_kept
    | with_reducible apply State.engineFault_kept

theorem State.sourceLost_kept {T : Nat} {r s : State} {x1 : Desc} {x2 : ℕ} {x3 : ℕ} (h : Kept T r s) (hT : Within 20971530 T := by
    first | exact Within.refl _ | (refine Within.of (b := ?zb) ?zw ?ze; (case zw => assumption); (case ze => decide))) : Kept T r (State.sourceLost s x1 x2 x3) := by
  unfold State.sourceLost
  repeat' first
    | with_reducible apply Kept.ite
    | with_reducible assumption
    | exact Within.of hT rfl
    | with_reducible apply State.stemCause_kept
    | with_reducible apply State.ueCount_kept
    | (fail_if_no_progress with_reducible refine Kept.mk' ?_ rfl rfl)

theorem State.hostBeat_kept {T : Nat} {r s : State} {x1 : ℕ} {x2 : Desc} {x3 : ℕ} {x4 : ℕ} {x5 : Bool} (h : Kept T r s) (hT : Within 22022158 T := by
    first | exact Within.refl _ | (refine Within.of (b := ?zb) ?zw ?ze; (case zw => assumption); (case ze => decide))) : Kept T r (State.hostBeat s x1 x2 x3 x4 x5) := by
  unfold State.hostBeat
  repeat' first
    | with_reducible apply Kept.ite
    | with_reducible assumption
    | exact Within.of hT rfl
    | with_reducible apply State.storeBytes_kept
    | with_reducible apply State.dmaCopy_kept
    | with_reducible apply State.sourceLost_kept
    | with_reducible apply State.dmaFault_kept
    | (fail_if_no_progress with_reducible refine Kept.mk' ?_ rfl rfl)

theorem State.engineFail_kept {T : Nat} {r s : State} {x1 : ℕ} {x2 : Desc} {x3 : ℕ} {x4 : ℕ} {x5 : Bool} (h : Kept T r s) (hT : Within 22820879 T := by
    first | exact Within.refl _ | (refine Within.of (b := ?zb) ?zw ?ze; (case zw => assumption); (case ze => decide))) : Kept T r (State.engineFail s x1 x2 x3 x4 x5) := by
  unfold State.engineFail
  repeat' first
    | with_reducible apply Kept.ite
    | with_reducible assumption
    | exact Within.of hT rfl
    | with_reducible apply State.engineAt_kept
    | with_reducible apply State.dmaFault_kept
    | with_reducible apply State.engineFault_kept
    | with_reducible apply State.fresh_kept
    | with_reducible apply State.sourceLost_kept
    | (fail_if_no_progress with_reducible refine Kept.mk' ?_ rfl rfl)
    | (extract_lets +onlyGivenNames x; first
        | (have ht : (type_of% x) = State := by with_reducible rfl
           clear ht; with_reducible apply Kept.cut (T := T) (r := r) (x := x); (on_goal 2 => (intro hx; clear_value x)); (on_goal 1 => try unfold x))
        | (have ht : (type_of% x.2) = State := by with_reducible rfl
           clear ht; with_reducible apply Kept.cut (T := T) (r := r) (x := x.2); (on_goal 2 => (intro hx; clear_value x)); (on_goal 1 => try unfold x))
        | (have ht : (type_of% x) = Answer := by with_reducible rfl
           clear ht; with_reducible apply Kept.cut (T := T) (r := r) (x := x.st); (on_goal 2 => (intro hx; clear_value x)); (on_goal 1 => try unfold x))
        | (have ht : (type_of% x) = Clk := by with_reducible rfl
           clear ht)
        | (have ht : (type_of% x) = (ℕ → State) := by with_reducible rfl
           clear ht)
        | clear_value x | skip)
    | (with_reducible apply Kept.foldl; on_goal 2 => (intro _ _ _; beta_reduce))
    | (with_reducible apply Kept.foldlSnd; on_goal 2 => (intro _ _ _; beta_reduce))
    | split

theorem execDmaBeatFault_kept {T : Nat} {r s : State} {x0 : Fin 16} {x1 : Fin 16} {x2 : ℕ} {x3 : BadBeat} (h : Kept T r s) (hT : Within 22820879 T := by
    first | exact Within.refl _ | (refine Within.of (b := ?zb) ?zw ?ze; (case zw => assumption); (case ze => decide))) : KeptO T r (execDmaBeatFault x0 x1 x2 x3 s) := by
  unfold execDmaBeatFault
  repeat' first
    | with_reducible apply KeptO.ite
    | with_reducible apply Kept.ite
    | with_reducible assumption
    | exact Within.of hT rfl
    | with_reducible apply KeptO.next
    | with_reducible apply State.hostBeat_kept
    | with_reducible apply State.engineFail_kept
    | (fail_if_no_progress with_reducible refine Kept.mk' ?_ rfl rfl)
    | split

/-! ## Machine/Rpl.lean -/

theorem State.rplBegin_kept {T : Nat} {r s : State} {x1 : Partition} {x2 : LftRec} {x3 : ℕ} (h : Kept T r s) (hT : Within 17045514 T := by
    first | exact Within.refl _ | (refine Within.of (b := ?zb) ?zw ?ze; (case zw => assumption); (case ze => decide))) : Kept T r (State.rplBegin s x1 x2 x3) := by
  unfold State.rplBegin
  repeat' first
    | with_reducible apply Kept.ite
    | with_reducible assumption
    | exact Within.of hT rfl
    | with_reducible apply State.clearDiffs_kept
    | with_reducible apply State.setLane_kept
    | with_reducible apply State.loadCode_kept
    | with_reducible apply State.set64_kept
    | with_reducible apply State.set_kept
    | with_reducible apply State.dmaShow_kept
    | with_reducible apply State.spareAct_kept
    | (fail_if_no_progress with_reducible refine Kept.mk' ?_ rfl rfl)

theorem execRplStart_kept {T : Nat} {r s : State} {x0 : Fin 2} {x1 : Word} {x2 : Option Image} (h : Kept T r s) (hT : Within 17045534 T) : KeptO T r (execRplStart x0 x1 x2 s) := by
  unfold execRplStart
  repeat' first
    | with_reducible apply KeptO.ite
    | with_reducible apply Kept.ite
    | with_reducible assumption
    | exact Within.of hT rfl
    | with_reducible apply KeptO.next
    | (with_reducible apply whenAllowed_kept; on_goal 2 => (intro _ _; beta_reduce))
    | with_reducible apply State.gate_kept
    | with_reducible apply State.set_kept
    | with_reducible apply State.rplBegin_kept
    | (fail_if_no_progress with_reducible refine Kept.mk' ?_ rfl rfl)
    | (extract_lets +onlyGivenNames x; first | (with_reducible apply Kept.cut (T := T) (r := r) (x := x); on_goal 2 => (intro hx; clear_value x)) | clear_value x)
    | split

theorem execRplCancel_kept {T : Nat} {r s : State} {x0 : Fin 2} {x1 : Word} (h : Kept T r s) (hT : Within 17051678 T) : KeptO T r (execRplCancel x0 x1 s) := by
  unfold execRplCancel
  repeat' first
    | with_reducible apply KeptO.ite
    | with_reducible apply Kept.ite
    | with_reducible assumption
    | exact Within.of hT rfl
    | with_reducible apply KeptO.next
    | (with_reducible apply whenAllowed_kept; on_goal 2 => (intro _ _; beta_reduce))
    | with_reducible apply State.gate_kept
    | with_reducible apply State.rplAbort_kept

theorem State.setRpl_kept {T : Nat} {r s : State} {x1 : Replay} (h : Kept T r s) (hT : Within 262144 T) : Kept T r (State.setRpl s x1) := by
  unfold State.setRpl
  repeat' first
    | with_reducible apply Kept.ite
    | with_reducible assumption
    | exact Within.of hT rfl
    | (fail_if_no_progress with_reducible refine Kept.mk' ?_ rfl rfl)

theorem State.rplExchange_kept {T : Nat} {r s : State} {x1 : Replay} {x2 : ℕ} (h : Kept T r s) (hT : Within 262144 T) : Kept T r (State.rplExchange s x1 x2) := by
  unfold State.rplExchange
  repeat' first
    | with_reducible apply Kept.ite
    | with_reducible assumption
    | exact Within.of hT rfl
    | (fail_if_no_progress with_reducible refine Kept.mk' ?_ rfl rfl)

theorem State.rplNouns_kept {T : Nat} {r s : State} {x1 : Replay} {x2 : ℕ} {x3 : List (ℕ × ℕ × List Word)} (h : Kept T r s) (hT : Within 264192 T) : Kept T r (State.rplNouns s x1 x2 x3) := by
  unfold State.rplNouns
  repeat' first
    | with_reducible apply Kept.ite
    | with_reducible assumption
    | exact Within.of hT rfl
    | with_reducible apply State.placeNoun_kept
    | with_reducible apply State.setRpl_kept
    | (fail_if_no_progress with_reducible refine Kept.mk' ?_ rfl rfl)
    | (with_reducible apply Kept.foldl; on_goal 2 => (intro _ _ _; beta_reduce))
    | (with_reducible apply Kept.foldlSnd; on_goal 2 => (intro _ _ _; beta_reduce))
    | split

theorem State.rplChange_kept {T : Nat} {r s : State} {x1 : LftEvent} (h : Kept T r s) (hT : Within 264192 T) : Kept T r (State.rplChange s x1) := by
  unfold State.rplChange
  repeat' first
    | with_reducible apply Kept.ite
    | with_reducible assumption
    | exact Within.of hT rfl
    | with_reducible apply State.storeNat_kept
    | with_reducible apply State.setRpl_kept
    | (fail_if_no_progress with_reducible refine Kept.mk' ?_ rfl rfl)
    | split

theorem State.rplRun_kept {T : Nat} {r s : State} {x1 : Replay} {x2 : Task} {x3 : ℕ} {x4 : KV Word} {x5 : ℕ} (h : Kept T r s) (hT : Within 17053838 T) : Kept T r (State.rplRun s x1 x2 x3 x4 x5) := by
  unfold State.rplRun
  repeat' first
    | with_reducible apply Kept.ite
    | with_reducible assumption
    | exact Within.of hT rfl
    | with_reducible apply State.rplChange_kept
    | with_reducible apply State.schedule_kept
    | with_reducible apply State.setLane_kept
    | with_reducible apply State.putCyc_kept
    | with_reducible apply State.runCycle_kept
    | with_reducible apply State.set64_kept
    | with_reducible apply State.setCycle_kept
    | with_reducible apply State.setRpl_kept
    | (fail_if_no_progress with_reducible refine Kept.mk' ?_ rfl rfl)
    | (extract_lets +onlyGivenNames x; first | (with_reducible apply Kept.cut (T := T) (r := r) (x := x); on_goal 2 => (intro hx; clear_value x)) | clear_value x)
    | (with_reducible apply Kept.foldl; on_goal 2 => (intro _ _ _; beta_reduce))
    | (with_reducible apply Kept.foldlSnd; on_goal 2 => (intro _ _ _; beta_reduce))
    | split

theorem State.rplCompare_kept {T : Nat} {r s : State} {x1 : Replay} {x2 : ℕ} {x3 : ℕ} {x4 : Bool} {x5 : List EffItem} (h : Kept T r s) (hT : Within 17039370 T) : Kept T r (State.rplCompare s x1 x2 x3 x4 x5) := by
  unfold State.rplCompare
  repeat' first
    | with_reducible apply Kept.ite
    | with_reducible assumption
    | exact Within.of hT rfl
    | with_reducible apply State.setRpl_kept
    | with_reducible apply State.bump_kept
    | with_reducible apply State.raise_kept
    | with_reducible apply State.set64_kept
    | with_reducible apply State.logDiff_kept
    | (fail_if_no_progress with_reducible refine Kept.mk' ?_ rfl rfl)
    | (with_reducible apply Kept.foldl; on_goal 2 => (intro _ _ _; beta_reduce))
    | (with_reducible apply Kept.foldlSnd; on_goal 2 => (intro _ _ _; beta_reduce))
    | split

theorem State.rplTake_kept {T : Nat} {r s : State} {x1 : Replay} {x2 : RplCap} (h : Kept T r s) (hT : Within 17053838 T) : Kept T r (State.rplTake s x1 x2) := by
  unfold State.rplTake
  repeat' first
    | with_reducible apply Kept.ite
    | with_reducible assumption
    | exact Within.of hT rfl
    | with_reducible apply State.rplNouns_kept
    | with_reducible apply State.rplExchange_kept
    | with_reducible apply State.rplRun_kept
    | with_reducible apply State.rplCompare_kept
    | (fail_if_no_progress with_reducible refine Kept.mk' ?_ rfl rfl)
    | (extract_lets +onlyGivenNames x; first | (with_reducible apply Kept.cut (T := T) (r := r) (x := x); on_goal 2 => (intro hx; clear_value x)) | clear_value x)
    | split

theorem rplGo_kept {T : Nat} {r s : State} {x0 : ℕ} {x1 : Bool} (h : Kept T r s) (hT : Within 17053838 T) : Kept T r (rplGo x0 x1 s) := by
  induction x0 generalizing s x1 with
  | zero => exact h
  | succ f ih =>
  unfold rplGo
  repeat' first
    | split
    | with_reducible assumption
    | exact Within.of hT rfl
    | with_reducible apply ih
    | with_reducible apply State.rplTake_kept
    | with_reducible apply State.setRpl_kept

theorem execReplayCycle_kept {T : Nat} {r s : State}  (h : Kept T r s) (hT : Within 17053838 T) : KeptO T r (execReplayCycle s) := by
  unfold execReplayCycle
  repeat' first
    | with_reducible apply KeptO.ite
    | with_reducible apply Kept.ite
    | with_reducible assumption
    | exact Within.of hT rfl
    | with_reducible apply KeptO.next
    | with_reducible apply rplGo_kept
    | (fail_if_no_progress with_reducible refine Kept.mk' ?_ rfl rfl)
    | split

theorem execReplayDone_kept {T : Nat} {r s : State}  (h : Kept T r s) (hT : Within 17051658 T) : KeptO T r (execReplayDone s) := by
  unfold execReplayDone
  repeat' first
    | with_reducible apply KeptO.ite
    | with_reducible apply Kept.ite
    | with_reducible assumption
    | exact Within.of hT rfl
    | with_reducible apply KeptO.next
    | with_reducible apply State.spareIdle_kept
    | with_reducible apply State.raise_kept
    | with_reducible apply State.set_kept
    | (fail_if_no_progress with_reducible refine Kept.mk' ?_ rfl rfl)
    | split

end Sys2Proof.Machine
end

