-- ==== Sys2Proof/Laws/KeptTime.lean ====
section
/-!
SUPPORT. Laws/KeptTime.lean: what each operation of time keeps (the relation Kept of Laws/Kept.lean), one lemma
per operation.
-/
set_option linter.unusedTactic false
set_option linter.unreachableTactic false
set_option linter.unusedVariables false
set_option Elab.async false
namespace Sys2Proof.Machine
open Sys2Proof

/-! ## Machine/Tim.lean -/

theorem State.timMark_kept {T : Nat} {r s : State}  (h : Kept T r s) (hT : Within 1 T) : Kept T r (State.timMark s) := by
  unfold State.timMark
  repeat' first
    | with_reducible apply Kept.ite
    | with_reducible assumption
    | exact Within.of hT rfl
    | (fail_if_no_progress with_reducible refine Kept.mk' ?_ rfl rfl)

theorem State.timValid_kept {T : Nat} {r s : State}  (h : Kept T r s) (hT : Within 16908291 T := by
    first | exact Within.refl _ | (refine Within.of (b := ?zb) ?zw ?ze; (case zw => assumption); (case ze => decide))) : Kept T r (State.timValid s) := by
  unfold State.timValid
  repeat' first
    | with_reducible apply Kept.ite
    | with_reducible assumption
    | exact Within.of hT rfl
    | with_reducible apply State.gooseStatus_kept
    | with_reducible apply State.timMark_kept
    | with_reducible apply State.set_kept
    | (fail_if_no_progress with_reducible refine Kept.mk' ?_ rfl rfl)

theorem State.timInvalid_kept {T : Nat} {r s : State} {x1 : ℕ} (h : Kept T r s) (hT : Within 25296911 T := by
    first | exact Within.refl _ | (refine Within.of (b := ?zb) ?zw ?ze; (case zw => assumption); (case ze => decide))) : Kept T r (State.timInvalid s x1) := by
  unfold State.timInvalid
  repeat' first
    | with_reducible apply Kept.ite
    | with_reducible assumption
    | exact Within.of hT rfl
    | with_reducible apply State.gooseStatus_kept
    | with_reducible apply State.timMark_kept
    | with_reducible apply State.log_kept
    | with_reducible apply State.raise_kept
    | with_reducible apply State.set_kept
    | (fail_if_no_progress with_reducible refine Kept.mk' ?_ rfl rfl)

theorem State.timPend_kept {T : Nat} {r s : State}  (h : Kept T r s) (hT : Within 2 T) : Kept T r (State.timPend s) := by
  unfold State.timPend
  repeat' first
    | with_reducible assumption
    | exact Within.of hT rfl
    | with_reducible apply State.set64_kept

theorem State.timEnter_kept {T : Nat} {r s : State} {x1 : ℕ} (h : Kept T r s) (hT : Within 8388610 T := by
    first | exact Within.refl _ | (refine Within.of (b := ?zb) ?zw ?ze; (case zw => assumption); (case ze => decide))) : Kept T r (State.timEnter s x1) := by
  unfold State.timEnter
  repeat' first
    | with_reducible apply Kept.ite
    | with_reducible assumption
    | exact Within.of hT rfl
    | with_reducible apply State.timPend_kept
    | with_reducible apply State.set_kept
    | (fail_if_no_progress with_reducible refine Kept.mk' ?_ rfl rfl)

theorem State.enterAcq_kept {T : Nat} {r s : State}  (h : Kept T r s) (hT : Within 25296911 T) : Kept T r (State.enterAcq s) := by
  unfold State.enterAcq
  repeat' first
    | with_reducible apply Kept.ite
    | with_reducible assumption
    | exact Within.of hT rfl
    | with_reducible apply State.timInvalid_kept
    | with_reducible apply State.timEnter_kept
    | (fail_if_no_progress with_reducible refine Kept.mk' ?_ rfl rfl)

theorem State.enterLocked_kept {T : Nat} {r s : State}  (h : Kept T r s) (hT : Within 25296911 T) : Kept T r (State.enterLocked s) := by
  unfold State.enterLocked
  repeat' first
    | with_reducible apply Kept.ite
    | with_reducible assumption
    | exact Within.of hT rfl
    | with_reducible apply State.timValid_kept
    | with_reducible apply State.set_kept
    | with_reducible apply State.timEnter_kept
    | with_reducible apply State.log_kept
    | with_reducible apply State.raise_kept
    | (fail_if_no_progress with_reducible refine Kept.mk' ?_ rfl rfl)

theorem State.setFreq_kept {T : Nat} {r s : State} {x1 : ℤ} (h : Kept T r s) (hT : Within 8388608 T) : Kept T r (State.setFreq s x1) := by
  unfold State.setFreq
  repeat' first
    | with_reducible apply Kept.ite
    | with_reducible assumption
    | exact Within.of hT rfl
    | with_reducible apply State.wr_kept
    | (fail_if_no_progress with_reducible refine Kept.mk' ?_ rfl rfl)

theorem State.freqTick_kept {T : Nat} {r s : State}  (h : Kept T r s) (hT : Within 2 T := by
    first | exact Within.refl _ | (refine Within.of (b := ?zb) ?zw ?ze; (case zw => assumption); (case ze => decide))) : Kept T r (State.freqTick s) := by
  unfold State.freqTick
  repeat' first
    | with_reducible apply Kept.ite
    | with_reducible assumption
    | exact Within.of hT rfl
    | with_reducible apply State.wr_kept
    | (fail_if_no_progress with_reducible refine Kept.mk' ?_ rfl rfl)

theorem State.holdBegin_kept {T : Nat} {r s : State} {x1 : ℕ} (h : Kept T r s) (hT : Within 25165838 T := by
    first | exact Within.refl _ | (refine Within.of (b := ?zb) ?zw ?ze; (case zw => assumption); (case ze => decide))) : Kept T r (State.holdBegin s x1) := by
  unfold State.holdBegin
  repeat' first
    | with_reducible apply Kept.ite
    | with_reducible assumption
    | exact Within.of hT rfl
    | with_reducible apply State.setFreq_kept
    | with_reducible apply State.log_kept
    | (fail_if_no_progress with_reducible refine Kept.mk' ?_ rfl rfl)

theorem State.enterHold_kept {T : Nat} {r s : State} {x1 : ℕ} (h : Kept T r s) (hT : Within 25296911 T) : Kept T r (State.enterHold s x1) := by
  unfold State.enterHold
  repeat' first
    | with_reducible apply Kept.ite
    | with_reducible assumption
    | exact Within.of hT rfl
    | with_reducible apply State.raise_kept
    | with_reducible apply State.timEnter_kept
    | with_reducible apply State.holdBegin_kept
    | with_reducible apply State.timInvalid_kept

theorem State.srcShow_kept {T : Nat} {r s : State} {x1 : List Byte} (h : Kept T r s) (hT : Within 16777230 T) : Kept T r (State.srcShow s x1) := by
  unfold State.srcShow
  repeat' first
    | with_reducible apply Kept.ite
    | with_reducible assumption
    | exact Within.of hT rfl
    | with_reducible apply State.set_kept
    | with_reducible apply State.log_kept

theorem State.utcDefault_kept {T : Nat} {r s : State}  (h : Kept T r s) (hT : Within 2 T) : Kept T r (State.utcDefault s) := by
  unfold State.utcDefault
  repeat' first
    | with_reducible assumption
    | exact Within.of hT rfl
    | with_reducible apply State.set_kept

theorem State.utcFollow_kept {T : Nat} {r s : State} {x1 : AnnData} (h : Kept T r s) (hT : Within 8388610 T) : Kept T r (State.utcFollow s x1) := by
  unfold State.utcFollow
  repeat' first
    | with_reducible apply Kept.ite
    | with_reducible assumption
    | exact Within.of hT rfl
    | with_reducible apply State.set_kept
    | with_reducible apply State.utcDefault_kept
    | (fail_if_no_progress with_reducible refine Kept.mk' ?_ rfl rfl)

theorem State.gmShow_kept {T : Nat} {r s : State} {x1 : ℕ} {x2 : Option AnnData} (h : Kept T r s) (hT : Within 25165838 T) : Kept T r (State.gmShow s x1 x2) := by
  unfold State.gmShow
  repeat' first
    | with_reducible apply Kept.ite
    | with_reducible assumption
    | exact Within.of hT rfl
    | with_reducible apply State.set64_kept
    | with_reducible apply State.set_kept
    | with_reducible apply State.utcFollow_kept
    | with_reducible apply State.wr_kept
    | with_reducible apply State.utcDefault_kept
    | with_reducible apply State.log_kept
    | with_reducible apply State.raise_kept
    | (fail_if_no_progress with_reducible refine Kept.mk' ?_ rfl rfl)
    | split

theorem State.ptpPick_kept {T : Nat} {r s : State}  (h : Kept T r s) (hT : Within 25165838 T) : Kept T r (State.ptpPick s) := by
  unfold State.ptpPick
  repeat' first
    | with_reducible apply Kept.ite
    | with_reducible assumption
    | exact Within.of hT rfl
    | with_reducible apply State.gmShow_kept
    | with_reducible apply State.set_kept
    | (fail_if_no_progress with_reducible refine Kept.mk' ?_ rfl rfl)
    | split

theorem State.stepAsk_kept {T : Nat} {r s : State} {x1 : ℤ} {x2 : ℕ} (h : Kept T r s) (hT : Within 8388608 T) : Kept T r (State.stepAsk s x1 x2) := by
  unfold State.stepAsk
  repeat' first
    | with_reducible apply Kept.ite
    | with_reducible assumption
    | exact Within.of hT rfl
    | (fail_if_no_progress with_reducible refine Kept.mk' ?_ rfl rfl)

theorem State.rebase_kept {T : Nat} {r s : State} {x1 : ℤ} (h : Kept T r s) (hT : Within 8388608 T) : Kept T r (State.rebase s x1) := by
  unfold State.rebase
  repeat' first
    | with_reducible apply Kept.ite
    | with_reducible assumption
    | exact Within.of hT rfl
    | (fail_if_no_progress with_reducible refine Kept.mk' ?_ rfl rfl)

theorem State.acceptMeas_kept {T : Nat} {r s : State} {x1 : ℤ} {x2 : ℤ} (h : Kept T r s) (hT : Within 25296911 T) : Kept T r (State.acceptMeas s x1 x2) := by
  unfold State.acceptMeas
  repeat' first
    | with_reducible apply Kept.ite
    | with_reducible assumption
    | exact Within.of hT rfl
    | with_reducible apply State.setFreq_kept
    | with_reducible apply State.rebase_kept
    | with_reducible apply State.enterLocked_kept
    | with_reducible apply State.enterAcq_kept
    | (fail_if_no_progress with_reducible refine Kept.mk' ?_ rfl rfl)

theorem State.enterAsym_kept {T : Nat} {r s : State} {x1 : ℤ} {x2 : ℤ} (h : Kept T r s) (hT : Within 25165838 T) : Kept T r (State.enterAsym s x1 x2) := by
  unfold State.enterAsym
  repeat' first
    | with_reducible apply Kept.ite
    | with_reducible assumption
    | exact Within.of hT rfl
    | with_reducible apply State.log_kept
    | with_reducible apply State.raise_kept
    | with_reducible apply State.timEnter_kept
    | with_reducible apply State.holdBegin_kept
    | (fail_if_no_progress with_reducible refine Kept.mk' ?_ rfl rfl)

theorem State.refuseJump_kept {T : Nat} {r s : State} {x1 : ℤ} (h : Kept T r s) (hT : Within 25296911 T) : Kept T r (State.refuseJump s x1) := by
  unfold State.refuseJump
  repeat' first
    | with_reducible apply Kept.ite
    | with_reducible assumption
    | exact Within.of hT rfl
    | with_reducible apply State.raise_kept
    | with_reducible apply State.bump_kept
    | with_reducible apply State.log_kept
    | with_reducible apply State.timInvalid_kept
    | with_reducible apply State.timEnter_kept
    | (fail_if_no_progress with_reducible refine Kept.mk' ?_ rfl rfl)

theorem State.leaveAsym_kept {T : Nat} {r s : State}  (h : Kept T r s) (hT : Within 25296911 T) : Kept T r (State.leaveAsym s) := by
  unfold State.leaveAsym
  repeat' first
    | with_reducible apply Kept.ite
    | with_reducible assumption
    | exact Within.of hT rfl
    | with_reducible apply State.enterAcq_kept

theorem State.onJump_kept {T : Nat} {r s : State} {x1 : ℤ} {x2 : Bool} (h : Kept T r s) (hT : Within 25296911 T) : Kept T r (State.onJump s x1 x2) := by
  unfold State.onJump
  repeat' first
    | with_reducible apply Kept.ite
    | with_reducible assumption
    | exact Within.of hT rfl
    | with_reducible apply State.enterAsym_kept
    | with_reducible apply State.rebase_kept
    | with_reducible apply State.leaveAsym_kept
    | with_reducible apply State.stepAsk_kept
    | with_reducible apply State.refuseJump_kept

theorem State.firstMeas_kept {T : Nat} {r s : State} {x1 : ℤ} (h : Kept T r s) (hT : Within 25296911 T) : Kept T r (State.firstMeas s x1) := by
  unfold State.firstMeas
  repeat' first
    | with_reducible apply Kept.ite
    | with_reducible assumption
    | exact Within.of hT rfl
    | with_reducible apply State.onJump_kept
    | (fail_if_no_progress with_reducible refine Kept.mk' ?_ rfl rfl)

theorem State.outlier_kept {T : Nat} {r s : State} {x1 : ℤ} {x2 : ℤ} (h : Kept T r s) (hT : Within 25296911 T) : Kept T r (State.outlier s x1 x2) := by
  unfold State.outlier
  repeat' first
    | with_reducible apply Kept.ite
    | with_reducible assumption
    | exact Within.of hT rfl
    | with_reducible apply State.bump_kept
    | with_reducible apply State.onJump_kept
    | (fail_if_no_progress with_reducible refine Kept.mk' ?_ rfl rfl)

theorem State.trackMeas_kept {T : Nat} {r s : State} {x1 : ℤ} {x2 : ℤ} {x3 : ℤ} (h : Kept T r s) (hT : Within 25296911 T) : Kept T r (State.trackMeas s x1 x2 x3) := by
  unfold State.trackMeas
  repeat' first
    | with_reducible apply Kept.ite
    | with_reducible assumption
    | exact Within.of hT rfl
    | with_reducible apply State.acceptMeas_kept
    | with_reducible apply State.firstMeas_kept
    | with_reducible apply State.outlier_kept
    | (fail_if_no_progress with_reducible refine Kept.mk' ?_ rfl rfl)
    | split

theorem State.slewMeas_kept {T : Nat} {r s : State} {x1 : ℤ} {x2 : ℤ} (h : Kept T r s) (hT : Within 25296911 T) : Kept T r (State.slewMeas s x1 x2) := by
  unfold State.slewMeas
  repeat' first
    | with_reducible apply Kept.ite
    | with_reducible assumption
    | exact Within.of hT rfl
    | with_reducible apply State.setFreq_kept
    | with_reducible apply State.enterAcq_kept
    | with_reducible apply State.log_kept

theorem State.asymMeas_kept {T : Nat} {r s : State} {x1 : ℤ} {x2 : ℤ} (h : Kept T r s) (hT : Within 25296911 T) : Kept T r (State.asymMeas s x1 x2) := by
  unfold State.asymMeas
  repeat' first
    | with_reducible apply Kept.ite
    | with_reducible assumption
    | exact Within.of hT rfl
    | with_reducible apply State.enterLocked_kept
    | with_reducible apply State.rebase_kept
    | with_reducible apply State.log_kept
    | (fail_if_no_progress with_reducible refine Kept.mk' ?_ rfl rfl)

theorem State.measure_kept {T : Nat} {r s : State} {x1 : ℤ} {x2 : ℤ} {x3 : ℤ} (h : Kept T r s) (hT : Within 25296911 T) : Kept T r (State.measure s x1 x2 x3) := by
  unfold State.measure
  repeat' first
    | with_reducible apply Kept.ite
    | with_reducible assumption
    | exact Within.of hT rfl
    | with_reducible apply State.timPend_kept
    | with_reducible apply State.wr_kept
    | with_reducible apply State.enterAcq_kept
    | with_reducible apply State.slewMeas_kept
    | with_reducible apply State.asymMeas_kept
    | with_reducible apply State.trackMeas_kept
    | (fail_if_no_progress with_reducible refine Kept.mk' ?_ rfl rfl)

theorem State.measureFrom_kept {T : Nat} {r s : State} {x1 : ℕ} {x2 : ℤ} {x3 : ℤ} {x4 : ℤ} (h : Kept T r s) (hT : Within 25296911 T) : Kept T r (State.measureFrom s x1 x2 x3 x4) := by
  unfold State.measureFrom
  repeat' first
    | with_reducible apply Kept.ite
    | with_reducible assumption
    | exact Within.of hT rfl
    | with_reducible apply State.srcShow_kept
    | with_reducible apply State.measure_kept
    | (fail_if_no_progress with_reducible refine Kept.mk' ?_ rfl rfl)

theorem State.ptpTake_kept {T : Nat} {r s : State} {x1 : ℕ} {x2 : List ℕ} (h : Kept T r s) (hT : Within 8388608 T := by
    first | exact Within.refl _ | (refine Within.of (b := ?zb) ?zw ?ze; (case zw => assumption); (case ze => decide))) : KeptS2 T r (State.ptpTake s x1 x2) := by
  unfold State.ptpTake
  repeat' first
    | with_reducible apply KeptS2.ite
    | with_reducible apply Kept.ite2
    | with_reducible apply Kept.ite
    | with_reducible assumption
    | exact Within.of hT rfl
    | with_reducible apply KeptS2.some
    | with_reducible apply KeptS2.none
    | (fail_if_no_progress with_reducible refine Kept.mk' ?_ rfl rfl)
    | (extract_lets +onlyGivenNames x; first | (with_reducible apply Kept.cut (T := T) (r := r) (x := x); on_goal 2 => (intro hx; clear_value x)) | clear_value x)
    | split
theorem State.ptpTake_some {T : Nat} {r s : State} {t : (ℕ × PtpMsg) × State} {x1 : ℕ} {x2 : List ℕ} (h : Kept T r s) (e : (State.ptpTake s x1 x2) = some t) (hT : Within 8388608 T) : Kept T r t.2 := State.ptpTake_kept h (hT := hT) _ e
theorem State.ptpTake_pair {T : Nat} {r s : State} {t} {w : State} {x1 : ℕ} {x2 : List ℕ} (h : Kept T r s) (e : (State.ptpTake s x1 x2) = some (t, w)) (hT : Within 8388608 T) : Kept T r w := State.ptpTake_kept h (hT := hT) _ e

theorem execPtpSyncReceived_kept {T : Nat} {r s : State} {x0 : Fin 4} {x1 : ℤ} {x2 : ℤ} (h : Kept T r s) (hT : Within 25296911 T) : KeptO T r (execPtpSyncReceived x0 x1 x2 s) := by
  unfold execPtpSyncReceived
  repeat' first
    | with_reducible apply KeptO.ite
    | with_reducible apply Kept.ite
    | with_reducible assumption
    | exact Within.of hT rfl
    | with_reducible apply KeptO.next
    | (with_reducible apply State.ptpTake_some; on_goal 2 => assumption)
    | (with_reducible apply State.ptpTake_pair; on_goal 2 => assumption)
    | with_reducible apply State.ptpTake_kept
    | with_reducible apply State.ptpIgnore_kept
    | with_reducible apply State.ptpUse_kept
    | with_reducible apply State.measureFrom_kept
    | (fail_if_no_progress with_reducible refine Kept.mk' ?_ rfl rfl)
    | split

theorem execPtpFollowUpReceived_kept {T : Nat} {r s : State} {x0 : Fin 4} {x1 : ℤ} {x2 : ℤ} (h : Kept T r s) (hT : Within 25296911 T) : KeptO T r (execPtpFollowUpReceived x0 x1 x2 s) := by
  unfold execPtpFollowUpReceived
  repeat' first
    | with_reducible apply KeptO.ite
    | with_reducible apply Kept.ite
    | with_reducible assumption
    | exact Within.of hT rfl
    | with_reducible apply KeptO.next
    | (with_reducible apply State.ptpTake_some; on_goal 2 => assumption)
    | (with_reducible apply State.ptpTake_pair; on_goal 2 => assumption)
    | with_reducible apply State.ptpTake_kept
    | with_reducible apply State.ptpUse_kept
    | with_reducible apply State.measureFrom_kept
    | (fail_if_no_progress with_reducible refine Kept.mk' ?_ rfl rfl)
    | (extract_lets +onlyGivenNames x; first | (with_reducible apply Kept.cut (T := T) (r := r) (x := x); on_goal 2 => (intro hx; clear_value x)) | clear_value x)
    | split

theorem execPtpAnnounceReceived_kept {T : Nat} {r s : State} {x0 : Fin 4} (h : Kept T r s) (hT : Within 25165838 T) : KeptO T r (execPtpAnnounceReceived x0 s) := by
  unfold execPtpAnnounceReceived
  repeat' first
    | with_reducible apply KeptO.ite
    | with_reducible apply Kept.ite
    | with_reducible assumption
    | exact Within.of hT rfl
    | with_reducible apply KeptO.next
    | (with_reducible apply State.ptpTake_some; on_goal 2 => assumption)
    | (with_reducible apply State.ptpTake_pair; on_goal 2 => assumption)
    | with_reducible apply State.ptpTake_kept
    | with_reducible apply State.ptpUse_kept
    | with_reducible apply State.srcShow_kept
    | with_reducible apply State.ptpPick_kept
    | (fail_if_no_progress with_reducible refine Kept.mk' ?_ rfl rfl)
    | split

theorem execPdelayReqSend_kept {T : Nat} {r s : State} {x0 : Fin 4} {x1 : Fin 500} (h : Kept T r s) (hT : Within 25165824 T) : KeptO T r (execPdelayReqSend x0 x1 s) := by
  unfold execPdelayReqSend
  repeat' first
    | with_reducible apply KeptO.ite
    | with_reducible apply Kept.ite
    | with_reducible assumption
    | exact Within.of hT rfl
    | with_reducible apply KeptO.next
    | with_reducible apply State.emit_kept
    | (fail_if_no_progress with_reducible refine Kept.mk' ?_ rfl rfl)

theorem State.pdDone_kept {T : Nat} {r s : State} {x1 : ℕ} {x2 : PdReq} {x3 : ℤ} {x4 : ℤ} {x5 : ℤ} (h : Kept T r s) (hT : Within 8388610 T) : Kept T r (State.pdDone s x1 x2 x3 x4 x5) := by
  unfold State.pdDone
  repeat' first
    | with_reducible apply Kept.ite
    | with_reducible assumption
    | exact Within.of hT rfl
    | with_reducible apply State.set_kept
    | (fail_if_no_progress with_reducible refine Kept.mk' ?_ rfl rfl)

theorem execPdelayRespReceived_kept {T : Nat} {r s : State} {x0 : Fin 4} (h : Kept T r s) (hT : Within 8388610 T) : KeptO T r (execPdelayRespReceived x0 s) := by
  unfold execPdelayRespReceived
  repeat' first
    | with_reducible apply KeptO.ite
    | with_reducible apply Kept.ite
    | with_reducible assumption
    | exact Within.of hT rfl
    | with_reducible apply KeptO.next
    | (with_reducible apply State.ptpTake_some; on_goal 2 => assumption)
    | (with_reducible apply State.ptpTake_pair; on_goal 2 => assumption)
    | with_reducible apply State.ptpTake_kept
    | with_reducible apply State.ptpUse_kept
    | with_reducible apply State.pdDone_kept
    | (fail_if_no_progress with_reducible refine Kept.mk' ?_ rfl rfl)
    | (extract_lets +onlyGivenNames x; first | (with_reducible apply Kept.cut (T := T) (r := r) (x := x); on_goal 2 => (intro hx; clear_value x)) | clear_value x)
    | split

theorem execPpsEdge_kept {T : Nat} {r s : State} {x0 : Fin 500} {x1 : ℤ} {x2 : ℤ} (h : Kept T r s) (hT : Within 25296911 T) : KeptO T r (execPpsEdge x0 x1 x2 s) := by
  unfold execPpsEdge
  repeat' first
    | with_reducible apply KeptO.ite
    | with_reducible apply Kept.ite
    | with_reducible assumption
    | exact Within.of hT rfl
    | with_reducible apply KeptO.next
    | with_reducible apply State.measureFrom_kept
    | (fail_if_no_progress with_reducible refine Kept.mk' ?_ rfl rfl)

theorem State.srcFall_kept {T : Nat} {r s : State} {x1 : List Byte} {x2 : ℕ} (h : Kept T r s) (hT : Within 25296911 T) : Kept T r (State.srcFall s x1 x2) := by
  unfold State.srcFall
  repeat' first
    | with_reducible apply Kept.ite
    | with_reducible assumption
    | exact Within.of hT rfl
    | with_reducible apply State.srcShow_kept
    | with_reducible apply State.enterHold_kept

theorem State.timConfig_kept {T : Nat} {r s : State} {x1 : List Byte} (h : Kept T r s) (hT : Within 25296911 T := by
    first | exact Within.refl _ | (refine Within.of (b := ?zb) ?zw ?ze; (case zw => assumption); (case ze => decide))) : Kept T r (State.timConfig s x1) := by
  unfold State.timConfig
  repeat' first
    | with_reducible apply Kept.ite
    | with_reducible assumption
    | exact Within.of hT rfl
    | with_reducible apply State.srcShow_kept
    | with_reducible apply State.timInvalid_kept
    | with_reducible apply State.timEnter_kept
    | with_reducible apply State.srcFall_kept
    | (fail_if_no_progress with_reducible refine Kept.mk' ?_ rfl rfl)

theorem execSourceLost_kept {T : Nat} {r s : State} {x0 : Bool} (h : Kept T r s) (hT : Within 25296911 T) : KeptO T r (execSourceLost x0 s) := by
  unfold execSourceLost
  repeat' first
    | with_reducible apply KeptO.ite
    | with_reducible apply Kept.ite
    | with_reducible assumption
    | exact Within.of hT rfl
    | with_reducible apply KeptO.next
    | with_reducible apply State.srcFall_kept
    | with_reducible apply State.ptpPick_kept
    | with_reducible apply State.srcShow_kept
    | (fail_if_no_progress with_reducible refine Kept.mk' ?_ rfl rfl)

theorem State.ptpOff_kept {T : Nat} {r s : State} {x1 : ℕ} (h : Kept T r s) (hT : Within 25296911 T) : Kept T r (State.ptpOff s x1) := by
  unfold State.ptpOff
  repeat' first
    | with_reducible apply Kept.ite
    | with_reducible assumption
    | exact Within.of hT rfl
    | with_reducible apply State.ptpPick_kept
    | with_reducible apply State.srcFall_kept
    | with_reducible apply State.srcShow_kept
    | (fail_if_no_progress with_reducible refine Kept.mk' ?_ rfl rfl)

theorem execRefOk_kept {T : Nat} {r s : State}  (h : Kept T r s) (hT : Within 16777230 T) : KeptO T r (execRefOk s) := by
  unfold execRefOk
  repeat' first
    | with_reducible apply KeptO.ite
    | with_reducible apply Kept.ite
    | with_reducible assumption
    | exact Within.of hT rfl
    | with_reducible apply KeptO.next
    | with_reducible apply State.srcShow_kept
    | with_reducible apply State.set_kept

theorem execRefFail_kept {T : Nat} {r s : State}  (h : Kept T r s) (hT : Within 16777230 T) : KeptO T r (execRefFail s) := by
  unfold execRefFail
  repeat' first
    | with_reducible assumption
    | exact Within.of hT rfl
    | with_reducible apply KeptO.next
    | with_reducible apply State.srcShow_kept
    | with_reducible apply State.set_kept

theorem execHoldoverExpired_kept {T : Nat} {r s : State}  (h : Kept T r s) (hT : Within 25296911 T) : KeptO T r (execHoldoverExpired s) := by
  unfold execHoldoverExpired
  repeat' first
    | with_reducible apply KeptO.ite
    | with_reducible apply Kept.ite
    | with_reducible assumption
    | exact Within.of hT rfl
    | with_reducible apply KeptO.next
    | with_reducible apply State.timInvalid_kept

theorem State.rtcWrite_kept {T : Nat} {r s : State}  (h : Kept T r s) (hT : Within 8388612 T) : Kept T r (State.rtcWrite s) := by
  unfold State.rtcWrite
  repeat' first
    | with_reducible apply Kept.ite
    | with_reducible assumption
    | exact Within.of hT rfl
    | (fail_if_no_progress with_reducible refine Kept.mk' ?_ rfl rfl)

theorem State.stepSettles_kept {T : Nat} {r s : State}  (h : Kept T r s) (hT : Within 128 T := by
    first | exact Within.refl _ | (refine Within.of (b := ?zb) ?zw ?ze; (case zw => assumption); (case ze => decide))) : Kept T r (State.stepSettles s) := by
  unfold State.stepSettles
  repeat' first
    | with_reducible apply Kept.ite
    | with_reducible assumption
    | exact Within.of hT rfl
    | with_reducible apply State.settle_kept
    | (fail_if_no_progress with_reducible refine Kept.mk' ?_ rfl rfl)
    | (with_reducible apply Kept.foldl; on_goal 2 => (intro _ _ _; beta_reduce))
    | (with_reducible apply Kept.foldlSnd; on_goal 2 => (intro _ _ _; beta_reduce))
    | split

theorem State.applyStep_kept {T : Nat} {r s : State} {x1 : ℤ} {x2 : ℕ} (h : Kept T r s) (hT : Within 25821327 T := by
    first | exact Within.refl _ | (refine Within.of (b := ?zb) ?zw ?ze; (case zw => assumption); (case ze => decide))) : Kept T r (State.applyStep s x1 x2) := by
  unfold State.applyStep
  repeat' first
    | with_reducible apply Kept.ite
    | with_reducible assumption
    | exact Within.of hT rfl
    | with_reducible apply State.enterAcq_kept
    | with_reducible apply State.set64_kept
    | with_reducible apply State.set_kept
    | with_reducible apply State.log_kept
    | with_reducible apply State.raise_kept
    | with_reducible apply State.bump_kept
    | with_reducible apply State.lftEvent_kept
    | with_reducible apply State.stepSettles_kept
    | with_reducible apply State.rtcWrite_kept
    | (fail_if_no_progress with_reducible refine Kept.mk' ?_ rfl rfl)

theorem State.timResult_kept {T : Nat} {r s : State} {x1 : ℕ} (h : Kept T r s) (hT : Within 2 T) : Kept T r (State.timResult s x1) := by
  unfold State.timResult
  repeat' first
    | with_reducible assumption
    | exact Within.of hT rfl
    | with_reducible apply State.set_kept

theorem execTimeStep_kept {T : Nat} {r s : State}  (h : Kept T r s) (hT : Within 25821327 T) : KeptO T r (execTimeStep s) := by
  unfold execTimeStep
  repeat' first
    | with_reducible apply KeptO.ite
    | with_reducible apply Kept.ite
    | with_reducible assumption
    | exact Within.of hT rfl
    | with_reducible apply KeptO.next
    | with_reducible apply State.timResult_kept
    | with_reducible apply State.applyStep_kept
    | (fail_if_no_progress with_reducible refine Kept.mk' ?_ rfl rfl)
    | split

theorem execAccept_kept {T : Nat} {r s : State} {x0 : Fin 2} {x1 : Word} (h : Kept T r s) (hT : Within 25165854 T) : KeptO T r (execAccept x0 x1 s) := by
  unfold execAccept
  repeat' first
    | with_reducible apply KeptO.ite
    | with_reducible apply Kept.ite
    | with_reducible assumption
    | exact Within.of hT rfl
    | with_reducible apply KeptO.next
    | (with_reducible apply whenAllowed_kept; on_goal 2 => (intro _ _; beta_reduce))
    | with_reducible apply State.gate_kept
    | with_reducible apply State.timResult_kept
    | with_reducible apply State.stepAsk_kept

theorem execAckAsym_kept {T : Nat} {r s : State} {x0 : Fin 2} {x1 : Word} (h : Kept T r s) (hT : Within 25296927 T) : KeptO T r (execAckAsym x0 x1 s) := by
  unfold execAckAsym
  repeat' first
    | with_reducible apply KeptO.ite
    | with_reducible apply Kept.ite
    | with_reducible assumption
    | exact Within.of hT rfl
    | with_reducible apply KeptO.next
    | (with_reducible apply whenAllowed_kept; on_goal 2 => (intro _ _; beta_reduce))
    | with_reducible apply State.gate_kept
    | with_reducible apply State.timResult_kept
    | with_reducible apply State.onJump_kept
    | with_reducible apply State.log_kept

theorem execHstep_kept {T : Nat} {r s : State} {x0 : Fin 2} {x1 : Word} (h : Kept T r s) (hT : Within 25165854 T) : KeptO T r (execHstep x0 x1 s) := by
  unfold execHstep
  repeat' first
    | with_reducible apply KeptO.ite
    | with_reducible apply Kept.ite
    | with_reducible assumption
    | exact Within.of hT rfl
    | with_reducible apply KeptO.next
    | (with_reducible apply whenAllowed_kept; on_goal 2 => (intro _ _; beta_reduce))
    | with_reducible apply State.gate_kept
    | with_reducible apply State.timResult_kept
    | with_reducible apply State.stepAsk_kept

theorem execRtcUpdate_kept {T : Nat} {r s : State}  (h : Kept T r s) (hT : Within 8388612 T) : KeptO T r (execRtcUpdate s) := by
  unfold execRtcUpdate
  repeat' first
    | with_reducible apply KeptO.ite
    | with_reducible apply Kept.ite
    | with_reducible assumption
    | exact Within.of hT rfl
    | with_reducible apply KeptO.next
    | with_reducible apply State.rtcWrite_kept

theorem execPpsOutPulse_kept {T : Nat} {r s : State}  (h : Kept T r s) (hT : Within 8388608 T) : KeptO T r (execPpsOutPulse s) := by
  unfold execPpsOutPulse
  repeat' first
    | with_reducible apply KeptO.ite
    | with_reducible apply Kept.ite
    | with_reducible assumption
    | exact Within.of hT rfl
    | with_reducible apply KeptO.next
    | (fail_if_no_progress with_reducible refine Kept.mk' ?_ rfl rfl)

theorem State.timTick_kept {T : Nat} {r s : State}  (h : Kept T r s) (hT : Within 8388610 T := by
    first | exact Within.refl _ | (refine Within.of (b := ?zb) ?zw ?ze; (case zw => assumption); (case ze => decide))) : Kept T r (State.timTick s) := by
  unfold State.timTick
  repeat' first
    | with_reducible apply Kept.ite
    | with_reducible assumption
    | exact Within.of hT rfl
    | with_reducible apply State.freqTick_kept
    | with_reducible apply State.set_kept
    | (fail_if_no_progress with_reducible refine Kept.mk' ?_ rfl rfl)
    | (extract_lets +onlyGivenNames x; first | (with_reducible apply Kept.cut (T := T) (r := r) (x := x); on_goal 2 => (intro hx; clear_value x)) | clear_value x)
    | split

/-! ## Machine/TimEv.lean -/

theorem State.armUnit_kept {T : Nat} {r s : State} {x1 : ℕ} (h : Kept T r s) (hT : Within 8388610 T) : Kept T r (State.armUnit s x1) := by
  unfold State.armUnit
  repeat' first
    | with_reducible apply Kept.ite
    | with_reducible assumption
    | exact Within.of hT rfl
    | with_reducible apply State.set_kept
    | (fail_if_no_progress with_reducible refine Kept.mk' ?_ rfl rfl)

theorem State.teWrite_kept {T : Nat} {r s : State} {x1 : ℕ} {x2 : ℕ} {x3 : Word} (h : Kept T r s) (hT : Within 16777230 T) : Kept T r (State.teWrite s x1 x2 x3) := by
  unfold State.teWrite
  repeat' first
    | with_reducible apply Kept.ite
    | with_reducible assumption
    | exact Within.of hT rfl
    | with_reducible apply State.deny_kept
    | with_reducible apply State.wrFields_kept

theorem execTeArm_kept {T : Nat} {r s : State} {x0 : Fin 2} {x1 : Fin 16} {x2 : Word} (h : Kept T r s) (hT : Within 25165854 T) : KeptO T r (execTeArm x0 x1 x2 s) := by
  unfold execTeArm
  repeat' first
    | with_reducible apply KeptO.ite
    | with_reducible apply Kept.ite
    | with_reducible assumption
    | exact Within.of hT rfl
    | with_reducible apply KeptO.next
    | (with_reducible apply whenAllowed_kept; on_goal 2 => (intro _ _; beta_reduce))
    | with_reducible apply State.gate_kept
    | with_reducible apply State.teWrite_kept
    | with_reducible apply State.armUnit_kept

theorem execTeDisarm_kept {T : Nat} {r s : State} {x0 : Fin 2} {x1 : Fin 16} {x2 : Word} (h : Kept T r s) (hT : Within 16777246 T) : KeptO T r (execTeDisarm x0 x1 x2 s) := by
  unfold execTeDisarm
  repeat' first
    | with_reducible apply KeptO.ite
    | with_reducible apply Kept.ite
    | with_reducible assumption
    | exact Within.of hT rfl
    | with_reducible apply KeptO.next
    | (with_reducible apply whenAllowed_kept; on_goal 2 => (intro _ _; beta_reduce))
    | with_reducible apply State.gate_kept
    | with_reducible apply State.teWrite_kept
    | with_reducible apply State.set_kept

theorem State.tpoLevels_kept {T : Nat} {r s : State}  (h : Kept T r s) (hT : Within 2 T) : Kept T r (State.tpoLevels s) := by
  unfold State.tpoLevels
  repeat' first
    | with_reducible apply Kept.ite
    | with_reducible assumption
    | exact Within.of hT rfl
    | with_reducible apply State.set_kept
    | (fail_if_no_progress with_reducible refine Kept.mk' ?_ rfl rfl)
    | (with_reducible apply Kept.foldl; on_goal 2 => (intro _ _ _; beta_reduce))
    | (with_reducible apply Kept.foldlSnd; on_goal 2 => (intro _ _ _; beta_reduce))
    | split

theorem State.teEvents_kept {T : Nat} {r s : State} {x1 : ℕ} (h : Kept T r s) (hT : Within 17571854 T) : Kept T r (State.teEvents s x1) := by
  unfold State.teEvents
  repeat' first
    | with_reducible apply Kept.ite
    | with_reducible assumption
    | exact Within.of hT rfl
    | with_reducible apply State.raise_kept
    | with_reducible apply State.set64_kept
    | with_reducible apply State.bump_kept
    | with_reducible apply State.pendEvent_kept
    | with_reducible apply State.logNamed_kept
    | (fail_if_no_progress with_reducible refine Kept.mk' ?_ rfl rfl)

theorem State.tePulse_kept {T : Nat} {r s : State} {x1 : ℕ} {x2 : ℕ} (h : Kept T r s) (hT : Within 8388610 T) : Kept T r (State.tePulse s x1 x2) := by
  unfold State.tePulse
  repeat' first
    | with_reducible apply Kept.ite
    | with_reducible assumption
    | exact Within.of hT rfl
    | with_reducible apply State.tpoLevels_kept
    | (fail_if_no_progress with_reducible refine Kept.mk' ?_ rfl rfl)

theorem execTimedEventFire_kept {T : Nat} {r s : State} {x0 : Fin 16} (h : Kept T r s) (hT : Within 25960462 T) : KeptO T r (execTimedEventFire x0 s) := by
  unfold execTimedEventFire
  repeat' first
    | with_reducible apply KeptO.ite
    | with_reducible apply Kept.ite
    | with_reducible assumption
    | exact Within.of hT rfl
    | with_reducible apply KeptO.next
    | with_reducible apply State.tePulse_kept
    | with_reducible apply State.teEvents_kept
    | with_reducible apply State.set_kept
    | with_reducible apply State.bumpBy_kept
    | with_reducible apply State.log_kept
    | (fail_if_no_progress with_reducible refine Kept.mk' ?_ rfl rfl)

theorem execTpoPulseEnd_kept {T : Nat} {r s : State} {x0 : Fin 16} (h : Kept T r s) (hT : Within 8388610 T) : KeptO T r (execTpoPulseEnd x0 s) := by
  unfold execTpoPulseEnd
  repeat' first
    | with_reducible apply KeptO.ite
    | with_reducible apply Kept.ite
    | with_reducible assumption
    | exact Within.of hT rfl
    | with_reducible apply KeptO.next
    | with_reducible apply State.tpoLevels_kept
    | (fail_if_no_progress with_reducible refine Kept.mk' ?_ rfl rfl)

theorem State.tciShow_kept {T : Nat} {r s : State} {x1 : ℕ} (h : Kept T r s) (hT : Within 2 T) : Kept T r (State.tciShow s x1) := by
  unfold State.tciShow
  repeat' first
    | with_reducible assumption
    | exact Within.of hT rfl
    | with_reducible apply State.set64_kept
    | with_reducible apply State.set_kept
    | with_reducible apply State.wr_kept

theorem execTciCapture_kept {T : Nat} {r s : State} {x0 : Fin 2} {x1 : Bool} {x2 : Fin 500} (h : Kept T r s) (hT : Within 25165838 T) : KeptO T r (execTciCapture x0 x1 x2 s) := by
  unfold execTciCapture
  repeat' first
    | with_reducible apply KeptO.ite
    | with_reducible apply Kept.ite
    | with_reducible assumption
    | exact Within.of hT rfl
    | with_reducible apply KeptO.next
    | with_reducible apply State.log_kept
    | with_reducible apply State.raise_kept
    | with_reducible apply State.set_kept
    | with_reducible apply State.tciShow_kept
    | (fail_if_no_progress with_reducible refine Kept.mk' ?_ rfl rfl)

theorem execTciPop_kept {T : Nat} {r s : State} {x0 : Fin 2} {x1 : Fin 2} {x2 : Word} (h : Kept T r s) (hT : Within 25165854 T) : KeptO T r (execTciPop x0 x1 x2 s) := by
  unfold execTciPop
  repeat' first
    | with_reducible apply KeptO.ite
    | with_reducible apply Kept.ite
    | with_reducible assumption
    | exact Within.of hT rfl
    | with_reducible apply KeptO.next
    | (with_reducible apply whenAllowed_kept; on_goal 2 => (intro _ _; beta_reduce))
    | with_reducible apply State.gate_kept
    | with_reducible apply State.wrFields_kept
    | with_reducible apply State.tciShow_kept
    | (fail_if_no_progress with_reducible refine Kept.mk' ?_ rfl rfl)

end Sys2Proof.Machine
end

