-- ==== Sys2Proof/Laws/KeptCel.lean ====
section
/-!
SUPPORT. Laws/KeptCel.lean: what each operation of the Cellar and host accesses keeps (the relation Kept of Laws/Kept.lean), one lemma
per operation.
-/
set_option linter.unusedTactic false
set_option linter.unreachableTactic false
set_option linter.unusedVariables false
set_option Elab.async false
namespace Sys2Proof.Machine
open Sys2Proof

/-! ## Machine/Cel.lean -/

theorem State.setBank_kept {T : Nat} {r s : State} {x1 : ℕ} {x2 : KV (Option Entry)} (h : Kept T r s) (hT : Within 4 T) : Kept T r (State.setBank s x1 x2) := by
  unfold State.setBank
  repeat' first
    | with_reducible apply Kept.ite
    | with_reducible assumption
    | exact Within.of hT rfl
    | (fail_if_no_progress with_reducible refine Kept.mk' ?_ rfl rfl)

theorem State.celCount_kept {T : Nat} {r s : State}  (h : Kept T r s) (hT : Within 2 T) : Kept T r (State.celCount s) := by
  unfold State.celCount
  repeat' first
    | with_reducible assumption
    | exact Within.of hT rfl
    | with_reducible apply State.set64_kept
    | with_reducible apply State.set_kept

theorem State.setLastWord_kept {T : Nat} {r s : State} {x1 : List Byte} (h : Kept T r s) (hT : Within 6 T := by
    first | exact Within.refl _ | (refine Within.of (b := ?zb) ?zw ?ze; (case zw => assumption); (case ze => decide))) : Kept T r (State.setLastWord s x1) := by
  unfold State.setLastWord
  repeat' first
    | with_reducible apply Kept.ite
    | with_reducible assumption
    | exact Within.of hT rfl
    | with_reducible apply State.wr_kept
    | (fail_if_no_progress with_reducible refine Kept.mk' ?_ rfl rfl)
    | (with_reducible apply Kept.foldl; on_goal 2 => (intro _ _ _; beta_reduce))
    | (with_reducible apply Kept.foldlSnd; on_goal 2 => (intro _ _ _; beta_reduce))
    | split

theorem State.mutePin_kept {T : Nat} {r s : State} {x1 : Bool} (h : Kept T r s) (hT : Within 16908290 T := by
    first | exact Within.refl _ | (refine Within.of (b := ?zb) ?zw ?ze; (case zw => assumption); (case ze => decide))) : Kept T r (State.mutePin s x1) := by
  unfold State.mutePin
  repeat' first
    | with_reducible assumption
    | exact Within.of hT rfl
    | with_reducible apply State.gooseStatus_kept
    | with_reducible apply State.set_kept

theorem State.nextSeq_kept {T : Nat} {r s : State}  (h : Kept T r s) (hT : Within 4 T) : Kept T r (State.nextSeq s).2 := by
  unfold State.nextSeq
  repeat' first
    | with_reducible apply Kept.ite2
    | with_reducible apply Kept.ite
    | with_reducible assumption
    | exact Within.of hT rfl
    | (fail_if_no_progress with_reducible refine Kept.mk' ?_ rfl rfl)

theorem State.cellarDead_kept {T : Nat} {r s : State} {x1 : ℕ} {x2 : ℕ} {x3 : ℕ} {x4 : ℕ} {x5 : ℕ} (h : Kept T r s) (hT : Within 16908302 T) : Kept T r (State.cellarDead s x1 x2 x3 x4 x5) := by
  unfold State.cellarDead
  repeat' first
    | with_reducible assumption
    | exact Within.of hT rfl
    | with_reducible apply State.nextSeq_kept
    | with_reducible apply State.celCount_kept
    | with_reducible apply State.raise_kept
    | with_reducible apply State.mutePin_kept
    | with_reducible apply State.setLastWord_kept

theorem State.failBank_kept {T : Nat} {r s : State} {x1 : ℕ} {x2 : ℕ} (h : Kept T r s) (hT : Within 6 T) : Kept T r (State.failBank s x1 x2) := by
  unfold State.failBank
  repeat' first
    | with_reducible apply Kept.ite
    | with_reducible assumption
    | exact Within.of hT rfl
    | with_reducible apply State.set_kept
    | (fail_if_no_progress with_reducible refine Kept.mk' ?_ rfl rfl)

theorem State.reportBank_kept {T : Nat} {r s : State} {x1 : ℕ} {x2 : ℕ} (h : Kept T r s) (hT : Within 16777230 T) : Kept T r (State.reportBank s x1 x2) := by
  unfold State.reportBank
  repeat' first
    | with_reducible assumption
    | exact Within.of hT rfl
    | with_reducible apply State.log_kept
    | with_reducible apply State.raise_kept

theorem State.writeSlot_kept {T : Nat} {r s : State} {x1 : Entry} {x2 : ℕ} {x3 : ℕ} {x4 : ℕ} (h : Kept T r s) (hT : Within 16908302 T) : Kept T r (State.writeSlot s x1 x2 x3 x4) := by
  unfold State.writeSlot
  repeat' first
    | with_reducible apply Kept.ite
    | with_reducible assumption
    | exact Within.of hT rfl
    | with_reducible apply State.failBank_kept
    | with_reducible apply State.cellarDead_kept
    | with_reducible apply State.setBank_kept
    | with_reducible apply State.reportBank_kept
    | with_reducible apply State.celCount_kept

theorem State.toBanks_kept {T : Nat} {r s : State} {x1 : Entry} {x2 : List ℕ} {x3 : ℕ} {x4 : ℕ} (h : Kept T r s) (hT : Within 16908302 T) : Kept T r (State.toBanks s x1 x2 x3 x4) := by
  unfold State.toBanks
  repeat' first
    | with_reducible apply Kept.ite
    | with_reducible assumption
    | exact Within.of hT rfl
    | with_reducible apply State.writeSlot_kept
    | with_reducible apply State.raise_kept
    | with_reducible apply State.bump_kept
    | (fail_if_no_progress with_reducible refine Kept.mk' ?_ rfl rfl)
    | split

theorem State.celPut_kept {T : Nat} {r s : State} {x1 : Entry} {x2 : List ℕ} {x3 : ℕ} {x4 : ℕ} (h : Kept T r s) (hT : Within 16908302 T) : Kept T r (State.celPut s x1 x2 x3 x4) := by
  unfold State.celPut
  repeat' first
    | with_reducible apply Kept.ite
    | with_reducible assumption
    | exact Within.of hT rfl
    | with_reducible apply State.bump_kept
    | with_reducible apply State.toBanks_kept

theorem State.setCubby_kept {T : Nat} {r s : State} {x1 : List Entry} (h : Kept T r s) (hT : Within 6 T) : Kept T r (State.setCubby s x1) := by
  unfold State.setCubby
  repeat' first
    | with_reducible apply Kept.ite
    | with_reducible assumption
    | exact Within.of hT rfl
    | with_reducible apply State.set_kept
    | (fail_if_no_progress with_reducible refine Kept.mk' ?_ rfl rfl)

theorem State.thaw_kept {T : Nat} {r s : State} {x1 : ℕ} {x2 : ℕ} {x3 : CelPuts} (h : Kept T r s) (hT : Within 16908302 T := by
    first | exact Within.refl _ | (refine Within.of (b := ?zb) ?zw ?ze; (case zw => assumption); (case ze => decide))) : Kept T r (State.thaw s x1 x2 x3) := by
  unfold State.thaw
  repeat' first
    | with_reducible apply Kept.ite
    | with_reducible assumption
    | exact Within.of hT rfl
    | with_reducible apply State.setCubby_kept
    | with_reducible apply State.set_kept
    | with_reducible apply State.celPut_kept
    | with_reducible apply State.nextSeq_kept
    | with_reducible apply State.raise_kept
    | (fail_if_no_progress with_reducible refine Kept.mk' ?_ rfl rfl)
    | (with_reducible apply Kept.foldl; on_goal 2 => (intro _ _ _; beta_reduce))
    | (with_reducible apply Kept.foldlSnd; on_goal 2 => (intro _ _ _; beta_reduce))
    | split

theorem State.forceThaw_kept {T : Nat} {r s : State} {x1 : ℕ} {x2 : CelPuts} (h : Kept T r s) (hT : Within 16908302 T := by
    first | exact Within.refl _ | (refine Within.of (b := ?zb) ?zw ?ze; (case zw => assumption); (case ze => decide))) : Kept T r (State.forceThaw s x1 x2) := by
  unfold State.forceThaw
  repeat' first
    | with_reducible apply Kept.ite
    | with_reducible assumption
    | exact Within.of hT rfl
    | with_reducible apply State.thaw_kept
    | (fail_if_no_progress with_reducible refine Kept.mk' ?_ rfl rfl)

theorem State.freezeSettle_kept {T : Nat} {r s : State}  (h : Kept T r s) (hT : Within 6 T) : Kept T r (State.freezeSettle s) := by
  unfold State.freezeSettle
  repeat' first
    | with_reducible apply Kept.ite
    | with_reducible assumption
    | exact Within.of hT rfl
    | with_reducible apply State.set_kept
    | (fail_if_no_progress with_reducible refine Kept.mk' ?_ rfl rfl)

theorem State.setBucket_kept {T : Nat} {r s : State} {x1 : ℕ} {x2 : Bucket} (h : Kept T r s) (hT : Within 4 T) : Kept T r (State.setBucket s x1 x2) := by
  unfold State.setBucket
  repeat' first
    | with_reducible apply Kept.ite
    | with_reducible assumption
    | exact Within.of hT rfl
    | (fail_if_no_progress with_reducible refine Kept.mk' ?_ rfl rfl)

theorem State.celPass_kept {T : Nat} {r s : State} {x1 : ℕ} {x2 : ℕ} (h : Kept T r s) (hT : Within 4 T) : Kept T r (State.celPass s x1 x2).2 := by
  unfold State.celPass
  repeat' first
    | with_reducible apply Kept.ite2
    | with_reducible apply Kept.ite
    | with_reducible assumption
    | exact Within.of hT rfl
    | with_reducible apply State.setBucket_kept

theorem State.takeSupp_kept {T : Nat} {r s : State} {x1 : ℕ} (h : Kept T r s) (hT : Within 4 T) : Kept T r (State.takeSupp s x1).2 := by
  unfold State.takeSupp
  repeat' first
    | with_reducible apply Kept.ite2
    | with_reducible apply Kept.ite
    | with_reducible assumption
    | exact Within.of hT rfl
    | with_reducible apply State.setBucket_kept

theorem State.snapFill_kept {T : Nat} {r s : State}  (h : Kept T r s) (hT : Within 4 T := by
    first | exact Within.refl _ | (refine Within.of (b := ?zb) ?zw ?ze; (case zw => assumption); (case ze => decide))) : Kept T r (State.snapFill s) := by
  unfold State.snapFill
  repeat' first
    | with_reducible apply Kept.ite
    | with_reducible assumption
    | exact Within.of hT rfl
    | (fail_if_no_progress with_reducible refine Kept.mk' ?_ rfl rfl)

theorem execCellarEnqueue_kept {T : Nat} {r s : State} {x0 : Raised} (h : Kept T r s) (hT : Within 16777230 T) : KeptO T r (execCellarEnqueue x0 s) := by
  unfold execCellarEnqueue
  repeat' first
    | with_reducible assumption
    | exact Within.of hT rfl
    | with_reducible apply KeptO.next
    | with_reducible apply State.enqueue_kept

theorem State.celAdmit_kept {T : Nat} {r s : State} {x1 : Entry} {x2 : CelPuts} {x3 : ℕ} {x4 : ℕ} (h : Kept T r s) (hT : Within 16908302 T := by
    first | exact Within.refl _ | (refine Within.of (b := ?zb) ?zw ?ze; (case zw => assumption); (case ze => decide))) : Kept T r (State.celAdmit s x1 x2 x3 x4) := by
  unfold State.celAdmit
  repeat' first
    | with_reducible apply Kept.ite
    | with_reducible assumption
    | exact Within.of hT rfl
    | with_reducible apply State.thaw_kept
    | with_reducible apply State.nextSeq_kept
    | with_reducible apply State.celPut_kept
    | with_reducible apply State.setCubby_kept
    | (fail_if_no_progress with_reducible refine Kept.mk' ?_ rfl rfl)

theorem execCellarAdmit_kept {T : Nat} {r s : State} {x0 : CelPuts} {x1 : Fin 3} {x2 : Fin 3} (h : Kept T r s) (hT : Within 16908302 T := by
    first | exact Within.refl _ | (refine Within.of (b := ?zb) ?zw ?ze; (case zw => assumption); (case ze => decide))) : KeptO T r (execCellarAdmit x0 x1 x2 s) := by
  unfold execCellarAdmit
  repeat' first
    | with_reducible apply KeptO.ite
    | with_reducible apply Kept.ite
    | with_reducible assumption
    | exact Within.of hT rfl
    | with_reducible apply KeptO.next
    | with_reducible apply State.freezeSettle_kept
    | with_reducible apply State.celPass_kept
    | with_reducible apply State.takeSupp_kept
    | with_reducible apply State.celAdmit_kept
    | (fail_if_no_progress with_reducible refine Kept.mk' ?_ rfl rfl)
    | (extract_lets +onlyGivenNames x; first | (with_reducible apply Kept.cut (T := T) (r := r) (x := x); on_goal 2 => (intro hx; clear_value x)) | clear_value x)
    | split

theorem execSuppressed_kept {T : Nat} {r s : State}  (h : Kept T r s) (hT : Within 16777230 T) : KeptO T r (execSuppressed s) := by
  unfold execSuppressed
  repeat' first
    | with_reducible apply KeptO.ite
    | with_reducible apply Kept.ite
    | with_reducible assumption
    | exact Within.of hT rfl
    | with_reducible apply KeptO.next
    | with_reducible apply State.setBucket_kept
    | with_reducible apply State.log_kept
    | (fail_if_no_progress with_reducible refine Kept.mk' ?_ rfl rfl)
    | (with_reducible apply Kept.foldl; on_goal 2 => (intro _ _ _; beta_reduce))
    | (with_reducible apply Kept.foldlSnd; on_goal 2 => (intro _ _ _; beta_reduce))
    | split

theorem State.showWindow_kept {T : Nat} {r s : State} {x1 : ℕ} {x2 : Option Entry} (h : Kept T r s) (hT : Within 2 T) : Kept T r (State.showWindow s x1 x2) := by
  unfold State.showWindow
  repeat' first
    | with_reducible apply Kept.ite
    | with_reducible assumption
    | exact Within.of hT rfl
    | with_reducible apply State.wr_kept
    | with_reducible apply State.set_kept
    | with_reducible apply State.set64_kept
    | (fail_if_no_progress with_reducible refine Kept.mk' ?_ rfl rfl)
    | (with_reducible apply Kept.foldl; on_goal 2 => (intro _ _ _; beta_reduce))
    | (with_reducible apply Kept.foldlSnd; on_goal 2 => (intro _ _ _; beta_reduce))
    | split

theorem State.celShow_kept {T : Nat} {r s : State} {x1 : ℕ} {x2 : ℕ} {x3 : Bool} (h : Kept T r s) (hT : Within 2 T) : Kept T r (State.celShow s x1 x2 x3) := by
  unfold State.celShow
  repeat' first
    | with_reducible apply Kept.ite
    | with_reducible assumption
    | exact Within.of hT rfl
    | with_reducible apply State.showWindow_kept
    | with_reducible apply State.set64_kept
    | (fail_if_no_progress with_reducible refine Kept.mk' ?_ rfl rfl)
    | (extract_lets +onlyGivenNames x; first | (with_reducible apply Kept.cut (T := T) (r := r) (x := x); on_goal 2 => (intro hx; clear_value x)) | clear_value x)
    | split

theorem execCelCursorWrite_kept {T : Nat} {r s : State} {x0 : Fin 2} {x1 : Word} (h : Kept T r s) (hT : Within 16777246 T) : KeptO T r (execCelCursorWrite x0 x1 s) := by
  unfold execCelCursorWrite
  repeat' first
    | with_reducible assumption
    | exact Within.of hT rfl
    | with_reducible apply KeptO.next
    | (with_reducible apply whenAllowed_kept; on_goal 2 => (intro _ _; beta_reduce))
    | with_reducible apply State.gate_kept
    | with_reducible apply State.commit64_kept
    | with_reducible apply State.celShow_kept
    | with_reducible apply State.set64_kept

theorem execCelStep_kept {T : Nat} {r s : State} {x0 : Fin 2} {x1 : Word} (h : Kept T r s) (hT : Within 16777246 T) : KeptO T r (execCelStep x0 x1 s) := by
  unfold execCelStep
  repeat' first
    | with_reducible apply KeptO.ite
    | with_reducible apply Kept.ite
    | with_reducible assumption
    | exact Within.of hT rfl
    | with_reducible apply KeptO.next
    | (with_reducible apply whenAllowed_kept; on_goal 2 => (intro _ _; beta_reduce))
    | with_reducible apply State.gate_kept
    | with_reducible apply State.celShow_kept

theorem execFreeze_kept {T : Nat} {r s : State} {x0 : Fin 2} {x1 : Word} (h : Kept T r s) (hT : Within 16777246 T) : KeptO T r (execFreeze x0 x1 s) := by
  unfold execFreeze
  repeat' first
    | with_reducible apply KeptO.ite
    | with_reducible apply Kept.ite
    | with_reducible assumption
    | exact Within.of hT rfl
    | with_reducible apply KeptO.next
    | (with_reducible apply whenAllowed_kept; on_goal 2 => (intro _ _; beta_reduce))
    | with_reducible apply State.gate_kept
    | with_reducible apply State.log_kept
    | (fail_if_no_progress with_reducible refine Kept.mk' ?_ rfl rfl)

theorem execThaw_kept {T : Nat} {r s : State} {x0 : Fin 2} {x1 : Word} {x2 : CelPuts} (h : Kept T r s) (hT : Within 16908318 T := by
    first | exact Within.refl _ | (refine Within.of (b := ?zb) ?zw ?ze; (case zw => assumption); (case ze => decide))) : KeptO T r (execThaw x0 x1 x2 s) := by
  unfold execThaw
  repeat' first
    | with_reducible apply KeptO.ite
    | with_reducible apply Kept.ite
    | with_reducible assumption
    | exact Within.of hT rfl
    | with_reducible apply KeptO.next
    | (with_reducible apply whenAllowed_kept; on_goal 2 => (intro _ _; beta_reduce))
    | with_reducible apply State.gate_kept
    | with_reducible apply State.thaw_kept
    | (fail_if_no_progress with_reducible refine Kept.mk' ?_ rfl rfl)

theorem execFreezeTimeout_kept {T : Nat} {r s : State} {x0 : CelPuts} (h : Kept T r s) (hT : Within 16908302 T := by
    first | exact Within.refl _ | (refine Within.of (b := ?zb) ?zw ?ze; (case zw => assumption); (case ze => decide))) : KeptO T r (execFreezeTimeout x0 s) := by
  unfold execFreezeTimeout
  repeat' first
    | with_reducible apply KeptO.ite
    | with_reducible apply Kept.ite
    | with_reducible assumption
    | exact Within.of hT rfl
    | with_reducible apply KeptO.next
    | with_reducible apply State.forceThaw_kept
    | with_reducible apply State.freezeSettle_kept
    | (fail_if_no_progress with_reducible refine Kept.mk' ?_ rfl rfl)

theorem State.repairSlot_kept {T : Nat} {r s : State} {x1 : ℕ} {x2 : ℕ} {x3 : ℕ} {x4 : Entry} (h : Kept T r s) (hT : Within 16777230 T := by
    first | exact Within.refl _ | (refine Within.of (b := ?zb) ?zw ?ze; (case zw => assumption); (case ze => decide))) : Kept T r (State.repairSlot s x1 x2 x3 x4) := by
  unfold State.repairSlot
  repeat' first
    | with_reducible apply Kept.ite
    | with_reducible assumption
    | exact Within.of hT rfl
    | with_reducible apply State.reportBank_kept
    | with_reducible apply State.failBank_kept
    | with_reducible apply State.setBank_kept
    | with_reducible apply State.log_kept
    | with_reducible apply State.raise_kept
    | with_reducible apply State.bump_kept
    | (fail_if_no_progress with_reducible refine Kept.mk' ?_ rfl rfl)

theorem State.loseSlot_kept {T : Nat} {r s : State} {x1 : ℕ} {x2 : ℕ} (h : Kept T r s) (hT : Within 16777230 T := by
    first | exact Within.refl _ | (refine Within.of (b := ?zb) ?zw ?ze; (case zw => assumption); (case ze => decide))) : Kept T r (State.loseSlot s x1 x2) := by
  unfold State.loseSlot
  repeat' first
    | with_reducible apply Kept.ite
    | with_reducible assumption
    | exact Within.of hT rfl
    | with_reducible apply State.setBank_kept
    | with_reducible apply State.celCount_kept
    | with_reducible apply State.log_kept
    | with_reducible apply State.raise_kept
    | with_reducible apply State.bump_kept
    | (fail_if_no_progress with_reducible refine Kept.mk' ?_ rfl rfl)

theorem State.bankFault_kept {T : Nat} {r s : State} {x1 : ℕ} {x2 : ℕ} (h : Kept T r s) (hT : Within 16777230 T := by
    first | exact Within.refl _ | (refine Within.of (b := ?zb) ?zw ?ze; (case zw => assumption); (case ze => decide))) : Kept T r (State.bankFault s x1 x2) := by
  unfold State.bankFault
  repeat' first
    | with_reducible apply Kept.ite
    | with_reducible assumption
    | exact Within.of hT rfl
    | with_reducible apply State.reportBank_kept
    | with_reducible apply State.failBank_kept
    | (fail_if_no_progress with_reducible refine Kept.mk' ?_ rfl rfl)

theorem State.celBad_kept {T : Nat} {r s : State} {x1 : ℕ} {x2 : Bool} {x3 : Bool} {x4 : Bool} {x5 : ℕ} (h : Kept T r s) (hT : Within 16777230 T := by
    first | exact Within.refl _ | (refine Within.of (b := ?zb) ?zw ?ze; (case zw => assumption); (case ze => decide))) : Kept T r (State.celBad s x1 x2 x3 x4 x5) := by
  unfold State.celBad
  repeat' first
    | with_reducible apply Kept.ite
    | with_reducible assumption
    | exact Within.of hT rfl
    | with_reducible apply State.repairSlot_kept
    | with_reducible apply State.bankFault_kept
    | with_reducible apply State.loseSlot_kept
    | (fail_if_no_progress with_reducible refine Kept.mk' ?_ rfl rfl)
    | (extract_lets +onlyGivenNames x; first | (with_reducible apply Kept.cut (T := T) (r := r) (x := x); on_goal 2 => (intro hx; clear_value x)) | clear_value x)
    | split

theorem execRejoin_kept {T : Nat} {r s : State}  (h : Kept T r s) (hT : Within 16777230 T := by
    first | exact Within.refl _ | (refine Within.of (b := ?zb) ?zw ?ze; (case zw => assumption); (case ze => decide))) : KeptO T r (execRejoin s) := by
  unfold execRejoin
  repeat' first
    | with_reducible apply KeptO.ite
    | with_reducible apply Kept.ite
    | with_reducible assumption
    | exact Within.of hT rfl
    | with_reducible apply KeptO.next
    | with_reducible apply State.setBank_kept
    | with_reducible apply State.log_kept
    | with_reducible apply State.set_kept
    | (fail_if_no_progress with_reducible refine Kept.mk' ?_ rfl rfl)
    | (with_reducible apply Kept.foldl; on_goal 2 => (intro _ _ _; beta_reduce))
    | (with_reducible apply Kept.foldlSnd; on_goal 2 => (intro _ _ _; beta_reduce))
    | split

theorem State.tearSlots_kept {T : Nat} {r s : State} {x1 : List ℕ} (h : Kept T r s) (hT : Within 4 T) : Kept T r (State.tearSlots s x1) := by
  unfold State.tearSlots
  repeat' first
    | with_reducible apply Kept.ite
    | with_reducible assumption
    | exact Within.of hT rfl
    | with_reducible apply State.setBank_kept
    | (fail_if_no_progress with_reducible refine Kept.mk' ?_ rfl rfl)
    | (with_reducible apply Kept.foldl; on_goal 2 => (intro _ _ _; beta_reduce))
    | (with_reducible apply Kept.foldlSnd; on_goal 2 => (intro _ _ _; beta_reduce))
    | split

theorem State.celScan_kept {T : Nat} {r s : State} {x1 : Bool} {x2 : Bool} {x3 : Bool} {x4 : List ℕ} (h : Kept T r s) (hT : Within 6 T) : Kept T r (State.celScan s x1 x2 x3 x4) := by
  unfold State.celScan
  repeat' first
    | with_reducible apply Kept.ite
    | with_reducible assumption
    | exact Within.of hT rfl
    | with_reducible apply State.set_kept
    | with_reducible apply State.setBank_kept
    | with_reducible apply State.tearSlots_kept
    | with_reducible apply State.bump_kept
    | with_reducible apply State.celCount_kept
    | (fail_if_no_progress with_reducible refine Kept.mk' ?_ rfl rfl)
    | (with_reducible apply Kept.foldl; on_goal 2 => (intro _ _ _; beta_reduce))
    | (with_reducible apply Kept.foldlSnd; on_goal 2 => (intro _ _ _; beta_reduce))
    | split

theorem State.celStart_kept {T : Nat} {r s : State}  (h : Kept T r s) (hT : Within 16908302 T) : Kept T r (State.celStart s) := by
  unfold State.celStart
  repeat' first
    | with_reducible apply Kept.ite
    | with_reducible assumption
    | exact Within.of hT rfl
    | with_reducible apply State.log_kept
    | with_reducible apply State.set_kept
    | with_reducible apply State.raise_kept
    | with_reducible apply State.mutePin_kept
    | with_reducible apply State.reportBank_kept
    | with_reducible apply State.setLastWord_kept

/-! ## Machine/HostIf.lean -/

theorem State.sessionClose_kept {T : Nat} {r s : State} {x1 : ℕ} (h : Kept T r s) (hT : Within 17827871 T) : Kept T r (State.sessionClose s x1) := by
  unfold State.sessionClose
  repeat' first
    | with_reducible apply Kept.ite
    | with_reducible assumption
    | exact Within.of hT rfl
    | with_reducible apply State.dmaSession_kept
    | with_reducible apply State.set_kept
    | with_reducible apply State.log_kept
    | with_reducible apply State.raise_kept
    | (fail_if_no_progress with_reducible refine Kept.mk' ?_ rfl rfl)
    | split

theorem State.ienSend_kept {T : Nat} {r s : State} {x1 : ℕ} {x2 : Word} (h : Kept T r s) (hT : Within 16777224 T) : Kept T r (State.ienSend s x1 x2) := by
  unfold State.ienSend
  repeat' first
    | with_reducible apply Kept.ite
    | with_reducible assumption
    | exact Within.of hT rfl
    | with_reducible apply State.msix_kept
    | (fail_if_no_progress with_reducible refine Kept.mk' ?_ rfl rfl)
    | (with_reducible apply Kept.foldl; on_goal 2 => (intro _ _ _; beta_reduce))
    | (with_reducible apply Kept.foldlSnd; on_goal 2 => (intro _ _ _; beta_reduce))
    | split

theorem State.hostGate_kept {T : Nat} {r s : State} {x1 : ℕ} {x2 : ℕ} {x3 : Word} (h : Kept T r s) (hT : Within 16777246 T) : Kept T r (State.hostGate s x1 x2 x3).2 := by
  unfold State.hostGate
  repeat' first
    | with_reducible apply Kept.ite2
    | with_reducible apply Kept.ite
    | with_reducible assumption
    | exact Within.of hT rfl
    | with_reducible apply State.deny_kept
    | with_reducible apply State.touch_kept
    | with_reducible apply State.dmaGate_kept
    | with_reducible apply State.gate_kept

theorem State.hostSet_kept {T : Nat} {r s : State} {x1 : ℕ} {x2 : ℕ} {x3 : Word} (h : Kept T r s) (hT : Within 16777230 T) : Kept T r (State.hostSet s x1 x2 x3) := by
  unfold State.hostSet
  repeat' first
    | with_reducible apply Kept.ite
    | with_reducible assumption
    | exact Within.of hT rfl
    | with_reducible apply State.forceType_kept
    | with_reducible apply State.teWrite_kept
    | with_reducible apply State.wr_kept
    | with_reducible apply State.wrFields_kept
    | with_reducible apply State.tpoLevels_kept
    | with_reducible apply State.ienSend_kept
    | (fail_if_no_progress with_reducible refine Kept.mk' ?_ rfl rfl)
    | split

theorem State.fillLow_kept {T : Nat} {r s : State} {x1 : ℕ} {x2 : ℕ} {x3 : Word} (h : Kept T r s) (hT : Within 8 T) : Kept T r (State.fillLow s x1 x2 x3) := by
  unfold State.fillLow
  repeat' first
    | with_reducible assumption
    | exact Within.of hT rfl
    | with_reducible apply State.setFn_kept

theorem State.commitHigh_kept {T : Nat} {r s : State} {x1 : ℕ} {x2 : ℕ} {x3 : Word} (h : Kept T r s) (hT : Within 16793614 T) : Kept T r (State.commitHigh s x1 x2 x3) := by
  unfold State.commitHigh
  repeat' first
    | with_reducible apply Kept.ite
    | with_reducible assumption
    | exact Within.of hT rfl
    | with_reducible apply State.commit64_kept
    | with_reducible apply State.celShow_kept
    | with_reducible apply State.set64_kept
    | with_reducible apply State.forceIgnored_kept
    | with_reducible apply State.forceVal_kept

theorem State.keepDeny_kept {T : Nat} {r s : State} {x1 : ℕ} {x2 : Word} (h : Kept T r s) (hT : Within 2 T := by
    first | exact Within.refl _ | (refine Within.of (b := ?zb) ?zw ?ze; (case zw => assumption); (case ze => decide))) : Kept T r (State.keepDeny s x1 x2) := by
  unfold State.keepDeny
  repeat' first
    | with_reducible apply Kept.ite
    | with_reducible assumption
    | exact Within.of hT rfl
    | with_reducible apply State.set_kept
    | (fail_if_no_progress with_reducible refine Kept.mk' ?_ rfl rfl)

theorem State.hostWrite_kept {T : Nat} {r s : State} {x1 : ℕ} {x2 : ℕ} {x3 : Word} (h : Kept T r s) (hT : Within 16793630 T := by
    first | exact Within.refl _ | (refine Within.of (b := ?zb) ?zw ?ze; (case zw => assumption); (case ze => decide))) : Kept T r (State.hostWrite s x1 x2 x3) := by
  unfold State.hostWrite
  repeat' first
    | with_reducible apply Kept.ite
    | with_reducible assumption
    | exact Within.of hT rfl
    | (with_reducible apply whenAllowed_kept; on_goal 2 => (intro _ _; beta_reduce))
    | with_reducible apply State.hostGate_kept
    | with_reducible apply State.fillLow_kept
    | with_reducible apply State.commitHigh_kept
    | with_reducible apply State.keepDeny_kept
    | with_reducible apply State.hostSet_kept
    | (fail_if_no_progress with_reducible refine Kept.mk' ?_ rfl rfl)
    | split

theorem execRegisterWrite_kept {T : Nat} {r s : State} {x0 : Fin 2} {x1 : BitVec 24} {x2 : Word} {x3 : Bool} (h : Kept T r s) (hT : Within 16793630 T) : KeptO T r (execRegisterWrite x0 x1 x2 x3 s) := by
  unfold execRegisterWrite
  repeat' first
    | with_reducible apply KeptO.ite
    | with_reducible apply Kept.ite
    | with_reducible assumption
    | exact Within.of hT rfl
    | with_reducible apply KeptO.next
    | with_reducible apply State.hostWrite_kept
    | with_reducible apply State.deny_kept
    | with_reducible apply State.touch_kept

theorem execWrite64Low_kept {T : Nat} {r s : State} {x0 : Fin 2} {x1 : BitVec 24} {x2 : Word} (h : Kept T r s) (hT : Within 16793630 T) : KeptO T r (execWrite64Low x0 x1 x2 s) := by
  unfold execWrite64Low
  repeat' first
    | with_reducible apply KeptO.ite
    | with_reducible apply Kept.ite
    | with_reducible assumption
    | exact Within.of hT rfl
    | with_reducible apply KeptO.next
    | with_reducible apply State.hostWrite_kept

theorem execWrite64High_kept {T : Nat} {r s : State} {x0 : Fin 2} {x1 : BitVec 24} {x2 : Word} (h : Kept T r s) (hT : Within 16793630 T) : KeptO T r (execWrite64High x0 x1 x2 s) := by
  unfold execWrite64High
  repeat' first
    | with_reducible apply KeptO.ite
    | with_reducible apply Kept.ite
    | with_reducible assumption
    | exact Within.of hT rfl
    | with_reducible apply KeptO.next
    | with_reducible apply State.hostWrite_kept

theorem State.hostRead_kept {T : Nat} {r s : State} {x1 : ℕ} {x2 : ℕ} (h : Kept T r s) (hT : Within 16777226 T) : Kept T r (State.hostRead s x1 x2).2.2 := by
  unfold State.hostRead
  repeat' first
    | with_reducible apply Kept.ite2
    | with_reducible apply Kept.ite
    | with_reducible assumption
    | exact Within.of hT rfl
    | with_reducible apply State.setFn_kept
    | with_reducible apply State.raise_kept
    | (fail_if_no_progress with_reducible refine Kept.mk' ?_ rfl rfl)
    | (extract_lets +onlyGivenNames x; first | (with_reducible apply Kept.cut (T := T) (r := r) (x := x); on_goal 2 => (intro hx; clear_value x)) | clear_value x)
    | split

theorem State.answer_kept {T : Nat} {r s : State} {x1 : ℕ} {x2 : ℕ} {x3 : Word} (h : Kept T r s) (hT : Within 16777216 T) : Kept T r (State.answer s x1 x2 x3) := by
  unfold State.answer
  repeat' first
    | with_reducible assumption
    | exact Within.of hT rfl
    | with_reducible apply State.emit_kept

theorem State.takeFields_kept {T : Nat} {r s : State} {x1 : ℕ} {x2 : ℕ} (h : Kept T r s) (hT : Within 2 T) : Kept T r (State.takeFields s x1 x2) := by
  unfold State.takeFields
  repeat' first
    | with_reducible apply Kept.ite
    | with_reducible assumption
    | exact Within.of hT rfl
    | with_reducible apply State.wr_kept
    | (fail_if_no_progress with_reducible refine Kept.mk' ?_ rfl rfl)
    | split

theorem execTakeRead_kept {T : Nat} {r s : State} {x0 : Fin 2} {x1 : BitVec 24} (h : Kept T r s) (hT : Within 16777242 T) : KeptO T r (execTakeRead x0 x1 s) := by
  unfold execTakeRead
  repeat' first
    | with_reducible apply KeptO.ite
    | with_reducible apply Kept.ite
    | with_reducible assumption
    | exact Within.of hT rfl
    | with_reducible apply KeptO.next
    | with_reducible apply State.hostRead_kept
    | with_reducible apply State.touch_kept
    | with_reducible apply State.answer_kept
    | with_reducible apply State.takeFields_kept

theorem execRead64Low_kept {T : Nat} {r s : State} {x0 : Fin 2} {x1 : BitVec 24} (h : Kept T r s) (hT : Within 16777242 T) : KeptO T r (execRead64Low x0 x1 s) := by
  unfold execRead64Low
  repeat' first
    | with_reducible apply KeptO.ite
    | with_reducible apply Kept.ite
    | with_reducible assumption
    | exact Within.of hT rfl
    | with_reducible apply KeptO.next
    | with_reducible apply State.hostRead_kept
    | with_reducible apply State.touch_kept
    | with_reducible apply State.answer_kept

theorem execRead64High_kept {T : Nat} {r s : State} {x0 : Fin 2} {x1 : BitVec 24} (h : Kept T r s) (hT : Within 16777242 T) : KeptO T r (execRead64High x0 x1 s) := by
  unfold execRead64High
  repeat' first
    | with_reducible apply KeptO.ite
    | with_reducible apply Kept.ite
    | with_reducible assumption
    | exact Within.of hT rfl
    | with_reducible apply KeptO.next
    | with_reducible apply State.hostRead_kept
    | with_reducible apply State.touch_kept
    | with_reducible apply State.answer_kept

theorem execMsixUnmask_kept {T : Nat} {r s : State} {x0 : Fin 2} {x1 : Fin 32} {x2 : Bool} {x3 : Bool} (h : Kept T r s) (hT : Within 16777224 T) : KeptO T r (execMsixUnmask x0 x1 x2 x3 s) := by
  unfold execMsixUnmask
  repeat' first
    | with_reducible apply KeptO.ite
    | with_reducible apply Kept.ite
    | with_reducible assumption
    | exact Within.of hT rfl
    | with_reducible apply KeptO.next
    | with_reducible apply State.setFn_kept
    | with_reducible apply State.emit_kept

theorem State.dmaOwnerStop_kept {T : Nat} {r s : State} {x1 : ℕ} (h : Kept T r s) (hT : Within 17827855 T) : Kept T r (State.dmaOwnerStop s x1) := by
  unfold State.dmaOwnerStop
  repeat' first
    | with_reducible apply Kept.ite
    | with_reducible assumption
    | exact Within.of hT rfl
    | with_reducible apply State.dmaHalt_kept
    | (fail_if_no_progress with_reducible refine Kept.mk' ?_ rfl rfl)
    | (with_reducible apply Kept.foldl; on_goal 2 => (intro _ _ _; beta_reduce))
    | (with_reducible apply Kept.foldlSnd; on_goal 2 => (intro _ _ _; beta_reduce))
    | split

theorem State.fnReset_kept {T : Nat} {r s : State} {x1 : ℕ} (h : Kept T r s) (hT : Within 17827871 T) : Kept T r (State.fnReset s x1) := by
  unfold State.fnReset
  repeat' first
    | with_reducible apply Kept.ite
    | with_reducible assumption
    | exact Within.of hT rfl
    | with_reducible apply State.dmaOwnerStop_kept
    | with_reducible apply State.setFn_kept
    | with_reducible apply State.set64_kept
    | with_reducible apply State.sessionClose_kept

theorem execHostFunctionReset_kept {T : Nat} {r s : State} {x0 : Bool} {x1 : Bool} (h : Kept T r s) (hT : Within 17827871 T) : KeptO T r (execHostFunctionReset x0 x1 s) := by
  unfold execHostFunctionReset
  repeat' first
    | with_reducible apply KeptO.ite
    | with_reducible apply Kept.ite
    | with_reducible assumption
    | exact Within.of hT rfl
    | with_reducible apply KeptO.next
    | with_reducible apply State.fnReset_kept

end Sys2Proof.Machine
end

