-- ==== Sys2Proof/Laws/KeptPwr.lean ====
section
/-!
SUPPORT. Laws/KeptPwr.lean: what each operation of power, security, configurations and scrubbing keeps (the relation Kept of Laws/Kept.lean), one lemma
per operation.
-/
set_option linter.unusedTactic false
set_option linter.unreachableTactic false
set_option linter.unusedVariables false
set_option Elab.async false
namespace Sys2Proof.Machine
open Sys2Proof

/-! ## Machine/Pwr.lean -/

theorem State.lastResort_kept {T : Nat} {r s : State} {x1 : ℕ} {x2 : List Byte} (h : Kept T r s) (hT : Within 16777230 T) : Kept T r (State.lastResort s x1 x2) := by
  unfold State.lastResort
  repeat' first
    | with_reducible apply Kept.ite
    | with_reducible assumption
    | exact Within.of hT rfl
    | with_reducible apply State.log_kept
    | with_reducible apply State.nextSeq_kept
    | with_reducible apply State.setLastWord_kept

theorem State.tamperSet_kept {T : Nat} {r s : State} {x1 : ℕ} (h : Kept T r s) (hT : Within 17827871 T := by
    first | exact Within.refl _ | (refine Within.of (b := ?zb) ?zw ?ze; (case zw => assumption); (case ze => decide))) : Kept T r (State.tamperSet s x1) := by
  unfold State.tamperSet
  repeat' first
    | with_reducible apply Kept.ite
    | with_reducible assumption
    | exact Within.of hT rfl
    | with_reducible apply State.set_kept
    | with_reducible apply State.sessionClose_kept
    | with_reducible apply State.lastResort_kept
    | with_reducible apply State.raise_kept
    | with_reducible apply State.bump_kept

theorem State.setOp_kept {T : Nat} {r s : State} {x1 : ℕ} {x2 : ℕ} (h : Kept T r s) (hT : Within 16908298 T := by
    first | exact Within.refl _ | (refine Within.of (b := ?zb) ?zw ?ze; (case zw => assumption); (case ze => decide))) : Kept T r (State.setOp s x1 x2) := by
  unfold State.setOp
  repeat' first
    | with_reducible apply Kept.ite
    | with_reducible assumption
    | exact Within.of hT rfl
    | with_reducible apply State.set_kept
    | with_reducible apply State.gooseStatus_kept
    | with_reducible apply State.raise_kept

theorem State.setPhase_kept {T : Nat} {r s : State} {x1 : ℕ} (h : Kept T r s) (hT : Within 16908298 T) : Kept T r (State.setPhase s x1) := by
  unfold State.setPhase
  repeat' first
    | with_reducible assumption
    | exact Within.of hT rfl
    | with_reducible apply State.setOp_kept

theorem State.pwrResult_kept {T : Nat} {r s : State} {x1 : ℕ} (h : Kept T r s) (hT : Within 2 T) : Kept T r (State.pwrResult s x1) := by
  unfold State.pwrResult
  repeat' first
    | with_reducible assumption
    | exact Within.of hT rfl
    | with_reducible apply State.set_kept

theorem State.pwrBusy_kept {T : Nat} {r s : State}  (h : Kept T r s) (hT : Within 2 T := by
    first | exact Within.refl _ | (refine Within.of (b := ?zb) ?zw ?ze; (case zw => assumption); (case ze => decide))) : Kept T r (State.pwrBusy s) := by
  unfold State.pwrBusy
  repeat' first
    | with_reducible assumption
    | exact Within.of hT rfl
    | with_reducible apply State.set_kept

theorem State.groupsDrop_kept {T : Nat} {r s : State}  (h : Kept T r s) (hT : Within 32 T) : Kept T r (State.groupsDrop s) := by
  unfold State.groupsDrop
  repeat' first
    | with_reducible apply Kept.ite
    | with_reducible assumption
    | exact Within.of hT rfl
    | with_reducible apply State.setPort_kept
    | (fail_if_no_progress with_reducible refine Kept.mk' ?_ rfl rfl)
    | (with_reducible apply Kept.foldl; on_goal 2 => (intro _ _ _; beta_reduce))
    | (with_reducible apply Kept.foldlSnd; on_goal 2 => (intro _ _ _; beta_reduce))
    | split

theorem State.stopProgram_kept {T : Nat} {r s : State}  (h : Kept T r s) (hT : Within 17051694 T := by
    first | exact Within.refl _ | (refine Within.of (b := ?zb) ?zw ?ze; (case zw => assumption); (case ze => decide))) : Kept T r (State.stopProgram s) := by
  unfold State.stopProgram
  repeat' first
    | with_reducible apply Kept.ite
    | with_reducible assumption
    | exact Within.of hT rfl
    | with_reducible apply State.groupsDrop_kept
    | with_reducible apply State.vcWithdraw_kept
    | with_reducible apply State.chgAbort_kept
    | with_reducible apply State.rplAbort_kept
    | with_reducible apply State.stopLanes_kept

theorem State.stemEnter_kept {T : Nat} {r s : State} {x1 : ℕ} {x2 : CelPuts} (h : Kept T r s) (hT : Within 21901870 T := by
    first | exact Within.refl _ | (refine Within.of (b := ?zb) ?zw ?ze; (case zw => assumption); (case ze => decide))) : Kept T r (State.stemEnter s x1 x2) := by
  unfold State.stemEnter
  repeat' first
    | with_reducible apply Kept.ite
    | with_reducible assumption
    | exact Within.of hT rfl
    | with_reducible apply State.lftStop_kept
    | with_reducible apply State.stopProgram_kept
    | with_reducible apply State.armFastPath_kept
    | with_reducible apply State.gatesStem_kept
    | with_reducible apply State.setOp_kept
    | with_reducible apply State.set64_kept
    | with_reducible apply State.raise_kept
    | with_reducible apply State.set_kept
    | with_reducible apply State.log_kept
    | with_reducible apply State.forceThaw_kept
    | with_reducible apply State.pwrBusy_kept
    | (fail_if_no_progress with_reducible refine Kept.mk' ?_ rfl rfl)

theorem State.haltEnter_kept {T : Nat} {r s : State} {x1 : ℕ} (h : Kept T r s) (hT : Within 21901870 T := by
    first | exact Within.refl _ | (refine Within.of (b := ?zb) ?zw ?ze; (case zw => assumption); (case ze => decide))) : Kept T r (State.haltEnter s x1) := by
  unfold State.haltEnter
  repeat' first
    | with_reducible apply Kept.ite
    | with_reducible assumption
    | exact Within.of hT rfl
    | with_reducible apply State.set_kept
    | with_reducible apply State.lftStop_kept
    | with_reducible apply State.stopFastPath_kept
    | with_reducible apply State.stopProgram_kept
    | with_reducible apply State.setOp_kept
    | with_reducible apply State.log_kept
    | with_reducible apply State.pwrBusy_kept
    | (fail_if_no_progress with_reducible refine Kept.mk' ?_ rfl rfl)

theorem State.domainsOff_kept {T : Nat} {r s : State}  (h : Kept T r s) (hT : Within 31172767 T) : Kept T r (State.domainsOff s) := by
  unfold State.domainsOff
  repeat' first
    | with_reducible apply Kept.ite
    | with_reducible assumption
    | exact Within.of hT rfl
    | with_reducible apply State.finalSnap_kept
    | with_reducible apply State.ethPowerDown_kept
    | with_reducible apply State.uchPowerDown_kept
    | with_reducible apply State.ptpOff_kept
    | with_reducible apply State.lftStop_kept
    | with_reducible apply State.fnReset_kept
    | with_reducible apply State.set_kept
    | (fail_if_no_progress with_reducible refine Kept.mk' ?_ rfl rfl)

theorem State.prepare_kept {T : Nat} {r s : State}  (h : Kept T r s) (hT : Within 21102602 T) : Kept T r (State.prepare s) := by
  unfold State.prepare
  repeat' first
    | with_reducible apply Kept.ite
    | with_reducible assumption
    | exact Within.of hT rfl
    | with_reducible apply State.setPhase_kept
    | with_reducible apply State.set_kept
    | (fail_if_no_progress with_reducible refine Kept.mk' ?_ rfl rfl)

theorem execStemCauseCleared_kept {T : Nat} {r s : State} {x0 : Fin 7} (h : Kept T r s) (hT : Within 21102602 T) : KeptO T r (execStemCauseCleared x0 s) := by
  unfold execStemCauseCleared
  repeat' first
    | with_reducible apply KeptO.ite
    | with_reducible apply Kept.ite
    | with_reducible assumption
    | exact Within.of hT rfl
    | with_reducible apply KeptO.next
    | with_reducible apply State.set_kept
    | with_reducible apply State.prepare_kept

theorem execStemEnter_kept {T : Nat} {r s : State} {x0 : CelPuts} (h : Kept T r s) (hT : Within 21901870 T := by
    first | exact Within.refl _ | (refine Within.of (b := ?zb) ?zw ?ze; (case zw => assumption); (case ze => decide))) : KeptO T r (execStemEnter x0 s) := by
  unfold execStemEnter
  repeat' first
    | with_reducible apply KeptO.ite
    | with_reducible apply Kept.ite
    | with_reducible assumption
    | exact Within.of hT rfl
    | with_reducible apply KeptO.next
    | with_reducible apply State.stemEnter_kept
    | (fail_if_no_progress with_reducible refine Kept.mk' ?_ rfl rfl)
    | split

theorem State.maintLeave_kept {T : Nat} {r s : State} {x1 : ℕ} (h : Kept T r s) (hT : Within 21102606 T) : Kept T r (State.maintLeave s x1) := by
  unfold State.maintLeave
  repeat' first
    | with_reducible apply Kept.ite
    | with_reducible assumption
    | exact Within.of hT rfl
    | with_reducible apply State.log_kept
    | with_reducible apply State.prepare_kept
    | (fail_if_no_progress with_reducible refine Kept.mk' ?_ rfl rfl)

theorem execMaintEnter_kept {T : Nat} {r s : State}  (h : Kept T r s) (hT : Within 21936686 T := by
    first | exact Within.refl _ | (refine Within.of (b := ?zb) ?zw ?ze; (case zw => assumption); (case ze => decide))) : KeptO T r (execMaintEnter s) := by
  unfold execMaintEnter
  repeat' first
    | with_reducible apply KeptO.ite
    | with_reducible apply Kept.ite
    | with_reducible assumption
    | exact Within.of hT rfl
    | with_reducible apply KeptO.next
    | with_reducible apply State.gatesStem_kept
    | with_reducible apply State.stopProgram_kept
    | with_reducible apply State.vcAtStop_kept
    | with_reducible apply State.stopFastPath_kept
    | with_reducible apply State.pwrBusy_kept
    | with_reducible apply State.setOp_kept
    | with_reducible apply State.uchDrive_kept
    | with_reducible apply State.log_kept
    | (fail_if_no_progress with_reducible refine Kept.mk' ?_ rfl rfl)
    | (with_reducible apply Kept.foldl; on_goal 2 => (intro _ _ _; beta_reduce))
    | (with_reducible apply Kept.foldlSnd; on_goal 2 => (intro _ _ _; beta_reduce))
    | split

theorem State.maintResume_kept {T : Nat} {r s : State}  (h : Kept T r s) (hT : Within 21127694 T) : Kept T r (State.maintResume s) := by
  unfold State.maintResume
  repeat' first
    | with_reducible apply Kept.ite
    | with_reducible assumption
    | exact Within.of hT rfl
    | with_reducible apply State.armFastPath_kept
    | with_reducible apply State.set64_kept
    | with_reducible apply State.setOp_kept
    | with_reducible apply State.forcesClear_kept
    | with_reducible apply State.pwrBusy_kept
    | with_reducible apply State.log_kept
    | (fail_if_no_progress with_reducible refine Kept.mk' ?_ rfl rfl)

theorem State.pwrKick_kept {T : Nat} {r s : State} {p b : Nat} {w : Word} {f : State → State} (h : Kept T r s)
    (hf : ∀ u, Kept T r u → Kept T r (f u)) (hT : Within 16777246 T) : Kept T r (s.pwrKick p b w f) := by
  unfold State.pwrKick
  refine whenAllowed_kept (State.gate_kept h) (fun u hu => ?_)
  have a : Kept T r (if popCount 6 w.toNat ≤ 1 then u.set F.PWR_CMD.LANE (fieldOf w 8 2)
      else (u.set F.PWR_CMD.LANE (fieldOf w 8 2)).deny p 6 A.PWR_CMD) := .ite (State.set_kept hu) (State.deny_kept (State.set_kept hu))
  exact .ite (hf _ a) a

theorem execStem_kept {T : Nat} {r s : State} {x0 : Fin 2} {x1 : Word} (h : Kept T r s) (hT : Within 20971550 T) : KeptO T r (execStem x0 x1 s) := by
  unfold execStem
  repeat' first
    | with_reducible assumption
    | exact Within.of hT rfl
    | with_reducible apply KeptO.next
    | (with_reducible apply State.pwrKick_kept; on_goal 2 => (intro _ _; beta_reduce))
    | with_reducible apply State.stemCause_kept
    | with_reducible apply State.pwrResult_kept

theorem execHalt_kept {T : Nat} {r s : State} {x0 : Fin 2} {x1 : Word} (h : Kept T r s) (hT : Within 21901886 T) : KeptO T r (execHalt x0 x1 s) := by
  unfold execHalt
  repeat' first
    | with_reducible assumption
    | exact Within.of hT rfl
    | with_reducible apply KeptO.next
    | (with_reducible apply State.pwrKick_kept; on_goal 2 => (intro _ _; beta_reduce))
    | with_reducible apply State.haltEnter_kept
    | with_reducible apply State.pwrResult_kept

theorem execMaint_kept {T : Nat} {r s : State} {x0 : Fin 2} {x1 : Word} (h : Kept T r s) (hT : Within 20971550 T) : KeptO T r (execMaint x0 x1 s) := by
  unfold execMaint
  repeat' first
    | with_reducible apply KeptO.ite
    | with_reducible apply Kept.ite
    | with_reducible assumption
    | exact Within.of hT rfl
    | with_reducible apply KeptO.next
    | (with_reducible apply State.pwrKick_kept; on_goal 2 => (intro _ _; beta_reduce))
    | with_reducible apply State.pwrResult_kept
    | with_reducible apply State.pwrBusy_kept
    | (fail_if_no_progress with_reducible refine Kept.mk' ?_ rfl rfl)

theorem execResume_kept {T : Nat} {r s : State} {x0 : Fin 2} {x1 : Word} (h : Kept T r s) (hT : Within 21102622 T) : KeptO T r (execResume x0 x1 s) := by
  unfold execResume
  repeat' first
    | with_reducible apply KeptO.ite
    | with_reducible apply Kept.ite
    | with_reducible assumption
    | exact Within.of hT rfl
    | with_reducible apply KeptO.next
    | (with_reducible apply State.pwrKick_kept; on_goal 2 => (intro _ _; beta_reduce))
    | with_reducible apply State.pwrResult_kept
    | with_reducible apply State.pwrBusy_kept
    | with_reducible apply State.maintLeave_kept

theorem State.warmRequest_kept {T : Nat} {r s : State} {x1 : ℕ} (h : Kept T r s) (hT : Within 21233678 T) : Kept T r (State.warmRequest s x1) := by
  unfold State.warmRequest
  repeat' first
    | with_reducible apply Kept.ite
    | with_reducible assumption
    | exact Within.of hT rfl
    | with_reducible apply State.vcWithdraw_kept
    | with_reducible apply State.pwrBusy_kept
    | (fail_if_no_progress with_reducible refine Kept.mk' ?_ rfl rfl)

theorem execWarm_kept {T : Nat} {r s : State} {x0 : Fin 2} {x1 : Word} (h : Kept T r s) (hT : Within 21233694 T) : KeptO T r (execWarm x0 x1 s) := by
  unfold execWarm
  repeat' first
    | with_reducible apply KeptO.ite
    | with_reducible apply Kept.ite
    | with_reducible assumption
    | exact Within.of hT rfl
    | with_reducible apply KeptO.next
    | (with_reducible apply State.pwrKick_kept; on_goal 2 => (intro _ _; beta_reduce))
    | with_reducible apply State.warmRequest_kept
    | with_reducible apply State.pwrResult_kept

theorem execWatchdogExpired_kept {T : Nat} {r s : State}  (h : Kept T r s) (hT : Within 21233678 T) : KeptO T r (execWatchdogExpired s) := by
  unfold execWatchdogExpired
  repeat' first
    | with_reducible assumption
    | exact Within.of hT rfl
    | with_reducible apply KeptO.next
    | with_reducible apply State.warmRequest_kept

theorem execRstNLow_kept {T : Nat} {r s : State}  (h : Kept T r s) (hT : Within 21233678 T) : KeptO T r (execRstNLow s) := by
  unfold execRstNLow
  repeat' first
    | with_reducible apply KeptO.ite
    | with_reducible apply Kept.ite
    | with_reducible assumption
    | exact Within.of hT rfl
    | with_reducible apply KeptO.next
    | with_reducible apply State.warmRequest_kept
    | (fail_if_no_progress with_reducible refine Kept.mk' ?_ rfl rfl)

theorem execLaneRst_kept {T : Nat} {r s : State} {x0 : Fin 2} {x1 : Word} (h : Kept T r s) (hT : Within 20977694 T) : KeptO T r (execLaneRst x0 x1 s) := by
  unfold execLaneRst
  repeat' first
    | with_reducible apply KeptO.ite
    | with_reducible apply Kept.ite
    | with_reducible assumption
    | exact Within.of hT rfl
    | with_reducible apply KeptO.next
    | (with_reducible apply State.pwrKick_kept; on_goal 2 => (intro _ _; beta_reduce))
    | with_reducible apply State.setLane_kept
    | with_reducible apply State.zeroSpace_kept
    | with_reducible apply State.pwrResult_kept
    | with_reducible apply State.setRole_kept
    | with_reducible apply State.pwrBusy_kept
    | (fail_if_no_progress with_reducible refine Kept.mk' ?_ rfl rfl)

theorem execLaneResetDone_kept {T : Nat} {r s : State} {x0 : Bool} (h : Kept T r s) (hT : Within 21102606 T) : KeptO T r (execLaneResetDone x0 s) := by
  unfold execLaneResetDone
  repeat' first
    | with_reducible apply KeptO.ite
    | with_reducible apply Kept.ite
    | with_reducible assumption
    | exact Within.of hT rfl
    | with_reducible apply KeptO.next
    | with_reducible apply State.pwrBusy_kept
    | with_reducible apply State.setRole_kept
    | with_reducible apply State.set_kept
    | with_reducible apply State.raise_kept
    | with_reducible apply State.spareAct_kept
    | with_reducible apply State.gooseStatus_kept
    | with_reducible apply State.log_kept
    | (fail_if_no_progress with_reducible refine Kept.mk' ?_ rfl rfl)
    | split

theorem State.supplyIs_kept {T : Nat} {r s : State} {x1 : ℕ} {x2 : ℕ} (h : Kept T r s) (hT : Within 4194306 T) : Kept T r (State.supplyIs s x1 x2) := by
  unfold State.supplyIs
  repeat' first
    | with_reducible apply Kept.ite
    | with_reducible assumption
    | exact Within.of hT rfl
    | with_reducible apply State.set_kept
    | (fail_if_no_progress with_reducible refine Kept.mk' ?_ rfl rfl)

theorem execSupplyWarn_kept {T : Nat} {r s : State} {x0 : BitVec 12} {x1 : BitVec 9} (h : Kept T r s) (hT : Within 4194306 T) : KeptO T r (execSupplyWarn x0 x1 s) := by
  unfold execSupplyWarn
  repeat' first
    | with_reducible assumption
    | exact Within.of hT rfl
    | with_reducible apply KeptO.next
    | with_reducible apply State.supplyIs_kept

theorem State.windowEnter_kept {T : Nat} {r s : State}  (h : Kept T r s) (hT : Within 20971530 T) : Kept T r (State.windowEnter s) := by
  unfold State.windowEnter
  repeat' first
    | with_reducible apply Kept.ite
    | with_reducible assumption
    | exact Within.of hT rfl
    | with_reducible apply State.stemCause_kept
    | (fail_if_no_progress with_reducible refine Kept.mk' ?_ rfl rfl)

theorem State.holdUp_kept {T : Nat} {r s : State} {x1 : ℕ} {x2 : Bool} (h : Kept T r s) (hT : Within 20971534 T) : Kept T r (State.holdUp s x1 x2) := by
  unfold State.holdUp
  repeat' first
    | with_reducible apply Kept.ite
    | with_reducible assumption
    | exact Within.of hT rfl
    | with_reducible apply State.supplyIs_kept
    | with_reducible apply State.set_kept
    | with_reducible apply State.log_kept
    | with_reducible apply State.raise_kept
    | with_reducible apply State.windowEnter_kept
    | (fail_if_no_progress with_reducible refine Kept.mk' ?_ rfl rfl)

theorem execBrownout_kept {T : Nat} {r s : State} {x0 : BitVec 12} (h : Kept T r s) (hT : Within 20971534 T) : KeptO T r (execBrownout x0 s) := by
  unfold execBrownout
  repeat' first
    | with_reducible apply KeptO.ite
    | with_reducible apply Kept.ite
    | with_reducible assumption
    | exact Within.of hT rfl
    | with_reducible apply KeptO.next
    | with_reducible apply State.holdUp_kept

theorem execOvervoltageDisconnect_kept {T : Nat} {r s : State} {x0 : BitVec 12} (h : Kept T r s) (hT : Within 20971534 T) : KeptO T r (execOvervoltageDisconnect x0 s) := by
  unfold execOvervoltageDisconnect
  repeat' first
    | with_reducible apply KeptO.ite
    | with_reducible apply Kept.ite
    | with_reducible assumption
    | exact Within.of hT rfl
    | with_reducible apply KeptO.next
    | with_reducible apply State.holdUp_kept

theorem State.onMain_kept {T : Nat} {r s : State} {x1 : ℕ} (h : Kept T r s) (hT : Within 4194306 T) : Kept T r (State.onMain s x1) := by
  unfold State.onMain
  repeat' first
    | with_reducible assumption
    | exact Within.of hT rfl
    | with_reducible apply State.supplyIs_kept
    | with_reducible apply State.set_kept

theorem State.supplyBack_kept {T : Nat} {r s : State} {x1 : ℕ} (h : Kept T r s) (hT : Within 16777230 T) : Kept T r (State.supplyBack s x1) := by
  unfold State.supplyBack
  repeat' first
    | with_reducible assumption
    | exact Within.of hT rfl
    | with_reducible apply State.log_kept
    | with_reducible apply State.raise_kept

theorem execSupplyBack_kept {T : Nat} {r s : State} {x0 : BitVec 12} (h : Kept T r s) (hT : Within 20971534 T) : KeptO T r (execSupplyBack x0 s) := by
  unfold execSupplyBack
  repeat' first
    | with_reducible apply KeptO.ite
    | with_reducible apply Kept.ite
    | with_reducible assumption
    | exact Within.of hT rfl
    | with_reducible apply KeptO.next
    | with_reducible apply State.supplyBack_kept
    | with_reducible apply State.onMain_kept

theorem execRideThroughExpired_kept {T : Nat} {r s : State}  (h : Kept T r s) (hT : Within 20971530 T) : KeptO T r (execRideThroughExpired s) := by
  unfold execRideThroughExpired
  repeat' first
    | with_reducible apply KeptO.ite
    | with_reducible apply Kept.ite
    | with_reducible assumption
    | exact Within.of hT rfl
    | with_reducible apply KeptO.next
    | with_reducible apply State.windowEnter_kept

theorem execVmainGood_kept {T : Nat} {r s : State} {x0 : BitVec 12} (h : Kept T r s) (hT : Within 20971534 T) : KeptO T r (execVmainGood x0 s) := by
  unfold execVmainGood
  repeat' first
    | with_reducible apply KeptO.ite
    | with_reducible apply Kept.ite
    | with_reducible assumption
    | exact Within.of hT rfl
    | with_reducible apply KeptO.next
    | with_reducible apply State.onMain_kept
    | with_reducible apply State.supplyBack_kept
    | (fail_if_no_progress with_reducible refine Kept.mk' ?_ rfl rfl)

theorem execPowerDown_kept {T : Nat} {r s : State} {x0 : BitVec 9} (h : Kept T r s) (hT : Within 20971534 T) : KeptO T r (execPowerDown x0 s) := by
  unfold execPowerDown
  repeat' first
    | with_reducible apply KeptO.ite
    | with_reducible apply Kept.ite
    | with_reducible assumption
    | exact Within.of hT rfl
    | with_reducible apply KeptO.next
    | with_reducible apply State.supplyIs_kept
    | with_reducible apply State.log_kept
    | (fail_if_no_progress with_reducible refine Kept.mk' ?_ rfl rfl)

theorem State.tempIs_kept {T : Nat} {r s : State} {x1 : ℤ} {x2 : ℤ} (h : Kept T r s) (hT : Within 2 T) : Kept T r (State.tempIs s x1 x2) := by
  unfold State.tempIs
  repeat' first
    | with_reducible assumption
    | exact Within.of hT rfl
    | with_reducible apply State.set_kept

theorem execOtWarn_kept {T : Nat} {r s : State} {x0 : BitVec 16} {x1 : BitVec 16} (h : Kept T r s) (hT : Within 16777230 T) : KeptO T r (execOtWarn x0 x1 s) := by
  unfold execOtWarn
  repeat' first
    | with_reducible apply KeptO.ite
    | with_reducible apply Kept.ite
    | with_reducible assumption
    | exact Within.of hT rfl
    | with_reducible apply KeptO.next
    | with_reducible apply State.log_kept
    | with_reducible apply State.raise_kept
    | with_reducible apply State.tempIs_kept

theorem execOt_kept {T : Nat} {r s : State} {x0 : BitVec 16} {x1 : BitVec 16} {x2 : BitVec 16} (h : Kept T r s) (hT : Within 20971534 T) : KeptO T r (execOt x0 x1 x2 s) := by
  unfold execOt
  repeat' first
    | with_reducible apply KeptO.ite
    | with_reducible apply Kept.ite
    | with_reducible assumption
    | exact Within.of hT rfl
    | with_reducible apply KeptO.next
    | with_reducible apply State.raise_kept
    | with_reducible apply State.tempIs_kept
    | with_reducible apply State.log_kept
    | with_reducible apply State.stemCause_kept
    | (fail_if_no_progress with_reducible refine Kept.mk' ?_ rfl rfl)

theorem execOtClear_kept {T : Nat} {r s : State} {x0 : BitVec 16} {x1 : BitVec 16} {x2 : ℕ} (h : Kept T r s) (hT : Within 20971534 T) : KeptO T r (execOtClear x0 x1 x2 s) := by
  unfold execOtClear
  repeat' first
    | with_reducible apply KeptO.ite
    | with_reducible apply Kept.ite
    | with_reducible assumption
    | exact Within.of hT rfl
    | with_reducible apply KeptO.next
    | with_reducible apply State.raise_kept
    | with_reducible apply State.tempIs_kept
    | with_reducible apply State.log_kept
    | (fail_if_no_progress with_reducible refine Kept.mk' ?_ rfl rfl)

theorem State.clockLost_kept {T : Nat} {r s : State} {x1 : ℕ} {x2 : ℕ} (h : Kept T r s) (hT : Within 16777230 T) : Kept T r (State.clockLost s x1 x2) := by
  unfold State.clockLost
  repeat' first
    | with_reducible apply Kept.ite
    | with_reducible assumption
    | exact Within.of hT rfl
    | with_reducible apply State.raise_kept
    | with_reducible apply State.set_kept
    | with_reducible apply State.set64_kept
    | with_reducible apply State.log_kept

theorem State.clockAct_kept {T : Nat} {r s : State} {x1 : ℕ} {x2 : ℕ} (h : Kept T r s) (hT : Within 23050815 T) : Kept T r (State.clockAct s x1 x2) := by
  unfold State.clockAct
  repeat' first
    | with_reducible apply Kept.ite
    | with_reducible assumption
    | exact Within.of hT rfl
    | with_reducible apply State.tamperSet_kept
    | with_reducible apply State.haltEnter_kept
    | with_reducible apply State.stemCause_kept
    | with_reducible apply State.alignLost_kept
    | with_reducible apply State.raise_kept
    | with_reducible apply State.setLink_kept
    | with_reducible apply State.engineBeat_kept
    | with_reducible apply State.fnReset_kept
    | with_reducible apply State.hartCut_kept
    | with_reducible apply State.log_kept
    | with_reducible apply State.setGroupFault_kept
    | (fail_if_no_progress with_reducible refine Kept.mk' ?_ rfl rfl)
    | (with_reducible apply Kept.foldl; on_goal 2 => (intro _ _ _; beta_reduce))
    | (with_reducible apply Kept.foldlSnd; on_goal 2 => (intro _ _ _; beta_reduce))
    | split

theorem execClockFault_kept {T : Nat} {r s : State} {x0 : Fin 12} {x1 : Fin 44} {x2 : Bool} (h : Kept T r s) (hT : Within 23050815 T) : KeptO T r (execClockFault x0 x1 x2 s) := by
  unfold execClockFault
  repeat' first
    | with_reducible apply KeptO.ite
    | with_reducible apply Kept.ite
    | with_reducible assumption
    | exact Within.of hT rfl
    | with_reducible apply KeptO.next
    | with_reducible apply State.raise_kept
    | with_reducible apply State.set_kept
    | with_reducible apply State.clockAct_kept
    | with_reducible apply State.clockLost_kept

theorem execDomainFault_kept {T : Nat} {r s : State} {x0 : Fin 12} (h : Kept T r s) (hT : Within 16777226 T) : KeptO T r (execDomainFault x0 s) := by
  unfold execDomainFault
  repeat' first
    | with_reducible assumption
    | exact Within.of hT rfl
    | with_reducible apply KeptO.next
    | with_reducible apply State.raise_kept
    | with_reducible apply State.set_kept

/-! ## Machine/Sec.lean -/

theorem State.say_kept {T : Nat} {r s : State} {x1 : ℕ} (h : Kept T r s) (hT : Within 0 T := by
    first | exact Within.refl _ | (refine Within.of (b := ?zb) ?zw ?ze; (case zw => assumption); (case ze => decide))) : Kept T r (State.say s x1).st := by
  unfold State.say
  repeat' first
    | with_reducible assumption
    | exact Within.of hT rfl

theorem State.bufFill_kept {T : Nat} {r s : State} {x1 : List Byte} (h : Kept T r s) (hT : Within 2 T := by
    first | exact Within.refl _ | (refine Within.of (b := ?zb) ?zw ?ze; (case zw => assumption); (case ze => decide))) : Kept T r (State.bufFill s x1) := by
  unfold State.bufFill
  repeat' first
    | with_reducible apply Kept.ite
    | with_reducible assumption
    | exact Within.of hT rfl
    | with_reducible apply State.wr_kept
    | (fail_if_no_progress with_reducible refine Kept.mk' ?_ rfl rfl)
    | (with_reducible apply Kept.foldl; on_goal 2 => (intro _ _ _; beta_reduce))
    | (with_reducible apply Kept.foldlSnd; on_goal 2 => (intro _ _ _; beta_reduce))
    | split

theorem mbox_kept {T : Nat} {r : State} {a : Answer} {b : Option MboxRun} (h : Kept T r a.st) (hT : Within 16 T := by
    first | exact Within.refl _ | (refine Within.of (b := ?zb) ?zw ?ze; (case zw => assumption); (case ze => decide))) :
    Kept T r { a.st with sec := { a.st.sec with mbox := b } } := Kept.mk' h rfl rfl

theorem State.secRun_kept {T : Nat} {r s : State} {p c : Nat} {f : State → List Byte → Answer} (h : Kept T r s)
    (hf : ∀ u q, Kept T r u → Kept T r (f u q).st) (hT : Within 18 T := by
    first | exact Within.refl _ | (refine Within.of (b := ?zb) ?zw ?ze; (case zw => assumption); (case ze => decide))) : Kept T r (s.secRun p c f) := by
  have k1 := State.bufClear_kept (State.set_kept (x1 := F.SEC_LEN.RSP) (x2 := 0) (State.set_kept (x1 := F.SEC_CMD.BUSY) (x2 := 1)
    (State.set_kept (x1 := F.SEC_CMD.OWNER) (x2 := p) h)))
  unfold State.secRun
  refine mbox_kept (.iteSt ?_ (.iteSt ?_ ?_))
  · exact State.say_kept (Kept.mk' k1 rfl rfl)
  · exact State.say_kept (Kept.mk' k1 rfl rfl)
  · exact hf _ _ (Kept.mk' k1 rfl rfl)

theorem State.secGo_kept {T : Nat} {r s : State} {p c : Nat} {w : Word} {f : State → List Byte → Answer} (h : Kept T r s)
    (hf : ∀ u q, Kept T r u → Kept T r (f u q).st) (hT : Within 16777246 T) : Kept T r (s.secGo p w c f) := by
  unfold State.secGo
  refine .ite (whenAllowed_kept (State.gate_kept h) (fun u hu => ?_)) h
  exact .ite (State.set_kept hu) (State.secRun_kept (State.set_kept hu) hf)

theorem State.withRight_kept {T : Nat} {r s : State} {p n k : Nat} {q : List Byte} {f : State → Answer} (h : Kept T r s)
    (hf : ∀ u, Kept T r u → Kept T r (f u).st) (hT : Within 0 T) : Kept T r (s.withRight p n k q f).st := by
  unfold State.withRight
  exact .iteSt (State.say_kept h) (.iteSt (State.say_kept h) (hf _ h))

theorem execMailboxUnknownCommand_kept {T : Nat} {r s : State} {x0 : Fin 2} {x1 : Word} (h : Kept T r s) (hT : Within 16777246 T) : KeptO T r (execMailboxUnknownCommand x0 x1 s) := by
  unfold execMailboxUnknownCommand
  repeat' first
    | with_reducible apply KeptO.ite
    | with_reducible apply Kept.ite
    | with_reducible assumption
    | exact Within.of hT rfl
    | with_reducible apply KeptO.next
    | (with_reducible apply whenAllowed_kept; on_goal 2 => (intro _ _; beta_reduce))
    | with_reducible apply State.gate_kept
    | with_reducible apply State.set_kept
    | with_reducible apply State.bufClear_kept
    | (fail_if_no_progress with_reducible refine Kept.mk' ?_ rfl rfl)

theorem State.challenge_kept {T : Nat} {r s : State} {x1 : BitVec 256} (h : Kept T r s) (hT : Within 16 T) : Kept T r (State.challenge s x1).st := by
  unfold State.challenge
  repeat' first
    | with_reducible apply Kept.iteSt
    | with_reducible apply Kept.ite
    | with_reducible assumption
    | exact Within.of hT rfl
    | with_reducible apply State.say_kept
    | (fail_if_no_progress with_reducible refine Kept.mk' ?_ rfl rfl)

theorem execChallenge_kept {T : Nat} {r s : State} {x0 : Fin 2} {x1 : Word} {x2 : BitVec 256} (h : Kept T r s) (hT : Within 16777246 T) : KeptO T r (execChallenge x0 x1 x2 s) := by
  unfold execChallenge
  repeat' first
    | with_reducible assumption
    | exact Within.of hT rfl
    | with_reducible apply KeptO.next
    | (with_reducible apply State.secGo_kept; on_goal 2 => (intro _ _ _; beta_reduce))
    | with_reducible apply State.challenge_kept

theorem execChallengeLapsed_kept {T : Nat} {r s : State}  (h : Kept T r s) (hT : Within 16 T) : KeptO T r (execChallengeLapsed s) := by
  unfold execChallengeLapsed
  repeat' first
    | with_reducible apply KeptO.ite
    | with_reducible apply Kept.ite
    | with_reducible assumption
    | exact Within.of hT rfl
    | with_reducible apply KeptO.next
    | (fail_if_no_progress with_reducible refine Kept.mk' ?_ rfl rfl)

theorem State.grantFailed_kept {T : Nat} {r s : State} {x1 : ℕ} {x2 : ℕ} (h : Kept T r s) (hT : Within 16777246 T) : Kept T r (State.grantFailed s x1 x2) := by
  unfold State.grantFailed
  repeat' first
    | with_reducible apply Kept.ite
    | with_reducible assumption
    | exact Within.of hT rfl
    | with_reducible apply State.log_kept
    | with_reducible apply State.set_kept
    | (fail_if_no_progress with_reducible refine Kept.mk' ?_ rfl rfl)

theorem State.sessionOpen_kept {T : Nat} {r s : State} {x1 : List Byte} (h : Kept T r s) (hT : Within 17827871 T) : Kept T r (State.sessionOpen s x1) := by
  unfold State.sessionOpen
  repeat' first
    | with_reducible apply Kept.ite
    | with_reducible assumption
    | exact Within.of hT rfl
    | with_reducible apply State.sessionClose_kept
    | with_reducible apply State.set_kept
    | with_reducible apply State.log_kept
    | with_reducible apply State.raise_kept
    | (fail_if_no_progress with_reducible refine Kept.mk' ?_ rfl rfl)

theorem State.grant_kept {T : Nat} {r s : State} {x1 : List Byte} {x2 : Bool} (h : Kept T r s) (hT : Within 17827871 T) : Kept T r (State.grant s x1 x2).st := by
  unfold State.grant
  repeat' first
    | with_reducible apply Kept.iteSt
    | with_reducible apply Kept.ite
    | with_reducible assumption
    | exact Within.of hT rfl
    | with_reducible apply State.say_kept
    | with_reducible apply State.sessionOpen_kept
    | with_reducible apply State.grantFailed_kept
    | (fail_if_no_progress with_reducible refine Kept.mk' ?_ rfl rfl)

theorem execGrant_kept {T : Nat} {r s : State} {x0 : Fin 2} {x1 : Word} {x2 : Bool} (h : Kept T r s) (hT : Within 17827871 T) : KeptO T r (execGrant x0 x1 x2 s) := by
  unfold execGrant
  repeat' first
    | with_reducible assumption
    | exact Within.of hT rfl
    | with_reducible apply KeptO.next
    | (with_reducible apply State.secGo_kept; on_goal 2 => (intro _ _ _; beta_reduce))
    | with_reducible apply State.grant_kept

theorem execLockoutEnd_kept {T : Nat} {r s : State}  (h : Kept T r s) (hT : Within 18 T) : KeptO T r (execLockoutEnd s) := by
  unfold execLockoutEnd
  repeat' first
    | with_reducible apply KeptO.ite
    | with_reducible apply Kept.ite
    | with_reducible assumption
    | exact Within.of hT rfl
    | with_reducible apply KeptO.next
    | with_reducible apply State.set_kept
    | (fail_if_no_progress with_reducible refine Kept.mk' ?_ rfl rfl)

theorem execSessionLifetimeExpired_kept {T : Nat} {r s : State}  (h : Kept T r s) (hT : Within 17827871 T) : KeptO T r (execSessionLifetimeExpired s) := by
  unfold execSessionLifetimeExpired
  repeat' first
    | with_reducible apply KeptO.ite
    | with_reducible apply Kept.ite
    | with_reducible assumption
    | exact Within.of hT rfl
    | with_reducible apply KeptO.next
    | with_reducible apply State.sessionClose_kept

theorem execSessionIdleExpired_kept {T : Nat} {r s : State}  (h : Kept T r s) (hT : Within 17827871 T) : KeptO T r (execSessionIdleExpired s) := by
  unfold execSessionIdleExpired
  repeat' first
    | with_reducible apply KeptO.ite
    | with_reducible apply Kept.ite
    | with_reducible assumption
    | exact Within.of hT rfl
    | with_reducible apply KeptO.next
    | with_reducible apply State.sessionClose_kept

theorem execSessionClose_kept {T : Nat} {r s : State} {x0 : Fin 2} {x1 : Word} (h : Kept T r s) (hT : Within 17827871 T) : KeptO T r (execSessionClose x0 x1 s) := by
  unfold execSessionClose
  repeat' first
    | with_reducible apply KeptO.ite
    | with_reducible apply Kept.ite
    | with_reducible assumption
    | exact Within.of hT rfl
    | with_reducible apply KeptO.next
    | (with_reducible apply whenAllowed_kept; on_goal 2 => (intro _ _; beta_reduce))
    | with_reducible apply State.gate_kept
    | with_reducible apply State.sessionClose_kept

theorem State.signReport_kept {T : Nat} {r s : State} {x1 : ℕ} {x2 : List Byte} {x3 : ℕ} {x4 : ℕ} (h : Kept T r s) (hT : Within 16777246 T) : Kept T r (State.signReport s x1 x2 x3 x4).2 := by
  unfold State.signReport
  repeat' first
    | with_reducible apply Kept.ite2
    | with_reducible apply Kept.ite
    | with_reducible assumption
    | exact Within.of hT rfl
    | with_reducible apply State.log_kept
    | with_reducible apply State.set_kept
    | with_reducible apply State.raise_kept
    | (fail_if_no_progress with_reducible refine Kept.mk' ?_ rfl rfl)

theorem State.attest_kept {T : Nat} {r s : State} {x1 : List Byte} (h : Kept T r s) (hT : Within 16777246 T) : Kept T r (State.attest s x1).st := by
  unfold State.attest
  repeat' first
    | with_reducible apply Kept.iteSt
    | with_reducible apply Kept.ite
    | with_reducible assumption
    | exact Within.of hT rfl
    | with_reducible apply State.say_kept
    | with_reducible apply State.signReport_kept
    | (fail_if_no_progress with_reducible refine Kept.mk' ?_ rfl rfl)

theorem execAttest_kept {T : Nat} {r s : State} {x0 : Fin 2} {x1 : Word} (h : Kept T r s) (hT : Within 16777246 T) : KeptO T r (execAttest x0 x1 s) := by
  unfold execAttest
  repeat' first
    | with_reducible assumption
    | exact Within.of hT rfl
    | with_reducible apply KeptO.next
    | (with_reducible apply State.secGo_kept; on_goal 2 => (intro _ _ _; beta_reduce))
    | with_reducible apply State.attest_kept

theorem State.identity_kept {T : Nat} {r s : State}  (h : Kept T r s) (hT : Within 0 T) : Kept T r (State.identity s).st := by
  unfold State.identity
  repeat' first
    | with_reducible assumption
    | exact Within.of hT rfl

theorem execIdentity_kept {T : Nat} {r s : State} {x0 : Fin 2} {x1 : Word} (h : Kept T r s) (hT : Within 16777246 T) : KeptO T r (execIdentity x0 x1 s) := by
  unfold execIdentity
  repeat' first
    | with_reducible assumption
    | exact Within.of hT rfl
    | with_reducible apply KeptO.next
    | (with_reducible apply State.secGo_kept; on_goal 2 => (intro _ _ _; beta_reduce))
    | with_reducible apply State.identity_kept

theorem State.runImage_kept {T : Nat} {r s : State} {x1 : ℕ} {x2 : Image} (h : Kept T r s) (hT : Within 18 T) : Kept T r (State.runImage s x1 x2) := by
  unfold State.runImage
  repeat' first
    | with_reducible apply Kept.ite
    | with_reducible assumption
    | exact Within.of hT rfl
    | with_reducible apply State.set_kept
    | (fail_if_no_progress with_reducible refine Kept.mk' ?_ rfl rfl)

theorem State.imageRefused_kept {T : Nat} {r s : State} {x1 : ℕ} {x2 : Option Image} {x3 : ℕ} (h : Kept T r s) (hT : Within 16777230 T) : Kept T r (State.imageRefused s x1 x2 x3).st := by
  unfold State.imageRefused
  repeat' first
    | with_reducible assumption
    | exact Within.of hT rfl
    | with_reducible apply State.say_kept
    | with_reducible apply State.log_kept

theorem State.install_kept {T : Nat} {r s : State} {x1 : List Byte} {x2 : Option Image} {x3 : Bool} (h : Kept T r s) (hT : Within 16777246 T) : Kept T r (State.install s x1 x2 x3).st := by
  unfold State.install
  repeat' first
    | with_reducible apply Kept.iteSt
    | with_reducible apply Kept.ite
    | with_reducible assumption
    | exact Within.of hT rfl
    | with_reducible apply State.imageRefused_kept
    | with_reducible apply State.say_kept
    | with_reducible apply State.log_kept
    | (fail_if_no_progress with_reducible refine Kept.mk' ?_ rfl rfl)
    | split

theorem execInstall_kept {T : Nat} {r s : State} {x0 : Fin 2} {x1 : Word} {x2 : Option Image} {x3 : Bool} (h : Kept T r s) (hT : Within 16777246 T) : KeptO T r (execInstall x0 x1 x2 x3 s) := by
  unfold execInstall
  repeat' first
    | with_reducible assumption
    | exact Within.of hT rfl
    | with_reducible apply KeptO.next
    | (with_reducible apply State.secGo_kept; on_goal 2 => (intro _ _ _; beta_reduce))
    | (with_reducible apply State.withRight_kept; on_goal 2 => (intro _ _; beta_reduce))
    | with_reducible apply State.install_kept

theorem State.svnCommit_kept {T : Nat} {r s : State} {x1 : ℕ} (h : Kept T r s) (hT : Within 16777230 T) : Kept T r (State.svnCommit s x1).st := by
  unfold State.svnCommit
  repeat' first
    | with_reducible apply Kept.iteSt
    | with_reducible apply Kept.ite
    | with_reducible assumption
    | exact Within.of hT rfl
    | with_reducible apply State.say_kept
    | with_reducible apply State.log_kept
    | with_reducible apply State.set_kept

theorem execSvnCommit_kept {T : Nat} {r s : State} {x0 : Fin 2} {x1 : Word} (h : Kept T r s) (hT : Within 16777246 T) : KeptO T r (execSvnCommit x0 x1 s) := by
  unfold execSvnCommit
  repeat' first
    | with_reducible assumption
    | exact Within.of hT rfl
    | with_reducible apply KeptO.next
    | (with_reducible apply State.secGo_kept; on_goal 2 => (intro _ _ _; beta_reduce))
    | (with_reducible apply State.withRight_kept; on_goal 2 => (intro _ _; beta_reduce))
    | with_reducible apply State.svnCommit_kept

theorem State.keyChange_kept {T : Nat} {r s : State} {x1 : ℕ} {x2 : ℕ} (h : Kept T r s) (hT : Within 16777230 T) : Kept T r (State.keyChange s x1 x2) := by
  unfold State.keyChange
  repeat' first
    | with_reducible assumption
    | exact Within.of hT rfl
    | with_reducible apply State.log_kept
    | with_reducible apply State.raise_kept

theorem State.keyProgram_kept {T : Nat} {r s : State} {x1 : List Byte} {x2 : Bool} (h : Kept T r s) (hT : Within 16777246 T) : Kept T r (State.keyProgram s x1 x2).st := by
  unfold State.keyProgram
  repeat' first
    | with_reducible apply Kept.iteSt
    | with_reducible apply Kept.ite
    | with_reducible assumption
    | exact Within.of hT rfl
    | with_reducible apply State.say_kept
    | with_reducible apply State.set_kept
    | with_reducible apply State.keyChange_kept
    | (fail_if_no_progress with_reducible refine Kept.mk' ?_ rfl rfl)

theorem execKeyProgram_kept {T : Nat} {r s : State} {x0 : Fin 2} {x1 : Word} {x2 : Bool} (h : Kept T r s) (hT : Within 16777246 T) : KeptO T r (execKeyProgram x0 x1 x2 s) := by
  unfold execKeyProgram
  repeat' first
    | with_reducible assumption
    | exact Within.of hT rfl
    | with_reducible apply KeptO.next
    | (with_reducible apply State.secGo_kept; on_goal 2 => (intro _ _ _; beta_reduce))
    | (with_reducible apply State.withRight_kept; on_goal 2 => (intro _ _; beta_reduce))
    | with_reducible apply State.keyProgram_kept

theorem State.keyRevoke_kept {T : Nat} {r s : State} {x1 : ℕ} (h : Kept T r s) (hT : Within 17827871 T) : Kept T r (State.keyRevoke s x1).st := by
  unfold State.keyRevoke
  repeat' first
    | with_reducible apply Kept.iteSt
    | with_reducible apply Kept.ite
    | with_reducible assumption
    | exact Within.of hT rfl
    | with_reducible apply State.say_kept
    | with_reducible apply State.keyChange_kept
    | with_reducible apply State.set_kept
    | with_reducible apply State.sessionClose_kept

theorem execKeyRevoke_kept {T : Nat} {r s : State} {x0 : Fin 2} {x1 : Word} (h : Kept T r s) (hT : Within 17827871 T) : KeptO T r (execKeyRevoke x0 x1 s) := by
  unfold execKeyRevoke
  repeat' first
    | with_reducible assumption
    | exact Within.of hT rfl
    | with_reducible apply KeptO.next
    | (with_reducible apply State.secGo_kept; on_goal 2 => (intro _ _ _; beta_reduce))
    | (with_reducible apply State.withRight_kept; on_goal 2 => (intro _ _; beta_reduce))
    | with_reducible apply State.keyRevoke_kept

theorem State.lcEnter_kept {T : Nat} {r s : State} {x1 : ℕ} (h : Kept T r s) (hT : Within 17827871 T) : Kept T r (State.lcEnter s x1) := by
  unfold State.lcEnter
  repeat' first
    | with_reducible assumption
    | exact Within.of hT rfl
    | with_reducible apply State.set_kept
    | with_reducible apply State.sessionClose_kept
    | with_reducible apply State.log_kept

theorem State.lcChange_kept {T : Nat} {r s : State} {x1 : ℕ} (h : Kept T r s) (hT : Within 17827871 T) : Kept T r (State.lcChange s x1) := by
  unfold State.lcChange
  repeat' first
    | with_reducible assumption
    | exact Within.of hT rfl
    | with_reducible apply State.raise_kept
    | with_reducible apply State.lcEnter_kept

theorem State.wipeStores_kept {T : Nat} {r s : State}  (h : Kept T r s) (hT : Within 17312286 T) : Kept T r (State.wipeStores s) := by
  unfold State.wipeStores
  repeat' first
    | with_reducible apply Kept.ite
    | with_reducible assumption
    | exact Within.of hT rfl
    | with_reducible apply State.set_kept
    | with_reducible apply State.raise_kept
    | with_reducible apply State.zeroSpace_kept
    | with_reducible apply State.arcRegs_kept
    | with_reducible apply State.celCount_kept
    | (fail_if_no_progress with_reducible refine Kept.mk' ?_ rfl rfl)
    | (with_reducible apply Kept.foldl; on_goal 2 => (intro _ _ _; beta_reduce))
    | (with_reducible apply Kept.foldlSnd; on_goal 2 => (intro _ _ _; beta_reduce))
    | split

theorem State.decommission_kept {T : Nat} {r s : State} {x1 : ℕ} (h : Kept T r s) (hT : Within 22952511 T) : Kept T r (State.decommission s x1) := by
  unfold State.decommission
  repeat' first
    | with_reducible apply Kept.ite
    | with_reducible assumption
    | exact Within.of hT rfl
    | with_reducible apply State.lcEnter_kept
    | with_reducible apply State.haltEnter_kept
    | with_reducible apply State.set_kept
    | with_reducible apply State.wipeStores_kept
    | (fail_if_no_progress with_reducible refine Kept.mk' ?_ rfl rfl)

theorem State.wipeDone_kept {T : Nat} {r s : State}  (h : Kept T r s) (hT : Within 16777247 T := by
    first | exact Within.refl _ | (refine Within.of (b := ?zb) ?zw ?ze; (case zw => assumption); (case ze => decide))) : Kept T r (State.wipeDone s) := by
  unfold State.wipeDone
  repeat' first
    | with_reducible apply Kept.ite
    | with_reducible assumption
    | exact Within.of hT rfl
    | with_reducible apply State.fresh_kept
    | with_reducible apply State.signReport_kept
    | with_reducible apply State.raise_kept
    | with_reducible apply State.set_kept
    | (fail_if_no_progress with_reducible refine Kept.mk' ?_ rfl rfl)

theorem State.lifecycle_kept {T : Nat} {r s : State} {x1 : ℕ} {x2 : List Byte} {x3 : Bool} {x4 : ℕ} (h : Kept T r s) (hT : Within 22952511 T) : Kept T r (State.lifecycle s x1 x2 x3 x4).st := by
  unfold State.lifecycle
  repeat' first
    | with_reducible apply Kept.iteSt
    | with_reducible apply Kept.ite
    | with_reducible assumption
    | exact Within.of hT rfl
    | with_reducible apply State.say_kept
    | with_reducible apply State.lcChange_kept
    | with_reducible apply State.pwrBusy_kept
    | with_reducible apply State.maintLeave_kept
    | with_reducible apply State.decommission_kept
    | (fail_if_no_progress with_reducible refine Kept.mk' ?_ rfl rfl)

theorem execLifecycle_kept {T : Nat} {r s : State} {x0 : Fin 2} {x1 : Word} {x2 : Bool} {x3 : BitVec 9} (h : Kept T r s) (hT : Within 22952511 T) : KeptO T r (execLifecycle x0 x1 x2 x3 s) := by
  unfold execLifecycle
  repeat' first
    | with_reducible assumption
    | exact Within.of hT rfl
    | with_reducible apply KeptO.next
    | (with_reducible apply State.secGo_kept; on_goal 2 => (intro _ _ _; beta_reduce))
    | with_reducible apply State.lifecycle_kept

theorem State.wipeReport_kept {T : Nat} {r s : State}  (h : Kept T r s) (hT : Within 0 T) : Kept T r (State.wipeReport s).st := by
  unfold State.wipeReport
  repeat' first
    | with_reducible apply Kept.iteSt
    | with_reducible apply Kept.ite
    | with_reducible assumption
    | exact Within.of hT rfl
    | with_reducible apply State.say_kept

theorem execWipeReport_kept {T : Nat} {r s : State} {x0 : Fin 2} {x1 : Word} (h : Kept T r s) (hT : Within 16777246 T) : KeptO T r (execWipeReport x0 x1 s) := by
  unfold execWipeReport
  repeat' first
    | with_reducible assumption
    | exact Within.of hT rfl
    | with_reducible apply KeptO.next
    | (with_reducible apply State.secGo_kept; on_goal 2 => (intro _ _ _; beta_reduce))
    | with_reducible apply State.wipeReport_kept

theorem execTamperSet_kept {T : Nat} {r s : State} {x0 : Fin 4} (h : Kept T r s) (hT : Within 17827871 T) : KeptO T r (execTamperSet x0 s) := by
  unfold execTamperSet
  repeat' first
    | with_reducible apply KeptO.ite
    | with_reducible apply Kept.ite
    | with_reducible assumption
    | exact Within.of hT rfl
    | with_reducible apply KeptO.next
    | with_reducible apply State.set_kept
    | with_reducible apply State.tamperSet_kept

theorem State.tamperClear_kept {T : Nat} {r s : State} {x1 : Bool} (h : Kept T r s) (hT : Within 16777230 T) : Kept T r (State.tamperClear s x1).st := by
  unfold State.tamperClear
  repeat' first
    | with_reducible apply Kept.iteSt
    | with_reducible apply Kept.ite
    | with_reducible assumption
    | exact Within.of hT rfl
    | with_reducible apply State.say_kept
    | with_reducible apply State.set_kept
    | with_reducible apply State.lastResort_kept

theorem execTamperClear_kept {T : Nat} {r s : State} {x0 : Fin 2} {x1 : Word} {x2 : Bool} (h : Kept T r s) (hT : Within 16777246 T) : KeptO T r (execTamperClear x0 x1 x2 s) := by
  unfold execTamperClear
  repeat' first
    | with_reducible apply KeptO.ite
    | with_reducible apply Kept.ite
    | with_reducible assumption
    | exact Within.of hT rfl
    | with_reducible apply KeptO.next
    | (with_reducible apply State.secGo_kept; on_goal 2 => (intro _ _ _; beta_reduce))
    | with_reducible apply State.say_kept
    | with_reducible apply State.tamperClear_kept
    | (fail_if_no_progress with_reducible refine Kept.mk' ?_ rfl rfl)
    | split

theorem State.uartCommand_kept {T : Nat} {r s : State} {x1 : ℕ} {x2 : List Byte} {x3 : BitVec 256} {x4 : Bool} (h : Kept T r s) (hT : Within 17827871 T) : Kept T r (State.uartCommand s x1 x2 x3 x4).st := by
  unfold State.uartCommand
  repeat' first
    | with_reducible apply Kept.iteSt
    | with_reducible apply Kept.ite
    | with_reducible assumption
    | exact Within.of hT rfl
    | with_reducible apply State.challenge_kept
    | with_reducible apply State.identity_kept
    | with_reducible apply State.wipeReport_kept
    | with_reducible apply State.keyProgram_kept
    | with_reducible apply State.lcChange_kept
    | with_reducible apply State.say_kept

theorem State.uartRun_kept {T : Nat} {r s : State} {x1 : List Byte} {x2 : BitVec 256} {x3 : Bool} (h : Kept T r s) (hT : Within 17827871 T := by
    first | exact Within.refl _ | (refine Within.of (b := ?zb) ?zw ?ze; (case zw => assumption); (case ze => decide))) : Kept T r (State.uartRun s x1 x2 x3) := by
  unfold State.uartRun
  repeat' first
    | with_reducible apply Kept.ite
    | with_reducible assumption
    | exact Within.of hT rfl
    | with_reducible apply State.uartCommand_kept
    | with_reducible apply State.emit_kept
    | (fail_if_no_progress with_reducible refine Kept.mk' ?_ rfl rfl)
    | split

theorem execServiceUartFrame_kept {T : Nat} {r s : State} {x0 : List Byte} {x1 : BitVec 256} {x2 : Bool} (h : Kept T r s) (hT : Within 17827871 T) : KeptO T r (execServiceUartFrame x0 x1 x2 s) := by
  unfold execServiceUartFrame
  repeat' first
    | with_reducible apply KeptO.ite
    | with_reducible apply Kept.ite
    | with_reducible assumption
    | exact Within.of hT rfl
    | with_reducible apply KeptO.next
    | with_reducible apply State.uartRun_kept
    | (fail_if_no_progress with_reducible refine Kept.mk' ?_ rfl rfl)

theorem sec_kept {T : Nat} {r s : State} {x : SecSt} (h : Kept T r s) (hT : Within 16 T := by
    first | exact Within.refl _ | (refine Within.of (b := ?zb) ?zw ?ze; (case zw => assumption); (case ze => decide))) : Kept T r { s with sec := x } := Kept.mk' h rfl rfl

theorem uart_kept {T : Nat} {r s : State} {w : Option (List Byte × BitVec 256 × Bool)} (h : Kept T r s) (hT : Within 17827871 T := by
    first | exact Within.refl _ | (refine Within.of (b := ?zb) ?zw ?ze; (case zw => assumption); (case ze => decide))) :
    Kept T r (match w with
      | some (fr, nonce, ok) => s.uartRun fr nonce ok
      | none => s) := by
  cases w with
  | none => exact h
  | some x => exact State.uartRun_kept h

theorem execMailboxDone_kept {T : Nat} {r s : State} (h : Kept T r s) (hT : Within 17827871 T) : KeptO T r (execMailboxDone s) := by
  have k : ∀ {n : Nat} {b : List Byte} {k : Nat}, Kept T r ((((((s.wipeDone).bufFill b).set F.SEC_LEN.RSP k).set F.SEC_CMD.RESULT n).set
      F.SEC_CMD.BUSY 0).raise F.SEC_EVT.DONE) :=
    State.raise_kept (State.set_kept (State.set_kept (State.set_kept (State.bufFill_kept (State.wipeDone_kept h)))))
  unfold execMailboxDone
  split
  · refine .ite (.next h) (.next (uart_kept (sec_kept k)))
  · exact .next h

theorem execMailboxResponseExpired_kept {T : Nat} {r s : State}  (h : Kept T r s) (hT : Within 16 T) : KeptO T r (execMailboxResponseExpired s) := by
  unfold execMailboxResponseExpired
  repeat' first
    | with_reducible apply KeptO.ite
    | with_reducible apply Kept.ite
    | with_reducible assumption
    | exact Within.of hT rfl
    | with_reducible apply KeptO.next
    | (fail_if_no_progress with_reducible refine Kept.mk' ?_ rfl rfl)

/-! ## Machine/FpCheck.lean -/

theorem State.takeSettings_kept {T : Nat} {r s : State} {x1 : FpConfig} (h : Kept T r s) (hT : Within 2 T) : Kept T r (State.takeSettings s x1) := by
  unfold State.takeSettings
  repeat' first
    | with_reducible apply Kept.ite
    | with_reducible assumption
    | exact Within.of hT rfl
    | with_reducible apply State.wr_kept
    | (fail_if_no_progress with_reducible refine Kept.mk' ?_ rfl rfl)
    | (with_reducible apply Kept.foldl; on_goal 2 => (intro _ _ _; beta_reduce))
    | (with_reducible apply Kept.foldlSnd; on_goal 2 => (intro _ _ _; beta_reduce))
    | split

theorem State.linkContexts_kept {T : Nat} {r s : State}  (h : Kept T r s) (hT : Within 2 T) : Kept T r (State.linkContexts s) := by
  unfold State.linkContexts
  repeat' first
    | with_reducible apply Kept.ite
    | with_reducible assumption
    | exact Within.of hT rfl
    | with_reducible apply State.set_kept
    | with_reducible apply State.wr_kept
    | (fail_if_no_progress with_reducible refine Kept.mk' ?_ rfl rfl)
    | (with_reducible apply Kept.foldl; on_goal 2 => (intro _ _ _; beta_reduce))
    | (with_reducible apply Kept.foldlSnd; on_goal 2 => (intro _ _ _; beta_reduce))
    | split

theorem State.loadSettings_kept {T : Nat} {r s : State} {x1 : FpConfig} (h : Kept T r s) (hT : Within 1026 T) : Kept T r (State.loadSettings s x1) := by
  unfold State.loadSettings
  repeat' first
    | with_reducible apply Kept.ite
    | with_reducible assumption
    | exact Within.of hT rfl
    | with_reducible apply State.linkContexts_kept
    | with_reducible apply State.takeSettings_kept
    | with_reducible apply State.wr_kept
    | (fail_if_no_progress with_reducible refine Kept.mk' ?_ rfl rfl)

theorem State.injRestart_kept {T : Nat} {r s : State} {x1 : State} (h : Kept T r s) (hT : Within 514 T := by
    first | exact Within.refl _ | (refine Within.of (b := ?zb) ?zw ?ze; (case zw => assumption); (case ze => decide))) : Kept T r (State.injRestart s x1) := by
  unfold State.injRestart
  repeat' first
    | with_reducible apply Kept.ite
    | with_reducible assumption
    | exact Within.of hT rfl
    | with_reducible apply State.setChan_kept
    | with_reducible apply State.setPair_kept
    | with_reducible apply State.restartGroup_kept
    | with_reducible apply State.setRule_kept
    | with_reducible apply State.restartRule_kept
    | (fail_if_no_progress with_reducible refine Kept.mk' ?_ rfl rfl)
    | (with_reducible apply Kept.foldl; on_goal 2 => (intro _ _ _; beta_reduce))
    | (with_reducible apply Kept.foldlSnd; on_goal 2 => (intro _ _ _; beta_reduce))
    | split

theorem State.ctxRestart_kept {T : Nat} {r s : State} {x1 : State} (h : Kept T r s) (hT : Within 16908426 T) : Kept T r (State.ctxRestart s x1) := by
  unfold State.ctxRestart
  repeat' first
    | with_reducible apply Kept.ite
    | with_reducible assumption
    | exact Within.of hT rfl
    | with_reducible apply State.ctxAnew_kept
    | with_reducible apply State.settle_kept
    | with_reducible apply State.setCtx_kept
    | (fail_if_no_progress with_reducible refine Kept.mk' ?_ rfl rfl)
    | (with_reducible apply Kept.foldl; on_goal 2 => (intro _ _ _; beta_reduce))
    | (with_reducible apply Kept.foldlSnd; on_goal 2 => (intro _ _ _; beta_reduce))
    | split

theorem State.inputsRestart_kept {T : Nat} {r s : State} {x1 : State} (h : Kept T r s) (hT : Within 258 T) : Kept T r (State.inputsRestart s x1) := by
  unfold State.inputsRestart
  repeat' first
    | with_reducible apply Kept.ite
    | with_reducible assumption
    | exact Within.of hT rfl
    | with_reducible apply State.binRestart_kept
    | with_reducible apply State.setBinIn_kept
    | (fail_if_no_progress with_reducible refine Kept.mk' ?_ rfl rfl)
    | (with_reducible apply Kept.foldl; on_goal 2 => (intro _ _ _; beta_reduce))
    | (with_reducible apply Kept.foldlSnd; on_goal 2 => (intro _ _ _; beta_reduce))
    | split

theorem State.channelsRestart_kept {T : Nat} {r s : State} {x1 : State} (h : Kept T r s) (hT : Within 16875534 T) : Kept T r (State.channelsRestart s x1) := by
  unfold State.channelsRestart
  repeat' first
    | with_reducible apply Kept.ite
    | with_reducible assumption
    | exact Within.of hT rfl
    | with_reducible apply State.uchReconfigure_kept
    | (fail_if_no_progress with_reducible refine Kept.mk' ?_ rfl rfl)
    | (with_reducible apply Kept.foldl; on_goal 2 => (intro _ _ _; beta_reduce))
    | (with_reducible apply Kept.foldlSnd; on_goal 2 => (intro _ _ _; beta_reduce))
    | split

theorem State.recordClose_kept {T : Nat} {r s : State} {x1 : ℕ} {x2 : LftRec} (h : Kept T r s) (hT : Within 17301514 T := by
    first | exact Within.refl _ | (refine Within.of (b := ?zb) ?zw ?ze; (case zw => assumption); (case ze => decide))) : Kept T r (State.recordClose s x1 x2) := by
  unfold State.recordClose
  repeat' first
    | with_reducible apply Kept.ite
    | with_reducible assumption
    | exact Within.of hT rfl
    | with_reducible apply State.modRec_kept
    | with_reducible apply State.addGap_kept
    | (fail_if_no_progress with_reducible refine Kept.mk' ?_ rfl rfl)

theorem State.loftRestart_kept {T : Nat} {r s : State} {x1 : State} (h : Kept T r s) (hT : Within 17301514 T) : Kept T r (State.loftRestart s x1) := by
  unfold State.loftRestart
  repeat' first
    | with_reducible apply Kept.ite
    | with_reducible assumption
    | exact Within.of hT rfl
    | with_reducible apply State.setCmp_kept
    | with_reducible apply State.recordClose_kept
    | with_reducible apply State.restartSentence_kept
    | (fail_if_no_progress with_reducible refine Kept.mk' ?_ rfl rfl)
    | (with_reducible apply Kept.foldl; on_goal 2 => (intro _ _ _; beta_reduce))
    | (with_reducible apply Kept.foldlSnd; on_goal 2 => (intro _ _ _; beta_reduce))
    | split

theorem State.fpApply_kept {T : Nat} {r s : State} {x1 : FpConfig} (h : Kept T r s) (hT : Within 25921423 T := by
    first | exact Within.refl _ | (refine Within.of (b := ?zb) ?zw ?ze; (case zw => assumption); (case ze => decide))) : Kept T r (State.fpApply s x1) := by
  unfold State.fpApply
  repeat' first
    | with_reducible apply Kept.ite
    | with_reducible assumption
    | exact Within.of hT rfl
    | with_reducible apply State.loadSettings_kept
    | with_reducible apply State.inputsRestart_kept
    | with_reducible apply State.ctxRestart_kept
    | with_reducible apply State.injRestart_kept
    | with_reducible apply State.loftRestart_kept
    | with_reducible apply State.channelsRestart_kept
    | with_reducible apply State.gooseRestart_kept
    | with_reducible apply State.timConfig_kept
    | (fail_if_no_progress with_reducible refine Kept.mk' ?_ rfl rfl)

theorem execFastpathConfigEffect_kept {T : Nat} {r s : State}  (h : Kept T r s) (hT : Within 25921439 T) : KeptO T r (execFastpathConfigEffect s) := by
  unfold execFastpathConfigEffect
  repeat' first
    | with_reducible apply KeptO.ite
    | with_reducible apply Kept.ite
    | with_reducible assumption
    | exact Within.of hT rfl
    | with_reducible apply KeptO.next
    | with_reducible apply State.runImage_kept
    | with_reducible apply State.fpApply_kept
    | (fail_if_no_progress with_reducible refine Kept.mk' ?_ rfl rfl)
    | split

/-! ## Machine/Scrub.lean -/

theorem State.setEcc_kept {T : Nat} {r s : State} {x1 : ℕ} {x2 : ℕ} (h : Kept T r s) (hT : Within 2097152 T) : Kept T r (State.setEcc s x1 x2) := by
  unfold State.setEcc
  repeat' first
    | with_reducible apply Kept.ite
    | with_reducible assumption
    | exact Within.of hT rfl
    | (fail_if_no_progress with_reducible refine Kept.mk' ?_ rfl rfl)

theorem State.eccCorrected_kept {T : Nat} {r s : State} {x1 : ℕ} (h : Kept T r s) (hT : Within 18874382 T) : Kept T r (State.eccCorrected s x1) := by
  unfold State.eccCorrected
  repeat' first
    | with_reducible apply Kept.ite
    | with_reducible assumption
    | exact Within.of hT rfl
    | with_reducible apply State.setEcc_kept
    | with_reducible apply State.bump_kept
    | with_reducible apply State.logNamed_kept
    | with_reducible apply State.raise_kept

theorem State.scapLose_kept {T : Nat} {r s : State} {x1 : ℕ} {x2 : ℕ} (h : Kept T r s) (hT : Within 512 T) : Kept T r (State.scapLose s x1 x2) := by
  unfold State.scapLose
  repeat' first
    | with_reducible apply Kept.ite
    | with_reducible assumption
    | exact Within.of hT rfl
    | (fail_if_no_progress with_reducible refine Kept.mk' ?_ rfl rfl)

theorem State.eccUncorr_kept {T : Nat} {r s : State} {x1 : ℕ} {x2 : ErrPlace} (h : Kept T r s) (hT : Within 21903918 T) : Kept T r (State.eccUncorr s x1 x2) := by
  unfold State.eccUncorr
  repeat' first
    | with_reducible apply Kept.ite
    | with_reducible assumption
    | exact Within.of hT rfl
    | with_reducible apply State.laneFail_kept
    | with_reducible apply State.stemCause_kept
    | with_reducible apply State.haltEnter_kept
    | with_reducible apply State.scapLose_kept
    | with_reducible apply State.setPan_kept
    | (fail_if_no_progress with_reducible refine Kept.mk' ?_ rfl rfl)
    | split

theorem State.eccError_kept {T : Nat} {r s : State} {x1 : ℕ} {x2 : ℕ} {x3 : Bool} {x4 : ErrPlace} (h : Kept T r s) (hT : Within 24001070 T := by
    first | exact Within.refl _ | (refine Within.of (b := ?zb) ?zw ?ze; (case zw => assumption); (case ze => decide))) : Kept T r (State.eccError s x1 x2 x3 x4) := by
  unfold State.eccError
  repeat' first
    | with_reducible apply Kept.ite
    | with_reducible assumption
    | exact Within.of hT rfl
    | with_reducible apply State.eccUncorr_kept
    | with_reducible apply State.ueCount_kept
    | with_reducible apply State.eccCorrected_kept
    | with_reducible apply State.wr_kept
    | (fail_if_no_progress with_reducible refine Kept.mk' ?_ rfl rfl)

theorem execScrubError_kept {T : Nat} {r s : State} {x0 : Fin 16} {x1 : BitVec 34} {x2 : Bool} {x3 : ErrPlace} (h : Kept T r s) (hT : Within 24001070 T) : KeptO T r (execScrubError x0 x1 x2 x3 s) := by
  unfold execScrubError
  repeat' first
    | with_reducible apply KeptO.ite
    | with_reducible apply Kept.ite
    | with_reducible assumption
    | exact Within.of hT rfl
    | with_reducible apply KeptO.next
    | with_reducible apply State.celBad_kept
    | with_reducible apply State.eccError_kept
    | (fail_if_no_progress with_reducible refine Kept.mk' ?_ rfl rfl)
    | split

theorem execScrubPassDone_kept {T : Nat} {r s : State} {x0 : Fin 16} (h : Kept T r s) (hT : Within 2097154 T) : KeptO T r (execScrubPassDone x0 s) := by
  unfold execScrubPassDone
  repeat' first
    | with_reducible apply KeptO.ite
    | with_reducible apply Kept.ite
    | with_reducible assumption
    | exact Within.of hT rfl
    | with_reducible apply KeptO.next
    | with_reducible apply State.setEcc_kept
    | with_reducible apply State.bump_kept

end Sys2Proof.Machine
end

