-- ==== Sys2Proof/Laws/KeptStart.lean ====
section
/-!
SUPPORT. Laws/KeptStart.lean: what each operation of starts, and the start of a sample period keeps (the relation Kept of Laws/Kept.lean), one lemma
per operation.
-/
set_option linter.unusedTactic false
set_option linter.unreachableTactic false
set_option linter.unusedVariables false
set_option Elab.async false
namespace Sys2Proof.Machine
open Sys2Proof

/-! ## Machine/Start.lean -/

theorem State.keeping_kept {T : Nat} {r s : State} {x1 : State} {x2 : List ℕ} {x3 : List Field} (h : Kept T r s) (hT : Within 2 T := by
    first | exact Within.refl _ | (refine Within.of (b := ?zb) ?zw ?ze; (case zw => assumption); (case ze => decide))) : Kept T r (State.keeping s x1 x2 x3) := by
  unfold State.keeping
  repeat' first
    | with_reducible apply Kept.ite
    | with_reducible assumption
    | exact Within.of hT rfl
    | with_reducible apply State.set_kept
    | with_reducible apply State.wr_kept
    | (fail_if_no_progress with_reducible refine Kept.mk' ?_ rfl rfl)
    | (with_reducible apply Kept.foldl; on_goal 2 => (intro _ _ _; beta_reduce))
    | (with_reducible apply Kept.foldlSnd; on_goal 2 => (intro _ _ _; beta_reduce))
    | split

theorem State.copyOps_kept {T : Nat} {r s : State}  (h : Kept T r s) (hT : Within 16 T := by
    first | exact Within.refl _ | (refine Within.of (b := ?zb) ?zw ?ze; (case zw => assumption); (case ze => decide))) : Kept T r (State.copyOps s) := by
  unfold State.copyOps
  repeat' first
    | with_reducible apply Kept.ite
    | with_reducible assumption
    | exact Within.of hT rfl
    | (fail_if_no_progress with_reducible refine Kept.mk' ?_ rfl rfl)

theorem State.freshSupply_kept {T : Nat} {r s : State} {x1 : ℕ} (h : Kept T r s) (hT : Within 4194306 T := by
    first | exact Within.refl _ | (refine Within.of (b := ?zb) ?zw ?ze; (case zw => assumption); (case ze => decide))) : Kept T r (State.freshSupply s x1) := by
  unfold State.freshSupply
  repeat' first
    | with_reducible assumption
    | exact Within.of hT rfl
    | with_reducible apply State.supplyIs_kept
    | with_reducible apply State.set_kept

/-- The operation keeps the queue and the canonical forms, whatever it does to SIX. -/
structure KeptBut (s t : State) : Prop where
  pending : t.pending = s.pending
  regs : s.regsWf = true → t.regsWf = true
  wf : Memory.wf s.mem = true → Memory.wf t.mem = true

theorem Kept.but {T : Nat} {s t : State} (h : Kept T s t) : KeptBut s t := ⟨h.pending, h.regs, h.wf⟩

theorem KeptBut.trans {r s t : State} (a : KeptBut r s) (b : KeptBut s t) : KeptBut r t :=
  ⟨b.pending.trans a.pending, fun e => b.regs (a.regs e), fun e => b.wf (a.wf e)⟩

theorem State.coldBase_but {s : State} {b : Boot} : KeptBut s (s.coldBase b) := by
  unfold State.coldBase
  extract_lets r0 c0 p0 t0 t1 ks tr t2 t3
  have k : KeptBut s t0 := ⟨rfl, fun _ => rfl, fun e => Memory.wf_filter e⟩
  clear_value t0
  have hT : Within 33554431 33554431 := Within.refl _
  have k1 : Kept 33554431 t0 t1 := State.freshSupply_kept (State.set_kept (State.keeping_kept (Kept.refl _ _)))
  have kr : Kept 33554431 t0 tr := Kept.mk' k1 rfl rfl
  have k2 : Kept 33554431 t0 t2 := .ite kr (State.tamperSet_kept (State.setLastWord_kept kr))
  have k3 : Kept 33554431 t0 t3 := .ite (State.mutePin_kept k2) k2
  exact k.trans (State.copyOps_kept (State.panRegs_kept (State.arcRegs_kept k3))).but

theorem State.clocksRun_kept {T : Nat} {r s : State}  (h : Kept T r s) (hT : Within 2 T) : Kept T r (State.clocksRun s) := by
  unfold State.clocksRun
  repeat' first
    | with_reducible assumption
    | exact Within.of hT rfl
    | with_reducible apply State.set_kept

theorem State.startHalt_kept {T : Nat} {r s : State} {x1 : ℕ} (h : Kept T r s) (hT : Within 16908302 T) : Kept T r (State.startHalt s x1) := by
  unfold State.startHalt
  repeat' first
    | with_reducible assumption
    | exact Within.of hT rfl
    | with_reducible apply State.set_kept
    | with_reducible apply State.log_kept
    | with_reducible apply State.setOp_kept

theorem State.opsecAdd_kept {T : Nat} {r s : State} {x1 : ℕ} (h : Kept T r s) (hT : Within 20 T := by
    first | exact Within.refl _ | (refine Within.of (b := ?zb) ?zw ?ze; (case zw => assumption); (case ze => decide))) : Kept T r (State.opsecAdd s x1) := by
  unfold State.opsecAdd
  repeat' first
    | with_reducible apply Kept.ite
    | with_reducible assumption
    | exact Within.of hT rfl
    | with_reducible apply State.copyOps_kept
    | (fail_if_no_progress with_reducible refine Kept.mk' ?_ rfl rfl)

theorem State.startSix_kept {T : Nat} {r s : State} {x1 : Boot} (h : Kept T r s) (hT : Within 8388631 T) : Kept T r (State.startSix s x1) := by
  unfold State.startSix
  by_cases e : s.clk.running = true
  · rw [if_pos e]; exact h
  · rw [if_neg e]
    refine State.set_kept (State.set64_kept (State.opsecAdd_kept ⟨h.pending, h.regs, h.wf, fun k => absurd (h.six k).1 e, fun p f => ?_⟩))
    refine Part.same_trans (h.parts p f) ?_
    cases p <;> first | rfl | (exact absurd (f.symm.trans (hT _ (by decide))) (by decide))

theorem State.startStep5_kept {T : Nat} {r s : State} {x1 : Boot} {x2 : ℕ} (h : Kept T r s) (hT : Within 29491231 T) : Kept T r (State.startStep5 s x1 x2) := by
  unfold State.startStep5
  repeat' first
    | with_reducible apply Kept.ite
    | with_reducible assumption
    | exact Within.of hT rfl
    | with_reducible apply State.startSix_kept
    | with_reducible apply State.log_kept
    | with_reducible apply State.celStart_kept
    | with_reducible apply State.setPhase_kept
    | (fail_if_no_progress with_reducible refine Kept.mk' ?_ rfl rfl)

theorem State.startSteps_kept {T : Nat} {r s : State} {x1 : Boot} {x2 : ℕ} (h : Kept T r s) (hT : Within 29492255 T) : Kept T r (State.startSteps s x1 x2) := by
  unfold State.startSteps
  repeat' first
    | with_reducible apply Kept.ite
    | with_reducible assumption
    | exact Within.of hT rfl
    | with_reducible apply State.set_kept
    | with_reducible apply State.latchStraps_kept
    | with_reducible apply State.celStart_kept
    | with_reducible apply State.startHalt_kept
    | with_reducible apply State.log_kept
    | with_reducible apply State.runImage_kept
    | with_reducible apply State.wr_kept
    | with_reducible apply State.startStep5_kept
    | with_reducible apply State.loadSettings_kept
    | (fail_if_no_progress with_reducible refine Kept.mk' ?_ rfl rfl)
    | (extract_lets +onlyGivenNames x; first
        | (have ht : (type_of% x) = State := by with_reducible rfl
           clear ht; with_reducible apply Kept.cut (T := T) (r := r) (x := x); (on_goal 2 => (intro hx; clear_value x)); (on_goal 1 => try unfold x))
        | (have ht : (type_of% x.2) = State := by with_reducible rfl
           clear ht; with_reducible apply Kept.cut (T := T) (r := r) (x := x.2); (on_goal 2 => (intro hx; clear_value x)); (on_goal 1 => try unfold x))
        | (have ht : (type_of% x) = Answer := by with_reducible rfl
           clear ht; with_reducible apply Kept.cut (T := T) (r := r) (x := x.st); (on_goal 2 => (intro hx; clear_value x)); (on_goal 1 => try unfold x))
        | (have ht : (type_of% x) = Clk := by with_reducible rfl
           clear ht)
        | (have ht : (type_of% x) = (ℕ → State) := by with_reducible rfl
           clear ht)
        | clear_value x | skip)
    | (with_reducible apply Kept.foldl; on_goal 2 => (intro _ _ _; beta_reduce))
    | (with_reducible apply Kept.foldlSnd; on_goal 2 => (intro _ _ _; beta_reduce))
    | split

theorem State.resumeWipe_kept {T : Nat} {r s : State}  (h : Kept T r s) (hT : Within 17312287 T) : Kept T r (State.resumeWipe s) := by
  unfold State.resumeWipe
  repeat' first
    | with_reducible apply Kept.ite
    | with_reducible assumption
    | exact Within.of hT rfl
    | with_reducible apply State.wipeDone_kept
    | with_reducible apply State.wipeStores_kept

theorem State.armContexts_kept {T : Nat} {r s : State}  (h : Kept T r s) (hT : Within 16908426 T) : Kept T r (State.armContexts s) := by
  unfold State.armContexts
  repeat' first
    | with_reducible apply Kept.ite
    | with_reducible assumption
    | exact Within.of hT rfl
    | with_reducible apply State.ctxAnew_kept
    | (fail_if_no_progress with_reducible refine Kept.mk' ?_ rfl rfl)
    | (with_reducible apply Kept.foldl; on_goal 2 => (intro _ _ _; beta_reduce))
    | (with_reducible apply Kept.foldlSnd; on_goal 2 => (intro _ _ _; beta_reduce))
    | split

theorem State.startSettled_kept {T : Nat} {r s : State}  (h : Kept T r s) (hT : Within 21102730 T) : Kept T r (State.startSettled s) := by
  unfold State.startSettled
  repeat' first
    | with_reducible apply Kept.ite
    | with_reducible assumption
    | exact Within.of hT rfl
    | with_reducible apply State.armContexts_kept
    | (fail_if_no_progress with_reducible refine Kept.mk' ?_ rfl rfl)

theorem State.coldRun_kept {T : Nat} {r s : State} {x1 : Boot} (h : Kept T r s) (hT : Within 30027423 T := by
    first | exact Within.refl _ | (refine Within.of (b := ?zb) ?zw ?ze; (case zw => assumption); (case ze => decide))) : Kept T r (State.coldRun s x1) := by
  unfold State.coldRun
  repeat' first
    | with_reducible assumption
    | exact Within.of hT rfl
    | with_reducible apply State.resumeWipe_kept
    | with_reducible apply State.celScan_kept
    | with_reducible apply State.clocksRun_kept
    | with_reducible apply State.startSettled_kept
    | with_reducible apply State.startSteps_kept

theorem State.warmStep1_kept {T : Nat} {r s : State} {x1 : Boot} {x2 : ℕ} (h : Kept T r s) (hT : Within 18250303 T := by
    first | exact Within.refl _ | (refine Within.of (b := ?zb) ?zw ?ze; (case zw => assumption); (case ze => decide))) : Kept T r (State.warmStep1 s x1 x2) := by
  unfold State.warmStep1
  repeat' first
    | with_reducible apply Kept.ite
    | with_reducible assumption
    | exact Within.of hT rfl
    | with_reducible apply State.sessionClose_kept
    | with_reducible apply State.log_kept
    | with_reducible apply State.forceThaw_kept
    | with_reducible apply State.setOp_kept
    | with_reducible apply State.set_kept
    | with_reducible apply State.stopFastPath_kept
    | with_reducible apply State.stopProgram_kept
    | with_reducible apply State.forcesClear_kept
    | (fail_if_no_progress with_reducible refine Kept.mk' ?_ rfl rfl)

theorem Kept.fresh {T : Nat} {r s t : State} (k : Kept T r s) (p : t.pending = s.pending) (q : s.regsWf = true → t.regsWf = true)
    (w : Memory.wf s.mem = true → Memory.wf t.mem = true) (c : t.clk = s.clk) (m : ∀ p : Part, T.testBit p.bit = false → p.same s t) :
    Kept T r t :=
  ⟨p.trans k.pending, fun e => q (k.regs e), fun e => w (k.wf e), fun e => by rw [c]; exact k.six e,
    fun p e => Part.same_trans (k.parts p e) (m p e)⟩

theorem State.warmBase_kept {T : Nat} {r s : State} {x1 : ℕ} (h : Kept T r s) (hT : Within 23068666 T) : Kept T r (State.warmBase s x1) := by
  have k : Kept T r s.extractKept := State.extractKept_kept h
  unfold State.warmBase
  generalize s.extractKept = u at k
  extract_lets u' regs sec0 sec r0 r1 t0
  have k0 : Kept T r t0 := Kept.fresh k rfl (fun e => kvWf_filter _ _ e) (fun e => Memory.wf_filter e) rfl (fun p e => by
    cases p <;> first
      | rfl
      | (exact absurd (e.symm.trans (hT _ (by decide))) (by decide)))
  clear_value t0
  exact State.panRegs_kept (State.arcRegs_kept (State.bump_kept (State.set_kept (State.setOp_kept (State.keeping_kept k0)))))

theorem State.warmRun_kept {T : Nat} {r s : State} {x1 : Boot} (h : Kept T r s) (hT : Within 29492383 T) : Kept T r (State.warmRun s x1) := by
  unfold State.warmRun
  repeat' first
    | with_reducible assumption
    | exact Within.of hT rfl
    | with_reducible apply State.startSettled_kept
    | with_reducible apply State.startSteps_kept

theorem execWarmReset_kept {T : Nat} {r s : State} {x0 : Boot} (h : Kept T r s) (hT : Within 31457279 T) : KeptO T r (execWarmReset x0 s) := by
  unfold execWarmReset
  repeat' first
    | with_reducible apply KeptO.ite
    | with_reducible apply Kept.ite
    | with_reducible assumption
    | exact Within.of hT rfl
    | with_reducible apply KeptO.next
    | with_reducible apply State.warmBase_kept
    | with_reducible apply State.warmStep1_kept
    | with_reducible apply State.warmRun_kept
    | (fail_if_no_progress with_reducible refine Kept.mk' ?_ rfl rfl)
    | split

theorem execRstNHigh_kept {T : Nat} {r s : State} {x0 : Boot} (h : Kept T r s) (hT : Within 30027423 T) : KeptO T r (execRstNHigh x0 s) := by
  unfold execRstNHigh
  repeat' first
    | with_reducible apply KeptO.ite
    | with_reducible apply Kept.ite
    | with_reducible assumption
    | exact Within.of hT rfl
    | with_reducible apply KeptO.next
    | with_reducible apply State.coldRun_kept
    | with_reducible apply State.warmRun_kept
    | (fail_if_no_progress with_reducible refine Kept.mk' ?_ rfl rfl)

theorem State.startArm_kept {T : Nat} {r s : State}  (h : Kept T r s) (hT : Within 21103118 T) : Kept T r (State.startArm s) := by
  unfold State.startArm
  repeat' first
    | with_reducible apply Kept.ite
    | with_reducible assumption
    | exact Within.of hT rfl
    | with_reducible apply State.set_kept
    | with_reducible apply State.gatesStem_kept
    | with_reducible apply State.gatesInit_kept
    | with_reducible apply State.armFastPath_kept
    | with_reducible apply State.log_kept
    | with_reducible apply State.set64_kept
    | with_reducible apply State.setOp_kept
    | with_reducible apply State.raise_kept
    | (fail_if_no_progress with_reducible refine Kept.mk' ?_ rfl rfl)

theorem State.armTick_kept {T : Nat} {r s : State}  (h : Kept T r s) (hT : Within 21103118 T) : Kept T r (State.armTick s) := by
  unfold State.armTick
  repeat' first
    | with_reducible apply Kept.ite
    | with_reducible assumption
    | exact Within.of hT rfl
    | with_reducible apply State.startArm_kept
    | (fail_if_no_progress with_reducible refine Kept.mk' ?_ rfl rfl)
    | split

theorem State.restartZero_kept {T : Nat} {r s : State}  (h : Kept T r s) (hT : Within 2048 T) : Kept T r (State.restartZero s) := by
  unfold State.restartZero
  repeat' first
    | with_reducible apply Kept.ite
    | with_reducible assumption
    | exact Within.of hT rfl
    | with_reducible apply State.zeroSpace_kept
    | (fail_if_no_progress with_reducible refine Kept.mk' ?_ rfl rfl)
    | (with_reducible apply Kept.foldl; on_goal 2 => (intro _ _ _; beta_reduce))
    | (with_reducible apply Kept.foldlSnd; on_goal 2 => (intro _ _ _; beta_reduce))
    | split

theorem State.returnFails_kept {T : Nat} {r s : State} {x1 : ℕ} (h : Kept T r s) (hT : Within 20971530 T) : Kept T r (State.returnFails s x1) := by
  unfold State.returnFails
  repeat' first
    | with_reducible assumption
    | exact Within.of hT rfl
    | with_reducible apply State.stemCause_kept

theorem State.serviceStart_kept {T : Nat} {r s : State} {x1 : ℕ} {x2 : Image} (h : Kept T r s) (hT : Within 21684766 T) : Kept T r (State.serviceStart s x1 x2) := by
  unfold State.serviceStart
  repeat' first
    | with_reducible apply Kept.ite
    | with_reducible assumption
    | exact Within.of hT rfl
    | with_reducible apply State.set_kept
    | with_reducible apply State.runImage_kept
    | with_reducible apply State.gatesInit_kept
    | with_reducible apply State.forcesClear_kept
    | with_reducible apply State.armFastPath_kept
    | with_reducible apply State.log_kept
    | with_reducible apply State.set64_kept
    | with_reducible apply State.setOp_kept
    | with_reducible apply State.lftStart_kept
    | with_reducible apply State.ethPowerUp_kept
    | with_reducible apply State.pwrBusy_kept
    | with_reducible apply State.uchPowerUp_kept
    | (fail_if_no_progress with_reducible refine Kept.mk' ?_ rfl rfl)
    | (with_reducible apply Kept.foldl; on_goal 2 => (intro _ _ _; beta_reduce))
    | (with_reducible apply Kept.foldlSnd; on_goal 2 => (intro _ _ _; beta_reduce))
    | split

theorem execStemReturn_kept {T : Nat} {r s : State} {x0 : BitVec 4} {x1 : Bool} (h : Kept T r s) (hT : Within 21690910 T) : KeptO T r (execStemReturn x0 x1 s) := by
  unfold execStemReturn
  repeat' first
    | with_reducible apply KeptO.ite
    | with_reducible apply Kept.ite
    | with_reducible assumption
    | exact Within.of hT rfl
    | with_reducible apply KeptO.next
    | with_reducible apply State.restartZero_kept
    | with_reducible apply State.returnFails_kept
    | with_reducible apply State.loadProgram_kept
    | with_reducible apply State.serviceStart_kept
    | (fail_if_no_progress with_reducible refine Kept.mk' ?_ rfl rfl)
    | split

theorem execColdStart_but {s t : State} {b : Boot} (e : execColdStart b s = .next t) : KeptBut s t := by
  have k : KeptBut s (s.coldBase b) := State.coldBase_but
  unfold execColdStart at e
  generalize s.coldBase b = u at k e
  split at e
  · cases e
    have hT : Within 33554431 33554431 := Within.refl _
    refine k.trans (Kept.but (T := 33554431) ?_)
    exact .ite (Kept.mk' (Kept.refl _ _) rfl rfl) (State.coldRun_kept (Kept.refl _ _))
  · cases e; exact (Kept.refl 0 _).but

/-! ## Machine/Tick.lean -/

theorem State.strobes_kept {T : Nat} {r s : State}  (h : Kept T r s) (hT : Within 16777216 T) : Kept T r (State.strobes s) := by
  unfold State.strobes
  repeat' first
    | with_reducible apply Kept.ite
    | with_reducible assumption
    | exact Within.of hT rfl
    | with_reducible apply State.sendWord_kept
    | (fail_if_no_progress with_reducible refine Kept.mk' ?_ rfl rfl)
    | (with_reducible apply Kept.foldl; on_goal 2 => (intro _ _ _; beta_reduce))
    | (with_reducible apply Kept.foldlSnd; on_goal 2 => (intro _ _ _; beta_reduce))
    | split

theorem State.safeGroups_kept {T : Nat} {r s : State}  (h : Kept T r s) (hT : Within 16777216 T) : Kept T r (State.safeGroups s) := by
  unfold State.safeGroups
  repeat' first
    | with_reducible apply Kept.ite
    | with_reducible assumption
    | exact Within.of hT rfl
    | with_reducible apply State.sendWord_kept
    | (fail_if_no_progress with_reducible refine Kept.mk' ?_ rfl rfl)
    | (with_reducible apply Kept.foldl; on_goal 2 => (intro _ _ _; beta_reduce))
    | (with_reducible apply Kept.foldlSnd; on_goal 2 => (intro _ _ _; beta_reduce))
    | split

theorem State.sendVotes_kept {T : Nat} {r s : State} {x1 : ℕ} (h : Kept T r s) (hT : Within 16777216 T) : Kept T r (State.sendVotes s x1) := by
  unfold State.sendVotes
  repeat' first
    | with_reducible apply Kept.ite
    | with_reducible assumption
    | exact Within.of hT rfl
    | with_reducible apply State.sendWord_kept
    | (fail_if_no_progress with_reducible refine Kept.mk' ?_ rfl rfl)
    | (with_reducible apply Kept.foldl; on_goal 2 => (intro _ _ _; beta_reduce))
    | (with_reducible apply Kept.foldlSnd; on_goal 2 => (intro _ _ _; beta_reduce))
    | split

theorem State.missTick_kept {T : Nat} {r s : State}  (h : Kept T r s) (hT : Within 2 T := by
    first | exact Within.refl _ | (refine Within.of (b := ?zb) ?zw ?ze; (case zw => assumption); (case ze => decide))) : Kept T r (State.missTick s) := by
  unfold State.missTick
  repeat' first
    | with_reducible apply Kept.ite
    | with_reducible assumption
    | exact Within.of hT rfl
    | with_reducible apply State.countMiss_kept
    | (with_reducible apply Kept.foldl; on_goal 2 => (intro _ _ _; beta_reduce))
    | split

theorem State.linkTick_kept {T : Nat} {r s : State}  (h : Kept T r s) (hT : Within 16777248 T := by
    first | exact Within.refl _ | (refine Within.of (b := ?zb) ?zw ?ze; (case zw => assumption); (case ze => decide))) : Kept T r (State.linkTick s) := by
  unfold State.linkTick
  repeat' first
    | with_reducible apply Kept.ite
    | with_reducible assumption
    | exact Within.of hT rfl
    | with_reducible apply State.strobes_kept
    | with_reducible apply State.sendRepeats_kept
    | with_reducible apply State.safeGroups_kept
    | with_reducible apply State.tripsEnd_kept
    | with_reducible apply State.sendVotes_kept
    | (fail_if_no_progress with_reducible refine Kept.mk' ?_ rfl rfl)
    | (with_reducible apply Kept.foldl; on_goal 2 => (intro _ _ _; beta_reduce))
    | (with_reducible apply Kept.foldlSnd; on_goal 2 => (intro _ _ _; beta_reduce))
    | split

theorem State.opsecTick_kept {T : Nat} {r s : State}  (h : Kept T r s) (hT : Within 20 T := by
    first | exact Within.refl _ | (refine Within.of (b := ?zb) ?zw ?ze; (case zw => assumption); (case ze => decide))) : Kept T r (State.opsecTick s) := by
  unfold State.opsecTick
  repeat' first
    | with_reducible apply Kept.ite
    | with_reducible assumption
    | exact Within.of hT rfl
    | with_reducible apply State.opsecAdd_kept
    | (fail_if_no_progress with_reducible refine Kept.mk' ?_ rfl rfl)

theorem State.celOrder_kept {T : Nat} {r s : State} {x1 : ℕ} (h : Kept T r s) (hT : Within 4 T := by
    first | exact Within.refl _ | (refine Within.of (b := ?zb) ?zw ?ze; (case zw => assumption); (case ze => decide))) : Kept T r (State.celOrder s x1) := by
  unfold State.celOrder
  repeat' first
    | with_reducible apply Kept.ite
    | with_reducible assumption
    | exact Within.of hT rfl
    | (fail_if_no_progress with_reducible refine Kept.mk' ?_ rfl rfl)

theorem State.stateTick_kept {T : Nat} {r s : State}  (h : Kept T r s) (hT : Within 31189663 T) : Kept T r (State.stateTick s) := by
  unfold State.stateTick
  repeat' first
    | with_reducible apply Kept.ite
    | with_reducible assumption
    | exact Within.of hT rfl
    | with_reducible apply State.domainsOff_kept
    | with_reducible apply State.maintResume_kept
    | with_reducible apply State.armTick_kept

theorem State.tick_kept {T : Nat} {r s : State}  (h : Kept T r s) (hT : Within 31189695 T := by
    first | exact Within.refl _ | (refine Within.of (b := ?zb) ?zw ?ze; (case zw => assumption); (case ze => decide))) : Kept T r (State.tick s) := by
  unfold State.tick
  repeat' first
    | with_reducible apply Kept.ite
    | with_reducible assumption
    | exact Within.of hT rfl
    | with_reducible apply State.lftExtract_kept
    | with_reducible apply State.scapStep_kept
    | with_reducible apply State.missTick_kept
    | with_reducible apply State.linkTick_kept
    | with_reducible apply State.svCollectAll_kept
    | with_reducible apply State.opsecTick_kept
    | with_reducible apply State.timTick_kept
    | with_reducible apply State.shadowHp_kept
    | with_reducible apply State.stateTick_kept

theorem State.nextSix_but {s : State} : KeptBut s s.nextSix := ⟨rfl, fun e => e, fun e => e⟩

/-- What comes before and after the count of SIX in SIX_ADVANCE. -/
theorem State.sixFrom_kept (s : State) : Kept 31189695 s s.lftIdent.snapFill :=
  State.snapFill_kept (State.lftIdent_kept (Kept.refl _ _) (.of (Within.refl _) (by decide))) (.of (Within.refl _) (by decide))

theorem State.sixTo_kept (s : State) (n : Nat) : Kept 31189695 s (s.tick.celOrder n) :=
  State.celOrder_kept (State.tick_kept (Kept.refl _ _) (.of (Within.refl _) (by decide))) (.of (Within.refl _) (by decide))

theorem execSixAdvance_but {s t : State} (e : execSixAdvance s = .next t) : KeptBut s t := by
  unfold execSixAdvance at e
  split at e
  · cases e
    exact (s.sixFrom_kept.but.trans State.nextSix_but).trans (State.sixTo_kept _ _).but
  · cases e; exact (Kept.refl 0 _).but

theorem execSixAdvance_six {s t : State} (h : s.clk.running = true) (e : execSixAdvance s = .next t) :
    t.clk.running = true ∧ t.six = s.six + 1 := by
  unfold execSixAdvance at e
  rw [if_pos h] at e
  cases e
  have a := s.sixFrom_kept.six h
  have c := (State.sixTo_kept s.lftIdent.snapFill.nextSix s.cel.queue.length).six a.1
  have d : s.lftIdent.snapFill.nextSix.clk.six = s.lftIdent.snapFill.clk.six + 1 := rfl
  refine ⟨c.1, ?_⟩
  show (s.lftIdent.snapFill.nextSix.tick.celOrder s.cel.queue.length).clk.six = s.clk.six + 1
  rw [c.2, d, a.2]

/-- The parts outside the set stay when SIX advances. -/
theorem execSixAdvance_parts {s t : State} (e : execSixAdvance s = .next t) (p : Part) (h : Nat.testBit 31189695 p.bit = false) :
    p.same s t := by
  unfold execSixAdvance at e
  split at e
  · cases e
    refine Part.same_trans (s.sixFrom_kept.parts p h) (Part.same_trans ?_ ((State.sixTo_kept _ _).parts p h))
    cases p <;> first | rfl | cases h
  · cases e; exact p.same_refl s

theorem Kept.clkPwr {T : Nat} {s u : State} {c : Clk} {q : PwrSt} (k : Kept T s u) (hT : Within 4194305 T) :
    KeptBut s { u with clk := c, pwr := q } ∧ ∀ p : Part, T.testBit p.bit = false → p.same s { u with clk := c, pwr := q } := by
  refine ⟨⟨k.pending, k.regs, k.wf⟩, fun p e => Part.same_trans (k.parts p e) ?_⟩
  cases p <;> first | rfl | exact absurd (e.symm.trans (hT _ (by decide))) (by decide)

/-- What HOLDUP_EXHAUSTED keeps. -/
theorem execHoldupExhausted_kept {s t : State} {hu : BitVec 9} (e : execHoldupExhausted hu s = .next t) :
    KeptBut s t ∧ ∀ p : Part, Nat.testBit 4207107 p.bit = false → p.same s t := by
  unfold execHoldupExhausted at e
  split at e
  · cases e
    have hT : Within 4207107 4207107 := Within.refl _
    have k : Kept 4207107 s (if s.tsk.up then s.stopLanes else s) := .ite (State.stopLanes_kept (Kept.refl _ _)) (Kept.refl _ _)
    have k1 := State.set_kept (x1 := F.ENG_STATE.CELLAR_MUTE) (x2 := 0) (State.set_kept (x1 := F.ENG_STATE.STEM) (x2 := 0)
      (State.set_kept (x1 := F.ENG_STATE.HEALTHY) (x2 := 0) (State.set_kept (x1 := F.PWR_DOM.ON) (x2 := 1) (State.stopFastPath_kept k))))
    exact Kept.clkPwr k1 (.of hT (by decide))
  · cases e; exact ⟨(Kept.refl 0 _).but, fun p _ => p.same_refl s⟩

end Sys2Proof.Machine
end

