-- ==== Sys2Proof/Laws/State.lean ====
section
/-!
SUPPORT. Laws/State.lean: one lemma per field of State and update of one field: what the update leaves as it was.
-/
set_option Elab.async false
namespace Sys2Proof.Machine
open Sys2Proof

/-! ### State.wr -/
@[simp] theorem State.wr_clk (s : State) (a : Nat) (w : Word) : (s.wr a w).clk = s.clk := rfl
@[simp] theorem State.wr_cel (s : State) (a : Nat) (w : Word) : (s.wr a w).cel = s.cel := rfl
@[simp] theorem State.wr_fns (s : State) (a : Nat) (w : Word) : (s.wr a w).fns = s.fns := rfl
@[simp] theorem State.wr_sec (s : State) (a : Nat) (w : Word) : (s.wr a w).sec = s.sec := rfl
@[simp] theorem State.wr_ports (s : State) (a : Nat) (w : Word) : (s.wr a w).ports = s.ports := rfl
@[simp] theorem State.wr_rebind (s : State) (a : Nat) (w : Word) : (s.wr a w).rebind = s.rebind := rfl
@[simp] theorem State.wr_fab (s : State) (a : Nat) (w : Word) : (s.wr a w).fab = s.fab := rfl
@[simp] theorem State.wr_bin (s : State) (a : Nat) (w : Word) : (s.wr a w).bin = s.bin := rfl
@[simp] theorem State.wr_inj (s : State) (a : Nat) (w : Word) : (s.wr a w).inj = s.inj := rfl
@[simp] theorem State.wr_fp (s : State) (a : Nat) (w : Word) : (s.wr a w).fp = s.fp := rfl
@[simp] theorem State.wr_mem (s : State) (a : Nat) (w : Word) : (s.wr a w).mem = s.mem := rfl
@[simp] theorem State.wr_lanes (s : State) (a : Nat) (w : Word) : (s.wr a w).lanes = s.lanes := rfl
@[simp] theorem State.wr_tsk (s : State) (a : Nat) (w : Word) : (s.wr a w).tsk = s.tsk := rfl
@[simp] theorem State.wr_frc (s : State) (a : Nat) (w : Word) : (s.wr a w).frc = s.frc := rfl
@[simp] theorem State.wr_uch (s : State) (a : Nat) (w : Word) : (s.wr a w).uch = s.uch := rfl
@[simp] theorem State.wr_uchGrp (s : State) (a : Nat) (w : Word) : (s.wr a w).uchGrp = s.uchGrp := rfl
@[simp] theorem State.wr_eth (s : State) (a : Nat) (w : Word) : (s.wr a w).eth = s.eth := rfl
@[simp] theorem State.wr_olc (s : State) (a : Nat) (w : Word) : (s.wr a w).olc = s.olc := rfl
@[simp] theorem State.wr_lft (s : State) (a : Nat) (w : Word) : (s.wr a w).lft = s.lft := rfl
@[simp] theorem State.wr_dma (s : State) (a : Nat) (w : Word) : (s.wr a w).dma = s.dma := rfl
@[simp] theorem State.wr_ecc (s : State) (a : Nat) (w : Word) : (s.wr a w).ecc = s.ecc := rfl
@[simp] theorem State.wr_pwr (s : State) (a : Nat) (w : Word) : (s.wr a w).pwr = s.pwr := rfl
@[simp] theorem State.wr_tim (s : State) (a : Nat) (w : Word) : (s.wr a w).tim = s.tim := rfl
@[simp] theorem State.wr_outbox (s : State) (a : Nat) (w : Word) : (s.wr a w).outbox = s.outbox := rfl
@[simp] theorem State.wr_pending (s : State) (a : Nat) (w : Word) : (s.wr a w).pending = s.pending := rfl

/-! ### State.set -/
@[simp] theorem State.set_clk (s : State) (f : Field) (v : Nat) : (s.set f v).clk = s.clk := rfl
@[simp] theorem State.set_cel (s : State) (f : Field) (v : Nat) : (s.set f v).cel = s.cel := rfl
@[simp] theorem State.set_fns (s : State) (f : Field) (v : Nat) : (s.set f v).fns = s.fns := rfl
@[simp] theorem State.set_sec (s : State) (f : Field) (v : Nat) : (s.set f v).sec = s.sec := rfl
@[simp] theorem State.set_ports (s : State) (f : Field) (v : Nat) : (s.set f v).ports = s.ports := rfl
@[simp] theorem State.set_rebind (s : State) (f : Field) (v : Nat) : (s.set f v).rebind = s.rebind := rfl
@[simp] theorem State.set_fab (s : State) (f : Field) (v : Nat) : (s.set f v).fab = s.fab := rfl
@[simp] theorem State.set_bin (s : State) (f : Field) (v : Nat) : (s.set f v).bin = s.bin := rfl
@[simp] theorem State.set_inj (s : State) (f : Field) (v : Nat) : (s.set f v).inj = s.inj := rfl
@[simp] theorem State.set_fp (s : State) (f : Field) (v : Nat) : (s.set f v).fp = s.fp := rfl
@[simp] theorem State.set_mem (s : State) (f : Field) (v : Nat) : (s.set f v).mem = s.mem := rfl
@[simp] theorem State.set_lanes (s : State) (f : Field) (v : Nat) : (s.set f v).lanes = s.lanes := rfl
@[simp] theorem State.set_tsk (s : State) (f : Field) (v : Nat) : (s.set f v).tsk = s.tsk := rfl
@[simp] theorem State.set_frc (s : State) (f : Field) (v : Nat) : (s.set f v).frc = s.frc := rfl
@[simp] theorem State.set_uch (s : State) (f : Field) (v : Nat) : (s.set f v).uch = s.uch := rfl
@[simp] theorem State.set_uchGrp (s : State) (f : Field) (v : Nat) : (s.set f v).uchGrp = s.uchGrp := rfl
@[simp] theorem State.set_eth (s : State) (f : Field) (v : Nat) : (s.set f v).eth = s.eth := rfl
@[simp] theorem State.set_olc (s : State) (f : Field) (v : Nat) : (s.set f v).olc = s.olc := rfl
@[simp] theorem State.set_lft (s : State) (f : Field) (v : Nat) : (s.set f v).lft = s.lft := rfl
@[simp] theorem State.set_dma (s : State) (f : Field) (v : Nat) : (s.set f v).dma = s.dma := rfl
@[simp] theorem State.set_ecc (s : State) (f : Field) (v : Nat) : (s.set f v).ecc = s.ecc := rfl
@[simp] theorem State.set_pwr (s : State) (f : Field) (v : Nat) : (s.set f v).pwr = s.pwr := rfl
@[simp] theorem State.set_tim (s : State) (f : Field) (v : Nat) : (s.set f v).tim = s.tim := rfl
@[simp] theorem State.set_outbox (s : State) (f : Field) (v : Nat) : (s.set f v).outbox = s.outbox := rfl
@[simp] theorem State.set_pending (s : State) (f : Field) (v : Nat) : (s.set f v).pending = s.pending := rfl

/-! ### State.set64 -/
@[simp] theorem State.set64_clk (s : State) (a v : Nat) : (s.set64 a v).clk = s.clk := rfl
@[simp] theorem State.set64_cel (s : State) (a v : Nat) : (s.set64 a v).cel = s.cel := rfl
@[simp] theorem State.set64_fns (s : State) (a v : Nat) : (s.set64 a v).fns = s.fns := rfl
@[simp] theorem State.set64_sec (s : State) (a v : Nat) : (s.set64 a v).sec = s.sec := rfl
@[simp] theorem State.set64_ports (s : State) (a v : Nat) : (s.set64 a v).ports = s.ports := rfl
@[simp] theorem State.set64_rebind (s : State) (a v : Nat) : (s.set64 a v).rebind = s.rebind := rfl
@[simp] theorem State.set64_fab (s : State) (a v : Nat) : (s.set64 a v).fab = s.fab := rfl
@[simp] theorem State.set64_bin (s : State) (a v : Nat) : (s.set64 a v).bin = s.bin := rfl
@[simp] theorem State.set64_inj (s : State) (a v : Nat) : (s.set64 a v).inj = s.inj := rfl
@[simp] theorem State.set64_fp (s : State) (a v : Nat) : (s.set64 a v).fp = s.fp := rfl
@[simp] theorem State.set64_mem (s : State) (a v : Nat) : (s.set64 a v).mem = s.mem := rfl
@[simp] theorem State.set64_lanes (s : State) (a v : Nat) : (s.set64 a v).lanes = s.lanes := rfl
@[simp] theorem State.set64_tsk (s : State) (a v : Nat) : (s.set64 a v).tsk = s.tsk := rfl
@[simp] theorem State.set64_frc (s : State) (a v : Nat) : (s.set64 a v).frc = s.frc := rfl
@[simp] theorem State.set64_uch (s : State) (a v : Nat) : (s.set64 a v).uch = s.uch := rfl
@[simp] theorem State.set64_uchGrp (s : State) (a v : Nat) : (s.set64 a v).uchGrp = s.uchGrp := rfl
@[simp] theorem State.set64_eth (s : State) (a v : Nat) : (s.set64 a v).eth = s.eth := rfl
@[simp] theorem State.set64_olc (s : State) (a v : Nat) : (s.set64 a v).olc = s.olc := rfl
@[simp] theorem State.set64_lft (s : State) (a v : Nat) : (s.set64 a v).lft = s.lft := rfl
@[simp] theorem State.set64_dma (s : State) (a v : Nat) : (s.set64 a v).dma = s.dma := rfl
@[simp] theorem State.set64_ecc (s : State) (a v : Nat) : (s.set64 a v).ecc = s.ecc := rfl
@[simp] theorem State.set64_pwr (s : State) (a v : Nat) : (s.set64 a v).pwr = s.pwr := rfl
@[simp] theorem State.set64_tim (s : State) (a v : Nat) : (s.set64 a v).tim = s.tim := rfl
@[simp] theorem State.set64_outbox (s : State) (a v : Nat) : (s.set64 a v).outbox = s.outbox := rfl
@[simp] theorem State.set64_pending (s : State) (a v : Nat) : (s.set64 a v).pending = s.pending := rfl

/-! ### State.bumpBy -/
@[simp] theorem State.bumpBy_clk (s : State) (f : Field) (n : Nat) : (s.bumpBy f n).clk = s.clk := rfl
@[simp] theorem State.bumpBy_cel (s : State) (f : Field) (n : Nat) : (s.bumpBy f n).cel = s.cel := rfl
@[simp] theorem State.bumpBy_fns (s : State) (f : Field) (n : Nat) : (s.bumpBy f n).fns = s.fns := rfl
@[simp] theorem State.bumpBy_sec (s : State) (f : Field) (n : Nat) : (s.bumpBy f n).sec = s.sec := rfl
@[simp] theorem State.bumpBy_ports (s : State) (f : Field) (n : Nat) : (s.bumpBy f n).ports = s.ports := rfl
@[simp] theorem State.bumpBy_rebind (s : State) (f : Field) (n : Nat) : (s.bumpBy f n).rebind = s.rebind := rfl
@[simp] theorem State.bumpBy_fab (s : State) (f : Field) (n : Nat) : (s.bumpBy f n).fab = s.fab := rfl
@[simp] theorem State.bumpBy_bin (s : State) (f : Field) (n : Nat) : (s.bumpBy f n).bin = s.bin := rfl
@[simp] theorem State.bumpBy_inj (s : State) (f : Field) (n : Nat) : (s.bumpBy f n).inj = s.inj := rfl
@[simp] theorem State.bumpBy_fp (s : State) (f : Field) (n : Nat) : (s.bumpBy f n).fp = s.fp := rfl
@[simp] theorem State.bumpBy_mem (s : State) (f : Field) (n : Nat) : (s.bumpBy f n).mem = s.mem := rfl
@[simp] theorem State.bumpBy_lanes (s : State) (f : Field) (n : Nat) : (s.bumpBy f n).lanes = s.lanes := rfl
@[simp] theorem State.bumpBy_tsk (s : State) (f : Field) (n : Nat) : (s.bumpBy f n).tsk = s.tsk := rfl
@[simp] theorem State.bumpBy_frc (s : State) (f : Field) (n : Nat) : (s.bumpBy f n).frc = s.frc := rfl
@[simp] theorem State.bumpBy_uch (s : State) (f : Field) (n : Nat) : (s.bumpBy f n).uch = s.uch := rfl
@[simp] theorem State.bumpBy_uchGrp (s : State) (f : Field) (n : Nat) : (s.bumpBy f n).uchGrp = s.uchGrp := rfl
@[simp] theorem State.bumpBy_eth (s : State) (f : Field) (n : Nat) : (s.bumpBy f n).eth = s.eth := rfl
@[simp] theorem State.bumpBy_olc (s : State) (f : Field) (n : Nat) : (s.bumpBy f n).olc = s.olc := rfl
@[simp] theorem State.bumpBy_lft (s : State) (f : Field) (n : Nat) : (s.bumpBy f n).lft = s.lft := rfl
@[simp] theorem State.bumpBy_dma (s : State) (f : Field) (n : Nat) : (s.bumpBy f n).dma = s.dma := rfl
@[simp] theorem State.bumpBy_ecc (s : State) (f : Field) (n : Nat) : (s.bumpBy f n).ecc = s.ecc := rfl
@[simp] theorem State.bumpBy_pwr (s : State) (f : Field) (n : Nat) : (s.bumpBy f n).pwr = s.pwr := rfl
@[simp] theorem State.bumpBy_tim (s : State) (f : Field) (n : Nat) : (s.bumpBy f n).tim = s.tim := rfl
@[simp] theorem State.bumpBy_outbox (s : State) (f : Field) (n : Nat) : (s.bumpBy f n).outbox = s.outbox := rfl
@[simp] theorem State.bumpBy_pending (s : State) (f : Field) (n : Nat) : (s.bumpBy f n).pending = s.pending := rfl

/-! ### State.bump -/
@[simp] theorem State.bump_clk (s : State) (f : Field) : (s.bump f).clk = s.clk := rfl
@[simp] theorem State.bump_cel (s : State) (f : Field) : (s.bump f).cel = s.cel := rfl
@[simp] theorem State.bump_fns (s : State) (f : Field) : (s.bump f).fns = s.fns := rfl
@[simp] theorem State.bump_sec (s : State) (f : Field) : (s.bump f).sec = s.sec := rfl
@[simp] theorem State.bump_ports (s : State) (f : Field) : (s.bump f).ports = s.ports := rfl
@[simp] theorem State.bump_rebind (s : State) (f : Field) : (s.bump f).rebind = s.rebind := rfl
@[simp] theorem State.bump_fab (s : State) (f : Field) : (s.bump f).fab = s.fab := rfl
@[simp] theorem State.bump_bin (s : State) (f : Field) : (s.bump f).bin = s.bin := rfl
@[simp] theorem State.bump_inj (s : State) (f : Field) : (s.bump f).inj = s.inj := rfl
@[simp] theorem State.bump_fp (s : State) (f : Field) : (s.bump f).fp = s.fp := rfl
@[simp] theorem State.bump_mem (s : State) (f : Field) : (s.bump f).mem = s.mem := rfl
@[simp] theorem State.bump_lanes (s : State) (f : Field) : (s.bump f).lanes = s.lanes := rfl
@[simp] theorem State.bump_tsk (s : State) (f : Field) : (s.bump f).tsk = s.tsk := rfl
@[simp] theorem State.bump_frc (s : State) (f : Field) : (s.bump f).frc = s.frc := rfl
@[simp] theorem State.bump_uch (s : State) (f : Field) : (s.bump f).uch = s.uch := rfl
@[simp] theorem State.bump_uchGrp (s : State) (f : Field) : (s.bump f).uchGrp = s.uchGrp := rfl
@[simp] theorem State.bump_eth (s : State) (f : Field) : (s.bump f).eth = s.eth := rfl
@[simp] theorem State.bump_olc (s : State) (f : Field) : (s.bump f).olc = s.olc := rfl
@[simp] theorem State.bump_lft (s : State) (f : Field) : (s.bump f).lft = s.lft := rfl
@[simp] theorem State.bump_dma (s : State) (f : Field) : (s.bump f).dma = s.dma := rfl
@[simp] theorem State.bump_ecc (s : State) (f : Field) : (s.bump f).ecc = s.ecc := rfl
@[simp] theorem State.bump_pwr (s : State) (f : Field) : (s.bump f).pwr = s.pwr := rfl
@[simp] theorem State.bump_tim (s : State) (f : Field) : (s.bump f).tim = s.tim := rfl
@[simp] theorem State.bump_outbox (s : State) (f : Field) : (s.bump f).outbox = s.outbox := rfl
@[simp] theorem State.bump_pending (s : State) (f : Field) : (s.bump f).pending = s.pending := rfl

/-! ### State.setFn -/
@[simp] theorem State.setFn_clk (s : State) (pf : Nat) (x : FnSt) : (s.setFn pf x).clk = s.clk := rfl
@[simp] theorem State.setFn_regs (s : State) (pf : Nat) (x : FnSt) : (s.setFn pf x).regs = s.regs := rfl
@[simp] theorem State.setFn_cel (s : State) (pf : Nat) (x : FnSt) : (s.setFn pf x).cel = s.cel := rfl
@[simp] theorem State.setFn_sec (s : State) (pf : Nat) (x : FnSt) : (s.setFn pf x).sec = s.sec := rfl
@[simp] theorem State.setFn_ports (s : State) (pf : Nat) (x : FnSt) : (s.setFn pf x).ports = s.ports := rfl
@[simp] theorem State.setFn_rebind (s : State) (pf : Nat) (x : FnSt) : (s.setFn pf x).rebind = s.rebind := rfl
@[simp] theorem State.setFn_fab (s : State) (pf : Nat) (x : FnSt) : (s.setFn pf x).fab = s.fab := rfl
@[simp] theorem State.setFn_bin (s : State) (pf : Nat) (x : FnSt) : (s.setFn pf x).bin = s.bin := rfl
@[simp] theorem State.setFn_inj (s : State) (pf : Nat) (x : FnSt) : (s.setFn pf x).inj = s.inj := rfl
@[simp] theorem State.setFn_fp (s : State) (pf : Nat) (x : FnSt) : (s.setFn pf x).fp = s.fp := rfl
@[simp] theorem State.setFn_mem (s : State) (pf : Nat) (x : FnSt) : (s.setFn pf x).mem = s.mem := rfl
@[simp] theorem State.setFn_lanes (s : State) (pf : Nat) (x : FnSt) : (s.setFn pf x).lanes = s.lanes := rfl
@[simp] theorem State.setFn_tsk (s : State) (pf : Nat) (x : FnSt) : (s.setFn pf x).tsk = s.tsk := rfl
@[simp] theorem State.setFn_frc (s : State) (pf : Nat) (x : FnSt) : (s.setFn pf x).frc = s.frc := rfl
@[simp] theorem State.setFn_uch (s : State) (pf : Nat) (x : FnSt) : (s.setFn pf x).uch = s.uch := rfl
@[simp] theorem State.setFn_uchGrp (s : State) (pf : Nat) (x : FnSt) : (s.setFn pf x).uchGrp = s.uchGrp := rfl
@[simp] theorem State.setFn_eth (s : State) (pf : Nat) (x : FnSt) : (s.setFn pf x).eth = s.eth := rfl
@[simp] theorem State.setFn_olc (s : State) (pf : Nat) (x : FnSt) : (s.setFn pf x).olc = s.olc := rfl
@[simp] theorem State.setFn_lft (s : State) (pf : Nat) (x : FnSt) : (s.setFn pf x).lft = s.lft := rfl
@[simp] theorem State.setFn_dma (s : State) (pf : Nat) (x : FnSt) : (s.setFn pf x).dma = s.dma := rfl
@[simp] theorem State.setFn_ecc (s : State) (pf : Nat) (x : FnSt) : (s.setFn pf x).ecc = s.ecc := rfl
@[simp] theorem State.setFn_pwr (s : State) (pf : Nat) (x : FnSt) : (s.setFn pf x).pwr = s.pwr := rfl
@[simp] theorem State.setFn_tim (s : State) (pf : Nat) (x : FnSt) : (s.setFn pf x).tim = s.tim := rfl
@[simp] theorem State.setFn_outbox (s : State) (pf : Nat) (x : FnSt) : (s.setFn pf x).outbox = s.outbox := rfl
@[simp] theorem State.setFn_pending (s : State) (pf : Nat) (x : FnSt) : (s.setFn pf x).pending = s.pending := rfl

/-! ### State.emit -/
@[simp] theorem State.emit_clk (s : State) (o : Out) : (s.emit o).clk = s.clk := rfl
@[simp] theorem State.emit_regs (s : State) (o : Out) : (s.emit o).regs = s.regs := rfl
@[simp] theorem State.emit_cel (s : State) (o : Out) : (s.emit o).cel = s.cel := rfl
@[simp] theorem State.emit_fns (s : State) (o : Out) : (s.emit o).fns = s.fns := rfl
@[simp] theorem State.emit_sec (s : State) (o : Out) : (s.emit o).sec = s.sec := rfl
@[simp] theorem State.emit_ports (s : State) (o : Out) : (s.emit o).ports = s.ports := rfl
@[simp] theorem State.emit_rebind (s : State) (o : Out) : (s.emit o).rebind = s.rebind := rfl
@[simp] theorem State.emit_fab (s : State) (o : Out) : (s.emit o).fab = s.fab := rfl
@[simp] theorem State.emit_bin (s : State) (o : Out) : (s.emit o).bin = s.bin := rfl
@[simp] theorem State.emit_inj (s : State) (o : Out) : (s.emit o).inj = s.inj := rfl
@[simp] theorem State.emit_fp (s : State) (o : Out) : (s.emit o).fp = s.fp := rfl
@[simp] theorem State.emit_mem (s : State) (o : Out) : (s.emit o).mem = s.mem := rfl
@[simp] theorem State.emit_lanes (s : State) (o : Out) : (s.emit o).lanes = s.lanes := rfl
@[simp] theorem State.emit_tsk (s : State) (o : Out) : (s.emit o).tsk = s.tsk := rfl
@[simp] theorem State.emit_frc (s : State) (o : Out) : (s.emit o).frc = s.frc := rfl
@[simp] theorem State.emit_uch (s : State) (o : Out) : (s.emit o).uch = s.uch := rfl
@[simp] theorem State.emit_uchGrp (s : State) (o : Out) : (s.emit o).uchGrp = s.uchGrp := rfl
@[simp] theorem State.emit_eth (s : State) (o : Out) : (s.emit o).eth = s.eth := rfl
@[simp] theorem State.emit_olc (s : State) (o : Out) : (s.emit o).olc = s.olc := rfl
@[simp] theorem State.emit_lft (s : State) (o : Out) : (s.emit o).lft = s.lft := rfl
@[simp] theorem State.emit_dma (s : State) (o : Out) : (s.emit o).dma = s.dma := rfl
@[simp] theorem State.emit_ecc (s : State) (o : Out) : (s.emit o).ecc = s.ecc := rfl
@[simp] theorem State.emit_pwr (s : State) (o : Out) : (s.emit o).pwr = s.pwr := rfl
@[simp] theorem State.emit_tim (s : State) (o : Out) : (s.emit o).tim = s.tim := rfl
@[simp] theorem State.emit_pending (s : State) (o : Out) : (s.emit o).pending = s.pending := rfl

/-! ### State.setBinIn -/
@[simp] theorem State.setBinIn_clk (s : State) (n : Nat) (x : BinIn) : (s.setBinIn n x).clk = s.clk := rfl
@[simp] theorem State.setBinIn_regs (s : State) (n : Nat) (x : BinIn) : (s.setBinIn n x).regs = s.regs := rfl
@[simp] theorem State.setBinIn_cel (s : State) (n : Nat) (x : BinIn) : (s.setBinIn n x).cel = s.cel := rfl
@[simp] theorem State.setBinIn_fns (s : State) (n : Nat) (x : BinIn) : (s.setBinIn n x).fns = s.fns := rfl
@[simp] theorem State.setBinIn_sec (s : State) (n : Nat) (x : BinIn) : (s.setBinIn n x).sec = s.sec := rfl
@[simp] theorem State.setBinIn_ports (s : State) (n : Nat) (x : BinIn) : (s.setBinIn n x).ports = s.ports := rfl
@[simp] theorem State.setBinIn_rebind (s : State) (n : Nat) (x : BinIn) : (s.setBinIn n x).rebind = s.rebind := rfl
@[simp] theorem State.setBinIn_fab (s : State) (n : Nat) (x : BinIn) : (s.setBinIn n x).fab = s.fab := rfl
@[simp] theorem State.setBinIn_inj (s : State) (n : Nat) (x : BinIn) : (s.setBinIn n x).inj = s.inj := rfl
@[simp] theorem State.setBinIn_fp (s : State) (n : Nat) (x : BinIn) : (s.setBinIn n x).fp = s.fp := rfl
@[simp] theorem State.setBinIn_mem (s : State) (n : Nat) (x : BinIn) : (s.setBinIn n x).mem = s.mem := rfl
@[simp] theorem State.setBinIn_lanes (s : State) (n : Nat) (x : BinIn) : (s.setBinIn n x).lanes = s.lanes := rfl
@[simp] theorem State.setBinIn_tsk (s : State) (n : Nat) (x : BinIn) : (s.setBinIn n x).tsk = s.tsk := rfl
@[simp] theorem State.setBinIn_frc (s : State) (n : Nat) (x : BinIn) : (s.setBinIn n x).frc = s.frc := rfl
@[simp] theorem State.setBinIn_uch (s : State) (n : Nat) (x : BinIn) : (s.setBinIn n x).uch = s.uch := rfl
@[simp] theorem State.setBinIn_uchGrp (s : State) (n : Nat) (x : BinIn) : (s.setBinIn n x).uchGrp = s.uchGrp := rfl
@[simp] theorem State.setBinIn_eth (s : State) (n : Nat) (x : BinIn) : (s.setBinIn n x).eth = s.eth := rfl
@[simp] theorem State.setBinIn_olc (s : State) (n : Nat) (x : BinIn) : (s.setBinIn n x).olc = s.olc := rfl
@[simp] theorem State.setBinIn_lft (s : State) (n : Nat) (x : BinIn) : (s.setBinIn n x).lft = s.lft := rfl
@[simp] theorem State.setBinIn_dma (s : State) (n : Nat) (x : BinIn) : (s.setBinIn n x).dma = s.dma := rfl
@[simp] theorem State.setBinIn_ecc (s : State) (n : Nat) (x : BinIn) : (s.setBinIn n x).ecc = s.ecc := rfl
@[simp] theorem State.setBinIn_pwr (s : State) (n : Nat) (x : BinIn) : (s.setBinIn n x).pwr = s.pwr := rfl
@[simp] theorem State.setBinIn_tim (s : State) (n : Nat) (x : BinIn) : (s.setBinIn n x).tim = s.tim := rfl
@[simp] theorem State.setBinIn_outbox (s : State) (n : Nat) (x : BinIn) : (s.setBinIn n x).outbox = s.outbox := rfl
@[simp] theorem State.setBinIn_pending (s : State) (n : Nat) (x : BinIn) : (s.setBinIn n x).pending = s.pending := rfl

/-! ### State.setTdo -/
@[simp] theorem State.setTdo_clk (s : State) (n : Nat) (x : TdoSt) : (s.setTdo n x).clk = s.clk := rfl
@[simp] theorem State.setTdo_regs (s : State) (n : Nat) (x : TdoSt) : (s.setTdo n x).regs = s.regs := rfl
@[simp] theorem State.setTdo_cel (s : State) (n : Nat) (x : TdoSt) : (s.setTdo n x).cel = s.cel := rfl
@[simp] theorem State.setTdo_fns (s : State) (n : Nat) (x : TdoSt) : (s.setTdo n x).fns = s.fns := rfl
@[simp] theorem State.setTdo_sec (s : State) (n : Nat) (x : TdoSt) : (s.setTdo n x).sec = s.sec := rfl
@[simp] theorem State.setTdo_ports (s : State) (n : Nat) (x : TdoSt) : (s.setTdo n x).ports = s.ports := rfl
@[simp] theorem State.setTdo_rebind (s : State) (n : Nat) (x : TdoSt) : (s.setTdo n x).rebind = s.rebind := rfl
@[simp] theorem State.setTdo_fab (s : State) (n : Nat) (x : TdoSt) : (s.setTdo n x).fab = s.fab := rfl
@[simp] theorem State.setTdo_bin (s : State) (n : Nat) (x : TdoSt) : (s.setTdo n x).bin = s.bin := rfl
@[simp] theorem State.setTdo_fp (s : State) (n : Nat) (x : TdoSt) : (s.setTdo n x).fp = s.fp := rfl
@[simp] theorem State.setTdo_mem (s : State) (n : Nat) (x : TdoSt) : (s.setTdo n x).mem = s.mem := rfl
@[simp] theorem State.setTdo_lanes (s : State) (n : Nat) (x : TdoSt) : (s.setTdo n x).lanes = s.lanes := rfl
@[simp] theorem State.setTdo_tsk (s : State) (n : Nat) (x : TdoSt) : (s.setTdo n x).tsk = s.tsk := rfl
@[simp] theorem State.setTdo_frc (s : State) (n : Nat) (x : TdoSt) : (s.setTdo n x).frc = s.frc := rfl
@[simp] theorem State.setTdo_uch (s : State) (n : Nat) (x : TdoSt) : (s.setTdo n x).uch = s.uch := rfl
@[simp] theorem State.setTdo_uchGrp (s : State) (n : Nat) (x : TdoSt) : (s.setTdo n x).uchGrp = s.uchGrp := rfl
@[simp] theorem State.setTdo_eth (s : State) (n : Nat) (x : TdoSt) : (s.setTdo n x).eth = s.eth := rfl
@[simp] theorem State.setTdo_olc (s : State) (n : Nat) (x : TdoSt) : (s.setTdo n x).olc = s.olc := rfl
@[simp] theorem State.setTdo_lft (s : State) (n : Nat) (x : TdoSt) : (s.setTdo n x).lft = s.lft := rfl
@[simp] theorem State.setTdo_dma (s : State) (n : Nat) (x : TdoSt) : (s.setTdo n x).dma = s.dma := rfl
@[simp] theorem State.setTdo_ecc (s : State) (n : Nat) (x : TdoSt) : (s.setTdo n x).ecc = s.ecc := rfl
@[simp] theorem State.setTdo_pwr (s : State) (n : Nat) (x : TdoSt) : (s.setTdo n x).pwr = s.pwr := rfl
@[simp] theorem State.setTdo_tim (s : State) (n : Nat) (x : TdoSt) : (s.setTdo n x).tim = s.tim := rfl
@[simp] theorem State.setTdo_outbox (s : State) (n : Nat) (x : TdoSt) : (s.setTdo n x).outbox = s.outbox := rfl
@[simp] theorem State.setTdo_pending (s : State) (n : Nat) (x : TdoSt) : (s.setTdo n x).pending = s.pending := rfl

/-! ### State.setChan -/
@[simp] theorem State.setChan_clk (s : State) (n : Nat) (x : ChanEl) : (s.setChan n x).clk = s.clk := rfl
@[simp] theorem State.setChan_regs (s : State) (n : Nat) (x : ChanEl) : (s.setChan n x).regs = s.regs := rfl
@[simp] theorem State.setChan_cel (s : State) (n : Nat) (x : ChanEl) : (s.setChan n x).cel = s.cel := rfl
@[simp] theorem State.setChan_fns (s : State) (n : Nat) (x : ChanEl) : (s.setChan n x).fns = s.fns := rfl
@[simp] theorem State.setChan_sec (s : State) (n : Nat) (x : ChanEl) : (s.setChan n x).sec = s.sec := rfl
@[simp] theorem State.setChan_ports (s : State) (n : Nat) (x : ChanEl) : (s.setChan n x).ports = s.ports := rfl
@[simp] theorem State.setChan_rebind (s : State) (n : Nat) (x : ChanEl) : (s.setChan n x).rebind = s.rebind := rfl
@[simp] theorem State.setChan_fab (s : State) (n : Nat) (x : ChanEl) : (s.setChan n x).fab = s.fab := rfl
@[simp] theorem State.setChan_bin (s : State) (n : Nat) (x : ChanEl) : (s.setChan n x).bin = s.bin := rfl
@[simp] theorem State.setChan_fp (s : State) (n : Nat) (x : ChanEl) : (s.setChan n x).fp = s.fp := rfl
@[simp] theorem State.setChan_mem (s : State) (n : Nat) (x : ChanEl) : (s.setChan n x).mem = s.mem := rfl
@[simp] theorem State.setChan_lanes (s : State) (n : Nat) (x : ChanEl) : (s.setChan n x).lanes = s.lanes := rfl
@[simp] theorem State.setChan_tsk (s : State) (n : Nat) (x : ChanEl) : (s.setChan n x).tsk = s.tsk := rfl
@[simp] theorem State.setChan_frc (s : State) (n : Nat) (x : ChanEl) : (s.setChan n x).frc = s.frc := rfl
@[simp] theorem State.setChan_uch (s : State) (n : Nat) (x : ChanEl) : (s.setChan n x).uch = s.uch := rfl
@[simp] theorem State.setChan_uchGrp (s : State) (n : Nat) (x : ChanEl) : (s.setChan n x).uchGrp = s.uchGrp := rfl
@[simp] theorem State.setChan_eth (s : State) (n : Nat) (x : ChanEl) : (s.setChan n x).eth = s.eth := rfl
@[simp] theorem State.setChan_olc (s : State) (n : Nat) (x : ChanEl) : (s.setChan n x).olc = s.olc := rfl
@[simp] theorem State.setChan_lft (s : State) (n : Nat) (x : ChanEl) : (s.setChan n x).lft = s.lft := rfl
@[simp] theorem State.setChan_dma (s : State) (n : Nat) (x : ChanEl) : (s.setChan n x).dma = s.dma := rfl
@[simp] theorem State.setChan_ecc (s : State) (n : Nat) (x : ChanEl) : (s.setChan n x).ecc = s.ecc := rfl
@[simp] theorem State.setChan_pwr (s : State) (n : Nat) (x : ChanEl) : (s.setChan n x).pwr = s.pwr := rfl
@[simp] theorem State.setChan_tim (s : State) (n : Nat) (x : ChanEl) : (s.setChan n x).tim = s.tim := rfl
@[simp] theorem State.setChan_outbox (s : State) (n : Nat) (x : ChanEl) : (s.setChan n x).outbox = s.outbox := rfl
@[simp] theorem State.setChan_pending (s : State) (n : Nat) (x : ChanEl) : (s.setChan n x).pending = s.pending := rfl

/-! ### State.setPair -/
@[simp] theorem State.setPair_clk (s : State) (p : Nat) (x : PairSt) : (s.setPair p x).clk = s.clk := rfl
@[simp] theorem State.setPair_regs (s : State) (p : Nat) (x : PairSt) : (s.setPair p x).regs = s.regs := rfl
@[simp] theorem State.setPair_cel (s : State) (p : Nat) (x : PairSt) : (s.setPair p x).cel = s.cel := rfl
@[simp] theorem State.setPair_fns (s : State) (p : Nat) (x : PairSt) : (s.setPair p x).fns = s.fns := rfl
@[simp] theorem State.setPair_sec (s : State) (p : Nat) (x : PairSt) : (s.setPair p x).sec = s.sec := rfl
@[simp] theorem State.setPair_ports (s : State) (p : Nat) (x : PairSt) : (s.setPair p x).ports = s.ports := rfl
@[simp] theorem State.setPair_rebind (s : State) (p : Nat) (x : PairSt) : (s.setPair p x).rebind = s.rebind := rfl
@[simp] theorem State.setPair_fab (s : State) (p : Nat) (x : PairSt) : (s.setPair p x).fab = s.fab := rfl
@[simp] theorem State.setPair_bin (s : State) (p : Nat) (x : PairSt) : (s.setPair p x).bin = s.bin := rfl
@[simp] theorem State.setPair_fp (s : State) (p : Nat) (x : PairSt) : (s.setPair p x).fp = s.fp := rfl
@[simp] theorem State.setPair_mem (s : State) (p : Nat) (x : PairSt) : (s.setPair p x).mem = s.mem := rfl
@[simp] theorem State.setPair_lanes (s : State) (p : Nat) (x : PairSt) : (s.setPair p x).lanes = s.lanes := rfl
@[simp] theorem State.setPair_tsk (s : State) (p : Nat) (x : PairSt) : (s.setPair p x).tsk = s.tsk := rfl
@[simp] theorem State.setPair_frc (s : State) (p : Nat) (x : PairSt) : (s.setPair p x).frc = s.frc := rfl
@[simp] theorem State.setPair_uch (s : State) (p : Nat) (x : PairSt) : (s.setPair p x).uch = s.uch := rfl
@[simp] theorem State.setPair_uchGrp (s : State) (p : Nat) (x : PairSt) : (s.setPair p x).uchGrp = s.uchGrp := rfl
@[simp] theorem State.setPair_eth (s : State) (p : Nat) (x : PairSt) : (s.setPair p x).eth = s.eth := rfl
@[simp] theorem State.setPair_olc (s : State) (p : Nat) (x : PairSt) : (s.setPair p x).olc = s.olc := rfl
@[simp] theorem State.setPair_lft (s : State) (p : Nat) (x : PairSt) : (s.setPair p x).lft = s.lft := rfl
@[simp] theorem State.setPair_dma (s : State) (p : Nat) (x : PairSt) : (s.setPair p x).dma = s.dma := rfl
@[simp] theorem State.setPair_ecc (s : State) (p : Nat) (x : PairSt) : (s.setPair p x).ecc = s.ecc := rfl
@[simp] theorem State.setPair_pwr (s : State) (p : Nat) (x : PairSt) : (s.setPair p x).pwr = s.pwr := rfl
@[simp] theorem State.setPair_tim (s : State) (p : Nat) (x : PairSt) : (s.setPair p x).tim = s.tim := rfl
@[simp] theorem State.setPair_outbox (s : State) (p : Nat) (x : PairSt) : (s.setPair p x).outbox = s.outbox := rfl
@[simp] theorem State.setPair_pending (s : State) (p : Nat) (x : PairSt) : (s.setPair p x).pending = s.pending := rfl

/-! ### State.setRule -/
@[simp] theorem State.setRule_clk (s : State) (r : Nat) (x : RuleSt) : (s.setRule r x).clk = s.clk := rfl
@[simp] theorem State.setRule_regs (s : State) (r : Nat) (x : RuleSt) : (s.setRule r x).regs = s.regs := rfl
@[simp] theorem State.setRule_cel (s : State) (r : Nat) (x : RuleSt) : (s.setRule r x).cel = s.cel := rfl
@[simp] theorem State.setRule_fns (s : State) (r : Nat) (x : RuleSt) : (s.setRule r x).fns = s.fns := rfl
@[simp] theorem State.setRule_sec (s : State) (r : Nat) (x : RuleSt) : (s.setRule r x).sec = s.sec := rfl
@[simp] theorem State.setRule_ports (s : State) (r : Nat) (x : RuleSt) : (s.setRule r x).ports = s.ports := rfl
@[simp] theorem State.setRule_rebind (s : State) (r : Nat) (x : RuleSt) : (s.setRule r x).rebind = s.rebind := rfl
@[simp] theorem State.setRule_fab (s : State) (r : Nat) (x : RuleSt) : (s.setRule r x).fab = s.fab := rfl
@[simp] theorem State.setRule_bin (s : State) (r : Nat) (x : RuleSt) : (s.setRule r x).bin = s.bin := rfl
@[simp] theorem State.setRule_fp (s : State) (r : Nat) (x : RuleSt) : (s.setRule r x).fp = s.fp := rfl
@[simp] theorem State.setRule_mem (s : State) (r : Nat) (x : RuleSt) : (s.setRule r x).mem = s.mem := rfl
@[simp] theorem State.setRule_lanes (s : State) (r : Nat) (x : RuleSt) : (s.setRule r x).lanes = s.lanes := rfl
@[simp] theorem State.setRule_tsk (s : State) (r : Nat) (x : RuleSt) : (s.setRule r x).tsk = s.tsk := rfl
@[simp] theorem State.setRule_frc (s : State) (r : Nat) (x : RuleSt) : (s.setRule r x).frc = s.frc := rfl
@[simp] theorem State.setRule_uch (s : State) (r : Nat) (x : RuleSt) : (s.setRule r x).uch = s.uch := rfl
@[simp] theorem State.setRule_uchGrp (s : State) (r : Nat) (x : RuleSt) : (s.setRule r x).uchGrp = s.uchGrp := rfl
@[simp] theorem State.setRule_eth (s : State) (r : Nat) (x : RuleSt) : (s.setRule r x).eth = s.eth := rfl
@[simp] theorem State.setRule_olc (s : State) (r : Nat) (x : RuleSt) : (s.setRule r x).olc = s.olc := rfl
@[simp] theorem State.setRule_lft (s : State) (r : Nat) (x : RuleSt) : (s.setRule r x).lft = s.lft := rfl
@[simp] theorem State.setRule_dma (s : State) (r : Nat) (x : RuleSt) : (s.setRule r x).dma = s.dma := rfl
@[simp] theorem State.setRule_ecc (s : State) (r : Nat) (x : RuleSt) : (s.setRule r x).ecc = s.ecc := rfl
@[simp] theorem State.setRule_pwr (s : State) (r : Nat) (x : RuleSt) : (s.setRule r x).pwr = s.pwr := rfl
@[simp] theorem State.setRule_tim (s : State) (r : Nat) (x : RuleSt) : (s.setRule r x).tim = s.tim := rfl
@[simp] theorem State.setRule_outbox (s : State) (r : Nat) (x : RuleSt) : (s.setRule r x).outbox = s.outbox := rfl
@[simp] theorem State.setRule_pending (s : State) (r : Nat) (x : RuleSt) : (s.setRule r x).pending = s.pending := rfl

/-! ### State.setGroup -/
@[simp] theorem State.setGroup_clk (s : State) (g : Nat) (x : GroupSt) : (s.setGroup g x).clk = s.clk := rfl
@[simp] theorem State.setGroup_regs (s : State) (g : Nat) (x : GroupSt) : (s.setGroup g x).regs = s.regs := rfl
@[simp] theorem State.setGroup_cel (s : State) (g : Nat) (x : GroupSt) : (s.setGroup g x).cel = s.cel := rfl
@[simp] theorem State.setGroup_fns (s : State) (g : Nat) (x : GroupSt) : (s.setGroup g x).fns = s.fns := rfl
@[simp] theorem State.setGroup_sec (s : State) (g : Nat) (x : GroupSt) : (s.setGroup g x).sec = s.sec := rfl
@[simp] theorem State.setGroup_ports (s : State) (g : Nat) (x : GroupSt) : (s.setGroup g x).ports = s.ports := rfl
@[simp] theorem State.setGroup_rebind (s : State) (g : Nat) (x : GroupSt) : (s.setGroup g x).rebind = s.rebind := rfl
@[simp] theorem State.setGroup_fab (s : State) (g : Nat) (x : GroupSt) : (s.setGroup g x).fab = s.fab := rfl
@[simp] theorem State.setGroup_bin (s : State) (g : Nat) (x : GroupSt) : (s.setGroup g x).bin = s.bin := rfl
@[simp] theorem State.setGroup_fp (s : State) (g : Nat) (x : GroupSt) : (s.setGroup g x).fp = s.fp := rfl
@[simp] theorem State.setGroup_mem (s : State) (g : Nat) (x : GroupSt) : (s.setGroup g x).mem = s.mem := rfl
@[simp] theorem State.setGroup_lanes (s : State) (g : Nat) (x : GroupSt) : (s.setGroup g x).lanes = s.lanes := rfl
@[simp] theorem State.setGroup_tsk (s : State) (g : Nat) (x : GroupSt) : (s.setGroup g x).tsk = s.tsk := rfl
@[simp] theorem State.setGroup_frc (s : State) (g : Nat) (x : GroupSt) : (s.setGroup g x).frc = s.frc := rfl
@[simp] theorem State.setGroup_uch (s : State) (g : Nat) (x : GroupSt) : (s.setGroup g x).uch = s.uch := rfl
@[simp] theorem State.setGroup_uchGrp (s : State) (g : Nat) (x : GroupSt) : (s.setGroup g x).uchGrp = s.uchGrp := rfl
@[simp] theorem State.setGroup_eth (s : State) (g : Nat) (x : GroupSt) : (s.setGroup g x).eth = s.eth := rfl
@[simp] theorem State.setGroup_olc (s : State) (g : Nat) (x : GroupSt) : (s.setGroup g x).olc = s.olc := rfl
@[simp] theorem State.setGroup_lft (s : State) (g : Nat) (x : GroupSt) : (s.setGroup g x).lft = s.lft := rfl
@[simp] theorem State.setGroup_dma (s : State) (g : Nat) (x : GroupSt) : (s.setGroup g x).dma = s.dma := rfl
@[simp] theorem State.setGroup_ecc (s : State) (g : Nat) (x : GroupSt) : (s.setGroup g x).ecc = s.ecc := rfl
@[simp] theorem State.setGroup_pwr (s : State) (g : Nat) (x : GroupSt) : (s.setGroup g x).pwr = s.pwr := rfl
@[simp] theorem State.setGroup_tim (s : State) (g : Nat) (x : GroupSt) : (s.setGroup g x).tim = s.tim := rfl
@[simp] theorem State.setGroup_outbox (s : State) (g : Nat) (x : GroupSt) : (s.setGroup g x).outbox = s.outbox := rfl
@[simp] theorem State.setGroup_pending (s : State) (g : Nat) (x : GroupSt) : (s.setGroup g x).pending = s.pending := rfl

/-! ### State.setBucket -/
@[simp] theorem State.setBucket_clk (s : State) (c : Nat) (b : Bucket) : (s.setBucket c b).clk = s.clk := rfl
@[simp] theorem State.setBucket_regs (s : State) (c : Nat) (b : Bucket) : (s.setBucket c b).regs = s.regs := rfl
@[simp] theorem State.setBucket_fns (s : State) (c : Nat) (b : Bucket) : (s.setBucket c b).fns = s.fns := rfl
@[simp] theorem State.setBucket_sec (s : State) (c : Nat) (b : Bucket) : (s.setBucket c b).sec = s.sec := rfl
@[simp] theorem State.setBucket_ports (s : State) (c : Nat) (b : Bucket) : (s.setBucket c b).ports = s.ports := rfl
@[simp] theorem State.setBucket_rebind (s : State) (c : Nat) (b : Bucket) : (s.setBucket c b).rebind = s.rebind := rfl
@[simp] theorem State.setBucket_fab (s : State) (c : Nat) (b : Bucket) : (s.setBucket c b).fab = s.fab := rfl
@[simp] theorem State.setBucket_bin (s : State) (c : Nat) (b : Bucket) : (s.setBucket c b).bin = s.bin := rfl
@[simp] theorem State.setBucket_inj (s : State) (c : Nat) (b : Bucket) : (s.setBucket c b).inj = s.inj := rfl
@[simp] theorem State.setBucket_fp (s : State) (c : Nat) (b : Bucket) : (s.setBucket c b).fp = s.fp := rfl
@[simp] theorem State.setBucket_mem (s : State) (c : Nat) (b : Bucket) : (s.setBucket c b).mem = s.mem := rfl
@[simp] theorem State.setBucket_lanes (s : State) (c : Nat) (b : Bucket) : (s.setBucket c b).lanes = s.lanes := rfl
@[simp] theorem State.setBucket_tsk (s : State) (c : Nat) (b : Bucket) : (s.setBucket c b).tsk = s.tsk := rfl
@[simp] theorem State.setBucket_frc (s : State) (c : Nat) (b : Bucket) : (s.setBucket c b).frc = s.frc := rfl
@[simp] theorem State.setBucket_uch (s : State) (c : Nat) (b : Bucket) : (s.setBucket c b).uch = s.uch := rfl
@[simp] theorem State.setBucket_uchGrp (s : State) (c : Nat) (b : Bucket) : (s.setBucket c b).uchGrp = s.uchGrp := rfl
@[simp] theorem State.setBucket_eth (s : State) (c : Nat) (b : Bucket) : (s.setBucket c b).eth = s.eth := rfl
@[simp] theorem State.setBucket_olc (s : State) (c : Nat) (b : Bucket) : (s.setBucket c b).olc = s.olc := rfl
@[simp] theorem State.setBucket_lft (s : State) (c : Nat) (b : Bucket) : (s.setBucket c b).lft = s.lft := rfl
@[simp] theorem State.setBucket_dma (s : State) (c : Nat) (b : Bucket) : (s.setBucket c b).dma = s.dma := rfl
@[simp] theorem State.setBucket_ecc (s : State) (c : Nat) (b : Bucket) : (s.setBucket c b).ecc = s.ecc := rfl
@[simp] theorem State.setBucket_pwr (s : State) (c : Nat) (b : Bucket) : (s.setBucket c b).pwr = s.pwr := rfl
@[simp] theorem State.setBucket_tim (s : State) (c : Nat) (b : Bucket) : (s.setBucket c b).tim = s.tim := rfl
@[simp] theorem State.setBucket_outbox (s : State) (c : Nat) (b : Bucket) : (s.setBucket c b).outbox = s.outbox := rfl
@[simp] theorem State.setBucket_pending (s : State) (c : Nat) (b : Bucket) : (s.setBucket c b).pending = s.pending := rfl

/-! ### State.setDma -/
@[simp] theorem State.setDma_clk (s : State) (c : Nat) (x : DmaChan) : (s.setDma c x).clk = s.clk := rfl
@[simp] theorem State.setDma_regs (s : State) (c : Nat) (x : DmaChan) : (s.setDma c x).regs = s.regs := rfl
@[simp] theorem State.setDma_cel (s : State) (c : Nat) (x : DmaChan) : (s.setDma c x).cel = s.cel := rfl
@[simp] theorem State.setDma_fns (s : State) (c : Nat) (x : DmaChan) : (s.setDma c x).fns = s.fns := rfl
@[simp] theorem State.setDma_sec (s : State) (c : Nat) (x : DmaChan) : (s.setDma c x).sec = s.sec := rfl
@[simp] theorem State.setDma_ports (s : State) (c : Nat) (x : DmaChan) : (s.setDma c x).ports = s.ports := rfl
@[simp] theorem State.setDma_rebind (s : State) (c : Nat) (x : DmaChan) : (s.setDma c x).rebind = s.rebind := rfl
@[simp] theorem State.setDma_fab (s : State) (c : Nat) (x : DmaChan) : (s.setDma c x).fab = s.fab := rfl
@[simp] theorem State.setDma_bin (s : State) (c : Nat) (x : DmaChan) : (s.setDma c x).bin = s.bin := rfl
@[simp] theorem State.setDma_inj (s : State) (c : Nat) (x : DmaChan) : (s.setDma c x).inj = s.inj := rfl
@[simp] theorem State.setDma_fp (s : State) (c : Nat) (x : DmaChan) : (s.setDma c x).fp = s.fp := rfl
@[simp] theorem State.setDma_mem (s : State) (c : Nat) (x : DmaChan) : (s.setDma c x).mem = s.mem := rfl
@[simp] theorem State.setDma_lanes (s : State) (c : Nat) (x : DmaChan) : (s.setDma c x).lanes = s.lanes := rfl
@[simp] theorem State.setDma_tsk (s : State) (c : Nat) (x : DmaChan) : (s.setDma c x).tsk = s.tsk := rfl
@[simp] theorem State.setDma_frc (s : State) (c : Nat) (x : DmaChan) : (s.setDma c x).frc = s.frc := rfl
@[simp] theorem State.setDma_uch (s : State) (c : Nat) (x : DmaChan) : (s.setDma c x).uch = s.uch := rfl
@[simp] theorem State.setDma_uchGrp (s : State) (c : Nat) (x : DmaChan) : (s.setDma c x).uchGrp = s.uchGrp := rfl
@[simp] theorem State.setDma_eth (s : State) (c : Nat) (x : DmaChan) : (s.setDma c x).eth = s.eth := rfl
@[simp] theorem State.setDma_olc (s : State) (c : Nat) (x : DmaChan) : (s.setDma c x).olc = s.olc := rfl
@[simp] theorem State.setDma_lft (s : State) (c : Nat) (x : DmaChan) : (s.setDma c x).lft = s.lft := rfl
@[simp] theorem State.setDma_ecc (s : State) (c : Nat) (x : DmaChan) : (s.setDma c x).ecc = s.ecc := rfl
@[simp] theorem State.setDma_pwr (s : State) (c : Nat) (x : DmaChan) : (s.setDma c x).pwr = s.pwr := rfl
@[simp] theorem State.setDma_tim (s : State) (c : Nat) (x : DmaChan) : (s.setDma c x).tim = s.tim := rfl
@[simp] theorem State.setDma_outbox (s : State) (c : Nat) (x : DmaChan) : (s.setDma c x).outbox = s.outbox := rfl
@[simp] theorem State.setDma_pending (s : State) (c : Nat) (x : DmaChan) : (s.setDma c x).pending = s.pending := rfl

/-! ### State.setEthCtx -/
@[simp] theorem State.setEthCtx_clk (s : State) (n : Nat) (x : EthCtx) : (s.setEthCtx n x).clk = s.clk := rfl
@[simp] theorem State.setEthCtx_regs (s : State) (n : Nat) (x : EthCtx) : (s.setEthCtx n x).regs = s.regs := rfl
@[simp] theorem State.setEthCtx_cel (s : State) (n : Nat) (x : EthCtx) : (s.setEthCtx n x).cel = s.cel := rfl
@[simp] theorem State.setEthCtx_fns (s : State) (n : Nat) (x : EthCtx) : (s.setEthCtx n x).fns = s.fns := rfl
@[simp] theorem State.setEthCtx_sec (s : State) (n : Nat) (x : EthCtx) : (s.setEthCtx n x).sec = s.sec := rfl
@[simp] theorem State.setEthCtx_ports (s : State) (n : Nat) (x : EthCtx) : (s.setEthCtx n x).ports = s.ports := rfl
@[simp] theorem State.setEthCtx_rebind (s : State) (n : Nat) (x : EthCtx) : (s.setEthCtx n x).rebind = s.rebind := rfl
@[simp] theorem State.setEthCtx_fab (s : State) (n : Nat) (x : EthCtx) : (s.setEthCtx n x).fab = s.fab := rfl
@[simp] theorem State.setEthCtx_bin (s : State) (n : Nat) (x : EthCtx) : (s.setEthCtx n x).bin = s.bin := rfl
@[simp] theorem State.setEthCtx_inj (s : State) (n : Nat) (x : EthCtx) : (s.setEthCtx n x).inj = s.inj := rfl
@[simp] theorem State.setEthCtx_fp (s : State) (n : Nat) (x : EthCtx) : (s.setEthCtx n x).fp = s.fp := rfl
@[simp] theorem State.setEthCtx_mem (s : State) (n : Nat) (x : EthCtx) : (s.setEthCtx n x).mem = s.mem := rfl
@[simp] theorem State.setEthCtx_lanes (s : State) (n : Nat) (x : EthCtx) : (s.setEthCtx n x).lanes = s.lanes := rfl
@[simp] theorem State.setEthCtx_tsk (s : State) (n : Nat) (x : EthCtx) : (s.setEthCtx n x).tsk = s.tsk := rfl
@[simp] theorem State.setEthCtx_frc (s : State) (n : Nat) (x : EthCtx) : (s.setEthCtx n x).frc = s.frc := rfl
@[simp] theorem State.setEthCtx_uch (s : State) (n : Nat) (x : EthCtx) : (s.setEthCtx n x).uch = s.uch := rfl
@[simp] theorem State.setEthCtx_uchGrp (s : State) (n : Nat) (x : EthCtx) : (s.setEthCtx n x).uchGrp = s.uchGrp := rfl
@[simp] theorem State.setEthCtx_olc (s : State) (n : Nat) (x : EthCtx) : (s.setEthCtx n x).olc = s.olc := rfl
@[simp] theorem State.setEthCtx_lft (s : State) (n : Nat) (x : EthCtx) : (s.setEthCtx n x).lft = s.lft := rfl
@[simp] theorem State.setEthCtx_dma (s : State) (n : Nat) (x : EthCtx) : (s.setEthCtx n x).dma = s.dma := rfl
@[simp] theorem State.setEthCtx_ecc (s : State) (n : Nat) (x : EthCtx) : (s.setEthCtx n x).ecc = s.ecc := rfl
@[simp] theorem State.setEthCtx_pwr (s : State) (n : Nat) (x : EthCtx) : (s.setEthCtx n x).pwr = s.pwr := rfl
@[simp] theorem State.setEthCtx_tim (s : State) (n : Nat) (x : EthCtx) : (s.setEthCtx n x).tim = s.tim := rfl
@[simp] theorem State.setEthCtx_outbox (s : State) (n : Nat) (x : EthCtx) : (s.setEthCtx n x).outbox = s.outbox := rfl
@[simp] theorem State.setEthCtx_pending (s : State) (n : Nat) (x : EthCtx) : (s.setEthCtx n x).pending = s.pending := rfl

/-! ### State.route -/
@[simp] theorem State.route_clk (s : State) (ctx : Option Nat) (p : Nat) (f : EthFrame) : (s.route ctx p f).clk = s.clk := rfl
@[simp] theorem State.route_regs (s : State) (ctx : Option Nat) (p : Nat) (f : EthFrame) : (s.route ctx p f).regs = s.regs := rfl
@[simp] theorem State.route_cel (s : State) (ctx : Option Nat) (p : Nat) (f : EthFrame) : (s.route ctx p f).cel = s.cel := rfl
@[simp] theorem State.route_fns (s : State) (ctx : Option Nat) (p : Nat) (f : EthFrame) : (s.route ctx p f).fns = s.fns := rfl
@[simp] theorem State.route_sec (s : State) (ctx : Option Nat) (p : Nat) (f : EthFrame) : (s.route ctx p f).sec = s.sec := rfl
@[simp] theorem State.route_ports (s : State) (ctx : Option Nat) (p : Nat) (f : EthFrame) : (s.route ctx p f).ports = s.ports := rfl
@[simp] theorem State.route_rebind (s : State) (ctx : Option Nat) (p : Nat) (f : EthFrame) : (s.route ctx p f).rebind = s.rebind := rfl
@[simp] theorem State.route_fab (s : State) (ctx : Option Nat) (p : Nat) (f : EthFrame) : (s.route ctx p f).fab = s.fab := rfl
@[simp] theorem State.route_bin (s : State) (ctx : Option Nat) (p : Nat) (f : EthFrame) : (s.route ctx p f).bin = s.bin := rfl
@[simp] theorem State.route_inj (s : State) (ctx : Option Nat) (p : Nat) (f : EthFrame) : (s.route ctx p f).inj = s.inj := rfl
@[simp] theorem State.route_fp (s : State) (ctx : Option Nat) (p : Nat) (f : EthFrame) : (s.route ctx p f).fp = s.fp := rfl
@[simp] theorem State.route_mem (s : State) (ctx : Option Nat) (p : Nat) (f : EthFrame) : (s.route ctx p f).mem = s.mem := rfl
@[simp] theorem State.route_lanes (s : State) (ctx : Option Nat) (p : Nat) (f : EthFrame) : (s.route ctx p f).lanes = s.lanes := rfl
@[simp] theorem State.route_tsk (s : State) (ctx : Option Nat) (p : Nat) (f : EthFrame) : (s.route ctx p f).tsk = s.tsk := rfl
@[simp] theorem State.route_frc (s : State) (ctx : Option Nat) (p : Nat) (f : EthFrame) : (s.route ctx p f).frc = s.frc := rfl
@[simp] theorem State.route_uch (s : State) (ctx : Option Nat) (p : Nat) (f : EthFrame) : (s.route ctx p f).uch = s.uch := rfl
@[simp] theorem State.route_uchGrp (s : State) (ctx : Option Nat) (p : Nat) (f : EthFrame) : (s.route ctx p f).uchGrp = s.uchGrp := rfl
@[simp] theorem State.route_olc (s : State) (ctx : Option Nat) (p : Nat) (f : EthFrame) : (s.route ctx p f).olc = s.olc := rfl
@[simp] theorem State.route_lft (s : State) (ctx : Option Nat) (p : Nat) (f : EthFrame) : (s.route ctx p f).lft = s.lft := rfl
@[simp] theorem State.route_dma (s : State) (ctx : Option Nat) (p : Nat) (f : EthFrame) : (s.route ctx p f).dma = s.dma := rfl
@[simp] theorem State.route_ecc (s : State) (ctx : Option Nat) (p : Nat) (f : EthFrame) : (s.route ctx p f).ecc = s.ecc := rfl
@[simp] theorem State.route_pwr (s : State) (ctx : Option Nat) (p : Nat) (f : EthFrame) : (s.route ctx p f).pwr = s.pwr := rfl
@[simp] theorem State.route_tim (s : State) (ctx : Option Nat) (p : Nat) (f : EthFrame) : (s.route ctx p f).tim = s.tim := rfl
@[simp] theorem State.route_outbox (s : State) (ctx : Option Nat) (p : Nat) (f : EthFrame) : (s.route ctx p f).outbox = s.outbox := rfl
@[simp] theorem State.route_pending (s : State) (ctx : Option Nat) (p : Nat) (f : EthFrame) : (s.route ctx p f).pending = s.pending := rfl

/-! ### State.setTaskRt -/
@[simp] theorem State.setTaskRt_clk (s : State) (t : Nat) (x : TaskRt) : (s.setTaskRt t x).clk = s.clk := rfl
@[simp] theorem State.setTaskRt_regs (s : State) (t : Nat) (x : TaskRt) : (s.setTaskRt t x).regs = s.regs := rfl
@[simp] theorem State.setTaskRt_cel (s : State) (t : Nat) (x : TaskRt) : (s.setTaskRt t x).cel = s.cel := rfl
@[simp] theorem State.setTaskRt_fns (s : State) (t : Nat) (x : TaskRt) : (s.setTaskRt t x).fns = s.fns := rfl
@[simp] theorem State.setTaskRt_sec (s : State) (t : Nat) (x : TaskRt) : (s.setTaskRt t x).sec = s.sec := rfl
@[simp] theorem State.setTaskRt_ports (s : State) (t : Nat) (x : TaskRt) : (s.setTaskRt t x).ports = s.ports := rfl
@[simp] theorem State.setTaskRt_rebind (s : State) (t : Nat) (x : TaskRt) : (s.setTaskRt t x).rebind = s.rebind := rfl
@[simp] theorem State.setTaskRt_fab (s : State) (t : Nat) (x : TaskRt) : (s.setTaskRt t x).fab = s.fab := rfl
@[simp] theorem State.setTaskRt_bin (s : State) (t : Nat) (x : TaskRt) : (s.setTaskRt t x).bin = s.bin := rfl
@[simp] theorem State.setTaskRt_inj (s : State) (t : Nat) (x : TaskRt) : (s.setTaskRt t x).inj = s.inj := rfl
@[simp] theorem State.setTaskRt_fp (s : State) (t : Nat) (x : TaskRt) : (s.setTaskRt t x).fp = s.fp := rfl
@[simp] theorem State.setTaskRt_mem (s : State) (t : Nat) (x : TaskRt) : (s.setTaskRt t x).mem = s.mem := rfl
@[simp] theorem State.setTaskRt_lanes (s : State) (t : Nat) (x : TaskRt) : (s.setTaskRt t x).lanes = s.lanes := rfl
@[simp] theorem State.setTaskRt_frc (s : State) (t : Nat) (x : TaskRt) : (s.setTaskRt t x).frc = s.frc := rfl
@[simp] theorem State.setTaskRt_uch (s : State) (t : Nat) (x : TaskRt) : (s.setTaskRt t x).uch = s.uch := rfl
@[simp] theorem State.setTaskRt_uchGrp (s : State) (t : Nat) (x : TaskRt) : (s.setTaskRt t x).uchGrp = s.uchGrp := rfl
@[simp] theorem State.setTaskRt_eth (s : State) (t : Nat) (x : TaskRt) : (s.setTaskRt t x).eth = s.eth := rfl
@[simp] theorem State.setTaskRt_olc (s : State) (t : Nat) (x : TaskRt) : (s.setTaskRt t x).olc = s.olc := rfl
@[simp] theorem State.setTaskRt_lft (s : State) (t : Nat) (x : TaskRt) : (s.setTaskRt t x).lft = s.lft := rfl
@[simp] theorem State.setTaskRt_dma (s : State) (t : Nat) (x : TaskRt) : (s.setTaskRt t x).dma = s.dma := rfl
@[simp] theorem State.setTaskRt_ecc (s : State) (t : Nat) (x : TaskRt) : (s.setTaskRt t x).ecc = s.ecc := rfl
@[simp] theorem State.setTaskRt_pwr (s : State) (t : Nat) (x : TaskRt) : (s.setTaskRt t x).pwr = s.pwr := rfl
@[simp] theorem State.setTaskRt_tim (s : State) (t : Nat) (x : TaskRt) : (s.setTaskRt t x).tim = s.tim := rfl
@[simp] theorem State.setTaskRt_outbox (s : State) (t : Nat) (x : TaskRt) : (s.setTaskRt t x).outbox = s.outbox := rfl
@[simp] theorem State.setTaskRt_pending (s : State) (t : Nat) (x : TaskRt) : (s.setTaskRt t x).pending = s.pending := rfl

/-! ### State.setShadowRt -/
@[simp] theorem State.setShadowRt_clk (s : State) (t : Nat) (x : TaskRt) : (s.setShadowRt t x).clk = s.clk := rfl
@[simp] theorem State.setShadowRt_regs (s : State) (t : Nat) (x : TaskRt) : (s.setShadowRt t x).regs = s.regs := rfl
@[simp] theorem State.setShadowRt_cel (s : State) (t : Nat) (x : TaskRt) : (s.setShadowRt t x).cel = s.cel := rfl
@[simp] theorem State.setShadowRt_fns (s : State) (t : Nat) (x : TaskRt) : (s.setShadowRt t x).fns = s.fns := rfl
@[simp] theorem State.setShadowRt_sec (s : State) (t : Nat) (x : TaskRt) : (s.setShadowRt t x).sec = s.sec := rfl
@[simp] theorem State.setShadowRt_ports (s : State) (t : Nat) (x : TaskRt) : (s.setShadowRt t x).ports = s.ports := rfl
@[simp] theorem State.setShadowRt_rebind (s : State) (t : Nat) (x : TaskRt) : (s.setShadowRt t x).rebind = s.rebind := rfl
@[simp] theorem State.setShadowRt_fab (s : State) (t : Nat) (x : TaskRt) : (s.setShadowRt t x).fab = s.fab := rfl
@[simp] theorem State.setShadowRt_bin (s : State) (t : Nat) (x : TaskRt) : (s.setShadowRt t x).bin = s.bin := rfl
@[simp] theorem State.setShadowRt_inj (s : State) (t : Nat) (x : TaskRt) : (s.setShadowRt t x).inj = s.inj := rfl
@[simp] theorem State.setShadowRt_fp (s : State) (t : Nat) (x : TaskRt) : (s.setShadowRt t x).fp = s.fp := rfl
@[simp] theorem State.setShadowRt_mem (s : State) (t : Nat) (x : TaskRt) : (s.setShadowRt t x).mem = s.mem := rfl
@[simp] theorem State.setShadowRt_lanes (s : State) (t : Nat) (x : TaskRt) : (s.setShadowRt t x).lanes = s.lanes := rfl
@[simp] theorem State.setShadowRt_tsk (s : State) (t : Nat) (x : TaskRt) : (s.setShadowRt t x).tsk = s.tsk := rfl
@[simp] theorem State.setShadowRt_frc (s : State) (t : Nat) (x : TaskRt) : (s.setShadowRt t x).frc = s.frc := rfl
@[simp] theorem State.setShadowRt_uch (s : State) (t : Nat) (x : TaskRt) : (s.setShadowRt t x).uch = s.uch := rfl
@[simp] theorem State.setShadowRt_uchGrp (s : State) (t : Nat) (x : TaskRt) : (s.setShadowRt t x).uchGrp = s.uchGrp := rfl
@[simp] theorem State.setShadowRt_eth (s : State) (t : Nat) (x : TaskRt) : (s.setShadowRt t x).eth = s.eth := rfl
@[simp] theorem State.setShadowRt_lft (s : State) (t : Nat) (x : TaskRt) : (s.setShadowRt t x).lft = s.lft := rfl
@[simp] theorem State.setShadowRt_dma (s : State) (t : Nat) (x : TaskRt) : (s.setShadowRt t x).dma = s.dma := rfl
@[simp] theorem State.setShadowRt_ecc (s : State) (t : Nat) (x : TaskRt) : (s.setShadowRt t x).ecc = s.ecc := rfl
@[simp] theorem State.setShadowRt_pwr (s : State) (t : Nat) (x : TaskRt) : (s.setShadowRt t x).pwr = s.pwr := rfl
@[simp] theorem State.setShadowRt_tim (s : State) (t : Nat) (x : TaskRt) : (s.setShadowRt t x).tim = s.tim := rfl
@[simp] theorem State.setShadowRt_outbox (s : State) (t : Nat) (x : TaskRt) : (s.setShadowRt t x).outbox = s.outbox := rfl
@[simp] theorem State.setShadowRt_pending (s : State) (t : Nat) (x : TaskRt) : (s.setShadowRt t x).pending = s.pending := rfl

/-! ### State.setRpl -/
@[simp] theorem State.setRpl_clk (s : State) (r : Replay) : (s.setRpl r).clk = s.clk := rfl
@[simp] theorem State.setRpl_regs (s : State) (r : Replay) : (s.setRpl r).regs = s.regs := rfl
@[simp] theorem State.setRpl_cel (s : State) (r : Replay) : (s.setRpl r).cel = s.cel := rfl
@[simp] theorem State.setRpl_fns (s : State) (r : Replay) : (s.setRpl r).fns = s.fns := rfl
@[simp] theorem State.setRpl_sec (s : State) (r : Replay) : (s.setRpl r).sec = s.sec := rfl
@[simp] theorem State.setRpl_ports (s : State) (r : Replay) : (s.setRpl r).ports = s.ports := rfl
@[simp] theorem State.setRpl_rebind (s : State) (r : Replay) : (s.setRpl r).rebind = s.rebind := rfl
@[simp] theorem State.setRpl_fab (s : State) (r : Replay) : (s.setRpl r).fab = s.fab := rfl
@[simp] theorem State.setRpl_bin (s : State) (r : Replay) : (s.setRpl r).bin = s.bin := rfl
@[simp] theorem State.setRpl_inj (s : State) (r : Replay) : (s.setRpl r).inj = s.inj := rfl
@[simp] theorem State.setRpl_fp (s : State) (r : Replay) : (s.setRpl r).fp = s.fp := rfl
@[simp] theorem State.setRpl_mem (s : State) (r : Replay) : (s.setRpl r).mem = s.mem := rfl
@[simp] theorem State.setRpl_lanes (s : State) (r : Replay) : (s.setRpl r).lanes = s.lanes := rfl
@[simp] theorem State.setRpl_tsk (s : State) (r : Replay) : (s.setRpl r).tsk = s.tsk := rfl
@[simp] theorem State.setRpl_frc (s : State) (r : Replay) : (s.setRpl r).frc = s.frc := rfl
@[simp] theorem State.setRpl_uch (s : State) (r : Replay) : (s.setRpl r).uch = s.uch := rfl
@[simp] theorem State.setRpl_uchGrp (s : State) (r : Replay) : (s.setRpl r).uchGrp = s.uchGrp := rfl
@[simp] theorem State.setRpl_eth (s : State) (r : Replay) : (s.setRpl r).eth = s.eth := rfl
@[simp] theorem State.setRpl_lft (s : State) (r : Replay) : (s.setRpl r).lft = s.lft := rfl
@[simp] theorem State.setRpl_dma (s : State) (r : Replay) : (s.setRpl r).dma = s.dma := rfl
@[simp] theorem State.setRpl_ecc (s : State) (r : Replay) : (s.setRpl r).ecc = s.ecc := rfl
@[simp] theorem State.setRpl_pwr (s : State) (r : Replay) : (s.setRpl r).pwr = s.pwr := rfl
@[simp] theorem State.setRpl_tim (s : State) (r : Replay) : (s.setRpl r).tim = s.tim := rfl
@[simp] theorem State.setRpl_outbox (s : State) (r : Replay) : (s.setRpl r).outbox = s.outbox := rfl
@[simp] theorem State.setRpl_pending (s : State) (r : Replay) : (s.setRpl r).pending = s.pending := rfl

/-! ### State.setCtx -/
@[simp] theorem State.setCtx_clk (s : State) (n : Nat) (x : Ctx) : (s.setCtx n x).clk = s.clk := rfl
@[simp] theorem State.setCtx_regs (s : State) (n : Nat) (x : Ctx) : (s.setCtx n x).regs = s.regs := rfl
@[simp] theorem State.setCtx_cel (s : State) (n : Nat) (x : Ctx) : (s.setCtx n x).cel = s.cel := rfl
@[simp] theorem State.setCtx_fns (s : State) (n : Nat) (x : Ctx) : (s.setCtx n x).fns = s.fns := rfl
@[simp] theorem State.setCtx_sec (s : State) (n : Nat) (x : Ctx) : (s.setCtx n x).sec = s.sec := rfl
@[simp] theorem State.setCtx_ports (s : State) (n : Nat) (x : Ctx) : (s.setCtx n x).ports = s.ports := rfl
@[simp] theorem State.setCtx_rebind (s : State) (n : Nat) (x : Ctx) : (s.setCtx n x).rebind = s.rebind := rfl
@[simp] theorem State.setCtx_bin (s : State) (n : Nat) (x : Ctx) : (s.setCtx n x).bin = s.bin := rfl
@[simp] theorem State.setCtx_inj (s : State) (n : Nat) (x : Ctx) : (s.setCtx n x).inj = s.inj := rfl
@[simp] theorem State.setCtx_fp (s : State) (n : Nat) (x : Ctx) : (s.setCtx n x).fp = s.fp := rfl
@[simp] theorem State.setCtx_mem (s : State) (n : Nat) (x : Ctx) : (s.setCtx n x).mem = s.mem := rfl
@[simp] theorem State.setCtx_lanes (s : State) (n : Nat) (x : Ctx) : (s.setCtx n x).lanes = s.lanes := rfl
@[simp] theorem State.setCtx_tsk (s : State) (n : Nat) (x : Ctx) : (s.setCtx n x).tsk = s.tsk := rfl
@[simp] theorem State.setCtx_frc (s : State) (n : Nat) (x : Ctx) : (s.setCtx n x).frc = s.frc := rfl
@[simp] theorem State.setCtx_uch (s : State) (n : Nat) (x : Ctx) : (s.setCtx n x).uch = s.uch := rfl
@[simp] theorem State.setCtx_uchGrp (s : State) (n : Nat) (x : Ctx) : (s.setCtx n x).uchGrp = s.uchGrp := rfl
@[simp] theorem State.setCtx_eth (s : State) (n : Nat) (x : Ctx) : (s.setCtx n x).eth = s.eth := rfl
@[simp] theorem State.setCtx_olc (s : State) (n : Nat) (x : Ctx) : (s.setCtx n x).olc = s.olc := rfl
@[simp] theorem State.setCtx_lft (s : State) (n : Nat) (x : Ctx) : (s.setCtx n x).lft = s.lft := rfl
@[simp] theorem State.setCtx_dma (s : State) (n : Nat) (x : Ctx) : (s.setCtx n x).dma = s.dma := rfl
@[simp] theorem State.setCtx_ecc (s : State) (n : Nat) (x : Ctx) : (s.setCtx n x).ecc = s.ecc := rfl
@[simp] theorem State.setCtx_pwr (s : State) (n : Nat) (x : Ctx) : (s.setCtx n x).pwr = s.pwr := rfl
@[simp] theorem State.setCtx_tim (s : State) (n : Nat) (x : Ctx) : (s.setCtx n x).tim = s.tim := rfl
@[simp] theorem State.setCtx_outbox (s : State) (n : Nat) (x : Ctx) : (s.setCtx n x).outbox = s.outbox := rfl
@[simp] theorem State.setCtx_pending (s : State) (n : Nat) (x : Ctx) : (s.setCtx n x).pending = s.pending := rfl

/-! ### State.setCycle -/
@[simp] theorem State.setCycle_clk (s : State) (k : Nat) (c : Option Cycle) : (s.setCycle k c).clk = s.clk := rfl
@[simp] theorem State.setCycle_regs (s : State) (k : Nat) (c : Option Cycle) : (s.setCycle k c).regs = s.regs := rfl
@[simp] theorem State.setCycle_cel (s : State) (k : Nat) (c : Option Cycle) : (s.setCycle k c).cel = s.cel := rfl
@[simp] theorem State.setCycle_fns (s : State) (k : Nat) (c : Option Cycle) : (s.setCycle k c).fns = s.fns := rfl
@[simp] theorem State.setCycle_sec (s : State) (k : Nat) (c : Option Cycle) : (s.setCycle k c).sec = s.sec := rfl
@[simp] theorem State.setCycle_ports (s : State) (k : Nat) (c : Option Cycle) : (s.setCycle k c).ports = s.ports := rfl
@[simp] theorem State.setCycle_rebind (s : State) (k : Nat) (c : Option Cycle) : (s.setCycle k c).rebind = s.rebind := rfl
@[simp] theorem State.setCycle_fab (s : State) (k : Nat) (c : Option Cycle) : (s.setCycle k c).fab = s.fab := rfl
@[simp] theorem State.setCycle_bin (s : State) (k : Nat) (c : Option Cycle) : (s.setCycle k c).bin = s.bin := rfl
@[simp] theorem State.setCycle_inj (s : State) (k : Nat) (c : Option Cycle) : (s.setCycle k c).inj = s.inj := rfl
@[simp] theorem State.setCycle_fp (s : State) (k : Nat) (c : Option Cycle) : (s.setCycle k c).fp = s.fp := rfl
@[simp] theorem State.setCycle_mem (s : State) (k : Nat) (c : Option Cycle) : (s.setCycle k c).mem = s.mem := rfl
@[simp] theorem State.setCycle_lanes (s : State) (k : Nat) (c : Option Cycle) : (s.setCycle k c).lanes = s.lanes := rfl
@[simp] theorem State.setCycle_frc (s : State) (k : Nat) (c : Option Cycle) : (s.setCycle k c).frc = s.frc := rfl
@[simp] theorem State.setCycle_uch (s : State) (k : Nat) (c : Option Cycle) : (s.setCycle k c).uch = s.uch := rfl
@[simp] theorem State.setCycle_uchGrp (s : State) (k : Nat) (c : Option Cycle) : (s.setCycle k c).uchGrp = s.uchGrp := rfl
@[simp] theorem State.setCycle_eth (s : State) (k : Nat) (c : Option Cycle) : (s.setCycle k c).eth = s.eth := rfl
@[simp] theorem State.setCycle_olc (s : State) (k : Nat) (c : Option Cycle) : (s.setCycle k c).olc = s.olc := rfl
@[simp] theorem State.setCycle_lft (s : State) (k : Nat) (c : Option Cycle) : (s.setCycle k c).lft = s.lft := rfl
@[simp] theorem State.setCycle_dma (s : State) (k : Nat) (c : Option Cycle) : (s.setCycle k c).dma = s.dma := rfl
@[simp] theorem State.setCycle_ecc (s : State) (k : Nat) (c : Option Cycle) : (s.setCycle k c).ecc = s.ecc := rfl
@[simp] theorem State.setCycle_pwr (s : State) (k : Nat) (c : Option Cycle) : (s.setCycle k c).pwr = s.pwr := rfl
@[simp] theorem State.setCycle_tim (s : State) (k : Nat) (c : Option Cycle) : (s.setCycle k c).tim = s.tim := rfl
@[simp] theorem State.setCycle_outbox (s : State) (k : Nat) (c : Option Cycle) : (s.setCycle k c).outbox = s.outbox := rfl
@[simp] theorem State.setCycle_pending (s : State) (k : Nat) (c : Option Cycle) : (s.setCycle k c).pending = s.pending := rfl

/-! ### State.setLane -/
@[simp] theorem State.setLane_clk (s : State) (ln : Nat) (x : LaneSt) : (s.setLane ln x).clk = s.clk := rfl
@[simp] theorem State.setLane_regs (s : State) (ln : Nat) (x : LaneSt) : (s.setLane ln x).regs = s.regs := rfl
@[simp] theorem State.setLane_cel (s : State) (ln : Nat) (x : LaneSt) : (s.setLane ln x).cel = s.cel := rfl
@[simp] theorem State.setLane_fns (s : State) (ln : Nat) (x : LaneSt) : (s.setLane ln x).fns = s.fns := rfl
@[simp] theorem State.setLane_sec (s : State) (ln : Nat) (x : LaneSt) : (s.setLane ln x).sec = s.sec := rfl
@[simp] theorem State.setLane_ports (s : State) (ln : Nat) (x : LaneSt) : (s.setLane ln x).ports = s.ports := rfl
@[simp] theorem State.setLane_rebind (s : State) (ln : Nat) (x : LaneSt) : (s.setLane ln x).rebind = s.rebind := rfl
@[simp] theorem State.setLane_fab (s : State) (ln : Nat) (x : LaneSt) : (s.setLane ln x).fab = s.fab := rfl
@[simp] theorem State.setLane_bin (s : State) (ln : Nat) (x : LaneSt) : (s.setLane ln x).bin = s.bin := rfl
@[simp] theorem State.setLane_inj (s : State) (ln : Nat) (x : LaneSt) : (s.setLane ln x).inj = s.inj := rfl
@[simp] theorem State.setLane_fp (s : State) (ln : Nat) (x : LaneSt) : (s.setLane ln x).fp = s.fp := rfl
@[simp] theorem State.setLane_mem (s : State) (ln : Nat) (x : LaneSt) : (s.setLane ln x).mem = s.mem := rfl
@[simp] theorem State.setLane_tsk (s : State) (ln : Nat) (x : LaneSt) : (s.setLane ln x).tsk = s.tsk := rfl
@[simp] theorem State.setLane_frc (s : State) (ln : Nat) (x : LaneSt) : (s.setLane ln x).frc = s.frc := rfl
@[simp] theorem State.setLane_uch (s : State) (ln : Nat) (x : LaneSt) : (s.setLane ln x).uch = s.uch := rfl
@[simp] theorem State.setLane_uchGrp (s : State) (ln : Nat) (x : LaneSt) : (s.setLane ln x).uchGrp = s.uchGrp := rfl
@[simp] theorem State.setLane_eth (s : State) (ln : Nat) (x : LaneSt) : (s.setLane ln x).eth = s.eth := rfl
@[simp] theorem State.setLane_olc (s : State) (ln : Nat) (x : LaneSt) : (s.setLane ln x).olc = s.olc := rfl
@[simp] theorem State.setLane_lft (s : State) (ln : Nat) (x : LaneSt) : (s.setLane ln x).lft = s.lft := rfl
@[simp] theorem State.setLane_dma (s : State) (ln : Nat) (x : LaneSt) : (s.setLane ln x).dma = s.dma := rfl
@[simp] theorem State.setLane_ecc (s : State) (ln : Nat) (x : LaneSt) : (s.setLane ln x).ecc = s.ecc := rfl
@[simp] theorem State.setLane_pwr (s : State) (ln : Nat) (x : LaneSt) : (s.setLane ln x).pwr = s.pwr := rfl
@[simp] theorem State.setLane_tim (s : State) (ln : Nat) (x : LaneSt) : (s.setLane ln x).tim = s.tim := rfl
@[simp] theorem State.setLane_outbox (s : State) (ln : Nat) (x : LaneSt) : (s.setLane ln x).outbox = s.outbox := rfl
@[simp] theorem State.setLane_pending (s : State) (ln : Nat) (x : LaneSt) : (s.setLane ln x).pending = s.pending := rfl

/-! ### State.setFrc -/
@[simp] theorem State.setFrc_clk (s : State) (n : Nat) (x : FrcSt) : (s.setFrc n x).clk = s.clk := rfl
@[simp] theorem State.setFrc_regs (s : State) (n : Nat) (x : FrcSt) : (s.setFrc n x).regs = s.regs := rfl
@[simp] theorem State.setFrc_cel (s : State) (n : Nat) (x : FrcSt) : (s.setFrc n x).cel = s.cel := rfl
@[simp] theorem State.setFrc_fns (s : State) (n : Nat) (x : FrcSt) : (s.setFrc n x).fns = s.fns := rfl
@[simp] theorem State.setFrc_sec (s : State) (n : Nat) (x : FrcSt) : (s.setFrc n x).sec = s.sec := rfl
@[simp] theorem State.setFrc_ports (s : State) (n : Nat) (x : FrcSt) : (s.setFrc n x).ports = s.ports := rfl
@[simp] theorem State.setFrc_rebind (s : State) (n : Nat) (x : FrcSt) : (s.setFrc n x).rebind = s.rebind := rfl
@[simp] theorem State.setFrc_fab (s : State) (n : Nat) (x : FrcSt) : (s.setFrc n x).fab = s.fab := rfl
@[simp] theorem State.setFrc_bin (s : State) (n : Nat) (x : FrcSt) : (s.setFrc n x).bin = s.bin := rfl
@[simp] theorem State.setFrc_inj (s : State) (n : Nat) (x : FrcSt) : (s.setFrc n x).inj = s.inj := rfl
@[simp] theorem State.setFrc_fp (s : State) (n : Nat) (x : FrcSt) : (s.setFrc n x).fp = s.fp := rfl
@[simp] theorem State.setFrc_mem (s : State) (n : Nat) (x : FrcSt) : (s.setFrc n x).mem = s.mem := rfl
@[simp] theorem State.setFrc_lanes (s : State) (n : Nat) (x : FrcSt) : (s.setFrc n x).lanes = s.lanes := rfl
@[simp] theorem State.setFrc_tsk (s : State) (n : Nat) (x : FrcSt) : (s.setFrc n x).tsk = s.tsk := rfl
@[simp] theorem State.setFrc_uch (s : State) (n : Nat) (x : FrcSt) : (s.setFrc n x).uch = s.uch := rfl
@[simp] theorem State.setFrc_uchGrp (s : State) (n : Nat) (x : FrcSt) : (s.setFrc n x).uchGrp = s.uchGrp := rfl
@[simp] theorem State.setFrc_eth (s : State) (n : Nat) (x : FrcSt) : (s.setFrc n x).eth = s.eth := rfl
@[simp] theorem State.setFrc_olc (s : State) (n : Nat) (x : FrcSt) : (s.setFrc n x).olc = s.olc := rfl
@[simp] theorem State.setFrc_lft (s : State) (n : Nat) (x : FrcSt) : (s.setFrc n x).lft = s.lft := rfl
@[simp] theorem State.setFrc_dma (s : State) (n : Nat) (x : FrcSt) : (s.setFrc n x).dma = s.dma := rfl
@[simp] theorem State.setFrc_ecc (s : State) (n : Nat) (x : FrcSt) : (s.setFrc n x).ecc = s.ecc := rfl
@[simp] theorem State.setFrc_pwr (s : State) (n : Nat) (x : FrcSt) : (s.setFrc n x).pwr = s.pwr := rfl
@[simp] theorem State.setFrc_tim (s : State) (n : Nat) (x : FrcSt) : (s.setFrc n x).tim = s.tim := rfl
@[simp] theorem State.setFrc_outbox (s : State) (n : Nat) (x : FrcSt) : (s.setFrc n x).outbox = s.outbox := rfl
@[simp] theorem State.setFrc_pending (s : State) (n : Nat) (x : FrcSt) : (s.setFrc n x).pending = s.pending := rfl

/-! ### State.setRecipe -/
@[simp] theorem State.setRecipe_clk (s : State) (r : Nat) (x : Recipe) : (s.setRecipe r x).clk = s.clk := rfl
@[simp] theorem State.setRecipe_regs (s : State) (r : Nat) (x : Recipe) : (s.setRecipe r x).regs = s.regs := rfl
@[simp] theorem State.setRecipe_cel (s : State) (r : Nat) (x : Recipe) : (s.setRecipe r x).cel = s.cel := rfl
@[simp] theorem State.setRecipe_fns (s : State) (r : Nat) (x : Recipe) : (s.setRecipe r x).fns = s.fns := rfl
@[simp] theorem State.setRecipe_sec (s : State) (r : Nat) (x : Recipe) : (s.setRecipe r x).sec = s.sec := rfl
@[simp] theorem State.setRecipe_ports (s : State) (r : Nat) (x : Recipe) : (s.setRecipe r x).ports = s.ports := rfl
@[simp] theorem State.setRecipe_rebind (s : State) (r : Nat) (x : Recipe) : (s.setRecipe r x).rebind = s.rebind := rfl
@[simp] theorem State.setRecipe_fab (s : State) (r : Nat) (x : Recipe) : (s.setRecipe r x).fab = s.fab := rfl
@[simp] theorem State.setRecipe_bin (s : State) (r : Nat) (x : Recipe) : (s.setRecipe r x).bin = s.bin := rfl
@[simp] theorem State.setRecipe_inj (s : State) (r : Nat) (x : Recipe) : (s.setRecipe r x).inj = s.inj := rfl
@[simp] theorem State.setRecipe_fp (s : State) (r : Nat) (x : Recipe) : (s.setRecipe r x).fp = s.fp := rfl
@[simp] theorem State.setRecipe_mem (s : State) (r : Nat) (x : Recipe) : (s.setRecipe r x).mem = s.mem := rfl
@[simp] theorem State.setRecipe_lanes (s : State) (r : Nat) (x : Recipe) : (s.setRecipe r x).lanes = s.lanes := rfl
@[simp] theorem State.setRecipe_tsk (s : State) (r : Nat) (x : Recipe) : (s.setRecipe r x).tsk = s.tsk := rfl
@[simp] theorem State.setRecipe_frc (s : State) (r : Nat) (x : Recipe) : (s.setRecipe r x).frc = s.frc := rfl
@[simp] theorem State.setRecipe_uch (s : State) (r : Nat) (x : Recipe) : (s.setRecipe r x).uch = s.uch := rfl
@[simp] theorem State.setRecipe_uchGrp (s : State) (r : Nat) (x : Recipe) : (s.setRecipe r x).uchGrp = s.uchGrp := rfl
@[simp] theorem State.setRecipe_eth (s : State) (r : Nat) (x : Recipe) : (s.setRecipe r x).eth = s.eth := rfl
@[simp] theorem State.setRecipe_olc (s : State) (r : Nat) (x : Recipe) : (s.setRecipe r x).olc = s.olc := rfl
@[simp] theorem State.setRecipe_dma (s : State) (r : Nat) (x : Recipe) : (s.setRecipe r x).dma = s.dma := rfl
@[simp] theorem State.setRecipe_ecc (s : State) (r : Nat) (x : Recipe) : (s.setRecipe r x).ecc = s.ecc := rfl
@[simp] theorem State.setRecipe_pwr (s : State) (r : Nat) (x : Recipe) : (s.setRecipe r x).pwr = s.pwr := rfl
@[simp] theorem State.setRecipe_tim (s : State) (r : Nat) (x : Recipe) : (s.setRecipe r x).tim = s.tim := rfl
@[simp] theorem State.setRecipe_outbox (s : State) (r : Nat) (x : Recipe) : (s.setRecipe r x).outbox = s.outbox := rfl
@[simp] theorem State.setRecipe_pending (s : State) (r : Nat) (x : Recipe) : (s.setRecipe r x).pending = s.pending := rfl

/-! ### State.setCmp -/
@[simp] theorem State.setCmp_clk (s : State) (n : Nat) (x : CmpSt) : (s.setCmp n x).clk = s.clk := rfl
@[simp] theorem State.setCmp_regs (s : State) (n : Nat) (x : CmpSt) : (s.setCmp n x).regs = s.regs := rfl
@[simp] theorem State.setCmp_cel (s : State) (n : Nat) (x : CmpSt) : (s.setCmp n x).cel = s.cel := rfl
@[simp] theorem State.setCmp_fns (s : State) (n : Nat) (x : CmpSt) : (s.setCmp n x).fns = s.fns := rfl
@[simp] theorem State.setCmp_sec (s : State) (n : Nat) (x : CmpSt) : (s.setCmp n x).sec = s.sec := rfl
@[simp] theorem State.setCmp_ports (s : State) (n : Nat) (x : CmpSt) : (s.setCmp n x).ports = s.ports := rfl
@[simp] theorem State.setCmp_rebind (s : State) (n : Nat) (x : CmpSt) : (s.setCmp n x).rebind = s.rebind := rfl
@[simp] theorem State.setCmp_fab (s : State) (n : Nat) (x : CmpSt) : (s.setCmp n x).fab = s.fab := rfl
@[simp] theorem State.setCmp_bin (s : State) (n : Nat) (x : CmpSt) : (s.setCmp n x).bin = s.bin := rfl
@[simp] theorem State.setCmp_inj (s : State) (n : Nat) (x : CmpSt) : (s.setCmp n x).inj = s.inj := rfl
@[simp] theorem State.setCmp_fp (s : State) (n : Nat) (x : CmpSt) : (s.setCmp n x).fp = s.fp := rfl
@[simp] theorem State.setCmp_mem (s : State) (n : Nat) (x : CmpSt) : (s.setCmp n x).mem = s.mem := rfl
@[simp] theorem State.setCmp_lanes (s : State) (n : Nat) (x : CmpSt) : (s.setCmp n x).lanes = s.lanes := rfl
@[simp] theorem State.setCmp_tsk (s : State) (n : Nat) (x : CmpSt) : (s.setCmp n x).tsk = s.tsk := rfl
@[simp] theorem State.setCmp_frc (s : State) (n : Nat) (x : CmpSt) : (s.setCmp n x).frc = s.frc := rfl
@[simp] theorem State.setCmp_uch (s : State) (n : Nat) (x : CmpSt) : (s.setCmp n x).uch = s.uch := rfl
@[simp] theorem State.setCmp_uchGrp (s : State) (n : Nat) (x : CmpSt) : (s.setCmp n x).uchGrp = s.uchGrp := rfl
@[simp] theorem State.setCmp_eth (s : State) (n : Nat) (x : CmpSt) : (s.setCmp n x).eth = s.eth := rfl
@[simp] theorem State.setCmp_olc (s : State) (n : Nat) (x : CmpSt) : (s.setCmp n x).olc = s.olc := rfl
@[simp] theorem State.setCmp_dma (s : State) (n : Nat) (x : CmpSt) : (s.setCmp n x).dma = s.dma := rfl
@[simp] theorem State.setCmp_ecc (s : State) (n : Nat) (x : CmpSt) : (s.setCmp n x).ecc = s.ecc := rfl
@[simp] theorem State.setCmp_pwr (s : State) (n : Nat) (x : CmpSt) : (s.setCmp n x).pwr = s.pwr := rfl
@[simp] theorem State.setCmp_tim (s : State) (n : Nat) (x : CmpSt) : (s.setCmp n x).tim = s.tim := rfl
@[simp] theorem State.setCmp_outbox (s : State) (n : Nat) (x : CmpSt) : (s.setCmp n x).outbox = s.outbox := rfl
@[simp] theorem State.setCmp_pending (s : State) (n : Nat) (x : CmpSt) : (s.setCmp n x).pending = s.pending := rfl

/-! ### State.modRec -/
@[simp] theorem State.modRec_clk (s : State) (n : Nat) (f : LftRec → LftRec) : (s.modRec n f).clk = s.clk := rfl
@[simp] theorem State.modRec_regs (s : State) (n : Nat) (f : LftRec → LftRec) : (s.modRec n f).regs = s.regs := rfl
@[simp] theorem State.modRec_cel (s : State) (n : Nat) (f : LftRec → LftRec) : (s.modRec n f).cel = s.cel := rfl
@[simp] theorem State.modRec_fns (s : State) (n : Nat) (f : LftRec → LftRec) : (s.modRec n f).fns = s.fns := rfl
@[simp] theorem State.modRec_sec (s : State) (n : Nat) (f : LftRec → LftRec) : (s.modRec n f).sec = s.sec := rfl
@[simp] theorem State.modRec_ports (s : State) (n : Nat) (f : LftRec → LftRec) : (s.modRec n f).ports = s.ports := rfl
@[simp] theorem State.modRec_rebind (s : State) (n : Nat) (f : LftRec → LftRec) : (s.modRec n f).rebind = s.rebind := rfl
@[simp] theorem State.modRec_fab (s : State) (n : Nat) (f : LftRec → LftRec) : (s.modRec n f).fab = s.fab := rfl
@[simp] theorem State.modRec_bin (s : State) (n : Nat) (f : LftRec → LftRec) : (s.modRec n f).bin = s.bin := rfl
@[simp] theorem State.modRec_inj (s : State) (n : Nat) (f : LftRec → LftRec) : (s.modRec n f).inj = s.inj := rfl
@[simp] theorem State.modRec_fp (s : State) (n : Nat) (f : LftRec → LftRec) : (s.modRec n f).fp = s.fp := rfl
@[simp] theorem State.modRec_mem (s : State) (n : Nat) (f : LftRec → LftRec) : (s.modRec n f).mem = s.mem := rfl
@[simp] theorem State.modRec_lanes (s : State) (n : Nat) (f : LftRec → LftRec) : (s.modRec n f).lanes = s.lanes := rfl
@[simp] theorem State.modRec_tsk (s : State) (n : Nat) (f : LftRec → LftRec) : (s.modRec n f).tsk = s.tsk := rfl
@[simp] theorem State.modRec_frc (s : State) (n : Nat) (f : LftRec → LftRec) : (s.modRec n f).frc = s.frc := rfl
@[simp] theorem State.modRec_uch (s : State) (n : Nat) (f : LftRec → LftRec) : (s.modRec n f).uch = s.uch := rfl
@[simp] theorem State.modRec_uchGrp (s : State) (n : Nat) (f : LftRec → LftRec) : (s.modRec n f).uchGrp = s.uchGrp := rfl
@[simp] theorem State.modRec_eth (s : State) (n : Nat) (f : LftRec → LftRec) : (s.modRec n f).eth = s.eth := rfl
@[simp] theorem State.modRec_olc (s : State) (n : Nat) (f : LftRec → LftRec) : (s.modRec n f).olc = s.olc := rfl
@[simp] theorem State.modRec_dma (s : State) (n : Nat) (f : LftRec → LftRec) : (s.modRec n f).dma = s.dma := rfl
@[simp] theorem State.modRec_ecc (s : State) (n : Nat) (f : LftRec → LftRec) : (s.modRec n f).ecc = s.ecc := rfl
@[simp] theorem State.modRec_pwr (s : State) (n : Nat) (f : LftRec → LftRec) : (s.modRec n f).pwr = s.pwr := rfl
@[simp] theorem State.modRec_tim (s : State) (n : Nat) (f : LftRec → LftRec) : (s.modRec n f).tim = s.tim := rfl
@[simp] theorem State.modRec_outbox (s : State) (n : Nat) (f : LftRec → LftRec) : (s.modRec n f).outbox = s.outbox := rfl
@[simp] theorem State.modRec_pending (s : State) (n : Nat) (f : LftRec → LftRec) : (s.modRec n f).pending = s.pending := rfl

/-! ### State.setHist -/
@[simp] theorem State.setHist_clk (s : State) (u : Nat) (x : HistSt) : (s.setHist u x).clk = s.clk := rfl
@[simp] theorem State.setHist_regs (s : State) (u : Nat) (x : HistSt) : (s.setHist u x).regs = s.regs := rfl
@[simp] theorem State.setHist_cel (s : State) (u : Nat) (x : HistSt) : (s.setHist u x).cel = s.cel := rfl
@[simp] theorem State.setHist_fns (s : State) (u : Nat) (x : HistSt) : (s.setHist u x).fns = s.fns := rfl
@[simp] theorem State.setHist_sec (s : State) (u : Nat) (x : HistSt) : (s.setHist u x).sec = s.sec := rfl
@[simp] theorem State.setHist_ports (s : State) (u : Nat) (x : HistSt) : (s.setHist u x).ports = s.ports := rfl
@[simp] theorem State.setHist_rebind (s : State) (u : Nat) (x : HistSt) : (s.setHist u x).rebind = s.rebind := rfl
@[simp] theorem State.setHist_fab (s : State) (u : Nat) (x : HistSt) : (s.setHist u x).fab = s.fab := rfl
@[simp] theorem State.setHist_bin (s : State) (u : Nat) (x : HistSt) : (s.setHist u x).bin = s.bin := rfl
@[simp] theorem State.setHist_inj (s : State) (u : Nat) (x : HistSt) : (s.setHist u x).inj = s.inj := rfl
@[simp] theorem State.setHist_fp (s : State) (u : Nat) (x : HistSt) : (s.setHist u x).fp = s.fp := rfl
@[simp] theorem State.setHist_mem (s : State) (u : Nat) (x : HistSt) : (s.setHist u x).mem = s.mem := rfl
@[simp] theorem State.setHist_lanes (s : State) (u : Nat) (x : HistSt) : (s.setHist u x).lanes = s.lanes := rfl
@[simp] theorem State.setHist_tsk (s : State) (u : Nat) (x : HistSt) : (s.setHist u x).tsk = s.tsk := rfl
@[simp] theorem State.setHist_frc (s : State) (u : Nat) (x : HistSt) : (s.setHist u x).frc = s.frc := rfl
@[simp] theorem State.setHist_uch (s : State) (u : Nat) (x : HistSt) : (s.setHist u x).uch = s.uch := rfl
@[simp] theorem State.setHist_uchGrp (s : State) (u : Nat) (x : HistSt) : (s.setHist u x).uchGrp = s.uchGrp := rfl
@[simp] theorem State.setHist_eth (s : State) (u : Nat) (x : HistSt) : (s.setHist u x).eth = s.eth := rfl
@[simp] theorem State.setHist_olc (s : State) (u : Nat) (x : HistSt) : (s.setHist u x).olc = s.olc := rfl
@[simp] theorem State.setHist_dma (s : State) (u : Nat) (x : HistSt) : (s.setHist u x).dma = s.dma := rfl
@[simp] theorem State.setHist_ecc (s : State) (u : Nat) (x : HistSt) : (s.setHist u x).ecc = s.ecc := rfl
@[simp] theorem State.setHist_pwr (s : State) (u : Nat) (x : HistSt) : (s.setHist u x).pwr = s.pwr := rfl
@[simp] theorem State.setHist_tim (s : State) (u : Nat) (x : HistSt) : (s.setHist u x).tim = s.tim := rfl
@[simp] theorem State.setHist_outbox (s : State) (u : Nat) (x : HistSt) : (s.setHist u x).outbox = s.outbox := rfl
@[simp] theorem State.setHist_pending (s : State) (u : Nat) (x : HistSt) : (s.setHist u x).pending = s.pending := rfl

/-! ### State.setPort -/
@[simp] theorem State.setPort_clk (s : State) (p : Nat) (x : Port) : (s.setPort p x).clk = s.clk := rfl
@[simp] theorem State.setPort_regs (s : State) (p : Nat) (x : Port) : (s.setPort p x).regs = s.regs := rfl
@[simp] theorem State.setPort_cel (s : State) (p : Nat) (x : Port) : (s.setPort p x).cel = s.cel := rfl
@[simp] theorem State.setPort_fns (s : State) (p : Nat) (x : Port) : (s.setPort p x).fns = s.fns := rfl
@[simp] theorem State.setPort_sec (s : State) (p : Nat) (x : Port) : (s.setPort p x).sec = s.sec := rfl
@[simp] theorem State.setPort_rebind (s : State) (p : Nat) (x : Port) : (s.setPort p x).rebind = s.rebind := rfl
@[simp] theorem State.setPort_fab (s : State) (p : Nat) (x : Port) : (s.setPort p x).fab = s.fab := rfl
@[simp] theorem State.setPort_bin (s : State) (p : Nat) (x : Port) : (s.setPort p x).bin = s.bin := rfl
@[simp] theorem State.setPort_inj (s : State) (p : Nat) (x : Port) : (s.setPort p x).inj = s.inj := rfl
@[simp] theorem State.setPort_fp (s : State) (p : Nat) (x : Port) : (s.setPort p x).fp = s.fp := rfl
@[simp] theorem State.setPort_mem (s : State) (p : Nat) (x : Port) : (s.setPort p x).mem = s.mem := rfl
@[simp] theorem State.setPort_lanes (s : State) (p : Nat) (x : Port) : (s.setPort p x).lanes = s.lanes := rfl
@[simp] theorem State.setPort_tsk (s : State) (p : Nat) (x : Port) : (s.setPort p x).tsk = s.tsk := rfl
@[simp] theorem State.setPort_frc (s : State) (p : Nat) (x : Port) : (s.setPort p x).frc = s.frc := rfl
@[simp] theorem State.setPort_uch (s : State) (p : Nat) (x : Port) : (s.setPort p x).uch = s.uch := rfl
@[simp] theorem State.setPort_uchGrp (s : State) (p : Nat) (x : Port) : (s.setPort p x).uchGrp = s.uchGrp := rfl
@[simp] theorem State.setPort_eth (s : State) (p : Nat) (x : Port) : (s.setPort p x).eth = s.eth := rfl
@[simp] theorem State.setPort_olc (s : State) (p : Nat) (x : Port) : (s.setPort p x).olc = s.olc := rfl
@[simp] theorem State.setPort_lft (s : State) (p : Nat) (x : Port) : (s.setPort p x).lft = s.lft := rfl
@[simp] theorem State.setPort_dma (s : State) (p : Nat) (x : Port) : (s.setPort p x).dma = s.dma := rfl
@[simp] theorem State.setPort_ecc (s : State) (p : Nat) (x : Port) : (s.setPort p x).ecc = s.ecc := rfl
@[simp] theorem State.setPort_pwr (s : State) (p : Nat) (x : Port) : (s.setPort p x).pwr = s.pwr := rfl
@[simp] theorem State.setPort_tim (s : State) (p : Nat) (x : Port) : (s.setPort p x).tim = s.tim := rfl
@[simp] theorem State.setPort_outbox (s : State) (p : Nat) (x : Port) : (s.setPort p x).outbox = s.outbox := rfl
@[simp] theorem State.setPort_pending (s : State) (p : Nat) (x : Port) : (s.setPort p x).pending = s.pending := rfl

/-! ### State.setEcc -/
@[simp] theorem State.setEcc_clk (s : State) (m n : Nat) : (s.setEcc m n).clk = s.clk := rfl
@[simp] theorem State.setEcc_regs (s : State) (m n : Nat) : (s.setEcc m n).regs = s.regs := rfl
@[simp] theorem State.setEcc_cel (s : State) (m n : Nat) : (s.setEcc m n).cel = s.cel := rfl
@[simp] theorem State.setEcc_fns (s : State) (m n : Nat) : (s.setEcc m n).fns = s.fns := rfl
@[simp] theorem State.setEcc_sec (s : State) (m n : Nat) : (s.setEcc m n).sec = s.sec := rfl
@[simp] theorem State.setEcc_ports (s : State) (m n : Nat) : (s.setEcc m n).ports = s.ports := rfl
@[simp] theorem State.setEcc_rebind (s : State) (m n : Nat) : (s.setEcc m n).rebind = s.rebind := rfl
@[simp] theorem State.setEcc_fab (s : State) (m n : Nat) : (s.setEcc m n).fab = s.fab := rfl
@[simp] theorem State.setEcc_bin (s : State) (m n : Nat) : (s.setEcc m n).bin = s.bin := rfl
@[simp] theorem State.setEcc_inj (s : State) (m n : Nat) : (s.setEcc m n).inj = s.inj := rfl
@[simp] theorem State.setEcc_fp (s : State) (m n : Nat) : (s.setEcc m n).fp = s.fp := rfl
@[simp] theorem State.setEcc_mem (s : State) (m n : Nat) : (s.setEcc m n).mem = s.mem := rfl
@[simp] theorem State.setEcc_lanes (s : State) (m n : Nat) : (s.setEcc m n).lanes = s.lanes := rfl
@[simp] theorem State.setEcc_tsk (s : State) (m n : Nat) : (s.setEcc m n).tsk = s.tsk := rfl
@[simp] theorem State.setEcc_frc (s : State) (m n : Nat) : (s.setEcc m n).frc = s.frc := rfl
@[simp] theorem State.setEcc_uch (s : State) (m n : Nat) : (s.setEcc m n).uch = s.uch := rfl
@[simp] theorem State.setEcc_uchGrp (s : State) (m n : Nat) : (s.setEcc m n).uchGrp = s.uchGrp := rfl
@[simp] theorem State.setEcc_eth (s : State) (m n : Nat) : (s.setEcc m n).eth = s.eth := rfl
@[simp] theorem State.setEcc_olc (s : State) (m n : Nat) : (s.setEcc m n).olc = s.olc := rfl
@[simp] theorem State.setEcc_lft (s : State) (m n : Nat) : (s.setEcc m n).lft = s.lft := rfl
@[simp] theorem State.setEcc_dma (s : State) (m n : Nat) : (s.setEcc m n).dma = s.dma := rfl
@[simp] theorem State.setEcc_pwr (s : State) (m n : Nat) : (s.setEcc m n).pwr = s.pwr := rfl
@[simp] theorem State.setEcc_tim (s : State) (m n : Nat) : (s.setEcc m n).tim = s.tim := rfl
@[simp] theorem State.setEcc_outbox (s : State) (m n : Nat) : (s.setEcc m n).outbox = s.outbox := rfl
@[simp] theorem State.setEcc_pending (s : State) (m n : Nat) : (s.setEcc m n).pending = s.pending := rfl

/-! ### State.setUch -/
@[simp] theorem State.setUch_clk (s : State) (n : Nat) (x : UchSt) : (s.setUch n x).clk = s.clk := rfl
@[simp] theorem State.setUch_regs (s : State) (n : Nat) (x : UchSt) : (s.setUch n x).regs = s.regs := rfl
@[simp] theorem State.setUch_cel (s : State) (n : Nat) (x : UchSt) : (s.setUch n x).cel = s.cel := rfl
@[simp] theorem State.setUch_fns (s : State) (n : Nat) (x : UchSt) : (s.setUch n x).fns = s.fns := rfl
@[simp] theorem State.setUch_sec (s : State) (n : Nat) (x : UchSt) : (s.setUch n x).sec = s.sec := rfl
@[simp] theorem State.setUch_ports (s : State) (n : Nat) (x : UchSt) : (s.setUch n x).ports = s.ports := rfl
@[simp] theorem State.setUch_rebind (s : State) (n : Nat) (x : UchSt) : (s.setUch n x).rebind = s.rebind := rfl
@[simp] theorem State.setUch_fab (s : State) (n : Nat) (x : UchSt) : (s.setUch n x).fab = s.fab := rfl
@[simp] theorem State.setUch_bin (s : State) (n : Nat) (x : UchSt) : (s.setUch n x).bin = s.bin := rfl
@[simp] theorem State.setUch_inj (s : State) (n : Nat) (x : UchSt) : (s.setUch n x).inj = s.inj := rfl
@[simp] theorem State.setUch_fp (s : State) (n : Nat) (x : UchSt) : (s.setUch n x).fp = s.fp := rfl
@[simp] theorem State.setUch_mem (s : State) (n : Nat) (x : UchSt) : (s.setUch n x).mem = s.mem := rfl
@[simp] theorem State.setUch_lanes (s : State) (n : Nat) (x : UchSt) : (s.setUch n x).lanes = s.lanes := rfl
@[simp] theorem State.setUch_tsk (s : State) (n : Nat) (x : UchSt) : (s.setUch n x).tsk = s.tsk := rfl
@[simp] theorem State.setUch_frc (s : State) (n : Nat) (x : UchSt) : (s.setUch n x).frc = s.frc := rfl
@[simp] theorem State.setUch_uchGrp (s : State) (n : Nat) (x : UchSt) : (s.setUch n x).uchGrp = s.uchGrp := rfl
@[simp] theorem State.setUch_eth (s : State) (n : Nat) (x : UchSt) : (s.setUch n x).eth = s.eth := rfl
@[simp] theorem State.setUch_olc (s : State) (n : Nat) (x : UchSt) : (s.setUch n x).olc = s.olc := rfl
@[simp] theorem State.setUch_lft (s : State) (n : Nat) (x : UchSt) : (s.setUch n x).lft = s.lft := rfl
@[simp] theorem State.setUch_dma (s : State) (n : Nat) (x : UchSt) : (s.setUch n x).dma = s.dma := rfl
@[simp] theorem State.setUch_ecc (s : State) (n : Nat) (x : UchSt) : (s.setUch n x).ecc = s.ecc := rfl
@[simp] theorem State.setUch_pwr (s : State) (n : Nat) (x : UchSt) : (s.setUch n x).pwr = s.pwr := rfl
@[simp] theorem State.setUch_tim (s : State) (n : Nat) (x : UchSt) : (s.setUch n x).tim = s.tim := rfl
@[simp] theorem State.setUch_outbox (s : State) (n : Nat) (x : UchSt) : (s.setUch n x).outbox = s.outbox := rfl
@[simp] theorem State.setUch_pending (s : State) (n : Nat) (x : UchSt) : (s.setUch n x).pending = s.pending := rfl

/-! ### State.setUchGroup -/
@[simp] theorem State.setUchGroup_clk (s : State) (g : Nat) (x : UchGrp) : (s.setUchGroup g x).clk = s.clk := rfl
@[simp] theorem State.setUchGroup_regs (s : State) (g : Nat) (x : UchGrp) : (s.setUchGroup g x).regs = s.regs := rfl
@[simp] theorem State.setUchGroup_cel (s : State) (g : Nat) (x : UchGrp) : (s.setUchGroup g x).cel = s.cel := rfl
@[simp] theorem State.setUchGroup_fns (s : State) (g : Nat) (x : UchGrp) : (s.setUchGroup g x).fns = s.fns := rfl
@[simp] theorem State.setUchGroup_sec (s : State) (g : Nat) (x : UchGrp) : (s.setUchGroup g x).sec = s.sec := rfl
@[simp] theorem State.setUchGroup_ports (s : State) (g : Nat) (x : UchGrp) : (s.setUchGroup g x).ports = s.ports := rfl
@[simp] theorem State.setUchGroup_rebind (s : State) (g : Nat) (x : UchGrp) : (s.setUchGroup g x).rebind = s.rebind := rfl
@[simp] theorem State.setUchGroup_fab (s : State) (g : Nat) (x : UchGrp) : (s.setUchGroup g x).fab = s.fab := rfl
@[simp] theorem State.setUchGroup_bin (s : State) (g : Nat) (x : UchGrp) : (s.setUchGroup g x).bin = s.bin := rfl
@[simp] theorem State.setUchGroup_inj (s : State) (g : Nat) (x : UchGrp) : (s.setUchGroup g x).inj = s.inj := rfl
@[simp] theorem State.setUchGroup_fp (s : State) (g : Nat) (x : UchGrp) : (s.setUchGroup g x).fp = s.fp := rfl
@[simp] theorem State.setUchGroup_mem (s : State) (g : Nat) (x : UchGrp) : (s.setUchGroup g x).mem = s.mem := rfl
@[simp] theorem State.setUchGroup_lanes (s : State) (g : Nat) (x : UchGrp) : (s.setUchGroup g x).lanes = s.lanes := rfl
@[simp] theorem State.setUchGroup_tsk (s : State) (g : Nat) (x : UchGrp) : (s.setUchGroup g x).tsk = s.tsk := rfl
@[simp] theorem State.setUchGroup_frc (s : State) (g : Nat) (x : UchGrp) : (s.setUchGroup g x).frc = s.frc := rfl
@[simp] theorem State.setUchGroup_uch (s : State) (g : Nat) (x : UchGrp) : (s.setUchGroup g x).uch = s.uch := rfl
@[simp] theorem State.setUchGroup_eth (s : State) (g : Nat) (x : UchGrp) : (s.setUchGroup g x).eth = s.eth := rfl
@[simp] theorem State.setUchGroup_olc (s : State) (g : Nat) (x : UchGrp) : (s.setUchGroup g x).olc = s.olc := rfl
@[simp] theorem State.setUchGroup_lft (s : State) (g : Nat) (x : UchGrp) : (s.setUchGroup g x).lft = s.lft := rfl
@[simp] theorem State.setUchGroup_dma (s : State) (g : Nat) (x : UchGrp) : (s.setUchGroup g x).dma = s.dma := rfl
@[simp] theorem State.setUchGroup_ecc (s : State) (g : Nat) (x : UchGrp) : (s.setUchGroup g x).ecc = s.ecc := rfl
@[simp] theorem State.setUchGroup_pwr (s : State) (g : Nat) (x : UchGrp) : (s.setUchGroup g x).pwr = s.pwr := rfl
@[simp] theorem State.setUchGroup_tim (s : State) (g : Nat) (x : UchGrp) : (s.setUchGroup g x).tim = s.tim := rfl
@[simp] theorem State.setUchGroup_outbox (s : State) (g : Nat) (x : UchGrp) : (s.setUchGroup g x).outbox = s.outbox := rfl
@[simp] theorem State.setUchGroup_pending (s : State) (g : Nat) (x : UchGrp) : (s.setUchGroup g x).pending = s.pending := rfl

/-! ### State.storeBytes -/
@[simp] theorem State.storeBytes_clk (s : State) (sp a : Nat) (bs : List Byte) : (s.storeBytes sp a bs).clk = s.clk := rfl
@[simp] theorem State.storeBytes_regs (s : State) (sp a : Nat) (bs : List Byte) : (s.storeBytes sp a bs).regs = s.regs := rfl
@[simp] theorem State.storeBytes_cel (s : State) (sp a : Nat) (bs : List Byte) : (s.storeBytes sp a bs).cel = s.cel := rfl
@[simp] theorem State.storeBytes_fns (s : State) (sp a : Nat) (bs : List Byte) : (s.storeBytes sp a bs).fns = s.fns := rfl
@[simp] theorem State.storeBytes_sec (s : State) (sp a : Nat) (bs : List Byte) : (s.storeBytes sp a bs).sec = s.sec := rfl
@[simp] theorem State.storeBytes_ports (s : State) (sp a : Nat) (bs : List Byte) : (s.storeBytes sp a bs).ports = s.ports := rfl
@[simp] theorem State.storeBytes_rebind (s : State) (sp a : Nat) (bs : List Byte) : (s.storeBytes sp a bs).rebind = s.rebind := rfl
@[simp] theorem State.storeBytes_fab (s : State) (sp a : Nat) (bs : List Byte) : (s.storeBytes sp a bs).fab = s.fab := rfl
@[simp] theorem State.storeBytes_bin (s : State) (sp a : Nat) (bs : List Byte) : (s.storeBytes sp a bs).bin = s.bin := rfl
@[simp] theorem State.storeBytes_inj (s : State) (sp a : Nat) (bs : List Byte) : (s.storeBytes sp a bs).inj = s.inj := rfl
@[simp] theorem State.storeBytes_fp (s : State) (sp a : Nat) (bs : List Byte) : (s.storeBytes sp a bs).fp = s.fp := rfl
@[simp] theorem State.storeBytes_lanes (s : State) (sp a : Nat) (bs : List Byte) : (s.storeBytes sp a bs).lanes = s.lanes := rfl
@[simp] theorem State.storeBytes_tsk (s : State) (sp a : Nat) (bs : List Byte) : (s.storeBytes sp a bs).tsk = s.tsk := rfl
@[simp] theorem State.storeBytes_frc (s : State) (sp a : Nat) (bs : List Byte) : (s.storeBytes sp a bs).frc = s.frc := rfl
@[simp] theorem State.storeBytes_uch (s : State) (sp a : Nat) (bs : List Byte) : (s.storeBytes sp a bs).uch = s.uch := rfl
@[simp] theorem State.storeBytes_uchGrp (s : State) (sp a : Nat) (bs : List Byte) : (s.storeBytes sp a bs).uchGrp = s.uchGrp := rfl
@[simp] theorem State.storeBytes_eth (s : State) (sp a : Nat) (bs : List Byte) : (s.storeBytes sp a bs).eth = s.eth := rfl
@[simp] theorem State.storeBytes_olc (s : State) (sp a : Nat) (bs : List Byte) : (s.storeBytes sp a bs).olc = s.olc := rfl
@[simp] theorem State.storeBytes_lft (s : State) (sp a : Nat) (bs : List Byte) : (s.storeBytes sp a bs).lft = s.lft := rfl
@[simp] theorem State.storeBytes_dma (s : State) (sp a : Nat) (bs : List Byte) : (s.storeBytes sp a bs).dma = s.dma := rfl
@[simp] theorem State.storeBytes_ecc (s : State) (sp a : Nat) (bs : List Byte) : (s.storeBytes sp a bs).ecc = s.ecc := rfl
@[simp] theorem State.storeBytes_pwr (s : State) (sp a : Nat) (bs : List Byte) : (s.storeBytes sp a bs).pwr = s.pwr := rfl
@[simp] theorem State.storeBytes_tim (s : State) (sp a : Nat) (bs : List Byte) : (s.storeBytes sp a bs).tim = s.tim := rfl
@[simp] theorem State.storeBytes_outbox (s : State) (sp a : Nat) (bs : List Byte) : (s.storeBytes sp a bs).outbox = s.outbox := rfl
@[simp] theorem State.storeBytes_pending (s : State) (sp a : Nat) (bs : List Byte) : (s.storeBytes sp a bs).pending = s.pending := rfl

/-! ### State.zeroSpace -/
@[simp] theorem State.zeroSpace_clk (s : State) (sp : Nat) : (s.zeroSpace sp).clk = s.clk := rfl
@[simp] theorem State.zeroSpace_regs (s : State) (sp : Nat) : (s.zeroSpace sp).regs = s.regs := rfl
@[simp] theorem State.zeroSpace_cel (s : State) (sp : Nat) : (s.zeroSpace sp).cel = s.cel := rfl
@[simp] theorem State.zeroSpace_fns (s : State) (sp : Nat) : (s.zeroSpace sp).fns = s.fns := rfl
@[simp] theorem State.zeroSpace_sec (s : State) (sp : Nat) : (s.zeroSpace sp).sec = s.sec := rfl
@[simp] theorem State.zeroSpace_ports (s : State) (sp : Nat) : (s.zeroSpace sp).ports = s.ports := rfl
@[simp] theorem State.zeroSpace_rebind (s : State) (sp : Nat) : (s.zeroSpace sp).rebind = s.rebind := rfl
@[simp] theorem State.zeroSpace_fab (s : State) (sp : Nat) : (s.zeroSpace sp).fab = s.fab := rfl
@[simp] theorem State.zeroSpace_bin (s : State) (sp : Nat) : (s.zeroSpace sp).bin = s.bin := rfl
@[simp] theorem State.zeroSpace_inj (s : State) (sp : Nat) : (s.zeroSpace sp).inj = s.inj := rfl
@[simp] theorem State.zeroSpace_fp (s : State) (sp : Nat) : (s.zeroSpace sp).fp = s.fp := rfl
@[simp] theorem State.zeroSpace_lanes (s : State) (sp : Nat) : (s.zeroSpace sp).lanes = s.lanes := rfl
@[simp] theorem State.zeroSpace_tsk (s : State) (sp : Nat) : (s.zeroSpace sp).tsk = s.tsk := rfl
@[simp] theorem State.zeroSpace_frc (s : State) (sp : Nat) : (s.zeroSpace sp).frc = s.frc := rfl
@[simp] theorem State.zeroSpace_uch (s : State) (sp : Nat) : (s.zeroSpace sp).uch = s.uch := rfl
@[simp] theorem State.zeroSpace_uchGrp (s : State) (sp : Nat) : (s.zeroSpace sp).uchGrp = s.uchGrp := rfl
@[simp] theorem State.zeroSpace_eth (s : State) (sp : Nat) : (s.zeroSpace sp).eth = s.eth := rfl
@[simp] theorem State.zeroSpace_olc (s : State) (sp : Nat) : (s.zeroSpace sp).olc = s.olc := rfl
@[simp] theorem State.zeroSpace_lft (s : State) (sp : Nat) : (s.zeroSpace sp).lft = s.lft := rfl
@[simp] theorem State.zeroSpace_dma (s : State) (sp : Nat) : (s.zeroSpace sp).dma = s.dma := rfl
@[simp] theorem State.zeroSpace_ecc (s : State) (sp : Nat) : (s.zeroSpace sp).ecc = s.ecc := rfl
@[simp] theorem State.zeroSpace_pwr (s : State) (sp : Nat) : (s.zeroSpace sp).pwr = s.pwr := rfl
@[simp] theorem State.zeroSpace_tim (s : State) (sp : Nat) : (s.zeroSpace sp).tim = s.tim := rfl
@[simp] theorem State.zeroSpace_outbox (s : State) (sp : Nat) : (s.zeroSpace sp).outbox = s.outbox := rfl
@[simp] theorem State.zeroSpace_pending (s : State) (sp : Nat) : (s.zeroSpace sp).pending = s.pending := rfl

/-! ### State.pushFront -/
@[simp] theorem State.pushFront_clk (s : State) (c : Instr) : (s.pushFront c).clk = s.clk := rfl
@[simp] theorem State.pushFront_regs (s : State) (c : Instr) : (s.pushFront c).regs = s.regs := rfl
@[simp] theorem State.pushFront_cel (s : State) (c : Instr) : (s.pushFront c).cel = s.cel := rfl
@[simp] theorem State.pushFront_fns (s : State) (c : Instr) : (s.pushFront c).fns = s.fns := rfl
@[simp] theorem State.pushFront_sec (s : State) (c : Instr) : (s.pushFront c).sec = s.sec := rfl
@[simp] theorem State.pushFront_ports (s : State) (c : Instr) : (s.pushFront c).ports = s.ports := rfl
@[simp] theorem State.pushFront_rebind (s : State) (c : Instr) : (s.pushFront c).rebind = s.rebind := rfl
@[simp] theorem State.pushFront_fab (s : State) (c : Instr) : (s.pushFront c).fab = s.fab := rfl
@[simp] theorem State.pushFront_bin (s : State) (c : Instr) : (s.pushFront c).bin = s.bin := rfl
@[simp] theorem State.pushFront_inj (s : State) (c : Instr) : (s.pushFront c).inj = s.inj := rfl
@[simp] theorem State.pushFront_fp (s : State) (c : Instr) : (s.pushFront c).fp = s.fp := rfl
@[simp] theorem State.pushFront_mem (s : State) (c : Instr) : (s.pushFront c).mem = s.mem := rfl
@[simp] theorem State.pushFront_lanes (s : State) (c : Instr) : (s.pushFront c).lanes = s.lanes := rfl
@[simp] theorem State.pushFront_tsk (s : State) (c : Instr) : (s.pushFront c).tsk = s.tsk := rfl
@[simp] theorem State.pushFront_frc (s : State) (c : Instr) : (s.pushFront c).frc = s.frc := rfl
@[simp] theorem State.pushFront_uch (s : State) (c : Instr) : (s.pushFront c).uch = s.uch := rfl
@[simp] theorem State.pushFront_uchGrp (s : State) (c : Instr) : (s.pushFront c).uchGrp = s.uchGrp := rfl
@[simp] theorem State.pushFront_eth (s : State) (c : Instr) : (s.pushFront c).eth = s.eth := rfl
@[simp] theorem State.pushFront_olc (s : State) (c : Instr) : (s.pushFront c).olc = s.olc := rfl
@[simp] theorem State.pushFront_lft (s : State) (c : Instr) : (s.pushFront c).lft = s.lft := rfl
@[simp] theorem State.pushFront_dma (s : State) (c : Instr) : (s.pushFront c).dma = s.dma := rfl
@[simp] theorem State.pushFront_ecc (s : State) (c : Instr) : (s.pushFront c).ecc = s.ecc := rfl
@[simp] theorem State.pushFront_pwr (s : State) (c : Instr) : (s.pushFront c).pwr = s.pwr := rfl
@[simp] theorem State.pushFront_tim (s : State) (c : Instr) : (s.pushFront c).tim = s.tim := rfl
@[simp] theorem State.pushFront_outbox (s : State) (c : Instr) : (s.pushFront c).outbox = s.outbox := rfl

/-! ### State.msix -/
theorem State.msix_eq (s : State) (pf v : Nat) :
    ∃ x0 x1, s.msix pf v = { s with fns := x0, outbox := x1 } := by
  simp only [State.msix]
  (repeat' split) <;> exact ⟨_, _, rfl⟩
@[simp] theorem State.msix_clk (s : State) (pf v : Nat) : (s.msix pf v).clk = s.clk := by
  obtain ⟨_, _, h⟩ := s.msix_eq pf v; rw [h]
@[simp] theorem State.msix_regs (s : State) (pf v : Nat) : (s.msix pf v).regs = s.regs := by
  obtain ⟨_, _, h⟩ := s.msix_eq pf v; rw [h]
@[simp] theorem State.msix_cel (s : State) (pf v : Nat) : (s.msix pf v).cel = s.cel := by
  obtain ⟨_, _, h⟩ := s.msix_eq pf v; rw [h]
@[simp] theorem State.msix_sec (s : State) (pf v : Nat) : (s.msix pf v).sec = s.sec := by
  obtain ⟨_, _, h⟩ := s.msix_eq pf v; rw [h]
@[simp] theorem State.msix_ports (s : State) (pf v : Nat) : (s.msix pf v).ports = s.ports := by
  obtain ⟨_, _, h⟩ := s.msix_eq pf v; rw [h]
@[simp] theorem State.msix_rebind (s : State) (pf v : Nat) : (s.msix pf v).rebind = s.rebind := by
  obtain ⟨_, _, h⟩ := s.msix_eq pf v; rw [h]
@[simp] theorem State.msix_fab (s : State) (pf v : Nat) : (s.msix pf v).fab = s.fab := by
  obtain ⟨_, _, h⟩ := s.msix_eq pf v; rw [h]
@[simp] theorem State.msix_bin (s : State) (pf v : Nat) : (s.msix pf v).bin = s.bin := by
  obtain ⟨_, _, h⟩ := s.msix_eq pf v; rw [h]
@[simp] theorem State.msix_inj (s : State) (pf v : Nat) : (s.msix pf v).inj = s.inj := by
  obtain ⟨_, _, h⟩ := s.msix_eq pf v; rw [h]
@[simp] theorem State.msix_fp (s : State) (pf v : Nat) : (s.msix pf v).fp = s.fp := by
  obtain ⟨_, _, h⟩ := s.msix_eq pf v; rw [h]
@[simp] theorem State.msix_mem (s : State) (pf v : Nat) : (s.msix pf v).mem = s.mem := by
  obtain ⟨_, _, h⟩ := s.msix_eq pf v; rw [h]
@[simp] theorem State.msix_lanes (s : State) (pf v : Nat) : (s.msix pf v).lanes = s.lanes := by
  obtain ⟨_, _, h⟩ := s.msix_eq pf v; rw [h]
@[simp] theorem State.msix_tsk (s : State) (pf v : Nat) : (s.msix pf v).tsk = s.tsk := by
  obtain ⟨_, _, h⟩ := s.msix_eq pf v; rw [h]
@[simp] theorem State.msix_frc (s : State) (pf v : Nat) : (s.msix pf v).frc = s.frc := by
  obtain ⟨_, _, h⟩ := s.msix_eq pf v; rw [h]
@[simp] theorem State.msix_uch (s : State) (pf v : Nat) : (s.msix pf v).uch = s.uch := by
  obtain ⟨_, _, h⟩ := s.msix_eq pf v; rw [h]
@[simp] theorem State.msix_uchGrp (s : State) (pf v : Nat) : (s.msix pf v).uchGrp = s.uchGrp := by
  obtain ⟨_, _, h⟩ := s.msix_eq pf v; rw [h]
@[simp] theorem State.msix_eth (s : State) (pf v : Nat) : (s.msix pf v).eth = s.eth := by
  obtain ⟨_, _, h⟩ := s.msix_eq pf v; rw [h]
@[simp] theorem State.msix_olc (s : State) (pf v : Nat) : (s.msix pf v).olc = s.olc := by
  obtain ⟨_, _, h⟩ := s.msix_eq pf v; rw [h]
@[simp] theorem State.msix_lft (s : State) (pf v : Nat) : (s.msix pf v).lft = s.lft := by
  obtain ⟨_, _, h⟩ := s.msix_eq pf v; rw [h]
@[simp] theorem State.msix_dma (s : State) (pf v : Nat) : (s.msix pf v).dma = s.dma := by
  obtain ⟨_, _, h⟩ := s.msix_eq pf v; rw [h]
@[simp] theorem State.msix_ecc (s : State) (pf v : Nat) : (s.msix pf v).ecc = s.ecc := by
  obtain ⟨_, _, h⟩ := s.msix_eq pf v; rw [h]
@[simp] theorem State.msix_pwr (s : State) (pf v : Nat) : (s.msix pf v).pwr = s.pwr := by
  obtain ⟨_, _, h⟩ := s.msix_eq pf v; rw [h]
@[simp] theorem State.msix_tim (s : State) (pf v : Nat) : (s.msix pf v).tim = s.tim := by
  obtain ⟨_, _, h⟩ := s.msix_eq pf v; rw [h]
@[simp] theorem State.msix_pending (s : State) (pf v : Nat) : (s.msix pf v).pending = s.pending := by
  obtain ⟨_, _, h⟩ := s.msix_eq pf v; rw [h]

/-! ### State.raise -/
theorem State.raise_eq (s : State) (f : Field) :
    ∃ x0 x1 x2, s.raise f = { s with regs := x0, fns := x1, outbox := x2 } := by
  simp only [State.raise]
  split
  · exact ⟨_, _, _, rfl⟩
  · split
    · obtain ⟨_, _, h⟩ := (s.set f 1).msix_eq 0 (vectorOf f.addr f.lo)
      obtain ⟨_, _, g⟩ := ((s.set f 1).msix 0 (vectorOf f.addr f.lo)).msix_eq 1 (vectorOf f.addr f.lo)
      rw [g, h]; exact ⟨_, _, _, rfl⟩
    · exact ⟨_, _, _, rfl⟩
@[simp] theorem State.raise_clk (s : State) (f : Field) : (s.raise f).clk = s.clk := by
  obtain ⟨_, _, _, h⟩ := s.raise_eq f; rw [h]
@[simp] theorem State.raise_cel (s : State) (f : Field) : (s.raise f).cel = s.cel := by
  obtain ⟨_, _, _, h⟩ := s.raise_eq f; rw [h]
@[simp] theorem State.raise_sec (s : State) (f : Field) : (s.raise f).sec = s.sec := by
  obtain ⟨_, _, _, h⟩ := s.raise_eq f; rw [h]
@[simp] theorem State.raise_ports (s : State) (f : Field) : (s.raise f).ports = s.ports := by
  obtain ⟨_, _, _, h⟩ := s.raise_eq f; rw [h]
@[simp] theorem State.raise_rebind (s : State) (f : Field) : (s.raise f).rebind = s.rebind := by
  obtain ⟨_, _, _, h⟩ := s.raise_eq f; rw [h]
@[simp] theorem State.raise_fab (s : State) (f : Field) : (s.raise f).fab = s.fab := by
  obtain ⟨_, _, _, h⟩ := s.raise_eq f; rw [h]
@[simp] theorem State.raise_bin (s : State) (f : Field) : (s.raise f).bin = s.bin := by
  obtain ⟨_, _, _, h⟩ := s.raise_eq f; rw [h]
@[simp] theorem State.raise_inj (s : State) (f : Field) : (s.raise f).inj = s.inj := by
  obtain ⟨_, _, _, h⟩ := s.raise_eq f; rw [h]
@[simp] theorem State.raise_fp (s : State) (f : Field) : (s.raise f).fp = s.fp := by
  obtain ⟨_, _, _, h⟩ := s.raise_eq f; rw [h]
@[simp] theorem State.raise_mem (s : State) (f : Field) : (s.raise f).mem = s.mem := by
  obtain ⟨_, _, _, h⟩ := s.raise_eq f; rw [h]
@[simp] theorem State.raise_lanes (s : State) (f : Field) : (s.raise f).lanes = s.lanes := by
  obtain ⟨_, _, _, h⟩ := s.raise_eq f; rw [h]
@[simp] theorem State.raise_tsk (s : State) (f : Field) : (s.raise f).tsk = s.tsk := by
  obtain ⟨_, _, _, h⟩ := s.raise_eq f; rw [h]
@[simp] theorem State.raise_frc (s : State) (f : Field) : (s.raise f).frc = s.frc := by
  obtain ⟨_, _, _, h⟩ := s.raise_eq f; rw [h]
@[simp] theorem State.raise_uch (s : State) (f : Field) : (s.raise f).uch = s.uch := by
  obtain ⟨_, _, _, h⟩ := s.raise_eq f; rw [h]
@[simp] theorem State.raise_uchGrp (s : State) (f : Field) : (s.raise f).uchGrp = s.uchGrp := by
  obtain ⟨_, _, _, h⟩ := s.raise_eq f; rw [h]
@[simp] theorem State.raise_eth (s : State) (f : Field) : (s.raise f).eth = s.eth := by
  obtain ⟨_, _, _, h⟩ := s.raise_eq f; rw [h]
@[simp] theorem State.raise_olc (s : State) (f : Field) : (s.raise f).olc = s.olc := by
  obtain ⟨_, _, _, h⟩ := s.raise_eq f; rw [h]
@[simp] theorem State.raise_lft (s : State) (f : Field) : (s.raise f).lft = s.lft := by
  obtain ⟨_, _, _, h⟩ := s.raise_eq f; rw [h]
@[simp] theorem State.raise_dma (s : State) (f : Field) : (s.raise f).dma = s.dma := by
  obtain ⟨_, _, _, h⟩ := s.raise_eq f; rw [h]
@[simp] theorem State.raise_ecc (s : State) (f : Field) : (s.raise f).ecc = s.ecc := by
  obtain ⟨_, _, _, h⟩ := s.raise_eq f; rw [h]
@[simp] theorem State.raise_pwr (s : State) (f : Field) : (s.raise f).pwr = s.pwr := by
  obtain ⟨_, _, _, h⟩ := s.raise_eq f; rw [h]
@[simp] theorem State.raise_tim (s : State) (f : Field) : (s.raise f).tim = s.tim := by
  obtain ⟨_, _, _, h⟩ := s.raise_eq f; rw [h]
@[simp] theorem State.raise_pending (s : State) (f : Field) : (s.raise f).pending = s.pending := by
  obtain ⟨_, _, _, h⟩ := s.raise_eq f; rw [h]

theorem State.bump_raise_eq (s : State) (f g : Field) : ∃ x0 x1 x2, (s.bump f).raise g = { s with regs := x0, fns := x1, outbox := x2 } := by
  obtain ⟨_, _, _, h⟩ := (s.bump f).raise_eq g
  rw [h]; exact ⟨_, _, _, rfl⟩
theorem State.full_eq (s : State) (c : CelSt) (f g : Field) :
    ∃ x0 x1 x2, (({ s with cel := c } : State).bump f).raise g = { s with cel := c, regs := x0, fns := x1, outbox := x2 } :=
  State.bump_raise_eq { s with cel := c } f g

/-! ### State.enqueue -/
theorem State.enqueue_eq (s : State) (e : Raised) :
    ∃ x0 x1 x2 x3, s.enqueue e = { s with cel := x0, regs := x1, fns := x2, outbox := x3 } := by
  unfold State.enqueue
  by_cases h : s.pwr.celStop = true
  · rw [if_pos h]; exact ⟨_, _, _, _, rfl⟩
  · rw [if_neg h]
    by_cases g : s.cel.queue.length < celQueueMax
    · rw [if_pos g]; exact ⟨_, _, _, _, rfl⟩
    · rw [if_neg g]
      obtain ⟨x, y, z, k⟩ := s.full_eq _ F.CEL_DROP.QUEUE F.CEL_EVT.DROP
      exact ⟨_, x, y, z, k⟩
@[simp] theorem State.enqueue_clk (s : State) (e : Raised) : (s.enqueue e).clk = s.clk := by
  obtain ⟨_, _, _, _, h⟩ := s.enqueue_eq e; rw [h]
@[simp] theorem State.enqueue_sec (s : State) (e : Raised) : (s.enqueue e).sec = s.sec := by
  obtain ⟨_, _, _, _, h⟩ := s.enqueue_eq e; rw [h]
@[simp] theorem State.enqueue_ports (s : State) (e : Raised) : (s.enqueue e).ports = s.ports := by
  obtain ⟨_, _, _, _, h⟩ := s.enqueue_eq e; rw [h]
@[simp] theorem State.enqueue_rebind (s : State) (e : Raised) : (s.enqueue e).rebind = s.rebind := by
  obtain ⟨_, _, _, _, h⟩ := s.enqueue_eq e; rw [h]
@[simp] theorem State.enqueue_fab (s : State) (e : Raised) : (s.enqueue e).fab = s.fab := by
  obtain ⟨_, _, _, _, h⟩ := s.enqueue_eq e; rw [h]
@[simp] theorem State.enqueue_bin (s : State) (e : Raised) : (s.enqueue e).bin = s.bin := by
  obtain ⟨_, _, _, _, h⟩ := s.enqueue_eq e; rw [h]
@[simp] theorem State.enqueue_inj (s : State) (e : Raised) : (s.enqueue e).inj = s.inj := by
  obtain ⟨_, _, _, _, h⟩ := s.enqueue_eq e; rw [h]
@[simp] theorem State.enqueue_fp (s : State) (e : Raised) : (s.enqueue e).fp = s.fp := by
  obtain ⟨_, _, _, _, h⟩ := s.enqueue_eq e; rw [h]
@[simp] theorem State.enqueue_mem (s : State) (e : Raised) : (s.enqueue e).mem = s.mem := by
  obtain ⟨_, _, _, _, h⟩ := s.enqueue_eq e; rw [h]
@[simp] theorem State.enqueue_lanes (s : State) (e : Raised) : (s.enqueue e).lanes = s.lanes := by
  obtain ⟨_, _, _, _, h⟩ := s.enqueue_eq e; rw [h]
@[simp] theorem State.enqueue_tsk (s : State) (e : Raised) : (s.enqueue e).tsk = s.tsk := by
  obtain ⟨_, _, _, _, h⟩ := s.enqueue_eq e; rw [h]
@[simp] theorem State.enqueue_frc (s : State) (e : Raised) : (s.enqueue e).frc = s.frc := by
  obtain ⟨_, _, _, _, h⟩ := s.enqueue_eq e; rw [h]
@[simp] theorem State.enqueue_uch (s : State) (e : Raised) : (s.enqueue e).uch = s.uch := by
  obtain ⟨_, _, _, _, h⟩ := s.enqueue_eq e; rw [h]
@[simp] theorem State.enqueue_uchGrp (s : State) (e : Raised) : (s.enqueue e).uchGrp = s.uchGrp := by
  obtain ⟨_, _, _, _, h⟩ := s.enqueue_eq e; rw [h]
@[simp] theorem State.enqueue_eth (s : State) (e : Raised) : (s.enqueue e).eth = s.eth := by
  obtain ⟨_, _, _, _, h⟩ := s.enqueue_eq e; rw [h]
@[simp] theorem State.enqueue_olc (s : State) (e : Raised) : (s.enqueue e).olc = s.olc := by
  obtain ⟨_, _, _, _, h⟩ := s.enqueue_eq e; rw [h]
@[simp] theorem State.enqueue_lft (s : State) (e : Raised) : (s.enqueue e).lft = s.lft := by
  obtain ⟨_, _, _, _, h⟩ := s.enqueue_eq e; rw [h]
@[simp] theorem State.enqueue_dma (s : State) (e : Raised) : (s.enqueue e).dma = s.dma := by
  obtain ⟨_, _, _, _, h⟩ := s.enqueue_eq e; rw [h]
@[simp] theorem State.enqueue_ecc (s : State) (e : Raised) : (s.enqueue e).ecc = s.ecc := by
  obtain ⟨_, _, _, _, h⟩ := s.enqueue_eq e; rw [h]
@[simp] theorem State.enqueue_pwr (s : State) (e : Raised) : (s.enqueue e).pwr = s.pwr := by
  obtain ⟨_, _, _, _, h⟩ := s.enqueue_eq e; rw [h]
@[simp] theorem State.enqueue_tim (s : State) (e : Raised) : (s.enqueue e).tim = s.tim := by
  obtain ⟨_, _, _, _, h⟩ := s.enqueue_eq e; rw [h]
@[simp] theorem State.enqueue_pending (s : State) (e : Raised) : (s.enqueue e).pending = s.pending := by
  obtain ⟨_, _, _, _, h⟩ := s.enqueue_eq e; rw [h]

/-! ### State.logFull -/
@[simp] theorem State.logFull_clk (s : State) (c : EvCode) (v k : Nat) (d : List Byte) (t : Bool) : (s.logFull c v k d t).clk = s.clk := State.enqueue_clk ..
@[simp] theorem State.logFull_sec (s : State) (c : EvCode) (v k : Nat) (d : List Byte) (t : Bool) : (s.logFull c v k d t).sec = s.sec := State.enqueue_sec ..
@[simp] theorem State.logFull_ports (s : State) (c : EvCode) (v k : Nat) (d : List Byte) (t : Bool) : (s.logFull c v k d t).ports = s.ports := State.enqueue_ports ..
@[simp] theorem State.logFull_rebind (s : State) (c : EvCode) (v k : Nat) (d : List Byte) (t : Bool) : (s.logFull c v k d t).rebind = s.rebind := State.enqueue_rebind ..
@[simp] theorem State.logFull_fab (s : State) (c : EvCode) (v k : Nat) (d : List Byte) (t : Bool) : (s.logFull c v k d t).fab = s.fab := State.enqueue_fab ..
@[simp] theorem State.logFull_bin (s : State) (c : EvCode) (v k : Nat) (d : List Byte) (t : Bool) : (s.logFull c v k d t).bin = s.bin := State.enqueue_bin ..
@[simp] theorem State.logFull_inj (s : State) (c : EvCode) (v k : Nat) (d : List Byte) (t : Bool) : (s.logFull c v k d t).inj = s.inj := State.enqueue_inj ..
@[simp] theorem State.logFull_fp (s : State) (c : EvCode) (v k : Nat) (d : List Byte) (t : Bool) : (s.logFull c v k d t).fp = s.fp := State.enqueue_fp ..
@[simp] theorem State.logFull_mem (s : State) (c : EvCode) (v k : Nat) (d : List Byte) (t : Bool) : (s.logFull c v k d t).mem = s.mem := State.enqueue_mem ..
@[simp] theorem State.logFull_lanes (s : State) (c : EvCode) (v k : Nat) (d : List Byte) (t : Bool) : (s.logFull c v k d t).lanes = s.lanes := State.enqueue_lanes ..
@[simp] theorem State.logFull_tsk (s : State) (c : EvCode) (v k : Nat) (d : List Byte) (t : Bool) : (s.logFull c v k d t).tsk = s.tsk := State.enqueue_tsk ..
@[simp] theorem State.logFull_frc (s : State) (c : EvCode) (v k : Nat) (d : List Byte) (t : Bool) : (s.logFull c v k d t).frc = s.frc := State.enqueue_frc ..
@[simp] theorem State.logFull_uch (s : State) (c : EvCode) (v k : Nat) (d : List Byte) (t : Bool) : (s.logFull c v k d t).uch = s.uch := State.enqueue_uch ..
@[simp] theorem State.logFull_uchGrp (s : State) (c : EvCode) (v k : Nat) (d : List Byte) (t : Bool) : (s.logFull c v k d t).uchGrp = s.uchGrp := State.enqueue_uchGrp ..
@[simp] theorem State.logFull_eth (s : State) (c : EvCode) (v k : Nat) (d : List Byte) (t : Bool) : (s.logFull c v k d t).eth = s.eth := State.enqueue_eth ..
@[simp] theorem State.logFull_olc (s : State) (c : EvCode) (v k : Nat) (d : List Byte) (t : Bool) : (s.logFull c v k d t).olc = s.olc := State.enqueue_olc ..
@[simp] theorem State.logFull_lft (s : State) (c : EvCode) (v k : Nat) (d : List Byte) (t : Bool) : (s.logFull c v k d t).lft = s.lft := State.enqueue_lft ..
@[simp] theorem State.logFull_dma (s : State) (c : EvCode) (v k : Nat) (d : List Byte) (t : Bool) : (s.logFull c v k d t).dma = s.dma := State.enqueue_dma ..
@[simp] theorem State.logFull_ecc (s : State) (c : EvCode) (v k : Nat) (d : List Byte) (t : Bool) : (s.logFull c v k d t).ecc = s.ecc := State.enqueue_ecc ..
@[simp] theorem State.logFull_pwr (s : State) (c : EvCode) (v k : Nat) (d : List Byte) (t : Bool) : (s.logFull c v k d t).pwr = s.pwr := State.enqueue_pwr ..
@[simp] theorem State.logFull_tim (s : State) (c : EvCode) (v k : Nat) (d : List Byte) (t : Bool) : (s.logFull c v k d t).tim = s.tim := State.enqueue_tim ..
@[simp] theorem State.logFull_pending (s : State) (c : EvCode) (v k : Nat) (d : List Byte) (t : Bool) : (s.logFull c v k d t).pending = s.pending := State.enqueue_pending ..

/-! ### State.logAt -/
@[simp] theorem State.logAt_clk (s : State) (c : EvCode) (v k : Nat) (d : List Byte) : (s.logAt c v k d).clk = s.clk := State.logFull_clk ..
@[simp] theorem State.logAt_sec (s : State) (c : EvCode) (v k : Nat) (d : List Byte) : (s.logAt c v k d).sec = s.sec := State.logFull_sec ..
@[simp] theorem State.logAt_ports (s : State) (c : EvCode) (v k : Nat) (d : List Byte) : (s.logAt c v k d).ports = s.ports := State.logFull_ports ..
@[simp] theorem State.logAt_rebind (s : State) (c : EvCode) (v k : Nat) (d : List Byte) : (s.logAt c v k d).rebind = s.rebind := State.logFull_rebind ..
@[simp] theorem State.logAt_fab (s : State) (c : EvCode) (v k : Nat) (d : List Byte) : (s.logAt c v k d).fab = s.fab := State.logFull_fab ..
@[simp] theorem State.logAt_bin (s : State) (c : EvCode) (v k : Nat) (d : List Byte) : (s.logAt c v k d).bin = s.bin := State.logFull_bin ..
@[simp] theorem State.logAt_inj (s : State) (c : EvCode) (v k : Nat) (d : List Byte) : (s.logAt c v k d).inj = s.inj := State.logFull_inj ..
@[simp] theorem State.logAt_fp (s : State) (c : EvCode) (v k : Nat) (d : List Byte) : (s.logAt c v k d).fp = s.fp := State.logFull_fp ..
@[simp] theorem State.logAt_mem (s : State) (c : EvCode) (v k : Nat) (d : List Byte) : (s.logAt c v k d).mem = s.mem := State.logFull_mem ..
@[simp] theorem State.logAt_lanes (s : State) (c : EvCode) (v k : Nat) (d : List Byte) : (s.logAt c v k d).lanes = s.lanes := State.logFull_lanes ..
@[simp] theorem State.logAt_tsk (s : State) (c : EvCode) (v k : Nat) (d : List Byte) : (s.logAt c v k d).tsk = s.tsk := State.logFull_tsk ..
@[simp] theorem State.logAt_frc (s : State) (c : EvCode) (v k : Nat) (d : List Byte) : (s.logAt c v k d).frc = s.frc := State.logFull_frc ..
@[simp] theorem State.logAt_uch (s : State) (c : EvCode) (v k : Nat) (d : List Byte) : (s.logAt c v k d).uch = s.uch := State.logFull_uch ..
@[simp] theorem State.logAt_uchGrp (s : State) (c : EvCode) (v k : Nat) (d : List Byte) : (s.logAt c v k d).uchGrp = s.uchGrp := State.logFull_uchGrp ..
@[simp] theorem State.logAt_eth (s : State) (c : EvCode) (v k : Nat) (d : List Byte) : (s.logAt c v k d).eth = s.eth := State.logFull_eth ..
@[simp] theorem State.logAt_olc (s : State) (c : EvCode) (v k : Nat) (d : List Byte) : (s.logAt c v k d).olc = s.olc := State.logFull_olc ..
@[simp] theorem State.logAt_lft (s : State) (c : EvCode) (v k : Nat) (d : List Byte) : (s.logAt c v k d).lft = s.lft := State.logFull_lft ..
@[simp] theorem State.logAt_dma (s : State) (c : EvCode) (v k : Nat) (d : List Byte) : (s.logAt c v k d).dma = s.dma := State.logFull_dma ..
@[simp] theorem State.logAt_ecc (s : State) (c : EvCode) (v k : Nat) (d : List Byte) : (s.logAt c v k d).ecc = s.ecc := State.logFull_ecc ..
@[simp] theorem State.logAt_pwr (s : State) (c : EvCode) (v k : Nat) (d : List Byte) : (s.logAt c v k d).pwr = s.pwr := State.logFull_pwr ..
@[simp] theorem State.logAt_tim (s : State) (c : EvCode) (v k : Nat) (d : List Byte) : (s.logAt c v k d).tim = s.tim := State.logFull_tim ..
@[simp] theorem State.logAt_pending (s : State) (c : EvCode) (v k : Nat) (d : List Byte) : (s.logAt c v k d).pending = s.pending := State.logFull_pending ..

/-! ### State.log -/
@[simp] theorem State.log_clk (s : State) (c v : Nat) (d : List Byte) : (s.log c v d).clk = s.clk := State.logAt_clk ..
@[simp] theorem State.log_sec (s : State) (c v : Nat) (d : List Byte) : (s.log c v d).sec = s.sec := State.logAt_sec ..
@[simp] theorem State.log_ports (s : State) (c v : Nat) (d : List Byte) : (s.log c v d).ports = s.ports := State.logAt_ports ..
@[simp] theorem State.log_rebind (s : State) (c v : Nat) (d : List Byte) : (s.log c v d).rebind = s.rebind := State.logAt_rebind ..
@[simp] theorem State.log_fab (s : State) (c v : Nat) (d : List Byte) : (s.log c v d).fab = s.fab := State.logAt_fab ..
@[simp] theorem State.log_bin (s : State) (c v : Nat) (d : List Byte) : (s.log c v d).bin = s.bin := State.logAt_bin ..
@[simp] theorem State.log_inj (s : State) (c v : Nat) (d : List Byte) : (s.log c v d).inj = s.inj := State.logAt_inj ..
@[simp] theorem State.log_fp (s : State) (c v : Nat) (d : List Byte) : (s.log c v d).fp = s.fp := State.logAt_fp ..
@[simp] theorem State.log_mem (s : State) (c v : Nat) (d : List Byte) : (s.log c v d).mem = s.mem := State.logAt_mem ..
@[simp] theorem State.log_lanes (s : State) (c v : Nat) (d : List Byte) : (s.log c v d).lanes = s.lanes := State.logAt_lanes ..
@[simp] theorem State.log_tsk (s : State) (c v : Nat) (d : List Byte) : (s.log c v d).tsk = s.tsk := State.logAt_tsk ..
@[simp] theorem State.log_frc (s : State) (c v : Nat) (d : List Byte) : (s.log c v d).frc = s.frc := State.logAt_frc ..
@[simp] theorem State.log_uch (s : State) (c v : Nat) (d : List Byte) : (s.log c v d).uch = s.uch := State.logAt_uch ..
@[simp] theorem State.log_uchGrp (s : State) (c v : Nat) (d : List Byte) : (s.log c v d).uchGrp = s.uchGrp := State.logAt_uchGrp ..
@[simp] theorem State.log_eth (s : State) (c v : Nat) (d : List Byte) : (s.log c v d).eth = s.eth := State.logAt_eth ..
@[simp] theorem State.log_olc (s : State) (c v : Nat) (d : List Byte) : (s.log c v d).olc = s.olc := State.logAt_olc ..
@[simp] theorem State.log_lft (s : State) (c v : Nat) (d : List Byte) : (s.log c v d).lft = s.lft := State.logAt_lft ..
@[simp] theorem State.log_dma (s : State) (c v : Nat) (d : List Byte) : (s.log c v d).dma = s.dma := State.logAt_dma ..
@[simp] theorem State.log_ecc (s : State) (c v : Nat) (d : List Byte) : (s.log c v d).ecc = s.ecc := State.logAt_ecc ..
@[simp] theorem State.log_pwr (s : State) (c v : Nat) (d : List Byte) : (s.log c v d).pwr = s.pwr := State.logAt_pwr ..
@[simp] theorem State.log_tim (s : State) (c v : Nat) (d : List Byte) : (s.log c v d).tim = s.tim := State.logAt_tim ..
@[simp] theorem State.log_pending (s : State) (c v : Nat) (d : List Byte) : (s.log c v d).pending = s.pending := State.logAt_pending ..

/-! ### State.logNamed -/
@[simp] theorem State.logNamed_clk (s : State) (n : String) (d : List Byte) : (s.logNamed n d).clk = s.clk := State.logAt_clk ..
@[simp] theorem State.logNamed_sec (s : State) (n : String) (d : List Byte) : (s.logNamed n d).sec = s.sec := State.logAt_sec ..
@[simp] theorem State.logNamed_ports (s : State) (n : String) (d : List Byte) : (s.logNamed n d).ports = s.ports := State.logAt_ports ..
@[simp] theorem State.logNamed_rebind (s : State) (n : String) (d : List Byte) : (s.logNamed n d).rebind = s.rebind := State.logAt_rebind ..
@[simp] theorem State.logNamed_fab (s : State) (n : String) (d : List Byte) : (s.logNamed n d).fab = s.fab := State.logAt_fab ..
@[simp] theorem State.logNamed_bin (s : State) (n : String) (d : List Byte) : (s.logNamed n d).bin = s.bin := State.logAt_bin ..
@[simp] theorem State.logNamed_inj (s : State) (n : String) (d : List Byte) : (s.logNamed n d).inj = s.inj := State.logAt_inj ..
@[simp] theorem State.logNamed_fp (s : State) (n : String) (d : List Byte) : (s.logNamed n d).fp = s.fp := State.logAt_fp ..
@[simp] theorem State.logNamed_mem (s : State) (n : String) (d : List Byte) : (s.logNamed n d).mem = s.mem := State.logAt_mem ..
@[simp] theorem State.logNamed_lanes (s : State) (n : String) (d : List Byte) : (s.logNamed n d).lanes = s.lanes := State.logAt_lanes ..
@[simp] theorem State.logNamed_tsk (s : State) (n : String) (d : List Byte) : (s.logNamed n d).tsk = s.tsk := State.logAt_tsk ..
@[simp] theorem State.logNamed_frc (s : State) (n : String) (d : List Byte) : (s.logNamed n d).frc = s.frc := State.logAt_frc ..
@[simp] theorem State.logNamed_uch (s : State) (n : String) (d : List Byte) : (s.logNamed n d).uch = s.uch := State.logAt_uch ..
@[simp] theorem State.logNamed_uchGrp (s : State) (n : String) (d : List Byte) : (s.logNamed n d).uchGrp = s.uchGrp := State.logAt_uchGrp ..
@[simp] theorem State.logNamed_eth (s : State) (n : String) (d : List Byte) : (s.logNamed n d).eth = s.eth := State.logAt_eth ..
@[simp] theorem State.logNamed_olc (s : State) (n : String) (d : List Byte) : (s.logNamed n d).olc = s.olc := State.logAt_olc ..
@[simp] theorem State.logNamed_lft (s : State) (n : String) (d : List Byte) : (s.logNamed n d).lft = s.lft := State.logAt_lft ..
@[simp] theorem State.logNamed_dma (s : State) (n : String) (d : List Byte) : (s.logNamed n d).dma = s.dma := State.logAt_dma ..
@[simp] theorem State.logNamed_ecc (s : State) (n : String) (d : List Byte) : (s.logNamed n d).ecc = s.ecc := State.logAt_ecc ..
@[simp] theorem State.logNamed_pwr (s : State) (n : String) (d : List Byte) : (s.logNamed n d).pwr = s.pwr := State.logAt_pwr ..
@[simp] theorem State.logNamed_tim (s : State) (n : String) (d : List Byte) : (s.logNamed n d).tim = s.tim := State.logAt_tim ..
@[simp] theorem State.logNamed_pending (s : State) (n : String) (d : List Byte) : (s.logNamed n d).pending = s.pending := State.logAt_pending ..

/-! ### State.logNamedSev -/
@[simp] theorem State.logNamedSev_clk (s : State) (n : String) (v : Nat) (d : List Byte) : (s.logNamedSev n v d).clk = s.clk := State.logAt_clk ..
@[simp] theorem State.logNamedSev_sec (s : State) (n : String) (v : Nat) (d : List Byte) : (s.logNamedSev n v d).sec = s.sec := State.logAt_sec ..
@[simp] theorem State.logNamedSev_ports (s : State) (n : String) (v : Nat) (d : List Byte) : (s.logNamedSev n v d).ports = s.ports := State.logAt_ports ..
@[simp] theorem State.logNamedSev_rebind (s : State) (n : String) (v : Nat) (d : List Byte) : (s.logNamedSev n v d).rebind = s.rebind := State.logAt_rebind ..
@[simp] theorem State.logNamedSev_fab (s : State) (n : String) (v : Nat) (d : List Byte) : (s.logNamedSev n v d).fab = s.fab := State.logAt_fab ..
@[simp] theorem State.logNamedSev_bin (s : State) (n : String) (v : Nat) (d : List Byte) : (s.logNamedSev n v d).bin = s.bin := State.logAt_bin ..
@[simp] theorem State.logNamedSev_inj (s : State) (n : String) (v : Nat) (d : List Byte) : (s.logNamedSev n v d).inj = s.inj := State.logAt_inj ..
@[simp] theorem State.logNamedSev_fp (s : State) (n : String) (v : Nat) (d : List Byte) : (s.logNamedSev n v d).fp = s.fp := State.logAt_fp ..
@[simp] theorem State.logNamedSev_mem (s : State) (n : String) (v : Nat) (d : List Byte) : (s.logNamedSev n v d).mem = s.mem := State.logAt_mem ..
@[simp] theorem State.logNamedSev_lanes (s : State) (n : String) (v : Nat) (d : List Byte) : (s.logNamedSev n v d).lanes = s.lanes := State.logAt_lanes ..
@[simp] theorem State.logNamedSev_tsk (s : State) (n : String) (v : Nat) (d : List Byte) : (s.logNamedSev n v d).tsk = s.tsk := State.logAt_tsk ..
@[simp] theorem State.logNamedSev_frc (s : State) (n : String) (v : Nat) (d : List Byte) : (s.logNamedSev n v d).frc = s.frc := State.logAt_frc ..
@[simp] theorem State.logNamedSev_uch (s : State) (n : String) (v : Nat) (d : List Byte) : (s.logNamedSev n v d).uch = s.uch := State.logAt_uch ..
@[simp] theorem State.logNamedSev_uchGrp (s : State) (n : String) (v : Nat) (d : List Byte) : (s.logNamedSev n v d).uchGrp = s.uchGrp := State.logAt_uchGrp ..
@[simp] theorem State.logNamedSev_eth (s : State) (n : String) (v : Nat) (d : List Byte) : (s.logNamedSev n v d).eth = s.eth := State.logAt_eth ..
@[simp] theorem State.logNamedSev_olc (s : State) (n : String) (v : Nat) (d : List Byte) : (s.logNamedSev n v d).olc = s.olc := State.logAt_olc ..
@[simp] theorem State.logNamedSev_lft (s : State) (n : String) (v : Nat) (d : List Byte) : (s.logNamedSev n v d).lft = s.lft := State.logAt_lft ..
@[simp] theorem State.logNamedSev_dma (s : State) (n : String) (v : Nat) (d : List Byte) : (s.logNamedSev n v d).dma = s.dma := State.logAt_dma ..
@[simp] theorem State.logNamedSev_ecc (s : State) (n : String) (v : Nat) (d : List Byte) : (s.logNamedSev n v d).ecc = s.ecc := State.logAt_ecc ..
@[simp] theorem State.logNamedSev_pwr (s : State) (n : String) (v : Nat) (d : List Byte) : (s.logNamedSev n v d).pwr = s.pwr := State.logAt_pwr ..
@[simp] theorem State.logNamedSev_tim (s : State) (n : String) (v : Nat) (d : List Byte) : (s.logNamedSev n v d).tim = s.tim := State.logAt_tim ..
@[simp] theorem State.logNamedSev_pending (s : State) (n : String) (v : Nat) (d : List Byte) : (s.logNamedSev n v d).pending = s.pending := State.logAt_pending ..

end Sys2Proof.Machine
end

