-- ==== Sys2Proof/Laws/Reg.lean ====
section
/-!
SUPPORT. Laws/Reg.lean: what a register and a field read after each shared operation that writes registers, and what the shared operations
that instructions and host writes go through do in the case that runs.
-/
set_option Elab.async false
namespace Sys2Proof.Machine
open Sys2Proof

/-! ## Words -/

@[simp] theorem State.rd_wr_same (s : State) (a : Nat) (w : Word) : (s.wr a w).rd a = w := kvGet_put_same _ _ _ _

theorem State.rd_wr_ne (s : State) {a b : Nat} (w : Word) (h : b ≠ a) : (s.wr a w).rd b = s.rd b := kvGet_put_ne _ _ _ h

/-- Registers are read from `regs` alone. -/
theorem State.rd_congr {s t : State} (h : t.regs = s.regs) (a : Nat) : t.rd a = s.rd a := by unfold State.rd; rw [h]

theorem State.get_congr {s t : State} {f : Field} (h : t.rd f.addr = s.rd f.addr) : t.get f = s.get f := by unfold State.get; rw [h]

theorem State.flag_congr {s t : State} {f : Field} (h : t.rd f.addr = s.rd f.addr) : t.flag f = s.flag f := by
  unfold State.flag; rw [State.get_congr h]

/-! ## Fields -/

theorem fieldOf_lt (w : Word) (lo n : Nat) : fieldOf w lo n < 2 ^ n := Nat.mod_lt _ (by positivity)

/-- The number that a word becomes when a field inside it takes a value. -/
theorem withField_toNat (w : Word) {lo n : Nat} (v : Nat) (h : lo + n ≤ 32) :
    (withField w lo n v).toNat = w.toNat % 2 ^ lo + v % 2 ^ n * 2 ^ lo + w.toNat / 2 ^ (lo + n) * 2 ^ (lo + n) := by
  have hw := w.isLt
  unfold withField
  rw [BitVec.toNat_ofNat, Nat.mod_eq_of_lt]
  have a : w.toNat % 2 ^ lo < 2 ^ lo := Nat.mod_lt _ (by positivity)
  have b : v % 2 ^ n < 2 ^ n := Nat.mod_lt _ (by positivity)
  have c : w.toNat % 2 ^ lo + v % 2 ^ n * 2 ^ lo < 2 ^ (lo + n) := by
    rw [pow_add]
    calc w.toNat % 2 ^ lo + v % 2 ^ n * 2 ^ lo < 2 ^ lo + v % 2 ^ n * 2 ^ lo := by omega
      _ = (v % 2 ^ n + 1) * 2 ^ lo := by ring
      _ ≤ 2 ^ n * 2 ^ lo := Nat.mul_le_mul_right _ b
      _ = 2 ^ lo * 2 ^ n := by ring
  have e : (2 : Nat) ^ 32 = 2 ^ (lo + n) * 2 ^ (32 - (lo + n)) := by rw [← pow_add]; congr 1; omega
  have d : w.toNat / 2 ^ (lo + n) + 1 ≤ 2 ^ (32 - (lo + n)) := by
    apply (Nat.div_lt_iff_lt_mul (by positivity)).2
    rw [mul_comm, ← e]; exact hw
  calc _ < 2 ^ (lo + n) + w.toNat / 2 ^ (lo + n) * 2 ^ (lo + n) := by omega
    _ = (w.toNat / 2 ^ (lo + n) + 1) * 2 ^ (lo + n) := by ring
    _ ≤ 2 ^ (32 - (lo + n)) * 2 ^ (lo + n) := Nat.mul_le_mul_right _ d
    _ = 2 ^ 32 := by rw [e, mul_comm]

theorem fieldOf_withField_same (w : Word) {lo n : Nat} (v : Nat) (h : lo + n ≤ 32) : fieldOf (withField w lo n v) lo n = v % 2 ^ n := by
  unfold fieldOf
  rw [withField_toNat w v h]
  have a : w.toNat % 2 ^ lo < 2 ^ lo := Nat.mod_lt _ (by positivity)
  have e : w.toNat % 2 ^ lo + v % 2 ^ n * 2 ^ lo + w.toNat / 2 ^ (lo + n) * 2 ^ (lo + n) =
      w.toNat % 2 ^ lo + 2 ^ lo * (v % 2 ^ n + 2 ^ n * (w.toNat / 2 ^ (lo + n))) := by rw [pow_add]; ring
  rw [e, Nat.add_mul_div_left _ _ (by positivity), Nat.div_eq_of_lt a, Nat.zero_add, Nat.add_mul_mod_self_left, Nat.mod_mod]

/-- A field below the one that is written keeps its value. -/
theorem fieldOf_withField_below (w : Word) {lo n l m : Nat} (v : Nat) (h : lo + n ≤ 32) (g : l + m ≤ lo) :
    fieldOf (withField w lo n v) l m = fieldOf w l m := by
  unfold fieldOf
  rw [withField_toNat w v h]
  obtain ⟨k, rfl⟩ : ∃ k, lo = l + m + k := ⟨lo - (l + m), by omega⟩
  have key : ∀ x : Nat, x / 2 ^ l % 2 ^ m = x % 2 ^ (l + m) / 2 ^ l := by
    intro x; rw [pow_add, Nat.mod_mul_right_div_self]
  rw [key, key]
  congr 1
  have e : w.toNat % 2 ^ (l + m + k) + v % 2 ^ n * 2 ^ (l + m + k) + w.toNat / 2 ^ (l + m + k + n) * 2 ^ (l + m + k + n) =
      w.toNat % 2 ^ (l + m + k) + 2 ^ (l + m) * (2 ^ k * (v % 2 ^ n) + 2 ^ (k + n) * (w.toNat / 2 ^ (l + m + k + n))) := by
    rw [show l + m + k + n = (l + m) + (k + n) by omega]
    simp only [pow_add]; ring
  rw [e, Nat.add_mul_mod_self_left]
  exact Nat.mod_mod_of_dvd _ (pow_dvd_pow 2 (by omega))

/-- A field above the one that is written keeps its value. -/
theorem fieldOf_withField_above (w : Word) {lo n l m : Nat} (v : Nat) (h : lo + n ≤ 32) (g : lo + n ≤ l) :
    fieldOf (withField w lo n v) l m = fieldOf w l m := by
  unfold fieldOf
  rw [withField_toNat w v h]
  obtain ⟨k, rfl⟩ : ∃ k, l = lo + n + k := ⟨l - (lo + n), by omega⟩
  have a : w.toNat % 2 ^ lo + v % 2 ^ n * 2 ^ lo < 2 ^ (lo + n) := by
    have a : w.toNat % 2 ^ lo < 2 ^ lo := Nat.mod_lt _ (by positivity)
    have b : v % 2 ^ n < 2 ^ n := Nat.mod_lt _ (by positivity)
    rw [pow_add]
    calc w.toNat % 2 ^ lo + v % 2 ^ n * 2 ^ lo < 2 ^ lo + v % 2 ^ n * 2 ^ lo := by omega
      _ = (v % 2 ^ n + 1) * 2 ^ lo := by ring
      _ ≤ 2 ^ n * 2 ^ lo := Nat.mul_le_mul_right _ b
      _ = 2 ^ lo * 2 ^ n := by ring
  congr 1
  rw [show lo + n + k = (lo + n) + k from rfl, pow_add 2 (lo + n) k, ← Nat.div_div_eq_div_mul, ← Nat.div_div_eq_div_mul]
  congr 1
  rw [Nat.mul_comm (w.toNat / _), Nat.add_mul_div_left _ _ (by positivity), Nat.div_eq_of_lt a, Nat.zero_add]

@[simp] theorem State.get_set_same (s : State) (f : Field) (v : Nat) (h : f.lo + f.width ≤ 32) : (s.set f v).get f = v % 2 ^ f.width := by
  unfold State.get State.set
  rw [State.rd_wr_same, fieldOf_withField_same _ _ h]

theorem State.rd_set_ne (s : State) {f : Field} {a : Nat} (v : Nat) (h : a ≠ f.addr) : (s.set f v).rd a = s.rd a := s.rd_wr_ne _ h

theorem State.get_set_ne (s : State) {f g : Field} (v : Nat) (h : g.addr ≠ f.addr) : (s.set f v).get g = s.get g :=
  State.get_congr (s.rd_set_ne v h)

/-- Another field of the same register keeps its value. -/
theorem State.get_set_apart (s : State) {f g : Field} (v : Nat) (h : f.lo + f.width ≤ 32)
    (d : g.lo + g.width ≤ f.lo ∨ f.lo + f.width ≤ g.lo) : (s.set f v).get g = s.get g := by
  by_cases e : g.addr = f.addr
  · unfold State.get State.set
    rw [e, State.rd_wr_same]
    rcases d with d | d
    · exact fieldOf_withField_below _ _ h d
    · exact fieldOf_withField_above _ _ h d
  · exact s.get_set_ne v e

@[simp] theorem State.flag_set_one (s : State) (f : Field) (h : f.lo + 1 ≤ 32) (g : f.width = 1) : (s.set f 1).flag f = true := by
  unfold State.flag
  rw [s.get_set_same f 1 (by omega), g]; rfl

/-- A counter field goes up by what it counts, to its largest value. -/
theorem State.get_bumpBy_same (s : State) (f : Field) (n : Nat) (h : f.lo + f.width ≤ 32) :
    (s.bumpBy f n).get f = min (s.get f + n) (2 ^ f.width - 1) := by
  unfold State.bumpBy
  rw [State.get_set_same _ _ _ h, Nat.mod_eq_of_lt]
  have : 0 < 2 ^ f.width := by positivity
  omega

/-! ## 64-bit registers -/

@[simp] theorem State.get64_set64 (s : State) (a v : Nat) : (s.set64 a v).get64 a = v % 2 ^ 64 := by
  unfold State.get64 State.set64
  rw [State.rd_wr_ne _ _ (by omega : a ≠ a + 4), State.rd_wr_same, State.rd_wr_same, BitVec.toNat_ofNat, BitVec.toNat_ofNat]
  omega

theorem State.rd_set64_ne (s : State) {a b : Nat} (v : Nat) (h : b ≠ a) (g : b ≠ a + 4) : (s.set64 a v).rd b = s.rd b := by
  unfold State.set64
  rw [State.rd_wr_ne _ _ g, State.rd_wr_ne _ _ h]

/-! ## Events and entries -/

/-- Signalling an event writes its bit and nothing else of the registers. -/
theorem State.raise_regs (s : State) (f : Field) : (s.raise f).regs = (s.set f 1).regs := by
  unfold State.raise
  dsimp only
  split
  · rfl
  · split
    · rw [State.msix_regs, State.msix_regs]
    · rfl

theorem State.rd_raise_ne (s : State) {f : Field} {a : Nat} (h : a ≠ f.addr) : (s.raise f).rd a = s.rd a := by
  rw [State.rd_congr (s.raise_regs f)]; exact s.rd_set_ne 1 h

theorem State.flag_raise (s : State) (f : Field) (h : f.lo + 1 ≤ 32) (g : f.width = 1) : (s.raise f).flag f = true := by
  rw [State.flag_congr (State.rd_congr (s.raise_regs f) _)]; exact s.flag_set_one f h g

/-- An entry presented to the Cellar writes no register but CEL_DROP and CEL_EVT. -/
theorem State.rd_enqueue (s : State) (e : Raised) {a : Nat} (h : a ≠ F.CEL_DROP.QUEUE.addr) (g : a ≠ F.CEL_EVT.DROP.addr) :
    (s.enqueue e).rd a = s.rd a := by
  unfold State.enqueue
  by_cases c : s.pwr.celStop = true
  · rw [if_pos c]
  · rw [if_neg c]
    by_cases d : s.cel.queue.length < celQueueMax
    · rw [if_pos d]; rfl
    · rw [if_neg d]
      dsimp only
      rw [State.rd_raise_ne _ g]
      unfold State.bump State.bumpBy
      rw [State.rd_set_ne _ _ h]; rfl

theorem State.rd_logAt (s : State) (c : EvCode) (v k : Nat) (d : List Byte) {a : Nat} (h : a ≠ F.CEL_DROP.QUEUE.addr)
    (g : a ≠ F.CEL_EVT.DROP.addr) : (s.logAt c v k d).rd a = s.rd a := s.rd_enqueue _ h g

theorem State.rd_log (s : State) (c v : Nat) (d : List Byte) {a : Nat} (h : a ≠ F.CEL_DROP.QUEUE.addr) (g : a ≠ F.CEL_EVT.DROP.addr) :
    (s.log c v d).rd a = s.rd a := s.rd_enqueue _ h g

/-- An entry joins a queue that has room. -/
theorem State.enqueue_room (s : State) (e : Raised) (h : s.pwr.celStop = false) (g : s.cel.queue.length < celQueueMax) :
    s.enqueue e = { s with cel := { s.cel with queue := s.cel.queue ++ [e] } } := by
  unfold State.enqueue
  rw [if_neg (by simp [h]), if_pos g]

/-! ## Instructions and host writes -/

/-- On a ready lane an instruction that is no loop instruction is its body's effect on the cycle. -/
theorem State.insn_ready (s : State) (ln : Fin 4) (c : Cycle) (cost : Nat) (body : Body) (h : Ready s ln c) :
    s.insn ln cost false body = .next (s.applyEffect c cost (body s c)) := by
  obtain ⟨a, b, d⟩ := h
  unfold State.insn
  rw [a]
  simp [State.insnGo, b, d]

/-- What an instruction whose body goes on without a trapped sticky bit leaves. -/
theorem State.applyEffect_next (s t : State) (c c1 : Cycle) (cost sticky : Nat) (h : arithDetail c.fmask sticky = 0) :
    s.applyEffect c cost (.next t c1 sticky) = retired t c c1 cost sticky := by
  simp [State.applyEffect, h, retired]

/-- A write that the access check lets act does what it does on the state behind the check. -/
theorem whenAllowed_permits (s : State) (pf a : Nat) (w : Word) (right : Option Nat) (act : State → State)
    (h : s.permits pf a w right) : whenAllowed (s.gate pf a w right false) act = act (s.checked pf a w right) := by
  unfold whenAllowed
  have g : (s.gate pf a w right false).1 = true := h
  rw [if_pos g]; rfl

end Sys2Proof.Machine
end

