-- ==== Sys2Proof/Tests/Slice0.lean ====
section
/-!
SUPPORT. Tests/Slice0.lean: each command once on a small state, with results taken from the spec's words and worked examples; states that
meet the hypotheses of the statements; ill-formed operands; instruction words of the spec's example.
-/
namespace Sys2Proof.Tests
open Sys2Proof Sys2Proof.Machine
set_option Elab.async false

/-- The outcome is a next state with the property. -/
def ran (o : Host.Outcome State Fault Refusal) (p : State → Bool) : Bool :=
  match o with
  | .next t => p t
  | _ => false

/-! ## States for the tests -/

/-- After reset, with SIX running at `k`. -/
def st (k : Nat) : State := { State.reset with clk := { State.reset.clk with running := true, six := k } }

/-- A session with every right is open. -/
def priv (s : State) : State := { s with sec := { s.sec with session := some ⟨7, 0, [], 4000000000, s.six⟩ } }

/-- The engine is powered, in SERVICE. -/
def tTask : Task := ⟨3, false, 8, 4, 0, ⟨false, [], [], [], []⟩, 0, 0, 0, [5], [], [7], 0⟩
def tVerb : Verb := ⟨0, 32, 8, 4, 0⟩
def tNoun : Noun := ⟨9, 0x100, 0, 3, 1, 0, false, []⟩
def tShelf : Shelf := ⟨7, 4, 1, 3, 1⟩
def tPart : Partition :=
  ⟨1, List.replicate 16 0, [tVerb], [tNoun], [], [],
    [⟨true, 0, 0, 0, false, false, true, 63⟩, ⟨true, 0, 63, 1, true, true, false, 63⟩, ⟨true, 0, 63, 2, true, true, false, 63⟩],
    [tTask], [⟨3, 8, 4⟩], [(2, 3)], [tShelf], [], [], [], [], [], none, 0, 0, 0⟩
def tProg : ProgImage := ⟨[tPart], 0⟩

/-- A cycle of task 3 on lane 2 with g1 = x, g2 = y. -/
def cyc (x y : Word) : Cycle :=
  { tid := 3, part := 1, lane := 2, kind := 0, status := 2, rel := 0x123400000064, period := 400, prio := 8, fmask := 0, event := false,
    overrun := false, unclean := false, regs := [(1, x), (2, y)], flg := 0x705, nb := 0x100, pc := 8, lim := none,
    frames := [⟨0, 0x100, 0, 0, []⟩], loops := [],
    ended := 0, img := ⟨[(itemKey 5 1 0x10, 7), (itemKey 5 1 0x11, 9)], [(8, 77)], 16, [(7, [(1, 55)])], false⟩, ost := [], shst := [], gset := [],
    evr := [], notes := [], drops := 0, journal := [], exec := 0 }

/-- Lane 2 stands before an instruction of cycle `c`. -/
def onLane (c : Cycle) : State :=
  let s := st (c.rel + 10)
  let t := { s with lanes := [(2, ⟨some tPart, some 3, 0⟩)], tsk := { s.tsk with prog := some tProg, up := true, cyc := [(3, some c)] } }
  (t.set (F.LNE_L_STATE.ROLE 2) 1).set (F.LNE_L_STATE.PART 2) 1

def ready (c : Cycle) : Bool :=
  (onLane c).running 2 == some c && c.lim == none && (onLane c).mayFetch c

/-- The instruction completes with the cycle changed to `c1`. -/
def does (i : Instr) (c c1 : Cycle) (cost sticky : Nat) : Bool :=
  ran (exec i (onLane c)) (fun t => t = retired (onLane c) c c1 cost sticky)
/-! ## The machine -/

theorem test_reset : State.reset.rd A.ENG_ID = resetWord A.ENG_ID ∧ State.reset.regsWf = true ∧ Memory.wf State.reset.mem = true := by decide +kernel

theorem test_step_runs_front : ran (step ((st 5).pushFront .sixAdvance)) (fun t => t.six == 6 && t.pending == []) = true ∧
    ran (step (st 5)) (fun t => t == st 5) = true := by decide +kernel

/-! ## Instructions -/

theorem witness_ready : Ready (onLane (cyc 7 5)) 2 (cyc 7 5) := by
  refine ⟨?_, ?_, ?_⟩ <;> decide +kernel

theorem test_integer : ready (cyc 0x80000000 0xffffffff) = true ∧
    does (.add 2 4 1 2 true) (cyc 0x80000000 0xffffffff) ((cyc 0x80000000 0xffffffff).setReg 4 0x7fffffff |>.flags true 12) 1 0 = true ∧
    does (.sub 2 4 1 2 true) (cyc 5 5) (((cyc 5 5).setReg 4 0).flags true 5) 1 0 = true ∧
    does (.mulh 2 4 1 2 false) (cyc 0x80000000 2) ((cyc 0x80000000 2).setReg 4 0xffffffff) 2 0 = true ∧
    does (.clz 2 4 1 0 false) (cyc 1 0) ((cyc 1 0).setReg 4 31) 1 0 = true := by decide +kernel

/-- A cycle whose task traps every sticky bit. -/
def trapping (x y : Word) : Cycle := { cyc x y with fmask := 7 }

/-- The instruction raises `code` with `detail`: the lane's exception registers say so and the cycle is aborted with its registers as they were. -/
def traps (i : Instr) (c : Cycle) (code detail : Nat) : Bool :=
  ran (exec i (onLane c)) (fun t => t.get (F.LNE_L_EXC.CODE 2) == code && t.get (F.LNE_L_EXC.DETAIL 2) == detail && t.rd (A.LNE_L_EXC_PC 2) == 8 &&
    (t.cycle 3).map (fun d => (d.status, d.regs)) == some (4, c.regs))

theorem test_saturating :
    does (.adds 2 4 1 2 true) (cyc 0x7fffffff 1) (((cyc 0x7fffffff 1).setReg 4 0x7fffffff).flags true 8) 1 256 = true ∧
    does (.addus 2 4 1 2 false) (cyc 0xffffffff 1) ((cyc 0xffffffff 1).setReg 4 0xffffffff) 1 256 = true ∧
    does (.qmul31 2 4 1 2 true) (cyc 0x80000000 0x80000000) (((cyc 0x80000000 0x80000000).setReg 4 0x7fffffff).flags true 8) 2 256 = true ∧
    does (.qadd15 2 4 1 2 false) (cyc 0x7fff0001 0x00010001) ((cyc 0x7fff0001 0x00010001).setReg 4 0x7fff0002) 1 256 = true ∧
    does (.qrsh31 2 4 1 2 false) (cyc 0x7fffffff 1) ((cyc 0x7fffffff 1).setReg 4 0x40000000) 1 0 = true := by decide +kernel

theorem test_division :
    does (.div 2 4 1 2 false) (cyc 0xfffffff9 2) ((cyc 0xfffffff9 2).setReg 4 0xfffffffd) 18 0 = true ∧
    does (.rem 2 4 1 2 false) (cyc 0xfffffff9 2) ((cyc 0xfffffff9 2).setReg 4 0xffffffff) 18 0 = true ∧
    does (.div 2 4 1 2 true) (cyc 0x80000000 0xffffffff) (((cyc 0x80000000 0xffffffff).setReg 4 0x7fffffff).flags true 8) 18 256 = true ∧
    does (.rem 2 4 1 2 false) (cyc 0x80000000 0xffffffff) ((cyc 0x80000000 0xffffffff).setReg 4 0) 18 0 = true ∧
    does (.div 2 4 1 2 false) (cyc 0xffffffff 0) ((cyc 0xffffffff 0).setReg 4 0x80000000) 18 512 = true ∧
    does (.remu 2 4 1 2 false) (cyc 9 0) ((cyc 9 0).setReg 4 9) 18 512 = true ∧
    traps (.divu 2 4 1 2 false) (trapping 9 0) 8 1 = true := by decide +kernel

theorem test_immediates :
    does (.addi 2 4 1 0xffff) (cyc 0 0) ((cyc 0 0).setReg 4 0xffffffff) 1 0 = true ∧
    does (.addis 2 4 1 1) (cyc 0x7fffffff 0) ((cyc 0x7fffffff 0).setReg 4 0x7fffffff) 1 256 = true ∧
    traps (.addis 2 4 1 1) (trapping 0x7fffffff 0) 8 4 = true ∧
    does (.lui 2 4 0 0x8001) (cyc 0 0) ((cyc 0 0).setReg 4 0x80010000) 1 0 = true ∧
    traps (.lui 2 4 1 0x8001) (cyc 0 0) 1 3 = true ∧
    does (.sltiu 2 4 1 0xffff) (cyc 5 0) ((cyc 5 0).setReg 4 1) 1 0 = true := by decide +kernel

/-- g2 and g3 hold the pair y, g4 and g5 the pair x. -/
def pairs (x y : BitVec 64) : Cycle :=
  { cyc 0 0 with regs := (((cyc 0 0).setPair 4 x).setPair 2 y).regs }

theorem test_pairs :
    does (.add64 2 6 4 2 true) (pairs 0xffffffffffffffff 1) (((pairs 0xffffffffffffffff 1).setPair 6 0).flags true 5) 2 0 = true ∧
    does (.adds64 2 6 4 2 false) (pairs 0x7fffffffffffffff 1) ((pairs 0x7fffffffffffffff 1).setPair 6 0x7fffffffffffffff) 2 256 = true ∧
    does (.mull 2 6 1 2 false) (cyc 0xffffffff 2) ((cyc 0xffffffff 2).setPair 6 0xfffffffffffffffe) 3 0 = true ∧
    does (.slt64 2 7 4 2 false) (pairs 0xffffffffffffffff 1) ((pairs 0xffffffffffffffff 1).setReg 7 1) 2 0 = true ∧
    does (.sra64 2 6 4 2 false) (pairs 0x8000000000000000 63) ((pairs 0x8000000000000000 63).setPair 6 0xffffffffffffffff) 2 0 = true ∧
    does (.sext 2 6 1 0 false) (cyc 0x80000000 0) ((cyc 0x80000000 0).setPair 6 0xffffffff80000000) 1 0 = true ∧
    traps (.add64 2 7 4 2 false) (pairs 0 0) 1 2 = true ∧ traps (.slt64 2 6 5 2 false) (pairs 0 0) 1 2 = true := by decide +kernel

theorem test_float_values :
    does (.fadd 2 4 1 2 true) (cyc 0x40490fdb 0) (((cyc 0x40490fdb 0).setReg 4 0x40490fdb).flags true 0) 3 0 = true ∧
    does (.fmul 2 4 1 2 false) (cyc 0xc0000000 0x3f800000) ((cyc 0xc0000000 0x3f800000).setReg 4 0xc0000000) 3 0 = true ∧
    does (.fdiv 2 4 1 2 false) (cyc 0x3f800000 0x40400000) ((cyc 0x3f800000 0x40400000).setReg 4 0x3eaaaaab) 14 0 = true ∧
    does (.fscalb 2 4 1 2 false) (cyc 0x3f800000 1) ((cyc 0x3f800000 1).setReg 4 0x40000000) 2 0 = true ∧ (cyc 0 0).fmask = 0 ∧
    does (.fsqrt 2 4 1 0 false) (cyc 0x40800000 0) ((cyc 0x40800000 0).setReg 4 0x40000000) 16 0 = true ∧
    does (.fcvtws 2 4 1 0 false) (cyc 0x3f800000 0) ((cyc 0x3f800000 0).setReg 4 1) 2 0 = true ∧
    does (.fcmp 2 0 1 2 false) (cyc 0x3f800000 0x3f800000) { cyc 0x3f800000 0x3f800000 with flg := 0x705 } 1 0 = true := by decide +kernel

theorem test_float_invalid :
    does (.fadd 2 4 1 2 true) (cyc 0x7fc00001 0) (((cyc 0x7fc00001 0).setReg 4 0x7fc00000).flags true 8) 3 0 = true ∧
    does (.fsub 2 4 1 2 false) (cyc 0x7f800000 0x7f800000) ((cyc 0x7f800000 0x7f800000).setReg 4 0x7fc00000) 3 1024 = true ∧
    does (.fmul 2 4 1 2 false) (cyc 0 0x7f800000) ((cyc 0 0x7f800000).setReg 4 0x7fc00000) 3 1024 = true ∧
    does (.fsqrt 2 4 1 0 false) (cyc 0xbf800000 0) ((cyc 0xbf800000 0).setReg 4 0x7fc00000) 16 1024 = true ∧
    does (.fcvtws 2 4 1 0 false) (cyc 0x7fc00000 0) ((cyc 0x7fc00000 0).setReg 4 0) 2 1024 = true ∧
    traps (.fdiv 2 4 1 2 false) (trapping 0 0) 8 2 = true := by decide +kernel

theorem test_special_registers :
    does (.mfs 2 4 0 0 false) (cyc 0 0) ((cyc 0 0).setReg 4 0x705) 1 0 = true ∧
    does (.mfs 2 4 1 0 false) (cyc 0 0) ((cyc 0 0).setReg 4 0x100) 1 0 = true ∧
    does (.mfs 2 4 2 0 false) (cyc 0 0) ((cyc 0 0).setReg 4 0x64) 1 0 = true ∧
    does (.mfs 2 4 3 0 false) (cyc 0 0) ((cyc 0 0).setReg 4 0x1234) 1 0 = true ∧
    does (.mfs 2 4 11 0 false) (cyc 0 0) ((cyc 0 0).setPair 4 0x123400000064) 2 0 = true ∧
    traps (.mfs 2 4 12 0 false) (cyc 0 0) 1 4 = true ∧ traps (.mfs 2 4 31 0 false) (cyc 0 0) 1 4 = true ∧
    does (.mtf 2 0 1 0 false) (cyc 0x30A 0) { cyc 0x30A 0 with flg := 0x30A } 1 0 = true := by decide +kernel

/-- Lane data memory of lane 2 holds 0x80 0x81 ... 0x87 at 0x40, common SRAM the same. -/
def filled (c : Cycle) : State :=
  let bs := (List.range 8).map (fun k => BitVec.ofNat 8 (0x80 + k))
  ((onLane c).storeBytes 11 0x40 bs).storeBytes 1 0x40 bs

def doesMem (i : Instr) (c c1 : Cycle) (cost : Nat) : Bool :=
  ran (exec i (filled c)) (fun t => t = retired (filled c) c c1 cost 0)

theorem test_loads :
    doesMem (.ldw 2 4 1 0) (cyc 0x40 0) ((cyc 0x40 0).setReg 4 0x83828180) 2 = true ∧
    doesMem (.ldh 2 4 1 0xfffe) (cyc 0x44 0) ((cyc 0x44 0).setReg 4 0xffff8382) 2 = true ∧
    doesMem (.ldbu 2 4 1 7) (cyc 0x40 0) ((cyc 0x40 0).setReg 4 0x87) 2 = true ∧
    doesMem (.ldd 2 4 1 0) (cyc 0x40 0) ((cyc 0x40 0).setPair 4 0x8786858483828180) 3 = true ∧
    doesMem (.cldw 2 4 1 4) (cyc 0x40 0) ((cyc 0x40 0).setReg 4 0x87868584) 12 = true ∧
    doesMem (.cldd 2 4 1 0) (cyc 0x40 0) ((cyc 0x40 0).setPair 4 0x8786858483828180) 12 = true ∧
    traps (.ldw 2 4 1 1) (cyc 0x40 0) 2 1 = true ∧ traps (.ldw 2 4 1 0) (cyc 0x2000 0) 2 0 = true := by decide +kernel

/-- The store leaves these bytes at 0x3f to 0x48 of the space, in a memory filled at 0x40. -/
def stores (i : Instr) (sp : Nat) (bs : List Byte) : Bool :=
  ran (exec i (filled (cyc 0x40 0x44332211))) (fun t => (List.range 10).map (fun k => t.byteAt sp (0x3f + k)) = bs)

theorem test_stores :
    stores (.stw 2 2 1 0) 11 [0, 0x11, 0x22, 0x33, 0x44, 0x84, 0x85, 0x86, 0x87, 0] = true ∧
    stores (.sth 2 2 1 6) 11 [0, 0x80, 0x81, 0x82, 0x83, 0x84, 0x85, 0x11, 0x22, 0] = true ∧
    stores (.stb 2 2 1 7) 11 [0, 0x80, 0x81, 0x82, 0x83, 0x84, 0x85, 0x86, 0x11, 0] = true ∧
    stores (.std 2 2 1 0) 11 [0, 0x11, 0x22, 0x33, 0x44, 0, 0, 0, 0, 0] = true ∧
    stores (.cstw 2 2 1 4) 1 [0, 0x80, 0x81, 0x82, 0x83, 0x11, 0x22, 0x33, 0x44, 0] = true ∧
    stores (.cstd 2 2 1 0) 1 [0, 0x11, 0x22, 0x33, 0x44, 0, 0, 0, 0, 0] = true := by decide +kernel

theorem test_input_region :
    does (.ild 2 4 1 8) (cyc 4 0) ((cyc 4 0).setReg 4 0) 12 0 = true ∧ does (.ild 2 4 1 8) (cyc 0 0) ((cyc 0 0).setReg 4 77) 12 0 = true ∧
    traps (.ild 2 4 1 2) (cyc 0 0) 2 1 = true ∧ traps (.ild 2 4 1 16) (cyc 0 0) 2 0 = true := by decide +kernel

theorem test_nouns_and_images :
    does (.nld 2 4 1 28) (cyc 0 0) ((cyc 0 0).setReg 4 0) 2 0 = true ∧
    does (.nst 2 2 1 8) (cyc 0 5) ((cyc 0 5).stage 8 5) 2 0 = true ∧
    does (.sld 2 4 5 1 0x11) (cyc 0 0) ((cyc 0 0).setReg 4 9) 12 0 = true ∧
    does (.sldp 2 4 5 1 0x10) (cyc 0 0) ((cyc 0 0).setPair 4 0x0000000900000007) 13 0 = true ∧
    does (.shld 2 4 1 0 7) (cyc 1 0) ((cyc 1 0).setReg 4 55) 12 0 = true ∧
    (onLane (cyc 0 0)).declares (cyc 0 0) 5 = true ∧ (onLane (cyc 0 0)).curNsize (cyc 0 0) = 32 := by decide +kernel

theorem test_buffered_outputs :
    does (.ost 2 2 1 32) (cyc 0 5) { cyc 0 5 with ost := [(8, some 5)] } 12 0 = true ∧
    does (.shst 2 2 1 0 7) (cyc 3 5) { cyc 3 5 with shst := [(7, [(3, some 5)])] } 12 0 = true ∧
    does (.gset 2 0 0 66) (cyc 0 0) { cyc 0 0 with gset := [(2, some 1)] } 2 0 = true ∧
    does (.gset 2 0 2 130) (cyc 0 2) { cyc 0 2 with gset := [(2, some 0)] } 2 0 = true ∧
    does (.evr 2 0 0 15) (cyc 0 0) { cyc 0 0 with evr := [15] } 2 0 = true ∧
    does (.cnote 2 1 1 0 0) (cyc 0x7fc 0) { cyc 0x7fc 0 with notes := [⟨0xffc, 0, []⟩] } 20 0 = true ∧
    (let c := { cyc 0x7fc 0 with notes := List.replicate 16 ⟨0x800, 0, []⟩ }
     ran (exec (.cnote 2 1 1 0 0) (onLane c)) (fun t => t.get (F.TSK_T_CNT.NOTE_DROP 3) == 1 && t.flag F.TSK_EVT.NOTE_DROP &&
       (t.cycle 3).map (fun e => (e.drops, e.notes.length, e.exec)) == some (1, 16, 20)) = true) := by decide +kernel

/-- The instruction moves control. -/
def jumps (i : Instr) (c c1 : Cycle) (cost target : Nat) : Bool :=
  ran (exec i (onLane c)) (fun t => t = jumped (onLane c) c1 cost target)

theorem test_branches :
    jumps (.beq 2 1 2 0xffff) (cyc 5 5) (cyc 5 5) 2 4 = true ∧ does (.beq 2 1 2 0xffff) (cyc 5 6) (cyc 5 6) 2 0 = true ∧
    jumps (.blt 2 1 2 2) (cyc 0xffffffff 0) (cyc 0xffffffff 0) 2 16 = true ∧
    does (.bltu 2 1 2 2) (cyc 0xffffffff 0) (cyc 0xffffffff 0) 2 0 = true ∧
    jumps (.jl 2 0x3ffffff) (cyc 0 0) ((cyc 0 0).setReg 31 12) 2 4 = true ∧
    jumps (.jr 2 4 1 0 1) (cyc 0x20 0) ((cyc 0x20 0).setReg 4 12) 2 0x20 = true ∧
    jumps (.bf 2 0 0 3) (cyc 0 0) (cyc 0 0) 2 20 = true ∧ traps (.bf 2 15 0 3) (cyc 0 0) 1 4 = true ∧
    does (.sel 2 4 1 2 14) (cyc 3 4) ((cyc 3 4).setReg 4 3) 1 0 = true ∧ traps (.sel 2 4 1 2 15) (cyc 3 4) 1 4 = true := by decide +kernel

theorem test_loops_and_calls :
    jumps (.lim 2 0 0 3) (cyc 0 0) { cyc 0 0 with lim := some 3 } 1 12 = true ∧
    (let c := { cyc 3 0 with lim := some 3, pc := 12 }
     jumps (.loop 2 4 1 0 2) c { c.setReg 4 0 with lim := none, loops := [⟨16, 20, 3, 0, 4, 1⟩] } 2 16 = true) ∧
    ran (exec (.callv 2 0 0) (onLane (cyc 0 0))) (fun t => (t.lane 2).resv == 4 &&
      (t.cycle 3).any (fun c => c.pc == 0 && c.nb == 0x100 && c.frames.head? == some ⟨12, 0x100, 0, 0, []⟩)) = true ∧
    ran (exec (.callvr 2 0 1 0 0) (onLane (cyc 0 0))) (fun t => (t.lane 2).resv == 4) = true ∧
    (let c := { cyc 0 0 with frames := [⟨12, 0x100, 0, 0, [(8, some 6)]⟩, ⟨0, 0x100, 0, 0, []⟩] }
     ran (exec (.retv 2 0) (onLane c)) (fun t => t.byteAt 11 0x108 == 6 && (t.cycle 3).any (fun d => d.pc == 12 && d.frames.length == 1 &&
       d.exec == 8))) = true ∧
    (let c := { cyc 0 0 with lim := some 3, pc := 12 }
     c.pastEnd (12 + 4 * 2) = false ∧ ran (exec (.loop 2 4 1 0 2) (onLane c)) (fun t => (t.cycle 3).any (fun k => k.lim == none && k.loops == [] &&
       k.pc == 24)) = true) ∧
    ran (exec (.retv 2 0) (onLane (cyc 0 0))) (fun t => (t.cycle 3).map (fun k => (k.status, k.ended)) == some (3, 0x12340000006e)) = true ∧
    illegalDetail 0xfc000000 = some 0 ∧ traps (.illegalOpcode 2 0xfc000000) (cyc 0 0) 1 0 = true := by decide +kernel

/-! ## Links -/

/-- Port `p` stands in link state `x`, with what it holds beside its registers. -/
def inPort (s : State) (p x : Nat) (y : Port) : State := (s.set (F.HJL_P_STATE.STATE p) x).setPort p y

def hello1 : Hello := ⟨77, 2, 1, 0, 5⟩

theorem witness_link_admission :
    (let s := inPort (st 1000) 43 pDOWN Port.reset
     s.portState 43 = pDOWN ∧ ran (exec (.frameAlignmentAcquired 43) s) (fun t => t.portState 43 == pSYNC && (t.port 43).aligned) = true) ∧
    (let s := inPort (st 1000) 0 pHELLO { Port.reset with aligned := true }
     s.portState 0 = pHELLO ∧ ran (exec (.frameAlignmentLost 0) s) (fun t => t.portState 0 == pDOWN && !(t.port 0).aligned) = true) ∧
    (let s := ((inPort (st 1000) 3 pSYNC { Port.reset with ignoreTill := 1000 }).set (F.HJL_P_CFG.ROLE 3) 1).set (F.HJL_P_CFG.TYPE 3) 2
     s.portState 3 = pSYNC ∧ (s.port 3).whole 1 = true ∧ (s.port 3).ignoreTill ≤ s.six ∧ s.helloReason 3 hello1 = none ∧
     ran (exec (.helloReceived 3 hello1) s) (fun t => t.sec.incarnation == nextInc s.sec.incarnation && t.portState 3 == pCALIB &&
       t.portInc 3 == t.sec.incarnation % 65536 && (t.port 3).calPhase == 4) = true) := by decide +kernel

theorem witness_calibration :
    (let s := inPort (st 1000) 43 pCALIB { Port.reset with pingOut := true, pingTag := 255, calPhase := 4, calCount := 62, calSum := 100 }
     ((s.port 43).pingOut = true ∧ s.portState 43 = pCALIB ∧ (s.port 43).calPhase = 4 ∧ (s.port 43).calCount < 63) ∧
     ran (exec (.echoReceived 43 255 16040 16000) s) (fun t => (t.port 43).calCount == 63 && (t.port 43).calSum == 140 && !(t.port 43).pingOut) = true) ∧
    (let s := inPort (st 1000) 2 pCALIB { Port.reset with pingMiss := 16 }
     (s.portState 2 = pCALIB ∧ 16 ≤ (s.port 2).pingMiss) ∧ ran (exec (.calibrationFailed 2) s) (fun t => t.portState 2 == pSYNC &&
       t.get (F.HJL_P_REFUSE.REASON 2) == 6 && (t.port 2).ignoreTill == 201000) = true) := by decide +kernel

theorem witness_link_words :
    (let s := inPort (st 1000) 7 pCALIB { Port.reset with calPhase := 4, pingTag := 255 }
     s.pingDue 7 = true ∧ ran (exec (.pingSend 7) s) (fun t => t.outbox == [.word 7 24 (mkWord 4 0 0 0xFF)] && (t.port 7).pingOut) = true) ∧
    (let s := inPort (st 1000) 7 pRUN { Port.reset with compPend := some (0x1234, 300) }
     nextAfter 256 300 + 256 ≤ s.six ∧ ran (exec (.compResend 7) s) (fun t => t.outbox == [.word 7 25 (mkWord 6 0 0x1234 0xFF)] &&
       (t.port 7).compPend == some (0x1234, 1000)) = true) ∧
    (let s := inPort (st 1000) 43 pRUN Port.reset
     (s.portState 43 = pRUN ∧ (s.port 43).timeSent = false) ∧ ran (exec (.peerTimeSend 3) s) (fun t => (t.port 43).timeSent &&
       (let pl := beBytes 8 1000 ++ beBytes 1 0
        t.outbox == [.msg 43 6 (crc16 pl) pl (msgWords 1 6 pl)] && (msgWords 1 6 pl).length == 5)) = true) ∧
    (let s := inPort ((st 1000).set F.PWR_STATE.OPSTATE 0) 12 pRUN { Port.reset with group := some ⟨900, 1016, 5, [(1, 2), (3, 4)]⟩ }
     ((s.port 12).group.isSome = true ∧ s.portState 12 = pRUN ∧ s.opstate = 0) ∧ ran (exec (.commandGroupSend 12) s) (fun t =>
       (t.port 12).group == none && t.outbox.map (fun o => match o with | .word _ _ w => w.typ | _ => 0) == [10, 10, 9]) = true) ∧
    (let s := ((inPort (st 1000) 12 pRUN { Port.reset with trips := [⟨31, 9, 995, 995, false, false⟩] }).set F.INJ_STATUS.ARMED 1).set (F.HJL_P_STATE.INC 12) 0x2345
     ((s.port 12).trips = [⟨31, 9, 995, 995, false, false⟩] ∧ s.portSends 12 = true ∧ s.flag F.INJ_STATUS.ARMED = true) ∧ ran (exec (.tripRepeatSlot1 12) s) (fun t =>
       t.outbox == [.word 12 1 (tripWord 0x2345 31 9)] && t.get (F.HJL_P_TRIP.SLOT1 12) == 1) = true) := by decide +kernel

theorem witness_frames_and_samples :
    (let s := inPort (st 1000) 4 pRUN { Port.reset with mismatches := 2 }
     (s.portState 4 = pRUN ∧ s.expectedSix 4 0 = 998) ∧ ran (exec (.frameReceived 4 998 0 none ⟨0, 0⟩) s) (fun t =>
       (t.port 4).frameSix == 998 && (t.port 4).frameValid && (t.port 4).mismatches == 0 && (t.port 4).lastFrame == 1000) = true) ∧
    (let s := inPort (st 1000) 4 pSYNC Port.reset
     s.portState 4 = pSYNC ∧ ran (exec (.frameReceived 4 5 0 none ⟨0, 0⟩) s) (fun t => (t.port 4).lastFrame == 1000) = true) ∧
    (let s := inPort (st 1000) 4 pRUN { Port.reset with frameValid := true, frameAt := 999, frameSix := 998, useFrom := 998 }
     (s.portServes 4 = true ∧ s.inFrame 4 = true ∧ (s.port 4).useFrom ≤ (s.port 4).frameSix ∧ s.feeds 4 998 = some 4) ∧
     ran (exec (.sampleReceived 4 7 0xfffffe) s) (fun t => (t.listed (chKey 4 7) 998).map (fun z => (z.six, z.code)) == some (998, -2) &&
       t.get64 (A.SFB_C_SIX 4) == 998 && t.get (F.SFB_C_STATE.SOURCE 4) == 4) = true) := by decide +kernel

theorem witness_status_words :
    (let s := inPort (st 1000) 4 pRUN Port.reset
     s.portState 4 ≠ pQUAR ∧ ran (exec (.chstatReceived 4 0x81 0x40) s) (fun t => (t.port 4).ovr == 0x81 &&
       (t.port 4).settle == 0x40) = true) ∧
    (let s := inPort (st 1000) 4 pCALIB Port.reset
     (s.portState 4 = pCALIB ∧ (s.port 4).compPend = none) ∧ ran (exec (.unitstatReceived 4 0 0 10) s) (fun t => (t.port 4).test && (t.port 4).toggle) = true) ∧
    (let s := (inPort (st 1000) 4 pCALIB Port.reset).set (F.HJL_P_ERR.CRC_ERR 4) 65535
     s.portState 4 ≠ pQUAR ∧ ran (exec (.wordDiscarded 4 24 true) s) (fun t => t.get (F.HJL_P_ERR.CRC_ERR 4) == 65535) = true ∧
     ran (exec (.wordDiscarded 4 3 false) s) (fun t => t.get (F.HJL_P_ERR.CODE_ERR 4) == 1 && t.get (F.HJL_P_ERR.CRC_ERR 4) == 65535) = true) ∧
    (let s := inPort (st 1000) 4 pRUN { Port.reset with frameAt := 998, frameSix := 996, frameValid := false }
     ran (exec (.wordDiscarded 4 0 true) s) (fun t => (t.port 4).frameSix == 998 && (t.port 4).frameAt == 1000 && t.inFrame 4) = true) ∧
    (let s := inPort (st 1000) 43 pRUN { Port.reset with rx := some (7, 936) }
     (s.port 43).rx = some (7, 936) ∧ ran (exec (.messageTimeout 43) s) (fun t => (t.port 43).rx == none) = true) := by decide +kernel

theorem witness_loss_and_return :
    (let s := (inPort (st 20) 31 pRUN { Port.reset with lastFrame := 16 }).set (F.HJL_P_CFG.DEAD_MS 31) 10
     (s.portServes 31 = true ∧ (s.port 31).lastFrame + 3 < s.six) ∧ ran (exec (.portLost 31) s) (fun t => t.portState 31 == pLOST &&
       (t.port 31).deadEnd == 20020 && (t.port 31).lostFrom == pRUN && t.flag (F.HJL_P_EVT.LOST 31)) = true) ∧
    (let s := inPort (st 1000) 31 pLOST { Port.reset with goodRun := 16, deadEnd := 1001, lostFrom := pSTANDBY, frameSix := 998 }
     (s.portState 31 = pLOST ∧ 16 ≤ (s.port 31).goodRun ∧ s.six < (s.port 31).deadEnd) ∧ ran (exec (.portRecovered 31) s) (fun t =>
       t.portState 31 == pSTANDBY && (t.port 31).useFrom == 999) = true) ∧
    (let s := (inPort (st 1000) 31 pLOST { Port.reset with deadEnd := 1000, trips := [⟨1, 1, 1, 1, false, false⟩] }).set (F.HJL_P_STATE.INC 31) 5
     (s.portState 31 = pLOST ∧ (s.port 31).deadEnd ≤ s.six ∧ s.spareFor (s.station 31) = none) ∧ ran (exec (.portDead 31) s) (fun t =>
       t.portState 31 == pDEAD && t.portInc 31 == 0 && (t.port 31).retired == 5 && (t.port 31).trips == []) = true) := by decide +kernel

theorem witness_readmit_and_rebind :
    (let s := priv (inPort (st 1000) 43 pQUAR { Port.reset with aligned := true })
     (s.gate 1 A.HJL_READMIT 0x12b (some 0) false).1 = true ∧ s.portState 43 = pQUAR ∧ ran (exec (.hjlReadmit 1 0x12b) s) (fun t =>
       t.portState 43 == pDOWN && !(t.port 43).aligned && t.get F.HJL_READMIT.PORT == 43) = true) ∧
    (let s := ((((priv (inPort (st 1000) 3 pSTANDBY Port.reset)).set (F.HJL_SPARE.EN 7) 1).set (F.HJL_SPARE.STATION 7) 3).set (F.HJL_SPARE.BOUND 7) 1).set
       (F.HJL_SPARE.SPARE_PORT 7) 30
     ((s.gate 1 A.HJL_REBIND 0x10003 (some 0) false).1 = true ∧ s.rebind = none ∧ s.portState 3 = pSTANDBY ∧ s.get (F.HJL_P_CFG.ROLE 3) ≠ 2) ∧
     ran (exec (.hjlRebind 1 0x10003) s) (fun t => t.rebind == some 3 && t.get F.HJL_REBIND.PENDING == 1) = true) ∧
    (let s := ((((inPort (inPort (st 2000000) 3 pSTANDBY Port.reset) 30 pBOUND Port.reset).set (F.HJL_SPARE.EN 7) 1).set (F.HJL_SPARE.STATION 7) 3).set
       (F.HJL_SPARE.BOUND 7) 1).set (F.HJL_SPARE.SPARE_PORT 7) 30
     let s := { s with rebind := some 3 }
     (s.rebind = some 3 ∧ s.six % hyperPeriod = 0 ∧ s.boundEntry 3 = some 7 ∧ s.portState 3 = pSTANDBY ∧ s.get (F.HJL_SPARE.SPARE_PORT 7) = 30 ∧ s.portState 30 = pBOUND) ∧
     ran (exec .stationRebind s) (fun t => t.rebind == none && t.portState 3 == pRUN && t.portState 30 == pSTANDBY &&
       t.get (F.HJL_SPARE.BOUND 7) == 0) = true) := by decide +kernel

theorem witness_trip_acknowledgement :
    (let s := (inPort (st 1000) 12 pRUN { Port.reset with trips := [⟨31, 9, 995, 995, false, false⟩, ⟨30, 9, 995, 995, false, false⟩] }).set (F.HJL_P_STATE.INC 12) 7
     ((7#16).toNat = s.portInc 12 ∧ s.portState 12 ≠ pQUAR) ∧ ran (exec (.ackReceived 12 (BitVec.ofNat 16 (codeword 31)) 9 7) s) (fun t =>
       (t.port 12).pending == [⟨30, 9, 995, 995, false, false⟩]) = true) ∧
    (let s := inPort (st 1000) 12 pRUN { Port.reset with trips := [⟨31, 9, 800, 800, false, false⟩] }
     (s.port 12).trips = [⟨31, 9, 800, 800, false, false⟩] ∧ ran (exec (.tripUnack 12) s) (fun t => (t.port 12).trips == [⟨31, 9, 800, 800, true, false⟩] &&
       t.flag (F.HJL_P_EVT.TRIP_UNACK 12)) = true) ∧
    (let s := inPort (st 1000) 43 pRUN Port.reset
     (s.portState 43 = pRUN ∧ (s.port 43).whole 6 = true ∧ (s.port 43).peerSamples = []) ∧ ran (exec (.peerTimeReceived 3 500 0) s) (fun t =>
       (t.port 43).peerSamples == [-500 * 65536]) = true) ∧
    (let s := ((inPort (st 1000) 43 pRUN Port.reset).set (F.SFB_C_CFG.KIND 9) 6).set (F.SFB_C_STATE.STATE 9) 2
     let s := { s with fp := { s.fp with peers := [(9, (43, 65535))] } }
     (s.portState 43 = pRUN ∧ (s.port 43).whole 7 = true ∧ s.kind 9 = 6 ∧ s.ctxState 9 = 2 ∧ (s.ctx 9).missFrom = none) ∧ ran (exec (.shelfReceived 3 65535 900 [4, 5]) s) (fun t =>
       (t.ctx 9).data.head?.map (fun e => (e.tag, e.words)) == some (900, [4, 5])) = true) := by decide +kernel

/-! ## Sample fabric, binary inputs, interjection unit -/

/-- In SERVICE at SIX `k`. -/
def serv (k : Nat) : State := (st k).set F.PWR_STATE.OPSTATE 0

/-- The samples of channel `c` of context `n`: SIX, code and whether usable. -/
def withSamps (s : State) (n c : Nat) (l : List (Nat × Int × Bool)) : State :=
  { s with fab := { s.fab with
    samp := (s.fab.samp.filter (fun e => e.1 != chKey n c)) ++
      [(chKey n c, l.map (fun e => (e.1, some ⟨e.1, e.2.1, 0, e.2.2, false, false, e.1⟩)))] } }

/-- Context 5 of kind 1 with one channel that has filed the last sample of the base cycle before SIX 400. -/
def oneSample : State :=
  let s := ((serv 400).set (F.SFB_C_CFG.KIND 5) 1).set (F.SFB_C_CFG.NCH 5) 1
  let x : Samp := ⟨399, 1000, 0, true, false, false, 400⟩
  { s with fab := { s.fab with samp := [(chKey 5 0, [(399, some x)])] } }

theorem witness_derived_values :
    let s := oneSample
    s.fabricOn = true ∧ s.kind 5 = 1 ∧ s.nch 5 = 1 ∧ (s.ctx 5).old = none ∧ 100 ≤ s.six / 100 * 100 ∧ (s.perSix 5 0 399).isSome = true ∧
      s.derivAt 5 0 399 = none ∧
    ran (exec (.derivedValuesCompute 5) s) (fun u => u.derivAt 5 0 399 == some (s.derive 5 0 399).1 && (s.derive 5 0 399).1.tag == 399) = true := by decide +kernel

/-- Context 6 takes sampled values at 4000 a second, none of which has come. -/
def svStream : State :=
  let s := ((serv 400).set (F.SFB_C_CFG.KIND 6) 2).set (F.SFB_C_CFG.NCH 6) 1
  let sub : SvSub := { mac := 0, appid := 0, svId := "a", confRev := 1, rate := 4000, asdus := 1 }
  { s with fp := { s.fp with svSub := [(6, sub)] } }

/-- The same with the two values about SIX 399. -/
def svTwo : State :=
  let s := svStream
  s.setCtx 6 { s.ctx 6 with sv := [⟨(s.tod 399).1, 1, 0, 200, 1, 380⟩, ⟨(s.tod 399).1, 0, 0, 100, 1, 370⟩] }

theorem witness_grid_value :
    (∀ s ∈ [svStream.set (F.SFB_C_STATE.STATE 6) 2, svTwo], s.fabricOn = true ∧ s.kind 6 = 2 ∧ s.nch 6 = 1 ∧ (s.ctx 6).old = none ∧
      (s.fp.svSub.lookup 6).isSome = true ∧ 25 ≤ s.six ∧ s.six % 25 = 0 ∧ s.get (F.SFB_C_SVDLY.D 6) ≤ 399 ∧ s.listed (chKey 6 0) 399 = none) ∧
    (let s := svStream.set (F.SFB_C_STATE.STATE 6) 2
     bit (s.gridSamp 6 0 399 4000).q 2 = true ∧ 2 ≤ s.ctxState 6 ∧ ran (exec (.gridValueCompute 6) s) (fun t =>
       (t.listed (chKey 6 0) 399).map (fun z => bit z.q 2) == some true) = true) ∧
    bit (svTwo.gridSamp 6 0 399 4000).q 2 = false ∧ ran (exec (.gridValueCompute 6) svTwo) (fun t =>
      (t.listed (chKey 6 0) 399).map (fun x => (x.six, x.code)) == some (399, 180) && t.get64 (A.SFB_C_SIX 6) == 399) = true := by decide +kernel

theorem witness_binary_inputs :
    (let s := st 1000
     (s.clk.running = true ∧ s.bin.last ≠ some s.six) ∧ ran (exec (.binaryInputSample 0x80000001 0) s) (fun t => t.bin.last == some 1000 &&
       t.rd A.BIN_RAW == BitVec.ofNat 32 (s.rawWord 0x80000001)) = true) ∧
    (let s := ((serv 1000).setBinIn 31 { BinIn.reset with runLevel := true, runStart := 996 }).set (F.BIN_I_CFG.DEB 31) 4
     let s := { s with bin := { s.bin with last := some 1000 } }
     (s.bin.last = some s.six ∧ s.opstate = 0 ∧ (s.binIn 31).runLevel ≠ (s.binIn 31).q ∧ s.get (F.BIN_I_CFG.DEB 31) ≤ s.six - (s.binIn 31).runStart ∧
       s.flag (F.BIN_I_CFG.CHAT_EN 31) = false ∧ (s.binIn 31).blocked = false ∧ s.flag (bitField A.BIN_PERSIST 31) = false) ∧ ran (exec (.binConfirm 31) s) (fun t => (t.binIn 31).q && (t.binIn 31).confirmed == 1000 && t.get (F.BIN_I_CNT.TRANS 31) == 1 &&
       t.flag (bitField A.BIN_STATE 31) && t.flag (bitField A.BIN_VALID 31)) = true) ∧
    (let s := (serv 1000).setBinIn 31 { BinIn.reset with runLevel := true, runStart := 996, blocked := true }
     let s := { s with bin := { s.bin with last := some 1000 } }
     (s.binIn 31).blocked = true ∧ ran (exec (.binConfirm 31) s) (fun t => (t.binIn 31).q && !t.flag (bitField A.BIN_STATE 31)) = true) ∧
    (let s := ((serv 3001000).setBinIn 0 { BinIn.reset with blocked := true, q := true, confirmed := 1001000 }).set (F.BIN_I_TIME.HOLD_S 0) 1
     ((s.binIn 0).blocked = true ∧ (s.binIn 0).confirmed + s.get (F.BIN_I_TIME.HOLD_S 0) * 2000000 ≤ s.six) ∧
     ran (exec (.chatterHoldEnd 0) s) (fun t => !(t.binIn 0).blocked && t.flag (bitField A.BIN_STATE 0)) = true) ∧
    (let s := (((serv 3001000).setBinIn 0 { BinIn.reset with persSince := some 1001000 }).set (F.BIN_I_CFG.PERS_EN 0) 1).set (F.BIN_I_TIME.PERS_S 0) 1
     (s.flag (F.BIN_I_CFG.PERS_EN 0) = true ∧ s.flag (bitField A.BIN_PERSIST 0) = false ∧ (s.binIn 0).persSince = some 1001000) ∧
     ran (exec (.persistentSet 0) s) (fun t => t.flag (bitField A.BIN_PERSIST 0) && t.flag (bitField A.BIN_PERS_EVT 0)) = true) := by decide +kernel

def samp (code : Int) (usable : Bool) : Samp := ⟨0, code, 0, usable, false, false, 0⟩

theorem test_level_counts :
    (let e := levelStep 1 1 100 10 ElSt.reset (samp 100 true); e.out = true ∧ (levelStep 1 1 100 10 e (samp 90 true)).out = true ∧
      (levelStep 1 1 100 10 e (samp 89 true)).out = false ∧ (levelStep 1 1 100 10 e (samp 100 false)).out = false) ∧
    (let e := levelStep 2 2 (-100) 10 ElSt.reset (samp (-100) true); e.out = false ∧ e.cnt = 1 ∧ (levelStep 2 2 (-100) 10 e (samp (-101) true)).out = true ∧
      (levelStep 2 2 (-100) 10 e (samp (-99) true)).cnt = 0) ∧
    (levelStep 3 255 100 0 { ElSt.reset with cnt := 254 } (samp (-100) true)).out = true ∧
    (levelStep 3 255 100 0 { ElSt.reset with cnt := 254 } (samp 99 true)).cnt = 0 := by decide +kernel

/-- Armed at SIX 1000, pair 63 of channels 10 and 11 (context 1) at SIX 1000, with the steps of the two channels. -/
def pairAt (v i : Int) (usable : Bool) : State :=
  let s := ((((((serv 1000).set F.INJ_STATUS.ARMED 1).set (F.INJ_D_CH.EN 63) 1).set (F.INJ_D_CH.VCH 63) 10).set (F.INJ_D_CH.ICH 63) 11).set
    (F.INJ_D_KZ.KZ 63) 65536).set (F.INJ_D_BMIN.BMIN 63) 300
  let s := ((s.set (F.INJ_D_CTL.RATIO 63) 16).set (F.INJ_D_CTL.HOLD 63) 5).setPair 63 { PairSt.reset with next := 1000 }
  withSamps (withSamps s 1 2 [(999, 0, usable), (1000, v, usable)]) 1 3 [(999, 0, usable), (1000, i, usable)]

def pairRuns (s : State) : Bool :=
  s.flag F.INJ_STATUS.ARMED && decide (s.inj.since < (s.pair 63).next) && decide ((s.pair 63).next ≤ s.six) && s.flag (F.INJ_D_CH.EN 63)

theorem witness_elements :
    (let s := ((serv 1000).setChan 255 { ChanEl.reset with step := { ElSt.reset with out := true, holdEnd := 990 }, next := 991 }).set (F.INJ_C_STAT.STEP 255) 1
     let s := withSamps ((s.set F.INJ_STATUS.ARMED 1).set (F.INJ_C_STEP_TH.TH 255) 2) 31 7 [(990, 5, true), (991, 6, true)]
     (s.flag F.INJ_STATUS.ARMED = true ∧ s.flag (F.INJ_C_STAT.STEP 255) = true ∧ (s.chan 255).step.holdEnd + 1 = 991 ∧ (s.chan 255).next = 991 ∧
       s.inj.since < 991 ∧ (s.fast 255 991).map (·.six) = some 991 ∧ s.get (F.INJ_C_STEP_CTL.QM1 255) = 0 ∧
       (s.usableWindow 255 991 1).map (windowStep 1) = some 1) ∧
     ran (exec (.stepHoldExpiry 255) s) (fun t => (t.chan 255).next == 992 && !t.flag (F.INJ_C_STAT.STEP 255)) = true) ∧
    (let s := pairAt 200 (-200) true
     pairRuns s = true ∧ (s.usableWindow 10 1000 1).map (windowStep 1) = some 200 ∧ (s.usableWindow 11 1000 1).map (windowStep 1) = some (-200) ∧
     ran (exec (.directionalEvaluate 63) s) (fun t => (t.pair 63).next == 1001 && t.flag (F.INJ_D_CTL.FWD 63) && !t.flag (F.INJ_D_CTL.REV 63) &&
       (t.pair 63).fwd.holdEnd == 1004) = true) ∧
    (let s := (pairAt 200 200 true).set (F.INJ_D_CTL.FWD 63) 1
     let s := s.setPair 63 { s.pair 63 with fwd := { ElSt.reset with out := true, holdEnd := 1003 } }
     pairRuns s = true ∧ ran (exec (.directionalEvaluate 63) s) (fun t => !t.flag (F.INJ_D_CTL.FWD 63) && t.flag (F.INJ_D_CTL.REV 63)) = true) ∧
    (let s := (pairAt 200 200 false).set (F.INJ_D_CTL.FWD 63) 1
     let s := s.setPair 63 { s.pair 63 with fwd := { ElSt.reset with out := true, holdEnd := 999 } }
     (pairRuns s = true ∧ s.usableWindow 10 1000 1 = none ∧ (s.fast 10 1000).isSome = true ∧ (s.fast 11 1000).isSome = true) ∧
     ran (exec (.directionalHoldExpiry 63) s) (fun t => (t.pair 63).next == 1001 && !t.flag (F.INJ_D_CTL.FWD 63)) = true) ∧
    (let s := (pairAt 200 200 false).set (F.INJ_D_CTL.REV 63) 1
     let s := s.setPair 63 { s.pair 63 with rev := { ElSt.reset with out := true, holdEnd := 999 } }
     pairRuns s = true ∧ s.flag (F.INJ_D_CTL.FWD 63) = false ∧
     ran (exec (.directionalHoldExpiry 63) s) (fun t => (t.pair 63).next == 1001 && !t.flag (F.INJ_D_CTL.REV 63)) = true) := by decide +kernel

/-- Rule 127 takes gate 0 alone and stands at SIX 1000. -/
def ruleAt1000 (gate : Nat) (x : RuleSt) : State :=
  let s := ((((serv 1000).set F.INJ_STATUS.ARMED 1).set (F.INJ_R_CTRL.EN 127) 1).set (F.INJ_R_CTRL.GATE_EN 127) 1).set (F.INJ_R_CTRL.DROPOUT 127) 4
  let s := s.setRule 127 { x with next := 1000 }
  { s with inj := { s.inj with gates := [(0, gate)] } }

theorem witness_rules :
    (let s := ruleAt1000 1 { RuleSt.reset with armed := true }
     (s.ruleReady 127).1 = true ∧ ((s.ruleReady 127).2.injAt 1000).ruleTrue 127 1000 = true ∧
     ran (exec (.ruleEvaluate 127) s) (fun t => (t.rule 127).next == 1001 && (t.rule 127).tru && t.flag (F.INJ_R_STAT.TRUE 127) &&
       !(t.rule 127).armed) = true) ∧
    (let s := ruleAt1000 0 { RuleSt.reset with lowRun := 3 }
     let u := (s.ruleReady 127).2
     ((s.ruleReady 127).1 = true ∧ s.rule 127 = u.rule 127 ∧ s.ruleFrom 127 1000 = u.ruleFrom 127 1000 ∧ (u.ruleFrom 127 1000).armed = false ∧
       (u.injAt 1000).ruleTrue 127 1000 = false ∧ (u.injAt 1000).get (F.INJ_R_CTRL.DROPOUT 127) = 4 ∧ (u.ruleFrom 127 1000).lowRun = 3) ∧
     ran (exec (.ruleRearm 127) s) (fun t => (t.rule 127).armed && (t.rule 127).next == 1001) = true) := by decide +kernel

theorem witness_votes :
    (let s := (((inPort (serv 1000) 43 pRUN Port.reset).set (F.INJ_G_CFG.EN 15) 1).set (F.INJ_G_CFG.WIRE 15) 63).set (F.INJ_G_CFG.PEERMASK 15) 8
     ((List.range 16).find? (fun i => s.flag (F.INJ_G_CFG.EN i) && s.get (F.INJ_G_CFG.WIRE i) == 63) = some 15 ∧ s.portState 43 = pRUN ∧
      bit (s.get (F.INJ_G_CFG.PEERMASK 15)) 3 = true ∧ (s.group 15).votes = [] ∧ (s.group 15).pickups = [] ∧ (s.group 15).picks = []) ∧
     ran (exec (.voteReceived 3 63 1 990 7) s) (fun t => (t.group 15).votes == [⟨3, 1, 990, 1000, 7⟩]) = true) ∧
    (let s := ((serv 1000).setGroup 15 { GroupSt.reset with pickups := [⟨980, 127, false⟩] }).set (F.INJ_G_WIN.VWAIT 15) 20
     ((s.group 15).pickups = [⟨980, 127, false⟩] ∧ 980 + s.get (F.INJ_G_WIN.VWAIT 15) ≤ s.six) ∧
     ran (exec (.pickupExpired 15) s) (fun t => (t.group 15).pickups == [] && !t.flag (F.INJ_R_STAT.PICKUP 127)) = true) := by decide +kernel

theorem witness_trip_outputs :
    (let s := (((serv 1000).setTdo 7 { TdoSt.reset with latest := some 900 }).set (F.INJ_T_STAT.CMD 7) 1).set (F.INJ_T_CFG.TMIN 7) 1
     (s.flag (F.INJ_T_STAT.CMD 7) = true ∧ s.tdoFalls 7 = some 1000 ∧ (s.tdo 7).latest = some 900 ∧
       s.flag (F.INJ_T_CFG.LATCH 7) = false) ∧ ran (exec (.tdoRelease 7) s) (fun t => !t.flag (bitField A.INJ_TDO 7) && !t.flag (F.INJ_T_STAT.CMD 7)) = true) ∧
    (let s := (((serv 1000).setTdo 7 { TdoSt.reset with latest := some 900 }).set (F.INJ_T_STAT.CMD 7) 1).set (F.INJ_T_CFG.LATCH 7) 1
     (s.flag (F.INJ_T_STAT.CMD 7) = true ∧ s.tdoFalls 7 = some 900 ∧ s.flag (F.INJ_T_CFG.LATCH 7) = true ∧ (s.tdo 7).rstReq = false) ∧
     ran (exec (.tdoRelease 7) s) (fun t => t.flag (F.INJ_T_STAT.LATCHED 7) && t.flag (F.INJ_T_STAT.CMD 7)) = true) ∧
    (let s := ((priv (serv 1000)).set (F.INJ_T_STAT.CMD 7) 1).set (F.INJ_T_STAT.LATCHED 7) 1
     ((s.gate 1 A.INJ_TDO_RST 0x80 (some 0) false).1 = true ∧ s.flag (F.INJ_T_STAT.LATCHED 7) = true ∧ s.tdoDriven 7 = false) ∧
     ran (exec (.injTdoRst 1 0x80) s) (fun t => !t.flag (F.INJ_T_STAT.LATCHED 7) && !t.flag (F.INJ_T_STAT.CMD 7)) = true) ∧
    (let s := ((((serv 1000).set (F.INJ_T_STAT.CMD 7) 1).set (F.INJ_T_CFG.RB_EN 7) 1).set (F.INJ_T_CFG.RB_T 7) 5).setTdo 7 { TdoSt.reset with misRun := 5 }
     (s.flag (F.INJ_T_STAT.CMD 7) = true ∧ s.flag (F.INJ_T_CFG.RB_EN 7) = true ∧ s.get (F.INJ_T_CFG.RB_T 7) ≤ (s.tdo 7).misRun ∧
       s.flag (F.INJ_T_STAT.FAIL_ON 7) = false) ∧ ran (exec (.tdoFail 7) s) (fun t => t.flag (F.INJ_T_STAT.FAIL_ON 7) && t.flag F.INJ_EVT.TDO_FAIL) = true) ∧
    (let s := (((serv 1000).set (F.INJ_T_STAT.FAIL_ON 7) 1).set (F.INJ_T_CFG.RB_T 7) 5).setTdo 7 { TdoSt.reset with matchRun := 5 }
     s.get (F.INJ_T_CFG.RB_T 7) ≤ (s.tdo 7).matchRun ∧ ran (exec (.tdoFailClear 7) s) (fun t => !t.flag (F.INJ_T_STAT.FAIL_ON 7) &&
       !t.flag (F.INJ_T_STAT.FAIL_OFF 7)) = true) := by decide +kernel

theorem witness_stem_capture :
    (let s := (serv 1000).set F.INJ_SCAP_CTL.STATE 2
     let s := { s with inj := { s.inj with scapDec := 900 } }
     (s.get F.INJ_SCAP_CTL.STATE = 2 ∧ s.inj.scapLeft = 0) ∧ ran (exec .scapFrozen s) (fun t => t.get F.INJ_SCAP_CTL.STATE == 3 &&
       t.get64 A.INJ_SCAP_SIX == 900 && t.flag F.INJ_EVT.SCAP_FROZEN) = true) ∧
    (let s := (priv (serv 1000)).set F.INJ_SCAP_CTL.STATE 3
     (s.gate 1 A.INJ_SCAP_CTL 4 (some 0) false).1 = true ∧ ran (exec (.scapRearm 1 4) s) (fun t => t.inj.scap == [] &&
       t.get F.INJ_SCAP_CTL.STATE == s.get F.INJ_STATUS.ARMED % 2) = true) := by decide +kernel

theorem test_codewords : ∀ i j : Fin 8, i ≠ j → 8 ≤ popCount 16 (codeword i ^^^ codeword j) := by decide +kernel

/-! ## Tasks, lanes, DMA, memory protection -/

/-- A program that passes every check: partition 1 of cyclic task 3 and event task 40. -/
def gTask : Task := ⟨40, true, 9, 1, 1, ⟨true, [], [], [], []⟩, 0, 1, 0, [], [], [], 0⟩
def gPart : Partition :=
  { tPart with
    regions := [⟨true, 0, 0, 0, false, false, true, 63⟩], tasks := [tTask, gTask]
    nouns := [tNoun, ⟨10, 0x200, 0, 40, 1, 0, false, []⟩]
    symbols := [⟨11, 1, .noun 9 0, true, 0⟩, ⟨12, 1, .out 8, true, 0⟩] }
def gProg : ProgImage := ⟨[gPart], 0⟩

/-- That program runs on lane 0 since SIX 0; lane 3 is the spare. -/
def prog (k : Nat) : State :=
  let s := ((serv k).set (F.LNE_L_STATE.ROLE 0) 1).set (F.LNE_L_STATE.PART 0) 1
  let s := (s.setLane 0 ⟨some gPart, none, 0⟩).set (F.LNE_L_STATE.ROLE 3) 2
  { s with tsk := { s.tsk with prog := some gProg, up := true, start := 0, panSix := some k } }

theorem test_program : progOk gProg = true := by decide +kernel

theorem witness_releases :
    (let s := prog 800
     (s.task 3 = some tTask ∧ s.cycleDue tTask = true ∧ s.mayRelease tTask = true ∧ s.inTakeover (s.partNo 3) = false ∧
      s.serviceLane (s.partNo 3) = some 0 ∧ s.shadowHas 3 = false) ∧ ran (exec (.cycleRelease 3) s) (fun t => t.get64 (A.TSK_T_REL 3) == 800 &&
       (t.cycle 3).any (fun d => d.rel == 800 && d.period == 400 && d.part == 1)) = true) ∧
    (let s := (prog 900).setTaskRt 40 { TaskRt.reset with pend := [0] }
     (s.task 40 = some gTask ∧ s.eventDue gTask = true ∧ s.mayRelease gTask = true ∧ s.serviceLane (s.partNo 40) = some 0 ∧ s.shadowHas 40 = false) ∧
     ran (exec (.eventTaskRelease 8) s) (fun t => t.get64 (A.TSK_T_REL 40) == 900 && t.get (F.TSK_T_STAT.PENDING 40) == 0 &&
       (t.cycle 40).any (fun d => d.rel == 900 && d.event)) = true) := by decide +kernel

/-- A live cycle of task 3 on lane 0 released at SIX 400, whose period ends at SIX 800. -/
def gCyc (status : Nat) : Cycle := { cyc 0 0 with lane := 0, rel := 400, status := status, flg := 0, ost := [(8, some 6)] }

def withCyc (s : State) (c : Cycle) : State := { s with tsk := { s.tsk with cyc := [(3, some c)] } }

theorem witness_deadline_and_output :
    (let s := withCyc (prog 798) (gCyc 2)
     (s.cycle 3 = some (gCyc 2) ∧ (gCyc 2).status < 3 ∧ (gCyc 2).rel + (gCyc 2).period = s.six + 2) ∧
     ran (exec (.deadline 3 false) s) (fun t => t.get (F.LNE_L_EXC.CODE 0) == 6 && t.get (F.TSK_T_CNT.OVR 3) == 1 && t.flag F.TSK_EVT.OVERRUN &&
       (t.cycle 3).map (·.status) == some 4) = true) ∧
    (let s := withCyc (prog 800) (gCyc 3)
     (s.tsk.up = true ∧ s.six % 100 = 0 ∧ s.liveCycles = [gCyc 3] ∧ s.cycle (gCyc 3).key = some (gCyc 3)) ∧
     ran (exec .outputRelease s) (fun t => t.cycle 3 == none && kvGet (fun _ => 0) t.tsk.out 8 == 6 && t.get (F.TSK_T_STAT.HELD 3) == 0) = true) ∧
    (let s := inPort (prog 800) 40 pRUN Port.reset
     (s.shelves.find? (fun e => e.id == 7) = some tShelf ∧ bit tShelf.peers 0 = true ∧ s.six % shelfPeriod s.tasks tShelf = 0 ∧
      s.outputsOpen = false ∧ s.portState 40 = pRUN) ∧ ran (exec (.peerShelfSend 0 7) s) (fun t => t.outbox.length == 1) = true) := by decide +kernel

theorem witness_lane_failure :
    (let s := prog 810
     (s.get (F.LNE_L_STATE.ROLE 3) = 2 ∧ s.olc.rpl = none ∧ s.olc.phase = 0) ∧ ran (exec (.laneFail 3 ⟨1, 0⟩) s) (fun t =>
       t.get (F.LNE_L_STATE.ROLE 3) == 3 && t.get (F.LNE_L_STATE.CAUSE 3) == 2 && t.flag F.LNE_EVT.LANE_FAIL && t.flag F.LNE_EVT.NO_SPARE &&
       t.get64 A.LNE_DET_SIX == 810) = true) ∧
    (let s := (prog 810).set (F.LNE_L_STATE.ROLE 3) 0
     (s.get (F.LNE_L_STATE.ROLE 0) = 1 ∧ s.spareLane = none) ∧ ran (exec (.laneFail 0 ⟨0, 0⟩) s) (fun t =>
       t.get (F.LNE_L_STATE.ROLE 0) == 3 && t.get (F.LNE_L_STATE.CAUSE 0) == 1 && t.flag F.LNE_EVT.LANE_FAIL &&
       bit (t.get F.PWR_STATE.STEM_CAUSE) stemLANE) = true) ∧
    (let s := prog 810
     (s.get (F.LNE_L_STATE.ROLE 0) = 1 ∧ s.spareLane = some 3 ∧ s.runningPart (s.get (F.LNE_L_STATE.PART 0)) = some gPart ∧ s.tsk.tko = none ∧
       s.olc.rpl = none ∧ s.olc.phase = 0) ∧ ran (exec (.laneFail 0 ⟨3, 0x40⟩) s) (fun t => t.get (F.LNE_L_STATE.ROLE 3) == 4 &&
       t.get (F.DMA_C_STAT.STATE 3) == 1 && t.get (F.LNE_L_STATE.CAUSE 0) == 4 &&
       t.tsk.tko.map (fun k => (k.failed, k.spare, k.part, k.resumes)) == some (0, 3, 1, 1100)) = true) ∧
    (let s := prog 900
     let k : Takeover := ⟨0, 3, 1, 700, 0⟩
     let s := { s with tsk := { s.tsk with tko := some k } }
     (s.tsk.up = true ∧ k.resumes ≤ s.six ∧ s.six % 100 = 0 ∧ s.outputsOpen = false ∧ s.snapDue = false) ∧ ran (exec .takeover s) (fun t => t.tsk.tko == none &&
       t.get (F.LNE_L_STATE.ROLE 3) == 1 && t.get (F.LNE_L_STATE.PART 3) == 1 && t.get F.LNE_TKO.FROM == 0 && t.get F.LNE_TKO.TO == 3 &&
       t.get64 A.LNE_TKO_SIX == 900 && t.flag F.LNE_EVT.TAKEOVER) = true) ∧
    (let s := prog 200000
     let s := { s with tsk := { s.tsk with panSix := none } }
     (s.snapDue = true ∧ s.outputsOpen = false) ∧ ran (exec .pantrySnapshot s) (fun t => t.tsk.panSix == some 200000 &&
       t.tsk.panWriting == some (s.nextSnap 200000 false) && t.panAt (s.nextSnap 200000 false).1 == none && t.get (F.DMA_C_STAT.STATE 4) == 1) = true) := by decide +kernel

/-- A descriptor in host memory at 0x1000: 64 bytes of the export area to host 0x2000. -/
def withDesc (s : State) : State :=
  ((s.storeBytes spHost 0x1000 (leBytes 4 (spDRAM + 16 * spHost) ++ leBytes 4 64 ++ leBytes 8 expArea ++ leBytes 8 0x2000 ++ leBytes 4 0 ++
    leBytes 4 0)).storeBytes spDRAM expArea [1, 2, 3]).set64 (A.DMA_C_DESC 8) 0x1000

def dDesc : Desc := ⟨0x1000, spDRAM + 16 * spHost, 128, expArea, 0x2000, 0, 0⟩

def dmaRun (s : State) : State := ((withDesc s).setDma 8 { DmaChan.reset with desc := some dDesc }).set (F.DMA_C_STAT.STATE 8) 1

theorem witness_dma :
    (let s := (withDesc (serv 1000)).set (F.DMA_C_CTL.OWNER 8) 4
     ((s.dmaGate 0 8 0x104).1 = true ∧ s.get (F.DMA_C_STAT.STATE 8) ≠ 1 ∧ s.dmaCheck 4 (s.hostDesc 0x1000) = none) ∧
     ran (exec (.dmaGo 0 0 0x104 true) s) (fun t => t.get (F.DMA_C_STAT.STATE 8) == 1 && t.get (F.DMA_C_CUR.INDEX 8) == 0 &&
       t.get (F.DMA_C_CTL.OWNER 8) == 4 && t.get (F.DMA_C_RESID.RESID 8) == 64 && !(s.hostDesc 0x1000).tag &&
       (t.dmaAt 8).desc == some (s.hostDesc 0x1000) && t.mem == s.mem) = true) ∧
    (let s := (dmaRun (serv 1000)).set (F.DMA_C_CTL.OWNER 8) 4
     ((s.dmaGate 0 8 0x204).1 = true ∧ s.get (F.DMA_C_STAT.STATE 8) = 1) ∧ (s.dmaAt 8).desc = some dDesc) ∧
    (let s := dmaRun (serv 1000)
     (s.get (F.DMA_C_STAT.STATE 8) = 1 ∧ (s.dmaAt 8).desc = some dDesc ∧ dDesc.chain = false ∧ dDesc.tag = false ∧ dDesc.srcSp ≠ dDesc.dstSp) ∧
     ran (exec (.dmaDescriptorDone 8 ⟨true, dDesc⟩) s) (fun t => t.get (F.DMA_C_STAT.STATE 8) == 2 && t.flag (bitField A.DMA_EVT 8) &&
       t.byteAt spHost 0x2001 == 2) = true ∧
     ran (exec (.dmaBeatFault 8 3 1 ⟨false, dDesc⟩) s) (fun t => t.get (F.DMA_C_STAT.STATE 8) == 3 && t.get (F.DMA_C_STAT.CODE 8) == 3 &&
       t.get (F.DMA_C_RESID.RESID 8) == 64 && t.get64 (A.DMA_C_FADDR 8) == 0x2040 && t.byteAt spHost 0x2001 == 2) = true) ∧
    (let s := ((serv 1000).set (F.DMA_C_STAT.STATE 4) 1).set (F.DMA_C_CUR.INDEX 4) 6
     (s.dmaAt 4).desc = none ∧ ran (exec (.dmaDescriptorDone 4 ⟨true, { dDesc with ctrl := 0 }⟩) s) (fun t => t.get (F.DMA_C_STAT.STATE 4) == 2 &&
       t.get (F.DMA_C_RESID.RESID 4) == 0 && t.get (F.DMA_C_CUR.INDEX 4) == 0 && t.get (F.DMA_C_STAT.DONE_CNT 4) == 1) = true ∧
     ran (exec (.dmaDescriptorDone 4 ⟨true, { dDesc with ctrl := 0x100 }⟩) s) (fun t => t.get (F.DMA_C_CUR.INDEX 4) == 7) = true ∧
     ({ dDesc with ctrl := 0x100 } : Desc).chain = true) := by decide +kernel

theorem test_scrubbing :
    (let s := (serv 1000).setEcc 0 15
     ran (exec (.scrubError 0 0x3ffffffff false .other) s) (fun t => t.rd (A.MPU_ECC_ADDR 0) == 0xffffffff && t.get (F.MPU_ECC_CNT.CE 0) == 1 &&
       t.eccIn 0 == 16 && t.flag F.MPU_EVT.CE_STORM) = true) ∧
    ran (exec (.scrubError 13 0x3ffffffff true .other) (serv 1000)) (fun t => t.rd (A.MPU_ECC_ADDR 13) == 0x7fffffff &&
      t.get (F.MPU_ECC_CNT.UE 13) == 1 && t.flag F.MPU_EVT.UE) = true ∧
    ran (exec (.scrubPassDone 12) ((serv 1000).setEcc 12 3)) (fun t => t.eccIn 12 == 0 && t.get ⟨A.MPU_ECC_PASS 12, 0, 32⟩ == 1) = true := by decide +kernel

/-! ## Online change, forces, replay -/

theorem witness_value_changes :
    (let s := ((priv (prog 810)).wr (A.OLC_VC_E_ID_LO 0) 9).set (F.OLC_VC_E_OFS.OFFSET 0) 4
     ((s.gate 1 A.OLC_VC_CTL 0x101 (some 1) false).1 = true ∧ s.olc.vc = none ∧ s.vcReason 1 = 0) ∧
     ran (exec (.vcApply 1 0x101) s) (fun t => t.get F.OLC_VC_CTL.BUSY == 1 && t.get F.OLC_VC_CTL.REASON == 0 &&
       t.olc.vc.map (fun x => (x.kick, x.entries)) == some (810, s.vcEntries 1)) = true) ∧
    (let s := priv (prog 810)
     let s := { s with olc := { s.olc with vc := some ⟨700, 3, [(9, 4, 77)], [1]⟩ } }
     (s.gate 1 A.OLC_VC_CTL 0x200 (some 1) false).1 = true ∧ ran (exec (.vcCancel 1 0x200) s) (fun t => t.olc.vc == none &&
       t.get F.OLC_VC_CTL.REASON == 6 && t.get F.OLC_VC_CTL.BUSY == 0) = true) ∧
    (let s := prog 800
     let s := { s with olc := { s.olc with vc := some ⟨700, 3, [(9, 4, 77)], [1]⟩ } }
     (s.task 3 = some tTask ∧ s.serviceLane (s.partNo 3) = some 0 ∧ s.batchDue 3 = true ∧ s.releaseDue tTask = true ∧ s.outputsOpen = false ∧
      s.snapDue = false ∧ s.handoverDue = false ∧ s.nounById 9 = some (gPart, tNoun) ∧ s.olc.shadow = false) ∧
     ran (exec .vcApplied s) (fun t => t.olc.vc == none && t.loadWord (spData 0) 0x104 == 77 && t.get64 A.OLC_VC_SIX == 800 &&
       t.flag F.OLC_EVT.VC_APPLIED) = true) := by decide +kernel

/-- The image of a new partition 1, signed with key slot 0. -/
def pImage : Image := ⟨4, 2, 0, 0, 0, 0, 5, true, true, true, .partition gPart⟩

def keyed (s : State) : State := (s.set (F.SEC_KEY.STATE 0) 1).set (F.SEC_KEY.USAGE 0) 7

def inPhase (s : State) (ph : Nat) : State := { s with olc := { s.olc with phase := ph, img := some gPart, lane := 3, h0 := 200000 } }

theorem witness_code_change :
    (let s := priv (prog 810)
     ((s.gate 1 A.OLC_CHG_CTL 0x10101 (some 1) false).1 = true ∧ s.olc.phase = 0 ∧ (s.serviceLane 1).isSome = true ∧ s.spareLane.isSome = true) ∧
     ran (exec (.chgLoad 1 0x10101 (some pImage)) s) (fun t => t.olc.phase == 1 && t.get F.OLC_STATUS.CHG_STATE == 1 && t.olc.cand == some pImage &&
       t.get F.OLC_CHG_REASON.REASON == 0 && t.get F.OLC_STATUS.CHG_PART == 1) = true) ∧
    (let s := (keyed (prog 810)).set F.OLC_STATUS.CHG_PART 1
     let s := { s with olc := { s.olc with phase := 2, cand := some pImage } }
     (s.chgReason pImage = 0 ∧ s.spareLane = some 3) ∧ ran (exec .chgLoadDone s) (fun t => t.olc.phase == 3 && t.get F.OLC_STATUS.CHG_STATE == 3 &&
       t.olc.img == some gPart && t.olc.lane == 3 && t.olc.h0 == 200000 && (t.lane 3).img == some gPart) = true) ∧
    (let s := inPhase (prog 200000) 3
     (s.runningPart 1 = some gPart ∧ s.olc.h0 ≤ s.six ∧ s.six % hyperPeriod = 0 ∧ s.outputsOpen = false ∧ s.snapDue = false) ∧
     ran (exec .shadowStart s) (fun t => t.olc.shadow && t.olc.phase == 4 && t.get F.OLC_STATUS.CHG_STATE == 4 && t.olc.out == s.tsk.out) = true) ∧
    (let s := (inPhase (prog 400000) 4).set F.OLC_CHG_CTL.SHADOW_HP 1
     s.olc.h0 + hyperPeriod * s.get F.OLC_CHG_CTL.SHADOW_HP ≤ s.six ∧ ran (exec .shadowDone s) (fun t => t.olc.phase == 5 &&
       t.flag F.OLC_EVT.SHADOW_DONE) = true) := by decide +kernel

theorem witness_code_switch :
    (let s := inPhase (priv (prog 400100)) 5
     (s.gate 1 A.OLC_CHG_CTL 0x400 (some 1) false).1 = true ∧ ran (exec (.chgCancel 1 0x400) s) (fun t => t.olc.phase == 0 && t.olc.img == none &&
       t.get F.OLC_STATUS.CHG_STATE == 0) = true) ∧
    (let s := inPhase (priv (prog 400100)) 5
     let s := { s with olc := { s.olc with shadow := true } }
     ((s.gate 1 A.OLC_CHG_CTL 0x201 (some 1) false).1 = true ∧ (s.chgFields 0x201).switchReason gPart = 0) ∧
     ran (exec (.chgSwitch 1 0x201) s) (fun t => t.olc.phase == 6 && t.olc.switchAt == some 600000) = true) ∧
    (let s := inPhase (prog 600000) 6
     let s := { s with olc := { s.olc with switchAt := some 600000, shadow := true } }
     (s.six % hyperPeriod = 0 ∧ s.outputsOpen = false ∧ s.snapDue = false ∧ s.switchReason gPart = 0 ∧ s.runningPart 1 = some gPart) ∧
     ran (exec .codeSwitch s) (fun t => t.olc.phase == 0 && t.olc.img == none && t.tsk.prog == some (progWith gProg gPart) &&
       t.flag F.OLC_EVT.SWITCHED) = true) := by decide +kernel

theorem witness_forces :
    (let s := (priv (prog 810)).set64 (A.FRC_E_SYM 255) 11
     ((s.gate 1 (A.FRC_E_CTL 255) 0x101 (some 1) false).1 = true ∧ s.forceBusy 255 = false ∧ (s.symbol 11).isSome = true ∧ armReason 1 (s.symbol 11) = 0) ∧
     ran (exec (.forceArm 1 255 0x101) s) (fun t => t.flag (F.FRC_E_CTL.PENDING 255) && t.get (F.FRC_E_CTL.REASON 255) == 0 &&
       (t.frcAt 255).bound == some ⟨11, 1, .noun 9 0, true, 0⟩ && (t.frcAt 255).armSix == 810) = true) ∧
    (let s := (priv (prog 810)).set (F.FRC_E_CTL.ACTIVE 0) 1
     ((s.gate 1 (A.FRC_E_CTL 0) 0x200 (some 1) false).1 = true ∧ s.forceBusy 0 = true ∧ (s.frcAt 0).endSix = none) ∧
     ran (exec (.forceDisarm 1 0 0x200) s) (fun t => (t.frcAt 0).endSix == some 810) = true) ∧
    (let s := (priv (prog 810)).setFn 1 { FnSt.reset with wrTag := some (A.FRC_E_VAL 7), wrLow := 5 }
     ((s.gate 1 (A.FRC_E_VAL 7 + 4) 6 (some 1) false).1 = true ∧ (s.fn 1).wrTag = some (A.FRC_E_VAL 7)) ∧
     ran (exec (.forceValueWrite 1 7 6) s) (fun t => t.get64 (A.FRC_E_VAL 7) == 0x600000005) = true) := by decide +kernel

theorem witness_forces_act :
    (let s := ((prog 800).set (F.FRC_E_CTL.PENDING 7) 1).set64 (A.FRC_E_VAL 7) 5
     let s := s.setFrc 7 { FrcSt.reset with bound := some ⟨11, 1, .noun 9 0, true, 0⟩, armSix := 780 }
     (s.forceSix 7 = true ∧ s.flag (F.FRC_E_CTL.PENDING 7) = true ∧ (s.frcAt 7).endSix = none ∧ (s.frcAt 7).armSix + 20 ≤ s.six)) ∧
    (let s := (prog 800).set (F.FRC_E_CTL.ACTIVE 7) 1
     let s := s.setFrc 7 { FrcSt.reset with bound := some ⟨11, 1, .noun 9 0, true, 0⟩, endSix := some 780 }
     s.forceSix 7 = true ∧ (s.frcAt 7).endSix = some 780) ∧
    (let s := (priv (prog 810)).set (F.FRC_E_CTL.PENDING 255) 1
     (s.gate 1 A.FRC_CLEAR_ALL 1 (some 1) false).1 = true ∧ s.forceBusy 255 = true) := by decide +kernel

/-! ## Replay, the Loft -/

/-- A record of recipe 0, triggered at SIX 100, from SIX 50 to SIX 150. -/
def rec0 (recno state : Nat) : LftRec :=
  { recno := recno, recipe := 0, state := state, replay := true, extended := false, host := false, clipped := false, prot := false, outside := false,
    cmask := 0, trig := 100, start := 50, fin := 150, rearm := 0, dead := 0, pcc := 0, epoch := 0, todSec := 0, todNs := 0, part := 1, offset := 0,
    fpSeq := 0, fpDigest := 0, progDigest := 0, fasts := [], slows := [], pvs := [], bins := [], infos := [], fast := [], qual0 := [], quals := [],
    slow := [], bin0 := 0, binCh := [], gaps := [], events := [], hists := [], caps := [], capFrom := none, size := 1000, room := 0, cutAt := none,
    stop := none, extend := false, post := 50, histMask := 0, decls := [] }

def withRecs (s : State) (l : List LftRec) : State := { s with lft := { s.lft with arc := l } }

def rpl0 (todo : List RplCap) : Replay := ⟨{ gPart with tasks := [] }, rec0 7 2, todo, [], [], [], 0, false, [], [], 0, []⟩

theorem witness_replay :
    (let s := (withRecs (priv (prog 810)) [rec0 7 2]).wr A.OLC_RPL_REC 7
     let s := { s with tsk := { s.tsk with prog := some ⟨[{ gPart with tasks := [] }], 0⟩ } }
     ((s.gate 1 A.OLC_RPL_CTL 0x105 (some 1) false).1 = true ∧ s.rplReason 1 true none = 0 ∧ s.spareLane = some 3) ∧
     ran (exec (.rplStart 1 0x105 none) s) (fun t => t.get F.OLC_STATUS.RPL_STATE == 2 && t.get F.OLC_RPL_REASON.REASON == 0 && t.olc.lane == 3 &&
       t.olc.rpl.map (·.record) == some (rec0 7 2)) = true) ∧
    (let s := (priv (prog 810)).setRpl (rpl0 [])
     (s.gate 1 A.OLC_RPL_CTL 0x200 (some 1) false).1 = true ∧ ran (exec (.rplCancel 1 0x200) s) (fun t => t.olc.rpl == none &&
       t.get F.OLC_STATUS.RPL_STATE == 5) = true) ∧
    (let s := (prog 810).setRpl (rpl0 [.nouns 100 1 []])
     (s.olc.rpl = some (rpl0 [.nouns 100 1 []]) ∧ (rpl0 []).img.part = 1 ∧ (rpl0 []).whole = false) ∧ ran (exec .replayCycle s) (fun t =>
       t.olc.rpl.map (fun q => (q.todo, q.whole)) == some ([], true)) = true) ∧
    (let r : Replay := { rpl0 [.image 400 3 1 [] 0] with img := gPart, whole := true }
     let s := (prog 810).setRpl r
     (s.olc.rpl = some r ∧ r.img.tasks.find? (fun y => y.tid == 3) = some tTask) ∧ ran (exec .replayCycle s) (fun t =>
       t.get64 A.OLC_RPL_POS == 400) = true) ∧
    (let s := (prog 810).setRpl (rpl0 [.effects 100 3 1 true []])
     s.olc.rpl = some (rpl0 [.effects 100 3 1 true []]) ∧ ran (exec .replayCycle s) (fun t => t.olc.rpl.map (·.todo) == some [] &&
       t.get F.OLC_RPL_CNT.NOCOMP == 1) = true) ∧
    (let s := (prog 810).setRpl (rpl0 [])
     s.olc.rpl = some (rpl0 []) ∧ ran (exec .replayDone s) (fun t => t.olc.rpl == none && t.get F.OLC_STATUS.RPL_STATE == 3 &&
       t.flag F.OLC_EVT.REPLAY_DONE) = true) := by decide +kernel

/-- The Loft runs. -/
def loft (k : Nat) : State := (serv k).set F.LFT_STATUS.RUN 1

theorem witness_ring_line :
    (let s := loft 1000
     let s := { s with lft := { s.lft with next := 1000 } }
     s.lftRuns = true ∧ s.lft.next ≤ s.six ∧ s.lineKnown 1000 = true) := by decide +kernel

theorem witness_slow_line :
    (let s := loft 1050
     let s := { s with lft := { s.lft with slowNext := 1000 } }
     s.lftRuns = true ∧ s.lft.slowNext < s.six ∧ (List.range 256).all (fun j => (s.slowAt j 999).isSome) = true) := by decide +kernel

/-- Recipe 7 stands in clause 0 at SIX 1000, with the clause's timeout and its target; clause 2 is the last. -/
def recipe7 (limit target : Nat) (host : Bool) : State :=
  let s := (((loft 1000).set (F.LFT_R_CTL.EN 7) 1).set (F.LFT_R_C_TIMEOUT.TIMEOUT 7 0) limit).set (F.LFT_R_C_COUNT.TO_TARGET 7 0) target
  (s.set (F.LFT_R_CTL.LAST 7) 2).setRecipe 7 { Recipe.reset with next := 1000, host := host }

/-- The move that recipe 7 makes. -/
def moves7 (s : State) : Option Nat :=
  let u := (s.sentenceReady 7).2
  u.sentenceMove 7 1000 0 (u.sentenceRun 7 1000) (u.sentenceTimer 7)

theorem witness_sentences :
    (∀ s ∈ [recipe7 0 0 false, recipe7 1 1 false, recipe7 1 2 false, recipe7 0 0 true], (s.sentenceReady 7).1 = true ∧
      ((s.sentenceReady 7).2.recipe 7) = s.recipe 7) ∧
    (moves7 (recipe7 0 0 false) = none ∧ ran (exec (.sentenceStep 7) (recipe7 0 0 false)) (fun t => (t.recipe 7).next == 1001 &&
      (t.recipe 7).clause == 0) = true) ∧
    (moves7 (recipe7 1 1 false) = some 1 ∧ 1 ≤ (recipe7 1 1 false).sentenceTimer 7 ∧
      ran (exec (.clauseTimeout 7) (recipe7 1 1 false)) (fun t => (t.recipe 7).clause == 1 && (t.recipe 7).next == 1001) = true) ∧
    (moves7 (recipe7 1 2 false) = some 2 ∧ (recipe7 1 2 false).get (F.LFT_R_CTL.LAST 7) = 2 ∧ ((recipe7 0 0 true).recipe 7).host = true) ∧
    (let s := (priv (loft 1000)).set (F.LFT_R_CTL.EN 7) 1
     ((s.gate 1 A.LFT_TRIG 0x80 (some 0) false).1 = true ∧ s.sentenceRuns 7 = true) ∧ ran (exec (.lftTrig 1 0x80) s) (fun t => (t.recipe 7).host) = true) := by decide +kernel

theorem witness_records :
    (let s := (withRecs (loft 1000) [rec0 7 1]).setRecipe 0 { Recipe.reset with recno := some 7, pos := 151, next := 1001 }
     (s.openRec 0 = some (rec0 7 1) ∧ s.lftRuns = true ∧ (rec0 7 1).upTo < (s.recipe 0).pos ∧ s.histWaits (rec0 7 1) = false) ∧ ran (exec (.recordClose 0) s) (fun t =>
       (t.recipe 0).recno == none && t.flag F.LFT_EVT.RECORD && (t.rec? 7).map (fun e => (e.state, e.rearm, e.dead)) == some (2, 1000, 900)) = true) ∧
    (let s := (withRecs (loft 16800000) [{ rec0 7 1 with fin := 16799999 }]).setRecipe 0 { Recipe.reset with recno := some 7, pos := 51 }
     (s.openRec 0 = some { rec0 7 1 with fin := 16799999 } ∧ s.lftRuns = true ∧ (s.recipe 0).pos ≤ LftRec.upTo { rec0 7 1 with fin := 16799999 } ∧
       (s.recipe 0).pos + 16711680 ≤ s.six) ∧ ran (exec (.gapSkip 0) s) (fun t =>
       (t.recipe 0).pos == 16800000 - 16646144 && (t.recipe 0).recno == some 7) = true) ∧
    (let s := (loft 1000).set F.INJ_SCAP_CTL.STATE 3
     (s.opstate = 0 ∧ s.lftRuns = true ∧ s.get F.INJ_SCAP_CTL.STATE = 3) ∧ ran (exec .scapArchived s) (fun t => t.inj.scap == [] &&
       t.lft.nextNo == s.lft.nextNo + 1 && t.flag F.LFT_EVT.SCAP_ARCHIVED) = true) := by decide +kernel

theorem witness_archive :
    (let s := (withRecs (loft 1000) [rec0 7 2]).set F.LFT_REC_SEL.RECNO 7
     ((s.gate 0 A.LFT_REC_CTL 1 none false).1 = true ∧ s.rec? 7 = some (rec0 7 2)) ∧ ran (exec (.recLoad 0 1) s) (fun t =>
       t.get F.LFT_REC_CTL.RESULT == 1) = true) ∧
    (let s := (withRecs (priv (loft 1000)) [rec0 7 2]).set F.LFT_REC_SEL.RECNO 7
     ((s.gate 1 A.LFT_REC_CTL 2 (some 0) false).1 = true ∧ s.arcProt + (rec0 7 2).space ≤ protMax) ∧
     ran (exec (.recProtect 1 2) s) (fun t => t.rec? 7 == some { rec0 7 2 with prot := true } && t.get F.LFT_REC_CTL.RESULT == 1) = true ∧
     ran (exec (.recUnprotect 1 4) s) (fun t => t.rec? 7 == some (rec0 7 2) && t.get F.LFT_REC_CTL.RESULT == 1) = true ∧
     ran (exec (.recDelete 1 8) s) (fun t => t.rec? 7 == none && t.get F.LFT_REC_CTL.RESULT == 1) = true) ∧
    (let s := (priv (loft 1000)).set (F.LFT_H_CFG.KIND 15) 1
     ((s.gate 1 (A.LFT_H_CTL 15) 1 (some 0) false).1 = true ∧ s.lftRuns = true ∧ s.get (F.LFT_H_CFG.KIND 15) ≠ 0) ∧
     ran (exec (.histClear 1 15 1) s) (fun t => (t.hist 15).clear == some 1001) = true) ∧
    (let s := (priv (serv 1000)).setHist 15 ⟨[(3, 4)], 9, none⟩
     s.lftRuns = false ∧ ran (exec (.histClear 1 15 1) s) (fun t => (t.hist 15).bins == [] && t.get (F.LFT_H_COUNT.COUNT 15) == 0) = true) := by decide +kernel

theorem witness_export :
    (let s := ((withRecs (loft 1000) [rec0 7 2]).set F.LFT_EXP_REC.RECNO 7)
     ((s.gate 0 A.LFT_EXP_CTL 0x100 none false).1 = true ∧ s.flag F.LFT_STATUS.EXP_BUSY = false ∧ s.exportReason ⟨7, 0, false, 0, 0⟩ = 0)) ∧
    (let s := (withRecs (loft 1000) [rec0 7 2]).set F.LFT_STATUS.EXP_BUSY 1
     let s := { s with lft := { s.lft with exp := some ⟨7, 0, false, 0, 0⟩ } }
     ((s.gate 0 A.LFT_EXP_CTL 0x200 none false).1 = true ∧ s.flag F.LFT_STATUS.EXP_BUSY = true ∧ s.rec? 7 = some (rec0 7 2))) := by decide +kernel

/-! ## The Cellar, time -/

def raised1 (sev : Nat) : Raised := ⟨.num 0x900, sev, some 5, [], false, false, 0, none⟩

def entry1 : Entry := ⟨0x100000009, 0, 0, 0, 0, 0, 0, 3, 0x587, 0, 0, [], []⟩

def full : State :=
  let s := serv 1000
  { s with cel := { s.cel with queue := List.replicate 1023 (raised1 3) ++ [raised1 2] } }

theorem test_full_queue :
    ran (exec (.cellarEnqueue (raised1 1)) full) (fun t => t.cel.queue == full.cel.queue && t.get F.CEL_DROP.QUEUE == 1) = true ∧
    ran (exec (.cellarEnqueue (raised1 3)) full) (fun t => t.cel.queue.length == 1024 && t.cel.queue.all (fun e => e.sev == 3)) = true := by decide +kernel

theorem witness_cellar :
    (let s := (((serv 1000).set F.CEL_STATUS.READY 1).set F.CEL_STATUS.A_OK 1).set F.CEL_STATUS.B_OK 1
     let s := { s with cel := { s.cel with queue := [raised1 3] } }
     (s.flag F.CEL_STATUS.READY = true ∧ s.cel.freezeReq = false ∧ s.celWaits (raised1 3) = false ∧ (s.celPass 0x900 1000).1 = true ∧
       s.flag F.CEL_STATUS.FROZEN = false ∧ s.flag F.CEL_STATUS.MUTE = false ∧ s.bankOk 0 = true ∧ s.bankOk 1 = true ∧ s.celSlots.length < celSlotMax) ∧ ran (exec (.cellarAdmit ⟨[], []⟩ 0 0) s) (fun t => t.cel.queue == [] &&
       t.cel.seqP0 == s.cel.seqP0 + 1 && (t.bank 1).length == 1 &&
       t.bank 0 == t.bank 1 && (t.bank 0).all (fun e => e.2.any (fun x => x.seq == 1 && x.code == 0x900 && x.sev == 3))) = true) ∧
    (let s := ((serv 1000).set F.CEL_STATUS.READY 1).set F.CEL_STATUS.FROZEN 1
     let s := { s with cel := { s.cel with queue := [raised1 3] } }
     s.celWaits (raised1 3) = false ∧ (s.celPass 0x900 1000).1 = true ∧ ran (exec (.cellarAdmit ⟨[], []⟩ 1 2) s) (fun t => t.cel.queue == [] &&
       t.cel.cubby.map (fun x => (x.seq, x.code)) == [(1, 0x900)]) = true) ∧
    (let s := (((serv 1000).set F.CEL_STATUS.READY 1).set (F.CEL_PF_CFG.BURST 1) 2).wr (A.CEL_PF_PER 1) 100
     let s := (s.set (F.CEL_PMAP.PROF 0x120 0) 1).setBucket 0x900 ⟨0, 1000, 0⟩
     let s := { s with cel := { s.cel with queue := [raised1 3] } }
     s.celWaits (raised1 3) = false ∧ (s.celPass 0x900 1000).1 = false ∧ ran (exec (.cellarAdmit ⟨[], []⟩ 1 2) s) (fun t => t.cel.queue == [] &&
       t.cel.seqP0 == 0 && (t.bucket 0x900).supp == 1) = true) ∧
    (let s := (serv 20000000).setBucket 0x587 { Bucket.full with supp := 3 }
     (s.clk.running = true ∧ s.six % 20000000 = 0 ∧ s.cel.suppSix ≠ some s.six ∧ s.suppCodes = [(0x587, 3)] ∧ s.cel.fullSince = 0 ∧ s.cel.queueSince = 0) ∧ ran (exec .suppressed s) (fun t =>
       t.suppCodes == [] && t.cel.queue.length == 1) = true) ∧
    (let s := ((serv 1000).set F.CEL_STATUS.A_OK 1).setFn 0 { FnSt.reset with wrTag := some A.CEL_CURSOR, wrLow := 5 }
     let s := { s with cel := { s.cel with bankA := [(0, some entry1)] } }
     ((s.gate 0 (A.CEL_CURSOR + 4) 1 none false).1 = true ∧ (s.fn 0).wrTag = some A.CEL_CURSOR) ∧ ran (exec (.celCursorWrite 0 1) s) (fun t =>
       t.get64 A.CEL_CURSOR == 0x100000005 && t.get64 A.CEL_SHOWN == 0x100000009) = true) ∧
    (let s := serv 1000
     ((s.gate 0 A.CEL_CTL 5 none false).1 = true ∧ s.flag F.CEL_STATUS.FROZEN = false) ∧ ran (exec (.celStep 0 4) s) (fun _ => true) = true ∧
     (let u := s.set F.CEL_STATUS.A_OK 1
      let u := { u with cel := { u.cel with bankA := [(7, some entry1)] } }
      lowestSeq (fun y => decide (u.get64 (A.CEL_SHOWN + fnShift (u.view 0)) + 1 ≤ y.seq)) u.celSlots = some (7, entry1) ∧
      ran (exec (.celStep 0 4) u) (fun t => t.get64 (A.CEL_CURSOR + fnShift (u.view 0)) == 0x100000009) = true) ∧
     ran (exec (.freeze 0 1) s) (fun t => t.cel.freezeReq && t.cel.freezeSix == 1000) = true) ∧
    (let s := (serv 120001000).set F.CEL_STATUS.FROZEN 1
     let s := { s with cel := { s.cel with freezeSix := 1000 } }
     ((s.gate 0 A.CEL_CTL 2 none false).1 = true ∧ s.flag F.CEL_STATUS.FROZEN = true ∧ s.cel.freezeReq = false) ∧
     ran (exec (.thaw 0 2 ⟨[], []⟩) s) (fun t => !t.flag F.CEL_STATUS.FROZEN && t.cel.cubby == []) = true ∧
     ran (exec (.freezeTimeout ⟨[], []⟩) s) (fun t => !t.flag F.CEL_STATUS.FROZEN && t.flag F.CEL_EVT.FORCED_THAW) = true) ∧
    (let s := (serv 1000).set F.CEL_STATUS.RESYNC 1
     let s := { s with cel := { s.cel with failA := 1 } }
     s.flag F.CEL_STATUS.RESYNC = true ∧ ran (exec .rejoin s) (fun t => !t.flag F.CEL_STATUS.RESYNC && t.flag F.CEL_STATUS.MIRRORED &&
       t.bank 0 == s.bank 1) = true) ∧
    (let s := (serv 1000).set F.CEL_STATUS.RESYNC 1
     let s := { s with cel := { s.cel with failB := 1, bankA := [(7, some entry1)] } }
     s.cel.failA = 0 ∧ ran (exec .rejoin s) (fun t => t.bank 0 == s.bank 0 && t.bank 1 == s.bank 0) = true) := by decide +kernel

def ann0 : AnnData := ⟨128, 6, 0x20, 0, 128, 9, 0, 37, true, true, false, false, none⟩
def ptp (kind seq : Nat) (two : Bool) : PtpMsg := ⟨kind, 0, two, 0, 9, 1, seq, 0, 100, 5, some ann0, 10, 0⟩

def ptpIn (m : PtpMsg) : State :=
  let s := (((serv 1000).set F.TIM_CFG.SRC 1).set F.TIM_CFG.PAIR 1).set F.ETH_STATUS.POWERED 1
  let s := s.set (F.ETH_E_STAT.LINK 2) 1
  { s with tim := { s.tim with inbox := [(2, 990, m)], anns := [⟨2, 9, 1, 900, 1000000, ann0⟩] } }

theorem witness_ptp :
    (let s := ptpIn (ptp ptpSync 4 true)
     (s.fromMaster 2 (ptp ptpSync 4 true) = true) ∧ ran (exec (.ptpSyncReceived 2 0 0) s) (fun t => t.tim.inbox == [] &&
       t.tim.halves.head? == some ⟨false, 2, 9, 1, 4, s.rxTime 2 990 10, 0, 0⟩) = true) ∧
    (let s := ptpIn (ptp ptpSync 4 false)
     s.fromMaster 2 (ptp ptpSync 4 false) = true ∧ ran (exec (.ptpSyncReceived 2 0 0) s) (fun t => t.tim.syncSix == 990 && t.tim.inbox == []) = true) ∧
    (let s := ptpIn (ptp ptpFollowUp 4 false)
     let s := { s with tim := { s.tim with halves := [⟨false, 2, 9, 1, 4, 0, 0, 0⟩] } }
     s.tim.halves = [⟨false, 2, 9, 1, 4, 0, 0, 0⟩] ∧ ran (exec (.ptpFollowUpReceived 2 0 0) s) (fun t => t.tim.halves == [] && t.tim.inbox == []) = true) ∧
    (let s := ptpIn (ptp ptpAnnounce 4 false)
     s.tim.inbox = [(2, 990, ptp ptpAnnounce 4 false)] ∧ ran (exec (.ptpAnnounceReceived 2) s) (fun t => t.tim.anns.length == 1 &&
       t.tim.anns.head?.map (·.six) == some 990) = true) ∧
    (let s := ptpIn (ptp ptpPdResp 4 false)
     let s := { s with tim := { s.tim with pd := [(2, ⟨5, 4, some 494000⟩)] } }
     (kvGet (fun _ => PdReq.reset) s.tim.pd 2).sent = some 494000 ∧ ran (exec (.pdelayRespReceived 2) s) (fun t => t.flag (F.TIM_E_PDLY.VALID 2) &&
       t.get (F.TIM_E_PDLY.NS 2) == 505) = true) := by decide +kernel

theorem witness_sources :
    (let s := (((serv 1000).set F.ETH_STATUS.POWERED 1).set F.TIM_CFG.TC_EN 2).set (F.ETH_PAIR_CFG.MODE 1) 2
     s.ptpPort 3 = true ∧ ran (exec (.pdelayReqSend 3 499) s) (fun t => t.outbox == [.eth 3 none 0 (.pdelayReq 1)]) = true) ∧
    (let s := (serv 1000).set F.TIM_CFG.SRC 2
     s.get F.TIM_CFG.SRC = 2 ∧ ran (exec (.ppsEdge 499 0 0) s) (fun t => t.tim.ppsSix == 1000 && t.tim.pps) = true) ∧
    (let s := serv 6001000
     let s := { s with tim := { s.tim with pps := true, ppsSix := 1000 } }
     (s.tim.pps = true ∧ s.tim.ppsSix + 6000000 ≤ s.six) ∧ ran (exec (.sourceLost true) s) (fun t => !t.tim.pps) = true) ∧
    ran (exec .refFail (serv 1000)) (fun t => !t.flag F.TIM_STATUS.REF_OK) = true ∧
    ran (exec .refOk ((serv 1000).set F.TIM_CFG.REF_EN 1)) (fun t => t.flag F.TIM_STATUS.REF_OK) = true := by decide +kernel

theorem witness_time_steps :
    (let s := (priv (serv 1000)).set F.TIM_STATUS.STATE 5
     ((s.gate 1 A.TIM_CTL 1 (some 0) false).1 = true ∧ s.timState = stSlew ∧ s.stepWaits 2 = false) ∧
     (let u := { s with tim := { s.tim with steps := [⟨999, 0, 2⟩] } }
      u.stepWaits 2 = true ∧ ran (exec (.accept 1 1) u) (fun t => t.tim.steps == u.tim.steps) = true) ∧ ran (exec (.accept 1 1) s) (fun t => t.tim.steps == [⟨1000, 0, 2⟩] &&
       t.get F.TIM_CTL.RESULT == 3) = true) ∧
    (let s := (priv (serv 1000)).set F.TIM_STATUS.STATE 4
     ((s.gate 1 A.TIM_CTL 2 (some 0) false).1 = true ∧ s.timState = stAsym) ∧ ran (exec (.ackAsym 1 2) s) (fun t => t.get F.TIM_CTL.RESULT == 1) = true) ∧
    (let s := (priv (serv 1000)).set64 A.TIM_HSTEP 0xffffffffffffffff
     ((s.gate 1 A.TIM_CTL 4 (some 0) false).1 = true ∧ s.stepWaits 3 = false ∧ s.get F.TIM_STATUS.SRC_ACT ≠ 1 ∧ s.clk.running = true) ∧
     ran (exec (.hstep 1 4) s) (fun t => t.tim.steps == [⟨1000, -1, 3⟩] && t.get F.TIM_CTL.RESULT == 3) = true) ∧
    (let s := serv 1000
     let u : State := ({ s with tim := { s.tim with steps := [⟨999, 0, 2⟩], latest := 40 } }).set F.TIM_STATUS.STATE 5
     let s := { s with tim := { s.tim with steps := [⟨999, -1, 3⟩], stepSix := none } }
     u.timState = stSlew ∧ u.tim.stepSix ≠ some u.six ∧ ran (exec .timeStep u) (fun t => t.offset == u.offset - 40 && t.tim.steps == [] &&
       t.get F.TIM_CTL.RESULT == 1) = true ∧
     s.tim.stepSix ≠ some s.six ∧ ran (exec .timeStep s) (fun t => t.epoch == 1 && t.get F.TIM_STATUS.EPOCH == 1 && t.offset == s.offset - 1 &&
       t.get F.TIM_CTL.RESULT == 1 && t.flag F.TIM_EVT.STEP) = true) ∧
    (let s := ((serv 2001000).set F.TIM_STATUS.STATE 3).set F.TIM_STATUS.VALID 1
     let s := { (s.set F.TIM_HOLD.HOLD_MAX 1) with tim := { s.tim with holdSix := 1000 } }
     (s.timState = stHold ∧ s.tim.holdSix + s.get F.TIM_HOLD.HOLD_MAX * 2000000 ≤ s.six ∧ s.flag F.TIM_STATUS.VALID = true) ∧
     ran (exec .holdoverExpired s) (fun t => !t.flag F.TIM_STATUS.VALID && t.flag F.TIM_EVT.INVALID && t.timState == stHold) = true) ∧
    (let s := (serv 2000000).set F.TIM_STATUS.VALID 1
     s.flag F.TIM_STATUS.VALID = true ∧ s.tim.rtcSix + 2000000 ≤ s.six ∧ ran (exec .rtcUpdate s) (fun t => t.cel.rtcNs == todNs s.six s.offset && t.tim.rtcSix == 2000000) = true) ∧
    (let s := (serv 2000000).set F.TIM_CFG.PPS_MODE 1
     s.wholeSecond = true ∧ s.get F.TIM_CFG.PPS_MODE = 1 ∧ ran (exec .ppsOutPulse s) (fun t => t.tim.ppsOut && t.tim.ppsEnd == 2200000) = true) := by decide +kernel

theorem witness_timed_events :
    (let s := priv (serv 1000)
     let w : Word := 0x1001
     (s.gate 1 (A.TIM_TE_CTL 15) w (some 0) false).1 = true ∧ s.flag (F.TIM_TE_CTL.ARMED 15) = false ∧
     ran (exec (.teArm 1 15 w) s) (fun t => t.get (F.TIM_TE_CTL.RESULT 15) == ((s.checked 1 (A.TIM_TE_CTL 15) w (some 0)).wrFields (A.TIM_TE_CTL 15) w).armResult 15) = true) ∧
    (let s := (priv (serv 1000)).set (F.TIM_TE_CTL.ARMED 15) 1
     (s.gate 1 (A.TIM_TE_CTL 15) 0x2000 (some 0) false).1 = true ∧ ran (exec (.teDisarm 1 15 0x2000) s) (fun t => !t.flag (F.TIM_TE_CTL.ARMED 15)) = true) ∧
    (let s := ((serv 1000).set (F.TIM_TE_CTL.ARMED 15) 1).set (F.TIM_TE_CTL.MODE 15) 1
     let s := { s with tim := { s.tim with targets := [(15, 500100)] } }
     (s.flag (F.TIM_TE_CTL.ARMED 15) = true ∧ reached 500100 (s.t64 s.six + lastCycle) = true ∧ s.get (F.TIM_TE_CTL.MODE 15) ≠ 2) ∧
     ran (exec (.timedEventFire 15) s) (fun t => !t.flag (F.TIM_TE_CTL.ARMED 15) && t.get64 (A.TIM_TE_DUE 15) == 1000 &&
       t.get (F.TIM_TE_STAT.FIRES 15) == 1 && t.flag F.TIM_EVT.TE) = true) ∧
    (let s := (serv 1000).set (F.TIM_TPO.POL 3) 1
     let s := { s with tim := { s.tim with pulses := [⟨15, 8, 500499⟩] } }
     s.tim.pulses = [⟨15, 8, 500499⟩] ∧ ran (exec (.tpoPulseEnd 15) s) (fun t => t.tim.pulses == [] && t.get (F.TIM_TPO.LEVEL 3) == 1) = true) ∧
    (let s := (serv 1000).set (F.TIM_TCI_CTL.EDGE 1) 2
     bit (s.get (F.TIM_TCI_CTL.EDGE 1)) 1 = true ∧ ran (exec (.tciCapture 1 false 499) s) (fun t => t.flag F.TIM_EVT.TCI &&
       kvGet (fun _ => []) t.tim.caps 1 == [⟨1000, 0, 500499, 0, false, false⟩]) = true ∧
     (let q := List.replicate 16 (⟨1, 0, 0, 0, true, true⟩ : Capture)
      let s := { s with tim := { s.tim with caps := [(1, q)] } }
      ran (exec (.tciCapture 1 false 0) s) (fun t => t.flag (F.TIM_TCI_CTL.OVF 1) && kvGet (fun _ => []) t.tim.caps 1 == q) = true ∧
      ((priv s).gate 1 (A.TIM_TCI_CTL 1) 0x102 (some 0) false).1 = true ∧
      ran (exec (.tciPop 1 1 0x102) (priv s)) (fun t => kvGet (fun _ => []) t.tim.caps 1 == q.drop 1 && t.get (F.TIM_TCI_CTL.N 1) == 15) = true)) := by decide +kernel

/-! ## Ethernet, universal channels -/

/-- The Ethernet block is powered, every pair runs PRP, every port has link. -/
def ether (k : Nat) : State :=
  let s := ((serv k).set F.ETH_STATUS.POWERED 1).set (F.ETH_PAIR_CFG.MODE 0) 1
  let s := s.set (F.ETH_PAIR_CFG.MODE 1) 1
  (List.range 4).foldl (fun u p => u.set (F.ETH_E_STAT.LINK p) 1) s

def frame0 (body : FrameBody) : EthFrame := ⟨1, 2, 0x88B8, 64, true, true, none, [1, 2, 3], body⟩

theorem witness_ethernet_frames :
    (let s := ether 1000
     (s.ethOn = true ∧ s.ethMode (pairOf 3) = 1 ∧ s.hasLink 3 = true) ∧
     ran (exec (.ethFrameReceived 3 (frame0 .other)) s) (fun t => t.flag (F.ETH_E_STAT.LAN_OK 3) && t.get (F.ETH_E_RX.COUNT 3) == 1 &&
       kvGet (fun _ => 0) t.eth.lastRx 3 == 1000) = true ∧
     ran (exec (.ethFrameReceived 3 { frame0 .other with fcsOk := false }) s) (fun t => t.get (F.ETH_E_ERR.COUNT 3) == 1) = true) ∧
    (let s := ether 1000
     let s := { s with eth := { s.eth with seen := [(1, [(2, 77, 900)])] } }
     dupHit (kvGet (fun _ => []) s.eth.seen 1) 2 77 s.six = true ∧
     ran (exec (.ethFrameReceived 3 { frame0 .other with seq := some 77, len := 1522 }) s) (fun t => t.get (F.ETH_E_DUP.COUNT 3) == 1) = true) ∧
    (let s := ether 1000
     s.hasLink 3 ≠ false ∧ ran (exec (.linkChg 3 false) s) (fun t => !t.hasLink 3 && t.flag F.ETH_EVT.LINK_CHG) = true) ∧
    (let s := ((ether 1000).set (F.ETH_E_STAT.LINK 3) 0).set (F.ETH_E_STAT.LAN_OK 3) 1
     (s.flag (F.ETH_E_STAT.LAN_OK 3) = true ∧ s.hasLink 3 = false) ∧ ran (exec (.lanLoss 3) s) (fun t => !t.flag (F.ETH_E_STAT.LAN_OK 3) &&
       t.flag F.ETH_EVT.LAN_LOSS) = true) ∧
    (let s := ether 1000
     kvGet (fun _ => 0) s.eth.supNext 1 ≤ s.six ∧ ran (exec (.prpSupervisionSend 1) s) (fun t =>
       t.outbox == [.eth 3 (some 0) 0 .supervision, .eth 2 (some 0) 0 .supervision]) = true) := by decide +kernel

def gid : GooseId := ⟨1, 2, "a", "b", "c", 1⟩
def goose0 : GooseMsg := ⟨gid, false, false, false, 1, 0, 1000, [.boolean true]⟩

/-- A frame for context 9 of the kind waits. -/
def waitingFor (kind : Nat) (body : FrameBody) (f : FpConfig → FpConfig) : State :=
  let s := ((ether 1000).set (F.SFB_C_CFG.KIND 9) kind).set (F.SFB_C_CFG.NCH 9) 1
  { s with fp := f s.fp, eth := { s.eth with waiting := [⟨some 9, 2, 990, frame0 body⟩] } }

theorem witness_goose_and_streams :
    (let s := waitingFor 4 (.goose goose0) (fun c => { c with gooseSub := [(9, ⟨gid, [.boolean]⟩)] })
     (s.kind 9 = 4 ∧ s.gooseMatches 9 ⟨gid, [.boolean]⟩ goose0 = true ∧ (s.ethCtx 9).deadline = none) ∧
     ran (exec (.gooseReceived 9) s) (fun t => t.eth.waiting == [] && (t.ethCtx 9).seen) = true) ∧
    (let a : Asdu := ⟨3999, 2, [(5, 0)]⟩
     let s := waitingFor 2 (.sv ⟨1, 2, "v", 1, [a]⟩) (fun c => { c with svSub := [(9, ⟨1, 2, "v", 1, 4000, 1⟩)] })
     (s.kind 9 = 2 ∧ a.vals.length = s.nch 9 ∧ a.smpCnt < 4000) ∧ ran (exec (.svFrameReceived 9) s) (fun t => t.eth.waiting == [] &&
       t.get (F.ETH_C_SQNUM.NUM 9) == 3999 && t.get64 (A.ETH_C_LAST 9) == 990) = true) ∧
    (let s := (waitingFor 4 .other id).setEthCtx 9 { EthCtx.reset with deadline := some 999, seen := true }
     let s := { s with eth := { s.eth with waiting := [] } }
     ((s.ethCtx 9).deadline = some 999 ∧ s.kind 9 = 4) ∧ ran (exec (.gooseTalExpired 9) s) (fun t => t.flag F.ETH_EVT.TAL &&
       (t.ethCtx 9).deadline == none && !(t.ethCtx 9).seen) = true) ∧
    (let s := (waitingFor 5 .other (fun c => { c with goosePub := [(9, ⟨gid, [], 4, 1000, 4⟩)] })).setEthCtx 9 { EthCtx.reset with pubOn := true, next := 1000 }
     (s.ethOn = true ∧ s.kind 9 = 5 ∧ (s.ethCtx 9).pubOn = true ∧ (s.ethCtx 9).next ≤ s.six) ∧ ran (exec (.gooseRetransmit 9) s) (fun t =>
       t.get (F.ETH_C_SQNUM.NUM 9) == 1 && t.get64 (A.ETH_C_LAST 9) == 1000 && (t.ethCtx 9).gaps == 1) = true) ∧
    (let s := (waitingFor 3 .other (fun c => { c with svPub := [(9, ⟨1, 2, "v", 1, 4000, 1, 4, []⟩)] })).setEthCtx 9
       { EthCtx.reset with asdus := [⟨1, 2, []⟩] }
     s.kind 9 = 3 ∧ ran (exec (.svPublish 9) s) (fun t => (t.ethCtx 9).asdus == [] && t.get64 (A.ETH_C_LAST 9) == 1000) = true) := by decide +kernel

theorem witness_host_rings :
    (let s := ((ether 1000).set F.ETH_HRX_CTL.EN 1).set F.ETH_HRX_CTL.LOG2N 4
     let s := { s with eth := { s.eth with waiting := [⟨none, 2, 990, frame0 .other⟩] } }
     let s := (s.set F.ETH_HRX_IDX.TAIL 8).storeBytes spHost 0 (leBytes 8 0x5000 ++ leBytes 2 2048)
     (s.flag F.ETH_HRX_CTL.EN = true ∧ ringNext 4 0 ≠ s.get F.ETH_HRX_IDX.TAIL % 2 ^ 4) ∧
     ran (exec .hostRxFrame s) (fun t => t.get F.ETH_HRX_IDX.HEAD == 1 && t.flag F.ETH_EVT.HRX && t.eth.waiting == [] && t.byteAt spHost 0x5001 == 2) = true) ∧
    (let s := ((ether 1000).set F.ETH_HTX_CTL.EN 1).set F.ETH_HTX_CTL.LOG2N 4
     let s := (s.set F.ETH_HTX_IDX.TAIL 1).storeBytes spHost 0 (leBytes 8 0x5000 ++ leBytes 2 64 ++ [0, 1])
     (s.flag F.ETH_HTX_CTL.EN = true ∧ s.get F.ETH_HTX_IDX.HEAD ≠ s.get F.ETH_HTX_IDX.TAIL % 2 ^ 4) ∧
     ran (exec .hostTxSend s) (fun t => t.get F.ETH_HTX_IDX.HEAD == 1 && t.flag F.ETH_EVT.HTX_DONE &&
       (t.byteAt spHost 10 == 1 || t.byteAt spHost 10 == 2)) = true) := by decide +kernel

/-- The universal channels are powered and channel 15 has the mode. -/
def uch (k mode : Nat) : State := ((serv k).set F.UCH_STATUS.POWERED 1).set (F.UCH_C_CFG.MODE 15) mode

theorem witness_conversions :
    (let s := (uch 1000 1).set (F.UCH_C_CFG.CPER 15) 10
     (s.uchOn = true ∧ s.uchConverts 15 = true ∧ s.six % (100 * s.get (F.UCH_C_CFG.CPER 15)) = 0 ∧ (s.uchAt 15).sched ≠ some s.six ∧
       (s.uchAt 15).conv = none) ∧ ran (exec (.conversionStart 15) (s.setUch 15 { UchSt.reset with conv := some ⟨900, false, false⟩ })) (fun t =>
       t.get (F.UCH_C_CNT.SKIP 15) == 1 && (t.uchAt 15).conv.map (·.s0) == some 900) = true ∧
     ran (exec (.conversionStart 15) s) (fun t => (t.uchAt 15).conv.map (·.s0) == some 1000 && t.get (F.UCH_C_STAT.RUN 15) == 1) = true) ∧
    (let s := (uch 41800 1).setUch 15 { UchSt.reset with conv := some ⟨1000, false, false⟩ }
     (s.uchAt 15).conv = some ⟨1000, false, false⟩ ∧ 1000 + 799 + nintSamples (s.get (F.UCH_C_CFG.NINT 15)) < s.six ∧
     ran (exec (.conversionDone 15 5 false) s) (fun t => (t.uchAt 15).conv == none && t.get (F.UCH_C_STAT.RUN 15) == 0) = true) ∧
    (let s := (uch 1000 6).setUch 15 { UchSt.reset with cmdPend := some (77, 1000) }
     (s.uchAt 15).cmdPend = some (77, 1000) ∧ ran (exec (.cmdApply 15) s) (fun t => (t.uchAt 15).cmd == some 77 && (t.uchAt 15).cmdPend == none) = true) ∧
    (let s := uch 1000 6
     s.uchOutput 15 = true ∧ ran (exec (.thermal 15 135) s) (fun t => t.flag (F.UCH_C_STAT.THERMAL 15) && t.flag F.UCH_EVT.THERMAL) = true ∧
     ran (exec (.thermal 15 120) (s.set (F.UCH_C_STAT.THERMAL 15) 1)) (fun t => !t.flag (F.UCH_C_STAT.THERMAL 15)) = true) ∧
    (let s := priv (uch 1000 1)
     s.tsk.up = false ∧ (s.gate 1 (A.UCH_C_HCTL 15) 3 (some 0) false).1 = true ∧
     ran (exec (.uchHctlClr 1 15 1) (s.set (F.UCH_C_STAT.OVR 15) 1)) (fun t => t.get64 (A.UCH_C_CLR 15) == 1000 && t.get (F.UCH_C_STAT.OVR 15) == 0) = true ∧
     ran (exec (.uchHctlReq 1 15 2) s) (fun t => (t.uchAt 15).conv.map (fun x => (x.s0, x.onDemand)) == some (1000, true)) = true) ∧
    (let s := uch 25000 6
     (s.six % 12500 = 0 ∧ (s.uchGroup 3).fault = false ∧ (s.uchGroup 3).slotSix ≠ some s.six ∧ s.readList 3 = [15]) ∧ ran (exec (.readbackSlot 3 5) s)
       (fun t => t == (s.setUchGroup 3 { s.uchGroup 3 with slotSix := some 25000 }).uchReadback 15 12500 5) = true) := by decide +kernel

theorem witness_hart :
    (let s := ((priv (uch 1000 6)).set (F.UCH_C_CFG.HART_EN 15) 1).set (F.UCH_G_HLEN.LEN 3) 2
     let w : Word := 0x140007
     ((s.gate 1 (A.UCH_G_HCTL 3) w (some 0) false).1 = true ∧ s.flag (F.UCH_C_CFG.HART_EN 15) = true ∧ s.uchMode 15 = 6 ∧ fieldOf w 16 5 = 20 ∧
       fieldOf w 0 2 = 3) ∧ ran (exec (.hartSend 1 3 w) s) (fun t => t.get (F.UCH_G_HCTL.STATUS 3) == 1 && (t.uchGroup 3).hart == some 15 &&
       t.outbox.head? == some (.hart 3 (List.replicate 20 0xFF ++ [0, 0] ++ [0]))) = true) ∧
    (let s := (priv (uch 1000 6)).setUchGroup 3 { UchGrp.reset with hart := some 15 }
     (s.uchGroup 3).hart = some 15 ∧ ran (exec (.hartAbort 1 3 8) s) (fun t => t.get (F.UCH_G_HCTL.STATUS 3) == 6 && (t.uchGroup 3).hart == none &&
       t.flag F.UCH_EVT.HART_DONE) = true ∧ ran (exec (.hartDone 3 (.reply [1, 2, 3])) s) (fun t => t.get (F.UCH_G_HCTL.STATUS 3) == 2 &&
       t.get (F.UCH_G_HLEN.RLEN 3) == 3) = true) ∧
    ran (exec (.hartFrameReceived 3) ((uch 1000 6).set (F.UCH_G_HCNT.OTHER 3) 255)) (fun t => t.get (F.UCH_G_HCNT.OTHER 3) == 255) = true := by decide +kernel

theorem witness_groups :
    (let s := (uch 1000 6).set F.UCH_STATUS.GRP_OK 15
     s.uchOn = true ∧ (s.uchGroup 3).fault = false ∧ ran (exec (.grpFault 3) s) (fun t => (t.uchGroup 3).fault && t.flag F.UCH_EVT.GRP_FAULT &&
       !bit (t.get F.UCH_STATUS.GRP_OK) 3) = true) ∧
    (let s := (uch 1000 6).setUchGroup 3 { UchGrp.reset with fault := true }
     (s.uchGroup 3).fault = true ∧ s.six % 100 = 0 ∧ (s.uchGroup 3).driven = false ∧ ran (exec (.grpRecover 3) s) (fun t => !(t.uchGroup 3).fault &&
       t.flag F.UCH_EVT.GRP_FAULT) = true ∧ ran (exec (.controllerAlarmDrive 3) s) (fun t => (t.uchGroup 3).driven) = true) ∧
    (let s := uch 1000 6
     bit (s.get F.UCH_STATUS.ALMSEL) 3 ≠ true ∧ ran (exec (.strapChg 3 true) s) (fun t => t.flag F.UCH_EVT.STRAP_CHG &&
       t.get F.UCH_STATUS.ALMSEL == 0) = true) := by decide +kernel

/-! ## Host, security, power -/

theorem witness_host_accesses :
    ran (exec (.registerWrite 1 0x81003 5 false) (serv 1000)) (fun t => t.get (F.ENG_DENY_LAST.CAUSE.at 1) == 6 &&
      t.get (F.ENG_DENY_LAST.OFFSET.at 1) == 0x81000 && t.get (F.ENG_DENY_CNT.N.at 1) == 1) = true ∧
    ran (exec (.registerWrite 0 (BitVec.ofNat 24 A.SFB_EVT) 0x5 true) ((serv 1000).wr A.SFB_EVT 0x3F)) (fun t => t.rd A.SFB_EVT == 0x3A) = true ∧
    (let s := priv (serv 1000)
     (s.gate 1 A.SFB_IEN 0x25 (some 0) false).1 = true ∧ ran (exec (.registerWrite 1 (BitVec.ofNat 24 A.SFB_IEN) 0x25 true) s) (fun t =>
       t.rd A.SFB_IEN == 0x25) = true) ∧
    ran (exec (.takeRead 0 (BitVec.ofNat 24 A.SFB_LATE_CNT)) ((serv 1000).wr A.SFB_LATE_CNT 7)) (fun t => t.rd A.SFB_LATE_CNT == 0 &&
      t.outbox == [.readData 0 A.SFB_LATE_CNT 7]) = true ∧
    (let s := (serv 1000).set64 A.TSK_PAN_SEQ 0x500000006
     (s.fn 0).rdTag = none ∧ ran (exec (.read64Low 0 (BitVec.ofNat 24 A.TSK_PAN_SEQ)) s) (fun t => (t.fn 0).rdTag == some A.TSK_PAN_SEQ &&
       (t.fn 0).rdShadow.lookup (A.TSK_PAN_SEQ + 4) == some 5 && t.outbox == [.readData 0 A.TSK_PAN_SEQ 6]) = true) ∧
    (let s := (serv 1000).setFn 0 { FnSt.reset with rdTag := some A.TSK_PAN_SEQ, rdShadow := [(A.TSK_PAN_SEQ + 4, 9)] }
     (s.fn 0).rdShadow.lookup (A.TSK_PAN_SEQ + 4) = some 9 ∧ ran (exec (.read64High 0 (BitVec.ofNat 24 (A.TSK_PAN_SEQ + 4))) s) (fun t =>
       t.outbox == [.readData 0 (A.TSK_PAN_SEQ + 4) 9]) = true) ∧
    (let s := priv (serv 1000)
     (s.gate 1 A.TIM_HSTEP 7 (some 0) false).1 = true ∧ ran (exec (.write64Low 1 (BitVec.ofNat 24 A.TIM_HSTEP) 7) s) (fun t =>
       (t.fn 1).wrTag == some A.TIM_HSTEP && (t.fn 1).wrLow == 7 && t.get64 A.TIM_HSTEP == s.get64 A.TIM_HSTEP) = true) ∧
    (let s := (priv (serv 1000)).setFn 1 { FnSt.reset with wrTag := some A.TIM_HSTEP, wrLow := 7 }
     (s.gate 1 (A.TIM_HSTEP + 4) 1 (some 0) false).1 = true ∧ ran (exec (.write64High 1 (BitVec.ofNat 24 (A.TIM_HSTEP + 4)) 1) s) (fun t =>
       (t.fn 1).wrTag == none && t.get64 A.TIM_HSTEP == 0x100000007) = true) ∧
    (let s := (serv 1000).setFn 0 { FnSt.reset with vecs := [(31, ⟨true, true, none⟩)] }
     kvGet (fun _ => MsixVec.reset) (s.fn 0).vecs 31 = ⟨true, true, none⟩ ∧ ran (exec (.msixUnmask 0 31 true false) s) (fun t => t.outbox == [.msix 0 31]) = true) ∧
    (let s := priv (serv 1000)
     s.sec.session.isSome = true ∧ ran (exec (.hostFunctionReset false true) s) (fun t => t.sec.session == none && (t.fn 1).wrTag == none &&
       t.get F.ENG_SESS.CAUSE == 5) = true) := by decide +kernel

/-- The island is clocked, the mailbox idle, the life cycle DEPLOYED or as said, a privileged session open, a request of `n` bytes beginning with a word. -/
def island (lc n : Nat) (w : Word) : State :=
  let s := ((priv (serv 1000)).set F.CLK_STATUS.OK 15).set F.SEC_STATUS.LC lc
  ((s.set F.SEC_LEN.REQ n).set F.SEC_CMD.BUSY 0).wr (A.SEC_BUF 0) w

def mayGo (s : State) : Bool := s.islandRuns && !s.flag F.SEC_CMD.BUSY && decide (s.lc < 4) && (s.gate 1 A.SEC_CMD 0x101 none false).1

def didSay (o : Host.Outcome State Fault Refusal) (r : Nat) (p : State → Bool) : Bool :=
  ran o (fun t => t.sec.mbox.map (·.result) == some r && t.get F.SEC_CMD.BUSY == 1 && p t)

def fwImage : Image := ⟨1, 2, 0, 0xFE, 0, 0, 5, true, true, true, .firmware 7⟩

theorem witness_mailbox :
    (let s := island 3 0 0
     mayGo s = true ∧ s.flag F.SEC_STATUS.LOCKOUT = false ∧ didSay (exec (.challenge 1 0x101 5) s) 0 (fun t =>
       t.sec.challenge.map (fun c => (c.nonce, c.issued)) == some (5, 1000)) = true) ∧
    (let s := (island 3 32 0).set F.SEC_XMSS_LEFT.LEFT 9
     mayGo s = true ∧ s.attestsLive.length < 64 ∧ didSay (exec (.attest 1 0x103) s) 0 (fun t => t.get F.SEC_XMSS_LEFT.LEFT == 8) = true) ∧
    didSay (exec (.identity 1 0x104) (island 3 0 0)) 0 (fun t => t.sec.session.isSome) = true ∧
    (let s := ((island 3 12 1).wr (A.SEC_BUF 1) 0x80000000).wr (A.SEC_BUF 2) 3
     (s.verifyResult fwImage = 0 ∧ uploadArea ≤ tokNat (s.bufBytes 12) 4 8 ∧ tokNat (s.bufBytes 12) 0 1 = 1 ∧ s.rightCause 1 (some 1) = none) ∧
     didSay (exec (.install 1 0x105 (some fwImage) true) s) 0 (fun t => kvGet (fun _ => none) t.sec.slots (s.freeSlot 1) == some fwImage) = true) ∧
    (let s := ((island 3 1 1).set (F.SEC_SVN.COUNTER 0) 4).set (F.SEC_SVN.RUNNING 0) 5
     s.get (F.SEC_SVN.COUNTER (counterOf 1)) < s.get (F.SEC_SVN.RUNNING (counterOf 1)) ∧ didSay (exec (.svnCommit 1 0x106) s) 0 (fun t =>
       t.get (F.SEC_SVN.COUNTER 0) == 5) = true) ∧
    (let s := (island 3 72 0x00000703).wr (A.SEC_BUF 1) 0x12000000
     (tokNat (s.bufBytes 72) 1 1 < 8 ∧ leNat (((s.bufBytes 72).drop 4).take 4).reverse = 0x12 ∧ s.get (F.SEC_KEY.STATE 3) = 0 ∧ s.rightCause 1 (some 2) = none) ∧
     didSay (exec (.keyProgram 1 0x107 true) s) 0 (fun t => t.get (F.SEC_KEY.STATE 3) == 1 && t.get (F.SEC_KEY.USAGE 3) == 7) = true) := by decide +kernel

theorem witness_mailbox_more :
    (let s := ((island 3 1 3).set (F.SEC_KEY.STATE 3) 1).set (F.SEC_KEY.USAGE 3) 6
     s.sessionKey 3 = false ∧ didSay (exec (.keyRevoke 1 0x108) s) 0 (fun t => t.get (F.SEC_KEY.STATE 3) == 2 && t.flag F.SEC_EVT.KEY_CHANGE) = true) ∧
    (let s := island 2 4 3
     s.lc = 2 ∧ didSay (exec (.lifecycle 1 0x109 false 0) s) 0 (fun t => t.lc == 3 && t.flag F.SEC_EVT.LC_CHANGE) = true) ∧
    (let s := island 3 0 0
     let s := { s with sec := { s.sec with wipeProof := [1, 2] } }
     ran (exec (.wipeReport 1 0x10B) s) (fun t => t.sec.mbox == some ⟨1, 0, [1, 2]⟩) = true) ∧
    (let s := ((island 3 0 0).set F.SEC_STATUS.TAMPER 1).set F.SEC_STATUS.TAMP_PIN 1
     s.rightCause 1 (some 2) = none ∧ didSay (exec (.tamperClear 1 0x10A true) s) 0 (fun t => !t.flag F.SEC_STATUS.TAMPER) = true) ∧
    didSay (exec (.mailboxUnknownCommand 1 0x10C) (island 3 0 0)) 1 (fun _ => true) = true ∧
    (let s := island 3 0 0
     let s := { s with sec := { s.sec with mbox := some ⟨1, 15, List.replicate 4 1⟩ } }
     (s.sec.wiping = false ∧ s.sec.uartWait = none) ∧ ran (exec .mailboxDone s) (fun t => t.sec.mbox == none && t.get F.SEC_CMD.RESULT == 15 &&
       t.get F.SEC_LEN.RSP == 4 && t.flag F.SEC_EVT.DONE && t.sec.respPf == some 1) = true) ∧
    (let s := serv 20001000
     let s := { s with sec := { s.sec with respPf := some 1, respSix := 1000 } }
     ran (exec .mailboxResponseExpired s) (fun t => t.sec.respPf == some 2) = true) := by decide +kernel

/-- A GRANT for unit 0 on the challenge with nonce 0 and number 0: rights 7, 60 s, key slot 0. -/
def grantable : State :=
  let s := keyed (island 3 (0x80 + 2500) 0x53455357)
  let s := (((s.wr (A.SEC_BUF 1) 0x00070001).wr (A.SEC_BUF 13) 60).set64 A.ENG_UID 0).set (F.SEC_KEY.PARAM 0) 0
  { s with sec := { s.sec with session := none, challenge := some ⟨0, 0, 900⟩ } }

theorem witness_grant :
    (grantable.gate 0 A.SEC_CMD 0x102 none false).1 = true ∧ grantable.flag F.SEC_CMD.BUSY = false ∧
    grantable.grantResult (grantable.bufBytes (grantable.get F.SEC_LEN.REQ)) true = 0 := by decide +kernel

theorem witness_sessions :
    (let s := serv 600001000
     let s := { s with sec := { s.sec with challenge := some ⟨0, 0, 1000⟩, lockoutEnd := some 600001000 } }
     ran (exec .challengeLapsed s) (fun t => t.sec.challenge == none) = true ∧ ran (exec .lockoutEnd s) (fun t => t.sec.lockoutEnd == none) = true) ∧
    (let ends := fun (s : State) (c : Instr) (n : Nat) => ran (exec c s) (fun t => t.sec.session == none && t.get F.ENG_SESS.CAUSE == n &&
       t.get F.ENG_SESS.RIGHTS == 0 && t.flag F.ENG_EVT.SESSION_CLOSED)
     let s := serv 1800001000
     ends { s with sec := { s.sec with session := some ⟨7, 0, [], 1800001000, 1800000000⟩ } } .sessionLifetimeExpired 1 = true ∧
     ends { s with sec := { s.sec with session := some ⟨7, 0, [], 1900000000, 1000⟩ } } .sessionIdleExpired 2 = true ∧
     ends (priv s) (.sessionClose 1 1) 3 = true ∧ ends (priv s) (.tamperSet 3) 6 = true) ∧
    (let s := (serv 1000).set F.CLK_STATUS.OK 15
     uartPayload (uartFrame [0x04]) = some [0x04] ∧ ran (exec (.serviceUartFrame (uartFrame [0x04]) 0 true) s) (fun t => t.outbox.length == 1) = true ∧
     (let s := { s with sec := { s.sec with mbox := some ⟨0, 0, []⟩ } }
      ran (exec (.serviceUartFrame [1] 0 true) s) (fun t => t.sec.uartWait == some ([1], 0, true)) = true)) := by decide +kernel

def pImg : Image := ⟨3, 2, 0, 0, 0, 0, 5, true, true, true, .program gProg⟩

theorem witness_operating_states :
    (let s := priv (prog 810)
     (s.gate 1 A.PWR_CMD 1 (some 0) false).1 = true ∧ ran (exec (.stem 1 1) s) (fun t => bit (t.get F.PWR_STATE.STEM_CAUSE) 5 &&
       t.get F.PWR_CMD.RESULT == 1) = true ∧ ran (exec (.halt 1 2) s) (fun t => t.opstate == 2 && bit (t.get F.PWR_STATE.HALT_CAUSE) 3) = true) ∧
    (let s := (priv (prog 810)).set F.SEC_STATUS.LC 3
     (s.pwr.maintAt = none ∧ s.opstate = 0 ∧ s.pwr.stemSix = none) ∧ ran (exec (.maint 1 4) s) (fun t => t.pwr.maintAt == some 200000 &&
       t.get F.PWR_CMD.RESULT == 1 && t.get F.PWR_CMD.BUSY == 1) = true) ∧
    (let s := (priv (prog 810)).set F.PWR_STATE.OPSTATE 3
     (s.opstate = 3 ∧ s.pwr.resumeAt = none ∧ s.pwr.prep = none) ∧ ran (exec (.resume 1 8) s) (fun t => t.pwr.resumeAt == some 200000 &&
       t.get F.PWR_CMD.RESULT == 1) = true) ∧
    (let s := priv (prog 810)
     s.pwr.warm = none ∧ ran (exec (.warm 1 16) s) (fun t => t.pwr.warm == some 1 && t.get F.PWR_CMD.BUSY == 1) = true) ∧
    (let s := (priv (prog 810)).set (F.LNE_L_STATE.ROLE 2) 3
     (s.pwr.lane = none ∧ s.get (F.LNE_L_STATE.ROLE 2) = 3) ∧ ran (exec (.laneRst 1 0x220) s) (fun t => t.get (F.LNE_L_STATE.ROLE 2) == 4 &&
       t.pwr.lane == some 2 && t.get F.PWR_CMD.RESULT == 1) = true) ∧
    (let s := (prog 810).set (F.LNE_L_STATE.ROLE 2) 4
     let s := { s with pwr := { s.pwr with lane := some 2 } }
     ran (exec (.laneResetDone true) s) (fun t => t.get (F.LNE_L_STATE.ROLE 2) == 2 && t.pwr.lane == none && t.flag F.PWR_EVT.LANE_RESET_DONE) = true ∧
     ran (exec (.laneResetDone false) s) (fun t => t.get (F.LNE_L_STATE.ROLE 2) == 3 && t.get (F.LNE_L_STATE.CAUSE 2) == 5 && t.pwr.lane == none) = true) := by decide +kernel

theorem witness_state_changes :
    (let s := prog 200000
     let s := { s with pwr := { s.pwr with maintAt := some 200000 } }
     s.pwr.maintAt = some s.six ∧ s.opstate = 0 ∧ s.outputsOpen = false) ∧
    (let s := prog 810
     let s := { s with pwr := { s.pwr with stemSix := some 800 } }
     s.pwr.stemSix = some 800 ∧ s.opstate = 0) ∧
    (let s := (prog 810).set F.PWR_STATE.OPSTATE 1
     let s := { (s.set F.PWR_STATE.STEM_CAUSE 16) with pwr := { s.pwr with cool := true } }
     (s.stemClears 4 = true ∧ s.opstate = 1) ∧ ran (exec (.stemCauseCleared 4) s) (fun t => !bit (t.get F.PWR_STATE.STEM_CAUSE) 4) = true) := by decide +kernel

theorem witness_stem_return :
    let s := (keyed (serv 400000)).set F.PWR_STATE.OPSTATE 1
    let s := { s with pwr := { s.pwr with prep := some 300000 }, sec := { s.sec with slots := [(slotOf 3 0, some pImg)] } }
    s.six % hyperPeriod = 0 ∧ s.opstate = 1 ∧ s.restartZero.startProgram = some (slotOf 3 0, pImg, gProg) ∧
      (s.restartZero.loadProgram gProg 0).1 = true := by decide +kernel

def held (k : Nat) : State := (serv k).set F.PWR_STATE.HOLDUP 1

theorem witness_supply :
    ran (exec (.supplyWarn 1799 511) (serv 1000)) (fun t => t.get F.PWR_SUPPLY.VMAIN == 1799 && t.get F.PWR_SUPPLY.HU == 511 && t.pwr.warnPin) = true ∧
    ran (exec (.brownout 1649) (serv 1000)) (fun t => t.flag F.PWR_STATE.HOLDUP && t.pwr.hold == 1000 && t.flag F.PWR_EVT.BROWNOUT) = true ∧
    ran (exec (.overvoltageDisconnect 3401) (serv 1000)) (fun t => t.flag F.PWR_STATE.HOLDUP && t.pwr.ovr) = true ∧
    ((held 1000).vmainOk 1750 = true ∧ ran (exec (.supplyBack 1750) (held 1000)) (fun t => !t.flag F.PWR_STATE.HOLDUP && t.flag F.PWR_EVT.SUPPLY_BACK) = true) ∧
    ran (exec .rideThroughExpired (held 101000)) (fun t => t.pwr.inWindow && bit (t.get F.PWR_STATE.STEM_CAUSE) 2) = true ∧
    (let s := held 1000
     let s := { s with pwr := { s.pwr with inWindow := true } }
     ran (exec (.vmainGood 1750) s) (fun t => !t.flag F.PWR_STATE.HOLDUP && t.pwr.goodSix == some 1000) = true) ∧
    ran (exec (.powerDown 200) (held 1000)) (fun t => t.pwr.celStop) = true ∧
    ran (exec (.holdupExhausted 180) (held 1000)) (fun t => !t.clk.running && t.get F.PWR_DOM.ON == 1 && t.six == 1000) = true := by decide +kernel

theorem witness_temperature_and_clocks :
    ran (exec (.otWarn 1150 0) (serv 1000)) (fun t => t.flag F.PWR_EVT.OT_WARN) = true ∧
    ran (exec (.ot 1200 1200 0) (serv 1000)) (fun t => t.flag F.PWR_EVT.OT && bit (t.get F.PWR_STATE.STEM_CAUSE) 4) = true ∧
    ran (exec (.otClear 1049 0 1000) ((serv 120001000).set F.PWR_STATE.STEM_CAUSE 16)) (fun t => t.pwr.cool && t.flag F.PWR_EVT.OT_CLEAR) = true ∧
    ran (exec (.clockFault 3 43 false) ((serv 1000).set F.CLK_STATUS.OK 15)) (fun t => !bit (t.get F.CLK_STATUS.OK) 3 && t.opstate == 2) = true ∧
    ran (exec (.domainFault 11) (serv 1000)) (fun t => bit (t.get F.PWR_DOM.FAULT) 11 && t.flag F.PWR_EVT.DOMAIN_FAULT) = true ∧
    ran (exec .watchdogExpired (serv 1000)) (fun t => t.pwr.warm == some 3) = true ∧
    ran (exec .rstNLow ((serv 1000).set F.PWR_DOM.ON 0xFFF)) (fun t => t.pwr.warm == some 2 && t.pwr.rstLow) = true := by decide +kernel

def boot0 : Boot := ⟨0, 2400, 5, true, true, true, [], ⟨[], []⟩, 0, false⟩

theorem witness_starts :
    (let s := prog 1000
     let s := { s with pwr := { s.pwr with warm := some 1 } }
     s.pwr.settleAt = none ∧ s.clk.running = true) ∧
    (1750 ≤ boot0.vmain ∧ State.reset.powered = false) ∧
    (let s := serv 1000
     let s := { s with pwr := { s.pwr with held := 2 } }
     s.pwr.held = 2) := by decide +kernel

/-- A configuration that the engine refuses: context 0 has a kind that R85 does not give. -/
def fpBad : FpConfig := { State.reset.fp with regs := [(A.SFB_C_CFG 0, 7)] }

def fpImage (c : FpConfig) : Image := ⟨2, 2, 0, 0, 0, 0, 5, true, true, true, .fastPath c⟩

def configured (c : FpConfig) : State :=
  let s := serv 400000
  { s with sec := { s.sec with upload := some (fpImage c), uploadSix := some 199800 } }

theorem witness_configuration :
    (configured fpBad).fpDue = true ∧ (configured fpBad).sec.upload = some (fpImage fpBad) ∧ (fpImage fpBad).body = .fastPath fpBad ∧
      (configured fpBad).fpOk fpBad = false ∧ ran (exec .fastpathConfigEffect (configured fpBad)) (fun t => t.sec.upload == none &&
        t.fp == (configured fpBad).fp) = true := by decide +kernel


/-! ## The machine -/

/-- The hypotheses of the invariants of a step, met together by a state with registers and memory away from their reset. -/
def busy : State := (((onLane (cyc 7 5)).set F.PWR_STATE.OPSTATE 1).storeBytes 40 8 [1, 2, 3]).pushFront .sixAdvance

theorem witness_invariants :
    busy.regsWf = true ∧ busy.regs ≠ [] ∧ Memory.wf busy.mem = true ∧ busy.mem ≠ [] ∧ busy.clk.running = true ∧
      ran (step busy) (fun t => t.regsWf && Memory.wf t.mem && t.six == busy.six + 1) = true := by decide +kernel

theorem witness_parts_left_alone :
    Part.mem ∉ touches (.add 2 4 1 2 true) ∧ Part.inj ∉ touches (.add 2 4 1 2 true) ∧ Part.tsk ∈ touches (.add 2 4 1 2 true) ∧
      ran (exec (.add 2 4 1 2 true) busy) (fun t => t.mem == busy.mem && t != busy) = true := by decide +kernel

/-! ## Commands outside the surroundings' reach: one for each check of `Instr.wf` -/

def okRaised : Raised := ⟨.num 0x900, 1, some 7, [1, 2], true, false, 0, none⟩

theorem test_well_formed :
    Instr.wf (.cellarEnqueue okRaised) = true ∧ Instr.wf (.cellarEnqueue { okRaised with code := .num 65536 }) = false ∧
    Instr.wf (.cellarEnqueue { okRaised with sev := 4 }) = false ∧
    Instr.wf (.cellarEnqueue { okRaised with data := List.replicate 65 0 }) = false ∧
    Instr.wf (.cellarEnqueue { okRaised with six := some (2 ^ 64) }) = false ∧
    Instr.wf (.cellarAdmit ⟨[3, 5], []⟩ 0 0) = true ∧ Instr.wf (.cellarAdmit ⟨[3, 3], []⟩ 0 0) = false ∧ Instr.wf (.thaw 1 2 ⟨[524288], []⟩) = false ∧
    Instr.wf (.freezeTimeout ⟨[1, 1], []⟩) = false ∧ Instr.wf (.stemEnter ⟨[2, 2], [(0, 2)]⟩) = false := by decide +kernel

def okFrame (b : FrameBody) : EthFrame := ⟨1, 2, 0x88B8, 64, true, false, none, [], b⟩
def okGoose : GooseMsg := ⟨⟨1, 2, "a", "b", "c", 1⟩, false, false, false, 41, 17, 2000, [.dbpos 1]⟩
def okSv : SvFrame := ⟨1, 0x4000, "sv", 1, [⟨592, 2, [(1000000, 0)]⟩]⟩

def okPtp : PtpMsg :=
  { kind := 0, domain := 0, twoStep := false, corr := 0, clockId := 9, portNo := 1, seq := 4, logInt := 0, sec := 5, ns := 6, ann := none,
    stamp := 20, residence := 0 }

theorem test_well_formed_frames :
    Instr.wf (.ethFrameReceived 0 (okFrame (.goose okGoose))) = true ∧ EthFrame.ok (okFrame (.sv okSv)) = true ∧ EthFrame.ok (okFrame (.ptp okPtp)) = true ∧
    Instr.wf (.ethFrameReceived 0 { okFrame .other with dst := 2 ^ 48 }) = false ∧ EthFrame.ok { okFrame .other with etherType := 65536 } = false ∧
    EthFrame.ok { okFrame .other with seq := some 65536 } = false ∧ EthFrame.ok (okFrame (.goose { okGoose with tal := 2 ^ 32 })) = false ∧
    EthFrame.ok (okFrame (.goose { okGoose with vals := [.dbpos 4] })) = false ∧
    EthFrame.ok (okFrame (.sv { okSv with asdus := [⟨65536, 2, []⟩] })) = false ∧
    EthFrame.ok (okFrame (.sv { okSv with asdus := [⟨1, 2, [(2147483648, 0)]⟩] })) = false ∧
    EthFrame.ok (okFrame (.ptp { okPtp with stamp := 500 })) = false ∧ EthFrame.ok (okFrame (.ptp { okPtp with ns := 1000000000 })) = false := by decide +kernel

def okImage : Image := ⟨2, 2, 0, 0, 0, 0, 5, true, true, true, .fastPath State.reset.fp⟩

theorem test_well_formed_images :
    Instr.wf (.chgLoad 1 1 (some okImage)) = true ∧ Instr.wf (.chgLoad 1 1 (some { okImage with svn := 65536 })) = false ∧
    Instr.wf (.rplStart 1 1 (some { okImage with kind := 65536 })) = false ∧
    Instr.wf (.install 1 1 (some { okImage with unitId := 2 ^ 64 }) true) = false ∧
    Instr.wf (.coldStart { boot0 with vmain := 4096 }) = false ∧ Instr.wf (.warmReset { boot0 with rtc := 2 ^ 64 }) = false ∧
    Instr.wf (.rstNHigh { boot0 with torn := [1, 1] }) = false ∧ Instr.wf (.coldStart { boot0 with slots := ⟨[7, 7], []⟩ }) = false ∧
    Instr.wf (.dmaDescriptorDone 4 ⟨true, dDesc⟩) = true ∧ Instr.wf (.dmaBeatFault 4 2 0 ⟨false, { dDesc with len := 2 ^ 32 }⟩) = false ∧ Instr.wf (.coldStart boot0) = true ∧
    Instr.wf (.registerWrite 1 6 0 true) = false ∧ Instr.wf (.takeRead 0 5) = false ∧ Instr.wf (.read64Low 0 7) = false ∧
    Instr.wf (.hartDone 0 (.reply (List.replicate 272 0))) = false ∧ Instr.wf (.hartDone 0 (.reply [1])) = true ∧
    Instr.wf (.shelfReceived 0 7 1 (List.replicate 3070 0)) = false := by decide +kernel

/-! ## Words of the spec's worked examples -/

/-- Lane 2 runs a cycle whose task declares context 2 and owns gate 3. -/
def gating : State :=
  let s := onLane (cyc 7 5)
  let p : Partition := { tPart with tasks := [{ tTask with declCtx := [2] }], gates := [(3, 3)] }
  { s with lanes := [(2, ⟨some p, some 3, 0⟩)], tsk := { s.tsk with prog := some ⟨[p], 0⟩ } }

/-- The instruction word means the command: a lane that executes the word ends as the command says. -/
def means (w : Word) (i : Instr) : Bool :=
  ran (exec i gating) (fun t => t = gating.insnGo (cyc 7 5) (wordBody w).1 (wOp w == 0x27) (wordBody w).2)

/-- The sequence that gates rule 12: word by word as its table in chapter 5 encodes it. -/
theorem test_gating_example :
    means 0xD0804004 (.sld 2 4 2 0 4) = true ∧ means 0xD0A04007 (.sld 2 5 2 0 7) = true ∧
    means 0x28C50001 (.andi 2 6 5 1) = true ∧ means 0x34E00061 (.lui 2 7 0 0x61) = true ∧
    means 0x2CE7A800 (.ori 2 7 7 0xA800) = true ∧ means 0x00043C01 (.sub 2 0 4 7 true) = true ∧
    means 0x15060003 (.sel 2 8 6 0 3) = true ∧ means 0x90080083 (.gset 2 0 8 0x83) = true ∧
    ((wordBody 0xD0804004).1, (wordBody 0x28C50001).1, (wordBody 0x15060003).1, (wordBody 0x90080083).1) = (12, 1, 1, 2) := by decide +kernel

/-- The terms of the recipes of chapter 9 (R265), the codewords of R73, the pair of chapter 4 and the grid point of chapter 3. -/
theorem test_worked_values :
    lTermOf 0x00010843 = ⟨0x43, 1, false, 1⟩ ∧ lTermOf 0x0002200C = ⟨12, 4, false, 2⟩ ∧ lTermOf 0x00015800 = ⟨0, 11, false, 1⟩ ∧
    codeword 1 = 0xAAAA ∧ codeword 5 = 0x5A5A ∧ codeword 13 = 0xA55A ∧ codeword 14 = 0xC33C ∧ codeword 31 = 0x9669 ∧
    pairBF 65536 (-1500000) 1470000 = (-2970000, -30000) ∧ gridValue 1000000 1050000 52429 = 1040000 := by decide +kernel

/-- The chattering contact of chapter 10: BURST 4 and PERIOD 20 000; a transition every 4 000 samples (a code of the program here). -/
def chatterState : State :=
  (((st 0).set (F.CEL_PMAP.PROF 256 0) 3).set (F.CEL_PF_CFG.BURST 3) 4).wr (A.CEL_PF_PER 3) 20000

def chatterRun : Nat → Nat → State → List Bool
  | 0, _, _ => []
  | n + 1, k, s => let r := s.celPass 0x800 k; r.1 :: chatterRun n (k + 4000) r.2

theorem test_chatter_example : chatterState.profileOf 0x800 = 3 ∧
    chatterRun 11 1000000000 chatterState = [true, true, true, true, false, true, false, false, false, false, true] := by decide +kernel

end Sys2Proof.Tests
end

section
/-!
PROOFS. Chapter 1, the architecture: what every command but three keeps, and that SIX advances by one at the start of a sample
period and never otherwise (R23).
-/
namespace Sys2Proof.Machine
open Sys2Proof

/-- What a command keeps, by the rule of its own meaning: every part of the state that `touches` does not list for it, and, while it runs,
SIX. SIX_ADVANCE moves SIX, COLD_START begins everything anew and HOLDUP_EXHAUSTED stops SIX; those three have rules of their own. -/
theorem exec_kept {c : Instr} {s : State} (hsix : c ≠ .sixAdvance) (hcold : ∀ b, c ≠ .coldStart b)
    (hpower : ∀ h, c ≠ .holdupExhausted h) : KeptO (partsMask (touches c)) s (exec c s) := by
  cases c with dsimp only [touches, exec]
  | sixAdvance => exact absurd rfl hsix
  | coldStart b => exact absurd rfl (hcold b)
  | holdupExhausted h => exact absurd rfl (hpower h)
  | cycleRelease => exact execCycleRelease_kept (.refl _ _) (.of (.refl _) rfl)
  | eventTaskRelease => exact execEventTaskRelease_kept (.refl _ _) (.of (.refl _) rfl)
  | outputRelease => exact execOutputRelease_kept (.refl _ _) (.of (.refl _) rfl)
  | commandGroupSend => exact execCommandGroupSend_kept (.refl _ _) (.of (.refl _) rfl)
  | deadline => exact execDeadline_kept (.refl _ _) (.of (.refl _) rfl)
  | pantrySnapshot => exact execPantrySnapshot_kept (.refl _ _) (.of (.refl _) rfl)
  | laneFail => exact execLaneFail_kept (.refl _ _) (.of (.refl _) rfl)
  | takeover => exact execTakeover_kept (.refl _ _) (.of (.refl _) rfl)
  | wordDiscarded => exact execWordDiscarded_kept (.refl _ _) (.of (.refl _) rfl)
  | frameAlignmentAcquired => exact execFrameAlignmentAcquired_kept (.refl _ _) (.of (.refl _) rfl)
  | frameAlignmentLost => exact execFrameAlignmentLost_kept (.refl _ _) (.of (.refl _) rfl)
  | frameReceived => exact execFrameReceived_kept (.refl _ _) (.of (.refl _) rfl)
  | sampleReceived => exact execSampleReceived_kept (.refl _ _) (.of (.refl _) rfl)
  | directionalEvaluate => exact execDirectionalEvaluate_kept (.refl _ _) (.of (.refl _) rfl)
  | stepHoldExpiry => exact execStepHoldExpiry_kept (.refl _ _) (.of (.refl _) rfl)
  | directionalHoldExpiry => exact execDirectionalHoldExpiry_kept (.refl _ _) (.of (.refl _) rfl)
  | chstatReceived => exact execChstatReceived_kept (.refl _ _) (.of (.refl _) rfl)
  | unitstatReceived => exact execUnitstatReceived_kept (.refl _ _) (.of (.refl _) rfl)
  | echoReceived => exact execEchoReceived_kept (.refl _ _) (.of (.refl _) rfl)
  | compResend => exact execCompResend_kept (.refl _ _) (.of (.refl _) rfl)
  | pingSend => exact execPingSend_kept (.refl _ _) (.of (.refl _) rfl)
  | calibrationFailed => exact execCalibrationFailed_kept (.refl _ _) (.of (.refl _) rfl)
  | helloReceived => exact execHelloReceived_kept (.refl _ _) (.of (.refl _) rfl)
  | peerTimeReceived => exact execPeerTimeReceived_kept (.refl _ _) (.of (.refl _) rfl)
  | shelfReceived => exact execShelfReceived_kept (.refl _ _) (.of (.refl _) rfl)
  | messageTimeout => exact execMessageTimeout_kept (.refl _ _) (.of (.refl _) rfl)
  | portLost => exact execPortLost_kept (.refl _ _) (.of (.refl _) rfl)
  | portRecovered => exact execPortRecovered_kept (.refl _ _) (.of (.refl _) rfl)
  | portDead => exact execPortDead_kept (.refl _ _) (.of (.refl _) rfl)
  | hjlReadmit => exact execHjlReadmit_kept (.refl _ _) (.of (.refl _) rfl)
  | hjlRebind => exact execHjlRebind_kept (.refl _ _) (.of (.refl _) rfl)
  | stationRebind => exact execStationRebind_kept (.refl _ _) (.of (.refl _) rfl)
  | peerTimeSend => exact execPeerTimeSend_kept (.refl _ _) (.of (.refl _) rfl)
  | peerShelfSend => exact execPeerShelfSend_kept (.refl _ _) (.of (.refl _) rfl)
  | ruleEvaluate => exact execRuleEvaluate_kept (.refl _ _) (.of (.refl _) rfl)
  | ruleRearm => exact execRuleRearm_kept (.refl _ _) (.of (.refl _) rfl)
  | tripRepeatSlot1 => exact execTripRepeatSlot1_kept (.refl _ _) (.of (.refl _) rfl)
  | ackReceived => exact execAckReceived_kept (.refl _ _) (.of (.refl _) rfl)
  | tripUnack => exact execTripUnack_kept (.refl _ _) (.of (.refl _) rfl)
  | voteReceived => exact execVoteReceived_kept (.refl _ _) (.of (.refl _) rfl)
  | pickupExpired => exact execPickupExpired_kept (.refl _ _) (.of (.refl _) rfl)
  | tdoRelease => exact execTdoRelease_kept (.refl _ _) (.of (.refl _) rfl)
  | injTdoRst => exact execInjTdoRst_kept (.refl _ _) (.of (.refl _) rfl)
  | tdoFail => exact execTdoFail_kept (.refl _ _) (.of (.refl _) rfl)
  | tdoFailClear => exact execTdoFailClear_kept (.refl _ _) (.of (.refl _) rfl)
  | scapFrozen => exact execScapFrozen_kept (.refl _ _) (.of (.refl _) rfl)
  | scapRearm => exact execScapRearm_kept (.refl _ _) (.of (.refl _) rfl)
  | fastpathConfigEffect => exact execFastpathConfigEffect_kept (.refl _ _) (.of (.refl _) rfl)
  | derivedValuesCompute => exact execDerivedValuesCompute_kept (.refl _ _) (.of (.refl _) rfl)
  | gridValueCompute => exact execGridValueCompute_kept (.refl _ _) (.of (.refl _) rfl)
  | binaryInputSample => exact execBinaryInputSample_kept (.refl _ _) (.of (.refl _) rfl)
  | binConfirm => exact execBinConfirm_kept (.refl _ _) (.of (.refl _) rfl)
  | chatterHoldEnd => exact execChatterHoldEnd_kept (.refl _ _) (.of (.refl _) rfl)
  | persistentSet => exact execPersistentSet_kept (.refl _ _) (.of (.refl _) rfl)
  | illegalOpcode => exact execIllegalOpcode_kept (.refl _ _) (.of (.refl _) rfl)
  | add => exact execAdd_kept (.refl _ _) (.of (.refl _) rfl)
  | sub => exact execSub_kept (.refl _ _) (.of (.refl _) rfl)
  | adds => exact execAdds_kept (.refl _ _) (.of (.refl _) rfl)
  | subs => exact execSubs_kept (.refl _ _) (.of (.refl _) rfl)
  | addus => exact execAddus_kept (.refl _ _) (.of (.refl _) rfl)
  | subus => exact execSubus_kept (.refl _ _) (.of (.refl _) rfl)
  | mul => exact execMul_kept (.refl _ _) (.of (.refl _) rfl)
  | mulh => exact execMulh_kept (.refl _ _) (.of (.refl _) rfl)
  | mulhu => exact execMulhu_kept (.refl _ _) (.of (.refl _) rfl)
  | muls => exact execMuls_kept (.refl _ _) (.of (.refl _) rfl)
  | div => exact execDiv_kept (.refl _ _) (.of (.refl _) rfl)
  | divu => exact execDivu_kept (.refl _ _) (.of (.refl _) rfl)
  | rem => exact execRem_kept (.refl _ _) (.of (.refl _) rfl)
  | remu => exact execRemu_kept (.refl _ _) (.of (.refl _) rfl)
  | andReg => exact execAndReg_kept (.refl _ _) (.of (.refl _) rfl)
  | orReg => exact execOrReg_kept (.refl _ _) (.of (.refl _) rfl)
  | xorReg => exact execXorReg_kept (.refl _ _) (.of (.refl _) rfl)
  | andnReg => exact execAndnReg_kept (.refl _ _) (.of (.refl _) rfl)
  | sll => exact execSll_kept (.refl _ _) (.of (.refl _) rfl)
  | srl => exact execSrl_kept (.refl _ _) (.of (.refl _) rfl)
  | sra => exact execSra_kept (.refl _ _) (.of (.refl _) rfl)
  | ror => exact execRor_kept (.refl _ _) (.of (.refl _) rfl)
  | slt => exact execSlt_kept (.refl _ _) (.of (.refl _) rfl)
  | sltu => exact execSltu_kept (.refl _ _) (.of (.refl _) rfl)
  | minS => exact execMinS_kept (.refl _ _) (.of (.refl _) rfl)
  | maxS => exact execMaxS_kept (.refl _ _) (.of (.refl _) rfl)
  | minu => exact execMinu_kept (.refl _ _) (.of (.refl _) rfl)
  | maxu => exact execMaxu_kept (.refl _ _) (.of (.refl _) rfl)
  | abs => exact execAbs_kept (.refl _ _) (.of (.refl _) rfl)
  | clz => exact execClz_kept (.refl _ _) (.of (.refl _) rfl)
  | addi => exact execAddi_kept (.refl _ _) (.of (.refl _) rfl)
  | addis => exact execAddis_kept (.refl _ _) (.of (.refl _) rfl)
  | andi => exact execAndi_kept (.refl _ _) (.of (.refl _) rfl)
  | ori => exact execOri_kept (.refl _ _) (.of (.refl _) rfl)
  | xori => exact execXori_kept (.refl _ _) (.of (.refl _) rfl)
  | lui => exact execLui_kept (.refl _ _) (.of (.refl _) rfl)
  | slti => exact execSlti_kept (.refl _ _) (.of (.refl _) rfl)
  | sltiu => exact execSltiu_kept (.refl _ _) (.of (.refl _) rfl)
  | add64 => exact execAdd64_kept (.refl _ _) (.of (.refl _) rfl)
  | sub64 => exact execSub64_kept (.refl _ _) (.of (.refl _) rfl)
  | adds64 => exact execAdds64_kept (.refl _ _) (.of (.refl _) rfl)
  | subs64 => exact execSubs64_kept (.refl _ _) (.of (.refl _) rfl)
  | mull => exact execMull_kept (.refl _ _) (.of (.refl _) rfl)
  | mullu => exact execMullu_kept (.refl _ _) (.of (.refl _) rfl)
  | and64 => exact execAnd64_kept (.refl _ _) (.of (.refl _) rfl)
  | or64 => exact execOr64_kept (.refl _ _) (.of (.refl _) rfl)
  | xor64 => exact execXor64_kept (.refl _ _) (.of (.refl _) rfl)
  | sll64 => exact execSll64_kept (.refl _ _) (.of (.refl _) rfl)
  | srl64 => exact execSrl64_kept (.refl _ _) (.of (.refl _) rfl)
  | sra64 => exact execSra64_kept (.refl _ _) (.of (.refl _) rfl)
  | slt64 => exact execSlt64_kept (.refl _ _) (.of (.refl _) rfl)
  | sltu64 => exact execSltu64_kept (.refl _ _) (.of (.refl _) rfl)
  | sext => exact execSext_kept (.refl _ _) (.of (.refl _) rfl)
  | zext => exact execZext_kept (.refl _ _) (.of (.refl _) rfl)
  | qmul31 => exact execQmul31_kept (.refl _ _) (.of (.refl _) rfl)
  | qmulr31 => exact execQmulr31_kept (.refl _ _) (.of (.refl _) rfl)
  | qadd15 => exact execQadd15_kept (.refl _ _) (.of (.refl _) rfl)
  | qsub15 => exact execQsub15_kept (.refl _ _) (.of (.refl _) rfl)
  | qmul15 => exact execQmul15_kept (.refl _ _) (.of (.refl _) rfl)
  | qshl31 => exact execQshl31_kept (.refl _ _) (.of (.refl _) rfl)
  | qrsh31 => exact execQrsh31_kept (.refl _ _) (.of (.refl _) rfl)
  | qneg31 => exact execQneg31_kept (.refl _ _) (.of (.refl _) rfl)
  | qpack15 => exact execQpack15_kept (.refl _ _) (.of (.refl _) rfl)
  | fadd => exact execFadd_kept (.refl _ _) (.of (.refl _) rfl)
  | fsub => exact execFsub_kept (.refl _ _) (.of (.refl _) rfl)
  | fmul => exact execFmul_kept (.refl _ _) (.of (.refl _) rfl)
  | fdiv => exact execFdiv_kept (.refl _ _) (.of (.refl _) rfl)
  | fsqrt => exact execFsqrt_kept (.refl _ _) (.of (.refl _) rfl)
  | fmin => exact execFmin_kept (.refl _ _) (.of (.refl _) rfl)
  | fmax => exact execFmax_kept (.refl _ _) (.of (.refl _) rfl)
  | fabs => exact execFabs_kept (.refl _ _) (.of (.refl _) rfl)
  | fneg => exact execFneg_kept (.refl _ _) (.of (.refl _) rfl)
  | fcmp => exact execFcmp_kept (.refl _ _) (.of (.refl _) rfl)
  | fcvtsw => exact execFcvtsw_kept (.refl _ _) (.of (.refl _) rfl)
  | fcvtws => exact execFcvtws_kept (.refl _ _) (.of (.refl _) rfl)
  | fcvtwsz => exact execFcvtwsz_kept (.refl _ _) (.of (.refl _) rfl)
  | fscalb => exact execFscalb_kept (.refl _ _) (.of (.refl _) rfl)
  | mfs => exact execMfs_kept (.refl _ _) (.of (.refl _) rfl)
  | mtf => exact execMtf_kept (.refl _ _) (.of (.refl _) rfl)
  | ldw => exact execLdw_kept (.refl _ _) (.of (.refl _) rfl)
  | ldh => exact execLdh_kept (.refl _ _) (.of (.refl _) rfl)
  | ldhu => exact execLdhu_kept (.refl _ _) (.of (.refl _) rfl)
  | ldb => exact execLdb_kept (.refl _ _) (.of (.refl _) rfl)
  | ldbu => exact execLdbu_kept (.refl _ _) (.of (.refl _) rfl)
  | ldd => exact execLdd_kept (.refl _ _) (.of (.refl _) rfl)
  | stw => exact execStw_kept (.refl _ _) (.of (.refl _) rfl)
  | sth => exact execSth_kept (.refl _ _) (.of (.refl _) rfl)
  | stb => exact execStb_kept (.refl _ _) (.of (.refl _) rfl)
  | std => exact execStd_kept (.refl _ _) (.of (.refl _) rfl)
  | cldw => exact execCldw_kept (.refl _ _) (.of (.refl _) rfl)
  | cldd => exact execCldd_kept (.refl _ _) (.of (.refl _) rfl)
  | cstw => exact execCstw_kept (.refl _ _) (.of (.refl _) rfl)
  | cstd => exact execCstd_kept (.refl _ _) (.of (.refl _) rfl)
  | nld => exact execNld_kept (.refl _ _) (.of (.refl _) rfl)
  | nst => exact execNst_kept (.refl _ _) (.of (.refl _) rfl)
  | sld => exact execSld_kept (.refl _ _) (.of (.refl _) rfl)
  | sldp => exact execSldp_kept (.refl _ _) (.of (.refl _) rfl)
  | ild => exact execIld_kept (.refl _ _) (.of (.refl _) rfl)
  | ost => exact execOst_kept (.refl _ _) (.of (.refl _) rfl)
  | shld => exact execShld_kept (.refl _ _) (.of (.refl _) rfl)
  | shst => exact execShst_kept (.refl _ _) (.of (.refl _) rfl)
  | gset => exact execGset_kept (.refl _ _) (.of (.refl _) rfl)
  | evr => exact execEvr_kept (.refl _ _) (.of (.refl _) rfl)
  | cnote => exact execCnote_kept (.refl _ _) (.of (.refl _) rfl)
  | lim => exact execLim_kept (.refl _ _) (.of (.refl _) rfl)
  | loop => exact execLoop_kept (.refl _ _) (.of (.refl _) rfl)
  | beq => exact execBeq_kept (.refl _ _) (.of (.refl _) rfl)
  | bne => exact execBne_kept (.refl _ _) (.of (.refl _) rfl)
  | blt => exact execBlt_kept (.refl _ _) (.of (.refl _) rfl)
  | bge => exact execBge_kept (.refl _ _) (.of (.refl _) rfl)
  | bltu => exact execBltu_kept (.refl _ _) (.of (.refl _) rfl)
  | bgeu => exact execBgeu_kept (.refl _ _) (.of (.refl _) rfl)
  | bf => exact execBf_kept (.refl _ _) (.of (.refl _) rfl)
  | j => exact execJ_kept (.refl _ _) (.of (.refl _) rfl)
  | jl => exact execJl_kept (.refl _ _) (.of (.refl _) rfl)
  | jr => exact execJr_kept (.refl _ _) (.of (.refl _) rfl)
  | sel => exact execSel_kept (.refl _ _) (.of (.refl _) rfl)
  | callv => exact execCallv_kept (.refl _ _) (.of (.refl _) rfl)
  | callvr => exact execCallvr_kept (.refl _ _) (.of (.refl _) rfl)
  | retv => exact execRetv_kept (.refl _ _) (.of (.refl _) rfl)
  | dmaGo => exact execDmaGo_kept (.refl _ _) (.of (.refl _) rfl)
  | dmaStop => exact execDmaStop_kept (.refl _ _) (.of (.refl _) rfl)
  | dmaDescriptorDone => exact execDmaDescriptorDone_kept (.refl _ _) (.of (.refl _) rfl)
  | dmaBeatFault => exact execDmaBeatFault_kept (.refl _ _) (.of (.refl _) rfl)
  | scrubError => exact execScrubError_kept (.refl _ _) (.of (.refl _) rfl)
  | vcApply => exact execVcApply_kept (.refl _ _) (.of (.refl _) rfl)
  | vcCancel => exact execVcCancel_kept (.refl _ _) (.of (.refl _) rfl)
  | vcApplied => exact execVcApplied_kept (.refl _ _) (.of (.refl _) rfl)
  | chgLoad => exact execChgLoad_kept (.refl _ _) (.of (.refl _) rfl)
  | chgLoadDone => exact execChgLoadDone_kept (.refl _ _) (.of (.refl _) rfl)
  | shadowStart => exact execShadowStart_kept (.refl _ _) (.of (.refl _) rfl)
  | shadowDone => exact execShadowDone_kept (.refl _ _) (.of (.refl _) rfl)
  | chgSwitch => exact execChgSwitch_kept (.refl _ _) (.of (.refl _) rfl)
  | codeSwitch => exact execCodeSwitch_kept (.refl _ _) (.of (.refl _) rfl)
  | chgCancel => exact execChgCancel_kept (.refl _ _) (.of (.refl _) rfl)
  | forceArm => exact execForceArm_kept (.refl _ _) (.of (.refl _) rfl)
  | forceDisarm => exact execForceDisarm_kept (.refl _ _) (.of (.refl _) rfl)
  | forceValueWrite => exact execForceValueWrite_kept (.refl _ _) (.of (.refl _) rfl)
  | forceActivate => exact execForceActivate_kept (.refl _ _) (.of (.refl _) rfl)
  | forceEnd => exact execForceEnd_kept (.refl _ _) (.of (.refl _) rfl)
  | frcClearAll => exact execFrcClearAll_kept (.refl _ _) (.of (.refl _) rfl)
  | rplStart => exact execRplStart_kept (.refl _ _) (.of (.refl _) rfl)
  | replayCycle => exact execReplayCycle_kept (.refl _ _) (.of (.refl _) rfl)
  | replayDone => exact execReplayDone_kept (.refl _ _) (.of (.refl _) rfl)
  | rplCancel => exact execRplCancel_kept (.refl _ _) (.of (.refl _) rfl)
  | ringLineWrite => exact execRingLineWrite_kept (.refl _ _) (.of (.refl _) rfl)
  | slowRingLine => exact execSlowRingLine_kept (.refl _ _) (.of (.refl _) rfl)
  | sentenceStep => exact execSentenceStep_kept (.refl _ _) (.of (.refl _) rfl)
  | clauseTimeout => exact execClauseTimeout_kept (.refl _ _) (.of (.refl _) rfl)
  | lftTrig => exact execLftTrig_kept (.refl _ _) (.of (.refl _) rfl)
  | recordClose => exact execRecordClose_kept (.refl _ _) (.of (.refl _) rfl)
  | gapSkip => exact execGapSkip_kept (.refl _ _) (.of (.refl _) rfl)
  | scapArchived => exact execScapArchived_kept (.refl _ _) (.of (.refl _) rfl)
  | histClear => exact execHistClear_kept (.refl _ _) (.of (.refl _) rfl)
  | recLoad => exact execRecLoad_kept (.refl _ _) (.of (.refl _) rfl)
  | recProtect => exact execRecProtect_kept (.refl _ _) (.of (.refl _) rfl)
  | recUnprotect => exact execRecUnprotect_kept (.refl _ _) (.of (.refl _) rfl)
  | recDelete => exact execRecDelete_kept (.refl _ _) (.of (.refl _) rfl)
  | exportGo => exact execExportGo_kept (.refl _ _) (.of (.refl _) rfl)
  | exportStop => exact execExportStop_kept (.refl _ _) (.of (.refl _) rfl)
  | expDone => exact execExpDone_kept (.refl _ _) (.of (.refl _) rfl)
  | cellarEnqueue => exact execCellarEnqueue_kept (.refl _ _) (.of (.refl _) rfl)
  | cellarAdmit => exact execCellarAdmit_kept (.refl _ _) (.of (.refl _) rfl)
  | suppressed => exact execSuppressed_kept (.refl _ _) (.of (.refl _) rfl)
  | celCursorWrite => exact execCelCursorWrite_kept (.refl _ _) (.of (.refl _) rfl)
  | celStep => exact execCelStep_kept (.refl _ _) (.of (.refl _) rfl)
  | freeze => exact execFreeze_kept (.refl _ _) (.of (.refl _) rfl)
  | thaw => exact execThaw_kept (.refl _ _) (.of (.refl _) rfl)
  | freezeTimeout => exact execFreezeTimeout_kept (.refl _ _) (.of (.refl _) rfl)
  | rejoin => exact execRejoin_kept (.refl _ _) (.of (.refl _) rfl)
  | ptpSyncReceived => exact execPtpSyncReceived_kept (.refl _ _) (.of (.refl _) rfl)
  | ptpFollowUpReceived => exact execPtpFollowUpReceived_kept (.refl _ _) (.of (.refl _) rfl)
  | ptpAnnounceReceived => exact execPtpAnnounceReceived_kept (.refl _ _) (.of (.refl _) rfl)
  | pdelayReqSend => exact execPdelayReqSend_kept (.refl _ _) (.of (.refl _) rfl)
  | pdelayRespReceived => exact execPdelayRespReceived_kept (.refl _ _) (.of (.refl _) rfl)
  | ppsEdge => exact execPpsEdge_kept (.refl _ _) (.of (.refl _) rfl)
  | sourceLost => exact execSourceLost_kept (.refl _ _) (.of (.refl _) rfl)
  | timeStep => exact execTimeStep_kept (.refl _ _) (.of (.refl _) rfl)
  | refFail => exact execRefFail_kept (.refl _ _) (.of (.refl _) rfl)
  | holdoverExpired => exact execHoldoverExpired_kept (.refl _ _) (.of (.refl _) rfl)
  | accept => exact execAccept_kept (.refl _ _) (.of (.refl _) rfl)
  | ackAsym => exact execAckAsym_kept (.refl _ _) (.of (.refl _) rfl)
  | hstep => exact execHstep_kept (.refl _ _) (.of (.refl _) rfl)
  | rtcUpdate => exact execRtcUpdate_kept (.refl _ _) (.of (.refl _) rfl)
  | ppsOutPulse => exact execPpsOutPulse_kept (.refl _ _) (.of (.refl _) rfl)
  | teArm => exact execTeArm_kept (.refl _ _) (.of (.refl _) rfl)
  | teDisarm => exact execTeDisarm_kept (.refl _ _) (.of (.refl _) rfl)
  | timedEventFire => exact execTimedEventFire_kept (.refl _ _) (.of (.refl _) rfl)
  | tpoPulseEnd => exact execTpoPulseEnd_kept (.refl _ _) (.of (.refl _) rfl)
  | tciCapture => exact execTciCapture_kept (.refl _ _) (.of (.refl _) rfl)
  | tciPop => exact execTciPop_kept (.refl _ _) (.of (.refl _) rfl)
  | ethFrameReceived => exact execEthFrameReceived_kept (.refl _ _) (.of (.refl _) rfl)
  | gooseReceived => exact execGooseReceived_kept (.refl _ _) (.of (.refl _) rfl)
  | gooseTalExpired => exact execGooseTalExpired_kept (.refl _ _) (.of (.refl _) rfl)
  | svFrameReceived => exact execSvFrameReceived_kept (.refl _ _) (.of (.refl _) rfl)
  | hostRxFrame => exact execHostRxFrame_kept (.refl _ _) (.of (.refl _) rfl)
  | gooseRetransmit => exact execGooseRetransmit_kept (.refl _ _) (.of (.refl _) rfl)
  | svPublish => exact execSvPublish_kept (.refl _ _) (.of (.refl _) rfl)
  | prpSupervisionSend => exact execPrpSupervisionSend_kept (.refl _ _) (.of (.refl _) rfl)
  | lanLoss => exact execLanLoss_kept (.refl _ _) (.of (.refl _) rfl)
  | linkChg => exact execLinkChg_kept (.refl _ _) (.of (.refl _) rfl)
  | hostTxSend => exact execHostTxSend_kept (.refl _ _) (.of (.refl _) rfl)
  | conversionStart => exact execConversionStart_kept (.refl _ _) (.of (.refl _) rfl)
  | conversionDone => exact execConversionDone_kept (.refl _ _) (.of (.refl _) rfl)
  | readbackSlot => exact execReadbackSlot_kept (.refl _ _) (.of (.refl _) rfl)
  | thermal => exact execThermal_kept (.refl _ _) (.of (.refl _) rfl)
  | cmdApply => exact execCmdApply_kept (.refl _ _) (.of (.refl _) rfl)
  | uchHctlClr => exact execUchHctlClr_kept (.refl _ _) (.of (.refl _) rfl)
  | uchHctlReq => exact execUchHctlReq_kept (.refl _ _) (.of (.refl _) rfl)
  | grpFault => exact execGrpFault_kept (.refl _ _) (.of (.refl _) rfl)
  | grpRecover => exact execGrpRecover_kept (.refl _ _) (.of (.refl _) rfl)
  | controllerAlarmDrive => exact execControllerAlarmDrive_kept (.refl _ _) (.of (.refl _) rfl)
  | strapChg => exact execStrapChg_kept (.refl _ _) (.of (.refl _) rfl)
  | hartSend => exact execHartSend_kept (.refl _ _) (.of (.refl _) rfl)
  | hartAbort => exact execHartAbort_kept (.refl _ _) (.of (.refl _) rfl)
  | hartDone => exact execHartDone_kept (.refl _ _) (.of (.refl _) rfl)
  | registerWrite => exact execRegisterWrite_kept (.refl _ _) (.of (.refl _) rfl)
  | takeRead => exact execTakeRead_kept (.refl _ _) (.of (.refl _) rfl)
  | read64Low => exact execRead64Low_kept (.refl _ _) (.of (.refl _) rfl)
  | read64High => exact execRead64High_kept (.refl _ _) (.of (.refl _) rfl)
  | write64Low => exact execWrite64Low_kept (.refl _ _) (.of (.refl _) rfl)
  | write64High => exact execWrite64High_kept (.refl _ _) (.of (.refl _) rfl)
  | msixUnmask => exact execMsixUnmask_kept (.refl _ _) (.of (.refl _) rfl)
  | hostFunctionReset => exact execHostFunctionReset_kept (.refl _ _) (.of (.refl _) rfl)
  | challenge => exact execChallenge_kept (.refl _ _) (.of (.refl _) rfl)
  | grant => exact execGrant_kept (.refl _ _) (.of (.refl _) rfl)
  | attest => exact execAttest_kept (.refl _ _) (.of (.refl _) rfl)
  | identity => exact execIdentity_kept (.refl _ _) (.of (.refl _) rfl)
  | install => exact execInstall_kept (.refl _ _) (.of (.refl _) rfl)
  | svnCommit => exact execSvnCommit_kept (.refl _ _) (.of (.refl _) rfl)
  | keyProgram => exact execKeyProgram_kept (.refl _ _) (.of (.refl _) rfl)
  | keyRevoke => exact execKeyRevoke_kept (.refl _ _) (.of (.refl _) rfl)
  | lifecycle => exact execLifecycle_kept (.refl _ _) (.of (.refl _) rfl)
  | tamperClear => exact execTamperClear_kept (.refl _ _) (.of (.refl _) rfl)
  | wipeReport => exact execWipeReport_kept (.refl _ _) (.of (.refl _) rfl)
  | mailboxUnknownCommand => exact execMailboxUnknownCommand_kept (.refl _ _) (.of (.refl _) rfl)
  | mailboxDone => exact execMailboxDone_kept (.refl _ _) (.of (.refl _) rfl)
  | mailboxResponseExpired => exact execMailboxResponseExpired_kept (.refl _ _) (.of (.refl _) rfl)
  | challengeLapsed => exact execChallengeLapsed_kept (.refl _ _) (.of (.refl _) rfl)
  | lockoutEnd => exact execLockoutEnd_kept (.refl _ _) (.of (.refl _) rfl)
  | sessionLifetimeExpired => exact execSessionLifetimeExpired_kept (.refl _ _) (.of (.refl _) rfl)
  | sessionIdleExpired => exact execSessionIdleExpired_kept (.refl _ _) (.of (.refl _) rfl)
  | sessionClose => exact execSessionClose_kept (.refl _ _) (.of (.refl _) rfl)
  | serviceUartFrame => exact execServiceUartFrame_kept (.refl _ _) (.of (.refl _) rfl)
  | tamperSet => exact execTamperSet_kept (.refl _ _) (.of (.refl _) rfl)
  | brownout => exact execBrownout_kept (.refl _ _) (.of (.refl _) rfl)
  | supplyBack => exact execSupplyBack_kept (.refl _ _) (.of (.refl _) rfl)
  | rideThroughExpired => exact execRideThroughExpired_kept (.refl _ _) (.of (.refl _) rfl)
  | powerDown => exact execPowerDown_kept (.refl _ _) (.of (.refl _) rfl)
  | overvoltageDisconnect => exact execOvervoltageDisconnect_kept (.refl _ _) (.of (.refl _) rfl)
  | otWarn => exact execOtWarn_kept (.refl _ _) (.of (.refl _) rfl)
  | ot => exact execOt_kept (.refl _ _) (.of (.refl _) rfl)
  | otClear => exact execOtClear_kept (.refl _ _) (.of (.refl _) rfl)
  | clockFault => exact execClockFault_kept (.refl _ _) (.of (.refl _) rfl)
  | stemEnter => exact execStemEnter_kept (.refl _ _) (.of (.refl _) rfl)
  | stemCauseCleared => exact execStemCauseCleared_kept (.refl _ _) (.of (.refl _) rfl)
  | stemReturn => exact execStemReturn_kept (.refl _ _) (.of (.refl _) rfl)
  | stem => exact execStem_kept (.refl _ _) (.of (.refl _) rfl)
  | halt => exact execHalt_kept (.refl _ _) (.of (.refl _) rfl)
  | maint => exact execMaint_kept (.refl _ _) (.of (.refl _) rfl)
  | maintEnter => exact execMaintEnter_kept (.refl _ _) (.of (.refl _) rfl)
  | resume => exact execResume_kept (.refl _ _) (.of (.refl _) rfl)
  | warm => exact execWarm_kept (.refl _ _) (.of (.refl _) rfl)
  | warmReset => exact execWarmReset_kept (.refl _ _) (.of (.refl _) rfl)
  | rstNLow => exact execRstNLow_kept (.refl _ _) (.of (.refl _) rfl)
  | watchdogExpired => exact execWatchdogExpired_kept (.refl _ _) (.of (.refl _) rfl)
  | laneRst => exact execLaneRst_kept (.refl _ _) (.of (.refl _) rfl)
  | laneResetDone => exact execLaneResetDone_kept (.refl _ _) (.of (.refl _) rfl)
  | refOk => exact execRefOk_kept (.refl _ _) (.of (.refl _) rfl)
  | vmainGood => exact execVmainGood_kept (.refl _ _) (.of (.refl _) rfl)
  | supplyWarn => exact execSupplyWarn_kept (.refl _ _) (.of (.refl _) rfl)
  | domainFault => exact execDomainFault_kept (.refl _ _) (.of (.refl _) rfl)
  | rstNHigh => exact execRstNHigh_kept (.refl _ _) (.of (.refl _) rfl)
  | hartFrameReceived => exact execHartFrameReceived_kept (.refl _ _) (.of (.refl _) rfl)
  | scrubPassDone => exact execScrubPassDone_kept (.refl _ _) (.of (.refl _) rfl)

/-- SIX_ADVANCE completes while SIX runs (R23). -/
theorem exec_sixAdvance_next {s : State} (h : s.clk.running = true) :
    exec .sixAdvance s = .next (s.lftIdent.snapFill.nextSix.tick.celOrder s.cel.queue.length) := if_pos h

/-- While SIX runs, a command other than SIX_ADVANCE, COLD_START and HOLDUP_EXHAUSTED leaves it counting where it is. -/
theorem exec_six_same {c : Instr} {s t : State} (hsix : c ≠ .sixAdvance) (hcold : ∀ b, c ≠ .coldStart b)
    (hpower : ∀ h, c ≠ .holdupExhausted h) (run : s.clk.running = true) (e : exec c s = .next t) :
    t.clk.running = true ∧ t.six = s.six :=
  (exec_kept hsix hcold hpower t e).six run

/-- Settles O6: SIX_ADVANCE counts one further by its own rule, and every other command keeps SIX by `exec_kept`. -/
theorem sampleIndexOnlyAdvances : Obligations.SampleIndexOnlyAdvances := by
  refine ⟨fun c s t run e hcold hpower => ?_, fun s run => ?_⟩
  · by_cases hsix : c = .sixAdvance
    · subst hsix
      rw [if_pos rfl]
      exact execSixAdvance_six run e
    · rw [if_neg hsix]
      exact exec_six_same hsix hcold hpower run e
  · obtain ⟨running, advanced⟩ := execSixAdvance_six run (exec_sixAdvance_next run)
    exact ⟨_, exec_sixAdvance_next run, advanced, running⟩

end Sys2Proof.Machine
end

section
/-!
PROOFS. Chapter 4, the interjection unit: what a level comparator makes of one sample, case by case, and of a run of samples that meet its
test (R112).
-/
namespace Sys2Proof.Machine
open Sys2Proof

/-- The three tests of R112, each widened by `w`; no other mode has one. -/
theorem levelMeets_iff {mode : Nat} {x th w : Int} : levelMeets mode x th w = true ↔
    (mode = 1 ∧ th - w ≤ x) ∨ (mode = 2 ∧ x ≤ th + w) ∨ (mode = 3 ∧ th - w ≤ (x.natAbs : Int)) := by
  unfold levelMeets
  split
  next above => simp [above]
  next =>
    split
    next below => simp [below]
    next =>
      split
      next magnitude => simp [magnitude]
      next => simp [*]

section LevelStep
variable {mode pc : Nat} {th hyst : Int} {e : ElSt} {x : Samp}

theorem levelStep_of_unusable (hx : x.usable = false) : levelStep mode pc th hyst e x = ElSt.reset :=
  if_pos (.inr (by simp [hx]))

/-- A usable sample is judged by the test widened by HYST while the output is true, and by the bare test while it is false. -/
theorem levelStep_of_usable (hmode : mode ≠ 0) (hx : x.usable = true) : levelStep mode pc th hyst e x =
    if e.out then
      if levelMeets mode x.code th hyst then { e with test := e.test || x.test, subst := e.subst || x.subst } else ElSt.reset
    else if levelMeets mode x.code th 0 then
      ⟨min (e.cnt + 1) 255, pc ≤ min (e.cnt + 1) 255, e.test || x.test, e.subst || x.subst, 0⟩
    else ElSt.reset :=
  if_neg (by simp [hmode, hx])

theorem levelStep_of_held (hmode : mode ≠ 0) (hx : x.usable = true) (out : e.out = true)
    (meets : levelMeets mode x.code th hyst = true) :
    levelStep mode pc th hyst e x = { e with test := e.test || x.test, subst := e.subst || x.subst } := by
  rw [levelStep_of_usable hmode hx, if_pos out, if_pos meets]

theorem levelStep_of_dropped (hmode : mode ≠ 0) (hx : x.usable = true) (out : e.out = true)
    (fails : ¬levelMeets mode x.code th hyst = true) : levelStep mode pc th hyst e x = ElSt.reset := by
  rw [levelStep_of_usable hmode hx, if_pos out, if_neg fails]

theorem levelStep_of_counted (hmode : mode ≠ 0) (hx : x.usable = true) (out : e.out = false)
    (meets : levelMeets mode x.code th 0 = true) : levelStep mode pc th hyst e x =
      ⟨min (e.cnt + 1) 255, pc ≤ min (e.cnt + 1) 255, e.test || x.test, e.subst || x.subst, 0⟩ := by
  rw [levelStep_of_usable hmode hx, if_neg (by simp [out]), if_pos meets]

theorem levelStep_of_restarted (hmode : mode ≠ 0) (hx : x.usable = true) (out : e.out = false)
    (fails : ¬levelMeets mode x.code th 0 = true) : levelStep mode pc th hyst e x = ElSt.reset := by
  rw [levelStep_of_usable hmode hx, if_neg (by simp [out]), if_neg fails]

/-- A true output holds exactly while the sample meets the test widened by HYST; a dropped one has restarted its count. -/
theorem levelStep_holds (hmode : mode ≠ 0) (hx : x.usable = true) (out : e.out = true) :
    ((levelStep mode pc th hyst e x).out = true ↔ levelMeets mode x.code th hyst = true) ∧
      ((levelStep mode pc th hyst e x).out = false → (levelStep mode pc th hyst e x).cnt = 0) := by
  by_cases meets : levelMeets mode x.code th hyst = true
  · simp [levelStep_of_held hmode hx out meets, meets, out]
  · simp [levelStep_of_dropped hmode hx out meets, meets, ElSt.reset]

/-- A false output counts the samples that meet the test, and is true once the count has reached PC. -/
theorem levelStep_counts (hmode : mode ≠ 0) (hpc : 1 ≤ pc) (hx : x.usable = true) (out : e.out = false) :
    (levelMeets mode x.code th 0 = true → (levelStep mode pc th hyst e x).cnt = min (e.cnt + 1) 255) ∧
      (¬levelMeets mode x.code th 0 = true → (levelStep mode pc th hyst e x).cnt = 0) ∧
      ((levelStep mode pc th hyst e x).out = true ↔ pc ≤ (levelStep mode pc th hyst e x).cnt) := by
  by_cases meets : levelMeets mode x.code th 0 = true
  · simp [levelStep_of_counted hmode hx out meets, meets]
  · simp [levelStep_of_restarted hmode hx out meets, meets, ElSt.reset, Nat.ne_zero_of_lt hpc]

/-- From rest, a run of at most PC samples that meet the test is counted in full, and only the sample that completes PC of them picks
the output up: until then the output is false, so each sample is judged by the bare test. -/
theorem levelStep_foldl_of_meets (hmode : mode ≠ 0) (hpc : 1 ≤ pc) (hcap : pc ≤ 255) (l : List Samp) (hlen : l.length ≤ pc)
    (meets : ∀ z ∈ l, z.usable = true ∧ levelMeets mode z.code th 0 = true) :
    (l.foldl (levelStep mode pc th hyst) ElSt.reset).cnt = l.length ∧
      ((l.foldl (levelStep mode pc th hyst) ElSt.reset).out = true ↔ pc ≤ l.length) := by
  induction l using List.reverseRecOn with
  | nil => simp [ElSt.reset, Nat.ne_zero_of_lt hpc]
  | append_singleton l z ih =>
    rw [List.length_append, List.length_singleton] at hlen ⊢
    obtain ⟨cnt, pickedUp⟩ := ih (by omega) fun y hy => meets y (List.mem_append_left _ hy)
    obtain ⟨usable, meetsLast⟩ := meets z (by simp)
    have out : (l.foldl (levelStep mode pc th hyst) ElSt.reset).out = false :=
      Bool.eq_false_iff.mpr fun h => absurd (pickedUp.mp h) (by omega)
    obtain ⟨counts, -, outIff⟩ := levelStep_counts (th := th) (hyst := hyst) hmode hpc usable out
    have cntLast := (counts meetsLast).trans (show _ = l.length + 1 by omega)
    rw [List.foldl_concat]
    exact ⟨cntLast, cntLast ▸ outIff⟩

end LevelStep

/-- Settles O34: each clause is a rule of one sample; the last is the induction over the run of samples, read at all PC of them and at
every shorter prefix. -/
theorem levelElementCounts : Obligations.LevelElementCounts := by
  intro mode pc th hyst e x xs hmin _ hpc hcap meets u run
  have hmode : mode ≠ 0 := by omega
  have meets_iff (v w : Int) : meets v w ↔ levelMeets mode v th w = true := levelMeets_iff.symm
  simp only [meets_iff]
  refine ⟨fun hx => ?_, levelStep_holds hmode, levelStep_counts hmode hpc, fun hlen hmeets => ⟨?_, fun k hk => ?_⟩⟩
  · simp [u, levelStep_of_unusable hx, ElSt.reset]
  · exact (levelStep_foldl_of_meets hmode hpc hcap xs hlen.le hmeets).2.mpr hlen.ge
  · have prefixLen : (xs.take k).length = k := by rw [List.length_take]; omega
    have pickedUp := (levelStep_foldl_of_meets (hyst := hyst) hmode hpc hcap (xs.take k) (by omega)
      fun z hz => hmeets z (List.mem_of_mem_take hz)).2
    exact Bool.eq_false_iff.mpr fun h => absurd (pickedUp.mp h) (by omega)

end Sys2Proof.Machine
end

section
/-!
PROOFS. Chapter 5, the Sogen instruction set: how an instruction of a ready lane ends, and from that division (R147), immediate arithmetic
(R148), the condition codes (R145) and the load of the input region (R157).
-/
namespace Sys2Proof.Machine
open Sys2Proof

/-! ### How an instruction ends -/

@[simp] theorem arithDetail_zero (fmask : Nat) : arithDetail fmask 0 = 0 := Nat.zero_and fmask

/-- One trapped sticky bit is named alone, exactly when FMASK holds its bit (R172). -/
theorem arithDetail_of_bit {sticky : Nat} (fmask k : Nat)
    (h : b2n (bit sticky 9) + 2 * b2n (bit sticky 10) + 4 * b2n (bit sticky 8) = 2 ^ k) :
    arithDetail fmask sticky = fmask &&& 2 ^ k := by
  rw [arithDetail, h, Nat.and_comm]

theorem arithDetail_sDZ (fmask : Nat) : arithDetail fmask sDZ = fmask &&& 1 := arithDetail_of_bit fmask 0 (by decide)

theorem arithDetail_sSAT (fmask : Nat) : arithDetail fmask sSAT = fmask &&& 4 := arithDetail_of_bit fmask 2 (by decide)

/-- A masked power of two is all of it or nothing. -/
theorem and_two_pow_of_ne_zero {n k : Nat} (h : n &&& 2 ^ k ≠ 0) : n &&& 2 ^ k = 2 ^ k := by
  rw [Nat.and_two_pow] at h ⊢
  cases hbit : n.testBit k with
  | false => simp [hbit] at h
  | true => simp

/-- An instruction that would set one sticky bit completes where FMASK lets it, and otherwise raises ARITH with that bit of FMASK (R172). -/
theorem State.applyEffect_next_of_bit {s t : State} {c c1 : Cycle} {cost sticky k : Nat}
    (h : arithDetail c.fmask sticky = c.fmask &&& 2 ^ k) :
    s.applyEffect c cost (.next t c1 sticky) =
      if c.fmask &&& 2 ^ k = 0 then retired t c c1 cost sticky else s.exception c 8 (2 ^ k) c.pc := by
  split
  next untrapped => exact s.applyEffect_next t c c1 cost sticky (h.trans untrapped)
  next trapped => rw [State.applyEffect, h, if_neg trapped, and_two_pow_of_ne_zero trapped]

section OnReadyLane
variable {s : State} {ln : Fin 4} {c c1 : Cycle} {cost : Nat} {body : Body}

/-- An instruction that sets no sticky bit completes, whatever FMASK. -/
theorem Ready.insn_next (ready : Ready s ln c) (h : body s c = .next s c1 0) :
    s.insn ln cost false body = .next (retired s c c1 cost 0) := by
  rw [s.insn_ready ln c cost body ready, h, s.applyEffect_next s c c1 cost 0 (arithDetail_zero _)]

/-- An instruction that refuses its operands raises its exception at the pc. -/
theorem Ready.insn_trap {code detail : Nat} (ready : Ready s ln c) (h : body s c = .trap code detail) :
    s.insn ln cost false body = .next (s.exception c code detail c.pc) := by
  rw [s.insn_ready ln c cost body ready, h]
  obtain ⟨-, noLim, -⟩ := ready
  simp [State.applyEffect, Cycle.at_, noLim]

/-- An instruction that moves control. -/
theorem Ready.insn_jump {target : Nat} (ready : Ready s ln c) (h : body s c = .jump s c1 target) :
    s.insn ln cost false body = .next (jumped s c1 cost target) := by
  rw [s.insn_ready ln c cost body ready, h]; rfl

/-- An instruction that would set one sticky bit. -/
theorem Ready.insn_next_of_bit {sticky k : Nat} (ready : Ready s ln c) (h : body s c = .next s c1 sticky)
    (named : arithDetail c.fmask sticky = c.fmask &&& 2 ^ k) :
    s.insn ln cost false body =
      .next (if c.fmask &&& 2 ^ k = 0 then retired s c c1 cost sticky else s.exception c 8 (2 ^ k) c.pc) := by
  rw [s.insn_ready ln c cost body ready, h, State.applyEffect_next_of_bit named]

variable {d a b : Nat} {sb : Bool} {op : Word → Word → Alu 32} {v : Word} {flags : Nat}

/-- A register-format instruction whose operation sets no sticky bit. -/
theorem Ready.insn_alu (ready : Ready s ln c) (h : op (c.reg a) (c.reg b) = ⟨v, flags, 0⟩) :
    s.insn ln cost false (aluBody d a b sb false op) = .next (retired s c ((c.setReg d v).flags sb flags) cost 0) :=
  ready.insn_next (by simp [aluBody, h])

/-- A register-format instruction whose operation would set one sticky bit. -/
theorem Ready.insn_alu_of_bit {sticky k : Nat} (ready : Ready s ln c) (h : op (c.reg a) (c.reg b) = ⟨v, flags, sticky⟩)
    (named : arithDetail c.fmask sticky = c.fmask &&& 2 ^ k) :
    s.insn ln cost false (aluBody d a b sb false op) =
      .next (if c.fmask &&& 2 ^ k = 0 then retired s c ((c.setReg d v).flags sb flags) cost sticky
        else s.exception c 8 (2 ^ k) c.pc) :=
  ready.insn_next_of_bit (by simp [aluBody, h]) named

/-- An immediate instruction that sets no sticky bit; `az` says that a must be 0. -/
theorem Ready.insn_imm {imm : BitVec 16} {az : Bool} {op : Word → BitVec 16 → Word × Nat} (ready : Ready s ln c)
    (ha : az = true → a = 0) (h : op (c.reg a) imm = (v, 0)) :
    s.insn ln cost false (immBody d a imm az op) = .next (retired s c (c.setReg d v) cost 0) :=
  ready.insn_next (by rw [immBody, if_neg fun used => used.2 (ha used.1), h])

end OnReadyLane

/-! ### Division (R147) -/

section Division
variable {x y : Word}

theorem divAlu_of_zero (hy : y = 0) : divAlu x y =
    { plainAlu (if 0 ≤ x.toInt then 0x7fffffff#32 else 0x80000000#32) with sticky := sDZ } := if_pos hy

theorem divAlu_of_overflow (h : x = 0x80000000#32 ∧ y = 0xffffffff#32) :
    divAlu x y = ⟨0x7fffffff, zncv false false false true, sSAT⟩ := by
  obtain ⟨rfl, rfl⟩ := h; rfl

theorem divAlu_of_fits (hy : y ≠ 0) (fits : ¬(x = 0x80000000#32 ∧ y = 0xffffffff#32)) :
    divAlu x y = plainAlu (BitVec.ofInt 32 (Int.tdiv x.toInt y.toInt)) := by
  rw [divAlu, if_neg hy, if_neg fits]

theorem remAlu_of_zero (hy : y = 0) : remAlu x y = { plainAlu x with sticky := sDZ } := if_pos hy

theorem remAlu_of_overflow (h : x = 0x80000000#32 ∧ y = 0xffffffff#32) : remAlu x y = plainAlu 0 := by
  obtain ⟨rfl, rfl⟩ := h; rfl

theorem remAlu_of_fits (hy : y ≠ 0) (fits : ¬(x = 0x80000000#32 ∧ y = 0xffffffff#32)) :
    remAlu x y = plainAlu (BitVec.ofInt 32 (x.toInt - Int.tdiv x.toInt y.toInt * y.toInt)) := by
  rw [remAlu, if_neg hy, if_neg fits, Int.tmod_def, Int.mul_comm y.toInt]

theorem divuAlu_of_zero (hy : y = 0) : divuAlu x y = { plainAlu 0xffffffff with sticky := sDZ } := if_pos hy

theorem divuAlu_of_ne_zero (hy : y ≠ 0) : divuAlu x y = plainAlu (BitVec.ofNat 32 (x.toNat / y.toNat)) := if_neg hy

theorem remuAlu_of_zero (hy : y = 0) : remuAlu x y = { plainAlu x with sticky := sDZ } := if_pos hy

theorem remuAlu_of_ne_zero (hy : y ≠ 0) :
    remuAlu x y = plainAlu (BitVec.ofNat 32 (x.toNat - x.toNat / y.toNat * y.toNat)) := by
  rw [remuAlu, if_neg hy, Nat.mod_eq_sub_div_mul]

end Division

/-- Settles O12: each clause is the operation's result in its case, read through the rule for a result that sets no sticky bit or for one
that would set DZ or SAT. -/
theorem divisionResults : Obligations.DivisionResults := by
  intro s ln c d a b sb ready x y out ovr
  have plain {op : Word → Word → Alu 32} {v : Word} (h : op x y = plainAlu v) :
      s.insn ln 18 false (aluBody d a b sb false op) = out v false 0 0 :=
    (ready.insn_alu h).trans (by simp [out])
  have zeroDivisor {op : Word → Word → Alu 32} {v : Word} (h : op x y = { plainAlu v with sticky := sDZ }) :
      s.insn ln 18 false (aluBody d a b sb false op) = out v false 512 1 :=
    ready.insn_alu_of_bit (k := 0) h (arithDetail_sDZ _)
  refine ⟨fun hy fits => ⟨?_, ?_⟩, fun hy => ⟨?_, ?_⟩, fun overflows => ⟨?_, ?_⟩, fun hy => ⟨?_, ?_, ?_, ?_⟩⟩
  · exact plain (divAlu_of_fits hy fits)
  · exact plain (remAlu_of_fits hy fits)
  · exact plain (divuAlu_of_ne_zero hy)
  · exact plain (remuAlu_of_ne_zero hy)
  · exact ready.insn_alu_of_bit (k := 2) (divAlu_of_overflow overflows) (arithDetail_sSAT _)
  · exact plain (remAlu_of_overflow overflows)
  · exact zeroDivisor (divAlu_of_zero hy)
  · exact zeroDivisor (divuAlu_of_zero hy)
  · exact zeroDivisor (remAlu_of_zero hy)
  · exact zeroDivisor (remuAlu_of_zero hy)

/-! ### Condition codes (R145) -/

/-- The condition codes below 15, in the order of the table of R145. -/
theorem condTrue_eq_table {k : Nat} (hk : k < 15) (flg : Nat) :
    condTrue k flg =
      let z := bit flg 0
      let n := bit flg 1
      let c := bit flg 2
      let v := bit flg 3
      [z, !z, n != v, n == v, !c, c, !z && n == v, z || n != v, c && !z, !c || z, n, !n, v, !v, true].getD k false := by
  interval_cases k <;> rfl

/-- Z, N, C and V of FLG are those last written. -/
theorem flgBit_withZncv {i : Nat} (hi : i < 4) (flg f : Nat) : flgBit (withZncv flg f) i = flgBit f i := by
  simp only [flgBit, bit, withZncv]
  interval_cases i <;> congr 1 <;> omega

theorem flgBit_zncv : ∀ z n c v : Bool, flgBit (zncv z n c v) 0 = z ∧ flgBit (zncv z n c v) 1 = n ∧
    flgBit (zncv z n c v) 2 = c ∧ flgBit (zncv z n c v) 3 = v := by decide

/-- The difference of two words is negative exactly when the first is the smaller, and with a signed overflow exactly when it is not. -/
theorem msb_sub_ne_overflow_iff (x y : Word) :
    ((x - y).msb != ((x - y).toInt != x.toInt - y.toInt)) = true ↔ x.toInt < y.toInt := by
  have := x.toInt_lt
  have := x.le_toInt
  have := y.toInt_lt
  have := y.le_toInt
  have wrapped : (x - y).toInt = (x.toInt - y.toInt).bmod (2 ^ 32) := BitVec.toInt_sub
  rw [Int.bmod] at wrapped
  rw [BitVec.msb_eq_toInt, bne_iff_ne, Ne, Bool.eq_iff_iff, decide_eq_true_iff, bne_iff_ne]
  split at wrapped <;> omega

/-- What the condition codes test after SUB with its S bit: Z is equality, C the unsigned order, N against V the signed order (R144). -/
theorem flags_sub (flg : Nat) (x y : Word) : let f := withZncv flg (opSub x y).flags
    (flgBit f 0 = true ↔ x = y) ∧ (flgBit f 2 = true ↔ y.toNat ≤ x.toNat) ∧
      ((flgBit f 1 != flgBit f 3) = true ↔ x.toInt < y.toInt) ∧ ((flgBit f 1 == flgBit f 3) = true ↔ y.toInt ≤ x.toInt) := by
  obtain ⟨hz, hn, hc, hv⟩ := flgBit_zncv (x - y == 0) (x - y).msb (y.toNat ≤ x.toNat) ((x - y).toInt != x.toInt - y.toInt)
  simp only [flgBit_withZncv, Nat.reduceLT, opSub, subAlu, hz, hn, hc, hv]
  have less := msb_sub_ne_overflow_iff x y
  exact ⟨by rw [beq_iff_eq, sub_eq_zero], decide_eq_true_iff, less, by rw [← not_lt, ← less, bne_iff_ne, not_not, beq_iff_eq]⟩

/-- BF with its unused fields 0 branches on its condition, and refuses the reserved code. -/
theorem Ready.exec_bf {s : State} {ln : Fin 4} {c : Cycle} {d a : Fin 32} {imm : BitVec 16} (ready : Ready s ln c) (ha : a.val = 0)
    (hd : d.val < 16) : exec (.bf ln d a imm) s = .next (if d.val = 15 then s.exception c 1 4 c.pc
      else if condTrue d c.flg then jumped s c 2 (c.rel4 imm.toInt) else retired s c c 2 0) := by
  have bfBody_eq : bfBody d a imm s c = if d.val = 15 then .trap 1 4
      else if condTrue d c.flg then .jump s c (c.rel4 imm.toInt) else .next s c 0 := if_neg (by omega)
  split
  next reserved => exact ready.insn_trap (bfBody_eq.trans (if_pos reserved))
  next defined =>
    rw [if_neg defined] at bfBody_eq
    split
    next taken => exact ready.insn_jump (bfBody_eq.trans (if_pos taken))
    next fallsThrough => exact ready.insn_next (bfBody_eq.trans (if_neg fallsThrough))

/-- SEL with its unused field 0 selects on its condition, and refuses the reserved code. -/
theorem Ready.exec_sel {s : State} {ln : Fin 4} {c : Cycle} {d a b : Fin 32} {fn : BitVec 11} (ready : Ready s ln c)
    (hfn : fn.toNat < 16) : exec (.sel ln d a b fn) s = .next (if fn.toNat = 15 then s.exception c 1 4 c.pc
      else retired s c (c.setReg d (if condTrue fn.toNat c.flg then c.reg a else c.reg b)) 1 0) := by
  have selBody_eq : selBody d a b fn.toNat s c = if fn.toNat = 15 then .trap 1 4
      else .next s (c.setReg d (if condTrue fn.toNat c.flg then c.reg a else c.reg b)) 0 := if_neg (by omega)
  split
  next reserved => exact ready.insn_trap (selBody_eq.trans (if_pos reserved))
  next defined => exact ready.insn_next (selBody_eq.trans (if_neg defined))

/-- Settles O24: BF and SEL by their rules and the table, the codes after SUB by what its flags say. -/
theorem conditionCodes : Obligations.ConditionCodes := by
  constructor
  · intro s ln c d a b imm fn ready z n cy v holds far
    refine ⟨fun ha hd => (ready.exec_bf ha hd).trans ?_, fun hfn => (ready.exec_sel hfn).trans ?_⟩
    · split
      next reserved => rfl
      next defined => rw [condTrue_eq_table (by omega : d.val < 15)]; rfl
    · split
      next reserved => rfl
      next defined => rw [condTrue_eq_table (by omega : fn.toNat < 15)]
  · intro x y flg f
    obtain ⟨equal, notBelow, less, notLess⟩ := flags_sub flg x y
    simp only [condTrue, Bool.and_eq_true, Bool.or_eq_true, Bool.not_eq_true', ← Bool.not_eq_true, f, equal, notBelow, less, notLess,
      not_le, true_and]
    refine ⟨?_, ?_, ?_, ?_⟩
    · rw [← BitVec.toInt_inj]; omega
    · rw [← BitVec.toInt_inj]; omega
    · rw [← BitVec.toNat_inj]; omega
    · rw [← BitVec.toNat_inj]; omega

/-! ### Immediate arithmetic (R148) -/

theorem satS_32 (v : Int) : satS 32 v = satAlu 32 (-2147483648) 2147483647 v := rfl

/-- ADDIS of a sum within the range of a word (R148). -/
theorem opAddis_of_fits {x : Word} {imm : BitVec 16} {v : Int} (hv : x.toInt + imm.toInt = v)
    (fits : clampInt (-2147483648) 2147483647 v = v) : opAddis x imm = (BitVec.ofInt 32 v, 0) := by
  simp [opAddis, satS_32, satAlu, hv, fits]

/-- ADDIS of a sum beyond that range is clamped and sets SAT (R148). -/
theorem opAddis_of_clamped {x : Word} {imm : BitVec 16} {v : Int} (hv : x.toInt + imm.toInt = v)
    (clamped : clampInt (-2147483648) 2147483647 v ≠ v) :
    opAddis x imm = (BitVec.ofInt 32 (clampInt (-2147483648) 2147483647 v), sSAT) := by
  simp [opAddis, satS_32, satAlu, hv, clamped]

/-- Settles O13: every member but ADDIS sets no sticky bit; ADDIS sets SAT where it clamps, and LUI refuses an a other than 0. -/
theorem immediateResults : Obligations.ImmediateResults := by
  intro s ln c d a imm ready x se ze out v k
  have plain {op : Word → BitVec 16 → Word × Nat} {w : Word} (h : op x imm = (w, 0)) :
      s.insn ln 1 false (immBody d a imm false op) = out w 0 := ready.insn_imm nofun h
  refine ⟨plain rfl, ?_, plain rfl, plain rfl, plain rfl, ?_, plain rfl, plain rfl⟩
  · by_cases clamped : k ≠ v
    · refine (ready.insn_next_of_bit (k := 2) (by rw [immBody, if_neg (by simp), opAddis_of_clamped rfl clamped])
        (arithDetail_sSAT _)).trans ?_
      by_cases untrapped : c.fmask &&& 4 = 0
      · simp [untrapped, clamped, out, k, v, sSAT]
      · simp [untrapped, clamped]
    · have fits : k = v := not_not.mp clamped
      rw [if_neg fun h => clamped h.1, if_neg clamped, fits]
      exact plain (opAddis_of_fits rfl fits)
  · split
    next ha => exact ready.insn_imm (fun _ => ha) rfl
    next ha => exact ready.insn_trap (if_pos ⟨rfl, ha⟩)

/-! ### The input region (R157) -/

/-- Settles O20: the three outcomes of ILD by its offset. -/
theorem inputRegionLoad : Obligations.InputRegionLoad := by
  intro s ln c d a imm ready o
  have offset : c.nounOff a imm = o := rfl
  refine ⟨fun aligned inside => ?_, fun misaligned => ?_, fun aligned beyond => ?_⟩
  · exact ready.insn_next (by simp [ildBody, offset, aligned, inside.not_gt])
  · exact ready.insn_trap (by simp [ildBody, offset, misaligned])
  · exact ready.insn_trap (by simp [ildBody, offset, aligned, beyond])

end Sys2Proof.Machine
end

section
/-!
PROOFS. Chapter 10, the Cellar: which entry a full queue loses, by its severity and its age (R295).
-/
namespace Sys2Proof.Machine
open Sys2Proof

/-! ### The entry that is lost -/

theorem minSev_eq_foldl (l : List Raised) (m : Nat) : minSev l m = (l.map Raised.sev).foldl min m := by
  induction l generalizing m with
  | nil => rfl
  | cons x l ih => exact ih (min m x.sev)

/-- The least of a start value and the severities of a list is one of these, and none of them is less. -/
theorem min?_sev (l : List Raised) (m : Nat) : (m :: l.map Raised.sev).min? = some (minSev l m) := by
  rw [List.min?_cons', minSev_eq_foldl]

theorem minSev_le {l : List Raised} {m : Nat} {y : Raised} (hy : y ∈ l) : minSev l m ≤ y.sev :=
  (List.min?_eq_some_iff.mp (min?_sev l m)).2 _ (.tail _ (List.mem_map_of_mem hy))

/-- Started from the severity of an entry of the list, the least severity is that of an entry of the list. -/
theorem exists_sev_eq_minSev {l : List Raised} {e : Raised} (he : e ∈ l) : ∃ x ∈ l, x.sev = minSev l e.sev := by
  rcases List.mem_cons.mp (List.min?_eq_some_iff.mp (min?_sev l e.sev)).1 with own | other
  · exact ⟨e, he, own.symm⟩
  · exact List.mem_map.mp other

theorem dropNewest_eq_eraseP (m : Nat) (l : List Raised) : dropNewest m l = l.eraseP (fun x => x.sev = m) := by
  induction l with
  | nil => rfl
  | cons x l ih => by_cases h : x.sev = m <;> simp [dropNewest, h, ih]

/-- Of a queue, oldest first, that holds severity `m`, the newest entry of that severity is lost, and that entry alone. -/
theorem dropNewest_reverse {q : List Raised} {m : Nat} (present : ∃ x ∈ q, x.sev = m) :
    ∃ before after x, before ++ x :: after = q ∧ (dropNewest m q.reverse).reverse = before ++ after ∧ x.sev = m ∧
      ∀ y ∈ after, y.sev ≠ m := by
  obtain ⟨z, hz, hm⟩ := present
  obtain ⟨x, newer, older, others, hx, split, erased⟩ :=
    List.exists_of_eraseP (p := fun y : Raised => decide (y.sev = m)) (List.mem_reverse.mpr hz) (decide_eq_true hm)
  refine ⟨older.reverse, newer.reverse, x, ?_, ?_, of_decide_eq_true hx, ?_⟩
  · simpa using (congrArg List.reverse split).symm
  · rw [dropNewest_eq_eraseP, erased, List.reverse_append]
  · intro y hy same
    exact others y (List.mem_reverse.mp hy) (decide_eq_true same)

/-! ### The full queue -/

/-- An entry that arrives at a full queue: one entry is lost and counted, and CEL_EVT shows it. -/
theorem State.enqueue_full (s : State) (e : Raised) (takes : s.pwr.celStop = false) (full : celQueueMax ≤ s.cel.queue.length) :
    s.enqueue e =
      (({ s with cel := { s.cel with
          queue := (dropNewest (minSev (s.cel.queue ++ [e]).reverse e.sev) (s.cel.queue ++ [e]).reverse).reverse
          queueSince := s.cel.queueSince + 1 } } : State).bump F.CEL_DROP.QUEUE).raise F.CEL_EVT.DROP := by
  rw [State.enqueue, if_neg (by simp [takes]), if_neg full.not_gt]

/-- CEL_DROP.QUEUE counts a discard, saturating: the event that shows the discard stands in another register. -/
theorem State.get_bump_raise_celDrop (s : State) :
    ((s.bump F.CEL_DROP.QUEUE).raise F.CEL_EVT.DROP).get F.CEL_DROP.QUEUE = min (s.get F.CEL_DROP.QUEUE + 1) 65535 :=
  (State.get_congr (State.rd_raise_ne _ (by decide))).trans (s.get_bumpBy_same F.CEL_DROP.QUEUE 1 (by decide))

/-- Settles O49: with room the arrival is last; at a full queue the newest entry of the least severity goes, and is counted. -/
theorem fullQueueDiscards : Obligations.FullQueueDiscards := by
  intro s e takes
  refine ⟨fun room => ⟨s.enqueue e, rfl, by rw [s.enqueue_room e takes room]⟩, fun full => ⟨s.enqueue e, rfl, ?_⟩⟩
  have arrival : e ∈ (s.cel.queue ++ [e]).reverse := by simp
  obtain ⟨z, hz, least⟩ := exists_sev_eq_minSev arrival
  obtain ⟨before, after, x, parts, left, hx, newest⟩ := dropNewest_reverse ⟨z, List.mem_reverse.mp hz, least⟩
  rw [s.enqueue_full e takes full]
  refine ⟨⟨before, after, x, parts, ?_, fun y hy => ?_, hx ▸ newest⟩, State.get_bump_raise_celDrop _⟩
  · simpa using left
  · exact hx ▸ minSev_le (List.mem_reverse.mpr hy)

end Sys2Proof.Machine
end

section
/-!
PROOFS. The machine as a whole: what every command of the table keeps, whatever the state: the queue, the canonical forms of registers and
memories, and every part that `touches` does not list for it.
-/
namespace Sys2Proof.Machine
open Sys2Proof

/-! ### What every command keeps -/

/-- A command keeps the queue and the canonical forms, and every part that `touches` does not list for it. SIX_ADVANCE, COLD_START and
HOLDUP_EXHAUSTED do so by rules of their own, for they move or stop SIX. -/
theorem exec_frame {c : Instr} {s t : State} (h : exec c s = .next t) : KeptBut s t ∧ ∀ p, p ∉ touches c → p.same s t := by
  by_cases hsix : c = .sixAdvance
  · subst hsix
    exact ⟨execSixAdvance_but h, fun p hp => execSixAdvance_parts h p
      (Bool.eq_false_iff.mpr fun set => hp (partsMask_bit.mp set))⟩
  by_cases hcold : ∃ b, c = .coldStart b
  · obtain ⟨b, rfl⟩ := hcold
    exact ⟨execColdStart_but h, fun p hp => absurd (by cases p <;> decide : p ∈ Part.all) hp⟩
  by_cases hpower : ∃ hu, c = .holdupExhausted hu
  · obtain ⟨hu, rfl⟩ := hpower
    obtain ⟨but, parts⟩ := execHoldupExhausted_kept h
    exact ⟨but, fun p hp => parts p (Bool.eq_false_iff.mpr fun set => hp (partsMask_bit.mp set))⟩
  have kept := exec_kept hsix (fun b e => hcold ⟨b, e⟩) (fun hu e => hpower ⟨hu, e⟩) t h
  exact ⟨kept.but, fun p hp => kept.parts p (Bool.eq_false_iff.mpr fun set => hp (partsMask_bit.mp set))⟩

/-- Where a step comes from: the queue is empty and nothing changes, or the command at its front acts. -/
theorem step_cases {s t : State} (h : step s = .next t) :
    t = s ∨ ∃ c rest, exec c { s with pending := rest } = .next t := by
  unfold step at h
  split at h
  next => cases h; exact .inl rfl
  next c rest _ => exact .inr ⟨c, rest, h⟩

theorem step_pushFront (s : State) (c : Instr) : step (s.pushFront c) = exec c s := rfl

/-- Settles O3. -/
theorem registersStayCanonical : Obligations.RegistersStayCanonical := by
  intro s t wf h
  rcases step_cases h with rfl | ⟨c, rest, h⟩
  · exact wf
  · exact (exec_frame h).1.regs wf

/-- Settles O4. -/
theorem memoriesStayCanonical : Obligations.MemoriesStayCanonical := by
  intro s t wf h
  rcases step_cases h with rfl | ⟨c, rest, h⟩
  · exact wf
  · exact (exec_frame h).1.wf wf

/-- Settles O5. -/
theorem queueIsLeftAlone : Obligations.QueueIsLeftAlone := fun _ _ _ h => (exec_frame h).1.pending

/-- Bytes are read from the memory part alone. -/
theorem State.byteAt_congr {s t : State} (h : t.mem = s.mem) (sp a : Nat) : t.byteAt sp a = s.byteAt sp a := by
  unfold State.byteAt State.bytes; rw [h]

/-- Settles O8: the frame of the command, and reading memory through the part that it leaves alone. -/
theorem otherPartsAreLeftAlone : Obligations.OtherPartsAreLeftAlone := by
  intro c s t h
  obtain ⟨-, parts⟩ := exec_frame h
  exact ⟨parts, fun hmem => State.byteAt_congr (parts .mem hmem)⟩

/-- Settles O1. -/
theorem stepRunsFront : Obligations.StepRunsFront := by
  refine ⟨step_pushFront, fun s h => ?_⟩
  unfold step; rw [h]

/-- Settles O2. -/
theorem resetState : Obligations.ResetState :=
  ⟨fun _ => rfl, fun _ _ => rfl, fun _ => rfl, fun _ => rfl, rfl, rfl, rfl, rfl, rfl, rfl⟩

/-! ### Every command completes -/

theorem goesOn_next (t : State) : goesOn (.next t) := ⟨t, rfl⟩

theorem goesOn_ite {p : Prop} [Decidable p] {a b : Host.Outcome State Fault Refusal} (ha : goesOn a) (hb : goesOn b) :
    goesOn (if p then a else b) := by split <;> assumption

/-- An instruction completes, and on a lane without a cycle nothing happens. -/
theorem goesOn_insn (s : State) (ln cost : Nat) (isLoop : Bool) (body : Body) : goesOn (s.insn ln cost isLoop body) := by
  unfold State.insn
  split <;> exact goesOn_next _

/-- Settles O7: an instruction of the Sogen set by the frame of all of them, a command that looks for what it acts on by whether it finds
it, every other command by its conditions. -/
theorem noCommandStops : Obligations.NoCommandStops := by
  intro c s
  change goesOn (exec c s)
  cases c with dsimp only [exec]
  | add | sub | adds | subs | addus | subus | mul | mulh | mulhu | muls | div | divu | rem | remu | andReg | orReg | xorReg | andnReg
  | sll | srl | sra | ror | slt | sltu | minS | maxS | minu | maxu | abs | clz | addi | addis | andi | ori | xori | lui | slti | sltiu
  | add64 | sub64 | adds64 | subs64 | mull | mullu | and64 | or64 | xor64 | sll64 | srl64 | sra64 | slt64 | sltu64 | sext | zext
  | qmul31 | qmulr31 | qadd15 | qsub15 | qmul15 | qshl31 | qrsh31 | qneg31 | qpack15 | fadd | fsub | fmul | fdiv | fsqrt | fmin | fmax
  | fabs | fneg | fcmp | fcvtsw | fcvtws | fcvtwsz | fscalb | mfs | mtf | ldw | ldh | ldhu | ldb | ldbu | ldd | stw | sth | stb | std
  | cldw | cldd | cstw | cstd | nld | nst | sld | sldp | ild | ost | shld | shst | gset | evr | cnote | lim | loop | beq | bne | blt | bge
  | bltu | bgeu | bf | j | jl | jr | sel | callv | callvr | retv => exact goesOn_insn ..
  | illegalOpcode =>
    unfold execIllegalOpcode
    split
    · exact goesOn_insn ..
    · exact goesOn_next _
  | cycleRelease | eventTaskRelease | commandGroupSend | deadline | takeover | sampleReceived | compResend | stationRebind | peerShelfSend | tripRepeatSlot1 | tripUnack | tdoRelease | fastpathConfigEffect
  | gridValueCompute | dmaDescriptorDone | dmaBeatFault | scrubError | vcApplied | binConfirm
  | chgLoadDone | shadowStart | codeSwitch | replayCycle | replayDone | recordClose | gapSkip | ptpSyncReceived |
  ptpFollowUpReceived | ptpAnnounceReceived | pdelayRespReceived | timeStep | gooseReceived | gooseTalExpired | svFrameReceived |
  hostRxFrame | gooseRetransmit | svPublish | conversionDone | readbackSlot | cmdApply | hartDone | stemEnter |
  stemReturn | warmReset | laneResetDone | cellarAdmit =>
    delta execCycleRelease execEventTaskRelease execCommandGroupSend execDeadline execTakeover execSampleReceived
      execCompResend execStationRebind execPeerShelfSend execTripRepeatSlot1 execTripUnack
      execTdoRelease execFastpathConfigEffect execGridValueCompute execDmaDescriptorDone execDmaBeatFault execScrubError
      execVcApplied execBinConfirm
      execChgLoadDone execShadowStart execCodeSwitch execReplayCycle execReplayDone execRecordClose execGapSkip
      execPtpSyncReceived execPtpFollowUpReceived execPtpAnnounceReceived execPdelayRespReceived execTimeStep
      execGooseReceived execGooseTalExpired execSvFrameReceived execHostRxFrame execGooseRetransmit execSvPublish
      execConversionDone execReadbackSlot execCmdApply execHartDone execStemEnter execStemReturn
      execWarmReset execLaneResetDone execCellarAdmit
    repeat' first | extract_lets | split
    all_goals exact goesOn_next _
  | voteReceived =>
    unfold execVoteReceived
    dsimp only
    split
    · exact goesOn_next _
    · exact goesOn_ite (goesOn_next _) (goesOn_ite (goesOn_next _) (goesOn_next _))
  | mailboxDone =>
    unfold execMailboxDone
    split
    · exact goesOn_ite (goesOn_next _) (goesOn_next _)
    · exact goesOn_next _
  | unitstatReceived =>
    refine goesOn_ite (goesOn_next _) (goesOn_ite (goesOn_next _) ?_)
    dsimp only
    split <;> exact goesOn_next _
  | _ =>
    repeat' apply goesOn_ite
    all_goals exact goesOn_next _

end Sys2Proof.Machine
end

section
/-!
PROOFS. Chapter 5, the Sogen instruction set: the results, the flags and the traps of the arithmetic groups (R144 to R153, R172).
-/
namespace Sys2Proof.Machine
open Sys2Proof

/-! ### Arithmetic instructions that set any sticky bits -/

section OnReadyLane
variable {s : State} {ln : Fin 4} {c : Cycle} {cost d a b : Nat} {sb bz : Bool} {op : Word → Word → Alu 32}

/-- A register-format instruction whose unused field is 0 writes its result, its flags and its sticky bits. -/
theorem aluBody_of_used (hb : bz = true → b = 0) : aluBody d a b sb bz op s c =
    .next s ((c.setReg d (op (c.reg a) (c.reg b)).val).flags sb (op (c.reg a) (c.reg b)).flags) (op (c.reg a) (c.reg b)).sticky :=
  if_neg fun used => used.2 (hb used.1)

/-- On a ready lane it completes when FMASK traps none of its sticky bits. -/
theorem Ready.insn_alu_of_untrapped (ready : Ready s ln c) (hb : bz = true → b = 0)
    (untrapped : arithDetail c.fmask (op (c.reg a) (c.reg b)).sticky = 0) : s.insn ln cost false (aluBody d a b sb bz op) =
      .next (retired s c ((c.setReg d (op (c.reg a) (c.reg b)).val).flags sb (op (c.reg a) (c.reg b)).flags) cost
        (op (c.reg a) (c.reg b)).sticky) := by
  rw [s.insn_ready ln c cost _ ready, aluBody_of_used hb, s.applyEffect_next s c _ cost _ untrapped]

/-- It refuses an unused field other than 0. -/
theorem Ready.insn_alu_unused (ready : Ready s ln c) (hb : b ≠ 0) :
    s.insn ln cost false (aluBody d a b sb true op) = .next (s.exception c 1 3 c.pc) :=
  ready.insn_trap (if_pos ⟨rfl, hb⟩)

/-- A trapped sticky bit raises ARITH, and nothing of the instruction's own is written. -/
theorem Ready.insn_alu_trapped {k : Nat} (ready : Ready s ln c) (hb : bz = true → b = 0)
    (named : arithDetail c.fmask (op (c.reg a) (c.reg b)).sticky = c.fmask &&& 2 ^ k) (traps : c.fmask &&& 2 ^ k ≠ 0) :
    s.insn ln cost false (aluBody d a b sb bz op) = .next (s.exception c 8 (2 ^ k) c.pc) := by
  rw [ready.insn_next_of_bit (aluBody_of_used hb) named, if_neg traps]

end OnReadyLane

/-! ### Integer results (R144, R146) -/

theorem plainAlu_ite {p : Prop} [Decidable p] : boolAlu (decide p) = plainAlu (if p then 1 else 0) := by
  simp [boolAlu]

/-- Settles O9: every member but CLZ uses all its fields; each result is the operation's own. -/
theorem integerResults : Obligations.IntegerResults := by
  intro s ln c d a b sb ready x y out sh
  have plain {cost : Nat} {op : Word → Word → Alu 32} {v : Word} (h : op x y = plainAlu v) :
      s.insn ln cost false (aluBody d a b sb false op) = out v false false cost := ready.insn_alu h
  exact ⟨ready.insn_alu rfl, ready.insn_alu rfl, plain rfl, plain rfl, plain rfl, plain rfl, plain rfl, plain rfl, plain rfl, plain rfl,
    plain rfl, plain rfl, plain rfl, plain plainAlu_ite, plain plainAlu_ite, plain rfl, plain rfl, plain rfl, plain rfl,
    fun hb => ready.insn_alu_of_untrapped (op := opClz) (fun _ => hb) (arithDetail_zero _) |>.trans (by
      simp only [opClz, clz, plainAlu, out]
      split <;> rfl)⟩

/-! ### Saturating results (R146, R150) -/

/-- A sticky SAT that FMASK does not trap. -/
theorem arithDetail_sat {fmask : Nat} (untrapped : fmask &&& 4 = 0) (sat : Bool) : arithDetail fmask (if sat then sSAT else 0) = 0 := by
  cases sat
  · exact arithDetail_zero _
  · exact (arithDetail_sSAT _).trans untrapped

/-- Settles O10: a clamped result sets SAT, which FMASK does not trap; the other results set nothing. -/
theorem saturatingResults : Obligations.SaturatingResults := by
  intro s ln c d a b sb ready untrapped x y clip s32 hi lo half pack
  have clamped {cost : Nat} {bz : Bool} {op : Word → Word → Alu 32} {l h v : Int} (hb : bz = true → b.val = 0)
      (e : op x y = satAlu 32 l h v) : s.insn ln cost false (aluBody d a b sb bz op) = clip l h v cost := by
    have := ready.insn_alu_of_untrapped (cost := cost) (d := d) (a := a) (sb := sb) (op := op) hb (by
      rw [show op (c.reg a) (c.reg b) = _ from e]; exact arithDetail_sat untrapped _)
    rwa [show op (c.reg a) (c.reg b) = _ from e] at this
  have packed {cost : Nat} {op : Word → Word → Alu 32} {h l : Int} (e : op x y = packAlu h l) :
      s.insn ln cost false (aluBody d a b sb false op) = pack h l cost := by
    have := ready.insn_alu_of_untrapped (cost := cost) (bz := false) (d := d) (a := a) (b := b) (sb := sb) (op := op) nofun (by
      rw [show op (c.reg a) (c.reg b) = _ from e]; exact arithDetail_sat untrapped _)
    rwa [show op (c.reg a) (c.reg b) = _ from e] at this
  exact ⟨clamped nofun rfl, clamped nofun rfl, clamped nofun rfl, clamped nofun rfl, clamped nofun rfl, fun hb => clamped (fun _ => hb) rfl,
    clamped nofun rfl, clamped nofun rfl, clamped nofun rfl, fun hb => clamped (fun _ => hb) rfl, packed rfl, packed rfl, packed rfl,
    packed rfl⟩

end Sys2Proof.Machine
end

section
/-!
PROOFS. Chapter 5, rounding: the rounded shift stays within a word (R150), and the float group keeps what is exact (R151 to R153).
-/
namespace Sys2Proof.Machine
open Sys2Proof

/-! ### Rounding to nearest even (R90) -/

theorem rnd_one (x : Int) : rnd x 1 = x := by
  simp [rnd]

/-- A rounded quotient lies within one of the truncated one. -/
theorem natAbs_rnd_le (x : Int) (n : Nat) : (rnd x n).natAbs ≤ x.natAbs / n + 1 := by
  have quotient : (Int.tdiv x n).natAbs = x.natAbs / n := (Int.natAbs_tdiv x n).trans (by rw [Int.natAbs_natCast]; rfl)
  have sign : x.sign.natAbs ≤ 1 := by rw [Int.natAbs_sign]; split <;> omega
  unfold rnd
  dsimp only
  split <;> omega

/-- A word shifted right and rounded stays a word: by 0 it is itself, by more it is at most half as great, and one more. -/
theorem rnd_word_bounds (x : Word) (k : Nat) :
    -2147483648 ≤ rnd x.toInt (2 ^ k) ∧ rnd x.toInt (2 ^ k) ≤ 2147483647 := by
  have low := x.le_toInt
  have high := x.toInt_lt
  cases k with
  | zero => rw [pow_zero, rnd_one]; omega
  | succ k =>
    have bound := natAbs_rnd_le x.toInt (2 ^ (k + 1))
    have half : x.toInt.natAbs / 2 ^ (k + 1) ≤ x.toInt.natAbs / 2 :=
      Nat.div_le_div_left (by rw [pow_succ]; have := Nat.one_le_two_pow (n := k); omega) (by omega)
    omega

theorem clampInt_of_mem {l h v : Int} (hl : l ≤ v) (hh : v ≤ h) : clampInt l h v = v := by
  rw [clampInt, if_neg (by omega), if_neg (by omega)]

/-- A value within a word is not clamped: no SAT and no V. -/
theorem satS_of_mem {v : Int} (hl : -2147483648 ≤ v) (hh : v ≤ 2147483647) : satS 32 v = plainAlu (BitVec.ofInt 32 v) := by
  rw [satS_32, satAlu, clampInt_of_mem hl hh]
  simp [plainAlu]

theorem toInt_ofInt_of_mem {v : Int} (hl : -2147483648 ≤ v) (hh : v ≤ 2147483647) : (BitVec.ofInt 32 v).toInt = v := by
  rw [BitVec.toInt_ofInt, Int.bmod_eq_of_le] <;> omega

/-- Settles O11. -/
theorem roundedShiftNeverClamps : Obligations.RoundedShiftNeverClamps := by
  intro s ln c d a b sb ready v r
  obtain ⟨low, high⟩ := rnd_word_bounds (c.reg a) ((c.reg b).toNat % 32)
  exact ⟨toInt_ofInt_of_mem low high, ready.insn_alu (satS_of_mem low high)⟩

/-! ### Normal binary32 words (R151) -/

/-- Significand and exponent of a normal word. -/
def fMant (x : Word) : Nat := 2 ^ 23 + x.toNat % 2 ^ 23
def fExp (x : Word) : Int := ((x.toNat / 2 ^ 23 % 256 : Nat) : Int) - 150

/-- A word is a normal binary32 number: its exponent field is neither 0 nor 255. -/
def fNormal (x : Word) : Prop := 1 ≤ fieldOf x 23 8 ∧ fieldOf x 23 8 ≤ 254

theorem fMant_bounds (x : Word) : 2 ^ 23 ≤ fMant x ∧ fMant x < 2 ^ 24 := by
  unfold fMant; omega

theorem msb_word (x : Word) : x.msb = decide (2 ^ 31 ≤ x.toNat) := BitVec.msb_eq_decide x

theorem fpOf_normal {x : Word} (h : fNormal x) : fpOf x = .fin x.msb (fMant x) (fExp x) := by
  obtain ⟨low, high⟩ := h
  simp only [fieldOf] at low high
  unfold fpOf
  dsimp only
  rw [if_neg (by omega), if_neg (by omega)]
  rfl

/-- A 24-bit significand that is shifted left, with the exponent shifted as much, rounds to the word of the number itself. -/
theorem fRound_shifted (neg : Bool) {m : Nat} (k : Nat) {ex : Nat} (hm : 2 ^ 23 ≤ m ∧ m < 2 ^ 24) (hex : 1 ≤ ex ∧ ex ≤ 254) :
    fRound neg (m * 2 ^ k) ((ex : Int) - 150 - k) false = (BitVec.ofNat 32 (b2n neg * 2 ^ 31 + ex * 2 ^ 23 + (m - 2 ^ 23)), 0) := by
  obtain ⟨hlow, hhigh⟩ := hm
  have bits : Nat.log2 (m * 2 ^ k) = 23 + k := by
    rw [Nat.log2_eq_iff (by positivity), pow_add, pow_add, pow_add]
    exact ⟨Nat.mul_le_mul_right _ hlow, by
      calc m * 2 ^ k < 2 ^ 24 * 2 ^ k := Nat.mul_lt_mul_of_pos_right hhigh (by positivity)
        _ = 2 ^ 23 * 2 ^ k * 2 ^ 1 := by ring⟩
  have drop : 23 + k + 1 - 24 = k := by omega
  have lift : 24 - (23 + k + 1) = 0 := by omega
  have tie : (0 == 2 ^ (k - 1)) = false := by
    have : 0 < 2 ^ (k - 1) := by positivity
    simp; omega
  have quotient : m * 2 ^ k * 2 ^ 0 / 2 ^ k = m := by rw [pow_zero, mul_one, Nat.mul_div_cancel _ (by positivity)]
  have carry : (m == 2 ^ 24) = false := by simpa using hhigh.ne
  have exponent : (ex : Int) - 150 - k + ((23 + k + 1 : Nat) : Int) + ((0 : Nat) : Int) + 126 = ex := by omega
  simp only [fRound, bits, drop, lift, Nat.mul_mod_left, tie, Nat.not_lt_zero, decide_false, Bool.false_and, Bool.or_self, Bool.and_false,
    b2n, quotient, add_zero, carry, Bool.false_eq_true, if_false, exponent]
  rw [if_neg (by omega), if_neg (by omega), Int.toNat_natCast]

/-- Inverting the sign bit moves it and nothing else. -/
theorem toNat_xor_signBit (x : Word) :
    (x ^^^ 0x80000000).toNat = if 2 ^ 31 ≤ x.toNat then x.toNat - 2 ^ 31 else x.toNat + 2 ^ 31 := by
  have bound := x.isLt
  have upper : (x.toNat ^^^ 2 ^ 31) / 2 ^ 31 = x.toNat / 2 ^ 31 ^^^ 1 := Nat.xor_div_two_pow
  have lower : (x.toNat ^^^ 2 ^ 31) % 2 ^ 31 = x.toNat % 2 ^ 31 := by rw [Nat.xor_mod_two_pow]; simp
  rw [BitVec.toNat_xor, show (0x80000000 : Word).toNat = 2 ^ 31 from rfl]
  split
  next set =>
    rw [show x.toNat / 2 ^ 31 = 1 by omega] at upper
    simp only [Nat.xor_self] at upper
    omega
  next clear =>
    rw [show x.toNat / 2 ^ 31 = 0 by omega] at upper
    simp only [Nat.zero_xor] at upper
    omega

/-- A normal word from its exponent field and its significand, with its own sign or the other. -/
theorem normal_word (x : Word) (neg : Bool) :
    BitVec.ofNat 32 (b2n neg * 2 ^ 31 + x.toNat / 2 ^ 23 % 256 * 2 ^ 23 + (fMant x - 2 ^ 23)) =
      if neg = x.msb then x else x ^^^ 0x80000000 := by
  have bound := x.isLt
  apply BitVec.eq_of_toNat_eq
  rw [apply_ite BitVec.toNat, toNat_xor_signBit, msb_word, BitVec.toNat_ofNat, fMant]
  cases neg <;> simp only [b2n, if_true, if_false, Bool.false_eq_true] <;> grind

section Normal
variable {x : Word} (h : fNormal x)
include h

/-- A normal number with its exponent and its significand moved against each other is the word itself, or its negative. -/
theorem fRound_normal (neg : Bool) (k : Nat) : fRound neg (fMant x * 2 ^ k) (fExp x - k) false =
    (if neg = x.msb then x else x ^^^ 0x80000000, 0) := by
  obtain ⟨low, high⟩ := h
  exact (fRound_shifted neg k (fMant_bounds x) ⟨low, high⟩).trans (congrArg (·, 0) (normal_word x neg))

theorem fRound_self (neg : Bool) : fRound neg (fMant x) (fExp x) false = (if neg = x.msb then x else x ^^^ 0x80000000, 0) := by
  simpa using fRound_normal h neg 0

theorem fTake_normal : fTake x = x := by
  simp [fTake, fpOf_normal h, fpWord, fRound_self h]

theorem fpAdd_normal_zero (neg : Bool) : fpAdd (fpOf x) (.zero neg) = (x, 0) := by
  simp [fpOf_normal h, fpAdd, fpWord, fRound_self h]

theorem fpScale_normal_zero : fpScale (fpOf x) 0 = (x, 0) := by
  simp [fpOf_normal h, fpScale, fRound_self h]

theorem fpMul_normal_one : fpMul (fpOf x) (.fin false (2 ^ 23) (-23)) = (x, 0) := by
  rw [fpOf_normal h, fpMul, show fExp x + -23 = fExp x - (23 : Nat) by omega]
  simpa using fRound_normal h x.msb 23

theorem fpDiv_normal_one : fpDiv (fpOf x) (.fin false (2 ^ 23) (-23)) = (x, 0) := by
  have quotient : fMant x * 2 ^ 40 / 2 ^ 23 = fMant x * 2 ^ 17 := by omega
  have exact_ : fMant x * 2 ^ 40 % 2 ^ 23 = 0 := by omega
  have exponent : fExp x - (-23) - 40 = fExp x - (17 : Nat) := by omega
  rw [fpOf_normal h, fpDiv, quotient, exact_, exponent]
  simpa using fRound_normal h x.msb 17

theorem fpWord_neg_normal : fpWord (fpOf x).neg = x ^^^ 0x80000000 := by
  simp [fpOf_normal h, Fp.neg, fpWord, fRound_self h]

theorem ne_fNan_of_normal : x ≠ fNan := by
  rintro rfl
  exact absurd h.2 (by decide)

theorem fPick_normal (lo : Bool) : fPick lo x x = x := by
  simp [fPick, fTake_normal h, ne_fNan_of_normal h]

theorem fCmp_normal : fCmp x x = zncv true false true false := by
  simp [fCmp, fTake_normal h, ne_fNan_of_normal h]

end Normal

/-! ### Float results (R152, R153) -/

/-- A task that traps no sticky bit has none trapped. -/
theorem arithDetail_of_fmask_zero {fmask : Nat} (h : fmask = 0) (sticky : Nat) : arithDetail fmask sticky = 0 := by
  rw [arithDetail, h, Nat.and_zero]

/-- The flags of an exact result that is neither a zero nor a NaN: N alone says its sign. -/
theorem fAlu_of_nonzero {v : Word} (nonzero : v &&& 0x7FFFFFFF ≠ 0) (number : v ≠ fNan) :
    fAlu (v, 0) = ⟨v, zncv false v.msb false false, 0⟩ := by
  have z : (v &&& 0x7FFFFFFF == 0) = false := beq_eq_false_iff_ne.mpr nonzero
  have n : (v == fNan) = false := beq_eq_false_iff_ne.mpr number
  simp only [fAlu, z, n]

theorem magnitude_toNat (x : Word) : (x &&& 0x7FFFFFFF).toNat = x.toNat % 2 ^ 31 := by
  rw [BitVec.toNat_and]
  exact Nat.and_two_pow_sub_one_eq_mod x.toNat 31

theorem fAlu_normal {x : Word} (h : fNormal x) : fAlu (x, 0) = ⟨x, zncv false x.msb false false, 0⟩ := by
  refine fAlu_of_nonzero (fun zero => ?_) (ne_fNan_of_normal h)
  have := congrArg BitVec.toNat zero
  obtain ⟨low, -⟩ := h
  rw [magnitude_toNat] at this
  simp only [fieldOf] at low
  simp at this
  omega

theorem fNormal_magnitude {x : Word} (h : fNormal x) : fNormal (x &&& 0x7FFFFFFF) := by
  simp only [fNormal, fieldOf, magnitude_toNat] at h ⊢
  omega

theorem fNormal_xor_signBit {x : Word} (h : fNormal x) : fNormal (x ^^^ 0x80000000) := by
  simp only [fNormal, fieldOf, toNat_xor_signBit] at h ⊢
  split <;> omega

/-- Settles O15: the results by the rules of the register format; on normal words each operation is exact. -/
theorem floatIdentities : Obligations.FloatIdentities := by
  intro s ln c d a b sb ready x y out did cvt
  have exact_ {cost : Nat} {op : Word → Word → Alu 32} {v : Word} (hv : fNormal v) (h : op x y = fAlu (v, 0)) :
      s.insn ln cost false (aluBody d a b sb false op) = out v cost := ready.insn_alu (h.trans (fAlu_normal hv))
  have exactOfOne {cost : Nat} {op : Word → Word → Alu 32} {v : Word} (hb : b.val = 0)
      (h : op x y = ⟨v, zncv false v.msb false false, 0⟩) : s.insn ln cost false (aluBody d a b sb true op) = out v cost :=
    ready.insn_next (by rw [aluBody_of_used fun _ => hb, h])
  refine ⟨fun free => ?_, fun hd => ?_, fun low high => ?_, fun hb one => ?_, fun hb one => ?_⟩
  · have did_of {cost : Nat} {bz : Bool} {op : Word → Word → Alu 32} (hb : bz = true → b.val = 0) :
        s.insn ln cost false (aluBody d a b sb bz op) = .next (retired s c ((c.setReg d (op x y).val).flags sb (op x y).flags) cost
          (op x y).sticky) := ready.insn_alu_of_untrapped hb (arithDetail_of_fmask_zero free _)
    exact ⟨did_of nofun, did_of nofun, did_of nofun, did_of nofun, did_of nofun, did_of nofun, did_of nofun, fun hb =>
      ⟨did_of fun _ => hb, did_of fun _ => hb, did_of fun _ => hb, did_of fun _ => hb, did_of fun _ => hb, did_of fun _ => hb⟩⟩
  · exact ready.insn_next (if_neg (not_not.mpr hd))
  · have normal : fNormal x := ⟨low, high⟩
    refine ⟨fun zero => ?_, fun one => ?_, fun same => ?_, fun hb => ?_, fun hd same => ?_⟩
    · refine ⟨exact_ normal ?_, exact_ normal ?_, exact_ normal ?_⟩
      · rw [opFadd, zero]; exact congrArg fAlu (fpAdd_normal_zero normal false)
      · rw [opFsub, zero]; exact congrArg fAlu (fpAdd_normal_zero normal true)
      · rw [opFscalb, zero]; exact congrArg fAlu (fpScale_normal_zero normal)
    · refine ⟨exact_ normal ?_, exact_ normal ?_⟩
      · rw [opFmul, one]; exact congrArg fAlu (fpMul_normal_one normal)
      · rw [opFdiv, one]; exact congrArg fAlu (fpDiv_normal_one normal)
    · refine ⟨exact_ normal ?_, exact_ normal ?_⟩
      · rw [opFmin, same, fPick_normal normal]
      · rw [opFmax, same, fPick_normal normal]
    · refine ⟨exactOfOne hb ?_, exactOfOne hb ?_⟩
      · rw [opFabs, fTake_normal normal]; exact fAlu_normal (fNormal_magnitude normal)
      · rw [opFneg, fpWord_neg_normal normal]; exact fAlu_normal (fNormal_xor_signBit normal)
    · exact ready.insn_next (by rw [fcmpBody, if_neg (not_not.mpr hd), show c.reg b = c.reg a from same, fCmp_normal normal])
  · exact ⟨exactOfOne hb (by rw [opFsqrt, one]; decide +kernel), exactOfOne hb (by rw [opFcvtws, one]; decide +kernel),
      exactOfOne hb (by rw [opFcvtwsz, one]; decide +kernel)⟩
  · exact exactOfOne hb (by rw [opFcvtsw, one]; decide +kernel)

end Sys2Proof.Machine
end

section
/-!
PROOFS. Chapter 5, the rest of the arithmetic: the 64-bit group (R149), NaN operands and invalid operations (R151, R152), trapped sticky
bits and refused fields (R169, R172).
-/
namespace Sys2Proof.Machine
open Sys2Proof

/-! ### The 64-bit group -/

section OnReadyLane
variable {s : State} {ln : Fin 4} {c : Cycle} {cost d a b : Nat} {sb : Bool} {fm : WideForm} {op : BitVec 64 → BitVec 64 → Alu 64}

/-- The operands of the 64-bit group: a pair, or a register in the low half. -/
def Cycle.wide (c : Cycle) (pairs : Bool) (i : Nat) : BitVec 64 := if pairs then c.pair i else (c.reg i).setWidth 64

/-- The cycle with a result of the 64-bit group: in a pair, or its low half in a register. -/
def Cycle.setWide (c : Cycle) (pairs : Bool) (i : Nat) (v : BitVec 64) : Cycle := if pairs then c.setPair i v else c.setReg i (low32 v)

theorem low32_setWidth (w : Word) : low32 (w.setWidth 64) = w := by
  simp [low32]

theorem oddPair_of_even {p : Bool} {i : Nat} (h : p = true → i % 2 = 0) : oddPair p i = false := by
  cases p with
  | false => rfl
  | true => simp [oddPair, h rfl]

/-- With even pair fields and an unused field of 0 a 64-bit instruction completes when FMASK traps none of its sticky bits. -/
theorem Ready.insn_wide (ready : Ready s ln c) (fields : (fm.dp = true → d % 2 = 0) ∧ (fm.ap = true → a % 2 = 0) ∧
    (fm.bp = true → b % 2 = 0) ∧ (fm.bz = true → b = 0)) {r : Alu 64} (h : op (c.wide fm.ap a) (c.wide fm.bp b) = r)
    (untrapped : arithDetail c.fmask r.sticky = 0) : s.insn ln cost false (wideBody d a b sb fm op) =
      .next (retired s c ((c.setWide fm.dp d r.val).flags sb r.flags) cost r.sticky) := by
  subst h
  obtain ⟨hd, ha, hb, hz⟩ := fields
  have body : wideBody d a b sb fm op s c = .next s
      ((c.setWide fm.dp d (op (c.wide fm.ap a) (c.wide fm.bp b)).val).flags sb (op (c.wide fm.ap a) (c.wide fm.bp b)).flags)
      (op (c.wide fm.ap a) (c.wide fm.bp b)).sticky := by
    rw [wideBody, if_neg (by simp [oddPair_of_even hd, oddPair_of_even ha, oddPair_of_even hb]), if_neg fun used => used.2 (hz used.1)]
    rfl
  rw [s.insn_ready ln c cost _ ready, body, s.applyEffect_next s c _ cost _ untrapped]

/-- An odd register in a pair field is refused before all else. -/
theorem Ready.insn_wide_odd (ready : Ready s ln c) (odd : oddPair fm.dp d ∨ oddPair fm.ap a ∨ oddPair fm.bp b) :
    s.insn ln cost false (wideBody d a b sb fm op) = .next (s.exception c 1 2 c.pc) :=
  ready.insn_trap (if_pos odd)

end OnReadyLane

/-- Settles O14: SAT, where ADDS64 and SUBS64 set it, is not trapped; the other members set nothing. -/
theorem pairResults : Obligations.PairResults := by
  intro s ln c d a b sb ready untrapped x y u v put one clip
  have none_ {r : Alu 64} (h : r.sticky = 0) : arithDetail c.fmask r.sticky = 0 := by rw [h, arithDetail_zero]
  refine ⟨fun hd ha hb => ?_, fun hd => ?_, fun hd ha => ?_, fun ha hb => ?_, fun hd hb => ?_⟩
  · have wide {op : BitVec 64 → BitVec 64 → Alu 64} (free : arithDetail c.fmask (op x y).sticky = 0) :
        s.insn ln 2 false (wideBody d a b sb formPPP op) = .next (retired s c ((c.setPair d (op x y).val).flags sb (op x y).flags) 2
          (op x y).sticky) := ready.insn_wide (by simp [formPPP, hd, ha, hb]) rfl free
    exact ⟨wide (none_ rfl), wide (none_ rfl), wide (arithDetail_sat untrapped _), wide (arithDetail_sat untrapped _), wide (none_ rfl),
      wide (none_ rfl), wide (none_ rfl)⟩
  · have wide {op : BitVec 64 → BitVec 64 → Alu 64} (free : (op (u.setWidth 64) (v.setWidth 64)).sticky = 0) :
        s.insn ln 3 false (wideBody d a b sb formPSS op) = .next (retired s c ((c.setPair d (op (u.setWidth 64) (v.setWidth 64)).val).flags
          sb (op (u.setWidth 64) (v.setWidth 64)).flags) 3 (op (u.setWidth 64) (v.setWidth 64)).sticky) :=
      ready.insn_wide (by simp [formPSS, hd]) rfl (none_ free)
    refine ⟨(wide (op := opMull) rfl).trans ?_, (wide (op := opMullu) rfl).trans ?_⟩
    · simp only [opMull, low32_setWidth, plainAlu, put]
    · simp only [opMullu, low32_setWidth, plainAlu, put]
  · have wide {op : BitVec 64 → BitVec 64 → Alu 64} {r : BitVec 64} (h : op x (v.setWidth 64) = plainAlu r) :
        s.insn ln 2 false (wideBody d a b sb formPPS op) = put r false false 2 0 :=
      ready.insn_wide (r := plainAlu r) (by simp [formPPS, hd, ha]) h (none_ rfl)
    have count : sh6 (v.setWidth 64) = v.toNat % 64 := by
      have := v.isLt
      rw [sh6, BitVec.toNat_setWidth]; omega
    refine ⟨wide ?_, wide ?_, wide ?_⟩
    · rw [opSll64, count]
    · rw [opSrl64, count]
    · rw [opSra64, count]
  · have wide {op : BitVec 64 → BitVec 64 → Alu 64} {p : Bool} (h : op x y = bool64 p) :
        s.insn ln 2 false (wideBody d a b sb formSPP op) = one p := by
      refine (ready.insn_wide (r := bool64 p) (by simp [formSPP, ha, hb]) h (none_ rfl)).trans ?_
      cases p <;> rfl
    exact ⟨wide rfl, wide rfl⟩
  · have wide {op : BitVec 64 → BitVec 64 → Alu 64} {r : BitVec 64} (h : op (u.setWidth 64) ((c.reg b).setWidth 64) = plainAlu r) :
        s.insn ln 1 false (wideBody d a b sb formPS0 op) = put r false false 1 0 :=
      ready.insn_wide (r := plainAlu r) (by simp [formPS0, hd, hb]) h (none_ rfl)
    refine ⟨wide ?_, wide ?_⟩
    · rw [opSext, low32_setWidth]
    · rw [opZext, low32_setWidth]

/-! ### NaN operands and invalid operations -/

/-- A word is a NaN. -/
def fIsNan (w : Word) : Prop := fieldOf w 23 8 = 255 ∧ fieldOf w 0 23 ≠ 0

theorem fpOf_nan {w : Word} (h : fIsNan w) : fpOf w = .nan := by
  obtain ⟨exponent, fraction⟩ := h
  simp only [fieldOf, pow_zero, Nat.div_one] at exponent fraction
  unfold fpOf
  dsimp only
  rw [if_pos (by omega), if_neg (by omega)]

theorem fTake_nan {w : Word} (h : fIsNan w) : fTake w = fNan := by rw [fTake, fpOf_nan h, fpWord]

theorem fpAdd_nan_right (x : Fp) : fpAdd x .nan = (fNan, 0) := by cases x <;> rfl
theorem fpMul_nan_right (x : Fp) : fpMul x .nan = (fNan, 0) := by cases x <;> rfl
theorem fpDiv_nan_right (x : Fp) : fpDiv x .nan = (fNan, 0) := by cases x <;> rfl

theorem arithDetail_sNV (fmask : Nat) : arithDetail fmask sNV = fmask &&& 2 := arithDetail_of_bit fmask 1 (by decide)

/-- Settles O16: a NaN operand sets no sticky bit; an invalid operation sets NV, which FMASK does not trap. -/
theorem floatNaNAndInvalid : Obligations.FloatNaNAndInvalid := by
  intro s ln c d a b sb ready untrapped x y isNan nan
  have quiet {cost : Nat} {op : Word → Word → Alu 32} (h : op x y = fAlu (fNan, 0)) :
      s.insn ln cost false (aluBody d a b sb false op) = nan cost 0 := ready.insn_alu h
  have invalid {cost : Nat} {bz : Bool} {op : Word → Word → Alu 32} {r : Alu 32} (hb : bz = true → b.val = 0) (h : op x y = r)
      (nv : r.sticky = sNV) : s.insn ln cost false (aluBody d a b sb bz op) =
        .next (retired s c ((c.setReg d r.val).flags sb r.flags) cost r.sticky) := by
    subst h
    exact ready.insn_alu_of_untrapped hb ((congrArg _ nv).trans ((arithDetail_sNV _).trans untrapped))
  refine ⟨fun hnan => ?_, fun hx hy => ?_, fun hx hy => ?_, fun hx hy => ?_, fun hb hx => ?_, fun hb hx => ?_⟩
  · have operands : fpOf x = .nan ∨ fpOf y = .nan := hnan.imp fpOf_nan fpOf_nan
    refine ⟨quiet ?_, quiet ?_, quiet ?_, quiet ?_, fun hd => ready.insn_next ?_⟩
    · rcases operands with h | h
      · rw [opFadd, h, fpAdd]
      · rw [opFadd, h, fpAdd_nan_right]
    · rcases operands with h | h
      · rw [opFsub, h, fpAdd]
      · rw [opFsub, h, Fp.neg, fpAdd_nan_right]
    · rcases operands with h | h
      · rw [opFmul, h, fpMul]
      · rw [opFmul, h, fpMul_nan_right]
    · rcases operands with h | h
      · rw [opFdiv, h, fpDiv]
      · rw [opFdiv, h, fpDiv_nan_right]
    · rw [fcmpBody, if_neg (not_not.mpr hd), fCmp, if_pos (hnan.imp fTake_nan fTake_nan)]; rfl
  · exact invalid (op := opFsub) (r := fAlu fInvalid) nofun (by rw [hx, hy]; decide +kernel) rfl
  · exact invalid (op := opFmul) (r := fAlu fInvalid) nofun (by rw [hx, hy]; decide +kernel) rfl
  · exact invalid (op := opFdiv) (r := fAlu fInvalid) nofun (by rw [hx, hy]; decide +kernel) rfl
  · exact invalid (op := opFsqrt) (r := fAlu fInvalid) (fun _ => hb) (by rw [hx, opFsqrt]; decide +kernel) rfl
  · exact invalid (op := opFcvtws) (r := ⟨0, zncv true false false true, sNV⟩) (fun _ => hb) (by rw [opFcvtws, fToInt, fpOf_nan hx]) rfl

/-! ### Traps -/

theorem clampInt_ne {l h v : Int} (out : v < l ∨ h < v) : clampInt l h v ≠ v := by
  unfold clampInt
  split
  · omega
  · split <;> omega

theorem satAlu_sticky {w : Nat} {l h v : Int} (out : v < l ∨ h < v) : (satAlu w l h v).sticky = sSAT := by
  simp [satAlu, clampInt_ne out]

/-- Settles O26: a trapped sticky bit by the rule of ARITH, a refused field by the check that comes before the operation. -/
theorem arithmeticTraps : Obligations.ArithmeticTraps := by
  intro s ln c d a b sb ready x y trap out
  refine ⟨fun traps => ?_, fun traps => ?_, fun hb => ?_, fun hd => ?_, fun ha => ?_⟩
  · have clamps {cost : Nat} {op : Word → Word → Alu 32} (h : (op x y).sticky = sSAT) :
        s.insn ln cost false (aluBody d a b sb false op) = .next (s.exception c 8 4 c.pc) :=
      ready.insn_alu_trapped (k := 2) nofun ((congrArg _ h).trans (arithDetail_sSAT _)) traps
    exact ⟨fun h => clamps (satAlu_sticky h), fun h => clamps (satAlu_sticky h),
      fun h => clamps (satAlu_sticky h), fun h => clamps (satAlu_sticky (by omega)),
      fun h => clamps (satAlu_sticky (by omega))⟩
  · have invalid {cost : Nat} {op : Word → Word → Alu 32} (h : (op x y).sticky = sNV) :
        s.insn ln cost false (aluBody d a b sb false op) = .next (s.exception c 8 2 c.pc) :=
      ready.insn_alu_trapped (k := 1) nofun ((congrArg _ h).trans (arithDetail_sNV _)) traps
    exact ⟨fun hx hy => invalid (op := opFsub) (by rw [hx, hy]; decide +kernel), fun hx hy => invalid (op := opFdiv) (by rw [hx, hy]; decide +kernel)⟩
  · exact ⟨ready.insn_alu_unused hb, ready.insn_alu_unused hb, ready.insn_alu_unused hb, ready.insn_alu_unused hb,
      ready.insn_alu_unused hb, ready.insn_alu_unused hb⟩
  · have odd : oddPair true d = true := by simp [oddPair, hd]
    exact ⟨ready.insn_wide_odd (.inl odd), ready.insn_wide_odd (.inl odd), ready.insn_wide_odd (.inl odd),
      ready.insn_wide_odd (.inl odd)⟩
  · have odd : oddPair true a = true := by simp [oddPair, ha]
    exact ready.insn_wide_odd (.inr (.inl odd))

end Sys2Proof.Machine
end

section
/-!
PROOFS. The addressed memories: what a byte reads after a store, and the bytes and numbers of a stretch (R9, R135, R205).
-/
namespace Sys2Proof.Machine
open Sys2Proof

/-! ### Bytes and numbers -/

@[simp] theorem leBytes_length (n v : Nat) : (leBytes n v).length = n := by
  induction n generalizing v with
  | zero => rfl
  | succ n ih => simp [leBytes, ih]

theorem leBytes_getElem? {n v k : Nat} (h : k < n) : (leBytes n v)[k]? = some (BitVec.ofNat 8 (v / 256 ^ k)) := by
  induction n generalizing v k with
  | zero => omega
  | succ n ih =>
    cases k with
    | zero => simp [leBytes]
    | succ k => rw [leBytes, List.getElem?_cons_succ, ih (by omega), Nat.div_div_eq_div_mul, pow_succ']

/-- The number of the low bytes of a number is that number, cut to them. -/
theorem leNat_leBytes (n v : Nat) : leNat (leBytes n v) = v % 256 ^ n := by
  induction n generalizing v with
  | zero => simp [leBytes, leNat, Nat.mod_one]
  | succ n ih =>
    have parts : v % (256 * 256 ^ n) = v % 256 + 256 * (v / 256 % 256 ^ n) := Nat.mod_mul
    rw [pow_succ', parts, leBytes, leNat, ih, BitVec.toNat_ofNat]

/-! ### Reading after storing -/

/-- A byte put into a sparse memory stands at its place of the list; every other byte stays. -/
theorem kvGet_putBytes (m : KV Byte) (a x : Nat) (bs : List Byte) : kvGet (fun _ => 0) (putBytes m a bs) x =
    if a ≤ x then (bs[x - a]?).getD (kvGet (fun _ => 0) m x) else kvGet (fun _ => 0) m x := by
  induction bs generalizing m a with
  | nil => simp [putBytes]
  | cons b bs ih =>
    rw [putBytes, ih, kvGet_put]
    rcases Nat.lt_trichotomy x a with before | rfl | after
    · rw [if_neg (by omega), if_neg (by omega), if_neg (by omega)]
    · simp
    · rw [if_pos (by omega), if_neg (by omega), if_pos (by omega), show x - a = (x - (a + 1)) + 1 by omega,
        List.getElem?_cons_succ]

/-- A byte after a store: the stored one inside the stretch, the old one outside. -/
theorem State.byteAt_storeBytes (s : State) (sp a : Nat) (bs : List Byte) (q x : Nat) : (s.storeBytes sp a bs).byteAt q x =
    if q = sp ∧ a ≤ x then (bs[x - a]?).getD (s.byteAt q x) else s.byteAt q x := by
  unfold State.byteAt State.bytes State.storeBytes
  dsimp only
  rw [kvGet_put]
  by_cases same : q = sp
  · subst same
    rw [if_pos rfl, kvGet_putBytes]
    simp [State.bytes]
  · rw [if_neg same, if_neg (by tauto)]

/-- Outside the stored stretch every byte of every memory is as before. -/
theorem State.byteAt_storeBytes_outside (s : State) {sp a : Nat} {bs : List Byte} {q x : Nat}
    (h : ¬(q = sp ∧ a ≤ x ∧ x < a + bs.length)) : (s.storeBytes sp a bs).byteAt q x = s.byteAt q x := by
  rw [State.byteAt_storeBytes]
  split
  next inside => rw [List.getElem?_eq_none (by omega)]; rfl
  next => rfl

/-- Inside it the list's bytes stand in order. -/
theorem State.byteAt_storeBytes_inside (s : State) {sp a k : Nat} {bs : List Byte} {b : Byte} (h : bs[k]? = some b) :
    (s.storeBytes sp a bs).byteAt sp (a + k) = b := by
  rw [State.byteAt_storeBytes, if_pos ⟨rfl, by omega⟩, Nat.add_sub_cancel_left, h]; rfl

theorem State.byteAt_storeNat_inside (s : State) {sp a n v k : Nat} (h : k < n) :
    (s.storeNat sp a n v).byteAt sp (a + k) = BitVec.ofNat 8 (v / 256 ^ k) :=
  s.byteAt_storeBytes_inside (leBytes_getElem? h)

theorem State.byteAt_storeNat_outside (s : State) {sp a n v q x : Nat} (h : ¬(q = sp ∧ a ≤ x ∧ x < a + n)) :
    (s.storeNat sp a n v).byteAt q x = s.byteAt q x :=
  s.byteAt_storeBytes_outside (by rwa [leBytes_length])

/-- A stretch reads back what was stored there. -/
theorem State.loadBytes_storeBytes (s : State) (sp a : Nat) (bs : List Byte) : (s.storeBytes sp a bs).loadBytes sp a bs.length = bs := by
  unfold State.loadBytes
  apply List.ext_getElem?
  intro k
  rw [List.getElem?_map]
  by_cases h : k < bs.length
  · rw [List.getElem?_range h, Option.map_some, s.byteAt_storeBytes_inside (List.getElem?_eq_getElem h), List.getElem?_eq_getElem h]
  · rw [List.getElem?_eq_none (by simpa using h), List.getElem?_eq_none (by omega)]; rfl

theorem State.loadBytes_congr {s t : State} {sp a n : Nat} (h : ∀ i, i < n → t.byteAt sp (a + i) = s.byteAt sp (a + i)) :
    t.loadBytes sp a n = s.loadBytes sp a n :=
  List.map_congr_left fun i hi => h i (List.mem_range.mp hi)

end Sys2Proof.Machine
end

section
/-!
PROOFS. Special registers, loads, stores, noun and image access, buffered outputs, branches and jumps of the Sogen set (R139, R154 to
R162).
-/
namespace Sys2Proof.Machine
open Sys2Proof

/-! ### Special registers (R139, R140) -/

section
variable {s : State} {ln : Fin 4} {c : Cycle} {d a b : Fin 32}

/-- MFS of a word register. -/
theorem Ready.exec_mfs (ready : Ready s ln c) (hb : b.val = 0) (ha : a.val < 11) :
    exec (.mfs ln d a b false) s = .next (retired s c (c.setReg d (BitVec.ofNat 32 (s.special c a))) 1 0) := by
  have one : mfsCost a = 1 := if_neg (by omega)
  refine Eq.trans (ready.insn_next ?_) (by rw [one])
  rw [mfsBody, if_neg (by omega), if_neg (by simpa using hb), if_neg (by omega), if_neg (by omega)]

/-- MFS of the release SIX as a pair. -/
theorem Ready.exec_mfs_pair (ready : Ready s ln c) (hb : b.val = 0) (ha : a.val = 11) (hd : d.val % 2 = 0) :
    exec (.mfs ln d a b false) s = .next (retired s c (c.setPair d (BitVec.ofNat 64 c.rel)) 2 0) := by
  have two : mfsCost a = 2 := if_pos ha
  refine Eq.trans (ready.insn_next ?_) (by rw [two])
  rw [mfsBody, if_neg (by omega), if_neg (by simpa using hb), if_neg (by omega), if_pos ha]

/-- MFS of a reserved code. -/
theorem Ready.exec_mfs_reserved (ready : Ready s ln c) (hb : b.val = 0) (ha : 12 ≤ a.val) :
    exec (.mfs ln d a b false) s = .next (s.exception c 1 4 c.pc) :=
  ready.insn_trap (by rw [mfsBody, if_neg (by omega), if_neg (by simpa using hb), if_pos (by omega)])

end

/-- Settles O17: each code of MFS by its own rule, MTF by the rule for an instruction that completes. -/
theorem specialRegisters : Obligations.SpecialRegisters := by
  intro s ln c d a b ready hb get
  have shown {k : Nat} (hk : k < 11) (ha : a.val = k) : exec (.mfs ln d a b false) s = get (s.special c k) := by
    subst ha; exact ready.exec_mfs hb hk
  refine ⟨shown (by decide), shown (by decide), shown (by decide), shown (by decide), shown (by decide), shown (by decide),
    shown (by decide), shown (by decide), shown (by decide), shown (by decide), shown (by decide), ready.exec_mfs_pair hb,
    ready.exec_mfs_reserved hb, fun hd => ready.insn_next ?_⟩
  rw [mtfBody, if_neg (by simp [hd, hb])]

/-! ### The address checks of loads and stores (R154, R207) -/

/-- An aligned access of a live cycle that a region grants acts on its memory. -/
theorem access_granted {s : State} {c : Cycle} {p : Partition} {sp n a : Nat} {k : Grant} {imm : BitVec 16}
    {act : Nat → Nat → State → Cycle → Effect} (live : c.kind = 0) (himg : (s.lane c.lane).img = some p)
    (aligned : c.addr a imm % n = 0) (granted : partGrants p sp k c.tid (c.addr a imm) n = true) :
    access sp n a k imm act s c = act (c.space sp) (c.addr a imm) s c := by
  have noCopy : (s.copyOff c sp n (c.addr a imm)).isSome = false := by simp [State.copyOff, live]
  simp [access, aligned, noCopy, himg, granted]

theorem access_misaligned {s : State} {c : Cycle} {sp n a : Nat} {k : Grant} {imm : BitVec 16}
    {act : Nat → Nat → State → Cycle → Effect} (misaligned : c.addr a imm % n ≠ 0) : access sp n a k imm act s c = .trap 2 1 :=
  if_pos misaligned

theorem access_ungranted {s : State} {c : Cycle} {p : Partition} {sp n a : Nat} {k : Grant} {imm : BitVec 16}
    {act : Nat → Nat → State → Cycle → Effect} (live : c.kind = 0) (himg : (s.lane c.lane).img = some p)
    (aligned : c.addr a imm % n = 0) (ungranted : ¬partGrants p sp k c.tid (c.addr a imm) n = true) :
    access sp n a k imm act s c = .trap 2 0 := by
  have noCopy : (s.copyOff c sp n (c.addr a imm)).isSome = false := by simp [State.copyOff, live]
  simp [access, aligned, noCopy, himg, ungranted]

theorem Cycle.space_data (c : Cycle) : c.space 1 = spData c.lane := if_pos rfl

theorem Cycle.space_common {c : Cycle} (live : c.kind = 0) : c.space 2 = spSRAM := by
  rw [Cycle.space, if_neg (by decide), if_pos live]

/-! ### Loads (R154) -/

/-- The low half of a number, sign-extended to a word. -/
theorem sextFrom_16 (v : Nat) : sextFrom 16 v = (BitVec.ofNat 16 v).signExtend 32 := by
  apply BitVec.eq_of_toInt_eq
  rw [BitVec.toInt_signExtend_of_le (by decide), BitVec.toInt_ofNat', sextFrom, BitVec.toInt_ofInt, signed]
  simp only [Int.bmod]
  omega

/-- The low byte of a number, sign-extended to a word. -/
theorem sextFrom_8 (v : Nat) : sextFrom 8 v = (BitVec.ofNat 8 v).signExtend 32 := by
  apply BitVec.eq_of_toInt_eq
  rw [BitVec.toInt_signExtend_of_le (by decide), BitVec.toInt_ofNat', sextFrom, BitVec.toInt_ofInt, signed]
  simp only [Int.bmod]
  omega

theorem State.loadNat_one (s : State) (sp a : Nat) : s.loadNat sp a 1 = (s.byteAt sp a).toNat := by
  simp [State.loadNat, State.loadBytes, leNat]

/-- Settles O18: an aligned, granted access loads from the memory it names; the two refused accesses trap. -/
theorem loadResults : Obligations.LoadResults := by
  intro s ln c d a imm p ready live himg ad get data grants
  have load {sp n cost : Nat} {ext : Nat → Word} (aligned : ad % n = 0) (granted : grants sp n) :
      s.insn ln cost false (loadBody sp n d a imm ext) = get (ext (s.loadNat (c.space sp) ad n)) cost :=
    ready.insn_next (access_granted live himg aligned granted)
  have loadPair {sp cost : Nat} (hd : d.val % 2 = 0) (aligned : ad % 8 = 0) (granted : grants sp 8) :
      s.insn ln cost false (loadPairBody sp d a imm) =
        .next (retired s c (c.setPair d (BitVec.ofNat 64 (s.loadNat (c.space sp) ad 8))) cost 0) :=
    ready.insn_next ((if_neg (by omega)).trans (access_granted live himg aligned granted))
  have byte := s.loadNat_one data ad
  refine ⟨fun aligned granted => load aligned granted, fun aligned granted => ⟨load aligned granted, ?_⟩, fun granted => ⟨?_, ?_⟩,
    loadPair, fun aligned granted => ?_, fun hd aligned granted => ?_, fun misaligned => ready.insn_trap (access_misaligned misaligned),
    fun aligned ungranted => ready.insn_trap (access_ungranted live himg aligned ungranted)⟩
  · exact (load aligned granted).trans (by rw [sextFrom_16]; rfl)
  · refine (load (Nat.mod_one ad) granted).trans ?_
    rw [show s.loadNat (c.space 1) ad 1 = _ from byte]
    simp [zextTo, BitVec.ofNat_toNat]
  · refine (load (Nat.mod_one ad) granted).trans ?_
    rw [show s.loadNat (c.space 1) ad 1 = _ from byte, sextFrom_8, BitVec.ofNat_toNat, BitVec.setWidth_eq]
  · exact (load aligned granted).trans (by rw [Cycle.space_common live]; rfl)
  · exact (loadPair hd aligned granted).trans (by rw [Cycle.space_common live]; rfl)

/-! ### Stores (R154) -/

theorem Cycle.key_setReg (c : Cycle) (i : Nat) (v : Word) : (c.setReg i v).key = c.key := by
  unfold Cycle.setReg
  split <;> rfl

theorem fallGo_key (at_ depth : Nat) (ls : List LoopFr) (c : Cycle) : (fallGo at_ depth ls c).key = c.key := by
  induction ls generalizing c with
  | nil => rfl
  | cons l ls ih =>
    unfold fallGo
    split
    next =>
      split
      · exact c.key_setReg _ _
      · exact (ih _).trans (c.key_setReg _ _)
    next => rfl

/-- Falling through leaves a cycle in its place. -/
theorem Cycle.key_fall (c : Cycle) (at_ : Nat) : (c.fall at_).key = c.key := fallGo_key _ _ _ c

theorem State.cycle_putCyc_same (s : State) (c : Cycle) : (s.putCyc c).cycle c.key = some c := by
  unfold State.putCyc State.setCycle State.cycle; simp

theorem State.cycle_putCyc_ne (s : State) (c : Cycle) {k : Nat} (h : k ≠ c.key) : (s.putCyc c).cycle k = s.cycle k := by
  unfold State.putCyc State.setCycle State.cycle; simp [kvGet_put_ne, h]

/-- What a completed store leaves: its bytes, and the cycle behind its instruction. -/
theorem retired_storeNat (s : State) (c : Cycle) (sp ad n v cost : Nat) : let t := retired (s.storeNat sp ad n v) c c cost 0
    (∀ k, k < n → t.byteAt sp (ad + k) = BitVec.ofNat 8 (v / 256 ^ k)) ∧
      (∀ q x, ¬(q = sp ∧ ad ≤ x ∧ x < ad + n) → t.byteAt q x = s.byteAt q x) ∧
      (∀ x, t.rd x = s.rd x) ∧ (∀ k, k ≠ c.key → t.cycle k = s.cycle k) ∧
      t.cycle c.key = some ({ c with exec := c.exec + cost }.fall c.pc) := by
  have key : ({ c with flg := c.flg ||| 0, exec := c.exec + cost }.fall c.pc).key = c.key := Cycle.key_fall _ _
  refine ⟨fun k hk => s.byteAt_storeNat_inside hk, fun q x h => s.byteAt_storeNat_outside h, fun _ => rfl, fun k hk => ?_, ?_⟩
  · exact State.cycle_putCyc_ne _ _ (by rwa [key])
  · rw [← key, retired, State.cycle_putCyc_same, Nat.or_zero]

/-- Settles O19: every store is one access that passes its checks, then a store of its operand's bytes. -/
theorem storesWriteTheirBytesOnly : Obligations.StoresWriteTheirBytesOnly := by
  intro s ln c d a imm p ready live himg ad grants wrote
  have acts {sp n cost v : Nat} {body : Body} (h : body s c = .next (s.storeNat (c.space sp) ad n v) c 0) :
      ∃ t, s.insn ln cost false body = .next t ∧ t = retired (s.storeNat (c.space sp) ad n v) c c cost 0 :=
    ⟨_, by rw [s.insn_ready ln c cost body ready, h, s.applyEffect_next _ c c cost 0 (arithDetail_zero _)], rfl⟩
  have store {sp n cost : Nat} (aligned : ad % n = 0) (granted : grants sp n) :
      ∃ t, s.insn ln cost false (storeBody sp n d a imm) = .next t ∧
        t = retired (s.storeNat (c.space sp) ad n (c.reg d).toNat) c c cost 0 :=
    acts (access_granted live himg aligned granted)
  have storePair {sp cost : Nat} (hd : d.val % 2 = 0) (aligned : ad % 8 = 0) (granted : grants sp 8) :
      ∃ t, s.insn ln cost false (storePairBody sp d a imm) = .next t ∧
        t = retired (s.storeNat (c.space sp) ad 8 (c.pair d).toNat) c c cost 0 :=
    acts ((if_neg (by omega)).trans (access_granted live himg aligned granted))
  have written {i : Instr} {sp sp' n v cost : Nat} (hsp : c.space sp = sp')
      (h : ∃ t, exec i s = .next t ∧ t = retired (s.storeNat (c.space sp) ad n v) c c cost 0) : wrote i sp' n v cost := by
    obtain ⟨t, ht, rfl⟩ := h
    exact ⟨_, ht, hsp ▸ retired_storeNat s c _ ad n v cost⟩
  have common := Cycle.space_common live
  refine ⟨fun aligned granted => ?_, fun aligned granted => ?_, fun granted => ?_, fun hd aligned granted => ?_,
    fun aligned granted => ?_, fun hd aligned granted => ?_⟩
  · exact written c.space_data (store aligned granted)
  · exact written c.space_data (store aligned granted)
  · exact written c.space_data (store (Nat.mod_one ad) granted)
  · exact written c.space_data (storePair hd aligned granted)
  · exact written common (store aligned granted)
  · exact written common (storePair hd aligned granted)

/-! ### Nouns, image and shelves (R155 to R158) -/

/-- A word offset inside the noun is no bad offset. -/
theorem State.offBad_of_inside {s : State} {c : Cycle} {o : Nat} (h : o % 4 = 0 ∧ o < s.curNsize c) : s.offBad c o = false := by
  simp [State.offBad, h.1, h.2]

/-- Settles O21: each body's checks pass. -/
theorem nounAndImageAccess : Obligations.NounAndImageAccess := by
  intro s ln c d a b imm ctx ch item fn h ready o inside
  refine ⟨fun hin => ready.insn_next ?_, fun hin variable_ room => ready.insn_next ?_, fun declared => ready.insn_next ?_,
    fun declared hd low high even => ready.insn_next ?_, fun hb hfn shelf reads short => ready.insn_next ?_⟩
  · rw [nldBody, if_neg (by rw [s.offBad_of_inside (o := c.nounOff a imm) hin]; simp)]; rfl
  · have notParam : ¬c.nounOff a imm < s.curPsize c := not_lt.mpr variable_
    rw [nstBody, if_neg (by simp [s.offBad_of_inside (o := c.nounOff a imm) hin, notParam]), if_neg fun full => by omega]; rfl
  · exact if_pos declared
  · rw [sldpBody, if_neg (by omega), if_neg (by omega), if_pos declared]
  · rw [shldBody, if_neg (by omega), shelf]
    simp [reads, short]

/-! ### Buffered outputs (R158 to R161) -/

/-- A live cycle's dropped note is counted and signalled. -/
theorem State.noteDropped_counts {s : State} {c : Cycle} (live : c.kind = 0) :
    (s.noteDropped c).get (F.TSK_T_CNT.NOTE_DROP c.tid) = min (s.get (F.TSK_T_CNT.NOTE_DROP c.tid) + 1) 255 ∧
      (s.noteDropped c).flag F.TSK_EVT.NOTE_DROP = true := by
  rw [State.noteDropped, if_pos live]
  have apart : A.TSK_T_CNT c.tid ≠ A.TSK_EVT := by simp only [A.TSK_T_CNT, A.TSK_EVT]; omega
  exact ⟨(State.get_congr (State.rd_raise_ne _ apart)).trans (s.get_bumpBy_same _ 1 (by simp [F.TSK_T_CNT.NOTE_DROP])),
    State.flag_raise _ _ (by decide) rfl⟩

/-- CNOTE with an acceptable control word and a payload that may be read: the note is taken, or dropped where sixteen stand. -/
theorem cnoteBody_of_accepted {s : State} {c : Cycle} {d a b : Fin 32} {fn : BitVec 11} (hfn : fn = 0) (hv : (c.reg d).toNat < 2 ^ 14)
    (hbit : bit (c.reg d).toNat 11 = false) (hlen : (c.reg b).toNat ≤ 64) (aligned : (c.reg a).toNat % 4 = 0)
    (pay : (c.reg b).toNat = 0 ∨
      (s.lane c.lane).img.any (fun p => partGrants p 1 .read c.tid (c.reg a).toNat (c.reg b).toNat) = true) :
    cnoteBody d a b fn.toNat s c = if c.notes.length < maxNotes then
      .next s { c with notes := c.notes ++ [⟨0x800 + (c.reg d).toNat % 2048, (c.reg d).toNat / 4096 % 4,
        s.loadBytes (spData c.lane) (c.reg a).toNat (c.reg b).toNat⟩] } 0
      else .next (s.noteDropped c) { c with drops := c.drops + 1 } 0 := by
  have readable : ¬((c.reg b).toNat ≠ 0 ∧ (!(s.lane c.lane).img.any
      (fun p => partGrants p 1 .read c.tid (c.reg a).toNat (c.reg b).toNat)) = true) := by
    rintro ⟨some_, none_⟩
    rcases pay with zero | granted
    · exact some_ zero
    · simp [granted] at none_
  have control : ¬(2 ^ 14 ≤ (c.reg d).toNat ∨ bit (c.reg d).toNat 11 = true ∨ 64 < (c.reg b).toNat) := by
    simp only [hbit, Bool.false_eq_true, false_or]; omega
  simp only [cnoteBody]
  rw [if_neg (by simp [hfn]), if_neg control, if_neg (not_not.mpr aligned), if_neg readable]

/-- Settles O22: each body's checks pass and its buffer takes the entry. -/
theorem bufferedOutputs : Obligations.BufferedOutputs := by
  intro s ln c d a b imm fn h ready o i v payload written
  refine ⟨fun aligned owns => ready.insn_next ?_, fun hb hfn shelf writer short => ready.insn_next ?_,
    fun hd ha hi owns => ready.insn_next ?_, fun hd low high owns => ready.insn_next ?_, fun hd ha hi => ready.insn_next ?_,
    fun hfn hv hbit hlen aligned pay => ⟨fun room => ready.insn_next ?_, fun full => ?_, fun live _ => State.noteDropped_counts live⟩⟩
  · exact (if_neg (not_not.mpr aligned)).trans (if_pos owns)
  · rw [shstBody, if_neg (by omega), shelf]
    simp [writer, short, written]
  · have hi' : imm.toNat < 128 := hi
    have from6 : bit imm.toNat 7 = false := by simp [bit]; omega
    have value : b2n (bit imm.toNat 6) = imm.toNat / 64 := by
      rcases (by omega : imm.toNat / 64 = 0 ∨ imm.toNat / 64 = 1) with e | e <;> simp [b2n, bit, e]
    rw [gsetBody, if_neg (by simp [hd, ha]), if_neg (by omega), if_pos owns, from6, value]; rfl
  · have hi' : 128 ≤ imm.toNat ∧ imm.toNat < 256 := ⟨low, high⟩
    have fromReg : bit imm.toNat 7 = true := by simp [bit]; omega
    rw [gsetBody, if_neg (by simp [hd, fromReg]), if_neg (by omega), if_pos owns, fromReg]; rfl
  · rw [evrBody, if_neg (by simp [hd, ha]), if_neg (by omega)]
  · exact (cnoteBody_of_accepted hfn hv hbit hlen aligned pay).trans (if_pos room)
  · show s.insn ln 20 false (cnoteBody d a b fn.toNat) = _
    rw [s.insn_ready ln c 20 _ ready, cnoteBody_of_accepted hfn hv hbit hlen aligned pay,
      if_neg (show ¬c.notes.length < maxNotes from not_lt.mpr full), s.applyEffect_next _ c _ 20 0 (arithDetail_zero _)]

/-! ### Branches and jumps (R162) -/

/-- A compare and branch by its comparison. -/
theorem Ready.insn_branch {s : State} {ln : Fin 4} {c : Cycle} {d a : Nat} {imm : BitVec 16} {p : Word → Word → Bool} {q : Prop}
    [Decidable q] (ready : Ready s ln c) (h : p (c.reg d) (c.reg a) = true ↔ q) :
    s.insn ln 2 false (branchBody d a imm p) =
      .next (if q then jumped s c 2 (c.rel4 imm.toInt) else retired s c c 2 0) := by
  by_cases taken : q
  · rw [if_pos taken]
    exact ready.insn_jump (if_pos (h.mpr taken))
  · rw [if_neg taken]
    exact ready.insn_next (if_neg (fun holds => taken (h.mp holds)))

/-- Settles O23: the branches by their comparisons, BF and SEL by their rules, the jumps as they are. -/
theorem branchesAndJumps : Obligations.BranchesAndJumps := by
  intro s ln c d a b imm off fn ready x y target far br
  refine ⟨ready.insn_branch beq_iff_eq, ready.insn_branch bne_iff_ne, ready.insn_branch BitVec.slt_iff_toInt_lt,
    ready.insn_branch BitVec.sle_iff_toInt_le, ready.insn_branch BitVec.ult_iff_lt, ready.insn_branch BitVec.ule_iff_le,
    fun hd ha => (ready.exec_bf ha (by omega)).trans ?_, fun hd ha => (ready.exec_bf ha (by omega)).trans ?_, ready.insn_jump rfl,
    ready.insn_jump rfl, fun hb hfn => ?_, fun hb hfn => ?_, fun hfn => (ready.exec_sel (by omega)).trans ?_⟩
  · rw [if_neg (by omega)]; rfl
  · rw [if_pos hd]
  · subst hfn; exact ready.insn_jump ((if_neg (by simp [hb])).trans rfl)
  · subst hfn; exact ready.insn_jump ((if_neg (by simp [hb])).trans rfl)
  · rw [if_neg (by omega)]

end Sys2Proof.Machine
end

section
/-!
PROOFS. What the registers read after the operations that many families share: folds over ports and contexts, port and context states,
events and Cellar entries (R10, R44, R86, R288).
-/
namespace Sys2Proof.Machine
open Sys2Proof

/-! ### Folds -/

/-- What every step of a fold leaves alone, the fold leaves alone. -/
theorem foldl_keeps {α β γ : Type} (g : β → γ) {f : β → α → β} (h : ∀ u e, g (f u e) = g u) (l : List α) (s : β) :
    g (l.foldl f s) = g s := by
  induction l generalizing s with
  | nil => rfl
  | cons e l ih => exact (ih _).trans (h s e)

/-- What every step of a fold keeps true, the fold keeps true. -/
theorem foldl_invariant {α β : Type} {P : β → Prop} {f : β → α → β} (l : List α) {s : β} (start : P s)
    (h : ∀ u, ∀ e ∈ l, P u → P (f u e)) : P (l.foldl f s) := by
  induction l generalizing s with
  | nil => exact start
  | cons e l ih => exact ih (h s e (by simp) start) fun u x hx => h u x (List.mem_cons_of_mem _ hx)

/-! ### Operations that write no register -/

section
variable (s : State) (a : Nat)

@[simp] theorem State.rd_setPort (p : Nat) (x : Port) : (s.setPort p x).rd a = s.rd a := rfl
@[simp] theorem State.rd_emit (o : Out) : (s.emit o).rd a = s.rd a := rfl
@[simp] theorem State.rd_sendWord (p slot : Nat) (w : LinkWord) : (s.sendWord p slot w).rd a = s.rd a := rfl
@[simp] theorem State.rd_sendMsg (p kind : Nat) (pl : List Byte) : (s.sendMsg p kind pl).rd a = s.rd a := rfl
@[simp] theorem State.rd_setCtx (n : Nat) (x : Ctx) : (s.setCtx n x).rd a = s.rd a := rfl
@[simp] theorem State.rd_fileSamp (n c : Nat) (x : Samp) : (s.fileSamp n c x).rd a = s.rd a := rfl
@[simp] theorem State.rd_settle (n c m : Nat) : (s.settle n c m).rd a = s.rd a := rfl
@[simp] theorem State.rd_setBinIn (n : Nat) (x : BinIn) : (s.setBinIn n x).rd a = s.rd a := rfl
@[simp] theorem State.rd_setTdo (n : Nat) (x : TdoSt) : (s.setTdo n x).rd a = s.rd a := rfl
@[simp] theorem State.rd_setFeed (p k : Nat) (n : Option Nat) : (s.setFeed p k n).rd a = s.rd a := rfl
@[simp] theorem State.rd_dropMessage (p : Nat) : (s.dropMessage p).rd a = s.rd a := rfl
@[simp] theorem State.rd_msgDone (p : Nat) : (s.msgDone p).rd a = s.rd a := rfl
@[simp] theorem State.rd_setTaskRt (n : Nat) (x : TaskRt) : (s.setTaskRt n x).rd a = s.rd a := rfl
@[simp] theorem State.rd_setShadowRt (n : Nat) (x : TaskRt) : (s.setShadowRt n x).rd a = s.rd a := rfl
@[simp] theorem State.rd_setLane (n : Nat) (x : LaneSt) : (s.setLane n x).rd a = s.rd a := rfl
@[simp] theorem State.rd_setCycle (k : Nat) (c : Option Cycle) : (s.setCycle k c).rd a = s.rd a := rfl
@[simp] theorem State.rd_storeBytes (sp ad : Nat) (bs : List Byte) : (s.storeBytes sp ad bs).rd a = s.rd a := rfl
@[simp] theorem State.rd_setFn (pf : Nat) (x : FnSt) : (s.setFn pf x).rd a = s.rd a := rfl

@[simp] theorem State.rd_noteStations : s.noteStations.rd a = s.rd a :=
  State.rd_congr ((State.noteStations_kept (.refl 32 s) (.refl _)).parts .regs rfl) a

@[simp] theorem State.rd_ctxReceiving (n k : Nat) : (s.ctxReceiving n k).rd a = s.rd a := by
  unfold State.ctxReceiving; dsimp only; split <;> rfl

@[simp] theorem State.rd_unfile (n k : Nat) : (s.unfile n k).rd a = s.rd a := by
  unfold State.unfile
  refine foldl_keeps (fun t : State => t.rd a) (fun t i => foldl_keeps (fun t : State => t.rd a) (fun u c => ?_) _ _) _ _
  split
  · split <;> rfl
  · rfl

@[simp] theorem State.rd_sendSafe (p st : Nat) : (s.sendSafe p st).rd a = s.rd a := rfl

@[simp] theorem State.rd_pendShadow (t tag : Nat) (evr : Bool) : (s.pendShadow t tag evr).rd a = s.rd a := by
  unfold State.pendShadow; dsimp only; split <;> rfl

end

/-! ### Operations that write a few registers -/

section
variable (s : State) {a : Nat}

theorem State.rd_bumpBy_ne {f : Field} (n : Nat) (h : a ≠ f.addr) : (s.bumpBy f n).rd a = s.rd a := s.rd_set_ne _ h
theorem State.rd_bump_ne {f : Field} (h : a ≠ f.addr) : (s.bump f).rd a = s.rd a := s.rd_set_ne _ h

/-- The named entries go the way of `State.enqueue`, which writes CEL_DROP and CEL_EVT. -/
theorem State.rd_logNamed (m : String) (d : List Byte) (h : a ≠ A.CEL_DROP) (g : a ≠ A.CEL_EVT) : (s.logNamed m d).rd a = s.rd a :=
  s.rd_enqueue _ h g
theorem State.rd_logNamedSev (m : String) (v : Nat) (d : List Byte) (h : a ≠ A.CEL_DROP) (g : a ≠ A.CEL_EVT) :
    (s.logNamedSev m v d).rd a = s.rd a := s.rd_enqueue _ h g

theorem State.rd_hjlCounts (h : a ≠ A.HJL_STATUS) : s.hjlCounts.rd a = s.rd a := by
  unfold State.hjlCounts
  rw [State.rd_set_ne _ _ h, State.rd_set_ne _ _ h, State.rd_set_ne _ _ h, State.rd_set_ne _ _ h]

theorem State.rd_setPortState (p x : Nat) (h : a ≠ A.HJL_P_STATE p) (g : a ≠ A.HJL_STATUS) : (s.setPortState p x).rd a = s.rd a := by
  unfold State.setPortState
  rw [State.rd_noteStations, State.rd_hjlCounts _ g, State.rd_set_ne _ _ h]

theorem State.rd_refuse (p r : Nat) (h : a ≠ A.HJL_P_REFUSE p) (g : a ≠ A.HJL_P_EVT p) : (s.refuse p r).rd a = s.rd a := by
  unfold State.refuse
  rw [State.rd_raise_ne _ g, State.rd_set_ne _ _ h, State.rd_sendMsg]

theorem State.rd_peerLoop (p : Nat) (h : a ≠ A.INJ_PEER (p - 40)) : (s.peerLoop p).rd a = s.rd a := by
  unfold State.peerLoop
  split
  · exact State.rd_set_ne _ _ h
  · rfl

theorem State.rd_sfbCounts (h : a ≠ A.SFB_STATUS) : s.sfbCounts.rd a = s.rd a := by
  unfold State.sfbCounts
  rw [State.rd_set_ne _ _ h, State.rd_set_ne _ _ h]

theorem State.rd_setCtxState (n x : Nat) (h : a ≠ A.SFB_C_STATE n) (g : a ≠ A.SFB_STATUS) (e : a ≠ A.SFB_EVT) :
    (s.setCtxState n x).rd a = s.rd a := by
  have counted : ((s.set (F.SFB_C_STATE.STATE n) x).sfbCounts).rd a = s.rd a := by
    rw [State.rd_sfbCounts _ g, State.rd_set_ne _ _ h]
  unfold State.setCtxState
  dsimp only
  split
  · exact counted
  · split
    · rw [State.rd_raise_ne _ e, counted]
    · split
      · rw [State.rd_raise_ne _ e, counted]
      · split
        · rw [State.rd_raise_ne _ e, counted]
        · exact counted

theorem State.rd_ctxMissing (n k : Nat) (h : a ≠ A.SFB_C_STATE n) (g : a ≠ A.SFB_STATUS) (e : a ≠ A.SFB_EVT) :
    (s.ctxMissing n k).rd a = s.rd a := by
  unfold State.ctxMissing
  dsimp only
  split <;> split <;> simp only [State.rd_setCtxState _ _ _ h g e, State.rd_setCtx]

theorem State.rd_countMiss (n k : Nat) (h : a ≠ A.SFB_C_CNT n) : (s.countMiss n k).rd a = s.rd a := by
  unfold State.countMiss
  split
  · exact State.rd_bumpBy_ne _ _ h
  · rfl

/-- Waiting events write TSK_Tt_STAT alone, at or above the first of those registers. -/
theorem State.rd_pendEvent (hit : Sources → Bool) (tag : Nat) (h : a < A.TSK_T_STAT 0) : (s.pendEvent hit tag).rd a = s.rd a := by
  unfold State.pendEvent
  split
  · refine foldl_keeps (fun t : State => t.rd a) (fun t k => ?_) _ _
    rw [State.rd_pendShadow, State.pendTask, State.rd_set_ne, State.rd_setTaskRt]
    simp only [A.TSK_T_STAT, F.TSK_T_STAT.PENDING] at h ⊢
    omega
  · rfl

end

/-! ### Port states (R44, R62) -/

/-- A port without the histories that follow the port states. -/
def Port.core (x : Port) : Port := { x with byteHist := [], servHist := [] }

/-- Ports are read from `ports` alone. -/
theorem State.port_congr {s t : State} (h : t.ports = s.ports) (q : Nat) : t.port q = s.port q := by unfold State.port; rw [h]

theorem State.port_setPort_same (s : State) (p : Nat) (x : Port) : (s.setPort p x).port p = x := kvGet_put_same _ _ _ _

theorem State.port_setPort_ne (s : State) (p : Nat) {q : Nat} (x : Port) (h : q ≠ p) : (s.setPort p x).port q = s.port q := kvGet_put_ne _ _ _ h

/-- Ports that agree up to the histories differ in them alone. -/
theorem Port.eq_of_core {x y : Port} (h : x.core = y.core) : x = { y with byteHist := x.byteHist, servHist := x.servHist } := by
  cases x; cases y
  simp only [Port.core, Port.mk.injEq] at h ⊢
  simp [h]

/-- Rewriting ports one after the other, each up to its histories, leaves every port up to its histories. -/
theorem port_foldl_setPort_core {f : State → Nat → Port} (h : ∀ t st, (f t st).core = (t.port st).core) (l : List Nat) (s : State) (q : Nat) :
    ((l.foldl (fun t st => t.setPort st (f t st)) s).port q).core = (s.port q).core := by
  refine foldl_keeps (fun t : State => (t.port q).core) (fun t st => ?_) l s
  by_cases same : q = st
  · rw [same, State.port_setPort_same, h]
  · rw [State.port_setPort_ne _ _ _ same]

theorem Port.core_hists (x : Port) (b v) : Port.core { x with byteHist := b, servHist := v } = x.core := rfl

section
variable (s : State) (p : Nat)

/-- A port shows the state that it enters. -/
theorem State.portState_setPortState {x : Nat} (h : x < 16) : (s.setPortState p x).portState p = x := by
  have apart : A.HJL_P_STATE p ≠ A.HJL_STATUS := by simp only [A.HJL_P_STATE, A.HJL_STATUS]; omega
  unfold State.portState State.setPortState
  rw [State.get_congr (State.rd_noteStations _ _), State.get_congr (State.rd_hjlCounts _ apart),
    State.get_set_same _ _ _ (by simp [F.HJL_P_STATE.STATE])]
  exact Nat.mod_eq_of_lt h

/-- The port's incarnation stands beside its state. -/
theorem State.portInc_setPortState (x : Nat) : (s.setPortState p x).portInc p = s.portInc p := by
  have apart : A.HJL_P_STATE p ≠ A.HJL_STATUS := by simp only [A.HJL_P_STATE, A.HJL_STATUS]; omega
  unfold State.portInc State.setPortState
  rw [State.get_congr (State.rd_noteStations _ _), State.get_congr (State.rd_hjlCounts _ apart)]
  exact State.get_set_apart _ _ (by simp [F.HJL_P_STATE.STATE]) (by simp [F.HJL_P_STATE.STATE, F.HJL_P_STATE.INC])

/-- The ports' histories are all that following the stations writes. -/
theorem State.port_noteStations_core (q : Nat) : (s.noteStations.port q).core = (s.port q).core := by
  unfold State.noteStations
  generalize (List.range 12).map (· + 32) = stations
  exact port_foldl_setPort_core (fun _ _ => Port.core_hists _ _ _) stations s q

/-- A port's state change leaves every port's record up to the histories. -/
theorem State.port_setPortState_core (x q : Nat) : ((s.setPortState p x).port q).core = (s.port q).core := by
  unfold State.setPortState
  rw [State.port_noteStations_core, State.port_congr ((State.hjlCounts_kept (.refl 2 _) (.refl _)).parts .ports rfl), State.port_congr]
  rfl

/-- A port after a state change of some port: only its histories may be new. -/
theorem State.port_setPortState (x q : Nat) :
    ∃ b v, (s.setPortState p x).port q = { s.port q with byteHist := b, servHist := v } :=
  ⟨_, _, Port.eq_of_core (State.port_setPortState_core s p x q)⟩

/-- What reads a port apart from its histories reads the same after a state change of some port. -/
theorem State.portRead_setPortState {α : Type} (read : Port → α) (apart : ∀ x b v, read { x with byteHist := b, servHist := v } = read x)
    (x q : Nat) : read ((s.setPortState p x).port q) = read (s.port q) := by
  obtain ⟨b, v, e⟩ := s.port_setPortState p x q
  rw [e, apart]

end

end Sys2Proof.Machine
end

section
/-!
PROOFS. The Hjelig links: admission, words that leave, frames and samples, loss and return, acknowledgement (R44 to R83).
-/
namespace Sys2Proof.Machine
open Sys2Proof

/-! ### Admission (R46, R62 to R64) -/

section
variable (s : State) (p : Nat)

theorem State.setPortState_sec (x : Nat) : (s.setPortState p x).sec = s.sec :=
  (State.setPortState_kept (.refl 34 s) (.refl _)).parts .sec rfl

theorem State.setPortState_fp (x : Nat) : (s.setPortState p x).fp = s.fp :=
  (State.setPortState_kept (.refl 34 s) (.refl _)).parts .fp rfl

theorem State.setPortState_clk (x : Nat) : (s.setPortState p x).clk = s.clk :=
  (State.setPortState_kept (.refl 34 s) (.refl _)).parts .clk rfl

theorem State.peerLoop_sec : (s.peerLoop p).sec = s.sec := (State.peerLoop_kept (.refl 2 s) (.refl _)).parts .sec rfl

theorem State.peerLoop_ports : (s.peerLoop p).ports = s.ports := (State.peerLoop_kept (.refl 2 s) (.refl _)).parts .ports rfl

/-- The checks of a HELLO read the port's configuration and its pinned partner alone. -/
theorem State.helloReason_congr {s t : State} {p : Nat} {h : Hello} (cfg : t.rd (A.HJL_P_CFG p) = s.rd (A.HJL_P_CFG p))
    (fp : t.fp = s.fp) : t.helloReason p h = s.helloReason p h := by
  unfold State.helloReason
  rw [State.get_congr (f := F.HJL_P_CFG.ROLE p) cfg, State.get_congr (f := F.HJL_P_CFG.TYPE p) cfg,
    State.flag_congr (f := F.HJL_P_CFG.PIN_UID p) cfg, State.flag_congr (f := F.HJL_P_CFG.PIN_DIGEST p) cfg, fp]

/-- The end of an admission: ADMIT has left, and the port enters its calibration under the incarnation `inc`. -/
theorem State.admitPartner_eq (h : Hello) : ∃ (m : State) (x : Port), m.sec.incarnation = nextInc s.sec.incarnation ∧ x.calPhase = 4 ∧
    s.admitPartner p h = (((((((m.set (F.HJL_P_STATE.INC p) (nextInc s.sec.incarnation)).set (F.HJL_P_STATE.STATION p) p).set64
      (A.HJL_P_UID p) h.uid.toNat).set (F.HJL_P_DELAY.VALID p) 0).setPortState p pCALIB).raise (F.HJL_P_EVT.ADMIT p)).setPort p x).peerLoop
        p := by
  unfold State.admitPartner
  dsimp only
  refine ⟨_, _, ?_, ?_, rfl⟩
  · simp [State.sendMsg]
  · rfl

/-- An admitted partner runs under the next incarnation, in calibration. -/
theorem State.admitPartner_spec (h : Hello) : (s.admitPartner p h).sec.incarnation = nextInc s.sec.incarnation ∧
    (s.admitPartner p h).portState p = pCALIB ∧ (s.admitPartner p h).portInc p = nextInc s.sec.incarnation % 65536 ∧
    ((s.admitPartner p h).port p).calPhase = 4 := by
  obtain ⟨m, x, inc, phase, e⟩ := s.admitPartner_eq p h
  rw [e]
  have apart : A.HJL_P_STATE p ≠ A.INJ_PEER (p - 40) := by simp only [A.HJL_P_STATE, A.INJ_PEER]; omega
  have apart' : A.HJL_P_STATE p ≠ A.HJL_P_EVT p := by simp only [A.HJL_P_STATE, A.HJL_P_EVT]; omega
  refine ⟨?_, ?_, ?_, ?_⟩
  · rw [State.peerLoop_sec, State.setPort_sec, State.raise_sec, State.setPortState_sec, State.set_sec, State.set64_sec, State.set_sec,
      State.set_sec, inc]
  · refine (State.get_congr (State.rd_peerLoop _ _ apart)).trans ((State.get_congr (State.rd_setPort _ _ _ _)).trans
      ((State.get_congr (State.rd_raise_ne _ apart')).trans (State.portState_setPortState _ _ (by decide))))
  · refine (State.get_congr (State.rd_peerLoop _ _ apart)).trans ((State.get_congr (State.rd_setPort _ _ _ _)).trans
      ((State.get_congr (State.rd_raise_ne _ apart')).trans ((State.portInc_setPortState _ _ _).trans ?_)))
    simp (disch := omega) [State.portInc, State.get, State.set, State.set64, State.rd_wr_ne, fieldOf_withField_same,
      fieldOf_withField_above, F.HJL_P_STATE.INC, F.HJL_P_STATE.STATION, F.HJL_P_DELAY.VALID, A.HJL_P_STATE, A.HJL_P_DELAY, A.HJL_P_UID]
  · rw [State.port_congr (State.peerLoop_ports _ _), State.port_setPort_same, phase]

end

/-- A HELLO that passes every check is admitted (R62, R63). -/
theorem State.checkHello_accepted {s : State} {p : Nat} {h : Hello} (passes : s.helloReason p h = none) :
    s.checkHello p h = (s.setPortState p pHELLO).admitPartner p h := by
  have cfg : (s.setPortState p pHELLO).rd (A.HJL_P_CFG p) = s.rd (A.HJL_P_CFG p) :=
    State.rd_setPortState _ _ _ (by simp only [A.HJL_P_CFG, A.HJL_P_STATE]; omega) (by simp only [A.HJL_P_CFG, A.HJL_STATUS]; omega)
  unfold State.checkHello
  dsimp only
  rw [State.helloReason_congr cfg (State.setPortState_fp _ _ _), passes]; rfl

/-- REFUSE shows its reason (R63). -/
theorem State.reason_refuse (s : State) (p r : Nat) : (s.refuse p r).get (F.HJL_P_REFUSE.REASON p) = r % 256 := by
  have apart : A.HJL_P_REFUSE p ≠ A.HJL_P_EVT p := by simp only [A.HJL_P_REFUSE, A.HJL_P_EVT]; omega
  exact (State.get_congr (State.rd_raise_ne _ apart)).trans
    (State.get_set_same _ (F.HJL_P_REFUSE.REASON p) r (by simp [F.HJL_P_REFUSE.REASON]))

/-- A message advances the port's message sequence alone. -/
theorem State.portRead_sendMsg {α : Type} {s : State} {kind : Nat} {pl : List Byte} (p q : Nat) (read : Port → α)
    (apart : ∀ x n, read { x with msgSeq := n } = read x) : read ((s.sendMsg p kind pl).port q) = read (s.port q) := by
  unfold State.sendMsg
  rw [State.port_congr (State.emit_ports _ _)]
  by_cases same : q = p
  · rw [same, State.port_setPort_same, apart]
  · rw [State.port_setPort_ne _ _ _ same]

theorem State.portRead_refuse {α : Type} {s : State} {r : Nat} (p q : Nat) (read : Port → α)
    (apart : ∀ x n, read { x with msgSeq := n } = read x) : read ((s.refuse p r).port q) = read (s.port q) := by
  unfold State.refuse
  rw [State.port_congr (State.raise_ports _ _), State.port_congr (State.set_ports _ _ _), State.portRead_sendMsg p q read apart]

/-- Settles O27: the port state changes as `State.setPortState` says; admission by its rule. -/
theorem linkAdmission : Obligations.LinkAdmission := by
  intro s p h tag span turn x
  refine ⟨fun down => ?_, fun unadmitted => ?_, fun sync whole time passes => ?_, fun out htag hturn hspan calib phase room => ?_,
    fun calib missed => ?_⟩
  · refine ⟨_, congrArg Host.Outcome.next (if_pos down), State.portState_setPortState _ _ (by decide), ?_⟩
    rw [State.portRead_setPortState _ _ Port.aligned fun _ _ _ => rfl, State.port_setPort_same]
  · refine ⟨_, congrArg Host.Outcome.next (if_pos unadmitted), State.portState_setPortState _ _ (by decide), ?_⟩
    rw [State.portRead_setPortState _ _ Port.aligned fun _ _ _ => rfl, State.port_setPort_same, State.port_setPort_same]
  · have heard : ¬((!x.whole 1) = true ∨ s.six < ((s.msgDone p).port p).ignoreTill) := by
      rw [State.msgDone, State.port_setPort_same, whole]
      simpa using time
    obtain ⟨inc, state, own, phase⟩ := ((s.msgDone p).setPortState p pHELLO).admitPartner_spec p h
    rw [State.setPortState_sec] at inc own
    refine ⟨_, (if_neg heard).trans ((if_pos (.inl sync)).trans (congrArg Host.Outcome.next (State.checkHello_accepted passes))),
      inc, state, own.trans (by rw [inc]), phase⟩
  · refine ⟨_, (if_pos ⟨out, htag, hturn, hspan, by rw [calib]; decide⟩).trans ((if_pos (.inl phase)).trans (congrArg Host.Outcome.next (if_neg ?_))), ?_⟩
    · show ¬x.calCount + 1 = 64
      omega
    · simp [State.port_setPort_same, x]
  · refine ⟨_, if_pos ⟨calib, .inl missed⟩, State.portState_setPortState _ _ (by decide), ?_, ?_⟩
    · have apart : A.HJL_P_REFUSE p ≠ A.HJL_P_STATE p := by simp only [A.HJL_P_REFUSE, A.HJL_P_STATE]; omega
      have apart' : A.HJL_P_REFUSE p ≠ A.HJL_STATUS := by simp only [A.HJL_P_REFUSE, A.HJL_STATUS]; omega
      exact (State.get_congr (State.rd_setPortState _ _ _ apart apart')).trans (State.reason_refuse _ _ _)
    · rw [State.portRead_setPortState _ _ Port.ignoreTill fun _ _ _ => rfl,
        State.portRead_refuse _ _ Port.ignoreTill fun _ _ => rfl, State.port_setPort_same]

end Sys2Proof.Machine
end

section
/-!
PROOFS. Words that leave on the Hjelig links (R56 to R59, R75, R78, R80).
-/
namespace Sys2Proof.Machine
open Sys2Proof

/-- Words sent one after the other stand in front of what had left before, the latest first. -/
theorem foldl_sendWord_spec {α : Type} (p slot : Nat) (word : α → LinkWord) (l : List α) (s : State) :
    let t := l.foldl (fun u e => u.sendWord p slot (word e)) s
    t.outbox = (l.map fun e => Out.word p slot (word e)).reverse ++ s.outbox ∧ t.ports = s.ports := by
  induction l generalizing s with
  | nil => exact ⟨rfl, rfl⟩
  | cons e l ih =>
    obtain ⟨sent, ports⟩ := ih (s.sendWord p slot (word e))
    refine ⟨?_, ports⟩
    rw [List.map_cons, List.reverse_cons, List.append_assoc]
    exact sent

/-- The decisions that await their ACK, where the only decision does. -/
theorem Port.pending_of_single {x : Port} {d : Trip} (one : x.trips = [d]) (open_ : d.acked = false) : x.pending = [d] := by
  simp [Port.pending, one, open_]

/-- Settles O28: each word is due, and leaves as the newest. -/
theorem linkWordsSent : Obligations.LinkWordsSent := by
  intro s p q d c k g x tag pl
  refine ⟨fun due => ?_, fun hpend due => ?_, fun run unsent => ?_, fun hg run service => ?_, fun one open_ sends armed late => ?_⟩
  · refine ⟨_, if_pos due, rfl, ?_⟩
    rw [State.sendWord, State.port_congr (State.emit_ports _ _), State.port_setPort_same]
    exact ⟨rfl, rfl⟩
  · refine ⟨s.sendComp p c, ?_, rfl, ?_⟩
    · show execCompResend p s = _
      rw [execCompResend, show (s.port p).compPend = some (c, k) from hpend]
      exact if_pos due
    · rw [State.sendComp, State.sendWord, State.port_congr (State.emit_ports _ _), State.port_setPort_same]
  · refine ⟨_, if_pos ⟨run, .inl (by simp [unsent])⟩, ?_, ?_⟩
    · rw [State.sendMsg, State.port_setPort_same]; rfl
    · rw [State.portRead_sendMsg _ _ Port.timeSent fun _ _ => rfl, State.port_setPort_same]
  · let u := (s.setPort p { s.port p with group := none }).sendWord p 25
      (mkWord 0x09 g.seq (g.apply % 65536 * 256 + g.words.length) 0xFF)
    obtain ⟨sent, ports⟩ := foldl_sendWord_spec p 25 (fun e : Nat × Nat => mkWord 0x0A g.seq (e.1 * 65536 + e.2) 0xFF) g.words u
    refine ⟨_, ?_, ?_, sent⟩
    · show execCommandGroupSend p s = _
      rw [execCommandGroupSend, show (s.port p).group = some g from hg]
      refine (if_neg ?_).trans (if_pos ?_)
      · simp [show (s.setPort p { s.port p with group := none }).opstate = 0 from service]
      · simp [show (s.setPort p { s.port p with group := none }).portState p = pRUN from run]
    · rw [State.port_congr ports]
      exact congrArg Port.group (State.port_setPort_same _ _ _)
  · refine ⟨(s.set (F.HJL_P_TRIP.SLOT1 p) 1).sendWord p 1 (tripWord (s.portInc p) d.index d.seq), ?_, rfl, ?_⟩
    · show execTripRepeatSlot1 p s = _
      have due : [d].filter (fun t => s.flag F.INJ_STATUS.ARMED && s.portSends p && decide (t.n0 + 5 ≤ s.six)) = [d] := by
        simp [armed, sends, late]
      rw [execTripRepeatSlot1, Port.pending_of_single one open_, due]
      simp [Nat.mod_one]
    · exact (State.get_congr (State.rd_sendWord _ _ _ _ _)).trans (State.get_set_same s (F.HJL_P_TRIP.SLOT1 p) 1 (by simp [F.HJL_P_TRIP.SLOT1]))

end Sys2Proof.Machine
end

section
/-!
PROOFS. Frames, samples, status words and discarded words on the Hjelig links (R46 to R61, R85, R102, R103).
-/
namespace Sys2Proof.Machine
open Sys2Proof

/-! ### Samples -/

/-- A filed sample is the one listed under its SIX. -/
theorem State.listed_fileSamp (s : State) (n c : Nat) (x : Samp) : (s.fileSamp n c x).listed (chKey n c) x.six = some x := by
  unfold State.listed State.fileSamp
  dsimp only
  rw [kvGet_put_same, kvGet_put_same]
  exact if_pos rfl

section
variable (s : State) {a : Nat}

/-- The elements of a channel write its status register alone. -/
theorem State.rd_catchUp (f n : Nat) (h : a ≠ A.INJ_C_STAT n) (s : State) : (catchUp f n s).rd a = s.rd a := by
  induction f generalizing s with
  | zero => rfl
  | succ f ih =>
    unfold catchUp
    split
    · rw [ih, State.evalChan]
      dsimp only
      rw [State.rd_set_ne _ _ h, State.rd_set_ne _ _ h, State.rd_set_ne _ _ h, State.rd_set_ne _ _ h, State.rd_set_ne _ _ h,
        State.rd_set_ne _ _ h]
      rfl
    · rfl

theorem State.rd_elementsTo (n t : Nat) (h : a ≠ A.INJ_C_STAT n) : (s.elementsTo n t).rd a = s.rd a := by
  unfold State.elementsTo
  split
  · exact State.rd_catchUp _ _ h s
  · rfl

/-- What marks a sample as MISSING writes no register below the sample fabric's. -/
theorem State.rd_markMissing (p c k : Nat) (h : a < A.SFB_STATUS) : (s.markMissing p c k).rd a = s.rd a := by
  unfold State.markMissing
  split
  next n _ =>
    have noStat : a ≠ A.INJ_C_STAT (8 * n + c) := by simp only [A.SFB_STATUS, A.INJ_C_STAT] at h ⊢; omega
    have noCnt : a ≠ A.SFB_C_CNT n := by simp only [A.SFB_STATUS, A.SFB_C_CNT] at h ⊢; omega
    rw [State.missSamp, State.rd_elementsTo _ _ _ noStat, State.rd_countMiss _ _ _ noCnt, State.rd_fileSamp]
  next => rfl

/-- A used sample is filed, and shown with its SIX and its port, before the elements evaluate it. -/
theorem State.takeSample_spec (p n c k : Nat) (code : Int) (hp : p < 64) : ∃ u : State, s.takeSample p n c k code = u.elementsTo (8 * n + c) k ∧
    (u.listed (chKey n c) k).map (fun z => (z.six, z.code)) = some (k, code) ∧
    u.get64 (A.SFB_C_SIX n) = k % 2 ^ 64 ∧ u.get (F.SFB_C_STATE.SOURCE n) = p := by
  unfold State.takeSample
  dsimp only
  refine ⟨_, rfl, ?_, ?_, ?_⟩
  · rw [State.listed_fileSamp _ n c ⟨k, _, _, _, _, _, _⟩]; rfl
  · unfold State.get64
    rw [State.rd_fileSamp, State.rd_fileSamp]
    exact State.get64_set64 _ _ _
  · have apart : A.SFB_C_STATE n ≠ A.SFB_C_SIX n ∧ A.SFB_C_STATE n ≠ A.SFB_C_SIX n + 4 := by
      simp only [A.SFB_C_STATE, A.SFB_C_SIX]; omega
    refine (State.get_congr ((State.rd_fileSamp _ _ _ _ _).trans (State.rd_set64_ne _ _ apart.1 apart.2))).trans
      ((State.get_set_same _ (F.SFB_C_STATE.SOURCE n) p (by simp [F.SFB_C_STATE.SOURCE])).trans ?_)
    exact Nat.mod_eq_of_lt hp

end

/-! ### The port behind a word -/

theorem State.frameQuality_ports (s : State) (p ovr settle : Nat) : (s.frameQuality p ovr settle).ports = s.ports :=
  (State.frameQuality_kept (.refl 128 s) (.refl _)).parts .ports rfl

/-- The expected SIX makes the frame of a sample link valid (R61). -/
theorem State.frameInService_expected {s : State} {p six24 arr : Nat} (sample : p < 32) (h : six24 = s.expectedSix p arr % 2 ^ 24) :
    ∃ run, s.frameInService p six24 arr = s.setPort p { s.port p with
      frameSix := s.expectedSix p arr, frameValid := true, mismatches := 0, goodRun := run, statOk := false } := by
  have noPeer : ¬isPL p = true := by simp [isPL]; omega
  unfold State.frameInService
  dsimp only
  rw [if_neg noPeer, if_pos h]
  exact ⟨_, rfl⟩

@[simp] theorem State.portServes_setPort (s : State) (p q : Nat) (x : Port) : (s.setPort p x).portServes q = s.portServes q := rfl

/-- A port in RUN serves. -/
theorem State.portServes_of_run {s : State} {p : Nat} (h : s.portState p = pRUN) : s.portServes p = true := by
  simp [State.portServes, h]

/-- Below the sample fabric's registers, a discarded word writes its error counter alone. -/
theorem wordDiscarded_counts {s : State} {p : Fin 44} {slot : Fin 25} {crc : Bool} (h : s.portState p ≠ pQUAR) {a : Nat}
    (low : a < A.SFB_STATUS) : ∃ t, exec (.wordDiscarded p slot crc) s = .next t ∧
      t.rd a = (s.bump (if crc then F.HJL_P_ERR.CRC_ERR p else F.HJL_P_ERR.CODE_ERR p)).rd a := by
  show ∃ t, execWordDiscarded p slot crc s = .next t ∧ _
  unfold execWordDiscarded
  rw [if_neg h]
  dsimp only
  generalize hu : (if slot.val = 0 ∨ (isSL p && decide (1 ≤ slot.val) && decide (slot.val ≤ 8)) = true then _ else
    State.dropMessage _ _) = u
  have counted : u.rd a = (s.bump (if crc then F.HJL_P_ERR.CRC_ERR p else F.HJL_P_ERR.CODE_ERR p)).rd a := by
    rw [← hu]
    split <;> rfl
  split
  · split
    · exact ⟨_, rfl, counted⟩
    · split
      · exact ⟨_, rfl, (State.rd_markMissing _ _ _ _ low).trans counted⟩
      · exact ⟨_, rfl, counted⟩
  · exact ⟨_, rfl, counted⟩

/-- Settles O29: each word does to its port what its clause says; the samples by the rule for a used sample. -/
theorem framesAndSamples : Obligations.FramesAndSamples := by
  intro s p q c code six24 arr pub ovr settle inc shelf ust flags slot crc m n x y
  refine ⟨fun run expected => ?_, fun sync => ?_, fun serves frame used feeds _ => ?_, fun state => ?_, fun calib noComp => ?_,
    fun state => ?_, fun k rx old => ?_⟩
  · have serves := State.portServes_of_run run
    refine ⟨_, (if_neg (by rw [show s.portState q = pRUN from run]; decide)).trans (congrArg Host.Outcome.next
      (congrArg (fun t : State => t.setPort q { t.port q with lastFrame := s.six, frameAt := s.six }) (if_pos (.inl serves)))), ?_⟩
    dsimp only
    obtain ⟨run, e⟩ := State.frameInService_expected q.isLt expected
    rw [State.port_setPort_same, e, State.port_setPort_same]
    exact ⟨rfl, rfl, rfl, rfl⟩
  · have out : ¬(s.portServes p = true ∨ s.portState p = pLOST) := by
      simp [State.portServes, show s.portState p = pSYNC from sync, pRUN, pSTANDBY, pBOUND, pSYNC, pLOST]
    refine ⟨_, (if_neg (by rw [show s.portState p = pSYNC from sync]; decide)).trans (congrArg Host.Outcome.next
      (congrArg (fun t : State => t.setPort p { t.port p with lastFrame := s.six, frameAt := s.six }) (if_neg out))), ?_⟩
    dsimp only
    rw [State.port_setPort_same]
  · obtain ⟨u, e, listed, six, source⟩ := s.takeSample_spec q n c y.frameSix code.toInt (by omega)
    refine ⟨u, (if_pos ⟨serves, frame, used⟩).trans ?_, listed, six, source⟩
    rw [show s.feeds q (s.port q).frameSix = some n from feeds, ← e]
  · refine ⟨_, if_neg state, ?_⟩
    have ports : ∀ u : State, (if u.inFrame q then u.frameQuality q ovr.toNat settle.toNat else u).ports = u.ports := by
      intro u
      split
      · exact u.frameQuality_ports _ _ _
      · rfl
    rw [State.port_congr (ports _), State.port_setPort_same]
    exact ⟨rfl, rfl⟩
  · have idle : s.portServes p = false := by simp [State.portServes, calib, pCALIB, pRUN, pSTANDBY, pBOUND]
    show ∃ t, execUnitstatReceived p inc ust flags s = .next t ∧ _
    unfold execUnitstatReceived
    simp only [calib, show (s.port p).compPend = none from noComp, State.portServes_setPort, idle, Bool.and_false, Bool.false_eq_true,
      if_false]
    refine ⟨_, rfl, ?_⟩
    rw [State.port_setPort_same]
    exact ⟨rfl, rfl⟩
  · obtain ⟨t, ran, regs⟩ := wordDiscarded_counts (slot := slot) (crc := crc) state (a := A.HJL_P_ERR p)
      (by simp only [A.HJL_P_ERR, A.SFB_STATUS]; omega)
    refine ⟨t, ran, fun isCrc => ?_, fun isCode => ?_⟩
    · subst isCrc
      exact (State.get_congr regs).trans (s.get_bumpBy_same (F.HJL_P_ERR.CRC_ERR p) 1 (by simp [F.HJL_P_ERR.CRC_ERR]))
    · subst isCode
      exact (State.get_congr regs).trans (s.get_bumpBy_same (F.HJL_P_ERR.CODE_ERR p) 1 (by simp [F.HJL_P_ERR.CODE_ERR]))
  · obtain expired : (s.port p).rx.any (fun r => decide (r.2 + 64 ≤ s.six)) = true := by
      rw [show (s.port p).rx = some (m, k) from rx]; simpa using old
    refine ⟨_, congrArg Host.Outcome.next (if_pos expired), ?_⟩
    rw [State.dropMessage, State.port_setPort_same]

end Sys2Proof.Machine
end

section
/-!
PROOFS. Acknowledged decisions, peer time and peer shelves (R74 to R77, R80, R82).
-/
namespace Sys2Proof.Machine
open Sys2Proof

/-! ### Decisions and their ACK -/

theorem State.tripRegs_ports (s : State) (p : Nat) : (s.tripRegs p).ports = s.ports :=
  (State.tripRegs_kept (.refl 2 s) (.refl _)).parts .ports rfl

/-- Acknowledging the decisions that meet `hit` leaves the others pending, in their order. -/
theorem Port.pending_acknowledge (x : Port) (hit : Trip → Prop) [DecidablePred hit] :
    ({ x with trips := x.trips.map (fun t => if hit t then { t with acked := true } else t) } : Port).pending =
      x.pending.filter (fun t => !decide (hit t)) := by
  unfold Port.pending
  dsimp only
  induction x.trips with
  | nil => rfl
  | cons t ts ih =>
    by_cases h : hit t <;> cases acked : t.acked <;> simp [h, acked, ih]

/-! ### Contexts -/

theorem State.ctx_setCtx_same (s : State) (n : Nat) (x : Ctx) : (s.setCtx n x).ctx n = x := by
  unfold State.ctx State.setCtx
  dsimp only
  rw [kvGet_put_same]

/-- A context that receives already stays as it is. -/
theorem State.ctxReceiving_of_receiving {s : State} {n k : Nat} (h : (s.ctx n).missFrom = none) : s.ctxReceiving n k = s := by
  unfold State.ctxReceiving
  dsimp only
  rw [h]

/-- A dataset or shelf that a context takes is its newest. -/
theorem State.data_pushData (s : State) (n : Nat) (d : DataTag) : ((s.pushData n d).ctx n).data.head? = some d ∧
    ((s.pushData n d).ctx n).missFrom = (s.ctx n).missFrom := by
  unfold State.pushData
  dsimp only
  rw [State.ctx_setCtx_same]
  exact ⟨rfl, rfl⟩

/-- A context in RUN that takes a shelf stays in RUN, with the shelf as its newest data. -/
theorem State.newest_of_taken {u : State} {n tag done q : Nat} {ws : List Word} (state : u.ctxState n = 2)
    (receiving : (u.ctx n).missFrom = none) :
    let v := ((u.pushData n ⟨tag, tag, done, q, ws⟩).ctxReceiving n tag).set64 (A.SFB_C_SIX n) tag
    ((if v.ctxState n = 2 then v else v.setCtxState n 2).ctx n).data.head?.map (fun e => (e.tag, e.words)) = some (tag, ws) := by
  intro v
  obtain ⟨newest, missFrom⟩ := u.data_pushData n ⟨tag, tag, done, q, ws⟩
  have hv : v = (u.pushData n ⟨tag, tag, done, q, ws⟩).set64 (A.SFB_C_SIX n) tag :=
    congrArg (fun t : State => t.set64 (A.SFB_C_SIX n) tag) (State.ctxReceiving_of_receiving (missFrom.trans receiving))
  have apart : A.SFB_C_STATE n ≠ A.SFB_C_SIX n ∧ A.SFB_C_STATE n ≠ A.SFB_C_SIX n + 4 := by
    simp only [A.SFB_C_STATE, A.SFB_C_SIX]; omega
  have run : v.ctxState n = 2 := by
    rw [hv]
    exact (State.get_congr (State.rd_set64_ne _ _ apart.1 apart.2)).trans state
  rw [if_pos run, hv, show (((u.pushData n _).set64 (A.SFB_C_SIX n) tag).ctx n).data.head? = _ from newest]
  rfl

/-- Settles O31: the ACK acts on the decisions it names, the other clauses by their command's only case. -/
theorem tripAcknowledgement : Obligations.TripAcknowledgement := by
  intro s p q cw seq inc d v pub arr id ws n x y begun
  refine ⟨fun own state => ?_, fun one open_ unreported old => ?_, fun run whole fresh => ?_, fun run whole peers kind state receiving => ?_⟩
  · refine ⟨_, if_pos ⟨own, state⟩, ?_⟩
    rw [State.port_congr (State.tripRegs_ports _ _), State.port_setPort_same]
    rw [Port.pending_acknowledge]
    refine List.filter_congr fun t _ => ?_
    simp [beq_eq_decide]
  · have found : x.pending.find? (fun t => !t.unack && decide (t.n0 + 200 ≤ s.six)) = some d := by
      rw [Port.pending_of_single one open_]; simp [unreported, old]
    have apart : A.HJL_P_EVT p ≠ A.CEL_DROP ∧ A.HJL_P_EVT p ≠ A.CEL_EVT := by
      simp only [A.HJL_P_EVT, A.CEL_DROP, A.CEL_EVT]; omega
    show ∃ t, execTripUnack p s = .next t ∧ _
    unfold execTripUnack
    dsimp only
    rw [found]
    refine ⟨_, rfl, ?_, ?_⟩
    · rw [State.port_congr (State.logNamedSev_ports _ _ _ _), State.port_congr (State.raise_ports _ _), State.port_setPort_same, one]
      simp
    · exact (State.flag_congr (State.rd_logNamedSev _ _ _ _ apart.1 apart.2)).trans
        (State.flag_raise _ (F.HJL_P_EVT.TRIP_UNACK p) (by simp [F.HJL_P_EVT.TRIP_UNACK]) rfl)
  · show ∃ t, execPeerTimeReceived q v arr s = .next t ∧ _
    unfold execPeerTimeReceived
    dsimp only
    rw [if_pos ⟨run, whole⟩]
    refine ⟨_, rfl, ?_⟩
    generalize hu : (if (s.msgDone (40 + q)).peerOff (40 + q) v.toNat = true then _ else _) = u
    have fresh' : (u.port (40 + q)).peerSamples = [] := by
      rw [← hu]
      split
      · rw [State.port_setPort_same]
      · rw [State.msgDone, State.port_setPort_same]; exact fresh
    have delay : u.get (F.HJL_P_DELAY.D (40 + q)) = s.get (F.HJL_P_DELAY.D (40 + q)) := by
      rw [← hu]
      split <;> rfl
    rw [State.peerSample, State.port_congr (State.set64_ports _ _ _), State.port_setPort_same, fresh', delay]
    rfl
  · show ∃ t, execShelfReceived q id pub ws s = .next t ∧ _
    unfold execShelfReceived
    dsimp only
    rw [if_pos ⟨run, whole⟩]
    refine ⟨_, rfl, ?_⟩
    rw [show (s.msgDone (40 + q)).fp.peers = _ from peers, List.foldl_cons, List.foldl_nil,
      if_pos ⟨rfl, kind, by rw [show (s.msgDone (40 + q)).ctxState n = 2 from state]; decide⟩]
    obtain ⟨u, hu⟩ : ∃ u, u = s.msgDone (40 + q) := ⟨_, rfl⟩
    have own : u.ownSix (40 + q) pub.toNat = s.ownSix (40 + q) pub.toNat := by rw [hu]; rfl
    have state' : u.ctxState n = 2 := by rw [hu]; exact state
    have receiving' : (u.ctx n).missFrom = none := by rw [hu]; exact receiving
    rw [← hu, own]
    exact State.newest_of_taken state' receiving'

end Sys2Proof.Machine
end

section
/-!
PROOFS. The state behind the access check of host writes (R10 to R14, R376, R377).
-/
namespace Sys2Proof.Machine
open Sys2Proof

/-- A denial writes the denial registers, the engine's event register and those of an entry of the Cellar. -/
theorem State.rd_deny (s : State) (pf cause off : Nat) {a : Nat} (low : A.ENG_EVT < a % 0x1000000) (h : a ≠ A.CEL_DROP)
    (g : a ≠ A.CEL_EVT) : (s.deny pf cause off).rd a = s.rd a := by
  have cnt : a ≠ A.ENG_DENY_CNT + fnShift pf := by
    rintro rfl
    simp only [A.ENG_EVT, A.ENG_DENY_CNT, fnShift] at low; omega
  have last : a ≠ A.ENG_DENY_LAST + fnShift pf := by
    rintro rfl
    simp only [A.ENG_EVT, A.ENG_DENY_LAST, fnShift] at low; omega
  have evt : a ≠ A.ENG_EVT := by
    rintro rfl
    simp only [A.ENG_EVT] at low; omega
  unfold State.deny
  dsimp only
  rw [State.rd_log _ _ _ _ h g, State.rd_raise_ne _ evt, State.rd_set_ne _ _ last, State.rd_set_ne _ _ last, State.rd_bump_ne _ cnt]

@[simp] theorem State.rd_touch (s : State) (pf a : Nat) : (s.touch pf).rd a = s.rd a := by
  unfold State.touch
  split <;> rfl

/-- The access check writes no register above the engine's own but those of a denial's entry. -/
theorem State.rd_checked (s : State) (pf reg : Nat) (w : Word) (right : Option Nat) {a : Nat} (low : A.ENG_EVT < a % 0x1000000)
    (h : a ≠ A.CEL_DROP) (g : a ≠ A.CEL_EVT) : (s.checked pf reg w right).rd a = s.rd a := by
  have denied : ∀ cause, ((s.touch pf).deny pf cause reg).rd a = s.rd a := fun cause => by rw [State.rd_deny _ _ _ _ low h g, State.rd_touch]
  unfold State.checked State.gate
  dsimp only
  split
  · exact denied 4
  · split
    · exact denied _
    · split
      · exact denied 4
      · split
        · exact denied 4
        · exact State.rd_touch _ _ _

/-- What the access check leaves: all but the registers, the Cellar, the functions, the session's last access and what leaves. -/
theorem State.checked_kept (s : State) (pf a : Nat) (w : Word) (right : Option Nat) : Kept 16777246 s (s.checked pf a w right) :=
  State.gate_kept (.refl _ _) (.refl _)

section
variable (s : State) (pf a : Nat) (w : Word) (right : Option Nat)

@[simp] theorem State.checked_clk : (s.checked pf a w right).clk = s.clk := (s.checked_kept pf a w right).parts .clk rfl
@[simp] theorem State.checked_ports : (s.checked pf a w right).ports = s.ports := (s.checked_kept pf a w right).parts .ports rfl
@[simp] theorem State.checked_rebind : (s.checked pf a w right).rebind = s.rebind := (s.checked_kept pf a w right).parts .rebind rfl
@[simp] theorem State.checked_inj : (s.checked pf a w right).inj = s.inj := (s.checked_kept pf a w right).parts .inj rfl
@[simp] theorem State.checked_olc : (s.checked pf a w right).olc = s.olc := (s.checked_kept pf a w right).parts .olc rfl
@[simp] theorem State.checked_frc : (s.checked pf a w right).frc = s.frc := (s.checked_kept pf a w right).parts .frc rfl
@[simp] theorem State.checked_lft : (s.checked pf a w right).lft = s.lft := (s.checked_kept pf a w right).parts .lft rfl
@[simp] theorem State.checked_tsk : (s.checked pf a w right).tsk = s.tsk := (s.checked_kept pf a w right).parts .tsk rfl
@[simp] theorem State.checked_lanes : (s.checked pf a w right).lanes = s.lanes := (s.checked_kept pf a w right).parts .lanes rfl
@[simp] theorem State.checked_dma : (s.checked pf a w right).dma = s.dma := (s.checked_kept pf a w right).parts .dma rfl
@[simp] theorem State.checked_tim : (s.checked pf a w right).tim = s.tim := (s.checked_kept pf a w right).parts .tim rfl
@[simp] theorem State.checked_pwr : (s.checked pf a w right).pwr = s.pwr := (s.checked_kept pf a w right).parts .pwr rfl
@[simp] theorem State.checked_uch : (s.checked pf a w right).uch = s.uch := (s.checked_kept pf a w right).parts .uch rfl
@[simp] theorem State.checked_uchGrp : (s.checked pf a w right).uchGrp = s.uchGrp := (s.checked_kept pf a w right).parts .uchGrp rfl
@[simp] theorem State.checked_mem : (s.checked pf a w right).mem = s.mem := (s.checked_kept pf a w right).parts .mem rfl
@[simp] theorem State.checked_fab : (s.checked pf a w right).fab = s.fab := (s.checked_kept pf a w right).parts .fab rfl
@[simp] theorem State.checked_six : (s.checked pf a w right).six = s.six := congrArg Clk.six (s.checked_clk pf a w right)

/-- A write that acts, where the word is none that a table says is ignored. -/
theorem whenAllowed_acts {ignored : Bool} {act : State → State} (h : s.permits pf a w right) (use : ignored = false) :
    whenAllowed (s.gate pf a w right ignored) act = act (s.checked pf a w right) := by
  subst use
  exact whenAllowed_permits s pf a w right act h

end

end Sys2Proof.Machine
end

section
/-!
PROOFS. Loss, return, death, readmission and rebinding of the ports (R65 to R70).
-/
namespace Sys2Proof.Machine
open Sys2Proof

/-! ### Registers of the links -/

/-- A port's state is read from its own state register. -/
theorem State.portState_congr {s t : State} {p : Nat} (h : t.rd (A.HJL_P_STATE p) = s.rd (A.HJL_P_STATE p)) :
    t.portState p = s.portState p := State.get_congr h

theorem State.portInc_congr {s t : State} {p : Nat} (h : t.rd (A.HJL_P_STATE p) = s.rd (A.HJL_P_STATE p)) :
    t.portInc p = s.portInc p := State.get_congr h

theorem State.station_congr {s t : State} {p : Nat} (h : t.rd (A.HJL_P_STATE p) = s.rd (A.HJL_P_STATE p)) :
    t.station p = s.station p := State.get_congr h

/-- The state registers of two ports stand apart. -/
theorem portStateReg_ne {p q : Nat} (h : q ≠ p) : A.HJL_P_STATE q ≠ A.HJL_P_STATE p := by simp only [A.HJL_P_STATE]; omega

theorem portStateReg_ne_status (p : Nat) : A.HJL_P_STATE p ≠ A.HJL_STATUS := by simp only [A.HJL_P_STATE, A.HJL_STATUS]; omega

theorem portStateReg_ne_evt (p q : Nat) : A.HJL_P_STATE q ≠ A.HJL_P_EVT p := by simp only [A.HJL_P_STATE, A.HJL_P_EVT]; omega

/-- Another port's state change leaves a port's state. -/
theorem State.portState_setPortState_ne (s : State) {p q : Nat} (x : Nat) (h : q ≠ p) :
    (s.setPortState p x).portState q = s.portState q :=
  State.portState_congr (s.rd_setPortState p x (portStateReg_ne h) (portStateReg_ne_status q))

/-- Writing the station of a port leaves its state and its incarnation. -/
theorem State.portState_setStation (s : State) (p q v : Nat) : (s.set (F.HJL_P_STATE.STATION p) v).portState q = s.portState q := by
  by_cases same : q = p
  · subst same
    exact State.get_set_apart _ _ (by simp [F.HJL_P_STATE.STATION]) (by simp [F.HJL_P_STATE.STATION, F.HJL_P_STATE.STATE])
  · exact State.portState_congr (s.rd_set_ne v (portStateReg_ne same))

theorem State.portInc_setStation (s : State) (p v : Nat) : (s.set (F.HJL_P_STATE.STATION p) v).portInc p = s.portInc p :=
  State.get_set_apart _ _ (by simp [F.HJL_P_STATE.STATION]) (by simp [F.HJL_P_STATE.STATION, F.HJL_P_STATE.INC])

/-! ### Loss and return (R65, R66) -/

/-- What a lost sample port stops delivering writes no register below the sample fabric's. -/
theorem State.rd_dropPort (s : State) {p : Nat} (k : Nat) {a : Nat} (sample : p < 32) (low : a < A.SFB_STATUS) :
    (s.dropPort p k).rd a = s.rd a := by
  unfold State.dropPort
  rw [if_pos (by simpa [isSL] using sample)]
  split
  next n _ =>
    have apart : a ≠ A.SFB_C_STATE n ∧ a ≠ A.SFB_STATUS ∧ a ≠ A.SFB_EVT ∧ a ≠ A.SFB_C_CNT n := by
      simp only [A.SFB_STATUS, A.SFB_C_STATE, A.SFB_EVT, A.SFB_C_CNT] at low ⊢; omega
    obtain ⟨state, status, evt, cnt⟩ := apart
    rw [State.rd_countMiss _ _ _ cnt, State.rd_ctxMissing _ _ _ state status evt, State.rd_unfile]
  next => rfl

theorem State.dropPort_clk (s : State) (p k : Nat) : (s.dropPort p k).clk = s.clk :=
  (State.dropPort_kept (.refl 16777354 s) (.refl _)).parts .clk rfl

/-- A sample port is no peer port. -/
theorem isPL_of_sample {p : Nat} (h : p < 32) : ¬isPL p = true := by simp [isPL]; omega

/-- A sample port in service without a frame for three frames is lost (R65). -/
theorem portLost_spec {s : State} {q : Fin 32} (serves : s.portServes q = true) (late : (s.port q).lastFrame + 3 < s.six) :
    ∃ t, exec (.portLost ⟨q.val, by omega⟩) s = .next t ∧ t.portState q = pLOST ∧
      (t.port q).deadEnd = s.six + s.get (F.HJL_P_CFG.DEAD_MS q) * 2000 ∧ (t.port q).lostFrom = s.portState q ∧
      t.flag (F.HJL_P_EVT.LOST q) = true := by
  have below : A.HJL_P_STATE q < A.SFB_STATUS ∧ A.HJL_P_CFG q < A.SFB_STATUS := by
    simp only [A.HJL_P_STATE, A.HJL_P_CFG, A.SFB_STATUS]; omega
  show ∃ t, execPortLost ⟨q.val, _⟩ s = .next t ∧ _
  unfold execPortLost
  dsimp only
  rw [if_pos ⟨serves, late⟩, if_neg (isPL_of_sample q.isLt)]
  generalize hu : s.dropPort q _ = u
  have state : u.portState q = s.portState q := State.portState_congr (by rw [← hu, State.rd_dropPort _ _ q.isLt below.1])
  have dead : u.get (F.HJL_P_CFG.DEAD_MS q) = s.get (F.HJL_P_CFG.DEAD_MS q) :=
    State.get_congr (by rw [← hu]; exact State.rd_dropPort _ _ q.isLt below.2)
  have six : u.six = s.six := by rw [← hu]; exact congrArg Clk.six (State.dropPort_clk _ _ _)
  refine ⟨_, rfl, ?_, ?_, ?_, ?_⟩
  · exact (State.portState_congr (State.rd_raise_ne _ (portStateReg_ne_evt q q))).trans (State.portState_setPortState _ _ (by decide))
  · rw [State.port_congr (State.raise_ports _ _), State.portRead_setPortState _ _ Port.deadEnd fun _ _ _ => rfl, State.port_setPort_same,
      six, dead]
  · rw [State.port_congr (State.raise_ports _ _), State.portRead_setPortState _ _ Port.lostFrom fun _ _ _ => rfl, State.port_setPort_same,
      state]
  · exact State.flag_raise _ (F.HJL_P_EVT.LOST q) (by simp [F.HJL_P_EVT.LOST]) rfl

/-- A lost port that has heard 16 good frames is back in the state it left (R66). -/
theorem portRecovered_spec {s : State} {q : Fin 32} (lost : s.portState q = pLOST) (good : 16 ≤ (s.port q).goodRun)
    (alive : s.six < (s.port q).deadEnd) (h : (s.port q).lostFrom < 16) :
    ∃ t, exec (.portRecovered ⟨q.val, by omega⟩) s = .next t ∧ t.portState q = (s.port q).lostFrom ∧
      (t.port q).useFrom = (s.port q).frameSix + 1 := by
  show ∃ t, execPortRecovered ⟨q.val, _⟩ s = .next t ∧ _
  unfold execPortRecovered
  dsimp only
  rw [if_pos ⟨lost, good, alive⟩, if_neg (isPL_of_sample q.isLt)]
  refine ⟨_, rfl, State.portState_setPortState _ _ h, ?_⟩
  rw [State.portRead_setPortState _ _ Port.useFrom fun _ _ _ => rfl, State.port_setPort_same]

/-! ### Death (R67, R68) -/

theorem State.rd_tripRegs (s : State) (p : Nat) {a : Nat} (h : a ≠ A.HJL_P_TRIP p) (g : a ≠ A.INJ_STATUS) : (s.tripRegs p).rd a = s.rd a := by
  unfold State.tripRegs
  dsimp only
  rw [State.rd_set_ne _ _ g, State.rd_set_ne _ _ h]
  split
  · exact State.rd_set_ne _ _ h
  · rw [State.rd_set_ne _ _ h, State.rd_set_ne _ _ h, State.rd_set_ne _ _ h]

/-- Another field of a spare plan entry than BOUND keeps its value when an entry is bound or released. -/
theorem State.get_setBound (s : State) (m n v lo width : Nat) (h : lo + width ≤ 17) :
    (s.set (F.HJL_SPARE.BOUND m) v).get ⟨A.HJL_SPARE n, lo, width⟩ = s.get ⟨A.HJL_SPARE n, lo, width⟩ :=
  State.get_set_apart _ _ (by simp [F.HJL_SPARE.BOUND]) (.inl h)

/-- Releasing a port's spare plan entry leaves the port states, the port's incarnation and what the plan says of the spares. -/
theorem State.unbind_spec (s : State) (p : Nat) : (∀ q, (s.unbind p).portState q = s.portState q) ∧ (s.unbind p).portInc p = s.portInc p ∧
    ∀ n lo width, n < 8 → lo + width ≤ 17 → (s.unbind p).get ⟨A.HJL_SPARE n, lo, width⟩ = s.get ⟨A.HJL_SPARE n, lo, width⟩ := by
  unfold State.unbind
  split
  next m found =>
    split
    next =>
      have small : m < 8 := by simpa using List.mem_of_find?_eq_some found
      have plan : ∀ q, A.HJL_P_STATE q ≠ A.HJL_SPARE m := fun q => by simp only [A.HJL_P_STATE, A.HJL_SPARE]; omega
      have released := fun a => State.rd_setFeed ((s.set (F.HJL_SPARE.BOUND m) 0).set (F.HJL_P_STATE.STATION p) p) a p (s.six + 1) (some p)
      refine ⟨fun q => (State.portState_congr (released _)).trans ?_, (State.portInc_congr (released _)).trans ?_,
        fun n lo width small' h => (State.get_congr (released _)).trans ?_⟩
      · exact (State.portState_setStation _ _ _ _).trans (State.portState_congr (s.rd_set_ne 0 (plan q)))
      · exact (State.portInc_setStation _ _ _).trans (State.portInc_congr (s.rd_set_ne 0 (plan p)))
      · have apart : A.HJL_SPARE n ≠ A.HJL_P_STATE p := by simp only [A.HJL_P_STATE, A.HJL_SPARE]; omega
        exact (State.get_congr (State.rd_set_ne _ _ apart)).trans (State.get_setBound _ _ _ _ _ _ h)
    next => exact ⟨fun _ => rfl, rfl, fun _ _ _ _ _ => rfl⟩
  next => exact ⟨fun _ => rfl, rfl, fun _ _ _ _ _ => rfl⟩

/-- No spare becomes free where the plan stays and no further port waits in STANDBY. -/
theorem State.spareFor_none {s t : State} {st : Nat} (h : s.spareFor st = none)
    (plan : ∀ n lo width, n < 8 → lo + width ≤ 17 → t.get ⟨A.HJL_SPARE n, lo, width⟩ = s.get ⟨A.HJL_SPARE n, lo, width⟩)
    (waits : ∀ q, q < 64 → t.portState q = pSTANDBY → s.portState q = pSTANDBY) : t.spareFor st = none := by
  unfold State.spareFor at h ⊢
  rw [List.find?_eq_none] at h ⊢
  intro n hn free
  have small : n < 8 := List.mem_range.mp hn
  refine h n hn ?_
  have en : t.flag (F.HJL_SPARE.EN n) = s.flag (F.HJL_SPARE.EN n) := by
    unfold State.flag
    rw [show t.get (F.HJL_SPARE.EN n) = s.get (F.HJL_SPARE.EN n) from plan n 16 1 small (by decide)]
  have station : t.get (F.HJL_SPARE.STATION n) = s.get (F.HJL_SPARE.STATION n) := plan n 8 6 small (by decide)
  have spare : t.get (F.HJL_SPARE.SPARE_PORT n) = s.get (F.HJL_SPARE.SPARE_PORT n) := plan n 0 6 small (by decide)
  simp only [Bool.and_eq_true, beq_iff_eq, en, station, spare] at free ⊢
  exact ⟨free.1, waits _ (fieldOf_lt _ _ _) free.2⟩

/-- With no spare free, a station's death changes nothing more. -/
theorem State.stationDied_of_none {s : State} {st : Nat} {trips : List Trip} (h : s.spareFor st = none) : s.stationDied st trips = s := by
  unfold State.stationDied
  rw [h]
  split <;> rfl

/-- A released port keeps its record but for what its samples feed. -/
theorem State.portRead_unbind {α : Type} {s : State} {p : Nat} (q : Nat) (read : Port → α)
    (apart : ∀ x f, read { x with feed := f } = read x) : read ((s.unbind p).port q) = read (s.port q) := by
  unfold State.unbind
  split
  · split
    · have kept : ∀ m r, ((s.set (F.HJL_SPARE.BOUND m) 0).set (F.HJL_P_STATE.STATION p) p).port r = s.port r :=
        fun m r => (State.port_congr (State.set_ports _ _ _) r).trans (State.port_congr (State.set_ports _ _ _) r)
      unfold State.setFeed
      by_cases same : q = p
      · rw [same, State.port_setPort_same, apart, kept]
      · rw [State.port_setPort_ne _ _ _ same, kept]
    · rfl
  · rfl

/-- The port enters DEAD without an incarnation, released from its spare plan entry; the event and the entry follow. -/
def State.buried (s : State) (p : Nat) : State :=
  (((((s.set (F.HJL_P_STATE.INC p) 0).setPortState p pDEAD).tripRegs p).unbind p).raise (F.HJL_P_EVT.DEAD p)).logNamed "HJL_DEAD"
    (leBytes 1 p)

theorem State.buried_spec (s : State) {p : Nat} (hp : p < 44) :
    (∀ q, q < 64 → (s.buried p).portState q = if q = p then pDEAD else s.portState q) ∧ (s.buried p).portInc p = 0 ∧
      ∀ n lo width, n < 8 → lo + width ≤ 17 → (s.buried p).get ⟨A.HJL_SPARE n, lo, width⟩ = s.get ⟨A.HJL_SPARE n, lo, width⟩ := by
  unfold State.buried
  generalize hd : ((s.set (F.HJL_P_STATE.INC p) 0).setPortState p pDEAD).tripRegs p = d
  have shown : ∀ a, a < A.SFB_STATUS → a ≠ A.HJL_P_EVT p →
      (((d.unbind p).raise (F.HJL_P_EVT.DEAD p)).logNamed "HJL_DEAD" (leBytes 1 p)).rd a = (d.unbind p).rd a := by
    intro a low h
    rw [State.rd_logNamed _ _ _ (by simp only [A.SFB_STATUS, A.CEL_DROP] at low ⊢; omega)
      (by simp only [A.SFB_STATUS, A.CEL_EVT] at low ⊢; omega), State.rd_raise_ne _ h]
  have below : ∀ q, q < 64 → A.HJL_P_STATE q < A.SFB_STATUS := fun q h => by simp only [A.HJL_P_STATE, A.SFB_STATUS]; omega
  have trip : ∀ q, A.HJL_P_STATE q ≠ A.HJL_P_TRIP p ∧ A.HJL_P_STATE q ≠ A.INJ_STATUS := by
    intro q; simp only [A.HJL_P_STATE, A.HJL_P_TRIP, A.INJ_STATUS]; omega
  have ofPort : ∀ q, d.portState q = ((s.set (F.HJL_P_STATE.INC p) 0).setPortState p pDEAD).portState q := fun q => by
    rw [← hd, State.portState_congr (State.rd_tripRegs _ _ (trip q).1 (trip q).2)]
  obtain ⟨states, inc, plan⟩ := d.unbind_spec p
  refine ⟨fun q hq => ?_, ?_, fun n lo width small h => ?_⟩
  · rw [State.portState_congr (shown _ (below q hq) (portStateReg_ne_evt p q)), states, ofPort]
    split
    next same => rw [same, State.portState_setPortState _ _ (by decide)]
    next other => rw [State.portState_setPortState_ne _ _ other, State.portState_congr (State.rd_set_ne _ _ (portStateReg_ne other))]
  · rw [State.portInc_congr (shown _ (below p (by omega)) (portStateReg_ne_evt p p)), inc, ← hd,
      State.portInc_congr (State.rd_tripRegs _ _ (trip p).1 (trip p).2), State.portInc_setPortState]
    exact State.get_set_same _ (F.HJL_P_STATE.INC p) 0 (by simp [F.HJL_P_STATE.INC])
  · have apart : A.HJL_SPARE n < A.SFB_STATUS ∧ A.HJL_SPARE n ≠ A.HJL_P_EVT p ∧ A.HJL_SPARE n ≠ A.HJL_P_TRIP p ∧
        A.HJL_SPARE n ≠ A.INJ_STATUS ∧ A.HJL_SPARE n ≠ A.HJL_P_STATE p ∧ A.HJL_SPARE n ≠ A.HJL_STATUS := by
      simp only [A.HJL_SPARE, A.SFB_STATUS, A.HJL_P_EVT, A.HJL_P_TRIP, A.INJ_STATUS, A.HJL_P_STATE, A.HJL_STATUS]; omega
    obtain ⟨low, evt, trp, inj, state, status⟩ := apart
    rw [State.get_congr (shown _ low evt), plan n lo width small h, ← hd]
    refine State.get_congr ?_
    rw [State.rd_tripRegs _ _ trp inj, State.rd_setPortState _ _ _ state status, State.rd_set_ne _ _ state]

theorem State.portRead_noteStations {α : Type} {s : State} {q : Nat} (read : Port → α)
    (apart : ∀ x b v, read { x with byteHist := b, servHist := v } = read x) : read (s.noteStations.port q) = read (s.port q) := by
  rw [Port.eq_of_core (s.port_noteStations_core q), apart]

/-- A dead port's record but for what its samples feed and its histories. -/
theorem State.portRead_buried {α : Type} (s : State) (p : Nat) (read : Port → α)
    (feed : ∀ x f, read { x with feed := f } = read x) (hist : ∀ x b v, read { x with byteHist := b, servHist := v } = read x) :
    read ((s.buried p).port p) = read (s.port p) := by
  unfold State.buried
  rw [State.port_congr (State.logNamed_ports _ _ _), State.port_congr (State.raise_ports _ _), State.portRead_unbind p read feed,
    State.port_congr (State.tripRegs_ports _ _), State.portRead_setPortState _ _ read hist, State.port_congr (State.set_ports _ _ _)]

/-- A dead port whose station no spare takes (R67). -/
theorem State.killPort_spec {s : State} {p : Nat} (sample : p < 32) (noSpare : s.spareFor (s.station p) = none) :
    (s.killPort p).portState p = pDEAD ∧ (s.killPort p).portInc p = 0 ∧ ((s.killPort p).port p).retired = s.portInc p ∧
      ((s.killPort p).port p).trips = [] := by
  unfold State.killPort
  dsimp only
  rw [if_neg (isPL_of_sample sample)]
  generalize hu : (if (s.port p).group.isSome = true then _ else s) = u
  have regs : ∀ a, a ≠ A.HJL_P_CNT p → u.rd a = s.rd a := by
    intro a h
    rw [← hu]
    split
    · exact s.rd_bump_ne h
    · rfl
  have stateReg : ∀ q, A.HJL_P_STATE q ≠ A.HJL_P_CNT p := fun q => by simp only [A.HJL_P_STATE, A.HJL_P_CNT]; omega
  have planReg : ∀ n, n < 8 → A.HJL_SPARE n ≠ A.HJL_P_CNT p := fun n h => by simp only [A.HJL_SPARE, A.HJL_P_CNT]; omega
  rw [State.portInc_congr (regs _ (stateReg p))]
  generalize hv : u.setPort p _ = v
  have ofV : ∀ a, v.rd a = u.rd a := fun a => by rw [← hv, State.rd_setPort]
  have record : (v.port p).retired = s.portInc p ∧ (v.port p).trips = [] := by
    rw [← hv, State.port_setPort_same]
    exact ⟨rfl, rfl⟩
  obtain ⟨states, inc, plan⟩ := v.buried_spec (p := p) (by omega)
  have none_ : (v.buried p).spareFor (s.station p) = none := by
    refine State.spareFor_none noSpare (fun n lo width small h => ?_) fun q hq waits => ?_
    · exact (plan n lo width small h).trans (State.get_congr ((ofV _).trans (regs _ (planReg n small))))
    · rw [states q hq] at waits
      split at waits
      · exact absurd waits (by decide)
      · rwa [State.portState_congr ((ofV _).trans (regs _ (stateReg q)))] at waits
  change (((v.buried p).stationDied (s.station p) _).noteStations).portState p = _ ∧
    (((v.buried p).stationDied (s.station p) _).noteStations).portInc p = _ ∧
    ((((v.buried p).stationDied (s.station p) _).noteStations).port p).retired = _ ∧
    ((((v.buried p).stationDied (s.station p) _).noteStations).port p).trips = _
  rw [State.stationDied_of_none none_, State.portState_congr (State.rd_noteStations _ _), State.portInc_congr (State.rd_noteStations _ _),
    State.portRead_noteStations Port.retired fun _ _ _ => rfl, State.portRead_noteStations Port.trips fun _ _ _ => rfl,
    v.portRead_buried p Port.retired (fun _ _ => rfl) fun _ _ _ => rfl, v.portRead_buried p Port.trips (fun _ _ => rfl) fun _ _ _ => rfl]
  refine ⟨?_, inc, record⟩
  rw [states p (by omega), if_pos rfl]

/-! ### Host actions (R70) -/

/-- The link registers are those that the access check leaves alone. -/
theorem State.rd_checked_links (s : State) (pf reg : Nat) (w : Word) (right : Option Nat) {a : Nat} (low : A.HJL_STATUS ≤ a)
    (high : a < A.SFB_STATUS) : (s.checked pf reg w right).rd a = s.rd a := by
  simp only [A.HJL_STATUS, A.SFB_STATUS] at low high
  exact s.rd_checked pf reg w right (by simp only [A.ENG_EVT]; omega) (by simp only [A.CEL_DROP]; omega) (by simp only [A.CEL_EVT]; omega)

theorem hjlReadmit_spec {s : State} {pf : Fin 2} {w : Word} {p : Fin 44} (may : s.permits pf A.HJL_READMIT w (some 0))
    (port : fieldOf w 0 6 = p.val) (go : bit w.toNat 8 = true) (quar : s.portState p = pQUAR) :
    ∃ t, exec (.hjlReadmit pf w) s = .next t ∧ t.portState p = pDOWN ∧ (t.port p).aligned = false ∧
      t.get F.HJL_READMIT.PORT = p.val := by
  refine ⟨_, congrArg Host.Outcome.next (whenAllowed_acts _ _ _ _ _ may (by simp [port])), ?_⟩
  dsimp only
  rw [port, if_pos go]
  generalize hu : (if bit w.toNat 17 = true then _ else _ : State) = u
  have named : u.get F.HJL_READMIT.PORT = p.val := by
    rw [← hu]
    have set : ((s.checked pf A.HJL_READMIT w (some 0)).set F.HJL_READMIT.PORT p).get F.HJL_READMIT.PORT = p.val := by
      rw [State.get_set_same _ _ _ (by decide)]
      exact Nat.mod_eq_of_lt (show p.val < 2 ^ 6 by omega)
    split
    · exact (State.get_set_apart _ _ (by decide) (by decide)).trans set
    · exact set
  have state : u.portState p = pQUAR := by
    have apart : A.HJL_P_STATE p ≠ A.HJL_READMIT := by simp only [A.HJL_P_STATE, A.HJL_READMIT]; omega
    refine (State.portState_congr (s := s) ?_).trans quar
    rw [← hu]
    have kept : ((s.checked pf A.HJL_READMIT w (some 0)).set F.HJL_READMIT.PORT p).rd (A.HJL_P_STATE p) = s.rd (A.HJL_P_STATE p) := by
      rw [State.rd_set_ne _ _ apart]
      exact s.rd_checked_links _ _ _ _ (by simp only [A.HJL_P_STATE, A.HJL_STATUS]; omega)
        (by simp only [A.HJL_P_STATE, A.SFB_STATUS]; omega)
    split
    · exact (State.rd_set_ne _ _ apart).trans kept
    · exact kept
  rw [if_pos state]
  refine ⟨State.portState_setPortState _ _ (by decide), ?_, ?_⟩
  · rw [State.portRead_setPortState _ _ Port.aligned fun _ _ _ => rfl, State.port_setPort_same]
  · have apart : A.HJL_READMIT ≠ A.HJL_P_STATE p := by simp only [A.HJL_P_STATE, A.HJL_READMIT]; omega
    exact (State.get_congr ((State.rd_setPortState _ _ _ apart (by decide)).trans (State.rd_setPort _ _ _ _))).trans named

theorem hjlRebind_spec {s : State} {pf : Fin 2} {w : Word} {p : Fin 44} (may : s.permits pf A.HJL_REBIND w (some 0))
    (port : fieldOf w 0 6 = p.val) (go : bit w.toNat 16 = true) (idle : s.rebind = none) (waits : s.portState p = pSTANDBY)
    (home : s.get (F.HJL_P_CFG.ROLE p) ≠ 2) :
    ∃ t, exec (.hjlRebind pf w) s = .next t ∧ t.rebind = some p.val ∧ t.get F.HJL_REBIND.PENDING = 1 := by
  refine ⟨_, congrArg Host.Outcome.next (whenAllowed_acts _ _ _ _ _ may (by simp [port])), ?_⟩
  dsimp only
  rw [port]
  generalize hu : (if bit w.toNat 18 = true then _ else _ : State) = u
  have kept : ∀ a, A.HJL_STATUS ≤ a → a < A.SFB_STATUS → a ≠ A.HJL_REBIND → u.rd a = s.rd a := by
    intro a low high apart
    have checked := s.rd_checked_links pf A.HJL_REBIND w (some 0) low high
    rw [← hu]
    split
    · exact (State.rd_set_ne _ _ apart).trans ((State.rd_set_ne _ _ apart).trans checked)
    · exact (State.rd_set_ne _ _ apart).trans checked
  have state : u.portState p = pSTANDBY := by
    refine (State.portState_congr (kept _ ?_ ?_ ?_)).trans waits <;> simp only [A.HJL_P_STATE, A.HJL_STATUS, A.SFB_STATUS, A.HJL_REBIND] <;>
      omega
  have role : u.get (F.HJL_P_CFG.ROLE p) ≠ 2 := by
    rw [State.get_congr (f := F.HJL_P_CFG.ROLE p) (s := s) (kept _ ?_ ?_ ?_)]
    · exact home
    all_goals simp only [F.HJL_P_CFG.ROLE, A.HJL_P_CFG, A.HJL_STATUS, A.SFB_STATUS, A.HJL_REBIND]; omega
  have none_ : u.rebind = none := by
    rw [← hu]
    split
    · rw [State.set_rebind, State.set_rebind, State.checked_rebind, idle]
    · rw [State.set_rebind, State.checked_rebind, idle]
  rw [if_pos ⟨go, none_⟩, if_pos ⟨state, role⟩]
  exact ⟨State.set_rebind _ _ _, State.get_set_same _ _ _ (by decide)⟩

/-! ### The move home (R70) -/

theorem spareReg_ne_portState (n p : Nat) (h : n < 8) : A.HJL_SPARE n ≠ A.HJL_P_STATE p := by
  simp only [A.HJL_SPARE, A.HJL_P_STATE]; omega

/-- The spare of an entry waits again: it is in STANDBY, the entry binds nothing, and no other port's state changes. -/
theorem State.spareWaits_spec {s : State} {n r : Nat} (hn : n < 8) (spare : s.get (F.HJL_SPARE.SPARE_PORT n) = r)
    (bound : s.portState r = pBOUND) : (∀ q, (s.spareWaits n).portState q = if q = r then pSTANDBY else s.portState q) ∧
      (s.spareWaits n).get (F.HJL_SPARE.BOUND n) = 0 := by
  have apart := fun q => (spareReg_ne_portState n q hn).symm
  have still : (s.set (F.HJL_SPARE.BOUND n) 0).portState r = pBOUND :=
    (State.portState_congr (State.rd_set_ne _ _ (apart r))).trans bound
  unfold State.spareWaits
  dsimp only
  rw [spare, if_pos still]
  generalize hu : (s.set (F.HJL_SPARE.BOUND n) 0).setPortState r pSTANDBY = u
  have released : u.get (F.HJL_SPARE.BOUND n) = 0 := by
    rw [← hu, State.get_congr (State.rd_setPortState _ _ _ (spareReg_ne_portState n r hn) (by
      simp only [F.HJL_SPARE.BOUND, A.HJL_SPARE, A.HJL_STATUS]; omega))]
    exact State.get_set_same _ (F.HJL_SPARE.BOUND n) 0 (by simp [F.HJL_SPARE.BOUND])
  refine ⟨fun q => ?_, ?_⟩
  · rw [State.portState_congr (State.rd_setFeed _ _ _ _ _), State.portState_setStation, ← hu]
    split
    next same => rw [same, State.portState_setPortState _ _ (by decide)]
    next other =>
      rw [State.portState_setPortState_ne _ _ other, State.portState_congr (State.rd_set_ne _ _ (apart q))]
  · rw [State.get_congr (State.rd_setFeed _ _ _ _ _), State.get_congr (State.rd_set_ne _ _ (spareReg_ne_portState n r hn)), released]

/-- A station that moves home to its sample port is in RUN there, its spare in STANDBY and its entry free (R70). -/
theorem State.moveHome_spec {s : State} {q n r : Nat} (sample : q < 32) (hn : n < 8) (entry : s.boundEntry q = some n)
    (spare : s.get (F.HJL_SPARE.SPARE_PORT n) = r) (bound : s.portState r = pBOUND) (small : r < 64) (other : r ≠ q) :
    (s.moveHome q).portState q = pRUN ∧ (s.moveHome q).portState r = pSTANDBY ∧ (s.moveHome q).get (F.HJL_SPARE.BOUND n) = 0 := by
  obtain ⟨states, released⟩ := State.spareWaits_spec hn spare bound
  unfold State.moveHome
  dsimp only
  rw [entry, if_neg (isPL_of_sample sample), if_pos (show isSL q = true by simpa [isSL] using sample)]
  dsimp only
  generalize hv : (State.setPort (State.setFeed (s.spareWaits n) q _ _) q _ : State) = v
  have ofV : ∀ a, v.rd a = (s.spareWaits n).rd a := fun a => by rw [← hv, State.rd_setPort, State.rd_setFeed]
  have fabric : ∀ (t : State) (k a : Nat), a < A.SFB_STATUS →
      ((((t.setCtxState q 2).set (F.SFB_C_STATE.SOURCE q) q).ctxReceiving q k).settle q k 7).rd a = t.rd a := by
    intro t k a low
    have apart : a ≠ A.SFB_C_STATE q ∧ a ≠ A.SFB_STATUS ∧ a ≠ A.SFB_EVT := by
      simp only [A.SFB_STATUS, A.SFB_C_STATE, A.SFB_EVT] at low ⊢; omega
    obtain ⟨state, status, evt⟩ := apart
    rw [State.rd_settle, State.rd_ctxReceiving, State.rd_set_ne _ _ state, State.rd_setCtxState _ _ _ state status evt]
  have below : ∀ p, p < 64 → A.HJL_P_STATE p < A.SFB_STATUS := fun p h => by simp only [A.HJL_P_STATE, A.SFB_STATUS]; omega
  have plan : A.HJL_SPARE n < A.SFB_STATUS ∧ A.HJL_SPARE n ≠ A.HJL_STATUS := by
    simp only [A.HJL_SPARE, A.HJL_STATUS, A.SFB_STATUS]; omega
  refine ⟨?_, ?_, ?_⟩
  · rw [State.portState_congr (fabric _ _ _ (below q (by omega))), State.portState_setStation, State.portState_setPortState _ _ (by decide)]
  · rw [State.portState_congr (fabric _ _ _ (below r small)), State.portState_setStation, State.portState_setPortState_ne _ _ other,
      State.portState_congr (ofV _), states, if_pos rfl]
  · rw [State.get_congr (fabric _ _ _ plan.1), State.get_congr (State.rd_set_ne _ _ (spareReg_ne_portState n q hn)),
      State.get_congr (State.rd_setPortState _ _ _ (spareReg_ne_portState n q hn) plan.2), State.get_congr (ofV _), released]

theorem State.moveHome_rebind (s : State) (q : Nat) : (s.moveHome q).rebind = s.rebind :=
  (State.moveHome_kept (.refl 17048238 s) (.refl _)).parts .rebind rfl

/-- The entry that binds a station's spare is found in the spare plan alone. -/
theorem State.boundEntry_congr {s t : State} (h : ∀ n, n < 8 → t.rd (A.HJL_SPARE n) = s.rd (A.HJL_SPARE n)) (st : Nat) :
    t.boundEntry st = s.boundEntry st := by
  unfold State.boundEntry
  refine List.find?_congr fun n hn => ?_
  have same := h n (List.mem_range.mp hn)
  rw [State.flag_congr (f := F.HJL_SPARE.BOUND n) same, State.get_congr (f := F.HJL_SPARE.STATION n) same]

theorem stationRebind_spec {s : State} {q n r : Nat} (sample : q < 32) (pends : s.rebind = some q) (boundary : s.six % hyperPeriod = 0)
    (entry : s.boundEntry q = some n) (waits : s.portState q = pSTANDBY) (spare : s.get (F.HJL_SPARE.SPARE_PORT n) = r)
    (bound : s.portState r = pBOUND) :
    ∃ t, exec .stationRebind s = .next t ∧ t.rebind = none ∧ t.portState q = pRUN ∧ t.portState r = pSTANDBY ∧
      t.get (F.HJL_SPARE.BOUND n) = 0 := by
  have hn : n < 8 := by simpa using List.mem_of_find?_eq_some entry
  have small : r < 64 := spare ▸ fieldOf_lt _ _ _
  have other : r ≠ q := by
    rintro rfl
    exact absurd (bound.symm.trans waits) (by decide)
  generalize hu : ({ s with rebind := none } : State).set F.HJL_REBIND.PENDING 0 = u
  have kept : ∀ a, a ≠ A.HJL_REBIND → u.rd a = s.rd a := fun a h => by
    rw [← hu, State.rd_set_ne _ _ h]
    rfl
  have planReg : ∀ m, m < 8 → A.HJL_SPARE m ≠ A.HJL_REBIND := fun m h => by simp only [A.HJL_SPARE, A.HJL_REBIND]; omega
  have stateReg : ∀ p, A.HJL_P_STATE p ≠ A.HJL_REBIND := fun p => by simp only [A.HJL_P_STATE, A.HJL_REBIND]; omega
  have waits' : u.portState q = pSTANDBY := (State.portState_congr (kept _ (stateReg q))).trans waits
  obtain ⟨home, away, free⟩ := State.moveHome_spec (s := u) sample hn ((State.boundEntry_congr (fun m h => kept _ (planReg m h)) q).trans entry)
    ((State.get_congr (kept _ (planReg n hn))).trans spare) ((State.portState_congr (kept _ (stateReg r))).trans bound) small other
  refine ⟨u.moveHome q, ?_, ?_, home, away, free⟩
  · show execStationRebind s = _
    unfold execStationRebind
    rw [pends]
    dsimp only
    rw [if_pos boundary, hu, if_pos waits']
  · rw [State.moveHome_rebind, ← hu, State.set_rebind]

/-- Settles O30, each clause by the lemma for its command. -/
theorem lossAndReturn : Obligations.LossAndReturn := by
  intro s p q pf w n x
  refine ⟨portLost_spec, portRecovered_spec, fun lost ended noSpare => ?_, hjlReadmit_spec, hjlRebind_spec,
    fun pends boundary entry _ waits _ bound => stationRebind_spec q.isLt pends boundary entry waits rfl bound⟩
  exact ⟨s.killPort q, congrArg Host.Outcome.next (if_pos ⟨lost, ended⟩), State.killPort_spec q.isLt noSpare⟩

end Sys2Proof.Machine
end

section
/-!
PROOFS. Binary inputs (R104 to R108).
-/
namespace Sys2Proof.Machine
open Sys2Proof

/-! ### The records of the inputs -/

theorem State.binIn_setBinIn_same (s : State) (n : Nat) (x : BinIn) : (s.setBinIn n x).binIn n = x := by
  unfold State.binIn State.setBinIn
  dsimp only
  rw [kvGet_put_same]

theorem State.binIn_congr {s t : State} (h : t.bin = s.bin) (n : Nat) : t.binIn n = s.binIn n := by unfold State.binIn; rw [h]

/-- Presenting an input notes it in the input's history alone. -/
theorem State.binIn_present (s : State) (n : Nat) (v ok : Bool) : ∃ h, (s.present n v ok).binIn n = { s.binIn n with hist := h } := by
  unfold State.present
  dsimp only
  exact ⟨_, State.binIn_setBinIn_same _ _ _⟩

/-- Persistence is noted in its own history alone. -/
theorem State.binIn_setPersist (s : State) (n : Nat) (on : Bool) :
    ∃ h, (s.setPersist n on).binIn n = { s.binIn n with persHist := h } := by
  unfold State.setPersist
  dsimp only
  exact ⟨_, (State.binIn_congr (State.set_bin _ _ _) n).trans (State.binIn_setBinIn_same _ _ _)⟩

/-! ### Registers -/

section
variable (s : State) {a : Nat}

theorem State.rd_present (n : Nat) (v ok : Bool) (h : a ≠ A.BIN_STATE) (g : a ≠ A.BIN_VALID) : (s.present n v ok).rd a = s.rd a := by
  unfold State.present
  dsimp only
  rw [State.rd_setBinIn, State.rd_set_ne _ _ g, State.rd_set_ne _ _ h]

theorem State.rd_setPersist (n : Nat) (on : Bool) (h : a ≠ A.BIN_PERSIST) : (s.setPersist n on).rd a = s.rd a := by
  unfold State.setPersist
  dsimp only
  rw [State.rd_set_ne _ _ h, State.rd_setBinIn]

theorem State.rd_binRun (pins : BitVec 32) (n : Nat) : (s.binRun pins n).rd a = s.rd a := by
  unfold State.binRun
  dsimp only
  split <;> rfl

theorem State.rd_binRestart (n : Nat) (h : a ≠ A.BIN_STATE) (g : a ≠ A.BIN_VALID) (e : a ≠ A.BIN_PERSIST) :
    (s.binRestart n).rd a = s.rd a := by
  unfold State.binRestart
  dsimp only
  rw [State.rd_present _ _ _ _ h g, State.rd_setBinIn]
  split
  · exact State.rd_setPersist _ _ _ e
  · rfl

theorem State.rd_readback (tdr : BitVec 8) (n : Nat) (h : a ≠ A.INJ_TDO) (g : a ≠ A.INJ_T_STAT n) : (s.readback tdr n).rd a = s.rd a := by
  unfold State.readback
  dsimp only
  split
  · split <;> rw [State.rd_setTdo, State.rd_set_ne _ _ g, State.rd_set_ne _ _ h]
  · rw [State.rd_set_ne _ _ g, State.rd_set_ne _ _ h]

theorem State.rd_persClear (n : Nat) (low : a < A.CEL_STATUS) (h : a ≠ A.BIN_PERSIST) : (s.persClear n).rd a = s.rd a := by
  unfold State.persClear
  simp only [A.CEL_STATUS] at low
  split
  · rw [State.rd_logNamed _ _ _ (by simp only [A.CEL_DROP]; omega) (by simp only [A.CEL_EVT]; omega), State.rd_setPersist _ _ _ h]
  · rfl

end

/-- The presented state of an input, and whether it is VALID, stand in their bits. -/
theorem State.flag_present (s : State) (n : Fin 32) (v ok : Bool) :
    (s.present n v ok).flag (bitField A.BIN_STATE n) = v ∧ (s.present n v ok).flag (bitField A.BIN_VALID n) = ok := by
  unfold State.present State.flag
  dsimp only
  constructor
  · rw [State.get_congr (State.rd_setBinIn _ _ _ _), State.get_set_ne _ _ (show A.BIN_STATE ≠ A.BIN_VALID by decide),
      State.get_set_same _ _ _ (show n.val + 1 ≤ 32 by omega)]
    cases v <;> rfl
  · rw [State.get_congr (State.rd_setBinIn _ _ _ _), State.get_set_same _ _ _ (show n.val + 1 ≤ 32 by omega)]
    cases ok <;> rfl

/-- The levels are read through the inputs' configuration. -/
theorem State.rawWord_congr {s t : State} (h : ∀ n, t.rd (A.BIN_I_CFG n) = s.rd (A.BIN_I_CFG n)) (pins : BitVec 32) :
    t.rawWord pins = s.rawWord pins := by
  unfold State.rawWord State.binLevel
  simp only [fun n => State.flag_congr (f := F.BIN_I_CFG.ACTIVE_LOW n) (h n)]

theorem State.binRun_clk (s : State) (pins : BitVec 32) (n : Nat) : (s.binRun pins n).clk = s.clk :=
  (State.binRun_kept (.refl 256 s) (.refl _)).parts .clk rfl

theorem State.binRestart_clk (s : State) (n : Nat) : (s.binRestart n).clk = s.clk :=
  (State.binRestart_kept (.refl 258 s) (.refl _)).parts .clk rfl

theorem State.readback_clk (s : State) (tdr : BitVec 8) (n : Nat) : (s.readback tdr n).clk = s.clk :=
  (State.readback_kept (.refl 514 s) (.refl _)).parts .clk rfl

/-- One input takes its level, and begins from it at the first sample. -/
def State.binTake (s : State) (first : Bool) (pins : BitVec 32) (n : Nat) : State :=
  if first then (s.binRun pins n).binRestart n else s.binRun pins n

/-- What taking a level writes: the presented state, VALID and PERSISTENT. -/
theorem State.binTake_spec (s : State) (first : Bool) (pins : BitVec 32) (n : Nat) : (s.binTake first pins n).clk = s.clk ∧
    ∀ a, a ≠ A.BIN_STATE → a ≠ A.BIN_VALID → a ≠ A.BIN_PERSIST → (s.binTake first pins n).rd a = s.rd a := by
  unfold State.binTake
  split
  · exact ⟨(State.binRestart_clk _ _).trans (State.binRun_clk _ _ _),
      fun a h g e => (State.rd_binRestart _ _ h g e).trans (State.rd_binRun _ _ _)⟩
  · exact ⟨State.binRun_clk _ _ _, fun a _ _ _ => State.rd_binRun _ _ _⟩

/-- The levels of the inputs `l` are taken. -/
def State.takeLevels (s : State) (first : Bool) (pins : BitVec 32) (l : List Nat) : State :=
  l.foldl (fun (t : State) n => t.binTake first pins n) s

/-- The outputs `l` are compared with their readback. -/
def State.readbacks (s : State) (tdr : BitVec 8) (l : List Nat) : State := l.foldl (fun (t : State) n => t.readback tdr n) s

section
variable (s : State) (first : Bool) (pins : BitVec 32) (tdr : BitVec 8) (l : List Nat)

theorem State.takeLevels_clk : (s.takeLevels first pins l).clk = s.clk :=
  foldl_keeps State.clk (fun t n => (t.binTake_spec first pins n).1) _ _

theorem State.readbacks_clk : (s.readbacks tdr l).clk = s.clk := by
  unfold State.readbacks
  induction l generalizing s with
  | nil => rfl
  | cons n l ih => rw [List.foldl_cons, ih, State.readback_clk]

theorem State.rd_readbacks : (s.readbacks tdr l).rd A.BIN_RAW = s.rd A.BIN_RAW :=
  foldl_keeps (fun t : State => t.rd A.BIN_RAW) (fun t n => t.rd_readback _ _ (by decide)
    (by simp only [A.BIN_RAW, A.INJ_T_STAT]; omega)) _ _

theorem State.rd_takeLevels (m : Nat) : (s.takeLevels first pins l).rd (A.BIN_I_CFG m) = s.rd (A.BIN_I_CFG m) :=
  foldl_keeps (fun t : State => t.rd (A.BIN_I_CFG m)) (fun t n => (t.binTake_spec first pins n).2 _
    (by simp only [A.BIN_I_CFG, A.BIN_STATE]; omega) (by simp only [A.BIN_I_CFG, A.BIN_VALID]; omega)
    (by simp only [A.BIN_I_CFG, A.BIN_PERSIST]; omega)) _ _

/-- The inputs and the readbacks of one sample period, before the period is marked as sampled. -/
def State.sampled : State :=
  let u := s.takeLevels first pins (List.range 32)
  (u.wr A.BIN_RAW (BitVec.ofNat 32 (u.rawWord pins))).readbacks tdr (List.range 8)

theorem State.sampled_clk : (s.sampled first pins tdr).clk = s.clk :=
  (State.readbacks_clk _ _ _).trans ((State.wr_clk _ _ _).trans (State.takeLevels_clk _ _ _ _))

theorem State.rd_sampled : (s.sampled first pins tdr).rd A.BIN_RAW = BitVec.ofNat 32 (s.rawWord pins) := by
  unfold State.sampled
  dsimp only
  rw [State.rd_readbacks, State.rd_wr_same, State.rawWord_congr (State.rd_takeLevels s first pins _)]

end

theorem State.marked_spec (v : State) : ({ v with bin := { v.bin with last := some v.six } } : State).bin.last = some v.six ∧
    ∀ a, ({ v with bin := { v.bin with last := some v.six } } : State).rd a = v.rd a := ⟨rfl, fun _ => rfl⟩

/-- The pins are read once in a sample period (R104). -/
theorem binaryInputSample_spec {s : State} {pins : BitVec 32} {tdr : BitVec 8} (running : s.clk.running = true)
    (due : s.bin.last ≠ some s.six) : ∃ t, exec (.binaryInputSample pins tdr) s = .next t ∧ t.bin.last = some s.six ∧
      t.rd A.BIN_RAW = BitVec.ofNat 32 (s.rawWord pins) := by
  obtain ⟨v, hv⟩ : ∃ v, v = s.sampled s.bin.last.isNone pins tdr := ⟨_, rfl⟩
  have ran : exec (.binaryInputSample pins tdr) s = .next { v with bin := { v.bin with last := some v.six } } := by
    rw [hv]
    exact if_neg (by simp [running, due])
  have six : v.six = s.six := congrArg Clk.six ((congrArg State.clk hv).trans (s.sampled_clk _ pins tdr))
  have raw : v.rd A.BIN_RAW = BitVec.ofNat 32 (s.rawWord pins) := by rw [hv, State.rd_sampled]
  exact ⟨_, ran, v.marked_spec.1.trans (congrArg some six), (v.marked_spec.2 _).trans raw⟩

/-! ### Confirmation, chatter and persistence -/

/-- What a confirmed transition settles of an input: its level, the SIX of it and whether it is blocked. -/
def BinIn.settled (x : BinIn) : Bool × Nat × Bool := (x.q, x.confirmed, x.blocked)

theorem State.settled_present (s : State) (n : Nat) (v ok : Bool) : ((s.present n v ok).binIn n).settled = (s.binIn n).settled := by
  obtain ⟨h, e⟩ := s.binIn_present n v ok
  rw [e]; rfl

theorem State.settled_persClear (s : State) (n : Nat) : ((s.persClear n).binIn n).settled = (s.binIn n).settled := by
  unfold State.persClear
  split
  · obtain ⟨h, e⟩ := s.binIn_setPersist n false
    rw [State.binIn_congr (State.logNamed_bin _ _ _), e]; rfl
  · rfl

theorem State.pendEvent_bin (s : State) (hit : Sources → Bool) (k : Nat) : (s.pendEvent hit k).bin = s.bin :=
  (State.pendEvent_kept (.refl 270338 s) (.refl _)).parts .bin rfl

/-- A transition of input `n` in the Cellar, where the input asks for it, and the end of its persistence when it falls (R107, R108). -/
def State.transitionNoted (s : State) (n : Nat) (q : Bool) (k : Nat) : State :=
  let s := if s.flag (F.BIN_I_CFG.EVT_EN n) then
      s.logAt (transitionCode n) (Config.sevOf "BIN_TRANSITION").toNat s.six
        (leBytes 1 n ++ leBytes 1 (b2n q) ++ leBytes 8 k ++ leBytes 8 s.six) else s
  if q then s else s.persClear n

theorem State.settled_transitionNoted (s : State) (n : Nat) (q : Bool) (k : Nat) :
    ((s.transitionNoted n q k).binIn n).settled = (s.binIn n).settled := by
  have logged : ((if s.flag (F.BIN_I_CFG.EVT_EN n) then s.logAt (transitionCode n) (Config.sevOf "BIN_TRANSITION").toNat s.six
      (leBytes 1 n ++ leBytes 1 (b2n q) ++ leBytes 8 k ++ leBytes 8 s.six)
      else s).binIn n) = s.binIn n := by
    split
    · exact State.binIn_congr (State.logAt_bin ..) n
    · rfl
  unfold State.transitionNoted
  dsimp only
  split
  · rw [logged]
  · rw [State.settled_persClear, logged]

theorem State.rd_transitionNoted (s : State) (n : Nat) (q : Bool) (k : Nat) {a : Nat} (low : a < A.CEL_STATUS)
    (h : a ≠ A.BIN_PERSIST) : (s.transitionNoted n q k).rd a = s.rd a := by
  have logged : (if s.flag (F.BIN_I_CFG.EVT_EN n) then s.logAt (transitionCode n) (Config.sevOf "BIN_TRANSITION").toNat s.six
      (leBytes 1 n ++ leBytes 1 (b2n q) ++ leBytes 8 k ++ leBytes 8 s.six)
      else s).rd a = s.rd a := by
    simp only [A.CEL_STATUS] at low
    split
    · exact State.rd_logAt _ _ _ _ _ (by simp only [F.CEL_DROP.QUEUE, A.CEL_DROP]; omega) (by simp only [F.CEL_EVT.DROP, A.CEL_EVT]; omega)
    · rfl
  unfold State.transitionNoted
  dsimp only
  split
  · exact logged
  · rw [State.rd_persClear _ _ low h, logged]

/-- An input that was not PERSISTENT is not PERSISTENT after a transition. -/
theorem State.transitionNoted_persist (s : State) (n : Fin 32) (q : Bool) (k : Nat) (off : s.flag (bitField A.BIN_PERSIST n) = false) :
    (s.transitionNoted n q k).flag (bitField A.BIN_PERSIST n) = false := by
  have logged : (if s.flag (F.BIN_I_CFG.EVT_EN n) then s.logAt (transitionCode n) (Config.sevOf "BIN_TRANSITION").toNat s.six
      (leBytes 1 n ++ leBytes 1 (b2n q) ++ leBytes 8 k ++ leBytes 8 s.six)
      else s).flag (bitField A.BIN_PERSIST n) = false := by
    split
    · rw [State.flag_congr (State.rd_logAt _ _ _ _ _ (show A.BIN_PERSIST ≠ _ by decide) (show A.BIN_PERSIST ≠ _ by decide)), off]
    · exact off
  unfold State.transitionNoted
  dsimp only
  split
  · exact logged
  · rw [State.persClear, if_neg (by rw [logged]; decide), logged]

/-- An input with the transition that it has just confirmed: counted, a tag for the event tasks, noted. -/
def State.transitionCounted (s : State) (n : Fin 32) (x : BinIn) (q : Bool) (k : Nat) : State :=
  (((s.setBinIn n x).bump (F.BIN_I_CNT.TRANS n)).pendEvent (fun e => e.bin.contains n.val) s.six).transitionNoted n q k

section
variable (s : State) (n : Fin 32) (x : BinIn) (q : Bool) (k : Nat)

theorem State.settled_transitionCounted : ((s.transitionCounted n x q k).binIn n).settled = x.settled := by
  unfold State.transitionCounted
  rw [State.settled_transitionNoted, State.binIn_congr (State.pendEvent_bin _ _ _), State.binIn_congr (State.bump_bin _ _),
    State.binIn_setBinIn_same]

theorem State.rd_transitionCounted {a : Nat} (low : a < A.TSK_T_STAT 0) (h : a ≠ A.BIN_PERSIST) :
    (s.transitionCounted n x q k).rd a = (s.bump (F.BIN_I_CNT.TRANS n)).rd a := by
  unfold State.transitionCounted
  rw [State.rd_transitionNoted _ _ _ _ (by simp only [A.TSK_T_STAT] at low; simp only [A.CEL_STATUS]; omega) h,
    State.rd_pendEvent _ _ _ low]
  rfl

theorem State.transitionCounted_persist (off : s.flag (bitField A.BIN_PERSIST n) = false) :
    (s.transitionCounted n x q k).flag (bitField A.BIN_PERSIST n) = false := by
  refine State.transitionNoted_persist _ _ _ _ ?_
  rw [State.flag_congr (State.rd_pendEvent _ _ _ (show A.BIN_PERSIST < A.TSK_T_STAT 0 by decide)),
    State.flag_congr (State.rd_bump_ne _ (show A.BIN_PERSIST ≠ A.BIN_I_CNT n by
      simp only [A.BIN_I_CNT, A.BIN_PERSIST]; omega)), State.flag_congr (State.rd_setBinIn _ _ _ _), off]

theorem State.transitions_transitionCounted :
    (s.transitionCounted n x q k).get (F.BIN_I_CNT.TRANS n) = min (s.get (F.BIN_I_CNT.TRANS n) + 1) 65535 := by
  rw [State.get_congr (State.rd_transitionCounted _ _ _ _ _ (show A.BIN_I_CNT n < _ by simp only [A.BIN_I_CNT, A.TSK_T_STAT]; omega)
    (show A.BIN_I_CNT n ≠ _ by simp only [A.BIN_I_CNT, A.BIN_PERSIST]; omega))]
  exact s.get_bumpBy_same (F.BIN_I_CNT.TRANS n) 1 (by simp [F.BIN_I_CNT.TRANS])

end

/-- The input enters the chatter block: it keeps what it shows, no longer VALID (R106). -/
def State.chatterBlock (s : State) (n : Fin 32) (d : List Byte) : State :=
  let s := (s.bump (F.BIN_I_CNT.BLOCKS n)).raise (bitField A.BIN_CHAT_EVT n)
  (s.present n (s.flag (bitField A.BIN_STATE n)) false).logNamed "BIN_CHATTER" d

theorem State.settled_chatterBlock (s : State) (n : Fin 32) (d : List Byte) :
    ((s.chatterBlock n d).binIn n).settled = (s.binIn n).settled := by
  unfold State.chatterBlock
  dsimp only
  rw [State.binIn_congr (State.logNamed_bin _ _ _), State.settled_present, State.binIn_congr (State.raise_bin _ _),
    State.binIn_congr (State.bump_bin _ _)]

theorem State.transitions_chatterBlock (s : State) (n : Fin 32) (d : List Byte) :
    (s.chatterBlock n d).get (F.BIN_I_CNT.TRANS n) = s.get (F.BIN_I_CNT.TRANS n) := by
  unfold State.chatterBlock
  dsimp only
  rw [State.get_congr (State.rd_logNamed _ _ _ (show A.BIN_I_CNT n ≠ _ by simp only [A.BIN_I_CNT, A.CEL_DROP]; omega)
      (show A.BIN_I_CNT n ≠ _ by simp only [A.BIN_I_CNT, A.CEL_EVT]; omega)),
    State.get_congr (State.rd_present _ _ _ _ (show A.BIN_I_CNT n ≠ _ by simp only [A.BIN_I_CNT, A.BIN_STATE]; omega)
      (show A.BIN_I_CNT n ≠ _ by simp only [A.BIN_I_CNT, A.BIN_VALID]; omega)),
    State.get_congr (State.rd_raise_ne _ (show A.BIN_I_CNT n ≠ A.BIN_CHAT_EVT by simp only [A.BIN_I_CNT, A.BIN_CHAT_EVT]; omega))]
  exact State.get_set_apart _ _ (by simp [F.BIN_I_CNT.BLOCKS]) (by simp [F.BIN_I_CNT.BLOCKS, F.BIN_I_CNT.TRANS])

/-- Does the transition that input `n` confirms now block it (R106)? -/
def State.entersBlock (s : State) (n : Nat) : Bool :=
  s.flag (F.BIN_I_CFG.CHAT_EN n) && !(s.binIn n).blocked && s.chatters n (s.binIn n).trans

/-- Input `n` with its level confirmed at this SIX (R105). -/
def State.confirmedIn (s : State) (n : Nat) : BinIn :=
  let x := s.binIn n
  { x with q := x.runLevel, confirmed := s.six, persSince := if x.runLevel then some s.six else none, blocked := x.blocked || s.entersBlock n
           trans := if s.flag (F.BIN_I_CFG.CHAT_EN n) then (s.six :: x.trans).take 256 else []
           confs := s.six :: x.confs.takeWhile (fun c => s.six < c + 262144) }

/-- The state with the transition of input `n` counted and noted. -/
def State.transitionTaken (s : State) (n : Fin 32) : State :=
  let x := s.binIn n
  s.transitionCounted n (s.confirmedIn n) x.runLevel x.runStart

/-- A level that has stood is confirmed (R105, R106). -/
theorem binConfirm_eq {s : State} {n : Fin 32} (sampled : s.bin.last = some s.six) (live : s.opstate ≠ 2)
    (stood : (s.binIn n).runLevel ≠ (s.binIn n).q) (long : s.get (F.BIN_I_CFG.DEB n) ≤ s.six - (s.binIn n).runStart) :
    exec (.binConfirm n) s = .next (if s.entersBlock n then (s.transitionTaken n).chatterBlock n (leBytes 1 n ++ leBytes 1 1)
        else if (s.binIn n).blocked then s.transitionTaken n
        else (s.transitionTaken n).present n (s.binIn n).runLevel (!(s.transitionTaken n).persBlocks n)) := by
  show execBinConfirm n s = _
  unfold execBinConfirm
  dsimp only
  rw [if_pos ⟨sampled, live, stood, long⟩]
  split
  next enters => exact congrArg Host.Outcome.next (if_pos enters).symm
  next stays =>
    rw [if_neg (c := s.entersBlock n = true) stays]
    split
    · rfl
    · rfl

theorem State.settled_transitionTaken (s : State) (n : Fin 32) : ((s.transitionTaken n).binIn n).settled =
    ((s.binIn n).runLevel, s.six, (s.binIn n).blocked || s.entersBlock n) := State.settled_transitionCounted ..

theorem State.transitions_transitionTaken (s : State) (n : Fin 32) :
    (s.transitionTaken n).get (F.BIN_I_CNT.TRANS n) = min (s.get (F.BIN_I_CNT.TRANS n) + 1) 65535 := State.transitions_transitionCounted ..

theorem State.flag_transitionTaken (s : State) (n : Fin 32) :
    (s.transitionTaken n).flag (bitField A.BIN_STATE n) = s.flag (bitField A.BIN_STATE n) :=
  (State.flag_congr (State.rd_transitionCounted _ _ _ _ _ (show A.BIN_STATE < A.TSK_T_STAT 0 by decide)
    (show A.BIN_STATE ≠ A.BIN_PERSIST by decide))).trans
    (State.flag_congr (State.rd_bump_ne _ (show A.BIN_STATE ≠ A.BIN_I_CNT n by simp only [A.BIN_STATE, A.BIN_I_CNT]; omega)))

/-- Presenting an input, or what the Cellar takes beside, does not count transitions. -/
theorem State.transitions_present (s : State) (n : Nat) (v ok : Bool) :
    (s.present n v ok).get (F.BIN_I_CNT.TRANS n) = s.get (F.BIN_I_CNT.TRANS n) :=
  State.get_congr (State.rd_present _ _ _ _ (show A.BIN_I_CNT n ≠ _ by simp only [A.BIN_I_CNT, A.BIN_STATE]; omega)
    (show A.BIN_I_CNT n ≠ _ by simp only [A.BIN_I_CNT, A.BIN_VALID]; omega))

/-- What a confirmation leaves: the level and its SIX, the count, and what the input then shows. -/
theorem binConfirm_spec {s : State} {n : Fin 32} (sampled : s.bin.last = some s.six) (live : s.opstate ≠ 2)
    (stood : (s.binIn n).runLevel ≠ (s.binIn n).q) (long : s.get (F.BIN_I_CFG.DEB n) ≤ s.six - (s.binIn n).runStart) :
    ∃ t, exec (.binConfirm n) s = .next t ∧
      (t.binIn n).settled = ((s.binIn n).runLevel, s.six, (s.binIn n).blocked || s.entersBlock n) ∧
      t.get (F.BIN_I_CNT.TRANS n) = min (s.get (F.BIN_I_CNT.TRANS n) + 1) 65535 ∧
      ((s.binIn n).blocked = true → t.flag (bitField A.BIN_STATE n) = s.flag (bitField A.BIN_STATE n)) ∧
      ((s.binIn n).blocked = false → s.entersBlock n = false → t.flag (bitField A.BIN_STATE n) = (s.binIn n).runLevel ∧
        t.flag (bitField A.BIN_VALID n) = !(s.transitionTaken n).persBlocks n) := by
  refine ⟨_, binConfirm_eq sampled live stood long, ?_⟩
  split
  next enters =>
    have free : (s.binIn n).blocked = false := by
      cases h : (s.binIn n).blocked
      · rfl
      · simp [State.entersBlock, h] at enters
    refine ⟨?_, ?_, fun blocked => absurd blocked (by simp [free]), fun _ stays => absurd enters (by simp [stays])⟩
    · rw [State.settled_chatterBlock, State.settled_transitionTaken]
    · rw [State.transitions_chatterBlock, State.transitions_transitionTaken]
  next =>
    split
    next blocked =>
      exact ⟨s.settled_transitionTaken n, s.transitions_transitionTaken n, fun _ => s.flag_transitionTaken n,
        fun free => absurd blocked (by simp [free])⟩
    next free =>
      refine ⟨?_, ?_, fun blocked => absurd blocked free, fun _ _ => State.flag_present _ _ _ _⟩
      · rw [State.settled_present, State.settled_transitionTaken]
      · rw [State.transitions_present, State.transitions_transitionTaken]

/-- Only an input that is PERSISTENT has VALID withheld after a transition. -/
theorem State.persBlocks_transitionTaken {s : State} {n : Fin 32} (off : s.flag (bitField A.BIN_PERSIST n) = false) :
    (s.transitionTaken n).persBlocks n = false := by
  unfold State.persBlocks
  rw [show (s.transitionTaken n).flag (bitField A.BIN_PERSIST n) = false from State.transitionCounted_persist _ _ _ _ _ off]
  rfl

/-- The end of a chatter block presents the level confirmed last (R106). -/
theorem chatterHoldEnd_spec {s : State} {n : Fin 32} (blocked : (s.binIn n).blocked = true)
    (due : (s.binIn n).confirmed + s.get (F.BIN_I_TIME.HOLD_S n) * 2000000 ≤ s.six) : ∃ t, exec (.chatterHoldEnd n) s = .next t ∧
      (t.binIn n).blocked = false ∧ t.flag (bitField A.BIN_STATE n) = (s.binIn n).q := by
  refine ⟨_, if_pos ⟨blocked, due⟩, ?_, ?_⟩
  · rw [State.binIn_congr (State.logNamed_bin _ _ _)]
    exact (congrArg (fun b : Bool × Nat × Bool => b.2.2) (State.settled_present _ _ _ _)).trans
      (congrArg BinIn.blocked (State.binIn_setBinIn_same _ _ _))
  · rw [State.flag_congr (State.rd_logNamed _ _ _ (show A.BIN_STATE ≠ A.CEL_DROP by decide) (show A.BIN_STATE ≠ A.CEL_EVT by decide))]
    exact (State.flag_present _ _ _ _).1

/-- Input `n` PERSISTENT, with its event and its entry. -/
def State.persisted (s : State) (n : Fin 32) : State :=
  ((s.setPersist n true).raise (bitField A.BIN_PERS_EVT n)).logNamed "BIN_PERSISTENT" (leBytes 1 n ++ leBytes 1 1)

theorem State.persisted_flags (s : State) (n : Fin 32) :
    (s.persisted n).flag (bitField A.BIN_PERSIST n) = true ∧ (s.persisted n).flag (bitField A.BIN_PERS_EVT n) = true := by
  have set : (s.setPersist n true).flag (bitField A.BIN_PERSIST n) = true :=
    State.flag_set_one _ (bitField A.BIN_PERSIST n) (show n.val + 1 ≤ 32 by omega) rfl
  unfold State.persisted
  constructor
  · rw [State.flag_congr (State.rd_logNamed _ _ _ (show A.BIN_PERSIST ≠ A.CEL_DROP by decide) (show A.BIN_PERSIST ≠ A.CEL_EVT by decide)),
      State.flag_congr (State.rd_raise_ne _ (show A.BIN_PERSIST ≠ A.BIN_PERS_EVT by decide)), set]
  · rw [State.flag_congr (State.rd_logNamed _ _ _ (show A.BIN_PERS_EVT ≠ A.CEL_DROP by decide)
      (show A.BIN_PERS_EVT ≠ A.CEL_EVT by decide))]
    exact State.flag_raise _ _ (show n.val + 1 ≤ 32 by omega) rfl

/-- An input active for long enough is PERSISTENT and raises its event (R107). -/
theorem persistentSet_spec {s : State} {n : Fin 32} {k : Nat} (enabled : s.flag (F.BIN_I_CFG.PERS_EN n) = true)
    (off : s.flag (bitField A.BIN_PERSIST n) = false) (since : (s.binIn n).persSince = some k)
    (due : k + s.get (F.BIN_I_TIME.PERS_S n) * 2000000 ≤ s.six) : ∃ t, exec (.persistentSet n) s = .next t ∧
      t.flag (bitField A.BIN_PERSIST n) = true ∧ t.flag (bitField A.BIN_PERS_EVT n) = true := by
  have long : (s.binIn n).persSince.any (fun k => k + s.get (F.BIN_I_TIME.PERS_S n) * samplesPerSecond ≤ s.six) = true := by
    have late : k + s.get (F.BIN_I_TIME.PERS_S n) * samplesPerSecond ≤ s.six := due
    rw [since, Option.any_some, decide_eq_true late]
  have first : (!s.flag (bitField A.BIN_PERSIST n)) = true := by simp [off]
  obtain ⟨persistent, event⟩ := s.persisted_flags n
  refine ⟨_, if_pos ⟨enabled, first, long⟩, ?_⟩
  show (if (s.persisted n).flag (F.BIN_I_CFG.PERS_BLOCK n) then _ else s.persisted n : State).flag _ = _ ∧
    (if (s.persisted n).flag (F.BIN_I_CFG.PERS_BLOCK n) then _ else s.persisted n : State).flag _ = _
  split
  · constructor
    · rw [State.flag_congr (State.rd_present _ _ _ _ (show A.BIN_PERSIST ≠ A.BIN_STATE by decide)
        (show A.BIN_PERSIST ≠ A.BIN_VALID by decide))]
      exact persistent
    · rw [State.flag_congr (State.rd_present _ _ _ _ (show A.BIN_PERS_EVT ≠ A.BIN_STATE by decide)
        (show A.BIN_PERS_EVT ≠ A.BIN_VALID by decide))]
      exact event
  · exact ⟨persistent, event⟩

/-- Settles O33: sampling, confirmation, the end of a chatter block and persistence, each by its rule above. -/
theorem binaryInputConditioning : Obligations.BinaryInputConditioning := by
  intro s n pins tdr k x
  refine ⟨binaryInputSample_spec, fun sampled live stood long => ?_, chatterHoldEnd_spec, persistentSet_spec⟩
  obtain ⟨t, ran, settled, counted, kept, shown⟩ := binConfirm_spec sampled live stood long
  have level : (t.binIn n).q = x.runLevel := congrArg Prod.fst settled
  have at_six : (t.binIn n).confirmed = s.six := congrArg (fun b : Bool × Nat × Bool => b.2.1) settled
  refine ⟨t, ran, level, at_six, counted, kept, fun free noChatter => ?_⟩
  obtain ⟨state, valid⟩ := shown free (by simp [State.entersBlock, noChatter])
  exact ⟨state, fun off => by rw [valid, State.persBlocks_transitionTaken off]; rfl⟩

end Sys2Proof.Machine
end

section
/-!
PROOFS. Memory errors (R223, R224), on a state whose open cycle carries a TID that no task table holds.
-/
namespace Sys2Proof.Machine
open Sys2Proof

/-- What a reader sees of the next state, where there is one. -/
def seen {α : Type} (o : Host.Outcome State Fault Refusal) (read : State → α) : Option α :=
  match o with
  | .next t => some (read t)
  | _ => none

/-- What is seen of an outcome is read from its next state. -/
theorem read_of_seen {α : Type} {o : Host.Outcome State Fault Refusal} {read : State → α} {v : α} {t : State} (h : seen o read = some v)
    (ran : o = .next t) : read t = v := by
  subst ran
  exact Option.some.inj h

/-- An open cycle of partition 0 with TID 1928: TSK_Tt_UNCLEAN of that TID is the word of MPU_ECC_CNT of memory 1. -/
def strayCycle : Cycle :=
  { tid := 1928, part := 0, lane := 1, kind := 0, status := 0, rel := 0, period := 100, prio := 0, fmask := 0, event := false, overrun := false
    unclean := false, regs := [], flg := 0, nb := 0, pc := 0, lim := none, frames := [], loops := [], img := ⟨[], [], 0, [], false⟩, ost := []
    shst := [], gset := [], evr := [], notes := [], drops := 0, journal := [], exec := 0, ended := 0 }

/-- Lane 1 serves partition 0 with the stray cycle open, and the corrected errors of memory 1 stand at their limit. -/
def strayState : State :=
  (({ State.reset with tsk := { State.reset.tsk with cyc := [(1928, some strayCycle)] } } : State).set (F.LNE_L_STATE.ROLE 1) 1).set
    (F.MPU_ECC_CNT.CE 1) 65535

theorem unclean_is_eccCnt : A.TSK_T_UNCLEAN 1928 = A.MPU_ECC_CNT 1 := by decide

/-- The uncorrectable error fails lane 1, which loses its cycle: the count of unclean cycles carries into UE. -/
theorem scrubError_strayState : seen (exec (.scrubError 1 0 true .other) strayState) (State.get · (F.MPU_ECC_CNT.UE 1)) = some 2 ∧
    strayState.get (F.MPU_ECC_CNT.UE 1) = 0 := by
  decide +kernel

/-- Refutes O41: an uncorrectable error in lane 1's code memory loses the lane's open cycles, and a cycle whose TID is 1928 counts as unclean
in the word of MPU_ECC_CNT of memory 1 (`unclean_is_eccCnt`), so that UE goes from 0 to 2. The statement bounds no TID. -/
theorem not_scrubbingCounts : ¬ Obligations.ScrubbingCounts := by
  intro holds
  obtain ⟨-, ⟨t, ran, counted, -⟩, -⟩ := holds strayState 1 0
  obtain ⟨twice, none⟩ := scrubError_strayState
  have two : t.get (F.MPU_ECC_CNT.UE 1) = 2 := read_of_seen twice ran
  have one : t.get (F.MPU_ECC_CNT.UE 1) = min (strayState.get (F.MPU_ECC_CNT.UE 1) + 1) 255 := counted
  rw [two, none] at one
  exact absurd one (by decide)

end Sys2Proof.Machine
end

section
/-!
PROOFS. Value changes (R226 to R231).
-/
namespace Sys2Proof.Machine
open Sys2Proof

/-! ### What the batch reads -/

section
variable {s t : State}

theorem State.nounById_congr (h : t.tsk = s.tsk) (id : Nat) : t.nounById id = s.nounById id := by unfold State.nounById; rw [h]

theorem State.vcEntries_congr {count : Nat} (few : count ≤ 64) (h : ∀ a, A.OLC_VC_E_ID_LO 0 ≤ a → a ≤ A.OLC_VC_E_VAL 63 → t.rd a = s.rd a) :
    t.vcEntries count = s.vcEntries count := by
  refine List.map_congr_left fun i hi => ?_
  have small : i < 64 := (List.mem_range.mp hi).trans_le few
  simp only [A.OLC_VC_E_ID_LO, A.OLC_VC_E_VAL] at h
  rw [h _ (by simp only [A.OLC_VC_E_ID_LO]; omega) (by simp only [A.OLC_VC_E_ID_LO]; omega),
    h _ (by simp only [A.OLC_VC_E_ID_HI]; omega) (by simp only [A.OLC_VC_E_ID_HI]; omega),
    h _ (by simp only [A.OLC_VC_E_VAL]; omega) (by simp only [A.OLC_VC_E_VAL]; omega),
    State.get_congr (f := F.OLC_VC_E_OFS.OFFSET i) (h (A.OLC_VC_E_OFS i) (by simp only [A.OLC_VC_E_OFS]; omega)
      (by simp only [A.OLC_VC_E_OFS]; omega))]

theorem State.vcReason_congr {count : Nat} (tsk : t.tsk = s.tsk) (entries : t.vcEntries count = s.vcEntries count) :
    t.vcReason count = s.vcReason count := by
  unfold State.vcReason
  rw [entries, tsk]
  simp only [State.nounById_congr tsk]

/-- A batch with nothing to refuse has at most 64 entries. -/
theorem State.few_of_vcReason {count : Nat} (h : s.vcReason count = 0) : count ≤ 64 := by
  by_contra many
  unfold State.vcReason at h
  dsimp only at h
  rw [if_pos (.inr (by omega))] at h
  exact absurd h (by decide)

end

/-! ### Kicks -/

section
variable (s : State)

/-- BUSY as the engine shows it; REASON and the batch stay. -/
theorem State.get_vcBusy (on : Bool) : (s.vcBusy on).get F.OLC_VC_CTL.BUSY = b2n on := by
  unfold State.vcBusy
  rw [State.get_set_ne _ _ (by decide), State.get_set_same _ _ _ (by decide)]
  cases on <;> rfl

theorem State.reason_vcBusy (on : Bool) : (s.vcBusy on).get F.OLC_VC_CTL.REASON = s.get F.OLC_VC_CTL.REASON := by
  unfold State.vcBusy
  rw [State.get_set_ne _ _ (by decide), State.get_set_apart _ _ (by decide) (by decide)]

theorem State.vcBusy_olc (on : Bool) : (s.vcBusy on).olc = s.olc := by
  unfold State.vcBusy
  rw [State.set_olc, State.set_olc]

theorem State.vcBusy_mem (on : Bool) : (s.vcBusy on).mem = s.mem := by
  unfold State.vcBusy
  rw [State.set_mem, State.set_mem]

theorem State.vcBusy_clk (on : Bool) : (s.vcBusy on).clk = s.clk := by
  unfold State.vcBusy
  rw [State.set_clk, State.set_clk]

/-- The state with a batch that pends. -/
def State.batchPends (b : Batch) : State :=
  (({ s with olc := { s.olc with vc := some b } } : State).vcBusy true).set F.OLC_VC_INFO.TID b.tid

theorem State.batchPends_shows (b : Batch) : (s.batchPends b).get F.OLC_VC_CTL.BUSY = 1 ∧
    (s.batchPends b).get F.OLC_VC_CTL.REASON = s.get F.OLC_VC_CTL.REASON ∧ (s.batchPends b).olc.vc = some b := by
  unfold State.batchPends
  rw [State.get_set_ne _ _ (by decide), State.get_set_ne _ _ (by decide), State.get_vcBusy, State.reason_vcBusy, State.set_olc,
    State.vcBusy_olc]
  exact ⟨rfl, State.get_congr rfl, rfl⟩

/-- The state without a batch, for a reason. -/
def State.batchEnds (reason : Nat) : State :=
  (({ s with olc := { s.olc with vc := none } } : State).vcBusy false).set F.OLC_VC_CTL.REASON reason

theorem State.batchEnds_shows : (s.batchEnds 6).olc.vc = none ∧ (s.batchEnds 6).get F.OLC_VC_CTL.REASON = 6 ∧
    (s.batchEnds 6).get F.OLC_VC_CTL.BUSY = 0 := by
  unfold State.batchEnds
  rw [State.get_set_same _ _ _ (by decide), State.get_set_apart _ _ (by decide) (by decide), State.get_vcBusy, State.set_olc,
    State.vcBusy_olc]
  exact ⟨rfl, rfl, rfl⟩

end

section
variable {s : State} {pf : Fin 2} {w : Word}

/-- A batch with nothing to refuse pends (R226). -/
theorem vcApply_spec (may : s.permits pf A.OLC_VC_CTL w (some 1)) (free : s.olc.vc = none) (kick : bit w.toNat 8 = true)
    (sound : s.vcReason (fieldOf w 0 7) = 0) : ∃ u, exec (.vcApply pf w) s = .next u ∧ u.get F.OLC_VC_CTL.BUSY = 1 ∧
      u.get F.OLC_VC_CTL.REASON = 0 ∧ u.olc.vc.map (fun x => (x.kick, x.entries)) = some (s.six, s.vcEntries (fieldOf w 0 7)) := by
  obtain ⟨t, ht⟩ : ∃ t, t = (s.checked pf A.OLC_VC_CTL w needsChange).set F.OLC_VC_CTL.COUNT (fieldOf w 0 7) := ⟨_, rfl⟩
  have tsk : t.tsk = s.tsk := by rw [ht, State.set_tsk, State.checked_tsk]
  have clk : t.clk = s.clk := by rw [ht, State.set_clk, State.checked_clk]
  have entries : t.vcEntries (fieldOf w 0 7) = s.vcEntries (fieldOf w 0 7) := by
    refine State.vcEntries_congr (State.few_of_vcReason sound) fun a low high => ?_
    simp only [A.OLC_VC_E_ID_LO, A.OLC_VC_E_VAL] at low high
    rw [ht, State.rd_set_ne _ _ (show a ≠ A.OLC_VC_CTL by simp only [A.OLC_VC_CTL]; omega),
      State.rd_checked _ _ _ _ _ (by simp only [A.ENG_EVT]; omega) (by simp only [A.CEL_DROP]; omega) (by simp only [A.CEL_EVT]; omega)]
  have reason : t.vcReason (fieldOf w 0 7) = 0 := (State.vcReason_congr tsk entries).trans sound
  obtain ⟨v, hv⟩ : ∃ v, v = t.set F.OLC_VC_CTL.REASON 0 := ⟨_, rfl⟩
  have same : v.vcEntries (fieldOf w 0 7) = t.vcEntries (fieldOf w 0 7) :=
    State.vcEntries_congr (State.few_of_vcReason sound) fun a low _ => by
      rw [hv]
      exact State.rd_set_ne _ _ (show a ≠ A.OLC_VC_CTL by
        simp only [A.OLC_VC_E_ID_LO] at low; simp only [A.OLC_VC_CTL]; omega)
  have idle : s.gateBusy pf A.OLC_VC_CTL w needsChange s.olc.vc.isSome = s.gate pf A.OLC_VC_CTL w needsChange false := by
    rw [free]; rfl
  have ran : ∃ tid lays, exec (.vcApply pf w) s =
      .next (v.batchPends ⟨v.six, tid, v.vcEntries (fieldOf w 0 7), lays⟩) := by
    show ∃ tid lays, execVcApply pf w s = _
    unfold execVcApply
    rw [idle, whenAllowed_acts s pf _ w needsChange may rfl]
    dsimp only
    rw [← ht, if_pos kick, reason, if_neg (by simp), ← hv]
    exact ⟨_, _, rfl⟩
  obtain ⟨tid, lays, ran⟩ := ran
  obtain ⟨busy, shown, batch⟩ := v.batchPends_shows ⟨v.six, tid, v.vcEntries (fieldOf w 0 7), lays⟩
  refine ⟨_, ran, busy, shown.trans (by rw [hv, State.get_set_same _ _ _ (by decide)]; rfl), ?_⟩
  rw [batch]
  exact congrArg some (Prod.ext (congrArg Clk.six (by rw [hv, State.set_clk, clk])) (same.trans entries))

/-- CANCEL ends the batch that pends (R228). -/
theorem vcCancel_spec {b : Batch} (may : s.permits pf A.OLC_VC_CTL w (some 1)) (pends : s.olc.vc = some b) (kick : bit w.toNat 9 = true) :
    ∃ u, exec (.vcCancel pf w) s = .next u ∧ u.olc.vc = none ∧ u.get F.OLC_VC_CTL.REASON = 6 ∧ u.get F.OLC_VC_CTL.BUSY = 0 := by
  obtain ⟨t, ht⟩ : ∃ t, t = s.checked pf A.OLC_VC_CTL w needsChange := ⟨_, rfl⟩
  have still : t.olc.vc.isSome = true := by rw [ht, State.checked_olc, pends]; rfl
  have ran : exec (.vcCancel pf w) s = .next (t.batchEnds 6) := by
    show execVcCancel pf w s = _
    unfold execVcCancel
    rw [whenAllowed_acts s pf _ w needsChange may rfl]
    dsimp only
    rw [← ht, if_pos still, if_pos ⟨kick, still⟩]
    rfl
  exact ⟨_, ran, t.batchEnds_shows⟩

end

/-! ### A batch takes effect (R227) -/

section
variable (s : State)

/-- The serving lanes are four. -/
theorem State.serviceLane_lt {s : State} {p ln : Nat} (h : s.serviceLane p = some ln) : ln < 4 := by
  have listed : ln ∈ [0, 1, 2, 3] := List.mem_of_find?_eq_some h
  simp only [List.mem_cons, List.not_mem_nil, or_false] at listed
  omega

/-- A word just stored is loaded, whatever other memory is stored to after. -/
theorem State.loadWord_stored (sp a q b m u : Nat) (v : Word) (apart : sp ≠ q) :
    ((s.storeNat sp a 4 v.toNat).storeNat q b m u).loadWord sp a = v := by
  have kept : ((s.storeNat sp a 4 v.toNat).storeNat q b m u).loadBytes sp a 4 = (s.storeNat sp a 4 v.toNat).loadBytes sp a 4 :=
    State.loadBytes_congr fun i _ => State.byteAt_storeNat_outside _ fun inside => apart inside.1
  have stored : (s.storeNat sp a 4 v.toNat).loadBytes sp a 4 = leBytes 4 v.toNat := by
    have := s.loadBytes_storeBytes sp a (leBytes 4 v.toNat)
    rwa [leBytes_length] at this
  unfold State.loadWord State.loadNat
  rw [kept, stored, leNat_leBytes, Nat.mod_eq_of_lt (by have := v.isLt; omega), BitVec.ofNat_toNat, BitVec.setWidth_eq]

/-- A memory word depends on the memories alone. -/
theorem State.loadWord_congr {s t : State} (h : t.mem = s.mem) (sp a : Nat) : t.loadWord sp a = s.loadWord sp a := by
  unfold State.loadWord State.loadNat State.loadBytes State.byteAt State.bytes
  rw [h]

theorem State.lftEvent_parts (e : LftEvent) : (s.lftEvent e).mem = s.mem ∧ (s.lftEvent e).olc = s.olc := by
  unfold State.lftEvent
  dsimp only
  split <;> exact ⟨rfl, rfl⟩

theorem State.vcShadow_off {s : State} (off : s.olc.shadow = false) (tid id layout o : Nat) (v : Word) : s.vcShadow tid id layout o v = s := by
  unfold State.vcShadow
  rw [if_neg (by simp [State.shadowHas, off])]

/-- With no shadow run, an entry writes its word in the lane that serves the task. -/
theorem State.loadWord_vcEntry {s : State} {ln tid id off : Nat} {v : Word} {p : Partition} {n : Noun} (found : s.nounById id = some (p, n))
    (noShadow : s.olc.shadow = false) : (s.vcEntry ln tid (id, off, v)).loadWord (spData ln) (n.base + off) = v := by
  unfold State.vcEntry
  rw [found]
  dsimp only
  rw [State.vcShadow_off]
  · rw [State.loadWord_congr (State.lftEvent_parts _ _).1, State.loadWord_congr (State.logNamedSev_mem _ _ _ _),
      State.loadWord_stored _ _ _ _ _ _ _ _ (by simp only [spData, spSRAM]; omega)]
  · rw [(State.lftEvent_parts _ _).2, State.logNamedSev_olc]
    exact noShadow

theorem State.vcEntry_clk (ln tid : Nat) (e : Nat × Nat × Word) : (s.vcEntry ln tid e).clk = s.clk :=
  (State.vcEntry_kept (.refl _ s) (.refl _)).parts .clk rfl

/-- No batch pends any more. -/
def State.noBatch : State := ({ s with olc := { s.olc with vc := none } } : State).vcBusy false

/-- The SIX of a batch is shown, its event signalled. -/
def State.batchShown : State :=
  (((s.set64 A.OLC_VC_SIX s.six).set F.OLC_VC_INFO.SEQ (s.get F.OLC_VC_INFO.SEQ + 1)).set F.OLC_VC_CTL.REASON 0).raise
    F.OLC_EVT.VC_APPLIED

theorem State.noBatch_parts : s.noBatch.olc.vc = none ∧ s.noBatch.mem = s.mem ∧ s.noBatch.clk = s.clk := by
  unfold State.noBatch
  rw [State.vcBusy_olc, State.vcBusy_mem, State.vcBusy_clk]
  exact ⟨rfl, rfl, rfl⟩

theorem State.batchShown_parts : s.batchShown.olc = s.olc ∧ s.batchShown.mem = s.mem := by
  unfold State.batchShown
  rw [State.raise_olc, State.raise_mem, State.set_olc, State.set_mem, State.set_olc, State.set_mem, State.set64_olc, State.set64_mem]
  exact ⟨rfl, rfl⟩

/-- A 64-bit register beside the register that a field or an event writes. -/
theorem State.get64_set_ne {a : Nat} (f : Field) (v : Nat) (low : a ≠ f.addr) (high : a + 4 ≠ f.addr) : (s.set f v).get64 a = s.get64 a := by
  unfold State.get64
  rw [State.rd_set_ne _ _ low, State.rd_set_ne _ _ high]

theorem State.get64_raise_ne {a : Nat} (f : Field) (low : a ≠ f.addr) (high : a + 4 ≠ f.addr) : (s.raise f).get64 a = s.get64 a := by
  unfold State.get64
  rw [State.rd_raise_ne _ low, State.rd_raise_ne _ high]

theorem State.batchShown_shows : s.batchShown.get64 A.OLC_VC_SIX = s.six % 2 ^ 64 ∧ s.batchShown.get F.OLC_VC_CTL.REASON = 0 ∧
    s.batchShown.flag F.OLC_EVT.VC_APPLIED = true := by
  unfold State.batchShown
  refine ⟨?_, ?_, State.flag_raise _ _ (by decide) rfl⟩
  · rw [State.get64_raise_ne _ _ (by decide) (by decide), State.get64_set_ne _ _ _ (by decide) (by decide),
      State.get64_set_ne _ _ _ (by decide) (by decide), State.get64_set64]
  · rw [State.get_congr (State.rd_raise_ne _ (show A.OLC_VC_CTL ≠ A.OLC_EVT by decide)), State.get_set_same _ _ _ (by decide)]
    rfl

end

theorem State.vcTake_one {s : State} {b : Batch} {e : Nat × Nat × Word} (entries : b.entries = [e]) (ln : Nat) :
    s.vcTake b ln = (s.vcEntry ln b.tid e).noBatch.batchShown := by
  unfold State.vcTake
  rw [entries, List.foldl_cons, List.foldl_nil]
  rfl

/-- Settles O42: the kick and its cancellation, and the one entry of a batch at the release of its task. -/
theorem valueChanges : Obligations.ValueChanges := by
  intro s pf w b t ln id off v p n
  refine ⟨vcApply_spec, vcCancel_spec, fun pends task lane due release closed noSnap noHand entries found noShadow => ?_⟩
  obtain ⟨u, hu⟩ : ∃ u, u = s.vcEntry ln b.tid (id, off, v) := ⟨_, rfl⟩
  have now : s.vcNow = some (b, ln) := by
    unfold State.vcNow
    rw [pends]
    dsimp only
    rw [task, lane]
    dsimp only
    rw [if_pos (by rw [due, release]; rfl)]
  have ran : exec .vcApplied s = .next u.noBatch.batchShown := by
    show execVcApplied s = _
    unfold execVcApplied
    rw [now]
    dsimp only
    rw [if_pos (by rw [closed, noSnap, noHand]; rfl), State.vcTake_one entries, hu]
  obtain ⟨olc, mem⟩ := u.noBatch.batchShown_parts
  obtain ⟨none_pends, same, clk⟩ := u.noBatch_parts
  obtain ⟨six, reason, event⟩ := u.noBatch.batchShown_shows
  refine ⟨_, ran, (congrArg OlcSt.vc olc).trans none_pends, ?_, ?_, reason, event⟩
  · rw [State.loadWord_congr mem, State.loadWord_congr same, hu, State.loadWord_vcEntry found noShadow]
  · rw [six, show u.noBatch.six = s.six from congrArg Clk.six (by rw [clk, hu, State.vcEntry_clk])]

end Sys2Proof.Machine
end

section
/-!
PROOFS. The Loft's ring, its journal and the slow ring (R253 to R255).
-/
namespace Sys2Proof.Machine
open Sys2Proof

/-! ### Memory outside a store -/

/-- The bytes of the other memories, and those of DRAM outside `size` bytes from `base` on. -/
def Apart (base size sp x : Nat) : Prop := ¬(sp = spDRAM ∧ base ≤ x ∧ x < base + size)

/-- A companion store writes inside its own bytes. -/
theorem State.byteAt_companion (s : State) {base size pos n sp x : Nat} (fits : n ≤ size) (apart : Apart base size sp x) :
    (s.companion base size pos n).byteAt sp x = s.byteAt sp x := by
  unfold Apart at apart
  have fresh : s.fresh.2.byteAt sp x = s.byteAt sp x := State.byteAt_congr rfl sp x
  rcases Nat.eq_zero_or_pos size with rfl | some_
  · obtain rfl : n = 0 := by omega
    unfold State.companion
    dsimp only
    rw [State.byteAt_storeBytes_outside _ (by simp), State.byteAt_storeBytes_outside _ (by simp), fresh]
  · have within := Nat.mod_lt pos some_
    unfold State.companion
    dsimp only
    rw [State.byteAt_storeBytes_outside, State.byteAt_storeBytes_outside, fresh]
    · rintro ⟨rfl, low, high⟩
      simp only [List.length_take, List.length_map, List.length_range] at high
      exact apart ⟨rfl, by omega, by omega⟩
    · rintro ⟨rfl, low, high⟩
      simp only [List.length_drop, List.length_map, List.length_range] at high
      exact apart ⟨rfl, low, by omega⟩

/-! ### What the journal and the histograms leave (R254, R274) -/

/-- What tells how far the ring reaches: its first and its next SIX, and the journal. -/
def LftSt.reach (l : LftSt) : Nat × Nat × List JEntry := (l.next, l.start, l.jrn)

theorem LftSt.next_of_reach {l m : LftSt} (h : l.reach = m.reach) : l.next = m.next := congrArg Prod.fst h

theorem State.ringOld_congr {s t : State} (h : t.lft.reach = s.lft.reach) : t.ringOld = s.ringOld := by
  obtain ⟨next, start, jrn⟩ : t.lft.next = s.lft.next ∧ t.lft.start = s.lft.start ∧ t.lft.jrn = s.lft.jrn := by
    simpa [LftSt.reach] using h
  unfold State.ringOld State.lineOld State.journalOld
  rw [next, start, jrn]

section
variable (s : State)

theorem State.reach_setHist (u : Nat) (x : HistSt) : (s.setHist u x).lft.reach = s.lft.reach := rfl
theorem State.reach_histAttach (u t : Nat) : (s.histAttach u t).lft.reach = s.lft.reach := rfl

theorem State.reach_histZero (u : Nat) : (s.histZero u).lft.reach = s.lft.reach := by
  unfold State.histZero
  rw [State.set_lft, State.set_lft, State.reach_setHist]

theorem State.reach_histAdd (u : Nat) (v : Int) : (s.histAdd u v).lft.reach = s.lft.reach := by
  unfold State.histAdd
  dsimp only
  split
  · rw [State.bump_lft, State.bump_lft, State.reach_setHist]
  · rw [State.bump_lft, State.reach_setHist]

/-- The registers of the histogram units lie above those of the ring. -/
theorem State.rd_histZero (u : Nat) {a : Nat} (low : a < A.LFT_H_CTL 0) : (s.histZero u).rd a = s.rd a := by
  simp only [A.LFT_H_CTL] at low
  unfold State.histZero
  rw [State.rd_set_ne _ _ (show a ≠ A.LFT_H_COUNT u by simp only [A.LFT_H_COUNT]; omega),
    State.rd_set_ne _ _ (show a ≠ A.LFT_H_CTL u by simp only [A.LFT_H_CTL]; omega)]
  rfl

theorem State.rd_histAdd (u : Nat) (v : Int) {a : Nat} (low : a < A.LFT_H_CTL 0) : (s.histAdd u v).rd a = s.rd a := by
  simp only [A.LFT_H_CTL] at low
  have count : a ≠ (F.LFT_H_COUNT.COUNT u).addr := show a ≠ A.LFT_H_COUNT u by simp only [A.LFT_H_COUNT]; omega
  unfold State.histAdd
  dsimp only
  split
  · rw [State.rd_bump_ne _ (show a ≠ A.LFT_H_CTL u by simp only [A.LFT_H_CTL]; omega), State.rd_bump_ne _ count]
    rfl
  · rw [State.rd_bump_ne _ count]
    rfl

/-- A histogram unit takes a SIX: the ring's reach and the registers below the units' stay. -/
theorem State.histStep_leaves (u t : Nat) (v : Option Int) : (s.histStep u t v).lft.reach = s.lft.reach ∧
    ∀ a, a < A.LFT_H_CTL 0 → (s.histStep u t v).rd a = s.rd a := by
  obtain ⟨z, hz⟩ : ∃ z, z = if (s.hist u).clear.any (fun k => k ≤ t) then s.histZero u else s := ⟨_, rfl⟩
  have cleared : z.lft.reach = s.lft.reach ∧ ∀ a, a < A.LFT_H_CTL 0 → z.rd a = s.rd a := by
    rw [hz]
    split
    · exact ⟨s.reach_histZero u, fun a low => s.rd_histZero u low⟩
    · exact ⟨rfl, fun _ _ => rfl⟩
  have added : ∀ x : Int, ∀ active : Bool, (if active then z.histAdd u x else z).lft.reach = z.lft.reach ∧
      ∀ a, a < A.LFT_H_CTL 0 → (if active then z.histAdd u x else z).rd a = z.rd a := by
    intro x active
    split
    · exact ⟨z.reach_histAdd u x, fun a low => z.rd_histAdd u x low⟩
    · exact ⟨rfl, fun _ _ => rfl⟩
  unfold State.histStep
  dsimp only
  rw [← hz]
  constructor
  · rw [State.reach_histAttach, State.reach_setHist]
    split
    next x => exact (added x _).1.trans cleared.1
    next => exact cleared.1
  · intro a low
    refine (State.rd_congr rfl a).trans ?_
    split
    next x => exact ((added x _).2 a low).trans (cleared.2 a low)
    next => exact cleared.2 a low

theorem histGo_leaves (f u : Nat) : (histGo f u s).lft.reach = s.lft.reach ∧ ∀ a, a < A.LFT_H_CTL 0 → (histGo f u s).rd a = s.rd a := by
  induction f generalizing s with
  | zero => exact ⟨rfl, fun _ _ => rfl⟩
  | succ f ih =>
    unfold histGo
    split
    next v _ =>
      have step := s.histStep_leaves u (s.hist u).next v
      have rest := ih (s.histStep u (s.hist u).next v)
      exact ⟨rest.1.trans step.1, fun a low => (rest.2 a low).trans (step.2 a low)⟩
    next => exact ⟨rfl, fun _ _ => rfl⟩

theorem State.histsTo_leaves : s.histsTo.lft.reach = s.lft.reach ∧ ∀ a, a < A.LFT_H_CTL 0 → s.histsTo.rd a = s.rd a := by
  unfold State.histsTo
  exact ⟨foldl_keeps (fun t : State => t.lft.reach) (fun t u => (histGo_leaves t _ u).1) _ _,
    fun a low => foldl_keeps (fun t : State => t.rd a) (fun t u => (histGo_leaves t _ u).2 a low) _ _⟩

theorem State.histsTo_mem : s.histsTo.mem = s.mem := (State.histsTo_kept (.refl 524290 s) (.refl _)).parts .mem rfl

theorem cmpGo_next (f i : Nat) : (cmpGo f i s).lft.next = s.lft.next := by
  induction f generalizing s with
  | zero => rfl
  | succ f ih =>
    unfold cmpGo
    split
    · rw [ih, State.cmpStep, State.set_lft]
      rfl
    · rfl

theorem State.cmpTo_next (i t : Nat) : (s.cmpTo i t).lft.next = s.lft.next := by
  unfold State.cmpTo
  split
  · rfl
  · exact cmpGo_next s _ i

theorem State.lftSourceTo_lft (src i t : Nat) : (s.lftSourceTo src i t).lft = s.lft :=
  (State.lftSourceTo_kept (.refl 514 s) (.refl _)).parts .lft rfl

theorem State.lineSources_next (k : Nat) : (s.lineSources k).lft.next = s.lft.next := by
  unfold State.lineSources
  dsimp only
  refine (foldl_keeps (fun t : State => t.lft.next) (fun t i => ?_) _ _).trans (foldl_keeps (fun t : State => t.lft.next)
    (fun t i => t.cmpTo_next i k) _ _)
  split
  · rw [State.lftSourceTo_lft]
  · rfl

theorem State.lineSources_mem (k : Nat) : (s.lineSources k).mem = s.mem := (State.lineSources_kept (.refl 524802 s) (.refl _)).parts .mem rfl

theorem State.companion_lft (base size pos n : Nat) : (s.companion base size pos n).lft = s.lft := rfl

/-- A journal entry goes into the journal's bytes. -/
theorem State.pushJournal_leaves (e : JEntry) : (s.pushJournal e).lft.next = s.lft.next ∧
    ∀ sp x, Apart 0x3C0000000 (32 * journalMax) sp x → (s.pushJournal e).byteAt sp x = s.byteAt sp x := by
  have stored : ∀ sp x, Apart 0x3C0000000 (32 * journalMax) sp x →
      (s.companion 0x3C0000000 (32 * journalMax) (32 * s.lft.jpos) 32).byteAt sp x = s.byteAt sp x :=
    fun sp x apart => s.byteAt_companion (by simp only [journalMax]; omega) apart
  unfold State.pushJournal
  dsimp only
  split
  · exact ⟨by rw [State.raise_lft]; rfl, fun sp x apart => (State.byteAt_congr (State.raise_mem _ _) _ _).trans (stored sp x apart)⟩
  · exact ⟨rfl, stored⟩

theorem State.journal_leaves (k : Nat) : (s.journal k).lft.next = s.lft.next ∧
    ∀ sp x, Apart 0x3C0000000 (32 * journalMax) sp x → (s.journal k).byteAt sp x = s.byteAt sp x := by
  unfold State.journal
  dsimp only
  split
  · obtain ⟨next, bytes⟩ := State.pushJournal_leaves _ _
    exact ⟨next, bytes⟩
  · exact ⟨rfl, fun _ _ _ => rfl⟩

theorem journalGo_leaves (f : Nat) : (journalGo f s).lft.next = s.lft.next ∧
    ∀ sp x, Apart 0x3C0000000 (32 * journalMax) sp x → (journalGo f s).byteAt sp x = s.byteAt sp x := by
  induction f generalizing s with
  | zero => exact ⟨rfl, fun _ _ _ => rfl⟩
  | succ f ih =>
    unfold journalGo
    dsimp only
    split
    · obtain ⟨next, bytes⟩ := ih _
      obtain ⟨next', bytes'⟩ := (s.lineSources s.lft.jnext).journal_leaves s.lft.jnext
      exact ⟨next.trans (next'.trans (s.lineSources_next _)), fun sp x apart => (bytes sp x apart).trans ((bytes' sp x apart).trans
        (State.byteAt_congr (s.lineSources_mem _) sp x))⟩
    · exact ⟨s.lineSources_next _, fun sp x _ => State.byteAt_congr (s.lineSources_mem _) sp x⟩

end

/-! ### Lines -/

/-- The bytes of one channel in a ring line. -/
def State.lineCode (s : State) (k n : Nat) : List Byte :=
  match s.fast n k with
  | some x => leBytes 3 (if bit x.q 2 then 0 else unsigned 24 x.code)
  | none => leBytes 3 0

theorem State.lineCode_length (s : State) (k n : Nat) : (s.lineCode k n).length = 3 := by
  unfold State.lineCode
  split <;> exact leBytes_length _ _

theorem State.lineCodes_length (s : State) (k : Nat) (l : List Nat) : (l.map (s.lineCode k)).flatten.length = 3 * l.length := by
  induction l with
  | nil => rfl
  | cons n l ih => rw [List.map_cons, List.flatten_cons, List.length_append, ih, State.lineCode_length, List.length_cons]; omega

theorem State.lineBytes_length (s : State) (k : Nat) : (s.lineBytes k).length = 768 :=
  (s.lineCodes_length k (List.range 256)).trans (by rw [List.length_range])

/-- The state with the next ring line in its place, before the journal follows. -/
def State.lineStored (s : State) : State :=
  let t := s.storeBytes spDRAM (768 * (s.lft.next % ringDepth)) (s.lineBytes s.lft.next)
  { t with lft := { t.lft with next := s.lft.next + 1 } }

theorem State.lineStored_mem (s : State) : s.lineStored.mem =
    (s.storeBytes spDRAM (768 * (s.lft.next % ringDepth)) (s.lineBytes s.lft.next)).mem := rfl

theorem State.lineStored_next (s : State) : s.lineStored.lft.next = s.lft.next + 1 := rfl

theorem State.journalTo_leaves (s : State) : s.journalTo.lft.next = s.lft.next ∧
    ∀ sp x, Apart 0x3C0000000 (32 * journalMax) sp x → s.journalTo.byteAt sp x = s.byteAt sp x :=
  journalGo_leaves s _

/-- A ring line ends below the journal. -/
theorem ringLine_below (k : Nat) : 768 * (k % ringDepth) + 768 ≤ 0x300000000 := by
  have := Nat.mod_lt k (show 0 < ringDepth by decide)
  simp only [ringDepth] at this ⊢
  omega

/-- The next ring line of a running Loft (R253). -/
theorem ringLineWrite_spec {s : State} (runs : s.lftRuns = true) (due : s.lft.next ≤ s.six) (known : s.lineKnown s.lft.next = true) :
    ∃ t, exec .ringLineWrite s = .next t ∧ t.lft.next = s.lft.next + 1 ∧
      t.loadBytes spDRAM (768 * (s.lft.next % ringDepth)) 768 = s.lineBytes s.lft.next ∧ t.get64 A.LFT_RING_OLD = t.ringOld % 2 ^ 64 ∧
      ∀ sp x, Apart (768 * (s.lft.next % ringDepth)) 768 sp x → Apart 0x3C0000000 (32 * journalMax) sp x → t.byteAt sp x = s.byteAt sp x := by
  obtain ⟨u, hu⟩ : ∃ u, u = s.lineStored.journalTo := ⟨_, rfl⟩
  obtain ⟨next, bytes⟩ : u.lft.next = s.lft.next + 1 ∧
      ∀ sp x, Apart 0x3C0000000 (32 * journalMax) sp x → u.byteAt sp x = s.lineStored.byteAt sp x := by
    rw [hu, s.lineStored.journalTo_leaves.1]
    exact ⟨s.lineStored_next, s.lineStored.journalTo_leaves.2⟩
  obtain ⟨v, hv⟩ : ∃ v, v = u.set64 A.LFT_RING_OLD u.ringOld := ⟨_, rfl⟩
  have ran : exec .ringLineWrite s = .next v.histsTo := by
    rw [hv, hu]
    exact if_pos ⟨runs, due, known⟩
  have reach : v.histsTo.lft.reach = u.lft.reach := by rw [v.histsTo_leaves.1, hv, State.set64_lft]
  have mem : v.histsTo.mem = u.mem := by rw [State.histsTo_mem, hv, State.set64_mem]
  have place := ringLine_below s.lft.next
  refine ⟨v.histsTo, ran, (LftSt.next_of_reach reach).trans next, ?_, ?_, fun sp x line journal => ?_⟩
  · have stored := s.loadBytes_storeBytes spDRAM (768 * (s.lft.next % ringDepth)) (s.lineBytes s.lft.next)
    rw [State.lineBytes_length] at stored
    refine Eq.trans (State.loadBytes_congr fun i inside => ?_) stored
    have below : Apart 0x3C0000000 (32 * journalMax) spDRAM (768 * (s.lft.next % ringDepth) + i) := fun both => by omega
    rw [State.byteAt_congr mem, bytes _ _ below, State.byteAt_congr s.lineStored_mem]
  · have old : v.get64 A.LFT_RING_OLD = u.ringOld % 2 ^ 64 := by rw [hv, State.get64_set64]
    unfold State.get64 at old ⊢
    rw [v.histsTo_leaves.2 _ (by decide), v.histsTo_leaves.2 _ (by decide), old, State.ringOld_congr reach]
  · rw [State.byteAt_congr mem, bytes sp x journal]
    rw [State.byteAt_congr s.lineStored_mem]
    refine State.byteAt_storeBytes_outside s fun inside => line ?_
    rwa [State.lineBytes_length] at inside

/-- The next slow line (R255). -/
theorem slowRingLine_spec {s : State} (runs : s.lftRuns = true) (come : s.lft.slowNext ≤ s.six)
    (released : s.lft.slowNext = s.six → s.outputsOpen = false)
    (known : ∀ j, j < 256 → (s.slowAt j (s.lft.slowNext - 1)).isSome = true) :
    ∃ t, exec .slowRingLine s = .next t ∧ t.lft.slow.head?.map (fun l => (l.b, l.vals)) =
        some (s.lft.slowNext, (List.range 256).map (fun j => (s.slowAt j (s.lft.slowNext - 1)).getD (0, 0))) ∧
      t.lft.slow.tail = s.lft.slow.take (slowMax - 1) ∧ t.lft.slowNext = s.lft.slowNext + 100 ∧ t.regs = s.regs ∧
      ∀ sp x, Apart 0x390000000 (4096 * slowMax) sp x → t.byteAt sp x = s.byteAt sp x := by
  have due : s.slowDue s.lft.slowNext = true := by
    have waits : (s.lft.slowNext == s.six && s.outputsOpen) = false := by
      by_cases at_six : s.lft.slowNext = s.six
      · simp [released at_six]
      · simp [at_six]
    have all : (List.range 256).all (fun j => (s.slowAt j (s.lft.slowNext - 1)).isSome) = true :=
      List.all_eq_true.mpr fun j hj => known j (List.mem_range.mp hj)
    unfold State.slowDue
    rw [runs, decide_eq_true come, waits, all]
    rfl
  refine ⟨_, if_pos due, ?_, rfl, rfl, rfl, fun sp x apart =>
    (State.byteAt_congr rfl sp x).trans (s.byteAt_companion (by simp only [slowMax]; omega) apart)⟩
  refine congrArg some (congrArg (Prod.mk s.lft.slowNext) (List.map_congr_left fun j hj => ?_))
  obtain ⟨v, hv⟩ := Option.isSome_iff_exists.mp (known j (List.mem_range.mp hj))
  rw [hv]
  rfl

/-- Settles O46: the ring line by `ringLineWrite_spec`, the slow line by `slowRingLine_spec`. -/
theorem ringLines : Obligations.RingLines := fun _ => ⟨ringLineWrite_spec, slowRingLine_spec⟩

end Sys2Proof.Machine
end

section
/-!
PROOFS. Votes, trip driver outputs and the STEM capture buffer (R123 to R127, R133).
-/
namespace Sys2Proof.Machine
open Sys2Proof

/-! ### Groups (R125, R126) -/

theorem State.group_setGroup_same (s : State) (g : Nat) (x : GroupSt) : (s.setGroup g x).group g = x := kvGet_put_same _ _ _ _

/-- Groups are read from the interjection unit's part alone. -/
theorem State.group_congr {s t : State} (h : t.inj = s.inj) (g : Nat) : t.group g = s.group g := by unfold State.group; rw [h]

section
variable (s : State) (g : Nat)

/-- A vote that is sent leaves the pickups and the votes received, and writes the group's status alone. -/
theorem State.sendVote_leaves (st k : Nat) : ((s.sendVote g st k).group g).pickups = (s.group g).pickups ∧
    ∀ a, a ≠ A.INJ_G_STAT g → (s.sendVote g st k).rd a = s.rd a := by
  have step : ∀ (t : State) p, (if t.portSends (40 + p) then t.sendWord (40 + p) 25 (t.voteWord g) else t).inj = t.inj ∧
      ∀ a, (if t.portSends (40 + p) then t.sendWord (40 + p) 25 (t.voteWord g) else t).rd a = t.rd a := by
    intro t p
    split <;> exact ⟨rfl, fun _ => rfl⟩
  unfold State.sendVote
  dsimp only
  constructor
  · rw [State.group_congr (foldl_keeps State.inj (fun t p => (step t p).1) _ _), State.group_congr (State.set_inj _ _ _),
      State.group_setGroup_same]
  · intro a h
    rw [foldl_keeps (fun t : State => t.rd a) (fun t p => (step t p).2 a) _ _, State.rd_set_ne _ _ h]
    rfl

/-- A group that holds no pickup holds none after its reset; only its status is written. -/
theorem State.groupReset_leaves : ((s.groupReset g).group g).pickups = (s.group g).pickups ∧
    ∀ a, a ≠ A.INJ_G_STAT g → (s.groupReset g).rd a = s.rd a := by
  unfold State.groupReset
  dsimp only
  split
  · obtain ⟨pickups, regs⟩ := (s.setGroup g { s.group g with owners := [] }).sendVote_leaves g 0 s.six
    constructor
    · rw [State.group_congr (State.set_inj _ _ _), pickups, State.group_setGroup_same]
    · intro a h
      rw [State.rd_set_ne _ _ h, regs a h]
      rfl
  · exact ⟨rfl, fun _ _ => rfl⟩

end

/-- The only pickup of a group drops. -/
theorem State.dropPickup_only {s : State} {g : Nat} {e : Pickup} (only : (s.group g).pickups = [e]) :
    ((s.dropPickup g e).group g).pickups = [] ∧ (s.dropPickup g e).flag (F.INJ_R_STAT.PICKUP e.rule) = false := by
  have none_left : (s.group g).pickups.filter (fun v => v != e) = [] := by simp [only]
  unfold State.dropPickup
  dsimp only
  rw [none_left, if_neg (by simp)]
  constructor
  · rw [State.group_congr (State.set_inj _ _ _), State.group_setGroup_same]
  · unfold State.flag
    rw [State.get_set_same _ _ _ (by simp [F.INJ_R_STAT.PICKUP])]
    rfl

/-- A pickup whose wait has ended drops (R126). -/
theorem pickupExpired_spec {s : State} {g : Fin 16} {e : Pickup} (only : (s.group g).pickups = [e]) (rule : e.rule < 128)
    (over_ : e.six + s.get (F.INJ_G_WIN.VWAIT g) ≤ s.six) : ∃ t, exec (.pickupExpired g) s = .next t ∧ (t.group g).pickups = [] ∧
      t.flag (F.INJ_R_STAT.PICKUP e.rule) = false := by
  have due : (s.group g).pickups.filter (fun u => decide (u.six + s.get (F.INJ_G_WIN.VWAIT g) ≤ s.six)) = [e] := by simp [only, over_]
  have ran : exec (.pickupExpired g) s = .next ((s.dropPickup g e).groupReset g) := by
    show execPickupExpired g s = _
    unfold execPickupExpired
    dsimp only
    rw [due, if_neg (by simp)]
    rfl
  obtain ⟨gone, low⟩ := State.dropPickup_only only
  obtain ⟨pickups, regs⟩ := (s.dropPickup g e).groupReset_leaves g
  refine ⟨_, ran, pickups.trans gone, ?_⟩
  rw [State.flag_congr (regs (A.INJ_R_STAT e.rule) (by simp only [A.INJ_R_STAT, A.INJ_G_STAT]; omega)), low]

/-- A vote for a group without pickups is its newest vote (R81, R126). -/
theorem voteReceived_spec {s : State} {p : Fin 4} {wire : BitVec 6} {six : BitVec 16} {vs : BitVec 3} {g : Fin 16}
    (found : (List.range 16).find? (fun i => s.flag (F.INJ_G_CFG.EN i) && s.get (F.INJ_G_CFG.WIRE i) == wire.toNat) = some g.val)
    (run : s.portState (40 + p) = pRUN) (listens : bit (s.get (F.INJ_G_CFG.PEERMASK g)) p = true) (noVotes : (s.group g).votes = [])
    (noPickups : (s.group g).pickups = []) (noPicks : (s.group g).picks = []) :
    ∃ t, exec (.voteReceived p wire 1 six vs) s = .next t ∧
      (t.group g).votes = [⟨p, 1, s.translate16 (40 + p) six.toNat, s.six, vs.toNat⟩] := by
  obtain ⟨u, hu⟩ : ∃ u, u = s.setGroup g { s.group g with
    picks := [], votes := [⟨p, 1, s.translate16 (40 + p) six.toNat, s.six, vs.toNat⟩] } := ⟨_, rfl⟩
  have group : u.group g = { s.group g with picks := [], votes := [⟨p, 1, s.translate16 (40 + p) six.toNat, s.six, vs.toNat⟩] } := by
    rw [hu, State.group_setGroup_same]
  have idle : u.groupTry g = u := by
    unfold State.groupTry
    rw [group, noPickups]
    rfl
  refine ⟨u, ?_, by rw [group]⟩
  show execVoteReceived p wire 1 six vs s = _
  unfold execVoteReceived
  rw [found]
  dsimp only
  rw [if_neg (by simp [run, listens]), noVotes, noPicks]
  simp only [List.any_nil, List.filter_nil, Bool.false_eq_true, if_false]
  exact congrArg Host.Outcome.next ((congrArg (fun t : State => t.groupTry g) hu.symm).trans idle)

/-! ### Trip driver outputs (R123, R124) -/

/-- A quiet SIX is found at or past the first one searched, and no driving rule is true there. -/
theorem State.tdoQuiet_spec {s : State} {n f b j : Nat} (h : s.tdoQuiet n f b = some j) :
    b ≤ j ∧ ∀ i, i ∈ (s.tdo n).rules → s.ruleAt i j = false := by
  induction f generalizing b with
  | zero => simp [State.tdoQuiet] at h
  | succ f ih =>
    unfold State.tdoQuiet at h
    split at h
    · obtain ⟨after, quiet⟩ := ih h
      exact ⟨by omega, quiet⟩
    next silent =>
      obtain rfl : b = j := Option.some.inj h
      exact ⟨le_rfl, by simpa using silent⟩

theorem State.tdoFalls_spec {s : State} {n j : Nat} (h : s.tdoFalls n = some j) : ∃ d, (s.tdo n).latest = some d ∧
    d + s.get (F.INJ_T_CFG.TMIN n) * 100 ≤ j ∧ ∀ i, i ∈ (s.tdo n).rules → s.ruleAt i j = false := by
  unfold State.tdoFalls at h
  split at h
  next d latest =>
    obtain ⟨after, quiet⟩ := State.tdoQuiet_spec h
    have past : d + s.get (F.INJ_T_CFG.TMIN n) * 100 ≤ j := le_trans (le_max_left _ _) after
    exact ⟨d, latest, past, quiet⟩
  next => exact absurd h (by simp)

/-- A TDO that goes off drives nothing and is not latched. -/
theorem State.tdoOff_shows (s : State) (n : Fin 8) (k : Nat) : (s.tdoOff n k).flag (bitField A.INJ_TDO n) = false ∧
    (s.tdoOff n k).flag (F.INJ_T_STAT.CMD n) = false ∧ (s.tdoOff n k).flag (F.INJ_T_STAT.LATCHED n) = false := by
  have stat : A.INJ_T_STAT n ≠ A.INJ_TDO := by simp only [A.INJ_T_STAT, A.INJ_TDO]; omega
  unfold State.tdoOff State.flag
  dsimp only
  refine ⟨?_, ?_, ?_⟩
  · rw [State.get_set_ne _ _ (show A.INJ_TDO ≠ A.INJ_T_STAT n from stat.symm), State.get_set_ne _ _ (show A.INJ_TDO ≠ A.INJ_T_STAT n from stat.symm),
      State.get_set_apart _ _ (show 16 + n.val + 1 ≤ 32 by omega) (.inl (show n.val + 1 ≤ 16 + n.val by omega)),
      State.get_set_same _ _ _ (show n.val + 1 ≤ 32 by omega)]
    rfl
  · rw [State.get_set_apart _ _ (by simp [F.INJ_T_STAT.LATCHED]) (by simp [F.INJ_T_STAT.LATCHED, F.INJ_T_STAT.CMD]),
      State.get_set_same _ _ _ (by simp [F.INJ_T_STAT.CMD])]
    rfl
  · rw [State.get_set_same _ _ _ (by simp [F.INJ_T_STAT.LATCHED])]
    rfl

section
variable {s : State} {n : Fin 8}

/-- A TDO that falls without LATCH goes off. -/
theorem tdoRelease_off {k : Nat} (on : s.flag (F.INJ_T_STAT.CMD n) = true) (falls : s.tdoFalls n = some k)
    (noLatch : s.flag (F.INJ_T_CFG.LATCH n) = false) : ∃ t, exec (.tdoRelease n) s = .next t ∧ t.flag (bitField A.INJ_TDO n) = false ∧
      t.flag (F.INJ_T_STAT.CMD n) = false := by
  have ran : exec (.tdoRelease n) s = .next (s.tdoOff n (if (s.tdo n).rstReq then s.six else k)) := by
    show execTdoRelease n s = _
    unfold execTdoRelease
    rw [falls]
    dsimp only
    rw [if_pos on, if_neg (by simp [noLatch])]
  obtain ⟨off, cmd, -⟩ := s.tdoOff_shows n (if (s.tdo n).rstReq then s.six else k)
  exact ⟨_, ran, off, cmd⟩

/-- Under LATCH a TDO that falls is LATCHED until its reset kick. -/
theorem tdoRelease_latched {k : Nat} (on : s.flag (F.INJ_T_STAT.CMD n) = true) (falls : s.tdoFalls n = some k)
    (latch : s.flag (F.INJ_T_CFG.LATCH n) = true) (noKick : (s.tdo n).rstReq = false) : ∃ t, exec (.tdoRelease n) s = .next t ∧
      t.flag (F.INJ_T_STAT.LATCHED n) = true ∧ t.flag (F.INJ_T_STAT.CMD n) = true := by
  have stat : A.INJ_T_STAT n ≠ A.INJ_TDO := by simp only [A.INJ_T_STAT, A.INJ_TDO]; omega
  have ran : exec (.tdoRelease n) s = .next ((s.set (bitField A.INJ_TDO (16 + n)) 1).set (F.INJ_T_STAT.LATCHED n) 1) := by
    show execTdoRelease n s = _
    unfold execTdoRelease
    rw [falls]
    dsimp only
    rw [if_pos on, if_pos ⟨latch, by simp [noKick]⟩]
  refine ⟨_, ran, State.flag_set_one _ _ (by simp [F.INJ_T_STAT.LATCHED]) rfl, ?_⟩
  rw [← on]
  unfold State.flag
  rw [State.get_set_apart _ _ (by simp [F.INJ_T_STAT.LATCHED]) (by simp [F.INJ_T_STAT.LATCHED, F.INJ_T_STAT.CMD]),
    State.get_set_ne _ _ (show A.INJ_T_STAT n ≠ A.INJ_TDO from stat)]

/-- One kicked output is one bit of the mask. -/
theorem maskBits_pow (n : Fin 8) : maskBits 8 (2 ^ n.val) = [n.val] := by revert n; decide

/-- A reset kick lets a latched TDO that nothing drives go off. -/
theorem injTdoRst_spec {pf : Fin 2} {w : Word} (may : s.permits pf A.INJ_TDO_RST w (some 0)) (mask : fieldOf w 0 8 = 2 ^ n.val)
    (latched : s.flag (F.INJ_T_STAT.LATCHED n) = true) (idle : s.tdoDriven n = false) : ∃ t, exec (.injTdoRst pf w) s = .next t ∧
      t.flag (F.INJ_T_STAT.LATCHED n) = false ∧ t.flag (F.INJ_T_STAT.CMD n) = false := by
  obtain ⟨t, ht⟩ : ∃ t, t = s.checked pf A.INJ_TDO_RST w (some 0) := ⟨_, rfl⟩
  have still : t.flag (F.INJ_T_STAT.LATCHED n) = true := by
    rw [ht, State.flag_congr (State.rd_checked _ _ _ _ _ (show A.ENG_EVT < A.INJ_T_STAT n % 0x1000000 by
      simp only [A.ENG_EVT, A.INJ_T_STAT]; omega) (show A.INJ_T_STAT n ≠ A.CEL_DROP by simp only [A.INJ_T_STAT, A.CEL_DROP]; omega)
      (show A.INJ_T_STAT n ≠ A.CEL_EVT by simp only [A.INJ_T_STAT, A.CEL_EVT]; omega)), latched]
  obtain ⟨u, hu⟩ : ∃ u, u = t.setTdo n { t.tdo n with rstReq := true } := ⟨_, rfl⟩
  have quiet : u.tdoDriven n = false := by
    have inj : t.inj = s.inj := by rw [ht, State.checked_inj]
    have rules : (u.tdo n).rules = (s.tdo n).rules := by
      rw [hu, State.tdo, State.setTdo]
      dsimp only
      rw [kvGet_put_same, State.tdo, inj]
      rfl
    have same : ∀ r, u.rule r = s.rule r := by
      intro r
      rw [hu, State.rule, State.setTdo]
      dsimp only
      rw [inj]
      rfl
    rw [← idle]
    unfold State.tdoDriven
    rw [rules]
    simp only [same]
  have ran : exec (.injTdoRst pf w) s = .next (u.tdoOff n u.six) := by
    show execInjTdoRst pf w s = _
    unfold execInjTdoRst
    rw [whenAllowed_acts s pf _ w (some 0) may rfl]
    dsimp only
    rw [← ht, mask, maskBits_pow]
    simp only [List.any_cons, List.any_nil, List.foldl_cons, List.foldl_nil, still, if_true, Bool.not_true, Bool.or_false,
      Bool.false_eq_true, if_false]
    exact congrArg Host.Outcome.next (by unfold State.tdoReset; rw [← hu, if_neg (by rw [quiet]; decide)])
  obtain ⟨-, cmd, unlatched⟩ := u.tdoOff_shows n u.six
  exact ⟨_, ran, unlatched, cmd⟩

/-- A readback that disagrees for RB_T samples while the output is driven (R124). -/
theorem tdoFail_spec (on : s.flag (F.INJ_T_STAT.CMD n) = true) (enabled : s.flag (F.INJ_T_CFG.RB_EN n) = true)
    (long : s.get (F.INJ_T_CFG.RB_T n) ≤ (s.tdo n).misRun) (first : s.flag (F.INJ_T_STAT.FAIL_ON n) = false) :
    ∃ t, exec (.tdoFail n) s = .next t ∧ t.flag (F.INJ_T_STAT.FAIL_ON n) = true ∧ t.flag F.INJ_EVT.TDO_FAIL = true := by
  have ran : exec (.tdoFail n) s = .next (((s.set (F.INJ_T_STAT.FAIL_ON n) 1).raise F.INJ_EVT.TDO_FAIL).logNamedSev "TDO_FAIL" 3
      (leBytes 1 n ++ leBytes 1 (b2n true))) := by
    show execTdoFail n s = _
    unfold execTdoFail
    dsimp only
    rw [on, if_pos rfl, if_pos ⟨enabled, long, by rw [first]; rfl⟩]
  refine ⟨_, ran, ?_, ?_⟩
  · rw [State.flag_congr (State.rd_logNamedSev _ _ _ _ (show A.INJ_T_STAT n ≠ A.CEL_DROP by simp only [A.INJ_T_STAT, A.CEL_DROP]; omega)
      (show A.INJ_T_STAT n ≠ A.CEL_EVT by simp only [A.INJ_T_STAT, A.CEL_EVT]; omega)),
      State.flag_congr (State.rd_raise_ne _ (show A.INJ_T_STAT n ≠ A.INJ_EVT by simp only [A.INJ_T_STAT, A.INJ_EVT]; omega))]
    exact State.flag_set_one _ _ (by simp [F.INJ_T_STAT.FAIL_ON]) rfl
  · rw [State.flag_congr (State.rd_logNamedSev _ _ _ _ (show A.INJ_EVT ≠ A.CEL_DROP by decide) (show A.INJ_EVT ≠ A.CEL_EVT by decide))]
    exact State.flag_raise _ _ (by decide) rfl

/-- A readback that agrees for RB_T samples. -/
theorem tdoFailClear_spec (long : s.get (F.INJ_T_CFG.RB_T n) ≤ (s.tdo n).matchRun) : ∃ t, exec (.tdoFailClear n) s = .next t ∧
    t.flag (F.INJ_T_STAT.FAIL_ON n) = false ∧ t.flag (F.INJ_T_STAT.FAIL_OFF n) = false := by
  refine ⟨_, if_pos long, ?_, ?_⟩
  · unfold State.flag
    rw [State.get_set_apart _ _ (by simp [F.INJ_T_STAT.FAIL_OFF]) (by simp [F.INJ_T_STAT.FAIL_OFF, F.INJ_T_STAT.FAIL_ON]),
      State.get_set_same _ _ _ (by simp [F.INJ_T_STAT.FAIL_ON])]
    rfl
  · unfold State.flag
    rw [State.get_set_same _ _ _ (by simp [F.INJ_T_STAT.FAIL_OFF])]
    rfl

/-! ### The STEM capture buffer (R133) -/

/-- A buffer whose POST samples are written freezes. -/
theorem scapFrozen_spec (state : s.get F.INJ_SCAP_CTL.STATE = 2) (done : s.inj.scapLeft = 0) : ∃ t, exec .scapFrozen s = .next t ∧
    t.get F.INJ_SCAP_CTL.STATE = 3 ∧ t.get64 A.INJ_SCAP_SIX = s.inj.scapDec % 2 ^ 64 ∧ t.flag F.INJ_EVT.SCAP_FROZEN = true := by
  refine ⟨_, if_pos ⟨state, done⟩, ?_, ?_, State.flag_raise _ _ (by decide) rfl⟩
  · rw [State.get_congr (State.rd_raise_ne _ (show A.INJ_SCAP_CTL ≠ A.INJ_EVT by decide)),
      State.get_congr (State.rd_set64_ne _ _ (show A.INJ_SCAP_CTL ≠ A.INJ_SCAP_SIX by decide) (show A.INJ_SCAP_CTL ≠ A.INJ_SCAP_SIX + 4 by decide)),
      State.get_set_same _ _ _ (by decide)]
    rfl
  · rw [State.get64_raise_ne _ _ (by decide) (by decide), State.get64_set64]

/-- The rearmed buffer is empty, and writes where the unit is armed. -/
theorem State.scapRearm_shows (s : State) : s.scapRearm.inj.scap = [] ∧ s.scapRearm.get F.INJ_SCAP_CTL.STATE = s.get F.INJ_STATUS.ARMED % 2 := by
  have bound : s.get F.INJ_STATUS.ARMED < 2 := fieldOf_lt _ _ _
  unfold State.scapRearm
  rw [State.set_inj, State.get_set_same _ _ _ (by decide)]
  refine ⟨rfl, ?_⟩
  unfold State.flag
  interval_cases s.get F.INJ_STATUS.ARMED <;> rfl

/-- SCAP_REARM empties the buffer. -/
theorem scapRearm_spec {pf : Fin 2} {w : Word} (may : s.permits pf A.INJ_SCAP_CTL w (some 0)) (kick : bit w.toNat 2 = true) :
    ∃ t, exec (.scapRearm pf w) s = .next t ∧ t.inj.scap = [] ∧ t.get F.INJ_SCAP_CTL.STATE = s.get F.INJ_STATUS.ARMED % 2 := by
  obtain ⟨empty, state⟩ := (s.checked pf A.INJ_SCAP_CTL w (some 0)).scapRearm_shows
  refine ⟨_, congrArg Host.Outcome.next ((whenAllowed_acts s pf _ w (some 0) may rfl).trans (if_pos kick)), empty, state.trans ?_⟩
  rw [State.get_congr (State.rd_checked _ _ _ _ _ (show A.ENG_EVT < A.INJ_STATUS % 0x1000000 by decide) (show A.INJ_STATUS ≠ A.CEL_DROP by decide)
    (show A.INJ_STATUS ≠ A.CEL_EVT by decide))]

end

/-- Settles O36: each command by its rule above. -/
theorem votesAndTripOutputs : Obligations.VotesAndTripOutputs := by
  intro s p wire six vs g n pf w k e x y vote
  exact ⟨fun found run listens votes pickups picks => voteReceived_spec found run listens votes pickups picks, pickupExpired_spec,
    fun _ => State.tdoFalls_spec, fun on falls => ⟨tdoRelease_off on falls, tdoRelease_latched on falls⟩, injTdoRst_spec, tdoFail_spec,
    tdoFailClear_spec, scapFrozen_spec, scapRearm_spec⟩

end Sys2Proof.Machine
end

section
/-!
PROOFS. Releases (R181 to R183), on a state whose running cycle is kept under a key that is not its own.
-/
namespace Sys2Proof.Machine
open Sys2Proof

/-- A cyclic task of priority 0, released every 100 samples. -/
def urgentTask : Task := ⟨0, false, 0, 1, 0, ⟨false, [], [], [], []⟩, 0, 0, 0, [], [], [], 0⟩

/-- The partition of the task. -/
def urgentPart : Partition := ⟨0, [], [], [], [], [], [], [urgentTask], [], [], [], [], [], [], [], [], none, 0, 0, 0⟩

/-- A running cycle of TID 0 and priority 9, released at SIX 0. -/
def misplacedCycle : Cycle :=
  { tid := 0, part := 0, lane := 0, kind := 0, status := 1, rel := 0, period := 50, prio := 9, fmask := 0, event := false, overrun := false
    unclean := false, regs := [], flg := 0, nb := 0, pc := 0, lim := none, frames := [], loops := [], img := ⟨[], [], 0, [], false⟩, ost := []
    shst := [], gset := [], evr := [], notes := [], drops := 0, journal := [], exec := 0, ended := 0 }

/-- Lane 0 serves the partition and runs the misplaced cycle, which is kept under key 5; the task is due at SIX 100. -/
def misplacedState : State :=
  ({ State.reset with
      clk := { State.reset.clk with six := 100 }
      lanes := [(0, ⟨some urgentPart, some 5, 0⟩)]
      tsk := { State.reset.tsk with up := true, prog := some ⟨[urgentPart], 0⟩, cyc := [(5, some misplacedCycle)] } } : State).set
    (F.LNE_L_STATE.ROLE 0) 1

/-- The state meets what the statement asks of a release. -/
theorem misplacedState_due : misplacedState.task 0 = some urgentTask ∧ misplacedState.cycleDue urgentTask = true ∧
    misplacedState.mayRelease urgentTask = true ∧ misplacedState.inTakeover (misplacedState.partNo 0) = false ∧
    misplacedState.serviceLane (misplacedState.partNo 0) = some 0 ∧ misplacedState.shadowHas 0 = false := by
  decide +kernel

/-- The release pre-empts the running cycle, which goes under its own key, that of the cycle just released. -/
theorem cycleRelease_misplacedState : seen (exec (.cycleRelease 0) misplacedState) (fun u => (u.cycle 0).map Cycle.rel) = some (some 0) ∧
    misplacedState.six = 100 := by
  decide +kernel

/-- Refutes O38: the statement asks nothing of the keys under which cycles are kept. Where lane 0 runs a cycle of task 0 that is kept under
key 5, the release of task 0 pre-empts it, and the pre-empted cycle (released at SIX 0) replaces the one released now. -/
theorem not_taskReleases : ¬ Obligations.TaskReleases := by
  intro holds
  obtain ⟨release, -⟩ := holds misplacedState 0 0 0 0 0 urgentTask misplacedCycle ⟨0, 0, 0, 0, 0⟩ 0 0 0
  obtain ⟨task, due, may, noTakeover, lane, noShadow⟩ := misplacedState_due
  obtain ⟨old, six⟩ := cycleRelease_misplacedState
  obtain ⟨u, ran, -, d, there, rel, -⟩ := release task due may noTakeover lane noShadow
  have kept : (u.cycle 0).map Cycle.rel = some 0 := read_of_seen old ran
  rw [show u.cycle 0 = some d from there, Option.map_some, rel, six] at kept
  exact absurd kept (by decide)

end Sys2Proof.Machine
end

section
/-!
PROOFS. Lane failure, takeover and the Pantry's snapshots (R196 to R201).
-/
namespace Sys2Proof.Machine
open Sys2Proof

/-! ### Registers that the engine's units write -/

section
variable (s : State) {a : Nat}

/-- An event leaves the other fields of its register. -/
theorem State.get_raise_apart {f g : Field} (h : f.lo + f.width ≤ 32) (d : g.lo + g.width ≤ f.lo ∨ f.lo + f.width ≤ g.lo) :
    (s.raise f).get g = s.get g :=
  (State.get_congr (State.rd_congr (s.raise_regs f) _)).trans (s.get_set_apart _ h d)

theorem State.get_raise_ne {f g : Field} (h : g.addr ≠ f.addr) : (s.raise f).get g = s.get g := State.get_congr (s.rd_raise_ne h)

theorem State.rd_laneCounts (h : a ≠ A.LNE_STATUS) : s.laneCounts.rd a = s.rd a := by
  unfold State.laneCounts
  rw [State.rd_set_ne _ _ h, State.rd_set_ne _ _ h, State.rd_set_ne _ _ h]

theorem State.rd_setRole (n r : Nat) (h : a ≠ A.LNE_L_STATE n) (g : a ≠ A.LNE_STATUS) : (s.setRole n r).rd a = s.rd a := by
  unfold State.setRole
  rw [State.rd_laneCounts _ g, State.rd_set_ne _ _ h]

theorem State.rd_spareAct (v : Nat) (h : a ≠ A.LNE_STATUS) : (s.spareAct v).rd a = s.rd a := s.rd_set_ne _ h

theorem State.rd_dmaShow (c st : Nat) (h : a ≠ A.DMA_C_STAT c) (g : a ≠ A.DMA_EVT) : (s.dmaShow c st).rd a = s.rd a := by
  unfold State.dmaShow
  dsimp only
  split
  · rw [State.rd_raise_ne _ g, State.rd_set_ne _ _ h]
  · rw [State.rd_set_ne _ _ h]

theorem State.rd_spareIdle (h : a ≠ A.LNE_STATUS) : s.spareIdle.rd a = s.rd a := by
  unfold State.spareIdle
  rw [State.rd_spareAct _ _ h]
  rfl

/-- The end of a replay writes nothing below the tasks' registers but LNE_STATUS. -/
theorem State.rd_rplAbort (low : a < A.TSK_T_STAT 0) (h : a ≠ A.LNE_STATUS) : s.rplAbort.rd a = s.rd a := by
  simp only [A.TSK_T_STAT] at low
  unfold State.rplAbort
  split
  · rfl
  · rw [State.rd_logNamed _ _ _ (by simp only [A.CEL_DROP]; omega) (by simp only [A.CEL_EVT]; omega),
      State.rd_set_ne _ _ (show a ≠ A.OLC_STATUS by simp only [A.OLC_STATUS]; omega), State.rd_spareIdle _ h]
    rfl

/-- So does the end of a code replacement. -/
theorem State.rd_chgAbort (low : a < A.TSK_T_STAT 0) (h : a ≠ A.LNE_STATUS) : s.chgAbort.rd a = s.rd a := by
  simp only [A.TSK_T_STAT] at low
  obtain ⟨u, hu⟩ : ∃ u, u = if s.olc.phase = 1 then s else s.spareIdle := ⟨_, rfl⟩
  have idle : u.rd a = s.rd a := by
    rw [hu]
    split
    · rfl
    · exact s.rd_spareIdle h
  obtain ⟨v, hv⟩ : ∃ v, v = if u.olc.phase ≤ 2 then (u.dmaShow 2 0).set (F.DMA_C_CTL.OWNER 2) 7 else u := ⟨_, rfl⟩
  have owner : v.rd a = u.rd a := by
    rw [hv]
    split
    · rw [State.rd_set_ne _ _ (show a ≠ A.DMA_C_CTL 2 by simp only [A.DMA_C_CTL]; omega),
        State.rd_dmaShow _ _ _ (by simp only [A.DMA_C_STAT]; omega) (by simp only [A.DMA_EVT]; omega)]
    · rfl
  unfold State.chgAbort
  split
  · rfl
  · dsimp only
    rw [← hu, ← hv, State.rd_logNamed _ _ _ (by simp only [A.CEL_DROP]; omega) (by simp only [A.CEL_EVT]; omega),
      State.rd_raise_ne _ (show a ≠ A.OLC_EVT by simp only [A.OLC_EVT]; omega),
      State.rd_set_ne _ _ (show a ≠ A.OLC_STATUS by simp only [A.OLC_STATUS]; omega)]
    exact (State.rd_congr rfl a).trans (owner.trans idle)

theorem State.rd_loseCycle (c : Cycle) (low : a < A.TSK_T_STAT 0) : (s.loseCycle c).rd a = s.rd a := by
  simp only [A.TSK_T_STAT] at low
  have stat : a ≠ A.TSK_T_STAT c.tid := by simp only [A.TSK_T_STAT]; omega
  unfold State.loseCycle
  dsimp only
  rw [State.putCyc, State.rd_setCycle, State.rd_set_ne _ _ stat, State.rd_set_ne _ _ stat, State.rd_set_ne _ _ stat, State.rd_set_ne _ _ stat,
    State.rd_set_ne _ _ stat, State.rd_set_ne _ _ stat, State.rd_bump_ne _ (show a ≠ A.TSK_T_UNCLEAN c.tid by simp only [A.TSK_T_UNCLEAN]; omega),
    State.rd_bump_ne _ (show a ≠ A.TSK_T_CNT c.tid by simp only [A.TSK_T_CNT]; omega)]

theorem State.rd_losePart (p : Nat) (low : a < A.TSK_T_STAT 0) : (s.losePart p).2.rd a = s.rd a := by
  unfold State.losePart
  dsimp only
  refine (foldl_keeps (fun t : State => t.rd a) (fun t k => State.rd_set_ne _ _ ?_) _ _).trans
    (foldl_keeps (fun t : State => t.rd a) (fun t c => t.rd_loseCycle c low) _ _)
  simp only [A.TSK_T_STAT, F.TSK_T_STAT.HELD] at low ⊢
  omega

/-- The lane's exception record lies beside the lanes' states. -/
theorem State.rd_laneRecord (n cause : Nat) (low : a < A.TSK_T_STAT 0) (h : a < A.LNE_L_EXC 0 ∨ a % 64 = 0) :
    (s.laneRecord n cause).rd a = s.rd a := by
  simp only [A.TSK_T_STAT, A.LNE_L_EXC] at low h
  have exc : a ≠ A.LNE_L_EXC n := by simp only [A.LNE_L_EXC]; omega
  unfold State.laneRecord
  dsimp only
  rw [State.rd_logNamed _ _ _ (by simp only [A.CEL_DROP]; omega) (by simp only [A.CEL_EVT]; omega)]
  have record : ∀ (pc rel tid : Nat), ((((((s.set (F.LNE_L_EXC.CODE n) (laneExc cause).1).set (F.LNE_L_EXC.TID n) tid).set (F.LNE_L_EXC.DETAIL n)
      (laneExc cause).2).set (F.LNE_L_EXC_PC.PC n) pc).set64 (A.LNE_L_EXC_SIX n) rel).bump (F.LNE_L_EXC_CNT.EXC n)).rd a = s.rd a := by
    intro pc rel tid
    rw [State.rd_bump_ne _ (show a ≠ A.LNE_L_EXC_CNT n by simp only [A.LNE_L_EXC_CNT]; omega),
      State.rd_set64_ne _ _ (by simp only [A.LNE_L_EXC_SIX]; omega) (by simp only [A.LNE_L_EXC_SIX]; omega),
      State.rd_set_ne _ _ (show a ≠ A.LNE_L_EXC_PC n by simp only [A.LNE_L_EXC_PC]; omega), State.rd_set_ne _ _ exc, State.rd_set_ne _ _ exc,
      State.rd_set_ne _ _ exc]
  split
  · rw [State.rd_set_ne _ _ (show a ≠ A.TSK_T_STAT _ by simp only [A.TSK_T_STAT]; omega), record]
  · rw [record]

/-- The power unit's own record takes a content. -/
def State.withPwr (x : PwrSt) : State := { s with pwr := x }

theorem State.withPwr_regs (x : PwrSt) : (s.withPwr x).regs = s.regs := rfl

/-- The state with the bit of a STEM cause set. -/
def State.causeSet (b : Nat) : State := s.set (bitField A.PWR_STATE (F.PWR_STATE.STEM_CAUSE.lo + b)) 1

/-- A STEM cause sets its bit, and PHASE where it ends a return. -/
theorem State.stemCause_eq (b : Nat) : ∃ x, s.stemCause b = (s.causeSet b).withPwr x ∨
    s.stemCause b = (((s.causeSet b).set F.PWR_STATE.PHASE 4).raise F.PWR_EVT.STATE_CHG).withPwr x := by
  by_cases stem : s.opstate = 1
  · by_cases prep : (s.causeSet b).pwr.prep.isSome = true
    · by_cases startup : (s.causeSet b).pwr.startup = true
      · exact ⟨_, .inl ((if_pos stem).trans ((if_pos prep).trans (congrArg (State.withPwr · _) (if_pos startup))))⟩
      · exact ⟨_, .inr ((if_pos stem).trans ((if_pos prep).trans (congrArg (State.withPwr · _) (if_neg startup))))⟩
    · exact ⟨_, .inl ((if_pos stem).trans (if_neg prep))⟩
  · by_cases halt : s.opstate = 2
    · exact ⟨_, .inl ((if_neg stem).trans (if_pos halt))⟩
    · exact ⟨_, .inl ((if_neg stem).trans (if_neg halt))⟩

theorem State.rd_stemCause (b : Nat) (h : a ≠ A.PWR_STATE) (g : a ≠ A.PWR_EVT) : (s.stemCause b).rd a = s.rd a := by
  obtain ⟨x, shape | shape⟩ := s.stemCause_eq b
  · rw [shape, State.rd_congr (State.withPwr_regs _ _)]
    exact State.rd_set_ne _ _ h
  · rw [shape, State.rd_congr (State.withPwr_regs _ _), State.rd_raise_ne _ g, State.rd_set_ne _ _ h]
    exact State.rd_set_ne _ _ h

/-- The cause stands in the mask. -/
theorem State.flag_stemCause (b : Nat) (h : b < 8) :
    (s.stemCause b).flag (bitField A.PWR_STATE (F.PWR_STATE.STEM_CAUSE.lo + b)) = true := by
  have lo : F.PWR_STATE.STEM_CAUSE.lo + b + 1 ≤ 32 := by simp only [F.PWR_STATE.STEM_CAUSE]; omega
  obtain ⟨x, shape | shape⟩ := s.stemCause_eq b
  · rw [shape, State.flag_congr (State.rd_congr (State.withPwr_regs _ _) _)]
    exact State.flag_set_one _ _ lo rfl
  · rw [shape, State.flag_congr (State.rd_congr (State.withPwr_regs _ _) _)]
    unfold State.flag
    rw [State.get_raise_ne _ (show A.PWR_STATE ≠ A.PWR_EVT by decide), State.get_set_apart _ _ (by decide) (by
      simp only [bitField, F.PWR_STATE.STEM_CAUSE, F.PWR_STATE.PHASE]; omega)]
    exact State.flag_set_one _ _ lo rfl

theorem State.rd_ueCount (m ad : Nat) (low : a < A.MPU_EVT) : (s.ueCount m ad).rd a = s.rd a := by
  simp only [A.MPU_EVT] at low
  unfold State.ueCount
  rw [State.rd_raise_ne _ (show a ≠ A.MPU_EVT by simp only [A.MPU_EVT]; omega),
    State.rd_bump_ne _ (show a ≠ A.MPU_ECC_CNT m by simp only [A.MPU_ECC_CNT]; omega),
    State.rd_wr_ne _ _ (by simp only [A.MPU_ECC_ADDR]; omega)]

theorem State.rd_setEthCtx (n : Nat) (x : EthCtx) : (s.setEthCtx n x).rd a = s.rd a := rfl

/-- What a publication sends writes its context's registers alone. -/
theorem State.rd_ethSend (pair pcp : Nat) (body : EthOut) : (s.ethSend pair pcp body).rd a = s.rd a := by
  unfold State.ethSend
  split
  · refine (foldl_keeps (fun t : State => t.rd a) (fun t p => ?_) _ _).trans rfl
    split <;> rfl
  · rfl

theorem State.rd_gooseStatus (low : a < A.ETH_C_STAT 0) : s.gooseStatus.rd a = s.rd a := by
  simp only [A.ETH_C_STAT] at low
  have sent : ∀ (t : State) n p, (t.gooseSend n p).rd a = t.rd a := by
    intro t n p
    unfold State.gooseSend
    dsimp only
    rw [State.rd_set64_ne _ _ (by simp only [A.ETH_C_LAST]; omega) (by simp only [A.ETH_C_LAST]; omega), State.rd_ethSend,
      State.rd_setEthCtx]
  have new : ∀ (t : State) n p ws st, (t.gooseState n p ws st).rd a = t.rd a := by
    intro t n p ws st
    unfold State.gooseState
    dsimp only
    rw [sent, State.rd_set_ne _ _ (show a ≠ A.ETH_C_SQNUM n by simp only [A.ETH_C_SQNUM]; omega),
      State.rd_set_ne _ _ (show a ≠ A.ETH_C_STNUM n by simp only [A.ETH_C_STNUM]; omega), State.rd_setEthCtx]
  unfold State.gooseStatus
  refine foldl_keeps (fun t : State => t.rd a) (fun t e => ?_) _ _
  split
  · unfold State.gooseCheck
    dsimp only
    split
    · exact new _ _ _ _ _
    · rfl
  · rfl

end

/-- A bit of a field is the one-bit field at its place. -/
theorem State.bit_get (s : State) (f : Field) {i : Nat} (h : i < f.width) : bit (s.get f) i = s.flag (bitField f.addr (f.lo + i)) := by
  have shifted : fieldOf (s.rd f.addr) f.lo f.width / 2 ^ i % 2 = fieldOf (s.rd f.addr) (f.lo + i) 1 := by
    have := Nat.testBit_mod_two_pow ((s.rd f.addr).toNat / 2 ^ f.lo) f.width i
    simp only [Nat.testBit_eq_decide_div_mod_eq, h, decide_true, Bool.true_and] at this
    unfold fieldOf
    rw [Nat.pow_add, ← Nat.div_div_eq_div_mul, Nat.pow_one]
    have l := decide_eq_decide.mp this
    omega
  unfold bit State.flag State.get
  rw [shifted]
  have small : fieldOf (s.rd f.addr) (f.lo + i) 1 < 2 := fieldOf_lt _ _ _
  show (fieldOf (s.rd f.addr) (f.lo + i) 1 == 1) = (fieldOf (s.rd f.addr) (f.lo + i) 1 != 0)
  interval_cases fieldOf (s.rd f.addr) (f.lo + i) 1 <;> rfl

/-! ### A lane fails (R196) -/

section
variable (s : State)

/-- A role shows, and the cause beside it stays. -/
theorem State.get_setRole (n r : Nat) (h : r < 8) : (s.setRole n r).get (F.LNE_L_STATE.ROLE n) = r ∧
    (s.setRole n r).get (F.LNE_L_STATE.CAUSE n) = s.get (F.LNE_L_STATE.CAUSE n) ∧
    (s.setRole n r).get (F.LNE_L_STATE.PART n) = s.get (F.LNE_L_STATE.PART n) := by
  have apart : A.LNE_L_STATE n ≠ A.LNE_STATUS := by simp only [A.LNE_L_STATE, A.LNE_STATUS]; omega
  have counted : ∀ f : Field, f.addr = A.LNE_L_STATE n → (s.setRole n r).get f = (s.set (F.LNE_L_STATE.ROLE n) r).get f :=
    fun f at_ => State.get_congr (by rw [at_]; exact State.rd_laneCounts _ apart)
  rw [counted _ rfl, counted _ rfl, counted _ rfl, State.get_set_same _ _ _ (by simp [F.LNE_L_STATE.ROLE]),
    State.get_set_apart _ _ (by simp [F.LNE_L_STATE.ROLE]) (by simp [F.LNE_L_STATE.ROLE, F.LNE_L_STATE.CAUSE]),
    State.get_set_apart _ _ (by simp [F.LNE_L_STATE.ROLE]) (by simp [F.LNE_L_STATE.ROLE, F.LNE_L_STATE.PART])]
  exact ⟨Nat.mod_eq_of_lt h, rfl, rfl⟩

/-- A lane that is down: role 3 with its cause, the event, the SIX. -/
theorem State.laneDown_shows (n c : Nat) (h : c < 16) : (s.laneDown n c).get (F.LNE_L_STATE.ROLE n) = 3 ∧
    (s.laneDown n c).get (F.LNE_L_STATE.CAUSE n) = c ∧ (s.laneDown n c).flag F.LNE_EVT.LANE_FAIL = true ∧
    (s.laneDown n c).get64 A.LNE_DET_SIX = s.six % 2 ^ 64 := by
  obtain ⟨u, hu⟩ : ∃ u, u = (s.setLane n LaneSt.reset).set (F.LNE_L_STATE.CAUSE n) c := ⟨_, rfl⟩
  have clk : u.clk = s.clk := by rw [hu, State.set_clk]; rfl
  have down : s.laneDown n c = ((u.setRole n 3).raise F.LNE_EVT.LANE_FAIL).set64 A.LNE_DET_SIX (u.setRole n 3).six := by rw [hu]; rfl
  have six : (u.setRole n 3).six = s.six := congrArg Clk.six (((State.setRole_kept (.refl 2 u) (.refl _)).parts .clk rfl).trans clk)
  have lane : ∀ f : Field, f.addr = A.LNE_L_STATE n → (s.laneDown n c).get f = (u.setRole n 3).get f := by
    intro f at_
    rw [down]
    refine (State.get_congr ?_).trans (State.get_raise_ne (f := F.LNE_EVT.LANE_FAIL) _ ?_)
    · rw [at_]
      exact State.rd_set64_ne _ _ (by simp only [A.LNE_L_STATE, A.LNE_DET_SIX]; omega) (by simp only [A.LNE_L_STATE, A.LNE_DET_SIX]; omega)
    · rw [at_]
      show A.LNE_L_STATE n ≠ A.LNE_EVT
      simp only [A.LNE_L_STATE, A.LNE_EVT]
      omega
  obtain ⟨role, cause, -⟩ := u.get_setRole n 3 (by decide)
  refine ⟨(lane _ rfl).trans role, (lane _ rfl).trans (cause.trans ?_), ?_, ?_⟩
  · rw [hu, State.get_set_same _ _ _ (by simp [F.LNE_L_STATE.CAUSE])]
    exact Nat.mod_eq_of_lt h
  · rw [down, State.flag_congr (State.rd_set64_ne _ _ (show A.LNE_EVT ≠ A.LNE_DET_SIX by decide) (show A.LNE_EVT ≠ A.LNE_DET_SIX + 4 by decide))]
    exact State.flag_raise _ _ (by decide) rfl
  · rw [down, State.get64_set64, six]

/-- What a lane that goes down writes. -/
theorem State.rd_laneDown (n c : Nat) {a : Nat} (h : a ≠ A.LNE_L_STATE n) (g : a ≠ A.LNE_STATUS) (e : a ≠ A.LNE_EVT) (d : a ≠ A.LNE_DET_SIX)
    (d' : a ≠ A.LNE_DET_SIX + 4) : (s.laneDown n c).rd a = s.rd a := by
  unfold State.laneDown
  dsimp only
  rw [State.rd_set64_ne _ _ d d', State.rd_raise_ne _ e, State.rd_setRole _ _ _ h g, State.rd_set_ne _ _ h]
  rfl

/-- What makes way for a takeover: the partition's cycles are lost, a replay and a change end. -/
def State.makeWay (p : Nat) : State := (s.losePart p).2.rplAbort.chgAbort

theorem State.rd_makeWay (p : Nat) {a : Nat} (low : a < A.TSK_T_STAT 0) (h : a ≠ A.LNE_STATUS) : (s.makeWay p).rd a = s.rd a := by
  unfold State.makeWay
  rw [State.rd_chgAbort _ low h, State.rd_rplAbort _ low h, State.rd_losePart _ _ low]

/-- The spare is found by the lanes' roles. -/
theorem State.spareLane_congr {s t : State} (h : ∀ n, n < 4 → t.rd (A.LNE_L_STATE n) = s.rd (A.LNE_L_STATE n)) : t.spareLane = s.spareLane := by
  have role : ∀ n, n < 4 → t.get (F.LNE_L_STATE.ROLE n) = s.get (F.LNE_L_STATE.ROLE n) := fun n small => State.get_congr (h n small)
  unfold State.spareLane
  simp only [List.find?_cons, role 0 (by omega), role 1 (by omega), role 2 (by omega), role 3 (by omega), List.find?_nil]

theorem State.spareLane_spec {s : State} {n : Nat} (h : s.spareLane = some n) : n < 4 ∧ s.get (F.LNE_L_STATE.ROLE n) = 2 := by
  have listed : n ∈ [0, 1, 2, 3] := List.mem_of_find?_eq_some h
  have role := List.find?_some h
  simp only [List.mem_cons, List.not_mem_nil, or_false] at listed
  exact ⟨by omega, by simpa using role⟩

theorem State.rplAbort_of_none {s : State} (h : s.olc.rpl = none) : s.rplAbort = s := by
  unfold State.rplAbort
  rw [h]

theorem State.chgAbort_of_idle {s : State} (h : s.olc.phase = 0) : s.chgAbort = s := if_pos h

/-- What losing cycles leaves of the tasks' part: the program and a takeover. -/
def TskSt.plan (x : TskSt) : Option ProgImage × Option Takeover := (x.prog, x.tko)

theorem State.plan_setCycle (k : Nat) (c : Option Cycle) : (s.setCycle k c).tsk.plan = s.tsk.plan := rfl

/-- The registers of a lost cycle's task. -/
def State.loseShown (t : Nat) : State :=
  (((((((s.bump (F.TSK_T_CNT.LOST t)).bump (F.TSK_T_UNCLEAN.UNCLEAN t)).set (F.TSK_T_STAT.RUNNING t) 0).set (F.TSK_T_STAT.PREEMPTED t) 0).set
    (F.TSK_T_STAT.LAST_LOST t) 1).set (F.TSK_T_STAT.LAST_CLEAN t) 0).set (F.TSK_T_STAT.LAST_ABORT t) 0).set (F.TSK_T_STAT.HELD t) 1

theorem State.loseShown_tsk (t : Nat) : (s.loseShown t).tsk = s.tsk := by
  unfold State.loseShown
  rw [State.set_tsk, State.set_tsk, State.set_tsk, State.set_tsk, State.set_tsk, State.set_tsk, State.bump_tsk, State.bump_tsk]

theorem State.loseCycle_eq (c : Cycle) : s.loseCycle c = (s.loseShown c.tid).putCyc { c.dropped with status := 5, journal := [] } := rfl

theorem State.plan_loseCycle (c : Cycle) : (s.loseCycle c).tsk.plan = s.tsk.plan := by
  rw [State.loseCycle_eq, State.putCyc, State.plan_setCycle, State.loseShown_tsk]

theorem State.losePart_plan (p : Nat) : (s.losePart p).2.tsk.plan = s.tsk.plan := by
  have cycles : ∀ (l : List Cycle) (t : State), (l.foldl State.loseCycle t).tsk.plan = t.tsk.plan := by
    intro l
    induction l with
    | nil => intro t; rfl
    | cons c l ih => intro t; rw [List.foldl_cons, ih, State.plan_loseCycle]
  have tasks : ∀ (l : List Task) (t : State), (l.foldl (fun u k => u.set (F.TSK_T_STAT.HELD k.tid) 1) t).tsk.plan = t.tsk.plan := by
    intro l
    induction l with
    | nil => intro t; rfl
    | cons k l ih => intro t; rw [List.foldl_cons, ih, State.set_tsk]
  unfold State.losePart
  dsimp only
  rw [tasks, cycles]

theorem TskSt.of_plan {x y : TskSt} (h : x.plan = y.plan) : x.prog = y.prog ∧ x.tko = y.tko :=
  ⟨congrArg Prod.fst h, congrArg Prod.snd h⟩

theorem State.losePart_rest (p : Nat) : (s.losePart p).2.olc = s.olc ∧ (s.losePart p).2.clk = s.clk :=
  have keeps := State.losePart_kept (x1 := p) (.refl 8194 s) (.refl _)
  ⟨keeps.parts .olc rfl, keeps.parts .clk rfl⟩

theorem State.get_dmaShow (c st : Nat) (h : st < 8) : (s.dmaShow c st).get (F.DMA_C_STAT.STATE c) = st := by
  have set : (s.set (F.DMA_C_STAT.STATE c) st).get (F.DMA_C_STAT.STATE c) = st := by
    rw [State.get_set_same _ _ _ (by simp [F.DMA_C_STAT.STATE])]
    exact Nat.mod_eq_of_lt h
  unfold State.dmaShow
  dsimp only
  split
  · rw [State.get_raise_ne _ (show A.DMA_C_STAT c ≠ A.DMA_EVT by simp only [A.DMA_C_STAT, A.DMA_EVT]; omega), set]
  · exact set

/-- The spare loads the partition on channel 3. -/
def State.spareLoads (sp p : Nat) : State := (((s.setRole sp 4).spareAct 3).set (F.DMA_C_CTL.OWNER 3) p).dmaShow 3 1

theorem State.spareLoads_shows (sp p : Nat) (small : sp < 4) : (s.spareLoads sp p).get (F.LNE_L_STATE.ROLE sp) = 4 ∧
    (s.spareLoads sp p).get (F.DMA_C_STAT.STATE 3) = 1 ∧ (s.spareLoads sp p).clk = s.clk := by
  unfold State.spareLoads
  refine ⟨?_, State.get_dmaShow _ _ _ (by decide), ?_⟩
  · rw [State.get_congr (State.rd_dmaShow _ _ _ (show A.LNE_L_STATE sp ≠ A.DMA_C_STAT 3 by simp only [A.LNE_L_STATE, A.DMA_C_STAT]; omega)
        (show A.LNE_L_STATE sp ≠ A.DMA_EVT by simp only [A.DMA_EVT, A.LNE_L_STATE]; omega)),
      State.get_set_ne _ _ (show A.LNE_L_STATE sp ≠ A.DMA_C_CTL 3 by simp only [A.DMA_C_CTL, A.LNE_L_STATE]; omega),
      State.get_congr (State.rd_spareAct _ _ (show A.LNE_L_STATE sp ≠ A.LNE_STATUS by simp only [A.LNE_STATUS, A.LNE_L_STATE]; omega))]
    exact (State.get_setRole _ sp 4 (by decide)).1
  · rw [(State.dmaShow_kept (.refl 16777226 _) (.refl _)).parts .clk rfl, State.set_clk, State.spareAct, State.set_clk]
    exact (State.setRole_kept (.refl 2 s) (.refl _)).parts .clk rfl

/-- With a spare, no takeover and no change or replay under way, the spare takes the partition (R197). -/
theorem State.startTakeover_spare {s : State} {n p sp : Nat} {q : Partition} (spare : s.spareLane = some sp) (part : s.runningPart p = some q)
    (free : s.tsk.tko = none) (noReplay : s.olc.rpl = none) (noChange : s.olc.phase = 0) :
    (s.startTakeover n p).get (F.LNE_L_STATE.ROLE sp) = 4 ∧ (s.startTakeover n p).get (F.DMA_C_STAT.STATE 3) = 1 ∧
      ∃ lost, (s.startTakeover n p).tsk.tko = some ⟨n, sp, p, s.six, lost⟩ := by
  obtain ⟨r, hr⟩ : ∃ r, r = s.losePart p := ⟨_, rfl⟩
  have olc : r.2.olc = s.olc := by rw [hr]; exact (s.losePart_rest p).1
  have clk : r.2.clk = s.clk := by rw [hr]; exact (s.losePart_rest p).2
  have tko : r.2.tsk.tko = none := by rw [hr, (TskSt.of_plan (s.losePart_plan p)).2, free]
  have running : r.2.runningPart p = some q := by
    rw [State.runningPart, hr, (TskSt.of_plan (s.losePart_plan p)).1]
    exact part
  have found : r.2.spareLane = some sp := by
    rw [hr, ← spare]
    exact State.spareLane_congr fun m small => s.rd_losePart p (by simp only [A.LNE_L_STATE, A.TSK_T_STAT]; omega)
  have ways : r.2.rplAbort.chgAbort = r.2 := by rw [State.rplAbort_of_none (by rw [olc, noReplay]), State.chgAbort_of_idle (by rw [olc, noChange])]
  obtain ⟨v, hv⟩ : ∃ v, v = r.2.spareLoads sp p := ⟨_, rfl⟩
  obtain ⟨role, state, clk'⟩ : v.get (F.LNE_L_STATE.ROLE sp) = 4 ∧ v.get (F.DMA_C_STAT.STATE 3) = 1 ∧ v.clk = r.2.clk := by
    rw [hv]; exact r.2.spareLoads_shows sp p (State.spareLane_spec spare).1
  have eq : s.startTakeover n p = { v with tsk := { v.tsk with tko := some ⟨n, sp, p, v.six, r.1⟩ } } := by
    unfold State.startTakeover
    dsimp only
    rw [← hr, ways, running, found, tko, hv]
    rfl
  rw [eq]
  refine ⟨(State.get_congr rfl).trans role, (State.get_congr rfl).trans state, r.1, ?_⟩
  rw [show v.six = s.six from congrArg Clk.six (clk'.trans clk)]

end

section
variable (s : State)

/-- The tasks' own record takes a content. -/
def State.withTsk (x : TskSt) : State := { s with tsk := x }

theorem State.withTsk_regs (x : TskSt) : (s.withTsk x).regs = s.regs := rfl

theorem State.withTsk_clk (x : TskSt) : (s.withTsk x).clk = s.clk := rfl

/-- A takeover starts with the spare loading, or ends as cause LANE of STEM. -/
theorem State.startTakeover_cases (n p : Nat) :
    (∃ sp x, (s.makeWay p).spareLane = some sp ∧ s.startTakeover n p = ((s.makeWay p).spareLoads sp p).withTsk x) ∨
      s.startTakeover n p =
        ((if (s.makeWay p).spareLane.isNone then (s.makeWay p).raise F.LNE_EVT.NO_SPARE else s.makeWay p).spareAct 0).stemCause stemLANE := by
  obtain ⟨v, hv⟩ : ∃ v, v = s.makeWay p := ⟨_, rfl⟩
  have eq : s.startTakeover n p = match v.runningPart p, v.spareLane, v.tsk.tko with
      | some _, some sp, none => (v.spareLoads sp p).withTsk { (v.spareLoads sp p).tsk with
          tko := some ⟨n, sp, p, (v.spareLoads sp p).six, (s.losePart p).1⟩ }
      | _, sp, _ => ((if sp.isNone then v.raise F.LNE_EVT.NO_SPARE else v).spareAct 0).stemCause stemLANE := by
    rw [hv]; rfl
  rw [← hv, eq]
  split
  · next found _ => exact .inl ⟨_, _, found, rfl⟩
  · exact .inr rfl

/-- What a takeover's start leaves in a lane's registers. -/
theorem State.rd_startTakeover (n p : Nat) {a : Nat} (low : a < A.TSK_T_STAT 0) (stat : a ≠ A.LNE_STATUS) (evt : a ≠ A.LNE_EVT)
    (spare : ∀ sp, s.spareLane = some sp → a ≠ A.LNE_L_STATE sp) (pwr : a ≠ A.PWR_STATE) (pwrEvt : a ≠ A.PWR_EVT) :
    (s.startTakeover n p).rd a = s.rd a := by
  have way : (s.makeWay p).spareLane = s.spareLane := State.spareLane_congr fun m small => s.rd_makeWay p
    (by simp only [A.LNE_L_STATE, A.TSK_T_STAT]; omega) (by simp only [A.LNE_L_STATE, A.LNE_STATUS]; omega)
  rw [← s.rd_makeWay p low stat]
  obtain ⟨sp, x, found, eq⟩ | eq := s.startTakeover_cases n p
  · rw [way] at found
    rw [eq, State.rd_congr (State.withTsk_regs _ _)]
    simp only [A.TSK_T_STAT] at low
    unfold State.spareLoads
    rw [State.rd_dmaShow _ _ _ (by simp only [A.DMA_C_STAT]; omega) (by simp only [A.DMA_EVT]; omega),
      State.rd_set_ne _ _ (show a ≠ A.DMA_C_CTL 3 by simp only [A.DMA_C_CTL]; omega), State.rd_spareAct _ _ stat,
      State.rd_setRole _ _ _ (spare sp found) stat]
  · rw [eq, State.rd_stemCause _ _ pwr pwrEvt, State.rd_spareAct _ _ stat]
    split
    · exact State.rd_raise_ne _ evt
    · rfl

/-- No event of the lanes is taken back by a takeover's start. -/
theorem State.flag_startTakeover (n p : Nat) (h : s.flag F.LNE_EVT.LANE_FAIL = true) :
    (s.startTakeover n p).flag F.LNE_EVT.LANE_FAIL = true := by
  have kept : (s.makeWay p).get F.LNE_EVT.LANE_FAIL = s.get F.LNE_EVT.LANE_FAIL :=
    State.get_congr (s.rd_makeWay p (show A.LNE_EVT < A.TSK_T_STAT 0 by decide) (show A.LNE_EVT ≠ A.LNE_STATUS by decide))
  have same : (s.startTakeover n p).get F.LNE_EVT.LANE_FAIL = s.get F.LNE_EVT.LANE_FAIL := by
    rw [← kept]
    obtain ⟨sp, x, found, eq⟩ | eq := s.startTakeover_cases n p
    · rw [eq]
      refine (State.get_congr (State.rd_congr (State.withTsk_regs _ _) _)).trans (State.get_congr ?_)
      show ((s.makeWay p).spareLoads sp p).rd A.LNE_EVT = _
      unfold State.spareLoads
      rw [State.rd_dmaShow _ _ _ (by decide) (by decide), State.rd_set_ne _ _ (show A.LNE_EVT ≠ A.DMA_C_CTL 3 by decide),
        State.rd_spareAct _ _ (by decide), State.rd_setRole _ _ _ (by simp only [A.LNE_EVT, A.LNE_L_STATE]; omega) (by decide)]
      rfl
    · rw [eq, State.get_congr (State.rd_stemCause _ _ (show A.LNE_EVT ≠ A.PWR_STATE by decide) (by decide)),
        State.get_congr (State.rd_spareAct _ _ (show A.LNE_EVT ≠ A.LNE_STATUS by decide))]
      split
      · exact State.get_raise_apart _ (by decide) (by decide)
      · rfl
  unfold State.flag at h ⊢
  rw [same]
  exact h

/-- Without a spare the takeover's start is cause LANE of STEM (R198). -/
theorem State.startTakeover_noSpare (n p : Nat) (h : s.spareLane = none) :
    bit ((s.startTakeover n p).get F.PWR_STATE.STEM_CAUSE) stemLANE = true := by
  have way : (s.makeWay p).spareLane = none := h ▸ State.spareLane_congr fun m small => s.rd_makeWay p
    (by simp only [A.LNE_L_STATE, A.TSK_T_STAT]; omega) (by simp only [A.LNE_L_STATE, A.LNE_STATUS]; omega)
  obtain ⟨sp, x, found, -⟩ | eq := s.startTakeover_cases n p
  · rw [way] at found
    cases found
  · rw [eq, State.bit_get _ _ (show stemLANE < F.PWR_STATE.STEM_CAUSE.width by decide)]
    exact State.flag_stemCause _ _ (by decide)

/-- What a failed lane shows (R196): role 3, its cause, the event and the SIX. -/
structure State.LaneFailed (n c six : Nat) (u : State) : Prop where
  role : u.get (F.LNE_L_STATE.ROLE n) = 3
  cause : u.get (F.LNE_L_STATE.CAUSE n) = c
  event : u.flag F.LNE_EVT.LANE_FAIL = true
  at_ : u.get64 A.LNE_DET_SIX = six % 2 ^ 64

theorem State.laneDown_failed (n c : Nat) (h : c < 16) : (s.laneDown n c).LaneFailed n c s.six :=
  have ⟨role, cause, event, at_⟩ := s.laneDown_shows n c h
  ⟨role, cause, event, at_⟩

/-- Whatever leaves these registers leaves the lane failed. -/
theorem State.LaneFailed.mono {n c six : Nat} {u v : State} (h : u.LaneFailed n c six) (state : v.rd (A.LNE_L_STATE n) = u.rd (A.LNE_L_STATE n))
    (event : u.flag F.LNE_EVT.LANE_FAIL = true → v.flag F.LNE_EVT.LANE_FAIL = true)
    (lo : v.rd A.LNE_DET_SIX = u.rd A.LNE_DET_SIX) (hi : v.rd (A.LNE_DET_SIX + 4) = u.rd (A.LNE_DET_SIX + 4)) : v.LaneFailed n c six where
  role := (State.get_congr state).trans h.role
  cause := (State.get_congr state).trans h.cause
  event := event h.event
  at_ := by
    have := h.at_
    unfold State.get64 at this ⊢
    rw [lo, hi]
    exact this

/-- GOOSE status writes nothing of the lanes. -/
theorem State.LaneFailed.gooseStatus {n c six : Nat} {u : State} (h : u.LaneFailed n c six) (small : n < 4) : u.gooseStatus.LaneFailed n c six :=
  h.mono (State.rd_gooseStatus _ (by simp only [A.LNE_L_STATE, A.ETH_C_STAT]; omega))
    (fun f => (State.flag_congr (State.rd_gooseStatus _ (show A.LNE_EVT < A.ETH_C_STAT 0 by decide))).trans f)
    (State.rd_gooseStatus _ (by decide)) (State.rd_gooseStatus _ (by decide))

/-- A lane in service fails: it goes down, and the takeover of its partition starts. -/
theorem State.laneFail_service {n c : Nat} (role : s.get (F.LNE_L_STATE.ROLE n) = 1) :
    s.laneFail n c = (((s.laneRecord n c).laneDown n c).startTakeover n (s.get (F.LNE_L_STATE.PART n))).gooseStatus := if_pos role

theorem State.laneRecord_six (n c : Nat) : (s.laneRecord n c).six = s.six :=
  congrArg Clk.six ((State.laneRecord_kept (.refl 16777230 s) (.refl _)).parts .clk rfl)

theorem State.laneFail_service_failed {n c : Nat} (role : s.get (F.LNE_L_STATE.ROLE n) = 1) (small : n < 4) (code : c < 16) :
    (s.laneFail n c).LaneFailed n c s.six := by
  rw [s.laneFail_service role, ← s.laneRecord_six n c]
  have down := (s.laneRecord n c).laneDown_failed n c code
  refine (down.mono ?_ (State.flag_startTakeover _ _ _) ?_ ?_).gooseStatus small
  · refine State.rd_startTakeover _ _ _ (by simp only [A.LNE_L_STATE, A.TSK_T_STAT]; omega) (by simp only [A.LNE_L_STATE, A.LNE_STATUS]; omega)
      (by simp only [A.LNE_L_STATE, A.LNE_EVT]; omega) (fun sp found at_ => ?_) (by simp only [A.LNE_L_STATE, A.PWR_STATE]; omega)
      (by simp only [A.LNE_L_STATE, A.PWR_EVT]; omega)
    have spare := (State.spareLane_spec found).2
    have same : sp = n := by simp only [A.LNE_L_STATE] at at_; omega
    rw [same, down.role] at spare
    cases spare
  all_goals
    exact State.rd_startTakeover _ _ _ (by decide) (by decide) (by decide) (fun sp _ => by simp only [A.LNE_L_STATE, A.LNE_DET_SIX]; omega)
      (by decide) (by decide)

/-- The spare fails: what it did ends, it goes down, and NO_SPARE is signalled. -/
theorem State.laneFail_spare {n c : Nat} (role : s.get (F.LNE_L_STATE.ROLE n) = 2) :
    s.laneFail n c = (((((s.laneRecord n c).rplAbort.chgAbort.laneDown n c).raise F.LNE_EVT.NO_SPARE).spareAct 0).gooseStatus) :=
  (if_neg (by rw [role]; decide)).trans (if_pos role)

theorem State.laneFail_spare_failed {n c : Nat} (role : s.get (F.LNE_L_STATE.ROLE n) = 2) (small : n < 4) (code : c < 16) :
    (s.laneFail n c).LaneFailed n c s.six ∧ (s.laneFail n c).flag F.LNE_EVT.NO_SPARE = true := by
  rw [s.laneFail_spare role]
  obtain ⟨v, hv⟩ : ∃ v, v = (s.laneRecord n c).rplAbort.chgAbort := ⟨_, rfl⟩
  have six : v.six = s.six := by
    rw [hv, ← s.laneRecord_six n c]
    exact congrArg Clk.six ((State.chgAbort_kept (State.rplAbort_kept (.refl 17051662 (s.laneRecord n c)) (.refl _)) (.refl _)).parts .clk rfl)
  have down := v.laneDown_failed n c code
  rw [← hv, ← six]
  constructor
  · refine (down.mono ?_ (fun f => ?_) ?_ ?_).gooseStatus small
    · rw [State.rd_spareAct _ _ (by simp only [A.LNE_L_STATE, A.LNE_STATUS]; omega)]
      exact State.rd_raise_ne _ (show A.LNE_L_STATE n ≠ A.LNE_EVT by simp only [A.LNE_L_STATE, A.LNE_EVT]; omega)
    · rw [State.flag_congr (State.rd_spareAct _ _ (show A.LNE_EVT ≠ A.LNE_STATUS by decide))]
      unfold State.flag at f ⊢
      rw [State.get_raise_apart _ (by decide) (by decide)]
      exact f
    all_goals
      rw [State.rd_spareAct _ _ (by decide)]
      exact State.rd_raise_ne _ (by decide)
  · rw [State.flag_congr (State.rd_gooseStatus _ (show A.LNE_EVT < A.ETH_C_STAT 0 by decide)),
      State.flag_congr (State.rd_spareAct _ _ (show A.LNE_EVT ≠ A.LNE_STATUS by decide))]
    exact State.flag_raise _ _ (by decide) rfl

/-- What the record of an error's address leaves: the lanes' registers, the tasks, the change. -/
theorem execLaneFail_eq (ln : Fin 4) (err : LaneErr) : ∃ t : State, execLaneFail ln err s = .next (t.laneFail ln (err.cause + 1)) ∧
    (∀ a, a < A.MPU_EVT → t.rd a = s.rd a) ∧ t.tsk = s.tsk ∧ t.olc = s.olc ∧ t.clk = s.clk := by
  refine ⟨_, rfl, fun a low => ?_, ?_⟩
  · split
    · rfl
    · exact State.rd_ueCount _ _ _ low
  · split
    · exact ⟨rfl, rfl, rfl⟩
    · have kept := State.ueCount_kept (x1 := ln + 4 * (err.cause.val - 1)) (x2 := err.addr.toNat) (.refl 16777226 s) (.refl _)
      exact ⟨kept.parts .tsk rfl, kept.parts .olc rfl, kept.parts .clk rfl⟩

/-- What a lane that goes down leaves of the tasks, of a change, of the SIX and of the search for the spare. -/
theorem State.laneDown_rest (n c : Nat) (service : s.get (F.LNE_L_STATE.ROLE n) = 1) (code : c < 16) :
    ((s.laneRecord n c).laneDown n c).tsk = s.tsk ∧ ((s.laneRecord n c).laneDown n c).olc = s.olc ∧
    ((s.laneRecord n c).laneDown n c).clk = s.clk ∧ ((s.laneRecord n c).laneDown n c).spareLane = s.spareLane := by
  have kept := State.laneDown_kept (x1 := n) (x2 := c) (State.laneRecord_kept (x1 := n) (x2 := c) (.refl (16777230 ||| 16781322) s) (.of (by exact .refl _) (by decide))) (.of (by exact .refl _) (by decide))
  refine ⟨kept.parts .tsk rfl, kept.parts .olc rfl, kept.parts .clk rfl, ?_⟩
  have role : ∀ m, m < 4 → (((s.laneRecord n c).laneDown n c).get (F.LNE_L_STATE.ROLE m) == 2) = (s.get (F.LNE_L_STATE.ROLE m) == 2) := by
    intro m lane
    by_cases same : m = n
    · rw [same, ((s.laneRecord n c).laneDown_shows n c code).1, service]
      rfl
    · refine congrArg (· == 2) (State.get_congr ?_)
      show State.rd _ (A.LNE_L_STATE m) = _
      rw [State.rd_laneDown _ _ _ (by simp only [A.LNE_L_STATE]; omega) (by simp only [A.LNE_L_STATE, A.LNE_STATUS]; omega)
        (by simp only [A.LNE_L_STATE, A.LNE_EVT]; omega) (by simp only [A.LNE_L_STATE, A.LNE_DET_SIX]; omega)
        (by simp only [A.LNE_L_STATE, A.LNE_DET_SIX]; omega),
        State.rd_laneRecord _ _ _ (by simp only [A.LNE_L_STATE, A.TSK_T_STAT]; omega) (.inr (by simp only [A.LNE_L_STATE]; omega))]
      rfl
  unfold State.spareLane
  simp only [List.find?_cons, role 0 (by omega), role 1 (by omega), role 2 (by omega), role 3 (by omega), List.find?_nil]

end

/-! ### The spare takes over (R197) -/

/-- What the lanes show of a takeover. -/
structure State.TookOver (k : Takeover) (six : Nat) (u : State) : Prop where
  role : u.get (F.LNE_L_STATE.ROLE k.spare) = 1
  part : u.get (F.LNE_L_STATE.PART k.spare) = k.part
  from_ : u.get F.LNE_TKO.FROM = k.failed
  goesTo : u.get F.LNE_TKO.TO = k.spare
  at_ : u.get64 A.LNE_TKO_SIX = six % 2 ^ 64

/-- The lanes' registers at a takeover. -/
def State.tkoShown (s : State) (k : Takeover) : State :=
  ((s.set F.LNE_TKO.FROM k.failed).set F.LNE_TKO.TO k.spare).set F.LNE_TKO.PART k.part

/-- The cycles lost and the SIX of a takeover. -/
def State.tkoNoted (s : State) (k : Takeover) : State := (s.set F.LNE_TKO.LOST_CYC (min k.lost 255)).set64 A.LNE_TKO_SIX s.six

/-- The spare serves the partition. -/
def State.spareServes (s : State) (k : Takeover) : State := ((s.set (F.LNE_L_STATE.PART k.spare) k.part).set (F.LNE_L_STATE.CAUSE k.spare) 0).setRole k.spare 1

theorem State.TookOver.mono {k : Takeover} {six : Nat} {u v : State} (h : u.TookOver k six) (state : v.rd (A.LNE_L_STATE k.spare) = u.rd (A.LNE_L_STATE k.spare))
    (tko : v.rd A.LNE_TKO = u.rd A.LNE_TKO) (lo : v.rd A.LNE_TKO_SIX = u.rd A.LNE_TKO_SIX)
    (hi : v.rd (A.LNE_TKO_SIX + 4) = u.rd (A.LNE_TKO_SIX + 4)) : v.TookOver k six where
  role := (State.get_congr state).trans h.role
  part := (State.get_congr state).trans h.part
  from_ := (State.get_congr tko).trans h.from_
  goesTo := (State.get_congr tko).trans h.goesTo
  at_ := by
    have := h.at_
    unfold State.get64 at this ⊢
    rw [lo, hi]
    exact this

section
variable (s : State)

theorem State.spareServes_shows (k : Takeover) (part : k.part < 4) : (s.spareServes k).get (F.LNE_L_STATE.ROLE k.spare) = 1 ∧
    (s.spareServes k).get (F.LNE_L_STATE.PART k.spare) = k.part ∧ (s.spareServes k).clk = s.clk := by
  obtain ⟨role, -, shown⟩ := ((s.set (F.LNE_L_STATE.PART k.spare) k.part).set (F.LNE_L_STATE.CAUSE k.spare) 0).get_setRole k.spare 1 (by decide)
  refine ⟨role, shown.trans ?_, ?_⟩
  · rw [State.get_set_apart _ _ (by simp [F.LNE_L_STATE.CAUSE]) (by simp [F.LNE_L_STATE.CAUSE, F.LNE_L_STATE.PART]),
      State.get_set_same _ _ _ (by simp [F.LNE_L_STATE.PART])]
    exact Nat.mod_eq_of_lt part
  · rw [State.spareServes, (State.setRole_kept (.refl 2 _) (.refl _)).parts .clk rfl, State.set_clk, State.set_clk]

theorem State.tkoShown_shows (k : Takeover) (failed : k.failed < 4) (spare : k.spare < 4) : (s.tkoShown k).get F.LNE_TKO.FROM = k.failed ∧
    (s.tkoShown k).get F.LNE_TKO.TO = k.spare := by
  unfold State.tkoShown
  constructor
  · rw [State.get_set_apart _ _ (by decide) (by decide), State.get_set_apart _ _ (by decide) (by decide), State.get_set_same _ _ _ (by decide)]
    exact Nat.mod_eq_of_lt failed
  · rw [State.get_set_apart _ _ (by decide) (by decide), State.get_set_same _ _ _ (by decide)]
    exact Nat.mod_eq_of_lt spare

theorem State.rd_tkoShown (k : Takeover) {a : Nat} (h : a ≠ A.LNE_TKO) : (s.tkoShown k).rd a = s.rd a := by
  unfold State.tkoShown
  rw [State.rd_set_ne _ _ h, State.rd_set_ne _ _ h, State.rd_set_ne _ _ h]

theorem State.tkoShown_clk (k : Takeover) : (s.tkoShown k).clk = s.clk := by
  unfold State.tkoShown
  rw [State.set_clk, State.set_clk, State.set_clk]

/-- The spare serves the partition, and no takeover is under way. -/
def State.tkoServed (k : Takeover) : State := (s.spareServes k).withTsk { (s.spareServes k).tsk with tko := none }

theorem State.tkoServed_clk (k : Takeover) : (s.tkoServed k).clk = (s.spareServes k).clk := State.withTsk_clk _ _

theorem State.tkoServed_regs (k : Takeover) : (s.tkoServed k).regs = (s.spareServes k).regs := State.withTsk_regs _ _

/-- The state with a takeover's registers as it leaves them. -/
def State.tkoDone (k : Takeover) : State := ((s.tkoServed k).tkoShown k).tkoNoted k

theorem State.tkoDone_tookOver (k : Takeover) (failed : k.failed < 4) (spare : k.spare < 4) (part : k.part < 4) : (s.tkoDone k).TookOver k s.six := by
  obtain ⟨role, shown, clk⟩ := s.spareServes_shows k part
  obtain ⟨v, hv⟩ : ∃ v, v = (s.tkoServed k).tkoShown k := ⟨_, rfl⟩
  have six : v.six = s.six := congrArg Clk.six (by rw [hv, State.tkoShown_clk, State.tkoServed_clk, clk])
  have lane : (v.tkoNoted k).rd (A.LNE_L_STATE k.spare) = (s.spareServes k).rd (A.LNE_L_STATE k.spare) := by
    rw [State.tkoNoted, State.rd_set64_ne _ _ (by simp only [A.LNE_L_STATE, A.LNE_TKO_SIX]; omega) (by simp only [A.LNE_L_STATE, A.LNE_TKO_SIX]; omega),
      State.rd_set_ne _ _ (show A.LNE_L_STATE k.spare ≠ A.LNE_TKO by simp only [A.LNE_L_STATE, A.LNE_TKO]; omega), hv,
      State.rd_tkoShown _ _ (by simp only [A.LNE_L_STATE, A.LNE_TKO]; omega), State.rd_congr (s.tkoServed_regs k)]
  have tko : ∀ f : Field, f.addr = A.LNE_TKO → f.lo + f.width ≤ F.LNE_TKO.LOST_CYC.lo → (v.tkoNoted k).get f = v.get f := by
    intro f at_ below
    refine (State.get_congr (by rw [at_]; exact State.rd_set64_ne _ _ (by decide) (by decide))).trans (State.get_set_apart _ _ (by decide) (.inl ?_))
    exact below
  obtain ⟨gives, takes⟩ := State.tkoShown_shows (s.tkoServed k) k failed spare
  rw [State.tkoDone, ← hv]
  exact ⟨(State.get_congr lane).trans role, (State.get_congr lane).trans shown, (tko _ rfl (by decide)).trans (hv ▸ gives),
    (tko _ rfl (by decide)).trans (hv ▸ takes), (State.get64_set64 _ _ _).trans (congrArg (· % 2 ^ 64) six)⟩

theorem State.tkoDone_tko (k : Takeover) : (s.tkoDone k).tsk.tko = none := by
  unfold State.tkoDone State.tkoNoted State.tkoShown
  rw [State.set64_tsk, State.set_tsk, State.set_tsk, State.set_tsk, State.set_tsk]
  rfl

/-- NO_SPARE is signalled where a takeover leaves none. -/
def State.noSpareNoted : State := if s.spareLane.isNone then s.raise F.LNE_EVT.NO_SPARE else s

theorem State.rd_noSpareNoted {a : Nat} (h : a ≠ A.LNE_EVT) : s.noSpareNoted.rd a = s.rd a := by
  unfold State.noSpareNoted
  split
  · exact State.rd_raise_ne _ h
  · rfl

theorem State.flag_noSpareNoted (h : s.flag F.LNE_EVT.TAKEOVER = true) : s.noSpareNoted.flag F.LNE_EVT.TAKEOVER = true := by
  unfold State.noSpareNoted
  split
  · unfold State.flag at h ⊢
    rw [State.get_raise_apart _ (by decide) (by decide)]
    exact h
  · exact h

theorem State.noSpareNoted_tsk : s.noSpareNoted.tsk = s.tsk := by
  unfold State.noSpareNoted
  split
  · exact State.raise_tsk _ _
  · rfl

/-- The takeover's end: channel 3, the event and its entry, the spare's absence. -/
def State.tkoSignalled (sev : List Byte) : State := (((s.dmaShow 3 2).raise F.LNE_EVT.TAKEOVER).logNamedSev "TAKEOVER" 3 sev).noSpareNoted

theorem State.rd_tkoSignalled (d : List Byte) {a : Nat} (evt : a ≠ A.LNE_EVT) (lane : a < A.TSK_T_STAT 0) : (s.tkoSignalled d).rd a = s.rd a := by
  simp only [A.TSK_T_STAT] at lane
  unfold State.tkoSignalled
  rw [State.rd_noSpareNoted _ evt, State.rd_logNamedSev _ _ _ _ (by simp only [A.CEL_DROP]; omega) (by simp only [A.CEL_EVT]; omega),
    State.rd_raise_ne _ evt, State.rd_dmaShow _ _ _ (by simp only [A.DMA_C_STAT]; omega) (by simp only [A.DMA_EVT]; omega)]

theorem State.flag_tkoSignalled (d : List Byte) : (s.tkoSignalled d).flag F.LNE_EVT.TAKEOVER = true := by
  refine State.flag_noSpareNoted _ ?_
  rw [State.flag_congr (State.rd_logNamedSev _ _ _ _ (show A.LNE_EVT ≠ A.CEL_DROP by decide) (show A.LNE_EVT ≠ A.CEL_EVT by decide))]
  exact State.flag_raise _ _ (by decide) rfl

theorem State.tkoSignalled_tsk (d : List Byte) : (s.tkoSignalled d).tsk = s.tsk := by
  unfold State.tkoSignalled
  rw [State.noSpareNoted_tsk, (State.logNamedSev_kept (.refl 16777230 _) (.refl _)).parts .tsk rfl, State.raise_tsk,
    (State.dmaShow_kept (.refl 16777226 s) (.refl _)).parts .tsk rfl]

theorem State.gooseStatus_tsk : s.gooseStatus.tsk = s.tsk := (State.gooseStatus_kept (.refl 16908290 s) (.refl _)).parts .tsk rfl

theorem State.spareAct_tsk (v : Nat) : (s.spareAct v).tsk = s.tsk := (State.spareAct_kept (.refl 2 s) (.refl _)).parts .tsk rfl

/-- A takeover in one expression: registers, event and entry, status. -/
theorem execTakeover_eq {s : State} {k : Takeover} (some_ : s.tsk.tko = some k) (up : s.tsk.up = true) (due : k.resumes ≤ s.six)
    (base : s.six % 100 = 0) (closed : s.outputsOpen = false) (snap : s.snapDue = false) : ∃ d, execTakeover s = .next
      ((((s.loadSpare k).tkoDone k).tkoSignalled d).spareAct 0).gooseStatus := by
  have now : (s.tsk.up && decide (k.resumes ≤ s.six) && s.six % baseCycle == 0 && !s.outputsOpen && !s.snapDue) = true := by
    rw [up, closed, snap, decide_eq_true due, show s.six % baseCycle = 0 from base]
    rfl
  unfold execTakeover
  rw [some_]
  dsimp only
  rw [if_pos now]
  exact ⟨_, rfl⟩

end

/-! ### The Pantry takes its snapshot (R200) -/

section
variable (s : State)

theorem State.byteAt_pushCap (c : RplCap) {sp : Nat} (x : Nat) (h : sp ≠ spDRAM) : (s.pushCap c).byteAt sp x = s.byteAt sp x := by
  have mem : (s.pushCap c).mem = (s.companion 0x3C8000000 rplRing s.lft.rplPos (capBytes c)).mem := by
    unfold State.pushCap
    dsimp only
    split <;> rfl
  rw [State.byteAt_congr mem]
  unfold State.companion
  dsimp only
  rw [State.byteAt_storeBytes_outside _ fun inside => h inside.1, State.byteAt_storeBytes_outside _ fun inside => h inside.1]
  exact State.byteAt_congr rfl sp x

theorem State.byteAt_captureNouns {sp : Nat} (x : Nat) (h : sp ≠ spDRAM) : s.captureNouns.byteAt sp x = s.byteAt sp x := by
  have parts : ∀ (l : List Partition) (t : State), (l.foldl (fun u p => if u.captures p.part then u.pushCap (.nouns u.six p.part (u.mirrorBody p))
      else u) t).byteAt sp x = t.byteAt sp x := by
    intro l
    induction l with
    | nil => intro t; rfl
    | cons p l ih =>
      intro t
      rw [List.foldl_cons, ih]
      split
      · exact State.byteAt_pushCap _ _ _ h
      · rfl
  unfold State.captureNouns
  split
  · split
    · exact parts _ _
    · rfl
  · rfl

/-- A slot whose first word is 0 holds no complete snapshot. -/
theorem State.panAt_none {n : Nat} (h : ∀ i, i < 4 → s.byteAt spMRAM (panBase n + i) = 0) : s.panAt n = none := by
  have magic : s.loadNat spMRAM (panBase n + 0) 4 ≠ panMagic := by
    have zero : s.loadBytes spMRAM (panBase n + 0) 4 = List.replicate 4 0 :=
      List.map_eq_replicate_iff.mpr fun i inside => h i (List.mem_range.mp inside)
    unfold State.loadNat
    rw [zero]
    decide
  exact if_neg fun all => magic all.1

theorem State.panRegs_mem : s.panRegs.mem = s.mem := (State.panRegs_kept (.refl 2 s) (.refl _)).parts .mem rfl

theorem State.byteAt_setPan_none {n i : Nat} (h : i < 64) : (s.setPan n none).byteAt spMRAM (panBase n + i) = 0 := by
  unfold State.setPan
  rw [State.byteAt_congr (State.panRegs_mem _)]
  exact State.byteAt_storeBytes_inside _ (List.getElem?_replicate_of_lt h)

/-- The snapshot is taken, its slot blank, and channel 4 runs. -/
theorem execPantrySnapshot_eq {s : State} (due : s.snapDue = true) (closed : s.outputsOpen = false) : execPantrySnapshot s = .next
    (((s.withTsk { s.tsk with panWriting := some (s.nextSnap s.six false), panSix := some s.six }).setPan
      (s.nextSnap s.six false).1 none).dmaShow 4 1).captureNouns :=
  if_pos (by rw [due, closed]; rfl)

theorem State.captureNouns_rest : s.captureNouns.tsk = s.tsk ∧ s.captureNouns.regs = s.regs :=
  have kept := State.captureNouns_kept (.refl 526337 s) (.refl _)
  ⟨kept.parts .tsk rfl, kept.parts .regs rfl⟩

theorem State.snapTaken_tsk (x : TskSt) (n : Nat) : (((s.withTsk x).setPan n none).dmaShow 4 1).captureNouns.tsk = x := by
  rw [(State.captureNouns_rest _).1, (State.dmaShow_kept (.refl 16777226 _) (.refl _)).parts .tsk rfl]
  exact (State.setPan_kept (.refl 2050 (s.withTsk x)) (.refl _)).parts .tsk rfl

end

/-- Settles O39, by what the lanes' registers keep from each step of a failure and of a takeover. -/
theorem laneFailureAndTakeover : Obligations.LaneFailureAndTakeover := by
  intro s ln sp cause addr k q part
  have lane : ln.val < 4 := ln.isLt
  have code : cause.val + 1 < 16 := by omega
  obtain ⟨t, eq, regs, tsk, olc, clk⟩ := execLaneFail_eq s ln ⟨cause, addr⟩
  have state : ∀ f : Field, f.addr = A.LNE_L_STATE ln → t.get f = s.get f := fun f at_ =>
    State.get_congr (regs _ (by rw [at_]; simp only [A.LNE_L_STATE, A.MPU_EVT]; omega))
  have spare : t.spareLane = s.spareLane := State.spareLane_congr fun m small => regs _ (by simp only [A.LNE_L_STATE, A.MPU_EVT]; omega)
  have six : t.six = s.six := congrArg Clk.six clk
  refine ⟨fun role => ?_, fun role found runs free noReplay noChange => ?_, fun some_ up due base closed snap sp_ failed p_ => ?_,
    fun due closed => ?_⟩
  · refine ⟨_, eq, ?_⟩
    rcases role with role | role
    · have service : t.get (F.LNE_L_STATE.ROLE ln) = 1 := (state _ rfl).trans role
      have shown := t.laneFail_service_failed service lane code
      refine ⟨shown.role, shown.cause, shown.event, six ▸ shown.at_, fun r => ?_, fun _ none_ => ?_⟩
      · rw [role] at r
        cases r
      · rw [t.laneFail_service service, State.get_congr (State.rd_gooseStatus _ (show A.PWR_STATE < A.ETH_C_STAT 0 by decide))]
        exact State.startTakeover_noSpare _ _ _ ((t.laneDown_rest _ _ service code).2.2.2.trans (spare.trans none_))
    · obtain ⟨shown, noSpare⟩ := t.laneFail_spare_failed ((state _ rfl).trans role) lane code
      refine ⟨shown.role, shown.cause, shown.event, six ▸ shown.at_, fun _ => noSpare, fun r => ?_⟩
      rw [role] at r
      cases r
  · have service : t.get (F.LNE_L_STATE.ROLE ln) = 1 := (state _ rfl).trans role
    obtain ⟨downTsk, downOlc, downClk, downSpare⟩ := t.laneDown_rest _ _ service code
    have here : t.get (F.LNE_L_STATE.PART ln) = part := state _ rfl
    obtain ⟨v, hv⟩ : ∃ v, v = (t.laneRecord ln (cause + 1)).laneDown ln (cause + 1) := ⟨_, rfl⟩
    have fails : t.laneFail ln (cause + 1) = (v.startTakeover ln part).gooseStatus := by rw [t.laneFail_service service, here, hv]
    obtain ⟨taken, loads, lost, tko⟩ := State.startTakeover_spare (n := ln) (p := part) (hv ▸ downSpare.trans (spare.trans found))
      (by rw [State.runningPart, hv, downTsk, tsk]; exact runs) (by rw [hv, downTsk, tsk, free]) (by rw [hv, downOlc, olc, noReplay])
      (by rw [hv, downOlc, olc, noChange])
    refine ⟨_, eq, ?_, ?_, ?_⟩
    · rw [fails, State.get_congr (State.rd_gooseStatus _ (show A.LNE_L_STATE sp < A.ETH_C_STAT 0 by simp only [A.LNE_L_STATE, A.ETH_C_STAT]; omega))]
      exact taken
    · rw [fails, State.get_congr (State.rd_gooseStatus _ (show A.DMA_C_STAT 3 < A.ETH_C_STAT 0 by decide))]
      exact loads
    · rw [fails, State.gooseStatus_tsk, tko, show v.six = s.six from congrArg Clk.six (hv ▸ downClk.trans clk)]
      rfl
  · obtain ⟨d, eq⟩ := execTakeover_eq some_ up due base closed snap
    have six : (s.loadSpare k).six = s.six := congrArg Clk.six ((State.loadSpare_kept (.refl 6144 s) (.refl _)).parts .clk rfl)
    obtain ⟨v, hv⟩ : ∃ v, v = (s.loadSpare k).tkoDone k := ⟨_, rfl⟩
    have took : v.TookOver k s.six := by rw [hv, ← six]; exact State.tkoDone_tookOver _ k failed sp_ p_
    rw [← hv] at eq
    have kept : ∀ a, a ≠ A.LNE_EVT → a ≠ A.LNE_STATUS → a < A.TSK_T_STAT 0 → (((v.tkoSignalled d).spareAct 0).gooseStatus).rd a = v.rd a := by
      intro a evt stat low
      rw [State.rd_gooseStatus _ (by simp only [A.TSK_T_STAT, A.ETH_C_STAT] at low ⊢; omega), State.rd_spareAct _ _ stat,
        State.rd_tkoSignalled _ _ evt low]
    have shown := took.mono (kept _ (by simp only [A.LNE_L_STATE, A.LNE_EVT]; omega) (by simp only [A.LNE_L_STATE, A.LNE_STATUS]; omega)
      (by simp only [A.LNE_L_STATE, A.TSK_T_STAT]; omega)) (kept _ (by decide) (by decide) (by decide)) (kept _ (by decide) (by decide) (by decide))
      (kept _ (by decide) (by decide) (by decide))
    refine ⟨_, eq, ?_, shown.role, shown.part, shown.from_, shown.goesTo, shown.at_, ?_⟩
    · rw [State.gooseStatus_tsk, State.spareAct_tsk, State.tkoSignalled_tsk, hv, State.tkoDone_tko]
    · rw [State.flag_congr (State.rd_gooseStatus _ (show A.LNE_EVT < A.ETH_C_STAT 0 by decide)),
        State.flag_congr (State.rd_spareAct _ _ (show A.LNE_EVT ≠ A.LNE_STATUS by decide))]
      exact State.flag_tkoSignalled _ _
  · refine ⟨_, execPantrySnapshot_eq due closed, ?_, ?_, State.panAt_none _ fun i inside => ?_, ?_⟩
    · rw [State.snapTaken_tsk]
    · rw [State.snapTaken_tsk]
    · rw [State.byteAt_captureNouns _ _ (by decide), State.byteAt_congr ((State.dmaShow_kept (.refl 16777226 _) (.refl _)).parts .mem rfl)]
      exact State.byteAt_setPan_none _ (by omega)
    · rw [State.get_congr (State.rd_congr (State.captureNouns_rest _).2 _)]
      exact State.get_dmaShow _ _ _ (by decide)

end Sys2Proof.Machine
end

section
/-!
PROOFS. DMA transfers (R213 to R217), on a descriptor that is shorter than a beat.
-/
namespace Sys2Proof.Machine
open Sys2Proof

/-- A descriptor of one byte, from common SRAM at 0 to DRAM at 0, the only one of its chain. -/
def shortDesc : Desc := ⟨0, spSRAM + 16 * spDRAM, 1, 0, 0, 0, 0⟩

/-- Channel 8 runs the short descriptor; the byte at its source is 7. -/
def shortState : State :=
  (({ State.reset with dma := [(8, ⟨some shortDesc, 0, []⟩)] } : State).storeBytes spSRAM 0 [7]).set (F.DMA_C_STAT.STATE 8) 1

/-- The state meets what the statement asks of a descriptor that ends. -/
theorem shortState_runs : shortState.get (F.DMA_C_STAT.STATE 8) = 1 ∧ (shortState.dmaAt 8).desc = some shortDesc ∧
    shortDesc.chain = false ∧ shortDesc.tag = false ∧ shortDesc.srcSp ≠ shortDesc.dstSp := by
  decide +kernel

/-- No whole beat fits the descriptor, so its end copies nothing. -/
theorem dmaDescriptorDone_shortState : seen (exec (.dmaDescriptorDone 8 ⟨true, shortDesc⟩) shortState)
    (State.byteAt · shortDesc.dstSp (shortDesc.dst + 0)) = some 0 ∧ shortState.byteAt shortDesc.srcSp (shortDesc.src + 0) = 7 := by
  decide +kernel

/-- Refutes O40: the statement asks nothing of the length of a descriptor in a channel. Where LEN is 1, no multiple of 64 (R216 lets no such
descriptor start), the descriptor ends without a beat, and the byte at DST is not that at SRC. -/
theorem not_dmaTransfers : ¬ Obligations.DmaTransfers := by
  intro holds
  obtain ⟨-, -, ends, -⟩ := holds shortState 0 0 8 0 shortDesc shortDesc 0 0 true
  obtain ⟨state, desc, last, plain, other⟩ := shortState_runs
  obtain ⟨blank, source⟩ := dmaDescriptorDone_shortState
  obtain ⟨t, ran, -, -, -, copied, -⟩ := ends state desc last plain fun same => absurd same other
  have zero : t.byteAt shortDesc.dstSp (shortDesc.dst + 0) = 0 := read_of_seen blank ran
  have seven := copied 0 (by decide)
  rw [zero, source] at seven
  exact absurd seven (by decide)

end Sys2Proof.Machine
end

section
/-!
PROOFS. What fields and 64-bit registers read after the operations that many families share (R10, R288, R376).
-/
namespace Sys2Proof.Machine
open Sys2Proof

/-! ### Fields -/

section
variable (s : State) {f g : Field}

theorem State.get_log (c v : Nat) (d : List Byte) (h : g.addr ≠ A.CEL_DROP) (e : g.addr ≠ A.CEL_EVT) : (s.log c v d).get g = s.get g :=
  State.get_congr (s.rd_log c v d h e)

theorem State.get_logNamed (m : String) (d : List Byte) (h : g.addr ≠ A.CEL_DROP) (e : g.addr ≠ A.CEL_EVT) :
    (s.logNamed m d).get g = s.get g := State.get_congr (s.rd_logNamed m d h e)

theorem State.get_logNamedSev (m : String) (v : Nat) (d : List Byte) (h : g.addr ≠ A.CEL_DROP) (e : g.addr ≠ A.CEL_EVT) :
    (s.logNamedSev m v d).get g = s.get g := State.get_congr (s.rd_logNamedSev m v d h e)

theorem State.get_set64_ne {a : Nat} (v : Nat) (h : g.addr ≠ a) (e : g.addr ≠ a + 4) : (s.set64 a v).get g = s.get g :=
  State.get_congr (s.rd_set64_ne v h e)

theorem State.get_wr_ne {a : Nat} (w : Word) (h : g.addr ≠ a) : (s.wr a w).get g = s.get g := State.get_congr (s.rd_wr_ne w h)

theorem State.get_bump_ne (h : g.addr ≠ f.addr) : (s.bump f).get g = s.get g := State.get_congr (s.rd_bump_ne h)

theorem State.get_bump_apart (h : f.lo + f.width ≤ 32) (d : g.lo + g.width ≤ f.lo ∨ f.lo + f.width ≤ g.lo) : (s.bump f).get g = s.get g :=
  s.get_set_apart _ h d

theorem State.get_bump (h : f.lo + f.width ≤ 32) : (s.bump f).get f = min (s.get f + 1) (2 ^ f.width - 1) := s.get_bumpBy_same f 1 h

/-- A flag is a field that is not 0. -/
theorem State.flag_eq (s : State) (f : Field) : s.flag f = (s.get f != 0) := rfl

theorem State.flag_of_get {t : State} (h : t.get f = s.get f) : t.flag f = s.flag f := by rw [State.flag_eq, State.flag_eq, h]

theorem State.flag_of_one (h : s.get f = 1) : s.flag f = true := by rw [State.flag_eq, h]; rfl

theorem State.flag_of_zero (h : s.get f = 0) : s.flag f = false := by rw [State.flag_eq, h]; rfl

theorem State.get_of_flag (small : f.width = 1) (h : s.flag f = true) : s.get f = 1 := by
  have lt : s.get f < 2 ^ f.width := fieldOf_lt _ _ _
  rw [small] at lt
  rw [State.flag_eq, bne_iff_ne] at h
  omega

theorem State.get_raise (h : f.lo + f.width ≤ 32) : (s.raise f).get f = 1 % 2 ^ f.width :=
  (State.get_congr (State.rd_congr (s.raise_regs f) _)).trans (s.get_set_same f 1 h)

end

/-! ### 64-bit registers -/

section
variable (s : State) {a : Nat} {f : Field}

theorem State.get64_congr {t : State} (low : t.rd a = s.rd a) (high : t.rd (a + 4) = s.rd (a + 4)) : t.get64 a = s.get64 a := by
  unfold State.get64
  rw [low, high]

theorem State.get64_log (c v : Nat) (d : List Byte) (h : a ≠ A.CEL_DROP) (h' : a + 4 ≠ A.CEL_DROP) (e : a ≠ A.CEL_EVT)
    (e' : a + 4 ≠ A.CEL_EVT) : (s.log c v d).get64 a = s.get64 a := s.get64_congr (s.rd_log c v d h e) (s.rd_log c v d h' e')

theorem State.get64_logNamed (m : String) (d : List Byte) (h : a ≠ A.CEL_DROP) (h' : a + 4 ≠ A.CEL_DROP) (e : a ≠ A.CEL_EVT)
    (e' : a + 4 ≠ A.CEL_EVT) : (s.logNamed m d).get64 a = s.get64 a := s.get64_congr (s.rd_logNamed m d h e) (s.rd_logNamed m d h' e')

theorem State.get64_wr_ne {b : Nat} (w : Word) (h : a ≠ b) (h' : a + 4 ≠ b) : (s.wr b w).get64 a = s.get64 a :=
  s.get64_congr (s.rd_wr_ne w h) (s.rd_wr_ne w h')

theorem State.get64_set64_ne {b : Nat} (v : Nat) (h : a ≠ b) (h' : a ≠ b + 4) (e : a + 4 ≠ b) : (s.set64 b v).get64 a = s.get64 a :=
  s.get64_congr (s.rd_set64_ne v h h') (s.rd_set64_ne v e (by omega))

theorem State.get64_bump_ne (h : a ≠ f.addr) (h' : a + 4 ≠ f.addr) : (s.bump f).get64 a = s.get64 a :=
  s.get64_congr (s.rd_bump_ne h) (s.rd_bump_ne h')

end

/-! ### Behind the access check -/

section
variable (s : State) (pf reg : Nat) (w : Word) (right : Option Nat)

theorem State.get_checked {f : Field} (low : A.ENG_EVT < f.addr % 0x1000000) (h : f.addr ≠ A.CEL_DROP) (g : f.addr ≠ A.CEL_EVT) :
    (s.checked pf reg w right).get f = s.get f := State.get_congr (s.rd_checked pf reg w right low h g)

theorem State.flag_checked {f : Field} (low : A.ENG_EVT < f.addr % 0x1000000) (h : f.addr ≠ A.CEL_DROP) (g : f.addr ≠ A.CEL_EVT) :
    (s.checked pf reg w right).flag f = s.flag f := s.flag_of_get (s.get_checked pf reg w right low h g)

theorem State.get64_checked {a : Nat} (low : A.ENG_EVT < a % 0x1000000) (low' : A.ENG_EVT < (a + 4) % 0x1000000) (h : a ≠ A.CEL_DROP)
    (h' : a + 4 ≠ A.CEL_DROP) (g : a ≠ A.CEL_EVT) (g' : a + 4 ≠ A.CEL_EVT) : (s.checked pf reg w right).get64 a = s.get64 a :=
  s.get64_congr (s.rd_checked pf reg w right low h g) (s.rd_checked pf reg w right low' h' g')

end

end Sys2Proof.Machine
end

section
/-!
PROOFS. Time steps, holdover's end, the real-time counter and PPS_OUT (R310, R318 to R325).
-/
namespace Sys2Proof.Machine
open Sys2Proof

/-! ### The time map -/

/-- A segment that begins now is in force. -/
theorem mapAt_cons_now (m : TimeMap) (l : List TimeMap) {k : Nat} (h : m.six ≤ k) : mapAt (m :: l) k = m := by
  cases l with
  | nil => rfl
  | cons => exact if_pos h

/-! ### VALID falls (R316, R323) -/

section
variable (s : State)

/-- The time unit's own record takes a content. -/
def State.withTim (x : TimSt) : State := { s with tim := x }

theorem State.withTim_regs (x : TimSt) : (s.withTim x).regs = s.regs := rfl
theorem State.withTim_clk (x : TimSt) : (s.withTim x).clk = s.clk := rfl
theorem State.withTim_tim (x : TimSt) : (s.withTim x).tim = x := rfl

/-- VALID falls, with its event and entry. -/
def State.validFalls (cause : Nat) : State :=
  (((s.set F.TIM_STATUS.VALID 0).raise F.TIM_EVT.INVALID).log 0x0582 2 (leBytes 1 cause)).timMark.gooseStatus

theorem State.timInvalid_cases (cause : Nat) : s.timInvalid cause = s ∨
    s.timInvalid cause = s.validFalls cause ∨
    s.timInvalid cause = (s.validFalls cause).withTim { (s.validFalls cause).tim with ppsOut := false } := by
  by_cases valid : s.flag F.TIM_STATUS.VALID = true
  · by_cases mode : (s.validFalls cause).get F.TIM_CFG.PPS_MODE = 2
    · exact .inr (.inr ((if_pos valid).trans (if_pos mode)))
    · exact .inr (.inl ((if_pos valid).trans (if_neg mode)))
  · exact .inl (if_neg valid)

theorem State.timMark_regs : s.timMark.regs = s.regs := (State.timMark_kept (.refl 1 s) (.refl _)).parts .regs rfl

theorem State.validFalls_tim (cause : Nat) : (s.validFalls cause).tim = s.tim := by
  unfold State.validFalls
  rw [(State.gooseStatus_kept (.refl 16908290 _) (.refl _)).parts .tim rfl, (State.timMark_kept (.refl 1 _) (.refl _)).parts .tim rfl,
    State.log_tim, State.raise_tim, State.set_tim]

theorem State.rd_validFalls (cause : Nat) {a : Nat} (low : a < A.ETH_C_STAT 0) : (s.validFalls cause).rd a =
    (((s.set F.TIM_STATUS.VALID 0).raise F.TIM_EVT.INVALID).log 0x0582 2 (leBytes 1 cause)).rd a := by
  unfold State.validFalls
  rw [State.rd_gooseStatus _ low, State.rd_congr (State.timMark_regs _)]

/-- What waits and what the servo measured last stay. -/
theorem State.timInvalid_tim (cause : Nat) : (s.timInvalid cause).tim.steps = s.tim.steps ∧ (s.timInvalid cause).tim.latest = s.tim.latest := by
  obtain eq | eq | eq := s.timInvalid_cases cause
  · rw [eq]
    exact ⟨rfl, rfl⟩
  · rw [eq, State.validFalls_tim]
    exact ⟨rfl, rfl⟩
  · rw [eq, State.withTim_tim, State.validFalls_tim]
    exact ⟨rfl, rfl⟩

/-- Where VALID stood it falls with its event, and the state of the unit stays. -/
theorem State.timInvalid_shows (cause : Nat) (h : s.flag F.TIM_STATUS.VALID = true) : (s.timInvalid cause).flag F.TIM_STATUS.VALID = false ∧
    (s.timInvalid cause).flag F.TIM_EVT.INVALID = true ∧ (s.timInvalid cause).timState = s.timState := by
  have regs : (s.timInvalid cause).regs = (s.validFalls cause).regs := by
    by_cases mode : (s.validFalls cause).get F.TIM_CFG.PPS_MODE = 2
    · rw [show s.timInvalid cause = (s.validFalls cause).withTim { (s.validFalls cause).tim with ppsOut := false } from
        (if_pos h).trans (if_pos mode), State.withTim_regs]
    · rw [show s.timInvalid cause = s.validFalls cause from (if_pos h).trans (if_neg mode)]
  have reads : ∀ f : Field, f.addr < A.ETH_C_STAT 0 → f.addr ≠ A.CEL_DROP → f.addr ≠ A.CEL_EVT →
      (s.timInvalid cause).get f = ((s.set F.TIM_STATUS.VALID 0).raise F.TIM_EVT.INVALID).get f := fun f low drop evt =>
    (State.get_congr (State.rd_congr regs _)).trans ((State.get_congr (s.rd_validFalls cause low)).trans (State.get_log _ _ _ _ drop evt))
  refine ⟨State.flag_of_zero _ ?_, State.flag_of_one _ ?_, ?_⟩
  · rw [reads _ (by decide) (by decide) (by decide), State.get_raise_ne _ (by decide), State.get_set_same _ _ _ (by decide)]
    rfl
  · rw [reads _ (by decide) (by decide) (by decide), State.get_raise _ (by decide)]
    rfl
  · unfold State.timState
    rw [reads _ (by decide) (by decide) (by decide), State.get_raise_ne _ (by decide), State.get_set_apart _ _ (by decide) (by decide)]

end

/-! ### A step applies (R310) -/

section
variable (s : State)

theorem State.timEnter_tim (st : Nat) : (s.timEnter st).tim.steps = s.tim.steps ∧ (s.timEnter st).tim.latest = s.tim.latest := by
  have enters : ∀ t : State, ((t.set F.TIM_STATUS.STATE st).timPend).tim = t.tim := fun t =>
    ((State.timPend_kept (.refl 2 _) (.refl _)).parts .tim rfl).trans (State.set_tim _ _ _)
  unfold State.timEnter
  dsimp only
  rw [enters]
  split
  · exact ⟨rfl, rfl⟩
  · exact ⟨rfl, rfl⟩

/-- Entering ACQUIRING keeps what waits and the SIX. -/
theorem State.enterAcq_rest : s.enterAcq.tim.steps = s.tim.steps ∧ s.enterAcq.six = s.six := by
  have entered : s.enterAcq = ((s.timEnter stAcq).timInvalid 3).withTim { ((s.timEnter stAcq).timInvalid 3).tim with
      base := none, outs := [], near := 0, far := 0 } := rfl
  constructor
  · rw [entered, State.withTim_tim]
    exact ((State.timInvalid_tim _ _).1).trans (s.timEnter_tim _).1
  · rw [entered]
    refine (congrArg Clk.six (State.withTim_clk _ _)).trans ?_
    have clk : (s.timEnter stAcq).clk = s.clk := (State.timEnter_kept (.refl 8388610 s) (.refl _)).parts .clk rfl
    have six : ∀ t : State, (t.timInvalid 3).six = t.six := by
      intro t
      have falls : (t.validFalls 3).six = t.six := by
        have marked : ∀ u : State, u.timMark.six = u.six := by
          intro u
          unfold State.timMark
          dsimp only
          split <;> rfl
        have goose : ∀ u : State, u.gooseStatus.six = u.six := fun u =>
          congrArg Clk.six ((State.gooseStatus_kept (.refl 16908290 u) (.refl _)).parts .clk rfl)
        unfold State.validFalls
        rw [goose, marked]
        exact congrArg Clk.six ((State.log_clk _ _ _ _).trans ((State.raise_clk _ _).trans (State.set_clk _ _ _)))
      obtain eq | eq | eq := t.timInvalid_cases 3
      · rw [eq]
      · rw [eq, falls]
      · rw [eq]
        exact (congrArg Clk.six (State.withTim_clk _ _)).trans falls
    exact (six _).trans (congrArg Clk.six clk)

/-- The clock takes a segment of the time map. -/
def State.withMap (m : TimeMap) : State := { s with clk := { s.clk with maps := m :: s.clk.maps } }

theorem State.withMap_regs (m : TimeMap) : (s.withMap m).regs = s.regs := rfl
theorem State.withMap_tim (m : TimeMap) : (s.withMap m).tim = s.tim := rfl
theorem State.withMap_maps (m : TimeMap) : (s.withMap m).clk.maps = m :: s.clk.maps := rfl
theorem State.withMap_six (m : TimeMap) : (s.withMap m).six = s.six := rfl

/-- The registers, event and entry of a step. -/
def State.stepShown (off size : Int) (ep cause : Nat) : State :=
  ((((s.set F.TIM_STATUS.EPOCH ep).set64 A.TIM_OFFSET (unsigned 64 off)).bump F.TIM_CNT.STEPS).raise F.TIM_EVT.STEP).log 0x0583 2
    (sBytes 8 size ++ leBytes 2 ep ++ leBytes 1 cause)

theorem State.stepShown_clk (off size : Int) (ep cause : Nat) : (s.stepShown off size ep cause).clk = s.clk := by
  unfold State.stepShown
  rw [State.log_clk, State.raise_clk, State.bump_clk, State.set64_clk, State.set_clk]

theorem State.stepShown_tim (off size : Int) (ep cause : Nat) : (s.stepShown off size ep cause).tim = s.tim := by
  unfold State.stepShown
  rw [State.log_tim, State.raise_tim, State.bump_tim, State.set64_tim, State.set_tim]

theorem State.stepShown_shows (off size : Int) {ep : Nat} (small : ep < 65536) (cause : Nat) :
    (s.stepShown off size ep cause).get F.TIM_STATUS.EPOCH = ep ∧ (s.stepShown off size ep cause).get F.TIM_EVT.STEP = 1 := by
  unfold State.stepShown
  constructor
  · rw [State.get_log _ _ _ _ (by decide) (by decide), State.get_raise_ne _ (by decide), State.get_bump_ne _ (by decide),
      State.get_set64_ne _ _ (by decide) (by decide), State.get_set_same _ _ _ (by decide)]
    exact Nat.mod_eq_of_lt small
  · rw [State.get_log _ _ _ _ (by decide) (by decide), State.get_raise _ (by decide)]
    rfl

/-- What the unit waits to apply, and the SIX of the last step. -/
def TimSt.stepping (x : TimSt) : List StepReq × Option Nat := (x.steps, x.stepSix)

theorem State.rtcWrite_stepping : s.rtcWrite.tim.stepping = s.tim.stepping := rfl

/-- What follows a step: the contexts settle, the Loft notes it, the real-time counter takes it. -/
def State.stepFollows (e : LftEvent) (valid : Bool) : State :=
  if valid then (s.stepSettles.lftEvent e).rtcWrite else s.stepSettles.lftEvent e

theorem State.stepFollows_keeps (e : LftEvent) (valid : Bool) : (s.stepFollows e valid).regs = s.regs ∧ (s.stepFollows e valid).clk = s.clk ∧
    (s.stepFollows e valid).tim.stepping = s.tim.stepping := by
  have kept := State.lftEvent_kept (x1 := e) (State.stepSettles_kept (.refl (524288 ||| 128) s) (.of (by exact .refl _) (by decide)))
    (.of (by exact .refl _) (by decide))
  have tim : (s.stepSettles.lftEvent e).tim = s.tim := kept.parts .tim rfl
  unfold State.stepFollows
  split
  · exact ⟨kept.parts .regs rfl, kept.parts .clk rfl, by rw [State.rtcWrite_stepping, tim]⟩
  · exact ⟨kept.parts .regs rfl, kept.parts .clk rfl, by rw [tim]⟩

/-- What a step that applies shows: its epoch and offset in force, its SIX, its event; nothing else joins what waits. -/
structure State.Stepped (size : Int) (u : State) : Prop where
  epoch : u.epoch = (s.epoch + 1) % 65536
  offset : u.offset = signed 64 (unsigned 64 (s.offset + size))
  shown : u.get F.TIM_STATUS.EPOCH = (s.epoch + 1) % 65536
  event : u.get F.TIM_EVT.STEP = 1
  stepping : u.tim.stepping = (s.tim.steps, some s.six)

/-- The state in which a step applies: ACQUIRING, but for a step of the host without a source. -/
def State.stepFrom (free : Bool) : State := if free then s else s.enterAcq

theorem State.stepFrom_rest (free : Bool) : (s.stepFrom free).tim.steps = s.tim.steps ∧ (s.stepFrom free).six = s.six := by
  unfold State.stepFrom
  split
  · exact ⟨rfl, rfl⟩
  · exact s.enterAcq_rest

/-- The state with the step's SIX and size noted. -/
def State.stepNoted (free : Bool) (size : Int) : State :=
  (s.stepFrom free).withTim { (s.stepFrom free).tim with
    takeNext := if free then (s.stepFrom free).tim.takeNext else true, stepSix := some (s.stepFrom free).six, stepSize := size }

theorem State.applyStep_eq (size : Int) (cause : Nat) : ∃ (free traced : Bool) (e : LftEvent), s.applyStep size cause =
    ((((s.stepNoted free size).withMap ⟨(s.stepNoted free size).six, signed 64 (unsigned 64 (s.offset + size)), (s.epoch + 1) % 65536, traced⟩).stepShown
      (signed 64 (unsigned 64 (s.offset + size))) size ((s.epoch + 1) % 65536) cause).stepFollows e (s.flag F.TIM_STATUS.VALID)) := by
  by_cases free : cause = 3 ∧ s.get F.TIM_CFG.SRC = 0 ∧ s.get F.TIM_CFG.BACKUP = 0
  · refine ⟨true, (s.stepNoted true size).flag F.TIM_STATUS.EVER_LOCKED && (s.stepNoted true size).flag F.TIM_STATUS.VALID, ?_⟩
    unfold State.applyStep
    simp only [if_pos free]
    exact ⟨_, rfl⟩
  · refine ⟨false, (s.stepNoted false size).flag F.TIM_STATUS.EVER_LOCKED && (s.stepNoted false size).flag F.TIM_STATUS.VALID, ?_⟩
    unfold State.applyStep
    simp only [if_neg free]
    exact ⟨_, rfl⟩

theorem State.applyStep_stepped (size : Int) (cause : Nat) : s.Stepped size (s.applyStep size cause) := by
  obtain ⟨free, traced, e, eq⟩ := s.applyStep_eq size cause
  obtain ⟨steps, six⟩ := s.stepFrom_rest free
  obtain ⟨v, hv⟩ : ∃ v, v = s.stepNoted free size := ⟨_, rfl⟩
  have vsix : v.six = s.six := by rw [hv]; exact (congrArg Clk.six (State.withTim_clk _ _)).trans six
  have vtim : v.tim.stepping = (s.tim.steps, some s.six) := by
    rw [hv, State.stepNoted, State.withTim_tim, ← steps, ← six]
    rfl
  rw [← hv] at eq
  obtain ⟨m, hm⟩ : ∃ m : TimeMap, m = ⟨v.six, signed 64 (unsigned 64 (s.offset + size)), (s.epoch + 1) % 65536, traced⟩ := ⟨_, rfl⟩
  have msix : m.six = v.six := by rw [hm]
  rw [← hm] at eq
  obtain ⟨w, hw⟩ : ∃ w, w = (v.withMap m).stepShown (signed 64 (unsigned 64 (s.offset + size))) size ((s.epoch + 1) % 65536) cause := ⟨_, rfl⟩
  rw [← hw] at eq
  obtain ⟨regs, clk, tim⟩ := w.stepFollows_keeps e (s.flag F.TIM_STATUS.VALID)
  obtain ⟨epoch, event⟩ := (v.withMap m).stepShown_shows (signed 64 (unsigned 64 (s.offset + size))) size
    (Nat.mod_lt (s.epoch + 1) (by decide)) cause
  have now : mapAt (s.applyStep size cause).clk.maps (s.applyStep size cause).six = m := by
    have wclk : w.clk = (v.withMap m).clk := by rw [hw, State.stepShown_clk]
    have maps : (s.applyStep size cause).clk = (v.withMap m).clk := by rw [eq, clk, wclk]
    unfold State.six
    rw [maps, State.withMap_maps]
    exact mapAt_cons_now m _ (by rw [msix]; exact le_of_eq (State.withMap_six v m).symm)
  constructor
  · unfold State.epoch
    rw [now, hm]
    rfl
  · unfold State.offset
    rw [now, hm]
    rfl
  · rw [eq, State.get_congr (State.rd_congr regs _), hw, epoch]
  · rw [eq, State.get_congr (State.rd_congr regs _), hw, event]
  · rw [eq, tim, hw, State.stepShown_tim, State.withMap_tim, vtim]

theorem State.get_timResult {r : Nat} (h : r < 4) : (s.timResult r).get F.TIM_CTL.RESULT = r := by
  rw [State.timResult, State.get_set_same _ _ _ (by decide)]
  exact Nat.mod_eq_of_lt h

/-- RESULT changes nothing of what a step shows. -/
theorem State.Stepped.timResult {size : Int} {u : State} (h : s.Stepped size u) (r : Nat) : s.Stepped size (u.timResult r) where
  epoch := h.epoch
  offset := h.offset
  shown := (State.get_set_ne _ _ (show A.TIM_STATUS ≠ A.TIM_CTL by decide)).trans h.shown
  event := (State.get_set_ne _ _ (show A.TIM_EVT ≠ A.TIM_CTL by decide)).trans h.event
  stepping := h.stepping

/-- A step of the waiting list's front, each cause in turn. -/
theorem execTimeStep_runs {r : StepReq} (wait : s.tim.steps = [r]) (slew : r.cause = 2 → s.timState = stSlew) (past : r.at_ < s.six)
    (once : s.tim.stepSix ≠ some s.six) : ∃ u, execTimeStep s = .next u ∧
      (s.withTim { s.tim with steps := [] }).Stepped (if r.cause = 2 then -s.tim.latest else r.size) u ∧
      (r.cause = 2 ∨ r.cause = 3 → u.get F.TIM_CTL.RESULT = 1) := by
  obtain ⟨v, hv⟩ : ∃ v, v = s.withTim { s.tim with steps := [] } := ⟨_, rfl⟩
  have now : r.at_ < s.six ∧ s.tim.stepSix ≠ some s.six := ⟨past, once⟩
  have run : execTimeStep s = if r.cause = 2 then
      (if v.timState = stSlew then .next ((v.applyStep (-v.tim.latest) 2).timResult 1) else .next (v.timResult 2))
      else if r.cause = 3 then .next ((v.applyStep r.size 3).timResult 1) else .next (v.applyStep r.size r.cause) := by
    unfold execTimeStep
    rw [wait]
    dsimp only
    rw [if_pos now, hv]
    rfl
  rw [run, ← hv]
  by_cases two : r.cause = 2
  · have state : v.timState = stSlew := by rw [hv]; exact slew two
    have latest : v.tim.latest = s.tim.latest := by rw [hv]; rfl
    rw [if_pos two, if_pos two, if_pos state, latest]
    exact ⟨_, rfl, (v.applyStep_stepped _ 2).timResult v 1, fun _ => State.get_timResult _ (by decide)⟩
  · rw [if_neg two, if_neg two]
    by_cases three : r.cause = 3
    · rw [if_pos three]
      exact ⟨_, rfl, (v.applyStep_stepped _ 3).timResult v 1, fun _ => State.get_timResult _ (by decide)⟩
    · rw [if_neg three]
      exact ⟨_, rfl, v.applyStep_stepped _ _, fun either => (either.elim two three).elim⟩

end

/-! ### The host's kicks (R318 to R322) -/

section
variable (s : State)

theorem State.stepAsk_steps (size : Int) (cause r : Nat) : ((s.stepAsk size cause).timResult r).tim.steps = s.tim.steps ++ [⟨s.six, size, cause⟩] := rfl

theorem State.stepWaits_congr {t : State} (h : t.tim = s.tim) (cause : Nat) : t.stepWaits cause = s.stepWaits cause := by
  unfold State.stepWaits
  rw [h]

theorem State.checked_timState (pf : Fin 2) (w : Word) : (s.checked pf A.TIM_CTL w (some 0)).timState = s.timState :=
  s.get_checked _ _ _ _ (by decide) (by decide) (by decide)

variable {s} {pf : Fin 2} {w : Word} (may : s.permits pf A.TIM_CTL w (some 0))
include may

theorem execAccept_slewing (kick : bit w.toNat 0 = true) (slew : s.timState = stSlew) (free : s.stepWaits 2 = false) :
    execAccept pf w s = .next (((s.checked pf A.TIM_CTL w (some 0)).stepAsk 0 2).timResult 3) := by
  have state := (s.checked_timState pf w).trans slew
  have waits : (s.checked pf A.TIM_CTL w (some 0)).stepWaits 2 = false := (s.stepWaits_congr (State.checked_tim _ _ _ _ _) 2).trans free
  refine congrArg Host.Outcome.next ((whenAllowed_acts s pf _ w _ may rfl).trans ?_)
  rw [kick, waits, if_neg (by decide), if_pos state]

theorem execAccept_waiting (waits : s.stepWaits 2 = true) : execAccept pf w s = .next (s.checked pf A.TIM_CTL w (some 0)) := by
  have still : (s.checked pf A.TIM_CTL w (some 0)).stepWaits 2 = true := (s.stepWaits_congr (State.checked_tim _ _ _ _ _) 2).trans waits
  refine congrArg Host.Outcome.next ((whenAllowed_acts s pf _ w _ may rfl).trans ?_)
  rw [still, Bool.or_true, if_pos rfl]

theorem execAckAsym_asym (kick : bit w.toNat 1 = true) (asym : s.timState = stAsym) : execAckAsym pf w s =
    .next ((((s.checked pf A.TIM_CTL w (some 0)).log 0x0587 1 (leBytes 1 1)).onJump s.tim.latest true).timResult 1) := by
  have state := (s.checked_timState pf w).trans asym
  refine congrArg Host.Outcome.next ((whenAllowed_acts s pf _ w _ may rfl).trans ?_)
  rw [kick, if_neg (by decide), if_pos state, State.checked_tim]

theorem execHstep_asks (kick : bit w.toNat 2 = true) (free : s.stepWaits 3 = false) (source : s.get F.TIM_STATUS.SRC_ACT ≠ 1)
    (runs : s.clk.running = true) : execHstep pf w s =
      .next (((s.checked pf A.TIM_CTL w (some 0)).stepAsk (signed 64 (s.get64 A.TIM_HSTEP)) 3).timResult 3) := by
  have waits : (s.checked pf A.TIM_CTL w (some 0)).stepWaits 3 = false := (s.stepWaits_congr (State.checked_tim _ _ _ _ _) 3).trans free
  have act : (s.checked pf A.TIM_CTL w (some 0)).get F.TIM_STATUS.SRC_ACT ≠ 1 := by
    rwa [s.get_checked _ _ _ _ (by decide) (by decide) (by decide)]
  have step : (s.checked pf A.TIM_CTL w (some 0)).get64 A.TIM_HSTEP = s.get64 A.TIM_HSTEP :=
    s.get64_checked _ _ _ _ (by decide) (by decide) (by decide) (by decide) (by decide) (by decide)
  refine congrArg Host.Outcome.next ((whenAllowed_acts s pf _ w _ may rfl).trans ?_)
  rw [kick, waits, if_neg (by decide), State.checked_clk, runs, if_neg (by simpa using act), step]

end

/-- Settles O52, by what a step that applies shows (`applyStep_stepped`) and by one equation for each kick of the host. -/
theorem timeStepsAndOutputs : Obligations.TimeStepsAndOutputs := by
  intro s pf w r
  refine ⟨fun may => ⟨fun kick slew => ⟨fun free => ?_, fun waits => ?_⟩, fun kick asym => execAckAsym_asym may kick asym,
    fun kick free source runs => ?_⟩, fun wait slew past once => ?_, fun hold late valid => ?_, fun valid due => ?_, fun second mode => ?_⟩
  · refine ⟨_, execAccept_slewing may kick slew free, ?_, State.get_timResult _ (by decide)⟩
    rw [State.stepAsk_steps, State.checked_tim, State.checked_six]
  · exact ⟨_, execAccept_waiting may waits, by rw [State.checked_tim]⟩
  · refine ⟨_, execHstep_asks may kick free source runs, ?_, State.get_timResult _ (by decide)⟩
    rw [State.stepAsk_steps, State.checked_tim, State.checked_six]
  · obtain ⟨u, run, stepped, result⟩ := execTimeStep_runs s wait slew past once
    exact ⟨u, run, congrArg Prod.fst stepped.stepping, stepped.epoch, stepped.shown, stepped.offset, result,
      congrArg Prod.snd stepped.stepping, State.flag_of_one _ stepped.event⟩
  · have now : (s.timState = stHold ∨ s.timState = stAsym) ∧ s.tim.holdSix + s.get F.TIM_HOLD.HOLD_MAX * samplesPerSecond ≤ s.six := ⟨hold, late⟩
    obtain ⟨falls, event, state⟩ := s.timInvalid_shows 1 valid
    exact ⟨_, if_pos now, falls, event, state⟩
  · have late : s.tim.rtcSix + samplesPerSecond ≤ s.six := due
    exact ⟨_, if_pos (by rw [valid, decide_eq_true late]; rfl), rfl, rfl, rfl⟩
  · have now : (s.wholeSecond && (s.get F.TIM_CFG.PPS_MODE == 1 || (s.get F.TIM_CFG.PPS_MODE == 2 && s.flag F.TIM_STATUS.VALID))) = true := by
      rcases mode with one | ⟨two, valid⟩
      · rw [second, one]
        rfl
      · rw [second, two, valid]
        rfl
    exact ⟨_, if_pos now, rfl, rfl, rfl⟩

end Sys2Proof.Machine
end

section
/-!
PROOFS. Timed-event units, their pins and the capture inputs (R326 to R330).
-/
namespace Sys2Proof.Machine
open Sys2Proof

/-! ### Arming (R326) -/

section
variable (s : State)

/-- A unit whose settings pass is armed with RESULT 1. -/
theorem State.armUnit_armed {u : Nat} (h : s.armResult u = 1) : (s.armUnit u).flag (F.TIM_TE_CTL.ARMED u) = true ∧
    (s.armUnit u).get (F.TIM_TE_CTL.RESULT u) = 1 := by
  obtain ⟨x, eq⟩ : ∃ x, s.armUnit u = ((s.set (F.TIM_TE_CTL.RESULT u) 1).set (F.TIM_TE_CTL.ARMED u) 1).withTim x := by
    unfold State.armUnit
    dsimp only
    rw [h, if_pos rfl]
    exact ⟨_, rfl⟩
  have reads := State.withTim_regs ((s.set (F.TIM_TE_CTL.RESULT u) 1).set (F.TIM_TE_CTL.ARMED u) 1) x
  constructor
  · rw [eq, State.flag_congr (State.rd_congr reads _)]
    exact State.flag_set_one _ _ (by simp [F.TIM_TE_CTL.ARMED]) rfl
  · rw [eq, State.get_congr (State.rd_congr reads _), State.get_set_apart _ _ (by simp [F.TIM_TE_CTL.ARMED])
        (by simp [F.TIM_TE_CTL.ARMED, F.TIM_TE_CTL.RESULT]),
      State.get_set_same _ _ _ (by simp [F.TIM_TE_CTL.RESULT])]
    rfl

variable {s} {pf : Fin 2} {u : Fin 16} {w : Word} (may : s.permits pf (A.TIM_TE_CTL u) w (some 0))
include may

/-- ARM of an idle unit takes the word's settings, then arms it. -/
theorem execTeArm_idle (kick : bit w.toNat 12 = true) (idle : s.flag (F.TIM_TE_CTL.ARMED u) = false) : execTeArm pf u w s =
    .next (((s.checked pf (A.TIM_TE_CTL u) w (some 0)).wrFields (A.TIM_TE_CTL u) w).armUnit u) := by
  have still : (s.checked pf (A.TIM_TE_CTL u) w (some 0)).flag (F.TIM_TE_CTL.ARMED u) = false := by
    have low : u.val < 16 := u.isLt
    rw [s.flag_checked (f := F.TIM_TE_CTL.ARMED u) _ _ _ _ (by simp only [F.TIM_TE_CTL.ARMED, A.TIM_TE_CTL, A.ENG_EVT]; omega)
      (by simp only [F.TIM_TE_CTL.ARMED, A.TIM_TE_CTL, A.CEL_DROP]; omega) (by simp only [F.TIM_TE_CTL.ARMED, A.TIM_TE_CTL, A.CEL_EVT]; omega)]
    exact idle
  refine congrArg Host.Outcome.next ((whenAllowed_acts s pf _ w _ may rfl).trans ?_)
  have settings : (s.checked pf (A.TIM_TE_CTL u) w (some 0)).teWrite pf u w = (s.checked pf (A.TIM_TE_CTL u) w (some 0)).wrFields (A.TIM_TE_CTL u) w :=
    if_neg (by rw [still]; decide)
  rw [kick, still, settings]
  exact if_pos rfl

theorem execTeDisarm_disarms (kick : bit w.toNat 13 = true) : ∃ t : State, execTeDisarm pf u w s = .next (t.set (F.TIM_TE_CTL.ARMED u) 0) := by
  exact ⟨(s.checked pf (A.TIM_TE_CTL u) w (some 0)).teWrite pf u w,
    congrArg Host.Outcome.next ((whenAllowed_acts s pf _ w _ may rfl).trans (if_pos kick))⟩

end

/-! ### Firing (R327) -/

section
variable (s : State) {a : Nat}

theorem State.rd_tpoLevels (h : ∀ n, a ≠ A.TIM_TPO n) : s.tpoLevels.rd a = s.rd a := by
  unfold State.tpoLevels
  exact foldl_keeps (fun t : State => t.rd a) (fun t n => t.rd_set_ne (f := F.TIM_TPO.LEVEL n) _ (h n)) _ _

/-- The registers and the event of a firing, at the unit's own words. -/
def State.teFired (u : Nat) : State := ((s.bump (F.TIM_TE_STAT.FIRES u)).set64 (A.TIM_TE_DUE u) s.six).raise F.TIM_EVT.TE

theorem State.rd_teEvents (u : Nat) (low : a < A.TSK_T_STAT 0) : (s.teEvents u).rd a = (s.teFired u).rd a := by
  have drop : a ≠ A.CEL_DROP := by simp only [A.TSK_T_STAT, A.CEL_DROP] at low ⊢; omega
  have evt : a ≠ A.CEL_EVT := by simp only [A.TSK_T_STAT, A.CEL_EVT] at low ⊢; omega
  have waits : ((s.teFired u).pendEvent (fun x => x.timed.contains u) (s.teFired u).six).rd a = (s.teFired u).rd a := State.rd_pendEvent _ _ _ low
  unfold State.teEvents
  dsimp only
  split
  · exact (State.rd_logNamed _ _ _ drop evt).trans waits
  · exact waits

theorem State.rd_tePulse (u sub : Nat) (h : ∀ n, a ≠ A.TIM_TPO n) : (s.tePulse u sub).rd a = s.rd a :=
  (State.rd_tpoLevels _ h).trans rfl

/-- What a firing of a single-shot unit shows. -/
theorem execTimedEventFire_once {u : Fin 16} (armed : s.flag (F.TIM_TE_CTL.ARMED u) = true)
    (due : reached (kvGet (fun _ => 0) s.tim.targets u) (s.t64 s.six + lastCycle) = true) (single : s.get (F.TIM_TE_CTL.MODE u) ≠ 2) :
    ∃ sub, execTimedEventFire u s = .next ((if s.teLate (kvGet (fun _ => 0) s.tim.targets u)
      then ((s.teEvents u).tePulse u sub).set (F.TIM_TE_STAT.LATE u) 1 else (s.teEvents u).tePulse u sub).set (F.TIM_TE_CTL.ARMED u) 0) := by
  exact ⟨_, (if_pos (by rw [armed, due]; rfl)).trans (if_neg single)⟩

theorem State.get_teFired (u : Nat) (h : u < 16) : (s.teFired u).get64 (A.TIM_TE_DUE u) = s.six % 2 ^ 64 ∧
    (s.teFired u).get (F.TIM_TE_STAT.FIRES u) = min (s.get (F.TIM_TE_STAT.FIRES u) + 1) 65535 ∧ (s.teFired u).get F.TIM_EVT.TE = 1 := by
  unfold State.teFired
  refine ⟨?_, ?_, ?_⟩
  · rw [State.get64_raise_ne _ _ (show A.TIM_TE_DUE u ≠ A.TIM_EVT by simp only [A.TIM_TE_DUE, A.TIM_EVT]; omega)
      (show A.TIM_TE_DUE u + 4 ≠ A.TIM_EVT by simp only [A.TIM_TE_DUE, A.TIM_EVT]; omega), State.get64_set64]
  · rw [State.get_raise_ne _ (show A.TIM_TE_STAT u ≠ A.TIM_EVT by simp only [A.TIM_TE_STAT, A.TIM_EVT]; omega),
      State.get_set64_ne (g := F.TIM_TE_STAT.FIRES u) _ _ (by simp only [F.TIM_TE_STAT.FIRES, A.TIM_TE_STAT, A.TIM_TE_DUE]; omega)
        (by simp only [F.TIM_TE_STAT.FIRES, A.TIM_TE_STAT, A.TIM_TE_DUE]; omega),
      State.get_bump _ (by simp [F.TIM_TE_STAT.FIRES])]
    rfl
  · rw [State.get_raise _ (by decide)]
    rfl

/-- LATE and ARMED lie beside what a firing counts. -/
theorem State.teFired_shown {u sub : Nat} (h : u < 16) (late : Bool) (t : State)
    (ht : t = (if late then ((s.teEvents u).tePulse u sub).set (F.TIM_TE_STAT.LATE u) 1 else (s.teEvents u).tePulse u sub).set (F.TIM_TE_CTL.ARMED u) 0) :
    t.flag (F.TIM_TE_CTL.ARMED u) = false ∧ t.get64 (A.TIM_TE_DUE u) = s.six % 2 ^ 64 ∧
      t.get (F.TIM_TE_STAT.FIRES u) = min (s.get (F.TIM_TE_STAT.FIRES u) + 1) 65535 ∧ t.flag F.TIM_EVT.TE = true := by
  obtain ⟨due, fires, event⟩ := s.get_teFired u h
  have fired : ∀ a, a < A.TSK_T_STAT 0 → (∀ n, a ≠ A.TIM_TPO n) → ((s.teEvents u).tePulse u sub).rd a = (s.teFired u).rd a :=
    fun a low pins => (State.rd_tePulse _ u sub pins).trans (s.rd_teEvents u low)
  have beside : ∀ a, a ≠ A.TIM_TE_STAT u → a ≠ A.TIM_TE_CTL u → t.rd a = ((s.teEvents u).tePulse u sub).rd a := by
    intro a stat ctl
    rw [ht, State.rd_set_ne _ _ (show a ≠ (F.TIM_TE_CTL.ARMED u).addr from ctl)]
    split
    · exact State.rd_set_ne _ _ stat
    · rfl
  refine ⟨State.flag_of_zero _ ?_, ?_, ?_, State.flag_of_one _ ?_⟩
  · rw [ht, State.get_set_same _ _ _ (by simp [F.TIM_TE_CTL.ARMED])]
    rfl
  · rw [← due]
    refine State.get64_congr _ ?_ ?_
    · rw [beside _ (by simp only [A.TIM_TE_DUE, A.TIM_TE_STAT]; omega) (by simp only [A.TIM_TE_DUE, A.TIM_TE_CTL]; omega),
        fired _ (by simp only [A.TIM_TE_DUE, A.TSK_T_STAT]; omega) (fun n => by simp only [A.TIM_TE_DUE, A.TIM_TPO]; omega)]
    · rw [beside _ (by simp only [A.TIM_TE_DUE, A.TIM_TE_STAT]; omega) (by simp only [A.TIM_TE_DUE, A.TIM_TE_CTL]; omega),
        fired _ (by simp only [A.TIM_TE_DUE, A.TSK_T_STAT]; omega) (fun n => by simp only [A.TIM_TE_DUE, A.TIM_TPO]; omega)]
  · rw [← fires, ht, State.get_set_ne (f := F.TIM_TE_CTL.ARMED u) (g := F.TIM_TE_STAT.FIRES u) _ _
      (by simp only [F.TIM_TE_CTL.ARMED, F.TIM_TE_STAT.FIRES, A.TIM_TE_STAT, A.TIM_TE_CTL]; omega)]
    have counted : ((s.teEvents u).tePulse u sub).get (F.TIM_TE_STAT.FIRES u) = (s.teFired u).get (F.TIM_TE_STAT.FIRES u) :=
      State.get_congr (fired _ (by simp only [F.TIM_TE_STAT.FIRES, A.TIM_TE_STAT, A.TSK_T_STAT]; omega)
        (fun n => by simp only [F.TIM_TE_STAT.FIRES, A.TIM_TE_STAT, A.TIM_TPO]; omega))
    split
    · rw [State.get_set_apart _ _ (by simp [F.TIM_TE_STAT.LATE]) (by simp [F.TIM_TE_STAT.LATE, F.TIM_TE_STAT.FIRES]), counted]
    · exact counted
  · rw [State.get_congr (beside _ (show A.TIM_EVT ≠ A.TIM_TE_STAT u by simp only [A.TIM_EVT, A.TIM_TE_STAT]; omega)
      (show A.TIM_EVT ≠ A.TIM_TE_CTL u by simp only [A.TIM_EVT, A.TIM_TE_CTL]; omega)),
      State.get_congr (fired _ (show A.TIM_EVT < A.TSK_T_STAT 0 by decide) fun n => (by simp only [A.TIM_EVT, A.TIM_TPO]; omega : A.TIM_EVT ≠ A.TIM_TPO n)),
      event]

end

/-! ### Pins (R329) -/

section
variable (s : State)

theorem State.get_pol_level (n m v : Nat) : (s.set (F.TIM_TPO.LEVEL m) v).get (F.TIM_TPO.POL n) = s.get (F.TIM_TPO.POL n) :=
  s.get_set_apart _ (by simp [F.TIM_TPO.LEVEL]) (by simp [F.TIM_TPO.LEVEL, F.TIM_TPO.POL])

theorem State.get_level_ne {n m : Nat} (v : Nat) (h : n ≠ m) : (s.set (F.TIM_TPO.LEVEL m) v).get (F.TIM_TPO.LEVEL n) = s.get (F.TIM_TPO.LEVEL n) :=
  s.get_set_ne _ (by simp only [F.TIM_TPO.LEVEL, A.TIM_TPO]; omega)

/-- The level that POL gives a pin at rest. -/
theorem State.rest_level (n : Nat) : b2n (false != s.flag (F.TIM_TPO.POL n)) = s.get (F.TIM_TPO.POL n) := by
  have lt : s.get (F.TIM_TPO.POL n) < 2 := fieldOf_lt _ _ _
  rw [State.flag_eq]
  rcases (by omega : s.get (F.TIM_TPO.POL n) = 0 ∨ s.get (F.TIM_TPO.POL n) = 1) with v | v <;> rw [v] <;> rfl

theorem State.get_levels (m n : Nat) : ∀ l : List Nat, l.Nodup → n ∈ l →
    ∀ t : State, (l.foldl (fun t n => t.set (F.TIM_TPO.LEVEL n) (b2n (bit m n != t.flag (F.TIM_TPO.POL n)))) t).get (F.TIM_TPO.LEVEL n) =
      b2n (bit m n != t.flag (F.TIM_TPO.POL n)) := by
  intro l
  induction l with
  | nil => intro _ listed; cases listed
  | cons k l ih =>
    intro once listed t
    obtain ⟨fresh, rest⟩ := List.nodup_cons.mp once
    rw [List.foldl_cons]
    by_cases same : n = k
    · subst same
      rw [foldl_invariant (P := fun u : State => u.get (F.TIM_TPO.LEVEL n) = b2n (bit m n != t.flag (F.TIM_TPO.POL n)))]
      · rw [State.get_set_same _ _ _ (by simp [F.TIM_TPO.LEVEL])]
        cases bit m n != t.flag (F.TIM_TPO.POL n) <;> rfl
      · intro u e inside shown
        rw [State.get_level_ne _ _ (fun at_ : n = e => fresh (at_ ▸ inside)), shown]
    · rw [ih rest ((List.mem_cons.mp listed).resolve_left same)]
      rw [State.flag_of_get _ (State.get_pol_level _ _ _ _)]

/-- With no pulse every pin stands at rest. -/
theorem State.tpoLevels_rest {t : State} (none_ : t.tim.pulses = []) {n : Nat} (h : n < 4) :
    t.tpoLevels.get (F.TIM_TPO.LEVEL n) = t.get (F.TIM_TPO.POL n) := by
  unfold State.tpoLevels
  dsimp only
  rw [none_, State.get_levels _ n [0, 1, 2, 3] (by decide) (by simp only [List.mem_cons, List.not_mem_nil, or_false]; omega), ← t.rest_level n]
  simp only [List.foldl_nil, bit, Nat.zero_div, Nat.zero_mod]
  rfl

end

/-! ### Capture inputs (R330) -/

section
variable (s : State)

theorem State.tciShow_tim (i : Nat) : (s.tciShow i).tim = s.tim := (State.tciShow_kept (.refl 2 s) (.refl _)).parts .tim rfl

theorem State.get_tciShow (i : Nat) : (s.tciShow i).get (F.TIM_TCI_CTL.N i) = (kvGet (fun _ => []) s.tim.caps i).length % 32 := by
  unfold State.tciShow
  dsimp only
  rw [State.get_wr_ne (g := F.TIM_TCI_CTL.N i) _ _ (by simp only [F.TIM_TCI_CTL.N, A.TIM_TCI_CTL, A.TIM_TCI_NS]; omega),
    State.get_set64_ne (g := F.TIM_TCI_CTL.N i) _ _ (by simp only [F.TIM_TCI_CTL.N, A.TIM_TCI_CTL, A.TIM_TCI_SEC]; omega)
      (by simp only [F.TIM_TCI_CTL.N, A.TIM_TCI_CTL, A.TIM_TCI_SEC]; omega),
    State.get_set64_ne (g := F.TIM_TCI_CTL.N i) _ _ (by simp only [F.TIM_TCI_CTL.N, A.TIM_TCI_CTL, A.TIM_TCI_SIX]; omega)
      (by simp only [F.TIM_TCI_CTL.N, A.TIM_TCI_CTL, A.TIM_TCI_SIX]; omega),
    State.get_set_same _ _ _ (by simp [F.TIM_TCI_CTL.N])]
  rfl

theorem State.wrFields_tim (a : Nat) (w : Word) : (s.wrFields a w).tim = s.tim := (State.wrFields_kept (.refl 2 s) (.refl _)).parts .tim rfl

/-- A selected edge joins a queue with room. -/
theorem execTciCapture_room {i : Fin 2} {rise : Bool} {stamp : Fin 500} (edge : bit (s.get (F.TIM_TCI_CTL.EDGE i)) (if rise then 0 else 1) = true)
    (room : (kvGet (fun _ => []) s.tim.caps i).length < 16) : execTciCapture i rise stamp s =
      .next (((s.withTim { s.tim with caps := kvPut (fun _ => []) s.tim.caps i (kvGet (fun _ => []) s.tim.caps i ++
        [⟨s.six, (todNs s.six s.offset + stamp) / nsPerSecond % 2 ^ 48, (todNs s.six s.offset + stamp) % nsPerSecond, s.epoch, rise,
          s.flag F.TIM_STATUS.VALID⟩]) }).tciShow i).raise F.TIM_EVT.TCI) :=
  (if_pos edge).trans (if_neg (Nat.not_le.mpr room))

theorem execTciCapture_full {i : Fin 2} {rise : Bool} {stamp : Fin 500} (edge : bit (s.get (F.TIM_TCI_CTL.EDGE i)) (if rise then 0 else 1) = true)
    (full : 16 ≤ (kvGet (fun _ => []) s.tim.caps i).length) : execTciCapture i rise stamp s =
      .next (((s.set (F.TIM_TCI_CTL.OVF i) 1).raise F.TIM_EVT.TCI_OVF).log 0x058B 0 (leBytes 1 i)) :=
  (if_pos edge).trans (if_pos full)

/-- The queue of an input without its oldest capture. -/
def State.popped (i : Nat) : State := s.withTim { s.tim with caps := kvMod (fun _ => []) s.tim.caps i (fun q => q.drop 1) }

theorem execTciPop_pops {pf i : Fin 2} {w : Word} (may : s.permits pf (A.TIM_TCI_CTL i) w (some 0)) (kick : bit w.toNat 8 = true) :
    ∃ v : State, v.tim = s.tim ∧ execTciPop pf i w s = .next ((v.popped i).tciShow i) := by
  refine ⟨_, ?_, congrArg Host.Outcome.next ((whenAllowed_acts s pf _ w _ may rfl).trans (if_pos kick))⟩
  rw [State.wrFields_tim, State.checked_tim]

end

/-- Settles O53: each command's effect by its equation, and what the registers it writes read. -/
theorem timedEventsAndCaptures : Obligations.TimedEventsAndCaptures := by
  intro s pf w u i rise stamp x a q tod
  have unit : u.val < 16 := u.isLt
  refine ⟨fun may => ⟨fun kick idle passes => ?_, fun kick => ?_⟩, fun armed due single => ?_, fun only own ends => ?_, fun edge => ⟨fun room => ?_,
    fun full => ?_⟩, fun may kick => ?_⟩
  · obtain ⟨armed, result⟩ := State.armUnit_armed _ passes
    exact ⟨_, execTeArm_idle may kick idle, armed, result⟩
  · obtain ⟨t, ran⟩ := execTeDisarm_disarms may kick
    refine ⟨_, ran, State.flag_of_zero _ ?_⟩
    rw [State.get_set_same _ _ _ (by simp [F.TIM_TE_CTL.ARMED])]
    rfl
  · obtain ⟨sub, ran⟩ := execTimedEventFire_once s armed due single
    exact ⟨_, ran, s.teFired_shown unit _ _ rfl⟩
  · have gone : s.tim.pulses.filter (fun p => p.unit != u.val || decide ((s.six + 1) * 500 ≤ p.fin)) = [] := by
      have passed : decide ((s.six + 1) * 500 ≤ x.fin) = false := decide_eq_false (by omega)
      rw [only, List.filter_cons_of_neg (by rw [own, passed]; simp), List.filter_nil]
    obtain ⟨v, hv⟩ : ∃ v, v = s.withTim { s.tim with pulses := s.tim.pulses.filter (fun p => p.unit != u.val || decide ((s.six + 1) * 500 ≤ p.fin)) } :=
      ⟨_, rfl⟩
    have rest : v.tim.pulses = [] := by rw [hv, ← gone]; rfl
    refine ⟨v.tpoLevels, by rw [hv]; rfl, ?_, fun n small => ?_⟩
    · rw [(State.tpoLevels_kept (.refl 2 v) (.refl _)).parts .tim rfl, rest]
    · rw [State.tpoLevels_rest rest small, hv]
      exact State.get_congr (State.rd_congr (State.withTim_regs _ _) _)
  · refine ⟨_, execTciCapture_room s edge room, State.flag_raise _ _ (by decide) rfl, ?_⟩
    rw [State.raise_tim, State.tciShow_tim, State.withTim_tim, kvGet_put_same]
    rfl
  · refine ⟨_, execTciCapture_full s edge full, ?_, ?_⟩
    · have apart : A.TIM_TCI_CTL i ≠ A.CEL_DROP ∧ A.TIM_TCI_CTL i ≠ A.CEL_EVT ∧ A.TIM_TCI_CTL i ≠ A.TIM_EVT := by
        simp only [A.TIM_TCI_CTL, A.CEL_DROP, A.CEL_EVT, A.TIM_EVT]; omega
      refine State.flag_of_one _ ?_
      rw [State.get_log (g := F.TIM_TCI_CTL.OVF i) _ _ _ _ apart.1 apart.2.1, State.get_raise_ne (f := F.TIM_EVT.TCI_OVF) (g := F.TIM_TCI_CTL.OVF i) _ apart.2.2,
        State.get_set_same _ _ _ (by simp [F.TIM_TCI_CTL.OVF])]
      rfl
    · rw [State.log_tim, State.raise_tim, State.set_tim]
  · obtain ⟨v, tim, ran⟩ := execTciPop_pops s may kick
    have left : kvGet (fun _ => []) (v.popped i).tim.caps i = q.drop 1 := by
      rw [State.popped, State.withTim_tim]
      dsimp only
      rw [kvMod, kvGet_put_same, tim]
    exact ⟨_, ran, by rw [State.tciShow_tim, left], by rw [State.get_tciShow, left]⟩

end Sys2Proof.Machine
end

section
/-!
PROOFS. Challenges, sessions, tamper and the service UART (R384 to R386, R399, R439).
-/
namespace Sys2Proof.Machine
open Sys2Proof

/-! ### A session closes (R386) -/

section
variable (s : State) {a : Nat}

/-- The words that a halt of host channels writes: those of the channels, DMA_EVT, and what an entry writes. -/
def BesideDma (a : Nat) : Prop := (a < A.DMA_EVT ∨ 0x8a000 ≤ a) ∧ a ≠ A.CEL_DROP ∧ a ≠ A.CEL_EVT

theorem State.dmaCopy_regs (d : Desc) (k : Nat) : (s.dmaCopy d k).regs = s.regs := by
  unfold State.dmaCopy
  refine foldl_keeps State.regs (fun t i => ?_) _ _
  rfl

theorem State.rd_dmaFault (c code resid faddr : Nat) (small : c < 16) (h : BesideDma a) : (s.dmaFault c code resid faddr).rd a = s.rd a := by
  obtain ⟨beside, drop, evt⟩ := h
  simp only [A.DMA_EVT] at beside
  obtain ⟨v, hv⟩ : ∃ v, v = ((s.set (F.DMA_C_STAT.STATE c) 3).set (F.DMA_C_STAT.CODE c) code).set (F.DMA_C_RESID.RESID c) resid := ⟨_, rfl⟩
  have stat : a ≠ A.DMA_C_STAT c := by simp only [A.DMA_C_STAT]; omega
  have resid : v.rd a = s.rd a := by
    rw [hv, State.rd_set_ne _ _ (show a ≠ A.DMA_C_RESID c by simp only [A.DMA_C_RESID]; omega), State.rd_set_ne _ _ stat, State.rd_set_ne _ _ stat]
  unfold State.dmaFault
  dsimp only
  rw [← hv, State.rd_logNamed _ _ _ drop evt, State.rd_raise_ne _ (show a ≠ A.DMA_EVT by simp only [A.DMA_EVT]; omega)]
  refine (State.rd_congr (t := State.setDma _ _ _) (s := v.set64 (A.DMA_C_FADDR c) faddr) rfl a).trans ?_
  rw [State.rd_set64_ne _ _ (by simp only [A.DMA_C_FADDR]; omega) (by simp only [A.DMA_C_FADDR]; omega), resid]

theorem State.rd_dmaHalt (c st code : Nat) (small : c < 16) (h : BesideDma a) : (s.dmaHalt c st code).rd a = s.rd a := by
  have beside := h.1
  simp only [A.DMA_EVT] at beside
  unfold State.dmaHalt
  split
  · dsimp only
    have copied : ∀ (d : Desc) (k : Nat), (s.fresh.2.dmaCopy d k).rd a = s.rd a := fun d k => State.rd_congr (State.dmaCopy_regs _ _ _) a
    split
    · rw [State.rd_dmaFault _ _ _ _ _ small h, copied]
    · have stat : a ≠ A.DMA_C_STAT c := by simp only [A.DMA_C_STAT]; omega
      refine (State.rd_congr (t := State.setDma _ _ _) (s := State.set64 _ _ _) rfl a).trans ?_
      rw [State.rd_set64_ne _ _ (by simp only [A.DMA_C_FADDR]; omega) (by simp only [A.DMA_C_FADDR]; omega),
        State.rd_set_ne _ _ (show a ≠ A.DMA_C_RESID c by simp only [A.DMA_C_RESID]; omega), State.rd_set_ne _ _ stat, State.rd_set_ne _ _ stat, copied]
  · rfl

theorem State.rd_dmaSession (h : BesideDma a) : s.dmaSession.rd a = s.rd a := by
  unfold State.dmaSession
  refine foldl_invariant (P := fun t : State => t.rd a = s.rd a) _ rfl fun t i inside same => ?_
  split
  · rw [State.rd_dmaHalt _ _ _ _ (by have := List.mem_range.mp inside; omega) h, same]
  · exact same

theorem State.dmaSession_sec : s.dmaSession.sec = s.sec := (State.dmaSession_kept (.refl 17827855 s) (.refl _)).parts .sec rfl

/-- The island's record takes a content. -/
def State.withSec (x : SecSt) : State := { s with sec := x }

theorem State.withSec_regs (x : SecSt) : (s.withSec x).regs = s.regs := rfl

/-- The registers of a closed session. -/
def State.sessShown (cause : Nat) : State := ((s.set F.ENG_SESS.RIGHTS 0).set F.ENG_SESS.CAUSE cause).set F.ENG_STATE.SESSION 0

theorem State.sessionClose_none {c : Nat} (h : s.sec.session = none) : s.sessionClose c = s := by
  unfold State.sessionClose
  rw [h]

theorem State.sessionClose_some {x : Session} {c : Nat} (h : s.sec.session = some x) : ∃ d, s.sessionClose c =
    ((((s.dmaSession.withSec { s.dmaSession.sec with session := none }).sessShown c).raise F.ENG_EVT.SESSION_CLOSED).log 0x81 1 d) := by
  unfold State.sessionClose
  rw [h]
  exact ⟨_, rfl⟩

theorem State.sessShown_sec (c : Nat) : (s.sessShown c).sec = s.sec := by
  unfold State.sessShown
  rw [State.set_sec, State.set_sec, State.set_sec]

/-- What the close of an open session shows. -/
theorem State.sessionClose_shows {x : Session} {c : Nat} (h : s.sec.session = some x) (small : c < 8) :
    (s.sessionClose c).sec.session = none ∧ (s.sessionClose c).get F.ENG_SESS.CAUSE = c ∧ (s.sessionClose c).get F.ENG_SESS.RIGHTS = 0 ∧
      (s.sessionClose c).flag F.ENG_EVT.SESSION_CLOSED = true := by
  obtain ⟨d, eq⟩ := s.sessionClose_some (c := c) h
  obtain ⟨v, hv⟩ : ∃ v, v = s.dmaSession.withSec { s.dmaSession.sec with session := none } := ⟨_, rfl⟩
  rw [← hv] at eq
  have shown : ∀ f : Field, f.addr = A.ENG_SESS → (s.sessionClose c).get f = (v.sessShown c).get f := fun f at_ => by
    rw [eq, State.get_log _ _ _ _ (by rw [at_]; decide) (by rw [at_]; decide), State.get_raise_ne _ (by rw [at_]; decide)]
  refine ⟨?_, ?_, ?_, State.flag_of_one _ ?_⟩
  · rw [eq, State.log_sec, State.raise_sec, State.sessShown_sec, hv]
    rfl
  · rw [shown _ rfl, State.sessShown, State.get_set_ne _ _ (by decide), State.get_set_same _ _ _ (by decide)]
    exact Nat.mod_eq_of_lt small
  · rw [shown _ rfl, State.sessShown, State.get_set_ne _ _ (by decide), State.get_set_apart _ _ (by decide) (by decide),
      State.get_set_same _ _ _ (by decide)]
    rfl
  · rw [eq, State.get_log _ _ _ _ (by decide) (by decide), State.get_raise _ (by decide)]
    rfl

/-- What the close of a session leaves. -/
theorem State.rd_sessionClose (c : Nat) (h : BesideDma a) (high : A.ENG_SESS < a) : (s.sessionClose c).rd a = s.rd a := by
  cases open_ : s.sec.session with
  | none => rw [s.sessionClose_none open_]
  | some x =>
    obtain ⟨d, eq⟩ := s.sessionClose_some (c := c) open_
    simp only [A.ENG_SESS] at high
    rw [eq, State.rd_log _ _ _ _ h.2.1 h.2.2, State.rd_raise_ne _ (show a ≠ A.ENG_EVT by simp only [A.ENG_EVT]; omega), State.sessShown,
      State.rd_set_ne _ _ (show a ≠ A.ENG_STATE by simp only [A.ENG_STATE]; omega), State.rd_set_ne _ _ (show a ≠ A.ENG_SESS by simp only [A.ENG_SESS]; omega),
      State.rd_set_ne _ _ (show a ≠ A.ENG_SESS by simp only [A.ENG_SESS]; omega), State.rd_congr (State.withSec_regs _ _), State.rd_dmaSession _ h]

theorem State.sessionClose_session (c : Nat) : (s.sessionClose c).sec.session = none := by
  cases open_ : s.sec.session with
  | none => rw [s.sessionClose_none open_, open_]
  | some x =>
    obtain ⟨d, eq⟩ := s.sessionClose_some (c := c) open_
    rw [eq, State.log_sec, State.raise_sec, State.sessShown_sec]
    rfl

theorem State.deny_sec (pf cause off : Nat) : (s.deny pf cause off).sec = s.sec :=
  (State.deny_kept (.refl 16777230 s) (.refl _)).parts .sec rfl

theorem State.checked_sec (pf reg : Nat) (w : Word) (right : Option Nat) : (s.checked pf reg w right).sec = (s.touch pf).sec := by
  unfold State.checked State.gate
  obtain ⟨t, ht⟩ : ∃ t, t = s.touch pf := ⟨_, rfl⟩
  dsimp only
  rw [← ht]
  split
  · exact t.deny_sec _ _ _
  · split
    · exact t.deny_sec _ _ _
    · split
      · exact t.deny_sec _ _ _
      · split
        · exact t.deny_sec _ _ _
        · rfl

theorem State.rightCause_of_permits {pf reg : Nat} {w : Word} {right : Option Nat} (h : s.permits pf reg w right) :
    (s.touch pf).rightCause pf right = none := by
  unfold State.permits State.gate at h
  obtain ⟨t, ht⟩ : ∃ t, t = s.touch pf := ⟨_, rfl⟩
  dsimp only at h
  rw [← ht] at h ⊢
  split at h
  · cases h
  · split at h
    · cases h
    · next none_ => exact none_

/-- A write that needs a right is let act in an open session only. -/
theorem State.session_of_permits {pf reg : Nat} {w : Word} {r : Nat} (h : s.permits pf reg w (some r)) :
    ∃ x, (s.checked pf reg w (some r)).sec.session = some x := by
  rw [State.checked_sec]
  have cause := s.rightCause_of_permits h
  unfold State.rightCause State.privView at cause
  cases open_ : (s.touch pf).sec.session with
  | none =>
    rw [open_, Option.isSome_none, Bool.and_false] at cause
    cases cause
  | some x => exact ⟨x, rfl⟩

end

/-! ### Tamper (R399) -/

section
variable (s : State)

theorem State.rd_lastResort (code : Nat) (d : List Byte) {a : Nat} (drop : a ≠ A.CEL_DROP) (evt : a ≠ A.CEL_EVT) (last : ∀ i, i < 16 → a ≠ A.CEL_LASTW i) :
    (s.lastResort code d).rd a = s.rd a := by
  unfold State.lastResort
  split
  · exact State.rd_log _ _ _ _ drop evt
  · dsimp only
    unfold State.setLastWord
    exact foldl_invariant (P := fun t : State => t.rd a = s.rd a) _ rfl fun t i inside same =>
      (t.rd_wr_ne _ (last i (List.mem_range.mp inside))).trans same

theorem State.lastResort_sec (code : Nat) (d : List Byte) : (s.lastResort code d).sec = s.sec :=
  (State.lastResort_kept (.refl 16777230 s) (.refl _)).parts .sec rfl

/-- The latch as it sets, before the session closes. -/
def State.tamperLatched (causes : Nat) : State :=
  ((s.set F.SEC_STATUS.TCAUSE (s.get F.SEC_STATUS.TCAUSE ||| causes)).set F.SEC_STATUS.TAMPER 1).set F.ENG_STATE.TAMPER 1

theorem State.tamperSet_cases (causes : Nat) : s.tamperSet causes = (s.tamperLatched causes).sessionClose 6 ∨
    ∃ d, s.tamperSet causes = ((((s.tamperLatched causes).sessionClose 6).bump F.SEC_TAMPER.EVENTS).raise F.SEC_EVT.TAMPER).lastResort 0x88 d := by
  by_cases had : s.flag F.SEC_STATUS.TAMPER = true
  · exact .inl (if_pos had)
  · exact .inr ⟨_, if_neg had⟩

/-- What the latch writes beside the island's own registers. -/
theorem State.rd_tamperSet (causes : Nat) {a : Nat} (drop : a ≠ A.CEL_DROP) (evt : a ≠ A.CEL_EVT) (last : ∀ i, i < 16 → a ≠ A.CEL_LASTW i)
    (count : a ≠ A.SEC_TAMPER) (event : a ≠ A.SEC_EVT) : (s.tamperSet causes).rd a = ((s.tamperLatched causes).sessionClose 6).rd a := by
  obtain eq | ⟨d, eq⟩ := s.tamperSet_cases causes
  · rw [eq]
  · rw [eq, State.rd_lastResort _ _ _ drop evt last, State.rd_raise_ne _ event, State.rd_bump_ne _ count]

theorem State.tamperSet_session (causes : Nat) : (s.tamperSet causes).sec.session = none := by
  obtain eq | ⟨d, eq⟩ := s.tamperSet_cases causes
  · rw [eq, State.sessionClose_session]
  · rw [eq, State.lastResort_sec, State.raise_sec, State.bump_sec, State.sessionClose_session]

theorem bit_or_pow (m i : Nat) : bit (m ||| 2 ^ i) i = true := by
  have h : (m ||| 2 ^ i).testBit i = true := by rw [Nat.testBit_or, Nat.testBit_two_pow_self, Bool.or_true]
  rw [Nat.testBit_eq_decide_div_mod_eq] at h
  unfold bit
  rw [of_decide_eq_true h]
  rfl

theorem bit_mod_pow {m i n : Nat} (h : i < n) : bit (m % 2 ^ n) i = bit m i := by
  have eq := Nat.testBit_mod_two_pow m n i
  simp only [Nat.testBit_eq_decide_div_mod_eq, h, decide_true, Bool.true_and] at eq
  have both := decide_eq_decide.mp eq
  unfold bit
  rw [Bool.eq_iff_iff, beq_iff_eq, beq_iff_eq]
  exact both

theorem State.tamperSet_status {cause : Nat} (h : cause < 4) : (s.tamperSet (2 ^ cause)).flag F.SEC_STATUS.TAMPER = true ∧
    bit ((s.tamperSet (2 ^ cause)).get F.SEC_STATUS.TCAUSE) cause = true := by
  have kept : (s.tamperSet (2 ^ cause)).rd A.SEC_STATUS = (s.tamperLatched (2 ^ cause)).rd A.SEC_STATUS := by
    rw [State.rd_tamperSet _ _ (by decide) (by decide) (fun i _ => by simp only [A.SEC_STATUS, A.CEL_LASTW]; omega) (by decide) (by decide),
      State.rd_sessionClose _ _ ⟨.inr (by decide), by decide, by decide⟩ (by decide)]
  have at_ : ∀ f : Field, f.addr = A.SEC_STATUS → (s.tamperSet (2 ^ cause)).get f = (s.tamperLatched (2 ^ cause)).get f := fun f e =>
    State.get_congr (by rw [e]; exact kept)
  refine ⟨State.flag_of_one _ ?_, ?_⟩
  · rw [at_ _ rfl, State.tamperLatched, State.get_set_ne _ _ (by decide), State.get_set_same _ _ _ (by decide)]
    rfl
  · rw [at_ _ rfl, State.tamperLatched, State.get_set_ne _ _ (by decide), State.get_set_apart _ _ (by decide) (by decide),
      State.get_set_same _ _ _ (by decide), bit_mod_pow (show cause < F.SEC_STATUS.TCAUSE.width from h), bit_or_pow]

theorem State.tamperSet_cause (causes : Nat) {x : Session} (h : s.sec.session = some x) : (s.tamperSet causes).get F.ENG_SESS.CAUSE = 6 := by
  have latched : (s.tamperLatched causes).sec.session = some x := by
    rw [State.tamperLatched, State.set_sec, State.set_sec, State.set_sec, h]
  have kept : (s.tamperSet causes).get F.ENG_SESS.CAUSE = ((s.tamperLatched causes).sessionClose 6).get F.ENG_SESS.CAUSE :=
    State.get_congr (s.rd_tamperSet causes (by decide) (by decide)
      (fun i _ => by simp only [F.ENG_SESS.CAUSE, A.ENG_SESS, A.CEL_LASTW]; omega) (by decide) (by decide))
  rw [kept]
  exact (State.sessionClose_shows _ latched (by decide)).2.1

end

/-! ### The service UART (R439) -/

section
variable (s : State)

/-- The state in which the island answers with a frame. -/
def State.answered (out : List Byte) : State := (s.withSec { s.sec with uart := out }).emit (.uart out)

theorem State.answered_uart (out : List Byte) : (s.answered out).sec.uart = out := rfl
theorem State.answered_outbox (out : List Byte) : (s.answered out).outbox = .uart out :: s.outbox := rfl

theorem State.uartRun_good {fr : List Byte} {nonce : BitVec 256} {ok : Bool} {b : Byte} {req : List Byte} (good : uartPayload fr = some (b :: req)) :
    s.uartRun fr nonce ok = (s.uartCommand b.toNat req nonce ok).st.answered
      (uartFrame (leBytes 1 (s.uartCommand b.toNat req nonce ok).res ++ (s.uartCommand b.toNat req nonce ok).rsp)) := by
  unfold State.uartRun
  rw [good]
  rfl

variable {s} {fr : List Byte} {nonce : BitVec 256} {ok : Bool} (runs : s.islandRuns = true)
include runs

theorem execServiceUartFrame_runs {b : Byte} {req : List Byte} (free : s.sec.mbox = none) (good : uartPayload fr = some (b :: req)) :
    execServiceUartFrame fr nonce ok s = .next ((s.uartCommand b.toNat req nonce ok).st.answered
      (uartFrame (leBytes 1 (s.uartCommand b.toNat req nonce ok).res ++ (s.uartCommand b.toNat req nonce ok).rsp))) := by
  rw [← s.uartRun_good good]
  unfold execServiceUartFrame
  rw [runs, free, if_neg (by decide), if_neg (by decide)]

theorem execServiceUartFrame_waits {m : MboxRun} (busy : s.sec.mbox = some m) :
    execServiceUartFrame fr nonce ok s = .next (s.withSec { s.sec with uartWait := some (fr, nonce, ok) }) := by
  unfold execServiceUartFrame
  rw [runs, busy, if_neg (by decide)]
  exact if_pos rfl

end

/-! ### Expiry -/

/-- A state whose session closes shows it. -/
theorem State.ends_shown {s : State} {x : Session} {c : Nat} {o : Host.Outcome State Fault Refusal} (ran : o = .next (s.sessionClose c))
    (h : s.sec.session = some x) (small : c < 8) : ∃ t, o = .next t ∧ t.sec.session = none ∧ t.get F.ENG_SESS.CAUSE = c ∧
      t.get F.ENG_SESS.RIGHTS = 0 ∧ t.flag F.ENG_EVT.SESSION_CLOSED = true := ⟨_, ran, s.sessionClose_shows h small⟩

/-- Settles O58, by what the close of a session shows (`sessionClose_shows`) and by the tamper latch around it. -/
theorem sessionsAndTamper : Obligations.SessionsAndTamper := by
  intro s pf w x c cause fr nonce ok b req m k ends r
  refine ⟨fun some_ late => ?_, fun some_ late => ?_, fun some_ late => ?_, fun some_ late => ?_, fun may kick => ?_, ?_, fun runs free good => ?_,
    fun runs busy => ?_⟩
  · have due : c.issued + 300 * samplesPerSecond ≤ s.six := by simp only [samplesPerSecond]; omega
    refine ⟨s.withSec { s.sec with challenge := none }, congrArg Host.Outcome.next (if_pos ?_), rfl, rfl⟩
    rw [some_, Option.any_some]
    exact decide_eq_true due
  · refine ⟨(s.withSec { s.sec with lockoutEnd := none }).set F.SEC_STATUS.LOCKOUT 0, congrArg Host.Outcome.next (if_pos ?_), ?_, State.flag_of_zero _ ?_⟩
    · rw [some_, Option.any_some]
      exact decide_eq_true late
    · rw [State.set_sec]
      rfl
    · rw [State.get_set_same _ _ _ (by decide)]
      rfl
  · refine State.ends_shown (congrArg Host.Outcome.next (if_pos ?_)) some_ (by decide)
    rw [some_, Option.any_some]
    exact decide_eq_true late
  · have due : x.lastAcc + 900 * samplesPerSecond ≤ s.six := by simp only [samplesPerSecond]; omega
    refine State.ends_shown (congrArg Host.Outcome.next (if_pos ?_)) some_ (by decide)
    rw [some_, Option.any_some]
    exact decide_eq_true due
  · obtain ⟨y, open_⟩ := s.session_of_permits may
    exact State.ends_shown (congrArg Host.Outcome.next ((whenAllowed_acts s pf _ w _ may rfl).trans (if_pos kick))) open_ (by decide)
  · obtain ⟨u, hu⟩ : ∃ u, u = if cause.val = 0 then s.set F.SEC_STATUS.TAMP_PIN 1 else s := ⟨_, rfl⟩
    have sec : u.sec = s.sec := by
      rw [hu]
      split <;> rfl
    have ran : exec (.tamperSet cause) s = .next (u.tamperSet (2 ^ cause.val)) := by rw [hu]; rfl
    obtain ⟨set, which⟩ := u.tamperSet_status cause.isLt
    refine ⟨_, ran, set, which, u.tamperSet_session _, fun open_ => ?_⟩
    obtain ⟨y, was⟩ := Option.isSome_iff_exists.mp open_
    exact u.tamperSet_cause _ (sec ▸ was)
  · exact ⟨_, execServiceUartFrame_runs runs free good, State.answered_uart _ _, congrArg List.head? (State.answered_outbox _ _)⟩
  · exact ⟨_, execServiceUartFrame_waits runs busy, rfl, rfl⟩

end Sys2Proof.Machine
end

section
/-!
PROOFS. The mailbox of the security island (R382, R383, R384 to R399).
-/
namespace Sys2Proof.Machine
open Sys2Proof

/-! ### The island takes a command (R382) -/

/-- Dropping other keys leaves what a key holds. -/
theorem kvGet_filter {α : Type} (d : Nat → α) (p : Nat → Bool) (m : KV α) {k : Nat} (h : p k = true) :
    kvGet d (m.filter (fun e => p e.1)) k = kvGet d m k := by
  induction m with
  | nil => rfl
  | cons e m ih =>
    obtain ⟨j, v⟩ := e
    by_cases keep : p j = true
    · rw [List.filter_cons_of_pos (by exact keep)]
      unfold kvGet
      rw [ih]
    · rw [List.filter_cons_of_neg (by exact keep), ih]
      have other : j ≠ k := fun same => keep (same ▸ h)
      simp only [kvGet, if_neg other]

section
variable (s : State) {a : Nat}

theorem State.rd_bufClear (h : a < A.SEC_BUF 0 ∨ A.SEC_BUF 1024 ≤ a) : s.bufClear.rd a = s.rd a := by
  have outside : (!(decide (A.SEC_BUF 0 ≤ a) && decide (a < A.SEC_BUF 1024))) = true := by
    rcases h with low | high
    · rw [decide_eq_false (by omega), Bool.false_and, Bool.not_false]
    · rw [decide_eq_false (p := a < A.SEC_BUF 1024) (by omega), Bool.and_false, Bool.not_false]
  exact kvGet_filter _ (fun b => !(decide (A.SEC_BUF 0 ≤ b) && decide (b < A.SEC_BUF 1024))) _ outside

/-- The identity of the unit lies below what a denial writes. -/
theorem State.rd_checked_id (pf reg : Nat) (w : Word) (right : Option Nat) (low : a < A.ENG_DENY_CNT) : (s.checked pf reg w right).rd a = s.rd a := by
  simp only [A.ENG_DENY_CNT] at low
  have denied : ∀ (t : State) cause, (t.deny pf cause reg).rd a = t.rd a := by
    intro t cause
    unfold State.deny
    dsimp only
    rw [State.rd_log _ _ _ _ (by simp only [F.CEL_DROP.QUEUE, A.CEL_DROP]; omega) (by simp only [F.CEL_EVT.DROP, A.CEL_EVT]; omega),
      State.rd_raise_ne _ (show a ≠ A.ENG_EVT by simp only [A.ENG_EVT]; omega),
      State.rd_set_ne _ _ (show a ≠ A.ENG_DENY_LAST + fnShift pf by simp only [A.ENG_DENY_LAST]; omega),
      State.rd_set_ne _ _ (show a ≠ A.ENG_DENY_LAST + fnShift pf by simp only [A.ENG_DENY_LAST]; omega),
      State.rd_bump_ne _ (show a ≠ A.ENG_DENY_CNT + fnShift pf by simp only [A.ENG_DENY_CNT]; omega)]
  obtain ⟨t, ht⟩ : ∃ t, t = s.touch pf := ⟨_, rfl⟩
  have touched : t.rd a = s.rd a := by rw [ht, State.rd_touch]
  unfold State.checked State.gate
  dsimp only
  rw [← ht, ← touched]
  split
  · exact denied _ _
  · split
    · exact denied _ _
    · split
      · exact denied _ _
      · split
        · exact denied _ _
        · rfl

/-- The words that taking a command leaves: all but those of the access check, SEC_CMD, SEC_LEN and SEC_BUF. -/
abbrev Untaken (a : Nat) : Prop := (a < A.ENG_DENY_CNT ∨ A.ENG_EVT < a % 0x1000000) ∧ a ≠ A.CEL_DROP ∧ a ≠ A.CEL_EVT ∧ a ≠ A.SEC_CMD ∧
  a ≠ A.SEC_LEN ∧ (a < A.SEC_BUF 0 ∨ A.SEC_BUF 1024 ≤ a)

/-- The registers of a command that is taken. -/
def State.takenShown (pf code : Nat) : State :=
  ((((s.set F.SEC_CMD.CMD code).set F.SEC_CMD.OWNER pf).set F.SEC_CMD.BUSY 1).set F.SEC_LEN.RSP 0).bufClear

/-- The state in which the island runs a command. -/
def State.taken (pf : Nat) (w : Word) (code : Nat) : State :=
  ((s.checked pf A.SEC_CMD w none).takenShown pf code).withSec
    { ((s.checked pf A.SEC_CMD w none).takenShown pf code).sec with respPf := none }

theorem State.takenShown_kept (pf code : Nat) : Kept 2 s (s.takenShown pf code) :=
  State.bufClear_kept (State.set_kept (State.set_kept (State.set_kept (State.set_kept (.refl 2 s) (.refl _)) (.refl _)) (.refl _)) (.refl _)) (.refl _)

theorem State.rd_takenShown (pf code : Nat) (cmd : a ≠ A.SEC_CMD) (len : a ≠ A.SEC_LEN) (buf : a < A.SEC_BUF 0 ∨ A.SEC_BUF 1024 ≤ a) :
    (s.takenShown pf code).rd a = s.rd a := by
  unfold State.takenShown
  rw [State.rd_bufClear _ buf, State.rd_set_ne _ _ len, State.rd_set_ne _ _ cmd, State.rd_set_ne _ _ cmd, State.rd_set_ne _ _ cmd]

theorem State.rd_taken (pf : Nat) (w : Word) (code : Nat) (h : Untaken a) : (s.taken pf w code).rd a = s.rd a := by
  obtain ⟨place, drop, evt, cmd, len, buf⟩ := h
  unfold State.taken
  rw [State.rd_congr (State.withSec_regs _ _), State.rd_takenShown _ _ _ cmd len buf]
  rcases place with low | high
  · exact s.rd_checked_id _ _ _ _ low
  · exact s.rd_checked _ _ _ _ high drop evt

theorem State.taken_sec (pf : Nat) (w : Word) (code : Nat) : (s.taken pf w code).sec = { (s.touch pf).sec with respPf := none } := by
  rw [← s.checked_sec pf A.SEC_CMD w none, ← ((s.checked pf A.SEC_CMD w none).takenShown_kept pf code).parts .sec rfl]
  rfl

theorem State.withSec_clk (x : SecSt) : (s.withSec x).clk = s.clk := rfl

theorem State.taken_clk (pf : Nat) (w : Word) (code : Nat) : (s.taken pf w code).clk = s.clk := by
  rw [State.taken, State.withSec_clk, ((s.checked pf A.SEC_CMD w none).takenShown_kept pf code).parts .clk rfl, State.checked_clk]

theorem State.taken_six (pf : Nat) (w : Word) (code : Nat) : (s.taken pf w code).six = s.six := congrArg Clk.six (s.taken_clk pf w code)

theorem State.get_taken (pf : Nat) (w : Word) (code : Nat) {f : Field} (h : Untaken f.addr) : (s.taken pf w code).get f = s.get f :=
  State.get_congr (s.rd_taken pf w code h)

theorem State.flag_taken (pf : Nat) (w : Word) (code : Nat) {f : Field} (h : Untaken f.addr) : (s.taken pf w code).flag f = s.flag f :=
  State.flag_congr (s.rd_taken pf w code h)

theorem State.busy_taken (pf : Nat) (w : Word) (code : Nat) : (s.taken pf w code).get F.SEC_CMD.BUSY = 1 := by
  unfold State.taken State.takenShown
  rw [State.get_congr (State.rd_congr (State.withSec_regs _ _) _), State.get_congr (State.rd_bufClear _ (.inl (by decide))),
    State.get_set_ne _ _ (by decide), State.get_set_same _ _ _ (by decide)]
  rfl

theorem State.bufBytes_congr {t : State} {n : Nat} (few : n ≤ 4096) (h : ∀ i, i < 1024 → t.rd (A.SEC_BUF i) = s.rd (A.SEC_BUF i)) :
    t.bufBytes n = s.bufBytes n := by
  unfold State.bufBytes
  refine congrArg (fun l : List (List Byte) => l.flatten.take n) (List.map_congr_left fun i inside => ?_)
  rw [h i (by have := List.mem_range.mp inside; omega)]

/-- A command's answer stands in the mailbox until it is done. -/
def Answer.boxed (a : Answer) (pf : Nat) : State := a.st.withSec { a.st.sec with mbox := some ⟨pf, a.res, a.rsp⟩ }

theorem Answer.boxed_regs (a : Answer) (pf : Nat) : (a.boxed pf).regs = a.st.regs := rfl
theorem Answer.boxed_mbox (a : Answer) (pf : Nat) : (a.boxed pf).sec.mbox = some ⟨pf, a.res, a.rsp⟩ := rfl
theorem Answer.boxed_sec (a : Answer) (pf : Nat) : (a.boxed pf).sec = { a.st.sec with mbox := some ⟨pf, a.res, a.rsp⟩ } := rfl

/-- What a GO needs to be taken with command `c`. -/
structure State.Goes (s : State) (pf : Nat) (w : Word) (c : Nat) : Prop where
  may : s.permits pf A.SEC_CMD w none
  code : fieldOf w 0 8 = c
  kick : bit w.toNat 8 = true
  free : s.flag F.SEC_CMD.BUSY = false
  runs : s.islandRuns = true
  few : s.get F.SEC_LEN.REQ ≤ 4096
  early : s.lc < 4

variable {s} {pf : Fin 2} {w : Word} {c : Nat} (go : s.Goes pf w c)
include go

/-- Behind the access check the mailbox is idle and its request is as it was. -/
theorem State.Goes.ready : ((s.checked pf A.SEC_CMD w none).set F.SEC_CMD.CMD c).flag F.SEC_CMD.BUSY = false ∧
    ((s.checked pf A.SEC_CMD w none).set F.SEC_CMD.CMD c).islandRuns = true := by
  constructor
  · rw [State.flag_of_get _ (State.get_set_apart _ _ (by decide) (by decide)), s.flag_checked _ _ _ _ (by decide) (by decide) (by decide)]
    exact go.free
  · unfold State.islandRuns
    rw [State.get_set_ne _ _ (by decide), s.get_checked _ _ _ _ (by decide) (by decide) (by decide)]
    exact go.runs

/-- A GO that is let act takes the command, whose body runs on the request. -/
theorem State.Goes.takes (body : State → List Byte → Answer) :
    s.secGo pf w c body = (body (s.taken pf w c) (s.bufBytes (s.get F.SEC_LEN.REQ))).boxed pf := by
  obtain ⟨idle, runs⟩ := go.ready
  obtain ⟨v, hv⟩ : ∃ v, v = (s.checked pf A.SEC_CMD w none).set F.SEC_CMD.CMD c := ⟨_, rfl⟩
  have length : v.get F.SEC_LEN.REQ = s.get F.SEC_LEN.REQ := by
    rw [hv, State.get_set_ne _ _ (by decide), s.get_checked _ _ _ _ (by decide) (by decide) (by decide)]
  have request : v.bufBytes (s.get F.SEC_LEN.REQ) = s.bufBytes (s.get F.SEC_LEN.REQ) := s.bufBytes_congr go.few fun i small => by
    rw [hv, State.rd_set_ne _ _ (show A.SEC_BUF i ≠ A.SEC_CMD by simp only [A.SEC_BUF, A.SEC_CMD]; omega),
      s.rd_checked _ _ _ _ (by simp only [A.SEC_BUF, A.ENG_EVT]; omega) (by simp only [A.SEC_BUF, A.CEL_DROP]; omega)
        (by simp only [A.SEC_BUF, A.CEL_EVT]; omega)]
  have lc : (s.taken pf w c).lc = s.lc := s.get_taken _ _ _ (by decide)
  have run : v.secRun pf c body = (if 4096 < v.get F.SEC_LEN.REQ then (s.taken pf w c).say resLength
      else if 4 ≤ (s.taken pf w c).lc ∧ c ∉ lateCommands then (s.taken pf w c).say resState
      else body (s.taken pf w c) (v.bufBytes (v.get F.SEC_LEN.REQ))).boxed pf := by rw [hv]; rfl
  have act : s.secGo pf w c body = v.secRun pf c body := by
    unfold State.secGo
    rw [if_pos ⟨go.code, go.kick⟩, whenAllowed_acts s pf _ w _ go.may rfl, ← hv]
    exact if_neg (by rw [hv, idle, runs]; decide)
  have short : ¬ 4096 < s.get F.SEC_LEN.REQ := Nat.not_lt.mpr go.few
  have early : ¬ (4 ≤ s.lc ∧ c ∉ lateCommands) := fun late => absurd go.early (Nat.not_lt.mpr late.1)
  rw [act, run, lc, length, request, if_neg short, if_neg early]

end

/-! ### What the commands ask of the state they run in -/

section
variable (s : State) (pf : Nat) (w : Word) (c : Nat)

theorem State.touch_session_none_iff : (s.touch pf).sec.session.isSome = s.sec.session.isSome := by
  unfold State.touch
  split
  · cases s.sec.session <;> rfl
  · rfl

theorem State.touch_rights : (s.touch pf).rights = s.rights := by
  unfold State.touch State.rights
  split
  · cases s.sec.session <;> rfl
  · rfl

theorem State.rightCause_taken (right : Option Nat) : (s.taken pf w c).rightCause pf right = s.rightCause pf right := by
  have session : (s.taken pf w c).sec.session = (s.touch pf).sec.session := by rw [State.taken_sec]
  have view : (s.taken pf w c).privView pf = s.privView pf := by
    unfold State.privView
    rw [session, State.touch_session_none_iff]
  have rights : (s.taken pf w c).rights = s.rights := by
    rw [← s.touch_rights pf]
    unfold State.rights
    rw [session]
  cases right with
  | none => rfl
  | some r =>
    unfold State.rightCause
    rw [view, rights]

/-- The island's record but for the session and the response, as a command finds it. -/
theorem State.touch_sec : ∃ x, (s.touch pf).sec = { s.sec with session := x } := by
  unfold State.touch
  split
  · exact ⟨_, rfl⟩
  · exact ⟨s.sec.session, rfl⟩

theorem State.taken_rest : ∃ x, (s.taken pf w c).sec = { s.sec with session := x, respPf := none } := by
  obtain ⟨x, eq⟩ := s.touch_sec pf
  exact ⟨x, by rw [State.taken_sec, eq]⟩

theorem tokNat_byte (t : List Byte) (o : Nat) : tokNat t o 1 < 256 := by
  unfold tokNat
  have short : ((t.drop o).take 1).length ≤ 1 := by rw [List.length_take]; omega
  match (t.drop o).take 1, short with
  | [], _ => decide
  | [b], _ =>
    have := b.isLt
    simp only [leNat]
    omega

theorem State.get_key_taken {k : Nat} (h : k < 256) {f : Field} (at_ : f.addr = A.SEC_KEY k) : (s.taken pf w c).get f = s.get f := by
  refine s.get_taken pf w c ?_
  rw [at_]
  simp only [Untaken, A.SEC_KEY, A.ENG_DENY_CNT, A.ENG_EVT, A.CEL_DROP, A.CEL_EVT, A.SEC_CMD, A.SEC_LEN, A.SEC_BUF]
  omega

theorem State.uid_taken : (s.taken pf w c).get64 A.ENG_UID = s.get64 A.ENG_UID :=
  s.get64_congr (s.rd_taken _ _ _ (by decide)) (s.rd_taken _ _ _ (by decide))

theorem State.tamper_taken : (s.taken pf w c).flag F.SEC_STATUS.TAMPER = s.flag F.SEC_STATUS.TAMPER := s.flag_taken _ _ _ (by decide)

theorem State.lc_taken : (s.taken pf w c).lc = s.lc := s.get_taken _ _ _ (by decide)

theorem State.answersChallenge_taken (t : List Byte) : (s.taken pf w c).answersChallenge t = s.answersChallenge t := by
  obtain ⟨x, sec⟩ := s.taken_rest pf w c
  unfold State.answersChallenge
  rw [sec, State.taken_six]

theorem State.grantResult_taken (t : List Byte) (sig : Bool) : (s.taken pf w c).grantResult t sig = s.grantResult t sig := by
  have slot := tokNat_byte t 0x38
  unfold State.grantResult
  dsimp only
  rw [s.lc_taken, s.uid_taken, s.answersChallenge_taken, s.tamper_taken, s.get_key_taken _ _ _ slot (f := F.SEC_KEY.STATE _) rfl,
    s.get_key_taken _ _ _ slot (f := F.SEC_KEY.USAGE _) rfl, s.get_key_taken _ _ _ slot (f := F.SEC_KEY.PARAM _) rfl]

theorem counterOf_lt (k : Nat) : counterOf k < 3 := by
  unfold counterOf
  split
  · decide
  · split <;> decide

/-- What the verification of an image reads: the unit's ID, the keys, the rollback counters, and whether the vendor's first key serves. -/
theorem State.verifyResult_congr {s t : State} (vendor : t.sec.vendor0Revoked = s.sec.vendor0Revoked) (low : t.rd A.ENG_UID = s.rd A.ENG_UID)
    (high : t.rd (A.ENG_UID + 4) = s.rd (A.ENG_UID + 4)) (keys : ∀ i, i < 4 → t.rd (A.SEC_KEY i) = s.rd (A.SEC_KEY i))
    (counters : ∀ i, i < 3 → t.rd (A.SEC_SVN i) = s.rd (A.SEC_SVN i)) (x : Image) : t.verifyResult x = s.verifyResult x := by
  have uid : t.get64 A.ENG_UID = s.get64 A.ENG_UID := s.get64_congr low high
  have counter : t.get (F.SEC_SVN.COUNTER (counterOf x.kind)) = s.get (F.SEC_SVN.COUNTER (counterOf x.kind)) :=
    State.get_congr (counters _ (counterOf_lt _))
  have serves : t.keyServes x = s.keyServes x := by
    unfold State.keyServes
    rw [vendor]
    by_cases slot : x.keyslot < 4
    · rw [State.get_congr (f := F.SEC_KEY.STATE _) (keys _ slot), State.get_congr (f := F.SEC_KEY.USAGE _) (keys _ slot)]
    · simp only [decide_eq_false slot, Bool.false_and]
  unfold State.verifyResult
  rw [uid, serves, counter]

theorem State.verifyResult_taken (x : Image) : (s.taken pf w c).verifyResult x = s.verifyResult x := by
  obtain ⟨y, sec⟩ := s.taken_rest pf w c
  refine State.verifyResult_congr (by rw [sec]) (s.rd_taken _ _ _ (by decide)) (s.rd_taken _ _ _ (by decide))
    (fun i few => s.rd_taken _ _ _ ?_) (fun i few => s.rd_taken _ _ _ ?_) x
  · simp only [Untaken, A.SEC_KEY, A.ENG_DENY_CNT, A.ENG_EVT, A.CEL_DROP, A.CEL_EVT, A.SEC_CMD, A.SEC_LEN, A.SEC_BUF]
    omega
  · simp only [Untaken, A.SEC_SVN, A.ENG_DENY_CNT, A.ENG_EVT, A.CEL_DROP, A.CEL_EVT, A.SEC_CMD, A.SEC_LEN, A.SEC_BUF]
    omega

theorem State.freeSlot_taken (k : Nat) : (s.taken pf w c).freeSlot k = s.freeSlot k := by
  obtain ⟨y, sec⟩ := s.taken_rest pf w c
  unfold State.freeSlot State.slotImage
  rw [sec]

theorem State.full_opsec (q : List Raised) (n : Nat) (f g : Field) :
    ((({ s with cel := { s.cel with queue := q, queueSince := n } } : State).bump f).raise g).cel.opsec = s.cel.opsec := by
  rw [State.raise_cel, State.bump_cel]

/-- An entry that joins a full queue drops one and says so. -/
theorem State.enqueue_of_full (e : Raised) (runs : ¬ s.pwr.celStop = true) (full : ¬ s.cel.queue.length < celQueueMax) :
    ∃ q n, s.enqueue e =
      (({ s with cel := { s.cel with queue := q, queueSince := n } } : State).bump F.CEL_DROP.QUEUE).raise F.CEL_EVT.DROP := by
  unfold State.enqueue
  rw [if_neg runs, if_neg full]
  exact ⟨_, _, rfl⟩

/-- An entry that joins the queue leaves the operating seconds. -/
theorem State.enqueue_opsec (e : Raised) : (s.enqueue e).cel.opsec = s.cel.opsec := by
  by_cases stopped : s.pwr.celStop = true
  · unfold State.enqueue
    rw [if_pos stopped]
  by_cases room : s.cel.queue.length < celQueueMax
  · unfold State.enqueue
    rw [if_neg stopped, if_pos room]
  · obtain ⟨q, n, eq⟩ := s.enqueue_of_full e stopped room
    rw [eq]
    exact s.full_opsec q n _ _

theorem State.log_opsec (code v : Nat) (d : List Byte) : (s.log code v d).cel.opsec = s.cel.opsec := s.enqueue_opsec _

theorem State.deny_opsec (pf cause off : Nat) : (s.deny pf cause off).cel.opsec = s.cel.opsec := by
  have counted : ∀ (t : State) (f g : Field) (v u : Nat), (((t.set f v).set g u).raise F.ENG_EVT.DENY).cel = t.cel := fun t f g v u => by
    rw [State.raise_cel, State.set_cel, State.set_cel]
  exact (State.log_opsec _ _ _ _).trans (congrArg CelSt.opsec ((counted _ _ _ _ _).trans (State.bump_cel s _)))

theorem State.touch_cel : (s.touch pf).cel = s.cel := (State.touch_kept (.refl 16 s) (.refl _)).parts .cel rfl

theorem State.checked_opsec (reg : Nat) (right : Option Nat) : (s.checked pf reg w right).cel.opsec = s.cel.opsec := by
  have denied : ∀ cause, ((s.touch pf).deny pf cause reg).cel.opsec = s.cel.opsec := fun cause => by rw [State.deny_opsec, State.touch_cel]
  unfold State.checked State.gate
  dsimp only
  split
  · exact denied 4
  · split
    · exact denied _
    · split
      · exact denied 4
      · split
        · exact denied 4
        · exact congrArg CelSt.opsec (s.touch_cel pf)

theorem State.withSec_cel (x : SecSt) : (s.withSec x).cel = s.cel := rfl

theorem State.opsec_taken : (s.taken pf w c).cel.opsec = s.cel.opsec := by
  rw [State.taken, State.withSec_cel, ((s.checked pf A.SEC_CMD w none).takenShown_kept pf c).parts .cel rfl, State.checked_opsec]

theorem State.attestsLive_taken : (s.taken pf w c).attestsLive = s.attestsLive := by
  obtain ⟨y, sec⟩ := s.taken_rest pf w c
  unfold State.attestsLive
  rw [sec, State.opsec_taken]

theorem State.sessionKey_taken {k : Nat} (h : k < 256) : (s.taken pf w c).sessionKey k = s.sessionKey k := by
  unfold State.sessionKey
  rw [s.get_key_taken _ _ _ h (f := F.SEC_KEY.STATE _) rfl, s.get_key_taken _ _ _ h (f := F.SEC_KEY.USAGE _) rfl]

end

/-! ### What each command answers -/

section
variable (s : State)

theorem State.challenge_free (nonce : BitVec 256) (h : s.flag F.SEC_STATUS.LOCKOUT = false) : ∃ rsp seq, s.challenge nonce =
    ⟨0, rsp, s.withSec { s.sec with chalSeq := seq, challenge := some ⟨nonce, seq, s.six⟩ }⟩ :=
  ⟨_, _, if_neg (by rw [h]; decide)⟩

/-- The session of a token, as it opens. -/
def State.sessionOf (t : List Byte) : Session :=
  ⟨tokNat t 6 2, tokNat t 0x38 1, (t.drop 0x40).take 16, s.six + tokNat t 0x34 4 * samplesPerSecond, s.six⟩

theorem State.sessionOpen_eq (t : List Byte) : ∃ d, s.sessionOpen t =
    ((((((s.sessionClose 4).withSec { (s.sessionClose 4).sec with session := some ((s.sessionClose 4).sessionOf t) }).set
      F.ENG_SESS.RIGHTS (tokNat t 6 2)).set F.ENG_SESS.KEYSLOT (tokNat t 0x38 1)).set F.ENG_STATE.SESSION 1).raise F.ENG_EVT.SESSION_OPEN).log 0x80 2 d :=
  ⟨_, rfl⟩

theorem State.sessionOpen_sec (t : List Byte) : (s.sessionOpen t).sec =
    { (s.sessionClose 4).sec with session := some ((s.sessionClose 4).sessionOf t) } := by
  obtain ⟨d, eq⟩ := s.sessionOpen_eq t
  rw [eq, State.log_sec, State.raise_sec, State.set_sec, State.set_sec, State.set_sec]
  rfl

theorem State.rd_sessionOpen (t : List Byte) {a : Nat} (h : BesideDma a) (high : A.ENG_SESS < a) : (s.sessionOpen t).rd a = s.rd a := by
  obtain ⟨d, eq⟩ := s.sessionOpen_eq t
  have close := s.rd_sessionClose 4 h high
  simp only [A.ENG_SESS] at high
  rw [eq, State.rd_log _ _ _ _ h.2.1 h.2.2, State.rd_raise_ne _ (show a ≠ A.ENG_EVT by simp only [A.ENG_EVT]; omega),
    State.rd_set_ne _ _ (show a ≠ A.ENG_STATE by simp only [A.ENG_STATE]; omega), State.rd_set_ne _ _ (show a ≠ A.ENG_SESS by simp only [A.ENG_SESS]; omega),
    State.rd_set_ne _ _ (show a ≠ A.ENG_SESS by simp only [A.ENG_SESS]; omega), State.rd_congr (State.withSec_regs _ _), close]

theorem State.sessionClose_rest (n : Nat) : (s.sessionClose n).sec = { s.sec with session := none } := by
  cases open_ : s.sec.session with
  | none =>
    rw [s.sessionClose_none open_, ← open_]
  | some x =>
    obtain ⟨d, eq⟩ := s.sessionClose_some (c := n) open_
    rw [eq, State.log_sec, State.raise_sec, State.sessShown_sec, ← s.dmaSession_sec]
    rfl

theorem State.fresh_six : s.fresh.2.six = s.six := rfl

theorem State.dmaCopy_six (d : Desc) (k : Nat) : (s.dmaCopy d k).six = s.six := by
  unfold State.dmaCopy
  refine foldl_keeps State.six (fun t i => ?_) _ _
  rfl

theorem State.dmaFault_six (c code resid faddr : Nat) : (s.dmaFault c code resid faddr).six = s.six :=
  congrArg Clk.six ((State.dmaFault_kept (.refl _ s) (.refl _)).parts .clk rfl)

theorem State.dmaHalt_six (c st code : Nat) : (s.dmaHalt c st code).six = s.six := by
  unfold State.dmaHalt
  split
  · dsimp only
    split
    · rw [State.dmaFault_six, State.dmaCopy_six, State.fresh_six]
    · unfold State.six
      rw [State.setDma_clk, State.set64_clk, State.set_clk, State.set_clk, State.set_clk]
      exact (State.dmaCopy_six _ _ _).trans s.fresh_six
  · rfl

theorem State.dmaSession_six : s.dmaSession.six = s.six := by
  unfold State.dmaSession
  refine foldl_keeps State.six (fun t i => ?_) _ _
  split
  · exact State.dmaHalt_six _ _ _ _
  · rfl

theorem State.sessionClose_six (n : Nat) : (s.sessionClose n).six = s.six := by
  cases open_ : s.sec.session with
  | none => rw [s.sessionClose_none open_]
  | some x =>
    obtain ⟨d, eq⟩ := s.sessionClose_some (c := n) open_
    rw [eq, ← s.dmaSession_six]
    unfold State.six State.sessShown
    rw [State.log_clk, State.raise_clk, State.set_clk, State.set_clk, State.set_clk, State.withSec_clk]

theorem State.grant_opens {t : List Byte} {sig : Bool} (h : s.grantResult t sig = 0) :
    s.grant t sig = ((s.withSec { s.sec with challenge := none }).sessionOpen t).say 0 := by
  have zero : s.grantResult t sig = 0 := h
  exact (if_pos zero)

/-- An attestation uses an index of the identity key. -/
theorem State.attest_signs {nonce : List Byte} (length : nonce.length = 32) (left : s.get F.SEC_XMSS_LEFT.LEFT ≠ 0) (rate : s.attestsLive.length < 64) :
    s.attest nonce = ⟨0, ((s.withSec { s.sec with attests := s.cel.opsec :: s.attestsLive }).signReport 1 nonce 0 0).1,
      ((s.withSec { s.sec with attests := s.cel.opsec :: s.attestsLive }).signReport 1 nonce 0 0).2⟩ := by
  unfold State.attest
  rw [if_neg (not_not.mpr length), if_neg left, if_neg (Nat.not_le.mpr rate)]
  rfl

/-- The next index and what is left of them. -/
def State.indexUsed (left : Nat) (d : List Byte) : State :=
  ((s.withSec { s.sec with xmssIndex := s.sec.xmssIndex + 1 }).set F.SEC_XMSS_LEFT.LEFT left).log 0x89 1 d

theorem State.signReport_cases (kind : Nat) (nonce : List Byte) (wipe checked : Nat) : ∃ d,
    (s.signReport kind nonce wipe checked).2 = s.indexUsed (s.get F.SEC_XMSS_LEFT.LEFT - 1) d ∨
    ∃ e, (s.signReport kind nonce wipe checked).2 = ((s.indexUsed (s.get F.SEC_XMSS_LEFT.LEFT - 1) d).raise F.SEC_EVT.XMSS_LOW).log 0x8A 2 e := by
  by_cases low : s.get F.SEC_XMSS_LEFT.LEFT - 1 = 65536
  · exact ⟨_, .inr ⟨_, if_pos low⟩⟩
  · exact ⟨_, .inl (if_neg low)⟩

theorem State.signReport_shows (kind : Nat) (nonce : List Byte) (wipe checked : Nat) :
    (s.signReport kind nonce wipe checked).2.get F.SEC_XMSS_LEFT.LEFT = s.get F.SEC_XMSS_LEFT.LEFT - 1 ∧
    (s.signReport kind nonce wipe checked).2.sec.xmssIndex = s.sec.xmssIndex + 1 := by
  have used : ∀ d, (s.indexUsed (s.get F.SEC_XMSS_LEFT.LEFT - 1) d).get F.SEC_XMSS_LEFT.LEFT = s.get F.SEC_XMSS_LEFT.LEFT - 1 := by
    intro d
    have lt : s.get F.SEC_XMSS_LEFT.LEFT < 2 ^ 21 := fieldOf_lt _ _ _
    rw [State.indexUsed, State.get_log _ _ _ _ (by decide) (by decide), State.get_set_same _ _ _ (by decide)]
    exact Nat.mod_eq_of_lt (by simp only [F.SEC_XMSS_LEFT.LEFT] at lt ⊢; omega)
  have index : ∀ d, (s.indexUsed (s.get F.SEC_XMSS_LEFT.LEFT - 1) d).sec.xmssIndex = s.sec.xmssIndex + 1 := by
    intro d
    rw [State.indexUsed, State.log_sec, State.set_sec]
    rfl
  obtain ⟨d, eq | ⟨e, eq⟩⟩ := s.signReport_cases kind nonce wipe checked
  · rw [eq]
    exact ⟨used d, index d⟩
  · rw [eq, State.get_log _ _ _ _ (by decide) (by decide), State.get_raise_ne _ (by decide), State.log_sec, State.raise_sec]
    exact ⟨used d, index d⟩

/-- With the right and the length a command's body runs. -/
theorem State.withRight_runs {pf r n : Nat} {req : List Byte} {body : State → Answer} (may : s.rightCause pf (some r) = none) (length : req.length = n) :
    s.withRight pf r n req body = body s := by
  unfold State.withRight
  rw [may, if_neg (by decide), if_neg (not_not.mpr length)]

/-- The island's record with an image in the free slot of its kind. -/
def State.imageStored (x : Image) (kind : Nat) : SecSt :=
  { s.sec with
    slots := kvPut (fun _ => none) s.sec.slots (s.freeSlot kind) (some x), newer := kvPut (fun _ => 0) s.sec.newer (kind - 1) (s.freeSlot kind % 2),
    upload := if kind = 2 then some x else s.sec.upload, uploadSix := if kind = 2 then none else s.sec.uploadSix }

theorem State.imageStored_slots (x : Image) (kind : Nat) :
    (s.imageStored x kind).slots = kvPut (fun _ => none) s.sec.slots (s.freeSlot kind) (some x) := rfl

/-- An image that verifies goes into the free slot of its kind. -/
theorem State.install_stores {req : List Byte} {x : Image} (tamper : s.flag F.SEC_STATUS.TAMPER = false) (kinds : 1 ≤ tokNat req 0 1)
    (kinds' : tokNat req 0 1 ≤ 3) (zero : tokZero req 1 3 = true) (area : uploadArea ≤ tokNat req 4 8) (kind : x.kind = tokNat req 0 1)
    (good : s.verifyResult x = 0) (stem : s.opstate ≠ 1) : ∃ d, s.install req (some x) true =
      ((s.withSec (s.imageStored x (tokNat req 0 1))).log 0x84 2 d).say 0 := by
  have shape : ¬ (tokNat req 0 1 < 1 ∨ 3 < tokNat req 0 1 ∨ (!tokZero req 1 3) = true ∨ tokNat req 4 8 < uploadArea) := by
    rw [zero]
    rintro (low | high | nonzero | below)
    · omega
    · omega
    · cases nonzero
    · omega
  have running : ¬ (tokNat req 0 1 = 2 ∧ s.opstate = opSTEM) := fun both => stem both.2
  unfold State.install
  dsimp only
  rw [tamper, if_neg (by decide), if_neg shape, if_neg (not_not.mpr kind), if_neg (not_not.mpr good), if_neg running, if_neg (by decide)]
  exact ⟨_, rfl⟩

theorem State.svnCommit_raises {k : Nat} (low : 1 ≤ k) (high : k ≤ 3)
    (old : s.get (F.SEC_SVN.COUNTER (counterOf k)) < s.get (F.SEC_SVN.RUNNING (counterOf k))) : ∃ rsp d, s.svnCommit k =
      ⟨0, rsp, (s.set (F.SEC_SVN.COUNTER (counterOf k)) (s.get (F.SEC_SVN.RUNNING (counterOf k)))).log 0x85 2 d⟩ := by
  unfold State.svnCommit
  dsimp only
  rw [if_neg (show ¬ (k < 1 ∨ 3 < k) by omega), if_neg (Nat.not_le.mpr old)]
  exact ⟨_, _, rfl⟩

/-- The registers of a key slot that is programmed. -/
def State.keyShown (k usage param : Nat) : State := ((s.set (F.SEC_KEY.STATE k) 1).set (F.SEC_KEY.USAGE k) usage).set (F.SEC_KEY.PARAM k) param

theorem State.keyProgram_stores {req : List Byte} (tamper : s.flag F.SEC_STATUS.TAMPER = false) (length : req.length = 72)
    (slot : tokNat req 0 1 ≤ 3) (usage : tokNat req 1 1 < 8) (zero : tokZero req 2 3 = true) (low : 0x10 ≤ leNat ((req.drop 4).take 4).reverse)
    (high : leNat ((req.drop 4).take 4).reverse ≤ 0x12) (blank : s.get (F.SEC_KEY.STATE (tokNat req 0 1)) = 0) : ∃ x param, s.keyProgram req true =
      ((((s.withSec x).keyShown (tokNat req 0 1) (tokNat req 1 1) param).keyChange (tokNat req 0 1) 1).say 0) := by
  have shape : ¬ (req.length ≠ 72 ∨ 3 < tokNat req 0 1 ∨ 8 ≤ tokNat req 1 1 ∨ (!tokZero req 2 3) = true ∨
      leNat ((req.drop 4).take 4).reverse < 0x10 ∨ 0x12 < leNat ((req.drop 4).take 4).reverse) := by
    rw [zero]
    rintro (a | a | a | a | a | a)
    · exact a length
    · omega
    · omega
    · cases a
    · omega
    · omega
  unfold State.keyProgram
  dsimp only
  rw [tamper, if_neg (by decide), if_neg shape, if_neg (not_not.mpr blank), if_neg (by decide)]
  exact ⟨{ s.sec with keyBytes := kvPut (fun _ => []) s.sec.keyBytes (tokNat req 0 1) (req.drop 4) }, _, rfl⟩

/-- KEY_CHANGE writes SEC_EVT alone of the island's registers. -/
theorem State.get_keyChange (k what : Nat) {f : Field} (drop : f.addr ≠ A.CEL_DROP) (evt : f.addr ≠ A.CEL_EVT) (own : f.addr ≠ A.SEC_EVT) :
    (s.keyChange k what).get f = s.get f := by
  unfold State.keyChange
  rw [State.get_log _ _ _ _ drop evt, State.get_raise_ne _ own]

theorem State.event_keyChange (k what : Nat) : (s.keyChange k what).get F.SEC_EVT.KEY_CHANGE = 1 := by
  unfold State.keyChange
  rw [State.get_log _ _ _ _ (by decide) (by decide), State.get_raise _ (by decide)]
  rfl

theorem State.key_apart {k : Nat} (h : k ≤ 3) : A.SEC_KEY k ≠ A.CEL_DROP ∧ A.SEC_KEY k ≠ A.CEL_EVT ∧ A.SEC_KEY k ≠ A.SEC_EVT ∧
    A.SEC_CMD ≠ A.SEC_KEY k ∧ BesideDma (A.SEC_KEY k) ∧ A.ENG_SESS < A.SEC_KEY k := by
  simp only [BesideDma, A.SEC_KEY, A.CEL_DROP, A.CEL_EVT, A.SEC_EVT, A.SEC_CMD, A.DMA_EVT, A.ENG_SESS]
  omega

/-- The state after a revocation: the session of that key closes too. -/
def State.revoked (k : Nat) : State :=
  if ((s.set (F.SEC_KEY.STATE k) 2).keyChange k 2).sec.session.any (fun x => x.slot == k) then
    ((s.set (F.SEC_KEY.STATE k) 2).keyChange k 2).sessionClose 6 else (s.set (F.SEC_KEY.STATE k) 2).keyChange k 2

theorem State.keyRevoke_revokes {k : Nat} (slot : k ≤ 3) (active : s.get (F.SEC_KEY.STATE k) = 1) (other : s.sessionKey k = false) :
    s.keyRevoke k = (s.revoked k).say 0 := by
  unfold State.keyRevoke
  rw [if_neg (Nat.not_lt.mpr slot), if_neg (not_not.mpr active), other, Bool.false_and, if_neg (by decide)]
  rfl

theorem State.rd_revoked (k : Nat) {a : Nat} (h : BesideDma a) (high : A.ENG_SESS < a) :
    (s.revoked k).rd a = ((s.set (F.SEC_KEY.STATE k) 2).keyChange k 2).rd a := by
  unfold State.revoked
  split
  · exact State.rd_sessionClose _ _ h high
  · rfl

/-- From OPERATIONAL to MAINTENANCE. -/
theorem State.lifecycle_maintenance {pf : Nat} {req : List Byte} {sig : Bool} {bad : Nat} (may : s.rightCause pf (some rightSECURITY) = none)
    (length : req.length = 4) (zero : tokZero req 1 3 = true) (target : tokNat req 0 1 = 3) (lc : s.lc = 2) :
    s.lifecycle pf req sig bad = (s.lcChange 3).say 0 := by
  unfold State.lifecycle
  dsimp only
  rw [target, lc, may, length, zero]
  rfl

theorem State.lcChange_shows (n : Nat) (h : n < 8) : (s.lcChange n).lc = n ∧ (s.lcChange n).get F.SEC_EVT.LC_CHANGE = 1 ∧
    (s.lcChange n).get F.SEC_CMD.BUSY = s.get F.SEC_CMD.BUSY := by
  have entered : ∃ d, s.lcChange n = ((((s.sessionClose 6).set F.SEC_STATUS.LC n).set F.ENG_STATE.LC n).log 0x87 3 d).raise F.SEC_EVT.LC_CHANGE := ⟨_, rfl⟩
  obtain ⟨d, eq⟩ := entered
  rw [eq]
  refine ⟨?_, ?_, ?_⟩
  · unfold State.lc
    rw [State.get_raise_ne _ (by decide), State.get_log _ _ _ _ (by decide) (by decide), State.get_set_ne _ _ (by decide), State.get_set_same _ _ _ (by decide)]
    exact Nat.mod_eq_of_lt h
  · rw [State.get_raise _ (by decide)]
    rfl
  · rw [State.get_raise_ne _ (by decide), State.get_log _ _ _ _ (by decide) (by decide), State.get_set_ne _ _ (by decide), State.get_set_ne _ _ (by decide)]
    exact State.get_congr (s.rd_sessionClose 6 ⟨.inr (by decide), by decide, by decide⟩ (by decide))

/-- The latch as TAMPER_CLEAR leaves it. -/
def State.tamperCleared : State :=
  (((s.set F.SEC_STATUS.TAMP_PIN 0).set F.SEC_STATUS.TAMPER 0).set F.SEC_STATUS.TCAUSE 0).set F.ENG_STATE.TAMPER 0

theorem State.tamperClear_clears (h : s.flag F.SEC_STATUS.TAMPER = true) : ∃ d, s.tamperClear true = (s.tamperCleared.lastResort 0x88 d).say 0 := by
  have still : (s.set F.SEC_STATUS.TAMP_PIN 0).flag F.SEC_STATUS.TAMPER = true := by
    rw [State.flag_of_get _ (State.get_set_apart _ _ (by decide) (by decide))]
    exact h
  unfold State.tamperClear
  rw [if_neg (by decide)]
  dsimp only
  rw [if_pos still]
  exact ⟨_, rfl⟩

theorem State.get_lastResort (code : Nat) (d : List Byte) {f : Field} (drop : f.addr ≠ A.CEL_DROP) (evt : f.addr ≠ A.CEL_EVT)
    (last : f.addr < A.CEL_LASTW 0 ∨ A.CEL_LASTW 16 ≤ f.addr) : (s.lastResort code d).get f = s.get f :=
  State.get_congr (s.rd_lastResort code d drop evt fun i small => by simp only [A.CEL_LASTW] at last ⊢; omega)

theorem State.tamperCleared_shows : s.tamperCleared.get F.SEC_STATUS.TAMPER = 0 ∧ s.tamperCleared.get F.SEC_STATUS.TAMP_PIN = 0 ∧
    s.tamperCleared.get F.SEC_CMD.BUSY = s.get F.SEC_CMD.BUSY := by
  unfold State.tamperCleared
  refine ⟨?_, ?_, ?_⟩
  · rw [State.get_set_ne _ _ (by decide), State.get_set_apart _ _ (by decide) (by decide), State.get_set_same _ _ _ (by decide)]
    rfl
  · rw [State.get_set_ne _ _ (by decide), State.get_set_apart _ _ (by decide) (by decide), State.get_set_apart _ _ (by decide) (by decide),
      State.get_set_same _ _ _ (by decide)]
    rfl
  · rw [State.get_set_ne _ _ (by decide), State.get_set_ne _ _ (by decide), State.get_set_ne _ _ (by decide), State.get_set_ne _ _ (by decide)]

end

/-! ### Completion -/

section
variable (s : State)

theorem State.rd_bufFill (bs : List Byte) {a : Nat} (short : bs.length ≤ 4096) (h : a < A.SEC_BUF 0 ∨ A.SEC_BUF 1024 ≤ a) :
    (s.bufFill bs).rd a = s.rd a := by
  unfold State.bufFill
  refine foldl_invariant (P := fun t : State => t.rd a = s.rd a) _ rfl fun t i inside same => ?_
  have small := List.mem_range.mp inside
  exact (t.rd_wr_ne _ (by simp only [A.SEC_BUF] at h ⊢; omega)).trans same

/-- RESULT, BUSY, the length and the event of a command that is done. -/
def State.doneRegs (m : MboxRun) : State :=
  (((s.set F.SEC_LEN.RSP m.response.length).set F.SEC_CMD.RESULT m.result).set F.SEC_CMD.BUSY 0).raise F.SEC_EVT.DONE

/-- The response stands in SEC_BUF, and the registers say so. -/
def State.doneShown (m : MboxRun) : State := (s.bufFill m.response).doneRegs m

/-- The island's record once a command is done. -/
def State.mailboxIdle (pf : Nat) : SecSt :=
  { s.sec with
    mbox := none, respPf := some pf, respSix := s.six, uartWait := none
    uploadSix := if s.sec.upload.isSome && s.sec.uploadSix.isNone then some s.six else s.sec.uploadSix }

theorem State.doneRegs_sec (m : MboxRun) : (s.doneRegs m).sec = s.sec := by
  unfold State.doneRegs
  rw [State.raise_sec, State.set_sec, State.set_sec, State.set_sec]

theorem State.bufFill_sec (bs : List Byte) : (s.bufFill bs).sec = s.sec := (State.bufFill_kept (.refl 2 s) (.refl _)).parts .sec rfl

theorem State.doneShown_sec (m : MboxRun) : (s.doneShown m).sec = s.sec := (State.doneRegs_sec _ m).trans (s.bufFill_sec _)

theorem State.wipeDone_idle (h : s.sec.wiping = false) : s.wipeDone = s := if_neg (by rw [h]; decide)

variable {s} in
theorem execMailboxDone_ends {m : MboxRun} (some_ : s.sec.mbox = some m) (runs : s.islandRuns = true) (wipe : s.sec.wiping = false)
    (uart : s.sec.uartWait = none) : execMailboxDone s = .next ((s.doneShown m).withSec ((s.doneShown m).mailboxIdle m.pf)) := by
  have still : s.wipeDone = s := s.wipeDone_idle wipe
  have waits : (((((s.bufFill m.response).set F.SEC_LEN.RSP m.response.length).set F.SEC_CMD.RESULT m.result).set F.SEC_CMD.BUSY 0).raise
      F.SEC_EVT.DONE).sec.uartWait = none := (congrArg SecSt.uartWait (s.doneShown_sec m)).trans uart
  simp only [execMailboxDone, some_, runs, still, waits]
  rfl

theorem State.doneShown_shows {m : MboxRun} (res : m.result < 16) (len : m.response.length ≤ 4096) : (s.doneShown m).get F.SEC_CMD.RESULT = m.result ∧
    (s.doneShown m).get F.SEC_CMD.BUSY = 0 ∧ (s.doneShown m).get F.SEC_LEN.RSP = m.response.length ∧ (s.doneShown m).get F.SEC_EVT.DONE = 1 := by
  unfold State.doneShown State.doneRegs
  refine ⟨?_, ?_, ?_, ?_⟩
  · rw [State.get_raise_ne _ (by decide), State.get_set_apart _ _ (by decide) (by decide), State.get_set_same _ _ _ (by decide)]
    exact Nat.mod_eq_of_lt res
  · rw [State.get_raise_ne _ (by decide), State.get_set_same _ _ _ (by decide)]
    rfl
  · rw [State.get_raise_ne _ (by decide), State.get_set_ne _ _ (by decide), State.get_set_ne _ _ (by decide), State.get_set_same _ _ _ (by decide)]
    exact Nat.mod_eq_of_lt (by simp only [F.SEC_LEN.RSP]; omega)
  · rw [State.get_raise _ (by decide)]
    rfl

end

/-! ### Each command from its GO -/

theorem Answer.get_boxed (a : Answer) (pf : Nat) (f : Field) : (a.boxed pf).get f = a.st.get f := State.get_congr (State.rd_congr (a.boxed_regs pf) _)

theorem State.get_withSec (s : State) (x : SecSt) (f : Field) : (s.withSec x).get f = s.get f := State.get_congr (State.rd_congr (s.withSec_regs x) _)

theorem State.withSec_sec (s : State) (x : SecSt) : (s.withSec x).sec = x := rfl

section
variable {s : State} {pf : Fin 2} {w : Word} {c : Nat}

theorem execChallenge_issues {nonce : BitVec 256} (go : s.Goes pf w 0x01) (lock : s.flag F.SEC_STATUS.LOCKOUT = false) :
    ∃ t, execChallenge pf w nonce s = .next t ∧ t.get F.SEC_CMD.BUSY = 1 ∧
      t.sec.challenge.map (fun c => (c.nonce, c.issued)) = some (nonce, s.six) := by
  obtain ⟨rsp, seq, eq⟩ := (s.taken pf w 0x01).challenge_free nonce ((s.flag_taken _ _ _ (by decide)).trans lock)
  refine ⟨_, congrArg Host.Outcome.next (go.takes fun t _ => t.challenge nonce), ?_, ?_⟩
  · rw [eq, Answer.get_boxed, State.get_withSec]
    exact s.busy_taken _ _ _
  · rw [eq, Answer.boxed_sec, State.withSec_sec, State.taken_six]
    rfl

theorem execGrant_opens {sig : Bool} (go : s.Goes pf w 0x02) (grants : s.grantResult (s.bufBytes (s.get F.SEC_LEN.REQ)) sig = 0) :
    ∃ t, execGrant pf w sig s = .next t ∧ (t.sec.mbox = some ⟨pf.val, 0, []⟩ ∧ t.get F.SEC_CMD.BUSY = 1) ∧ t.sec.challenge = none ∧
      t.sec.session.map (fun y => (y.rights, y.slot, y.lastAcc)) = some (tokNat (s.bufBytes (s.get F.SEC_LEN.REQ)) 6 2,
        tokNat (s.bufBytes (s.get F.SEC_LEN.REQ)) 0x38 1, s.six) := by
  obtain ⟨req, hreq⟩ : ∃ req, req = s.bufBytes (s.get F.SEC_LEN.REQ) := ⟨_, rfl⟩
  obtain ⟨t, ht⟩ : ∃ t, t = s.taken pf w 0x02 := ⟨_, rfl⟩
  have zero : t.grantResult req sig = 0 := by rw [ht, hreq, State.grantResult_taken, grants]
  have busy : t.get F.SEC_CMD.BUSY = 1 := by rw [ht]; exact s.busy_taken _ _ _
  have six : t.six = s.six := by rw [ht]; exact s.taken_six _ _ _
  refine ⟨_, congrArg Host.Outcome.next (go.takes fun t req => t.grant req sig), ?_⟩
  rw [← hreq, ← ht, ← six, t.grant_opens zero]
  obtain ⟨v, hv⟩ : ∃ v, v = t.withSec { t.sec with challenge := none } := ⟨_, rfl⟩
  have vsix : v.six = t.six := by rw [hv]; exact congrArg Clk.six (t.withSec_clk _)
  have vbusy : v.get F.SEC_CMD.BUSY = 1 := by rw [hv, State.get_withSec, busy]
  have vchal : v.sec.challenge = none := by rw [hv]; rfl
  rw [← hv, State.say, Answer.boxed_sec, Answer.get_boxed]
  refine ⟨⟨rfl, ?_⟩, ?_, ?_⟩
  · exact (State.get_congr (v.rd_sessionOpen req ⟨.inr (by decide), by decide, by decide⟩ (by decide))).trans vbusy
  · dsimp only
    rw [State.sessionOpen_sec, State.sessionClose_rest]
    exact vchal
  · dsimp only
    rw [State.sessionOpen_sec, Option.map_some, State.sessionOf, State.sessionClose_six, vsix]

theorem execAttest_signs (go : s.Goes pf w 0x03) (length : (s.bufBytes (s.get F.SEC_LEN.REQ)).length = 32) (left : s.get F.SEC_XMSS_LEFT.LEFT ≠ 0)
    (rate : s.attestsLive.length < 64) : ∃ t, execAttest pf w s = .next t ∧ t.get F.SEC_XMSS_LEFT.LEFT = s.get F.SEC_XMSS_LEFT.LEFT - 1 ∧
      t.sec.xmssIndex = s.sec.xmssIndex + 1 ∧ t.sec.mbox.map (·.result) = some 0 := by
  obtain ⟨t, ht⟩ : ∃ t, t = s.taken pf w 0x03 := ⟨_, rfl⟩
  have same : t.get F.SEC_XMSS_LEFT.LEFT = s.get F.SEC_XMSS_LEFT.LEFT := by rw [ht]; exact s.get_taken _ _ _ (by decide)
  have live : t.attestsLive = s.attestsLive := by rw [ht, State.attestsLive_taken]
  have index : t.sec.xmssIndex = s.sec.xmssIndex := by
    obtain ⟨y, sec⟩ := s.taken_rest pf w 0x03
    rw [ht, sec]
  refine ⟨_, congrArg Host.Outcome.next (go.takes fun t req => t.attest req), ?_⟩
  rw [← ht, t.attest_signs length (same ▸ left) (live ▸ rate)]
  obtain ⟨v, hv⟩ : ∃ v, v = t.withSec { t.sec with attests := t.cel.opsec :: t.attestsLive } := ⟨_, rfl⟩
  have vleft : v.get F.SEC_XMSS_LEFT.LEFT = t.get F.SEC_XMSS_LEFT.LEFT := by rw [hv, State.get_withSec]
  have vindex : v.sec.xmssIndex = t.sec.xmssIndex := by rw [hv]; rfl
  obtain ⟨used, next⟩ := v.signReport_shows 1 (s.bufBytes (s.get F.SEC_LEN.REQ)) 0 0
  rw [← hv, Answer.get_boxed, Answer.boxed_sec]
  exact ⟨used.trans (by rw [vleft, same]), next.trans (by rw [vindex, index]), rfl⟩

theorem execIdentity_answers (go : s.Goes pf w 0x04) : ∃ t, execIdentity pf w s = .next t ∧ t.sec.mbox.map (·.result) = some 0 ∧
    t.sec.session.isSome = s.sec.session.isSome := by
  refine ⟨_, congrArg Host.Outcome.next (go.takes fun t _ => t.identity), ?_⟩
  rw [State.identity, Answer.boxed_sec, ← s.touch_session_none_iff pf, State.taken_sec]
  exact ⟨rfl, rfl⟩

theorem execInstall_stores {x : Image} (go : s.Goes pf w 0x05) (right : s.rightCause pf (some rightCHANGE) = none) {req : List Byte}
    (hreq : req = s.bufBytes (s.get F.SEC_LEN.REQ)) (length : req.length = 12) (tamper : s.flag F.SEC_STATUS.TAMPER = false) (low : 1 ≤ tokNat req 0 1)
    (high : tokNat req 0 1 ≤ 3) (zero : tokZero req 1 3 = true) (area : uploadArea ≤ tokNat req 4 8) (kind : x.kind = tokNat req 0 1)
    (good : s.verifyResult x = 0) (stem : s.opstate ≠ 1) : ∃ t, execInstall pf w (some x) true s = .next t ∧
      (t.sec.mbox = some ⟨pf.val, 0, []⟩ ∧ t.get F.SEC_CMD.BUSY = 1) ∧ kvGet (fun _ => none) t.sec.slots (s.freeSlot (tokNat req 0 1)) = some x := by
  obtain ⟨t, ht⟩ : ∃ t, t = s.taken pf w 0x05 := ⟨_, rfl⟩
  have busy : t.get F.SEC_CMD.BUSY = 1 := by rw [ht]; exact s.busy_taken _ _ _
  have free : t.freeSlot (tokNat req 0 1) = s.freeSlot (tokNat req 0 1) := by rw [ht, State.freeSlot_taken]
  obtain ⟨d, eq⟩ := t.install_stores (x := x) (by rw [ht, State.tamper_taken, tamper]) low high zero area kind (by rw [ht, State.verifyResult_taken, good])
    (by rw [ht]; exact fun at_ => stem ((s.get_taken pf w 0x05 (f := F.PWR_STATE.OPSTATE) (by decide)).symm.trans at_))
  refine ⟨_, congrArg Host.Outcome.next (go.takes fun t req => t.withRight pf rightCHANGE 12 req fun u => u.install req (some x) true), ?_⟩
  rw [← hreq, ← ht, t.withRight_runs (by rw [ht, State.rightCause_taken, right]) length, eq, State.say, Answer.boxed_sec, Answer.get_boxed, ← free]
  refine ⟨⟨rfl, ?_⟩, ?_⟩
  · rw [State.get_log _ _ _ _ (by decide) (by decide), State.get_withSec, busy]
  · dsimp only
    rw [State.log_sec, State.withSec_sec, State.imageStored_slots, kvGet_put_same]

theorem execSvnCommit_raises (go : s.Goes pf w 0x06) (right : s.rightCause pf (some rightCHANGE) = none) {req : List Byte}
    (hreq : req = s.bufBytes (s.get F.SEC_LEN.REQ)) (length : req.length = 1) (low : 1 ≤ tokNat req 0 1) (high : tokNat req 0 1 ≤ 3)
    (old : s.get (F.SEC_SVN.COUNTER (counterOf (tokNat req 0 1))) < s.get (F.SEC_SVN.RUNNING (counterOf (tokNat req 0 1)))) :
    ∃ t, execSvnCommit pf w s = .next t ∧
      t.get (F.SEC_SVN.COUNTER (counterOf (tokNat req 0 1))) = s.get (F.SEC_SVN.RUNNING (counterOf (tokNat req 0 1))) := by
  obtain ⟨t, ht⟩ : ∃ t, t = s.taken pf w 0x06 := ⟨_, rfl⟩
  obtain ⟨i, hi⟩ : ∃ i, i = counterOf (tokNat req 0 1) := ⟨_, rfl⟩
  have place : i < 3 := hi ▸ counterOf_lt _
  have untaken : Untaken (A.SEC_SVN i) := by
    simp only [Untaken, A.SEC_SVN, A.ENG_DENY_CNT, A.ENG_EVT, A.CEL_DROP, A.CEL_EVT, A.SEC_CMD, A.SEC_LEN, A.SEC_BUF]
    omega
  have counter : t.get (F.SEC_SVN.COUNTER i) = s.get (F.SEC_SVN.COUNTER i) := by rw [ht]; exact s.get_taken _ _ _ untaken
  have running : t.get (F.SEC_SVN.RUNNING i) = s.get (F.SEC_SVN.RUNNING i) := by rw [ht]; exact s.get_taken _ _ _ untaken
  obtain ⟨rsp, d, eq⟩ := t.svnCommit_raises low high (by rw [← hi] at old ⊢; rw [counter, running]; exact old)
  refine ⟨_, congrArg Host.Outcome.next (go.takes fun t req => t.withRight pf rightCHANGE 1 req fun u => u.svnCommit (tokNat req 0 1)), ?_⟩
  have lt : t.get (F.SEC_SVN.RUNNING i) < 2 ^ 16 := fieldOf_lt _ _ _
  rw [← hreq, ← ht, t.withRight_runs (by rw [ht, State.rightCause_taken, right]) length, eq, Answer.get_boxed, ← hi, ← running]
  dsimp only
  rw [State.get_log (g := F.SEC_SVN.COUNTER i) _ _ _ _ (by simp only [F.SEC_SVN.COUNTER, A.SEC_SVN, A.CEL_DROP]; omega)
    (by simp only [F.SEC_SVN.COUNTER, A.SEC_SVN, A.CEL_EVT]; omega), State.get_set_same _ _ _ (by simp [F.SEC_SVN.COUNTER])]
  exact Nat.mod_eq_of_lt lt

theorem execKeyProgram_stores (go : s.Goes pf w 0x07) (right : s.rightCause pf (some rightSECURITY) = none) {req : List Byte}
    (hreq : req = s.bufBytes (s.get F.SEC_LEN.REQ)) (length : req.length = 72) (tamper : s.flag F.SEC_STATUS.TAMPER = false)
    (slot : tokNat req 0 1 ≤ 3) (usage : tokNat req 1 1 < 8) (zero : tokZero req 2 3 = true) (low : 0x10 ≤ leNat ((req.drop 4).take 4).reverse)
    (high : leNat ((req.drop 4).take 4).reverse ≤ 0x12) (blank : s.get (F.SEC_KEY.STATE (tokNat req 0 1)) = 0) :
    ∃ t, execKeyProgram pf w true s = .next t ∧ (t.sec.mbox = some ⟨pf.val, 0, []⟩ ∧ t.get F.SEC_CMD.BUSY = 1) ∧
      t.get (F.SEC_KEY.STATE (tokNat req 0 1)) = 1 ∧ t.get (F.SEC_KEY.USAGE (tokNat req 0 1)) = tokNat req 1 1 ∧ t.flag F.SEC_EVT.KEY_CHANGE = true := by
  obtain ⟨t, ht⟩ : ∃ t, t = s.taken pf w 0x07 := ⟨_, rfl⟩
  have busy : t.get F.SEC_CMD.BUSY = 1 := by rw [ht]; exact s.busy_taken _ _ _
  obtain ⟨k, hk⟩ : ∃ k, k = tokNat req 0 1 := ⟨_, rfl⟩
  have small : k ≤ 3 := hk ▸ slot
  obtain ⟨drop, evt, event, cmd, -, -⟩ := State.key_apart small
  obtain ⟨x, param, eq⟩ := t.keyProgram_stores (by rw [ht, State.tamper_taken, tamper]) length slot usage zero low high
    (by rw [ht, s.get_key_taken _ _ _ (show tokNat req 0 1 < 256 by omega) rfl, blank])
  refine ⟨_, congrArg Host.Outcome.next (go.takes fun t req => t.withRight pf rightSECURITY 72 req fun u => u.keyProgram req true), ?_⟩
  rw [← hreq, ← ht, t.withRight_runs (by rw [ht, State.rightCause_taken, right]) length, eq, State.say, Answer.boxed_sec, State.flag_eq,
    Answer.get_boxed, Answer.get_boxed, Answer.get_boxed, Answer.get_boxed, ← hk]
  refine ⟨⟨rfl, ?_⟩, ?_, ?_, ?_⟩
  · rw [State.get_keyChange _ _ _ (by decide) (by decide) (by decide), State.keyShown, State.get_set_ne _ _ cmd, State.get_set_ne _ _ cmd,
      State.get_set_ne _ _ cmd, State.get_withSec, busy]
  · rw [State.get_keyChange (f := F.SEC_KEY.STATE k) _ _ _ drop evt event, State.keyShown,
      State.get_set_apart _ _ (by simp [F.SEC_KEY.PARAM]) (by simp [F.SEC_KEY.PARAM, F.SEC_KEY.STATE]),
      State.get_set_apart _ _ (by simp [F.SEC_KEY.USAGE]) (by simp [F.SEC_KEY.USAGE, F.SEC_KEY.STATE]),
      State.get_set_same _ _ _ (by simp [F.SEC_KEY.STATE])]
    rfl
  · rw [State.get_keyChange (f := F.SEC_KEY.USAGE k) _ _ _ drop evt event, State.keyShown,
      State.get_set_apart _ _ (by simp [F.SEC_KEY.PARAM]) (by simp [F.SEC_KEY.PARAM, F.SEC_KEY.USAGE]),
      State.get_set_same _ _ _ (by simp [F.SEC_KEY.USAGE])]
    exact Nat.mod_eq_of_lt usage
  · rw [State.event_keyChange]
    rfl

theorem execKeyRevoke_revokes (go : s.Goes pf w 0x08) (right : s.rightCause pf (some rightSECURITY) = none) {req : List Byte}
    (hreq : req = s.bufBytes (s.get F.SEC_LEN.REQ)) (length : req.length = 1) (slot : tokNat req 0 1 ≤ 3)
    (active : s.get (F.SEC_KEY.STATE (tokNat req 0 1)) = 1) (other : s.sessionKey (tokNat req 0 1) = false) :
    ∃ t, execKeyRevoke pf w s = .next t ∧ (t.sec.mbox = some ⟨pf.val, 0, []⟩ ∧ t.get F.SEC_CMD.BUSY = 1) ∧
      t.get (F.SEC_KEY.STATE (tokNat req 0 1)) = 2 ∧ t.flag F.SEC_EVT.KEY_CHANGE = true := by
  obtain ⟨t, ht⟩ : ∃ t, t = s.taken pf w 0x08 := ⟨_, rfl⟩
  have busy : t.get F.SEC_CMD.BUSY = 1 := by rw [ht]; exact s.busy_taken _ _ _
  obtain ⟨k, hk⟩ : ∃ k, k = tokNat req 0 1 := ⟨_, rfl⟩
  have small : k ≤ 3 := hk ▸ slot
  obtain ⟨drop, evt, event, cmd, beside, high⟩ := State.key_apart small
  have eq := t.keyRevoke_revokes small (by rw [ht, s.get_key_taken _ _ _ (show k < 256 by omega) rfl, hk, active])
    (by rw [ht, s.sessionKey_taken _ _ _ (show k < 256 by omega), hk, other])
  refine ⟨_, congrArg Host.Outcome.next (go.takes fun t req => t.withRight pf rightSECURITY 1 req fun u => u.keyRevoke (tokNat req 0 1)), ?_⟩
  rw [← hreq, ← ht, t.withRight_runs (by rw [ht, State.rightCause_taken, right]) length, ← hk, eq, State.say, Answer.boxed_sec, State.flag_eq,
    Answer.get_boxed, Answer.get_boxed, Answer.get_boxed]
  refine ⟨⟨rfl, ?_⟩, ?_, ?_⟩
  · rw [State.get_congr (t.rd_revoked k (a := A.SEC_CMD) ⟨.inr (by decide), by decide, by decide⟩ (by decide)),
      State.get_keyChange _ _ _ (by decide) (by decide) (by decide), State.get_set_ne _ _ cmd, busy]
  · rw [State.get_congr (f := F.SEC_KEY.STATE k) (t.rd_revoked k beside high),
      State.get_keyChange (f := F.SEC_KEY.STATE k) _ _ _ drop evt event, State.get_set_same _ _ _ (by simp [F.SEC_KEY.STATE])]
    rfl
  · rw [State.get_congr (t.rd_revoked k (a := A.SEC_EVT) ⟨.inr (by decide), by decide, by decide⟩ (by decide)), State.event_keyChange]
    rfl

theorem execLifecycle_maintenance {sig : Bool} {bad : BitVec 9} (go : s.Goes pf w 0x09) (right : s.rightCause pf (some rightSECURITY) = none) {req : List Byte}
    (hreq : req = s.bufBytes (s.get F.SEC_LEN.REQ)) (length : req.length = 4) (zero : tokZero req 1 3 = true) (target : tokNat req 0 1 = 3)
    (lc : s.lc = 2) : ∃ t, execLifecycle pf w sig bad s = .next t ∧ (t.sec.mbox = some ⟨pf.val, 0, []⟩ ∧ t.get F.SEC_CMD.BUSY = 1) ∧ t.lc = 3 ∧
      t.flag F.SEC_EVT.LC_CHANGE = true := by
  obtain ⟨t, ht⟩ : ∃ t, t = s.taken pf w 0x09 := ⟨_, rfl⟩
  have busy : t.get F.SEC_CMD.BUSY = 1 := by rw [ht]; exact s.busy_taken _ _ _
  obtain ⟨now, event, still⟩ := t.lcChange_shows 3 (by decide)
  refine ⟨_, congrArg Host.Outcome.next (go.takes fun t req => t.lifecycle pf req sig bad.toNat), ?_⟩
  rw [← hreq, ← ht, t.lifecycle_maintenance (by rw [ht, State.rightCause_taken, right]) length zero target (by rw [ht, State.lc_taken, lc]),
    State.say, Answer.boxed_sec, State.flag_eq, State.lc, Answer.get_boxed, Answer.get_boxed, Answer.get_boxed]
  refine ⟨⟨rfl, still.trans busy⟩, now, ?_⟩
  rw [event]
  rfl

theorem execWipeReport_answers (go : s.Goes pf w 0x0B) (proof : s.sec.wipeProof ≠ []) : ∃ t, execWipeReport pf w s = .next t ∧
    (t.sec.mbox = some ⟨pf.val, 0, s.sec.wipeProof⟩ ∧ t.get F.SEC_CMD.BUSY = 1) := by
  obtain ⟨x, sec⟩ := s.taken_rest pf w 0x0B
  have same : (s.taken pf w 0x0B).sec.wipeProof = s.sec.wipeProof := by rw [sec]
  have answer : (s.taken pf w 0x0B).wipeReport = ⟨0, s.sec.wipeProof, s.taken pf w 0x0B⟩ := by
    unfold State.wipeReport
    rw [same, if_neg proof]
  refine ⟨_, congrArg Host.Outcome.next (go.takes fun t _ => t.wipeReport), ?_⟩
  rw [answer, Answer.boxed_sec, Answer.get_boxed]
  exact ⟨rfl, s.busy_taken _ _ _⟩

theorem execTamperClear_clears (go : s.Goes pf w 0x0A) (right : s.rightCause pf (some rightSECURITY) = none)
    (tamper : s.flag F.SEC_STATUS.TAMPER = true) : ∃ t, execTamperClear pf w true s = .next t ∧
      (t.sec.mbox = some ⟨pf.val, 0, []⟩ ∧ t.get F.SEC_CMD.BUSY = 1) ∧ t.flag F.SEC_STATUS.TAMPER = false ∧ t.flag F.SEC_STATUS.TAMP_PIN = false := by
  obtain ⟨t, ht⟩ : ∃ t, t = s.taken pf w 0x0A := ⟨_, rfl⟩
  have busy : t.get F.SEC_CMD.BUSY = 1 := by rw [ht]; exact s.busy_taken _ _ _
  have may : (t.rightCause pf (some rightSECURITY)).isSome = false := by rw [ht, State.rightCause_taken, right]; rfl
  obtain ⟨latch, pin, still⟩ := t.tamperCleared_shows
  obtain ⟨d, eq⟩ := t.tamperClear_clears (by rw [ht, State.tamper_taken, tamper])
  refine ⟨_, congrArg Host.Outcome.next (go.takes fun t _ =>
    if (t.rightCause pf (some rightSECURITY)).isSome then t.say resRight else t.tamperClear true), ?_⟩
  rw [← ht, may, if_neg (by decide), eq, State.say, Answer.boxed_sec, State.flag_eq, State.flag_eq, Answer.get_boxed, Answer.get_boxed,
    Answer.get_boxed, State.get_lastResort _ _ _ (by decide) (by decide) (.inr (by decide)), State.get_lastResort _ _ _ (by decide) (by decide)
      (.inr (by decide)), State.get_lastResort _ _ _ (by decide) (by decide) (.inr (by decide)), latch, pin, still]
  exact ⟨⟨rfl, busy⟩, rfl, rfl⟩

/-- The record of an answer to a command that runs no body. -/
theorem State.boxed_unknown (t : State) (pf : Nat) : ({ t with sec := { t.sec with respPf := none, mbox := some ⟨pf, resUnknown, []⟩ } } : State) =
    Answer.boxed ⟨resUnknown, [], t.withSec { t.sec with respPf := none }⟩ pf := rfl

theorem execMailboxUnknownCommand_answers (go : s.Goes pf w 0x0C) : ∃ t, execMailboxUnknownCommand pf w s = .next t ∧
    t.sec.mbox = some ⟨pf, 1, []⟩ ∧ t.get F.SEC_CMD.BUSY = 1 := by
  have named : s.Goes pf w (fieldOf w 0 8) := by
    rw [go.code]
    exact go
  obtain ⟨idle, runs⟩ := named.ready
  have outside : ¬ (1 ≤ fieldOf w 0 8 ∧ fieldOf w 0 8 ≤ 0x0B) := by rw [go.code]; decide
  have mine : ¬ (((s.checked pf A.SEC_CMD w none).set F.SEC_CMD.CMD (fieldOf w 0 8)).flag F.SEC_CMD.BUSY = true ∨
      (!((s.checked pf A.SEC_CMD w none).set F.SEC_CMD.CMD (fieldOf w 0 8)).islandRuns) = true) := by
    rw [idle, runs]
    decide
  refine ⟨Answer.boxed ⟨resUnknown, [], s.taken pf w (fieldOf w 0 8)⟩ pf, ?_, rfl, (Answer.get_boxed _ _ _).trans (s.busy_taken _ _ _)⟩
  exact (if_neg outside).trans ((if_pos go.kick).trans (congrArg Host.Outcome.next ((whenAllowed_acts s pf _ w _ go.may rfl).trans ((if_neg mine).trans (State.boxed_unknown _ _)))))

end

/-- Settles O57: a GO takes its command (`Goes.takes`), and each command's body answers as its own lemma says. -/
theorem mailboxCommands : Obligations.MailboxCommands := by
  intro s pf w nonce x bad sig m f req go did k may
  have takes : ∀ {c : Nat}, go c → s.Goes pf w c := fun ⟨a, b, c, d, e, f, g⟩ => ⟨a, b, c, d, e, f, g⟩
  refine ⟨fun g => execChallenge_issues (takes g), fun g => execGrant_opens (takes g), fun g => execAttest_signs (takes g),
    fun g => execIdentity_answers (takes g),
    fun g right length tamper low high zero area kind => execInstall_stores (takes g) right rfl length tamper low high zero area kind,
    fun g right => execSvnCommit_raises (takes g) right rfl, fun g right => execKeyProgram_stores (takes g) right rfl,
    fun g right => execKeyRevoke_revokes (takes g) right rfl, fun g right length zero => execLifecycle_maintenance (takes g) right rfl length zero,
    fun g => execWipeReport_answers (takes g), fun g => execTamperClear_clears (takes g), fun g => execMailboxUnknownCommand_answers (takes g),
    fun some_ runs wipe uart res len => ?_, fun some_ small late => ?_⟩
  · obtain ⟨result, busy, length, done⟩ := s.doneShown_shows res len
    refine ⟨_, execMailboxDone_ends some_ runs wipe uart, rfl, ?_, ?_, ?_, State.flag_of_one _ ?_, rfl⟩
    · rw [State.get_withSec, result]
    · rw [State.get_withSec, busy]
    · rw [State.get_withSec, length]
    · rw [State.get_withSec, done]
  · have due : s.sec.respSix + 10 * samplesPerSecond ≤ s.six := by simp only [samplesPerSecond]; omega
    refine ⟨s.withSec { s.sec with respPf := some 2 }, congrArg Host.Outcome.next (if_pos ?_), rfl, rfl⟩
    rw [some_, Option.any_some, decide_eq_true small, decide_eq_true due]
    rfl

end Sys2Proof.Machine
end

section
/-!
PROOFS. Accesses of the host (R9 to R15, R373 to R381) and the resets of a function (R374).
-/
namespace Sys2Proof.Machine
open Sys2Proof

/-! ### The shadows of a function (R378, R379) -/

section
variable (s : State) (q : Nat)

/-- The tags of a function's shadows, and the low word that waits. -/
def State.tags : Option Nat × Option Nat × Word := ((s.fn q).rdTag, (s.fn q).wrTag, (s.fn q).wrLow)

theorem State.tags_congr {t : State} (h : t.fns = s.fns) : t.tags q = s.tags q := by
  unfold State.tags State.fn
  rw [h]

theorem State.fn_setFn_same (x : FnSt) : (s.setFn q x).fn q = x := kvGet_put_same _ _ _ _

theorem State.fn_setFn_ne {pf : Nat} (x : FnSt) (h : q ≠ pf) : (s.setFn pf x).fn q = s.fn q := kvGet_put_ne _ _ _ h

/-- A change of the table of vectors leaves the shadows. -/
theorem State.tags_vecs (pf : Nat) (v : KV MsixVec) : (s.setFn pf { s.fn pf with vecs := v }).tags q = s.tags q := by
  unfold State.tags
  by_cases own : q = pf
  · rw [own, State.fn_setFn_same]
  · rw [s.fn_setFn_ne q _ own]

theorem State.tags_msix (pf v : Nat) : (s.msix pf v).tags q = s.tags q := by
  unfold State.msix
  dsimp only
  split
  · rfl
  · split
    · exact s.tags_vecs q pf _
    · split
      · rfl
      · exact s.tags_vecs q pf _

theorem State.tags_raise (f : Field) : (s.raise f).tags q = s.tags q := by
  unfold State.raise
  dsimp only
  split
  · exact s.tags_congr q rfl
  · split
    · rw [State.tags_msix, State.tags_msix]
      exact s.tags_congr q rfl
    · exact s.tags_congr q rfl

theorem State.tags_enqueue (e : Raised) : (s.enqueue e).tags q = s.tags q := by
  by_cases stopped : s.pwr.celStop = true
  · unfold State.enqueue
    rw [if_pos stopped]
  by_cases room : s.cel.queue.length < celQueueMax
  · unfold State.enqueue
    rw [if_neg stopped, if_pos room]
    exact s.tags_congr q rfl
  · obtain ⟨l, n, eq⟩ := s.enqueue_of_full e stopped room
    rw [eq, State.tags_raise]
    exact s.tags_congr q (State.bump_fns _ _)

theorem State.tags_log (code v : Nat) (d : List Byte) : (s.log code v d).tags q = s.tags q := s.tags_enqueue q _

theorem State.tags_logNamed (m : String) (d : List Byte) : (s.logNamed m d).tags q = s.tags q := s.tags_enqueue q _

theorem State.tags_deny (pf cause off : Nat) : (s.deny pf cause off).tags q = s.tags q := by
  unfold State.deny
  dsimp only
  rw [State.tags_log, State.tags_raise]
  exact s.tags_congr q (by rw [State.set_fns, State.set_fns, State.bump_fns])

theorem State.tags_touch (pf : Nat) : (s.touch pf).tags q = s.tags q := by
  unfold State.touch
  split
  · exact s.tags_congr q rfl
  · rfl

/-- The access check of a write leaves the shadows. -/
theorem State.tags_checked (pf reg : Nat) (w : Word) (right : Option Nat) : (s.checked pf reg w right).tags q = s.tags q := by
  obtain ⟨t, ht⟩ : ∃ t, t = s.touch pf := ⟨_, rfl⟩
  have touched : t.tags q = s.tags q := by rw [ht, State.tags_touch]
  unfold State.checked State.gate
  dsimp only
  rw [← ht, ← touched]
  split
  · exact State.tags_deny _ _ _ _ _
  · split
    · exact State.tags_deny _ _ _ _ _
    · split
      · exact State.tags_deny _ _ _ _ _
      · split
        · exact State.tags_deny _ _ _ _ _
        · rfl

theorem State.dmaCopy_fns (d : Desc) (k : Nat) : (s.dmaCopy d k).fns = s.fns := by
  unfold State.dmaCopy
  refine foldl_keeps State.fns (fun t i => ?_) _ _
  rfl

theorem State.tags_dmaFault (c code resid faddr : Nat) : (s.dmaFault c code resid faddr).tags q = s.tags q := by
  unfold State.dmaFault
  dsimp only
  rw [State.tags_logNamed, State.tags_raise]
  exact s.tags_congr q (by rw [State.setDma_fns, State.set64_fns, State.set_fns, State.set_fns, State.set_fns])

theorem State.tags_dmaHalt (c st code : Nat) : (s.dmaHalt c st code).tags q = s.tags q := by
  unfold State.dmaHalt
  split
  · dsimp only
    have copied : ∀ (d : Desc) (k : Nat), (s.fresh.2.dmaCopy d k).fns = s.fns := fun d k => (State.dmaCopy_fns _ _ _).trans rfl
    split
    · rw [State.tags_dmaFault]
      exact s.tags_congr q (copied _ _)
    · exact s.tags_congr q ((by rw [State.setDma_fns, State.set64_fns, State.set_fns, State.set_fns, State.set_fns] :
        (State.setDma _ _ _).fns = _).trans (copied _ _))
  · rfl

theorem State.tags_dmaSession : s.dmaSession.tags q = s.tags q := by
  unfold State.dmaSession
  refine foldl_keeps (fun t : State => t.tags q) (fun t i => ?_) _ _
  split
  · exact t.tags_dmaHalt q _ _ _
  · rfl

theorem State.tags_sessionClose (c : Nat) : (s.sessionClose c).tags q = s.tags q := by
  cases open_ : s.sec.session with
  | none => rw [s.sessionClose_none open_]
  | some x =>
    obtain ⟨d, eq⟩ := s.sessionClose_some (c := c) open_
    rw [eq, State.tags_log, State.tags_raise, ← s.tags_dmaSession q]
    exact State.tags_congr _ q rfl

theorem State.tags_dmaOwnerStop (owner : Nat) : (s.dmaOwnerStop owner).tags q = s.tags q := by
  unfold State.dmaOwnerStop
  refine foldl_keeps (fun t : State => t.tags q) (fun t i => ?_) _ _
  split
  · exact t.tags_dmaHalt q _ _ _
  · rfl

theorem State.rdTag_of_tags {t : State} (h : t.tags q = s.tags q) : (t.fn q).rdTag = (s.fn q).rdTag := congrArg (·.1) h
theorem State.wrTag_of_tags {t : State} (h : t.tags q = s.tags q) : (t.fn q).wrTag = (s.fn q).wrTag := congrArg (·.2.1) h
theorem State.wrLow_of_tags {t : State} (h : t.tags q = s.tags q) : (t.fn q).wrLow = (s.fn q).wrLow := congrArg (·.2.2) h

end

/-! ### Reads -/

section
variable (s : State) (pf : Nat)

/-- Reading an ordinary word of BAR0 gives its register. -/
theorem State.readWord_plain {a h : Nat} {d : RegDesc} (low : a < 0x800000) (reg : regAt a = some (d, h)) (public_ : d.priv = false)
    (live : ∀ view, s.liveWord view a = none) (buf : a < A.SEC_BUF 0) (fn : perFunction a = false) (view : perView a = false) :
    s.readWord pf a = s.rd a := by
  unfold State.readWord State.readAs
  rw [if_neg (Nat.not_le.mpr low), reg]
  dsimp only
  rw [if_neg (fun h => Bool.false_ne_true (public_.symm.trans h.1)), live]
  dsimp only
  rw [if_neg (fun h => Nat.not_le.mpr buf h.1)]
  unfold bankOf
  rw [fn, view]
  rfl

theorem State.readWord_late : s.readWord pf A.SFB_LATE_CNT = s.rd A.SFB_LATE_CNT :=
  s.readWord_plain pf (by decide) (d := ⟨"SFB_LATE_CNT", 0x40008, [], false, false, 0x0, 0x0, 0x0, 0xffffffff, 0x0, 0x0⟩) (h := 0) rfl rfl
    (fun _ => rfl) (by decide) (by decide) (by decide)

theorem State.readWord_seq {a h : Nat} (at_ : a = A.TSK_PAN_SEQ ∧ h = 0 ∨ a = A.TSK_PAN_SEQ + 4 ∧ h = 1) : s.readWord pf a = s.rd a := by
  obtain ⟨rfl, rfl⟩ | ⟨rfl, rfl⟩ := at_
  · exact s.readWord_plain pf (by decide) (d := ⟨"TSK_PAN_SEQ", 0x70810, [], true, false, 0x0, 0x0, 0x0, 0x0, 0x0, 0xffffffffffffffff⟩) (h := 0) rfl rfl
      (fun _ => rfl) (by decide) (by decide) (by decide)
  · exact s.readWord_plain pf (by decide) (d := ⟨"TSK_PAN_SEQ", 0x70810, [], true, false, 0x0, 0x0, 0x0, 0x0, 0x0, 0xffffffffffffffff⟩) (h := 1) rfl rfl
      (fun _ => rfl) (by decide) (by decide) (by decide)

end

/-! ### Writes -/

section
variable (s : State) (pf : Nat) (w : Word)

/-- A write that the access check lets act, at a register that nothing holds busy. -/
theorem State.hostWrite_acts {a : Nat} (low : a < 0x800000) (other : ¬(A.DMA_C_CTL 8 ≤ a ∧ a < A.DMA_C_CTL 16 ∧ (a - A.DMA_C_CTL 8) % 64 = 0))
    (free : s.writeBusy a = false) (use : valueIgnored a w = false) (may : s.permits pf a w (writeRight a)) : s.hostWrite pf a w =
      match wideLow a with
      | some b => if a = b then (s.checked pf a w (writeRight a)).fillLow pf b w else (s.checked pf a w (writeRight a)).commitHigh pf b w
      | none => ((s.checked pf a w (writeRight a)).hostSet pf a w).keepDeny a w := by
  have gate : s.hostGate pf a w = s.gate pf a w (writeRight a) (valueIgnored a w) := by
    unfold State.hostGate
    rw [if_neg (Nat.not_le.mpr low), if_neg other, if_neg (by rw [free]; decide)]
  unfold State.hostWrite
  rw [gate]
  exact whenAllowed_acts s pf a w _ may use

/-- A write without a right passes the access check at every register that exists. -/
theorem State.permits_open {a h : Nat} {d : RegDesc} (reg : regAt a = some (d, h)) : s.permits pf a w none := by
  unfold State.permits State.gate
  rw [reg]
  dsimp only [State.rightCause]
  rw [if_neg (by decide)]
  split
  · rfl
  · rfl

/-- A write that acts at an ordinary register of 32 bits, with what follows for enables. -/
theorem State.hostSet_plain {a h : Nat} {d : RegDesc} (reg : regAt a = some (d, h)) (look : lookHere a = false)
    (frc : isInst (A.FRC_E_CTL 0) 32 256 a = false) (te : isInst (A.TIM_TE_CTL 0) 64 16 a = false) (view : perView a = false)
    (tpo : isInst (A.TIM_TPO 0) 4 4 a = false) : s.hostSet pf a w =
      match evtOf a with
      | some e => (s.wr a (d.written h (s.rd a) w)).ienSend e w
      | none => s.wr a (d.written h (s.rd a) w) := by
  unfold State.hostSet State.wrFields
  rw [look, frc, te, view, tpo, reg]
  rfl

theorem State.keepDeny_other {a : Nat} (h : a ≠ A.ENG_EVT) : s.keepDeny a w = s := if_neg fun g => h g.1

/-- Sending a vector writes no register. -/
theorem State.rd_ienSend (evt a : Nat) : (s.ienSend evt w).rd a = s.rd a := by
  unfold State.ienSend
  refine foldl_keeps (fun t : State => t.rd a) (fun t i => ?_) _ _
  split
  · exact State.rd_congr ((State.msix_regs _ _ _).trans (State.msix_regs _ _ _)) a
  · rfl

end

section
variable (s : State) (pf : Fin 2) (w : Word)

theorem execRegisterWrite_full (a : Nat) (small : a < 2 ^ 24) (word : a / 4 * 4 = a) :
    execRegisterWrite pf (BitVec.ofNat 24 a) w true s = .next (s.hostWrite pf a w) := by
  unfold execRegisterWrite
  rw [if_pos rfl, BitVec.toNat_ofNat, Nat.mod_eq_of_lt small, word]

/-- Whatever names a register outside those that an operation holds, nothing holds it busy. -/
theorem State.writeBusy_fabric {a : Nat} (h : a = A.SFB_EVT ∨ a = A.SFB_IEN ∨ a = A.TIM_HSTEP ∨ a = A.TIM_HSTEP + 4) : s.writeBusy a = false := by
  obtain rfl | rfl | rfl | rfl := h
  all_goals simp [State.writeBusy, isInst, A.SFB_EVT, A.SFB_IEN, A.TIM_HSTEP, A.OLC_VC_CTL, A.OLC_VC_E_ID_LO, A.SEC_BUF, A.UCH_G_HBUF, A.TIM_TE_CTL,
    A.ETH_HRX_BASE, A.ETH_HTX_BASE]

theorem execRegisterWrite_knocks : ∃ t, execRegisterWrite pf (BitVec.ofNat 24 A.SFB_EVT) w true s = .next t ∧
    t.rd A.SFB_EVT = s.rd A.SFB_EVT &&& ~~~(0x3F &&& w) := by
  have reg : regAt A.SFB_EVT = some (⟨"SFB_EVT", 0x4000c, [], false, false, 0x0, 0x0, 0x3f, 0x0, 0x0, 0x0⟩, 0) := rfl
  have right : writeRight A.SFB_EVT = none := rfl
  refine ⟨_, execRegisterWrite_full s pf w _ (by decide) (by decide), ?_⟩
  rw [s.hostWrite_acts pf w (by decide) (by decide) (s.writeBusy_fabric (.inl rfl)) rfl (by rw [right]; exact s.permits_open pf w reg)]
  have wide : wideLow A.SFB_EVT = none := rfl
  rw [wide]
  dsimp only
  rw [State.keepDeny_other _ _ (by decide), State.hostSet_plain _ _ _ reg rfl rfl rfl rfl rfl]
  have enables : evtOf A.SFB_EVT = none := rfl
  rw [enables]
  dsimp only
  rw [State.rd_wr_same, State.rd_checked _ _ _ _ _ (by decide) (by decide) (by decide)]
  show ((s.rd A.SFB_EVT &&& ~~~0#32) ||| (w &&& 0#32)) &&& ~~~(63#32 &&& w) = s.rd A.SFB_EVT &&& ~~~(0x3F &&& w)
  rw [BitVec.and_zero, BitVec.or_zero, BitVec.not_zero, BitVec.and_allOnes]
  rfl

theorem execRegisterWrite_enables (may : s.permits pf A.SFB_IEN w (some 0)) :
    ∃ t, execRegisterWrite pf (BitVec.ofNat 24 A.SFB_IEN) w true s = .next t ∧ t.rd A.SFB_IEN = (s.rd A.SFB_IEN &&& ~~~0x3F) ||| (w &&& 0x3F) := by
  have reg : regAt A.SFB_IEN = some (⟨"SFB_IEN", 0x40010, [], false, false, 0x0, 0x3f, 0x0, 0x0, 0x0, 0x0⟩, 0) := rfl
  have right : writeRight A.SFB_IEN = some 0 := rfl
  refine ⟨_, execRegisterWrite_full s pf w _ (by decide) (by decide), ?_⟩
  rw [s.hostWrite_acts pf w (by decide) (by decide) (s.writeBusy_fabric (.inr (.inl rfl))) rfl (by rw [right]; exact may)]
  have wide : wideLow A.SFB_IEN = none := rfl
  rw [wide]
  dsimp only
  rw [State.keepDeny_other _ _ (by decide), State.hostSet_plain _ _ _ reg rfl rfl rfl rfl rfl]
  have enables : evtOf A.SFB_IEN = some (A.SFB_IEN - 4) := rfl
  rw [enables]
  dsimp only
  rw [State.rd_ienSend, State.rd_wr_same, State.rd_checked _ _ _ _ _ (by decide) (by decide) (by decide)]
  show ((s.rd A.SFB_IEN &&& ~~~63#32) ||| (w &&& 63#32)) &&& ~~~(0#32 &&& w) = (s.rd A.SFB_IEN &&& ~~~0x3F) ||| (w &&& 0x3F)
  rw [BitVec.zero_and, BitVec.not_zero, BitVec.and_allOnes]
  rfl

theorem execRegisterWrite_part (off : BitVec 24) :
    execRegisterWrite pf off w false s = .next ((s.touch pf).deny pf 6 (off.toNat / 4 * 4)) := by
  unfold execRegisterWrite
  rw [if_neg (by decide)]

/-- A partial write is denied with cause 6 (R10). -/
theorem execRegisterWrite_partial (off : BitVec 24) : ∃ t, execRegisterWrite pf off w false s = .next t ∧ t.get (F.ENG_DENY_LAST.CAUSE.at pf) = 6 ∧
    t.get (F.ENG_DENY_LAST.OFFSET.at pf) = off.toNat / 4 * 4 ∧
    t.get (F.ENG_DENY_CNT.N.at pf) = min (s.get (F.ENG_DENY_CNT.N.at pf) + 1) (2 ^ 32 - 1) := by
  obtain ⟨a, ha⟩ : ∃ a, a = off.toNat / 4 * 4 := ⟨_, rfl⟩
  have small : a < 2 ^ 24 := by have := off.isLt; omega
  have page : pf.val < 2 := pf.isLt
  refine ⟨_, execRegisterWrite_part s pf w off, ?_⟩
  rw [← ha]
  have after : ∀ f : Field, f.addr = A.ENG_DENY_CNT + fnShift pf ∨ f.addr = A.ENG_DENY_LAST + fnShift pf → ((s.touch pf).deny pf 6 a).get f =
      ((((s.touch pf).bump (F.ENG_DENY_CNT.N.at pf)).set (F.ENG_DENY_LAST.OFFSET.at pf) a).set (F.ENG_DENY_LAST.CAUSE.at pf) 6).get f := by
    intro f at_
    simp only [A.ENG_DENY_CNT, A.ENG_DENY_LAST, fnShift] at at_
    unfold State.deny
    dsimp only
    rw [State.get_log _ _ _ _ (by simp only [A.CEL_DROP]; omega) (by simp only [A.CEL_EVT]; omega),
      State.get_raise_ne _ (by simp only [F.ENG_EVT.DENY, A.ENG_EVT]; omega)]
  have apart : (F.ENG_DENY_CNT.N.at pf).addr ≠ (F.ENG_DENY_LAST.OFFSET.at pf).addr := by
    simp only [Field.at, F.ENG_DENY_CNT.N, F.ENG_DENY_LAST.OFFSET, A.ENG_DENY_CNT, A.ENG_DENY_LAST]; omega
  have apart' : (F.ENG_DENY_CNT.N.at pf).addr ≠ (F.ENG_DENY_LAST.CAUSE.at pf).addr := apart
  refine ⟨?_, ?_, ?_⟩
  · rw [after _ (.inr rfl), State.get_set_same _ _ _ (by simp [Field.at, F.ENG_DENY_LAST.CAUSE])]
    rfl
  · rw [after _ (.inr rfl), State.get_set_apart _ _ (by simp [Field.at, F.ENG_DENY_LAST.CAUSE]) (by simp [Field.at, F.ENG_DENY_LAST.CAUSE, F.ENG_DENY_LAST.OFFSET]),
      State.get_set_same _ _ _ (by simp [Field.at, F.ENG_DENY_LAST.OFFSET])]
    exact Nat.mod_eq_of_lt small
  · rw [after _ (.inl rfl), State.get_set_ne _ _ apart', State.get_set_ne _ _ apart, State.get_bump _ (by simp [Field.at, F.ENG_DENY_CNT.N]),
      State.get_congr (State.rd_touch s pf _)]
    rfl

/-! ### Registers of 64 bits (R379) -/

theorem execWrite64Low_waits (may : s.permits pf A.TIM_HSTEP w (some 0)) : ∃ t, execWrite64Low pf (BitVec.ofNat 24 A.TIM_HSTEP) w s = .next t ∧
    (t.fn pf).wrTag = some A.TIM_HSTEP ∧ (t.fn pf).wrLow = w ∧ t.get64 A.TIM_HSTEP = s.get64 A.TIM_HSTEP := by
  have right : writeRight A.TIM_HSTEP = some 0 := rfl
  have wide : wideLow A.TIM_HSTEP = some A.TIM_HSTEP := rfl
  have runs : execWrite64Low pf (BitVec.ofNat 24 A.TIM_HSTEP) w s = .next (s.hostWrite pf A.TIM_HSTEP w) := by
    unfold execWrite64Low
    exact if_pos wide
  refine ⟨_, runs, ?_⟩
  rw [s.hostWrite_acts pf w (by decide) (by decide) (s.writeBusy_fabric (.inr (.inr (.inl rfl)))) rfl (by rw [right]; exact may), wide]
  dsimp only
  rw [if_pos rfl, State.fillLow, State.fn_setFn_same]
  refine ⟨rfl, rfl, ?_⟩
  exact (State.get64_congr _ (t := State.setFn _ _ _) rfl rfl).trans (s.get64_checked pf _ w _ (by decide) (by decide) (by decide) (by decide) (by decide) (by decide))

/-- The high word commits the low word that waits (R379). -/
theorem State.commitHigh_step (waits : (s.fn pf).wrTag = some A.TIM_HSTEP) : s.commitHigh pf A.TIM_HSTEP w =
    (s.setFn pf { s.fn pf with wrTag := none }).set64 A.TIM_HSTEP ((s.fn pf).wrLow.toNat + 2 ^ 32 * w.toNat) := by
  have commit : s.commit64 pf A.TIM_HSTEP w = ((s.fn pf).wrLow.toNat + 2 ^ 32 * w.toNat, s.setFn pf { s.fn pf with wrTag := none }) := if_pos waits
  have plain : isInst (A.FRC_E_SYM 0) 32 256 A.TIM_HSTEP = false ∧ isInst (A.FRC_E_VAL 0) 32 256 A.TIM_HSTEP = false ∧
      lookHere (A.TIM_HSTEP - 4) = false := ⟨rfl, rfl, rfl⟩
  obtain ⟨sym, val, look⟩ := plain
  have reg : regAt A.TIM_HSTEP = some (⟨"TIM_HSTEP", 0x20050, [], true, true, 0x0, 0xffffffffffffffff, 0x0, 0x0, 0x0, 0x0⟩, 0) := rfl
  unfold State.commitHigh
  rw [if_neg (by decide), commit, sym, val, look, reg]
  obtain ⟨v, hv⟩ : ∃ v, v = (s.fn pf).wrLow.toNat + 2 ^ 32 * w.toNat := ⟨_, rfl⟩
  have small : v < 2 ^ 64 := by have := (s.fn pf).wrLow.isLt; have := w.isLt; omega
  obtain ⟨u, hu⟩ : ∃ u, u = s.setFn pf { s.fn pf with wrTag := none } := ⟨_, rfl⟩
  rw [← hv, ← hu]
  have whole : v &&& 18446744073709551615 = v := by
    rw [show (18446744073709551615 : Nat) = 2 ^ 64 - 1 from rfl, Nat.and_two_pow_sub_one_eq_mod]
    exact Nat.mod_eq_of_lt small
  show u.set64 A.TIM_HSTEP ((u.get64 A.TIM_HSTEP &&& 0) ||| (v &&& 18446744073709551615)) = u.set64 A.TIM_HSTEP v
  rw [whole, Nat.and_zero, Nat.zero_or]

theorem execWrite64High_commits (may : s.permits pf (A.TIM_HSTEP + 4) w (some 0)) (waits : (s.fn pf).wrTag = some A.TIM_HSTEP) :
    ∃ t, execWrite64High pf (BitVec.ofNat 24 (A.TIM_HSTEP + 4)) w s = .next t ∧ (t.fn pf).wrTag = none ∧
      t.get64 A.TIM_HSTEP = (s.fn pf).wrLow.toNat + 2 ^ 32 * w.toNat := by
  have right : writeRight (A.TIM_HSTEP + 4) = some 0 := rfl
  have wide : wideLow (A.TIM_HSTEP + 4) = some A.TIM_HSTEP := rfl
  have runs : execWrite64High pf (BitVec.ofNat 24 (A.TIM_HSTEP + 4)) w s = .next (s.hostWrite pf (A.TIM_HSTEP + 4) w) := by
    unfold execWrite64High
    exact if_pos ⟨by decide, wide⟩
  refine ⟨_, runs, ?_⟩
  rw [s.hostWrite_acts pf w (by decide) (by decide) (s.writeBusy_fabric (.inr (.inr (.inr rfl)))) rfl (by rw [right]; exact may), wide]
  obtain ⟨t, ht⟩ : ∃ t, t = s.checked pf (A.TIM_HSTEP + 4) w (writeRight (A.TIM_HSTEP + 4)) := ⟨_, rfl⟩
  have kept : t.tags pf = s.tags pf := by rw [ht]; exact s.tags_checked _ _ _ _ _
  dsimp only
  rw [if_neg (by decide), ← ht, t.commitHigh_step pf w ((s.wrTag_of_tags pf kept).trans waits), s.wrLow_of_tags pf kept]
  refine ⟨?_, ?_⟩
  · rw [show ((t.setFn pf { t.fn pf with wrTag := none }).set64 A.TIM_HSTEP ((s.fn pf).wrLow.toNat + 2 ^ 32 * w.toNat)).fn pf =
        (t.setFn pf { t.fn pf with wrTag := none }).fn pf from by unfold State.fn; rw [State.set64_fns], State.fn_setFn_same]
  · rw [State.get64_set64]
    exact Nat.mod_eq_of_lt (by have := (s.fn pf).wrLow.isLt; have := w.isLt; omega)

/-! ### Reads with effects (R373, R378) -/

theorem State.touch_fn (q : Nat) : (s.touch pf).fn q = s.fn q := by
  unfold State.touch
  split
  · rfl
  · rfl

theorem State.touch_outbox : (s.touch pf).outbox = s.outbox := by
  unfold State.touch
  split
  · rfl
  · rfl

theorem execTakeRead_takes : ∃ t, execTakeRead pf (BitVec.ofNat 24 A.SFB_LATE_CNT) s = .next t ∧ t.rd A.SFB_LATE_CNT = 0 ∧
    t.outbox = .readData pf A.SFB_LATE_CNT (s.rd A.SFB_LATE_CNT) :: s.outbox := by
  obtain ⟨u, hu⟩ : ∃ u, u = s.touch pf := ⟨_, rfl⟩
  have group : latchGroup A.SFB_LATE_CNT = none := rfl
  have read : u.hostRead pf A.SFB_LATE_CNT = (u.rd A.SFB_LATE_CNT, false, u) := by
    unfold State.hostRead
    rw [group]
    dsimp only
    rw [State.readWord_late]
  have reg : regAt A.SFB_LATE_CNT = some (⟨"SFB_LATE_CNT", 0x40008, [], false, false, 0x0, 0x0, 0x0, 0xffffffff, 0x0, 0x0⟩, 0) := rfl
  have bank : ∀ v, bankOf pf v A.SFB_LATE_CNT = A.SFB_LATE_CNT := fun _ => rfl
  have takes : u.takeFields pf A.SFB_LATE_CNT = u.wr A.SFB_LATE_CNT (u.rd A.SFB_LATE_CNT &&& ~~~4294967295#32) := by
    unfold State.takeFields
    rw [reg]
    dsimp only
    rw [bank]
    rfl
  have runs : execTakeRead pf (BitVec.ofNat 24 A.SFB_LATE_CNT) s =
      .next ((if (u.hostRead pf A.SFB_LATE_CNT).2.1 then (u.hostRead pf A.SFB_LATE_CNT).2.2 else (u.hostRead pf A.SFB_LATE_CNT).2.2.takeFields pf A.SFB_LATE_CNT).answer pf
        A.SFB_LATE_CNT (u.hostRead pf A.SFB_LATE_CNT).1) := by
    rw [hu]
    rfl
  rw [read, if_neg Bool.false_ne_true, takes] at runs
  refine ⟨_, runs, ?_, ?_⟩
  · rw [State.answer, State.rd_congr (State.emit_regs _ _), State.rd_wr_same]
    exact BitVec.and_zero
  · show _ :: u.outbox = _
    rw [hu, State.touch_outbox, State.rd_touch]

theorem execRead64Low_latches (free : (s.fn pf).rdTag = none) : ∃ t, execRead64Low pf (BitVec.ofNat 24 A.TSK_PAN_SEQ) s = .next t ∧
    (t.fn pf).rdTag = some A.TSK_PAN_SEQ ∧ (t.fn pf).rdShadow.lookup (A.TSK_PAN_SEQ + 4) = some (s.rd (A.TSK_PAN_SEQ + 4)) ∧
    t.outbox = .readData pf A.TSK_PAN_SEQ (s.rd A.TSK_PAN_SEQ) :: s.outbox := by
  obtain ⟨u, hu⟩ : ∃ u, u = s.touch pf := ⟨_, rfl⟩
  have group : latchGroup A.TSK_PAN_SEQ = some [A.TSK_PAN_SEQ, A.TSK_PAN_SEQ + 4] := rfl
  have half : half64 A.TSK_PAN_SEQ = some 0 := rfl
  have tag : (u.fn pf).rdTag ≠ some A.TSK_PAN_SEQ := by
    rw [hu, State.touch_fn, free]
    decide
  have read : u.hostRead pf A.TSK_PAN_SEQ = (u.rd A.TSK_PAN_SEQ, false, u.setFn pf { u.fn pf with
      rdTag := some A.TSK_PAN_SEQ, rdShadow := [(A.TSK_PAN_SEQ, u.rd A.TSK_PAN_SEQ), (A.TSK_PAN_SEQ + 4, u.rd (A.TSK_PAN_SEQ + 4))] }) := by
    unfold State.hostRead
    rw [group]
    refine (if_neg fun h => tag h.1).trans ((if_pos half).trans ?_)
    rw [List.map_cons, List.map_cons, List.map_nil, u.readWord_seq pf (.inl ⟨rfl, rfl⟩), u.readWord_seq pf (.inr ⟨rfl, rfl⟩)]
    rfl
  have runs : execRead64Low pf (BitVec.ofNat 24 A.TSK_PAN_SEQ) s =
      .next ((u.hostRead pf A.TSK_PAN_SEQ).2.2.answer pf A.TSK_PAN_SEQ (u.hostRead pf A.TSK_PAN_SEQ).1) := by
    rw [hu]
    unfold execRead64Low
    exact if_pos half
  rw [read] at runs
  refine ⟨_, runs, ?_⟩
  dsimp only
  rw [State.answer, show ∀ (v : State) o, (v.emit o).fn pf = v.fn pf from fun _ _ => rfl, State.fn_setFn_same]
  refine ⟨rfl, ?_, ?_⟩
  · rw [hu, State.rd_touch, State.rd_touch]
    rfl
  · show _ :: u.outbox = _
    rw [hu, State.touch_outbox, State.rd_touch]

theorem execRead64High_answers (tag : (s.fn pf).rdTag = some A.TSK_PAN_SEQ) (held : (s.fn pf).rdShadow.lookup (A.TSK_PAN_SEQ + 4) = some w) :
    ∃ t, execRead64High pf (BitVec.ofNat 24 (A.TSK_PAN_SEQ + 4)) s = .next t ∧ t.outbox = .readData pf (A.TSK_PAN_SEQ + 4) w :: s.outbox := by
  obtain ⟨u, hu⟩ : ∃ u, u = s.touch pf := ⟨_, rfl⟩
  have group : latchGroup (A.TSK_PAN_SEQ + 4) = some [A.TSK_PAN_SEQ, A.TSK_PAN_SEQ + 4] := rfl
  have same : u.fn pf = s.fn pf := by rw [hu, State.touch_fn]
  have read : u.hostRead pf (A.TSK_PAN_SEQ + 4) = (w, true, u) := by
    unfold State.hostRead
    rw [group]
    refine (if_pos ⟨by rw [same]; exact tag, by decide⟩).trans ?_
    rw [same, held]
    rfl
  have runs : execRead64High pf (BitVec.ofNat 24 (A.TSK_PAN_SEQ + 4)) s =
      .next ((u.hostRead pf (A.TSK_PAN_SEQ + 4)).2.2.answer pf (A.TSK_PAN_SEQ + 4) (u.hostRead pf (A.TSK_PAN_SEQ + 4)).1) := by
    rw [hu]
    unfold execRead64High
    exact if_pos (by rw [show (BitVec.ofNat 24 (A.TSK_PAN_SEQ + 4)).toNat = A.TSK_PAN_SEQ + 4 from rfl, group]; rfl)
  rw [read] at runs
  refine ⟨_, runs, ?_⟩
  show _ :: u.outbox = _
  rw [hu, State.touch_outbox]

/-! ### Vectors and resets (R374, R381) -/

theorem execMsixUnmask_sends {v : Fin 32} (pending : (kvGet (fun _ => MsixVec.reset) (s.fn pf).vecs v).pending = true) :
    ∃ t, execMsixUnmask pf v true false s = .next t ∧ t.outbox = .msix pf v :: s.outbox ∧
      (kvGet (fun _ => MsixVec.reset) (t.fn pf).vecs v).pending = false := by
  obtain ⟨e, he⟩ : ∃ e, e = kvGet (fun _ => MsixVec.reset) (s.fn pf).vecs v := ⟨_, rfl⟩
  have runs : execMsixUnmask pf v true false s = .next ((s.setFn pf { s.fn pf with
      msixEn := true, vecs := kvPut (fun _ => MsixVec.reset) (s.fn pf).vecs v { e with masked := false, pending := false, lastSix := some s.six } }).emit (.msix pf v)) := by
    rw [← he] at pending
    unfold execMsixUnmask
    dsimp only
    rw [← he, pending]
    rfl
  refine ⟨_, runs, rfl, ?_⟩
  rw [show ∀ (u : State) o, (u.emit o).fn pf = u.fn pf from fun _ _ => rfl, State.fn_setFn_same, kvGet_put_same]

end

section
variable (s : State)

theorem State.dmaOwnerStop_session (owner : Nat) : (s.dmaOwnerStop owner).sec = s.sec :=
  (State.dmaOwnerStop_kept (.refl 17827855 s) (.refl _)).parts .sec rfl

/-- The host side of function 1 as a reset leaves it, before the session closes. -/
def State.fn1Cleared : State := ((s.setFn 1 FnSt.reset).dmaOwnerStop 5).set64 (A.CEL_CURSOR + fnShift 1) 0

theorem State.fn1Cleared_tags (q : Nat) : s.fn1Cleared.tags q = (s.setFn 1 FnSt.reset).tags q := by
  unfold State.fn1Cleared
  exact (State.tags_congr _ q (State.set64_fns _ _ _)).trans (State.tags_dmaOwnerStop _ q 5)

theorem execHostFunctionReset_closes {y : Session} (open_ : s.sec.session = some y) : ∃ t, execHostFunctionReset false true s = .next t ∧
    t.sec.session = none ∧ (t.fn 0).wrTag = (s.fn 0).wrTag ∧ (t.fn 0).rdTag = (s.fn 0).rdTag ∧ (t.fn 1).wrTag = none ∧ (t.fn 1).rdTag = none ∧
    t.get F.ENG_SESS.CAUSE = 5 := by
  have runs : execHostFunctionReset false true s = .next (s.fn1Cleared.sessionClose 5) := rfl
  have session : s.fn1Cleared.sec.session = some y := by
    unfold State.fn1Cleared
    rw [State.set64_sec, State.dmaOwnerStop_session, State.setFn_sec, open_]
  obtain ⟨closed, cause, _, _⟩ := s.fn1Cleared.sessionClose_shows session (c := 5) (by decide)
  have tags : ∀ q, (s.fn1Cleared.sessionClose 5).tags q = (s.setFn 1 FnSt.reset).tags q := fun q =>
    (State.tags_sessionClose _ q 5).trans (s.fn1Cleared_tags q)
  refine ⟨_, runs, closed, ?_, ?_, ?_, ?_, cause⟩
  · rw [State.wrTag_of_tags _ 0 (tags 0), s.fn_setFn_ne 0 _ (by decide)]
  · rw [State.rdTag_of_tags _ 0 (tags 0), s.fn_setFn_ne 0 _ (by decide)]
  · rw [State.wrTag_of_tags _ 1 (tags 1), State.fn_setFn_same]
    rfl
  · rw [State.rdTag_of_tags _ 1 (tags 1), State.fn_setFn_same]
    rfl

end

/-- Settles O56, by what each access does at its register behind the access check. -/
theorem hostAccesses : Obligations.HostAccesses := by
  unfold Obligations.HostAccesses
  intro s pf off w v x y
  refine ⟨execRegisterWrite_partial s pf w off, execRegisterWrite_knocks s pf w, execRegisterWrite_enables s pf w, execTakeRead_takes s pf,
    execRead64Low_latches s pf, execRead64High_answers s pf w, execWrite64Low_waits s pf w, execWrite64High_commits s pf w, ?_,
    execHostFunctionReset_closes s⟩
  rintro rfl pending
  exact execMsixUnmask_sends s pf pending

end Sys2Proof.Machine
end

section
/-!
PROOFS. What the stops and starts of the program, the fast path, the Loft and the powered blocks leave: the registers of the engine, the power unit,
the clocks and the time unit, which all stand below those of the links.
-/
namespace Sys2Proof.Machine
open Sys2Proof

/-- The Loft's record takes a content. -/
def State.withLft (s : State) (x : LftSt) : State := { s with lft := x }

section
variable (s : State) {a : Nat} (low : a < A.HJL_STATUS)
include low

/-! ### The program stops -/

theorem State.rd_setGates (k m : Nat) : (s.setGates k m).rd a = s.rd a := by
  simp only [A.HJL_STATUS] at low
  unfold State.setGates
  dsimp only
  rw [State.rd_set64_ne _ _ (by simp only [A.INJ_GATE]; omega) (by simp only [A.INJ_GATE]; omega)]
  exact State.rd_congr rfl a

theorem State.rd_gatesStem (k : Nat) : (s.gatesStem k).rd a = s.rd a := s.rd_setGates low _ _

theorem State.rd_stopLanes : s.stopLanes.rd a = s.rd a := by
  have below : a < A.TSK_T_STAT 0 := Nat.lt_trans low (by decide)
  have lost : (s.liveCycles.foldl (fun u c => if c.status = 5 then u else u.loseCycle c) s).rd a = s.rd a := by
    refine foldl_keeps (fun t : State => t.rd a) (fun t c => ?_) _ _
    split
    · rfl
    · exact t.rd_loseCycle c below
  unfold State.stopLanes
  refine (foldl_keeps (fun t : State => t.rd a) (fun t n => ?_) _ _).trans ((State.rd_congr rfl a).trans lost)
  rfl

theorem State.rd_vcBusy (on : Bool) : (s.vcBusy on).rd a = s.rd a := by
  simp only [A.HJL_STATUS] at low
  unfold State.vcBusy
  rw [State.rd_set_ne _ _ (show a ≠ A.OLC_STATUS by simp only [A.OLC_STATUS]; omega),
    State.rd_set_ne _ _ (show a ≠ A.OLC_VC_CTL by simp only [A.OLC_VC_CTL]; omega)]

theorem State.rd_vcWithdraw : s.vcWithdraw.rd a = s.rd a := by
  have least := low
  simp only [A.HJL_STATUS] at low
  unfold State.vcWithdraw
  split
  · rfl
  · dsimp only
    rw [State.rd_logNamed _ _ _ (by simp only [A.CEL_DROP]; omega) (by simp only [A.CEL_EVT]; omega),
      State.rd_raise_ne _ (show a ≠ A.OLC_EVT by simp only [A.OLC_EVT]; omega),
      State.rd_set_ne _ _ (show a ≠ A.OLC_VC_CTL by simp only [A.OLC_VC_CTL]; omega), State.rd_vcBusy _ least]
    exact State.rd_congr rfl a

omit low in
theorem State.rd_groupsDrop : s.groupsDrop.rd a = s.rd a := by
  unfold State.groupsDrop
  refine foldl_keeps (fun t : State => t.rd a) (fun t p => ?_) _ _
  split
  · rfl
  · rfl

theorem State.rd_stopProgram : s.stopProgram.rd a = s.rd a := by
  have below : a < A.TSK_T_STAT 0 := Nat.lt_trans low (by decide)
  have lanes : a ≠ A.LNE_STATUS := Nat.ne_of_lt (Nat.lt_trans low (by decide))
  unfold State.stopProgram
  split
  · rw [State.rd_groupsDrop, State.rd_vcWithdraw _ low, State.rd_chgAbort _ below lanes, State.rd_rplAbort _ below lanes, State.rd_stopLanes _ low]
  · rw [State.rd_groupsDrop, State.rd_vcWithdraw _ low]

theorem State.rd_tdoOff (n k : Nat) : (s.tdoOff n k).rd a = s.rd a := by
  simp only [A.HJL_STATUS] at low
  unfold State.tdoOff
  dsimp only
  have stat : a ≠ A.INJ_T_STAT n := by simp only [A.INJ_T_STAT]; omega
  have tdo : a ≠ A.INJ_TDO := by simp only [A.INJ_TDO]; omega
  rw [State.rd_set_ne _ _ stat, State.rd_set_ne _ _ stat, State.rd_set_ne _ _ tdo, State.rd_set_ne _ _ tdo]
  exact State.rd_congr rfl a

theorem State.rd_stopFastPath : s.stopFastPath.rd a = s.rd a := by
  have least := low
  simp only [A.HJL_STATUS] at low
  unfold State.stopFastPath
  dsimp only
  have stopped : ∀ u : State, (u.set F.INJ_STATUS.ARMED 0).rd a = u.rd a := fun u =>
    u.rd_set_ne _ (show a ≠ A.INJ_STATUS by simp only [A.INJ_STATUS]; omega)
  have off : ((List.range 8).foldl (fun t n => t.tdoOff n t.six) s).rd a = s.rd a :=
    foldl_keeps (fun t : State => t.rd a) (fun t n => t.rd_tdoOff least n _) _ _
  split
  · rw [State.rd_set_ne _ _ (show a ≠ A.INJ_SCAP_CTL by simp only [A.INJ_SCAP_CTL]; omega), stopped, off]
  · rw [stopped, off]

/-! ### The Loft stops and starts -/

omit low in
theorem State.withLft_regs (x : LftSt) : (s.withLft x).regs = s.regs := rfl

theorem State.rd_showRecipe (r : Nat) : (s.showRecipe r).rd a = s.rd a := by
  simp only [A.HJL_STATUS] at low
  unfold State.showRecipe
  dsimp only
  have stat : a ≠ A.LFT_R_STAT r := by simp only [A.LFT_R_STAT]; omega
  rw [State.rd_set_ne _ _ (show a ≠ A.LFT_STATUS by simp only [A.LFT_STATUS]; omega), State.rd_set_ne _ _ stat, State.rd_set_ne _ _ stat]

omit low in
theorem State.rd_cutOpen : s.cutOpen.rd a = s.rd a := by
  unfold State.cutOpen
  refine foldl_keeps (fun t : State => t.rd a) (fun t r => ?_) _ _
  split
  · rfl
  · rfl

theorem State.rd_lftStop : s.lftStop.rd a = s.rd a := by
  have least := low
  simp only [A.HJL_STATUS] at low
  have cut : ∀ x, (((s.cutOpen.withLft x).set F.LFT_STATUS.RUN 0).dmaShow 0 0).rd a = s.rd a := fun x => by
    rw [State.rd_dmaShow _ _ _ (by simp only [A.DMA_C_STAT]; omega) (by simp only [A.DMA_EVT]; omega),
      State.rd_set_ne _ _ (show a ≠ A.LFT_STATUS by simp only [A.LFT_STATUS]; omega), State.rd_congr (State.withLft_regs _ _), State.rd_cutOpen]
  unfold State.lftStop
  exact (foldl_keeps (fun t : State => t.rd a) (fun t r => t.rd_showRecipe least r) _ _).trans (cut _)

theorem State.rd_arcWrite (n : Nat) : (s.arcWrite n).rd a = s.rd a := by
  simp only [A.HJL_STATUS] at low
  have arc : a ≠ A.LFT_ARC := by simp only [A.LFT_ARC]; omega
  have worn : ∀ m x rate fin, (((((s.set64 A.LFT_ARC_WR m).withLft x).set F.LFT_ARC.WEAR_RATE rate).set F.LFT_ARC.WEAR_END fin)).rd a = s.rd a := by
    intro m x rate fin
    rw [State.rd_set_ne _ _ arc, State.rd_set_ne _ _ arc, State.rd_congr (State.withLft_regs _ _),
      State.rd_set64_ne _ _ (by simp only [A.LFT_ARC_WR]; omega) (by simp only [A.LFT_ARC_WR]; omega)]
  have either : ∀ (u : State) (new : Bool), u.rd a = s.rd a → (if new then u.raise F.LFT_EVT.WEAR else u).rd a = s.rd a := by
    intro u new same
    split
    · rw [State.rd_raise_ne _ (show a ≠ A.LFT_EVT by simp only [A.LFT_EVT]; omega), same]
    · exact same
  unfold State.arcWrite
  exact either _ _ (worn _ _ _ _)

theorem State.rd_arcRegs : s.arcRegs.rd a = s.rd a := by
  simp only [A.HJL_STATUS] at low
  unfold State.arcRegs
  dsimp only
  rw [State.rd_set_ne _ _ (show a ≠ A.LFT_REC_LAST by simp only [A.LFT_REC_LAST]; omega),
    State.rd_set_ne _ _ (show a ≠ A.LFT_REC_FIRST by simp only [A.LFT_REC_FIRST]; omega),
    State.rd_set_ne _ _ (show a ≠ A.LFT_ARC_PROT by simp only [A.LFT_ARC_PROT]; omega),
    State.rd_set_ne _ _ (show a ≠ A.LFT_ARC by simp only [A.LFT_ARC]; omega)]

theorem State.rd_addGap (r n : Nat) (g : Gap) : (s.addGap r n g).rd a = s.rd a := by
  have least := low
  simp only [A.HJL_STATUS] at low
  have gap : ∀ u : State, ((u.arcWrite 16).raise F.LFT_EVT.GAP).rd a = u.rd a := fun u => by
    rw [State.rd_raise_ne _ (show a ≠ A.LFT_EVT by simp only [A.LFT_EVT]; omega), State.rd_arcWrite _ least]
  unfold State.addGap
  dsimp only
  split
  · rw [State.rd_bump_ne _ (show a ≠ A.LFT_R_GAPS r by simp only [A.LFT_R_GAPS]; omega), gap]
    rfl
  · rw [gap]
    rfl

theorem State.rd_finishRec (n st rearm dead : Nat) : (s.finishRec n st rearm dead).rd a = s.rd a := by
  unfold State.finishRec
  dsimp only
  rw [State.rd_arcRegs _ low, State.rd_arcWrite _ low]
  rfl

theorem State.rd_closeCut (d : LftRec) : (s.closeCut d).rd a = s.rd a := by
  have least := low
  simp only [A.HJL_STATUS] at low
  unfold State.closeCut
  dsimp only
  rw [State.rd_raise_ne _ (show a ≠ A.LFT_EVT by simp only [A.LFT_EVT]; omega), State.rd_finishRec _ least]
  split
  · exact s.rd_addGap least _ _ _
  · rfl

theorem State.rd_restartSentence (r k : Nat) : (s.restartSentence r k).rd a = s.rd a := by
  unfold State.restartSentence
  dsimp only
  rw [State.rd_showRecipe _ low]
  rfl

theorem State.rd_lftStart : s.lftStart.rd a = s.rd a := by
  have least := low
  simp only [A.HJL_STATUS] at low
  have started : ∀ x k, ((((s.withLft x).set F.LFT_STATUS.RUN 1).set64 A.LFT_RING_OLD k).closeCuts).rd a = s.rd a := by
    intro x k
    unfold State.closeCuts
    refine (foldl_keeps (fun t : State => t.rd a) (fun t d => t.rd_closeCut least d) _ _).trans ?_
    rw [State.rd_set64_ne _ _ (by simp only [A.LFT_RING_OLD]; omega) (by simp only [A.LFT_RING_OLD]; omega),
      State.rd_set_ne _ _ (show a ≠ A.LFT_STATUS by simp only [A.LFT_STATUS]; omega), State.rd_congr (State.withLft_regs _ _)]
  unfold State.lftStart
  exact (foldl_keeps (fun t : State => t.rd a) (fun t r => t.rd_restartSentence least r _) _ _).trans
    ((foldl_keeps (fun t : State => t.rd a) (fun t u => State.rd_congr (State.setHist_regs _ _ _) a) _ _).trans
      ((foldl_keeps (fun t : State => t.rd a) (fun t i => State.rd_congr (State.setCmp_regs _ _ _) a) _ _).trans (started _ _)))

/-! ### The powered blocks start -/

theorem State.rd_gooseState (n : Nat) (p : GoosePub) (ws : List Word) (st : Nat) : (s.gooseState n p ws st).rd a = s.rd a := by
  simp only [A.HJL_STATUS] at low
  unfold State.gooseState State.gooseSend
  dsimp only
  rw [State.rd_set64_ne _ _ (by simp only [A.ETH_C_LAST]; omega) (by simp only [A.ETH_C_LAST]; omega), State.rd_ethSend, State.rd_setEthCtx,
    State.rd_set_ne _ _ (show a ≠ A.ETH_C_SQNUM n by simp only [A.ETH_C_SQNUM]; omega),
    State.rd_set_ne _ _ (show a ≠ A.ETH_C_STNUM n by simp only [A.ETH_C_STNUM]; omega), State.rd_setEthCtx]

theorem State.rd_ethPowerUp : s.ethPowerUp.rd a = s.rd a := by
  have least := low
  simp only [A.HJL_STATUS] at low
  have restarted : ∀ u : State, u.gooseRestart.rd a = u.rd a := fun u => by
    unfold State.gooseRestart
    refine foldl_keeps (fun t : State => t.rd a) (fun t e => ?_) _ _
    split
    · exact t.rd_gooseState least _ _ _ _
    · rfl
  unfold State.ethPowerUp
  dsimp only
  rw [restarted, State.rd_set_ne _ _ (show a ≠ A.ETH_HTX_IDX by simp only [A.ETH_HTX_IDX]; omega),
    State.rd_set_ne _ _ (show a ≠ A.ETH_HRX_IDX by simp only [A.ETH_HRX_IDX]; omega),
    State.rd_set_ne _ _ (show a ≠ A.ETH_HTX_CTL by simp only [A.ETH_HTX_CTL]; omega),
    State.rd_set_ne _ _ (show a ≠ A.ETH_HRX_CTL by simp only [A.ETH_HRX_CTL]; omega),
    State.rd_set_ne _ _ (show a ≠ A.ETH_STATUS by simp only [A.ETH_STATUS]; omega)]

omit low in
theorem State.rd_uchNote (n : Nat) : (s.uchNote n).rd a = s.rd a := rfl

theorem State.rd_uchDrive (n : Nat) : (s.uchDrive n).rd a = s.rd a := by
  simp only [A.HJL_STATUS] at low
  unfold State.uchDrive
  split
  · have alarm : ∀ v, (s.set (F.UCH_C_STAT.ALARM_OUT n) v).rd a = s.rd a := fun v =>
      s.rd_set_ne v (show a ≠ A.UCH_C_STAT n by simp only [A.UCH_C_STAT]; omega)
    dsimp only
    rw [State.rd_uchNote]
    split
    · exact alarm _
    · exact alarm _
  · rfl

theorem State.rd_putAcc (n : Nat) (x : UchAcc) : (s.putAcc n x).rd a = s.rd a := by
  simp only [A.HJL_STATUS] at low
  unfold State.putAcc
  dsimp only
  rw [State.rd_set64_ne _ _ (by simp only [A.UCH_C_TAG]; omega) (by simp only [A.UCH_C_TAG]; omega),
    State.rd_set_ne _ _ (show a ≠ A.UCH_C_MAX n by simp only [A.UCH_C_MAX]; omega),
    State.rd_set_ne _ _ (show a ≠ A.UCH_C_MIN n by simp only [A.UCH_C_MIN]; omega),
    State.rd_set_ne _ _ (show a ≠ A.UCH_C_COUNT n by simp only [A.UCH_C_COUNT]; omega),
    State.rd_set64_ne _ _ (by simp only [A.UCH_C_SUM]; omega) (by simp only [A.UCH_C_SUM]; omega)]

theorem State.rd_uchSettle (n h : Nat) : (s.uchSettle n h).rd a = s.rd a := by
  have least := low
  simp only [A.HJL_STATUS] at low
  have stat : a ≠ A.UCH_C_STAT n := by simp only [A.UCH_C_STAT]; omega
  have cleared : ∀ (u : State) c, (u.uchClear n c).rd a = u.rd a := fun u c => by
    unfold State.uchClear
    dsimp only
    rw [State.rd_uchNote]
    refine (State.rd_congr (State.setUch_regs _ _ _) a).trans ?_
    rw [State.rd_set_ne _ _ stat, State.rd_set_ne _ _ stat, State.rd_set_ne _ _ stat,
      State.rd_set64_ne _ _ (by simp only [A.UCH_C_CLR]; omega) (by simp only [A.UCH_C_CLR]; omega), State.rd_putAcc _ least]
  unfold State.uchSettle
  dsimp only
  rw [cleared, State.rd_set_ne _ _ stat, State.rd_set_ne _ _ stat]
  rfl

theorem State.rd_uchSupply (n : Nat) : (s.uchSupply n).rd a = s.rd a := by
  simp only [A.HJL_STATUS] at low
  have stat : a ≠ A.UCH_C_STAT n := by simp only [A.UCH_C_STAT]; omega
  unfold State.uchSupply
  split
  · rw [State.rd_set_ne _ _ stat, State.rd_set_ne _ _ stat]
  · rw [State.rd_set_ne _ _ stat, State.rd_set_ne _ _ stat]

theorem State.rd_uchPowerUp : s.uchPowerUp.rd a = s.rd a := by
  have least := low
  simp only [A.HJL_STATUS] at low
  have status : a ≠ A.UCH_STATUS := by simp only [A.UCH_STATUS]; omega
  unfold State.uchPowerUp
  refine (foldl_keeps (fun t : State => t.rd a) (fun t n => ?_) _ _).trans ?_
  · dsimp only
    split
    · rfl
    · rw [State.rd_uchDrive _ least, State.rd_uchSupply _ least, State.rd_uchSettle _ least]
      rfl
  · rw [State.rd_set_ne _ _ status, State.rd_set_ne _ _ status]

/-! ### The Cellar takes an entry, and thaws -/

theorem State.rd_celCount : s.celCount.rd a = s.rd a := by
  simp only [A.HJL_STATUS] at low
  unfold State.celCount
  dsimp only
  rw [State.rd_set64_ne _ _ (by simp only [A.CEL_SEQ_NEWEST]; omega) (by simp only [A.CEL_SEQ_NEWEST]; omega),
    State.rd_set64_ne _ _ (by simp only [A.CEL_SEQ_OLDEST]; omega) (by simp only [A.CEL_SEQ_OLDEST]; omega),
    State.rd_set_ne _ _ (show a ≠ A.CEL_COUNT by simp only [A.CEL_COUNT]; omega)]

theorem State.rd_setLastWord (b : List Byte) : (s.setLastWord b).rd a = s.rd a := by
  simp only [A.HJL_STATUS] at low
  unfold State.setLastWord
  refine (foldl_keeps (fun t : State => t.rd a) (fun t i => t.rd_wr_ne _ ?_) _ _).trans ?_
  · simp only [A.CEL_LASTW]; omega
  · rfl

theorem State.rd_log_low (c v : Nat) (d : List Byte) : (s.log c v d).rd a = s.rd a := by
  simp only [A.HJL_STATUS] at low
  exact s.rd_log _ _ _ (by simp only [F.CEL_DROP.QUEUE, A.CEL_DROP]; omega) (by simp only [F.CEL_EVT.DROP, A.CEL_EVT]; omega)

theorem State.rd_mutePin (on : Bool) (own : a ≠ A.ENG_STATE) : (s.mutePin on).rd a = s.rd a := by
  have below : a < A.ETH_C_STAT 0 := Nat.lt_trans low (by decide)
  simp only [A.HJL_STATUS] at low
  unfold State.mutePin
  rw [State.rd_gooseStatus _ below, State.rd_set_ne _ _ own, State.rd_set_ne _ _ (show a ≠ A.CEL_STATUS by simp only [A.CEL_STATUS]; omega)]

omit low in
theorem State.rd_nextSeq : s.nextSeq.2.rd a = s.rd a := rfl

theorem State.rd_cellarDead (ca cb code slot seq : Nat) (own : a ≠ A.ENG_STATE) : (s.cellarDead ca cb code slot seq).rd a = s.rd a := by
  have least := low
  simp only [A.HJL_STATUS] at low
  unfold State.cellarDead
  dsimp only
  rw [State.rd_celCount _ least, State.rd_raise_ne _ (show a ≠ A.CEL_EVT by simp only [A.CEL_EVT]; omega), State.rd_mutePin _ least _ own,
    State.rd_setLastWord _ least, State.rd_nextSeq]

theorem State.rd_failBank (b cause : Nat) : (s.failBank b cause).rd a = s.rd a := by
  simp only [A.HJL_STATUS] at low
  have status : a ≠ A.CEL_STATUS := by simp only [A.CEL_STATUS]; omega
  have fails : ∀ f : Field, f.addr = A.CEL_STATUS → (((s.set f 0).set F.CEL_STATUS.MIRRORED 0).set F.CEL_STATUS.RESYNC 0).rd a = s.rd a := fun f at_ => by
    rw [State.rd_set_ne _ _ status, State.rd_set_ne _ _ status, State.rd_set_ne _ _ (by rw [at_]; exact status)]
  unfold State.failBank
  by_cases first : b = 0
  · rw [if_pos first, if_pos first]
    exact (State.rd_congr rfl a).trans (fails F.CEL_STATUS.A_OK rfl)
  · rw [if_neg first, if_neg first]
    exact (State.rd_congr rfl a).trans (fails F.CEL_STATUS.B_OK rfl)

theorem State.rd_reportBank (b slot : Nat) : (s.reportBank b slot).rd a = s.rd a := by
  have least := low
  simp only [A.HJL_STATUS] at low
  unfold State.reportBank
  rw [State.rd_log_low _ least, State.rd_raise_ne _ (show a ≠ A.CEL_EVT by simp only [A.CEL_EVT]; omega)]

omit low in
theorem State.rd_setBank (b : Nat) (m : KV (Option Entry)) : (s.setBank b m).rd a = s.rd a := by
  unfold State.setBank
  split
  · rfl
  · rfl

theorem State.rd_writeSlot (e : Entry) (i wa wb : Nat) (own : a ≠ A.ENG_STATE) : (s.writeSlot e i wa wb).rd a = s.rd a := by
  have failed : ∀ (u : State) (bad : Bool) b c, (if bad then u.failBank b c else u).rd a = u.rd a := fun u bad b c => by
    split
    · exact u.rd_failBank low b c
    · rfl
  have stored : ∀ (u : State) (ok : Bool) b m, (if ok then u.setBank b m else u).rd a = u.rd a := fun u ok b m => by
    split
    · exact u.rd_setBank b m
    · rfl
  have told : ∀ (u : State) (bad : Bool) b, (if bad then u.reportBank b i else u).rd a = u.rd a := fun u bad b => by
    split
    · exact u.rd_reportBank low b i
    · rfl
  unfold State.writeSlot
  dsimp only
  split
  · rw [State.rd_cellarDead _ low _ _ _ _ _ own, failed, failed]
  · rw [State.rd_celCount _ low, told, told, stored, stored, failed, failed]

theorem State.rd_celPut (e : Entry) (slots : List Nat) (wa wb : Nat) (own : a ≠ A.ENG_STATE) : (s.celPut e slots wa wb).rd a = s.rd a := by
  have least := low
  simp only [A.HJL_STATUS] at low
  unfold State.celPut
  split
  · exact s.rd_bump_ne (show a ≠ A.CEL_MUTED by simp only [A.CEL_MUTED]; omega)
  · unfold State.toBanks
    split
    · exact s.rd_writeSlot least _ _ _ _ own
    · dsimp only
      rw [State.rd_raise_ne _ (show a ≠ A.CEL_EVT by simp only [A.CEL_EVT]; omega), State.rd_bump_ne _ (show a ≠ A.CEL_DROP by simp only [A.CEL_DROP]; omega)]
      rfl

theorem State.rd_forceThaw (reason : Nat) (puts : CelPuts) (own : a ≠ A.ENG_STATE) : (s.forceThaw reason puts).rd a = s.rd a := by
  have least := low
  simp only [A.HJL_STATUS] at low
  have emptied : ((s.set F.CEL_STATUS.FROZEN 0).setCubby []).rd a = s.rd a := by
    unfold State.setCubby
    rw [State.rd_set_ne _ _ (show a ≠ A.CEL_STATUS by simp only [A.CEL_STATUS]; omega)]
    exact s.rd_set_ne _ (show a ≠ A.CEL_STATUS by simp only [A.CEL_STATUS]; omega)
  have last : ∀ (u : State) (e : Entry) (wa wb : Nat), u.rd a = s.rd a →
      (if reason = 0 then u.nextSeq.2.celPut e puts.slots wa wb else (u.nextSeq.2.celPut e puts.slots wa wb).raise F.CEL_EVT.FORCED_THAW).rd a = s.rd a := by
    intro u e wa wb same
    split
    · rw [State.rd_celPut _ least _ _ _ _ own, State.rd_nextSeq, same]
    · rw [State.rd_raise_ne _ (show a ≠ A.CEL_EVT by simp only [A.CEL_EVT]; omega), State.rd_celPut _ least _ _ _ _ own, State.rd_nextSeq, same]
  unfold State.forceThaw
  split
  · unfold State.thaw
    exact last _ _ _ _ ((foldl_keeps (fun t : State => t.rd a) (fun t e => t.rd_celPut least _ _ _ _ own) _ _).trans emptied)
  · rfl

end

end Sys2Proof.Machine
end

section
/-!
PROOFS. The kicks of PWR_CMD, and the moves between the operating states (R38, R413, R414, R418 to R423).
-/
namespace Sys2Proof.Machine
open Sys2Proof

/-! ### The operating state as the registers show it -/

section
variable (s : State)

theorem State.rd_setOp (op ph : Nat) {a : Nat} (low : a < A.ETH_C_STAT 0) (own : a ≠ A.PWR_STATE) (eng : a ≠ A.ENG_STATE) (evt : a ≠ A.PWR_EVT) :
    (s.setOp op ph).rd a = s.rd a := by
  have shown : ∀ h t, (((((s.set F.PWR_STATE.OPSTATE op).set F.ENG_STATE.OPSTATE op).set F.PWR_STATE.PHASE ph).set F.ENG_STATE.HEALTHY h).set
      F.ENG_STATE.STEM t).rd a = s.rd a := fun h t => by
    rw [State.rd_set_ne _ _ eng, State.rd_set_ne _ _ eng, State.rd_set_ne _ _ own, State.rd_set_ne _ _ eng, State.rd_set_ne _ _ own]
  have told : ∀ (u : State) (same : Bool), u.rd a = s.rd a → ((if same then u else u.raise F.PWR_EVT.STATE_CHG).gooseStatus).rd a = s.rd a := by
    intro u same kept
    rw [State.rd_gooseStatus _ low]
    split
    · exact kept
    · rw [State.rd_raise_ne _ evt, kept]
  unfold State.setOp
  exact told _ _ (shown _ _)

/-- The power unit's state register as a move leaves it. -/
theorem State.rd_setOp_state (op ph : Nat) :
    (s.setOp op ph).rd A.PWR_STATE = ((s.set F.PWR_STATE.OPSTATE op).set F.PWR_STATE.PHASE ph).rd A.PWR_STATE := by
  have eng : A.PWR_STATE ≠ A.ENG_STATE := by decide
  have phased : ∀ u v : State, u.rd A.PWR_STATE = v.rd A.PWR_STATE →
      (u.set F.PWR_STATE.PHASE ph).rd A.PWR_STATE = (v.set F.PWR_STATE.PHASE ph).rd A.PWR_STATE := by
    intro u v same
    unfold State.set
    rw [show F.PWR_STATE.PHASE.addr = A.PWR_STATE from rfl, State.rd_wr_same, State.rd_wr_same, same]
  have shown : ∀ h t, (((((s.set F.PWR_STATE.OPSTATE op).set F.ENG_STATE.OPSTATE op).set F.PWR_STATE.PHASE ph).set F.ENG_STATE.HEALTHY h).set
      F.ENG_STATE.STEM t).rd A.PWR_STATE = ((s.set F.PWR_STATE.OPSTATE op).set F.PWR_STATE.PHASE ph).rd A.PWR_STATE := fun h t => by
    rw [State.rd_set_ne _ _ eng, State.rd_set_ne _ _ eng]
    exact phased _ _ (State.rd_set_ne _ _ eng)
  have told : ∀ (u : State) (same : Bool), ((if same then u else u.raise F.PWR_EVT.STATE_CHG).gooseStatus).rd A.PWR_STATE = u.rd A.PWR_STATE := by
    intro u same
    rw [State.rd_gooseStatus _ (by decide)]
    split
    · rfl
    · exact State.rd_raise_ne _ (by decide)
  unfold State.setOp
  exact (told _ _).trans (shown _ _)

theorem State.opstate_setOp (op ph : Nat) (h : op < 4) : (s.setOp op ph).opstate = op := by
  unfold State.opstate
  rw [State.get_congr (s.rd_setOp_state op ph), State.get_set_apart _ _ (by decide) (by decide), State.get_set_same _ _ _ (by decide)]
  exact Nat.mod_eq_of_lt h

/-- A move leaves the causes, and which supply the engine runs on. -/
theorem State.get_setOp_cause (op ph : Nat) {f : Field} (at_ : f.addr = A.PWR_STATE) (high : 7 ≤ f.lo) : (s.setOp op ph).get f = s.get f := by
  have moved : (s.setOp op ph).get f = ((s.set F.PWR_STATE.OPSTATE op).set F.PWR_STATE.PHASE ph).get f :=
    State.get_congr (by rw [at_]; exact s.rd_setOp_state op ph)
  rw [moved, State.get_set_apart _ _ (by decide) (.inr (by simp only [F.PWR_STATE.PHASE]; omega)),
    State.get_set_apart _ _ (by decide) (.inr (by simp only [F.PWR_STATE.OPSTATE]; omega))]

theorem State.setOp_pwr (op ph : Nat) : (s.setOp op ph).pwr = s.pwr := (State.setOp_kept (.refl 16908298 s) (.refl _)).parts .pwr rfl

theorem State.setOp_clk (op ph : Nat) : (s.setOp op ph).clk = s.clk := (State.setOp_kept (.refl 16908298 s) (.refl _)).parts .clk rfl

theorem State.setOp_tsk (op ph : Nat) : (s.setOp op ph).tsk = s.tsk := (State.setOp_kept (.refl 16908298 s) (.refl _)).parts .tsk rfl

theorem State.opstate_congr {t : State} (h : t.rd A.PWR_STATE = s.rd A.PWR_STATE) : t.opstate = s.opstate := State.get_congr h

theorem State.rd_pwrBusy {a : Nat} (h : a ≠ A.PWR_CMD) : s.pwrBusy.rd a = s.rd a := by
  have at_ : a ≠ F.PWR_CMD.BUSY.addr := h
  rw [State.pwrBusy, State.rd_set_ne _ _ at_]

theorem State.pwrBusy_pwr : s.pwrBusy.pwr = s.pwr := State.set_pwr _ _ _

theorem State.result_pwrBusy : s.pwrBusy.get F.PWR_CMD.RESULT = s.get F.PWR_CMD.RESULT := s.get_set_apart _ (by decide) (by decide)

theorem State.busy_pwrBusy (h : (s.pwr.maintAt.isSome || s.pwr.resumeAt.isSome || s.pwr.warm.isSome || s.pwr.lane.isSome) = true) :
    s.pwrBusy.get F.PWR_CMD.BUSY = 1 := by
  unfold State.pwrBusy
  rw [State.get_set_same _ _ _ (by decide), h]
  rfl

theorem State.result_pwrResult {r : Nat} (h : r < 8) : (s.pwrResult r).get F.PWR_CMD.RESULT = r := by
  unfold State.pwrResult
  rw [State.get_set_same _ _ _ (by decide)]
  exact Nat.mod_eq_of_lt h

theorem State.rd_pwrResult (r : Nat) {a : Nat} (h : a ≠ A.PWR_CMD) : (s.pwrResult r).rd a = s.rd a := s.rd_set_ne _ h

theorem State.pwrResult_pwr (r : Nat) : (s.pwrResult r).pwr = s.pwr := State.set_pwr _ _ _

end

/-! ### One kick at a time -/

section
variable {s : State} {pf : Nat} {w : Word}

/-- The kick bits of a word of which one stands alone. -/
theorem kick_alone {j : Nat} (h : j < 6) (alone : fieldOf w 0 6 = 2 ^ j) : popCount 6 w.toNat ≤ 1 ∧ (bit w.toNat j && w.toNat % 2 ^ j == 0) = true := by
  unfold fieldOf at alone
  obtain ⟨v, hv⟩ : ∃ v, v = w.toNat := ⟨_, rfl⟩
  rw [← hv] at alone ⊢
  simp only [Nat.pow_zero, Nat.div_one] at alone
  have low : v % 64 = 2 ^ j := alone
  simp only [popCount, bit, Bool.and_eq_true, beq_iff_eq]
  interval_cases j <;> omega

/-- The state in which a kick acts. -/
def State.kicked (s : State) (pf : Nat) (w : Word) : State := (s.checked pf A.PWR_CMD w (some 0)).set F.PWR_CMD.LANE (fieldOf w 8 2)

theorem State.pwrKick_acts {j : Nat} {act : State → State} (may : s.permits pf A.PWR_CMD w (some 0)) (h : j < 6) (alone : fieldOf w 0 6 = 2 ^ j) :
    s.pwrKick pf j w act = act (s.kicked pf w) := by
  obtain ⟨few, stands⟩ := kick_alone h alone
  unfold State.pwrKick
  rw [show needsOperate = some 0 from rfl, whenAllowed_acts s pf _ w _ may rfl]
  show (if _ then _ else _) = _
  rw [if_pos few, if_pos stands]
  rfl

theorem State.rd_kicked {a : Nat} (low : A.ENG_EVT < a % 0x1000000) (own : a ≠ A.PWR_CMD) (drop : a ≠ A.CEL_DROP) (evt : a ≠ A.CEL_EVT) :
    (s.kicked pf w).rd a = s.rd a := by
  unfold State.kicked
  rw [State.rd_set_ne _ _ own, State.rd_checked _ _ _ _ _ low drop evt]

theorem State.kicked_pwr : (s.kicked pf w).pwr = s.pwr := (State.set_pwr _ _ _).trans (State.checked_pwr _ _ _ _ _)

theorem State.kicked_tsk : (s.kicked pf w).tsk = s.tsk := (State.set_tsk _ _ _).trans (State.checked_tsk _ _ _ _ _)

theorem State.kicked_six : (s.kicked pf w).six = s.six := (congrArg Clk.six (State.set_clk _ _ _)).trans (State.checked_six _ _ _ _ _)

theorem State.opstate_kicked : (s.kicked pf w).opstate = s.opstate := State.get_congr (State.rd_kicked (by decide) (by decide) (by decide) (by decide))

end

section
variable (s : State)

/-- Between the note of a STEM cause and its registers nothing of PWR_CMD changes. -/
theorem State.get_stemCause_cmd (b : Nat) {f : Field} (at_ : f.addr = A.PWR_CMD) : (s.stemCause b).get f = s.get f :=
  State.get_congr (s.rd_stemCause b (by rw [at_]; decide) (by rw [at_]; decide))

theorem State.bit_stemCause {b : Nat} (h : b < 7) : bit ((s.stemCause b).get F.PWR_STATE.STEM_CAUSE) b = true := by
  rw [State.bit_get _ _ (by simp only [F.PWR_STATE.STEM_CAUSE]; omega)]
  exact s.flag_stemCause b (by omega)

/-- HALT leads to HALT from every state, and its cause stands (R421). -/
def State.haltShown (c : Nat) : State := s.set (bitField F.PWR_STATE.HALT_CAUSE.addr (F.PWR_STATE.HALT_CAUSE.lo + c)) 1

theorem State.haltEnter_in {c : Nat} (h : (s.haltShown c).opstate = 2) : ∃ x, s.haltEnter c = (s.haltShown c).withPwr x := by
  unfold State.haltEnter
  exact ⟨_, if_pos h⟩

theorem State.haltEnter_from {c : Nat} (h : (s.haltShown c).opstate ≠ 2) : ∃ ph d x, s.haltEnter c =
    ((((((s.haltShown c).stopProgram.stopFastPath.lftStop.set F.INJ_STATUS.STEM_RUN 0).setOp 2 ph).log 5 3 d).withPwr x).pwrBusy) := by
  unfold State.haltEnter
  exact ⟨_, _, _, if_neg h⟩

/-- What is above the two fields of a move, HALT leaves but for its cause. -/
theorem State.rd_halted {f : Field} (at_ : f.addr = A.PWR_STATE) (high : 7 ≤ f.lo) (c : Nat) : (s.haltEnter c).get f = (s.haltShown c).get f := by
  by_cases halt : (s.haltShown c).opstate = 2
  · obtain ⟨x, eq⟩ := s.haltEnter_in halt
    rw [eq, State.get_congr (State.rd_congr (State.withPwr_regs _ _) _)]
  · obtain ⟨ph, d, x, eq⟩ := s.haltEnter_from halt
    rw [eq, State.get_congr (State.rd_pwrBusy _ (by rw [at_]; decide)), State.get_congr (State.rd_congr (State.withPwr_regs _ _) _),
      State.get_log _ _ _ _ (by rw [at_]; decide) (by rw [at_]; decide), State.get_setOp_cause _ _ _ at_ high,
      State.get_set_ne _ _ (by rw [at_]; decide), State.get_congr (State.rd_lftStop _ (by rw [at_]; decide)),
      State.get_congr (State.rd_stopFastPath _ (by rw [at_]; decide)), State.get_congr (State.rd_stopProgram _ (by rw [at_]; decide))]

theorem State.opstate_haltEnter (c : Nat) : (s.haltEnter c).opstate = 2 := by
  by_cases halt : (s.haltShown c).opstate = 2
  · obtain ⟨x, eq⟩ := s.haltEnter_in halt
    rw [eq, State.opstate_congr _ (State.rd_congr (State.withPwr_regs _ _) _), halt]
  · obtain ⟨ph, d, x, eq⟩ := s.haltEnter_from halt
    rw [eq, State.opstate_congr _ (State.rd_pwrBusy _ (by decide)), State.opstate_congr _ (State.rd_congr (State.withPwr_regs _ _) _),
      State.opstate_congr _ (State.rd_log _ _ _ _ (by decide) (by decide)), State.opstate_setOp _ _ _ (by decide)]

theorem State.bit_haltEnter {c : Nat} (h : c < 5) : bit ((s.haltEnter c).get F.PWR_STATE.HALT_CAUSE) c = true := by
  rw [State.rd_halted _ rfl (by decide), State.bit_get _ _ (by simp only [F.PWR_STATE.HALT_CAUSE]; omega)]
  exact State.flag_set_one _ _ (by simp only [bitField, F.PWR_STATE.HALT_CAUSE]; omega) rfl

end

/-! ### What each kick does -/

section
variable {s : State} {pf : Fin 2} {w : Word}

theorem execStem_stands (may : s.permits pf A.PWR_CMD w (some 0)) (alone : fieldOf w 0 6 = 2 ^ 0) : ∃ t, execStem pf w s = .next t ∧
    bit (t.get F.PWR_STATE.STEM_CAUSE) 5 = true ∧ t.get F.PWR_CMD.RESULT = 1 := by
  refine ⟨_, rfl, ?_⟩
  rw [State.pwrKick_acts may (by decide) alone]
  refine ⟨State.bit_stemCause _ (by decide), ?_⟩
  rw [State.get_stemCause_cmd _ _ rfl, State.result_pwrResult _ (by decide)]

theorem execHalt_halts (may : s.permits pf A.PWR_CMD w (some 0)) (alone : fieldOf w 0 6 = 2 ^ 1) : ∃ t, execHalt pf w s = .next t ∧
    t.opstate = 2 ∧ bit (t.get F.PWR_STATE.HALT_CAUSE) 3 = true := by
  refine ⟨_, rfl, ?_⟩
  rw [State.pwrKick_acts may (by decide) alone]
  exact ⟨State.opstate_haltEnter _ _, State.bit_haltEnter _ (by decide)⟩

theorem execMaint_pends (may : s.permits pf A.PWR_CMD w (some 0)) (alone : fieldOf w 0 6 = 2 ^ 2) (free : s.pwr.maintAt = none) (service : s.opstate = 0)
    (lc : s.get F.SEC_STATUS.LC = 3) (calm : s.pwr.stemSix = none) : ∃ t, execMaint pf w s = .next t ∧
      t.pwr.maintAt = some (boundaryAt hyperPeriod (s.six + 200)) ∧ t.get F.PWR_CMD.RESULT = 1 ∧ t.get F.PWR_CMD.BUSY = 1 := by
  refine ⟨_, rfl, ?_⟩
  rw [State.pwrKick_acts may (by decide) alone]
  obtain ⟨u, hu⟩ : ∃ u, u = s.kicked pf w := ⟨_, rfl⟩
  have pwr : u.pwr = s.pwr := by rw [hu, State.kicked_pwr]
  have six : u.six = s.six := by rw [hu, State.kicked_six]
  have op : u.opstate = 0 := by rw [hu, State.opstate_kicked, service]
  have maintenance : u.get F.SEC_STATUS.LC = 3 := by
    rw [hu, State.get_congr (State.rd_kicked (by decide) (by decide) (by decide) (by decide)), lc]
  rw [← hu, if_neg (by rw [pwr, free]; decide), if_neg (fun h => h op), if_neg (fun h => h maintenance), if_neg (by rw [pwr, calm]; decide)]
  dsimp only
  rw [State.pwrBusy_pwr, State.pwrResult_pwr, State.result_pwrBusy, State.result_pwrResult _ (by decide), six]
  refine ⟨rfl, rfl, State.busy_pwrBusy _ ?_⟩
  rw [State.pwrResult_pwr]
  rfl

theorem execResume_pends (may : s.permits pf A.PWR_CMD w (some 0)) (alone : fieldOf w 0 6 = 2 ^ 3) (maint : s.opstate = 3) (free : s.pwr.resumeAt = none)
    (prep : s.pwr.prep = none) (calm : s.pwr.stemSix = none) (up : s.tsk.up = true) : ∃ t, execResume pf w s = .next t ∧
      t.pwr.resumeAt = some (boundaryAt hyperPeriod (s.six + 1)) ∧ t.get F.PWR_CMD.RESULT = 1 := by
  refine ⟨_, rfl, ?_⟩
  rw [State.pwrKick_acts may (by decide) alone]
  obtain ⟨u, hu⟩ : ∃ u, u = s.kicked pf w := ⟨_, rfl⟩
  have pwr : u.pwr = s.pwr := by rw [hu, State.kicked_pwr]
  have six : u.six = s.six := by rw [hu, State.kicked_six]
  have op : u.opstate = 3 := by rw [hu, State.opstate_kicked, maint]
  have runs : u.tsk.up = true := by rw [hu, State.kicked_tsk, up]
  rw [← hu, if_neg (fun h => h op), if_neg (by rw [pwr, free, prep]; decide), if_neg (by rw [pwr, calm]; decide)]
  obtain ⟨v, hv⟩ : ∃ v, v = (u.pwrResult 1).log 7 2 (leBytes 1 1) := ⟨_, rfl⟩
  have still : v.tsk.up = true ∧ v.six = s.six := by
    refine ⟨?_, ?_⟩
    · rw [hv, State.log_tsk, State.pwrResult, State.set_tsk, runs]
    · rw [hv, ← six]
      exact (congrArg Clk.six (State.log_clk _ _ _ _)).trans (congrArg Clk.six (State.set_clk _ _ _))
  have leaves : (u.pwrResult 1).maintLeave 1 = v.withPwr { v.pwr with resumeAt := some (boundaryAt hyperPeriod (v.six + 1)) } := by
    unfold State.maintLeave
    rw [← hv]
    exact if_pos still.1
  rw [leaves, State.pwrBusy_pwr, State.result_pwrBusy, State.get_congr (State.rd_congr (State.withPwr_regs _ _) _), hv,
    State.get_log _ _ _ _ (by decide) (by decide), State.result_pwrResult _ (by decide), ← hv]
  exact ⟨by rw [← still.2]; rfl, rfl⟩

/-- A warm reset is requested. -/
theorem State.warmRequest_free (s : State) (c : Nat) (free : s.pwr.warm = none) :
    s.warmRequest c = (s.vcWithdraw.withPwr { s.vcWithdraw.pwr with warm := some c, startup := true }).pwrBusy := by
  unfold State.warmRequest
  rw [if_neg (by rw [free]; decide)]
  rfl

theorem execWarm_requests (may : s.permits pf A.PWR_CMD w (some 0)) (alone : fieldOf w 0 6 = 2 ^ 4) (free : s.pwr.warm = none) :
    ∃ t, execWarm pf w s = .next t ∧ t.pwr.warm = some 1 ∧ t.get F.PWR_CMD.BUSY = 1 := by
  refine ⟨_, rfl, ?_⟩
  rw [State.pwrKick_acts may (by decide) alone]
  obtain ⟨u, hu⟩ : ∃ u, u = s.kicked pf w := ⟨_, rfl⟩
  have pwr : u.pwr = s.pwr := by rw [hu, State.kicked_pwr]
  rw [← hu, if_neg (by rw [pwr, free]; decide), State.warmRequest_free _ _ (by rw [State.pwrResult_pwr, pwr, free])]
  refine ⟨rfl, State.busy_pwrBusy _ ?_⟩
  show (_ || _ || Option.isSome (some 1) || _) = true
  rw [Option.isSome_some, Bool.or_true, Bool.true_or]

/-- The registers of a lane under test. -/
def State.laneTested (s : State) (n : Nat) : State := ((s.setRole n 4).pwrResult 1).withPwr { ((s.setRole n 4).pwrResult 1).pwr with lane := some n }

theorem State.laneTested_role (s : State) (n : Nat) (few : n < 4) : (s.laneTested n).pwrBusy.get (F.LNE_L_STATE.ROLE n) = 4 := by
  have cmd : (F.LNE_L_STATE.ROLE n).addr ≠ A.PWR_CMD := by simp only [F.LNE_L_STATE.ROLE, A.LNE_L_STATE, A.PWR_CMD]; omega
  rw [State.get_congr (State.rd_pwrBusy _ cmd), State.laneTested, State.get_congr (State.rd_congr (State.withPwr_regs _ _) _),
    State.get_congr (State.rd_pwrResult _ 1 cmd)]
  exact (s.get_setRole n 4 (by decide)).1

theorem State.laneTested_result (s : State) (n : Nat) : (s.laneTested n).pwrBusy.get F.PWR_CMD.RESULT = 1 := by
  rw [State.result_pwrBusy, State.laneTested, State.get_congr (State.rd_congr (State.withPwr_regs _ _) _)]
  exact State.result_pwrResult _ (by decide)

theorem execLaneRst_tests {n : Fin 4} (may : s.permits pf A.PWR_CMD w (some 0)) (alone : fieldOf w 0 6 = 2 ^ 5) (which : fieldOf w 8 2 = n.val)
    (free : s.pwr.lane = none) (service : s.opstate = 0) (failed : s.get (F.LNE_L_STATE.ROLE n) = 3) (calm : s.tsk.tko = none) :
    ∃ t, execLaneRst pf w s = .next t ∧ t.get (F.LNE_L_STATE.ROLE n) = 4 ∧ t.pwr.lane = some n.val ∧ t.get F.PWR_CMD.RESULT = 1 := by
  refine ⟨_, rfl, ?_⟩
  rw [State.pwrKick_acts may (by decide) alone]
  obtain ⟨u, hu⟩ : ∃ u, u = s.kicked pf w := ⟨_, rfl⟩
  have few : n.val < 4 := n.isLt
  have pwr : u.pwr = s.pwr := by rw [hu, State.kicked_pwr]
  have op : u.opstate = 0 := by rw [hu, State.opstate_kicked, service]
  have tko : u.tsk.tko = none := by rw [hu, State.kicked_tsk, calm]
  have lane : u.get F.PWR_CMD.LANE = n.val := by
    rw [hu, State.kicked, State.get_set_same _ _ _ (by decide), which]
    exact Nat.mod_eq_of_lt few
  have role : u.get (F.LNE_L_STATE.ROLE n) = 3 := by
    rw [hu, State.get_congr (State.rd_kicked (by simp only [F.LNE_L_STATE.ROLE, A.LNE_L_STATE, A.ENG_EVT]; omega)
      (by simp only [F.LNE_L_STATE.ROLE, A.LNE_L_STATE, A.PWR_CMD]; omega) (by simp only [F.LNE_L_STATE.ROLE, A.LNE_L_STATE, A.CEL_DROP]; omega)
      (by simp only [F.LNE_L_STATE.ROLE, A.LNE_L_STATE, A.CEL_EVT]; omega)), failed]
  rw [← hu]
  dsimp only
  rw [lane, if_neg (by rw [pwr, free]; decide), if_pos ⟨.inl op, role, by rw [tko]; rfl⟩]
  obtain ⟨v, hv⟩ : ∃ v, v = ((u.zeroSpace (5 + n.val)).zeroSpace (9 + n.val)).setLane n LaneSt.reset := ⟨_, rfl⟩
  rw [← hv]
  exact ⟨v.laneTested_role n few, rfl, v.laneTested_result n⟩

end

/-! ### Lane tests, MAINT, STEM and the causes -/

section
variable {s : State}

/-- The registers of a lane as its test ends. -/
def State.laneTestEnds (s : State) (n cause role : Nat) : State :=
  (((s.withPwr { s.pwr with lane := none }).pwrBusy.set (F.LNE_L_STATE.CAUSE n) cause).setRole n role)

theorem State.laneTestEnds_pwr (n cause role : Nat) : (s.laneTestEnds n cause role).pwr.lane = none := by
  unfold State.laneTestEnds
  rw [(State.setRole_kept (.refl 2 _) (.refl _)).parts .pwr rfl, State.set_pwr]
  rfl

theorem State.laneTestEnds_lane (n : Nat) {cause role : Nat} (c : cause < 16) (r : role < 8) :
    (s.laneTestEnds n cause role).get (F.LNE_L_STATE.ROLE n) = role ∧ (s.laneTestEnds n cause role).get (F.LNE_L_STATE.CAUSE n) = cause := by
  obtain ⟨shown, kept, -⟩ := ((s.withPwr { s.pwr with lane := none }).pwrBusy.set (F.LNE_L_STATE.CAUSE n) cause).get_setRole n role r
  refine ⟨shown, kept.trans ?_⟩
  rw [State.get_set_same _ _ _ (by simp [F.LNE_L_STATE.CAUSE])]
  exact Nat.mod_eq_of_lt c

theorem State.gooseStatus_pwr (u : State) : u.gooseStatus.pwr = u.pwr := (State.gooseStatus_kept (.refl 16908290 u) (.refl _)).parts .pwr rfl

/-- What the end of a test reports leaves the lane's registers and the power unit. -/
theorem State.rd_reported (u : State) (d : List Byte) {a : Nat} (h : a < A.DMA_EVT) : ((u.log 0xE 2 d).gooseStatus).rd a = u.rd a := by
  simp only [A.DMA_EVT] at h
  rw [State.rd_gooseStatus _ (by simp only [A.ETH_C_STAT]; omega), State.rd_log _ _ _ _ (by simp only [F.CEL_DROP.QUEUE, A.CEL_DROP]; omega)
    (by simp only [F.CEL_EVT.DROP, A.CEL_EVT]; omega)]

theorem State.reported_pwr (u : State) (d : List Byte) : ((u.log 0xE 2 d).gooseStatus).pwr = u.pwr := by
  rw [State.gooseStatus_pwr, State.log_pwr]

def State.laneTold (s : State) (pass : Bool) : State := if pass then (s.spareAct 0).raise F.PWR_EVT.LANE_RESET_DONE else s

theorem execLaneResetDone_eq {n : Nat} (under : s.pwr.lane = some n) (pass : Bool) : ∃ d, execLaneResetDone pass s =
    .next ((((s.laneTestEnds n (if pass then 0 else 5) (if pass then 2 else 3)).laneTold pass).log 0xE 2 d).gooseStatus) := by
  unfold execLaneResetDone
  rw [under]
  exact ⟨_, rfl⟩

theorem execLaneResetDone_ends {n : Fin 4} (under : s.pwr.lane = some n.val) :
    (∃ u, execLaneResetDone true s = .next u ∧ u.get (F.LNE_L_STATE.ROLE n) = 2 ∧ u.get (F.LNE_L_STATE.CAUSE n) = 0 ∧ u.pwr.lane = none ∧
      u.flag F.PWR_EVT.LANE_RESET_DONE = true) ∧
    ∃ u, execLaneResetDone false s = .next u ∧ u.get (F.LNE_L_STATE.ROLE n) = 3 ∧ u.get (F.LNE_L_STATE.CAUSE n) = 5 ∧ u.pwr.lane = none := by
  obtain ⟨d, passes⟩ := execLaneResetDone_eq under true
  obtain ⟨e, fails⟩ := execLaneResetDone_eq under false
  rw [if_pos rfl, if_pos rfl, State.laneTold, if_pos rfl] at passes
  rw [if_neg (by decide), if_neg (by decide), State.laneTold, if_neg (by decide)] at fails
  have few : n.val < 4 := n.isLt
  have low : A.LNE_L_STATE n < A.DMA_EVT := by simp only [A.LNE_L_STATE, A.DMA_EVT]; omega
  have lane : ∀ (u : State) (f : Field), f.addr = A.LNE_L_STATE n → ((u.spareAct 0).raise F.PWR_EVT.LANE_RESET_DONE).get f = u.get f := by
    intro u f at_
    rw [State.get_raise_ne _ (by rw [at_]; simp only [A.LNE_L_STATE, F.PWR_EVT.LANE_RESET_DONE, A.PWR_EVT]; omega),
      State.get_congr (State.rd_spareAct u 0 (by rw [at_]; simp only [A.LNE_L_STATE, A.LNE_STATUS]; omega))]
  obtain ⟨spare, clean⟩ := s.laneTestEnds_lane n (cause := 0) (role := 2) (by decide) (by decide)
  obtain ⟨failed, five⟩ := s.laneTestEnds_lane n (cause := 5) (role := 3) (by decide) (by decide)
  refine ⟨⟨_, passes, ?_, ?_, ?_, ?_⟩, _, fails, ?_, ?_, ?_⟩
  · rw [State.get_congr (State.rd_reported _ _ low), lane _ _ rfl, spare]
  · rw [State.get_congr (State.rd_reported _ _ low), lane _ _ rfl, clean]
  · rw [State.reported_pwr, State.raise_pwr, State.spareAct, State.set_pwr, State.laneTestEnds_pwr]
  · rw [State.flag_congr (State.rd_reported _ _ (by decide))]
    exact State.flag_raise _ _ (by decide) rfl
  · rw [State.get_congr (State.rd_reported _ _ low), failed]
  · rw [State.get_congr (State.rd_reported _ _ low), five]
  · rw [State.reported_pwr, State.laneTestEnds_pwr]

/-- The program of a unit that goes to MAINT stops, or is kept (R423). -/
def State.maintProgram (s : State) (keep : Bool) : State := if keep then s else s.vcAtStop.stopProgram.gatesStem s.six

def State.maintPath (s : State) (keep : Bool) : State := if keep then s else s.stopFastPath

def State.maintDrives (s : State) (keep : Bool) : State := if keep then s else (List.range 16).foldl State.uchDrive s

theorem execMaintEnter_due (due : s.pwr.maintAt = some s.six) (service : s.opstate = 0) (closed : s.outputsOpen = false) : ∃ keep fp ph d,
    execMaintEnter s = .next ((((((s.withPwr { s.pwr with maintAt := none }).maintProgram keep).maintPath fp).setOp 3 ph).pwrBusy.maintDrives keep).log 6 2 d) := by
  unfold execMaintEnter
  rw [if_pos (by rw [due, service, closed, decide_eq_true rfl]; rfl)]
  exact ⟨_, _, _, _, rfl⟩

theorem State.maintProgram_pwr (keep : Bool) : (s.maintProgram keep).pwr = s.pwr := by
  unfold State.maintProgram
  split
  · rfl
  · rw [(State.gatesStem_kept (.refl 514 _) (.refl _)).parts .pwr rfl, (State.stopProgram_kept (.refl 17051694 _) (.refl _)).parts .pwr rfl,
      (State.vcAtStop_kept (.refl 17565710 _) (.refl _)).parts .pwr rfl]

theorem State.maintPath_pwr (keep : Bool) : (s.maintPath keep).pwr = s.pwr := by
  unfold State.maintPath
  split
  · rfl
  · exact (State.stopFastPath_kept (.refl 514 _) (.refl _)).parts .pwr rfl

theorem State.maintDrives_pwr (keep : Bool) : (s.maintDrives keep).pwr = s.pwr := by
  unfold State.maintDrives
  split
  · rfl
  · exact foldl_keeps State.pwr (fun t n => (State.uchDrive_kept (.refl 32770 t) (.refl _)).parts .pwr rfl) _ _

theorem State.rd_maintDrives (keep : Bool) {a : Nat} (low : a < A.HJL_STATUS) : (s.maintDrives keep).rd a = s.rd a := by
  unfold State.maintDrives
  split
  · rfl
  · exact foldl_keeps (fun t : State => t.rd a) (fun t n => t.rd_uchDrive low n) _ _

theorem execMaintEnter_enters (due : s.pwr.maintAt = some s.six) (service : s.opstate = 0) (closed : s.outputsOpen = false) :
    ∃ t, execMaintEnter s = .next t ∧ t.opstate = 3 ∧ t.pwr.maintAt = none := by
  obtain ⟨keep, fp, ph, d, eq⟩ := execMaintEnter_due due service closed
  refine ⟨_, eq, ?_, ?_⟩
  · rw [State.opstate_congr _ (State.rd_log _ _ _ _ (by decide) (by decide)), State.opstate_congr _ (State.rd_maintDrives keep (by decide)),
      State.opstate_congr _ (State.rd_pwrBusy _ (by decide)), State.opstate_setOp _ _ _ (by decide)]
  · rw [State.log_pwr, State.maintDrives_pwr, State.pwrBusy_pwr, State.setOp_pwr, State.maintPath_pwr, State.maintProgram_pwr]
    rfl

/-- The registers of an entry into STEM (R419). -/
def State.stemRegs (s : State) (x mask : Nat) : State :=
  (((((s.setOp opSTEM 4).gatesStem (x + 2)).set64 A.PWR_STEM_SIX x).set F.INJ_STATUS.STEM_RUN 1).raise F.INJ_EVT.STEM_RUN).log 3 3
    (leBytes 1 mask ++ leBytes 8 x)

def State.armedAgain (s : State) : State := if s.flag F.INJ_STATUS.ARMED then s else s.armFastPath

def State.stemThaw (s : State) (supply : Bool) (puts : CelPuts) : State := if supply then s.forceThaw 3 puts else s

def PwrSt.inStem (p : PwrSt) (mask x : Nat) (fin : Bool) : PwrSt :=
  { p with
    stemSix := none, seen := mask, settleAt := some (x + 200), finalDue := fin, prep := none, maintAt := none, resumeAt := none, lane := none }

theorem State.stemEnter_eq (s : State) (x : Nat) (puts : CelPuts) : ∃ supply mask fin, s.stemEnter x puts =
    ((((s.stopProgram.lftStop.armedAgain.stemRegs x mask).stemThaw supply puts).withPwr
      (((s.stopProgram.lftStop.armedAgain.stemRegs x mask).stemThaw supply puts).pwr.inStem mask x fin)).pwrBusy) := ⟨_, _, _, rfl⟩

theorem State.rd_stemThaw (supply : Bool) (puts : CelPuts) {a : Nat} (low : a < A.HJL_STATUS) (own : a ≠ A.ENG_STATE) :
    (s.stemThaw supply puts).rd a = s.rd a := by
  unfold State.stemThaw
  split
  · exact s.rd_forceThaw low 3 puts own
  · rfl

theorem State.stemRegs_shows (x mask : Nat) : (s.stemRegs x mask).opstate = 1 ∧ (s.stemRegs x mask).get64 A.PWR_STEM_SIX = x % 2 ^ 64 := by
  unfold State.stemRegs
  refine ⟨?_, ?_⟩
  · rw [State.opstate_congr _ (State.rd_log _ _ _ _ (by decide) (by decide)), State.opstate_congr _ (State.rd_raise_ne _ (by decide)),
      State.opstate_congr _ (State.rd_set_ne _ _ (by decide)), State.opstate_congr _ (State.rd_set64_ne _ _ (by decide) (by decide)),
      State.opstate_congr _ (State.rd_gatesStem _ (by decide) _), State.opstate_setOp _ _ _ (by decide)]
    rfl
  · rw [State.get64_log _ _ _ _ (by decide) (by decide) (by decide) (by decide), State.get64_congr _ (State.rd_raise_ne _ (by decide)) (State.rd_raise_ne _ (by decide)),
      State.get64_congr _ (State.rd_set_ne _ _ (by decide)) (State.rd_set_ne _ _ (by decide)), State.get64_set64]

theorem execStemEnter_enters {x : Nat} (puts : CelPuts) (asked : s.pwr.stemSix = some x) (from_ : s.opstate = 0 ∨ s.opstate = 3) :
    ∃ t, execStemEnter puts s = .next t ∧ t.opstate = 1 ∧ t.get64 A.PWR_STEM_SIX = x % 2 ^ 64 ∧ t.pwr.stemSix = none ∧ t.pwr.settleAt = some (x + 200) := by
  have runs : execStemEnter puts s = .next (s.stemEnter x puts) := by
    unfold execStemEnter
    rw [asked]
    exact if_pos from_
  obtain ⟨supply, mask, fin, eq⟩ := s.stemEnter_eq x puts
  obtain ⟨op, six⟩ := s.stopProgram.lftStop.armedAgain.stemRegs_shows x mask
  refine ⟨_, runs, ?_⟩
  rw [eq, State.pwrBusy_pwr]
  have busy : ∀ a, a < A.HJL_STATUS → a ≠ A.PWR_CMD → a ≠ A.ENG_STATE → ∀ (u : State) y, (((u.stemThaw supply puts).withPwr y).pwrBusy).rd a = u.rd a := by
    intro a low cmd own u y
    rw [State.rd_pwrBusy _ cmd, State.rd_congr (State.withPwr_regs _ _), State.rd_stemThaw _ _ low own]
  refine ⟨?_, ?_, rfl, rfl⟩
  · rw [State.opstate_congr _ (busy _ (by decide) (by decide) (by decide) _ _), op]
  · rw [State.get64_congr _ (busy _ (by decide) (by decide) (by decide) _ _) (busy _ (by decide) (by decide) (by decide) _ _), six]

/-- The preparation of a return leaves the causes. -/
theorem State.get_prepare_cause {f : Field} (at_ : f.addr = A.PWR_STATE) (high : 7 ≤ f.lo) : s.prepare.get f = s.get f := by
  have eq : ∃ x ph, s.prepare = ((s.set F.PWR_DOM.ON domAll).setOp (s.set F.PWR_DOM.ON domAll).opstate ph).withPwr x := ⟨_, _, rfl⟩
  obtain ⟨x, ph, eq⟩ := eq
  rw [eq, State.get_congr (State.rd_congr (State.withPwr_regs _ _) _), State.get_setOp_cause _ _ _ at_ high, State.get_set_ne _ _ (by rw [at_]; decide)]

theorem execStemCauseCleared_clears {b : Fin 7} (stands : s.flag (bitField F.PWR_STATE.STEM_CAUSE.addr (F.PWR_STATE.STEM_CAUSE.lo + b)) = true)
    (clears : s.stemClears b = true) (stem : s.opstate = 1) : ∃ t, execStemCauseCleared b s = .next t ∧
      t.flag (bitField F.PWR_STATE.STEM_CAUSE.addr (F.PWR_STATE.STEM_CAUSE.lo + b)) = false := by
  obtain ⟨f, hf⟩ : ∃ f, f = bitField F.PWR_STATE.STEM_CAUSE.addr (F.PWR_STATE.STEM_CAUSE.lo + b) := ⟨_, rfl⟩
  have small : b.val < 7 := b.isLt
  have zero : (s.set f 0).get f = 0 := by
    rw [State.get_set_same _ _ _ (by rw [hf]; simp only [bitField, F.PWR_STATE.STEM_CAUSE]; omega)]
    exact Nat.zero_mod _
  have runs : execStemCauseCleared b s = .next (if (s.set f 0).stemStands = 0 && (s.set f 0).autoReturns then (s.set f 0).prepare else s.set f 0) := by
    unfold execStemCauseCleared
    rw [hf]
    exact if_pos (by rw [stands, clears, stem]; rfl)
  rw [← hf]
  refine ⟨_, runs, State.flag_of_zero _ ?_⟩
  split
  · rw [State.get_prepare_cause (by rw [hf]; rfl) (by rw [hf]; simp only [bitField, F.PWR_STATE.STEM_CAUSE]; omega), zero]
  · exact zero

/-! ### The return to SERVICE (R420) -/

def TskSt.startedAt (x : TskSt) (k : Nat) : TskSt :=
  { x with up := true, start := k, out := [], outHist := [], imgs := [], front := [], back := [], panWriting := none, panSix := none }

def PwrSt.inService (p : PwrSt) : PwrSt := { p with startup := false, kept := false, prep := none, seen := 0, settleAt := none }

def State.inService (s : State) (k : Nat) : State := { s with tsk := s.tsk.startedAt k, pwr := s.pwr.inService }

def State.causesCleared (s : State) : State :=
  (List.range 7).foldl (fun t b => t.set (bitField F.PWR_STATE.STEM_CAUSE.addr (F.PWR_STATE.STEM_CAUSE.lo + b)) 0) s

/-- The state in which a start shows SERVICE. -/
def State.readied (s : State) (i : Nat) (x : Image) (k : Nat) : State :=
  (((((s.causesCleared.forcesClear.gatesInit).runImage i x).inService k).armedAgain.set F.PWR_DOM.ON domAll).set F.INJ_STATUS.STEM_RUN 0)

def State.lftAgain (s : State) : State := if s.lftRuns then s else s.lftStart
def State.ethAgain (s : State) : State := if s.ethOn then s else s.ethPowerUp
def State.uchAgain (s : State) : State := if s.uchOn then s else s.uchPowerUp

/-- What SERVICE starts beside the lanes. -/
def State.blocksAgain (s : State) : State := s.lftAgain.ethAgain.uchAgain

theorem State.serviceStart_eq (s : State) (i : Nat) (x : Image) : s.serviceStart i x =
    (((((s.readied i x s.six).setOp opSERVICE 3).set64 A.PWR_SVC_SIX s.six).log 4 2 (leBytes 8 s.six)).blocksAgain).pwrBusy := rfl

theorem State.rd_blocksAgain {a : Nat} (low : a < A.HJL_STATUS) : s.blocksAgain.rd a = s.rd a := by
  have lft : ∀ u : State, u.lftAgain.rd a = u.rd a := fun u => by
    unfold State.lftAgain
    split
    · rfl
    · exact u.rd_lftStart low
  have eth : ∀ u : State, u.ethAgain.rd a = u.rd a := fun u => by
    unfold State.ethAgain
    split
    · rfl
    · exact u.rd_ethPowerUp low
  unfold State.blocksAgain State.uchAgain
  split
  · rw [eth, lft]
  · rw [State.rd_uchPowerUp _ low, eth, lft]

theorem State.blocksAgain_kept : Kept 17465354 s s.blocksAgain := by
  have lft : Kept 17465354 s s.lftAgain := by
    unfold State.lftAgain
    split
    · exact .refl _ _
    · exact State.lftStart_kept (.refl _ _) (.of (.refl _) rfl)
  have eth : Kept 17465354 s s.lftAgain.ethAgain := by
    unfold State.ethAgain
    split
    · exact lft
    · exact State.ethPowerUp_kept lft (.of (.refl _) rfl)
  unfold State.blocksAgain State.uchAgain
  split
  · exact eth
  · exact State.uchPowerUp_kept eth (.of (.refl _) rfl)

theorem State.armedAgain_kept : Kept 514 s s.armedAgain := by
  unfold State.armedAgain
  split
  · exact .refl _ _
  · exact State.armFastPath_kept (.refl _ _) (.of (.refl _) rfl)

theorem State.readied_tsk (i : Nat) (x : Image) (k : Nat) : (s.readied i x k).tsk.up = true ∧ (s.readied i x k).tsk.start = k ∧
    (s.readied i x k).pwr.prep = none := by
  unfold State.readied
  rw [State.set_tsk, State.set_tsk, State.set_pwr, State.set_pwr, (State.armedAgain_kept).parts .tsk rfl, (State.armedAgain_kept).parts .pwr rfl]
  exact ⟨rfl, rfl, rfl⟩

/-- SERVICE from this SIX, with the program loaded. -/
theorem State.serviceStart_serves (i : Nat) (x : Image) : (s.serviceStart i x).opstate = 0 ∧ (s.serviceStart i x).tsk.up = true ∧
    (s.serviceStart i x).tsk.start = s.six ∧ (s.serviceStart i x).get64 A.PWR_SVC_SIX = s.six % 2 ^ 64 ∧ (s.serviceStart i x).pwr.prep = none := by
  obtain ⟨u, hu⟩ : ∃ u, u = s.readied i x s.six := ⟨_, rfl⟩
  obtain ⟨up, start, prep⟩ := s.readied_tsk i x s.six
  rw [← hu] at up start prep
  obtain ⟨v, hv⟩ : ∃ v, v = (((u.setOp opSERVICE 3).set64 A.PWR_SVC_SIX s.six).log 4 2 (leBytes 8 s.six)) := ⟨_, rfl⟩
  have tsk : v.tsk = u.tsk := by rw [hv, State.log_tsk, State.set64_tsk, State.setOp_tsk]
  have pwr : v.pwr = u.pwr := by rw [hv, State.log_pwr, State.set64_pwr, State.setOp_pwr]
  have kept : ∀ a, a < A.HJL_STATUS → a ≠ A.PWR_CMD → v.blocksAgain.pwrBusy.rd a = v.rd a := fun a low cmd => by
    rw [State.rd_pwrBusy _ cmd, State.rd_blocksAgain low]
  rw [State.serviceStart_eq, ← hu, ← hv, State.opstate_congr _ (kept _ (by decide) (by decide)),
    State.get64_congr _ (kept _ (by decide) (by decide)) (kept _ (by decide) (by decide)), State.pwrBusy_pwr, State.pwrBusy, State.set_tsk,
    State.blocksAgain_kept.parts .tsk rfl, State.blocksAgain_kept.parts .pwr rfl]
  show v.opstate = 0 ∧ v.tsk.up = true ∧ v.tsk.start = s.six ∧ _ ∧ v.pwr.prep = none
  rw [tsk, pwr]
  refine ⟨?_, up, start, ?_, prep⟩
  · rw [hv, State.opstate_congr _ (State.rd_log _ _ _ _ (by decide) (by decide)), State.opstate_congr _ (State.rd_set64_ne _ _ (by decide) (by decide)),
      State.opstate_setOp _ _ _ (by decide)]
    rfl
  · rw [hv, State.get64_log _ _ _ _ (by decide) (by decide) (by decide) (by decide), State.get64_set64]

theorem execStemReturn_serves {k : Nat} {bad : BitVec 4} {i : Nat} {im : Image} {g : ProgImage} (prep : s.pwr.prep = some k)
    (boundary : s.six % hyperPeriod = 0) (long : k + 200 ≤ s.six) (stem : s.opstate = 1) (found : s.restartZero.startProgram = some (i, im, g))
    (loads : (s.restartZero.loadProgram g bad.toNat).1 = true) : ∃ t, execStemReturn bad false s = .next t ∧ t.opstate = 0 ∧ t.tsk.up = true ∧
      t.tsk.start = s.six ∧ t.get64 A.PWR_SVC_SIX = s.six % 2 ^ 64 ∧ t.pwr.prep = none := by
  obtain ⟨u, hu⟩ : ∃ u, u = (s.restartZero.loadProgram g bad.toNat).2 := ⟨_, rfl⟩
  have zero : s.restartZero.clk = s.clk := (State.restartZero_kept (.refl 2048 s) (.refl _)).parts .clk rfl
  have clk : u.clk = s.restartZero.clk := by rw [hu]; exact (State.loadProgram_kept (.refl 16791566 _) (.refl _)).parts .clk rfl
  have six : u.six = s.six := congrArg Clk.six (clk.trans zero)
  have runs : execStemReturn bad false s = .next (u.serviceStart i im) := by
    unfold execStemReturn
    rw [prep]
    refine (if_pos ⟨boundary, long, .inl stem⟩).trans ?_
    dsimp only
    rw [if_neg (by simp), found]
    dsimp only
    rw [loads, if_pos rfl, hu]
  obtain ⟨op, up, start, svc, prep⟩ := State.serviceStart_serves (s := u) i im
  rw [six] at start svc
  exact ⟨_, runs, op, up, start, svc, prep⟩

end

/-- Settles O59, by what each kick and each move writes, and what the stops and starts of the units leave. -/
theorem operatingStates : Obligations.OperatingStates := by
  unfold Obligations.OperatingStates
  intro s pf w puts b x k n bad i im g
  exact ⟨fun h => execStem_stands h.1 h.2, fun h => execHalt_halts h.1 h.2, fun h => execMaint_pends h.1 h.2, fun h => execResume_pends h.1 h.2,
    fun h => execWarm_requests h.1 h.2, fun h => execLaneRst_tests h.1 h.2, execLaneResetDone_ends, execMaintEnter_enters, execStemEnter_enters puts,
    execStemCauseCleared_clears, execStemReturn_serves⟩

end Sys2Proof.Machine
end

section
/-!
PROOFS. Supply, temperatures, clocks and starts (R403 to R417, R425, R436, R444), and a fast-path configuration that takes effect (R392).
-/
namespace Sys2Proof.Machine
open Sys2Proof

section
variable (s : State)

/-! ### A STEM cause and the supply -/

/-- What the power unit records of its supply and its temperature. -/
def PwrSt.supply (p : PwrSt) : Nat × Bool × Bool × Option Nat × Bool := (p.hold, p.inWindow, p.ovr, p.goodSix, p.cool)

theorem State.stemCause_supply (b : Nat) : (s.stemCause b).pwr.supply = s.pwr.supply := by
  unfold State.stemCause
  dsimp only
  split
  · split
    · rfl
    · rfl
  · split
    · rfl
    · rfl

/-- A STEM cause leaves the supply in the state register. -/
theorem State.get_stemCause_holdup (b : Nat) (h : b < 8) : (s.stemCause b).get F.PWR_STATE.HOLDUP = s.get F.PWR_STATE.HOLDUP := by
  have caused : (s.causeSet b).get F.PWR_STATE.HOLDUP = s.get F.PWR_STATE.HOLDUP :=
    s.get_set_apart 1 (by simp only [bitField, F.PWR_STATE.STEM_CAUSE]; omega) (by simp only [bitField, F.PWR_STATE.STEM_CAUSE, F.PWR_STATE.HOLDUP]; omega)
  obtain ⟨x, shape | shape⟩ := s.stemCause_eq b
  · rw [shape, State.get_congr (State.rd_congr (State.withPwr_regs _ _) _), caused]
  · rw [shape, State.get_congr (State.rd_congr (State.withPwr_regs _ _) _), State.get_raise_ne _ (by decide), State.get_set_apart _ _ (by decide) (by decide), caused]

/-- A STEM cause leaves every event of the power unit but STATE_CHG. -/
theorem State.get_stemCause_event (b : Nat) {f : Field} (at_ : f.addr = A.PWR_EVT) (other : 1 ≤ f.lo) : (s.stemCause b).get f = s.get f := by
  have caused : (s.causeSet b).get f = s.get f := s.get_set_ne 1 (by rw [at_]; exact (by decide : A.PWR_EVT ≠ A.PWR_STATE))
  obtain ⟨x, shape | shape⟩ := s.stemCause_eq b
  · rw [shape, State.get_congr (State.rd_congr (State.withPwr_regs _ _) _), caused]
  · rw [shape, State.get_congr (State.rd_congr (State.withPwr_regs _ _) _), State.get_raise_apart (f := F.PWR_EVT.STATE_CHG) _ (by decide) (.inr other),
      State.get_set_ne _ _ (by rw [at_]; decide), caused]

theorem PwrSt.supply_warn (p : PwrSt) (w : Bool) : ({ p with warnPin := w } : PwrSt).supply = p.supply := rfl

theorem PwrSt.of_supply {p : PwrSt} {x : Nat × Bool × Bool × Option Nat × Bool} (h : p.supply = x) : p.hold = x.1 ∧ p.inWindow = x.2.1 ∧ p.ovr = x.2.2.1 ∧
    p.goodSix = x.2.2.2.1 := by
  rw [← h]
  exact ⟨rfl, rfl, rfl, rfl⟩

def State.supplyShown (v h : Nat) : State := (s.set F.PWR_SUPPLY.VMAIN (min v 4095)).set F.PWR_SUPPLY.HU (min h 511)

theorem State.supplyShown_pwr (v h : Nat) : (s.supplyShown v h).pwr = s.pwr := by
  unfold State.supplyShown
  rw [State.set_pwr, State.set_pwr]

/-- The engine shows what it measures of its supply. -/
theorem State.supplyIs_eq (v h : Nat) : ∃ warn, s.supplyIs v h = (s.supplyShown v h).withPwr { (s.supplyShown v h).pwr with warnPin := warn } ∧
    (v < 1800 → warn = true) := by
  refine ⟨_, rfl, fun low => ?_⟩
  rw [decide_eq_true low, Bool.true_or, Bool.true_or, Bool.true_or]

theorem State.rd_supplyIs (v h : Nat) {a : Nat} (own : a ≠ A.PWR_SUPPLY) : (s.supplyIs v h).rd a = s.rd a := by
  obtain ⟨warn, eq, _⟩ := s.supplyIs_eq v h
  rw [eq, State.rd_congr (State.withPwr_regs _ _), State.supplyShown, State.rd_set_ne _ _ (show a ≠ F.PWR_SUPPLY.HU.addr from own),
    State.rd_set_ne _ _ (show a ≠ F.PWR_SUPPLY.VMAIN.addr from own)]

theorem State.supplyIs_supply (v h : Nat) : (s.supplyIs v h).pwr.supply = s.pwr.supply := by
  obtain ⟨warn, eq, _⟩ := s.supplyIs_eq v h
  rw [eq]
  exact (PwrSt.supply_warn _ _).trans (congrArg PwrSt.supply (s.supplyShown_pwr v h))

theorem execSupplyWarn_shows (v : BitVec 12) (hu : BitVec 9) : ∃ t, execSupplyWarn v hu s = .next t ∧ t.get F.PWR_SUPPLY.VMAIN = v.toNat ∧
    t.get F.PWR_SUPPLY.HU = hu.toNat ∧ (v.toNat < 1800 → t.pwr.warnPin = true) := by
  obtain ⟨warn, eq, low⟩ := s.supplyIs_eq v.toNat hu.toNat
  have wide : v.toNat < 4096 := v.isLt
  have narrow : hu.toNat < 512 := hu.isLt
  refine ⟨_, rfl, ?_, ?_, fun h => ?_⟩
  · rw [eq, State.get_congr (State.rd_congr (State.withPwr_regs _ _) _), State.supplyShown, State.get_set_apart _ _ (by decide) (by decide),
      State.get_set_same _ _ _ (by decide)]
    exact Nat.mod_eq_of_lt (by show min v.toNat 4095 < 4096; omega) |>.trans (by omega)
  · rw [eq, State.get_congr (State.rd_congr (State.withPwr_regs _ _) _), State.supplyShown, State.get_set_same _ _ _ (by decide)]
    exact Nat.mod_eq_of_lt (by show min hu.toNat 511 < 512; omega) |>.trans (by omega)
  · rw [eq]
    exact low h

/-! ### Hold-up (R407, R409, R444) -/

def PwrSt.holding (p : PwrSt) (k : Nat) (ovr : Bool) : PwrSt := { p with hold := k, inWindow := false, ovr := ovr, goodSix := none }

/-- The unit on its rail, as the registers show it. -/
def State.onRail (s : State) (v : Nat) (ovr : Bool) : State :=
  ((s.withPwr (s.pwr.holding s.six ovr)).set F.PWR_STATE.HOLDUP 1).supplyIs v ((s.withPwr (s.pwr.holding s.six ovr)).get F.PWR_SUPPLY.HU)

def State.brownedOut (s : State) (v : Nat) (ovr : Bool) : State := ((s.onRail v ovr).raise F.PWR_EVT.BROWNOUT).log 8 2 (leBytes 2 v)

/-- In settled STEM and HALT the window begins at once. -/
def State.settledWindow (s : State) : State := if (s.opstate = opSTEM ∨ s.opstate = opHALT) ∧ !s.pwr.startup then s.windowEnter else s

theorem State.settledWindow_cases : s.settledWindow = s ∨ s.settledWindow = s.windowEnter := by
  unfold State.settledWindow
  split
  · exact .inr rfl
  · exact .inl rfl

theorem State.holdUp_eq (v : Nat) (ovr : Bool) (main : s.flag F.PWR_STATE.HOLDUP = false) : s.holdUp v ovr = s.brownedOut v ovr ∨
    s.holdUp v ovr = (s.brownedOut v ovr).windowEnter := by
  have shape : s.holdUp v ovr = (s.brownedOut v ovr).settledWindow := by
    unfold State.holdUp
    rw [if_neg (by rw [main]; decide)]
    rfl
  rw [shape]
  exact (s.brownedOut v ovr).settledWindow_cases

theorem State.brownedOut_shows (v : Nat) (ovr : Bool) : (s.brownedOut v ovr).get F.PWR_STATE.HOLDUP = 1 ∧
    (s.brownedOut v ovr).get F.PWR_EVT.BROWNOUT = 1 ∧ (s.brownedOut v ovr).pwr.supply = (s.six, false, ovr, none, s.pwr.cool) := by
  unfold State.brownedOut
  refine ⟨?_, ?_, ?_⟩
  · rw [State.get_log _ _ _ _ (by decide) (by decide), State.get_raise_ne _ (by decide), State.onRail, State.get_congr (State.rd_supplyIs _ _ _ (by decide)),
      State.get_set_same _ _ _ (by decide)]
    rfl
  · rw [State.get_log _ _ _ _ (by decide) (by decide), State.get_raise _ (by decide)]
    rfl
  · rw [State.log_pwr, State.raise_pwr, State.onRail, State.supplyIs_supply, State.set_pwr]
    rfl

/-- The window of the hold-up begins with cause SUPPLY. -/
theorem State.windowEnter_eq : ∃ x, s.windowEnter = (s.withPwr x).stemCause 2 ∧ x.hold = s.pwr.hold ∧ x.ovr = s.pwr.ovr ∧ x.inWindow = true := ⟨_, rfl, rfl, rfl, rfl⟩

theorem State.holdUp_shows (v : Nat) (ovr : Bool) (main : s.flag F.PWR_STATE.HOLDUP = false) : (s.holdUp v ovr).flag F.PWR_STATE.HOLDUP = true ∧
    (s.holdUp v ovr).flag F.PWR_EVT.BROWNOUT = true ∧ (s.holdUp v ovr).pwr.hold = s.six ∧ (s.holdUp v ovr).pwr.ovr = ovr := by
  obtain ⟨rail, event, record⟩ := s.brownedOut_shows v ovr
  obtain ⟨hold, -, high, -⟩ := PwrSt.of_supply record
  obtain eq | eq := s.holdUp_eq v ovr main
  · rw [eq]
    exact ⟨State.flag_of_one _ rail, State.flag_of_one _ event, hold, high⟩
  · obtain ⟨x, enters, held, was, -⟩ := (s.brownedOut v ovr).windowEnter_eq
    obtain ⟨hold', -, high', -⟩ := PwrSt.of_supply (((s.brownedOut v ovr).withPwr x).stemCause_supply 2)
    rw [eq, enters]
    refine ⟨State.flag_of_one _ ?_, State.flag_of_one _ ?_, ?_, ?_⟩
    · rw [State.get_stemCause_holdup _ _ (by decide), State.get_congr (State.rd_congr (State.withPwr_regs _ _) _), rail]
    · rw [State.get_stemCause_event _ _ rfl (by decide), State.get_congr (State.rd_congr (State.withPwr_regs _ _) _), event]
    · exact hold'.trans (held.trans hold)
    · exact high'.trans (was.trans high)

end

section
variable {s : State}

theorem execBrownout_holds {v : BitVec 12} (main : s.flag F.PWR_STATE.HOLDUP = false) (low : v.toNat < 1650) : ∃ t, execBrownout v s = .next t ∧
    t.flag F.PWR_STATE.HOLDUP = true ∧ t.pwr.hold = s.six ∧ t.flag F.PWR_EVT.BROWNOUT = true := by
  obtain ⟨rail, event, hold, -⟩ := s.holdUp_shows v.toNat false main
  have runs : execBrownout v s = .next (s.holdUp v.toNat false) := if_pos low
  exact ⟨_, runs, rail, hold, event⟩

theorem execOvervoltageDisconnect_holds {v : BitVec 12} (main : s.flag F.PWR_STATE.HOLDUP = false) (high : 3400 < v.toNat) :
    ∃ t, execOvervoltageDisconnect v s = .next t ∧ t.flag F.PWR_STATE.HOLDUP = true ∧ t.pwr.ovr = true := by
  obtain ⟨rail, -, -, ovr⟩ := s.holdUp_shows v.toNat true main
  have runs : execOvervoltageDisconnect v s = .next (s.holdUp v.toNat true) := if_pos high
  exact ⟨_, runs, rail, ovr⟩

/-- The unit on VMAIN again. -/
theorem State.onMain_shows (v : Nat) : (s.onMain v).get F.PWR_STATE.HOLDUP = 0 ∧ (s.onMain v).opstate = s.opstate := by
  unfold State.onMain
  refine ⟨?_, ?_⟩
  · rw [State.get_congr (State.rd_supplyIs _ _ _ (by decide)), State.get_set_same _ _ _ (by decide)]
    rfl
  · unfold State.opstate
    rw [State.get_congr (State.rd_supplyIs _ _ _ (by decide)), State.get_set_apart _ _ (by decide) (by decide)]

theorem State.supplyBack_shows (v : Nat) : (s.supplyBack v).get F.PWR_EVT.SUPPLY_BACK = 1 ∧ (s.supplyBack v).rd A.PWR_STATE = s.rd A.PWR_STATE ∧
    (s.supplyBack v).pwr = s.pwr := by
  unfold State.supplyBack
  refine ⟨?_, ?_, ?_⟩
  · rw [State.get_log _ _ _ _ (by decide) (by decide), State.get_raise _ (by decide)]
    rfl
  · rw [State.rd_log _ _ _ _ (by decide) (by decide), State.rd_raise_ne _ (by decide)]
  · rw [State.log_pwr, State.raise_pwr]

theorem execSupplyBack_returns {v : BitVec 12} (rail : s.flag F.PWR_STATE.HOLDUP = true) (early : s.pwr.inWindow = false) (good : s.vmainOk v.toNat = true) :
    ∃ t, execSupplyBack v s = .next t ∧ t.flag F.PWR_STATE.HOLDUP = false ∧ t.flag F.PWR_EVT.SUPPLY_BACK = true ∧ t.opstate = s.opstate := by
  obtain ⟨main, op⟩ := State.onMain_shows (s := s) v.toNat
  obtain ⟨event, state, -⟩ := State.supplyBack_shows (s := s.onMain v.toNat) v.toNat
  have runs : execSupplyBack v s = .next ((s.onMain v.toNat).supplyBack v.toNat) := by
    unfold execSupplyBack
    exact if_pos ⟨rail, by rw [early]; rfl, good⟩
  refine ⟨_, runs, State.flag_of_zero _ ?_, State.flag_of_one _ event, ?_⟩
  · rw [State.get_congr state, main]
  · rw [State.opstate_congr _ state, op]

theorem execRideThroughExpired_enters (rail : s.flag F.PWR_STATE.HOLDUP = true) (early : s.pwr.inWindow = false)
    (late : s.pwr.hold + 2000 * s.get F.PWR_CFG.RIDE_MS ≤ s.six) : ∃ t, execRideThroughExpired s = .next t ∧ t.pwr.inWindow = true ∧
      bit (t.get F.PWR_STATE.STEM_CAUSE) 2 = true := by
  obtain ⟨x, enters, -, -, inside⟩ := s.windowEnter_eq
  have runs : execRideThroughExpired s = .next s.windowEnter := by
    unfold execRideThroughExpired
    exact if_pos ⟨rail, by rw [early]; rfl, late⟩
  refine ⟨_, runs, ?_, ?_⟩
  · rw [enters]
    exact (PwrSt.of_supply ((s.withPwr x).stemCause_supply 2)).2.1.trans inside
  · rw [enters]
    exact State.bit_stemCause _ (by decide)

theorem execVmainGood_returns {v : BitVec 12} (rail : s.flag F.PWR_STATE.HOLDUP = true) (late : s.pwr.inWindow = true) (good : s.vmainOk v.toNat = true) :
    ∃ t, execVmainGood v s = .next t ∧ t.flag F.PWR_STATE.HOLDUP = false ∧ t.pwr.goodSix = some s.six := by
  obtain ⟨u, hu⟩ : ∃ u, u = (s.onMain v.toNat).withPwr { (s.onMain v.toNat).pwr with goodSix := some s.six } := ⟨_, rfl⟩
  obtain ⟨main, -⟩ := State.onMain_shows (s := s) v.toNat
  have zero : u.get F.PWR_STATE.HOLDUP = 0 := by rw [hu, State.get_congr (State.rd_congr (State.withPwr_regs _ _) _), main]
  have when_ : u.pwr.goodSix = some s.six := by rw [hu]; rfl
  have runs : execVmainGood v s = .next (if s.pwr.ovr then u.supplyBack v.toNat else u) := by
    unfold execVmainGood
    rw [hu]
    exact if_pos ⟨rail, late, good⟩
  refine ⟨_, runs, ?_⟩
  split
  · obtain ⟨-, state, pwr⟩ := State.supplyBack_shows (s := u) v.toNat
    exact ⟨State.flag_of_zero _ ((State.get_congr state).trans zero), by rw [pwr]; exact when_⟩
  · exact ⟨State.flag_of_zero _ zero, when_⟩

theorem execPowerDown_stops {hu : BitVec 9} (rail : s.flag F.PWR_STATE.HOLDUP = true) (low : hu.toNat ≤ 200) (runs : s.pwr.celStop = false) :
    ∃ t, execPowerDown hu s = .next t ∧ t.pwr.celStop = true := by
  unfold execPowerDown
  exact ⟨_, if_pos ⟨rail, low, by rw [runs]; rfl⟩, rfl⟩

/-- The lanes of a unit whose rail is exhausted stop. -/
def State.lanesOff (s : State) : State := if s.tsk.up then s.stopLanes else s

theorem State.lanesOff_up : s.lanesOff.tsk.up = false := by
  unfold State.lanesOff
  split
  · unfold State.stopLanes
    refine (foldl_keeps (fun t : State => t.tsk.up) (fun t n => ?_) _ _).trans ?_
    · rfl
    · rfl
  · next down => exact Bool.eq_false_iff.mpr down

theorem execHoldupExhausted_stops {hu : BitVec 9} (rail : s.flag F.PWR_STATE.HOLDUP = true) (low : hu.toNat ≤ 180) :
    ∃ t, execHoldupExhausted hu s = .next t ∧ t.clk.running = false ∧ t.get F.PWR_DOM.ON = 1 ∧ t.tsk.up = false ∧ t.six = s.six := by
  obtain ⟨u, hu_⟩ : ∃ u, u = ((((s.lanesOff.stopFastPath).set F.PWR_DOM.ON 1).set F.ENG_STATE.HEALTHY 0).set F.ENG_STATE.STEM 0).set F.ENG_STATE.CELLAR_MUTE 0 :=
    ⟨_, rfl⟩
  have runs : execHoldupExhausted hu s =
      .next ({ u with clk := { u.clk with running := false }, pwr := { u.pwr with warnPin := false, celStop := true } } : State) := by
    unfold execHoldupExhausted
    rw [hu_]
    exact if_pos ⟨rail, low⟩
  have kept : Kept 12802 s s.lanesOff.stopFastPath := by
    refine State.stopFastPath_kept ?_ (.of (.refl _) rfl)
    unfold State.lanesOff
    split
    · exact State.stopLanes_kept (.refl _ _) (.of (.refl _) rfl)
    · exact .refl _ _
  have clk : u.clk = s.clk := by rw [hu_, State.set_clk, State.set_clk, State.set_clk, State.set_clk, kept.parts .clk rfl]
  have tsk : u.tsk = s.lanesOff.tsk := by
    rw [hu_, State.set_tsk, State.set_tsk, State.set_tsk, State.set_tsk, (State.stopFastPath_kept (.refl 514 _) (.refl _)).parts .tsk rfl]
  have on : u.get F.PWR_DOM.ON = 1 := by
    rw [hu_, State.get_set_ne _ _ (by decide), State.get_set_ne _ _ (by decide), State.get_set_ne _ _ (by decide), State.get_set_same _ _ _ (by decide)]
    rfl
  refine ⟨_, runs, rfl, (State.get_congr (State.rd_congr rfl _)).trans on, ?_, ?_⟩
  · show u.tsk.up = false
    rw [tsk, State.lanesOff_up]
  · show u.clk.six = s.clk.six
    rw [clk]

/-! ### Temperatures (R410) -/

theorem execOtWarn_warns {die base : BitVec 16} (hot : 1150 ≤ die.toInt) : ∃ t, execOtWarn die base s = .next t ∧ t.flag F.PWR_EVT.OT_WARN = true := by
  unfold execOtWarn
  refine ⟨_, if_pos hot, State.flag_of_one _ ?_⟩
  rw [State.get_log _ _ _ _ (by decide) (by decide), State.get_raise _ (by decide)]
  rfl

theorem execOt_stands {before die base : BitVec 16} (first : 1200 ≤ before.toInt) (second : 1200 ≤ die.toInt) : ∃ t, execOt before die base s = .next t ∧
    t.flag F.PWR_EVT.OT = true ∧ bit (t.get F.PWR_STATE.STEM_CAUSE) 4 = true := by
  obtain ⟨u, hu⟩ : ∃ u, u = ((s.tempIs die.toInt base.toInt).raise F.PWR_EVT.OT).log 0xC 3 (leBytes 2 die.toNat ++ leBytes 2 base.toNat) := ⟨_, rfl⟩
  have runs : execOt before die base s = .next ((u.withPwr { u.pwr with cool := false }).stemCause 4) := by
    unfold execOt
    rw [hu]
    exact if_pos ⟨first, second⟩
  refine ⟨_, runs, State.flag_of_one _ ?_, State.bit_stemCause _ (by decide)⟩
  rw [State.get_stemCause_event _ _ rfl (by decide), State.get_congr (State.rd_congr (State.withPwr_regs _ _) _), hu,
    State.get_log _ _ _ _ (by decide) (by decide), State.get_raise _ (by decide)]
  rfl

theorem execOtClear_clears {die base : BitVec 16} {since : Nat} (cool : die.toInt < 1050) (long : since + 120000000 ≤ s.six)
    (stands : bit (s.get F.PWR_STATE.STEM_CAUSE) 4 = true) : ∃ t, execOtClear die base since s = .next t ∧ t.pwr.cool = true ∧
      t.flag F.PWR_EVT.OT_CLEAR = true := by
  obtain ⟨u, hu⟩ : ∃ u, u = ((s.tempIs die.toInt base.toInt).raise F.PWR_EVT.OT_CLEAR).log 0xD 1 (leBytes 2 die.toNat) := ⟨_, rfl⟩
  have minute : since + 60 * samplesPerSecond ≤ s.six := by simp only [samplesPerSecond]; omega
  have runs : ∃ x : PwrSt, execOtClear die base since s = .next (u.withPwr { x with cool := true }) := by
    unfold execOtClear
    rw [hu]
    exact ⟨_, if_pos ⟨cool, minute, stands⟩⟩
  obtain ⟨x, runs⟩ := runs
  refine ⟨_, runs, rfl, State.flag_of_one _ ?_⟩
  rw [State.get_congr (State.rd_congr (State.withPwr_regs _ _) _), hu, State.get_log _ _ _ _ (by decide) (by decide), State.get_raise _ (by decide)]
  rfl

end

end Sys2Proof.Machine
end

section
/-!
PROOFS. Clock loss (R404), the requests of a warm reset (R413, R436), and the starts (R411 to R417).
-/
namespace Sys2Proof.Machine
open Sys2Proof

section
variable {s : State}

/-! ### Clocks, domains and requests -/

/-- What HALT leaves of the registers of the engine, the power unit and the clocks. -/
theorem State.rd_haltEnter (c : Nat) {a : Nat} (low : a < A.HJL_STATUS) (own : a ≠ A.PWR_STATE) (cmd : a ≠ A.PWR_CMD) (eng : a ≠ A.ENG_STATE)
    (evt : a ≠ A.PWR_EVT) : (s.haltEnter c).rd a = s.rd a := by
  have shown : (s.haltShown c).rd a = s.rd a := s.rd_set_ne _ own
  by_cases halt : (s.haltShown c).opstate = 2
  · obtain ⟨x, eq⟩ := s.haltEnter_in halt
    rw [eq, State.rd_congr (State.withPwr_regs _ _), shown]
  · obtain ⟨ph, d, x, eq⟩ := s.haltEnter_from halt
    rw [eq, State.rd_pwrBusy _ cmd, State.rd_congr (State.withPwr_regs _ _), State.rd_log_low _ low,
      State.rd_setOp _ _ _ (Nat.lt_trans low (by decide)) own eng evt,
      State.rd_set_ne _ _ (show a ≠ F.INJ_STATUS.STEM_RUN.addr from Nat.ne_of_lt (Nat.lt_trans low (by decide))), State.rd_lftStop _ low,
      State.rd_stopFastPath _ low, State.rd_stopProgram _ low, shown]

/-- A clock that is lost shows. -/
theorem State.bit_clockLost (i : Nat) : bit ((s.clockLost 3 i).get F.CLK_STATUS.OK) 3 = false := by
  rw [State.bit_get _ _ (by decide)]
  refine State.flag_of_zero _ ?_
  unfold State.clockLost
  rw [State.get_log _ _ _ _ (by decide) (by decide), State.get_raise_ne _ (by decide), if_neg (by decide), State.get_set_same _ _ _ (by decide)]
  rfl

theorem State.clockAct_three (i : Nat) : s.clockAct 3 i = s.haltEnter 4 := by
  unfold State.clockAct
  rw [if_neg (by decide), if_pos (by decide)]
  rfl

theorem execClockFault_halts (i : Fin 44) : ∃ t, execClockFault 3 i false s = .next t ∧ bit (t.get F.CLK_STATUS.OK) 3 = false ∧ t.opstate = 2 ∧
    bit (t.get F.PWR_STATE.HALT_CAUSE) 4 = true := by
  have runs : execClockFault 3 i false s = .next ((s.clockLost 3 i).haltEnter 4) := by
    unfold execClockFault
    have other : ∀ p q : Prop, ¬(((3 : Fin 12).val = 2) ∧ p ∧ q) := fun _ _ h => absurd h.1 (by decide)
    rw [if_neg (other _ _), if_neg Bool.false_ne_true, show (3 : Fin 12).val = 3 from rfl, State.clockAct_three]
  refine ⟨_, runs, ?_, State.opstate_haltEnter _ _, State.bit_haltEnter _ (by decide)⟩
  rw [State.get_congr (State.rd_haltEnter 4 (by decide) (by decide) (by decide) (by decide) (by decide)), State.bit_clockLost]

theorem execDomainFault_stands (d : Fin 12) : ∃ t, execDomainFault d s = .next t ∧ bit (t.get F.PWR_DOM.FAULT) d = true ∧
    t.flag F.PWR_EVT.DOMAIN_FAULT = true := by
  have small : d.val < 12 := d.isLt
  refine ⟨_, rfl, ?_, State.flag_raise _ _ (by decide) rfl⟩
  rw [State.get_raise_ne _ (by decide), State.bit_get _ _ (by simp only [F.PWR_DOM.FAULT]; omega)]
  exact State.flag_set_one _ _ (by simp only [bitField, F.PWR_DOM.FAULT]; omega) rfl

theorem execWatchdogExpired_requests (free : s.pwr.warm = none) : ∃ t, execWatchdogExpired s = .next t ∧ t.pwr.warm = some 3 := by
  refine ⟨_, rfl, ?_⟩
  rw [State.warmRequest_free _ _ free, State.pwrBusy_pwr]
  rfl

theorem execRstNLow_requests (on : s.powered = true) (free : s.pwr.warm = none) : ∃ t, execRstNLow s = .next t ∧ t.pwr.warm = some 2 ∧
    t.pwr.rstLow = true := by
  obtain ⟨u, hu⟩ : ∃ u, u = s.withPwr { s.pwr with rstLow := true } := ⟨_, rfl⟩
  have still : u.powered = true := by rw [hu, ← on]; rfl
  have free' : u.pwr.warm = none := by rw [hu]; exact free
  have runs : execRstNLow s = .next (if u.powered then u.warmRequest 2 else u) := by rw [hu]; rfl
  rw [if_pos still] at runs
  refine ⟨_, runs, ?_⟩
  have low : u.vcWithdraw.pwr.rstLow = true := by
    rw [(State.vcWithdraw_kept (.refl 17039374 u) (.refl _)).parts .pwr rfl, hu]
    rfl
  rw [State.warmRequest_free _ _ free', State.pwrBusy_pwr]
  exact ⟨rfl, low⟩

theorem execRstNHigh_goes (b : Boot) (held : s.pwr.held = 2) :
    execRstNHigh b s = .next (({ s with pwr := { s.pwr with rstLow := false, held := 0 } } : State).warmRun b) := by
  unfold execRstNHigh
  rw [held]
  rfl

/-! ### The steps of a start -/

/-- What every part of the steps of a start keeps, the steps keep. -/
theorem State.startSteps_keep {P : State → Prop} (b : Boot) (n : Nat) (start : P s) (set : ∀ t f v, P t → P (State.set t f v))
    (wr : ∀ t a w, P t → P (State.wr t a w)) (cellar : ∀ t, P t → P (State.celStart t)) (log : ∀ t c v d, P t → P (State.log t c v d))
    (halt : ∀ t c, P t → P (State.startHalt t c)) (run : ∀ t i x, P t → P (State.runImage t i x)) (load : ∀ t c, P t → P (State.loadSettings t c))
    (step5 : ∀ t, P t → P (State.startStep5 t b n)) : P (s.startSteps b n) := by
  have stored : ∀ t : State, P t → P (if t.pwr.kept then t else t.celStart) := by
    intro t h
    split
    · exact h
    · exact cellar t h
  have version : ∀ (t : State) (x : Image), P t → P (match x.body with | .firmware v => t.wr A.ENG_FWVER v | _ => t) := by
    intro t x h
    split
    · exact wr _ _ _ h
    · exact h
  have rest : ∀ t : State, P t → P (if t.lc ≠ 2 ∧ t.lc ≠ 3 then (if t.pwr.kept then t else t.celStart).startHalt haltLC
      else match t.startConfigs with
        | (j, y, c) :: _ => if b.p2Bad then (t.startStep5 b n).startHalt haltFP
          else (((t.loadSettings c).runImage j y).set F.INJ_STATUS.CFG_VALID 1).startStep5 b n
        | [] => (t.startStep5 b n).startHalt haltFP) := by
    intro t h
    split
    · exact halt _ _ (stored _ h)
    · split
      · split
        · exact halt _ _ (step5 _ h)
        · exact step5 _ (set _ _ _ (run _ _ _ (load _ _ h)))
      · exact halt _ _ (step5 _ h)
  unfold State.startSteps
  have on : P ((s.latchStraps b.almsel.toNat).set F.PWR_DOM.ON domAll) := set _ _ _ (set _ _ _ start)
  dsimp only
  split
  · exact halt _ _ (log _ _ _ _ (stored _ on))
  · next i x _ _ =>
    exact rest _ (version _ x (run _ i x on))

/-- No session is open. -/
def State.closed (s : State) : Prop := s.sec.session = none

theorem State.closed_of_sec {t : State} (h : s.closed) (same : t.sec = s.sec) : t.closed := (congrArg SecSt.session same).trans h

theorem State.closed_startSix (b : Boot) (h : s.closed) : (s.startSix b).closed := by
  unfold State.startSix
  split
  · exact h
  · unfold State.opsecAdd
    dsimp only
    split
    · exact h
    · exact h

theorem State.closed_startStep5 (b : Boot) (n : Nat) (h : s.closed) : (s.startStep5 b n).closed := by
  obtain ⟨u, hu⟩ : ∃ u, u = s.startSix b := ⟨_, rfl⟩
  have six : u.closed := by rw [hu]; exact s.closed_startSix b h
  have started : ∀ c v d, ((u.celStart).log c v d).sec = u.sec := fun c v d => by
    rw [State.log_sec]
    exact (State.celStart_kept (.refl 16908302 u) (.refl _)).parts .sec rfl
  unfold State.startStep5
  rw [← hu]
  refine State.closed_of_sec (s := u) six ?_
  refine ((State.setPhase_kept (.refl 16908298 _) (.refl _)).parts .sec rfl).trans ?_
  dsimp only
  split
  · rfl
  · exact started _ _ _

theorem State.closed_runImage (i : Nat) (x : Image) (h : s.closed) : (s.runImage i x).closed := by
  unfold State.runImage State.closed
  rw [State.set_sec]
  exact h

/-- A start opens no session. -/
theorem State.closed_warmRun (b : Boot) (n : Nat) (h : s.closed) : ((s.startSteps b n).startSettled).closed := by
  refine State.closed_of_sec (s := s.startSteps b n) ?_ ((State.startSettled_kept (.refl 21102730 _) (.refl _)).parts .sec rfl)
  refine State.startSteps_keep (P := State.closed) b n h ?_ ?_ ?_ ?_ ?_ ?_ ?_ ?_
  · exact fun t f v h => State.closed_of_sec h (State.set_sec _ _ _)
  · exact fun t a w h => State.closed_of_sec h (State.wr_sec _ _ _)
  · exact fun t h => State.closed_of_sec h ((State.celStart_kept (.refl 16908302 t) (.refl _)).parts .sec rfl)
  · exact fun t c v d h => State.closed_of_sec h (State.log_sec _ _ _ _)
  · exact fun t c h => State.closed_of_sec h ((State.startHalt_kept (.refl 16908302 t) (.refl _)).parts .sec rfl)
  · exact fun t i x h => t.closed_runImage i x h
  · exact fun t c h => State.closed_of_sec h ((State.loadSettings_kept (.refl 1026 t) (.refl _)).parts .sec rfl)
  · exact fun t h => t.closed_startStep5 b n h

/-! ### A warm reset (R413, R417) -/

theorem State.closed_warmStep1 (b : Boot) (c : Nat) : (s.warmStep1 b c).closed := by
  obtain ⟨u, hu⟩ : ∃ u, u = ((s.forceThaw 4 b.slots).log 2 2 (leBytes 1 c)).sessionClose 6 := ⟨_, rfl⟩
  have session : u.closed := by rw [hu]; exact State.sessionClose_session _ _
  unfold State.warmStep1
  dsimp only
  rw [← hu]
  refine State.closed_of_sec session (((State.setOp_kept (.refl 16908298 _) (.refl _)).parts .sec rfl).trans ?_)
  rw [State.set_sec, (State.stopFastPath_kept (.refl 514 _) (.refl _)).parts .sec rfl, (State.stopProgram_kept (.refl 17051694 _) (.refl _)).parts .sec rfl,
    (State.forcesClear_kept (.refl 16801806 _) (.refl _)).parts .sec rfl]

/-- What a warm reset keeps, with everything else at reset. -/
def State.warmCore (s : State) : State :=
  { State.reset with
    clk := s.clk, regs := s.regs.filter (fun e => warmKeeps e.1), cel := s.cel,
    sec := { s.sec with running := State.reset.sec.running, upload := none, uploadSix := none }, tim := s.tim, mem := s.keptMem, lft := s.keptLoft,
    outbox := s.outbox, pending := s.pending, ecc := s.ecc,
    pwr := { PwrSt.reset with
      startup := true, kept := true, rstLow := s.pwr.rstLow, hold := s.pwr.hold, inWindow := s.pwr.inWindow, ovr := s.pwr.ovr,
      goodSix := s.pwr.goodSix, celStop := s.pwr.celStop, warnPin := s.pwr.warnPin } }

def State.warmShown (s : State) (v : State) (c : Nat) : State :=
  ((((s.keeping v [] warmFields).setOp opHALT 6).set F.PWR_RST.LAST c).bump F.PWR_RST.WARM_N).arcRegs.panRegs

theorem State.warmBase_eq (c : Nat) : s.warmBase c = s.extractKept.warmCore.warmShown s.extractKept c := by
  unfold State.warmBase State.warmShown State.warmCore
  rfl

theorem State.warmCore_up : s.warmCore.tsk.up = false := rfl

theorem State.warmCore_session : s.warmCore.sec.session = s.sec.session := rfl

theorem State.warmShown_kept (v : State) (c : Nat) : Kept 16908298 s (s.warmShown v c) := by
  unfold State.warmShown
  refine State.panRegs_kept (State.arcRegs_kept (State.bump_kept (State.set_kept (State.setOp_kept (State.keeping_kept (.refl _ _) ?_) ?_) ?_) ?_) ?_) ?_
  all_goals exact .of (.refl _) rfl

/-- Step 2 of a warm reset: the tasks stand at reset, and no session opens. -/
theorem State.warmBase_shows (c : Nat) (h : s.closed) : (s.warmBase c).closed ∧ (s.warmBase c).tsk.up = false := by
  have kept : s.extractKept.sec = s.sec := (State.extractKept_kept (.refl 17301514 s) (.refl _)).parts .sec rfl
  obtain ⟨u, hu⟩ : ∃ u, u = s.extractKept.warmCore := ⟨_, rfl⟩
  have session : u.closed := by
    unfold State.closed
    rw [hu, State.warmCore_session, kept]
    exact h
  have down : u.tsk.up = false := by rw [hu, State.warmCore_up]
  rw [State.warmBase_eq, ← hu]
  refine ⟨State.closed_of_sec session ((u.warmShown_kept _ c).parts .sec rfl), ?_⟩
  rw [(u.warmShown_kept _ c).parts .tsk rfl, down]

theorem execWarmReset_resets {c : Nat} (b : Boot) (asked : s.pwr.warm = some c) (settled : s.pwr.settleAt = none) (runs : s.clk.running = true) :
    ∃ t, execWarmReset b s = .next t ∧ t.clk.running = true ∧ t.six = s.six ∧ t.tsk.up = false ∧ t.sec.session = none := by
  obtain ⟨u, hu⟩ : ∃ u, u = (s.warmStep1 b c).warmBase c := ⟨_, rfl⟩
  obtain ⟨closed, down⟩ := State.warmBase_shows (s := s.warmStep1 b c) c (s.closed_warmStep1 b c)
  rw [← hu] at closed down
  have eq : execWarmReset b s = .next (if s.pwr.rstLow then { u with pwr := { u.pwr with held := 2 } } else u.warmRun b) := by
    unfold execWarmReset
    rw [asked, hu]
    exact if_neg (by rw [settled]; simp)
  have kept : Kept 31457279 s (if s.pwr.rstLow then { u with pwr := { u.pwr with held := 2 } } else u.warmRun b) :=
    execWarmReset_kept (.refl _ s) (.refl _) _ eq
  obtain ⟨running, six⟩ := kept.six runs
  refine ⟨_, eq, running, six, ?_⟩
  split
  · exact ⟨down, closed⟩
  · refine ⟨?_, State.closed_warmRun b _ closed⟩
    rw [(State.warmRun_kept (.refl 29492383 u) (.refl _)).parts .tsk rfl, down]

/-! ### A cold start (R411, R415) -/

/-- What a cold start keeps, with everything else at reset. -/
def State.coldCore (s : State) (b : Boot) : State :=
  { State.reset with
    clk := { State.reset.clk with free := s.clk.free }, cel := s.keptCel b.p0, sec := s.sec.afterPower, mem := s.keptMem, lft := s.keptLoft,
    outbox := s.outbox, pending := s.pending, pwr := { PwrSt.reset with startup := true, rstLow := s.pwr.rstLow } }

def State.withCel (s : State) (x : CelSt) : State := { s with cel := x }

theorem State.withCel_sec (x : CelSt) : (s.withCel x).sec = s.sec := rfl

theorem State.withCel_tsk (x : CelSt) : (s.withCel x).tsk = s.tsk := rfl

def State.coldMarked (s : State) (p0 : Bool) : State := if p0 then s else (s.setLastWord []).tamperSet 2

def State.coldMuted (s : State) : State := if lastWordOk s.cel.lastWord then s.mutePin true else s

theorem State.coldBase_eq (b : Boot) : ∃ x, s.coldBase b =
    (((((((s.coldCore b).keeping s coldWords coldFields).set F.PWR_DOM.ON 7).freshSupply b.vmain).withCel x).coldMarked b.p0).coldMuted).arcRegs.panRegs.copyOps := by
  unfold State.coldBase State.coldCore State.withCel State.coldMarked State.coldMuted
  exact ⟨_, rfl⟩

theorem State.coldCore_shows (b : Boot) : (s.coldCore b).sec.session = none ∧ (s.coldCore b).tsk.up = false := ⟨rfl, rfl⟩

theorem State.coldMarked_shows (p0 : Bool) (h : s.closed) : (s.coldMarked p0).closed ∧ (s.coldMarked p0).tsk = s.tsk := by
  unfold State.coldMarked
  split
  · exact ⟨h, rfl⟩
  · refine ⟨State.tamperSet_session _ _, ?_⟩
    rw [(State.tamperSet_kept (.refl 17827871 _) (.refl _)).parts .tsk rfl, (State.setLastWord_kept (.refl 6 _) (.refl _)).parts .tsk rfl]

theorem State.coldMuted_kept : Kept 16908290 s s.coldMuted := by
  unfold State.coldMuted
  split
  · exact State.mutePin_kept (.refl _ _) (.of (.refl _) rfl)
  · exact .refl _ _

theorem State.copyOps_shows (h : s.closed) : s.copyOps.closed ∧ s.copyOps.tsk = s.tsk := ⟨h, rfl⟩

theorem State.coldBase_shows (b : Boot) : (s.coldBase b).closed ∧ (s.coldBase b).tsk.up = false := by
  obtain ⟨x, eq⟩ := s.coldBase_eq b
  obtain ⟨u, hu⟩ : ∃ u, u = ((((s.coldCore b).keeping s coldWords coldFields).set F.PWR_DOM.ON 7).freshSupply b.vmain).withCel x := ⟨_, rfl⟩
  have kept : Kept 4194310 (s.coldCore b) ((((s.coldCore b).keeping s coldWords coldFields).set F.PWR_DOM.ON 7).freshSupply b.vmain) :=
    State.freshSupply_kept (State.set_kept (State.keeping_kept (.refl _ _) (.of (.refl _) rfl)) (.of (.refl _) rfl)) (.of (.refl _) rfl)
  obtain ⟨session, down⟩ := s.coldCore_shows b
  have sec := kept.parts .sec rfl
  have task := kept.parts .tsk rfl
  obtain ⟨v, hv⟩ : ∃ v, v = ((((s.coldCore b).keeping s coldWords coldFields).set F.PWR_DOM.ON 7).freshSupply b.vmain) := ⟨_, rfl⟩
  rw [← hv] at hu sec task
  have closed : u.closed := by
    unfold State.closed
    rw [hu, State.withCel_sec, sec, session]
  have up : u.tsk.up = false := by rw [hu, State.withCel_tsk, task, down]
  obtain ⟨marked, tsk⟩ := u.coldMarked_shows b.p0 closed
  have regs : Kept 16908290 (u.coldMarked b.p0) (u.coldMarked b.p0).coldMuted.arcRegs.panRegs :=
    State.panRegs_kept (State.arcRegs_kept (State.coldMuted_kept) (.of (.refl _) rfl)) (.of (.refl _) rfl)
  obtain ⟨copied, tsk'⟩ := State.copyOps_shows (s := (u.coldMarked b.p0).coldMuted.arcRegs.panRegs) (State.closed_of_sec marked (regs.parts .sec rfl))
  rw [eq, ← hv, ← hu]
  refine ⟨copied, ?_⟩
  rw [tsk', regs.parts .tsk rfl, tsk, up]

/-- A report of the island opens no session. -/
theorem State.closed_signReport (kind : Nat) (nonce : List Byte) (wipe checked : Nat) (h : s.closed) :
    (s.signReport kind nonce wipe checked).2.closed := by
  have used : ∀ n d, (s.indexUsed n d).closed := fun n d => by
    unfold State.indexUsed State.closed
    rw [State.log_sec, State.set_sec]
    exact h
  obtain ⟨d, eq | ⟨e, eq⟩⟩ := s.signReport_cases kind nonce wipe checked
  · rw [eq]
    exact used _ d
  · rw [eq]
    exact State.closed_of_sec (used _ d) ((State.log_sec _ _ _ _).trans (State.raise_sec _ _))

theorem State.wipeDone_shows (h : s.closed) : s.wipeDone.closed ∧ s.wipeDone.tsk = s.tsk := by
  refine ⟨?_, (State.wipeDone_kept (.refl 16777247 s) (.refl _)).parts .tsk rfl⟩
  have closed : ∀ y : SecSt, y.session = s.sec.session → (s.fresh.2.withSec y).closed := fun y e => e.trans h
  have cleared : ∀ t : State, t.closed → ((t.set F.SEC_STATUS.WIPING 0).raise F.SEC_EVT.LC_CHANGE).closed := fun t c =>
    State.closed_of_sec c ((State.raise_sec _ _).trans (State.set_sec _ _ _))
  have proven : ∀ (r : List Byte × State), r.2.closed → (r.2.withSec { r.2.sec with wipeProof := r.1 }).closed := fun r c => c
  unfold State.wipeDone
  split
  · refine cleared _ ?_
    split
    · exact closed _ rfl
    · exact proven _ (State.closed_signReport _ _ _ _ (closed _ rfl))
  · exact h

/-- The keys as a wipe leaves them, and the island beside. -/
def State.keysWiped (s : State) : State := ((List.range 4).foldl (fun t k => (t.set (F.SEC_KEY.STATE k) 2)) s).raise F.SEC_EVT.KEY_CHANGE

def State.islandWiped (s : State) : State :=
  s.withSec { s.sec with
    slots := s.sec.slots.filter (fun e => decide (e.1 < 2)), running := s.sec.running.filter (fun e => e.1 == 0), upload := none, uploadSix := none }

def State.spacesWiped (s : State) : State := [1, 2, 5, 6, 7, 8, 9, 10, 11, 12, 13, 14].foldl State.zeroSpace s

def State.recordsWiped (s : State) : State :=
  { s with
    tsk := { s.tsk with panWriting := none }, inj := { s.inj with scap := [], scapLeft := 0, scapFirst := none },
    cel := { s.cel with bankA := [], bankB := [], cubby := [] }, lft := { s.lft with arc := [], exp := none } }

def State.wipeShown (s : State) : State := (s.set F.CEL_STATUS.CUBBY_N 0).celCount.arcRegs

theorem State.wipeStores_eq : s.wipeStores = s.keysWiped.islandWiped.spacesWiped.recordsWiped.wipeShown := by
  unfold State.wipeStores State.keysWiped State.islandWiped State.spacesWiped State.recordsWiped State.wipeShown
  rfl

theorem State.recordsWiped_shows : s.recordsWiped.sec = s.sec ∧ s.recordsWiped.tsk.up = s.tsk.up := ⟨rfl, rfl⟩

theorem State.islandWiped_shows : s.islandWiped.sec.session = s.sec.session ∧ s.islandWiped.tsk = s.tsk := ⟨rfl, rfl⟩

theorem State.keysWiped_kept : Kept 16777226 s s.keysWiped := by
  unfold State.keysWiped
  refine State.raise_kept ?_ (.of (.refl _) rfl)
  exact foldl_invariant (P := fun u => Kept 16777226 s u) _ (.refl _ _) fun _ _ _ k => State.set_kept k (.of (.refl _) rfl)

theorem State.spacesWiped_kept : Kept 2048 s s.spacesWiped :=
  foldl_invariant (P := fun u => Kept 2048 s u) _ (.refl _ _) fun _ _ _ k => State.zeroSpace_kept k (.of (.refl _) rfl)

theorem State.wipeShown_kept : Kept 2 s s.wipeShown :=
  State.arcRegs_kept (State.celCount_kept (State.set_kept (.refl _ _) (.of (.refl _) rfl)) (.of (.refl _) rfl)) (.of (.refl _) rfl)

/-- A wipe of the stores opens no session and starts no program. -/
theorem State.wipeStores_shows (h : s.closed) : s.wipeStores.closed ∧ s.wipeStores.tsk.up = s.tsk.up := by
  obtain ⟨sec, up⟩ := State.recordsWiped_shows (s := s.keysWiped.islandWiped.spacesWiped)
  obtain ⟨session, tsk⟩ := State.islandWiped_shows (s := s.keysWiped)
  unfold State.closed
  rw [State.wipeStores_eq, State.wipeShown_kept.parts .sec rfl, State.wipeShown_kept.parts .tsk rfl, sec, up, State.spacesWiped_kept.parts .sec rfl,
    State.spacesWiped_kept.parts .tsk rfl, session, tsk, State.keysWiped_kept.parts .sec rfl, State.keysWiped_kept.parts .tsk rfl]
  exact ⟨h, rfl⟩

theorem State.resumeWipe_shows (h : s.closed) : s.resumeWipe.closed ∧ s.resumeWipe.tsk.up = s.tsk.up := by
  obtain ⟨closed, up⟩ := s.wipeStores_shows h
  obtain ⟨closed', tsk⟩ := s.wipeStores.wipeDone_shows closed
  unfold State.resumeWipe
  split
  · exact ⟨closed', by rw [tsk, up]⟩
  · exact ⟨h, rfl⟩

theorem State.coldRun_shows (b : Boot) (h : s.closed) : (s.coldRun b).closed ∧ (s.coldRun b).tsk.up = s.tsk.up := by
  obtain ⟨u, hu⟩ : ∃ u, u = s.clocksRun.celScan b.okA b.okB b.p0 b.torn := ⟨_, rfl⟩
  have kept : Kept 6 s u := by
    rw [hu]
    exact State.celScan_kept (State.clocksRun_kept (.refl _ _) (.of (.refl _) rfl)) (.of (.refl _) rfl)
  obtain ⟨closed, up⟩ := u.resumeWipe_shows (State.closed_of_sec h (kept.parts .sec rfl))
  unfold State.coldRun
  rw [← hu]
  refine ⟨State.closed_warmRun b _ closed, ?_⟩
  rw [(State.startSettled_kept (.refl 21102730 _) (.refl _)).parts .tsk rfl, (State.startSteps_kept (.refl 29492255 _) (.refl _)).parts .tsk rfl, up,
    kept.parts .tsk rfl]

theorem execColdStart_starts (b : Boot) (good : 1750 ≤ b.vmain) (off : s.powered = false) : ∃ t, execColdStart b s = .next t ∧
    t.sec.session = none ∧ t.tsk.up = false := by
  obtain ⟨u, hu⟩ : ∃ u, u = s.coldBase b := ⟨_, rfl⟩
  obtain ⟨closed, down⟩ := s.coldBase_shows b
  rw [← hu] at closed down
  obtain ⟨ran, up⟩ := State.coldRun_shows b closed
  have eq : execColdStart b s = .next (if s.pwr.rstLow then { u with pwr := { u.pwr with held := 1 } } else u.coldRun b) := by
    unfold execColdStart
    rw [hu]
    exact if_pos ⟨good, .inl (by rw [off]; rfl)⟩
  refine ⟨_, eq, ?_⟩
  split
  · exact ⟨closed, down⟩
  · exact ⟨ran, by rw [up, down]⟩

/-! ### A fast-path configuration that waits (R132, R392) -/

/-- The upload that waits is taken. -/
def State.uploadTaken (s : State) : State := s.withSec { s.sec with upload := none, uploadSix := none }

/-- What follows from new settings leaves them. -/
theorem State.fpApply_fp (c : FpConfig) : (s.fpApply c).fp = c := by
  have restarted : ∀ t : State, Kept 17531790 t (((((t.injRestart s).ctxRestart s).inputsRestart s).channelsRestart s).loftRestart s) := fun t =>
    State.loftRestart_kept (State.channelsRestart_kept (State.inputsRestart_kept (State.ctxRestart_kept (State.injRestart_kept (.refl _ _)
      (.of (.refl _) rfl)) (.of (.refl _) rfl)) (.of (.refl _) rfl)) (.of (.refl _) rfl)) (.of (.refl _) rfl)
  have publishing : ∀ t : State, (if t.ethOn then t.gooseRestart else t).fp = t.fp := by
    intro t
    split
    · exact (State.gooseRestart_kept (.refl 16908290 t) (.refl _)).parts .fp rfl
    · rfl
  have loaded : (s.loadSettings c).fp = c := rfl
  unfold State.fpApply
  refine ((State.timConfig_kept (.refl 25296911 _) (.refl _)).parts .fp rfl).trans ((publishing _).trans ?_)
  exact ((restarted _).parts .fp rfl).trans loaded

theorem State.runImage_shows (i : Nat) (x : Image) : (s.runImage i x).fp = s.fp ∧ (s.runImage i x).sec =
    { s.sec with running := kvPut (fun _ => none) s.sec.running (x.kind - 1) (some i) } := by
  unfold State.runImage
  rw [State.set_fp, State.set_sec]
  exact ⟨rfl, rfl⟩

theorem execFastpathConfigEffect_takes {x : Image} {cfg : FpConfig} (waits : s.sec.upload = some x) (due : s.fpDue = true) (body : x.body = .fastPath cfg) :
    (s.fpOk cfg = true → ∃ t, execFastpathConfigEffect s = .next t ∧ t.sec.upload = none ∧ t.fp = cfg ∧
      kvGet (fun _ => none) t.sec.running (x.kind - 1) = some (s.slotWith x)) ∧
    (s.fpOk cfg = false → ∃ t, execFastpathConfigEffect s = .next t ∧ t.sec.upload = none ∧ t.regs = s.regs ∧ t.fp = s.fp) := by
  have runs : execFastpathConfigEffect s =
      .next (if s.fpOk cfg then (s.uploadTaken.fpApply cfg).runImage (s.slotWith x) x else s.uploadTaken) := by
    unfold execFastpathConfigEffect
    rw [waits]
    refine (if_pos due).trans ?_
    rw [body]
    rfl
  refine ⟨fun ok => ?_, fun bad => ?_⟩
  · rw [if_pos ok] at runs
    obtain ⟨fp, sec⟩ := State.runImage_shows (s := s.uploadTaken.fpApply cfg) (s.slotWith x) x
    have island : (s.uploadTaken.fpApply cfg).sec = s.uploadTaken.sec := (State.fpApply_kept (.refl 25921423 _) (.refl _)).parts .sec rfl
    refine ⟨_, runs, ?_, ?_, ?_⟩
    · rw [sec, island]
      rfl
    · rw [fp, State.fpApply_fp]
    · rw [sec]
      exact kvGet_put_same (fun _ => none) _ (x.kind - 1) (some (s.slotWith x))
  · rw [if_neg (by rw [bad]; decide)] at runs
    exact ⟨_, runs, rfl, rfl, rfl⟩

end

/-- Settles O60, by what each event of the supply, the clocks and the starts writes, and what the steps of a start keep. -/
theorem supplyClocksAndStarts : Obligations.SupplyClocksAndStarts := by
  unfold Obligations.SupplyClocksAndStarts
  intro s v hu b before die base since c d i x cfg
  exact ⟨execSupplyWarn_shows s v hu, execBrownout_holds, execOvervoltageDisconnect_holds, execSupplyBack_returns, execRideThroughExpired_enters,
    execVmainGood_returns, execPowerDown_stops, execHoldupExhausted_stops, execOtWarn_warns, execOt_stands, execOtClear_clears, execClockFault_halts i,
    execDomainFault_stands d, execWatchdogExpired_requests, execRstNLow_requests, execWarmReset_resets b, execRstNHigh_goes b, execColdStart_starts b,
    execFastpathConfigEffect_takes⟩

end Sys2Proof.Machine
end

section
/-!
PROOFS. Actions on records and histograms, and exports (R274, R275, R280, R284 to R286).
-/
namespace Sys2Proof.Machine
open Sys2Proof

section
variable (s : State)

/-- What a run of writes leaves at the place of one of them. -/
theorem State.rd_writes {at_ : Nat → Nat} (apart : ∀ i j, at_ i = at_ j → i = j) (word : Nat → Word) {n i : Nat} (h : i < n) :
    ((List.range n).foldl (fun v i => v.wr (at_ i) (word i)) s).rd (at_ i) = word i := by
  induction n with
  | zero => omega
  | succ n ih =>
    rw [List.range_succ, List.foldl_append, List.foldl_cons, List.foldl_nil]
    by_cases last : i = n
    · rw [last, State.rd_wr_same]
    · rw [State.rd_wr_ne _ _ (fun same => last (apart i n same)), ih (by omega)]

/-! ### The archive -/

theorem State.rec?_congr {t : State} (h : t.lft.arc = s.lft.arc) (n : Nat) : t.rec? n = s.rec? n := by
  unfold State.rec?
  rw [h]

theorem State.arcProt_congr {t : State} (h : t.lft.arc = s.lft.arc) : t.arcProt = s.arcProt := by
  unfold State.arcProt
  rw [h]

theorem State.exportReason_congr {t : State} (h : t.lft.arc = s.lft.arc) (j : ExpJob) : t.exportReason j = s.exportReason j := by
  unfold State.exportReason
  rw [s.rec?_congr h]

theorem State.recno_of_rec {n : Nat} {d : LftRec} (h : s.rec? n = some d) : d.recno = n := by
  unfold State.rec? at h
  have holds := List.find?_some (p := fun d : LftRec => d.recno == n) h
  exact beq_iff_eq.mp holds

/-- The first record of a number is still the first when every record of that number changes but its number. -/
theorem State.rec?_modRec {n : Nat} {d : LftRec} (f : LftRec → LftRec) (same : ∀ y : LftRec, (f y).recno = y.recno) (h : s.rec? n = some d) :
    (s.modRec d.recno f).rec? n = some (f d) := by
  rw [s.recno_of_rec h]
  have number : ∀ y : LftRec, (if y.recno = n then f y else y).recno = y.recno := fun y => by
    split
    · exact same y
    · rfl
  have num := s.recno_of_rec h
  unfold State.rec? at h
  unfold State.rec? State.modRec
  show List.find? (fun d => d.recno == n) (List.map (fun d => if d.recno = n then f d else d) s.lft.arc) = some (f d)
  rw [List.find?_map]
  have keeps : ((fun d : LftRec => d.recno == n) ∘ fun d => if d.recno = n then f d else d) = fun d => d.recno == n := by
    funext y
    simp only [Function.comp_apply, number]
  rw [keeps, h, Option.map_some, if_pos num]

theorem State.arcRegs_lft : s.arcRegs.lft = s.lft := (State.arcRegs_kept (.refl 2 s) (.refl _)).parts .lft rfl

theorem State.recResult_lft (v : Nat) : (s.recResult v).lft = s.lft := State.set_lft _ _ _

theorem State.result_recResult {v : Nat} (h : v < 4) : (s.recResult v).get F.LFT_REC_CTL.RESULT = v := by
  unfold State.recResult
  rw [State.get_set_same _ _ _ (by decide)]
  exact Nat.mod_eq_of_lt h

variable {s} {pf : Fin 2} {w : Word} {d : LftRec}

/-- The selected record, behind the access check. -/
theorem State.onRecord_checked (right : Option Nat) (found : s.rec? (s.get F.LFT_REC_SEL.RECNO) = some d) (act : State → LftRec → State) :
    (s.checked pf A.LFT_REC_CTL w right).onRecord act = act (s.checked pf A.LFT_REC_CTL w right) d := by
  unfold State.onRecord
  rw [State.get_checked _ _ _ _ _ (by decide) (by decide) (by decide), State.rec?_congr s (by rw [State.checked_lft]), found]

theorem State.recKick_acts {b : Nat} (may : s.permits pf A.LFT_REC_CTL w (some 0)) (kick : bit w.toNat b = true)
    (found : s.rec? (s.get F.LFT_REC_SEL.RECNO) = some d) (act : State → LftRec → State) :
    s.recKick pf b w act = act (s.checked pf A.LFT_REC_CTL w (some 0)) d := by
  unfold State.recKick
  rw [show needsOperate = some 0 from rfl, whenAllowed_acts s pf _ w _ may rfl, if_pos kick, State.onRecord_checked _ found]

theorem execRecLoad_shows (may : s.permits pf A.LFT_REC_CTL w none) (kick : bit w.toNat 0 = true) (found : s.rec? (s.get F.LFT_REC_SEL.RECNO) = some d)
    (shut : d.state ≠ 1) : ∃ t, execRecLoad pf w s = .next t ∧ t.get F.LFT_REC_CTL.RESULT = 1 ∧
      ∀ i, i < 64 → t.rd (A.LFT_RWIN i) = BitVec.ofNat 32 (leNat ((d.head.drop (4 * i)).take 4)) := by
  refine ⟨_, rfl, ?_⟩
  rw [whenAllowed_acts s pf _ w _ may rfl, if_pos kick, State.onRecord_checked _ found, if_neg shut]
  refine ⟨State.result_recResult _ (by decide), fun i inside => ?_⟩
  have apart : A.LFT_RWIN i ≠ F.LFT_REC_CTL.RESULT.addr := by simp only [A.LFT_RWIN, F.LFT_REC_CTL.RESULT, A.LFT_REC_CTL]; omega
  unfold State.recResult
  rw [State.rd_set_ne _ _ apart]
  exact State.rd_writes _ (fun i j h => by simp only [A.LFT_RWIN] at h; omega) (fun i => BitVec.ofNat 32 (leNat ((d.head.drop (4 * i)).take 4))) inside

/-- The archive behind a change of one record. -/
theorem State.rec?_shown (t : State) (n : Nat) : (t.arcRegs.recResult 1).rec? n = t.rec? n :=
  State.rec?_congr _ (by rw [State.recResult_lft, State.arcRegs_lft]) n

theorem execRecProtect_protects (may : s.permits pf A.LFT_REC_CTL w (some 0)) (found : s.rec? (s.get F.LFT_REC_SEL.RECNO) = some d)
    (kick : bit w.toNat 1 = true) (plain : d.prot = false) (room : s.arcProt + d.space ≤ protMax) : ∃ t, execRecProtect pf w s = .next t ∧
      t.rec? (s.get F.LFT_REC_SEL.RECNO) = some { d with prot := true } ∧ t.get F.LFT_REC_CTL.RESULT = 1 := by
  refine ⟨_, rfl, ?_⟩
  have same : (s.checked pf A.LFT_REC_CTL w (some 0)).lft.arc = s.lft.arc := by rw [State.checked_lft]
  rw [State.recKick_acts may kick found, if_neg (by rw [plain]; decide), if_neg (by rw [s.arcProt_congr same]; exact Nat.not_lt.mpr room)]
  refine ⟨?_, State.result_recResult _ (by decide)⟩
  rw [State.rec?_shown]
  exact State.rec?_modRec _ (fun y => { y with prot := true }) (fun _ => rfl) ((s.rec?_congr same _).trans found)

theorem execRecUnprotect_unprotects (may : s.permits pf A.LFT_REC_CTL w (some 0)) (found : s.rec? (s.get F.LFT_REC_SEL.RECNO) = some d)
    (kick : bit w.toNat 2 = true) : ∃ t, execRecUnprotect pf w s = .next t ∧
      t.rec? (s.get F.LFT_REC_SEL.RECNO) = some { d with prot := false } ∧ t.get F.LFT_REC_CTL.RESULT = 1 := by
  refine ⟨_, rfl, ?_⟩
  have same : (s.checked pf A.LFT_REC_CTL w (some 0)).lft.arc = s.lft.arc := by rw [State.checked_lft]
  rw [State.recKick_acts may kick found]
  refine ⟨?_, State.result_recResult _ (by decide)⟩
  rw [State.rec?_shown]
  exact State.rec?_modRec _ (fun y => { y with prot := false }) (fun _ => rfl) ((s.rec?_congr same _).trans found)

theorem execRecDelete_deletes (may : s.permits pf A.LFT_REC_CTL w (some 0)) (found : s.rec? (s.get F.LFT_REC_SEL.RECNO) = some d)
    (kick : bit w.toNat 3 = true) (shut : d.state ≠ 1) (plain : d.prot = false) : ∃ t, execRecDelete pf w s = .next t ∧
      t.rec? (s.get F.LFT_REC_SEL.RECNO) = none ∧ t.get F.LFT_REC_CTL.RESULT = 1 := by
  refine ⟨_, rfl, ?_⟩
  have free : d.deletable = true := by
    unfold LftRec.deletable
    rw [plain, bne_iff_ne.mpr shut]
    rfl
  rw [State.recKick_acts may kick found, if_pos free]
  refine ⟨?_, State.result_recResult _ (by decide)⟩
  rw [State.rec?_shown, s.recno_of_rec found]
  unfold State.rec?
  refine List.find?_eq_none.mpr fun y inside => ?_
  have other := (List.mem_filter.mp inside).2
  rw [bne_iff_ne] at other
  exact fun h => other (beq_iff_eq.mp h)

/-! ### Histograms -/

theorem execHistClear_runs {u : Fin 16} (may : s.permits pf (A.LFT_H_CTL u) w (some 0)) (kick : bit w.toNat 0 = true) (runs : s.lftRuns = true)
    (used : s.get (F.LFT_H_CFG.KIND u) ≠ 0) : ∃ t, execHistClear pf u w s = .next t ∧ (t.hist u).clear = some (s.six + 1) := by
  refine ⟨_, rfl, ?_⟩
  have few : u.val < 16 := u.isLt
  have kind : (s.checked pf (A.LFT_H_CTL u) w (some 0)).get (F.LFT_H_CFG.KIND u) = s.get (F.LFT_H_CFG.KIND u) :=
    State.get_checked _ _ _ _ _ (by simp only [F.LFT_H_CFG.KIND, A.LFT_H_CFG, A.ENG_EVT]; omega)
      (by simp only [F.LFT_H_CFG.KIND, A.LFT_H_CFG, A.CEL_DROP]; omega) (by simp only [F.LFT_H_CFG.KIND, A.LFT_H_CFG, A.CEL_EVT]; omega)
  have run : (s.checked pf (A.LFT_H_CTL u) w (some 0)).lftRuns = true := by
    unfold State.lftRuns
    rw [State.flag_checked _ _ _ _ _ (by decide) (by decide) (by decide)]
    exact runs
  rw [show needsOperate = some 0 from rfl, whenAllowed_acts s pf _ w _ may rfl, if_pos kick, if_pos ⟨run, by rw [kind]; exact used⟩]
  unfold State.hist State.setHist
  rw [kvGet_put_same, State.checked_six]

theorem execHistClear_stopped {u : Fin 16} (may : s.permits pf (A.LFT_H_CTL u) w (some 0)) (kick : bit w.toNat 0 = true) (stopped : s.lftRuns = false) :
    ∃ t, execHistClear pf u w s = .next t ∧ (t.hist u).bins = [] ∧ t.get (F.LFT_H_COUNT.COUNT u) = 0 := by
  refine ⟨_, rfl, ?_⟩
  have run : (s.checked pf (A.LFT_H_CTL u) w (some 0)).lftRuns = false := by
    unfold State.lftRuns
    rw [State.flag_checked _ _ _ _ _ (by decide) (by decide) (by decide)]
    exact stopped
  rw [show needsOperate = some 0 from rfl, whenAllowed_acts s pf _ w _ may rfl, if_pos kick, if_neg (fun h => Bool.false_ne_true (run.symm.trans h.1))]
  unfold State.histZero
  refine ⟨?_, ?_⟩
  · unfold State.hist
    rw [State.set_lft, State.set_lft]
    unfold State.setHist
    rw [kvGet_put_same]
  · rw [State.get_set_same _ _ _ (by simp [F.LFT_H_COUNT.COUNT])]
    exact Nat.zero_mod _

/-! ### Exports -/

/-- The words that a channel of the engine shows stand with those of the channels. -/
theorem State.get_dmaShow_lft (t : State) (c st : Nat) {f : Field} (h : A.DMA_C_STAT 16 ≤ f.addr) (few : c < 16) : (t.dmaShow c st).get f = t.get f := by
  simp only [A.DMA_C_STAT] at h
  exact State.get_congr (t.rd_dmaShow c st (by simp only [A.DMA_C_STAT]; omega) (by simp only [A.DMA_EVT]; omega))

theorem State.dmaShow_lft (t : State) (c st : Nat) : (t.dmaShow c st).lft = t.lft := (State.dmaShow_kept (.refl 16777226 t) (.refl _)).parts .lft rfl

/-- The end of exports, as the registers show it. -/
theorem State.exportEnd_shows (t : State) {st why : Nat} (h : st < 4) (g : why < 16) : (t.exportEnd st why).get F.LFT_EXP_CTL.STATE = st ∧
    (t.exportEnd st why).get F.LFT_EXP_CTL.REASON = why ∧ (t.exportEnd st why).get F.LFT_STATUS.EXP_BUSY = 0 ∧ (t.exportEnd st why).lft.exp = none ∧
    (st = 2 → (t.exportEnd st why).flag F.LFT_EVT.EXP_DONE = true) := by
  obtain ⟨u, hu⟩ : ∃ u, u = ((t.set F.LFT_EXP_CTL.STATE st).set F.LFT_EXP_CTL.REASON why).set F.LFT_STATUS.EXP_BUSY 0 := ⟨_, rfl⟩
  have state : u.get F.LFT_EXP_CTL.STATE = st := by
    rw [hu, State.get_set_ne _ _ (by decide), State.get_set_apart _ _ (by decide) (by decide), State.get_set_same _ _ _ (by decide)]
    exact Nat.mod_eq_of_lt h
  have reason : u.get F.LFT_EXP_CTL.REASON = why := by
    rw [hu, State.get_set_ne _ _ (by decide), State.get_set_same _ _ _ (by decide)]
    exact Nat.mod_eq_of_lt g
  have busy : u.get F.LFT_STATUS.EXP_BUSY = 0 := by
    rw [hu, State.get_set_same _ _ _ (by decide)]
    rfl
  obtain ⟨v, hv⟩ : ∃ v, v = u.withLft { u.lft with exp := none } := ⟨_, rfl⟩
  have shown : ∀ f, v.get f = u.get f := fun f => by rw [hv, State.get_congr (State.rd_congr (State.withLft_regs _ _) _)]
  have eq : t.exportEnd st why = if st = 2 then v.raise F.LFT_EVT.EXP_DONE else v.raise F.LFT_EVT.EXP_FAIL := by rw [hv, hu]; rfl
  have none_ : v.lft.exp = none := by rw [hv]; rfl
  rw [eq]
  split
  · refine ⟨?_, ?_, ?_, ?_, fun _ => State.flag_raise _ _ (by decide) rfl⟩
    · rw [State.get_raise_ne _ (by decide), shown, state]
    · rw [State.get_raise_ne _ (by decide), shown, reason]
    · rw [State.get_raise_ne _ (by decide), shown, busy]
    · rw [State.raise_lft, none_]
  · next other =>
    refine ⟨?_, ?_, ?_, ?_, fun done => absurd done other⟩
    · rw [State.get_raise_ne _ (by decide), shown, state]
    · rw [State.get_raise_ne _ (by decide), shown, reason]
    · rw [State.get_raise_ne _ (by decide), shown, busy]
    · rw [State.raise_lft, none_]

/-- Exports that run, as the registers show it. -/
def State.exporting (t : State) (j : ExpJob) : State :=
  (((t.set F.LFT_EXP_CTL.STATE 1).set F.LFT_EXP_CTL.REASON 0).set F.LFT_STATUS.EXP_BUSY 1).withLft
    { (((t.set F.LFT_EXP_CTL.STATE 1).set F.LFT_EXP_CTL.REASON 0).set F.LFT_STATUS.EXP_BUSY 1).lft with exp := some j }

theorem State.exporting_shows (t : State) (j : ExpJob) : (t.exporting j).get F.LFT_EXP_CTL.STATE = 1 ∧ (t.exporting j).get F.LFT_STATUS.EXP_BUSY = 1 ∧
    (t.exporting j).lft.exp = some j := by
  unfold State.exporting
  refine ⟨?_, ?_, rfl⟩
  · rw [State.get_congr (State.rd_congr (State.withLft_regs _ _) _), State.get_set_ne _ _ (by decide), State.get_set_apart _ _ (by decide) (by decide),
      State.get_set_same _ _ _ (by decide)]
    rfl
  · rw [State.get_congr (State.rd_congr (State.withLft_regs _ _) _), State.get_set_same _ _ _ (by decide)]
    rfl

/-- The mode that a kick gives, as the registers show it. -/
def State.expModed (t : State) (w : Word) : State := (t.set F.LFT_EXP_CTL.MODE w.toNat).set F.LFT_EXP_CTL.QBITS (w.toNat / 4)

def State.expLens (t : State) : State := (t.set F.LFT_EXP_LEN0.VALUE 0).set F.LFT_EXP_LEN1.VALUE 0

/-- What exports the registers ask for. -/
def State.expAsked (t : State) : ExpJob :=
  ⟨t.get F.LFT_EXP_REC.RECNO, t.get F.LFT_EXP_CTL.MODE, t.flag F.LFT_EXP_CTL.QBITS, t.get64 A.LFT_EXP_FROM, t.get F.LFT_EXP_N.VALUE⟩

theorem State.expAsked_moded (t : State) (w : Word) : (t.expModed w).expAsked =
    ⟨t.get F.LFT_EXP_REC.RECNO, fieldOf w 0 2, bit w.toNat 2, t.get64 A.LFT_EXP_FROM, t.get F.LFT_EXP_N.VALUE⟩ := by
  have mode : (t.expModed w).get F.LFT_EXP_CTL.MODE = fieldOf w 0 2 := by
    unfold State.expModed
    rw [State.get_set_apart _ _ (by decide) (by decide), State.get_set_same _ _ _ (by decide)]
    unfold fieldOf
    rw [Nat.pow_zero, Nat.div_one]
    rfl
  have qbits : (t.expModed w).flag F.LFT_EXP_CTL.QBITS = bit w.toNat 2 := by
    unfold State.expModed State.flag bit
    rw [State.get_set_same _ _ _ (by decide)]
    show (w.toNat / 4 % 2 != 0) = (w.toNat / 2 ^ 2 % 2 == 1)
    have two : w.toNat / 4 % 2 < 2 := Nat.mod_lt _ (by decide)
    rw [show (2 : Nat) ^ 2 = 4 from rfl]
    interval_cases w.toNat / 4 % 2 <;> rfl
  have other : ∀ f : Field, f.addr ≠ A.LFT_EXP_CTL → (t.expModed w).get f = t.get f := fun f h => by
    unfold State.expModed
    rw [State.get_set_ne _ _ h, State.get_set_ne _ _ h]
  have first : (t.expModed w).get64 A.LFT_EXP_FROM = t.get64 A.LFT_EXP_FROM := by
    unfold State.expModed
    rw [State.get64_congr _ (State.rd_set_ne _ _ (by decide)) (State.rd_set_ne _ _ (by decide)),
      State.get64_congr _ (State.rd_set_ne _ _ (by decide)) (State.rd_set_ne _ _ (by decide))]
  unfold State.expAsked
  rw [mode, qbits, other _ (by decide), other _ (by decide), first]

theorem execExportGo_starts {job : ExpJob} (may : s.permits pf A.LFT_EXP_CTL w none) (idle : s.flag F.LFT_STATUS.EXP_BUSY = false)
    (kick : bit w.toNat 8 = true) (asked : job = ⟨s.get F.LFT_EXP_REC.RECNO, fieldOf w 0 2, bit w.toNat 2, s.get64 A.LFT_EXP_FROM, s.get F.LFT_EXP_N.VALUE⟩)
    (good : s.exportReason job = 0) : ∃ t, execExportGo pf w s = .next t ∧ t.get F.LFT_EXP_CTL.STATE = 1 ∧ t.flag F.LFT_STATUS.EXP_BUSY = true ∧
      t.lft.exp = some job := by
  obtain ⟨u, hu⟩ : ∃ u, u = s.checked pf A.LFT_EXP_CTL w none := ⟨_, rfl⟩
  have free : u.flag F.LFT_STATUS.EXP_BUSY = false := by rw [hu, State.flag_checked _ _ _ _ _ (by decide) (by decide) (by decide), idle]
  have wants : (u.expModed w).expAsked = job := by
    rw [State.expAsked_moded, asked, hu, State.get_checked _ _ _ _ _ (by decide) (by decide) (by decide),
      State.get_checked _ _ _ _ _ (by decide) (by decide) (by decide),
      State.get64_checked _ _ _ _ _ (by decide) (by decide) (by decide) (by decide) (by decide) (by decide)]
  have passes : (u.expModed w).exportReason job = 0 := by
    rw [← good]
    refine State.exportReason_congr _ ?_ _
    unfold State.expModed
    rw [State.set_lft, State.set_lft, hu, State.checked_lft]
  have runs : execExportGo pf w s = .next (((u.expModed w).expLens.exporting job).dmaShow 1 1) := by
    unfold execExportGo
    rw [whenAllowed_acts s pf _ w _ may rfl, ← hu]
    refine congrArg Host.Outcome.next ((if_neg (by rw [free]; decide)).trans ((if_pos kick).trans ?_))
    refine (if_neg (not_not.mpr ?_)).trans ?_
    · exact (congrArg (State.exportReason _) wants).trans passes
    · rw [← wants]
      rfl
  obtain ⟨state, busy, exp⟩ := (u.expModed w).expLens.exporting_shows job
  refine ⟨_, runs, ?_, State.flag_of_one _ ?_, ?_⟩
  · rw [State.get_dmaShow_lft _ _ _ (by decide) (by decide), state]
  · rw [State.get_dmaShow_lft _ _ _ (by decide) (by decide), busy]
  · rw [State.dmaShow_lft, exp]

theorem execExportStop_stops (may : s.permits pf A.LFT_EXP_CTL w none) (busy : s.flag F.LFT_STATUS.EXP_BUSY = true) (kick : bit w.toNat 9 = true) :
    ∃ t, execExportStop pf w s = .next t ∧ t.get F.LFT_EXP_CTL.STATE = 3 ∧ t.get F.LFT_EXP_CTL.REASON = 6 ∧ t.flag F.LFT_STATUS.EXP_BUSY = false ∧
      t.lft.exp = none := by
  refine ⟨_, rfl, ?_⟩
  rw [whenAllowed_acts s pf _ w _ may rfl, if_pos ⟨kick, by rw [State.flag_checked _ _ _ _ _ (by decide) (by decide) (by decide)]; exact busy⟩]
  obtain ⟨u, hu⟩ : ∃ u : State, (s.checked pf A.LFT_EXP_CTL w none).exportBreak 6 = (u.exportEnd 3 6).dmaShow 1 0 := ⟨_, rfl⟩
  obtain ⟨state, reason, idle, none_, -⟩ := u.exportEnd_shows (st := 3) (why := 6) (by decide) (by decide)
  rw [hu]
  refine ⟨?_, ?_, State.flag_of_zero _ ?_, ?_⟩
  · rw [State.get_dmaShow_lft _ _ _ (by decide) (by decide), state]
  · rw [State.get_dmaShow_lft _ _ _ (by decide) (by decide), reason]
  · rw [State.get_dmaShow_lft _ _ _ (by decide) (by decide), idle]
  · rw [State.dmaShow_lft, none_]

theorem execExpDone_ends {j : ExpJob} (busy : s.flag F.LFT_STATUS.EXP_BUSY = true) (job : s.lft.exp = some j) (found : s.rec? j.recno = some d) :
    ∃ t, execExpDone s = .next t ∧ t.get F.LFT_EXP_CTL.STATE = 2 ∧ t.get F.LFT_EXP_CTL.REASON = 0 ∧ t.flag F.LFT_EVT.EXP_DONE = true ∧
      t.flag F.LFT_STATUS.EXP_BUSY = false := by
  have runs : s.expJob.isSome = true := by
    unfold State.expJob
    rw [job]
    show ((s.rec? j.recno).map _).isSome = true
    rw [found]
    rfl
  obtain ⟨state, reason, idle, -, done⟩ := (s.exportWrite none).exportEnd_shows (st := 2) (why := 0) (by decide) (by decide)
  have eq : execExpDone s = .next (((s.exportWrite none).exportEnd 2 0).dmaShow 1 2) := by
    unfold execExpDone
    rw [if_pos busy, if_pos runs]
  refine ⟨_, eq, ?_, ?_, ?_, State.flag_of_zero _ ?_⟩
  · rw [State.get_dmaShow_lft _ _ _ (by decide) (by decide), state]
  · rw [State.get_dmaShow_lft _ _ _ (by decide) (by decide), reason]
  · unfold State.flag
    rw [State.get_dmaShow_lft _ _ _ (by decide) (by decide)]
    exact done rfl
  · rw [State.get_dmaShow_lft _ _ _ (by decide) (by decide), idle]

end

/-- Settles O48, by the record that each action finds in the archive and the registers that each step of exports writes. -/
theorem archiveAndExport : Obligations.ArchiveAndExport := by
  unfold Obligations.ArchiveAndExport
  intro s pf u w d j
  refine ⟨execRecLoad_shows, fun may found => ⟨execRecProtect_protects may found, execRecUnprotect_unprotects may found, execRecDelete_deletes may found⟩,
    fun may kick => ⟨execHistClear_runs may kick, execHistClear_stopped may kick⟩, fun may idle kick good => execExportGo_starts may idle kick rfl good,
    execExportStop_stops, execExpDone_ends⟩

end Sys2Proof.Machine
end

section
/-!
PROOFS. The force table (R243, R244, R246).
-/
namespace Sys2Proof.Machine
open Sys2Proof

/-- A fold over a range of numbers of which only `n` can lead from `P` to `Q`. -/
theorem foldl_range_at {β : Type} {f : β → Nat → β} {P Q : β → Prop} {N n : Nat} {s : β} (inside : n < N) (start : P s)
    (before : ∀ u k, k ≠ n → P u → P (f u k)) (here : ∀ u, P u → Q (f u n)) (after : ∀ u k, k ≠ n → Q u → Q (f u k)) :
    Q ((List.range N).foldl f s) := by
  have both : (N ≤ n → P ((List.range N).foldl f s)) ∧ (n < N → Q ((List.range N).foldl f s)) := by
    clear inside
    induction N with
    | zero => exact ⟨fun _ => start, fun h => absurd h (Nat.not_lt_zero _)⟩
    | succ N ih =>
      obtain ⟨early, late⟩ := ih
      rw [List.range_succ, List.foldl_append, List.foldl_cons, List.foldl_nil]
      refine ⟨fun h => before _ _ (by omega) (early (by omega)), fun h => ?_⟩
      by_cases last : N = n
      · rw [last]
        exact here _ (last ▸ early (by omega))
      · exact after _ _ last (late (by omega))
  exact both.2 inside

section
variable (s : State) {n : Nat} {f : Field} {a : Nat}

theorem State.frcAt_setFrc_same (x : FrcSt) : (s.setFrc n x).frcAt n = x := kvGet_put_same _ _ _ _

theorem State.frcAt_setFrc_ne {k : Nat} (x : FrcSt) (h : n ≠ k) : (s.setFrc k x).frcAt n = s.frcAt n := kvGet_put_ne _ _ _ h

theorem State.frcAt_congr {t : State} (h : t.frc = s.frc) : t.frcAt n = s.frcAt n := by
  unfold State.frcAt
  rw [h]

theorem State.get_setFrc (x : FrcSt) : (s.setFrc n x).get f = s.get f := rfl

theorem State.get64_setFrc (x : FrcSt) : (s.setFrc n x).get64 a = s.get64 a := rfl

theorem State.forceBusy_congr {t : State} (h : t.rd (A.FRC_E_CTL n) = s.rd (A.FRC_E_CTL n)) : t.forceBusy n = s.forceBusy n := by
  unfold State.forceBusy
  rw [s.flag_of_get (f := F.FRC_E_CTL.ACTIVE n) (State.get_congr h), s.flag_of_get (f := F.FRC_E_CTL.PENDING n) (State.get_congr h)]

/-- An entry of which neither flag stands is idle. -/
theorem State.forceBusy_of_zero (active : s.get (F.FRC_E_CTL.ACTIVE n) = 0) (pending : s.get (F.FRC_E_CTL.PENDING n) = 0) :
    s.forceBusy n = false := by
  unfold State.forceBusy
  rw [State.flag_of_zero _ active, State.flag_of_zero _ pending]
  rfl

theorem State.symbol_congr {t : State} (h : t.tsk = s.tsk) (id : Nat) : t.symbol id = s.symbol id := by
  unfold State.symbol
  rw [h]

/-! ### TYPE of an entry -/

theorem State.forceType_idle (pf : Nat) (w : Word) (idle : s.forceBusy n = false) : s.forceType pf n w = s.set (F.FRC_E_CTL.TYPE n) (fieldOf w 0 4) := by
  unfold State.forceType
  dsimp only
  rw [if_neg (by rw [idle]; exact Bool.false_ne_true)]

theorem State.forceType_frc (pf : Nat) (w : Word) : (s.forceType pf n w).frc = s.frc := (State.forceType_kept (.refl 16777230 s) (.refl _)).parts .frc rfl

theorem State.forceType_six (pf : Nat) (w : Word) : (s.forceType pf n w).six = s.six :=
  congrArg Clk.six ((State.forceType_kept (.refl 16777230 s) (.refl _)).parts .clk rfl)

/-! ### An entry is armed -/

/-- The entry of a symbol as ARM leaves it. -/
def State.forceArmed (s : State) (n part kind : Nat) (x : FrcSt) : State :=
  ((((s.setFrc n x).set (F.FRC_E_CTL.PENDING n) 1).set (F.FRC_E_CTL.REASON n) 0).set (F.FRC_E_CTL.PART n) part).set (F.FRC_E_CTL.KIND n) kind

theorem State.forceArm_good {p : Partition} {y : Symbol} (found : s.symbol (s.get64 (A.FRC_E_SYM n)) = some (p, y))
    (good : armReason (s.get (F.FRC_E_CTL.TYPE n)) (some (p, y)) = 0) :
    s.forceArm n = s.forceArmed n p.part (forceKind y.target) { FrcSt.reset with bound := some y, armSix := s.six } := by
  unfold State.forceArm
  rw [found]
  dsimp only
  rw [good]
  rfl

theorem State.forceArmed_shows (part kind : Nat) (x : FrcSt) : (s.forceArmed n part kind x).flag (F.FRC_E_CTL.PENDING n) = true ∧
    (s.forceArmed n part kind x).get (F.FRC_E_CTL.REASON n) = 0 ∧ (s.forceArmed n part kind x).frcAt n = x := by
  unfold State.forceArmed
  refine ⟨State.flag_of_one _ ?_, ?_, ?_⟩
  · rw [State.get_set_apart _ _ (by simp [F.FRC_E_CTL.KIND]) (by simp [F.FRC_E_CTL.KIND, F.FRC_E_CTL.PENDING]),
      State.get_set_apart _ _ (by simp [F.FRC_E_CTL.PART]) (by simp [F.FRC_E_CTL.PART, F.FRC_E_CTL.PENDING]),
      State.get_set_apart _ _ (by simp [F.FRC_E_CTL.REASON]) (by simp [F.FRC_E_CTL.REASON, F.FRC_E_CTL.PENDING]),
      State.get_set_same _ _ _ (by simp [F.FRC_E_CTL.PENDING])]
    rfl
  · rw [State.get_set_apart _ _ (by simp [F.FRC_E_CTL.KIND]) (by simp [F.FRC_E_CTL.KIND, F.FRC_E_CTL.REASON]),
      State.get_set_apart _ _ (by simp [F.FRC_E_CTL.PART]) (by simp [F.FRC_E_CTL.PART, F.FRC_E_CTL.REASON]),
      State.get_set_same _ _ _ (by simp [F.FRC_E_CTL.REASON])]
    exact Nat.zero_mod _
  · rw [State.frcAt_congr (s.setFrc n x) (by rw [State.set_frc, State.set_frc, State.set_frc, State.set_frc]), State.frcAt_setFrc_same]

/-! ### A force takes effect and ends -/

theorem State.rd_noteForced (ws : List Nat) : (s.noteForced ws).rd a = s.rd a := by
  unfold State.noteForced
  refine foldl_keeps (fun u : State => u.rd a) (fun t w => ?_) _ _
  dsimp only
  split
  · rfl
  · rfl

theorem State.noteForced_frc (ws : List Nat) : (s.noteForced ws).frc = s.frc := (State.noteForced_kept (.refl 8192 s) (.refl _)).parts .frc rfl

theorem State.rd_forceCounts (h : a ≠ A.FRC_STATUS) : s.forceCounts.rd a = s.rd a := by
  have shaped : ∀ n m, ((s.set F.FRC_STATUS.ACTIVE_N n).set F.FRC_STATUS.PARTMASK m).rd a = s.rd a := fun n m => by
    rw [State.rd_set_ne _ _ h, State.rd_set_ne _ _ h]
  exact shaped _ _

theorem State.forceCounts_frc : s.forceCounts.frc = s.frc := (State.forceCounts_kept (.refl 2 s) (.refl _)).parts .frc rfl

theorem State.rd_uncleanAll (p : Nat) : (s.uncleanAll p).rd a = s.rd a := rfl

theorem State.uncleanAll_frc (p : Nat) : (s.uncleanAll p).frc = s.frc := rfl

theorem State.rd_forceEntry (m : String) (n : Nat) (h : a ≠ A.CEL_DROP) (g : a ≠ A.CEL_EVT) : (s.forceEntry m n).rd a = s.rd a :=
  s.rd_logNamed m _ h g

theorem State.forceEntry_frc (m : String) (n : Nat) : (s.forceEntry m n).frc = s.frc := State.logNamed_frc _ _ _

/-- The registers of an entry whose force is in effect. -/
def State.forceTaken (s : State) (n : Nat) (x : FrcSt) : State :=
  (((s.setFrc n x).set (F.FRC_E_CTL.ACTIVE n) 1).set (F.FRC_E_CTL.PENDING n) 0).set64 (A.FRC_E_SIX n) s.six

theorem State.forceTaken_shows (x : FrcSt) : (s.forceTaken n x).get (F.FRC_E_CTL.ACTIVE n) = 1 ∧ (s.forceTaken n x).get (F.FRC_E_CTL.PENDING n) = 0 ∧
    (s.forceTaken n x).get64 (A.FRC_E_SIX n) = s.six % 2 ^ 64 ∧ (s.forceTaken n x).frcAt n = x := by
  unfold State.forceTaken
  have low : A.FRC_E_CTL n ≠ A.FRC_E_SIX n := by simp only [A.FRC_E_CTL, A.FRC_E_SIX]; omega
  have high : A.FRC_E_CTL n ≠ A.FRC_E_SIX n + 4 := by simp only [A.FRC_E_CTL, A.FRC_E_SIX]; omega
  refine ⟨?_, ?_, State.get64_set64 _ _ _, ?_⟩
  · rw [State.get_set64_ne _ _ low high, State.get_set_apart _ _ (by simp [F.FRC_E_CTL.PENDING]) (by simp [F.FRC_E_CTL.PENDING, F.FRC_E_CTL.ACTIVE]),
      State.get_set_same _ _ _ (by simp [F.FRC_E_CTL.ACTIVE])]
    rfl
  · rw [State.get_set64_ne _ _ low high, State.get_set_same _ _ _ (by simp [F.FRC_E_CTL.PENDING])]
    exact Nat.zero_mod _
  · rw [State.frcAt_congr (s.setFrc n x) (by rw [State.set64_frc, State.set_frc, State.set_frc]), State.frcAt_setFrc_same]

/-- What follows once an entry's force is in effect: nothing of the entry. -/
def State.forceTold (s : State) (n p : Nat) (ws : List Nat) : State :=
  (((s.noteForced ws).forceCounts.uncleanAll p).raise F.FRC_EVT.SET).forceEntry "FRC_SET" n

theorem State.forceTold_frc (p : Nat) (ws : List Nat) : (s.forceTold n p ws).frc = s.frc := by
  unfold State.forceTold
  rw [State.forceEntry_frc, State.raise_frc, State.uncleanAll_frc, State.forceCounts_frc, State.noteForced_frc]

theorem State.rd_forceTold (p : Nat) (ws : List Nat) (low : A.FRC_E_SYM 0 ≤ a) (high : a < A.LFT_STATUS) : (s.forceTold n p ws).rd a = s.rd a := by
  simp only [A.FRC_E_SYM, A.LFT_STATUS] at low high
  unfold State.forceTold
  rw [State.rd_forceEntry _ _ _ (by simp only [A.CEL_DROP]; omega) (by simp only [A.CEL_EVT]; omega),
    State.rd_raise_ne _ (by simp only [F.FRC_EVT.SET, A.FRC_EVT]; omega), State.rd_uncleanAll,
    State.rd_forceCounts _ (by simp only [A.FRC_STATUS]; omega), State.rd_noteForced]

theorem State.forceTold_set (p : Nat) (ws : List Nat) : (s.forceTold n p ws).flag F.FRC_EVT.SET = true := by
  unfold State.forceTold
  obtain ⟨t, ht⟩ : ∃ t, t = (s.noteForced ws).forceCounts.uncleanAll p := ⟨_, rfl⟩
  rw [← ht, State.flag_of_get _ (State.get_congr (State.rd_forceEntry _ _ _ (by decide) (by decide)))]
  exact State.flag_raise _ _ (by decide) rfl

theorem State.forceOn_eq : ∃ p ws, s.forceOn n =
    (s.forceTaken n { s.frcAt n with val := s.get64 (A.FRC_E_VAL n), newVal := [] }).forceTold n p ws := ⟨_, _, rfl⟩

theorem State.rd_forceBlank_ne {k : Nat} (low : A.FRC_E_SYM 0 ≤ a) (other : (a - A.FRC_E_SYM 0) / 32 ≠ k) : (s.forceBlank k).rd a = s.rd a := by
  simp only [A.FRC_E_SYM] at low other
  have ctl : a ≠ A.FRC_E_CTL k := by simp only [A.FRC_E_CTL]; omega
  unfold State.forceBlank
  dsimp only
  rw [State.rd_set_ne _ _ ctl, State.rd_set_ne _ _ ctl, State.rd_set_ne _ _ ctl,
    State.rd_set64_ne _ _ (by simp only [A.FRC_E_SIX]; omega) (by simp only [A.FRC_E_SIX]; omega),
    State.rd_set64_ne _ _ (by simp only [A.FRC_E_VAL]; omega) (by simp only [A.FRC_E_VAL]; omega),
    State.rd_set64_ne _ _ (by simp only [A.FRC_E_SYM]; omega) (by simp only [A.FRC_E_SYM]; omega)]

theorem State.forceBlank_frc (k : Nat) : (s.forceBlank k).frc = s.frc := (State.forceBlank_kept (.refl 2 s) (.refl _)).parts .frc rfl

theorem State.forceBlank_six (k : Nat) : (s.forceBlank k).six = s.six := congrArg Clk.six ((State.forceBlank_kept (.refl 2 s) (.refl _)).parts .clk rfl)

theorem State.forceBlank_shows : (s.forceBlank n).get64 (A.FRC_E_SYM n) = 0 ∧ (s.forceBlank n).get64 (A.FRC_E_VAL n) = 0 := by
  unfold State.forceBlank
  dsimp only
  have sym : A.FRC_E_SYM n ≠ A.FRC_E_CTL n ∧ A.FRC_E_SYM n + 4 ≠ A.FRC_E_CTL n := by simp only [A.FRC_E_SYM, A.FRC_E_CTL]; omega
  have val : A.FRC_E_VAL n ≠ A.FRC_E_CTL n ∧ A.FRC_E_VAL n + 4 ≠ A.FRC_E_CTL n := by simp only [A.FRC_E_VAL, A.FRC_E_CTL]; omega
  refine ⟨?_, ?_⟩
  · rw [State.get64_set_ne _ _ _ sym.1 sym.2, State.get64_set_ne _ _ _ sym.1 sym.2, State.get64_set_ne _ _ _ sym.1 sym.2,
      State.get64_set64_ne _ _ (by simp only [A.FRC_E_SYM, A.FRC_E_SIX]; omega) (by simp only [A.FRC_E_SYM, A.FRC_E_SIX]; omega)
        (by simp only [A.FRC_E_SYM, A.FRC_E_SIX]; omega),
      State.get64_set64_ne _ _ (by simp only [A.FRC_E_SYM, A.FRC_E_VAL]; omega) (by simp only [A.FRC_E_SYM, A.FRC_E_VAL]; omega)
        (by simp only [A.FRC_E_SYM, A.FRC_E_VAL]; omega), State.get64_set64]
    rfl
  · rw [State.get64_set_ne _ _ _ val.1 val.2, State.get64_set_ne _ _ _ val.1 val.2, State.get64_set_ne _ _ _ val.1 val.2,
      State.get64_set64_ne _ _ (by simp only [A.FRC_E_VAL, A.FRC_E_SIX]; omega) (by simp only [A.FRC_E_VAL, A.FRC_E_SIX]; omega)
        (by simp only [A.FRC_E_VAL, A.FRC_E_SIX]; omega), State.get64_set64]
    rfl

/-- The word of an entry's state that a blank entry keeps: only REASON, ACTIVE and PENDING stand. -/
theorem State.get_forceBlank_ctl (lo width : Nat) (apart : (4 ≤ lo ∧ lo + width ≤ 18) ∨ 24 ≤ lo) :
    (s.forceBlank n).get ⟨A.FRC_E_CTL n, lo, width⟩ = s.get ⟨A.FRC_E_CTL n, lo, width⟩ := by
  unfold State.forceBlank
  dsimp only
  rw [State.get_set_apart _ _ (by simp [F.FRC_E_CTL.KIND]) (by simp only [F.FRC_E_CTL.KIND]; omega),
    State.get_set_apart _ _ (by simp [F.FRC_E_CTL.PART]) (by simp only [F.FRC_E_CTL.PART]; omega),
    State.get_set_apart _ _ (by simp [F.FRC_E_CTL.TYPE]) (by simp only [F.FRC_E_CTL.TYPE]; omega),
    State.get_set64_ne _ _ (by simp only [A.FRC_E_CTL, A.FRC_E_SIX]; omega) (by simp only [A.FRC_E_CTL, A.FRC_E_SIX]; omega),
    State.get_set64_ne _ _ (by simp only [A.FRC_E_CTL, A.FRC_E_VAL]; omega) (by simp only [A.FRC_E_CTL, A.FRC_E_VAL]; omega),
    State.get_set64_ne _ _ (by simp only [A.FRC_E_CTL, A.FRC_E_SYM]; omega) (by simp only [A.FRC_E_CTL, A.FRC_E_SYM]; omega)]

/-- The entry whose force ends, before what its end tells. -/
def State.forceIdle (s : State) (n : Nat) : State :=
  ((s.setFrc n FrcSt.reset).set (F.FRC_E_CTL.ACTIVE n) 0).set (F.FRC_E_CTL.PENDING n) 0

theorem State.forceIdle_shows : (s.forceIdle n).get (F.FRC_E_CTL.ACTIVE n) = 0 ∧ (s.forceIdle n).get (F.FRC_E_CTL.PENDING n) = 0 ∧
    (s.forceIdle n).frcAt n = FrcSt.reset := by
  unfold State.forceIdle
  refine ⟨?_, ?_, ?_⟩
  · rw [State.get_set_apart _ _ (by simp [F.FRC_E_CTL.PENDING]) (by simp [F.FRC_E_CTL.PENDING, F.FRC_E_CTL.ACTIVE]),
      State.get_set_same _ _ _ (by simp [F.FRC_E_CTL.ACTIVE])]
    exact Nat.zero_mod _
  · rw [State.get_set_same _ _ _ (by simp [F.FRC_E_CTL.PENDING])]
    exact Nat.zero_mod _
  · rw [State.frcAt_congr (s.setFrc n FrcSt.reset) (by rw [State.set_frc, State.set_frc]), State.frcAt_setFrc_same]

/-- What the end of an active force tells. -/
def State.forceGone (s : State) (n : Nat) : State := (s.forceCounts.raise F.FRC_EVT.CLEARED).forceEntry "FRC_CLEARED" n

theorem State.rd_forceGone (low : A.FRC_E_SYM 0 ≤ a) (high : a < A.LFT_STATUS) : (s.forceGone n).rd a = s.rd a := by
  simp only [A.FRC_E_SYM, A.LFT_STATUS] at low high
  unfold State.forceGone
  rw [State.rd_forceEntry _ _ _ (by simp only [A.CEL_DROP]; omega) (by simp only [A.CEL_EVT]; omega),
    State.rd_raise_ne _ (by simp only [F.FRC_EVT.CLEARED, A.FRC_EVT]; omega), State.rd_forceCounts _ (by simp only [A.FRC_STATUS]; omega)]

theorem State.forceGone_frc : (s.forceGone n).frc = s.frc := by
  unfold State.forceGone
  rw [State.forceEntry_frc, State.raise_frc, State.forceCounts_frc]

theorem State.forceGone_cleared : (s.forceGone n).flag F.FRC_EVT.CLEARED = true := by
  unfold State.forceGone
  rw [State.flag_of_get _ (State.get_congr (State.rd_forceEntry _ _ _ (by decide) (by decide)))]
  exact State.flag_raise _ _ (by decide) rfl

/-- The last steps of the end of a force: its REASON, what an active one tells, and the blank entry. -/
def State.forceReasoned (s : State) (n reason : Nat) : State := if reason = 0 then s else s.set (F.FRC_E_CTL.REASON n) reason
def State.forceGoneIf (s : State) (n : Nat) (was : Bool) : State := if was then s.forceGone n else s
def State.forceBlankIf (s : State) (n reason : Nat) : State := if reason = 6 then s.forceBlank n else s

theorem State.forceOff_eq (reason : Nat) : ∃ ws, s.forceOff n reason =
    ((((s.forceIdle n).noteForced ws).forceReasoned n reason).forceGoneIf n (s.flag (F.FRC_E_CTL.ACTIVE n))).forceBlankIf n reason := ⟨_, rfl⟩

/-- An idle entry, with the event of a force that was active. -/
def State.forceEnded (s : State) (n : Nat) (was : Bool) : Prop :=
  s.frcAt n = FrcSt.reset ∧ s.get (F.FRC_E_CTL.ACTIVE n) = 0 ∧ s.get (F.FRC_E_CTL.PENDING n) = 0 ∧ (was = true → s.flag F.FRC_EVT.CLEARED = true)

theorem State.forceEnded_idle (ws : List Nat) : ((s.forceIdle n).noteForced ws).forceEnded n false := by
  obtain ⟨active, pending, entry⟩ := s.forceIdle_shows (n := n)
  exact ⟨by rw [State.frcAt_congr _ (State.noteForced_frc _ _), entry], by rw [State.get_congr (State.rd_noteForced _ _), active],
    by rw [State.get_congr (State.rd_noteForced _ _), pending], fun h => absurd h Bool.false_ne_true⟩

theorem State.forceEnded_reason {reason : Nat} (h : s.forceEnded n false) : (s.set (F.FRC_E_CTL.REASON n) reason).forceEnded n false := by
  obtain ⟨entry, active, pending, -⟩ := h
  refine ⟨by rw [State.frcAt_congr _ (State.set_frc _ _ _), entry], ?_, ?_, fun h => absurd h Bool.false_ne_true⟩
  · rw [State.get_set_apart _ _ (by simp [F.FRC_E_CTL.REASON]) (by simp [F.FRC_E_CTL.REASON, F.FRC_E_CTL.ACTIVE]), active]
  · rw [State.get_set_apart _ _ (by simp [F.FRC_E_CTL.REASON]) (by simp [F.FRC_E_CTL.REASON, F.FRC_E_CTL.PENDING]), pending]

theorem State.forceEnded_gone (few : n < 256) (h : s.forceEnded n false) : (s.forceGone n).forceEnded n true := by
  obtain ⟨entry, active, pending, -⟩ := h
  have ctl : (s.forceGone n).rd (A.FRC_E_CTL n) = s.rd (A.FRC_E_CTL n) :=
    State.rd_forceGone _ (by simp only [A.FRC_E_SYM, A.FRC_E_CTL]; omega) (by simp only [A.LFT_STATUS, A.FRC_E_CTL]; omega)
  exact ⟨by rw [State.frcAt_congr _ (State.forceGone_frc _), entry], by rw [State.get_congr (f := F.FRC_E_CTL.ACTIVE n) ctl, active],
    by rw [State.get_congr (f := F.FRC_E_CTL.PENDING n) ctl, pending], fun _ => State.forceGone_cleared _⟩

theorem State.forceEnded_blank {was : Bool} (h : s.forceEnded n was) : (s.forceBlank n).forceEnded n was := by
  obtain ⟨entry, active, pending, cleared⟩ := h
  have evt : (s.forceBlank n).rd A.FRC_EVT = s.rd A.FRC_EVT := by
    have apart : ∀ b, A.FRC_E_SYM 0 ≤ b → A.FRC_EVT ≠ b := fun b h => by simp only [A.FRC_E_SYM, A.FRC_EVT] at h ⊢; omega
    have ctl : A.FRC_EVT ≠ A.FRC_E_CTL n := apart _ (by simp only [A.FRC_E_SYM, A.FRC_E_CTL]; omega)
    unfold State.forceBlank
    dsimp only
    rw [State.rd_set_ne _ _ ctl, State.rd_set_ne _ _ ctl, State.rd_set_ne _ _ ctl,
      State.rd_set64_ne _ _ (apart _ (by simp only [A.FRC_E_SYM, A.FRC_E_SIX]; omega)) (apart _ (by simp only [A.FRC_E_SYM, A.FRC_E_SIX]; omega)),
      State.rd_set64_ne _ _ (apart _ (by simp only [A.FRC_E_SYM, A.FRC_E_VAL]; omega)) (apart _ (by simp only [A.FRC_E_SYM, A.FRC_E_VAL]; omega)),
      State.rd_set64_ne _ _ (apart _ (by simp only [A.FRC_E_SYM]; omega)) (apart _ (by simp only [A.FRC_E_SYM]; omega))]
  refine ⟨by rw [State.frcAt_congr _ (State.forceBlank_frc _ _), entry], ?_, ?_, fun was => ?_⟩
  · exact (s.get_forceBlank_ctl 16 1 (.inl ⟨by decide, by decide⟩)).trans active
  · exact (s.get_forceBlank_ctl 17 1 (.inl ⟨by decide, by decide⟩)).trans pending
  · rw [s.flag_of_get (f := F.FRC_EVT.CLEARED) (State.get_congr evt), cleared was]

theorem State.forceEnded_reasoned {reason : Nat} (h : s.forceEnded n false) : (s.forceReasoned n reason).forceEnded n false := by
  unfold State.forceReasoned
  split
  · exact h
  · exact s.forceEnded_reason h

theorem State.forceEnded_goneIf (few : n < 256) (was : Bool) (h : s.forceEnded n false) : (s.forceGoneIf n was).forceEnded n was := by
  unfold State.forceGoneIf
  cases was
  · rw [if_neg Bool.false_ne_true]
    exact h
  · rw [if_pos rfl]
    exact s.forceEnded_gone few h

theorem State.forceEnded_blankIf {reason : Nat} {was : Bool} (h : s.forceEnded n was) : (s.forceBlankIf n reason).forceEnded n was := by
  unfold State.forceBlankIf
  split
  · exact s.forceEnded_blank h
  · exact h

theorem State.forceOff_ends (few : n < 256) (reason : Nat) : (s.forceOff n reason).forceEnded n (s.flag (F.FRC_E_CTL.ACTIVE n)) := by
  obtain ⟨ws, eq⟩ := s.forceOff_eq (n := n) reason
  rw [eq]
  exact State.forceEnded_blankIf _ (State.forceEnded_goneIf _ few _ (State.forceEnded_reasoned _ (s.forceEnded_idle ws)))

/-! ### Every entry is cleared -/

/-- FRC_CLEAR_ALL at one entry. -/
def State.clearEntry (u : State) (n : Nat) : State :=
  if u.forceBusy n then u.setFrc n { u.frcAt n with endSix := some ((u.frcAt n).endSix.getD u.six), cleared := true } else u.forceBlank n

/-- Clearing one entry leaves the others. -/
theorem State.clearEntry_other {k : Nat} (other : k ≠ n) : (s.clearEntry k).frcAt n = s.frcAt n ∧ (s.clearEntry k).six = s.six ∧
    ∀ b, A.FRC_E_SYM n ≤ b → b < A.FRC_E_SYM (n + 1) → (s.clearEntry k).rd b = s.rd b := by
  unfold State.clearEntry
  split
  · exact ⟨State.frcAt_setFrc_ne _ _ (Ne.symm other), rfl, fun _ _ _ => rfl⟩
  · refine ⟨State.frcAt_congr _ (State.forceBlank_frc _ _), State.forceBlank_six _ _, fun b low high => State.rd_forceBlank_ne _ ?_ ?_⟩
    · simp only [A.FRC_E_SYM] at low ⊢; omega
    · simp only [A.FRC_E_SYM] at low high ⊢; omega

theorem State.clearAll_busy {N : Nat} (few : n < N) (busy : s.forceBusy n = true) :
    ((List.range N).foldl State.clearEntry s).frcAt n = { s.frcAt n with endSix := some ((s.frcAt n).endSix.getD s.six), cleared := true } := by
  refine foldl_range_at (P := fun u : State => u.forceBusy n = true ∧ u.frcAt n = s.frcAt n ∧ u.six = s.six)
    (Q := fun u : State => u.frcAt n = { s.frcAt n with endSix := some ((s.frcAt n).endSix.getD s.six), cleared := true }) few ⟨busy, rfl, rfl⟩ (fun u k other holds => ?_)
    (fun u holds => ?_) (fun u k other holds => ?_)
  · obtain ⟨entry, six, regs⟩ := u.clearEntry_other other
    obtain ⟨on, same, now⟩ := holds
    refine ⟨?_, entry.trans same, six.trans now⟩
    rw [u.forceBusy_congr (regs _ (by simp only [A.FRC_E_SYM, A.FRC_E_CTL]; omega) (by simp only [A.FRC_E_SYM, A.FRC_E_CTL]; omega)), on]
  · obtain ⟨on, same, now⟩ := holds
    unfold State.clearEntry
    rw [if_pos on, State.frcAt_setFrc_same, same, now]
  · exact (u.clearEntry_other other).1.trans holds

theorem State.clearAll_idle {N : Nat} (few : n < N) (idle : s.forceBusy n = false) :
    ((List.range N).foldl State.clearEntry s).get64 (A.FRC_E_SYM n) = 0 ∧ ((List.range N).foldl State.clearEntry s).get64 (A.FRC_E_VAL n) = 0 := by
  refine foldl_range_at (P := fun u : State => u.forceBusy n = false) (Q := fun u : State => u.get64 (A.FRC_E_SYM n) = 0 ∧ u.get64 (A.FRC_E_VAL n) = 0)
    few idle (fun u k other holds => ?_) (fun u holds => ?_) (fun u k other holds => ?_)
  · obtain ⟨-, -, regs⟩ := u.clearEntry_other other
    rw [u.forceBusy_congr (regs _ (by simp only [A.FRC_E_SYM, A.FRC_E_CTL]; omega) (by simp only [A.FRC_E_SYM, A.FRC_E_CTL]; omega)), holds]
  · unfold State.clearEntry
    rw [if_neg (by rw [holds]; exact Bool.false_ne_true)]
    exact u.forceBlank_shows
  · obtain ⟨-, -, regs⟩ := u.clearEntry_other other
    rw [u.get64_congr (regs _ (by omega) (by simp only [A.FRC_E_SYM]; omega)) (regs _ (by simp only [A.FRC_E_SYM]; omega) (by simp only [A.FRC_E_SYM]; omega)),
      u.get64_congr (regs _ (by simp only [A.FRC_E_SYM, A.FRC_E_VAL]; omega) (by simp only [A.FRC_E_SYM, A.FRC_E_VAL]; omega))
        (regs _ (by simp only [A.FRC_E_SYM, A.FRC_E_VAL]; omega) (by simp only [A.FRC_E_SYM, A.FRC_E_VAL]; omega))]
    exact holds

/-! ### The commands -/

variable {s} {pf : Fin 2} {w : Word} {e : Fin 256}

/-- The words of the force table behind the access check. -/
theorem State.rd_checked_frc (reg : Nat) (right : Option Nat) (low : A.FRC_E_SYM 0 ≤ a) (high : a < A.LFT_STATUS) : (s.checked pf reg w right).rd a = s.rd a := by
  simp only [A.FRC_E_SYM, A.LFT_STATUS] at low high
  exact State.rd_checked _ _ _ _ _ (by simp only [A.ENG_EVT]; omega) (by simp only [A.CEL_DROP]; omega) (by simp only [A.CEL_EVT]; omega)

theorem State.forceBusy_checked (reg : Nat) (right : Option Nat) : (s.checked pf reg w right).forceBusy e = s.forceBusy e := by
  have few := e.isLt
  exact s.forceBusy_congr (State.rd_checked_frc _ _ (by simp only [A.FRC_E_SYM, A.FRC_E_CTL]; omega) (by simp only [A.LFT_STATUS, A.FRC_E_CTL]; omega))

theorem execForceArm_arms {p : Partition} {y : Symbol} (may : s.permits pf (A.FRC_E_CTL e) w (some 1)) (idle : s.forceBusy e = false) (kick : bit w.toNat 8 = true)
    (found : s.symbol (s.get64 (A.FRC_E_SYM e)) = some (p, y)) (good : armReason (fieldOf w 0 4) (some (p, y)) = 0) :
    ∃ t, execForceArm pf e w s = .next t ∧ t.flag (F.FRC_E_CTL.PENDING e) = true ∧ t.get (F.FRC_E_CTL.REASON e) = 0 ∧
      t.frcAt e = { FrcSt.reset with bound := some y, armSix := s.six } := by
  have few := e.isLt
  obtain ⟨u, hu⟩ : ∃ u, u = s.checked pf (A.FRC_E_CTL e) w (some 1) := ⟨_, rfl⟩
  have free : u.forceBusy e = false := by rw [hu, State.forceBusy_checked, idle]
  obtain ⟨v, hv⟩ : ∃ v, v = u.set (F.FRC_E_CTL.TYPE e) (fieldOf w 0 4) := ⟨_, rfl⟩
  have typ : v.get (F.FRC_E_CTL.TYPE e) = fieldOf w 0 4 := by
    rw [hv, State.get_set_same _ _ _ (by simp [F.FRC_E_CTL.TYPE])]
    exact Nat.mod_eq_of_lt (fieldOf_lt _ _ _)
  have sym : v.get64 (A.FRC_E_SYM e) = s.get64 (A.FRC_E_SYM e) := by
    rw [hv, State.get64_set_ne _ _ _ (by simp only [F.FRC_E_CTL.TYPE, A.FRC_E_SYM, A.FRC_E_CTL]; omega)
      (by simp only [F.FRC_E_CTL.TYPE, A.FRC_E_SYM, A.FRC_E_CTL]; omega), hu]
    exact s.get64_congr (State.rd_checked_frc _ _ (by simp only [A.FRC_E_SYM]; omega) (by simp only [A.LFT_STATUS, A.FRC_E_SYM]; omega))
      (State.rd_checked_frc _ _ (by simp only [A.FRC_E_SYM]; omega) (by simp only [A.LFT_STATUS, A.FRC_E_SYM]; omega))
  have same : v.symbol (v.get64 (A.FRC_E_SYM e)) = some (p, y) := by
    rw [sym, s.symbol_congr (by rw [hv, State.set_tsk, hu, State.checked_tsk]), found]
  have six : v.six = s.six := by
    rw [hv, hu]
    exact s.checked_six pf _ w _
  have runs : execForceArm pf e w s = .next (v.forceArmed e p.part (forceKind y.target) { FrcSt.reset with bound := some y, armSix := s.six }) := by
    unfold execForceArm
    rw [show needsChange = some 1 from rfl, whenAllowed_acts s pf _ w _ may rfl, ← hu]
    dsimp only
    rw [u.forceType_idle pf w free, ← hv, free, kick, show (true && !false) = true from rfl, if_pos rfl, v.forceArm_good same (by rw [typ]; exact good), six]
  exact ⟨_, runs, State.forceArmed_shows _ _ _ _⟩

theorem execForceDisarm_disarms (may : s.permits pf (A.FRC_E_CTL e) w (some 1)) (busy : s.forceBusy e = true) (kick : bit w.toNat 9 = true)
    (first : (s.frcAt e).endSix = none) : ∃ t, execForceDisarm pf e w s = .next t ∧ t.frcAt e = { s.frcAt e with endSix := some s.six } := by
  obtain ⟨u, hu⟩ : ∃ u, u = s.checked pf (A.FRC_E_CTL e) w (some 1) := ⟨_, rfl⟩
  have on : u.forceBusy e = true := by rw [hu, State.forceBusy_checked, busy]
  obtain ⟨v, hv⟩ : ∃ v, v = u.forceType pf e w := ⟨_, rfl⟩
  have entry : v.frcAt e = s.frcAt e := s.frcAt_congr (by rw [hv, State.forceType_frc, hu, State.checked_frc])
  have six : v.six = s.six := by rw [hv, State.forceType_six, hu, State.checked_six]
  have runs : execForceDisarm pf e w s = .next (v.setFrc e { s.frcAt e with endSix := some s.six }) := by
    unfold execForceDisarm
    rw [show needsChange = some 1 from rfl, whenAllowed_acts s pf _ w _ may rfl, ← hu]
    dsimp only
    rw [← hv, on, kick, entry, first, six]
    rfl
  exact ⟨_, runs, State.frcAt_setFrc_same _ _⟩

theorem State.commit64_tagged {q b : Nat} (waits : (s.fn q).wrTag = some b) :
    s.commit64 q b w = ((s.fn q).wrLow.toNat + 2 ^ 32 * w.toNat, s.setFn q { s.fn q with wrTag := none }) := if_pos waits

theorem execForceValueWrite_commits (may : s.permits pf (A.FRC_E_VAL e + 4) w (some 1)) (waits : (s.fn pf).wrTag = some (A.FRC_E_VAL e)) :
    ∃ t, execForceValueWrite pf e w s = .next t ∧ t.get64 (A.FRC_E_VAL e) = (s.fn pf).wrLow.toNat + 2 ^ 32 * w.toNat ∧
      (s.flag (F.FRC_E_CTL.ACTIVE e) = true → (t.frcAt e).newVal = ((s.fn pf).wrLow.toNat + 2 ^ 32 * w.toNat, s.six) :: (s.frcAt e).newVal) := by
  have few := e.isLt
  obtain ⟨u, hu⟩ : ∃ u, u = s.checked pf (A.FRC_E_VAL e + 4) w (some 1) := ⟨_, rfl⟩
  have kept : u.tags pf = s.tags pf := by rw [hu]; exact s.tags_checked _ _ _ _ _
  obtain ⟨x, hx⟩ : ∃ x, x = (s.fn pf).wrLow.toNat + 2 ^ 32 * w.toNat := ⟨_, rfl⟩
  have small : x < 2 ^ 64 := by have := (s.fn pf).wrLow.isLt; have := w.isLt; omega
  obtain ⟨v, hv⟩ : ∃ v, v = (u.setFn pf { u.fn pf with wrTag := none }).set64 (A.FRC_E_VAL e) x := ⟨_, rfl⟩
  have runs : execForceValueWrite pf e w s =
      .next (if v.flag (F.FRC_E_CTL.ACTIVE e) then v.setFrc e { v.frcAt e with newVal := (x, v.six) :: (v.frcAt e).newVal } else v) := by
    unfold execForceValueWrite
    rw [show needsChange = some 1 from rfl, whenAllowed_acts s pf _ w _ may rfl, ← hu]
    dsimp only
    rw [State.commit64_tagged ((s.wrTag_of_tags pf kept).trans waits), s.wrLow_of_tags pf kept, ← hx]
    rw [hv]
    rfl
  have value : v.get64 (A.FRC_E_VAL e) = x := by
    rw [hv, State.get64_set64]
    exact Nat.mod_eq_of_lt small
  have active : v.flag (F.FRC_E_CTL.ACTIVE e) = s.flag (F.FRC_E_CTL.ACTIVE e) := by
    refine s.flag_of_get (State.get_congr ?_)
    rw [hv, State.rd_set64_ne _ _ (by simp only [F.FRC_E_CTL.ACTIVE, A.FRC_E_CTL, A.FRC_E_VAL]; omega)
      (by simp only [F.FRC_E_CTL.ACTIVE, A.FRC_E_CTL, A.FRC_E_VAL]; omega), State.rd_congr (State.setFn_regs _ _ _), hu]
    exact State.rd_checked_frc _ _ (by simp only [A.FRC_E_SYM, F.FRC_E_CTL.ACTIVE, A.FRC_E_CTL]; omega)
      (by simp only [A.LFT_STATUS, F.FRC_E_CTL.ACTIVE, A.FRC_E_CTL]; omega)
  have entry : v.frcAt e = s.frcAt e := s.frcAt_congr (by rw [hv, State.set64_frc, State.setFn_frc, hu, State.checked_frc])
  have six : v.six = s.six := by
    rw [hv, hu]
    exact s.checked_six pf _ w _
  refine ⟨_, runs, ?_, fun on => ?_⟩
  · rw [← hx]
    split
    · rw [State.get64_setFrc, value]
    · exact value
  · rw [if_pos (active.trans on), State.frcAt_setFrc_same, entry, six, ← hx]

theorem execForceActivate_acts (due : s.forceSix e = true) (pending : s.flag (F.FRC_E_CTL.PENDING e) = true) (stays : (s.frcAt e).endSix = none)
    (late : (s.frcAt e).armSix + 20 ≤ s.six) : ∃ t, execForceActivate e s = .next t ∧ t.flag (F.FRC_E_CTL.ACTIVE e) = true ∧
      t.flag (F.FRC_E_CTL.PENDING e) = false ∧ t.get64 (A.FRC_E_SIX e) = s.six % 2 ^ 64 ∧ (t.frcAt e).val = s.get64 (A.FRC_E_VAL e) ∧
      t.flag F.FRC_EVT.SET = true := by
  have few := e.isLt
  obtain ⟨p, ws, eq⟩ := s.forceOn_eq (n := e)
  have runs : execForceActivate e s = .next (s.forceOn e) := by
    unfold execForceActivate State.forceTurn
    dsimp only
    rw [due, pending, stays]
    refine (if_pos rfl).trans (congrArg Host.Outcome.next ((if_neg (by simp)).trans ((if_pos rfl).trans (if_pos late))))
  obtain ⟨x, hx⟩ : ∃ x, x = { s.frcAt e with val := s.get64 (A.FRC_E_VAL e), newVal := [] } := ⟨_, rfl⟩
  obtain ⟨active, idle, six, entry⟩ := s.forceTaken_shows (n := e) x
  rw [eq, ← hx] at runs
  obtain ⟨u, hu⟩ : ∃ u, u = s.forceTaken e x := ⟨_, rfl⟩
  rw [← hu] at runs active idle six entry
  have ctl : (u.forceTold e p ws).rd (A.FRC_E_CTL e) = u.rd (A.FRC_E_CTL e) :=
    State.rd_forceTold _ _ _ (by simp only [A.FRC_E_SYM, A.FRC_E_CTL]; omega) (by simp only [A.LFT_STATUS, A.FRC_E_CTL]; omega)
  refine ⟨_, runs, State.flag_of_one _ ?_, State.flag_of_zero _ ?_, ?_, ?_, State.forceTold_set _ _ _⟩
  · rw [State.get_congr (f := F.FRC_E_CTL.ACTIVE e) ctl, active]
  · rw [State.get_congr (f := F.FRC_E_CTL.PENDING e) ctl, idle]
  · rw [u.get64_congr (State.rd_forceTold _ _ _ (by simp only [A.FRC_E_SYM, A.FRC_E_SIX]; omega) (by simp only [A.LFT_STATUS, A.FRC_E_SIX]; omega))
      (State.rd_forceTold _ _ _ (by simp only [A.FRC_E_SYM, A.FRC_E_SIX]; omega) (by simp only [A.LFT_STATUS, A.FRC_E_SIX]; omega)), six]
  · rw [State.frcAt_congr _ (State.forceTold_frc _ _ _), entry, hx]

theorem execForceEnd_ends {k : Nat} (due : s.forceSix e = true) (asked : (s.frcAt e).endSix = some k) (late : k + 20 ≤ s.six) :
    ∃ t, execForceEnd e s = .next t ∧ t.frcAt e = FrcSt.reset ∧ t.forceBusy e = false ∧
      (s.flag (F.FRC_E_CTL.ACTIVE e) = true → t.flag F.FRC_EVT.CLEARED = true) := by
  have over_ : (s.frcAt e).endSix.any (fun d => d + forceDelay ≤ s.six) = true := by
    rw [asked]
    exact decide_eq_true late
  have runs : execForceEnd e s = .next (s.forceOff e (if (s.frcAt e).cleared then 6 else 0)) := by
    unfold execForceEnd State.forceTurn
    dsimp only
    rw [due, over_]
    rfl
  obtain ⟨entry, active, pending, cleared⟩ := s.forceOff_ends (n := e) e.isLt (if (s.frcAt e).cleared then 6 else 0)
  exact ⟨_, runs, entry, State.forceBusy_of_zero _ active pending, cleared⟩

theorem execFrcClearAll_clears (may : s.permits pf A.FRC_CLEAR_ALL w (some 1)) (kick : bit w.toNat 0 = true) :
    ∃ t, execFrcClearAll pf w s = .next t ∧
      (s.forceBusy e = true → (t.frcAt e).endSix = some ((s.frcAt e).endSix.getD s.six) ∧ (t.frcAt e).cleared = true) ∧
      (s.forceBusy e = false → t.get64 (A.FRC_E_SYM e) = 0 ∧ t.get64 (A.FRC_E_VAL e) = 0) := by
  obtain ⟨u, hu⟩ : ∃ u, u = s.checked pf A.FRC_CLEAR_ALL w (some 1) := ⟨_, rfl⟩
  have same : u.forceBusy e = s.forceBusy e := by rw [hu, State.forceBusy_checked]
  have runs : execFrcClearAll pf w s = .next ((List.range 256).foldl State.clearEntry u) := by
    unfold execFrcClearAll
    rw [show needsChange = some 1 from rfl, whenAllowed_acts s pf _ w _ may rfl, ← hu, if_pos kick]
    rfl
  refine ⟨_, runs, fun busy => ?_, fun idle => u.clearAll_idle e.isLt (same.trans idle)⟩
  rw [u.clearAll_busy e.isLt (same.trans busy)]
  have entry : u.frcAt e = s.frcAt e := s.frcAt_congr (by rw [hu, State.checked_frc])
  refine ⟨?_, rfl⟩
  rw [entry, hu, State.checked_six]

end

/-- Settles O44, by what each kick leaves of the entry that it names and of its register. -/
theorem forcesFollowTheirEntry : Obligations.ForcesFollowTheirEntry := by
  unfold Obligations.ForcesFollowTheirEntry
  intro s pf w n p y k
  exact ⟨execForceArm_arms, execForceDisarm_disarms, execForceValueWrite_commits, execForceActivate_acts, execForceEnd_ends, execFrcClearAll_clears⟩

end Sys2Proof.Machine
end

section
/-!
PROOFS. The Cellar (R294 to R297), at an instant of SUPPRESSED at which the queue is full.
-/
namespace Sys2Proof.Machine
open Sys2Proof

/-- An event that waits in the queue. -/
def waitingEvent : Raised := { code := .num 0x681, sev := 3, six := none, data := [], program := false, test := false, rtcNs := 0, snap2 := none }

/-- At SIX 0 one event of code 1 has been suppressed, nothing was dropped since the previous instant, and 1024 entries fill the queue. -/
def fullQueueState : State :=
  { State.reset with
    clk := { State.reset.clk with running := true }
    cel := { State.reset.cel with queue := List.replicate 1024 waitingEvent, buckets := [(1, { Bucket.full with supp := 1 })], suppSix := none } }

/-- The state meets what the statement asks of an instant of SUPPRESSED. -/
theorem fullQueueState_due : fullQueueState.clk.running = true ∧ fullQueueState.six % 20000000 = 0 ∧ fullQueueState.cel.suppSix ≠ some fullQueueState.six ∧
    fullQueueState.suppCodes = [(1, 1)] ∧ fullQueueState.cel.fullSince = 0 ∧ fullQueueState.cel.queueSince = 0 := by
  decide +kernel

/-- The state that the statement names: the code counts from 0, and SUPPRESSED is in the queue. -/
def State.listedOnce (s : State) (c n : Nat) : State :=
  (({ s with cel := { s.cel with suppSix := some s.six } } : State).setBucket c { s.bucket c with supp := 0 }).log 0x684 1 (leBytes 2 c ++ leBytes 2 n)

/-- A field of the next state is what is seen of it. -/
theorem field_of_seen {o : Host.Outcome State Fault Refusal} {f : Field} {v : Nat} {t : State} (h : seen o (State.get · f) = some v) (ran : o = .next t) :
    t.get f = v := read_of_seen h ran

/-- What the statement says of an instant of SUPPRESSED. -/
theorem suppressed_of_statement (holds : Obligations.CellarAdmitsAndShows) {s : State} {c n : Nat} (running : s.clk.running = true)
    (instant : s.six % 20000000 = 0) (first : s.cel.suppSix ≠ some s.six) (codes : s.suppCodes = [(c, n)]) (full : s.cel.fullSince = 0)
    (queue : s.cel.queueSince = 0) : exec .suppressed s = .next (s.listedOnce c n) := by
  obtain ⟨-, -, listed, -⟩ := holds s 0 0 waitingEvent [] ⟨[], []⟩ 0 0 c n
  exact listed running instant first codes full queue

/-- The full queue discards SUPPRESSED itself, whose discard DROPPED then reports, to be discarded in turn. -/
theorem suppressed_fullQueueState : seen (exec .suppressed fullQueueState) (State.get · F.CEL_DROP.QUEUE) = some 2 ∧
    (fullQueueState.listedOnce 1 1).get F.CEL_DROP.QUEUE = 1 := by
  decide +kernel

/-- Refutes O50: the statement says that SUPPRESSED is all that follows when nothing was dropped before the instant. Where the queue is full,
SUPPRESSED itself is discarded (R295), and DROPPED, which tells so (R297), follows in the same step: CEL_DROP.QUEUE counts two and not one. -/
theorem not_cellarAdmitsAndShows : ¬ Obligations.CellarAdmitsAndShows := by
  intro holds
  obtain ⟨running, instant, first, codes, full, queue⟩ := fullQueueState_due
  obtain ⟨twice, once⟩ := suppressed_fullQueueState
  have ran := suppressed_of_statement holds running instant first codes full queue
  have two := field_of_seen twice ran
  rw [once] at two
  exact absurd two (by decide)

end Sys2Proof.Machine
end

section
/-!
PROOFS. Sources of time and their measurements (R311 to R314, R317).
-/
namespace Sys2Proof.Machine
open Sys2Proof

section
variable (s : State) {p : Fin 4} {k : Nat} {m : PtpMsg}

/-- The state without the message that waited. -/
def State.inboxTaken : State := s.withTim { s.tim with inbox := [] }

/-- Is a message that waits one of these kinds from port `n`? -/
def awaited (n : Nat) (kinds : List Nat) (x : Nat × Nat × PtpMsg) : Bool := x.1 == n && kinds.contains x.2.2.kind

/-- Does a message complete the Sync of which `x` tells? -/
def PtpHalf.completedBy (n : Nat) (m : PtpMsg) (x : PtpHalf) : Bool :=
  x.port == n && x.clockId == m.clockId && x.portNo == m.portNo && x.seq == m.seq && !x.resp

theorem State.ptpTake_only {kinds : List Nat} (one : s.tim.inbox = [(p.val, k, m)]) (kind : kinds.contains m.kind = true) :
    s.ptpTake p kinds = some ((k, m), s.inboxTaken) := by
  have hit : awaited p kinds (p.val, k, m) = true := by rw [awaited, beq_self_eq_true, kind]; rfl
  have found : s.tim.inbox.find? (fun x => x.1 == p.val && kinds.contains x.2.2.kind) = some (p.val, k, m) := by
    rw [one]
    exact List.find?_cons_of_pos (p := awaited p kinds) hit
  have rest : s.tim.inbox.eraseP (fun x => x.1 == p.val && kinds.contains x.2.2.kind) = [] := by
    rw [one]
    exact List.eraseP_cons_of_pos (p := awaited p kinds) hit
  unfold State.ptpTake
  dsimp only
  rw [found, rest]
  rfl

/-- A frame that is used counts, and the time unit's record takes a content. -/
def State.usedWith (t : State) (p : Nat) (x : TimSt) : State := (t.ptpUse p).withTim x

theorem State.rd_usedWith {a : Nat} (n : Nat) (x : TimSt) (h : a ≠ A.TIM_E_CNT n) : (s.usedWith n x).rd a = s.rd a := by
  unfold State.usedWith
  rw [State.rd_congr (State.withTim_regs _ _)]
  exact s.rd_bump_ne h

theorem State.inboxTaken_rd (a : Nat) : s.inboxTaken.rd a = s.rd a := rfl

theorem State.fromMaster_taken : s.inboxTaken.fromMaster p m = s.fromMaster p m := rfl

theorem State.srcData_congr {t : State} (h : t.rd A.TIM_STATUS = s.rd A.TIM_STATUS) : t.srcData = s.srcData := by
  unfold State.srcData
  rw [State.get_congr (f := F.TIM_STATUS.SRC_ACT) h, State.get_congr (f := F.TIM_STATUS.SLAVE) h, State.get_congr (f := F.TIM_STATUS.REF_OK) h]

theorem State.rxTime_congr {t : State} (n six stamp : Nat) (clk : t.clk = s.clk) (lat : t.rd (A.TIM_E_LAT n) = s.rd (A.TIM_E_LAT n)) :
    t.rxTime n six stamp = s.rxTime n six stamp := by
  unfold State.rxTime
  rw [clk, State.get_congr (f := F.TIM_E_LAT.RX_LAT n) lat]

theorem State.syncError_congr {t : State} (n : Nat) (a b c : Int) (delay : t.rd (A.TIM_E_PDLY n) = s.rd (A.TIM_E_PDLY n))
    (asym : t.rd (A.TIM_E_ASYM n) = s.rd (A.TIM_E_ASYM n)) : t.syncError n a b c = s.syncError n a b c := by
  unfold State.syncError
  rw [State.get_congr (f := F.TIM_E_PDLY.NS n) delay, State.get_congr (f := F.TIM_E_ASYM.ASYM n) asym]

/-- The state behind a message of port `p` that is used. -/
def State.received (p : Nat) (x : TimSt) : State := s.inboxTaken.usedWith p x

theorem State.rd_received {a : Nat} (x : TimSt) (h : a ≠ A.TIM_E_CNT p) : (s.received p x).rd a = s.rd a := s.inboxTaken.rd_usedWith _ _ h

theorem State.received_clk (x : TimSt) : (s.received p x).clk = s.clk :=
  (State.withTim_clk _ _).trans ((State.bump_clk _ _).trans (s.withTim_clk _))

theorem State.received_tim (x : TimSt) : (s.received p x).tim = x := rfl

theorem State.rxTime_received (x : TimSt) (six stamp : Nat) : (s.received p x).rxTime p six stamp = s.rxTime p six stamp :=
  s.rxTime_congr _ _ _ (s.received_clk x) (s.rd_received x (by simp only [A.TIM_E_LAT, A.TIM_E_CNT]; omega))

theorem State.syncError_received (x : TimSt) (a b c : Int) : (s.received p x).syncError p a b c = s.syncError p a b c :=
  s.syncError_congr _ _ _ _ (s.rd_received x (by simp only [A.TIM_E_PDLY, A.TIM_E_CNT]; omega))
    (s.rd_received x (by simp only [A.TIM_E_ASYM, A.TIM_E_CNT]; omega))

/-! ### Sync and Follow_Up (R312, R317) -/

variable {s} {moved freq : Int}

/-- What a Sync of the master in force does, by its two-step flag. -/
theorem execPtpSyncReceived_used (one : s.tim.inbox = [(p.val, k, m)]) (kind : m.kind = ptpSync) (low : -4 ≤ m.logInt) (high : m.logInt ≤ 1)
    (master : s.fromMaster p m = true) : ∃ x : TimSt, x.inbox = [] ∧ x.syncSix = k ∧ execPtpSyncReceived p moved freq s =
      if m.twoStep then .next ((s.received p x).withTim { x with halves :=
        ⟨false, p, m.clockId, m.portNo, m.seq, (s.received p x).rxTime p k m.stamp, m.corr, 0⟩ :: x.halves.filter (fun h => h.port != p.val || h.resp) })
      else .next ((s.received p x).measureFrom 1
        ((s.received p x).syncError p ((s.received p x).rxTime p k m.stamp) (ptpOrigin m) m.corr) moved freq) := by
  refine ⟨{ s.inboxTaken.tim with syncSix := k, syncSpan := logSamples m.logInt }, rfl, rfl, ?_⟩
  unfold execPtpSyncReceived
  rw [s.ptpTake_only one (kinds := [ptpSync]) (by rw [kind]; rfl)]
  refine (if_neg (by omega)).trans ((if_neg ?_).trans rfl)
  rw [State.fromMaster_taken, master]
  exact Bool.false_ne_true

theorem execPtpSyncReceived_waits (one : s.tim.inbox = [(p.val, k, m)]) (kind : m.kind = ptpSync) (low : -4 ≤ m.logInt) (high : m.logInt ≤ 1)
    (master : s.fromMaster p m = true) (two : m.twoStep = true) : ∃ t, execPtpSyncReceived p moved freq s = .next t ∧ t.tim.inbox = [] ∧
      t.tim.halves.head? = some ⟨false, p, m.clockId, m.portNo, m.seq, s.rxTime p k m.stamp, m.corr, 0⟩ := by
  obtain ⟨x, inbox, -, runs⟩ := execPtpSyncReceived_used (moved := moved) (freq := freq) one kind low high master
  rw [if_pos two, State.rxTime_received] at runs
  exact ⟨_, runs, inbox, rfl⟩

theorem execPtpSyncReceived_measures (one : s.tim.inbox = [(p.val, k, m)]) (kind : m.kind = ptpSync) (low : -4 ≤ m.logInt) (high : m.logInt ≤ 1)
    (master : s.fromMaster p m = true) (single : m.twoStep = false) : ∃ u : State, u.tim.inbox = [] ∧ u.tim.syncSix = k ∧
      execPtpSyncReceived p moved freq s = .next (u.measureFrom 1 (s.syncError p (s.rxTime p k m.stamp) (ptpOrigin m) m.corr) moved freq) := by
  obtain ⟨x, inbox, six, runs⟩ := execPtpSyncReceived_used (moved := moved) (freq := freq) one kind low high master
  rw [if_neg (by rw [single]; exact Bool.false_ne_true), State.rxTime_received, State.syncError_received] at runs
  exact ⟨_, inbox, six, runs⟩

theorem execPtpFollowUpReceived_measures {h : PtpHalf} (one : s.tim.inbox = [(p.val, k, m)]) (kind : m.kind = ptpFollowUp) (waits : s.tim.halves = [h])
    (port : h.port = p.val) (clock : h.clockId = m.clockId) (no : h.portNo = m.portNo) (seq : h.seq = m.seq) (sync : h.resp = false) :
    ∃ u : State, u.tim.inbox = [] ∧ u.tim.halves = [] ∧ execPtpFollowUpReceived p moved freq s =
      .next (u.measureFrom 1 (s.syncError p h.local_ (ptpOrigin m) (h.corr + m.corr)) moved freq) := by
  have hit : h.completedBy p m = true := by
    rw [PtpHalf.completedBy, port, clock, no, seq, sync, beq_self_eq_true, beq_self_eq_true, beq_self_eq_true, beq_self_eq_true]
    rfl
  have found : s.inboxTaken.tim.halves.find? (fun x => x.port == p.val && x.clockId == m.clockId && x.portNo == m.portNo && x.seq == m.seq && !x.resp) =
      some h := by
    rw [show s.inboxTaken.tim.halves = [h] from waits]
    exact List.find?_cons_of_pos (p := PtpHalf.completedBy p m) hit
  have rest : s.inboxTaken.tim.halves.filter
      (fun x => !(x.port == p.val && x.clockId == m.clockId && x.portNo == m.portNo && x.seq == m.seq && !x.resp)) = [] := by
    rw [show s.inboxTaken.tim.halves = [h] from waits]
    exact List.filter_cons_of_neg (p := fun x => !PtpHalf.completedBy p m x) (by rw [hit]; exact Bool.false_ne_true)
  refine ⟨s.received p { s.inboxTaken.tim with halves := [] }, rfl, rfl, ?_⟩
  unfold execPtpFollowUpReceived
  rw [s.ptpTake_only one (kinds := [ptpFollowUp]) (by rw [kind]; rfl)]
  dsimp only
  rw [found, rest]
  exact congrArg (fun e => Host.Outcome.next ((s.received p { s.inboxTaken.tim with halves := [] }).measureFrom 1 e moved freq))
    (State.syncError_received s _ _ _ _)

/-! ### Announce (R312, R313) -/

theorem execPtpAnnounceReceived_counts {d : AnnData} (one : s.tim.inbox = [(p.val, k, m)]) (kind : m.kind = ptpAnnounce) (data : m.ann = some d) :
    ∃ u : State, execPtpAnnounceReceived p s = .next ((u.ptpPick).srcShow s.srcData) ∧
      u.tim.anns.head? = some ⟨p, m.clockId, m.portNo, k, s.get F.TIM_PTP.ANN_TO * logSamples m.logInt, d⟩ := by
  obtain ⟨a, ha⟩ : ∃ a : Announce, a = ⟨p, m.clockId, m.portNo, k, s.inboxTaken.get F.TIM_PTP.ANN_TO * logSamples m.logInt, d⟩ := ⟨_, rfl⟩
  obtain ⟨keep, hk⟩ : ∃ keep, keep = s.inboxTaken.tim.anns.filter
    (fun x => s.inboxTaken.annLive x && !(x.port == p.val && x.clockId == m.clockId && x.portNo == m.portNo)) := ⟨_, rfl⟩
  refine ⟨s.received p { s.inboxTaken.tim with anns := a :: keep }, ?_, congrArg some ha⟩
  unfold execPtpAnnounceReceived
  rw [s.ptpTake_only one (kinds := [ptpAnnounce]) (by rw [kind]; rfl)]
  dsimp only
  rw [data]
  dsimp only
  rw [← ha, ← hk]
  rfl

/-! ### Peer delay (R312 to R314) -/

theorem execPdelayReqSend_leaves {stamp : Fin 500} (port : s.ptpPort p = true) (due : (kvGet (fun _ => PdReq.reset) s.tim.pd p).next ≤ s.six) :
    ∃ t, execPdelayReqSend p stamp s = .next t ∧
      t.outbox = .eth p none 0 (.pdelayReq (((kvGet (fun _ => PdReq.reset) s.tim.pd p).seq + 1) % 65536)) :: s.outbox ∧
      (kvGet (fun _ => PdReq.reset) t.tim.pd p).sent = some ((s.six * 500 + stamp + s.get (F.TIM_E_LAT.TX_LAT p) : Nat) : Int) := by
  obtain ⟨q, hq⟩ : ∃ q, q = kvGet (fun _ => PdReq.reset) s.tim.pd p := ⟨_, rfl⟩
  rw [← hq] at due ⊢
  obtain ⟨n, hn⟩ : ∃ n : PdReq, n = ⟨s.six + logSamples s.logPd, (q.seq + 1) % 65536,
    some ((s.six * 500 + stamp + s.get (F.TIM_E_LAT.TX_LAT p) : Nat) : Int)⟩ := ⟨_, rfl⟩
  have runs : execPdelayReqSend p stamp s =
      .next ((s.withTim { s.tim with pd := kvPut (fun _ => PdReq.reset) s.tim.pd p n }).emit (.eth p none 0 (.pdelayReq ((q.seq + 1) % 65536)))) := by
    unfold execPdelayReqSend
    dsimp only
    rw [← hq, port, decide_eq_true due, ← hn]
    rfl
  refine ⟨_, runs, rfl, ?_⟩
  · rw [State.emit_tim, State.withTim_tim, kvGet_put_same, hn]

theorem execPdelayRespReceived_measures {t1 : Int} (one : s.tim.inbox = [(p.val, k, m)]) (kind : m.kind = ptpPdResp) (single : m.twoStep = false)
    (seq : m.seq = (kvGet (fun _ => PdReq.reset) s.tim.pd p).seq) (sent : (kvGet (fun _ => PdReq.reset) s.tim.pd p).sent = some t1) :
    ∃ t, execPdelayRespReceived p s = .next t ∧ t.flag (F.TIM_E_PDLY.VALID p) = true ∧ (t.get (F.TIM_E_PDLY.NS p) : Int) = clampInt 0 16777215
      ((((k * 500 + m.stamp : Nat) : Int) - s.get (F.TIM_E_LAT.RX_LAT p) - t1 - corrNs m.corr) / 2) := by
  obtain ⟨q, hq⟩ : ∃ q, q = kvGet (fun _ => PdReq.reset) s.inboxTaken.tim.pd p := ⟨_, rfl⟩
  have same : kvGet (fun _ => PdReq.reset) s.tim.pd p = q := hq.symm
  rw [same] at seq sent
  obtain ⟨u, hu⟩ : ∃ u, u = s.inboxTaken.ptpUse p := ⟨_, rfl⟩
  have lat : u.get (F.TIM_E_LAT.RX_LAT p) = s.get (F.TIM_E_LAT.RX_LAT p) := by
    rw [hu]
    exact State.get_bump_ne _ (by simp only [F.TIM_E_LAT.RX_LAT, F.TIM_E_CNT.USED, A.TIM_E_LAT, A.TIM_E_CNT]; omega)
  have runs : execPdelayRespReceived p s =
      .next (u.pdDone p q t1 (((k * 500 + m.stamp : Nat) : Int) - (u.get (F.TIM_E_LAT.RX_LAT p) : Int)) (corrNs m.corr)) := by
    unfold execPdelayRespReceived
    rw [s.ptpTake_only one (kinds := [ptpPdResp, ptpPdRespFu]) (by rw [kind]; rfl)]
    dsimp only
    rw [← hq, sent]
    dsimp only
    rw [if_pos seq, if_neg (not_not.mpr seq), if_pos kind, if_neg (by rw [single]; exact Bool.false_ne_true), ← hu]
  rw [lat] at runs
  obtain ⟨d, hd⟩ : ∃ d, d = (((k * 500 + m.stamp : Nat) : Int) - s.get (F.TIM_E_LAT.RX_LAT p) - t1 - corrNs m.corr) / 2 := ⟨_, rfl⟩
  have bounds : 0 ≤ clampInt 0 16777215 d ∧ clampInt 0 16777215 d ≤ 16777215 := by
    unfold clampInt
    split
    · omega
    · split
      · omega
      · omega
  refine ⟨_, runs, ?_, ?_⟩
  · unfold State.pdDone
    exact State.flag_set_one _ _ (by simp [F.TIM_E_PDLY.VALID]) rfl
  · unfold State.pdDone
    dsimp only
    rw [← hd, State.get_set_apart _ _ (by simp [F.TIM_E_PDLY.VALID]) (by simp [F.TIM_E_PDLY.VALID, F.TIM_E_PDLY.NS]),
      State.get_set_same _ _ _ (by simp [F.TIM_E_PDLY.NS]), show (2 : Nat) ^ (F.TIM_E_PDLY.NS p).width = 16777216 from rfl]
    omega

/-! ### Other sources, and the reference (R311) -/

theorem execPpsEdge_measures {stamp : Fin 500} {f : Nat} (use : s.get F.TIM_CFG.SRC = 2) (edge : f = (todNs s.six s.offset + stamp) % 1000000000) :
    ∃ u : State, u.tim.ppsSix = s.six ∧ execPpsEdge stamp moved freq s =
      .next (u.measureFrom 2 (if f ≤ 500000000 then (f : Int) else (f : Int) - 1000000000) moved freq) := by
  refine ⟨s.withTim { s.tim with ppsSix := s.six }, rfl, ?_⟩
  unfold execPpsEdge
  rw [if_pos (.inl use), edge]
  rfl

theorem execSourceLost_loses (pps : s.tim.pps = true) (late : s.tim.ppsSix + 6000000 ≤ s.six) : ∃ u : State, execSourceLost true s =
    .next (u.srcFall s.srcData 1) ∧ u.tim.pps = false := by
  refine ⟨s.withTim { s.tim with pps := false }, ?_, rfl⟩
  unfold execSourceLost
  dsimp only
  have due : (s.tim.pps && decide (s.tim.ppsSix + 3 * samplesPerSecond ≤ s.six)) = true := by
    rw [pps, show 3 * samplesPerSecond = 6000000 from rfl, decide_eq_true late]
    rfl
  rw [if_pos rfl, if_pos due]
  rfl

/-- Showing the source that serves leaves REF_OK. -/
theorem State.ref_srcShow (t : State) (old : List Byte) : (t.srcShow old).flag F.TIM_STATUS.REF_OK = t.flag F.TIM_STATUS.REF_OK := by
  have shown : (t.set F.TIM_STATUS.SRC_ACT t.srcActive).get F.TIM_STATUS.REF_OK = t.get F.TIM_STATUS.REF_OK := State.get_set_apart _ _ (by decide) (by decide)
  unfold State.srcShow
  dsimp only
  split
  · exact State.flag_of_get _ shown
  · exact State.flag_of_get _ ((State.get_log _ _ _ _ (by decide) (by decide)).trans shown)

theorem execRefFail_fails : ∃ t, execRefFail s = .next t ∧ t.flag F.TIM_STATUS.REF_OK = false := by
  refine ⟨_, rfl, ?_⟩
  rw [State.ref_srcShow]
  exact State.flag_of_zero _ (State.get_set_same _ _ _ (by decide))

theorem execRefOk_locks (on : s.flag F.TIM_CFG.REF_EN = true) : ∃ t, execRefOk s = .next t ∧ t.flag F.TIM_STATUS.REF_OK = true := by
  have runs : execRefOk s = .next ((s.set F.TIM_STATUS.REF_OK 1).srcShow s.srcData) := if_pos on
  refine ⟨_, runs, ?_⟩
  rw [State.ref_srcShow]
  exact State.flag_set_one _ _ (by decide) rfl

end

/-- Settles O51, by the message that each step takes and the source that it serves. -/
theorem timeMeasurements : Obligations.TimeMeasurements := by
  unfold Obligations.TimeMeasurements
  intro s p k m h d t1 moved freq stamp
  exact ⟨fun one kind low high master => ⟨execPtpSyncReceived_waits one kind low high master, execPtpSyncReceived_measures one kind low high master⟩,
    execPtpFollowUpReceived_measures, execPtpAnnounceReceived_counts, execPdelayReqSend_leaves, execPdelayRespReceived_measures,
    fun use => execPpsEdge_measures use rfl, execSourceLost_loses, execRefFail_fails, execRefOk_locks⟩

end Sys2Proof.Machine
end

section
/-!
PROOFS. Derived values and grid values (R85, R89 to R101).
-/
namespace Sys2Proof.Machine
open Sys2Proof

section
variable (s : State) {n c : Nat}

/-! ### Derived values (R89 to R96) -/

/-- A filed value is the one listed under its tag. -/
theorem State.derivAt_fileDeriv_same (d : Deriv) : (s.fileDeriv n c d).derivAt n c d.tag = some d := by
  unfold State.derivAt State.fileDeriv
  dsimp only
  rw [kvGet_put_same, kvGet_put_same]
  exact if_pos rfl

theorem State.derivAt_fileDeriv_ne {k : Nat} (d : Deriv) (t : Nat) (h : c ≠ k) : (s.fileDeriv n k d).derivAt n c t = s.derivAt n c t := by
  have key : chKey n c ≠ chKey n k := fun same => h (Nat.add_left_cancel same)
  unfold State.derivAt State.fileDeriv
  dsimp only
  rw [kvGet_put_ne _ _ _ key]

theorem State.derivAt_congr {t : State} (h : t.fab = s.fab) (k : Nat) : t.derivAt n c k = s.derivAt n c k := by
  unfold State.derivAt
  rw [h]

/-- One channel's values are filed, with SAT where one saturated; `s` is the state from which they derive. -/
def State.deriveInto (n tag : Nat) (t : State) (c : Nat) : State :=
  if (s.derive n c tag).2 then (t.fileDeriv n c (s.derive n c tag).1).raise F.SFB_EVT.SAT else t.fileDeriv n c (s.derive n c tag).1

/-- The values of a channel stand, and SAT where one saturated. -/
def State.derived (u : State) (n tag c : Nat) : Prop :=
  u.derivAt n c tag = some (s.derive n c tag).1 ∧ ((s.derive n c tag).2 = true → u.flag F.SFB_EVT.SAT = true)

theorem State.derived_here (t : State) (tag : Nat) : s.derived (s.deriveInto n tag t c) n tag c := by
  have filed : (t.fileDeriv n c (s.derive n c tag).1).derivAt n c tag = some (s.derive n c tag).1 := t.derivAt_fileDeriv_same (s.derive n c tag).1
  unfold State.derived State.deriveInto
  split
  · exact ⟨(State.derivAt_congr _ (State.raise_fab _ _) _).trans filed, fun _ => State.flag_raise _ _ (by decide) rfl⟩
  · next none => exact ⟨filed, fun sat => absurd sat none⟩

theorem State.derived_other {t : State} {k tag : Nat} (h : k ≠ c) (holds : s.derived t n tag c) : s.derived (s.deriveInto n tag t k) n tag c := by
  obtain ⟨filed, sat⟩ := holds
  have kept : (t.fileDeriv n k (s.derive n k tag).1).derivAt n c tag = some (s.derive n c tag).1 := (t.derivAt_fileDeriv_ne _ _ (Ne.symm h)).trans filed
  unfold State.derived State.deriveInto
  split
  · exact ⟨(State.derivAt_congr _ (State.raise_fab _ _) _).trans kept, fun _ => State.flag_raise _ _ (by decide) rfl⟩
  · exact ⟨kept, sat⟩

theorem State.asOf_current (h : (s.ctx n).old = none) (k : Nat) : s.asOf n k = s := by
  unfold State.asOf
  rw [h]

theorem State.subAt_current (h : (s.ctx n).old = none) (k : Nat) : s.subAt n k = s.fp.svSub.lookup n := by
  unfold State.subAt
  rw [h]

variable {s} {m : Fin 256}

theorem execDerivedValuesCompute_files {b : Nat} (boundary : b = s.six / 100 * 100) (on : s.fabricOn = true) (kind : s.kind m = 1 ∨ s.kind m = 2)
    (current : (s.ctx m).old = none) (past : 100 ≤ b)
    (due : ∀ c, c < s.nch m → (s.perSix m c (b - 1)).isSome = true ∧ s.derivAt m c (b - 1) = none) :
    ∃ u, execDerivedValuesCompute m s = .next u ∧ ∀ c, c < s.nch m → s.derived u m (b - 1) c := by
  have ready : (s.fabricOn && decide (s.kind m = 1 ∨ s.kind m = 2) && decide (100 ≤ b) &&
      (List.range (s.nch m)).all (fun c => (s.perSix m c (b - 1)).isSome && (s.derivAt m c (b - 1)).isNone)) = true := by
    have all : (List.range (s.nch m)).all (fun c => (s.perSix m c (b - 1)).isSome && (s.derivAt m c (b - 1)).isNone) = true :=
      List.all_eq_true.mpr fun c inside => by
        obtain ⟨known, missing⟩ := due c (List.mem_range.mp inside)
        rw [known, missing]
        rfl
    rw [on, decide_eq_true kind, decide_eq_true past, all]
    rfl
  have runs : execDerivedValuesCompute m s = .next ((List.range (s.nch m)).foldl (s.deriveInto m (b - 1)) s) := by
    unfold execDerivedValuesCompute
    dsimp only
    rw [show s.six / baseCycle * baseCycle = b from boundary.symm, s.asOf_current current]
    refine (if_pos ?_).trans rfl
    simpa only [Bool.decide_or] using ready
  exact ⟨_, runs, fun c few => foldl_range_at (P := fun _ => True) (Q := fun u => s.derived u m (b - 1) c) few trivial (fun _ _ _ _ => trivial)
    (fun u _ => s.derived_here u _) (fun u k other holds => s.derived_other other holds)⟩

/-! ### Grid values (R98 to R101) -/

/-- A grid value carries the SIX for which it counts. -/
theorem State.gridSamp_six (t : State) (n c g rate : Nat) : (t.gridSamp n c g rate).six = g := by
  unfold State.gridSamp
  dsimp only
  split
  · rfl
  · rfl

theorem State.listed_congr {t : State} (h : t.fab.samp = s.fab.samp) (key k : Nat) : t.listed key k = s.listed key k := by
  unfold State.listed
  rw [h]

theorem State.ctxMissing_samp (t : State) (n k : Nat) : (t.ctxMissing n k).fab.samp = t.fab.samp := by
  have state : ∀ u : State, (u.setCtxState n 4).fab = u.fab := fun u => (State.setCtxState_kept (.refl 16777226 u) (.refl _)).parts .fab rfl
  unfold State.ctxMissing
  dsimp only
  split
  · split
    · rfl
    · rw [state]
  · split
    · rfl
    · rw [state]
      rfl

/-- The replay's capture leaves the fabric and the registers. -/
theorem State.captureGrid_leaves (t : State) (n g : Nat) : (t.captureGrid n g).fab = t.fab ∧ (t.captureGrid n g).regs = t.regs :=
  have kept := State.captureGrid_kept (x1 := n) (x2 := g) (.refl 526337 t) (.refl _)
  ⟨kept.parts .fab rfl, kept.parts .regs rfl⟩

/-- The context's own sampled values, those that had arrived. -/
def State.arrived (s : State) (n : Nat) : State := s.setCtx n { s.ctx n with sv := (s.ctx n).sv.filter (fun e => e.arr < s.six) }

/-- The state in which a grid value is filed: SV_NOLOCK where the stream's lock does not hold. -/
def State.gridNoted (s : State) (n : Nat) : State := if s.svNoLock n then s.raise F.SFB_EVT.SV_NOLOCK else s

/-- A context of one channel that receives a whole grid value, and one that does not. -/
def State.gridWhole (t : State) (n g : Nat) (x : Samp) : State :=
  ((fun u : State => if u.ctxState n = 2 then u else u.setCtxState n 2) ((t.ctxReceiving n g).set64 (A.SFB_C_SIX n) g)).fileSamp n 0 x
def State.gridMissing (t : State) (n g : Nat) : State :=
  ((t.fileSamp n 0 (missingSamp g (t.lastVal (chKey n 0)) g)).countMiss n 1).ctxMissing n g

theorem State.gridCompute_due {sub : SvSub} {g : Nat} {x : Samp} (before : g = s.six - 1) (value : x = (s.arrived n).gridSamp n 0 g sub.rate) (on : s.fabricOn = true)
    (kind : s.kind n = 2) (one : s.nch n = 1) (current : (s.ctx n).old = none) (stream : s.fp.svSub.lookup n = some sub) (past : 25 ≤ s.six)
    (grid : s.six % 25 = 0) (delay : s.get (F.SFB_C_SVDLY.D n) ≤ g) (missing : s.listed (chKey n 0) g = none) :
    s.gridCompute n = if (bit x.q 2) then (if (s.gridNoted n).ctxState n < 2 then some (s.gridNoted n) else some ((s.gridNoted n).gridMissing n g))
      else some ((s.gridNoted n).gridWhole n g x) := by
  unfold State.gridCompute
  dsimp only
  rw [← before, s.subAt_current current, stream]
  dsimp only
  rw [s.asOf_current current, if_pos ⟨on, kind, kind, past, grid, delay, by rw [missing]; rfl⟩, one, show List.range 1 = [0] from rfl]
  rw [List.map_cons, List.map_nil, List.all_cons, List.all_nil, List.foldl_cons, List.foldl_nil, List.foldl_cons, List.foldl_nil]
  dsimp only
  rw [show (s.setCtx n { s.ctx n with sv := (s.ctx n).sv.filter (fun e => e.arr < s.six) }).gridSamp n 0 g sub.rate = x from value.symm, Bool.and_true]
  cases bit x.q 2
  · exact if_pos rfl
  · exact if_neg Bool.false_ne_true

theorem State.gridWhole_shows (t : State) {g : Nat} (few : n < 256) (small : g < 2 ^ 64) {x : Samp} (tag : x.six = g) :
    (t.gridWhole n g x).listed (chKey n 0) g = some x ∧ (t.gridWhole n g x).get64 (A.SFB_C_SIX n) = g := by
  obtain ⟨u, hu⟩ : ∃ u, u = (t.ctxReceiving n g).set64 (A.SFB_C_SIX n) g := ⟨_, rfl⟩
  have shown : u.get64 (A.SFB_C_SIX n) = g := by rw [hu, State.get64_set64, Nat.mod_eq_of_lt small]
  have state : (u.setCtxState n 2).get64 (A.SFB_C_SIX n) = g := by
    rw [u.get64_congr (u.rd_setCtxState n 2 (by simp only [A.SFB_C_SIX, A.SFB_C_STATE]; omega) (by simp only [A.SFB_C_SIX, A.SFB_STATUS]; omega)
        (by simp only [A.SFB_C_SIX, A.SFB_EVT]; omega))
      (u.rd_setCtxState n 2 (by simp only [A.SFB_C_SIX, A.SFB_C_STATE]; omega) (by simp only [A.SFB_C_SIX, A.SFB_STATUS]; omega)
        (by simp only [A.SFB_C_SIX, A.SFB_EVT]; omega)), shown]
  unfold State.gridWhole
  rw [← hu]
  refine ⟨by rw [← tag]; exact State.listed_fileSamp _ _ _ _, ?_⟩
  rw [State.get64_congr _ (State.rd_fileSamp _ _ _ _ _) (State.rd_fileSamp _ _ _ _ _)]
  dsimp only
  split
  · exact shown
  · exact state

theorem State.gridMissing_shows (t : State) (g : Nat) : (t.gridMissing n g).listed (chKey n 0) g = some (missingSamp g (t.lastVal (chKey n 0)) g) := by
  have counted : ∀ u : State, (u.countMiss n 1).fab = u.fab := fun u => (State.countMiss_kept (.refl 2 u) (.refl _)).parts .fab rfl
  unfold State.gridMissing
  rw [State.listed_congr (State.ctxMissing_samp _ _ _), State.listed_congr (congrArg FabSt.samp (counted _))]
  exact State.listed_fileSamp t n 0 (missingSamp g (t.lastVal (chKey n 0)) g)

/-- The state of a context is not told by SV_NOLOCK. -/
theorem State.ctxState_gridNoted : (s.gridNoted n).ctxState n = s.ctxState n := by
  unfold State.gridNoted
  split
  · exact State.get_raise_ne _ (by simp only [F.SFB_EVT.SV_NOLOCK, F.SFB_C_STATE.STATE, A.SFB_EVT, A.SFB_C_STATE]; omega)
  · rfl

theorem execGridValueCompute_files {sub : SvSub} {g : Nat} {x : Samp} (before : g = s.six - 1) (value : x = (s.arrived m).gridSamp m 0 g sub.rate)
    (on : s.fabricOn = true) (kind : s.kind m = 2) (one : s.nch m = 1) (current : (s.ctx m).old = none) (stream : s.fp.svSub.lookup m.val = some sub)
    (past : 25 ≤ s.six) (grid : s.six % 25 = 0) (delay : s.get (F.SFB_C_SVDLY.D m) ≤ g) (missing : s.listed (chKey m 0) g = none) (small : g < 2 ^ 64) :
    (bit x.q 2 = false → ∃ t, execGridValueCompute m s = .next t ∧ t.listed (chKey m 0) g = some x ∧ t.get64 (A.SFB_C_SIX m) = g) ∧
      (bit x.q 2 = true → 2 ≤ s.ctxState m → ∃ t, execGridValueCompute m s = .next t ∧
        (t.listed (chKey m 0) g).map (fun z => bit z.q 2) = some true) := by
  have due := s.gridCompute_due before value on kind one current stream past grid delay missing
  have runs : ∀ t, s.gridCompute m = some t → execGridValueCompute m s = .next (t.captureGrid m (s.six - 1)) := fun t h => by
    unfold execGridValueCompute
    rw [h]
  refine ⟨fun whole => ?_, fun hole receives => ?_⟩
  · rw [whole] at due
    obtain ⟨fab, regs⟩ := ((s.gridNoted m).gridWhole m g x).captureGrid_leaves m (s.six - 1)
    obtain ⟨filed, shown⟩ := (s.gridNoted m).gridWhole_shows m.isLt small (x := x) (by rw [value, State.gridSamp_six])
    refine ⟨_, runs _ (due.trans (if_neg Bool.false_ne_true)), ?_, ?_⟩
    · rw [State.listed_congr (congrArg FabSt.samp fab), filed]
    · rw [State.get64_congr _ (State.rd_congr regs _) (State.rd_congr regs _), shown]
  · rw [hole, if_pos rfl, State.ctxState_gridNoted, if_neg (Nat.not_lt.mpr receives)] at due
    obtain ⟨fab, -⟩ := ((s.gridNoted m).gridMissing m g).captureGrid_leaves m (s.six - 1)
    refine ⟨_, runs _ due, ?_⟩
    rw [State.listed_congr (congrArg FabSt.samp fab), State.gridMissing_shows, Option.map_some]
    exact congrArg some (show bit qMISSING 2 = true by decide)

end

/-- Settles O32, by the value that each step files under its SIX. -/
theorem derivedAndGridValues : Obligations.DerivedAndGridValues := by
  unfold Obligations.DerivedAndGridValues
  intro s n sub
  exact ⟨fun on kind _ => execDerivedValuesCompute_files rfl on kind, execGridValueCompute_files rfl rfl⟩

end Sys2Proof.Machine
end

section
/-!
PROOFS. Elements, directional pairs and rules at the SIX that is due (R111, R114 to R117).
-/
namespace Sys2Proof.Machine
open Sys2Proof

/-! ### The settings that count for a SIX (R132) -/

section
variable {s : State} {n t : Nat}

theorem State.injAt_current (h : s.inj.since < t) : s.injAt t = s := if_neg (by omega)

theorem State.injChanged_current (as : List Nat) (h : s.inj.since < t) : s.injChanged t as = false := by
  have other : (t == s.inj.since) = false := beq_false_of_ne (by omega)
  unfold State.injChanged
  rw [other]
  rfl

theorem State.chanFrom_current (h : s.inj.since < t) : s.chanFrom n t = s.chan n := by
  unfold State.chanFrom
  dsimp only
  rw [State.injChanged_current _ h, State.injChanged_current _ h, State.injChanged_current _ h, State.injChanged_current _ h]
  rfl

theorem State.pairFrom_current (h : s.inj.since < t) : s.pairFrom n t = s.pair n := by
  have other : (t == s.inj.since) = false := beq_false_of_ne (by omega)
  unfold State.pairFrom
  dsimp only
  rw [State.injChanged_current _ h, other]
  rfl

end

/-! ### The step element after its hold (R114) -/

/-- Past its hold a step element that meets no step drops its output. -/
theorem stepStep_drops {en : Bool} {q hold t : Nat} {th : Int} {e : ElSt} {sign : Bool} {w : Option (List Samp)} (past : e.holdEnd < t)
    (quiet : ∀ l, w = some l → ((windowStep q l).natAbs : Int) < th) : (stepStep en q hold th t e sign w).1.out = false := by
  have dropped : (e.cnt == 1 && decide (t ≤ e.holdEnd)) = false := by rw [decide_eq_false (by omega), Bool.and_false]
  unfold stepStep
  split
  · rfl
  · split
    next l => rw [if_neg (by have := quiet l rfl; omega)]; exact dropped
    next => exact dropped

section
variable (s : State) {n : Nat}

/-- The registers and history of the elements of a channel. -/
def State.chanShown (n : Nat) (c : ChanEl) (usable : Bool) : State :=
  ((((((s.setChan n c).set (F.INJ_C_STAT.LA n) (b2n c.la.out)).set (F.INJ_C_STAT.LB n) (b2n c.lb.out)).set (F.INJ_C_STAT.ROC n) (b2n c.roc.out)).set
    (F.INJ_C_STAT.STEP n) (b2n c.step.out)).set (F.INJ_C_STAT.SIGN n) (b2n c.sign)).set (F.INJ_C_STAT.USABLE n) (b2n usable)

theorem State.chan_congr {t : State} (h : t.inj = s.inj) : t.chan n = s.chan n := by
  unfold State.chan
  rw [h]

theorem State.chan_chanShown (c : ChanEl) (usable : Bool) : (s.chanShown n c usable).chan n = c := by
  unfold State.chanShown
  rw [State.chan_congr (s.setChan n c) (by rw [State.set_inj, State.set_inj, State.set_inj, State.set_inj, State.set_inj, State.set_inj])]
  exact kvGet_put_same _ _ _ _

theorem State.step_chanShown (c : ChanEl) (usable : Bool) (low : c.step.out = false) : (s.chanShown n c usable).flag (F.INJ_C_STAT.STEP n) = false := by
  unfold State.chanShown
  refine State.flag_of_zero _ ?_
  rw [State.get_set_apart _ _ (by simp [F.INJ_C_STAT.USABLE]) (by simp [F.INJ_C_STAT.USABLE, F.INJ_C_STAT.STEP]),
    State.get_set_apart _ _ (by simp [F.INJ_C_STAT.SIGN]) (by simp [F.INJ_C_STAT.SIGN, F.INJ_C_STAT.STEP]),
    State.get_set_same _ _ _ (by simp [F.INJ_C_STAT.STEP]), low]
  exact Nat.zero_mod _

/-- The step element is evaluated with the settings in force. -/
theorem State.evalChan_step {x : Samp} (current : s.inj.since < x.six) : ∃ c usable, s.evalChan n x = s.chanShown n c usable ∧ c.next = x.six + 1 ∧
    c.step = (stepStep (s.flag (F.INJ_C_STEP_CTL.EN n)) (s.get (F.INJ_C_STEP_CTL.QM1 n) + 1) (s.get (F.INJ_C_STEP_CTL.HOLD n))
      (s.get (F.INJ_C_STEP_TH.TH n)) x.six (s.chan n).step (s.chan n).sign (s.usableWindow n x.six (s.get (F.INJ_C_STEP_CTL.QM1 n) + 1))).1 := by
  unfold State.evalChan
  dsimp only
  rw [State.chanFrom_current current, State.injAt_current current]
  exact ⟨_, _, rfl, rfl, rfl⟩

end

section
variable {s : State} {n : Fin 256}

theorem execStepHoldExpiry_drops {k : Nat} {y : Samp} (first : k = (s.chan n).step.holdEnd + 1) (armed : s.flag F.INJ_STATUS.ARMED = true)
    (on : s.flag (F.INJ_C_STAT.STEP n) = true) (begun : k ≤ s.six) (next : (s.chan n).next = k) (current : s.inj.since < k)
    (known : s.fast n k = some y) (six : y.six = k)
    (quiet : ∀ l, s.usableWindow n k (s.get (F.INJ_C_STEP_CTL.QM1 n) + 1) = some l →
      (windowStep (s.get (F.INJ_C_STEP_CTL.QM1 n) + 1) l).natAbs < s.get (F.INJ_C_STEP_TH.TH n)) :
    ∃ t, execStepHoldExpiry n s = .next t ∧ (t.chan n).next = k + 1 ∧ t.flag (F.INJ_C_STAT.STEP n) = false := by
  have one : k + 1 - k = 1 := by omega
  have runs : execStepHoldExpiry n s = .next (s.evalChan n y) := by
    unfold execStepHoldExpiry
    dsimp only
    rw [if_pos ⟨on, by omega⟩, ← first]
    unfold State.elementsTo
    rw [if_pos armed, next, one]
    unfold catchUp
    rw [next, known]
    rfl
  obtain ⟨c, usable, eq, after, step⟩ := s.evalChan_step (n := n) (x := y) (six ▸ current)
  have low : c.step.out = false := by
    rw [step]
    refine stepStep_drops (by omega) fun l window => ?_
    rw [six] at window
    exact_mod_cast quiet l window
  refine ⟨_, runs, ?_, ?_⟩
  · rw [eq, State.chan_chanShown, after, six]
  · rw [eq]
    exact s.step_chanShown c usable low

end

/-! ### Directional pairs (R115) -/

section
variable (s : State) {p : Nat}

/-- The registers and history of a pair. -/
def State.pairShown (p : Nat) (x : PairSt) : State :=
  ((s.setPair p x).set (F.INJ_D_CTL.FWD p) (b2n x.fwd.out)).set (F.INJ_D_CTL.REV p) (b2n x.rev.out)

theorem State.flag_set_b2n {f : Field} (b : Bool) (h : f.lo + 1 ≤ 32) (one : f.width = 1) : (s.set f (b2n b)).flag f = b := by
  have small : f.lo + f.width ≤ 32 := by omega
  cases b
  · exact State.flag_of_zero _ ((State.get_set_same _ _ _ small).trans (Nat.zero_mod _))
  · exact State.flag_set_one _ _ h one

theorem State.pair_pairShown (x : PairSt) : (s.pairShown p x).pair p = x := by
  unfold State.pairShown State.pair
  rw [State.set_inj, State.set_inj]
  exact kvGet_put_same _ _ _ _

theorem State.flags_pairShown (x : PairSt) : (s.pairShown p x).flag (F.INJ_D_CTL.FWD p) = x.fwd.out ∧
    (s.pairShown p x).flag (F.INJ_D_CTL.REV p) = x.rev.out := by
  unfold State.pairShown
  refine ⟨?_, State.flag_set_b2n _ _ (by simp [F.INJ_D_CTL.REV]) rfl⟩
  rw [State.flag_of_get _ (State.get_set_apart _ _ (by simp [F.INJ_D_CTL.REV]) (by simp [F.INJ_D_CTL.REV, F.INJ_D_CTL.FWD]))]
  exact State.flag_set_b2n _ _ (by simp [F.INJ_D_CTL.FWD]) rfl

/-- A usable window ends in a known sample. -/
theorem State.known_of_window {n t q : Nat} {w : List Samp} (h : s.usableWindow n t (q + 1) = some w) : (s.fast n t).isSome = true := by
  unfold State.usableWindow at h
  dsimp only at h
  split at h
  next all =>
    have first := List.all_eq_true.mp all (s.fast n t)
      (List.mem_map.mpr ⟨0, List.mem_range.mpr (by omega), by rw [if_pos (Nat.zero_le t), Nat.sub_zero]⟩)
    obtain ⟨x, known, -⟩ := (Option.any_eq_true _ _).mp first
    rw [known]
    rfl
  next => exact absurd h (by simp)

/-- Is the next SIX of a pair to be evaluated, with the settings in force? -/
def State.pairDue (p : Nat) : Prop :=
  s.flag F.INJ_STATUS.ARMED = true ∧ s.inj.since < (s.pair p).next ∧ (s.pair p).next ≤ s.six ∧ s.flag (F.INJ_D_CH.EN p) = true

variable {s}

/-- What the windows of both channels give for a pair's two outputs (R115). -/
theorem State.evalPair_windows {a b : List Samp} (due : s.pairDue p)
    (left : s.usableWindow (s.get (F.INJ_D_CH.VCH p)) (s.pair p).next (s.get (F.INJ_D_CH.QM1 p) + 1) = some a)
    (right : s.usableWindow (s.get (F.INJ_D_CH.ICH p)) (s.pair p).next (s.get (F.INJ_D_CH.QM1 p) + 1) = some b) {bf : Int × Int}
    (sums : bf = pairBF (s.get (F.INJ_D_KZ.KZ p)) (windowStep (s.get (F.INJ_D_CH.QM1 p) + 1) a) (windowStep (s.get (F.INJ_D_CH.QM1 p) + 1) b)) :
    ∃ (test subst : Bool) (outs : KV (List ElOut)), s.evalPair p = some (s.pairShown p ⟨(s.pair p).next + 1,
      if pairMeets (s.get (F.INJ_D_BMIN.BMIN p)) (s.get (F.INJ_D_CTL.RATIO p)) bf.1 bf.2 then
          ⟨1, true, test, subst, (s.pair p).next + s.get (F.INJ_D_CTL.HOLD p) - 1⟩
        else heldOut (s.pair p).fwd (s.pair p).next (pairMeets (s.get (F.INJ_D_BMIN.BMIN p)) (s.get (F.INJ_D_CTL.RATIO p)) bf.2 bf.1),
      if pairMeets (s.get (F.INJ_D_BMIN.BMIN p)) (s.get (F.INJ_D_CTL.RATIO p)) bf.2 bf.1 then
          ⟨1, true, test, subst, (s.pair p).next + s.get (F.INJ_D_CTL.HOLD p) - 1⟩
        else heldOut (s.pair p).rev (s.pair p).next (pairMeets (s.get (F.INJ_D_BMIN.BMIN p)) (s.get (F.INJ_D_CTL.RATIO p)) bf.1 bf.2), outs⟩) := by
  obtain ⟨-, current, begun, enabled⟩ := due
  have ready : (decide ((s.pair p).next ≤ s.six) && s.flag (F.INJ_D_CH.EN p) && (s.fast (s.get (F.INJ_D_CH.VCH p)) (s.pair p).next).isSome &&
      (s.fast (s.get (F.INJ_D_CH.ICH p)) (s.pair p).next).isSome) = true := by
    rw [decide_eq_true begun, enabled, s.known_of_window left, s.known_of_window right]
    rfl
  unfold State.evalPair
  dsimp only
  rw [State.pairFrom_current current, State.injAt_current current, if_pos ready, left, right, sums]
  exact ⟨_, _, _, rfl⟩

/-- What a pair gives whose first channel has no usable window: its outputs hold, and drop at the hold's end (R115). -/
theorem State.evalPair_idle (due : s.pairDue p) (none_ : s.usableWindow (s.get (F.INJ_D_CH.VCH p)) (s.pair p).next (s.get (F.INJ_D_CH.QM1 p) + 1) = none)
    (left : (s.fast (s.get (F.INJ_D_CH.VCH p)) (s.pair p).next).isSome = true) (right : (s.fast (s.get (F.INJ_D_CH.ICH p)) (s.pair p).next).isSome = true) :
    ∃ outs, s.evalPair p = some (s.pairShown p ⟨(s.pair p).next + 1, heldOut (s.pair p).fwd (s.pair p).next false,
      heldOut (s.pair p).rev (s.pair p).next false, outs⟩) := by
  obtain ⟨-, current, begun, enabled⟩ := due
  have ready : (decide ((s.pair p).next ≤ s.six) && s.flag (F.INJ_D_CH.EN p) && (s.fast (s.get (F.INJ_D_CH.VCH p)) (s.pair p).next).isSome &&
      (s.fast (s.get (F.INJ_D_CH.ICH p)) (s.pair p).next).isSome) = true := by
    rw [decide_eq_true begun, enabled, left, right]
    rfl
  unfold State.evalPair
  dsimp only
  rw [State.pairFrom_current current, State.injAt_current current, if_pos ready, none_]
  exact ⟨_, rfl⟩

/-- A pair that is due evaluates one SIX. -/
theorem State.pairTo_next {t : State} (due : s.pairDue p) (eval : s.evalPair p = some t) : s.pairTo p (s.pair p).next = t := by
  obtain ⟨armed, -, -, -⟩ := due
  have one : (s.pair p).next + 1 - (s.pair p).next = 1 := by omega
  unfold State.pairTo
  rw [if_pos armed, one]
  unfold catchUpPair
  rw [eval]
  rfl

theorem heldOut_drops {e : ElSt} {t : Nat} (past : e.holdEnd < t) : (heldOut e t false).out = false := by
  show (e.cnt == 1 && decide (t ≤ e.holdEnd)) = false
  rw [decide_eq_false (by omega), Bool.and_false]

end

section
variable {s : State} {p : Fin 64}

theorem execDirectionalEvaluate_evaluates {a b : List Samp} {bf : Int × Int} {met : Int → Int → Bool} (due : s.pairDue p)
    (left : s.usableWindow (s.get (F.INJ_D_CH.VCH p)) (s.pair p).next (s.get (F.INJ_D_CH.QM1 p) + 1) = some a)
    (right : s.usableWindow (s.get (F.INJ_D_CH.ICH p)) (s.pair p).next (s.get (F.INJ_D_CH.QM1 p) + 1) = some b)
    (sums : bf = pairBF (s.get (F.INJ_D_KZ.KZ p)) (windowStep (s.get (F.INJ_D_CH.QM1 p) + 1) a) (windowStep (s.get (F.INJ_D_CH.QM1 p) + 1) b))
    (tests : met = fun x z => pairMeets (s.get (F.INJ_D_BMIN.BMIN p)) (s.get (F.INJ_D_CTL.RATIO p)) x z) :
    ∃ t, execDirectionalEvaluate p s = .next t ∧ (t.pair p).next = (s.pair p).next + 1 ∧
      (met bf.1 bf.2 = true → t.flag (F.INJ_D_CTL.FWD p) = true ∧ (t.pair p).fwd.holdEnd = (s.pair p).next + s.get (F.INJ_D_CTL.HOLD p) - 1) ∧
      (met bf.2 bf.1 = true → t.flag (F.INJ_D_CTL.REV p) = true ∧ (t.pair p).rev.holdEnd = (s.pair p).next + s.get (F.INJ_D_CTL.HOLD p) - 1) ∧
      (met bf.1 bf.2 = false → met bf.2 bf.1 = true → t.flag (F.INJ_D_CTL.FWD p) = false) := by
  subst tests
  dsimp only
  obtain ⟨test, subst, outs, eval⟩ := State.evalPair_windows due left right sums
  have runs : execDirectionalEvaluate p s = .next _ := congrArg Host.Outcome.next (State.pairTo_next due eval)
  refine ⟨_, runs, ?_⟩
  rw [State.pair_pairShown, (State.flags_pairShown _ _).1, (State.flags_pairShown _ _).2]
  dsimp only
  refine ⟨rfl, fun forward => ?_, fun reverse => ?_, fun other reverse => ?_⟩
  · rw [if_pos forward]
    exact ⟨rfl, rfl⟩
  · rw [if_pos reverse]
    exact ⟨rfl, rfl⟩
  · rw [if_neg (by rw [other]; exact Bool.false_ne_true), reverse]
    rfl

theorem execDirectionalHoldExpiry_drops (due : s.pairDue p)
    (none_ : s.usableWindow (s.get (F.INJ_D_CH.VCH p)) (s.pair p).next (s.get (F.INJ_D_CH.QM1 p) + 1) = none)
    (left : (s.fast (s.get (F.INJ_D_CH.VCH p)) (s.pair p).next).isSome = true) (right : (s.fast (s.get (F.INJ_D_CH.ICH p)) (s.pair p).next).isSome = true) :
    (s.flag (F.INJ_D_CTL.FWD p) = true → (s.pair p).next = (s.pair p).fwd.holdEnd + 1 → ∃ t, execDirectionalHoldExpiry p s = .next t ∧
      (t.pair p).next = (s.pair p).next + 1 ∧ t.flag (F.INJ_D_CTL.FWD p) = false) ∧
    (s.flag (F.INJ_D_CTL.FWD p) = false → s.flag (F.INJ_D_CTL.REV p) = true → (s.pair p).next = (s.pair p).rev.holdEnd + 1 →
      ∃ t, execDirectionalHoldExpiry p s = .next t ∧ (t.pair p).next = (s.pair p).next + 1 ∧ t.flag (F.INJ_D_CTL.REV p) = false) := by
  obtain ⟨outs, eval⟩ := State.evalPair_idle due none_ left right
  obtain ⟨x, hx⟩ : ∃ x : PairSt, x = ⟨(s.pair p).next + 1, heldOut (s.pair p).fwd (s.pair p).next false,
    heldOut (s.pair p).rev (s.pair p).next false, outs⟩ := ⟨_, rfl⟩
  rw [← hx] at eval
  have evaluated := State.pairTo_next due eval
  have after_next : x.next = (s.pair p).next + 1 := by rw [hx]
  obtain ⟨-, -, begun, -⟩ := due
  refine ⟨fun on after => ⟨s.pairShown p x, ?_, by rw [State.pair_pairShown, after_next], ?_⟩,
    fun off on after => ⟨s.pairShown p x, ?_, by rw [State.pair_pairShown, after_next], ?_⟩⟩
  · unfold execDirectionalHoldExpiry
    dsimp only
    rw [if_pos ⟨on, by omega⟩, ← after, evaluated]
  · rw [(State.flags_pairShown _ _).1, hx]
    exact heldOut_drops (by omega)
  · unfold execDirectionalHoldExpiry
    dsimp only
    rw [if_neg (by rw [off]; exact fun h => Bool.false_ne_true h.1), if_pos ⟨on, by omega⟩, ← after, evaluated]
  · rw [(State.flags_pairShown _ _).2, hx]
    exact heldOut_drops (by omega)

end

end Sys2Proof.Machine
end

section
/-!
PROOFS. What a firing and a release leave of the rules (R117, R118, R122, R125).
-/
namespace Sys2Proof.Machine
open Sys2Proof

/-- The records of the rules stay, and TRUE of rule `r` where it stands. -/
def ruleKept (r : Nat) (s t : State) : Prop :=
  t.inj.rules = s.inj.rules ∧ (s.flag (F.INJ_R_STAT.TRUE r) = true → t.flag (F.INJ_R_STAT.TRUE r) = true)

section
variable {r : Nat} {s t u : State}

theorem ruleKept.refl (s : State) : ruleKept r s s := ⟨rfl, id⟩

theorem ruleKept.trans (h : ruleKept r s t) (g : ruleKept r t u) : ruleKept r s u := ⟨g.1.trans h.1, fun on => g.2 (h.2 on)⟩

theorem ruleKept.of_rd (rules : t.inj.rules = s.inj.rules) (regs : t.rd (A.INJ_R_STAT r) = s.rd (A.INJ_R_STAT r)) : ruleKept r s t :=
  ⟨rules, fun on => (s.flag_of_get (f := F.INJ_R_STAT.TRUE r) (State.get_congr regs)).trans on⟩

theorem ruleKept.foldl {α : Type} {f : State → α → State} (h : ∀ u e, ruleKept r u (f u e)) (l : List α) (s : State) : ruleKept r s (l.foldl f s) := by
  induction l generalizing s with
  | nil => exact .refl s
  | cons e l ih => exact (h s e).trans (ih _)

theorem ruleKept.set_ne (s : State) {f : Field} (v : Nat) (h : A.INJ_R_STAT r ≠ f.addr) : ruleKept r s (s.set f v) :=
  .of_rd (by rw [State.set_inj]) (State.rd_set_ne _ _ h)

/-- A field above bit 0 leaves TRUE, in whatever word it stands. -/
theorem ruleKept.set_above (s : State) {f : Field} (v : Nat) (fits : f.lo + f.width ≤ 32) (above : 1 ≤ f.lo) : ruleKept r s (s.set f v) :=
  ⟨by rw [State.set_inj], fun on => (s.flag_of_get (State.get_set_apart _ (g := F.INJ_R_STAT.TRUE r) _ fits (.inl (show 0 + 1 ≤ f.lo from above)))).trans on⟩

theorem ruleKept.bump_ne (s : State) {f : Field} (h : A.INJ_R_STAT r ≠ f.addr) : ruleKept r s (s.bump f) := .set_ne s _ h

theorem ruleKept.raise_ne (s : State) {f : Field} (h : A.INJ_R_STAT r ≠ f.addr) : ruleKept r s (s.raise f) :=
  .of_rd (by rw [State.raise_inj]) (State.rd_raise_ne _ h)

/-- ACTIVE of a port is written 1 with a new decision, which leaves TRUE even where the port's word is the rule's. -/
theorem ruleKept.set_active (s : State) (p : Nat) : ruleKept r s (s.set (F.HJL_P_TRIP.ACTIVE p) 1) := by
  refine ⟨by rw [State.set_inj], fun on => ?_⟩
  by_cases same : A.HJL_P_TRIP p = A.INJ_R_STAT r
  · rw [show F.INJ_R_STAT.TRUE r = F.HJL_P_TRIP.ACTIVE p by rw [F.INJ_R_STAT.TRUE, F.HJL_P_TRIP.ACTIVE, same]]
    exact State.flag_set_one _ _ (by simp [F.HJL_P_TRIP.ACTIVE]) rfl
  · exact (s.flag_of_get (State.get_set_ne _ _ (Ne.symm same))).trans on

end

/-! ### Decisions (R74, R118, R122, R123) -/

section
variable {r : Nat} (low : r < 128) (s : State)

/-- A port with a decision that awaits its ACK shows it. -/
theorem ruleKept.tripRegs {p : Nat} {d : Trip} {l : List Trip} (waits : (s.port p).pending = d :: l) : ruleKept r s (s.tripRegs p) := by
  unfold State.tripRegs
  rw [waits]
  dsimp only
  exact ((((ruleKept.set_active s p).trans (.set_above _ _ (by simp [F.HJL_P_TRIP.SEQ]) (by simp [F.HJL_P_TRIP.SEQ]))).trans
    (.set_above _ _ (by simp [F.HJL_P_TRIP.INDEX]) (by simp [F.HJL_P_TRIP.INDEX]))).trans
    (.set_above _ _ (by simp [F.HJL_P_TRIP.SLOT1]) (by simp [F.HJL_P_TRIP.SLOT1]))).trans
    (.set_ne _ _ (by simp only [F.INJ_STATUS.PENDING, A.INJ_R_STAT, A.INJ_STATUS]; omega))

theorem ruleKept.newTrip (p index k : Nat) : ruleKept r s (s.newTrip p index k) := by
  obtain ⟨d, hd⟩ : ∃ d : Trip, d = ⟨index, (kvGet (fun _ => 0) (s.port p).tripSeq (tripTarget index) + 1) % 16, s.six, k, false, false⟩ := ⟨_, rfl⟩
  have open_ : d.acked = false := by rw [hd]
  unfold State.newTrip
  dsimp only
  rw [← hd]
  obtain ⟨x, hx⟩ : ∃ x : Port, x = { s.port p with
    trips := (s.port p).trips ++ [d], tripSeq := kvPut (fun _ => 0) (s.port p).tripSeq (tripTarget index)
      ((kvGet (fun _ => 0) (s.port p).tripSeq (tripTarget index) + 1) % 16) } := ⟨_, rfl⟩
  rw [← hx]
  have trips : x.trips = (s.port p).trips ++ [d] := by rw [hx]
  have more : x.pending ≠ [] := by
    unfold Port.pending
    rw [trips, List.filter_append, List.filter_cons_of_pos (by rw [open_]; rfl)]
    exact List.append_ne_nil_of_right_ne_nil _ (List.cons_ne_nil _ _)
  obtain ⟨e, l, waits⟩ := List.exists_cons_of_ne_nil more
  have shaped : ∀ w : LinkWord, ruleKept r s ((((s.setPort p x).sendWord p 25 w).sendWord p 26 w).tripRegs p) := fun w => by
    have sent : ruleKept r s (((s.setPort p x).sendWord p 25 w).sendWord p 26 w) := .of_rd rfl rfl
    refine sent.trans (.tripRegs _ (d := e) (l := l) ?_)
    rw [← waits]
    exact congrArg Port.pending (State.port_setPort_same s p x)
  exact shaped _

include low

theorem ruleKept.tripLink (m index k : Nat) : ruleKept r s (s.tripLink m index k) := by
  unfold State.tripLink
  split
  · exact .refl s
  · split
    · split
      · exact .refl s
      · exact .raise_ne s (by simp only [F.INJ_EVT.MERGED, A.INJ_R_STAT, A.INJ_EVT]; omega)
    · exact .newTrip s _ _ _

theorem ruleKept.driveTdo (n k j : Nat) : ruleKept r s (s.driveTdo n j k) := by
  have tdo : A.INJ_R_STAT r ≠ A.INJ_TDO := by simp only [A.INJ_R_STAT, A.INJ_TDO]; omega
  have stat : A.INJ_R_STAT r ≠ A.INJ_T_STAT n := by simp only [A.INJ_R_STAT, A.INJ_T_STAT]; omega
  have shown : ∀ u : State, ruleKept r u ((((u.set (bitField A.INJ_TDO n) 1).set (bitField A.INJ_TDO (16 + n)) 0).set (F.INJ_T_STAT.CMD n) 1).set
      (F.INJ_T_STAT.LATCHED n) 0) := fun u =>
    (((ruleKept.set_ne u _ tdo).trans (.set_ne _ _ tdo)).trans (.set_ne _ _ stat)).trans (.set_ne _ _ stat)
  have noted : ∀ (b : Prop) [Decidable b] (u : State), ruleKept r u (if b then u else u.noteTdo n k true) := fun b _ u => by
    split
    · exact .refl u
    · exact .of_rd rfl rfl
  unfold State.driveTdo
  dsimp only
  refine ruleKept.trans ?_ (shown _)
  refine ruleKept.trans ?_ (noted _ _)
  exact .of_rd rfl rfl

theorem ruleKept.interject (n k : Nat) (test : Bool) : ruleKept r s (s.interject n k test) := by
  have waits : ∀ (u : State) (hit : Sources → Bool), ruleKept r u (u.pendEvent hit k) := fun u hit =>
    .of_rd (congrArg InjSt.rules ((State.pendEvent_kept (.refl 270338 u) (.refl _)).parts .inj rfl))
      (State.rd_pendEvent _ _ _ (by simp only [A.INJ_R_STAT, A.TSK_T_STAT]; omega))
  unfold State.interject
  exact ruleKept.trans (.of_rd rfl rfl) (waits _ _)

theorem ruleKept.showDecision (n k cl td : Nat) (test : Bool) : ruleKept r s (s.showDecision n k cl td test) := by
  have last : A.INJ_R_STAT r ≠ A.INJ_LAST := by simp only [A.INJ_R_STAT, A.INJ_LAST]; omega
  have scap : A.INJ_R_STAT r ≠ F.INJ_SCAP_CTL.STATE.addr := by simp only [F.INJ_SCAP_CTL.STATE, A.INJ_SCAP_CTL, A.INJ_R_STAT]; omega
  have counted : ruleKept r s ((s.bump F.INJ_DEC_CNT.DEC).bump (F.INJ_R_STAT.DEC n)) :=
    (ruleKept.bump_ne s (by simp only [F.INJ_DEC_CNT.DEC, A.INJ_DEC_CNT, A.INJ_R_STAT]; omega)).trans
      (.set_above _ _ (by simp [F.INJ_R_STAT.DEC]) (by simp [F.INJ_R_STAT.DEC]))
  have latest : ∀ u : State, ruleKept r u ((((u.set F.INJ_LAST.RULE n).set F.INJ_LAST.TEST (b2n test)).set F.INJ_LAST.CLMASK cl).set F.INJ_LAST.TDOMASK td) :=
    fun u => (((ruleKept.set_ne u _ last).trans (.set_ne _ _ last)).trans (.set_ne _ _ last)).trans (.set_ne _ _ last)
  have told : ∀ u : State, ruleKept r u ((u.set64 A.INJ_LAST_SIX k).raise F.INJ_EVT.DECISION) := fun u =>
    ruleKept.trans (.of_rd (by rw [State.set64_inj]) (State.rd_set64_ne _ _ (by simp only [A.INJ_LAST_SIX, A.INJ_R_STAT]; omega)
      (by simp only [A.INJ_LAST_SIX, A.INJ_R_STAT]; omega))) (.raise_ne _ (by simp only [F.INJ_EVT.DECISION, A.INJ_R_STAT, A.INJ_EVT]; omega))
  have captured : ∀ (u : State) (x : InjSt), x.rules = u.inj.rules → ruleKept r u (({ u with inj := x } : State).set F.INJ_SCAP_CTL.STATE 2) := fun u x same => by
    refine ruleKept.trans ?_ (.set_ne _ _ scap)
    exact .of_rd same rfl
  have shown := (counted.trans (latest _)).trans (told _)
  unfold State.showDecision
  dsimp only
  split
  · exact shown.trans (captured _ _ rfl)
  · exact shown

theorem ruleKept.logFull (c : EvCode) (v k : Nat) (d : List Byte) (test : Bool) : ruleKept r s (s.logFull c v k d test) :=
  .of_rd (by rw [State.logFull_inj]) (s.rd_enqueue _ (by simp only [F.CEL_DROP.QUEUE, A.CEL_DROP, A.INJ_R_STAT]; omega)
    (by simp only [F.CEL_EVT.DROP, A.CEL_EVT, A.INJ_R_STAT]; omega))

theorem ruleKept.makeDecision (n k : Nat) (test : Bool) : ruleKept r s (s.makeDecision n k test) := by
  have links : ∀ (l : List Nat) (i : Nat) (u : State), ruleKept r u (l.foldl (fun t m => t.tripLink m i k) u) := fun l i u =>
    .foldl (fun t m => .tripLink low t m i k) l u
  have driven : ∀ (b : Bool) (l : List Nat) (u : State), ruleKept r u (if b then u else l.foldl (fun t m => t.driveTdo m n k) u) := fun b l u => by
    cases b
    · exact .foldl (fun t m => .driveTdo low t m k n) l u
    · exact .refl u
  have told : ∀ (b : Bool) (u : State), ruleKept r u (if b then u.interject n k test else u) := fun b u => by
    cases b
    · exact .refl u
    · exact .interject low u n k test
  have shown : ∀ (b : Bool) (cl td : Nat) (u : State), ruleKept r u (if b then u.showDecision n k cl td test else u) := fun b cl td u => by
    cases b
    · exact .refl u
    · exact .showDecision low u n k cl td test
  have noted : ∀ u : State, ruleKept r u (u.noteDecision false n k) := fun u => .of_rd rfl rfl
  unfold State.makeDecision
  dsimp only
  exact ((((((links _ _ s).trans (driven _ _ _)).trans (told _ _)).trans (noted _)).trans (shown _ _ _ _))).trans (.logFull low _ _ _ _ _ _)

/-! ### Groups (R125 to R127) -/

theorem ruleKept.sendVote (g st k : Nat) : ruleKept r s (s.sendVote g st k) := by
  have sent : ∀ (l : List Nat) (w : State → LinkWord) (u : State), ruleKept r u (l.foldl (fun t p => if t.portSends (40 + p) then t.sendWord (40 + p) 25 (w t) else t) u) :=
    fun l w u => .foldl (fun t p => by
      split
      · exact .of_rd rfl rfl
      · exact .refl t) l u
  have grouped : ∀ x, ruleKept r s ((s.setGroup g x).set (F.INJ_G_STAT.STATE g) st) := fun x =>
    ruleKept.trans (.of_rd rfl rfl) (.set_ne _ _ (by simp only [F.INJ_G_STAT.STATE, A.INJ_G_STAT, A.INJ_R_STAT]; omega))
  unfold State.sendVote
  dsimp only
  exact (grouped _).trans (sent _ (fun t => t.voteWord g) _)

theorem ruleKept.groupReset (g : Nat) : ruleKept r s (s.groupReset g) := by
  have votes : A.INJ_R_STAT r ≠ (F.INJ_G_STAT.VOTES g).addr := by simp only [F.INJ_G_STAT.VOTES, A.INJ_G_STAT, A.INJ_R_STAT]; omega
  unfold State.groupReset
  dsimp only
  split
  · refine ruleKept.trans ?_ (.set_ne _ _ votes)
    refine ruleKept.trans ?_ (.sendVote low _ g 0 s.six)
    exact .of_rd rfl rfl
  · exact .refl s

theorem ruleKept.pickupTry (g : Nat) (u : Pickup) : ruleKept r s (s.pickupTry g u) := by
  have dropped : ∀ t : State, ruleKept r t (t.dropPickup g u) := fun t => by
    unfold State.dropPickup
    dsimp only
    split
    · exact .of_rd rfl rfl
    · refine ruleKept.trans ?_ (.set_above _ _ (by simp [F.INJ_R_STAT.PICKUP]) (by simp [F.INJ_R_STAT.PICKUP]))
      exact .of_rd rfl rfl
  have counted : ∀ v, ruleKept r s (s.set (F.INJ_G_STAT.VOTES g) v) := fun v =>
    .set_ne _ _ (by simp only [F.INJ_G_STAT.VOTES, A.INJ_G_STAT, A.INJ_R_STAT]; omega)
  have noted : ∀ t : State, ruleKept r t (t.noteDecision true g u.six) := fun t => .of_rd rfl rfl
  have decided : ∀ t : State, ruleKept r t
      (((((t.dropPickup g u).makeDecision u.rule u.six u.test).noteDecision true g u.six).sendVote g 2 u.six).groupReset g) := fun t => by
    refine ruleKept.trans ?_ (.groupReset low _ _)
    refine ruleKept.trans ?_ (.sendVote low _ _ _ _)
    refine ruleKept.trans ?_ (noted _)
    exact (dropped t).trans (.makeDecision low _ _ _ _)
  unfold State.pickupTry
  dsimp only
  split
  · exact (counted _).trans (decided _)
  · exact counted _

theorem ruleKept.pickUp (g n k : Nat) (test : Bool) : ruleKept r s (s.pickUp g n k test) := by
  have late : ∀ (b : Bool) (u : State), ruleKept r u (if b then u.raise F.INJ_EVT.VOTE_LATE else u) := fun b u => by
    cases b
    · exact .refl u
    · exact .raise_ne u (by simp only [F.INJ_EVT.VOTE_LATE, A.INJ_EVT, A.INJ_R_STAT]; omega)
  have tried : ∀ u : State, ruleKept r u (((u.set (F.INJ_R_STAT.PICKUP n) 1).sendVote g 1 k).groupTry g) := fun u =>
    ((ruleKept.set_above u 1 (by simp [F.INJ_R_STAT.PICKUP]) (by simp [F.INJ_R_STAT.PICKUP])).trans (.sendVote low _ _ _ _)).trans
      (.foldl (fun t e => .pickupTry low t g e) _ _)
  unfold State.pickUp
  dsimp only
  refine ruleKept.trans ?_ (tried _)
  refine ruleKept.trans ?_ (late _ _)
  exact .of_rd rfl rfl

theorem ruleKept.fire (n k : Nat) (test : Bool) : ruleKept r s (s.fire n k test) := by
  unfold State.fire
  dsimp only
  split
  · exact .pickUp low s _ n k test
  · exact .makeDecision low s n k test

end

/-! ### One evaluation (R117) -/

section
variable {s : State} {r : Nat}

/-- A release of a rule's group leaves the rules and the rules' registers. -/
theorem State.groupRelease_leaves (low : r < 128) (n : Nat) : (s.groupRelease n).inj.rules = s.inj.rules ∧
    (s.groupRelease n).rd (A.INJ_R_STAT r) = s.rd (A.INJ_R_STAT r) := by
  unfold State.groupRelease
  split
  · exact ⟨(ruleKept.groupReset low s _).1, (s.groupReset_leaves _).2 _ (by simp only [A.INJ_R_STAT, A.INJ_G_STAT]; omega)⟩
  · exact ⟨rfl, rfl⟩

theorem State.rule_congr {t : State} (h : t.inj.rules = s.inj.rules) (n : Nat) : t.rule n = s.rule n := by
  unfold State.rule
  rw [h]

/-- The record and TRUE of a rule as an evaluation leaves them; the outputs of the rule by SIX are no part of what is compared. -/
theorem State.ruleStat_shows (x : RuleSt) (t : Nat) (test : Bool) : ((s.ruleStat r x t test).rule r).next = x.next ∧
    ((s.ruleStat r x t test).rule r).tru = x.tru ∧ ((s.ruleStat r x t test).rule r).armed = x.armed ∧
    (s.ruleStat r x t test).flag (F.INJ_R_STAT.TRUE r) = x.tru := by
  obtain ⟨y, hy⟩ : ∃ y : RuleSt, y = { x with outs := kvPut (fun _ => []) x.outs (t % histDepth) [⟨t, x.tru, true, test, false⟩] } := ⟨_, rfl⟩
  have record : (s.ruleStat r x t test).rule r = y := by
    unfold State.ruleStat
    dsimp only
    rw [← hy, State.rule_congr (s := s.setRule r y) (by rw [State.set_inj, State.set_inj])]
    exact kvGet_put_same _ _ _ _
  rw [record, hy]
  refine ⟨rfl, rfl, rfl, ?_⟩
  unfold State.ruleStat
  dsimp only
  rw [State.flag_of_get _ (State.get_set_apart _ _ (by simp [F.INJ_R_STAT.ARMED]) (by simp [F.INJ_R_STAT.ARMED, F.INJ_R_STAT.TRUE]))]
  exact State.flag_set_b2n _ _ (by simp [F.INJ_R_STAT.TRUE]) rfl

/-- A rule that is true at its next SIX is disarmed there (R117). -/
theorem State.evalRule_true (low : r < 128) (holds : (s.injAt (s.rule r).next).ruleTrue r (s.rule r).next = true) :
    ((s.evalRule r).rule r).next = (s.rule r).next + 1 ∧ ((s.evalRule r).rule r).tru = true ∧ (s.evalRule r).flag (F.INJ_R_STAT.TRUE r) = true ∧
      ((s.evalRule r).rule r).armed = false := by
  obtain ⟨x, hx⟩ : ∃ x : RuleSt, x = { s.ruleFrom r (s.rule r).next with next := (s.rule r).next + 1, tru := true, armed := false, lowRun := 0 } := ⟨_, rfl⟩
  obtain ⟨k, hk⟩ : ∃ k, k = (s.rule r).next := ⟨_, rfl⟩
  obtain ⟨test, armed, eq⟩ : ∃ test, ∃ armed : Bool, s.evalRule r = if armed then (s.ruleStat r x k test).fire r k test else s.ruleStat r x k test := by
    unfold State.evalRule
    dsimp only
    rw [if_pos holds, ← hx, ← hk]
    exact ⟨_, _, rfl⟩
  obtain ⟨next, tru, off, shown⟩ := s.ruleStat_shows (r := r) x k test
  have kept : ruleKept r (s.ruleStat r x k test) (s.evalRule r) := by
    rw [eq]
    split
    · exact .fire low _ _ _ _
    · exact .refl _
  obtain ⟨rules, stays⟩ := kept
  rw [State.rule_congr rules, next, tru, off, hx]
  exact ⟨rfl, rfl, stays (by rw [shown, hx]), rfl⟩

/-- A rule that is not true at its next SIX re-arms there when its dropout run completes (R117). -/
theorem State.evalRule_false (low : r < 128) (fails : (s.injAt (s.rule r).next).ruleTrue r (s.rule r).next = false) :
    ((s.evalRule r).rule r).next = (s.rule r).next + 1 ∧ ((s.evalRule r).rule r).tru = false ∧ (s.evalRule r).flag (F.INJ_R_STAT.TRUE r) = false ∧
      ((s.ruleFrom r (s.rule r).next).armed = false →
        (s.injAt (s.rule r).next).get (F.INJ_R_CTRL.DROPOUT r) ≤ min ((s.ruleFrom r (s.rule r).next).lowRun + 1) 65535 →
        ((s.evalRule r).rule r).armed = true) := by
  obtain ⟨k, hk⟩ : ∃ k, k = (s.rule r).next := ⟨_, rfl⟩
  rw [← hk] at fails ⊢
  obtain ⟨y, hy⟩ : ∃ y, y = s.ruleFrom r k := ⟨_, rfl⟩
  obtain ⟨low_, hl⟩ : ∃ n, n = min (y.lowRun + 1) 65535 := ⟨_, rfl⟩
  obtain ⟨rearm, hr⟩ : ∃ b : Bool, b = (!y.armed && decide ((s.injAt k).get (F.INJ_R_CTRL.DROPOUT r) ≤ low_)) := ⟨_, rfl⟩
  obtain ⟨x, hx⟩ : ∃ x : RuleSt, x = { y with next := k + 1, tru := false, armed := y.armed || rearm, lowRun := low_ } := ⟨_, rfl⟩
  have eq : s.evalRule r = if rearm then (s.ruleStat r x k false).groupRelease r else s.ruleStat r x k false := by
    unfold State.evalRule
    dsimp only
    rw [← hk, if_neg (by rw [fails]; exact Bool.false_ne_true), ← hy, ← hl, ← hr, ← hx]
  obtain ⟨next, tru, armed, shown⟩ := s.ruleStat_shows (r := r) x k false
  have kept : (s.evalRule r).inj.rules = (s.ruleStat r x k false).inj.rules ∧
      (s.evalRule r).rd (A.INJ_R_STAT r) = (s.ruleStat r x k false).rd (A.INJ_R_STAT r) := by
    rw [eq]
    split
    · exact State.groupRelease_leaves low _
    · exact ⟨rfl, rfl⟩
  obtain ⟨rules, regs⟩ := kept
  rw [State.rule_congr rules, next, tru, armed, State.flag_of_get (f := F.INJ_R_STAT.TRUE r) _ (State.get_congr regs), shown, hx]
  refine ⟨rfl, rfl, rfl, fun off due => ?_⟩
  rw [← hy, ← hl] at due
  rw [← hy] at off
  rw [hr, off, decide_eq_true due]
  rfl

end

/-! ### The commands (R111, R117) -/

section
variable {s : State} {r : Fin 128}

theorem execRuleEvaluate_evaluates {u : State} {x : RuleSt} (ready : (s.ruleReady r).1 = true) (after : u = (s.ruleReady r).2) (record : x = u.rule r) :
    ∃ t, execRuleEvaluate r s = .next t ∧ (t.rule r).next = x.next + 1 ∧ (t.rule r).tru = (u.injAt x.next).ruleTrue r x.next ∧
      t.flag (F.INJ_R_STAT.TRUE r) = (u.injAt x.next).ruleTrue r x.next ∧
      ((u.injAt x.next).ruleTrue r x.next = true → (t.rule r).armed = false) := by
  subst record
  have runs : execRuleEvaluate r s = .next (u.evalRule r) := by
    unfold execRuleEvaluate
    dsimp only
    rw [if_pos ready, ← after]
  refine ⟨_, runs, ?_⟩
  cases holds : (u.injAt (u.rule r).next).ruleTrue r (u.rule r).next
  · obtain ⟨next, tru, shown, -⟩ := State.evalRule_false r.isLt holds
    exact ⟨next, tru, shown, fun h => absurd h Bool.false_ne_true⟩
  · obtain ⟨next, tru, shown, off⟩ := State.evalRule_true r.isLt holds
    exact ⟨next, tru, shown, fun _ => off⟩

theorem execRuleRearm_rearms {u : State} {x : RuleSt} (ready : (s.ruleReady r).1 = true) (after : u = (s.ruleReady r).2) (record : x = u.rule r)
    (same : s.rule r = x) (from_ : s.ruleFrom r x.next = u.ruleFrom r x.next) (off : (u.ruleFrom r x.next).armed = false)
    (fails : (u.injAt x.next).ruleTrue r x.next = false) (long : (u.injAt x.next).get (F.INJ_R_CTRL.DROPOUT r) ≤ (u.ruleFrom r x.next).lowRun + 1)
    (fits : (u.injAt x.next).get (F.INJ_R_CTRL.DROPOUT r) ≤ 65535) :
    ∃ t, execRuleRearm r s = .next t ∧ (t.rule r).armed = true ∧ (t.rule r).next = x.next + 1 := by
  have due : ((s.ruleReady r).1 && !(s.ruleFrom r x.next).armed && !(u.injAt x.next).ruleTrue r x.next &&
      decide ((u.injAt x.next).get (F.INJ_R_CTRL.DROPOUT r) ≤ (s.ruleFrom r x.next).lowRun + 1)) = true := by
    rw [ready, from_, off, fails, decide_eq_true long]
    rfl
  have runs : execRuleRearm r s = .next (u.evalRule r) := by
    unfold execRuleRearm
    dsimp only
    rw [same, ← after, if_pos due]
  subst record
  obtain ⟨next, -, -, rearms⟩ := State.evalRule_false r.isLt fails
  exact ⟨_, runs, rearms off (le_min long fits), next⟩

end

/-- Settles O35, by one evaluation of the element, the pair and the rule whose SIX is due. -/
theorem elementsAndRulesEvaluate : Obligations.ElementsAndRulesEvaluate := by
  unfold Obligations.ElementsAndRulesEvaluate
  intro s n p r a b y
  exact ⟨execStepHoldExpiry_drops rfl, fun due left right => execDirectionalEvaluate_evaluates due left right rfl rfl,
    fun due ⟨none_, left, right⟩ => execDirectionalHoldExpiry_drops due none_ left right, fun ready => execRuleEvaluate_evaluates ready rfl rfl,
    fun ready => execRuleRearm_rearms ready rfl rfl⟩

end Sys2Proof.Machine
end

section
/-!
PROOFS. Sentences and records of the Loft (R263, R265 to R271, R282, R283).
-/
namespace Sys2Proof.Machine
open Sys2Proof

/-! ### What the archive's and the histograms' operations leave of the recipes -/

section
variable (s : State)

theorem State.recipe_congr {t : State} (h : t.lft.recs = s.lft.recs) (r : Nat) : t.recipe r = s.recipe r := by
  unfold State.recipe
  rw [h]

theorem State.recipe_setRecipe (r : Nat) (x : Recipe) : (s.setRecipe r x).recipe r = x := kvGet_put_same _ _ _ _

theorem State.setRecipe_arc (r : Nat) (x : Recipe) : (s.setRecipe r x).lft.arc = s.lft.arc := rfl

theorem State.arcWrite_archive (n : Nat) : (s.arcWrite n).lft.recs = s.lft.recs ∧ (s.arcWrite n).lft.arc = s.lft.arc ∧
    (s.arcWrite n).lft.nextNo = s.lft.nextNo := by
  have either : ∀ (u : State) (new : Bool), (if new then u.raise F.LFT_EVT.WEAR else u).lft = u.lft := fun u new => by
    split
    · exact u.raise_lft _
    · rfl
  unfold State.arcWrite
  dsimp only
  rw [either, State.set_lft, State.set_lft]
  exact ⟨rfl, rfl, rfl⟩

theorem freeGo_recipes (f need : Nat) : (freeGo f need s).lft.recs = s.lft.recs ∧ (freeGo f need s).lft.nextNo = s.lft.nextNo := by
  induction f generalizing s with
  | zero => exact ⟨rfl, rfl⟩
  | succ f ih =>
    unfold freeGo
    split
    · exact ih _
    · exact ⟨rfl, rfl⟩

theorem State.reserve_recipes (n need : Nat) : (s.reserve n need).lft.recs = s.lft.recs ∧ (s.reserve n need).lft.nextNo = s.lft.nextNo := by
  unfold State.reserve
  dsimp only
  rw [State.arcRegs_lft]
  exact freeGo_recipes s _ _

theorem State.finishRec_recipes (n st rearm dead : Nat) : (s.finishRec n st rearm dead).lft.recs = s.lft.recs ∧
    (s.finishRec n st rearm dead).lft.nextNo = s.lft.nextNo := by
  unfold State.finishRec
  dsimp only
  rw [State.arcRegs_lft]
  exact ⟨(State.arcWrite_archive _ _).1, (State.arcWrite_archive _ _).2.2⟩

theorem State.showRecipe_lft (r : Nat) : (s.showRecipe r).lft = s.lft := by
  unfold State.showRecipe
  dsimp only
  rw [State.set_lft, State.set_lft, State.set_lft]

theorem State.addGap_recipes (r n : Nat) (g : Gap) : (s.addGap r n g).lft.recs = s.lft.recs := by
  have written : ∀ u : State, ((u.arcWrite 16).raise F.LFT_EVT.GAP).lft.recs = u.lft.recs := fun u => by
    rw [State.raise_lft, (u.arcWrite_archive 16).1]
  unfold State.addGap
  dsimp only
  split
  · rw [State.bump_lft, written]
    rfl
  · exact written _

theorem State.histZero_recipes (u : Nat) : (s.histZero u).lft.recs = s.lft.recs := by
  unfold State.histZero
  rw [State.set_lft, State.set_lft]
  rfl

theorem State.histAdd_recipes (u : Nat) (v : Int) : (s.histAdd u v).lft.recs = s.lft.recs := by
  unfold State.histAdd
  dsimp only
  split
  · rw [State.bump_lft, State.bump_lft]
    rfl
  · rw [State.bump_lft]
    rfl

theorem State.histStep_recipes (u t : Nat) (v : Option Int) : (s.histStep u t v).lft.recs = s.lft.recs := by
  obtain ⟨z, hz⟩ : ∃ z, z = if (s.hist u).clear.any (fun k => k ≤ t) then s.histZero u else s := ⟨_, rfl⟩
  have cleared : z.lft.recs = s.lft.recs := by
    rw [hz]
    split
    · exact s.histZero_recipes u
    · rfl
  have added : ∀ (x : Int) (active : Bool), (if active then z.histAdd u x else z).lft.recs = z.lft.recs := by
    intro x active
    split
    · exact z.histAdd_recipes u x
    · rfl
  have attached : ∀ y : State, ((y.setHist u { y.hist u with next := t + 1 }).histAttach u t).lft.recs = y.lft.recs := fun _ => rfl
  unfold State.histStep
  dsimp only
  rw [← hz]
  refine (attached _).trans ?_
  split
  next x => exact (added x _).trans cleared
  next => exact cleared

theorem histGo_recipes (f u : Nat) : (histGo f u s).lft.recs = s.lft.recs := by
  induction f generalizing s with
  | zero => rfl
  | succ f ih =>
    unfold histGo
    split
    · exact (ih _).trans (s.histStep_recipes u _ _)
    · rfl

theorem State.histsTo_recipe (r : Nat) : s.histsTo.recipe r = s.recipe r :=
  State.recipe_congr _ (foldl_keeps (fun t : State => t.lft.recs) (fun t u => histGo_recipes t _ u) _ _) r

end

/-! ### A sentence takes its SIX (R265, R266, R270) -/

section
variable (s : State) (r : Fin 8)

theorem State.sentenceMove_setRecipe (x : Recipe) (t c run timer : Nat) :
    (s.setRecipe r x).sentenceMove r t c run timer = s.sentenceMove r t c run timer := rfl

/-- The sentence has moved on to the next SIX before it evaluates; its run and its timer are those of the state before. -/
theorem State.sentenceRun_moved (t k : Nat) :
    (s.setRecipe r { s.recipe r with next := k }).sentenceRun r t = s.sentenceRun r t := by
  unfold State.sentenceRun
  rw [State.recipe_setRecipe]
  rfl

theorem State.sentenceTimer_moved (k : Nat) : (s.setRecipe r { s.recipe r with next := k }).sentenceTimer r = s.sentenceTimer r := by
  unfold State.sentenceTimer
  rw [State.recipe_setRecipe]

/-- Opening a record leaves the sentence of its recipe at its SIX. -/
theorem State.openRecord_next (t cmask : Nat) (host : Bool) : ((s.openRecord r t cmask host).recipe r).next = (s.recipe r).next := by
  have shown : ∀ (u : State) (n need v : Nat),
      ((((u.reserve n need).dmaShow 0 1).bump (F.LFT_R_STAT.RECS r)).set (F.LFT_R_LAST_REC.VALUE r) v).lft.recs = u.lft.recs := by
    intro u n need v
    rw [State.set_lft, State.bump_lft, State.dmaShow_lft, (u.reserve_recipes n need).1]
  unfold State.openRecord
  rw [State.recipe_congr _ (shown _ _ _ _), State.recipe_setRecipe]
  rfl

theorem State.retrigger_recipe (t cmask : Nat) (host : Bool) (d : LftRec) : (s.retrigger t cmask host d).recipe r = s.recipe r := by
  unfold State.retrigger
  exact (State.recipe_congr _ (State.reserve_recipes _ _ _).1 r).trans rfl

/-- The state in which the record of a trigger stands: opened, or extended. -/
def State.recorded (s : State) (r t cmask : Nat) (host : Bool) : State :=
  match s.openRec r with
  | some d => s.retrigger t cmask host d
  | none => s.openRecord r t cmask host

/-- The recipe whose sentence a trigger at SIX `t` puts back into clause 0. -/
def State.triggered (s : State) (r t : Nat) : Recipe :=
  { s.recipe r with
    clause := 0, run := 0, timer := 0, host := false,
    past := (t + 1, if (s.openRec r).any LftRec.extend then some 0 else none) :: (s.recipe r).past.take 1023 }

theorem State.recipeTrigger_eq (t cmask : Nat) (host : Bool) : s.recipeTrigger r t cmask host =
    (((((s.recorded r t cmask host).setRecipe r ((s.recorded r t cmask host).triggered r t)).set64 (A.LFT_R_TRIG_SIX r) t).raise
      F.LFT_EVT.TRIGGER).showRecipe r) := rfl

theorem State.recorded_next (t cmask : Nat) (host : Bool) : ((s.recorded r t cmask host).recipe r).next = (s.recipe r).next := by
  unfold State.recorded
  split
  next d _ => rw [State.retrigger_recipe]
  next => exact s.openRecord_next r t cmask host

theorem State.rd_showRecipe_ne {a : Nat} (stat : a ≠ A.LFT_R_STAT r) (status : a ≠ A.LFT_STATUS) : (s.showRecipe r).rd a = s.rd a := by
  unfold State.showRecipe
  dsimp only
  rw [State.rd_set_ne _ _ status, State.rd_set_ne _ _ stat, State.rd_set_ne _ _ stat]

theorem State.showRecipe_recipe (q : Nat) : (s.showRecipe r).recipe q = s.recipe q :=
  State.recipe_congr _ (congrArg LftSt.recs (s.showRecipe_lft r)) q

/-- A trigger: the sentence stands in clause 0 and no host trigger waits, at the SIX that its trigger word shows. -/
theorem State.recipeTrigger_shows (t cmask : Nat) (host : Bool) :
    ((s.recipeTrigger r t cmask host).recipe r).clause = 0 ∧ ((s.recipeTrigger r t cmask host).recipe r).next = (s.recipe r).next ∧
      ((s.recipeTrigger r t cmask host).recipe r).host = false ∧ (s.recipeTrigger r t cmask host).get64 (A.LFT_R_TRIG_SIX r) = t % 2 ^ 64 ∧
      (s.recipeTrigger r t cmask host).flag F.LFT_EVT.TRIGGER = true := by
  rw [State.recipeTrigger_eq]
  obtain ⟨u, hu⟩ : ∃ u, u = s.recorded r t cmask host := ⟨_, rfl⟩
  rw [← hu]
  have same : ((((u.setRecipe r (u.triggered r t)).set64 (A.LFT_R_TRIG_SIX r) t).raise F.LFT_EVT.TRIGGER).showRecipe r).recipe r =
      u.triggered r t := by
    rw [State.showRecipe_recipe, State.recipe_congr _ (congrArg LftSt.recs (State.raise_lft _ _)),
      State.recipe_congr _ (congrArg LftSt.recs (State.set64_lft _ _ _)), State.recipe_setRecipe]
  rw [same]
  refine ⟨rfl, (show (u.triggered r t).next = (u.recipe r).next from rfl).trans ?_, rfl, ?_, ?_⟩
  · rw [hu, State.recorded_next]
  · rw [State.get64_congr _ (State.rd_showRecipe_ne _ r (by simp only [A.LFT_R_TRIG_SIX, A.LFT_R_STAT]; omega)
        (by simp only [A.LFT_R_TRIG_SIX, A.LFT_STATUS]; omega))
      (State.rd_showRecipe_ne _ r (by simp only [A.LFT_R_TRIG_SIX, A.LFT_R_STAT]; omega)
        (by simp only [A.LFT_R_TRIG_SIX, A.LFT_STATUS]; omega)),
      State.get64_congr _ (State.rd_raise_ne _ (show A.LFT_R_TRIG_SIX r ≠ A.LFT_EVT by simp only [A.LFT_R_TRIG_SIX, A.LFT_EVT]; omega))
        (State.rd_raise_ne _ (show A.LFT_R_TRIG_SIX r + 4 ≠ A.LFT_EVT by simp only [A.LFT_R_TRIG_SIX, A.LFT_EVT]; omega)),
      State.get64_set64]
  · rw [State.flag_congr (State.rd_showRecipe_ne _ r (show A.LFT_EVT ≠ A.LFT_R_STAT r by simp only [A.LFT_EVT, A.LFT_R_STAT]; omega)
      (show A.LFT_EVT ≠ A.LFT_STATUS by decide))]
    exact State.flag_raise _ _ (by decide) rfl

/-- The state after a sentence without a host trigger: its recipe was `x`, and `move` is where it goes after SIX `k`. -/
def State.sentenceGoes (u : State) (r k : Nat) (x : Recipe) (run timer : Nat) (move : Option Nat) : State :=
  match move with
  | some c =>
    if c = u.get (F.LFT_R_CTL.LAST r) then u.recipeTrigger r k (u.coincidence r k) false
    else (u.setRecipe r { x with clause := c, run := 0, timer := 0, next := k + 1, past := (k + 1, some c) :: x.past.take 1023 }).showRecipe r
  | none => u.setRecipe r { x with run := run, timer := timer, next := k + 1 }

/-- The state whose sentence has its next SIX taken. -/
def State.sentenceTaken (s : State) (r : Nat) : State := s.setRecipe r { s.recipe r with next := (s.recipe r).next + 1 }

theorem State.sentenceStep_eq : s.sentenceStep r = if (s.recipe r).host then (s.sentenceTaken r).recipeTrigger r (s.recipe r).next 0 true
    else (s.sentenceTaken r).sentenceGoes r (s.recipe r).next (s.recipe r) ((s.sentenceTaken r).sentenceRun r (s.recipe r).next)
      ((s.sentenceTaken r).sentenceTimer r) ((s.sentenceTaken r).sentenceMove r (s.recipe r).next (s.recipe r).clause
        ((s.sentenceTaken r).sentenceRun r (s.recipe r).next) ((s.sentenceTaken r).sentenceTimer r)) := rfl

/-- What the three ways of a sentence's step leave of its recipe. -/
theorem State.sentenceStep_shows :
    let x := s.recipe r
    let k := x.next
    let move := s.sentenceMove r k x.clause (s.sentenceRun r k) (s.sentenceTimer r)
    let last := s.get (F.LFT_R_CTL.LAST r)
    (x.host = false → move = none → (s.sentenceStep r).recipe r = { x with run := s.sentenceRun r k, timer := s.sentenceTimer r, next := k + 1 }) ∧
    (∀ c, x.host = false → move = some c → c ≠ last → ((s.sentenceStep r).recipe r).clause = c ∧ ((s.sentenceStep r).recipe r).run = 0 ∧
      ((s.sentenceStep r).recipe r).timer = 0 ∧ ((s.sentenceStep r).recipe r).next = k + 1) ∧
    (x.host = true ∨ move = some last → ((s.sentenceStep r).recipe r).clause = 0 ∧ ((s.sentenceStep r).recipe r).next = k + 1 ∧
      ((s.sentenceStep r).recipe r).host = false ∧ (s.sentenceStep r).get64 (A.LFT_R_TRIG_SIX r) = k % 2 ^ 64 ∧
      (s.sentenceStep r).flag F.LFT_EVT.TRIGGER = true) := by
  intro x k move last
  obtain ⟨u, hu⟩ : ∃ u, u = s.sentenceTaken r := ⟨_, rfl⟩
  have run : u.sentenceRun r k = s.sentenceRun r k := by rw [hu]; exact s.sentenceRun_moved r k (k + 1)
  have timer : u.sentenceTimer r = s.sentenceTimer r := by rw [hu]; exact s.sentenceTimer_moved r (k + 1)
  have lasts : u.get (F.LFT_R_CTL.LAST r) = last := by rw [hu]; rfl
  have next : (u.recipe r).next = k + 1 := by rw [hu, State.sentenceTaken, State.recipe_setRecipe]
  have shape : s.sentenceStep r = if x.host then u.recipeTrigger r k 0 true
      else u.sentenceGoes r k x (s.sentenceRun r k) (s.sentenceTimer r) move := by
    rw [State.sentenceStep_eq, ← hu, run, timer, hu, State.sentenceTaken, State.sentenceMove_setRecipe]
  have triggers : ∀ m h, ((u.recipeTrigger r k m h).recipe r).clause = 0 ∧ ((u.recipeTrigger r k m h).recipe r).next = k + 1 ∧
      ((u.recipeTrigger r k m h).recipe r).host = false ∧ (u.recipeTrigger r k m h).get64 (A.LFT_R_TRIG_SIX r) = k % 2 ^ 64 ∧
      (u.recipeTrigger r k m h).flag F.LFT_EVT.TRIGGER = true := fun m h => by
    rw [← next]
    exact u.recipeTrigger_shows r k m h
  rw [shape]
  refine ⟨fun noHost stays => ?_, fun c noHost goes other => ?_, fun fires => ?_⟩
  · rw [if_neg (by rw [noHost]; exact Bool.false_ne_true), stays]
    exact State.recipe_setRecipe _ _ _
  · rw [if_neg (by rw [noHost]; exact Bool.false_ne_true), goes, State.sentenceGoes, lasts, if_neg other, State.showRecipe_recipe,
      State.recipe_setRecipe]
    exact ⟨rfl, rfl, rfl, rfl⟩
  · cases host : x.host with
    | true =>
      rw [if_pos rfl]
      exact triggers 0 true
    | false =>
      have goes : move = some last := fires.resolve_left (by rw [host]; exact Bool.false_ne_true)
      rw [if_neg Bool.false_ne_true, goes, State.sentenceGoes, lasts, if_pos rfl]
      exact triggers _ false

/-- A sentence's step with the histograms behind it, of the state in which its sources stand evaluated. -/
theorem sentenceStep_outcome (o : Host.Outcome State Fault Refusal) (ran : o = .next (s.sentenceStep r).histsTo) :
    let x := s.recipe r
    let k := x.next
    let move := s.sentenceMove r k x.clause (s.sentenceRun r k) (s.sentenceTimer r)
    let last := s.get (F.LFT_R_CTL.LAST r)
    (x.host = false → move = none → ∃ t, o = .next t ∧
      t.recipe r = { x with run := s.sentenceRun r k, timer := s.sentenceTimer r, next := k + 1 }) ∧
    (∀ c, x.host = false → move = some c → c ≠ last → ∃ t, o = .next t ∧ (t.recipe r).clause = c ∧ (t.recipe r).run = 0 ∧
      (t.recipe r).timer = 0 ∧ (t.recipe r).next = k + 1) ∧
    (x.host = true ∨ move = some last → ∃ t, o = .next t ∧ (t.recipe r).clause = 0 ∧ (t.recipe r).next = k + 1 ∧ (t.recipe r).host = false ∧
      t.get64 (A.LFT_R_TRIG_SIX r) = k % 2 ^ 64 ∧ t.flag F.LFT_EVT.TRIGGER = true) := by
  intro x k move last
  obtain ⟨stays, goes, fires⟩ := s.sentenceStep_shows r
  have recipe := (s.sentenceStep r).histsTo_recipe r
  have rd : ∀ a, a < A.LFT_H_CTL 0 → (s.sentenceStep r).histsTo.rd a = (s.sentenceStep r).rd a := (State.histsTo_leaves _).2
  refine ⟨fun noHost none_ => ⟨_, ran, recipe.trans (stays noHost none_)⟩, fun c noHost some_ other => ⟨_, ran, ?_⟩, fun either => ⟨_, ran, ?_⟩⟩
  · rw [recipe]
    exact goes c noHost some_ other
  · rw [recipe, State.get64_congr _ (rd _ (by simp only [A.LFT_R_TRIG_SIX, A.LFT_H_CTL]; omega))
      (rd _ (by simp only [A.LFT_R_TRIG_SIX, A.LFT_H_CTL]; omega)), State.flag_congr (f := F.LFT_EVT.TRIGGER) (rd A.LFT_EVT (by decide))]
    exact fires either

/-- A timeout that is due always moves the sentence. -/
theorem State.sentenceMove_due {t c run timer : Nat} (limited : s.get (F.LFT_R_C_TIMEOUT.TIMEOUT r c) ≠ 0)
    (due : s.get (F.LFT_R_C_TIMEOUT.TIMEOUT r c) ≤ timer) : s.sentenceMove r t c run timer ≠ none := by
  unfold State.sentenceMove
  dsimp only
  have ends : (s.get (F.LFT_R_C_TIMEOUT.TIMEOUT r c) != 0 && decide (s.get (F.LFT_R_C_TIMEOUT.TIMEOUT r c) ≤ timer)) = true := by
    simp [limited, due]
  rw [ends, if_pos (show true = true from rfl), ← apply_ite some]
  exact Option.some_ne_none _

end

/-! ### The host's trigger (R270) -/

section
variable {s : State} {r : Fin 8}

theorem State.sentenceRuns_checked {pf : Fin 2} {w : Word} (a : Nat) (right : Option Nat) (q : Fin 8) :
    (s.checked pf a w right).sentenceRuns q = s.sentenceRuns q := by
  have recs : (s.checked pf a w right).recipe q = s.recipe q := State.recipe_congr _ (congrArg LftSt.recs (s.checked_lft pf a w right)) q
  unfold State.sentenceRuns State.lftRuns State.openRec
  rw [recs, State.flag_checked s pf a w right (f := F.LFT_STATUS.RUN) (by decide) (by decide) (by decide),
    State.flag_checked s pf a w right (f := F.LFT_R_CTL.EN q) (by simp only [F.LFT_R_CTL.EN, A.LFT_R_CTL, A.ENG_EVT]; omega)
      (by simp only [F.LFT_R_CTL.EN, A.LFT_R_CTL, A.CEL_DROP]; omega) (by simp only [F.LFT_R_CTL.EN, A.LFT_R_CTL, A.CEL_EVT]; omega)]
  cases (s.recipe q).recno with
  | none => rfl
  | some n =>
    dsimp only [Option.bind_some]
    rw [s.rec?_congr (congrArg LftSt.arc (s.checked_lft pf a w right))]

theorem lftTrig_spec {pf : Fin 2} {w : Word} (may : s.permits pf A.LFT_TRIG w (some 0)) (mask : fieldOf w 0 8 = 2 ^ r.val)
    (runs : s.sentenceRuns r = true) : ∃ t, exec (.lftTrig pf w) s = .next t ∧ (t.recipe r).host = true := by
  obtain ⟨u, hu⟩ : ∃ u, u = s.checked pf A.LFT_TRIG w (some 0) := ⟨_, rfl⟩
  have one : maskBits 8 w.toNat = [r.val] := by
    have low : w.toNat % 2 ^ 8 = 2 ^ r.val := by
      rw [← mask, fieldOf, Nat.pow_zero, Nat.div_one]
    rw [← maskBits_pow r, ← low]
    unfold maskBits
    exact List.filter_congr (fun i hi => (bit_mod_pow (List.mem_range.mp hi)).symm)
  have still : u.sentenceRuns r = true := by rw [hu, State.sentenceRuns_checked, runs]
  refine ⟨u.setRecipe r { u.recipe r with host := true }, ?_, by rw [State.recipe_setRecipe]⟩
  show execLftTrig pf w s = _
  unfold execLftTrig
  rw [show needsOperate = some 0 from rfl, whenAllowed_acts s pf A.LFT_TRIG w (some 0) may rfl, ← hu]
  dsimp only
  rw [one, List.foldl_cons, List.foldl_nil, if_pos still]

end

/-! ### Records close, skip and are archived (R268, R271, R283) -/

section
variable {s : State} {r : Fin 8} {d : LftRec}

/-- The record that a recipe's number names. -/
theorem State.rec_of_open (h : s.openRec r = some d) : s.rec? d.recno = some d := by
  unfold State.openRec at h
  obtain ⟨n, -, found⟩ := Option.bind_eq_some_iff.mp h
  rwa [s.recno_of_rec found]

/-- The end that `finishRec` gives a record. -/
def LftRec.ended (d : LftRec) (st rearm dead : Nat) : LftRec :=
  { d with
    state := st, rearm := rearm, dead := dead, cutAt := none, room := 0,
    size := ({ d with state := st, rearm := rearm, dead := dead, cutAt := none } : LftRec).bytes.length }

theorem State.finishRec_rec (found : s.rec? d.recno = some d) (st rearm dead : Nat) :
    (s.finishRec d.recno st rearm dead).rec? d.recno = some (d.ended st rearm dead) := by
  have first := s.rec?_modRec (fun y => { y with state := st, rearm := rearm, dead := dead, cutAt := none }) (fun _ => rfl) found
  have second := State.rec?_modRec _ (fun y => { y with size := y.bytes.length, room := 0 }) (fun _ => rfl) first
  have kept : ∀ (u : State) (n : Nat), ((u.arcWrite n).arcRegs).rec? d.recno = u.rec? d.recno := fun u n =>
    State.rec?_congr _ ((congrArg LftSt.arc (State.arcRegs_lft _)).trans (u.arcWrite_archive n).2.1) _
  unfold State.finishRec
  dsimp only
  rw [kept]
  exact second

theorem State.dmaZero_lft (t : State) : t.dmaZero.lft = t.lft := by
  unfold State.dmaZero
  split
  · rfl
  · exact t.dmaShow_lft 0 2

theorem State.restartSentence_recno (t : State) (k : Nat) : ((t.restartSentence r k).recipe r).recno = (t.recipe r).recno := by
  unfold State.restartSentence
  dsimp only
  rw [State.showRecipe_recipe, State.recipe_setRecipe]

theorem State.restartSentence_arc (t : State) (k : Nat) : (t.restartSentence r k).lft.arc = t.lft.arc := by
  unfold State.restartSentence
  dsimp only
  rw [State.showRecipe_lft]
  rfl

/-- Record `d` of recipe `r` ended in the archive, its recipe without a record, and the recipe's longest dead time. -/
def State.recordEnded (s : State) (r : Nat) (d : LftRec) : State :=
  let f := (s.finishRec d.recno 2 s.six (s.six - d.trig)).setRecipe r { s.recipe r with recno := none }
  f.set64 (A.LFT_R_DEAD_MAX r) (max (s.six - d.trig) (f.get64 (A.LFT_R_DEAD_MAX r)))

/-- The sentence of the recipe behind its record. -/
def State.sentenceFreed (s : State) (r k : Nat) (d : LftRec) : State :=
  if d.extend && d.stop.isNone then s.showRecipe r else s.restartSentence r k

theorem State.recordEnded_shows (found : s.rec? d.recno = some d) : ((s.recordEnded r d).recipe r).recno = none ∧
    (s.recordEnded r d).rec? d.recno = some (d.ended 2 s.six (s.six - d.trig)) := by
  unfold State.recordEnded
  dsimp only
  refine ⟨?_, ?_⟩
  · rw [State.recipe_congr _ (congrArg LftSt.recs (State.set64_lft _ _ _)), State.recipe_setRecipe]
  · rw [State.rec?_congr _ (congrArg LftSt.arc (State.set64_lft _ _ _)), State.rec?_congr _ (State.setRecipe_arc _ _ _),
      State.finishRec_rec found]

theorem State.sentenceFreed_shows (u : State) (k : Nat) : ((u.sentenceFreed r k d).recipe r).recno = (u.recipe r).recno ∧
    (u.sentenceFreed r k d).lft.arc = u.lft.arc := by
  unfold State.sentenceFreed
  split
  · rw [State.showRecipe_recipe, State.showRecipe_lft]
    exact ⟨rfl, rfl⟩
  · exact ⟨u.restartSentence_recno k, u.restartSentence_arc k⟩

theorem recordClose_spec (stands : s.openRec r = some d) (runs : s.lftRuns = true) (done : d.upTo < (s.recipe r).pos)
    (hists : s.histWaits d = false) : ∃ t, exec (.recordClose r) s = .next t ∧ (t.recipe r).recno = none ∧ t.flag F.LFT_EVT.RECORD = true ∧
      (t.rec? d.recno).map (fun e => (e.state, e.rearm, e.dead)) = some (2, s.six, s.six - d.trig) := by
  obtain ⟨closed, ended⟩ := State.recordEnded_shows (r := r) (s.rec_of_open stands)
  obtain ⟨recno, arc⟩ := (s.recordEnded r d).sentenceFreed_shows (r := r) (d := d) (s.recordEnded r d).six
  obtain ⟨v, hv⟩ : ∃ v, v = (s.recordEnded r d).sentenceFreed r (s.recordEnded r d).six d := ⟨_, rfl⟩
  have lft : (v.dmaZero.raise F.LFT_EVT.RECORD).lft = v.lft := by rw [State.raise_lft, State.dmaZero_lft]
  refine ⟨v.dmaZero.raise F.LFT_EVT.RECORD, ?_, ?_, State.flag_raise _ _ (by decide) rfl, ?_⟩
  · show execRecordClose r s = _
    unfold execRecordClose
    rw [stands]
    dsimp only
    rw [if_pos ⟨runs, done, by rw [hists]; rfl⟩, hv]
    rfl
  · rw [State.recipe_congr _ (congrArg LftSt.recs lft), hv, recno, closed]
  · rw [State.rec?_congr (s.recordEnded r d) ((congrArg LftSt.arc lft).trans (by rw [hv, arc])), ended]
    rfl

theorem State.skipTo_recipe (e cause : Nat) : (s.skipTo r e cause d).recipe r = { s.recipe r with pos := e, lastQ := [], lastB := [] } :=
  State.recipe_setRecipe _ _ _

theorem gapSkip_spec (stands : s.openRec r = some d) (runs : s.lftRuns = true) (more : (s.recipe r).pos ≤ d.upTo)
    (behind : (s.recipe r).pos + 16711680 ≤ s.six) : ∃ t, exec (.gapSkip r) s = .next t ∧ (t.recipe r).pos = s.six - 16646144 ∧
      (t.recipe r).recno = (s.recipe r).recno := by
  refine ⟨(s.skipTo r (s.six - 16646144) 0 d).showRecipe r, ?_, ?_⟩
  · show execGapSkip r s = _
    unfold execGapSkip
    rw [stands]
    exact if_pos ⟨runs, more, behind⟩
  · rw [State.showRecipe_recipe, State.skipTo_recipe]
    exact ⟨rfl, rfl⟩

theorem State.scapRearm_lft (t : State) : t.scapRearm.lft = t.lft := by
  unfold State.scapRearm
  rw [State.set_lft]

theorem State.scapRearm_flag (t : State) : t.scapRearm.flag F.LFT_EVT.SCAP_ARCHIVED = t.flag F.LFT_EVT.SCAP_ARCHIVED :=
  State.flag_congr (by unfold State.scapRearm; exact State.rd_set_ne _ _ (by decide))

theorem scapArchived_spec (service : s.opstate = 0) (runs : s.lftRuns = true) (frozen : s.get F.INJ_SCAP_CTL.STATE = 3) :
    ∃ t, exec .scapArchived s = .next t ∧ t.inj.scap = [] ∧ t.lft.nextNo = s.lft.nextNo + 1 ∧ t.flag F.LFT_EVT.SCAP_ARCHIVED = true := by
  have counted : ∀ (u : State) (d : LftRec) (n k dead : Nat), ((((((u.reserve d.recno n).finishRec d.recno 2 k dead).dmaShow 5 2).raise
      F.LFT_EVT.SCAP_ARCHIVED).scapRearm).lft.nextNo = u.lft.nextNo) := fun u d n k dead => by
    rw [State.scapRearm_lft, State.raise_lft, State.dmaShow_lft, (State.finishRec_recipes _ _ _ _ _).2, (State.reserve_recipes _ _ _).2]
  refine ⟨_, if_pos ⟨service, runs, frozen⟩, (State.scapRearm_shows _).1, (counted _ _ _ _ _).trans rfl, ?_⟩
  rw [State.scapRearm_flag]
  exact State.flag_raise _ _ (by decide) rfl

end

/-- Settles O47: a step of a sentence in either command, the host's trigger, and the records by their rules above. -/
theorem sentencesAndRecords : Obligations.SentencesAndRecords := by
  intro s r pf w d p limit u x k last move steps
  have step : p.1 = true → exec (.sentenceStep r) s = .next (u.sentenceStep r).histsTo := fun ready =>
    congrArg Host.Outcome.next (if_pos ready)
  have timeout : p.1 = true → limit ≠ 0 → limit ≤ s.sentenceTimer r → exec (.clauseTimeout r) s = .next (u.sentenceStep r).histsTo :=
    fun ready limited due => congrArg Host.Outcome.next (if_pos ⟨ready, limited, due⟩)
  refine ⟨fun ready => ⟨sentenceStep_outcome u r _ (step ready), fun limited due => ⟨sentenceStep_outcome u r _ (timeout ready limited due),
    fun same still => ?_⟩⟩, lftTrig_spec, recordClose_spec, gapSkip_spec, scapArchived_spec⟩
  have timer : u.sentenceTimer r = s.sentenceTimer r := by
    unfold State.sentenceTimer
    rw [same]
  exact u.sentenceMove_due r (by rw [still]; exact limited) (by rw [still, timer]; exact due)
end Sys2Proof.Machine
end

section
/-!
PROOFS. Replays of Loft records (R248 to R251).
-/
namespace Sys2Proof.Machine
open Sys2Proof

/-! ### What the access check leaves of a start's conditions (R248) -/

section
variable (s : State) (pf reg : Nat) (w : Word) (right : Option Nat)

/-- A register word that no denial of either function writes. -/
def Undenied (a : Nat) : Prop := a % 0x1000000 ≠ A.ENG_DENY_CNT ∧ a % 0x1000000 ≠ A.ENG_DENY_LAST ∧ a % 0x1000000 ≠ A.ENG_EVT

theorem State.deny_log (cause off : Nat) {a : Nat} (own : Undenied a) : ∃ (u : State) (b : List Byte), s.deny pf cause off = u.log 0x008B 0 b ∧
    u.rd a = s.rd a := by
  obtain ⟨cnt, last, evt⟩ := own
  have cntAt : a ≠ A.ENG_DENY_CNT + fnShift pf := by
    rintro rfl
    simp only [A.ENG_DENY_CNT, fnShift] at cnt; omega
  have lastAt : a ≠ A.ENG_DENY_LAST + fnShift pf := by
    rintro rfl
    simp only [A.ENG_DENY_LAST, fnShift] at last; omega
  have evtAt : a ≠ A.ENG_EVT := by
    rintro rfl
    simp only [A.ENG_EVT] at evt; omega
  refine ⟨_, _, rfl, ?_⟩
  rw [State.rd_raise_ne _ evtAt, State.rd_set_ne _ _ lastAt, State.rd_set_ne _ _ lastAt, State.rd_bump_ne _ cntAt]

/-- A check leaves a field what it was where an entry of the Cellar does. -/
theorem State.get_checked_log {f : Field} (own : Undenied f.addr) (logged : ∀ (u : State) (b : List Byte), (u.log 0x008B 0 b).get f = u.get f) :
    (s.checked pf reg w right).get f = s.get f := by
  have touched : (s.touch pf).get f = s.get f := State.get_congr (s.rd_touch pf f.addr)
  have denied : ∀ cause, ((s.touch pf).deny pf cause reg).get f = s.get f := fun cause => by
    obtain ⟨u, b, eq, rd⟩ := (s.touch pf).deny_log pf cause reg own
    rw [eq, logged, State.get_congr rd, touched]
  unfold State.checked State.gate
  dsimp only
  split
  · exact denied 4
  · split
    · exact denied _
    · split
      · exact denied 4
      · split
        · exact denied 4
        · exact touched

/-- An entry that the full queue drops counts in the high half of its word. -/
theorem State.get_log_low (c v : Nat) (b : List Byte) {f : Field} (evt : f.addr ≠ A.CEL_EVT) (low : f.lo + f.width ≤ 16) :
    (s.log c v b).get f = s.get f := by
  unfold State.log State.logAt State.logFull State.enqueue
  split
  · rfl
  · split
    · rfl
    · dsimp only
      rw [State.get_raise_ne _ evt]
      exact State.get_bump_apart _ (show 16 + 16 ≤ 32 by decide) (.inl low)

theorem State.rd_checked_of {a : Nat} (own : Undenied a) (h : a ≠ A.CEL_DROP) (g : a ≠ A.CEL_EVT) : (s.checked pf reg w right).rd a = s.rd a := by
  have touched := s.rd_touch pf a
  have denied : ∀ cause, ((s.touch pf).deny pf cause reg).rd a = s.rd a := fun cause => by
    obtain ⟨u, b, eq, rd⟩ := (s.touch pf).deny_log pf cause reg own
    rw [eq, State.rd_log _ _ _ _ h g, rd, touched]
  unfold State.checked State.gate
  dsimp only
  split
  · exact denied 4
  · split
    · exact denied _
    · split
      · exact denied 4
      · split
        · exact denied 4
        · exact touched

theorem State.ctxCfg_checked (n : Nat) {f : Field} (at_ : f.addr = A.SFB_C_CFG n) (low : f.lo + f.width ≤ 16) :
    (s.checked pf reg w right).get f = s.get f := by
  have row : A.SFB_C_CFG n % 32 = 0 := by simp only [A.SFB_C_CFG]; omega
  refine s.get_checked_log pf reg w right ?_ (fun u b => u.get_log_low _ _ b ?_ low)
  · rw [at_]
    refine ⟨?_, ?_, ?_⟩ <;> simp only [A.ENG_DENY_CNT, A.ENG_DENY_LAST, A.ENG_EVT] <;> omega
  · rw [at_]
    simp only [A.CEL_EVT]; omega

theorem State.verifyResult_checked (x : Image) : (s.checked pf reg w right).verifyResult x = s.verifyResult x := by
  obtain ⟨y, sec⟩ := s.touch_sec pf
  refine State.verifyResult_congr (by rw [State.checked_sec, sec]) (s.rd_checked_of pf reg w right (by unfold Undenied; decide) (by decide) (by decide))
    (s.rd_checked_of pf reg w right (by unfold Undenied; decide) (by decide) (by decide))
    (fun i few => s.rd_checked_of pf reg w right ⟨?_, ?_, ?_⟩ ?_ ?_) (fun i few => s.rd_checked_of pf reg w right ⟨?_, ?_, ?_⟩ ?_ ?_) x <;>
    simp only [A.SEC_KEY, A.SEC_SVN, A.ENG_DENY_CNT, A.ENG_DENY_LAST, A.ENG_EVT, A.CEL_DROP, A.CEL_EVT] <;> omega

end

/-! ### What a start reads (R248) -/

section
variable {s t : State}

/-- Nothing that a START asks for differs: contexts, image verification, tamper, record selected, archive, program, and change under way. -/
structure SameReplay (s t : State) : Prop where
  kind : ∀ n, t.kind n = s.kind n
  nch : ∀ n, t.nch n = s.nch n
  verify : ∀ x, t.verifyResult x = s.verifyResult x
  tamper : t.flag F.SEC_STATUS.TAMPER = s.flag F.SEC_STATUS.TAMPER
  record : t.rd A.OLC_RPL_REC = s.rd A.OLC_RPL_REC
  roles : ∀ n, n < 4 → t.get (F.LNE_L_STATE.ROLE n) = s.get (F.LNE_L_STATE.ROLE n)
  arc : t.lft.arc = s.lft.arc
  prog : t.tsk.prog = s.tsk.prog
  olc : t.olc = s.olc

theorem SameReplay.spareLane (h : SameReplay s t) : t.spareLane = s.spareLane := by
  unfold State.spareLane
  simp only [List.find?, h.roles 0 (by decide), h.roles 1 (by decide), h.roles 2 (by decide), h.roles 3 (by decide)]

theorem SameReplay.rplImage (h : SameReplay s t) (p : Nat) (running : Bool) (img : Option Image) :
    t.rplImage p running img = s.rplImage p running img := by
  unfold State.rplImage State.runningPart
  rw [h.prog]
  simp only [h.verify, h.tamper]

theorem SameReplay.rplCovers (h : SameReplay s t) : t.rplCovers = s.rplCovers := by
  funext d q k
  unfold State.rplCovers
  simp only [h.kind, h.nch]

theorem SameReplay.rplReason (h : SameReplay s t) (p : Nat) (running : Bool) (img : Option Image) :
    t.rplReason p running img = s.rplReason p running img := by
  unfold State.rplReason
  rw [h.rplImage, h.spareLane, h.olc, h.record, s.rec?_congr h.arc, h.rplCovers]

theorem SameReplay.trans {u : State} (h : SameReplay s t) (g : SameReplay t u) : SameReplay s u :=
  ⟨fun n => (g.kind n).trans (h.kind n), fun n => (g.nch n).trans (h.nch n), fun x => (g.verify x).trans (h.verify x), g.tamper.trans h.tamper,
    g.record.trans h.record, fun n few => (g.roles n few).trans (h.roles n few), g.arc.trans h.arc, g.prog.trans h.prog, g.olc.trans h.olc⟩

theorem sameReplay_checked (pf reg : Nat) (w : Word) (right : Option Nat) : SameReplay s (s.checked pf reg w right) where
  kind n := s.ctxCfg_checked pf reg w right n rfl (show 0 + 3 ≤ 16 by decide)
  nch n := s.ctxCfg_checked pf reg w right n rfl (show 8 + 6 ≤ 16 by decide)
  verify x := s.verifyResult_checked pf reg w right x
  tamper := s.flag_checked pf reg w right (by decide) (by decide) (by decide)
  record := s.rd_checked pf reg w right (by decide) (by decide) (by decide)
  roles n few := s.get_checked pf reg w right (by simp only [F.LNE_L_STATE.ROLE, A.LNE_L_STATE, A.ENG_EVT]; omega)
    (by simp only [F.LNE_L_STATE.ROLE, A.LNE_L_STATE, A.CEL_DROP]; omega) (by simp only [F.LNE_L_STATE.ROLE, A.LNE_L_STATE, A.CEL_EVT]; omega)
  arc := congrArg LftSt.arc (s.checked_lft pf reg w right)
  prog := congrArg TskSt.prog (s.checked_tsk pf reg w right)
  olc := s.checked_olc pf reg w right

/-- A write of the control word of replays. -/
theorem sameReplay_ctl {f : Field} (v : Nat) (at_ : f.addr = A.OLC_RPL_CTL) : SameReplay s (s.set f v) where
  kind n := State.get_set_ne _ _ (by rw [at_]; simp only [F.SFB_C_CFG.KIND, A.SFB_C_CFG, A.OLC_RPL_CTL]; omega)
  nch n := State.get_set_ne _ _ (by rw [at_]; simp only [F.SFB_C_CFG.NCH, A.SFB_C_CFG, A.OLC_RPL_CTL]; omega)
  verify := State.verifyResult_congr rfl (State.rd_set_ne _ _ (by rw [at_]; decide)) (State.rd_set_ne _ _ (by rw [at_]; decide))
    (fun i few => State.rd_set_ne _ _ (by rw [at_]; simp only [A.SEC_KEY, A.OLC_RPL_CTL]; omega))
    (fun i few => State.rd_set_ne _ _ (by rw [at_]; simp only [A.SEC_SVN, A.OLC_RPL_CTL]; omega))
  tamper := State.flag_congr (State.rd_set_ne _ _ (by rw [at_]; decide))
  record := State.rd_set_ne _ _ (by rw [at_]; decide)
  roles n few := State.get_set_ne _ _ (by rw [at_]; simp only [F.LNE_L_STATE.ROLE, A.LNE_L_STATE, A.OLC_RPL_CTL]; omega)
  arc := rfl
  prog := rfl
  olc := rfl

end

/-! ### A start and its end (R248, R250, R251) -/

section
variable {s : State} {pf : Fin 2} {w : Word} {img : Option Image} {ln : Nat} {r : Replay} {c : RplCap}

/-- The control word's fields as a START writes them. -/
def State.rplAsked (t : State) (w : Word) : State :=
  ((t.set F.OLC_RPL_CTL.PART w.toNat).set F.OLC_RPL_CTL.USE_RUNNING (w.toNat / 4)).set F.OLC_RPL_CTL.STOP_FIRST (w.toNat / 8)

theorem sameReplay_asked (t : State) (w : Word) : SameReplay t (t.rplAsked w) :=
  (sameReplay_ctl _ rfl).trans ((sameReplay_ctl _ rfl).trans (sameReplay_ctl _ rfl))

/-- A START with nothing to refuse names an image and a closed record. -/
theorem State.rplReason_zero {p : Nat} {running : Bool} (h : s.rplReason p running img = 0) :
    ∃ q d, s.rplImage p running img = some q ∧ s.rec? (s.rd A.OLC_RPL_REC).toNat = some d := by
  unfold State.rplReason at h
  split at h
  · split at h <;> omega
  next q image =>
    split at h
    · omega
    · split at h
      · omega
      · split at h
        · omega
        next d found => exact ⟨q, d, image, found⟩

/-- The registers of a replay that has begun, on the state `u` that holds it. -/
def State.rplShown (u : State) (p : Nat) : State :=
  let s := (((u.set F.OLC_RPL_CNT.COMPARED 0).set F.OLC_RPL_CNT.NOCOMP 0).set64 A.OLC_RPL_FIRST (2 ^ 64 - 1)).set64 A.OLC_RPL_POS 0
  let s := (((s.set (F.DMA_C_CTL.OWNER 2) p).dmaShow 2 1).dmaShow 2 2).set (F.DMA_C_CTL.OWNER 2) 7
  ((s.set F.OLC_RPL_REASON.REASON 0).set F.OLC_STATUS.RPL_STATE 2).spareAct 2

theorem State.rplShown_shows (u : State) (p : Nat) : (u.rplShown p).get F.OLC_STATUS.RPL_STATE = 2 ∧
    (u.rplShown p).get F.OLC_RPL_REASON.REASON = 0 ∧ (u.rplShown p).olc = u.olc := by
  unfold State.rplShown
  dsimp only
  refine ⟨?_, ?_, ?_⟩
  · rw [State.get_congr (State.rd_spareAct _ _ (show A.OLC_STATUS ≠ A.LNE_STATUS by decide)), State.get_set_same _ _ _ (by decide)]
    rfl
  · rw [State.get_congr (State.rd_spareAct _ _ (show A.OLC_RPL_REASON ≠ A.LNE_STATUS by decide)), State.get_set_ne _ _ (by decide),
      State.get_set_same _ _ _ (by decide)]
    rfl
  · rw [State.spareAct, State.set_olc, State.set_olc, State.set_olc, State.set_olc,
      (State.dmaShow_kept (.refl 16777226 _) (.refl _)).parts .olc rfl, (State.dmaShow_kept (.refl 16777226 _) (.refl _)).parts .olc rfl,
      State.set_olc, State.set64_olc, State.set64_olc, State.set_olc, State.set_olc]

/-- The replay of record `d` by image `q` on the spare, at its start. -/
def OlcSt.replaying (o : OlcSt) (q : Partition) (d : LftRec) (ln : Nat) : OlcSt :=
  { o with
    lane := ln, out := [], front := [], back := [], gates := 0, rt := [],
    rpl := some ⟨q, d, d.caps.reverse, (d.events.filter (fun e => e.typ == 1)).reverse, [], [], 0, false, [], [], 0, []⟩ }

def State.withOlc (s : State) (o : OlcSt) : State := { s with olc := o }

theorem State.rplBegin_eq (t : State) (q : Partition) (d : LftRec) (ln : Nat) : t.rplBegin q d ln =
    ((((t.loadCode ln q).setLane ln { LaneSt.reset with img := some q }).clearDiffs).withOlc
      (((t.loadCode ln q).setLane ln { LaneSt.reset with img := some q }).clearDiffs.olc.replaying q d ln)).rplShown q.part := rfl

/-- What a START comes to, from the reason to refuse it, its image, its record and the spare. -/
def State.rplAnswer (t : State) (why : Nat) (q : Option Partition) (d : Option LftRec) (ln : Option Nat) : State :=
  match why, q, d, ln with
  | 0, some q, some d, some ln => t.rplBegin q d ln
  | _, _, _, _ => (if t.olc.rpl.isSome then t else t.set F.OLC_STATUS.RPL_STATE 4).set F.OLC_RPL_REASON.REASON why

def State.rplStarted (t : State) (w : Word) (img : Option Image) : State :=
  t.rplAnswer (t.rplReason (fieldOf w 0 2) (bit w.toNat 2) img) (t.rplImage (fieldOf w 0 2) (bit w.toNat 2) img)
    (t.rec? (t.rd A.OLC_RPL_REC).toNat) t.spareLane

theorem rplStart_spec (may : s.permits pf A.OLC_RPL_CTL w (some 1)) (kick : bit w.toNat 8 = true)
    (clear : s.rplReason (fieldOf w 0 2) (bit w.toNat 2) img = 0) (spare : s.spareLane = some ln) :
    ∃ u, exec (.rplStart pf w img) s = .next u ∧ u.get F.OLC_STATUS.RPL_STATE = 2 ∧ u.get F.OLC_RPL_REASON.REASON = 0 ∧
      u.olc.lane = ln ∧ u.olc.rpl.map (·.record) = s.rec? (s.rd A.OLC_RPL_REC).toNat := by
  obtain ⟨t, ht⟩ : ∃ t, t = (s.checked pf A.OLC_RPL_CTL w (some 1)).rplAsked w := ⟨_, rfl⟩
  have same : SameReplay s t := by
    rw [ht]
    exact (sameReplay_checked pf _ w (some 1)).trans (sameReplay_asked _ w)
  obtain ⟨q, d, image, found⟩ := State.rplReason_zero clear
  have ran : exec (.rplStart pf w img) s = .next (t.rplBegin q d ln) := by
    show execRplStart pf w img s = _
    unfold execRplStart
    rw [show needsChange = some 1 from rfl, whenAllowed_acts s pf A.OLC_RPL_CTL w (some 1) may rfl]
    show Host.Outcome.next (if bit w.toNat 8 then _ else _) = _
    rw [if_pos kick]
    show Host.Outcome.next (State.rplStarted ((s.checked pf A.OLC_RPL_CTL w (some 1)).rplAsked w) w img) = _
    unfold State.rplStarted
    rw [← ht, same.rplReason, clear, same.rplImage, image, same.record, s.rec?_congr same.arc, found, same.spareLane, spare]
    rfl
  obtain ⟨state, reason, olc⟩ := State.rplShown_shows ((((t.loadCode ln q).setLane ln { LaneSt.reset with img := some q }).clearDiffs).withOlc
      (((t.loadCode ln q).setLane ln { LaneSt.reset with img := some q }).clearDiffs.olc.replaying q d ln)) q.part
  rw [← State.rplBegin_eq] at state reason olc
  refine ⟨_, ran, state, reason, ?_, ?_⟩
  · rw [olc]
    rfl
  · rw [olc, found]
    rfl

theorem State.spareIdle_rpl (t : State) : t.spareIdle.olc.rpl = t.olc.rpl := by
  unfold State.spareIdle
  rw [State.spareAct, State.set_olc]
  rfl

theorem rplCancel_spec (may : s.permits pf A.OLC_RPL_CTL w (some 1)) (kick : bit w.toNat 9 = true) (runs : s.olc.rpl = some r) :
    ∃ u, exec (.rplCancel pf w) s = .next u ∧ u.olc.rpl = none ∧ u.get F.OLC_STATUS.RPL_STATE = 5 := by
  obtain ⟨t, ht⟩ : ∃ t, t = s.checked pf A.OLC_RPL_CTL w (some 1) := ⟨_, rfl⟩
  have still : t.olc.rpl = some r := by rw [ht, State.checked_olc, runs]
  have ends : ∀ (v : State) (b : List Byte), v.olc.rpl = none →
      (((v.spareIdle).set F.OLC_STATUS.RPL_STATE 5).logNamed "REPLAY_ABORTED" b).olc.rpl = none ∧
      (((v.spareIdle).set F.OLC_STATUS.RPL_STATE 5).logNamed "REPLAY_ABORTED" b).get F.OLC_STATUS.RPL_STATE = 5 := by
    intro v b none_
    refine ⟨?_, ?_⟩
    · rw [(State.logNamed_kept (.refl 16777230 _) (.refl _)).parts .olc rfl, State.set_olc, State.spareIdle_rpl, none_]
    · rw [State.get_logNamed _ _ _ (by decide) (by decide), State.get_set_same _ _ _ (by decide)]
      rfl
  have aborts : t.rplAbort.olc.rpl = none ∧ t.rplAbort.get F.OLC_STATUS.RPL_STATE = 5 := by
    unfold State.rplAbort
    rw [still]
    exact ends _ _ rfl
  refine ⟨t.rplAbort, ?_, aborts⟩
  show execRplCancel pf w s = _
  unfold execRplCancel
  rw [show needsChange = some 1 from rfl, whenAllowed_acts s pf A.OLC_RPL_CTL w (some 1) may rfl, ← ht, if_pos kick]

theorem replayDone_spec (runs : s.olc.rpl = some r) (finished : r.todo = []) :
    ∃ u, exec .replayDone s = .next u ∧ u.olc.rpl = none ∧ u.get F.OLC_STATUS.RPL_STATE = 3 ∧ u.flag F.OLC_EVT.REPLAY_DONE = true := by
  obtain ⟨v, hv⟩ : ∃ v, v = (s.withOlc { s.olc with rpl := none }).spareIdle := ⟨_, rfl⟩
  refine ⟨(v.set F.OLC_STATUS.RPL_STATE 3).raise F.OLC_EVT.REPLAY_DONE, ?_, ?_, ?_, State.flag_raise _ _ (by decide) rfl⟩
  · show execReplayDone s = _
    unfold execReplayDone
    rw [runs]
    dsimp only
    rw [if_pos finished, hv]
    rfl
  · rw [State.raise_olc, State.set_olc, hv, State.spareIdle_rpl]
    rfl
  · rw [State.get_raise_ne _ (by decide), State.get_set_same _ _ _ (by decide)]
    rfl

/-! ### One capture left (R249, R250) -/

/-- The replay with its last capture taken. -/
def Replay.last (r : Replay) : Replay := { r with todo := [] }

theorem replayCycle_last (runs : s.olc.rpl = some r) (one : r.todo = [c]) :
    exec .replayCycle s = .next ((s.setRpl r.last).rplTake r.last c) := by
  show execReplayCycle s = _
  unfold execReplayCycle
  rw [runs]
  dsimp only
  rw [one]
  show Host.Outcome.next (rplGo 1 false s) = _
  unfold rplGo
  rw [runs]
  dsimp only
  rw [one]
  rfl

theorem replayCycle_nouns {k : Nat} {body : List (Nat × Nat × List Word)} (runs : s.olc.rpl = some r) (one : r.todo = [c])
    (nouns : c = .nouns k r.img.part body) (first : r.whole = false) :
    ∃ u, exec .replayCycle s = .next u ∧ u.olc.rpl.map (fun q => (q.todo, q.whole)) = some ([], true) := by
  refine ⟨_, replayCycle_last runs one, ?_⟩
  rw [nouns]
  unfold State.rplTake
  dsimp only
  rw [if_pos ⟨rfl, by rw [show r.last.whole = r.whole from rfl, first]; rfl⟩]
  rfl

theorem State.get64_setRpl (t : State) (q : Replay) (a : Nat) : (t.setRpl q).get64 a = t.get64 a := rfl

theorem State.rplRun_pos (t : State) (q : Replay) (x : Task) (k : Nat) (region : KV Word) (size : Nat) :
    (t.rplRun q x k region size).get64 A.OLC_RPL_POS = k % 2 ^ 64 := by
  unfold State.rplRun
  dsimp only
  split
  · rw [State.get64_setRpl, State.get64_set64]
  · rw [State.get64_set64]

theorem replayCycle_image {k t size : Nat} {region : KV Word} {x : Task} (runs : s.olc.rpl = some r) (one : r.todo = [c])
    (image : c = .image k t r.img.part region size) (task : r.img.tasks.find? (fun y => y.tid == t) = some x) (ready : r.whole = true) :
    ∃ u, exec .replayCycle s = .next u ∧ u.get64 A.OLC_RPL_POS = k % 2 ^ 64 := by
  refine ⟨_, replayCycle_last runs one, ?_⟩
  rw [image]
  unfold State.rplTake
  dsimp only
  rw [show r.last.img = r.img from rfl, task]
  dsimp only
  rw [if_pos ⟨rfl, ready⟩]
  exact State.rplRun_pos _ _ _ _ _ _

/-- A release that cannot be compared. -/
theorem State.rplCompare_unlike (t : State) {q : Replay} (first : q.whole = false) (k tid : Nat) (clean : Bool) (items : List EffItem) :
    (t.rplCompare q k tid clean items).olc.rpl.map (·.todo) = some q.todo ∧
      (t.rplCompare q k tid clean items).get F.OLC_RPL_CNT.NOCOMP = min (t.get F.OLC_RPL_CNT.NOCOMP + 1) 65535 := by
  have shaped : ∀ (y : Replay) (o : OlcSt), o.rpl = some y → y.todo = q.todo →
      ((t.withOlc o).bump F.OLC_RPL_CNT.NOCOMP).olc.rpl.map (·.todo) = some q.todo ∧
      ((t.withOlc o).bump F.OLC_RPL_CNT.NOCOMP).get F.OLC_RPL_CNT.NOCOMP = min (t.get F.OLC_RPL_CNT.NOCOMP + 1) 65535 := by
    intro y o rpl todo
    refine ⟨?_, State.get_bump _ (by decide)⟩
    rw [State.bump_olc, State.withOlc]
    simp only [rpl, Option.map_some, todo]
  unfold State.rplCompare
  simp only [first, Bool.false_and, Bool.false_eq_true, if_false, List.isEmpty_nil, Bool.not_true, List.foldl_nil]
  exact shaped _ _ rfl rfl

theorem replayCycle_effects {k t : Nat} {clean : Bool} {items : List EffItem} (runs : s.olc.rpl = some r) (one : r.todo = [c])
    (effects : c = .effects k t r.img.part clean items) (first : r.whole = false) :
    ∃ u, exec .replayCycle s = .next u ∧ u.olc.rpl.map (·.todo) = some [] ∧
      u.get F.OLC_RPL_CNT.NOCOMP = min (s.get F.OLC_RPL_CNT.NOCOMP + 1) 65535 := by
  refine ⟨_, replayCycle_last runs one, ?_⟩
  rw [effects]
  unfold State.rplTake
  dsimp only
  rw [if_pos (show r.img.part = r.last.img.part from rfl)]
  exact State.rplCompare_unlike ((s.setRpl r.last).rplExchange r.last (k - 1)) (q := { r.last with exPos := k - 1 }) first k t clean items

end

/-- Settles O45: start, cancellation, the last capture by its kind, and the end. -/
theorem replayRuns : Obligations.ReplayRuns := by
  intro s pf w img ln r c
  exact ⟨rplStart_spec, rplCancel_spec, fun runs one => ⟨fun k body nouns first => replayCycle_nouns runs one nouns first,
    fun k t region size x image task ready => replayCycle_image runs one image task ready,
    fun k t clean items effects first => replayCycle_effects runs one effects first⟩, replayDone_spec⟩
end Sys2Proof.Machine
end

section
/-!
PROOFS. Universal channels: conversions, commands, thermal protection, readback, HART, group faults and straps (R351 to R369).
-/
namespace Sys2Proof.Machine
open Sys2Proof

/-! ### What the operations on a channel leave -/

section
variable (s : State) (n : Nat)

theorem State.uchAt_setUch (x : UchSt) : (s.setUch n x).uchAt n = x := kvGet_put_same _ _ _ _

theorem State.uchAt_congr {t : State} (h : t.uch = s.uch) (k : Nat) : t.uchAt k = s.uchAt k := by
  unfold State.uchAt
  rw [h]

theorem State.uchGroup_congr {t : State} (h : t.uchGrp = s.uchGrp) (g : Nat) : t.uchGroup g = s.uchGroup g := by
  unfold State.uchGroup
  rw [h]

theorem State.uchGroup_setUchGroup (g : Nat) (x : UchGrp) : (s.setUchGroup g x).uchGroup g = x := kvGet_put_same _ _ _ _

theorem State.get_setUch (x : UchSt) (f : Field) : (s.setUch n x).get f = s.get f := rfl

theorem State.get_setUchGroup (g : Nat) (x : UchGrp) (f : Field) : (s.setUchGroup g x).get f = s.get f := rfl

theorem State.get_uchNote (f : Field) : (s.uchNote n).get f = s.get f := rfl

/-- A note of the flags changes their history alone. -/
theorem State.uchAt_uchNote : ∃ h, (s.uchNote n).uchAt n = { s.uchAt n with flagHist := h } := ⟨_, State.uchAt_setUch _ _ _⟩

theorem State.putAcc_uch (a : UchAcc) : (s.putAcc n a).uch = s.uch := (State.putAcc_kept (.refl 2 s) (.refl _)).parts .uch rfl

theorem State.get_putAcc (a : UchAcc) {f : Field} (h : f.addr = A.UCH_C_STAT n ∨ f.addr < A.UCH_C_CFG 0) : (s.putAcc n a).get f = s.get f := by
  simp only [A.UCH_C_STAT, A.UCH_C_CFG] at h
  unfold State.putAcc
  dsimp only
  rw [State.get_set64_ne _ _ (by simp only [A.UCH_C_TAG]; omega) (by simp only [A.UCH_C_TAG]; omega),
    State.get_set_ne _ _ (by simp only [F.UCH_C_MAX.VALUE, A.UCH_C_MAX]; omega),
    State.get_set_ne _ _ (by simp only [F.UCH_C_MIN.VALUE, A.UCH_C_MIN]; omega),
    State.get_set_ne _ _ (by simp only [F.UCH_C_COUNT.COUNT, A.UCH_C_COUNT]; omega),
    State.get_set64_ne _ _ (by simp only [A.UCH_C_SUM]; omega) (by simp only [A.UCH_C_SUM]; omega)]

/-- The driver of a channel takes its target: one bit of the channel's status follows. -/
theorem State.get_uchDrive {f : Field} (h : f.addr ≠ A.UCH_C_STAT n ∨ f.lo + f.width ≤ 8 ∨ 9 ≤ f.lo) : (s.uchDrive n).get f = s.get f := by
  unfold State.uchDrive
  split
  · have alarm : ∀ v, (s.set (F.UCH_C_STAT.ALARM_OUT n) v).get f = s.get f := fun v => by
      by_cases same : f.addr = A.UCH_C_STAT n
      · exact State.get_set_apart _ _ (show 8 + 1 ≤ 32 by decide) (h.resolve_left (not_not.mpr same))
      · exact State.get_set_ne _ _ same
    dsimp only
    rw [State.get_uchNote]
    split
    · exact alarm _
    · exact alarm _
  · rfl

/-- The command of a channel, which its driver follows. -/
def UchSt.command (x : UchSt) : Option Int × Option (Int × Nat) := (x.cmd, x.cmdPend)

theorem State.uchDrive_command : ((s.uchDrive n).uchAt n).command = (s.uchAt n).command := by
  have noted : ∀ t : State, ((t.uchNote n).uchAt n).command = (t.uchAt n).command := fun t => by
    obtain ⟨h, eq⟩ := t.uchAt_uchNote n
    rw [eq]
    rfl
  have shown : ∀ v, (s.set (F.UCH_C_STAT.ALARM_OUT n) v).uchAt n = s.uchAt n := fun v => State.uchAt_congr _ (State.set_uch _ _ _) n
  unfold State.uchDrive
  split
  · dsimp only
    rw [noted]
    split
    · rw [shown]
    · rw [State.uchAt_setUch, shown]
      rfl
  · rfl

/-- The converter of a channel and what shows that it runs. -/
def State.converter (s : State) (n : Nat) : Option UchConv × Nat := ((s.uchAt n).conv, s.get (F.UCH_C_STAT.RUN n))

theorem State.converter_congr {t : State} (uch : t.uch = s.uch) (run : t.get (F.UCH_C_STAT.RUN n) = s.get (F.UCH_C_STAT.RUN n)) :
    t.converter n = s.converter n := by
  unfold State.converter
  rw [s.uchAt_congr uch, run]

theorem State.converter_set {f : Field} (v : Nat) (width : f.lo + f.width ≤ 32) (apart : f.addr = A.UCH_C_STAT n → f.lo = 0 ∧ f.width = 1 ∨ 2 ≤ f.lo) :
    (s.set f v).converter n = s.converter n := by
  refine s.converter_congr n (State.set_uch _ _ _) ?_
  by_cases same : f.addr = A.UCH_C_STAT n
  · refine State.get_set_apart _ _ width ?_
    rcases apart same with ⟨low, one⟩ | high
    · right
      show f.lo + f.width ≤ 1
      omega
    · left
      exact high
  · exact State.get_set_ne _ _ (fun h => same h.symm)

theorem State.converter_uchNote : (s.uchNote n).converter n = s.converter n := by
  obtain ⟨h, eq⟩ := s.uchAt_uchNote n
  unfold State.converter
  rw [eq, State.get_uchNote]

theorem State.converter_setUch {x : UchSt} (same : x.conv = (s.uchAt n).conv) : (s.setUch n x).converter n = s.converter n := by
  unfold State.converter
  rw [State.uchAt_setUch, same, State.get_setUch]

theorem State.converter_uchSupply : (s.uchSupply n).converter n = s.converter n := by
  unfold State.uchSupply
  split
  · rw [State.converter_set _ _ _ (by simp [F.UCH_C_STAT.VDRV]) (fun _ => .inr (by simp [F.UCH_C_STAT.VDRV])),
      State.converter_set _ _ _ (by simp [F.UCH_C_STAT.SUPPLY]) (fun _ => .inr (by simp [F.UCH_C_STAT.SUPPLY]))]
  · rw [State.converter_set _ _ _ (by simp [F.UCH_C_STAT.VDRV]) (fun _ => .inr (by simp [F.UCH_C_STAT.VDRV])),
      State.converter_set _ _ _ (by simp [F.UCH_C_STAT.SUPPLY]) (fun _ => .inr (by simp [F.UCH_C_STAT.SUPPLY]))]

theorem State.converter_uchOpen : (s.uchOpen n).converter n = s.converter n := by
  have logged : ∀ (t : State) (b : List Byte), ((t.raise F.UCH_EVT.OPEN).log 0x0642 2 b).converter n = t.converter n := fun t b => by
    refine t.converter_congr n ?_ ?_
    · rw [(State.log_kept (.refl 16777230 _) (.refl _)).parts .uch rfl, (State.raise_kept (.refl 16777226 t) (.refl _)).parts .uch rfl]
    · rw [State.get_log _ _ _ _ (by simp only [F.UCH_C_STAT.RUN, A.UCH_C_STAT, A.CEL_DROP]; omega)
        (by simp only [F.UCH_C_STAT.RUN, A.UCH_C_STAT, A.CEL_EVT]; omega),
        State.get_raise_ne _ (by simp only [F.UCH_C_STAT.RUN, A.UCH_C_STAT, F.UCH_EVT.OPEN, A.UCH_EVT]; omega)]
  unfold State.uchOpen
  split
  · rfl
  · rw [State.converter_uchNote, logged, State.converter_set _ _ _ (by simp [F.UCH_C_STAT.OPEN]) (fun _ => .inr (by simp [F.UCH_C_STAT.OPEN]))]

theorem State.converter_uchCount (code : Int) (ovr : Bool) (t : Nat) : (s.uchCount n code ovr t).converter n = s.converter n := by
  have accumulated : ∀ (u : State) (a b : UchAcc), ((u.setUch n { u.uchAt n with prev := a }).putAcc n b).converter n = u.converter n := fun u a b => by
    rw [State.converter_congr _ _ (State.putAcc_uch _ _ _) (State.get_putAcc _ _ _ (.inl rfl))]
    exact u.converter_setUch n rfl
  have flagged : ∀ (u : State) (c : Prop) [Decidable c] (f : Field) (v : Nat), f.lo + f.width ≤ 32 → 2 ≤ f.lo →
      (if c then u.set f v else u).converter n = u.converter n := fun u c _ f v width high => by
    split
    · exact u.converter_set n v width (fun _ => .inr high)
    · rfl
  unfold State.uchCount
  split
  · rfl
  · dsimp only
    rw [State.converter_uchNote, flagged _ _ _ _ (by simp [F.UCH_C_STAT.CNT_SAT]) (by simp [F.UCH_C_STAT.CNT_SAT]),
      flagged _ _ _ _ (by simp [F.UCH_C_STAT.OVR]) (by simp [F.UCH_C_STAT.OVR]), accumulated]

theorem State.converter_uchResult (raw : Int) (opened : Bool) (t : Nat) : (s.uchResult n raw opened t).converter n = s.converter n := by
  unfold State.uchResult
  split
  · rw [State.converter_uchSupply]
    exact s.converter_setUch n rfl
  · split
    · exact s.converter_uchOpen n
    · dsimp only
      rw [State.converter_uchCount]
      split
      · exact s.converter_setUch n rfl
      · rfl

/-- A converter that starts. -/
theorem State.uchStart_shows (onDemand : Bool) :
    ((s.uchStart n onDemand).uchAt n).conv.map (fun v => (v.s0, v.onDemand)) = some (s.six, onDemand) ∧
      (s.uchStart n onDemand).get (F.UCH_C_STAT.RUN n) = 1 := by
  unfold State.uchStart
  dsimp only
  rw [State.uchAt_congr _ (State.set_uch _ _ _), State.uchAt_setUch, State.get_set_same _ _ _ (by simp [F.UCH_C_STAT.RUN])]
  exact ⟨rfl, rfl⟩

theorem State.get64_uchNote (a : Nat) : (s.uchNote n).get64 a = s.get64 a := rfl

theorem State.get64_setUch (x : UchSt) (a : Nat) : (s.setUch n x).get64 a = s.get64 a := rfl

/-- The registers of a channel that has been cleared at SIX `c`. -/
def State.uchCleared (s : State) (n c : Nat) : State :=
  (((s.set64 (A.UCH_C_CLR n) c).set (F.UCH_C_STAT.OVR n) 0).set (F.UCH_C_STAT.OPEN n) 0).set (F.UCH_C_STAT.CNT_SAT n) 0

theorem State.uchCleared_shows (c : Nat) : (s.uchCleared n c).get64 (A.UCH_C_CLR n) = c % 2 ^ 64 ∧
    (s.uchCleared n c).get (F.UCH_C_STAT.OVR n) = 0 ∧ (s.uchCleared n c).get (F.UCH_C_STAT.OPEN n) = 0 := by
  have clr : A.UCH_C_CLR n ≠ A.UCH_C_STAT n ∧ A.UCH_C_CLR n + 4 ≠ A.UCH_C_STAT n := by simp only [A.UCH_C_CLR, A.UCH_C_STAT]; omega
  unfold State.uchCleared
  refine ⟨?_, ?_, ?_⟩
  · rw [← State.get64_set64 s (A.UCH_C_CLR n) c]
    refine State.get64_congr _ ?_ ?_
    · rw [State.rd_set_ne _ _ clr.1, State.rd_set_ne _ _ clr.1, State.rd_set_ne _ _ clr.1]
    · rw [State.rd_set_ne _ _ clr.2, State.rd_set_ne _ _ clr.2, State.rd_set_ne _ _ clr.2]
  · rw [State.get_set_apart _ _ (by simp [F.UCH_C_STAT.CNT_SAT]) (by simp [F.UCH_C_STAT.CNT_SAT, F.UCH_C_STAT.OVR]),
      State.get_set_apart _ _ (by simp [F.UCH_C_STAT.OPEN]) (by simp [F.UCH_C_STAT.OPEN, F.UCH_C_STAT.OVR]),
      State.get_set_same _ _ _ (by simp [F.UCH_C_STAT.OVR])]
    exact Nat.zero_mod _
  · rw [State.get_set_apart _ _ (by simp [F.UCH_C_STAT.CNT_SAT]) (by simp [F.UCH_C_STAT.CNT_SAT, F.UCH_C_STAT.OPEN]),
      State.get_set_same _ _ _ (by simp [F.UCH_C_STAT.OPEN])]
    exact Nat.zero_mod _

/-- A channel cleared, with its accumulators from before. -/
theorem State.uchClear_eq (c : Nat) : ∃ x z, s.uchClear n c = (((s.putAcc n z).uchCleared n c).setUch n x).uchNote n := ⟨_, _, rfl⟩

/-- A clear of the accumulators. -/
theorem State.uchClear_shows (c : Nat) : (s.uchClear n c).get64 (A.UCH_C_CLR n) = c % 2 ^ 64 ∧ (s.uchClear n c).get (F.UCH_C_STAT.OVR n) = 0 ∧
    (s.uchClear n c).get (F.UCH_C_STAT.OPEN n) = 0 := by
  obtain ⟨x, z, eq⟩ := s.uchClear_eq n c
  rw [eq, State.get64_uchNote, State.get64_setUch, State.get_uchNote, State.get_setUch, State.get_uchNote, State.get_setUch]
  exact State.uchCleared_shows _ n c

/-- The registers outside a channel's own stay at a clear, and at a restart. -/
theorem State.get_uchClear (c : Nat) {f : Field} (low : f.addr < A.UCH_C_CFG 0) : (s.uchClear n c).get f = s.get f := by
  have own := low
  simp only [A.UCH_C_CFG] at low
  have stat : f.addr ≠ A.UCH_C_STAT n := by simp only [A.UCH_C_STAT]; omega
  obtain ⟨x, z, eq⟩ := s.uchClear_eq n c
  rw [eq, State.get_uchNote, State.get_setUch, State.uchCleared, State.get_set_ne _ _ stat, State.get_set_ne _ _ stat,
    State.get_set_ne _ _ stat, State.get_set64_ne _ _ (by simp only [A.UCH_C_CLR]; omega) (by simp only [A.UCH_C_CLR]; omega),
    State.get_putAcc _ _ _ (.inr own)]

theorem State.get_uchSettle (h : Nat) {f : Field} (low : f.addr < A.UCH_C_CFG 0) : (s.uchSettle n h).get f = s.get f := by
  have own := low
  simp only [A.UCH_C_CFG] at low
  have stat : f.addr ≠ A.UCH_C_STAT n := by simp only [A.UCH_C_STAT]; omega
  unfold State.uchSettle
  dsimp only
  rw [State.get_uchClear _ _ _ own, State.get_set_ne _ _ stat, State.get_set_ne _ _ stat, State.get_setUch]

end

/-! ### Conversions, commands, temperature, the host's clears and requests (R356 to R364) -/

section
variable {s : State} {n : Fin 16}

theorem conversionStart_spec (on : s.uchOn = true) (converts : s.uchConverts n = true) (scheduled : s.get (F.UCH_C_CFG.CPER n) ≠ 0)
    (due : s.six % (100 * s.get (F.UCH_C_CFG.CPER n)) = 0) (first : (s.uchAt n).sched ≠ some s.six) :
    ((s.uchAt n).conv = none → ∃ t, exec (.conversionStart n) s = .next t ∧ (t.uchAt n).conv.map (·.s0) = some s.six ∧
      t.get (F.UCH_C_STAT.RUN n) = 1) ∧
    ((s.uchAt n).conv.isSome = true → ∃ t, exec (.conversionStart n) s = .next t ∧
      t.get (F.UCH_C_CNT.SKIP n) = min (s.get (F.UCH_C_CNT.SKIP n) + 1) 255) := by
  obtain ⟨u, hu⟩ : ∃ u, u = s.setUch n { s.uchAt n with sched := some s.six } := ⟨_, rfl⟩
  have ran : exec (.conversionStart n) s = .next (if (u.uchAt n).conv.isSome then u.bump (F.UCH_C_CNT.SKIP n) else u.uchStart n false) := by
    show execConversionStart n s = _
    unfold execConversionStart
    rw [if_pos ⟨on, converts, scheduled, due, first⟩, hu]
  have conv : (u.uchAt n).conv = (s.uchAt n).conv := by rw [hu, State.uchAt_setUch]
  refine ⟨fun idle => ⟨_, ran.trans (congrArg _ (if_neg (by rw [conv, idle]; decide))), ?_⟩,
    fun busy => ⟨_, ran.trans (congrArg _ (if_pos (by rw [conv, busy]))), ?_⟩⟩
  · obtain ⟨start, run⟩ := u.uchStart_shows n false
    refine ⟨?_, run⟩
    obtain ⟨v, some_, eq⟩ := Option.map_eq_some_iff.mp start
    have s0 : v.s0 = u.six := congrArg Prod.fst eq
    rw [some_, Option.map_some, s0, hu]
    rfl
  · rw [State.get_bump _ (by simp [F.UCH_C_CNT.SKIP]), hu, State.get_setUch]
    rfl

theorem conversionDone_spec {v : UchConv} {raw : Int} {op : Bool} (runs : (s.uchAt n).conv = some v)
    (later : v.s0 + 799 + nintSamples (s.get (F.UCH_C_CFG.NINT n)) < s.six) (on : s.uchOn = true) (counts : v.discard = false) :
    (∃ u : State, exec (.conversionDone n raw op) s = .next (u.uchResult n raw op (v.s0 + 799 + nintSamples (s.get (F.UCH_C_CFG.NINT n))))) ∧
      ∃ t, exec (.conversionDone n raw op) s = .next t ∧ (t.uchAt n).conv = none ∧ t.get (F.UCH_C_STAT.RUN n) = 0 := by
  obtain ⟨u, hu⟩ : ∃ u, u = (s.setUch n { s.uchAt n with conv := none }).set (F.UCH_C_STAT.RUN n) 0 := ⟨_, rfl⟩
  have ran : exec (.conversionDone n raw op) s = .next (u.uchResult n raw op (v.s0 + 799 + nintSamples (s.get (F.UCH_C_CFG.NINT n)))) := by
    show execConversionDone n raw op s = _
    unfold execConversionDone
    rw [runs]
    dsimp only
    rw [if_pos ⟨later, on⟩, if_neg (by rw [counts]; exact Bool.false_ne_true), hu]
  have ended : u.converter n = (none, 0) := by
    unfold State.converter
    rw [hu, State.uchAt_congr _ (State.set_uch _ _ _), State.uchAt_setUch, State.get_set_same _ _ _ (by simp [F.UCH_C_STAT.RUN])]
    rfl
  have same := (u.converter_uchResult n raw op (v.s0 + 799 + nintSamples (s.get (F.UCH_C_CFG.NINT n)))).trans ended
  exact ⟨⟨u, ran⟩, _, ran, congrArg Prod.fst same, congrArg Prod.snd same⟩

theorem cmdApply_spec {c : Int} {due : Nat} (waits : (s.uchAt n).cmdPend = some (c, due)) (reached : due ≤ s.six) (on : s.uchOn = true) :
    ∃ t, exec (.cmdApply n) s = .next t ∧ (t.uchAt n).cmd = some c ∧ (t.uchAt n).cmdPend = none := by
  obtain ⟨u, hu⟩ : ∃ u, u = s.setUch n { s.uchAt n with cmd := some c, cmdPend := none } := ⟨_, rfl⟩
  have follows : ((u.uchDrive n).uchAt n).command = (some c, none) := by
    rw [State.uchDrive_command, hu, State.uchAt_setUch]
    rfl
  refine ⟨u.uchDrive n, ?_, congrArg Prod.fst follows, congrArg Prod.snd follows⟩
  show execCmdApply n s = _
  unfold execCmdApply
  rw [waits]
  dsimp only
  rw [if_pos ⟨reached, on⟩, hu]

/-- The entry and the event of a changed thermal state, and what shows it. -/
theorem State.thermal_shows (t : State) (n : Fin 16) (on v : Nat) (small : on < 2) (b : List Byte) :
    ((((t.set (F.UCH_C_STAT.THERMAL n) on).raise F.UCH_EVT.THERMAL).log 0x0641 2 b).set (F.UCH_C_STAT.ALARM_NOT_REACHED n) v |>.uchDrive n).get
      (F.UCH_C_STAT.THERMAL n) = on ∧
    ((((t.set (F.UCH_C_STAT.THERMAL n) on).raise F.UCH_EVT.THERMAL).log 0x0641 2 b).uchDrive n).get (F.UCH_C_STAT.THERMAL n) = on ∧
    ((((t.set (F.UCH_C_STAT.THERMAL n) on).raise F.UCH_EVT.THERMAL).log 0x0641 2 b).set (F.UCH_C_STAT.ALARM_NOT_REACHED n) v |>.uchDrive n).flag
      F.UCH_EVT.THERMAL = true ∧
    ((((t.set (F.UCH_C_STAT.THERMAL n) on).raise F.UCH_EVT.THERMAL).log 0x0641 2 b).uchDrive n).flag F.UCH_EVT.THERMAL = true := by
  have logged : (((t.set (F.UCH_C_STAT.THERMAL n) on).raise F.UCH_EVT.THERMAL).log 0x0641 2 b).get (F.UCH_C_STAT.THERMAL n) = on := by
    rw [State.get_log _ _ _ _ (by simp only [F.UCH_C_STAT.THERMAL, A.UCH_C_STAT, A.CEL_DROP]; omega)
      (by simp only [F.UCH_C_STAT.THERMAL, A.UCH_C_STAT, A.CEL_EVT]; omega),
      State.get_raise_ne _ (by simp only [F.UCH_C_STAT.THERMAL, A.UCH_C_STAT, F.UCH_EVT.THERMAL, A.UCH_EVT]; omega),
      State.get_set_same _ _ _ (by simp [F.UCH_C_STAT.THERMAL])]
    exact Nat.mod_eq_of_lt small
  have event : (((t.set (F.UCH_C_STAT.THERMAL n) on).raise F.UCH_EVT.THERMAL).log 0x0641 2 b).get F.UCH_EVT.THERMAL = 1 := by
    rw [State.get_log _ _ _ _ (by decide) (by decide), State.get_raise _ (by decide)]
    rfl
  have evt : A.UCH_EVT ≠ A.UCH_C_STAT n := by simp only [A.UCH_EVT, A.UCH_C_STAT]; omega
  refine ⟨?_, ?_, State.flag_of_one _ ?_, State.flag_of_one _ ?_⟩
  · rw [State.get_uchDrive _ _ (.inr (.inl (by simp [F.UCH_C_STAT.THERMAL]))), State.get_set_apart _ _ (by simp [F.UCH_C_STAT.ALARM_NOT_REACHED])
      (by simp [F.UCH_C_STAT.ALARM_NOT_REACHED, F.UCH_C_STAT.THERMAL]), logged]
  · rw [State.get_uchDrive _ _ (.inr (.inl (by simp [F.UCH_C_STAT.THERMAL]))), logged]
  · rw [State.get_uchDrive _ _ (.inl evt), State.get_set_ne _ _ evt, event]
  · rw [State.get_uchDrive _ _ (.inl evt), event]

theorem thermal_spec {tj : Int} (on : s.uchOn = true) (output : s.uchOutput n = true) (boundary : s.six % 100 = 0) :
    (135 ≤ tj → s.flag (F.UCH_C_STAT.THERMAL n) = false → ∃ u, exec (.thermal n tj) s = .next u ∧
      u.flag (F.UCH_C_STAT.THERMAL n) = true ∧ u.flag F.UCH_EVT.THERMAL = true) ∧
    (tj ≤ 120 → s.flag (F.UCH_C_STAT.THERMAL n) = true → ∃ u, exec (.thermal n tj) s = .next u ∧
      u.flag (F.UCH_C_STAT.THERMAL n) = false ∧ u.flag F.UCH_EVT.THERMAL = true) := by
  refine ⟨fun hot cold => ?_, fun cool hot => ?_⟩
  · obtain ⟨reached, bare, reachedEvt, bareEvt⟩ := s.thermal_shows n 1 1 (by decide) (leBytes 1 n ++ leBytes 1 1)
    have ran : exec (.thermal n tj) s = .next ((if s.alarmHolds n && s.alarmLevel n == 2150000 then
        (((s.set (F.UCH_C_STAT.THERMAL n) 1).raise F.UCH_EVT.THERMAL).log 0x0641 2 (leBytes 1 n ++ leBytes 1 1)).set (F.UCH_C_STAT.ALARM_NOT_REACHED n) 1
        else ((s.set (F.UCH_C_STAT.THERMAL n) 1).raise F.UCH_EVT.THERMAL).log 0x0641 2 (leBytes 1 n ++ leBytes 1 1)).uchDrive n) := by
      show execThermal n tj s = _
      unfold execThermal
      dsimp only
      rw [if_pos ⟨on, output, boundary⟩, if_pos ⟨hot, cold⟩]
    refine ⟨_, ran, ?_⟩
    split
    · exact ⟨State.flag_of_one _ reached, reachedEvt⟩
    · exact ⟨State.flag_of_one _ bare, bareEvt⟩
  · obtain ⟨reached, -, reachedEvt, -⟩ := s.thermal_shows n 0 0 (by decide) (leBytes 1 n ++ leBytes 1 0)
    refine ⟨_, ?_, State.flag_of_zero _ reached, reachedEvt⟩
    show execThermal n tj s = _
    unfold execThermal
    dsimp only
    rw [if_pos ⟨on, output, boundary⟩, if_neg (by rw [hot]; rintro ⟨-, h⟩; cases h), if_pos ⟨cool, hot⟩]

section
variable {pf : Fin 2} {w : Word}

theorem uchHctlClr_spec (stands : s.tsk.up = false) (may : s.permits pf (A.UCH_C_HCTL n) w (some 0)) (kick : bit w.toNat 0 = true) :
    ∃ t, exec (.uchHctlClr pf n w) s = .next t ∧ t.get64 (A.UCH_C_CLR n) = s.six % 2 ^ 64 ∧ t.get (F.UCH_C_STAT.OVR n) = 0 ∧
      t.get (F.UCH_C_STAT.OPEN n) = 0 := by
  obtain ⟨t, ht⟩ : ∃ t, t = s.checked pf (A.UCH_C_HCTL n) w (some 0) := ⟨_, rfl⟩
  have shown := t.uchClear_shows n s.six
  refine ⟨t.uchClear n s.six, ?_, shown⟩
  show execUchHctlClr pf n w s = _
  unfold execUchHctlClr
  dsimp only
  rw [whenAllowed_acts s pf _ w (some 0) may (by simp [State.noProgram, stands]), if_pos kick, State.checked_six, ht]

theorem uchHctlReq_spec (stands : s.tsk.up = false) (may : s.permits pf (A.UCH_C_HCTL n) w (some 0)) (kick : bit w.toNat 1 = true)
    (on : s.uchOn = true) (converts : s.uchConverts n = true) (idle : (s.uchAt n).conv = none) :
    ∃ t, exec (.uchHctlReq pf n w) s = .next t ∧ (t.uchAt n).conv.map (fun x => (x.s0, x.onDemand)) = some (s.six, true) := by
  obtain ⟨t, ht⟩ : ∃ t, t = s.checked pf (A.UCH_C_HCTL n) w (some 0) := ⟨_, rfl⟩
  have powered : t.uchOn = true := by
    rw [ht, ← on]
    exact s.flag_checked pf _ w (some 0) (by decide) (by decide) (by decide)
  have mode : t.uchMode n = s.uchMode n := by
    rw [ht]
    exact s.get_checked pf _ w (some 0) (by simp only [F.UCH_C_CFG.MODE, A.UCH_C_CFG, A.ENG_EVT]; omega)
      (by simp only [F.UCH_C_CFG.MODE, A.UCH_C_CFG, A.CEL_DROP]; omega) (by simp only [F.UCH_C_CFG.MODE, A.UCH_C_CFG, A.CEL_EVT]; omega)
  have still : (t.uchAt n).conv = none := by rw [ht, State.uchAt_congr s (s.checked_uch pf _ w (some 0)), idle]
  have starts : t.uchRequest n = t.uchStart n true := by
    have same : t.uchConverts n = true := by
      rw [← converts]
      unfold State.uchConverts
      rw [mode]
    unfold State.uchRequest
    rw [if_pos same, still, if_neg (by decide)]
  refine ⟨t.uchRequest n, ?_, ?_⟩
  · show execUchHctlReq pf n w s = _
    unfold execUchHctlReq
    dsimp only
    rw [whenAllowed_acts s pf _ w (some 0) may (by simp [State.noProgram, stands]), ← ht, if_pos (by rw [kick, powered]; rfl)]
  · rw [starts, (t.uchStart_shows n true).1, ht, State.checked_six]

end

theorem readbackSlot_spec {g : Fin 4} {raw : Int} (on : s.uchOn = true) (slot : s.six % 12500 = 0) (late : 0 < s.six)
    (well : (s.uchGroup g).fault = false) (first : (s.uchGroup g).slotSix ≠ some s.six) (only : s.readList g = [n.val]) :
    exec (.readbackSlot g raw) s = .next ((s.setUchGroup g { s.uchGroup g with slotSix := some s.six }).uchReadback n
      (12500 * (s.six / 12500 - 1)) raw) := by
  show execReadbackSlot g raw s = _
  unfold execReadbackSlot
  dsimp only
  rw [if_pos ⟨on, slot, late, well, first⟩, only, List.length_singleton, Nat.mod_one, List.getElem?_cons_zero]
  dsimp only
  rw [if_neg (by omega)]
  rfl

end
end Sys2Proof.Machine
end

section
/-!
PROOFS. HART exchanges, group faults and straps of the universal channels (R365, R368, R369).
-/
namespace Sys2Proof.Machine
open Sys2Proof

/-! ### HART exchanges (R369) -/

section
variable {s : State} {g : Fin 4} {pf : Fin 2} {w : Word}

/-- The settings of a write to a group's control word. -/
def State.hartSet (t : State) (g : Nat) (w : Word) : State :=
  ((t.set (F.UCH_G_HCTL.CH g) (fieldOf w 0 2)).set (F.UCH_G_HCTL.RETRY g) (fieldOf w 8 2)).set (F.UCH_G_HCTL.PREAMBLE g) (fieldOf w 16 5)

theorem State.rd_hartSet (t : State) {a : Nat} (h : a ≠ A.UCH_G_HCTL g) : (t.hartSet g w).rd a = t.rd a := by
  unfold State.hartSet
  rw [State.rd_set_ne _ _ h, State.rd_set_ne _ _ h, State.rd_set_ne _ _ h]

theorem State.hartSet_status (t : State) : (t.hartSet g w).get (F.UCH_G_HCTL.STATUS g) = t.get (F.UCH_G_HCTL.STATUS g) := by
  unfold State.hartSet
  rw [State.get_set_apart _ _ (by simp [F.UCH_G_HCTL.PREAMBLE]) (by simp [F.UCH_G_HCTL.PREAMBLE, F.UCH_G_HCTL.STATUS]),
    State.get_set_apart _ _ (by simp [F.UCH_G_HCTL.RETRY]) (by simp [F.UCH_G_HCTL.RETRY, F.UCH_G_HCTL.STATUS]),
    State.get_set_apart _ _ (by simp [F.UCH_G_HCTL.CH]) (by simp [F.UCH_G_HCTL.CH, F.UCH_G_HCTL.STATUS])]

theorem State.hartSet_uchGrp (t : State) : (t.hartSet g w).uchGrp = t.uchGrp := by
  unfold State.hartSet
  rw [State.set_uchGrp, State.set_uchGrp, State.set_uchGrp]

/-- A transaction that ends: its status, its event, no transaction of the group any more, and no fault of a group changed. -/
theorem State.hartEnd_shows (t : State) (ch : Nat) {st : Nat} (small : st < 8) : (t.hartEnd g ch st).get (F.UCH_G_HCTL.STATUS g) = st ∧
    ((t.hartEnd g ch st).uchGroup g) = { t.uchGroup g with hart := none } ∧ (t.hartEnd g ch st).flag F.UCH_EVT.HART_DONE = true ∧
    ∀ f : Field, f.addr ≠ A.UCH_G_HCTL g → f.addr ≠ A.UCH_G_HCNT g → f.addr ≠ A.CEL_DROP → f.addr ≠ A.CEL_EVT → f ≠ F.UCH_EVT.HART_DONE →
      (f.addr = A.UCH_EVT → f.lo + f.width ≤ 7 ∨ 8 ≤ f.lo) → (t.hartEnd g ch st).get f = t.get f := by
  obtain ⟨u, hu⟩ : ∃ u, u = (t.set (F.UCH_G_HCTL.STATUS g) st).setUchGroup g { t.uchGroup g with hart := none } := ⟨_, rfl⟩
  obtain ⟨v, hv⟩ : ∃ v, v = if st = 3 ∨ st = 4 then (u.bump (F.UCH_G_HCNT.TRANS g)).bump (F.UCH_G_HCNT.NOREPLY g) else u.bump (F.UCH_G_HCNT.TRANS g) :=
    ⟨_, rfl⟩
  have counted : v.uchGrp = u.uchGrp ∧ ∀ f : Field, f.addr ≠ A.UCH_G_HCNT g → v.get f = u.get f := by
    rw [hv]
    split
    · exact ⟨by rw [State.bump_uchGrp, State.bump_uchGrp],
        fun f h => by rw [State.get_bump_ne _ (show f.addr ≠ A.UCH_G_HCNT g from h), State.get_bump_ne _ (show f.addr ≠ A.UCH_G_HCNT g from h)]⟩
    · exact ⟨State.bump_uchGrp _ _, fun f h => State.get_bump_ne _ (show f.addr ≠ A.UCH_G_HCNT g from h)⟩
  have ended : t.hartEnd g ch st = if st = 2 then v.raise F.UCH_EVT.HART_DONE else
      (v.raise F.UCH_EVT.HART_DONE).log 0x0646 0 (leBytes 1 g ++ leBytes 1 ch ++ leBytes 1 st) := by
    rw [hv, hu]
    rfl
  have logged : ∀ f : Field, f.addr ≠ A.CEL_DROP → f.addr ≠ A.CEL_EVT → (t.hartEnd g ch st).get f = (v.raise F.UCH_EVT.HART_DONE).get f := by
    intro f drop evt
    rw [ended]
    split
    · rfl
    · exact State.get_log _ _ _ _ drop evt
  have group : (t.hartEnd g ch st).uchGrp = u.uchGrp := by
    rw [ended]
    split
    · rw [(State.raise_kept (.refl 16777226 v) (.refl _)).parts .uchGrp rfl, counted.1]
    · rw [(State.log_kept (.refl 16777230 _) (.refl _)).parts .uchGrp rfl, (State.raise_kept (.refl 16777226 v) (.refl _)).parts .uchGrp rfl, counted.1]
  refine ⟨?_, ?_, State.flag_of_one _ ?_, fun f hctl hcnt drop evt _ apart => ?_⟩
  · rw [logged _ (by simp only [F.UCH_G_HCTL.STATUS, A.UCH_G_HCTL, A.CEL_DROP]; omega) (by simp only [F.UCH_G_HCTL.STATUS, A.UCH_G_HCTL, A.CEL_EVT]; omega),
      State.get_raise_ne _ (by simp only [F.UCH_G_HCTL.STATUS, A.UCH_G_HCTL, F.UCH_EVT.HART_DONE, A.UCH_EVT]; omega),
      counted.2 _ (by simp only [F.UCH_G_HCTL.STATUS, A.UCH_G_HCTL, A.UCH_G_HCNT]; omega), hu, State.get_setUchGroup,
      State.get_set_same _ _ _ (by simp [F.UCH_G_HCTL.STATUS])]
    exact Nat.mod_eq_of_lt small
  · rw [State.uchGroup_congr u group, hu, State.uchGroup_setUchGroup]
  · rw [logged _ (by decide) (by decide), State.get_raise _ (by decide)]
    rfl
  · have raised : (v.raise F.UCH_EVT.HART_DONE).get f = v.get f := by
      by_cases same : f.addr = A.UCH_EVT
      · refine State.get_raise_apart _ (show 7 + 1 ≤ 32 by decide) ?_
        exact apart same
      · exact State.get_raise_ne _ same
    rw [logged f drop evt, raised, counted.2 f hcnt, hu, State.get_setUchGroup, State.get_set_ne _ _ hctl]

theorem hartAbort_spec {ch : Nat} (may : s.permits pf (A.UCH_G_HCTL g) w (some 0)) (kick : bit w.toNat 3 = true)
    (runs : (s.uchGroup g).hart = some ch) : ∃ t, exec (.hartAbort pf g w) s = .next t ∧ t.get (F.UCH_G_HCTL.STATUS g) = 6 ∧
      (t.uchGroup g).hart = none ∧ t.flag F.UCH_EVT.HART_DONE = true := by
  obtain ⟨t, ht⟩ : ∃ t, t = (s.checked pf (A.UCH_G_HCTL g) w (some 0)).hartSet g w := ⟨_, rfl⟩
  have still : (t.uchGroup g).hart = some ch := by
    rw [ht, State.uchGroup_congr s ((State.hartSet_uchGrp _).trans (s.checked_uchGrp pf _ w (some 0))), runs]
  obtain ⟨status, group, done, -⟩ := t.hartEnd_shows (g := g) ch (show 6 < 8 by decide)
  refine ⟨t.hartEnd g ch 6, ?_, status, by rw [group], done⟩
  show execHartAbort pf g w s = _
  unfold execHartAbort
  dsimp only
  rw [whenAllowed_acts s pf _ w (some 0) may rfl, if_pos kick]
  show Host.Outcome.next (((s.checked pf (A.UCH_G_HCTL g) w (some 0)).hartSet g w).hartCut g) = _
  rw [← ht]
  unfold State.hartCut
  rw [still]

/-- The reply's bytes stand in the group's buffer only. -/
theorem State.rd_hartStore (t : State) (bs : List Byte) {a : Nat} (low : a < A.UCH_G_HBUF 0 0) : (t.hartStore g bs).rd a = t.rd a := by
  unfold State.hartStore
  refine foldl_keeps (fun u : State => u.rd a) (fun u i => ?_) _ _
  simp only [A.UCH_G_HBUF] at low
  split
  · exact State.rd_wr_ne _ _ (by simp only [A.UCH_G_HBUF]; omega)
  · rfl

theorem hartDone_spec {ch : Nat} {bs : List Byte} (runs : (s.uchGroup g).hart = some ch) (fits : bs.length ≤ 271) :
    ∃ t, exec (.hartDone g (.reply bs)) s = .next t ∧ t.get (F.UCH_G_HCTL.STATUS g) = 2 ∧ t.get (F.UCH_G_HLEN.RLEN g) = bs.length ∧
      (t.uchGroup g).hart = none ∧ t.flag F.UCH_EVT.HART_DONE = true := by
  obtain ⟨u, hu⟩ : ∃ u, u = (s.hartStore g bs).set (F.UCH_G_HLEN.RLEN g) bs.length := ⟨_, rfl⟩
  obtain ⟨status, group, done, rest⟩ := u.hartEnd_shows (g := g) ch (show 2 < 8 by decide)
  refine ⟨u.hartEnd g ch 2, ?_, status, ?_, by rw [group], done⟩
  · show execHartDone g (.reply bs) s = _
    unfold execHartDone
    rw [runs, hu]
  · rw [rest (F.UCH_G_HLEN.RLEN g) (by simp only [F.UCH_G_HLEN.RLEN, A.UCH_G_HLEN, A.UCH_G_HCTL]; omega)
      (by simp only [F.UCH_G_HLEN.RLEN, A.UCH_G_HLEN, A.UCH_G_HCNT]; omega) (by simp only [F.UCH_G_HLEN.RLEN, A.UCH_G_HLEN, A.CEL_DROP]; omega)
      (by simp only [F.UCH_G_HLEN.RLEN, A.UCH_G_HLEN, A.CEL_EVT]; omega) (by simp [F.UCH_G_HLEN.RLEN, F.UCH_EVT.HART_DONE])
      (fun h => by simp only [F.UCH_G_HLEN.RLEN, A.UCH_G_HLEN, A.UCH_EVT] at h; omega), hu, State.get_set_same _ _ _ (by simp [F.UCH_G_HLEN.RLEN])]
    exact Nat.mod_eq_of_lt (show bs.length < 512 by omega)

theorem hartFrameReceived_spec (on : s.uchOn = true) : ∃ t, exec (.hartFrameReceived g) s = .next t ∧
    t.get (F.UCH_G_HCNT.OTHER g) = min (s.get (F.UCH_G_HCNT.OTHER g) + 1) 255 :=
  ⟨_, if_pos on, State.get_bump _ (by simp [F.UCH_G_HCNT.OTHER])⟩

/-- The request that a group's buffer and length hold. -/
theorem State.hartBytes_congr {t : State} (same : ∀ i, i < 68 → t.rd (A.UCH_G_HBUF g i) = s.rd (A.UCH_G_HBUF g i)) (k : Nat) :
    t.hartBytes g k = s.hartBytes g k := by
  have words : (List.range 68).map (fun i => leBytes 4 (t.rd (A.UCH_G_HBUF g i)).toNat) =
      (List.range 68).map (fun i => leBytes 4 (s.rd (A.UCH_G_HBUF g i)).toNat) :=
    List.map_congr_left (fun i few => by rw [same i (List.mem_range.mp few)])
  unfold State.hartBytes
  rw [words]

/-- A kick on channel `n` of a group that no transaction holds, with `pre` preamble bytes. -/
def State.hartSends (t : State) (g n pre : Nat) : State :=
  if t.uchOn && t.flag (F.UCH_C_CFG.HART_EN n) && (t.uchMode n == 2 || t.uchMode n == 6) && !(t.uchGroup g).fault && 5 ≤ pre && pre ≤ 20 &&
      1 ≤ t.get (F.UCH_G_HLEN.LEN g) && t.get (F.UCH_G_HLEN.LEN g) ≤ 271 then
    ((t.set (F.UCH_G_HCTL.STATUS g) 1).setUchGroup g { t.uchGroup g with hart := some n }).emit
      (.hart g (List.replicate pre 0xFF ++ t.hartBytes g (t.get (F.UCH_G_HLEN.LEN g)) ++ [parityByte (t.hartBytes g (t.get (F.UCH_G_HLEN.LEN g)))]))
  else t.hartEnd g n 5

/-- A kick that passes every check of the group. -/
theorem hartSend_acts {hc len pre : Nat} {req : List Byte} (may : s.permits pf (A.UCH_G_HCTL g) w (some 0)) (kick : bit w.toNat 2 = true)
    (idle : s.get (F.UCH_G_HCTL.STATUS g) ≠ 1) (on : s.uchOn = true) (isHc : hc = 4 * g.val + fieldOf w 0 2)
    (enabled : s.flag (F.UCH_C_CFG.HART_EN hc) = true) (mode : s.uchMode hc = 6) (well : (s.uchGroup g).fault = false)
    (isPre : pre = fieldOf w 16 5) (least : 5 ≤ pre) (most : pre ≤ 20) (isLen : len = s.get (F.UCH_G_HLEN.LEN g)) (some_ : 1 ≤ len)
    (fits : len ≤ 271) (isReq : req = s.hartBytes g len) : ∃ t, exec (.hartSend pf g w) s = .next t ∧ t.get (F.UCH_G_HCTL.STATUS g) = 1 ∧
      (t.uchGroup g).hart = some hc ∧ t.outbox.head? = some (.hart g (List.replicate pre 0xFF ++ req ++ [parityByte req])) := by
  have row : fieldOf w 0 2 < 4 := fieldOf_lt _ _ _
  obtain ⟨c, hcd⟩ : ∃ c, c = s.checked pf (A.UCH_G_HCTL g) w (some 0) := ⟨_, rfl⟩
  obtain ⟨t, ht⟩ : ∃ t, t = c.hartSet g w := ⟨_, rfl⟩
  have rd : ∀ {a : Nat}, A.UCH_STATUS ≤ a → a ≤ A.UCH_G_HBUF 3 68 → c.rd a = s.rd a := fun {a} low high => by
    simp only [A.UCH_STATUS, A.UCH_G_HBUF] at low high
    rw [hcd, State.rd_checked _ _ _ _ _ (by simp only [A.ENG_EVT]; omega) (by simp only [A.CEL_DROP]; omega) (by simp only [A.CEL_EVT]; omega)]
  have same : ∀ {a : Nat}, A.UCH_STATUS ≤ a → a ≤ A.UCH_G_HBUF 3 68 → a ≠ A.UCH_G_HCTL g → t.rd a = s.rd a := fun low high other => by
    rw [ht, State.rd_hartSet _ other, rd low high]
  have busy : (c.get (F.UCH_G_HCTL.STATUS g) == 1) = false := by
    rw [State.get_congr (f := F.UCH_G_HCTL.STATUS g) (rd (by simp only [F.UCH_G_HCTL.STATUS, A.UCH_STATUS, A.UCH_G_HCTL]; omega)
      (by simp only [F.UCH_G_HCTL.STATUS, A.UCH_G_HBUF, A.UCH_G_HCTL]; omega))]
    simpa using idle
  have lens : t.get (F.UCH_G_HLEN.LEN g) = len := by
    rw [isLen]
    exact State.get_congr (same (by simp only [F.UCH_G_HLEN.LEN, A.UCH_STATUS, A.UCH_G_HLEN]; omega)
      (by simp only [F.UCH_G_HLEN.LEN, A.UCH_G_HBUF, A.UCH_G_HLEN]; omega) (by simp only [F.UCH_G_HLEN.LEN, A.UCH_G_HCTL, A.UCH_G_HLEN]; omega))
  have cfg : t.rd (A.UCH_C_CFG hc) = s.rd (A.UCH_C_CFG hc) := by
    have := g.isLt
    exact same (by simp only [A.UCH_STATUS, A.UCH_C_CFG]; omega) (by simp only [A.UCH_G_HBUF, A.UCH_C_CFG]; omega)
      (by simp only [A.UCH_G_HCTL, A.UCH_C_CFG]; omega)
  have powered : t.uchOn = true := (State.flag_congr (f := F.UCH_STATUS.POWERED) (same (a := A.UCH_STATUS) (Nat.le_refl _) (by decide)
    (by simp only [A.UCH_G_HCTL, A.UCH_STATUS]; omega))).trans on
  have enabledT : t.flag (F.UCH_C_CFG.HART_EN hc) = true := (State.flag_congr (f := F.UCH_C_CFG.HART_EN hc) cfg).trans enabled
  have modeT : t.uchMode hc = 6 := (State.get_congr (f := F.UCH_C_CFG.MODE hc) cfg).trans mode
  have group : t.uchGroup g = s.uchGroup g :=
    State.uchGroup_congr s (by rw [ht, State.hartSet_uchGrp, hcd, State.checked_uchGrp]) g
  have bytes : t.hartBytes g len = req := by
    rw [isReq]
    refine State.hartBytes_congr (fun i few => same ?_ ?_ ?_) len
    · simp only [A.UCH_STATUS, A.UCH_G_HBUF]; omega
    · simp only [A.UCH_G_HBUF]; omega
    · simp only [A.UCH_G_HCTL, A.UCH_G_HBUF]; omega
  have ran : exec (.hartSend pf g w) s = .next (((t.set (F.UCH_G_HCTL.STATUS g) 1).setUchGroup g { t.uchGroup g with hart := some hc }).emit
      (.hart g (List.replicate pre 0xFF ++ req ++ [parityByte req]))) := by
    show execHartSend pf g w s = _
    unfold execHartSend
    dsimp only
    rw [whenAllowed_acts s pf _ w (some 0) may rfl, ← hcd, busy, kick, if_pos (by rfl)]
    show Host.Outcome.next ((c.hartSet g w).hartSends g (4 * g.val + fieldOf w 0 2) (fieldOf w 16 5)) = _
    rw [← ht, ← isHc, ← isPre]
    unfold State.hartSends
    rw [lens, bytes, if_pos]
    simp [powered, enabledT, modeT, group, well, least, most, some_, fits]
  refine ⟨_, ran, ?_, ?_, rfl⟩
  · unfold State.emit
    exact (State.get_set_same t (F.UCH_G_HCTL.STATUS g) 1 (by simp [F.UCH_G_HCTL.STATUS])).trans rfl
  · exact congrArg UchGrp.hart (State.uchGroup_setUchGroup _ _ _)

end

/-! ### Group faults and straps (R365, R368) -/

section
variable {s : State} {g : Fin 4}

/-- A group's fault as the registers and the group show it. -/
theorem State.setGroupFault_shows (t : State) (on : Bool) : ((t.setGroupFault g on).uchGroup g).fault = on ∧
    (on = true → bit ((t.setGroupFault g on).get F.UCH_STATUS.GRP_OK) g = false) := by
  obtain ⟨u, hu⟩ : ∃ u, u = (t.set F.UCH_STATUS.GRP_OK (if on then (if bit (t.get F.UCH_STATUS.GRP_OK) g then t.get F.UCH_STATUS.GRP_OK - 2 ^ g.val
    else t.get F.UCH_STATUS.GRP_OK) else (if bit (t.get F.UCH_STATUS.GRP_OK) g then t.get F.UCH_STATUS.GRP_OK - 2 ^ g.val
    else t.get F.UCH_STATUS.GRP_OK) + 2 ^ g.val)) := ⟨_, rfl⟩
  have noted : ∀ v : State, ((List.range 4).foldl (fun t i => t.uchNote (4 * g + i)) v).uchGrp = v.uchGrp ∧
      ((List.range 4).foldl (fun t i => t.uchNote (4 * g + i)) v).get F.UCH_STATUS.GRP_OK = v.get F.UCH_STATUS.GRP_OK := fun v =>
    ⟨foldl_keeps State.uchGrp (fun t _ => (State.uchNote_kept (.refl 32768 t) (.refl _)).parts .uchGrp rfl) _ _,
      foldl_keeps (fun t : State => t.get F.UCH_STATUS.GRP_OK) (fun t _ => t.get_uchNote _ _) _ _⟩
  unfold State.setGroupFault
  dsimp only
  rw [← hu, State.uchGroup_congr _ (noted _).1, State.uchGroup_setUchGroup, (noted _).2, State.get_setUchGroup]
  refine ⟨rfl, fun faulty => ?_⟩
  have old : t.get F.UCH_STATUS.GRP_OK < 16 := fieldOf_lt _ _ _
  have clears : ∀ v : Nat, v < 16 → ∀ g : Fin 4, bit ((if bit v g then v - 2 ^ g.val else v) % 16) g = false := by decide
  rw [hu, State.get_set_same _ _ _ (by decide), if_pos faulty]
  exact clears _ old g

theorem grpFault_spec (on : s.uchOn = true) (well : (s.uchGroup g).fault = false) : ∃ u, exec (.grpFault g) s = .next u ∧
    (u.uchGroup g).fault = true ∧ u.flag F.UCH_EVT.GRP_FAULT = true ∧ bit (u.get F.UCH_STATUS.GRP_OK) g = false := by
  obtain ⟨fault, ok⟩ := s.setGroupFault_shows (g := g) true
  obtain ⟨u, hu⟩ : ∃ u, u = ((s.setGroupFault g true).raise F.UCH_EVT.GRP_FAULT).log 0x0643 2 (leBytes 1 g ++ leBytes 1 1) := ⟨_, rfl⟩
  have uFault : (u.uchGroup g).fault = true := by
    rw [hu, State.uchGroup_congr _ ((State.log_kept (.refl 16777230 _) (.refl _)).parts .uchGrp rfl),
      State.uchGroup_congr _ ((State.raise_kept (.refl 16777226 _) (.refl _)).parts .uchGrp rfl), fault]
  have uEvt : u.get F.UCH_EVT.GRP_FAULT = 1 := by
    rw [hu, State.get_log _ _ _ _ (by decide) (by decide), State.get_raise _ (by decide)]
    rfl
  have uOk : bit (u.get F.UCH_STATUS.GRP_OK) g = false := by
    rw [hu, State.get_log _ _ _ _ (by decide) (by decide), State.get_raise_ne _ (by decide), ok rfl]
  have ran : exec (.grpFault g) s = .next (u.hartCut g) := by
    show execGrpFault g s = _
    unfold execGrpFault
    rw [if_pos ⟨on, well⟩, hu]
  refine ⟨_, ran, ?_⟩
  unfold State.hartCut
  split
  next ch _ =>
    obtain ⟨-, group, -, rest⟩ := u.hartEnd_shows (g := g) ch (show 6 < 8 by decide)
    have event := rest F.UCH_EVT.GRP_FAULT (by simp only [F.UCH_EVT.GRP_FAULT, A.UCH_EVT, A.UCH_G_HCTL]; omega)
      (by simp only [F.UCH_EVT.GRP_FAULT, A.UCH_EVT, A.UCH_G_HCNT]; omega) (by decide) (by decide) (by decide) (fun _ => .inl (by decide))
    have status := rest F.UCH_STATUS.GRP_OK (by simp only [F.UCH_STATUS.GRP_OK, A.UCH_STATUS, A.UCH_G_HCTL]; omega)
      (by simp only [F.UCH_STATUS.GRP_OK, A.UCH_STATUS, A.UCH_G_HCNT]; omega) (by decide) (by decide) (by decide) (fun h => absurd h (by decide))
    exact ⟨by rw [group, uFault], State.flag_of_one _ (event.trans uEvt), by rw [status, uOk]⟩
  next => exact ⟨uFault, State.flag_of_one _ uEvt, uOk⟩

theorem grpRecover_spec (on : s.uchOn = true) (faulty : (s.uchGroup g).fault = true) (boundary : s.six % 100 = 0) :
    ∃ t, exec (.grpRecover g) s = .next t ∧ (t.uchGroup g).fault = false ∧ t.flag F.UCH_EVT.GRP_FAULT = true := by
  obtain ⟨well, -⟩ := s.setGroupFault_shows (g := g) false
  refine ⟨_, if_pos ⟨on, faulty, boundary⟩, ?_, State.flag_of_one _ ?_⟩
  · rw [State.uchGroup_congr _ (foldl_keeps State.uchGrp (fun t i => ?_) _ _),
      State.uchGroup_congr _ ((State.log_kept (.refl 16777230 _) (.refl _)).parts .uchGrp rfl),
      State.uchGroup_congr _ ((State.raise_kept (.refl 16777226 _) (.refl _)).parts .uchGrp rfl), well]
    split
    · rfl
    · rw [(State.uchDrive_kept (.refl 32770 _) (.refl _)).parts .uchGrp rfl, (State.uchSettle_kept (.refl 32770 t) (.refl _)).parts .uchGrp rfl]
  · refine (foldl_keeps (fun t : State => t.get F.UCH_EVT.GRP_FAULT) (fun t i => ?_) _ _).trans ?_
    · split
      · rfl
      · rw [State.get_uchDrive _ _ (.inl (by simp only [F.UCH_EVT.GRP_FAULT, A.UCH_EVT, A.UCH_C_STAT]; omega)), State.get_uchSettle _ _ _ (by decide)]
    · rw [State.get_log _ _ _ _ (by decide) (by decide), State.get_raise _ (by decide)]
      rfl

theorem controllerAlarmDrive_spec (on : s.uchOn = true) (faulty : (s.uchGroup g).fault = true) (first : (s.uchGroup g).driven = false) :
    ∃ t, exec (.controllerAlarmDrive g) s = .next t ∧ (t.uchGroup g).driven = true := by
  refine ⟨_, if_pos ⟨on, faulty, first⟩, ?_⟩
  rw [State.uchGroup_congr _ (foldl_keeps State.uchGrp (fun t i => ?_) _ _), State.uchGroup_setUchGroup]
  dsimp only
  split
  · split
    · rfl
    · rfl
  · rfl

theorem strapChg_spec {lvl : Bool} (changed : bit (s.get F.UCH_STATUS.ALMSEL) g ≠ lvl) : ∃ t, exec (.strapChg g lvl) s = .next t ∧
    t.flag F.UCH_EVT.STRAP_CHG = true ∧ t.get F.UCH_STATUS.ALMSEL = s.get F.UCH_STATUS.ALMSEL := by
  refine ⟨_, if_neg changed, State.flag_of_one _ ?_, ?_⟩
  · rw [State.get_log _ _ _ _ (by decide) (by decide), State.get_raise _ (by decide)]
    rfl
  · rw [State.get_log _ _ _ _ (by decide) (by decide), State.get_raise_ne _ (by decide)]

end

/-- Settles O55: each command by its rule above. -/
theorem universalChannels : Obligations.UniversalChannels := by
  intro s n g pf w raw tj op lvl v c ch due bs per a hc len req
  exact ⟨conversionStart_spec, fun runs later on counts => conversionDone_spec runs later on counts, cmdApply_spec, thermal_spec,
    fun stands may => ⟨uchHctlClr_spec stands may, uchHctlReq_spec stands may⟩, readbackSlot_spec,
    fun may => ⟨fun kick idle on enabled mode well least most some_ fits =>
      hartSend_acts may kick idle on rfl enabled mode well rfl least most rfl some_ fits rfl, hartAbort_spec may⟩,
    hartDone_spec, hartFrameReceived_spec, grpFault_spec,
    fun on faulty => ⟨grpRecover_spec on faulty, controllerAlarmDrive_spec on faulty⟩, strapChg_spec⟩
end Sys2Proof.Machine
end

section
/-!
PROOFS. Ethernet traffic: redundancy and links, GOOSE and sampled values, the host frame queues (R333 to R349).
-/
namespace Sys2Proof.Machine
open Sys2Proof

/-! ### Frames of a PRP pair (R334, R335) -/

section
variable {s : State} {p : Fin 4} {q : Fin 2} {f : EthFrame}

def State.withEth (s : State) (e : EthSt) : State := { s with eth := e }

theorem State.emit_outbox (s : State) (o : Out) : (s.emit o).outbox = o :: s.outbox := rfl

theorem State.withEth_outbox (s : State) (e : EthSt) : (s.withEth e).outbox = s.outbox := rfl

theorem State.withEth_clk (s : State) (e : EthSt) : (s.withEth e).clk = s.clk := rfl

/-- A frame that has come in at a port: its arrival, its LAN, its count. -/
def State.ethCame (s : State) (p : Nat) : State :=
  ((s.withEth { s.eth with lastRx := kvPut (fun _ => 0) s.eth.lastRx p s.six }).setLan p true).bump (F.ETH_E_RX.COUNT p)

theorem State.rd_setLan (s : State) (ok : Bool) {a : Nat} (stat : a ≠ A.ETH_E_STAT p) (status : a ≠ A.ETH_STATUS) : (s.setLan p ok).rd a = s.rd a := by
  unfold State.setLan
  rw [State.rd_set_ne _ _ (show a ≠ A.ETH_STATUS from status), State.rd_set_ne _ _ (show a ≠ A.ETH_E_STAT p from stat)]

theorem State.lan_setLan (s : State) (ok : Bool) : (s.setLan p ok).flag (F.ETH_E_STAT.LAN_OK p) = ok := by
  have other : A.ETH_E_STAT p ≠ A.ETH_STATUS := by simp only [A.ETH_E_STAT, A.ETH_STATUS]; omega
  have shown : (s.setLan p ok).get (F.ETH_E_STAT.LAN_OK p) = b2n ok := by
    unfold State.setLan
    rw [State.get_set_ne _ _ (show A.ETH_E_STAT p ≠ A.ETH_STATUS from other), State.get_set_same _ _ _ (by simp [F.ETH_E_STAT.LAN_OK])]
    cases ok <;> rfl
  rw [State.flag_eq, shown]
  cases ok <;> rfl

theorem State.setLan_eth (s : State) (ok : Bool) : (s.setLan p ok).eth = s.eth := by
  unfold State.setLan
  rw [State.set_eth, State.set_eth]

theorem State.setLan_clk (s : State) (ok : Bool) : (s.setLan p ok).clk = s.clk := by
  unfold State.setLan
  rw [State.set_clk, State.set_clk]

theorem State.ethCame_shows (s : State) : (s.ethCame p).flag (F.ETH_E_STAT.LAN_OK p) = true ∧
    (s.ethCame p).get (F.ETH_E_RX.COUNT p) = min (s.get (F.ETH_E_RX.COUNT p) + 1) (2 ^ 32 - 1) ∧
    (s.ethCame p).eth = { s.eth with lastRx := kvPut (fun _ => 0) s.eth.lastRx p s.six } ∧
    ∀ f : Field, f.addr ≠ A.ETH_E_STAT p → f.addr ≠ A.ETH_STATUS → f.addr ≠ A.ETH_E_RX p → (s.ethCame p).get f = s.get f := by
  unfold State.ethCame
  refine ⟨?_, ?_, ?_, fun f stat status rx => ?_⟩
  · rw [State.flag_of_get _ (State.get_bump_ne _ (by simp only [F.ETH_E_STAT.LAN_OK, F.ETH_E_RX.COUNT, A.ETH_E_STAT, A.ETH_E_RX]; omega)),
      State.lan_setLan]
  · rw [State.get_bump _ (by simp [F.ETH_E_RX.COUNT])]
    rw [State.get_congr (f := F.ETH_E_RX.COUNT p) (State.rd_setLan _ _ (by simp only [F.ETH_E_RX.COUNT, A.ETH_E_RX, A.ETH_E_STAT]; omega)
      (by simp only [F.ETH_E_RX.COUNT, A.ETH_E_RX, A.ETH_STATUS]; omega))]
    rfl
  · rw [State.bump_eth, State.setLan_eth]
    rfl
  · rw [State.get_bump_ne _ (show f.addr ≠ A.ETH_E_RX p from rx), State.get_congr (State.rd_setLan _ _ stat status)]
    rfl

theorem ethFrameReceived_prp (on : s.ethOn = true) (prp : s.ethMode (pairOf p) = 1) (link : s.hasLink p = true) (noPtp : f.etherType ≠ 0x88F7) :
    exec (.ethFrameReceived p f) s = .next (if f.len < 64 ∨ 1522 < f.len ∨ f.fcsOk = false then (s.ethCame p).bump (F.ETH_E_ERR.COUNT p)
      else if ((s.ethCame p).redundancy p f).1 then ((s.ethCame p).redundancy p f).2.ethRoute p f else ((s.ethCame p).redundancy p f).2) := by
  have mode : (s.ethCame p).ethMode (pairOf p) = 1 := by
    rw [← prp]
    exact s.ethCame_shows.2.2.2 _ (by simp only [F.ETH_PAIR_CFG.MODE, A.ETH_PAIR_CFG, A.ETH_E_STAT, pairOf]; omega)
      (by simp only [F.ETH_PAIR_CFG.MODE, A.ETH_PAIR_CFG, A.ETH_STATUS, pairOf]; omega)
      (by simp only [F.ETH_PAIR_CFG.MODE, A.ETH_PAIR_CFG, A.ETH_E_RX, pairOf]; omega)
  show execEthFrameReceived p f s = _
  unfold execEthFrameReceived
  dsimp only
  rw [if_pos (by rw [on, prp, link]; rfl)]
  show (if f.len < 64 ∨ 1522 < f.len ∨ f.fcsOk = false then Host.Outcome.next ((s.ethCame p).bump _)
    else if (s.ethCame p).ethMode (pairOf p) = 1 then if f.etherType = 0x88F7 then _ else Host.Outcome.next (if ((s.ethCame p).redundancy p f).1 then
      ((s.ethCame p).redundancy p f).2.ethRoute p f else ((s.ethCame p).redundancy p f).2) else _) = _
  rw [if_pos mode, if_neg noPtp]
  split
  · rfl
  · rfl

theorem ethFrameReceived_spec {sq : Nat} (on : s.ethOn = true) (prp : s.ethMode (pairOf p) = 1) (link : s.hasLink p = true)
    (noPtp : f.etherType ≠ 0x88F7) :
    (64 ≤ f.len → f.len ≤ 1522 → f.fcsOk = true → f.seq = none → ∃ u : State, exec (.ethFrameReceived p f) s = .next (u.ethRoute p f) ∧
      u.flag (F.ETH_E_STAT.LAN_OK p) = true ∧ u.get (F.ETH_E_RX.COUNT p) = min (s.get (F.ETH_E_RX.COUNT p) + 1) (2 ^ 32 - 1) ∧
      kvGet (fun _ => 0) u.eth.lastRx p = s.six) ∧
    (f.fcsOk = false → ∃ t, exec (.ethFrameReceived p f) s = .next t ∧
      t.get (F.ETH_E_ERR.COUNT p) = min (s.get (F.ETH_E_ERR.COUNT p) + 1) (2 ^ 32 - 1)) ∧
    (64 ≤ f.len → f.len ≤ 1522 → f.fcsOk = true → f.seq = some sq → dupHit (kvGet (fun _ => []) s.eth.seen (pairOf p)) f.src sq s.six = true →
      ∃ t, exec (.ethFrameReceived p f) s = .next t ∧ t.get (F.ETH_E_DUP.COUNT p) = min (s.get (F.ETH_E_DUP.COUNT p) + 1) (2 ^ 32 - 1)) := by
  have ran := ethFrameReceived_prp on prp link noPtp
  obtain ⟨lan, rx, eth, rest⟩ := s.ethCame_shows (p := p)
  have good : 64 ≤ f.len → f.len ≤ 1522 → f.fcsOk = true → ¬(f.len < 64 ∨ 1522 < f.len ∨ f.fcsOk = false) := fun least most ok => by
    rw [ok]
    simp
    omega
  refine ⟨fun least most ok plain => ⟨s.ethCame p, ?_, lan, rx, by rw [eth]; exact kvGet_put_same _ _ _ _⟩, fun bad => ⟨_, ran, ?_⟩,
    fun least most ok tagged second => ⟨_, ran, ?_⟩⟩
  · have single : (s.ethCame p).redundancy p f = (true, s.ethCame p) := by
      unfold State.redundancy
      rw [plain]
    rw [ran, if_neg (good least most ok), single, if_pos rfl]
  · rw [if_pos (.inr (.inr bad)), State.get_bump _ (by simp [F.ETH_E_ERR.COUNT]),
      rest _ (by simp only [F.ETH_E_ERR.COUNT, A.ETH_E_ERR, A.ETH_E_STAT]; omega) (by simp only [F.ETH_E_ERR.COUNT, A.ETH_E_ERR, A.ETH_STATUS]; omega)
        (by simp only [F.ETH_E_ERR.COUNT, A.ETH_E_ERR, A.ETH_E_RX]; omega)]
    rfl
  · have six : (s.ethCame p).six = s.six := by
      unfold State.ethCame State.six
      rw [State.bump_clk, State.setLan_clk, State.withEth_clk]
    have repeated : (s.ethCame p).redundancy p f = (false, (s.ethCame p).bump (F.ETH_E_DUP.COUNT p)) := by
      unfold State.redundancy
      rw [tagged]
      dsimp only
      rw [eth, six, if_pos second]
    rw [if_neg (good least most ok), repeated, if_neg Bool.false_ne_true, State.get_bump _ (by simp [F.ETH_E_DUP.COUNT]),
      rest _ (by simp only [F.ETH_E_DUP.COUNT, A.ETH_E_DUP, A.ETH_E_STAT]; omega) (by simp only [F.ETH_E_DUP.COUNT, A.ETH_E_DUP, A.ETH_STATUS]; omega)
        (by simp only [F.ETH_E_DUP.COUNT, A.ETH_E_DUP, A.ETH_E_RX]; omega)]
    rfl

/-! ### Links, LANs and supervision frames (R335, R337) -/

theorem State.link_setLink (s : State) (up : Bool) : (s.setLink p up).hasLink p = up := by
  have other : A.ETH_E_STAT p ≠ A.ETH_STATUS := by simp only [A.ETH_E_STAT, A.ETH_STATUS]; omega
  have shown : (s.setLink p up).get (F.ETH_E_STAT.LINK p) = b2n up := by
    unfold State.setLink
    rw [State.get_set_ne _ _ (show A.ETH_E_STAT p ≠ A.ETH_STATUS from other), State.get_set_same _ _ _ (by simp [F.ETH_E_STAT.LINK])]
    cases up <;> rfl
  unfold State.hasLink
  rw [State.flag_eq, shown]
  cases up <;> rfl

theorem linkChg_spec {up : Bool} (on : s.ethOn = true) (changes : s.hasLink p ≠ up) : ∃ t, exec (.linkChg p up) s = .next t ∧ t.hasLink p = up ∧
    t.flag F.ETH_EVT.LINK_CHG = true := by
  obtain ⟨u, hu⟩ : ∃ u, u = (s.setLink p up).raise F.ETH_EVT.LINK_CHG := ⟨_, rfl⟩
  have link : u.hasLink p = up := by
    have other : (F.ETH_E_STAT.LINK p).addr ≠ F.ETH_EVT.LINK_CHG.addr := by
      simp only [F.ETH_E_STAT.LINK, F.ETH_EVT.LINK_CHG, A.ETH_E_STAT, A.ETH_EVT]; omega
    rw [hu]
    exact (State.flag_of_get (f := F.ETH_E_STAT.LINK p) _ (State.get_raise_ne _ other)).trans (s.link_setLink up)
  have event : u.flag F.ETH_EVT.LINK_CHG = true := by
    rw [hu]
    exact State.flag_raise _ _ (by decide) rfl
  refine ⟨u.withEth { u.eth with lastRx := if up then kvPut (fun _ => 0) u.eth.lastRx p u.six else u.eth.lastRx }, ?_, link, event⟩
  show execLinkChg p up s = _
  unfold execLinkChg
  rw [if_pos (by simp [on, changes]), hu]
  rfl

theorem lanLoss_spec (on : s.ethOn = true) (live : s.flag (F.ETH_E_STAT.LAN_OK p) = true) (noLink : s.hasLink p = false) :
    ∃ t, exec (.lanLoss p) s = .next t ∧ t.flag (F.ETH_E_STAT.LAN_OK p) = false ∧ t.flag F.ETH_EVT.LAN_LOSS = true := by
  obtain ⟨u, hu⟩ : ∃ u, u = (s.setLan p false).raise F.ETH_EVT.LAN_LOSS := ⟨_, rfl⟩
  refine ⟨u.logNamed "ETH_LAN_LOSS" (leBytes 1 p), ?_, ?_, ?_⟩
  · show execLanLoss p s = _
    unfold execLanLoss
    dsimp only
    rw [if_pos (by rw [on, live, noLink]; rfl), hu]
  · rw [State.flag_of_get _ (State.get_logNamed _ _ _ (by simp only [F.ETH_E_STAT.LAN_OK, A.ETH_E_STAT, A.CEL_DROP]; omega)
      (by simp only [F.ETH_E_STAT.LAN_OK, A.ETH_E_STAT, A.CEL_EVT]; omega)), hu,
      State.flag_of_get _ (State.get_raise_ne _ (by simp only [F.ETH_E_STAT.LAN_OK, F.ETH_EVT.LAN_LOSS, A.ETH_E_STAT, A.ETH_EVT]; omega)),
      State.lan_setLan]
  · rw [State.flag_of_get _ (State.get_logNamed _ _ _ (by decide) (by decide)), hu]
    exact State.flag_raise _ _ (by decide) rfl

theorem prpSupervisionSend_spec (on : s.ethOn = true) (prp : s.ethMode q = 1) (due : kvGet (fun _ => 0) s.eth.supNext q ≤ s.six)
    (first : s.hasLink (2 * q) = true) (second : s.hasLink (2 * q + 1) = true) :
    ∃ t, exec (.prpSupervisionSend q) s = .next t ∧ t.outbox = .eth (2 * q + 1) (some (kvGet (fun _ => 0) s.eth.seq q)) 0 .supervision ::
      .eth (2 * q) (some (kvGet (fun _ => 0) s.eth.seq q)) 0 .supervision :: s.outbox := by
  obtain ⟨u, hu⟩ : ∃ u, u = s.withEth { s.eth with seq := kvPut (fun _ => 0) s.eth.seq q ((kvGet (fun _ => 0) s.eth.seq q + 1) % 65536) } := ⟨_, rfl⟩
  have links : u.hasLink (2 * q) = true ∧ ∀ o, (u.emit o).hasLink (2 * q + 1) = true := by
    rw [hu]
    exact ⟨first, fun _ => second⟩
  have sent : s.ethSend q 0 .supervision = (u.emit (.eth (2 * q) (some (kvGet (fun _ => 0) s.eth.seq q)) 0 .supervision)).emit
      (.eth (2 * q + 1) (some (kvGet (fun _ => 0) s.eth.seq q)) 0 .supervision) := by
    unfold State.ethSend
    rw [if_pos (by rw [on, prp]; rfl)]
    dsimp only
    show List.foldl (fun t p => if t.hasLink p then t.emit (.eth p (some (kvGet (fun _ => 0) s.eth.seq q)) 0 .supervision) else t)
      (s.withEth _) [_, _] = _
    rw [← hu, List.foldl_cons, if_pos links.1, List.foldl_cons, if_pos (links.2 _), List.foldl_nil]
  obtain ⟨v, hv⟩ : ∃ v, v = s.ethSend q 0 .supervision := ⟨_, rfl⟩
  refine ⟨v.withEth { v.eth with supNext := kvPut (fun _ => 0) v.eth.supNext q (v.six + lanTimeout) }, ?_, ?_⟩
  · show execPrpSupervisionSend q s = _
    unfold execPrpSupervisionSend
    rw [if_pos (by rw [on, prp, decide_eq_true due]; rfl), hv]
    rfl
  · rw [State.withEth_outbox, hv, sent, State.emit_outbox, State.emit_outbox, hu, State.withEth_outbox]

end
end Sys2Proof.Machine
end

section
/-!
PROOFS. GOOSE, sampled values and the host frame queues (R339 to R349).
-/
namespace Sys2Proof.Machine
open Sys2Proof

section
variable {s : State} {n : Fin 256}

/-! ### The oldest waiting frame of a context (R339, R344) -/

theorem State.takeWaiting_one {r : Routed} {w : Routed → Bool} (waits : s.eth.waiting = [r]) (mine : w r = true) :
    s.takeWaiting w = some (r, s.withEth { s.eth with waiting := [] }) := by
  unfold State.takeWaiting
  rw [waits, List.find?_cons_of_pos mine, List.eraseP_cons_of_pos mine]
  rfl

theorem State.kindMatches {r : Routed} {k : Nat} (to_ : r.ctx = some n.val) (kind : s.kind n = k) :
    (r.ctx == some n.val && s.kind n == k) = true := by
  rw [to_, kind]
  simp

theorem gooseReceived_spec {r : Routed} {g : GooseSub} {m : GooseMsg} (waits : s.eth.waiting = [r]) (to_ : r.ctx = some n.val)
    (kind : s.kind n = 4) (sub : s.fp.gooseSub.lookup n.val = some g) (goose : r.frame.body = .goose m) (ok : s.gooseMatches n g m = true)
    (fresh : (s.ethCtx n).deadline = none) :
    ∃ u : State, u.eth.waiting = [] ∧ exec (.gooseReceived n) s = .next (u.gooseSupervise n r.six m) := by
  have taken := State.takeWaiting_one (w := fun r => r.ctx == some n.val && s.kind n == 4) waits (State.kindMatches to_ kind)
  obtain ⟨u, hu⟩ : ∃ u, u = s.withEth { s.eth with waiting := [] } := ⟨_, rfl⟩
  have noDeadline : (u.ethCtx n).deadline = none := by rw [hu]; exact fresh
  refine ⟨u, by rw [hu]; rfl, ?_⟩
  show execGooseReceived n s = _
  unfold execGooseReceived
  rw [taken, sub, ← hu]
  dsimp only
  rw [goose]
  dsimp only
  rw [if_pos ok, noDeadline]
  rfl

theorem svFrameReceived_spec {r : Routed} {v : SvSub} {fr : SvFrame} {a : Asdu} (waits : s.eth.waiting = [r]) (to_ : r.ctx = some n.val)
    (kind : s.kind n = 2) (sub : s.fp.svSub.lookup n.val = some v) (sv : r.frame.body = .sv fr) (id : fr.svId = v.svId)
    (rev : fr.confRev = v.confRev) (one : v.asdus = 1) (only : fr.asdus = [a]) (chans : a.vals.length = s.nch n) (count : a.smpCnt < v.rate) :
    ∃ u : State, u.eth.waiting = [] ∧ exec (.svFrameReceived n) s =
      .next (((u.svAsdu n v.rate a).set (F.ETH_C_SQNUM.NUM n) a.smpCnt).set64 (A.ETH_C_LAST n) r.six) := by
  have taken := State.takeWaiting_one (w := fun r => r.ctx == some n.val && s.kind n == 2) waits (State.kindMatches to_ kind)
  obtain ⟨u, hu⟩ : ∃ u, u = s.withEth { s.eth with waiting := [] } := ⟨_, rfl⟩
  have fits : fr.asdus.all (fun a => a.vals.length == s.nch n && decide (a.smpCnt < v.rate)) = true := by
    rw [only]
    simp [chans, count]
  refine ⟨u, by rw [hu]; rfl, ?_⟩
  show execSvFrameReceived n s = _
  unfold execSvFrameReceived
  rw [taken, sub, ← hu]
  dsimp only
  rw [sv]
  dsimp only
  rw [if_pos ⟨id, rev, by rw [only, one]; rfl, fits⟩, only, List.foldl_cons, List.foldl_nil]

/-! ### GOOSE supervision and publication (R340, R342) -/

/-- A waiting event writes one bit of a task's status word, which no event register of a block is. -/
theorem State.rd_pendEvent_row (t : State) (hit : Sources → Bool) (tag : Nat) {a : Nat} (row : a % 32 ≠ 8) : (t.pendEvent hit tag).rd a = t.rd a := by
  unfold State.pendEvent
  split
  · refine foldl_keeps (fun t : State => t.rd a) (fun t k => ?_) _ _
    rw [State.rd_pendShadow, State.pendTask, State.rd_set_ne, State.rd_setTaskRt]
    simp only [A.TSK_T_STAT, F.TSK_T_STAT.PENDING]
    omega
  · rfl

theorem State.gooseChange_shows (t : State) (tag : Nat) : (t.gooseChange n tag).eth = t.eth ∧
    (t.gooseChange n tag).get F.ETH_EVT.TAL = t.get F.ETH_EVT.TAL := by
  refine ⟨(State.gooseChange_kept (.refl 17047562 t) (.refl _)).parts .eth rfl, ?_⟩
  unfold State.gooseChange
  rw [State.get_congr (f := F.ETH_EVT.TAL) (State.rd_pendEvent_row _ _ _ (by decide)), State.get_raise_apart _ (by decide) (by decide)]

theorem State.ethCtx_congr {t : State} (h : t.eth = s.eth) (k : Nat) : t.ethCtx k = s.ethCtx k := by
  unfold State.ethCtx
  rw [h]

theorem State.ethCtx_setEthCtx (t : State) (x : EthCtx) : (t.setEthCtx n x).ethCtx n = x := kvGet_put_same _ _ _ _

/-- The context whose message has not come, with what the registers show. -/
def State.talShown (u : State) (n d : Nat) : State :=
  ((((u.ctxMissing n d).bump (F.ETH_C_CNT.TAL n)).raise F.ETH_EVT.TAL).gooseChange n d).logNamed "GOOSE_TAL" (leBytes 1 n ++ leBytes 8 d)

theorem State.talShown_shows (u : State) (d : Nat) : (u.talShown n d).eth = u.eth ∧ (u.talShown n d).get F.ETH_EVT.TAL = 1 := by
  unfold State.talShown
  refine ⟨?_, ?_⟩
  · rw [(State.logNamed_kept (.refl 16777230 _) (.refl _)).parts .eth rfl, (State.gooseChange_shows _ d).1,
      (State.raise_kept (.refl 16777226 _) (.refl _)).parts .eth rfl, State.bump_eth, (State.ctxMissing_kept (.refl 16777354 u) (.refl _)).parts .eth rfl]
  · rw [State.get_logNamed _ _ _ (by decide) (by decide), (State.gooseChange_shows _ d).2, State.get_raise _ (by decide)]
    rfl

theorem gooseTalExpired_spec {d : Nat} (stands : (s.ethCtx n).deadline = some d) (kind : s.kind n = 4) (late : d < s.six)
    (noWaiting : s.eth.waiting = []) : ∃ t, exec (.gooseTalExpired n) s = .next t ∧ t.flag F.ETH_EVT.TAL = true ∧
      (t.ethCtx n).deadline = none ∧ (t.ethCtx n).seen = false := by
  obtain ⟨u, hu⟩ : ∃ u, u = s.setEthCtx n { s.ethCtx n with deadline := none, seen := false } := ⟨_, rfl⟩
  obtain ⟨v, hv⟩ : ∃ v, v = match (u.ctx n).data with
    | x :: _ => u.pushData n { x with at_ := d, done := u.six, q := (x.q ||| qMISSING) / 2 * 2 }
    | [] => u := ⟨_, rfl⟩
  have ran : exec (.gooseTalExpired n) s = .next (v.talShown n d) := by
    show execGooseTalExpired n s = _
    unfold execGooseTalExpired
    rw [stands]
    dsimp only
    rw [if_pos ⟨kind, late, by rw [noWaiting]; rfl⟩, hv, hu]
    rfl
  have eth : v.eth = u.eth := by
    rw [hv]
    split
    · exact (State.pushData_kept (.refl 128 u) (.refl _)).parts .eth rfl
    · rfl
  have ctx : (v.talShown n d).ethCtx n = { s.ethCtx n with deadline := none, seen := false } := by
    rw [State.ethCtx_congr ((v.talShown_shows d).1.trans eth), hu, State.ethCtx_setEthCtx]
  refine ⟨_, ran, State.flag_of_one _ (v.talShown_shows d).2, by rw [ctx], by rw [ctx]⟩

/-- A frame of a pair leaves: registers, contexts' publications and memory stay. -/
theorem State.ethSend_shows (t : State) (pair pcp : Nat) (body : EthOut) : (t.ethSend pair pcp body).regs = t.regs ∧
    (t.ethSend pair pcp body).clk = t.clk ∧ (t.ethSend pair pcp body).mem = t.mem ∧ (t.ethSend pair pcp body).eth.ctx = t.eth.ctx := by
  refine ⟨(State.ethSend_kept (.refl 16908288 t) (.refl _)).parts .regs rfl, (State.ethSend_kept (.refl 16908288 t) (.refl _)).parts .clk rfl,
    (State.ethSend_kept (.refl 16908288 t) (.refl _)).parts .mem rfl, ?_⟩
  unfold State.ethSend
  split
  · dsimp only
    refine (foldl_keeps (fun t : State => t.eth.ctx) (fun t p => ?_) _ _).trans rfl
    split
    · rfl
    · rfl
  · rfl

theorem State.ethCtx_ctx {t : State} (h : t.eth.ctx = s.eth.ctx) (k : Nat) : t.ethCtx k = s.ethCtx k := by
  unfold State.ethCtx
  rw [h]

theorem State.gooseSend_shows (t : State) (gp : GoosePub) : ((t.gooseSend n gp).ethCtx n).gaps = (t.ethCtx n).gaps ∧
    (t.gooseSend n gp).get64 (A.ETH_C_LAST n) = t.six % 2 ^ 64 ∧ (t.gooseSend n gp).get (F.ETH_C_SQNUM.NUM n) = t.get (F.ETH_C_SQNUM.NUM n) := by
  have shaped : ∀ (x : EthCtx) (pair : Nat) (body : EthOut), x.gaps = (t.ethCtx n).gaps →
      ((((t.setEthCtx n x).ethSend pair gp.pcp body).set64 (A.ETH_C_LAST n) ((t.setEthCtx n x).ethSend pair gp.pcp body).six).ethCtx n).gaps =
        (t.ethCtx n).gaps ∧
      (((t.setEthCtx n x).ethSend pair gp.pcp body).set64 (A.ETH_C_LAST n) ((t.setEthCtx n x).ethSend pair gp.pcp body).six).get64 (A.ETH_C_LAST n) =
        t.six % 2 ^ 64 ∧
      (((t.setEthCtx n x).ethSend pair gp.pcp body).set64 (A.ETH_C_LAST n) ((t.setEthCtx n x).ethSend pair gp.pcp body).six).get (F.ETH_C_SQNUM.NUM n) =
        t.get (F.ETH_C_SQNUM.NUM n) := by
    intro x pair body gaps
    obtain ⟨regs, clk, -, ctx⟩ := (t.setEthCtx n x).ethSend_shows pair gp.pcp body
    have six : ((t.setEthCtx n x).ethSend pair gp.pcp body).six = t.six := congrArg Clk.six clk
    refine ⟨?_, ?_, ?_⟩
    · rw [State.ethCtx_congr (State.set64_eth _ _ _), State.ethCtx_ctx ctx, State.ethCtx_setEthCtx, gaps]
    · rw [State.get64_set64, six]
    · rw [State.get_set64_ne _ _ (by simp only [F.ETH_C_SQNUM.NUM, A.ETH_C_SQNUM, A.ETH_C_LAST]; omega)
        (by simp only [F.ETH_C_SQNUM.NUM, A.ETH_C_SQNUM, A.ETH_C_LAST]; omega), State.get_congr (State.rd_congr regs _)]
      rfl
  unfold State.gooseSend
  exact shaped _ _ _ rfl

theorem gooseRetransmit_spec {gp : GoosePub} (pub : s.fp.goosePub.lookup n.val = some gp) (on : s.ethOn = true) (kind : s.kind n = 5)
    (runs : (s.ethCtx n).pubOn = true) (due : (s.ethCtx n).next ≤ s.six) :
    ∃ t, exec (.gooseRetransmit n) s = .next t ∧ t.get (F.ETH_C_SQNUM.NUM n) = nextSt (s.get (F.ETH_C_SQNUM.NUM n)) ∧
      t.get64 (A.ETH_C_LAST n) = s.six % 2 ^ 64 ∧ (t.ethCtx n).gaps = (s.ethCtx n).gaps + 1 := by
  obtain ⟨u, hu⟩ : ∃ u, u = (s.setEthCtx n { s.ethCtx n with gaps := (s.ethCtx n).gaps + 1 }).set (F.ETH_C_SQNUM.NUM n)
    (nextSt (s.get (F.ETH_C_SQNUM.NUM n))) := ⟨_, rfl⟩
  obtain ⟨gaps, last, sq⟩ := u.gooseSend_shows (n := n) gp
  have small : s.get (F.ETH_C_SQNUM.NUM n) < 2 ^ 32 := fieldOf_lt _ _ _
  refine ⟨u.gooseSend n gp, ?_, ?_, ?_, ?_⟩
  · show execGooseRetransmit n s = _
    unfold execGooseRetransmit
    dsimp only
    rw [pub]
    dsimp only
    rw [if_pos (by rw [on, kind, runs, decide_eq_true due]; rfl), hu]
  · rw [sq, hu, State.get_set_same _ _ _ (by simp [F.ETH_C_SQNUM.NUM])]
    refine Nat.mod_eq_of_lt ?_
    show nextSt _ < 2 ^ 32
    unfold nextSt
    split <;> omega
  · rw [last, State.six, hu, State.set_clk, State.setEthCtx_clk]
    rfl
  · rw [gaps, hu, State.ethCtx_congr (State.set_eth _ _ _), State.ethCtx_setEthCtx]

theorem svPublish_spec {vp : SvPub} (pub : s.fp.svPub.lookup n.val = some vp) (on : s.ethOn = true) (kind : s.kind n = 3) (some_ : 0 < vp.asdus)
    (full : vp.asdus ≤ (s.ethCtx n).asdus.length) : ∃ t, exec (.svPublish n) s = .next t ∧
      (t.ethCtx n).asdus = (s.ethCtx n).asdus.drop vp.asdus ∧ t.get64 (A.ETH_C_LAST n) = s.six % 2 ^ 64 := by
  obtain ⟨u, hu⟩ : ∃ u, u = s.setEthCtx n { s.ethCtx n with asdus := (s.ethCtx n).asdus.drop vp.asdus } := ⟨_, rfl⟩
  obtain ⟨v, hv⟩ : ∃ v, v = u.ethSend (u.get (F.ETH_C_STAT.PAIR n)) vp.pcp (.sv n ((s.ethCtx n).asdus.take vp.asdus)) := ⟨_, rfl⟩
  obtain ⟨-, clk, -, ctx⟩ := u.ethSend_shows (u.get (F.ETH_C_STAT.PAIR n)) vp.pcp (.sv n ((s.ethCtx n).asdus.take vp.asdus))
  have six : v.six = s.six := by
    rw [State.six, hv, clk, hu, State.setEthCtx_clk]
    rfl
  refine ⟨(v.set (F.ETH_C_SQNUM.NUM n) ((((s.ethCtx n).asdus.take vp.asdus).map Asdu.smpCnt).getLastD 0)).set64 (A.ETH_C_LAST n) v.six, ?_, ?_, ?_⟩
  · show execSvPublish n s = _
    unfold execSvPublish
    dsimp only
    rw [pub]
    dsimp only
    rw [if_pos (by rw [on, kind, decide_eq_true ⟨some_, full⟩]; rfl), hv, hu]
  · rw [State.ethCtx_congr (State.set64_eth _ _ _), State.ethCtx_congr (State.set_eth _ _ _), hv, State.ethCtx_ctx ctx, hu, State.ethCtx_setEthCtx]
  · rw [State.get64_set64, six]

/-! ### The host frame queues (R348, R349) -/

theorem hostRxFrame_spec {r : Routed} {lg head rx buf room : Nat} (isLg : lg = s.get F.ETH_HRX_CTL.LOG2N) (isHead : head = s.get F.ETH_HRX_IDX.HEAD)
    (isRx : rx = ringDesc (s.get64 A.ETH_HRX_BASE) head) (isBuf : buf = s.loadNat spHost rx 8) (isRoom : room = s.loadNat spHost (rx + 8) 2)
    (waits : s.eth.waiting = [r]) (host : r.ctx = none) (on : s.flag F.ETH_HRX_CTL.EN = true)
    (free : ringNext lg head ≠ s.get F.ETH_HRX_IDX.TAIL % 2 ^ lg) (small : lg ≤ 12) :
    ∃ t, exec .hostRxFrame s = .next t ∧ t.get F.ETH_HRX_IDX.HEAD = ringNext lg head ∧ t.flag F.ETH_EVT.HRX = true ∧ t.eth.waiting = [] ∧
      ∀ sp x, ¬(sp = spHost ∧ (buf ≤ x ∧ x < buf + min room r.frame.bytes.length ∨ rx + 8 ≤ x ∧ x < rx + 16)) → t.byteAt sp x = s.byteAt sp x := by
  have taken := State.takeWaiting_one (w := fun r => r.ctx.isNone) waits (by rw [host]; rfl)
  obtain ⟨u, hu⟩ : ∃ u, u = s.withEth { s.eth with waiting := [] } := ⟨_, rfl⟩
  obtain ⟨v, hv⟩ : ∃ v, v = u.storeBytes spHost buf (r.frame.bytes.take room) := ⟨_, rfl⟩
  obtain ⟨w, hw⟩ : ∃ w, w = v.storeBytes spHost (rx + 8) (leBytes 2 r.frame.bytes.length ++
    leBytes 1 (1 + 2 * b2n (decide (room < r.frame.bytes.length)) + 4 * b2n r.frame.tagged) ++ leBytes 1 r.port ++ leBytes 4 r.six) := ⟨_, rfl⟩
  have fields : u.get F.ETH_HRX_CTL.LOG2N = lg ∧ u.get F.ETH_HRX_IDX.HEAD = head ∧ u.flag F.ETH_HRX_CTL.EN = true ∧
      u.get F.ETH_HRX_IDX.TAIL = s.get F.ETH_HRX_IDX.TAIL ∧ ringDesc (u.get64 A.ETH_HRX_BASE) head = rx ∧ u.loadNat spHost rx 8 = buf ∧
      u.loadNat spHost (rx + 8) 2 = room := by
    rw [isLg, isRoom, isBuf, isRx, isHead, ← on, hu]
    exact ⟨rfl, rfl, rfl, rfl, rfl, rfl, rfl⟩
  obtain ⟨lgU, headU, onU, tailU, rxU, bufU, roomU⟩ := fields
  have ran : exec .hostRxFrame s = .next ((w.set F.ETH_HRX_IDX.HEAD (ringNext lg head)).raise F.ETH_EVT.HRX) := by
    show execHostRxFrame s = _
    unfold execHostRxFrame
    rw [taken, ← hu]
    dsimp only
    rw [lgU, headU, rxU, bufU, roomU, onU, tailU, if_neg (by simpa using free), hw, hv]
  have eth : w.eth = u.eth := by rw [hw, hv]; rfl
  refine ⟨_, ran, ?_, State.flag_raise _ _ (by decide) rfl, ?_, fun sp x apart => ?_⟩
  · rw [State.get_raise_ne _ (by decide), State.get_set_same _ _ _ (by decide)]
    have pow : 2 ^ lg ≤ 2 ^ 12 := Nat.pow_le_pow_right (by decide) small
    have below : ringNext lg head < 2 ^ lg := Nat.mod_lt _ (Nat.two_pow_pos lg)
    refine Nat.mod_eq_of_lt ?_
    show ringNext lg head < 2 ^ 16
    omega
  · rw [(State.raise_kept (.refl 16777226 _) (.refl _)).parts .eth rfl, State.set_eth, eth, hu]
    rfl
  · have mem : ((w.set F.ETH_HRX_IDX.HEAD (ringNext lg head)).raise F.ETH_EVT.HRX).mem = w.mem := by
      rw [(State.raise_kept (.refl 16777226 _) (.refl _)).parts .mem rfl, State.set_mem]
    rw [State.byteAt_congr mem, hw, State.byteAt_storeBytes_outside, hv, State.byteAt_storeBytes_outside, hu]
    · rfl
    · rintro ⟨rfl, low, high⟩
      rw [List.length_take] at high
      exact apart ⟨rfl, .inl ⟨low, high⟩⟩
    · rintro ⟨rfl, low, high⟩
      simp only [List.length_append, leBytes_length] at high
      exact apart ⟨rfl, .inr ⟨low, by omega⟩⟩

theorem hostTxSend_spec {tl th tx : Nat} (isTl : tl = s.get F.ETH_HTX_CTL.LOG2N) (isTh : th = s.get F.ETH_HTX_IDX.HEAD)
    (isTx : tx = ringDesc (s.get64 A.ETH_HTX_BASE) th) (powered : s.ethOn = true) (on : s.flag F.ETH_HTX_CTL.EN = true)
    (some_ : th ≠ s.get F.ETH_HTX_IDX.TAIL % 2 ^ tl) (small : tl ≤ 12) :
    ∃ t, exec .hostTxSend s = .next t ∧ t.get F.ETH_HTX_IDX.HEAD = ringNext tl th ∧ t.flag F.ETH_EVT.HTX_DONE = true ∧
      (t.byteAt spHost (tx + 10) = 1 ∨ t.byteAt spHost (tx + 10) = 2) ∧ ∀ sp x, ¬(sp = spHost ∧ x = tx + 10) → t.byteAt sp x = s.byteAt sp x := by
  have shaped : ∀ (deny : Prop) [Decidable deny] (body : EthOut), ∀ t, t = (((if deny then s.hqErr F.ETH_HQ_CNT.HTX_DENY else s.ethSend 1 0 body).storeBytes
      spHost (tx + 10) (leBytes 1 (if deny then 2 else 1))).set F.ETH_HTX_IDX.HEAD (ringNext tl th)).raise F.ETH_EVT.HTX_DONE →
      t.get F.ETH_HTX_IDX.HEAD = ringNext tl th ∧ t.flag F.ETH_EVT.HTX_DONE = true ∧
      (t.byteAt spHost (tx + 10) = 1 ∨ t.byteAt spHost (tx + 10) = 2) ∧ ∀ sp x, ¬(sp = spHost ∧ x = tx + 10) → t.byteAt sp x = s.byteAt sp x := by
    intro deny _ body t ht
    obtain ⟨u, hu⟩ : ∃ u, u = if deny then s.hqErr F.ETH_HQ_CNT.HTX_DENY else s.ethSend 1 0 body := ⟨_, rfl⟩
    obtain ⟨b, hb⟩ : ∃ b, b = if deny then 2 else 1 := ⟨_, rfl⟩
    have either : b = 2 ∨ b = 1 := by
      rw [hb]
      split
      · exact .inl rfl
      · exact .inr rfl
    have sent : u.mem = s.mem := by
      rw [hu]
      split
      · exact (State.hqErr_kept (.refl 16777226 s) (.refl _)).parts .mem rfl
      · exact (s.ethSend_shows 1 0 body).2.2.1
    rw [← hu, ← hb] at ht
    have mem : t.mem = (u.storeBytes spHost (tx + 10) (leBytes 1 b)).mem := by
      rw [ht, (State.raise_kept (.refl 16777226 _) (.refl _)).parts .mem rfl, State.set_mem]
    refine ⟨?_, ?_, ?_, fun sp x apart => ?_⟩
    · rw [ht, State.get_raise_ne _ (by decide), State.get_set_same _ _ _ (by decide)]
      have pow : 2 ^ tl ≤ 2 ^ 12 := Nat.pow_le_pow_right (by decide) small
      have below : ringNext tl th < 2 ^ tl := Nat.mod_lt _ (Nat.two_pow_pos tl)
      refine Nat.mod_eq_of_lt ?_
      show ringNext tl th < 2 ^ 16
      omega
    · rw [ht]
      exact State.flag_raise _ _ (by decide) rfl
    · rw [State.byteAt_congr mem, ← Nat.add_zero (tx + 10), State.byteAt_storeBytes_inside u (leBytes_getElem? (show 0 < 1 by decide))]
      rcases either with two | one
      · right
        rw [two]
        rfl
      · left
        rw [one]
        rfl
    · rw [State.byteAt_congr mem, State.byteAt_storeBytes_outside, State.byteAt_congr sent]
      rintro ⟨rfl, low, high⟩
      rw [leBytes_length] at high
      exact apart ⟨rfl, by omega⟩
  obtain ⟨len, hlen⟩ : ∃ len, len = s.loadNat spHost (tx + 8) 2 := ⟨_, rfl⟩
  obtain ⟨bs, hbs⟩ : ∃ bs, bs = s.loadBytes spHost (s.loadNat spHost tx 8) len := ⟨_, rfl⟩
  refine ⟨_, ?_, shaped (len < 60 ∨ 1518 < len ∨ deniedTypes.contains (hostEtherType bs) ∨ leNat ((bs.drop 6).take 6) ≠ s.pairMac 1) (.host bs) _ rfl⟩
  show execHostTxSend s = _
  unfold execHostTxSend
  dsimp only
  rw [← isTl, ← isTh, ← isTx, ← hlen, ← hbs, if_pos (by rw [powered, on]; simpa using some_)]

end

/-- Settles O54: each command by its rule above. -/
theorem ethernetTraffic : Obligations.EthernetTraffic := by
  intro s p q n f r g m v fr a gp vp up sq d lg head rx buf room tl th tx
  exact ⟨ethFrameReceived_spec, linkChg_spec, lanLoss_spec, prpSupervisionSend_spec,
    fun waits to_ => ⟨gooseReceived_spec waits to_, svFrameReceived_spec waits to_⟩, gooseTalExpired_spec, gooseRetransmit_spec, svPublish_spec,
    hostRxFrame_spec rfl rfl rfl rfl rfl, hostTxSend_spec rfl rfl rfl⟩
end Sys2Proof.Machine
end

section
/-!
PROOFS. Code changes: load, shadow run, switch and cancellation (R232 to R240).
-/
namespace Sys2Proof.Machine
open Sys2Proof

/-! ### The live outputs, while migration calls run on the spare (R241)

A cycle that runs touches of the tasks' part only the cycles; the outputs of past releases stay. -/

section
variable (s : State)

theorem State.setStatus_out (c : Cycle) (st : Nat) : (s.setStatus c st).tsk.out = s.tsk.out := by
  unfold State.setStatus
  dsimp only
  split
  · rw [State.set_tsk, State.set_tsk]
    rfl
  · rfl

theorem State.endCycle_out (c : Cycle) (st : Nat) : (s.endCycle c st).tsk.out = s.tsk.out := by
  unfold State.endCycle
  dsimp only
  rw [State.setStatus_out, (State.execMax_kept (.refl 2 _) (.refl _)).parts .tsk rfl, State.setLane_tsk]

theorem State.abortExc_out (c : Cycle) (code detail pc : Nat) : (s.abortExc c code detail pc).tsk.out = s.tsk.out := by
  have recorded : (s.recordExc c code detail pc).tsk = s.tsk := (State.recordExc_kept (.refl 16777230 s) (.refl _)).parts .tsk rfl
  unfold State.abortExc
  dsimp only
  rw [State.endCycle_out]
  split
  · rw [State.raise_tsk, recorded]
  · rw [recorded]

theorem State.enter_out (c : Cycle) (v n : Nat) : (s.enter c v n).tsk.out = s.tsk.out := by
  unfold State.enter
  dsimp only
  rw [State.setStatus_out, State.setLane_tsk]

theorem State.dispatch_out (f ln : Nat) : (State.dispatch f ln s).tsk.out = s.tsk.out := by
  induction f generalizing s with
  | zero => rfl
  | succ f ih =>
    unfold State.dispatch
    split
    · rfl
    next c _ =>
      split
      · rw [State.setStatus_out, State.setLane_tsk]
      · split
        · rfl
        next t _ =>
          split
          · rw [ih, State.abortExc_out]
          · exact s.enter_out c _ _

theorem State.schedule_out (ln : Nat) : (s.schedule ln).tsk.out = s.tsk.out := by
  unfold State.schedule
  split
  · rfl
  · exact s.dispatch_out _ _

theorem State.exception_out (c : Cycle) (code detail pc : Nat) : (s.exception c code detail pc).tsk.out = s.tsk.out := by
  unfold State.exception
  rw [State.schedule_out, State.abortExc_out]

/-- What an effect that leaves the tasks' part alone does to the outputs: nothing. -/
theorem State.applyEffect_out (c : Cycle) (cost : Nat) {e : Effect} (apart : KeptE 16783370 s e) :
    (s.applyEffect c cost e).tsk.out = s.tsk.out := by
  have put : ∀ {t : State} (d : Cycle), Kept 16783370 s t → (t.putCyc d).tsk.out = s.tsk.out := fun {t} d k =>
    (show (t.putCyc d).tsk.out = t.tsk.out from rfl).trans (congrArg TskSt.out (k.parts .tsk rfl))
  cases e with
  | trap code detail => exact s.exception_out c _ _ _
  | next t d sticky =>
    unfold State.applyEffect
    dsimp only
    split
    · exact put _ apart
    · exact s.exception_out c _ _ _
  | jump t d target => exact put _ apart
  | back t d target => exact put _ apart
  | stop t d =>
    unfold State.applyEffect
    dsimp only
    rw [State.schedule_out, State.endCycle_out, apart.parts .tsk rfl]

theorem State.runOne_out (c : Cycle) : (s.runOne c).tsk.out = s.tsk.out := by
  unfold State.runOne State.insnGo
  dsimp only
  split
  · exact s.exception_out c _ _ _
  · split
    · exact s.applyEffect_out c _ (wordBody_kept (.refl _ _) (.refl _))
    · exact s.exception_out c _ _ _

theorem State.runCycle_out (f ln key limit : Nat) : (State.runCycle f ln key limit s).tsk.out = s.tsk.out := by
  induction f generalizing s with
  | zero => rfl
  | succ f ih =>
    unfold State.runCycle
    split
    · rfl
    next c _ =>
      split
      · rfl
      · split
        · rw [State.endCycle_out, (State.recordExc_kept (.refl 16777230 s) (.refl _)).parts .tsk rfl]
        · rw [ih, State.runOne_out]

theorem State.placeNoun_tsk (sp nb : Nat) (n : Noun) (ws : List Word) : (s.placeNoun sp nb n ws).tsk = s.tsk :=
  (State.placeNoun_kept (.refl 2048 s) (.refl _)).parts .tsk rfl

/-- The spare at the start of a migration call: the old bytes in the migration copy, and the call entered. -/
def State.migrEntered (ln : Nat) (new : Partition) (i v : Nat) (n : Noun) (oldLayout : Nat) (copy : List Byte) : State :=
  let s := (s.zeroSpace spCopy).storeBytes spCopy 0 copy
  let s := { s with olc := { s.olc with copyLen := copy.length } }
  (s.setLane ln { s.lane ln with run := none, resv := 0 }).enter (migrCycle n new.part ln s.six oldLayout copy.length) v i

theorem State.migrEntered_out (ln : Nat) (new : Partition) (i v : Nat) (n : Noun) (oldLayout : Nat) (copy : List Byte) :
    (s.migrEntered ln new i v n oldLayout copy).tsk.out = s.tsk.out := by
  unfold State.migrEntered
  dsimp only
  rw [State.enter_out, State.setLane_tsk]
  exact congrArg TskSt.out ((State.storeBytes_kept (sp := spCopy) (a := 0) (bs := copy) (.refl 2048 (s.zeroSpace spCopy)) (.refl _)).parts .tsk rfl)

/-- The spare after a migration call, its copy and its lane empty. -/
def State.migrLeft (ln key : Nat) : State :=
  let s := (s.setCycle key none).setLane ln { s.lane ln with run := none, resv := 0 }
  { s.zeroSpace spCopy with olc := { s.olc with copyLen := 0 } }

theorem State.migrate_out (ln : Nat) (new : Partition) (i v : Nat) (n : Noun) (oldLayout : Nat) (copy : List Byte) :
    (s.migrate ln new i v n oldLayout copy).tsk.out = s.tsk.out := by
  obtain ⟨c, hc⟩ : ∃ c, c = migrCycle n new.part ln s.six oldLayout copy.length := ⟨_, rfl⟩
  obtain ⟨t, ht⟩ : ∃ t, t = State.runCycle runFuel ln c.key (2 ^ 70) (s.migrEntered ln new i v n oldLayout copy) := ⟨_, rfl⟩
  have ran : t.tsk.out = s.tsk.out := by rw [ht, State.runCycle_out, State.migrEntered_out]
  have left : (t.migrLeft ln c.key).tsk.out = s.tsk.out := ran
  have shape : s.migrate ln new i v n oldLayout copy = if (t.cycle c.key).any (fun d => d.status == 3) then t.migrLeft ln c.key else
      (((({ t.migrLeft ln c.key with mem := kvPut (fun _ => []) (t.migrLeft ln c.key).mem (spData ln) (s.bytes (spData ln)) } : State).bump
        F.OLC_SHD_HP.MIGR_FAIL).raise F.OLC_EVT.MIGR_FAIL).logNamed "MIGR_FAIL" (leBytes 8 n.id ++ leBytes 4 oldLayout ++ leBytes 4 n.layout)) := by
    rw [ht, hc]
    rfl
  rw [shape]
  split
  · exact left
  · rw [State.logNamed_tsk, State.raise_tsk, State.bump_tsk]
    exact left

theorem State.buildNouns_out (ln : Nat) (old new : Partition) : (s.buildNouns ln old new).tsk.out = s.tsk.out := by
  unfold State.buildNouns
  dsimp only
  refine (foldl_keeps (fun u : State => u.tsk.out) (fun u e => ?_) _ _).trans
    (foldl_keeps (fun u : State => u.tsk.out) (fun u e => congrArg TskSt.out (u.placeNoun_tsk _ _ _ _)) _ _)
  split
  · split
    · exact u.migrate_out _ _ _ _ _ _ _
    · rfl
  · rfl

end

end Sys2Proof.Machine
end

section
/-!
PROOFS. Code changes, phase by phase (R232 to R242).
-/
namespace Sys2Proof.Machine
open Sys2Proof

/-! ### What the phases of a change read -/

section
variable {s t : State}

theorem State.rd_set_congr {f : Field} {a : Nat} (v : Nat) (same : t.rd f.addr = s.rd f.addr) (at_ : t.rd a = s.rd a) :
    (t.set f v).rd a = (s.set f v).rd a := by
  by_cases own : a = f.addr
  · subst own
    unfold State.set
    rw [State.rd_wr_same, State.rd_wr_same, same]
  · rw [State.rd_set_ne _ _ own, State.rd_set_ne _ _ own, at_]

/-- Roles and partitions of the lanes are the same. -/
def SameLanes (s t : State) : Prop := ∀ n, n < 4 → t.rd (A.LNE_L_STATE n) = s.rd (A.LNE_L_STATE n)

theorem SameLanes.trans {u : State} (h : SameLanes s t) (g : SameLanes t u) : SameLanes s u := fun n few => (g n few).trans (h n few)

theorem SameLanes.serviceLane (h : SameLanes s t) (p : Nat) : t.serviceLane p = s.serviceLane p := by
  have role : ∀ n, n < 4 → t.get (F.LNE_L_STATE.ROLE n) = s.get (F.LNE_L_STATE.ROLE n) := fun n few => State.get_congr (h n few)
  have part : ∀ n, n < 4 → t.get (F.LNE_L_STATE.PART n) = s.get (F.LNE_L_STATE.PART n) := fun n few => State.get_congr (h n few)
  unfold State.serviceLane
  simp only [List.find?, role 0 (by decide), role 1 (by decide), role 2 (by decide), role 3 (by decide),
    part 0 (by decide), part 1 (by decide), part 2 (by decide), part 3 (by decide)]

theorem SameLanes.spareLane (h : SameLanes s t) : t.spareLane = s.spareLane := by
  have role : ∀ n, n < 4 → t.get (F.LNE_L_STATE.ROLE n) = s.get (F.LNE_L_STATE.ROLE n) := fun n few => State.get_congr (h n few)
  unfold State.spareLane
  simp only [List.find?, role 0 (by decide), role 1 (by decide), role 2 (by decide), role 3 (by decide)]

theorem sameLanes_checked (pf reg : Nat) (w : Word) (right : Option Nat) : SameLanes s (s.checked pf reg w right) := fun n few =>
  s.rd_checked pf reg w right (by simp only [A.LNE_L_STATE, A.ENG_EVT]; omega) (by simp only [A.LNE_L_STATE, A.CEL_DROP]; omega)
    (by simp only [A.LNE_L_STATE, A.CEL_EVT]; omega)

theorem State.rd_chgFields (w : Word) {a : Nat} (h : a ≠ A.OLC_CHG_CTL) : (s.chgFields w).rd a = s.rd a := by
  unfold State.chgFields
  dsimp only
  rw [State.rd_set_ne _ _ h, State.rd_set_ne _ _ h, State.rd_set_ne _ _ h, State.rd_set_ne _ _ h]

/-- The fields written on two states that read alike read alike. -/
theorem State.rd_chgFields_congr (w : Word) {a : Nat} (ctl : t.rd A.OLC_CHG_CTL = s.rd A.OLC_CHG_CTL) (at_ : t.rd a = s.rd a) :
    (t.chgFields w).rd a = (s.chgFields w).rd a := by
  unfold State.chgFields
  dsimp only
  exact State.rd_set_congr _ (State.rd_set_congr _ (State.rd_set_congr _ (State.rd_set_congr _ ctl ctl) (State.rd_set_congr _ ctl ctl))
      (State.rd_set_congr _ (State.rd_set_congr _ ctl ctl) (State.rd_set_congr _ ctl ctl)))
    (State.rd_set_congr _ (State.rd_set_congr _ (State.rd_set_congr _ ctl ctl) (State.rd_set_congr _ ctl ctl))
      (State.rd_set_congr _ (State.rd_set_congr _ ctl ctl) (State.rd_set_congr _ ctl at_)))

theorem State.chgFields_olc (w : Word) : (s.chgFields w).olc = s.olc := (State.chgFields_kept (.refl 2 s) (.refl _)).parts .olc rfl

theorem sameLanes_chgFields (w : Word) : SameLanes s (s.chgFields w) := fun n few =>
  State.rd_chgFields w (by simp only [A.LNE_L_STATE, A.OLC_CHG_CTL]; omega)

end

/-! ### LOAD (R233) -/

section
variable {s : State} {pf : Fin 2} {w : Word} {img : Option Image}

/-- The change that a LOAD with nothing to refuse begins. -/
def OlcSt.loading (o : OlcSt) (img : Option Image) (six : Nat) : OlcSt := { o with cand := img, img := none, loadSix := six, nocmp := [] }

/-- The registers and the phase of a LOAD of partition `part` that has begun. -/
def State.chgBegun (v : State) (part : Nat) (img : Option Image) : State :=
  ((((v.withOlc (v.olc.loading img v.six)).chgPhase 1).set F.OLC_CHG_REASON.REASON 0).set (F.DMA_C_CTL.OWNER 2) part).dmaShow 2 1

theorem State.chgBegun_olc (v : State) (part : Nat) (img : Option Image) :
    (v.chgBegun part img).olc = { v.olc.loading img v.six with phase := 1 } := by
  unfold State.chgBegun
  rw [(State.dmaShow_kept (.refl 16777226 _) (.refl _)).parts .olc rfl, State.set_olc, State.set_olc, State.chgPhase, State.set_olc]
  rfl

theorem State.get_chgBegun (v : State) (part : Nat) (img : Option Image) {f : Field} (at_ : f.addr = A.OLC_STATUS) :
    (v.chgBegun part img).get f = (v.set F.OLC_STATUS.CHG_STATE 1).get f := by
  unfold State.chgBegun
  rw [State.get_congr (State.rd_dmaShow _ _ _ (by rw [at_]; decide) (by rw [at_]; decide)), State.get_set_ne _ _ (by rw [at_]; decide),
    State.get_set_ne _ _ (by rw [at_]; decide)]
  rfl

theorem State.get_chgBegun_reason (v : State) (part : Nat) (img : Option Image) : (v.chgBegun part img).get F.OLC_CHG_REASON.REASON = 0 := by
  unfold State.chgBegun
  rw [State.get_congr (State.rd_dmaShow _ _ _ (by decide) (by decide)), State.get_set_ne _ _ (by decide), State.get_set_same _ _ _ (by decide)]
  rfl

/-- What a LOAD does once its fields stand. -/
def State.chgLoaded (t : State) (w : Word) (img : Option Image) : State :=
  let busy := t.olc.phase ≠ 0 ∨ t.olc.rpl.isSome
  let t := t.rplAbort
  if busy then t.loadRefuse 4
  else if fieldOf w 16 16 = 0 then t.loadRefuse 0xF
  else if fieldOf w 2 2 = 3 then t.loadRefuse 0xD
  else if fieldOf w 0 2 = 3 ∨ (t.serviceLane (fieldOf w 0 2)).isNone then t.loadRefuse 2
  else if t.spareLane.isNone then t.loadRefuse 3
  else (t.shadowCleared.set F.OLC_STATUS.CHG_PART (fieldOf w 0 2)).chgBegun (fieldOf w 0 2) img

theorem State.chgLoaded_begins {t : State} (idle : t.olc.phase = 0) (none_ : t.olc.rpl = none) (hp : fieldOf w 16 16 ≠ 0)
    (policy : fieldOf w 2 2 ≠ 3) (part : fieldOf w 0 2 ≠ 3) (served : (t.serviceLane (fieldOf w 0 2)).isSome = true)
    (spare : t.spareLane.isSome = true) :
    t.chgLoaded w img = (t.shadowCleared.set F.OLC_STATUS.CHG_PART (fieldOf w 0 2)).chgBegun (fieldOf w 0 2) img := by
  have same : t.rplAbort = t := by
    unfold State.rplAbort
    rw [none_]
  have free : ¬(t.olc.phase ≠ 0 ∨ t.olc.rpl.isSome = true) := by
    rw [idle, none_]
    simp
  obtain ⟨n, at_⟩ := Option.isSome_iff_exists.mp served
  obtain ⟨m, spareAt⟩ := Option.isSome_iff_exists.mp spare
  unfold State.chgLoaded
  dsimp only
  rw [if_neg free, same, if_neg hp, if_neg policy, at_, if_neg (by simp [part]), spareAt]
  rfl

theorem chgLoad_spec (may : s.permits pf A.OLC_CHG_CTL w (some 1)) (kick : bit w.toNat 8 = true) (idle : s.olc.phase = 0)
    (none_ : s.olc.rpl = none) (hp : fieldOf w 16 16 ≠ 0) (policy : fieldOf w 2 2 ≠ 3) (part : fieldOf w 0 2 ≠ 3)
    (served : (s.serviceLane (fieldOf w 0 2)).isSome = true) (spare : s.spareLane.isSome = true) :
    ∃ u, exec (.chgLoad pf w img) s = .next u ∧ u.olc.phase = 1 ∧ u.get F.OLC_STATUS.CHG_STATE = 1 ∧ u.olc.cand = img ∧
      u.get F.OLC_CHG_REASON.REASON = 0 ∧ u.get F.OLC_STATUS.CHG_PART = fieldOf w 0 2 := by
  obtain ⟨t, ht⟩ : ∃ t, t = (s.checked pf A.OLC_CHG_CTL w (some 1)).chgFields w := ⟨_, rfl⟩
  have olc : t.olc = s.olc := by rw [ht, State.chgFields_olc, State.checked_olc]
  have lanes : SameLanes s t := by
    rw [ht]
    exact (sameLanes_checked _ _ _ _).trans (sameLanes_chgFields w)
  have ran : exec (.chgLoad pf w img) s = .next (t.chgLoaded w img) := by
    show execChgLoad pf w img s = _
    unfold execChgLoad
    rw [show needsChange = some 1 from rfl, whenAllowed_acts s pf A.OLC_CHG_CTL w (some 1) may rfl]
    dsimp only
    rw [if_pos kick, ht]
    rfl
  have begins := State.chgLoaded_begins (t := t) (img := img) (by rw [olc, idle]) (by rw [olc, none_]) hp policy part
    (by rw [lanes.serviceLane, served]) (by rw [lanes.spareLane, spare])
  obtain ⟨v, hv⟩ : ∃ v, v = t.shadowCleared.set F.OLC_STATUS.CHG_PART (fieldOf w 0 2) := ⟨_, rfl⟩
  rw [begins, ← hv] at ran
  refine ⟨_, ran, ?_, ?_, ?_, v.get_chgBegun_reason _ _, ?_⟩
  · rw [State.chgBegun_olc]
  · rw [State.get_chgBegun _ _ _ rfl, State.get_set_same _ _ _ (by decide)]
    rfl
  · rw [State.chgBegun_olc]
    rfl
  · rw [State.get_chgBegun _ _ _ rfl, State.get_set_apart _ _ (by decide) (by decide), hv, State.get_set_same _ _ _ (by decide)]
    exact Nat.mod_eq_of_lt (fieldOf_lt _ _ _)

end

/-! ### The image stands in the spare lane (R232, R233) -/

section
variable {s t : State} {x : Image} {p old : Partition} {g : ProgImage} {ln h : Nat} {pf : Fin 2} {w : Word}

/-- The channel that loads the spare is done. -/
def State.loaderDone (s : State) : State := (s.dmaShow 2 2).set (F.DMA_C_CTL.OWNER 2) 7

theorem State.rd_loaderDone {a : Nat} (stat : a ≠ A.DMA_C_STAT 2) (evt : a ≠ A.DMA_EVT) (ctl : a ≠ A.DMA_C_CTL 2) : s.loaderDone.rd a = s.rd a := by
  rw [State.loaderDone, State.rd_set_ne _ _ ctl, State.rd_dmaShow _ _ _ stat evt]

theorem State.loaderDone_kept : Kept 16777226 s s.loaderDone := State.set_kept (State.dmaShow_kept (.refl _ _) (.refl _)) (.of (.refl _) rfl)

theorem sameLanes_loaderDone : SameLanes s s.loaderDone := fun n few =>
  State.rd_loaderDone (by simp only [A.LNE_L_STATE, A.DMA_C_STAT]; omega) (by simp only [A.LNE_L_STATE, A.DMA_EVT]; omega)
    (by simp only [A.LNE_L_STATE, A.DMA_C_CTL]; omega)

theorem State.verifyResult_loaderDone : s.loaderDone.verifyResult x = s.verifyResult x := by
  have sec : s.loaderDone.sec = s.sec := State.loaderDone_kept.parts .sec rfl
  refine State.verifyResult_congr (by rw [sec]) (State.rd_loaderDone (by decide) (by decide) (by decide))
    (State.rd_loaderDone (by decide) (by decide) (by decide)) (fun i few => State.rd_loaderDone ?_ ?_ ?_) (fun i few => State.rd_loaderDone ?_ ?_ ?_) x <;>
    simp only [A.SEC_KEY, A.SEC_SVN, A.DMA_C_STAT, A.DMA_C_CTL, A.DMA_EVT] <;> omega

theorem State.bordersSame_congr (prog : t.tsk.prog = s.tsk.prog) : t.bordersSame old p = s.bordersSame old p := by
  have shared : t.sharedShelves old = s.sharedShelves old := by
    unfold State.sharedShelves State.tasks State.partNo State.partOf
    rw [prog]
  unfold State.bordersSame
  rw [shared]

theorem State.chgReason_loaderDone : s.loaderDone.chgReason x = s.chgReason x := by
  have tsk : s.loaderDone.tsk = s.tsk := State.loaderDone_kept.parts .tsk rfl
  have tamper : s.loaderDone.flag F.SEC_STATUS.TAMPER = s.flag F.SEC_STATUS.TAMPER :=
    State.flag_congr (State.rd_loaderDone (by decide) (by decide) (by decide))
  have part : s.loaderDone.chgPart = s.chgPart := State.get_congr (State.rd_loaderDone (by decide) (by decide) (by decide))
  have borders : ∀ o q, s.loaderDone.bordersSame o q = s.bordersSame o q := fun o q => State.bordersSame_congr (congrArg TskSt.prog tsk)
  unfold State.chgReason State.runningPart
  rw [tsk]
  simp only [State.verifyResult_loaderDone, tamper, part, sameLanes_loaderDone.serviceLane, sameLanes_loaderDone.spareLane, borders]

/-- The change with its image in the spare lane. -/
def OlcSt.shadowing (o : OlcSt) (p : Partition) (ln six : Nat) : OlcSt :=
  { o with img := some p, cand := none, lane := ln, h0 := boundaryAt hyperPeriod (six + 200) }

theorem State.loadCode_lane (u : State) (ln : Nat) (p : Partition) : ((u.loadCode ln p).lane ln).img = some p := by
  unfold State.loadCode State.lane State.setLane
  dsimp only
  rw [kvGet_put_same]

theorem chgLoadDone_spec (phase : s.olc.phase = 2) (cand : s.olc.cand = some x) (clear : s.chgReason x = 0) (body : x.body = .partition p)
    (spare : s.spareLane = some ln) :
    ∃ u, exec .chgLoadDone s = .next u ∧ u.olc.phase = 3 ∧ u.get F.OLC_STATUS.CHG_STATE = 3 ∧ u.olc.img = some p ∧ u.olc.lane = ln ∧
      u.olc.h0 = boundaryAt hyperPeriod (s.six + 200) ∧ (u.lane ln).img = some p := by
  obtain ⟨t, ht⟩ : ∃ t, t = s.loaderDone.loadCode ln p := ⟨_, rfl⟩
  have olc : s.loaderDone.olc = s.olc := State.loaderDone_kept.parts .olc rfl
  have six : t.six = s.six := by
    rw [ht]
    exact congrArg Clk.six (((State.loadCode_kept (.refl 6144 s.loaderDone) (.refl _)).parts .clk rfl).trans (State.loaderDone_kept.parts .clk rfl))
  have ran : exec .chgLoadDone s = .next ((t.withOlc (t.olc.shadowing p ln t.six)).chgPhase 3) := by
    show execChgLoadDone s = _
    unfold execChgLoadDone
    rw [if_pos (.inr phase), ← State.loaderDone]
    dsimp only
    rw [olc, cand]
    dsimp only
    rw [State.chgReason_loaderDone, clear, body, sameLanes_loaderDone.spareLane, spare, ht]
    rfl
  refine ⟨_, ran, ?_, ?_, ?_, ?_, ?_, ?_⟩
  · rw [State.chgPhase, State.set_olc]
  · rw [State.chgPhase, State.get_set_same _ _ _ (by decide)]
    rfl
  · rw [State.chgPhase, State.set_olc]
    rfl
  · rw [State.chgPhase, State.set_olc]
    rfl
  · rw [State.chgPhase, State.set_olc, ← six]
    rfl
  · show (t.lane ln).img = some p
    rw [ht]
    exact State.loadCode_lane _ _ _

/-! ### The shadow run (R234, R238) -/

/-- The shadow starts on the live outputs, shelves, gates and event records. -/
def State.shadowFrom (u : State) : State :=
  u.withOlc { u.olc with
    shadow := true, h0 := u.six, out := u.tsk.out, front := u.tsk.front, back := u.tsk.back, gates := gatesAt u.inj.gates u.six, rt := u.shadowRts }

theorem shadowStart_spec (img : s.olc.img = some p) (runs : s.runningPart p.part = some old) (phase : s.olc.phase = 3) (due : s.olc.h0 ≤ s.six)
    (hyper : s.six % hyperPeriod = 0) (up : s.tsk.up = true) (released : s.outputsOpen = false) (taken : s.snapDue = false) :
    ∃ u, exec .shadowStart s = .next u ∧ u.olc.shadow = true ∧ u.olc.phase = 4 ∧ u.get F.OLC_STATUS.CHG_STATE = 4 ∧ u.olc.h0 = s.six ∧
      u.olc.out = s.tsk.out := by
  obtain ⟨t, ht⟩ : ∃ t, t = s.buildNouns s.olc.lane old p := ⟨_, rfl⟩
  have six : t.six = s.six := by
    rw [ht]
    exact congrArg Clk.six ((State.buildNouns_kept (.refl 17053710 s) (.refl _)).parts .clk rfl)
  have out : t.tsk.out = s.tsk.out := by rw [ht, State.buildNouns_out]
  have guard : (s.olc.phase == 3 && decide (s.olc.h0 ≤ s.six) && s.six % hyperPeriod == 0 && s.tsk.up && !s.outputsOpen && !s.snapDue) = true := by
    rw [phase, hyper, up, released, taken, decide_eq_true due]
    rfl
  have ran : exec .shadowStart s = .next ((t.shadowFrom.chgPhase 4).spareAct 1) := by
    show execShadowStart s = _
    unfold execShadowStart
    rw [img]
    dsimp only
    rw [runs]
    dsimp only
    rw [if_pos guard, ht]
    rfl
  have olc : ((t.shadowFrom.chgPhase 4).spareAct 1).olc = { t.shadowFrom.olc with phase := 4 } := by
    rw [State.spareAct, State.set_olc, State.chgPhase, State.set_olc]
  refine ⟨_, ran, ?_, ?_, ?_, ?_, ?_⟩
  · rw [olc]
    rfl
  · rw [olc]
  · rw [State.get_congr (State.rd_spareAct _ _ (show A.OLC_STATUS ≠ A.LNE_STATUS by decide)), State.chgPhase, State.get_set_same _ _ _ (by decide)]
    rfl
  · rw [olc, ← six]
    rfl
  · rw [olc, ← out]
    rfl

theorem shadowDone_spec (phase : s.olc.phase = 4) (ran : s.olc.h0 + hyperPeriod * s.get F.OLC_CHG_CTL.SHADOW_HP ≤ s.six) :
    ∃ u, exec .shadowDone s = .next u ∧ u.olc.phase = 5 ∧ u.flag F.OLC_EVT.SHADOW_DONE = true := by
  refine ⟨(s.chgPhase 5).raise F.OLC_EVT.SHADOW_DONE, ?_, ?_, State.flag_raise _ _ (by decide) rfl⟩
  · show execShadowDone s = _
    unfold execShadowDone
    rw [if_pos ⟨phase, ran⟩]
  · rw [State.raise_olc, State.chgPhase, State.set_olc]

/-! ### CANCEL (R238) -/

/-- A change given up. -/
def OlcSt.cancelled (o : OlcSt) : OlcSt := { o with cand := none, img := none, switchAt := none }

theorem State.cancelled_shows (t : State) : ((t.withOlc t.olc.cancelled).chgPhase 0).olc.phase = 0 ∧
    ((t.withOlc t.olc.cancelled).chgPhase 0).olc.img = none ∧ ((t.withOlc t.olc.cancelled).chgPhase 0).get F.OLC_STATUS.CHG_STATE = 0 := by
  refine ⟨?_, ?_, ?_⟩
  · rw [State.chgPhase, State.set_olc]
  · rw [State.chgPhase, State.set_olc]
    rfl
  · rw [State.chgPhase, State.get_set_same _ _ _ (by decide)]
    rfl

theorem chgCancel_spec (may : s.permits pf A.OLC_CHG_CTL w (some 1)) (kick : bit w.toNat 10 = true) :
    ∃ u, exec (.chgCancel pf w) s = .next u ∧ u.olc.phase = 0 ∧ u.olc.img = none ∧ u.get F.OLC_STATUS.CHG_STATE = 0 := by
  obtain ⟨t, ht⟩ : ∃ t, t = (s.checked pf A.OLC_CHG_CTL w (some 1)).chgFields w := ⟨_, rfl⟩
  obtain ⟨v, hv⟩ : ∃ v, v = if t.olc.phase ≤ 2 then t else t.spareIdle := ⟨_, rfl⟩
  refine ⟨(v.withOlc v.olc.cancelled).chgPhase 0, ?_, v.cancelled_shows⟩
  show execChgCancel pf w s = _
  unfold execChgCancel
  rw [show needsChange = some 1 from rfl, whenAllowed_acts s pf A.OLC_CHG_CTL w (some 1) may rfl]
  dsimp only
  rw [if_pos kick, hv, ht]
  rfl

/-! ### SWITCH (R239) -/

/-- The reason to refuse a switch comes from the change, the forces and these words. -/
theorem State.switchReason_congr (olc : t.olc = s.olc) (frc : t.frc = s.frc) (diff : t.rd A.OLC_SHD_DIFF = s.rd A.OLC_SHD_DIFF)
    (ctl : t.rd A.OLC_CHG_CTL = s.rd A.OLC_CHG_CTL) (op : t.rd A.PWR_STATE = s.rd A.PWR_STATE)
    (forces : ∀ n, t.rd (A.FRC_E_CTL n) = s.rd (A.FRC_E_CTL n)) (p : Partition) : t.switchReason p = s.switchReason p := by
  have count : t.get F.OLC_SHD_DIFF.COUNT = s.get F.OLC_SHD_DIFF.COUNT := State.get_congr diff
  have accept : t.flag F.OLC_CHG_CTL.ACCEPT_DIFF = s.flag F.OLC_CHG_CTL.ACCEPT_DIFF := State.flag_congr ctl
  have policy : t.get F.OLC_CHG_CTL.FORCE_POLICY = s.get F.OLC_CHG_CTL.FORCE_POLICY := State.get_congr ctl
  have state : t.opstate = s.opstate := State.get_congr op
  have active : ∀ n, t.flag (F.FRC_E_CTL.ACTIVE n) = s.flag (F.FRC_E_CTL.ACTIVE n) := fun n => State.flag_congr (forces n)
  have pending : ∀ n, t.flag (F.FRC_E_CTL.PENDING n) = s.flag (F.FRC_E_CTL.PENDING n) := fun n => State.flag_congr (forces n)
  have part : ∀ n, t.get (F.FRC_E_CTL.PART n) = s.get (F.FRC_E_CTL.PART n) := fun n => State.get_congr (forces n)
  have bound : t.partForces p.part = s.partForces p.part := by
    unfold State.partForces
    simp only [frc, active, pending, part]
  unfold State.switchReason
  rw [olc, count, accept, policy, state, bound]

theorem State.switchReason_checked (s : State) (pf reg : Nat) (w : Word) (right : Option Nat) (v : Word) (p : Partition) :
    ((s.checked pf reg w right).chgFields v).switchReason p = (s.chgFields v).switchReason p := by
  have ctl : (s.checked pf reg w right).rd A.OLC_CHG_CTL = s.rd A.OLC_CHG_CTL := s.rd_checked pf reg w right (by decide) (by decide) (by decide)
  have frc : ∀ u : State, (u.chgFields v).frc = u.frc := fun u => (State.chgFields_kept (.refl 2 u) (.refl _)).parts .frc rfl
  refine State.switchReason_congr ?_ ?_ (State.rd_chgFields_congr v ctl ?_) (State.rd_chgFields_congr v ctl ctl)
    (State.rd_chgFields_congr v ctl ?_) (fun n => State.rd_chgFields_congr v ctl ?_) p
  · rw [State.chgFields_olc, State.chgFields_olc, State.checked_olc]
  · rw [frc, frc, State.checked_frc]
  · exact s.rd_checked pf reg w right (by decide) (by decide) (by decide)
  · exact s.rd_checked pf reg w right (by decide) (by decide) (by decide)
  · have row : A.FRC_E_CTL n % 32 = 8 := by simp only [A.FRC_E_CTL]; omega
    refine s.rd_checked_of pf reg w right ⟨?_, ?_, ?_⟩ ?_ ?_ <;>
      simp only [A.ENG_DENY_CNT, A.ENG_DENY_LAST, A.ENG_EVT, A.CEL_DROP, A.CEL_EVT] <;> omega

theorem chgSwitch_spec (may : s.permits pf A.OLC_CHG_CTL w (some 1)) (kick : bit w.toNat 9 = true) (phase : s.olc.phase = 5)
    (img : s.olc.img = some p) (clear : (s.chgFields w).switchReason p = 0) :
    ∃ u, exec (.chgSwitch pf w) s = .next u ∧ u.olc.phase = 6 ∧ u.olc.switchAt = some (boundaryAt hyperPeriod (s.six + 200)) := by
  obtain ⟨t, ht⟩ : ∃ t, t = (s.checked pf A.OLC_CHG_CTL w (some 1)).chgFields w := ⟨_, rfl⟩
  have olc : t.olc = s.olc := by rw [ht, State.chgFields_olc, State.checked_olc]
  have six : t.six = s.six := by
    rw [ht]
    exact (congrArg Clk.six ((State.chgFields_kept (.refl 2 _) (.refl _)).parts .clk rfl)).trans (State.checked_six _ _ _ _ _)
  have reason : t.switchReason p = 0 := by rw [ht, State.switchReason_checked, clear]
  have ran : exec (.chgSwitch pf w) s =
      .next ((t.withOlc { t.olc with switchAt := some (boundaryAt hyperPeriod (t.six + 200)) }).chgPhase 6) := by
    show execChgSwitch pf w s = _
    unfold execChgSwitch
    rw [show needsChange = some 1 from rfl, whenAllowed_acts s pf A.OLC_CHG_CTL w (some 1) may rfl]
    dsimp only
    rw [← ht, olc, if_pos ⟨kick, by rw [phase]; decide⟩, img]
    dsimp only
    rw [reason, if_neg (by decide)]
    rw [← olc]
    rfl
  refine ⟨_, ran, ?_, ?_⟩
  · rw [State.chgPhase, State.set_olc]
  · rw [State.chgPhase, State.set_olc, ← six]
    rfl

/-! ### The switch itself (R240) -/

/-- The end of a switch, on the state whose program is the new one. -/
def State.switchShown (u : State) (new : Partition) (d : List Byte) : State :=
  let s := new.tasks.foldl (fun u t => u.showTask new.part t) (u.showRegions new)
  (((s.raise F.OLC_EVT.SWITCHED).logNamedSev "SWITCHED" 3 d).chgPhase 0).spareAct 0

theorem State.switchShown_shows (u : State) (new : Partition) (d : List Byte) : (u.switchShown new d).tsk = u.tsk ∧
    (u.switchShown new d).olc = { u.olc with phase := 0 } ∧ (u.switchShown new d).flag F.OLC_EVT.SWITCHED = true := by
  obtain ⟨v, hv⟩ : ∃ v, v = new.tasks.foldl (fun u t => u.showTask new.part t) (u.showRegions new) := ⟨_, rfl⟩
  have kept : Kept 2 u v := by
    rw [hv]
    exact Kept.foldl (State.showRegions_kept (.refl _ _) (.refl _)) (fun _ _ k => State.showTask_kept k (.refl _))
  have shape : u.switchShown new d = (((v.raise F.OLC_EVT.SWITCHED).logNamedSev "SWITCHED" 3 d).chgPhase 0).spareAct 0 := by
    rw [hv]
    rfl
  rw [shape]
  refine ⟨?_, ?_, ?_⟩
  · rw [State.spareAct, State.set_tsk, State.chgPhase, State.set_tsk]
    exact (State.logNamedSev_tsk _ _ _ _).trans ((State.raise_tsk _ _).trans (kept.parts .tsk rfl))
  · rw [State.spareAct, State.set_olc, State.chgPhase, State.set_olc, State.logNamedSev_olc, State.raise_olc, kept.parts .olc rfl]
  · rw [State.flag_congr (State.rd_spareAct _ _ (show A.OLC_EVT ≠ A.LNE_STATUS by decide)), State.chgPhase,
      State.flag_congr (State.rd_set_ne _ _ (show A.OLC_EVT ≠ A.OLC_STATUS by decide))]
    refine State.flag_of_one _ ?_
    show ((v.raise F.OLC_EVT.SWITCHED).logNamedSev "SWITCHED" 3 d).get F.OLC_EVT.SWITCHED = 1
    rw [State.get_logNamedSev _ _ _ _ (by decide) (by decide), State.get_raise _ (by decide)]
    rfl

/-- The program `h` in force, and the change without its image. -/
def State.inForce (v : State) (h : ProgImage) : State :=
  { v with tsk := { v.tsk with prog := some h }, olc := { v.olc with img := none, switchAt := none } }

/-- A switch ends with the new program in force. -/
theorem State.switchTo_ends (s : State) (g : ProgImage) (old new : Partition) : ∃ (v : State) (d : List Byte),
    s.switchTo g old new = (v.inForce (progWith g new)).switchShown new d := ⟨_, _, rfl⟩

theorem codeSwitch_spec (at_ : s.olc.switchAt = some h) (img : s.olc.img = some p) (prog : s.tsk.prog = some g) (due : h ≤ s.six)
    (hyper : s.six % hyperPeriod = 0) (up : s.tsk.up = true) (released : s.outputsOpen = false) (taken : s.snapDue = false)
    (clear : s.switchReason p = 0) (runs : s.runningPart p.part = some old) :
    ∃ u, exec .codeSwitch s = .next u ∧ u.olc.phase = 0 ∧ u.olc.img = none ∧ u.tsk.prog = some (progWith g p) ∧
      u.flag F.OLC_EVT.SWITCHED = true := by
  have guard : (decide (h ≤ s.six) && s.six % hyperPeriod == 0 && s.tsk.up && !s.outputsOpen && !s.snapDue) = true := by
    rw [hyper, up, released, taken, decide_eq_true due]
    rfl
  have ran : exec .codeSwitch s = .next (s.switchTo g old p) := by
    show execCodeSwitch s = _
    unfold execCodeSwitch
    rw [at_, img, prog]
    dsimp only
    rw [if_pos guard, clear, runs]
    rfl
  obtain ⟨v, d, ends⟩ := s.switchTo_ends g old p
  rw [ends] at ran
  obtain ⟨tsk, olc, flag⟩ := (v.inForce (progWith g p)).switchShown_shows p d
  refine ⟨_, ran, ?_, ?_, ?_, flag⟩
  · rw [olc]
  · rw [olc]
    rfl
  · rw [tsk]
    rfl

end

/-- Settles O43: load, the image in the spare lane, the shadow's start and end, CANCEL, SWITCH and the switch. -/
theorem codeChangePhases : Obligations.CodeChangePhases := by
  intro s pf w img x p old g ln h
  exact ⟨chgLoad_spec, chgLoadDone_spec, shadowStart_spec, shadowDone_spec, chgCancel_spec, chgSwitch_spec, codeSwitch_spec⟩

end Sys2Proof.Machine
end
